-- ==== Sys2Proof/Word.lean ====
section
/-! DEFINITION. The word types of the GW3216 (R5: byte, half, word, dword; R6: registers are 32 bits). -/

namespace Sys2Proof

/-- R5: a byte is 8 bits. -/
abbrev Byte := BitVec 8

/-- R5: a half is 16 bits. -/
abbrev Half := BitVec 16

/-- R5, R6: a word is 32 bits; every register is one word. -/
abbrev Word := BitVec 32

/-- R5: a dword is 64 bits. -/
abbrev Dword := BitVec 64

/-- A sparse table: pairs of key and value. The canonical form (keys strictly rising) is kept by the
operations of `Machine/Bits.lean`. -/
abbrev Kv (α : Type) := List (Nat × α)

end Sys2Proof
end

