-- ==== Sys2Proof/Syntax.lean ====
section
/-! DEFINITION. The commands of the GW3216 (Azkofold): one constructor of `Instr` for every row of the
opcode table, and the operands they carry. The device is a block: a command is a register access, a
command entry, a job, a message or frame that arrives, a timer that reaches its time, or a step one of the
device's own engines takes; what the environment supplies with it (bytes read from host memory, a frame, a
response code) is an operand. -/

namespace Sys2Proof

/-- A PCIe function: PF n (R39), or VF v of PF p. -/
inductive Fn where
  | pf (n : Nat)
  | vf (p v : Nat)
  deriving DecidableEq, Repr

/-- An admin entry as it was read (R102, R108): the PF whose ring it stood on, TAG, OPC, LEN, the chain
flags, dwords 1 to 6, and the bytes of the buffer at dword 1; `bufErr` is the (STATUS, DETAIL) of a buffer
read that failed (R53), if it did. -/
structure AdmEntry where
  pf : Nat
  tag : Nat
  opc : Nat := 0
  len : Nat := 0
  first : Bool := true
  last : Bool := true
  d1 : Dword := 0
  d2 : Dword := 0
  d3 : Dword := 0
  d4 : Dword := 0
  d5 : Dword := 0
  d6 : Dword := 0
  buf : List Byte := []
  bufErr : Option (Nat × Nat) := none
  deriving DecidableEq, Repr, Inhabited

/-- A submission entry of 64 bytes (R108); of a Retas entry the four dwords it has (R136). -/
structure SqEntry where
  d0 : Dword
  d1 : Dword := 0
  d2 : Dword := 0
  d3 : Dword := 0
  d4 : Dword := 0
  d5 : Dword := 0
  d6 : Dword := 0
  d7 : Dword := 0
  deriving DecidableEq, Repr, Inhabited

/-- How a read the device sent ended (R53): with data, or with a completion that carries an error. -/
inductive ReadEnd where
  | data (b : List Byte)
  | unsupported
  | abort
  | poisoned
  deriving DecidableEq, Repr

/-- Memory errors met during a step (R27, R31): corrected errors, and the 64-byte HBM lines (by address)
in which an uncorrectable error was detected, and uncorrectable errors in the Square's SRAM. -/
structure Ecc where
  ce : Nat := 0
  ueLines : List Nat := []
  sramUe : Nat := 0
  deriving DecidableEq, Repr, Inhabited

/-- A field of a function's configuration space that the host may write (R44, R45, R52, R54, R55). -/
inductive CfgField where
  | memSpace | msixEnable | functionMask | atsEnable | priEnable | priReset | pasidEnable
  | roEnable | idoEnable | ltrEnable | ctv | mrrs | stu | priAlloc | numVfs | vfEnable
  | maxSnoop | maxNoSnoop | bar4Log2 | bar4Base | aspm | pmeStatusClear | uncStatusClear | corStatusClear
  deriving DecidableEq, Repr

/-- What the host side brings to one chunk of a copy (R150, R165): source bytes that arrived, how the read
ended if it failed after them, and a write found to fail before it was issued, with its offset in the
chunk (R46, R48). -/
structure ChunkIn where
  data : List Byte := []
  rdErr : Option (Nat × Nat) := none
  wrErr : Option (Nat × Nat × Nat) := none
  deriving DecidableEq, Repr, Inhabited

/-- A configuration request (R68): a read of the dword at an offset, or a write of a field. -/
inductive CfgOp where
  | read (off : Nat)
  | write (field : CfgField) (value : Nat)
  deriving DecidableEq, Repr

/-- What unmasks MSI-X vectors (R568). -/
inductive MsixOp where
  | enable
  | clearFunctionMask
  | unmaskVector (v : Nat)
  deriving DecidableEq, Repr

/-- The fatal errors of R65. -/
inductive FatalErr where
  | malformed | receiverOverflow | dataLinkProtocol | flowControlProtocol
  deriving DecidableEq, Repr

/-- A JTAG instruction (R483); any other one acts only while the debug port is open. -/
inductive JtagInst where
  | bypass | idcode | samplePreload | extest | other (code : Nat)
  deriving DecidableEq, Repr, Inhabited

/-- One base instruction of a thread, as far as this chapter gives it meaning (R348, R350, R351): the memory access it
makes, or that it is fetched at pc and has the effect that the RISC-V standard gives it on one register and on pc (the
standard is another document: its effect comes with the command). Atomics: 0 swap, 1 add, 2 xor, 3 and, 4 or, 5 min, 6 max, 7 minu, 8 maxu,
9 load-reserved, 10 store-conditional. -/
inductive ThreadAcc where
  | load (rd rs1 : Nat) (imm : Int) (size : Nat) (signed : Bool) (ilen : Nat)
  | store (rs1 rs2 : Nat) (imm : Int) (size ilen : Nat)
  | amo (op rd rs1 rs2 size : Nat)
  | fetch (rd : Nat) (value : Dword) (next : Nat)
  deriving DecidableEq, Repr, Inhabited


/-- A ring of a state image (R98): its configuration as RING_CREATE gives it, and its positions: a submission ring's tail,
started index and progress index, or a completion ring's write position and head. -/
structure ImgRing where
  isCq : Bool
  loc : Nat
  d2 : Dword
  d3 : Dword
  d4 : Dword
  d5 : Dword
  pos : Nat
  mark : Nat
  prog : Nat := 0
  deriving DecidableEq, Repr, Inhabited

/-- A state image (R98), opened: the spec gives its contents and length, not its layout, so the command brings what it
holds. Contexts: number, whether it is of the crypto engines, its parameter block, its LBADS. Keys: slot, type,
usage, origin, material. -/
structure TenImage where
  rings : List ImgRing := []
  ctxs : List (Nat × Bool × List Byte × Nat) := []
  keys : List (Nat × Nat × Nat × Nat × List Byte) := []
  deriving DecidableEq, Repr, Inhabited

/-- What the PCS reports with a frame (R179, R188): the FEC codewords it spans, corrected and uncorrectable ones and corrected
symbols, a code error, and that BER is high. -/
structure RxPhy where
  codewords : Nat := 0
  corrected : Nat := 0
  uncorrectable : Nat := 0
  symbols : Nat := 0
  codeErr : Bool := false
  hiBer : Bool := false
  deriving DecidableEq, Repr, Inhabited

/-- Who makes a BAR0 access (R549): a function of the host, a thread of a packet core, or another master by its identity (R460). -/
inductive Master where
  | fn (f : Fn)
  | other (id : Nat)
  deriving DecidableEq, Repr, Inhabited

/-- The commands: one constructor per row of the opcode table. -/
inductive Instr where
  /-- REGISTER_WRITE (R7): A BAR0 write to a register that has no row of its own stores or ignores the value per its access code. -/
  | registerWrite (fn : Fn) (off size : Nat) (value : Dword) (acc : ThreadAcc)
  /-- READ_CLEAR (R7): A read of an RC register returns the current value and clears it, keeping any increment of the same clock. -/
  | readClear (fn : Fn) (off size : Nat)
  /-- BAR0_BAD_ACCESS (R64): A BAR0 access of wrong size or alignment completes without effect and is counted and latched. -/
  | bar0BadAccess (fn : Fn) (off size : Nat) (write : Bool)
  /-- GLB_SQ_APPLY (R25): Writing GLB_SQ_APPLY validates and applies all Square pool minimums and caps at once, or refuses them. -/
  | glbSqApply (pf : Nat) (value : Word)
  /-- TCAM_INV (R216): The table-update engine clears V of the TCAM entry at INDEX. -/
  | tcamInv
  /-- TCAM_WRITE (R216): The table-update engine writes data, care, PRIO and result of a TCAM segment whose group is invalid. -/
  | tcamWrite
  /-- TCAM_VAL (R216): The table-update engine sets V of the TCAM group at a lead index. -/
  | tcamVal
  /-- LINE_WRITE (R218): The table-update engine replaces a 64-byte table line in HBM and the flow cache in one write. -/
  | lineWrite
  /-- LINE_CAS (R217): The table-update engine writes a line only when the compared dword matches, else returns CAS_FAIL. -/
  | lineCas
  /-- IND_WRITE (R216): The table-update engine writes COUNT indirection entries from INDEX onward. -/
  | indWrite
  /-- TBL_DESC (R216): The table-update engine replaces a table or indirection descriptor in one commit. -/
  | tblDesc
  /-- FENCE (R216): The table-update engine takes a record that changes no table and returns its outcome. -/
  | fence
  /-- CONTROL_WATCHDOG_EXPIRE (R18): Control firmware fails to renew its watchdog for 100 ms and the management controller restarts the control cluster. -/
  | controlWatchdogExpire
  /-- CONTROL_RESTART_DONE (R18): The restarted control cluster completes fetched commands with ABORTED and sets GLB_STAT.CTL_RESTARTED. -/
  | controlRestartDone
  /-- MGMT_WATCHDOG_EXPIRE (R18): The management controller fails to renew its watchdog for 1 s and always-on hardware restarts it from the boot ROM. -/
  | mgmtWatchdogExpire
  /-- PCIE_LINK_UP (R60): A host port link trains to DL_Up and the port accepts configuration requests. -/
  | pcieLinkUp (p speed width : Nat) (flit : Bool)
  /-- PCIE_LINK_DOWN (R60): A surprise link-down resets the port, resets its tenancies, frees its tags and sets LINK_LOST. -/
  | pcieLinkDown (p : Nat)
  /-- CONFIG_REQUEST (R68): A configuration request is answered, with Configuration Request Retry Status until firmware is ready. -/
  | configRequest (fn : Fn) (bus : Nat) (op : CfgOp)
  /-- VF_ENABLE_CLEAR (R77): Clearing VF Enable resets and then unbinds the tenancies bound to that PF's VFs. -/
  | vfEnableClear (pf : Nat)
  /-- CASEMENT_WRITE (R61): A posted write to BAR4 is translated through the committed window set into HBM. -/
  | casementWrite (p rid off : Nat) (data : List Byte)
  /-- CASEMENT_READ (R61): A read of BAR4 is translated through the committed window set and completed from HBM. -/
  | casementRead (p rid off n : Nat) (ecc : Ecc)
  /-- CASEMENT_ATOMIC (R61): An AtomicOp to BAR4 receives Unsupported Request. -/
  | casementAtomic (p : Nat)
  /-- HIF_WIN_COMMIT (R62): Writing HIF_WIN_COMMIT validates the shadow window set or refuses it with BUSY_ERR or CFG_ERR. -/
  | hifWinCommit (pf p : Nat) (value : Word)
  /-- WIN_SET_APPLY (R62): A validated window set applies at the next TLP boundary and RETIRED clears. -/
  | winSetApply (p : Nat)
  /-- WIN_RETIRED (R63): The last old-set TLP drains and HIF_WIN_STAT.RETIRED sets. -/
  | winRetired (p : Nat)
  /-- TRANSLATION_COMPLETION (R46): An ATS translation completion arrives and is cached, discarded as stale, or fails the job with XLATE. -/
  | translationCompletion (p tag log2 addr : Nat) (read write : Bool) (ending : ReadEnd)
  /-- PAGE_REQUEST_RESPONSE (R48): A page request response resumes, ends or disables page requests for the job. -/
  | pageRequestResponse (group code : Nat)
  /-- PRI_TIMEOUT (R48): No page response within HIF_PRI_TIMEOUT ends the job with TIMEOUT, detail PRI. -/
  | priTimeout (group : Nat)
  /-- INVALIDATION_REQUEST (R47): An ATS Invalidation Request is queued and its cache entries are removed. -/
  | invalidationRequest (p itag : Nat) (fn : Fn) (pasid : Option Nat) (page log2 : Nat)
  /-- INVALIDATION_COMPLETION (R47): Once affected writes are sent and reads completed, the Invalidation Completion is returned. -/
  | invalidationCompletion (p : Nat)
  /-- READ_ISSUE (R51): A queued read takes a free tag within the port and tenancy limits and is sent. -/
  | readIssue (p ten : Nat)
  /-- READ_COMPLETION (R51): A completion with the last byte delivers the data and frees the tag, or ends the job on error. -/
  | readCompletion (p tag : Nat) (ending : ReadEnd)
  /-- COMPLETION_TIMEOUT (R51): A read's completion timer expires, the job ends with TIMEOUT and the tag is quarantined. -/
  | completionTimeout (p tag : Nat)
  /-- LATE_COMPLETION (R51): A completion for a quarantined tag is discarded, counted and the tag returned. -/
  | lateCompletion (p tag : Nat)
  /-- QUARANTINE_RELEASE (R51): Twice the timeout passes with no completion and the quarantined tag returns to use. -/
  | quarantineRelease (p tag : Nat)
  /-- LTR_SEND (R56): The device sends an LTR message when the tolerance rung falls, or rises after 100 µs. -/
  | ltrSend (p : Nat)
  /-- L1_ENTRY_REQUEST (R57): After 16 µs without TLP or DLLP traffic the device requests L1. -/
  | l1EntryRequest (p : Nat)
  /-- D3HOT_ENTRY (R58): A PF enters D3hot; DMA stops or started work finishes into stashes. -/
  | d3hotEntry (pf : Nat)
  /-- D0_RETURN (R58): A PF returns to D0 and held completions then due interrupts are written. -/
  | d0Return (pf : Nat)
  /-- BUS_MASTER_CLEAR (R567): Clearing Bus Master Enable stops new memory requests and holds completions and interrupts. -/
  | busMasterClear (fn : Fn)
  /-- BUS_MASTER_SET (R567): Setting Bus Master Enable writes held completions, sends due interrupts and resumes. -/
  | busMasterSet (fn : Fn)
  /-- MSIX_UNMASK (R568): Enabling or unmasking MSI-X sends each pending vector's message and clears its PBA bit. -/
  | msixUnmask (fn : Fn) (op : MsixOp)
  /-- PF_FLR (R66): Initiate FLR on a PF resets it and its VFs and resets their tenancies. -/
  | pfFlr (pf : Nat)
  /-- VF_FLR (R66): Initiate FLR on a VF resets it and the tenancies bound to it. -/
  | vfFlr (pf vf : Nat)
  /-- HOT_RESET (R66): A hot reset received on a port resets its functions and tenancies. -/
  | hotReset (p : Nat)
  /-- PORT_FUNDAMENTAL_RESET (R66): One PERSTn_N asserted alone resets that port and applies its PFs' VF counts. -/
  | portFundamentalReset (p : Nat)
  /-- DEVICE_FUNDAMENTAL_RESET (R66): Both PERSTn_N asserted together for 100 µs or more reset the device per the reset matrix. -/
  | deviceFundamentalReset (lost : List Nat)
  /-- POISONED_TLP (R65): A poisoned write to BAR0, BAR2 or BAR4 is discarded and recorded in AER. -/
  | poisonedTlp (fn : Fn) (bar : Nat)
  /-- FATAL_TLP_ERROR (R65): A malformed TLP or link protocol error discards the TLP and records a fatal error. -/
  | fatalTlpError (p : Nat) (kind : FatalErr)
  /-- TEN_CREATE (R77): Reserves quotas and moves a FREE tenancy to CREATED with starting values. -/
  | tenCreate (e : AdmEntry)
  /-- TEN_DESTROY (R77): Returns quotas, sends an account-boundary marker and frees a CREATED tenancy. -/
  | tenDestroy (e : AdmEntry)
  /-- TEN_BIND (R74): Binds a CREATED tenancy to a function and PASID and makes its doorbell page live. -/
  | tenBind (e : AdmEntry)
  /-- TEN_UNBIND (R77): Performs a tenancy reset and unbinds a BOUND tenancy to CREATED. -/
  | tenUnbind (e : AdmEntry)
  /-- TEN_OPEN (R77): Moves a BOUND tenancy's Shutter to OPEN and sends pending IMT messages. -/
  | tenOpen (e : AdmEntry)
  /-- TEN_CLOSE (R84): Moves an OPEN tenancy to DRAINING, stops fetching and finishes or aborts started work. -/
  | tenClose (e : AdmEntry)
  /-- TEN_RESET (R91): Starts a tenancy reset of a BOUND, OPEN or DRAINING tenancy. -/
  | tenReset (e : AdmEntry)
  /-- TEN_SET_SHARE (R87): Records a new weight, floor and ceiling for a tenancy. -/
  | tenSetShare (e : AdmEntry)
  /-- LOG_START (R94): Starts dirty-page logging of a tenancy in epoch 0 on buffer A. -/
  | logStart (e : AdmEntry)
  /-- LOG_FLUSH (R96): Ends the current log epoch and starts the next on the other buffer. -/
  | logFlush (e : AdmEntry)
  /-- LOG_STOP (R97): Flushes the current epoch and ends dirty-page logging. -/
  | logStop (e : AdmEntry)
  /-- TEN_EXPORT (R98): Writes the authenticated state image of a BOUND tenancy wrapped under the transfer key. -/
  | tenExport (e : AdmEntry)
  /-- TEN_IMPORT (R98): Loads an authenticated state image into a BOUND tenancy or refuses it whole. -/
  | tenImport (e : AdmEntry) (img : Option TenImage)
  /-- IMT_WRITE (R101): Replaces an interrupt message table entry in one step under the ownership rules. -/
  | imtWrite (e : AdmEntry)
  /-- IMT_READ (R99): Writes an interrupt message table entry to the buffer. -/
  | imtRead (e : AdmEntry)
  /-- DRAIN_COMPLETE (R84): The drain ends; Shutter CLOSED, tenancy BOUND and the TEN_CLOSE completion written. -/
  | drainComplete (ten : Nat)
  /-- TENANCY_RESET_DONE (R91): All engines report no old-GEN work; rings reset, Shutter CLOSED and state BOUND. -/
  | tenancyResetDone (ten : Nat)
  /-- SHARE_APPLY (R90): A waiting share takes effect at the port's next round boundary and its command completes. -/
  | shareApply (p : Nat)
  /-- LOG_FLUSH_READ_DONE (R96): The zero-length read after the last bitmap write completes and the flush completion is written. -/
  | logFlushReadDone (ten : Nat)
  /-- SQ_DOORBELL (R116): A submission doorbell records a new tail when accepted, else counts and sends DB_BAD. -/
  | sqDoorbell (fn : Fn) (page off size : Nat) (value : Dword)
  /-- DOORBELL_INV (R119): A doorbell with INV drops unstarted cached entries and refetches from the started position. -/
  | doorbellInv (fn : Fn) (page off size : Nat) (value : Dword)
  /-- CQ_DOORBELL (R116): A completion doorbell records a new head and flushes the stash first. -/
  | cqDoorbell (fn : Fn) (page off size : Nat) (value : Dword)
  /-- RETAS_PI_WRITE (R137): A Retas producer index write posts entries or is discarded when out of range. -/
  | retasPiWrite (fn : Fn) (page off size : Nat) (value : Dword)
  /-- RETAS_CI_WRITE (R135): A Retas consumer index write frees completion positions. -/
  | retasCiWrite (fn : Fn) (page off size : Nat) (value : Dword)
  /-- STRAY_DOORBELL (R42): A write to a doorbell page that is not live is discarded and counted in HIF_DB_STRAY. -/
  | strayDoorbell (fn : Fn) (page off size : Nat) (value : Dword)
  /-- ENTRY_FETCH (R118): The device prefetches posted submission entries of a ring into the descriptor cache. -/
  | entryFetch (q : Nat)
  /-- ENTRY_FETCH_DONE (R120): Fetched entry bytes arrive and are checked for phase and fields. -/
  | entryFetchDone (q : Nat) (bytes : List Byte) (err : Option (Nat × Nat))
  /-- PHASE_REREAD (R114): An entry with wrong phase is reread after 1 µs, and after four tries completes with PHASE. -/
  | phaseReread (q : Nat) (bytes : List Byte) (err : Option (Nat × Nat))
  /-- SCHEDULER_TURN (R123): The port's scheduler serves a ring turn of a tenancy, starting up to BURST entries. -/
  | schedulerTurn (p : Nat)
  /-- NOP (R109): Completes DONE once earlier entries complete, fencing writes when BAR is set. -/
  | nop (q pos : Nat)
  /-- TX (R110): Reads one frame or gather part from host memory for transmission. -/
  | tx (q pos : Nat)
  /-- RX_BUF (R110): Posts one receive buffer on an RX ring. -/
  | rxBuf (q : Nat)
  /-- RX_FRAME_PLACE (R125): An arriving frame takes the next posted RX_BUF of its ring, or is dropped and counted. -/
  | rxFramePlace (tok : Nat) (xlatFault : Bool)
  /-- JOB_COMPLETION (R126): A finished job's completion entry or progress index is written in order. -/
  | jobCompletion (q pos : Nat)
  /-- BARRIER_READ_DONE (R127): The zero-length confirming read of a BAR job completes and the completion is written. -/
  | barrierReadDone (q pos : Nat) (err : Option (Nat × Nat))
  /-- CQ_STALL_TIMEOUT (R131): The stall timer reaches RING_CQ_STALL_TIME; the ring goes STALLED and CQ_STALLED is sent. -/
  | cqStallTimeout (c : Nat)
  /-- MOD_TIMER_EXPIRE (R132): An interrupt target's moderation timer reaches MOD_TIME and its interrupt becomes due. -/
  | modTimerExpire (isCq : Bool) (ring : Nat)
  /-- RING_CREATE (R140): Creates a ring of a tenancy with its class, size and completion target. -/
  | ringCreate (e : AdmEntry)
  /-- RING_DESTROY (R140): Disables a ring and frees its local index. -/
  | ringDestroy (e : AdmEntry)
  /-- RING_DCINV (R119): Holds a submission ring, drops unstarted cached entries and returns the started position. -/
  | ringDcinv (e : AdmEntry)
  /-- RING_RESUME (R140): Returns a HELD or STALLED ring to ACTIVE. -/
  | ringResume (e : AdmEntry)
  /-- RING_SET_MOD (R132): Sets the moderation and vector of an interrupt target. -/
  | ringSetMod (e : AdmEntry)
  /-- RING_SET_SCHED (R140): Sets RWEIGHT and BURST of a submission ring. -/
  | ringSetSched (e : AdmEntry)
  /-- ADMIN_RING_ENABLE (R139): Setting RING_ADM_CFG.EN resets both admin rings to position 0. -/
  | adminRingEnable (pf : Nat) (value : Word)
  /-- ADMIN_RING_DISABLE (R139): Clearing RING_ADM_CFG.EN completes started commands and discards the rest. -/
  | adminRingDisable (pf : Nat) (value : Word)
  /-- ADMIN_SQ_DOORBELL (R139): A write to RING_ADM_DB records a new admin submission tail. -/
  | adminSqDoorbell (pf : Nat) (value : Word)
  /-- ADMIN_CQ_DOORBELL (R139): A write to RING_ADM_CQ_DB records a new admin completion head. -/
  | adminCqDoorbell (pf : Nat) (value : Word)
  /-- ADMIN_COMMAND_TAKE (R558): Control firmware takes an admin entry round robin within its per-PF limit. -/
  | adminCommandTake (e : AdmEntry) (count : Nat) (err : Option (Nat × Nat))
  /-- COPY (R148): A COPY job names a descriptor list for a copy channel to walk. -/
  | copy (q pos : Nat)
  /-- DESCRIPTOR_READ_DONE (R152): A copy descriptor arrives and is checked before its bytes move. -/
  | descriptorReadDone (chan : Nat) (bytes : List Byte) (err : Option (Nat × Nat)) (ecc : Ecc)
  /-- COPY_CHUNK (R150): An active channel issues one 4 KiB chunk in its round. -/
  | copyChunk (chan : Nat) (input : ChunkIn) (ecc : Ecc)
  /-- DMA_HALT_TIMEOUT (R166): A halted channel reaches DMA_HALT_TIME and its job is aborted. -/
  | dmaHaltTimeout (chan : Nat)
  /-- DMA_GRANT (R154): Sets or clears an HBM grant of a tenancy. -/
  | dmaGrant (e : AdmEntry)
  /-- GRANT_DRAINED (R155): No request checked under the old grant remains and DMA_GRANT completes. -/
  | grantDrained (ten : Nat)
  /-- DMA_RESUME (R166): A halted channel retranslates and moves on from the fault. -/
  | dmaResume (e : AdmEntry)
  /-- DMA_SKIP (R166): A halted channel ends the current descriptor and goes on, marking the job SKIPPED. -/
  | dmaSkip (e : AdmEntry)
  /-- DMA_ABORT (R166): A halted channel's job completes with the fault's status. -/
  | dmaAbort (e : AdmEntry)
  /-- PORT_APPLY (R173): Writing PORT_APPLY checks and applies a lane group's port modes. -/
  | portApply (pf : Nat) (value : Word)
  /-- NET_LINK_UP (R172): A network port's link comes up after auto-negotiation and training. -/
  | netLinkUp (p : Nat)
  /-- NET_LINK_DOWN (R176): A network port's link goes down and queued frames are dropped at its head. -/
  | netLinkDown (p : Nat) (localFault remoteFault : Bool)
  /-- MAC_RX_FRAME (R179): A received frame is admitted to the Square or counted in the first matching receive counter. -/
  | macRxFrame (p : Nat) (frame : List Byte) (phy : RxPhy)
  /-- MAC_TX_FRAME (R175): The MAC pads, checks the MTU, inserts the FCS and transmits a frame. -/
  | macTxFrame (p : Nat) (ue : Bool)
  /-- PAUSE_FRAME_RX (R177): A received PAUSE or PFC frame holds transmission of its classes. -/
  | pauseFrameRx (p : Nat) (pfc : Bool) (enable : Nat) (quanta : List Nat)
  /-- PAUSE_EXPIRE (R177): The pause quanta of a held class run out and transmission resumes. -/
  | pauseExpire (p cls : Nat)
  /-- PAUSE_REFRESH (R177): Every 0x8000 quanta above XON the port refreshes its pause frame. -/
  | pauseRefresh (p : Nat)
  /-- DIM_WINDOW (R181): A 100 µs utilisation window ends and the shed and restore conditions are evaluated. -/
  | dimWindow (p bits : Nat)
  /-- DIM_CAP_SEND (R182): Every second a Dimming-enabled port sends a CAP frame. -/
  | dimCapSend (p : Nat)
  /-- DIM_CAP_RX (R182): A CAP frame is received and the partner is recognised as a Wiwald device. -/
  | dimCapRx (p src full : Nat)
  /-- DIM_PARTNER_LOST (R182): 3 s pass without CAP and the port returns to full width. -/
  | dimPartnerLost (p : Nat)
  /-- DIM_PROPOSE_RX (R183): A received PROPOSE is answered with ACCEPT or REFUSE. -/
  | dimProposeRx (p src seq target full : Nat)
  /-- DIM_ACCEPT_RX (R183): A received ACCEPT makes the proposer send SWITCH and move its transmitter. -/
  | dimAcceptRx (p src seq target full : Nat)
  /-- DIM_REFUSE_RX (R183): A received REFUSE restarts the proposer's dwell. -/
  | dimRefuseRx (p src seq target full reason : Nat)
  /-- DIM_SWITCH_RX (R183): A received SWITCH moves the receiver to the new lane set. -/
  | dimSwitchRx (p src seq target full : Nat)
  /-- DIM_RESTORE_RX (R183): A received RESTORE brings shed lanes up and is answered with RESTORE_ACK. -/
  | dimRestoreRx (p src seq full : Nat)
  /-- DIM_RESTORE_ACK_RX (R183): A received RESTORE_ACK makes the end send SWITCH and move to full width. -/
  | dimRestoreAckRx (p src seq full : Nat)
  /-- DIM_PROPOSE_TIMEOUT (R183): 1 ms without an answer to PROPOSE restarts the proposer's dwell. -/
  | dimProposeTimeout (p : Nat)
  /-- DIM_ALIGN_TIMEOUT (R184): After a lost SWITCH neither lane set aligns in 100 µs and the link retrains at full width. -/
  | dimAlignTimeout (p : Nat)
  /-- PORT_CNT_SNAP (R189): Reading PORT_CNT_SNAP_p snapshots and clears the port counters, or returns REFUSED. -/
  | portCntSnap (pf p : Nat)
  /-- PORT_CNT_REL (R189): Writing PORT_CNT_REL_p releases the port's snapshot bank. -/
  | portCntRel (pf p : Nat) (value : Word)
  /-- SVB_RX_FRAME (R190): The service bus MAC receives a frame for the management controller. -/
  | svbRxFrame (frame : List Byte) (good : Bool)
  /-- SVB_TX_FRAME (R191): The service bus MAC sends a queued frame under CSMA/CD or PLCA. -/
  | svbTxFrame (collisions : Nat)
  /-- SVB_BEACON_LOSS (R192): No valid BEACON for 4,000 bit times and the bus falls back to CSMA/CD. -/
  | svbBeaconLoss
  /-- MDIO_READ (R193): SVB_MDIO_CMD with GO and READ reads a PHY register over MDIO. -/
  | mdioRead (pf phy reg : Nat)
  /-- MDIO_WRITE (R193): SVB_MDIO_CMD with GO writes a PHY register over MDIO. -/
  | mdioWrite (pf phy reg data : Nat)
  /-- CROSSING_CLASSIFY (R209): A frame's header copy is parsed, looked up in the TCAM and merged into a result. -/
  | crossingClassify (tok : Nat) (resultUe : List Nat)
  /-- REENTRY_ADMIT (R195): A re-entry frame takes a pipeline slot that no host frame claims. -/
  | reentryAdmit
  /-- CLS_LOAD (R215): Writes a Crossing image into the inactive bank and validates it. -/
  | clsLoad (e : AdmEntry)
  /-- CLS_COMMIT (R215): Makes the loaded image bank active. -/
  | clsCommit (e : AdmEntry)
  /-- IMAGE_SWITCH_DONE (R215): No frame under the old image remains and CLS_COMMIT completes. -/
  | imageSwitchDone
  /-- CLS_RSET_SET (R224): Sets a rule set's MISS result and TIE_EN. -/
  | clsRsetSet (e : AdmEntry)
  /-- CLS_RULE_WRITE (R219): Rewrites a TCAM rule through invalidate, write and validate records. -/
  | clsRuleWrite (e : AdmEntry)
  /-- CLS_RULE_CLEAR (R224): Invalidates a TCAM rule. -/
  | clsRuleClear (e : AdmEntry)
  /-- CLS_RULE_READ (R224): Writes a TCAM rule's data, care, PRIO, V and result to the buffer. -/
  | clsRuleRead (e : AdmEntry)
  /-- CLS_IND_CFG (R222): Configures or releases a tenancy's indirection table. -/
  | clsIndCfg (e : AdmEntry)
  /-- CLS_IND_WRITE (R224): Writes entries of a tenancy's indirection table. -/
  | clsIndWrite (e : AdmEntry)
  /-- TCAM_SCRUB (R212): Every 64 PCLK one TCAM entry's parity is checked and a failing entry invalidated. -/
  | tcamScrub (parityErr : Bool)
  /-- TCAM_APPLY (R211): Writing TCAM_APPLY applies or refuses the bank chaining settings. -/
  | tcamApply (pf : Nat) (value : Word)
  /-- CLS_HPROF_APPLY (R220): Writing a profile's bit applies or refuses its hash profile settings. -/
  | clsHprofApply (pf : Nat) (value : Word)
  /-- CLS_RSET_SNAP (R211): Reading CLS_RSET_SNAP_s snapshots a rule set's counters or returns REFUSED. -/
  | clsRsetSnap (pf rset : Nat)
  /-- CLS_RSET_REL (R211): Writing CLS_RSET_REL_s releases the rule set's snapshot bank. -/
  | clsRsetRel (pf rset : Nat) (value : Word)
  /-- FORWARD_FRAME (R226): Forwarding runs the action list, FLOW or drop for a classified frame. -/
  | forwardFrame (tok : Nat) (ecc : Ecc)
  /-- LEARN_INSERT (R241): The learn engine inserts or moves a MAC line, or drops the learn. -/
  | learnInsert (casFails : Nat)
  /-- CT_COMMIT_INSERT (R247): A conntrack commit inserts the reply then the original line. -/
  | ctCommitInsert
  /-- AGE_TICK (R244): FWD_TICK_NOW advances every FWD_AGE_TICK ms. -/
  | ageTick
  /-- SWEEP_VISIT (R245): The sweep engine visits a bucket and posts CAS deletions of aged lines. -/
  | sweepVisit (k : Nat)
  /-- FWD_TBL_CFG (R229): Writes a table descriptor. -/
  | fwdTblCfg (e : AdmEntry)
  /-- FWD_REHASH (R238): Starts rebuilding a hashed table at a new base and size. -/
  | fwdRehash (e : AdmEntry)
  /-- REHASH_DONE (R238): The shadow table is swapped in and FWD_REHASH completes once old lookups drain. -/
  | rehashDone (table : Nat)
  /-- FWD_FLOW_ADD (R234): Inserts a line into a hashed table by cuckoo displacement. -/
  | fwdFlowAdd (e : AdmEntry)
  /-- FWD_FLOW_DEL (R237): Deletes a line by key. -/
  | fwdFlowDel (e : AdmEntry)
  /-- FWD_FLOW_READ (R260): Writes a line found by key to the buffer. -/
  | fwdFlowRead (e : AdmEntry)
  /-- FWD_BRIDGE_CFG (R240): Configures a bridge. -/
  | fwdBridgeCfg (e : AdmEntry)
  /-- FWD_MAC_ADD (R241): Writes a static or dynamic MAC line. -/
  | fwdMacAdd (e : AdmEntry)
  /-- FWD_ACT_WRITE (R256): Writes one or two action entries. -/
  | fwdActWrite (e : AdmEntry)
  /-- FWD_NAT_POOL (R250): Sets a NAT pool of a tenancy. -/
  | fwdNatPool (e : AdmEntry)
  /-- FWD_TEN_CFG (R249): Sets a tenancy's forwarding record. -/
  | fwdTenCfg (e : AdmEntry)
  /-- FWD_CNT_READ (R258): Reads a counter entry. -/
  | fwdCntRead (e : AdmEntry)
  /-- FWD_CNT_READ_CLEAR (R258): Reads and zeroes a counter entry in one step. -/
  | fwdCntReadClear (e : AdmEntry)
  /-- FWD_CNT_CLAIM (R258): Claims a counter entry for a tenancy and clears it. -/
  | fwdCntClaim (e : AdmEntry)
  /-- FWD_CNT_RELEASE (R258): Releases a counter entry. -/
  | fwdCntRelease (e : AdmEntry)
  /-- FWD_FLUSH (R260): Deletes every line of a tenancy in the named tables. -/
  | fwdFlush (e : AdmEntry)
  /-- AEAD_UNIT (R262): A bulk AEAD engine processes one unit under the key and context read at dispatch. -/
  | aeadUnit (tok : Nat) (ecc : Ecc)
  /-- HS_OP (R285): Queues a handshake operation for the handshake engines. -/
  | hsOp (e : AdmEntry)
  /-- HANDSHAKE_START (R285): A free handshake engine takes the next queued request round robin by tenancy. -/
  | handshakeStart
  /-- HANDSHAKE_DONE (R285): A handshake engine finishes, writes slots and buffer and completes the request. -/
  | handshakeDone (i : Nat)
  /-- RNG_HEALTH_FAIL (R274): A health test fails; the DRBG is zeroised and CRY_RNG_FAIL sent. -/
  | rngHealthFail (rct apt : Bool)
  /-- DRBG_RESEED (R273): The DRBG reseeds after CRY_RESEED_MS or 65,536 requests. -/
  | drbgReseed
  /-- CRY_RNG_RESTART (R274): Writing CRY_RNG_RESTART reruns the start-up entropy test. -/
  | cryRngRestart (pf : Nat) (value : Word) (pass : Bool)
  /-- CRY_MACSEC_CFG (R275): Configures a port's SecY. -/
  | cryMacsecCfg (e : AdmEntry)
  /-- CRY_MACSEC_SA (R275): Sets a MACsec SA. -/
  | cryMacsecSa (e : AdmEntry)
  /-- CRY_KEY_PUT (R270): Writes a key slot in clear or unwrapped. -/
  | cryKeyPut (e : AdmEntry)
  /-- CRY_KEY_GEN (R270): Generates a key into a slot from the DRBG. -/
  | cryKeyGen (e : AdmEntry)
  /-- CRY_KEY_DERIVE (R270): Derives a key into a slot with HKDF. -/
  | cryKeyDerive (e : AdmEntry)
  /-- CRY_KEY_EXPORT (R271): Wraps an EXPORT slot under a WRAP slot. -/
  | cryKeyExport (e : AdmEntry)
  /-- CRY_KEY_ZERO (R287): Zeroises a key slot, refusing a referenced slot without FORCE. -/
  | cryKeyZero (e : AdmEntry)
  /-- CRY_CTX_SET (R282): Writes a crypto context. -/
  | cryCtxSet (e : AdmEntry)
  /-- CRY_CTX_READ (R288): Writes a context's statistics to the buffer. -/
  | cryCtxRead (e : AdmEntry)
  /-- CRY_CTX_NEXT (R281): Installs a new next key of a QUIC context and discards PREV. -/
  | cryCtxNext (e : AdmEntry)
  /-- CRY_CTX_ROTATE (R281): Moves a QUIC transmit context to the next key phase. -/
  | cryCtxRotate (e : AdmEntry)
  /-- CRY_CTX_RESYNC (R280): Resynchronises a TLS_RX context to a record start. -/
  | cryCtxResync (e : AdmEntry)
  /-- CRY_CTX_REKEY (R264): Changes a TLS or ESP context's key for later units. -/
  | cryCtxRekey (e : AdmEntry)
  /-- CRY_CTX_DESTROY (R288): Frees a crypto context. -/
  | cryCtxDestroy (e : AdmEntry)
  /-- ROCE_RX (R292): A RoCEv2 packet for a valid RC_QP is taken by the context engine. -/
  | roceRx (tok : Nat) (pageFault : Bool)
  /-- CNP_RX (R301): A received CNP cuts the sender's rate unless within RC_REACT. -/
  | cnpRx (tok : Nat)
  /-- TCP_RX (R304): A TCP segment for a valid TCP context is taken by the context engine. -/
  | tcpRx (tok : Nat)
  /-- LACK_TIMEOUT (R300): LACK_TIMEOUT expires and the oldest unacknowledged PSN is resent. -/
  | lackTimeout (ctx : Nat)
  /-- SR_ACK_TIMER (R300): Every 16 packets or 4 µs the receiver sends a selective-repeat ACK. -/
  | srAckTimer (ctx : Nat)
  /-- RC_WINDOW (R301): Each STO_RC_WIN the receiver sends a CNP when CE marks were seen. -/
  | rcWindow (ctx : Nat)
  /-- RC_INCREASE (R301): Each RC_INC_T without a cut the sender raises its target and rate. -/
  | rcIncrease (ctx : Nat)
  /-- TCP_RTO (R304): A TCP retransmission timer expires; after 8 the context enters ERROR. -/
  | tcpRto (ctx : Nat)
  /-- RDMA_SEND (R296): Sends a SEND message on an RC_QP. -/
  | rdmaSend (q pos : Nat)
  /-- RDMA_WRITE (R296): Sends an RDMA WRITE to a remote MR. -/
  | rdmaWrite (q pos : Nat)
  /-- RDMA_READ (R296): Sends an RDMA READ of a remote MR. -/
  | rdmaRead (q pos : Nat)
  /-- RDMA_RECV (R297): Posts a receive buffer on a receive ring. -/
  | rdmaRecv (q pos : Nat)
  /-- BLK_READ (R296): Reads blocks over an NVMF initiator context. -/
  | blkRead (q pos : Nat)
  /-- BLK_WRITE (R296): Writes blocks over an NVMF initiator context. -/
  | blkWrite (q pos : Nat)
  /-- BLK_FLUSH (R296): Flushes a remote namespace. -/
  | blkFlush (q pos : Nat)
  /-- STO_CONN_SET (R293): Writes a storage context from its parameter block. -/
  | stoConnSet (e : AdmEntry)
  /-- STO_CONN_MODIFY (R295): Moves a QP's state or destroys a context. -/
  | stoConnModify (e : AdmEntry)
  /-- STO_CONN_QUERY (R317): Writes a context's state and counters to the buffer. -/
  | stoConnQuery (e : AdmEntry)
  /-- STO_NVME_CTRL (R305): Attaches an emulated NVMe controller to a tenancy. -/
  | stoNvmeCtrl (e : AdmEntry)
  /-- STO_NVME_NS (R310): Maps a namespace of an emulated controller. -/
  | stoNvmeNs (e : AdmEntry)
  /-- STO_SSD_ATTACH (R313): Attaches a local SSD for target mode. -/
  | stoSsdAttach (e : AdmEntry)
  /-- NVME_CC_ENABLE (R312): CC.EN from 0 to 1 sets RDY within 10 ms. -/
  | nvmeCcEnable (pf vf : Nat) (value : Word)
  /-- NVME_CC_DISABLE (R312): CC.EN from 1 to 0 runs a tenancy reset and clears RDY. -/
  | nvmeCcDisable (pf vf : Nat) (value : Word)
  /-- NVME_SHUTDOWN (R312): CC.SHN writes back dirty blocks then sets SHST. -/
  | nvmeShutdown (pf vf : Nat) (value : Word)
  /-- NVME_SQ_DOORBELL (R308): An emulated controller submission tail doorbell posts SQEs. -/
  | nvmeSqDoorbell (pf vf y value : Nat)
  /-- NVME_CQ_DOORBELL (R308): An emulated controller completion head doorbell frees CQEs. -/
  | nvmeCqDoorbell (pf vf y value : Nat)
  /-- NVME_DELETE_IO_SQ (R309): Deletes an I/O submission queue. -/
  | nvmeDeleteIoSq (pf vf : Nat) (sqe : SqEntry)
  /-- NVME_CREATE_IO_SQ (R307): Creates an I/O submission queue as a STORAGE ring. -/
  | nvmeCreateIoSq (pf vf : Nat) (sqe : SqEntry)
  /-- NVME_GET_LOG_PAGE (R309): Returns an Error, SMART or Changed Namespace log page. -/
  | nvmeGetLogPage (pf vf : Nat) (sqe : SqEntry) (prps : List Nat)
  /-- NVME_DELETE_IO_CQ (R309): Deletes an I/O completion queue. -/
  | nvmeDeleteIoCq (pf vf : Nat) (sqe : SqEntry)
  /-- NVME_CREATE_IO_CQ (R307): Creates an I/O completion queue as a STORAGE ring. -/
  | nvmeCreateIoCq (pf vf : Nat) (sqe : SqEntry)
  /-- NVME_IDENTIFY (R309): Returns Identify controller or namespace data. -/
  | nvmeIdentify (pf vf : Nat) (sqe : SqEntry) (prps : List Nat)
  /-- NVME_ABORT (R309): Completes with command not aborted. -/
  | nvmeAbort (pf vf : Nat) (sqe : SqEntry)
  /-- NVME_SET_FEATURES (R309): Sets a supported feature such as Interrupt Coalescing. -/
  | nvmeSetFeatures (pf vf : Nat) (sqe : SqEntry)
  /-- NVME_GET_FEATURES (R309): Returns a supported feature. -/
  | nvmeGetFeatures (pf vf : Nat) (sqe : SqEntry)
  /-- NVME_ASYNC_EVENT_REQUEST (R309): Holds an Asynchronous Event Request for a later event. -/
  | nvmeAsyncEventRequest (pf vf : Nat) (sqe : SqEntry)
  /-- NVME_FLUSH (R311): Completes when dirty blocks are written back and the target has flushed. -/
  | nvmeFlush (pf vf y : Nat) (sqe : SqEntry)
  /-- NVME_WRITE (R310): Writes LBAs through the namespace mapping and cache. -/
  | nvmeWrite (pf vf y : Nat) (sqe : SqEntry) (data : List Byte)
  /-- NVME_READ (R310): Reads LBAs through the namespace mapping and cache. -/
  | nvmeRead (pf vf y : Nat) (sqe : SqEntry) (prps : List Nat)
  /-- NVME_WRITE_ZEROES (R309): Writes zeroes to LBAs. -/
  | nvmeWriteZeroes (pf vf y : Nat) (sqe : SqEntry)
  /-- NVME_DATASET_MANAGEMENT (R309): Deallocates LBA ranges. -/
  | nvmeDatasetManagement (pf vf y : Nat) (sqe : SqEntry) (data : List Byte)
  /-- WB_AGE_EXPIRE (R311): A dirty cache block reaches STO_WB_AGE and is written to the target. -/
  | wbAgeExpire (pf vf ns blk : Nat)
  /-- NVMF_TARGET_COMMAND (R314): A target context takes a host I/O command and stages it for the SSD. -/
  | nvmfTargetCommand (ctx : Nat)
  /-- SSD_CQE (R314): The SSD's CQE arrives and the target answers the host. -/
  | ssdCqe (ctx : Nat)
  /-- SSD_TIMEOUT (R314): No CQE within STO_SSD_TIMEOUT; Internal Error answered and STO_SSD_ERR sent. -/
  | ssdTimeout (ctx cid : Nat)
  /-- OBJ_PUT (R335): Stores an object as encrypted erasure-coded shards and a signed manifest. -/
  | objPut (q pos : Nat) (block targets : List Byte) (err : Option (Nat × Nat))
  /-- OBJ_GET (R336): Reads and decodes an object range from its shards. -/
  | objGet (q pos : Nat) (block targets man pub : List Byte) (err : Option (Nat × Nat))
  /-- OBJ_VERIFY (R336): Checks an object's shards at a LEVEL and writes a report. -/
  | objVerify (q pos : Nat) (block targets man pub : List Byte) (err : Option (Nat × Nat))
  /-- OBJ_MIGRATE (R340): Re-encodes an object to a new layout without host data. -/
  | objMigrate (q pos : Nat) (block targets newTargets man pub : List Byte) (err : Option (Nat × Nat))
  /-- STAGING_GRANT (R341): A waiting archive job receives its working set of staging. -/
  | stagingGrant
  /-- ARCHIVE_STRIPE (R335): The archive engine processes one stripe of a running job in round robin. -/
  | archiveStripe (ecc : Ecc)
  /-- SHARD_WRITE_ACK (R337): A target acknowledges or fails a shard write. -/
  | shardWriteAck
  /-- SHARD_READ_DONE (R336): A shard record read returns and is verified or treated as an erasure. -/
  | shardReadDone
  /-- ARC_CFG (R345): Sets the archive staging range. -/
  | arcCfg (e : AdmEntry)
  /-- ARC_SESSION_ABORT (R345): Ends an archive session. -/
  | arcSessionAbort (e : AdmEntry)
  /-- ARC_JOURNAL_READ (R345): Returns a migration journal record. -/
  | arcJournalRead (e : AdmEntry)
  /-- HANDLER_DISPATCH (R361): A frame for a handler is queued at a chosen core or takes its fate. -/
  | handlerDispatch (tok : Nat)
  /-- THREAD_ACCESS (R350): A thread's load, store or fetch reaches local, shared or HBM-window memory or faults. -/
  | threadAccess (g : Nat) (acc : ThreadAcc)
  /-- TKNEXT (R365): Takes the oldest token of the core's handler queue. -/
  | tknext (g rd rs1 : Nat)
  /-- TKFREE (R365): Frees a token's frame. -/
  | tkfree (g rs1 : Nat)
  /-- TKFWD (R365): Sends a token's frame into forwarding at an action index. -/
  | tkfwd (g rs1 rs2 : Nat)
  /-- TKRECL (R365): Sends a token's frame back into the Crossing. -/
  | tkrecl (g rs1 : Nat)
  /-- TKEXC (R365): Sends a token's frame to the exception ring. -/
  | tkexc (g rs1 rs2 : Nat)
  /-- TKNEW (R365): Makes a new zeroed frame in pool 18. -/
  | tknew (g rd rs1 : Nat)
  /-- HADJ (R365): Moves a frame's first byte. -/
  | hadj (g rd rs1 rs2 : Nat)
  /-- HLEN (R365): Sets a frame's length. -/
  | hlen (g rd rs1 rs2 : Nat)
  /-- PKRD (R365): Copies frame bytes to core memory. -/
  | pkrd (g rd rs1 rs2 : Nat)
  /-- PKWR (R365): Copies core memory into a frame. -/
  | pkwr (g rd rs1 rs2 : Nat)
  /-- LKUP (R367): Starts a hashed-table lookup. -/
  | lkup (g rd rs1 rs2 : Nat)
  /-- LKUP_DONE (R367): A lookup result is written and raises LKUP. -/
  | lkupDone (g : Nat) (ecc : Ecc)
  /-- EVWAIT (R372): Waits for masked events and returns and clears them. -/
  | evwait (g rd rs1 : Nat)
  /-- EVSIG (R365): Raises SIG for threads of the same core. -/
  | evsig (g rs1 : Nat)
  /-- TMSET (R365): Arms or disarms the thread's timer. -/
  | tmset (g rs1 : Nat)
  /-- THREAD_TIMER (R365): A thread's timer expires and raises TIMER. -/
  | threadTimer (g : Nat)
  /-- CTADD (R365): Posts an atomic add to an HBM-window dword. -/
  | ctadd (g rs1 rs2 : Nat)
  /-- CTPB (R365): Adds a packet and bytes to a counter entry. -/
  | ctpb (g rs1 rs2 : Nat)
  /-- TWR (R363): Thread 0 writes a register of a held or halted thread. -/
  | twr (g rd rs1 rs2 : Nat)
  /-- TRD (R363): Thread 0 reads a register of another thread. -/
  | trd (g rd rs1 : Nat)
  /-- CHSEND (R369): Opens a message on a channel and starts the lease. -/
  | chsend (g rs1 : Nat)
  /-- CHW (R369): Writes a word of the open message. -/
  | chw (g rs1 rs2 : Nat)
  /-- CHCMT (R369): Commits the open message whole. -/
  | chcmt (g rd : Nat)
  /-- CHABT (R370): Aborts the open message. -/
  | chabt (g : Nat)
  /-- CHRECV (R365): Takes the oldest message of a channel. -/
  | chrecv (g rd rs1 rs2 : Nat)
  /-- HLD (R365): Loads bytes from a frame at an offset. -/
  | hld (g rd rs1 imm size : Nat)
  /-- HST (R365): Stores bytes into a frame at an offset. -/
  | hst (g rs1 rs2 imm size : Nat)
  /-- CORE_THR_GO (R356): Thread 0 releases held or halted threads. -/
  | coreThrGo (g rd rs1 : Nat)
  /-- CORE_THR_STOP (R356): Thread 0 halts threads at the next instruction boundary. -/
  | coreThrStop (g rd rs1 : Nat)
  /-- CORE_EXCEPTION (R359): A thread's exception halts it or traps thread 0. -/
  | coreException (g cause : Nat) (mtval : Dword) (mret : Bool)
  /-- CHANNEL_LEASE_EXPIRE (R370): An open message's lease expires and it is abandoned. -/
  | channelLeaseExpire (g : Nat)
  /-- GRIDLOCK (R374): The gridlock counter reaches 65,536 and the supervisor freezes the core. -/
  | gridlock (n : Nat)
  /-- BREAKPOINT_HIT (R376): A thread reaching a breakpoint enters HALT_DEBUG. -/
  | breakpointHit (g : Nat)
  /-- CORE_LOAD (R380): Validates and writes a core image into a slot. -/
  | coreLoad (e : AdmEntry)
  /-- CORE_START (R381): Starts cores from an image slot. -/
  | coreStart (e : AdmEntry)
  /-- CORE_STOP (R382): Freezes cores with capture cause 3. -/
  | coreStop (e : AdmEntry)
  /-- CORE_HND_SET (R360): Writes a handler table entry. -/
  | coreHndSet (e : AdmEntry)
  /-- CORE_CH_SET (R368): Binds or unbinds a channel. -/
  | coreChSet (e : AdmEntry)
  /-- CORE_HWIN_SET (R382): Sets a cluster's HBM window. -/
  | coreHwinSet (e : AdmEntry)
  /-- CORE_CAPTURE_READ (R382): Returns a capture record. -/
  | coreCaptureRead (e : AdmEntry)
  /-- HALT_THREAD (R376): Debug command halting the selected thread. -/
  | haltThread (id : Nat)
  /-- HALT_CORE (R376): Debug command halting every released thread of a core. -/
  | haltCore (id : Nat)
  /-- RESUME (R376): Debug command resuming HALT_DEBUG threads. -/
  | resume (id : Nat)
  /-- STEP (R376): Debug command executing one instruction of the selected thread. -/
  | step (id : Nat) (acc : ThreadAcc)
  /-- READ_REG (R376): Debug command reading a thread register. -/
  | readReg (id : Nat)
  /-- WRITE_REG (R376): Debug command writing a thread register. -/
  | writeReg (id : Nat)
  /-- READ_MEM (R376): Debug command reading 8 bytes as the thread would. -/
  | readMem (id : Nat)
  /-- WRITE_MEM (R376): Debug command writing 8 bytes as the thread would. -/
  | writeMem (id : Nat)
  /-- ABORT_MSG (R376): Debug command aborting the thread's open message. -/
  | abortMsg (id : Nat)
  /-- SET_BP (R376): Debug command setting a breakpoint. -/
  | setBp (id : Nat)
  /-- CAPTURE (R376): Debug command writing a capture record without freezing. -/
  | capture (id : Nat)
  /-- TIME_INC_APPLY (R386): Writing TIME_INC_d_LO applies the held and new increment together. -/
  | timeIncApply (pf dom : Nat) (value : Word)
  /-- TIME_GO_SET (R387): TIME_GO_d SET loads an absolute time into a domain. -/
  | timeGoSet (pf dom : Nat)
  /-- TIME_GO_ADJ (R387): TIME_GO_d ADJ adds an offset to a domain. -/
  | timeGoAdj (pf dom : Nat)
  /-- TIME_SWITCH (R388): Writing TIME_SEL switches local time to the other domain with a carried offset. -/
  | timeSwitch (pf : Nat) (value : Word)
  /-- TIME_LOCK (R388): Writing TIME_LOCK locks local time against steps. -/
  | timeLock (pf : Nat) (value : Word)
  /-- TIME_SNAP (R389): Reading TIME_SNAP captures A, B and local time in one TCLK. -/
  | timeSnap (pf : Nat)
  /-- TIME_REF_SELECT (R390): Writing TIME_CTL.REF relocks the TCLK PLL to the other reference. -/
  | timeRefSelect (pf : Nat) (value : Word)
  /-- CLK10M_LOST (R390): CLK10M_IN shows no edge for 1 µs; the PLL holds and TIME_REF_LOST is sent. -/
  | clk10mLost
  /-- CLK10M_RETURN (R390): Edges return and the PLL relocks without a phase step. -/
  | clk10mReturn
  /-- TIME_PAGE_WRITE (R396): At each whole millisecond each enabled time page is written. -/
  | timePageWrite
  /-- TIO_ARM (R403): ARM applies the shadowed pulse parameters of a TIO pin. -/
  | tioArm (pf i : Nat)
  /-- TIO_DISARM (R404): DISARM ends a TIO output after the pulse in progress. -/
  | tioDisarm (pf i : Nat)
  /-- TIO_PULSE (R403): A TIO output pulse starts at its programmed time. -/
  | tioPulse (i : Nat)
  /-- TIO_CAPTURE (R405): A TIO input edge is time-stamped into the capture FIFO. -/
  | tioCapture (i : Nat) (rising : Bool)
  /-- TIO_CAP_READ (R405): Reading TIME_TIO_CAP_SEC_LO_i takes the oldest capture. -/
  | tioCapRead (pf i : Nat)
  /-- PPS_OUT_EDGE (R406): PPS_OUT rises at every whole second of local time. -/
  | ppsOutEdge
  /-- PPS_IN_EDGE (R406): A PPS_IN rising edge latches local time and increments the count. -/
  | ppsInEdge
  /-- TIME_PAGE_SET (R407): Sets a tenancy's time page. -/
  | timePageSet (e : AdmEntry)
  /-- TT_LOAD (R399): Makes a gate list pending on a port. -/
  | ttLoad (e : AdmEntry)
  /-- GATE_LIST_ACTIVATE (R399): A pending list becomes operational at its first cycle start 10 µs on. -/
  | gateListActivate (p : Nat)
  /-- GATE_CHANGE (R398): A gate entry's time arrives and the port's gates change. -/
  | gateChange (p : Nat)
  /-- FAB_CFG_WRITE (R421): Writing FAB_CFG enables the fabric or sends LEAVE and goes ALONE. -/
  | fabCfgWrite (pf : Nat) (value : Word)
  /-- BEACON_SEND (R412): Every FAB_BEACON_MS the device sends a BEACON on the service bus. -/
  | beaconSend
  /-- BEACON_RX (R412): A received BEACON updates the Block's members and coordinator. -/
  | beaconRx (msg : List Byte)
  /-- COORDINATOR_ELECTION (R412): Three beacon periods without the coordinator make the members elect again. -/
  | coordinatorElection
  /-- ASSIGN_SEND (R413): The coordinator sends ASSIGN after a change or every 16 periods. -/
  | assignSend
  /-- ASSIGN_RX (R413): A received ASSIGN sets the Device index and gate. -/
  | assignRx (msg : List Byte)
  /-- HEARTBEAT_SEND (R420): Every FAB_HB_US a member sends HEARTBEAT to its tree neighbours. -/
  | heartbeatSend
  /-- HEARTBEAT_RX (R420): A received HEARTBEAT keeps a tree link alive. -/
  | heartbeatRx (msg : List Byte)
  /-- HEARTBEAT_LOSS (R429): Three missed heartbeats cut the link and the member enters DECIDING. -/
  | heartbeatLoss (addr : Nat)
  /-- HELLO_SEND (R422): Every FAB_HB_US a HELLO goes to each valid neighbour slot. -/
  | helloSend
  /-- HELLO_RX (R422): A received HELLO keeps a neighbour slot up. -/
  | helloRx (msg : List Byte)
  /-- NEIGHBOUR_DOWN (R422): Three periods without HELLO take a neighbour slot down. -/
  | neighbourDown (slot : Nat)
  /-- ROUTE_ADVERTISE (R422): Every FAB_HB_US the agent advertises reachable ADV routes. -/
  | routeAdvertise
  /-- ROUTE_RX (R424): A received ROUTE may rewrite a LEARNED route entry. -/
  | routeRx (msg : List Byte)
  /-- JOIN_RX (R411): A JOIN is accepted into the membership or refused. -/
  | joinRx (msg : List Byte)
  /-- JOIN_RETRY (R411): A refused device retries JOIN every second. -/
  | joinRetry
  /-- EPOCH_RX (R421): A received EPOCH updates the agreed membership. -/
  | epochRx (msg : List Byte) (granted : Option Nat)
  /-- LEAVE_RX (R421): A received LEAVE removes a member under a new EPOCH. -/
  | leaveRx (msg : List Byte)
  /-- UP_RX (R426): A received UP aggregates a global operation report. -/
  | upRx (msg : List Byte)
  /-- DOWN_RX (R426): A received DOWN releases a global operation and is fanned out. -/
  | downRx (msg : List Byte)
  /-- BCAST_RX (R426): A received BCAST payload is kept and fanned out. -/
  | bcastRx (msg : List Byte)
  /-- COUNT_RX (R429): A received COUNT joins the member to the cut count. -/
  | countRx (msg : List Byte)
  /-- WAKE_RX (R517): A WAKE message for this UID in Quiet starts the exit. -/
  | wakeRx (msg : List Byte)
  /-- SEQUESTER_TIMEOUT (R430): No decision within 3 × FAB_HB_US + 2 ms and the member sequesters itself. -/
  | sequesterTimeout
  /-- FAB_OP_BARRIER (R426): Enters a fabric barrier. -/
  | fabOpBarrier (e : AdmEntry)
  /-- FAB_OP_BROADCAST (R426): Starts a fabric broadcast. -/
  | fabOpBroadcast (e : AdmEntry)
  /-- FAB_OP_SNAPSHOT (R426): Starts a fabric snapshot. -/
  | fabOpSnapshot (e : AdmEntry)
  /-- FAB_OP_RESET (R428): Starts a fabric reset. -/
  | fabOpReset (e : AdmEntry)
  /-- SNAPSHOT_CUT (R426): At cut time T the member snapshots its counter sets. -/
  | snapshotCut (opId : Nat)
  /-- SNAPSHOT_END (R426): At T + FAB_MAX_LIFETIME the snapshot completes or raises its event. -/
  | snapshotEnd (opId : Nat)
  /-- FAB_OP_TIMEOUT (R425): A member's operation TIMEOUT passes and it ends with TIMEOUT. -/
  | fabOpTimeout (opId : Nat)
  /-- ADDR_HOLD_EXPIRE (R410): FAB_ADDR_HOLD hours pass and a held Block number may be granted again. -/
  | addrHoldExpire (block : Nat)
  /-- FAB_ROUTE_SET (R423): Writes a route table line. -/
  | fabRouteSet (e : AdmEntry)
  /-- FAB_ROUTE_READ (R434): Returns a route line with hop reachability. -/
  | fabRouteRead (e : AdmEntry)
  /-- FAB_NBR_SET (R422): Binds a neighbour slot. -/
  | fabNbrSet (e : AdmEntry)
  /-- FAB_MEMBERS_READ (R434): Returns agreed membership entries. -/
  | fabMembersRead (e : AdmEntry)
  /-- FAB_BCAST_READ (R434): Returns a kept broadcast payload. -/
  | fabBcastRead (e : AdmEntry)
  /-- FAB_SNAP_READ (R427): Returns a snapshot record. -/
  | fabSnapRead (e : AdmEntry)
  /-- TWIN_PAIR (R436): Starts pairing with the named peer. -/
  | twinPair (e : AdmEntry)
  /-- TWIN_UNPAIR (R455): Ends the pair, releasing the active role. -/
  | twinUnpair (e : AdmEntry)
  /-- TWIN_STREAM_SET (R442): Sets a protected stream. -/
  | twinStreamSet (e : AdmEntry)
  /-- TWIN_SWAP (R450): Starts a swap of the twin roles. -/
  | twinSwap (e : AdmEntry)
  /-- TWIN_EXERCISE_NOW (R453): Starts an exercise on the standby. -/
  | twinExerciseNow (e : AdmEntry)
  /-- PAIR_RX (R436): A received PAIR forms the pair when terms agree. -/
  | pairRx (msg : List Byte)
  /-- PAIR_TIMEOUT (R436): No agreeing PAIR in 1 s fails TWIN_PAIR with TIMEOUT. -/
  | pairTimeout
  /-- DIGEST_SEND (R444): Every 16 µs a twin sends DIGEST with its range digests. -/
  | digestSend
  /-- DIGEST_RX (R444): A received DIGEST is compared, renews the lease and frees held frames. -/
  | digestRx (msg : List Byte)
  /-- DIGEST_RANGE_MISSED (R444): A range unreported by the peer in 64 µs is counted missed. -/
  | digestRangeMissed (stream first : Nat)
  /-- PEER_DIGEST_LOSS (R447): 48 µs without DIGEST recognises the peer's failure. -/
  | peerDigestLoss
  /-- SELF_CHECK_DONE (R447): A twin's re-run of a mismatched range ends and CHECK is sent. -/
  | selfCheckDone (differs : Bool)
  /-- CHECK_RX (R447): A received CHECK convicts a twin or reports divergence. -/
  | checkRx (msg : List Byte)
  /-- LEASE_REQ_SEND (R448): Every 200 µs the active sends LEASE_REQ to its parent. -/
  | leaseReqSend
  /-- LEASE_REQ_RX (R448): A parent answers LEASE_REQ with LEASE while HOLDING and not revoked. -/
  | leaseReqRx (msg : List Byte)
  /-- LEASE_RX (R448): A received LEASE renews the active's lease. -/
  | leaseRx (msg : List Byte)
  /-- LEASE_EXPIRE (R448): The lease runs out and the active becomes LEASE_LOST. -/
  | leaseExpire
  /-- REVOKE_RX (R449): A parent stops granting to the active and answers REVOKED. -/
  | revokeRx (msg : List Byte)
  /-- REVOKED_RX (R449): A received REVOKED schedules the takeover time. -/
  | revokedRx (msg : List Byte)
  /-- REVOKE_TIMEOUT (R449): No REVOKED in 100 µs and the standby does not take over. -/
  | revokeTimeout
  /-- TAKEOVER (R449): At the takeover time the standby becomes ACTIVE and sends held frames. -/
  | takeover
  /-- SHADOW_HOLD_EXPIRE (R446): A shadow frame held 2 ms is freed and counted. -/
  | shadowHoldExpire (tok : Nat)
  /-- HOLDOFF_EXPIRE (R450): TWIN_HOLDOFF passes healthy; a SILENCED twin returns or a revert swap starts. -/
  | holdoffExpire
  /-- SWAP_RX (R450): A received SWAP makes the active stop at a 16 µs boundary and send RELEASED. -/
  | swapRx (msg : List Byte)
  /-- RELEASED_RX (R450): A received RELEASED makes the standby ACTIVE at once. -/
  | releasedRx (msg : List Byte)
  /-- PLANNED_SWAP (R452): Every DAYS days the second-rank twin starts a swap. -/
  | plannedSwap
  /-- EXERCISE_START (R453): Every TWIN_EXERCISE the standby replays its capture. -/
  | exerciseStart
  /-- EXERCISE_DONE (R453): An exercise ends and its result is shown and sent. -/
  | exerciseDone (mismatch : Bool)
  /-- WKT_POST (R464): Writing WKT_POST_w copies the send buffer into the slot and raises a wake. -/
  | wktPost (id w : Nat) (value : Word) (buf : List Byte)
  /-- WKT_STAT (R465): Reading WKT_STAT_w snapshots the slot for the receiver. -/
  | wktStat (id w : Nat)
  /-- WKT_TAKE (R465): Writing WKT_TAKE_w acknowledges the snapshot and clears FULL when unchanged. -/
  | wktTake (id w : Nat) (value : Word)
  /-- WKT_BIND_WRITE (R461): Writing WKT_BIND_w rebinds a Wicket and empties it. -/
  | wktBindWrite (pf w : Nat) (value : Word)
  /-- WKT_LOCK (R462): Writing WKT_LOCK makes all bindings read-only until device fundamental reset. -/
  | wktLock (pf : Nat) (value : Word)
  /-- CLUSTER_WICKET_DELIVER (R467): A cluster supervisor delivers a FULL Wicket slot into its channel when room exists. -/
  | clusterWicketDeliver (w : Nat)
  /-- SENSOR_SAMPLE (R471): Every 1 ms the sensors are sampled. -/
  | sensorSample (temps : List Int) (powers : List Nat)
  /-- BOOT_ROM_START (R475): At power-on the boot ROM chooses and verifies a flash bank. -/
  | bootRomStart
  /-- FIRMWARE_READY (R475): Boot steps complete and GLB_STAT.READY is set. -/
  | firmwareReady (cores : List (Nat × List Byte)) (crossing : Option (List Byte)) (regs : List (Nat × Word)) (lock entropy : Bool)
  /-- SET_ENDPOINT_ID (R470): MCTP control command setting the endpoint ID. -/
  | setEndpointId (port op eid : Nat)
  /-- GET_ENDPOINT_ID (R470): MCTP control command returning the endpoint ID. -/
  | getEndpointId (port : Nat)
  /-- GET_ENDPOINT_UUID (R470): MCTP control command returning the UUID. -/
  | getEndpointUuid (port : Nat)
  /-- GET_MCTP_VERSION_SUPPORT (R470): MCTP control command returning supported versions. -/
  | getMctpVersionSupport (port type : Nat)
  /-- GET_MESSAGE_TYPE_SUPPORT (R470): MCTP control command returning supported message types. -/
  | getMessageTypeSupport (port : Nat)
  /-- GET_VENDOR_MESSAGE_SUPPORT (R470): MCTP control command returning vendor-defined message support. -/
  | getVendorMessageSupport (port selector : Nat)
  /-- SPDM_GET_VERSION (R480): SPDM request for versions. -/
  | spdmGetVersion (port : Nat)
  /-- SPDM_GET_CAPABILITIES (R480): SPDM request for capabilities. -/
  | spdmGetCapabilities (port version : Nat)
  /-- SPDM_NEGOTIATE_ALGORITHMS (R480): SPDM request negotiating algorithms. -/
  | spdmNegotiateAlgorithms (port base hash dhe aead : Nat)
  /-- SPDM_GET_DIGESTS (R480): SPDM request for certificate digests. -/
  | spdmGetDigests (port : Nat)
  /-- SPDM_GET_CERTIFICATE (R480): SPDM request for a certificate chain. -/
  | spdmGetCertificate (port slot off len : Nat)
  /-- SPDM_CHALLENGE (R480): SPDM challenge signed with the alias key. -/
  | spdmChallenge (port slot : Nat) (nonce : List Byte)
  /-- SPDM_GET_MEASUREMENTS (R481): SPDM request for signed measurements. -/
  | spdmGetMeasurements (port index : Nat) (sign : Bool) (nonce : List Byte)
  /-- SPDM_KEY_EXCHANGE (R480): SPDM request opening a secured session. -/
  | spdmKeyExchange (port slot : Nat) (exchange : List Byte)
  /-- SPDM_FINISH (R480): SPDM request completing session setup. -/
  | spdmFinish (port id : Nat) (verify : List Byte)
  /-- SPDM_HEARTBEAT (R480): SPDM session heartbeat. -/
  | spdmHeartbeat (port id : Nat)
  /-- SPDM_KEY_UPDATE (R480): SPDM session key update. -/
  | spdmKeyUpdate (port id op tag : Nat)
  /-- SPDM_END_SESSION (R480): SPDM request ending a session. -/
  | spdmEndSession (port id : Nat)
  /-- SPDM_CHUNK_SEND (R480): SPDM chunked request transfer. -/
  | spdmChunkSend (port seq : Nat) (last : Bool) (data : List Byte)
  /-- SPDM_CHUNK_GET (R480): SPDM chunked response transfer. -/
  | spdmChunkGet (port seq : Nat)
  /-- PLDM_SENSOR_READ (R471): PLDM monitoring read of a numeric sensor. -/
  | pldmSensorRead (port id : Nat)
  /-- PLDM_FIRMWARE_UPDATE (R478): PLDM update writes and verifies components into the idle bank. -/
  | pldmFirmwareUpdate (port : Nat) (comps : List (List Byte × List Byte)) (certs : Option (List (List Byte)))
  /-- PLDM_ACTIVATE_FIRMWARE (R478): Self-contained activation restarts the management controller. -/
  | pldmActivateFirmware (port : Nat)
  /-- DEBUG_AUTH_CHALLENGE (R482): An answered debug challenge zeroises keys and opens the debug port. -/
  | debugAuthChallenge (key sig challenge : List Byte)
  /-- JTAG_INSTRUCTION (R483): A JTAG instruction acts, or behaves as BYPASS when the port is closed. -/
  | jtagInstruction (inst : JtagInst)
  /-- SMB_SCL_TIMEOUT (R538): SMB_SCL low for 35 ms resets the SMBus interface. -/
  | smbSclTimeout
  /-- MGT_SVN_COMMIT (R477): Raises the fused SVN to the lowest running image SVN. -/
  | mgtSvnCommit (e : AdmEntry)
  /-- MGT_MEASURE_READ (R481): Returns the nine measurement digests. -/
  | mgtMeasureRead (e : AdmEntry)
  /-- TAP_FLUSH (R489): Every 1 ms with credit the Shutter sends non-zero accumulators as delta records. -/
  | tapFlush (p : Nat)
  /-- TAP_RECORD (R489): The Tollhouse adds a delta record to its account and the device total. -/
  | tapRecord (bad flashOk : Bool)
  /-- STATE_RECORD (R490): A Shutter state record sets the account's SHARE_MS basis. -/
  | stateRecord (t : Nat) (flashOk : Bool)
  /-- ACCOUNT_MARKER (R492): A marker closes the account, journals its counts and increments ACC_GEN. -/
  | accountMarker (flashOk : Bool)
  /-- METRE_TICK (R490): Each metre-time millisecond adds WEIGHT to SHARE_MS of OPEN accounts. -/
  | metreTick
  /-- PERIOD_CLOSE (R493): Every PERIOD_MIN the Tollhouse forms a period reading. -/
  | periodClose
  /-- READING_SIGNED (R493): A reading's signature completes and the readout slot switches. -/
  | readingSigned (flashOk : Bool)
  /-- CHECKPOINT (R499): Every CHECKPOINT_S the Tollhouse writes a checkpoint to flash. -/
  | checkpoint (flashOk : Bool)
  /-- TOLL_POWER_LOSS (R499): VDD_TOLL below 0.76 V writes POWER_LOSS and stops. -/
  | tollPowerLoss (flashOk : Bool)
  /-- TOLL_START (R499): TL_RST_N rising restores a checkpoint, writes POWER_UP and forms a resume reading. -/
  | tollStart (config : Option (List Byte)) (chainBad noCheck flashOk : Bool)
  /-- TAP_DOWN_DETECT (R501): No state record for 2 ms journals TAP_DOWN and stops SHARE_MS. -/
  | tapDownDetect (flashOk : Bool)
  /-- CRYSTAL_FAULT (R497): An absent or off-frequency crystal journals TAMPER. -/
  | crystalFault (flashOk : Bool)
  /-- TOLL_VDD_GLITCH (R497): A short VDD_TOLL glitch journals TAMPER. -/
  | tollVddGlitch (flashOk : Bool)
  /-- POWER_ON (R66): VDD_AON ramps up and the always-on domain starts. -/
  | powerOn
  /-- RAILS_OK_RISE (R508): RAILS_OK rises and blocks leave reset. -/
  | railsOkRise (lost : List Nat)
  /-- RAILS_OK_FALL (R508): RAILS_OK falls and every block outside always-on and Tollhouse resets. -/
  | railsOkFall
  /-- RAIL_SEQUENCE_ERROR (R508): A rail rising out of order holds its blocks in reset and sets SEQ_ERR. -/
  | railSequenceError (rail : Nat)
  /-- REFCLK_SYS_LOST (R511): REFCLK_SYS lost holds blocks in reset and runs ACLK on the internal oscillator. -/
  | refclkSysLost
  /-- REFCLK_SYS_RETURN (R511): REFCLK_SYS returns and a device fundamental reset runs. -/
  | refclkSysReturn (lost : List Nat)
  /-- REFCLK_PCIE_LOST (R511): REFCLK_PCIEn lost takes that port's link down. -/
  | refclkPcieLost (p : Nat)
  /-- REFCLK_NET_LOST (R511): REFCLK_NETg lost takes every port of the group down. -/
  | refclkNetLost (group : Nat)
  /-- DIM_ENTER (R514): Dim conditions held for DIM_DWELL move the device to Dim. -/
  | dimEnter
  /-- DIM_EXIT (R514): A Dim exit condition returns the device to Full within 50 µs. -/
  | dimExit
  /-- QUIET_ENTER (R516): Quiet conditions held for the dwell run the Quiet entry steps. -/
  | quietEnter
  /-- QUIET_EXIT (R518): A wake source starts the exit from Quiet. -/
  | quietExit (src : Nat)
  /-- QUIET_EXIT_DONE (R518): Cores restart, admission resumes and the state returns to FULL. -/
  | quietExitDone
  /-- PWR_WAKE (R517): Writing PWR_WAKE leaves Dim or Quiet. -/
  | pwrWake (pf : Nat) (value : Word)
  /-- THERMAL_CAP_STEP (R520): The thermal cap falls every 1 ms at CRIT or rises every 10 ms below. -/
  | thermalCapStep
  /-- POWER_CAP_STEP (R520): The power cap moves against device power and PWR_CAP. -/
  | powerCapStep
  /-- PWR_WAKE_PEER (R524): Sends a WAKE message for a target UID on the service bus. -/
  | pwrWakePeer (e : AdmEntry)
  /-- ADM_NOP (R559): Completes after every earlier command of the PF, as a fence. -/
  | admNop (e : AdmEntry)
  /-- ADM_IDENTIFY (R560): Returns the identify record. -/
  | admIdentify (e : AdmEntry)
  /-- ADM_JRNL_READ (R559): Returns an admin or table-update journal record. -/
  | admJrnlRead (e : AdmEntry)
  /-- GLB_PRIV_LOCK (R549): Writing GLB_PRIV_LOCK locks GLB_PRIV_PF until device fundamental reset. -/
  | glbPrivLock (pf : Nat) (value : Word)
  /-- TL_RST_N_ASSERT (R501): TL_RST_N asserted while VDD_TOLL is in range stops the Tollhouse as for power loss, and the Shutters hold their accumulators. -/
  | tlRstNAssert (flashOk : Bool)
  /-- VDD_AON_LOSS (R535): VDD_AON falls below 0.72 V and the always-on domain holds itself in power-on reset, so the device is Off. -/
  | vddAonLoss
  /-- PERST_RELEASE (R68): A PERSTn_N release ends the port's reset, starts training and the 900 ms or 100 ms readiness count, or waits for RAILS_OK. -/
  | perstRelease (p : Nat)
  /-- MGMT_RESTART_DONE (R18): The management controller restarted from the boot ROM is running again and its MCTP endpoints answer. -/
  | mgmtRestartDone
  /-- CORE_START_DONE (R381): A started or restarted core finishes loading its segments and thread 0 begins at ENTRY, completing CORE_START. -/
  | coreStartDone (n : Nat)
  /-- TIME_SLEW_DONE (R388): The carried offset C reaches 0 and TIME_STAT.SLEWING clears. -/
  | timeSlewDone
  /-- RNR_TIMER_EXPIRE (R298): After an RNR NAK the RNR timer expires; the request is resent or, with RNR_RETRY exhausted, the QP enters ERROR with RNR_EXC. -/
  | rnrTimerExpire (ctx : Nat)
  /-- PEER_BEACON_LOSS (R412): Three beacon periods pass without a BEACON from a Block member, which leaves the Block's membership and is the lost second signal of a hot-hot twin. -/
  | peerBeaconLoss (uid : Nat)
  /-- LPI_ENTRY (R185): A port's transmit or receive enters LPI under its IEEE 802.3 clause, counted in LPI_TX_EVENTS. -/
  | lpiEntry (p : Nat) (tx : Bool)
  /-- LPI_EXIT (R185): A port's transmit or receive leaves LPI under its IEEE 802.3 clause. -/
  | lpiExit (p : Nat) (tx : Bool)
  /-- SVB_BEACON_RETURN (R192): Valid PLCA BEACONs return and the service bus leaves its CSMA/CD fallback. -/
  | svbBeaconReturn
  /-- MDIO_COMPLETE (R193): An MDIO transaction ends, SVB_MDIO_CMD.GO clears and read data is returned in DATA. -/
  | mdioComplete (phyData : Nat)
  /-- L0P_WIDTH_CHANGE (R57): With L0P_EN and partner agreement, the device narrows or widens the Flit Mode link width to follow utilisation. -/
  | l0pWidthChange (p width : Nat)
  /-- TWIN_RECOVERY_RESET (R442): No frame of a protected stream arrives for TWIN_REC_RESET ms and the vector recovery history of the stream is reset. -/
  | twinRecoveryReset (stream : Nat)
  /-- MEMBERSHIP_HOLD_EXPIRE (R421): A JOIN or LEAVE that the City root has held back during a global operation for 10 ms is applied with a new EPOCH. -/
  | membershipHoldExpire
  deriving DecidableEq, Repr

end Sys2Proof
end

