-- ==== Sys2Proof/Config.lean ====
section
/-! DEFINITION. What the spec leaves open: opaque free values (no body, so no proof sees a value) and the
constants an implementation fixes. Each is named in the assumption log. -/

namespace Sys2Proof.Config

/-- A free byte: (serial number, index). Used wherever the spec says data is undefined. -/
opaque freeByte : Nat → Nat → Byte

/-- A free dword: serial number. -/
opaque freeDword : Nat → Dword

/-- A free number: (serial number, index); callers reduce it to the range the spec states. -/
opaque freeNat : Nat → Nat → Nat

/-- What a 32-bit counter register reads after an increment past 0xFFFF_FFFF: the spec does not say. -/
opaque counterPast : Word → Nat → Word

/-- A cryptographic primitive of another standard, by number (`Machine/Prim.lean`), its inputs, and the index of the byte of
its output: AES-GCM, ChaCha20-Poly1305, key wrap, HKDF, the public-key schemes. -/
opaque prim : Nat → List (List Byte) → Nat → Byte

/-- Whether a check of such a primitive holds: a key wrap, a signature, a stop of a signing loop. -/
opaque primOk : Nat → List (List Byte) → Bool

/-- Whether the IEEE 802.3 clause of a port type (its code, and the medium bit) defines LPI (R185): the spec does not list them. -/
opaque lpiCap : Nat → Bool → Bool

/-- The six bytes of the device's own MAC address on the service bus: the spec does not state it. -/
opaque svbMac : Nat → Byte

/-- The cost of a hop through a neighbour slot (R423: COST is the sum of hop costs; no value is stated). -/
opaque hopCost : Nat → Nat

end Sys2Proof.Config
end

