-- ==== Sys2Proof/Machine/RegNames.lean ====
section
/-! DEFINITION. The BAR0 offset of every register, by the name the spec gives it (R36, R70, R103, R145,
R169, R193, R225, R261, R289, R318, R346, R383, R408, R435, R457, R486, R504, R525, R565). An index of a
name (port, tenancy, ring, ...) is an argument. A register of which each PF sees its own copy (R145) takes
the PF and lies at its offset plus pf × 0x400_0000, beyond the 64 MiB of BAR0, so copies never meet. -/

namespace Sys2Proof.Reg

/-! Registers of "How the device is built" (R36). -/
/-- GLB_STAT: device-wide status, below -/
def GLB_STAT : Nat := 0x1000
/-- GLB_HBM_FW_CNT: accesses refused by the HBM firewall -/
def GLB_HBM_FW_CNT : Nat := 0x1004
/-- GLB_HBM_FW_ADDR_LO: first refused address, bits 31:0 -/
def GLB_HBM_FW_ADDR_LO : Nat := 0x1008
/-- GLB_HBM_FW_ADDR_HI: first refused address, bits 39:32 in [7:0]; [31:8] — -/
def GLB_HBM_FW_ADDR_HI : Nat := 0x100c
/-- GLB_HBM_FW_SRC: [31:9] —; [8] DIR (0 read, 1 write); [7:0] master identity -/
def GLB_HBM_FW_SRC : Nat := 0x1010
/-- GLB_ECC_CE_CNT: corrected errors, all SRAM and HBM -/
def GLB_ECC_CE_CNT : Nat := 0x1014
/-- GLB_ECC_UE_CNT: uncorrectable errors, all SRAM and HBM -/
def GLB_ECC_UE_CNT : Nat := 0x1018
/-- GLB_EXC_DROP_CNT: packets given their fate because an exception queue was full -/
def GLB_EXC_DROP_CNT : Nat := 0x101c
/-- GLB_SQ_FREE: cells that take_cell can grant as shared cells, free − reserve of R24 floored at 0, [18:0]; [31:19] — -/
def GLB_SQ_FREE : Nat := 0x1020
/-- GLB_SQ_APPLY: [0] 1 applies all pool values (R25); [31:1] — -/
def GLB_SQ_APPLY : Nat := 0x1024
/-- GLB_EXC_CFG: [31:2] —; [1:0] FWD_FATE (R15); a write of 3 is ignored and the old value is kept -/
def GLB_EXC_CFG : Nat := 0x1028
/-- GLB_SQ_MIN_n (i < 20): guaranteed cells, [18:0]; [31:19] — -/
def GLB_SQ_MIN (i : Nat) : Nat := 0x1100 + i * 0x4
/-- GLB_SQ_MAX_n (i < 20): cap in cells, [18:0]; [31:19] — -/
def GLB_SQ_MAX (i : Nat) : Nat := 0x1180 + i * 0x4
/-- GLB_SQ_USED_n (i < 20): cells charged to pool n, [18:0]; [31:19] — -/
def GLB_SQ_USED (i : Nat) : Nat := 0x1200 + i * 0x4

/-! Registers of "Facing the host" (R70). -/
/-- HIF_LIVE (i < 2): [31] —; [30:16] MAGIC 0x3216; [15:8] REV 0xB0; [7:0] transitions of the port's link to DL_Up since the registe -/
def HIF_LIVE (i : Nat) : Nat := 0x100000 + i * 0x10000
/-- HIF_PORT_STAT (i < 2): below -/
def HIF_PORT_STAT (i : Nat) : Nat := 0x100004 + i * 0x10000
/-- HIF_PORT_CTL (i < 2): [31:1] —; [0] L0P_EN -/
def HIF_PORT_CTL (i : Nat) : Nat := 0x100008 + i * 0x10000
/-- HIF_STAT (i < 2): below -/
def HIF_STAT (i : Nat) : Nat := 0x10000c + i * 0x10000
/-- HIF_TAG_LIMIT (i < 2): [31:14] —; [13:0] limit, 32 to 8,192 -/
def HIF_TAG_LIMIT (i : Nat) : Nat := 0x100010 + i * 0x10000
/-- HIF_TAGS_USED (i < 2): [31:30] —; [29:16] quarantined; [15:14] —; [13:0] in use -/
def HIF_TAGS_USED (i : Nat) : Nat := 0x100014 + i * 0x10000
/-- HIF_CPL_TO_CNT (i < 2): completion timeouts -/
def HIF_CPL_TO_CNT (i : Nat) : Nat := 0x100018 + i * 0x10000
/-- HIF_LATE_CPL (i < 2): late completions discarded -/
def HIF_LATE_CPL (i : Nat) : Nat := 0x10001c + i * 0x10000
/-- HIF_LTR_ACTIVE (i < 2): [31:26] —; [25:0] ns (10 µs) -/
def HIF_LTR_ACTIVE (i : Nat) : Nat := 0x100020 + i * 0x10000
/-- HIF_LTR_IDLE (i < 2): [31:26] —; [25:0] ns (3 ms) -/
def HIF_LTR_IDLE (i : Nat) : Nat := 0x100024 + i * 0x10000
/-- HIF_LTR_LAST (i < 2): [31:26] —; [25:0] last value sent, ns -/
def HIF_LTR_LAST (i : Nat) : Nat := 0x100028 + i * 0x10000
/-- HIF_PRI_TIMEOUT (i < 2): [31:16] —; [15:0] ms, 1 to 65,535; a write of 0 is ignored and sets CFG_ERR -/
def HIF_PRI_TIMEOUT (i : Nat) : Nat := 0x10002c + i * 0x10000
/-- HIF_BAR0_ERR_CNT (i < 2): R64 -/
def HIF_BAR0_ERR_CNT (i : Nat) : Nat := 0x100030 + i * 0x10000
/-- HIF_BAR0_ERR_LOG (i < 2): [31:27] —; [26] DIR (1 write); [25:0] offset -/
def HIF_BAR0_ERR_LOG (i : Nat) : Nat := 0x100034 + i * 0x10000
/-- HIF_BAR0_ERR_FN (i < 2): [31:16] —; [15:0] routing ID of the function whose BAR0 was addressed (R64) -/
def HIF_BAR0_ERR_FN (i : Nat) : Nat := 0x100038 + i * 0x10000
/-- HIF_D3_DROP (i < 2): frames dropped for functions in D3hot (R58) or with Bus Master Enable clear (R567) -/
def HIF_D3_DROP (i : Nat) : Nat := 0x10003c + i * 0x10000
/-- HIF_DB_STRAY (i < 2): doorbell writes to pages that are not live -/
def HIF_DB_STRAY (i : Nat) : Nat := 0x100040 + i * 0x10000
/-- HIF_WIN_COMMIT (i < 2): [31:1] —; [0] 1 commits the shadow set -/
def HIF_WIN_COMMIT (i : Nat) : Nat := 0x100100 + i * 0x10000
/-- HIF_WIN_STAT (i < 2): [31:3] —; [2] BUSY_ERR W1C; [1] CFG_ERR W1C; [0] RETIRED RO -/
def HIF_WIN_STAT (i : Nat) : Nat := 0x100104 + i * 0x10000
/-- HIF_WIN_MISS_WR (i < 2): posted writes matching no window -/
def HIF_WIN_MISS_WR (i : Nat) : Nat := 0x100108 + i * 0x10000
/-- HIF_WIN_MISS_RD (i < 2): reads matching no window -/
def HIF_WIN_MISS_RD (i : Nat) : Nat := 0x10010c + i * 0x10000
/-- HIF_WIN_MISS_LOG_LO (i < 2): BAR4 offset bits 31:0 -/
def HIF_WIN_MISS_LOG_LO (i : Nat) : Nat := 0x100110 + i * 0x10000
/-- HIF_WIN_MISS_LOG_HI (i < 2): [31:16] requester ID; [15:5] —; [4] DIR (1 write); [3:0] offset bits 35:32 -/
def HIF_WIN_MISS_LOG_HI (i : Nat) : Nat := 0x100114 + i * 0x10000
/-- HIF_WIN_w_BASE_LO (i < 2, j < 64): [31:12] BAR4 offset bits 31:12; [11:0] — -/
def HIF_WIN_BASE_LO (i : Nat) (j : Nat) : Nat := 0x101000 + i * 0x10000 + j * 0x20
/-- HIF_WIN_w_BASE_HI (i < 2, j < 64): [31:4] —; [3:0] offset bits 35:32 -/
def HIF_WIN_BASE_HI (i : Nat) (j : Nat) : Nat := 0x101004 + i * 0x10000 + j * 0x20
/-- HIF_WIN_w_SIZE (i < 2, j < 64): [31:6] —; [5:0] log2 of size, 12 to 36 -/
def HIF_WIN_SIZE (i : Nat) (j : Nat) : Nat := 0x101008 + i * 0x10000 + j * 0x20
/-- HIF_WIN_w_TGT_LO (i < 2, j < 64): [31:12] HBM address bits 31:12; [11:0] — -/
def HIF_WIN_TGT_LO (i : Nat) (j : Nat) : Nat := 0x10100c + i * 0x10000 + j * 0x20
/-- HIF_WIN_w_TGT_HI (i < 2, j < 64): [31:8] —; [7:0] HBM address bits 39:32 -/
def HIF_WIN_TGT_HI (i : Nat) (j : Nat) : Nat := 0x101010 + i * 0x10000 + j * 0x20
/-- HIF_WIN_w_CTL (i < 2, j < 64): below -/
def HIF_WIN_CTL (i : Nat) (j : Nat) : Nat := 0x101014 + i * 0x10000 + j * 0x20
/-- HIF_WIN_w_RID (i < 2, j < 64): [31:16] MASK; [15:0] RID -/
def HIF_WIN_RID (i : Nat) (j : Nat) : Nat := 0x101018 + i * 0x10000 + j * 0x20
/-- HIF_FN_CFG_n (i < 16): [31:16] —; [15] NVME (VF class 0x01_08_02); [14:11] —; [10:0] TOTALVFS, 0 to 1,024; reads the value written, w -/
def HIF_FN_CFG (i : Nat) : Nat := 0x120000 + i * 0x4
/-- HIF_GSTAT: [31:1] —; [0] VF_CFG_ERR W1C (R40) -/
def HIF_GSTAT : Nat := 0x120040

/-! Registers of "Tenancies" (R103). -/
/-- TEN_GSTAT: [31:1] —; [0] CFG_ERR W1C (R79) -/
def TEN_GSTAT : Nat := 0x200000
/-- TEN_COUNT: [31:13] —; [12:0] tenancies not FREE -/
def TEN_COUNT : Nat := 0x200004
/-- TEN_FLOOR_SUM_0: [31:16] —; [15:0] floors on host port 0, 100 Mb/s units -/
def TEN_FLOOR_SUM_0 : Nat := 0x200008
/-- TEN_FLOOR_SUM_1: [31:16] —; [15:0] floors on host port 1 -/
def TEN_FLOOR_SUM_1 : Nat := 0x20000c
/-- TEN_STATE_t (i < 4096): below -/
def TEN_STATE (i : Nat) : Nat := 0x210000 + i * 0x40
/-- TEN_BIND_t (i < 4096): [31:28] PF; [27] IS_VF; [26:17] VF; [16] —; [15:12] SLOT; [11:0] — -/
def TEN_BIND (i : Nat) : Nat := 0x210004 + i * 0x40
/-- TEN_PASID_t (i < 4096): [31] PASID_V; [30:20] —; [19:0] PASID -/
def TEN_PASID (i : Nat) : Nat := 0x210008 + i * 0x40
/-- TEN_GEN_t (i < 4096): GEN -/
def TEN_GEN (i : Nat) : Nat := 0x21000c + i * 0x40
/-- TEN_SHARE_t (i < 4096): [31:8] —; [7:0] WEIGHT in effect; for a CREATED tenancy, the WEIGHT recorded (R90) -/
def TEN_SHARE (i : Nat) : Nat := 0x210010 + i * 0x40
/-- TEN_RATE_t (i < 4096): [31:16] CEILING; [15:0] FLOOR, in effect; for a CREATED tenancy, the values recorded (R90) -/
def TEN_RATE (i : Nat) : Nat := 0x210014 + i * 0x40
/-- TEN_READ_LIMIT_t (i < 4096): [31:14] —; [13:0] limit 1 to 8,192 -/
def TEN_READ_LIMIT (i : Nat) : Nat := 0x210018 + i * 0x40
/-- TEN_RX_SHUT_t (i < 4096): frames dropped while the Shutter was not OPEN -/
def TEN_RX_SHUT (i : Nat) : Nat := 0x21001c + i * 0x40
/-- TEN_DISCARD_t (i < 4096): results and doorbells discarded by R81 and R82 -/
def TEN_DISCARD (i : Nat) : Nat := 0x210020 + i * 0x40
/-- TEN_LOG_EPOCH_t (i < 4096): current log epoch -/
def TEN_LOG_EPOCH (i : Nat) : Nat := 0x210024 + i * 0x40

/-! Registers of "Rings" (R145). -/
/-- RING_GSTAT (pf < 16: each PF sees its own copy): [31:1] —; [0] CFG_ERR W1C -/
def RING_GSTAT (pf : Nat) : Nat := 0x400000 + pf * 0x4000000
/-- RING_CQ_STALL_TIME (pf < 16: each PF sees its own copy): [31:16] —; [15:0] ms, 1 to 65,535; a write of 0 is ignored and sets CFG_ERR -/
def RING_CQ_STALL_TIME (pf : Nat) : Nat := 0x400004 + pf * 0x4000000
/-- RING_DB_BAD (pf < 16: each PF sees its own copy): doorbells discarded (R115, R116, R137) -/
def RING_DB_BAD (pf : Nat) : Nat := 0x400008 + pf * 0x4000000
/-- RING_STALL_CNT (pf < 16: each PF sees its own copy): completion rings that entered STALLED -/
def RING_STALL_CNT (pf : Nat) : Nat := 0x40000c + pf * 0x4000000
/-- RING_EVT_LOST (pf < 16: each PF sees its own copy): events discarded (R134) -/
def RING_EVT_LOST (pf : Nat) : Nat := 0x400010 + pf * 0x4000000
/-- RING_ADM_SQ_LO (pf < 16: each PF sees its own copy): [31:12] base bits 31:12; [11:0] — -/
def RING_ADM_SQ_LO (pf : Nat) : Nat := 0x400100 + pf * 0x4000000
/-- RING_ADM_SQ_HI (pf < 16: each PF sees its own copy): base bits 63:32 -/
def RING_ADM_SQ_HI (pf : Nat) : Nat := 0x400104 + pf * 0x4000000
/-- RING_ADM_CQ_LO (pf < 16: each PF sees its own copy): [31:12] base bits 31:12; [11:0] — -/
def RING_ADM_CQ_LO (pf : Nat) : Nat := 0x400108 + pf * 0x4000000
/-- RING_ADM_CQ_HI (pf < 16: each PF sees its own copy): base bits 63:32 -/
def RING_ADM_CQ_HI (pf : Nat) : Nat := 0x40010c + pf * 0x4000000
/-- RING_ADM_CFG (pf < 16: each PF sees its own copy): [31] EN; [30:26] —; [25:16] VECTOR; [15:13] —; [12:8] CQ_LOG2; [7:5] —; [4:0] SQ_LOG2 -/
def RING_ADM_CFG (pf : Nat) : Nat := 0x400110 + pf * 0x4000000
/-- RING_ADM_DB (pf < 16: each PF sees its own copy): [31:17] —; [16] LAP; [15:0] TAIL -/
def RING_ADM_DB (pf : Nat) : Nat := 0x400114 + pf * 0x4000000
/-- RING_ADM_CQ_DB (pf < 16: each PF sees its own copy): [31:17] —; [16] LAP; [15:0] HEAD -/
def RING_ADM_CQ_DB (pf : Nat) : Nat := 0x400118 + pf * 0x4000000
/-- RING_ADM_STAT (pf < 16: each PF sees its own copy): [31:17] —; [16] LAP; [15:0] started position of the admin ring -/
def RING_ADM_STAT (pf : Nat) : Nat := 0x40011c + pf * 0x4000000
/-- RING_CQ_STAT_c (i < 65536): below -/
def RING_CQ_STAT (i : Nat) : Nat := 0x480000 + i * 0x8
/-- RING_CQ_INFO_c (i < 65536): below -/
def RING_CQ_INFO (i : Nat) : Nat := 0x480004 + i * 0x8
/-- RING_SQ_STAT_q (i < 65536): below -/
def RING_SQ_STAT (i : Nat) : Nat := 0x500000 + i * 0x10
/-- RING_STARTED_q (i < 65536): [31:17] —; [16] LAP; [15:0] started index -/
def RING_STARTED (i : Nat) : Nat := 0x500004 + i * 0x10
/-- RING_PROG_q (i < 65536): [31:17] —; [16] LAP; [15:0] progress index last published -/
def RING_PROG (i : Nat) : Nat := 0x500008 + i * 0x10
/-- RING_SQ_DROP_q (i < 65536): RX frames dropped (R48, R125, R144) -/
def RING_SQ_DROP (i : Nat) : Nat := 0x50000c + i * 0x10

/-! Registers of "The copy engine" (R169). -/
/-- DMA_GSTAT: [31:1] —; [0] CFG_ERR W1C -/
def DMA_GSTAT : Nat := 0x600000
/-- DMA_HALT_TIME: [31:16] —; [15:0] ms, 0 to 65,535 (R166) -/
def DMA_HALT_TIME : Nat := 0x600004
/-- DMA_CHAN_PER_TEN: [31:9] —; [8:0] 1 to 256; any other value is ignored and sets CFG_ERR -/
def DMA_CHAN_PER_TEN : Nat := 0x600008
/-- DMA_BUSY: [31:9] —; [8:0] channels not IDLE -/
def DMA_BUSY : Nat := 0x60000c
/-- DMA_HALT_CNT: halts -/
def DMA_HALT_CNT : Nat := 0x600010
/-- DMA_HALT_TO_CNT: halts ended by DMA_HALT_TIME -/
def DMA_HALT_TO_CNT : Nat := 0x600014
/-- DMA_HALTED_i (i < 8): bit j: channel 32i + j is HALTED -/
def DMA_HALTED (i : Nat) : Nat := 0x600020 + i * 0x4
/-- DMA_CH_STAT_n (i < 256): below -/
def DMA_CH_STAT (i : Nat) : Nat := 0x610000 + i * 0x40
/-- DMA_CH_JOB_n (i < 256): [31:16] TAG; [15:0] SQID -/
def DMA_CH_JOB (i : Nat) : Nat := 0x610004 + i * 0x40
/-- DMA_CH_TEN_n (i < 256): [31:12] —; [11:0] tenancy -/
def DMA_CH_TEN (i : Nat) : Nat := 0x610008 + i * 0x40
/-- DMA_CH_DONE_n (i < 256): bytes written by the job so far -/
def DMA_CH_DONE (i : Nat) : Nat := 0x61000c + i * 0x40
/-- DMA_FAIL_ADDR_LO_n (i < 256): failing address, bits 31:0 -/
def DMA_FAIL_ADDR_LO (i : Nat) : Nat := 0x610010 + i * 0x40
/-- DMA_FAIL_ADDR_HI_n (i < 256): failing address, bits 63:32 -/
def DMA_FAIL_ADDR_HI (i : Nat) : Nat := 0x610014 + i * 0x40
/-- DMA_FAIL_DIR_n (i < 256): below -/
def DMA_FAIL_DIR (i : Nat) : Nat := 0x610018 + i * 0x40
/-- DMA_FAIL_DESC_LO_n (i < 256): descriptor address, bits 31:0 -/
def DMA_FAIL_DESC_LO (i : Nat) : Nat := 0x61001c + i * 0x40
/-- DMA_FAIL_DESC_HI_n (i < 256): descriptor address, bits 63:32 -/
def DMA_FAIL_DESC_HI (i : Nat) : Nat := 0x610020 + i * 0x40
/-- DMA_FAIL_OFF_n (i < 256): [31] —; [30:0] F, the descriptor offset -/
def DMA_FAIL_OFF (i : Nat) : Nat := 0x610024 + i * 0x40

/-! Registers of "Network ports" (R193). -/
/-- PORT_GSTAT: [31:1] —; [0] CFG_ERR W1C -/
def PORT_GSTAT : Nat := 0x800000
/-- PORT_APPLY: [31:2] —; [1:0] apply group 1, group 0 (R173) -/
def PORT_APPLY : Nat := 0x800004
/-- PORT_GRP_MODE_g (i < 2): eight 4-bit lane fields (R173) -/
def PORT_GRP_MODE (i : Nat) : Nat := 0x800010 + i * 0x4
/-- PORT_LANE_POL_g (i < 2): [31:16] —; [15:8] invert TX lane j; [7:0] invert RX lane j -/
def PORT_LANE_POL (i : Nat) : Nat := 0x800020 + i * 0x4
/-- PORT_CFG_p (i < 16): below -/
def PORT_CFG (i : Nat) : Nat := 0x810000 + i * 0x1000
/-- PORT_STAT_p (i < 16): below -/
def PORT_STAT (i : Nat) : Nat := 0x810004 + i * 0x1000
/-- PORT_MTU_p (i < 16): [31:14] —; [13:0] 1,518 to 16,000 -/
def PORT_MTU (i : Nat) : Nat := 0x810008 + i * 0x1000
/-- PORT_DIM_CFG_p (i < 16): [31:16] DIM_DWELL, 100 µs units, 1 to 65,535; [15] —; [14:8] DIM_HIGH %; [7] —; [6:0] DIM_LOW %; a value out o -/
def PORT_DIM_CFG (i : Nat) : Nat := 0x81000c + i * 0x1000
/-- PORT_PFC_XOFF_p (i < 16): [31:19] —; [18:0] cells; 0 disables -/
def PORT_PFC_XOFF (i : Nat) : Nat := 0x810010 + i * 0x1000
/-- PORT_PFC_XON_p (i < 16): [31:19] —; [18:0] cells -/
def PORT_PFC_XON (i : Nat) : Nat := 0x810014 + i * 0x1000
/-- PORT_WAKE_STAT_p (i < 16): bit i: pattern i matched -/
def PORT_WAKE_STAT (i : Nat) : Nat := 0x810018 + i * 0x1000
/-- PORT_CNT_SNAP_p (i < 16): [31] REFUSED; [30:16] —; [15:0] SEQ (R189) -/
def PORT_CNT_SNAP (i : Nat) : Nat := 0x810020 + i * 0x1000
/-- PORT_CNT_REL_p (i < 16): [31:1] —; [0] 1 releases the bank -/
def PORT_CNT_REL (i : Nat) : Nat := 0x810024 + i * 0x1000
/-- PORT_ADDR_LO_p (i < 16): port address bits 31:0 -/
def PORT_ADDR_LO (i : Nat) : Nat := 0x810028 + i * 0x1000
/-- PORT_ADDR_HI_p (i < 16): [31:16] —; [15:0] address bits 47:32 -/
def PORT_ADDR_HI (i : Nat) : Nat := 0x81002c + i * 0x1000
/-- PORT_WAKE_MASK_0_p_i (i < 16, j < 32): bytes 0–31 -/
def PORT_WAKE_MASK_0 (i : Nat) (j : Nat) : Nat := 0x810100 + i * 0x1000 + j * 0x20
/-- PORT_WAKE_MASK_1_p_i (i < 16, j < 32): bytes 32–63 -/
def PORT_WAKE_MASK_1 (i : Nat) (j : Nat) : Nat := 0x810104 + i * 0x1000 + j * 0x20
/-- PORT_WAKE_MASK_2_p_i (i < 16, j < 32): bytes 64–95 -/
def PORT_WAKE_MASK_2 (i : Nat) (j : Nat) : Nat := 0x810108 + i * 0x1000 + j * 0x20
/-- PORT_WAKE_MASK_3_p_i (i < 16, j < 32): bytes 96–127 -/
def PORT_WAKE_MASK_3 (i : Nat) (j : Nat) : Nat := 0x81010c + i * 0x1000 + j * 0x20
/-- PORT_WAKE_CRC_p_i (i < 16, j < 32): check value -/
def PORT_WAKE_CRC (i : Nat) (j : Nat) : Nat := 0x810110 + i * 0x1000 + j * 0x20
/-- PORT_WAKE_CTL_p_i (i < 16, j < 32): [31] EN; [30:4] —; [3:0] target PF -/
def PORT_WAKE_CTL (i : Nat) (j : Nat) : Nat := 0x810114 + i * 0x1000 + j * 0x20
/-- PORT_CNT_BANK_p_i (i < 16, j < 96): counter i of the last snapshot, 64 bits -/
def PORT_CNT_BANK (i : Nat) (j : Nat) : Nat := 0x810800 + i * 0x1000 + j * 0x8
/-- SVB_CFG: [31:2] —; [1] MODE (0 CSMA/CD, 1 PLCA; loaded from flash); [0] EN -/
def SVB_CFG : Nat := 0x980000
/-- SVB_PLCA: [31:24] MAX_BC; [23:16] TO_TMR, bit times; [15:8] NODE_CNT; [7:0] NODE_ID (from flash; 0xFF none) -/
def SVB_PLCA : Nat := 0x980004
/-- SVB_PLCA_BURST: [31:8] —; [7:0] BURST_TMR, bit times -/
def SVB_PLCA_BURST : Nat := 0x980008
/-- SVB_STAT: [31:3] —; [2] COORD (sending BEACONs); [1] PLCA_ACTIVE; [0] LINK -/
def SVB_STAT : Nat := 0x98000c
/-- SVB_GSTAT: [31:1] —; [0] CFG_ERR W1C -/
def SVB_GSTAT : Nat := 0x980010
/-- SVB_RX_OK: frames received with a good FCS -/
def SVB_RX_OK : Nat := 0x980020
/-- SVB_TX_OK: frames sent -/
def SVB_TX_OK : Nat := 0x980024
/-- SVB_FCS_ERR: frames received with a bad FCS -/
def SVB_FCS_ERR : Nat := 0x980028
/-- SVB_COLL: collisions -/
def SVB_COLL : Nat := 0x98002c
/-- SVB_PLCA_FALLBACK: PLCA transitions to inactive -/
def SVB_PLCA_FALLBACK : Nat := 0x980030
/-- SVB_TX_DROP: R191 -/
def SVB_TX_DROP : Nat := 0x980034
/-- SVB_MDIO_CMD: [31] GO, reads 1 while busy; [30] READ; [29:26] —; [25:21] PHYAD; [20:16] REGAD; [15:0] DATA, written for a wr -/
def SVB_MDIO_CMD : Nat := 0x980040

/-! Registers of "The Crossing" (R225). -/
/-- CLS_GSTAT: [31:2] —; [1] TCAM_PERR W1C (R212); [0] CFG_ERR W1C -/
def CLS_GSTAT : Nat := 0xa00000
/-- CLS_IMAGE_STAT: [31:3] —; [2] ACTIVE_VALID: the active bank holds an image (R571); [1] INACTIVE_VALID; [0] ACTIVE bank -/
def CLS_IMAGE_STAT : Nat := 0xa00004
/-- CLS_EXC_RING: [31] EN; [30:16] —; [15:0] global submission ring number (R204) -/
def CLS_EXC_RING : Nat := 0xa00008
/-- CLS_SLOW_DROP: slow-path frames dropped (R203, R204) -/
def CLS_SLOW_DROP : Nat := 0xa0000c
/-- CLS_RULE_DROP: frames dropped by STEER DROP -/
def CLS_RULE_DROP : Nat := 0xa00010
/-- CLS_NO_RING: R222 -/
def CLS_NO_RING : Nat := 0xa00014
/-- CLS_TCAM_PERR_CNT: entries invalidated by the scrub -/
def CLS_TCAM_PERR_CNT : Nat := 0xa00018
/-- CLS_TCAM_PERR_IDX: [31:18] —; [17:0] global index -/
def CLS_TCAM_PERR_IDX : Nat := 0xa0001c
/-- CLS_UPD_BAD: records with outcome BAD -/
def CLS_UPD_BAD : Nat := 0xa00020
/-- CLS_UPD_CASFAIL: records with outcome CAS_FAIL -/
def CLS_UPD_CASFAIL : Nat := 0xa00024
/-- CLS_SLOW_r (i < None): [31:19] —; [18] QF; [17:16] FATE (3 is ignored and sets CFG_ERR); [15:0] HANDLER -/
def CLS_SLOW (i : Nat) : Nat := 0xa00100 + i * 0x4
/-- TCAM_CHAIN_b (i < 64): [31] EN; [30:26] —; [25:24] WIDTH; [23:22] —; [21:16] RSET; [15:0] — -/
def TCAM_CHAIN (i : Nat) : Nat := 0xa01000 + i * 0x4
/-- TCAM_APPLY: [31:1] —; [0] 1 applies all TCAM_CHAIN_b (R211) -/
def TCAM_APPLY : Nat := 0xa01100
/-- TCAM_USED: [31:19] —; [18:0] valid groups -/
def TCAM_USED : Nat := 0xa01104
/-- CLS_RSET_SNAP_s (i < 64): [31] REFUSED; [30:16] —; [15:0] SEQ -/
def CLS_RSET_SNAP (i : Nat) : Nat := 0xa02000 + i * 0x40
/-- CLS_RSET_REL_s (i < 64): [31:1] —; [0] 1 releases the bank -/
def CLS_RSET_REL (i : Nat) : Nat := 0xa02004 + i * 0x40
/-- CLS_RSET_BANK_s_i (i < 64, j < 4): LOOKUPS, HITS, MISSES, TIES; 64 bits each -/
def CLS_RSET_BANK (i : Nat) (j : Nat) : Nat := 0xa02010 + i * 0x40 + j * 0x8
/-- CLS_HPROF_CFG_h (i < 8): [31] ALG; [30] SYM; [29] INNER; [28:9] —; [8] VNI; [7] FLOWLBL; [6] PROTO; [5] L4_DST; [4] L4_SRC; [3] IP_DST; -/
def CLS_HPROF_CFG (i : Nat) : Nat := 0xa03000 + i * 0x40
/-- CLS_HPROF_KEY_h_i (i < 8, j < 13): key bytes 4i to 4i + 3 (R220) -/
def CLS_HPROF_KEY (i : Nat) (j : Nat) : Nat := 0xa03004 + i * 0x40 + j * 0x4
/-- CLS_HPROF_APPLY: [31:8] —; [7:0] bit h applies profile h -/
def CLS_HPROF_APPLY : Nat := 0xa03200

/-! Registers of "Switching" (R261). -/
/-- FWD_GSTAT: [31:6] —; [5:3] REHASH_REQ W1C, one bit per table k (R236); [2] —; [1] REHASH_BUSY RO; [0] CFG_ERR W1C -/
def FWD_GSTAT : Nat := 0xc00000
/-- FWD_AGE_TICK: [31:16] —; [15:0] ms, 1 to 65,535 -/
def FWD_AGE_TICK : Nat := 0xc00004
/-- FWD_TICK_NOW: [31:16] —; [15:0] NOW -/
def FWD_TICK_NOW : Nat := 0xc00008
/-- FWD_EVT_CFG: [31:9] —; [8] STATIC_EVT; [7:4] —; [3:0] PF for events -/
def FWD_EVT_CFG : Nat := 0xc0000c
/-- FWD_NO_TEN: R226, R249 -/
def FWD_NO_TEN : Nat := 0xc00020
/-- FWD_ACT_DENY: R257 -/
def FWD_ACT_DENY : Nat := 0xc00024
/-- FWD_ACT_DROP: DROP words, DEST kind 0, bridges with EN 0 -/
def FWD_ACT_DROP : Nat := 0xc00028
/-- FWD_NO_FATE: R257 -/
def FWD_NO_FATE : Nat := 0xc0002c
/-- FWD_ACT_LONG: R257 -/
def FWD_ACT_LONG : Nat := 0xc00030
/-- FWD_TTL_DROP: R257 -/
def FWD_TTL_DROP : Nat := 0xc00034
/-- FWD_LEARN_DROP: R241 -/
def FWD_LEARN_DROP : Nat := 0xc00038
/-- FWD_LEARN_LIMIT: R241 -/
def FWD_LEARN_LIMIT : Nat := 0xc0003c
/-- FWD_STATIC_MOVE: R241 -/
def FWD_STATIC_MOVE : Nat := 0xc00040
/-- FWD_MOVES: R241 -/
def FWD_MOVES : Nat := 0xc00044
/-- FWD_CT_INVALID: R247 -/
def FWD_CT_INVALID : Nat := 0xc00048
/-- FWD_NAT_EXHAUST: R250 -/
def FWD_NAT_EXHAUST : Nat := 0xc0004c
/-- FWD_NAT_PROTO: R250 -/
def FWD_NAT_PROTO : Nat := 0xc00050
/-- FWD_DECAP_BAD: R255 -/
def FWD_DECAP_BAD : Nat := 0xc00054
/-- FWD_ENC_MTU_DROP: R254 -/
def FWD_ENC_MTU_DROP : Nat := 0xc00058
/-- FWD_AGE_CFG_k (i < 3): [31] EN; [30:14] —; [13:0] SWEEP_PASS, ticks, 1 to 16,384 -/
def FWD_AGE_CFG (i : Nat) : Nat := 0xc00100 + i * 0x20
/-- FWD_AGE_LIM01_k (i < 3): [31] —; [30:16] class 1 limit; [15] —; [14:0] class 0 limit -/
def FWD_AGE_LIM01 (i : Nat) : Nat := 0xc00104 + i * 0x20
/-- FWD_AGE_LIM23_k (i < 3): [31] —; [30:16] class 3 limit; [15] —; [14:0] class 2 limit -/
def FWD_AGE_LIM23 (i : Nat) : Nat := 0xc00108 + i * 0x20
/-- FWD_ENTRIES_k (i < 3): [31:28] —; [27:0] valid lines -/
def FWD_ENTRIES (i : Nat) : Nat := 0xc0010c + i * 0x20
/-- FWD_AGED_k (i < 3): lines deleted by ageing -/
def FWD_AGED (i : Nat) : Nat := 0xc00110 + i * 0x20
/-- FWD_INS_FAIL_k (i < 3): inserts refused for want of a slot or path -/
def FWD_INS_FAIL (i : Nat) : Nat := 0xc00114 + i * 0x20

/-! Registers of "Encryption" (R289). -/
/-- CRY_GSTAT: [31:2] —; [1] RNG_FAIL W1C; [0] CFG_ERR W1C -/
def CRY_GSTAT : Nat := 0xe00000
/-- CRY_RNG_STAT: [31:4] —; [3] APT failed; [2] RCT failed; [1] FAILED; [0] RUNNING -/
def CRY_RNG_STAT : Nat := 0xe00004
/-- CRY_RNG_RESTART: [31:1] —; [0] 1 reruns the start-up test (R274) -/
def CRY_RNG_RESTART : Nat := 0xe00008
/-- CRY_RNG_FAIL_CNT: health-test failures -/
def CRY_RNG_FAIL_CNT : Nat := 0xe0000c
/-- CRY_RESEED_MS: [31:16] —; [15:0] ms, 1 to 1,000; other values are ignored and set CFG_ERR -/
def CRY_RESEED_MS : Nat := 0xe00010
/-- CRY_EVT_CFG: [31:4] —; [3:0] PF for device events -/
def CRY_EVT_CFG : Nat := 0xe00014
/-- CRY_SLOTS_USED: [31:21] —; [20:0] used slots -/
def CRY_SLOTS_USED : Nat := 0xe00018
/-- CRY_CACHE_MISS: key cache misses -/
def CRY_CACHE_MISS : Nat := 0xe0001c
/-- CRY_UNWRAP_FAIL: R266 -/
def CRY_UNWRAP_FAIL : Nat := 0xe00020
/-- CRY_AUTH_FAIL: units whose tag failed (R263) -/
def CRY_AUTH_FAIL : Nat := 0xe00024
/-- CRY_REPLAY: R279 -/
def CRY_REPLAY : Nat := 0xe00028
/-- CRY_NOKEY: units dropped for an invalid or expired context, or an SPI mismatch -/
def CRY_NOKEY : Nat := 0xe0002c
/-- CRY_HS_DONE: handshake operations completed -/
def CRY_HS_DONE : Nat := 0xe00030
/-- CRY_HS_QUEUED: [31:11] —; [10:0] requests queued, 0 to 1,024 -/
def CRY_HS_QUEUED : Nat := 0xe00034
/-- CRY_MS_RX_OK_p (i < 16): R276 -/
def CRY_MS_RX_OK (i : Nat) : Nat := 0xe10000 + i * 0x40
/-- CRY_MS_RX_NOT_VALID_p (i < 16): R276 -/
def CRY_MS_RX_NOT_VALID (i : Nat) : Nat := 0xe10004 + i * 0x40
/-- CRY_MS_RX_LATE_p (i < 16): R276 -/
def CRY_MS_RX_LATE (i : Nat) : Nat := 0xe10008 + i * 0x40
/-- CRY_MS_RX_NO_SA_p (i < 16): R276 -/
def CRY_MS_RX_NO_SA (i : Nat) : Nat := 0xe1000c + i * 0x40
/-- CRY_MS_RX_UNTAGGED_p (i < 16): R276 -/
def CRY_MS_RX_UNTAGGED (i : Nat) : Nat := 0xe10010 + i * 0x40
/-- CRY_MS_TX_PROT_p (i < 16): frames protected -/
def CRY_MS_TX_PROT (i : Nat) : Nat := 0xe10014 + i * 0x40
/-- CRY_MS_TX_DROP_p (i < 16): R277 -/
def CRY_MS_TX_DROP (i : Nat) : Nat := 0xe10018 + i * 0x40

/-! Registers of "Block storage" (R318). -/
/-- STO_GSTAT: [31:1] —; [0] CFG_ERR W1C -/
def STO_GSTAT : Nat := 0x1000000
/-- STO_RC_TIME: [31:24] —; [23:16] RC_INC_T µs; [15:8] RC_REACT µs; [7:0] RC_WIN µs; 0 in any field is ignored and sets CFG_ER -/
def STO_RC_TIME : Nat := 0x1000004
/-- STO_RC_STEP: [31:16] RC_HAI, 100 Mb/s; [15:0] RC_AI, 100 Mb/s -/
def STO_RC_STEP : Nat := 0x1000008
/-- STO_RC_MIN: [31:16] —; [15:0] RC_MIN, 100 Mb/s, 1 to 65,535 -/
def STO_RC_MIN : Nat := 0x100000c
/-- STO_CNP_CFG: [31:16] —; [15:8] DEF_F; [7:6] —; [5:0] CNP DSCP -/
def STO_CNP_CFG : Nat := 0x1000010
/-- STO_WB_AGE: [31:16] —; [15:0] ms, 1 to 65,535 -/
def STO_WB_AGE : Nat := 0x1000014
/-- STO_SSD_TIMEOUT: [31:16] —; [15:0] ms, 1 to 65,535 -/
def STO_SSD_TIMEOUT : Nat := 0x1000018
/-- STO_CNP_TX: CNPs sent -/
def STO_CNP_TX : Nat := 0x1000020
/-- STO_CNP_RX: CNPs received -/
def STO_CNP_RX : Nat := 0x1000024
/-- STO_RETX_PKTS: R300 -/
def STO_RETX_PKTS : Nat := 0x1000028
/-- STO_NAK_TX: NAKs sent, RNR included -/
def STO_NAK_TX : Nat := 0x100002c
/-- STO_NO_QP: R292 -/
def STO_NO_QP : Nat := 0x1000030
/-- STO_CTX_EXC: R304 -/
def STO_CTX_EXC : Nat := 0x1000034
/-- STO_SSD_TO_CNT: R314 -/
def STO_SSD_TO_CNT : Nat := 0x1000038
/-- STO_WB_FAIL: R312 -/
def STO_WB_FAIL : Nat := 0x100003c

/-! Registers of "The archive path" (R346). -/
/-- ARC_GSTAT: [31:1] —; [0] JOURNAL_WRAP W1C: a journal record was overwritten -/
def ARC_GSTAT : Nat := 0x1200000
/-- ARC_STAGE_BASE_LO: staging base bits 31:0 -/
def ARC_STAGE_BASE_LO : Nat := 0x1200004
/-- ARC_STAGE_BASE_HI: [31:8] —; [7:0] base bits 39:32 -/
def ARC_STAGE_BASE_HI : Nat := 0x1200008
/-- ARC_STAGE_SIZE: staging size in MiB; 0 while not configured -/
def ARC_STAGE_SIZE : Nat := 0x120000c
/-- ARC_STAGE_FREE: free staging in MiB -/
def ARC_STAGE_FREE : Nat := 0x1200010
/-- ARC_JOBS: [31:7] —; [6:0] jobs running, 0 to 64 -/
def ARC_JOBS : Nat := 0x1200014
/-- ARC_JOURNAL_SEQ: bits 31:0 of the next record's SEQ -/
def ARC_JOURNAL_SEQ : Nat := 0x1200018
/-- ARC_PUT_CNT: OBJ_PUT objects completed DONE -/
def ARC_PUT_CNT : Nat := 0x1200020
/-- ARC_GET_CNT: OBJ_GET jobs completed DONE -/
def ARC_GET_CNT : Nat := 0x1200024
/-- ARC_VERIFY_CNT: OBJ_VERIFY jobs completed -/
def ARC_VERIFY_CNT : Nat := 0x1200028
/-- ARC_MIG_CNT: migration records written -/
def ARC_MIG_CNT : Nat := 0x120002c
/-- ARC_DECODED: stripes decoded -/
def ARC_DECODED : Nat := 0x1200030
/-- ARC_TAG_FAIL: records that failed their tag or check value -/
def ARC_TAG_FAIL : Nat := 0x1200034
/-- ARC_HDR_FAIL: shard headers refused -/
def ARC_HDR_FAIL : Nat := 0x1200038
/-- ARC_FIXITY_FAIL: object fixity or readback mismatches -/
def ARC_FIXITY_FAIL : Nat := 0x120003c
/-- ARC_TGT_FAIL: shards counted failed under R337, and targets abandoned under R336 -/
def ARC_TGT_FAIL : Nat := 0x1200040

/-! Registers of "The packet cores" (R383). -/
/-- CORE_GSTAT: [31:3] —; [2] FAULT W1C; [1] GRIDLOCK W1C; [0] CFG_ERR W1C -/
def CORE_GSTAT : Nat := 0x1400000
/-- CORE_EVT_CFG: [31:9] —; [8] AUTO_RESTART; [7:4] —; [3:0] PF for events -/
def CORE_EVT_CFG : Nat := 0x1400004
/-- CORE_DBG_CTL: [31:2] —; [1] TRACE_EN for the core in CORE_DBG_SEL; [0] DBG_LEASE_HOLD -/
def CORE_DBG_CTL : Nat := 0x1400008
/-- CORE_GRID_CNT: gridlocks (R374) -/
def CORE_GRID_CNT : Nat := 0x140000c
/-- CORE_FAULT_CNT: core faults (R359) -/
def CORE_FAULT_CNT : Nat := 0x1400010
/-- CORE_NO_HND: R361 -/
def CORE_NO_HND : Nat := 0x1400014
/-- CORE_HQ_DROP: R360 -/
def CORE_HQ_DROP : Nat := 0x1400018
/-- CORE_FATE_DROP: R360, R374 -/
def CORE_FATE_DROP : Nat := 0x140001c
/-- CORE_CH_ABANDON: R370 -/
def CORE_CH_ABANDON : Nat := 0x1400020
/-- CORE_CH_DISCARD: R370 -/
def CORE_CH_DISCARD : Nat := 0x1400024
/-- CORE_CT_BAD: R365 -/
def CORE_CT_BAD : Nat := 0x1400028
/-- CORE_RESTART_CNT: core restarts (R381) -/
def CORE_RESTART_CNT : Nat := 0x140002c
/-- CORE_CL_FREQ_c (i < 16): [31:12] —; [11:0] CCLK in MHz -/
def CORE_CL_FREQ (i : Nat) : Nat := 0x1400100 + i * 0x4
/-- CORE_STAT_n (i < 256): below -/
def CORE_STAT (i : Nat) : Nat := 0x1401000 + i * 0x20
/-- CORE_THR_STAT_n (i < 256): as CORE_THR_STATE (R356) -/
def CORE_THR_STAT (i : Nat) : Nat := 0x1401004 + i * 0x20
/-- CORE_IMAGE_n (i < 256): [31:6] —; [5:0] slot last started -/
def CORE_IMAGE (i : Nat) : Nat := 0x1401008 + i * 0x20
/-- CORE_HQ_n (i < 256): [31:9] —; [8:0] tokens queued -/
def CORE_HQ (i : Nat) : Nat := 0x140100c + i * 0x20
/-- CORE_DBG_SEL: [31:16] —; [15:8] core n; [7:3] —; [2:0] thread -/
def CORE_DBG_SEL : Nat := 0x1500000
/-- CORE_DBG_CMD: [31:4] —; [3:0] command (R376) -/
def CORE_DBG_CMD : Nat := 0x1500004
/-- CORE_DBG_STAT: [31:2] —; [1] ERR; [0] BUSY -/
def CORE_DBG_STAT : Nat := 0x1500008
/-- CORE_DBG_ADDR_LO: address bits 31:0 -/
def CORE_DBG_ADDR_LO : Nat := 0x150000c
/-- CORE_DBG_ADDR_HI: address bits 63:32 -/
def CORE_DBG_ADDR_HI : Nat := 0x1500010
/-- CORE_DBG_DATA_LO: data bits 31:0 -/
def CORE_DBG_DATA_LO : Nat := 0x1500014
/-- CORE_DBG_DATA_HI: data bits 63:32 -/
def CORE_DBG_DATA_HI : Nat := 0x1500018

/-! Registers of "Time" (R408). -/
/-- TIME_GSTAT: [31:2] —; [1] REF_LOST W1C; [0] CFG_ERR W1C -/
def TIME_GSTAT : Nat := 0x1800000
/-- TIME_CTL: [31:1] —; [0] REF (0 REFCLK_SYS, 1 CLK10M_IN) -/
def TIME_CTL : Nat := 0x1800004
/-- TIME_SEL: [31:1] —; [0] 0 A, 1 B -/
def TIME_SEL : Nat := 0x1800008
/-- TIME_LOCK: [31:1] —; [0] 1 locks local time (R388) -/
def TIME_LOCK : Nat := 0x180000c
/-- TIME_STAT: [31:4] —; [3] REF_LOST; [2] LOCKED; [1] SLEWING; [0] domain selected -/
def TIME_STAT : Nat := 0x1800010
/-- TIME_SLEW: [31:19] —; [18:0] ppm, 1 to 500,000; other values are ignored and set CFG_ERR -/
def TIME_SLEW : Nat := 0x1800014
/-- TIME_CARRY_NS: C, signed ns -/
def TIME_CARRY_NS : Nat := 0x1800018
/-- TIME_CARRY_FRAC: C, fraction -/
def TIME_CARRY_FRAC : Nat := 0x180001c
/-- TIME_EVT_CFG: [31:4] —; [3:0] PF for events -/
def TIME_EVT_CFG : Nat := 0x1800020
/-- TIME_PPS_CFG: [31] EN; [30] —; [29:0] width ns, 1 to 999,999,999 -/
def TIME_PPS_CFG : Nat := 0x1800024
/-- TIME_PPSIN_SEC_LO: seconds bits 31:0 -/
def TIME_PPSIN_SEC_LO : Nat := 0x1800028
/-- TIME_PPSIN_SEC_HI: [31:16] —; [15:0] seconds bits 47:32 -/
def TIME_PPSIN_SEC_HI : Nat := 0x180002c
/-- TIME_PPSIN_NS: [31:30] —; [29:0] ns -/
def TIME_PPSIN_NS : Nat := 0x1800030
/-- TIME_PPSIN_CNT: PPS_IN edges -/
def TIME_PPSIN_CNT : Nat := 0x1800034
/-- TIME_INC_d_LO (i < 2): fraction; applies the pair (R386) -/
def TIME_INC_LO (i : Nat) : Nat := 0x1800100 + i * 0x40
/-- TIME_INC_d_HI (i < 2): [31:8] —; [7:0] integer ns, held -/
def TIME_INC_HI (i : Nat) : Nat := 0x1800104 + i * 0x40
/-- TIME_SET_d_SEC_LO (i < 2): seconds bits 31:0 -/
def TIME_SET_SEC_LO (i : Nat) : Nat := 0x1800108 + i * 0x40
/-- TIME_SET_d_SEC_HI (i < 2): [31:16] —; [15:0] seconds bits 47:32 -/
def TIME_SET_SEC_HI (i : Nat) : Nat := 0x180010c + i * 0x40
/-- TIME_SET_d_NS (i < 2): [31:30] —; [29:0] ns -/
def TIME_SET_NS (i : Nat) : Nat := 0x1800110 + i * 0x40
/-- TIME_ADJ_d (i < 2): signed ns -/
def TIME_ADJ (i : Nat) : Nat := 0x1800114 + i * 0x40
/-- TIME_GO_d (i < 2): [31:2] —; [1] ADJ; [0] SET (R387) -/
def TIME_GO (i : Nat) : Nat := 0x1800118 + i * 0x40
/-- TIME_SNAP: [31:16] —; [15:0] SEQ (R389) -/
def TIME_SNAP : Nat := 0x1800200
/-- TIME_SNAP_k_SEC_LO (i < 3): seconds bits 31:0; [31:16] —, [15:0] bits 47:32 -/
def TIME_SNAP_SEC_LO (i : Nat) : Nat := 0x1800210 + i * 0x10
/-- TIME_SNAP_k_SEC_HI (i < 3): seconds bits 31:0; [31:16] —, [15:0] bits 47:32 -/
def TIME_SNAP_SEC_HI (i : Nat) : Nat := 0x1800214 + i * 0x10
/-- TIME_SNAP_k_NS (i < 3): [31:30] —, [29:0] ns; fraction -/
def TIME_SNAP_NS (i : Nat) : Nat := 0x1800218 + i * 0x10
/-- TIME_SNAP_k_FRAC (i < 3): [31:30] —, [29:0] ns; fraction -/
def TIME_SNAP_FRAC (i : Nat) : Nat := 0x180021c + i * 0x10
/-- TIME_PAGE_LO_n (i < 16): [31:3] address bits 31:3; [2:1] —; [0] EN -/
def TIME_PAGE_LO (i : Nat) : Nat := 0x1800300 + i * 0x8
/-- TIME_PAGE_HI_n (i < 16): address bits 63:32 -/
def TIME_PAGE_HI (i : Nat) : Nat := 0x1800304 + i * 0x8
/-- TIME_TIO_CFG_i (i < 8): [31:7] —; [6:5] EDGE (0 rising, 1 falling, 2 both); [4] PERIODIC; [3:2] —; [1:0] MODE (0 off, 1 output, 2 capt -/
def TIME_TIO_CFG (i : Nat) : Nat := 0x1801000 + i * 0x40
/-- TIME_TIO_START_SEC_LO_i (i < 8): seconds bits 31:0; [31:16] —, [15:0] bits 47:32 -/
def TIME_TIO_START_SEC_LO (i : Nat) : Nat := 0x1801004 + i * 0x40
/-- TIME_TIO_START_SEC_HI_i (i < 8): seconds bits 31:0; [31:16] —, [15:0] bits 47:32 -/
def TIME_TIO_START_SEC_HI (i : Nat) : Nat := 0x1801008 + i * 0x40
/-- TIME_TIO_START_NS_i (i < 8): [31:30] —; [29:0] ns -/
def TIME_TIO_START_NS (i : Nat) : Nat := 0x180100c + i * 0x40
/-- TIME_TIO_PERIOD_i (i < 8): ns (reset 1 s) -/
def TIME_TIO_PERIOD (i : Nat) : Nat := 0x1801010 + i * 0x40
/-- TIME_TIO_WIDTH_i (i < 8): ns (reset 1 µs) -/
def TIME_TIO_WIDTH (i : Nat) : Nat := 0x1801014 + i * 0x40
/-- TIME_TIO_ARM_i (i < 8): [31:2] —; [1] DISARM; [0] ARM -/
def TIME_TIO_ARM (i : Nat) : Nat := 0x1801018 + i * 0x40
/-- TIME_TIO_STAT_i (i < 8): [31:13] —; [12:8] captures queued RO; [7:3] —; [2] LATE W1C; [1] OVF W1C; [0] ARMED RO -/
def TIME_TIO_STAT (i : Nat) : Nat := 0x180101c + i * 0x40
/-- TIME_TIO_CAP_SEC_LO_i (i < 8): takes the oldest capture (R405); seconds bits 31:0 -/
def TIME_TIO_CAP_SEC_LO (i : Nat) : Nat := 0x1801020 + i * 0x40
/-- TIME_TIO_CAP_SEC_HI_i (i < 8): [31:16] —; [15:0] seconds bits 47:32 -/
def TIME_TIO_CAP_SEC_HI (i : Nat) : Nat := 0x1801024 + i * 0x40
/-- TIME_TIO_CAP_NS_i (i < 8): [31] V; [30] —; [29:0] ns -/
def TIME_TIO_CAP_NS (i : Nat) : Nat := 0x1801028 + i * 0x40
/-- TIME_ASYM_RX_p (i < 16): signed ps -/
def TIME_ASYM_RX (i : Nat) : Nat := 0x1810000 + i * 0x40
/-- TIME_ASYM_TX_p (i < 16): signed ps -/
def TIME_ASYM_TX (i : Nat) : Nat := 0x1810004 + i * 0x40
/-- TIME_PTP_CFG_p (i < 16): [31:4] —; [3] ONE_STEP; [2] UDP6; [1] UDP4; [0] L2 -/
def TIME_PTP_CFG (i : Nat) : Nat := 0x1810008 + i * 0x40
/-- TIME_TXTS_SEC_p (i < 16): seconds bits 31:0 -/
def TIME_TXTS_SEC (i : Nat) : Nat := 0x181000c + i * 0x40
/-- TIME_TXTS_NS_p (i < 16): [31:30] —; [29:0] ns -/
def TIME_TXTS_NS (i : Nat) : Nat := 0x1810010 + i * 0x40
/-- TIME_TXTS_ID_p (i < 16): [31] OVW RC; [30:20] —; [19:16] messageType RO; [15:0] sequenceId RO -/
def TIME_TXTS_ID (i : Nat) : Nat := 0x1810014 + i * 0x40
/-- TT_GSTAT: [31:1] —; [0] CFG_ERR W1C -/
def TT_GSTAT : Nat := 0x1900000
/-- TT_CTL_p (i < 16): [31:2] —; [1] GUARD; [0] EN -/
def TT_CTL (i : Nat) : Nat := 0x1910000 + i * 0x40
/-- TT_STAT_p (i < 16): [31] PENDING; [30] OPER; [29:26] —; [25:16] current entry; [15:8] —; [7:0] gates in effect -/
def TT_STAT (i : Nat) : Nat := 0x1910004 + i * 0x40
/-- TT_SHRINK_MAX_p (i < 16): [31:7] —; [6:0] %, 0 to 50; other values are ignored and set CFG_ERR -/
def TT_SHRINK_MAX (i : Nat) : Nat := 0x1910008 + i * 0x40
/-- TT_MIN_OPEN_p (i < 16): ns -/
def TT_MIN_OPEN (i : Nat) : Nat := 0x191000c + i * 0x40
/-- TT_LAG_p (i < 16): λ in ns -/
def TT_LAG (i : Nat) : Nat := 0x1910010 + i * 0x40
/-- TT_LAG_MAX_p (i < 16): largest λ, ns -/
def TT_LAG_MAX (i : Nat) : Nat := 0x1910014 + i * 0x40
/-- TT_OVERRUN_p (i < 16): frames that overran (R401) -/
def TT_OVERRUN (i : Nat) : Nat := 0x1910018 + i * 0x40
/-- TT_TOO_BIG_p (i < 16): R400 -/
def TT_TOO_BIG (i : Nat) : Nat := 0x191001c + i * 0x40

/-! Registers of "The fabric" (R435). -/
/-- FAB_GSTAT: [31:3] —; [2] CUT W1C; [1] HEAL W1C; [0] CFG_ERR W1C -/
def FAB_GSTAT : Nat := 0x1a00000
/-- FAB_CFG: [31] EN; [30] AUTO_B; [29:24] DSCP; [23:16] Q; [15:8] B; [7:0] — (R421) -/
def FAB_CFG : Nat := 0x1a00004
/-- FAB_ADDR: [31] VALID; [30:20] —; [19:0] address -/
def FAB_ADDR : Nat := 0x1a00008
/-- FAB_STATE: [31:8] —; [7] ROOT; [6] QLEAD; [5] GATE; [4] COORD; [3] —; [2:0] STATE (R419) -/
def FAB_STATE : Nat := 0x1a0000c
/-- FAB_EPOCH_LO: EPOCH bits 31:0 -/
def FAB_EPOCH_LO : Nat := 0x1a00010
/-- FAB_EPOCH_HI: EPOCH bits 63:32 -/
def FAB_EPOCH_HI : Nat := 0x1a00014
/-- FAB_MEMBERS: [31:17] —; [16:0] agreed members -/
def FAB_MEMBERS : Nat := 0x1a00018
/-- FAB_REACH: [31:17] —; [16:0] agreed members the side reaches -/
def FAB_REACH : Nat := 0x1a0001c
/-- FAB_UDP_PORT: [31:16] —; [15:0] port (47,360) -/
def FAB_UDP_PORT : Nat := 0x1a00020
/-- FAB_TIEBREAK: [31:8] —; [7:0] Quarter -/
def FAB_TIEBREAK : Nat := 0x1a00024
/-- FAB_HOP_NS: [31:17] —; [16:0] h in ns, 100 to 100,000 -/
def FAB_HOP_NS : Nat := 0x1a00028
/-- FAB_MAX_LIFETIME: [31:14] —; [13:0] µs, 10 to 10,000 -/
def FAB_MAX_LIFETIME : Nat := 0x1a0002c
/-- FAB_HB_US: [31:14] —; [13:0] µs, 100 to 10,000 -/
def FAB_HB_US : Nat := 0x1a00030
/-- FAB_BEACON_MS: [31:8] —; [7:0] ms, 5 to 255 -/
def FAB_BEACON_MS : Nat := 0x1a00034
/-- FAB_ADDR_HOLD: [31:16] —; [15:0] hours, 0 to 65,535 -/
def FAB_ADDR_HOLD : Nat := 0x1a00038
/-- FAB_EVT_CFG: [31:4] —; [3:0] PF for events -/
def FAB_EVT_CFG : Nat := 0x1a0003c
/-- FAB_PREFIX_LO: prefix bits 31:0 -/
def FAB_PREFIX_LO : Nat := 0x1a00040
/-- FAB_PREFIX_HI: prefix bits 63:32 -/
def FAB_PREFIX_HI : Nat := 0x1a00044
/-- FAB_RT_BASE_LO: route table address bits 31:0 -/
def FAB_RT_BASE_LO : Nat := 0x1a00048
/-- FAB_RT_BASE_HI: [31:8] —; [7:0] address bits 39:32 -/
def FAB_RT_BASE_HI : Nat := 0x1a0004c
/-- FAB_MSG_RX: fabric messages accepted (R415) -/
def FAB_MSG_RX : Nat := 0x1a00060
/-- FAB_MSG_BAD: R417 -/
def FAB_MSG_BAD : Nat := 0x1a00064
/-- FAB_STALE_DROP: R418 -/
def FAB_STALE_DROP : Nat := 0x1a00068
/-- FAB_NO_ROUTE: R424 -/
def FAB_NO_ROUTE : Nat := 0x1a0006c
/-- FAB_CUT_CNT: cuts seen (R429) -/
def FAB_CUT_CNT : Nat := 0x1a00070
/-- FAB_OP_REFUSED: R431 -/
def FAB_OP_REFUSED : Nat := 0x1a00074
/-- FAB_ELECT_CNT: coordinator elections (R412) -/
def FAB_ELECT_CNT : Nat := 0x1a00078
/-- FAB_NBR_UP_i (i < 2): bit j: neighbour slot 32i + j is up -/
def FAB_NBR_UP (i : Nat) : Nat := 0x1a00080 + i * 0x4

/-! Registers of "Twins" (R457). -/
/-- TWIN_GSTAT: [31:5] —; [4] PEER_LOST W1C; [3] EXER_FAIL W1C; [2] DIVERGED W1C; [1] TAKEOVER W1C; [0] CFG_ERR W1C -/
def TWIN_GSTAT : Nat := 0x1a01000
/-- TWIN_STATE: below -/
def TWIN_STATE : Nat := 0x1a01004
/-- TWIN_PEER: [31] V; [30:20] —; [19:0] peer address -/
def TWIN_PEER : Nat := 0x1a01008
/-- TWIN_HOLDOFF: [31:16] —; [15:0] s, 1 to 3,600 -/
def TWIN_HOLDOFF : Nat := 0x1a0100c
/-- TWIN_EXERCISE: [31:16] —; [15:0] minutes, 60 to 10,080 -/
def TWIN_EXERCISE : Nat := 0x1a01010
/-- TWIN_SWAP_CFG: [31] EN; [30:16] —; [15:0] DAYS, 1 to 365 -/
def TWIN_SWAP_CFG : Nat := 0x1a01014
/-- TWIN_EVT_CFG: [31:4] —; [3:0] PF for events -/
def TWIN_EVT_CFG : Nat := 0x1a01018
/-- TWIN_LEASE_LEFT: [31:10] —; [9:0] µs of lease remaining, 0 to 800 -/
def TWIN_LEASE_LEFT : Nat := 0x1a0101c
/-- TWIN_LAST_TAKEOVER: [31:12] —; [11:0] µs from the last DIGEST received to ACTIVE -/
def TWIN_LAST_TAKEOVER : Nat := 0x1a01020
/-- TWIN_EXER_LAST: [31:8] —; [7:0] 0 none, 1 pass, 2 mismatch, 3 ended -/
def TWIN_EXER_LAST : Nat := 0x1a01024
/-- TWIN_DIG_MISMATCH: R444 -/
def TWIN_DIG_MISMATCH : Nat := 0x1a01040
/-- TWIN_DIG_MISSED: R444 -/
def TWIN_DIG_MISSED : Nat := 0x1a01044
/-- TWIN_NO_RTAG: R441 -/
def TWIN_NO_RTAG : Nat := 0x1a01048
/-- TWIN_NO_ROLE: R438, R441 -/
def TWIN_NO_ROLE : Nat := 0x1a0104c
/-- TWIN_DUP_DROP: R442 -/
def TWIN_DUP_DROP : Nat := 0x1a01050
/-- TWIN_ELIM_MISMATCH: R442 -/
def TWIN_ELIM_MISMATCH : Nat := 0x1a01054
/-- TWIN_HOLD_DROP: R446 -/
def TWIN_HOLD_DROP : Nat := 0x1a01058
/-- TWIN_TAKEOVER_CNT: R449 -/
def TWIN_TAKEOVER_CNT : Nat := 0x1a0105c
/-- TWIN_LEASE_STOP: R448 -/
def TWIN_LEASE_STOP : Nat := 0x1a01060
/-- TWIN_EXER_CNT: exercises run (R453) -/
def TWIN_EXER_CNT : Nat := 0x1a01064
/-- TWIN_CAPTURE_SHORT: R453 -/
def TWIN_CAPTURE_SHORT : Nat := 0x1a01068

/-! Registers of "Wickets" (R486). -/
/-- ID_DEVICE: [31:16] 0x3216; [15:8] —; [7:0] REV -/
def ID_DEVICE : Nat := 0x0
/-- ID_LOT_LO: [31:30] —; characters 0–4, character i in [6i + 5:6i] -/
def ID_LOT_LO : Nat := 0x4
/-- ID_LOT_HI: [31:24] ID_DIE_Y; [23:16] ID_DIE_X; [15:8] ID_WAFER; [7:6] —; [5:0] character 5 -/
def ID_LOT_HI : Nat := 0x8
/-- ID_BIN: [31:11] —; [10:9] DBG_STATE; [8] TOLL_DISABLED; [7:0] bin -/
def ID_BIN : Nat := 0xc
/-- ID_UID_i (i < 4): ID_UID bits 32i + 31 to 32i -/
def ID_UID (i : Nat) : Nat := 0x10 + i * 0x4
/-- ID_SVN: [31:7] —; [6:0] fused SVN -/
def ID_SVN : Nat := 0x20
/-- WKT_GSTAT: [31:2] —; [1] DENY W1C; [0] CFG_ERR W1C -/
def WKT_GSTAT : Nat := 0x1c00000
/-- WKT_LOCK: [31:1] —; [0] LOCK (R462) -/
def WKT_LOCK : Nat := 0x1c00004
/-- WKT_DENY_CNT: R463 -/
def WKT_DENY_CNT : Nat := 0x1c00008
/-- WKT_DENY_LOG: [31:17] —; [16] DIR (1 write); [15:8] identity; [7:0] Wicket -/
def WKT_DENY_LOG : Nat := 0x1c0000c
/-- WKT_COLLIDE_CNT: R464 -/
def WKT_COLLIDE_CNT : Nat := 0x1c00010
/-- WKT_BIND_w (i < 256): [31] V; [30:28] —; [27:16] ARG; [15:8] RECEIVER; [7:0] SENDER -/
def WKT_BIND (i : Nat) : Nat := 0x1c00100 + i * 0x4
/-- WKT_BUF_w_i (i < 256, j < 16): send buffer word i; sender only -/
def WKT_BUF (i : Nat) (j : Nat) : Nat := 0x1c10000 + i * 0x100 + j * 0x4
/-- WKT_POST_w (i < 256): [31:1] —; [0] 1 posts (R464) -/
def WKT_POST (i : Nat) : Nat := 0x1c10040 + i * 0x100
/-- WKT_SSTAT_w (i < 256): [31] FULL; [30] COLLIDE; [29:16] —; [15:0] SEQ of the last post -/
def WKT_SSTAT (i : Nat) : Nat := 0x1c10044 + i * 0x100
/-- WKT_ACK_w (i < 256): [31:16] SEQ taken; [15:0] return code -/
def WKT_ACK (i : Nat) : Nat := 0x1c10048 + i * 0x100
/-- WKT_STAT_w (i < 256): [31] FULL; [30] COLLIDE; [29:16] —; [15:0] SEQ; receiver only (R465) -/
def WKT_STAT (i : Nat) : Nat := 0x1c1004c + i * 0x100
/-- WKT_TAKE_w (i < 256): [31:16] —; [15:0] return code -/
def WKT_TAKE (i : Nat) : Nat := 0x1c10050 + i * 0x100
/-- WKT_SLOT_w_i (i < 256, j < 16): snapshot word i -/
def WKT_SLOT (i : Nat) (j : Nat) : Nat := 0x1c10080 + i * 0x100 + j * 0x4
/-- MGT_GSTAT: [31:3] —; [2] THERM_WARN W1C; [1] FW_STAGED W1C; [0] CFG_ERR W1C -/
def MGT_GSTAT : Nat := 0x1e00000
/-- MGT_BOOT_STAT: [31:16] —; [15:13] FAILED_KIND; [12:4] —; [3] MIXED; [2] DEBUG_OPEN; [1] BANK (0 A, 1 B); [0] OK -/
def MGT_BOOT_STAT : Nat := 0x1e00004
/-- MGT_FW_VER: management firmware version -/
def MGT_FW_VER : Nat := 0x1e00008
/-- MGT_CTL_VER: control firmware version -/
def MGT_CTL_VER : Nat := 0x1e0000c
/-- MGT_EVT_CFG: [31:4] —; [3:0] PF for events -/
def MGT_EVT_CFG : Nat := 0x1e00010
/-- MGT_EID: [31:24] —; [23:16] PCIe VDM; [15:8] I3C; [7:0] SMBus endpoint ID -/
def MGT_EID : Nat := 0x1e00014
/-- MGT_TEMP_i (i < 12): [31:16] —; [15:0] signed, 0.125 °C -/
def MGT_TEMP (i : Nat) : Nat := 0x1e00100 + i * 0x4
/-- MGT_POWER_r (i < 12): mW; sensors 21 to 32 in order -/
def MGT_POWER (i : Nat) : Nat := 0x1e00140 + i * 0x4
/-- MGT_TEMP_WARN: [31:16] —; [15:0] 0.125 °C (95 °C) -/
def MGT_TEMP_WARN : Nat := 0x1e00180
/-- MGT_TEMP_CRIT: [31:16] —; [15:0] 0.125 °C (100 °C) -/
def MGT_TEMP_CRIT : Nat := 0x1e00184
/-- MGT_TEMP_MAX: highest temperature since the last read -/
def MGT_TEMP_MAX : Nat := 0x1e00188

/-! Registers of "The Tollhouse" (R504). -/
/-- TOLL_STAT: below -/
def TOLL_STAT : Nat := 0x2000000
/-- TOLL_METRE_LO: metre time bits 31:0, ms -/
def TOLL_METRE_LO : Nat := 0x2000004
/-- TOLL_METRE_HI: metre time bits 63:32 -/
def TOLL_METRE_HI : Nat := 0x2000008
/-- TOLL_RDG_SEQ: bits 31:0 of the latest reading's SEQ -/
def TOLL_RDG_SEQ : Nat := 0x200000c
/-- TOLL_JSEQ: bits 31:0 of the next journal SEQ -/
def TOLL_JSEQ : Nat := 0x2000010
/-- TOLL_FW: [31:16] —; [15:0] FW_VERSION -/
def TOLL_FW : Nat := 0x2000014
/-- TOLL_FW_CRC: FW_CRC -/
def TOLL_FW_CRC : Nat := 0x2000018
/-- TOLL_PARAM: [31:16] CHECKPOINT_S; [15:0] PERIOD_MIN -/
def TOLL_PARAM : Nat := 0x200001c
/-- TOLL_LOT_LO: as ID_LOT_LO (R486) -/
def TOLL_LOT_LO : Nat := 0x2000020
/-- TOLL_LOT_HI: as ID_LOT_HI -/
def TOLL_LOT_HI : Nat := 0x2000024
/-- TOLL_UID_i (i < 4): ID_UID bits 32i + 31 to 32i -/
def TOLL_UID (i : Nat) : Nat := 0x2000030 + i * 0x4
/-- TOLL_SEAL_LABEL_i (i < 4): SEAL_LABEL bytes 4i to 4i + 3 -/
def TOLL_SEAL_LABEL (i : Nat) : Nat := 0x2000040 + i * 0x4
/-- TOLL_TAMPER_CNT: TAMPER entries since sealing -/
def TOLL_TAMPER_CNT : Nat := 0x2000050
/-- TOLL_POWER_CNT: starts since sealing -/
def TOLL_POWER_CNT : Nat := 0x2000054
/-- TOLL_JLOST: journal entries not written (R498) -/
def TOLL_JLOST : Nat := 0x2000058

/-! Registers of "Start-up" (R525). -/
/-- PWR_GSTAT: [31:5] —; [4] AVS_ERR W1C; [3] CLK_LOST W1C; [2] CAPPED W1C: a cap of R520 lowered a CCLK; [1] SEQ_ERR W1C; [0 -/
def PWR_GSTAT : Nat := 0x1e01000
/-- PWR_STAT: [31:16] —; [15:8] WAKE_SRC of the last exit (R517); [7:3] —; [2:0] STATE (R513) -/
def PWR_STAT : Nat := 0x1e01004
/-- PWR_CFG: [31:28] —; [27:16] DIM_MHZ RW, 800 to 2,000 in steps of 100; [15:3] —; [2] AVS_EN RO; [1] QUIET_EN RW; [0] DIM -/
def PWR_CFG : Nat := 0x1e01008
/-- PWR_DIM_CFG: [31:16] DIM_DWELL ms, 1 to 65,535; [15] —; [14:8] DIM_HIGH %; [7] —; [6:0] DIM_LOW %, 1 to 99 -/
def PWR_DIM_CFG : Nat := 0x1e0100c
/-- PWR_QUIET_DWELL: [31:16] —; [15:0] ms, 1 to 65,535 -/
def PWR_QUIET_DWELL : Nat := 0x1e01010
/-- PWR_CAP: [31:9] —; [8:0] W, 0 or 100 to 300 -/
def PWR_CAP : Nat := 0x1e01014
/-- PWR_CCLK_CAP: [31:12] —; [11:0] MHz -/
def PWR_CCLK_CAP : Nat := 0x1e01018
/-- PWR_VCORE: [31:10] —; [9:0] VDD_CORE target, mV -/
def PWR_VCORE : Nat := 0x1e0101c
/-- PWR_WAKE: [31:1] —; [0] 1 wakes (R514, R517) -/
def PWR_WAKE : Nat := 0x1e01020
/-- PWR_QUIET_CNT: exits from Quiet -/
def PWR_QUIET_CNT : Nat := 0x1e01024
/-- PWR_QUIET_MS: ms spent in Quiet -/
def PWR_QUIET_MS : Nat := 0x1e01028

/-! Registers of "Setup registers" (R565). -/
/-- GLB_PRIV_PF: [31:16] —; [15:0] bit n: PF n privileged (R549) -/
def GLB_PRIV_PF : Nat := 0x1300
/-- GLB_PRIV_LOCK: [31:1] —; [0] LOCK -/
def GLB_PRIV_LOCK : Nat := 0x1304
/-- GLB_PRIV_STAT: [31:2] —; [1] DENY W1C: the log holds an access, and clearing it re-arms the log; [0] CFG_ERR W1C -/
def GLB_PRIV_STAT : Nat := 0x1308
/-- GLB_PRIV_DENY_CNT: accesses refused (R552) -/
def GLB_PRIV_DENY_CNT : Nat := 0x130c
/-- GLB_PRIV_DENY_LOG: [31:27] —; [26] DIR (1 write); [25:0] offset -/
def GLB_PRIV_DENY_LOG : Nat := 0x1310
/-- GLB_PRIV_DENY_FN: [31:4] —; [3:0] PF -/
def GLB_PRIV_DENY_FN : Nat := 0x1314
/-- GLB_ADM_JSEQ: bits 31:0 of the next admin journal SEQ -/
def GLB_ADM_JSEQ : Nat := 0x1318
/-- GLB_TBL_JSEQ: bits 31:0 of the next table-update journal SEQ -/
def GLB_TBL_JSEQ : Nat := 0x131c

end Sys2Proof.Reg
end

