-- ==== Sys2Proof/Machine/RegTable.lean ====
section
/-! DEFINITION. The register table: for every BAR0 register its offset, its one or two index strides, its
access code (R7), its reset value, and which of its bits a write stores (rw), a written 1 clears (w1c) and
a read clears (rc). Transcribed from the register tables of spec/ (R6 to R8); bits shown there as reserved
are in no mask, so they read 0 and ignore writes (R8). -/

namespace Sys2Proof.Machine

/-- R7: the access codes. perField: the fields of the register have codes of their own. -/
inductive Acc where
  | ro | rw | rwl | wo | w1c | w1s | rc | rs | perField
  deriving DecidableEq, Repr

/-- One row of the register table. -/
structure RegRow where
  base : Nat
  stride1 : Nat
  count1 : Nat
  stride2 : Nat
  count2 : Nat
  acc : Acc
  reset : Word
  rw : Word
  w1c : Word
  rc : Word
  deriving DecidableEq, Repr

/-- The row holds the register at this offset. -/
def RegRow.holds (r : RegRow) (off : Nat) : Bool :=
  decide (r.base ≤ off) &&
    (let x := off - r.base
     decide (x / r.stride1 < r.count1) && decide (x % r.stride1 / r.stride2 < r.count2) &&
       decide (x % r.stride1 % r.stride2 = 0))

/-- Registers, part 1. -/
def regTable1 : List RegRow := [
  ⟨0x1000, 0x80000000, 1, 0x80000000, 1, .perField, 0x0#32, 0x0#32, 0x3e#32, 0x0#32⟩,  -- GLB_STAT
  ⟨0x1004, 0x80000000, 1, 0x80000000, 1, .rc, 0x0#32, 0x0#32, 0x0#32, 0xffffffff#32⟩,  -- GLB_HBM_FW_CNT
  ⟨0x1008, 0x80000000, 1, 0x80000000, 1, .ro, 0x0#32, 0x0#32, 0x0#32, 0x0#32⟩,  -- GLB_HBM_FW_ADDR_LO
  ⟨0x100c, 0x80000000, 1, 0x80000000, 1, .ro, 0x0#32, 0x0#32, 0x0#32, 0x0#32⟩,  -- GLB_HBM_FW_ADDR_HI
  ⟨0x1010, 0x80000000, 1, 0x80000000, 1, .ro, 0x0#32, 0x0#32, 0x0#32, 0x0#32⟩,  -- GLB_HBM_FW_SRC
  ⟨0x1014, 0x80000000, 1, 0x80000000, 1, .rc, 0x0#32, 0x0#32, 0x0#32, 0xffffffff#32⟩,  -- GLB_ECC_CE_CNT
  ⟨0x1018, 0x80000000, 1, 0x80000000, 1, .rc, 0x0#32, 0x0#32, 0x0#32, 0xffffffff#32⟩,  -- GLB_ECC_UE_CNT
  ⟨0x101c, 0x80000000, 1, 0x80000000, 1, .rc, 0x0#32, 0x0#32, 0x0#32, 0xffffffff#32⟩,  -- GLB_EXC_DROP_CNT
  ⟨0x1020, 0x80000000, 1, 0x80000000, 1, .ro, 0x2c000#32, 0x0#32, 0x0#32, 0x0#32⟩,  -- GLB_SQ_FREE
  ⟨0x1024, 0x80000000, 1, 0x80000000, 1, .wo, 0x0#32, 0x0#32, 0x0#32, 0x0#32⟩,  -- GLB_SQ_APPLY
  ⟨0x1028, 0x80000000, 1, 0x80000000, 1, .rw, 0x0#32, 0x3#32, 0x0#32, 0x0#32⟩,  -- GLB_EXC_CFG
  ⟨0x1100, 0x4, 16, 0x4, 1, .rw, 0x2000#32, 0x7ffff#32, 0x0#32, 0x0#32⟩,  -- GLB_SQ_MIN_n
  ⟨0x1140, 0x4, 2, 0x4, 1, .rw, 0x4000#32, 0x7ffff#32, 0x0#32, 0x0#32⟩,  -- GLB_SQ_MIN_n
  ⟨0x1148, 0x4, 1, 0x4, 1, .rw, 0x8000#32, 0x7ffff#32, 0x0#32, 0x0#32⟩,  -- GLB_SQ_MIN_n
  ⟨0x114c, 0x4, 1, 0x4, 1, .rw, 0x4000#32, 0x7ffff#32, 0x0#32, 0x0#32⟩,  -- GLB_SQ_MIN_n
  ⟨0x1180, 0x4, 20, 0x4, 1, .rw, 0x60000#32, 0x7ffff#32, 0x0#32, 0x0#32⟩,  -- GLB_SQ_MAX_n
  ⟨0x1200, 0x4, 20, 0x4, 1, .ro, 0x0#32, 0x0#32, 0x0#32, 0x0#32⟩,  -- GLB_SQ_USED_n
  ⟨0x100000, 0x10000, 2, 0x10000, 1, .ro, 0x3216b000#32, 0x0#32, 0x0#32, 0x0#32⟩,  -- HIF_LIVE
  ⟨0x100004, 0x10000, 2, 0x10000, 1, .ro, 0x0#32, 0x0#32, 0x0#32, 0x0#32⟩,  -- HIF_PORT_STAT
  ⟨0x100008, 0x10000, 2, 0x10000, 1, .rw, 0x1#32, 0x1#32, 0x0#32, 0x0#32⟩,  -- HIF_PORT_CTL
  ⟨0x10000c, 0x10000, 2, 0x10000, 1, .perField, 0x0#32, 0x0#32, 0xf#32, 0x0#32⟩,  -- HIF_STAT
  ⟨0x100010, 0x10000, 2, 0x10000, 1, .rw, 0x2000#32, 0x3fff#32, 0x0#32, 0x0#32⟩,  -- HIF_TAG_LIMIT
  ⟨0x100014, 0x10000, 2, 0x10000, 1, .ro, 0x0#32, 0x0#32, 0x0#32, 0x0#32⟩,  -- HIF_TAGS_USED
  ⟨0x100018, 0x10000, 2, 0x10000, 1, .rc, 0x0#32, 0x0#32, 0x0#32, 0xffffffff#32⟩,  -- HIF_CPL_TO_CNT
  ⟨0x10001c, 0x10000, 2, 0x10000, 1, .rc, 0x0#32, 0x0#32, 0x0#32, 0xffffffff#32⟩,  -- HIF_LATE_CPL
  ⟨0x100020, 0x10000, 2, 0x10000, 1, .rw, 0x2710#32, 0x3ffffff#32, 0x0#32, 0x0#32⟩,  -- HIF_LTR_ACTIVE
  ⟨0x100024, 0x10000, 2, 0x10000, 1, .rw, 0x2dc6c0#32, 0x3ffffff#32, 0x0#32, 0x0#32⟩,  -- HIF_LTR_IDLE
  ⟨0x100028, 0x10000, 2, 0x10000, 1, .ro, 0x0#32, 0x0#32, 0x0#32, 0x0#32⟩,  -- HIF_LTR_LAST
  ⟨0x10002c, 0x10000, 2, 0x10000, 1, .rw, 0x3e8#32, 0xffff#32, 0x0#32, 0x0#32⟩,  -- HIF_PRI_TIMEOUT
  ⟨0x100030, 0x10000, 2, 0x10000, 1, .rc, 0x0#32, 0x0#32, 0x0#32, 0xffffffff#32⟩,  -- HIF_BAR0_ERR_CNT
  ⟨0x100034, 0x10000, 2, 0x10000, 1, .ro, 0x0#32, 0x0#32, 0x0#32, 0x0#32⟩,  -- HIF_BAR0_ERR_LOG
  ⟨0x100038, 0x10000, 2, 0x10000, 1, .ro, 0x0#32, 0x0#32, 0x0#32, 0x0#32⟩,  -- HIF_BAR0_ERR_FN
  ⟨0x10003c, 0x10000, 2, 0x10000, 1, .rc, 0x0#32, 0x0#32, 0x0#32, 0xffffffff#32⟩,  -- HIF_D3_DROP
  ⟨0x100040, 0x10000, 2, 0x10000, 1, .rc, 0x0#32, 0x0#32, 0x0#32, 0xffffffff#32⟩,  -- HIF_DB_STRAY
  ⟨0x100100, 0x10000, 2, 0x10000, 1, .wo, 0x0#32, 0x0#32, 0x0#32, 0x0#32⟩,  -- HIF_WIN_COMMIT
  ⟨0x100104, 0x10000, 2, 0x10000, 1, .perField, 0x1#32, 0x0#32, 0x6#32, 0x0#32⟩,  -- HIF_WIN_STAT
  ⟨0x100108, 0x10000, 2, 0x10000, 1, .rc, 0x0#32, 0x0#32, 0x0#32, 0xffffffff#32⟩,  -- HIF_WIN_MISS_WR
  ⟨0x10010c, 0x10000, 2, 0x10000, 1, .rc, 0x0#32, 0x0#32, 0x0#32, 0xffffffff#32⟩,  -- HIF_WIN_MISS_RD
  ⟨0x100110, 0x10000, 2, 0x10000, 1, .ro, 0x0#32, 0x0#32, 0x0#32, 0x0#32⟩,  -- HIF_WIN_MISS_LOG_LO
  ⟨0x100114, 0x10000, 2, 0x10000, 1, .ro, 0x0#32, 0x0#32, 0x0#32, 0x0#32⟩,  -- HIF_WIN_MISS_LOG_HI
  ⟨0x101000, 0x10000, 2, 0x20, 64, .rw, 0x0#32, 0xfffff000#32, 0x0#32, 0x0#32⟩,  -- HIF_WIN_w_BASE_LO
  ⟨0x101004, 0x10000, 2, 0x20, 64, .rw, 0x0#32, 0xf#32, 0x0#32, 0x0#32⟩,  -- HIF_WIN_w_BASE_HI
  ⟨0x101008, 0x10000, 2, 0x20, 64, .rw, 0xc#32, 0x3f#32, 0x0#32, 0x0#32⟩,  -- HIF_WIN_w_SIZE
  ⟨0x10100c, 0x10000, 2, 0x20, 64, .rw, 0x0#32, 0xfffff000#32, 0x0#32, 0x0#32⟩,  -- HIF_WIN_w_TGT_LO
  ⟨0x101010, 0x10000, 2, 0x20, 64, .rw, 0x0#32, 0xff#32, 0x0#32, 0x0#32⟩,  -- HIF_WIN_w_TGT_HI
  ⟨0x101014, 0x10000, 2, 0x20, 64, .rw, 0x0#32, 0xf#32, 0x0#32, 0x0#32⟩,  -- HIF_WIN_w_CTL
  ⟨0x101018, 0x10000, 2, 0x20, 64, .rw, 0x0#32, 0xffffffff#32, 0x0#32, 0x0#32⟩,  -- HIF_WIN_w_RID
  ⟨0x120000, 0x4, 16, 0x4, 1, .rw, 0x40#32, 0x87ff#32, 0x0#32, 0x0#32⟩,  -- HIF_FN_CFG_n
  ⟨0x120040, 0x80000000, 1, 0x80000000, 1, .perField, 0x0#32, 0x0#32, 0x1#32, 0x0#32⟩,  -- HIF_GSTAT
  ⟨0x200000, 0x80000000, 1, 0x80000000, 1, .perField, 0x0#32, 0x0#32, 0x1#32, 0x0#32⟩,  -- TEN_GSTAT
  ⟨0x200004, 0x80000000, 1, 0x80000000, 1, .ro, 0x0#32, 0x0#32, 0x0#32, 0x0#32⟩,  -- TEN_COUNT
  ⟨0x200008, 0x80000000, 1, 0x80000000, 1, .ro, 0x0#32, 0x0#32, 0x0#32, 0x0#32⟩,  -- TEN_FLOOR_SUM_0
  ⟨0x20000c, 0x80000000, 1, 0x80000000, 1, .ro, 0x0#32, 0x0#32, 0x0#32, 0x0#32⟩,  -- TEN_FLOOR_SUM_1
  ⟨0x210000, 0x40, 4096, 0x40, 1, .ro, 0x0#32, 0x0#32, 0x0#32, 0x0#32⟩,  -- TEN_STATE_t
  ⟨0x210004, 0x40, 4096, 0x40, 1, .ro, 0x0#32, 0x0#32, 0x0#32, 0x0#32⟩,  -- TEN_BIND_t
  ⟨0x210008, 0x40, 4096, 0x40, 1, .ro, 0x0#32, 0x0#32, 0x0#32, 0x0#32⟩,  -- TEN_PASID_t
  ⟨0x21000c, 0x40, 4096, 0x40, 1, .ro, 0x0#32, 0x0#32, 0x0#32, 0x0#32⟩,  -- TEN_GEN_t
  ⟨0x210010, 0x40, 4096, 0x40, 1, .ro, 0x0#32, 0x0#32, 0x0#32, 0x0#32⟩,  -- TEN_SHARE_t
  ⟨0x210014, 0x40, 4096, 0x40, 1, .ro, 0x0#32, 0x0#32, 0x0#32, 0x0#32⟩,  -- TEN_RATE_t
  ⟨0x210018, 0x40, 4096, 0x40, 1, .rw, 0x100#32, 0x3fff#32, 0x0#32, 0x0#32⟩,  -- TEN_READ_LIMIT_t
  ⟨0x21001c, 0x40, 4096, 0x40, 1, .rc, 0x0#32, 0x0#32, 0x0#32, 0xffffffff#32⟩,  -- TEN_RX_SHUT_t
  ⟨0x210020, 0x40, 4096, 0x40, 1, .rc, 0x0#32, 0x0#32, 0x0#32, 0xffffffff#32⟩,  -- TEN_DISCARD_t
  ⟨0x210024, 0x40, 4096, 0x40, 1, .ro, 0x0#32, 0x0#32, 0x0#32, 0x0#32⟩,  -- TEN_LOG_EPOCH_t
  ⟨0x400000, 0x4000000, 16, 0x4000000, 1, .perField, 0x0#32, 0x0#32, 0x1#32, 0x0#32⟩,  -- RING_GSTAT
  ⟨0x400004, 0x4000000, 16, 0x4000000, 1, .rw, 0x3e8#32, 0xffff#32, 0x0#32, 0x0#32⟩,  -- RING_CQ_STALL_TIME
  ⟨0x400008, 0x4000000, 16, 0x4000000, 1, .rc, 0x0#32, 0x0#32, 0x0#32, 0xffffffff#32⟩,  -- RING_DB_BAD
  ⟨0x40000c, 0x4000000, 16, 0x4000000, 1, .rc, 0x0#32, 0x0#32, 0x0#32, 0xffffffff#32⟩,  -- RING_STALL_CNT
  ⟨0x400010, 0x4000000, 16, 0x4000000, 1, .rc, 0x0#32, 0x0#32, 0x0#32, 0xffffffff#32⟩,  -- RING_EVT_LOST
  ⟨0x400100, 0x4000000, 16, 0x4000000, 1, .rw, 0x0#32, 0xfffff000#32, 0x0#32, 0x0#32⟩,  -- RING_ADM_SQ_LO
  ⟨0x400104, 0x4000000, 16, 0x4000000, 1, .rw, 0x0#32, 0xffffffff#32, 0x0#32, 0x0#32⟩,  -- RING_ADM_SQ_HI
  ⟨0x400108, 0x4000000, 16, 0x4000000, 1, .rw, 0x0#32, 0xfffff000#32, 0x0#32, 0x0#32⟩,  -- RING_ADM_CQ_LO
  ⟨0x40010c, 0x4000000, 16, 0x4000000, 1, .rw, 0x0#32, 0xffffffff#32, 0x0#32, 0x0#32⟩,  -- RING_ADM_CQ_HI
  ⟨0x400110, 0x4000000, 16, 0x4000000, 1, .rw, 0x606#32, 0x83ff1f1f#32, 0x0#32, 0x0#32⟩,  -- RING_ADM_CFG
  ⟨0x400114, 0x4000000, 16, 0x4000000, 1, .wo, 0x0#32, 0x0#32, 0x0#32, 0x0#32⟩,  -- RING_ADM_DB
  ⟨0x400118, 0x4000000, 16, 0x4000000, 1, .wo, 0x0#32, 0x0#32, 0x0#32, 0x0#32⟩,  -- RING_ADM_CQ_DB
  ⟨0x40011c, 0x4000000, 16, 0x4000000, 1, .ro, 0x0#32, 0x0#32, 0x0#32, 0x0#32⟩,  -- RING_ADM_STAT
  ⟨0x480000, 0x8, 65536, 0x8, 1, .ro, 0x0#32, 0x0#32, 0x0#32, 0x0#32⟩,  -- RING_CQ_STAT_c
  ⟨0x480004, 0x8, 65536, 0x8, 1, .ro, 0x0#32, 0x0#32, 0x0#32, 0x0#32⟩,  -- RING_CQ_INFO_c
  ⟨0x500000, 0x10, 65536, 0x10, 1, .ro, 0x0#32, 0x0#32, 0x0#32, 0x0#32⟩,  -- RING_SQ_STAT_q
  ⟨0x500004, 0x10, 65536, 0x10, 1, .ro, 0x0#32, 0x0#32, 0x0#32, 0x0#32⟩  -- RING_STARTED_q
  ]

/-- Registers, part 2. -/
def regTable2 : List RegRow := [
  ⟨0x500008, 0x10, 65536, 0x10, 1, .ro, 0x0#32, 0x0#32, 0x0#32, 0x0#32⟩,  -- RING_PROG_q
  ⟨0x50000c, 0x10, 65536, 0x10, 1, .rc, 0x0#32, 0x0#32, 0x0#32, 0xffffffff#32⟩,  -- RING_SQ_DROP_q
  ⟨0x600000, 0x80000000, 1, 0x80000000, 1, .perField, 0x0#32, 0x0#32, 0x1#32, 0x0#32⟩,  -- DMA_GSTAT
  ⟨0x600004, 0x80000000, 1, 0x80000000, 1, .rw, 0x64#32, 0xffff#32, 0x0#32, 0x0#32⟩,  -- DMA_HALT_TIME
  ⟨0x600008, 0x80000000, 1, 0x80000000, 1, .rw, 0x20#32, 0x1ff#32, 0x0#32, 0x0#32⟩,  -- DMA_CHAN_PER_TEN
  ⟨0x60000c, 0x80000000, 1, 0x80000000, 1, .ro, 0x0#32, 0x0#32, 0x0#32, 0x0#32⟩,  -- DMA_BUSY
  ⟨0x600010, 0x80000000, 1, 0x80000000, 1, .rc, 0x0#32, 0x0#32, 0x0#32, 0xffffffff#32⟩,  -- DMA_HALT_CNT
  ⟨0x600014, 0x80000000, 1, 0x80000000, 1, .rc, 0x0#32, 0x0#32, 0x0#32, 0xffffffff#32⟩,  -- DMA_HALT_TO_CNT
  ⟨0x600020, 0x4, 8, 0x4, 1, .ro, 0x0#32, 0x0#32, 0x0#32, 0x0#32⟩,  -- DMA_HALTED_i
  ⟨0x610000, 0x40, 256, 0x40, 1, .ro, 0x0#32, 0x0#32, 0x0#32, 0x0#32⟩,  -- DMA_CH_STAT_n
  ⟨0x610004, 0x40, 256, 0x40, 1, .ro, 0x0#32, 0x0#32, 0x0#32, 0x0#32⟩,  -- DMA_CH_JOB_n
  ⟨0x610008, 0x40, 256, 0x40, 1, .ro, 0x0#32, 0x0#32, 0x0#32, 0x0#32⟩,  -- DMA_CH_TEN_n
  ⟨0x61000c, 0x40, 256, 0x40, 1, .ro, 0x0#32, 0x0#32, 0x0#32, 0x0#32⟩,  -- DMA_CH_DONE_n
  ⟨0x610010, 0x40, 256, 0x40, 1, .ro, 0x0#32, 0x0#32, 0x0#32, 0x0#32⟩,  -- DMA_FAIL_ADDR_LO_n
  ⟨0x610014, 0x40, 256, 0x40, 1, .ro, 0x0#32, 0x0#32, 0x0#32, 0x0#32⟩,  -- DMA_FAIL_ADDR_HI_n
  ⟨0x610018, 0x40, 256, 0x40, 1, .ro, 0x0#32, 0x0#32, 0x0#32, 0x0#32⟩,  -- DMA_FAIL_DIR_n
  ⟨0x61001c, 0x40, 256, 0x40, 1, .ro, 0x0#32, 0x0#32, 0x0#32, 0x0#32⟩,  -- DMA_FAIL_DESC_LO_n
  ⟨0x610020, 0x40, 256, 0x40, 1, .ro, 0x0#32, 0x0#32, 0x0#32, 0x0#32⟩,  -- DMA_FAIL_DESC_HI_n
  ⟨0x610024, 0x40, 256, 0x40, 1, .ro, 0x0#32, 0x0#32, 0x0#32, 0x0#32⟩,  -- DMA_FAIL_OFF_n
  ⟨0x800000, 0x80000000, 1, 0x80000000, 1, .perField, 0x0#32, 0x0#32, 0x1#32, 0x0#32⟩,  -- PORT_GSTAT
  ⟨0x800004, 0x80000000, 1, 0x80000000, 1, .wo, 0x0#32, 0x0#32, 0x0#32, 0x0#32⟩,  -- PORT_APPLY
  ⟨0x800010, 0x4, 2, 0x4, 1, .rw, 0x1#32, 0xffffffff#32, 0x0#32, 0x0#32⟩,  -- PORT_GRP_MODE_g
  ⟨0x800020, 0x4, 2, 0x4, 1, .rw, 0x0#32, 0xffff#32, 0x0#32, 0x0#32⟩,  -- PORT_LANE_POL_g
  ⟨0x810000, 0x1000, 16, 0x1000, 1, .rw, 0x84#32, 0xfff7#32, 0x0#32, 0x0#32⟩,  -- PORT_CFG_p
  ⟨0x810004, 0x1000, 16, 0x1000, 1, .ro, 0x0#32, 0x0#32, 0x0#32, 0x0#32⟩,  -- PORT_STAT_p
  ⟨0x810008, 0x1000, 16, 0x1000, 1, .rw, 0x5ee#32, 0x3fff#32, 0x0#32, 0x0#32⟩,  -- PORT_MTU_p
  ⟨0x81000c, 0x1000, 16, 0x1000, 1, .rw, 0x644619#32, 0xffff7f7f#32, 0x0#32, 0x0#32⟩,  -- PORT_DIM_CFG_p
  ⟨0x810010, 0x1000, 16, 0x1000, 1, .rw, 0x0#32, 0x7ffff#32, 0x0#32, 0x0#32⟩,  -- PORT_PFC_XOFF_p
  ⟨0x810014, 0x1000, 16, 0x1000, 1, .rw, 0x0#32, 0x7ffff#32, 0x0#32, 0x0#32⟩,  -- PORT_PFC_XON_p
  ⟨0x810018, 0x1000, 16, 0x1000, 1, .w1c, 0x0#32, 0x0#32, 0xffffffff#32, 0x0#32⟩,  -- PORT_WAKE_STAT_p
  ⟨0x810020, 0x1000, 16, 0x1000, 1, .rs, 0x0#32, 0x0#32, 0x0#32, 0x0#32⟩,  -- PORT_CNT_SNAP_p
  ⟨0x810024, 0x1000, 16, 0x1000, 1, .wo, 0x0#32, 0x0#32, 0x0#32, 0x0#32⟩,  -- PORT_CNT_REL_p
  ⟨0x810028, 0x1000, 16, 0x1000, 1, .rw, 0x0#32, 0xffffffff#32, 0x0#32, 0x0#32⟩,  -- PORT_ADDR_LO_p
  ⟨0x81002c, 0x1000, 16, 0x1000, 1, .rw, 0x0#32, 0xffff#32, 0x0#32, 0x0#32⟩,  -- PORT_ADDR_HI_p
  ⟨0x810100, 0x1000, 16, 0x20, 32, .rw, 0x0#32, 0xffffffff#32, 0x0#32, 0x0#32⟩,  -- PORT_WAKE_MASK_0_p_i
  ⟨0x810104, 0x1000, 16, 0x20, 32, .rw, 0x0#32, 0xffffffff#32, 0x0#32, 0x0#32⟩,  -- PORT_WAKE_MASK_1_p_i
  ⟨0x810108, 0x1000, 16, 0x20, 32, .rw, 0x0#32, 0xffffffff#32, 0x0#32, 0x0#32⟩,  -- PORT_WAKE_MASK_2_p_i
  ⟨0x81010c, 0x1000, 16, 0x20, 32, .rw, 0x0#32, 0xffffffff#32, 0x0#32, 0x0#32⟩,  -- PORT_WAKE_MASK_3_p_i
  ⟨0x810110, 0x1000, 16, 0x20, 32, .rw, 0x0#32, 0xffffffff#32, 0x0#32, 0x0#32⟩,  -- PORT_WAKE_CRC_p_i
  ⟨0x810114, 0x1000, 16, 0x20, 32, .rw, 0x0#32, 0x8000000f#32, 0x0#32, 0x0#32⟩,  -- PORT_WAKE_CTL_p_i
  ⟨0x810800, 0x1000, 16, 0x4, 192, .ro, 0x0#32, 0x0#32, 0x0#32, 0x0#32⟩,  -- PORT_CNT_BANK_p_i
  ⟨0x980000, 0x80000000, 1, 0x80000000, 1, .rw, 0x1#32, 0x3#32, 0x0#32, 0x0#32⟩,  -- SVB_CFG
  ⟨0x980004, 0x80000000, 1, 0x80000000, 1, .rw, 0x2010ff#32, 0xffffffff#32, 0x0#32, 0x0#32⟩,  -- SVB_PLCA
  ⟨0x980008, 0x80000000, 1, 0x80000000, 1, .rw, 0x80#32, 0xff#32, 0x0#32, 0x0#32⟩,  -- SVB_PLCA_BURST
  ⟨0x98000c, 0x80000000, 1, 0x80000000, 1, .ro, 0x0#32, 0x0#32, 0x0#32, 0x0#32⟩,  -- SVB_STAT
  ⟨0x980010, 0x80000000, 1, 0x80000000, 1, .perField, 0x0#32, 0x0#32, 0x1#32, 0x0#32⟩,  -- SVB_GSTAT
  ⟨0x980020, 0x80000000, 1, 0x80000000, 1, .rc, 0x0#32, 0x0#32, 0x0#32, 0xffffffff#32⟩,  -- SVB_RX_OK
  ⟨0x980024, 0x80000000, 1, 0x80000000, 1, .rc, 0x0#32, 0x0#32, 0x0#32, 0xffffffff#32⟩,  -- SVB_TX_OK
  ⟨0x980028, 0x80000000, 1, 0x80000000, 1, .rc, 0x0#32, 0x0#32, 0x0#32, 0xffffffff#32⟩,  -- SVB_FCS_ERR
  ⟨0x98002c, 0x80000000, 1, 0x80000000, 1, .rc, 0x0#32, 0x0#32, 0x0#32, 0xffffffff#32⟩,  -- SVB_COLL
  ⟨0x980030, 0x80000000, 1, 0x80000000, 1, .rc, 0x0#32, 0x0#32, 0x0#32, 0xffffffff#32⟩,  -- SVB_PLCA_FALLBACK
  ⟨0x980034, 0x80000000, 1, 0x80000000, 1, .rc, 0x0#32, 0x0#32, 0x0#32, 0xffffffff#32⟩,  -- SVB_TX_DROP
  ⟨0x980040, 0x80000000, 1, 0x80000000, 1, .rw, 0x0#32, 0xc3ffffff#32, 0x0#32, 0x0#32⟩,  -- SVB_MDIO_CMD
  ⟨0xa00000, 0x80000000, 1, 0x80000000, 1, .perField, 0x0#32, 0x0#32, 0x3#32, 0x0#32⟩,  -- CLS_GSTAT
  ⟨0xa00004, 0x80000000, 1, 0x80000000, 1, .ro, 0x0#32, 0x0#32, 0x0#32, 0x0#32⟩,  -- CLS_IMAGE_STAT
  ⟨0xa00008, 0x80000000, 1, 0x80000000, 1, .rw, 0x0#32, 0x8000ffff#32, 0x0#32, 0x0#32⟩,  -- CLS_EXC_RING
  ⟨0xa0000c, 0x80000000, 1, 0x80000000, 1, .rc, 0x0#32, 0x0#32, 0x0#32, 0xffffffff#32⟩,  -- CLS_SLOW_DROP
  ⟨0xa00010, 0x80000000, 1, 0x80000000, 1, .rc, 0x0#32, 0x0#32, 0x0#32, 0xffffffff#32⟩,  -- CLS_RULE_DROP
  ⟨0xa00014, 0x80000000, 1, 0x80000000, 1, .rc, 0x0#32, 0x0#32, 0x0#32, 0xffffffff#32⟩,  -- CLS_NO_RING
  ⟨0xa00018, 0x80000000, 1, 0x80000000, 1, .rc, 0x0#32, 0x0#32, 0x0#32, 0xffffffff#32⟩,  -- CLS_TCAM_PERR_CNT
  ⟨0xa0001c, 0x80000000, 1, 0x80000000, 1, .ro, 0x0#32, 0x0#32, 0x0#32, 0x0#32⟩,  -- CLS_TCAM_PERR_IDX
  ⟨0xa00020, 0x80000000, 1, 0x80000000, 1, .rc, 0x0#32, 0x0#32, 0x0#32, 0xffffffff#32⟩,  -- CLS_UPD_BAD
  ⟨0xa00024, 0x80000000, 1, 0x80000000, 1, .rc, 0x0#32, 0x0#32, 0x0#32, 0xffffffff#32⟩,  -- CLS_UPD_CASFAIL
  ⟨0xa00104, 0x4, 7, 0x4, 1, .rw, 0x0#32, 0x7ffff#32, 0x0#32, 0x0#32⟩,  -- CLS_SLOW_r
  ⟨0xa01000, 0x4, 64, 0x4, 1, .rw, 0x0#32, 0x833f0000#32, 0x0#32, 0x0#32⟩,  -- TCAM_CHAIN_b
  ⟨0xa01100, 0x80000000, 1, 0x80000000, 1, .wo, 0x0#32, 0x0#32, 0x0#32, 0x0#32⟩,  -- TCAM_APPLY
  ⟨0xa01104, 0x80000000, 1, 0x80000000, 1, .ro, 0x0#32, 0x0#32, 0x0#32, 0x0#32⟩,  -- TCAM_USED
  ⟨0xa02000, 0x40, 64, 0x40, 1, .rs, 0x0#32, 0x0#32, 0x0#32, 0x0#32⟩,  -- CLS_RSET_SNAP_s
  ⟨0xa02004, 0x40, 64, 0x40, 1, .wo, 0x0#32, 0x0#32, 0x0#32, 0x0#32⟩,  -- CLS_RSET_REL_s
  ⟨0xa02010, 0x40, 64, 0x4, 8, .ro, 0x0#32, 0x0#32, 0x0#32, 0x0#32⟩,  -- CLS_RSET_BANK_s_i
  ⟨0xa03000, 0x40, 1, 0x40, 1, .rw, 0x3c#32, 0xe00001ff#32, 0x0#32, 0x0#32⟩,  -- CLS_HPROF_CFG_h
  ⟨0xa03040, 0x40, 7, 0x40, 1, .rw, 0x0#32, 0xe00001ff#32, 0x0#32, 0x0#32⟩,  -- CLS_HPROF_CFG_h
  ⟨0xa03004, 0x40, 8, 0x4, 13, .rw, 0x0#32, 0xffffffff#32, 0x0#32, 0x0#32⟩,  -- CLS_HPROF_KEY_h_i
  ⟨0xa03200, 0x80000000, 1, 0x80000000, 1, .wo, 0x0#32, 0x0#32, 0x0#32, 0x0#32⟩,  -- CLS_HPROF_APPLY
  ⟨0xc00000, 0x80000000, 1, 0x80000000, 1, .perField, 0x0#32, 0x0#32, 0x39#32, 0x0#32⟩,  -- FWD_GSTAT
  ⟨0xc00004, 0x80000000, 1, 0x80000000, 1, .rw, 0x3e8#32, 0xffff#32, 0x0#32, 0x0#32⟩,  -- FWD_AGE_TICK
  ⟨0xc00008, 0x80000000, 1, 0x80000000, 1, .ro, 0x0#32, 0x0#32, 0x0#32, 0x0#32⟩,  -- FWD_TICK_NOW
  ⟨0xc0000c, 0x80000000, 1, 0x80000000, 1, .rw, 0x0#32, 0x10f#32, 0x0#32, 0x0#32⟩,  -- FWD_EVT_CFG
  ⟨0xc00020, 0x80000000, 1, 0x80000000, 1, .rc, 0x0#32, 0x0#32, 0x0#32, 0xffffffff#32⟩,  -- FWD_NO_TEN
  ⟨0xc00024, 0x80000000, 1, 0x80000000, 1, .rc, 0x0#32, 0x0#32, 0x0#32, 0xffffffff#32⟩  -- FWD_ACT_DENY
  ]

/-- Registers, part 3. -/
def regTable3 : List RegRow := [
  ⟨0xc00028, 0x80000000, 1, 0x80000000, 1, .rc, 0x0#32, 0x0#32, 0x0#32, 0xffffffff#32⟩,  -- FWD_ACT_DROP
  ⟨0xc0002c, 0x80000000, 1, 0x80000000, 1, .rc, 0x0#32, 0x0#32, 0x0#32, 0xffffffff#32⟩,  -- FWD_NO_FATE
  ⟨0xc00030, 0x80000000, 1, 0x80000000, 1, .rc, 0x0#32, 0x0#32, 0x0#32, 0xffffffff#32⟩,  -- FWD_ACT_LONG
  ⟨0xc00034, 0x80000000, 1, 0x80000000, 1, .rc, 0x0#32, 0x0#32, 0x0#32, 0xffffffff#32⟩,  -- FWD_TTL_DROP
  ⟨0xc00038, 0x80000000, 1, 0x80000000, 1, .rc, 0x0#32, 0x0#32, 0x0#32, 0xffffffff#32⟩,  -- FWD_LEARN_DROP
  ⟨0xc0003c, 0x80000000, 1, 0x80000000, 1, .rc, 0x0#32, 0x0#32, 0x0#32, 0xffffffff#32⟩,  -- FWD_LEARN_LIMIT
  ⟨0xc00040, 0x80000000, 1, 0x80000000, 1, .rc, 0x0#32, 0x0#32, 0x0#32, 0xffffffff#32⟩,  -- FWD_STATIC_MOVE
  ⟨0xc00044, 0x80000000, 1, 0x80000000, 1, .rc, 0x0#32, 0x0#32, 0x0#32, 0xffffffff#32⟩,  -- FWD_MOVES
  ⟨0xc00048, 0x80000000, 1, 0x80000000, 1, .rc, 0x0#32, 0x0#32, 0x0#32, 0xffffffff#32⟩,  -- FWD_CT_INVALID
  ⟨0xc0004c, 0x80000000, 1, 0x80000000, 1, .rc, 0x0#32, 0x0#32, 0x0#32, 0xffffffff#32⟩,  -- FWD_NAT_EXHAUST
  ⟨0xc00050, 0x80000000, 1, 0x80000000, 1, .rc, 0x0#32, 0x0#32, 0x0#32, 0xffffffff#32⟩,  -- FWD_NAT_PROTO
  ⟨0xc00054, 0x80000000, 1, 0x80000000, 1, .rc, 0x0#32, 0x0#32, 0x0#32, 0xffffffff#32⟩,  -- FWD_DECAP_BAD
  ⟨0xc00058, 0x80000000, 1, 0x80000000, 1, .rc, 0x0#32, 0x0#32, 0x0#32, 0xffffffff#32⟩,  -- FWD_ENC_MTU_DROP
  ⟨0xc00100, 0x20, 3, 0x20, 1, .rw, 0x8000003c#32, 0x80003fff#32, 0x0#32, 0x0#32⟩,  -- FWD_AGE_CFG_k
  ⟨0xc00104, 0x80000000, 1, 0x80000000, 1, .rw, 0x708012c#32, 0x7fff7fff#32, 0x0#32, 0x0#32⟩,  -- FWD_AGE_LIM01_k
  ⟨0xc00124, 0x80000000, 1, 0x80000000, 1, .rw, 0x12c012c#32, 0x7fff7fff#32, 0x0#32, 0x0#32⟩,  -- FWD_AGE_LIM01_k
  ⟨0xc00144, 0x80000000, 1, 0x80000000, 1, .rw, 0x1c20001e#32, 0x7fff7fff#32, 0x0#32, 0x0#32⟩,  -- FWD_AGE_LIM01_k
  ⟨0xc00108, 0x80000000, 1, 0x80000000, 1, .rw, 0x1e003c#32, 0x7fff7fff#32, 0x0#32, 0x0#32⟩,  -- FWD_AGE_LIM23_k
  ⟨0xc00128, 0x80000000, 1, 0x80000000, 1, .rw, 0x12c012c#32, 0x7fff7fff#32, 0x0#32, 0x0#32⟩,  -- FWD_AGE_LIM23_k
  ⟨0xc00148, 0x80000000, 1, 0x80000000, 1, .rw, 0xb4003c#32, 0x7fff7fff#32, 0x0#32, 0x0#32⟩,  -- FWD_AGE_LIM23_k
  ⟨0xc0010c, 0x20, 3, 0x20, 1, .ro, 0x0#32, 0x0#32, 0x0#32, 0x0#32⟩,  -- FWD_ENTRIES_k
  ⟨0xc00110, 0x20, 3, 0x20, 1, .rc, 0x0#32, 0x0#32, 0x0#32, 0xffffffff#32⟩,  -- FWD_AGED_k
  ⟨0xc00114, 0x20, 3, 0x20, 1, .rc, 0x0#32, 0x0#32, 0x0#32, 0xffffffff#32⟩,  -- FWD_INS_FAIL_k
  ⟨0xe00000, 0x80000000, 1, 0x80000000, 1, .perField, 0x0#32, 0x0#32, 0x3#32, 0x0#32⟩,  -- CRY_GSTAT
  ⟨0xe00004, 0x80000000, 1, 0x80000000, 1, .ro, 0x0#32, 0x0#32, 0x0#32, 0x0#32⟩,  -- CRY_RNG_STAT
  ⟨0xe00008, 0x80000000, 1, 0x80000000, 1, .wo, 0x0#32, 0x0#32, 0x0#32, 0x0#32⟩,  -- CRY_RNG_RESTART
  ⟨0xe0000c, 0x80000000, 1, 0x80000000, 1, .rc, 0x0#32, 0x0#32, 0x0#32, 0xffffffff#32⟩,  -- CRY_RNG_FAIL_CNT
  ⟨0xe00010, 0x80000000, 1, 0x80000000, 1, .rw, 0x64#32, 0xffff#32, 0x0#32, 0x0#32⟩,  -- CRY_RESEED_MS
  ⟨0xe00014, 0x80000000, 1, 0x80000000, 1, .rw, 0x0#32, 0xf#32, 0x0#32, 0x0#32⟩,  -- CRY_EVT_CFG
  ⟨0xe00018, 0x80000000, 1, 0x80000000, 1, .ro, 0x0#32, 0x0#32, 0x0#32, 0x0#32⟩,  -- CRY_SLOTS_USED
  ⟨0xe0001c, 0x80000000, 1, 0x80000000, 1, .rc, 0x0#32, 0x0#32, 0x0#32, 0xffffffff#32⟩,  -- CRY_CACHE_MISS
  ⟨0xe00020, 0x80000000, 1, 0x80000000, 1, .rc, 0x0#32, 0x0#32, 0x0#32, 0xffffffff#32⟩,  -- CRY_UNWRAP_FAIL
  ⟨0xe00024, 0x80000000, 1, 0x80000000, 1, .rc, 0x0#32, 0x0#32, 0x0#32, 0xffffffff#32⟩,  -- CRY_AUTH_FAIL
  ⟨0xe00028, 0x80000000, 1, 0x80000000, 1, .rc, 0x0#32, 0x0#32, 0x0#32, 0xffffffff#32⟩,  -- CRY_REPLAY
  ⟨0xe0002c, 0x80000000, 1, 0x80000000, 1, .rc, 0x0#32, 0x0#32, 0x0#32, 0xffffffff#32⟩,  -- CRY_NOKEY
  ⟨0xe00030, 0x80000000, 1, 0x80000000, 1, .rc, 0x0#32, 0x0#32, 0x0#32, 0xffffffff#32⟩,  -- CRY_HS_DONE
  ⟨0xe00034, 0x80000000, 1, 0x80000000, 1, .ro, 0x0#32, 0x0#32, 0x0#32, 0x0#32⟩,  -- CRY_HS_QUEUED
  ⟨0xe10000, 0x40, 16, 0x40, 1, .rc, 0x0#32, 0x0#32, 0x0#32, 0xffffffff#32⟩,  -- CRY_MS_RX_OK_p
  ⟨0xe10004, 0x40, 16, 0x40, 1, .rc, 0x0#32, 0x0#32, 0x0#32, 0xffffffff#32⟩,  -- CRY_MS_RX_NOT_VALID_p
  ⟨0xe10008, 0x40, 16, 0x40, 1, .rc, 0x0#32, 0x0#32, 0x0#32, 0xffffffff#32⟩,  -- CRY_MS_RX_LATE_p
  ⟨0xe1000c, 0x40, 16, 0x40, 1, .rc, 0x0#32, 0x0#32, 0x0#32, 0xffffffff#32⟩,  -- CRY_MS_RX_NO_SA_p
  ⟨0xe10010, 0x40, 16, 0x40, 1, .rc, 0x0#32, 0x0#32, 0x0#32, 0xffffffff#32⟩,  -- CRY_MS_RX_UNTAGGED_p
  ⟨0xe10014, 0x40, 16, 0x40, 1, .rc, 0x0#32, 0x0#32, 0x0#32, 0xffffffff#32⟩,  -- CRY_MS_TX_PROT_p
  ⟨0xe10018, 0x40, 16, 0x40, 1, .rc, 0x0#32, 0x0#32, 0x0#32, 0xffffffff#32⟩,  -- CRY_MS_TX_DROP_p
  ⟨0x1000000, 0x80000000, 1, 0x80000000, 1, .perField, 0x0#32, 0x0#32, 0x1#32, 0x0#32⟩,  -- STO_GSTAT
  ⟨0x1000004, 0x80000000, 1, 0x80000000, 1, .rw, 0x373220#32, 0xffffff#32, 0x0#32, 0x0#32⟩,  -- STO_RC_TIME
  ⟨0x1000008, 0x80000000, 1, 0x80000000, 1, .rw, 0x1f40032#32, 0xffffffff#32, 0x0#32, 0x0#32⟩,  -- STO_RC_STEP
  ⟨0x100000c, 0x80000000, 1, 0x80000000, 1, .rw, 0x1#32, 0xffff#32, 0x0#32, 0x0#32⟩,  -- STO_RC_MIN
  ⟨0x1000010, 0x80000000, 1, 0x80000000, 1, .rw, 0x8030#32, 0xff3f#32, 0x0#32, 0x0#32⟩,  -- STO_CNP_CFG
  ⟨0x1000014, 0x80000000, 1, 0x80000000, 1, .rw, 0x64#32, 0xffff#32, 0x0#32, 0x0#32⟩,  -- STO_WB_AGE
  ⟨0x1000018, 0x80000000, 1, 0x80000000, 1, .rw, 0x1388#32, 0xffff#32, 0x0#32, 0x0#32⟩,  -- STO_SSD_TIMEOUT
  ⟨0x1000020, 0x80000000, 1, 0x80000000, 1, .rc, 0x0#32, 0x0#32, 0x0#32, 0xffffffff#32⟩,  -- STO_CNP_TX
  ⟨0x1000024, 0x80000000, 1, 0x80000000, 1, .rc, 0x0#32, 0x0#32, 0x0#32, 0xffffffff#32⟩,  -- STO_CNP_RX
  ⟨0x1000028, 0x80000000, 1, 0x80000000, 1, .rc, 0x0#32, 0x0#32, 0x0#32, 0xffffffff#32⟩,  -- STO_RETX_PKTS
  ⟨0x100002c, 0x80000000, 1, 0x80000000, 1, .rc, 0x0#32, 0x0#32, 0x0#32, 0xffffffff#32⟩,  -- STO_NAK_TX
  ⟨0x1000030, 0x80000000, 1, 0x80000000, 1, .rc, 0x0#32, 0x0#32, 0x0#32, 0xffffffff#32⟩,  -- STO_NO_QP
  ⟨0x1000034, 0x80000000, 1, 0x80000000, 1, .rc, 0x0#32, 0x0#32, 0x0#32, 0xffffffff#32⟩,  -- STO_CTX_EXC
  ⟨0x1000038, 0x80000000, 1, 0x80000000, 1, .rc, 0x0#32, 0x0#32, 0x0#32, 0xffffffff#32⟩,  -- STO_SSD_TO_CNT
  ⟨0x100003c, 0x80000000, 1, 0x80000000, 1, .rc, 0x0#32, 0x0#32, 0x0#32, 0xffffffff#32⟩,  -- STO_WB_FAIL
  ⟨0x1200000, 0x80000000, 1, 0x80000000, 1, .perField, 0x0#32, 0x0#32, 0x1#32, 0x0#32⟩,  -- ARC_GSTAT
  ⟨0x1200004, 0x80000000, 1, 0x80000000, 1, .ro, 0x0#32, 0x0#32, 0x0#32, 0x0#32⟩,  -- ARC_STAGE_BASE_LO
  ⟨0x1200008, 0x80000000, 1, 0x80000000, 1, .ro, 0x0#32, 0x0#32, 0x0#32, 0x0#32⟩,  -- ARC_STAGE_BASE_HI
  ⟨0x120000c, 0x80000000, 1, 0x80000000, 1, .ro, 0x0#32, 0x0#32, 0x0#32, 0x0#32⟩,  -- ARC_STAGE_SIZE
  ⟨0x1200010, 0x80000000, 1, 0x80000000, 1, .ro, 0x0#32, 0x0#32, 0x0#32, 0x0#32⟩,  -- ARC_STAGE_FREE
  ⟨0x1200014, 0x80000000, 1, 0x80000000, 1, .ro, 0x0#32, 0x0#32, 0x0#32, 0x0#32⟩,  -- ARC_JOBS
  ⟨0x1200018, 0x80000000, 1, 0x80000000, 1, .ro, 0x0#32, 0x0#32, 0x0#32, 0x0#32⟩,  -- ARC_JOURNAL_SEQ
  ⟨0x1200020, 0x80000000, 1, 0x80000000, 1, .rc, 0x0#32, 0x0#32, 0x0#32, 0xffffffff#32⟩,  -- ARC_PUT_CNT
  ⟨0x1200024, 0x80000000, 1, 0x80000000, 1, .rc, 0x0#32, 0x0#32, 0x0#32, 0xffffffff#32⟩,  -- ARC_GET_CNT
  ⟨0x1200028, 0x80000000, 1, 0x80000000, 1, .rc, 0x0#32, 0x0#32, 0x0#32, 0xffffffff#32⟩,  -- ARC_VERIFY_CNT
  ⟨0x120002c, 0x80000000, 1, 0x80000000, 1, .rc, 0x0#32, 0x0#32, 0x0#32, 0xffffffff#32⟩,  -- ARC_MIG_CNT
  ⟨0x1200030, 0x80000000, 1, 0x80000000, 1, .rc, 0x0#32, 0x0#32, 0x0#32, 0xffffffff#32⟩,  -- ARC_DECODED
  ⟨0x1200034, 0x80000000, 1, 0x80000000, 1, .rc, 0x0#32, 0x0#32, 0x0#32, 0xffffffff#32⟩,  -- ARC_TAG_FAIL
  ⟨0x1200038, 0x80000000, 1, 0x80000000, 1, .rc, 0x0#32, 0x0#32, 0x0#32, 0xffffffff#32⟩,  -- ARC_HDR_FAIL
  ⟨0x120003c, 0x80000000, 1, 0x80000000, 1, .rc, 0x0#32, 0x0#32, 0x0#32, 0xffffffff#32⟩,  -- ARC_FIXITY_FAIL
  ⟨0x1200040, 0x80000000, 1, 0x80000000, 1, .rc, 0x0#32, 0x0#32, 0x0#32, 0xffffffff#32⟩,  -- ARC_TGT_FAIL
  ⟨0x1400000, 0x80000000, 1, 0x80000000, 1, .perField, 0x0#32, 0x0#32, 0x7#32, 0x0#32⟩,  -- CORE_GSTAT
  ⟨0x1400004, 0x80000000, 1, 0x80000000, 1, .rw, 0x100#32, 0x10f#32, 0x0#32, 0x0#32⟩,  -- CORE_EVT_CFG
  ⟨0x1400008, 0x80000000, 1, 0x80000000, 1, .rw, 0x1#32, 0x3#32, 0x0#32, 0x0#32⟩,  -- CORE_DBG_CTL
  ⟨0x140000c, 0x80000000, 1, 0x80000000, 1, .rc, 0x0#32, 0x0#32, 0x0#32, 0xffffffff#32⟩,  -- CORE_GRID_CNT
  ⟨0x1400010, 0x80000000, 1, 0x80000000, 1, .rc, 0x0#32, 0x0#32, 0x0#32, 0xffffffff#32⟩  -- CORE_FAULT_CNT
  ]

/-- Registers, part 4. -/
def regTable4 : List RegRow := [
  ⟨0x1400014, 0x80000000, 1, 0x80000000, 1, .rc, 0x0#32, 0x0#32, 0x0#32, 0xffffffff#32⟩,  -- CORE_NO_HND
  ⟨0x1400018, 0x80000000, 1, 0x80000000, 1, .rc, 0x0#32, 0x0#32, 0x0#32, 0xffffffff#32⟩,  -- CORE_HQ_DROP
  ⟨0x140001c, 0x80000000, 1, 0x80000000, 1, .rc, 0x0#32, 0x0#32, 0x0#32, 0xffffffff#32⟩,  -- CORE_FATE_DROP
  ⟨0x1400020, 0x80000000, 1, 0x80000000, 1, .rc, 0x0#32, 0x0#32, 0x0#32, 0xffffffff#32⟩,  -- CORE_CH_ABANDON
  ⟨0x1400024, 0x80000000, 1, 0x80000000, 1, .rc, 0x0#32, 0x0#32, 0x0#32, 0xffffffff#32⟩,  -- CORE_CH_DISCARD
  ⟨0x1400028, 0x80000000, 1, 0x80000000, 1, .rc, 0x0#32, 0x0#32, 0x0#32, 0xffffffff#32⟩,  -- CORE_CT_BAD
  ⟨0x140002c, 0x80000000, 1, 0x80000000, 1, .rc, 0x0#32, 0x0#32, 0x0#32, 0xffffffff#32⟩,  -- CORE_RESTART_CNT
  ⟨0x1400100, 0x4, 16, 0x4, 1, .ro, 0x7d0#32, 0x0#32, 0x0#32, 0x0#32⟩,  -- CORE_CL_FREQ_c
  ⟨0x1401000, 0x20, 256, 0x20, 1, .ro, 0x0#32, 0x0#32, 0x0#32, 0x0#32⟩,  -- CORE_STAT_n
  ⟨0x1401004, 0x20, 256, 0x20, 1, .ro, 0x0#32, 0x0#32, 0x0#32, 0x0#32⟩,  -- CORE_THR_STAT_n
  ⟨0x1401008, 0x20, 256, 0x20, 1, .ro, 0x0#32, 0x0#32, 0x0#32, 0x0#32⟩,  -- CORE_IMAGE_n
  ⟨0x140100c, 0x20, 256, 0x20, 1, .ro, 0x0#32, 0x0#32, 0x0#32, 0x0#32⟩,  -- CORE_HQ_n
  ⟨0x1500000, 0x80000000, 1, 0x80000000, 1, .rw, 0x0#32, 0xff07#32, 0x0#32, 0x0#32⟩,  -- CORE_DBG_SEL
  ⟨0x1500004, 0x80000000, 1, 0x80000000, 1, .wo, 0x0#32, 0x0#32, 0x0#32, 0x0#32⟩,  -- CORE_DBG_CMD
  ⟨0x1500008, 0x80000000, 1, 0x80000000, 1, .ro, 0x0#32, 0x0#32, 0x0#32, 0x0#32⟩,  -- CORE_DBG_STAT
  ⟨0x150000c, 0x80000000, 1, 0x80000000, 1, .rw, 0x0#32, 0xffffffff#32, 0x0#32, 0x0#32⟩,  -- CORE_DBG_ADDR_LO
  ⟨0x1500010, 0x80000000, 1, 0x80000000, 1, .rw, 0x0#32, 0xffffffff#32, 0x0#32, 0x0#32⟩,  -- CORE_DBG_ADDR_HI
  ⟨0x1500014, 0x80000000, 1, 0x80000000, 1, .rw, 0x0#32, 0xffffffff#32, 0x0#32, 0x0#32⟩,  -- CORE_DBG_DATA_LO
  ⟨0x1500018, 0x80000000, 1, 0x80000000, 1, .rw, 0x0#32, 0xffffffff#32, 0x0#32, 0x0#32⟩,  -- CORE_DBG_DATA_HI
  ⟨0x1800000, 0x80000000, 1, 0x80000000, 1, .perField, 0x0#32, 0x0#32, 0x3#32, 0x0#32⟩,  -- TIME_GSTAT
  ⟨0x1800004, 0x80000000, 1, 0x80000000, 1, .rw, 0x0#32, 0x1#32, 0x0#32, 0x0#32⟩,  -- TIME_CTL
  ⟨0x1800008, 0x80000000, 1, 0x80000000, 1, .rw, 0x0#32, 0x1#32, 0x0#32, 0x0#32⟩,  -- TIME_SEL
  ⟨0x180000c, 0x80000000, 1, 0x80000000, 1, .wo, 0x0#32, 0x0#32, 0x0#32, 0x0#32⟩,  -- TIME_LOCK
  ⟨0x1800010, 0x80000000, 1, 0x80000000, 1, .ro, 0x0#32, 0x0#32, 0x0#32, 0x0#32⟩,  -- TIME_STAT
  ⟨0x1800014, 0x80000000, 1, 0x80000000, 1, .rw, 0x32#32, 0x7ffff#32, 0x0#32, 0x0#32⟩,  -- TIME_SLEW
  ⟨0x1800018, 0x80000000, 1, 0x80000000, 1, .ro, 0x0#32, 0x0#32, 0x0#32, 0x0#32⟩,  -- TIME_CARRY_NS
  ⟨0x180001c, 0x80000000, 1, 0x80000000, 1, .ro, 0x0#32, 0x0#32, 0x0#32, 0x0#32⟩,  -- TIME_CARRY_FRAC
  ⟨0x1800020, 0x80000000, 1, 0x80000000, 1, .rw, 0x0#32, 0xf#32, 0x0#32, 0x0#32⟩,  -- TIME_EVT_CFG
  ⟨0x1800024, 0x80000000, 1, 0x80000000, 1, .rw, 0x5f5e100#32, 0xbfffffff#32, 0x0#32, 0x0#32⟩,  -- TIME_PPS_CFG
  ⟨0x1800028, 0x80000000, 1, 0x80000000, 1, .ro, 0x0#32, 0x0#32, 0x0#32, 0x0#32⟩,  -- TIME_PPSIN_SEC_LO
  ⟨0x180002c, 0x80000000, 1, 0x80000000, 1, .ro, 0x0#32, 0x0#32, 0x0#32, 0x0#32⟩,  -- TIME_PPSIN_SEC_HI
  ⟨0x1800030, 0x80000000, 1, 0x80000000, 1, .ro, 0x0#32, 0x0#32, 0x0#32, 0x0#32⟩,  -- TIME_PPSIN_NS
  ⟨0x1800034, 0x80000000, 1, 0x80000000, 1, .ro, 0x0#32, 0x0#32, 0x0#32, 0x0#32⟩,  -- TIME_PPSIN_CNT
  ⟨0x1800100, 0x40, 2, 0x40, 1, .rw, 0x0#32, 0xffffffff#32, 0x0#32, 0x0#32⟩,  -- TIME_INC_d_LO
  ⟨0x1800104, 0x40, 2, 0x40, 1, .rw, 0x1#32, 0xff#32, 0x0#32, 0x0#32⟩,  -- TIME_INC_d_HI
  ⟨0x1800108, 0x40, 2, 0x40, 1, .rw, 0x0#32, 0xffffffff#32, 0x0#32, 0x0#32⟩,  -- TIME_SET_d_SEC_LO
  ⟨0x180010c, 0x40, 2, 0x40, 1, .rw, 0x0#32, 0xffff#32, 0x0#32, 0x0#32⟩,  -- TIME_SET_d_SEC_HI
  ⟨0x1800110, 0x40, 2, 0x40, 1, .rw, 0x0#32, 0x3fffffff#32, 0x0#32, 0x0#32⟩,  -- TIME_SET_d_NS
  ⟨0x1800114, 0x40, 2, 0x40, 1, .rw, 0x0#32, 0xffffffff#32, 0x0#32, 0x0#32⟩,  -- TIME_ADJ_d
  ⟨0x1800118, 0x40, 2, 0x40, 1, .wo, 0x0#32, 0x0#32, 0x0#32, 0x0#32⟩,  -- TIME_GO_d
  ⟨0x1800200, 0x80000000, 1, 0x80000000, 1, .rs, 0x0#32, 0x0#32, 0x0#32, 0x0#32⟩,  -- TIME_SNAP
  ⟨0x1800210, 0x10, 3, 0x10, 1, .ro, 0x0#32, 0x0#32, 0x0#32, 0x0#32⟩,  -- TIME_SNAP_k_SEC_LO
  ⟨0x1800214, 0x10, 3, 0x10, 1, .ro, 0x0#32, 0x0#32, 0x0#32, 0x0#32⟩,  -- TIME_SNAP_k_SEC_HI
  ⟨0x1800218, 0x10, 3, 0x10, 1, .ro, 0x0#32, 0x0#32, 0x0#32, 0x0#32⟩,  -- TIME_SNAP_k_NS
  ⟨0x180021c, 0x10, 3, 0x10, 1, .ro, 0x0#32, 0x0#32, 0x0#32, 0x0#32⟩,  -- TIME_SNAP_k_FRAC
  ⟨0x1800300, 0x8, 16, 0x8, 1, .rw, 0x0#32, 0xfffffff9#32, 0x0#32, 0x0#32⟩,  -- TIME_PAGE_LO_n
  ⟨0x1800304, 0x8, 16, 0x8, 1, .rw, 0x0#32, 0xffffffff#32, 0x0#32, 0x0#32⟩,  -- TIME_PAGE_HI_n
  ⟨0x1801000, 0x40, 8, 0x40, 1, .rw, 0x0#32, 0x73#32, 0x0#32, 0x0#32⟩,  -- TIME_TIO_CFG_i
  ⟨0x1801004, 0x40, 8, 0x40, 1, .rw, 0x0#32, 0xffffffff#32, 0x0#32, 0x0#32⟩,  -- TIME_TIO_START_SEC_LO_i
  ⟨0x1801008, 0x40, 8, 0x40, 1, .rw, 0x0#32, 0xffff#32, 0x0#32, 0x0#32⟩,  -- TIME_TIO_START_SEC_HI_i
  ⟨0x180100c, 0x40, 8, 0x40, 1, .rw, 0x0#32, 0x3fffffff#32, 0x0#32, 0x0#32⟩,  -- TIME_TIO_START_NS_i
  ⟨0x1801010, 0x40, 8, 0x40, 1, .rw, 0x3b9aca00#32, 0xffffffff#32, 0x0#32, 0x0#32⟩,  -- TIME_TIO_PERIOD_i
  ⟨0x1801014, 0x40, 8, 0x40, 1, .rw, 0x3e8#32, 0xffffffff#32, 0x0#32, 0x0#32⟩,  -- TIME_TIO_WIDTH_i
  ⟨0x1801018, 0x40, 8, 0x40, 1, .wo, 0x0#32, 0x0#32, 0x0#32, 0x0#32⟩,  -- TIME_TIO_ARM_i
  ⟨0x180101c, 0x40, 8, 0x40, 1, .perField, 0x0#32, 0x0#32, 0x6#32, 0x0#32⟩,  -- TIME_TIO_STAT_i
  ⟨0x1801020, 0x40, 8, 0x40, 1, .rs, 0x0#32, 0x0#32, 0x0#32, 0x0#32⟩,  -- TIME_TIO_CAP_SEC_LO_i
  ⟨0x1801024, 0x40, 8, 0x40, 1, .ro, 0x0#32, 0x0#32, 0x0#32, 0x0#32⟩,  -- TIME_TIO_CAP_SEC_HI_i
  ⟨0x1801028, 0x40, 8, 0x40, 1, .ro, 0x0#32, 0x0#32, 0x0#32, 0x0#32⟩,  -- TIME_TIO_CAP_NS_i
  ⟨0x1810000, 0x40, 16, 0x40, 1, .rw, 0x0#32, 0xffffffff#32, 0x0#32, 0x0#32⟩,  -- TIME_ASYM_RX_p
  ⟨0x1810004, 0x40, 16, 0x40, 1, .rw, 0x0#32, 0xffffffff#32, 0x0#32, 0x0#32⟩,  -- TIME_ASYM_TX_p
  ⟨0x1810008, 0x40, 16, 0x40, 1, .rw, 0x7#32, 0xf#32, 0x0#32, 0x0#32⟩,  -- TIME_PTP_CFG_p
  ⟨0x181000c, 0x40, 16, 0x40, 1, .ro, 0x0#32, 0x0#32, 0x0#32, 0x0#32⟩,  -- TIME_TXTS_SEC_p
  ⟨0x1810010, 0x40, 16, 0x40, 1, .ro, 0x0#32, 0x0#32, 0x0#32, 0x0#32⟩,  -- TIME_TXTS_NS_p
  ⟨0x1810014, 0x40, 16, 0x40, 1, .perField, 0x0#32, 0x0#32, 0x0#32, 0x80000000#32⟩,  -- TIME_TXTS_ID_p
  ⟨0x1900000, 0x80000000, 1, 0x80000000, 1, .perField, 0x0#32, 0x0#32, 0x1#32, 0x0#32⟩,  -- TT_GSTAT
  ⟨0x1910000, 0x40, 16, 0x40, 1, .rw, 0x0#32, 0x3#32, 0x0#32, 0x0#32⟩,  -- TT_CTL_p
  ⟨0x1910004, 0x40, 16, 0x40, 1, .ro, 0x0#32, 0x0#32, 0x0#32, 0x0#32⟩,  -- TT_STAT_p
  ⟨0x1910008, 0x40, 16, 0x40, 1, .rw, 0x19#32, 0x7f#32, 0x0#32, 0x0#32⟩,  -- TT_SHRINK_MAX_p
  ⟨0x191000c, 0x40, 16, 0x40, 1, .rw, 0x3e8#32, 0xffffffff#32, 0x0#32, 0x0#32⟩,  -- TT_MIN_OPEN_p
  ⟨0x1910010, 0x40, 16, 0x40, 1, .ro, 0x0#32, 0x0#32, 0x0#32, 0x0#32⟩,  -- TT_LAG_p
  ⟨0x1910014, 0x40, 16, 0x40, 1, .rc, 0x0#32, 0x0#32, 0x0#32, 0xffffffff#32⟩,  -- TT_LAG_MAX_p
  ⟨0x1910018, 0x40, 16, 0x40, 1, .rc, 0x0#32, 0x0#32, 0x0#32, 0xffffffff#32⟩,  -- TT_OVERRUN_p
  ⟨0x191001c, 0x40, 16, 0x40, 1, .rc, 0x0#32, 0x0#32, 0x0#32, 0xffffffff#32⟩,  -- TT_TOO_BIG_p
  ⟨0x1a00000, 0x80000000, 1, 0x80000000, 1, .perField, 0x0#32, 0x0#32, 0x7#32, 0x0#32⟩,  -- FAB_GSTAT
  ⟨0x1a00004, 0x80000000, 1, 0x80000000, 1, .rw, 0x0#32, 0xffffff00#32, 0x0#32, 0x0#32⟩,  -- FAB_CFG
  ⟨0x1a00008, 0x80000000, 1, 0x80000000, 1, .ro, 0x0#32, 0x0#32, 0x0#32, 0x0#32⟩,  -- FAB_ADDR
  ⟨0x1a0000c, 0x80000000, 1, 0x80000000, 1, .ro, 0x0#32, 0x0#32, 0x0#32, 0x0#32⟩,  -- FAB_STATE
  ⟨0x1a00010, 0x80000000, 1, 0x80000000, 1, .ro, 0x0#32, 0x0#32, 0x0#32, 0x0#32⟩,  -- FAB_EPOCH_LO
  ⟨0x1a00014, 0x80000000, 1, 0x80000000, 1, .ro, 0x0#32, 0x0#32, 0x0#32, 0x0#32⟩,  -- FAB_EPOCH_HI
  ⟨0x1a00018, 0x80000000, 1, 0x80000000, 1, .ro, 0x0#32, 0x0#32, 0x0#32, 0x0#32⟩  -- FAB_MEMBERS
  ]

/-- Registers, part 5. -/
def regTable5 : List RegRow := [
  ⟨0x1a0001c, 0x80000000, 1, 0x80000000, 1, .ro, 0x0#32, 0x0#32, 0x0#32, 0x0#32⟩,  -- FAB_REACH
  ⟨0x1a00020, 0x80000000, 1, 0x80000000, 1, .rw, 0xb900#32, 0xffff#32, 0x0#32, 0x0#32⟩,  -- FAB_UDP_PORT
  ⟨0x1a00024, 0x80000000, 1, 0x80000000, 1, .rw, 0x0#32, 0xff#32, 0x0#32, 0x0#32⟩,  -- FAB_TIEBREAK
  ⟨0x1a00028, 0x80000000, 1, 0x80000000, 1, .rw, 0xbb8#32, 0x1ffff#32, 0x0#32, 0x0#32⟩,  -- FAB_HOP_NS
  ⟨0x1a0002c, 0x80000000, 1, 0x80000000, 1, .rw, 0x64#32, 0x3fff#32, 0x0#32, 0x0#32⟩,  -- FAB_MAX_LIFETIME
  ⟨0x1a00030, 0x80000000, 1, 0x80000000, 1, .rw, 0x1f4#32, 0x3fff#32, 0x0#32, 0x0#32⟩,  -- FAB_HB_US
  ⟨0x1a00034, 0x80000000, 1, 0x80000000, 1, .rw, 0xa#32, 0xff#32, 0x0#32, 0x0#32⟩,  -- FAB_BEACON_MS
  ⟨0x1a00038, 0x80000000, 1, 0x80000000, 1, .rw, 0x18#32, 0xffff#32, 0x0#32, 0x0#32⟩,  -- FAB_ADDR_HOLD
  ⟨0x1a0003c, 0x80000000, 1, 0x80000000, 1, .rw, 0x0#32, 0xf#32, 0x0#32, 0x0#32⟩,  -- FAB_EVT_CFG
  ⟨0x1a00040, 0x80000000, 1, 0x80000000, 1, .rw, 0x0#32, 0xffffffff#32, 0x0#32, 0x0#32⟩,  -- FAB_PREFIX_LO
  ⟨0x1a00044, 0x80000000, 1, 0x80000000, 1, .rw, 0x0#32, 0xffffffff#32, 0x0#32, 0x0#32⟩,  -- FAB_PREFIX_HI
  ⟨0x1a00048, 0x80000000, 1, 0x80000000, 1, .ro, 0x0#32, 0x0#32, 0x0#32, 0x0#32⟩,  -- FAB_RT_BASE_LO
  ⟨0x1a0004c, 0x80000000, 1, 0x80000000, 1, .ro, 0x2e#32, 0x0#32, 0x0#32, 0x0#32⟩,  -- FAB_RT_BASE_HI
  ⟨0x1a00060, 0x80000000, 1, 0x80000000, 1, .rc, 0x0#32, 0x0#32, 0x0#32, 0xffffffff#32⟩,  -- FAB_MSG_RX
  ⟨0x1a00064, 0x80000000, 1, 0x80000000, 1, .rc, 0x0#32, 0x0#32, 0x0#32, 0xffffffff#32⟩,  -- FAB_MSG_BAD
  ⟨0x1a00068, 0x80000000, 1, 0x80000000, 1, .rc, 0x0#32, 0x0#32, 0x0#32, 0xffffffff#32⟩,  -- FAB_STALE_DROP
  ⟨0x1a0006c, 0x80000000, 1, 0x80000000, 1, .rc, 0x0#32, 0x0#32, 0x0#32, 0xffffffff#32⟩,  -- FAB_NO_ROUTE
  ⟨0x1a00070, 0x80000000, 1, 0x80000000, 1, .rc, 0x0#32, 0x0#32, 0x0#32, 0xffffffff#32⟩,  -- FAB_CUT_CNT
  ⟨0x1a00074, 0x80000000, 1, 0x80000000, 1, .rc, 0x0#32, 0x0#32, 0x0#32, 0xffffffff#32⟩,  -- FAB_OP_REFUSED
  ⟨0x1a00078, 0x80000000, 1, 0x80000000, 1, .rc, 0x0#32, 0x0#32, 0x0#32, 0xffffffff#32⟩,  -- FAB_ELECT_CNT
  ⟨0x1a00080, 0x4, 2, 0x4, 1, .ro, 0x0#32, 0x0#32, 0x0#32, 0x0#32⟩,  -- FAB_NBR_UP_i
  ⟨0x1a01000, 0x80000000, 1, 0x80000000, 1, .perField, 0x0#32, 0x0#32, 0x1f#32, 0x0#32⟩,  -- TWIN_GSTAT
  ⟨0x1a01004, 0x80000000, 1, 0x80000000, 1, .ro, 0x0#32, 0x0#32, 0x0#32, 0x0#32⟩,  -- TWIN_STATE
  ⟨0x1a01008, 0x80000000, 1, 0x80000000, 1, .ro, 0x0#32, 0x0#32, 0x0#32, 0x0#32⟩,  -- TWIN_PEER
  ⟨0x1a0100c, 0x80000000, 1, 0x80000000, 1, .rw, 0x3c#32, 0xffff#32, 0x0#32, 0x0#32⟩,  -- TWIN_HOLDOFF
  ⟨0x1a01010, 0x80000000, 1, 0x80000000, 1, .rw, 0x5a0#32, 0xffff#32, 0x0#32, 0x0#32⟩,  -- TWIN_EXERCISE
  ⟨0x1a01014, 0x80000000, 1, 0x80000000, 1, .rw, 0x1e#32, 0x8000ffff#32, 0x0#32, 0x0#32⟩,  -- TWIN_SWAP_CFG
  ⟨0x1a01018, 0x80000000, 1, 0x80000000, 1, .rw, 0x0#32, 0xf#32, 0x0#32, 0x0#32⟩,  -- TWIN_EVT_CFG
  ⟨0x1a0101c, 0x80000000, 1, 0x80000000, 1, .ro, 0x0#32, 0x0#32, 0x0#32, 0x0#32⟩,  -- TWIN_LEASE_LEFT
  ⟨0x1a01020, 0x80000000, 1, 0x80000000, 1, .ro, 0x0#32, 0x0#32, 0x0#32, 0x0#32⟩,  -- TWIN_LAST_TAKEOVER
  ⟨0x1a01024, 0x80000000, 1, 0x80000000, 1, .ro, 0x0#32, 0x0#32, 0x0#32, 0x0#32⟩,  -- TWIN_EXER_LAST
  ⟨0x1a01040, 0x80000000, 1, 0x80000000, 1, .rc, 0x0#32, 0x0#32, 0x0#32, 0xffffffff#32⟩,  -- TWIN_DIG_MISMATCH
  ⟨0x1a01044, 0x80000000, 1, 0x80000000, 1, .rc, 0x0#32, 0x0#32, 0x0#32, 0xffffffff#32⟩,  -- TWIN_DIG_MISSED
  ⟨0x1a01048, 0x80000000, 1, 0x80000000, 1, .rc, 0x0#32, 0x0#32, 0x0#32, 0xffffffff#32⟩,  -- TWIN_NO_RTAG
  ⟨0x1a0104c, 0x80000000, 1, 0x80000000, 1, .rc, 0x0#32, 0x0#32, 0x0#32, 0xffffffff#32⟩,  -- TWIN_NO_ROLE
  ⟨0x1a01050, 0x80000000, 1, 0x80000000, 1, .rc, 0x0#32, 0x0#32, 0x0#32, 0xffffffff#32⟩,  -- TWIN_DUP_DROP
  ⟨0x1a01054, 0x80000000, 1, 0x80000000, 1, .rc, 0x0#32, 0x0#32, 0x0#32, 0xffffffff#32⟩,  -- TWIN_ELIM_MISMATCH
  ⟨0x1a01058, 0x80000000, 1, 0x80000000, 1, .rc, 0x0#32, 0x0#32, 0x0#32, 0xffffffff#32⟩,  -- TWIN_HOLD_DROP
  ⟨0x1a0105c, 0x80000000, 1, 0x80000000, 1, .rc, 0x0#32, 0x0#32, 0x0#32, 0xffffffff#32⟩,  -- TWIN_TAKEOVER_CNT
  ⟨0x1a01060, 0x80000000, 1, 0x80000000, 1, .rc, 0x0#32, 0x0#32, 0x0#32, 0xffffffff#32⟩,  -- TWIN_LEASE_STOP
  ⟨0x1a01064, 0x80000000, 1, 0x80000000, 1, .rc, 0x0#32, 0x0#32, 0x0#32, 0xffffffff#32⟩,  -- TWIN_EXER_CNT
  ⟨0x1a01068, 0x80000000, 1, 0x80000000, 1, .rc, 0x0#32, 0x0#32, 0x0#32, 0xffffffff#32⟩,  -- TWIN_CAPTURE_SHORT
  ⟨0x0, 0x80000000, 1, 0x80000000, 1, .ro, 0x321600b0#32, 0x0#32, 0x0#32, 0x0#32⟩,  -- ID_DEVICE
  ⟨0x4, 0x80000000, 1, 0x80000000, 1, .ro, 0x0#32, 0x0#32, 0x0#32, 0x0#32⟩,  -- ID_LOT_LO
  ⟨0x8, 0x80000000, 1, 0x80000000, 1, .ro, 0x0#32, 0x0#32, 0x0#32, 0x0#32⟩,  -- ID_LOT_HI
  ⟨0xc, 0x80000000, 1, 0x80000000, 1, .ro, 0x0#32, 0x0#32, 0x0#32, 0x0#32⟩,  -- ID_BIN
  ⟨0x10, 0x4, 4, 0x4, 1, .ro, 0x0#32, 0x0#32, 0x0#32, 0x0#32⟩,  -- ID_UID_i
  ⟨0x20, 0x80000000, 1, 0x80000000, 1, .ro, 0x0#32, 0x0#32, 0x0#32, 0x0#32⟩,  -- ID_SVN
  ⟨0x1c00000, 0x80000000, 1, 0x80000000, 1, .perField, 0x0#32, 0x0#32, 0x3#32, 0x0#32⟩,  -- WKT_GSTAT
  ⟨0x1c00004, 0x80000000, 1, 0x80000000, 1, .w1s, 0x0#32, 0x0#32, 0x0#32, 0x0#32⟩,  -- WKT_LOCK
  ⟨0x1c00008, 0x80000000, 1, 0x80000000, 1, .rc, 0x0#32, 0x0#32, 0x0#32, 0xffffffff#32⟩,  -- WKT_DENY_CNT
  ⟨0x1c0000c, 0x80000000, 1, 0x80000000, 1, .ro, 0x0#32, 0x0#32, 0x0#32, 0x0#32⟩,  -- WKT_DENY_LOG
  ⟨0x1c00010, 0x80000000, 1, 0x80000000, 1, .rc, 0x0#32, 0x0#32, 0x0#32, 0xffffffff#32⟩,  -- WKT_COLLIDE_CNT
  ⟨0x1c00100, 0x4, 256, 0x4, 1, .rwl, 0x0#32, 0x8fffffff#32, 0x0#32, 0x0#32⟩,  -- WKT_BIND_w
  ⟨0x1c10000, 0x100, 256, 0x4, 16, .rw, 0x0#32, 0xffffffff#32, 0x0#32, 0x0#32⟩,  -- WKT_BUF_w_i
  ⟨0x1c10040, 0x100, 256, 0x100, 1, .wo, 0x0#32, 0x0#32, 0x0#32, 0x0#32⟩,  -- WKT_POST_w
  ⟨0x1c10044, 0x100, 256, 0x100, 1, .ro, 0x0#32, 0x0#32, 0x0#32, 0x0#32⟩,  -- WKT_SSTAT_w
  ⟨0x1c10048, 0x100, 256, 0x100, 1, .ro, 0x0#32, 0x0#32, 0x0#32, 0x0#32⟩,  -- WKT_ACK_w
  ⟨0x1c1004c, 0x100, 256, 0x100, 1, .rs, 0x0#32, 0x0#32, 0x0#32, 0x0#32⟩,  -- WKT_STAT_w
  ⟨0x1c10050, 0x100, 256, 0x100, 1, .wo, 0x0#32, 0x0#32, 0x0#32, 0x0#32⟩,  -- WKT_TAKE_w
  ⟨0x1c10080, 0x100, 256, 0x4, 16, .ro, 0x0#32, 0x0#32, 0x0#32, 0x0#32⟩,  -- WKT_SLOT_w_i
  ⟨0x1e00000, 0x80000000, 1, 0x80000000, 1, .perField, 0x0#32, 0x0#32, 0x7#32, 0x0#32⟩,  -- MGT_GSTAT
  ⟨0x1e00004, 0x80000000, 1, 0x80000000, 1, .ro, 0x0#32, 0x0#32, 0x0#32, 0x0#32⟩,  -- MGT_BOOT_STAT
  ⟨0x1e00008, 0x80000000, 1, 0x80000000, 1, .ro, 0x0#32, 0x0#32, 0x0#32, 0x0#32⟩,  -- MGT_FW_VER
  ⟨0x1e0000c, 0x80000000, 1, 0x80000000, 1, .ro, 0x0#32, 0x0#32, 0x0#32, 0x0#32⟩,  -- MGT_CTL_VER
  ⟨0x1e00010, 0x80000000, 1, 0x80000000, 1, .rw, 0x0#32, 0xf#32, 0x0#32, 0x0#32⟩,  -- MGT_EVT_CFG
  ⟨0x1e00014, 0x80000000, 1, 0x80000000, 1, .ro, 0x0#32, 0x0#32, 0x0#32, 0x0#32⟩,  -- MGT_EID
  ⟨0x1e00100, 0x4, 12, 0x4, 1, .ro, 0x0#32, 0x0#32, 0x0#32, 0x0#32⟩,  -- MGT_TEMP_i
  ⟨0x1e00140, 0x4, 12, 0x4, 1, .ro, 0x0#32, 0x0#32, 0x0#32, 0x0#32⟩,  -- MGT_POWER_r
  ⟨0x1e00180, 0x80000000, 1, 0x80000000, 1, .rw, 0x2f8#32, 0xffff#32, 0x0#32, 0x0#32⟩,  -- MGT_TEMP_WARN
  ⟨0x1e00184, 0x80000000, 1, 0x80000000, 1, .rw, 0x320#32, 0xffff#32, 0x0#32, 0x0#32⟩,  -- MGT_TEMP_CRIT
  ⟨0x1e00188, 0x80000000, 1, 0x80000000, 1, .rc, 0x0#32, 0x0#32, 0x0#32, 0xffffffff#32⟩,  -- MGT_TEMP_MAX
  ⟨0x2000000, 0x80000000, 1, 0x80000000, 1, .ro, 0x0#32, 0x0#32, 0x0#32, 0x0#32⟩,  -- TOLL_STAT
  ⟨0x2000004, 0x80000000, 1, 0x80000000, 1, .ro, 0x0#32, 0x0#32, 0x0#32, 0x0#32⟩,  -- TOLL_METRE_LO
  ⟨0x2000008, 0x80000000, 1, 0x80000000, 1, .ro, 0x0#32, 0x0#32, 0x0#32, 0x0#32⟩,  -- TOLL_METRE_HI
  ⟨0x200000c, 0x80000000, 1, 0x80000000, 1, .ro, 0x0#32, 0x0#32, 0x0#32, 0x0#32⟩,  -- TOLL_RDG_SEQ
  ⟨0x2000010, 0x80000000, 1, 0x80000000, 1, .ro, 0x0#32, 0x0#32, 0x0#32, 0x0#32⟩,  -- TOLL_JSEQ
  ⟨0x2000014, 0x80000000, 1, 0x80000000, 1, .ro, 0x0#32, 0x0#32, 0x0#32, 0x0#32⟩,  -- TOLL_FW
  ⟨0x2000018, 0x80000000, 1, 0x80000000, 1, .ro, 0x0#32, 0x0#32, 0x0#32, 0x0#32⟩,  -- TOLL_FW_CRC
  ⟨0x200001c, 0x80000000, 1, 0x80000000, 1, .ro, 0x0#32, 0x0#32, 0x0#32, 0x0#32⟩  -- TOLL_PARAM
  ]

/-- Registers, part 6. -/
def regTable6 : List RegRow := [
  ⟨0x2000020, 0x80000000, 1, 0x80000000, 1, .ro, 0x0#32, 0x0#32, 0x0#32, 0x0#32⟩,  -- TOLL_LOT_LO
  ⟨0x2000024, 0x80000000, 1, 0x80000000, 1, .ro, 0x0#32, 0x0#32, 0x0#32, 0x0#32⟩,  -- TOLL_LOT_HI
  ⟨0x2000030, 0x4, 4, 0x4, 1, .ro, 0x0#32, 0x0#32, 0x0#32, 0x0#32⟩,  -- TOLL_UID_i
  ⟨0x2000040, 0x4, 4, 0x4, 1, .ro, 0x0#32, 0x0#32, 0x0#32, 0x0#32⟩,  -- TOLL_SEAL_LABEL_i
  ⟨0x2000050, 0x80000000, 1, 0x80000000, 1, .ro, 0x0#32, 0x0#32, 0x0#32, 0x0#32⟩,  -- TOLL_TAMPER_CNT
  ⟨0x2000054, 0x80000000, 1, 0x80000000, 1, .ro, 0x0#32, 0x0#32, 0x0#32, 0x0#32⟩,  -- TOLL_POWER_CNT
  ⟨0x2000058, 0x80000000, 1, 0x80000000, 1, .ro, 0x0#32, 0x0#32, 0x0#32, 0x0#32⟩,  -- TOLL_JLOST
  ⟨0x1e01000, 0x80000000, 1, 0x80000000, 1, .perField, 0x0#32, 0x0#32, 0x1f#32, 0x0#32⟩,  -- PWR_GSTAT
  ⟨0x1e01004, 0x80000000, 1, 0x80000000, 1, .ro, 0x0#32, 0x0#32, 0x0#32, 0x0#32⟩,  -- PWR_STAT
  ⟨0x1e01008, 0x80000000, 1, 0x80000000, 1, .perField, 0x3e80000#32, 0xfff0003#32, 0x0#32, 0x0#32⟩,  -- PWR_CFG
  ⟨0x1e0100c, 0x80000000, 1, 0x80000000, 1, .rw, 0x642814#32, 0xffff7f7f#32, 0x0#32, 0x0#32⟩,  -- PWR_DIM_CFG
  ⟨0x1e01010, 0x80000000, 1, 0x80000000, 1, .rw, 0x3e8#32, 0xffff#32, 0x0#32, 0x0#32⟩,  -- PWR_QUIET_DWELL
  ⟨0x1e01014, 0x80000000, 1, 0x80000000, 1, .rw, 0x0#32, 0x1ff#32, 0x0#32, 0x0#32⟩,  -- PWR_CAP
  ⟨0x1e01018, 0x80000000, 1, 0x80000000, 1, .ro, 0x7d0#32, 0x0#32, 0x0#32, 0x0#32⟩,  -- PWR_CCLK_CAP
  ⟨0x1e0101c, 0x80000000, 1, 0x80000000, 1, .ro, 0x320#32, 0x0#32, 0x0#32, 0x0#32⟩,  -- PWR_VCORE
  ⟨0x1e01020, 0x80000000, 1, 0x80000000, 1, .wo, 0x0#32, 0x0#32, 0x0#32, 0x0#32⟩,  -- PWR_WAKE
  ⟨0x1e01024, 0x80000000, 1, 0x80000000, 1, .rc, 0x0#32, 0x0#32, 0x0#32, 0xffffffff#32⟩,  -- PWR_QUIET_CNT
  ⟨0x1e01028, 0x80000000, 1, 0x80000000, 1, .rc, 0x0#32, 0x0#32, 0x0#32, 0xffffffff#32⟩,  -- PWR_QUIET_MS
  ⟨0x1300, 0x80000000, 1, 0x80000000, 1, .rwl, 0x101#32, 0xffff#32, 0x0#32, 0x0#32⟩,  -- GLB_PRIV_PF
  ⟨0x1304, 0x80000000, 1, 0x80000000, 1, .w1s, 0x0#32, 0x0#32, 0x0#32, 0x0#32⟩,  -- GLB_PRIV_LOCK
  ⟨0x1308, 0x80000000, 1, 0x80000000, 1, .perField, 0x0#32, 0x0#32, 0x3#32, 0x0#32⟩,  -- GLB_PRIV_STAT
  ⟨0x130c, 0x80000000, 1, 0x80000000, 1, .rc, 0x0#32, 0x0#32, 0x0#32, 0xffffffff#32⟩,  -- GLB_PRIV_DENY_CNT
  ⟨0x1310, 0x80000000, 1, 0x80000000, 1, .ro, 0x0#32, 0x0#32, 0x0#32, 0x0#32⟩,  -- GLB_PRIV_DENY_LOG
  ⟨0x1314, 0x80000000, 1, 0x80000000, 1, .ro, 0x0#32, 0x0#32, 0x0#32, 0x0#32⟩,  -- GLB_PRIV_DENY_FN
  ⟨0x1318, 0x80000000, 1, 0x80000000, 1, .ro, 0x0#32, 0x0#32, 0x0#32, 0x0#32⟩,  -- GLB_ADM_JSEQ
  ⟨0x131c, 0x80000000, 1, 0x80000000, 1, .ro, 0x0#32, 0x0#32, 0x0#32, 0x0#32⟩  -- GLB_TBL_JSEQ
  ]

/-- Every register of BAR0 that has a word of its own. -/
def regTable : List RegRow :=
  regTable1 ++ regTable2 ++ regTable3 ++ regTable4 ++ regTable5 ++ regTable6

/-- The row of the register at an offset (none: no register stands there, R8). -/
def regRow (off : Nat) : Option RegRow := regTable.find? (fun r => r.holds off)

/-- R462: the default binding of a Wicket: V, ARG, RECEIVER, SENDER. -/
def wktDefault (w : Nat) : Word :=
  let b := fun (arg recv send : Nat) => BitVec.ofNat 32 (2 ^ 31 + arg * 2 ^ 16 + recv * 2 ^ 8 + send)
  if w < 32 then (if w % 2 = 0 then b 0 0x10 (w / 2) else b 1023 (w / 2) 0x10)
  else if w < 40 then (if w % 2 = 0 then b 0 0x10 (0x20 + (w - 32) / 2) else b 0 (0x20 + (w - 32) / 2) 0x10)
  else if w = 40 then b 0 0x10 0x11
  else 0#32

/-- The reset value of the register at an offset; that of WKT_BIND_w is per R462. -/
def regReset (off : Nat) : Word :=
  if 0x1C00100 ≤ off ∧ off < 0x1C00500 ∧ off % 4 = 0 then wktDefault ((off - 0x1C00100) / 4)
  else
    match regRow off with
    | some r => r.reset
    | none => 0#32

end Sys2Proof.Machine
end

