-- ==== Sys2Proof/Machine/Bits.lean ====
section
/-! DEFINITION. Bit fields, byte order and sparse tables: the small operations every chapter uses (R5, R6). -/

namespace Sys2Proof

/-- Field [hi:lo] of a bit vector, as a number (R6: both bounds inclusive). -/
def fld {n : Nat} (v : BitVec n) (hi lo : Nat) : Nat := (v.toNat / 2 ^ lo) % 2 ^ (hi + 1 - lo)

/-- One bit of a bit vector (R6). -/
def bitOf {n : Nat} (v : BitVec n) (i : Nat) : Bool := v.getLsbD i

/-- The value 1 or 0 of a flag. -/
def b2n (b : Bool) : Nat := if b then 1 else 0

/-- A word built from (value, lowest bit) parts, each part standing where its table puts it. -/
def packNat : List (Nat × Nat) → Nat
  | [] => 0
  | (v, lo) :: r => v * 2 ^ lo + packNat r

/-- A register word from its fields. -/
def packW (l : List (Nat × Nat)) : Word := BitVec.ofNat 32 (packNat l)

/-- A dword from its fields. -/
def packD (l : List (Nat × Nat)) : Dword := BitVec.ofNat 64 (packNat l)

/-- The n low bytes of a number, least significant first (R5: little-endian). -/
def leBytes : Nat → Nat → List Byte
  | 0, _ => []
  | n + 1, v => BitVec.ofNat 8 v :: leBytes n (v / 256)

/-- The n low bytes of a number, most significant first (network order). -/
def beBytes (n v : Nat) : List Byte := (leBytes n v).reverse

/-- The number whose little-endian bytes these are (R5). -/
def ofLe : List Byte → Nat
  | [] => 0
  | b :: r => b.toNat + 256 * ofLe r

/-- The number whose big-endian (network order) bytes these are. -/
def ofBe (l : List Byte) : Nat := ofLe l.reverse

/-- Bytes [off, off+n) of a byte string; a byte beyond its end reads as 0. -/
def slice (l : List Byte) (off n : Nat) : List Byte :=
  let s := (l.drop off).take n
  s ++ List.replicate (n - s.length) 0#8

/-- The big-endian number in bytes [off, off+n). -/
def beAt (l : List Byte) (off n : Nat) : Nat := ofBe (slice l off n)

/-- The little-endian number in bytes [off, off+n). -/
def leAt (l : List Byte) (off n : Nat) : Nat := ofLe (slice l off n)

/-- A byte string with the bytes from `off` replaced by `b`, extended with zeros if it is shorter. -/
def patch (l : List Byte) (off : Nat) (b : List Byte) : List Byte :=
  slice l 0 off ++ b ++ l.drop (off + b.length)

/-- A byte string cut or zero-extended to n bytes. -/
def fitTo (n : Nat) (l : List Byte) : List Byte := slice l 0 n

/-- The value under a key. -/
def kvFind {α : Type} (k : Nat) : Kv α → Option α
  | [] => none
  | (i, v) :: r => if i = k then some v else kvFind k r

/-- The value under a key, or the default of an unlisted key. -/
def kvGet {α : Type} (dflt : α) (m : Kv α) (k : Nat) : α := (kvFind k m).getD dflt

/-- Put a value under a key, keeping keys strictly rising. -/
def kvPut {α : Type} (k : Nat) (v : α) : Kv α → Kv α
  | [] => [(k, v)]
  | (i, x) :: r =>
    if k < i then (k, v) :: (i, x) :: r
    else if k = i then (k, v) :: r
    else (i, x) :: kvPut k v r

/-- Remove a key. -/
def kvDel {α : Type} (k : Nat) (m : Kv α) : Kv α := m.filter (fun p => p.1 != k)

/-- Store under a key in a table with a default: storing the default removes the entry, so equal tables
are equal lists. -/
def kvSet {α : Type} [DecidableEq α] (dflt : α) (k : Nat) (v : α) (m : Kv α) : Kv α :=
  if v = dflt then kvDel k m else kvPut k v m

/-- Keys strictly rising. -/
def kvSorted {α : Type} : Kv α → Bool
  | [] => true
  | [_] => true
  | (i, _) :: (j, y) :: r => decide (i < j) && kvSorted ((j, y) :: r)

/-- Canonical form of a table with a default: keys strictly rising, no entry equal to the default. -/
def kvCanon {α : Type} [DecidableEq α] (dflt : α) (m : Kv α) : Bool :=
  kvSorted m && m.all (fun p => decide (p.2 ≠ dflt))

/-- The sum of a list of numbers. -/
def sumNat : List Nat → Nat
  | [] => 0
  | x :: r => x + sumNat r

/-- The first of a list of failed checks: each item is (the check fails, status, detail). -/
def firstFail : List (Bool × Nat × Nat) → Option (Nat × Nat)
  | [] => none
  | (bad, st, det) :: r => if bad then some (st, det) else firstFail r

/-- Replace the element at a position of a list. -/
def listSet {α : Type} (l : List α) (i : Nat) (v : α) : List α := l.set i v

/-- Smallest number below the bound with the property. -/
def leastBelow (p : Nat → Bool) : Nat → Option Nat
  | n => (List.range n).find? p

/-- Smallest number not among the keys: a table's first free number below the bound. -/
def kvFirstFree {α : Type} (m : Kv α) (bound : Nat) : Option Nat :=
  let rec go : Kv α → Nat → Nat
    | [], n => n
    | (i, _) :: r, n => if i = n then go r (n + 1) else if i < n then go r n else n
  let n := go m 0
  if n < bound then some n else none

/-- x rounded up to a multiple of m. -/
def roundUp (x m : Nat) : Nat := (x + m - 1) / m * m

/-- Bitwise exclusive or of bytes. -/
def xorBytes (a b : List Byte) : List Byte := List.zipWith (· ^^^ ·) a b

end Sys2Proof
end

