-- ==== Sys2Proof/Machine/StateHif.lean ====
section
/-! DEFINITION. State of the two PCIe ports and of the functions (R38 to R71, R567, R568). -/

namespace Sys2Proof

/-- The key of a function in a table: PF n is n, VF v of PF p is 0x1000 + 1,024 p + v. -/
def Fn.key : Fn → Nat
  | .pf n => n
  | .vf p v => 0x1000 + 1024 * p + v

/-- The PF of a function. -/
def Fn.pfOf : Fn → Nat
  | .pf n => n
  | .vf p _ => p

/-- R39: the host port of a function. -/
def Fn.port (f : Fn) : Nat := if f.pfOf < 8 then 0 else 1

end Sys2Proof

namespace Sys2Proof.Machine

/-- One MSI-X table entry. -/
structure Msix where
  addr : Nat := 0
  data : Word := 0
  mask : Bool := true
  deriving DecidableEq, Repr, Inhabited

/-- What holds a PBA bit (R568): a ring that is an interrupt target, an admin ring, or a Wicket. -/
inductive IrqSrc where
  | cq (c : Nat)
  | sq (q : Nat)
  | adm (pf : Nat)
  | wicket (w : Nat)
  | nvme (q : Nat)
  deriving DecidableEq, Repr

/-- AER status of a function (R65): uncorrectable and correctable status, and headers recorded (at most 4,
more are lost and set Header Log Overflow). -/
structure Aer where
  unc : Word := 0
  cor : Word := 0
  headers : Nat := 0
  deriving DecidableEq, Repr, Inhabited

/-- Configuration space of a function that the device's behaviour reads (R44, R45, R52, R54, R55, R58,
R567, R568), and the VF's ring selector (R553). The default record is the state after a reset of the
function. -/
structure FnCfg where
  bme : Bool := false
  memSpace : Bool := false
  msixEnable : Bool := false
  functionMask : Bool := false
  ats : Bool := false
  pri : Bool := false
  priStopped : Bool := false
  priAlloc : Nat := 0
  pasid : Bool := false
  relaxed : Bool := true
  ido : Bool := false
  ltr : Bool := false
  d3 : Bool := false
  pmeStatus : Bool := false
  ctv : Nat := 0
  mrrs : Nat := 512
  stu : Nat := 0
  vfEnable : Bool := false
  numVfs : Nat := 0
  /-- latencies written by the host, ns (R55) -/
  maxSnoop : Option Nat := none
  maxNoSnoop : Option Nat := none
  bar4Log2 : Nat := 34
  /-- bus address of BAR4 -/
  bar4 : Nat := 0
  aspm : Nat := 0
  aer : Aer := {}
  msix : Kv Msix := []
  pba : List (Nat × IrqSrc) := []
  vfRingSel : Word := 0
  deriving DecidableEq, Repr, Inhabited

/-- Which work a request of the device belongs to. -/
inductive JobRef where
  | fetch (q : Nat)
  | job (q pos : Nat)
  | barrier (q pos : Nat)
  | chan (n : Nat)
  | logFlush (t : Nat)
  | eng (id : Nat)
  deriving DecidableEq, Repr

/-- A read of host memory for an engine of the device: the parts that arrived by offset, the bytes still to come, or how it
failed. -/
structure EngRead where
  need : Nat
  got : Kv (List Byte) := []
  err : Option (Nat × Nat) := none
  deriving DecidableEq, Repr, Inhabited

/-- A read a job needs (R51 step 1), waiting for a tag. -/
structure ReadReq where
  port : Nat
  fn : Fn
  ten : Nat
  gen : Word
  ref : JobRef
  addr : Nat
  len : Nat
  /-- offset of its bytes in what the job reads -/
  off : Nat := 0
  deriving DecidableEq, Repr

/-- A tag in use or quarantined (R50, R51); `sent` once the last TLP has left and the timer runs. -/
structure Tag where
  req : ReadReq
  quarantined : Bool := false
  deriving DecidableEq, Repr

/-- An entry of the address translation cache (R46). -/
structure AtcEntry where
  port : Nat
  fn : Fn
  pasid : Option Nat
  page : Nat
  log2 : Nat
  addr : Nat
  write : Bool
  deriving DecidableEq, Repr

/-- A translation request outstanding (R46, R47); stale: an invalidation that covers it arrived since. -/
structure XlatReq where
  /-- its tag -/
  id : Nat
  port : Nat
  fn : Fn
  ten : Nat
  pasid : Option Nat
  page : Nat
  write : Bool
  ref : JobRef
  stale : Bool := false
  deriving DecidableEq, Repr

/-- A page request outstanding (R48). -/
structure PageReq where
  group : Nat
  xlat : XlatReq
  /-- a fault on a receive buffer: the frame is already dropped, nothing waits -/
  rx : Bool := false
  deriving DecidableEq, Repr

/-- An invalidation request queued (R47): its tag, what it covers, and the tags of reads that used a
matching translation and have not ended (a write is sent whole in its step). -/
structure InvReq where
  itag : Nat
  fn : Fn
  pasid : Option Nat
  page : Nat
  log2 : Nat
  using_ : List Nat
  deriving DecidableEq, Repr

/-- A Casement window (R61). -/
structure CasWin where
  base : Nat := 0
  log2 : Nat := 12
  tgt : Nat := 0
  en : Bool := false
  ridf : Bool := false
  wr : Bool := false
  rd : Bool := false
  mask : Nat := 0
  rid : Nat := 0
  deriving DecidableEq, Repr, Inhabited

/-- One PCIe port. -/
structure HifPort where
  linkUp : Bool := false
  speed : Nat := 0
  width : Nat := 0
  flit : Bool := false
  /-- the link sleeps in L1 (R57) -/
  l1 : Bool := false
  /-- PERSTn_N asserted -/
  perst : Bool := false
  /-- DL_Up transitions (HIF_LIVE) -/
  ups : Nat := 0
  /-- a fatal TLP error: a hot reset or port reset is needed (R65) -/
  fatal : Bool := false
  readQ : List ReadReq := []
  tags : Kv Tag := []
  inv : List InvReq := []
  /-- rung of the last LTR message, in µs, and whether one was sent -/
  ltrRung : Option Nat := none
  /-- local ns of the last LTR message, and of the last frame for one of the port's tenancies (R55, R56) -/
  ltrAt : Nat := 0
  frameAt : Option Nat := none
  /-- captured bus number -/
  bus : Nat := 0
  /-- active Casement set; the set waiting for the next TLP boundary; old-set TLPs not drained -/
  wins : List CasWin := []
  winsNext : Option (List CasWin) := none
  oldTlps : Nat := 0
  deriving DecidableEq, Repr, Inhabited

structure HifPart where
  ports : List HifPort := [{}, {}]
  fns : Kv FnCfg := []
  /-- HIF_FN_CFG_n applied (R40) -/
  applied : List Nat := List.replicate 16 0x40
  atc : List AtcEntry := []
  xlats : List XlatReq := []
  pageReqs : List PageReq := []
  nextGroup : Nat := 0
  eng : Kv EngRead := []
  nextEng : Nat := 0
  deriving DecidableEq, Repr, Inhabited

end Sys2Proof.Machine
end

