-- ==== Sys2Proof/Machine/StateRing.lean ====
section
/-! DEFINITION. State of the rings, their jobs and the admin rings (R105 to R147, R570). -/

namespace Sys2Proof.Machine

/-- A completion entry (R111), with what the device keeps beside it until it is written: whether it may
carry Relaxed Ordering (R128) and whether it signals (R132). P is set when it is written (R113). -/
structure Cqe where
  d0 : Dword
  d1 : Dword
  d2 : Dword
  d3 : Dword
  relaxed : Bool := false
  signal : Bool := false
  /-- submission ring whose started index SQHD shows, if it has one -/
  sq : Option Nat := none
  deriving DecidableEq, Repr, Inhabited

/-- An interrupt target's moderation (R132). -/
structure Mod where
  count : Nat := 1
  time : Nat := 0
  vector : Nat := 0
  vecV : Bool := false
  /-- signalling completions since the last interrupt -/
  n : Nat := 0
  /-- the moderation timer runs -/
  timer : Bool := false
  /-- local ns at which the timer started -/
  start : Nat := 0
  /-- an interrupt is due and held by the function's D-state -/
  due : Bool := false
  deriving DecidableEq, Repr, Inhabited

/-- A submission ring (R105 to R119). Positions run from 0 to 2 × 2^k − 1 (R113). -/
structure Sq where
  ten : Nat
  loc : Nat
  cls : Nat
  retas : Bool
  scatter : Bool
  prog : Bool
  cq : Nat
  log2 : Nat
  base : Dword
  wb : Dword
  rweight : Nat
  burst : Nat
  /-- RING_SET_SCHED values waiting for the ring-round boundary (R124) -/
  nextSched : Option (Nat × Nat) := none
  mod : Mod
  /-- R107: 1 ACTIVE, 2 HELD -/
  state : Nat := 1
  failed : Bool := false
  /-- the held ring failed a job (R129), and RING_RESUME counts it as done -/
  failedJob : Bool := false
  tail : Nat := 0
  started : Nat := 0
  /-- position of the first job not done, and the value last published (R128) -/
  prog_ : Nat := 0
  published : Nat := 0
  /-- entries cached and not started, from `started` on -/
  cache : List SqEntry := []
  /-- entries requested by a fetch in progress, from started + cache on -/
  fetching : Nat := 0
  /-- the entry after the cached ones had a wrong phase: re-reads made of it (R114) -/
  reread : Option Nat := none
  /-- positions of cached entries whose phase never matched (R114) -/
  badPhase : List Nat := []
  /-- last aligned host-memory word written by its entries and not confirmed since (R109, R127) -/
  lastWord : Option Nat := none
  /-- a chain found too long is being consumed up to its next LAST (R122) -/
  skipping : Bool := false
  deriving DecidableEq, Repr, Inhabited

/-- A completion ring. -/
structure Cq where
  ten : Nat
  loc : Nat
  log2 : Nat
  retas : Bool
  evt : Bool
  base : Dword
  wb : Dword
  mod : Mod
  /-- R107: 1 ACTIVE, 3 STALLED -/
  state : Nat := 1
  write : Nat := 0
  head : Nat := 0
  stash : List Cqe := []
  /-- events lost since the last EVT_LOST event (R134) -/
  evtLost : Nat := 0
  /-- the stall timer runs (R131) -/
  stallTimer : Bool := false
  deriving DecidableEq, Repr, Inhabited

/-- How a job ended: STATUS, DETAIL, LEN and the opcode's own D2 and D3[31:0] (R111). -/
structure JobRes where
  status : Nat
  detail : Nat := 0
  len : Nat := 0
  d2 : Dword := 0
  d3 : Nat := 0
  deriving DecidableEq, Repr, Inhabited

/-- A started job: the ring and position of its FIRST entry, its entries, the generation it carries (R82),
and how far it is. -/
structure Job where
  sq : Nat
  pos : Nat
  ten : Nat
  gen : Word
  entries : List SqEntry
  /-- its result, once it has moved every byte it will move -/
  res : Option JobRes := none
  /-- host-memory bytes it wrote, and the last aligned word written (R127) -/
  wrote : Bool := false
  lastWord : Nat := 0
  /-- the confirming read has been issued; it has come back -/
  confirming : Bool := false
  confirmed : Bool := false
  /-- it ended in a way that waits for no confirmation (R163, R164) -/
  noConfirm : Bool := false
  /-- bytes moved through the Shutter so far -/
  moved : Nat := 0
  /-- bytes of its buffers that have arrived, by offset, and bytes still to arrive (TX) -/
  got : Kv (List Byte) := []
  need : Nat := 0
  /-- its reads have been queued -/
  reading : Bool := false
  /-- frames of a TX job still in the device, and whether all are built -/
  frames : Nat := 0
  /-- the priority pass started it (R123) -/
  priority : Bool := false
  /-- time stamp for its completion when not the time of the completion (R111: RX) -/
  ts : Option Nat := none
  deriving DecidableEq, Repr, Inhabited

/-- An admin command in progress (R558), with the privilege checked when it was taken (R566). -/
structure AdmTaken where
  e : AdmEntry
  priv : Bool
  /-- an ADM_NOP that waits for the earlier commands of its PF (R558) -/
  fence : Bool := false
  deriving DecidableEq, Repr, Inhabited

/-- The admin rings of one PF (R138, R139): enabled, and their positions. -/
structure AdmRing where
  en : Bool := false
  tail : Nat := 0
  started : Nat := 0
  write : Nat := 0
  head : Nat := 0
  stash : List Cqe := []
  evtLost : Nat := 0
  /-- an entry read failed; the next doorbell reads again (R570) -/
  fetchFailed : Bool := false
  /-- EN was cleared: started commands complete, nothing more is taken (R139) -/
  closing : Bool := false
  mod : Mod := {}
  deriving DecidableEq, Repr, Inhabited

structure RingPart where
  sqs : Kv Sq := []
  cqs : Kv Cq := []
  jobs : List Job := []
  adm : List AdmRing := List.replicate 16 {}
  /-- admin commands in progress, in the order taken -/
  taken : List AdmTaken := []
  /-- PF whose admin ring the next turn of the round robin looks at first (R558) -/
  admTurn : Nat := 0
  deriving DecidableEq, Repr, Inhabited

end Sys2Proof.Machine
end

