-- ==== Sys2Proof/Machine/StateSto.lean ====
section
/-! DEFINITION. State of block storage and RDMA (R290 to R318). -/

namespace Sys2Proof.Machine

/-- Rate control of a context (R301, R302): R and T in Mb/s (none: nothing sent yet), stage, time of the last
cut, tokens in eighth-thousandths of a byte, and the counts of the window in progress. -/
structure Rate where
  r : Option Nat := none
  t : Nat := 0
  max : Nat := 0
  stage : Nat := 0
  lastCut : Option Nat := none
  bucket : Int := 0
  n : Nat := 0
  m : Nat := 0
  /-- egress port of the first frame -/
  port : Option Nat := none
  deriving DecidableEq, Repr, Inhabited

/-- A started entry of a QP (R296): its job, opcode, first PSN and PSNs once built, bytes of a READ placed. `nv` names
the NVMF context it works for instead of a job, with the CID and what it does (1 command capsule, 2 response,
3 target data write, 4 target data read). -/
structure Wqe where
  sq : Nat
  pos : Nat
  op : Nat
  nv : Option (Nat × Nat × Nat) := none
  /-- bytes to send of an engine's own entry, remote address and key, bytes to read -/
  data : List Byte := []
  raddr : Nat := 0
  rkey : Nat := 0
  rlen : Nat := 0
  psn : Option Nat := none
  n : Nat := 0
  got : List Byte := []
  deriving DecidableEq, Repr, Inhabited

/-- A packet of a QP from its BTH on, without ICRC (R294), how often it was sent, and whether it answers a READ. -/
structure TxPkt where
  psn : Nat
  data : List Byte
  sends : Nat := 0
  /-- it waits to be sent (again) -/
  due : Bool := true
  resp : Bool := false
  deriving DecidableEq, Repr, Inhabited

/-- A message being received (R297, R300): first PSN, last PSN once known, a WRITE and its address and MR, or a SEND
and the posted buffer it fills, bytes placed, immediate data. -/
structure RxMsg where
  first : Nat
  last : Option Nat := none
  write : Bool := false
  addr : Nat := 0
  rkey : Nat := 0
  len : Nat := 0
  buf : Option (Nat × Nat) := none
  got : Nat := 0
  imm : Option Nat := none
  sol : Bool := false
  /-- bytes of a SEND for an NVMF context -/
  nv : Option Nat := none
  data : List Byte := []
  deriving DecidableEq, Repr, Inhabited

/-- A READ served as responder (R293 RESP_RES): its PSN, the engine read that brings its bytes once it is served, or the bytes
themselves. -/
structure RespRead where
  psn : Nat
  rkey : Nat
  addr : Nat
  len : Nat
  eng : Option Nat := none
  data : Option (List Byte) := none
  deriving DecidableEq, Repr, Inhabited

/-- A RoCEv2 queue pair (R293 to R301). -/
structure Qp where
  /-- 0 RESET, 1 INIT, 2 RTR, 3 RTS, 4 ERROR -/
  state : Nat := 1
  sr : Bool
  ecn : Bool
  pmtu : Nat
  action : Nat
  sqLoc : Nat
  rqLoc : Nat
  remote : Nat
  src : List Byte
  dst : List Byte
  snd : Nat
  rcv : Nat
  timeout : Nat
  retry : Nat
  rnrRetry : Nat
  rnrTimer : Nat
  dscp : Nat
  rdAtom : Nat
  respRes : Nat
  sport : Nat
  rate : Rate := {}
  /-- requester: started work in order, packets sent and not acknowledged or waiting for the pacer -/
  work : List Wqe := []
  sendQ : List TxPkt := []
  una : Nat := 0
  tries : Nat := 0
  rnrTries : Nat := 0
  /-- an RNR NAK stopped sending until its timer ends -/
  rnrWait : Bool := false
  /-- PSNs an ACK of the peer showed received (selective repeat) -/
  sacked : List Nat := []
  /-- responder: messages in progress, PSNs received beyond the expected one, READs, message sequence number, gap
  reported, packets since the last ACK, times of the last ACK due and of the last hole ACK -/
  rx : List RxMsg := []
  seen : List Nat := []
  reads : List RespRead := []
  msn : Nat := 0
  nakSent : Bool := false
  unacked : Nat := 0
  holeAt : Option Nat := none
  /-- counters STO_CONN_QUERY shows -/
  retx : Nat := 0
  naks : Nat := 0
  deriving DecidableEq, Repr, Inhabited

/-- A TCP connection (R293, R302 to R304). Sequence numbers are modulo 2^32. -/
structure Tcp where
  tls : Bool
  ecn : Bool
  sack : Bool
  tsopt : Bool
  action : Nat
  lport : Nat
  rport : Nat
  src : List Byte
  dst : List Byte
  sndUna : Nat
  sndNxt : Nat
  rcvNxt : Nat
  rtoMin : Nat
  dscp : Nat
  mss : Nat
  sws : Nat
  rws : Nat
  wnd : Nat
  tsRecent : Nat
  tlsTx : Nat
  tlsRx : Nat
  rate : Rate := {}
  error : Bool := false
  /-- bytes from sndUna on, sent or not; bytes received in order and not parsed; segments beyond a gap -/
  sndBuf : List Byte := []
  rcvBuf : List Byte := []
  /-- plaintext of whole TLS records not yet parsed -/
  plain : List Byte := []
  ooo : Kv (List Byte) := []
  sacked : Kv Nat := []
  dupAcks : Nat := 0
  rtos : Nat := 0
  ece : Bool := false
  cwr : Bool := false
  retx : Nat := 0
  deriving DecidableEq, Repr, Inhabited

/-- Who a block command works for: a job of a ring, a command of an emulated controller, or the write-back of a
cache block (controller, namespace, block), or work of the archive engine (its shard, and what: 0 record write, 1 manifest copy,
2 header, 3 record, 4 read-back). -/
inductive BlkFor where
  | job (sq pos : Nat)
  | nvme (ctrl q cid : Nat)
  | writeBack (ctrl ns blk : Nat)
  | arc (id shard what : Nat)
  | none
  deriving DecidableEq, Repr

/-- A command an NVMF initiator has outstanding (R303, R310): NVMe opcode, place on the remote namespace, data to write or
received so far, bytes asked for by R2T and sent, whether the data went in the capsule, and that it was reissued. -/
structure BlkCmd where
  for_ : BlkFor := .none
  op : Nat
  nsid : Nat
  slba : Nat := 0
  nlb : Nat := 0
  fua : Bool := false
  data : List Byte := []
  len : Nat := 0
  got : List Byte := []
  reissued : Bool := false
  /-- Dword 0 and status of its response -/
  done : Option (Nat × Nat) := none
  deriving DecidableEq, Repr, Inhabited

/-- A host command a target context serves (R314): its SQE, data received, staging offset once taken, the SSD's command
identifier once issued, and the transfer tag of its R2T. -/
structure TgtCmd where
  sqe : List Byte
  data : List Byte := []
  need : Nat := 0
  stage : Option Nat := none
  ssdCid : Option Nat := none
  asked : Bool := false
  answered : Bool := false
  deriving DecidableEq, Repr, Inhabited

/-- An NVMe-oF queue (R303, R313). -/
structure Nvmf where
  target : Bool
  hdgst : Bool
  ddgst : Bool
  rdma : Bool
  qsize : Nat
  qid : Nat
  link : Nat
  maxH2c : Nat
  icd : Nat
  lbads : Nat
  error : Bool := false
  cmds : Kv BlkCmd := []
  /-- commands that wait for a free CID -/
  wait : List BlkCmd := []
  /-- target: host commands by CID, in the order of arrival those without staging -/
  tgt : Kv TgtCmd := []
  order : List Nat := []
  deriving DecidableEq, Repr, Inhabited

/-- A memory region (R293, R299). -/
structure Mr where
  hbm : Bool
  localWrite : Bool
  remoteRead : Bool
  remoteWrite : Bool
  key : Nat
  base : Nat
  length : Nat
  deriving DecidableEq, Repr, Inhabited

/-- A context of this chapter (R290). -/
inductive StoKind where
  | qp (q : Qp)
  | tcp (t : Tcp)
  | nvmf (n : Nvmf)
  | mr (m : Mr)
  deriving DecidableEq, Repr

structure StoCtx where
  ten : Nat
  k : StoKind
  deriving DecidableEq, Repr

/-- A queue of an emulated controller (R308): size, base, head and tail, phase of a completion queue, and the submission
queue's completion queue or the vector. -/
structure NvQueue where
  size : Nat
  base : Nat
  head : Nat := 0
  tail : Nat := 0
  phase : Bool := true
  cq : Nat := 0
  ien : Bool := false
  /-- a completion queue's interrupt, and entries that wait for a free position (R130) -/
  mod : Mod := {}
  stash : List (List Byte) := []
  deriving DecidableEq, Repr, Inhabited

/-- A namespace mapping (R310). -/
structure NvNs where
  mode : Nat
  lbads : Nat
  nsze : Nat
  off : Nat
  rnsid : Nat
  conns : List Nat
  deriving DecidableEq, Repr, Inhabited

/-- A block of a controller's cache (R311): its place in the cache region, that it is dirty and since when, and that a
write-back of it is out. -/
structure NvBlk where
  ns : Nat
  blk : Nat
  slot : Nat
  dirty : Bool := false
  since : Nat := 0
  out : Bool := false
  deriving DecidableEq, Repr, Inhabited

/-- A host command in progress in an emulated controller: its queue, CID, NVMe opcode, where its data goes, parts not done, the
worst status, and for a Flush the dirty blocks it waits for and whether the target's Flush is out. -/
structure NvCmd where
  q : Nat
  cid : Nat
  op : Nat
  ns : Nat := 0
  slba : Nat := 0
  nlb : Nat := 0
  prps : List Nat := []
  data : List Byte := []
  blocks : List Nat := []
  flushing : Bool := false
  deriving DecidableEq, Repr, Inhabited

/-- An emulated NVMe controller (R305 to R312). -/
structure NvCtrl where
  ten : Nat
  en : Bool
  cacheBase : Nat := 0
  cacheSize : Nat := 0
  cc : Word := 0
  rdy : Bool := false
  cfs : Bool := false
  shst : Nat := 0
  aqa : Word := 0
  asq : Dword := 0
  acq : Dword := 0
  sqs : Kv NvQueue := []
  cqs : Kv NvQueue := []
  /-- features by number: Arbitration, Interrupt Coalescing, Asynchronous Event Configuration, Volatile Write Cache -/
  feats : Kv Nat := []
  /-- vector configurations by vector -/
  ivConf : Kv Nat := []
  aers : List Nat := []
  /-- namespaces changed and not reported; the event is due -/
  changed : List Nat := []
  nss : Kv NvNs := []
  cache : List NvBlk := []
  cmds : List NvCmd := []
  /-- commands and errors counted for the log pages -/
  errors : Nat := 0
  reads : Nat := 0
  writes : Nat := 0
  deriving DecidableEq, Repr, Inhabited

/-- A local SSD attached for a target context (R313). -/
structure Ssd where
  ten : Nat
  win : Nat
  log2 : Nat
  sqBase : Nat
  cqBase : Nat
  stBase : Nat
  stSize : Nat
  bell : Nat
  rnsid : Nat
  tail : Nat := 0
  head : Nat := 0
  phase : Bool := true
  /-- commands at the SSD by CID: host CID; none: answered after a timeout, its CQE is discarded -/
  out : Kv (Option Nat) := []
  nextCid : Nat := 0
  /-- staging blocks of 4 KiB in use -/
  used : List Nat := []
  deriving DecidableEq, Repr, Inhabited

structure StoPart where
  ctxs : Kv StoCtx := []
  /-- controllers by 1,024 × PF + VF; SSDs by the target context -/
  ctrls : Kv NvCtrl := []
  ssds : Kv Ssd := []
  /-- commands of destroyed queues, to be reported as lost -/
  orphans : List BlkCmd := []
  deriving DecidableEq, Repr, Inhabited

end Sys2Proof.Machine
end

