-- ==== Sys2Proof/Machine/StateArc.lean ====
section
/-! DEFINITION. State of the archive engine (R319 to R346). -/

namespace Sys2Proof.Machine

/-- A layout with what names the object (R319, R326). -/
structure ArcLay where
  k : Nat
  m : Nat
  ulog : Nat
  cipher : Nat
  fix : Nat
  sig : Nat
  gen : Nat
  objId : List Byte
  label : List Byte
  size : Nat
  deriving DecidableEq, Repr, Inhabited

/-- An entry of a target table (R331). -/
structure ArcTgt where
  ctx : Nat
  nsid : Nat
  slba : Nat
  nlb : Nat
  lbads : Nat
  label : List Byte
  deriving DecidableEq, Repr, Inhabited

/-- An object being written (R335, R337): its shard keys, what each shard file holds so far and how much of it has been sent, writes
not acknowledged per shard, shards failed, object bytes taken and those of the stripe in progress, the next stripe, the manifest once
built; `stage` 0 stripes, 1 manifest copies, 2 read-back (OBJ_MIGRATE). -/
structure ArcWr where
  lay : ArcLay
  tgts : List ArcTgt
  keys : List (List Byte)
  check : List Byte
  sign1 : List Byte
  sign2 : List Byte
  prev : List Byte
  tol : Nat
  files : List (List Byte)
  sent : List Nat
  out : List Nat
  failed : List Nat := []
  obj : List Byte := []
  inbuf : List Byte := []
  t : Nat := 0
  stage : Nat := 0
  man : List Byte := []
  /-- pieces of shard files read back: by 65,536 × shard + piece -/
  back : Kv (List Byte) := []
  deriving DecidableEq, Repr, Inhabited

/-- An object being read (R336): the manifest, shard keys, shards in use, shards refused or abandoned, header reads and record reads
out, the stripe in progress and the last, the units of it that verified, the range wanted and the bytes decoded so far. -/
structure ArcRd where
  lay : ArcLay
  tgts : List ArcTgt
  keys : List (List Byte)
  man : List Byte
  missing : List Nat
  level : Nat := 0
  use : List Nat
  tried : List Nat
  bad : List Nat := []
  hdrs : List Nat := []
  hdrOk : List Nat := []
  outst : List Nat := []
  t0 : Nat
  t : Nat
  tEnd : Nat
  /-- shards asked for a record of the stripe in progress -/
  asked : List Nat := []
  good : Kv (List Byte) := []
  /-- OBJ_VERIFY: shard files as read, state and first failing record by shard, stripes whose parity is inconsistent -/
  files : Kv (List Byte) := []
  states : Kv (Nat × Nat) := []
  parity : Nat := 0
  /-- OBJ_VERIFY: a stripe had fewer than K verified records -/
  lost : Bool := false
  /-- object offset the session or job opened at -/
  lo : Nat
  obj : List Byte := []
  decoded : Nat := 0
  usedMap : List Nat := []
  deriving DecidableEq, Repr, Inhabited

/-- Work of the archive engine: a job, or an open session between its jobs (R333). -/
structure ArcWork where
  id : Nat
  ten : Nat
  gen : Word
  op : Nat
  sq : Nat
  session : Option Nat := none
  /-- the job it runs for now -/
  cur : Option Nat := none
  phase : Nat := 0
  granted : Bool := false
  set : Nat := 0
  wr : Option ArcWr := none
  rd : Option ArcRd := none
  manOut : Nat := 0
  /-- offset of the session's next byte, bytes this job takes or wants, and bytes it had taken when it began -/
  off : Nat := 0
  want : Nat := 0
  base : Nat := 0
  /-- key slots it names -/
  slots : List Nat := []
  inPlace : Bool := false
  recAddr : Nat := 0
  deriving DecidableEq, Repr, Inhabited

structure ArcPart where
  works : List ArcWork := []
  nextId : Nat := 0
  /-- work whose stripe was processed last (R344) -/
  turn : Nat := 0
  acks : List BlkCmd := []
  stageBase : Nat := 0
  stageSize : Nat := 0
  /-- migration records by SEQ modulo 1,048,576, with their SEQ (R342) -/
  journal : Kv (Nat × List Byte) := []
  seq : Nat := 0
  deriving DecidableEq, Repr, Inhabited

end Sys2Proof.Machine
end

