-- ==== Sys2Proof/Machine/StateCls.lean ====
section
/-! DEFINITION. State of the Crossing (R195 to R225, R571). -/

namespace Sys2Proof.Machine

/-- A TCAM entry (R210): 160 data bits, 160 care bits, PRIO, V and a result word. -/
structure TcamEntry where
  data : Nat := 0
  care : Nat := 0
  prio : Nat := 0
  v : Bool := false
  result : Dword := 0
  deriving DecidableEq, Repr, Inhabited

/-- A rule set (R208, R211): MISS, TIE_EN, its counters LOOKUPS, HITS, MISSES and TIES, and its bank. -/
structure Rset where
  miss : Dword := 0
  tie : Bool := false
  counters : List Nat := [0, 0, 0, 0]
  bank : List Nat := [0, 0, 0, 0]
  reading : Bool := false
  snapSeq : Nat := 0
  deriving DecidableEq, Repr, Inhabited

/-- A hash profile in effect (R220). -/
structure HProf where
  cfg : Word
  key : List Byte
  deriving DecidableEq, Repr, Inhabited

/-- The indirection table of a tenancy (R222). -/
structure IndTab where
  log2 : Nat
  hprof : Nat
  base : Nat
  defRing : Nat
  deriving DecidableEq, Repr, Inhabited

structure ClsPart where
  /-- the two image banks; none is empty (R214, R215) -/
  banks : List (Option (List Byte)) := [none, none]
  active : Nat := 0
  /-- CLS_COMMIT commands waiting for the last frame of the old image, oldest first -/
  commit : List AdmEntry := []
  tcam : Kv TcamEntry := []
  /-- TCAM_CHAIN_b in effect (R211) -/
  chain : List Word := List.replicate 64 0#32
  rsets : Kv Rset := []
  /-- hash profiles in effect -/
  hprofs : List HProf := { cfg := 0x3C#32, key := List.replicate 52 0#8 } ::
    List.replicate 7 { cfg := 0#32, key := List.replicate 52 0#8 }
  /-- indirection pool: 16-bit entries, an unlisted one 0 (R222) -/
  pool : Kv Nat := []
  inds : Kv IndTab := []
  reentryQ : List Nat := []
  /-- entry the background scrub checks next (R212) -/
  scrub : Nat := 0
  deriving DecidableEq, Repr, Inhabited

end Sys2Proof.Machine
end

