-- ==== Sys2Proof/Machine/StateCore.lean ====
section
/-! DEFINITION. State of the packet cores (R347 to R384). -/

namespace Sys2Proof.Machine

/-- A thread's open message (R369, R370): its channel, the words written, and that its lease has expired. -/
structure OpenMsg where
  chan : Nat
  words : List (Option Word) := List.replicate 16 none
  abandoned : Bool := false
  discarded : Bool := false
  deriving DecidableEq, Repr, Inhabited

/-- An outstanding lookup (R367): its sequence number, the request, where the result goes. -/
structure Lookup where
  seq : Nat
  req : List Byte
  result : Nat
  deriving DecidableEq, Repr, Inhabited

/-- A hardware thread (R355 to R357, R363). -/
structure Thread where
  /-- x1 to x31; x0 is not held -/
  regs : Kv Dword := []
  pc : Nat := 0
  /-- R357: 0 HELD, 1 RUN, 2 WAIT_EVENT, 3 WAIT_CHAN, 4 HALT_STOP, 5 HALT_EXC, 6 HALT_DEBUG -/
  st : Nat := 0
  /-- the state a HALT_DEBUG thread resumes in -/
  resume : Nat := 1
  cause : Nat := 0
  mtval : Dword := 0
  /-- latched events pending (R372) -/
  events : Nat := 0
  /-- EVWAIT it waits in: rd and mask -/
  wait : Option (Nat × Nat) := none
  /-- channel it waits for in CHSEND -/
  waitChan : Option Nat := none
  /-- timer armed: CCLK count it was armed with -/
  timer : Option Nat := none
  lookups : List Lookup := []
  /-- sequence number of its next lookup -/
  seq : Nat := 0
  msg : Option OpenMsg := none
  /-- what CHCMT returns after a message ended without it: 1 ABANDONED, 2 DISCARDED; 0 none -/
  ended : Nat := 0
  /-- minstret (R348) -/
  instret : Nat := 0
  /-- the 64-byte line a load-reserved holds -/
  resv : Option Nat := none
  deriving DecidableEq, Repr, Inhabited

/-- A core (R347, R359, R376, R378). The CSRs are those of thread 0's machine mode. -/
structure Core where
  running : Bool := false
  frozen : Bool := false
  /-- R384 CAUSE -/
  cause : Nat := 0
  /-- image slot last started -/
  slot : Nat := 0
  threads : List Thread := List.replicate 8 {}
  /-- handler queue: tokens in arrival order, with the handler of each -/
  hq : List (Nat × Nat) := []
  /-- tokens held, with the handler of each; none: made by TKNEW -/
  held : Kv (Option Nat) := []
  mem : Kv Byte := []
  mtvec : Dword := 0
  mepc : Dword := 0
  mcause : Dword := 0
  mtval : Dword := 0
  mscratch : Dword := 0
  mstatus : Dword := 0
  /-- thread 0 is between a trap and its MRET -/
  inTrap : Bool := false
  /-- breakpoints: enabled, pc -/
  bps : List (Bool × Nat) := List.replicate 4 (false, 0)
  trace : Bool := false
  /-- trace records written (R378) -/
  tpos : Nat := 0
  /-- capture slots 0 to 3, newest first (R378) -/
  captures : List (List Byte) := []
  /-- a start is in progress: its slot, and whether the shared segments are written (R381) -/
  starting : Option (Nat × Bool) := none
  deriving DecidableEq, Repr, Inhabited

/-- A window of a cluster into HBM (R350, R382). -/
structure HWin where
  v : Bool := false
  r : Bool := false
  w : Bool := false
  base : Nat := 0
  size : Nat := 0
  deriving DecidableEq, Repr, Inhabited

structure Cluster where
  mem : Kv Byte := []
  wins : List HWin := List.replicate 8 {}
  deriving DecidableEq, Repr, Inhabited

/-- A message in a channel (R369): its sender, or that an engine of the device sent it. The 64 bytes lie in
the channel's buffer in shared memory; `slot` is the buffer slot. -/
structure ChanMsg where
  sender : Nat
  engine : Bool
  slot : Nat
  deriving DecidableEq, Repr, Inhabited

/-- A channel (R368): its binding, its messages, and the slot the next message goes to. -/
structure Channel where
  bind : Dword := 0
  msgs : List ChanMsg := []
  next : Nat := 0
  deriving DecidableEq, Repr, Inhabited

structure CorePart where
  cores : Kv Core := []
  clusters : Kv Cluster := []
  /-- handler table (R360) -/
  hnd : Kv Dword := []
  chans : Kv Channel := []
  /-- valid core images by slot (R379) -/
  images : Kv (List Byte) := []
  /-- CORE_START commands in progress with the cores not yet started -/
  starts : List (AdmEntry × List Nat) := []
  /-- a debug command cannot act (CORE_DBG_STAT.ERR) -/
  dbgErr : Bool := false
  deriving DecidableEq, Repr, Inhabited

end Sys2Proof.Machine
end

