-- ==== Sys2Proof/Machine/StateCry.lean ====
section
/-! DEFINITION. State of encryption and keys (R262 to R289). -/

namespace Sys2Proof.Machine

/-- A used key slot (R266): its plaintext. The wrapped line and KWK are not held apart from it (log 6). -/
structure KeySlot where
  dev : Bool
  ten : Nat
  type : Nat
  usage : Nat
  /-- 1 PUT, 2 GEN, 3 DERIVE, 4 AGREE, 5 IMPORT -/
  origin : Nat
  material : List Byte
  deriving DecidableEq, Repr, Inhabited

/-- A traffic key of a TLS or QUIC context (R270): key, IV, header-protection key. -/
structure TrafficKey where
  key : List Byte := []
  iv : List Byte := []
  hp : List Byte := []
  deriving DecidableEq, Repr, Inhabited

/-- A crypto context (R282): its parameters and state. -/
structure CryCtx where
  ten : Nat
  kind : Nat
  alg : Nat
  flags : Nat
  keySlot : Nat
  nextSlot : Option Nat
  salt : List Byte
  /-- next sequence, right edge of the window, next record, largest packet number -/
  seq : Nat
  spi : Nat
  replayWin : Nat
  ports : Nat
  dcidLen : Nat
  phase : Nat
  softBytes : Nat
  hardBytes : Nat
  softUnits : Nat
  hardUnits : Nat
  /-- 0 in use, 1 EXPIRED, 2 FAILED, 3 RESYNC, 4 invalidated by a zeroised slot (R287) -/
  st : Nat := 0
  softSent : Bool := false
  units : Nat := 0
  bytes : Nat := 0
  tagFails : Nat := 0
  replays : Nat := 0
  dummies : Nat := 0
  /-- sequence numbers of the window already seen -/
  seen : List Nat := []
  /-- TLS: TCP sequence expected next; the last 16 record starts with their numbers; the bytes of a record
  not yet ended and the TCP sequence of its start -/
  tcpNext : Nat := 0
  starts : List (Nat × Nat) := []
  part : List Byte := []
  /-- derived keys: current, next, previous; first number of the present phase; and the TLS record from which
  a new key applies -/
  cur : TrafficKey := {}
  next : Option TrafficKey := none
  prev : Option TrafficKey := none
  phaseFirst : Nat := 0
  rekey : Option (Nat × TrafficKey) := none
  deriving DecidableEq, Repr, Inhabited

/-- A MACsec SA (R275): PN next to send or lowest acceptable. -/
structure Sa where
  en : Bool := false
  keySlot : Nat := 0
  sci : Nat := 0
  ssci : Nat := 0
  salt : List Byte := List.replicate 12 0#8
  pn : Nat := 0
  evtSent : Bool := false
  deriving DecidableEq, Repr, Inhabited

/-- A SecY (R275): its configuration word as D2[41:32] gives it, the replay window, and its SAs by
4 × SC + AN, SC 0 the transmit SC. -/
structure SecY where
  cfg : Nat := 0
  window : Nat := 0
  sas : Kv Sa := []
  deriving DecidableEq, Repr, Inhabited

/-- A handshake request (R285): its fields, and who asked: an admin command, or a thread with its REPLY channel
and TAG. -/
structure HsReq where
  ten : Nat
  gen : Word
  op : Nat
  outSlot : Nat
  inSlot : Nat
  inSlot2 : Nat
  exp : Bool
  len : Nat
  inLen : Nat
  buf : List Byte
  /-- private inputs, read from their slots when an engine takes the request -/
  priv : List (List Byte) := []
  adm : Option AdmEntry := none
  reply : Nat := 0
  tag : Nat := 0
  hbm : Nat := 0
  /-- a check a handler's request failed -/
  bad : Option (Nat × Nat) := none
  deriving DecidableEq, Repr, Inhabited

structure CryPart where
  slots : Kv KeySlot := []
  ctxs : Kv CryCtx := []
  macsec : Kv SecY := []
  hsQueue : List HsReq := []
  hsRun : List HsReq := []
  /-- tenancy served last by the handshake engines' round robin -/
  hsTurn : Nat := 4095
  /-- the noise source failed a test; which tests; the DRBG runs -/
  failed : Bool := false
  rct : Bool := false
  apt : Bool := false
  running : Bool := false
  /-- requests of the DRBG since it was seeded (R273) -/
  drbg : Nat := 0
  deriving DecidableEq, Repr, Inhabited

end Sys2Proof.Machine
end

