-- ==== Sys2Proof/Machine/StateDma.lean ====
section
/-! DEFINITION. State of the copy engine (R148 to R170). -/

namespace Sys2Proof.Machine

/-- A copy descriptor as read (R151). -/
structure Desc where
  src : Nat
  dst : Nat
  len : Nat
  swrap : Nat
  dwrap : Nat
  nextHbm : Bool
  dstHbm : Bool
  srcHbm : Bool
  last : Bool
  next : Nat
  deriving DecidableEq, Repr, Inhabited

/-- A copy channel (R164): 0 IDLE, 1 MOVING, 2 CONFIRM, 3 HALTED; its job (kept while IDLE as the last
job, R169), where it stands in the list and in the descriptor. -/
structure Chan where
  st : Nat := 0
  sq : Nat := 0
  pos : Nat := 0
  ten : Nat := 0
  tag : Nat := 0
  /-- the channel has had a job since reset -/
  used : Bool := false
  /-- address and space of the descriptor it acts on, and the descriptor once read -/
  addr : Nat := 0
  addrHbm : Bool := false
  desc : Option Desc := none
  /-- source bytes as they stood before a memmove descriptor began (R159); none: read as it goes -/
  snap : Option (List Byte) := none
  /-- bytes of the descriptor written -/
  off : Nat := 0
  /-- bytes of the job written; descriptors done in full; REASON -/
  done : Nat := 0
  doneD : Nat := 0
  /-- descriptors ended, skipped ones included (R152 DMAX) -/
  acted : Nat := 0
  reason : Nat := 0
  skipped : Bool := false
  /-- the fault it halted on: status, detail, on a descriptor read -/
  fault : Nat × Nat := (0, 0)
  faultDesc : Bool := false
  deriving DecidableEq, Repr, Inhabited

/-- An HBM grant (R154). -/
structure Grant where
  base : Nat
  size : Nat
  r : Bool
  w : Bool
  deriving DecidableEq, Repr

structure DmaPart where
  chans : Kv Chan := []
  /-- grants by 8 × tenancy + index -/
  grants : Kv Grant := []
  /-- DMA_GRANT commands waiting for requests under the old grant (R155) -/
  waiting : List AdmEntry := []
  deriving DecidableEq, Repr, Inhabited

end Sys2Proof.Machine
end

