-- ==== Sys2Proof/Machine/StateFab.lean ====
section
/-! DEFINITION. State of the fabric (R409 to R435). -/

namespace Sys2Proof.Machine

/-- A member of the Block heard on the service bus (R412): what its last BEACON said, and when. -/
structure FabPeer where
  uid : Nat
  node : Nat
  nbrUp : Bool
  index : Option Nat
  heard : Nat
  deriving DecidableEq, Repr, Inhabited

/-- A neighbour slot (R422). -/
structure FabNbr where
  v : Bool := false
  addr : Nat := 0
  action : Nat := 0
  up : Bool := false
  last : Nat := 0
  deriving DecidableEq, Repr, Inhabited

/-- A member of the agreed membership as this device knows it (R421), with the state it last reported. -/
structure FabMember where
  addr : Nat
  uid : Nat
  st : Nat := 2
  deriving DecidableEq, Repr, Inhabited

/-- A global operation at this member (R425, R426): `op` 0 while only reports of it have arrived; its initiator's command; whether
this member has entered; addresses that have reported; whether the report was sent on; for a snapshot SETS, T, LATE, whether the cut
was taken, counter sets refused, messages in flight and the port snapshot's number. -/
structure FabRun where
  op : Nat
  id : Nat
  cmd : Option AdmEntry := none
  entered : Bool := false
  reports : List Nat := []
  sent : Bool := false
  sets : Nat := 0
  t : Option Nat := none
  late : Bool := false
  cut : Bool := false
  refused : Nat := 0
  inflight : Nat := 0
  seq : Nat := 0
  deriving DecidableEq, Repr, Inhabited

/-- An advertised route (R422, R424): the neighbour slot it came by, level, index, cost. -/
structure FabAdv where
  slot : Nat
  level : Nat
  index : Nat
  cost : Nat
  deriving DecidableEq, Repr, Inhabited

structure FabPart where
  /-- R419: 0 ALONE, 1 JOINING, 2 HOLDING, 3 DECIDING, 4 SEQUESTERED -/
  state : Nat := 0
  /-- Device index; Block number granted under AUTO_B -/
  index : Option Nat := none
  block : Option Nat := none
  /-- UID of the coordinator and of the gate; Block members heard; the indices ASSIGN last gave -/
  coord : Option Nat := none
  gate : Option Nat := none
  peers : List FabPeer := []
  given : List (Nat × Nat) := []
  /-- membership or gate has changed since the last ASSIGN; beacon periods since -/
  assignDue : Bool := false
  beacons : Nat := 0
  nbrs : Kv FabNbr := []
  adverts : List FabAdv := []
  /-- local ns of the last heartbeat of each tree neighbour, and the members it reported below it -/
  hb : Kv Nat := []
  below : Kv Nat := []
  /-- agreed membership as far as known here; its size; the tie-break member; EPOCH; members the side reaches -/
  members : List FabMember := []
  total : Nat := 0
  tie : Option Nat := none
  epoch : Nat := 0
  reach : Nat := 0
  /-- largest EPOCH met when sides heal -/
  epochMax : Nat := 0
  /-- JOINs passed on and not yet in an EPOCH; this device has sent JOIN -/
  joins : List FabMember := []
  joined : Bool := false
  /-- COUNTs received from tree neighbours while DECIDING; the own one has gone up -/
  counts : Kv Nat := []
  counted : Bool := false
  ops : List FabRun := []
  /-- operations that timed out here -/
  dead : List Nat := []
  /-- payloads of the last 16 broadcasts, records of the last 16 snapshots, oldest first -/
  bcasts : List (Nat × List Byte) := []
  snaps : List (Nat × List Byte) := []
  /-- members that left: address, UID (FAB_ADDR_HOLD) -/
  heldAddrs : List (Nat × Nat) := []
  /-- JOINs (true) and LEAVEs the root holds back -/
  heldChanges : List (Bool × FabMember) := []
  /-- a fabric reset runs: its OP_ID and the initiator's command -/
  restart : Option (Nat × Option AdmEntry) := none
  deriving DecidableEq, Repr, Inhabited

end Sys2Proof.Machine
end

