-- ==== Sys2Proof/Machine/StateFwd.lean ====
section
/-! DEFINITION. State of forwarding (R226 to R261). Lines, action entries and counters lie in HBM; the AUX
records of a descriptor are held here (log 6). -/

namespace Sys2Proof.Machine

/-- A table descriptor (R229). -/
structure TblDesc where
  base : Nat := 0
  log2b : Nat := 0
  v : Bool := false
  seed1 : Nat := 0
  seed2 : Nat := 0
  aux : Nat := 0
  deriving DecidableEq, Repr, Inhabited

/-- A bridge (R240): its owner, settings, and when its last FWD_STATIC_MOVE event was sent, local ns. -/
structure Bridge where
  ten : Nat
  en : Bool
  learn : Bool
  limit : Nat
  flood : Nat
  evtAt : Option Nat := none
  deriving DecidableEq, Repr, Inhabited

/-- A NAT pool (R250). -/
structure NatPool where
  ten : Nat
  addrLo : Nat
  addrHi : Nat
  portLo : Nat
  portHi : Nat
  v : Bool
  deriving DecidableEq, Repr, Inhabited

/-- A tenancy's forwarding record (R249). -/
structure TenFwd where
  miss : Nat
  inner : Bool
  flowEn : Bool
  mtuExc : Bool
  deriving DecidableEq, Repr, Inhabited

/-- A rehash in progress (R238): the table, its command, the shadow's descriptor, and the changes of the
internal port logged since: a line written (its 64 bytes) or a key deleted. -/
structure Rehash where
  table : Nat
  e : AdmEntry
  shadow : TblDesc
  log : List (Bool × List Byte) := []
  deriving DecidableEq, Repr, Inhabited

/-- A learn waiting at the learn engine (R241): bridge, MAC, IN_DEST. -/
structure Learn where
  bridge : Nat
  mac : Nat
  dest : Nat
  deriving DecidableEq, Repr, Inhabited

/-- A conntrack commit waiting at the internal port (R247): the frame, and the two lines. -/
structure Commit where
  tok : Nat
  orig : List Byte
  reply : List Byte
  deriving DecidableEq, Repr, Inhabited

structure FwdPart where
  /-- descriptors of tables 1, 2, 3, 4 and 6 -/
  desc : Kv TblDesc := []
  bridges : Kv Bridge := []
  pools : Kv NatPool := []
  tens : Kv TenFwd := []
  rehash : List Rehash := []
  learns : List Learn := []
  commits : List Commit := []
  /-- connections in which one direction has sent FIN: original key, and that the reply direction did (R251) -/
  fins : Kv Bool := []
  /-- FWD_TICK_NOW -/
  now : Nat := 0
  /-- bucket the sweep visits next, per table 0, 1, 2 -/
  sweep : List Nat := [0, 0, 0]
  /-- the present pass only stamps lines: ageing was enabled again (R246) -/
  stamp : List Bool := [false, false, false]
  deriving DecidableEq, Repr, Inhabited

end Sys2Proof.Machine
end

