-- ==== Sys2Proof/Machine/StateGlb.lean ====
section
/-! DEFINITION. State of the device's frame (R13 to R37, R548 to R566): the Square, the exception queues,
HBM, the journals, and what leaves the device. -/

namespace Sys2Proof.Machine

/-- What the Crossing found out about a frame (R200 to R209, R223). -/
structure Cls where
  /-- SOURCE as R204 codes it: port 0 to 15, 0x40 and 0x41 the host ports, 0x60 re-entry -/
  source : Nat := 0
  ptype : Nat := 0
  reason : Nat := 0
  bytes : Nat := 0
  payload : Nat := 0
  /-- start of the header in layer slots 1 to 8 -/
  slots : List (Option Nat) := List.replicate 8 none
  hash : Nat := 0
  tv : Bool := false
  ten : Nat := 0
  hv : Bool := false
  handler : Nat := 0
  sv : Bool := false
  steer : Nat := 0
  ringF : Nat := 0
  hprof : Nat := 0
  av : Bool := false
  action : Nat := 0
  /-- ring LOCAL chosen -/
  ring : Option Nat := none
  l3ok : Bool := false
  l4ok : Bool := false
  l3chk : Bool := false
  l4chk : Bool := false
  deriving DecidableEq, Repr, Inhabited

/-- A NAT chosen and not yet committed (R247, R250): the destination is rewritten, the new and the old
address and port. -/
structure NatSel where
  dst : Bool
  addr : Nat
  port : Nat
  oldAddr : Nat
  oldPort : Nat
  deriving DecidableEq, Repr, Inhabited

/-- Where a frame stands in forwarding (R226, R257): the list entry and the word to run next, whether the
frame has begun, words run, frame bytes on entry, FLOW_MARK, the NAT pending, the zone of the last CT word,
IN_DEST of the flood in progress, whether it was decrypted, whether a template was put in front (R254), whether
a parse of inner headers failed (R255), and whether it waits for a conntrack commit (R247). -/
structure Fwd where
  idx : Nat := 0
  word : Nat := 0
  run : Nat := 0
  bytes : Nat := 0
  mark : Nat := 0
  nat : Option NatSel := none
  zone : Nat := 0
  inDest : Option Nat := none
  decrypted : Bool := false
  encap : Bool := false
  noFlow : Bool := false
  waits : Bool := false
  deriving DecidableEq, Repr, Inhabited

/-- Where a packet is. -/
inductive Stage where
  /-- waits for the Crossing -/
  | arrived
  /-- in the re-entry queue (R195) -/
  | reentry
  /-- waits for forwarding -/
  | classified
  /-- suspended in forwarding -/
  | forward (f : Fwd)
  /-- with a bulk AEAD engine for a CRYPT word (R256, R284) -/
  | crypt (ctx : Nat) (encrypt : Bool) (f : Fwd)
  /-- for a ring of a tenancy: LOCAL, FLOW_MARK, decrypted -/
  | toRing (ten loc mark : Nat) (decrypted : Bool)
  /-- for the manager's exception ring, with its reason -/
  | excRing (reason : Nat)
  /-- for a handler; held by a packet core -/
  | handler (h : Nat)
  | core (c : Nat)
  /-- for the context engine, under a context (R292) -/
  | context (c : Nat)
  /-- a TX job's frame that its entry's context protects first (R284) -/
  | txCrypt (ctx : Nat)
  /-- in a port's transmit queue -/
  | port (p : Nat)
  /-- held by a standby twin (R443) -/
  | held
  deriving DecidableEq, Repr, Inhabited

/-- A packet in the Square (R21), named by its token, the index of its first cell. -/
structure Packet where
  /-- the pool its cells are charged to (R24, R26) -/
  pool : Nat
  /-- cells it holds; a copy made by MIRROR shares the cells of its origin (R243) -/
  cells : Nat
  shares : Option Nat := none
  data : List Byte
  stage : Stage := .arrived
  cls : Cls := {}
  /-- an uncorrectable error lies in its data (R31) -/
  poison : Bool := false
  /-- tenancy and generation it was classified under (R82), and that the Shutter was OPEN then (R81) -/
  tenV : Bool := false
  ten : Nat := 0
  gen : Word := 0
  clsOpen : Bool := false
  /-- network port of arrival (0 to 15), 16 and 17 the host ports, 18 the device itself -/
  port : Nat := 0
  /-- PCS receive time, local ns (R111, R393) -/
  ts : Nat := 0
  /-- the TX job whose frame it is, and its traffic class (R110) -/
  job : Option (Nat × Nat) := none
  tc : Nat := 0
  /-- cells of pool 18 that crypto expansion took (R26) -/
  ext : Nat := 0
  /-- protected stream, sequence number, and that it came through the peer's mirror path (R440) -/
  twin : Option (Nat × Nat × Bool) := none
  /-- the context that built it (R292) -/
  ctx : Option Nat := none
  deriving DecidableEq, Repr, Inhabited

/-- One Square pool (R24, R25): cells charged, and the minimum and cap in effect. -/
structure Pool where
  used : Nat := 0
  min : Nat
  max : Nat
  deriving DecidableEq, Repr, Inhabited

/-- R26: the pools at reset. -/
def Pool.resetOf (n : Nat) : Pool :=
  { min := if n < 16 then 0x2000 else if n = 18 then 0x8000 else 0x4000, max := 0x60000 }

/-- The Square (R21): its pools and packets. -/
structure Square where
  pools : List Pool := (List.range 20).map Pool.resetOf
  pkts : Kv Packet := []
  deriving DecidableEq, Repr, Inhabited

/-- A record of an exception queue (R15): a frame with its reason code (R202), or a poisoned table entry
(R31). -/
structure ExcRec where
  reason : Nat
  token : Nat := 0
  ten : Nat := 0
  handler : Nat := 0
  info : List Byte := []
  deriving DecidableEq, Repr, Inhabited

/-- The three exception queues (R15), each of 4,096 records, oldest first. -/
structure ExcQueues where
  slow : List ExcRec := []
  ring : List ExcRec := []
  fwd : List ExcRec := []
  deriving DecidableEq, Repr, Inhabited

/-- HBM (R28 to R31): bytes by address, an unlisted byte reading 0 (DESIGN CHOICE, log 5), and the poison
marks by 64-byte line address. Structures of the reserved range (contexts, key slots, ring and tenancy
state, journals, images) are held as fields of their own (DESIGN CHOICE, log 6). -/
structure Hbm where
  cells : List (Nat × Byte) := []
  poison : List Nat := []
  deriving DecidableEq, Repr, Inhabited

/-- A record of the admin journal (R562). -/
structure AdmRec where
  seq : Nat
  time : Nat
  pf : Nat
  opc : Nat
  status : Nat
  detail : Nat
  tag : Nat
  dwords : List Dword
  deriving DecidableEq, Repr, Inhabited

/-- Who posted a record to the table-update engine: control firmware for an admin command, with the command,
its opcode, and the DETAIL and LEN of the completion that its last record brings. -/
inductive Poster where
  | firmware
  | adm (e : AdmEntry) (opc detail len : Nat) (last : Bool)
  deriving DecidableEq, Repr, Inhabited

/-- A record of the table-update engine (R216). -/
structure TueRec where
  op : Nat
  table : Nat := 0
  index : Nat := 0
  /-- COUNT or WORD -/
  count : Nat := 0
  cmp : Dword := 0
  cmask : Dword := 0
  payload : List Byte := []
  seq : Nat := 0
  poster : Poster := .firmware
  deriving DecidableEq, Repr, Inhabited

/-- A record of the table-update journal (R563): outcome 0 APPLIED, 1 CAS_FAIL, 2 BAD. -/
structure TblRec where
  seq : Nat
  record : TueRec
  time : Nat
  outcome : Nat
  deriving DecidableEq, Repr, Inhabited

/-- Planes and their watchdogs (R18, R68). -/
structure Planes where
  /-- the control cluster runs -/
  ctlUp : Bool := true
  /-- the management controller runs -/
  mgmtUp : Bool := true
  deriving DecidableEq, Repr, Inhabited

/-- The state of this chapter that is not a register. -/
structure GlbPart where
  square : Square := {}
  exc : ExcQueues := {}
  planes : Planes := {}
  admSeq : Nat := 0
  admJournal : List AdmRec := []
  /-- the table-update engine's queue (R16, R216), the journal of its records (R563), the next SEQ of a record -/
  tueQ : List TueRec := []
  tblSeq : Nat := 0
  tblJournal : List TblRec := []
  recSeq : Nat := 0
  deriving DecidableEq, Repr, Inhabited

end Sys2Proof.Machine
end

