-- ==== Sys2Proof/Machine/StateMgt.lean ====
section
/-! DEFINITION. State of the Wickets and of the management controller (R459 to R486). -/

namespace Sys2Proof.Machine

/-- A Wicket (R460, R465); its binding and its send buffer are its registers WKT_BIND_w and WKT_BUF_w_i. -/
structure Wicket where
  slot : List Byte := List.replicate 64 0#8
  full : Bool := false
  collide : Bool := false
  seq : Nat := 0
  ackSeq : Nat := 0
  ackCode : Nat := 0
  snap : List Byte := List.replicate 64 0#8
  snapSeq : Nat := 0
  /-- a snapshot of a FULL slot was taken since the last TAKE -/
  taken : Bool := false
  deriving DecidableEq, Repr, Inhabited

/-- An image of the flash (R474): its header of 8,192 bytes and its body. -/
structure FwImage where
  header : List Byte
  body : List Byte
  deriving DecidableEq, Repr, Inhabited

/-- A flash bank (R473): its descriptor, its images by KIND, and the certificate chains of slots 0 and 1. -/
structure FwBank where
  valid : Bool := false
  bseq : Nat := 0
  images : Kv FwImage := []
  certs : List (List Byte) := [[], []]
  deriving DecidableEq, Repr, Inhabited

/-- The fuses (R474, R477, R482, R479): KEYHASH 0 to 3, revoked keys, SVN, DBG_STATE, DBGKEY, the device secret. -/
structure Fuses where
  keyHash : List (List Byte) := List.replicate 4 (List.replicate 48 0#8)
  revoked : List Bool := List.replicate 4 false
  svn : Nat := 0
  dbgState : Nat := 0
  dbgKey : List Byte := List.replicate 48 0#8
  secret : List Byte := List.replicate 32 0#8
  deriving DecidableEq, Repr, Inhabited

/-- A secured SPDM session (R480): its identifier, its requester, and whether FINISH has completed it. -/
structure SpdmSession where
  id : Nat
  port : Nat
  up : Bool := false
  /-- key updates so far -/
  keys : Nat := 0
  deriving DecidableEq, Repr, Inhabited

structure MgtPart where
  wickets : Kv Wicket := []
  banks : List FwBank := [{}, {}]
  fuses : Fuses := {}
  /-- the firmware runs (otherwise the boot ROM), and from which bank -/
  fw : Bool := false
  bank : Nat := 0
  /-- control firmware and core bundle that run: their bank -/
  ctlBank : Nat := 0
  failedKind : Nat := 0
  mixed : Bool := false
  debugOpen : Bool := false
  /-- sensors as sampled last: temperatures in 0.125 °C, rail powers in mW -/
  temps : List Int := List.replicate 12 0
  powers : List Nat := List.replicate 12 0
  /-- SPDM: how far a requester has come (1 version, 2 capabilities, 3 algorithms); sessions; chunks of a large request; a large
  response to be fetched -/
  spdm : Kv Nat := []
  sessions : List SpdmSession := []
  nextSession : Nat := 0
  chunkIn : Kv (List Byte) := []
  chunkOut : Kv (List Byte) := []
  /-- bytes of an MCTP packet in transfer on SMBus (R538) -/
  smb : List Byte := []
  jtag : JtagInst := .idcode
  deriving DecidableEq, Repr, Inhabited

end Sys2Proof.Machine
end

