-- ==== Sys2Proof/Machine/StateOut.lean ====
section
/-! DEFINITION. What leaves the device: the model's own record (DESIGN CHOICE, log 2), oldest first. -/

namespace Sys2Proof.Machine

/-- One thing the device sent. -/
inductive Out where
  /-- a posted write to host memory by a function, with its PASID and Relaxed Ordering (R49, R54) -/
  | hostWrite (fn : Fn) (pasid : Option Nat) (addr : Nat) (data : List Byte) (relaxed : Bool)
  /-- a completion or event entry at a ring position (admin rings: pf) (R111, R134) -/
  | cqe (adm : Bool) (ring pos : Nat) (addr : Nat) (e : Cqe)
  /-- a progress index (R128) or Retas PI write-back (R135) -/
  | progress (q addr : Nat) (v : Dword)
  | retasPi (ring addr v : Nat)
  /-- a word of a dirty-page bitmap read, ORed and written back as DMA of a PF (R94, R95) -/
  | dirtyOr (pf addr : Nat) (bits : Dword)
  /-- an MSI-X message (R568), an interrupt message table message (R100), a PME (R58) -/
  | msix (fn : Fn) (vec addr : Nat) (data : Word)
  | imtMsg (idx addr : Nat) (data : Word)
  | pme (pf : Nat)
  /-- a read request, a translation request, a page request, an invalidation completion -/
  | readReq (port tag : Nat) (fn : Fn) (addr len : Nat)
  | xlatReq (port id : Nat) (fn : Fn) (pasid : Option Nat) (page : Nat)
  | pageReq (port group : Nat) (fn : Fn) (page : Nat)
  | invDone (port itag : Nat)
  /-- an LTR message, its value in ns (R56) -/
  | ltr (port ns : Nat)
  /-- a completion to a host read of BAR4 or configuration space -/
  | readDone (port : Nat) (data : List Byte)
  | unsupportedReq (port : Nat)
  | retryStatus (port : Nat)
  /-- a frame on a network port, on the service bus, or a message of the device's own protocols -/
  | frame (port : Nat) (data : List Byte) (badFcs : Bool)
  | svbFrame (data : List Byte)
  | message (kind : Nat) (port : Nat) (data : List Byte)
  /-- a level or pulse on a pin -/
  | pin (name : String) (level : Bool)
  deriving DecidableEq, Repr

end Sys2Proof.Machine
end

