-- ==== Sys2Proof/Machine/StatePort.lean ====
section
/-! DEFINITION. State of the network ports and of the service bus (R171 to R194). -/

namespace Sys2Proof.Machine

/-- The Dimming handshake of a port (R180 to R184). -/
structure Dim where
  /-- the partner is recognised (R182) -/
  wiwald : Bool := false
  /-- active widths of the transmit and the receive direction; 0 while the link is down -/
  txW : Nat := 0
  rxW : Nat := 0
  /-- consecutive windows with U below DIM_LOW; the last window met the restore condition -/
  dwell : Nat := 0
  above : Bool := false
  /-- SEQ of the last PROPOSE or RESTORE sent -/
  seq : Nat := 0
  /-- PROPOSE outstanding: SEQ and TARGET -/
  prop : Option (Nat × Nat) := none
  /-- RESTORE outstanding: SEQ -/
  rest : Option Nat := none
  /-- width a handshake has agreed on, until both directions have moved to it -/
  target : Option Nat := none
  deriving DecidableEq, Repr, Inhabited

/-- A network port (R172 to R189). -/
structure Port where
  link : Bool := false
  localFault : Bool := false
  remoteFault : Bool := false
  dim : Dim := {}
  /-- classes held by received PAUSE or PFC (R177) -/
  held : List Nat := []
  /-- a transmitted pause is in force -/
  xoff : Bool := false
  /-- tokens of the frames queued for transmission, oldest first -/
  txq : List Nat := []
  /-- live counters and the snapshot bank (R188, R189); the bank is being read out -/
  counters : Kv Nat := []
  bank : Kv Nat := []
  reading : Bool := false
  snapSeq : Nat := 0
  /-- transmit, receive in LPI (R185) -/
  lpiTx : Bool := false
  lpiRx : Bool := false
  deriving DecidableEq, Repr, Inhabited

/-- The service bus (R190 to R193). -/
structure Svb where
  /-- frames waiting, each with the PWR_WAKE_PEER that completes when it is sent (R524) -/
  txq : List (List Byte × Option AdmEntry) := []
  plcaActive : Bool := false
  link : Bool := false
  /-- an MDIO access in progress: read, PHY address, register, data -/
  mdio : Option (Bool × Nat × Nat × Nat) := none
  deriving DecidableEq, Repr, Inhabited

structure PortPart where
  ports : Kv Port := []
  /-- PORT_GRP_MODE_g applied (R173) -/
  modes : List Word := [1#32, 1#32]
  svb : Svb := {}
  deriving DecidableEq, Repr, Inhabited

end Sys2Proof.Machine
end

