-- ==== Sys2Proof/Machine/StatePwr.lean ====
section
/-! DEFINITION. State of start-up, power and clocks (R506 to R525). -/

namespace Sys2Proof.Machine

structure PwrPart where
  /-- R513: 0 FULL, 1 DIM, 2 QUIET, 3 ENTERING, 4 LEAVING -/
  state : Nat := 0
  /-- clocks stopped (R513, R516, R518): packet clusters, Crossing and forwarding, engines, control -/
  stopC : Bool := false
  stopP : Bool := false
  stopE : Bool := false
  stopK : Bool := false
  /-- VDD_AON is out of range (R535); RAILS_OK; PERST0_N and PERST1_N asserted; REFCLK_SYS lost; rails that rose out of order -/
  off : Bool := false
  rails : Bool := true
  perst : List Bool := [false, false]
  clkLost : Bool := false
  badRails : List Nat := []
  /-- R472: the thermal trip -/
  trip : Bool := false
  /-- R520: the caps in MHz, and the CCLK of each cluster -/
  thermal : Nat := 2000
  powerCap : Nat := 2000
  /-- R520: the cap that cluster 15 of a paired device has been stepped to -/
  cap15 : Nat := 2000
  cclk : List Nat := List.replicate 16 2000
  /-- CCLK counted by each cluster, in thousandths (mcycle, R348) -/
  cycles : List Nat := List.replicate 16 0
  /-- local ns at which Quiet was entered -/
  quietAt : Nat := 0
  deriving DecidableEq, Repr, Inhabited

end Sys2Proof.Machine
end

