-- ==== Sys2Proof/Machine/StateTen.lean ====
section
/-! DEFINITION. State of the tenancies and of the interrupt message table (R72 to R104). -/

namespace Sys2Proof.Machine

/-- A share (R86): WEIGHT, FLOOR and CEILING (100 Mb/s units). -/
structure Share where
  weight : Nat := 0
  floor : Nat := 0
  ceiling : Nat := 0
  deriving DecidableEq, Repr, Inhabited

/-- What a tenancy is bound to (R74): its owning PF or a VF of it with the slot, and a PASID if it has one. -/
structure Binding where
  isVf : Bool
  vf : Nat
  slot : Nat
  pasid : Option Nat
  deriving DecidableEq, Repr, Inhabited

/-- The dirty-page log (R94, R95): the range, the two buffers, the current epoch, its OOR flag, the pages
whose bits this epoch has set, bitmap words that wait for the owning PF (R567), and the flush and stop
commands that wait for their reads. -/
structure PageLog where
  base : Nat
  pages : Nat
  bufA : Nat
  bufB : Nat
  oor : Bool := false
  marked : List Nat := []
  held : List (Nat × Nat) := []
  /-- LOG_STOP has ended the last epoch: nothing more is logged (R97) -/
  stopped : Bool := false
  /-- LOG_FLUSH and LOG_STOP waiting for their zero-length reads (R96, R97), oldest first: the command,
  stop, the OOR flag and the buffer of the epoch that ended -/
  waiting : List (AdmEntry × Bool × Bool × Nat) := []
  deriving DecidableEq, Repr, Inhabited

/-- A tenancy (R72 to R98). The default record is a FREE tenancy never used. -/
structure Ten where
  /-- R76: 0 FREE, 1 CREATED, 2 BOUND, 3 OPEN, 4 DRAINING, 5 RESETTING -/
  st : Nat := 0
  gen : Word := 0
  /-- owning PF (R72) -/
  owner : Nat := 0
  /-- quotas (R79) -/
  rings : Nat := 0
  ctxs : Nat := 0
  keys : Nat := 0
  binding : Option Binding := none
  /-- share in effect while bound, recorded share while CREATED (R90) -/
  share : Share := {}
  /-- share waiting for the round boundary, and the commands that wait with it, oldest first (R90) -/
  waitShare : Option Share := none
  waitCmds : List AdmEntry := []
  /-- ceiling bucket and floor credit, bytes; either may fall below zero by a job (R123) -/
  bucket : Int := 0
  credit : Int := 0
  log : Option PageLog := none
  /-- epoch of the log, kept when the log stops (TEN_LOG_EPOCH_t) -/
  epoch : Nat := 0
  /-- the TEN_CLOSE that drains it, with its ABORT flag (R84) -/
  closing : Option (AdmEntry × Bool) := none
  /-- the TEN_RESET or TEN_UNBIND that waits for the reset in progress -/
  resetCmd : Option AdmEntry := none
  unbindCmd : Option AdmEntry := none
  /-- after the reset the tenancy goes on to CREATED: VF Enable was cleared (R77) -/
  resetUnbinds : Bool := false
  /-- a RESET event is due at the next TEN_OPEN (R92) -/
  resetEvent : Bool := false
  /-- ring round of the tenancy (R123): LOCAL of the ring last served and turns it has left -/
  lastRing : Nat := 511
  ringTurns : Nat := 0
  deriving DecidableEq, Repr, Inhabited

/-- An entry of the interrupt message table (R100). -/
structure Imt where
  v : Bool := false
  mask : Bool := false
  pend : Bool := false
  ten : Nat := 0
  data : Word := 0
  addr : Nat := 0
  deriving DecidableEq, Repr, Inhabited

/-- Scheduler of one host port (R123): the tenancy of the last weighted turn, and the turns each tenancy
has left in this round. -/
structure HostSched where
  last : Nat := 4095
  turns : Kv Nat := []
  deriving DecidableEq, Repr, Inhabited

structure TenPart where
  tens : Kv Ten := []
  imt : Kv Imt := []
  sched : List HostSched := [{}, {}]
  deriving DecidableEq, Repr, Inhabited

end Sys2Proof.Machine
end

