-- ==== Sys2Proof/Machine/StateTime.lean ====
section
/-! DEFINITION. State of the time counters, timestamps and the Timetable (R385 to R408). -/

namespace Sys2Proof.Machine

/-- A time domain (R385): seconds, nanoseconds, fraction in units of 2^-32 ns, and its increment in 8.32
fixed point. -/
structure Domain where
  sec : Nat := 0
  ns : Nat := 0
  frac : Nat := 0
  inc : Nat := 0x100000000
  deriving DecidableEq, Repr, Inhabited

/-- A trigger pin (R403 to R405): the parameters in effect, the time of the next pulse, and its captures. -/
structure Tio where
  armed : Bool := false
  periodic : Bool := false
  /-- ns of local time of the next pulse -/
  next : Nat := 0
  period : Nat := 0
  width : Nat := 0
  /-- captures, oldest first: ns of local time -/
  caps : List Nat := []
  deriving DecidableEq, Repr, Inhabited

/-- A gate list (R398): base and cycle in ns, entries (gates, interval). -/
structure GateList where
  base : Nat
  cycle : Nat
  entries : List (Nat × Nat)
  deriving DecidableEq, Repr, Inhabited

/-- The Timetable of a port (R398 to R401). -/
structure TimeTable where
  oper : Option GateList := none
  /-- pending list, its first cycle start, and the TT_LOAD that waits -/
  pend : Option (GateList × Nat × AdmEntry) := none
  /-- entry in effect, its nominal start and end, λ in ns -/
  cur : Nat := 0
  start : Nat := 0
  stop : Nat := 0
  lag : Nat := 0
  deriving DecidableEq, Repr, Inhabited

structure TimePart where
  /-- domains A and B -/
  a : Domain := {}
  b : Domain := {}
  /-- carried offset C, in units of 2^-32 ns (R388) -/
  carry : Int := 0
  /-- the selected domain is B -/
  selB : Bool := false
  locked : Bool := false
  /-- TIME_STAT.REF_LOST (R390) -/
  refLost : Bool := false
  snapSeq : Nat := 0
  tio : List Tio := List.replicate 8 {}
  /-- time page of each tenancy that has one enabled (R396, R407) -/
  pages : Kv Nat := []
  tts : Kv TimeTable := []
  /-- ports whose transmit timestamp latch has not been read (R394) -/
  txtsNew : List Nat := []
  deriving DecidableEq, Repr, Inhabited

end Sys2Proof.Machine
end

