-- ==== Sys2Proof/Machine/StateToll.lean ====
section
/-! DEFINITION. State of the Tollhouse (R487 to R505). -/

namespace Sys2Proof.Machine

/-- A journal entry (R496): SEQ, metre time, TYPE, account or cause, ACC_GEN, and bytes 24 to 71. -/
structure TollEntry where
  seq : Nat
  time : Nat
  type : Nat
  what : Nat := 0
  gen : Nat := 0
  body : List Byte := []
  prev : List Byte
  deriving DecidableEq, Repr, Inhabited

/-- A checkpoint (R499): what it holds. -/
structure TollCheck where
  time : Nat
  counts : Kv Nat
  gens : Kv Nat
  rdgSeq : Nat
  jseq : Nat
  deriving DecidableEq, Repr, Inhabited

/-- What a Shutter sends on the tap link (R489, R490, R492): a delta of an account, its state record (Shutter OPEN, WEIGHT), or
the marker of TEN_DESTROY. -/
inductive TapRec where
  | delta (t q n : Nat)
  | state (t : Nat) (open_ : Bool) (weight : Nat)
  | marker (t : Nat)
  deriving DecidableEq, Repr

structure TollPart where
  /-- accumulators of the Shutters by 8 × (4,096 × host port + tenancy) + quantity (R489) -/
  acc : Kv Nat := []
  /-- records sent on the tap link and not taken yet -/
  link : List TapRec := []
  /-- VDD_TOLL in range, TL_RST_N high, crystal good, and started (TOLL_STAT.RUNNING) -/
  power : Bool := true
  rstN : Bool := true
  running : Bool := true
  tapUp : Bool := false
  /-- metre time, ms -/
  metre : Nat := 0
  /-- metre time at which the last state record arrived -/
  stateAt : Nat := 0
  /-- counts by 8 × account + quantity, ACC_GEN by account (R491) -/
  counts : Kv Nat := []
  gens : Kv Nat := []
  /-- Shutter OPEN and WEIGHT of the last state record, by account -/
  open_ : List Nat := []
  weights : Kv Nat := []
  sealed : Bool := false
  periodMin : Nat := 60
  checkS : Nat := 60
  label : List Byte := List.replicate 16 0#8
  /-- the configuration block of the flash (R503) -/
  config : List Byte := []
  /-- readings: SEQ of the next, the two slots, slot of the latest, one being signed (its bytes without signature) -/
  rdgSeq : Nat := 0
  slots : List (List Byte) := [[], []]
  last : Nat := 0
  signing : Option (List Byte) := none
  /-- metre time at which the period began, and tamper or tap-down entries in it -/
  start : Nat := 0
  tamperIn : Bool := false
  downIn : Bool := false
  powerCnt : Nat := 0
  tamperCnt : Nat := 0
  /-- journal, newest last, SEQ of the next entry, entries lost, an entry overwritten, flash fault -/
  journal : List TollEntry := []
  jseq : Nat := 0
  jlost : Nat := 0
  wrapped : Bool := false
  flashFault : Bool := false
  checks : Option TollCheck := none
  /-- metre time of the POWER_LOSS entry of the last stop, and whether the stop was a TL_RST_N assertion -/
  lossAt : Option Nat := none
  byReset : Bool := false
  deriving DecidableEq, Repr, Inhabited

end Sys2Proof.Machine
end

