-- ==== Sys2Proof/Machine/StateTwin.lean ====
section
/-! DEFINITION. State of the twins (R436 to R458). -/

namespace Sys2Proof.Machine

/-- A protected stream (R440, R442): its settings and its vector recovery: the recovery sequence number (none:
any number is taken), which of the last HIST numbers have been seen (the recovery number first), and the
digests of their first copies. -/
structure Stream where
  v : Bool := false
  elimCmp : Bool := false
  hist : Nat := 2
  resetMs : Nat := 1
  last : Option Nat := none
  seen : List Bool := []
  digs : Kv Nat := []
  deriving DecidableEq, Repr, Inhabited

/-- A range of sequence numbers of a stream with its digest (R443, R444), and when it was reported. -/
structure DigRange where
  stream : Nat
  first : Nat
  count : Nat
  dig : Nat
  time : Nat := 0
  deriving DecidableEq, Repr, Inhabited

/-- A shadow frame held in pool 18 (R445, R446). -/
structure HeldFrame where
  stream : Nat
  seq : Nat
  tok : Nat
  port : Nat
  time : Nat
  deriving DecidableEq, Repr, Inhabited

/-- A captured protected input (R453). -/
structure CapFrame where
  time : Nat
  stream : Nat
  seq : Nat
  data : List Byte
  deriving DecidableEq, Repr, Inhabited

structure TwinPart where
  /-- R438: 0 UNPAIRED, 1 PAIRING, 2 ACTIVE, 3 STANDBY, 4 LEASE_LOST, 5 SILENCED -/
  role : Nat := 0
  rank : Nat := 0
  mode : Nat := 0
  exercising : Bool := false
  /-- terms of the pair (R436, R456) -/
  peer : Nat := 0
  peerUid : Nat := 0
  table : List Byte := []
  mirror : Nat := 0
  annPorts : Nat := 0
  ringBase : Nat := 0
  ringSize : Nat := 0
  /-- TWIN_PAIR waiting, and the terms of the peer's PAIR -/
  pairCmd : Option AdmEntry := none
  peerPair : Option (List Byte) := none
  pairedAt : Nat := 0
  streams : Kv Stream := []
  held : List HeldFrame := []
  /-- ranges since the last own DIGEST; ranges reported by this twin and by the peer and not yet compared -/
  acc : List DigRange := []
  own : List DigRange := []
  theirs : List DigRange := []
  /-- local ns at which the last DIGEST of the peer arrived; the role it showed -/
  digestAt : Option Nat := none
  peerRole : Nat := 0
  peerLost : Bool := false
  /-- SENT time of the last grant received (R448), of the last own grant, and whether this twin grants -/
  grantRx : Option Nat := none
  grantTx : Nat := 0
  granting : Bool := true
  /-- as a parent: SENT of the last LEASE given and the end of a REVOKE in force, by UID (R448, R449) -/
  leases : Kv Nat := []
  revokes : Kv Nat := []
  /-- a REVOKE is out; the takeover time set -/
  revoking : Bool := false
  takeoverAt : Option Nat := none
  /-- since when the twin has been healthy, or its hold-off runs -/
  holdoffAt : Nat := 0
  /-- a planned swap runs, and the TWIN_SWAP command that waits for it -/
  swapping : Bool := false
  swapCmd : Option AdmEntry := none
  lastSwap : Nat := 0
  /-- the range under self-check, this twin's result and the peer's (R447) -/
  check : Option DigRange := none
  checkOwn : Option Bool := none
  checkPeer : Option Bool := none
  capture : List CapFrame := []
  /-- when a window of the capture was last counted short -/
  shortAt : Option Nat := none
  /-- digests emitted over the last 10 ms: stream, sequence number, digest, time -/
  emitted : List (Nat × Nat × Nat × Nat) := []
  deriving DecidableEq, Repr, Inhabited

end Sys2Proof.Machine
end

