-- ==== Sys2Proof/Machine/State.lean ====
section
/-! DEFINITION. The state of the machine, its faults and refusals, and reset. -/

namespace Sys2Proof.Machine

/-- Everything but the queue of waiting commands. -/
structure Dev where
  /-- BAR0 register words by offset; an unlisted register holds its reset value (R6, R7) -/
  regs : Kv Word := []
  hbm : Hbm := {}
  glb : GlbPart := {}
  hif : HifPart := {}
  ten : TenPart := {}
  ring : RingPart := {}
  dma : DmaPart := {}
  port : PortPart := {}
  cls : ClsPart := {}
  fwd : FwdPart := {}
  cpu : CorePart := {}
  twin : TwinPart := {}
  fab : FabPart := {}
  cry : CryPart := {}
  sto : StoPart := {}
  arc : ArcPart := {}
  toll : TollPart := {}
  mgt : MgtPart := {}
  time : TimePart := {}
  pwr : PwrPart := {}
  /-- the model's record of what left the device (log 2) -/
  out : List Out := []
  /-- the value the last register read returned (log 2) -/
  lastRead : Dword := 0
  /-- serial number of the next free value (log 3) -/
  serial : Nat := 0
  deriving DecidableEq, Repr, Inhabited

/-- The state: the device, and the commands that wait, first in, first out. -/
structure State where
  dev : Dev := {}
  pending : List Instr := []
  deriving DecidableEq, Repr

/-- No command of this model stops with a fault: every row of the table has an effect (the constructor is
never raised; a machine that would raise it would be safe, since it stops). -/
inductive Fault where
  | unreachable
  deriving DecidableEq, Repr

/-- Refusals. -/
inductive Refusal where
  /-- raised by a dispatch arm of a command that has no meaning yet; safe: the machine stops -/
  | notModelled (mnemonic : String)
  deriving DecidableEq, Repr

/-- The machine right after reset. -/
def State.reset : State := {}

end Sys2Proof.Machine
end

