-- ==== Sys2Proof/Machine/Ops.lean ====
section
/-! DEFINITION. The operations every chapter shares: registers, local time, tenancies and functions, the
Shutter, HBM, the Square, host writes. -/

namespace Sys2Proof.Machine

/-! Registers (R6, R7, R9). -/

/-- The word of the register at an offset: the value last stored, or its reset value (R7). -/
def Dev.reg (d : Dev) (off : Nat) : Word := (kvFind off d.regs).getD (regReset off)

/-- Store a register's word; a word equal to the reset value is not listed. -/
def Dev.setReg (d : Dev) (off : Nat) (v : Word) : Dev :=
  { d with regs := kvSet (regReset off) off v d.regs }

/-- A register as a number. -/
def Dev.regN (d : Dev) (off : Nat) : Nat := (d.reg off).toNat

/-- Field [hi:lo] of a register. -/
def Dev.regFld (d : Dev) (off hi lo : Nat) : Nat := fld (d.reg off) hi lo

/-- One bit of a register. -/
def Dev.regBit (d : Dev) (off i : Nat) : Bool := bitOf (d.reg off) i

/-- Set bits of a register. -/
def Dev.setBits (d : Dev) (off : Nat) (mask : Word) : Dev := d.setReg off (d.reg off ||| mask)

/-- Clear bits of a register. -/
def Dev.clrBits (d : Dev) (off : Nat) (mask : Word) : Dev := d.setReg off (d.reg off &&& ~~~mask)

/-- Set one bit of a register. -/
def Dev.setBit (d : Dev) (off i : Nat) : Dev := d.setBits off (BitVec.ofNat 32 (2 ^ i))

/-- Clear one bit of a register. -/
def Dev.clrBit (d : Dev) (off i : Nat) : Dev := d.clrBits off (BitVec.ofNat 32 (2 ^ i))

/-- A 32-bit counter after k more events; what it reads past 0xFFFF_FFFF is free (log 4). -/
def counterAdd (w : Word) (k : Nat) : Word :=
  if w.toNat + k < 2 ^ 32 then w + BitVec.ofNat 32 k else Config.counterPast w k

/-- Count k events in a counter register. -/
def Dev.countN (d : Dev) (off k : Nat) : Dev :=
  if k = 0 then d else d.setReg off (counterAdd (d.reg off) k)

/-- Count one event in a counter register. -/
def Dev.count (d : Dev) (off : Nat) : Dev := d.countN off 1

/-! Free values and output. -/

/-- Draw the serial number of a free value. -/
def Dev.draw (d : Dev) : Nat × Dev := (d.serial, { d with serial := d.serial + 1 })

/-- n free bytes under a serial number. -/
def freeBytes (serial n : Nat) : List Byte := (List.range n).map (Config.freeByte serial)

/-- Record something that leaves the device. -/
def Dev.emit (d : Dev) (o : Out) : Dev := { d with out := d.out ++ [o] }

/-! Local time (R385, R388, R391). -/

/-- A domain's counter in units of 2^-32 ns. -/
def Domain.total (x : Domain) : Int := ((x.sec * 1000000000 + x.ns) * 4294967296 + x.frac : Nat)

/-- Local time L in units of 2^-32 ns: the selected domain plus the carried offset (R388). -/
def Dev.localTotal (d : Dev) : Int :=
  (if d.time.selB then d.time.b.total else d.time.a.total) + d.time.carry

/-- Local time in ns, the form of the time page (R396). -/
def Dev.nowNs (d : Dev) : Nat := (d.localTotal / 4294967296).toNat

/-- Low 32 bits of local time in ns: TS of completions and progress indices (R111, R128). -/
def Dev.ts32 (d : Dev) : Nat := d.nowNs % 2 ^ 32

/-! Functions (R39, R45, R58, R567). -/

def Dev.fnGet (d : Dev) (f : Fn) : FnCfg := kvGet {} d.hif.fns f.key

def Dev.fnPut (d : Dev) (f : Fn) (c : FnCfg) : Dev :=
  { d with hif := { d.hif with fns := kvSet {} f.key c d.hif.fns } }

/-- R45, R58: a VF takes the D-state of its PF. -/
def Dev.fnD3 (d : Dev) (f : Fn) : Bool := (d.fnGet (.pf f.pfOf)).d3

/-- R58, R567: the function may issue no memory request now. -/
def Dev.fnHeld (d : Dev) (f : Fn) : Bool := d.fnD3 f || !(d.fnGet f).bme

def Dev.hifPort (d : Dev) (p : Nat) : HifPort := d.hif.ports.getD p {}

def Dev.setHifPort (d : Dev) (p : Nat) (x : HifPort) : Dev :=
  { d with hif := { d.hif with ports := d.hif.ports.set p x } }

/-- A VF exists: below the PF's applied TotalVFs (R40) and its NumVFs, with VF Enable set (R74). -/
def Dev.vfExists (d : Dev) (p v : Nat) : Bool :=
  decide (v < d.hif.applied.getD p 0 % 2048) && decide (v < (d.fnGet (.pf p)).numVfs) &&
    (d.fnGet (.pf p)).vfEnable

/-- R40: the VFs of the PF are of NVMe class. -/
def Dev.vfNvme (d : Dev) (p : Nat) : Bool := decide (d.hif.applied.getD p 0 / 0x8000 % 2 = 1)

/-! Tenancies (R72 to R92). -/

def Dev.tenGet (d : Dev) (t : Nat) : Ten := kvGet {} d.ten.tens t

def Dev.tenPut (d : Dev) (t : Nat) (x : Ten) : Dev :=
  { d with ten := { d.ten with tens := kvSet {} t x d.ten.tens } }

/-- The function a tenancy is bound to (R74). -/
def Ten.fn (x : Ten) : Option Fn :=
  x.binding.map (fun b => if b.isVf then .vf x.owner b.vf else .pf x.owner)

def Ten.pasid (x : Ten) : Option Nat := x.binding.bind (·.pasid)

/-- The function of a tenancy; its owning PF while it is not bound. -/
def Dev.tenFn (d : Dev) (t : Nat) : Fn := (d.tenGet t).fn.getD (.pf (d.tenGet t).owner)

/-- The host port a tenancy's DMA uses (R39). -/
def Dev.tenPort (d : Dev) (t : Nat) : Nat := (d.tenFn t).port

/-- R76: the Shutter is OPEN; the Shutter is DRAINING. -/
def Dev.shutOpen (d : Dev) (t : Nat) : Bool := decide ((d.tenGet t).st = 3)
def Dev.shutDraining (d : Dev) (t : Nat) : Bool := decide ((d.tenGet t).st = 4 ∨ (d.tenGet t).st = 5)

/-- R81, R82: a result of the tenancy passes the Shutter. -/
def Dev.shutPass (d : Dev) (t : Nat) (gen : Word) : Bool :=
  (d.shutOpen t || d.shutDraining t) && decide ((d.tenGet t).gen = gen)

/-- A result the Shutter discarded (R81, R82). -/
def Dev.discard (d : Dev) (t : Nat) : Dev := d.count (Reg.TEN_DISCARD t)

/-- R489: the Shutter of the tenancy's host port adds to an accumulator; R490: q 0 DELIVERED, 1 ACCEPTED, 2 SHARD_WR, 3 SHARD_RD,
4 HANDSHAKES. A result that the Shutter discards is never added. -/
def Dev.tollAdd (d : Dev) (t : Nat) (gen : Word) (q n : Nat) : Dev :=
  if !d.shutPass t gen ∨ n = 0 then d
  else
    let k := 8 * (4096 * d.tenPort t + t) + q
    { d with toll := { d.toll with acc := kvPut k (kvGet 0 d.toll.acc k + n) d.toll.acc } }

/-- Insert into a rising list without repeats. -/
def insertNat (x : Nat) : List Nat → List Nat
  | [] => [x]
  | y :: r => if x < y then x :: y :: r else if x = y then y :: r else y :: insertNat x r

/-- R94, R95: mark the pages a logged write touches in the epoch in effect; answers the pages newly marked. -/
def PageLog.mark (l : PageLog) (addr len : Nat) : PageLog × List Nat :=
  if len = 0 ∨ l.stopped then (l, [])
  else
    let first := addr / 4096
    let pages := (List.range ((addr + len - 1) / 4096 - first + 1)).map (first + ·)
    let inR := fun p => decide (l.base / 4096 ≤ p ∧ p < l.base / 4096 + l.pages)
    let new := ((pages.filter inR).map (· - l.base / 4096)).filter (fun p => !l.marked.contains p)
    ({ l with oor := l.oor || pages.any (fun p => !inR p), marked := new.foldl (fun m p => insertNat p m) l.marked },
     new)

/-- A bitmap word written as DMA of the owning PF, or held while the PF may issue no request (R94, R567). -/
def Dev.dirtyWrite (d : Dev) (t addr bits : Nat) : Dev :=
  let x := d.tenGet t
  if d.fnHeld (.pf x.owner) then
    d.tenPut t { x with log := x.log.map (fun l => { l with held := l.held ++ [(addr, bits)] }) }
  else d.emit (.dirtyOr x.owner addr (BitVec.ofNat 64 bits))

/-- R94: log a host-memory write of the tenancy, if logging is on. -/
def Dev.logWrite (d : Dev) (t addr len : Nat) : Dev :=
  match (d.tenGet t).log with
  | none => d
  | some l =>
    let (l', new) := l.mark addr len
    let buf := if (d.tenGet t).epoch % 2 = 0 then l.bufA else l.bufB
    new.foldl (fun d n => d.dirtyWrite t (buf + n / 64 * 8) (2 ^ (n % 64)))
      (d.tenPut t { d.tenGet t with log := some l' })

/-- A data write of a tenancy: through its Shutter with its PASID, logged (R49, R81, R82, R94). -/
def Dev.tenWrite (d : Dev) (t : Nat) (gen : Word) (addr : Nat) (data : List Byte) (relaxed : Bool) :
    Dev :=
  if d.shutPass t gen then
    (d.emit (.hostWrite (d.tenFn t) (d.tenGet t).pasid addr data
      (relaxed && (d.fnGet (d.tenFn t)).relaxed))).logWrite t addr data.length
  else d.discard t

/-- A write by the device as DMA of a PF without a PASID: results of admin commands. -/
def Dev.pfWrite (d : Dev) (pf addr : Nat) (data : List Byte) : Dev :=
  if data.isEmpty then d else d.emit (.hostWrite (.pf pf) none addr data false)

/-! HBM (R28, R30, R31). -/

/-- R28: first address of the reserved range, and of what does not exist. -/
def hbmReserved : Nat := 0x2C00000000
def hbmEnd : Nat := 0x3000000000

def Hbm.byte (h : Hbm) (a : Nat) : Byte := (kvFind a h.cells).getD 0#8

def Hbm.bytes (h : Hbm) (a n : Nat) : List Byte := (List.range n).map (fun i => h.byte (a + i))

/-- R31: a line carries the poison mark. -/
def Hbm.poisoned (h : Hbm) (a n : Nat) : Bool :=
  h.poison.any (fun l => decide (l * 64 < a + n ∧ a < l * 64 + 64))

/-- Write bytes. A write that covers a whole poisoned line clears its mark; a poisoned line written in
part keeps the mark (R31). -/
def Hbm.write (h : Hbm) (a : Nat) (b : List Byte) : Hbm :=
  { cells := (b.zipIdx).foldl (fun m p => kvSet 0#8 (a + p.2) p.1 m) h.cells
    poison := h.poison.filter (fun l => !decide (a ≤ l * 64 ∧ l * 64 + 64 ≤ a + b.length)) }

def Dev.hbmWrite (d : Dev) (a : Nat) (b : List Byte) : Dev := { d with hbm := d.hbm.write a b }

/-- R30: a refused access: counted, and the first offender latched while GLB_STAT.HBM_FW is clear. -/
def Dev.fwRefuse (d : Dev) (a src : Nat) (write : Bool) : Dev :=
  let d := d.count Reg.GLB_HBM_FW_CNT
  if d.regBit Reg.GLB_STAT 2 then d
  else
    ((((d.setReg Reg.GLB_HBM_FW_ADDR_LO (BitVec.ofNat 32 a)).setReg Reg.GLB_HBM_FW_ADDR_HI
      (packW [(a / 2 ^ 32 % 256, 0)])).setReg Reg.GLB_HBM_FW_SRC
      (packW [(b2n write, 8), (src % 256, 0)])).setBit Reg.GLB_STAT 2)

/-- R27, R31: corrected errors are counted; a line in which an uncorrectable error is detected is counted
once and marked, unless it carries the mark; an SRAM error is counted. -/
def Dev.applyEcc (d : Dev) (e : Ecc) : Dev :=
  let d := d.countN Reg.GLB_ECC_CE_CNT e.ce
  let new := e.ueLines.filter (fun a => !d.hbm.poison.contains (a / 64))
  let d := { d with hbm := { d.hbm with poison := new.foldl (fun m a => insertNat (a / 64) m) d.hbm.poison } }
  let k := new.eraseDups.length + e.sramUe
  if k = 0 then d else (d.countN Reg.GLB_ECC_UE_CNT k).setBit Reg.GLB_STAT 3

/-! The Square (R21 to R26). -/

def Square.pool (q : Square) (p : Nat) : Pool := q.pools.getD p (Pool.resetOf p)

/-- R24: cells that hold no packet, and cells that pools still have a right to under their minimums. -/
def Square.free (q : Square) : Nat := 393216 - sumNat (q.pools.map (·.used))
def Square.reserve (q : Square) : Nat := sumNat (q.pools.map (fun p => p.min - p.used))

def Square.charge (q : Square) (p n : Nat) : Square :=
  { q with pools := q.pools.set p { q.pool p with used := (q.pool p).used + n } }

/-- R24: take_cell. none: fail. -/
def Square.takeCell (q : Square) (p : Nat) : Option Square :=
  if (q.pool p).used < (q.pool p).min ∧ 0 < q.free then some (q.charge p 1)
  else if (q.pool p).used < (q.pool p).max ∧ q.reserve < q.free then some (q.charge p 1)
  else none

/-- Take n cells, or fail as a whole: the cells already taken are returned (R24). -/
def Square.takeCells (q : Square) (p : Nat) : Nat → Option Square
  | 0 => some q
  | n + 1 => (q.takeCell p).bind (fun q' => q'.takeCells p n)

/-- Cells a frame of n bytes needs (R21). -/
def cellsOf (n : Nat) : Nat := (n + 255) / 256

/-- Return cells to their pool. -/
def Square.release (q : Square) (p n : Nat) : Square :=
  { q with pools := q.pools.set p { q.pool p with used := (q.pool p).used - n } }

/-- Store a packet in the Square: none when its pool cannot take its cells. The token is the lowest cell
index that names no packet (DESIGN CHOICE, log 8). -/
def Square.store (q : Square) (pk : Packet) : Option (Nat × Square) :=
  let n := cellsOf pk.data.length
  match q.takeCells pk.pool n, kvFirstFree q.pkts 393216 with
  | some q', some tok => some (tok, { q' with pkts := kvPut tok { pk with cells := n } q'.pkts })
  | _, _ => none

def Dev.sq (d : Dev) : Square := d.glb.square
def Dev.setSquare (d : Dev) (q : Square) : Dev := { d with glb := { d.glb with square := q } }
def Dev.pkt (d : Dev) (tok : Nat) : Option Packet := kvFind tok d.glb.square.pkts

/-- A port and its counters. -/
def Dev.netPort (d : Dev) (p : Nat) : Port := kvGet {} d.port.ports p
def Dev.setNetPort (d : Dev) (p : Nat) (x : Port) : Dev :=
  { d with port := { d.port with ports := kvSet {} p x d.port.ports } }

/-- Count k in counter i of a port (R188). -/
def Dev.pcount (d : Dev) (p i k : Nat) : Dev :=
  if k = 0 then d
  else
    let x := d.netPort p
    d.setNetPort p { x with counters := kvSet 0 i (kvGet 0 x.counters i + k) x.counters }

/-- R188: the size bin of a frame length. -/
def sizeBin (n : Nat) : Nat :=
  if n ≤ 64 then 0 else if n ≤ 127 then 1 else if n ≤ 255 then 2 else if n ≤ 511 then 3
  else if n ≤ 1023 then 4 else if n ≤ 1518 then 5 else if n ≤ 2047 then 6 else if n ≤ 4095 then 7
  else if n ≤ 9216 then 8 else 9

/-- 0 unicast, 1 multicast, 2 broadcast. -/
def castKind (f : List Byte) : Nat :=
  if slice f 0 6 = List.replicate 6 0xFF#8 then 2 else beAt f 0 1 % 2

/-- EtherType at bytes 12 and 13. -/
def etherType (f : List Byte) : Nat := beAt f 12 2
def isVlan (f : List Byte) : Bool := decide (etherType f = 0x8100 ∨ etherType f = 0x88A8)

/-- Count a transmitted frame that ended with a good FCS; n is its length with FCS (R188). -/
def Dev.txCountOk (d : Dev) (p : Nat) (f : List Byte) (n : Nat) : Dev :=
  (((((d.pcount p 48 1).pcount p 49 n).pcount p (50 + castKind f) 1).pcount p (67 + sizeBin n) 1).pcount p 77
    (b2n (isVlan f)))

/-- The address of a port. -/
def Dev.portAddr (d : Dev) (p : Nat) : Nat :=
  d.regN (Reg.PORT_ADDR_LO p) + 2 ^ 32 * d.regFld (Reg.PORT_ADDR_HI p) 15 0

/-- A PAUSE frame, or a PFC frame for classes, with one quanta value (R177; format log 31). -/
def Dev.pauseFrame (d : Dev) (p quanta : Nat) : List Byte :=
  let cfg := d.reg (Reg.PORT_CFG p)
  let cls := fld cfg 15 8
  let head := beBytes 6 0x0180C2000001 ++ beBytes 6 (d.portAddr p) ++ beBytes 2 0x8808
  fitTo 60 (head ++ (if bitOf cfg 4 then
      beBytes 2 0x0101 ++ beBytes 2 cls ++
        ((List.range 8).map (fun i => if cls / 2 ^ i % 2 = 1 then beBytes 2 quanta else beBytes 2 0)).flatten
    else beBytes 2 1 ++ beBytes 2 quanta))

/-- Send a PAUSE or PFC frame; it is counted as a control frame (R188). -/
def Dev.pauseSend (d : Dev) (p quanta : Nat) : Dev :=
  let cfg := d.reg (Reg.PORT_CFG p)
  let f := d.pauseFrame p quanta
  let d := ((d.emit (.frame p f false)).txCountOk p f 64).pcount p 57 1
  if bitOf cfg 4 then
    (List.range 8).foldl (fun d i => d.pcount p (59 + i) (b2n (bitOf cfg (8 + i)))) d
  else d.pcount p 58 1

/-- R177: pool use reaches XOFF, or falls to XON. -/
def Dev.pauseCheck (d : Dev) (p : Nat) : Dev :=
  let x := d.netPort p
  let cfg := d.reg (Reg.PORT_CFG p)
  let off := d.regN (Reg.PORT_PFC_XOFF p)
  let used := (d.glb.square.pool p).used
  if 16 ≤ p ∨ !x.link ∨ !(bitOf cfg 4 || bitOf cfg 5) then d
  else if !x.xoff then
    if off ≠ 0 ∧ off ≤ used then (d.setNetPort p { x with xoff := true }).pauseSend p 0xFFFF else d
  else if off = 0 ∨ used ≤ d.regN (Reg.PORT_PFC_XON p) then (d.setNetPort p { x with xoff := false }).pauseSend p 0
  else d

/-- Free a packet (R21): its cells return to their pool, or pass to a copy that shares them (R243). -/
def Dev.freePkt (d : Dev) (tok : Nat) : Dev :=
  match d.pkt tok with
  | none => d
  | some p =>
    let pkts := kvDel tok d.sq.pkts
    match pkts.find? (fun e => decide (e.2.shares = some tok)) with
    | some (t', _) =>
      d.setSquare { d.sq with pkts := pkts.map (fun e =>
        if e.1 = t' then (e.1, { e.2 with cells := e.2.cells + p.cells, ext := e.2.ext + p.ext, shares := none })
        else if e.2.shares = some tok then (e.1, { e.2 with shares := some t' }) else e) }
    | none => (d.setSquare { ((d.sq.release p.pool p.cells).release 18 p.ext) with pkts := pkts }).pauseCheck p.pool

/-- Replace a packet's contents without a change of its cells. -/
def Dev.setPkt (d : Dev) (tok : Nat) (p : Packet) : Dev :=
  d.setSquare { d.sq with pkts := kvPut tok p d.sq.pkts }

/-- Change a packet's bytes, taking or returning cells of its pool as its length asks; none: no cell. A copy
that shares cells takes its own for what it grows (R243). -/
def Dev.resizePkt (d : Dev) (tok : Nat) (data : List Byte) : Option Dev :=
  match d.pkt tok with
  | none => none
  | some p =>
    let old := cellsOf p.data.length
    let n := cellsOf data.length
    if n ≤ old then
      let k := min p.cells (old - n)
      some ((d.setSquare (d.sq.release p.pool k)).setPkt tok { p with data := data, cells := p.cells - k })
    else
      (d.sq.takeCells p.pool (n - old)).map (fun q =>
        (d.setSquare q).setPkt tok { p with data := data, cells := p.cells + (n - old) })

/-- As `resizePkt`, with cells of pool 18 for what crypto expansion adds (R26). -/
def Dev.growCrypto (d : Dev) (tok : Nat) (data : List Byte) : Option Dev :=
  match d.pkt tok with
  | none => none
  | some p =>
    let old := cellsOf p.data.length
    let n := cellsOf data.length
    if n ≤ old then d.resizePkt tok data
    else
      (d.sq.takeCells 18 (n - old)).map (fun q =>
        (d.setSquare q).setPkt tok { p with data := data, ext := p.ext + (n - old) })

/-! Power states, as far as a wake needs them (R513, R517). -/

/-- PWR_STAT.STATE follows the state. -/
def Dev.pwrState (d : Dev) (st : Nat) : Dev :=
  { d.setReg Reg.PWR_STAT (packW [(st, 0), (d.regFld Reg.PWR_STAT 15 8, 8)]) with pwr := { d.pwr with state := st } }

/-- R517: a wake source in Quiet starts the exit. -/
def Dev.wakeFrom (d : Dev) (src : Nat) : Dev :=
  if d.pwr.state = 2 ∨ d.pwr.state = 3 then (d.setReg Reg.PWR_STAT (packW [(src, 8)])).pwrState 4 else d

/-! Running a command's effect. -/

/-- R472, R508, R511, R535: only the always-on domain, or nothing but the Tollhouse, runs. -/
def Dev.dead (d : Dev) : Bool := d.pwr.off || d.pwr.trip || !d.pwr.rails || d.pwr.clkLost

/-- The next state of a command that changes the device and never the queue. Without supply, clock or rails, and after a thermal trip,
nothing outside the always-on domain happens. -/
def State.run (s : State) (f : Dev → Dev) : Host.Outcome State Fault Refusal :=
  .next { s with dev := if s.dev.dead then s.dev else f s.dev }

/-- The same for the always-on domain: it runs while VDD_AON is in range (R513). -/
def State.runAon (s : State) (f : Dev → Dev) : Host.Outcome State Fault Refusal :=
  .next { s with dev := if s.dev.pwr.off then s.dev else f s.dev }

/-- The same for the Tollhouse and the supply itself (R487). -/
def State.runAny (s : State) (f : Dev → Dev) : Host.Outcome State Fault Refusal :=
  .next { s with dev := f s.dev }

/-- How an admin command ends its checks: with a failure and no side effect, done with DETAIL, LEN and
bytes for the buffer at dword 1, or taken and completing later. -/
inductive AdmRes where
  | fail (status detail : Nat)
  | done (d : Dev) (detail : Nat := 0) (len : Nat := 0) (data : List Byte := [])
  | wait (d : Dev)

/-- The first failing check decides; otherwise the command runs (R557). -/
def admChecks (l : List (Bool × Nat × Nat)) (k : Unit → AdmRes) : AdmRes :=
  match firstFail l with
  | some (st, det) => .fail st det
  | none => k ()

/-- R142: RANGE detail of a field: dword × 64 + its lowest bit. -/
def rangeAt (dword lo : Nat) : Nat := dword * 64 + lo

end Sys2Proof.Machine
end

