-- ==== Sys2Proof/Machine/Operands.lean ====
section
/-! DEFINITION. The fields of the entries the device takes: submission entries (R108) and admin entries
(R102, R140). -/

namespace Sys2Proof

/-! Submission entries (R108). -/

def SqEntry.opc (e : SqEntry) : Nat := fld e.d0 7 0
def SqEntry.first (e : SqEntry) : Bool := bitOf e.d0 8
def SqEntry.last (e : SqEntry) : Bool := bitOf e.d0 9
def SqEntry.bar (e : SqEntry) : Bool := bitOf e.d0 10
def SqEntry.ro (e : SqEntry) : Bool := bitOf e.d0 11
def SqEntry.irq (e : SqEntry) : Bool := bitOf e.d0 12
def SqEntry.tag (e : SqEntry) : Nat := fld e.d0 31 16
def SqEntry.len (e : SqEntry) : Nat := fld e.d0 63 32
def SqEntry.addr (e : SqEntry) : Nat := e.d1.toNat
/-- R113: the phase bit of a native entry. -/
def SqEntry.phase (e : SqEntry) : Bool := bitOf e.d7 63

/-- A native entry from its 64 bytes, a Retas entry from its 32 (R108, R136). -/
def SqEntry.ofBytes (retas : Bool) (b : List Byte) : SqEntry :=
  let w := fun i => BitVec.ofNat 64 (leAt b (8 * i) 8)
  if retas then { d0 := w 0, d1 := w 1, d2 := w 2, d3 := w 3 }
  else { d0 := w 0, d1 := w 1, d2 := w 2, d3 := w 3, d4 := w 4, d5 := w 5, d6 := w 6, d7 := w 7 }

/-! Admin entries (R102, R140): TEN is D2[11:0], LOCAL is D2[24:16]. -/

def AdmEntry.ten (e : AdmEntry) : Nat := fld e.d2 11 0
def AdmEntry.loc (e : AdmEntry) : Nat := fld e.d2 24 16

/-- Dwords 2 to 6 of the entry, as the admin journal keeps them (R562). -/
def AdmEntry.dwords (e : AdmEntry) : List Dword := [e.d2, e.d3, e.d4, e.d5, e.d6]

/-- The failure of a buffer read, if the read failed (R53). -/
def AdmEntry.bufCheck (e : AdmEntry) : Bool × Nat × Nat :=
  match e.bufErr with
  | some (st, det) => (true, st, det)
  | none => (false, 0, 0)

/-- R53: the status and detail of a read that ended with an error; none when it brought data. -/
def ReadEnd.err : ReadEnd → Option (Nat × Nat)
  | .data _ => none
  | .unsupported => some (4, 1)
  | .abort => some (4, 2)
  | .poisoned => some (4, 3)

def ReadEnd.bytes : ReadEnd → List Byte
  | .data b => b
  | _ => []

end Sys2Proof

namespace Sys2Proof.Machine

/-! Jobs (R121): OPC and TAG of the FIRST entry, IRQ and BAR of the LAST. -/

def Job.firstE (j : Job) : SqEntry := j.entries.headD default
def Job.lastE (j : Job) : SqEntry := j.entries.getLastD default
def Job.opc (j : Job) : Nat := j.firstE.opc
def Job.tag (j : Job) : Nat := j.firstE.tag
def Job.irq (j : Job) : Bool := j.lastE.irq
def Job.bar (j : Job) : Bool := j.lastE.bar
/-- R121: the total of its entries' LEN. -/
def Job.total (j : Job) : Nat := sumNat (j.entries.map SqEntry.len)

end Sys2Proof.Machine

namespace Sys2Proof.St

/-! Status codes (R142). -/
def DONE : Nat := 0
def STATE : Nat := 1
def RANGE : Nat := 2
def NOSPACE : Nat := 3
def BUSERR : Nat := 4
def TIMEOUT : Nat := 5
def INTEGRITY : Nat := 6
def ABORTED : Nat := 7
def DENIED : Nat := 8
def TOOLONG : Nat := 9
def MALFORMED : Nat := 10
def PARTIAL : Nat := 11
def REMOTE : Nat := 12

end Sys2Proof.St
end

