-- ==== Sys2Proof/Machine/Flags.lean ====
section
/-! DEFINITION. Completions, progress indices, events, interrupts and their moderation (R111 to R113, R126
to R134, R138, R562, R568), shared by every chapter. -/

namespace Sys2Proof.Machine

/-! Interrupts. -/

/-- R57: a TLP of the device brings the link out of L1. -/
def Dev.wakeLink (d : Dev) (p : Nat) : Dev := d.setHifPort p { d.hifPort p with l1 := false }

/-- R568: the device may send this vector's message now. -/
def Dev.msixOpen (d : Dev) (f : Fn) (vec : Nat) : Bool :=
  let c := d.fnGet f
  c.bme && !d.fnD3 f && c.msixEnable && !c.functionMask && !(kvGet {} c.msix vec).mask

/-- Hold an interrupt pending in the PBA (R568). -/
def Dev.pbaAdd (d : Dev) (f : Fn) (vec : Nat) (src : IrqSrc) : Dev :=
  let c := d.fnGet f
  if c.pba.contains (vec, src) then d else d.fnPut f { c with pba := c.pba ++ [(vec, src)] }

/-- R58: in D3hot a due interrupt sends PME and sets PME_Status. -/
def Dev.pme (d : Dev) (f : Fn) : Dev :=
  let pf := f.pfOf
  (d.fnPut (.pf pf) { d.fnGet (.pf pf) with pmeStatus := true }).emit (.pme pf)

/-- R568: a due interrupt is sent as an MSI-X message, or held pending in the PBA. -/
def Dev.msixSend (d : Dev) (f : Fn) (vec : Nat) (src : IrqSrc) : Dev :=
  if d.msixOpen f vec then
    let m := kvGet {} (d.fnGet f).msix vec
    (d.wakeLink f.port).emit (.msix f vec m.addr m.data)
  else
    let d := d.pbaAdd f vec src
    if d.fnD3 f then d.pme f else d

/-- R568: send what the PBA holds for vectors that may now be sent, one message a vector. -/
def Dev.msixFlush (d : Dev) (f : Fn) : Dev :=
  let vecs := ((d.fnGet f).pba.map (·.1)).eraseDups
  vecs.foldl (fun d v =>
    if d.msixOpen f v then
      let c := d.fnGet f
      let m := kvGet {} c.msix v
      (d.fnPut f { c with pba := c.pba.filter (fun p => decide (p.1 ≠ v)) }).emit (.msix f v m.addr m.data)
    else d) d

/-- R99 to R101: signal through an entry of the interrupt message table: sent, or held in PEND while MASK
is 1 or the function may issue no request (R567). -/
def Dev.imtSend (d : Dev) (t idx : Nat) : Dev :=
  let e := kvGet {} d.ten.imt idx
  if !(e.v && decide (e.ten = t)) then d
  else if e.mask || d.fnHeld (d.tenFn t) then
    { d with ten := { d.ten with imt := kvSet {} idx { e with pend := true } d.ten.imt } }
  else d.emit (.imtMsg idx e.addr e.data)

/-- The moderation record of an interrupt target. -/
def Dev.modGet (d : Dev) : IrqSrc → Mod
  | .cq c => (kvFind c d.ring.cqs).elim {} (·.mod)
  | .sq q => (kvFind q d.ring.sqs).elim {} (·.mod)
  | .adm pf => (d.ring.adm.getD pf {}).mod
  | .wicket _ => {}
  | .nvme k => ((kvFind (k / 65536) d.sto.ctrls).bind (fun c => kvFind (k % 65536) c.cqs)).elim {} (·.mod)

def Dev.modPut (d : Dev) (src : IrqSrc) (m : Mod) : Dev :=
  match src with
  | .cq c =>
    match kvFind c d.ring.cqs with
    | some x => { d with ring := { d.ring with cqs := kvPut c { x with mod := m } d.ring.cqs } }
    | none => d
  | .sq q =>
    match kvFind q d.ring.sqs with
    | some x => { d with ring := { d.ring with sqs := kvPut q { x with mod := m } d.ring.sqs } }
    | none => d
  | .nvme k =>
    match kvFind (k / 65536) d.sto.ctrls with
    | some c =>
      match kvFind (k % 65536) c.cqs with
      | some x =>
        let c' := { c with cqs := kvPut (k % 65536) { x with mod := m } c.cqs }
        { d with sto := { d.sto with ctrls := kvPut (k / 65536) c' d.sto.ctrls } }
      | none => d
    | none => d
  | _ => d

/-- The tenancy of an interrupt target. -/
def Dev.srcTen (d : Dev) : IrqSrc → Nat
  | .cq c => (kvFind c d.ring.cqs).elim 0 (·.ten)
  | .sq q => (kvFind q d.ring.sqs).elim 0 (·.ten)
  | .nvme k => (kvFind (k / 65536) d.sto.ctrls).elim 0 (·.ten)
  | _ => 0

/-- R132, R133: a due interrupt sends one message and clears the count and the timer; in D3hot it sends PME
and stays due. -/
def Dev.irqFire (d : Dev) (src : IrqSrc) : Dev :=
  let m := d.modGet src
  let t := d.srcTen src
  let f := d.tenFn t
  if d.fnD3 f then (d.modPut src { m with due := true, timer := false }).pme f
  else
    let d := d.modPut src { m with n := 0, timer := false, due := false }
    if !m.vecV then d
    else if ((d.tenGet t).pasid).isSome then d.imtSend t m.vector
    else d.msixSend f m.vector src

/-- R132: a signalling completion of an interrupt target. While the tenancy drains every one is due at once
(R84). -/
def Dev.irqSignal (d : Dev) (src : IrqSrc) : Dev :=
  let m := d.modGet src
  let m' := { m with n := m.n + 1, timer := true, start := if m.timer then m.start else d.nowNs }
  if m.time = 0 ∨ m.count ≤ m.n + 1 ∨ (d.tenGet (d.srcTen src)).st = 4 then (d.modPut src m').irqFire src
  else d.modPut src m'

/-! Completion entries (R111). -/

/-- A completion entry; SQHD and P are filled in when it is written. -/
def mkCqe (sqid detail tag status opc ts len : Nat) (d2 : Dword) (d3 : Nat) : Cqe :=
  { d0 := packD [(sqid % 65536, 48), (detail % 65536, 32), (tag % 65536, 16), (status % 256, 8),
      (opc % 256, 0)]
    d1 := packD [(ts % 4294967296, 32), (len % 4294967296, 0)]
    d2 := d2
    d3 := packD [(d3 % 4294967296, 0)] }

/-- R113: entries of a ring, and the size of its position space. -/
def Cq.size (c : Cq) : Nat := 2 ^ c.log2
def Sq.size (q : Sq) : Nat := 2 ^ q.log2

/-- The LAP and index of a position as STAT, STARTED and PROG show them. -/
def lapIdx (pos log2 : Nat) : Nat := pos / 2 ^ log2 % 2 * 65536 + pos % 2 ^ log2

/-- R116, R130, R135: the ring's next position is free; a Retas ring is full one entry earlier. -/
def Cq.room (c : Cq) : Bool :=
  decide ((c.write + 2 * c.size - c.head) % (2 * c.size) < (if c.retas then c.size - 1 else c.size))

/-- The entry as written at a position: SQHD is the submission ring's started index when the entry is
written (R111), P inverts with the lap (R113), a Retas entry has no P (R136). -/
def Cqe.place (e : Cqe) (pos log2 : Nat) (retas : Bool) (sqhd : Nat) : Cqe :=
  { e with
    d3 := packD [(fld e.d3 31 0, 0), (sqhd % 131072, 32),
      (if retas then 0 else 1 - pos / 2 ^ log2 % 2, 63)] }

def Dev.cqPut (d : Dev) (c : Nat) (x : Cq) : Dev :=
  { d with ring := { d.ring with cqs := kvPut c x d.ring.cqs } }

def Dev.sqPut (d : Dev) (q : Nat) (x : Sq) : Dev :=
  { d with ring := { d.ring with sqs := kvPut q x d.ring.sqs } }

/-- The started position of a submission ring, as SQHD holds it. -/
def Dev.sqhd (d : Dev) (q : Option Nat) : Nat :=
  match q.bind (fun i => kvFind i d.ring.sqs) with
  | some x => lapIdx x.started x.log2
  | none => 0

/-- Write one entry at the ring's next position: the entry, the Retas write-back after it (R135, R137),
then the interrupt (R126). -/
def Dev.cqWrite (d : Dev) (c : Nat) (x : Cq) (e : Cqe) : Dev :=
  let e' := e.place x.write x.log2 x.retas (d.sqhd e.sq)
  let addr := x.base.toNat + 32 * (x.write % x.size)
  let w := (x.write + 1) % (2 * x.size)
  let d := (d.emit (.cqe false c x.write addr e')).logWrite x.ten addr 32
  let d := d.cqPut c { x with write := w }
  let d := if x.retas then (d.emit (.retasPi c x.wb.toNat (w % x.size))).logWrite x.ten x.wb.toNat 4 else d
  if e.signal then d.irqSignal (.cq c) else d

/-- R130, R131: the stall timer runs only while the next position is not free and the stash holds a
completion. -/
def Dev.stallUpdate (d : Dev) (c : Nat) : Dev :=
  match kvFind c d.ring.cqs with
  | none => d
  | some x => d.cqPut c { x with stallTimer := !x.room && !x.stash.isEmpty && decide (x.state = 1) }

/-- The device may write an entry of the ring now: ACTIVE, a free position, the function neither in D3hot
nor without Bus Master Enable (R58, R567). -/
def Dev.cqOpen (d : Dev) (x : Cq) : Bool :=
  decide (x.state = 1) && x.room && !d.fnHeld (d.tenFn x.ten)

/-- A completion for a ring: through the Shutter (R82), in order behind the stash, or into it (R130). -/
def Dev.cqPush (d : Dev) (c : Nat) (gen : Word) (e : Cqe) : Dev :=
  match kvFind c d.ring.cqs with
  | none => d
  | some x =>
    if !d.shutPass x.ten gen then d.discard x.ten
    else if d.cqOpen x && x.stash.isEmpty then d.cqWrite c x e
    else (d.cqPut c { x with stash := x.stash ++ [e] }).stallUpdate c

/-- The stash of a ring has no room (R130). -/
def Dev.stashFull (d : Dev) (c : Nat) : Bool :=
  match kvFind c d.ring.cqs with
  | some x => decide (64 ≤ x.stash.length)
  | none => false

/-! Admin completions (R138). -/

def Dev.admGet (d : Dev) (pf : Nat) : AdmRing := d.ring.adm.getD pf {}

def Dev.admPut (d : Dev) (pf : Nat) (x : AdmRing) : Dev :=
  { d with ring := { d.ring with adm := d.ring.adm.set pf x } }

/-- Sizes of the admin rings (RING_ADM_CFG). -/
def Dev.admSqLog2 (d : Dev) (pf : Nat) : Nat := d.regFld (Reg.RING_ADM_CFG pf) 4 0
def Dev.admCqLog2 (d : Dev) (pf : Nat) : Nat := d.regFld (Reg.RING_ADM_CFG pf) 12 8

def Dev.admRoom (d : Dev) (pf : Nat) : Bool :=
  let n := 2 ^ d.admCqLog2 pf
  let x := d.admGet pf
  decide ((x.write + 2 * n - x.head) % (2 * n) < n)

/-- Write one entry of the admin completion ring; it signals at once, without moderation (R138). -/
def Dev.admWrite (d : Dev) (pf : Nat) (e : Cqe) : Dev :=
  let x := d.admGet pf
  let k := d.admCqLog2 pf
  let e' := e.place x.write k false (lapIdx x.started (d.admSqLog2 pf))
  let base := d.regN (Reg.RING_ADM_CQ_LO pf) + 4294967296 * d.regN (Reg.RING_ADM_CQ_HI pf)
  let d := d.emit (.cqe true pf x.write (base + 32 * (x.write % 2 ^ k)) e')
  let d := d.admPut pf { x with write := (x.write + 1) % (2 * 2 ^ k) }
  d.msixSend (.pf pf) (d.regFld (Reg.RING_ADM_CFG pf) 25 16) (.adm pf)

/-- A completion of an admin command: written, or kept in the stash while the ring is full or the PF may
issue no request (R138, R58, R567). -/
def Dev.admPush (d : Dev) (pf : Nat) (e : Cqe) : Dev :=
  let x := d.admGet pf
  if !x.en && !x.closing then d
  else if d.admRoom pf && !d.fnHeld (.pf pf) && x.stash.isEmpty then d.admWrite pf e
  else d.admPut pf { x with stash := x.stash ++ [e] }

/-! Events (R134). -/

/-- An event: type, the job and ring concerned, and its two parameters. -/
structure Ev where
  type : Nat
  status : Nat := 0
  detail : Nat := 0
  tag : Nat := 0
  sqid : Nat := 0
  p1 : Nat := 0
  p2 : Nat := 0

def Dev.evCqe (d : Dev) (v : Ev) : Cqe :=
  { mkCqe v.sqid v.detail v.tag v.status 0xFF d.ts32 v.p1
      (packD [(v.type % 65536, 0), (v.p2 % 4294967296, 32)]) 0 with signal := true }

/-- An event on a PF's admin completion ring. It is discarded and counted in RING_EVT_LOST when the ring is
not enabled (R564) or is full (R138). -/
def Dev.pfEvent (d : Dev) (pf : Nat) (v : Ev) : Dev :=
  let x := d.admGet pf
  if !x.en then d.count (Reg.RING_EVT_LOST pf)
  else if !d.admRoom pf || decide (64 ≤ x.stash.length) then
    (d.admPut pf { x with evtLost := x.evtLost + 1 }).count (Reg.RING_EVT_LOST pf)
  else d.admPush pf (d.evCqe v)

/-- The tenancy's event ring, unless it is STALLED (R134). -/
def Dev.evtRing (d : Dev) (t : Nat) : Option (Nat × Cq) :=
  d.ring.cqs.find? (fun p => decide (p.2.ten = t) && p.2.evt && decide (p.2.state ≠ 3))

/-- An event of a tenancy: to its event ring, else to the owning PF's admin completion ring; discarded and
counted when the event ring's stash is full (R134). -/
def Dev.tenEvent (d : Dev) (t : Nat) (v : Ev) : Dev :=
  match d.evtRing t with
  | some (c, x) =>
    if 64 ≤ x.stash.length then
      (d.cqPut c { x with evtLost := x.evtLost + 1 }).count (Reg.RING_EVT_LOST (d.tenGet t).owner)
    else d.cqPush c (d.tenGet t).gen (d.evCqe v)
  | none => d.pfEvent (d.tenGet t).owner v

/-- Write what the stash holds, in order, while positions are free, then the EVT_LOST event if events were
lost (R130, R134). -/
def Dev.stashDrainN (d : Dev) (c : Nat) : Nat → Dev
  | 0 => d
  | n + 1 =>
    match kvFind c d.ring.cqs with
    | none => d
    | some x =>
      if !d.cqOpen x then d
      else
        match x.stash with
        | e :: r => (d.cqWrite c { x with stash := r } e).stashDrainN c n
        | [] =>
          if x.evtLost = 0 then d
          else
            (d.cqPut c { x with evtLost := 0 }).cqPush c (d.tenGet x.ten).gen
              (d.evCqe { type := 6, p1 := x.evtLost })

def Dev.stashDrain (d : Dev) (c : Nat) : Dev :=
  match kvFind c d.ring.cqs with
  | none => d
  | some x => (d.stashDrainN c (x.stash.length + 1)).stallUpdate c

def Dev.admDrainN (d : Dev) (pf : Nat) : Nat → Dev
  | 0 => d
  | n + 1 =>
    let x := d.admGet pf
    if !(d.admRoom pf) || d.fnHeld (.pf pf) then d
    else
      match x.stash with
      | e :: r => ((d.admPut pf { x with stash := r }).admWrite pf e).admDrainN pf n
      | [] =>
        if x.evtLost = 0 then d
        else (d.admPut pf { x with evtLost := 0 }).admPush pf (d.evCqe { type := 6, p1 := x.evtLost })

/-- The admin ring's stash, as `stashDrain`. -/
def Dev.admDrain (d : Dev) (pf : Nat) : Dev := d.admDrainN pf ((d.admGet pf).stash.length + 1)

/-! Finishing an admin command (R138, R557, R558, R562). -/

/-- R549: the PF is privileged. -/
def Dev.privNow (d : Dev) (pf : Nat) : Bool := d.regBit Reg.GLB_PRIV_PF pf

/-- R566: a command keeps the privilege checked when it was taken. -/
def Dev.privOf (d : Dev) (e : AdmEntry) : Bool :=
  match d.ring.taken.find? (fun a => decide (a.e = e)) with
  | some a => a.priv
  | none => d.privNow e.pf

/-- R562: the admin journal, a ring of 8,388,608 records (R561). -/
def Dev.admJournal (d : Dev) (e : AdmEntry) (opc status detail : Nat) : Dev :=
  let r : AdmRec := { seq := d.glb.admSeq, time := d.nowNs, pf := e.pf, opc := opc, status := status,
                      detail := detail, tag := e.tag, dwords := e.dwords }
  let j := d.glb.admJournal ++ [r]
  { d with glb := { d.glb with admSeq := d.glb.admSeq + 1,
                               admJournal := j.drop (j.length - 8388608) } }

/-- Remove one command from those in progress. -/
def takenErase (e : AdmEntry) : List AdmTaken → List AdmTaken
  | [] => []
  | a :: r => if a.e = e then r else a :: takenErase e r

/-- Write an admin completion and its journal record (R138, R562). -/
def Dev.admComplete1 (d : Dev) (e : AdmEntry) (opc status detail len : Nat) : Dev :=
  let d := d.admJournal e opc status detail
  let d := { d with ring := { d.ring with taken := takenErase e d.ring.taken } }
  d.admPush e.pf (mkCqe 0xFFFF detail e.tag status opc d.ts32 len 0 0)

/-- R558: an ADM_NOP completes only after every earlier command of the same PF; complete those at the front
of their PF. -/
def Dev.admFences (d : Dev) (pf : Nat) : Nat → Dev
  | 0 => d
  | n + 1 =>
    match d.ring.taken.find? (fun a => decide (a.e.pf = pf)) with
    | some a =>
      if a.fence then (d.admComplete1 a.e 1 0 0 0).admFences pf n
      else d
    | none => d

/-- An admin command is complete: its completion, and the fences it held back. -/
def Dev.admComplete (d : Dev) (e : AdmEntry) (opc status detail len : Nat) : Dev :=
  (d.admComplete1 e opc status detail len).admFences e.pf (d.ring.taken.length + 1)

/-- R18, R513: control firmware runs. -/
def Dev.ctlRuns (d : Dev) : Bool := d.glb.planes.ctlUp && !d.pwr.stopK

/-- Run an admin command: its checks and effect, then its completion; bytes it returns are written to the
buffer at dword 1 first (R102, R126). While the control cluster is down or its clock stopped nothing runs (R18, R513). -/
def Dev.admRun (d : Dev) (e : AdmEntry) (opc : Nat) (f : Dev → AdmRes) : Dev :=
  if !d.ctlRuns then d
  else
  match f d with
  | .fail st det => d.admComplete e opc st det 0
  | .done d' det len data => (d'.pfWrite e.pf e.d1.toNat data).admComplete e opc 0 det len
  | .wait d' =>
    if d'.ring.taken.any (fun a => decide (a.e = e)) then d'
    else { d' with ring := { d'.ring with taken := d'.ring.taken ++ [{ e := e, priv := d'.privNow e.pf }] } }

/-- A command that waited completes, unless a restart of the control cluster has completed it (R18). -/
def Dev.admLate (d : Dev) (e : AdmEntry) (opc status detail len : Nat) : Dev :=
  if d.glb.planes.ctlUp ∧ d.ring.taken.any (fun a => decide (a.e = e)) then d.admComplete e opc status detail len else d

/-- R557 check 2: privilege. -/
def Dev.notPriv (d : Dev) (e : AdmEntry) : Bool × Nat × Nat := (!d.privOf e, St.DENIED, 3)

/-- R73, R557 check 3: ownership; a FREE tenancy passes on every PF. -/
def Dev.notOwner (d : Dev) (e : AdmEntry) (t : Nat) : Bool × Nat × Nat :=
  (decide ((d.tenGet t).st ≠ 0 ∧ (d.tenGet t).owner ≠ e.pf), St.DENIED, 2)

/-! Jobs of the data rings. -/

def Dev.jobFind (d : Dev) (q pos : Nat) : Option Job :=
  d.ring.jobs.find? (fun j => decide (j.sq = q ∧ j.pos = pos))

def Dev.jobPut (d : Dev) (j : Job) : Dev :=
  { d with ring := { d.ring with
      jobs := d.ring.jobs.map (fun x => if x.sq = j.sq ∧ x.pos = j.pos then j else x) } }

/-- The job has moved all it will move and ends with this result; the completion is written by
JOB_COMPLETION, in order (R126). A job that has ended keeps its first result. -/
def Dev.jobEnd (d : Dev) (q pos : Nat) (r : JobRes) : Dev :=
  match d.jobFind q pos with
  | some j => if j.res.isSome then d else d.jobPut { j with res := some r }
  | none => d

/-- R82: the job carries its tenancy's present generation. -/
def Dev.jobLive (d : Dev) (j : Job) : Bool := decide ((d.tenGet j.ten).gen = j.gen)

/-- R86, R123: bytes a job moves draw on the ceiling bucket, and on floor credit if the priority pass
started it. Tokens are kept in eightieths of a byte, what 100 Mb/s moves in a nanosecond. -/
def Dev.drawBytes (d : Dev) (t n : Nat) (priority : Bool) : Dev :=
  let x := d.tenGet t
  d.tenPut t { x with
    bucket := if x.share.ceiling = 0 then x.bucket else x.bucket - 80 * n
    credit := if priority then x.credit - 80 * n else x.credit }

end Sys2Proof.Machine
end

