-- ==== Sys2Proof/Machine/CoreBase.lean ====
section
/-! DEFINITION. Cores, threads, events and channels: what other chapters use of them (R355 to R357, R368 to R372). -/

namespace Sys2Proof.Machine

def Dev.core (d : Dev) (n : Nat) : Core := kvGet {} d.cpu.cores n
def Dev.setCore (d : Dev) (n : Nat) (c : Core) : Dev :=
  { d with cpu := { d.cpu with cores := kvSet {} n c d.cpu.cores } }
def Dev.hnd (d : Dev) (h : Nat) : Dword := kvGet 0 d.cpu.hnd h


/-! Threads: global number 8 × core + thread. -/

def Dev.thread (d : Dev) (g : Nat) : Thread := (d.core (g / 8)).threads.getD (g % 8) {}
def Dev.setThread (d : Dev) (g : Nat) (t : Thread) : Dev :=
  let c := d.core (g / 8)
  d.setCore (g / 8) { c with threads := c.threads.set (g % 8) t }

/-- A register of a thread; x0 reads 0 and discards writes. -/
def Thread.x (t : Thread) (r : Nat) : Dword := if r % 32 = 0 then 0 else kvGet 0 t.regs (r % 32)
def Thread.setX (t : Thread) (r : Nat) (v : Dword) : Thread :=
  if r % 32 = 0 then t else { t with regs := kvSet 0 (r % 32) v t.regs }

/-- mcycle of a core (R348). -/
def Dev.mcycle (d : Dev) (n : Nat) : Nat := d.pwr.cycles.getD (n / 16) 0 / 1000 % 2 ^ 64

/-- R378: a trace record, in the ring of 15 MiB of the core: 0 taken branch, 1 exception, 2 event wake, 3 token taken. -/
def Dev.traceRec (d : Dev) (g kind : Nat) : Dev :=
  let c := d.core (g / 8)
  if !c.trace then d
  else
    let a := 0x2D10000000 + 0xF00000 * (g / 8) + 16 * (c.tpos % 0xF0000)
    (d.setCore (g / 8) { c with tpos := c.tpos + 1 }).hbmWrite a
      (leBytes 8 (d.mcycle (g / 8)) ++ leBytes 7 (d.thread g).pc ++ leBytes 1 (g % 8 + 8 * kind))

/-! Channels (R368). -/

def Dev.ch (d : Dev) (c : Nat) : Channel := kvGet {} d.cpu.chans c
def Dev.setCh (d : Dev) (c : Nat) (x : Channel) : Dev := { d with cpu := { d.cpu with chans := kvSet {} c x d.cpu.chans } }
def Channel.v (x : Channel) : Bool := bitOf x.bind 63
def Channel.recv (x : Channel) : Nat := fld x.bind 49 39
def Channel.depth (x : Channel) : Nat := fld x.bind 38 32
def Channel.buf (x : Channel) : Nat := 64 * fld x.bind 19 6

def Dev.cluster (d : Dev) (k : Nat) : Cluster := kvGet {} d.cpu.clusters k
def Dev.setCluster (d : Dev) (k : Nat) (x : Cluster) : Dev := { d with cpu := { d.cpu with clusters := kvSet {} k x d.cpu.clusters } }

/-- Bytes of a sparse memory, and a write to it. -/
def memRead (m : Kv Byte) (a n : Nat) : List Byte := (List.range n).map (fun i => kvGet 0#8 m (a + i))
def memWrite (m : Kv Byte) (a : Nat) (b : List Byte) : Kv Byte := b.zipIdx.foldl (fun m p => kvSet 0#8 (a + p.2) p.1 m) m

/-! Events (R372). -/

/-- Events of a thread that are pending. -/
def Dev.pending (d : Dev) (g : Nat) : Nat :=
  let t := d.thread g
  let chan := d.cpu.chans.any (fun c => c.2.v && decide (c.2.recv = g) && !c.2.msgs.isEmpty)
  b2n (!(d.core (g / 8)).hq.isEmpty) + 2 * b2n chan + t.events % 64

/-- Bits of a and b. -/
def andNat (a b : Nat) : Nat := (BitVec.ofNat 64 a &&& BitVec.ofNat 64 b).toNat

/-- A thread in WAIT_EVENT whose condition holds goes on: EVWAIT returns the bits and clears the latched ones. -/
def Dev.wake (d : Dev) (g : Nat) : Dev :=
  let t := d.thread g
  match t.wait with
  | none => d
  | some (rd, mask) =>
    let p := andNat (d.pending g) mask
    if t.st ≠ 2 ∨ p = 0 then d
    else
      (d.traceRec g 2).setThread g { (t.setX rd (BitVec.ofNat 64 p)) with
        st := 1, wait := none, pc := (t.pc + 4) % 2 ^ 64, instret := t.instret + 1, events := t.events - andNat t.events (p / 4 * 4) }

def Dev.wakeCore (d : Dev) (n : Nat) : Dev := (List.range 8).foldl (fun d i => d.wake (8 * n + i)) d

/-- Latch an event of a thread. -/
def Dev.raise (d : Dev) (g bit : Nat) : Dev :=
  let t := d.thread g
  let e := if t.events / 2 ^ bit % 2 = 1 then t.events else t.events + 2 ^ bit
  (d.setThread g { t with events := e }).wake g

/-! Delivery of a message (R368 to R371). -/

/-- A thread's message is open on a channel. -/
def Thread.holds (t : Thread) (c : Nat) : Bool :=
  match t.msg with
  | some m => decide (m.chan = c) && !m.abandoned && !m.discarded
  | none => false

def Core.holds (k : Core) (c : Nat) : Bool := k.threads.any (·.holds c)

def Dev.chOpen (d : Dev) (c : Nat) : Bool := d.cpu.cores.any (fun k => k.2.holds c)

/-- The channel has a free slot; an open message has one of its own (log 42). -/
def Dev.chRoom (d : Dev) (c : Nat) : Bool := decide ((d.ch c).msgs.length + b2n (d.chOpen c) < (d.ch c).depth)

/-- Deliver 64 bytes into a bound channel in one step; a receiver whose core is frozen or starting has it discarded: answers
whether it was delivered. -/
def Dev.deliver (d : Dev) (c sender : Nat) (engine : Bool) (data : List Byte) : Bool × Dev :=
  let x := d.ch c
  let r := d.core (x.recv / 8)
  if !r.running ∨ r.frozen ∨ r.starting.isSome then (false, d.count Reg.CORE_CH_DISCARD)
  else
    let k := x.recv / 128
    let cl := d.cluster k
    let d := d.setCluster k { cl with mem := memWrite cl.mem (x.buf + 64 * x.next) (fitTo 64 data) }
    let x := { x with msgs := x.msgs ++ [{ sender := sender, engine := engine, slot := x.next }], next := (x.next + 1) % max 1 x.depth }
    (true, (d.setCh c x).wake x.recv)

end Sys2Proof.Machine
end

