-- ==== Sys2Proof/Machine/Net.lean ====
section
/-! DEFINITION. Network headers: where layers begin, Internet checksums, CRC-32C and CRC-32, TCP
segmentation (R110, R201, R228, R395). Network headers are in network byte order (R5). -/

namespace Sys2Proof.Net

/-- EtherType and offset of the layer after up to two VLAN tags. -/
def l2 (f : List Byte) : Nat × Nat :=
  let isTag := fun t => decide (t = 0x8100 ∨ t = 0x88A8)
  let t0 := beAt f 12 2
  if !isTag t0 then (t0, 14)
  else
    let t1 := beAt f 16 2
    if !isTag t1 then (t1, 18) else (beAt f 20 2, 22)

/-- The ones' complement sum of the 16-bit words of a byte string, folded to 16 bits. -/
def onesSum : List Byte → Nat
  | a :: b :: r => let s := a.toNat * 256 + b.toNat + onesSum r; s % 65536 + s / 65536
  | [a] => a.toNat * 256
  | [] => 0

/-- Internet checksum of bytes, with an initial sum. -/
def checksum (init : Nat) (l : List Byte) : Nat :=
  let s := onesSum l + init
  let s := s % 65536 + s / 65536
  let s := s % 65536 + s / 65536
  65535 - s

/-- Layer 3: version (4, 6, 0 none), offset, header length, protocol, total bytes of the packet. -/
structure L3 where
  ver : Nat := 0
  off : Nat := 0
  hlen : Nat := 0
  proto : Nat := 0
  total : Nat := 0
  deriving DecidableEq, Repr

def l3 (f : List Byte) : L3 :=
  let (t, o) := l2 f
  if t = 0x0800 ∧ o + 20 ≤ f.length ∧ beAt f o 1 / 16 = 4 then
    { ver := 4, off := o, hlen := beAt f o 1 % 16 * 4, proto := beAt f (o + 9) 1, total := beAt f (o + 2) 2 }
  else if t = 0x86DD ∧ o + 40 ≤ f.length ∧ beAt f o 1 / 16 = 6 then
    { ver := 6, off := o, hlen := 40, proto := beAt f (o + 6) 1, total := 40 + beAt f (o + 4) 2 }
  else {}

/-- The pseudo-header sum of a TCP or UDP checksum over n bytes of layer 4. -/
def pseudo (f : List Byte) (h : L3) (proto n : Nat) : Nat :=
  let addrs := if h.ver = 4 then slice f (h.off + 12) 8 else slice f (h.off + 8) 32
  let s := onesSum addrs + proto + n
  s % 65536 + s / 65536

/-- Offset of the checksum in a TCP or UDP header. -/
def csumOff (proto : Nat) : Option Nat := if proto = 6 then some 16 else if proto = 17 then some 6 else none

/-- Insert the IPv4 header checksum (R110 L3_CSUM). -/
def insertL3 (f : List Byte) : List Byte :=
  let h := l3 f
  if h.ver ≠ 4 then f
  else
    let f := patch f (h.off + 10) [0, 0]
    patch f (h.off + 10) (beBytes 2 (checksum 0 (slice f h.off h.hlen)))

/-- Insert the TCP or UDP checksum (R110 L4_CSUM). A UDP sum of 0 is sent as 0xFFFF. -/
def insertL4 (f : List Byte) : List Byte :=
  let h := l3 f
  match csumOff h.proto with
  | none => f
  | some c =>
    if h.ver = 0 then f
    else
      let o := h.off + h.hlen
      let n := h.total - h.hlen
      let f := patch f (o + c) [0, 0]
      let s := checksum (pseudo f h h.proto n) (slice f o n)
      patch f (o + c) (beBytes 2 (if h.proto = 17 ∧ s = 0 then 65535 else s))

/-- R201: a checksum is good when the sum over what it covers is all ones. -/
def goodL3 (f : List Byte) : Bool :=
  let h := l3 f
  decide (h.ver = 4) && decide (onesSum (slice f h.off h.hlen) = 65535)

def goodL4 (f : List Byte) : Bool :=
  let h := l3 f
  match csumOff h.proto with
  | none => false
  | some _ =>
    let n := h.total - h.hlen
    let s := onesSum (slice f (h.off + h.hlen) n) + pseudo f h h.proto n
    decide (h.ver ≠ 0) && decide (s % 65536 + s / 65536 = 65535)

/-- One TCP segment of a TSO job: the headers with sequence, lengths, IPv4 identification and flags of
segment i (log 30). -/
def tsoSegment (f : List Byte) (h : L3) (hdr mss i n : Nat) : List Byte :=
  let o := h.off + h.hlen
  let pay := (f.drop (hdr + i * mss)).take mss
  let g := f.take hdr
  let g := patch g (o + 4) (beBytes 4 (beAt f (o + 4) 4 + i * mss))
  let g := if i + 1 < n then patch g (o + 13) [(slice f (o + 13) 1).headD 0 &&& 0xF6#8] else g
  let len := hdr - h.off + pay.length
  let g := if h.ver = 4 then
      patch (patch g (h.off + 2) (beBytes 2 len)) (h.off + 4) (beBytes 2 (beAt f (h.off + 4) 2 + i))
    else patch g (h.off + 4) (beBytes 2 (len - 40))
  g ++ pay

/-- R110: segment a TCP frame by MSS; any other frame stays whole. -/
def segment (f : List Byte) (mss : Nat) : List (List Byte) :=
  let h := l3 f
  if h.ver = 0 ∨ h.proto ≠ 6 ∨ mss = 0 then [f]
  else
    let hdr := h.off + h.hlen + beAt f (h.off + h.hlen + 12) 1 / 16 * 4
    if f.length ≤ hdr then [f]
    else
      let n := (f.length - hdr + mss - 1) / mss
      (List.range n).map (fun i => tsoSegment f h hdr mss i n)

/-- A reflected CRC, one bit at a time: register, polynomial, bits to go. -/
def crcBits (poly : Nat) : Nat → Nat → Nat
  | 0, c => c
  | n + 1, c => crcBits poly n (if c % 2 = 1 then (c / 2) ^^^ poly else c / 2)

/-- A reflected CRC over bytes. -/
def crcReg (poly : Nat) (c : Nat) (l : List Byte) : Nat :=
  l.foldl (fun c b => crcBits poly 8 (c ^^^ b.toNat)) c

/-- CRC-32C (Castagnoli) of bytes. -/
def crc32c (l : List Byte) : Nat := (crcReg 0x82F63B78 0xFFFFFFFF l) ^^^ 0xFFFFFFFF

/-- The Ethernet CRC-32 of bytes. -/
def crc32 (l : List Byte) : Nat := (crcReg 0xEDB88320 0xFFFFFFFF l) ^^^ 0xFFFFFFFF

/-- The FCS of a frame, as its four bytes on the wire. -/
def fcs (l : List Byte) : List Byte := leBytes 4 (crc32 l)

end Sys2Proof.Net
end

