-- ==== Sys2Proof/Machine/Access.lean ====
section
/-! DEFINITION. Who may reach BAR0 (R8, R10, R34, R64, R549 to R552), and the wrapper every BAR0 write
goes through. -/

namespace Sys2Proof.Machine

/-- Who may read or write a row of R550. -/
inductive Who where
  | any | none | priv | port | portOfPf | self | owner | wicket
  deriving DecidableEq, Repr

/-- R550: offset ranges (inclusive), readers and writers. -/
def accessTable : List (Nat × Nat × Who × Who) := [
  (0x0000000, 0x0000023, .any, .none),
  (0x0001000, 0x000124F, .any, .priv),
  (0x0001300, 0x000131F, .any, .priv),
  (0x0100000, 0x011FFFF, .any, .port),
  (0x0120000, 0x012003F, .any, .portOfPf),
  (0x0120040, 0x0120043, .any, .priv),
  (0x0180000, 0x01FFFFF, .self, .self),
  (0x0200000, 0x020000F, .any, .priv),
  (0x0210000, 0x024FFFF, .owner, .owner),
  (0x0400000, 0x040011F, .self, .self),
  (0x0480000, 0x05FFFFF, .owner, .none),
  (0x0600000, 0x060003F, .any, .priv),
  (0x0610000, 0x0613FFF, .owner, .none),
  (0x0800000, 0x0980043, .any, .priv),
  (0x0A00000, 0x0A03203, .any, .priv),
  (0x0C00000, 0x0C00157, .any, .priv),
  (0x0E00000, 0x0E103DB, .any, .priv),
  (0x1000000, 0x100003F, .any, .priv),
  (0x1200000, 0x1200043, .any, .priv),
  (0x1400000, 0x1402FEF, .any, .priv),
  (0x1500000, 0x150001B, .priv, .priv),
  (0x1800000, 0x19103DF, .any, .priv),
  (0x1A00000, 0x1A0106B, .any, .priv),
  (0x1C00000, 0x1C004FF, .any, .priv),
  (0x1C10000, 0x1C1FFFF, .wicket, .wicket),
  (0x1E00000, 0x1E0102B, .any, .priv),
  (0x2000000, 0x21FFFFF, .any, .none)]

def accessRow (off : Nat) : Option (Who × Who) :=
  (accessTable.find? (fun r => decide (r.1 ≤ off ∧ off ≤ r.2.1))).map (fun r => (r.2.2.1, r.2.2.2))

/-- The PF that owns what an offset of an owner row names: a tenancy, a ring, or a channel's job (R72, R145,
R169); none: it belongs to no PF. -/
def Dev.ownerOf (d : Dev) (off : Nat) : Option Nat :=
  let own := fun t => if (d.tenGet t).st = 0 then none else some (d.tenGet t).owner
  if 0x210000 ≤ off ∧ off < 0x250000 then own ((off - 0x210000) / 0x40)
  else if 0x480000 ≤ off ∧ off < 0x500000 then
    (kvFind ((off - 0x480000) / 8) d.ring.cqs).bind (fun c => own c.ten)
  else if 0x500000 ≤ off ∧ off < 0x600000 then
    (kvFind ((off - 0x500000) / 16) d.ring.sqs).bind (fun q => own q.ten)
  else if 0x610000 ≤ off ∧ off < 0x614000 then
    (kvFind ((off - 0x610000) / 0x40) d.dma.chans).bind (fun c => if c.used then own c.ten else none)
  else none

/-- The PF passes a column of R550. -/
def Dev.passes (d : Dev) (w : Who) (pf off : Nat) : Bool :=
  match w with
  | .any => true
  | .none => false
  | .priv => d.privNow pf
  | .port => d.privNow pf && decide ((off - 0x100000) / 0x10000 = pf / 8)
  | .portOfPf => d.privNow pf && decide ((off - 0x120000) / 4 / 8 = pf / 8)
  | .self => true
  | .owner => decide (d.ownerOf off = some pf)
  | .wicket => true

/-- Registers without a word of their own: the wide Tollhouse values (R504). -/
def wideReg (off : Nat) : Bool :=
  decide (0x2010000 ≤ off ∧ off < 0x2010000 + 48 * 4097) || decide (0x2050000 ≤ off ∧ off < 0x20507A0) ||
    decide (0x2051000 ≤ off ∧ off < 0x2051080) || decide (0x2080000 ≤ off ∧ off < 0x2080000 + 265776) ||
    decide (0x2100000 ≤ off ∧ off < 0x2100000 + 265776)

/-- The MSI-X table (16 bytes an entry, 1,024 entries) and PBA of a PF (R41, R44). -/
def msixReg (off : Nat) : Bool :=
  decide (0x180000 ≤ off ∧ off < 0x184000) || decide (0x1C0000 ≤ off ∧ off < 0x1C0080)

/-- R8, R552: a register stands at the offset. -/
def isReg (off : Nat) : Bool := (regRow off).isSome || wideReg off || msixReg off

/-- R551: reading the register has a side effect. -/
def readSide (off : Nat) : Bool :=
  match regRow off with
  | some r => decide (r.acc = .rc ∨ r.acc = .rs) || decide (r.rc ≠ 0)
  | none => false

/-- R550, R551: the PF may make this access. A read with a side effect needs, in a row some PF may write,
the right to write it. -/
def Dev.allowed (d : Dev) (pf off : Nat) (write : Bool) : Bool :=
  match accessRow off with
  | none => true
  | some (rd, wr) =>
    if write then d.passes wr pf off
    else d.passes rd pf off && (!readSide off || decide (wr = .none) || d.passes wr pf off)

/-- R552: a refused access is counted, and latched while DENY is clear. -/
def Dev.denyAccess (d : Dev) (pf off : Nat) (write : Bool) : Dev :=
  let d := d.count Reg.GLB_PRIV_DENY_CNT
  if d.regBit Reg.GLB_PRIV_STAT 1 then d
  else
    (((d.setReg Reg.GLB_PRIV_DENY_LOG (packW [(b2n write, 26), (off % 2 ^ 26, 0)])).setReg
      Reg.GLB_PRIV_DENY_FN (packW [(pf, 0)])).setBit Reg.GLB_PRIV_STAT 1)

/-- R34, R513: the block the register belongs to has its clock stopped. -/
def Dev.gatedAt (d : Dev) (off : Nat) : Bool :=
  (d.pwr.stopP && (decide (0xA00000 ≤ off ∧ off < 0xE00000) || decide (0x1000000 ≤ off ∧ off < 0x1200000) ||
    decide (0x1900000 ≤ off ∧ off < 0x1A00000))) ||
  (d.pwr.stopE && (decide (0xE00000 ≤ off ∧ off < 0x1000000) || decide (0x1200000 ≤ off ∧ off < 0x1400000))) ||
  (d.pwr.stopC && decide (0x1400000 ≤ off ∧ off < 0x1800000))

/-- R64: an access of a size or alignment that R10 does not take. -/
def badSize (off size : Nat) : Bool :=
  !((decide (size = 4) && decide (off % 4 = 0)) || (decide (size = 8) && decide (off % 8 = 0)))

/-- The routing ID of a function (R39): PF n is function n mod 8 of its port's bus, VFs follow function 7 in
PF order. -/
def Dev.routingId (d : Dev) (f : Fn) : Nat :=
  256 * (d.hifPort f.port).bus +
  match f with
  | .pf n => n % 8
  | .vf p v =>
    8 + sumNat ((List.range (p % 8)).map (fun j => d.hif.applied.getD (p / 8 * 8 + j) 0 % 2048)) + v

/-- R64: count a bad access and latch the first. -/
def Dev.badAccess (d : Dev) (f : Fn) (off : Nat) (write : Bool) : Dev :=
  let p := f.port
  let d := d.count (Reg.HIF_BAR0_ERR_CNT p)
  if d.regBit (Reg.HIF_STAT p) 2 then d
  else
    (((d.setReg (Reg.HIF_BAR0_ERR_LOG p) (packW [(b2n write, 26), (off % 2 ^ 26, 0)])).setReg
      (Reg.HIF_BAR0_ERR_FN p) (packW [(d.routingId f, 0)])).setBit (Reg.HIF_STAT p) 2)

/-- A 32-bit BAR0 write by a PF to a register with an action of its own: the checks of R552 in order, then
the action. -/
def Dev.bar0Write (d : Dev) (pf off : Nat) (act : Dev → Dev) : Dev :=
  if !isReg off then d
  else if !d.allowed pf off true then d.denyAccess pf off true
  else if d.gatedAt off then d.setBit Reg.GLB_STAT 5
  else act d

/-- A 32-bit BAR0 read by a PF of a register with an action of its own; the value is what the read returns. -/
def Dev.bar0Read (d : Dev) (pf off : Nat) (act : Dev → Dev × Word) : Dev :=
  if !isReg off then { d with lastRead := 0 }
  else if !d.allowed pf off false then { d.denyAccess pf off false with lastRead := 0 }
  else if d.gatedAt off then { d.setBit Reg.GLB_STAT 5 with lastRead := 0 }
  else
    let r := act d
    { r.1 with lastRead := r.2.zeroExtend 64 }

end Sys2Proof.Machine
end

