-- ==== Sys2Proof/Machine/Rings.lean ====
section
/-! DEFINITION. Rings: doorbells, the descriptor cache, ring commands and the admin rings (R105 to R141,
R558, R570). -/

namespace Sys2Proof.Machine

/-! Ring positions (R113, R116). -/

/-- Distance forward from position a to position b in a ring of 2^k entries. -/
def distFwd (log2 a b : Nat) : Nat := (b + 2 * 2 ^ log2 - a) % (2 * 2 ^ log2)

def posAdd (log2 a n : Nat) : Nat := (a + n) % (2 * 2 ^ log2)

/-- Entries posted and not started. -/
def Sq.posted (q : Sq) : Nat := distFwd q.log2 q.started q.tail

/-- The position after the cached entries. -/
def Sq.cacheEnd (q : Sq) : Nat := posAdd q.log2 q.started q.cache.length

/-- R119: drop every cached entry not started, and what a fetch in progress will bring. -/
def Sq.dropCache (q : Sq) : Sq := { q with cache := [], fetching := 0, reread := none, badPhase := [] }

/-! Reads of the device (R50, R51). -/

/-- R50: the requests a read of n bytes needs: none longer than the Max_Read_Request_Size, none crossing a
4 KiB boundary; each with its offset in the read. -/
def splitReads (mrrs : Nat) : Nat → Nat → Nat → Nat → List (Nat × Nat × Nat)
  | 0, _, _, _ => []
  | fuel + 1, addr, len, off =>
    if len = 0 then []
    else
      let k := min len (min (max mrrs 1) (4096 - addr % 4096))
      (addr, k, off) :: splitReads mrrs fuel (addr + k) (len - k) (off + k)

/-- R51 step 1: queue a read by a function, for a tenancy, behind the tenancy's earlier reads. -/
def Dev.queueReadAs (d : Dev) (f : Fn) (t : Nat) (gen : Word) (ref : JobRef) (addr len off : Nat) : Dev :=
  let p := f.port
  let one : ReadReq := { port := p, fn := f, ten := t, gen := gen, ref := ref, addr := addr, len := len, off := off }
  let reqs := if len = 0 then [one]
    else (splitReads (d.fnGet f).mrrs (len + 1) addr len off).map (fun r =>
      { one with addr := r.1, len := r.2.1, off := r.2.2 })
  let x := d.hifPort p
  d.setHifPort p { x with readQ := x.readQ ++ reqs }

/-- A read by the tenancy's own function. -/
def Dev.queueRead (d : Dev) (t : Nat) (gen : Word) (ref : JobRef) (addr len off : Nat) : Dev :=
  d.queueReadAs (d.tenFn t) t gen ref addr len off

/-- Forget the reads a job still has queued: it has ended. -/
def Dev.dropReads (d : Dev) (ref : JobRef) : Dev :=
  { d with hif := { d.hif with
      ports := d.hif.ports.map (fun x => { x with readQ := x.readQ.filter (fun r => decide (r.ref ≠ ref)) })
      xlats := d.hif.xlats.filter (fun r => decide (r.ref ≠ ref)) } }

/-! Doorbells (R42, R75, R81, R115 to R119, R135, R137). -/

/-- R42, R75: the tenancy whose doorbell page this is, if the page is live. -/
def Dev.pageTen (d : Dev) (f : Fn) (page : Nat) : Option Nat :=
  match f with
  | .pf n =>
    let x := d.tenGet page
    if 2 ≤ x.st ∧ x.owner = n ∧ (x.binding.elim false (fun b => !b.isVf)) then some page else none
  | .vf p v =>
    (d.ten.tens.find? (fun e => decide (2 ≤ e.2.st ∧ e.2.owner = p) &&
      (e.2.binding.elim false (fun b => b.isVf && decide (b.vf = v ∧ b.slot = page))))).map (·.1)

/-- Whether a local index holds a submission or a completion ring. -/
def Dev.sqAt (d : Dev) (t loc : Nat) : Option (Nat × Sq) :=
  d.ring.sqs.find? (fun e => decide (e.2.ten = t ∧ e.2.loc = loc))
def Dev.cqAt (d : Dev) (t loc : Nat) : Option (Nat × Cq) :=
  d.ring.cqs.find? (fun e => decide (e.2.ten = t ∧ e.2.loc = loc))

/-- R116: a doorbell that is not accepted. -/
def Dev.dbBad (d : Dev) (t : Nat) (ring : Option Nat) (v : Nat) : Dev :=
  let d := d.count (Reg.RING_DB_BAD (d.tenGet t).owner)
  match ring with
  | some r => d.tenEvent t { type := 4, sqid := r, p1 := v }
  | none => d

/-- R116, R117, R119: a submission doorbell of a native ring. -/
def Dev.dbSq (d : Dev) (t q : Nat) (x : Sq) (v : Word) : Dev :=
  let idx := fld v 15 0
  let new := fld v 16 16 * x.size + idx
  if x.size ≤ idx ∨ x.size < distFwd x.log2 x.started new ∨
      distFwd x.log2 x.started new < distFwd x.log2 x.started x.tail then d.dbBad t (some q) v.toNat
  else
    let x := { x with tail := new, state := if x.failed then x.state else 1 }
    d.sqPut q (if bitOf v 31 then x.dropCache else x)

/-- R116: a completion doorbell of a native ring: the head moves, the stash is written first (R130). -/
def Dev.dbCq (d : Dev) (t c : Nat) (x : Cq) (v : Word) : Dev :=
  let idx := fld v 15 0
  let new := fld v 16 16 * x.size + idx
  if x.size ≤ idx ∨ distFwd x.log2 x.head x.write < distFwd x.log2 x.head new then
    d.dbBad t (some c) v.toNat
  else (d.cqPut c { x with head := new }).stashDrain c

/-- R135, R137: a Retas producer index. -/
def Dev.dbRetasPi (d : Dev) (t q : Nat) (x : Sq) (v : Word) : Dev :=
  let pi := fld v 15 0
  if x.size ≤ pi then d.count (Reg.RING_DB_BAD (d.tenGet t).owner)
  else
    let new := posAdd x.log2 x.tail ((pi + x.size - x.tail % x.size) % x.size)
    if x.size ≤ distFwd x.log2 x.started new then d.dbBad t (some q) v.toNat
    else d.sqPut q { x with tail := new, state := if x.failed then x.state else 1 }

/-- R135: a Retas consumer index. -/
def Dev.dbRetasCi (d : Dev) (t c : Nat) (x : Cq) (v : Word) : Dev :=
  let ci := fld v 15 0
  if x.size ≤ ci then d.count (Reg.RING_DB_BAD (d.tenGet t).owner)
  else
    let new := posAdd x.log2 x.head ((ci + x.size - x.head % x.size) % x.size)
    if distFwd x.log2 x.head x.write < distFwd x.log2 x.head new then d.dbBad t (some c) v.toNat
    else (d.cqPut c { x with head := new }).stashDrain c

/-- A write to a doorbell page (R42, R81, R115 to R119, R135, R137). -/
def Dev.doorbell (d : Dev) (f : Fn) (page off size : Nat) (v : Dword) : Dev :=
  match d.pageTen f page with
  | none => d.count (Reg.HIF_DB_STRAY f.port)
  | some t =>
    if (d.tenGet t).st = 5 then d.discard t
    else if ¬ (off % 8 = 0 ∧ (size = 4 ∨ size = 8) ∧ off < 4096) then d.dbBad t none 0
    else
      let w := BitVec.ofNat 32 v.toNat
      match d.sqAt t (off / 8), d.cqAt t (off / 8) with
      | some (q, x), _ => if x.retas then d.dbRetasPi t q x w else d.dbSq t q x w
      | none, some (c, x) => if x.retas then d.dbRetasCi t c x w else d.dbCq t c x w
      | none, none => d.dbBad t none 0

/-- A read of a doorbell page returns the value last recorded for the slot, INV as 0; a Retas slot returns
the ring's own index in its upper word (R42, R115, R135). -/
def Dev.doorbellRead (d : Dev) (f : Fn) (page off : Nat) : Dword :=
  match d.pageTen f page with
  | none => 0
  | some t =>
    match d.sqAt t (off / 8), d.cqAt t (off / 8) with
    | some (_, x), _ =>
      if x.retas then packD [(x.tail % x.size, 0), (x.started % x.size, 32)]
      else packD [(lapIdx x.tail x.log2, 0)]
    | none, some (_, x) =>
      if x.retas then packD [(x.head % x.size, 0), (x.write % x.size, 32)]
      else packD [(lapIdx x.head x.log2, 0)]
    | none, none => 0

/-! The descriptor cache (R114, R118, R120, R570). -/

/-- R121, R122: the cached entries end in a chain whose LAST is not among them. -/
def openChain (l : List SqEntry) : Bool :=
  match l.getLast? with
  | some e => !e.last
  | none => false

/-- R118: entries the device may fetch now: 32, or up to 256 while an open chain stands at the end. -/
def Sq.fetchCount (q : Sq) : Nat :=
  let limit := if openChain q.cache then 256 else 32
  min (q.posted - q.cache.length) (limit - q.cache.length)

/-- The bytes of one entry in host memory (R108, R136). -/
def Sq.entrySize (q : Sq) : Nat := if q.retas then 32 else 64

/-- R81, R107, R118, R567: the ring's entries may be fetched. -/
def Dev.mayFetch (d : Dev) (x : Sq) : Bool :=
  decide (x.state = 1) && d.shutOpen x.ten && !d.fnHeld (d.tenFn x.ten) && decide (x.fetching = 0) &&
    x.reread.isNone

/-- R118: prefetch the posted entries of a ring. -/
def Dev.entryFetch (d : Dev) (q : Nat) : Dev :=
  match kvFind q d.ring.sqs with
  | none => d
  | some x =>
    let n := x.fetchCount
    if !d.mayFetch x || n = 0 then d
    else
      let i := x.cacheEnd % x.size
      let k := min n (x.size - i)
      let d := d.sqPut q { x with fetching := n }
      let g := (d.tenGet x.ten).gen
      let d := d.queueRead x.ten g (.fetch q) (x.base.toNat + i * x.entrySize) (k * x.entrySize) 0
      if k = n then d
      else d.queueRead x.ten g (.fetch q) x.base.toNat ((n - k) * x.entrySize) (k * x.entrySize)

/-- R570: a read of submission entries failed: the ring is HELD and FAILED, RING_FETCH_FAIL is sent; the
entries not read stay posted. -/
def Dev.fetchFail (d : Dev) (q status detail : Nat) : Dev :=
  match kvFind q d.ring.sqs with
  | none => d
  | some x =>
    if x.fetching = 0 ∧ x.reread.isNone then d
    else
      let d := d.dropReads (.fetch q)
      let d := d.sqPut q { x with state := 2, failed := true, failedJob := false, fetching := 0, reread := none }
      d.tenEvent x.ten { type := 7, sqid := q, status := status, detail := detail, p1 := x.cacheEnd }

/-- R113, R114: the phase of an entry matches its position (a Retas entry has none). -/
def Sq.phaseOk (q : Sq) (pos : Nat) (e : SqEntry) : Bool :=
  q.retas || decide (e.phase = decide (pos / q.size % 2 = 0))

/-- Take fetched entries into the cache up to the first whose phase does not match. -/
def Sq.takeEntries (q : Sq) : List SqEntry → Sq
  | [] => q
  | e :: r =>
    if q.phaseOk q.cacheEnd e then ({ q with cache := q.cache ++ [e] }).takeEntries r
    else { q with reread := some 0 }

/-- R120: the device acts on exactly the bytes it read. -/
def Dev.entryFetchDone (d : Dev) (q : Nat) (bytes : List Byte) (err : Option (Nat × Nat)) : Dev :=
  match kvFind q d.ring.sqs with
  | none => d
  | some x =>
    if x.fetching = 0 then d
    else
      let es := (List.range (min x.fetching (bytes.length / x.entrySize))).map (fun i =>
        SqEntry.ofBytes x.retas (slice bytes (i * x.entrySize) x.entrySize))
      let x' := { x with fetching := 0 }.takeEntries es
      match err with
      | none => d.sqPut q x'
      | some (st, det) => (d.sqPut q { x' with fetching := 1 }).fetchFail q st det

/-- R114: a re-read of the entry with a wrong phase; after four the entry is taken as it is and will be
consumed with PHASE. -/
def Dev.phaseReread (d : Dev) (q : Nat) (bytes : List Byte) (err : Option (Nat × Nat)) : Dev :=
  match kvFind q d.ring.sqs with
  | none => d
  | some x =>
    match x.reread, err with
    | none, _ => d
    | some _, some (st, det) => d.fetchFail q st det
    | some n, none =>
      let e := SqEntry.ofBytes x.retas bytes
      if x.phaseOk x.cacheEnd e then d.sqPut q { x with cache := x.cache ++ [e], reread := none }
      else if n + 1 < 4 then d.sqPut q { x with reread := some (n + 1) }
      else d.sqPut q { x with cache := x.cache ++ [e], reread := none,
                              badPhase := x.badPhase ++ [x.cacheEnd] }

/-! Ring commands (R119, R132, R140, R141). -/

/-- R93, R107: the tenancy is in a reset: a ring command ends with ABORTED. -/
def Dev.inReset (d : Dev) (t : Nat) : Bool × Nat × Nat :=
  (decide ((d.tenGet t).st = 5), St.ABORTED, 2)

/-- R140: the vector fields: moderation ranges. -/
def modRange (e : AdmEntry) : Bool × Nat × Nat := (decide (fld e.d5 39 32 = 0), St.RANGE, rangeAt 5 32)

/-- R101, R140: a vector the target may not use. -/
def Dev.vectorChecks (d : Dev) (e : AdmEntry) (t : Nat) : List (Bool × Nat × Nat) :=
  let v := fld e.d6 15 0
  let on := bitOf e.d6 16
  let x := d.tenGet t
  let imt := kvGet {} d.ten.imt v
  let size := match x.fn with
    | some (.vf _ _) => 64
    | _ => 1024
  [(on && x.pasid.isNone && decide (size ≤ v), St.RANGE, rangeAt 6 0),
   (on && x.pasid.isSome && !(imt.v && decide (imt.ten = t)), St.DENIED, 0)]

def modOf (e : AdmEntry) : Mod :=
  { count := fld e.d5 39 32, time := fld e.d5 51 40, vector := fld e.d6 15 0, vecV := bitOf e.d6 16 }

/-- Rings of the tenancy, the queues of its emulated controller among them (R308). -/
def Dev.ringsOf (d : Dev) (t : Nat) : Nat :=
  (d.ring.sqs.filter (fun e => decide (e.2.ten = t))).length +
    (d.ring.cqs.filter (fun e => decide (e.2.ten = t))).length +
    sumNat (d.sto.ctrls.map (fun c => if c.2.ten = t then c.2.sqs.length + c.2.cqs.length else 0))

/-- R308: NVMe queue y of the tenancy's controller holds LOCAL 2y and 2y + 1. -/
def Dev.nvLocal (d : Dev) (t loc : Nat) : Bool :=
  d.sto.ctrls.any (fun c => decide (c.2.ten = t) &&
    (if loc % 2 = 0 then (kvFind (loc / 2) c.2.sqs).isSome else (kvFind (loc / 2) c.2.cqs).isSome))

/-- RING_CREATE (R140, R106): the refusals of R140 in the order of R557, then the ring. -/
def ringCreate (e : AdmEntry) (d : Dev) : AdmRes :=
  let t := e.ten
  let x := d.tenGet t
  let isCq := bitOf e.d2 25
  let retas := bitOf e.d2 26
  let prog := bitOf e.d2 29
  let cls := fld e.d2 34 32
  let lg := fld e.d2 44 40
  let target := isCq || prog
  let num := if isCq then kvFirstFree d.ring.cqs 65536 else kvFirstFree d.ring.sqs 65536
  let cq := d.cqAt t (fld e.d2 56 48)
  admChecks ([d.notOwner e t,
      (decide (lg < 6 ∨ 16 < lg), St.RANGE, rangeAt 2 40),
      (!isCq && decide (4 < cls), St.RANGE, rangeAt 2 32),
      (!isCq && retas && decide (cls = 3 ∨ cls = 4), St.RANGE, rangeAt 2 26),
      (!isCq && prog && decide (cls = 1 ∨ cls = 3), St.RANGE, rangeAt 2 29),
      (decide (fld e.d3 11 0 ≠ 0), St.RANGE, rangeAt 3 0),
      ((retas || (!isCq && prog)) && decide (fld e.d4 2 0 ≠ 0), St.RANGE, rangeAt 4 0),
      (!isCq && decide (fld e.d5 7 0 = 0), St.RANGE, rangeAt 5 0),
      (!isCq && decide (fld e.d5 14 8 = 0 ∨ 64 < fld e.d5 14 8), St.RANGE, rangeAt 5 8),
      (target && (modRange e).1, St.RANGE, rangeAt 5 32),
      (decide (x.st ≠ 2 ∧ x.st ≠ 3), St.STATE, x.st),
      ((d.sqAt t e.loc).isSome || (d.cqAt t e.loc).isSome || d.nvLocal t e.loc, St.DENIED, 1),
      (decide (x.rings ≤ d.ringsOf t), St.NOSPACE, 0),
      (num.isNone, St.NOSPACE, 0),
      (isCq && bitOf e.d2 28 && d.ring.cqs.any (fun c => decide (c.2.ten = t) && c.2.evt), St.DENIED, 1)]
      ++ (if target then d.vectorChecks e t else [])
      ++ [(!isCq && !prog && cq.isNone, St.RANGE, rangeAt 2 48)]) fun _ =>
    let n := num.getD 0
    if isCq then
      .done (d.cqPut n { ten := t, loc := e.loc, log2 := lg, retas := retas, evt := bitOf e.d2 28,
                         base := e.d3, wb := e.d4, mod := modOf e }) n
    else
      .done (d.sqPut n { ten := t, loc := e.loc, cls := cls, retas := retas, scatter := bitOf e.d2 27,
                         prog := prog, cq := cq.elim 0 (·.1), log2 := lg, base := e.d3, wb := e.d4,
                         rweight := fld e.d5 7 0, burst := fld e.d5 14 8, mod := modOf e }) n

/-- What a ring command names, and its state code: 0 where the local index holds no ring (R107). -/
def Dev.ringState (d : Dev) (t loc : Nat) : Nat :=
  match d.sqAt t loc, d.cqAt t loc with
  | some (_, x), _ => x.state
  | none, some (_, x) => x.state
  | none, none => 0

/-- The checks every ring command but RING_CREATE begins with (R73, R93). -/
def Dev.ringPre (d : Dev) (e : AdmEntry) : List (Bool × Nat × Nat) :=
  [d.notOwner e e.ten, (decide ((d.tenGet e.ten).st = 0), St.STATE, 0), d.inReset e.ten]

def ringDestroy (e : AdmEntry) (d : Dev) : AdmRes :=
  let t := e.ten
  let st := d.ringState t e.loc
  match d.sqAt t e.loc, d.cqAt t e.loc with
  | some (q, x), _ =>
    admChecks (d.ringPre e ++ [(decide (x.state ≠ 2 ∧ (d.tenGet t).st = 3), St.STATE, st)]) fun _ =>
      .done ({ d with ring := { d.ring with sqs := kvDel q d.ring.sqs
                                            jobs := d.ring.jobs.filter (fun j => decide (j.sq ≠ q)) } })
  | none, some (c, _) =>
    admChecks (d.ringPre e ++ [(d.ring.sqs.any (fun s => !s.2.prog && decide (s.2.cq = c)), St.STATE, st)])
      fun _ => .done { d with ring := { d.ring with cqs := kvDel c d.ring.cqs } }
  | none, none => admChecks (d.ringPre e ++ [(true, St.STATE, 0)]) fun _ => .done d

/-- RING_DCINV (R119): the ring is held, its unstarted cached entries dropped, its started position
returned. -/
def ringDcinv (e : AdmEntry) (d : Dev) : AdmRes :=
  match d.sqAt e.ten e.loc with
  | some (q, x) =>
    admChecks (d.ringPre e) fun _ =>
      .done (d.sqPut q { x.dropCache with state := 2 }) 0 (lapIdx x.started x.log2)
  | none => admChecks (d.ringPre e ++ [(true, St.STATE, d.ringState e.ten e.loc)]) fun _ => .done d

/-- R128: publish the progress index: TS, LAP and the position of the first job not done. -/
def Dev.publish (d : Dev) (q : Nat) : Dev :=
  match kvFind q d.ring.sqs with
  | none => d
  | some x =>
    if x.published = x.prog_ then d
    else
      let v := packD [(d.ts32, 32), (lapIdx x.prog_ x.log2, 0)]
      ((d.sqPut q { x with published := x.prog_ }).emit (.progress q x.wb.toNat v)).logWrite x.ten x.wb.toNat 8

/-- Remove a job from those in flight. -/
def Dev.jobDrop (d : Dev) (q pos : Nat) : Dev :=
  { d with ring := { d.ring with jobs := d.ring.jobs.filter (fun j => !decide (j.sq = q ∧ j.pos = pos)) } }

/-- R129: RING_RESUME counts the failed job, the first of its ring, as done: the index passes it. -/
def Dev.passFailed (d : Dev) (q : Nat) (x : Sq) : Dev :=
  match d.ring.jobs.find? (fun j => decide (j.sq = q)) with
  | some j => ((d.jobDrop q j.pos).sqPut q { x with prog_ := posAdd x.log2 j.pos j.entries.length }).publish q
  | none => d

/-- A held submission ring returns to ACTIVE. -/
def Dev.sqResume (d : Dev) (q : Nat) : Dev :=
  match kvFind q d.ring.sqs with
  | some x => d.sqPut q { x with state := 1, failed := false, failedJob := false }
  | none => d

/-- RING_RESUME (R129, R131, R140, R570). -/
def ringResume (e : AdmEntry) (d : Dev) : AdmRes :=
  match d.sqAt e.ten e.loc, d.cqAt e.ten e.loc with
  | some (q, x), _ =>
    admChecks (d.ringPre e ++ [(decide (x.state ≠ 2), St.STATE, x.state)]) fun _ =>
      .done ((if x.failedJob then d.passFailed q x else d.sqPut q x).sqResume q)
  | none, some (c, x) =>
    admChecks (d.ringPre e ++ [(decide (x.state ≠ 3), St.STATE, x.state), (!x.room, St.NOSPACE, 0)]) fun _ =>
      .done ((d.cqPut c { x with state := 1 }).stashDrain c)
  | none, none => admChecks (d.ringPre e ++ [(true, St.STATE, 0)]) fun _ => .done d

/-- RING_SET_MOD (R132, R140): a running timer keeps its start. -/
def ringSetMod (e : AdmEntry) (d : Dev) : AdmRes :=
  let set := fun (m : Mod) => { modOf e with n := m.n, timer := m.timer, start := m.start, due := m.due }
  match d.sqAt e.ten e.loc, d.cqAt e.ten e.loc with
  | some (q, x), _ =>
    admChecks (d.ringPre e ++ [modRange e, (!x.prog, St.RANGE, rangeAt 2 16)] ++ d.vectorChecks e e.ten)
      fun _ => .done (d.sqPut q { x with mod := set x.mod })
  | none, some (c, x) =>
    admChecks (d.ringPre e ++ [modRange e] ++ d.vectorChecks e e.ten) fun _ =>
      .done (d.cqPut c { x with mod := set x.mod })
  | none, none => admChecks (d.ringPre e ++ [modRange e, (true, St.STATE, 0)]) fun _ => .done d

/-- RING_SET_SCHED (R124, R140): applies at the next ring-round boundary. -/
def ringSetSched (e : AdmEntry) (d : Dev) : AdmRes :=
  let ranges := [(decide (fld e.d5 7 0 = 0), St.RANGE, rangeAt 5 0),
    (decide (fld e.d5 14 8 = 0 ∨ 64 < fld e.d5 14 8), St.RANGE, rangeAt 5 8)]
  match d.sqAt e.ten e.loc with
  | some (q, x) =>
    admChecks (d.ringPre e ++ ranges) fun _ =>
      .done (d.sqPut q { x with nextSched := some (fld e.d5 7 0, fld e.d5 14 8) })
  | none => admChecks (d.ringPre e ++ ranges ++ [(true, St.STATE, d.ringState e.ten e.loc)]) fun _ => .done d

/-- R141: a tenancy reset of a ring. -/
def Sq.reset (q : Sq) : Sq :=
  { q.dropCache with state := 1, failed := false, failedJob := false, tail := 0, started := 0, prog_ := 0,
                     published := 0, lastWord := none, skipping := false,
                     mod := { q.mod with n := 0, timer := false, due := false } }
def Cq.reset (c : Cq) : Cq :=
  { c with state := 1, write := 0, head := 0, stash := [], evtLost := 0, stallTimer := false,
           mod := { c.mod with n := 0, timer := false, due := false } }

/-! The admin rings (R138, R139, R558, R570). -/

/-- R139: a write to RING_ADM_CFG. While EN is 1 a write that changes a size is ignored and sets CFG_ERR;
setting EN needs both sizes in 6 to 12 and resets both rings. -/
def Dev.admCfg (d : Dev) (pf : Nat) (v : Word) : Dev :=
  d.bar0Write pf (Reg.RING_ADM_CFG pf - pf * 0x4000000) fun d =>
    let x := d.admGet pf
    let old := d.reg (Reg.RING_ADM_CFG pf)
    let v := v &&& 0x83ff1f1f#32
    let bad := fun n => decide (n < 6 ∨ 12 < n)
    let err := d.setBit (Reg.RING_GSTAT pf) 0
    if x.en && bitOf v 31 && decide (v &&& 0x1f1f#32 ≠ old &&& 0x1f1f#32) then err
    else if !x.en && bitOf v 31 && (bad (fld v 4 0) || bad (fld v 12 8)) then err
    else
      let d := d.setReg (Reg.RING_ADM_CFG pf) v
      if bitOf v 31 && !x.en then d.admPut pf { en := true }
      else if !bitOf v 31 && x.en then
        d.admPut pf { x with en := false, closing := true, tail := x.started, fetchFailed := false }
      else d

/-- A write to RING_ADM_DB (R116, R139). -/
def Dev.admSqDoorbell (d : Dev) (pf : Nat) (v : Word) : Dev :=
  d.bar0Write pf 0x400114 fun d =>
    let x := d.admGet pf
    let k := d.admSqLog2 pf
    let idx := fld v 15 0
    let new := fld v 16 16 * 2 ^ k + idx
    if !x.en then d.count (Reg.RING_DB_BAD pf)
    else if 2 ^ k ≤ idx ∨ 2 ^ k < distFwd k x.started new ∨ distFwd k x.started new < distFwd k x.started x.tail then
      (d.count (Reg.RING_DB_BAD pf)).pfEvent pf { type := 4, sqid := 0xFFFF, p1 := v.toNat }
    else d.admPut pf { x with tail := new, fetchFailed := false }

/-- A write to RING_ADM_CQ_DB (R116, R138, R139). -/
def Dev.admCqDoorbell (d : Dev) (pf : Nat) (v : Word) : Dev :=
  d.bar0Write pf 0x400118 fun d =>
    let x := d.admGet pf
    let k := d.admCqLog2 pf
    let idx := fld v 15 0
    let new := fld v 16 16 * 2 ^ k + idx
    if !x.en then d.count (Reg.RING_DB_BAD pf)
    else if 2 ^ k ≤ idx ∨ distFwd k x.head x.write < distFwd k x.head new then
      (d.count (Reg.RING_DB_BAD pf)).pfEvent pf { type := 4, sqid := 0xFFFF, p1 := v.toNat }
    else (d.admPut pf { x with head := new }).admDrain pf

/-- R556: the admin opcodes allocated. -/
def admAllocated (o : Nat) : Bool :=
  [(0x01, 0x03), (0x10, 0x1E), (0x20, 0x25), (0x28, 0x2B), (0x30, 0x43), (0x46, 0x55), (0x58, 0x5A),
   (0x60, 0x66), (0x68, 0x69), (0x70, 0x76), (0x78, 0x7C), (0x80, 0x81), (0x88, 0x88)].any
    (fun r => decide (r.1 ≤ o ∧ o ≤ r.2))

/-- Commands of a PF in progress (R558). -/
def Dev.admBusy (d : Dev) (pf : Nat) : Nat := (d.ring.taken.filter (fun a => decide (a.e.pf = pf))).length

/-- R138, R558: the PF's ring may be served now. -/
def Dev.admReady (d : Dev) (pf : Nat) : Bool :=
  let x := d.admGet pf
  x.en && decide (x.tail ≠ x.started) && !x.fetchFailed && decide (d.admBusy pf < 32) &&
    decide (d.ring.taken.length < 256) && d.admRoom pf && x.stash.isEmpty && !d.fnHeld (.pf pf) &&
    d.glb.planes.ctlUp && !d.pwr.stopK

/-- R558: the PF whose turn it is in the round robin. -/
def Dev.admNext (d : Dev) : Option Nat :=
  ((List.range 16).map (fun i => (d.ring.admTurn + i) % 16)).find? (fun p => d.admReady p)

/-- Control firmware takes an admin entry (R122, R138, R557 check 1, R558, R570): the n entries of a chain
are consumed together; `err` is the failure of the entry read. -/
def Dev.admTake (d : Dev) (e : AdmEntry) (n : Nat) (err : Option (Nat × Nat)) : Dev :=
  if d.admNext ≠ some e.pf then d
  else
    let x := d.admGet e.pf
    let d := { d with ring := { d.ring with admTurn := (e.pf + 1) % 16 } }
    match err with
    | some (st, det) =>
      (d.admPut e.pf { x with fetchFailed := true }).pfEvent e.pf
        { type := 7, sqid := 0xFFFF, status := st, detail := det, p1 := x.started }
    | none =>
      let k := d.admSqLog2 e.pf
      let d := d.admPut e.pf { x with started := posAdd k x.started (max 1 (min n (distFwd k x.started x.tail))) }
      let take := { d with ring := { d.ring with taken := d.ring.taken ++ [{ e := e, priv := d.privNow e.pf }] } }
      if !e.first then take.admComplete e e.opc St.MALFORMED 2 0
      else if !e.last then take.admComplete e e.opc St.MALFORMED 3 0
      else if 1 < n ∨ !admAllocated e.opc then take.admComplete e e.opc St.MALFORMED 1 0
      else take

end Sys2Proof.Machine
end

