-- ==== Sys2Proof/Machine/Sched.lean ====
section
/-! DEFINITION. Jobs: the service order, starting entries, transmit and receive jobs, completions, barriers
and moderation (R109 to R112, R121 to R132). -/

namespace Sys2Proof.Machine

/-! What stands at the front of a ring (R114, R121, R122, R144). -/

/-- The front of a ring's cache: nothing to do yet; a job of n entries; n entries consumed with a result;
n entries of a chain already found too long. -/
inductive Front where
  | wait
  | run (n : Nat)
  | bad (n status detail : Nat)
  | long (n : Nat)
  | skip (n : Nat) (ends : Bool)
  deriving DecidableEq, Repr

/-- R106, R109: the ring's class accepts the opcode. -/
def classAccepts (cls opc : Nat) : Bool :=
  match cls with
  | 0 => decide (opc = 1 ∨ opc = 2)
  | 1 => decide (opc = 3)
  | 2 => decide (opc = 1 ∨ opc = 8)
  | 3 => decide (opc = 1 ∨ (0x10 ≤ opc ∧ opc ≤ 0x16))
  | _ => decide (opc = 1 ∨ (0x20 ≤ opc ∧ opc ≤ 0x23))

/-- R122, R148, R329: opcodes that do not chain. -/
def noChain (opc : Nat) : Bool := decide (opc = 1 ∨ opc = 3 ∨ opc = 8 ∨ opc = 0x22 ∨ opc = 0x23)

/-- Walk a chain from its second entry: n entries are behind, room is how many more it may have. -/
def chainWalk (q : Sq) : List SqEntry → Nat → Nat → Front
  | _, n, 0 => .long n
  | [], _, _ => .wait
  | e :: r, n, k + 1 =>
    if q.badPhase.contains (posAdd q.log2 q.started n) then .bad n St.MALFORMED 3
    else if e.first then .bad n St.MALFORMED 3
    else if e.last then .run (n + 1)
    else chainWalk q r (n + 1) k

/-- The front of a ring. -/
def Sq.front (q : Sq) : Front :=
  if q.skipping then
    match q.cache.findIdx? SqEntry.last with
    | some i => .skip (i + 1) true
    | none => if q.cache.isEmpty then .wait else .skip q.cache.length false
  else
    match q.cache with
    | [] => .wait
    | e :: r =>
      if q.badPhase.contains q.started then .bad 1 St.MALFORMED 5
      else if !e.first then .bad 1 St.MALFORMED 2
      else
        match (if e.last then Front.run 1 else chainWalk q r 1 (min 256 q.size - 1)) with
        | .run n =>
          let es := q.cache.take n
          if es.any (fun x => decide (x.opc ≠ e.opc)) || (decide (1 < n) && noChain e.opc) ||
              !classAccepts q.cls e.opc then .bad n St.MALFORMED 1
          else if es.any (fun x => decide (0x40000000 < x.len)) then .bad n St.RANGE (rangeAt 0 32)
          else if e.opc = 1 ∧ e.len ≠ 0 then .bad n St.RANGE (rangeAt 0 32)
          else if e.opc ≠ 1 ∧ q.cls ≠ 3 ∧ es.any (fun x => decide (x.len = 0)) then
            .bad n St.RANGE (rangeAt 0 32)
          else if e.opc = 2 ∧ bitOf e.d2 2 ∧ (fld e.d2 63 32 < 64 ∨ 16000 < fld e.d2 63 32) then
            .bad n St.RANGE (rangeAt 2 32)
          else .run n
        | f => f

/-- Remove n entries from the front of the cache; they are started (or consumed). -/
def Sq.consume (q : Sq) (n : Nat) : Sq :=
  { q with cache := q.cache.drop n
           badPhase := q.badPhase.filter (fun p => !decide (distFwd q.log2 q.started p < n))
           started := posAdd q.log2 q.started n }

/-! Copy channels a COPY job needs (R149). -/

def Dev.chan (d : Dev) (n : Nat) : Chan := kvGet {} d.dma.chans n

def Dev.chanPut (d : Dev) (n : Nat) (c : Chan) : Dev :=
  { d with dma := { d.dma with chans := kvPut n c d.dma.chans } }

def Dev.chansOf (d : Dev) (t : Nat) : Nat :=
  (d.dma.chans.filter (fun c => decide (c.2.st ≠ 0 ∧ c.2.ten = t))).length

def Dev.idleChan (d : Dev) : Option Nat := leastBelow (fun n => decide ((d.chan n).st = 0)) 256

def Dev.ringJobs (d : Dev) (q : Nat) : Nat := (d.ring.jobs.filter (fun j => decide (j.sq = q))).length

/-- R149: a channel may take the COPY job at the front of the ring. -/
def Dev.copyReady (d : Dev) (q : Nat) (x : Sq) : Bool :=
  let e := x.cache.headD default
  d.idleChan.isSome && decide (d.chansOf x.ten < d.regN Reg.DMA_CHAN_PER_TEN) &&
    decide (d.ringJobs q < 8) && (!bitOf e.d2 2 || decide (d.ringJobs q = 0))

/-! Starting entries (R82, R118, R121, R123). -/

/-- R297: the ring is the receive ring of a QP. -/
def Dev.isRq (d : Dev) (x : Sq) : Bool :=
  decide (x.cls = 3) && d.sto.ctxs.any (fun c => decide (c.2.ten = x.ten) &&
    (match c.2.k with
     | .qp y => decide (y.rqLoc = x.loc)
     | _ => false))

/-- R296: started RDMA jobs of a QP that have not ended. -/
def Dev.qpStarted (d : Dev) (t c : Nat) : Nat :=
  (d.ring.jobs.filter (fun j => decide (j.ten = t ∧ 0x10 ≤ j.opc ∧ j.opc ≤ 0x12 ∧ fld j.firstE.d3 19 0 = c) && j.res.isNone)).length

/-- R296: the list of started work of the entry's QP has room. -/
def Dev.qpRoom (d : Dev) (x : Sq) : Bool :=
  let e := x.cache.headD default
  decide (x.cls ≠ 3 ∨ e.opc < 0x10 ∨ 0x12 < e.opc ∨ d.qpStarted x.ten (fld e.d3 19 0) < 64)

/-- R344: the archive engine runs up to 64 jobs. -/
def Dev.arcRoom (d : Dev) (x : Sq) : Bool :=
  decide (x.cls ≠ 4 ∨ (x.cache.headD default).opc = 1 ∨ (d.ring.jobs.filter (fun j => decide (0x20 ≤ j.opc) && j.res.isNone)).length < 64)

/-- R123, R130: the ring is ready. -/
def Dev.sqReady (d : Dev) (q : Nat) (x : Sq) : Bool :=
  let t := d.tenGet x.ten
  decide (x.state = 1) && decide (x.cls ≠ 1) && !d.isRq x && d.qpRoom x && d.arcRoom x && d.shutOpen x.ten && !d.fnHeld (d.tenFn x.ten) &&
    (decide (t.share.ceiling = 0) || decide (0 < t.bucket)) &&
    (x.prog || !d.stashFull x.cq) &&
    (match x.front with
     | .wait => false
     | .run _ => decide ((x.cache.headD default).opc ≠ 8) || d.copyReady q x
     | _ => true)

/-- A started job at the front of a ring. -/
def Dev.newJob (d : Dev) (q : Nat) (x : Sq) (n : Nat) (prio : Bool) : Job :=
  { sq := q, pos := x.started, ten := x.ten, gen := (d.tenGet x.ten).gen, entries := x.cache.take n,
    priority := prio }

/-- Start or consume what stands at the front of a ring; answers how many entries it took. -/
def Dev.startFront (d : Dev) (q : Nat) (x : Sq) (prio : Bool) : Nat × Dev :=
  let add := fun (d : Dev) (j : Job) => { d with ring := { d.ring with jobs := d.ring.jobs ++ [j] } }
  match x.front with
  | .wait => (0, d)
  | .skip n ends => (n, d.sqPut q { x.consume n with skipping := !ends })
  | .bad n st det =>
    (n, add (d.sqPut q (x.consume n)) { d.newJob q x n prio with res := some { status := st, detail := det } })
  | .long n =>
    (n, add (d.sqPut q { x.consume n with skipping := true })
      { d.newJob q x n prio with res := some { status := St.MALFORMED, detail := 4 } })
  | .run n =>
    let j := d.newJob q x n prio
    let d' := add (d.sqPut q (x.consume n)) j
    if j.opc = 8 then
      match d.idleChan with
      | some c =>
        (n, d'.chanPut c { st := 1, sq := q, pos := x.started, ten := x.ten, tag := j.tag, used := true,
                           addr := j.firstE.addr, addrHbm := bitOf j.firstE.d2 1 })
      | none => (0, d)
    else (n, d')

/-- R123: a ring turn: up to BURST entries, a chain never split, ending early when the ring is not ready. -/
def Dev.ringTurn (d : Dev) (q burst : Nat) (prio : Bool) : Nat → Dev
  | 0 => d
  | fuel + 1 =>
    match kvFind q d.ring.sqs with
    | none => d
    | some x =>
      if burst = 0 ∨ !d.sqReady q x ∨ (prio ∧ (d.tenGet x.ten).credit ≤ 0) then d
      else
        let (n, d') := d.startFront q x prio
        if n = 0 then d else d'.ringTurn q (burst - n) prio fuel

/-- Ready rings of a tenancy with their numbers, in ascending LOCAL order from after `last`, wrapping. -/
def Dev.readyRings (d : Dev) (t last : Nat) : List (Nat × Sq) :=
  let rs := d.ring.sqs.filter (fun e => decide (e.2.ten = t) && d.sqReady e.1 e.2)
  let up := fun l => (List.range 512).filterMap (fun k => (rs.filter l).find? (fun e => decide (e.2.loc = k)))
  up (fun e => decide (last < e.2.loc)) ++ up (fun e => decide (e.2.loc ≤ last))

/-- R124: the ring round of a tenancy wraps: new RWEIGHT and BURST values apply. -/
def Dev.ringRoundEnd (d : Dev) (t : Nat) : Dev :=
  { d with ring := { d.ring with sqs := d.ring.sqs.map (fun e =>
      if e.2.ten = t then
        (e.1, match e.2.nextSched with
          | some (w, b) => { e.2 with rweight := w, burst := b, nextSched := none }
          | none => e.2)
      else e) } }

/-- R123: one ring turn of a tenancy: RWEIGHT turns a ring, rings in ascending LOCAL order, carried over. -/
def Dev.tenTurn (d : Dev) (t : Nat) (prio : Bool) : Dev :=
  let x := d.tenGet t
  let again := (d.ring.sqs.find? (fun e => decide (e.2.ten = t ∧ e.2.loc = x.lastRing) &&
    d.sqReady e.1 e.2)).filter (fun _ => decide (0 < x.ringTurns))
  match again with
  | some (q, r) => (d.tenPut t { x with ringTurns := x.ringTurns - 1 }).ringTurn q r.burst prio 64
  | none =>
    match d.readyRings t x.lastRing with
    | [] => d
    | (q, r) :: _ =>
      let d := if r.loc ≤ x.lastRing then d.ringRoundEnd t else d
      let r := (kvFind q d.ring.sqs).getD r
      (d.tenPut t { x with lastRing := r.loc, ringTurns := r.rweight - 1 }).ringTurn q r.burst prio 64

/-- Tenancies bound to a host port, by number. -/
def Dev.portTens (d : Dev) (p : Nat) : List Nat :=
  (d.ten.tens.filter (fun e => decide (2 ≤ e.2.st) && decide (d.tenPort e.1 = p))).map (·.1)

def Dev.hasReady (d : Dev) (t : Nat) : Bool := !(d.readyRings t 511).isEmpty

def Dev.schedGet (d : Dev) (p : Nat) : HostSched := d.ten.sched.getD p {}
def Dev.schedPut (d : Dev) (p : Nat) (s : HostSched) : Dev :=
  { d with ten := { d.ten with sched := d.ten.sched.set p s } }

/-! Shares (R86, R90, R124). -/

/-- The depth of a bucket at a rate, in eightieths of a byte: the larger of 16 KiB and 10 µs (R86, R123). -/
def tokenDepth (rate : Nat) : Int := max (16384 * 80) (10000 * rate)

/-- A share takes effect: a bucket set where there was none is full; a change of depth cuts it (R86, R90). -/
def Ten.takeShare (x : Ten) (s : Share) (fresh : Bool) : Ten :=
  { x with
    share := s
    bucket := if s.ceiling = 0 then 0
      else if fresh || decide (x.share.ceiling = 0) then tokenDepth s.ceiling
      else min x.bucket (tokenDepth s.ceiling)
    credit := if s.floor = 0 then 0
      else if fresh || decide (x.share.floor = 0) then tokenDepth s.floor
      else min x.credit (tokenDepth s.floor) }

/-- R90: a waiting share takes effect and the commands that waited complete, in order. -/
def Dev.applyShare (d : Dev) (t : Nat) : Dev :=
  let x := d.tenGet t
  match x.waitShare with
  | none => d
  | some s =>
    let d := d.tenPut t { x.takeShare s false with waitShare := none, waitCmds := [] }
    x.waitCmds.foldl (fun d e => d.admLate e 0x17 0 0 0) d

/-- R124: a round boundary of the port: waiting shares apply, and a new round gives every tenancy its
turns. -/
def Dev.roundEnd (d : Dev) (p : Nat) : Dev :=
  let d := (d.portTens p).foldl (fun d t => d.applyShare t) d
  d.schedPut p { d.schedGet p with
    turns := (d.portTens p).filterMap (fun t =>
      let w := (d.tenGet t).share.weight
      if w = 0 then none else some (t, w)) }

/-- R123: tenancies the priority pass serves: floor credit above zero and a ready ring. -/
def Dev.prioTens (d : Dev) (p : Nat) : List Nat :=
  (d.portTens p).filter (fun t => decide (0 < (d.tenGet t).share.floor) && decide (0 < (d.tenGet t).credit) &&
    d.hasReady t)

/-- R123: the next tenancy after `last`, ascending and wrapping, with turns left and a ready ring. -/
def Dev.nextTen (d : Dev) (p : Nat) : Option Nat :=
  let s := d.schedGet p
  let ok := fun t => decide (0 < kvGet 0 s.turns t) && d.hasReady t
  let ts := d.portTens p
  ((ts.filter (fun t => decide (s.last < t))) ++ (ts.filter (fun t => decide (t ≤ s.last)))).find? ok

/-- One pass of the loop of R123: the priority pass, then one weighted turn, or the end of the round. -/
def Dev.schedulerTurn (d : Dev) (p : Nat) : Dev :=
  let d := (d.prioTens p).foldl (fun d t => d.tenTurn t true) d
  match d.nextTen p with
  | none => d.roundEnd p
  | some t =>
    let s := d.schedGet p
    (d.schedPut p { s with last := t, turns := kvSet 0 t (kvGet 0 s.turns t - 1) s.turns }).tenTurn t false

/-- R90: the round boundary a waiting share waits for: it is reached when no tenancy has a turn to take. -/
def Dev.shareApply (d : Dev) (p : Nat) : Dev :=
  if (d.prioTens p).isEmpty ∧ d.nextTen p = none then d.roundEnd p else d

/-! Host-memory writes of a job (R127). -/

/-- Note the last aligned word a job wrote. -/
def Dev.noteWrite (d : Dev) (q pos addr len : Nat) : Dev :=
  if len = 0 then d
  else
    let w := (addr + len - 1) / 4 * 4
    let d := match d.jobFind q pos with
      | some j => d.jobPut { j with wrote := true, lastWord := w, moved := j.moved + len }
      | none => d
    match kvFind q d.ring.sqs with
    | some x => d.sqPut q { x with lastWord := some w }
    | none => d

/-- A data write of a job through the Shutter (R81, R82, R123). -/
def Dev.jobWrite (d : Dev) (j : Job) (addr : Nat) (data : List Byte) (ro : Bool) : Dev :=
  let d := d.tenWrite j.ten j.gen addr data ro
  if d.shutPass j.ten j.gen then (d.noteWrite j.sq j.pos addr data.length).drawBytes j.ten data.length j.priority
  else d

/-- A data write that counts as DELIVERED (R490). -/
def Dev.jobDeliver (d : Dev) (j : Job) (addr : Nat) (data : List Byte) (ro : Bool) : Dev :=
  (d.jobWrite j addr data ro).tollAdd j.ten j.gen 0 data.length

/-! Completing jobs (R121, R126 to R129). -/

/-- The completion entry of a job (R111, R128). -/
def Dev.jobCqe (d : Dev) (j : Job) (r : JobRes) : Cqe :=
  { mkCqe j.sq r.detail j.tag r.status j.opc (j.ts.getD d.ts32) r.len r.d2 r.d3 with
    relaxed := (d.fnGet (d.tenFn j.ten)).relaxed && (!j.wrote || j.confirmed)
    signal := j.irq
    sq := some j.sq }

/-- R126: earlier jobs of the ring are still to be completed (a STORAGE ring completes in any order). -/
def Dev.jobBlocked (d : Dev) (x : Sq) (j : Job) : Bool :=
  decide (x.cls ≠ 3) &&
    ((d.ring.jobs.find? (fun k => decide (k.sq = j.sq))).elim false (fun k => decide (k.pos ≠ j.pos)))

/-- R129: a job on a progress-index ring failed: the index stops at it, the ring is HELD, RING_HELD is
sent. -/
def Dev.progFail (d : Dev) (x : Sq) (j : Job) (r : JobRes) : Dev :=
  if x.failedJob then d
  else
    let d := d.sqPut j.sq { x with state := 2, failed := true, failedJob := true }
    d.tenEvent j.ten { type := 3, status := r.status, detail := r.detail, tag := j.tag, sqid := j.sq, p1 := j.pos }

/-- JOB_COMPLETION: report a finished job in its place (R126 to R130, R82). -/
def Dev.jobComplete (d : Dev) (q pos : Nat) : Dev :=
  match d.jobFind q pos, kvFind q d.ring.sqs with
  | some j, some x =>
    match j.res with
    | none => d
    | some r =>
      if !d.shutPass j.ten j.gen then
        -- a result of an old generation, or with the Shutter closed, never reaches the host (R81, R82)
        (d.jobDrop q pos).discard j.ten
      else if d.jobBlocked x j then d
      else if j.bar && j.wrote && !j.confirmed && !j.noConfirm then
        if j.confirming then d
        else (d.jobPut { j with confirming := true }).queueRead j.ten j.gen (.barrier q pos) j.lastWord 0 0
      else if x.prog then
        if d.fnHeld (d.tenFn j.ten) then d
        else if r.status ≠ 0 then d.progFail x j r
        else
          let d := (d.jobDrop q pos).sqPut q { x with prog_ := posAdd x.log2 pos j.entries.length }
          let d := d.publish q
          if j.irq then d.irqSignal (.sq q) else d
      else if d.stashFull x.cq then d
      else (d.jobDrop q pos).cqPush x.cq j.gen (d.jobCqe j r)
  | _, _ => d

/-- BARRIER_READ_DONE (R109, R127, R162): the confirming read came back; if it failed the job ends as R53
states. -/
def Dev.barrierDone (d : Dev) (q pos : Nat) (err : Option (Nat × Nat)) : Dev :=
  match d.jobFind q pos with
  | none => d
  | some j =>
    if !j.confirming || j.confirmed then d
    else
      let r := j.res.getD { status := 0 }
      let r := match err with
        | some (st, det) => { r with status := st, detail := det }
        | none => r
      let d := (d.dropReads (.barrier q pos)).jobPut { j with confirmed := true, res := some r }
      let d := match kvFind q d.ring.sqs with
        | some x => d.sqPut q { x with lastWord := if j.opc = 1 ∨ x.lastWord = some j.lastWord then none else x.lastWord }
        | none => d
      { d with dma := { d.dma with chans := d.dma.chans.map (fun c =>
          if c.2.st = 2 ∧ c.2.sq = q ∧ c.2.pos = pos then (c.1, { c.2 with st := 0 }) else c) } }

/-! NOP (R109). -/

/-- A NOP is done once every earlier entry of its ring has completed; with BAR it also waits until what they
wrote is confirmed. -/
def Dev.nop (d : Dev) (q pos : Nat) : Dev :=
  match d.jobFind q pos, kvFind q d.ring.sqs with
  | some j, some x =>
    if j.opc ≠ 1 ∨ j.res.isSome ∨ j.confirming then d
    else if (d.ring.jobs.find? (fun k => decide (k.sq = q))) ≠ some j then d
    else
      match j.bar, x.lastWord with
      | true, some w =>
        (d.jobPut { j with confirming := true, wrote := true, lastWord := w }).queueRead j.ten j.gen
          (.barrier q pos) w 0 0
      | _, _ => d.jobEnd q pos { status := 0 }
  | _, _ => d

/-! Transmit (R110). -/

/-- R284: the context a TX job names. -/
def Job.txCtx (j : Job) : Option Nat := if bitOf j.firstE.d3 20 then some (fld j.firstE.d3 19 0) else none

/-- R284: the kind of a crypto context of a tenancy. -/
def Dev.cryKind (d : Dev) (t c : Nat) : Option Nat :=
  (kvFind c d.cry.ctxs).bind (fun x => if x.ten = t then some x.kind else none)

/-- R284: a TX job that names no ESP_OUT, TLS_TX or QUIC_TX context of its tenancy. -/
def Dev.txCtxBad (d : Dev) (j : Job) : Bool :=
  j.txCtx.elim false (fun c => (d.cryKind j.ten c).elim true (fun k => !decide (k = 0x10 ∨ k = 0x12 ∨ k = 0x14)))

/-- TX: read the frame, or every gather part of it, from host memory (R51, R110). -/
def Dev.txStart (d : Dev) (q pos : Nat) : Dev :=
  match d.jobFind q pos with
  | none => d
  | some j =>
    if j.opc ≠ 2 ∨ j.res.isSome ∨ j.reading ∨ !d.jobLive j then d
    else if d.txCtxBad j then d.jobEnd q pos { status := St.DENIED, detail := 2 }
    else
      let d := d.jobPut { j with reading := true, need := j.total }
      (j.entries.foldl (fun (a : Dev × Nat) e =>
        (a.1.queueRead j.ten j.gen (.job q pos) e.addr e.len a.2, a.2 + e.len)) (d, 0)).1

/-- R110: the frames of a TX job: TSO segments, and the checksums asked for. -/
def txFrames (e : SqEntry) (bytes : List Byte) : List (List Byte) :=
  let fs := if bitOf e.d2 2 then Net.segment bytes (fld e.d2 63 32) else [bytes]
  fs.map (fun f =>
    let f := if bitOf e.d2 0 then Net.insertL3 f else f
    if bitOf e.d2 1 then Net.insertL4 f else f)

/-- Put a TX job's frames into the Square, all or none; none: the host port's pool cannot take them now. -/
def Dev.txStore (d : Dev) (j : Job) (st : Stage) : List (List Byte) → Option Dev
  | [] => some d
  | f :: r =>
    (d.sq.store { pool := 16 + d.tenPort j.ten, cells := 0, data := f, stage := st, tenV := true, ten := j.ten, gen := j.gen,
                  port := 16 + d.tenPort j.ten, job := some (j.sq, j.pos), tc := fld j.firstE.d2 10 8 }).bind
      (fun x => (d.setSquare x.2).txStore j st r)

/-- The bytes of a job have all arrived: build its frames. Records of TLS and QUIC are protected in the whole frame
before it is segmented (R280, R281); an ESP frame after. Cells that cannot be taken now are taken at a
later try (the job waits). -/
def Dev.txBuild (d : Dev) (q pos : Nat) : Dev :=
  match d.jobFind q pos with
  | none => d
  | some j =>
    if j.opc ≠ 2 ∨ !j.reading ∨ j.need ≠ 0 ∨ j.frames ≠ 0 ∨ j.res.isSome then d
    else
      let bytes := j.got.flatMap (·.2)
      let k := (j.txCtx.bind (d.cryKind j.ten)).getD 0
      let fs := if k = 0x12 ∨ k = 0x14 then [bytes] else txFrames j.firstE bytes
      match d.txStore j (j.txCtx.elim .arrived .txCrypt) fs with
      | none => d
      | some d' => (d'.jobPut { j with frames := fs.length, moved := j.total, got := [] }).drawBytes j.ten j.total j.priority

/-- Bytes of a job's read arrived. -/
def Dev.jobData (d : Dev) (q pos off : Nat) (b : List Byte) : Dev :=
  match d.jobFind q pos with
  | none => d
  | some j => (d.jobPut { j with got := kvPut off b j.got, need := j.need - b.length }).txBuild q pos

/-- One frame of a TX job has left the device or was dropped: the last one ends the job, with its LEN the
bytes read (R110, R121). A result already set stands. -/
def Dev.frameGone (d : Dev) (job : Option (Nat × Nat)) (d2 : Dword) (d3 : Nat) (bad : Option (Nat × Nat)) : Dev :=
  match job.bind (fun x => d.jobFind x.1 x.2) with
  | none => d
  | some j =>
    let d := d.jobPut { j with frames := j.frames - 1 }
    match bad with
    | some (st, det) => d.jobEnd j.sq j.pos { status := st, detail := det }
    | none =>
      if j.frames ≤ 1 then d.jobEnd j.sq j.pos { status := 0, len := j.total, d2 := d2, d3 := d3 } else d

/-! Receive buffers (R110, R112, R125, R144). -/

/-- RX entries that can never be a buffer are consumed when they come to the front (R110, R122, R144). -/
def Dev.rxPost (d : Dev) (q : Nat) : Nat → Dev
  | 0 => d
  | fuel + 1 =>
    match kvFind q d.ring.sqs with
    | none => d
    | some x =>
      if x.cls ≠ 1 ∨ x.state ≠ 1 then d
      else
        match x.front with
        | .wait => d
        | .run _ => d
        | _ => ((d.startFront q x false).2).rxPost q fuel

/-- What a receive completion carries of the frame (R111, R112). -/
structure RxMeta where
  hash : Nat := 0
  ptype : Nat := 0
  l3ok : Bool := false
  l4ok : Bool := false
  decrypted : Bool := false
  mark : Nat := 0
  ts : Nat := 0

def RxMeta.d2 (m : RxMeta) (more : Bool) : Dword :=
  packD [(m.hash % 2 ^ 32, 0), (m.ptype % 65536, 32), (b2n m.l3ok, 48), (b2n m.l4ok, 49),
    (b2n m.decrypted, 50), (b2n more, 51)]

/-- Place part of a frame in the buffer at the front of an RX ring. -/
def Dev.rxOne (d : Dev) (q : Nat) (x : Sq) (gen : Word) (data : List Byte) (full : Nat) (status : Nat)
    (more : Bool) (m : RxMeta) : Dev :=
  let e := x.cache.headD default
  let j : Job := { sq := q, pos := x.started, ten := x.ten, gen := gen, entries := [e], ts := some (m.ts % 2 ^ 32) }
  let d := { d.sqPut q (x.consume 1) with ring := { (d.sqPut q (x.consume 1)).ring with jobs := d.ring.jobs ++ [j] } }
  let d := if data.isEmpty then d else d.jobDeliver j e.addr data e.ro
  d.jobEnd q j.pos { status := status, len := full, d2 := m.d2 more, d3 := m.mark }

/-- Fill following buffers in order (SCATTER, R144). -/
def Dev.rxScatter (d : Dev) (q : Nat) (gen : Word) (data : List Byte) (m : RxMeta) : Nat → Dev
  | 0 => d
  | fuel + 1 =>
    match kvFind q d.ring.sqs with
    | none => d
    | some x =>
      let n := (x.cache.headD default).len
      if data.length ≤ n then d.rxOne q x gen data data.length 0 false m
      else (d.rxOne q x gen (data.take n) n 0 true m).rxScatter q gen (data.drop n) m fuel

/-- Buffers posted and cached at the front of the ring, by length. -/
def Sq.buffers (x : Sq) : List Nat :=
  (x.cache.takeWhile (fun e => e.first && e.last && decide (e.opc = 3) && decide (0 < e.len))).map SqEntry.len

/-- How many of these buffers a frame of n bytes needs; none: they do not suffice. -/
def buffersFor : List Nat → Nat → Nat → Option Nat
  | [], _, _ => none
  | b :: r, n, k => if n ≤ b then some (k + 1) else buffersFor r (n - b) (k + 1)

/-- Count a frame dropped at its ring (R125). -/
def Dev.rxDrop (d : Dev) (q : Nat) : Dev := d.count (Reg.RING_SQ_DROP q)

/-- R81, R125, R144, R567: a frame for an RX ring. `gen` is the generation it was classified under, `clsOpen` whether the Shutter was OPEN then; `xlat`:
the buffer's translation faulted (R48). Answers whether bytes were placed. -/
def Dev.rxPlace (d : Dev) (q : Nat) (gen : Word) (clsOpen : Bool) (data : List Byte) (m : RxMeta) (xlat : Bool) :
    Bool × Dev :=
  let d := d.rxPost q 512
  match kvFind q d.ring.sqs with
  | none => (false, d)
  | some x =>
    let t := x.ten
    let d := d.setHifPort (d.tenPort t) { d.hifPort (d.tenPort t) with frameAt := some d.nowNs }
    if d.fnHeld (d.tenFn t) then (false, d.count (Reg.HIF_D3_DROP (d.tenPort t)))
    else if (d.tenGet t).gen ≠ gen then (false, d.discard t)
    else if !d.shutPass t gen ∨ (d.shutDraining t ∧ !clsOpen) then (false, d.count (Reg.TEN_RX_SHUT t))
    else if xlat then
      let id := d.hif.nextGroup
      let f := d.tenFn t
      let a := (x.cache.headD default).addr
      let xr : XlatReq := { id := id, port := f.port, fn := f, ten := t, pasid := (d.tenGet t).pasid, page := a / 4096,
                            write := true, ref := .fetch q }
      let d := d.rxDrop q
      if (d.fnGet f).pri ∧ !(d.fnGet f).priStopped then
        let h := { d.hif with nextGroup := id + 1, pageReqs := d.hif.pageReqs ++ [{ group := id, xlat := xr, rx := true }] }
        (false, Dev.emit { d with hif := h } (.pageReq f.port id f (a / 4096)))
      else (false, d)
    else if x.state ≠ 1 ∨ x.buffers = [] ∨ d.stashFull x.cq then (false, d.rxDrop q)
    else if !x.scatter then
      if (x.cache.headD default).len < data.length then
        (false, (d.rxOne q x gen [] data.length St.TOOLONG false m).rxDrop q)
      else (true, d.rxOne q x gen data data.length 0 false m)
    else
      match buffersFor x.buffers data.length 0 with
      | none => (false, d.rxDrop q)
      | some k => (true, d.rxScatter q gen data m k)

/-! Timers (R131, R132). -/

/-- CQ_STALL_TIMEOUT (R131). -/
def Dev.cqStall (d : Dev) (c : Nat) : Dev :=
  match kvFind c d.ring.cqs with
  | none => d
  | some x =>
    if !x.stallTimer then d
    else
      let d := (d.cqPut c { x with state := 3, stallTimer := false }).count (Reg.RING_STALL_CNT (d.tenGet x.ten).owner)
      d.tenEvent x.ten { type := 2, sqid := c }

/-- MOD_TIMER_EXPIRE (R132): frozen while the function is in D3hot (R133). -/
def Dev.modExpire (d : Dev) (src : IrqSrc) : Dev :=
  let m := d.modGet src
  if !m.timer || d.fnD3 (d.tenFn (d.srcTen src)) then d else d.irqFire src

end Sys2Proof.Machine
end

