-- ==== Sys2Proof/Machine/Copy.lean ====
section
/-! DEFINITION. The copy engine (R148 to R168). -/

namespace Sys2Proof.Machine

/-- R151: the fields of a descriptor. -/
def Desc.ofBytes (b : List Byte) : Desc :=
  let d2 : Dword := BitVec.ofNat 64 (leAt b 16 8)
  { src := leAt b 0 8, dst := leAt b 8 8, len := fld d2 63 32, swrap := fld d2 28 24, dwrap := fld d2 20 16,
    nextHbm := bitOf d2 3, dstHbm := bitOf d2 2, srcHbm := bitOf d2 1, last := bitOf d2 0,
    next := leAt b 24 8 / 32 * 32 }

/-- R157: the address of byte i of a side with its wrap. -/
def wrapAddr (a w i : Nat) : Nat := if w = 0 then a + i else a / 2 ^ w * 2 ^ w + (a + i) % 2 ^ w

def Desc.srcAt (x : Desc) (i : Nat) : Nat := wrapAddr x.src x.swrap i
def Desc.dstAt (x : Desc) (i : Nat) : Nat := wrapAddr x.dst x.dwrap i

/-- R154: an HBM request inside one page is allowed by a grant of the tenancy. -/
def Dev.granted (d : Dev) (t a : Nat) (write : Bool) : Bool :=
  (List.range 8).any (fun i =>
    match kvFind (8 * t + i) d.dma.grants with
    | some g => decide (g.base ≤ a ∧ a < g.base + g.size) && (if write then g.w else g.r)
    | none => false)

/-- R152: the reason a descriptor is refused, given the bytes done and the budget. -/
def Desc.refused (x : Desc) (done budget : Nat) : Option Nat :=
  let badWrap := fun w => decide (w ≠ 0 ∧ (w < 12 ∨ 30 < w))
  if x.len = 0 ∨ 0x40000000 < x.len then some 1
  else if badWrap x.swrap || badWrap x.dwrap || decide (x.swrap ≠ 0 ∧ 2 ^ x.swrap < x.len) ||
      decide (x.dwrap ≠ 0 ∧ 2 ^ x.dwrap < x.len) then some 2
  else if budget < done + x.len then some 3
  else none

/-- The job of a channel. -/
def Dev.chanJob (d : Dev) (c : Chan) : Option Job := d.jobFind c.sq c.pos

/-- R163: the completion fields of a copy job. -/
def Chan.result (c : Chan) (status detail reason : Nat) : JobRes :=
  { status := status, detail := detail, len := c.done, d2 := BitVec.ofNat 64 c.addr,
    d3 := reason * 16777216 + min c.doneD 0xFFFF }

/-- R163, R164: the list ended or a descriptor was refused: with BAR 1 and host-memory writes the channel
waits in CONFIRM for its confirming read (R162); otherwise it is IDLE and the job has its result. -/
def Dev.chanEnd (d : Dev) (n : Nat) (c : Chan) (r : JobRes) : Dev :=
  match d.chanJob c with
  | none => d.chanPut n { c with st := 0 }
  | some j =>
    if j.bar && j.wrote then
      ((d.chanPut n { c with st := 2 }).jobPut { j with res := some r, confirming := true }).queueRead j.ten j.gen
        (.barrier c.sq c.pos) j.lastWord 0 0
    else (d.chanPut n { c with st := 0 }).jobEnd c.sq c.pos r

/-- The job ends without a confirmation: aborted after a halt, or poison (R163, R164). -/
def Dev.chanStop (d : Dev) (n : Nat) (c : Chan) (r : JobRes) : Dev :=
  let d := (d.chanPut n { c with st := 0 }).dropReads (.chan n)
  match d.chanJob c with
  | none => d
  | some j => if j.res.isSome then d else d.jobPut { j with res := some r, noConfirm := true }

/-- The list ended at END: DONE, or PARTIAL when a descriptor was skipped (R163, R166). -/
def Dev.chanDone (d : Dev) (n : Nat) (c : Chan) : Dev :=
  if c.skipped then d.chanEnd n c (c.result St.PARTIAL (min c.doneD 0xFFFF) 6)
  else d.chanEnd n c (c.result St.DONE 0 0)

/-- R152: a descriptor was refused. -/
def Dev.chanRefuse (d : Dev) (n : Nat) (c : Chan) (reason : Nat) : Dev :=
  d.chanEnd n c (c.result St.PARTIAL (min c.doneD 0xFFFF) reason)

/-- Ask for the descriptor at the channel's address. -/
def Dev.chanFetch (d : Dev) (n : Nat) (c : Chan) : Dev :=
  let d := d.chanPut n { c with desc := none, snap := none, off := 0 }
  match d.chanJob c with
  | some j => if c.addrHbm then d else d.queueRead j.ten j.gen (.chan n) c.addr 32 0
  | none => d

/-- The latches of R163 and R165. -/
def Dev.chanLatch (d : Dev) (n : Nat) (c : Chan) (addr : Nat) (status detail : Nat) (isDesc hbm write : Bool)
    (off : Nat) : Dev :=
  (((((d.setReg (Reg.DMA_FAIL_ADDR_LO n) (BitVec.ofNat 32 addr)).setReg (Reg.DMA_FAIL_ADDR_HI n)
    (BitVec.ofNat 32 (addr / 2 ^ 32))).setReg (Reg.DMA_FAIL_DIR n)
    (packW [(status % 256, 24), (detail % 65536, 8), (b2n isDesc, 2), (b2n hbm, 1), (b2n write, 0)])).setReg
    (Reg.DMA_FAIL_DESC_LO n) (BitVec.ofNat 32 c.addr)).setReg
    (Reg.DMA_FAIL_DESC_HI n) (BitVec.ofNat 32 (c.addr / 2 ^ 32))).setReg
    (Reg.DMA_FAIL_OFF n) (BitVec.ofNat 32 (off % 2 ^ 31))

/-- R166: abort the job of a halted channel with the fault's STATUS and DETAIL. -/
def Dev.chanAbort (d : Dev) (n : Nat) : Dev :=
  let c := d.chan n
  d.chanStop n c (c.result c.fault.1 c.fault.2 (if c.skipped then 6 else 0))

/-- R165: halt on a bus error: latches, counts, DMA_HALTED; with DMA_HALT_TIME 0 the abort follows at once
(R166). -/
def Dev.chanHalt (d : Dev) (n : Nat) (addr status detail : Nat) (isDesc hbm write : Bool) : Dev :=
  let c := d.chan n
  if c.st ≠ 1 then d
  else
    let off := if isDesc then 0 else c.off
    let d := d.dropReads (.chan n)
    let d := (d.chanLatch n c addr status detail isDesc hbm write off).count Reg.DMA_HALT_CNT
    let d := d.chanPut n { c with st := 3, fault := (status, detail), faultDesc := isDesc }
    let ev : Ev := { type := 0x0100, tag := c.tag, sqid := c.sq, p1 := n, p2 := status * 65536 + detail }
    let d := d.tenEvent c.ten ev
    let d := if (d.evtRing c.ten).isSome then d.pfEvent (d.tenGet c.ten).owner ev else d
    if d.regN Reg.DMA_HALT_TIME = 0 then (d.count Reg.DMA_HALT_TO_CNT).chanAbort n else d

/-- R163: poisoned HBM data: the job ends with INTEGRITY and the line is latched, without a halt. -/
def Dev.chanPoison (d : Dev) (n : Nat) (addr off : Nat) (isDesc : Bool) : Dev :=
  let c := d.chan n
  (d.chanLatch n c addr St.INTEGRITY 0x40 isDesc true false off).chanStop n c (c.result St.INTEGRITY 0x40 7)

/-- COPY (R148, R152): the channel that took the job checks the address of the first descriptor and asks for
it. -/
def Dev.copyStart (d : Dev) (q pos : Nat) : Dev :=
  match d.dma.chans.find? (fun c => decide (c.2.st = 1 ∧ c.2.sq = q ∧ c.2.pos = pos)) with
  | none => d
  | some (n, c) =>
    match d.chanJob c with
    | none => d
    | some j =>
      if j.reading then d
      else
        let d := d.jobPut { j with reading := true }
        if c.addr % 32 ≠ 0 then d.chanRefuse n c 5 else d.chanFetch n c

/-- R158: two ranges of one address space share a byte (neither side wraps). -/
def Desc.overlaps (x : Desc) : Bool :=
  decide (x.src < x.dst + x.len ∧ x.dst < x.src + x.len)

/-- DESCRIPTOR_READ_DONE (R152, R154, R163, R165). A descriptor in HBM is read from HBM; one in host memory
comes with its bytes or the failure of the read. -/
def Dev.descDone (d : Dev) (n : Nat) (bytes : List Byte) (err : Option (Nat × Nat)) (ecc : Ecc) : Dev :=
  let c := d.chan n
  match d.chanJob c with
  | none => d
  | some j =>
    if c.st ≠ 1 ∨ c.desc.isSome ∨ !j.reading then d
    else
      let d := if c.addrHbm then d.applyEcc ecc else d
      if c.addrHbm && !d.granted c.ten c.addr false then d.chanHalt n c.addr St.BUSERR 6 true true false
      else if c.addrHbm && d.hbm.poisoned c.addr 32 then d.chanPoison n c.addr 0 true
      else
        match (if c.addrHbm then none else err) with
        | some (st, det) => d.chanHalt n c.addr st det true false false
        | none =>
          let x := Desc.ofBytes (if c.addrHbm then d.hbm.bytes c.addr 32 else fitTo 32 bytes)
          match x.refused c.done j.firstE.len with
          | some r => d.chanRefuse n c r
          | none =>
            let move := x.srcHbm && x.dstHbm && decide (x.swrap = 0 ∧ x.dwrap = 0) && x.overlaps &&
              decide (x.src < x.dst)
            d.chanPut n { c with desc := some x, off := 0,
                                 snap := if move then some (d.hbm.bytes x.src x.len) else none }

/-- The first byte offset in [o, e) with the property. -/
def firstOff (o e : Nat) (p : Nat → Bool) : Option Nat :=
  ((List.range (e - o)).map (o + ·)).find? p

/-- Write the bytes [o, o + b.length) of a descriptor at their destination. -/
def Dev.chunkWrite (d : Dev) (j : Job) (x : Desc) (o : Nat) (b : List Byte) : Dev :=
  if x.dstHbm then
    (b.zipIdx).foldl (fun d p => d.hbmWrite (x.dstAt (o + p.2)) [p.1]) d
  else if x.dwrap = 0 then d.jobWrite j (x.dst + o) b j.firstE.ro
  else
    let a := x.dstAt o
    let k := 2 ^ x.dwrap - a % 2 ^ x.dwrap
    let d := d.jobWrite j a (b.take k) j.firstE.ro
    if b.length ≤ k then d else d.jobWrite j (x.dstAt (o + k)) (b.drop k) j.firstE.ro

/-- A whole-line write clears a poison mark (R31): the chunk's HBM destination as runs of consecutive
addresses. -/
def Dev.chunkWriteHbm (d : Dev) (x : Desc) (o : Nat) (b : List Byte) : Dev :=
  let a := x.dstAt o
  let k := if x.dwrap = 0 then b.length else min b.length (2 ^ x.dwrap - a % 2 ^ x.dwrap)
  let d := d.hbmWrite a (b.take k)
  if b.length ≤ k then d else d.hbmWrite (x.dstAt (o + k)) (b.drop k)

/-- After the bytes of a chunk: the next chunk, the next descriptor, or the end of the list (R152, R160). -/
def Dev.chunkNext (d : Dev) (n : Nat) (c : Chan) (x : Desc) (dmax : Nat) : Dev :=
  if c.off < x.len then d.chanPut n c
  else
    let c := { c with doneD := c.doneD + 1, acted := c.acted + 1 }
    if x.last then d.chanDone n c
    else if dmax < c.acted then d.chanRefuse n c 4
    else d.chanFetch n { c with addr := x.next, addrHbm := x.nextHbm }

/-- COPY_CHUNK (R150, R154, R157 to R160, R163, R165): one chunk of the current descriptor. Bytes below the
first failing offset are written; there the channel halts, or ends on poison. -/
def Dev.copyChunk (d : Dev) (n : Nat) (inp : ChunkIn) (ecc : Ecc) : Dev :=
  let c := d.chan n
  match d.chanJob c, c.desc with
  | some j, some x =>
    if c.st ≠ 1 then d
    else
      let d := if x.srcHbm then d.applyEcc ecc else d
      let e := min ((c.off / 4096 + 1) * 4096) x.len
      let e := if x.srcHbm || inp.rdErr.isSome then e else min e (c.off + inp.data.length)
      -- the first failing offset of the read, of the write, and the first poisoned line
      let rf := if x.srcHbm then firstOff c.off e (fun i => !d.granted c.ten (x.srcAt i) false)
        else inp.rdErr.map (fun _ => min e (c.off + inp.data.length))
      let wf := if x.dstHbm then firstOff c.off e (fun i => !d.granted c.ten (x.dstAt i) true)
        else inp.wrErr.map (fun w => min e (c.off + w.1))
      let pf := if x.srcHbm then firstOff c.off e (fun i => d.hbm.poisoned (x.srcAt i) 1) else none
      let lim := min (rf.getD e) (min (wf.getD e) (pf.getD e))
      let bytes := if x.srcHbm then
          match c.snap with
          | some s => slice s c.off (lim - c.off)
          | none => (List.range (lim - c.off)).map (fun i => d.hbm.byte (x.srcAt (c.off + i)))
        else inp.data.take (lim - c.off)
      let k := bytes.length
      let d := if x.dstHbm then (d.chunkWriteHbm x c.off bytes).drawBytes j.ten (if x.srcHbm then 0 else k) j.priority
        else d.chunkWrite j x c.off bytes
      let c := { c with off := c.off + k, done := c.done + k }
      let d := d.chanPut n c
      if pf = some c.off ∧ pf.isSome then d.chanPoison n (x.srcAt c.off / 64 * 64) c.off false
      else if rf = some c.off ∧ rf.isSome then
        match x.srcHbm, inp.rdErr with
        | false, some (st, det) => d.chanHalt n (x.srcAt c.off) st det false false false
        | _, _ => d.chanHalt n (x.srcAt c.off) St.BUSERR 6 false true false
      else if wf = some c.off ∧ wf.isSome then
        match x.dstHbm, inp.wrErr with
        | false, some (_, st, det) => d.chanHalt n (x.dstAt c.off) st det false false true
        | _, _ => d.chanHalt n (x.dstAt c.off) St.BUSERR 6 false true true
      else d.chunkNext n c x (fld j.firstE.d2 47 32)
  | _, _ => d

/-- DMA_HALT_TIMEOUT (R166). -/
def Dev.haltTimeout (d : Dev) (n : Nat) : Dev :=
  if (d.chan n).st = 3 then (d.count Reg.DMA_HALT_TO_CNT).chanAbort n else d

/-- R168: the checks of a channel command. -/
def Dev.chanPre (d : Dev) (e : AdmEntry) : List (Bool × Nat × Nat) :=
  let c := d.chan (fld e.d2 23 16)
  [d.notOwner e e.ten, (decide (c.st ≠ 3), St.STATE, c.st), (decide (c.ten ≠ e.ten), St.DENIED, 2)]

/-- DMA_RESUME (R166): on from F; a descriptor fault reads the descriptor again. -/
def dmaResume (e : AdmEntry) (d : Dev) : AdmRes :=
  admChecks (d.chanPre e) fun _ =>
    let n := fld e.d2 23 16
    let c := { d.chan n with st := 1 }
    .done (if c.faultDesc then d.chanFetch n c else d.chanPut n c)

/-- DMA_SKIP (R166): a data fault ends its descriptor at F and the walk goes on with NEXT; a descriptor fault
ends the walk. -/
def dmaSkip (e : AdmEntry) (d : Dev) : AdmRes :=
  admChecks (d.chanPre e) fun _ =>
    let n := fld e.d2 23 16
    let c := { d.chan n with st := 1, skipped := true, acted := (d.chan n).acted + 1 }
    match c.faultDesc, c.desc with
    | false, some x =>
      let dmax := match d.chanJob c with
        | some j => fld j.firstE.d2 47 32
        | none => 0
      .done (if x.last then d.chanDone n c
        else if dmax < c.acted then d.chanRefuse n c 4
        else d.chanFetch n { c with addr := x.next, addrHbm := x.nextHbm })
    | _, _ => .done (d.chanStop n c (c.result St.PARTIAL (min c.doneD 0xFFFF) 6))

/-- DMA_ABORT (R166). -/
def dmaAbort (e : AdmEntry) (d : Dev) : AdmRes :=
  admChecks (d.chanPre e) fun _ => .done (d.chanAbort (fld e.d2 23 16))

/-- DMA_GRANT (R154, R155): in effect at once; its completion waits while a channel of the tenancy may have
requests in flight under the old grant. -/
def dmaGrant (e : AdmEntry) (d : Dev) : AdmRes :=
  let t := e.ten
  let i := fld e.d2 18 16
  let v := bitOf e.d2 32
  let base := e.d3.toNat
  let size := e.d4.toNat
  admChecks [d.notOwner e t,
      (v && decide (base % 4096 ≠ 0), St.RANGE, rangeAt 3 0),
      (v && decide (size = 0 ∨ size % 4096 ≠ 0), St.RANGE, rangeAt 4 0),
      (v && decide (hbmReserved < base + size), St.RANGE, rangeAt 4 0),
      (decide ((d.tenGet t).st < 2 ∨ (d.tenGet t).st = 5), St.STATE, (d.tenGet t).st)] fun _ =>
    let g := if v then kvPut (8 * t + i) { base := base, size := size, r := bitOf e.d2 33, w := bitOf e.d2 34 }
        d.dma.grants
      else kvDel (8 * t + i) d.dma.grants
    let d := { d with dma := { d.dma with grants := g } }
    if d.dma.chans.any (fun c => decide (c.2.st = 1 ∧ c.2.ten = t)) then
      .wait { d with dma := { d.dma with waiting := d.dma.waiting ++ [e] } }
    else .done d

/-- GRANT_DRAINED (R155): no request checked under the old grant remains; the oldest waiting DMA_GRANT of the
tenancy completes. -/
def Dev.grantDrained (d : Dev) (t : Nat) : Dev :=
  match d.dma.waiting.find? (fun e => decide (e.ten = t)) with
  | none => d
  | some e => ({ d with dma := { d.dma with waiting := d.dma.waiting.erase e } }).admLate e 0x28 0 0 0

end Sys2Proof.Machine
end

