-- ==== Sys2Proof/Machine/Hif.lean ====
section
/-! DEFINITION. The PCIe ports: links, configuration requests, Casement windows, translation, reads and
their tags, LTR, D-states, Bus Master Enable, MSI-X and AER (R38 to R71, R567, R568). -/

namespace Sys2Proof.Machine

/-! Advanced error reporting (R65). Bit numbers of the AER status registers are PCIe's (log 9). -/

/-- Record an uncorrectable error in a function's AER, with its header if it has one; more than 4 headers
are lost and recorded as Header Log Overflow. -/
def Dev.aerUnc (d : Dev) (f : Fn) (bit : Nat) (header : Bool) : Dev :=
  let c := d.fnGet f
  let a := c.aer
  let a := { a with unc := a.unc ||| BitVec.ofNat 32 (2 ^ bit) }
  let a := if !header then a
    else if a.headers < 4 then { a with headers := a.headers + 1 }
    else { a with cor := a.cor ||| 0x8000#32 }
  d.fnPut f { c with aer := a }

/-- Record an uncorrectable error reported as advisory non-fatal: its bit and the advisory bit of the
correctable status. -/
def Dev.aerAdvisory (d : Dev) (f : Fn) (bit : Nat) : Dev :=
  let d := d.aerUnc f bit true
  let c := d.fnGet f
  d.fnPut f { c with aer := { c.aer with cor := c.aer.cor ||| 0x2000#32 } }

/-- Function 0 of a port: PF0 or PF8 (R44). -/
def fn0 (p : Nat) : Fn := .pf (8 * p)

/-! Links and configuration requests. -/

/-- PCIE_LINK_UP (R60, R66, HIF_LIVE of R70): the link trains; the port accepts configuration requests. -/
def Dev.pcieLinkUp (d : Dev) (p speed width : Nat) (flit : Bool) : Dev :=
  let x := d.hifPort p
  if x.linkUp ∨ x.perst then d
  else
    (d.setHifPort p { x with linkUp := true, speed := speed % 16, width := width % 32, flit := flit, l1 := false,
                             ups := min (x.ups + 1) 0xFF }).wakeFrom 5

/-- TotalVFs applied (R40). -/
def Dev.totalVfs (d : Dev) (pf : Nat) : Nat := d.hif.applied.getD pf 0 % 2048

/-- R39: First VF Offset of a PF. -/
def Dev.firstVf (d : Dev) (pf : Nat) : Nat :=
  8 - pf % 8 + sumNat ((List.range (pf % 8)).map (fun j => d.totalVfs (pf / 8 * 8 + j)))

/-- A dword of configuration space (R43, R44, R39): identification and SR-IOV values; none: a field this
model does not hold (its read returns a free value, log 10). -/
def Dev.cfgDword (d : Dev) (f : Fn) (off : Nat) : Option Word :=
  let nvme := d.vfNvme f.pfOf
  let isPf := match f with
    | .pf _ => true
    | .vf _ _ => false
  let at0 := match f with
    | .pf n => decide (n % 8 = 0)
    | .vf _ _ => false
  let devId := if isPf then 0x3216 else if nvme then 0x3218 else 0x3217
  match off with
  | 0x00 => some (packW [(0x1FD4, 0), (devId, 16)])
  | 0x08 => some (if !isPf && nvme then 0x010802B0#32 else 0x020000B0#32)
  | 0x0C => some (if at0 then 0x00800000#32 else 0#32)
  | 0x2C => some 0x00001FD4#32
  | 0x3C => some 0#32
  | 0x16C => if isPf then some (packW [(d.totalVfs f.pfOf, 0), (d.totalVfs f.pfOf, 16)]) else some 0#32
  | 0x170 => if isPf then some (packW [((d.fnGet f).numVfs, 0)]) else some 0#32
  | 0x174 => if isPf then some (packW [(d.firstVf f.pfOf, 0), (1, 16)]) else some 0#32
  | 0x178 => if isPf then some (packW [(if nvme then 0x3218 else 0x3217, 16)]) else some 0#32
  | _ => none

/-- A write of one configuration field. Fields whose clearing or setting is a command of its own (VF Enable
cleared, Bus Master Enable, D-state, FLR) are written by that command. -/
def FnCfg.write (c : FnCfg) (x : CfgField) (v : Nat) : FnCfg :=
  let b := decide (v ≠ 0)
  match x with
  | .memSpace => { c with memSpace := b }
  | .msixEnable => { c with msixEnable := b }
  | .functionMask => { c with functionMask := b }
  | .atsEnable => { c with ats := b }
  | .priEnable => { c with pri := b }
  | .priReset => if b then { c with priStopped := false } else c
  | .pasidEnable => { c with pasid := b }
  | .roEnable => { c with relaxed := b }
  | .idoEnable => { c with ido := b }
  | .ltrEnable => { c with ltr := b }
  | .ctv => { c with ctv := v % 16 }
  | .mrrs => { c with mrrs := 128 * 2 ^ min (v % 8) 5 }
  | .stu => { c with stu := v % 32 }
  | .priAlloc => { c with priAlloc := v }
  | .numVfs => if c.vfEnable then c else { c with numVfs := v % 65536 }
  | .vfEnable => if b then { c with vfEnable := true } else c
  | .maxSnoop => { c with maxSnoop := some v }
  | .maxNoSnoop => { c with maxNoSnoop := some v }
  | .bar4Base => { c with bar4 := v }
  | .bar4Log2 => { c with bar4Log2 := max 30 (min v 36) }
  | .aspm => { c with aspm := v % 4 }
  | .pmeStatusClear => if b then { c with pmeStatus := false } else c
  | .uncStatusClear => { c with aer := { c.aer with unc := c.aer.unc &&& ~~~(BitVec.ofNat 32 v), headers := 0 } }
  | .corStatusClear => { c with aer := { c.aer with cor := c.aer.cor &&& ~~~(BitVec.ofNat 32 v) } }

/-- CONFIG_REQUEST (R68): answered with Configuration Request Retry Status until the port is ready; a write
captures the bus number. -/
def Dev.configRequest (d : Dev) (f : Fn) (bus : Nat) (op : CfgOp) : Dev :=
  let p := f.port
  let x := d.hifPort p
  if !x.linkUp then d
  else if !d.regBit Reg.GLB_STAT 0 then d.emit (.retryStatus p)
  else
    match op with
    | .read off =>
      match d.cfgDword f (off / 4 * 4) with
      | some w => d.emit (.readDone p (leBytes 4 w.toNat))
      | none =>
        let (n, d) := d.draw
        d.emit (.readDone p (freeBytes n 4))
    | .write fld v =>
      let d := d.setHifPort p { x with bus := bus % 256 }
      (d.fnPut f ((d.fnGet f).write fld v)).msixFlush f

/-! Casement windows (R61 to R63, R156). -/

/-- The shadow set as written (R62). -/
def Dev.shadowWin (d : Dev) (p w : Nat) : CasWin :=
  let ctl := d.reg (Reg.HIF_WIN_CTL p w)
  { base := d.regN (Reg.HIF_WIN_BASE_LO p w) + 2 ^ 32 * d.regN (Reg.HIF_WIN_BASE_HI p w)
    log2 := d.regN (Reg.HIF_WIN_SIZE p w)
    tgt := d.regN (Reg.HIF_WIN_TGT_LO p w) + 2 ^ 32 * d.regN (Reg.HIF_WIN_TGT_HI p w)
    en := bitOf ctl 3, ridf := bitOf ctl 2, wr := bitOf ctl 1, rd := bitOf ctl 0
    mask := d.regFld (Reg.HIF_WIN_RID p w) 31 16, rid := d.regFld (Reg.HIF_WIN_RID p w) 15 0 }

/-- R62: an enabled window the commit refuses. -/
def CasWin.bad (w : CasWin) (bar4 : Nat) : Bool :=
  w.en && (decide (w.log2 < 12 ∨ 36 < w.log2) || decide (w.base % 2 ^ w.log2 ≠ 0) ||
    decide (2 ^ bar4 < w.base + 2 ^ w.log2) || decide (w.tgt % 4096 ≠ 0) ||
    decide (hbmReserved < w.tgt + 2 ^ w.log2))

/-- R62: two enabled windows overlap in BAR4. -/
def CasWin.overlaps (a b : CasWin) : Bool :=
  a.en && b.en && decide (a.base < b.base + 2 ^ b.log2 ∧ b.base < a.base + 2 ^ a.log2)

def anyOverlap : List CasWin → Bool
  | [] => false
  | a :: r => r.any (fun b => a.overlaps b) || anyOverlap r

/-- R62: a shadow set that passes validation. -/
def winSetOk (ws : List CasWin) (bar4 : Nat) : Bool := !ws.any (·.bad bar4) && !anyOverlap ws

/-- HIF_WIN_COMMIT (R62). -/
def Dev.winCommit (d : Dev) (pf p : Nat) (v : Word) : Dev :=
  d.bar0Write pf (0x100100 + p * 0x10000) fun d =>
    if !bitOf v 0 then d
    else if !d.regBit (Reg.HIF_WIN_STAT p) 0 then d.setBit (Reg.HIF_WIN_STAT p) 2
    else
      let ws := (List.range 64).map (d.shadowWin p)
      if !winSetOk ws (d.fnGet (fn0 p)).bar4Log2 then d.setBit (Reg.HIF_WIN_STAT p) 1
      else d.setHifPort p { d.hifPort p with winsNext := some ws }

/-- WIN_SET_APPLY (R62): at the next TLP boundary. -/
def Dev.winApply (d : Dev) (p : Nat) : Dev :=
  match (d.hifPort p).winsNext with
  | none => d
  | some ws => (d.setHifPort p { d.hifPort p with wins := ws, winsNext := none }).clrBit (Reg.HIF_WIN_STAT p) 0

/-- WIN_RETIRED (R63): the last old-set TLP has drained. -/
def Dev.winRetired (d : Dev) (p : Nat) : Dev :=
  if (d.hifPort p).winsNext.isSome then d else d.setBit (Reg.HIF_WIN_STAT p) 0

/-- A requester ID of the device itself on this port matches no window (R156). -/
def Dev.ownRid (d : Dev) (p rid : Nat) : Bool :=
  decide (rid / 256 = (d.hifPort p).bus) && decide (rid % 256 < 8)

/-- R61: the HBM address of a TLP of n bytes at BAR4 offset o. -/
def Dev.casement (d : Dev) (p rid o n : Nat) (write : Bool) : Option Nat :=
  if d.ownRid p rid then none
  else
    ((d.hifPort p).wins.find? (fun w => w.en && decide (w.base ≤ o ∧ o + n ≤ w.base + 2 ^ w.log2) &&
      (if write then w.wr else w.rd) && (!w.ridf || decide (rid &&& w.mask = w.rid &&& w.mask)))).map
      (fun w => w.tgt + (o - w.base))

/-- R63: a TLP that matches no window is logged when the log is armed. -/
def Dev.winMiss (d : Dev) (p rid o : Nat) (write : Bool) : Dev :=
  if d.regBit (Reg.HIF_STAT p) 3 then d
  else
    ((d.setReg (Reg.HIF_WIN_MISS_LOG_LO p) (BitVec.ofNat 32 o)).setReg (Reg.HIF_WIN_MISS_LOG_HI p)
      (packW [(rid % 65536, 16), (b2n write, 4), (o / 2 ^ 32 % 16, 0)])).setBit (Reg.HIF_STAT p) 3

/-- R69: BAR4 decodes nothing until Memory Space Enable is set. -/
def Dev.bar4On (d : Dev) (p : Nat) : Bool := (d.fnGet (fn0 p)).memSpace

/-- CASEMENT_WRITE (R61, R63). -/
def Dev.casWrite (d : Dev) (p rid o : Nat) (data : List Byte) : Dev :=
  if !d.bar4On p then d.aerAdvisory (fn0 p) 20
  else
    match d.casement p rid o data.length true with
    | some a => if hbmReserved < a + data.length then d.fwRefuse a (8 * p) true else d.hbmWrite a data
    | none => ((d.count (Reg.HIF_WIN_MISS_WR p)).aerAdvisory (fn0 p) 20).winMiss p rid o true

/-- CASEMENT_READ (R61, R63, R31). Bytes of a poisoned line are free values: poison is never forwarded. -/
def Dev.casRead (d : Dev) (p rid o n : Nat) (ecc : Ecc) : Dev :=
  if !d.bar4On p then (d.aerUnc (fn0 p) 20 true).emit (.unsupportedReq p)
  else
    match d.casement p rid o n false with
    | some a =>
      let d := d.applyEcc ecc
      let (k, d) := d.draw
      d.emit (.readDone p ((List.range n).map (fun i =>
        if d.hbm.poisoned (a + i) 1 then Config.freeByte k i else d.hbm.byte (a + i))))
    | none =>
      (((d.count (Reg.HIF_WIN_MISS_RD p)).aerUnc (fn0 p) 20 true).winMiss p rid o false).emit (.unsupportedReq p)

/-- CASEMENT_ATOMIC (R61): an AtomicOp to BAR4 receives Unsupported Request. -/
def Dev.casAtomic (d : Dev) (p : Nat) : Dev := (d.aerUnc (fn0 p) 20 true).emit (.unsupportedReq p)

/-! Failing work (R53). -/

/-- R96, R97: the read behind the last bitmap write of the oldest waiting flush came back, or failed:
LOG_FLUSH or LOG_STOP completes; after a LOG_STOP the log is gone. -/
def Dev.logEnd (d : Dev) (t : Nat) (err : Option (Nat × Nat)) : Dev :=
  let x := d.tenGet t
  match x.log with
  | none => d
  | some l =>
    match l.waiting with
    | [] => d
    | (e, stop, oor, buf) :: r =>
      let d := d.dropReads (.logFlush t)
      let d := d.tenPut t { x with log := if stop then none else some { l with waiting := r } }
      let opc := if stop then 0x1A else 0x19
      match err with
      | some (st, det) => d.admLate e opc st det 0
      | none => d.admLate e opc 0 (b2n oor + 2 * buf) 0

/-- A read of an engine of the device. -/
def Dev.engGet (d : Dev) (id : Nat) : EngRead := kvGet { need := 0 } d.hif.eng id
def Dev.engPut (d : Dev) (id : Nat) (x : EngRead) : Dev := { d with hif := { d.hif with eng := kvPut id x d.hif.eng } }

/-- Queue a read of host memory for an engine; answers its number. -/
def Dev.engRead (d : Dev) (t : Nat) (gen : Word) (addr len : Nat) : Nat × Dev :=
  let id := d.hif.nextEng
  let d := { d with hif := { d.hif with nextEng := id + 1, eng := kvPut id { need := len } d.hif.eng } }
  (id, d.queueRead t gen (.eng id) addr len 0)

/-- Bytes of an engine's read arrived. -/
def Dev.engData (d : Dev) (id off : Nat) (b : List Byte) : Dev :=
  let x := d.engGet id
  d.engPut id { x with got := kvPut off b x.got, need := x.need - b.length }

/-- Work that a failed request belongs to ends with the status and detail (R53, R165, R570). -/
def Dev.refFail (d : Dev) (r : JobRef) (st det : Nat) : Dev :=
  match r with
  | .fetch q => d.fetchFail q st det
  | .job q pos => (d.dropReads r).jobEnd q pos { status := st, detail := det }
  | .barrier q pos => d.barrierDone q pos (some (st, det))
  | .chan n => (d.dropReads r).chanHalt n (d.chan n).addr st det true (d.chan n).addrHbm false
  | .logFlush t => d.logEnd t (some (st, det))
  | .eng id => (d.dropReads r).engPut id { (d.engGet id) with err := some (st, det), need := 0 }

/-! Reads and tags (R50 to R52). -/

/-- Tag values in use, quarantined ones included. -/
def Dev.tagUsed (d : Dev) (p v : Nat) : Bool :=
  (kvFind v (d.hifPort p).tags).isSome || d.hif.xlats.any (fun x => decide (x.port = p ∧ x.id = v))

/-- A free tag value: the lowest (DESIGN CHOICE, log 8). -/
def Dev.freeTag (d : Dev) (p : Nat) : Option Nat := leastBelow (fun v => !d.tagUsed p v) 16384

/-- R50: requests outstanding on a port. -/
def Dev.outstanding (d : Dev) (p : Nat) : Nat :=
  ((d.hifPort p).tags.filter (fun t => !t.2.quarantined)).length +
    (d.hif.xlats.filter (fun x => decide (x.port = p))).length

/-- R80: requests of a tenancy outstanding on the link, across both ports. -/
def Dev.tenReads (d : Dev) (t : Nat) : Nat :=
  sumNat (d.hif.ports.map (fun p => (p.tags.filter (fun x => !x.2.quarantined && decide (x.2.req.ten = t))).length)) +
    (d.hif.xlats.filter (fun x => decide (x.ten = t))).length

/-- R46: the cached translation of an address. -/
def Dev.atcFind (d : Dev) (p : Nat) (f : Fn) (pasid : Option Nat) (addr : Nat) (write : Bool) : Option AtcEntry :=
  d.hif.atc.find? (fun e => decide (e.port = p ∧ e.fn = f ∧ e.pasid = pasid) &&
    decide (e.page / 2 ^ (e.log2 - 12) = addr / 2 ^ e.log2) && (!write || e.write))

/-- R46: ask for the translation of the page of an address, aligned to the STU. -/
def Dev.xlatAsk (d : Dev) (x : XlatReq) : Dev :=
  ({ d with hif := { d.hif with xlats := d.hif.xlats ++ [x] } } : Dev).emit (.xlatReq x.port x.id x.fn x.pasid x.page)

/-- R50, R51: a new non-posted request of the tenancy may be issued on the port. -/
def Dev.mayRequest (d : Dev) (p t : Nat) : Bool :=
  decide (d.outstanding p < d.regN (Reg.HIF_TAG_LIMIT p)) && decide (d.tenReads t < d.regN (Reg.TEN_READ_LIMIT t))

/-- Take the first queued read of a tenancy off a port's queue. -/
def dropFirst (t : Nat) : List ReadReq → List ReadReq
  | [] => []
  | r :: rs => if r.ten = t then rs else r :: dropFirst t rs

/-- READ_ISSUE (R46, R50, R51, R567): the oldest queued read of a tenancy takes a tag and is sent; a miss in
the translation cache asks for the translation first. -/
def Dev.readIssue (d : Dev) (p t : Nat) : Dev :=
  let x := d.hifPort p
  match x.readQ.find? (fun r => decide (r.ten = t)) with
  | none => d
  | some r =>
    if r.gen ≠ (d.tenGet t).gen ∧ r.ref ≠ .logFlush t then d.setHifPort p { x with readQ := dropFirst t x.readQ }
    else if !(d.fnGet r.fn).bme ∨ !d.mayRequest p t then d
    else
      match d.freeTag p with
      | none => d
      | some v =>
        let c := d.fnGet r.fn
        let pasid := if r.ref = .logFlush t then none else (d.tenGet t).pasid
        if c.ats ∧ (d.atcFind p r.fn pasid r.addr false).isNone then
          let page := r.addr / 2 ^ (12 + c.stu) * 2 ^ c.stu
          if d.hif.xlats.any (fun y => decide (y.ref = r.ref ∧ y.page = page)) ∨
              d.hif.pageReqs.any (fun y => decide (y.xlat.ref = r.ref ∧ y.xlat.page = page ∧ !y.rx)) then d
          else (d.wakeLink p).xlatAsk { id := v, port := p, fn := r.fn, ten := t, pasid := pasid, page := page,
                                        write := false, ref := r.ref }
        else
          let d := d.wakeLink p
          let x := d.hifPort p
          (d.setHifPort p { x with readQ := dropFirst t x.readQ, tags := kvPut v { req := r } x.tags }).emit
            (.readReq p v r.fn r.addr r.len)

/-- A tag value returns to use; reads that hold up an invalidation are noted as ended (R47, R51). -/
def Dev.tagFree (d : Dev) (p v : Nat) : Dev :=
  let x := d.hifPort p
  d.setHifPort p { x with tags := kvDel v x.tags
                          inv := x.inv.map (fun i => { i with using_ := i.using_.filter (fun w => decide (w ≠ v)) }) }

/-- READ_COMPLETION (R51, R53): the data goes to the work that asked, or the work ends. Bytes of submission
entries, copy descriptors and confirming reads are taken by the commands that stand for their arrival. -/
def Dev.readCompletion (d : Dev) (p v : Nat) (e : ReadEnd) : Dev :=
  match kvFind v (d.hifPort p).tags with
  | none => d
  | some t =>
    if t.quarantined then d
    else
      let r := t.req
      let d := d.tagFree p v
      let d := match e with
        | .poisoned => d.aerUnc r.fn 12 true
        | _ => d
      if r.gen ≠ (d.tenGet r.ten).gen ∧ r.ref ≠ .logFlush r.ten then d.discard r.ten
      else
        match e.err, r.ref with
        | some (st, det), _ => d.refFail r.ref st det
        | none, .job q pos =>
          let op := (d.jobFind q pos).elim 0 Job.opc
          let d := if op = 2 ∨ op = 0x10 ∨ op = 0x11 ∨ op = 0x15 then d.tollAdd r.ten r.gen 1 r.len else d
          d.jobData q pos r.off (fitTo r.len e.bytes)
        | none, .barrier q pos => d.barrierDone q pos none
        | none, .logFlush t => d.logEnd t none
        | none, .eng id => (d.tollAdd r.ten r.gen 1 r.len).engData id r.off (fitTo r.len e.bytes)
        | none, _ => d

/-- COMPLETION_TIMEOUT (R51 step 4a). -/
def Dev.cplTimeout (d : Dev) (p v : Nat) : Dev :=
  match kvFind v (d.hifPort p).tags with
  | none => d
  | some t =>
    if t.quarantined then d
    else
      let d := d.tagFree p v
      let x := d.hifPort p
      let d := d.setHifPort p { x with tags := kvPut v { t with quarantined := true } x.tags }
      ((d.count (Reg.HIF_CPL_TO_CNT p)).aerUnc t.req.fn 14 false).refFail t.req.ref St.TIMEOUT 1

/-- LATE_COMPLETION (R51 step 5a). -/
def Dev.lateCpl (d : Dev) (p v : Nat) : Dev :=
  match kvFind v (d.hifPort p).tags with
  | some t =>
    if t.quarantined then (((d.tagFree p v).count (Reg.HIF_LATE_CPL p)).aerAdvisory t.req.fn 16) else d
  | none => d

/-- QUARANTINE_RELEASE (R51 step 5b). -/
def Dev.quarRelease (d : Dev) (p v : Nat) : Dev :=
  match kvFind v (d.hifPort p).tags with
  | some t => if t.quarantined then d.tagFree p v else d
  | none => d

/-! Address translation (R46 to R48). -/

/-- Add a translation to the cache; the oldest of 65,536 makes room (DESIGN CHOICE, log 8). -/
def Dev.atcAdd (d : Dev) (e : AtcEntry) : Dev :=
  let a := d.hif.atc.filter (fun x => !decide (x.port = e.port ∧ x.fn = e.fn ∧ x.pasid = e.pasid ∧ x.page = e.page))
  { d with hif := { d.hif with atc := (a ++ [e]).drop (a.length + 1 - 65536) } }

/-- R48: a page request for the function fits. -/
def Dev.pageReqFits (d : Dev) (f : Fn) : Bool :=
  decide (d.hif.pageReqs.length < 4096) &&
    decide ((d.hif.pageReqs.filter (fun r => decide (r.xlat.fn = f))).length < (d.fnGet f).priAlloc)

/-- R48: issue a Page Request Group. -/
def Dev.pageAsk (d : Dev) (x : XlatReq) : Dev :=
  let g := d.hif.nextGroup
  ({ d with hif := { d.hif with nextGroup := g + 1, pageReqs := d.hif.pageReqs ++ [{ group := g, xlat := x }] } } : Dev).emit
    (.pageReq x.port g x.fn x.page)

/-- TRANSLATION_COMPLETION (R46, R47, R53). -/
def Dev.xlatDone (d : Dev) (p id log2 addr : Nat) (rOk wOk : Bool) (e : ReadEnd) : Dev :=
  match d.hif.xlats.find? (fun x => decide (x.port = p ∧ x.id = id)) with
  | none => d
  | some x =>
    let d := { d with hif := { d.hif with xlats := d.hif.xlats.filter (fun y => !decide (y.port = p ∧ y.id = id)) } }
    match e.err with
    | some (st, det) => d.refFail x.ref st det
    | none =>
      if x.stale then d.xlatAsk { x with stale := false }
      else if !(if x.write then wOk else rOk) then
        let c := d.fnGet x.fn
        if c.pri ∧ !c.priStopped then (if d.pageReqFits x.fn then d.pageAsk x else d)
        else d.refFail x.ref St.BUSERR 4
      else
        let k := max 12 (min log2 30)
        d.atcAdd { port := p, fn := x.fn, pasid := x.pasid, page := x.page / 2 ^ (k - 12) * 2 ^ (k - 12), log2 := k,
                   addr := addr, write := wOk }

/-- Take a page request out of those outstanding. -/
def Dev.pageDrop (d : Dev) (g : Nat) : Dev :=
  { d with hif := { d.hif with pageReqs := d.hif.pageReqs.filter (fun r => decide (r.group ≠ g)) } }

/-- PAGE_REQUEST_RESPONSE (R48): 0 Success, 1 Invalid Request, any other Response Failure. After Success the
job's read translates again when it is next issued. -/
def Dev.pageResponse (d : Dev) (g code : Nat) : Dev :=
  match d.hif.pageReqs.find? (fun r => decide (r.group = g)) with
  | none => d
  | some r =>
    let d := d.pageDrop g
    let d := if code = 0 ∨ code = 1 then d
      else d.fnPut r.xlat.fn { d.fnGet r.xlat.fn with priStopped := true }
    if code = 0 ∨ r.rx then d else d.refFail r.xlat.ref St.BUSERR 5

/-- PRI_TIMEOUT (R48). -/
def Dev.priTimeout (d : Dev) (g : Nat) : Dev :=
  match d.hif.pageReqs.find? (fun r => decide (r.group = g)) with
  | none => d
  | some r => if r.rx then d.pageDrop g else (d.pageDrop g).refFail r.xlat.ref St.TIMEOUT 2

/-- R47: an invalidation covers a page of a function. -/
def InvReq.covers (i : InvReq) (f : Fn) (pasid : Option Nat) (page log2 : Nat) : Bool :=
  decide (i.fn = f) && (i.pasid.isNone || decide (i.pasid = pasid)) &&
    decide (page * 4096 < i.page * 4096 + 2 ^ i.log2 ∧ i.page * 4096 < page * 4096 + 2 ^ log2)

/-- INVALIDATION_REQUEST (R47): queued, up to 32; its cache entries go, translations already asked for become
stale. A request without a PASID covers every PASID (Global Invalidate). -/
def Dev.invRequest (d : Dev) (p itag : Nat) (f : Fn) (pasid : Option Nat) (page log2 : Nat) : Dev :=
  let x := d.hifPort p
  if 32 ≤ x.inv.length then d
  else
    let i : InvReq := { itag := itag, fn := f, pasid := pasid, page := page, log2 := log2, using_ := [] }
    let using_ := (x.tags.filter (fun t => !t.2.quarantined &&
      i.covers t.2.req.fn (d.tenGet t.2.req.ten).pasid (t.2.req.addr / 4096) 12)).map (·.1)
    let d := d.setHifPort p { x with inv := x.inv ++ [{ i with using_ := using_ }] }
    { d with hif := { d.hif with
        atc := d.hif.atc.filter (fun e => !(decide (e.port = p) && i.covers e.fn e.pasid e.page e.log2))
        xlats := d.hif.xlats.map (fun r =>
          if r.port = p ∧ i.covers r.fn r.pasid r.page (12 + (d.fnGet r.fn).stu) then { r with stale := true } else r) } }

/-- INVALIDATION_COMPLETION (R47): the oldest invalidation, once no read that used a matching translation is
outstanding (a write is sent whole in its own step). -/
def Dev.invComplete (d : Dev) (p : Nat) : Dev :=
  match (d.hifPort p).inv with
  | [] => d
  | i :: r =>
    if i.using_ ≠ [] then d
    else (d.setHifPort p { d.hifPort p with inv := r }).emit (.invDone p i.itag)

/-! LTR and link power (R55 to R57). -/

/-- R55: the port is active. -/
def Dev.portActive (d : Dev) (p : Nat) : Bool :=
  let x := d.hifPort p
  d.ring.sqs.any (fun e => decide (d.tenPort e.2.ten = p) &&
      (decide (e.2.posted ≠ 0) || d.ring.jobs.any (fun j => decide (j.sq = e.1)))) ||
    !x.tags.isEmpty || !x.readQ.isEmpty ||
    d.dma.chans.any (fun c => decide (c.2.st ≠ 0 ∧ d.tenPort c.2.ten = p)) ||
    (x.frameAt.elim false (fun t => decide (d.nowNs ≤ t + 100000)))

/-- Remaining moderation time of an interrupt target minus 10 µs, floored at 0, in ns (R55). -/
def Dev.modLeft (d : Dev) (m : Mod) : Nat := m.start + m.time * 1000 - d.nowNs - 10000

/-- R55: the tolerance of the port, ns. -/
def Dev.ltrTolerance (d : Dev) (p : Nat) : Nat :=
  let base := if d.portActive p then d.regN (Reg.HIF_LTR_ACTIVE p) else d.regN (Reg.HIF_LTR_IDLE p)
  let mods := ((d.ring.cqs.filter (fun e => decide (d.tenPort e.2.ten = p))).map (·.2.mod)) ++
    ((d.ring.sqs.filter (fun e => decide (d.tenPort e.2.ten = p) && e.2.prog)).map (·.2.mod))
  let t := (mods.filter (·.timer)).foldl (fun t m => min t (d.modLeft m)) base
  let c := d.fnGet (fn0 p)
  min t (min (c.maxSnoop.getD t) (c.maxNoSnoop.getD t))

/-- R56: the rung of the ladder at or below a tolerance in ns, in µs. -/
def ltrRungOf (t : Nat) : Nat := if t / 1000 = 0 then 0 else 2 ^ min (t / 1000).log2 22

/-- R56: the largest value times scale that does not exceed the rung, ns. -/
def ltrEncode (ns : Nat) : Nat :=
  [1, 32, 1024, 32768, 1048576, 33554432].foldl (fun b s => max b (min 1023 (ns / s) * s)) 0

/-- LTR_SEND (R56). -/
def Dev.ltrSend (d : Dev) (p : Nat) : Dev :=
  let x := d.hifPort p
  let rung := ltrRungOf (d.ltrTolerance p)
  let send := match x.ltrRung with
    | none => true
    | some r => decide (rung < r) || (decide (r < rung) && decide (x.ltrAt + 100000 ≤ d.nowNs))
  if !(d.fnGet (fn0 p)).ltr ∨ !x.linkUp ∨ !send then d
  else
    let v := ltrEncode (rung * 1000)
    ((d.setHifPort p { x with ltrRung := some rung, ltrAt := d.nowNs }).setReg (Reg.HIF_LTR_LAST p)
      (BitVec.ofNat 32 v)).emit (.ltr p v)

/-- L1_ENTRY_REQUEST (R57): the host has enabled ASPM L1. -/
def Dev.l1Entry (d : Dev) (p : Nat) : Dev :=
  let x := d.hifPort p
  if !x.linkUp ∨ (d.fnGet (fn0 p)).aspm / 2 % 2 = 0 then d else d.setHifPort p { x with l1 := true }

/-! D-states, Bus Master Enable and MSI-X (R58, R133, R567, R568). -/

/-- The tenancies bound to functions with the property. -/
def Dev.tensOf (d : Dev) (p : Fn → Bool) : List Nat :=
  (d.ten.tens.filter (fun e => e.2.fn.elim false p)).map (·.1)

/-- Interrupt targets of a tenancy. -/
def Dev.targetsOf (d : Dev) (t : Nat) : List IrqSrc :=
  ((d.ring.cqs.filter (fun e => decide (e.2.ten = t))).map (fun e => .cq e.1)) ++
    ((d.ring.sqs.filter (fun e => decide (e.2.ten = t) && e.2.prog)).map (fun e => .sq e.1))

/-- R99, R567: send the interrupt-message-table entries of a tenancy that are pending, valid and unmasked. -/
def Dev.imtFlush (d : Dev) (t : Nat) : Dev :=
  d.ten.imt.foldl (fun d e =>
    if e.2.v && e.2.pend && !e.2.mask && decide (e.2.ten = t) && !d.fnHeld (d.tenFn t) then
      Dev.emit { d with ten := { d.ten with imt := kvSet {} e.1 { e.2 with pend := false } d.ten.imt } }
        (.imtMsg e.1 e.2.addr e.2.data)
    else d) d

/-- Bitmap words that waited for the owning PF are written (R94, R567). -/
def Dev.dirtyFlush (d : Dev) (t : Nat) : Dev :=
  let x := d.tenGet t
  match x.log with
  | none => d
  | some l => l.held.foldl (fun d w => d.dirtyWrite t w.1 w.2) (d.tenPut t { x with log := some { l with held := [] } })

/-- A function may issue requests again: held completions in ring order, then the interrupts that are due
(R58, R133, R567). `all`: every pending interrupt is due at once, as on a return to D0. -/
def Dev.fnRelease (d : Dev) (p : Fn → Bool) (all : Bool) : Dev :=
  let ts := d.tensOf p
  let d := ts.foldl (fun d t =>
    (d.ring.cqs.filter (fun e => decide (e.2.ten = t))).foldl (fun d e => d.stashDrain e.1) d) d
  let d := (List.range 16).foldl (fun d n => if p (.pf n) then d.admDrain n else d) d
  let d := ts.foldl (fun d t => (d.targetsOf t).foldl (fun d s =>
    let m := d.modGet s
    if m.due || (all && decide (0 < m.n)) then d.irqFire s else d) d) d
  let d := ts.foldl (fun d t => d.imtFlush t) d
  d.ten.tens.foldl (fun d e => if p (.pf e.2.owner) then d.dirtyFlush e.1 else d) d

/-- D3HOT_ENTRY (R58, R133): pending interrupts send PME. -/
def Dev.d3Entry (d : Dev) (n : Nat) : Dev :=
  let c := d.fnGet (.pf n)
  if c.d3 then d
  else
    let d := d.fnPut (.pf n) { c with d3 := true }
    let ts := d.tensOf (fun f => decide (f.pfOf = n))
    let fns := d.hif.fns.filter (fun e => decide (e.1 = n ∨ (0x1000 + 1024 * n ≤ e.1 ∧ e.1 < 0x1000 + 1024 * (n + 1))))
    if ts.any (fun t => (d.targetsOf t).any (fun s => decide (0 < (d.modGet s).n) || (d.modGet s).due)) ||
        fns.any (fun e => !e.2.pba.isEmpty) then d.pme (.pf n)
    else d

/-- The VFs of a PF that exist. -/
def Dev.vfsOf (d : Dev) (n : Nat) : List Nat := (List.range (d.totalVfs n)).filter (d.vfExists n)

/-- D0_RETURN (R58, R133). -/
def Dev.d0Return (d : Dev) (n : Nat) : Dev :=
  let c := d.fnGet (.pf n)
  if !c.d3 then d
  else
    let d := (d.fnPut (.pf n) { c with d3 := false }).wakeFrom 5
    let d := d.fnRelease (fun f => decide (f.pfOf = n)) true
    (d.vfsOf n).foldl (fun d v => d.msixFlush (.vf n v)) (d.msixFlush (.pf n))

/-- BUS_MASTER_CLEAR (R567). -/
def Dev.bmeClear (d : Dev) (f : Fn) : Dev := d.fnPut f { d.fnGet f with bme := false }

/-- BUS_MASTER_SET (R567): held completions, then due interrupts. -/
def Dev.bmeSet (d : Dev) (f : Fn) : Dev :=
  if (d.fnGet f).bme then d
  else ((d.fnPut f { d.fnGet f with bme := true }).fnRelease (fun g => decide (g = f)) false).msixFlush f

/-- MSIX_UNMASK (R568): MSI-X Enable set, Function Mask cleared, or a vector unmasked. -/
def Dev.msixUnmask (d : Dev) (f : Fn) (op : MsixOp) : Dev :=
  let c := d.fnGet f
  (d.fnPut f (match op with
    | .enable => { c with msixEnable := true }
    | .clearFunctionMask => { c with functionMask := false }
    | .unmaskVector v => { c with msix := kvSet {} v { kvGet {} c.msix v with mask := false } c.msix })).msixFlush f

/-! TLP errors (R65). -/

/-- POISONED_TLP: a poisoned write to BAR0, BAR2 or BAR4 is discarded. -/
def Dev.poisonedTlp (d : Dev) (f : Fn) : Dev := d.aerUnc f 12 true

/-- FATAL_TLP_ERROR: the TLP is discarded; the port needs a hot reset or a port fundamental reset. -/
def Dev.fatalTlp (d : Dev) (p : Nat) (k : FatalErr) : Dev :=
  let bit := match k with
    | .malformed => 18
    | .receiverOverflow => 17
    | .dataLinkProtocol => 4
    | .flowControlProtocol => 13
  (d.setHifPort p { d.hifPort p with fatal := true }).aerUnc (fn0 p) bit (decide (bit = 18))

/-! The commands. -/

def execPcieLinkUp (p speed width : Nat) (flit : Bool) (s : State) := s.run (·.pcieLinkUp p speed width flit)
def execConfigRequest (fn : Fn) (bus : Nat) (op : CfgOp) (s : State) := s.run (·.configRequest fn bus op)
def execCasementWrite (p rid off : Nat) (data : List Byte) (s : State) := s.run (·.casWrite p rid off data)
def execCasementRead (p rid off n : Nat) (ecc : Ecc) (s : State) := s.run (·.casRead p rid off n ecc)
def execCasementAtomic (p : Nat) (s : State) := s.run (·.casAtomic p)
def execHifWinCommit (pf p : Nat) (value : Word) (s : State) := s.run (·.winCommit pf p value)
def execWinSetApply (p : Nat) (s : State) := s.run (·.winApply p)
def execWinRetired (p : Nat) (s : State) := s.run (·.winRetired p)
def execTranslationCompletion (p tag log2 addr : Nat) (read write : Bool) (ending : ReadEnd) (s : State) :=
  s.run (·.xlatDone p tag log2 addr read write ending)
def execPageRequestResponse (group code : Nat) (s : State) := s.run (·.pageResponse group code)
def execPriTimeout (group : Nat) (s : State) := s.run (·.priTimeout group)
def execInvalidationRequest (p itag : Nat) (fn : Fn) (pasid : Option Nat) (page log2 : Nat) (s : State) :=
  s.run (·.invRequest p itag fn pasid page log2)
def execInvalidationCompletion (p : Nat) (s : State) := s.run (·.invComplete p)
def execReadIssue (p ten : Nat) (s : State) := s.run (·.readIssue p ten)
def execReadCompletion (p tag : Nat) (ending : ReadEnd) (s : State) := s.run (·.readCompletion p tag ending)
def execCompletionTimeout (p tag : Nat) (s : State) := s.run (·.cplTimeout p tag)
def execLateCompletion (p tag : Nat) (s : State) := s.run (·.lateCpl p tag)
def execQuarantineRelease (p tag : Nat) (s : State) := s.run (·.quarRelease p tag)
def execLtrSend (p : Nat) (s : State) := s.run (·.ltrSend p)
def execL1EntryRequest (p : Nat) (s : State) := s.run (·.l1Entry p)
def execD3hotEntry (pf : Nat) (s : State) := s.run (·.d3Entry pf)
def execD0Return (pf : Nat) (s : State) := s.run (·.d0Return pf)
def execBusMasterClear (fn : Fn) (s : State) := s.run (·.bmeClear fn)
def execBusMasterSet (fn : Fn) (s : State) := s.run (·.bmeSet fn)
def execMsixUnmask (fn : Fn) (op : MsixOp) (s : State) := s.run (·.msixUnmask fn op)
def execPoisonedTlp (fn : Fn) (bar : Nat) (s : State) := s.run (fun d => if bar = 0 ∨ bar = 2 ∨ bar = 4 then d.poisonedTlp fn else d)
def execFatalTlpError (p : Nat) (kind : FatalErr) (s : State) := s.run (·.fatalTlp p kind)

end Sys2Proof.Machine
end

