-- ==== Sys2Proof/Machine/Tenancy.lean ====
section
/-! DEFINITION. Tenancies: creation, binding, opening, shares, dirty-page logging and the interrupt message
table (R72 to R102). -/

namespace Sys2Proof.Machine

/-- R102, R144: a LEN other than the one the command states. -/
def lenNot (e : AdmEntry) (n : Nat) : Bool × Nat × Nat := (decide (e.len ≠ n), St.RANGE, rangeAt 0 32)

/-- R77: the state codes a command is accepted in. -/
def Dev.notIn (d : Dev) (t : Nat) (ok : List Nat) : Bool × Nat × Nat :=
  (!ok.contains (d.tenGet t).st, St.STATE, (d.tenGet t).st)

/-- The tenancies that are not FREE. -/
def Dev.liveTens (d : Dev) : Kv Ten := d.ten.tens.filter (fun e => decide (e.2.st ≠ 0))

/-- TEN_CREATE (R77, R79, R80): GEN alone keeps its last value. -/
def tenCreate (e : AdmEntry) (d : Dev) : AdmRes :=
  let t := e.ten
  let rings := fld e.d2 25 16
  let ctxs := fld e.d2 52 32
  let keys := fld e.d3 20 0
  let sum := fun (f : Ten → Nat) => sumNat (d.liveTens.map (fun x => f x.2))
  admChecks [d.notOwner e t, lenNot e 0,
      (decide (512 < rings), St.RANGE, rangeAt 2 16),
      (decide (1048576 < ctxs), St.RANGE, rangeAt 2 32),
      (decide (1048576 < keys), St.RANGE, rangeAt 3 0),
      d.notIn t [0],
      (decide (65536 < sum (·.rings) + rings), St.NOSPACE, 0),
      (decide (1048576 < sum (·.ctxs) + ctxs), St.NOSPACE, 0),
      (decide (1048576 < sum (·.keys) + keys), St.NOSPACE, 0)] fun _ =>
    let d := d.tenPut t { gen := (d.tenGet t).gen, st := 1, owner := e.pf, rings := rings, ctxs := ctxs, keys := keys }
    .done (((d.setReg (Reg.TEN_READ_LIMIT t) 0x100#32).setReg (Reg.TEN_RX_SHUT t) 0#32).setReg (Reg.TEN_DISCARD t) 0#32)

/-- The floor that counts for a bound tenancy: the waiting one, if a change waits (R87, R90). -/
def Ten.floorOf (x : Ten) : Nat := (x.waitShare.getD x.share).floor

/-- R87: floors of the tenancies bound to the functions of a host port, one tenancy left out. -/
def Dev.floorSum (d : Dev) (p skip : Nat) : Nat :=
  sumNat ((d.ten.tens.filter (fun e => decide (2 ≤ e.2.st ∧ e.1 ≠ skip) &&
    e.2.fn.elim false (fun f => decide (f.port = p)))).map (fun e => e.2.floorOf))

/-- TEN_BIND (R74, R77, R86, R87). -/
def tenBind (e : AdmEntry) (d : Dev) : AdmRes :=
  let t := e.ten
  let x := d.tenGet t
  let pf := fld e.d2 19 16
  let isVf := bitOf e.d2 20
  let vf := fld e.d2 41 32
  let pasid := if bitOf e.d3 31 then some (fld e.d3 19 0) else none
  let fn : Fn := if isVf then .vf pf vf else .pf pf
  let bound := d.ten.tens.filter (fun y => decide (y.2.fn = some fn))
  let slot := if isVf then leastBelow (fun s => !bound.any (fun y => decide (y.2.binding.elim 16 (·.slot) = s))) 16
    else some 0
  admChecks [d.notOwner e t,
      (decide (x.st ≠ 0 ∧ pf ≠ x.owner), St.DENIED, 2),
      lenNot e 0,
      (isVf && !d.vfExists pf vf, St.RANGE, rangeAt 2 32),
      (decide (pasid = some 0), St.RANGE, rangeAt 3 0),
      d.notIn t [1],
      (bound.any (fun y => decide (y.2.pasid = pasid)), St.DENIED, 1),
      (slot.isNone, St.NOSPACE, 0),
      (decide (16000 < d.floorSum fn.port t + x.share.floor), St.NOSPACE, 0)] fun _ =>
    let s := slot.getD 0
    let x := { x with st := 2, binding := some { isVf := isVf, vf := vf, slot := s, pasid := pasid } }
    .done (d.tenPut t (x.takeShare x.share true)) s

/-- TEN_OPEN (R77, R92, R101): the RESET event of a reset since the last opening is the first entry written;
pending interrupt messages are sent. -/
def tenOpen (e : AdmEntry) (d : Dev) : AdmRes :=
  let t := e.ten
  admChecks [d.notOwner e t, lenNot e 0, d.notIn t [2]] fun _ =>
    let x := d.tenGet t
    let d := d.tenPut t { x with st := 3, resetEvent := false }
    let d := if x.resetEvent then d.tenEvent t { type := 1, p1 := x.gen.toNat } else d
    .done (d.imtFlush t)

/-- TEN_SET_SHARE (R77, R87, R90). -/
def tenSetShare (e : AdmEntry) (d : Dev) : AdmRes :=
  let t := e.ten
  let x := d.tenGet t
  let s : Share := { weight := fld e.d2 23 16, floor := fld e.d2 47 32, ceiling := fld e.d3 15 0 }
  admChecks [d.notOwner e t, lenNot e 0,
      (decide (s.ceiling ≠ 0 ∧ s.ceiling < s.floor), St.RANGE, rangeAt 2 32),
      d.notIn t [1, 2, 3, 4, 5],
      (decide (2 ≤ x.st) && decide (16000 < d.floorSum (d.tenPort t) t + s.floor), St.NOSPACE, 0)] fun _ =>
    if x.st = 1 then .done (d.tenPut t { x with share := s })
    else .wait (d.tenPut t { x with waitShare := some s, waitCmds := x.waitCmds ++ [e] })

/-- LOG_START (R94, R97): epoch 0 on buffer A. -/
def logStart (e : AdmEntry) (d : Dev) : AdmRes :=
  let t := e.ten
  let x := d.tenGet t
  let pages := fld e.d4 34 0
  admChecks [d.notOwner e t, lenNot e 0,
      (decide (e.d3.toNat % 4096 ≠ 0), St.RANGE, rangeAt 3 0),
      (decide (pages = 0 ∨ 2 ^ 34 < pages), St.RANGE, rangeAt 4 0),
      (decide (e.d5.toNat % 8 ≠ 0), St.RANGE, rangeAt 5 0),
      (decide (e.d6.toNat % 8 ≠ 0), St.RANGE, rangeAt 6 0),
      d.notIn t [2, 3, 4, 5],
      (x.log.isSome, St.STATE, x.st)] fun _ =>
    .done (d.tenPut t { x with
      epoch := 0
      log := some { base := e.d3.toNat, pages := pages, bufA := e.d5.toNat, bufB := e.d6.toNat } })

/-- LOG_FLUSH and LOG_STOP (R96, R97): the epoch ends, the next begins on the other buffer, and the completion
waits for a zero-length read by the owning PF behind the last bitmap write. A tenancy that is not logging
answers STATE (DESIGN CHOICE, log 11). -/
def logFlush (stop : Bool) (e : AdmEntry) (d : Dev) : AdmRes :=
  let t := e.ten
  let x := d.tenGet t
  let on := x.log.elim false (fun l => !l.stopped)
  admChecks [d.notOwner e t, lenNot e 0, d.notIn t [2, 3, 4, 5], (!on, St.STATE, x.st)] fun _ =>
    match x.log with
    | none => .done d
    | some l =>
      let buf := x.epoch % 2
      let d := d.tenPut t { x with
        epoch := x.epoch + 1
        log := some { l with oor := false, marked := [], stopped := stop,
                             waiting := l.waiting ++ [(e, stop, l.oor, buf)] } }
      .wait (d.queueReadAs (.pf x.owner) t x.gen (.logFlush t) (if buf = 0 then l.bufA else l.bufB) 0 0)

/-- The interrupt message table. -/
def Dev.imtGet (d : Dev) (i : Nat) : Imt := kvGet {} d.ten.imt i
def Dev.imtPut (d : Dev) (i : Nat) (x : Imt) : Dev :=
  { d with ten := { d.ten with imt := kvSet {} i x d.ten.imt } }

/-- R101: an entry is attached to a ring: an interrupt target of a tenancy with a PASID names it. -/
def Dev.imtAttached (d : Dev) (i : Nat) : Bool :=
  let uses := fun (t : Nat) (m : Mod) => m.vecV && decide (m.vector = i) && (d.tenGet t).pasid.isSome
  d.ring.cqs.any (fun c => uses c.2.ten c.2.mod) || d.ring.sqs.any (fun q => q.2.prog && uses q.2.ten q.2.mod)

/-- IMT_WRITE (R77, R101). -/
def imtWrite (e : AdmEntry) (d : Dev) : AdmRes :=
  let i := fld e.d2 15 0
  let old := d.imtGet i
  let t := fld e.d4 43 32
  let v := bitOf e.d4 48
  let mask := bitOf e.d4 49
  admChecks [(old.v && (d.notOwner e old.ten).1, St.DENIED, 2), d.notOwner e t, lenNot e 0,
      (decide (e.d3.toNat % 4 ≠ 0), St.RANGE, rangeAt 3 0),
      d.notIn t [1, 2, 3, 4, 5],
      (decide (old.ten ≠ t) && d.imtAttached i, St.STATE, 1)] fun _ =>
    let pend := old.pend && v && decide (old.ten = t)
    let new : Imt := { v := v, mask := mask, pend := pend, ten := t, data := BitVec.ofNat 32 (fld e.d4 31 0),
                       addr := e.d3.toNat }
    let d := d.imtPut i new
    if old.mask && !mask && pend && decide (3 ≤ (d.tenGet t).st) && !d.fnHeld (d.tenFn t) then
      .done ((d.imtPut i { new with pend := false }).emit (.imtMsg i new.addr new.data))
    else .done d

/-- The 16 bytes of an interrupt message table entry (R100). -/
def Imt.bytes (x : Imt) : List Byte :=
  leBytes 8 (x.addr / 4 * 4) ++
    leBytes 8 (packNat [(b2n x.v, 63), (b2n x.mask, 62), (b2n x.pend, 61), (x.ten, 32), (x.data.toNat, 0)])

/-- IMT_READ (R77, R99, R102): ownership is that of the tenancy a valid entry names (DEDUCED, log 12). -/
def imtRead (e : AdmEntry) (d : Dev) : AdmRes :=
  let x := d.imtGet (fld e.d2 15 0)
  admChecks [(x.v && (d.notOwner e x.ten).1, St.DENIED, 2), lenNot e 16] fun _ => .done d 0 16 x.bytes

/-! The commands. -/

def execTenCreate (e : AdmEntry) (s : State) := s.run (·.admRun e 0x10 (tenCreate e))
def execTenBind (e : AdmEntry) (s : State) := s.run (·.admRun e 0x12 (tenBind e))
def execTenOpen (e : AdmEntry) (s : State) := s.run (·.admRun e 0x14 (tenOpen e))
def execTenSetShare (e : AdmEntry) (s : State) := s.run (·.admRun e 0x17 (tenSetShare e))
def execLogStart (e : AdmEntry) (s : State) := s.run (·.admRun e 0x18 (logStart e))
def execLogFlush (e : AdmEntry) (s : State) := s.run (·.admRun e 0x19 (logFlush false e))
def execLogStop (e : AdmEntry) (s : State) := s.run (·.admRun e 0x1A (logFlush true e))
def execImtWrite (e : AdmEntry) (s : State) := s.run (·.admRun e 0x1D (imtWrite e))
def execImtRead (e : AdmEntry) (s : State) := s.run (·.admRun e 0x1E (imtRead e))
def execShareApply (p : Nat) (s : State) := s.run (·.shareApply p)
def execLogFlushReadDone (ten : Nat) (s : State) := s.run (·.logEnd ten none)

end Sys2Proof.Machine
end

