-- ==== Sys2Proof/Machine/Tue.lean ====
section
/-! DEFINITION. The table-update engine (R14, R16, R216 to R219, R563) and the TCAM it writes. -/

namespace Sys2Proof.Machine

/-! Bank groups of the TCAM (R210, R211). -/

/-- TCAM_CHAIN_b in effect: EN, WIDTH, RSET. -/
def Dev.chain (d : Dev) (b : Nat) : Word := d.cls.chain.getD b 0#32
def chainEn (w : Word) : Bool := bitOf w 31
def chainWidth (w : Word) : Nat := fld w 25 24
def chainRset (w : Word) : Nat := fld w 21 16

/-- The lead bank of the group of a bank. -/
def Dev.leadBank (d : Dev) (b : Nat) : Nat :=
  if chainEn (d.chain b) then b / 2 ^ chainWidth (d.chain b) * 2 ^ chainWidth (d.chain b) else b

/-- The index is the lead of an enabled group. -/
def Dev.isLead (d : Dev) (i : Nat) : Bool :=
  decide (i < 262144) && chainEn (d.chain (i / 4096)) && decide (d.leadBank (i / 4096) = i / 4096)

def Dev.tcam (d : Dev) (i : Nat) : TcamEntry := kvGet {} d.cls.tcam i

def Dev.tcamPut (d : Dev) (i : Nat) (x : TcamEntry) : Dev :=
  { d with cls := { d.cls with tcam := kvSet {} i x d.cls.tcam } }

/-- A record for the forwarding exception queue (R15, R31). Answers the fate of its packet: 0 it goes on as a
miss, 1 it is dropped, 2 it goes to the exception ring with reason 0x21. -/
def Dev.fwdExc (d : Dev) (r : ExcRec) : Nat × Dev :=
  if 4096 ≤ d.glb.exc.fwd.length then (d.regFld Reg.GLB_EXC_CFG 1 0, d.count Reg.GLB_EXC_DROP_CNT)
  else (0, { d with glb := { d.glb with exc := { d.glb.exc with fwd := d.glb.exc.fwd ++ [r] } } })

/-! Tables in HBM (R216, R229, R423). -/

def Dev.desc (d : Dev) (table : Nat) : TblDesc := kvGet {} d.fwd.desc table

def Dev.setDesc (d : Dev) (table : Nat) (x : TblDesc) : Dev :=
  { d with fwd := { d.fwd with desc := kvSet {} table x d.fwd.desc } }

/-- Bytes of a table under a descriptor. -/
def TblDesc.extent (x : TblDesc) (table : Nat) : Nat :=
  if table = 3 then 131072 * 64 else if table = 4 then 2 ^ x.log2b * 32 else 2 ^ x.log2b * 256

/-- Where the fabric route table lies (R423). -/
def Dev.routeBase (d : Dev) : Nat := d.regN Reg.FAB_RT_BASE_LO + 2 ^ 32 * d.regN Reg.FAB_RT_BASE_HI

/-- The line at this address belongs to the table. -/
def Dev.lineIn (d : Dev) (table a : Nat) : Bool :=
  decide (a % 64 = 0) &&
    (if table = 7 then decide (d.routeBase ≤ a ∧ a + 64 ≤ d.routeBase + 528 * 64)
     else if table = 1 ∨ table = 2 ∨ table = 3 ∨ table = 4 ∨ table = 6 then
       let x := d.desc table
       (x.v && decide (x.base ≤ a ∧ a + 64 ≤ x.base + x.extent table)) ||
         -- R238: the shadow table of a rehash has a descriptor of its own
         d.fwd.rehash.any (fun r => decide (r.table = table ∧ r.shadow.base ≤ a ∧ a + 64 ≤ r.shadow.base + r.shadow.extent table))
     else false)

/-- Replace a line as one write (R218); in table 4 only bytes 16 to 31 of each entry (R216). -/
def Dev.lineWrite (d : Dev) (table a : Nat) (b : List Byte) : Dev :=
  let b := fitTo 64 b
  if table = 4 then (d.hbmWrite (a + 16) (slice b 16 16)).hbmWrite (a + 48) (slice b 48 16)
  else d.hbmWrite a b

/-- A dword of a line. -/
def Dev.lineDword (d : Dev) (a w : Nat) : Dword := BitVec.ofNat 64 (leAt (d.hbm.bytes (a + 8 * w) 8) 0 8)

/-- A descriptor as its 64 bytes say it (R229). -/
def TblDesc.ofBytes (b : List Byte) : TblDesc :=
  { base := leAt b 0 8, log2b := leAt b 8 1, v := decide (leAt b 9 1 % 2 = 1), seed1 := leAt b 12 4,
    seed2 := leAt b 16 4, aux := leAt b 24 8 }

def TblDesc.bytes (x : TblDesc) : List Byte :=
  fitTo 64 (leBytes 8 x.base ++ leBytes 1 x.log2b ++ leBytes 1 (b2n x.v) ++ leBytes 2 0 ++ leBytes 4 x.seed1 ++
    leBytes 4 x.seed2 ++ leBytes 4 0 ++ leBytes 8 x.aux)

/-- The indirection descriptor of a tenancy as a payload (its layout is the model's, log 14): LOG2SIZE, HPROF,
EN, DEF_RING, BASE; EN 0 releases the table. -/
def IndTab.bytes (x : IndTab) (en : Bool) : List Byte :=
  leBytes 1 x.log2 ++ leBytes 1 x.hprof ++ leBytes 2 (b2n en) ++ leBytes 2 x.defRing ++ leBytes 2 x.base

/-! Records (R216, R217). -/

/-- What a record does: 0 APPLIED, 1 CAS_FAIL, 2 BAD. -/
def Dev.tueApply (d : Dev) (r : TueRec) : Nat × Dev :=
  let bad := (2, d)
  match r.op with
  | 0x01 =>
    if r.table ≠ 0 ∨ 262144 ≤ r.index then bad
    else (0, d.tcamPut r.index { d.tcam r.index with v := false })
  | 0x02 =>
    let lead := d.leadBank (r.index / 4096) * 4096 + r.index % 4096
    if r.table ≠ 0 ∨ 262144 ≤ r.index ∨ (d.tcam lead).v then bad
    else
      let x := d.tcam r.index
      let x := { x with data := leAt r.payload 0 20, care := leAt r.payload 20 20 }
      let x := if lead = r.index then
          { x with prio := leAt r.payload 40 1, result := BitVec.ofNat 64 (leAt r.payload 48 8) }
        else x
      (0, d.tcamPut r.index x)
  | 0x03 =>
    if r.table ≠ 0 ∨ !d.isLead r.index then bad
    else (0, d.tcamPut r.index { d.tcam r.index with v := true })
  | 0x10 => if !d.lineIn r.table r.index then bad else (0, d.lineWrite r.table r.index r.payload)
  | 0x11 =>
    if !d.lineIn r.table r.index ∨ 8 ≤ r.count then bad
    else if d.lineDword r.index r.count &&& r.cmask = r.cmp then (0, d.lineWrite r.table r.index r.payload)
    else (1, d)
  | 0x20 =>
    if r.table ≠ 5 ∨ r.count = 0 ∨ 32 < r.count ∨ 1048576 < r.index + r.count then bad
    else
      (0, { d with cls := { d.cls with pool := (List.range r.count).foldl (fun m i =>
        kvSet 0 (r.index + i) (leAt r.payload (2 * i) 2) m) d.cls.pool } })
  | 0x30 =>
    if r.table = 5 then
      if 4096 ≤ r.index then bad
      else
        let x : IndTab := { log2 := leAt r.payload 0 1, hprof := leAt r.payload 1 1, defRing := leAt r.payload 4 2,
                            base := leAt r.payload 6 2 }
        let m := if leAt r.payload 2 2 % 2 = 0 then kvDel r.index d.cls.inds else kvPut r.index x d.cls.inds
        (0, { d with cls := { d.cls with inds := m } })
    else if r.table = 1 ∨ r.table = 2 ∨ r.table = 3 ∨ r.table = 4 ∨ r.table = 6 then
      (0, d.setDesc r.table (TblDesc.ofBytes r.payload))
    else bad
  | 0x3F => (0, d)
  | _ => bad

/-- Count an outcome (R217). -/
def Dev.tueCount (d : Dev) (o : Nat) : Dev :=
  if o = 2 then d.count Reg.CLS_UPD_BAD else if o = 1 then d.count Reg.CLS_UPD_CASFAIL else d

/-- A record of the internal port: applied and counted, never journalled (R16, R217, R563). -/
def Dev.tueInternal (d : Dev) (r : TueRec) : Nat × Dev :=
  let (o, d) := d.tueApply r
  (o, d.tueCount o)

/-- R563: the journal of posted records, a ring of 6,291,456. -/
def Dev.tblJournalAdd (d : Dev) (r : TueRec) (o : Nat) : Dev :=
  let j := d.glb.tblJournal ++ [{ seq := d.glb.tblSeq, record := r, time := d.nowNs, outcome := o }]
  { d with glb := { d.glb with tblSeq := d.glb.tblSeq + 1, tblJournal := j.drop (j.length - 6291456) } }

/-- A posted record: applied, counted, journalled. -/
def Dev.tuePosted (d : Dev) (r : TueRec) : Nat × Dev :=
  let (o, d) := d.tueInternal r
  (o, d.tblJournalAdd r o)

/-- Post records to the queue of control firmware. -/
def Dev.tuePost (d : Dev) (rs : List TueRec) : Dev :=
  rs.foldl (fun d r =>
    { d with glb := { d.glb with recSeq := d.glb.recSeq + 1, tueQ := d.glb.tueQ ++ [{ r with seq := d.glb.recSeq }] } }) d

/-- The outcome of a posted record returns to its poster: the last record of a command brings its completion;
a BAD outcome there means the group changed since the command was checked (DESIGN CHOICE, log 15). -/
def Dev.tueReturn (d : Dev) (r : TueRec) (o : Nat) : Dev :=
  match r.poster with
  | .adm e opc det len true => if o = 0 then d.admLate e opc 0 det len else d.admLate e opc St.STATE 0 0
  | _ => d

/-- The engine takes the record at the front of its queue, if its operation is the one named; answers the
record and its outcome. -/
def Dev.tueTake (d : Dev) (op : Nat) : Option (TueRec × Nat) × Dev :=
  match d.glb.tueQ with
  | [] => (none, d)
  | r :: rest =>
    if r.op ≠ op then (none, d)
    else
      let d := { d with glb := { d.glb with tueQ := rest } }
      let (o, d) := d.tuePosted r
      (some (r, o), d)

/-- One record of the queue, its outcome returned. -/
def Dev.tueStep (d : Dev) (op : Nat) : Dev :=
  match d.tueTake op with
  | (some (r, o), d) => d.tueReturn r o
  | (none, d) => d

/-- What the tables will be when every queued record has been applied. -/
def Dev.tueAhead (d : Dev) : Dev := d.glb.tueQ.foldl (fun d r => (d.tueApply r).2) d

/-! The commands. -/

def execTcamInv (s : State) := s.run (·.tueStep 0x01)
def execTcamWrite (s : State) := s.run (·.tueStep 0x02)
def execTcamVal (s : State) := s.run (·.tueStep 0x03)
def execLineWrite (s : State) := s.run (·.tueStep 0x10)
def execIndWrite (s : State) := s.run (·.tueStep 0x20)
def execTblDesc (s : State) := s.run (·.tueStep 0x30)
def execFence (s : State) := s.run (·.tueStep 0x3F)

end Sys2Proof.Machine
end

