-- ==== Sys2Proof/Machine/Parser.lean ====
section
/-! DEFINITION. The Crossing image, the parser graph, keys, the TCAM search and the steering hash (R197 to
R221). -/

namespace Sys2Proof.Machine

/-! The image (R199, R205, R207, R214). -/

/-- The two dwords of a node. -/
def imgNode (img : List Byte) (n : Nat) : Dword × Dword :=
  (BitVec.ofNat 64 (leAt img (16 + 16 * n) 8), BitVec.ofNat 64 (leAt img (24 + 16 * n) 8))

def imgTransitions (img : List Byte) : Nat := leAt img 9 2
def imgTransition (img : List Byte) (k : Nat) : Dword := BitVec.ofNat 64 (leAt img (8720 + 8 * k) 8)

/-- Word k of a key profile, and slot i of a lookup program. -/
def imgProfileWord (img : List Byte) (pr k : Nat) : Word := BitVec.ofNat 32 (leAt img (4112 + 64 * pr + 4 * k) 4)
def imgSlot (img : List Byte) (prog i : Nat) : Half := BitVec.ofNat 16 (leAt img (8208 + 8 * prog + 2 * i) 2)

/-- Number of bits set. -/
def popcount16 (v : Nat) : Nat := sumNat ((List.range 16).map (fun i => v / 2 ^ i % 2))

/-- R199: the length of the header of a node at offset s. -/
def nodeLen (x : Dword × Dword) (f : List Byte) (s : Nat) : Nat :=
  let m := fld x.1 63 62
  let base := fld x.1 47 40
  let v := beAt f (s + fld x.1 61 56) 2 &&& fld x.1 39 24
  let scale := 2 ^ fld x.1 51 50
  if m = 0 then base
  else if m = 1 then v / 2 ^ fld x.1 55 52 * scale + base
  else popcount16 v * scale + base

/-- R200: a header's extent. -/
def nodeExtent (x : Dword × Dword) (f : List Byte) (s : Nat) : Nat :=
  let a := nodeLen x f s
  let a := if fld x.1 63 62 = 0 then a else max a (fld x.1 61 56 + 2)
  if fld x.1 17 16 = 0 then max a (fld x.1 23 18 + 2) else a

/-! The walk (R200 to R202). -/

/-- What the walk carries. -/
structure Walk where
  s : Nat := 0
  ptype : Nat := 0
  ext : Nat := 0
  slots : List (Option Nat) := List.replicate 8 none
  l3ok : Bool := false
  l4ok : Bool := false
  l3chk : Bool := false
  l4chk : Bool := false
  /-- start and version of the last IP header, end of its datagram -/
  ip : Nat := 0
  ipVer : Nat := 0
  ipEnd : Nat := 0
  deriving Inhabited

/-- How a walk ends: at a node, or on the slow path with a reason. -/
inductive WalkEnd where
  | parsed (lprog : Nat) (w : Walk)
  | slow (reason : Nat) (w : Walk)

/-- Ones' complement sum of a layer-4 segment of n bytes at s with its pseudo-header, all ones when good. -/
def l4Good (f : List Byte) (w : Walk) (s n proto : Nat) : Bool :=
  let addrs := if w.ipVer = 4 then slice f (w.ip + 12) 8 else slice f (w.ip + 8) 32
  let p := Net.onesSum addrs + proto + n
  let t := Net.onesSum (slice f s n) + (p % 65536 + p / 65536)
  decide (t % 65536 + t / 65536 = 65535)

/-- R201: the check of a node at s: the reason it fails with, or the walk with its effects. -/
def nodeCheck (c : Nat) (f : List Byte) (w : Walk) : Nat ⊕ Walk :=
  let s := w.s
  let left := f.length - s
  match c with
  | 1 =>
    let ihl := beAt f s 1 % 16
    let total := beAt f (s + 2) 2
    if beAt f s 1 / 16 ≠ 4 ∨ ihl < 5 ∨ total < 4 * ihl ∨ left < total then .inl 6
    else if beAt f (s + 6) 2 % 16384 ≠ 0 then .inl 1
    else if 5 < ihl then .inl 2
    else
      .inr { w with ip := s, ipVer := 4, ipEnd := s + total, l3chk := true
                    l3ok := decide (Net.onesSum (slice f s (4 * ihl)) = 65535) }
  | 2 =>
    let plen := beAt f (s + 4) 2
    if beAt f s 1 / 16 ≠ 6 ∨ plen = 0 ∨ left < 40 + plen then .inl 6
    else .inr { w with ip := s, ipVer := 6, ipEnd := s + 40 + plen, ext := 0 }
  | 3 => if 4 < w.ext + 1 then .inl 3 else .inr { w with ext := w.ext + 1 }
  | 4 => .inl 1
  | 5 =>
    let n := beAt f (s + 4) 2
    if n < 8 ∨ w.ipEnd - s < n then .inl 6
    else if beAt f (s + 6) 2 = 0 ∧ w.ipVer = 4 then .inr w
    else .inr { w with l4chk := true, l4ok := l4Good f w s n 17 }
  | 6 =>
    if beAt f (s + 12) 1 / 16 < 5 then .inl 6
    else .inr { w with l4chk := true, l4ok := l4Good f w s (w.ipEnd - s) 6 }
  | _ => .inr w

/-- R199: the next node: none, the parse ends; the slow path; a node. -/
inductive NextNode where
  | stop
  | unknown
  | go (n : Nat)

/-- The first matching transition in index order. -/
def findTransition (img : List Byte) (g : Nat) : Nat → Nat → Option Nat
  | _, 0 => none
  | k, n + 1 =>
    let t := imgTransition img k
    if g &&& fld t 31 16 = fld t 47 32 &&& fld t 31 16 then some (fld t 7 0) else findTransition img g (k + 1) n

def nextNode (img : List Byte) (x : Dword × Dword) (f : List Byte) (s : Nat) : NextNode :=
  match fld x.1 17 16 with
  | 1 => .stop
  | 2 => .go (fld x.2 46 39)
  | _ =>
    match findTransition img (beAt f (s + fld x.1 23 18) 2 &&& fld x.1 15 0) (fld x.2 63 53) (fld x.2 52 49) with
    | some n => .go n
    | none =>
      match fld x.2 48 47 with
      | 0 => .stop
      | 2 => .go (fld x.2 46 39)
      | _ => .unknown

/-- R200: the walk; the fuel is what is left of the depth of 24. -/
def walk (img f : List Byte) : Nat → Nat → Walk → WalkEnd
  | 0, _, w => .slow 7 w
  | fuel + 1, n, w =>
    let x := imgNode img n
    let e := w.s + nodeExtent x f w.s
    if f.length < e then .slow 6 w
    else if 512 < e then .slow 5 w
    else
      match nodeCheck (fld x.2 34 32) f w with
      | .inl r => .slow r w
      | .inr w =>
        let layer := fld x.2 38 35
        let slots := if layer = 0 ∨ 8 < layer ∨ (w.slots.getD (layer - 1) none).isSome then w.slots
          else w.slots.set (layer - 1) (some w.s)
        let w := { w with slots := slots, ptype := w.ptype ||| fld x.2 30 16 }
        let next := nextNode img x f w.s
        match next with
        | .unknown => .slow 4 w
        | .stop => .parsed (fld x.2 13 8) { w with s := w.s + nodeLen x f w.s }
        | .go k => walk img f fuel k { w with s := w.s + nodeLen x f w.s }

/-! Validation (R215). -/

/-- Width in bits / 160 of a rule set under TCAM_CHAIN settings: none without groups. -/
def rsetWidth (chain : List Word) (r : Nat) : Option Nat :=
  (chain.find? (fun w => chainEn w && decide (chainRset w = r))).map chainWidth

/-- Enabled lookup slots of an image: (offset, profile, rule set). -/
def imgSlots (img : List Byte) : List (Nat × Nat × Nat) :=
  (List.range 256).filterMap (fun k =>
    let x := imgSlot img (k / 4) (k % 4)
    if bitOf x 15 then some (8208 + 2 * k, fld x 13 8, fld x 5 0) else none)

def imgNodeV (img : List Byte) (n : Nat) : Bool := bitOf (imgNode img n).2 0

/-- The node's fields hold only what the device can use. -/
def nodeOk (img : List Byte) (n : Nat) : Bool :=
  let x := imgNode img n
  let byTr := decide (fld x.1 17 16 = 0)
  let useDef := decide (fld x.1 17 16 = 2) || (byTr && decide (fld x.2 48 47 = 2))
  decide (fld x.1 63 62 ≠ 3) && decide (fld x.1 17 16 ≠ 3) && !(byTr && decide (fld x.2 48 47 = 3)) &&
    decide (fld x.2 38 35 ≤ 8) && decide (fld x.2 34 32 ≠ 7) &&
    !(byTr && decide (imgTransitions img < fld x.2 63 53 + fld x.2 52 49)) &&
    (!useDef || imgNodeV img (fld x.2 46 39))

/-- Transitions that a valid node uses. -/
def imgUsedTr (img : List Byte) : List Nat :=
  ((List.range 256).filter (fun n => imgNodeV img n && decide (fld (imgNode img n).1 17 16 = 0))).flatMap (fun n =>
    (List.range (fld (imgNode img n).2 52 49)).map (fld (imgNode img n).2 63 53 + ·))

/-- The first bad extraction of a profile: its index 1 to 15. -/
def profileBad (img : List Byte) (pr : Nat) : Option Nat :=
  let width := 20 * 2 ^ fld (imgProfileWord img pr 0) 1 0
  let used := fun k => decide (fld (imgProfileWord img pr k) 19 15 ≠ 0)
  let lo := fun k => fld (imgProfileWord img pr k) 6 0
  let hi := fun k => lo k + fld (imgProfileWord img pr k) 19 15
  ((List.range 15).map (· + 1)).find? (fun k => used k &&
    (decide (16 < fld (imgProfileWord img pr k) 19 15) || decide (8 < fld (imgProfileWord img pr k) 31 28) ||
      decide (width < hi k) ||
      (List.range k).any (fun j => decide (j ≠ 0) && used j && decide (lo k < hi j ∧ lo j < hi k))))

/-- R215: the DETAIL of a refused image; none: it is valid. Items are taken in the order of their offsets
(DEDUCED, log 16). -/
def imgCheck (chain : List Word) (img : List Byte) (len : Nat) : Option Nat :=
  let n := imgTransitions img
  if len < 8720 then some 0xFFFF
  else if 2048 < n then some 9
  else if len ≠ 8720 + 8 * n then some 0xFFFF
  else if leAt img 0 4 ≠ 0x57434C53 then some 0
  else if leAt img 4 2 ≠ 1 then some 4
  else
    match [6, 7, 8].find? (fun o => !imgNodeV img (leAt img o 1)) with
    | some o => some o
    | none =>
      if leAt img 12 4 ≠ Net.crc32c (slice img 16 (len - 16)) then some 12
      else
        match (List.range 256).find? (fun k => imgNodeV img k && !nodeOk img k) with
        | some k => some (16 + 16 * k)
        | none =>
          let profiles := (List.range 64).filter (fun p => (imgSlots img).any (fun s => decide (s.2.1 = p)))
          match profiles.find? (fun p => decide (fld (imgProfileWord img p 0) 1 0 = 3) || (profileBad img p).isSome) with
          | some p =>
            if fld (imgProfileWord img p 0) 1 0 = 3 then some (4112 + 64 * p)
            else some (4112 + 64 * p + 4 * (profileBad img p).getD 0)
          | none =>
            match (imgSlots img).find? (fun s =>
                (rsetWidth chain s.2.2).elim false (fun w => decide (w ≠ fld (imgProfileWord img s.2.1 0) 1 0))) with
            | some s => some s.1
            | none =>
              ((imgUsedTr img).find? (fun k => !imgNodeV img (fld (imgTransition img k) 7 0))).map (fun k => 8720 + 8 * k)

/-! Keys and lookups (R205 to R213). -/

/-- R206: the meta block. -/
def Cls.meta (c : Cls) (lookup : Nat) : List Byte :=
  fitTo 32 (leBytes 1 c.source ++ leBytes 1 lookup ++ leBytes 2 c.ptype ++
    leBytes 2 (if c.tv then 32768 + c.ten else 0) ++ leBytes 2 c.bytes ++ leBytes 2 (if c.hv then c.handler else 0) ++
    leBytes 1 (b2n c.l3ok + 2 * b2n c.l4ok + 4 * b2n c.tv + 8 * b2n c.hv))

/-- R205: build a key of a profile. -/
def buildKey (img : List Byte) (pr : Nat) (f : List Byte) (c : Cls) (lookup : Nat) : List Byte :=
  let win := f.take 512
  (List.range 15).foldl (fun key k =>
    let x := imgProfileWord img pr (k + 1)
    let n := fld x 19 15
    let src := fld x 31 28
    if n = 0 then key
    else
      let bytes := if src = 0 then slice (c.meta lookup) (fld x 27 20) n
        else
          match c.slots.getD (src - 1) none with
          | some s => slice win (s + fld x 27 20) n
          | none => List.replicate n 0#8
      fitTo 80 (patch key (fld x 6 0) bytes)) (List.replicate 80 0#8)

/-- Segment k of a key: key byte d occupies bits 8d + 7 to 8d. -/
def keySeg (key : List Byte) (k : Nat) : Nat := ofLe (slice key (20 * k) 20)

/-- The wide entry whose lead is i matches the key. -/
def Dev.tcamMatch (d : Dev) (i : Nat) (key : List Byte) : Bool :=
  (List.range (2 ^ chainWidth (d.chain (i / 4096)))).all (fun k =>
    let x := d.tcam (i + 4096 * k)
    decide ((keySeg key k ^^^ x.data) &&& x.care = 0))

/-- Valid entries of a rule set that match, in index order. -/
def Dev.tcamHits (d : Dev) (r : Nat) (key : List Byte) : Kv TcamEntry :=
  d.cls.tcam.filter (fun e => e.2.v && d.isLead e.1 && decide (chainRset (d.chain (e.1 / 4096)) = r) &&
    d.tcamMatch e.1 key)

/-- R213: highest PRIO, then lowest index; and whether two share the winning PRIO. -/
def tcamWinner (hits : Kv TcamEntry) : Option (Nat × TcamEntry) × Bool :=
  let top := hits.foldl (fun m e => max m e.2.prio) 0
  let best := hits.filter (fun e => decide (e.2.prio = top))
  (best.head?, decide (2 ≤ best.length))

def Dev.rset (d : Dev) (r : Nat) : Rset := kvGet {} d.cls.rsets r
def Dev.setRset (d : Dev) (r : Nat) (x : Rset) : Dev :=
  { d with cls := { d.cls with rsets := kvSet {} r x d.cls.rsets } }

/-- R211: count a lookup. -/
def Dev.rsetCount (d : Dev) (r : Nat) (hit tie : Bool) : Dev :=
  let x := d.rset r
  let c := x.counters
  let g := fun i => c.getD i 0
  d.setRset r { x with counters := [g 0 + 1, g 1 + b2n hit, g 2 + b2n (!hit), g 3 + b2n (tie && x.tie)] }

/-- R209: copy the valid groups of a result word into the merge; a host frame keeps its tenancy. -/
def Cls.merge (c : Cls) (r : Dword) (host : Bool) : Cls :=
  let c := if bitOf r 62 && !host then { c with tv := true, ten := fld r 61 50 } else c
  let c := if bitOf r 49 then { c with hv := true, handler := fld r 48 33 } else c
  let c := if bitOf r 32 then { c with sv := true, steer := fld r 31 30, ringF := fld r 29 21, hprof := fld r 20 18 } else c
  if bitOf r 17 then { c with av := true, action := fld r 16 0 } else c

/-- R209: run the enabled slots of a lookup program, i slots behind. `ue`: TCAM indices whose result word
has an uncorrectable error: their lookup takes the MISS (R212). Answers the fate of `fwdExc` too. -/
def Dev.lookups (d : Dev) (img f : List Byte) (prog : Nat) (host : Bool) (ue : List Nat) : Nat → Cls → Nat × Cls × Dev
  | 0, c => (0, c, d)
  | n + 1, c =>
    let i := 3 - n
    let x := imgSlot img prog i
    if !bitOf x 15 then d.lookups img f prog host ue n c
    else
      let r := fld x 5 0
      let key := buildKey img (fld x 13 8) f c i
      let (w, tie) := tcamWinner (d.tcamHits r key)
      let bad := w.elim false (fun e => ue.contains e.1)
      let (fate, d) := if bad then
          (d.applyEcc { sramUe := 1 }).fwdExc { reason := 0, info := key ++ leBytes 8 (w.elim 0 (·.1)) }
        else (0, d)
      let w := if bad then none else w
      let d := d.rsetCount r w.isSome tie
      let res := w.elim (d.rset r).miss (fun e => e.2.result)
      let c := c.merge res host
      if fate ≠ 0 ∨ bitOf res 63 then (fate, c, d) else d.lookups img f prog host ue n c

/-! The steering hash (R220, R221). -/

/-- The Toeplitz hash: `w` is the 32-bit window at input bit i; the key as a list of bits. -/
def toeplitzBits : List Bool → List Bool → Nat → Nat → Nat
  | [], _, _, h => h
  | b :: r, key, w, h =>
    toeplitzBits r key.tail (w * 2 % 4294967296 + b2n (key.headD false)) (if b then h ^^^ w else h)

/-- Bits of a byte string, most significant bit of byte 0 first. -/
def bitsOf (l : List Byte) : List Bool := l.flatMap (fun b => (List.range 8).map (fun i => b.getLsbD (7 - i)))

def toeplitz (key inp : List Byte) : Nat := toeplitzBits (bitsOf inp) ((bitsOf key).drop 32) (beAt key 0 4) 0

/-- a > b as unsigned big-endian numbers. -/
def beGt (a b : List Byte) : Bool := decide (ofBe b < ofBe a)

/-- R220: the hash input of a profile. VNI is bytes 4 to 6 of the TUN header (DEDUCED, log 17). -/
def hashInput (cfg : Word) (f : List Byte) (c : Cls) : List Byte :=
  let slot := fun i => c.slots.getD (i - 1) none
  let inner := bitOf cfg 29 && (slot 7).isSome
  let l2 := slot (if inner then 6 else 1)
  let l3 := slot (if inner then 7 else 3)
  let l4 := slot (if inner then 8 else 4)
  let macD := l2.elim [] (fun o => slice f o 6)
  let macS := l2.elim [] (fun o => slice f (o + 6) 6)
  let ver := l3.elim 0 (fun o => beAt f o 1 / 16)
  let o := l3.getD 0
  let src := if ver = 4 then slice f (o + 12) 4 else if ver = 6 then slice f (o + 8) 16 else []
  let dst := if ver = 4 then slice f (o + 16) 4 else if ver = 6 then slice f (o + 24) 16 else []
  let proto := if ver = 4 then slice f (o + 9) 1 else if ver = 6 then slice f (o + 6) 1 else []
  let ports := decide (proto = [6#8] ∨ proto = [17#8])
  let sp := if ports then l4.elim [] (fun o => slice f o 2) else []
  let dp := if ports then l4.elim [] (fun o => slice f (o + 2) 2) else []
  let lbl := if ver = 6 then beBytes 3 (beAt f (o + 1) 3 % 1048576) else []
  let vni := (slot 5).elim [] (fun o => slice f (o + 4) 3)
  let sym := bitOf cfg 30
  let swap := sym && (beGt src dst || (decide (src = dst) && beGt sp dp))
  let swapM := sym && beGt macS macD
  let pick := fun i (b : List Byte) => if bitOf cfg i then b else []
  pick 0 (if swapM then macS else macD) ++ pick 1 (if swapM then macD else macS) ++
    pick 2 (if swap then dst else src) ++ pick 3 (if swap then src else dst) ++
    pick 4 (if swap then dp else sp) ++ pick 5 (if swap then sp else dp) ++ pick 6 proto ++ pick 7 lbl ++ pick 8 vni

/-- R221: the hash of a frame under a profile. -/
def HProf.hash (p : HProf) (f : List Byte) (c : Cls) : Nat :=
  let inp := hashInput p.cfg f c
  if inp.isEmpty then 0
  else if bitOf p.cfg 31 then Net.crc32c inp
  else toeplitz p.key inp

end Sys2Proof.Machine
end

