-- ==== Sys2Proof/Machine/Deliver.lean ====
section
/-! DEFINITION. Where frames go: the handlers' cores, the manager's exception ring, re-entry, drops (R15, R195,
R203, R204, R223, R361). -/

namespace Sys2Proof.Machine

/-- R223: the record passed with a token to a handler. -/
def Packet.record (p : Packet) (tok : Nat) : List Byte :=
  let c := p.cls
  fitTo 48 (leBytes 2 c.ptype ++ leBytes 1 c.source ++ leBytes 1 c.reason ++ leBytes 2 c.bytes ++ leBytes 2 c.payload ++
    c.slots.flatMap (fun s => leBytes 2 (s.elim 0 (fun o => 32768 + o % 512))) ++ leBytes 4 c.hash ++
    leBytes 2 (if c.tv then 32768 + c.ten else 0) ++ leBytes 2 (c.ring.elim 0 (32768 + ·)) ++ leBytes 2 c.handler ++
    leBytes 1 (b2n c.l3ok + 2 * b2n c.l4ok + 4 * b2n c.l3chk + 8 * b2n c.l4chk + 16 * b2n c.av) ++ leBytes 1 0 ++
    leBytes 4 c.action ++ leBytes 4 tok ++ leBytes 4 (p.ts % 2 ^ 32))

/-- Drop a frame: its cells are freed, and a TX job's frame counts as gone (R121). -/
def Dev.dropPkt (d : Dev) (tok : Nat) : Dev :=
  match d.pkt tok with
  | none => d
  | some p => (d.freePkt tok).frameGone p.job 0 0 none

/-- R204: the RX ring of the manager, if frames can go to it. -/
def Dev.excRingOf (d : Dev) : Option Nat :=
  let v := d.reg Reg.CLS_EXC_RING
  if !bitOf v 31 then none
  else
    match kvFind (fld v 15 0) d.ring.sqs with
    | some q => if q.cls = 1 ∧ d.shutOpen q.ten then some (fld v 15 0) else none
    | none => none

/-- R15, R203, R204: send a frame to the manager's exception ring with a reason. -/
def Dev.toExcRing (d : Dev) (tok reason : Nat) : Dev :=
  match d.pkt tok with
  | none => d
  | some p =>
    if d.excRingOf = none then (d.dropPkt tok).count Reg.CLS_SLOW_DROP
    else if 4096 ≤ d.glb.exc.ring.length then (d.dropPkt tok).count Reg.GLB_EXC_DROP_CNT
    else
      let c := { p.cls with ptype := 0x8000 + p.cls.source * 256 + reason, hash := 0, reason := reason }
      let d := d.setPkt tok { p with stage := .excRing reason, cls := c }
      { d with glb := { d.glb with exc := { d.glb.exc with
          ring := d.glb.exc.ring ++ [{ reason := reason, token := tok }] } } }

/-- R203: the fate of a slow-path frame. -/
def Dev.slowPath (d : Dev) (tok reason : Nat) : Dev :=
  let v := d.reg (Reg.CLS_SLOW reason)
  match fld v 17 16 with
  | 0 => d.toExcRing tok reason
  | 1 =>
    if 4096 ≤ d.glb.exc.slow.length then
      let d := d.count Reg.GLB_EXC_DROP_CNT
      if bitOf v 18 then d.toExcRing tok reason else d.dropPkt tok
    else
      match d.pkt tok with
      | none => d
      | some p =>
        let h := fld v 15 0
        let d := d.setPkt tok { p with stage := .handler h, cls := { p.cls with hv := true, handler := h } }
        { d with glb := { d.glb with exc := { d.glb.exc with
            slow := d.glb.exc.slow ++ [{ reason := reason, token := tok, handler := h }] } } }
  | _ => (d.dropPkt tok).count Reg.CLS_SLOW_DROP

/-- The frame leaves the exception queues. -/
def Dev.excTaken (d : Dev) (tok : Nat) : Dev :=
  let keep := fun (l : List ExcRec) => l.filter (fun r => decide (r.token ≠ tok))
  { d with glb := { d.glb with exc := { d.glb.exc with slow := keep d.glb.exc.slow, ring := keep d.glb.exc.ring } } }

/-- R195: put a frame into the re-entry queue; none: it is full. -/
def Dev.toReentry (d : Dev) (tok : Nat) : Option Dev :=
  match d.pkt tok with
  | none => none
  | some p =>
    if 4096 ≤ d.cls.reentryQ.length then none
    else
      let d := d.setPkt tok { p with stage := .reentry, cls := { source := 0x60 } }
      some { d with cls := { d.cls with reentryQ := d.cls.reentryQ ++ [tok] } }

/-- The LOCAL of a ring is an RX ring of the tenancy. -/
def Dev.isRxRing (d : Dev) (t loc : Nat) : Bool := (d.sqAt t loc).elim false (fun x => decide (x.2.cls = 1))

/-! Handlers (R360, R361). -/

/-- The k-th set bit of a 16-bit mask, counting from bit 0. -/
def nthBit (mask k : Nat) : Nat :=
  (((List.range 16).filter (fun i => decide (mask / 2 ^ i % 2 = 1)))[k]?).getD 0

/-- R361: the core a frame with this HASH goes to. -/
def coreOf (e : Dword) (hash : Nat) : Nat :=
  let cl := fld e 47 32
  let co := fld e 31 16
  16 * nthBit cl (hash / 65536 % max 1 (popcount16 cl)) + nthBit co (hash % max 1 (popcount16 co))

/-- R360, R374: a frame takes the FATE of its handler. -/
def Dev.coreFate (d : Dev) (tok : Nat) (h : Option Nat) : Dev :=
  match h with
  | some h => if bitOf (d.hnd h) 62 then d.toExcRing tok 0x41 else (d.dropPkt tok).count Reg.CORE_FATE_DROP
  | none => (d.dropPkt tok).count Reg.CORE_FATE_DROP

/-- HANDLER_DISPATCH (R361). -/
def Dev.dispatch (d : Dev) (tok : Nat) : Dev :=
  match d.pkt tok with
  | none => d
  | some p =>
    match p.stage with
    | .handler h =>
      let d := d.excTaken tok
      let e := d.hnd h
      if !bitOf e 63 ∨ fld e 47 32 = 0 ∨ fld e 31 16 = 0 then (d.dropPkt tok).count Reg.CORE_NO_HND
      else
        let n := coreOf e p.cls.hash
        let c := d.core n
        if c.frozen then d.coreFate tok (some h)
        else if 256 ≤ c.hq.length then
          if bitOf e 61 then d.toExcRing tok 0x40 else (d.dropPkt tok).count Reg.CORE_HQ_DROP
        else ((d.setCore n { c with hq := c.hq ++ [(tok, h)] }).setPkt tok { p with stage := .core n }).wakeCore n
    | _ => d

end Sys2Proof.Machine
end

