-- ==== Sys2Proof/Machine/Prim.lean ====
section
/-! DEFINITION. The cryptographic primitives the device uses, as uninterpreted functions (log 33), and authenticated
encryption over them (R262, R270, R275, R278 to R281). -/

namespace Sys2Proof.Machine

/-- n bytes of a primitive's output. -/
def primBytes (name : Nat) (ins : List (List Byte)) (n : Nat) : List Byte := (List.range n).map (Config.prim name ins)

/-- A number as an input of a primitive. -/
def primNat (n : Nat) : List Byte := leBytes 8 n

/-! Primitives by number: 1 keystream of an AEAD under a key and IV; 2 its tag over AAD and ciphertext; 3 key wrap and 4 its
inverse (RFC 3394), whose check is `primOk 4`; 5 HKDF; 6 HKDF-Expand-Label; 7 QUIC header protection mask; 8 public output of a
handshake operation; 9 its secret; `primOk 10` a signature holds; `primOk 11` signing stopped at its bound; 12 hashes. -/

/-- Encrypt or decrypt: the keystream of GCM or ChaCha20 (alg 1 to 3). -/
def aeadXor (alg : Nat) (key iv data : List Byte) : List Byte :=
  xorBytes data (primBytes 1 [primNat alg, key, iv] data.length)

/-- The tag over AAD and ciphertext. -/
def aeadTag (alg : Nat) (key iv aad ct : List Byte) : List Byte := primBytes 2 [primNat alg, key, iv, aad, ct] 16

/-- Ciphertext and tag. -/
def aeadSeal (alg : Nat) (key iv aad pt : List Byte) : List Byte :=
  let ct := aeadXor alg key iv pt
  ct ++ aeadTag alg key iv aad ct

/-- Plaintext of ciphertext with its tag; none: the tag fails. -/
def aeadOpen (alg : Nat) (key iv aad c : List Byte) : Option (List Byte) :=
  let ct := c.take (c.length - 16)
  if 16 ≤ c.length ∧ c.drop (c.length - 16) = aeadTag alg key iv aad ct then some (aeadXor alg key iv ct) else none

/-- R265, R271: RFC 3394 wrap and unwrap. -/
def keyWrap (kek pt : List Byte) : List Byte := primBytes 3 [kek, pt] (pt.length + 8)
def keyUnwrap (kek c : List Byte) : Option (List Byte) :=
  if 16 ≤ c.length ∧ c.length % 8 = 0 ∧ Config.primOk 4 [kek, c] then some (primBytes 4 [kek, c] (c.length - 8)) else none

/-- R270: HKDF (mode 0, 1) and HKDF-Expand-Label (mode 2, 3). -/
def hkdf (mode : Nat) (secret salt info : List Byte) (n : Nat) : List Byte :=
  primBytes (if mode < 2 then 5 else 6) [primNat mode, secret, salt, info, primNat n] n

end Sys2Proof.Machine
end

