-- ==== Sys2Proof/Machine/Keys.lean ====
section
/-! DEFINITION. The key store, entropy, and the key and context commands (R264 to R274, R282, R283, R286 to R288). -/

namespace Sys2Proof.Machine

def Dev.setCry (d : Dev) (x : CryPart) : Dev := { d with cry := x }
def Dev.slot (d : Dev) (n : Nat) : Option KeySlot := kvFind n d.cry.slots
def Dev.cryCtx (d : Dev) (c : Nat) : Option CryCtx := kvFind c d.cry.ctxs
def Dev.setCryCtx (d : Dev) (c : Nat) (x : CryCtx) : Dev := d.setCry { d.cry with ctxs := kvPut c x d.cry.ctxs }

/-- An event of the crypto block for the PF in CRY_EVT_CFG. -/
def Dev.cryEvent (d : Dev) (v : Ev) : Dev := d.pfEvent (d.regFld Reg.CRY_EVT_CFG 3 0) v

/-- R265: the HBM line of a slot. -/
def slotAddr (n : Nat) : Nat := 0x2C70000000 + 128 * n

/-- R286: zeroise a slot. -/
def Dev.zeroSlot (d : Dev) (n : Nat) : Dev :=
  (d.setCry { d.cry with slots := kvDel n d.cry.slots }).hbmWrite (slotAddr n) (List.replicate 128 0#8)

/-- R266: a slot whose line carries the poison mark fails its unwrap: it is zeroised, counted, and its owner told. -/
def Dev.unwrapFail (d : Dev) (n : Nat) : Dev :=
  match d.slot n with
  | none => d
  | some x =>
    let d := (d.zeroSlot n).count Reg.CRY_UNWRAP_FAIL
    if x.dev then d.cryEvent { type := 5, p1 := n } else d.tenEvent x.ten { type := 5, p1 := n }

def Dev.slotBad (d : Dev) (n : Nat) : Bool := (d.slot n).isSome && d.hbm.poisoned (slotAddr n) 128

/-! Entropy (R272 to R274). -/

/-- No random value may be drawn: a health test failed, or the start-up test has not passed. -/
def Dev.noEntropy (d : Dev) : Bool := d.cry.failed || !d.cry.running

/-- A request of the DRBG for n bytes; a request beyond 65,536 since it was seeded reseeds it first (R273). -/
def Dev.drbg (d : Dev) (n : Nat) (reseed : Bool) : List Byte × Dev :=
  let (s, d) := d.draw
  (freeBytes s n, d.setCry { d.cry with drbg := if reseed ∨ 65536 ≤ d.cry.drbg then 1 else d.cry.drbg + 1 })

/-- RNG_HEALTH_FAIL (R274). -/
def Dev.rngFail (d : Dev) (rct apt : Bool) : Dev :=
  if !(rct || apt) then d
  else
    let d := d.setCry { d.cry with failed := true, running := false, rct := d.cry.rct || rct, apt := d.cry.apt || apt, drbg := 0 }
    ((d.count Reg.CRY_RNG_FAIL_CNT).setBit Reg.CRY_GSTAT 1).cryEvent { type := 0x120 }

/-- The start-up test of R272 runs: when it passes FAILED clears and the DRBG is seeded (R274). -/
def Dev.rngStart (d : Dev) (pass : Bool) : Dev :=
  if pass then d.setCry { d.cry with failed := false, rct := false, apt := false, running := true, drbg := 0 } else d

/-! Fields and checks of the commands (R267, R269, R288). -/

namespace Key
def TRAFFIC : Nat := 0
def WRAP : Nat := 1
def DERIVE : Nat := 2
def SIGN : Nat := 3
def AGREE : Nat := 4
def EXPORT : Nat := 5
def MIGRATE : Nat := 6
end Key

def AdmEntry_dev (e : AdmEntry) : Bool := bitOf e.d2 12
def AdmEntry_slot (e : AdmEntry) : Nat := fld e.d2 51 32

/-- R267: the usages a slot of a type may be given by a key command. -/
def usageMask (type : Nat) : Nat :=
  match type with
  | 1 => 0x21
  | 2 => 0x23
  | 3 => 0x21
  | 4 => 0x25
  | 5 => 0x10
  | 6 => 0x10
  | 7 => 0x08
  | 8 => 0x08
  | 9 => 0x10
  | 10 => 0x08
  | 11 => 0x42
  | _ => 0

/-- R267: LEN of a type. -/
def keyLenOk (type n : Nat) : Bool :=
  match type with
  | 1 => decide (n = 16)
  | 2 => decide (n = 32)
  | 3 => decide (n = 32)
  | 4 => decide (n = 32 ∨ n = 48 ∨ n = 64)
  | 5 => decide (n = 64)
  | 6 => decide (n = 64)
  | 7 => decide (n = 32)
  | 8 => decide (n = 32)
  | 9 => decide (n = 32)
  | 10 => decide (n = 48)
  | 11 => decide (n = 32)
  | _ => false

/-- Every bit of the usage is in the mask. -/
def within (usage mask : Nat) : Bool := (List.range 8).all (fun i => decide (usage / 2 ^ i % 2 ≤ mask / 2 ^ i % 2))

def KeySlot.may (s : KeySlot) (bit : Nat) : Bool := decide (s.usage / 2 ^ bit % 2 = 1)

/-- Key slots of a tenancy. -/
def Dev.keysOf (d : Dev) (t : Nat) : Nat := (d.cry.slots.filter (fun x => !x.2.dev && decide (x.2.ten = t))).length

/-- R73, R269, R288: privilege of a DEV command, ownership of any other. -/
def Dev.keyAccess (d : Dev) (e : AdmEntry) : List (Bool × Nat × Nat) :=
  [(AdmEntry_dev e && !d.privOf e, St.DENIED, 3),
   (!AdmEntry_dev e && (d.notOwner e e.ten).1, St.DENIED, 2)]

/-- R286: the tenancy is BOUND or OPEN. -/
def Dev.keyState (d : Dev) (t : Nat) : Bool × Nat × Nat :=
  (!decide ((d.tenGet t).st = 2 ∨ (d.tenGet t).st = 3), St.STATE, (d.tenGet t).st)

def Dev.keyTen (d : Dev) (e : AdmEntry) : Bool × Nat × Nat :=
  if AdmEntry_dev e then (false, 0, 0) else d.keyState e.ten

/-- R269: a slot to be written is free, and within the quota. `t`: none for DEV. -/
def Dev.newSlot (d : Dev) (priv : Bool) (t : Option Nat) (n : Nat) : List (Bool × Nat × Nat) :=
  let own := fun (x : KeySlot) => match t with
    | none => x.dev
    | some t => !x.dev && decide (x.ten = t)
  [((d.slot n).elim false (fun x => x.dev && !priv), St.DENIED, 3),
   ((d.slot n).elim false (fun x => !own x), St.DENIED, 1),
   ((d.slot n).isSome, St.STATE, 1),
   (t.elim false (fun t => decide ((d.tenGet t).keys ≤ d.keysOf t)), St.NOSPACE, 0)]

/-- R269: a slot that is used: not free, the requester's, with the usage it needs (7: none). -/
def Dev.useSlot (d : Dev) (priv : Bool) (t : Option Nat) (n bit : Nat) : List (Bool × Nat × Nat) :=
  let own := fun (x : KeySlot) => match t with
    | none => x.dev
    | some t => !x.dev && decide (x.ten = t)
  [((d.slot n).isNone, St.STATE, 0),
   ((d.slot n).elim false (fun x => x.dev && !priv), St.DENIED, 3),
   ((d.slot n).elim false (fun x => !own x), St.DENIED, 2),
   (decide (bit < 7) && (d.slot n).elim false (fun x => !x.may bit), St.DENIED, 4)]

/-- The requester of a key command. -/
def keyOwner (e : AdmEntry) : Option Nat := if AdmEntry_dev e then none else some e.ten

/-- Write a slot. -/
def Dev.putSlot (d : Dev) (t : Option Nat) (n type usage origin : Nat) (m : List Byte) : Dev :=
  let x : KeySlot := { dev := t.isNone, ten := t.getD 0, type := type, usage := usage, origin := origin, material := m }
  d.setCry { d.cry with slots := kvPut n x d.cry.slots }

/-- Run a key command whose effect reads these slots: one that fails its unwrap ends the command (R266). -/
def Dev.keyRun (d : Dev) (e : AdmEntry) (opc : Nat) (uses : List Nat) (f : Dev → AdmRes) : Dev :=
  if !d.ctlRuns then d
  else
    match f d with
    | .fail st det => d.admComplete e opc st det 0
    | r =>
      match uses.find? d.slotBad with
      | some n => (d.unwrapFail n).admComplete e opc St.INTEGRITY 0x12 0
      | none => d.admRun e opc (fun _ => r)

/-! The key commands. -/

/-- CRY_KEY_PUT. -/
def cryKeyPut (e : AdmEntry) (d : Dev) : AdmRes :=
  let ty := fld e.d3 7 0
  let us := fld e.d3 15 8
  let wrapped := bitOf e.d3 52
  let w := fld e.d3 51 32
  let n := e.len - (if wrapped then 8 else 0)
  let b := fitTo e.len e.buf
  let kek := ((d.slot w).map (·.material)).getD []
  let o := keyOwner e
  admChecks (d.keyAccess e ++
      [(decide (usageMask ty = 0), St.RANGE, rangeAt 3 0), (!within us (usageMask ty) || decide (us / 64 % 2 = 1), St.RANGE, rangeAt 3 8),
       (!keyLenOk ty n || decide (wrapped ∧ e.len < 8), St.RANGE, rangeAt 0 32), d.keyTen e] ++
      d.newSlot (d.privOf e) o (AdmEntry_slot e) ++ (if wrapped then d.useSlot (d.privOf e) o w Key.WRAP else []) ++
      [e.bufCheck, (wrapped && (keyUnwrap kek b).isNone, St.INTEGRITY, 0x12)]) fun _ =>
    .done (d.putSlot o (AdmEntry_slot e) ty us 1 (if wrapped then (keyUnwrap kek b).getD [] else b))

/-- R288: LEN and the range checks of a generated or derived key. -/
def genLen (e : AdmEntry) : Nat :=
  match fld e.d3 7 0 with
  | 1 => 16
  | 4 => fld e.d3 23 16
  | _ => 32

def genRange (e : AdmEntry) : List (Bool × Nat × Nat) :=
  let ty := fld e.d3 7 0
  [(!decide ((1 ≤ ty ∧ ty ≤ 4) ∨ ty = 11), St.RANGE, rangeAt 3 0),
   (!within (fld e.d3 15 8) (usageMask ty), St.RANGE, rangeAt 3 8),
   (!keyLenOk ty (genLen e), St.RANGE, rangeAt 3 16)]

/-- CRY_KEY_GEN. -/
def cryKeyGen (e : AdmEntry) (d : Dev) : AdmRes :=
  let us := fld e.d3 15 8
  admChecks (d.keyAccess e ++ genRange e ++ [(decide (us / 64 % 2 = 1), St.RANGE, rangeAt 3 8), d.keyTen e] ++
      d.newSlot (d.privOf e) (keyOwner e) (AdmEntry_slot e) ++ [(d.noEntropy, St.INTEGRITY, 0x20)]) fun _ =>
    let (m, d) := d.drbg (genLen e) true
    .done (d.putSlot (keyOwner e) (AdmEntry_slot e) (fld e.d3 7 0) us 2 m)

/-- CRY_KEY_DERIVE: MIGRATE only from a parent of ORIGIN AGREE, and only on TYPE 11. -/
def cryKeyDerive (e : AdmEntry) (d : Dev) : AdmRes :=
  let us := fld e.d3 15 8
  let parent := fld e.d3 51 32
  let mode := fld e.d4 1 0
  let o := keyOwner e
  let b := fitTo e.len e.buf
  let sl := leAt b 0 2
  let px := (d.slot parent).getD default
  let mig := decide (us / 64 % 2 = 1)
  admChecks (d.keyAccess e ++ genRange e ++
      [(decide (1024 < e.len ∨ e.len < 2), St.RANGE, rangeAt 0 32), d.keyTen e] ++
      d.newSlot (d.privOf e) o (AdmEntry_slot e) ++ d.useSlot (d.privOf e) o parent Key.DERIVE ++
      [(mig && decide (px.origin ≠ 4), St.RANGE, rangeAt 3 8), e.bufCheck, (decide (e.len < 2 + sl), St.RANGE, 0)]) fun _ =>
    .done (d.putSlot o (AdmEntry_slot e) (fld e.d3 7 0) us 3
      (hkdf mode px.material (slice b 2 sl) (b.drop (2 + sl)) (genLen e)))

/-- CRY_KEY_EXPORT. -/
def cryKeyExport (e : AdmEntry) (d : Dev) : AdmRes :=
  let o := keyOwner e
  let n := AdmEntry_slot e
  let w := fld e.d3 51 32
  let m := ((d.slot n).map (·.material)).getD []
  let kek := ((d.slot w).map (·.material)).getD []
  admChecks (d.keyAccess e ++ [d.keyTen e] ++ d.useSlot (d.privOf e) o n Key.EXPORT ++ d.useSlot (d.privOf e) o w Key.WRAP ++
      [(decide (e.len < m.length + 8), St.RANGE, rangeAt 0 32)]) fun _ =>
    .done d 0 (m.length + 8) (keyWrap kek m)

/-- R287: a valid context names the slot. -/
def CryCtx.names (x : CryCtx) (n : Nat) : Bool :=
  decide (x.st ≠ 4) && (decide (x.keySlot = n) || decide (x.nextSlot = some n))

/-- R343: an archive session names the slot. -/
def ArcWork.names (w : ArcWork) (n : Nat) : Bool := w.session.isSome && w.slots.contains n

/-- R343: an archive session is invalidated; a job of it that runs goes on without it. -/
def Dev.loseSession (d : Dev) (w : ArcWork) : Dev :=
  let ws := if w.cur.isSome then d.arc.works.map (fun (x : ArcWork) => if x.id = w.id then { x with session := none } else x)
    else d.arc.works.filter (fun x => decide (x.id ≠ w.id))
  Dev.tenEvent { d with arc := { d.arc with works := ws } } w.ten { type := 5, p1 := w.session.getD 0 }

/-- Invalidate the contexts that name a slot, telling their tenancies. -/
def Dev.loseContexts (d : Dev) (n : Nat) : Dev :=
  let d := (d.arc.works.filter (fun w => w.names n)).foldl (fun d w => d.loseSession w) d
  (d.cry.ctxs.filter (fun c => c.2.names n)).foldl (fun d c =>
    (d.setCryCtx c.1 { c.2 with st := 4 }).tenEvent c.2.ten { type := 5, p1 := c.1 }) d

/-- CRY_KEY_ZERO. -/
def cryKeyZero (e : AdmEntry) (d : Dev) : AdmRes :=
  let n := AdmEntry_slot e
  let force := bitOf e.d3 0
  let used := d.cry.ctxs.any (fun c => c.2.names n) || d.arc.works.any (fun w => w.names n)
  admChecks (d.keyAccess e ++ [d.keyTen e]) fun _ =>
    if (d.slot n).isNone then .done d 1
    else
      admChecks (d.useSlot (d.privOf e) (keyOwner e) n 7 ++ [(used && !force, St.STATE, 2)]) fun _ =>
        .done ((d.loseContexts n).zeroSlot n)

/-! Contexts (R282, R283, R288). -/

/-- Tenancy of a connection context, whatever its kind. -/
def Dev.ctxOwner (d : Dev) (c : Nat) : Option Nat :=
  (((kvFind c d.cry.ctxs).map (·.ten)).or ((kvFind c d.sto.ctxs).map (·.ten))).or
    ((d.arc.works.find? (fun w => decide (w.session = some c))).map (·.ten))

/-- Contexts of a tenancy. -/
def Dev.ctxsOf (d : Dev) (t : Nat) : Nat :=
  (d.cry.ctxs.filter (fun x => decide (x.2.ten = t))).length + (d.sto.ctxs.filter (fun x => decide (x.2.ten = t))).length +
    (d.arc.works.filter (fun w => w.session.isSome && decide (w.ten = t))).length

/-- R282: refusals of a context to be written. -/
def Dev.newCtx (d : Dev) (t c : Nat) : List (Bool × Nat × Nat) :=
  [(decide (d.ctxOwner c = some t), St.STATE, 1), ((d.ctxOwner c).isSome, St.DENIED, 1),
   (decide ((d.tenGet t).ctxs ≤ d.ctxsOf t), St.NOSPACE, 0)]

/-- RANGE detail of a byte of a parameter block. -/
def blkAt (byte : Nat) : Nat := byte / 8 * 64 + byte % 8 * 8

def algKeyLen (alg : Nat) : Nat := if alg = 1 then 16 else 32

/-- R270: traffic keys from a secret, with the labels of TLS (1 "key", 2 "iv") or QUIC
(3 "quic key", 4 "quic iv", 5 "quic hp"); SHA-384 with AES-256. -/
def trafficKey (quic : Bool) (alg : Nat) (secret : List Byte) : TrafficKey :=
  let mode := if alg = 2 then 3 else 2
  let lab := fun (l n : Nat) => hkdf mode secret [] (primNat l) n
  if quic then { key := lab 3 (algKeyLen alg), iv := lab 4 12, hp := lab 5 (algKeyLen alg) }
  else { key := lab 1 (algKeyLen alg), iv := lab 2 12 }

def isEsp (k : Nat) : Bool := decide (k = 0x10 ∨ k = 0x11)
def isTls (k : Nat) : Bool := decide (k = 0x12 ∨ k = 0x13)
def isQuic (k : Nat) : Bool := decide (k = 0x14 ∨ k = 0x15)

/-- R282: the first field of a parameter block outside its range. -/
def ctxBlockBad (b : List Byte) : Option Nat :=
  let k := leAt b 0 1
  let alg := leAt b 1 1
  let w := leAt b 28 2
  if k < 0x10 ∨ 0x15 < k then some (blkAt 0)
  else if alg = 0 ∨ (if isEsp k then 2 else 3) < alg then some (blkAt 1)
  else if isEsp k ∧ 8 ≤ leAt b 2 1 then some (blkAt 2 + 3)
  else if k = 0x11 ∧ w ≠ 0 ∧ !(decide (64 ≤ w ∧ w ≤ 4096) && (List.range 13).any (fun i => decide (w = 2 ^ i))) then some (blkAt 28)
  else if isQuic k ∧ 20 < leAt b 36 1 then some (blkAt 36)
  else if isQuic k ∧ 1 < leAt b 37 1 then some (blkAt 37)
  else none

/-- A slot for a context: of the tenancy, with TRAFFIC, and of the type its kind and algorithm need. -/
def Dev.ctxSlot (d : Dev) (priv : Bool) (t kind alg n detail : Nat) : List (Bool × Nat × Nat) :=
  let ty := ((d.slot n).map (·.type)).getD 0
  d.useSlot priv (some t) n Key.TRAFFIC ++ [(!decide (ty = (if isEsp kind then alg else 4)), St.RANGE, detail)]

/-- The context a parameter block describes. -/
def ctxOfBlock (t : Nat) (b : List Byte) : CryCtx :=
  let k := leAt b 0 1
  { ten := t, kind := k, alg := leAt b 1 1, flags := if isEsp k then leAt b 2 1 else 0, keySlot := leAt b 4 4 % 2 ^ 20
    nextSlot := if isQuic k ∧ leAt b 8 4 / 2 ^ 31 = 1 then some (leAt b 8 4 % 2 ^ 20) else none
    salt := slice b 12 4, seq := leAt b 16 8, spi := leAt b 24 4, replayWin := if k = 0x11 then leAt b 28 2 else 0
    ports := leAt b 32 4, tcpNext := leAt b 32 4, dcidLen := leAt b 36 1, phase := leAt b 37 1, softBytes := leAt b 40 8
    hardBytes := leAt b 48 8, softUnits := leAt b 56 8, hardUnits := leAt b 64 8 }

/-- CRY_CTX_SET. -/
def cryCtxSet (e : AdmEntry) (d : Dev) : AdmRes :=
  let b := fitTo 128 e.buf
  let c := AdmEntry_slot e
  let x := ctxOfBlock e.ten b
  let mat := fun n => ((d.slot n).map (·.material)).getD []
  admChecks ([d.notOwner e e.ten, (decide (e.len ≠ 128), St.RANGE, rangeAt 0 32), e.bufCheck,
      ((ctxBlockBad b).isSome, St.RANGE, (ctxBlockBad b).getD 0), d.keyState e.ten] ++ d.newCtx e.ten c ++
      d.ctxSlot (d.privOf e) e.ten x.kind x.alg x.keySlot (blkAt 4) ++
      (x.nextSlot.elim [] (fun n => d.ctxSlot (d.privOf e) e.ten x.kind x.alg n (blkAt 8)))) fun _ =>
    let x := if isEsp x.kind then x
      else { x with cur := trafficKey (isQuic x.kind) x.alg (mat x.keySlot)
                    next := x.nextSlot.map (fun n => trafficKey true x.alg (mat n)) }
    .done (d.setCryCtx c x)

/-- CRY_CTX_UPDATE: the checks its operations share; `fits` says which kinds the operation fits. -/
def Dev.ctxPre (d : Dev) (e : AdmEntry) (fits : Nat → Bool) : List (Bool × Nat × Nat) :=
  let c := AdmEntry_slot e
  [d.notOwner e e.ten, (decide (5 < fld e.d3 2 0), St.RANGE, rangeAt 3 0), d.keyState e.ten,
   ((d.cryCtx c).isNone, if (d.ctxOwner c).isSome ∧ d.ctxOwner c ≠ some e.ten then St.DENIED else St.STATE,
     if (d.ctxOwner c).isSome ∧ d.ctxOwner c ≠ some e.ten then 2 else 0),
   ((d.cryCtx c).elim false (fun x => decide (x.ten ≠ e.ten)), St.DENIED, 2),
   ((d.cryCtx c).elim false (fun x => !fits x.kind), St.STATE, ((d.cryCtx c).map (·.kind)).getD 0)]

/-- Run an operation on a context. -/
def Dev.ctxOp (d : Dev) (e : AdmEntry) (fits : Nat → Bool) (more : CryCtx → List (Bool × Nat × Nat)) (f : CryCtx → AdmRes) : AdmRes :=
  match d.cryCtx (AdmEntry_slot e) with
  | none => admChecks (d.ctxPre e fits) fun _ => .done d
  | some x => admChecks (d.ctxPre e fits ++ more x) fun _ => f x

/-- READ. -/
def cryCtxRead (e : AdmEntry) (d : Dev) : AdmRes :=
  d.ctxOp e (fun _ => true) (fun _ => []) fun x =>
    .done d 0 64 (leBytes 8 x.units ++ leBytes 8 x.bytes ++ leBytes 8 x.tagFails ++ leBytes 8 x.replays ++ leBytes 8 x.seq ++
      List.replicate 24 0#8)

def AdmEntry_newSlot (e : AdmEntry) : Nat := fld e.d3 51 32

/-- NEXT: a new next key of a QUIC context; PREV is discarded. -/
def cryCtxNext (e : AdmEntry) (d : Dev) : AdmRes :=
  let n := AdmEntry_newSlot e
  d.ctxOp e isQuic (fun x => d.ctxSlot (d.privOf e) e.ten x.kind x.alg n (rangeAt 3 32)) fun x =>
    let k := trafficKey true x.alg (((d.slot n).map (·.material)).getD [])
    .done (d.setCryCtx (AdmEntry_slot e) { x with nextSlot := some n, next := some k, prev := none })

/-- The next phase of a QUIC context; its header protection key stays (RFC 9001). -/
def CryCtx.rotate (x : CryCtx) (k : TrafficKey) (first : Nat) : CryCtx :=
  { x with prev := some x.cur, cur := { k with hp := x.cur.hp }, next := none, keySlot := x.nextSlot.getD x.keySlot, nextSlot := none,
           phase := 1 - x.phase, phaseFirst := first }

/-- ROTATE: with no next key nothing can be used (STATE 0, log 34). -/
def cryCtxRotate (e : AdmEntry) (d : Dev) : AdmRes :=
  d.ctxOp e isQuic (fun x => [(x.next.isNone, St.STATE, 0)]) fun x =>
    .done (d.setCryCtx (AdmEntry_slot e) (x.rotate (x.next.getD {}) (x.seq + 1)))

/-- RESYNC: D4 the record number, D5 the TCP sequence of its first byte. -/
def cryCtxResync (e : AdmEntry) (d : Dev) : AdmRes :=
  d.ctxOp e (fun k => decide (k = 0x13)) (fun _ => []) fun x =>
    .done (d.setCryCtx (AdmEntry_slot e) { x with seq := e.d4.toNat, tcpNext := fld e.d5 31 0, part := [],
                                                   st := if x.st = 3 then 0 else x.st })

/-- REKEY: TLS from the record D4 on; ESP at once. -/
def cryCtxRekey (e : AdmEntry) (d : Dev) : AdmRes :=
  let n := AdmEntry_newSlot e
  d.ctxOp e (fun k => isTls k || isEsp k) (fun x => d.ctxSlot (d.privOf e) e.ten x.kind x.alg n (rangeAt 3 32)) fun x =>
    let x := if isEsp x.kind then { x with keySlot := n }
      else { x with keySlot := n, rekey := some (e.d4.toNat, trafficKey false x.alg (((d.slot n).map (·.material)).getD [])) }
    .done (d.setCryCtx (AdmEntry_slot e) x)

/-- DESTROY. -/
def cryCtxDestroy (e : AdmEntry) (d : Dev) : AdmRes :=
  d.ctxOp e (fun _ => true) (fun _ => []) fun _ =>
    .done (d.setCry { d.cry with ctxs := kvDel (AdmEntry_slot e) d.cry.ctxs })

/-! MACsec configuration (R275 to R277, R288). -/

def Dev.secY (d : Dev) (p : Nat) : SecY := kvGet {} d.cry.macsec p
def Dev.setSecY (d : Dev) (p : Nat) (x : SecY) : Dev := d.setCry { d.cry with macsec := kvSet {} p x d.cry.macsec }

/-- CRY_MACSEC_CFG. -/
def cryMacsecCfg (e : AdmEntry) (d : Dev) : AdmRes :=
  let p := fld e.d2 3 0
  admChecks [d.notPriv e, (decide (fld e.d2 35 34 = 3), St.RANGE, rangeAt 2 34)] fun _ =>
    .done (d.setSecY p { d.secY p with cfg := fld e.d2 41 32, window := fld e.d3 31 0 })

/-- CRY_MACSEC_SA: SAKs are DEV slots of TYPE 2 with TRAFFIC. -/
def cryMacsecSa (e : AdmEntry) (d : Dev) : AdmRes :=
  let b := fitTo 64 e.buf
  let p := leAt b 0 1
  let sc := leAt b 1 1
  let an := leAt b 2 1
  let en := leAt b 3 1 % 2 = 1
  let n := leAt b 4 4 % 2 ^ 20
  admChecks ([d.notPriv e, (decide (e.len ≠ 64), St.RANGE, rangeAt 0 32), e.bufCheck,
      (decide (15 < p), St.RANGE, blkAt 0), (decide (32 < sc), St.RANGE, blkAt 1), (decide (3 < an), St.RANGE, blkAt 2)] ++
      (if en then d.useSlot true none n Key.TRAFFIC ++ [(!decide (((d.slot n).map (·.type)).getD 0 = 2), St.RANGE, blkAt 4)] else [])) fun _ =>
    let sa : Sa := { en := en, keySlot := n, sci := beAt b 8 8, ssci := leAt b 16 4, salt := slice b 20 12, pn := leAt b 32 8 }
    let y := d.secY p
    .done (d.setSecY p { y with sas := kvSet {} (4 * sc + an) sa y.sas })

def execRngHealthFail (rct apt : Bool) (s : State) := s.run (·.rngFail rct apt)
/-- DRBG_RESEED (R273): CRY_RESEED_MS has passed. -/
def execDrbgReseed (s : State) := s.run (fun d => if d.cry.running then d.setCry { d.cry with drbg := 0 } else d)
def execCryRngRestart (pf : Nat) (value : Word) (pass : Bool) (s : State) :=
  s.run (fun d => d.bar0Write pf Reg.CRY_RNG_RESTART (fun d => if bitOf value 0 then d.rngStart pass else d))
def execCryMacsecCfg (e : AdmEntry) (s : State) := s.run (·.admRun e 0x46 (cryMacsecCfg e))
def execCryMacsecSa (e : AdmEntry) (s : State) := s.run (·.keyRun e 0x47 [leAt e.buf 4 4 % 2 ^ 20] (cryMacsecSa e))
def execCryKeyPut (e : AdmEntry) (s : State) :=
  s.run (·.keyRun e 0x48 (if bitOf e.d3 52 then [fld e.d3 51 32] else []) (cryKeyPut e))
def execCryKeyGen (e : AdmEntry) (s : State) := s.run (·.admRun e 0x49 (cryKeyGen e))
def execCryKeyDerive (e : AdmEntry) (s : State) := s.run (·.keyRun e 0x4A [fld e.d3 51 32] (cryKeyDerive e))
def execCryKeyExport (e : AdmEntry) (s : State) := s.run (·.keyRun e 0x4B [AdmEntry_slot e, fld e.d3 51 32] (cryKeyExport e))
def execCryKeyZero (e : AdmEntry) (s : State) := s.run (·.admRun e 0x4C (cryKeyZero e))
def execCryCtxSet (e : AdmEntry) (s : State) :=
  s.run (·.keyRun e 0x4E ([leAt e.buf 4 4 % 2 ^ 20] ++ (if leAt e.buf 8 4 / 2 ^ 31 = 1 then [leAt e.buf 8 4 % 2 ^ 20] else [])) (cryCtxSet e))
def execCryCtxRead (e : AdmEntry) (s : State) := s.run (·.admRun e 0x4F (cryCtxRead e))
def execCryCtxNext (e : AdmEntry) (s : State) := s.run (·.keyRun e 0x4F [AdmEntry_newSlot e] (cryCtxNext e))
def execCryCtxRotate (e : AdmEntry) (s : State) := s.run (·.admRun e 0x4F (cryCtxRotate e))
def execCryCtxResync (e : AdmEntry) (s : State) := s.run (·.admRun e 0x4F (cryCtxResync e))
def execCryCtxRekey (e : AdmEntry) (s : State) := s.run (·.keyRun e 0x4F [AdmEntry_newSlot e] (cryCtxRekey e))
def execCryCtxDestroy (e : AdmEntry) (s : State) := s.run (·.admRun e 0x4F (cryCtxDestroy e))

end Sys2Proof.Machine
end

