-- ==== Sys2Proof/Machine/Aead.lean ====
section
/-! DEFINITION. The bulk AEAD engines on frames: ESP, TLS records, QUIC packets (R262 to R264, R278 to R284). -/

namespace Sys2Proof.Machine

/-- How an engine ends with a frame: its new bytes and whether it was decrypted; dropped, counted in a register; a TX job
that ends with a detail; as it came. -/
inductive Unit_ where
  | ok (d : Dev) (data : List Byte) (decrypted : Bool)
  | drop (d : Dev) (reg : Option Nat)
  | refuse (d : Dev) (detail : Nat)

/-! Lifetime (R283). -/

/-- The value at which the next sequence number would wrap. -/
def CryCtx.wrapAt (x : CryCtx) : Nat :=
  if isEsp x.kind then (if x.flags % 2 = 1 then 2 ^ 64 else 2 ^ 32) else 2 ^ 62

def atLimit (limit n : Nat) : Bool := decide (limit ≠ 0 ∧ limit ≤ n)

/-- Account units and bytes; a soft limit is told once, a hard limit or a sequence about to wrap expires the context. -/
def Dev.cryUsed (d : Dev) (c : Nat) (x : CryCtx) (units bytes : Nat) : Dev :=
  let x := { x with units := x.units + units, bytes := x.bytes + bytes }
  let soft := atLimit x.softBytes x.bytes || atLimit x.softUnits x.units
  let hard := atLimit x.hardBytes x.bytes || atLimit x.hardUnits x.units || decide (x.wrapAt ≤ x.seq)
  let tell := fun (d : Dev) (k : Nat) => d.tenEvent x.ten { type := 0x121, p1 := c, p2 := k }
  let first := soft && !x.softSent
  let x' := { x with softSent := x.softSent || soft, st := if hard ∧ x.st = 0 then 1 else x.st }
  let d := d.setCryCtx c x'
  let d := if first then tell d 1 else d
  if hard ∧ x.st = 0 then tell d 2 else d

/-- A tag that failed (R263). -/
def Dev.tagFail (d : Dev) (c : Nat) (x : CryCtx) : Dev := d.setCryCtx c { x with tagFails := x.tagFails + 1 }

/-- IV of TLS and QUIC: the IV with the number in its last bytes. -/
def numIv (iv : List Byte) (n : Nat) : List Byte := xorBytes iv (List.replicate 4 0#8 ++ beBytes 8 n)

/-- TCP sequence a is before b. -/
def seqBefore (a b : Nat) : Bool := decide (0 < (b + 2 ^ 32 - a) % 2 ^ 32 ∧ (b + 2 ^ 32 - a) % 2 ^ 32 < 2 ^ 31)

/-! ESP (R278, R279). -/

/-- Put the length of an IP packet with n bytes behind its header right, and its protocol. -/
def ipSet (f : List Byte) (h : Net.L3) (proto n : Nat) : List Byte :=
  if h.ver = 4 then Net.insertL3 (patch (patch f (h.off + 2) (beBytes 2 (h.hlen + n))) (h.off + 9) (leBytes 1 proto))
  else patch (patch f (h.off + 4) (beBytes 2 n)) (h.off + 6) (leBytes 1 proto)

/-- AAD of ESP: SPI and sequence number, 64 bits with ESN. -/
def espAad (esn : Bool) (spi seq : Nat) : List Byte := beBytes 4 spi ++ beBytes (if esn then 8 else 4) seq

/-- ESP_OUT. -/
def Dev.espOut (d : Dev) (c : Nat) (x : CryCtx) (key f : List Byte) : Unit_ :=
  let h := Net.l3 f
  let o := h.off + h.hlen
  let pay := (f.drop o).take (h.total - h.hlen)
  let pad := (4 - (pay.length + 2) % 4) % 4
  let pt := pay ++ (List.range pad).map (fun i => BitVec.ofNat 8 (i + 1)) ++ leBytes 1 pad ++ leBytes 1 h.proto
  let esn := decide (x.flags % 2 = 1)
  let iv := beBytes 8 x.seq
  let esp := beBytes 4 x.spi ++ beBytes 4 x.seq ++ iv ++ aeadSeal x.alg key (x.salt ++ iv) (espAad esn x.spi x.seq) pt
  let udp := decide (x.flags / 4 % 2 = 1)
  let body := if udp then beBytes 2 (x.ports % 65536) ++ beBytes 2 (x.ports / 65536) ++ beBytes 2 (esp.length + 8) ++ [0, 0] ++ esp else esp
  if h.ver = 0 then .drop d (some Reg.CRY_NOKEY)
  else
    .ok (d.cryUsed c { x with seq := x.seq + 1 } 1 pt.length) (ipSet (f.take o) h (if udp then 17 else 50) body.length ++ body) false

/-- R279: the full sequence number of a received ESP packet (RFC 4303, Appendix A). -/
def espSeq (x : CryCtx) (lo : Nat) : Nat :=
  if x.flags % 2 = 0 then lo
  else
    let w := max 1 x.replayWin
    let tl := x.seq % 2 ^ 32
    let th := x.seq / 2 ^ 32
    if w ≤ tl + 1 then (if tl + 1 - w ≤ lo then th else th + 1) * 2 ^ 32 + lo
    else (if tl + 1 + 2 ^ 32 - w ≤ lo then th - 1 else th) * 2 ^ 32 + lo

/-- ESP_IN. -/
def Dev.espIn (d : Dev) (c : Nat) (x : CryCtx) (key f : List Byte) : Unit_ :=
  let h := Net.l3 f
  let o := h.off + h.hlen
  let e := if x.flags / 4 % 2 = 1 then o + 8 else o
  let n := h.off + h.total - e
  let spi := beAt f e 4
  let seq := espSeq x (beAt f (e + 4) 4)
  let esn := decide (x.flags % 2 = 1)
  if h.ver = 0 ∨ n < 34 ∨ spi ≠ x.spi ∨ h.proto ≠ (if x.flags / 4 % 2 = 1 then 17 else 50) then .drop d (some Reg.CRY_NOKEY)
  else if x.replayWin ≠ 0 ∧ (seq + x.replayWin ≤ x.seq ∨ seq ∈ x.seen) then
    .drop (d.setCryCtx c { x with replays := x.replays + 1 }) (some Reg.CRY_REPLAY)
  else
    match aeadOpen x.alg key (x.salt ++ slice f (e + 8) 8) (espAad esn spi seq) (slice f (e + 16) (n - 16)) with
    | none => .drop (d.tagFail c x) (some Reg.CRY_AUTH_FAIL)
    | some pt =>
      let edge := max x.seq seq
      let x := { x with seq := edge, seen := ((seq :: x.seen).filter (fun s => decide (edge < s + x.replayWin))) }
      let nh := leAt pt (pt.length - 1) 1
      let pay := pt.take (pt.length - 2 - leAt pt (pt.length - 2) 1)
      if nh = 59 then .drop ((d.cryUsed c { x with dummies := x.dummies + 1 } 1 pt.length)) none
      else .ok (d.cryUsed c x 1 pt.length) (ipSet (f.take o) h nh pay.length ++ pay) true

/-! TLS records (R280). -/

/-- Protect the whole records in a TCP payload, from record number n at TCP sequence s: the payload, and the records with
their starts; none: it does not hold whole records. -/
def tlsProtect (keyAt : Nat → TrafficKey) (alg : Nat) : Nat → List Byte → Nat → Nat → Option (List Byte × List (Nat × Nat))
  | 0, p, _, _ => if p.isEmpty then some ([], []) else none
  | fuel + 1, p, n, s =>
    if p.isEmpty then some ([], [])
    else
      let l := beAt p 3 2
      if p.length < 5 + l ∨ l < 16 then none
      else
        let k := keyAt n
        let rec_ := p.take 5 ++ aeadSeal alg k.key (numIv k.iv n) (p.take 5) (slice p 5 (l - 16))
        (tlsProtect keyAt alg fuel (p.drop (5 + l)) (n + 1) ((s + 5 + l) % 2 ^ 32)).map (fun r => (rec_ ++ r.1, (s, n) :: r.2))

/-- The key of a record: the new one from the record REKEY named (R288). -/
def CryCtx.keyAt (x : CryCtx) (n : Nat) : TrafficKey :=
  match x.rekey with
  | some (m, k) => if m ≤ n then k else x.cur
  | none => x.cur

/-- Where the TCP or UDP payload of a frame begins and ends. -/
def l4Span (f : List Byte) : Option (Nat × Nat × Nat) :=
  let h := Net.l3 f
  let o := h.off + h.hlen
  if h.ver = 0 then none
  else if h.proto = 6 then some (o, o + beAt f (o + 12) 1 / 16 * 4, h.off + h.total)
  else if h.proto = 17 then some (o, o + 8, h.off + h.total)
  else none

/-- TLS_TX. -/
def Dev.tlsTx (d : Dev) (c : Nat) (x : CryCtx) (f : List Byte) : Unit_ :=
  match l4Span f with
  | none => .ok d f false
  | some (o, a, b) =>
    let s := beAt f (o + 4) 4
    let p := slice f a (b - a)
    let start : Option Nat := if s = x.tcpNext then some x.seq
      else if seqBefore s x.tcpNext then (x.starts.find? (fun e => decide (e.1 = s))).map (·.2)
      else none
    match start.bind (fun n => tlsProtect x.keyAt x.alg (p.length + 1) p n s) with
    | none => .refuse d 0x23
    | some (p', rs) =>
      let fresh := rs.filter (fun r => decide (x.seq ≤ r.2))
      let all := x.starts ++ fresh
      let x' := { x with seq := x.seq + fresh.length, starts := all.drop (all.length - 16),
                         tcpNext := if fresh.isEmpty then x.tcpNext else (s + p.length) % 2 ^ 32 }
      .ok (d.cryUsed c x' fresh.length (if fresh.isEmpty then 0 else p.length)) (patch f a p') false

/-- Decrypt the records of a received stream in place: bytes before `keep` were seen in earlier frames. Answers the
bytes, the rest of a record not ended, the records ended, and whether every tag held. -/
def tlsOpen (keyAt : Nat → TrafficKey) (alg : Nat) : Nat → List Byte → Nat → List Byte × List Byte × Nat × Bool
  | 0, p, _ => (p, p, 0, true)
  | fuel + 1, p, n =>
    if p.length < 5 then (p, p, 0, true)
    else
      let l := beAt p 3 2
      let k := keyAt n
      if p.length < 5 + l then
        (p.take 5 ++ aeadXor alg k.key (numIv k.iv n) ((p.drop 5).take (l - 16)) ++ p.drop (5 + (l - 16)), p, 0, true)
      else
        match aeadOpen alg k.key (numIv k.iv n) (p.take 5) (slice p 5 l) with
        | none => (p, [], 0, false)
        | some pt =>
          let r := tlsOpen keyAt alg fuel (p.drop (5 + l)) (n + 1)
          (p.take 5 ++ pt ++ slice p (5 + pt.length) 16 ++ r.1, r.2.1, r.2.2.1 + 1, r.2.2.2)

/-- Records ended: the new key takes over when its first record is reached. -/
def CryCtx.afterRecords (x : CryCtx) (k : Nat) : CryCtx :=
  let n := x.seq + k
  match x.rekey with
  | some (m, key) => if m ≤ n then { x with seq := n, cur := key, rekey := none } else { x with seq := n }
  | none => { x with seq := n }

/-- TLS_RX. -/
def Dev.tlsRx (d : Dev) (c : Nat) (x : CryCtx) (f : List Byte) : Unit_ :=
  match l4Span f with
  | none => .ok d f false
  | some (o, a, b) =>
    let p := slice f a (b - a)
    if x.st ≠ 0 ∨ p.isEmpty then .ok d f false
    else if beAt f (o + 4) 4 ≠ x.tcpNext then
      .ok ((d.setCryCtx c { x with st := 3 }).tenEvent x.ten { type := 0x124, p1 := c }) f false
    else
      let (out, rest, k, good) := tlsOpen x.keyAt x.alg (x.part.length + p.length + 1) (x.part ++ p) x.seq
      if !good then .drop ((d.tagFail c { x with st := 2 })) (some Reg.CRY_AUTH_FAIL)
      else
        let x' := { x.afterRecords k with part := rest, tcpNext := (x.tcpNext + p.length) % 2 ^ 32 }
        .ok (d.cryUsed c x' k p.length) (patch f a (out.drop x.part.length)) true

/-! QUIC packets (R281). -/

/-- RFC 9000, Appendix A.3: the full packet number of `bits` truncated bits against the largest known. -/
def quicNumber (largest trunc bits : Nat) : Nat :=
  let e := largest + 1
  let win := 2 ^ bits
  let cand := e / win * win + trunc
  if cand + win / 2 ≤ e ∧ cand + win < 2 ^ 62 then cand + win
  else if e + win / 2 < cand ∧ win ≤ cand then cand - win
  else cand

/-- Apply or remove header protection: first byte and packet number. -/
def quicMask (x : CryCtx) (p : List Byte) (pnOff pnLen : Nat) : List Byte :=
  let m := primBytes 7 [primNat x.alg, x.cur.hp, slice p (pnOff + 4) 16] 5
  let p := patch p 0 (xorBytes (slice p 0 1) [m.headD 0 &&& 0x1F#8])
  patch p pnOff (xorBytes (slice p pnOff pnLen) (m.drop 1))

/-- QUIC_TX. -/
def Dev.quicTx (d : Dev) (c : Nat) (x : CryCtx) (f : List Byte) : Unit_ :=
  match l4Span f with
  | none => .ok d f false
  | some (_, a, b) =>
    let p := slice f a (b - a)
    let b0 := leAt p 0 1
    let pn := 1 + x.dcidLen
    let k := b0 % 4 + 1
    if 128 ≤ b0 then .ok d f false
    else
      let n := quicNumber x.seq (beAt p pn k) (8 * k)
      if n ≤ x.seq ∨ p.length < pn + 4 + 16 then .refuse d 0x23
      else
        let hdr := leBytes 1 (b0 / 8 * 8 + 4 * x.phase + b0 % 4) ++ slice p 1 (pn + k - 1)
        let pt := (p.drop (pn + k)).take (p.length - (pn + k) - 16)
        let q := quicMask x (hdr ++ aeadSeal x.alg x.cur.key (numIv x.cur.iv n) hdr pt) pn k
        .ok (d.cryUsed c { x with seq := n } 1 pt.length) (patch f a q) false

/-- QUIC_RX. -/
def Dev.quicRx (d : Dev) (c : Nat) (x : CryCtx) (f : List Byte) : Unit_ :=
  match l4Span f with
  | none => .ok d f false
  | some (_, a, b) =>
    let p := slice f a (b - a)
    let pn := 1 + x.dcidLen
    if 128 ≤ leAt p 0 1 then .ok d f false
    else
      let m0 := (primBytes 7 [primNat x.alg, x.cur.hp, slice p (pn + 4) 16] 1).headD 0
      let b0 := (slice p 0 1).headD 0 ^^^ (m0 &&& 0x1F#8)
      let k := b0.toNat % 4 + 1
      let p := quicMask x p pn k
      let n := quicNumber x.seq (beAt p pn k) (8 * k)
      let phase := leAt p 0 1 / 4 % 2
      let old := decide (phase ≠ x.phase ∧ n < x.phaseFirst)
      let key : Option TrafficKey := if phase = x.phase then some x.cur else if old then x.prev else x.next
      match key.bind (fun t => aeadOpen x.alg t.key (numIv t.iv n) (p.take (pn + k)) (p.drop (pn + k))) with
      | none => .drop (d.tagFail c x) (some Reg.CRY_AUTH_FAIL)
      | some pt =>
        let turn := decide (phase ≠ x.phase) && !old
        let x' := if turn then x.rotate (x.next.getD {}) n else x
        let d := d.cryUsed c { x' with seq := max x.seq n } 1 pt.length
        let d := if turn then d.tenEvent x.ten { type := 0x122, p1 := c } else d
        .ok d (patch f a (p.take (pn + k) ++ pt)) true

/-! The unit (R263, R264). -/

/-- One unit under a context: an invalid or expired context takes nothing. -/
def Dev.aeadFrame (d : Dev) (c : Nat) (f : List Byte) : Unit_ :=
  match d.cryCtx c with
  | none => .drop d (some Reg.CRY_NOKEY)
  | some x =>
    let esp := isEsp x.kind
    let d := if esp ∧ d.slotBad x.keySlot then d.unwrapFail x.keySlot else d
    let key := (d.slot x.keySlot).map (·.material)
    let tx := decide (x.kind = 0x10 ∨ x.kind = 0x12 ∨ x.kind = 0x14)
    if x.st = 4 ∨ x.st = 1 then (if tx then .refuse (d.count Reg.CRY_NOKEY) 0x22 else .drop d (some Reg.CRY_NOKEY))
    else if esp ∧ key = none then .drop d (some Reg.CRY_NOKEY)
    else
      match x.kind with
      | 0x10 => d.espOut c x (key.getD []) f
      | 0x11 => d.espIn c x (key.getD []) f
      | 0x12 => d.tlsTx c x f
      | 0x13 => d.tlsRx c x f
      | 0x14 => d.quicTx c x f
      | _ => d.quicRx c x f

/-- Checksums of layer 4 after bytes changed under them: a UDP sum of 0 over IPv4 stays 0. -/
def fixL4 (f : List Byte) : List Byte :=
  let h := Net.l3 f
  if h.ver = 4 ∧ h.proto = 17 ∧ beAt f (h.off + h.hlen + 6) 2 = 0 then f else Net.insertL4 f

/-- Put the frames of a protected TX job in place of the one that was protected: none when the Square has no room now. -/
def Dev.txSplit (d : Dev) (tok : Nat) (p : Packet) (data : List Byte) : Option Dev :=
  match p.job.bind (fun x => d.jobFind x.1 x.2) with
  | none => (d.growCrypto tok data).map (fun d => ((d.pkt tok).elim d (fun q => d.setPkt tok { q with stage := .arrived })))
  | some j =>
    let fs := txFrames j.firstE data
    ((d.freePkt tok).txStore j .arrived fs).map (fun d => d.jobPut { j with frames := fs.length })

/-- AEAD_UNIT: a frame that waits for an engine (R256, R262, R284). -/
def Dev.aeadUnit (d : Dev) (tok : Nat) (ecc : Ecc) : Dev :=
  match d.pkt tok with
  | none => d
  | some p =>
    let gone := fun (d : Dev) (bad : Option (Nat × Nat)) => (d.freePkt tok).frameGone p.job 0 0 bad
    let run := fun (c : Nat) (k : Dev → List Byte → Bool → Option Dev) =>
      let d := d.applyEcc ecc
      match d.aeadFrame c p.data with
      | .ok d' data dec => (k d' data dec).getD (gone d' none)
      | .drop d' reg => gone (reg.elim d' d'.count) none
      | .refuse d' det => gone d' (some (St.INTEGRITY, det))
    match p.stage with
    | .crypt c _ f =>
      run c (fun d data dec =>
        (d.growCrypto tok (if isEsp ((d.cryCtx c).elim 0 (·.kind)) then data else fixL4 data)).map (fun d =>
          (d.pkt tok).elim d (fun q => d.setPkt tok { q with stage := .forward { f with decrypted := dec } })))
    | .txCrypt c =>
      let whole := !isEsp ((d.cryCtx c).elim 0x10 (·.kind))
      if whole then
        -- the engine takes the unit when the Square can hold what it becomes
        match d.txSplit tok p p.data with
        | none => d
        | some _ => run c (fun d data _ => d.txSplit tok p data)
      else run c (fun d data _ => (d.growCrypto tok data).map (fun d =>
        (d.pkt tok).elim d (fun q => d.setPkt tok { q with stage := .arrived })))
    | _ => d

def execAeadUnit (tok : Nat) (ecc : Ecc) (s : State) := s.run (·.aeadUnit tok ecc)

end Sys2Proof.Machine
end

