-- ==== Sys2Proof/Machine/Egress.lean ====
section
/-! DEFINITION. How frames leave forwarding: the TWIN word and the digest point (R440 to R446), port queues and
rings. -/

namespace Sys2Proof.Machine

/-! Protected streams (R440 to R444). -/

/-- R441: offset of the R-TAG of a frame. -/
def rtagAt (f : List Byte) : Option Nat :=
  if etherType f = 0xF1C1 then some 12
  else if isVlan f ∧ beAt f 16 2 = 0xF1C1 then some 16 else none

/-- R443: the digest of a frame without its R-TAG. -/
def frameDigest (f : List Byte) : Nat :=
  let o := (rtagAt f).getD f.length
  Net.crcReg 0xC96C5795D7870F42 0xFFFFFFFFFFFFFFFF (f.take o ++ f.drop (o + 6)) ^^^ 0xFFFFFFFFFFFFFFFF

/-- Rotate a 64-bit value left. -/
def rotl64 (v k : Nat) : Nat := ((BitVec.ofNat 64 v).rotateLeft (k % 64)).toNat

/-- What vector recovery says of a sequence number. -/
inductive Recov where
  | pass (x : Stream)
  | duplicate
  | rogue

/-- R442: the vector recovery algorithm of IEEE 802.1CB (log 32). -/
def Stream.recover (x : Stream) (seq : Nat) : Recov :=
  match x.last with
  | none => .pass { x with last := some seq, seen := [true] }
  | some r =>
    let fwd := (seq + 65536 - r) % 65536
    if fwd < 32768 ∧ 0 < fwd then
      if x.hist ≤ fwd then .rogue
      else .pass { x with last := some seq, seen := (true :: (List.replicate (fwd - 1) false ++ x.seen)).take x.hist }
    else
      let back := (r + 65536 - seq) % 65536
      if x.hist ≤ back then .rogue
      else if x.seen.getD back false then .duplicate
      else
        let s := x.seen ++ List.replicate (back + 1 - x.seen.length) false
        .pass { x with seen := s.set back true }

def Dev.setTwin (d : Dev) (x : TwinPart) : Dev := { d with twin := x }
def Dev.stream (d : Dev) (s : Nat) : Stream := kvGet {} d.twin.streams s
def Dev.setStream (d : Dev) (s : Nat) (x : Stream) : Dev := d.setTwin { d.twin with streams := kvSet {} s x d.twin.streams }

/-- An event of the twin agent (R456). -/
def Dev.twinEvent (d : Dev) (v : Ev) : Dev := d.pfEvent (d.regFld Reg.TWIN_EVT_CFG 3 0) v

def Dev.twinDiverged (d : Dev) (p1 p2 : Nat) : Dev :=
  (d.setBit Reg.TWIN_GSTAT 2).twinEvent { type := 0x171, p1 := p1, p2 := p2 }

/-- R453: capture a protected input of the last 10 ms. -/
def Dev.twinCapture (d : Dev) (s seq : Nat) (f : List Byte) : Dev :=
  let t := d.twin
  let now := d.nowNs
  let c := (t.capture.filter (fun x => decide (now ≤ x.time + 10000000))) ++ [{ time := now, stream := s, seq := seq, data := f }]
  let trim := fun (l : List CapFrame) =>
    l.foldr (fun x (a : List CapFrame × Nat) =>
      if a.2 + x.data.length ≤ t.ringSize then (x :: a.1, a.2 + x.data.length) else (a.1, t.ringSize + 1)) ([], 0)
  let k := (trim c).1
  let short := decide (k.length < c.length) && t.shortAt.all (fun x => decide (x + 10000000 ≤ now))
  let d := d.setTwin { t with capture := k, shortAt := if short then some now else t.shortAt }
  if short then d.count Reg.TWIN_CAPTURE_SHORT else d

/-- Copy a frame without taking cells (R243). -/
def Dev.copyPkt (d : Dev) (tok : Nat) (p : Packet) (st : Stage) : Option (Nat × Dev) :=
  (kvFirstFree d.sq.pkts 393216).map (fun t =>
    (t, d.setPkt t { p with cells := 0, ext := 0, shares := some (p.shares.getD tok), stage := st, job := none }))

/-- TWIN (R440 to R442, R445): none: the frame is gone; the packet otherwise, as part of its stream. In
active-standby mode a copy runs the mirror list. -/
def Dev.twinWord (d : Dev) (tok : Nat) (p : Packet) (param bytes : Nat) : Option Packet × Dev :=
  let s := param % 4096
  let mirrored := decide (param / 4096 % 2 = 1)
  let x := d.stream s
  match rtagAt p.data with
  | none => (none, (d.dropPkt tok).count Reg.TWIN_NO_RTAG)
  | some o =>
    let seq := beAt p.data (o + 4) 2
    if !x.v then (none, (d.dropPkt tok).count Reg.TWIN_NO_RTAG)
    else
      let dig := frameDigest p.data
      match x.recover seq with
      | .rogue => (none, d.dropPkt tok)
      | .duplicate =>
        let d := (d.dropPkt tok).count Reg.TWIN_DUP_DROP
        let bad := x.elimCmp && (kvFind seq x.digs).elim false (fun y => decide (y ≠ dig))
        (none, if bad then (d.count Reg.TWIN_ELIM_MISMATCH).twinDiverged s seq else d)
      | .pass x' =>
        let keep := fun q => decide ((x'.last.getD seq + 65536 - q) % 65536 < x'.hist)
        let x' := if x'.elimCmp then { x' with digs := (kvPut seq dig x'.digs).filter (fun e => keep e.1) } else x'
        let d := d.setStream s x'
        if d.twin.role < 2 then (none, (d.dropPkt tok).count Reg.TWIN_NO_ROLE)
        else
          let d := d.twinCapture s seq p.data
          let p := { p with twin := some (s, seq, mirrored) }
          let d := if d.twin.mode = 2 ∧ !mirrored then
              match d.copyPkt tok { p with twin := none } (.forward { idx := d.twin.mirror, bytes := bytes }) with
              | some (_, d') => d'
              | none => d
            else d
          (some p, d)

/-- Add a frame's digest to the ranges that have passed the digest point (R443, R444). -/
def addDigest (s seq dig : Nat) : List DigRange → List DigRange
  | [] => [{ stream := s, first := seq, count := 1, dig := rotl64 dig seq }]
  | r :: rs =>
    if r.stream = s ∧ (r.first + r.count) % 65536 = seq then
      { r with count := r.count + 1, dig := r.dig ^^^ rotl64 dig seq } :: rs
    else r :: addDigest s seq dig rs

def Dev.sto? (d : Dev) (c : Nat) : Option StoCtx := kvFind c d.sto.ctxs
def Dev.setSto (d : Dev) (c : Nat) (x : StoCtx) : Dev := { d with sto := { d.sto with ctxs := kvPut c x d.sto.ctxs } }

/-- R293: the first frame of a context names the port whose rate is its maximum. -/
def Dev.noteEgress (d : Dev) (c port : Nat) : Dev :=
  match d.sto? c with
  | some x =>
    match x.k with
    | .qp q => if q.rate.port.isSome then d else d.setSto c { x with k := .qp { q with rate := { q.rate with port := some port } } }
    | .tcp q => if q.rate.port.isSome then d else d.setSto c { x with k := .tcp { q with rate := { q.rate with port := some port } } }
    | _ => d
  | none => d

/-- Put a frame into a port's transmit queue. -/
def Dev.enqueuePort (d : Dev) (tok port : Nat) (p : Packet) : Dev :=
  let d := p.ctx.elim d (fun c => d.noteEgress c port)
  let x := d.netPort port
  (d.setPkt tok { p with stage := .port port }).setNetPort port { x with txq := x.txq ++ [tok] }

/-- R445, R446: hold a shadow frame in pool 18; one that finds it full is freed. -/
def Dev.holdShadow (d : Dev) (tok port : Nat) (p : Packet) (s seq : Nat) : Dev :=
  let n := p.cells + p.ext
  let q := (d.sq.release p.pool p.cells).release 18 p.ext
  match q.takeCells 18 n with
  | none => (d.dropPkt tok).count Reg.TWIN_HOLD_DROP
  | some q =>
    let d := (d.setSquare q).setPkt tok { p with pool := 18, cells := n, ext := 0, stage := .held }
    d.setTwin { d.twin with held := d.twin.held ++ [{ stream := s, seq := seq, tok := tok, port := port, time := d.nowNs }] }

/-- R448: an active twin in active-standby mode transmits only while it holds a lease, 800 µs from SENT of the last grant. -/
def Dev.leaseHeld (d : Dev) : Bool := decide (d.twin.mode ≠ 2) || d.twin.grantRx.elim false (fun g => decide (d.nowNs < g + 800000))

/-- A frame is handed to the Timetable of a port: the digest point of a protected frame (R443, R445). -/
def Dev.toPort (d : Dev) (tok port : Nat) (p : Packet) : Dev :=
  match p.twin with
  | none => d.enqueuePort tok port p
  | some (s, seq, _) =>
    let dig := frameDigest p.data
    let t := d.twin
    let now := d.nowNs
    let d := d.setTwin { t with acc := addDigest s seq dig t.acc
                                emitted := (t.emitted.filter (fun e => decide (now ≤ e.2.2.2 + 10000000))) ++ [(s, seq, dig, now)] }
    if t.role = 2 ∧ d.leaseHeld then d.enqueuePort tok port p else d.holdShadow tok port p s seq

/-- R292: what the context engine does with a frame for tenancy t: none: nothing; some none: it drops it, the QP it names is not
valid in t; some c: it takes it under c. -/
def Dev.ctxTake (d : Dev) (t mark : Nat) (f : List Byte) : Option (Option Nat) :=
  let h := Net.l3 f
  let o := h.off + h.hlen
  let get := fun (c : Nat) => (d.sto? c).filter (fun x => decide (x.ten = t))
  if h.ver ≠ 0 ∧ h.proto = 17 ∧ beAt f (o + 2) 2 = 4791 then
    let c := beAt f (o + 13) 3
    match (get c).map StoCtx.k with
    | some (.qp _) => some (some c)
    | _ => some none
  else if mark / 2 ^ 31 % 2 = 1 ∧ h.ver ≠ 0 ∧ h.proto = 6 then
    match (get (mark % 2 ^ 20)).map StoCtx.k with
    | some (.tcp x) =>
      let ip := fun (a : List Byte) => if h.ver = 4 then List.replicate 10 0#8 ++ [0xFF#8, 0xFF#8] ++ a else a
      let src := if h.ver = 4 then slice f (h.off + 12) 4 else slice f (h.off + 8) 16
      let dst := if h.ver = 4 then slice f (h.off + 16) 4 else slice f (h.off + 24) 16
      if ip src = x.dst ∧ ip dst = x.src ∧ beAt f o 2 = x.rport ∧ beAt f (o + 2) 2 = x.lport then some (some (mark % 2 ^ 20)) else none
    | _ => none
  else none

/-- R81, R222, R257: a frame for a ring of a tenancy; by HASH through its indirection table. -/
def Dev.toRing (d : Dev) (tok : Nat) (p : Packet) (dest mark : Nat) (decrypted : Bool) : Dev :=
  let t := dest / 512 % 4096
  let loc : Option Nat :=
    if dest / 2 ^ 21 % 2 = 0 then some (dest % 512)
    else (kvFind t d.cls.inds).map (fun x =>
      let v := kvGet 0 d.cls.pool (512 * x.base + p.cls.hash % 2 ^ x.log2)
      if v / 32768 % 2 = 1 then v % 512 else x.defRing)
  let x := d.tenGet t
  let same := p.tenV && decide (p.ten = t)
  let p := { p with ten := t, tenV := true, gen := if same then p.gen else x.gen
                    clsOpen := if same then p.clsOpen else decide (x.st = 3) }
  match d.ctxTake t mark p.data, loc.filter (fun l => d.isRxRing t l) with
  | some none, _ => (d.dropPkt tok).count Reg.STO_NO_QP
  | some (some c), _ => d.setPkt tok { p with stage := .context c }
  | none, none => (d.dropPkt tok).count Reg.CLS_NO_RING
  | none, some l => d.setPkt tok { p with stage := .toRing t l mark decrypted }

end Sys2Proof.Machine
end

