-- ==== Sys2Proof/Machine/FwdNet.lean ====
section
/-! DEFINITION. Header work of forwarding: checksums kept good, keys, NAT, tunnels (R232, R250 to R255). -/

namespace Sys2Proof.Machine

/-- Start of a layer (LAYER codes 1 to 8). -/
def Packet.slot (p : Packet) (i : Nat) : Option Nat := p.cls.slots.getD (i - 1) none

def setSlot (l : List (Option Nat)) (i : Nat) (v : Option Nat) : List (Option Nat) := l.set (i - 1) v

/-- Move every slot at or beyond an offset. -/
def shiftSlots (l : List (Option Nat)) (from_ : Nat) (by_ : Int) : List (Option Nat) :=
  l.map (fun s => s.map (fun o => if from_ ≤ o then (o + by_).toNat else o))

/-- A checksum adjusted for bytes that change (R250, R257: checksums are made good). -/
def adjust (c : Nat) (old new : List Byte) : Nat :=
  let s := (65535 - c) + (65535 - Net.onesSum old) + Net.onesSum new
  let s := s % 65536 + s / 65536
  let s := s % 65536 + s / 65536
  65535 - s

/-- Adjust the checksum field at an offset; a UDP checksum of 0 over IPv4 stays 0 (no checksum). -/
def adjustAt (f : List Byte) (o : Nat) (udp : Bool) (old new : List Byte) : List Byte :=
  let c := beAt f o 2
  if udp ∧ c = 0 then f
  else
    let n := adjust c old new
    patch f o (beBytes 2 (if udp ∧ n = 0 then 65535 else n))

/-- Change a 16-bit aligned part of an IPv4 header, its checksum adjusted. -/
def patchIp4 (f : List Byte) (ip off : Nat) (b : List Byte) : List Byte :=
  let old := slice f (ip + off) b.length
  adjustAt (patch f (ip + off) b) (ip + 10) false old b

def ipVer (f : List Byte) (o : Nat) : Nat := beAt f o 1 / 16
def ipProto (f : List Byte) (o : Nat) : Nat := if ipVer f o = 4 then beAt f (o + 9) 1 else beAt f (o + 6) 1
/-- Header length of an IPv4 header; the fixed header of IPv6. -/
def ipHlen (f : List Byte) (o : Nat) : Nat := if ipVer f o = 4 then beAt f o 1 % 16 * 4 else 40

/-- R232: the key of a flow or connection from an IP header at l3 and a layer-4 header at l4. -/
def ipKey (ktype4 ten zone : Nat) (f : List Byte) (l3 : Nat) (l4 : Option Nat) : Option (List Byte) :=
  let v := ipVer f l3
  let proto := ipProto f l3
  let ports := match l4 with
    | some o => if proto = 6 ∨ proto = 17 then slice f o 4 else [0, 0, 0, 0]
    | none => [0, 0, 0, 0]
  let head := fun k => leBytes 2 (k * 4096 + ten) ++ leBytes 1 proto ++ leBytes 1 zone
  if v = 4 then some (fitTo 40 (head ktype4 ++ slice f (l3 + 12) 8 ++ ports))
  else if v = 6 then some (fitTo 40 (head (ktype4 + 1) ++ slice f (l3 + 8) 32 ++ ports))
  else none

/-- The flow key (KTYPE 1, 2); INNER takes IL3 and IL4 when IL3 is present. -/
def Packet.flowKey (p : Packet) (inner : Bool) : Option (List Byte) :=
  match (if inner then p.slot 7 else none), p.slot 3 with
  | some o, _ => ipKey 1 p.ten 0 p.data o (p.slot 8)
  | none, some o => ipKey 1 p.ten 0 p.data o (p.slot 4)
  | none, none => none

/-- The conntrack key (KTYPE 5, 6). -/
def Packet.ctKey (p : Packet) (zone : Nat) : Option (List Byte) :=
  (p.slot 3).bind (fun o => ipKey 5 p.ten zone p.data o (p.slot 4))

/-- A conntrack key with source and destination exchanged. -/
def reverseKey (k : List Byte) : List Byte :=
  let n := if leAt k 0 2 / 4096 = 5 then 4 else 16
  fitTo 40 (slice k 0 4 ++ slice k (4 + n) n ++ slice k 4 n ++ slice k (4 + 2 * n + 2) 2 ++ slice k (4 + 2 * n) 2)

/-! NAT (R250). -/

/-- Write an address and port of an IPv4 TCP or UDP frame, checksums adjusted. -/
def natWrite (f : List Byte) (l3 l4 : Nat) (dst : Bool) (addr port : Nat) : List Byte :=
  let udp := decide (ipProto f l3 = 17)
  let ao := if dst then l3 + 16 else l3 + 12
  let po := if dst then l4 + 2 else l4
  let oldA := slice f ao 4
  let oldP := slice f po 2
  let newA := beBytes 4 addr
  let newP := beBytes 2 port
  let co := l4 + (if udp then 6 else 16)
  let f := adjustAt (patch f ao newA) (l3 + 10) false oldA newA
  let f := adjustAt f co udp oldA newA
  adjustAt (patch f po newP) co udp oldP newP

/-- Apply a rewrite to a packet; one without the layers stays as it is. -/
def Packet.nat (p : Packet) (dst : Bool) (addr port : Nat) : Packet :=
  match p.slot 3, p.slot 4 with
  | some a, some b => { p with data := natWrite p.data a b dst addr port }
  | _, _ => p

/-- The rewrite a conntrack line holds (R251). -/
def Packet.natOf (p : Packet) (d5 : Nat) : Packet :=
  match d5 / 2 ^ 14 % 4 with
  | 1 => p.nat false (d5 / 2 ^ 32) (d5 / 2 ^ 16 % 65536)
  | 2 => p.nat true (d5 / 2 ^ 32) (d5 / 2 ^ 16 % 65536)
  | _ => p

/-! Tunnels (R252 to R255). -/

/-- The tunnel that begins after the outer IP header: TTYPE, its key field, and where its header ends. -/
def tunnelOf (f : List Byte) (l3 : Nat) : Option (Nat × Nat × Nat) :=
  let o := l3 + ipHlen f l3
  let proto := ipProto f l3
  let dport := beAt f (o + 2) 2
  let mpls := fun (n : Nat) => -- labels up to the bottom of the stack, at most 4
    let k := ((List.range 4).find? (fun i => decide (beAt f (n + 4 * i + 2) 1 % 2 = 1))).getD 3
    n + 4 * (k + 1)
  if proto = 17 ∧ dport = 4789 then some (1, beAt f (o + 12) 3, o + 16)
  else if proto = 17 ∧ dport = 6081 then some (2, beAt f (o + 12) 3, o + 16 + 4 * (beAt f (o + 8) 1 % 64))
  else if proto = 47 then
    let c := beAt f o 1
    let k := 4 * (c / 128 % 2)
    some (3, if c / 32 % 2 = 1 then beAt f (o + 4 + k) 4 else 0, o + 4 + k + 4 * (c / 32 % 2) + 4 * (c / 16 % 2))
  else if proto = 17 ∧ dport = 6635 then some (4, beAt f (o + 8) 3 / 16, mpls (o + 8))
  else if proto = 50 then some (5, 0, o + 8)
  else if proto = 4 ∨ proto = 41 then some (5, 0, o)
  else none

/-- KTYPE 3 (R232): the key of a tunnel termination; TENANCY 0. -/
def Packet.termKey (p : Packet) : Option (List Byte) :=
  (p.slot 3).bind (fun o =>
    (tunnelOf p.data o).map (fun t =>
      let v := ipVer p.data o
      let dst := if v = 4 then slice p.data (o + 16) 4 ++ List.replicate 12 0#8 else slice p.data (o + 24) 16
      fitTo 40 (leBytes 2 (3 * 4096) ++ leBytes 1 t.1 ++ leBytes 1 v ++ dst ++ beBytes 4 t.2.1)))

/-- ECN field of an IP header. -/
def ecnOf (f : List Byte) (o : Nat) : Nat := if ipVer f o = 4 then beAt f (o + 1) 1 % 4 else beAt f o 2 / 16 % 4
def dscpOf (f : List Byte) (o : Nat) : Nat := if ipVer f o = 4 then beAt f (o + 1) 1 / 4 else beAt f o 2 / 64 % 64

/-- Set the 8-bit traffic class of an IP header, the IPv4 checksum adjusted. -/
def setTos (f : List Byte) (o tos : Nat) : List Byte :=
  if ipVer f o = 4 then patchIp4 f o 0 (slice f o 1 ++ leBytes 1 tos)
  else patch f o (beBytes 2 (beAt f o 2 / 4096 * 4096 + tos % 256 * 16 + beAt f o 2 % 16))

/-- R255: DECAP refuses the tunnel header. -/
def decapBad (f : List Byte) (l3 ty : Nat) (inner : Option Nat) : Bool :=
  let o := l3 + ipHlen f l3 + 8
  let optBad := (List.range 64).foldl (fun (a : Nat × Bool) _ =>
    let stop := o + 8 + 4 * (beAt f o 1 % 64)
    if a.1 < stop then (a.1 + 4 + 4 * (beAt f (a.1 + 3) 1 % 32), a.2 || decide (128 ≤ beAt f (a.1 + 2) 1)) else a) (o + 8, false)
  (decide (ty = 1) && decide (beAt f o 1 / 8 % 2 = 0)) ||
    (decide (ty = 2) && (decide (beAt f o 1 / 64 ≠ 0) || optBad.2)) ||
    (decide (ecnOf f l3 = 3) && inner.elim false (fun i => decide (ecnOf f i = 0)))

/-- R254: the outer headers of a template, filled in for a frame of `inner` bytes behind them. -/
def outerHeaders (tmpl : List Byte) (payload : List Byte) (innerL3 : Option Nat) (inner : List Byte) (hash : Nat) : List Byte :=
  let h := leAt tmpl 0 1
  let ty := leAt tmpl 1 1
  let flags := leAt tmpl 2 1
  let bit := fun i => decide (flags / 2 ^ i % 2 = 1)
  let base := leAt tmpl 8 2
  let range := max 1 (leAt tmpl 10 2)
  let f := slice tmpl 12 h ++ payload
  let ip := (Net.l2 f).2
  let total := f.length - ip
  let ecn := innerL3.elim 0 (fun o => ecnOf inner o)
  let dscp := if bit 2 then innerL3.elim (dscpOf f ip) (fun o => dscpOf inner o) else dscpOf f ip
  let f := if bit 0 then
      let f := patch f (ip + 4) (beBytes 2 (total - 40))
      let f := if bit 3 then patch f ip (beBytes 4 (beAt f ip 4 / 2 ^ 20 * 2 ^ 20 + hash % 2 ^ 20)) else f
      setTos f ip (4 * dscp + ecn)
    else
      let f := patch (patch f (ip + 2) (beBytes 2 total)) (ip + 4) (beBytes 4 0x00004000)
      Net.insertL3 (patch f (ip + 1) (leBytes 1 (4 * dscp + ecn)))
  let f := if ty = 4 ∧ bit 4 then
      match innerL3 with
      | some o => patch f (h - 1) (slice inner (if ipVer inner o = 4 then o + 8 else o + 7) 1)
      | none => f
    else f
  let u := ip + ipHlen f ip
  if ty = 1 ∨ ty = 2 ∨ ty = 4 then
    let f := patch f u (beBytes 2 (base + hash % range))
    let f := patch (patch f (u + 4) (beBytes 2 (f.length - u))) (u + 6) [0, 0]
    if bit 0 ∨ bit 1 then Net.insertL4 f else f
  else f

end Sys2Proof.Machine
end

