-- ==== Sys2Proof/Machine/Ports.lean ====
section
/-! DEFINITION. Network ports, Dimming, port counters and the service bus (R171 to R194). Reception and
transmission of frames are in MacIo.lean. -/

namespace Sys2Proof.Machine

/-! Port modes (R171 to R174). -/

/-- Lanes of a port type (R172). -/
def typeLanes (c : Nat) : Nat :=
  match c with
  | 1 => 8
  | 2 => 4
  | 3 => 2
  | 4 => 1
  | 5 => 1
  | _ => 0

/-- Full rate of a port type, Gb/s. -/
def typeRate (c : Nat) : Nat :=
  match c with
  | 1 => 1600
  | 2 => 800
  | 3 => 400
  | 4 => 200
  | 5 => 100
  | _ => 0

/-- The nibble of a lane of a group (R173). -/
def modeNibble (w : Word) (j : Nat) : Nat := fld w (4 * j + 3) (4 * j)

/-- The type code of the port that starts at lane p under the applied modes; 0: none. -/
def Dev.portType (d : Dev) (p : Nat) : Nat :=
  let c := modeNibble (d.port.modes.getD (p / 8) 1#32) (p % 8)
  if c ≤ 5 ∧ p < 16 then c else 0

def Dev.portLanes (d : Dev) (p : Nat) : Nat := typeLanes (d.portType p)

/-- R173: the fields of a group are well formed, read from lane j with `cover` lanes of a port still to come. -/
def modeOk (w : Word) : Nat → Nat → Bool
  | 0, cover => decide (cover = 0)
  | n + 1, cover =>
    let j := 7 - n
    let c := modeNibble w j
    if 0 < cover then decide (c = 0) && modeOk w n (cover - 1)
    else if c = 0xF then modeOk w n 0
    else
      let k := typeLanes c
      decide (k ≠ 0) && decide (j % k = 0) && decide (j + k ≤ 8) && modeOk w n (k - 1)

/-- R173: the group's new modes pass every check. -/
def Dev.modeCheck (d : Dev) (g : Nat) (w : Word) : Bool :=
  modeOk w 8 0 && (List.range 8).all (fun j =>
    let p := 8 * g + j
    let new := if modeNibble w j ≤ 5 then modeNibble w j else 0
    decide (d.portType p = new) || !d.regBit (Reg.PORT_CFG p) 0)

def Dev.setTime (d : Dev) (x : TimePart) : Dev := { d with time := x }

/-! The Timetable, as far as a port's mode and Dimming meet it (R399, R402). -/

def Dev.tt (d : Dev) (p : Nat) : TimeTable := kvGet {} d.time.tts p
def Dev.setTt (d : Dev) (p : Nat) (x : TimeTable) : Dev := d.setTime { d.time with tts := kvSet {} p x d.time.tts }
def Dev.ttEn (d : Dev) (p : Nat) : Bool := d.regBit (Reg.TT_CTL p) 0

/-- R399: a port that is removed or changed loses its lists; a TT_LOAD that waits ends as ABORTED (log 43). -/
def Dev.ttDiscard (d : Dev) (p : Nat) : Dev :=
  let x := d.tt p
  let d := (d.setTt p {}).clrBit (Reg.TT_CTL p) 0
  match x.pend with
  | some (_, _, e) => d.admLate e 0x69 St.ABORTED 0 0
  | none => d

/-- A removed or changed port loses its counters and starts with EN 0 and its link down. -/
def Dev.portClear (d : Dev) (p : Nat) : Dev :=
  ((d.setNetPort p { txq := (d.netPort p).txq }).clrBit (Reg.PORT_CFG p) 0).ttDiscard p

/-- Apply the modes of one group. -/
def Dev.modeApply (d : Dev) (g : Nat) : Dev :=
  let w := d.reg (Reg.PORT_GRP_MODE g)
  let changed := (List.range 8).filter (fun j =>
    decide (d.portType (8 * g + j) ≠ (if modeNibble w j ≤ 5 then modeNibble w j else 0)))
  let d := changed.foldl (fun d j => d.portClear (8 * g + j)) d
  { d with port := { d.port with modes := d.port.modes.set g w } }

/-- PORT_APPLY (R173): the groups named are checked together, and applied together (DEDUCED, log 13). -/
def Dev.portApply (d : Dev) (pf : Nat) (v : Word) : Dev :=
  d.bar0Write pf Reg.PORT_APPLY fun d =>
    let gs := [0, 1].filter (bitOf v)
    if gs.all (fun g => d.modeCheck g (d.reg (Reg.PORT_GRP_MODE g))) then gs.foldl (fun d g => d.modeApply g) d
    else d.setBit Reg.PORT_GSTAT 0

/-! Links (R172, R176, R184). -/

/-- NET_LINK_UP: an enabled port trained, at full width. -/
def Dev.netLinkUp (d : Dev) (p : Nat) : Dev :=
  let x := d.netPort p
  if d.portType p = 0 ∨ !d.regBit (Reg.PORT_CFG p) 0 ∨ x.link then d
  else
    d.setNetPort p { x with link := true, localFault := false, remoteFault := false, lpiTx := false, lpiRx := false,
                            dim := { txW := d.portLanes p, rxW := d.portLanes p }, held := [], xoff := false }

/-- NET_LINK_DOWN: the transition is counted, with the onset of the faults that caused it. -/
def Dev.netLinkDown (d : Dev) (p : Nat) (loc rem : Bool) : Dev :=
  let x := d.netPort p
  let d := ((d.pcount p 42 (b2n x.link)).pcount p 43 (b2n (loc && !x.localFault))).pcount p 44 (b2n (rem && !x.remoteFault))
  d.setNetPort p { d.netPort p with link := false, localFault := loc, remoteFault := rem, dim := {}, held := [], xoff := false, lpiTx := false, lpiRx := false }

/-! Received flow control (R177). -/

/-- Which classes a received PAUSE (every class) or PFC (classes with their enable bit) frame holds or
releases, if its mode is enabled on the port. -/
def Dev.pauseRx (d : Dev) (p : Nat) (pfc : Bool) (en : Nat) (quanta : List Nat) : Dev :=
  let cfg := d.reg (Reg.PORT_CFG p)
  if !(if pfc then bitOf cfg 4 else bitOf cfg 5) then d
  else
    let x := d.netPort p
    let hit := fun c => !pfc || decide (en / 2 ^ c % 2 = 1)
    let q := fun c => if pfc then quanta.getD c 0 else quanta.getD 0 0
    d.setNetPort p { x with held := (List.range 8).filter (fun c =>
      if hit c then decide (q c ≠ 0) else x.held.contains c) }

/-- PAUSE_EXPIRE: the quanta of a held class run out. -/
def Dev.pauseExpire (d : Dev) (p c : Nat) : Dev :=
  let x := d.netPort p
  d.setNetPort p { x with held := x.held.filter (fun k => decide (k ≠ c)) }

/-- PAUSE_REFRESH: every 0x8000 quanta while use stays above XON. -/
def Dev.pauseRefresh (d : Dev) (p : Nat) : Dev :=
  let x := d.netPort p
  if x.xoff ∧ x.link ∧ d.regN (Reg.PORT_PFC_XON p) < (d.sq.pool p).used then d.pauseSend p 0xFFFF
  else d.pauseCheck p

/-! Dimming (R180 to R184). -/

/-- A Dimming frame without its FCS (R182). -/
def Dev.dimFrame (d : Dev) (p ty seq target reason : Nat) : List Byte :=
  fitTo 60 (beBytes 6 0x0180C200000E ++ beBytes 6 (d.portAddr p) ++ beBytes 2 0x88B6 ++ beBytes 2 0x5747 ++
    beBytes 1 1 ++ beBytes 1 ty ++ beBytes 2 seq ++ beBytes 1 (d.netPort p).dim.txW ++ beBytes 1 target ++
    beBytes 1 (d.portLanes p) ++ beBytes 1 reason)

/-- Send a Dimming frame. -/
def Dev.dimSend (d : Dev) (p ty seq target reason : Nat) : Dev :=
  let f := d.dimFrame p ty seq target reason
  ((d.emit (.frame p f false)).txCountOk p f 64).pcount p 78 1

def Dev.setDim (d : Dev) (p : Nat) (x : Dim) : Dev := d.setNetPort p { d.netPort p with dim := x }
def Dev.dim (d : Dev) (p : Nat) : Dim := (d.netPort p).dim

/-- R180: Dimming works on the port. -/
def Dev.dimOn (d : Dev) (p : Nat) : Bool :=
  d.regBit (Reg.PORT_CFG p) 7 && (d.netPort p).link && (d.dim p).wiwald && decide (2 ≤ d.portLanes p)

/-- Capacity at a width, bits in a time in ns (R180). -/
def Dev.capBits (d : Dev) (p w ns : Nat) : Nat := typeRate (d.portType p) * w / max 1 (d.portLanes p) * ns

/-- Bytes queued for transmission on a port. -/
def Dev.backlog (d : Dev) (p : Nat) : Nat :=
  sumNat ((d.netPort p).txq.map (fun t => (d.pkt t).elim 0 (fun k => k.data.length)))

/-- R181: the shed condition of this end. -/
def Dev.dimShed (d : Dev) (p : Nat) : Bool :=
  let x := d.dim p
  !d.ttEn p && decide (2 ≤ x.txW) && decide (d.regFld (Reg.PORT_DIM_CFG p) 31 16 ≤ x.dwell) &&
    decide (8 * d.backlog p < d.capBits p (x.txW / 2) 25000)

/-- R181: the restore condition of this end. -/
def Dev.dimOver (d : Dev) (p : Nat) : Bool :=
  let x := d.dim p
  x.above || decide (d.capBits p x.txW 25000 < 8 * d.backlog p) || !d.regBit (Reg.PORT_CFG p) 7

/-- Send RESTORE, if the port runs below full width and has none outstanding (R183). It withdraws a
PROPOSE (R184). -/
def Dev.dimRestore (d : Dev) (p : Nat) : Dev :=
  let x := d.dim p
  if x.rest.isSome ∨ d.portLanes p ≤ x.txW ∨ !(d.netPort p).link then d
  else
    let s := (x.seq + 1) % 65536
    (d.setDim p { x with seq := s, rest := some s, prop := none }).dimSend p 6 s (d.portLanes p) 0

/-- Both directions run at the agreed width: the step is complete and counted (R188). -/
def Dev.dimSettle (d : Dev) (p : Nat) : Dev :=
  let x := d.dim p
  match x.target with
  | some t =>
    if x.txW = t ∧ x.rxW = t then
      (d.setDim p { x with target := none, dwell := 0, above := false, rest := none }).pcount p
        (if t = d.portLanes p then 89 else 88) 1
    else d
  | none => d

/-- Send SWITCH as the last frame at the old width and move the transmitter (R183). -/
def Dev.dimMoveTx (d : Dev) (p seq t : Nat) : Dev :=
  let d := d.dimSend p 5 seq t 0
  (d.setDim p { d.dim p with txW := t, target := some t, prop := none, rest := none }).dimSettle p

/-- DIM_WINDOW (R181): `bits` is the larger of the transmitted and received bits of the window. -/
def Dev.dimWindow (d : Dev) (p bits : Nat) : Dev :=
  let x := d.dim p
  if !d.dimOn p then d
  else
    let cap := d.capBits p x.txW 100000
    let cfg := d.reg (Reg.PORT_DIM_CFG p)
    let low := decide (bits * 100 < fld cfg 6 0 * cap)
    let d := d.setDim p { x with dwell := if low then x.dwell + 1 else 0, above := decide (fld cfg 14 8 * cap < bits * 100) }
    if d.dimOver p then d.dimRestore p
    else
      let x := d.dim p
      if d.dimShed p ∧ x.prop = none ∧ x.rest = none ∧ x.target = none then
        let s := (x.seq + 1) % 65536
        (d.setDim p { x with seq := s, prop := some (s, x.txW / 2) }).dimSend p 2 s (x.txW / 2) 0
      else d

/-- DIM_CAP_SEND (R182). -/
def Dev.dimCapSend (d : Dev) (p : Nat) : Dev :=
  if d.regBit (Reg.PORT_CFG p) 7 ∧ (d.netPort p).link then d.dimSend p 1 0 0 0 else d

/-- A received CAP (R182). -/
def Dev.dimCapRx (d : Dev) (p full : Nat) : Dev :=
  if full = d.portLanes p then d.setDim p { d.dim p with wiwald := true } else d

/-- DIM_PARTNER_LOST (R182): back to full width at once. -/
def Dev.dimLost (d : Dev) (p : Nat) : Dev :=
  let w := if (d.netPort p).link then d.portLanes p else 0
  d.setDim p { seq := (d.dim p).seq, txW := w, rxW := w }

/-- A received PROPOSE (R183, R184): the proposal of the end with the lower address stands. -/
def Dev.dimProposeRx (d : Dev) (p src seq target full : Nat) : Dev :=
  let x := d.dim p
  let refuse := fun (d : Dev) r => d.dimSend p 4 seq target r
  if !(d.netPort p).link then d
  else if !d.regBit (Reg.PORT_CFG p) 7 then refuse d 2
  else if x.prop.isSome ∧ d.portAddr p < src then d
  else
    let d := d.setDim p { x with prop := none }
    if full ≠ d.portLanes p ∨ target = 0 ∨ target * 2 ≠ x.txW then refuse d 4
    else if d.dimOver p then (refuse d 3).dimRestore p
    else if !d.dimShed p ∨ x.rest.isSome ∨ x.target.isSome then refuse d 1
    else (d.dimSend p 3 seq target 0).dimMoveTx p seq target

/-- A received ACCEPT (R183). -/
def Dev.dimAcceptRx (d : Dev) (p seq : Nat) : Dev :=
  match (d.dim p).prop with
  | some (s, t) => if s = seq then d.dimMoveTx p seq t else d
  | none => d

/-- The proposer starts its dwell again: refused or unanswered (R183). -/
def Dev.dimAgain (d : Dev) (p : Nat) : Dev :=
  (d.setDim p { d.dim p with prop := none, dwell := 0 }).pcount p 90 1

def Dev.dimRefuseRx (d : Dev) (p seq : Nat) : Dev :=
  match (d.dim p).prop with
  | some (s, _) => if s = seq then d.dimAgain p else d
  | none => d

/-- A received SWITCH (R183): the receiver moves to the new lane set. -/
def Dev.dimSwitchRx (d : Dev) (p t : Nat) : Dev :=
  let x := d.dim p
  if x.target = some t then (d.setDim p { x with rxW := t }).dimSettle p else d

/-- A received RESTORE (R183): it cannot be refused; it withdraws a PROPOSE (R184). -/
def Dev.dimRestoreRx (d : Dev) (p seq : Nat) : Dev :=
  if !(d.netPort p).link then d
  else
    let d := d.setDim p { d.dim p with prop := none }
    (d.dimSend p 7 seq (d.portLanes p) 0).dimMoveTx p seq (d.portLanes p)

/-- A received RESTORE_ACK (R183). -/
def Dev.dimRestoreAckRx (d : Dev) (p seq : Nat) : Dev :=
  if (d.dim p).rest = some seq then d.dimMoveTx p seq (d.portLanes p) else d

def Dev.dimProposeTimeout (d : Dev) (p : Nat) : Dev := if (d.dim p).prop.isSome then d.dimAgain p else d

/-- DIM_ALIGN_TIMEOUT (R184): the link goes down and retrains at full width. -/
def Dev.dimAlignTimeout (d : Dev) (p : Nat) : Dev :=
  if (d.dim p).target.isSome then d.netLinkDown p true false else d

/-- A Dimming frame as received by the MAC, by TYPE (R182). -/
def Dev.dimRx (d : Dev) (p : Nat) (f : List Byte) : Dev :=
  let src := beAt f 6 6
  let seq := beAt f 18 2
  let target := beAt f 21 1
  let full := beAt f 22 1
  match beAt f 17 1 with
  | 1 => d.dimCapRx p full
  | 2 => d.dimProposeRx p src seq target full
  | 3 => d.dimAcceptRx p seq
  | 4 => d.dimRefuseRx p seq
  | 5 => d.dimSwitchRx p target
  | 6 => d.dimRestoreRx p seq
  | 7 => d.dimRestoreAckRx p seq
  | _ => d

/-- Count a received frame of length n (with FCS) in the per-kind receive counters of an OK frame (R179,
R188). `f` is the frame without FCS. -/
def Dev.rxCountOk (d : Dev) (p : Nat) (f : List Byte) (n : Nat) : Dev :=
  ((((d.pcount p 0 1).pcount p 1 n).pcount p (2 + castKind f) 1).pcount p (24 + sizeBin n) 1).pcount p 34 (b2n (isVlan f))

/-- A Dimming frame with these fields arrives on a port whose link is up: counted and acted on. -/
def Dev.dimArrive (d : Dev) (p ty src seq target full reason : Nat) : Dev :=
  if !(d.netPort p).link then d
  else
    let f := fitTo 60 (beBytes 6 0x0180C200000E ++ beBytes 6 src ++ beBytes 2 0x88B6 ++ beBytes 2 0x5747 ++ beBytes 1 1 ++
      beBytes 1 ty ++ beBytes 2 seq ++ beBytes 1 0 ++ beBytes 1 target ++ beBytes 1 full ++ beBytes 1 reason)
    ((d.rxCountOk p f 64).pcount p 35 1).dimRx p f

/-! Port counters (R17, R188, R189). -/

/-- PORT_CNT_SNAP: what the read returns. -/
def Dev.portSnap (d : Dev) (pf p : Nat) : Dev :=
  d.bar0Read pf (Reg.PORT_CNT_SNAP p) fun d =>
    let x := d.netPort p
    if x.reading then (d, packW [(1, 31), (x.snapSeq, 0)])
    else
      let s := (x.snapSeq + 1) % 65536
      (d.setNetPort p { x with bank := x.counters, counters := [], reading := true, snapSeq := s }, packW [(s, 0)])

/-- PORT_CNT_REL. -/
def Dev.portRel (d : Dev) (pf p : Nat) (v : Word) : Dev :=
  d.bar0Write pf (Reg.PORT_CNT_REL p) fun d =>
    if bitOf v 0 then d.setNetPort p { d.netPort p with reading := false } else d

/-! The service bus (R190 to R193). -/

def Dev.setSvb (d : Dev) (x : Svb) : Dev := { d with port := { d.port with svb := x } }

/-- Queue a frame of the management controller; a full queue drops it (R191). -/
def Dev.svbQueue (d : Dev) (f : List Byte) : Dev :=
  let x := d.port.svb
  if 16 ≤ x.txq.length then d.count Reg.SVB_TX_DROP else d.setSvb { x with txq := x.txq ++ [(f, none)] }

/-- The head of the queue meets n collisions and is then sent, or is dropped after 16 (R191). A beacon or a
bus heard makes the link up. -/
def Dev.svbTx (d : Dev) (collisions : Nat) : Dev :=
  let x := d.port.svb
  match x.txq with
  | [] => d
  | (f, cmd) :: r =>
    if !d.regBit Reg.SVB_CFG 0 then d
    else
      let d := (d.countN Reg.SVB_COLL (min collisions 16)).setSvb { x with txq := r, link := true }
      let d := if 16 ≤ collisions then d.count Reg.SVB_TX_DROP else (d.count Reg.SVB_TX_OK).emit (.svbFrame f)
      cmd.elim d (fun e => d.admLate e 0x88 0 0 0)

/-- A frame of the service bus: counted by its FCS (R191, R193). Answers whether it is given to the management controller. -/
def Dev.svbRx (d : Dev) (f : List Byte) (good : Bool) : Bool × Dev :=
  if !d.regBit Reg.SVB_CFG 0 then (false, d)
  else if !good ∨ f.length < 60 ∨ 1514 < f.length then (false, d.count Reg.SVB_FCS_ERR)
  else (true, (d.count Reg.SVB_RX_OK).setSvb { d.port.svb with link := true })

/-- SVB_BEACON_LOSS (R192). -/
def Dev.svbBeaconLoss (d : Dev) : Dev :=
  let x := d.port.svb
  if x.plcaActive then (d.setSvb { x with plcaActive := false }).count Reg.SVB_PLCA_FALLBACK else d

/-- MDIO (R190, R193): a write of GO to SVB_MDIO_CMD starts an access to the PHY; while one is under way it starts none. -/
def Dev.mdioStart (d : Dev) (read : Bool) (phy reg data : Nat) : Dev :=
  if d.port.svb.mdio.isSome then d
  else
    let v := packW [(1, 31), (b2n read, 30), (phy % 32, 21), (reg % 32, 16), (data % 65536, 0)]
    ((d.setReg Reg.SVB_MDIO_CMD v).setSvb { d.port.svb with mdio := some (read, phy % 32, reg % 32, data % 65536) }).emit
      (.message 0x193 (phy % 32) (leBytes 2 (reg % 32) ++ leBytes 2 (if read then 0 else data)))

def Dev.mdio (d : Dev) (pf : Nat) (read : Bool) (phy reg data : Nat) : Dev :=
  d.bar0Write pf Reg.SVB_MDIO_CMD fun d => d.mdioStart read phy reg data

/-- MDIO_COMPLETE: GO clears, and a read brings its data. -/
def Dev.mdioDone (d : Dev) (data : Nat) : Dev :=
  match d.port.svb.mdio with
  | none => d
  | some (read, phy, reg, old) =>
    (d.setReg Reg.SVB_MDIO_CMD (packW [(b2n read, 30), (phy, 21), (reg, 16), ((if read then data else old) % 65536, 0)])).setSvb
      { d.port.svb with mdio := none }

/-- SVB_BEACON_RETURN (R192). -/
def Dev.svbBeaconReturn (d : Dev) : Dev :=
  let plca := d.regBit Reg.SVB_CFG 0 && d.regBit Reg.SVB_CFG 1 && decide (d.regFld Reg.SVB_PLCA 7 0 ≠ 0xFF)
  if plca then d.setSvb { d.port.svb with plcaActive := true, link := true } else d

/-! LPI (R185). -/

/-- LPI_CAP: the clause of the port type defines LPI. -/
def Dev.lpiCap (d : Dev) (p : Nat) : Bool := Config.lpiCap (d.portType p) (d.regBit (Reg.PORT_CFG p) 1)

def Dev.lpiUse (d : Dev) (p : Nat) : Bool :=
  let x := d.netPort p
  x.link && !x.dim.wiwald && d.regBit (Reg.PORT_CFG p) 6 && d.lpiCap p

/-- LPI_ENTRY: transmit entries are counted. -/
def Dev.lpiEntry (d : Dev) (p : Nat) (tx : Bool) : Dev :=
  let x := d.netPort p
  if !d.lpiUse p then d
  else if tx then (d.setNetPort p { x with lpiTx := true }).pcount p 81 (b2n (!x.lpiTx)) else d.setNetPort p { x with lpiRx := true }

def Dev.lpiExit (d : Dev) (p : Nat) (tx : Bool) : Dev :=
  let x := d.netPort p
  d.setNetPort p (if tx then { x with lpiTx := false } else { x with lpiRx := false })

/-! The commands. -/

def execPortApply (pf : Nat) (value : Word) (s : State) := s.run (·.portApply pf value)
def execNetLinkUp (p : Nat) (s : State) := s.run (·.netLinkUp p)
def execNetLinkDown (p : Nat) (localFault remoteFault : Bool) (s : State) := s.run (·.netLinkDown p localFault remoteFault)
def execPauseExpire (p cls : Nat) (s : State) := s.run (·.pauseExpire p cls)
def execPauseRefresh (p : Nat) (s : State) := s.run (·.pauseRefresh p)
def execDimWindow (p bits : Nat) (s : State) := s.run (·.dimWindow p bits)
def execDimCapSend (p : Nat) (s : State) := s.run (·.dimCapSend p)
def execDimCapRx (p src full : Nat) (s : State) := s.run (·.dimArrive p 1 src 0 0 full 0)
def execDimPartnerLost (p : Nat) (s : State) := s.run (·.dimLost p)
def execDimProposeRx (p src seq target full : Nat) (s : State) := s.run (·.dimArrive p 2 src seq target full 0)
def execDimAcceptRx (p src seq target full : Nat) (s : State) := s.run (·.dimArrive p 3 src seq target full 0)
def execDimRefuseRx (p src seq target full reason : Nat) (s : State) := s.run (·.dimArrive p 4 src seq target full reason)
def execDimSwitchRx (p src seq target full : Nat) (s : State) := s.run (·.dimArrive p 5 src seq target full 0)
def execDimRestoreRx (p src seq full : Nat) (s : State) := s.run (·.dimArrive p 6 src seq full full 0)
def execDimRestoreAckRx (p src seq full : Nat) (s : State) := s.run (·.dimArrive p 7 src seq full full 0)
def execDimProposeTimeout (p : Nat) (s : State) := s.run (·.dimProposeTimeout p)
def execDimAlignTimeout (p : Nat) (s : State) := s.run (·.dimAlignTimeout p)
def execPortCntSnap (pf p : Nat) (s : State) := s.run (·.portSnap pf p)
def execPortCntRel (pf p : Nat) (value : Word) (s : State) := s.run (·.portRel pf p value)
def execSvbTxFrame (collisions : Nat) (s : State) := s.runAon (·.svbTx collisions)
def execSvbBeaconLoss (s : State) := s.runAon (·.svbBeaconLoss)
def execMdioRead (pf phy reg : Nat) (s : State) := s.run (·.mdio pf true phy reg 0)
def execMdioWrite (pf phy reg data : Nat) (s : State) := s.run (·.mdio pf false phy reg data)
def execMdioComplete (phyData : Nat) (s : State) := s.runAon (·.mdioDone phyData)
def execSvbBeaconReturn (s : State) := s.runAon (·.svbBeaconReturn)
def execLpiEntry (p : Nat) (tx : Bool) (s : State) := s.run (·.lpiEntry p tx)
def execLpiExit (p : Nat) (tx : Bool) (s : State) := s.run (·.lpiExit p tx)

end Sys2Proof.Machine
end

