-- ==== Sys2Proof/Machine/StoBase.lean ====
section
/-! DEFINITION. The context engine: contexts, buffers, the frames it builds, rate control, memory regions
(R290 to R293, R299, R301, R302). -/

namespace Sys2Proof.Machine

/-! Contexts. -/

def Dev.qp (d : Dev) (c : Nat) : Option Qp :=
  match (d.sto? c).map StoCtx.k with
  | some (.qp q) => some q
  | _ => none
def Dev.tcp (d : Dev) (c : Nat) : Option Tcp :=
  match (d.sto? c).map StoCtx.k with
  | some (.tcp q) => some q
  | _ => none
def Dev.nvmf (d : Dev) (c : Nat) : Option Nvmf :=
  match (d.sto? c).map StoCtx.k with
  | some (.nvmf q) => some q
  | _ => none

def Dev.stoTen (d : Dev) (c : Nat) : Nat := ((d.sto? c).map (·.ten)).getD 0
def Dev.stoGen (d : Dev) (c : Nat) : Word := (d.tenGet (d.stoTen c)).gen

def Dev.setQp (d : Dev) (c : Nat) (q : Qp) : Dev := d.setSto c { ten := d.stoTen c, k := .qp q }
def Dev.setTcp (d : Dev) (c : Nat) (q : Tcp) : Dev := d.setSto c { ten := d.stoTen c, k := .tcp q }
def Dev.setNvmf (d : Dev) (c : Nat) (q : Nvmf) : Dev := d.setSto c { ten := d.stoTen c, k := .nvmf q }

/-- R303: the NVMF context that runs over a transport context. -/
def Dev.nvmfOver (d : Dev) (c : Nat) : Option Nat :=
  (d.sto.ctxs.find? (fun x => match x.2.k with
    | .nvmf n => decide (n.link = c)
    | _ => false)).map (·.1)

/-! Local buffers of a job (R296). -/

/-- Where bytes at an offset of a gather list lie. -/
def segsAt : List (Nat × Nat) → Nat → List Byte → List (Nat × List Byte)
  | [], _, _ => []
  | (a, n) :: r, off, b =>
    if b.isEmpty then []
    else if n ≤ off then segsAt r (off - n) b
    else (a + off, b.take (n - off)) :: segsAt r 0 (b.drop (n - off))

def Job.segs (j : Job) : List (Nat × Nat) := j.entries.map (fun e => (e.addr, e.len))

/-- Place bytes at an offset of a job's buffer. -/
def Dev.jobPlace (d : Dev) (q pos off : Nat) (b : List Byte) : Dev :=
  match d.jobFind q pos with
  | none => d
  | some j => (segsAt j.segs off b).foldl (fun d s => d.jobDeliver j s.1 s.2 j.firstE.ro) d

/-- End a job of this chapter (R298). -/
def Dev.stoEnd (d : Dev) (q pos ctx st det len : Nat) (d2 : Dword) : Dev :=
  d.jobEnd q pos { status := st, detail := det, len := len, d2 := d2, d3 := ctx }

/-! Frames the engine builds (R292). -/

/-- ::ffff:a.b.c.d -/
def isV4 (a : List Byte) : Bool := decide (a.take 12 = List.replicate 10 0#8 ++ [0xFF#8, 0xFF#8])

/-- An IP frame, its MAC addresses 0 until the action list writes them (log 36). -/
def ipFrame (src dst : List Byte) (proto dscp ecn : Nat) (l4 : List Byte) : List Byte :=
  let tos := 4 * dscp + ecn
  if isV4 dst then
    Net.insertL3 (List.replicate 12 0#8 ++ beBytes 2 0x0800 ++ beBytes 1 0x45 ++ beBytes 1 tos ++ beBytes 2 (20 + l4.length) ++ beBytes 2 0 ++
      beBytes 2 0x4000 ++ beBytes 1 64 ++ beBytes 1 proto ++ [0, 0] ++ src.drop 12 ++ dst.drop 12 ++ l4)
  else
    List.replicate 12 0#8 ++ beBytes 2 0x86DD ++ beBytes 4 (6 * 2 ^ 28 + tos * 2 ^ 20) ++ beBytes 2 l4.length ++ beBytes 1 proto ++ beBytes 1 64 ++ src ++ dst ++ l4

/-- R201: header places of a frame the device built: L2, L3, L4. -/
def builtSlots (f : List Byte) : List (Option Nat) :=
  let h := Net.l3 f
  [some 0, none, if h.ver = 0 then none else some h.off, if h.ver = 0 then none else some (h.off + h.hlen), none, none, none, none]

/-- A frame enters forwarding at an action list, charged to pool 18 (R26, R226); without a cell it is lost. -/
def Dev.ctxFrame (d : Dev) (c t action : Nat) (f : List Byte) : Dev :=
  let cls : Cls := { source := 0x60, av := true, action := action, tv := true, ten := t, slots := builtSlots f, bytes := f.length }
  match d.sq.store { pool := 18, cells := 0, data := f, stage := .classified, cls := cls, tenV := true, ten := t
                     gen := (d.tenGet t).gen, clsOpen := d.shutOpen t, port := 18, ctx := some c } with
  | some (_, q) => d.setSquare q
  | none => d

/-! Rate control (R301, R302). -/

/-- R and T start at the context's maximum, once it is known. -/
def Dev.rateInit (d : Dev) (x : Rate) : Rate :=
  if x.r.isSome then x
  else if x.max ≠ 0 then { x with r := some (100 * x.max), t := 100 * x.max }
  else
    match x.port with
    | some p => { x with r := some (1000 * typeRate (d.portType p)), t := 1000 * typeRate (d.portType p) }
    | none => x

def Dev.rateTop (d : Dev) (x : Rate) : Nat :=
  if x.max ≠ 0 then 100 * x.max else x.port.elim 0 (fun p => 1000 * typeRate (d.portType p))

def Dev.rcMin (d : Dev) : Nat := 100 * d.regFld Reg.STO_RC_MIN 15 0

/-- A CNP with F. -/
def Dev.rateCut (d : Dev) (x : Rate) (f : Nat) : Rate :=
  let x := d.rateInit x
  let react := 1000 * d.regFld Reg.STO_RC_TIME 15 8
  match x.r with
  | none => x
  | some r =>
    if x.lastCut.elim false (fun t => decide (d.nowNs < t + react)) then x
    else { x with t := r, r := some (max d.rcMin (r - r * f / 512)), stage := 0, lastCut := some d.nowNs }

/-- The increase timer. -/
def Dev.rateRaise (d : Dev) (x : Rate) : Rate :=
  match x.r with
  | none => x
  | some r =>
    let s := x.stage + 1
    let top := d.rateTop x
    let t := if 15 < s then min top (x.t + 100 * d.regFld Reg.STO_RC_STEP 31 16)
      else if 5 < s then min top (x.t + 100 * d.regFld Reg.STO_RC_STEP 15 0) else x.t
    { x with stage := s, t := t, r := some ((r + t) / 2) }

/-- One nanosecond of tokens: R Mb/s brings R eighth-thousandths of a byte; the bucket holds the larger of 4 KiB and 1 µs at R. -/
def Rate.fill (x : Rate) : Rate :=
  match x.r with
  | none => x
  | some r => { x with bucket := min (x.bucket + r) (if 32768 < r then 1000 * (r : Int) else 32768000) }

/-- The pacer lets a packet go: no rate is set yet, or the bucket is not empty. -/
def Rate.open_ (x : Rate) : Bool := x.r.isNone || decide (0 < x.bucket)
def Rate.spend (x : Rate) (bytes : Nat) : Rate := if x.r.isNone then x else { x with bucket := x.bucket - 8000 * bytes }

/-! Memory regions (R291, R299). -/

/-- The MR a remote key names for a tenancy, if the access is allowed. -/
def Dev.mrCheck (d : Dev) (t rkey addr len : Nat) (write : Bool) : Option Mr :=
  match (d.sto? (rkey / 256 % 2 ^ 20)).filter (fun x => decide (x.ten = t)) |>.map StoCtx.k with
  | some (.mr m) =>
    if m.key = rkey % 256 ∧ m.base ≤ addr ∧ addr + len ≤ m.base + m.length ∧ (if write then m.remoteWrite else m.remoteRead) then some m else none
  | _ => none

/-- Bytes a remote peer writes to an MR. -/
def Dev.mrWrite (d : Dev) (t : Nat) (gen : Word) (m : Mr) (addr : Nat) (b : List Byte) : Dev :=
  if m.hbm then (if d.shutPass t gen then d.hbmWrite addr b else d.discard t) else (d.tenWrite t gen addr b false).tollAdd t gen 0 b.length

/-! Data of an NVMe/RDMA command (R303): the initiator's key is its context and the address names the command (log 39). -/

def Dev.nvAt (d : Dev) (t rkey addr : Nat) : Option (Nat × Nvmf × BlkCmd) :=
  let c := rkey / 256 % 2 ^ 20
  if d.stoTen c ≠ t ∨ rkey % 256 ≠ 0 then none
  else (d.nvmf c).bind (fun n => if n.rdma && !n.target then (kvFind (addr / 2 ^ 32) n.cmds).map (fun b => (c, n, b)) else none)

def Dev.nvRead (d : Dev) (t rkey addr len : Nat) : Option (List Byte) :=
  (d.nvAt t rkey addr).bind (fun x => if addr % 2 ^ 32 + len ≤ x.2.2.data.length then some (slice x.2.2.data (addr % 2 ^ 32) len) else none)

def Dev.nvWrite (d : Dev) (t rkey addr : Nat) (b : List Byte) : Option Dev :=
  (d.nvAt t rkey addr).bind (fun x =>
    let (c, n, cmd) := x
    if addr % 2 ^ 32 + b.length ≤ cmd.len then
      some (d.setNvmf c { n with cmds := kvPut (addr / 2 ^ 32) { cmd with got := patch cmd.got (addr % 2 ^ 32) b } n.cmds })
    else none)

end Sys2Proof.Machine
end

