-- ==== Sys2Proof/Machine/Roce.lean ====
section
/-! DEFINITION. RoCEv2 queue pairs (R294 to R301). -/

namespace Sys2Proof.Machine

def psnAdd (a n : Nat) : Nat := (a + n) % 2 ^ 24
/-- Distance forward from PSN a to PSN b. -/
def psnDist (a b : Nat) : Nat := (b % 2 ^ 24 + 2 ^ 24 - a % 2 ^ 24) % 2 ^ 24
/-- PSN a lies before b. -/
def psnBefore (a b : Nat) : Bool := decide (0 < psnDist a b ∧ psnDist a b < 2 ^ 23)

def Qp.mtu (q : Qp) : Nat := 128 * 2 ^ q.pmtu

/-- PSNs a message of n bytes takes. -/
def Qp.psns (q : Qp) (n : Nat) : Nat := max 1 ((n + q.mtu - 1) / q.mtu)

/-- A base transport header. -/
def bth (op : Nat) (se ackReq : Bool) (pad qpn psn : Nat) : List Byte :=
  beBytes 1 op ++ beBytes 1 (128 * b2n se + 16 * pad) ++ beBytes 2 0xFFFF ++ beBytes 1 0 ++ beBytes 3 qpn ++
    beBytes 4 (2 ^ 31 * b2n ackReq + psn)

/-- The ICRC over a frame from its IP header on, its variable fields taken as ones (R294; format log 36). -/
def icrc (f : List Byte) : List Byte :=
  let h := Net.l3 f
  let o := h.off
  let ones := fun (l : List Byte) (a n : Nat) => patch l a (List.replicate n 0xFF#8)
  let f := if h.ver = 4 then ones (ones (ones f (o + 1) 1) (o + 8) 1) (o + 10) 2
    else patch (ones (ones f (o + 1) 3) (o + 7) 1) o [(slice f o 1).headD 0 ||| 0x0F#8]
  let u := o + h.hlen
  Net.fcs (List.replicate 8 0xFF#8 ++ (ones (ones f (u + 6) 2) (u + 12) 1).drop o)

/-- Send a packet from its BTH on. -/
def Dev.roceSend (d : Dev) (c : Nat) (q : Qp) (dscp : Nat) (pkt : List Byte) : Dev :=
  let n := pkt.length + 4
  let udp := beBytes 2 q.sport ++ beBytes 2 4791 ++ beBytes 2 (8 + n) ++ [0, 0]
  let ecn := if q.ecn then 2 else 0
  let f0 := ipFrame q.src q.dst 17 dscp ecn (udp ++ pkt ++ List.replicate 4 0#8)
  let f := f0.take (f0.length - 4)
  d.ctxFrame c (d.stoTen c) q.action (f ++ icrc f)

/-! Errors (R295). -/

/-- End the entry of the QP's work with REMOTE and a detail. -/
def Dev.wqeFail (d : Dev) (c : Nat) (w : Wqe) (det : Nat) : Dev :=
  if w.nv.isSome then d else d.stoEnd w.sq w.pos c St.REMOTE det 0 0

/-- Every started entry of the QP that has not ended completes FLUSHED. -/
def Dev.qpFlush (d : Dev) (c : Nat) (q : Qp) : Dev :=
  let t := d.stoTen c
  let d := q.work.foldl (fun d w => d.wqeFail c w 8) d
  let d := q.rx.foldl (fun d m => m.buf.elim d (fun b => d.stoEnd b.1 b.2 c St.REMOTE 8 0 0)) d
  (d.ring.jobs.filter (fun j => decide (j.ten = t ∧ 0x10 ≤ j.opc ∧ j.opc ≤ 0x12 ∧ fld j.firstE.d3 19 0 = c) && j.res.isNone)).foldl
    (fun d j => d.stoEnd j.sq j.pos c St.REMOTE 8 0 0) d

/-- The QP enters ERROR: the first entry of its work fails with the detail that caused it, if one did. -/
def Dev.qpError (d : Dev) (c det : Nat) (first : Bool) : Dev :=
  match d.qp c with
  | none => d
  | some q =>
    if q.state = 4 then d
    else
      let d := match q.work with
        | w :: _ => if first then d.wqeFail c w det else d
        | [] => d
      let d := (d.qpFlush c q).setQp c { q with state := 4, work := [], sendQ := [], rx := [], reads := [], rnrWait := false }
      d.tenEvent (d.stoTen c) { type := 0x130, p1 := c, p2 := det }

/-! Requester (R296, R300). -/

/-- The packets of an entry whose bytes are at hand. -/
def Qp.build (q : Qp) (w : Wqe) (data : List Byte) (e : SqEntry) : List TxPkt :=
  let n := q.psns data.length
  let imm := (decide (w.nv.isNone)) && bitOf e.d4 32 && decide (w.op ≠ 0x12)
  let addr := if w.nv.isSome then w.raddr else e.d5.toNat
  let key := if w.nv.isSome then w.rkey else fld e.d6 31 0
  let se := w.nv.isSome || bitOf e.d4 33
  let reth := beBytes 8 addr ++ beBytes 4 key ++ beBytes 4 (if w.op = 0x12 then (if w.nv.isSome then w.rlen else w.n) else data.length)
  if w.op = 0x12 then [{ psn := q.snd, data := bth 0x0C false true 0 q.remote q.snd ++ reth }]
  else
    (List.range n).map (fun i =>
      let part := (data.drop (i * q.mtu)).take q.mtu
      let first := decide (i = 0)
      let last := decide (i + 1 = n)
      let base := if w.op = 0x11 then 6 else 0
      let code := if first && last then (if imm then base + 5 else base + 4)
        else if first then base else if last then (if imm then base + 3 else base + 2) else base + 1
      let pad := (4 - part.length % 4) % 4
      let psn := psnAdd q.snd i
      { psn := psn
        data := bth code (last && se && decide (w.op = 0x10)) last pad q.remote psn ++ (if first && decide (w.op = 0x11) then reth else []) ++
          (if last && imm then beBytes 4 (fld e.d4 31 0) else []) ++ part ++ List.replicate pad 0#8 })

/-- Entries of the work whose bytes have come take their PSNs in order; a READ waits while RD_ATOM are out. -/
def Dev.qpBuild (d : Dev) (q : Qp) : Nat → Qp
  | 0 => q
  | fuel + 1 =>
    match q.work.find? (fun w => w.psn.isNone) with
    | none => q
    | some w =>
      let j := if w.nv.isSome then none else d.jobFind w.sq w.pos
      let e := (j.map (·.firstE)).getD default
      let total := (j.map (·.total)).getD 0
      let reading := (q.work.filter (fun x => x.psn.isSome && decide (x.op = 0x12))).length
      let ready := if w.op = 0x12 then decide (reading < q.rdAtom) else w.nv.isSome || j.elim false (fun j => j.reading && decide (j.need = 0))
      if !ready then q
      else
        let data := if w.nv.isSome then w.data else (j.map (fun j => j.got.flatMap (·.2))).getD []
        let len := if w.op = 0x12 then (if w.nv.isSome then w.rlen else total) else data.length
        let pk := q.build { w with n := len } data e
        let n := q.psns len
        let w' := { w with psn := some q.snd, n := n, data := [] }
        let work := q.work.map (fun x => if x = w then w' else x)
        d.qpBuild { q with work := work, snd := psnAdd q.snd n, sendQ := q.sendQ ++ pk } fuel

/-- The pacer sends what is due, in order (R301). -/
def Dev.qpSend (d : Dev) (c : Nat) : Nat → Dev
  | 0 => d
  | fuel + 1 =>
    match d.qp c with
    | none => d
    | some q =>
      match q.sendQ.find? (fun p => p.due && (p.resp || (decide (q.state = 3) && !q.rnrWait))) with
      | none => d
      | some p =>
        let rate := d.rateInit q.rate
        if !rate.open_ then d.setQp c { q with rate := rate }
        else
          let again := decide (0 < p.sends)
          let p' := { p with sends := p.sends + 1, due := false }
          let keep := if p.resp then q.sendQ.filter (fun x => decide (x ≠ p)) else q.sendQ.map (fun x => if x = p then p' else x)
          let d := d.setQp c { q with sendQ := keep, rate := rate.spend (p.data.length + 66), retx := q.retx + b2n again }
          let d := d.countN Reg.STO_RETX_PKTS (b2n again)
          (d.roceSend c q q.dscp p.data).qpSend c fuel

/-! Responder: READs (R293, R299). -/

/-- Serve one READ: from HBM at once, from the host by a read of the engine. -/
def Dev.serveRead (d : Dev) (t : Nat) (r : RespRead) : Dev × RespRead :=
  if r.eng.isSome ∨ r.data.isSome then (d, r)
  else if (d.nvRead t r.rkey r.addr r.len).isSome then (d, { r with data := d.nvRead t r.rkey r.addr r.len })
  else
    match d.mrCheck t r.rkey r.addr r.len false with
    | none => (d, { r with data := some [] })
    | some m =>
      if m.hbm then (d, { r with data := some (d.hbm.bytes r.addr r.len) })
      else
        let (id, d) := d.engRead t (d.tenGet t).gen r.addr r.len
        (d, { r with eng := some id })

/-- Serve the first n READs. -/
def Dev.serveReads (d : Dev) (t : Nat) : List RespRead → Nat → Dev × List RespRead
  | [], _ => (d, [])
  | l, 0 => (d, l)
  | r :: rs, n + 1 =>
    let (d, r) := d.serveRead t r
    let (d, rs) := d.serveReads t rs n
    (d, r :: rs)

/-- Start the READs that RESP_RES allows, and queue the responses of the first whose bytes have come. -/
def Dev.qpReads (d : Dev) (c : Nat) (q : Qp) : Dev × Qp :=
  let t := d.stoTen c
  let (d, served) := d.serveReads t q.reads q.respRes
  let done : List RespRead := served.map (fun (r : RespRead) => match r.eng with
    | some id =>
      let x : EngRead := d.engGet id
      if x.need = 0 ∧ r.data.isNone then { r with data := some (if x.err.isSome then [] else x.got.flatMap Prod.snd) } else r
    | none => r)
  match done with
  | r :: rest =>
    match r.data with
    | none => (d, { q with reads := done })
    | some b =>
      let d := r.eng.elim d (fun id => { d with hif := { d.hif with eng := kvDel id d.hif.eng } })
      if b.length < r.len then
        -- the bytes cannot be read any more: the access is refused
        let nak := bth 0x11 false false 0 q.remote r.psn ++ beBytes 1 0x62 ++ beBytes 3 q.msn
        ((d.count Reg.STO_NAK_TX).roceSend c q q.dscp nak, { q with reads := rest, naks := q.naks + 1 })
      else
        let n := q.psns r.len
        let pk := (List.range n).map (fun i =>
          let part := (b.drop (i * q.mtu)).take q.mtu
          let first := decide (i = 0)
          let last := decide (i + 1 = n)
          let code := if first && last then 0x10 else if first then 0x0D else if last then 0x0F else 0x0E
          let pad := (4 - part.length % 4) % 4
          ({ psn := psnAdd r.psn i, resp := true
             data := bth code false false pad q.remote (psnAdd r.psn i) ++
               (if first || last then beBytes 1 0x1F ++ beBytes 3 q.msn else []) ++ part ++ List.replicate pad 0#8 } : TxPkt))
        (d, { q with reads := rest, sendQ := q.sendQ ++ pk })
  | [] => (d, { q with reads := [] })

/-- What a QP does by itself: entries build, READs are answered, packets leave. -/
def Dev.qpRun (d : Dev) (c : Nat) : Dev :=
  match d.qp c with
  | none => d
  | some q =>
    if q.state = 4 then d
    else
      let (d, q) := d.qpReads c q
      let q := if q.state = 3 then d.qpBuild q 65 else q
      (d.setQp c q).qpSend c (q.sendQ.length + 1)

/-! Acknowledgement of requests (R300). -/

def Dev.qpAck (d : Dev) (c : Nat) : Dev :=
  match d.qp c with
  | none => d
  | some q =>
    let psn := psnAdd q.rcv (2 ^ 24 - 1)
    let map := (List.range 32).map (fun k => BitVec.ofNat 8 (sumNat ((List.range 8).map (fun b =>
      if q.seen.contains (psnAdd q.rcv (8 * k + b)) then 2 ^ b else 0))))
    let pay := if q.sr then beBytes 2 0x5753 ++ [1, 0] ++ map else []
    let d := d.setQp c { q with unacked := 0 }
    d.roceSend c q q.dscp (bth 0x11 false false 0 q.remote psn ++ beBytes 1 0x1F ++ beBytes 3 q.msn ++ pay)

/-- A NAK: syndrome 0x60 PSN sequence error, 0x61 invalid request, 0x62 remote access, 0x63 operational; 0x20 + timer RNR. -/
def Dev.qpNak (d : Dev) (c : Nat) (psn syn : Nat) : Dev :=
  match d.qp c with
  | none => d
  | some q =>
    ((d.count Reg.STO_NAK_TX).setQp c { q with naks := q.naks + 1 }).roceSend c q q.dscp
      (bth 0x11 false false 0 q.remote psn ++ beBytes 1 syn ++ beBytes 3 q.msn)

/-! Receiving messages (R297 to R300). -/

/-- R297: entries at the front of a receive ring that can never be a buffer are consumed. -/
def Dev.rqClean (d : Dev) (q : Nat) : Nat → Dev
  | 0 => d
  | fuel + 1 =>
    match kvFind q d.ring.sqs with
    | none => d
    | some x =>
      if !d.isRq x ∨ x.state ≠ 1 then d
      else
        let pos := x.started
        match x.front with
        | .wait => d
        | .run n =>
          let bad := decide ((x.cache.headD default).opc ≠ 0x13)
          let zero := (x.cache.take n).any (fun e => decide (e.len = 0))
          if !bad && !zero then d
          else
            ((d.startFront q x false).2.jobEnd q pos (if bad then { status := St.MALFORMED, detail := 1 }
              else { status := St.RANGE, detail := rangeAt 0 32 })).rqClean q fuel
        | _ => ((d.startFront q x false).2).rqClean q fuel

/-- R297: the next posted buffer of a receive ring. -/
def Dev.takeRecv (d : Dev) (t loc : Nat) : Dev × Option (Nat × Nat) :=
  match d.sqAt t loc with
  | none => (d, none)
  | some (q, _) =>
    let d := d.rqClean q 512
    match kvFind q d.ring.sqs with
    | none => (d, none)
    | some x =>
      if !d.isRq x ∨ x.state ≠ 1 ∨ !d.shutOpen t ∨ d.stashFull x.cq then (d, none)
      else
        match x.front with
        | .run _ => ((d.startFront q x false).2, some (q, x.started))
        | _ => (d, none)

/-- A message that has every packet: it completes on this side. A SEND longer than its buffer is refused and nothing is placed;
its buffer ends TOOLONG (log 37). -/
def Dev.msgDone (d : Dev) (c : Nat) (m : RxMsg) : Dev :=
  let immD2 := packD [(m.imm.getD 0, 0), (b2n m.imm.isSome, 32), (b2n m.sol, 33)]
  match m.nv, m.buf with
  | some _, _ => d
  | none, some (q, pos) =>
    if m.write then d.stoEnd q pos c 0 0 0 immD2
    else
      match d.jobFind q pos with
      | none => d
      | some j =>
        if j.total < m.data.length then (d.stoEnd q pos c St.TOOLONG 0 m.data.length immD2).qpNak c m.first 0x61
        else (d.jobPlace q pos 0 m.data).stoEnd q pos c 0 0 m.data.length immD2
  | none, none => d

/-- Whether a request opcode begins, ends, carries immediate data, is a WRITE. -/
def opFirst (o : Nat) : Bool := decide (o = 0 ∨ o = 4 ∨ o = 5 ∨ o = 6 ∨ o = 10 ∨ o = 11)
def opLast (o : Nat) : Bool := decide ((2 ≤ o ∧ o ≤ 5) ∨ (8 ≤ o ∧ o ≤ 11))
def opImm (o : Nat) : Bool := decide (o = 3 ∨ o = 5 ∨ o = 9 ∨ o = 11)
def opWrite (o : Nat) : Bool := decide (6 ≤ o ∧ o ≤ 11)

/-- What taking one request packet comes to: taken with the QP's messages updated; refused with a NAK; left out. -/
inductive Took where
  | ok (d : Dev) (q : Qp)
  | nak (d : Dev) (syn : Nat)
  | skip

/-- The message that a part belongs to: begun by a first packet, with a receive buffer where it needs one, or found; none of it and a
syndrome where no buffer is posted. -/
def Dev.takeStart (d : Dev) (c t : Nat) (q : Qp) (op psn : Nat) (p : List Byte) : Option (Dev × Option RxMsg × Nat) :=
  if opFirst op then
    let m : RxMsg := { first := psn, write := opWrite op, addr := beAt p 12 8, rkey := beAt p 20 4, len := beAt p 24 4 }
    if opWrite op then some (d, some m, 0)
    else
      match d.nvmfOver c with
      | some n => some (d, some { m with nv := some n }, 0)
      | none =>
        match d.takeRecv t q.rqLoc with
        | (d', some b) => some (d', some { m with buf := some b }, 0)
        | (d', none) => some (d', none, 0x20 + q.rnrTimer)
  else (q.rx.find? (fun m => decide (psnDist m.first psn < 2 ^ 23))).map (fun m => (d, some m, 0))

/-- Take one packet of a SEND or WRITE into its message; `fault`: the host page of the MR is not present. -/
def Dev.takePart (d : Dev) (c t : Nat) (gen : Word) (q : Qp) (op psn : Nat) (p : List Byte) (pad : Nat) (se fault : Bool) : Took :=
  let o := if opFirst op && opWrite op then 28 else 12
  let hdr := if opLast op && opImm op then o + 4 else o
  let body := (p.drop hdr).take (p.length - hdr - pad)
  let imm : Option Nat := if opLast op && opImm op then some (beAt p o 4) else none
  match d.takeStart c t q op psn p with
  | none => if q.sr then .skip else .nak d 0x61
  | some (d, none, syn) => .nak d syn
  | some (d, some m, _) =>
    let off := psnDist m.first psn * q.mtu
    let m' := { m with last := if opLast op then some psn else m.last, imm := imm.or m.imm, sol := m.sol || se, got := m.got + body.length }
    let rest := q.rx.filter (fun x => decide (x.first ≠ m.first))
    if m.write then
      match d.nvWrite t m.rkey (m.addr + off) body, d.mrCheck t m.rkey (m.addr + off) body.length true with
      | some d', _ => .ok d' { q with rx := rest ++ [m'] }
      | none, none => if body.isEmpty ∧ m.len = 0 then .ok d { q with rx := rest ++ [m'] } else .nak d 0x62
      | none, some mr =>
        if fault ∧ !mr.hbm then .nak d (0x20 + q.rnrTimer)
        else
          let d := d.mrWrite t gen mr (m.addr + off) body
          match imm with
          | none => .ok d { q with rx := rest ++ [m'] }
          | some _ =>
            match d.takeRecv t q.rqLoc with
            | (d, some b) => .ok d { q with rx := rest ++ [{ m' with buf := some b }] }
            | (d, none) => .nak d (0x20 + q.rnrTimer)
    else .ok d { q with rx := rest ++ [{ m' with data := patch (if m.data.length < off then fitTo off m.data else m.data) off body }] }

/-- Messages whose every PSN lies before the expected one complete, in order (R300); bytes for an NVMF context are kept for it. -/
def Dev.msgsDone (d : Dev) (c : Nat) : Nat → Dev
  | 0 => d
  | fuel + 1 =>
    match d.qp c with
    | none => d
    | some q =>
      match q.rx.find? (fun m => m.nv.isNone && m.last.elim false (fun l => psnBefore l q.rcv)) with
      | none => d
      | some m =>
        let d := d.setQp c { q with rx := q.rx.filter (fun x => decide (x ≠ m)), msn := (q.msn + 1) % 2 ^ 24 }
        (d.msgDone c m).msgsDone c fuel

/-- The expected PSN moves over PSNs received before it. -/
def Qp.advance (q : Qp) : Nat → Qp
  | 0 => q
  | n + 1 => if q.seen.contains q.rcv then ({ q with rcv := psnAdd q.rcv 1, seen := q.seen.filter (· ≠ q.rcv) } : Qp).advance n else q

/-- A READ request. -/
def Dev.takeRead (d : Dev) (t : Nat) (q : Qp) (psn : Nat) (p : List Byte) (fault : Bool) : Took :=
  let r : RespRead := { psn := psn, addr := beAt p 12 8, rkey := beAt p 20 4, len := beAt p 24 4 }
  match d.mrCheck t r.rkey r.addr r.len false with
  | none => if (d.nvRead t r.rkey r.addr r.len).isSome then .ok d { q with reads := q.reads ++ [r] } else .nak d 0x62
  | some mr => if fault ∧ !mr.hbm then .nak d (0x20 + q.rnrTimer) else .ok d { q with reads := q.reads ++ [r] }

/-- The next packet in order: a READ request, or a part of a message. -/
def Dev.takeNext (d : Dev) (c t : Nat) (gen : Word) (q : Qp) (op psn : Nat) (p : List Byte) (fault : Bool) : Took :=
  if op = 0x0C then d.takeRead t q psn p fault
  else d.takePart c t gen q op psn p (beAt p 1 1 / 16 % 4) (decide (128 ≤ beAt p 1 1)) fault

/-- A request packet (R294, R297 to R300). -/
def Dev.roceRequest (d : Dev) (c : Nat) (gen : Word) (p : List Byte) (fault : Bool) : Dev :=
  match d.qp c with
  | none => d
  | some q =>
    let t := d.stoTen c
    let op := beAt p 0 1
    let psn := beAt p 9 3
    let ackReq := decide (128 ≤ beAt p 8 1)
    let dist := psnDist q.rcv psn
    let isRead := decide (op = 0x0C)
    let n := if isRead then q.psns (beAt p 24 4) else 1
    if 2 ^ 23 ≤ dist then
      -- a duplicate: a READ is answered again, anything else acknowledged again
      if isRead then
        match d.takeRead t q psn p fault with
        | .ok d q => d.setQp c q
        | _ => d
      else d.qpAck c
    else if dist = 0 then
      match d.takeNext c t gen q op psn p fault with
      | .skip => d
      | .nak d syn => d.qpNak c psn syn
      | .ok d q' =>
        let q' := { q' with rcv := psnAdd q.rcv n, nakSent := false, unacked := q'.unacked + 1,
                            msn := if isRead then (q'.msn + 1) % 2 ^ 24 else q'.msn }
        let d := d.setQp c (q'.advance 256)
        let d := d.msgsDone c (q'.rx.length + 1)
        if isRead then d
        else if q.sr then (if 16 ≤ q'.unacked then d.qpAck c else d)
        else if ackReq then d.qpAck c else d
    else if !q.sr then
      if q.nakSent then d else (d.setQp c { q with nakSent := true }).qpNak c q.rcv 0x60
    else if 256 ≤ dist ∨ isRead ∨ q.seen.contains psn then d
    else
      match d.takeNext c t gen q op psn p fault with
      | .skip => d
      | .nak d syn => d.qpNak c psn syn
      | .ok d q' =>
        let hole := !q.seen.contains (psnAdd psn (2 ^ 24 - 1)) && q.holeAt.elim true (fun h => decide (h + 2000 ≤ d.nowNs))
        let q' := { q' with seen := psn :: q'.seen, unacked := q'.unacked + 1, holeAt := if hole then some d.nowNs else q'.holeAt }
        let d := d.setQp c q'
        if hole ∨ 16 ≤ q'.unacked then d.qpAck c else d

/-! Answers to this side's requests. -/

/-- Everything before a PSN is acknowledged: entries without READ data complete. -/
def Dev.ackedTo (d : Dev) (c psn : Nat) : Dev :=
  match d.qp c with
  | none => d
  | some q =>
    let past := fun (w : Wqe) => w.psn.elim false (fun s => decide (w.op ≠ 0x12) && !psnBefore psn (psnAdd s w.n))
    let (fin, _) := q.work.span past
    let progress := decide (psnDist q.una psn < 2 ^ 23 ∧ psn ≠ q.una)
    let reads := q.work.filterMap (fun w => if w.op = 0x12 then w.psn else none)
    let q' := { q with work := q.work.drop fin.length, una := if progress then psn else q.una, tries := if progress then 0 else q.tries,
                       rnrTries := if progress then 0 else q.rnrTries,
                       sendQ := q.sendQ.filter (fun p => p.resp || reads.contains p.psn || !psnBefore p.psn psn),
                       sacked := q.sacked.filter (fun x => !psnBefore x psn) }
    fin.foldl (fun d w =>
      if w.nv.isSome then d
      else
        let len := (d.jobFind w.sq w.pos).elim 0 Job.total
        d.stoEnd w.sq w.pos c 0 0 len 0) (d.setQp c q')

/-- Resend from a PSN on. -/
def Qp.resendFrom (q : Qp) (psn : Nat) : Qp :=
  { q with sendQ := q.sendQ.map (fun p => if !p.resp ∧ 0 < p.sends ∧ !psnBefore p.psn psn then { p with due := true } else p) }

/-- Resend the packet of one PSN. -/
def Qp.resendOne (q : Qp) (psn : Nat) : Qp :=
  { q with sendQ := q.sendQ.map (fun p => if !p.resp ∧ p.psn = psn ∧ 0 < p.sends then { p with due := true } else p) }

/-- R300: PSNs an ACK shows missing with three later ones received are sent again, once. -/
def Qp.missing (q : Qp) : List Nat :=
  (q.sendQ.filter (fun p => !p.resp && decide (p.sends = 1) && !p.due && !q.sacked.contains p.psn &&
    decide (3 ≤ (q.sacked.filter (fun s => psnBefore p.psn s)).length))).map (·.psn)

/-- An ACK or NAK. -/
def Dev.roceAck (d : Dev) (c : Nat) (p : List Byte) : Dev :=
  match d.qp c with
  | none => d
  | some q =>
    let psn := beAt p 9 3
    let syn := beAt p 12 1
    if q.state ≠ 3 ∨ psnBefore psn (psnAdd q.una (2 ^ 24 - 1)) then d
    else
      match syn / 32 with
      | 0 =>
        let d := d.ackedTo c (psnAdd psn 1)
        match d.qp c with
        | none => d
        | some q =>
          if q.sr ∧ beAt p 16 2 = 0x5753 then
            let got := (List.range 256).filter (fun i => decide (leAt p (20 + i / 8) 1 / 2 ^ (i % 8) % 2 = 1))
            let q := { q with sacked := got.map (fun i => psnAdd psn (1 + i)) }
            d.setQp c (q.missing.foldl Qp.resendOne q)
          else d
      | 1 =>
        let d := d.ackedTo c psn
        match d.qp c with
        | none => d
        | some q => d.setQp c { q.resendFrom psn with rnrWait := true, rnrTries := q.rnrTries + 1 }
      | _ =>
        let d := d.ackedTo c psn
        match syn % 32 with
        | 0 => (d.qp c).elim d (fun q => d.setQp c (q.resendFrom psn))
        | 1 => d.qpError c 4 true
        | 2 => d.qpError c 3 true
        | _ => d.qpError c 5 true

/-- A READ response: its bytes are placed in order. -/
def Dev.roceReadData (d : Dev) (c : Nat) (p : List Byte) : Dev :=
  match d.qp c with
  | none => d
  | some q =>
    let op := beAt p 0 1
    let psn := beAt p 9 3
    let hdr := if op = 0x0E then 12 else 16
    let body := (p.drop hdr).take (p.length - hdr - beAt p 1 1 / 16 % 4)
    match q.work.find? (fun w => decide (w.op = 0x12) && w.psn.isSome) with
    | none => d
    | some w =>
      let first := w.psn.getD 0
      let k := w.got.length / q.mtu
      if q.state ≠ 3 ∨ psn ≠ psnAdd first k then d
      else
        let w' := { w with got := w.got ++ body }
        let fin := decide (k + 1 = w.n)
        -- what stands before the READ is acknowledged by its response
        let d := (d.setQp c { q with work := q.work.map (fun x => if x = w then w' else x), tries := 0 }).ackedTo c psn
        let d := if w.nv.isSome then d else d.jobPlace w.sq w.pos (k * q.mtu) body
        if !fin then d
        else
          match d.qp c with
          | none => d
          | some q =>
            let q := { q with work := if w.nv.isSome then q.work else q.work.filter (fun x => decide (x ≠ w')),
                              sendQ := q.sendQ.filter (fun x => x.resp || decide (x.psn ≠ first)), una := psnAdd first w.n }
            let d := d.setQp c q
            if w.nv.isSome then d else d.stoEnd w.sq w.pos c 0 0 w'.got.length 0

/-! The commands. -/

/-- A packet the context engine has taken: its frame without Ethernet, and its bytes from the BTH to before the ICRC. -/
def roceBytes (f : List Byte) : Option (List Byte) :=
  let h := Net.l3 f
  let o := h.off + h.hlen + 8
  let n := h.total - h.hlen - 8
  if n < 16 then none
  else
    let whole := f.take (o + n - 4)
    if slice f (o + n - 4) 4 = icrc whole then some (slice f o (n - 4)) else none

/-- Take a packet for a QP: of the present generation, the ICRC right, the QP receiving. -/
def Dev.roceTake (d : Dev) (tok : Nat) (k : Dev → Nat → Packet → List Byte → Dev) : Dev :=
  match d.pkt tok with
  | none => d
  | some p =>
    match p.stage with
    | .context c =>
      match d.qp c with
      | none => if (d.sto? c).isSome then d else (d.dropPkt tok).count Reg.STO_NO_QP
      | some q =>
        if p.gen ≠ d.stoGen c then (d.dropPkt tok).discard (d.stoTen c)
        else
          match roceBytes p.data with
          | none => d.dropPkt tok
          | some b => if q.state = 2 ∨ q.state = 3 then k d c p b else d.dropPkt tok
    | _ => d

/-- R301: ECN-capable and marked packets received in the window. -/
def Rate.see (x : Rate) (ecn : Nat) : Rate := { x with n := x.n + b2n (decide (ecn ≠ 0)), m := x.m + b2n (decide (ecn = 3)) }

/-- ROCE_RX; opcodes the device does not support are refused (R294). -/
def Dev.roceRx (d : Dev) (tok : Nat) (fault : Bool) : Dev :=
  d.roceTake tok fun d c p b =>
    let op := beAt b 0 1
    if op = 0x81 then d
    else
      let d := d.freePkt tok
      let d := match d.qp c with
        | some q => if q.ecn then d.setQp c { q with rate := q.rate.see (ecnOf p.data (Net.l3 p.data).off) } else d
        | none => d
      if op ≤ 0x0C then d.roceRequest c p.gen b fault
      else if op = 0x11 then d.roceAck c b
      else if op ≤ 0x10 then d.roceReadData c b
      else d.qpNak c (beAt b 9 3) 0x61

/-- CNP_RX. -/
def Dev.cnpRx (d : Dev) (tok : Nat) : Dev :=
  d.roceTake tok fun d c _ b =>
    if beAt b 0 1 ≠ 0x81 then d
    else
      let d := (d.freePkt tok).count Reg.STO_CNP_RX
      let f := if beAt b 12 1 = 0x57 then beAt b 13 1 else d.regFld Reg.STO_CNP_CFG 15 8
      match d.qp c with
      | some q => if q.ecn then d.setQp c { q with rate := d.rateCut q.rate f } else d
      | none => d

/-- LACK_TIMEOUT. -/
def Dev.lackTimeout (d : Dev) (c : Nat) : Dev :=
  match d.qp c with
  | none => d
  | some q =>
    let out := q.sendQ.filter (fun p => !p.resp && decide (0 < p.sends))
    if q.state ≠ 3 ∨ q.timeout = 0 ∨ out.isEmpty then d
    else if q.retry ≤ q.tries then d.qpError c 1 true
    else
      let oldest := (out.headD default).psn
      let q := { q with tries := q.tries + 1 }
      d.setQp c (if q.sr then q.resendOne oldest else q.resendFrom oldest)

/-- SR_ACK_TIMER. -/
def Dev.srAckTimer (d : Dev) (c : Nat) : Dev :=
  match d.qp c with
  | some q => if q.sr ∧ 0 < q.unacked ∧ (q.state = 2 ∨ q.state = 3) then d.qpAck c else d
  | none => d

/-- RNR_TIMER_EXPIRE. -/
def Dev.rnrExpire (d : Dev) (c : Nat) : Dev :=
  match d.qp c with
  | none => d
  | some q =>
    if !q.rnrWait ∨ q.state ≠ 3 then d
    else if q.rnrRetry ≠ 7 ∧ q.rnrRetry < q.rnrTries then d.qpError c 2 true
    else d.setQp c { q with rnrWait := false }

/-! Jobs (R296). -/

/-- The context of a job: valid, of its tenancy, of the kind, and of this ring. -/
def Dev.jobQp (d : Dev) (j : Job) : Option (Nat × Qp) :=
  let c := fld j.firstE.d3 19 0
  (d.qp c).bind (fun q =>
    if d.stoTen c = j.ten ∧ (kvFind j.sq d.ring.sqs).elim false (fun x => decide (x.loc = q.sqLoc)) then some (c, q) else none)

/-- An earlier entry of the ring has not begun. -/
def Dev.notFirst (d : Dev) (j : Job) : Bool :=
  (d.ring.jobs.find? (fun k => decide (k.sq = j.sq) && k.res.isNone && !k.reading && decide (k.opc ≠ 1))) ≠ some j

/-- RDMA_SEND, RDMA_WRITE, RDMA_READ: the entry joins its QP's work; a SEND or WRITE reads its buffer. -/
def Dev.rdmaStart (d : Dev) (q pos op : Nat) : Dev :=
  match d.jobFind q pos with
  | none => d
  | some j =>
    if j.opc ≠ op ∨ j.res.isSome ∨ j.reading ∨ !d.jobLive j ∨ d.notFirst j then d
    else
      match d.jobQp j with
      | none => d.jobEnd q pos { status := St.DENIED, detail := 2, d3 := fld j.firstE.d3 19 0 }
      | some (c, x) =>
        if j.entries.any (fun e => decide (e.len = 0)) then d.stoEnd q pos c St.RANGE (rangeAt 0 32) 0 0
        else if 0x40000000 < j.total then d.stoEnd q pos c St.RANGE (rangeAt 0 32) 0 0
        else if x.state = 4 then d.stoEnd q pos c St.REMOTE 8 0 0
        else
          let d := d.setQp c { x with work := x.work ++ [{ sq := q, pos := pos, op := op }] }
          if op = 0x12 then d.jobPut { j with reading := true }
          else
            let d := d.jobPut { j with reading := true, need := j.total }
            (j.entries.foldl (fun (a : Dev × Nat) e =>
              (a.1.queueRead j.ten j.gen (.job q pos) e.addr e.len a.2, a.2 + e.len)) (d, 0)).1

def execRoceRx (tok : Nat) (pageFault : Bool) (s : State) := s.run (·.roceRx tok pageFault)
def execCnpRx (tok : Nat) (s : State) := s.run (·.cnpRx tok)
def execLackTimeout (ctx : Nat) (s : State) := s.run (·.lackTimeout ctx)
def execSrAckTimer (ctx : Nat) (s : State) := s.run (·.srAckTimer ctx)
def execRnrTimerExpire (ctx : Nat) (s : State) := s.run (·.rnrExpire ctx)
def execRdmaSend (q pos : Nat) (s : State) := s.run (·.rdmaStart q pos 0x10)
def execRdmaWrite (q pos : Nat) (s : State) := s.run (·.rdmaStart q pos 0x11)
def execRdmaRead (q pos : Nat) (s : State) := s.run (·.rdmaStart q pos 0x12)
/-- RDMA_RECV: on a receive ring what is no buffer is consumed, and a buffer waits for its SEND; on any other ring the opcode is
not accepted (R297, log 37). -/
def Dev.rdmaRecv (d : Dev) (q pos : Nat) : Dev :=
  match kvFind q d.ring.sqs, d.jobFind q pos with
  | some x, j =>
    if d.isRq x then d.rqClean q 512
    else if j.elim false (fun j => decide (j.opc = 0x13)) then d.jobEnd q pos { status := St.MALFORMED, detail := 1 }
    else d
  | none, _ => d

def execRdmaRecv (q pos : Nat) (s : State) := s.run (·.rdmaRecv q pos)

end Sys2Proof.Machine
end

