-- ==== Sys2Proof/Machine/TcpEng.lean ====
section
/-! DEFINITION. TCP connections of the context engine, with TLS (R302 to R304). -/

namespace Sys2Proof.Machine

/-- Distance from TCP sequence a to b. -/
def seqDist (a b : Nat) : Nat := (b + 2 ^ 32 - a) % 2 ^ 32

/-- The receive window the device advertises: the largest its scale allows (log 38). -/
def Tcp.rwnd (x : Tcp) : Nat := 65535 * 2 ^ x.rws

/-- R304: the connection enters ERROR. -/
def Dev.tcpError (d : Dev) (c : Nat) : Dev :=
  match d.tcp c with
  | none => d
  | some x =>
    if x.error then d
    else (d.setTcp c { x with error := true }).tenEvent (d.stoTen c) { type := 0x130, p1 := c, p2 := 7 }

/-- One segment: sequence, payload, flags (16 ACK, 8 PSH). -/
def Dev.tcpSegment (d : Dev) (c : Nat) (x : Tcp) (seq : Nat) (pay : List Byte) : Dev :=
  let ts := if x.tsopt then [1, 1, 8, 10] ++ beBytes 4 (d.nowNs / 1000000) ++ beBytes 4 x.tsRecent else []
  let blocks := if x.sack then (x.ooo.take 3).flatMap (fun e => beBytes 4 e.1 ++ beBytes 4 (e.1 + e.2.length)) else []
  let sack := if blocks.isEmpty then [] else [1, 1, 5] ++ beBytes 1 (2 + blocks.length) ++ blocks
  let opt := ts ++ sack
  let flags := 16 + (if pay.isEmpty then 0 else 8) + (if x.ecn ∧ x.ece then 64 else 0) + (if x.ecn ∧ x.cwr ∧ !pay.isEmpty then 128 else 0)
  let hdr := beBytes 2 x.lport ++ beBytes 2 x.rport ++ beBytes 4 seq ++ beBytes 4 x.rcvNxt ++ beBytes 1 (16 * ((20 + opt.length) / 4)) ++
    beBytes 1 flags ++ beBytes 2 65535 ++ [0, 0, 0, 0] ++ opt
  let ecn := if x.ecn ∧ !pay.isEmpty then 2 else 0
  d.ctxFrame c (d.stoTen c) x.action (Net.insertL4 (ipFrame x.src x.dst 6 x.dscp ecn (hdr ++ pay)))

/-- Put bytes into the stream. -/
def Dev.tcpPut (d : Dev) (c : Nat) (b : List Byte) : Dev :=
  match d.tcp c with
  | some x => if x.error then d else d.setTcp c { x with sndBuf := x.sndBuf ++ b }
  | none => d

/-- Protect bytes as TLS records under the connection's TLS_TX context and put them into the stream; a context that cannot be used
ends the connection. -/
def Dev.tlsPut (d : Dev) (c k : Nat) : Nat → List Byte → Dev
  | 0, _ => d
  | fuel + 1, b =>
    if b.isEmpty then d
    else
      match d.cryCtx k with
      | none => d.tcpError c
      | some x =>
        if x.kind ≠ 0x12 ∨ x.st ≠ 0 ∨ x.ten ≠ d.stoTen c then d.tcpError c
        else
          let inner := b.take 16384 ++ [23#8]
          let hdr := [23#8, 3#8, 3#8] ++ beBytes 2 (inner.length + 16)
          let key := x.keyAt x.seq
          let rec_ := hdr ++ aeadSeal x.alg key.key (numIv key.iv x.seq) hdr inner
          let x' := { x with seq := x.seq + 1, tcpNext := (x.tcpNext + rec_.length) % 2 ^ 32,
                             starts := (x.starts ++ [(x.tcpNext, x.seq)]).drop (x.starts.length - 15) }
          ((d.cryUsed k x' 1 inner.length).tcpPut c rec_).tlsPut c k fuel (b.drop 16384)

/-- Send bytes of the protocol above. -/
def Dev.tcpWrite (d : Dev) (c : Nat) (b : List Byte) : Dev :=
  match d.tcp c with
  | none => d
  | some x => if x.tls then d.tlsPut c x.tlsTx (b.length / 16384 + 1) b else d.tcpPut c b

/-- Send what the window and the pacer allow. -/
def Dev.tcpSend (d : Dev) (c : Nat) : Nat → Dev
  | 0 => d
  | fuel + 1 =>
    match d.tcp c with
    | none => d
    | some x =>
      let off := seqDist x.sndUna x.sndNxt
      let n := min (max 1 x.mss) (min (x.sndBuf.length - off) (x.wnd - off))
      let rate := d.rateInit x.rate
      if x.error ∨ n = 0 ∨ !rate.open_ then d.setTcp c { x with rate := rate }
      else
        let pay := slice x.sndBuf off n
        let d := d.tcpSegment c x x.sndNxt pay
        (d.setTcp c { x with sndNxt := (x.sndNxt + n) % 2 ^ 32, rate := rate.spend (n + 54), cwr := false }).tcpSend c fuel

/-- Send the first unacknowledged segment again (R300 counts it). -/
def Dev.tcpResend (d : Dev) (c : Nat) : Dev :=
  match d.tcp c with
  | none => d
  | some x =>
    let n := min (max 1 x.mss) (min x.sndBuf.length (seqDist x.sndUna x.sndNxt))
    if n = 0 then d
    else
      let d := (d.setTcp c { x with retx := x.retx + 1 }).count Reg.STO_RETX_PKTS
      d.tcpSegment c x x.sndUna (slice x.sndBuf 0 n)

/-- A loss counts as a CNP with F 256; the sender then sets CWR (R302). -/
def Dev.tcpCut (d : Dev) (c f : Nat) : Dev :=
  match d.tcp c with
  | some x => d.setTcp c { x with rate := d.rateCut x.rate f, cwr := x.ecn }
  | none => d

/-- Merge segments that have become in order. -/
def Tcp.absorb (x : Tcp) : Nat → Tcp
  | 0 => x
  | n + 1 =>
    match x.ooo.find? (fun e => decide (seqDist e.1 x.rcvNxt < 2 ^ 31)) with
    | none => x
    | some e =>
      let new := e.2.drop (seqDist e.1 x.rcvNxt)
      ({ x with ooo := x.ooo.filter (fun y => decide (y.1 ≠ e.1)), rcvBuf := x.rcvBuf ++ new
                rcvNxt := (x.rcvNxt + new.length) % 2 ^ 32 } : Tcp).absorb n

/-- Whole TLS records of the stream are opened into plaintext; one that fails, or that is no application data, ends the
connection. -/
def Dev.tlsTake (d : Dev) (c : Nat) : Nat → Dev
  | 0 => d
  | fuel + 1 =>
    match d.tcp c with
    | none => d
    | some x =>
      let l := beAt x.rcvBuf 3 2
      if x.rcvBuf.length < 5 ∨ x.rcvBuf.length < 5 + l then d
      else
        match d.cryCtx x.tlsRx with
        | none => d.tcpError c
        | some k =>
          if k.kind ≠ 0x13 ∨ k.st ≠ 0 ∨ k.ten ≠ d.stoTen c then d.tcpError c
          else
            let key := k.keyAt k.seq
            match aeadOpen k.alg key.key (numIv key.iv k.seq) (x.rcvBuf.take 5) (slice x.rcvBuf 5 l) with
            | none => ((d.tagFail x.tlsRx { k with st := 2 }).count Reg.CRY_AUTH_FAIL).tcpError c
            | some pt =>
              let body := (pt.reverse.dropWhile (fun b => decide (b = 0#8))).reverse
              let d := d.cryUsed x.tlsRx { k.afterRecords 1 with tcpNext := (k.tcpNext + 5 + l) % 2 ^ 32 } 1 pt.length
              if body.getLast? ≠ some 23#8 then d.tcpError c
              else (d.setTcp c { x with rcvBuf := x.rcvBuf.drop (5 + l), plain := x.plain ++ body.take (body.length - 1) }).tlsTake c fuel

/-- In-order bytes to the protocol above. -/
def Dev.tcpPlain (d : Dev) (c : Nat) : Dev :=
  match d.tcp c with
  | none => d
  | some x =>
    if x.tls then d.tlsTake c (x.rcvBuf.length + 1) else d.setTcp c { x with plain := x.plain ++ x.rcvBuf, rcvBuf := [] }

/-- Value of the timestamp option of a TCP header. -/
def tsVal (opts : List Byte) : Nat → Option Nat
  | 0 => none
  | fuel + 1 =>
    match opts with
    | [] => none
    | k :: r =>
      if k = 0#8 then none
      else if k = 1#8 then tsVal r fuel
      else if k = 8#8 then some (beAt r 1 4)
      else tsVal (r.drop ((r.headD 2).toNat - 1)) fuel

/-- The acknowledgement side of a segment. -/
def Dev.tcpAck (d : Dev) (c : Nat) (x : Tcp) (ack wnd : Nat) (ece pure : Bool) : Dev :=
  let n := seqDist x.sndUna ack
  let x := { x with wnd := wnd * 2 ^ x.sws }
  if 0 < n ∧ n ≤ seqDist x.sndUna x.sndNxt then
    let r := { x.rate with n := x.rate.n + n, m := x.rate.m + (if ece then n else 0) }
    d.setTcp c { x with sndUna := ack, sndBuf := x.sndBuf.drop n, dupAcks := 0, rtos := 0, rate := r }
  else if n = 0 ∧ pure ∧ x.sndUna ≠ x.sndNxt then
    let d := d.setTcp c { x with dupAcks := x.dupAcks + 1 }
    if x.dupAcks = 2 then (d.tcpResend c).tcpCut c 256 else d
  else d.setTcp c x

/-- A segment that the checks have let through: its acknowledgement, then its data. -/
def Dev.tcpTake (d : Dev) (tok c : Nat) (x : Tcp) (p : Packet) : Dev :=
  let h := Net.l3 p.data
  let o := h.off + h.hlen
  let hl := beAt p.data (o + 12) 1 / 16 * 4
  let seq := beAt p.data (o + 4) 4
  let flags := beAt p.data (o + 13) 1
  let pay := slice p.data (o + hl) (h.total - h.hlen - hl)
  let d := d.freePkt tok
  let ce := decide (ecnOf p.data h.off = 3)
  let ts := if x.tsopt then (tsVal (slice p.data (o + 20) (hl - 20)) 40).getD x.tsRecent else x.tsRecent
  let x := { x with ece := (x.ece && !decide (flags / 128 = 1)) || (x.ecn && ce), tsRecent := ts }
  let d := if flags / 16 % 2 = 1 then
      d.tcpAck c x (beAt p.data (o + 8) 4) (beAt p.data (o + 14) 2) (decide (flags / 64 % 2 = 1)) pay.isEmpty
    else d.setTcp c x
  match d.tcp c with
  | none => d
  | some x =>
    if pay.isEmpty then d
    else
      let x := { x with ooo := kvPut seq pay x.ooo }.absorb (x.ooo.length + 1)
      let d := (d.setTcp c x).tcpSegment c x x.sndNxt []
      d.tcpPlain c

/-- TCP_RX (R304). -/
def Dev.tcpRx (d : Dev) (tok : Nat) : Dev :=
  match d.pkt tok with
  | none => d
  | some p =>
    match p.stage with
    | .context c =>
      match d.tcp c with
      | none => if (d.sto? c).isSome then d else d.dropPkt tok
      | some x =>
        if p.gen ≠ d.stoGen c then (d.dropPkt tok).discard (d.stoTen c)
        else if x.error then (d.dropPkt tok).count Reg.STO_CTX_EXC
        else
          let h := Net.l3 p.data
          let o := h.off + h.hlen
          let hl := beAt p.data (o + 12) 1 / 16 * 4
          let seq := beAt p.data (o + 4) 4
          let flags := beAt p.data (o + 13) 1
          let pay := slice p.data (o + hl) (h.total - h.hlen - hl)
          let ahead := seqDist x.rcvNxt seq
          let inWin := decide (ahead < x.rwnd) || decide (2 ^ 32 - ahead < pay.length)
          if flags % 8 / 4 = 1 ∨ flags % 4 ≠ 0 ∨ flags / 32 % 2 = 1 ∨ !inWin then (d.tcpError c).toExcRing tok 0x30
          else
            d.tcpTake tok c x p
    | _ => d

/-- TCP_RTO (R302, R304): the eighth in a row ends the connection. -/
def Dev.tcpRto (d : Dev) (c : Nat) : Dev :=
  match d.tcp c with
  | none => d
  | some x =>
    if x.error ∨ x.sndUna = x.sndNxt then d
    else if 8 ≤ x.rtos + 1 then d.tcpError c
    else ((d.setTcp c { x with rtos := x.rtos + 1, dupAcks := 0 }).tcpResend c).tcpCut c 256

/-- RC_WINDOW (R301, R302): the receiver of an RC_QP sends a CNP for marks seen; a TCP sender takes what ECE told. -/
def Dev.rcWindow (d : Dev) (c : Nat) (send : Dev → Nat → Qp → Nat → Dev) : Dev :=
  match d.qp c, d.tcp c with
  | some q, _ =>
    if !q.ecn then d
    else
      let f := min 255 (256 * q.rate.m / max 1 q.rate.n)
      let m := q.rate.m
      let d := d.setQp c { q with rate := { q.rate with n := 0, m := 0 } }
      if m = 0 then d else send d c q f
  | none, some x =>
    if !x.ecn then d
    else
      let f := 256 * x.rate.m / max 1 x.rate.n
      let m := x.rate.m
      let d := d.setTcp c { x with rate := { x.rate with n := 0, m := 0 } }
      if m = 0 then d else d.tcpCut c f
  | none, none => d

/-- RC_INCREASE (R301). -/
def Dev.rcIncrease (d : Dev) (c : Nat) : Dev :=
  match d.qp c, d.tcp c with
  | some q, _ => if q.ecn then d.setQp c { q with rate := d.rateRaise q.rate } else d
  | none, some x => if x.ecn then d.setTcp c { x with rate := d.rateRaise x.rate } else d
  | none, none => d

def execTcpRx (tok : Nat) (s : State) := s.run (·.tcpRx tok)
def execTcpRto (ctx : Nat) (s : State) := s.run (·.tcpRto ctx)
def execRcIncrease (ctx : Nat) (s : State) := s.run (·.rcIncrease ctx)

end Sys2Proof.Machine
end

