-- ==== Sys2Proof/Machine/NvmeOf.lean ====
section
/-! DEFINITION. NVMe-oF queues: initiator and target (R303, R310, R313, R314). -/

namespace Sys2Proof.Machine

/-- RC_WINDOW: a CNP in a QP's window of marks (R301). -/
def Dev.cnpSend (d : Dev) (c : Nat) (q : Qp) (f : Nat) : Dev :=
  (d.count Reg.STO_CNP_TX).roceSend c q (d.regFld Reg.STO_CNP_CFG 5 0)
    (bth 0x81 false false 0 q.remote 0 ++ [0x57#8] ++ beBytes 1 f ++ List.replicate 14 0#8)

/-! PDUs of NVMe/TCP (R303; NVMe/TCP transport, log 39). -/

/-- A PDU: type, flags, its header after the common header, data. -/
def nvPdu (n : Nvmf) (type flags : Nat) (hdr data : List Byte) : List Byte :=
  let hlen := 8 + hdr.length
  let hd := if n.hdgst then 4 else 0
  let dd := if n.ddgst ∧ !data.isEmpty then 4 else 0
  let pdo := if data.isEmpty then 0 else hlen + hd
  let h := leBytes 1 type ++ leBytes 1 (flags + b2n n.hdgst + (if dd = 0 then 0 else 2)) ++ leBytes 1 hlen ++ leBytes 1 pdo ++
    leBytes 4 (hlen + hd + data.length + dd) ++ hdr
  h ++ (if n.hdgst then leBytes 4 (Net.crc32c h) else []) ++ data ++ (if dd = 0 then [] else leBytes 4 (Net.crc32c data))

/-- The next whole PDU of a stream: header, data; none: not whole yet; a digest that fails answers `some none`. -/
def nvNext (n : Nvmf) (s : List Byte) : Option (Option (List Byte × List Byte) × List Byte) :=
  let plen := leAt s 4 4
  let hlen := leAt s 2 1
  let pdo := leAt s 3 1
  if s.length < 8 ∨ plen < 8 ∨ s.length < plen then none
  else
    let h := s.take hlen
    let dd := if leAt s 1 1 / 2 % 2 = 1 then 4 else 0
    let data := if pdo = 0 then [] else slice s pdo (plen - pdo - dd)
    let okH := !n.hdgst || decide (leAt s hlen 4 = Net.crc32c h)
    let okD := decide (dd = 0) || decide (leAt s (plen - 4) 4 = Net.crc32c data)
    some (if okH && okD then some (h, data) else none, s.drop plen)

/-! Submission queue entries. -/

/-- A 64-byte SQE: opcode, CID, NSID, SGL, CDW10 to CDW12. -/
def sqe (op cid nsid : Nat) (sgl : List Byte) (slba cdw12 : Nat) : List Byte :=
  fitTo 64 (leBytes 1 op ++ leBytes 1 0x40 ++ leBytes 2 cid ++ leBytes 4 nsid ++ List.replicate 16 0#8 ++ fitTo 16 sgl ++ leBytes 8 slba ++
    leBytes 4 cdw12)

/-- Bytes that a command carries to the target. -/
def BlkCmd.writes (b : BlkCmd) : Bool := decide (b.op = 1 ∨ b.op = 9)

/-- The SQE of a command under a CID. -/
def Nvmf.sqeOf (n : Nvmf) (c cid : Nat) (b : BlkCmd) : List Byte :=
  let inCap := b.writes && decide (b.data.length ≤ n.icd)
  let sgl := if b.len = 0 then []
    else if inCap then leBytes 8 0 ++ leBytes 4 b.len ++ [0, 0, 0, 0x01]
    else if n.rdma then leBytes 8 (cid * 2 ^ 32) ++ leBytes 3 b.len ++ leBytes 4 (c * 256) ++ [0x40]
    else leBytes 8 0 ++ leBytes 4 b.len ++ [0, 0, 0, 0x5A]
  let cdw12 := if b.op = 9 then 0 else b.nlb - 1 + (if b.fua then 2 ^ 30 else 0)
  if b.op = 0 then sqe 0 cid b.nsid [] 0 0
  else if b.op = 9 then sqe 9 cid b.nsid sgl (b.nlb - 1 + 2 ^ 34) 0
  else sqe b.op cid b.nsid sgl b.slba cdw12

/-- Send a capsule. -/
def Dev.nvSend (d : Dev) (c : Nat) (n : Nvmf) (type : Nat) (body data : List Byte) : Dev :=
  if n.rdma then
    match d.qp n.link with
    | some q => d.setQp n.link { q with work := q.work ++ [{ sq := 0, pos := 0, op := 0x10, nv := some (c, 0, 1), data := body ++ data }] }
    | none => d
  else d.tcpWrite n.link (nvPdu n type 0 body data)

/-- Commands issue while CIDs are free, oldest first. -/
def Dev.nvIssue (d : Dev) (c : Nat) : Nat → Dev
  | 0 => d
  | fuel + 1 =>
    match d.nvmf c with
    | none => d
    | some n =>
      match n.wait, leastBelow (fun i => (kvFind i n.cmds).isNone) n.qsize with
      | b :: r, some cid =>
        if n.error then d
        else
          let d := d.setNvmf c { n with wait := r, cmds := kvPut cid b n.cmds }
          (d.nvSend c n 4 (n.sqeOf c cid b) (if b.writes ∧ b.data.length ≤ n.icd then b.data else [])).nvIssue c fuel
      | _, _ => d

def Dev.nvSubmit (d : Dev) (c : Nat) (b : BlkCmd) : Dev :=
  match d.nvmf c with
  | some n => d.setNvmf c { n with wait := n.wait ++ [b] }
  | none => d

/-- A response: Dword 0 and the 15-bit status of a CID. -/
def Dev.nvResponse (d : Dev) (c : Nat) (cqe : List Byte) : Dev :=
  match d.nvmf c with
  | none => d
  | some n =>
    match kvFind (leAt cqe 12 2) n.cmds with
    | some b => d.setNvmf c { n with cmds := kvPut (leAt cqe 12 2) { b with done := some (leAt cqe 0 4, leAt cqe 14 2 / 2) } n.cmds }
    | none => d

/-- An R2T: the bytes asked for go in H2CData PDUs of at most MAXH2C. -/
def Dev.nvR2t (d : Dev) (c : Nat) (n : Nvmf) (cid ttag off len : Nat) (b : BlkCmd) : Nat → Dev
  | 0 => d
  | fuel + 1 =>
    let k := min len (max 4096 n.maxH2c)
    if len = 0 then d
    else
      let hdr := leBytes 2 cid ++ leBytes 2 ttag ++ leBytes 4 off ++ leBytes 4 k ++ [0, 0, 0, 0]
      (d.tcpWrite n.link (nvPdu n 6 (if k = len then 4 else 0) hdr (slice b.data off k))).nvR2t c n cid ttag (off + k) (len - k) b fuel

/-- A host command arrives at a target context (R314): kept until it is taken. -/
def Dev.tgtArrive (d : Dev) (c : Nat) (body data : List Byte) : Dev :=
  match d.nvmf c with
  | none => d
  | some n =>
    let cid := leAt body 2 2
    d.setNvmf c { n with tgt := kvPut cid { sqe := body.take 64, data := data } n.tgt, order := n.order ++ [cid] }

/-- One PDU of a connection (R303). -/
def Dev.nvPduIn (d : Dev) (c : Nat) (n : Nvmf) (h data : List Byte) : Dev :=
  let cid := leAt h 8 2
  match leAt h 0 1, n.target with
  | 4, true => d.tgtArrive c (h.drop 8) data
  | 5, false => d.nvResponse c (h.drop 8)
  | 7, false =>
    match kvFind cid n.cmds with
    | some b =>
      let b := { b with got := patch b.got (leAt h 12 4) data, done := if leAt h 1 1 / 8 % 2 = 1 then some (0, 0) else b.done }
      d.setNvmf c { n with cmds := kvPut cid b n.cmds }
    | none => d
  | 9, false =>
    match kvFind cid n.cmds with
    | some b => d.nvR2t c n cid (leAt h 10 2) (leAt h 12 4) (leAt h 16 4) b (b.data.length + 1)
    | none => d
  | 6, true =>
    match kvFind cid n.tgt with
    | some x => d.setNvmf c { n with tgt := kvPut cid { x with data := patch x.data (leAt h 12 4) data } n.tgt }
    | none => d
  | _, _ => d.tcpError n.link

/-- PDUs of the plaintext stream. -/
def Dev.nvPdus (d : Dev) (c : Nat) : Nat → Dev
  | 0 => d
  | fuel + 1 =>
    match d.nvmf c with
    | none => d
    | some n =>
      match d.tcp n.link with
      | none => d
      | some x =>
        match nvNext n x.plain with
        | none => d
        | some (pdu, rest) =>
          let d := d.setTcp n.link { x with plain := rest }
          match pdu with
          | none => d.tcpError n.link
          | some (h, data) => (d.nvPduIn c n h data).nvPdus c fuel

/-- Capsules that arrived in SENDs (R303). -/
def Dev.nvCapsules (d : Dev) (c : Nat) : Nat → Dev
  | 0 => d
  | fuel + 1 =>
    match d.nvmf c with
    | none => d
    | some n =>
      match d.qp n.link with
      | none => d
      | some q =>
        match q.rx.find? (fun m => m.nv.isSome && m.last.elim false (fun l => psnBefore l q.rcv)) with
        | none => d
        | some m =>
          let d := d.setQp n.link { q with rx := q.rx.filter (fun x => decide (x ≠ m)), msn := (q.msn + 1) % 2 ^ 24 }
          (if n.target then d.tgtArrive c m.data (m.data.drop 64) else d.nvResponse c m.data).nvCapsules c fuel

/-- READs of a target that have all their bytes bring a command's data. -/
def Dev.nvReads (d : Dev) (c : Nat) : Dev :=
  match d.nvmf c with
  | none => d
  | some n =>
    match d.qp n.link with
    | none => d
    | some q =>
      let fin := q.work.filter (fun w => w.nv.isSome && decide (w.op = 0x12) && w.psn.isSome && decide (w.got.length = w.rlen))
      let d := d.setQp n.link { q with work := q.work.filter (fun w => !fin.contains w) }
      fin.foldl (fun d w =>
        match d.nvmf c with
        | some n =>
          let cid := (w.nv.getD (0, 0, 0)).2.1
          match kvFind cid n.tgt with
          | some x => d.setNvmf c { n with tgt := kvPut cid { x with data := w.got } n.tgt }
          | none => d
        | none => d) d

/-- A transport in ERROR takes its queue with it (R298, R303). -/
def Dev.linkDown (d : Dev) (n : Nvmf) : Bool :=
  match d.qp n.link, d.tcp n.link with
  | some q, _ => decide (q.state = 4)
  | none, some x => x.error
  | none, none => true

/-- Commands of a queue that have ended: their responses, and, when the transport is lost, all of them with none. -/
def Dev.nvEnded (d : Dev) (c : Nat) : Dev × List BlkCmd :=
  match d.nvmf c with
  | none => (d, [])
  | some n =>
    if n.error then (d.setNvmf c { n with cmds := [], wait := [] }, n.cmds.map (fun e => { e.2 with done := none }) ++ n.wait)
    else
      let fin := n.cmds.filter (fun e => e.2.done.isSome)
      (d.setNvmf c { n with cmds := n.cmds.filter (fun e => e.2.done.isNone) }, fin.map (·.2))

/-! Jobs (R296, R298). -/

/-- The end of a command that worked for a job. -/
def Dev.blkJobEnd (d : Dev) (c : Nat) (b : BlkCmd) (q pos : Nat) : Dev :=
  match b.done with
  | none => d.stoEnd q pos c St.REMOTE 7 0 0
  | some (dw0, st) =>
    let d2 := packD [(st % 32768, 0), (dw0, 32)]
    if st % 2048 ≠ 0 then d.stoEnd q pos c St.REMOTE 6 0 d2
    else
      let d := if b.op = 2 then d.jobPlace q pos 0 (fitTo b.len b.got) else d
      d.stoEnd q pos c 0 0 b.len d2

/-- BLK_READ, BLK_WRITE, BLK_FLUSH: the checks, the reads of a write's buffer, and the command once they are in. -/
def Dev.blkStart (d : Dev) (q pos op : Nat) : Dev :=
  match d.jobFind q pos with
  | none => d
  | some j =>
    if j.opc ≠ op ∨ j.res.isSome ∨ j.reading ∨ !d.jobLive j then d
    else
      let e := j.firstE
      let c := fld e.d3 19 0
      match (d.nvmf c).filter (fun n => decide (d.stoTen c = j.ten) && !n.target) with
      | none => d.jobEnd q pos { status := St.DENIED, detail := 2, d3 := c }
      | some n =>
        let len := if op = 0x16 then 0 else (fld e.d5 47 32 + 1) * 2 ^ n.lbads
        if j.total ≠ len ∨ (op ≠ 0x16 ∧ j.entries.any (fun x => decide (x.len = 0))) then d.stoEnd q pos c St.RANGE (rangeAt 0 32) 0 0
        else if n.error ∨ d.linkDown n then d.stoEnd q pos c St.REMOTE 7 0 0
        else
          let d := d.jobPut { j with reading := true, need := if op = 0x15 then len else 0 }
          if op = 0x15 then
            (j.entries.foldl (fun (a : Dev × Nat) x => (a.1.queueRead j.ten j.gen (.job q pos) x.addr x.len a.2, a.2 + x.len)) (d, 0)).1
          else
            d.nvSubmit c { for_ := .job q pos, op := if op = 0x14 then 2 else 0, nsid := fld e.d5 31 0, slba := e.d4.toNat
                           nlb := fld e.d5 47 32 + 1, len := len }

/-- Writes whose buffers have come are sent. -/
def Dev.blkWrites (d : Dev) : Dev :=
  d.ring.jobs.foldl (fun d j =>
    if j.opc = 0x15 ∧ j.reading ∧ j.need = 0 ∧ j.res.isNone ∧ !j.got.isEmpty then
      let e := j.firstE
      let data := j.got.flatMap (·.2)
      if (d.nvmf (fld e.d3 19 0)).isNone then d.stoEnd j.sq j.pos (fld e.d3 19 0) St.REMOTE 8 0 0 else
      (d.jobPut { j with got := [] }).nvSubmit (fld e.d3 19 0)
        { for_ := .job j.sq j.pos, op := 1, nsid := fld e.d5 31 0, slba := e.d4.toNat, nlb := fld e.d5 47 32 + 1, fua := bitOf e.d6 0
          data := data, len := data.length }
    else d) d

/-! Target (R313, R314). -/

def Dev.ssd (d : Dev) (c : Nat) : Option Ssd := kvFind c d.sto.ssds
def Dev.setSsd (d : Dev) (c : Nat) (x : Ssd) : Dev := { d with sto := { d.sto with ssds := kvPut c x d.sto.ssds } }

/-- Answer a host command: Dword 0 and status, data first for a read. -/
def Dev.tgtAnswer (d : Dev) (c cid dw0 st : Nat) (data : List Byte) : Dev :=
  match d.nvmf c with
  | none => d
  | some n =>
    match kvFind cid n.tgt with
    | none => d
    | some x =>
      let cqe := leBytes 4 dw0 ++ [0, 0, 0, 0, 0, 0, 0, 0] ++ leBytes 2 cid ++ leBytes 2 (2 * st)
      let d := d.setNvmf c { n with tgt := kvDel cid n.tgt, order := n.order.filter (· ≠ cid) }
      let sgl := slice x.sqe 24 16
      let d := if data.isEmpty then d
        else if n.rdma then
          match d.qp n.link with
          | some q =>
            let w : Wqe := { sq := 0, pos := 0, op := 0x11, nv := some (c, cid, 3), data := data, raddr := leAt sgl 0 8, rkey := leAt sgl 11 4 }
            d.setQp n.link { q with work := q.work ++ [w] }
          | none => d
        else d.tcpWrite n.link (nvPdu n 7 4 (leBytes 2 cid ++ [0, 0] ++ leBytes 4 0 ++ leBytes 4 data.length ++ [0, 0, 0, 0]) data)
      d.nvSend c n 5 cqe []

/-- Bytes a host command moves: its LBAs, or the ranges of Dataset Management. -/
def TgtCmd.len (x : TgtCmd) (lbads : Nat) : Nat :=
  match leAt x.sqe 0 1 with
  | 1 => (leAt x.sqe 48 2 + 1) * 2 ^ lbads
  | 2 => (leAt x.sqe 48 2 + 1) * 2 ^ lbads
  | 9 => (leAt x.sqe 40 1 + 1) * 16
  | _ => 0

/-- Staging blocks of a command: its data, and a list of addresses when more than two pages need one (log 39). -/
def TgtCmd.blocks (x : TgtCmd) (lbads : Nat) : Nat :=
  let k := (x.len lbads + 4095) / 4096
  if 2 < k then k + 1 else k

def TgtCmd.toSsd (x : TgtCmd) : Bool := decide (leAt x.sqe 0 1 = 1 ∨ leAt x.sqe 0 1 = 9)

/-- The lowest run of n free staging blocks. -/
def Ssd.stageRoom (s : Ssd) (n : Nat) : Option Nat :=
  leastBelow (fun b => decide (b + n ≤ s.stSize / 4096) && (List.range n).all (fun i => !s.used.contains (b + i))) (s.stSize / 4096 + 1)

/-- NVMF_TARGET_COMMAND (R314, 1 and 2): the oldest command without staging takes it, and a write asks for its data. A command other
than the five the target serves is answered at once. -/
def Dev.targetTake (d : Dev) (c : Nat) : Dev :=
  match d.nvmf c with
  | none => d
  | some n =>
    match n.order with
    | [] => d
    | cid :: rest =>
      match kvFind cid n.tgt, d.ssd c with
      | some x, some s =>
        let op := leAt x.sqe 0 1
        if !decide (op ≤ 2 ∨ op = 8 ∨ op = 9) then d.tgtAnswer c cid 0 1 []
        else
          let len := x.len n.lbads
          let k := x.blocks n.lbads
          match s.stageRoom k with
          | none => d
          | some b =>
            let d := d.setSsd c { s with used := s.used ++ (List.range k).map (b + ·) }
            let need := if x.toSsd then len else 0
            let d := d.setNvmf c { n with order := rest, tgt := kvPut cid { x with stage := some b, need := need } n.tgt }
            if need ≤ x.data.length then d
            else if n.rdma then
              match d.qp n.link with
              | some q =>
                let sgl := slice x.sqe 24 16
                let w : Wqe := { sq := 0, pos := 0, op := 0x12, nv := some (c, cid, 4), raddr := leAt sgl 0 8, rkey := leAt sgl 11 4, rlen := need }
                d.setQp n.link { q with work := q.work ++ [w] }
              | none => d
            else
              d.tcpWrite n.link (nvPdu n 9 0 (leBytes 2 cid ++ leBytes 2 cid ++ leBytes 4 0 ++ leBytes 4 need ++ [0, 0, 0, 0]) [])
      | some _, none => d.tgtAnswer c cid 0 6 []
      | none, _ => d.setNvmf c { n with order := rest }

/-- The bus address through which the SSD reaches an HBM address: BAR4 of PF0 or PF8 and the window (R61, R314). -/
def Dev.ssdBus (d : Dev) (t : Nat) (s : Ssd) (a : Nat) : Nat :=
  let p := if (d.tenGet t).owner < 8 then 0 else 1
  let w := (d.hifPort p).wins.getD s.win {}
  (d.fnGet (.pf (8 * p))).bar4 + w.base + (a - w.tgt)

/-- R314, 3 and 4: a command whose data has come is written to the SSD's queue, and its doorbell rung. -/
def Dev.ssdIssue (d : Dev) (c cid : Nat) (n : Nvmf) (x : TgtCmd) (s : Ssd) : Dev :=
  let b := x.stage.getD 0
  let k := (x.len n.lbads + 4095) / 4096
  let blockAt := fun i => s.stBase + 4096 * (b + i)
  let bus := fun i => d.ssdBus s.ten s (blockAt i)
  let d := if x.toSsd then d.hbmWrite (blockAt 0) x.data else d
  let d := if 2 < k then d.hbmWrite (blockAt k) ((List.range (k - 1)).flatMap (fun i => leBytes 8 (bus (i + 1)))) else d
  let prp2 := if k ≤ 1 then 0 else if k = 2 then bus 1 else bus k
  let cmd := patch (patch (patch x.sqe 1 [0]) 2 (leBytes 2 s.nextCid)) 4 (leBytes 4 s.rnsid)
  let cmd := patch cmd 24 (leBytes 8 (if k = 0 then 0 else bus 0) ++ leBytes 8 prp2)
  let tail := (s.tail + 1) % 2 ^ s.log2
  let d := d.hbmWrite (s.sqBase + 64 * s.tail) cmd
  let d := d.setSsd c { s with tail := tail, out := kvPut s.nextCid (some cid) s.out, nextCid := (s.nextCid + 1) % 65536 }
  let d := d.setNvmf c { n with tgt := kvPut cid { x with ssdCid := some s.nextCid } n.tgt }
  d.pfWrite (d.tenGet s.ten).owner s.bell (leBytes 4 tail)

/-- Issue every staged command whose data is complete while the SSD's queue has room. -/
def Dev.ssdIssueAll (d : Dev) (c : Nat) : Dev :=
  match d.nvmf c with
  | none => d
  | some n0 =>
    n0.tgt.foldl (fun d e =>
      match d.nvmf c, d.ssd c with
      | some n, some s =>
        match kvFind e.1 n.tgt with
        | some x =>
          if x.stage.isSome ∧ x.ssdCid.isNone ∧ x.need ≤ x.data.length ∧ (s.out.filter (·.2.isSome)).length + 1 < 2 ^ s.log2 then
            d.ssdIssue c e.1 n x s
          else d
        | none => d
      | _, _ => d) d

/-- Staging blocks of a command are free again. -/
def Ssd.freeStage (s : Ssd) (b k : Nat) : Ssd := { s with used := s.used.filter (fun i => !decide (b ≤ i ∧ i < b + k)) }

/-- SSD_CQE (R314, 5 to 7): the entry at the head of the SSD's completion queue, if its phase is new. -/
def Dev.ssdCqe (d : Dev) (c : Nat) : Dev :=
  match d.nvmf c, d.ssd c with
  | some n, some s =>
    let e := d.hbm.bytes (s.cqBase + 16 * s.head) 16
    let new := decide ((leAt e 14 2 % 2 = 1) = s.phase)
    if !new then d
    else
      let head := (s.head + 1) % 2 ^ s.log2
      let s' := { s with head := head, phase := if head = 0 then !s.phase else s.phase, out := kvDel (leAt e 12 2) s.out }
      let d := d.pfWrite (d.tenGet s.ten).owner (s.bell + 4) (leBytes 4 head)
      match kvFind (leAt e 12 2) s.out with
      | some (some cid) =>
        match kvFind cid n.tgt with
        | some x =>
          let len := x.len n.lbads
          let b := x.stage.getD 0
          let st := leAt e 14 2 / 2
          let data := if leAt x.sqe 0 1 = 2 ∧ st % 2048 = 0 then d.hbm.bytes (s.stBase + 4096 * b) len else []
          (d.setSsd c (s'.freeStage b (x.blocks n.lbads))).tgtAnswer c cid (leAt e 0 4) st data
        | none => d.setSsd c s'
      | _ => d.setSsd c s'
  | _, _ => d

/-- SSD_TIMEOUT (R314): Internal Error; the late CQE will be discarded. -/
def Dev.ssdTimeout (d : Dev) (c cid : Nat) : Dev :=
  match d.nvmf c, d.ssd c with
  | some n, some s =>
    match kvFind cid n.tgt with
    | some x =>
      match x.ssdCid with
      | none => d
      | some k =>
        let s' := ({ s with out := kvPut k none s.out } : Ssd).freeStage (x.stage.getD 0) (x.blocks n.lbads)
        ((((d.setSsd c s').tgtAnswer c cid 0 6 []).count Reg.STO_SSD_TO_CNT)).tenEvent s.ten { type := 0x131, p1 := c }
    | none => d
  | _, _ => d

/-! What a queue does by itself. -/

/-- Take what arrived, issue what waits; a lost transport ends the queue. -/
def Dev.nvRun (d : Dev) (c : Nat) : Dev :=
  match d.nvmf c with
  | none => d
  | some n =>
    if n.error then d
    else if d.linkDown n then d.setNvmf c { n with error := true, tgt := [], order := [] }
    else
      let d := if n.rdma then ((d.nvCapsules c 4096).nvReads c) else d.nvPdus c 4096
      let d := if n.target then d.ssdIssueAll c else d
      d.nvIssue c 1024

def execRcWindow (ctx : Nat) (s : State) := s.run (·.rcWindow ctx Dev.cnpSend)
def execBlkRead (q pos : Nat) (s : State) := s.run (·.blkStart q pos 0x14)
def execBlkWrite (q pos : Nat) (s : State) := s.run (·.blkStart q pos 0x15)
def execBlkFlush (q pos : Nat) (s : State) := s.run (·.blkStart q pos 0x16)
def execNvmfTargetCommand (ctx : Nat) (s : State) := s.run (·.targetTake ctx)
def execSsdCqe (ctx : Nat) (s : State) := s.run (·.ssdCqe ctx)
def execSsdTimeout (ctx cid : Nat) (s : State) := s.run (·.ssdTimeout ctx cid)

end Sys2Proof.Machine
end

