-- ==== Sys2Proof/Machine/StoCmd.lean ====
section
/-! DEFINITION. The admin commands of block storage and RDMA (R293, R295, R305, R310, R313, R317). -/

namespace Sys2Proof.Machine

/-- The first field of a context block outside its range (R293). -/
def stoBlockBad (b : List Byte) : Option Nat :=
  let k := leAt b 0 1
  let at_ := fun n => leAt b n 1
  if k = 0 ∨ 4 < k then some (blkAt 0)
  else if at_ 1 ≥ (if k = 1 then 4 else 16) then some (blkAt 1 + (if k = 1 then 2 else 4))
  else if k = 1 ∧ (at_ 2 = 0 ∨ 5 < at_ 2) then some (blkAt 2)
  else if k = 3 ∧ (leAt b 8 2 % 2048 = 0 ∨ 1024 < leAt b 8 2 % 2048) then some (blkAt 8)
  else if k = 4 ∧ (leAt b 24 8 = 0 ∨ 2 ^ 40 < leAt b 24 8) then some (blkAt 24)
  else if (k = 1 ∧ 31 < at_ 56) ∨ (k = 2 ∧ at_ 56 = 0) then some (blkAt 56)
  else if k = 1 ∧ 31 < at_ 58 then some (blkAt 58)
  else if k ≤ 2 ∧ 63 < at_ 59 then some (blkAt 59)
  else if k = 1 ∧ (at_ 60 = 0 ∨ 128 < at_ 60) then some (blkAt 60)
  else if k = 1 ∧ (at_ 61 = 0 ∨ 128 < at_ 61) then some (blkAt 61)
  else if k = 3 ∧ (leAt b 88 4 < 4096 ∨ 1048576 < leAt b 88 4) then some (blkAt 88)
  else if k = 3 ∧ 8192 < leAt b 92 4 then some (blkAt 92)
  else none

/-- The context a block describes. -/
def stoOfBlock (b : List Byte) (lbads : Nat) : StoKind :=
  let f := leAt b 1 1
  let bit := fun i => decide (f / 2 ^ i % 2 = 1)
  let rate : Rate := { max := leAt b 64 4 }
  match leAt b 0 1 with
  | 1 => .qp { sr := bit 0, ecn := bit 1, pmtu := leAt b 2 1, action := leAt b 4 4 % 2 ^ 17, sqLoc := leAt b 8 2 % 512, rqLoc := leAt b 10 2 % 512
               remote := leAt b 12 3, src := slice b 16 16, dst := slice b 32 16, snd := leAt b 48 3, rcv := leAt b 52 3, una := leAt b 48 3
               timeout := leAt b 56 1, retry := leAt b 57 1 % 8, rnrRetry := leAt b 57 1 / 16 % 8, rnrTimer := leAt b 58 1, dscp := leAt b 59 1
               rdAtom := leAt b 60 1, respRes := leAt b 61 1, sport := leAt b 62 2, rate := rate }
  | 2 => .tcp { tls := bit 0, ecn := bit 1, sack := bit 2, tsopt := bit 3, action := leAt b 4 4 % 2 ^ 17, lport := beAt b 12 2, rport := beAt b 14 2
                src := slice b 16 16, dst := slice b 32 16, sndUna := leAt b 48 4, sndNxt := leAt b 48 4, rcvNxt := leAt b 52 4
                rtoMin := leAt b 56 1, dscp := leAt b 59 1, mss := leAt b 68 2, sws := leAt b 70 1 % 16, rws := leAt b 70 1 / 16
                wnd := leAt b 72 4 * 2 ^ (leAt b 70 1 % 16), tsRecent := leAt b 76 4, tlsTx := leAt b 80 4 % 2 ^ 20, tlsRx := leAt b 84 4 % 2 ^ 20
                rate := rate }
  | 3 => .nvmf { target := bit 0, hdgst := bit 1, ddgst := bit 2, rdma := bit 3, qsize := leAt b 8 2 % 2048, qid := leAt b 10 2
                 link := leAt b 4 4 % 2 ^ 20, maxH2c := leAt b 88 4, icd := leAt b 92 4, lbads := lbads }
  | _ => .mr { hbm := bit 0, localWrite := bit 1, remoteRead := bit 2, remoteWrite := bit 3, key := leAt b 3 1, base := leAt b 16 8
               length := leAt b 24 8 }

/-- R154, R293: an HBM region lies wholly inside a grant of the tenancy with the permissions its flags need. -/
def Dev.mrGranted (d : Dev) (t : Nat) (m : Mr) : Bool :=
  (List.range 8).any (fun i => match kvFind (8 * t + i) d.dma.grants with
    | some g => decide (g.base ≤ m.base ∧ m.base + m.length ≤ g.base + g.size) && (!m.remoteRead || g.r) && (!(m.remoteWrite || m.localWrite) || g.w)
    | none => false)

/-- STO_CONN_SET. -/
def stoConnSet (e : AdmEntry) (d : Dev) : AdmRes :=
  let b := fitTo 128 e.buf
  let c := AdmEntry_slot e
  let lb := fld e.d3 39 32
  let k := stoOfBlock b lb
  let ungranted := match k with
    | .mr m => m.hbm && !d.mrGranted e.ten m
    | _ => false
  let initiator := match k with
    | .nvmf n => !n.target
    | _ => false
  admChecks ([d.notOwner e e.ten, (decide (e.len ≠ 128), St.RANGE, rangeAt 0 32), e.bufCheck,
      ((stoBlockBad b).isSome, St.RANGE, (stoBlockBad b).getD 0), (initiator && !decide (lb = 9 ∨ lb = 12), St.RANGE, rangeAt 3 32),
      d.keyState e.ten] ++ d.newCtx e.ten c ++ [(ungranted, St.DENIED, 6)]) fun _ =>
    .done (d.setSto c { ten := e.ten, k := k })

/-- The checks of a command on a context. -/
def Dev.stoPre (d : Dev) (e : AdmEntry) : List (Bool × Nat × Nat) :=
  let c := AdmEntry_slot e
  let other := decide ((d.ctxOwner c).isSome ∧ d.ctxOwner c ≠ some e.ten)
  [d.notOwner e e.ten, d.keyState e.ten, (other, St.DENIED, 2), ((d.sto? c).isNone, St.STATE, 0)]

/-- Remove a context; what a QP or queue had started ends FLUSHED (log 37). -/
def Dev.stoDestroy (d : Dev) (c : Nat) : Dev :=
  let d := match d.qp c with
    | some q => d.qpFlush c q
    | none => d
  let d := match d.nvmf c with
    | some n => (n.cmds.map Prod.snd ++ n.wait).foldl (fun (d : Dev) (b : BlkCmd) => match b.for_ with
        | .job q pos => d.stoEnd q pos c St.REMOTE 8 0 0
        | _ => { d with sto := { d.sto with orphans := d.sto.orphans ++ [{ b with done := none }] } }) d
    | none => d
  { d with sto := { d.sto with ctxs := kvDel c d.sto.ctxs, ssds := kvDel c d.sto.ssds } }

/-- STO_CONN_MODIFY (R295, R315): a destroyed context is gone at once; RESET with started entries goes through ERROR. -/
def stoConnModify (e : AdmEntry) (d : Dev) : AdmRes :=
  let c := AdmEntry_slot e
  let new := fld e.d3 2 0
  let q := (d.qp c).getD default
  let kind := match (d.sto? c).map StoCtx.k with
    | some (.qp _) => 1
    | some (.tcp _) => 2
    | some (.nvmf _) => 3
    | some (.mr _) => 4
    | none => 0
  let legal := decide (new = 0 ∨ new = 4 ∨ (q.state = 1 ∧ new = 2) ∨ (q.state = 2 ∧ new = 3))
  if bitOf e.d3 8 then admChecks (d.stoPre e) fun _ => .done (d.stoDestroy c)
  else
    admChecks ([(decide (4 < new), St.RANGE, rangeAt 3 0)] ++ d.stoPre e ++
        [((d.qp c).isNone, St.STATE, kind), (!legal, St.STATE, q.state)]) fun _ =>
      if new = 4 then .done (d.qpError c 0 false)
      else if new = 0 then
        let busy := !q.work.isEmpty || decide (0 < d.qpStarted e.ten c)
        let d := if busy then d.qpError c 0 false else d
        let q := (d.qp c).getD q
        .done (d.setQp c { q with state := 0, work := [], sendQ := [], rx := [], reads := [], seen := [] })
      else .done (d.setQp c { q with state := new })

/-- STO_CONN_QUERY: state, SND, RCV, R, T, packets sent again, NAKs sent, as 64-bit values (log 37). -/
def stoConnQuery (e : AdmEntry) (d : Dev) : AdmRes :=
  let c := AdmEntry_slot e
  let row := fun (l : List Nat) => l.flatMap (leBytes 8)
  let x := match (d.sto? c).map StoCtx.k with
    | some (.qp q) => row [q.state, q.snd, q.rcv, q.rate.r.getD 0, q.rate.t, q.retx, q.naks]
    | some (.tcp q) => row [b2n q.error * 4, q.sndNxt, q.rcvNxt, q.rate.r.getD 0, q.rate.t, q.retx, q.rtos]
    | some (.nvmf n) => row [b2n n.error * 4, n.cmds.length, n.wait.length]
    | _ => []
  admChecks (d.stoPre e ++ [(decide (e.len ≠ 64), St.RANGE, rangeAt 0 32)]) fun _ => .done d 0 64 (fitTo 64 x)

/-! Emulated controllers (R305, R310). -/

def ctrlKey (pf vf : Nat) : Nat := 1024 * pf + vf
def Dev.ctrl (d : Dev) (k : Nat) : Option NvCtrl := kvFind k d.sto.ctrls
def Dev.setCtrl (d : Dev) (k : Nat) (x : NvCtrl) : Dev := { d with sto := { d.sto with ctrls := kvPut k x d.sto.ctrls } }
def Dev.ctrlOf (d : Dev) (t : Nat) : Option (Nat × NvCtrl) := d.sto.ctrls.find? (fun c => decide (c.2.ten = t))

/-- Ranges of HBM that controllers and SSDs use, but for the named ones. -/
def Dev.stoRanges (d : Dev) (ctrl ssd : Option Nat) : List (Nat × Nat) :=
  (d.sto.ctrls.filter (fun c => decide (some c.1 ≠ ctrl))).map (fun c => (c.2.cacheBase, c.2.cacheSize)) ++
    (d.sto.ssds.filter (fun c => decide (some c.1 ≠ ssd))).map (fun c => (c.2.stBase, c.2.stSize))

def overlapsAny (base size : Nat) (l : List (Nat × Nat)) : Bool :=
  l.any (fun r => decide (0 < size ∧ 0 < r.2 ∧ base < r.1 + r.2 ∧ r.1 < base + size))

/-- STO_NVME_CTRL. -/
def stoNvmeCtrl (e : AdmEntry) (d : Dev) : AdmRes :=
  let vf := fld e.d3 9 0
  let pf := e.pf
  let k := ctrlKey pf vf
  let base := e.d4.toNat
  let size := e.d5.toNat
  let x := d.tenGet e.ten
  let bound := x.binding.elim false (fun b => b.isVf && decide (b.vf = vf) && b.pasid.isNone)
  admChecks [d.notOwner e e.ten, (decide (base % 2 ^ 20 ≠ 0), St.RANGE, rangeAt 4 0), (decide (size % 2 ^ 20 ≠ 0), St.RANGE, rangeAt 5 0),
      (decide (hbmReserved < base + size), St.RANGE, rangeAt 4 0), d.keyState e.ten, (!d.vfNvme pf || !bound, St.STATE, 0),
      (overlapsAny base size (d.stoRanges (some k) none), St.DENIED, 1)] fun _ =>
    if bitOf e.d3 32 then
      let old := (d.ctrl k).getD { ten := e.ten, en := true }
      .done (d.setCtrl k { old with ten := e.ten, en := true, cacheBase := base, cacheSize := size
                                    cache := if old.cacheBase = base ∧ old.cacheSize = size then old.cache else [] })
    else .done { d with sto := { d.sto with ctrls := kvDel k d.sto.ctrls } }

/-- STO_NVME_NS. -/
def stoNvmeNs (e : AdmEntry) (d : Dev) : AdmRes :=
  let ns := fld e.d3 4 0
  let mode := fld e.d3 9 8
  let lb := fld e.d3 19 16
  let n := e.len / 4
  let cs := (List.range n).map (fun i => leAt e.buf (4 * i) 4 % 2 ^ 20)
  let bad := cs.any (fun c => !(decide (d.stoTen c = e.ten) && (d.nvmf c).elim false (fun x => !x.target)))
  admChecks [d.notOwner e e.ten, (decide (ns = 0 ∨ 16 < ns), St.RANGE, rangeAt 3 0), (decide (2 < mode), St.RANGE, rangeAt 3 8),
      (!decide (lb = 9 ∨ lb = 12), St.RANGE, rangeAt 3 16), (decide (e.len % 4 ≠ 0 ∨ n = 0 ∨ 64 < n), St.RANGE, rangeAt 0 32),
      d.keyState e.ten, ((d.ctrlOf e.ten).isNone, St.STATE, 0), e.bufCheck, (bad, St.DENIED, 2)] fun _ =>
    match d.ctrlOf e.ten with
    | none => .done d
    | some (k, x) =>
      let m : NvNs := { mode := mode, lbads := lb, nsze := e.d4.toNat, off := e.d5.toNat, rnsid := fld e.d6 31 0, conns := cs }
      .done (d.setCtrl k { x with nss := kvPut ns m x.nss, changed := insertNat ns x.changed })

/-- STO_SSD_ATTACH: the block holds the bases of the queues and the staging range, their sizes, the doorbell and the NSID (log 39). -/
def stoSsdAttach (e : AdmEntry) (d : Dev) : AdmRes :=
  let c := AdmEntry_slot e
  let b := fitTo 64 e.buf
  let dw := fun i => leAt b (8 * i) 8
  let lg := fld e.d3 37 32
  let s : Ssd := { ten := e.ten, win := fld e.d3 5 0, log2 := lg, sqBase := dw 0, cqBase := dw 1, stBase := dw 2, stSize := dw 5, bell := dw 6
                   rnsid := dw 7 % 2 ^ 32 }
  let target := (d.nvmf c).elim false (·.target)
  admChecks [d.notOwner e e.ten, (decide (lg < 6 ∨ 16 < lg), St.RANGE, rangeAt 3 32), (decide (e.len ≠ 64), St.RANGE, rangeAt 0 32),
      e.bufCheck, (decide (hbmReserved < s.stBase + s.stSize), St.RANGE, rangeAt 2 0), (decide (hbmReserved < s.sqBase + 64 * 2 ^ lg), St.RANGE, rangeAt 0 0),
      (decide (hbmReserved < s.cqBase + 16 * 2 ^ lg), St.RANGE, rangeAt 1 0), d.keyState e.ten,
      (decide ((d.ctxOwner c).isSome ∧ d.ctxOwner c ≠ some e.ten), St.DENIED, 2), (!target, St.STATE, 0),
      (overlapsAny s.stBase s.stSize (d.stoRanges none (some c)), St.DENIED, 1)] fun _ =>
    .done (d.setSsd c s)

def execStoConnSet (e : AdmEntry) (s : State) := s.run (·.admRun e 0x50 (stoConnSet e))
def execStoConnModify (e : AdmEntry) (s : State) := s.run (·.admRun e 0x51 (stoConnModify e))
def execStoConnQuery (e : AdmEntry) (s : State) := s.run (·.admRun e 0x52 (stoConnQuery e))
def execStoNvmeCtrl (e : AdmEntry) (s : State) := s.run (·.admRun e 0x53 (stoNvmeCtrl e))
def execStoNvmeNs (e : AdmEntry) (s : State) := s.run (·.admRun e 0x54 (stoNvmeNs e))
def execStoSsdAttach (e : AdmEntry) (s : State) := s.run (·.admRun e 0x55 (stoSsdAttach e))

end Sys2Proof.Machine
end

