-- ==== Sys2Proof/Machine/NvmeCtl.lean ====
section
/-! DEFINITION. Emulated NVMe controllers (R305 to R312). Formats and status codes are those of NVM Express (log 39). -/

namespace Sys2Proof.Machine

/-! Completions. -/

def NvQueue.room (q : NvQueue) : Bool := decide ((q.tail + 1) % max 1 q.size ≠ q.head)

/-- Write one entry of a completion queue: the phase inverts where the queue wraps (R308). -/
def Dev.nvCqWrite (d : Dev) (k cq : Nat) (e : List Byte) : Dev :=
  match (d.ctrl k).bind (fun c => (kvFind cq c.cqs).map (fun q => (c, q))) with
  | none => d
  | some (c, q) =>
    let e := patch e 14 (leBytes 2 (leAt e 14 2 / 2 * 2 + b2n q.phase))
    let tail := (q.tail + 1) % max 1 q.size
    let d := d.tenWrite c.ten (d.tenGet c.ten).gen (q.base + 16 * q.tail) e false
    let d := d.setCtrl k { c with cqs := kvPut cq { q with tail := tail, phase := if tail = 0 then !q.phase else q.phase } c.cqs }
    if q.ien then d.irqSignal (.nvme (65536 * k + cq)) else d

/-- Entries that wait for a free position (R130). -/
def Dev.nvCqDrain (d : Dev) (k cq : Nat) : Nat → Dev
  | 0 => d
  | fuel + 1 =>
    match (d.ctrl k).bind (fun c => (kvFind cq c.cqs).map (fun q => (c, q))) with
    | none => d
    | some (c, q) =>
      match q.stash with
      | e :: r =>
        if !q.room then d
        else ((d.setCtrl k { c with cqs := kvPut cq { q with stash := r } c.cqs }).nvCqWrite k cq e).nvCqDrain k cq fuel
      | [] => d

/-- Complete a command of queue y: Dword 0 and status (SC in 7:0, SCT in 10:8, DNR in 14). -/
def Dev.nvDone (d : Dev) (k y cid dw0 st : Nat) : Dev :=
  match d.ctrl k with
  | none => d
  | some c =>
    let q := kvGet default c.sqs y
    let cq := q.cq
    let e := leBytes 4 dw0 ++ [0, 0, 0, 0] ++ leBytes 2 q.head ++ leBytes 2 y ++ leBytes 2 cid ++ leBytes 2 (2 * st)
    let d := d.setCtrl k { c with errors := c.errors + b2n (decide (st % 2048 ≠ 0)) }
    match (d.ctrl k).bind (fun c => (kvFind cq c.cqs).map (fun x => (c, x))) with
    | none => d
    | some (c, x) =>
      if x.room ∧ x.stash.isEmpty then d.nvCqWrite k cq e
      else d.setCtrl k { c with cqs := kvPut cq { x with stash := x.stash ++ [e] } c.cqs }

/-- A command-specific status (SCT 1). -/
def cmdStatus (sc : Nat) : Nat := 256 + sc

/-- Bytes to the pages of a command. -/
def Dev.nvOut (d : Dev) (c : NvCtrl) (prps : List Nat) (b : List Byte) : Dev :=
  let page := 4096 * 2 ^ fld c.cc 10 7
  (segsAt (prps.map (fun a => (a, page - a % page))) 0 b).foldl (fun d s =>
    d.tenWrite c.ten (d.tenGet c.ten).gen s.1 s.2 false) d

/-! Taking a command: the entry at a queue's head, as it was read from the host. -/

/-- The controller may take a command of queue y now. -/
def Dev.nvReady (d : Dev) (c : NvCtrl) (y : Nat) : Bool :=
  let q := kvGet default c.sqs y
  c.en && bitOf c.cc 0 && c.rdy && (kvFind y c.sqs).isSome && decide (q.head ≠ q.tail) && d.shutOpen c.ten && !d.fnHeld (d.tenFn c.ten) &&
    (decide ((d.tenGet c.ten).share.ceiling = 0) || decide (0 < (d.tenGet c.ten).bucket))

/-- SQE fields. -/
def seOp (e : SqEntry) : Nat := fld e.d0 7 0
def seCid (e : SqEntry) : Nat := fld e.d0 31 16
def seNs (e : SqEntry) : Nat := fld e.d0 63 32
def seCdw (e : SqEntry) (i : Nat) : Nat :=
  match i with
  | 10 => fld e.d5 31 0
  | 11 => fld e.d5 63 32
  | 12 => fld e.d6 31 0
  | _ => fld e.d6 63 32

def adminOps : List Nat := [0x00, 0x01, 0x02, 0x04, 0x05, 0x06, 0x08, 0x09, 0x0A, 0x0C]
def ioOps : List Nat := [0x00, 0x01, 0x02, 0x08, 0x09]

/-- Take the command at the head of queue y, if the opcode is this command's; an opcode the controller does not serve completes
Invalid Command Opcode (R309). -/
def Dev.nvTake (d : Dev) (pf vf y op : Nat) (e : SqEntry) (f : Dev → Nat → NvCtrl → Dev) : Dev :=
  let k := ctrlKey pf vf
  match d.ctrl k with
  | none => d
  | some c =>
    if !d.nvReady c y then d
    else
      let served := if y = 0 then adminOps else ioOps
      let q := kvGet default c.sqs y
      let c' := { c with sqs := kvPut y { q with head := (q.head + 1) % max 1 q.size } c.sqs }
      if !served.contains (seOp e) then (d.setCtrl k c').nvDone k y (seCid e) 0 1
      else if seOp e ≠ op then d
      else f (d.setCtrl k c') k c'

/-! Registers and doorbells (R306, R308, R312). -/

/-- NVME_CC_ENABLE: queue 0 takes its sizes and bases; RDY is set. -/
def Dev.nvEnable (d : Dev) (pf vf : Nat) (v : Word) : Dev :=
  let k := ctrlKey pf vf
  match d.ctrl k with
  | none => d
  | some c =>
    if bitOf c.cc 0 ∨ !bitOf v 0 ∨ !c.en then d
    else
      let size := fun (n : Nat) => max 2 (n + 1)
      d.setCtrl k { c with
        cc := v, rdy := true, cfs := false, shst := 0, aers := [], cmds := []
        sqs := [(0, { size := size (fld c.aqa 11 0), base := c.asq.toNat })]
        cqs := [(0, { size := size (fld c.aqa 27 16), base := c.acq.toNat, ien := true, mod := { vecV := true } })] }

/-- A submission tail or completion head doorbell of queue y. -/
def Dev.nvSqBell (d : Dev) (pf vf y v : Nat) : Dev :=
  let k := ctrlKey pf vf
  match (d.ctrl k).bind (fun c => (kvFind y c.sqs).map (fun q => (c, q))) with
  | some (c, q) => if v < q.size ∧ c.rdy then d.setCtrl k { c with sqs := kvPut y { q with tail := v } c.sqs } else d
  | none => d

def Dev.nvCqBell (d : Dev) (pf vf y v : Nat) : Dev :=
  let k := ctrlKey pf vf
  match (d.ctrl k).bind (fun c => (kvFind y c.cqs).map (fun q => (c, q))) with
  | some (c, q) =>
    if v < q.size ∧ c.rdy then (d.setCtrl k { c with cqs := kvPut y { q with head := v } c.cqs }).nvCqDrain k y (q.stash.length + 1) else d
  | none => d

/-! Admin commands (R307 to R309). -/

def Dev.nvCreateSq (d : Dev) (pf vf : Nat) (e : SqEntry) : Dev :=
  d.nvTake pf vf 0 1 e fun d k c =>
    let y := seCdw e 10 % 65536
    let size := seCdw e 10 / 65536 + 1
    let cq := seCdw e 11 / 65536
    let fin := d.nvDone k 0 (seCid e) 0
    if fld c.cc 19 16 ≠ 6 ∨ size < 2 then fin (cmdStatus 2)
    else if y = 0 ∨ 64 < y ∨ (kvFind y c.sqs).isSome ∨ (d.tenGet c.ten).rings ≤ d.ringsOf c.ten then fin (cmdStatus 1)
    else if cq = 0 ∨ (kvFind cq c.cqs).isNone then fin (cmdStatus 0)
    else (d.setCtrl k { c with sqs := kvPut y { size := size, base := e.d3.toNat, cq := cq } c.sqs }).nvDone k 0 (seCid e) 0 0

def Dev.nvCreateCq (d : Dev) (pf vf : Nat) (e : SqEntry) : Dev :=
  d.nvTake pf vf 0 5 e fun d k c =>
    let y := seCdw e 10 % 65536
    let size := seCdw e 10 / 65536 + 1
    let vec := seCdw e 11 / 65536
    let fin := d.nvDone k 0 (seCid e) 0
    if fld c.cc 23 20 ≠ 4 ∨ size < 2 then fin (cmdStatus 2)
    else if y = 0 ∨ 64 < y ∨ (kvFind y c.cqs).isSome ∨ (d.tenGet c.ten).rings ≤ d.ringsOf c.ten then fin (cmdStatus 1)
    else if 64 ≤ vec then fin (cmdStatus 8)
    else
      let coal := kvGet 0 c.feats 8
      let off := decide (kvGet 0 c.ivConf vec / 65536 % 2 = 1)
      let m : Mod := { count := coal % 256 + 1, time := if off then 0 else min (coal / 256 % 256 * 100) 4095, vector := vec, vecV := true }
      let q : NvQueue := { size := size, base := e.d3.toNat, ien := decide (seCdw e 11 / 2 % 2 = 1), mod := m }
      (d.setCtrl k { c with cqs := kvPut y q c.cqs }).nvDone k 0 (seCid e) 0 0

def Dev.nvDeleteSq (d : Dev) (pf vf : Nat) (e : SqEntry) : Dev :=
  d.nvTake pf vf 0 0 e fun d k c =>
    let y := seCdw e 10 % 65536
    if y = 0 ∨ (kvFind y c.sqs).isNone then d.nvDone k 0 (seCid e) 0 (cmdStatus 1)
    else (d.setCtrl k { c with sqs := kvDel y c.sqs, cmds := c.cmds.filter (fun m => decide (m.q ≠ y)) }).nvDone k 0 (seCid e) 0 0

def Dev.nvDeleteCq (d : Dev) (pf vf : Nat) (e : SqEntry) : Dev :=
  d.nvTake pf vf 0 4 e fun d k c =>
    let y := seCdw e 10 % 65536
    if y = 0 ∨ (kvFind y c.cqs).isNone then d.nvDone k 0 (seCid e) 0 (cmdStatus 1)
    else if c.sqs.any (fun q => decide (q.2.cq = y ∧ q.1 ≠ 0)) then d.nvDone k 0 (seCid e) 0 (cmdStatus 0x0C)
    else (d.setCtrl k { c with cqs := kvDel y c.cqs }).nvDone k 0 (seCid e) 0 0

/-- ASCII hexadecimal digits of a number. -/
def hexDigits : Nat → Nat → List Byte
  | 0, _ => []
  | n + 1, v => hexDigits n (v / 16) ++ [BitVec.ofNat 8 (if v % 16 < 10 then 48 + v % 16 else 55 + v % 16)]

/-- Identify Controller (R309). -/
def Dev.identCtrl (d : Dev) (vf : Nat) (c : NvCtrl) : List Byte :=
  let uid := d.regN (Reg.ID_UID 0) + 2 ^ 32 * d.regN (Reg.ID_UID 1)
  let mn := [71, 87, 51, 50, 49, 54, 32, 78, 86, 77, 101].map (BitVec.ofNat 8)
  let b := List.replicate 4096 0#8
  let b := patch b 0 (leBytes 2 0x1FD4 ++ leBytes 2 0x1FD4)
  let b := patch b 4 (hexDigits 16 uid ++ hexDigits 4 vf)
  let b := patch b 24 (mn ++ List.replicate 29 32#8)
  let b := patch b 77 [9]
  let b := patch b 80 (leBytes 4 0x00020000)
  let b := patch b 512 [0x66, 0x44]
  let b := patch b 516 (leBytes 4 16)
  let b := patch b 520 (leBytes 2 0x000C)
  patch b 525 [if c.nss.any (fun n => decide (n.2.mode = 2)) then 1 else 0]

/-- Identify Namespace: an unmapped one is all zeros. -/
def identNs (c : NvCtrl) (ns : Nat) : List Byte :=
  match kvFind ns c.nss with
  | none => List.replicate 4096 0#8
  | some n => patch (patch (List.replicate 4096 0#8) 0 (leBytes 8 n.nsze ++ leBytes 8 n.nsze ++ leBytes 8 n.nsze)) 130 [BitVec.ofNat 8 n.lbads]

def Dev.nvIdentify (d : Dev) (pf vf : Nat) (e : SqEntry) (prps : List Nat) : Dev :=
  d.nvTake pf vf 0 6 e fun d k c =>
    let cns := seCdw e 10 % 256
    let ns := seNs e
    let out := fun (b : List Byte) => (d.nvOut c prps b).nvDone k 0 (seCid e) 0 0
    if cns = 0 then (if ns = 0 ∨ 16 < ns then d.nvDone k 0 (seCid e) 0 0x0B else out (identNs c ns))
    else if cns = 1 then out (d.identCtrl vf c)
    else if cns = 2 then out (fitTo 4096 ((c.nss.filter (fun n => decide (ns < n.1))).flatMap (fun n => leBytes 4 n.1)))
    else d.nvDone k 0 (seCid e) 0 2

/-- Get Log Page: Error, SMART, Changed Namespace List; reading the last clears it. What the Error and SMART pages say beyond counts
the spec does not state: free bytes (log 39). -/
def Dev.nvGetLog (d : Dev) (pf vf : Nat) (e : SqEntry) (prps : List Nat) : Dev :=
  d.nvTake pf vf 0 2 e fun d k c =>
    let lid := seCdw e 10 % 256
    let n := 4 * (seCdw e 10 / 65536 + seCdw e 11 % 65536 * 65536 + 1)
    let out := fun (d : Dev) (b : List Byte) => (d.nvOut c prps (fitTo (min n 4096) b)).nvDone k 0 (seCid e) 0 0
    if lid = 4 then
      out (d.setCtrl k { c with changed := [] }) (c.changed.flatMap (leBytes 4))
    else if lid = 1 ∨ lid = 2 then
      let (s, d) := d.draw
      out d (freeBytes s (min n 4096))
    else d.nvDone k 0 (seCid e) 0 (cmdStatus 9)

def Dev.nvAbort (d : Dev) (pf vf : Nat) (e : SqEntry) : Dev :=
  d.nvTake pf vf 0 8 e fun d k _ => d.nvDone k 0 (seCid e) 1 0

/-- R308: I/O queues the tenancy's quota allows. -/
def Dev.nvQueues (d : Dev) (t : Nat) : Nat := min 64 (((d.tenGet t).rings - 2) / 2)

/-- The features served, and the value of one. -/
def nvFeatures : List Nat := [0x01, 0x06, 0x07, 0x08, 0x09, 0x0B]

def Dev.nvFeature (d : Dev) (c : NvCtrl) (f cdw11 : Nat) : Nat :=
  if f = 7 then
    let n := max 1 (d.nvQueues c.ten) - 1
    n + 65536 * n
  else if f = 9 then kvGet (cdw11 % 65536) c.ivConf (cdw11 % 65536)
  else kvGet 0 c.feats f

def Dev.nvSetFeatures (d : Dev) (pf vf : Nat) (e : SqEntry) : Dev :=
  d.nvTake pf vf 0 9 e fun d k c =>
    let f := seCdw e 10 % 256
    let v := seCdw e 11
    if !nvFeatures.contains f then d.nvDone k 0 (seCid e) 0 2
    else if f = 7 then d.nvDone k 0 (seCid e) (d.nvFeature c 7 0) 0
    else
      let c := if f = 9 then { c with ivConf := kvPut (v % 65536) v c.ivConf } else { c with feats := kvSet 0 f v c.feats }
      let c := if f = 8 then
          { c with cqs := c.cqs.map (fun q =>
              if q.1 = 0 ∨ kvGet 0 c.ivConf q.2.mod.vector / 65536 % 2 = 1 then q
              else (q.1, { q.2 with mod := { q.2.mod with count := v % 256 + 1, time := min (v / 256 % 256 * 100) 4095 } })) }
        else c
      (d.setCtrl k c).nvDone k 0 (seCid e) 0 0

def Dev.nvGetFeatures (d : Dev) (pf vf : Nat) (e : SqEntry) : Dev :=
  d.nvTake pf vf 0 0x0A e fun d k c =>
    let f := seCdw e 10 % 256
    if nvFeatures.contains f then d.nvDone k 0 (seCid e) (d.nvFeature c f (seCdw e 11)) 0 else d.nvDone k 0 (seCid e) 0 2

/-- A Namespace Attribute Changed event is reported while a request waits for it and the host asked for it (R310). -/
def Dev.nvAsync (d : Dev) (k : Nat) : Dev :=
  match d.ctrl k with
  | none => d
  | some c =>
    match c.aers with
    | cid :: r =>
      if c.changed.isEmpty ∨ kvGet 0 c.feats 0x0B / 256 % 2 = 0 then d
      else (d.setCtrl k { c with aers := r }).nvDone k 0 cid 0x00040002 0
    | [] => d

def Dev.nvAsyncReq (d : Dev) (pf vf : Nat) (e : SqEntry) : Dev :=
  d.nvTake pf vf 0 0x0C e fun d k c => (d.setCtrl k { c with aers := c.aers ++ [seCid e] }).nvAsync k

/-! I/O: mapping and cache (R310, R311). -/

/-- LBAs of a block of 4 KiB. -/
def NvNs.perBlk (n : NvNs) : Nat := 4096 / 2 ^ n.lbads

/-- The connection a host queue uses; after a failure, the next live one. -/
def Dev.nvConn (d : Dev) (n : NvNs) (y skip : Nat) : Option Nat :=
  let k := n.conns.length
  let at_ := fun i => n.conns.getD ((y - 1 + i) % max 1 k) 0
  ((List.range k).filter (fun i => decide (skip ≤ i))).findSome? (fun i =>
    (d.nvmf (at_ i)).bind (fun x => if x.error ∨ d.linkDown x then none else some (at_ i)))

/-- Send a command to the target; none live: Transient Transport Error. -/
def Dev.nvToTarget (d : Dev) (k y cid : Nat) (n : NvNs) (b : BlkCmd) (skip : Nat) : Dev :=
  match d.nvConn n y skip with
  | some c => d.nvSubmit c b
  | none =>
    match d.ctrl k with
    | some x => (d.setCtrl k { x with cmds := x.cmds.filter (fun m => !decide (m.q = y ∧ m.cid = cid)) }).nvDone k y cid 0 0x22
    | none => d

/-- Address of a cache slot. -/
def NvCtrl.slotAddr (c : NvCtrl) (s : Nat) : Nat := c.cacheBase + 4096 * s

def NvCtrl.blk (c : NvCtrl) (ns b : Nat) : Option NvBlk := c.cache.find? (fun x => decide (x.ns = ns ∧ x.blk = b))

def NvCtrl.setBlk (c : NvCtrl) (x : NvBlk) : NvCtrl :=
  { c with cache := c.cache.filter (fun y => !decide (y.ns = x.ns ∧ y.blk = x.blk)) ++ [x] }

/-- A slot for a block: a free one, or that of the oldest clean block. -/
def NvCtrl.takeSlot (c : NvCtrl) : Option (Nat × NvCtrl) :=
  match leastBelow (fun s => !c.cache.any (fun x => decide (x.slot = s))) (c.cacheSize / 4096) with
  | some s => some (s, c)
  | none =>
    match c.cache.find? (fun x => !x.dirty && !x.out) with
    | some x => some (x.slot, { c with cache := c.cache.filter (· ≠ x) })
    | none => none

/-- Blocks a range of LBAs touches. -/
def NvNs.blocks (n : NvNs) (slba nlb : Nat) : List Nat :=
  if nlb = 0 then []
  else (List.range ((slba + nlb - 1) / n.perBlk - slba / n.perBlk + 1)).map (slba / n.perBlk + ·)

/-- Put bytes of a range into the cached blocks they touch; whole blocks only take new slots. `dirty`: they are not at the target. -/
def Dev.cachePut (d : Dev) (k ns : Nat) (n : NvNs) (slba : Nat) (data : List Byte) (fill dirty : Bool) : Dev :=
  (n.blocks slba (data.length / 2 ^ n.lbads)).foldl (fun d b =>
    match d.ctrl k with
    | none => d
    | some c =>
      let start := b * 4096
      let off := slba * 2 ^ n.lbads
      let lo := max start off
      let hi := min (start + 4096) (off + data.length)
      let part := slice data (lo - off) (hi - lo)
      match c.blk ns b with
      | some x =>
        let since := if x.dirty then x.since else d.nowNs
        (d.setCtrl k (c.setBlk { x with dirty := x.dirty || dirty, since := since })).hbmWrite (c.slotAddr x.slot + (lo - start)) part
      | none =>
        if !fill ∨ part.length < 4096 then d
        else
          match c.takeSlot with
          | none => d
          | some (s, c) =>
            (d.setCtrl k (c.setBlk { ns := ns, blk := b, slot := s, dirty := dirty, since := d.nowNs })).hbmWrite (c.slotAddr s) part) d

/-- Whether every block of a range is cached; its bytes. -/
def NvCtrl.allCached (c : NvCtrl) (ns : Nat) (n : NvNs) (slba nlb : Nat) : Bool := (n.blocks slba nlb).all (fun b => (c.blk ns b).isSome)

def Dev.cacheGet (d : Dev) (c : NvCtrl) (ns : Nat) (n : NvNs) (slba nlb : Nat) : List Byte :=
  let all := (n.blocks slba nlb).flatMap (fun b => match c.blk ns b with
    | some x => d.hbm.bytes (c.slotAddr x.slot) 4096
    | none => List.replicate 4096 0#8)
  slice all (slba * 2 ^ n.lbads % 4096) (nlb * 2 ^ n.lbads)

/-- Bytes from the target with dirty blocks laid over them (R311: reads see the latest data). -/
def Dev.overlay (d : Dev) (c : NvCtrl) (ns : Nat) (n : NvNs) (slba : Nat) (b : List Byte) : List Byte :=
  let off := slba * 2 ^ n.lbads
  (c.cache.filter (fun x => x.dirty && decide (x.ns = ns))).foldl (fun b x =>
    let lo := max (x.blk * 4096) off
    let hi := min (x.blk * 4096 + 4096) (off + b.length)
    if lo < hi then patch b (lo - off) (d.hbm.bytes (c.slotAddr x.slot + (lo - x.blk * 4096)) (hi - lo)) else b) b

/-- A write would fit the cache: every block cached, or whole and with a slot to take. -/
def NvCtrl.cacheTakes (c : NvCtrl) (ns : Nat) (n : NvNs) (slba nlb : Nat) : Bool :=
  let whole := decide (slba % n.perBlk = 0 ∧ nlb % n.perBlk = 0)
  let new := (n.blocks slba nlb).filter (fun b => (c.blk ns b).isNone)
  let free := c.cacheSize / 4096 - c.cache.length
  let clean := (c.cache.filter (fun x => !x.dirty && !x.out && !((n.blocks slba nlb).contains x.blk && decide (x.ns = ns)))).length
  decide (new.length = 0) || (whole && decide (new.length ≤ free + clean))

/-- The namespace of a command; Invalid Namespace, or LBA Out of Range. -/
def nvRange (c : NvCtrl) (ns slba nlb : Nat) : Except Nat NvNs :=
  match kvFind ns c.nss with
  | none => .error 0x0B
  | some n => if n.nsze < slba + nlb then .error 0x80 else .ok n

/-- NVME_READ. -/
def Dev.nvReadCmd (d : Dev) (pf vf y : Nat) (e : SqEntry) (prps : List Nat) : Dev :=
  d.nvTake pf vf y 2 e fun d k c =>
    let slba := e.d5.toNat
    let nlb := seCdw e 12 % 65536 + 1
    let ns := seNs e
    let cid := seCid e
    match nvRange c ns slba nlb with
    | .error st => d.nvDone k y cid 0 st
    | .ok n =>
      let c := { c with reads := c.reads + 1 }
      let d := (d.setCtrl k c).drawBytes c.ten (nlb * 2 ^ n.lbads) false
      if n.mode ≠ 0 ∧ c.allCached ns n slba nlb then
        ((d.nvOut c prps (d.cacheGet c ns n slba nlb)).tollAdd c.ten (d.tenGet c.ten).gen 0 (nlb * 2 ^ n.lbads)).nvDone k y cid 0 0
      else
        let d := d.setCtrl k { c with cmds := c.cmds ++ [{ q := y, cid := cid, op := 2, ns := ns, slba := slba, nlb := nlb, prps := prps }] }
        d.nvToTarget k y cid n { for_ := .nvme k y cid, op := 2, nsid := n.rnsid, slba := slba + n.off, nlb := nlb, len := nlb * 2 ^ n.lbads } 0

/-- NVME_WRITE: `data` are the bytes read from the host. -/
def Dev.nvWriteCmd (d : Dev) (pf vf y : Nat) (e : SqEntry) (data : List Byte) : Dev :=
  d.nvTake pf vf y 1 e fun d k c =>
    let slba := e.d5.toNat
    let nlb := seCdw e 12 % 65536 + 1
    let ns := seNs e
    let cid := seCid e
    match nvRange c ns slba nlb with
    | .error st => d.nvDone k y cid 0 st
    | .ok n =>
      let b := fitTo (nlb * 2 ^ n.lbads) data
      let c := { c with writes := c.writes + 1 }
      let d := ((d.setCtrl k c).drawBytes c.ten b.length false).tollAdd c.ten (d.tenGet c.ten).gen 1 b.length
      if n.mode = 2 ∧ c.cacheTakes ns n slba nlb then (d.cachePut k ns n slba b true true).nvDone k y cid 0 0
      else
        let d := if n.mode ≠ 0 then d.cachePut k ns n slba b false false else d
        match d.ctrl k with
        | none => d
        | some c =>
          let d := d.setCtrl k { c with cmds := c.cmds ++ [{ q := y, cid := cid, op := 1, ns := ns, slba := slba, nlb := nlb }] }
          d.nvToTarget k y cid n { for_ := .nvme k y cid, op := 1, nsid := n.rnsid, slba := slba + n.off, nlb := nlb
                                   fua := decide (seCdw e 12 / 2 ^ 30 % 2 = 1), data := b, len := b.length } 0

/-- NVME_WRITE_ZEROES: cached blocks become zeros too. -/
def Dev.nvZeroes (d : Dev) (pf vf y : Nat) (e : SqEntry) : Dev :=
  d.nvTake pf vf y 8 e fun d k c =>
    let slba := e.d5.toNat
    let nlb := seCdw e 12 % 65536 + 1
    let ns := seNs e
    let cid := seCid e
    match nvRange c ns slba nlb with
    | .error st => d.nvDone k y cid 0 st
    | .ok n =>
      let d := d.cachePut k ns n slba (List.replicate (nlb * 2 ^ n.lbads) 0#8) false false
      match d.ctrl k with
      | none => d
      | some c =>
        let d := d.setCtrl k { c with cmds := c.cmds ++ [{ q := y, cid := cid, op := 8, ns := ns, slba := slba, nlb := nlb }] }
        d.nvToTarget k y cid n { for_ := .nvme k y cid, op := 8, nsid := n.rnsid, slba := slba + n.off, nlb := nlb } 0

/-- NVME_DATASET_MANAGEMENT: deallocate; any other attribute does nothing. `data`: the ranges. -/
def Dev.nvDataset (d : Dev) (pf vf y : Nat) (e : SqEntry) (data : List Byte) : Dev :=
  d.nvTake pf vf y 9 e fun d k c =>
    let ns := seNs e
    let cid := seCid e
    let nr := seCdw e 10 % 256 + 1
    match nvRange c ns 0 0 with
    | .error st => d.nvDone k y cid 0 st
    | .ok n =>
      let rs := (List.range nr).map (fun i => (leAt data (16 * i + 4) 4, leAt data (16 * i + 8) 8))
      if rs.any (fun r => decide (n.nsze < r.2 + r.1)) then d.nvDone k y cid 0 0x80
      else if seCdw e 11 / 4 % 2 = 0 then d.nvDone k y cid 0 0
      else
        let moved := rs.flatMap (fun r => leBytes 4 0 ++ leBytes 4 r.1 ++ leBytes 8 (r.2 + n.off))
        let d := d.setCtrl k { c with cmds := c.cmds ++ [{ q := y, cid := cid, op := 9, ns := ns }] }
        d.nvToTarget k y cid n { for_ := .nvme k y cid, op := 9, nsid := n.rnsid, nlb := nr, data := moved, len := moved.length } 0

/-- Write a dirty block to the target (R311). -/
def Dev.writeBack (d : Dev) (k ns b : Nat) : Dev :=
  match d.ctrl k with
  | none => d
  | some c =>
    match c.blk ns b, kvFind ns c.nss with
    | some x, some n =>
      if !x.dirty ∨ x.out then d
      else
        match d.nvConn n 1 0 with
        | none => d
        | some t =>
          let data := d.hbm.bytes (c.slotAddr x.slot) 4096
          let nlb := min n.perBlk (n.nsze - b * n.perBlk)
          (d.setCtrl k (c.setBlk { x with out := true, dirty := false })).nvSubmit t
            { for_ := .writeBack k ns b, op := 1, nsid := n.rnsid, slba := b * n.perBlk + n.off, nlb := nlb
              data := data.take (nlb * 2 ^ n.lbads), len := nlb * 2 ^ n.lbads }
    | _, _ => d

/-- Dirty blocks of a namespace, and blocks whose write-back is out. -/
def NvCtrl.unsafe_ (c : NvCtrl) (ns : Nat) : List Nat := (c.cache.filter (fun x => decide (x.ns = ns) && (x.dirty || x.out))).map (·.blk)

/-- NVME_FLUSH: it waits for every block dirty now, then for a Flush of the target (R311, R315). -/
def Dev.nvFlush (d : Dev) (pf vf y : Nat) (e : SqEntry) : Dev :=
  d.nvTake pf vf y 0 e fun d k c =>
    let ns := seNs e
    match nvRange c ns 0 0 with
    | .error st => d.nvDone k y (seCid e) 0 st
    | .ok _ =>
      let bs := c.unsafe_ ns
      let d := d.setCtrl k { c with cmds := c.cmds ++ [{ q := y, cid := seCid e, op := 0, ns := ns, blocks := bs }] }
      bs.foldl (fun d b => d.writeBack k ns b) d

/-- NVME_SHUTDOWN: every dirty block is written back, then SHST shows it (R312). -/
def Dev.nvShutdown (d : Dev) (pf vf : Nat) (v : Word) : Dev :=
  let k := ctrlKey pf vf
  match d.ctrl k with
  | none => d
  | some c =>
    let shn := fld v 15 14
    if !(decide (shn = 1 ∨ shn = 2)) ∨ c.shst ≠ 0 then d
    else
      let d := d.setCtrl k { c with shst := 1, cc := (c.cc &&& 0xFFFF3FFF#32) ||| BitVec.ofNat 32 (shn * 2 ^ 14) }
      c.cache.foldl (fun d x => d.writeBack k x.ns x.blk) d

/-! What the controller does as commands of its connections end. -/

/-- One command of a connection has ended for a controller. -/
def Dev.nvPart (d : Dev) (b : BlkCmd) : Dev :=
  match b.for_ with
  | .job _ _ => d
  | .none => d
  | .arc _ _ _ => { d with arc := { d.arc with acks := d.arc.acks ++ [b] } }
  | .writeBack k ns blk =>
    match d.ctrl k with
    | none => d
    | some c =>
      match c.blk ns blk with
      | none => d
      | some x =>
        let ok := b.done.elim false (fun r => decide (r.2 % 2048 = 0))
        if ok then d.setCtrl k (c.setBlk { x with out := false })
        else
          let c := c.setBlk { x with out := false, dirty := true }
          if c.shst = 1 then (d.setCtrl k { c with cfs := true }).count Reg.STO_WB_FAIL else d.setCtrl k c
  | .nvme k y cid =>
    match d.ctrl k with
    | none => d
    | some c =>
      match c.cmds.find? (fun m => decide (m.q = y ∧ m.cid = cid)) with
      | none => d
      | some m =>
        let c' := { c with cmds := c.cmds.filter (· ≠ m) }
        match b.done, kvFind m.ns c.nss with
        | none, some n =>
          -- the connection is lost: the command is reissued once (R310)
          if b.reissued then (d.setCtrl k c').nvDone k y cid 0 0x22
          else d.nvToTarget k y cid n { b with reissued := true, got := [] } 0
        | some (dw0, st), some n =>
          if st % 2048 ≠ 0 then (d.setCtrl k c').nvDone k y cid dw0 st
          else if m.op = 2 then
            let data := d.overlay c m.ns n m.slba (fitTo b.len b.got)
            let d := d.setCtrl k c'
            let d := if n.mode ≠ 0 then d.cachePut k m.ns n m.slba data true false else d
            ((d.nvOut c m.prps data).tollAdd c.ten (d.tenGet c.ten).gen 0 data.length).nvDone k y cid dw0 st
          else (d.setCtrl k c').nvDone k y cid dw0 st
        | _, none => (d.setCtrl k c').nvDone k y cid 0 0x22

/-- Ended commands of a connection go where they came from. -/
def Dev.nvCollect (d : Dev) (c : Nat) : Dev :=
  let (d, done) := d.nvEnded c
  done.foldl (fun d b => match b.for_ with
    | .job q pos => d.blkJobEnd c b q pos
    | _ => d.nvPart b) d

/-- A host Flush whose blocks are all at the target sends the target's Flush; a shutdown with nothing left to write ends. -/
def Dev.nvCtrlRun (d : Dev) (k : Nat) : Dev :=
  match d.ctrl k with
  | none => d
  | some c =>
    let d := (c.cmds.filter (fun m => decide (m.op = 0) && !m.flushing && !m.blocks.any (fun b => (c.unsafe_ m.ns).contains b))).foldl (fun d m =>
      match d.ctrl k, kvFind m.ns c.nss with
      | some c, some n =>
        let d := d.setCtrl k { c with cmds := c.cmds.map (fun x => if x = m then { x with flushing := true } else x) }
        d.nvToTarget k m.q m.cid n { for_ := .nvme k m.q m.cid, op := 0, nsid := n.rnsid } 0
      | _, _ => d) d
    let d := match d.ctrl k with
      | some c => if c.shst = 1 ∧ !c.cfs ∧ c.cache.all (fun x => !x.dirty && !x.out) then d.setCtrl k { c with shst := 2 } else d
      | none => d
    d.nvAsync k

/-- What the context engine does of itself in a nanosecond: transports, queues, controllers. -/
def Dev.stoTick (d : Dev) : Dev :=
  let fill := fun (d : Dev) (c : Nat) =>
    match d.qp c, d.tcp c with
    | some q, _ => (d.setQp c { q with rate := q.rate.fill }).qpRun c
    | none, some x => (d.setTcp c { x with rate := x.rate.fill }).tcpSend c 1024
    | none, none => d
  let cs := d.sto.ctxs.map (·.1)
  let d := d.blkWrites
  let lost := d.sto.orphans
  let d := lost.foldl (fun d b => d.nvPart b) { d with sto := { d.sto with orphans := [] } }
  let d := cs.foldl (fun d c => (d.nvRun c).nvCollect c) d
  let d := d.sto.ctrls.foldl (fun d k => d.nvCtrlRun k.1) d
  cs.foldl fill d

def execNvmeCcEnable (pf vf : Nat) (value : Word) (s : State) := s.run (·.nvEnable pf vf value)
def execNvmeShutdown (pf vf : Nat) (value : Word) (s : State) := s.run (·.nvShutdown pf vf value)
def execNvmeSqDoorbell (pf vf y value : Nat) (s : State) := s.run (·.nvSqBell pf vf y value)
def execNvmeCqDoorbell (pf vf y value : Nat) (s : State) := s.run (·.nvCqBell pf vf y value)
def execNvmeDeleteIoSq (pf vf : Nat) (sqe : SqEntry) (s : State) := s.run (·.nvDeleteSq pf vf sqe)
def execNvmeCreateIoSq (pf vf : Nat) (sqe : SqEntry) (s : State) := s.run (·.nvCreateSq pf vf sqe)
def execNvmeGetLogPage (pf vf : Nat) (sqe : SqEntry) (prps : List Nat) (s : State) := s.run (·.nvGetLog pf vf sqe prps)
def execNvmeDeleteIoCq (pf vf : Nat) (sqe : SqEntry) (s : State) := s.run (·.nvDeleteCq pf vf sqe)
def execNvmeCreateIoCq (pf vf : Nat) (sqe : SqEntry) (s : State) := s.run (·.nvCreateCq pf vf sqe)
def execNvmeIdentify (pf vf : Nat) (sqe : SqEntry) (prps : List Nat) (s : State) := s.run (·.nvIdentify pf vf sqe prps)
def execNvmeAbort (pf vf : Nat) (sqe : SqEntry) (s : State) := s.run (·.nvAbort pf vf sqe)
def execNvmeSetFeatures (pf vf : Nat) (sqe : SqEntry) (s : State) := s.run (·.nvSetFeatures pf vf sqe)
def execNvmeGetFeatures (pf vf : Nat) (sqe : SqEntry) (s : State) := s.run (·.nvGetFeatures pf vf sqe)
def execNvmeAsyncEventRequest (pf vf : Nat) (sqe : SqEntry) (s : State) := s.run (·.nvAsyncReq pf vf sqe)
def execNvmeFlush (pf vf y : Nat) (sqe : SqEntry) (s : State) := s.run (·.nvFlush pf vf y sqe)
def execNvmeWrite (pf vf y : Nat) (sqe : SqEntry) (data : List Byte) (s : State) := s.run (·.nvWriteCmd pf vf y sqe data)
def execNvmeRead (pf vf y : Nat) (sqe : SqEntry) (prps : List Nat) (s : State) := s.run (·.nvReadCmd pf vf y sqe prps)
def execNvmeWriteZeroes (pf vf y : Nat) (sqe : SqEntry) (s : State) := s.run (·.nvZeroes pf vf y sqe)
def execNvmeDatasetManagement (pf vf y : Nat) (sqe : SqEntry) (data : List Byte) (s : State) := s.run (·.nvDataset pf vf y sqe data)
def execWbAgeExpire (pf vf ns blk : Nat) (s : State) := s.run (·.writeBack (ctrlKey pf vf) ns blk)

end Sys2Proof.Machine
end

