-- ==== Sys2Proof/Machine/ArcFmt.lean ====
section
/-! DEFINITION. Formats of the archive path: layouts, the field of R321, keys, records, shard headers, manifests
(R319 to R328, R330, R331). -/

namespace Sys2Proof.Machine

/-! Layouts (R319, R320, R326 to R328). -/

def ceilDiv (a b : Nat) : Nat := (a + b - 1) / b

def ArcLay.n (l : ArcLay) : Nat := l.k + l.m
def ArcLay.u (l : ArcLay) : Nat := 2 ^ l.ulog
def ArcLay.stripes (l : ArcLay) : Nat := ceilDiv l.size (l.k * l.u)
def ArcLay.lastU (l : ArcLay) : Nat := 64 * ceilDiv (l.size - l.k * l.u * (l.stripes - 1)) (64 * l.k)
/-- Unit length of a stripe. -/
def ArcLay.unit (l : ArcLay) (t : Nat) : Nat := if t + 1 < l.stripes then l.u else l.lastU
/-- Object bytes in a stripe. -/
def ArcLay.bytesIn (l : ArcLay) (t : Nat) : Nat := min (l.k * l.u) (l.size - l.k * l.u * t)
def ArcLay.fileLen (l : ArcLay) : Nat := 128 + (l.stripes - 1) * (l.u + 16) + l.lastU + 16
def ArcLay.recAt (l : ArcLay) (t : Nat) : Nat := 128 + t * (l.u + 16)
def ArcLay.sig1 (l : ArcLay) : Bool := decide (l.sig % 2 = 1)
def ArcLay.sig2 (l : ArcLay) : Bool := decide (l.sig / 2 % 2 = 1)
def ArcLay.manHead (l : ArcLay) : Nat := 256 + 96 * l.n
def ArcLay.manLen (l : ArcLay) : Nat := l.manHead + (if l.sig1 then 4627 else 0) + (if l.sig2 then 96 else 0)
def ArcTgt.lba (x : ArcTgt) : Nat := 2 ^ x.lbads

/-- The first field of a layout out of range, as a byte of the parameter block. -/
def ArcLay.bad (l : ArcLay) (atK atFix : Nat) : Option Nat :=
  if l.size = 0 ∨ 2 ^ 48 < l.size then some (blkAt 32)
  else if l.k = 0 ∨ 32 < l.k then some (blkAt atK)
  else if 16 < l.m ∨ 48 < l.n then some (blkAt (atK + 1))
  else if l.ulog < 16 ∨ 22 < l.ulog then some (blkAt (atK + 2))
  else if 2 < l.cipher then some (blkAt (atK + 3))
  else if l.fix = 0 ∨ 3 < l.fix then some (blkAt atFix)
  else if l.sig = 0 ∨ 3 < l.sig then some (blkAt (atFix + 1))
  else none

/-! GF(2^8) with 0x11D (R321). -/

def gfDouble (a : Nat) : Nat := if a < 128 then 2 * a else (2 * a) ^^^ 0x11D

def gfMul (a b : Nat) : Nat :=
  ((List.range 8).foldl (fun (x : Nat × Nat) i => (if b / 2 ^ i % 2 = 1 then x.1 ^^^ x.2 else x.1, gfDouble x.2)) (0, a)).1

def gfInv (a : Nat) : Nat := ((List.range 256).find? (fun x => decide (gfMul a x = 1))).getD 0

/-- P[i][j]. -/
def gfP (k i j : Nat) : Nat := gfInv ((k + i) ^^^ j)

/-- Row s of G = [I ; P]. -/
def gfRow (k s : Nat) : List Nat :=
  (List.range k).map (fun j => if s < k then b2n (decide (s = j)) else gfP k (s - k) j)

def gfScale (p : Nat) (b : List Byte) : List Byte := b.map (fun x => BitVec.ofNat 8 (gfMul p x.toNat))

/-- The sum of units under coefficients. -/
def gfSum (coef : List Nat) (units : List (List Byte)) (u : Nat) : List Byte :=
  (coef.zip units).foldl (fun a x => xorBytes a (gfScale x.1 x.2)) (List.replicate u 0#8)

/-- Unit s of a stripe from its data units. -/
def gfUnit (k s u : Nat) (data : List (List Byte)) : List Byte := gfSum (gfRow k s) data u

/-- Solve rows of G for the data units by elimination, column after column. -/
def gfSolve : List Nat → List (List Nat × List Byte) → List (List Nat × List Byte)
  | [], rows => rows
  | c :: cs, rows =>
    match (rows.drop c).findIdx? (fun r => decide (r.1.getD c 0 ≠ 0)) with
    | none => rows
    | some i =>
      let pr := rows.getD (c + i) ([], [])
      let v := gfInv (pr.1.getD c 0)
      let p := (pr.1.map (gfMul v), gfScale v pr.2)
      let rest := rows.eraseIdx (c + i)
      let rows := rest.take c ++ [p] ++ rest.drop c
      gfSolve cs (rows.zipIdx.map (fun r =>
        if r.2 = c then r.1
        else
          let f := r.1.1.getD c 0
          (List.zipWith (fun a b => a ^^^ gfMul f b) r.1.1 p.1, xorBytes r.1.2 (gfScale f p.2))))

/-- The data units from K units by shard. -/
def gfDecode (k : Nat) (units : Kv (List Byte)) : List (List Byte) :=
  (gfSolve (List.range k) (units.map (fun x => (gfRow k x.1, x.2)))).map Prod.snd

/-! Hashes, keys, records (R323, R324). -/

def ascii (s : String) : List Byte := s.toList.map (fun c => BitVec.ofNat 8 c.toNat)

def sha256 (b : List Byte) : List Byte := primBytes 12 [primNat 256, b] 32
def sha3_256 (b : List Byte) : List Byte := primBytes 12 [primNat 3256, b] 32
def sha384 (b : List Byte) : List Byte := primBytes 12 [primNat 384, b] 48

/-- sk[s]; HKDF with the object ID as salt. -/
def ArcLay.key (l : ArcLay) (material : List Byte) (s : Nat) : List Byte :=
  hkdf 0 material l.objId (ascii "gw3216-arc-shard" ++ beBytes 4 l.gen ++ beBytes 1 s) 32

def ArcLay.keyList (l : ArcLay) (material : List Byte) : List (List Byte) :=
  if l.cipher = 0 then List.replicate l.n [] else (List.range l.n).map (l.key material)

def ArcLay.check (l : ArcLay) (material : List Byte) : List Byte :=
  if l.cipher = 0 then List.replicate 16 0#8 else hkdf 0 material l.objId (ascii "gw3216-arc-check") 16

/-- Bytes 0 to 95 of a shard header. -/
def ArcLay.head (l : ArcLay) (s : Nat) : List Byte :=
  fitTo 96 (beBytes 4 0x57534844 ++ beBytes 1 1 ++ beBytes 1 l.cipher ++ beBytes 1 l.k ++ beBytes 1 l.m ++ beBytes 1 s ++ beBytes 1 l.ulog ++
    beBytes 2 0 ++ beBytes 4 l.gen ++ fitTo 32 l.objId ++ beBytes 8 l.size ++ beBytes 8 l.stripes ++ fitTo 16 l.label)

def ArcLay.header (l : ArcLay) (s : Nat) : List Byte := l.head s ++ sha256 (l.head s)

def arcAlg (cipher : Nat) : Nat := if cipher = 1 then 2 else 4
def arcNonce (s t : Nat) : List Byte := beBytes 1 s ++ [0, 0, 0] ++ beBytes 8 t

/-- Record t of shard s. -/
def ArcLay.seal_ (l : ArcLay) (key : List Byte) (s t : Nat) (unit : List Byte) : List Byte :=
  if l.cipher = 0 then unit ++ (sha256 (l.head s ++ beBytes 8 t ++ unit)).take 16
  else aeadSeal (arcAlg l.cipher) key (arcNonce s t) (l.head s ++ beBytes 8 t) unit

/-- The unit of a record that verifies. -/
def ArcLay.unseal (l : ArcLay) (key : List Byte) (s t : Nat) (r : List Byte) : Option (List Byte) :=
  if l.cipher = 0 then
    let u := r.take (r.length - 16)
    if r.drop (r.length - 16) = (sha256 (l.head s ++ beBytes 8 t ++ u)).take 16 then some u else none
  else aeadOpen (arcAlg l.cipher) key (arcNonce s t) (l.head s ++ beBytes 8 t) r

/-! Manifests (R328). -/

/-- R328: bytes 0 to T − 1 of a manifest. -/
def ArcLay.manBody (l : ArcLay) (tgts : List ArcTgt) (obj prev check uid : List Byte) (created : Nat) (files : List (List Byte))
    (failed : List Nat) : List Byte :=
  let fixed := fitTo 256 (beBytes 4 0x574D414E ++ beBytes 1 1 ++ beBytes 1 l.cipher ++ beBytes 1 l.k ++ beBytes 1 l.m ++ beBytes 1 l.ulog ++
    beBytes 1 l.fix ++ beBytes 1 l.sig ++ [0] ++ beBytes 4 l.gen ++ fitTo 32 l.objId ++ beBytes 8 l.size ++ beBytes 8 l.stripes ++ fitTo 16 l.label ++
    (if l.fix % 2 = 1 then sha256 obj else List.replicate 32 0#8) ++ (if l.fix / 2 = 1 then sha3_256 obj else List.replicate 32 0#8) ++
    beBytes 8 created ++ fitTo 32 prev ++ fitTo 16 uid ++ fitTo 16 check)
  fixed ++ (tgts.zipIdx).flatMap (fun x =>
    let (g, s) := x
    let miss := failed.contains s
    fitTo 96 (beBytes 1 s ++ beBytes 1 (b2n miss) ++ [0, 0] ++ beBytes 4 g.nsid ++ fitTo 16 g.label ++ beBytes 8 g.slba ++ beBytes 8 l.fileLen ++
      (if miss then List.replicate 32 0#8 else sha256 (files.getD s [])) ++ beBytes 1 g.lbads))

/-- The layout a manifest states; it keeps the fixity and signature flags of the manifest. -/
def arcOfMan (m : List Byte) : ArcLay :=
  { k := beAt m 6 1, m := beAt m 7 1, ulog := beAt m 8 1, cipher := beAt m 5 1, fix := beAt m 9 1, sig := beAt m 10 1, gen := beAt m 12 4
    objId := slice m 16 32, label := slice m 64 16, size := beAt m 48 8 }

/-- Shards a manifest marks MISSING. -/
def manMissing (m : List Byte) (n : Nat) : List Nat := (List.range n).filter (fun s => decide (beAt m (257 + 96 * s) 1 % 2 = 1))
def manDigest (m : List Byte) (s : Nat) : List Byte := slice m (296 + 96 * s) 32

/-- R334: the object's fixity agrees with a manifest. -/
def manFixity (l : ArcLay) (m obj : List Byte) : Bool :=
  (decide (l.fix % 2 = 0) || decide (sha256 obj = slice m 80 32)) && (decide (l.fix / 2 = 0) || decide (sha3_256 obj = slice m 112 32))

/-- The signatures over T bytes: ML-DSA-87 with its context string, then ECDSA P-384 over their SHA-384. -/
def ArcLay.signed (l : ArcLay) (body sign1 sign2 rnd : List Byte) : List Byte :=
  body ++ (if l.sig1 then primBytes 8 [primNat 0x15, sign1, ascii "gw3216-manifest", body, rnd] 4627 else []) ++
    (if l.sig2 then primBytes 8 [primNat 0x29, sign2, sha384 body, rnd] 96 else [])

def ArcLay.sigsGood (l : ArcLay) (m pub : List Byte) : Bool :=
  let body := slice m 0 l.manHead
  let o := if l.sig1 then 4627 else 0
  (!l.sig1 || Config.primOk 10 [primNat 0x16, slice pub 0 2592, ascii "gw3216-manifest", body, slice m l.manHead 4627]) &&
    (!l.sig2 || Config.primOk 10 [primNat 0x2A, slice pub (if l.sig1 then 2592 else 0) 97, sha384 body, slice m (l.manHead + o) 96])

def ArcLay.sigs (l : ArcLay) : Nat := b2n l.sig1 + b2n l.sig2

/-! Target tables (R331, R332). -/

def arcTgt (b : List Byte) (s : Nat) : ArcTgt :=
  let o := 48 * s
  { ctx := leAt b o 4 % 2 ^ 20, nsid := leAt b (o + 4) 4, slba := leAt b (o + 8) 8, nlb := leAt b (o + 16) 8, lbads := leAt b (o + 24) 1
    label := slice b (o + 32) 16 }

def arcTable (b : List Byte) (n : Nat) : List ArcTgt := (List.range n).map (arcTgt b)

def ArcTgt.overlaps (a b : ArcTgt) : Bool := decide (a.ctx = b.ctx ∧ a.nsid = b.nsid ∧ a.slba < b.slba + b.nlb ∧ b.slba < a.slba + a.nlb)
def ArcTgt.same (a b : ArcTgt) : Bool := decide (a.ctx = b.ctx ∧ a.nsid = b.nsid ∧ a.slba = b.slba ∧ a.nlb = b.nlb)

/-- Two extents partly overlap (R161). -/
def partOverlap (a b : List ArcTgt) : Bool := a.any (fun x => b.any (fun y => x.overlaps y && !x.same y))

/-- The first entry of a table that is out of range: a reserved byte, LBADS, the extent. -/
def Dev.tableBad (d : Dev) (b : List Byte) (l : ArcLay) (manLen : Nat) : Option Nat :=
  (List.range l.n).findSome? (fun s =>
    let x := arcTgt b s
    let o := 48 * s
    if leAt b (o + 25) 7 ≠ 0 then some (blkAt (o + 25))
    else if !(decide (x.lbads = 9 ∨ x.lbads = 12)) || (d.nvmf x.ctx).elim false (fun n => decide (n.lbads ≠ x.lbads)) then some (blkAt (o + 24))
    else if x.nlb < ceilDiv l.fileLen x.lba + ceilDiv manLen x.lba then some (blkAt (o + 16))
    else none)

/-- Every context is an NVMF initiator of the tenancy. -/
def Dev.tableCtx (d : Dev) (t : Nat) (x : List ArcTgt) : Bool :=
  x.all (fun g => decide (d.stoTen g.ctx = t) && (d.nvmf g.ctx).elim false (fun n => !n.target))

end Sys2Proof.Machine
end

