-- ==== Sys2Proof/Machine/Archive.lean ====
section
/-! DEFINITION. The archive engine (R319 to R346). -/

namespace Sys2Proof.Machine

def Dev.setArc (d : Dev) (x : ArcPart) : Dev := { d with arc := x }
def Dev.work (d : Dev) (id : Nat) : Option ArcWork := d.arc.works.find? (fun w => decide (w.id = id))
def Dev.setWork (d : Dev) (w : ArcWork) : Dev :=
  d.setArc { d.arc with works := d.arc.works.map (fun x => if x.id = w.id then w else x) }
def Dev.delWork (d : Dev) (id : Nat) : Dev := d.setArc { d.arc with works := d.arc.works.filter (fun x => decide (x.id ≠ id)) }

def Dev.stageUsed (d : Dev) : Nat := sumNat ((d.arc.works.filter (fun w => w.granted)).map (fun w => w.set))

/-- The job a work runs for. -/
def Dev.workJob (d : Dev) (w : ArcWork) : Option Job := w.cur.bind (d.jobFind w.sq)

/-- R339: a completion of an archive opcode: bytes moved, map of shards, D3. -/
def arcRes (st det bytes map d3 : Nat) : JobRes :=
  { status := st, detail := det, len := bytes % 2 ^ 32, d2 := packD [(map % 2 ^ 48, 0), (bytes / 2 ^ 32 % 2 ^ 16, 48)], d3 := d3 }

def mapOf (l : List Nat) : Nat := sumNat (l.eraseDups.map (2 ^ ·))

/-- The job of a work ends: its staging is free; a session goes on after PHASE 1 and 2 (R333). -/
def Dev.workEnd (d : Dev) (w : ArcWork) (st det bytes map d3 : Nat) : Dev :=
  let inSession := decide (w.phase = 1 ∨ w.phase = 2) && w.session.isSome
  let d := match w.cur with
    | some pos => d.jobEnd w.sq pos (if w.phase = 1 ∨ w.phase = 2 then arcRes st det bytes 0 0 else arcRes st det bytes map d3)
    | none => d
  if inSession then d.setWork { w with cur := none, granted := false } else d.delWork w.id

/-- Bytes of the present job so far. -/
def ArcWork.moved (w : ArcWork) : Nat := w.off - w.base

/-- A block command of the engine; a target that cannot take it has failed at once. -/
def Dev.arcSubmit (d : Dev) (w : ArcWork) (x : ArcTgt) (b : BlkCmd) : Dev :=
  match (d.nvmf x.ctx).filter (fun n => decide (d.stoTen x.ctx = w.ten) && !n.target && !n.error && !d.linkDown n) with
  | some _ => d.nvSubmit x.ctx b
  | none => d.setArc { d.arc with acks := d.arc.acks ++ [{ b with done := none }] }

/-- Read bytes [lo, lo + n) of a shard file. -/
def Dev.arcRead (d : Dev) (w : ArcWork) (x : ArcTgt) (s what lo n : Nat) : Dev :=
  let l0 := lo / x.lba
  let nlb := ceilDiv (lo + n) x.lba - l0
  d.arcSubmit w x { for_ := .arc w.id s what, op := 2, nsid := x.nsid, slba := x.slba + l0, nlb := nlb, len := nlb * x.lba }

/-- Write bytes from an LBA of an extent on, whole LBAs, with FUA (R331). -/
def Dev.arcWrite (d : Dev) (w : ArcWork) (x : ArcTgt) (s what lba : Nat) (b : List Byte) : Dev :=
  let b := fitTo (ceilDiv b.length x.lba * x.lba) b
  d.arcSubmit w x { for_ := .arc w.id s what, op := 1, nsid := x.nsid, slba := x.slba + lba, nlb := b.length / x.lba, fua := true, data := b
                    len := b.length }

/-! Writing (R335, R337, R340). -/

def addAt (l : List Nat) (i k : Nat) : List Nat := l.set i (l.getD i 0 + k)

/-- Send what a shard file holds beyond what was sent: whole LBAs, or at the end of the file all of it, padded (R327). -/
def Dev.shardSend (d : Dev) (w : ArcWork) (x : ArcWr) (s : Nat) (last : Bool) : Dev × ArcWr :=
  let g := x.tgts.getD s default
  let f := x.files.getD s []
  let sent := x.sent.getD s 0
  let upTo := if last then f.length else f.length / g.lba * g.lba
  if x.failed.contains s ∨ upTo ≤ sent then (d, x)
  else (d.arcWrite w g s 0 (sent / g.lba) (slice f sent (upTo - sent)), { x with sent := x.sent.set s upTo, out := addAt x.out s 1 })

/-- Encode, protect and write one stripe (R335 steps 1 to 5). -/
def Dev.stripeOut (d : Dev) (w : ArcWork) (x : ArcWr) (data : List Byte) : Dev × ArcWr :=
  let l := x.lay
  let u := l.unit x.t
  let units := (List.range l.k).map (fun j => slice data (j * u) u)
  let files := x.files.zipIdx.map (fun f =>
    (if x.t = 0 then l.header f.2 else f.1) ++ l.seal_ (x.keys.getD f.2 []) f.2 x.t (gfUnit l.k f.2 u units))
  let x := { x with files := files, t := x.t + 1, obj := x.obj ++ data }
  let last := decide (x.t = l.stripes)
  (List.range l.n).foldl (fun (a : Dev × ArcWr) s => a.1.shardSend w a.2 s last) (d, x)

def ArcWr.idle (x : ArcWr) : Bool := x.out.all (fun n => decide (n = 0))
def ArcWr.whole (x : ArcWr) : Bool := decide (x.t = x.lay.stripes)
/-- Shards written. -/
def ArcWr.okShards (x : ArcWr) : List Nat := (List.range x.lay.n).filter (fun s => !x.failed.contains s)
def ArcWr.lowFailed (x : ArcWr) : Nat := ((List.range x.lay.n).find? (fun s => x.failed.contains s)).getD 0

def Dev.uid (d : Dev) : List Byte := ((List.range 4).flatMap (fun i => leBytes 4 (d.regN (Reg.ID_UID i)))).reverse

/-- Build and sign the manifest and write a copy behind each written shard (R327, R335). Without entropy the job ends (R343). -/
def Dev.manStart (d : Dev) (w : ArcWork) (x : ArcWr) : Dev :=
  let l := x.lay
  if d.noEntropy then d.workEnd w St.INTEGRITY 0x20 w.moved (mapOf x.okShards) 0
  else
    let body := l.manBody x.tgts x.obj x.prev x.check d.uid (d.nowNs / 1000000000) x.files x.failed
    let (rnd, d) := d.drbg 32 false
    let d := d.tollAdd w.ten w.gen 4 l.sigs
    let m := l.signed body x.sign1 x.sign2 rnd
    let x := { x with man := m, stage := 1 }
    let (d, x) := x.okShards.foldl (fun (a : Dev × ArcWr) s =>
      let g := x.tgts.getD s default
      (a.1.arcWrite w g s 1 (ceilDiv l.fileLen g.lba) m, { a.2 with out := addAt a.2.out s 1 })) (d, x)
    d.setWork { w with wr := some x }

/-- R342: the migration record. -/
def Dev.journalAdd (d : Dev) (w : ArcWork) (x : ArcWr) : List Byte × Dev :=
  let a := d.arc
  let prev := if a.seq = 0 then List.replicate 32 0#8 else sha256 (((kvFind ((a.seq - 1) % 1048576) a.journal).getD (0, [])).2)
  let r := fitTo 256 (beBytes 4 0x574D4947 ++ [1, 0, 0, 0] ++ beBytes 8 a.seq ++ beBytes 8 (d.nowNs / 1000000000) ++ beBytes 4 (d.nowNs % 1000000000) ++
    beBytes 4 (w.ten % 4096) ++ fitTo 32 x.lay.objId ++ fitTo 32 x.prev ++ sha256 x.man ++ d.uid ++ prev)
  let d := if 1048576 ≤ a.seq then d.setBit Reg.ARC_GSTAT 0 else d
  (r, (d.setArc { a with journal := kvPut (a.seq % 1048576) (a.seq, r) a.journal, seq := a.seq + 1 }).count Reg.ARC_MIG_CNT)

/-- Every copy is acknowledged: the manifest goes to the host and the job completes (R335, R340). -/
def Dev.putDone (d : Dev) (w : ArcWork) (x : ArcWr) : Dev :=
  match d.workJob w with
  | none => d.delWork w.id
  | some j =>
    if w.op = 0x23 then
      let d := d.jobWrite j j.firstE.addr x.man j.firstE.ro
      let (r, d) := d.journalAdd w x
      (d.jobWrite j w.recAddr r false).workEnd w 0 0 x.man.length (mapOf x.okShards) x.man.length
    else
      let d := (d.jobWrite j w.manOut x.man false).count Reg.ARC_PUT_CNT
      d.workEnd w 0 (b2n !x.failed.isEmpty) w.moved (mapOf x.okShards) x.man.length

/-- Read every new shard back (R340 step 5), 65,536 LBAs a command. -/
def Dev.backStart (d : Dev) (w : ArcWork) (x : ArcWr) : Dev :=
  let (d, x) := (List.range x.lay.n).foldl (fun (a : Dev × ArcWr) s =>
    let g := x.tgts.getD s default
    let step := 65536 * g.lba
    let k := ceilDiv x.lay.fileLen step
    ((List.range k).foldl (fun (d : Dev) i => d.arcRead w g s (4 + 8 * i) (i * step) (min step (x.lay.fileLen - i * step))) a.1,
      { a.2 with out := addAt a.2.out s k })) (d, { x with stage := 2 })
  d.setWork { w with wr := some x }

/-- Every new shard that was read back is what was written. -/
def ArcWr.backGood (x : ArcWr) : Bool :=
  (List.range x.lay.n).all (fun s =>
    let got := (x.back.filter (fun b => decide (b.1 / 65536 = s))).flatMap Prod.snd
    decide (sha256 (fitTo x.lay.fileLen got) = sha256 (x.files.getD s [])))

/-- Go on with an object that is written as its acknowledgements come. The job that ends the object's session, or needs none, builds the
manifest (R333). -/
def Dev.wrGo (d : Dev) (id : Nat) : Dev :=
  match d.work id with
  | none => d
  | some w =>
    match w.wr, d.workJob w with
    | some x, some j =>
      if !x.idle ∨ j.res.isSome then d
      else if x.tol < x.failed.length ∧ (x.whole ∨ w.moved = w.want) then
        d.workEnd w St.REMOTE (0x100 + x.lowFailed) w.moved (mapOf x.okShards) 0
      else if x.stage = 1 then d.putDone w x
      else if x.stage = 2 then
        if x.backGood then d.manStart w x
        else (d.count Reg.ARC_FIXITY_FAIL).workEnd w St.INTEGRITY 0x35 0 (mapOf x.okShards) 0
      else if x.whole ∧ ¬(w.op = 0x20 ∧ (w.phase = 1 ∨ w.phase = 2)) then (if w.op = 0x23 then d.backStart w x else d.manStart w x)
      else if w.op = 0x20 ∧ w.moved = w.want then d.workEnd w 0 0 w.moved 0 0
      else d
    | _, _ => d

/-! Reading (R336). -/

/-- The next parity shard that is not MISSING and not in use. -/
def ArcRd.spare (x : ArcRd) : Option Nat :=
  ((List.range x.lay.n).drop x.lay.k).find? (fun s => !x.missing.contains s && !x.tried.contains s)

def Dev.headRead (d : Dev) (w : ArcWork) (x : ArcRd) (s : Nat) : Dev × ArcRd :=
  (d.arcRead w (x.tgts.getD s default) s 2 0 128, { x with hdrs := x.hdrs ++ [s], use := x.use ++ [s], tried := x.tried ++ [s] })

/-- Take another shard in place of one that is lost. -/
def Dev.rdReplace (d : Dev) (w : ArcWork) (x : ArcRd) : Dev × ArcRd :=
  match if w.op = 0x22 then none else x.spare with
  | some s => d.headRead w x s
  | none => (d, x)

/-- Record reads of the stripe in progress, once every header is in. -/
def Dev.rdAsk (d : Dev) (w : ArcWork) (x : ArcRd) : Dev × ArcRd :=
  if !x.hdrs.isEmpty ∨ x.tEnd ≤ x.t then (d, x)
  else
    (x.hdrOk.filter (fun s => !x.bad.contains s && !x.asked.contains s)).foldl (fun (a : Dev × ArcRd) s =>
      (a.1.arcRead w (x.tgts.getD s default) s (3 + 8 * x.t) (x.lay.recAt x.t) (x.lay.unit x.t + 16),
        { a.2 with asked := a.2.asked ++ [s], outst := a.2.outst ++ [s] })) (d, x)

/-- Go on with reads: ask for records; when none is out and too few verified, another shard, or the job ends. -/
def Dev.rdGo (d : Dev) (id : Nat) : Dev :=
  match d.work id with
  | none => d
  | some w =>
    match w.rd, d.workJob w with
    | some x, some j =>
      if j.res.isSome ∨ !w.granted then d
      else
        let (d, x) := d.rdAsk w x
        let d := d.setWork { w with rd := some x }
        if w.op = 0x22 ∨ x.tEnd ≤ x.t ∨ !x.hdrs.isEmpty ∨ !x.outst.isEmpty ∨ x.lay.k ≤ x.good.length then d
        else
          match x.spare with
          | some s =>
            let (d, x) := d.headRead w x s
            d.setWork { w with rd := some x }
          | none => d.workEnd { w with rd := some x } St.INTEGRITY 0x30 (if w.op = 0x21 then w.moved else 0) (mapOf x.usedMap) (x.decoded % 2 ^ 31)
    | _, _ => d

/-- Note a state of OBJ_VERIFY's report; the first one stands. -/
def ArcRd.note (x : ArcRd) (s st t : Nat) : ArcRd := if (kvFind s x.states).isSome then x else { x with states := kvPut s (st, t) x.states }

/-- Place in host memory the object bytes a GET job wants and the device holds (R336 step 4). -/
def Dev.getPlace (d : Dev) (w : ArcWork) (x : ArcRd) : Dev × ArcWork :=
  let first := x.t0 * (x.lay.k * x.lay.u)
  let hi := min (first + x.obj.length) (w.base + w.want)
  if hi ≤ w.off then (d, w)
  else
    let b := slice x.obj (w.off - first) (hi - w.off)
    match d.workJob w with
    | none => (d, w)
    | some j => ((segsAt j.segs (w.off - w.base) b).foldl (fun (d : Dev) s => d.jobWrite j s.1 s.2 j.firstE.ro) d, { w with off := hi })

/-- A GET job whose bytes are all placed ends, with the fixity check where R334 asks for it. -/
def Dev.getEnd (d : Dev) (w : ArcWork) (x : ArcRd) : Dev :=
  if w.off < w.base + w.want then d.setWork { w with rd := some x }
  else
    let check := decide (x.lo = 0 ∧ w.off = x.lay.size ∧ (w.phase = 0 ∨ w.phase = 3))
    let d3 := (if check then 2 ^ 31 else 0) + min x.decoded (2 ^ 31 - 1)
    let w := { w with rd := some x }
    if check ∧ !manFixity x.lay x.man x.obj then (d.count Reg.ARC_FIXITY_FAIL).workEnd w St.INTEGRITY 0x31 w.moved (mapOf x.usedMap) d3
    else (d.count Reg.ARC_GET_CNT).workEnd w 0 0 w.moved (mapOf x.usedMap) d3

/-- R336: the report of OBJ_VERIFY, and the end of its job. -/
def Dev.verifyEnd (d : Dev) (w : ArcWork) (x : ArcRd) : Dev :=
  let l := x.lay
  let x := (List.range l.n).foldl (fun (x : ArcRd) s =>
    if x.missing.contains s then x.note s 1 0xFFFFFFFF
    else if sha256 (fitTo l.fileLen ((kvFind s x.files).getD [])) ≠ manDigest x.man s then x.note s 3 0xFFFFFFFF else x) x
  let good := (List.range l.n).filter (fun s => (kvFind s x.states).isNone)
  let fix := if x.level < 2 ∨ x.lost then 0 else if manFixity l x.man x.obj then 1 else 2
  let rep := leBytes 1 x.level ++ leBytes 1 l.k ++ leBytes 1 l.m ++ leBytes 1 fix ++ leBytes 4 x.parity ++ leBytes 8 0 ++
    (List.range l.n).flatMap (fun s =>
      let e := (kvFind s x.states).getD (0, 0xFFFFFFFF)
      leBytes 1 e.1 ++ [0, 0, 0] ++ leBytes 4 e.2)
  let lost := x.lost || (decide (x.level = 0) && decide (good.length < l.k))
  let bad := l.n - good.length
  let d := match d.workJob w with
    | some j => d.jobWrite j j.firstE.addr rep j.firstE.ro
    | none => d
  let d := (if fix = 2 then d.count Reg.ARC_FIXITY_FAIL else d).count Reg.ARC_VERIFY_CNT
  let (st, det) := if lost then (St.INTEGRITY, 0x30) else if fix = 2 then (St.INTEGRITY, 0x31) else if bad ≠ 0 then (St.INTEGRITY, 0x32) else (0, 0)
  d.workEnd w st det rep.length (mapOf good) bad

/-- One stripe of OBJ_VERIFY: with every record of it in. -/
def ArcRd.verifyStripe (x : ArcRd) : ArcRd :=
  let l := x.lay
  let x := if x.level ≠ 0 ∧ x.good.length < l.k then { x with lost := true } else x
  let x :=
    if x.level < 2 ∨ x.good.length < l.k then x
    else
      let data := gfDecode l.k (x.good.take l.k)
      let u := l.unit x.t
      let wrong := (x.good.filter (fun g => decide (l.k ≤ g.1) && decide (gfUnit l.k g.1 u data ≠ g.2))).map Prod.fst
      let x := { x with obj := x.obj ++ data.flatten.take (l.bytesIn x.t) }
      match wrong with
      | [] => x
      | s :: _ => { x with parity := x.parity + 1 }.note s 6 x.t
  { x with t := x.t + 1, good := [], asked := [] }

/-- One stripe read and decoded (R336 steps 2 and 3). -/
def Dev.stripeIn (d : Dev) (x : ArcRd) : Dev × ArcRd × List Byte :=
  let l := x.lay
  let absent := (List.range l.k).any (fun s => (kvFind s x.good).isNone)
  let data := if absent then gfDecode l.k x.good else x.good.map Prod.snd
  let b := data.flatten.take (l.bytesIn x.t)
  let x := { x with t := x.t + 1, good := [], asked := [], outst := [], obj := x.obj ++ b, usedMap := x.usedMap ++ x.good.map Prod.fst
                    decoded := x.decoded + b2n absent }
  (if absent then d.count Reg.ARC_DECODED else d, x, b)

/-! What stands ready in a work (R344). -/

/-- Bytes of a gather that arrived without a gap from an offset on. -/
def contig : Kv (List Byte) → Nat → List Byte
  | [], _ => []
  | (o, b) :: r, n => if o = n then b ++ contig r (n + b.length) else []

/-- Object bytes of a PUT job that came and were not taken. -/
def Dev.putAvail (d : Dev) (w : ArcWork) : List Byte := ((d.workJob w).elim [] (fun j => contig j.got 0)).drop w.moved

def ArcWr.needs (x : ArcWr) : Nat := x.lay.bytesIn x.t

/-- The reading side of a work has a stripe to process. -/
def ArcWork.rdReady (w : ArcWork) : Bool :=
  w.rd.elim false (fun x => decide (x.t < x.tEnd) &&
    (if w.op = 0x22 then x.hdrs.isEmpty && x.outst.isEmpty else decide (x.lay.k ≤ x.good.length)))

/-- The writing side has one: an in-place migration writes nothing before the whole object is read (R341). -/
def Dev.wrReady (d : Dev) (w : ArcWork) : Bool :=
  w.wr.elim false (fun x => decide (x.stage = 0) && !x.whole &&
    (if w.op = 0x23 then (decide (x.needs ≤ x.inbuf.length)) && (!w.inPlace || w.rd.elim false (fun r => decide (r.t = r.tEnd)))
     else decide (x.needs ≤ x.inbuf.length + (d.putAvail w).length) || (decide (w.moved < w.want) && decide ((d.putAvail w).length + w.moved = w.want))))

def Dev.workReady (d : Dev) (w : ArcWork) : Bool :=
  w.granted && (d.workJob w).elim false (fun j => j.res.isNone) && (w.rdReady || d.wrReady w)

/-- One stripe of a work. -/
def Dev.workStripe (d : Dev) (w : ArcWork) : Dev :=
  if w.rdReady then
    match w.rd with
    | none => d
    | some x =>
      if w.op = 0x22 then
        let x := x.verifyStripe
        if x.t = x.tEnd then d.verifyEnd { w with rd := some x } x
        else (d.setWork { w with rd := some x }).rdGo w.id
      else
        let (d, x, b) := d.stripeIn x
        if w.op = 0x21 then
          let (d, w) := d.getPlace w x
          (d.getEnd w x).rdGo w.id
        else
          let w := { w with rd := some x, wr := w.wr.map (fun y => { y with inbuf := y.inbuf ++ b }) }
          if x.t = x.tEnd ∧ !manFixity x.lay x.man x.obj then
            (d.count Reg.ARC_FIXITY_FAIL).workEnd w St.INTEGRITY 0x31 0 0 0
          else (d.setWork w).rdGo w.id
  else
    match w.wr with
    | none => d
    | some x =>
      let avail := if w.op = 0x23 then [] else d.putAvail w
      let take := min avail.length (x.needs - x.inbuf.length)
      let inb := x.inbuf ++ avail.take take
      let w := { w with off := w.off + take }
      if inb.length < x.needs then (d.setWork { w with wr := some { x with inbuf := inb } }).wrGo w.id
      else
        let (d, x) := d.stripeOut w { x with inbuf := inb.drop x.needs } (inb.take x.needs)
        (d.setWork { w with wr := some x }).wrGo w.id

/-- Works whose job has ended otherwise (a failed read of its data, R53) let their staging go. -/
def Dev.arcReap (d : Dev) : Dev :=
  let ws := d.arc.works.filterMap (fun (w : ArcWork) =>
    if w.cur.isNone then some w
    else if (d.workJob w).elim false (fun j => j.res.isNone) then some w
    else if w.session.isSome ∧ (w.phase = 1 ∨ w.phase = 2) then some { w with cur := none, granted := false }
    else none)
  d.setArc { d.arc with works := ws }

/-- ARCHIVE_STRIPE: the running works share the engine by stripe, in round robin (R344). Poison found in the staging range ends
the job whose stripe it is (R31, R343). -/
def Dev.archiveStripe (d : Dev) (ecc : Ecc) : Dev :=
  let d := d.arcReap
  let ready := d.arc.works.filter d.workReady
  match (ready.filter (fun w => decide (d.arc.turn < w.id)) ++ ready).head? with
  | none => d
  | some w =>
    let d := (d.setArc { d.arc with turn := w.id }).applyEcc ecc
    if ecc.ueLines.any (fun a => decide (d.arc.stageBase ≤ a ∧ a < d.arc.stageBase + d.arc.stageSize)) then
      d.workEnd w St.INTEGRITY 0x40 w.moved 0 0
    else d.workStripe w

/-- STAGING_GRANT (R341): the first waiting work in the order of arrival takes its staging, if it is free. -/
def Dev.stagingGrant (d : Dev) : Dev :=
  let d := d.arcReap
  match d.arc.works.find? (fun w => w.cur.isSome && !w.granted) with
  | none => d
  | some w =>
    if d.arc.stageSize < d.stageUsed + w.set ∨ 64 ≤ (d.arc.works.filter (fun x => x.granted)).length then d
    else
      let w := { w with granted := true }
      let d := d.setWork w
      match w.rd with
      | none => d.wrGo w.id
      | some x =>
        if w.op = 0x21 ∧ w.phase ≠ 0 ∧ w.phase ≠ 1 then
          -- bytes of a session that the device holds already
          let (d, w) := d.getPlace w x
          (d.getEnd w x).rdGo w.id
        else
          let (d, x) := x.use.foldl (fun (a : Dev × ArcRd) s =>
            (a.1.arcRead w (x.tgts.getD s default) s 2 0 128, { a.2 with hdrs := a.2.hdrs ++ [s] })) (d, x)
          (d.setWork { w with rd := some x }).rdGo w.id

/-! Acknowledgements (R336, R337). -/

/-- Bytes of a shard file in a command that starts at an LBA: without LBA padding (R490). -/
def shardBytes (l : ArcLay) (g : ArcTgt) (b : BlkCmd) : Nat := min b.len (l.fileLen - (b.slba - g.slba) * g.lba)

def BlkCmd.good (b : BlkCmd) : Bool := b.done.elim false (fun r => decide (r.2 % 2048 = 0))

/-- SHARD_WRITE_ACK. -/
def Dev.shardAck (d : Dev) (b : BlkCmd) : Dev :=
  match b.for_ with
  | .arc id s what =>
    match d.work id with
    | none => d
    | some w =>
      match w.wr with
      | none => d
      | some x =>
        let x := { x with out := x.out.set s (x.out.getD s 0 - 1) }
        let d := if b.good ∧ what = 0 then d.tollAdd w.ten w.gen 2 (shardBytes x.lay (x.tgts.getD s default) b) else d
        let new := !b.good && !x.failed.contains s
        let x := if new then { x with failed := x.failed ++ [s] } else x
        ((if new then d.count Reg.ARC_TGT_FAIL else d).setWork { w with wr := some x }).wrGo id
  | _ => d

/-- A header came (R336). -/
def Dev.headDone (d : Dev) (w : ArcWork) (x : ArcRd) (s : Nat) (b : BlkCmd) : Dev :=
  let x := { x with hdrs := x.hdrs.filter (· ≠ s) }
  let h := fitTo 128 b.got
  if !b.good then
    let (d, x) := (d.count Reg.ARC_TGT_FAIL).rdReplace w ({ x with bad := x.bad ++ [s] }.note s 5 0xFFFFFFFF)
    (d.setWork { w with rd := some x }).rdGo w.id
  else
    let d := d.tollAdd w.ten w.gen 3 128
    if h = x.lay.header s then
      (d.setWork { w with rd := some { x with hdrOk := x.hdrOk ++ [s], files := if w.op = 0x22 then kvPut s h x.files else x.files } }).rdGo w.id
    else
      let (d, x) := (d.count Reg.ARC_HDR_FAIL).rdReplace w ({ x with bad := x.bad ++ [s] }.note s 2 0xFFFFFFFF)
      (d.setWork { w with rd := some x }).rdGo w.id

/-- A record came: verified, or an erasure (R336, R343). Records after the first K are discarded. -/
def Dev.recordDone (d : Dev) (w : ArcWork) (x : ArcRd) (s t : Nat) (b : BlkCmd) : Dev :=
  let l := x.lay
  let g := x.tgts.getD s default
  let len := l.unit t + 16
  let d := if b.good then d.tollAdd w.ten w.gen 3 len else d
  if t ≠ x.t then d
  else
    let x := { x with outst := x.outst.filter (· ≠ s) }
    if !b.good then
      let (d, x) := (d.count Reg.ARC_TGT_FAIL).rdReplace w ({ x with bad := x.bad ++ [s] }.note s 5 0xFFFFFFFF)
      (d.setWork { w with rd := some x }).rdGo w.id
    else
      let r := slice b.got (l.recAt t % g.lba) len
      let x := if w.op = 0x22 then { x with files := kvPut s ((kvFind s x.files).getD [] ++ r) x.files } else x
      if w.op = 0x22 ∧ x.level = 0 then (d.setWork { w with rd := some x }).rdGo w.id
      else
        match l.unseal (x.keys.getD s []) s t r with
        | some u =>
          let x := if w.op ≠ 0x22 ∧ l.k ≤ x.good.length then x else { x with good := kvPut s u x.good }
          (d.setWork { w with rd := some x }).rdGo w.id
        | none => ((d.count Reg.ARC_TAG_FAIL).setWork { w with rd := some (x.note s 4 t) }).rdGo w.id

/-- A piece of a read-back came (R340 step 5). -/
def Dev.backDone (d : Dev) (w : ArcWork) (x : ArcWr) (s i : Nat) (b : BlkCmd) : Dev :=
  let x := { x with out := x.out.set s (x.out.getD s 0 - 1) }
  let d := if b.good then d.tollAdd w.ten w.gen 3 (shardBytes x.lay (x.tgts.getD s default) b) else d
  let x := if b.good then { x with back := kvPut (65536 * s + i) (fitTo b.len b.got) x.back }
    else if x.failed.contains s then x else { x with failed := x.failed ++ [s] }
  (d.setWork { w with wr := some x }).wrGo w.id

/-- SHARD_READ_DONE. -/
def Dev.shardRead (d : Dev) (b : BlkCmd) : Dev :=
  match b.for_ with
  | .arc id s what =>
    match d.work id with
    | none => d
    | some w =>
      match what % 8, w.rd, w.wr with
      | 2, some x, _ => d.headDone w x s b
      | 3, some x, _ => d.recordDone w x s (what / 8) b
      | 4, _, some x => d.backDone w x s (what / 8) b
      | _, _, _ => d
  | _ => d

def BlkCmd.arcWrite (b : BlkCmd) : Bool :=
  match b.for_ with
  | .arc _ _ what => decide (what < 2)
  | _ => false

/-- The next acknowledgement of a kind. -/
def Dev.arcAck (d : Dev) (write : Bool) : Dev :=
  match d.arc.acks.find? (fun b => b.arcWrite == write) with
  | none => d
  | some b =>
    let d := d.setArc { d.arc with acks := d.arc.acks.erase b }
    if write then d.shardAck b else d.shardRead b

/-! Starting a job (R329 to R334, R340, R341). -/

/-- Fields of D2 to D6. -/
def Job.arcPhase (j : Job) : Nat := if j.opc = 0x20 ∨ j.opc = 0x21 then fld j.firstE.d2 1 0 else 0
def Job.arcOff (j : Job) : Nat := fld j.firstE.d2 63 16
def Job.arcSession (j : Job) : Nat := fld j.firstE.d5 19 0
def Job.arcCheckSig (j : Job) : Bool := bitOf j.firstE.d2 2

def Job.arcReserved (j : Job) : Option Nat :=
  let e := j.firstE
  if fld e.d2 15 3 ≠ 0 then some (rangeAt 2 3)
  else if e.d3.toNat % 8 ≠ 0 then some (rangeAt 3 0)
  else if fld e.d5 63 56 ≠ 0 then some (rangeAt 5 56)
  else if fld e.d5 31 20 ≠ 0 then some (rangeAt 5 20)
  else if e.d6 ≠ 0 then some (rangeAt 6 0)
  else none

/-- Reserved bytes of the parameter block. -/
def blockReserved (b : List Byte) : Option Nat :=
  if leAt b 108 4 ≠ 0 then some (blkAt 108) else if leAt b 140 4 ≠ 0 then some (blkAt 140) else if leAt b 160 96 ≠ 0 then some (blkAt 160) else none

/-- The layout an OBJ_PUT asks for. -/
def putLay (b : List Byte) : ArcLay :=
  { k := leAt b 40 1, m := leAt b 41 1, ulog := leAt b 42 1, cipher := leAt b 43 1, fix := leAt b 44 1, sig := leAt b 45 1, gen := leAt b 60 4
    objId := slice b 0 32, label := slice b 64 16, size := leAt b 32 8 }

/-- The new layout of an OBJ_MIGRATE. -/
def newLay (b : List Byte) (old : ArcLay) : ArcLay :=
  { k := leAt b 128 1, m := leAt b 129 1, ulog := leAt b 130 1, cipher := leAt b 131 1, fix := leAt b 44 1, sig := leAt b 45 1, gen := leAt b 136 4
    objId := slice b 0 32, label := slice b 144 16, size := old.size }

/-- The checks of key slots a layout needs: the archive key, and for a write its signing keys. -/
def Dev.arcSlots (d : Dev) (t : Nat) (l : ArcLay) (key s1 s2 : Nat) (useKey sign : Bool) : List (Bool × Nat × Nat) :=
  let ty := fun n => ((d.slot n).map (·.type)).getD 0
  let one := fun n want bit => d.useSlot false (some t) n bit ++ [(!decide (ty n = want), St.DENIED, 4)]
  (if useKey ∧ l.cipher ≠ 0 then one key 4 Key.DERIVE else []) ++ (if sign ∧ l.sig1 then one s1 8 Key.SIGN else []) ++
    (if sign ∧ l.sig2 then one s2 10 Key.SIGN else [])

def Dev.slotBytes (d : Dev) (n : Nat) : List Byte := ((d.slot n).map (·.material)).getD []

/-- Slots a job names. -/
def arcUses (l : ArcLay) (key s1 s2 : Nat) (useKey sign : Bool) : List Nat :=
  (if useKey ∧ l.cipher ≠ 0 then [key] else []) ++ (if sign ∧ l.sig1 then [s1] else []) ++ (if sign ∧ l.sig2 then [s2] else [])

/-- The session a job of PHASE 2 or 3 names. -/
def Dev.session (d : Dev) (t c : Nat) : Option ArcWork := d.arc.works.find? (fun w => decide (w.session = some c ∧ w.ten = t))

/-- R333: the checks of a session. -/
def Dev.sessChecks (d : Dev) (j : Job) : List (Bool × Nat × Nat) :=
  let c := j.arcSession
  match j.arcPhase with
  | 0 => []
  | 1 => d.newCtx j.ten c
  | _ =>
    let w := d.session j.ten c
    [(decide ((d.ctxOwner c).isSome ∧ d.ctxOwner c ≠ some j.ten), St.DENIED, 2), (w.elim true (fun w => decide (w.op ≠ j.opc)), St.STATE, 0),
     (w.elim false (fun w => decide (w.sq ≠ j.sq)), St.DENIED, 2)]

def resizeTo (n : Nat) : List (List Byte) := List.replicate n []

/-- A fresh object to be written. -/
def wrOf (l : ArcLay) (tgts : List ArcTgt) (material s1 s2 prev : List Byte) (tol : Nat) : ArcWr :=
  { lay := l, tgts := tgts, keys := l.keyList material, check := l.check material, sign1 := s1, sign2 := s2, prev := prev, tol := tol
    files := resizeTo l.n, sent := List.replicate l.n 0, out := List.replicate l.n 0 }

/-- Data bytes of a job are asked for (R329). -/
def Dev.arcData (d : Dev) (j : Job) : Dev :=
  let d := d.jobPut { j with reading := true, need := j.total }
  (j.entries.foldl (fun (a : Dev × Nat) x => (a.1.queueRead j.ten j.gen (.job j.sq j.pos) x.addr x.len a.2, a.2 + x.len)) (d, 0)).1

/-- A work joins the list in the order of arrival. -/
def Dev.arrive (d : Dev) (w : ArcWork) : Dev :=
  d.setArc { d.arc with works := d.arc.works.filter (fun x => decide (x.id ≠ w.id)) ++ [w], nextId := max d.arc.nextId (w.id + 1) }

/-- Run an archive opcode on the job at a position: it is this opcode, not yet begun, live; the engine has staging; the reads of its
parameters came. A job of a session waits for the one before it (R333). -/
def Dev.arcJob (d : Dev) (q pos op : Nat) (err : Option (Nat × Nat)) (f : Job → Dev) : Dev :=
  match d.jobFind q pos with
  | none => d
  | some j =>
    let waits := decide (2 ≤ j.arcPhase) && (d.session j.ten j.arcSession).elim false (fun w => w.cur.isSome)
    let begun := d.arc.works.any (fun w => decide (w.sq = q ∧ w.cur = some pos))
    if j.opc ≠ op ∨ j.res.isSome ∨ begun ∨ waits ∨ !d.jobLive j then d
    else if d.arc.stageSize = 0 then d.jobEnd q pos { status := St.NOSPACE }
    else
      match err with
      | some (st, det) => d.jobEnd q pos { status := st, detail := det }
      | none => f j

/-- End a job whose checks failed; a slot that fails its unwrap ends it too (R266). -/
def Dev.arcChecks (d : Dev) (j : Job) (l : List (Bool × Nat × Nat)) (uses : List Nat) (f : Dev) : Dev :=
  match firstFail l with
  | some (st, det) => d.jobEnd j.sq j.pos { status := st, detail := det }
  | none =>
    match uses.find? d.slotBad with
    | some n => (d.unwrapFail n).jobEnd j.sq j.pos { status := St.INTEGRITY, detail := 0x12 }
    | none => f

/-- OBJ_PUT. -/
def Dev.objPut (d : Dev) (q pos : Nat) (block targets : List Byte) (err : Option (Nat × Nat)) : Dev :=
  d.arcJob q pos 0x20 err fun j =>
    let b := fitTo 256 block
    let l := putLay b
    let t := j.ten
    let sess := if 2 ≤ j.arcPhase then d.session t j.arcSession else none
    let done := sess.elim 0 (fun w => w.off)
    let (key, s1, s2) := (leAt b 48 4 % 2 ^ 20, leAt b 52 4 % 2 ^ 20, leAt b 56 4 % 2 ^ 20)
    let tg := arcTable targets l.n
    let tol := fld j.firstE.d5 55 48
    let bad := (l.bad 40 44).or ((j.arcReserved).or (blockReserved b))
    let lenBad := match j.arcPhase with
      | 0 => decide (j.total ≠ l.size)
      | 3 => decide (done + j.total ≠ l.size)
      | _ => decide (l.size < done + j.total)
    let inUse := d.arc.works.any (fun w => decide (some w.id ≠ sess.map (fun w => w.id)) && (w.wr.elim false (fun x =>
      decide (x.lay.objId = l.objId ∧ x.lay.gen = l.gen) && decide (w.slots.head? = some key ∧ l.cipher ≠ 0 ∨ l.cipher = 0 ∧ x.lay.cipher = 0))))
    let set := 2 * l.n * l.u
    d.arcChecks j ([(bad.isSome, St.RANGE, bad.getD 0), (decide (l.m < tol), St.RANGE, rangeAt 5 48), (lenBad, St.RANGE, rangeAt 0 32),
        (decide (fld j.firstE.d5 47 32 < l.manLen), St.RANGE, rangeAt 5 32),
        ((d.tableBad targets l l.manLen).isSome, St.RANGE, (d.tableBad targets l l.manLen).getD 0), (partOverlap tg tg, St.RANGE, blkAt 8)] ++
        d.arcSlots t l key s1 s2 true true ++ [(!d.tableCtx t tg, St.DENIED, 2), (inUse, St.DENIED, 1)] ++ d.sessChecks j ++
        [(decide (d.arc.stageSize < set), St.NOSPACE, 0)]) (arcUses l key s1 s2 true true)
      (match sess with
       | some w => (d.arrive { w with cur := some pos, phase := j.arcPhase, granted := false, set := set, base := w.off, want := j.total
                                      manOut := j.firstE.d4.toNat }).arcData j
       | none =>
         let w : ArcWork := { id := d.arc.nextId, ten := t, gen := j.gen, op := 0x20, sq := q
                              session := if j.arcPhase = 1 then some j.arcSession else none
                              cur := some pos, phase := j.arcPhase, set := set, manOut := j.firstE.d4.toNat, want := j.total
                              slots := arcUses l key s1 s2 true true
                              wr := some (wrOf l tg (d.slotBytes key) (d.slotBytes s1) (d.slotBytes s2) (List.replicate 32 0#8) tol) }
         (d.arrive w).arcData j)

/-- The checks OBJ_GET, OBJ_VERIFY and OBJ_MIGRATE share on the manifest: its form, its layout, its object (R338). -/
def manChecks (b man : List Byte) (mlen : Nat) : List (Bool × Nat × Nat) :=
  let l := arcOfMan man
  let bad := l.bad 6 9
  [(decide (mlen < 256 ∨ beAt man 0 4 ≠ 0x574D414E ∨ beAt man 4 1 ≠ 1), St.INTEGRITY, 0x33), (bad.isSome, St.RANGE, bad.getD 0),
   (decide (mlen ≠ l.manLen ∨ l.objId ≠ slice b 0 32), St.INTEGRITY, 0x33)]

/-- An entry of TARGETS that differs from the manifest's (R332). -/
def tgtMismatch (man : List Byte) (tg : List ArcTgt) : Bool :=
  tg.zipIdx.any (fun x =>
    let o := 256 + 96 * x.2
    decide (x.1.nsid ≠ beAt man (o + 4) 4 ∨ x.1.label ≠ slice man (o + 8) 16 ∨ x.1.slba ≠ beAt man (o + 24) 8))

/-- Shards to read first: the data shards and `spares` parity shards, those MISSING replaced (R336); all for OBJ_VERIFY. -/
def firstShards (l : ArcLay) (missing : List Nat) (spares : Nat) (all : Bool) : List Nat :=
  let ok := (List.range l.n).filter (fun s => !missing.contains s)
  if all then ok else ok.take (l.k + spares)

/-- The reading side of a job. -/
def rdOf (l : ArcLay) (tg : List ArcTgt) (man material : List Byte) (spares level lo hi : Nat) (all : Bool) : ArcRd :=
  let miss := manMissing man l.n
  let use := firstShards l miss spares all
  { lay := l, tgts := tg, keys := l.keyList material, man := man, missing := miss, level := level, use := use, tried := use
    t0 := lo / (l.k * l.u), t := lo / (l.k * l.u), tEnd := ceilDiv hi (l.k * l.u), lo := lo }

/-- The checks of R332 and R338 of a job that reads an object. -/
def Dev.readChecks (d : Dev) (j : Job) (b targets man pub : List Byte) (useKey : Bool) (range : List (Bool × Nat × Nat))
    (slots : List (Bool × Nat × Nat)) (more : List (Bool × Nat × Nat)) : List (Bool × Nat × Nat) :=
  let l := arcOfMan man
  let mlen := leAt b 104 4
  let tg := arcTable targets l.n
  let key := leAt b 48 4 % 2 ^ 20
  let res := j.arcReserved.or (blockReserved b)
  let wrong := useKey && decide (l.cipher ≠ 0) && decide (l.check (d.slotBytes key) ≠ slice man 200 16)
  [(res.isSome, St.RANGE, res.getD 0), (decide (4 < leAt b 46 1), St.RANGE, blkAt 46)] ++ manChecks b man mlen ++ range ++
    [((d.tableBad targets l mlen).isSome, St.RANGE, (d.tableBad targets l mlen).getD 0), (partOverlap tg tg, St.RANGE, blkAt 8)] ++ slots ++
    [(!d.tableCtx j.ten tg, St.DENIED, 2)] ++ more ++ [(tgtMismatch man tg, St.DENIED, 0x30)] ++ d.sessChecks j ++
    [(j.arcCheckSig && !l.sigsGood man pub, St.INTEGRITY, 0x11), (wrong, St.INTEGRITY, 0x34)]

/-- Signature checks that ran count as handshakes, whatever their outcome (R490). -/
def Dev.sigCount (d : Dev) (j : Job) (l : List (Bool × Nat × Nat)) (lay : ArcLay) : Dev :=
  match firstFail l with
  | none => if j.arcCheckSig then d.tollAdd j.ten j.gen 4 lay.sigs else d
  | some (st, det) => if j.arcCheckSig ∧ st = St.INTEGRITY ∧ (det = 0x11 ∨ det = 0x34) then d.tollAdd j.ten j.gen 4 lay.sigs else d

/-- OBJ_GET. -/
def Dev.objGet (d : Dev) (q pos : Nat) (block targets man pub : List Byte) (err : Option (Nat × Nat)) : Dev :=
  d.arcJob q pos 0x21 err fun j =>
    let b := fitTo 256 block
    let l := arcOfMan man
    let t := j.ten
    let sess := if 2 ≤ j.arcPhase then d.session t j.arcSession else none
    let key := leAt b 48 4 % 2 ^ 20
    let off := j.arcOff
    let set := 2 * l.n * l.u
    let checks := d.readChecks j b targets man pub true
      [(decide (l.size < off + j.total), St.RANGE, rangeAt 2 16), (sess.elim false (fun w => decide (w.off ≠ off)), St.RANGE, rangeAt 2 16)]
      (d.arcSlots t l key 0 0 true false) [] ++ [(decide (d.arc.stageSize < set), St.NOSPACE, 0)]
    let d := d.sigCount j checks l
    d.arcChecks j checks (arcUses l key 0 0 true false)
      (match sess with
       | some w =>
         let rd := w.rd.map (fun x => { x with tEnd := max x.t (ceilDiv (off + j.total) (l.k * l.u)), decoded := 0, usedMap := [] })
         d.arrive { w with cur := some pos, phase := j.arcPhase, granted := false, set := set, base := off, off := off, want := j.total, rd := rd }
       | none =>
         let w : ArcWork := { id := d.arc.nextId, ten := t, gen := j.gen, op := 0x21, sq := q
                              session := if j.arcPhase = 1 then some j.arcSession else none
                              cur := some pos, phase := j.arcPhase, set := set, off := off, base := off, want := j.total
                              slots := arcUses l key 0 0 true false
                              rd := some (rdOf l (arcTable targets l.n) man (d.slotBytes key) (leAt b 46 1) 0 off (off + j.total) false) }
         d.arrive w)

/-- OBJ_VERIFY. -/
def Dev.objVerify (d : Dev) (q pos : Nat) (block targets man pub : List Byte) (err : Option (Nat × Nat)) : Dev :=
  d.arcJob q pos 0x22 err fun j =>
    let b := fitTo 256 block
    let l := arcOfMan man
    let key := leAt b 48 4 % 2 ^ 20
    let level := leAt b 47 1
    let useKey := decide (level ≠ 0)
    let set := 2 * l.n * l.u
    let checks := d.readChecks j b targets man pub useKey
      [(decide (2 < level), St.RANGE, blkAt 47), (decide (j.total < 16 + 8 * l.n), St.RANGE, rangeAt 0 32)]
      (d.arcSlots j.ten l key 0 0 useKey false) [] ++ [(decide (d.arc.stageSize < set), St.NOSPACE, 0)]
    let d := d.sigCount j checks l
    let w : ArcWork := { id := d.arc.nextId, ten := j.ten, gen := j.gen, op := 0x22, sq := q, cur := some pos, set := set
                         slots := arcUses l key 0 0 useKey false
                         rd := some (rdOf l (arcTable targets l.n) man (d.slotBytes key) 0 level 0 l.size true) }
    d.arcChecks j checks (arcUses l key 0 0 useKey false) (d.arrive w)

/-- OBJ_MIGRATE: an extent of NEW_TARGETS equal to one of TARGETS makes it run in place (R341). -/
def Dev.objMigrate (d : Dev) (q pos : Nat) (block targets newTargets man pub : List Byte) (err : Option (Nat × Nat)) : Dev :=
  d.arcJob q pos 0x23 err fun j =>
    let b := fitTo 256 block
    let l := arcOfMan man
    let nl := newLay b l
    let t := j.ten
    let (key, nkey, s1, s2) := (leAt b 48 4 % 2 ^ 20, leAt b 132 4 % 2 ^ 20, leAt b 52 4 % 2 ^ 20, leAt b 56 4 % 2 ^ 20)
    let tg := arcTable targets l.n
    let ntg := arcTable newTargets nl.n
    let bad := nl.bad 128 44
    let inPlace := tg.any (fun x => ntg.any x.same)
    let set := max (2 * l.n * l.u) (2 * nl.n * nl.u)
    let all := sumNat (((List.range l.n).filter (fun s => !(manMissing man l.n).contains s)).map (fun _ => l.fileLen))
    let set' := if inPlace then max set all else set
    let checks := d.readChecks j b targets man pub true
      [(bad.isSome, St.RANGE, bad.getD 0), (decide (j.total < nl.manLen), St.RANGE, rangeAt 0 32),
       ((d.tableBad newTargets nl nl.manLen).isSome, St.RANGE, (d.tableBad newTargets nl nl.manLen).getD 0),
       (partOverlap ntg ntg || partOverlap tg ntg, St.RANGE, blkAt 8)]
      (d.arcSlots t l key 0 0 true false ++ d.arcSlots t nl nkey s1 s2 true true) [(!d.tableCtx t ntg, St.DENIED, 2)] ++
      [(decide (d.arc.stageSize < set'), St.NOSPACE, 0)]
    let d := d.sigCount j checks l
    let uses := arcUses l key 0 0 true false ++ arcUses nl nkey s1 s2 true true
    let w : ArcWork := { id := d.arc.nextId, ten := t, gen := j.gen, op := 0x23, sq := q, cur := some pos, set := set'
                         slots := arcUses nl nkey s1 s2 true true, inPlace := inPlace, recAddr := leAt b 120 8
                         rd := some (rdOf l tg man (d.slotBytes key) (leAt b 46 1) 0 0 l.size false)
                         wr := some (wrOf nl ntg (d.slotBytes nkey) (d.slotBytes s1) (d.slotBytes s2) (sha256 (fitTo (leAt b 104 4) man)) 0) }
    d.arcChecks j checks uses (d.arrive w)

/-! Admin commands (R345). -/

def arcCfg (e : AdmEntry) (d : Dev) : AdmRes :=
  let base := e.d3.toNat
  let size := e.d4.toNat
  admChecks [d.notPriv e, (decide (base % 2 ^ 20 ≠ 0), St.RANGE, rangeAt 3 0), (decide (size % 2 ^ 20 ≠ 0 ∨ size < 2 ^ 29), St.RANGE, rangeAt 4 0),
      (decide (hbmReserved < base + size), St.RANGE, rangeAt 3 0), (d.arc.works.any (fun w => (d.workJob w).elim false (fun j => j.res.isNone)), St.STATE, 1)] fun _ =>
    .done (d.setArc { d.arc with stageBase := base, stageSize := size })

def arcSessionAbort (e : AdmEntry) (d : Dev) : AdmRes :=
  let c := AdmEntry_slot e
  let w := d.session e.ten c
  admChecks [d.notOwner e e.ten, (decide ((d.ctxOwner c).isSome ∧ d.ctxOwner c ≠ some e.ten), St.DENIED, 2), (w.isNone, St.STATE, 0),
      (w.elim false (fun w => (d.workJob w).elim false (fun j => j.res.isNone)), St.STATE, 2)] fun _ =>
    .done (w.elim d (fun w => d.delWork w.id))

def arcJournalRead (e : AdmEntry) (d : Dev) : AdmRes :=
  let n := e.d3.toNat
  let r := (kvFind (n % 1048576) d.arc.journal).filter (fun x => decide (x.1 = n))
  admChecks [d.notPriv e, (decide (e.len ≠ 256), St.RANGE, rangeAt 0 32), (r.isNone, St.RANGE, rangeAt 3 0)] fun _ =>
    .done d 0 256 (r.elim [] Prod.snd)

def execObjPut (q pos : Nat) (block targets : List Byte) (err : Option (Nat × Nat)) (s : State) := s.run (·.objPut q pos block targets err)
def execObjGet (q pos : Nat) (block targets man pub : List Byte) (err : Option (Nat × Nat)) (s : State) :=
  s.run (·.objGet q pos block targets man pub err)
def execObjVerify (q pos : Nat) (block targets man pub : List Byte) (err : Option (Nat × Nat)) (s : State) :=
  s.run (·.objVerify q pos block targets man pub err)
def execObjMigrate (q pos : Nat) (block targets newTargets man pub : List Byte) (err : Option (Nat × Nat)) (s : State) :=
  s.run (·.objMigrate q pos block targets newTargets man pub err)
def execStagingGrant (s : State) := s.run (·.stagingGrant)
def execArchiveStripe (ecc : Ecc) (s : State) := s.run (·.archiveStripe ecc)
def execShardWriteAck (s : State) := s.run (·.arcAck true)
def execShardReadDone (s : State) := s.run (·.arcAck false)
def execArcCfg (e : AdmEntry) (s : State) := s.run (·.admRun e 0x58 (arcCfg e))
def execArcSessionAbort (e : AdmEntry) (s : State) := s.run (·.admRun e 0x59 (arcSessionAbort e))
def execArcJournalRead (e : AdmEntry) (s : State) := s.run (·.admRun e 0x5A (arcJournalRead e))

end Sys2Proof.Machine
end

