-- ==== Sys2Proof/Machine/FwdTables.lean ====
section
/-! DEFINITION. The hashed tables of forwarding: lines, lookups, inserts, ageing, rehash (R228 to R246, R251,
R258). -/

namespace Sys2Proof.Machine

/-! Lines (R231). -/

def lnKey (l : List Byte) : List Byte := slice l 0 40
def lnD5 (l : List Byte) : Nat := leAt l 40 8
def lnD6 (l : List Byte) : Nat := leAt l 48 8
def lnD7 (l : List Byte) : Dword := BitVec.ofNat 64 (leAt l 56 8)
def lnV (l : List Byte) : Bool := bitOf (lnD7 l) 63
def lnStatic (l : List Byte) : Bool := bitOf (lnD7 l) 62
def lnClass (l : List Byte) : Nat := fld (lnD7 l) 61 60
def lnTs (l : List Byte) : Nat := fld (lnD7 l) 47 32
def lnTen (l : List Byte) : Nat := leAt l 0 2 % 4096
def lnType (l : List Byte) : Nat := leAt l 0 2 / 4096

/-- A valid line. -/
def mkLine (key : List Byte) (d5 d6 : Nat) (static : Bool) (cls ts : Nat) : List Byte :=
  fitTo 40 key ++ leBytes 8 d5 ++ leBytes 8 d6 ++
    leBytes 8 (packNat [(1, 63), (b2n static, 62), (cls % 4, 60), (ts % 65536, 32)])

/-- A line with another TS. -/
def lnStamp (l : List Byte) (ts : Nat) : List Byte := patch l 60 (leBytes 2 ts)

def zeroLine : List Byte := List.replicate 64 0#8

/-- CMASK of R234 and R245: V and TS. -/
def casMask : Dword := 0x8000FFFF00000000#64

def Dev.line (d : Dev) (a : Nat) : List Byte := d.hbm.bytes a 64

/-! Buckets and lookups (R228, R230, R31). -/

/-- The number k of a table in registers. -/
def tblNo (table : Nat) : Nat := if table = 1 then 0 else if table = 2 then 1 else 2

def TblDesc.buckets (x : TblDesc) (key : List Byte) : Nat × Nat :=
  let h := fun seed => (Net.crcReg 0x82F63B78 seed key ^^^ 0xFFFFFFFF) % 2 ^ x.log2b
  let b1 := h x.seed1
  let b2 := h x.seed2
  (b1, if b2 = b1 then b1 ^^^ 1 else b2)

def TblDesc.slots (x : TblDesc) (b : Nat) : List Nat := (List.range 4).map (fun s => x.base + 256 * b + 64 * s)

/-- The lines a key may lie in, b1 first. -/
def TblDesc.places (x : TblDesc) (key : List Byte) : List Nat :=
  let b := x.buckets key
  x.slots b.1 ++ x.slots b.2

/-- The address of the valid line with a key. -/
def Dev.findIn (d : Dev) (x : TblDesc) (key : List Byte) : Option Nat :=
  (x.places key).find? (fun a => lnV (d.line a) && decide (lnKey (d.line a) = key))

def Dev.find (d : Dev) (table : Nat) (key : List Byte) : Option Nat :=
  if (d.desc table).v then d.findIn (d.desc table) key else none

/-- A lookup of the data plane: one that reads a poisoned line is a miss, and goes to the forwarding exception
queue. Answers the fate of R15, the line found, and the state. -/
def Dev.lookup (d : Dev) (table : Nat) (key : List Byte) : Nat × Option Nat × Dev :=
  let x := d.desc table
  if !x.v then (0, none, d)
  else
    match (x.places key).find? (fun a => d.hbm.poisoned a 64) with
    | some a =>
      let (fate, d) := d.fwdExc { reason := 0, info := key ++ leBytes 8 a }
      (fate, none, d)
    | none => (0, d.findIn x key, d)

/-- Valid lines of a table, by address. -/
def Dev.tblLines (d : Dev) (x : TblDesc) : List Nat :=
  if !x.v then []
  else
    d.hbm.cells.filterMap (fun c =>
      if x.base ≤ c.1 ∧ c.1 < x.base + 2 ^ x.log2b * 256 ∧ c.1 % 64 = 63 ∧ 128 ≤ c.2.toNat then some (c.1 - 63) else none)

/-! Writes through the internal port (R16, R235, R238). -/

/-- A record of the internal port; while the table is being rebuilt it is logged. -/
def Dev.fwdInternal (d : Dev) (table : Nat) (r : TueRec) : Nat × Dev :=
  let old := d.line r.index
  let (o, d) := d.tueInternal { r with table := table }
  if o ≠ 0 then (o, d)
  else
    let entry := if lnV r.payload then (true, fitTo 64 r.payload) else (false, lnKey old)
    (0, { d with fwd := { d.fwd with rehash := d.fwd.rehash.map (fun h =>
      if h.table = table then { h with log := h.log ++ [entry] } else h) } })

/-- Write a line whose V and TS are as last read (R234, R241, R245). -/
def Dev.casLine (d : Dev) (table a : Nat) (b : List Byte) : Dev :=
  (d.fwdInternal table { op := 0x11, index := a, count := 7, cmp := lnD7 (d.line a) &&& casMask, cmask := casMask, payload := b }).2

/-- Replace a line unconditionally. -/
def Dev.putLine (d : Dev) (table a : Nat) (b : List Byte) : Dev :=
  (d.fwdInternal table { op := 0x10, index := a, payload := b }).2

/-- R244: a hit stamps the line, by the hit port. -/
def Dev.hitLine (d : Dev) (a : Nat) : Dev :=
  if lnTs (d.line a) = d.fwd.now then d else d.hbmWrite (a + 60) (leBytes 2 d.fwd.now)

/-- R236: a rehash request. -/
def Dev.rehashReq (d : Dev) (table : Nat) : Dev :=
  let bit := 3 + tblNo table
  if d.regBit Reg.FWD_GSTAT bit then d
  else (d.setBit Reg.FWD_GSTAT bit).pfEvent (d.regFld Reg.FWD_EVT_CFG 3 0) { type := 0x110, p1 := table }

/-- R235: an insert of the device found no free slot. -/
def Dev.insFail (d : Dev) (table : Nat) : Dev := (d.count (Reg.FWD_INS_FAIL (tblNo table))).rehashReq table

/-- The first free slot of a key's buckets. -/
def Dev.freeSlot (d : Dev) (x : TblDesc) (key : List Byte) : Option Nat :=
  (x.places key).find? (fun a => !lnV (d.line a))

/-! Inserts of control firmware (R234). -/

/-- A place to write and the line to write there. -/
abbrev Plan := List (Nat × List Byte)

/-- One level of the search: paths of the same length, each with the bucket it reached and the lines it moves,
last first. -/
def Dev.searchLevel (d : Dev) (x : TblDesc) (paths : List (Nat × List Nat)) : List (Nat × List Nat) :=
  paths.flatMap (fun p => (x.slots p.1).map (fun a =>
    let b := x.buckets (lnKey (d.line a))
    (if b.1 = p.1 then b.2 else b.1, a :: p.2)))

/-- The shortest displacement path: the free slot and the lines moved, last first. Ties go to the lower bucket,
then the lower slot (DEDUCED: of the free slot, log 18). -/
def Dev.searchPath (d : Dev) (x : TblDesc) : Nat → List Nat → List (Nat × List Nat) → Option (Nat × List Nat)
  | 0, _, _ => none
  | fuel + 1, seen, paths =>
    let next := d.searchLevel x paths
    let cands := next.flatMap (fun p => ((x.slots p.1).filter (fun a => !lnV (d.line a))).map (fun a => (a, p.2)))
    match cands with
    | c :: cs => some (cs.foldl (fun m y => if y.1 < m.1 then y else m) c)
    | [] =>
      let fresh := next.foldl (fun (acc : List Nat × List (Nat × List Nat)) p =>
        if acc.1.contains p.1 then acc else (p.1 :: acc.1, acc.2 ++ [p])) (seen, [])
      if fresh.2.isEmpty then none else d.searchPath x fuel fresh.1 fresh.2

/-- The writes of a displacement path, in order: the line nearest the free slot first. -/
def Dev.pathWrites (d : Dev) (e : List Byte) : Nat → List Nat → Plan
  | target, [] => [(target, e)]
  | target, a :: r => (target, lnStamp (d.line a) d.fwd.now) :: d.pathWrites e a r

/-- What an insert comes to. -/
inductive Insert where
  | exists_
  | noSpace
  | writes (p : Plan)

/-- R234: plan an insert. -/
def Dev.insertPlan (d : Dev) (x : TblDesc) (e : List Byte) (replace : Bool) : Insert :=
  let key := lnKey e
  match d.findIn x key with
  | some a => if replace then .writes [(a, e)] else .exists_
  | none =>
    match d.freeSlot x key with
    | some a => .writes [(a, e)]
    | none =>
      let b := x.buckets key
      match d.searchPath x 32 [b.1, b.2] [(b.1, []), (b.2, [])] with
      | some (a, moved) => .writes (d.pathWrites e a moved)
      | none => .noSpace

/-- The records of a plan: each a LINE_CAS on the V and TS of the slot as the writes before it leave it. -/
def Dev.casRecords (d : Dev) (table : Nat) (by_ : Poster) (p : Plan) : List TueRec :=
  (p.foldl (fun (acc : Dev × List TueRec) w =>
    (acc.1.hbmWrite w.1 w.2,
     acc.2 ++ [{ op := 0x11, table := table, index := w.1, count := 7, cmp := lnD7 (acc.1.line w.1) &&& casMask,
                 cmask := casMask, payload := w.2, poster := by_ }])) (d, [])).2

/-! Rehash (R238, R239). -/

/-- Clear a range of HBM. -/
def Dev.hbmClear (d : Dev) (a n : Nat) : Dev :=
  { d with hbm := { cells := d.hbm.cells.filter (fun c => !decide (a ≤ c.1 ∧ c.1 < a + n))
                    poison := d.hbm.poison.filter (fun l => !decide (a ≤ l * 64 ∧ l * 64 + 64 ≤ a + n)) } }

/-- Write a plan's lines directly (the shadow, which no lookup uses). -/
def Dev.writePlan (d : Dev) (p : Plan) : Dev := p.foldl (fun d w => d.hbmWrite w.1 w.2) d

/-- Copy lines into a shadow; none: it cannot take them all. -/
def Dev.fillShadow (d : Dev) (x : TblDesc) : List (List Byte) → Option Dev
  | [] => some d
  | l :: r =>
    match d.insertPlan x (lnStamp l d.fwd.now) true with
    | .writes p => (d.writePlan p).fillShadow x r
    | _ => none

/-- Apply one logged change to a shadow. -/
def Dev.replayOne (d : Dev) (x : TblDesc) : Bool × List Byte → Option Dev
  | (true, l) => d.fillShadow x [l]
  | (false, key) => some ((d.findIn x key).elim d (fun a => d.hbmWrite a zeroLine))

def Dev.replay (d : Dev) (x : TblDesc) : List (Bool × List Byte) → Option Dev
  | [] => some d
  | e :: r => (d.replayOne x e).bind (fun d' => d'.replay x r)

/-- Stamp every line of a table. -/
def Dev.stampAll (d : Dev) (x : TblDesc) : Dev :=
  (d.tblLines x).foldl (fun d a => d.hbmWrite (a + 60) (leBytes 2 d.fwd.now)) d

/-- The PEER of a conntrack line (R251) names the line that held the pair's other key, wherever it now lies. -/
def Dev.fixPeers (d : Dev) (old new : TblDesc) : Dev :=
  (d.tblLines new).foldl (fun d' a =>
    let l := d'.line a
    let peer := d.line (lnD6 l % 2 ^ 40 / 64 * 64)
    match d'.findIn new (lnKey peer) with
    | some p => if lnD6 l % 2 ^ 40 / 64 * 64 < old.base ∨ old.base + old.extent 6 ≤ lnD6 l % 2 ^ 40 / 64 * 64 then d'
        else d'.hbmWrite (a + 48) (leBytes 8 p)
    | none => d') d

/-! Ageing (R244 to R246). -/

/-- The limit of an ageing class. -/
def Dev.ageLimit (d : Dev) (k cls : Nat) : Nat :=
  let r := if cls < 2 then Reg.FWD_AGE_LIM01 k else Reg.FWD_AGE_LIM23 k
  if cls % 2 = 0 then d.regFld r 14 0 else d.regFld r 30 16

/-- R245, R248: delete an aged line by CAS, and with a conntrack line its peer. -/
def Dev.ageOut (d : Dev) (table a : Nat) : Dev :=
  let l := d.line a
  let d := (d.casLine table a zeroLine).count (Reg.FWD_AGED (tblNo table))
  if table ≠ 6 then d
  else
    let p := lnD6 l % 2 ^ 40 / 64 * 64
    if lnV (d.line p) ∧ lnD6 (d.line p) % 2 ^ 40 / 64 * 64 = a then
      (d.putLine 6 p zeroLine).count (Reg.FWD_AGED 2)
    else d

/-- The sweep looks at one line. -/
def Dev.sweepLine (d : Dev) (table a : Nat) : Dev :=
  let l := d.line a
  let k := tblNo table
  if !lnV l then d
  else if d.fwd.stamp.getD k false then d.casLine table a (lnStamp l d.fwd.now)
  else if lnStatic l ∨ (d.fwd.now + 65536 - lnTs l) % 65536 < d.ageLimit k (lnClass l) then d
  else d.ageOut table a

/-- SWEEP_VISIT: the sweep engine visits its next bucket of table k. -/
def Dev.sweepVisit (d : Dev) (k : Nat) : Dev :=
  let table := if k = 0 then 1 else if k = 1 then 2 else 6
  let x := d.desc table
  if 3 ≤ k ∨ !x.v ∨ !d.regBit (Reg.FWD_AGE_CFG k) 31 then d
  else
    let b := d.fwd.sweep.getD k 0 % 2 ^ x.log2b
    let d := (x.slots b).foldl (fun d a => d.sweepLine table a) d
    let ends := decide (b + 1 = 2 ^ x.log2b)
    { d with fwd := { d.fwd with sweep := d.fwd.sweep.set k (if ends then 0 else b + 1)
                                 stamp := if ends then d.fwd.stamp.set k false else d.fwd.stamp } }

/-- AGE_TICK (R244). -/
def Dev.ageTick (d : Dev) : Dev := { d with fwd := { d.fwd with now := (d.fwd.now + 1) % 65536 } }

/-! Counters (R258). -/

def Dev.ctrAddr (d : Dev) (n : Nat) : Nat := (d.desc 4).base + 32 * n
def Dev.ctrIn (d : Dev) (n : Nat) : Bool := (d.desc 4).v && decide (n < 2 ^ (d.desc 4).log2b)
/-- Bytes 16 and 17 of a counter entry. -/
def Dev.ctrWord (d : Dev) (n : Nat) : Half := BitVec.ofNat 16 (leAt (d.hbm.bytes (d.ctrAddr n + 16) 2) 0 2)
def Dev.ctrV (d : Dev) (n : Nat) : Bool := d.ctrIn n && bitOf (d.ctrWord n) 15
def Dev.ctrDev (d : Dev) (n : Nat) : Bool := bitOf (d.ctrWord n) 12
def Dev.ctrTen (d : Dev) (n : Nat) : Nat := fld (d.ctrWord n) 11 0

/-- Add a packet and its bytes to a counter entry, atomically at the HBM controller. -/
def Dev.ctrAdd (d : Dev) (n bytes : Nat) : Dev :=
  let a := d.ctrAddr n
  let b := d.hbm.bytes a 16
  d.hbmWrite a (leBytes 8 (leAt b 0 8 + 1) ++ leBytes 8 (leAt b 8 8 + bytes))

/-- R257, R258: the counter is valid and DEV or the tenancy's. -/
def Dev.ctrOwned (d : Dev) (n : Nat) (ten : Option Nat) : Bool :=
  d.ctrV n && (d.ctrDev n || decide (ten = some (d.ctrTen n)))

/-! MAC learning (R240, R241). -/

/-- KTYPE 4 (R232). -/
def macKey (ten bridge mac : Nat) : List Byte :=
  fitTo 40 (leBytes 2 (4 * 4096 + ten) ++ [0, 0] ++ leBytes 2 bridge ++ beBytes 6 mac)

/-- Learned lines of a bridge. -/
def Dev.learned (d : Dev) (bridge : Nat) : Nat :=
  ((d.tblLines (d.desc 2)).filter (fun a =>
    let l := d.line a
    !lnStatic l && decide (lnType l = 4 ∧ leAt l 4 2 = bridge))).length

/-- R241: a learn is pending once a key; further pending keys beyond 4,096 are dropped. -/
def Dev.learn (d : Dev) (bridge mac dest : Nat) : Dev :=
  if d.fwd.learns.any (fun l => decide (l.bridge = bridge ∧ l.mac = mac)) then
    { d with fwd := { d.fwd with learns := d.fwd.learns.map (fun l =>
        if l.bridge = bridge ∧ l.mac = mac then { l with dest := dest } else l) } }
  else if 4096 ≤ d.fwd.learns.length then d.count Reg.FWD_LEARN_DROP
  else { d with fwd := { d.fwd with learns := d.fwd.learns ++ [{ bridge := bridge, mac := mac, dest := dest }] } }

/-- R241: an attempt to move a static line. -/
def Dev.staticMove (d : Dev) (l : Learn) (b : Bridge) : Dev :=
  let d := d.count Reg.FWD_STATIC_MOVE
  if d.regBit Reg.FWD_EVT_CFG 8 ∧ b.evtAt.all (fun t => decide (t + 100000000 ≤ d.nowNs)) then
    let d := { d with fwd := { d.fwd with bridges := kvPut l.bridge { b with evtAt := some d.nowNs } d.fwd.bridges } }
    d.pfEvent (d.regFld Reg.FWD_EVT_CFG 3 0) { type := 0x111, p1 := l.bridge, p2 := l.mac % 2 ^ 32 }
  else d

/-- A learn, its LINE_CAS failing `fails` times before it applies. -/
def Dev.learnDo (d : Dev) (l : Learn) (fails : Nat) : Dev :=
  match kvFind l.bridge d.fwd.bridges with
  | none => d
  | some b =>
    let key := macKey b.ten l.bridge l.mac
    let line := mkLine key l.dest 0 false 0 d.fwd.now
    let lost := fun (d : Dev) => (d.countN Reg.CLS_UPD_CASFAIL 4).count Reg.FWD_LEARN_DROP
    match d.find 2 key with
    | some a =>
      let x := d.line a
      if lnD5 x % 2 ^ 32 = l.dest then d.hitLine a
      else if lnStatic x then d.staticMove l b
      else if 4 ≤ fails then lost d
      else ((d.countN Reg.CLS_UPD_CASFAIL fails).casLine 2 a line).count Reg.FWD_MOVES
    | none =>
      if !(d.desc 2).v then d
      else if b.limit ≤ d.learned l.bridge then (d.count Reg.FWD_LEARN_DROP).count Reg.FWD_LEARN_LIMIT
      else
        match d.freeSlot (d.desc 2) key with
        | none => d.insFail 2
        | some a => if 4 ≤ fails then lost d else (d.countN Reg.CLS_UPD_CASFAIL fails).casLine 2 a line

/-- LEARN_INSERT: the learn engine takes its oldest learn. -/
def Dev.learnInsert (d : Dev) (fails : Nat) : Dev :=
  match d.fwd.learns with
  | [] => d
  | l :: r => { d with fwd := { d.fwd with learns := r } }.learnDo l fails

end Sys2Proof.Machine
end

