-- ==== Sys2Proof/Machine/Handshake.lean ====
section
/-! DEFINITION. Handshake operations (R285, R371). -/

namespace Sys2Proof.Machine

/-- An operation of R285: input slots with TYPE and usage bit, TYPE of its output slot (0: none) and the length of what is
written there, its kind (0 keygen, 1 shared secret, 2 sign, 3 verify, 4 HKDF), bytes read (none: as the message is) and
written, whether it draws random data. -/
structure HsOp where
  in1 : Nat := 0
  in2 : Nat := 0
  out : Nat := 0
  outLen : Nat := 0
  kind : Nat
  rd : Option Nat := none
  wr : Nat := 0
  random : Bool := false

def hsOp (op : Nat) : Option HsOp :=
  match op with
  | 0x01 => some { out := 5, outLen := 64, kind := 0, rd := some 0, wr := 1184, random := true }
  | 0x02 => some { out := 4, outLen := 32, kind := 1, rd := some 1184, wr := 1088, random := true }
  | 0x03 => some { in1 := 5, out := 4, outLen := 32, kind := 1, rd := some 1088 }
  | 0x04 => some { out := 6, outLen := 64, kind := 0, rd := some 0, wr := 1568, random := true }
  | 0x05 => some { out := 4, outLen := 32, kind := 1, rd := some 1568, wr := 1568, random := true }
  | 0x06 => some { in1 := 6, out := 4, outLen := 32, kind := 1, rd := some 1568 }
  | 0x10 => some { out := 7, outLen := 32, kind := 0, rd := some 0, wr := 1952, random := true }
  | 0x11 => some { in1 := 7, kind := 2, wr := 3309, random := true }
  | 0x12 => some { kind := 3 }
  | 0x14 => some { out := 8, outLen := 32, kind := 0, rd := some 0, wr := 2592, random := true }
  | 0x15 => some { in1 := 8, kind := 2, wr := 4627, random := true }
  | 0x16 => some { kind := 3 }
  | 0x20 => some { out := 9, outLen := 32, kind := 0, rd := some 0, wr := 32, random := true }
  | 0x21 => some { in1 := 9, out := 4, outLen := 32, kind := 1, rd := some 32 }
  | 0x28 => some { out := 10, outLen := 48, kind := 0, rd := some 0, wr := 97, random := true }
  | 0x29 => some { in1 := 10, kind := 2, rd := some 48, wr := 96, random := true }
  | 0x2A => some { kind := 3, rd := some 241 }
  | 0x30 => some { out := 4, outLen := 64, kind := 1, rd := some 1216, wr := 1120, random := true }
  | 0x31 => some { in1 := 5, in2 := 9, out := 4, outLen := 64, kind := 1, rd := some 1120 }
  | 0x40 => some { out := 4, kind := 4 }
  | _ => none

/-- R285: usage bit of an input slot of a TYPE. -/
def hsUse (ty : Nat) : Nat := if ty = 7 ∨ ty = 8 ∨ ty = 10 then Key.SIGN else Key.AGREE

/-- The mode of an HKDF request (0x40): the spec places no MODE in HS_OP, so it is an unknown function of the buffer (log 35). -/
def HsReq.mode (r : HsReq) : Nat := (Config.prim 13 [r.buf] 0).toNat % 4

/-- R285: bytes the request's output takes. -/
def HsReq.outLen (r : HsReq) (o : HsOp) : Nat := if o.kind = 4 then (if r.mode % 2 = 0 then 32 else 48) else o.outLen

def HsReq.rangeBad (r : HsReq) (o : HsOp) : Option Nat :=
  if r.exp ∧ o.kind = 1 then some (rangeAt 4 32)
  else if 131072 < r.inLen ∨ o.rd.elim false (fun n => decide (r.inLen ≠ n)) then some (rangeAt 4 0)
  else if r.len < max r.inLen o.wr then some (rangeAt 0 32)
  else none

/-- The checks of a request, in order. -/
def Dev.hsChecks (d : Dev) (priv : Bool) (r : HsReq) : List (Bool × Nat × Nat) :=
  match hsOp r.op with
  | none => [(true, St.RANGE, rangeAt 2 16)]
  | some o =>
    let t := some r.ten
    let ty := fun n => ((d.slot n).map (·.type)).getD 0
    let input := fun (n want : Nat) =>
      if want = 0 then [] else d.useSlot priv t n (hsUse want) ++ [(!decide (ty n = want), St.DENIED, 4)]
    [((r.rangeBad o).isSome, St.RANGE, (r.rangeBad o).getD 0), d.keyState r.ten] ++
      (if o.out = 0 then [] else d.newSlot priv t r.outSlot) ++ input r.inSlot o.in1 ++ input r.inSlot2 o.in2 ++
      (if o.kind = 4 then d.useSlot priv t r.inSlot Key.DERIVE else []) ++ [(o.random && d.noEntropy, St.INTEGRITY, 0x20)]

def Dev.hsQueued (d : Dev) : Nat := d.cry.hsQueue.length

/-- Requests an engine or its queue holds: past 1,024 control firmware holds an admin request back, in order. -/
def Dev.hsPost (d : Dev) (r : HsReq) : Dev := d.setCry { d.cry with hsQueue := d.cry.hsQueue ++ [r] }

/-- HS_OP. -/
def hsOpCmd (e : AdmEntry) (d : Dev) : AdmRes :=
  let r : HsReq := { ten := e.ten, gen := (d.tenGet e.ten).gen, op := fld e.d2 23 16, outSlot := AdmEntry_slot e, inSlot := fld e.d3 19 0
                     inSlot2 := fld e.d3 51 32, exp := bitOf e.d4 32, len := e.len
                     inLen := fld e.d4 31 0, buf := fitTo (fld e.d4 31 0) e.buf, adm := some e }
  admChecks ([d.notOwner e e.ten] ++ d.hsChecks (d.privOf e) r ++ [e.bufCheck]) fun _ => .wait (d.hsPost r)

/-- R371: a request a handler sends on channel 0xF00. -/
def Dev.hsFromMsg (d : Dev) (m : List Byte) : HsReq :=
  let t := leAt m 0 2 % 4096
  let a := leAt m 16 8
  { ten := t, gen := (d.tenGet t).gen, op := leAt m 2 1, outSlot := leAt m 4 4 % 2 ^ 20, inSlot := leAt m 8 4 % 2 ^ 20
    inSlot2 := leAt m 12 4 % 2 ^ 20, exp := decide (leAt m 3 1 % 2 = 1), len := leAt m 24 4, inLen := leAt m 28 2
    buf := if a + leAt m 24 4 ≤ hbmReserved then d.hbm.bytes a (leAt m 28 2) else [], reply := leAt m 30 2 % 4096
    tag := leAt m 32 8, hbm := a }

/-- Tell the requester: an admin completion, or a message on the REPLY channel; none: that channel is full, and the engine
waits. -/
def Dev.hsReply (d : Dev) (r : HsReq) (st det : Nat) (out : List Byte) : Option Dev :=
  match r.adm with
  | some e => some ((d.pfWrite e.pf e.d1.toNat (if st = 0 then out else [])).admLate e 0x4D st det (if st = 0 then out.length else 0))
  | none =>
    let d := if st = 0 ∧ !out.isEmpty then d.hbmWrite r.hbm out else d
    let x := d.ch r.reply
    if !x.v then some d
    else if !d.chRoom r.reply then none
    else
      some (d.deliver r.reply 0 true (leBytes 8 r.tag ++ leBytes 1 st ++ [0] ++ leBytes 2 det ++
        leBytes 4 (if st = 0 then out.length else 0))).2

/-- HANDSHAKE_START: a free engine takes the next request, round robin by tenancy, and reads its private inputs. A handler's
request is checked here; one that fails its checks only replies. -/
def Dev.hsStart (d : Dev) : Dev :=
  let q := d.cry.hsQueue.take 1024
  let next := fun (lo hi : Nat) => ((q.filter (fun r => decide (lo ≤ r.ten ∧ r.ten < hi))).map (·.ten)).foldl
    (fun (a : Option Nat) t => some ((a.getD t).min t)) none
  match (next (d.cry.hsTurn + 1) 4096).or (next 0 4096) with
  | none => d
  | some t =>
    if 4 ≤ d.cry.hsRun.length then d
    else
      match q.find? (fun r => decide (r.ten = t)) with
      | none => d
      | some r =>
        let ins := match hsOp r.op with
          | some o => (if o.in1 ≠ 0 ∨ o.kind = 4 then [r.inSlot] else []) ++ (if o.in2 ≠ 0 then [r.inSlot2] else [])
          | none => []
        let bad := if r.adm.isSome then none
          else firstFail (d.hsChecks false r ++ [(decide (hbmReserved < r.hbm + r.len), St.RANGE, 0)])
        let priv := ins.map (fun n => ((d.slot n).map (·.material)).getD [])
        d.setCry { d.cry with hsTurn := t, hsQueue := d.cry.hsQueue.erase r, hsRun := d.cry.hsRun ++ [{ r with priv := priv, bad := bad }] }

/-- What an operation brings: STATUS, DETAIL, the secret for its output slot and its public output. Everything it computes is an
uninterpreted function of its inputs; `rnd` are the random bytes it draws. -/
def hsResult (r : HsReq) (o : HsOp) (rnd : List Byte) : Nat × Nat × List Byte × List Byte :=
  let ins := [primNat r.op] ++ r.priv ++ [r.buf, rnd]
  match o.kind with
  | 0 => (0, 0, rnd.take o.outLen, primBytes 8 [primNat r.op, rnd.take o.outLen] o.wr)
  | 1 =>
    let sec := primBytes 9 ins o.outLen
    if r.op = 0x21 ∧ sec = List.replicate 32 0#8 then (St.INTEGRITY, 0x24, [], []) else (0, 0, sec, primBytes 8 ins o.wr)
  | 2 => if Config.primOk 11 ins ∧ (r.op = 0x11 ∨ r.op = 0x15) then (St.TIMEOUT, 0x10, [], []) else (0, 0, [], primBytes 8 ins o.wr)
  | 3 => if Config.primOk 10 ins then (0, 0, [], []) else (St.INTEGRITY, 0x11, [], [])
  | _ =>
    let sl := leAt r.buf 0 2
    (0, 0, hkdf r.mode (r.priv.headD []) (slice r.buf 2 sl) (r.buf.drop (2 + sl)) (r.outLen o), [])

/-- R285: USAGE and ORIGIN of an output slot. -/
def hsUsage (o : HsOp) (exp : Bool) : Nat × Nat :=
  match o.kind with
  | 0 => (2 ^ hsUse o.out + 32 * b2n exp, 2)
  | 1 => (5, 4)
  | _ => (5, 3)

/-- HANDSHAKE_DONE: the i-th running operation ends. A result of an old generation is discarded (R287); an output slot taken
meanwhile is the first writer's (R287). -/
def Dev.hsDone (d : Dev) (i : Nat) : Dev :=
  match d.cry.hsRun[i]?, d.cry.hsRun[i]?.bind (fun r => hsOp r.op) with
  | some r, some o =>
    let d0 := d.setCry { d.cry with hsRun := d.cry.hsRun.eraseIdx i }
    if r.bad.isSome then (d0.hsReply r (r.bad.getD (0, 0)).1 (r.bad.getD (0, 0)).2 []).getD d
    else if (d.tenGet r.ten).gen ≠ r.gen then d0.discard r.ten
    else
      let t := some r.ten
      let ins := (if o.in1 ≠ 0 ∨ o.kind = 4 then [r.inSlot] else []) ++ (if o.in2 ≠ 0 then [r.inSlot2] else [])
      let (rnd, d1) := if o.random then d0.drbg 64 (decide (o.kind = 0)) else ([], d0)
      let end_ := fun (d : Dev) (st det : Nat) (out : List Byte) => (d.hsReply r st det out).map (·.count Reg.CRY_HS_DONE)
      let fin := fun (d : Dev) (st det : Nat) (out : List Byte) =>
        end_ (if r.op < 0x40 then d.tollAdd r.ten r.gen 4 1 else d) st det out
      match ins.find? d0.slotBad with
      | some n => (end_ (d0.unwrapFail n) St.INTEGRITY 0x12 []).getD d
      | none =>
        let (st, det, sec, out) := hsResult r o rnd
        if st ≠ 0 ∨ o.out = 0 then (fin d1 st det out).getD d
        else
          match firstFail (d1.newSlot true t r.outSlot) with
          | some (st, det) => (fin d1 st det []).getD d
          | none =>
            let (us, org) := hsUsage o r.exp
            (fin (d1.putSlot t r.outSlot o.out us org sec) 0 0 out).getD d
  | some r, none => (({ d with cry := { d.cry with hsRun := d.cry.hsRun.eraseIdx i } } : Dev).hsReply r St.RANGE (rangeAt 2 16) []).getD d
  | _, _ => d

def execHsOp (e : AdmEntry) (s : State) := s.run (·.admRun e 0x4D (hsOpCmd e))
def execHandshakeStart (s : State) := s.run (·.hsStart)
def execHandshakeDone (i : Nat) (s : State) := s.run (·.hsDone i)

end Sys2Proof.Machine
end

