-- ==== Sys2Proof/Machine/Wicket.lean ====
section
/-! DEFINITION. The Wickets (R459 to R468). -/

namespace Sys2Proof.Machine

/-! Wickets. -/

def Dev.setMgt (d : Dev) (x : MgtPart) : Dev := { d with mgt := x }
def Dev.wkt (d : Dev) (w : Nat) : Wicket := kvGet {} d.mgt.wickets w
def Dev.setWkt (d : Dev) (w : Nat) (x : Wicket) : Dev := d.setMgt { d.mgt with wickets := kvSet {} w x d.mgt.wickets }

def Dev.wktBind (d : Dev) (w : Nat) : Word := d.reg (Reg.WKT_BIND w)
def Dev.wktV (d : Dev) (w : Nat) : Bool := decide (w < 256) && bitOf (d.wktBind w) 31
def Dev.wktArg (d : Dev) (w : Nat) : Nat := fld (d.wktBind w) 27 16
def Dev.wktRecv (d : Dev) (w : Nat) : Nat := fld (d.wktBind w) 15 8
def Dev.wktSend (d : Dev) (w : Nat) : Nat := fld (d.wktBind w) 7 0

/-- R459: the identities that name a master. -/
def isMaster (id : Nat) : Bool :=
  decide (id ≤ 0x11) || decide (0x20 ≤ id ∧ id ≤ 0x23) || decide (0x40 ≤ id ∧ id ≤ 0x4F) || decide (id = 0x80)

/-- R463: the access is the bound sender's, or the bound receiver's. -/
def Dev.wktMay (d : Dev) (id w : Nat) (sender : Bool) : Bool := d.wktV w && decide ((if sender then d.wktSend w else d.wktRecv w) = id)

/-- R463: a refused access. -/
def Dev.wktDeny (d : Dev) (id w : Nat) (write : Bool) : Dev :=
  let d := d.count Reg.WKT_DENY_CNT
  if d.regBit Reg.WKT_GSTAT 1 then d
  else (d.setReg Reg.WKT_DENY_LOG (packW [(b2n write, 16), (id % 256, 8), (w % 256, 0)])).setBit Reg.WKT_GSTAT 1

/-- R463: the register of a Wicket a PF reaches through its BAR0; any other master reaches it directly. -/
def Dev.wktWrite (d : Dev) (id off : Nat) (act : Dev → Dev) : Dev :=
  if id < 16 then (if d.dead then d else d.bar0Write id off act) else act d

/-- R466: the wake of a receiver. -/
def Dev.wktWake (d : Dev) (w : Nat) : Dev :=
  let r := d.wktRecv w
  if r < 16 then d.msixSend (.pf r) (d.wktArg w) (.wicket w)
  else if (0x20 ≤ r ∧ r ≤ 0x23 ∧ d.pwr.stopK) ∨ (0x40 ≤ r ∧ r ≤ 0x4F ∧ d.pwr.stopC) then d.wakeFrom 3
  else d

/-- R460, R464: a post of a message. -/
def Dev.wktPost (d : Dev) (w : Nat) (msg : List Byte) : Dev :=
  let x := d.wkt w
  let seq := if x.seq = 0xFFFF then 1 else x.seq + 1
  let x' := { x with slot := fitTo 64 msg, seq := seq }
  if x.full then (d.setWkt w { x' with collide := true }).count Reg.WKT_COLLIDE_CNT
  else (d.setWkt w { x' with full := true }).wktWake w

/-- The send buffer (R460). -/
def Dev.wktBuf (d : Dev) (w : Nat) : List Byte := (List.range 16).flatMap (fun i => leBytes 4 (d.regN (Reg.WKT_BUF w i)))

def Dev.setWktBuf (d : Dev) (w : Nat) (b : List Byte) : Dev :=
  (List.range 16).foldl (fun d i => d.setReg (Reg.WKT_BUF w i) (BitVec.ofNat 32 (leAt b (4 * i) 4))) d

/-- WKT_POST_w; a master other than a PF brings the 64 bytes it put into the send buffer before (log 40). -/
def Dev.wktPostReg (d : Dev) (id w : Nat) (value : Word) (buf : List Byte) : Dev :=
  d.wktWrite id (Reg.WKT_POST w) fun d =>
    if !d.wktMay id w true then d.wktDeny id w true
    else
      let d := if id < 16 then d else d.setWktBuf w (fitTo 64 buf)
      if bitOf value 0 then d.wktPost w (d.wktBuf w) else d

/-- WKT_STAT_w as it reads. -/
def Wicket.stat (x : Wicket) : Word := packW [(b2n x.full, 31), (b2n x.collide, 30), (x.seq, 0)]

/-- R465 step 1: the receiver's snapshot. -/
def Dev.wktSnap (d : Dev) (w : Nat) : Dev :=
  let x := d.wkt w
  d.setWkt w { x with snap := x.slot, snapSeq := x.seq, taken := x.full }

/-- WKT_STAT_w. -/
def Dev.wktStat (d : Dev) (id w : Nat) : Dev :=
  let act := fun (d : Dev) =>
    if !d.wktMay id w false then (d.wktDeny id w false, 0#32) else (d.wktSnap w, (d.wkt w).stat)
  if id < 16 then (if d.dead then d else d.bar0Read id (Reg.WKT_STAT w) act)
  else
    let r := act d
    { r.1 with lastRead := r.2.zeroExtend 64 }

/-- R465 step 3. -/
def Dev.wktTake (d : Dev) (w code : Nat) : Dev :=
  let x := d.wkt w
  if !x.taken then d.setBit Reg.WKT_GSTAT 0
  else d.setWkt w { x with ackSeq := x.snapSeq, ackCode := code, collide := false, taken := false, full := x.full && decide (x.seq ≠ x.snapSeq) }

/-- R502: the management controller takes a notice of the Tollhouse and tells the PF in MGT_EVT_CFG. -/
def Dev.tollNotice (d : Dev) (m : List Byte) : Dev :=
  d.pfEvent (d.regFld Reg.MGT_EVT_CFG 3 0) { type := 0x190, p1 := leAt m 9 1, p2 := leAt m 0 4 }

/-- WKT_TAKE_w. -/
def Dev.wktTakeReg (d : Dev) (id w : Nat) (value : Word) : Dev :=
  d.wktWrite id (Reg.WKT_TAKE w) fun d =>
    if !d.wktMay id w false then d.wktDeny id w true
    else
      let x := d.wkt w
      let d := if x.taken ∧ id = 0x10 ∧ d.wktSend w = 0x11 then d.tollNotice x.snap else d
      d.wktTake w (fld value 15 0)

/-- WKT_BIND_w (R461, R462): ignored once locked. -/
def Dev.wktBindReg (d : Dev) (pf w : Nat) (value : Word) : Dev :=
  d.bar0Write pf (Reg.WKT_BIND w) fun d =>
    let arg := fld value 27 16
    let r := fld value 15 8
    let s := fld value 7 0
    let argOk := if r < 16 then decide (arg ≤ 1023) else if 0x40 ≤ r ∧ r ≤ 0x4F then decide (arg ≤ 3839) else decide (arg = 0)
    if d.regBit Reg.WKT_LOCK 0 then d
    else if r = s ∨ !isMaster r ∨ !isMaster s ∨ r = 0x11 ∨ !argOk then d.setBit Reg.WKT_GSTAT 0
    else
      (d.setReg (Reg.WKT_BIND w) (value &&& 0x8FFFFFFF#32)).setWkt w
        { d.wkt w with full := false, collide := false, seq := 0, ackSeq := 0, ackCode := 0, taken := false, slot := List.replicate 64 0#8 }

/-- R467: the Wicket for which the supervisor of a cluster claims a channel as sender. -/
def Dev.wktClaim (d : Dev) (c : Nat) : Option Nat :=
  leastBelow (fun w => d.wktV w && decide (0x40 ≤ d.wktSend w ∧ d.wktSend w ≤ 0x4F ∧ d.wktArg w = c)) 256

/-- CLUSTER_WICKET_DELIVER (R467). -/
def Dev.clusterDeliver (d : Dev) (w : Nat) : Dev :=
  let x := d.wkt w
  let r := d.wktRecv w
  let c := d.wktArg w
  if !d.wktV w ∨ r < 0x40 ∨ 0x4F < r ∨ !x.full ∨ d.pwr.stopC ∨ !(d.ch c).v ∨ !d.chRoom c then d
  else
    let k := d.core ((d.ch c).recv / 8)
    if !k.running ∨ k.frozen ∨ k.starting.isSome then d
    else
      let d := d.wktSnap w
      ((d.deliver c w true x.slot).2).wktTake w 0

def execWktPost (id w : Nat) (value : Word) (buf : List Byte) (s : State) := s.runAon (·.wktPostReg id w value buf)
def execWktStat (id w : Nat) (s : State) := s.runAon (·.wktStat id w)
def execWktTake (id w : Nat) (value : Word) (s : State) := s.runAon (·.wktTakeReg id w value)
def execWktBindWrite (pf w : Nat) (value : Word) (s : State) := s.run (·.wktBindReg pf w value)
def execWktLock (pf : Nat) (value : Word) (s : State) :=
  s.run (fun d => d.bar0Write pf Reg.WKT_LOCK (fun d => if bitOf value 0 then d.setBit Reg.WKT_LOCK 0 else d))
def execClusterWicketDeliver (w : Nat) (s : State) := s.run (·.clusterDeliver w)

end Sys2Proof.Machine
end

