-- ==== Sys2Proof/Machine/Cores.lean ====
section
/-! DEFINITION. The packet cores: what a thread sees and does, and how cores freeze (R350 to R375). -/

namespace Sys2Proof.Machine

/-! Issue and retirement (R352, R353). -/

/-- The core runs. -/
def Dev.coreLive (d : Dev) (n : Nat) : Bool :=
  let c := d.core n
  decide (n < 256) && c.running && !c.frozen && c.starting.isNone && !d.pwr.stopC

/-- The thread may issue its next instruction. -/
def Dev.canIssue (d : Dev) (g : Nat) : Bool := d.coreLive (g / 8) && decide ((d.thread g).st = 1)

/-- An instruction of a thread that may issue. -/
def Dev.insn (d : Dev) (g : Nat) (k : Dev → Thread → Dev) : Dev := if d.canIssue g then k d (d.thread g) else d

/-- The instruction retires: pc moves past it. -/
def Dev.retire (d : Dev) (g len : Nat) : Dev :=
  let t := d.thread g
  d.setThread g { t with pc := (t.pc + len) % 2 ^ 64, instret := t.instret + 1 }

/-- An instruction retires with a result. -/
def Dev.ret (d : Dev) (g rd : Nat) (v : Dword) : Dev := (d.setThread g ((d.thread g).setX rd v)).retire g 4
def Dev.retN (d : Dev) (g rd v : Nat) : Dev := d.ret g rd (BitVec.ofNat 64 v)

/-! Messages that end without delivery (R370). -/

/-- The thread's open message is aborted; `e` is what a later CHCMT returns. -/
def Dev.abortMsg (d : Dev) (g e : Nat) : Dev :=
  let t := d.thread g
  match t.msg with
  | none => d
  | some m =>
    let d := d.setThread g { t with msg := none, ended := e }
    if m.abandoned ∨ m.discarded then d else d.count Reg.CORE_CH_ABANDON

/-! Captures (R378). -/

/-- R357: the state code a thread shows. -/
def Core.thrCode (c : Core) (i : Nat) : Nat := if c.frozen then 7 else (c.threads.getD i {}).st
def Core.thrState (c : Core) : Nat := packNat ((List.range 8).map (fun i => (c.thrCode i, 4 * i)))

/-- Thread i as the record shows it. -/
def Dev.captureThread (d : Dev) (g : Nat) : List Byte :=
  let t := d.thread g
  let opened := match t.msg with
    | some m => (2 ^ 63 + m.chan, packNat (m.words.zipIdx.map (fun (w : Option Word × Nat) => (b2n w.1.isSome, w.2))))
    | none => (0, 0)
  fitTo 320 ((List.range 32).flatMap (fun r => leBytes 8 (t.x r).toNat) ++ leBytes 8 t.pc ++ leBytes 8 t.cause ++
    leBytes 8 t.mtval.toNat ++ leBytes 8 (d.pending g) ++ leBytes 8 opened.1 ++ leBytes 2 opened.2)

def Dev.captureRec (d : Dev) (n cause states : Nat) : List Byte :=
  let c := d.core n
  let head := leBytes 4 0x57434150 ++ [1, BitVec.ofNat 8 cause] ++ leBytes 2 n ++ leBytes 8 (d.mcycle n) ++ leBytes 8 d.nowNs ++
    leBytes 4 states ++ leBytes 4 c.held.length
  fitTo 4096 (fitTo 64 head ++ (List.range 8).flatMap (fun i => d.captureThread (8 * n + i))) ++
    fitTo 61440 (fitTo 2048 (c.held.flatMap (fun h => leBytes 4 h.1))) ++ memRead c.mem 0 196608

/-- A new record goes to slot 0; the oldest is lost. -/
def Dev.capture (d : Dev) (n cause states : Nat) : Dev :=
  let c := d.core n
  d.setCore n { c with captures := (d.captureRec n cause states :: c.captures).take 4 }

/-! Freezing and restart (R374, R381). -/

/-- R374 steps 1 and 2: no thread issues, and their open messages are aborted. -/
def Dev.freezeThreads (d : Dev) (n code : Nat) : Dev :=
  let d := d.setCore n { d.core n with frozen := true, cause := code }
  (List.range 8).foldl (fun d i => d.abortMsg (8 * n + i) 0) d

/-- R374 step 4: every token takes its fate. -/
def Dev.coreFates (d : Dev) (n : Nat) : Dev :=
  let c := d.core n
  let d := d.setCore n { c with held := [], hq := [] }
  let d := c.held.foldl (fun (d : Dev) (h : Nat × Option Nat) => d.coreFate h.1 h.2) d
  c.hq.foldl (fun (d : Dev) (h : Nat × Nat) => d.coreFate h.1 (some h.2)) d

/-- R374 steps 1 to 4. -/
def Dev.freeze (d : Dev) (n code cause : Nat) : Dev :=
  let states := (d.core n).thrState
  ((d.freezeThreads n code).capture n cause states).coreFates n

/-- A core begins to start from a slot; a core that runs is stopped first, without a capture record. -/
def Dev.beginStart (d : Dev) (n slot : Nat) (shared : Bool) : Dev :=
  let c := d.core n
  let d := if c.running ∧ !c.frozen then (d.freezeThreads n 3).coreFates n else d
  d.setCore n { d.core n with starting := some (slot, shared) }

/-- A gridlock or a core fault: R374 steps 1 to 6, and the restart if AUTO_RESTART is 1. -/
def Dev.coreDown (d : Dev) (n code : Nat) : Dev :=
  let d := d.freeze n code code
  let d := d.count (if code = 1 then Reg.CORE_GRID_CNT else Reg.CORE_FAULT_CNT)
  let d := (d.setBit Reg.CORE_GSTAT code).pfEvent (d.regFld Reg.CORE_EVT_CFG 3 0) { type := 0x13F + code, p1 := n }
  if d.regBit Reg.CORE_EVT_CFG 8 then d.beginStart n (d.core n).slot false else d

/-! Exceptions (R358, R359). -/

/-- A thread's exception. -/
def Dev.except (d : Dev) (g cause : Nat) (mtval : Dword) : Dev :=
  let t := d.thread g
  let d := d.traceRec g 1
  if g % 8 = 0 then
    let c := d.core (g / 8)
    if c.inTrap then d.coreDown (g / 8) 2
    else
      let ms := c.mstatus.toNat
      let mie := ms / 8 % 2
      let mst := ms - 8 * mie - ms / 128 % 2 * 128 + mie * 128
      (d.setCore (g / 8) { c with
        inTrap := true, mepc := BitVec.ofNat 64 t.pc, mcause := BitVec.ofNat 64 cause, mtval := mtval
        mstatus := BitVec.ofNat 64 mst ||| 0x1800#64 }).setThread g { t with pc := c.mtvec.toNat / 4 * 4 }
  else
    let d := d.setThread g { t with st := 5, cause := cause, mtval := mtval, wait := none, waitChan := none }
    (d.abortMsg g 1).raise (g / 8 * 8) 5

/-- MRET of thread 0. -/
def Dev.mret (d : Dev) (g : Nat) : Dev :=
  let c := d.core (g / 8)
  let ms := c.mstatus.toNat
  let mpie := ms / 128 % 2
  let mst := ms - 8 * (ms / 8 % 2) - 128 * mpie + 8 * mpie + 128
  let d := d.setCore (g / 8) { c with inTrap := false, mstatus := BitVec.ofNat 64 mst ||| 0x1800#64 }
  let t := d.thread g
  d.setThread g { t with pc := c.mepc.toNat, instret := t.instret + 1 }

/-- An illegal-instruction exception; what mtval holds is left open. -/
def Dev.illegal (d : Dev) (g : Nat) : Dev :=
  let (k, d) := d.draw
  d.except g 2 (Config.freeDword k)

/-! The thread's address map (R350). -/

inductive Spot where
  | loc (o : Nat)
  | shr (o : Nat)
  | win (addr : Nat) (r w : Bool)
  | bad
  deriving DecidableEq, Repr

def Dev.spot (d : Dev) (g a n : Nat) : Spot :=
  if a + n ≤ 0x30000 then .loc a
  else if 0x100000 ≤ a ∧ a + n ≤ 0x200000 then .shr (a - 0x100000)
  else if 0x8000000000 ≤ a ∧ a < 0x8000000000 + 8 * 2 ^ 36 then
    let w := (d.cluster (g / 128)).wins.getD ((a - 0x8000000000) / 2 ^ 36) {}
    let o := a % 2 ^ 36
    if w.v ∧ o + n ≤ w.size then .win (w.base + o) w.r w.w else .bad
  else .bad

/-- Bytes of the core-image region (R379). -/
def Dev.imageByte (d : Dev) (a : Nat) : Byte :=
  ((kvGet [] d.cpu.images ((a - 0x2C20000000) / 0x1000000)).drop (a % 0x1000000)).headD 0#8

/-- A window read; a poisoned line reads free bytes. -/
def Dev.winRead (d : Dev) (a n : Nat) : List Byte × Dev :=
  if hbmReserved ≤ a then ((List.range n).map (fun i => d.imageByte (a + i)), d)
  else if d.hbm.poisoned a n then
    let (k, d) := d.draw
    (freeBytes k n, d)
  else (d.hbm.bytes a n, d)

def Dev.locRead (d : Dev) (g o n : Nat) : List Byte := memRead (d.core (g / 8)).mem o n
def Dev.shrRead (d : Dev) (g o n : Nat) : List Byte := memRead (d.cluster (g / 128)).mem o n

/-- A store ends the load-reserved reservations of other threads on its line. -/
def Dev.unreserve (d : Dev) (g lo hi line : Nat) : Dev :=
  (List.range (hi - lo)).foldl (fun d i =>
    let t := d.thread (lo + i)
    if lo + i ≠ g ∧ t.resv = some line then d.setThread (lo + i) { t with resv := none } else d) d

def Dev.locWrite (d : Dev) (g o : Nat) (b : List Byte) : Dev :=
  let c := d.core (g / 8)
  (d.setCore (g / 8) { c with mem := memWrite c.mem o b }).unreserve g (g / 8 * 8) (g / 8 * 8 + 8) (o / 64)

def Dev.shrWrite (d : Dev) (g o : Nat) (b : List Byte) : Dev :=
  let c := d.cluster (g / 128)
  (d.setCluster (g / 128) { c with mem := memWrite c.mem o b }).unreserve g (g / 128 * 128) (g / 128 * 128 + 128)
    ((o + 0x100000) / 64)

/-- A read of local or shared memory, or of a window. -/
def Dev.spotRead (d : Dev) (g a n : Nat) : Option (List Byte × Dev) :=
  match d.spot g a n with
  | .loc o => some (d.locRead g o n, d)
  | .shr o => some (d.shrRead g o n, d)
  | .win x r _ => if r then some (d.winRead x n) else none
  | .bad => none

def Dev.spotWrite (d : Dev) (g a : Nat) (b : List Byte) : Option Dev :=
  match d.spot g a b.length with
  | .loc o => some (d.locWrite g o b)
  | .shr o => some (d.shrWrite g o b)
  | .win x _ w => if w then some (d.hbmWrite x b) else none
  | .bad => none

/-- The address rs1 + imm. -/
def Thread.ea (t : Thread) (rs1 : Nat) (imm : Int) : Nat := (t.x rs1 + BitVec.ofInt 64 imm).toNat

/-- A loaded value of a size. -/
def loadValue (size : Nat) (signed : Bool) (v : Nat) : Dword :=
  if signed ∧ 2 ^ (8 * size - 1) ≤ v then BitVec.ofNat 64 (2 ^ 64 - 2 ^ (8 * size) + v) else BitVec.ofNat 64 v

/-- What an atomic writes, for operands of a size. -/
def amoValue (op size old new : Nat) : Nat :=
  let m := 2 ^ (8 * size)
  let s := fun v => (v + m / 2) % m
  match op with
  | 0 => new
  | 1 => (old + new) % m
  | 2 => (BitVec.ofNat 64 old ^^^ BitVec.ofNat 64 new).toNat
  | 3 => andNat old new
  | 4 => (BitVec.ofNat 64 old ||| BitVec.ofNat 64 new).toNat
  | 5 => if s old ≤ s new then old else new
  | 6 => if s old ≤ s new then new else old
  | 7 => min old new
  | _ => max old new

/-- An atomic on local or shared memory (R351). -/
def Dev.amo (d : Dev) (g op rd rs1 rs2 size : Nat) : Dev :=
  let t := d.thread g
  let a := (t.x rs1).toNat
  let va := BitVec.ofNat 64 a
  if a % max 1 size ≠ 0 then d.except g (if op = 9 then 4 else 6) va
  else
    let inWin := match d.spot g a size with
      | .win _ _ _ => true
      | .bad => true
      | _ => false
    if inWin then d.except g (if op = 9 ∧ d.spot g a size = .bad then 5 else 7) va
    else
      match d.spotRead g a size with
      | none => d
      | some (b, d) =>
        let old := leAt b 0 size
        let src := (t.x rs2).toNat % 2 ^ (8 * size)
        if op = 9 then (d.setThread g { t with resv := some (a / 64) }).ret g rd (loadValue size true old)
        else if op = 10 then
          let d' := d.setThread g { t with resv := none }
          if t.resv = some (a / 64) then ((d'.spotWrite g a (leBytes size src)).getD d').retN g rd 0 else d'.retN g rd 1
        else ((d.spotWrite g a (leBytes size (amoValue op size old src))).getD d).ret g rd (loadValue size true old)

/-- THREAD_ACCESS (R348, R350). -/
def Dev.threadAccess (d : Dev) (g : Nat) (acc : ThreadAcc) : Dev :=
  d.insn g fun d t =>
    match acc with
    | .load rd rs1 imm size signed ilen =>
      let a := t.ea rs1 imm
      let va := BitVec.ofNat 64 a
      if a % max 1 size ≠ 0 then d.except g 4 va
      else
        match d.spotRead g a size with
        | none => d.except g 5 va
        | some (b, d) => (d.setThread g ((d.thread g).setX rd (loadValue size signed (leAt b 0 size)))).retire g ilen
    | .store rs1 rs2 imm size ilen =>
      let a := t.ea rs1 imm
      let va := BitVec.ofNat 64 a
      if a % max 1 size ≠ 0 then d.except g 6 va
      else
        match d.spotWrite g a (leBytes size (t.x rs2).toNat) with
        | none => d.except g 7 va
        | some d => d.retire g ilen
    | .amo op rd rs1 rs2 size => d.amo g op rd rs1 rs2 size
    | .fetch rd value next =>
      match d.spot g t.pc 2 with
      | .win _ _ _ => d.except g 1 (BitVec.ofNat 64 t.pc)
      | .bad => d.except g 1 (BitVec.ofNat 64 t.pc)
      | _ =>
        let t' := { t.setX rd value with pc := next % 2 ^ 64, instret := t.instret + 1 }
        (if next = t.pc + 2 ∨ next = t.pc + 4 then d else d.traceRec g 0).setThread g t'

/-! Tokens (R362, R364, R365). -/

def handleNone : Nat := 2 ^ 63

/-- A token operand the core holds; otherwise TOKEN is raised. -/
def Dev.withToken (d : Dev) (g : Nat) (v : Dword) (k : Nat → Packet → Dev) : Dev :=
  let tok := v.toNat
  if (kvFind tok (d.core (g / 8)).held).isNone then d.except g 24 v
  else
    match d.pkt tok with
    | some p => k tok p
    | none => d.except g 24 v

/-- The core gives up a token. -/
def Dev.giveUp (d : Dev) (g tok : Nat) : Dev :=
  let c := d.core (g / 8)
  d.setCore (g / 8) { c with held := kvDel tok c.held }

def Dev.hold (d : Dev) (g tok : Nat) (h : Option Nat) : Dev :=
  let c := d.core (g / 8)
  d.setCore (g / 8) { c with held := kvPut tok h c.held }

/-- An address in local memory for n bytes, aligned, of a store kind or a load kind; otherwise the fault of R350. -/
def Dev.withLocal (d : Dev) (g : Nat) (v : Dword) (n align : Nat) (store : Bool) (k : Nat → Dev) : Dev :=
  if v.toNat % align ≠ 0 then d.except g (if store then 6 else 4) v
  else if 0x30000 < v.toNat + n then d.except g (if store then 7 else 5) v
  else k v.toNat

def Dev.tknext (d : Dev) (g rd rs1 : Nat) : Dev :=
  d.insn g fun d t =>
    let c := d.core (g / 8)
    match c.hq with
    | [] => d.retN g rd handleNone
    | (tok, h) :: rest =>
      if 512 ≤ c.held.length then d.retN g rd (handleNone + 2 ^ 62)
      else
        d.withLocal g (t.x rs1) 48 16 true fun a =>
          match d.pkt tok with
          | none => (d.setCore (g / 8) { c with hq := rest }).retN g rd handleNone
          | some p =>
            let d := (d.setCore (g / 8) { c with hq := rest }).hold g tok (some h)
            ((d.locWrite g a (p.record tok)).traceRec g 3).retN g rd tok

def Dev.tkfree (d : Dev) (g rs1 : Nat) : Dev :=
  d.insn g fun d t => d.withToken g (t.x rs1) fun tok _ => ((d.giveUp g tok).dropPkt tok).retire g 4

def Dev.tkfwd (d : Dev) (g rs1 rs2 : Nat) : Dev :=
  d.insn g fun d t => d.withToken g (t.x rs1) fun tok p =>
    let c : Cls := { p.cls with av := true, action := fld (t.x rs2) 16 0 }
    ((d.giveUp g tok).setPkt tok { p with stage := .classified, cls := c }).retire g 4

/-- TKRECL waits while the re-entry queue is full. -/
def Dev.tkrecl (d : Dev) (g rs1 : Nat) : Dev :=
  d.insn g fun d t => d.withToken g (t.x rs1) fun tok _ =>
    match (d.giveUp g tok).toReentry tok with
    | some d => d.retire g 4
    | none => d

def Dev.tkexc (d : Dev) (g rs1 rs2 : Nat) : Dev :=
  d.insn g fun d t => d.withToken g (t.x rs1) fun tok _ =>
    ((d.giveUp g tok).toExcRing tok (0x80 + fld (t.x rs2) 6 0)).retire g 4

def Dev.tknew (d : Dev) (g rd rs1 : Nat) : Dev :=
  d.insn g fun d t =>
    let n := (t.x rs1).toNat
    if n = 0 ∨ 16000 < n ∨ 512 ≤ (d.core (g / 8)).held.length then d.retN g rd handleNone
    else
      match d.sq.store { pool := 18, cells := 0, data := List.replicate n 0#8, stage := .core (g / 8), port := 18 } with
      | none => d.retN g rd handleNone
      | some (tok, q) => ((d.setSquare q).hold g tok none).retN g rd tok

/-- HADJ and HLEN: 0 done, 1 RANGE, 2 NOSPACE. -/
def Dev.resizeTok (d : Dev) (g rd tok : Nat) (len : Int) (data : List Byte) : Dev :=
  if len < 1 ∨ 16128 < len then d.retN g rd 1
  else
    match d.resizePkt tok data with
    | some d => d.retN g rd 0
    | none => d.retN g rd 2

def Dev.hadj (d : Dev) (g rd rs1 rs2 : Nat) : Dev :=
  d.insn g fun d t => d.withToken g (t.x rs1) fun tok p =>
    let k := (t.x rs2).toInt
    let len := (p.data.length : Int) - k
    d.resizeTok g rd tok len
      (if len < 1 ∨ 16128 < len then [] else if 0 ≤ k then p.data.drop k.toNat else List.replicate (-k).toNat 0#8 ++ p.data)

def Dev.hlen (d : Dev) (g rd rs1 rs2 : Nat) : Dev :=
  d.insn g fun d t => d.withToken g (t.x rs1) fun tok p =>
    let n := (t.x rs2).toNat
    d.resizeTok g rd tok n (if 16128 < n then [] else fitTo n p.data)

/-- PKRD and PKWR: RANGE for a length outside 1 to 4,096, PKT_RANGE beyond the frame, the access fault of R350 for an
address outside local and shared memory. -/
def Dev.pkCopy (d : Dev) (g rd rs1 rs2 : Nat) (write : Bool) : Dev :=
  d.insn g fun d t => d.withToken g (t.x rs1) fun tok p =>
    d.withLocal g (t.x rs2) 16 1 false fun a =>
      let s := d.locRead g a 16
      let off := leAt s 0 4
      let n := leAt s 4 4
      let at_ := leAt s 8 8
      let fault := d.except g (if write then 5 else 7) (BitVec.ofNat 64 at_)
      if n = 0 ∨ 4096 < n then d.retN g rd 1
      else if p.data.length < off + n then d.except g 25 (BitVec.ofNat 64 off)
      else
        match d.spot g at_ n with
        | .win _ _ _ => fault
        | .bad => fault
        | _ =>
          if write then
            match d.spotRead g at_ n with
            | some (b, d) => (d.setPkt tok { p with data := patch p.data off b }).retN g rd 0
            | none => fault
          else
            match d.spotWrite g at_ (slice p.data off n) with
            | some d => d.retN g rd 0
            | none => fault

/-! HLD and HST. -/

/-- size: 1, 2, 4 or 8 bytes, in network order. -/
def Dev.hld (d : Dev) (g rd rs1 imm size : Nat) : Dev :=
  d.insn g fun d t => d.withToken g (t.x rs1) fun _ p =>
    if p.data.length < imm + size then d.except g 25 (BitVec.ofNat 64 imm)
    else d.retN g rd (beAt p.data imm size)

def Dev.hst (d : Dev) (g rs1 rs2 imm size : Nat) : Dev :=
  d.insn g fun d t => d.withToken g (t.x rs1) fun tok p =>
    if p.data.length < imm + size then d.except g 25 (BitVec.ofNat 64 imm)
    else (d.setPkt tok { p with data := patch p.data imm (beBytes size (t.x rs2).toNat) }).retire g 4

/-! Lookups (R367). -/

/-- LKUP waits while 16 are outstanding. -/
def Dev.lkup (d : Dev) (g rd rs1 rs2 : Nat) : Dev :=
  d.insn g fun d t =>
    if 16 ≤ t.lookups.length then d
    else
      d.withLocal g (t.x rs1) 64 64 false fun a => d.withLocal g (t.x rs2) 64 64 true fun r =>
        let l : Lookup := { seq := t.seq, req := d.locRead g a 64, result := r }
        (d.setThread g { t with lookups := t.lookups ++ [l], seq := (t.seq + 1) % 2 ^ 64 }).retN g rd t.seq

/-- LKUP_DONE: the oldest lookup of the thread ends. -/
def Dev.lkupDone (d : Dev) (g : Nat) (ecc : Ecc) : Dev :=
  let t := d.thread g
  match t.lookups with
  | [] => d
  | l :: rest =>
    let d := (d.setThread g { t with lookups := rest }).applyEcc ecc
    let c := d.core (g / 8)
    if c.frozen ∨ c.starting.isSome then d
    else
      let table := leAt l.req 0 1
      if table ≠ 1 ∧ table ≠ 2 ∧ table ≠ 6 then (d.locWrite g (l.result + 63) [0x82#8]).raise g 2
      else
        match d.lookup table (slice l.req 8 40) with
        | (_, some a, d) =>
          let b := slice (d.line a) 40 24
          let d := if leAt l.req 1 1 % 2 = 1 then d.hitLine a else d
          ((d.locWrite g l.result b).locWrite g (l.result + 63) [0x80#8]).raise g 2
        | (_, none, d) => (d.locWrite g (l.result + 63) [0x81#8]).raise g 2

/-! Events and timers (R365, R372). -/

def Dev.evwait (d : Dev) (g rd rs1 : Nat) : Dev :=
  d.insn g fun d t =>
    let mask := fld (t.x rs1) 15 0
    if mask = 0 then d.retN g rd 0
    else (d.setThread g { t with st := 2, wait := some (rd, mask) }).wake g

def Dev.evsig (d : Dev) (g rs1 : Nat) : Dev :=
  d.insn g fun d t =>
    ((List.range 8).foldl (fun d i => if bitOf (t.x rs1) i then d.raise (g / 8 * 8 + i) 4 else d) d).retire g 4

def Dev.tmset (d : Dev) (g rs1 : Nat) : Dev :=
  d.insn g fun d t =>
    let n := fld (t.x rs1) 39 0
    (d.setThread g { t with timer := if n = 0 then none else some n }).retire g 4

/-- THREAD_TIMER. -/
def Dev.threadTimer (d : Dev) (g : Nat) : Dev :=
  let t := d.thread g
  if t.timer = none ∨ !d.coreLive (g / 8) then d else (d.setThread g { t with timer := none }).raise g 3

/-! Counters (R365, R258). -/

def Dev.ctadd (d : Dev) (g rs1 rs2 : Nat) : Dev :=
  d.insn g fun d t =>
    let v := t.x rs1
    if v.toNat % 8 ≠ 0 then d.except g 6 v
    else
      match d.spot g v.toNat 8 with
      | .win a _ true => (d.hbmWrite a (leBytes 8 (leAt (d.hbm.bytes a 8) 0 8 + (t.x rs2).toNat))).retire g 4
      | _ => d.except g 7 v

def Dev.ctpb (d : Dev) (g rs1 rs2 : Nat) : Dev :=
  d.insn g fun d t =>
    let n := fld (t.x rs1) 23 0
    (if d.ctrV n then d.ctrAdd n (t.x rs2).toNat else d.count Reg.CORE_CT_BAD).retire g 4

/-! Registers of other threads (R356, R363). -/

/-- HELD, HALT_STOP or HALT_EXC. -/
def Thread.parked (t : Thread) : Bool := decide (t.st = 0 ∨ t.st = 4 ∨ t.st = 5)

/-- The register an index names; it reads 0 in a thread that is not halted or held. -/
def Thread.regAt (t : Thread) (i : Nat) : Dword :=
  if i = 33 then BitVec.ofNat 64 t.cause
  else if i = 34 then t.mtval
  else if !t.parked ∧ t.st ≠ 6 then 0
  else if i = 32 then BitVec.ofNat 64 t.pc
  else t.x i

/-- Writes to index 0, 33 and 34 are ignored. -/
def Thread.regPut (t : Thread) (i : Nat) (v : Dword) : Thread :=
  if i = 32 then { t with pc := v.toNat } else if i < 32 then t.setX i v else t

def Dev.twr (d : Dev) (g rd rs1 rs2 : Nat) : Dev :=
  d.insn g fun d t =>
    let sel := t.x rs2
    let o := g / 8 * 8 + fld sel 2 0
    if g % 8 ≠ 0 ∨ fld sel 2 0 = 0 ∨ 34 < fld sel 13 8 then d.illegal g
    else if !(d.thread o).parked then d.retN g rd 1
    else (d.setThread o ((d.thread o).regPut (fld sel 13 8) (t.x rs1))).retN g rd 0

def Dev.trd (d : Dev) (g rd rs1 : Nat) : Dev :=
  d.insn g fun d t =>
    let sel := t.x rs1
    let o := g / 8 * 8 + fld sel 2 0
    if g % 8 ≠ 0 ∨ fld sel 2 0 = 0 ∨ 34 < fld sel 13 8 then d.illegal g
    else d.ret g rd ((d.thread o).regAt (fld sel 13 8))

/-- Released: not held and not halted by an exception or by CORE_THR_STOP. -/
def Core.released (c : Core) : Nat :=
  if !c.running then 0
  else packNat ((List.range 8).map (fun i => (b2n (decide (i = 0) || !(c.threads.getD i {}).parked), i)))

/-- CORE_THR_GO: a CSR write of rs1, with the old value in rd. -/
def Dev.thrGo (d : Dev) (g rd rs1 : Nat) : Dev :=
  d.insn g fun d t =>
    if g % 8 ≠ 0 then d.illegal g
    else
      let old := (d.core (g / 8)).released
      let d := (List.range 7).foldl (fun d i =>
        let o := d.thread (g + i + 1)
        if bitOf (t.x rs1) (i + 1) ∧ o.parked then d.setThread (g + i + 1) { o with st := 1 } else d) d
      d.retN g rd old

/-- CORE_THR_STOP; it reads 0. -/
def Dev.thrStop (d : Dev) (g rd rs1 : Nat) : Dev :=
  d.insn g fun d t =>
    if g % 8 ≠ 0 then d.illegal g
    else
      let d := (List.range 7).foldl (fun d i =>
        let o := d.thread (g + i + 1)
        if bitOf (t.x rs1) (i + 1) ∧ !o.parked then
          (d.setThread (g + i + 1) { o with st := 4, wait := none, waitChan := none }).abortMsg (g + i + 1) 1
        else d) d
      d.retN g rd 0

/-! Channels (R358, R365, R368 to R371). -/

/-- The thread may send on the channel: bound and in its scope, claimed by a Wicket of its cluster, or the handshake
endpoint. -/
def Dev.maySend (d : Dev) (g c : Nat) : Bool :=
  if c = 0xF00 then true
  else if 3840 ≤ c then false
  else
    match d.wktClaim c with
    | some w => decide (d.wktSend w = 0x40 + g / 128)
    | none =>
      let x := d.ch c
      x.v && (match fld x.bind 62 61 with
        | 0 => decide (x.recv / 8 = g / 8)
        | 1 => decide (x.recv / 128 = g / 128)
        | _ => true)

/-- CHSEND must wait: another message is open on the channel, or it has no free slot. -/
def Dev.sendWaits (d : Dev) (c : Nat) : Bool :=
  d.chOpen c || (if c = 0xF00 then decide (1024 ≤ d.hsQueued)
    else if (d.wktClaim c).isSome then false
    else decide ((d.ch c).depth ≤ (d.ch c).msgs.length))

/-- CHSEND; a thread that waits executes it again. -/
def Dev.chsend (d : Dev) (g rs1 : Nat) : Dev :=
  let t := d.thread g
  let c := fld (t.x rs1) 11 0
  if !d.coreLive (g / 8) ∨ !(t.st = 1 ∨ (t.st = 3 ∧ t.waitChan = some c)) then d
  else if !d.maySend g c then (d.setThread g { t with st := 1, waitChan := none }).except g 26 (BitVec.ofNat 64 c)
  else
    let d := d.abortMsg g 0
    let t := d.thread g
    if d.sendWaits c then d.setThread g { t with st := 3, waitChan := some c }
    else (d.setThread g { t with st := 1, waitChan := none, msg := some { chan := c }, ended := 0 }).retire g 4

/-- CHW: words of a message that ended are ignored. -/
def Dev.chw (d : Dev) (g rs1 rs2 : Nat) : Dev :=
  d.insn g fun d t =>
    match t.msg with
    | none => d.except g 26 0xFFFFFFFF#64
    | some m =>
      if m.abandoned ∨ m.discarded then d.retire g 4
      else
        let w := m.words.set (fld (t.x rs2) 3 0) (some ((t.x rs1).truncate 32))
        (d.setThread g { t with msg := some { m with words := w } }).retire g 4

/-- The 64 bytes of a message; words not written are 0. -/
def OpenMsg.bytes (m : OpenMsg) : List Byte := m.words.flatMap (fun w => leBytes 4 (w.getD 0).toNat)

/-- CHCMT: 0 delivered, 1 ABANDONED, 2 DISCARDED. With no message, and none that ended otherwise, the result is open. -/
def Dev.chcmt (d : Dev) (g rd : Nat) : Dev :=
  d.insn g fun d t =>
    match t.msg with
    | none =>
      if t.ended ≠ 0 then (d.setThread g { t with ended := 0 }).retN g rd t.ended
      else
        let (k, d) := d.draw
        d.ret g rd (Config.freeDword k)
    | some m =>
      let d := d.setThread g { t with msg := none, ended := 0 }
      if m.abandoned then d.retN g rd 1
      else if m.discarded then d.retN g rd 2
      else if m.chan = 0xF00 then (d.hsPost (d.hsFromMsg m.bytes)).retN g rd 0
      else
        match d.wktClaim m.chan with
        | some w => (d.wktPost w m.bytes).retN g rd 0
        | none =>
          let (ok, d) := d.deliver m.chan g false m.bytes
          d.retN g rd (if ok then 0 else 2)

def Dev.chabt (d : Dev) (g : Nat) : Dev := d.insn g fun d _ => (d.abortMsg g 0).retire g 4

def Dev.chrecv (d : Dev) (g rd rs1 rs2 : Nat) : Dev :=
  d.insn g fun d t =>
    let c := fld (t.x rs2) 11 0
    let x := d.ch c
    if 3840 ≤ c ∨ !x.v ∨ x.recv ≠ g then d.except g 26 (BitVec.ofNat 64 c)
    else
      match x.msgs with
      | [] => d.retN g rd handleNone
      | m :: rest =>
        d.withLocal g (t.x rs1) 64 64 true fun a =>
          let b := d.shrRead g (x.buf + 64 * m.slot) 64
          ((d.setCh c { x with msgs := rest }).locWrite g a b).retN g rd (packNat [(b2n m.engine, 12), (m.sender % 2048, 0)])

/-- CHANNEL_LEASE_EXPIRE (R370, R377): while the thread is in HALT_DEBUG, only if its lease counts. -/
def Dev.leaseExpire (d : Dev) (g : Nat) : Dev :=
  let t := d.thread g
  match t.msg with
  | none => d
  | some m =>
    if m.abandoned ∨ m.discarded ∨ (t.st = 6 ∧ d.regBit Reg.CORE_DBG_CTL 0) ∨ (d.core (g / 8)).frozen then d
    else (d.setThread g { t with msg := some { m with abandoned := true } }).count Reg.CORE_CH_ABANDON

/-! Gridlock (R373, R374). -/

/-- A masked event that only a thread of the same core can raise. -/
def Dev.ownEvents (d : Dev) (g mask : Nat) : Bool :=
  decide (mask / 64 = 0 ∧ andNat mask 0x2D = 0) &&
    (decide (mask / 2 % 2 = 0) || d.cpu.chans.all (fun c => !(c.2.v && decide (c.2.recv = g)) || decide (fld c.2.bind 62 61 = 0)))

def Dev.stuck (d : Dev) (g : Nat) : Bool :=
  let t := d.thread g
  t.parked ||
    (decide (t.st = 3) && (match t.waitChan with
      | some c => (d.core (g / 8)).holds c
      | none => false)) ||
    (decide (t.st = 2) && (match t.wait with
      | some (_, m) => d.ownEvents g m && decide (andNat (d.pending g) m = 0)
      | none => false))

/-- GRIDLOCK: the counter of the core reached 65,536. -/
def Dev.gridlock (d : Dev) (n : Nat) : Dev :=
  let still := (List.range 8).all (fun i =>
    let t := d.thread (8 * n + i)
    d.stuck (8 * n + i) && t.lookups.isEmpty && t.timer.isNone)
  if d.coreLive n ∧ still then d.coreDown n 1 else d

/-- CORE_EXCEPTION: a standard exception, or MRET of thread 0. -/
def Dev.coreException (d : Dev) (g cause : Nat) (mtval : Dword) (mret : Bool) : Dev :=
  d.insn g fun d _ =>
    if mret then (if g % 8 = 0 then d.mret g else d.illegal g)
    else d.except g cause mtval

def execThreadAccess (g : Nat) (acc : ThreadAcc) (s : State) := s.run (·.threadAccess g acc)
def execTknext (g rd rs1 : Nat) (s : State) := s.run (·.tknext g rd rs1)
def execTkfree (g rs1 : Nat) (s : State) := s.run (·.tkfree g rs1)
def execTkfwd (g rs1 rs2 : Nat) (s : State) := s.run (·.tkfwd g rs1 rs2)
def execTkrecl (g rs1 : Nat) (s : State) := s.run (·.tkrecl g rs1)
def execTkexc (g rs1 rs2 : Nat) (s : State) := s.run (·.tkexc g rs1 rs2)
def execTknew (g rd rs1 : Nat) (s : State) := s.run (·.tknew g rd rs1)
def execHadj (g rd rs1 rs2 : Nat) (s : State) := s.run (·.hadj g rd rs1 rs2)
def execHlen (g rd rs1 rs2 : Nat) (s : State) := s.run (·.hlen g rd rs1 rs2)
def execPkrd (g rd rs1 rs2 : Nat) (s : State) := s.run (·.pkCopy g rd rs1 rs2 false)
def execPkwr (g rd rs1 rs2 : Nat) (s : State) := s.run (·.pkCopy g rd rs1 rs2 true)
def execLkup (g rd rs1 rs2 : Nat) (s : State) := s.run (·.lkup g rd rs1 rs2)
def execLkupDone (g : Nat) (ecc : Ecc) (s : State) := s.run (·.lkupDone g ecc)
def execEvwait (g rd rs1 : Nat) (s : State) := s.run (·.evwait g rd rs1)
def execEvsig (g rs1 : Nat) (s : State) := s.run (·.evsig g rs1)
def execTmset (g rs1 : Nat) (s : State) := s.run (·.tmset g rs1)
def execThreadTimer (g : Nat) (s : State) := s.run (·.threadTimer g)
def execCtadd (g rs1 rs2 : Nat) (s : State) := s.run (·.ctadd g rs1 rs2)
def execCtpb (g rs1 rs2 : Nat) (s : State) := s.run (·.ctpb g rs1 rs2)
def execTwr (g rd rs1 rs2 : Nat) (s : State) := s.run (·.twr g rd rs1 rs2)
def execTrd (g rd rs1 : Nat) (s : State) := s.run (·.trd g rd rs1)
def execChsend (g rs1 : Nat) (s : State) := s.run (·.chsend g rs1)
def execChw (g rs1 rs2 : Nat) (s : State) := s.run (·.chw g rs1 rs2)
def execChcmt (g rd : Nat) (s : State) := s.run (·.chcmt g rd)
def execChabt (g : Nat) (s : State) := s.run (·.chabt g)
def execChrecv (g rd rs1 rs2 : Nat) (s : State) := s.run (·.chrecv g rd rs1 rs2)
def execHld (g rd rs1 imm size : Nat) (s : State) := s.run (·.hld g rd rs1 imm size)
def execHst (g rs1 rs2 imm size : Nat) (s : State) := s.run (·.hst g rs1 rs2 imm size)
def execCoreThrGo (g rd rs1 : Nat) (s : State) := s.run (·.thrGo g rd rs1)
def execCoreThrStop (g rd rs1 : Nat) (s : State) := s.run (·.thrStop g rd rs1)
def execCoreException (g cause : Nat) (mtval : Dword) (mret : Bool) (s : State) := s.run (·.coreException g cause mtval mret)
def execChannelLeaseExpire (g : Nat) (s : State) := s.run (·.leaseExpire g)
def execGridlock (n : Nat) (s : State) := s.run (·.gridlock n)

end Sys2Proof.Machine
end

