-- ==== Sys2Proof/Machine/CoreCmd.lean ====
section
/-! DEFINITION. The debugger of the packet cores and their admin commands (R376 to R382). -/

namespace Sys2Proof.Machine

/-! Xwpk instruction words (R364, R365), for STEP. -/

/-- An S-type immediate: unsigned, 12 bits (R365). -/
def sImm (w : Nat) : Nat := w / 2 ^ 25 * 32 + w / 2 ^ 7 % 32

/-- Execute a custom-0 instruction; an encoding that R365 does not list is illegal. -/
def Dev.custom0 (d : Dev) (g w : Nat) : Dev :=
  let rd := w / 2 ^ 7 % 32
  let a := w / 2 ^ 15 % 32
  let b := w / 2 ^ 20 % 32
  match w / 2 ^ 12 % 8, w / 2 ^ 25 with
  | 0, 0 => d.tknext g rd a
  | 0, 1 => d.tkfree g a
  | 0, 2 => d.tkfwd g a b
  | 0, 3 => d.tkrecl g a
  | 0, 4 => d.tkexc g a b
  | 0, 5 => d.tknew g rd a
  | 0, 6 => d.hadj g rd a b
  | 0, 7 => d.hlen g rd a b
  | 0, 8 => d.pkCopy g rd a b false
  | 0, 9 => d.pkCopy g rd a b true
  | 0, 10 => d.lkup g rd a b
  | 1, 0 => d.evwait g rd a
  | 1, 1 => d.evsig g a
  | 1, 2 => d.tmset g a
  | 1, 3 => d.ctadd g a b
  | 1, 4 => d.ctpb g a b
  | 1, 5 => d.twr g rd a b
  | 1, 6 => d.trd g rd a
  | 2, 0 => d.chsend g a
  | 2, 1 => d.chw g a b
  | 2, 2 => d.chcmt g rd
  | 2, 3 => d.chabt g
  | 2, 4 => d.chrecv g rd a b
  | _, _ => d.insn g fun d _ => d.illegal g

/-- HLD and HST: custom-1. -/
def Dev.custom1 (d : Dev) (g w : Nat) : Dev :=
  let f := w / 2 ^ 12 % 8
  let a := w / 2 ^ 15 % 32
  if f < 4 then d.hld g (w / 2 ^ 7 % 32) a (w / 2 ^ 20) (2 ^ f) else d.hst g a (w / 2 ^ 20 % 32) (sImm w) (2 ^ (f - 4))

/-- The next instruction of a thread: an Xwpk word in memory at pc, or a base instruction that the command brings. -/
def Dev.stepThread (d : Dev) (g : Nat) (acc : ThreadAcc) : Dev :=
  let t := d.thread g
  let word := match d.spot g t.pc 4 with
    | .loc o => leAt (d.locRead g o 4) 0 4
    | .shr o => leAt (d.shrRead g o 4) 0 4
    | _ => 0
  match word % 128 with
  | 0x0B => d.custom0 g word
  | 0x2B => d.custom1 g word
  | 0x5B => d.insn g fun d _ => d.illegal g
  | 0x7B => d.insn g fun d _ => d.illegal g
  | _ => d.threadAccess g acc

/-! Debug commands (R376). -/

/-- The core and the global thread number in CORE_DBG_SEL. -/
def Dev.dbgCore (d : Dev) : Nat := d.regFld Reg.CORE_DBG_SEL 15 8
def Dev.dbgThread (d : Dev) : Nat := 8 * d.dbgCore + d.regFld Reg.CORE_DBG_SEL 2 0
def Dev.dbgAddr (d : Dev) : Nat := d.regN Reg.CORE_DBG_ADDR_LO + 2 ^ 32 * d.regN Reg.CORE_DBG_ADDR_HI
def Dev.dbgData (d : Dev) : Nat := d.regN Reg.CORE_DBG_DATA_LO + 2 ^ 32 * d.regN Reg.CORE_DBG_DATA_HI
def Dev.setDbgData (d : Dev) (v : Nat) : Dev :=
  (d.setReg Reg.CORE_DBG_DATA_LO (BitVec.ofNat 32 v)).setReg Reg.CORE_DBG_DATA_HI (BitVec.ofNat 32 (v / 2 ^ 32))

/-- CORE_DBG_STAT.ERR of the command. -/
def Dev.dbgEnd (d : Dev) (err : Bool) : Dev := { d with cpu := { d.cpu with dbgErr := err } }

/-- A released thread halts at the next instruction boundary. -/
def Dev.haltThread (d : Dev) (g : Nat) : Dev :=
  let t := d.thread g
  if t.st = 1 ∨ t.st = 2 ∨ t.st = 3 then d.setThread g { t with st := 6, resume := t.st } else d

def Dev.dbgHalt (d : Dev) : Dev :=
  let g := d.dbgThread
  let t := d.thread g
  if d.coreLive d.dbgCore ∧ (t.st = 1 ∨ t.st = 2 ∨ t.st = 3) then (d.haltThread g).dbgEnd false else d.dbgEnd true

def Dev.dbgHaltCore (d : Dev) : Dev :=
  if d.coreLive d.dbgCore then ((List.range 8).foldl (fun d i => d.haltThread (8 * d.dbgCore + i)) d).dbgEnd false
  else d.dbgEnd true

/-- A halted thread resumes in its state before the halt. -/
def Dev.resumeThread (d : Dev) (g : Nat) : Dev :=
  let t := d.thread g
  if t.st = 6 then (d.setThread g { t with st := t.resume }).wake g else d

def Dev.dbgResume (d : Dev) : Dev :=
  let n := d.dbgCore
  if d.coreLive n ∧ (d.core n).threads.any (fun t => decide (t.st = 6)) then
    ((List.range 8).foldl (fun d i => d.resumeThread (8 * n + i)) d).dbgEnd false
  else d.dbgEnd true

/-- A thread that waited executes its EVWAIT or CHSEND again. -/
def Dev.dbgStep (d : Dev) (acc : ThreadAcc) : Dev :=
  let g := d.dbgThread
  let t := d.thread g
  if !d.coreLive d.dbgCore ∨ t.st ≠ 6 then d.dbgEnd true
  else
    let d := d.setThread g { t with st := 1, wait := none, waitChan := none }
    ((d.stepThread g acc).haltThread g).dbgEnd false

def Dev.dbgReg (d : Dev) (write : Bool) : Dev :=
  let g := d.dbgThread
  let i := d.dbgAddr % 64
  let t := d.thread g
  if t.st ≠ 6 ∨ 34 < i then d.dbgEnd true
  else if write then (d.setThread g (t.regPut i (BitVec.ofNat 64 d.dbgData))).dbgEnd false
  else (d.setDbgData (t.regAt i).toNat).dbgEnd false

def Dev.dbgMem (d : Dev) (write : Bool) : Dev :=
  let g := d.dbgThread
  let a := d.dbgAddr
  if a % 8 ≠ 0 then d.dbgEnd true
  else if write then
    match d.spotWrite g a (leBytes 8 d.dbgData) with
    | some d => d.dbgEnd false
    | none => d.dbgEnd true
  else
    match d.spotRead g a 8 with
    | some (b, d) => (d.setDbgData (leAt b 0 8)).dbgEnd false
    | none => d.dbgEnd true

def Dev.dbgBp (d : Dev) : Dev :=
  let c := d.core d.dbgCore
  let v := d.dbgData
  (d.setCore d.dbgCore { c with bps := c.bps.set (v % 4) (decide (v / 4 % 2 = 1), d.dbgAddr) }).dbgEnd false

def Dev.dbgCapture (d : Dev) : Dev := (d.capture d.dbgCore 3 (d.core d.dbgCore).thrState).dbgEnd false

/-- A code of CORE_DBG_CMD; codes it does not list set ERR. -/
def Dev.dbgRun (d : Dev) (code : Nat) (acc : ThreadAcc) : Dev :=
  match code with
  | 1 => d.dbgHalt
  | 2 => d.dbgHaltCore
  | 3 => d.dbgResume
  | 4 => d.dbgStep acc
  | 5 => d.dbgReg false
  | 6 => d.dbgReg true
  | 7 => d.dbgMem false
  | 8 => d.dbgMem true
  | 9 => (d.abortMsg d.dbgThread 0).dbgEnd false
  | 10 => d.dbgBp
  | 11 => d.dbgCapture
  | _ => d.dbgEnd true

/-- R376: a debug command reaches the cores through the registers of a PF, or from the debug port (0x80) while it is open. -/
def Dev.dbgCmd (d : Dev) (id code : Nat) (acc : ThreadAcc) : Dev :=
  if id < 16 then d.bar0Write id Reg.CORE_DBG_CMD (·.dbgRun code acc)
  else if id = 0x80 ∧ d.mgt.debugOpen then d.dbgRun code acc
  else d

/-- BREAKPOINT_HIT: a thread's pc has reached an enabled breakpoint. -/
def Dev.bpHit (d : Dev) (g : Nat) : Dev :=
  if d.canIssue g ∧ (d.core (g / 8)).bps.any (fun b => b.1 && decide (b.2 = (d.thread g).pc)) then d.haltThread g else d

/-! Core images (R379, R380). -/

/-- Segment i of an image: thread address, length, offset of its data. -/
def imgSeg (b : List Byte) (i : Nat) : Nat × Nat × Nat := (leAt b (32 + 16 * i) 8, leAt b (40 + 16 * i) 4, leAt b (44 + 16 * i) 4)
def imgSegs (b : List Byte) : List (Nat × Nat × Nat) := (List.range (leAt b 6 2)).map (imgSeg b)

/-- A segment lies wholly in local or in shared memory. -/
def segIn (s : Nat × Nat × Nat) : Bool :=
  decide (s.1 + s.2.1 ≤ 0x30000) || (decide (0x100000 ≤ s.1) && decide (s.1 + s.2.1 ≤ 0x200000))

def imgOk (b : List Byte) (len : Nat) : Bool :=
  decide (leAt b 0 4 = 0x5743494D ∧ leAt b 4 2 = 1 ∧ 1 ≤ leAt b 6 2 ∧ leAt b 6 2 ≤ 64 ∧ leAt b 16 4 = len ∧
    leAt b 20 4 = Net.crc32c (b.drop 32)) &&
    (imgSegs b).all (fun s => segIn s && decide (s.2.2 + s.2.1 ≤ len)) &&
    (imgSegs b).any (fun s => decide (s.1 ≤ leAt b 8 8 ∧ leAt b 8 8 < s.1 + s.2.1))

/-- CORE_LOAD. -/
def coreLoad (e : AdmEntry) (d : Dev) : AdmRes :=
  let slot := fld e.d2 5 0
  let b := fitTo e.len e.buf
  let used := d.cpu.cores.any (fun c => (c.2.running && decide (c.2.slot = slot)) || decide (c.2.starting.map Prod.fst = some slot))
  admChecks [d.notPriv e, (decide (0x1000000 < e.len), St.RANGE, rangeAt 0 32), e.bufCheck, (!imgOk b e.len, St.RANGE, rangeAt 1 0),
      (used, St.STATE, 1)] fun _ =>
    .done { d with cpu := { d.cpu with images := kvPut slot b d.cpu.images } }

/-! CORE_START, CORE_STOP (R381, R382). -/

/-- The cores of a mask in D3 to D6. -/
def coreMask (e : AdmEntry) : List Nat :=
  (List.range 256).filter (fun n => bitOf ([e.d3, e.d4, e.d5, e.d6].getD (n / 64) 0) (n % 64))

def coreStart (e : AdmEntry) (d : Dev) : AdmRes :=
  let slot := fld e.d2 5 0
  let ns := coreMask e
  let whole := fun n => (List.range 16).all (fun i => ns.contains (n / 16 * 16 + i))
  admChecks [d.notPriv e, ((kvFind slot d.cpu.images).isNone, St.STATE, 0)] fun _ =>
    let d := ns.foldl (fun d n => d.beginStart n slot (whole n)) d
    if ns.isEmpty then .done d else .wait { d with cpu := { d.cpu with starts := d.cpu.starts ++ [(e, ns)] } }

/-- A core has started: CORE_START commands whose last core it was complete. -/
def Dev.startsDone (d : Dev) (n : Nat) : Dev :=
  let l := d.cpu.starts.map (fun x => (x.1, x.2.erase n))
  let d := { d with cpu := { d.cpu with starts := l.filter (fun x => !x.2.isEmpty) } }
  (l.filter (fun x => x.2.isEmpty)).foldl (fun (d : Dev) (x : AdmEntry × List Nat) => d.admLate x.1 0x61 0 0 0) d

/-- The shared segments of an image. -/
def sharedSegs (b : List Byte) (m : Kv Byte) : Kv Byte :=
  ((imgSegs b).filter (fun s => decide (0x100000 ≤ s.1))).foldl (fun (m : Kv Byte) (s : Nat × Nat × Nat) =>
    memWrite m (s.1 - 0x100000) (slice b s.2.2 s.2.1)) m

def localSegs (b : List Byte) : Kv Byte :=
  ((imgSegs b).filter (fun s => decide (s.1 < 0x100000))).foldl (fun (m : Kv Byte) (s : Nat × Nat × Nat) =>
    memWrite m s.1 (slice b s.2.2 s.2.1)) []

/-- CORE_START_DONE: a core that was starting begins at ENTRY (R355, R381). -/
def Dev.coreStarted (d : Dev) (n : Nat) : Dev :=
  let c := d.core n
  match c.starting with
  | none => d
  | some (slot, shared) =>
    let b := kvGet [] d.cpu.images slot
    let t0 : Thread := { st := 1, pc := leAt b 8 8 }
    let c' : Core := { running := true, slot := slot, threads := t0 :: List.replicate 7 {}, hq := c.hq, mem := localSegs b
                       bps := c.bps, trace := c.trace, tpos := c.tpos, captures := c.captures }
    let cl := d.cluster (n / 16)
    let d := d.setCore n c'
    let d := if shared then d.setCluster (n / 16) { cl with mem := sharedSegs b cl.mem } else d
    (d.count Reg.CORE_RESTART_CNT).startsDone n

def coreStop (e : AdmEntry) (d : Dev) : AdmRes :=
  let ns := coreMask e
  admChecks [d.notPriv e, (ns.any (fun n => (d.core n).frozen), St.STATE, 1)] fun _ =>
    .done (ns.foldl (fun d n => d.freeze n 3 3) d)

/-! CORE_HND_SET, CORE_CH_SET, CORE_HWIN_SET, CORE_CAPTURE_READ. -/

def coreHndSet (e : AdmEntry) (d : Dev) : AdmRes :=
  admChecks [d.notPriv e] fun _ =>
    .done { d with cpu := { d.cpu with hnd := kvSet 0 (fld e.d2 15 0) (e.d3 &&& 0xE000FFFFFFFF0000#64) d.cpu.hnd } }

/-- An open message of a channel that is unbound ends as DISCARDED. -/
def Dev.discardOpen (d : Dev) (c : Nat) : Dev :=
  let f := fun (t : Thread) => match t.msg with
    | some m => if m.chan = c then { t with msg := some { m with discarded := true } } else t
    | none => t
  let g := fun (k : Core) => if k.holds c then { k with threads := k.threads.map f } else k
  { d with cpu := { d.cpu with cores := d.cpu.cores.map (fun k => (k.1, g k.2)) } }

def coreChSet (e : AdmEntry) (d : Dev) : AdmRes :=
  let c := fld e.d2 11 0
  let v := bitOf e.d3 63
  let x : Channel := { bind := e.d3 &&& 0xE003FFFF000FFFC0#64 }
  let old := d.ch c
  let claimed := (d.wktClaim c).isSome
  admChecks [d.notPriv e, (decide (3839 < c), St.RANGE, rangeAt 2 0), (v && decide (fld e.d3 62 61 = 3), St.RANGE, rangeAt 3 61),
      (v && decide (x.depth = 0 ∨ 64 < x.depth), St.RANGE, rangeAt 3 32),
      (v && decide (0x100000 < x.buf + 64 * x.depth), St.RANGE, rangeAt 3 6),
      (claimed || (v && (!old.msgs.isEmpty || d.chOpen c)), St.STATE, 1)] fun _ =>
    .done ((if v then d else d.discardOpen c).setCh c (if v then x else {}))

def coreHwinSet (e : AdmEntry) (d : Dev) : AdmRes :=
  let k := fld e.d2 3 0
  let base := e.d3.toNat
  let size := e.d4.toNat
  let v := bitOf e.d5 2
  let w := bitOf e.d5 1
  let inImg := decide (0x2C20000000 ≤ base ∧ base + size ≤ 0x2C60000000) && !w
  let cl := d.cluster k
  let x : HWin := { v := v, r := bitOf e.d5 0, w := w, base := base, size := size }
  admChecks [d.notPriv e, (decide (base % 4096 ≠ 0), St.RANGE, rangeAt 3 0),
      (decide (size % 4096 ≠ 0 ∨ 2 ^ 36 < size), St.RANGE, rangeAt 4 0),
      (v && !(decide (base + size ≤ hbmReserved) || inImg), St.RANGE, rangeAt 3 0)] fun _ =>
    .done (d.setCluster k { cl with wins := cl.wins.set (fld e.d2 34 32) x })

def coreCaptureRead (e : AdmEntry) (d : Dev) : AdmRes :=
  let r := (d.core (fld e.d2 7 0)).captures[fld e.d2 9 8]?
  admChecks [d.notPriv e, (decide (e.len < 262144), St.RANGE, rangeAt 0 32), (r.isNone, St.STATE, 0)] fun _ =>
    .done d 0 262144 (r.getD [])

def execBreakpointHit (g : Nat) (s : State) := s.run (·.bpHit g)
def execHaltThread (id : Nat) (s : State) := s.run (·.dbgCmd id 1 default)
def execHaltCore (id : Nat) (s : State) := s.run (·.dbgCmd id 2 default)
def execResume (id : Nat) (s : State) := s.run (·.dbgCmd id 3 default)
def execStep (id : Nat) (acc : ThreadAcc) (s : State) := s.run (·.dbgCmd id 4 acc)
def execReadReg (id : Nat) (s : State) := s.run (·.dbgCmd id 5 default)
def execWriteReg (id : Nat) (s : State) := s.run (·.dbgCmd id 6 default)
def execReadMem (id : Nat) (s : State) := s.run (·.dbgCmd id 7 default)
def execWriteMem (id : Nat) (s : State) := s.run (·.dbgCmd id 8 default)
def execAbortMsg (id : Nat) (s : State) := s.run (·.dbgCmd id 9 default)
def execSetBp (id : Nat) (s : State) := s.run (·.dbgCmd id 10 default)
def execCapture (id : Nat) (s : State) := s.run (·.dbgCmd id 11 default)
def execCoreLoad (e : AdmEntry) (s : State) := s.run (·.admRun e 0x60 (coreLoad e))
def execCoreStart (e : AdmEntry) (s : State) := s.run (·.admRun e 0x61 (coreStart e))
def execCoreStop (e : AdmEntry) (s : State) := s.run (·.admRun e 0x62 (coreStop e))
def execCoreHndSet (e : AdmEntry) (s : State) := s.run (·.admRun e 0x63 (coreHndSet e))
def execCoreChSet (e : AdmEntry) (s : State) := s.run (·.admRun e 0x64 (coreChSet e))
def execCoreHwinSet (e : AdmEntry) (s : State) := s.run (·.admRun e 0x65 (coreHwinSet e))
def execCoreCaptureRead (e : AdmEntry) (s : State) := s.run (·.admRun e 0x66 (coreCaptureRead e))
def execCoreStartDone (n : Nat) (s : State) := s.run (·.coreStarted n)

end Sys2Proof.Machine
end

