-- ==== Sys2Proof/Machine/Crossing.lean ====
section
/-! DEFINITION. The Crossing's commands: classification, images, rules, steering (R195 to R225, R571). -/

namespace Sys2Proof.Machine

/-! Classification (R200 to R209, R220 to R223). -/

/-- R204: SOURCE of a frame. -/
def Packet.source (p : Packet) : Nat :=
  if p.cls.source = 0x60 then 0x60 else if p.port < 16 then p.port else if p.port = 17 then 0x41 else 0x40

def Packet.isHost (p : Packet) : Bool := decide (p.cls.source ≠ 0x60 ∧ (p.port = 16 ∨ p.port = 17))

/-- What is known of a frame as it enters: R209's empty result with a host frame's tenancy. -/
def Packet.clsStart (p : Packet) : Cls :=
  { source := p.source, bytes := p.data.length, tv := p.isHost, ten := if p.isHost then p.ten else 0 }

/-- A frame leaves for the slow path with its reason (R202, R204). -/
def Dev.toSlow (d : Dev) (tok : Nat) (p : Packet) (c : Cls) (reason : Nat) : Dev :=
  (d.setPkt tok { p with cls := { c with ptype := 0x8000 + c.source * 256 + reason, reason := reason, hash := 0 } }).slowPath
    tok reason

/-- What the walk found, in the frame's classification. -/
def Cls.ofWalk (c : Cls) (w : Walk) : Cls :=
  { c with ptype := w.ptype, payload := w.s, slots := w.slots, l3ok := w.l3ok, l4ok := w.l4ok, l3chk := w.l3chk, l4chk := w.l4chk }

/-- R221: the hash profile a frame uses. -/
def Dev.hprofOf (d : Dev) (c : Cls) : Nat :=
  if c.sv then c.hprof
  else if c.tv then (kvFind c.ten d.cls.inds).elim 0 (·.hprof) else 0

/-- R222: what the steering groups choose: none: no ring asked for; some none: the frame is dropped; some
(some LOCAL). -/
def Dev.steerRing (d : Dev) (c : Cls) : Option (Option Nat) :=
  if !c.sv ∨ 2 ≤ c.steer then none
  else
    let loc : Option Nat :=
      if c.steer = 1 then some c.ringF
      else if !c.tv then none
      else (kvFind c.ten d.cls.inds).map (fun x =>
        let v := kvGet 0 d.cls.pool (512 * x.base + c.hash % 2 ^ x.log2)
        if v / 32768 % 2 = 1 then v % 512 else x.defRing)
    some (loc.filter (fun l => c.tv && d.isRxRing c.ten l))

/-- R209, R222: a classified frame goes on. -/
def Dev.steer (d : Dev) (tok : Nat) (p : Packet) (c : Cls) : Dev :=
  if c.sv ∧ c.steer = 2 then (d.dropPkt tok).count Reg.CLS_RULE_DROP
  else
    match d.steerRing c with
    | some none => (d.dropPkt tok).count Reg.CLS_NO_RING
    | r =>
      let c := { c with ring := r.bind id }
      let x := d.tenGet c.ten
      let p := if p.isHost then { p with cls := c }
        else { p with cls := c, tenV := c.tv, ten := c.ten, gen := if c.tv then x.gen else 0, clsOpen := c.tv && decide (x.st = 3) }
      d.setPkt tok { p with stage := if c.hv then .handler c.handler else .classified }

/-- CROSSING_CLASSIFY: a frame's header copy is parsed, looked up and merged. -/
def Dev.classify (d : Dev) (tok : Nat) (ue : List Nat) : Dev :=
  match d.pkt tok with
  | none => d
  | some p =>
    if p.stage ≠ .arrived ∨ d.pwr.stopP then d
    else
      let c := p.clsStart
      match d.cls.banks.getD d.cls.active none with
      | none => d.toSlow tok p c 4
      | some img =>
        let start := leAt img (if c.source = 0x60 then 8 else if p.isHost then 7 else 6) 1
        match walk img p.data 24 start {} with
        | .slow r w => d.toSlow tok p (c.ofWalk w) r
        | .parsed prog w =>
          let (fate, c, d) := d.lookups img p.data prog p.isHost ue 4 (c.ofWalk w)
          let h := (d.cls.hprofs.getD (d.hprofOf c) default).hash p.data c
          if fate = 1 then d.dropPkt tok
          else if fate = 2 then (d.setPkt tok { p with cls := c }).toExcRing tok 0x21
          else d.steer tok p { c with hash := h }

/-- REENTRY_ADMIT (R195): a slot no host frame claims takes the oldest re-entry frame. -/
def Dev.reentryAdmit (d : Dev) : Dev :=
  let claimed := fun port => d.sq.pkts.any (fun e => decide (e.2.stage = .arrived ∧ e.2.port = port) && e.2.isHost)
  match d.cls.reentryQ with
  | [] => d
  | tok :: r =>
    if claimed 16 && claimed 17 then d
    else
      let d := { d with cls := { d.cls with reentryQ := r } }
      match d.pkt tok with
      | none => d
      | some p => d.setPkt tok { p with stage := .arrived }

/-! Images (R214, R215). -/

def Dev.setBank (d : Dev) (b : Nat) (img : Option (List Byte)) : Dev :=
  { d with cls := { d.cls with banks := d.cls.banks.set b img } }

/-- CLS_LOAD: a refused image leaves the inactive bank empty. -/
def Dev.clsLoad (d : Dev) (e : AdmEntry) : Dev :=
  let b := 1 - d.cls.active
  let img := fitTo e.len e.buf
  if !d.ctlRuns then d
  else
  match firstFail [d.notPriv e, (decide (25104 < e.len), St.RANGE, 0xFFFF), e.bufCheck] with
  | some (st, det) =>
    (if st = St.RANGE then d.setBank b none else d).admComplete e 0x30 st det 0
  | none =>
    match imgCheck d.cls.chain img e.len with
    | some det => (d.setBank b none).admComplete e 0x30 St.RANGE det 0
    | none => (d.setBank b (some img)).admComplete e 0x30 0 0 0

/-- CLS_COMMIT: the loaded bank becomes active; the old image stays in the other bank. -/
def clsCommit (e : AdmEntry) (d : Dev) : AdmRes :=
  admChecks [d.notPriv e, ((d.cls.banks.getD (1 - d.cls.active) none).isNone, St.STATE, 0)] fun _ =>
    .wait { d with cls := { d.cls with active := 1 - d.cls.active, commit := d.cls.commit ++ [e] } }

/-- IMAGE_SWITCH_DONE: no frame under the old image remains in any pipeline. -/
def Dev.imageSwitchDone (d : Dev) : Dev :=
  match d.cls.commit with
  | [] => d
  | e :: r => { d with cls := { d.cls with commit := r } }.admLate e 0x31 0 0 0

/-! Rules (R219, R224). -/

/-- CLS_RSET_SET. -/
def clsRsetSet (e : AdmEntry) (d : Dev) : AdmRes :=
  admChecks [d.notPriv e] fun _ =>
    let r := fld e.d2 5 0
    .done (d.setRset r { d.rset r with miss := e.d3, tie := bitOf e.d2 32 })

/-- Bytes of a key of the group at an index. -/
def Dev.keyBytes (d : Dev) (i : Nat) : Nat := 20 * 2 ^ chainWidth (d.chain (i / 4096))

def ruleIndex (e : AdmEntry) : Nat := fld e.d2 17 0

/-- The checks of the rule commands: an INDEX that leads no enabled group; a LEN that does not match. -/
def Dev.rulePre (d : Dev) (e : AdmEntry) (extra : Option Nat) (times : Nat) : List (Bool × Nat × Nat) :=
  [d.notPriv e, (!d.isLead (ruleIndex e), St.RANGE, rangeAt 2 0),
   (extra.elim false (fun x => decide (e.len ≠ times * d.keyBytes (ruleIndex e) + x)), St.RANGE, rangeAt 0 32)]

/-- The records of R219. -/
def Dev.ruleRecords (d : Dev) (e : AdmEntry) (opc : Nat) : List TueRec :=
  let i := ruleIndex e
  let kb := d.keyBytes i
  let by_ := fun last => Poster.adm e opc 0 0 last
  let write := fun k => ({
      op := 0x02, index := i + 4096 * k, poster := by_ false
      payload := fitTo 64 (slice e.buf (20 * k) 20 ++ slice e.buf (kb + 20 * k) 20 ++ leBytes 1 (fld e.d2 39 32) ++
        List.replicate 7 0#8 ++ leBytes 8 e.d3.toNat) } : TueRec)
  (if (d.tueAhead.tcam i).v then [{ op := 0x01, index := i, poster := by_ false }] else []) ++
    (List.range (kb / 20)).map write ++ [{ op := 0x03, index := i, poster := by_ true }]

def clsRuleWrite (e : AdmEntry) (d : Dev) : AdmRes :=
  admChecks (d.rulePre e (some 0) 2 ++ [e.bufCheck]) fun _ => .wait (d.tuePost (d.ruleRecords e 0x33))

def clsRuleClear (e : AdmEntry) (d : Dev) : AdmRes :=
  admChecks (d.rulePre e none 0) fun _ =>
    .wait (d.tuePost [{ op := 0x01, index := ruleIndex e, poster := .adm e 0x34 0 0 true }])

/-- CLS_RULE_READ: the rule as the records before it leave it. -/
def clsRuleRead (e : AdmEntry) (d : Dev) : AdmRes :=
  admChecks (d.rulePre e (some 16) 2) fun _ =>
    let a := d.tueAhead
    let i := ruleIndex e
    let segs := List.range (d.keyBytes i / 20)
    let x := a.tcam i
    let out := segs.flatMap (fun k => leBytes 20 (a.tcam (i + 4096 * k)).data) ++
      segs.flatMap (fun k => leBytes 20 (a.tcam (i + 4096 * k)).care) ++
      leBytes 8 (x.prio + 256 * b2n x.v) ++ leBytes 8 x.result.toNat
    .done d 0 out.length out

/-! Indirection (R222, R224). -/

/-- R224: the tenancy is BOUND or OPEN. -/
def Dev.notBoundOpen (d : Dev) (t : Nat) : Bool × Nat × Nat :=
  (decide ((d.tenGet t).st ≠ 2 ∧ (d.tenGet t).st ≠ 3), St.STATE, (d.tenGet t).st)

/-- Two tables share pool units. -/
def indOverlap (a b : IndTab) : Bool :=
  decide (a.base < b.base + 2 ^ (b.log2 - 9) ∧ b.base < a.base + 2 ^ (a.log2 - 9))

def clsIndCfg (e : AdmEntry) (d : Dev) : AdmRes :=
  let t := e.ten
  let en := bitOf e.d2 28
  let x : IndTab := { log2 := fld e.d2 19 16, hprof := fld e.d2 26 24, base := fld e.d2 42 32, defRing := fld e.d3 8 0 }
  let units := 2 ^ (x.log2 - 9)
  admChecks [d.notOwner e t,
      (en && decide (x.log2 < 9 ∨ 12 < x.log2), St.RANGE, rangeAt 2 16),
      (en && decide (x.base % units ≠ 0 ∨ 2048 < x.base + units), St.RANGE, rangeAt 2 32),
      d.notBoundOpen t,
      (en && d.tueAhead.cls.inds.any (fun o => decide (o.1 ≠ t) && indOverlap o.2 x), St.DENIED, 1)] fun _ =>
    .wait (d.tuePost [{ op := 0x30, table := 5, index := t, payload := fitTo 64 (x.bytes en),
                        poster := .adm e 0x36 0 0 true }])

def clsIndWrite (e : AdmEntry) (d : Dev) : AdmRes :=
  let t := e.ten
  let first := fld e.d2 43 32
  let n := fld e.d2 53 48
  let tab := kvFind t d.tueAhead.cls.inds
  admChecks [d.notOwner e t,
      (decide (n = 0 ∨ 32 < n), St.RANGE, rangeAt 2 48),
      (decide (e.len ≠ 2 * n), St.RANGE, rangeAt 0 32),
      (tab.elim false (fun x => decide (2 ^ x.log2 < first + n)), St.RANGE, rangeAt 2 32),
      d.notBoundOpen t, (tab.isNone, St.STATE, 0), e.bufCheck] fun _ =>
    .wait (d.tuePost [{ op := 0x20, table := 5, index := 512 * (tab.elim 0 (·.base)) + first, count := n,
                        payload := fitTo 64 e.buf, poster := .adm e 0x37 0 0 true }])

/-! The TCAM's scrub and chaining (R211, R212). -/

/-- TCAM_SCRUB: the parity of the next entry. -/
def Dev.tcamScrub (d : Dev) (err : Bool) : Dev :=
  let i := d.cls.scrub
  let d := { d with cls := { d.cls with scrub := (i + 1) % 262144 } }
  if !err then d
  else
    let lead := d.leadBank (i / 4096) * 4096 + i % 4096
    let d := (d.tueInternal { op := 0x01, index := lead }).2
    let d := d.count Reg.CLS_TCAM_PERR_CNT
    if d.regBit Reg.CLS_GSTAT 1 then d
    else (d.setReg Reg.CLS_TCAM_PERR_IDX (packW [(lead, 0)])).setBit Reg.CLS_GSTAT 1

/-- R211: the chaining settings may not be applied. -/
def Dev.chainRefused (d : Dev) (new : List Word) : Bool :=
  let g := fun b => new.getD b 0#32
  let member := fun b =>
    chainEn (g b) && (decide (chainWidth (g b) = 3) ||
      (List.range (2 ^ chainWidth (g b))).any (fun k =>
        let o := g (b / 2 ^ chainWidth (g b) * 2 ^ chainWidth (g b) + k)
        !chainEn o || decide (chainWidth o ≠ chainWidth (g b)) || decide (chainRset o ≠ chainRset (g b))))
  let used := fun b => decide (g b ≠ d.chain b) &&
    d.cls.tcam.any (fun x => x.2.v && decide (x.1 / 4096 = d.leadBank b))
  let imgs := d.cls.banks.filterMap id
  let mixed := imgs.any (fun img => (imgSlots img).any (fun s =>
    (rsetWidth new s.2.2).elim false (fun w => decide (w ≠ fld (imgProfileWord img s.2.1 0) 1 0))))
  (List.range 64).any (fun b => member b || used b) || mixed

/-- The settings fields of TCAM_CHAIN_b. -/
def chainMask (w : Word) : Word := w &&& 0x833F0000#32

/-- TCAM_APPLY. -/
def Dev.tcamApply (d : Dev) (pf : Nat) (v : Word) : Dev :=
  d.bar0Write pf Reg.TCAM_APPLY fun d =>
    if !bitOf v 0 then d
    else
      let new := (List.range 64).map (fun b => chainMask (d.reg (Reg.TCAM_CHAIN b)))
      if d.chainRefused new then d.setBit Reg.CLS_GSTAT 0 else { d with cls := { d.cls with chain := new } }

/-- R220: bytes of the largest input a profile can build. -/
def hprofMax (w : Word) : Nat :=
  let n := fun i k => if bitOf w i then k else 0
  n 0 6 + n 1 6 + n 2 16 + n 3 16 + n 4 2 + n 5 2 + n 6 1 + n 7 3 + n 8 3

/-- R220: the profile may not be applied. -/
def hprofRefused (w : Word) : Bool :=
  decide (48 < hprofMax w) ||
    (bitOf w 30 && (bitOf w 0 != bitOf w 1 || bitOf w 2 != bitOf w 3 || bitOf w 4 != bitOf w 5))

/-- CLS_HPROF_APPLY: the profiles named by one write are checked together (DEDUCED, log 13). -/
def Dev.hprofApply (d : Dev) (pf : Nat) (v : Word) : Dev :=
  d.bar0Write pf Reg.CLS_HPROF_APPLY fun d =>
    let hs := (List.range 8).filter (bitOf v)
    if hs.any (fun h => hprofRefused (d.reg (Reg.CLS_HPROF_CFG h))) then d.setBit Reg.CLS_GSTAT 0
    else
      hs.foldl (fun d h =>
        let x : HProf := { cfg := d.reg (Reg.CLS_HPROF_CFG h)
                           key := (List.range 13).flatMap (fun i => leBytes 4 (d.regN (Reg.CLS_HPROF_KEY h i))) }
        { d with cls := { d.cls with hprofs := d.cls.hprofs.set h x } }) d

/-- CLS_RSET_SNAP (R189, R211). -/
def Dev.rsetSnap (d : Dev) (pf r : Nat) : Dev :=
  d.bar0Read pf (Reg.CLS_RSET_SNAP r) fun d =>
    let x := d.rset r
    if x.reading then (d, packW [(1, 31), (x.snapSeq, 0)])
    else
      let s := (x.snapSeq + 1) % 65536
      (d.setRset r { x with bank := x.counters, counters := [0, 0, 0, 0], reading := true, snapSeq := s }, packW [(s, 0)])

/-- CLS_RSET_REL. -/
def Dev.rsetRel (d : Dev) (pf r : Nat) (v : Word) : Dev :=
  d.bar0Write pf (Reg.CLS_RSET_REL r) fun d =>
    if bitOf v 0 then d.setRset r { d.rset r with reading := false } else d

/-! The commands. -/

def execReentryAdmit (s : State) := s.run (·.reentryAdmit)
def execHandlerDispatch (tok : Nat) (s : State) := s.run (·.dispatch tok)
def execClsLoad (e : AdmEntry) (s : State) := s.run (·.clsLoad e)
def execClsCommit (e : AdmEntry) (s : State) := s.run (·.admRun e 0x31 (clsCommit e))
def execImageSwitchDone (s : State) := s.run (·.imageSwitchDone)
def execClsRsetSet (e : AdmEntry) (s : State) := s.run (·.admRun e 0x32 (clsRsetSet e))
def execClsRuleWrite (e : AdmEntry) (s : State) := s.run (·.admRun e 0x33 (clsRuleWrite e))
def execClsRuleClear (e : AdmEntry) (s : State) := s.run (·.admRun e 0x34 (clsRuleClear e))
def execClsRuleRead (e : AdmEntry) (s : State) := s.run (·.admRun e 0x35 (clsRuleRead e))
def execClsIndCfg (e : AdmEntry) (s : State) := s.run (·.admRun e 0x36 (clsIndCfg e))
def execClsIndWrite (e : AdmEntry) (s : State) := s.run (·.admRun e 0x37 (clsIndWrite e))
def execTcamScrub (parityErr : Bool) (s : State) := s.run (·.tcamScrub parityErr)
def execTcamApply (pf : Nat) (value : Word) (s : State) := s.run (·.tcamApply pf value)
def execClsHprofApply (pf : Nat) (value : Word) (s : State) := s.run (·.hprofApply pf value)
def execClsRsetSnap (pf rset : Nat) (s : State) := s.run (·.rsetSnap pf rset)
def execClsRsetRel (pf rset : Nat) (value : Word) (s : State) := s.run (·.rsetRel pf rset value)

end Sys2Proof.Machine
end

