-- ==== Sys2Proof/Machine/FabNet.lean ====
section
/-! DEFINITION. Fabric addresses, messages, routes and the tree (R409 to R424). -/

namespace Sys2Proof.Machine

def Dev.setFab (d : Dev) (x : FabPart) : Dev := { d with fab := x }

/-- R412: the unique ID, byte 0 most significant. -/
def Dev.fabUid (d : Dev) : Nat := ofBe d.uid

def Dev.fabOn (d : Dev) : Bool := d.regBit Reg.FAB_CFG 31
def Dev.fabQ (d : Dev) : Nat := d.regFld Reg.FAB_CFG 23 16

/-- R410: the Block number, granted under AUTO_B. -/
def Dev.fabB (d : Dev) : Option Nat :=
  if d.regBit Reg.FAB_CFG 30 then d.fab.block else some (d.regFld Reg.FAB_CFG 15 8)

/-- R409: the fabric address, once complete. -/
def Dev.fabAddr (d : Dev) : Option Nat :=
  match d.fabB, d.fab.index with
  | some b, some i => some (4096 * d.fabQ + 16 * b + i)
  | _, _ => none

/-- The address as a number; 0 while there is none. -/
def Dev.fabA (d : Dev) : Nat := d.fabAddr.getD 0

/-- R409: the IPv6 address of a member. -/
def Dev.fabIp (d : Dev) (a : Nat) : List Byte :=
  beBytes 8 (d.regN Reg.FAB_PREFIX_LO + 2 ^ 32 * d.regN Reg.FAB_PREFIX_HI) ++ beBytes 8 (0x5747 * 2 ^ 48 + a)

/-! Routes (R422 to R424). -/

def Dev.nbr (d : Dev) (n : Nat) : FabNbr := kvGet {} d.fab.nbrs n
def Dev.setNbr (d : Dev) (n : Nat) (x : FabNbr) : Dev := d.setFab { d.fab with nbrs := kvSet {} n x d.fab.nbrs }

/-- R423: lines of a level, and where they begin. -/
def routeCount (level : Nat) : Nat := if level = 0 then 16 else 256
def routeIndex (level i : Nat) : Nat := (if level = 0 then 0 else if level = 1 then 16 else 272) + i

def Dev.routeLine (d : Dev) (level i : Nat) : List Byte := d.hbm.bytes (d.routeBase + 64 * routeIndex level i) 64

def lineV (l : List Byte) : Bool := decide (leAt l 60 4 / 2 ^ 31 = 1)
def lineAdv (l : List Byte) : Bool := decide (leAt l 0 1 / 8 % 2 = 1)
def lineLearned (l : List Byte) : Bool := decide (leAt l 0 1 / 16 % 2 = 1)
def lineCost (l : List Byte) : Nat := leAt l 2 2

/-- The hops of a line: neighbour slot, action list. -/
def lineHops (l : List Byte) : List (Nat × Nat) :=
  (List.range (leAt l 0 1 % 8 + 1)).map (fun i => (leAt l (8 + 4 * i) 4 / 2 ^ 17 % 64, leAt l (8 + 4 * i) 4 % 2 ^ 17))

/-- A hop is reachable while its slot is up. -/
def Dev.hopUp (d : Dev) (h : Nat × Nat) : Bool := (d.nbr h.1).v && (d.nbr h.1).up

def Dev.lineUp (d : Dev) (l : List Byte) : Bool := lineV l && (lineHops l).any d.hopUp

/-- R423: level and index of the entry for an address. -/
def Dev.routeTo (d : Dev) (a : Nat) : Nat × Nat :=
  if a / 4096 ≠ d.fabQ then (2, a / 4096) else if some (a / 16 % 256) ≠ d.fabB then (1, a / 16 % 256) else (0, a % 16)

/-- R424: the hop a message takes, from the hashed one on. -/
def Dev.hopFor (d : Dev) (src dst : Nat) : Option (Nat × Nat) :=
  let r := d.routeTo dst
  let l := d.routeLine r.1 r.2
  let hs := lineHops l
  let h := Net.crc32c (beBytes 3 src ++ beBytes 3 dst) % max 1 hs.length
  if lineV l then ((List.range hs.length).map (fun i => hs.getD ((h + i) % hs.length) (0, 0))).find? d.hopUp else none

/-- A member is reached: it is this device, or its entry has a reachable hop. -/
def Dev.fabReaches (d : Dev) (a : Nat) : Bool :=
  decide (d.fabAddr = some a) || (let r := d.routeTo a; d.lineUp (d.routeLine r.1 r.2))

/-! Roles and the tree (R412, R414, R419). -/

def Dev.isCoord (d : Dev) : Bool := d.fabOn && decide (d.fab.coord = some d.fabUid)
def Dev.isGate (d : Dev) : Bool := d.fabAddr.isSome && decide (d.fab.gate = some d.fabUid)

/-- The lowest Block of a Quarter, this device's own, that the side reaches. -/
def Dev.lowBlock (d : Dev) : Option Nat :=
  leastBelow (fun b => decide (d.fabB = some b) || d.lineUp (d.routeLine 1 b)) 256

def Dev.isQlead (d : Dev) : Bool := d.isGate && decide (d.lowBlock = d.fabB)

/-- The Quarter whose lead is the City root. -/
def Dev.rootQ (d : Dev) : Option Nat :=
  let at_ := fun q => decide (q = d.fabQ) || d.lineUp (d.routeLine 2 q)
  let t := d.regFld Reg.FAB_TIEBREAK 7 0
  if at_ t then some t else leastBelow at_ 256

def Dev.isRoot (d : Dev) : Bool := d.isQlead && decide (d.rootQ = some d.fabQ)

/-- The member with the lowest unique ID among some. -/
def lowUid : List FabMember → Option FabMember
  | [] => none
  | m :: r => match lowUid r with
    | some x => if x.uid < m.uid then some x else some m
    | none => some m

/-- The gate of a Block, or lead of a Quarter, elsewhere: the member known of its lowest Block with the lowest unique ID; before
any is known, the neighbour of the entry's first reachable hop (DEDUCED, log 45). -/
def Dev.nodeOf (d : Dev) (level i : Nat) : Option Nat :=
  let ms := d.fab.members.filter (fun m => if level = 1 then decide (m.addr / 16 = 256 * d.fabQ + i) else decide (m.addr / 4096 = i))
  let low := ms.foldl (fun b m => min b (m.addr / 16)) 65536
  match lowUid (ms.filter (fun m => decide (m.addr / 16 = low))) with
  | some m => some m.addr
  | none => ((lineHops (d.routeLine level i)).find? d.hopUp).map (fun h => (d.nbr h.1).addr)

/-- The address of the Block's gate. -/
def Dev.gateAddr (d : Dev) : Option Nat :=
  match d.fab.gate, d.fabB with
  | some g, some b => (d.fab.given.find? (fun e => decide (e.1 = g))).map (fun e => 4096 * d.fabQ + 16 * b + e.2)
  | _, _ => none

def Dev.fabParent (d : Dev) : Option Nat :=
  if !d.isGate then d.gateAddr
  else if !d.isQlead then d.lowBlock.bind (d.nodeOf 1)
  else if !d.isRoot then d.rootQ.bind (d.nodeOf 2)
  else none

def Dev.fabChildren (d : Dev) : List Nat :=
  match d.fabAddr with
  | none => []
  | some a =>
    let ms := d.fab.members
    let dev := if d.isGate then (ms.filter (fun m => decide (m.addr / 16 = a / 16 ∧ m.addr ≠ a))).map (·.addr) else []
    let blks := if d.isQlead then (((ms.filter (fun m => decide (m.addr / 4096 = a / 4096 ∧ m.addr / 16 ≠ a / 16))).map (fun m => m.addr / 16 % 256)).eraseDups).filterMap (d.nodeOf 1)
      else []
    let qs := if d.isRoot then (((ms.filter (fun m => decide (m.addr / 4096 ≠ a / 4096))).map (fun m => m.addr / 4096)).eraseDups).filterMap (d.nodeOf 2)
      else []
    dev ++ blks ++ qs

/-! Messages (R415 to R417). -/

/-- R416: header and body. -/
def Dev.fabMsg (d : Dev) (type opId : Nat) (body : List Byte) : List Byte :=
  let src := if d.fabAddr.isSome then d.fabA else 2 ^ 23
  beBytes 2 0x5746 ++ [1] ++ beBytes 1 type ++ beBytes 1 (packNat [(d.fab.state, 0), (b2n d.isCoord, 3), (b2n d.isGate, 4)]) ++ beBytes 3 src ++
    beBytes 8 d.fab.epoch ++ beBytes 16 d.fabUid ++ beBytes 8 d.nowNs ++ beBytes 2 body.length ++ beBytes 2 opId ++ body

/-- R415: a message as a datagram of Square pool 19 that enters forwarding at an action list. The source port is the destination
port (log 45). -/
def Dev.fabDatagram (d : Dev) (dst action : Nat) (msg : List Byte) : Dev :=
  let port := beBytes 2 (d.regFld Reg.FAB_UDP_PORT 15 0)
  let udp := port ++ port ++ beBytes 2 (8 + msg.length) ++ [0, 0] ++ msg
  let f := Net.insertL4 (ipFrame (d.fabIp d.fabA) (d.fabIp dst) 17 (d.regFld Reg.FAB_CFG 29 24) 0 udp)
  let cls : Cls := { source := 0x60, av := true, action := action, slots := builtSlots f, bytes := f.length }
  match d.sq.store { pool := 19, cells := 0, data := f, stage := .classified, cls := cls, port := 18 } with
  | some (_, q) => d.setSquare q
  | none => d

/-- R424: a message to an adjacent node of the tree. -/
def Dev.fabRaw (d : Dev) (dst : Nat) (msg : List Byte) : Dev :=
  match d.hopFor d.fabA dst with
  | some h => d.fabDatagram dst h.2 msg
  | none => d.count Reg.FAB_NO_ROUTE

def Dev.fabSend (d : Dev) (dst type opId : Nat) (body : List Byte) : Dev := d.fabRaw dst (d.fabMsg type opId body)

def Dev.fabUp (d : Dev) (type opId : Nat) (body : List Byte) : Dev := d.fabParent.elim d (fun p => d.fabSend p type opId body)
def Dev.fabDown (d : Dev) (type opId : Nat) (body : List Byte) : Dev :=
  d.fabChildren.foldl (fun (d : Dev) (c : Nat) => d.fabSend c type opId body) d

/-- R415: a message on the service bus. -/
def Dev.fabBus (d : Dev) (type : Nat) (body : List Byte) : Dev :=
  d.svbQueue (fitTo (max 60 (14 + 44 + body.length))
    (beBytes 6 0x035747460000 ++ (List.range 6).map Config.svbMac ++ beBytes 2 0x88B5 ++ d.fabMsg type 0 body))

/-- The fields of a received message. -/
def msgType (m : List Byte) : Nat := leAt m 3 1
def msgState (m : List Byte) : Nat := leAt m 4 1 % 8
def msgSrc (m : List Byte) : Option Nat := if beAt m 5 3 / 2 ^ 23 = 1 then none else some (beAt m 5 3 % 2 ^ 20)
def msgEpoch (m : List Byte) : Nat := beAt m 8 8
def msgUid (m : List Byte) : Nat := beAt m 16 16
def msgSent (m : List Byte) : Nat := beAt m 32 8
def msgLen (m : List Byte) : Nat := beAt m 40 2
def msgOp (m : List Byte) : Nat := beAt m 42 2
def msgBody (m : List Byte) : List Byte := slice m 44 (msgLen m)

/-- R417: the type is carried on this bus, and the body has a length that the type gives. -/
def msgTypeOk (bus : Bool) (t n : Nat) : Bool :=
  if 0x20 ≤ t ∧ t ≤ 0x28 then true
  else if bus then (t = 1 && n = 3) || (t = 2 && decide (n % 20 = 0 ∧ 20 ≤ n ∧ n ≤ 320)) || (t = 0x30 && n = 16)
  else (t = 3 && n = 4) || (t = 4 && n = 0) || (t = 5 && decide (2 ≤ n ∧ n % 4 = 2)) || (t = 6 && n = 4) || (t = 7 && decide (8 ≤ n ∧ n % 4 = 0)) ||
    (t = 8 && n = 0) || (t = 0x10 && n = 8) || (t = 0x11 && decide (n = 0 ∨ n = 8)) || (t = 0x12 && decide (4 ≤ n ∧ n ≤ 1028)) || (t = 0x13 && n = 4)

/-- R417: version, type and length hold. A frame of the bus may be padded; a datagram has the exact length. -/
def msgOk (bus : Bool) (m : List Byte) : Bool :=
  decide (44 ≤ m.length) && decide (beAt m 0 2 = 0x5746) && decide (leAt m 2 1 = 1) && decide (msgLen m ≤ 1280) &&
    (if bus then decide (44 + msgLen m ≤ m.length) else decide (44 + msgLen m = m.length)) && msgTypeOk bus (msgType m) (msgLen m)

/-- R418. -/
def Dev.msgStale (d : Dev) (m : List Byte) : Bool :=
  d.time.locked && decide (msgSent m + 1000 * d.regFld Reg.FAB_MAX_LIFETIME 13 0 < d.nowNs)

/-- The checks of a received message: answers whether it goes on. A message counts in a snapshot's drain if SENT lies below T. -/
def Dev.fabTake (d : Dev) (bus : Bool) (m : List Byte) : Bool × Dev :=
  if !msgOk bus m then (false, d.count Reg.FAB_MSG_BAD)
  else if !bus && d.msgStale m then (false, d.count Reg.FAB_STALE_DROP)
  else
    let ops := d.fab.ops.map (fun (o : FabRun) => if o.cut ∧ !bus ∧ msgSent m < o.t.getD 0 then { o with inflight := o.inflight + 1 } else o)
    (true, (d.setFab { d.fab with ops := ops }).count Reg.FAB_MSG_RX)

/-- An event for the PF in FAB_EVT_CFG. -/
def Dev.fabEvent (d : Dev) (v : Ev) : Dev := d.pfEvent (d.regFld Reg.FAB_EVT_CFG 3 0) v

/-- A change of state sends FAB_STATE (R430). -/
def Dev.setFabState (d : Dev) (st : Nat) : Dev :=
  if d.fab.state = st then d
  else (d.setFab { d.fab with state := st }).fabEvent { type := 0x160, p1 := st, p2 := d.fab.epoch % 2 ^ 32 }

end Sys2Proof.Machine
end

