-- ==== Sys2Proof/Machine/Toll.lean ====
section
/-! DEFINITION. The Tollhouse (R487 to R505). -/

namespace Sys2Proof.Machine

def Dev.setToll (d : Dev) (x : TollPart) : Dev := { d with toll := x }

def tollSha (b : List Byte) : List Byte := primBytes 12 [primNat 256, b] 32

/-! The journal (R496, R498). -/

/-- R496: the 128 bytes of an entry. -/
def TollEntry.bytes (e : TollEntry) : List Byte :=
  leBytes 8 e.seq ++ leBytes 8 e.time ++ leBytes 1 e.type ++ [0] ++ leBytes 2 e.what ++ leBytes 4 e.gen ++ fitTo 48 e.body ++ List.replicate 24 0#8 ++
    fitTo 32 e.prev

/-- R502: a notice on Wicket 40: SEQ, 1 reading or 2 entry, TYPE, bytes 16 to 19 of the entry. It never waits. -/
def Dev.tollPost (d : Dev) (seq kind type : Nat) (tail : List Byte) : Dev :=
  let w := 40
  if d.wktMay 0x11 w true ∧ !d.pwr.off then
    let m := fitTo 64 (leBytes 8 seq ++ leBytes 1 kind ++ leBytes 1 type ++ [0, 0] ++ fitTo 4 tail)
    (d.setWktBuf w m).wktPost w m
  else d

/-- Append an entry; `ok` is false when the flash write failed after three tries (R498): the entry is lost and SEQ stays. -/
def Dev.tollLog (d : Dev) (ok : Bool) (type what gen : Nat) (body : List Byte) : Dev :=
  let t := d.toll
  if !ok then d.setToll { t with jlost := t.jlost + 1, flashFault := true }
  else
    let prev := (t.journal.getLast?).elim (List.replicate 32 0#8) (fun e => tollSha e.bytes)
    let e : TollEntry := { seq := t.jseq, time := t.metre, type := type, what := what, gen := gen, body := body, prev := prev }
    let d := d.setToll { t with journal := (t.journal ++ [e]).drop (t.journal.length + 1 - 65536), jseq := t.jseq + 1
                                wrapped := t.wrapped || decide (65536 ≤ t.journal.length) }
    d.tollPost e.seq 2 type (slice e.bytes 16 4)

/-- R497: a TAMPER entry of a cause. -/
def Dev.tamper (d : Dev) (ok : Bool) (cause : Nat) : Dev :=
  let t := d.toll
  (d.setToll { t with tamperCnt := t.tamperCnt + 1, tamperIn := true }).tollLog ok 3 cause 0 []

/-! Counts (R489 to R492). -/

def TollPart.count (t : TollPart) (a q : Nat) : Nat := kvGet 0 t.counts (8 * a + q)

/-- Add to an account and to the device total (R491). -/
def TollPart.add (t : TollPart) (a q n : Nat) : TollPart :=
  let m := kvSet 0 (8 * a + q) (t.count a q + n) t.counts
  { t with counts := kvSet 0 (8 * 4096 + q) (kvGet 0 m (8 * 4096 + q) + n) m }

/-- TAP_FLUSH: with credit, the Shutter of a host port sends every accumulator that is not zero and clears it (R489). -/
def Dev.tapFlush (d : Dev) (p : Nat) : Dev :=
  let t := d.toll
  if !t.running ∨ 1 < p then d
  else
    let mine := t.acc.filter (fun x => decide (x.1 / 32768 = p))
    d.setToll { t with acc := t.acc.filter (fun x => decide (x.1 / 32768 ≠ p))
                       link := t.link ++ (mine.filter (fun x => decide (x.2 ≠ 0))).map (fun x => .delta (x.1 / 8 % 4096) (x.1 % 8) x.2) }

/-- R492: the remaining accumulators of a tenancy, then its marker. -/
def Dev.tollMarker (d : Dev) (t : Nat) : Dev :=
  let x := d.toll
  let mine := x.acc.filter (fun e => decide (e.1 / 8 % 4096 = t))
  d.setToll { x with acc := x.acc.filter (fun e => decide (e.1 / 8 % 4096 ≠ t))
                     link := x.link ++ mine.map (fun e => .delta t (e.1 % 8) e.2) ++ [.marker t] }

/-- TAP_RECORD: the delta record at the front of the link; one with a bad CRC or after a gap is refused, and sent again (R497). -/
def Dev.tapRecord (d : Dev) (bad flashOk : Bool) : Dev :=
  let t := d.toll
  match t.link with
  | .delta a q n :: r =>
    if !t.running then d
    else if bad then d.tamper flashOk 1
    else d.setToll { t.add a q n with link := r }
  | _ => d

/-- STATE_RECORD: the Shutter's state and the WEIGHT in effect of a tenancy (R490); the first one after a silence is TAP_UP (R501). -/
def Dev.stateRecord (d : Dev) (a : Nat) (flashOk : Bool) : Dev :=
  let t := d.toll
  if !t.running ∨ 4096 ≤ a then d
  else
    let up := !t.tapUp
    let w := (d.tenGet a).share.weight
    let d' := d.setToll { t with tapUp := true, stateAt := t.metre, weights := kvSet 0 a w t.weights
                                 open_ := if d.shutOpen a then insertNat a t.open_ else t.open_.filter (fun x => decide (x ≠ a)) }
    if up then d'.tollLog flashOk 8 0 0 [] else d'

/-- ACCOUNT_MARKER: the marker at the front of the link closes its account (R492). -/
def Dev.accountMarker (d : Dev) (flashOk : Bool) : Dev :=
  let t := d.toll
  match t.link with
  | .marker a :: r =>
    if !t.running then d
    else
      let gen := kvGet 0 t.gens a
      let body := (List.range 6).flatMap (fun q => leBytes 8 (t.count a q))
      let counts := (List.range 6).foldl (fun (m : Kv Nat) q => kvSet 0 (8 * a + q) 0 m) t.counts
      (d.setToll { t with link := r, counts := counts, gens := kvSet 0 a (gen + 1) t.gens }).tollLog flashOk 5 a gen body
  | _ => d

/-- METRE_TICK: a millisecond of metre time: OPEN accounts gain their WEIGHT while the tap link is up (R487, R490). -/
def Dev.metreTick (d : Dev) : Dev :=
  let t := d.toll
  if !t.power ∨ !t.rstN then d
  else
    let t := { t with metre := t.metre + 1 }
    d.setToll (if t.running ∧ t.tapUp then t.open_.foldl (fun (t : TollPart) a => t.add a 5 (kvGet 0 t.weights a)) t else t)

/-! Readings (R493, R494). -/

/-- The header and the account records of a reading: bytes 0 to 262,463. -/
def Dev.readingBytes (d : Dev) (kind lost : Nat) : List Byte :=
  let t := d.toll
  let flags := b2n t.sealed + 2 * b2n t.tamperIn + 4 * b2n t.downIn + 8 * b2n t.wrapped + 16 * b2n t.flashFault
  let lo := d.regN Reg.ID_LOT_LO
  let hi := d.reg Reg.ID_LOT_HI
  let lot := (List.range 5).flatMap (fun i => leBytes 1 (lo / 64 ^ i % 64)) ++ leBytes 1 (fld hi 5 0)
  let head := t.journal.getLast?
  let prev := t.slots.getD t.last []
  fitTo 256 (leBytes 4 0x57545244 ++ [1] ++ leBytes 1 kind ++ leBytes 1 flags ++ [0] ++ leBytes 8 t.rdgSeq ++ leBytes 8 t.start ++ leBytes 8 t.metre ++
    leBytes 4 t.powerCnt ++ leBytes 4 t.tamperCnt ++ leBytes 2 (d.regN Reg.TOLL_FW) ++ [0, 0] ++ leBytes 4 (d.regN Reg.TOLL_FW_CRC) ++ lot ++
    leBytes 1 (fld hi 15 8) ++ leBytes 1 (fld hi 23 16) ++ leBytes 1 (fld hi 31 24) ++ List.replicate 7 0#8 ++
    (List.range 4).flatMap (fun i => leBytes 4 (d.regN (Reg.ID_UID i))) ++ fitTo 16 t.label ++ leBytes 2 t.periodMin ++ leBytes 2 t.checkS ++
    leBytes 4 0 ++ leBytes 8 (t.jseq - 1) ++ head.elim (List.replicate 32 0#8) (fun e => tollSha e.bytes) ++
    (if t.rdgSeq = 0 then List.replicate 32 0#8 else tollSha prev) ++ leBytes 8 lost) ++
  (List.range 4097).flatMap (fun a => (List.range 6).flatMap (fun q => leBytes 8 (t.count a q)) ++ leBytes 4 (kvGet 0 t.gens a) ++
    leBytes 4 (b2n (t.open_.contains a)) ++ leBytes 8 0)

/-- Form a reading; it is being signed from now on. -/
def Dev.readingStart (d : Dev) (kind lost : Nat) : Dev :=
  let t := d.toll
  d.setToll { t with signing := some (d.readingBytes kind lost), start := t.metre, tamperIn := false, downIn := false }

/-- R493: the metre time at which the period running closes: periods begin at metre time 0 and last PERIOD_MIN minutes. -/
def TollPart.closeAt (t : TollPart) : Nat := (t.start / (60000 * t.periodMin) + 1) * (60000 * t.periodMin)

/-- PERIOD_CLOSE: the metre has reached the end of a period. -/
def Dev.periodClose (d : Dev) : Dev :=
  let t := d.toll
  if !t.running ∨ t.signing.isSome ∨ t.metre < t.closeAt then d else d.readingStart 1 0

/-- READING_SIGNED: the signature is complete: the reading takes the slot that does not hold the latest, and is journalled. -/
def Dev.readingSigned (d : Dev) (flashOk : Bool) : Dev :=
  let t := d.toll
  match t.signing with
  | none => d
  | some b =>
    if !t.running then d
    else
      let r := b ++ primBytes 8 [primNat 0x11, ascii_tollhouse, b] 3309
      let slot := if (t.slots.getD t.last []).isEmpty then t.last else 1 - t.last
      let seq := t.rdgSeq
      let kind := leAt b 5 1
      let d := d.setToll { t with slots := t.slots.set slot r, last := slot, signing := none, rdgSeq := seq + 1 }
      let d := d.tollPost seq 1 0 []
      if kind = 1 then d.tollLog flashOk 4 0 0 (tollSha r ++ leBytes 8 seq) else d
where ascii_tollhouse : List Byte := "gw3216-tollhouse".toList.map (fun c => BitVec.ofNat 8 c.toNat)

/-! Power, checkpoints and start (R497 to R503). -/

/-- CHECKPOINT. -/
def Dev.checkpoint (d : Dev) (flashOk : Bool) : Dev :=
  let t := d.toll
  if !t.running then d
  else if !flashOk then d.setToll { t with flashFault := true }
  else d.setToll { t with checks := some { time := t.metre, counts := t.counts, gens := t.gens, rdgSeq := t.rdgSeq, jseq := t.jseq } }

/-- The Tollhouse stops: what is not in flash is lost; the Shutters hold their accumulators, and what was on the link goes back to them. -/
def Dev.tollStop (d : Dev) (byReset : Bool) : Dev :=
  let t := d.toll
  d.setToll { t with running := false, tapUp := false, signing := none, byReset := byReset, lossAt := t.lossAt }

/-- TOLL_POWER_LOSS: one POWER_LOSS entry, then it stops (R499). -/
def Dev.tollPowerLoss (d : Dev) (flashOk : Bool) : Dev :=
  let t := d.toll
  if !t.power then d
  else if !t.running then d.setToll { t with power := false }
  else
    let d := (d.setToll { t with lossAt := if flashOk then some t.metre else none }).tollLog flashOk 2 0 0 []
    Dev.setToll (d.tollStop false) { (d.tollStop false).toll with power := false }

/-- TL_RST_N_ASSERT: it stops as for power loss (R501). -/
def Dev.tollReset (d : Dev) (flashOk : Bool) : Dev :=
  let t := d.toll
  if !t.power ∨ !t.rstN then d
  else if !t.running then d.setToll { t with rstN := false }
  else
    let d := (d.setToll { t with lossAt := if flashOk then some t.metre else none }).tollLog flashOk 2 0 0 []
    Dev.setToll (d.tollStop true) { (d.tollStop true).toll with rstN := false }

/-- R503: the configuration block is valid. -/
def configOk (b : List Byte) : Bool :=
  decide (leAt b 0 4 = 0x57544346 ∧ leAt b 4 1 = 1 ∧ 1 ≤ leAt b 6 2 ∧ leAt b 6 2 ≤ 1440 ∧ 30 ≤ leAt b 8 2 ∧ leAt b 8 2 ≤ 600 ∧
    leAt b 32 4 = Net.crc32c (slice b 0 32))

/-- TOLL_START (R499, R503): `config` is the configuration block the flash holds when it was written meanwhile; `chainBad` and `noCheck`:
the journal chain or the checkpoints do not verify. -/
def Dev.tollStart (d : Dev) (config : Option (List Byte)) (chainBad noCheck flashOk : Bool) : Dev :=
  let t := d.toll
  let cb := config.getD t.config
  let ok := configOk cb
  let doSeal := !t.sealed && ok && decide (leAt cb 5 1 % 2 = 1)
  let t := { t with power := true, rstN := true, running := true, tapUp := false, config := cb }
  let t := if t.sealed then t
    else if ok then { t with periodMin := leAt cb 6 2, checkS := leAt cb 8 2, label := slice cb 16 16 }
    else { t with periodMin := 60, checkS := 60, label := List.replicate 16 0#8 }
  if doSeal then
    -- R503 steps 3 to 7
    let t := { t with sealed := true, journal := [], jseq := 0, checks := none, counts := [], gens := [], metre := 0, start := 0, rdgSeq := 0
                      powerCnt := 0, tamperCnt := 0, wrapped := false, slots := [[], []], last := 0, lossAt := none, byReset := false }
    ((d.setToll t).tollLog flashOk 6 0 0 []).readingStart 3 0
  else
    let c := if noCheck then none else t.checks
    let lost := match c, t.lossAt with
      | some c, some l => l - c.time
      | _, _ => 0
    let metre := match t.lossAt, c with
      | some l, _ => l
      | none, some c => c.time
      | none, none => t.metre
    let t := match c with
      | some c => { t with counts := c.counts, gens := c.gens, rdgSeq := max t.rdgSeq c.rdgSeq, metre := metre }
      | none => { t with counts := [], gens := [], metre := metre }
    let first := decide (t.journal.isEmpty ∧ t.checks = none)
    let d := d.setToll { t with powerCnt := t.powerCnt + 1, lossAt := none, byReset := false }
    let d := if chainBad then d.tamper flashOk 4 else d
    let d := if noCheck ∧ !first then d.tamper flashOk 5 else d
    let d := if t.byReset then d.tamper flashOk 6 else d
    (d.tollLog flashOk 1 0 0 (leBytes 8 lost)).readingStart 2 lost

/-- TAP_DOWN_DETECT (R501): 2 ms without a state record. -/
def Dev.tapDown (d : Dev) (flashOk : Bool) : Dev :=
  let t := d.toll
  if !t.running ∨ !t.tapUp ∨ t.metre < t.stateAt + 2 then d
  else (d.setToll { t with tapUp := false, downIn := true }).tollLog flashOk 7 0 0 []

def execTapFlush (p : Nat) (s : State) := s.run (·.tapFlush p)
def execTapRecord (bad flashOk : Bool) (s : State) := s.runAny (·.tapRecord bad flashOk)
def execStateRecord (t : Nat) (flashOk : Bool) (s : State) := s.run (·.stateRecord t flashOk)
def execAccountMarker (flashOk : Bool) (s : State) := s.runAny (·.accountMarker flashOk)
def execMetreTick (s : State) := s.runAny (·.metreTick)
def execPeriodClose (s : State) := s.runAny (·.periodClose)
def execReadingSigned (flashOk : Bool) (s : State) := s.runAny (·.readingSigned flashOk)
def execCheckpoint (flashOk : Bool) (s : State) := s.runAny (·.checkpoint flashOk)
def execTollPowerLoss (flashOk : Bool) (s : State) := s.runAny (·.tollPowerLoss flashOk)
def execTollStart (config : Option (List Byte)) (chainBad noCheck flashOk : Bool) (s : State) :=
  s.runAny (·.tollStart config chainBad noCheck flashOk)
def execTapDownDetect (flashOk : Bool) (s : State) := s.runAny (·.tapDown flashOk)
def execCrystalFault (flashOk : Bool) (s : State) := s.runAny (fun d => if d.toll.running then d.tamper flashOk 2 else d)
def execTollVddGlitch (flashOk : Bool) (s : State) := s.runAny (fun d => if d.toll.running then d.tamper flashOk 3 else d)
def execTlRstNAssert (flashOk : Bool) (s : State) := s.runAny (·.tollReset flashOk)

end Sys2Proof.Machine
end

