-- ==== Sys2Proof/Machine/TenReset.lean ====
section
/-! DEFINITION. Tenancy reset, draining, unbinding, export and import (R77, R84, R85, R91 to R93, R98, R271, R312). -/

namespace Sys2Proof.Machine

/-- Free every packet with the property. -/
def Dev.freeWhere (d : Dev) (p : Packet → Bool) : Dev :=
  (d.sq.pkts.filter (fun (e : Nat × Packet) => p e.2)).foldl (fun (d : Dev) (e : Nat × Packet) => d.freePkt e.1) d

/-- R91 step 2: fetching stops; caches, stashes, held completions and interrupts of the old generation go. -/
def Dev.resetRings (d : Dev) (t : Nat) : Dev :=
  let quiet := fun (m : Mod) => { m with n := 0, timer := false, due := false }
  let srcs := d.targetsOf t
  let f := d.tenFn t
  let c := d.fnGet f
  let d := d.fnPut f { c with pba := c.pba.filter (fun e => !srcs.contains e.2) }
  let sqs := d.ring.sqs.map (fun (e : Nat × Sq) => if e.2.ten = t then (e.1, { e.2.dropCache with mod := quiet e.2.mod }) else e)
  let cqs := d.ring.cqs.map (fun (e : Nat × Cq) =>
    if e.2.ten = t then (e.1, { e.2 with stash := [], evtLost := 0, stallTimer := false, mod := quiet e.2.mod }) else e)
  { d with
    ring := { d.ring with sqs := sqs, cqs := cqs, jobs := d.ring.jobs.filter (fun j => decide (j.ten ≠ t)) }
    ten := { d.ten with imt := d.ten.imt.foldl (fun (m : Kv Imt) (e : Nat × Imt) =>
      if e.2.ten = t then kvSet {} e.1 { e.2 with pend := false } m else m) d.ten.imt } }

/-- R93: an admin command that acts on the tenancy, no tenancy command, ends with ABORTED, RESET. -/
def Dev.resetCommands (d : Dev) (t : Nat) : Dev :=
  let grants := d.dma.waiting.filter (fun e => decide (e.ten = t))
  let d : Dev := { d with dma := { d.dma with waiting := d.dma.waiting.filter (fun e => decide (e.ten ≠ t)) } }
  let d := grants.foldl (fun (d : Dev) (e : AdmEntry) => d.admLate e 0x28 St.ABORTED 2 0) d
  let mine := fun (r : TueRec) => match r.poster with
    | .adm e opc _ _ _ => decide (e.ten = t) && !bitOf e.d2 12 && decide (opc = 0x36 ∨ opc = 0x37 ∨ (0x3A ≤ opc ∧ opc ≤ 0x43))
    | .firmware => false
  let own := d.glb.tueQ.filter mine
  let d : Dev := { d with glb := { d.glb with tueQ := d.glb.tueQ.map (fun (r : TueRec) => if mine r then { r with poster := .firmware } else r) } }
  let d := own.foldl (fun (d : Dev) (r : TueRec) => match r.poster with
    | .adm e opc _ _ _ => d.admLate e opc St.ABORTED 2 0
    | .firmware => d) d
  let hs := (d.cry.hsQueue ++ d.cry.hsRun).filter (fun r => decide (r.ten = t))
  let d := d.setCry { d.cry with hsQueue := d.cry.hsQueue.filter (fun r => decide (r.ten ≠ t)) }
  hs.foldl (fun (d : Dev) (r : HsReq) => r.adm.elim d (fun e => d.admLate e 0x4D St.ABORTED 2 0)) d

/-- R91 step 4: the reads that wait are dropped; tags and translations become quarantined. The zero-length read of LOG_FLUSH
is not the tenancy's (R93). -/
def Dev.resetTags (d : Dev) (t : Nat) : Dev :=
  let own := fun (r : ReadReq) => decide (r.ten = t ∧ r.ref ≠ .logFlush t)
  let engs := d.hif.ports.flatMap (fun (x : HifPort) =>
    ((x.readQ ++ x.tags.map (fun (e : Nat × Tag) => e.2.req)).filter own).filterMap (fun (r : ReadReq) => match r.ref with
      | .eng id => some id
      | _ => none))
  let ports := d.hif.ports.zipIdx.map (fun (px : HifPort × Nat) =>
    let x := px.1
    let tags := x.tags.map (fun (e : Nat × Tag) => if own e.2.req then (e.1, { e.2 with quarantined := true }) else e)
    let gone := (x.tags.filter (fun (e : Nat × Tag) => own e.2.req)).map (·.1)
    let xs := d.hif.xlats.filter (fun (y : XlatReq) => decide (y.ten = t ∧ y.port = px.2))
    let tags := xs.foldl (fun (m : Kv Tag) (y : XlatReq) =>
      let r : ReadReq := { port := px.2, fn := y.fn, ten := t, gen := (d.tenGet t).gen, ref := y.ref, addr := y.page * 4096, len := 0 }
      kvPut y.id { req := r, quarantined := true } m) tags
    { x with readQ := x.readQ.filter (fun r => !own r), tags := tags
             inv := x.inv.map (fun (i : InvReq) => { i with using_ := i.using_.filter (fun v => !gone.contains v) }) })
  { d with hif := { d.hif with
      ports := ports, xlats := d.hif.xlats.filter (fun y => decide (y.ten ≠ t))
      pageReqs := d.hif.pageReqs.filter (fun y => decide (y.xlat.ten ≠ t))
      eng := d.hif.eng.filter (fun e => !engs.contains e.1) } }

/-- R91 steps 3, 5, 6 and 7: the engines end what they hold of the tenancy, its contexts are invalid, its key slots are
zeroised, and cells return. Tokens that a packet core holds stay (R91). -/
def Dev.resetEngines (d : Dev) (t : Nat) : Dev :=
  let d := (d.dma.chans.filter (fun (e : Nat × Chan) => decide (e.2.ten = t ∧ e.2.st ≠ 0))).foldl
    (fun (d : Dev) (e : Nat × Chan) => d.chanPut e.1 { e.2 with st := 0 }) d
  let d := d.setArc { d.arc with works := d.arc.works.filter (fun w => decide (w.ten ≠ t)) }
  let d := d.setCry { d.cry with ctxs := d.cry.ctxs.filter (fun (e : Nat × CryCtx) => decide (e.2.ten ≠ t)) }
  let gone := fun (e : Nat × StoCtx) => decide (e.2.ten = t)
  let d : Dev := { d with sto := { d.sto with ctxs := d.sto.ctxs.filter (fun e => !gone e), ssds := d.sto.ssds.filter (fun e => decide (e.2.ten ≠ t)) } }
  let d := ((d.cry.slots.filter (fun (e : Nat × KeySlot) => !e.2.dev && decide (e.2.ten = t))).map (·.1)).foldl (fun (d : Dev) (n : Nat) => d.zeroSlot n) d
  let jobs := fun (p : Packet) => p.job.elim false (fun j => (kvFind j.1 d.ring.sqs).elim false (fun (q : Sq) => decide (q.ten = t)))
  let mine := fun (p : Packet) => jobs p || (p.tenV && decide (p.ten = t) && (match p.stage with
    | .crypt _ _ _ => true
    | .txCrypt _ => true
    | .context _ => true
    | .toRing _ _ _ _ => true
    | _ => p.ctx.isSome))
  let d := d.setTwin { d.twin with held := d.twin.held.filter (fun h => (d.pkt h.tok).elim true (fun p => !mine p)) }
  let tx := fun (x : Port) => { x with txq := x.txq.filter (fun tok => (d.pkt tok).elim true (fun p => !mine p)) }
  let d : Dev := { d with port := { d.port with ports := d.port.ports.foldl (fun (m : Kv Port) (e : Nat × Port) => kvSet {} e.1 (tx e.2) m) d.port.ports } }
  d.freeWhere mine

/-- R312: the controller of a function reset: RDY clears, I/O queues go, dirty blocks stay. `cc` is what CC holds then. -/
def Dev.ctrlReset (d : Dev) (k : Nat) (cc : Word) : Dev :=
  match d.ctrl k with
  | none => d
  | some c => d.setCtrl k { c with cc := cc, rdy := false, cfs := false, shst := 0, sqs := [], cqs := [], aers := [], cmds := [] }

/-- R91 step 1 and what follows it at once; a tenancy already RESETTING is covered by the reset in progress (R78). -/
def Dev.tenReset (d : Dev) (t : Nat) : Dev :=
  let x := d.tenGet t
  if !decide (2 ≤ x.st ∧ x.st ≤ 4) then d
  else
    let d := d.tenPut t { x with st := 5, gen := x.gen + 1 }
    let d := (d.resetRings t).resetCommands t
    (d.resetTags t).resetEngines t

/-- R90: a waiting share is recorded and its commands complete when the tenancy leaves its port. -/
def Dev.shareLeave (d : Dev) (t : Nat) : Dev := d.applyShare t

/-- R77: the tenancy is unbound: its binding, grants and indirection table go. -/
def Dev.unbind (d : Dev) (t : Nat) : Dev :=
  let d := d.shareLeave t
  let d : Dev := { d with dma := { d.dma with grants := d.dma.grants.filter (fun (e : Nat × Grant) => decide (e.1 / 8 ≠ t)) }
                          cls := { d.cls with inds := kvDel t d.cls.inds } }
  d.tenPut t { d.tenGet t with st := 1, binding := none, bucket := 0, credit := 0 }

/-- TENANCY_RESET_DONE (R91 step 8, R85): the rings are reset, the state is BOUND, and what waited completes. -/
def Dev.tenResetDone (d : Dev) (t : Nat) : Dev :=
  let x := d.tenGet t
  if x.st ≠ 5 then d
  else
    let d : Dev := { d with ring := { d.ring with
      sqs := d.ring.sqs.map (fun (e : Nat × Sq) => if e.2.ten = t then (e.1, e.2.reset) else e)
      cqs := d.ring.cqs.map (fun (e : Nat × Cq) => if e.2.ten = t then (e.1, e.2.reset) else e) } }
    let d := d.tenPut t { x with st := 2, lastRing := 511, ringTurns := 0, resetEvent := true, closing := none, resetCmd := none
                                 unbindCmd := none, resetUnbinds := false }
    let d := match x.closing with
      | some (e, _) => d.admLate e 0x15 St.ABORTED 2 0
      | none => d
    let d := match x.resetCmd with
      | some e => d.admLate e 0x16 0 0 0
      | none => d
    match x.unbindCmd with
    | some e => (d.unbind t).admLate e 0x13 0 0 0
    | none => if x.resetUnbinds then d.unbind t else d

/-! The commands. -/

/-- TEN_RESET (R77, R78). -/
def tenResetCmd (e : AdmEntry) (d : Dev) : AdmRes :=
  let t := e.ten
  admChecks [d.notOwner e t, lenNot e 0, d.notIn t [2, 3, 4]] fun _ =>
    let d := d.tenReset t
    .wait (d.tenPut t { d.tenGet t with resetCmd := some e })

/-- TEN_UNBIND (R77): the steps of a tenancy reset, then the binding goes. -/
def tenUnbind (e : AdmEntry) (d : Dev) : AdmRes :=
  let t := e.ten
  admChecks [d.notOwner e t, lenNot e 0, d.notIn t [2]] fun _ =>
    let d := d.tenReset t
    .wait (d.tenPut t { d.tenGet t with unbindCmd := some e })

/-- TEN_DESTROY (R77, R80, R492): GEN alone is kept; the marker goes out on the count tap. -/
def tenDestroy (e : AdmEntry) (d : Dev) : AdmRes :=
  let t := e.ten
  admChecks [d.notOwner e t, lenNot e 0, d.notIn t [1]] fun _ =>
    let d := (d.tollMarker t).tenPut t { gen := (d.tenGet t).gen }
    let rings : RingPart := { d.ring with sqs := d.ring.sqs.filter (fun (q : Nat × Sq) => decide (q.2.ten ≠ t))
                                          cqs := d.ring.cqs.filter (fun (q : Nat × Cq) => decide (q.2.ten ≠ t)) }
    let d : Dev := { d with ring := rings, time := { d.time with pages := kvDel t d.time.pages }
                            cls := { d.cls with inds := kvDel t d.cls.inds } }
    .done { d with dma := { d.dma with grants := d.dma.grants.filter (fun (g : Nat × Grant) => decide (g.1 / 8 ≠ t)) } }

/-- R84, ABORT 1: a job that an engine can stop ends at its next boundary. Jobs of the context engine run to their normal end
(DEDUCED, log 44). -/
def Dev.jobAbort (d : Dev) (j : Job) : Dev :=
  let d := match d.arc.works.find? (fun w => decide (w.sq = j.sq ∧ w.cur = some j.pos)) with
    | some w => d.workEnd w St.ABORTED 1 w.moved 0 0
    | none => d
  match d.dma.chans.find? (fun (e : Nat × Chan) => decide (e.2.sq = j.sq ∧ e.2.pos = j.pos ∧ e.2.st ≠ 0)) with
  | some (n, c) => d.chanStop n c (c.result St.ABORTED 1 (if c.skipped then 6 else 0))
  | none =>
    if decide (0x10 ≤ j.opc ∧ j.opc ≤ 0x1F) || decide (0 < j.frames) then d
    else (d.jobEnd j.sq j.pos { status := St.ABORTED, detail := 1, len := j.moved }).dropReads (.job j.sq j.pos)

/-- TEN_CLOSE (R84). -/
def tenClose (e : AdmEntry) (d : Dev) : AdmRes :=
  let t := e.ten
  admChecks [d.notOwner e t, lenNot e 0, d.notIn t [3]] fun _ =>
    let abort := bitOf e.d2 32
    let d := d.tenPut t { d.tenGet t with st := 4, closing := some (e, abort) }
    let d : Dev := { d with ring := { d.ring with
      sqs := d.ring.sqs.map (fun (q : Nat × Sq) => if q.2.ten = t ∧ q.2.cls ≠ 1 then (q.1, q.2.dropCache) else q) } }
    let d := if abort then (d.ring.jobs.filter (fun j => decide (j.ten = t ∧ j.res = none))).foldl (fun (d : Dev) (j : Job) => d.jobAbort j) d else d
    let due := (d.targetsOf t).filter (fun s => decide (0 < (d.modGet s).n) || (d.modGet s).due)
    .wait (due.foldl (fun (d : Dev) (s : IrqSrc) => d.irqFire s) d)

/-- DRAIN_COMPLETE (R84 step 5, R85): no started work and no completion is left. -/
def Dev.drainComplete (d : Dev) (t : Nat) : Dev :=
  let x := d.tenGet t
  if x.st ≠ 4 ∨ d.ring.jobs.any (fun j => decide (j.ten = t)) ∨
      d.ring.cqs.any (fun (c : Nat × Cq) => decide (c.2.ten = t) && !c.2.stash.isEmpty) then d
  else
    let d := d.tenPut t { x with st := 2, closing := none }
    match x.closing with
    | some (e, _) => d.admLate e 0x15 0 0 0
    | none => d

/-- R98: used key slots of the tenancy but the transfer key; its valid contexts; its rings. -/
def Dev.imageLen (d : Dev) (t key : Nat) : Nat :=
  let keys := d.cry.slots.filter (fun (s : Nat × KeySlot) => !s.2.dev && decide (s.2.ten = t ∧ s.1 ≠ key))
  4096 + 64 * d.ringsOf t + 256 * d.ctxsOf t + 128 * keys.length

/-- R271: the transfer key is a slot of TYPE 11 with MIGRATE that the tenancy owns. -/
def Dev.transferBad (d : Dev) (t key : Nat) : Bool × Nat × Nat :=
  (!(d.slot key).elim false (fun s => !s.dev && decide (s.ten = t ∧ s.type = 11) && s.may Key.MIGRATE), St.DENIED, 4)

/-- TEN_EXPORT (R98): the layout of the image is not stated, so its bytes are free (log 44). -/
def tenExport (e : AdmEntry) (d : Dev) : AdmRes :=
  let t := e.ten
  let key := fld e.d3 19 0
  let n := d.imageLen t key
  admChecks [d.notOwner e t, (decide ((d.tenGet t).st ≠ 0 ∧ e.len < n), St.RANGE, rangeAt 0 32), d.notIn t [2], d.transferBad t key] fun _ =>
    let (s, d) := d.draw
    .done d 0 n (freeBytes s n)

/-- A ring as an image gives it. -/
def imgRing (t : Nat) (d : Dev) (r : ImgRing) : Dev :=
  let e : AdmEntry := { (default : AdmEntry) with d2 := r.d2, d3 := r.d3, d4 := r.d4, d5 := r.d5 }
  let lg := fld r.d2 44 40
  if r.isCq then
    let c : Cq := { ten := t, loc := r.loc, log2 := lg, retas := bitOf r.d2 26, evt := bitOf r.d2 28, base := r.d3, wb := r.d4, mod := modOf e
                    write := r.pos % (2 * 2 ^ lg), head := r.mark % (2 * 2 ^ lg) }
    (kvFirstFree d.ring.cqs 65536).elim d (fun n => d.cqPut n c)
  else
    let q : Sq := { ten := t, loc := r.loc, cls := fld r.d2 34 32, retas := bitOf r.d2 26, scatter := bitOf r.d2 27, prog := bitOf r.d2 29
                    cq := (d.cqAt t (fld r.d2 56 48)).elim 0 (·.1), log2 := lg, base := r.d3, wb := r.d4
                    rweight := fld r.d5 7 0, burst := fld r.d5 14 8, mod := modOf e
                    tail := r.pos % (2 * 2 ^ lg), started := r.mark % (2 * 2 ^ lg), prog_ := r.prog % (2 * 2 ^ lg), published := r.prog % (2 * 2 ^ lg) }
    (kvFirstFree d.ring.sqs 65536).elim d (fun n => d.sqPut n q)

/-- TEN_IMPORT (R98): the image is loaded whole or not at all; completion rings come before the submission rings that name
them. `img` none: authentication failed. -/
def tenImport (e : AdmEntry) (img : Option TenImage) (d : Dev) : AdmRes :=
  let t := e.ten
  let x := d.tenGet t
  let key := fld e.d3 19 0
  let i := img.getD {}
  let keys := d.cry.slots.filter (fun (s : Nat × KeySlot) => !s.2.dev && decide (s.2.ten = t ∧ s.1 ≠ key))
  let ctxUsed := fun (c : Nat × Bool × List Byte × Nat) => (d.ctxOwner c.1).isSome
  let keyUsed := fun (k : Nat × Nat × Nat × Nat × List Byte) => (d.slot k.1).isSome
  admChecks [d.notOwner e t, d.notIn t [2], (decide (0 < d.ctxsOf t ∨ 0 < keys.length), St.STATE, x.st), d.transferBad t key,
      e.bufCheck, (img.isNone, St.INTEGRITY, 0),
      (decide (x.rings < d.ringsOf t + i.rings.length ∨ x.ctxs < i.ctxs.length ∨ x.keys < i.keys.length + 1), St.NOSPACE, 0),
      (i.ctxs.any ctxUsed || i.keys.any keyUsed, St.DENIED, 1)] fun _ =>
    let d := ((i.rings.filter (·.isCq)) ++ (i.rings.filter (fun r => !r.isCq))).foldl (imgRing t) d
    let d := i.keys.foldl (fun (d : Dev) (k : Nat × Nat × Nat × Nat × List Byte) => d.putSlot (some t) k.1 k.2.1 k.2.2.1 k.2.2.2.1 k.2.2.2.2) d
    .done (i.ctxs.foldl (fun (d : Dev) (c : Nat × Bool × List Byte × Nat) =>
      if c.2.1 then
        let y := ctxOfBlock t (fitTo 128 c.2.2.1)
        let mat := fun (n : Nat) => ((d.slot n).map (·.material)).getD []
        d.setCryCtx c.1 (if isEsp y.kind then y
          else { y with cur := trafficKey (isQuic y.kind) y.alg (mat y.keySlot), next := y.nextSlot.map (fun n => trafficKey true y.alg (mat n)) })
      else d.setSto c.1 { ten := t, k := stoOfBlock (fitTo 128 c.2.2.1) c.2.2.2 }) d)

/-! Functions. -/

/-- The tenancies bound to functions with the property are reset; `unbinds`: they go on to CREATED (R77). -/
def Dev.resetTens (d : Dev) (p : Fn → Bool) (unbinds : Bool) : Dev :=
  (d.tensOf p).foldl (fun (d : Dev) (t : Nat) =>
    let d := d.tenReset t
    if unbinds ∧ (d.tenGet t).st = 5 then d.tenPut t { d.tenGet t with resetUnbinds := true } else d) d

/-- NVME_CC_DISABLE (R312): CC.EN from 1 to 0. -/
def Dev.nvDisable (d : Dev) (pf vf : Nat) (v : Word) : Dev :=
  let k := ctrlKey pf vf
  match d.ctrl k with
  | none => d
  | some c => if !bitOf c.cc 0 ∨ bitOf v 0 then d else (d.ctrlReset k v).tenReset c.ten

def execTenReset (e : AdmEntry) (s : State) := s.run (·.admRun e 0x16 (tenResetCmd e))
def execTenUnbind (e : AdmEntry) (s : State) := s.run (·.admRun e 0x13 (tenUnbind e))
def execTenDestroy (e : AdmEntry) (s : State) := s.run (·.admRun e 0x11 (tenDestroy e))
def execTenClose (e : AdmEntry) (s : State) := s.run (·.admRun e 0x15 (tenClose e))
def execTenExport (e : AdmEntry) (s : State) := s.run (fun d => d.keyRun e 0x1B [fld e.d3 19 0] (tenExport e))
def execTenImport (e : AdmEntry) (img : Option TenImage) (s : State) := s.run (fun d => d.keyRun e 0x1C [fld e.d3 19 0] (tenImport e img))
def execDrainComplete (ten : Nat) (s : State) := s.run (·.drainComplete ten)
def execTenancyResetDone (ten : Nat) (s : State) := s.run (·.tenResetDone ten)
def execNvmeCcDisable (pf vf : Nat) (value : Word) (s : State) := s.run (·.nvDisable pf vf value)

end Sys2Proof.Machine
end

