-- ==== Sys2Proof/Machine/Twin.lean ====
section
/-! DEFINITION. Twins (R436 to R456): pairing, digests, leases, takeover, swap and exercise. Bodies of twin messages that the spec does
not lay out are the model's (log 47). -/

namespace Sys2Proof.Machine

def Dev.twinSend (d : Dev) (type : Nat) (body : List Byte) : Dev := d.fabSend d.twin.peer type 0 body

/-- A change of role sends TWIN_ROLE. -/
def Dev.setRole (d : Dev) (r : Nat) : Dev :=
  if d.twin.role = r then d else (d.setTwin { d.twin with role := r }).twinEvent { type := 0x170, p1 := r }

/-! Pairing (R436, R437). -/

/-- R437: the topology allows the mode. -/
def Dev.topologyOk (d : Dev) (peer mode : Nat) : Bool :=
  let a := d.fabA
  if peer / 16 = a / 16 then decide (mode = 1) else if peer / 4096 = a / 4096 then true else decide (mode = 2)

/-- The body of PAIR: the address named, rank, mode, identity digest. -/
def pairBody (peer rank mode : Nat) (table : List Byte) : List Byte :=
  beBytes 4 peer ++ beBytes 1 rank ++ beBytes 1 mode ++ [0, 0] ++ tollSha table

def Dev.pairSend (d : Dev) : Dev :=
  let t := d.twin
  d.twinSend 0x20 (pairBody t.peer t.rank t.mode t.table)

/-- Frames held in shadow are freed. -/
def Dev.freeHeld (d : Dev) : Dev :=
  d.twin.held.foldl (fun (d : Dev) (h : HeldFrame) => d.freePkt h.tok) (d.setTwin { d.twin with held := [] })

/-- The device is UNPAIRED again; its streams stay set. -/
def Dev.unpaired (d : Dev) : Dev :=
  let d := d.freeHeld
  let t := d.twin
  let d := if t.role = 0 then d else d.twinEvent { type := 0x170, p1 := 0 }
  d.setTwin { streams := t.streams, leases := t.leases, revokes := t.revokes, peerPair := none }

/-- The terms of the peer's PAIR are looked at: the pair is formed, or TWIN_PAIR fails. -/
def Dev.pairTry (d : Dev) : Dev :=
  let t := d.twin
  match t.peerPair with
  | none => d
  | some m =>
    if t.role ≠ 1 ∨ msgSrc m ≠ some t.peer then d
    else
      let b := msgBody m
      let good := decide (beAt b 0 4 = d.fabA ∧ leAt b 4 1 + t.rank = 1 ∧ leAt b 5 1 = t.mode) && decide (slice b 8 32 = tollSha t.table)
      let cmd := t.pairCmd
      if !good then
        match cmd with
        | some e => (d.unpaired).admLate e 0x78 St.REMOTE 0x50 0
        | none => d
      else
        let now := d.nowNs
        let d := d.setTwin { t with peerUid := msgUid m, pairCmd := none, peerPair := none, pairedAt := now, digestAt := some now, holdoffAt := now, granting := true
                                    peerLost := false, grantRx := some now, grantTx := now, peerRole := if t.mode = 2 ∧ t.rank = 0 then 3 else 2 }
        let d := d.setRole (if t.mode = 2 ∧ t.rank = 1 then 3 else 2)
        cmd.elim d (fun e => d.admLate e 0x78 0 0 0)

/-- TWIN_PAIR. -/
def twinPair (e : AdmEntry) (d : Dev) : AdmRes :=
  let peer := fld e.d2 19 0
  let rank := fld e.d2 32 32
  let mode := fld e.d2 34 33
  let base := e.d4.toNat
  let size := e.d5.toNat
  admChecks [d.notPriv e, (decide (mode = 0 ∨ mode = 3), St.RANGE, rangeAt 2 33), (decide (e.len = 0 ∨ e.len % 32 ≠ 0 ∨ 512 < e.len), St.RANGE, rangeAt 0 32),
      (decide (base % 4096 ≠ 0), St.RANGE, rangeAt 4 0), (decide (size = 0 ∨ size % 1048576 ≠ 0), St.RANGE, rangeAt 5 0),
      (decide (hbmReserved < base + size), St.RANGE, rangeAt 5 0), (decide (d.fab.state ≠ 2), St.STATE, d.fab.state),
      (decide (d.twin.role ≠ 0), St.STATE, d.twin.role), (!d.topologyOk peer mode, St.DENIED, 0x50), e.bufCheck] fun _ =>
    let d := d.setTwin { d.twin with peer := peer, rank := rank, mode := mode, table := fitTo e.len e.buf, mirror := fld e.d3 16 0
                                     annPorts := fld e.d3 47 32, ringBase := base, ringSize := size, pairCmd := some e }
    .wait ((d.setRole 1).pairSend)

/-- The command is noted as taken first, so that it may complete in this step. -/
def Dev.twinPairRun (d : Dev) (e : AdmEntry) : Dev := (d.admRun e 0x78 (twinPair e)).pairTry

/-- PAIR_RX. -/
def Dev.pairRx (d : Dev) (m : List Byte) : Dev :=
  if d.twin.role < 2 then (d.setTwin { d.twin with peerPair := some m }).pairTry else d

/-- PAIR_TIMEOUT. -/
def Dev.pairTimeout (d : Dev) : Dev :=
  match d.twin.pairCmd with
  | some e => if d.twin.role = 1 then d.unpaired.admLate e 0x78 St.TIMEOUT 0x50 0 else d
  | none => d

/-- TWIN_UNPAIR (R455). -/
def twinUnpair (e : AdmEntry) (d : Dev) : AdmRes :=
  admChecks [d.notPriv e, (decide (d.twin.role = 0), St.STATE, 0)] fun _ =>
    let cmd := d.twin.pairCmd
    let d := if d.twin.role = 2 then d.twinSend 0x26 [] else d
    let d := d.unpaired
    .done (cmd.elim d (fun c => d.admLate c 0x78 St.STATE 0 0))

/-- TWIN_STREAM_SET (R442). -/
def twinStreamSet (e : AdmEntry) (d : Dev) : AdmRes :=
  let hist := fld e.d3 6 0
  let ms := fld e.d3 31 16
  admChecks [d.notPriv e, (decide (hist < 2 ∨ 64 < hist), St.RANGE, rangeAt 3 0), (decide (ms = 0), St.RANGE, rangeAt 3 16)] fun _ =>
    .done (d.setStream (fld e.d2 11 0) { v := bitOf e.d2 32, elimCmp := bitOf e.d2 33, hist := hist, resetMs := ms })

/-- TWIN_RECOVERY_RESET (R442). -/
def Dev.recoveryReset (d : Dev) (s : Nat) : Dev := d.setStream s { d.stream s with last := none, seen := [], digs := [] }

/-! Becoming active (R439, R446, R449). -/

/-- A tag of the identity's VLAN, if it has one. -/
def idTag (e : List Byte) : List Byte := if leAt e 6 2 / 32768 = 1 then beBytes 2 0x8100 ++ beBytes 2 (leAt e 6 2 % 4096) else []

/-- A gratuitous ARP, and an unsolicited Neighbor Advertisement with Override. -/
def garp (e : List Byte) : List Byte :=
  let mac := slice e 0 6
  fitTo 60 (List.replicate 6 0xFF#8 ++ mac ++ idTag e ++ beBytes 2 0x0806 ++ beBytes 2 1 ++ beBytes 2 0x0800 ++ [6, 4] ++ beBytes 2 1 ++ mac ++ slice e 8 4 ++
    List.replicate 6 0#8 ++ slice e 8 4)

def neighAdv (e : List Byte) : List Byte :=
  let mac := slice e 0 6
  let ip := slice e 12 16
  let dst := [0xFF#8, 0x02#8] ++ List.replicate 13 0#8 ++ [0x01#8]
  let body := beBytes 4 0x20000000 ++ ip ++ [2, 1] ++ mac
  let l4 := fun (c : Nat) => [136#8, 0#8] ++ beBytes 2 c ++ body
  let sum := Net.onesSum (ip ++ dst ++ beBytes 4 32 ++ beBytes 4 58 ++ l4 0)
  beBytes 6 0x333300000001 ++ mac ++ idTag e ++ beBytes 2 0x86DD ++ beBytes 4 0x60000000 ++ beBytes 2 32 ++ beBytes 1 58 ++ beBytes 1 255 ++ ip ++ dst ++ l4 (65535 - sum)

/-- A frame of pool 19 for a port. -/
def Dev.annFrame (d : Dev) (port : Nat) (f : List Byte) : Dev :=
  let p : Packet := { pool := 19, cells := 0, data := f, port := 18 }
  match d.sq.store p with
  | some (tok, q) =>
    let d := d.setSquare q
    (d.pkt tok).elim d (fun p => d.enqueuePort tok port p)
  | none => d

/-- R439: announce every identity on every port named. -/
def Dev.announce (d : Dev) : Dev :=
  let t := d.twin
  let es := (List.range (t.table.length / 32)).map (fun i => slice t.table (32 * i) 32)
  let fs := es.flatMap (fun (e : List Byte) =>
    (if slice e 8 4 = List.replicate 4 0#8 then [] else [garp e]) ++ (if slice e 12 16 = List.replicate 16 0#8 then [] else [neighAdv e]))
  let ports := (List.range 16).filter (fun p => decide (t.annPorts / 2 ^ p % 2 = 1))
  ports.foldl (fun (d : Dev) (p : Nat) => fs.foldl (fun (d : Dev) (f : List Byte) => d.annFrame p f) d) d

/-- Insert a held frame in sequence order within its stream. -/
def insHeld (h : HeldFrame) : List HeldFrame → List HeldFrame
  | [] => [h]
  | x :: r => if x.stream = h.stream ∧ 0 < (x.seq + 65536 - h.seq) % 65536 ∧ (x.seq + 65536 - h.seq) % 65536 < 32768 then h :: x :: r else x :: insHeld h r

/-- R446: the held frames are transmitted before any new one. -/
def Dev.sendHeld (d : Dev) : Dev :=
  let l := d.twin.held.foldl (fun (l : List HeldFrame) (h : HeldFrame) => insHeld h l) []
  l.foldl (fun (d : Dev) (h : HeldFrame) => (d.pkt h.tok).elim d (fun p => d.enqueuePort h.tok h.port p)) (d.setTwin { d.twin with held := [] })

/-- R449 step 5: the twin is ACTIVE; it transmits at once, so it counts as holding a lease from now (DEDUCED, log 47). -/
def Dev.becomeActive (d : Dev) : Dev :=
  let d := d.setTwin { d.twin with grantRx := some d.nowNs, takeoverAt := none, revoking := false, swapping := false }
  ((d.setRole 2).sendHeld).announce

/-- TAKEOVER (R449 step 4). -/
def Dev.takeover (d : Dev) : Dev :=
  let t := d.twin
  if t.role ≠ 3 ∨ t.takeoverAt.isNone ∨ d.fab.state ≠ 2 then d
  else
    let us := (d.nowNs - t.digestAt.getD d.nowNs) / 1000
    ((d.becomeActive.count Reg.TWIN_TAKEOVER_CNT).setReg Reg.TWIN_LAST_TAKEOVER (packW [(min us 4095, 0)])).setBit Reg.TWIN_GSTAT 1

/-! Digests (R443, R444, R446). -/

/-- DIGEST_SEND. -/
def Dev.digestSend (d : Dev) : Dev :=
  let t := d.twin
  if t.role < 2 then d
  else
    let grant := decide (t.mode = 2) && decide (t.role = 3) && t.granting
    let head := fun (n : Nat) => beBytes 1 t.role ++ beBytes 1 (b2n grant) ++ beBytes 2 n
    let ent := fun (r : DigRange) => beBytes 2 r.stream ++ beBytes 2 r.first ++ beBytes 2 r.count ++ [0, 0] ++ beBytes 8 r.dig
    let groups := (List.range (max 1 ((t.acc.length + 78) / 79))).map (fun i => (t.acc.drop (79 * i)).take 79)
    let now := d.nowNs
    let d := d.setTwin { t with acc := [], own := t.own ++ t.acc.map (fun (r : DigRange) => { r with time := now }), grantTx := if grant then now else t.grantTx }
    groups.foldl (fun (d : Dev) (g : List DigRange) => d.twinSend 0x21 (head g.length ++ g.flatMap ent)) d

/-- The sequence numbers of a range. -/
def DigRange.seqs (r : DigRange) : List Nat := (List.range r.count).map (fun i => (r.first + i) % 65536)

def DigRange.has (r : DigRange) (s seq : Nat) : Bool := decide (r.stream = s ∧ (seq + 65536 - r.first) % 65536 < r.count)

/-- This twin's digest of a range, if it has emitted every frame of it. -/
def Dev.ownDigest (d : Dev) (r : DigRange) : Option Nat :=
  let of := fun (q : Nat) => (d.twin.emitted.reverse.find? (fun e => decide (e.1 = r.stream ∧ e.2.1 = q))).map (fun e => rotl64 e.2.2.1 q)
  let ds := r.seqs.map of
  if ds.all Option.isSome then some (ds.foldl (fun (a : Nat) (x : Option Nat) => a ^^^ x.getD 0) 0) else none

/-- Ranges reported here, less what the peer has reported too. -/
def coverOwn (theirs own : List DigRange) : List DigRange :=
  own.filter (fun o => !(o.seqs.all (fun q => theirs.any (fun r => r.has o.stream q))))

/-- A range differs (R447): self-check; a swap in progress ends (R455). -/
def Dev.mismatch (d : Dev) (r : DigRange) : Dev :=
  let t := d.twin
  let cmd := t.swapCmd
  let d := (d.setTwin { t with check := t.check.or (some r), holdoffAt := d.nowNs, swapping := false, swapCmd := none }).count Reg.TWIN_DIG_MISMATCH
  cmd.elim d (fun e => d.admLate e 0x7B St.STATE d.twin.role 0)

/-- Compare the peer's ranges that this twin has emitted in full; the others wait. -/
def Dev.compareRanges (d : Dev) (rs : List DigRange) : Dev :=
  rs.foldl (fun (d : Dev) (r : DigRange) =>
    match d.ownDigest r with
    | some x => if x = r.dig then d else d.mismatch r
    | none => d.setTwin { d.twin with theirs := d.twin.theirs ++ [r] }) d

/-- R448: a LEASE_LOST twin that holds a lease becomes ACTIVE again when its peer is seen not to be, or is gone; it is STANDBY once the peer
is ACTIVE. -/
def Dev.leaseBack (d : Dev) : Dev :=
  let t := d.twin
  if t.role ≠ 4 then d
  else if !t.peerLost ∧ t.peerRole = 2 then d.setRole 3
  else if d.leaseHeld ∧ (!t.peerLost ∨ !d.fab.members.any (fun m => decide (m.uid = t.peerUid))) then (d.setRole 2).announce
  else d

/-- DIGEST_RX. -/
def Dev.digestRx (d : Dev) (m : List Byte) : Dev :=
  let t := d.twin
  if t.role < 2 ∨ msgUid m ≠ t.peerUid then d
  else
    let b := msgBody m
    let now := d.nowNs
    let rs := (List.range (min (beAt b 2 2) 79)).map (fun i =>
      ({ stream := beAt b (4 + 16 * i) 2 % 4096, first := beAt b (6 + 16 * i) 2, count := beAt b (8 + 16 * i) 2, dig := beAt b (12 + 16 * i) 8, time := now } : DigRange))
    let seen := fun (h : HeldFrame) => rs.any (fun r => r.has h.stream h.seq)
    let gone := t.held.filter seen
    let old := t.theirs
    let grant := decide (leAt b 1 1 % 2 = 1) && decide (t.role = 2 ∨ t.role = 4)
    let d := d.setTwin { t with
      digestAt := some now, peerRole := leAt b 0 1, peerLost := false, held := t.held.filter (fun h => !seen h), theirs := [], own := coverOwn rs t.own
      granting := true, grantRx := if grant then some (max (t.grantRx.getD 0) (msgSent m)) else t.grantRx }
    let d := gone.foldl (fun (d : Dev) (h : HeldFrame) => d.freePkt h.tok) d
    ((d.compareRanges old).compareRanges rs).leaseBack

/-- DIGEST_RANGE_MISSED (R444): counted once. -/
def Dev.rangeMissed (d : Dev) (s first : Nat) : Dev :=
  let t := d.twin
  let hit := fun (r : DigRange) => decide (r.stream = s ∧ r.first = first)
  if t.own.any hit ∨ t.theirs.any hit then
    (d.setTwin { t with own := t.own.filter (fun r => !hit r), theirs := t.theirs.filter (fun r => !hit r) }).count Reg.TWIN_DIG_MISSED
  else d

/-! Failures (R447). -/

/-- The parent in the tree of another member, from the membership known here. -/
def Dev.parentOf (d : Dev) (a : Nat) : Option Nat :=
  let gate := fun (blk : Nat) => (lowUid (d.fab.members.filter (fun m => decide (m.addr / 16 = blk)))).map (·.addr)
  let low := fun (q : Nat) => (d.fab.members.filter (fun m => decide (m.addr / 4096 = q))).foldl (fun (b : Nat) (m : FabMember) => min b (m.addr / 16)) 65536
  if gate (a / 16) ≠ some a then gate (a / 16)
  else if low (a / 4096) ≠ a / 16 then gate (low (a / 4096))
  else d.rootQ.bind (fun q => gate (low q))

/-- The second signal of a hot-hot peer's life (R444). -/
def Dev.secondSignal (d : Dev) : Bool :=
  let t := d.twin
  if t.peer / 16 = d.fabA / 16 then d.fab.peers.any (fun p => decide (p.uid = t.peerUid)) else d.fab.members.any (fun m => decide (m.uid = t.peerUid))

/-- An exercise ends: 1 pass, 2 mismatch, 3 ended (R453). -/
def Dev.exerciseEnd (d : Dev) (r : Nat) : Dev :=
  if !d.twin.exercising then d
  else
    let d := ((d.setTwin { d.twin with exercising := false }).setReg Reg.TWIN_EXER_LAST (packW [(r, 0)])).twinEvent { type := 0x173, p1 := r }
    if r = 2 then ((d.setBit Reg.TWIN_GSTAT 3).setTwin { d.twin with holdoffAt := d.nowNs }).setRole 5 else d

/-- PEER_DIGEST_LOSS (R447, R449 steps 1 and 2). -/
def Dev.digestLoss (d : Dev) : Dev :=
  let t := d.twin
  if t.role < 2 ∨ t.peerLost then d
  else
    let path := decide (t.mode = 1) && d.secondSignal
    let d := (d.setTwin { t with peerLost := true, holdoffAt := d.nowNs }).exerciseEnd 3
    let d := (d.setBit Reg.TWIN_GSTAT 4).twinEvent { type := 0x172, p1 := b2n path }
    if t.mode = 2 ∧ t.role = 3 ∧ d.fab.state = 2 then
      let d := d.setTwin { d.twin with granting := false, revoking := true }
      (d.parentOf t.peer).elim d (fun p => d.fabSend p 0x22 0 (beBytes 16 t.peerUid))
    else d

/-- Both results of a self-check are known (R447). -/
def Dev.checkEnd (d : Dev) : Dev :=
  let t := d.twin
  match t.check, t.checkOwn, t.checkPeer with
  | some r, some own, some peer =>
    let d := d.setTwin { t with check := none, checkOwn := none, checkPeer := none }
    if own ∧ peer then d.twinDiverged 0xFFFF 0
    else if !own ∧ !peer then d.twinDiverged r.stream r.first
    else if own then
      let d := if t.mode = 2 ∧ t.role = 2 then d.twinSend 0x26 [] else d
      (d.setTwin { d.twin with holdoffAt := d.nowNs }).setRole 5
    else d
  | _, _, _ => d

/-- SELF_CHECK_DONE: the re-run differed from the first run, or not. -/
def Dev.selfCheck (d : Dev) (differs : Bool) : Dev :=
  match d.twin.check with
  | none => d
  | some r => ((d.twinSend 0x24 (beBytes 1 (b2n differs) ++ [0] ++ beBytes 2 r.stream ++ beBytes 2 r.first ++ beBytes 2 r.count)).setTwin
      { d.twin with checkOwn := some differs }).checkEnd

/-- CHECK_RX. -/
def Dev.checkRx (d : Dev) (m : List Byte) : Dev :=
  if d.twin.role < 2 ∨ msgUid m ≠ d.twin.peerUid then d else (d.setTwin { d.twin with checkPeer := some (decide (leAt (msgBody m) 0 1 = 1)) }).checkEnd

/-! Leases (R448, R449). -/

def Dev.leaseReqSend (d : Dev) : Dev := if d.twin.mode = 2 ∧ (d.twin.role = 2 ∨ d.twin.role = 4) then d.fabUp 0x27 0 [] else d

/-- LEASE_REQ_RX: a parent grants while its state is HOLDING and no REVOKE for that twin is in force. -/
def Dev.leaseReqRx (d : Dev) (m : List Byte) : Dev :=
  let u := msgUid m
  let revoked := (kvFind u d.twin.revokes).elim false (fun e => decide (d.nowNs < e))
  match msgSrc m with
  | some a => if d.fab.state = 2 ∧ !revoked then (d.setTwin { d.twin with leases := kvPut u d.nowNs d.twin.leases }).fabSend a 0x28 0 [] else d
  | none => d

def Dev.leaseRx (d : Dev) (m : List Byte) : Dev :=
  let t := d.twin
  if t.mode = 2 ∧ (t.role = 2 ∨ t.role = 4) then (d.setTwin { t with grantRx := some (max (t.grantRx.getD 0) (msgSent m)) }).leaseBack else d

/-- LEASE_EXPIRE. -/
def Dev.twinLeaseExpire (d : Dev) : Dev :=
  if d.twin.mode = 2 ∧ d.twin.role = 2 then ((d.setTwin { d.twin with grantRx := none }).count Reg.TWIN_LEASE_STOP).setRole 4 else d

/-- REVOKE_RX: a parent grants to that UID no more for 10 ms, and answers with SENT of its last grant. -/
def Dev.revokeRx (d : Dev) (m : List Byte) : Dev :=
  match msgSrc m with
  | none => d
  | some a =>
    let u := beAt (msgBody m) 0 16
    (d.setTwin { d.twin with revokes := kvPut u (d.nowNs + 10000000) d.twin.revokes }).fabSend a 0x23 0 (beBytes 8 (kvGet 0 d.twin.leases u))

/-- REVOKED_RX. -/
def Dev.revokedRx (d : Dev) (m : List Byte) : Dev :=
  let t := d.twin
  if t.role = 3 ∧ t.revoking then
    d.setTwin { t with revoking := false, takeoverAt := some (max (beAt (msgBody m) 0 8) t.grantTx + 601000) }
  else d

/-- REVOKE_TIMEOUT. -/
def Dev.revokeTimeout (d : Dev) : Dev := d.setTwin { d.twin with revoking := false }

/-- SHADOW_HOLD_EXPIRE (R446). -/
def Dev.shadowExpire (d : Dev) (tok : Nat) : Dev :=
  if d.twin.held.any (fun h => decide (h.tok = tok)) then
    ((d.setTwin { d.twin with held := d.twin.held.filter (fun h => decide (h.tok ≠ tok)) }).freePkt tok).count Reg.TWIN_HOLD_DROP
  else d

/-! Swap (R450 to R452). -/

/-- The active stops, sends a last DIGEST and then RELEASED, and is STANDBY. -/
def Dev.release (d : Dev) : Dev :=
  let d := (d.digestSend).twinSend 0x26 []
  (d.setTwin { d.twin with grantRx := none, granting := true }).setRole 3

/-- R451: a swap cannot run now: the role code of the twin that refuses. -/
def Dev.swapRefused (d : Dev) : Option Nat :=
  let t := d.twin
  if t.role = 4 ∨ t.role = 5 ∨ t.exercising then some t.role else if t.peerRole = 4 ∨ t.peerRole = 5 then some t.peerRole else none

def Dev.swapStart (d : Dev) : Dev :=
  if d.twin.mode = 2 ∧ d.twin.role = 3 ∧ d.swapRefused.isNone then (d.setTwin { d.twin with swapping := true }).twinSend 0x25 [] else d

/-- TWIN_SWAP: on either twin. -/
def twinSwap (e : AdmEntry) (d : Dev) : AdmRes :=
  let t := d.twin
  admChecks [d.notPriv e, (decide (t.role < 2 ∨ t.mode ≠ 2), St.STATE, t.role), (d.swapRefused.isSome, St.STATE, d.swapRefused.getD 0),
      (t.swapCmd.isSome, St.STATE, t.role)] fun _ =>
    if t.role = 2 then .done d.release else .wait ((d.setTwin { t with swapCmd := some e }).swapStart)

/-- SWAP_RX: a body is a refusal that comes back with a role code. -/
def Dev.swapRx (d : Dev) (m : List Byte) : Dev :=
  let t := d.twin
  if t.role < 2 ∨ t.mode ≠ 2 ∨ msgUid m ≠ t.peerUid then d
  else if 0 < msgLen m then
    let d := d.setTwin { t with swapping := false, swapCmd := none, holdoffAt := d.nowNs }
    t.swapCmd.elim d (fun e => d.admLate e 0x7B St.STATE (leAt (msgBody m) 0 1) 0)
  else
    match d.swapRefused with
    | some r => d.twinSend 0x25 (beBytes 1 r)
    | none => if t.role = 2 then d.release else d.twinSend 0x25 (beBytes 1 t.role)

/-- RELEASED_RX (R450 step 3). -/
def Dev.releasedRx (d : Dev) (m : List Byte) : Dev :=
  let t := d.twin
  if t.role ≠ 3 ∨ t.mode ≠ 2 ∨ msgUid m ≠ t.peerUid then d
  else
    let d := ((d.exerciseEnd 3).setTwin { (d.exerciseEnd 3).twin with swapCmd := none, peerRole := 3 }).becomeActive
    t.swapCmd.elim d (fun e => d.admLate e 0x7B 0 0 0)

/-- HOLDOFF_EXPIRE (R447, R450). -/
def Dev.holdoff (d : Dev) : Dev :=
  let t := d.twin
  if t.role = 5 then d.setRole (if t.mode = 1 then 2 else 3)
  else if t.rank = 0 ∧ t.role = 3 ∧ !t.peerLost then d.swapStart
  else d

/-- PLANNED_SWAP (R452). -/
def Dev.plannedSwap (d : Dev) : Dev :=
  if d.regBit Reg.TWIN_SWAP_CFG 31 ∧ d.twin.rank = 1 ∧ d.twin.role = 3 then (d.setTwin { d.twin with lastSwap := d.nowNs }).swapStart else d

/-! Exercise (R453). -/

def Dev.exerciseStart (d : Dev) : Dev :=
  if d.twin.role = 3 ∧ !d.twin.exercising then (d.setTwin { d.twin with exercising := true }).count Reg.TWIN_EXER_CNT else d

def twinExercise (e : AdmEntry) (d : Dev) : AdmRes :=
  admChecks [d.notPriv e, (decide (d.twin.role ≠ 3), St.STATE, d.twin.role)] fun _ => .done d.exerciseStart

/-! What the fabric does to a pair. -/

/-- A new EPOCH (R437, R448, R449, R455): the topology is looked at again; a standby whose peer is gone takes over at once; a hot-hot twin whose peer is gone
goes on alone; a pair broken up by a fabric reset forms again. -/
def Dev.twinEpoch (d : Dev) : Dev :=
  let t := d.twin
  let gone := !d.fab.members.any (fun m => decide (m.uid = t.peerUid))
  if t.role = 0 then d
  else if t.role = 1 then (if t.pairCmd.isNone then d.pairSend.pairTry else d)
  else
    let d := if d.topologyOk t.peer t.mode then d else (d.setBit Reg.TWIN_GSTAT 0).twinEvent { type := 0x170, p1 := 0xFF }
    let d := if t.mode = 1 ∧ t.peerLost ∧ gone then d.twinEvent { type := 0x172 } else d
    let d := if t.role = 3 ∧ t.mode = 2 ∧ t.peerLost ∧ gone ∧ !t.revoking ∧ t.takeoverAt.isNone then
        (d.setTwin { d.twin with takeoverAt := some d.nowNs }).takeover else d
    d.leaseBack

/-- R455: a fabric reset makes each twin PAIRING, with its terms as they stand. -/
def Dev.twinReset (d : Dev) : Dev :=
  if d.twin.role < 2 then d
  else
    let d := d.freeHeld
    (d.setTwin { d.twin with acc := [], own := [], theirs := [], peerPair := none, check := none, checkOwn := none, checkPeer := none, exercising := false, swapping := false
                             takeoverAt := none, revoking := false }).setRole 1

/-- A twin message, by its type. -/
def Dev.twinMessage (d : Dev) (m : List Byte) : Dev :=
  match msgType m with
  | 0x20 => d.pairRx m
  | 0x21 => d.digestRx m
  | 0x22 => d.revokeRx m
  | 0x23 => d.revokedRx m
  | 0x24 => d.checkRx m
  | 0x25 => d.swapRx m
  | 0x26 => d.releasedRx m
  | 0x27 => d.leaseReqRx m
  | 0x28 => d.leaseRx m
  | _ => d

/-- A message of the named type arrives; one of another type is no such event. -/
def Dev.fabArrive (d : Dev) (bus : Bool) (type : Nat) (m : List Byte) (f : Dev → Dev) : Dev :=
  if 44 ≤ m.length ∧ msgType m ≠ type then d
  else match d.fabTake bus m with
    | (true, d) => f d
    | (false, d) => d

/-! The command rows. -/

def execTwinPair (e : AdmEntry) (s : State) := s.run (·.twinPairRun e)
def execTwinUnpair (e : AdmEntry) (s : State) := s.run (·.admRun e 0x79 (twinUnpair e))
def execTwinStreamSet (e : AdmEntry) (s : State) := s.run (·.admRun e 0x7A (twinStreamSet e))
def execTwinSwap (e : AdmEntry) (s : State) := s.run (·.admRun e 0x7B (twinSwap e))
def execTwinExerciseNow (e : AdmEntry) (s : State) := s.run (·.admRun e 0x7C (twinExercise e))
def execPairRx (msg : List Byte) (s : State) := s.run (fun d => d.fabArrive false 0x20 msg (·.pairRx msg))
def execPairTimeout (s : State) := s.run (·.pairTimeout)
def execDigestSend (s : State) := s.run (·.digestSend)
def execDigestRx (msg : List Byte) (s : State) := s.run (fun d => d.fabArrive false 0x21 msg (·.digestRx msg))
def execDigestRangeMissed (stream first : Nat) (s : State) := s.run (·.rangeMissed stream first)
def execPeerDigestLoss (s : State) := s.run (·.digestLoss)
def execSelfCheckDone (differs : Bool) (s : State) := s.run (·.selfCheck differs)
def execCheckRx (msg : List Byte) (s : State) := s.run (fun d => d.fabArrive false 0x24 msg (·.checkRx msg))
def execLeaseReqSend (s : State) := s.run (·.leaseReqSend)
def execLeaseReqRx (msg : List Byte) (s : State) := s.run (fun d => d.fabArrive false 0x27 msg (·.leaseReqRx msg))
def execLeaseRx (msg : List Byte) (s : State) := s.run (fun d => d.fabArrive false 0x28 msg (·.leaseRx msg))
def execLeaseExpire (s : State) := s.run (·.twinLeaseExpire)
def execRevokeRx (msg : List Byte) (s : State) := s.run (fun d => d.fabArrive false 0x22 msg (·.revokeRx msg))
def execRevokedRx (msg : List Byte) (s : State) := s.run (fun d => d.fabArrive false 0x23 msg (·.revokedRx msg))
def execRevokeTimeout (s : State) := s.run (·.revokeTimeout)
def execTakeover (s : State) := s.run (·.takeover)
def execShadowHoldExpire (tok : Nat) (s : State) := s.run (·.shadowExpire tok)
def execHoldoffExpire (s : State) := s.run (·.holdoff)
def execSwapRx (msg : List Byte) (s : State) := s.run (fun d => d.fabArrive false 0x25 msg (·.swapRx msg))
def execReleasedRx (msg : List Byte) (s : State) := s.run (fun d => d.fabArrive false 0x26 msg (·.releasedRx msg))
def execPlannedSwap (s : State) := s.run (·.plannedSwap)
def execExerciseStart (s : State) := s.run (·.exerciseStart)
def execExerciseDone (mismatch : Bool) (s : State) := s.run (fun d => d.exerciseEnd (if mismatch then 2 else 1))
def execTwinRecoveryReset (stream : Nat) (s : State) := s.run (·.recoveryReset stream)

end Sys2Proof.Machine
end

