-- ==== Sys2Proof/Machine/Fabric.lean ====
section
/-! DEFINITION. The fabric: Blocks, the membership, global operations, cuts (R410 to R434). -/

namespace Sys2Proof.Machine

/-! Global operations: their ends (R425). -/

/-- A completion whose D2 carries a value (R434: T of a SNAPSHOT). -/
def Dev.admLateD2 (d : Dev) (e : AdmEntry) (opc : Nat) (d2 : Dword) : Dev :=
  if !d.ring.taken.any (fun a => decide (a.e = e)) then d
  else
    let d := d.admJournal e opc 0 0
    let d : Dev := { d with ring := { d.ring with taken := takenErase e d.ring.taken } }
    (d.admPush e.pf (mkCqe 0xFFFF 0 e.tag 0 opc d.ts32 0 d2 0)).admFences e.pf (d.ring.taken.length + 1)

def Dev.fabRun? (d : Dev) (id : Nat) : Option FabRun := d.fab.ops.find? (fun o => decide (o.id = id))
def Dev.setRun (d : Dev) (x : FabRun) : Dev :=
  let l := d.fab.ops.map (fun (o : FabRun) => if o.id = x.id then x else o)
  d.setFab { d.fab with ops := if d.fab.ops.any (fun o => decide (o.id = x.id)) then l else l ++ [x] }
def Dev.delRun (d : Dev) (id : Nat) : Dev := d.setFab { d.fab with ops := d.fab.ops.filter (fun o => decide (o.id ≠ id)) }

/-- Every running operation ends with REMOTE. -/
def Dev.endOps (d : Dev) (det : Nat) : Dev :=
  let ops := d.fab.ops
  ops.foldl (fun (d : Dev) (o : FabRun) => o.cmd.elim d (fun e => d.admLate e 0x70 St.REMOTE det 0)) (d.setFab { d.fab with ops := [], dead := [] })

/-! Membership (R411, R421). -/

def addMember (m : FabMember) (l : List FabMember) : List FabMember := l.filter (fun x => decide (x.addr ≠ m.addr)) ++ [m]

/-- R429: the lowest address of the tie-break Quarter in the membership. -/
def Dev.tieOf (d : Dev) (l : List FabMember) : Option Nat :=
  let q := d.regFld Reg.FAB_TIEBREAK 7 0
  let as := (l.filter (fun m => decide (m.addr / 4096 = q))).map (·.addr)
  as.foldl (fun (b : Option Nat) (a : Nat) => some (b.elim a (min a))) none

/-- The body of EPOCH (R417). A body of 1,280 bytes has room for 318 removed members; those beyond are not sent (log 45). -/
def epochBody (total : Nat) (tie : Option Nat) (removed : List Nat) : List Byte :=
  beBytes 4 total ++ beBytes 4 (tie.getD 0xFFFFFFFF) ++ (removed.take 318).flatMap (beBytes 4)

/-- The root issues a new EPOCH over a membership (R421, R430): running operations end, the EPOCH goes down the tree. -/
def Dev.newEpoch (d : Dev) (ms : List FabMember) (removed : List FabMember) : Dev :=
  let d := d.endOps 0x41
  let tie := d.tieOf ms
  let x := d.fab
  let d := d.setFab { x with members := ms, total := ms.length, tie := tie, epoch := max x.epoch x.epochMax + 1, epochMax := 0, reach := ms.length
                             joins := x.joins.filter (fun j => !ms.any (fun m => decide (m.addr = j.addr)))
                             heldAddrs := x.heldAddrs ++ removed.map (fun m => (m.addr, m.uid)) }
  ((d.fabDown 7 0 (epochBody ms.length tie (removed.map (·.addr)))).setFabState 2).twinEpoch

/-- R421: the root applies a JOIN or a LEAVE, or holds it back while a global operation runs. -/
def Dev.rootChange (d : Dev) (join : Bool) (m : FabMember) : Dev :=
  if !d.fab.ops.isEmpty then d.setFab { d.fab with heldChanges := d.fab.heldChanges ++ [(join, m)] }
  else if join then d.newEpoch (addMember m d.fab.members) []
  else if d.fab.members.any (fun x => decide (x.addr = m.addr)) then
    d.newEpoch (d.fab.members.filter (fun x => decide (x.addr ≠ m.addr))) [m]
  else d

/-- R411, R433: the Quarter lead refuses a JOIN. -/
def Dev.joinRefused (d : Dev) (m : FabMember) : Bool :=
  let mine := d.fab.members.any (fun x => decide (x.addr = m.addr ∧ x.uid = m.uid))
  (!mine && decide (65536 ≤ max d.fab.total d.fab.members.length)) || d.fab.members.any (fun x => decide (x.addr = m.addr ∧ x.uid ≠ m.uid)) ||
    d.fab.heldAddrs.any (fun h => decide (h.1 = m.addr ∧ h.2 ≠ m.uid))

/-- R410: the lowest Block number of the Quarter that is free and not held. -/
def Dev.freeBlock (d : Dev) : Option Nat :=
  leastBelow (fun b => !(decide (d.fabB = some b)) && !(d.fab.members ++ d.fab.joins).any (fun m => decide (m.addr / 16 = 256 * d.fabQ + b)) &&
    !d.fab.heldAddrs.any (fun h => decide (h.1 / 16 = 256 * d.fabQ + b))) 256

/-- A JOIN at this node: checked by the Quarter lead, applied by the root, passed up otherwise. -/
def Dev.joinAt (d : Dev) (m : FabMember) (msg : Option (List Byte)) : Dev :=
  if d.isQlead ∧ d.joinRefused m then d
  else if d.isRoot then d.rootChange true m
  else
    let d := d.setFab { d.fab with joins := addMember m d.fab.joins }
    match msg, d.fabParent with
    | some b, some p => d.fabRaw p b
    | none, some p => d.fabSend p 6 0 (beBytes 4 m.addr)
    | _, none => d

/-- This device asks to join (R421): a Block request in bit 31 while it has no Block number (log 45). -/
def Dev.joinSelf (d : Dev) : Dev :=
  if d.fab.state ≠ 1 ∨ d.fab.gate.isNone then d
  else
    let d := d.setFab { d.fab with joined := true }
    match d.fabAddr, d.fab.index with
    | some a, _ => d.joinAt { addr := a, uid := d.fabUid } none
    | none, some i => d.fabUp 6 0 (beBytes 4 (2 ^ 31 + i))
    | none, none => d

/-- A device with an index is JOINING (R419). -/
def Dev.fabStart (d : Dev) : Dev :=
  if d.fabOn ∧ d.fab.state = 0 ∧ d.fab.index.isSome ∧ d.pwr.state < 2 then
    -- R410: a coordinator that leads its Quarter takes a Block number itself
    let d := if d.regBit Reg.FAB_CFG 30 ∧ d.fab.block.isNone ∧ d.lowBlock.isNone then d.setFab { d.fab with block := d.freeBlock } else d
    (d.setFabState 1).joinSelf
  else d

/-- FAB_STATE becomes ALONE: LEAVE goes up the tree first. -/
def Dev.fabLeave (d : Dev) : Dev :=
  if d.fab.state = 0 then d
  else
    let d := if d.fab.state = 2 then d.fabUp 8 0 [] else d
    let d := d.endOps 0x40
    let d := d.setFab { d.fab with members := [], total := 0, tie := none, reach := 0, hb := [], below := [], joins := [], joined := false, counts := [], counted := false
                                   heldChanges := [] }
    d.setFabState 0

/-- FAB_CFG_WRITE (R421, R435). -/
def Dev.fabCfg (d : Dev) (pf : Nat) (v : Word) : Dev :=
  d.bar0Write pf Reg.FAB_CFG fun d =>
    let v := v &&& 0xFFFFFF00#32
    let old := d.reg Reg.FAB_CFG
    if !bitOf old 31 then
      let d := d.setReg Reg.FAB_CFG v
      if bitOf v 31 then
        (d.setFab { nbrs := d.fab.nbrs, heldAddrs := d.fab.heldAddrs, bcasts := d.fab.bcasts, snaps := d.fab.snaps, adverts := d.fab.adverts }) else d
    else if v &&& 0x7FFFFFFF#32 ≠ old &&& 0x7FFFFFFF#32 then d.setBit Reg.FAB_GSTAT 0
    else if bitOf v 31 then d
    else
      let d := d.fabLeave
      (d.setFab { d.fab with index := none, block := none, coord := none, gate := none, peers := [], given := [] }).setReg Reg.FAB_CFG v

/-! Within a Block (R412 to R414). -/

/-- R422: a fabric neighbour is up; in Quiet it is reported down (R516). -/
def Dev.anyNbrUp (d : Dev) : Bool := decide (d.pwr.state < 2) && d.fab.nbrs.any (fun n => n.2.v && n.2.up)

/-- Members of the Block with this device: UID, NODE_ID, neighbour up, index. -/
def Dev.blockAll (d : Dev) : List FabPeer :=
  { uid := d.fabUid, node := d.regFld Reg.SVB_PLCA 7 0, nbrUp := d.anyNbrUp, index := d.fab.index, heard := d.nowNs } :: d.fab.peers

/-- Indices by ascending unique ID: NODE_ID while PLCA is active, otherwise the lowest free one; an index once given is kept (R410, R413). -/
def assignIdx (plca : Bool) : List FabPeer → List (Nat × Nat) → List (Nat × Nat)
  | [], l => l
  | p :: r, l =>
    match l.find? (fun e => decide (e.1 = p.uid)) with
    | some _ => assignIdx plca r l
    | none =>
      let i := if plca then (if p.node < 16 then some p.node else none) else leastBelow (fun i => !l.any (fun e => decide (e.2 = i))) 16
      match i with
      | some i => assignIdx plca r (if l.any (fun e => decide (e.2 = i)) then l else l ++ [(p.uid, i)])
      | none => assignIdx plca r l

/-- Insert by ascending unique ID. -/
def insPeer (p : FabPeer) : List FabPeer → List FabPeer
  | [] => [p]
  | q :: r => if p.uid < q.uid then p :: q :: r else q :: insPeer p r

/-- ASSIGN_SEND (R413, R414). -/
def Dev.assignSend (d : Dev) : Dev :=
  if !d.isCoord then d
  else
    let all := d.blockAll.foldl (fun (l : List FabPeer) (p : FabPeer) => insPeer p l) []
    let kept := (all.filterMap (fun p => p.index.map (fun i => (p.uid, i)))) ++ d.fab.given.filter (fun e => all.any (fun p => decide (p.uid = e.1 ∧ p.index = none)))
    let given := assignIdx d.port.svb.plcaActive all kept
    let gate := ((all.filter (fun p => p.nbrUp && given.any (fun e => decide (e.1 = p.uid)))).head?).map (·.uid)
    let body := given.flatMap (fun (e : Nat × Nat) => beBytes 16 e.1 ++ beBytes 1 e.2 ++ beBytes 1 (b2n (decide (gate = some e.1))) ++ [0, 0])
    let own := (given.find? (fun e => decide (e.1 = d.fabUid))).map (·.2)
    let d := d.setFab { d.fab with given := given, gate := gate, index := own, assignDue := false, beacons := 0 }
    ((if body.isEmpty then d else d.fabBus 2 body).fabStart).joinSelf

/-- BEACON_SEND (R412). -/
def Dev.beaconSend (d : Dev) : Dev :=
  if !d.fabOn then d
  else
    (d.setFab { d.fab with beacons := d.fab.beacons + 1 }).fabBus 1
      (beBytes 1 (d.regFld Reg.SVB_PLCA 7 0) ++ beBytes 1 (b2n d.anyNbrUp) ++ beBytes 1 (d.fab.index.getD 0xFF))

/-- BEACON_RX (R412): a member with a lower unique ID takes over the coordinator's role as soon as it is heard. -/
def Dev.beaconRx (d : Dev) (m : List Byte) : Dev :=
  if !d.fabOn then d
  else
    let u := msgUid m
    let b := msgBody m
    let ix := leAt b 2 1
    let p : FabPeer := { uid := u, node := leAt b 0 1, nbrUp := decide (leAt b 1 1 % 2 = 1), index := if ix = 0xFF then none else some ix, heard := d.nowNs }
    let old := d.fab.peers.find? (fun x => decide (x.uid = u))
    let changed := old.elim true (fun x => x.nbrUp != p.nbrUp)
    let coord := match d.fab.coord with
      | some c => if u < c then some u else some c
      | none => none
    d.setFab { d.fab with peers := (d.fab.peers.filter (fun x => decide (x.uid ≠ u))) ++ [p], coord := coord, assignDue := d.fab.assignDue || changed }

/-- COORDINATOR_ELECTION (R412): three periods have passed since the device was enabled or since the coordinator was heard. -/
def Dev.election (d : Dev) : Dev :=
  if !d.fabOn then d
  else
    let lost := match d.fab.coord with
      | some c => decide (c ≠ d.fabUid)
      | none => true
    if !lost then d
    else
      let peers := d.fab.peers.filter (fun p => decide (d.fab.coord ≠ some p.uid))
      let low := peers.foldl (fun (a : Nat) (p : FabPeer) => min a p.uid) d.fabUid
      (d.setFab { d.fab with peers := peers, coord := some low, assignDue := true }).count Reg.FAB_ELECT_CNT

/-- ASSIGN_RX (R413): from the coordinator. -/
def Dev.assignRx (d : Dev) (m : List Byte) : Dev :=
  if !d.fabOn ∨ d.fab.coord.elim false (fun c => decide (c < msgUid m)) then d
  else
    let b := msgBody m
    let es := (List.range (b.length / 20)).map (fun i => (beAt b (20 * i) 16, leAt b (20 * i + 16) 1, leAt b (20 * i + 17) 1 % 2))
    let given := es.map (fun e => (e.1, e.2.1))
    let own := (given.find? (fun e => decide (e.1 = d.fabUid))).map (·.2)
    let gate := (es.find? (fun e => decide (e.2.2 = 1))).map (·.1)
    let d := d.setFab { d.fab with coord := some (msgUid m), given := given, gate := gate, index := own }
    if own.isNone then d.fabLeave else d.fabStart.joinSelf

/-- R412: a member not heard for three periods leaves the Block. -/
def Dev.peerLoss (d : Dev) (uid : Nat) : Dev :=
  d.setFab { d.fab with peers := d.fab.peers.filter (fun p => decide (p.uid ≠ uid)), given := d.fab.given.filter (fun e => decide (e.1 ≠ uid)), assignDue := true }

/-! Cuts (R429 to R432). -/

/-- The tree neighbours of this device. -/
def Dev.fabTree (d : Dev) : List Nat := d.fabParent.toList ++ d.fabChildren

def cutMembers (d : Dev) : Nat := 1 + sumNat (d.fab.counts.map (·.2))

/-- A decision of the side's root (R430), or the count passed up once every child has counted. -/
def Dev.decide_ (d : Dev) : Dev :=
  let kids := d.fabChildren.filter d.fabReaches
  if d.fab.state ≠ 3 ∨ !kids.all (fun c => (kvFind c d.fab.counts).isSome) then d
  else
    let n := cutMembers d
    if d.isRoot then
      let m := max d.fab.total d.fab.members.length
      let held := d.fab.members.filter (fun x => d.fabReaches x.addr)
      let lost := d.fab.members.filter (fun x => !d.fabReaches x.addr)
      let tie := d.fab.tie.elim false d.fabReaches
      let d := d.setFab { d.fab with reach := n, counts := [], counted := false }
      if m < 2 * n ∨ (m = 2 * n ∧ tie) then d.newEpoch held lost
      else
        let d := d.setFabState 4
        d.fabDown 0x13 0 (beBytes 4 n)
    else if d.fab.counted then d
    else (d.setFab { d.fab with counted := true, reach := n }).fabUp 0x13 0 (beBytes 4 n)

/-- R429: a cut is seen: DECIDING, and COUNT to every tree neighbour still reached. A second cut restarts the count. -/
def Dev.fabCut (d : Dev) : Dev :=
  if d.fab.state < 2 then d
  else
    let d := ((d.endOps 0x40).setBit Reg.FAB_GSTAT 2).count Reg.FAB_CUT_CNT
    let d := (d.setFab { d.fab with counts := [], counted := false }).setFabState 3
    let d := (d.fabTree.filter d.fabReaches).foldl (fun (d : Dev) (a : Nat) => d.fabSend a 0x13 0 (beBytes 4 1)) d
    d.decide_

/-- COUNT_RX: a count from below, or from above; from a sequestered parent it carries the decision (R430; log 45). -/
def Dev.countRx (d : Dev) (m : List Byte) : Dev :=
  match msgSrc m with
  | none => d
  | some a =>
    if d.fab.state < 2 then d
    else if d.fabParent = some a then
      if msgState m = 4 ∧ d.fab.state = 3 then (d.setFabState 4).fabDown 0x13 0 (msgBody m)
      else if d.fab.state = 2 then d.fabCut else d
    else
      let d := if d.fab.state = 2 then d.fabCut else d
      if d.fab.state = 3 ∧ d.fabChildren.contains a then
        (d.setFab { d.fab with counts := kvPut a (beAt (msgBody m) 0 4) d.fab.counts }).decide_
      else d

/-- SEQUESTER_TIMEOUT (R430). -/
def Dev.sequester (d : Dev) : Dev := if d.fab.state = 3 then d.setFabState 4 else d

/-- HEARTBEAT_SEND (R420). -/
def Dev.heartbeatSend (d : Dev) : Dev :=
  if d.fab.state = 0 ∨ d.fabAddr.isNone then d
  else
    let n := sumNat (d.fabChildren.map (fun c => if d.fabReaches c then kvGet 0 d.fab.below c + 1 else 0))
    let d := d.fabTree.foldl (fun (d : Dev) (a : Nat) => d.fabSend a 3 0 (beBytes 4 n)) d
    if d.fab.state = 2 then d.setFab { d.fab with reach := if d.isRoot then n + 1 else d.fab.reach } else d

/-- Delete LEARNED route entries (R428, R432), through the table-update engine. -/
def Dev.dropLearned (d : Dev) : Dev :=
  let ls := [0, 1, 2].flatMap (fun (lv : Nat) => (List.range (routeCount lv)).map (fun i => (lv, i)))
  let own := ls.filter (fun x => let l := d.routeLine x.1 x.2; lineV l && lineLearned l)
  d.tuePost (own.map (fun (x : Nat × Nat) => ({ op := 0x10, table := 7, index := d.routeBase + 64 * routeIndex x.1 x.2, payload := List.replicate 64 0#8 } : TueRec)))

/-- HEARTBEAT_RX (R420), and the healing of R432 when the sender's side differs. -/
def Dev.heartbeatRx (d : Dev) (m : List Byte) : Dev :=
  match msgSrc m with
  | none => d
  | some a =>
    if d.fab.state = 0 then d
    else
      let x := d.fab
      let d := d.setFab { x with
        hb := kvPut a d.nowNs x.hb, below := kvPut a (beAt (msgBody m) 0 4) x.below
        members := x.members.map (fun (y : FabMember) => if y.addr = a then { y with st := msgState m } else y) }
      if x.state = 4 ∧ msgState m = 2 ∧ x.epoch < msgEpoch m then
        let d := d.dropLearned
        let d := d.setFab { d.fab with epoch := msgEpoch m, members := [], total := 0, joined := false
                                       block := if d.fab.members.any (fun y => decide (y.addr / 16 = d.fabA / 16)) then d.fab.block else none }
        (((d.setFabState 1).setBit Reg.FAB_GSTAT 1).joinSelf)
      else if x.state = 4 ∧ msgState m = 4 ∧ (kvFind a x.hb).isNone then
        let d := d.setFab { d.fab with epochMax := max d.fab.epochMax (msgEpoch m), counts := [], counted := false }
        let d := ((d.setFabState 3).setBit Reg.FAB_GSTAT 1)
        ((d.fabTree.filter d.fabReaches).foldl (fun (d : Dev) (t : Nat) => d.fabSend t 0x13 0 (beBytes 4 1)) d).decide_
      else d

/-- HEARTBEAT_LOSS (R420, R429). -/
def Dev.heartbeatLoss (d : Dev) (a : Nat) : Dev :=
  if (kvFind a d.fab.hb).isNone then d
  else (d.setFab { d.fab with hb := kvDel a d.fab.hb, below := kvDel a d.fab.below }).fabCut

/-! JOIN, EPOCH, LEAVE (R411, R421). -/

/-- JOIN_RX: a Block request is granted by the Quarter lead. -/
def Dev.joinRx (d : Dev) (m : List Byte) : Dev :=
  if d.fab.state = 0 ∨ 3 ≤ d.fab.state then d
  else
    let want := beAt (msgBody m) 0 4
    if want < 2 ^ 31 then d.joinAt { addr := want % 2 ^ 20, uid := msgUid m } (some m)
    else if d.isQlead then
      match d.freeBlock with
      | some b =>
        let a := 4096 * d.fabQ + 16 * b + want % 16
        d.joinAt { addr := a, uid := msgUid m } (some (patch m 44 (beBytes 4 a)))
      | none => d
    else d.fabParent.elim d (fun p => d.fabRaw p m)

/-- JOIN_RETRY (R411): a device that is still JOINING a second after its JOIN was refused. -/
def Dev.joinRetry (d : Dev) : Dev :=
  if d.fab.state ≠ 1 ∨ !d.fab.joined then d else (d.fabEvent { type := 0x161, p1 := d.fabA }).joinSelf

/-- EPOCH_RX (R421, R430): from the parent. `granted` is the Block number that the Quarter lead grants with it, for which the spec gives
no field (log 45). -/
def Dev.epochRx (d : Dev) (m : List Byte) (granted : Option Nat) : Dev :=
  let x := d.fab
  if x.state = 0 ∨ msgEpoch m ≤ x.epoch ∨ (msgSrc m).isNone ∨ msgSrc m ≠ d.fabParent then d
  else
    let b := msgBody m
    let tie := beAt b 4 4
    let removed := (List.range ((b.length - 8) / 4)).map (fun i => beAt b (8 + 4 * i) 4)
    let d := d.endOps 0x41
    let kept := (x.joins.foldl (fun (l : List FabMember) (j : FabMember) => addMember j l) x.members).filter (fun y => !removed.contains y.addr)
    let gone := x.members.filter (fun y => removed.contains y.addr)
    let d := d.setFab { d.fab with
      members := kept, joins := [], total := beAt b 0 4, reach := beAt b 0 4, tie := if tie = 0xFFFFFFFF then none else some tie, epoch := msgEpoch m
      counts := [], counted := false, heldAddrs := x.heldAddrs ++ gone.map (fun y => (y.addr, y.uid))
      block := if x.block.isNone ∧ d.regBit Reg.FAB_CFG 30 then granted.map (· % 256) else x.block }
    let d := d.fabDown 7 0 b
    if d.fabAddr.elim false removed.contains then ((d.setFab { d.fab with joined := false }).setFabState 1).joinSelf
    else if x.state = 1 then (if x.joined then ((d.setFab { d.fab with joined := false }).setFabState 2).twinEpoch else d)
    else (d.setFabState 2).twinEpoch

/-- LEAVE_RX (R421). -/
def Dev.leaveRx (d : Dev) (m : List Byte) : Dev :=
  match msgSrc m with
  | none => d
  | some a =>
    if d.fab.state = 0 ∨ 3 ≤ d.fab.state then d
    else if d.isRoot then d.rootChange false { addr := a, uid := msgUid m }
    else d.fabParent.elim d (fun p => d.fabRaw p m)

/-- MEMBERSHIP_HOLD_EXPIRE (R421): also when the operation ends earlier. -/
def Dev.holdExpire (d : Dev) : Dev :=
  match d.fab.heldChanges with
  | [] => d
  | (join, m) :: r =>
    let d := d.setFab { d.fab with heldChanges := r }
    if join then d.newEpoch (addMember m d.fab.members) []
    else if d.fab.members.any (fun x => decide (x.addr = m.addr)) then d.newEpoch (d.fab.members.filter (fun x => decide (x.addr ≠ m.addr))) [m]
    else d

/-- ADDR_HOLD_EXPIRE (R410): the addresses of a Block are no longer held. -/
def Dev.addrHoldExpire (d : Dev) (blk : Nat) : Dev :=
  d.setFab { d.fab with heldAddrs := d.fab.heldAddrs.filter (fun h => decide (h.1 / 16 ≠ blk)) }

/-! Neighbours and routes (R422, R424). -/

def Dev.helloSend (d : Dev) : Dev :=
  if !d.fabOn ∨ d.fabAddr.isNone then d
  else (d.fab.nbrs.filter (fun (n : Nat × FabNbr) => n.2.v)).foldl (fun (d : Dev) (n : Nat × FabNbr) => d.fabDatagram n.2.addr n.2.action (d.fabMsg 4 0 [])) d

def Dev.helloRx (d : Dev) (m : List Byte) : Dev :=
  match msgSrc m with
  | none => d
  | some a => (d.fab.nbrs.filter (fun (n : Nat × FabNbr) => n.2.v && decide (n.2.addr = a))).foldl (fun (d : Dev) (n : Nat × FabNbr) =>
      d.setNbr n.1 { n.2 with up := true, last := d.nowNs }) d

def Dev.nbrDown (d : Dev) (n : Nat) : Dev :=
  if (d.nbr n).up then (d.setNbr n { d.nbr n with up := false }).setFab { d.fab with nbrs := kvSet {} n { d.nbr n with up := false } d.fab.nbrs
                                                                                     adverts := d.fab.adverts.filter (fun a => decide (a.slot ≠ n)) } else d

/-- ROUTE_ADVERTISE (R422): a body of 1,280 bytes has room for 319 entries (R416). -/
def Dev.routeAdvertise (d : Dev) : Dev :=
  if d.fab.state = 0 then d
  else
    let ls := [0, 1, 2].flatMap (fun (lv : Nat) => (List.range (routeCount lv)).map (fun i => (lv, i)))
    let adv := ls.filter (fun x => let l := d.routeLine x.1 x.2; lineAdv l && d.lineUp l)
    let groups := (List.range ((adv.length + 318) / 319)).map (fun i => (adv.drop (319 * i)).take 319)
    let bodies := groups.map (fun (g : List (Nat × Nat)) =>
      beBytes 2 g.length ++ g.flatMap (fun (x : Nat × Nat) => beBytes 1 x.1 ++ beBytes 1 x.2 ++ beBytes 2 (lineCost (d.routeLine x.1 x.2))))
    (d.fab.nbrs.filter (fun (n : Nat × FabNbr) => n.2.v)).foldl (fun (d : Dev) (n : Nat × FabNbr) =>
      bodies.foldl (fun (d : Dev) (b : List Byte) => d.fabDatagram n.2.addr n.2.action (d.fabMsg 5 0 b)) d) d

/-- The LEARNED line over the slots that advertise the lowest cost, ascending, at most eight (R424). -/
def Dev.learnedLine (d : Dev) (level i : Nat) : Option (List Byte) :=
  let own := d.fab.adverts.filter (fun a => decide (a.level = level ∧ a.index = i) && d.hopUp (a.slot, 0))
  match own with
  | [] => none
  | a :: r =>
    let best := r.foldl (fun (b : Nat) (x : FabAdv) => min b x.cost) a.cost
    let slots := ((List.range 64).filter (fun s => own.any (fun x => decide (x.slot = s ∧ x.cost = best)))).take 8
    let hops := slots.flatMap (fun (s : Nat) => leBytes 4 (packNat [(s, 17), ((d.nbr s).action, 0)]))
    some (leBytes 1 (16 + (slots.length - 1)) ++ [0] ++ leBytes 2 (min best 65535) ++ leBytes 4 0 ++ fitTo 48 hops ++ leBytes 8 (2 ^ 63))

/-- ROUTE_RX (R424, R431). -/
def Dev.routeRx (d : Dev) (m : List Byte) : Dev :=
  match msgSrc m with
  | none => d
  | some a =>
    if d.fab.state = 0 ∨ 3 ≤ d.fab.state then d
    else
      match d.fab.nbrs.find? (fun n => n.2.v && decide (n.2.addr = a)) with
      | none => d
      | some (s, _) =>
        let b := msgBody m
        let es := ((List.range (min (beAt b 0 2) ((b.length - 2) / 4))).map (fun i =>
          ({ slot := s, level := leAt b (2 + 4 * i) 1, index := leAt b (3 + 4 * i) 1
             cost := beAt b (4 + 4 * i) 2 + Config.hopCost s } : FabAdv))).filter (fun e => decide (e.level < 3 ∧ e.index < routeCount e.level))
        let old := d.fab.adverts.filter (fun x => !(decide (x.slot = s) && es.any (fun e => decide (e.level = x.level ∧ e.index = x.index))))
        let d := d.setFab { d.fab with adverts := old ++ es }
        es.foldl (fun (d : Dev) (e : FabAdv) =>
          let l := d.routeLine e.level e.index
          let stale := lineLearned l && !(lineHops l).any d.hopUp
          if lineV l ∧ !(e.cost < lineCost l ∧ lineLearned l) ∧ !stale then d
          else
            match d.learnedLine e.level e.index with
            | some n => d.tuePost [({ op := 0x10, table := 7, index := d.routeBase + 64 * routeIndex e.level e.index, payload := n } : TueRec)]
            | none => d) d

/-! Global operations (R425 to R428). -/

/-- The cut of a snapshot: one port's or rule set's counter set (R17, R426); answers whether the set was refused. -/
def Dev.snapSets (d : Dev) (x : FabRun) : Dev × FabRun :=
  let ports := if x.sets % 2 = 1 then List.range 16 else []
  let rsets := if x.sets / 2 % 2 = 1 then List.range 64 else []
  let r := ports.foldl (fun (a : Dev × Nat) (p : Nat) =>
    let y := a.1.netPort p
    if y.reading then (a.1, a.2 + 1)
    else (a.1.setNetPort p { y with bank := y.counters, counters := [], reading := true, snapSeq := (y.snapSeq + 1) % 65536 }, a.2)) (d, 0)
  let r := rsets.foldl (fun (a : Dev × Nat) (n : Nat) =>
    let y := a.1.rset n
    if y.reading then (a.1, a.2 + 1)
    else (a.1.setRset n { y with bank := y.counters, counters := [0, 0, 0, 0], reading := true, snapSeq := (y.snapSeq + 1) % 65536 }, a.2)) r
  (r.1, { x with cut := true, refused := r.2, seq := (r.1.netPort 0).snapSeq })

/-- SNAPSHOT_CUT: local time has reached T. -/
def Dev.snapCut (d : Dev) (id : Nat) : Dev :=
  match d.fabRun? id with
  | some x => if x.t.isSome ∧ !x.cut then let r := d.snapSets x; r.1.setRun r.2 else d
  | none => d

/-- An operation that another member began raises FAB_OP_EVT (R425). -/
def Dev.opEvent (d : Dev) (id op : Nat) : Dev := d.fabEvent { type := 0x162, p1 := id, p2 := op }

/-- SNAPSHOT_END: the record, and the completion or event. -/
def Dev.snapEnd (d : Dev) (id : Nat) : Dev :=
  match d.fabRun? id with
  | none => d
  | some x =>
    if !x.cut then d
    else
      let t := x.t.getD 0
      let r := fitTo 64 (leBytes 8 t ++ leBytes 8 d.fab.epoch ++ leBytes 4 d.fab.total ++ leBytes 4 x.inflight ++ leBytes 4 x.refused ++ leBytes 4 x.seq ++
        leBytes 1 (b2n x.late))
      let l := d.fab.snaps.filter (fun s => decide (s.1 ≠ id)) ++ [(id, r)]
      let d := (d.setFab { d.fab with snaps := l.drop (l.length - 16) }).delRun id
      match x.cmd with
      | some e => d.admLateD2 e 0x70 (BitVec.ofNat 64 t)
      | none => d.opEvent id 3

/-- A member is released (R426): a barrier ends; a snapshot has its T, and takes its cut at once when T has passed. -/
def Dev.released (d : Dev) (x : FabRun) (t : Nat) : Dev :=
  if x.op = 3 then
    let y := { x with t := some t, late := decide (t < d.nowNs) }
    if t < d.nowNs then let r := d.snapSets y; r.1.setRun r.2 else d.setRun y
  else
    let d := d.delRun x.id
    x.cmd.elim d (fun e => d.admLate e 0x70 0 0 0)

/-- Report upward once this member and every child has entered; the root releases (R426). -/
def Dev.opCheck (d : Dev) (id : Nat) : Dev :=
  match d.fabRun? id with
  | none => d
  | some x =>
    if !x.entered ∨ x.sent ∨ !(d.fabChildren.all x.reports.contains) then d
    else
      let d := d.setRun { x with sent := true }
      if d.isRoot then
        let t := d.nowNs + 3 * d.regFld Reg.FAB_HOP_NS 16 0
        let d := d.fabDown 0x11 id (if x.op = 3 then beBytes 8 t else [])
        d.released { x with sent := true } t
      else d.fabUp 0x10 id (beBytes 8 0)

/-- UP_RX. -/
def Dev.upRx (d : Dev) (m : List Byte) : Dev :=
  match msgSrc m with
  | none => d
  | some a =>
    let id := msgOp m
    if d.fab.state ≠ 2 ∨ d.fab.dead.contains id then d
    else
      let x := (d.fabRun? id).getD { op := 0, id := id }
      (d.setRun { x with reports := if x.reports.contains a then x.reports else x.reports ++ [a] }).opCheck id

/-- DOWN_RX. -/
def Dev.downRx (d : Dev) (m : List Byte) : Dev :=
  let id := msgOp m
  match d.fabRun? id with
  | none => d
  | some x =>
    if msgSrc m ≠ d.fabParent ∨ d.fab.dead.contains id then d
    else (d.fabDown 0x11 id (msgBody m)).released x (beAt (msgBody m) 0 8)

/-- Every core that has been started is restarted from the slot it last started (R381, R428, R518). -/
def Dev.restartCores (d : Dev) : Dev :=
  (d.cpu.cores.filter (fun (c : Nat × Core) => c.2.running || c.2.frozen)).foldl (fun (d : Dev) (c : Nat × Core) => d.beginStart c.1 c.2.slot false) d

/-- R428: a fabric reset reaches this member. -/
def Dev.fabReset (d : Dev) (id : Nat) (cmd : Option AdmEntry) : Dev :=
  let d := (d.delRun id).endOps 0x42
  let d := (d.liveTens.map (·.1)).foldl (fun (d : Dev) (t : Nat) => d.tenReset t) d
  let d := d.restartCores.twinReset
  let d := d.dropLearned
  let d := d.setFab { d.fab with nbrs := d.fab.nbrs.foldl (fun (m : Kv FabNbr) (n : Nat × FabNbr) => kvSet {} n.1 { n.2 with up := false } m) d.fab.nbrs
                                 hb := [], below := [], joined := false, members := [], total := 0, reach := 0, restart := some (id, cmd) }
  (if d.fab.state = 0 then d else d.setFabState 1).opEvent id 4

/-- A payload at this member (R426): kept, fanned out; a snapshot enters its barrier. -/
def Dev.bcastHere (d : Dev) (op id : Nat) (payload : List Byte) : Dev :=
  let own := d.fabRun? id
  let cmd := own.bind (·.cmd)
  let d := d.fabDown 0x12 id (beBytes 1 op ++ [0, 0, 0] ++ payload)
  match op with
  | 2 =>
    let l := d.fab.bcasts.filter (fun s => decide (s.1 ≠ id)) ++ [(id, payload)]
    let d := (d.setFab { d.fab with bcasts := l.drop (l.length - 16) }).delRun id
    match cmd with
    | some e => d.admLate e 0x70 0 0 0
    | none => d.opEvent id 2
  | 3 =>
    let x : FabRun := { own.getD { op := 3, id := id } with op := 3, entered := true, sets := leAt payload 0 1 % 8 }
    (d.setRun x).opCheck id
  | 4 => if cmd.isSome then (d.fabReset id cmd) else d.fabReset id none
  | _ => d

/-- BCAST_RX: from a child it is a request on its way up (DEDUCED, log 45); from the parent it is the payload. -/
def Dev.bcastRx (d : Dev) (m : List Byte) : Dev :=
  let id := msgOp m
  let b := msgBody m
  if d.fab.state ≠ 2 ∨ d.fab.dead.contains id then d
  else if msgSrc m = d.fabParent ∧ d.fabParent.isSome then d.bcastHere (leAt b 0 1) id (b.drop 4)
  else if d.isRoot then d.bcastHere (leAt b 0 1) id (b.drop 4)
  else d.fabParent.elim d (fun p => d.fabRaw p m)

/-- The checks of R434: privilege, ranges, then ALONE. -/
def Dev.fabNotAlone (d : Dev) : Bool × Nat × Nat := (decide (d.fab.state = 0), St.STATE, 0)

/-- FAB_OP (R425, R426, R428, R431). -/
def fabOp (e : AdmEntry) (d : Dev) : AdmRes :=
  let op := fld e.d2 2 0
  let id := fld e.d2 47 32
  let tmo := fld e.d3 31 0
  let old := d.fabRun? id
  let refused := d.fab.state = 3 ∨ d.fab.state = 4
  let pre := [d.notPriv e, (decide (op = 0 ∨ 4 < op), St.RANGE, rangeAt 2 0), (decide (id = 0), St.RANGE, rangeAt 2 32),
      (decide (tmo = 0 ∨ 10000000 < tmo), St.RANGE, rangeAt 3 0),
      (decide (if op = 2 then e.len = 0 ∨ 1024 < e.len else e.len ≠ 0), St.RANGE, rangeAt 0 32), d.fabNotAlone]
  match firstFail pre with
  | some (st, det) => .fail st det
  | none =>
    if refused then .done (d.count Reg.FAB_OP_REFUSED) d.fab.state
    else
      admChecks [(decide (d.fab.state = 1 ∨ d.fab.restart.isSome), St.STATE, 1),
          (old.elim false (fun x => decide (x.op ≠ op ∧ x.op ≠ 0) || x.cmd.isSome), St.DENIED, 1),
          (old.isNone && decide (16 ≤ d.fab.ops.length), St.NOSPACE, 0), if op = 2 then e.bufCheck else (false, 0, 0)] fun _ =>
        let x : FabRun := { old.getD { op := op, id := id } with op := op, cmd := some e, entered := decide (op = 1) }
        let d := (d.setFab { d.fab with dead := d.fab.dead.filter (· ≠ id) }).setRun x
        if op = 1 then .wait (d.opCheck id)
        else
          let payload := if op = 2 then fitTo e.len e.buf else if op = 3 then leBytes 1 (fld e.d4 2 0) else []
          if d.isRoot then .wait (d.bcastHere op id payload)
          else .wait (d.fabUp 0x12 id (beBytes 1 op ++ [0, 0, 0] ++ payload))

/-- R431: in DECIDING and SEQUESTERED the command is refused with STATE and counted. -/
def Dev.fabOpRun (d : Dev) (e : AdmEntry) : Dev :=
  if !d.ctlRuns then d
  else
  match fabOp e d with
  | .done d' det _ _ => d'.admComplete e 0x70 St.STATE det 0
  | .fail st det => d.admComplete e 0x70 st det 0
  | .wait d' =>
    -- the command was taken before the operation began, so that it may complete within it
    let reg : Dev := if d.ring.taken.any (fun a => decide (a.e = e)) then d
      else { d with ring := { d.ring with taken := d.ring.taken ++ [{ e := e, priv := d.privNow e.pf }] } }
    match fabOp e reg with
    | .wait d'' => d''
    | _ => d'

/-- FAB_OP_TIMEOUT (R425). -/
def Dev.opTimeout (d : Dev) (id : Nat) : Dev :=
  match d.fabRun? id with
  | none => d
  | some x =>
    match x.cmd with
    | none => d
    | some e => ((d.setFab { d.fab with dead := d.fab.dead ++ [id] }).delRun id).admLate e 0x70 St.TIMEOUT 0x40 0

/-- A fabric reset ends here once no tenancy is resetting and no core is starting; the initiator's FAB_OP completes (R428). -/
def Dev.fabTick (d : Dev) : Dev :=
  let d := if d.fab.ops.isEmpty then d.holdExpire else d
  match d.fab.restart with
  | none => d
  | some (_, cmd) =>
    if d.ten.tens.any (fun (t : Nat × Ten) => decide (t.2.st = 5)) || d.cpu.cores.any (fun (c : Nat × Core) => c.2.starting.isSome) then d
    else
      let d := (d.setFab { d.fab with restart := none }).joinSelf
      cmd.elim d (fun e => d.admLate e 0x70 0 0 0)

/-! The other commands (R434). -/

/-- FAB_ROUTE_SET. -/
def fabRouteSet (e : AdmEntry) (d : Dev) : AdmRes :=
  let lv := fld e.d2 1 0
  let i := fld e.d2 39 32
  let l := fitTo 64 e.buf
  admChecks [d.notPriv e, (decide (lv = 3), St.RANGE, rangeAt 2 0), (decide (routeCount lv ≤ i), St.RANGE, rangeAt 2 32),
      (decide (e.len ≠ 64), St.RANGE, rangeAt 0 32), e.bufCheck, (lineLearned l, St.RANGE, blkAt 0 + 4), d.fabNotAlone,
      (lineAdv l && decide (3 ≤ d.fab.state), St.STATE, 4)] fun _ =>
    .wait (d.tuePost [{ op := 0x10, table := 7, index := d.routeBase + 64 * routeIndex lv i, payload := l, poster := .adm e 0x71 0 0 true }])

/-- FAB_ROUTE_READ. -/
def fabRouteRead (e : AdmEntry) (d : Dev) : AdmRes :=
  let lv := fld e.d2 1 0
  let i := fld e.d2 39 32
  let l := d.routeLine lv i
  let up := packNat ((lineHops l).zipIdx.map (fun (h : (Nat × Nat) × Nat) => (b2n (d.hopUp h.1), h.2)))
  admChecks [d.notPriv e, (decide (lv = 3), St.RANGE, rangeAt 2 0), (decide (routeCount lv ≤ i), St.RANGE, rangeAt 2 32),
      (decide (e.len ≠ 64), St.RANGE, rangeAt 0 32)] fun _ =>
    .done d 0 64 (patch l 7 (leBytes 1 up))

/-- FAB_NBR_SET. -/
def fabNbrSet (e : AdmEntry) (d : Dev) : AdmRes :=
  admChecks [d.notPriv e, (decide (e.len ≠ 0), St.RANGE, rangeAt 0 32)] fun _ =>
    .done (d.setNbr (fld e.d2 5 0) { v := bitOf e.d3 32, addr := fld e.d3 19 0, action := fld e.d4 16 0 })

/-- FAB_MEMBERS_READ: entries from the first one asked for, as many as there are and as fit. -/
def fabMembersRead (e : AdmEntry) (d : Dev) : AdmRes :=
  let ms := (d.fab.members.drop (fld e.d2 47 32)).take (e.len / 24)
  admChecks [d.notPriv e, (decide (e.len % 24 ≠ 0), St.RANGE, rangeAt 0 32)] fun _ =>
    .done d 0 (24 * ms.length) (ms.flatMap (fun (m : FabMember) => leBytes 4 m.addr ++ leBytes 4 m.st ++ beBytes 16 m.uid))

/-- FAB_BCAST_READ. -/
def fabBcastRead (e : AdmEntry) (d : Dev) : AdmRes :=
  let b := d.fab.bcasts.find? (fun x => decide (x.1 = fld e.d2 47 32))
  let n := (b.elim [] (·.2)).length
  admChecks [d.notPriv e, (b.isNone, St.RANGE, rangeAt 2 32), (decide (e.len < n), St.RANGE, rangeAt 0 32), d.fabNotAlone] fun _ =>
    .done d 0 n (b.elim [] (·.2))

/-- FAB_SNAP_READ. -/
def fabSnapRead (e : AdmEntry) (d : Dev) : AdmRes :=
  let b := d.fab.snaps.find? (fun x => decide (x.1 = fld e.d2 47 32))
  admChecks [d.notPriv e, (b.isNone, St.RANGE, rangeAt 2 32), (decide (e.len ≠ 64), St.RANGE, rangeAt 0 32), d.fabNotAlone] fun _ =>
    .done d 0 64 (b.elim [] (·.2))

/-- WAKE_RX (R517): a WAKE whose target is this device, in Quiet. -/
def Dev.wakeRx (d : Dev) (m : List Byte) : Dev := if beAt (msgBody m) 0 16 = d.fabUid then d.wakeFrom 2 else d

/-- PEER_BEACON_LOSS (R412, R444, R447): with the DIGESTs lost too, a hot-hot twin goes on alone. -/
def Dev.beaconLoss (d : Dev) (uid : Nat) : Dev :=
  if !d.fab.peers.any (fun p => decide (p.uid = uid)) then d
  else
    let d := d.peerLoss uid
    let t := d.twin
    if t.mode = 1 ∧ 2 ≤ t.role ∧ t.peerLost ∧ t.peerUid = uid ∧ t.peer / 16 = d.fabA / 16 then d.twinEvent { type := 0x172 } else d

/-- A message of the fabric, by its type. -/
def Dev.fabMessage (d : Dev) (m : List Byte) : Dev :=
  match msgType m with
  | 1 => d.beaconRx m
  | 2 => d.assignRx m
  | 3 => d.heartbeatRx m
  | 4 => d.helloRx m
  | 5 => d.routeRx m
  | 6 => d.joinRx m
  | 7 => d.epochRx m none
  | 8 => d.leaveRx m
  | 0x10 => d.upRx m
  | 0x11 => d.downRx m
  | 0x12 => d.bcastRx m
  | 0x13 => d.countRx m
  | 0x30 => d.wakeRx m
  | _ => d.twinMessage m

/-- A message from either bus: the checks of R417 and R418, then its effect. -/
def Dev.fabRx (d : Dev) (bus : Bool) (m : List Byte) : Dev :=
  match d.fabTake bus m with
  | (true, d) => d.fabMessage m
  | (false, d) => d

/-! The command rows. -/

def execFabCfgWrite (pf : Nat) (value : Word) (s : State) := s.run (·.fabCfg pf value)
def execBeaconSend (s : State) := s.runAon (·.beaconSend)
def execBeaconRx (msg : List Byte) (s : State) := s.runAon (fun d => d.fabArrive true 1 msg (·.beaconRx msg))
def execCoordinatorElection (s : State) := s.run (·.election)
def execAssignSend (s : State) := s.run (·.assignSend)
def execAssignRx (msg : List Byte) (s : State) := s.run (fun d => d.fabArrive true 2 msg (·.assignRx msg))
def execHeartbeatSend (s : State) := s.run (·.heartbeatSend)
def execHeartbeatRx (msg : List Byte) (s : State) := s.run (fun d => d.fabArrive false 3 msg (·.heartbeatRx msg))
def execHeartbeatLoss (addr : Nat) (s : State) := s.run (·.heartbeatLoss addr)
def execHelloSend (s : State) := s.run (·.helloSend)
def execHelloRx (msg : List Byte) (s : State) := s.run (fun d => d.fabArrive false 4 msg (·.helloRx msg))
def execNeighbourDown (slot : Nat) (s : State) := s.run (·.nbrDown slot)
def execRouteAdvertise (s : State) := s.run (·.routeAdvertise)
def execRouteRx (msg : List Byte) (s : State) := s.run (fun d => d.fabArrive false 5 msg (·.routeRx msg))
def execJoinRx (msg : List Byte) (s : State) := s.run (fun d => d.fabArrive false 6 msg (·.joinRx msg))
def execJoinRetry (s : State) := s.run (·.joinRetry)
def execEpochRx (msg : List Byte) (granted : Option Nat) (s : State) := s.run (fun d => d.fabArrive false 7 msg (·.epochRx msg granted))
def execLeaveRx (msg : List Byte) (s : State) := s.run (fun d => d.fabArrive false 8 msg (·.leaveRx msg))
def execUpRx (msg : List Byte) (s : State) := s.run (fun d => d.fabArrive false 0x10 msg (·.upRx msg))
def execDownRx (msg : List Byte) (s : State) := s.run (fun d => d.fabArrive false 0x11 msg (·.downRx msg))
def execBcastRx (msg : List Byte) (s : State) := s.run (fun d => d.fabArrive false 0x12 msg (·.bcastRx msg))
def execCountRx (msg : List Byte) (s : State) := s.run (fun d => d.fabArrive false 0x13 msg (·.countRx msg))
def execWakeRx (msg : List Byte) (s : State) := s.runAon (fun d => d.fabArrive true 0x30 msg (·.wakeRx msg))
def execSequesterTimeout (s : State) := s.run (·.sequester)
def execFabOpBarrier (e : AdmEntry) (s : State) := s.run (·.fabOpRun e)
def execFabOpBroadcast (e : AdmEntry) (s : State) := s.run (·.fabOpRun e)
def execFabOpSnapshot (e : AdmEntry) (s : State) := s.run (·.fabOpRun e)
def execFabOpReset (e : AdmEntry) (s : State) := s.run (·.fabOpRun e)
def execSnapshotCut (opId : Nat) (s : State) := s.run (·.snapCut opId)
def execSnapshotEnd (opId : Nat) (s : State) := s.run (·.snapEnd opId)
def execFabOpTimeout (opId : Nat) (s : State) := s.run (·.opTimeout opId)
def execAddrHoldExpire (block : Nat) (s : State) := s.run (·.addrHoldExpire block)
def execFabRouteSet (e : AdmEntry) (s : State) := s.run (·.admRun e 0x71 (fabRouteSet e))
def execFabRouteRead (e : AdmEntry) (s : State) := s.run (·.admRun e 0x72 (fabRouteRead e))
def execFabNbrSet (e : AdmEntry) (s : State) := s.run (·.admRun e 0x73 (fabNbrSet e))
def execFabMembersRead (e : AdmEntry) (s : State) := s.run (·.admRun e 0x74 (fabMembersRead e))
def execFabBcastRead (e : AdmEntry) (s : State) := s.run (·.admRun e 0x75 (fabBcastRead e))
def execFabSnapRead (e : AdmEntry) (s : State) := s.run (·.admRun e 0x76 (fabSnapRead e))
def execPeerBeaconLoss (uid : Nat) (s : State) := s.run (·.beaconLoss uid)
def execMembershipHoldExpire (s : State) := s.run (·.holdExpire)

end Sys2Proof.Machine
end

