-- ==== Sys2Proof/Machine/Forward.lean ====
section
/-! DEFINITION. Forwarding: action lists and their words (R226 to R227, R240, R242, R243, R247 to R257). -/

namespace Sys2Proof.Machine

/-- What a word leads to: the next word, a jump to a list, or the frame has left. -/
inductive FStep where
  | next (d : Dev) (p : Packet) (f : Fwd)
  | jump (i : Nat) (d : Dev) (p : Packet) (f : Fwd)
  | done (d : Dev)

/-- Drop a frame, counted in a register. -/
def Dev.fwdDrop (d : Dev) (tok reg : Nat) : FStep := .done ((d.dropPkt tok).count reg)

/-- The fate of a frame whose lookup met a poisoned entry with the queue full (R15). -/
def Dev.fwdFate (d : Dev) (tok : Nat) (p : Packet) (fate : Nat) (k : Unit → FStep) : FStep :=
  if fate = 1 then .done (d.dropPkt tok)
  else if fate = 2 then .done ((d.setPkt tok p).toExcRing tok 0x21)
  else k ()

/-- Change a frame's bytes; a frame whose cells cannot be taken is dropped (R24). -/
def Dev.fwdData (d : Dev) (tok : Nat) (p : Packet) (data : List Byte) (k : Dev → Packet → FStep) : FStep :=
  match (d.setPkt tok p).resizePkt tok data with
  | none => .done (d.dropPkt tok)
  | some d' => k d' ((d'.pkt tok).getD p)

/-! Action entries (R256, R257). -/

/-- An action entry as its eight dwords; a poisoned one reads as not valid. -/
def Dev.action (d : Dev) (i : Nat) : List Dword :=
  let x := d.desc 3
  let a := x.base + 64 * i
  if !x.v ∨ 131072 ≤ i ∨ d.hbm.poisoned a 64 then List.replicate 8 0
  else (List.range 8).map (fun w => BitVec.ofNat 64 (leAt (d.hbm.bytes (a + 8 * w) 8) 0 8))

def actV (h : Dword) : Bool := bitOf h 63
def actTmpl (h : Dword) : Bool := bitOf h 62
def actDev (h : Dword) : Bool := bitOf h 61
def actOwner (h : Dword) : Nat := fld h 60 49

/-- R257: the entry is valid and DEV or owned by the frame's tenancy. -/
def Packet.mayUse (p : Packet) (h : Dword) : Bool := actV h && (actDev h || (p.tenV && decide (actOwner h = p.ten)))

/-! Destinations (R242, R243). -/

/-- Push a VLAN tag in front of the EtherType. -/
def Dev.pushVlan (d : Dev) (tok : Nat) (p : Packet) (tpid tci : Nat) (k : Dev → Packet → FStep) : FStep :=
  let o := (p.slot 1).getD 0 + 12
  let p := { p with cls := { p.cls with slots := shiftSlots p.cls.slots o 4 } }
  d.fwdData tok p (p.data.take o ++ beBytes 2 tpid ++ beBytes 2 tci ++ p.data.drop o) k

/-- Deliver to a port. A frame that encapsulation made longer than the port's MTU is dropped (R254). -/
def Dev.fwdOut (d : Dev) (tok : Nat) (p : Packet) (f : Fwd) (port : Nat) : FStep :=
  if f.encap ∧ d.regN (Reg.PORT_MTU port) < p.data.length + 4 then
    let exc := p.tenV && (kvFind p.ten d.fwd.tens).elim false (·.mtuExc)
    let d := if exc then
        match d.copyPkt tok p .arrived with
        | some (t, d') => d'.toExcRing t 0x20
        | none => d
      else d
    d.fwdDrop tok Reg.FWD_ENC_MTU_DROP
  else .done (d.toPort tok port p)

/-- Deliver to a DEST named in an entry with header h (R242, R257). -/
def Dev.fwdDest (d : Dev) (tok : Nat) (p : Packet) (f : Fwd) (h : Dword) (dest : Nat) : FStep :=
  match dest / 2 ^ 28 with
  | 1 =>
    let port := dest % 16
    if dest / 2 ^ 16 % 2 = 1 then d.pushVlan tok p 0x8100 (dest / 16 % 4096) (fun d p => d.fwdOut tok p f port)
    else d.fwdOut tok p f port
  | 2 =>
    if !actDev h ∧ dest / 512 % 4096 ≠ actOwner h then d.fwdDrop tok Reg.FWD_ACT_DENY
    else .done (d.toRing tok p dest f.mark f.decrypted)
  | 3 => .jump (dest % 131072) d p f
  | _ => d.fwdDrop tok Reg.FWD_ACT_DROP

/-- MIRROR (R243): a copy goes to DEST, unless it equals the IN_DEST of the flood in progress. -/
def Dev.fwdMirror (d : Dev) (tok : Nat) (p : Packet) (f : Fwd) (h : Dword) (dest : Nat) : FStep :=
  if f.inDest = some dest then .next d p f
  else if dest / 2 ^ 28 = 2 ∧ !actDev h ∧ dest / 512 % 4096 ≠ actOwner h then d.fwdDrop tok Reg.FWD_ACT_DENY
  else
    match d.copyPkt tok p .arrived with
    | none => .next d p f
    | some (t, d') =>
      let c := { (d'.pkt t).getD p with twin := none }
      match d'.fwdDest t c f h dest with
      | .done d'' => .next d'' p f
      | .jump i d'' c _ =>
        .next (d''.setPkt t { c with stage := .forward { idx := i, bytes := f.bytes, mark := f.mark, decrypted := f.decrypted } }) p f
      | .next d'' _ _ => .next d'' p f

/-! FLOW and TERM (R233, R249, R255). -/

/-- R233: the effects of a hit. -/
def Dev.flowHit (d : Dev) (p : Packet) (f : Fwd) (a : Nat) : FStep :=
  let l := d.line a
  let d5 := lnD5 l
  let d := d.hitLine a
  let c := d5 / 2 ^ 18 % 2 ^ 24
  let d := if d5 / 2 ^ 17 % 2 = 1 ∧ d.ctrOwned c (if p.tenV then some p.ten else none) then d.ctrAdd c f.bytes else d
  let f := if d5 / 2 ^ 42 % 2 = 1 then { f with mark := lnD6 l % 2 ^ 32 } else f
  .jump (d5 % 131072) d p f

/-- The FLOW action (R249). -/
def Dev.fwdFlow (d : Dev) (tok : Nat) (p : Packet) (f : Fwd) : FStep :=
  match (if p.tenV then kvFind p.ten d.fwd.tens else none) with
  | none => d.fwdDrop tok Reg.FWD_NO_TEN
  | some r =>
    match (if r.flowEn && !f.noFlow && (p.slot 3).isSome then p.flowKey r.inner else none) with
    | none => .jump r.miss d p f
    | some key =>
      let (fate, hit, d) := d.lookup 1 key
      d.fwdFate tok p fate fun _ =>
        match hit with
        | some a => d.flowHit p f a
        | none => .jump r.miss d p f

/-- The TERM action (R255). -/
def Dev.fwdTerm (d : Dev) (tok : Nat) (p : Packet) (f : Fwd) (miss : Nat) : FStep :=
  match p.termKey with
  | none => .jump miss d p f
  | some key =>
    let (fate, hit, d) := d.lookup 1 key
    d.fwdFate tok p fate fun _ =>
      match hit with
      | some a => d.flowHit p f a
      | none => .jump miss d p f

/-! BRIDGE (R240). -/

def Dev.fwdBridge (d : Dev) (tok : Nat) (p : Packet) (f : Fwd) (h : Dword) (bridge inDest : Nat) : FStep :=
  match (kvFind bridge d.fwd.bridges).filter (·.en) with
  | none => d.fwdDrop tok Reg.FWD_ACT_DROP
  | some b =>
    let o := (p.slot 1).getD 0
    let dst := beAt p.data o 6
    let src := beAt p.data (o + 6) 6
    let flood := fun (d : Dev) => FStep.jump b.flood d p { f with inDest := some inDest }
    -- learning
    let (fate, d) :=
      if b.learn ∧ src / 2 ^ 40 % 2 = 0 then
        let (fate, hit, d) := d.lookup 2 (macKey b.ten bridge src)
        match hit with
        | some a => if lnD5 (d.line a) % 2 ^ 32 = inDest then (fate, d.hitLine a) else (fate, d.learn bridge src inDest)
        | none => (fate, d.learn bridge src inDest)
      else (0, d)
    d.fwdFate tok p fate fun _ =>
      -- delivery
      if dst / 2 ^ 40 % 2 = 1 then flood d
      else
        let (fate, hit, d) := d.lookup 2 (macKey b.ten bridge dst)
        d.fwdFate tok p fate fun _ =>
          match hit with
          | some a => d.fwdDest tok p f (if lnD5 (d.line a) / 2 ^ 28 % 16 = 2 then BitVec.ofNat 64 (2 ^ 61) else h) (lnD5 (d.line a) % 2 ^ 32)
          | none => flood d

/-! Connection tracking (R247 to R251). -/

/-- TCP flags of a frame with a layer-4 header, if it is TCP: FIN, SYN, RST, ACK. -/
def Packet.tcpFlags (p : Packet) : Option (Bool × Bool × Bool × Bool) :=
  match p.slot 3, p.slot 4 with
  | some a, some b =>
    if ipProto p.data a = 6 then
      let x := beAt p.data (b + 13) 1
      some (decide (x % 2 = 1), decide (x / 2 % 2 = 1), decide (x / 4 % 2 = 1), decide (x / 16 % 2 = 1))
    else none
  | _, _ => none

def ctTcp (d5 : Nat) : Nat := d5 / 256 % 16
def ctReply (d5 : Nat) : Bool := decide (d5 / 2 ^ 13 % 2 = 1)
def ctSeen (d5 : Nat) : Bool := decide (d5 / 2 ^ 12 % 2 = 1)
def ctPeer (l : List Byte) : Nat := lnD6 l % 2 ^ 40 / 64 * 64

/-- A conntrack line with its shared state replaced. -/
def ctState (l : List Byte) (tcp cls : Nat) (seen : Bool) (ts : Nat) : List Byte :=
  let d5 := lnD5 l
  mkLine (lnKey l) (d5 / 2 ^ 14 * 2 ^ 14 + b2n (ctReply d5) * 2 ^ 13 + b2n seen * 2 ^ 12 + tcp * 256 + d5 % 256) (lnD6 l)
    (lnStatic l) cls ts

/-- R244, R251: a frame matched a line: both lines of the pair are refreshed and change state together. -/
def Dev.ctTouch (d : Dev) (p : Packet) (a : Nat) : Dev :=
  let l := d.line a
  let b := ctPeer l
  let d5 := lnD5 l
  let reply := ctReply d5
  let origKey := ofLe (lnKey (if reply then d.line b else l))
  let firstReply := reply && !ctSeen d5
  let st0 := ctTcp d5
  let st1 := if firstReply ∧ p.tcpFlags.isSome ∧ st0 ≠ 4 then 2 else st0
  let (st, fins) := match p.tcpFlags with
    | some (fin, _, rst, _) =>
      if rst then (4, kvDel origKey d.fwd.fins)
      else if fin ∧ st1 ≠ 4 then
        match kvFind origKey d.fwd.fins with
        | some r => if r = reply then (3, d.fwd.fins) else (4, kvDel origKey d.fwd.fins)
        | none => (3, kvPut origKey reply d.fwd.fins)
      else (st1, d.fwd.fins)
    | none => (st1, d.fwd.fins)
  let cls := if st = 4 then 2 else if firstReply ∧ p.tcpFlags.isSome then 1 else lnClass l
  let seen := ctSeen d5 || reply
  let d := { d with fwd := { d.fwd with fins := fins } }
  if st = st0 ∧ seen = ctSeen d5 ∧ cls = lnClass l then
    let d := d.hitLine a
    if lnV (d.line b) then d.hitLine b else d
  else
    let d := d.putLine 6 a (ctState l st cls seen d.fwd.now)
    if lnV (d.line b) then d.putLine 6 b (ctState (d.line b) st cls seen d.fwd.now) else d

/-- The frame as it stood before the NAT the list has chosen. -/
def Packet.unNat (p : Packet) (f : Fwd) : Packet :=
  match f.nat with
  | some n => p.nat n.dst n.oldAddr n.oldPort
  | none => p

/-- The two lines of a commit (R247, R251): original and reply, PEER to be filled in. -/
def Packet.ctLines (p : Packet) (f : Fwd) (zone now : Nat) : Option (List Byte × List Byte) :=
  match (p.unNat f).ctKey zone, p.ctKey zone with
  | some ko, some kr =>
    let tcp := p.tcpFlags.isSome
    let st := if tcp then 1 else 0
    let cls := if tcp then 0 else 3
    let d5 := fun (op addr port dir : Nat) => packNat [(addr, 32), (port, 16), (op, 14), (dir, 13), (st, 8)]
    match f.nat with
    | some n =>
      let op := if n.dst then 2 else 1
      some (mkLine ko (d5 op n.addr n.port 0) 0 false cls now, mkLine (reverseKey kr) (d5 (3 - op) n.oldAddr n.oldPort 1) 0 false cls now)
    | none => some (mkLine ko (d5 0 0 0 0) 0 false cls now, mkLine (reverseKey kr) (d5 0 0 0 1) 0 false cls now)
  | _, _ => none

/-- The CT action (R247). -/
def Dev.fwdCt (d : Dev) (tok : Nat) (p : Packet) (f : Fwd) (param : Nat) : FStep :=
  let zone := param % 256
  let commit := decide (param / 256 % 2 = 1)
  let strict := decide (param / 512 % 2 = 1)
  let est := param / 2 ^ 10 % 131072
  let new := param / 2 ^ 27 % 131072
  let f := { f with zone := zone }
  match p.ctKey zone with
  | none => d.fwdDrop tok Reg.FWD_CT_INVALID
  | some key =>
    if commit then
      match p.ctLines f zone d.fwd.now with
      | none => d.fwdDrop tok Reg.FWD_CT_INVALID
      | some (o, r) =>
        -- the insert is posted; the frame goes on when its outcome is known (DEDUCED, log 20)
        let d := { d with fwd := { d.fwd with commits := d.fwd.commits ++ [({ tok := tok, orig := o, reply := r } : Commit)] } }
        .done (d.setPkt tok { p with stage := .forward { f with waits := true } })
    else
      let (fate, hit, d) := d.lookup 6 key
      d.fwdFate tok p fate fun _ =>
        match hit, p.tcpFlags with
        | some a, fl =>
          let syn := fl.elim false (fun x => x.2.1 && !x.2.2.2)
          if ctTcp (lnD5 (d.line a)) = 4 ∧ syn then .jump new d p f
          else
            let d5 := lnD5 (d.line a)
            .jump est (d.ctTouch p a) (p.natOf d5) f
        | none, some (_, syn, _, ack) =>
          if strict ∧ (!syn ∨ ack) then d.fwdDrop tok Reg.FWD_CT_INVALID else .jump new d p f
        | none, none => .jump new d p f

/-- The NAT action (R250): the reply key must be free in the zone of the list's last CT word (log 20). -/
def Dev.fwdNat (d : Dev) (tok : Nat) (p : Packet) (f : Fwd) (pool : Nat) (dst : Bool) : FStep :=
  match p.slot 3, p.slot 4 with
  | some a, some b =>
    let proto := ipProto p.data a
    if ipVer p.data a ≠ 4 ∨ ¬ (proto = 6 ∨ proto = 17) then d.fwdDrop tok Reg.FWD_NAT_PROTO
    else
      match (kvFind pool d.fwd.pools).filter (fun x => x.v && p.tenV && decide (x.ten = p.ten)) with
      | none => d.fwdDrop tok Reg.FWD_NAT_EXHAUST
      | some x =>
        let span := x.portHi - x.portLo + 1
        let addr := x.addrLo + p.cls.hash % (x.addrHi - x.addrLo + 1)
        let p0 := p.cls.hash / 65536 % span
        let old := fun (o : Nat) (n : Nat) => beAt p.data o n
        let oa := if dst then old (a + 16) 4 else old (a + 12) 4
        let op := if dst then old (b + 2) 2 else old b 2
        let free := fun i =>
          let q := p.nat dst addr (x.portLo + (p0 + i) % span)
          (q.ctKey f.zone).elim false (fun k => (d.find 6 (reverseKey k)).isNone)
        match (List.range 8).find? free with
        | none => d.fwdDrop tok Reg.FWD_NAT_EXHAUST
        | some i =>
          let port := x.portLo + (p0 + i) % span
          .next d (p.nat dst addr port) { f with nat := some { dst := dst, addr := addr, port := port, oldAddr := oa, oldPort := op } }
  | _, _ => d.fwdDrop tok Reg.FWD_NAT_PROTO

/-! Tunnels (R252 to R255). -/

/-- The ENCAP action: the template of two entries (R252). -/
def Dev.fwdEncap (d : Dev) (tok : Nat) (p : Packet) (f : Fwd) (i : Nat) : FStep :=
  let e := d.action i
  let e2 := d.action (i + 1)
  let tmpl := (e.drop 1 ++ e2).flatMap (fun w => leBytes 8 w.toNat)
  let h := leAt tmpl 0 1
  let ty := leAt tmpl 1 1
  if !p.mayUse (e.headD 0) ∨ !actTmpl (e.headD 0) ∨ h < 14 ∨ 108 < h then d.fwdDrop tok Reg.FWD_ACT_DENY
  else
    let cut := if ty = 4 ∨ ty = 5 then (p.slot 3).getD 14 else 0
    let inner := p.data.drop cut
    let l3 := (p.slot 3).map (· - cut)
    let data := outerHeaders tmpl inner l3 inner p.cls.hash
    let ip := (Net.l2 data).2
    let u := ip + ipHlen data ip
    let mv := fun (s : Option Nat) => s.bind (fun o => if o < cut then none else some (o - cut + h))
    let udp := decide (ipProto data ip = 17)
    let slots := [some 0, none, some ip, if udp then some u else none, some (if udp then u + 8 else u),
      mv (p.slot 1), mv (p.slot 3), mv (p.slot 4)]
    d.fwdData tok p data fun d p => .next d { p with cls := { p.cls with slots := slots } } { f with encap := true }

/-- R255: parse inner headers with the active graph from the re-entry start node; none: a parse that would go
to the slow path. -/
def Dev.innerSlots (d : Dev) (data : List Byte) : Option (List (Option Nat)) :=
  match d.cls.banks.getD d.cls.active none with
  | none => none
  | some img =>
    match walk img data 24 (leAt img 8 1) {} with
    | .parsed _ w => some w.slots
    | .slow _ _ => none

/-- The DECAP action. A frame without a tunnel header counts as bad (DESIGN CHOICE, log 21). -/
def Dev.fwdDecap (d : Dev) (tok : Nat) (p : Packet) (f : Fwd) : FStep :=
  match (p.slot 3).bind (fun o => (tunnelOf p.data o).map (fun t => (o, t))) with
  | none => d.fwdDrop tok Reg.FWD_DECAP_BAD
  | some (l3, ty, _, stop) =>
    let bare := decide (ty = 4 ∨ ty = 5)
    let inner := if bare then some stop else p.slot 7
    if decapBad p.data l3 ty inner then d.fwdDrop tok Reg.FWD_DECAP_BAD
    else
      let data := if ecnOf p.data l3 = 3 then
          match inner with
          | some i => setTos p.data i (4 * dscpOf p.data i + 3)
          | none => p.data
        else p.data
      let data := data.drop stop
      let mv := fun (s : Option Nat) => s.bind (fun o => if o < stop then none else some (o - stop))
      let parsed := if bare then d.innerSlots data else none
      let slots := if bare then parsed.getD (List.replicate 8 none)
        else [mv (p.slot 6), none, mv (p.slot 7), mv (p.slot 8), none, none, none, none]
      d.fwdData tok p data fun d p =>
        .next d { p with cls := { p.cls with slots := slots } } { f with noFlow := f.noFlow || (bare && parsed.isNone) }

/-! The words (R256). -/

/-- DEC_TTL (R257); a frame without an IP header is left alone (log 21). -/
def Dev.fwdTtl (d : Dev) (tok : Nat) (p : Packet) (f : Fwd) (param : Nat) : FStep :=
  match p.slot 3 with
  | none => .next d p f
  | some o =>
    let v4 := decide (ipVer p.data o = 4)
    let at_ := if v4 then o + 8 else o + 7
    let ttl := beAt p.data at_ 1
    if ttl ≤ 1 then
      if param / 2 ^ 17 % 2 = 1 then .jump (param % 131072) d p f else d.fwdDrop tok Reg.FWD_TTL_DROP
    else
      let data := if v4 then patchIp4 p.data o 8 (leBytes 1 (ttl - 1) ++ slice p.data (o + 9) 1)
        else patch p.data at_ (leBytes 1 (ttl - 1))
      .next d { p with data := data } f

/-- VLAN: push a tag, or pop the outermost if there is one. -/
def Dev.fwdVlan (d : Dev) (tok : Nat) (p : Packet) (f : Fwd) (param : Nat) : FStep :=
  if param % 2 = 0 then
    d.pushVlan tok p (if param / 2 % 2 = 1 then 0x88A8 else 0x8100) (param / 2 ^ 16 % 8 * 8192 + param / 16 % 4096)
      fun d p => .next d p f
  else if !isVlan p.data then .next d p f
  else
    let o := (p.slot 1).getD 0 + 12
    let p' := { p with cls := { p.cls with slots := shiftSlots p.cls.slots (o + 4) (-4) } }
    d.fwdData tok p' (p.data.take o ++ p.data.drop (o + 4)) fun d p => .next d p f

/-- The CRYPT action (R284): the frame waits for a bulk AEAD engine. -/
def Dev.fwdCrypt (d : Dev) (tok : Nat) (p : Packet) (f : Fwd) (param : Nat) : FStep :=
  let c := param % 2 ^ 20
  let enc := decide (param / 2 ^ 20 % 2 = 1)
  let ok := (kvFind c d.cry.ctxs).elim false (fun x => p.tenV && decide (x.ten = p.ten) &&
    (if enc then decide (x.kind = 0x10) else decide (x.kind = 0x11 ∨ x.kind = 0x13 ∨ x.kind = 0x15)))
  if !ok then d.fwdDrop tok Reg.FWD_ACT_DENY else .done (d.setPkt tok { p with stage := .crypt c enc f })

/-- COUNT (R258). -/
def Dev.fwdCount (d : Dev) (tok : Nat) (p : Packet) (f : Fwd) (n : Nat) : FStep :=
  if d.ctrOwned n (if p.tenV then some p.ten else none) then .next (d.ctrAdd n f.bytes) p f
  else d.fwdDrop tok Reg.FWD_ACT_DENY

/-- SET_TEN: only in DEV entries. -/
def Dev.fwdSetTen (d : Dev) (tok : Nat) (p : Packet) (f : Fwd) (h : Dword) (t : Nat) : FStep :=
  if !actDev h then d.fwdDrop tok Reg.FWD_ACT_DENY
  else .next d { p with tenV := true, ten := t, gen := (d.tenGet t).gen, clsOpen := d.shutOpen t } f

/-- RECIRC: while the re-entry queue is full the frame waits at the word. -/
def Dev.fwdRecirc (d : Dev) (tok : Nat) (p : Packet) (f : Fwd) : FStep :=
  match (d.setPkt tok p).toReentry tok with
  | some d' => .done d'
  | none => .done (d.setPkt tok { p with stage := .forward { f with word := f.word - 1, run := f.run - 1 } })

/-- One action word in an entry with header h. A reserved code drops the frame as FWD_ACT_DENY (log 21). -/
def Dev.fwdWord (d : Dev) (tok : Nat) (p : Packet) (f : Fwd) (h w : Dword) : FStep :=
  let x := fld w 55 0
  match fld w 63 56 with
  | 0x00 => .next d p f
  | 0x01 => d.fwdOut tok (if x / 2 ^ 11 % 2 = 1 then { p with tc := x / 256 % 8 } else p) f (x % 16)
  | 0x02 => if x / 2 ^ 28 % 16 = 2 then d.fwdDest tok p f h (x % 2 ^ 32) else d.fwdDrop tok Reg.FWD_ACT_DENY
  | 0x03 => .done (d.setPkt tok { p with stage := .handler (x % 65536), cls := { p.cls with hv := true, handler := x % 65536 } })
  | 0x04 => d.fwdDrop tok Reg.FWD_ACT_DROP
  | 0x05 => d.fwdBridge tok p f h (x / 2 ^ 32 % 16384) (x % 2 ^ 32)
  | 0x06 => d.fwdFlow tok p f
  | 0x07 => d.fwdTerm tok p f (x % 131072)
  | 0x08 => .jump (x % 131072) d p f
  | 0x09 => d.fwdCt tok p f x
  | 0x0A => d.fwdRecirc tok p f
  | 0x10 => .next d { p with data := patch p.data ((p.slot 1).getD 0 + (if x / 2 ^ 48 % 2 = 1 then 6 else 0)) (beBytes 6 (x % 2 ^ 48)) } f
  | 0x11 => d.fwdVlan tok p f x
  | 0x12 => d.fwdTtl tok p f x
  | 0x13 => .next d { p with tc := x % 8 } f
  | 0x14 => .next d p { f with mark := x % 2 ^ 32 }
  | 0x15 => d.fwdSetTen tok p f h (x % 4096)
  | 0x16 => d.fwdCount tok p f (x % 2 ^ 24)
  | 0x17 => d.fwdMirror tok p f h (x % 2 ^ 32)
  | 0x18 => d.fwdEncap tok p f (x % 131072)
  | 0x19 => d.fwdDecap tok p f
  | 0x1A => d.fwdNat tok p f (x % 4096) (decide (x / 4096 % 2 = 1))
  | 0x1B => d.fwdCrypt tok p f x
  | 0x1C =>
    match d.twinWord tok p x f.bytes with
    | (some p, d) => .next d p f
    | (none, d) => .done d
  | _ => d.fwdDrop tok Reg.FWD_ACT_DENY

/-- R31: a poisoned action entry goes to the forwarding exception queue. -/
def Dev.actionPoison (d : Dev) (i : Nat) : Nat × Dev :=
  let a := (d.desc 3).base + 64 * i
  if (d.desc 3).v ∧ d.hbm.poisoned a 64 then d.fwdExc { reason := 0, info := leBytes 8 i ++ leBytes 8 a } else (0, d)

/-- R257: run a list. The fuel bounds the entries a frame passes; a frame that passes more without a word is
dropped as too long (log 21). -/
def Dev.fwdRun (d : Dev) (tok : Nat) (p : Packet) (f : Fwd) : Nat → Dev
  | 0 => (d.dropPkt tok).count Reg.FWD_ACT_LONG
  | fuel + 1 =>
    let (fate, d) := d.actionPoison f.idx
    if fate = 1 then d.dropPkt tok
    else if fate = 2 then (d.setPkt tok p).toExcRing tok 0x21
    else
      let e := d.action f.idx
      let h := e.headD 0
      if !p.mayUse h then (d.dropPkt tok).count Reg.FWD_ACT_DENY
      else if f.word < fld h 2 0 then
        if f.run = 32 then (d.dropPkt tok).count Reg.FWD_ACT_LONG
        else
          match d.fwdWord tok p { f with word := f.word + 1, run := f.run + 1 } h (e.getD (f.word + 1) 0) with
          | .next d p f => d.fwdRun tok p f fuel
          | .jump i d p f => d.fwdRun tok p { f with idx := i, word := 0 } fuel
          | .done d => d
      else if bitOf h 48 then d.fwdRun tok p { f with idx := fld h 47 31, word := 0 } fuel
      else (d.dropPkt tok).count Reg.FWD_NO_FATE

/-- FORWARD_FRAME (R226): a frame enters forwarding, or goes on where it waited. -/
def Dev.forward (d : Dev) (tok : Nat) (ecc : Ecc) : Dev :=
  if d.pwr.stopP then d
  else
    match d.pkt tok with
    | none => d
    | some p =>
      match p.stage with
      | .classified =>
        let d := d.applyEcc ecc
        let f : Fwd := { bytes := p.data.length }
        if p.cls.av then d.fwdRun tok p { f with idx := p.cls.action } 512
        else if p.tenV then
          match d.fwdFlow tok p f with
          | .jump i d p f => d.fwdRun tok p { f with idx := i } 512
          | .next d _ _ => d
          | .done d => d
        else (d.dropPkt tok).count Reg.FWD_NO_TEN
      | .forward f => if f.waits then d else (d.applyEcc ecc).fwdRun tok p f 512
      | _ => d

/-! Conntrack commits (R247, R248). -/

/-- The frame that waited for its commit goes on, or is dropped when the commit failed with a NAT pending. -/
def Dev.commitDone (d : Dev) (tok : Nat) (ok : Bool) (rewrite : Option Nat) : Dev :=
  match d.pkt tok with
  | none => d
  | some p =>
    match p.stage with
    | .forward f =>
      if !f.waits then d
      else if !ok ∧ f.nat.isSome then d.dropPkt tok
      else
        let p := match rewrite with
          | some d5 => (p.unNat f).natOf d5
          | none => p
        d.setPkt tok { p with stage := .forward { f with waits := false, nat := if ok then none else f.nat } }
    | _ => d

/-- Insert a pair, the reply line first (R247); none: a bucket was full. -/
def Dev.insertPair (d : Dev) (c : Commit) : Bool × Dev :=
  let x := d.desc 6
  let peer := fun (l : List Byte) (a : Nat) => patch l 48 (leBytes 8 a)
  if (d.find 6 (lnKey c.reply)).isSome then (false, d.insFail 6)
  else
    match d.freeSlot x (lnKey c.reply) with
    | none => (false, d.insFail 6)
    | some r =>
      match (x.places (lnKey c.orig)).find? (fun a => !lnV (d.line a) && decide (a ≠ r)) with
      | none =>
        -- the reply line was inserted and is deleted again
        (false, ((d.casLine 6 r c.reply).putLine 6 r zeroLine).insFail 6)
      | some o => (true, (d.casLine 6 r (peer c.reply o)).casLine 6 o (peer c.orig r))

/-- R248: a commit on a CLOSED pair replaces both lines. -/
def Dev.replacePair (d : Dev) (c : Commit) (a : Nat) : Bool × Dev :=
  let b := ctPeer (d.line a)
  let peer := fun (l : List Byte) (x : Nat) => patch l 48 (leBytes 8 x)
  if lnV (d.line b) ∧ lnKey (d.line b) = lnKey c.reply then
    (true, (d.putLine 6 b (peer c.reply a)).putLine 6 a (peer c.orig b))
  else
    let d := if lnV (d.line b) then d.putLine 6 b zeroLine else d
    (d.putLine 6 a zeroLine).insertPair c

/-- CT_COMMIT_INSERT. -/
def Dev.ctCommit (d : Dev) : Dev :=
  match d.fwd.commits with
  | [] => d
  | c :: r =>
    let d := { d with fwd := { d.fwd with commits := r } }
    if !(d.desc 6).v then d.commitDone c.tok false none
    else
      let fins := { d with fwd := { d.fwd with fins := kvDel (ofLe (lnKey c.orig)) d.fwd.fins } }
      match d.find 6 (lnKey c.orig) with
      | some a =>
        if ctTcp (lnD5 (d.line a)) = 4 then
          let (ok, d) := fins.replacePair c a
          d.commitDone c.tok ok none
        else d.commitDone c.tok true (some (lnD5 (d.line a)))
      | none =>
        let (ok, d) := fins.insertPair c
        d.commitDone c.tok ok none

/-! The commands of the data plane. -/

def execForwardFrame (tok : Nat) (ecc : Ecc) (s : State) := s.run (·.forward tok ecc)
def execLearnInsert (casFails : Nat) (s : State) := s.run (·.learnInsert casFails)
def execCtCommitInsert (s : State) := s.run (·.ctCommit)
def execAgeTick (s : State) := s.run (·.ageTick)
def execSweepVisit (k : Nat) (s : State) := s.run (·.sweepVisit k)

end Sys2Proof.Machine
end

