-- ==== Sys2Proof/Machine/FwdCmd.lean ====
section
/-! DEFINITION. The admin commands of forwarding (R234, R237 to R241, R256, R258 to R260). -/

namespace Sys2Proof.Machine

/-! Shared checks (R260). -/

/-- A command names a table whose V is 0. -/
def Dev.noTable (d : Dev) (table : Nat) : Bool × Nat × Nat := (!(d.desc table).v, St.STATE, 0)

/-- Post records for a command; the last brings its completion. With none the command is done. -/
def Dev.postAll (d : Dev) (e : AdmEntry) (opc : Nat) (rs : List TueRec) : AdmRes :=
  match rs.reverse with
  | [] => .done d
  | l :: r =>
    .wait (d.tuePost (r.reverse.map (fun x => { x with poster := .adm e opc 0 0 false }) ++ [{ l with poster := .adm e opc 0 0 true }]))

/-- R234, R239: insert a line into a table and, during a rebuild, into its shadow. -/
def Dev.postInsert (d : Dev) (e : AdmEntry) (opc table : Nat) (line : List Byte) (replace : Bool) : AdmRes :=
  let a := d.tueAhead
  let shadow := (d.fwd.rehash.find? (fun r => decide (r.table = table))).map (·.shadow)
  match a.insertPlan (a.desc table) line replace with
  | .exists_ => .fail St.DENIED 1
  | .noSpace => .fail St.NOSPACE 1
  | .writes p =>
    let rs := a.casRecords table .firmware p
    match shadow with
    | none => d.postAll e opc rs
    | some x =>
      match a.insertPlan x line true with
      | .writes q => d.postAll e opc (rs ++ a.casRecords table .firmware q)
      | _ => .fail St.NOSPACE 1

/-- R234, R236: a plan that found no path raises the rehash request. -/
def Dev.noPath (d : Dev) (table : Nat) (r : AdmRes) : Dev :=
  match r with
  | .fail st _ => if st = St.NOSPACE then d.insFail table else d
  | _ => d

/-- Bytes of a descriptor, checked (R229): DETAIL of the first field outside its range, counted in the block. -/
def descBad (table : Nat) (b : List Byte) : Option Nat :=
  let x := TblDesc.ofBytes b
  let lg := match table with
    | 1 => decide (10 ≤ x.log2b ∧ x.log2b ≤ 25)
    | 2 => decide (10 ≤ x.log2b ∧ x.log2b ≤ 18)
    | 6 => decide (10 ≤ x.log2b ∧ x.log2b ≤ 23)
    | 4 => decide (10 ≤ x.log2b ∧ x.log2b ≤ 24)
    | _ => true
  if x.base % 256 ≠ 0 ∨ hbmReserved ≤ x.base then some 0
  else if !lg then some 64
  else if hbmReserved < x.base + x.extent table then some 0
  else if 1 < leAt b 9 1 then some 73
  else if leAt b 10 2 ≠ 0 then some 80
  else if leAt b 20 4 ≠ 0 then some 160
  else if slice b 32 32 ≠ List.replicate 32 0#8 then some 256
  else none

/-! The commands. -/

/-- FWD_TBL_CFG (R229, R239). -/
def fwdTblCfg (e : AdmEntry) (d : Dev) : AdmRes :=
  let t := fld e.d2 7 0
  let b := fitTo 64 e.buf
  admChecks [d.notPriv e,
      (!decide (t = 1 ∨ t = 2 ∨ t = 3 ∨ t = 4 ∨ t = 6), St.RANGE, rangeAt 2 0),
      (decide (e.len ≠ 64), St.RANGE, rangeAt 0 32), e.bufCheck,
      ((descBad t b).isSome, St.RANGE, (descBad t b).getD 0),
      ((d.tueAhead.desc t).v, St.STATE, 1)] fun _ =>
    d.postAll e 0x38 [{ op := 0x30, table := t, payload := b }]

/-- FWD_REHASH (R238, R239): the shadow is built. -/
def fwdRehash (e : AdmEntry) (d : Dev) : AdmRes :=
  let t := fld e.d2 7 0
  let lg := fld e.d4 7 0
  let base := e.d3.toNat
  let old := d.desc t
  let top := if t = 1 then 25 else if t = 2 then 18 else 23
  admChecks [d.notPriv e,
      (!decide (t = 1 ∨ t = 2 ∨ t = 6), St.RANGE, rangeAt 2 0),
      (decide (base % 256 ≠ 0 ∨ hbmReserved < base + 2 ^ lg * 256), St.RANGE, rangeAt 3 0),
      (decide (lg < 10 ∨ top < lg), St.RANGE, rangeAt 4 0),
      d.noTable t,
      (d.fwd.rehash.any (fun r => decide (r.table = t)), St.STATE, 2),
      (decide (base < old.base + old.extent t ∧ old.base < base + 2 ^ lg * 256), St.RANGE, rangeAt 3 0)] fun _ =>
    let (s, d) := d.draw
    let x := { old with base := base, log2b := lg, seed1 := Config.freeNat s 0 % 2 ^ 32, seed2 := Config.freeNat s 1 % 2 ^ 32 }
    let d0 := d.hbmClear base (x.extent t)
    match d0.fillShadow x ((d.tblLines old).map d.line) with
    | none => .fail St.NOSPACE 1
    | some d1 =>
      .wait { d1 with fwd := { d1.fwd with rehash := d1.fwd.rehash ++ [{ table := t, e := e, shadow := x }] } }

/-- REHASH_DONE (R238): once the posted records before it have applied, the log is replayed, the tables are
swapped by one TBL_DESC record, every line is stamped, and the command completes; a shadow that cannot take
every line is discarded. -/
def Dev.rehashDone (d : Dev) (t : Nat) : Dev :=
  match d.fwd.rehash.find? (fun r => decide (r.table = t)) with
  | none => d
  | some r =>
    if !d.glb.tueQ.isEmpty then d
    else
      let rest := d.fwd.rehash.filter (fun x => decide (x.table ≠ t))
      let old := d.desc t
      match d.replay r.shadow r.log with
      | none => { d with fwd := { d.fwd with rehash := rest } }.admLate r.e 0x39 St.NOSPACE 1 0
      | some d' =>
        let d' := if t = 6 then d'.fixPeers old r.shadow else d'
        let (_, d') := { d' with fwd := { d'.fwd with rehash := rest } }.tuePosted { op := 0x30, table := t, payload := r.shadow.bytes }
        (d'.stampAll r.shadow).admLate r.e 0x39 0 0 0

/-- A flow key named in a command (R232, R260): its KTYPE belongs to the table; KTYPE 3 needs privilege to be
written; otherwise it must carry TEN. -/
def Dev.keyChecks (d : Dev) (e : AdmEntry) (table : Nat) (write : Bool) (b : List Byte) : List (Bool × Nat × Nat) :=
  let k := lnType b
  let fits := if table = 1 then decide (1 ≤ k ∧ k ≤ 3) else if table = 2 then decide (k = 4) else decide (k = 5 ∨ k = 6)
  [(!fits, St.RANGE, 12),
   (decide (k = 3) && write && !d.privOf e, St.DENIED, 3),
   (decide (lnTen b ≠ (if k = 3 then 0 else e.ten)), St.DENIED, 2)]

/-- FWD_FLOW_ADD. -/
def fwdFlowAdd (e : AdmEntry) (d : Dev) : AdmRes :=
  let b := fitTo 64 e.buf
  let d5 := lnD5 b
  let c := d5 / 2 ^ 18 % 2 ^ 24
  let owned := d.ctrV c && !d.ctrDev c && decide (d.ctrTen c = e.ten)
  let line := mkLine (lnKey b) d5 (lnD6 b) (lnStatic b) (lnClass b) d.fwd.now
  admChecks ([d.notOwner e e.ten, (decide (e.len ≠ 64), St.RANGE, rangeAt 0 32), d.noTable 1, e.bufCheck] ++
      d.keyChecks e 1 true b ++ [(decide (d5 / 2 ^ 17 % 2 = 1) && !owned, St.DENIED, 2)]) fun _ =>
    d.postInsert e 0x3A 1 line (bitOf e.d2 32)

/-- FWD_MAC_ADD. -/
def fwdMacAdd (e : AdmEntry) (d : Dev) : AdmRes :=
  let br := fld e.d2 45 32
  let dest := fld e.d4 31 0
  let b := kvFind br d.fwd.bridges
  admChecks [d.notOwner e e.ten, d.noTable 2, (b.isNone, St.STATE, 0),
      (b.elim false (fun x => decide (x.ten ≠ e.ten)), St.DENIED, 2),
      (decide (dest / 2 ^ 28 = 2 ∧ dest / 512 % 4096 ≠ e.ten) && !d.privOf e, St.DENIED, 3)] fun _ =>
    d.postInsert e 0x3E 2 (mkLine (macKey e.ten br (fld e.d3 47 0)) dest 0 (bitOf e.d4 32) 0 d.fwd.now) true

/-- Deleting lines: LINE_WRITE of zeros (R237), in the shadow too while the table is rebuilt. -/
def Dev.deleteRecords (d : Dev) (table : Nat) (key : List Byte) : List TueRec :=
  let a := d.tueAhead
  let one := fun (x : TblDesc) => ((a.findIn x key).map (fun i => ({ op := 0x10, table := table, index := i, payload := zeroLine } : TueRec))).toList
  one (a.desc table) ++ (d.fwd.rehash.filter (fun r => decide (r.table = table))).flatMap (fun r => one r.shadow)

/-- The checks FWD_FLOW_DEL and FWD_FLOW_READ share. -/
def Dev.flowPre (d : Dev) (e : AdmEntry) (len : Nat) (write : Bool) : List (Bool × Nat × Nat) :=
  let t := fld e.d2 39 32
  [d.notOwner e e.ten, (!decide (t = 1 ∨ t = 2 ∨ t = 6), St.RANGE, rangeAt 2 32), (decide (e.len ≠ len), St.RANGE, rangeAt 0 32),
   d.noTable t, e.bufCheck] ++ d.keyChecks e t write (fitTo 40 e.buf)

/-- FWD_FLOW_DEL. -/
def fwdFlowDel (e : AdmEntry) (d : Dev) : AdmRes :=
  let t := fld e.d2 39 32
  admChecks (d.flowPre e 40 true) fun _ =>
    match d.deleteRecords t (fitTo 40 e.buf) with
    | [] => .done d 1
    | rs => d.postAll e 0x3B rs

/-- FWD_FLOW_READ. -/
def fwdFlowRead (e : AdmEntry) (d : Dev) : AdmRes :=
  let t := fld e.d2 39 32
  admChecks (d.flowPre e 64 false) fun _ =>
    match d.tueAhead.find t (fitTo 40 e.buf) with
    | none => .done d 1
    | some a => .done d 0 64 (d.tueAhead.line a)

/-- FWD_BRIDGE_CFG (R240). -/
def fwdBridgeCfg (e : AdmEntry) (d : Dev) : AdmRes :=
  let br := fld e.d2 45 32
  let lim := fld e.d4 20 0
  let old := kvFind br d.fwd.bridges
  admChecks [d.notOwner e e.ten, (decide (lim = 0 ∨ 1048576 < lim), St.RANGE, rangeAt 4 0), d.noTable 2,
      (old.elim false (fun x => decide (x.ten ≠ e.ten)), St.DENIED, 1)] fun _ =>
    let b : Bridge := { ten := e.ten, en := bitOf e.d3 32, learn := bitOf e.d3 33, limit := lim, flood := fld e.d3 16 0,
                        evtAt := old.bind (·.evtAt) }
    .done { d with fwd := { d.fwd with bridges := kvPut br b d.fwd.bridges } }

/-- The owner of an action entry as it stands (R256): DEV or a tenancy; none: it is free. The second entry of a
template is its first's. -/
def Dev.actOwnerOf (d : Dev) (i : Nat) : Option (Option Nat) :=
  let own := fun (h : Dword) => if actDev h then none else some (actOwner h)
  let h := (d.action i).headD 0
  let prev := (d.action (i - 1)).headD 0
  if 0 < i ∧ actV prev ∧ actTmpl prev then some (own prev) else if actV h then some (own h) else none

/-- R260: an action word of an entry to be written that names what TEN may not name. -/
def Dev.actWordBad (d : Dev) (e : AdmEntry) (w : Dword) : Option Nat :=
  let dev := bitOf e.d2 12
  let code := fld w 63 56
  let c := fld w 23 0
  if code = 0x16 ∧ !dev ∧ !(d.ctrV c && !d.ctrDev c && decide (d.ctrTen c = e.ten)) then some 2
  else if (code = 0x02 ∨ code = 0x17) ∧ fld w 31 28 = 2 ∧ fld w 20 9 ≠ e.ten ∧ !d.privOf e then some 3
  else none

/-- FWD_ACT_WRITE: DEV and OWNER come from the command (DEDUCED, log 22). -/
def fwdActWrite (e : AdmEntry) (d : Dev) : AdmRes :=
  let dev := bitOf e.d2 12
  let i := fld e.d2 48 32
  let n := e.len / 64
  let me : Option Nat := if dev then none else some e.ten
  let a := d.tueAhead
  let base := (d.desc 3).base
  let raw := fun k => List.range k |>.any (fun j => decide (j + 1 = k) && bitOf (BitVec.ofNat 64 (leAt e.buf (64 * j) 8)) 62 &&
    bitOf (BitVec.ofNat 64 (leAt e.buf (64 * j) 8)) 63)
  let entry := fun k =>
    let b := slice e.buf (64 * k) 64
    if raw k then b
    else
      let h := leAt b 0 8
      patch b 0 (leBytes 8 (h / 2 ^ 62 * 2 ^ 62 + b2n dev * 2 ^ 61 + (if dev then 0 else e.ten) * 2 ^ 49 + h % 2 ^ 49))
  let words := fun k =>
    let h := BitVec.ofNat 64 (leAt e.buf (64 * k) 8)
    if raw k ∨ actTmpl h then [] else (List.range (fld h 2 0)).map (fun j => BitVec.ofNat 64 (leAt e.buf (64 * k + 8 + 8 * j) 8))
  let bad := ((List.range n).flatMap words).findSome? (d.actWordBad e)
  admChecks [((dev && !d.privOf e), St.DENIED, 3), d.notOwner e e.ten,
      (!decide (e.len = 64 ∨ e.len = 128), St.RANGE, rangeAt 0 32),
      (decide (131072 < i + n), St.RANGE, rangeAt 2 32), d.noTable 3, e.bufCheck,
      ((List.range n).any (fun k => (a.actOwnerOf (i + k)).elim false (fun o => decide (o ≠ me))), St.DENIED, 1),
      (bad.isSome, St.DENIED, bad.getD 0)] fun _ =>
    d.postAll e 0x3F ((List.range n).map (fun k => { op := 0x10, table := 3, index := base + 64 * (i + k), payload := entry k }))

/-- FWD_NAT_POOL (R250). -/
def fwdNatPool (e : AdmEntry) (d : Dev) : AdmRes :=
  let n := fld e.d2 43 32
  let x : NatPool := { ten := e.ten, addrLo := fld e.d3 31 0, addrHi := fld e.d3 63 32, portLo := fld e.d4 15 0,
                       portHi := fld e.d4 31 16, v := bitOf e.d4 32 }
  let old := (kvFind n d.fwd.pools).filter (·.v)
  admChecks [d.notOwner e e.ten, (decide (x.addrHi < x.addrLo), St.RANGE, rangeAt 3 32),
      (decide (x.portHi < x.portLo), St.RANGE, rangeAt 4 16), d.noTable 6,
      (old.elim false (fun o => decide (o.ten ≠ e.ten)), St.DENIED, 1)] fun _ =>
    .done { d with fwd := { d.fwd with pools := kvPut n x d.fwd.pools } }

/-- FWD_TEN_CFG (R249). -/
def fwdTenCfg (e : AdmEntry) (d : Dev) : AdmRes :=
  admChecks [d.notOwner e e.ten, d.noTable 1] fun _ =>
    let x : TenFwd := { miss := fld e.d3 16 0, inner := bitOf e.d3 17, flowEn := bitOf e.d3 18, mtuExc := bitOf e.d3 19 }
    .done { d with fwd := { d.fwd with tens := kvPut e.ten x d.fwd.tens } }

/-- FWD_CNT: the checks its operations share. -/
def Dev.cntPre (d : Dev) (e : AdmEntry) : List (Bool × Nat × Nat) :=
  let c := fld e.d2 55 32
  [((bitOf e.d2 12 && !d.privOf e), St.DENIED, 3), d.notOwner e e.ten,
   (decide ((d.desc 4).v = true ∧ 2 ^ (d.desc 4).log2b ≤ c), St.RANGE, rangeAt 2 32), d.noTable 4]

/-- The counter belongs to the command's tenancy, or is DEV and the command too. -/
def Dev.cntMine (d : Dev) (e : AdmEntry) : Bool :=
  let c := fld e.d2 55 32
  d.ctrV c && (if bitOf e.d2 12 then d.ctrDev c else !d.ctrDev c && decide (d.ctrTen c = e.ten))

/-- READ and READ_CLEAR. -/
def fwdCntRead (clear : Bool) (e : AdmEntry) (d : Dev) : AdmRes :=
  let a := d.ctrAddr (fld e.d2 55 32)
  admChecks (d.cntPre e ++ [(!d.tueAhead.cntMine e, St.DENIED, 2)]) fun _ =>
    .done (if clear then d.hbmWrite a (List.replicate 16 0#8) else d) 0 16 (d.hbm.bytes a 16)

/-- The record that writes bytes 16 and 17 of an entry; its neighbour keeps its own. -/
def Dev.cntRecord (d : Dev) (c w : Nat) : TueRec :=
  let a := d.ctrAddr c / 64 * 64
  { op := 0x10, table := 4, index := a
    payload := patch (d.line a) (d.ctrAddr c - a + 16) (fitTo 16 (leBytes 2 w)) }

/-- CLAIM: the values are cleared before the completion and before the record applies. -/
def fwdCntClaim (e : AdmEntry) (d : Dev) : AdmRes :=
  let c := fld e.d2 55 32
  let a := d.tueAhead
  let w := packNat [(1, 15), (b2n (bitOf e.d2 12), 12), (if bitOf e.d2 12 then 0 else e.ten, 0)]
  admChecks (d.cntPre e ++ [(a.ctrV c && !a.cntMine e, St.DENIED, 1)]) fun _ =>
    let d := d.hbmWrite (d.ctrAddr c) (List.replicate 16 0#8)
    d.postAll e 0x42 [a.cntRecord c w]

/-- RELEASE. -/
def fwdCntRelease (e : AdmEntry) (d : Dev) : AdmRes :=
  let a := d.tueAhead
  admChecks (d.cntPre e ++ [(!a.cntMine e, St.DENIED, 2)]) fun _ => d.postAll e 0x42 [a.cntRecord (fld e.d2 55 32) 0]

/-- FWD_FLUSH: every line of the tenancy in the tables named. -/
def fwdFlush (e : AdmEntry) (d : Dev) : AdmRes :=
  let m := fld e.d2 35 32
  let on := fun i => decide (m / 2 ^ i % 2 = 1)
  let a := d.tueAhead
  let pick := fun (table : Nat) (ok : List Byte → Bool) =>
    (((a.tblLines (a.desc table)).map a.line).filter (fun l => decide (lnTen l = e.ten ∧ lnType l ≠ 3) && ok l)).flatMap
      (fun l => d.deleteRecords table (lnKey l))
  admChecks ([d.notOwner e e.ten] ++ (if on 0 then [d.noTable 1] else []) ++ (if on 1 || on 2 then [d.noTable 2] else []) ++
      (if on 3 then [d.noTable 6] else [])) fun _ =>
    d.postAll e 0x43 ((if on 0 then pick 1 (fun _ => true) else []) ++
      pick 2 (fun l => if lnStatic l then on 2 else on 1) ++ (if on 3 then pick 6 (fun _ => true) else []))

/-! LINE_CAS: when one record of an insert fails, control firmware plans the insert again (R234). -/

/-- Run a command again after a CAS_FAIL: its records still queued are withdrawn. -/
def Dev.replan (d : Dev) (e : AdmEntry) (opc : Nat) : Dev :=
  let q := d.glb.tueQ.filter (fun r => match r.poster with
    | .adm e' _ _ _ _ => decide (e' ≠ e)
    | .firmware => true)
  let d := { d with glb := { d.glb with tueQ := q } }
  let r := if opc = 0x3A then fwdFlowAdd e d else fwdMacAdd e d
  match r with
  | .fail st det => (d.noPath (if opc = 0x3A then 1 else 2) r).admLate e opc st det 0
  | .done d' det len _ => d'.admLate e opc 0 det len
  | .wait d' => d'

def Dev.lineCas (d : Dev) : Dev :=
  match d.tueTake 0x11 with
  | (none, d) => d
  | (some (r, o), d) =>
    match r.poster with
    | .adm e opc _ _ _ => if o = 1 ∧ (opc = 0x3A ∨ opc = 0x3E) then d.replan e opc else d.tueReturn r o
    | .firmware => d

/-- Run an insert command; one that finds no path raises the rehash request (R236). -/
def Dev.admInsert (d : Dev) (e : AdmEntry) (opc table : Nat) (f : Dev → AdmRes) : Dev :=
  if !d.ctlRuns then d
  else
    let d' := d.noPath table (f d)
    match f d with
    | .fail st det => d'.admComplete e opc st det 0
    | r => d'.admRun e opc (fun _ => r)

def execLineCas (s : State) := s.run (·.lineCas)
def execFwdTblCfg (e : AdmEntry) (s : State) := s.run (·.admRun e 0x38 (fwdTblCfg e))
def execFwdRehash (e : AdmEntry) (s : State) := s.run (·.admRun e 0x39 (fwdRehash e))
def execRehashDone (table : Nat) (s : State) := s.run (·.rehashDone table)
def execFwdFlowAdd (e : AdmEntry) (s : State) := s.run (·.admInsert e 0x3A 1 (fwdFlowAdd e))
def execFwdFlowDel (e : AdmEntry) (s : State) := s.run (·.admRun e 0x3B (fwdFlowDel e))
def execFwdFlowRead (e : AdmEntry) (s : State) := s.run (·.admRun e 0x3C (fwdFlowRead e))
def execFwdBridgeCfg (e : AdmEntry) (s : State) := s.run (·.admRun e 0x3D (fwdBridgeCfg e))
def execFwdMacAdd (e : AdmEntry) (s : State) := s.run (·.admInsert e 0x3E 2 (fwdMacAdd e))
def execFwdActWrite (e : AdmEntry) (s : State) := s.run (·.admRun e 0x3F (fwdActWrite e))
def execFwdNatPool (e : AdmEntry) (s : State) := s.run (·.admRun e 0x40 (fwdNatPool e))
def execFwdTenCfg (e : AdmEntry) (s : State) := s.run (·.admRun e 0x41 (fwdTenCfg e))
def execFwdCntRead (e : AdmEntry) (s : State) := s.run (·.admRun e 0x42 (fwdCntRead false e))
def execFwdCntReadClear (e : AdmEntry) (s : State) := s.run (·.admRun e 0x42 (fwdCntRead true e))
def execFwdCntClaim (e : AdmEntry) (s : State) := s.run (·.admRun e 0x42 (fwdCntClaim e))
def execFwdCntRelease (e : AdmEntry) (s : State) := s.run (·.admRun e 0x42 (fwdCntRelease e))
def execFwdFlush (e : AdmEntry) (s : State) := s.run (·.admRun e 0x43 (fwdFlush e))

end Sys2Proof.Machine
end

