-- ==== Sys2Proof/Machine/Time.lean ====
section
/-! DEFINITION. The time domains, local time, trigger pins, time pages, the Timetable (R385 to R408). -/

namespace Sys2Proof.Machine

/-! Domains (R385 to R388). -/

/-- Units of a counter in a nanosecond and in a second. -/
def nsUnit : Int := 4294967296
def secUnit : Int := 1000000000 * nsUnit

/-- A domain at a count, in units of 2^-32 ns; seconds wrap after 2^48. -/
def Domain.at_ (x : Domain) (total : Int) : Domain :=
  let t := (total % (281474976710656 * secUnit)).toNat
  { x with sec := t / 4294967296 / 1000000000, ns := t / 4294967296 % 1000000000, frac := t % 4294967296 }

/-- One TCLK of a domain (R385). -/
def Domain.tick (x : Domain) : Domain :=
  let f := x.frac + x.inc
  let ns := x.ns + f / 4294967296
  if 1000000000 ≤ ns then { x with frac := f % 4294967296, ns := ns - 1000000000, sec := (x.sec + 1) % 281474976710656 }
  else { x with frac := f % 4294967296, ns := ns }

/-- One TCLK of the carry (R388). -/
def carryTick (c : Int) (inc slew : Nat) : Int :=
  let step : Int := (inc * slew / 1000000 : Nat)
  if 0 < c then max 0 (c - step) else if c < 0 then min 0 (c + step) else c

/-- One TCLK (R385, R388). -/
def Dev.timeTick (d : Dev) : Dev :=
  let t := d.time
  let inc := if t.selB then t.b.inc else t.a.inc
  d.setTime { t with a := t.a.tick, b := t.b.tick, carry := if t.locked then carryTick t.carry inc (d.regN Reg.TIME_SLEW) else 0 }

def Dev.dom (d : Dev) (k : Nat) : Domain := if k = 0 then d.time.a else d.time.b
def Dev.setDom (d : Dev) (k : Nat) (x : Domain) : Dev := d.setTime (if k = 0 then { d.time with a := x } else { d.time with b := x })
def Dev.selected (d : Dev) : Nat := b2n d.time.selB

/-- R388: make a change that keeps local time: it is refused when the carry it needs reaches 1 s. -/
def Dev.carried (d : Dev) (change : Dev → Dev) : Dev :=
  if !d.time.locked then change d
  else
    let l := d.localTotal
    let d' := change d
    let c := l - (d'.dom d'.selected).total
    if secUnit ≤ c ∨ c ≤ -secUnit then d.setBit Reg.TIME_GSTAT 0 else d'.setTime { d'.time with carry := c }

/-- TIME_INC_APPLY (R386). -/
def Dev.incApply (d : Dev) (pf k : Nat) (v : Word) : Dev :=
  d.bar0Write pf (Reg.TIME_INC_LO k) fun d =>
    let inc := d.regFld (Reg.TIME_INC_HI k) 7 0 * 2 ^ 32 + v.toNat
    if inc < 0x80000000 ∨ 0x200000000 < inc then d.setBit Reg.TIME_GSTAT 0
    else (d.setReg (Reg.TIME_INC_LO k) v).setDom k { d.dom k with inc := inc }

/-- A domain set or adjusted (R387). -/
def Dev.domTo (d : Dev) (k : Nat) (total : Int) : Dev :=
  if k = d.selected then d.carried (fun d => d.setDom k ((d.dom k).at_ total)) else d.setDom k ((d.dom k).at_ total)

/-- TIME_GO_d. -/
def Dev.timeGo (d : Dev) (pf k : Nat) (v : Word) : Dev :=
  d.bar0Write pf (Reg.TIME_GO k) fun d =>
    let ns : Nat := d.regFld (Reg.TIME_SET_NS k) 29 0
    let sec : Nat := d.regN (Reg.TIME_SET_SEC_LO k) + 2 ^ 32 * d.regFld (Reg.TIME_SET_SEC_HI k) 15 0
    match bitOf v 0, bitOf v 1 with
    | true, true => d.setBit Reg.TIME_GSTAT 0
    | true, false => if 1000000000 ≤ ns then d.setBit Reg.TIME_GSTAT 0 else d.domTo k ((sec : Int) * secUnit + (ns : Int) * nsUnit)
    | false, true => d.domTo k ((d.dom k).total + (d.reg (Reg.TIME_ADJ k)).toInt * nsUnit)
    | false, false => d

/-- TIME_SEL (R388): a refused switch leaves it as it was. -/
def Dev.timeSwitch (d : Dev) (pf : Nat) (v : Word) : Dev :=
  d.bar0Write pf Reg.TIME_SEL fun d =>
    let b := bitOf v 0
    if b = d.time.selB then d
    else
      let d' := d.carried (fun d => d.setTime { d.time with selB := b })
      if d'.time.selB = b then d'.setReg Reg.TIME_SEL (packW [(b2n b, 0)]) else d'

/-- TIME_LOCK (R388). -/
def Dev.timeLock (d : Dev) (pf : Nat) (v : Word) : Dev :=
  d.bar0Write pf Reg.TIME_LOCK fun d => if bitOf v 0 then d.setTime { d.time with locked := true } else d

/-- Seconds, nanoseconds and fraction of a count. -/
def splitTime (total : Int) : Nat × Nat × Nat :=
  let x := Domain.at_ {} total
  (x.sec, x.ns, x.frac)

/-- TIME_SNAP (R389). -/
def Dev.timeSnap (d : Dev) (pf : Nat) : Dev :=
  d.bar0Read pf Reg.TIME_SNAP fun d =>
    let s := (d.time.snapSeq + 1) % 65536
    let put := fun (d : Dev) (k : Nat) (t : Int) =>
      let x := splitTime t
      (((d.setReg (Reg.TIME_SNAP_SEC_LO k) (BitVec.ofNat 32 x.1)).setReg (Reg.TIME_SNAP_SEC_HI k) (packW [(x.1 / 2 ^ 32 % 65536, 0)])).setReg
        (Reg.TIME_SNAP_NS k) (packW [(x.2.1, 0)])).setReg (Reg.TIME_SNAP_FRAC k) (BitVec.ofNat 32 x.2.2)
    let l := d.localTotal
    ((put (put (put d 0 d.time.a.total) 1 d.time.b.total) 2 l).setTime { d.time with snapSeq := s }, packW [(s, 0)])

/-! The reference (R390). -/

def Dev.refSelect (d : Dev) (pf : Nat) (v : Word) : Dev :=
  d.bar0Write pf Reg.TIME_CTL fun d => (d.setReg Reg.TIME_CTL (packW [(b2n (bitOf v 0), 0)])).setTime { d.time with refLost := false }

def Dev.refLost (d : Dev) : Dev :=
  if !d.regBit Reg.TIME_CTL 0 ∨ d.time.refLost then d
  else
    ((d.setTime { d.time with refLost := true }).setBit Reg.TIME_GSTAT 1).pfEvent (d.regFld Reg.TIME_EVT_CFG 3 0) { type := 0x150 }

def Dev.refBack (d : Dev) : Dev := d.setTime { d.time with refLost := false }

/-- TIME_SLEW_DONE: the TCLK in which the carry reaches 0 (local time never steps). -/
def Dev.slewDone (d : Dev) : Dev :=
  let t := d.time
  if carryTick t.carry (d.dom d.selected).inc (d.regN Reg.TIME_SLEW) = 0 then d.setTime { t with carry := 0 } else d

/-! Time pages (R396, R407). -/

/-- The pages of the PFs, and of the tenancies: at a whole millisecond. -/
def Dev.pageWrite (d : Dev) : Dev :=
  let v := leBytes 8 (d.nowNs / 1000000 * 1000000)
  let d := (List.range 16).foldl (fun d n =>
    let lo := d.reg (Reg.TIME_PAGE_LO n)
    if !bitOf lo 0 ∨ d.fnHeld (.pf n) then d
    else d.emit (.hostWrite (.pf n) none (lo.toNat / 8 * 8 + 2 ^ 32 * d.regN (Reg.TIME_PAGE_HI n)) v false)) d
  d.time.pages.foldl (fun (d : Dev) (p : Nat × Nat) =>
    if !d.shutOpen p.1 ∨ d.fnHeld (d.tenFn p.1) then d
    else d.emit (.hostWrite (d.tenFn p.1) (d.tenGet p.1).pasid p.2 v false)) d

def timePageSet (e : AdmEntry) (d : Dev) : AdmRes :=
  let st := (d.tenGet e.ten).st
  admChecks [d.notOwner e e.ten, (decide (e.d3.toNat % 8 ≠ 0), St.RANGE, rangeAt 3 0), (decide (st ≠ 2 ∧ st ≠ 3), St.STATE, st)] fun _ =>
    .done (d.setTime { d.time with pages := if bitOf e.d4 0 then kvPut e.ten e.d3.toNat d.time.pages else kvDel e.ten d.time.pages })

/-! Trigger pins (R403 to R405) and PPS (R406). -/

def Dev.tio (d : Dev) (i : Nat) : Tio := d.time.tio.getD i {}
def Dev.setTio (d : Dev) (i : Nat) (x : Tio) : Dev := d.setTime { d.time with tio := d.time.tio.set i x }

def tioName (i : Nat) : String := "TIO" ++ toString i

/-- ARM: the shadowed values take effect, unless they are out of range; a start less than 100 ns ahead is late. -/
def Dev.tioArm (d : Dev) (i : Nat) : Dev :=
  let cfg := d.reg (Reg.TIME_TIO_CFG i)
  let per := bitOf cfg 4
  let period := d.regN (Reg.TIME_TIO_PERIOD i)
  let width := d.regN (Reg.TIME_TIO_WIDTH i)
  let ns := d.regFld (Reg.TIME_TIO_START_NS i) 29 0
  let start := (d.regN (Reg.TIME_TIO_START_SEC_LO i) + 2 ^ 32 * d.regFld (Reg.TIME_TIO_START_SEC_HI i) 15 0) * 1000000000 + ns
  if period < 20 ∨ 4000000000 < period ∨ width < 10 ∨ (if per then period < width + 10 else 1000000000 < width) ∨ 1000000000 ≤ ns then
    d.setBit Reg.TIME_GSTAT 0
  else if fld cfg 1 0 ≠ 1 then d
  else
    let soon := d.nowNs + 100
    let x : Tio := { d.tio i with armed := true, periodic := per, next := start, period := period, width := width }
    if soon ≤ start then d.setTio i x
    else
      let d := d.setBit (Reg.TIME_TIO_STAT i) 2
      if per then d.setTio i { x with next := start + roundUp (soon - start) period } else d.setTio i { x with armed := false }

/-- TIME_TIO_ARM_i: ARM before DISARM (log 43). -/
def Dev.tioWrite (d : Dev) (pf i : Nat) (v : Word) : Dev :=
  d.bar0Write pf (Reg.TIME_TIO_ARM i) fun d =>
    let d := if bitOf v 0 then d.tioArm i else d
    if bitOf v 1 then d.setTio i { d.tio i with armed := false } else d

/-- TIO_PULSE: the pulse of an armed output at its time. -/
def Dev.tioPulse (d : Dev) (i : Nat) : Dev :=
  let x := d.tio i
  if !x.armed then d
  else
    let d := (d.emit (.pin (tioName i) true)).emit (.pin (tioName i) false)
    d.setTio i (if x.periodic then { x with next := x.next + x.period } else { x with armed := false })

/-- TIO_CAPTURE: an edge of a capture input. -/
def Dev.tioCapture (d : Dev) (i : Nat) (rising : Bool) : Dev :=
  let cfg := d.reg (Reg.TIME_TIO_CFG i)
  let x := d.tio i
  if fld cfg 1 0 ≠ 2 ∨ (fld cfg 6 5 = 0 ∧ !rising) ∨ (fld cfg 6 5 = 1 ∧ rising) ∨ fld cfg 6 5 = 3 then d
  else if 16 ≤ x.caps.length then d.setBit (Reg.TIME_TIO_STAT i) 1
  else d.setTio i { x with caps := x.caps ++ [d.nowNs] }

/-- TIO_CAP_READ. -/
def Dev.tioRead (d : Dev) (pf i : Nat) : Dev :=
  d.bar0Read pf (Reg.TIME_TIO_CAP_SEC_LO i) fun d =>
    let x := d.tio i
    match x.caps with
    | [] => (d.clrBit (Reg.TIME_TIO_CAP_NS i) 31, d.reg (Reg.TIME_TIO_CAP_SEC_LO i))
    | t :: r =>
      let sec := t / 1000000000
      let lo := BitVec.ofNat 32 sec
      ((((d.setTio i { x with caps := r }).setReg (Reg.TIME_TIO_CAP_SEC_LO i) lo).setReg (Reg.TIME_TIO_CAP_SEC_HI i)
        (packW [(sec / 2 ^ 32 % 65536, 0)])).setReg (Reg.TIME_TIO_CAP_NS i) (packW [(1, 31), (t % 1000000000, 0)]), lo)

/-- PPS_OUT at a whole second. -/
def Dev.ppsOut (d : Dev) : Dev :=
  if d.regBit Reg.TIME_PPS_CFG 31 then (d.emit (.pin "PPS_OUT" true)).emit (.pin "PPS_OUT" false) else d

/-- A rising edge of PPS_IN. -/
def Dev.ppsIn (d : Dev) : Dev :=
  let t := d.nowNs
  let sec := t / 1000000000
  (((d.setReg Reg.TIME_PPSIN_SEC_LO (BitVec.ofNat 32 sec)).setReg Reg.TIME_PPSIN_SEC_HI (packW [(sec / 2 ^ 32 % 65536, 0)])).setReg
    Reg.TIME_PPSIN_NS (packW [(t % 1000000000, 0)])).count Reg.TIME_PPSIN_CNT

/-! The Timetable (R398 to R402). -/

/-- The windows of a cycle: entry, offset from the cycle start, length; entries past the cycle end are cut, and the last
one holds until it. -/
def GateList.wins (l : GateList) : List (Nat × Nat × Nat) :=
  let rec go : Nat → Nat → List (Nat × Nat) → List (Nat × Nat × Nat)
    | _, _, [] => []
    | i, o, e :: r =>
      if l.cycle ≤ o then []
      else if r.isEmpty then [(i, o, l.cycle - o)]
      else (i, o, min e.2 (l.cycle - o)) :: go (i + 1) (o + e.2) r
  go 0 0 l.entries

def GateList.gates (l : GateList) (i : Nat) : Nat := (l.entries.getD i (255, 0)).1

/-- The window in force at a time: entry, nominal start and end. -/
def GateList.window (l : GateList) (now : Nat) : Nat × Nat × Nat :=
  let c := l.base + (now - l.base) / l.cycle * l.cycle
  match l.wins.reverse.find? (fun w => decide (c + w.2.1 ≤ now)) with
  | some (i, o, n) => (i, c + o, c + o + n)
  | none => (0, c, c + l.cycle)

/-- The gates in effect. -/
def Dev.ttGates (d : Dev) (p : Nat) : Nat :=
  match (d.tt p).oper with
  | some l => if d.ttEn p then l.gates (d.tt p).cur else 255
  | none => 255

/-- R401: what a window repays of the lag. -/
def Dev.ttRepay (d : Dev) (p lag w : Nat) : Nat :=
  min lag (min (w * d.regFld (Reg.TT_SHRINK_MAX p) 6 0 / 100) (w - d.regN (Reg.TT_MIN_OPEN p)))

/-- A window opens: it repays lag. -/
def Dev.ttOpen (d : Dev) (p : Nat) (x : TimeTable) (w : Nat × Nat × Nat) : Dev :=
  let r := d.ttRepay p x.lag (w.2.2 - w.2.1)
  d.setTt p { x with cur := w.1, start := w.2.1, stop := w.2.2, lag := if d.ttEn p then x.lag - r else 0 }

/-- TT_CTL_p (R398, R402). -/
def Dev.ttCtl (d : Dev) (p : Nat) (v : Word) : Dev :=
  let x := d.tt p
  match x.oper with
  | some l =>
    if bitOf v 0 ∧ !d.time.locked then d.setBit Reg.TT_GSTAT 0
    else
      let was := d.ttEn p
      let d := d.setReg (Reg.TT_CTL p) (v &&& 3#32)
      if !bitOf v 0 then d.setTt p { x with lag := 0 }
      else if was then d
      else (d.ttOpen p x (l.window d.nowNs)).dimRestore p
  | none => if bitOf v 0 then d.setBit Reg.TT_GSTAT 0 else d.setReg (Reg.TT_CTL p) (v &&& 3#32)

/-- The first cycle start at least 10 µs ahead (R399). -/
def GateList.firstStart (l : GateList) (now : Nat) : Nat := l.base + roundUp (now + 10000 - l.base) l.cycle

/-- An entry of the buffer is outside R398. -/
def gateBad (b : List Byte) (i : Nat) : Bool :=
  decide (leAt b (8 * i + 4) 4 < 8 ∨ 1000000000 < leAt b (8 * i + 4) 4 ∨ leAt b (8 * i + 1) 3 ≠ 0)

def ttLoad (e : AdmEntry) (d : Dev) : AdmRes :=
  let p := fld e.d2 3 0
  let n := fld e.d2 42 32
  let ns := e.d4.toNat
  let cycle := e.d5.toNat
  let l : GateList := { base := fld e.d3 47 0 * 1000000000 + ns, cycle := cycle
                        entries := (List.range n).map (fun i => (leAt e.buf (8 * i) 1, leAt e.buf (8 * i + 4) 4)) }
  admChecks [d.notPriv e, (decide (d.portType p = 0), St.RANGE, rangeAt 2 0), (decide (n = 0 ∨ 1024 < n), St.RANGE, rangeAt 2 32),
      (decide (2 ^ 48 ≤ e.d3.toNat), St.RANGE, rangeAt 3 48), (decide (1000000000 ≤ ns), St.RANGE, rangeAt 4 0),
      (decide (cycle < 1000 ∨ 1000000000 < cycle), St.RANGE, rangeAt 5 0), (decide (e.len ≠ 8 * n), St.RANGE, rangeAt 0 32), e.bufCheck,
      ((List.range n).any (gateBad e.buf), St.RANGE, rangeAt 1 0), ((d.tt p).pend.isSome, St.STATE, 1)] fun _ =>
    .wait (d.setTt p { d.tt p with pend := some (l, l.firstStart d.nowNs, e) })

/-- GATE_LIST_ACTIVATE (R399): the old list is cut, the lag is carried, TT_LOAD completes. -/
def Dev.gateActivate (d : Dev) (p : Nat) : Dev :=
  let x := d.tt p
  match x.pend with
  | none => d
  | some (l, s, e) =>
    let w := (l.wins.headD (0, 0, l.cycle))
    (d.ttOpen p { x with oper := some l, pend := none } (w.1, s, s + w.2.2)).admLate e 0x69 0 0 0

/-- GATE_CHANGE: the next entry's time arrives. -/
def Dev.gateChange (d : Dev) (p : Nat) : Dev :=
  let x := d.tt p
  match x.oper with
  | none => d
  | some l => d.ttOpen p x (l.window x.stop)

def execTimeIncApply (pf dom : Nat) (value : Word) (s : State) := s.run (·.incApply pf dom value)
def execTimeGoSet (pf dom : Nat) (s : State) := s.run (·.timeGo pf dom 1#32)
def execTimeGoAdj (pf dom : Nat) (s : State) := s.run (·.timeGo pf dom 2#32)
def execTimeSwitch (pf : Nat) (value : Word) (s : State) := s.run (·.timeSwitch pf value)
def execTimeLock (pf : Nat) (value : Word) (s : State) := s.run (·.timeLock pf value)
def execTimeSnap (pf : Nat) (s : State) := s.run (·.timeSnap pf)
def execTimeRefSelect (pf : Nat) (value : Word) (s : State) := s.run (·.refSelect pf value)
def execClk10mLost (s : State) := s.run (·.refLost)
def execClk10mReturn (s : State) := s.run (·.refBack)
def execTimePageWrite (s : State) := s.run (·.pageWrite)
def execTioArm (pf i : Nat) (s : State) := s.run (·.tioWrite pf i 1#32)
def execTioDisarm (pf i : Nat) (s : State) := s.run (·.tioWrite pf i 2#32)
def execTioPulse (i : Nat) (s : State) := s.run (·.tioPulse i)
def execTioCapture (i : Nat) (rising : Bool) (s : State) := s.run (·.tioCapture i rising)
def execTioCapRead (pf i : Nat) (s : State) := s.run (·.tioRead pf i)
def execPpsOutEdge (s : State) := s.run (·.ppsOut)
def execPpsInEdge (s : State) := s.run (·.ppsIn)
def execTimePageSet (e : AdmEntry) (s : State) := s.run (·.admRun e 0x68 (timePageSet e))
def execTtLoad (e : AdmEntry) (s : State) := s.run (·.admRun e 0x69 (ttLoad e))
def execGateListActivate (p : Nat) (s : State) := s.run (·.gateActivate p)
def execGateChange (p : Nat) (s : State) := s.run (·.gateChange p)
def execTimeSlewDone (s : State) := s.run (·.slewDone)

end Sys2Proof.Machine
end

