-- ==== Sys2Proof/Machine/MacIo.lean ====
section
/-! DEFINITION. The MACs: reception and transmission of frames (R23, R31, R175 to R179, R182, R186, R187), PTP messages (R392 to
R395), MACsec (R275 to R277), frames for the fabric engine (R415), and the placing of frames in receive rings (R125). -/

namespace Sys2Proof.Machine

/-! PTP event messages (R392 to R395). -/

/-- Offset of the PTP header of an event message the port recognises, and the IP version that carries it (0: none). -/
def Dev.ptpEvent (d : Dev) (p : Nat) (f : List Byte) : Option (Nat × Nat) :=
  let cfg := d.reg (Reg.TIME_PTP_CFG p)
  let (t, o) := Net.l2 f
  let h := Net.l3 f
  let u := h.off + h.hlen
  let udp := decide (h.ver ≠ 0 ∧ h.proto = 17 ∧ beAt f (u + 2) 2 = 319)
  let ev := fun o v => if beAt f o 1 % 16 ≤ 3 ∧ o < f.length then some (o, v) else none
  if t = 0x88F7 then (if bitOf cfg 0 then ev o 0 else none)
  else if udp ∧ (if h.ver = 4 then bitOf cfg 1 else bitOf cfg 2) then ev (u + 8) h.ver
  else none

/-- R392: a PCS timestamp in units of 2^-32 ns: local time plus the port's asymmetry in ps, to 1/16 ns. -/
def Dev.pcsTime (d : Dev) (asym : Nat) : Int :=
  (d.localTotal + (d.reg asym).toInt * 4294967296 / 1000) / 268435456 * 268435456

/-! MACsec (R275 to R277). -/

def SecY.en (y : SecY) : Bool := decide (y.cfg % 2 = 1)
def SecY.protect (y : SecY) : Bool := y.en && decide (y.cfg / 2 % 2 = 1)
def SecY.validate (y : SecY) : Nat := y.cfg / 4 % 4
def SecY.replay (y : SecY) : Bool := decide (y.cfg / 16 % 2 = 1)
def SecY.sciInc (y : SecY) : Bool := decide (y.cfg / 32 % 2 = 1)
def SecY.es (y : SecY) : Bool := decide (y.cfg / 64 % 2 = 1)
def SecY.encAn (y : SecY) : Nat := y.cfg / 256 % 4

/-- The IV of XPN: the SSCI and the PN, with the salt added. -/
def Sa.iv (a : Sa) (pn : Nat) : List Byte := xorBytes (beBytes 4 a.ssci ++ beBytes 8 pn) a.salt

def SecY.sa (y : SecY) (k : Nat) : Option Sa := (kvFind k y.sas).filter (·.en)

/-- The SAK of an SA. -/
def Dev.sak (d : Dev) (a : Sa) : Option (List Byte) := (d.slot a.keySlot).map (·.material)

/-- The SA of a received SecTAG, by its SCI and AN (log 46). -/
def SecY.rxSa (y : SecY) (f : List Byte) : Option (Nat × Sa) :=
  let tci := beAt f 14 1
  let rx := y.sas.filter (fun (e : Nat × Sa) => decide (4 ≤ e.1 ∧ e.1 % 4 = tci % 4) && e.2.en)
  if tci / 32 % 2 = 1 then rx.find? (fun e => decide (e.2.sci = beAt f 20 8))
  else if tci / 64 % 2 = 1 then rx.find? (fun e => decide (e.2.sci = beAt f 6 6 * 65536 + 1))
  else match rx with
    | [e] => some e
    | _ => none

/-- The full PN from its low 32 bits and the lowest acceptable PN (IEEE 802.1AE-2018, log 46). -/
def pnRecover (lowest lo : Nat) : Nat :=
  let hi := lowest / 2 ^ 32
  if 2 ^ 31 ≤ lowest % 2 ^ 32 ∧ lo < 2 ^ 31 then (hi + 1) * 2 ^ 32 + lo else hi * 2 ^ 32 + lo

/-- The receive unit: the frame that goes to the Crossing; none: it is dropped. -/
def Dev.macsecRx (d : Dev) (p : Nat) (f : List Byte) : Option (List Byte) × Dev :=
  let y := d.secY p
  let v := y.validate
  if !y.en ∨ v = 0 then (some f, d)
  else if etherType f = 0x888E then (some f, d)
  else if etherType f ≠ 0x88E5 then
    (if v = 1 then some f else none, d.count (Reg.CRY_MS_RX_UNTAGGED p))
  else
    match y.rxSa f with
    | none => (none, d.count (Reg.CRY_MS_RX_NO_SA p))
    | some (k, a) =>
      match d.sak a with
      | none => (none, d.count (Reg.CRY_MS_RX_NO_SA p))
      | some key =>
        let pn := pnRecover a.pn (beAt f 16 4)
        if y.replay ∧ pn < a.pn then (none, d.count (Reg.CRY_MS_RX_LATE p))
        else
          let o := if beAt f 14 1 / 32 % 2 = 1 then 28 else 20
          let sl := beAt f 15 1 % 64
          let ct := if sl = 0 then f.drop o else (f.drop o).take (sl + 16)
          match aeadOpen 2 key (a.iv pn) (f.take o) ct with
          | none => (none, d.count (Reg.CRY_MS_RX_NOT_VALID p))
          | some pt =>
            let a' := { a with pn := max a.pn (pn + 1 - y.window) }
            (some (f.take 12 ++ pt), (d.setSecY p { y with sas := kvSet {} k a' y.sas }).count (Reg.CRY_MS_RX_OK p))

/-- Bytes that the transmit unit adds to a frame. -/
def SecY.grows (y : SecY) (f : List Byte) : Nat :=
  if y.protect ∧ etherType f ≠ 0x888E then (if y.sciInc then 32 else 24) else 0

/-- The transmit unit (R276, R277): none: nothing may be sent. -/
def Dev.macsecTx (d : Dev) (p : Nat) (f : List Byte) : Option (List Byte) × Dev :=
  let y := d.secY p
  if y.grows f = 0 then (some f, d)
  else
    let an := y.encAn
    let drop := (none, d.count (Reg.CRY_MS_TX_DROP p))
    match y.sa an with
    | none => drop
    | some a =>
      match d.sak a with
      | none => drop
      | some key =>
        if 2 ^ 64 - 1 ≤ a.pn then drop
        else
          let tci := an + 12 + 32 * b2n y.sciInc + 64 * b2n (y.es && !y.sciInc)
          let data := f.drop 12
          let tag := beBytes 2 0x88E5 ++ beBytes 1 tci ++ beBytes 1 (if data.length < 48 then data.length else 0) ++
            beBytes 4 a.pn ++ (if y.sciInc then beBytes 8 a.sci else [])
          let aad := f.take 12 ++ tag
          let n := a.pn + 1
          let tell := decide (0xC000000000000000 ≤ n) && !a.evtSent
          let a' := { a with pn := n, evtSent := a.evtSent || tell }
          let d := (d.setSecY p { y with sas := kvSet {} an a' y.sas }).count (Reg.CRY_MS_TX_PROT p)
          let d := if tell then d.cryEvent { type := 0x123, p1 := p * 256 + an } else d
          (some (aad ++ aeadSeal 2 key (a.iv a.pn) aad data), d)

/-! Wake patterns (R186, R187). -/

/-- The offsets a pattern selects, in ascending order. -/
def Dev.wakeOffsets (d : Dev) (p i : Nat) : List Nat :=
  let m := fun k => d.reg (match k with
    | 0 => Reg.PORT_WAKE_MASK_0 p i
    | 1 => Reg.PORT_WAKE_MASK_1 p i
    | 2 => Reg.PORT_WAKE_MASK_2 p i
    | _ => Reg.PORT_WAKE_MASK_3 p i)
  (List.range 128).filter (fun b => bitOf (m (b / 32)) (b % 32))

/-- R186: a good frame matches the pattern. -/
def Dev.wakeMatch (d : Dev) (p : Nat) (f : List Byte) (i : Nat) : Bool :=
  let offs := d.wakeOffsets p i
  d.regBit (Reg.PORT_WAKE_CTL p i) 31 && !offs.isEmpty && decide (offs.getLastD 0 < f.length) &&
    decide (Net.crc32c (offs.map (fun o => (slice f o 1).headD 0)) = d.regN (Reg.PORT_WAKE_CRC p i))

/-- R187: what a good frame wakes in Quiet. `f` includes its FCS. -/
def Dev.wakeCheck (d : Dev) (p : Nat) (f : List Byte) : Dev :=
  let hits := (List.range 32).filter (d.wakeMatch p f)
  if d.pwr.state ≠ 2 ∨ hits.isEmpty then d
  else
    let d := hits.foldl (fun (d : Dev) i =>
      let d := d.setBit (Reg.PORT_WAKE_STAT p) i
      let n := d.regFld (Reg.PORT_WAKE_CTL p i) 3 0
      if d.fnD3 (.pf n) then d.pme (.pf n) else d) d
    (d.pcount p 36 1).wakeFrom 1

/-! Reception (R178, R179). -/

/-- A received MAC control frame (R177, R188), consumed. -/
def Dev.ctlRx (d : Dev) (p : Nat) (f : List Byte) : Dev :=
  let cfg := d.reg (Reg.PORT_CFG p)
  let d := d.pcount p 13 1
  match beAt f 14 2 with
  | 1 =>
    let d := (d.pcount p 14 1).pcount p 15 (b2n (!bitOf cfg 5))
    d.pauseRx p false 255 [beAt f 16 2]
  | 0x0101 =>
    let en := beAt f 16 2 % 256
    let d := (List.range 8).foldl (fun (d : Dev) c => d.pcount p (16 + c) (en / 2 ^ c % 2)) (d.pcount p 15 (b2n (!bitOf cfg 4)))
    d.pauseRx p true en ((List.range 8).map (fun c => beAt f (18 + 2 * c) 2))
  | _ => d.pcount p 15 1

/-- A Dimming frame that the MAC consumes (R182). -/
def isDimming (f : List Byte) : Bool := decide (etherType f = 0x88B6 ∧ beAt f 14 2 = 0x5747 ∧ beAt f 16 1 = 1)

/-- R178: a frame that passed its checks is admitted, through the MACsec unit to the Crossing, or is refused whole. n is its length
with FCS. -/
def Dev.macAdmit (d : Dev) (p : Nat) (f : List Byte) (n : Nat) : Dev :=
  let ts := (d.pcsTime (Reg.TIME_ASYM_RX p) / 4294967296).toNat
  match d.sq.store { pool := p, cells := 0, data := f, port := p, ts := ts } with
  | none => (d.pcount p 11 1).pcount p 12 n
  | some (tok, q) =>
    let d := ((d.setSquare q).pauseCheck p).rxCountOk p f n
    let d := d.pcount p 45 (b2n (d.ptpEvent p f).isSome)
    match d.macsecRx p f with
    | (none, d) => d.freePkt tok
    | (some g, d) => (d.resizePkt tok g).getD (d.freePkt tok)

/-- R179: the frame, with its FCS, is counted once. -/
def Dev.macRx (d : Dev) (p : Nat) (frame : List Byte) (phy : RxPhy) : Dev :=
  let n := frame.length
  let f := frame.take (n - 4)
  let good := decide (4 ≤ n ∧ frame.drop (n - 4) = Net.fcs f)
  let mtu := d.regN (Reg.PORT_MTU p)
  if d.portType p = 0 ∨ !(d.netPort p).link then d
  else
    let d := [(37, phy.codewords), (38, phy.corrected), (39, phy.uncorrectable), (40, phy.symbols), (41, b2n phy.hiBer)].foldl
      (fun (d : Dev) (c : Nat × Nat) => d.pcount p c.1 c.2) d
    if phy.codeErr ∨ 0 < phy.uncorrectable then d.pcount p 6 1
    else if n < 64 then d.pcount p (if good then 7 else 8) 1
    else if mtu < n then d.pcount p (if good then 9 else 10) 1
    else if !good then d.pcount p 5 1
    else
      let d := d.wakeCheck p frame
      if etherType f = 0x8808 then (d.rxCountOk p f n).ctlRx p f
      else if isDimming f then ((d.rxCountOk p f n).pcount p 35 1).dimRx p f
      else if 2 ≤ d.pwr.state then (d.rxCountOk p f n).pcount p 45 (b2n (d.ptpEvent p f).isSome)
      else d.macAdmit p f n

/-- PAUSE_FRAME_RX: a MAC control frame with these fields, from another station, arrives. -/
def Dev.pauseArrive (d : Dev) (p : Nat) (pfc : Bool) (en : Nat) (quanta : List Nat) : Dev :=
  let f := fitTo 60 (beBytes 6 0x0180C2000001 ++ List.replicate 6 0#8 ++ beBytes 2 0x8808 ++
    (if pfc then beBytes 2 0x0101 ++ beBytes 2 (en % 256) ++ (List.range 8).flatMap (fun c => beBytes 2 (quanta.getD c 0))
     else beBytes 2 1 ++ beBytes 2 (quanta.getD 0 0)))
  d.macRx p (f ++ Net.fcs f) {}

/-! The fabric engine ahead of the Crossing (R415). -/

/-- The message of a datagram that goes to the fabric engine. -/
def Dev.fabTaken (d : Dev) (f : List Byte) : Option (List Byte) :=
  let h := Net.l3 f
  let u := h.off + 40
  let m := f.drop (u + 8)
  if d.fabOn ∧ h.ver = 6 ∧ h.proto = 17 ∧ d.fabAddr.isSome ∧ slice f (h.off + 24) 16 = d.fabIp d.fabA ∧
      beAt f (u + 2) 2 = d.regFld Reg.FAB_UDP_PORT 15 0 ∧ beAt m 0 2 = 0x5746 ∧ beAt m 2 1 = 1 then
    some (m.take (beAt f (u + 4) 2 - 8))
  else none

/-- CROSSING_CLASSIFY. -/
def Dev.classifyAll (d : Dev) (tok : Nat) (ue : List Nat) : Dev :=
  match d.pkt tok with
  | none => d
  | some p =>
    match d.fabTaken p.data with
    | some m =>
      if p.stage = .arrived ∧ p.port < 16 ∧ p.cls.source ≠ 0x60 ∧ !d.pwr.stopP then (d.freePkt tok).fabRx false m
      else d.classify tok ue
    | none => d.classify tok ue

/-- SVB_RX_FRAME: a fabric frame goes to the fabric agent. -/
def Dev.svbArrive (d : Dev) (f : List Byte) (good : Bool) : Dev :=
  match d.svbRx f good with
  | (false, d) => d
  | (true, d) => if etherType f = 0x88B5 then d.fabRx true ((f.drop 14).take (44 + beAt f 54 2)) else d

/-! The Timetable's gates at a frame's start (R400, R401). -/

/-- Time a frame of n bytes with its FCS takes at the port's rate, in ns, rounded up. -/
def Dev.wireNs (d : Dev) (p n : Nat) : Nat :=
  let r := max 1 (typeRate (d.portType p))
  ((n + 20) * 8 + r - 1) / r

/-- Lengths, in cyclic order from a window on, of the windows before the gate of class c closes; none: it never closes. -/
def openRun (l : GateList) (c : Nat) (ws : List (Nat × Nat × Nat)) : Option Nat :=
  let isOpen := fun (w : Nat × Nat × Nat) => decide (l.gates w.1 / 2 ^ c % 2 = 1)
  if ws.all isOpen then none else some (sumNat ((ws.takeWhile isOpen).map (fun w => w.2.2)))

/-- The windows of a cycle, from the k-th on and round. -/
def GateList.from (l : GateList) (k : Nat) : List (Nat × Nat × Nat) :=
  let ws := l.wins
  ws.drop k ++ ws.take k

/-- The place of the window in effect in the cycle. -/
def GateList.place (l : GateList) (cur : Nat) : Nat := (l.wins.findIdx? (fun w => decide (w.1 = cur))).getD 0

/-- What the Timetable says of a frame of class c that takes w ns: 0 it may start, 1 it waits, 2 it is dropped. -/
def Dev.ttVerdict (d : Dev) (p c w : Nat) : Nat :=
  match (d.tt p).oper with
  | none => 0
  | some l =>
    let x := d.tt p
    if !d.ttEn p then 0
    else
      let guard := d.regBit (Reg.TT_CTL p) 1
      let runs := (List.range l.wins.length).map (fun k => openRun l c (l.from k))
      if guard ∧ !runs.any (·.isNone) ∧ runs.all (fun r => decide (r.getD 0 < w)) then 2
      else if d.ttGates p / 2 ^ c % 2 = 0 then 1
      else if !guard then 0
      else
        match openRun l c ((l.from (l.place x.cur)).drop 1 ++ (l.from (l.place x.cur)).take 1) with
        | none => 0
        | some more => if d.nowNs + w ≤ x.stop + x.lag + more then 0 else 1

/-- R401: a frame of class c that takes w ns starts now: if it is still in transmission at the end of its window and its class is
closed in the next one, it overruns and the lag grows. -/
def Dev.ttStart (d : Dev) (p c w : Nat) : Dev :=
  match (d.tt p).oper with
  | none => d
  | some l =>
    let x := d.tt p
    let fin := d.nowNs + w
    let next := ((l.from (l.place x.cur)).drop 1).headD (0, 0, 0)
    let nextOpen := decide (l.wins.length ≤ 1 ∨ l.gates next.1 / 2 ^ c % 2 = 1)
    if !d.ttEn p ∨ fin ≤ x.stop + x.lag ∨ nextOpen then d
    else
      let lag := fin - x.stop
      let d := (d.setTt p { x with lag := lag }).count (Reg.TT_OVERRUN p)
      if d.regN (Reg.TT_LAG_MAX p) < lag then d.setReg (Reg.TT_LAG_MAX p) (BitVec.ofNat 32 lag) else d

/-! Transmission (R23, R31, R175, R176). -/

/-- R394: latch the timestamp of a transmitted event message. -/
def Dev.txtsLatch (d : Dev) (p : Nat) (f : List Byte) (o sec ns : Nat) : Dev :=
  let ovw := d.time.txtsNew.contains p || d.regBit (Reg.TIME_TXTS_ID p) 31
  let d := ((d.setReg (Reg.TIME_TXTS_SEC p) (BitVec.ofNat 32 sec)).setReg (Reg.TIME_TXTS_NS p) (packW [(ns, 0)])).setReg
    (Reg.TIME_TXTS_ID p) (packW [(b2n ovw, 31), (beAt f o 1 % 16, 16), (beAt f (o + 30) 2, 0)])
  d.setTime { d.time with txtsNew := insertNat p d.time.txtsNew }

/-- R395: the Sync that the port modifies. -/
def Dev.oneStep (d : Dev) (p : Nat) (f : List Byte) : Bool :=
  match d.ptpEvent p f with
  | some (o, _) => d.regBit (Reg.TIME_PTP_CFG p) 3 && !(d.secY p).protect &&
      decide (beAt f o 1 % 16 = 0 ∧ beAt f (o + 6) 1 / 2 % 2 = 0)
  | none => false

/-- R395: the timestamp written into a Sync. -/
def oneStepFrame (f : List Byte) (o ver sec ns frac : Nat) : List Byte :=
  let f := patch f (o + 34) (beBytes 6 sec ++ beBytes 4 ns)
  let f := patch f (o + 8) (beBytes 8 ((beAt f (o + 8) 8 + frac / 65536) % 2 ^ 64))
  if ver = 4 then patch f (o - 2) [0, 0] else if ver = 6 then Net.insertL4 f else f

/-- The frame leaves the port's queue. -/
def Dev.txqDel (d : Dev) (p tok : Nat) : Dev :=
  d.setNetPort p { d.netPort p with txq := (d.netPort p).txq.filter (fun t => decide (t ≠ tok)) }

/-- The frame goes, with what its job's completion carries. -/
def Dev.txGone (d : Dev) (p tok : Nat) (k : Packet) (d2 : Dword) (d3 : Nat) (bad : Option (Nat × Nat)) : Dev :=
  ((d.txqDel p tok).freePkt tok).frameGone k.job d2 d3 bad

/-- R31: how a TX job ends whose frame met poison. -/
def poisonEnd : Option (Nat × Nat) := some (St.INTEGRITY, 0x40)

/-- Send a frame (R175, R392 to R395). `ue`: an uncorrectable error is met after transmission started. -/
def Dev.macSend (d : Dev) (p tok : Nat) (k : Packet) (ue : Bool) : Dev :=
  let t := splitTime (d.pcsTime (Reg.TIME_ASYM_TX p))
  let ev := d.ptpEvent p k.data
  let hold := d.oneStep p k.data
  if k.poison ∨ (ue ∧ hold) then d.txGone p tok k 0 0 poisonEnd
  else
    let f := match ev with
      | some (o, v) => if hold then oneStepFrame k.data o v t.1 t.2.1 t.2.2 else k.data
      | none => k.data
    match d.macsecTx p f with
    | (none, d) => d.txGone p tok k 0 0 none
    | (some w, d) =>
      let g := if w.length < 60 then fitTo 60 w else w
      let n := g.length + 4
      let d := (d.ttStart p k.tc (d.wireNs p n)).emit (.frame p g ue)
      let d := d.pcount p 56 (b2n (decide (w.length < 60)))
      let d := if ue then d.pcount p 53 1 else d.txCountOk p g n
      match ev with
      | some (o, _) =>
        let d := (d.pcount p 79 1).txtsLatch p k.data o t.1 t.2.1
        d.txGone p tok k (packD [(t.1 % 2 ^ 48, 0), (t.2.2 / 65536, 48)]) (t.2.1 + 2 ^ 30) (if ue then poisonEnd else none)
      | none => d.txGone p tok k 0 0 (if ue then poisonEnd else none)

/-- MAC_TX_FRAME: the port's queue moves: the oldest frame that no pause holds and whose gate is open. -/
def Dev.macTx (d : Dev) (p : Nat) (ue : Bool) : Dev :=
  let x := d.netPort p
  let onWire := fun (k : Packet) => max 64 (k.data.length + (d.secY p).grows k.data + 4)
  if !x.link then
    match x.txq with
    | [] => d
    | tok :: _ =>
      match d.pkt tok with
      | none => d.txqDel p tok
      | some k => (d.pcount p 55 1).txGone p tok k 0 0 none
  else
    let ready := x.txq.filterMap (fun tok => (d.pkt tok).map (fun k => (tok, k)))
    let may := fun (e : Nat × Packet) => !x.held.contains e.2.tc && decide (d.ttVerdict p e.2.tc (d.wireNs p (onWire e.2)) ≠ 1)
    match ready.find? may with
    | none => d
    | some (tok, k) =>
      if d.regN (Reg.PORT_MTU p) < onWire k then (d.pcount p 54 1).txGone p tok k 0 0 none
      else if d.ttVerdict p k.tc (d.wireNs p (onWire k)) = 2 then (d.count (Reg.TT_TOO_BIG p)).txGone p tok k 0 0 none
      else d.macSend p tok k ue

/-! Placing frames (R125, R204). -/

/-- RX_FRAME_PLACE: a frame for a ring, or for the manager's exception ring. -/
def Dev.rxFramePlace (d : Dev) (tok : Nat) (xlat : Bool) : Dev :=
  match d.pkt tok with
  | none => d
  | some p =>
    let m := fun mark decrypted => ({
        hash := p.cls.hash, ptype := p.cls.ptype, l3ok := p.cls.l3ok, l4ok := p.cls.l4ok, decrypted := decrypted, mark := mark, ts := p.ts } : RxMeta)
    match p.stage with
    | .toRing t l mark decrypted =>
      match d.sqAt t l with
      | some (q, _) => ((d.rxPlace q p.gen p.clsOpen p.data (m mark decrypted) xlat).2).dropPkt tok
      | none => (d.dropPkt tok).count Reg.CLS_NO_RING
    | .excRing _ =>
      let d := d.excTaken tok
      match d.excRingOf with
      | some q =>
        let g := (kvFind q d.ring.sqs).elim 0#32 (fun x => (d.tenGet x.ten).gen)
        ((d.rxPlace q g true p.data (m 0 false) xlat).2).dropPkt tok
      | none => (d.dropPkt tok).count Reg.CLS_SLOW_DROP
    | _ => d

/-! L0p (R57). -/

/-- L0P_WIDTH_CHANGE: the partner agrees to a width. -/
def Dev.l0pWidth (d : Dev) (p w : Nat) : Dev :=
  let x := d.hifPort p
  if !x.linkUp ∨ !x.flit ∨ !d.regBit (Reg.HIF_PORT_CTL p) 0 ∨ w ∉ [16, 8, 4, 2, 1] then d
  else d.setHifPort p { x with width := w }

/-! The commands. -/

def execMacRxFrame (p : Nat) (frame : List Byte) (phy : RxPhy) (s : State) := s.run (·.macRx p frame phy)
def execMacTxFrame (p : Nat) (ue : Bool) (s : State) := s.run (·.macTx p ue)
def execPauseFrameRx (p : Nat) (pfc : Bool) (enable : Nat) (quanta : List Nat) (s : State) := s.run (·.pauseArrive p pfc enable quanta)
def execCrossingClassify (tok : Nat) (resultUe : List Nat) (s : State) := s.run (·.classifyAll tok resultUe)
def execSvbRxFrame (frame : List Byte) (good : Bool) (s : State) := s.runAon (·.svbArrive frame good)
def execRxFramePlace (tok : Nat) (xlatFault : Bool) (s : State) := s.run (·.rxFramePlace tok xlatFault)
def execL0pWidthChange (p width : Nat) (s : State) := s.run (·.l0pWidth p width)

end Sys2Proof.Machine
end

