-- ==== Sys2Proof/Machine/Mgmt.lean ====
section
/-! DEFINITION. The management controller: sensors, images and boot, MCTP, SPDM, PLDM, debug policy (R469 to R485). Formats of the
messages it answers are those of the DMTF standards (log 41). -/

namespace Sys2Proof.Machine

/-! Images (R474). -/

def FwImage.kind (x : FwImage) : Nat := leAt x.header 6 1
def FwImage.svn (x : FwImage) : Nat := leAt x.header 8 4

def sha384of (b : List Byte) : List Byte := primBytes 12 [primNat 384, b] 48

/-- R474: an image is valid. -/
def Fuses.valid (f : Fuses) (x : FwImage) : Bool :=
  let h := fitTo 8192 x.header
  let k := leAt h 7 1
  decide (leAt h 0 4 = 0x57474657 ∧ leAt h 4 2 = 1 ∧ k ≤ 3 ∧ leAt h 12 4 = x.body.length ∧ f.svn ≤ leAt h 8 4 ∧ leAt h 8 4 ≤ 64) &&
    decide (sha384of (slice h 64 2689) = f.keyHash.getD k []) && !f.revoked.getD k true &&
    Config.primOk 10 [primNat 0x16, slice h 64 2592, slice h 0 2753, slice h 2753 4627] &&
    Config.primOk 10 [primNat 0x2A, slice h 2656 97, sha384of (slice h 0 2753), slice h 7380 96] && decide (sha384of x.body = slice h 16 48)

def Dev.bankAt (d : Dev) (b : Nat) : FwBank := d.mgt.banks.getD b {}
def Dev.setFwBank (d : Dev) (b : Nat) (x : FwBank) : Dev := d.setMgt { d.mgt with banks := d.mgt.banks.set b x }

/-- The image of a kind in a bank is valid. -/
def Dev.imageOk (d : Dev) (b k : Nat) : Bool := (kvFind k (d.bankAt b).images).elim false (fun x => d.mgt.fuses.valid x && decide (x.kind = k))

/-- MGT_BOOT_STAT. -/
def Dev.bootStat (d : Dev) (ok : Bool) : Dev :=
  d.setReg Reg.MGT_BOOT_STAT (packW [(d.mgt.failedKind, 13), (b2n d.mgt.mixed, 3), (b2n d.mgt.debugOpen, 2), (d.mgt.bank, 1), (b2n ok, 0)])

/-- The first of the images the boot ROM and the loader verify that is not valid: loader, management firmware, board configuration. -/
def Dev.bootBad (d : Dev) (b : Nat) : Option Nat := [1, 2, 3].find? (fun k => !d.imageOk b k)

/-- R475: the banks in the order the boot ROM tries them. -/
def Dev.bootOrder (d : Dev) : List Nat :=
  let a := d.bankAt 0
  let b := d.bankAt 1
  if a.valid ∧ b.valid then (if b.bseq ≤ a.bseq then [0, 1] else [1, 0]) else if a.valid then [0] else if b.valid then [1] else []

/-- R475, R476: the boot ROM starts the management firmware from the first bank of its order whose images are valid, or stays in the ROM. -/
def Dev.romBoot (d : Dev) : Dev :=
  let order := d.bootOrder
  let failed := (order.head?.bind d.bootBad).getD 0
  match order.find? (fun b => (d.bootBad b).isNone) with
  | some b =>
    let ver := (kvFind 2 (d.bankAt b).images).elim 0 FwImage.svn
    ((d.setMgt { d.mgt with fw := true, bank := b, failedKind := failed }).setReg Reg.MGT_FW_VER (BitVec.ofNat 32 ver)).bootStat true
  | none => (d.setMgt { d.mgt with fw := false, failedKind := failed }).bootStat false

/-- R220: every hash key is filled from the DRBG. -/
def Dev.fillHashKeys (d : Dev) : Dev :=
  (List.range 8).foldl (fun (d : Dev) h =>
    let (n, d) := d.draw
    let key := freeBytes n 52
    let d := (List.range 13).foldl (fun (d : Dev) i => d.setReg (Reg.CLS_HPROF_KEY h i) (BitVec.ofNat 32 (leAt key (4 * i) 4))) d
    { d with cls := { d.cls with hprofs := d.cls.hprofs.set h { d.cls.hprofs.getD h default with key := key } } }) d

/-- FIRMWARE_READY (R475, R476): the boot steps of a device fundamental reset. Control firmware and the core bundle of the bank are
verified; what is in them comes as operands, for the spec gives no format of their bodies: `cores` and `crossing` are the images the bundle
carries (R379, R571), `regs` the settings of the board configuration, `lock` its LOCK_AT_BOOT; `entropy` is the outcome of the start-up
test. -/
def Dev.firmwareReady (d : Dev) (cores : List (Nat × List Byte)) (crossing : Option (List Byte)) (regs : List (Nat × Word)) (lock entropy : Bool) : Dev :=
  if !d.mgt.fw ∨ d.regBit Reg.GLB_STAT 0 then d
  else
    match [4, 5].find? (fun k => !d.imageOk d.mgt.bank k) with
    | some k => (d.setMgt { d.mgt with failedKind := k }).bootStat true
    | none =>
      let ver := (kvFind 4 (d.bankAt d.mgt.bank).images).elim 0 FwImage.svn
      let d := (d.setMgt { d.mgt with ctlBank := d.mgt.bank, mixed := false }).setReg Reg.MGT_CTL_VER (BitVec.ofNat 32 ver)
      let d := { d with glb := { d.glb with planes := { d.glb.planes with ctlUp := true } } }
      let d := { d with cpu := { d.cpu with images := cores.foldl (fun (m : Kv (List Byte)) (c : Nat × List Byte) => kvPut (c.1 % 64) c.2 m) d.cpu.images } }
      let d := match crossing with
        | some i => { d with cls := { d.cls with banks := d.cls.banks.set d.cls.active (some i) } }
        | none => d
      let d := (d.rngStart entropy).fillHashKeys
      let d := regs.foldl (fun d r => d.setReg r.1 r.2) d
      let d := if lock then d.setBit Reg.WKT_LOCK 0 else d
      (d.setBit Reg.GLB_STAT 0).bootStat true

/-! Sensors (R471, R472, R520). -/

/-- Bits of a signed temperature. -/
def tempWord (t : Int) : Word := BitVec.ofNat 32 (t % 65536).toNat
def tempOf (w : Word) : Int := let v : Int := (fld w 15 0 : Nat); if v < 32768 then v else v - 65536

/-- R472: the event of a sensor that reaches a level. -/
def Dev.thermal (d : Dev) (s level : Nat) : Dev := d.pfEvent (d.regFld Reg.MGT_EVT_CFG 3 0) { type := 0x180, p1 := s, p2 := level }

/-- R472: the trip at 112 °C, in always-on hardware. -/
def Dev.thermTrip (d : Dev) : Dev :=
  if d.pwr.trip then d else Dev.emit { d with pwr := { d.pwr with trip := true } } (.pin "THERMTRIP_N" false)

/-- One temperature: i from 0. -/
def Dev.tempSet (d : Dev) (i : Nat) (t : Int) : Dev :=
  let old := d.mgt.temps.getD i 0
  let warn := tempOf (d.reg Reg.MGT_TEMP_WARN)
  let crit := tempOf (d.reg Reg.MGT_TEMP_CRIT)
  let d := (d.setMgt { d.mgt with temps := d.mgt.temps.set i t }).setReg (Reg.MGT_TEMP i) (tempWord t)
  let d := if tempOf (d.reg Reg.MGT_TEMP_MAX) < t then d.setReg Reg.MGT_TEMP_MAX (tempWord t) else d
  let d := if old < warn ∧ warn ≤ t then (d.thermal (i + 1) 1).setBit Reg.MGT_GSTAT 2 else d
  let d := if old < crit ∧ crit ≤ t then d.thermal (i + 1) 2 else d
  if 896 ≤ t then d.thermTrip else d

/-- SENSOR_SAMPLE: temperatures in 0.125 °C, rail powers in mW (R471). While the management controller is restarting only the trip
works. -/
def Dev.sensorSample (d : Dev) (temps : List Int) (powers : List Nat) : Dev :=
  if !d.glb.planes.mgmtUp then (if temps.any (fun t => decide (896 ≤ t)) then d.thermTrip else d)
  else
    let d := (List.range 12).foldl (fun d i => d.tempSet i (temps.getD i 0)) d
    let ps := (List.range 11).map (fun i => powers.getD i 0)
    let ps := ps ++ [sumNat ps]
    (List.range 12).foldl (fun d i => d.setReg (Reg.MGT_POWER i) (BitVec.ofNat 32 (ps.getD i 0))) (d.setMgt { d.mgt with powers := ps })

/-! MCTP control (R470). Bindings: 0 SMBus, 1 I3C, 2 PCIe VDM of port 0, 3 of port 1. -/

/-- A response on a binding, of an MCTP message type. The boot ROM answers MCTP control and PLDM firmware update only; a controller
that is restarting answers nothing. -/
def Dev.mctp (d : Dev) (port type : Nat) (data : List Byte) : Dev :=
  if !d.glb.planes.mgmtUp ∨ (!d.mgt.fw ∧ type ≠ 0) then d else d.emit (.message (0x100 + type) port data)

def eidLow (port : Nat) : Nat := 8 * min port 2
def Dev.eid (d : Dev) (port : Nat) : Nat := d.regFld Reg.MGT_EID (eidLow port + 7) (eidLow port)

/-- Set Endpoint ID: operation 0 set, 1 force; other operations and the reserved identifiers are refused. -/
def Dev.setEid (d : Dev) (port op eid : Nat) : Dev :=
  if !d.glb.planes.mgmtUp then d
  else if 1 < op ∨ eid = 0 ∨ 255 ≤ eid then d.mctp port 0 [0x80, 1, 0x02]
  else
    let w := d.regN Reg.MGT_EID
    let w' := w - d.eid port * 2 ^ eidLow port + eid * 2 ^ eidLow port
    (d.setReg Reg.MGT_EID (BitVec.ofNat 32 w')).mctp port 0 ([0x80, 1, 0, 0] ++ leBytes 1 eid ++ [0])

def Dev.getEid (d : Dev) (port : Nat) : Dev := d.mctp port 0 ([0x80, 2, 0] ++ leBytes 1 (d.eid port) ++ [0, 0])

/-- The UUID is derived from ID_UID; how, the spec does not say (log 41). -/
def Dev.uuid (d : Dev) : List Byte := primBytes 15 ((List.range 4).map (fun i => leBytes 4 (d.regN (Reg.ID_UID i)))) 16

def Dev.getUuid (d : Dev) (port : Nat) : Dev := d.mctp port 0 ([0x80, 3, 0] ++ d.uuid)

/-- Message types of R470. -/
def mctpTypes : List Nat := [0, 1, 5, 6, 0x7E]

def Dev.getVersions (d : Dev) (port type : Nat) : Dev :=
  if type = 0xFF ∨ mctpTypes.contains type then d.mctp port 0 ([0x80, 4, 0, 1] ++ [0xF1, 0xF3, 0xF0, 0x00]) else d.mctp port 0 [0x80, 4, 0x80]

def Dev.getTypes (d : Dev) (port : Nat) : Dev := d.mctp port 0 ([0x80, 5, 0, 4] ++ [1, 5, 6, 0x7E])

/-- One vendor set: the PCI vendor identifier of the device (R39), free here as far as the spec gives none. -/
def Dev.getVendor (d : Dev) (port selector : Nat) : Dev :=
  if selector = 0 then d.mctp port 0 ([0x80, 6, 0, 0xFF, 0] ++ primBytes 15 [primNat 1] 4) else d.mctp port 0 [0x80, 6, 0x02]

/-! Measurements (R481). -/

/-- What measurement i covers. The boot ROM is a constant of the device. -/
def Dev.measured (d : Dev) (i : Nat) : List Byte :=
  let body := fun (b k : Nat) => (kvFind k (d.bankAt b).images).elim [] FwImage.body
  match i with
  | 1 => primBytes 15 [primNat 2] 48
  | 2 => body d.mgt.bank 1
  | 3 => body d.mgt.bank 2
  | 4 => body d.mgt.ctlBank 4
  | 5 => body d.mgt.bank 3
  | 6 => (d.cls.banks.getD d.cls.active none).getD []
  | 7 => d.cpu.images.flatMap (fun x => leBytes 4 x.1 ++ primBytes 12 [primNat 32, x.2] 4)
  | 8 => leBytes 1 d.mgt.fuses.svn ++ leBytes 1 (packNat (d.mgt.fuses.revoked.zipIdx.map (fun r => (b2n r.1, r.2)))) ++ leBytes 1 d.mgt.fuses.dbgState ++
    leBytes 1 (b2n d.mgt.debugOpen)
  | _ => leBytes 4 (d.regN Reg.TOLL_FW) ++ leBytes 4 (d.regN Reg.TOLL_FW_CRC) ++ leBytes 4 (d.regN Reg.TOLL_LOT_LO) ++ leBytes 4 (d.regN Reg.TOLL_LOT_HI)

def Dev.measure (d : Dev) (i : Nat) : List Byte := sha384of (d.measured i)

/-! SPDM (R480). Requesters: 0 to 3 the MCTP bindings, 16 + n the DOE of PF n. -/

def Dev.spdmAt (d : Dev) (port : Nat) : Nat := kvGet 0 d.mgt.spdm port
def Dev.setSpdm (d : Dev) (port n : Nat) : Dev := d.setMgt { d.mgt with spdm := kvPut port n d.mgt.spdm }

/-- A response: version 1.3, code, parameters, data. One longer than 4,096 bytes is fetched by CHUNK_GET. -/
def Dev.spdmSay (d : Dev) (port code p1 p2 : Nat) (data : List Byte) : Dev :=
  let m := leBytes 1 0x13 ++ leBytes 1 code ++ leBytes 1 p1 ++ leBytes 1 p2 ++ data
  if m.length ≤ 4096 then d.mctp port 5 m
  else (d.setMgt { d.mgt with chunkOut := kvPut port m d.mgt.chunkOut }).mctp port 5 [0x13, 0x7F, 0x0F, 0]

/-- An ERROR response: 1 InvalidRequest, 3 Busy, 4 UnexpectedRequest, 7 UnsupportedRequest, 0x0E SessionLimitExceeded. -/
def Dev.spdmErr (d : Dev) (port err : Nat) : Dev := d.spdmSay port 0x7F err 0 []

/-- A request needs the requester to have come this far. -/
def Dev.spdmNeed (d : Dev) (port stage : Nat) (act : Dev → Dev) : Dev :=
  if !d.mgt.fw ∨ !d.glb.planes.mgmtUp then d else if d.spdmAt port < stage then d.spdmErr port 4 else act d

/-- The alias key pair signs (R479): a key of the device secret and the loader and management firmware. -/
def Dev.aliasSign (d : Dev) (msg : List Byte) : List Byte :=
  primBytes 8 [primNat 0x29, primBytes 15 [primNat 3, d.mgt.fuses.secret, sha384of (d.measured 2 ++ d.measured 3)] 48, sha384of msg] 96

def Dev.certs (d : Dev) (slot : Nat) : List Byte := (d.bankAt d.mgt.bank).certs.getD slot []

/-- GET_VERSION: 1.2 and 1.3; it starts the exchange again. -/
def Dev.spdmVersion (d : Dev) (port : Nat) : Dev :=
  d.spdmNeed port 0 fun d =>
    (d.setSpdm port 1).mctp port 5 ([0x10, 0x04, 0, 0, 0, 2] ++ leBytes 2 0x1200 ++ leBytes 2 0x1300)

/-- GET_CAPABILITIES: CERT, CHAL, MEAS with signature, ENCRYPT, MAC, KEY_EX, HBEAT, KEY_UPD, CHUNK. -/
def Dev.spdmCaps (d : Dev) (port version : Nat) : Dev :=
  d.spdmNeed port 1 fun d =>
    if version ≠ 0x12 ∧ version ≠ 0x13 then d.spdmErr port 0x41
    else (d.setSpdm port (max 2 (d.spdmAt port))).spdmSay port 0x61 0 0 ([0, 0, 0, 0] ++ leBytes 4 0x000262F6 ++ leBytes 4 4096 ++ leBytes 4 4096)

/-- NEGOTIATE_ALGORITHMS: ECDSA P-384, SHA-384, secp384r1, AES-256-GCM, or nothing in common. `base`, `hash`, `dhe`, `aead`: what the requester offers. -/
def Dev.spdmAlgs (d : Dev) (port : Nat) (base hash dhe aead : Nat) : Dev :=
  d.spdmNeed port 2 fun d =>
    let has := fun (m bit : Nat) => decide (m / 2 ^ bit % 2 = 1)
    if !(has base 7 && has hash 1 && has dhe 4 && has aead 1) then d.spdmErr port 1
    else (d.setSpdm port 3).spdmSay port 0x63 0 0 (leBytes 4 0x80 ++ leBytes 4 2 ++ leBytes 2 0x10 ++ leBytes 2 2)

def Dev.spdmDigests (d : Dev) (port : Nat) : Dev :=
  d.spdmNeed port 3 fun d => d.spdmSay port 0x01 0 3 (sha384of (d.certs 0) ++ sha384of (d.certs 1))

/-- GET_CERTIFICATE: a part of a chain. -/
def Dev.spdmCert (d : Dev) (port slot off len : Nat) : Dev :=
  d.spdmNeed port 3 fun d =>
    let c := d.certs slot
    if 1 < slot ∨ c.length ≤ off then d.spdmErr port 1
    else
      let n := min len (c.length - off)
      d.spdmSay port 0x02 slot 0 (leBytes 2 n ++ leBytes 2 (c.length - off - n) ++ slice c off n)

/-- CHALLENGE: signed with the slot 0 alias key. -/
def Dev.spdmChallenge (d : Dev) (port slot : Nat) (nonce : List Byte) : Dev :=
  d.spdmNeed port 3 fun d =>
    if slot ≠ 0 then d.spdmErr port 1
    else
      let (n, d) := d.draw
      let body := sha384of (d.certs 0) ++ freeBytes n 32
      d.spdmSay port 0x03 0 1 (body ++ d.aliasSign (fitTo 32 nonce ++ body))

/-- GET_MEASUREMENTS: index 0 their number, 1 to 9 one, 0xFF all; signed when asked. -/
def Dev.spdmMeasure (d : Dev) (port index : Nat) (sign : Bool) (nonce : List Byte) : Dev :=
  d.spdmNeed port 3 fun d =>
    let one := fun (i : Nat) => leBytes 1 i ++ leBytes 1 1 ++ leBytes 2 51 ++ leBytes 1 0 ++ leBytes 2 48 ++ d.measure i
    if index ≠ 0 ∧ 9 < index ∧ index ≠ 0xFF then d.spdmErr port 1
    else
      let recs := if index = 0 then [] else if index = 0xFF then (List.range 9).flatMap (fun i => one (i + 1)) else one index
      let body := leBytes 1 (if index = 0 then 0 else if index = 0xFF then 9 else 1) ++ leBytes 3 recs.length ++ recs
      d.spdmSay port 0x60 (if index = 0 then 9 else 0) 0 (body ++ (if sign then d.aliasSign (fitTo 32 nonce ++ body) else []))

/-- KEY_EXCHANGE: at most 4 sessions. -/
def Dev.spdmKeyEx (d : Dev) (port slot : Nat) (exchange : List Byte) : Dev :=
  d.spdmNeed port 3 fun d =>
    if slot ≠ 0 then d.spdmErr port 1
    else if 4 ≤ d.mgt.sessions.length then d.spdmErr port 0x0E
    else
      let id := d.mgt.nextSession
      let (n, d) := d.draw
      let body := leBytes 2 id ++ freeBytes n 96
      (d.setMgt { d.mgt with sessions := d.mgt.sessions ++ [{ id := id, port := port }], nextSession := id + 1 }).spdmSay port 0x64 0 0
        (body ++ d.aliasSign (fitTo 96 exchange ++ body))

def Dev.spdmSession (d : Dev) (port id : Nat) (up : Bool) (act : SpdmSession → Dev) : Dev :=
  d.spdmNeed port 3 fun d =>
    match d.mgt.sessions.find? (fun s => decide (s.id = id ∧ s.port = port) && (s.up == up)) with
    | some s => act s
    | none => d.spdmErr port 4

def Dev.putSession (d : Dev) (s : SpdmSession) : Dev :=
  d.setMgt { d.mgt with sessions := d.mgt.sessions.map (fun (x : SpdmSession) => if x.id = s.id then s else x) }
def Dev.dropSession (d : Dev) (id : Nat) : Dev :=
  d.setMgt { d.mgt with sessions := d.mgt.sessions.filter (fun (x : SpdmSession) => decide (x.id ≠ id)) }

/-- FINISH: the requester's verification data hold, or the session ends. -/
def Dev.spdmFinish (d : Dev) (port id : Nat) (verify : List Byte) : Dev :=
  d.spdmSession port id false fun s =>
    if Config.primOk 16 [primNat id, verify] then (d.putSession { s with up := true }).spdmSay port 0x65 0 0 []
    else (d.dropSession id).spdmErr port 6

def Dev.spdmHeartbeat (d : Dev) (port id : Nat) : Dev := d.spdmSession port id true fun _ => d.spdmSay port 0x68 0 0 []

/-- KEY_UPDATE: 1 update key, 2 update all keys, 3 verify new key. -/
def Dev.spdmKeyUpdate (d : Dev) (port id op tag : Nat) : Dev :=
  d.spdmSession port id true fun s =>
    if op = 0 ∨ 3 < op then d.spdmErr port 1
    else (if op = 3 then d else d.putSession { s with keys := s.keys + 1 }).spdmSay port 0x69 op tag []

def Dev.spdmEnd (d : Dev) (port id : Nat) : Dev := d.spdmSession port id true fun _ => (d.dropSession id).spdmSay port 0x6C 0 0 []

/-- CHUNK_SEND: a part of a large request; the last one ends the transfer. -/
def Dev.spdmChunkSend (d : Dev) (port seq : Nat) (last : Bool) (data : List Byte) : Dev :=
  d.spdmNeed port 2 fun d =>
    let old := if seq = 0 then [] else kvGet [] d.mgt.chunkIn port
    let b := old ++ data
    if 4096 < b.length then (d.setMgt { d.mgt with chunkIn := kvDel port d.mgt.chunkIn }).spdmErr port 1
    else (d.setMgt { d.mgt with chunkIn := if last then kvDel port d.mgt.chunkIn else kvPut port b d.mgt.chunkIn }).spdmSay port 0x05 0 0 (leBytes 2 seq)

/-- CHUNK_GET: the next part of a large response. -/
def Dev.spdmChunkGet (d : Dev) (port seq : Nat) : Dev :=
  d.spdmNeed port 2 fun d =>
    let b := kvGet [] d.mgt.chunkOut port
    if b.isEmpty then d.spdmErr port 4
    else
      let rest := b.drop 1024
      (d.setMgt { d.mgt with chunkOut := if rest.isEmpty then kvDel port d.mgt.chunkOut else kvPut port rest d.mgt.chunkOut }).spdmSay port 0x06
        (b2n rest.isEmpty) 0 (leBytes 2 seq ++ leBytes 4 (min 1024 b.length) ++ b.take 1024)

/-! PLDM (R471, R478). -/

/-- GetSensorReading: 1 to 12 temperatures, 21 to 32 powers; 0x80 is an invalid sensor. -/
def Dev.pldmSensor (d : Dev) (port id : Nat) : Dev :=
  if 1 ≤ id ∧ id ≤ 12 then d.mctp port 1 ([0] ++ leBytes 4 (tempWord (d.mgt.temps.getD (id - 1) 0)).toNat)
  else if 21 ≤ id ∧ id ≤ 32 then d.mctp port 1 ([0] ++ leBytes 4 (d.mgt.powers.getD (id - 21) 0))
  else d.mctp port 1 [0x80]

/-- Write and verify components one after the other; none: one failed. -/
def Dev.stageImages (d : Dev) (b : Nat) : List FwImage → Option Dev
  | [] => some d
  | x :: r =>
    let x' : FwImage := { x with header := fitTo 8192 x.header }
    if d.mgt.fuses.valid x' ∧ 1 ≤ x'.kind ∧ x'.kind ≤ 5 then
      (d.setFwBank b { d.bankAt b with images := kvPut x'.kind x' (d.bankAt b).images }).stageImages b r
    else none

/-- PLDM_FIRMWARE_UPDATE (R478): into the bank that was not booted; its descriptor is invalid until the last step. -/
def Dev.pldmUpdate (d : Dev) (port : Nat) (comps : List (List Byte × List Byte)) (certs : Option (List (List Byte))) : Dev :=
  if !d.glb.planes.mgmtUp then d
  else
    let run := d.bankAt d.mgt.bank
    let b := 1 - d.mgt.bank
    let d := d.setFwBank b { d.bankAt b with valid := false }
    match d.stageImages b (comps.map (fun c => { header := c.1, body := c.2 })) with
    | none => d.emit (.message 0x101 port [0x02])
    | some d =>
      let given := comps.map (fun c => leAt c.1 6 1)
      let x := d.bankAt b
      let imgs := run.images.foldl (fun (m : Kv FwImage) i => if given.contains i.1 then m else kvPut i.1 i.2 m) x.images
      let d := d.setFwBank b { valid := true, bseq := (run.bseq + 1) % 2 ^ 32, images := imgs, certs := certs.getD run.certs }
      ((d.setBit Reg.MGT_GSTAT 1).pfEvent (d.regFld Reg.MGT_EVT_CFG 3 0) { type := 0x181 }).emit (.message 0x101 port [0x00])

/-- PLDM_ACTIVATE_FIRMWARE: self-contained activation restarts the management controller from the boot ROM. -/
def Dev.pldmActivate (d : Dev) (port : Nat) : Dev :=
  if !d.glb.planes.mgmtUp ∨ !d.mgt.fw then d
  else
    let d := d.mctp port 1 [0x00]
    Dev.setMgt { d with glb := { d.glb with planes := { d.glb.planes with mgmtUp := false } } }
      { d.mgt with fw := false, spdm := [], sessions := [], chunkIn := [], chunkOut := [], smb := [] }

/-- MGMT_RESTART_DONE: the controller runs again, from the boot ROM on (R18, R478). -/
def Dev.mgmtRestarted (d : Dev) : Dev :=
  if d.glb.planes.mgmtUp then d
  else
    let d := { d with glb := { d.glb with planes := { d.glb.planes with mgmtUp := true } } }
    let d := d.romBoot
    (d.setMgt { d.mgt with mixed := d.mgt.fw && decide (d.mgt.bank ≠ d.mgt.ctlBank) }).bootStat d.mgt.fw

/-! Debug policy (R482, R483). -/

def Dev.debugPort (d : Dev) : Bool := decide (d.mgt.fuses.dbgState = 0) || d.mgt.debugOpen

/-- R482: the KWK, the key cache and the whole key store are zeroised; contexts lose their keys with them. -/
def Dev.zeroKeys (d : Dev) : Dev :=
  let d := d.cry.slots.foldl (fun d s => d.zeroSlot s.1) d
  d.setCry { d.cry with ctxs := d.cry.ctxs.map (fun c => (c.1, { c.2 with st := 4, cur := {}, next := none, prev := none, rekey := none })) }

/-- DEBUG_AUTH_CHALLENGE: an answered challenge: the public key whose hash is fused, and the signature over the challenge. -/
def Dev.debugAuth (d : Dev) (key sig challenge : List Byte) : Dev :=
  if d.mgt.fuses.dbgState ≠ 1 ∨ d.mgt.debugOpen then d
  else if sha384of key ≠ d.mgt.fuses.dbgKey ∨ !Config.primOk 10 [primNat 0x16, key, challenge, sig] then d
  else
    let d := d.zeroKeys
    let ok := d.regBit Reg.MGT_BOOT_STAT 0
    (d.setMgt { d.mgt with debugOpen := true }).bootStat ok

/-- JTAG_INSTRUCTION: what the TAP selects; IDCODE shifts the code out. -/
def Dev.jtagInst (d : Dev) (i : JtagInst) : Dev :=
  let i := match i with
    | .other c => if d.debugPort then .other c else .bypass
    | x => x
  let d := d.setMgt { d.mgt with jtag := i }
  if i = .idcode then d.emit (.message 0x180 0 (leBytes 4 0x13216BC7)) else d

/-! Admin commands (R485). -/

/-- R477: the lowest SVN among the running loader, management and control firmware. -/
def Dev.runSvn (d : Dev) : Nat :=
  let svn := fun (b k : Nat) => (kvFind k (d.bankAt b).images).elim 0 FwImage.svn
  min (svn d.mgt.bank 1) (min (svn d.mgt.bank 2) (svn d.mgt.ctlBank 4))

def mgtSvnCommit (e : AdmEntry) (d : Dev) : AdmRes :=
  admChecks [d.notPriv e] fun _ =>
    let n := max d.mgt.fuses.svn (min 64 d.runSvn)
    .done ((d.setMgt { d.mgt with fuses := { d.mgt.fuses with svn := n } }).setReg Reg.ID_SVN (BitVec.ofNat 32 n)) n

def mgtMeasureRead (e : AdmEntry) (d : Dev) : AdmRes :=
  admChecks [d.notPriv e, (decide (e.len < 432), St.RANGE, rangeAt 0 32)] fun _ =>
    .done d 0 432 ((List.range 9).flatMap (fun i => d.measure (i + 1)))

def execSensorSample (temps : List Int) (powers : List Nat) (s : State) := s.runAon (·.sensorSample temps powers)
def execBootRomStart (s : State) := s.runAon (fun d => if d.mgt.fw then d else d.romBoot)
def execFirmwareReady (cores : List (Nat × List Byte)) (crossing : Option (List Byte)) (regs : List (Nat × Word)) (lock entropy : Bool) (s : State) :=
  s.run (·.firmwareReady cores crossing regs lock entropy)
def execSetEndpointId (port op eid : Nat) (s : State) := s.runAon (·.setEid port op eid)
def execGetEndpointId (port : Nat) (s : State) := s.runAon (·.getEid port)
def execGetEndpointUuid (port : Nat) (s : State) := s.runAon (·.getUuid port)
def execGetMctpVersionSupport (port type : Nat) (s : State) := s.runAon (·.getVersions port type)
def execGetMessageTypeSupport (port : Nat) (s : State) := s.runAon (·.getTypes port)
def execGetVendorMessageSupport (port selector : Nat) (s : State) := s.runAon (·.getVendor port selector)
def execSpdmGetVersion (port : Nat) (s : State) := s.runAon (·.spdmVersion port)
def execSpdmGetCapabilities (port version : Nat) (s : State) := s.runAon (·.spdmCaps port version)
def execSpdmNegotiateAlgorithms (port base hash dhe aead : Nat) (s : State) := s.runAon (·.spdmAlgs port base hash dhe aead)
def execSpdmGetDigests (port : Nat) (s : State) := s.runAon (·.spdmDigests port)
def execSpdmGetCertificate (port slot off len : Nat) (s : State) := s.runAon (·.spdmCert port slot off len)
def execSpdmChallenge (port slot : Nat) (nonce : List Byte) (s : State) := s.runAon (·.spdmChallenge port slot nonce)
def execSpdmGetMeasurements (port index : Nat) (sign : Bool) (nonce : List Byte) (s : State) := s.runAon (·.spdmMeasure port index sign nonce)
def execSpdmKeyExchange (port slot : Nat) (exchange : List Byte) (s : State) := s.runAon (·.spdmKeyEx port slot exchange)
def execSpdmFinish (port id : Nat) (verify : List Byte) (s : State) := s.runAon (·.spdmFinish port id verify)
def execSpdmHeartbeat (port id : Nat) (s : State) := s.runAon (·.spdmHeartbeat port id)
def execSpdmKeyUpdate (port id op tag : Nat) (s : State) := s.runAon (·.spdmKeyUpdate port id op tag)
def execSpdmEndSession (port id : Nat) (s : State) := s.runAon (·.spdmEnd port id)
def execSpdmChunkSend (port seq : Nat) (last : Bool) (data : List Byte) (s : State) := s.runAon (·.spdmChunkSend port seq last data)
def execSpdmChunkGet (port seq : Nat) (s : State) := s.runAon (·.spdmChunkGet port seq)
def execPldmSensorRead (port id : Nat) (s : State) := s.runAon (·.pldmSensor port id)
def execPldmFirmwareUpdate (port : Nat) (comps : List (List Byte × List Byte)) (certs : Option (List (List Byte))) (s : State) :=
  s.runAon (·.pldmUpdate port comps certs)
def execPldmActivateFirmware (port : Nat) (s : State) := s.runAon (·.pldmActivate port)
def execDebugAuthChallenge (key sig challenge : List Byte) (s : State) := s.runAon (·.debugAuth key sig challenge)
def execJtagInstruction (inst : JtagInst) (s : State) := s.runAon (·.jtagInst inst)
def execSmbSclTimeout (s : State) := s.runAon (fun d => d.setMgt { d.mgt with smb := [] })
def execMgtSvnCommit (e : AdmEntry) (s : State) := s.run (·.admRun e 0x80 (mgtSvnCommit e))
def execMgtMeasureRead (e : AdmEntry) (s : State) := s.run (·.admRun e 0x81 (mgtMeasureRead e))
def execMgmtRestartDone (s : State) := s.runAon (·.mgmtRestarted)

end Sys2Proof.Machine
end

