-- ==== Sys2Proof/Machine/Power.lean ====
section
/-! DEFINITION. Power states and frequency caps (R513 to R520, R522, R524). -/

namespace Sys2Proof.Machine

def Dev.setPwr (d : Dev) (x : PwrPart) : Dev := { d with pwr := x }

/-! Frequency (R520, R522). -/

/-- R520: the device is paired as a twin. -/
def Dev.paired (d : Dev) : Bool := decide (2 ≤ d.twin.role)

/-- The CCLK of a cluster in MHz. -/
def Dev.cclkOf (d : Dev) (k : Nat) : Nat :=
  let p := d.pwr
  let spare := d.paired && decide (k = 15)
  let dim := if p.state = 1 ∧ !spare then d.regFld Reg.PWR_CFG 27 16 else 2000
  max 800 (min dim (if spare then p.cap15 else min p.thermal p.powerCap))

/-- The clusters take their CCLK; a cap that lowers one is noted; with AVS_EN the voltage target follows a fused table that the spec
does not give (a free value, log 48). -/
def Dev.cclkApply (d : Dev) : Dev :=
  let new := (List.range 16).map d.cclkOf
  if new = d.pwr.cclk then d
  else
    let lower := (new.zip d.pwr.cclk).any (fun (x : Nat × Nat) => decide (x.1 < x.2))
    let d := d.setPwr { d.pwr with cclk := new }
    let d := (List.range 16).foldl (fun (d : Dev) k => d.setReg (Reg.CORE_CL_FREQ k) (packW [(new.getD k 0, 0)])) d
    let d := d.setReg Reg.PWR_CCLK_CAP (packW [(new.getD 0 0, 0)])
    let d := if d.regBit Reg.PWR_CFG 2 then
        let (n, d) := d.draw
        d.setReg Reg.PWR_VCORE (packW [(650 + 5 * (Config.freeNat n 0 % 41), 0)])
      else d
    if lower then d.setBit Reg.PWR_GSTAT 2 else d

/-- R520: one step of a cap down, or up. Cluster 15 of a paired device goes down only after the others have reached 800 MHz, and up
before them; a device that is not paired has no exempt cluster. -/
def Dev.capStep (d : Dev) (down : Bool) (get : PwrPart → Nat) (put : PwrPart → Nat → PwrPart) : Dev :=
  let p := d.pwr
  let v := get p
  let next := if down then max 800 (v - 100) else min 2000 (v + 100)
  let p' :=
    if !d.paired then put { p with cap15 := 2000 } next
    else if down then (if v ≤ 800 then { p with cap15 := max 800 (p.cap15 - 100) } else put p next)
    else if p.cap15 < 2000 then { p with cap15 := p.cap15 + 100 }
    else put p next
  (d.setPwr p').cclkApply

/-- THERMAL_CAP_STEP: 1 ms at MGT_TEMP_CRIT, or 10 ms below it by 5 °C, has passed. -/
def Dev.thermalStep (d : Dev) : Dev :=
  let crit := tempOf (d.reg Reg.MGT_TEMP_CRIT)
  let step := fun down => d.capStep down (·.thermal) (fun p v => { p with thermal := v })
  if d.pwr.stopC then d
  else if d.mgt.temps.any (fun t => decide (crit ≤ t)) then step true
  else if d.mgt.temps.all (fun t => decide (t < crit - 40)) then step false
  else d

/-- POWER_CAP_STEP: against sensor 32; no cap while PWR_CAP is 0. The 5 °C of the thermal cap have no counterpart (DEDUCED, log 48). -/
def Dev.powerStep (d : Dev) : Dev :=
  let cap := 1000 * d.regFld Reg.PWR_CAP 8 0
  let mw := d.mgt.powers.getD 11 0
  if d.pwr.stopC then d
  else if cap = 0 then (d.setPwr { d.pwr with powerCap := 2000 }).cclkApply
  else d.capStep (decide (cap ≤ mw)) (·.powerCap) (fun p v => { p with powerCap := v })

/-! Dim (R514). -/

def Dev.archiveIdle (d : Dev) : Bool := d.arc.works.isEmpty

/-- DIM_ENTER: the conditions have held for DIM_DWELL. -/
def Dev.dimEnter (d : Dev) : Dev :=
  if d.pwr.state ≠ 0 ∨ !d.regBit Reg.PWR_CFG 0 ∨ !d.archiveIdle ∨ d.cpu.cores.any (fun (c : Nat × Core) => decide (64 < c.2.hq.length)) then d
  else (d.pwrState 1).cclkApply

/-- DIM_EXIT: a condition that ends Dim has arisen. -/
def Dev.dimExit (d : Dev) : Dev := if d.pwr.state = 1 then (d.pwrState 0).cclkApply else d

/-! Quiet (R515 to R518). -/

/-- R515, as far as the device's own state shows it; the dwell and the frames sent are the command's. -/
def Dev.quietMay (d : Dev) : Bool :=
  decide (d.pwr.state ≤ 1) && d.regBit Reg.PWR_CFG 1 &&
    (List.range 16).all (fun n => d.fnD3 (.pf n) || !(d.hifPort (n / 8)).linkUp) &&
    d.dma.chans.all (fun (c : Nat × Chan) => decide (c.2.st = 0)) && d.archiveIdle && d.cry.hsQueue.isEmpty && d.cry.hsRun.isEmpty &&
    d.cpu.cores.all (fun (c : Nat × Core) => c.2.hq.isEmpty) && decide (d.twin.role = 0) && d.fab.ops.isEmpty && d.fab.restart.isNone

/-- QUIET_ENTER (R516): LEAVE, which forwarding still sends; no more admission; parked cores' tokens take their fate; the clocks stop, and
the Square holds pool 19 alone (R513). -/
def Dev.quietEnter (d : Dev) : Dev :=
  if !d.quietMay then d
  else
    let d := d.fabLeave
    let d := (d.sq.pkts.filter (fun (e : Nat × Packet) => decide (e.2.pool = 19 ∧ e.2.stage = .classified))).foldl
      (fun (d : Dev) (e : Nat × Packet) => d.forward e.1 default) d
    let d := (d.cpu.cores.map (·.1)).foldl (fun (d : Dev) (n : Nat) => d.coreFates n) d
    let d := (d.sq.pkts.filter (fun (e : Nat × Packet) => decide (e.2.pool ≠ 19))).foldl (fun (d : Dev) (e : Nat × Packet) => (d.excTaken e.1).dropPkt e.1) d
    let ports := d.port.ports.foldl (fun (m : Kv Port) (e : Nat × Port) =>
      kvSet {} e.1 { e.2 with txq := e.2.txq.filter (fun t => (d.pkt t).isSome) } m) d.port.ports
    let d : Dev := { d with port := { d.port with ports := ports }, cls := { d.cls with reentryQ := [] } }
    (d.setPwr { d.pwr with stopC := true, stopP := true, stopE := true, stopK := true, quietAt := d.nowNs }).pwrState 2

/-- QUIET_EXIT_DONE (R518): every core is restarted from its slot, the clocks run, STATE is FULL, and the fabric agent joins again. -/
def Dev.quietDone (d : Dev) : Dev :=
  if d.pwr.state ≠ 4 then d
  else
    let ms := (d.nowNs - d.pwr.quietAt) / 1000000
    let d := (d.setPwr { d.pwr with stopC := false, stopP := false, stopE := false, stopK := false }).pwrState 0
    let d := ((d.count Reg.PWR_QUIET_CNT).countN Reg.PWR_QUIET_MS ms).restartCores
    let d := (d.cpu.cores.map (·.1)).foldl (fun (d : Dev) (n : Nat) => d.coreStarted n) d
    d.cclkApply.fabStart

/-- PWR_WAKE. -/
def Dev.pwrWake (d : Dev) (pf : Nat) (v : Word) : Dev :=
  d.bar0Write pf Reg.PWR_WAKE fun d => if !bitOf v 0 then d else if d.pwr.state = 1 then d.dimExit else d.wakeFrom 4

/-- PWR_WAKE_PEER (R524): it completes when the frame is sent; a frame that a full queue drops is told at once (log 48). -/
def pwrWakePeer (e : AdmEntry) (d : Dev) : AdmRes :=
  admChecks [d.notPriv e, (!d.regBit Reg.SVB_CFG 0, St.STATE, 0)] fun _ =>
    let n := d.port.svb.txq.length
    let d := d.fabBus 0x30 (beBytes 16 (e.d4.toNat * 2 ^ 64 + e.d3.toNat))
    if d.port.svb.txq.length = n then .done d
    else .wait (d.setSvb { d.port.svb with txq := d.port.svb.txq.modify n (fun x => (x.1, some e)) })

/-! The commands. -/

def execDimEnter (s : State) := s.run (·.dimEnter)
def execDimExit (s : State) := s.run (·.dimExit)
def execQuietEnter (s : State) := s.run (·.quietEnter)
def execQuietExit (src : Nat) (s : State) := s.run (fun d => if 1 ≤ src ∧ src ≤ 5 then d.wakeFrom src else d)
def execQuietExitDone (s : State) := s.run (·.quietDone)
def execPwrWake (pf : Nat) (value : Word) (s : State) := s.run (·.pwrWake pf value)
def execThermalCapStep (s : State) := s.run (·.thermalStep)
def execPowerCapStep (s : State) := s.run (·.powerStep)
def execPwrWakePeer (e : AdmEntry) (s : State) := s.run (·.admRun e 0x88 (pwrWakePeer e))

end Sys2Proof.Machine
end

