-- ==== Sys2Proof/Machine/Regs.lean ====
section
/-! DEFINITION. What every register of BAR0 reads (R36, R70, R103, R104, R145 to R147, R169, R170, R193, R194, R225, R261, R289, R318,
R346, R383, R384, R408, R435, R457, R458, R486, R504, R505, R525, R565), the MSI-X table, and the BAR0 of a VF (R305, R306, R553,
R554). A register that shows state held elsewhere is computed here; every other one is the word stored at its offset. -/

namespace Sys2Proof.Machine

/-- The index of an offset in a run of `count` registers that begins at `base`. -/
def regIdx (base stride count off : Nat) : Option Nat :=
  if base ≤ off ∧ (off - base) % stride = 0 ∧ (off - base) / stride < count then some ((off - base) / stride) else none

/-- A position as LAP and index. -/
def posWord (pos log2 : Nat) : Word := BitVec.ofNat 32 (lapIdx pos log2)

/-- Word i of a 64-bit value, little-endian. -/
def halfOf (v : Nat) (hi : Bool) : Word := BitVec.ofNat 32 (if hi then v / 2 ^ 32 else v)

/-! The device's frame and the host ports. -/

def Dev.glbWord (d : Dev) (off : Nat) : Word :=
  if off = Reg.GLB_SQ_FREE then BitVec.ofNat 32 (d.sq.free - d.sq.reserve)
  else if off = Reg.GLB_ADM_JSEQ then BitVec.ofNat 32 d.glb.admSeq
  else if off = Reg.GLB_TBL_JSEQ then BitVec.ofNat 32 d.glb.tblSeq
  else match regIdx 0x1200 4 20 off with
    | some n => BitVec.ofNat 32 (d.sq.pool n).used
    | none => d.reg off

/-- A register of the block of host port p, at offset k in it. -/
def Dev.hifWord (d : Dev) (p k : Nat) : Word :=
  let x := d.hifPort p
  if k = 0 then packW [(0x3216, 16), (0xB0, 8), (x.ups, 0)]
  else if k = 4 then if x.linkUp then packW [(b2n x.flit, 9), (x.width, 4), (x.speed, 0)] else 0#32
  else if k = 0x14 then packW [((x.tags.filter (fun (t : Nat × Tag) => t.2.quarantined)).length, 16), (d.outstanding p, 0)]
  else d.reg (0x100000 + p * 0x10000 + k)

/-! Tenancies (R103, R104). -/

def Dev.tenWord (d : Dev) (t k : Nat) : Word :=
  let x := d.tenGet t
  if k = 0 then
    packW [(b2n (x.log.elim false (fun l => !l.stopped)), 7), (b2n (decide (x.st ≠ 0 ∧ x.share.weight = 0 ∧ x.share.floor = 0)), 6), (x.st, 0)]
  else if k = 4 then x.binding.elim 0#32 (fun b => packW [(x.owner, 28), (b2n b.isVf, 27), (b.vf, 17), (b.slot, 12)])
  else if k = 8 then x.pasid.elim 0#32 (fun p => packW [(1, 31), (p, 0)])
  else if k = 0xC then x.gen
  else if k = 0x10 then packW [(x.share.weight, 0)]
  else if k = 0x14 then packW [(x.share.ceiling, 16), (x.share.floor, 0)]
  else if k = 0x24 then BitVec.ofNat 32 x.epoch
  else d.reg (0x210000 + t * 0x40 + k)

/-! Rings (R145 to R147). -/

def Dev.cqWord (d : Dev) (c k : Nat) : Word :=
  match kvFind c d.ring.cqs with
  | none => 0#32
  | some x =>
    if k = 0 then packW [(x.state, 29), (x.stash.length, 17), (lapIdx x.write x.log2, 0)]
    else packW [(x.ten, 20), (x.loc, 11), (b2n x.evt, 10), (b2n x.retas, 7), (x.log2, 0)]

def Dev.sqWord (d : Dev) (q k : Nat) : Word :=
  match kvFind q d.ring.sqs with
  | none => 0#32
  | some x =>
    if k = 0 then packW [(x.state, 29), (b2n x.failed, 28), (x.cache.length, 17), (lapIdx x.tail x.log2, 0)]
    else if k = 4 then posWord x.started x.log2
    else if k = 8 then posWord x.published x.log2
    else d.reg (0x500000 + q * 16 + k)

/-- A global or admin register of the PF's own copy, at offset k. -/
def Dev.admWord (d : Dev) (pf k : Nat) : Word :=
  if k = 0x11C then posWord (d.admGet pf).started (d.admSqLog2 pf) else d.reg (0x400000 + k + pf * 0x4000000)

/-! Copy channels (R169, R170). -/

def Dev.dmaWord (d : Dev) (off : Nat) : Word :=
  if off = Reg.DMA_BUSY then BitVec.ofNat 32 (d.dma.chans.filter (fun (c : Nat × Chan) => decide (c.2.st ≠ 0))).length
  else match regIdx 0x600020 4 8 off with
    | some i => packW ((List.range 32).map (fun j => (b2n (decide (((kvFind (32 * i + j) d.dma.chans).getD {}).st = 3)), j)))
    | none => d.reg off

def Dev.chanWord (d : Dev) (n k : Nat) : Word :=
  let c := (kvFind n d.dma.chans).getD {}
  if k = 0 then packW [(c.st, 29), (min c.doneD 0xFFFF, 0)]
  else if k = 4 then packW [(c.tag, 16), (c.sq, 0)]
  else if k = 8 then packW [(c.ten, 0)]
  else if k = 0xC then BitVec.ofNat 32 c.done
  else d.reg (0x610000 + n * 0x40 + k)

/-! Ports (R189, R193, R194). -/

def Dev.portStat (d : Dev) (p : Nat) : Word :=
  let x := d.netPort p
  packW [(d.portType p, 12), (if x.link then x.dim.txW else 0, 8), (b2n (x.dim.prop.isSome || x.dim.rest.isSome || x.dim.target.isSome), 6),
    (b2n x.dim.wiwald, 5), (b2n (x.lpiTx || x.lpiRx), 4), (b2n (d.lpiCap p), 3), (b2n x.remoteFault, 2), (b2n x.localFault, 1), (b2n x.link, 0)]

def Dev.portWord (d : Dev) (p k : Nat) : Word :=
  if k = 4 then d.portStat p
  else if 0x800 ≤ k ∧ k < 0xB00 then halfOf (kvGet 0 (d.netPort p).bank ((k - 0x800) / 8)) (decide (k % 8 = 4))
  else d.reg (0x810000 + p * 0x1000 + k)

def Dev.svbWord (d : Dev) (off : Nat) : Word :=
  let x := d.port.svb
  if off = Reg.SVB_STAT then
    packW [(b2n (x.plcaActive && decide (d.regFld Reg.SVB_PLCA 7 0 = 0)), 2), (b2n x.plcaActive, 1), (b2n x.link, 0)]
  else d.reg off

/-! The Crossing and forwarding (R225, R261). -/

/-- R210: groups whose leading entry is valid. -/
def Dev.tcamUsed (d : Dev) : Nat := (d.cls.tcam.filter (fun (e : Nat × TcamEntry) => e.2.v && d.isLead e.1)).length

def Dev.clsWord (d : Dev) (off : Nat) : Word :=
  let a := d.cls.active
  let has := fun (b : Nat) => b2n (d.cls.banks.getD b none).isSome
  if off = Reg.CLS_IMAGE_STAT then packW [(has a, 2), (has (1 - a), 1), (a, 0)]
  else if off = Reg.TCAM_USED then BitVec.ofNat 32 d.tcamUsed
  else if 0xA02000 ≤ off ∧ off < 0xA03000 ∧ 0x10 ≤ off % 0x40 ∧ off % 0x40 < 0x30 then
    halfOf ((d.rset ((off - 0xA02000) / 0x40)).bank.getD ((off % 0x40 - 0x10) / 8) 0) (decide (off % 8 = 4))
  else d.reg off

/-- The line table of FWD_ENTRIES_k. -/
def lineTable (k : Nat) : Nat := if k = 0 then 1 else if k = 1 then 2 else 6

def Dev.fwdReg (d : Dev) (off : Nat) : Word :=
  if off = Reg.FWD_TICK_NOW then BitVec.ofNat 32 d.fwd.now
  else if off = Reg.FWD_GSTAT then d.reg off ||| packW [(b2n (!d.fwd.rehash.isEmpty), 1)]
  else match regIdx 0xC0010C 0x20 3 off with
    | some k =>
      let x := d.desc (lineTable k)
      if x.v then BitVec.ofNat 32 ((d.tblLines x).filter (fun a => lnV (d.line a))).length else 0#32
    | none => d.reg off

/-! Keys, archive, cores (R289, R346, R383, R384). -/

def Dev.cryWord (d : Dev) (off : Nat) : Word :=
  let c := d.cry
  if off = Reg.CRY_RNG_STAT then packW [(b2n c.apt, 3), (b2n c.rct, 2), (b2n c.failed, 1), (b2n c.running, 0)]
  else if off = Reg.CRY_SLOTS_USED then BitVec.ofNat 32 c.slots.length
  else if off = Reg.CRY_HS_QUEUED then BitVec.ofNat 32 (min 1024 c.hsQueue.length)
  else d.reg off

def Dev.arcWord (d : Dev) (off : Nat) : Word :=
  let a := d.arc
  if off = Reg.ARC_STAGE_BASE_LO then halfOf a.stageBase false
  else if off = Reg.ARC_STAGE_BASE_HI then halfOf a.stageBase true
  else if off = Reg.ARC_STAGE_SIZE then BitVec.ofNat 32 (a.stageSize / 2 ^ 20)
  else if off = Reg.ARC_STAGE_FREE then BitVec.ofNat 32 ((a.stageSize - d.stageUsed) / 2 ^ 20)
  else if off = Reg.ARC_JOBS then BitVec.ofNat 32 (a.works.filter (fun w => w.granted)).length
  else if off = Reg.ARC_JOURNAL_SEQ then BitVec.ofNat 32 a.seq
  else d.reg off

def Dev.coreWord (d : Dev) (n k : Nat) : Word :=
  let c := d.core n
  if k = 0 then
    packW ([(b2n c.frozen, 31), (c.cause, 28), (c.held.length, 16)] ++
      (List.range 8).map (fun i => (b2n (c.running && decide (i = 0 ∨ (c.threads.getD i {}).st ≠ 0)), i)))
  else if k = 4 then BitVec.ofNat 32 c.thrState
  else if k = 8 then BitVec.ofNat 32 c.slot
  else BitVec.ofNat 32 c.hq.length

def Dev.dbgWord (d : Dev) (off : Nat) : Word :=
  if off = Reg.CORE_DBG_STAT then packW [(b2n d.cpu.dbgErr, 1)]
  else if off = Reg.CORE_DBG_CTL then (d.reg off &&& 1#32) ||| packW [(b2n (d.core d.dbgCore).trace, 1)]
  else d.reg off

/-! Time (R408). -/

def Dev.timeWord (d : Dev) (off : Nat) : Word :=
  let t := d.time
  if off = Reg.TIME_STAT then packW [(b2n t.refLost, 3), (b2n t.locked, 2), (b2n (decide (t.carry ≠ 0)), 1), (b2n t.selB, 0)]
  else if off = Reg.TIME_CARRY_NS then BitVec.ofInt 32 (t.carry / nsUnit)
  else if off = Reg.TIME_CARRY_FRAC then BitVec.ofInt 32 (t.carry % nsUnit)
  else match regIdx 0x180101C 0x40 8 off, regIdx 0x1910004 0x40 16 off, regIdx 0x1910010 0x40 16 off with
    | some i, _, _ => d.reg off ||| packW [((d.tio i).caps.length, 8), (b2n (d.tio i).armed, 0)]
    | _, some p, _ => packW [(b2n (d.tt p).pend.isSome, 31), (b2n (d.tt p).oper.isSome, 30), ((d.tt p).cur, 16), (d.ttGates p, 0)]
    | _, _, some p => BitVec.ofNat 32 (d.tt p).lag
    | _, _, _ => d.reg off

/-! The fabric and the twins (R435, R457, R458). -/

def Dev.fabWord (d : Dev) (off : Nat) : Word :=
  let f := d.fab
  let t := d.twin
  if off = Reg.FAB_ADDR then d.fabAddr.elim 0#32 (fun a => packW [(1, 31), (a, 0)])
  else if off = Reg.FAB_STATE then packW [(b2n d.isRoot, 7), (b2n d.isQlead, 6), (b2n d.isGate, 5), (b2n d.isCoord, 4), (f.state, 0)]
  else if off = Reg.FAB_EPOCH_LO then halfOf f.epoch false
  else if off = Reg.FAB_EPOCH_HI then halfOf f.epoch true
  else if off = Reg.FAB_MEMBERS then BitVec.ofNat 32 f.total
  else if off = Reg.FAB_REACH then BitVec.ofNat 32 f.reach
  else if off = Reg.TWIN_STATE then packW [(b2n t.exercising, 11), (t.rank, 10), (t.mode, 8), (t.role, 0)]
  else if off = Reg.TWIN_PEER then if t.role = 0 then 0#32 else packW [(1, 31), (t.peer, 0)]
  else if off = Reg.TWIN_LEASE_LEFT then t.grantRx.elim 0#32 (fun g => BitVec.ofNat 32 (min 800 ((g + 800000 - d.nowNs) / 1000)))
  else match regIdx 0x1A00080 4 2 off with
    | some i => packW ((List.range 32).map (fun j => (b2n ((d.nbr (32 * i + j)).v && (d.nbr (32 * i + j)).up), j)))
    | none => d.reg off

/-! The Tollhouse's window (R504, R505). -/

/-- The public key of the Tollhouse (R495): the spec gives its length only. -/
def Dev.tollPubKey (d : Dev) : List Byte := primBytes 18 [d.uid] 1952

def Dev.tollWord (d : Dev) (off : Nat) : Word :=
  let t := d.toll
  let bytes := fun (b : List Byte) (base : Nat) => BitVec.ofNat 32 (leAt b (off - base) 4)
  if off = Reg.TOLL_STAT then
    packW [(b2n t.flashFault, 7), (b2n t.wrapped, 6), (b2n (decide (t.tamperCnt ≠ 0)), 5), (b2n t.tapUp, 4), (b2n t.signing.isSome, 3),
      (t.last, 2), (b2n t.sealed, 1), (b2n t.running, 0)]
  else if off = Reg.TOLL_METRE_LO then halfOf t.metre false
  else if off = Reg.TOLL_METRE_HI then halfOf t.metre true
  else if off = Reg.TOLL_RDG_SEQ then BitVec.ofNat 32 (t.rdgSeq - 1)
  else if off = Reg.TOLL_JSEQ then BitVec.ofNat 32 t.jseq
  else if off = Reg.TOLL_PARAM then packW [(t.checkS, 16), (t.periodMin, 0)]
  else if off = Reg.TOLL_LOT_LO then d.reg Reg.ID_LOT_LO
  else if off = Reg.TOLL_LOT_HI then d.reg Reg.ID_LOT_HI
  else if off = Reg.TOLL_TAMPER_CNT then BitVec.ofNat 32 t.tamperCnt
  else if off = Reg.TOLL_POWER_CNT then BitVec.ofNat 32 t.powerCnt
  else if off = Reg.TOLL_JLOST then BitVec.ofNat 32 t.jlost
  else if 0x2000030 ≤ off ∧ off < 0x2000040 then d.reg (Reg.ID_UID ((off - 0x2000030) / 4))
  else if 0x2000040 ≤ off ∧ off < 0x2000050 then bytes t.label 0x2000040
  else if 0x2010000 ≤ off ∧ off < 0x2010000 + 48 * 4097 then
    halfOf (t.count ((off - 0x2010000) / 48) ((off - 0x2010000) % 48 / 8)) (decide (off % 8 = 4))
  else if 0x2050000 ≤ off ∧ off < 0x20507A0 then bytes d.tollPubKey 0x2050000
  else if 0x2051000 ≤ off ∧ off < 0x2051080 then bytes (t.journal.getLast?.elim [] TollEntry.bytes) 0x2051000
  else if 0x2080000 ≤ off ∧ off < 0x2100000 then bytes (t.slots.getD 0 []) 0x2080000
  else if 0x2100000 ≤ off ∧ off < 0x2180000 then bytes (t.slots.getD 1 []) 0x2100000
  else d.reg off

/-! MSI-X table and PBA (R41, R44, R45, R568). -/

/-- Word k of the table of a function. -/
def Dev.msixWord (d : Dev) (f : Fn) (k : Nat) : Word :=
  let m := kvGet {} (d.fnGet f).msix (k / 4)
  if k % 4 = 0 then halfOf m.addr false
  else if k % 4 = 1 then halfOf m.addr true
  else if k % 4 = 2 then m.data
  else packW [(b2n m.mask, 0)]

/-- Word i of the PBA. -/
def Dev.pbaWord (d : Dev) (f : Fn) (i : Nat) : Word :=
  packW ((List.range 32).map (fun j => (b2n ((d.fnGet f).pba.any (fun p => decide (p.1 = 32 * i + j))), j)))

/-- A write of word k of the table; an entry unmasked sends what is pending (R568). -/
def Dev.msixWrite (d : Dev) (f : Fn) (k : Nat) (v : Word) : Dev :=
  let c := d.fnGet f
  let m := kvGet {} c.msix (k / 4)
  let put := fun (m : Msix) => d.fnPut f { c with msix := kvSet {} (k / 4) m c.msix }
  if k % 4 = 0 then put { m with addr := m.addr / 2 ^ 32 * 2 ^ 32 + v.toNat }
  else if k % 4 = 1 then put { m with addr := v.toNat * 2 ^ 32 + m.addr % 2 ^ 32 }
  else if k % 4 = 2 then put { m with data := v }
  else if bitOf v 0 then put { m with mask := true }
  else d.msixUnmask f (.unmaskVector (k / 4))

/-! Every register. -/

/-- What the register at an offset holds for a PF; a read's side effect is not part of it. -/
def Dev.regWord (d : Dev) (pf off : Nat) : Word :=
  if off < 0x100000 then d.glbWord off
  else if off < 0x120000 then d.hifWord ((off - 0x100000) / 0x10000) (off % 0x10000)
  else if 0x180000 ≤ off ∧ off < 0x1C0000 then d.msixWord (.pf pf) ((off - 0x180000) / 4)
  else if 0x1C0000 ≤ off ∧ off < 0x200000 then d.pbaWord (.pf pf) ((off - 0x1C0000) / 4)
  else if off = Reg.TEN_COUNT then BitVec.ofNat 32 d.liveTens.length
  else if off = Reg.TEN_FLOOR_SUM_0 then BitVec.ofNat 32 (d.floorSum 0 4096)
  else if off = Reg.TEN_FLOOR_SUM_1 then BitVec.ofNat 32 (d.floorSum 1 4096)
  else if 0x210000 ≤ off ∧ off < 0x250000 then d.tenWord ((off - 0x210000) / 0x40) (off % 0x40)
  else if 0x400000 ≤ off ∧ off < 0x480000 then d.admWord pf (off - 0x400000)
  else if 0x480000 ≤ off ∧ off < 0x500000 then d.cqWord ((off - 0x480000) / 8) (off % 8)
  else if 0x500000 ≤ off ∧ off < 0x600000 then d.sqWord ((off - 0x500000) / 16) (off % 16)
  else if 0x600000 ≤ off ∧ off < 0x610000 then d.dmaWord off
  else if 0x610000 ≤ off ∧ off < 0x614000 then d.chanWord ((off - 0x610000) / 0x40) (off % 0x40)
  else if 0x810000 ≤ off ∧ off < 0x820000 then d.portWord ((off - 0x810000) / 0x1000) (off % 0x1000)
  else if 0x980000 ≤ off ∧ off < 0xA00000 then d.svbWord off
  else if 0xA00000 ≤ off ∧ off < 0xC00000 then d.clsWord off
  else if 0xC00000 ≤ off ∧ off < 0xE00000 then d.fwdReg off
  else if 0xE00000 ≤ off ∧ off < 0x1000000 then d.cryWord off
  else if 0x1200000 ≤ off ∧ off < 0x1400000 then d.arcWord off
  else if 0x1401000 ≤ off ∧ off < 0x1403000 then d.coreWord ((off - 0x1401000) / 0x20) (off % 0x20)
  else if 0x1400000 ≤ off ∧ off < 0x1600000 then d.dbgWord off
  else if 0x1800000 ≤ off ∧ off < 0x1A00000 then d.timeWord off
  else if 0x1A00000 ≤ off ∧ off < 0x1C00000 then d.fabWord off
  else if 0x2000000 ≤ off then d.tollWord off
  else d.reg off

/-- The offset under which the word of a register is stored: a PF's own copy of the RING_ globals and admin registers lies apart (R145). -/
def regAt (pf off : Nat) : Nat := if 0x400000 ≤ off ∧ off < 0x480000 then off + pf * 0x4000000 else off

/-- A read of the register with its side effect: RC fields clear (R7). -/
def Dev.takeWord (d : Dev) (pf off : Nat) : Dev × Word :=
  let v := d.regWord pf off
  match regRow off with
  | some r =>
    let d := if r.rc = 0 then d else d.setReg (regAt pf off) (d.reg (regAt pf off) &&& ~~~r.rc)
    let d := match regIdx 0x1810014 0x40 16 off with
      | some p => d.setTime { d.time with txtsNew := d.time.txtsNew.filter (fun q => decide (q ≠ p)) }
      | none => d
    (d, v)
  | none => (d, v)

/-- R463: a read of the block of Wicket w by the master `id`, at offset k in it. The sender reads its own send buffer (R486: RW, log 40). -/
def Dev.wktRead (d : Dev) (id w k : Nat) : Dev :=
  let x := d.wkt w
  let off := 0x1C10000 + w * 0x100 + k
  if k = 0x4C then d.wktStat id w
  else
    d.bar0Read id off fun d =>
      let sender := decide (k < 0x4C)
      if k = 0x40 ∨ k = 0x50 ∨ !d.wktMay id w sender then (d.wktDeny id w false, 0#32)
      else if k < 0x40 then (d, d.reg off)
      else if k = 0x44 then (d, x.stat)
      else if k = 0x48 then (d, packW [(x.ackSeq, 16), (x.ackCode, 0)])
      else (d, BitVec.ofNat 32 (leAt x.snap (k - 0x80) 4))

/-- A 32-bit read of a PF's BAR0. -/
def Dev.readAt (d : Dev) (pf off : Nat) : Dev :=
  match regIdx 0x810020 0x1000 16 off, regIdx 0xA02000 0x40 64 off, regIdx 0x1801020 0x40 8 off with
  | some p, _, _ => d.portSnap pf p
  | _, some r, _ => d.rsetSnap pf r
  | _, _, some i => d.tioRead pf i
  | _, _, _ =>
    if off = Reg.TIME_SNAP then d.timeSnap pf
    else if 0x1C10000 ≤ off ∧ off < 0x1C20000 then d.wktRead pf ((off - 0x1C10000) / 0x100) (off % 0x100)
    else d.bar0Read pf off (fun d => d.takeWord pf off)

/-! The BAR0 of a VF (R305, R306, R553, R554). -/

/-- The tenancy in a slot of a VF. -/
def Dev.slotTen (d : Dev) (p v s : Nat) : Option Nat := d.pageTen (.vf p v) s

/-- The ring that VF_RING_SEL names: whether it is a completion ring, and its global number. -/
def Dev.vfRing (d : Dev) (p v : Nat) : Option (Bool × Nat) :=
  let sel := (d.fnGet (.vf p v)).vfRingSel
  (d.slotTen p v (fld sel 19 16)).bind (fun t =>
    if bitOf sel 20 then (d.cqAt t (fld sel 8 0)).map (fun x => (true, x.1)) else (d.sqAt t (fld sel 8 0)).map (fun x => (false, x.1)))

def Dev.vfWord (d : Dev) (p v off : Nat) : Word :=
  if off = 0 then d.reg Reg.ID_DEVICE
  else if off = 4 then d.hifWord (p / 8) 0
  else if off = 8 then packW ([(p, 28), (v, 18)] ++ (List.range 16).map (fun s => (b2n (d.slotTen p v s).isSome, s)))
  else if 0x100 ≤ off ∧ off < 0x500 ∧ off % 0x40 ≤ 0x24 then (d.slotTen p v ((off - 0x100) / 0x40)).elim 0#32 (fun t => d.tenWord t (off % 0x40))
  else if off = 0x1000 then (d.fnGet (.vf p v)).vfRingSel
  else if 0x1004 ≤ off ∧ off ≤ 0x1014 then
    match d.vfRing p v with
    | none => 0#32
    | some (cq, n) =>
      if off = 0x1004 then (if cq then d.cqWord n 0 else d.sqWord n 0)
      else if off = 0x1014 then packW [(1, 31), (n, 0)]
      else if cq then 0#32
      else d.sqWord n (off - 0x1004)
  else 0#32

/-- The controller registers of an NVMe VF (R306). -/
def NvCtrl.word (c : NvCtrl) (off : Nat) : Word :=
  if off = 0x00 then packW [(40, 24), (1, 16), (0xFFFF, 0)]
  else if off = 0x04 then packW [(4, 20), (1, 5)]
  else if off = 0x08 then 0x00020000#32
  else if off = 0x14 then c.cc
  else if off = 0x1C then packW [(c.shst, 2), (b2n c.cfs, 1), (b2n c.rdy, 0)]
  else if off = 0x24 then c.aqa
  else if off = 0x28 then halfOf c.asq.toNat false
  else if off = 0x2C then halfOf c.asq.toNat true
  else if off = 0x30 then halfOf c.acq.toNat false
  else if off = 0x34 then halfOf c.acq.toNat true
  else 0#32

/-- A 32-bit read of a VF's BAR0. -/
def Dev.vfRead (d : Dev) (p v off : Nat) : Word :=
  if 0xC000 ≤ off ∧ off < 0xC400 then d.msixWord (.vf p v) ((off - 0xC000) / 4)
  else if 0xE000 ≤ off ∧ off < 0xE008 then d.pbaWord (.vf p v) ((off - 0xE000) / 4)
  else if d.vfNvme p then (d.ctrl (ctrlKey p v)).elim 0#32 (fun c => c.word off)
  else d.vfWord p v off

/-- The function exists, and the offset lies in its BAR0 (R38, R41, R45). -/
def Dev.reaches (d : Dev) (f : Fn) (off : Nat) : Bool :=
  match f with
  | .pf n => decide (n < 16 ∧ off < 0x4000000)
  | .vf p v => d.vfExists p v && decide (off < 0x10000)

/-- A 32-bit or 64-bit read by a function (R8, R10, R552): the lower word first; what it returns is `lastRead`. -/
def Dev.fnRead (d : Dev) (f : Fn) (off size : Nat) : Dev :=
  let one := fun (d : Dev) (o : Nat) =>
    match f with
    | .pf n => d.readAt n o
    | .vf p v => { d with lastRead := (d.vfRead p v o).zeroExtend 64 }
  if !d.reaches f off then d
  else if badSize off size then { d.badAccess f off false with lastRead := 0 }
  else if size = 4 then one d off
  else
    let d := one d off
    let lo := d.lastRead
    let d := one d (off + 4)
    { d with lastRead := d.lastRead <<< 32 ||| lo }

/-- READ_CLEAR (R7): a read of BAR0. -/
def execReadClear (fn : Fn) (off size : Nat) (s : State) := s.run (·.fnRead fn off size)

end Sys2Proof.Machine
end

