-- ==== Sys2Proof/Machine/Glb.lean ====
section
/-! DEFINITION. Writes of BAR0 (R7, R8, R10, R33, R34, R64, R549 to R552) with the range rules of every register, the Square's pools
(R25), restarts of the planes (R18), and the commands ADM_NOP, ADM_IDENTIFY and ADM_JRNL_READ (R559 to R563). -/

namespace Sys2Proof.Machine

/-! The Square's pools (R25). -/

/-- GLB_SQ_APPLY. -/
def Dev.sqApply (d : Dev) (pf : Nat) (v : Word) : Dev :=
  d.bar0Write pf Reg.GLB_SQ_APPLY fun d =>
    if !bitOf v 0 then d
    else
      let mins := (List.range 20).map (fun n => d.regN (Reg.GLB_SQ_MIN n))
      let maxs := (List.range 20).map (fun n => d.regN (Reg.GLB_SQ_MAX n))
      if (mins.zip maxs).any (fun (x : Nat × Nat) => decide (x.2 < x.1)) ∨ 393216 < sumNat mins then d.setBit Reg.GLB_STAT 4
      else
        d.setSquare { d.sq with pools := (List.range 20).map (fun n =>
          { d.sq.pool n with min := mins.getD n 0, max := maxs.getD n 0 }) }

/-! Values out of range (R15, R40, R50, R79, R131, R139, R166, R175, R177, R181, R192, R204, R245, R274, R303, R388, R402, R421, R435,
R457, R472, R514, R520). -/

/-- A rule on the value of a run of registers: when the write is refused, and the register and bit that say so. -/
structure RangeRule where
  base : Nat
  stride : Nat
  count : Nat
  bad : Dev → Nat → Nat → Word → Bool
  stat : Nat → Nat → Option (Nat × Nat)

def rangeHas (v lo hi : Nat) : Bool := decide (lo ≤ v ∧ v ≤ hi)

/-- A rule whose value is field [hi:lo], from a to b. -/
def fieldRule (base stride count hi lo a b : Nat) (stat : Nat → Nat) : RangeRule :=
  { base := base, stride := stride, count := count, bad := fun _ _ _ v => !rangeHas (fld v hi lo) a b, stat := fun _ i => some (stat i, 0) }

/-- R245: the ageing settings of table k as they would stand. -/
def Dev.ageBad (d : Dev) (k tick : Nat) (cfg l01 l23 : Word) : Bool :=
  let pass := fld cfg 13 0
  let lims := [fld l01 14 0, fld l01 30 16, fld l23 14 0, fld l23 30 16]
  let x := d.desc (lineTable k)
  decide (pass = 0) || lims.any (fun l => !rangeHas l 1 32767 || decide (32768 < l + pass)) ||
    (x.v && decide (pass * tick * 1000000 * 5 < 2 ^ x.log2b * 32))

def ageRules : List RangeRule := [
  { base := 0xC00004, stride := 4, count := 1, stat := fun _ _ => some (Reg.FWD_GSTAT, 0)
    bad := fun d _ _ v => !rangeHas (fld v 15 0) 1 65535 ||
      (List.range 3).any (fun k => d.ageBad k (fld v 15 0) (d.reg (Reg.FWD_AGE_CFG k)) (d.reg (Reg.FWD_AGE_LIM01 k)) (d.reg (Reg.FWD_AGE_LIM23 k))) },
  { base := 0xC00100, stride := 0x20, count := 3, stat := fun _ _ => some (Reg.FWD_GSTAT, 0)
    bad := fun d _ k v => d.ageBad k (d.regN Reg.FWD_AGE_TICK) v (d.reg (Reg.FWD_AGE_LIM01 k)) (d.reg (Reg.FWD_AGE_LIM23 k)) },
  { base := 0xC00104, stride := 0x20, count := 3, stat := fun _ _ => some (Reg.FWD_GSTAT, 0)
    bad := fun d _ k v => d.ageBad k (d.regN Reg.FWD_AGE_TICK) (d.reg (Reg.FWD_AGE_CFG k)) v (d.reg (Reg.FWD_AGE_LIM23 k)) },
  { base := 0xC00108, stride := 0x20, count := 3, stat := fun _ _ => some (Reg.FWD_GSTAT, 0)
    bad := fun d _ k v => d.ageBad k (d.regN Reg.FWD_AGE_TICK) (d.reg (Reg.FWD_AGE_CFG k)) (d.reg (Reg.FWD_AGE_LIM01 k)) v }]

/-- The admin ring's bases, kept while it is enabled (R139). -/
def admBaseRule (base : Nat) : RangeRule :=
  { base := base, stride := 4, count := 1, bad := fun d pf _ _ => (d.admGet pf).en, stat := fun pf _ => some (Reg.RING_GSTAT pf, 0) }

/-- R177: XOFF not 0 with XON at or above it. -/
def xoffBad (off on : Nat) : Bool := decide (off ≠ 0 ∧ off ≤ on)

def portRules : List RangeRule := [
  { base := 0x810000, stride := 0x1000, count := 16, bad := fun _ _ _ v => bitOf v 4 && bitOf v 5, stat := fun _ _ => some (Reg.PORT_GSTAT, 0) },
  fieldRule 0x810008 0x1000 16 13 0 1518 16000 (fun _ => Reg.PORT_GSTAT),
  { base := 0x81000C, stride := 0x1000, count := 16, stat := fun _ _ => some (Reg.PORT_GSTAT, 0)
    bad := fun _ _ _ v => !(rangeHas (fld v 6 0) 5 45 && rangeHas (fld v 14 8) 50 95 && rangeHas (fld v 31 16) 1 65535) },
  { base := 0x810010, stride := 0x1000, count := 16, stat := fun _ _ => some (Reg.PORT_GSTAT, 0)
    bad := fun d _ p v => xoffBad v.toNat (d.regN (Reg.PORT_PFC_XON p)) },
  { base := 0x810014, stride := 0x1000, count := 16, stat := fun _ _ => some (Reg.PORT_GSTAT, 0)
    bad := fun d _ p v => xoffBad (d.regN (Reg.PORT_PFC_XOFF p)) v.toNat },
  { base := 0x980004, stride := 4, count := 1, stat := fun _ _ => some (Reg.SVB_GSTAT, 0)
    bad := fun _ _ _ v => decide (fld v 15 8 ≤ fld v 7 0 ∧ fld v 7 0 ≠ 0xFF) }]

def hostRules : List RangeRule := [
  { base := 0x1028, stride := 4, count := 1, bad := fun _ _ _ v => decide (fld v 1 0 = 3), stat := fun _ _ => none },
  fieldRule 0x100010 0x10000 2 13 0 32 8192 Reg.HIF_STAT,
  fieldRule 0x10002C 0x10000 2 15 0 1 65535 Reg.HIF_STAT,
  fieldRule 0x120000 4 16 10 0 0 1024 (fun n => Reg.HIF_STAT (n / 8)),
  fieldRule 0x210018 0x40 4096 13 0 1 8192 (fun _ => Reg.TEN_GSTAT),
  { base := 0x400004, stride := 4, count := 1, bad := fun _ _ _ v => decide (fld v 15 0 = 0), stat := fun pf _ => some (Reg.RING_GSTAT pf, 0) },
  admBaseRule 0x400100, admBaseRule 0x400104, admBaseRule 0x400108, admBaseRule 0x40010C,
  fieldRule 0x600008 4 1 8 0 1 256 (fun _ => Reg.DMA_GSTAT)]

def engineRules : List RangeRule := [
  { base := 0xA00104, stride := 4, count := 7, bad := fun _ _ _ v => decide (fld v 17 16 = 3), stat := fun _ _ => some (Reg.CLS_GSTAT, 0) },
  fieldRule 0xE00010 4 1 15 0 1 1000 (fun _ => Reg.CRY_GSTAT),
  { base := 0x1000004, stride := 4, count := 1, stat := fun _ _ => some (Reg.STO_GSTAT, 0)
    bad := fun _ _ _ v => decide (fld v 7 0 = 0 ∨ fld v 15 8 = 0 ∨ fld v 23 16 = 0) },
  fieldRule 0x100000C 4 1 15 0 1 65535 (fun _ => Reg.STO_GSTAT),
  fieldRule 0x1000014 4 2 15 0 1 65535 (fun _ => Reg.STO_GSTAT)]

def timeRules : List RangeRule := [
  fieldRule 0x1800014 4 1 18 0 1 500000 (fun _ => Reg.TIME_GSTAT),
  fieldRule 0x1800024 4 1 29 0 1 999999999 (fun _ => Reg.TIME_GSTAT),
  fieldRule 0x1910008 0x40 16 6 0 0 50 (fun _ => Reg.TT_GSTAT)]

def fabRules : List RangeRule := [
  fieldRule 0x1A00028 4 1 16 0 100 100000 (fun _ => Reg.FAB_GSTAT),
  fieldRule 0x1A0002C 4 1 13 0 10 10000 (fun _ => Reg.FAB_GSTAT),
  fieldRule 0x1A00030 4 1 13 0 100 10000 (fun _ => Reg.FAB_GSTAT),
  fieldRule 0x1A00034 4 1 7 0 5 255 (fun _ => Reg.FAB_GSTAT),
  { base := 0x1A00040, stride := 4, count := 2, bad := fun d _ _ _ => d.fabOn, stat := fun _ _ => some (Reg.FAB_GSTAT, 0) },
  fieldRule 0x1A0100C 4 1 15 0 1 3600 (fun _ => Reg.TWIN_GSTAT),
  fieldRule 0x1A01010 4 1 15 0 60 10080 (fun _ => Reg.TWIN_GSTAT),
  fieldRule 0x1A01014 4 1 15 0 1 365 (fun _ => Reg.TWIN_GSTAT)]

def boardRules : List RangeRule := [
  { base := 0x1E00180, stride := 4, count := 1, stat := fun _ _ => some (Reg.MGT_GSTAT, 0)
    bad := fun d _ _ v => decide (tempOf (d.reg Reg.MGT_TEMP_CRIT) ≤ tempOf v) },
  { base := 0x1E00184, stride := 4, count := 1, stat := fun _ _ => some (Reg.MGT_GSTAT, 0), bad := fun _ _ _ v => decide (840 < tempOf v) },
  { base := 0x1E01008, stride := 4, count := 1, stat := fun _ _ => some (Reg.PWR_GSTAT, 0)
    bad := fun _ _ _ v => !rangeHas (fld v 27 16) 800 2000 || decide (fld v 27 16 % 100 ≠ 0) },
  { base := 0x1E0100C, stride := 4, count := 1, stat := fun _ _ => some (Reg.PWR_GSTAT, 0)
    bad := fun _ _ _ v => !rangeHas (fld v 6 0) 1 99 || decide (fld v 14 8 ≤ fld v 6 0) || decide (fld v 31 16 = 0) },
  fieldRule 0x1E01010 4 1 15 0 1 65535 (fun _ => Reg.PWR_GSTAT),
  { base := 0x1E01014, stride := 4, count := 1, stat := fun _ _ => some (Reg.PWR_GSTAT, 0)
    bad := fun _ _ _ v => !(decide (v = 0) || rangeHas (fld v 8 0) 100 300) }]

def rangeRules : List RangeRule := hostRules ++ portRules ++ engineRules ++ ageRules ++ timeRules ++ fabRules ++ boardRules

/-- The rule that refuses the value v for the register: where it says so. -/
def Dev.rangeRefusal (d : Dev) (pf off : Nat) (v : Word) : Option (Option (Nat × Nat)) :=
  rangeRules.findSome? (fun r =>
    (regIdx r.base r.stride r.count off).bind (fun i => if r.bad d pf i v then some (r.stat pf i) else none))

/-! What some registers do once written. -/

/-- PORT_CFG_p: a port that is disabled loses its link, and Dimming that is no longer permitted restores the full width (R181). -/
def Dev.portCfgDone (d : Dev) (p : Nat) (old : Word) : Dev :=
  let new := d.reg (Reg.PORT_CFG p)
  let d := if bitOf old 0 ∧ !bitOf new 0 ∧ (d.netPort p).link then d.netLinkDown p false false else d
  let d := if bitOf old 7 ∧ !bitOf new 7 then d.dimRestore p else d
  d.pauseCheck p

/-- SVB_CFG and SVB_PLCA: PLCA needs the bus enabled, MODE 1 and a node ID (R192). -/
def Dev.svbCfgDone (d : Dev) : Dev :=
  let x := d.port.svb
  let en := d.regBit Reg.SVB_CFG 0
  d.setSvb { x with plcaActive := x.plcaActive && en && d.regBit Reg.SVB_CFG 1 && decide (d.regFld Reg.SVB_PLCA 7 0 ≠ 0xFF), link := x.link && en }

/-- R246: ageing enabled again: the next pass stamps. -/
def Dev.ageCfgDone (d : Dev) (k : Nat) (old : Word) : Dev :=
  if !bitOf old 31 ∧ d.regBit (Reg.FWD_AGE_CFG k) 31 then
    { d with fwd := { d.fwd with stamp := d.fwd.stamp.set k true, sweep := d.fwd.sweep.set k 0 } }
  else d

/-- PWR_CFG: DIM_EN cleared ends Dim; DIM_MHZ is a cap of R520. -/
def Dev.pwrCfgDone (d : Dev) : Dev := (if d.regBit Reg.PWR_CFG 0 then d else d.dimExit).cclkApply

/-- TRACE_EN is the selected core's (R378). -/
def Dev.dbgCtlDone (d : Dev) (v : Word) : Dev := d.setCore d.dbgCore { d.core d.dbgCore with trace := bitOf v 1 }

def Dev.written (d : Dev) (off : Nat) (old v : Word) : Dev :=
  match regIdx 0x810000 0x1000 16 off, regIdx 0x810010 0x1000 16 off, regIdx 0x810014 0x1000 16 off, regIdx 0xC00100 0x20 3 off with
  | some p, _, _, _ => d.portCfgDone p old
  | _, some p, _, _ => d.pauseCheck p
  | _, _, some p, _ => d.pauseCheck p
  | _, _, _, some k => d.ageCfgDone k old
  | _, _, _, _ =>
    if off = Reg.SVB_CFG ∨ off = Reg.SVB_PLCA then d.svbCfgDone
    else if off = Reg.PWR_CFG then d.pwrCfgDone
    else if off = Reg.CORE_DBG_CTL then d.dbgCtlDone v
    else d

/-- A write stores what the access code says, field by field (R7, R8): RW fields take the value, W1C bits written 1 clear; a value out of
range is ignored and reported. -/
def Dev.storeWord (d : Dev) (pf off : Nat) (v : Word) : Dev :=
  match regRow off with
  | none => d
  | some r =>
    let a := regAt pf off
    let old := d.reg a
    match if r.rw = 0 then none else d.rangeRefusal pf off (v &&& r.rw) with
    | some (some (reg, bit)) => d.setBit reg bit
    | some none => d
    | none => (d.setReg a ((((old &&& ~~~r.rw) ||| (v &&& r.rw))) &&& ~~~(v &&& r.w1c))).written off old v

/-! Privilege (R549). -/

/-- GLB_PRIV_LOCK. -/
def Dev.privLock (d : Dev) (pf : Nat) (v : Word) : Dev :=
  d.bar0Write pf Reg.GLB_PRIV_LOCK fun d => if bitOf v 0 then d.setBit Reg.GLB_PRIV_LOCK 0 else d

/-- GLB_PRIV_PF: kept once locked, and never left without a bit. -/
def Dev.privPf (d : Dev) (pf : Nat) (v : Word) : Dev :=
  d.bar0Write pf Reg.GLB_PRIV_PF fun d =>
    if d.regBit Reg.GLB_PRIV_LOCK 0 then d
    else if v &&& 0xFFFF#32 = 0#32 then d.setBit Reg.GLB_PRIV_STAT 0
    else d.setReg Reg.GLB_PRIV_PF (v &&& 0xFFFF#32)

/-! Writes. -/

/-- R463: a write to the block of Wicket w by PF `id`, at offset k in it. -/
def Dev.wktBlockWrite (d : Dev) (id w k : Nat) (v : Word) : Dev :=
  if k = 0x40 then d.wktPostReg id w v []
  else if k = 0x50 then d.wktTakeReg id w v
  else
    d.bar0Write id (0x1C10000 + w * 0x100 + k) fun d =>
      if k < 0x40 ∧ d.wktMay id w true then d.setReg (0x1C10000 + w * 0x100 + k) v else d.wktDeny id w true

/-- Registers of the host interface, rings, ports and time whose write is an action, by index. -/
def Dev.indexedWrite (d : Dev) (pf off : Nat) (v : Word) : Option Dev :=
  ((regIdx 0x100100 0x10000 2 off).map (fun p => d.winCommit pf p v)).orElse fun _ =>
  ((regIdx 0x810024 0x1000 16 off).map (fun p => d.portRel pf p v)).orElse fun _ =>
  ((regIdx 0xA02004 0x40 64 off).map (fun r => d.rsetRel pf r v)).orElse fun _ =>
  ((regIdx 0x1800100 0x40 2 off).map (fun k => d.incApply pf k v)).orElse fun _ =>
  ((regIdx 0x1800118 0x40 2 off).map (fun k => d.timeGo pf k v)).orElse fun _ =>
  ((regIdx 0x1801018 0x40 8 off).map (fun i => d.tioWrite pf i v)).orElse fun _ =>
  ((regIdx 0x1910000 0x40 16 off).map (fun p => d.bar0Write pf off (fun d => d.ttCtl p v))).orElse fun _ =>
  ((regIdx 0x1C00100 4 256 off).map (fun w => d.wktBindReg pf w v))

/-- SVB_MDIO_CMD without GO: the fields are stored while no access runs (R193). -/
def Dev.mdioHold (d : Dev) (v : Word) : Dev := if d.port.svb.mdio.isSome then d else d.setReg Reg.SVB_MDIO_CMD (v &&& 0x43FFFFFF#32)

/-- CRY_RNG_RESTART by a plain register write: the outcome of the start-up test, an operand of the command of that name, is free here. -/
def Dev.rngAgain (d : Dev) (v : Word) : Dev :=
  if !bitOf v 0 then d
  else
    let (n, d) := d.draw
    d.rngStart (decide (Config.freeNat n 0 % 2 = 1))

/-- Registers whose write is an action (the rows of their own of the command table), and the rest. -/
def Dev.writeAt (d : Dev) (pf off : Nat) (v : Word) (acc : ThreadAcc) : Dev :=
  match d.indexedWrite pf off v with
  | some d => d
  | none =>
    if off = Reg.GLB_SQ_APPLY then d.sqApply pf v
    else if off = Reg.GLB_PRIV_LOCK then d.privLock pf v
    else if off = Reg.GLB_PRIV_PF then d.privPf pf v
    else if off = 0x400110 then d.admCfg pf v
    else if off = 0x400114 then d.admSqDoorbell pf v
    else if off = 0x400118 then d.admCqDoorbell pf v
    else if off = Reg.PORT_APPLY then d.portApply pf v
    else if off = Reg.SVB_MDIO_CMD then
      (if bitOf v 31 then d.mdio pf (bitOf v 30) (fld v 25 21) (fld v 20 16) (fld v 15 0) else d.bar0Write pf off (fun d => d.mdioHold v))
    else if off = Reg.TCAM_APPLY then d.tcamApply pf v
    else if off = Reg.CLS_HPROF_APPLY then d.hprofApply pf v
    else if off = Reg.CRY_RNG_RESTART then d.bar0Write pf off (fun d => d.rngAgain v)
    else if off = Reg.CORE_DBG_CMD then d.dbgCmd pf (fld v 3 0) acc
    else if off = Reg.TIME_CTL then d.refSelect pf v
    else if off = Reg.TIME_SEL then d.timeSwitch pf v
    else if off = Reg.TIME_LOCK then d.timeLock pf v
    else if off = Reg.FAB_CFG then d.fabCfg pf v
    else if off = Reg.WKT_LOCK then d.bar0Write pf off (fun d => if bitOf v 0 then d.setBit Reg.WKT_LOCK 0 else d)
    else if off = Reg.PWR_WAKE then d.pwrWake pf v
    else if 0x1C10000 ≤ off ∧ off < 0x1C20000 then d.wktBlockWrite pf ((off - 0x1C10000) / 0x100) (off % 0x100) v
    else if 0x180000 ≤ off ∧ off < 0x1C0000 then d.bar0Write pf off (fun d => d.msixWrite (.pf pf) ((off - 0x180000) / 4) v)
    else d.bar0Write pf off (fun d => d.storeWord pf off v)

/-- The controller registers of an NVMe VF (R306, R307, R312). -/
def Dev.nvWrite32 (d : Dev) (p v off : Nat) (w : Word) : Dev :=
  let k := ctrlKey p v
  match d.ctrl k with
  | none => d
  | some c =>
    if off = 0x14 then
      let w := w &&& 0x00FFFFF1#32
      if bitOf c.cc 0 ∧ !bitOf w 0 then d.nvDisable p v w
      else
        let d := if bitOf c.cc 0 then d.setCtrl k { c with cc := (w &&& 0xFF00FFFF#32) ||| (c.cc &&& 0x00FF0000#32) }
          else if bitOf w 0 then d.nvEnable p v w
          else d.setCtrl k { c with cc := w }
        d.nvShutdown p v w
    else if off = 0x24 then d.setCtrl k { c with aqa := w &&& 0x0FFF0FFF#32 }
    else if off = 0x28 then d.setCtrl k { c with asq := BitVec.ofNat 64 (c.asq.toNat / 2 ^ 32 * 2 ^ 32 + w.toNat / 4096 * 4096) }
    else if off = 0x2C then d.setCtrl k { c with asq := BitVec.ofNat 64 (w.toNat * 2 ^ 32 + c.asq.toNat % 2 ^ 32) }
    else if off = 0x30 then d.setCtrl k { c with acq := BitVec.ofNat 64 (c.acq.toNat / 2 ^ 32 * 2 ^ 32 + w.toNat / 4096 * 4096) }
    else if off = 0x34 then d.setCtrl k { c with acq := BitVec.ofNat 64 (w.toNat * 2 ^ 32 + c.acq.toNat % 2 ^ 32) }
    else if 0x1000 ≤ off ∧ off < 0x1208 then
      (if off % 8 = 0 then d.nvSqBell p v ((off - 0x1000) / 8) (fld w 15 0) else d.nvCqBell p v ((off - 0x1000) / 8) (fld w 15 0))
    else d

/-- A 32-bit write to a VF's BAR0 (R305, R553). -/
def Dev.vfWrite (d : Dev) (p v off : Nat) (w : Word) : Dev :=
  if 0xC000 ≤ off ∧ off < 0xC400 then d.msixWrite (.vf p v) ((off - 0xC000) / 4) w
  else if d.vfNvme p then d.nvWrite32 p v off w
  else if off = 0x1000 then d.fnPut (.vf p v) { d.fnGet (.vf p v) with vfRingSel := w &&& 0x1F01FF#32 }
  else d

/-- A write by a function (R8, R10, R552): of 64 bits the lower word first. -/
def Dev.fnWrite (d : Dev) (f : Fn) (off size : Nat) (v : Dword) (acc : ThreadAcc) : Dev :=
  let one := fun (d : Dev) (o : Nat) (w : Word) =>
    match f with
    | .pf n => d.writeAt n o w acc
    | .vf p n => d.vfWrite p n o w
  if !d.reaches f off then d
  else if badSize off size then d.badAccess f off true
  else if size = 4 then one d off (v.truncate 32)
  else one (one d off (v.truncate 32)) (off + 4) ((v >>> 32).truncate 32)

/-! The planes (R18). -/

def Dev.setPlanes (d : Dev) (x : Planes) : Dev := { d with glb := { d.glb with planes := x } }

/-- CONTROL_WATCHDOG_EXPIRE: the control cluster is down; the table-update engine discards the record it has taken and not applied. -/
def Dev.ctlExpire (d : Dev) : Dev :=
  if !d.glb.planes.ctlUp then d
  else Dev.setPlanes { d with glb := { d.glb with tueQ := d.glb.tueQ.drop 1 } } { d.glb.planes with ctlUp := false }

/-- CONTROL_RESTART_DONE: commands fetched and not completed end ABORTED, each with its journal record (R562). -/
def Dev.ctlRestarted (d : Dev) : Dev :=
  if d.glb.planes.ctlUp ∨ !d.glb.planes.mgmtUp then d
  else
    let d := d.setPlanes { d.glb.planes with ctlUp := true }
    (d.ring.taken.foldl (fun (d : Dev) (a : AdmTaken) => d.admComplete1 a.e a.e.opc St.ABORTED 0 0) d).setBit Reg.GLB_STAT 1

/-- MGMT_WATCHDOG_EXPIRE: the controller is silent until it has restarted. -/
def Dev.mgmtExpire (d : Dev) : Dev :=
  if !d.glb.planes.mgmtUp then d
  else
    (d.setPlanes { d.glb.planes with mgmtUp := false }).setMgt
      { d.mgt with fw := false, spdm := [], sessions := [], chunkIn := [], chunkOut := [], smb := [] }

/-! Commands of this chapter (R559, R560). -/

/-- R558: a command of the same PF was taken before this one and has not completed. -/
def Dev.admEarlier (d : Dev) (e : AdmEntry) : Bool :=
  (d.ring.taken.takeWhile (fun a => decide (a.e ≠ e))).any (fun a => decide (a.e.pf = e.pf))

def admNop (e : AdmEntry) (d : Dev) : AdmRes :=
  admChecks [(decide (e.len ≠ 0), St.RANGE, rangeAt 0 32)] fun _ =>
    if !d.admEarlier e then .done d
    else
      let t := if d.ring.taken.any (fun a => decide (a.e = e)) then d.ring.taken.map (fun a => if a.e = e then { a with fence := true } else a)
        else d.ring.taken ++ [{ e := e, priv := d.privNow e.pf, fence := true }]
      .wait { d with ring := { d.ring with taken := t } }

/-- R556: byte b of the opcode bitmap. -/
def opcodeByte (b : Nat) : Byte := BitVec.ofNat 8 (packNat ((List.range 8).map (fun j => (b2n (admAllocated (8 * b + j)), j))))

/-- The identify record (R560). -/
def Dev.identify (d : Dev) (pf : Nat) : List Byte :=
  let sum := fun (f : Ten → Nat) => sumNat (d.liveTens.map (fun (x : Nat × Ten) => f x.2))
  leBytes 4 (d.regN Reg.ID_DEVICE) ++ leBytes 4 (d.regN Reg.MGT_FW_VER) ++ leBytes 4 (d.regN Reg.MGT_CTL_VER) ++
    leBytes 2 (d.regN Reg.GLB_PRIV_PF) ++ leBytes 1 pf ++ leBytes 1 (b2n (d.regBit Reg.GLB_PRIV_LOCK 0) + 2 * b2n (d.regBit Reg.WKT_LOCK 0)) ++
    (List.range 4).flatMap (fun i => leBytes 4 (d.regN (Reg.ID_UID i))) ++
    leBytes 4 (65536 - sum (·.rings)) ++ leBytes 4 (65536 - sum (·.rings)) ++ leBytes 4 (1048576 - sum (·.ctxs)) ++
    leBytes 4 (1048576 - sum (·.keys)) ++ leBytes 2 (4096 - d.liveTens.length) ++ leBytes 2 (sumNat ((List.range 16).map d.totalVfs)) ++
    List.replicate 12 0#8 ++ (List.range 32).map opcodeByte ++ List.replicate 32 0#8

def admIdentify (e : AdmEntry) (d : Dev) : AdmRes :=
  admChecks [(decide (e.len < 128), St.RANGE, rangeAt 0 32)] fun _ => .done d 0 128 (d.identify e.pf)

/-- R562: an admin journal record. -/
def AdmRec.bytes (r : AdmRec) : List Byte :=
  fitTo 128 (leBytes 8 r.seq ++ leBytes 8 r.time ++ leBytes 1 r.pf ++ leBytes 1 r.opc ++ leBytes 1 r.status ++ [0] ++ leBytes 2 r.detail ++
    leBytes 2 r.tag ++ r.dwords.flatMap (fun w => leBytes 8 w.toNat))

/-- R216: a table-update record. -/
def TueRec.bytes (r : TueRec) : List Byte :=
  leBytes 1 r.op ++ leBytes 1 r.table ++ leBytes 1 (r.count % 64) ++ [0] ++ leBytes 4 r.seq ++ leBytes 8 r.index ++ leBytes 8 r.cmp.toNat ++
    leBytes 8 r.cmask.toNat ++ fitTo 64 r.payload

/-- R563: a table-update journal record. -/
def TblRec.bytes (r : TblRec) : List Byte :=
  fitTo 128 (r.record.bytes ++ leBytes 8 r.time ++ leBytes 1 r.outcome ++ List.replicate 7 0#8 ++ leBytes 8 r.seq)

def admJrnlRead (e : AdmEntry) (d : Dev) : AdmRes :=
  let n := e.d3.toNat
  let r := if bitOf e.d2 0 then (d.glb.tblJournal.find? (fun x => decide (x.seq = n))).map TblRec.bytes
    else (d.glb.admJournal.find? (fun x => decide (x.seq = n))).map AdmRec.bytes
  admChecks [d.notPriv e, (decide (e.len < 128), St.RANGE, rangeAt 0 32), (r.isNone, St.RANGE, rangeAt 3 0)] fun _ => .done d 0 128 (r.getD [])

/-! The commands. -/

def execRegisterWrite (fn : Fn) (off size : Nat) (value : Dword) (acc : ThreadAcc) (s : State) := s.run (·.fnWrite fn off size value acc)
def execBar0BadAccess (fn : Fn) (off size : Nat) (write : Bool) (s : State) :=
  s.run (fun d => if d.reaches fn off && badSize off size then { d.badAccess fn off write with lastRead := if write then d.lastRead else 0 } else d)
def execGlbSqApply (pf : Nat) (value : Word) (s : State) := s.run (·.sqApply pf value)
def execGlbPrivLock (pf : Nat) (value : Word) (s : State) := s.run (·.privLock pf value)
def execControlWatchdogExpire (s : State) := s.run (·.ctlExpire)
def execControlRestartDone (s : State) := s.run (·.ctlRestarted)
def execMgmtWatchdogExpire (s : State) := s.runAon (·.mgmtExpire)
def execAdmNop (e : AdmEntry) (s : State) := s.run (·.admRun e 0x01 (admNop e))
def execAdmIdentify (e : AdmEntry) (s : State) := s.run (·.admRun e 0x02 (admIdentify e))
def execAdmJrnlRead (e : AdmEntry) (s : State) := s.run (·.admRun e 0x03 (admJrnlRead e))

end Sys2Proof.Machine
end

