-- ==== Sys2Proof/Machine/Reset.lean ====
section
/-! DEFINITION. Resets of functions, ports and the device, rails and reference clocks (R40, R60, R66 to R69, R462, R492, R507 to R511,
R535, R569). -/

namespace Sys2Proof.Machine

/-! Functions and ports (R66, R67). -/

/-- R67: configuration space and MSI-X tables are cleared; the sticky AER bits stay, or go with `all`. -/
def Dev.fnClear (d : Dev) (p : Fn → Bool) (all : Bool) : Dev :=
  let fn := fun (k : Nat) => if k < 0x1000 then Fn.pf k else Fn.vf ((k - 0x1000) / 1024) ((k - 0x1000) % 1024)
  { d with hif := { d.hif with fns := d.hif.fns.foldl (fun (m : Kv FnCfg) (e : Nat × FnCfg) =>
      if p (fn e.1) then kvSet {} e.1 (if all then {} else { aer := e.2.aer }) m else m) d.hif.fns } }

/-- The emulated controllers of functions with the property are reset (R67, R312). -/
def Dev.ctrlsReset (d : Dev) (p : Fn → Bool) : Dev :=
  (d.sto.ctrls.map (·.1)).foldl (fun (d : Dev) (k : Nat) =>
    if p (.vf (k / 1024) (k % 1024)) then
      match d.ctrl k with
      | some c => (d.setCtrl k { c with aqa := 0, asq := 0, acq := 0 }).ctrlReset k 0
      | none => d
    else d) d

/-- The zero-length reads of flushes whose function is reset can no longer come back: the flushes end with ABORTED, RESET (log 49). -/
def Dev.flushEnd (d : Dev) (p : Fn → Bool) : Dev :=
  (d.ten.tens.filter (fun (t : Nat × Ten) => p (.pf t.2.owner))).foldl (fun (d : Dev) (t : Nat × Ten) =>
    (t.2.log.elim [] (·.waiting)).foldl (fun (d : Dev) _ => d.logEnd t.1 (some (St.ABORTED, 2))) d) d

/-- A function level reset: tags are quarantined (by the tenancy resets), pending invalidations of the functions complete, cached
translations go. -/
def Dev.fnReset (d : Dev) (p : Fn → Bool) : Dev :=
  let d := ((d.resetTens p false).ctrlsReset p).flushEnd p
  let d := [0, 1].foldl (fun (d : Dev) (n : Nat) =>
    let x := d.hifPort n
    let d := (x.inv.filter (fun (i : InvReq) => p i.fn)).foldl (fun (d : Dev) (i : InvReq) => d.emit (.invDone n i.itag)) d
    d.setHifPort n { x with inv := x.inv.filter (fun (i : InvReq) => !p i.fn) }) d
  let d : Dev := { d with hif := { d.hif with atc := d.hif.atc.filter (fun e => !p e.fn) } }
  d.fnClear p false

/-- R69: a commit under way completes before BAR4 stops decoding. -/
def Dev.commitFirst (d : Dev) (n : Nat) : Dev := if n % 8 = 0 then d.winApply (n / 8) else d

/-- PF_FLR: the PF and its VFs. -/
def Dev.pfFlr (d : Dev) (n : Nat) : Dev :=
  if 16 ≤ n then d else ((d.commitFirst n).fnReset (fun f => decide (f.pfOf = n))).wakeFrom 5

/-- VF_FLR. -/
def Dev.vfFlr (d : Dev) (n v : Nat) : Dev :=
  if !d.vfExists n v then d else (d.fnReset (fun f => decide (f = .vf n v))).wakeFrom 5

/-- VF_ENABLE_CLEAR (R77): the tenancies of the PF's VFs are reset and go on to CREATED. -/
def Dev.vfDisable (d : Dev) (n : Nat) : Dev :=
  if !(d.fnGet (.pf n)).vfEnable then d
  else
    let isVf := fun (f : Fn) => match f with
      | .pf _ => false
      | .vf p _ => decide (p = n)
    let d := (d.resetTens isVf true).fnReset isVf
    d.fnPut (.pf n) { d.fnGet (.pf n) with vfEnable := false }

/-- What hot reset, link loss and port reset share: the link is down, tags and page requests are freed, the functions' tenancies are
reset (R60, R67). -/
def Dev.portReset (d : Dev) (p : Nat) (all : Bool) : Dev :=
  let mine := fun (f : Fn) => decide (f.port = p)
  let d := (((d.resetTens mine false).ctrlsReset mine).flushEnd mine).fnClear mine all
  let x := d.hifPort p
  let d := d.setHifPort p { ups := x.ups, perst := x.perst, wins := x.wins, winsNext := x.winsNext, oldTlps := x.oldTlps }
  { d with hif := { d.hif with
      atc := d.hif.atc.filter (fun e => decide (e.port ≠ p)), xlats := d.hif.xlats.filter (fun e => decide (e.port ≠ p))
      pageReqs := d.hif.pageReqs.filter (fun e => decide (e.xlat.port ≠ p)) } }

/-- HOT_RESET. -/
def Dev.hotReset (d : Dev) (p : Nat) : Dev :=
  if !(d.hifPort p).linkUp then d else (d.portReset p false).wakeFrom 5

/-- PCIE_LINK_DOWN (R60). -/
def Dev.pcieLinkDown (d : Dev) (p : Nat) : Dev :=
  if !(d.hifPort p).linkUp then d else (d.portReset p false).setBit (Reg.HIF_STAT p) 1

/-- TOTALVFS as written (R40). -/
def Dev.vfsWritten (d : Dev) (n : Nat) : Nat := d.regN (Reg.HIF_FN_CFG n)

/-- Remove registers, so that each holds its reset value. -/
def Dev.regsReset (d : Dev) (p : Nat → Bool) : Dev := { d with regs := d.regs.filter (fun (e : Nat × Word) => !p e.1) }

/-- R40, R67: a port fundamental reset. -/
def Dev.portFr (d : Dev) (p : Nat) : Dev :=
  let d := d.portReset p true
  let x := d.hifPort p
  let d := (d.setHifPort p { perst := x.perst }).regsReset (fun o => decide (0x100000 + 0x10000 * p ≤ o ∧ o < 0x110000 + 0x10000 * p))
  let own := fun n => decide (n / 8 = p)
  let new := (List.range 16).map (fun n => if own n then d.vfsWritten n else d.hif.applied.getD n 0)
  if sumNat (new.map (· % 2048)) ≤ 1024 then { d with hif := { d.hif with applied := new } }
  else d.setBit Reg.HIF_GSTAT 0

/-! The device (R66 to R69, R462, R492, R569). -/

/-- Registers of the always-on domain, and HIF_FN_CFG_n, which keep their values across a device fundamental reset (R40, R67). -/
def keptReg (o : Nat) : Bool :=
  decide (o < 0x24) || decide (0x120000 ≤ o ∧ o < 0x120040) || decide (0x980000 ≤ o ∧ o < 0x980044) ||
    decide (0x1800000 ≤ o ∧ o < 0x1900000) || decide (0x1E00000 ≤ o ∧ o < 0x1E0102C)

/-- Lines of HBM that hold undefined data from now on (R569). -/
def Hbm.lose (h : Hbm) (serial : Nat) (lines : List Nat) : Hbm :=
  { (lines.filter (fun l => decide (l * 64 < hbmReserved))).foldl (fun (h : Hbm) (l : Nat) =>
      h.write (l * 64) ((List.range 64).map (fun i => Config.freeByte serial (64 * l + i)))) h with
    poison := h.poison.filter (fun l => !lines.contains l) }

/-- Everything outside the always-on domain and the Tollhouse at its reset value: tenancies destroyed, tables and Square cleared, cores,
keys and HIF registers gone, VF counts as written (R40, R67). -/
def Dev.blocksReset (d : Dev) : Dev :=
  let vfs := (List.range 16).map d.vfsWritten
  let fits := decide (sumNat (vfs.map (· % 2048)) ≤ 1024)
  let ports : List HifPort := [0, 1].map (fun p => { perst := (d.hifPort p).perst })
  let d' : Dev := {
      regs := d.regs.filter (fun (e : Nat × Word) => keptReg e.1)
      hbm := d.hbm
      hif := { ports := ports, applied := if fits then vfs else List.replicate 16 0x40 }
      port := { svb := d.port.svb }
      toll := d.toll
      mgt := { d.mgt with wickets := [], debugOpen := false }
      glb := { planes := { mgmtUp := d.glb.planes.mgmtUp } }
      time := { d.time with pages := [], tts := [], txtsNew := [] }
      pwr := { off := d.pwr.off, rails := d.pwr.rails, perst := d.pwr.perst, clkLost := d.pwr.clkLost, badRails := d.pwr.badRails, trip := d.pwr.trip
               thermal := d.pwr.thermal, powerCap := d.pwr.powerCap }
      out := d.out, lastRead := d.lastRead, serial := d.serial }
  let d' := if fits then d' else d'.setBit Reg.HIF_GSTAT 0
  ((d'.pwrState 0).bootStat (d.regBit Reg.MGT_BOOT_STAT 0)).cclkApply

/-- A device fundamental reset: the Shutters send their accumulators, and a marker for every tenancy that is not FREE (R492). `lost`:
lines of HBM that hold undefined data after it. -/
def Dev.deviceFr (d : Dev) (lost : List Nat) : Dev :=
  let d := (d.tapFlush 0).tapFlush 1
  let d := (d.liveTens.map (·.1)).foldl (fun (d : Dev) (t : Nat) => d.tollMarker t) d
  let d := d.blocksReset
  let (n, d) := d.draw
  { d with hbm := d.hbm.lose n lost }

/-- The pins PERSTn_N as they stand reach the ports. -/
def Dev.perstIn (d : Dev) : Dev :=
  [0, 1].foldl (fun (d : Dev) (p : Nat) => d.setHifPort p { d.hifPort p with perst := d.pwr.perst.getD p false }) d

/-- PORT_FUNDAMENTAL_RESET: PERSTn_N of one port is asserted; without rails or clock only the pin changes. -/
def Dev.portFrPin (d : Dev) (p : Nat) : Dev :=
  if 1 < p then d
  else
    let d := d.setPwr { d.pwr with perst := d.pwr.perst.set p true }
    if d.dead then d else (d.perstIn.portFr p).wakeFrom 5

/-- DEVICE_FUNDAMENTAL_RESET: both are asserted for 100 µs or more. -/
def Dev.deviceFrPin (d : Dev) (lost : List Nat) : Dev :=
  let d := d.setPwr { d.pwr with perst := [true, true] }
  if d.dead then d else (d.deviceFr lost).perstIn

/-- PERST_RELEASE (R68, R508): it takes effect at once, or when RAILS_OK rises. -/
def Dev.perstRelease (d : Dev) (p : Nat) : Dev :=
  if 1 < p then d
  else
    let d := d.setPwr { d.pwr with perst := d.pwr.perst.set p false }
    if d.dead then d else d.perstIn

/-! Supply (R506 to R508, R535). -/

/-- Off: everything but the fuses, the flash and the Tollhouse is lost. Accumulators not yet sent are lost with the main supply
(R501). -/
def Dev.powerLost (d : Dev) : Dev :=
  { regs := d.regs.filter (fun (e : Nat × Word) => decide (e.1 < 0x24))
    toll := { d.toll with acc := [] }
    mgt := { banks := d.mgt.banks, fuses := d.mgt.fuses }
    glb := { planes := { mgmtUp := true } }
    pwr := { off := true, rails := false, perst := [true, true] }
    out := d.out, lastRead := d.lastRead, serial := d.serial }

/-- POWER_ON: VDD_AON ramps up; the other rails follow, and the board holds both PERSTn_N until it releases them. -/
def Dev.powerOn (d : Dev) : Dev :=
  let d := d.powerLost
  d.setPwr { d.pwr with off := false }

/-- RAILS_OK_RISE: a device fundamental reset; a PERSTn_N released before takes effect now. Every rail is in range, so the order
holds. -/
def Dev.railsRise (d : Dev) (lost : List Nat) : Dev :=
  if d.pwr.rails then d
  else
    let d := d.setPwr { d.pwr with rails := true, badRails := [] }
    if d.dead then d else (d.deviceFr lost).perstIn

/-- The blocks lose their supply or clock: the Shutters' accumulators go with them. -/
def Dev.blocksHeld (d : Dev) : Dev := { d.blocksReset with toll := { d.toll with acc := [] } }

/-- RAILS_OK_FALL. -/
def Dev.railsFall (d : Dev) : Dev :=
  if !d.pwr.rails then d else (d.setPwr { d.pwr with rails := false }).blocksHeld

/-- RAIL_SEQUENCE_ERROR: a rail, by its order number, rose before an earlier one was in range. -/
def Dev.railOrder (d : Dev) (rail : Nat) : Dev :=
  if d.pwr.rails then d
  else (d.setPwr { d.pwr with badRails := insertNat rail d.pwr.badRails }).setBit Reg.PWR_GSTAT 1

/-! Reference clocks (R511). -/

/-- REFCLK_SYS_LOST. -/
def Dev.sysClkLost (d : Dev) : Dev :=
  if d.pwr.clkLost then d else (d.setPwr { d.pwr with clkLost := true }).blocksHeld

/-- REFCLK_SYS_RETURN. -/
def Dev.sysClkBack (d : Dev) (lost : List Nat) : Dev :=
  if !d.pwr.clkLost then d
  else
    let d := d.setPwr { d.pwr with clkLost := false }
    if d.dead then d.setBit Reg.PWR_GSTAT 3 else (d.deviceFr lost).perstIn.setBit Reg.PWR_GSTAT 3

/-- REFCLK_NET_LOST: every port of the group goes down. -/
def Dev.netClkLost (d : Dev) (g : Nat) : Dev :=
  (List.range 8).foldl (fun (d : Dev) (j : Nat) => if (d.netPort (8 * g + j)).link then d.netLinkDown (8 * g + j) false false else d) d

/-! The commands. -/

def execPfFlr (pf : Nat) (s : State) := s.run (·.pfFlr pf)
def execVfFlr (pf vf : Nat) (s : State) := s.run (·.vfFlr pf vf)
def execVfEnableClear (pf : Nat) (s : State) := s.run (·.vfDisable pf)
def execHotReset (p : Nat) (s : State) := s.run (·.hotReset p)
def execPcieLinkDown (p : Nat) (s : State) := s.run (·.pcieLinkDown p)
def execPortFundamentalReset (p : Nat) (s : State) := s.runAon (·.portFrPin p)
def execDeviceFundamentalReset (lost : List Nat) (s : State) := s.runAon (·.deviceFrPin lost)
def execPerstRelease (p : Nat) (s : State) := s.runAon (·.perstRelease p)
def execPowerOn (s : State) := s.runAny (·.powerOn)
def execRailsOkRise (lost : List Nat) (s : State) := s.runAon (·.railsRise lost)
def execRailsOkFall (s : State) := s.runAon (·.railsFall)
def execRailSequenceError (rail : Nat) (s : State) := s.runAon (·.railOrder rail)
def execRefclkSysLost (s : State) := s.runAon (·.sysClkLost)
def execRefclkSysReturn (lost : List Nat) (s : State) := s.runAon (·.sysClkBack lost)
def execRefclkPcieLost (p : Nat) (s : State) := s.run (·.pcieLinkDown p)
def execRefclkNetLost (group : Nat) (s : State) := s.run (·.netClkLost group)
def execVddAonLoss (s : State) := s.runAny (·.powerLost)

end Sys2Proof.Machine
end

