-- ==== Sys2Proof/Machine/RingCmd.lean ====
section
/-! DEFINITION. The commands of the rings, the admin rings and the copy engine (R105 to R170, R558, R570). -/

namespace Sys2Proof.Machine

/-! Doorbells. Every doorbell write is decided by its page and slot, whichever name the command bears. -/

def execSqDoorbell (fn : Fn) (page off size : Nat) (value : Dword) (s : State) := s.run (·.doorbell fn page off size value)
def execDoorbellInv (fn : Fn) (page off size : Nat) (value : Dword) (s : State) :=
  s.run (·.doorbell fn page off size (value ||| 0x80000000#64))
def execCqDoorbell (fn : Fn) (page off size : Nat) (value : Dword) (s : State) := s.run (·.doorbell fn page off size value)
def execRetasPiWrite (fn : Fn) (page off size : Nat) (value : Dword) (s : State) := s.run (·.doorbell fn page off size value)
def execRetasCiWrite (fn : Fn) (page off size : Nat) (value : Dword) (s : State) := s.run (·.doorbell fn page off size value)
def execStrayDoorbell (fn : Fn) (page off size : Nat) (value : Dword) (s : State) := s.run (·.doorbell fn page off size value)

/-! Entries and jobs. -/

def execEntryFetch (q : Nat) (s : State) := s.run (·.entryFetch q)
def execEntryFetchDone (q : Nat) (bytes : List Byte) (err : Option (Nat × Nat)) (s : State) :=
  s.run (fun d => (d.dropReads (.fetch q)).entryFetchDone q bytes err)
def execPhaseReread (q : Nat) (bytes : List Byte) (err : Option (Nat × Nat)) (s : State) := s.run (·.phaseReread q bytes err)
def execSchedulerTurn (p : Nat) (s : State) := s.run (·.schedulerTurn p)
def execNop (q pos : Nat) (s : State) := s.run (·.nop q pos)
def execTx (q pos : Nat) (s : State) := s.run (fun d => (d.txStart q pos).txBuild q pos)
def execRxBuf (q : Nat) (s : State) := s.run (·.rxPost q 512)
def execJobCompletion (q pos : Nat) (s : State) := s.run (·.jobComplete q pos)
def execBarrierReadDone (q pos : Nat) (err : Option (Nat × Nat)) (s : State) := s.run (·.barrierDone q pos err)
def execCqStallTimeout (c : Nat) (s : State) := s.run (·.cqStall c)
def execModTimerExpire (isCq : Bool) (ring : Nat) (s : State) := s.run (·.modExpire (if isCq then .cq ring else .sq ring))

/-! Ring commands. -/

def execRingCreate (e : AdmEntry) (s : State) := s.run (·.admRun e 0x20 (ringCreate e))
def execRingDestroy (e : AdmEntry) (s : State) := s.run (·.admRun e 0x21 (ringDestroy e))
def execRingDcinv (e : AdmEntry) (s : State) := s.run (·.admRun e 0x22 (ringDcinv e))
def execRingResume (e : AdmEntry) (s : State) := s.run (·.admRun e 0x23 (ringResume e))
def execRingSetMod (e : AdmEntry) (s : State) := s.run (·.admRun e 0x24 (ringSetMod e))
def execRingSetSched (e : AdmEntry) (s : State) := s.run (·.admRun e 0x25 (ringSetSched e))

/-! Admin rings. -/

def execAdminRingEnable (pf : Nat) (value : Word) (s : State) := s.run (·.admCfg pf (value ||| 0x80000000#32))
def execAdminRingDisable (pf : Nat) (value : Word) (s : State) := s.run (·.admCfg pf (value &&& 0x7FFFFFFF#32))
def execAdminSqDoorbell (pf : Nat) (value : Word) (s : State) := s.run (·.admSqDoorbell pf value)
def execAdminCqDoorbell (pf : Nat) (value : Word) (s : State) := s.run (·.admCqDoorbell pf value)
def execAdminCommandTake (e : AdmEntry) (count : Nat) (err : Option (Nat × Nat)) (s : State) := s.run (·.admTake e count err)

/-! The copy engine. -/

def execCopy (q pos : Nat) (s : State) := s.run (·.copyStart q pos)
def execDescriptorReadDone (chan : Nat) (bytes : List Byte) (err : Option (Nat × Nat)) (ecc : Ecc) (s : State) :=
  s.run (fun d => (d.dropReads (.chan chan)).descDone chan bytes err ecc)
def execCopyChunk (chan : Nat) (input : ChunkIn) (ecc : Ecc) (s : State) := s.run (·.copyChunk chan input ecc)
def execDmaHaltTimeout (chan : Nat) (s : State) := s.run (·.haltTimeout chan)
def execDmaGrant (e : AdmEntry) (s : State) := s.run (·.admRun e 0x28 (dmaGrant e))
def execGrantDrained (ten : Nat) (s : State) := s.run (·.grantDrained ten)
def execDmaResume (e : AdmEntry) (s : State) := s.run (·.admRun e 0x29 (dmaResume e))
def execDmaSkip (e : AdmEntry) (s : State) := s.run (·.admRun e 0x2A (dmaSkip e))
def execDmaAbort (e : AdmEntry) (s : State) := s.run (·.admRun e 0x2B (dmaAbort e))

end Sys2Proof.Machine
end

