-- ==== Sys2Proof/Machine/Dispatch.lean ====
section
/-! DEFINITION. exec: one arm per command, each one direct call of the command's meaning. -/

namespace Sys2Proof.Machine

def exec (i : Instr) (s : State) : Host.Outcome State Fault Refusal :=
  match i with
  | .registerWrite fn off size value acc => Sys2Proof.Machine.execRegisterWrite fn off size value acc s
  | .readClear fn off size => Sys2Proof.Machine.execReadClear fn off size s
  | .bar0BadAccess fn off size write => Sys2Proof.Machine.execBar0BadAccess fn off size write s
  | .glbSqApply pf value => Sys2Proof.Machine.execGlbSqApply pf value s
  | .tcamInv => Sys2Proof.Machine.execTcamInv s
  | .tcamWrite => Sys2Proof.Machine.execTcamWrite s
  | .tcamVal => Sys2Proof.Machine.execTcamVal s
  | .lineWrite => Sys2Proof.Machine.execLineWrite s
  | .lineCas => Sys2Proof.Machine.execLineCas s
  | .indWrite => Sys2Proof.Machine.execIndWrite s
  | .tblDesc => Sys2Proof.Machine.execTblDesc s
  | .fence => Sys2Proof.Machine.execFence s
  | .controlWatchdogExpire => Sys2Proof.Machine.execControlWatchdogExpire s
  | .controlRestartDone => Sys2Proof.Machine.execControlRestartDone s
  | .mgmtWatchdogExpire => Sys2Proof.Machine.execMgmtWatchdogExpire s
  | .pcieLinkUp p speed width flit => Sys2Proof.Machine.execPcieLinkUp p speed width flit s
  | .pcieLinkDown p => Sys2Proof.Machine.execPcieLinkDown p s
  | .configRequest fn bus op => Sys2Proof.Machine.execConfigRequest fn bus op s
  | .vfEnableClear pf => Sys2Proof.Machine.execVfEnableClear pf s
  | .casementWrite p rid off data => Sys2Proof.Machine.execCasementWrite p rid off data s
  | .casementRead p rid off n ecc => Sys2Proof.Machine.execCasementRead p rid off n ecc s
  | .casementAtomic p => Sys2Proof.Machine.execCasementAtomic p s
  | .hifWinCommit pf p value => Sys2Proof.Machine.execHifWinCommit pf p value s
  | .winSetApply p => Sys2Proof.Machine.execWinSetApply p s
  | .winRetired p => Sys2Proof.Machine.execWinRetired p s
  | .translationCompletion p tag log2 addr read write ending => Sys2Proof.Machine.execTranslationCompletion p tag log2 addr read write ending s
  | .pageRequestResponse group code => Sys2Proof.Machine.execPageRequestResponse group code s
  | .priTimeout group => Sys2Proof.Machine.execPriTimeout group s
  | .invalidationRequest p itag fn pasid page log2 => Sys2Proof.Machine.execInvalidationRequest p itag fn pasid page log2 s
  | .invalidationCompletion p => Sys2Proof.Machine.execInvalidationCompletion p s
  | .readIssue p ten => Sys2Proof.Machine.execReadIssue p ten s
  | .readCompletion p tag ending => Sys2Proof.Machine.execReadCompletion p tag ending s
  | .completionTimeout p tag => Sys2Proof.Machine.execCompletionTimeout p tag s
  | .lateCompletion p tag => Sys2Proof.Machine.execLateCompletion p tag s
  | .quarantineRelease p tag => Sys2Proof.Machine.execQuarantineRelease p tag s
  | .ltrSend p => Sys2Proof.Machine.execLtrSend p s
  | .l1EntryRequest p => Sys2Proof.Machine.execL1EntryRequest p s
  | .d3hotEntry pf => Sys2Proof.Machine.execD3hotEntry pf s
  | .d0Return pf => Sys2Proof.Machine.execD0Return pf s
  | .busMasterClear fn => Sys2Proof.Machine.execBusMasterClear fn s
  | .busMasterSet fn => Sys2Proof.Machine.execBusMasterSet fn s
  | .msixUnmask fn op => Sys2Proof.Machine.execMsixUnmask fn op s
  | .pfFlr pf => Sys2Proof.Machine.execPfFlr pf s
  | .vfFlr pf vf => Sys2Proof.Machine.execVfFlr pf vf s
  | .hotReset p => Sys2Proof.Machine.execHotReset p s
  | .portFundamentalReset p => Sys2Proof.Machine.execPortFundamentalReset p s
  | .deviceFundamentalReset lost => Sys2Proof.Machine.execDeviceFundamentalReset lost s
  | .poisonedTlp fn bar => Sys2Proof.Machine.execPoisonedTlp fn bar s
  | .fatalTlpError p kind => Sys2Proof.Machine.execFatalTlpError p kind s
  | .tenCreate e => Sys2Proof.Machine.execTenCreate e s
  | .tenDestroy e => Sys2Proof.Machine.execTenDestroy e s
  | .tenBind e => Sys2Proof.Machine.execTenBind e s
  | .tenUnbind e => Sys2Proof.Machine.execTenUnbind e s
  | .tenOpen e => Sys2Proof.Machine.execTenOpen e s
  | .tenClose e => Sys2Proof.Machine.execTenClose e s
  | .tenReset e => Sys2Proof.Machine.execTenReset e s
  | .tenSetShare e => Sys2Proof.Machine.execTenSetShare e s
  | .logStart e => Sys2Proof.Machine.execLogStart e s
  | .logFlush e => Sys2Proof.Machine.execLogFlush e s
  | .logStop e => Sys2Proof.Machine.execLogStop e s
  | .tenExport e => Sys2Proof.Machine.execTenExport e s
  | .tenImport e img => Sys2Proof.Machine.execTenImport e img s
  | .imtWrite e => Sys2Proof.Machine.execImtWrite e s
  | .imtRead e => Sys2Proof.Machine.execImtRead e s
  | .drainComplete ten => Sys2Proof.Machine.execDrainComplete ten s
  | .tenancyResetDone ten => Sys2Proof.Machine.execTenancyResetDone ten s
  | .shareApply p => Sys2Proof.Machine.execShareApply p s
  | .logFlushReadDone ten => Sys2Proof.Machine.execLogFlushReadDone ten s
  | .sqDoorbell fn page off size value => Sys2Proof.Machine.execSqDoorbell fn page off size value s
  | .doorbellInv fn page off size value => Sys2Proof.Machine.execDoorbellInv fn page off size value s
  | .cqDoorbell fn page off size value => Sys2Proof.Machine.execCqDoorbell fn page off size value s
  | .retasPiWrite fn page off size value => Sys2Proof.Machine.execRetasPiWrite fn page off size value s
  | .retasCiWrite fn page off size value => Sys2Proof.Machine.execRetasCiWrite fn page off size value s
  | .strayDoorbell fn page off size value => Sys2Proof.Machine.execStrayDoorbell fn page off size value s
  | .entryFetch q => Sys2Proof.Machine.execEntryFetch q s
  | .entryFetchDone q bytes err => Sys2Proof.Machine.execEntryFetchDone q bytes err s
  | .phaseReread q bytes err => Sys2Proof.Machine.execPhaseReread q bytes err s
  | .schedulerTurn p => Sys2Proof.Machine.execSchedulerTurn p s
  | .nop q pos => Sys2Proof.Machine.execNop q pos s
  | .tx q pos => Sys2Proof.Machine.execTx q pos s
  | .rxBuf q => Sys2Proof.Machine.execRxBuf q s
  | .rxFramePlace tok xlatFault => Sys2Proof.Machine.execRxFramePlace tok xlatFault s
  | .jobCompletion q pos => Sys2Proof.Machine.execJobCompletion q pos s
  | .barrierReadDone q pos err => Sys2Proof.Machine.execBarrierReadDone q pos err s
  | .cqStallTimeout c => Sys2Proof.Machine.execCqStallTimeout c s
  | .modTimerExpire isCq ring => Sys2Proof.Machine.execModTimerExpire isCq ring s
  | .ringCreate e => Sys2Proof.Machine.execRingCreate e s
  | .ringDestroy e => Sys2Proof.Machine.execRingDestroy e s
  | .ringDcinv e => Sys2Proof.Machine.execRingDcinv e s
  | .ringResume e => Sys2Proof.Machine.execRingResume e s
  | .ringSetMod e => Sys2Proof.Machine.execRingSetMod e s
  | .ringSetSched e => Sys2Proof.Machine.execRingSetSched e s
  | .adminRingEnable pf value => Sys2Proof.Machine.execAdminRingEnable pf value s
  | .adminRingDisable pf value => Sys2Proof.Machine.execAdminRingDisable pf value s
  | .adminSqDoorbell pf value => Sys2Proof.Machine.execAdminSqDoorbell pf value s
  | .adminCqDoorbell pf value => Sys2Proof.Machine.execAdminCqDoorbell pf value s
  | .adminCommandTake e count err => Sys2Proof.Machine.execAdminCommandTake e count err s
  | .copy q pos => Sys2Proof.Machine.execCopy q pos s
  | .descriptorReadDone chan bytes err ecc => Sys2Proof.Machine.execDescriptorReadDone chan bytes err ecc s
  | .copyChunk chan input ecc => Sys2Proof.Machine.execCopyChunk chan input ecc s
  | .dmaHaltTimeout chan => Sys2Proof.Machine.execDmaHaltTimeout chan s
  | .dmaGrant e => Sys2Proof.Machine.execDmaGrant e s
  | .grantDrained ten => Sys2Proof.Machine.execGrantDrained ten s
  | .dmaResume e => Sys2Proof.Machine.execDmaResume e s
  | .dmaSkip e => Sys2Proof.Machine.execDmaSkip e s
  | .dmaAbort e => Sys2Proof.Machine.execDmaAbort e s
  | .portApply pf value => Sys2Proof.Machine.execPortApply pf value s
  | .netLinkUp p => Sys2Proof.Machine.execNetLinkUp p s
  | .netLinkDown p localFault remoteFault => Sys2Proof.Machine.execNetLinkDown p localFault remoteFault s
  | .macRxFrame p frame phy => Sys2Proof.Machine.execMacRxFrame p frame phy s
  | .macTxFrame p ue => Sys2Proof.Machine.execMacTxFrame p ue s
  | .pauseFrameRx p pfc enable quanta => Sys2Proof.Machine.execPauseFrameRx p pfc enable quanta s
  | .pauseExpire p cls => Sys2Proof.Machine.execPauseExpire p cls s
  | .pauseRefresh p => Sys2Proof.Machine.execPauseRefresh p s
  | .dimWindow p bits => Sys2Proof.Machine.execDimWindow p bits s
  | .dimCapSend p => Sys2Proof.Machine.execDimCapSend p s
  | .dimCapRx p src full => Sys2Proof.Machine.execDimCapRx p src full s
  | .dimPartnerLost p => Sys2Proof.Machine.execDimPartnerLost p s
  | .dimProposeRx p src seq target full => Sys2Proof.Machine.execDimProposeRx p src seq target full s
  | .dimAcceptRx p src seq target full => Sys2Proof.Machine.execDimAcceptRx p src seq target full s
  | .dimRefuseRx p src seq target full reason => Sys2Proof.Machine.execDimRefuseRx p src seq target full reason s
  | .dimSwitchRx p src seq target full => Sys2Proof.Machine.execDimSwitchRx p src seq target full s
  | .dimRestoreRx p src seq full => Sys2Proof.Machine.execDimRestoreRx p src seq full s
  | .dimRestoreAckRx p src seq full => Sys2Proof.Machine.execDimRestoreAckRx p src seq full s
  | .dimProposeTimeout p => Sys2Proof.Machine.execDimProposeTimeout p s
  | .dimAlignTimeout p => Sys2Proof.Machine.execDimAlignTimeout p s
  | .portCntSnap pf p => Sys2Proof.Machine.execPortCntSnap pf p s
  | .portCntRel pf p value => Sys2Proof.Machine.execPortCntRel pf p value s
  | .svbRxFrame frame good => Sys2Proof.Machine.execSvbRxFrame frame good s
  | .svbTxFrame collisions => Sys2Proof.Machine.execSvbTxFrame collisions s
  | .svbBeaconLoss => Sys2Proof.Machine.execSvbBeaconLoss s
  | .mdioRead pf phy reg => Sys2Proof.Machine.execMdioRead pf phy reg s
  | .mdioWrite pf phy reg data => Sys2Proof.Machine.execMdioWrite pf phy reg data s
  | .crossingClassify tok resultUe => Sys2Proof.Machine.execCrossingClassify tok resultUe s
  | .reentryAdmit => Sys2Proof.Machine.execReentryAdmit s
  | .clsLoad e => Sys2Proof.Machine.execClsLoad e s
  | .clsCommit e => Sys2Proof.Machine.execClsCommit e s
  | .imageSwitchDone => Sys2Proof.Machine.execImageSwitchDone s
  | .clsRsetSet e => Sys2Proof.Machine.execClsRsetSet e s
  | .clsRuleWrite e => Sys2Proof.Machine.execClsRuleWrite e s
  | .clsRuleClear e => Sys2Proof.Machine.execClsRuleClear e s
  | .clsRuleRead e => Sys2Proof.Machine.execClsRuleRead e s
  | .clsIndCfg e => Sys2Proof.Machine.execClsIndCfg e s
  | .clsIndWrite e => Sys2Proof.Machine.execClsIndWrite e s
  | .tcamScrub parityErr => Sys2Proof.Machine.execTcamScrub parityErr s
  | .tcamApply pf value => Sys2Proof.Machine.execTcamApply pf value s
  | .clsHprofApply pf value => Sys2Proof.Machine.execClsHprofApply pf value s
  | .clsRsetSnap pf rset => Sys2Proof.Machine.execClsRsetSnap pf rset s
  | .clsRsetRel pf rset value => Sys2Proof.Machine.execClsRsetRel pf rset value s
  | .forwardFrame tok ecc => Sys2Proof.Machine.execForwardFrame tok ecc s
  | .learnInsert casFails => Sys2Proof.Machine.execLearnInsert casFails s
  | .ctCommitInsert => Sys2Proof.Machine.execCtCommitInsert s
  | .ageTick => Sys2Proof.Machine.execAgeTick s
  | .sweepVisit k => Sys2Proof.Machine.execSweepVisit k s
  | .fwdTblCfg e => Sys2Proof.Machine.execFwdTblCfg e s
  | .fwdRehash e => Sys2Proof.Machine.execFwdRehash e s
  | .rehashDone table => Sys2Proof.Machine.execRehashDone table s
  | .fwdFlowAdd e => Sys2Proof.Machine.execFwdFlowAdd e s
  | .fwdFlowDel e => Sys2Proof.Machine.execFwdFlowDel e s
  | .fwdFlowRead e => Sys2Proof.Machine.execFwdFlowRead e s
  | .fwdBridgeCfg e => Sys2Proof.Machine.execFwdBridgeCfg e s
  | .fwdMacAdd e => Sys2Proof.Machine.execFwdMacAdd e s
  | .fwdActWrite e => Sys2Proof.Machine.execFwdActWrite e s
  | .fwdNatPool e => Sys2Proof.Machine.execFwdNatPool e s
  | .fwdTenCfg e => Sys2Proof.Machine.execFwdTenCfg e s
  | .fwdCntRead e => Sys2Proof.Machine.execFwdCntRead e s
  | .fwdCntReadClear e => Sys2Proof.Machine.execFwdCntReadClear e s
  | .fwdCntClaim e => Sys2Proof.Machine.execFwdCntClaim e s
  | .fwdCntRelease e => Sys2Proof.Machine.execFwdCntRelease e s
  | .fwdFlush e => Sys2Proof.Machine.execFwdFlush e s
  | .aeadUnit tok ecc => Sys2Proof.Machine.execAeadUnit tok ecc s
  | .hsOp e => Sys2Proof.Machine.execHsOp e s
  | .handshakeStart => Sys2Proof.Machine.execHandshakeStart s
  | .handshakeDone idx => Sys2Proof.Machine.execHandshakeDone idx s
  | .rngHealthFail rct apt => Sys2Proof.Machine.execRngHealthFail rct apt s
  | .drbgReseed => Sys2Proof.Machine.execDrbgReseed s
  | .cryRngRestart pf value pass => Sys2Proof.Machine.execCryRngRestart pf value pass s
  | .cryMacsecCfg e => Sys2Proof.Machine.execCryMacsecCfg e s
  | .cryMacsecSa e => Sys2Proof.Machine.execCryMacsecSa e s
  | .cryKeyPut e => Sys2Proof.Machine.execCryKeyPut e s
  | .cryKeyGen e => Sys2Proof.Machine.execCryKeyGen e s
  | .cryKeyDerive e => Sys2Proof.Machine.execCryKeyDerive e s
  | .cryKeyExport e => Sys2Proof.Machine.execCryKeyExport e s
  | .cryKeyZero e => Sys2Proof.Machine.execCryKeyZero e s
  | .cryCtxSet e => Sys2Proof.Machine.execCryCtxSet e s
  | .cryCtxRead e => Sys2Proof.Machine.execCryCtxRead e s
  | .cryCtxNext e => Sys2Proof.Machine.execCryCtxNext e s
  | .cryCtxRotate e => Sys2Proof.Machine.execCryCtxRotate e s
  | .cryCtxResync e => Sys2Proof.Machine.execCryCtxResync e s
  | .cryCtxRekey e => Sys2Proof.Machine.execCryCtxRekey e s
  | .cryCtxDestroy e => Sys2Proof.Machine.execCryCtxDestroy e s
  | .roceRx tok pageFault => Sys2Proof.Machine.execRoceRx tok pageFault s
  | .cnpRx tok => Sys2Proof.Machine.execCnpRx tok s
  | .tcpRx tok => Sys2Proof.Machine.execTcpRx tok s
  | .lackTimeout ctx => Sys2Proof.Machine.execLackTimeout ctx s
  | .srAckTimer ctx => Sys2Proof.Machine.execSrAckTimer ctx s
  | .rcWindow ctx => Sys2Proof.Machine.execRcWindow ctx s
  | .rcIncrease ctx => Sys2Proof.Machine.execRcIncrease ctx s
  | .tcpRto ctx => Sys2Proof.Machine.execTcpRto ctx s
  | .rdmaSend q pos => Sys2Proof.Machine.execRdmaSend q pos s
  | .rdmaWrite q pos => Sys2Proof.Machine.execRdmaWrite q pos s
  | .rdmaRead q pos => Sys2Proof.Machine.execRdmaRead q pos s
  | .rdmaRecv q pos => Sys2Proof.Machine.execRdmaRecv q pos s
  | .blkRead q pos => Sys2Proof.Machine.execBlkRead q pos s
  | .blkWrite q pos => Sys2Proof.Machine.execBlkWrite q pos s
  | .blkFlush q pos => Sys2Proof.Machine.execBlkFlush q pos s
  | .stoConnSet e => Sys2Proof.Machine.execStoConnSet e s
  | .stoConnModify e => Sys2Proof.Machine.execStoConnModify e s
  | .stoConnQuery e => Sys2Proof.Machine.execStoConnQuery e s
  | .stoNvmeCtrl e => Sys2Proof.Machine.execStoNvmeCtrl e s
  | .stoNvmeNs e => Sys2Proof.Machine.execStoNvmeNs e s
  | .stoSsdAttach e => Sys2Proof.Machine.execStoSsdAttach e s
  | .nvmeCcEnable pf vf value => Sys2Proof.Machine.execNvmeCcEnable pf vf value s
  | .nvmeCcDisable pf vf value => Sys2Proof.Machine.execNvmeCcDisable pf vf value s
  | .nvmeShutdown pf vf value => Sys2Proof.Machine.execNvmeShutdown pf vf value s
  | .nvmeSqDoorbell pf vf y value => Sys2Proof.Machine.execNvmeSqDoorbell pf vf y value s
  | .nvmeCqDoorbell pf vf y value => Sys2Proof.Machine.execNvmeCqDoorbell pf vf y value s
  | .nvmeDeleteIoSq pf vf sqe => Sys2Proof.Machine.execNvmeDeleteIoSq pf vf sqe s
  | .nvmeCreateIoSq pf vf sqe => Sys2Proof.Machine.execNvmeCreateIoSq pf vf sqe s
  | .nvmeGetLogPage pf vf sqe prps => Sys2Proof.Machine.execNvmeGetLogPage pf vf sqe prps s
  | .nvmeDeleteIoCq pf vf sqe => Sys2Proof.Machine.execNvmeDeleteIoCq pf vf sqe s
  | .nvmeCreateIoCq pf vf sqe => Sys2Proof.Machine.execNvmeCreateIoCq pf vf sqe s
  | .nvmeIdentify pf vf sqe prps => Sys2Proof.Machine.execNvmeIdentify pf vf sqe prps s
  | .nvmeAbort pf vf sqe => Sys2Proof.Machine.execNvmeAbort pf vf sqe s
  | .nvmeSetFeatures pf vf sqe => Sys2Proof.Machine.execNvmeSetFeatures pf vf sqe s
  | .nvmeGetFeatures pf vf sqe => Sys2Proof.Machine.execNvmeGetFeatures pf vf sqe s
  | .nvmeAsyncEventRequest pf vf sqe => Sys2Proof.Machine.execNvmeAsyncEventRequest pf vf sqe s
  | .nvmeFlush pf vf y sqe => Sys2Proof.Machine.execNvmeFlush pf vf y sqe s
  | .nvmeWrite pf vf y sqe data => Sys2Proof.Machine.execNvmeWrite pf vf y sqe data s
  | .nvmeRead pf vf y sqe prps => Sys2Proof.Machine.execNvmeRead pf vf y sqe prps s
  | .nvmeWriteZeroes pf vf y sqe => Sys2Proof.Machine.execNvmeWriteZeroes pf vf y sqe s
  | .nvmeDatasetManagement pf vf y sqe data => Sys2Proof.Machine.execNvmeDatasetManagement pf vf y sqe data s
  | .wbAgeExpire pf vf ns blk => Sys2Proof.Machine.execWbAgeExpire pf vf ns blk s
  | .nvmfTargetCommand ctx => Sys2Proof.Machine.execNvmfTargetCommand ctx s
  | .ssdCqe ctx => Sys2Proof.Machine.execSsdCqe ctx s
  | .ssdTimeout ctx cid => Sys2Proof.Machine.execSsdTimeout ctx cid s
  | .objPut q pos block targets err => Sys2Proof.Machine.execObjPut q pos block targets err s
  | .objGet q pos block targets man pub err => Sys2Proof.Machine.execObjGet q pos block targets man pub err s
  | .objVerify q pos block targets man pub err => Sys2Proof.Machine.execObjVerify q pos block targets man pub err s
  | .objMigrate q pos block targets newTargets man pub err => Sys2Proof.Machine.execObjMigrate q pos block targets newTargets man pub err s
  | .stagingGrant => Sys2Proof.Machine.execStagingGrant s
  | .archiveStripe ecc => Sys2Proof.Machine.execArchiveStripe ecc s
  | .shardWriteAck => Sys2Proof.Machine.execShardWriteAck s
  | .shardReadDone => Sys2Proof.Machine.execShardReadDone s
  | .arcCfg e => Sys2Proof.Machine.execArcCfg e s
  | .arcSessionAbort e => Sys2Proof.Machine.execArcSessionAbort e s
  | .arcJournalRead e => Sys2Proof.Machine.execArcJournalRead e s
  | .handlerDispatch tok => Sys2Proof.Machine.execHandlerDispatch tok s
  | .threadAccess g acc => Sys2Proof.Machine.execThreadAccess g acc s
  | .tknext g rd rs1 => Sys2Proof.Machine.execTknext g rd rs1 s
  | .tkfree g rs1 => Sys2Proof.Machine.execTkfree g rs1 s
  | .tkfwd g rs1 rs2 => Sys2Proof.Machine.execTkfwd g rs1 rs2 s
  | .tkrecl g rs1 => Sys2Proof.Machine.execTkrecl g rs1 s
  | .tkexc g rs1 rs2 => Sys2Proof.Machine.execTkexc g rs1 rs2 s
  | .tknew g rd rs1 => Sys2Proof.Machine.execTknew g rd rs1 s
  | .hadj g rd rs1 rs2 => Sys2Proof.Machine.execHadj g rd rs1 rs2 s
  | .hlen g rd rs1 rs2 => Sys2Proof.Machine.execHlen g rd rs1 rs2 s
  | .pkrd g rd rs1 rs2 => Sys2Proof.Machine.execPkrd g rd rs1 rs2 s
  | .pkwr g rd rs1 rs2 => Sys2Proof.Machine.execPkwr g rd rs1 rs2 s
  | .lkup g rd rs1 rs2 => Sys2Proof.Machine.execLkup g rd rs1 rs2 s
  | .lkupDone g ecc => Sys2Proof.Machine.execLkupDone g ecc s
  | .evwait g rd rs1 => Sys2Proof.Machine.execEvwait g rd rs1 s
  | .evsig g rs1 => Sys2Proof.Machine.execEvsig g rs1 s
  | .tmset g rs1 => Sys2Proof.Machine.execTmset g rs1 s
  | .threadTimer g => Sys2Proof.Machine.execThreadTimer g s
  | .ctadd g rs1 rs2 => Sys2Proof.Machine.execCtadd g rs1 rs2 s
  | .ctpb g rs1 rs2 => Sys2Proof.Machine.execCtpb g rs1 rs2 s
  | .twr g rd rs1 rs2 => Sys2Proof.Machine.execTwr g rd rs1 rs2 s
  | .trd g rd rs1 => Sys2Proof.Machine.execTrd g rd rs1 s
  | .chsend g rs1 => Sys2Proof.Machine.execChsend g rs1 s
  | .chw g rs1 rs2 => Sys2Proof.Machine.execChw g rs1 rs2 s
  | .chcmt g rd => Sys2Proof.Machine.execChcmt g rd s
  | .chabt g => Sys2Proof.Machine.execChabt g s
  | .chrecv g rd rs1 rs2 => Sys2Proof.Machine.execChrecv g rd rs1 rs2 s
  | .hld g rd rs1 imm size => Sys2Proof.Machine.execHld g rd rs1 imm size s
  | .hst g rs1 rs2 imm size => Sys2Proof.Machine.execHst g rs1 rs2 imm size s
  | .coreThrGo g rd rs1 => Sys2Proof.Machine.execCoreThrGo g rd rs1 s
  | .coreThrStop g rd rs1 => Sys2Proof.Machine.execCoreThrStop g rd rs1 s
  | .coreException g cause mtval mret => Sys2Proof.Machine.execCoreException g cause mtval mret s
  | .channelLeaseExpire g => Sys2Proof.Machine.execChannelLeaseExpire g s
  | .gridlock n => Sys2Proof.Machine.execGridlock n s
  | .breakpointHit g => Sys2Proof.Machine.execBreakpointHit g s
  | .coreLoad e => Sys2Proof.Machine.execCoreLoad e s
  | .coreStart e => Sys2Proof.Machine.execCoreStart e s
  | .coreStop e => Sys2Proof.Machine.execCoreStop e s
  | .coreHndSet e => Sys2Proof.Machine.execCoreHndSet e s
  | .coreChSet e => Sys2Proof.Machine.execCoreChSet e s
  | .coreHwinSet e => Sys2Proof.Machine.execCoreHwinSet e s
  | .coreCaptureRead e => Sys2Proof.Machine.execCoreCaptureRead e s
  | .haltThread id => Sys2Proof.Machine.execHaltThread id s
  | .haltCore id => Sys2Proof.Machine.execHaltCore id s
  | .resume id => Sys2Proof.Machine.execResume id s
  | .step id acc => Sys2Proof.Machine.execStep id acc s
  | .readReg id => Sys2Proof.Machine.execReadReg id s
  | .writeReg id => Sys2Proof.Machine.execWriteReg id s
  | .readMem id => Sys2Proof.Machine.execReadMem id s
  | .writeMem id => Sys2Proof.Machine.execWriteMem id s
  | .abortMsg id => Sys2Proof.Machine.execAbortMsg id s
  | .setBp id => Sys2Proof.Machine.execSetBp id s
  | .capture id => Sys2Proof.Machine.execCapture id s
  | .timeIncApply pf dom value => Sys2Proof.Machine.execTimeIncApply pf dom value s
  | .timeGoSet pf dom => Sys2Proof.Machine.execTimeGoSet pf dom s
  | .timeGoAdj pf dom => Sys2Proof.Machine.execTimeGoAdj pf dom s
  | .timeSwitch pf value => Sys2Proof.Machine.execTimeSwitch pf value s
  | .timeLock pf value => Sys2Proof.Machine.execTimeLock pf value s
  | .timeSnap pf => Sys2Proof.Machine.execTimeSnap pf s
  | .timeRefSelect pf value => Sys2Proof.Machine.execTimeRefSelect pf value s
  | .clk10mLost => Sys2Proof.Machine.execClk10mLost s
  | .clk10mReturn => Sys2Proof.Machine.execClk10mReturn s
  | .timePageWrite => Sys2Proof.Machine.execTimePageWrite s
  | .tioArm pf idx => Sys2Proof.Machine.execTioArm pf idx s
  | .tioDisarm pf idx => Sys2Proof.Machine.execTioDisarm pf idx s
  | .tioPulse idx => Sys2Proof.Machine.execTioPulse idx s
  | .tioCapture idx rising => Sys2Proof.Machine.execTioCapture idx rising s
  | .tioCapRead pf idx => Sys2Proof.Machine.execTioCapRead pf idx s
  | .ppsOutEdge => Sys2Proof.Machine.execPpsOutEdge s
  | .ppsInEdge => Sys2Proof.Machine.execPpsInEdge s
  | .timePageSet e => Sys2Proof.Machine.execTimePageSet e s
  | .ttLoad e => Sys2Proof.Machine.execTtLoad e s
  | .gateListActivate p => Sys2Proof.Machine.execGateListActivate p s
  | .gateChange p => Sys2Proof.Machine.execGateChange p s
  | .fabCfgWrite pf value => Sys2Proof.Machine.execFabCfgWrite pf value s
  | .beaconSend => Sys2Proof.Machine.execBeaconSend s
  | .beaconRx msg => Sys2Proof.Machine.execBeaconRx msg s
  | .coordinatorElection => Sys2Proof.Machine.execCoordinatorElection s
  | .assignSend => Sys2Proof.Machine.execAssignSend s
  | .assignRx msg => Sys2Proof.Machine.execAssignRx msg s
  | .heartbeatSend => Sys2Proof.Machine.execHeartbeatSend s
  | .heartbeatRx msg => Sys2Proof.Machine.execHeartbeatRx msg s
  | .heartbeatLoss addr => Sys2Proof.Machine.execHeartbeatLoss addr s
  | .helloSend => Sys2Proof.Machine.execHelloSend s
  | .helloRx msg => Sys2Proof.Machine.execHelloRx msg s
  | .neighbourDown slot => Sys2Proof.Machine.execNeighbourDown slot s
  | .routeAdvertise => Sys2Proof.Machine.execRouteAdvertise s
  | .routeRx msg => Sys2Proof.Machine.execRouteRx msg s
  | .joinRx msg => Sys2Proof.Machine.execJoinRx msg s
  | .joinRetry => Sys2Proof.Machine.execJoinRetry s
  | .epochRx msg granted => Sys2Proof.Machine.execEpochRx msg granted s
  | .leaveRx msg => Sys2Proof.Machine.execLeaveRx msg s
  | .upRx msg => Sys2Proof.Machine.execUpRx msg s
  | .downRx msg => Sys2Proof.Machine.execDownRx msg s
  | .bcastRx msg => Sys2Proof.Machine.execBcastRx msg s
  | .countRx msg => Sys2Proof.Machine.execCountRx msg s
  | .wakeRx msg => Sys2Proof.Machine.execWakeRx msg s
  | .sequesterTimeout => Sys2Proof.Machine.execSequesterTimeout s
  | .fabOpBarrier e => Sys2Proof.Machine.execFabOpBarrier e s
  | .fabOpBroadcast e => Sys2Proof.Machine.execFabOpBroadcast e s
  | .fabOpSnapshot e => Sys2Proof.Machine.execFabOpSnapshot e s
  | .fabOpReset e => Sys2Proof.Machine.execFabOpReset e s
  | .snapshotCut opId => Sys2Proof.Machine.execSnapshotCut opId s
  | .snapshotEnd opId => Sys2Proof.Machine.execSnapshotEnd opId s
  | .fabOpTimeout opId => Sys2Proof.Machine.execFabOpTimeout opId s
  | .addrHoldExpire block => Sys2Proof.Machine.execAddrHoldExpire block s
  | .fabRouteSet e => Sys2Proof.Machine.execFabRouteSet e s
  | .fabRouteRead e => Sys2Proof.Machine.execFabRouteRead e s
  | .fabNbrSet e => Sys2Proof.Machine.execFabNbrSet e s
  | .fabMembersRead e => Sys2Proof.Machine.execFabMembersRead e s
  | .fabBcastRead e => Sys2Proof.Machine.execFabBcastRead e s
  | .fabSnapRead e => Sys2Proof.Machine.execFabSnapRead e s
  | .twinPair e => Sys2Proof.Machine.execTwinPair e s
  | .twinUnpair e => Sys2Proof.Machine.execTwinUnpair e s
  | .twinStreamSet e => Sys2Proof.Machine.execTwinStreamSet e s
  | .twinSwap e => Sys2Proof.Machine.execTwinSwap e s
  | .twinExerciseNow e => Sys2Proof.Machine.execTwinExerciseNow e s
  | .pairRx msg => Sys2Proof.Machine.execPairRx msg s
  | .pairTimeout => Sys2Proof.Machine.execPairTimeout s
  | .digestSend => Sys2Proof.Machine.execDigestSend s
  | .digestRx msg => Sys2Proof.Machine.execDigestRx msg s
  | .digestRangeMissed stream first => Sys2Proof.Machine.execDigestRangeMissed stream first s
  | .peerDigestLoss => Sys2Proof.Machine.execPeerDigestLoss s
  | .selfCheckDone differs => Sys2Proof.Machine.execSelfCheckDone differs s
  | .checkRx msg => Sys2Proof.Machine.execCheckRx msg s
  | .leaseReqSend => Sys2Proof.Machine.execLeaseReqSend s
  | .leaseReqRx msg => Sys2Proof.Machine.execLeaseReqRx msg s
  | .leaseRx msg => Sys2Proof.Machine.execLeaseRx msg s
  | .leaseExpire => Sys2Proof.Machine.execLeaseExpire s
  | .revokeRx msg => Sys2Proof.Machine.execRevokeRx msg s
  | .revokedRx msg => Sys2Proof.Machine.execRevokedRx msg s
  | .revokeTimeout => Sys2Proof.Machine.execRevokeTimeout s
  | .takeover => Sys2Proof.Machine.execTakeover s
  | .shadowHoldExpire tok => Sys2Proof.Machine.execShadowHoldExpire tok s
  | .holdoffExpire => Sys2Proof.Machine.execHoldoffExpire s
  | .swapRx msg => Sys2Proof.Machine.execSwapRx msg s
  | .releasedRx msg => Sys2Proof.Machine.execReleasedRx msg s
  | .plannedSwap => Sys2Proof.Machine.execPlannedSwap s
  | .exerciseStart => Sys2Proof.Machine.execExerciseStart s
  | .exerciseDone mismatch => Sys2Proof.Machine.execExerciseDone mismatch s
  | .wktPost id w value buf => Sys2Proof.Machine.execWktPost id w value buf s
  | .wktStat id w => Sys2Proof.Machine.execWktStat id w s
  | .wktTake id w value => Sys2Proof.Machine.execWktTake id w value s
  | .wktBindWrite pf w value => Sys2Proof.Machine.execWktBindWrite pf w value s
  | .wktLock pf value => Sys2Proof.Machine.execWktLock pf value s
  | .clusterWicketDeliver w => Sys2Proof.Machine.execClusterWicketDeliver w s
  | .sensorSample temps powers => Sys2Proof.Machine.execSensorSample temps powers s
  | .bootRomStart => Sys2Proof.Machine.execBootRomStart s
  | .firmwareReady cores crossing regs lock entropy => Sys2Proof.Machine.execFirmwareReady cores crossing regs lock entropy s
  | .setEndpointId port op eid => Sys2Proof.Machine.execSetEndpointId port op eid s
  | .getEndpointId port => Sys2Proof.Machine.execGetEndpointId port s
  | .getEndpointUuid port => Sys2Proof.Machine.execGetEndpointUuid port s
  | .getMctpVersionSupport port type => Sys2Proof.Machine.execGetMctpVersionSupport port type s
  | .getMessageTypeSupport port => Sys2Proof.Machine.execGetMessageTypeSupport port s
  | .getVendorMessageSupport port selector => Sys2Proof.Machine.execGetVendorMessageSupport port selector s
  | .spdmGetVersion port => Sys2Proof.Machine.execSpdmGetVersion port s
  | .spdmGetCapabilities port version => Sys2Proof.Machine.execSpdmGetCapabilities port version s
  | .spdmNegotiateAlgorithms port base hash dhe aead => Sys2Proof.Machine.execSpdmNegotiateAlgorithms port base hash dhe aead s
  | .spdmGetDigests port => Sys2Proof.Machine.execSpdmGetDigests port s
  | .spdmGetCertificate port slot off len => Sys2Proof.Machine.execSpdmGetCertificate port slot off len s
  | .spdmChallenge port slot nonce => Sys2Proof.Machine.execSpdmChallenge port slot nonce s
  | .spdmGetMeasurements port index sign nonce => Sys2Proof.Machine.execSpdmGetMeasurements port index sign nonce s
  | .spdmKeyExchange port slot exchange => Sys2Proof.Machine.execSpdmKeyExchange port slot exchange s
  | .spdmFinish port id verify => Sys2Proof.Machine.execSpdmFinish port id verify s
  | .spdmHeartbeat port id => Sys2Proof.Machine.execSpdmHeartbeat port id s
  | .spdmKeyUpdate port id op tag => Sys2Proof.Machine.execSpdmKeyUpdate port id op tag s
  | .spdmEndSession port id => Sys2Proof.Machine.execSpdmEndSession port id s
  | .spdmChunkSend port seq last data => Sys2Proof.Machine.execSpdmChunkSend port seq last data s
  | .spdmChunkGet port seq => Sys2Proof.Machine.execSpdmChunkGet port seq s
  | .pldmSensorRead port id => Sys2Proof.Machine.execPldmSensorRead port id s
  | .pldmFirmwareUpdate port comps certs => Sys2Proof.Machine.execPldmFirmwareUpdate port comps certs s
  | .pldmActivateFirmware port => Sys2Proof.Machine.execPldmActivateFirmware port s
  | .debugAuthChallenge key sig challenge => Sys2Proof.Machine.execDebugAuthChallenge key sig challenge s
  | .jtagInstruction inst => Sys2Proof.Machine.execJtagInstruction inst s
  | .smbSclTimeout => Sys2Proof.Machine.execSmbSclTimeout s
  | .mgtSvnCommit e => Sys2Proof.Machine.execMgtSvnCommit e s
  | .mgtMeasureRead e => Sys2Proof.Machine.execMgtMeasureRead e s
  | .tapFlush p => Sys2Proof.Machine.execTapFlush p s
  | .tapRecord bad flashOk => Sys2Proof.Machine.execTapRecord bad flashOk s
  | .stateRecord t flashOk => Sys2Proof.Machine.execStateRecord t flashOk s
  | .accountMarker flashOk => Sys2Proof.Machine.execAccountMarker flashOk s
  | .metreTick => Sys2Proof.Machine.execMetreTick s
  | .periodClose => Sys2Proof.Machine.execPeriodClose s
  | .readingSigned flashOk => Sys2Proof.Machine.execReadingSigned flashOk s
  | .checkpoint flashOk => Sys2Proof.Machine.execCheckpoint flashOk s
  | .tollPowerLoss flashOk => Sys2Proof.Machine.execTollPowerLoss flashOk s
  | .tollStart config chainBad noCheck flashOk => Sys2Proof.Machine.execTollStart config chainBad noCheck flashOk s
  | .tapDownDetect flashOk => Sys2Proof.Machine.execTapDownDetect flashOk s
  | .crystalFault flashOk => Sys2Proof.Machine.execCrystalFault flashOk s
  | .tollVddGlitch flashOk => Sys2Proof.Machine.execTollVddGlitch flashOk s
  | .powerOn => Sys2Proof.Machine.execPowerOn s
  | .railsOkRise lost => Sys2Proof.Machine.execRailsOkRise lost s
  | .railsOkFall => Sys2Proof.Machine.execRailsOkFall s
  | .railSequenceError rail => Sys2Proof.Machine.execRailSequenceError rail s
  | .refclkSysLost => Sys2Proof.Machine.execRefclkSysLost s
  | .refclkSysReturn lost => Sys2Proof.Machine.execRefclkSysReturn lost s
  | .refclkPcieLost p => Sys2Proof.Machine.execRefclkPcieLost p s
  | .refclkNetLost group => Sys2Proof.Machine.execRefclkNetLost group s
  | .dimEnter => Sys2Proof.Machine.execDimEnter s
  | .dimExit => Sys2Proof.Machine.execDimExit s
  | .quietEnter => Sys2Proof.Machine.execQuietEnter s
  | .quietExit src => Sys2Proof.Machine.execQuietExit src s
  | .quietExitDone => Sys2Proof.Machine.execQuietExitDone s
  | .pwrWake pf value => Sys2Proof.Machine.execPwrWake pf value s
  | .thermalCapStep => Sys2Proof.Machine.execThermalCapStep s
  | .powerCapStep => Sys2Proof.Machine.execPowerCapStep s
  | .pwrWakePeer e => Sys2Proof.Machine.execPwrWakePeer e s
  | .admNop e => Sys2Proof.Machine.execAdmNop e s
  | .admIdentify e => Sys2Proof.Machine.execAdmIdentify e s
  | .admJrnlRead e => Sys2Proof.Machine.execAdmJrnlRead e s
  | .glbPrivLock pf value => Sys2Proof.Machine.execGlbPrivLock pf value s
  | .tlRstNAssert flashOk => Sys2Proof.Machine.execTlRstNAssert flashOk s
  | .vddAonLoss => Sys2Proof.Machine.execVddAonLoss s
  | .perstRelease p => Sys2Proof.Machine.execPerstRelease p s
  | .mgmtRestartDone => Sys2Proof.Machine.execMgmtRestartDone s
  | .coreStartDone n => Sys2Proof.Machine.execCoreStartDone n s
  | .timeSlewDone => Sys2Proof.Machine.execTimeSlewDone s
  | .rnrTimerExpire ctx => Sys2Proof.Machine.execRnrTimerExpire ctx s
  | .peerBeaconLoss uid => Sys2Proof.Machine.execPeerBeaconLoss uid s
  | .lpiEntry p tx => Sys2Proof.Machine.execLpiEntry p tx s
  | .lpiExit p tx => Sys2Proof.Machine.execLpiExit p tx s
  | .svbBeaconReturn => Sys2Proof.Machine.execSvbBeaconReturn s
  | .mdioComplete phyData => Sys2Proof.Machine.execMdioComplete phyData s
  | .l0pWidthChange p width => Sys2Proof.Machine.execL0pWidthChange p width s
  | .twinRecoveryReset stream => Sys2Proof.Machine.execTwinRecoveryReset stream s
  | .membershipHoldExpire => Sys2Proof.Machine.execMembershipHoldExpire s

end Sys2Proof.Machine
end

