-- ==== Sys2Proof/Machine/Tick.lean ====
section
/-! DEFINITION. One nanosecond in which no command waits (DESIGN CHOICE, log 50): local time advances, buckets fill, the clusters'
cycle counters count, the ports' counters of microseconds advance at whole microseconds, the context engine works, and control
firmware takes one forwarding exception. -/

namespace Sys2Proof.Machine

/-- Buckets fill by one nanosecond at a rate of 100 Mb/s units, up to their depth (R86, R123). -/
def bucketFill (rate : Nat) (b : Int) : Int := if rate = 0 then b else min (b + rate) (tokenDepth rate)

/-- R86, R123: ceiling tokens and floor credit of a bound tenancy. -/
def Ten.fill (x : Ten) : Ten :=
  if x.st < 2 then x
  else { x with bucket := bucketFill x.share.ceiling x.bucket, credit := bucketFill x.share.floor x.credit }

def Dev.tenTick (d : Dev) : Dev :=
  { d with ten := { d.ten with tens := d.ten.tens.map (fun (e : Nat × Ten) => (e.1, e.2.fill)) } }

/-- R348: mcycle of every cluster whose clock runs. -/
def Dev.cycleTick (d : Dev) : Dev :=
  if d.pwr.stopC then d
  else d.setPwr { d.pwr with cycles := (d.pwr.cycles.zip d.pwr.cclk).map (fun (x : Nat × Nat) => x.1 + x.2) }

/-- R188: the counters of a port that count microseconds. -/
def Port.tickUs (x : Port) : Port :=
  let add := fun (b : Bool) (i : Nat) (m : Kv Nat) => if b then kvSet 0 i (kvGet 0 m i + 1) m else m
  let w := x.dim.txW
  { x with
    counters := add (x.link && decide (w = 1)) 87 (add (x.link && decide (w = 2)) 86 (add (x.link && decide (w = 4)) 85
      (add (x.link && decide (w = 8)) 84 (add x.lpiRx 83 (add x.lpiTx 82 (add (!x.held.isEmpty) 80 x.counters)))))) }

def Dev.portTick (d : Dev) : Dev :=
  { d with port := { d.port with ports := d.port.ports.map (fun (e : Nat × Port) => (e.1, e.2.tickUs)) } }

/-- R15: control firmware takes the oldest record of the forwarding exception queue. -/
def Dev.fwdExcTake (d : Dev) : Dev :=
  if !d.ctlRuns then d else { d with glb := { d.glb with exc := { d.glb.exc with fwd := d.glb.exc.fwd.drop 1 } } }

/-- R513: the context engine and the fabric agent do nothing while their clocks stand. -/
def Dev.engineTick (d : Dev) : Dev := if d.pwr.stopE then d else d.stoTick
def Dev.agentTick (d : Dev) : Dev := if d.ctlRuns then d.fabTick else d

/-- One nanosecond. Nothing happens without supply, rails or clock, and after a thermal trip. -/
def Dev.tick (d : Dev) : Dev :=
  if d.dead then d
  else
    let us := d.nowNs / 1000
    let d := d.timeTick.tenTick.cycleTick
    let d := if d.nowNs / 1000 = us then d else d.portTick
    d.fwdExcTake.engineTick.agentTick

end Sys2Proof.Machine
end

