-- ==== Sys2Proof/Machine/Step.lean ====
section
/-! DEFINITION. One step: the command at the front of the queue, or one nanosecond when none waits. -/

namespace Sys2Proof.Machine

/-- The front command runs with the queue's rest; on an empty queue one nanosecond passes (DESIGN CHOICE, log 50). -/
def step (s : State) : Host.Outcome State Fault Refusal :=
  match s.pending with
  | [] => .next { s with dev := s.dev.tick }
  | c :: rest => exec c { s with pending := rest }

/-- The host's probe: the command that a word spells, put at the front of the queue. No row of the table gives bits, so no word
spells one (log 51). -/
def State.withFetchWord (s : State) (nbits w : Nat) : State :=
  match Sys2Proof.decodeTableWord nbits w with
  | none => s
  | some c => { s with pending := c :: s.pending }

end Sys2Proof.Machine
end

