-- ==== Sys2Proof/WellFormed.lean ====
section
/-! DEFINITION. Well-formed commands: every operand that names a part of the device lies in the range the spec gives that part, and
every access has a size a BAR0 access may have. -/

namespace Sys2Proof

/-- R39: 16 PFs, and at most 1,024 VFs a PF (R40). -/
def pfOk (n : Nat) : Bool := decide (n < 16)
def vfOk (n : Nat) : Bool := decide (n < 1024)
def Fn.wf : Fn → Bool
  | .pf n => pfOk n
  | .vf p v => pfOk p && vfOk v

/-- R38, R171: two host ports, sixteen network ports. -/
def hostPortOk (p : Nat) : Bool := decide (p < 2)
def netPortOk (p : Nat) : Bool := decide (p < 16)

/-- R72, R105: 4,096 tenancies, 65,536 rings; a position of a ring of at most 65,536 entries counts two laps (R113). -/
def tenOk (t : Nat) : Bool := decide (t < 4096)
def ringOk (q : Nat) : Bool := decide (q < 65536)
def posOk (n : Nat) : Bool := decide (n < 131072)

/-- R21, R148, R290: cells of the Square, copy channels, contexts. -/
def cellOk (t : Nat) : Bool := decide (t < 393216)
def chanOk (c : Nat) : Bool := decide (c < 256)
def ctxOk (c : Nat) : Bool := decide (c < 1048576)

/-- R347: 256 cores of 8 threads; R348: x0 to x31; R385: domains A and B; R208: rule sets. -/
def threadOk (g : Nat) : Bool := decide (g < 2048)
def gprOk (r : Nat) : Bool := decide (r < 32)
def domOk (k : Nat) : Bool := decide (k < 2)
def rsetOk (r : Nat) : Bool := decide (r < 64)

/-- R102, R108: the fields of an admin entry lie in their widths, and its buffer is no longer than the LEN limit of an opcode allows. -/
def AdmEntry.wf (e : AdmEntry) : Bool :=
  pfOk e.pf && decide (e.tag < 65536) && decide (e.opc < 256) && decide (e.len < 4294967296)

/-- R348, R350: the registers of a base instruction, and the sizes of an access. -/
def sizeOk (n : Nat) : Bool := decide (n = 1 ∨ n = 2 ∨ n = 4 ∨ n = 8)
def ThreadAcc.wf : ThreadAcc → Bool
  | .load rd rs1 _ size _ _ => gprOk rd && gprOk rs1 && sizeOk size
  | .store rs1 rs2 _ size _ => gprOk rs1 && gprOk rs2 && sizeOk size
  | .amo op rd rs1 rs2 size => decide (op < 11) && gprOk rd && gprOk rs1 && gprOk rs2 && decide (size = 4 ∨ size = 8)
  | .fetch rd _ _ => gprOk rd

/-- R28: the lines of an error lie in HBM. -/
def Ecc.wf (e : Ecc) : Bool := e.ueLines.all (fun a => decide (a < 0x3000000000))

/-- A well-formed command. -/
def Instr.wf : Instr → Bool
  | .registerWrite fn _ _ _ acc => fn.wf && acc.wf
  | .readClear fn _ _ => fn.wf
  | .bar0BadAccess fn _ _ _ => fn.wf
  | .glbSqApply pf _ => pfOk pf
  | .tcamInv => true
  | .tcamWrite => true
  | .tcamVal => true
  | .lineWrite => true
  | .lineCas => true
  | .indWrite => true
  | .tblDesc => true
  | .fence => true
  | .controlWatchdogExpire => true
  | .controlRestartDone => true
  | .mgmtWatchdogExpire => true
  | .pcieLinkUp p _ _ _ => hostPortOk p
  | .pcieLinkDown p => hostPortOk p
  | .configRequest fn _ _ => fn.wf
  | .vfEnableClear pf => pfOk pf
  | .casementWrite p _ _ _ => hostPortOk p
  | .casementRead p _ _ _ ecc => hostPortOk p && ecc.wf
  | .casementAtomic p => hostPortOk p
  | .hifWinCommit pf p _ => pfOk pf && hostPortOk p
  | .winSetApply p => hostPortOk p
  | .winRetired p => hostPortOk p
  | .translationCompletion p _ _ _ _ _ _ => hostPortOk p
  | .pageRequestResponse _ _ => true
  | .priTimeout _ => true
  | .invalidationRequest p _ fn _ _ _ => hostPortOk p && fn.wf
  | .invalidationCompletion p => hostPortOk p
  | .readIssue p ten => hostPortOk p && tenOk ten
  | .readCompletion p _ _ => hostPortOk p
  | .completionTimeout p _ => hostPortOk p
  | .lateCompletion p _ => hostPortOk p
  | .quarantineRelease p _ => hostPortOk p
  | .ltrSend p => hostPortOk p
  | .l1EntryRequest p => hostPortOk p
  | .d3hotEntry pf => pfOk pf
  | .d0Return pf => pfOk pf
  | .busMasterClear fn => fn.wf
  | .busMasterSet fn => fn.wf
  | .msixUnmask fn _ => fn.wf
  | .pfFlr pf => pfOk pf
  | .vfFlr pf vf => pfOk pf && vfOk vf
  | .hotReset p => hostPortOk p
  | .portFundamentalReset p => hostPortOk p
  | .deviceFundamentalReset _ => true
  | .poisonedTlp fn _ => fn.wf
  | .fatalTlpError p _ => hostPortOk p
  | .tenCreate e => e.wf
  | .tenDestroy e => e.wf
  | .tenBind e => e.wf
  | .tenUnbind e => e.wf
  | .tenOpen e => e.wf
  | .tenClose e => e.wf
  | .tenReset e => e.wf
  | .tenSetShare e => e.wf
  | .logStart e => e.wf
  | .logFlush e => e.wf
  | .logStop e => e.wf
  | .tenExport e => e.wf
  | .tenImport e _ => e.wf
  | .imtWrite e => e.wf
  | .imtRead e => e.wf
  | .drainComplete ten => tenOk ten
  | .tenancyResetDone ten => tenOk ten
  | .shareApply p => hostPortOk p
  | .logFlushReadDone ten => tenOk ten
  | .sqDoorbell fn page _ _ _ => fn.wf && tenOk page
  | .doorbellInv fn page _ _ _ => fn.wf && tenOk page
  | .cqDoorbell fn page _ _ _ => fn.wf && tenOk page
  | .retasPiWrite fn page _ _ _ => fn.wf && tenOk page
  | .retasCiWrite fn page _ _ _ => fn.wf && tenOk page
  | .strayDoorbell fn page _ _ _ => fn.wf && tenOk page
  | .entryFetch q => ringOk q
  | .entryFetchDone q _ _ => ringOk q
  | .phaseReread q _ _ => ringOk q
  | .schedulerTurn p => hostPortOk p
  | .nop q pos => ringOk q && posOk pos
  | .tx q pos => ringOk q && posOk pos
  | .rxBuf q => ringOk q
  | .rxFramePlace tok _ => cellOk tok
  | .jobCompletion q pos => ringOk q && posOk pos
  | .barrierReadDone q pos _ => ringOk q && posOk pos
  | .cqStallTimeout _ => true
  | .modTimerExpire _ _ => true
  | .ringCreate e => e.wf
  | .ringDestroy e => e.wf
  | .ringDcinv e => e.wf
  | .ringResume e => e.wf
  | .ringSetMod e => e.wf
  | .ringSetSched e => e.wf
  | .adminRingEnable pf _ => pfOk pf
  | .adminRingDisable pf _ => pfOk pf
  | .adminSqDoorbell pf _ => pfOk pf
  | .adminCqDoorbell pf _ => pfOk pf
  | .adminCommandTake e _ _ => e.wf
  | .copy q pos => ringOk q && posOk pos
  | .descriptorReadDone chan _ _ ecc => chanOk chan && ecc.wf
  | .copyChunk chan _ ecc => chanOk chan && ecc.wf
  | .dmaHaltTimeout chan => chanOk chan
  | .dmaGrant e => e.wf
  | .grantDrained ten => tenOk ten
  | .dmaResume e => e.wf
  | .dmaSkip e => e.wf
  | .dmaAbort e => e.wf
  | .portApply pf _ => pfOk pf
  | .netLinkUp p => netPortOk p
  | .netLinkDown p _ _ => netPortOk p
  | .macRxFrame p _ _ => netPortOk p
  | .macTxFrame p _ => netPortOk p
  | .pauseFrameRx p _ _ _ => netPortOk p
  | .pauseExpire p _ => netPortOk p
  | .pauseRefresh p => netPortOk p
  | .dimWindow p _ => netPortOk p
  | .dimCapSend p => netPortOk p
  | .dimCapRx p _ _ => netPortOk p
  | .dimPartnerLost p => netPortOk p
  | .dimProposeRx p _ _ _ _ => netPortOk p
  | .dimAcceptRx p _ _ _ _ => netPortOk p
  | .dimRefuseRx p _ _ _ _ _ => netPortOk p
  | .dimSwitchRx p _ _ _ _ => netPortOk p
  | .dimRestoreRx p _ _ _ => netPortOk p
  | .dimRestoreAckRx p _ _ _ => netPortOk p
  | .dimProposeTimeout p => netPortOk p
  | .dimAlignTimeout p => netPortOk p
  | .portCntSnap pf p => pfOk pf && netPortOk p
  | .portCntRel pf p _ => pfOk pf && netPortOk p
  | .svbRxFrame _ _ => true
  | .svbTxFrame _ => true
  | .svbBeaconLoss => true
  | .mdioRead pf _ _ => pfOk pf
  | .mdioWrite pf _ _ _ => pfOk pf
  | .crossingClassify tok _ => cellOk tok
  | .reentryAdmit => true
  | .clsLoad e => e.wf
  | .clsCommit e => e.wf
  | .imageSwitchDone => true
  | .clsRsetSet e => e.wf
  | .clsRuleWrite e => e.wf
  | .clsRuleClear e => e.wf
  | .clsRuleRead e => e.wf
  | .clsIndCfg e => e.wf
  | .clsIndWrite e => e.wf
  | .tcamScrub _ => true
  | .tcamApply pf _ => pfOk pf
  | .clsHprofApply pf _ => pfOk pf
  | .clsRsetSnap pf rset => pfOk pf && rsetOk rset
  | .clsRsetRel pf rset _ => pfOk pf && rsetOk rset
  | .forwardFrame tok ecc => cellOk tok && ecc.wf
  | .learnInsert _ => true
  | .ctCommitInsert => true
  | .ageTick => true
  | .sweepVisit _ => true
  | .fwdTblCfg e => e.wf
  | .fwdRehash e => e.wf
  | .rehashDone _ => true
  | .fwdFlowAdd e => e.wf
  | .fwdFlowDel e => e.wf
  | .fwdFlowRead e => e.wf
  | .fwdBridgeCfg e => e.wf
  | .fwdMacAdd e => e.wf
  | .fwdActWrite e => e.wf
  | .fwdNatPool e => e.wf
  | .fwdTenCfg e => e.wf
  | .fwdCntRead e => e.wf
  | .fwdCntReadClear e => e.wf
  | .fwdCntClaim e => e.wf
  | .fwdCntRelease e => e.wf
  | .fwdFlush e => e.wf
  | .aeadUnit tok ecc => cellOk tok && ecc.wf
  | .hsOp e => e.wf
  | .handshakeStart => true
  | .handshakeDone _ => true
  | .rngHealthFail _ _ => true
  | .drbgReseed => true
  | .cryRngRestart pf _ _ => pfOk pf
  | .cryMacsecCfg e => e.wf
  | .cryMacsecSa e => e.wf
  | .cryKeyPut e => e.wf
  | .cryKeyGen e => e.wf
  | .cryKeyDerive e => e.wf
  | .cryKeyExport e => e.wf
  | .cryKeyZero e => e.wf
  | .cryCtxSet e => e.wf
  | .cryCtxRead e => e.wf
  | .cryCtxNext e => e.wf
  | .cryCtxRotate e => e.wf
  | .cryCtxResync e => e.wf
  | .cryCtxRekey e => e.wf
  | .cryCtxDestroy e => e.wf
  | .roceRx tok _ => cellOk tok
  | .cnpRx tok => cellOk tok
  | .tcpRx tok => cellOk tok
  | .lackTimeout ctx => ctxOk ctx
  | .srAckTimer ctx => ctxOk ctx
  | .rcWindow ctx => ctxOk ctx
  | .rcIncrease ctx => ctxOk ctx
  | .tcpRto ctx => ctxOk ctx
  | .rdmaSend q pos => ringOk q && posOk pos
  | .rdmaWrite q pos => ringOk q && posOk pos
  | .rdmaRead q pos => ringOk q && posOk pos
  | .rdmaRecv q pos => ringOk q && posOk pos
  | .blkRead q pos => ringOk q && posOk pos
  | .blkWrite q pos => ringOk q && posOk pos
  | .blkFlush q pos => ringOk q && posOk pos
  | .stoConnSet e => e.wf
  | .stoConnModify e => e.wf
  | .stoConnQuery e => e.wf
  | .stoNvmeCtrl e => e.wf
  | .stoNvmeNs e => e.wf
  | .stoSsdAttach e => e.wf
  | .nvmeCcEnable pf vf _ => pfOk pf && vfOk vf
  | .nvmeCcDisable pf vf _ => pfOk pf && vfOk vf
  | .nvmeShutdown pf vf _ => pfOk pf && vfOk vf
  | .nvmeSqDoorbell pf vf _ _ => pfOk pf && vfOk vf
  | .nvmeCqDoorbell pf vf _ _ => pfOk pf && vfOk vf
  | .nvmeDeleteIoSq pf vf _ => pfOk pf && vfOk vf
  | .nvmeCreateIoSq pf vf _ => pfOk pf && vfOk vf
  | .nvmeGetLogPage pf vf _ _ => pfOk pf && vfOk vf
  | .nvmeDeleteIoCq pf vf _ => pfOk pf && vfOk vf
  | .nvmeCreateIoCq pf vf _ => pfOk pf && vfOk vf
  | .nvmeIdentify pf vf _ _ => pfOk pf && vfOk vf
  | .nvmeAbort pf vf _ => pfOk pf && vfOk vf
  | .nvmeSetFeatures pf vf _ => pfOk pf && vfOk vf
  | .nvmeGetFeatures pf vf _ => pfOk pf && vfOk vf
  | .nvmeAsyncEventRequest pf vf _ => pfOk pf && vfOk vf
  | .nvmeFlush pf vf _ _ => pfOk pf && vfOk vf
  | .nvmeWrite pf vf _ _ _ => pfOk pf && vfOk vf
  | .nvmeRead pf vf _ _ _ => pfOk pf && vfOk vf
  | .nvmeWriteZeroes pf vf _ _ => pfOk pf && vfOk vf
  | .nvmeDatasetManagement pf vf _ _ _ => pfOk pf && vfOk vf
  | .wbAgeExpire pf vf _ _ => pfOk pf && vfOk vf
  | .nvmfTargetCommand ctx => ctxOk ctx
  | .ssdCqe ctx => ctxOk ctx
  | .ssdTimeout ctx _ => ctxOk ctx
  | .objPut q pos _ _ _ => ringOk q && posOk pos
  | .objGet q pos _ _ _ _ _ => ringOk q && posOk pos
  | .objVerify q pos _ _ _ _ _ => ringOk q && posOk pos
  | .objMigrate q pos _ _ _ _ _ _ => ringOk q && posOk pos
  | .stagingGrant => true
  | .archiveStripe ecc => ecc.wf
  | .shardWriteAck => true
  | .shardReadDone => true
  | .arcCfg e => e.wf
  | .arcSessionAbort e => e.wf
  | .arcJournalRead e => e.wf
  | .handlerDispatch tok => cellOk tok
  | .threadAccess g acc => threadOk g && acc.wf
  | .tknext g rd rs1 => threadOk g && gprOk rd && gprOk rs1
  | .tkfree g rs1 => threadOk g && gprOk rs1
  | .tkfwd g rs1 rs2 => threadOk g && gprOk rs1 && gprOk rs2
  | .tkrecl g rs1 => threadOk g && gprOk rs1
  | .tkexc g rs1 rs2 => threadOk g && gprOk rs1 && gprOk rs2
  | .tknew g rd rs1 => threadOk g && gprOk rd && gprOk rs1
  | .hadj g rd rs1 rs2 => threadOk g && gprOk rd && gprOk rs1 && gprOk rs2
  | .hlen g rd rs1 rs2 => threadOk g && gprOk rd && gprOk rs1 && gprOk rs2
  | .pkrd g rd rs1 rs2 => threadOk g && gprOk rd && gprOk rs1 && gprOk rs2
  | .pkwr g rd rs1 rs2 => threadOk g && gprOk rd && gprOk rs1 && gprOk rs2
  | .lkup g rd rs1 rs2 => threadOk g && gprOk rd && gprOk rs1 && gprOk rs2
  | .lkupDone g ecc => threadOk g && ecc.wf
  | .evwait g rd rs1 => threadOk g && gprOk rd && gprOk rs1
  | .evsig g rs1 => threadOk g && gprOk rs1
  | .tmset g rs1 => threadOk g && gprOk rs1
  | .threadTimer g => threadOk g
  | .ctadd g rs1 rs2 => threadOk g && gprOk rs1 && gprOk rs2
  | .ctpb g rs1 rs2 => threadOk g && gprOk rs1 && gprOk rs2
  | .twr g rd rs1 rs2 => threadOk g && gprOk rd && gprOk rs1 && gprOk rs2
  | .trd g rd rs1 => threadOk g && gprOk rd && gprOk rs1
  | .chsend g rs1 => threadOk g && gprOk rs1
  | .chw g rs1 rs2 => threadOk g && gprOk rs1 && gprOk rs2
  | .chcmt g rd => threadOk g && gprOk rd
  | .chabt g => threadOk g
  | .chrecv g rd rs1 rs2 => threadOk g && gprOk rd && gprOk rs1 && gprOk rs2
  | .hld g rd rs1 _ _ => threadOk g && gprOk rd && gprOk rs1
  | .hst g rs1 rs2 _ _ => threadOk g && gprOk rs1 && gprOk rs2
  | .coreThrGo g rd rs1 => threadOk g && gprOk rd && gprOk rs1
  | .coreThrStop g rd rs1 => threadOk g && gprOk rd && gprOk rs1
  | .coreException g _ _ _ => threadOk g
  | .channelLeaseExpire g => threadOk g
  | .gridlock _ => true
  | .breakpointHit g => threadOk g
  | .coreLoad e => e.wf
  | .coreStart e => e.wf
  | .coreStop e => e.wf
  | .coreHndSet e => e.wf
  | .coreChSet e => e.wf
  | .coreHwinSet e => e.wf
  | .coreCaptureRead e => e.wf
  | .haltThread _ => true
  | .haltCore _ => true
  | .resume _ => true
  | .step _ acc => acc.wf
  | .readReg _ => true
  | .writeReg _ => true
  | .readMem _ => true
  | .writeMem _ => true
  | .abortMsg _ => true
  | .setBp _ => true
  | .capture _ => true
  | .timeIncApply pf dom _ => pfOk pf && domOk dom
  | .timeGoSet pf dom => pfOk pf && domOk dom
  | .timeGoAdj pf dom => pfOk pf && domOk dom
  | .timeSwitch pf _ => pfOk pf
  | .timeLock pf _ => pfOk pf
  | .timeSnap pf => pfOk pf
  | .timeRefSelect pf _ => pfOk pf
  | .clk10mLost => true
  | .clk10mReturn => true
  | .timePageWrite => true
  | .tioArm pf _ => pfOk pf
  | .tioDisarm pf _ => pfOk pf
  | .tioPulse _ => true
  | .tioCapture _ _ => true
  | .tioCapRead pf _ => pfOk pf
  | .ppsOutEdge => true
  | .ppsInEdge => true
  | .timePageSet e => e.wf
  | .ttLoad e => e.wf
  | .gateListActivate p => netPortOk p
  | .gateChange p => netPortOk p
  | .fabCfgWrite pf _ => pfOk pf
  | .beaconSend => true
  | .beaconRx _ => true
  | .coordinatorElection => true
  | .assignSend => true
  | .assignRx _ => true
  | .heartbeatSend => true
  | .heartbeatRx _ => true
  | .heartbeatLoss _ => true
  | .helloSend => true
  | .helloRx _ => true
  | .neighbourDown _ => true
  | .routeAdvertise => true
  | .routeRx _ => true
  | .joinRx _ => true
  | .joinRetry => true
  | .epochRx _ _ => true
  | .leaveRx _ => true
  | .upRx _ => true
  | .downRx _ => true
  | .bcastRx _ => true
  | .countRx _ => true
  | .wakeRx _ => true
  | .sequesterTimeout => true
  | .fabOpBarrier e => e.wf
  | .fabOpBroadcast e => e.wf
  | .fabOpSnapshot e => e.wf
  | .fabOpReset e => e.wf
  | .snapshotCut _ => true
  | .snapshotEnd _ => true
  | .fabOpTimeout _ => true
  | .addrHoldExpire _ => true
  | .fabRouteSet e => e.wf
  | .fabRouteRead e => e.wf
  | .fabNbrSet e => e.wf
  | .fabMembersRead e => e.wf
  | .fabBcastRead e => e.wf
  | .fabSnapRead e => e.wf
  | .twinPair e => e.wf
  | .twinUnpair e => e.wf
  | .twinStreamSet e => e.wf
  | .twinSwap e => e.wf
  | .twinExerciseNow e => e.wf
  | .pairRx _ => true
  | .pairTimeout => true
  | .digestSend => true
  | .digestRx _ => true
  | .digestRangeMissed _ _ => true
  | .peerDigestLoss => true
  | .selfCheckDone _ => true
  | .checkRx _ => true
  | .leaseReqSend => true
  | .leaseReqRx _ => true
  | .leaseRx _ => true
  | .leaseExpire => true
  | .revokeRx _ => true
  | .revokedRx _ => true
  | .revokeTimeout => true
  | .takeover => true
  | .shadowHoldExpire tok => cellOk tok
  | .holdoffExpire => true
  | .swapRx _ => true
  | .releasedRx _ => true
  | .plannedSwap => true
  | .exerciseStart => true
  | .exerciseDone _ => true
  | .wktPost _ _ _ _ => true
  | .wktStat _ _ => true
  | .wktTake _ _ _ => true
  | .wktBindWrite pf _ _ => pfOk pf
  | .wktLock pf _ => pfOk pf
  | .clusterWicketDeliver _ => true
  | .sensorSample _ _ => true
  | .bootRomStart => true
  | .firmwareReady _ _ _ _ _ => true
  | .setEndpointId _ _ _ => true
  | .getEndpointId _ => true
  | .getEndpointUuid _ => true
  | .getMctpVersionSupport _ _ => true
  | .getMessageTypeSupport _ => true
  | .getVendorMessageSupport _ _ => true
  | .spdmGetVersion _ => true
  | .spdmGetCapabilities _ _ => true
  | .spdmNegotiateAlgorithms _ _ _ _ _ => true
  | .spdmGetDigests _ => true
  | .spdmGetCertificate _ _ _ _ => true
  | .spdmChallenge _ _ _ => true
  | .spdmGetMeasurements _ _ _ _ => true
  | .spdmKeyExchange _ _ _ => true
  | .spdmFinish _ _ _ => true
  | .spdmHeartbeat _ _ => true
  | .spdmKeyUpdate _ _ _ _ => true
  | .spdmEndSession _ _ => true
  | .spdmChunkSend _ _ _ _ => true
  | .spdmChunkGet _ _ => true
  | .pldmSensorRead _ _ => true
  | .pldmFirmwareUpdate _ _ _ => true
  | .pldmActivateFirmware _ => true
  | .debugAuthChallenge _ _ _ => true
  | .jtagInstruction _ => true
  | .smbSclTimeout => true
  | .mgtSvnCommit e => e.wf
  | .mgtMeasureRead e => e.wf
  | .tapFlush p => netPortOk p
  | .tapRecord _ _ => true
  | .stateRecord _ _ => true
  | .accountMarker _ => true
  | .metreTick => true
  | .periodClose => true
  | .readingSigned _ => true
  | .checkpoint _ => true
  | .tollPowerLoss _ => true
  | .tollStart _ _ _ _ => true
  | .tapDownDetect _ => true
  | .crystalFault _ => true
  | .tollVddGlitch _ => true
  | .powerOn => true
  | .railsOkRise _ => true
  | .railsOkFall => true
  | .railSequenceError _ => true
  | .refclkSysLost => true
  | .refclkSysReturn _ => true
  | .refclkPcieLost p => hostPortOk p
  | .refclkNetLost _ => true
  | .dimEnter => true
  | .dimExit => true
  | .quietEnter => true
  | .quietExit _ => true
  | .quietExitDone => true
  | .pwrWake pf _ => pfOk pf
  | .thermalCapStep => true
  | .powerCapStep => true
  | .pwrWakePeer e => e.wf
  | .admNop e => e.wf
  | .admIdentify e => e.wf
  | .admJrnlRead e => e.wf
  | .glbPrivLock pf _ => pfOk pf
  | .tlRstNAssert _ => true
  | .vddAonLoss => true
  | .perstRelease p => hostPortOk p
  | .mgmtRestartDone => true
  | .coreStartDone _ => true
  | .timeSlewDone => true
  | .rnrTimerExpire ctx => ctxOk ctx
  | .peerBeaconLoss _ => true
  | .lpiEntry p _ => netPortOk p
  | .lpiExit p _ => netPortOk p
  | .svbBeaconReturn => true
  | .mdioComplete _ => true
  | .l0pWidthChange p _ => hostPortOk p
  | .twinRecoveryReset _ => true
  | .membershipHoldExpire => true

end Sys2Proof
end

