-- ==== Sys2Proof/Safety.lean ====
section
/-! DEFINITION. The terms of the statements: the parts of the device and when two devices agree on one, the canonical form of the
registers and of HBM, when a command runs, and what its completion is. -/

namespace Sys2Proof.Machine

/-! Parts of the device. -/

/-- The parts of the device's state that a frame names. -/
inductive Part where
  /-- BAR0 registers; HBM with its poison marks; the Square -/
  | regs | hbm | square
  /-- exception queues; planes and their watchdogs; the admin journal; the table-update engine -/
  | exc | planes | admJ | tue
  /-- host ports; configuration space of the functions; VF counts applied; the requests the host ports have in flight -/
  | hifPorts | fns | applied | hifReq
  /-- tenancies; the interrupt message table; the schedulers -/
  | tens | imt | sched
  /-- rings; jobs; admin rings; admin commands in progress -/
  | rings | jobs | adm | taken
  /-- copy engine; network ports and the service bus; the Crossing; forwarding; the packet cores; twins; the fabric -/
  | dma | port | cls | fwd | cpu | twin | fab
  /-- keys and contexts; storage and RDMA; the archive path; the Tollhouse; management; time; power -/
  | cry | sto | arc | toll | mgt | time | pwr
  /-- what left the device; the value the last read returned; the serial number of the next free value (the model's own, log 2 and 3) -/
  | out | lastRead | serial
  deriving DecidableEq, Repr

/-- Two devices agree on a part. -/
def Part.same (p : Part) (a b : Dev) : Prop :=
  match p with
  | .regs => b.regs = a.regs
  | .hbm => b.hbm = a.hbm
  | .square => b.glb.square = a.glb.square
  | .exc => b.glb.exc = a.glb.exc
  | .planes => b.glb.planes = a.glb.planes
  | .admJ => b.glb.admSeq = a.glb.admSeq ∧ b.glb.admJournal = a.glb.admJournal
  | .tue => b.glb.tueQ = a.glb.tueQ ∧ b.glb.tblSeq = a.glb.tblSeq ∧ b.glb.tblJournal = a.glb.tblJournal ∧ b.glb.recSeq = a.glb.recSeq
  | .hifPorts => b.hif.ports = a.hif.ports
  | .fns => b.hif.fns = a.hif.fns
  | .applied => b.hif.applied = a.hif.applied
  | .hifReq => b.hif.atc = a.hif.atc ∧ b.hif.xlats = a.hif.xlats ∧ b.hif.pageReqs = a.hif.pageReqs ∧
      b.hif.nextGroup = a.hif.nextGroup ∧ b.hif.eng = a.hif.eng ∧ b.hif.nextEng = a.hif.nextEng
  | .tens => b.ten.tens = a.ten.tens
  | .imt => b.ten.imt = a.ten.imt
  | .sched => b.ten.sched = a.ten.sched
  | .rings => b.ring.sqs = a.ring.sqs ∧ b.ring.cqs = a.ring.cqs
  | .jobs => b.ring.jobs = a.ring.jobs
  | .adm => b.ring.adm = a.ring.adm
  | .taken => b.ring.taken = a.ring.taken ∧ b.ring.admTurn = a.ring.admTurn
  | .dma => b.dma = a.dma
  | .port => b.port = a.port
  | .cls => b.cls = a.cls
  | .fwd => b.fwd = a.fwd
  | .cpu => b.cpu = a.cpu
  | .twin => b.twin = a.twin
  | .fab => b.fab = a.fab
  | .cry => b.cry = a.cry
  | .sto => b.sto = a.sto
  | .arc => b.arc = a.arc
  | .toll => b.toll = a.toll
  | .mgt => b.mgt = a.mgt
  | .time => b.time = a.time
  | .pwr => b.pwr = a.pwr
  | .out => b.out = a.out
  | .lastRead => b.lastRead = a.lastRead
  | .serial => b.serial = a.serial

/-- The devices agree on every part but those listed. -/
def Agree (l : List Part) (a b : Dev) : Prop := ∀ p : Part, p ∉ l → p.same a b

/-! Canonical form. -/

/-- Keys strictly rising, and no entry that equals what its register holds at reset. -/
def RegsCanon (m : Kv Word) : Prop := kvSorted m = true ∧ ∀ e ∈ m, e.2 ≠ regReset e.1

/-- HBM: addresses strictly rising, and no entry that equals what an unlisted address reads as. -/
def Memory.wf (h : Hbm) : Bool := kvCanon 0#8 h.cells

/-- The registers and HBM are in canonical form. -/
def Dev.Canon (d : Dev) : Prop := RegsCanon d.regs ∧ Memory.wf d.hbm = true

/-! When a command runs, and what it answers. -/

/-- The command answers a next state that keeps the queue of waiting commands and has the property. -/
def Runs (c : Instr) (s : State) (P : Dev → Prop) : Prop :=
  ∃ t, exec c s = .next t ∧ t.pending = s.pending ∧ P t.dev

/-- Rails, clock and supply are there and no thermal trip has stopped the device (R472, R508, R511, R535). -/
def Alive (s : State) : Prop := s.dev.dead = false

/-- Control firmware runs and no other admin command is in progress (R18, R513, R558). -/
def AdmReady (s : State) : Prop := Alive s ∧ s.dev.ctlRuns = true ∧ s.dev.ring.taken = []

/-- The admin journal holds the record of the command's end: opcode, TAG, PF, STATUS and DETAIL (R562). -/
def AdmEnded (a b : Dev) (e : AdmEntry) (opc status detail : Nat) : Prop :=
  ∃ r ∈ b.glb.admJournal, r.seq = a.glb.admSeq ∧ r.pf = e.pf ∧ r.opc = opc ∧ r.tag = e.tag ∧ r.status = status ∧ r.detail = detail

/-- The command completed with DONE. -/
def AdmDone (a b : Dev) (e : AdmEntry) (opc : Nat) : Prop := ∃ det, AdmEnded a b e opc 0 det

/-- The command was taken and has not completed. -/
def AdmWaits (b : Dev) (e : AdmEntry) : Prop := ∃ k ∈ b.ring.taken, k.e = e

end Sys2Proof.Machine
end

