-- ==== Sys2Proof/Safety/Terms.lean ====
section
/-! DEFINITION. Further terms of the statements: what a command leaves alone, when an admin command may run, and what its completion
is. -/

namespace Sys2Proof.Machine

/-! What a command leaves alone, finer than a part. -/

/-- Every register but those listed reads as before, as far as it is a word of its own. -/
def OnlyRegs (l : List Nat) (a b : Dev) : Prop := ∀ o, o ∉ l → b.reg o = a.reg o

/-- Every byte of HBM outside the n bytes at x reads as before. -/
def OnlyBytes (x n : Nat) (a b : Dev) : Prop := ∀ y, y < x ∨ x + n ≤ y → b.hbm.byte y = a.hbm.byte y

/-- Registers whose write or read is more than R7's access code: an action, a rule on the value, or a state that follows the register. -/
def actionReg (off : Nat) : Bool :=
  (regIdx 0x100100 0x10000 2 off).isSome || (regIdx 0x810024 0x1000 16 off).isSome || (regIdx 0xA02004 0x40 64 off).isSome ||
    (regIdx 0x1800100 0x40 2 off).isSome || (regIdx 0x1800118 0x40 2 off).isSome || (regIdx 0x1801018 0x40 8 off).isSome ||
    (regIdx 0x1910000 0x40 16 off).isSome || (regIdx 0x1C00100 4 256 off).isSome ||
    [Reg.GLB_SQ_APPLY, Reg.GLB_PRIV_LOCK, Reg.GLB_PRIV_PF, 0x400110, 0x400114, 0x400118, Reg.PORT_APPLY, Reg.SVB_MDIO_CMD, Reg.TCAM_APPLY,
      Reg.CLS_HPROF_APPLY, Reg.CRY_RNG_RESTART, Reg.CORE_DBG_CMD, Reg.CORE_DBG_CTL, Reg.TIME_CTL, Reg.TIME_SEL, Reg.TIME_LOCK, Reg.FAB_CFG,
      Reg.WKT_LOCK, Reg.PWR_WAKE, Reg.PWR_CFG, Reg.SVB_CFG, Reg.SVB_PLCA, Reg.TIME_SNAP].contains off ||
    decide (0x1C10000 ≤ off ∧ off < 0x1C20000) || decide (0x180000 ≤ off ∧ off < 0x1C0000) ||
    (regIdx 0x810020 0x1000 16 off).isSome || (regIdx 0xA02000 0x40 64 off).isSome || (regIdx 0x1801020 0x40 8 off).isSome ||
    rangeRules.any (fun r => (regIdx r.base r.stride r.count off).isSome)

/-! What each command may change, and what it runs on. -/

/-- The parts that the completion of an admin command touches. -/
def admParts : List Part := [.adm, .admJ, .taken, .out, .fns, .hifPorts]

def allParts : List Part := [.regs, .hbm, .square, .exc, .planes, .admJ, .tue, .hifPorts, .fns, .applied, .hifReq, .tens, .imt, .sched, .rings, .jobs, .adm, .taken, .dma, .port, .cls, .fwd, .cpu, .twin, .fab, .cry, .sto, .arc, .toll, .mgt, .time, .pwr, .out, .lastRead, .serial]

def allBut (l : List Part) : List Part := allParts.filter (fun p => !l.contains p)

/-- The parts of the device that a command may change. -/
def commandParts : Instr → List Part
  | .registerWrite .. => allBut [.planes, .applied, .sched, .toll, .lastRead]
  | .readClear .. => [.regs, .port, .cls, .mgt, .time, .lastRead]
  | .bar0BadAccess .. => [.regs, .lastRead]
  | .glbSqApply .. | .leaseReqSend => [.regs, .square]
  | .tcamInv | .tcamWrite | .tcamVal | .lineWrite | .lineCas | .indWrite | .tblDesc | .fence | .rehashDone .. | .fwdFlowAdd ..
  | .fwdMacAdd .. => admParts ++ [.regs, .hbm, .tue, .cls, .fwd]
  | .controlWatchdogExpire => [.planes, .tue]
  | .controlRestartDone => admParts ++ [.regs, .planes]
  | .mgmtWatchdogExpire => [.planes, .mgt]
  | .pcieLinkUp .. => [.regs, .hifPorts, .pwr]
  | .pcieLinkDown .. | .refclkPcieLost ..
    => admParts ++ [.regs, .hbm, .square, .tue, .hifReq, .tens, .imt, .rings, .jobs, .dma, .port, .twin, .cry, .sto, .arc]
  | .configRequest .. => [.hifPorts, .fns, .out, .serial]
  | .vfEnableClear .. | .tenUnbind .. | .tenReset .. | .nvmeCcDisable ..
    => admParts ++ [.hbm, .square, .tue, .hifReq, .tens, .imt, .rings, .jobs, .dma, .port, .twin, .cry, .sto, .arc]
  | .casementWrite .. => [.regs, .hbm, .fns]
  | .casementRead .. => [.regs, .hbm, .fns, .out, .serial]
  | .casementAtomic .. | .d3hotEntry .. | .msixUnmask .. => [.fns, .out]
  | .hifWinCommit .. | .winSetApply .. => [.regs, .hifPorts]
  | .winRetired .. | .ppsInEdge | .wktLock .. | .glbPrivLock .. => [.regs]
  | .translationCompletion .. | .pageRequestResponse .. | .priTimeout .. | .completionTimeout ..
    => admParts ++ [.regs, .hifReq, .tens, .imt, .rings, .jobs, .dma, .sto]
  | .invalidationRequest .. => [.hifPorts, .hifReq]
  | .invalidationCompletion .. => [.hifPorts, .out]
  | .readIssue .. => [.hifPorts, .hifReq, .out]
  | .readCompletion .. => admParts ++ [.regs, .square, .hifReq, .tens, .imt, .rings, .jobs, .dma, .sto, .toll]
  | .lateCompletion .. => [.regs, .hifPorts, .fns]
  | .quarantineRelease .. | .l1EntryRequest .. | .l0pWidthChange .. => [.hifPorts]
  | .ltrSend .. => [.regs, .hifPorts, .out]
  | .d0Return .. => [.regs, .hifPorts, .fns, .tens, .imt, .rings, .adm, .sto, .pwr, .out]
  | .busMasterClear .. | .poisonedTlp .. => [.fns]
  | .busMasterSet .. | .sqDoorbell .. | .doorbellInv .. | .cqDoorbell .. | .retasPiWrite .. | .retasCiWrite ..
  | .strayDoorbell .. | .cqStallTimeout .. => [.regs, .hifPorts, .fns, .tens, .imt, .rings, .adm, .sto, .out]
  | .pfFlr .. | .vfFlr .. | .hotReset ..
    => admParts ++ [.regs, .hbm, .square, .tue, .hifReq, .tens, .imt, .rings, .jobs, .dma, .port, .twin, .cry, .sto, .arc, .pwr]
  | .portFundamentalReset ..
    => admParts ++ [.regs, .hbm, .square, .tue, .applied, .hifReq, .tens, .imt, .rings, .jobs, .dma, .port, .twin, .cry, .sto, .arc, .pwr]
  | .deviceFundamentalReset .. | .railsOkRise .. | .refclkSysReturn .. => allBut [.out, .lastRead]
  | .fatalTlpError .. => [.hifPorts, .fns]
  | .tenCreate .. => admParts ++ [.regs, .tens]
  | .tenDestroy .. => admParts ++ [.tens, .rings, .jobs, .dma, .cls, .toll, .time]
  | .tenBind .. | .tenSetShare .. | .logStart .. | .logFlush .. | .logStop .. | .drainComplete .. => admParts ++ [.tens]
  | .tenOpen .. => admParts ++ [.regs, .tens, .imt, .rings, .sto]
  | .tenClose .. => admParts ++ [.hifReq, .tens, .imt, .rings, .jobs, .dma, .sto, .arc]
  | .tenExport .. => admParts ++ [.regs, .hbm, .tens, .imt, .rings, .cry, .sto, .serial]
  | .tenImport .. | .cryMacsecSa .. | .cryKeyPut .. | .cryKeyDerive .. | .cryKeyExport .. | .cryCtxSet .. | .cryCtxNext ..
  | .cryCtxRekey .. => admParts ++ [.regs, .hbm, .tens, .imt, .rings, .cry, .sto]
  | .imtWrite .. => admParts ++ [.imt]
  | .imtRead .. | .cryCtxRead .. | .stoConnQuery .. | .arcJournalRead .. | .coreCaptureRead .. | .fabRouteRead ..
  | .fabMembersRead .. | .fabBcastRead .. | .fabSnapRead .. | .mgtMeasureRead .. | .admNop .. | .admIdentify ..
  | .admJrnlRead .. => admParts ++ []
  | .tenancyResetDone .. => admParts ++ [.tens, .rings, .dma, .cls]
  | .shareApply .. => admParts ++ [.tens, .sched]
  | .logFlushReadDone .. => admParts ++ [.hifReq, .tens]
  | .entryFetch .. => [.hifPorts, .rings]
  | .entryFetchDone .. | .phaseReread .. => [.regs, .hifPorts, .fns, .hifReq, .tens, .imt, .rings, .adm, .sto, .out]
  | .schedulerTurn .. => admParts ++ [.tens, .sched, .rings, .jobs, .dma]
  | .nop .. => [.hifPorts, .jobs]
  | .tx .. => [.square, .hifPorts, .tens, .jobs]
  | .rxBuf .. | .rdmaRecv .. => [.rings, .jobs, .dma]
  | .rxFramePlace .. => [.regs, .square, .exc, .hifPorts, .fns, .applied, .hifReq, .tens, .rings, .jobs, .dma, .port, .toll, .out]
  | .jobCompletion .. | .lackTimeout .. | .rnrTimerExpire ..
    => [.regs, .hifPorts, .fns, .tens, .imt, .rings, .jobs, .adm, .sto, .out]
  | .barrierReadDone .. => [.hifPorts, .hifReq, .rings, .jobs, .dma]
  | .modTimerExpire .. => [.hifPorts, .fns, .imt, .rings, .sto, .out]
  | .ringCreate .. | .ringDcinv .. | .ringSetMod .. | .ringSetSched .. => admParts ++ [.rings]
  | .ringDestroy .. => admParts ++ [.rings, .jobs]
  | .ringResume .. | .stoConnModify .. => admParts ++ [.regs, .tens, .imt, .rings, .jobs, .sto]
  | .adminRingEnable .. | .adminRingDisable .. => [.regs, .adm]
  | .adminSqDoorbell .. | .adminCqDoorbell .. => [.regs, .hifPorts, .fns, .adm, .out]
  | .adminCommandTake .. => admParts ++ [.regs]
  | .copy .. => [.hifPorts, .jobs, .dma]
  | .descriptorReadDone .. | .copyChunk ..
    => [.regs, .hbm, .hifPorts, .fns, .hifReq, .tens, .imt, .rings, .jobs, .adm, .dma, .sto, .out]
  | .dmaHaltTimeout .. => [.regs, .hifPorts, .hifReq, .jobs, .dma]
  | .dmaGrant .. | .grantDrained .. | .dmaResume .. => admParts ++ [.dma]
  | .dmaSkip .. | .dmaAbort .. => admParts ++ [.hifReq, .jobs, .dma]
  | .portApply .. => admParts ++ [.regs, .port, .time]
  | .netLinkUp .. | .netLinkDown .. | .pauseExpire .. | .dimPartnerLost .. | .dimProposeTimeout .. | .dimAlignTimeout ..
  | .refclkNetLost .. | .lpiEntry .. | .lpiExit .. | .svbBeaconReturn => [.port]
  | .macRxFrame .. | .pauseFrameRx .. => [.regs, .square, .fns, .port, .cry, .pwr, .out]
  | .macTxFrame .. => [.regs, .square, .hifPorts, .fns, .jobs, .adm, .port, .cry, .time, .out]
  | .pauseRefresh .. | .dimWindow .. | .dimCapSend .. | .dimCapRx .. | .dimProposeRx .. | .dimAcceptRx .. | .dimRefuseRx ..
  | .dimSwitchRx .. | .dimRestoreRx .. | .dimRestoreAckRx .. => [.port, .out]
  | .portCntSnap .. => [.regs, .port, .lastRead]
  | .portCntRel .. | .svbBeaconLoss | .mdioComplete .. => [.regs, .port]
  | .svbRxFrame .. | .crossingClassify .. => allBut [.planes, .applied, .sched, .fwd, .toll, .mgt, .time, .lastRead, .serial]
  | .svbTxFrame .. | .pwrWakePeer .. => admParts ++ [.regs, .port]
  | .mdioRead .. | .mdioWrite .. => [.regs, .port, .out]
  | .reentryAdmit => [.square, .cls]
  | .clsLoad .. | .clsCommit .. | .imageSwitchDone | .clsRsetSet .. => admParts ++ [.cls]
  | .clsRuleWrite .. | .clsIndCfg .. | .clsIndWrite .. | .fwdTblCfg .. | .fwdFlowDel .. | .fwdActWrite .. | .fwdCntClaim ..
  | .fwdCntRelease .. | .fwdFlush .. => admParts ++ [.hbm, .tue, .cls, .fwd]
  | .clsRuleClear .. | .fabRouteSet .. => admParts ++ [.tue]
  | .clsRuleRead .. | .fwdFlowRead .. | .fwdCntRead .. | .fwdCntReadClear .. => admParts ++ [.hbm, .cls, .fwd]
  | .tcamScrub .. | .sweepVisit .. => [.regs, .hbm, .cls, .fwd]
  | .tcamApply .. | .clsHprofApply .. | .clsRsetRel .. => [.regs, .cls]
  | .clsRsetSnap .. => [.regs, .cls, .lastRead]
  | .forwardFrame .. => [.regs, .hbm, .square, .exc, .hifPorts, .fns, .jobs, .adm, .port, .cls, .fwd, .twin, .sto, .out]
  | .learnInsert .. => [.regs, .hbm, .hifPorts, .fns, .adm, .cls, .fwd, .out]
  | .ctCommitInsert => [.regs, .hbm, .square, .hifPorts, .fns, .jobs, .adm, .port, .cls, .fwd, .out]
  | .ageTick => [.fwd]
  | .fwdRehash .. => admParts ++ [.hbm, .fwd, .serial]
  | .fwdBridgeCfg .. | .fwdNatPool .. | .fwdTenCfg .. => admParts ++ [.fwd]
  | .aeadUnit .. => [.regs, .hbm, .square, .hifPorts, .fns, .tens, .imt, .rings, .jobs, .adm, .port, .cry, .sto, .out]
  | .hsOp .. | .cryMacsecCfg .. | .cryCtxRotate .. | .cryCtxResync .. | .cryCtxDestroy .. => admParts ++ [.cry]
  | .handshakeStart | .drbgReseed => [.cry]
  | .handshakeDone .. => admParts ++ [.regs, .hbm, .tens, .imt, .rings, .cpu, .cry, .sto, .toll, .serial]
  | .rngHealthFail .. => [.regs, .hifPorts, .fns, .adm, .cry, .out]
  | .cryRngRestart .. => [.regs, .cry]
  | .cryKeyGen .. => admParts ++ [.cry, .serial]
  | .cryKeyZero .. => admParts ++ [.regs, .hbm, .tens, .imt, .rings, .cry, .sto, .arc]
  | .roceRx .. => [.regs, .hbm, .square, .hifPorts, .fns, .tens, .imt, .rings, .jobs, .adm, .dma, .port, .sto, .toll, .out]
  | .cnpRx .. => [.regs, .square, .jobs, .port, .sto, .out]
  | .tcpRx .. => [.regs, .square, .exc, .hifPorts, .fns, .tens, .imt, .rings, .jobs, .adm, .port, .cry, .sto, .out]
  | .srAckTimer .. => [.square, .sto]
  | .rcWindow .. => [.regs, .square, .sto]
  | .rcIncrease .. | .nvmeCcEnable .. | .nvmeShutdown .. | .nvmeSqDoorbell .. | .wbAgeExpire .. => [.sto]
  | .tcpRto .. => [.regs, .square, .hifPorts, .fns, .tens, .imt, .rings, .adm, .sto, .out]
  | .rdmaSend .. | .rdmaWrite .. | .rdmaRead .. | .blkRead .. | .blkWrite .. | .blkFlush .. => [.hifPorts, .jobs, .sto]
  | .stoConnSet .. | .stoNvmeCtrl .. | .stoNvmeNs .. | .stoSsdAttach .. => admParts ++ [.sto]
  | .nvmeCqDoorbell .. | .nvmeDeleteIoSq .. | .nvmeCreateIoSq .. | .nvmeDeleteIoCq .. | .nvmeCreateIoCq .. | .nvmeIdentify ..
  | .nvmeAbort .. | .nvmeSetFeatures .. | .nvmeGetFeatures .. | .nvmeAsyncEventRequest .. | .nvmeFlush ..
  | .nvmeDatasetManagement .. => [.regs, .hifPorts, .fns, .tens, .imt, .rings, .sto, .out]
  | .nvmeGetLogPage .. => [.regs, .hifPorts, .fns, .tens, .imt, .rings, .sto, .out, .serial]
  | .nvmeWrite .. => [.regs, .hbm, .hifPorts, .fns, .tens, .imt, .rings, .sto, .toll, .out]
  | .nvmeRead .. => [.regs, .hifPorts, .fns, .tens, .imt, .rings, .sto, .toll, .out]
  | .nvmeWriteZeroes .. => [.regs, .hbm, .hifPorts, .fns, .tens, .imt, .rings, .sto, .out]
  | .nvmfTargetCommand .. | .ssdCqe .. | .ssdTimeout .. => [.regs, .hifPorts, .fns, .tens, .imt, .rings, .adm, .cry, .sto, .out]
  | .objPut .. => [.regs, .hbm, .hifPorts, .fns, .tens, .imt, .rings, .jobs, .adm, .cry, .sto, .arc, .out]
  | .objGet .. | .objVerify .. | .objMigrate ..
    => [.regs, .hbm, .hifPorts, .fns, .tens, .imt, .rings, .jobs, .adm, .cry, .sto, .arc, .toll, .out]
  | .archiveStripe .. => [.regs, .hbm, .tens, .rings, .jobs, .cry, .sto, .arc, .toll, .out, .serial]
  | .stagingGrant | .shardWriteAck | .shardReadDone => [.regs, .tens, .rings, .jobs, .cry, .sto, .arc, .toll, .out, .serial]
  | .arcCfg .. | .arcSessionAbort .. => admParts ++ [.arc]
  | .handlerDispatch .. => [.regs, .hbm, .square, .exc, .jobs, .port, .cpu, .out]
  | .threadAccess .. | .pkrd .. | .pkwr .. | .twr .. | .trd .. | .coreThrGo .. | .coreThrStop .. | .coreException ..
    => [.regs, .hbm, .square, .exc, .hifPorts, .fns, .jobs, .adm, .port, .cpu, .out, .serial]
  | .tknext .. | .tkfree .. | .tkfwd .. | .tkexc .. | .hadj .. | .hlen .. | .lkup .. | .ctadd .. | .chsend .. | .chw ..
  | .chrecv .. | .hld .. | .hst .. => [.regs, .hbm, .square, .exc, .hifPorts, .fns, .jobs, .adm, .port, .cpu, .out]
  | .tkrecl .. => [.regs, .hbm, .square, .exc, .hifPorts, .fns, .jobs, .adm, .port, .cls, .cpu, .out]
  | .tknew .. => [.square, .cpu]
  | .lkupDone .. => [.regs, .hbm, .exc, .cpu]
  | .evwait .. | .evsig .. | .threadTimer .. => [.hbm, .cpu]
  | .tmset .. | .breakpointHit .. => [.cpu]
  | .ctpb .. => [.regs, .hbm, .cpu]
  | .chcmt .. => [.regs, .hbm, .hifPorts, .fns, .cpu, .cry, .mgt, .pwr, .out, .serial]
  | .chabt .. | .channelLeaseExpire .. => [.regs, .cpu]
  | .gridlock .. => [.regs, .square, .exc, .hifPorts, .fns, .jobs, .adm, .port, .cpu, .out]
  | .coreLoad .. | .coreHndSet .. | .coreChSet .. | .coreHwinSet .. => admParts ++ [.cpu]
  | .coreStart .. | .coreStop .. => admParts ++ [.regs, .square, .exc, .jobs, .port, .cpu]
  | .haltThread .. | .haltCore .. | .resume .. | .step .. | .readReg .. | .writeReg .. | .readMem .. | .writeMem ..
  | .abortMsg .. | .setBp .. | .capture ..
    => [.regs, .hbm, .square, .exc, .hifPorts, .fns, .jobs, .adm, .port, .cls, .cpu, .cry, .mgt, .pwr, .out, .serial]
  | .timeIncApply .. | .timeGoSet .. | .timeGoAdj .. | .timeSwitch .. | .timeLock .. | .timeRefSelect .. | .tioArm ..
  | .tioDisarm .. | .tioCapture .. => [.regs, .time]
  | .timeSnap .. | .tioCapRead .. => [.regs, .time, .lastRead]
  | .clk10mLost => [.regs, .hifPorts, .fns, .adm, .time, .out]
  | .clk10mReturn | .gateChange .. | .timeSlewDone => [.time]
  | .timePageWrite | .ppsOutEdge | .getEndpointId .. | .getEndpointUuid .. | .getMctpVersionSupport ..
  | .getMessageTypeSupport .. | .getVendorMessageSupport .. | .pldmSensorRead .. => [.out]
  | .tioPulse .. => [.time, .out]
  | .timePageSet .. | .ttLoad .. | .gateListActivate .. => admParts ++ [.time]
  | .fabCfgWrite .. => admParts ++ [.regs, .square, .fab]
  | .beaconSend => [.regs, .port, .fab]
  | .beaconRx .. | .coordinatorElection | .helloRx .. => [.regs, .fab]
  | .assignSend | .assignRx .. | .heartbeatLoss .. | .joinRx .. | .joinRetry | .epochRx .. | .leaveRx .. | .countRx ..
  | .digestRx .. | .releasedRx .. | .membershipHoldExpire => admParts ++ [.regs, .square, .port, .twin, .fab, .sto]
  | .heartbeatSend => [.regs, .square, .fab]
  | .heartbeatRx .. => admParts ++ [.regs, .square, .tue, .port, .twin, .fab, .sto]
  | .helloSend | .routeAdvertise => [.square]
  | .neighbourDown .. | .addrHoldExpire .. => [.fab]
  | .routeRx .. => [.regs, .tue, .fab]
  | .upRx .. | .downRx .. => admParts ++ [.regs, .square, .port, .cls, .fab]
  | .bcastRx .. | .fabOpBarrier .. | .fabOpBroadcast .. | .fabOpSnapshot .. | .fabOpReset ..
    => allBut [.planes, .applied, .sched, .fwd, .toll, .mgt, .time, .pwr, .lastRead, .serial]
  | .wakeRx .. => [.regs, .fab, .pwr]
  | .sequesterTimeout | .peerBeaconLoss .. => [.regs, .hifPorts, .fns, .adm, .fab, .out]
  | .snapshotCut .. => [.port, .cls, .fab]
  | .snapshotEnd .. => admParts ++ [.regs, .fab]
  | .fabOpTimeout .. | .fabNbrSet .. => admParts ++ [.fab]
  | .twinPair .. | .twinUnpair .. | .pairTimeout => admParts ++ [.regs, .square, .port, .twin]
  | .twinStreamSet .. => admParts ++ [.twin]
  | .twinSwap .. => admParts ++ [.regs, .square, .twin]
  | .twinExerciseNow .. => admParts ++ [.regs, .twin]
  | .pairRx .. => admParts ++ [.regs, .square, .port, .twin, .fab]
  | .digestSend | .plannedSwap => [.regs, .square, .twin]
  | .digestRangeMissed .. | .exerciseStart => [.regs, .twin]
  | .peerDigestLoss | .selfCheckDone .. | .holdoffExpire => [.regs, .square, .hifPorts, .fns, .adm, .twin, .out]
  | .checkRx .. => [.regs, .square, .hifPorts, .fns, .adm, .twin, .fab, .out]
  | .leaseReqRx .. | .revokeRx .. => [.regs, .square, .twin, .fab]
  | .leaseRx .. => [.regs, .square, .hifPorts, .fns, .adm, .port, .twin, .fab, .sto, .out]
  | .leaseExpire | .exerciseDone .. => [.regs, .hifPorts, .fns, .adm, .twin, .out]
  | .revokedRx .. => [.regs, .twin, .fab]
  | .revokeTimeout | .twinRecoveryReset .. => [.twin]
  | .takeover => [.regs, .square, .hifPorts, .fns, .adm, .port, .twin, .sto, .out]
  | .shadowHoldExpire .. => [.regs, .square, .port, .twin, .out]
  | .swapRx .. => admParts ++ [.regs, .square, .twin, .fab]
  | .wktPost .. => [.regs, .hifPorts, .fns, .mgt, .pwr, .out]
  | .wktStat .. => [.regs, .mgt, .lastRead]
  | .wktTake .. | .pldmFirmwareUpdate .. => [.regs, .hifPorts, .fns, .adm, .mgt, .out]
  | .wktBindWrite .. | .bootRomStart => [.regs, .mgt]
  | .clusterWicketDeliver .. => [.regs, .hbm, .cpu, .mgt]
  | .sensorSample .. => [.regs, .hifPorts, .fns, .adm, .mgt, .pwr, .out]
  | .firmwareReady .. => [.regs, .planes, .cls, .cpu, .cry, .mgt, .serial]
  | .setEndpointId .. => [.regs, .out]
  | .spdmGetVersion .. | .spdmGetCapabilities .. | .spdmNegotiateAlgorithms .. | .spdmGetDigests .. | .spdmGetCertificate ..
  | .spdmGetMeasurements .. | .spdmFinish .. | .spdmHeartbeat .. | .spdmKeyUpdate .. | .spdmEndSession .. | .spdmChunkSend ..
  | .spdmChunkGet .. | .jtagInstruction .. => [.mgt, .out]
  | .spdmChallenge .. | .spdmKeyExchange .. => [.mgt, .out, .serial]
  | .pldmActivateFirmware .. => [.planes, .mgt, .out]
  | .debugAuthChallenge .. => [.regs, .hbm, .cry, .mgt]
  | .smbSclTimeout => [.mgt]
  | .mgtSvnCommit .. => admParts ++ [.regs, .mgt]
  | .tapFlush .. | .metreTick | .periodClose | .checkpoint .. => [.toll]
  | .tapRecord .. | .stateRecord .. | .accountMarker .. | .readingSigned .. | .tollPowerLoss .. | .tollStart ..
  | .tapDownDetect .. | .crystalFault .. | .tollVddGlitch .. | .tlRstNAssert .. => [.regs, .hifPorts, .fns, .toll, .mgt, .pwr, .out]
  | .powerOn | .vddAonLoss => allBut [.out, .lastRead, .serial]
  | .railsOkFall | .refclkSysLost => allBut [.hbm, .out, .lastRead]
  | .railSequenceError .. | .quietExit .. => [.regs, .pwr]
  | .dimEnter | .dimExit | .pwrWake .. | .thermalCapStep | .powerCapStep => [.regs, .pwr, .serial]
  | .quietEnter => admParts ++ [.regs, .hbm, .square, .exc, .jobs, .port, .cls, .fwd, .cpu, .twin, .fab, .sto, .pwr]
  | .quietExitDone => admParts ++ [.regs, .square, .exc, .jobs, .port, .cpu, .twin, .fab, .sto, .pwr, .serial]
  | .perstRelease .. => [.hifPorts, .pwr]
  | .mgmtRestartDone => [.regs, .planes, .mgt]
  | .coreStartDone .. => admParts ++ [.regs, .cpu]

/-- The parts that an idle step may change. -/
def idleParts : List Part := admParts ++ [.regs, .hbm, .square, .exc, .hifReq, .tens, .imt, .rings, .jobs, .port, .twin, .fab, .cry, .sto, .arc, .toll, .time, .pwr]

/-- What a command needs to run: the main rails and clock, the always-on supply, or nothing (the Tollhouse and the supply itself). -/
inductive Supply where
  | main | aon | any
  deriving DecidableEq, Repr

def commandSupply : Instr → Supply
  | .mgmtWatchdogExpire | .portFundamentalReset .. | .deviceFundamentalReset .. | .svbRxFrame .. | .svbTxFrame ..
  | .svbBeaconLoss | .beaconSend | .beaconRx .. | .wakeRx .. | .wktPost .. | .wktStat .. | .wktTake .. | .sensorSample ..
  | .bootRomStart | .setEndpointId .. | .getEndpointId .. | .getEndpointUuid .. | .getMctpVersionSupport ..
  | .getMessageTypeSupport .. | .getVendorMessageSupport .. | .spdmGetVersion .. | .spdmGetCapabilities ..
  | .spdmNegotiateAlgorithms .. | .spdmGetDigests .. | .spdmGetCertificate .. | .spdmChallenge .. | .spdmGetMeasurements ..
  | .spdmKeyExchange .. | .spdmFinish .. | .spdmHeartbeat .. | .spdmKeyUpdate .. | .spdmEndSession .. | .spdmChunkSend ..
  | .spdmChunkGet .. | .pldmSensorRead .. | .pldmFirmwareUpdate .. | .pldmActivateFirmware .. | .debugAuthChallenge ..
  | .jtagInstruction .. | .smbSclTimeout | .railsOkRise .. | .railsOkFall | .railSequenceError .. | .refclkSysLost
  | .refclkSysReturn .. | .perstRelease .. | .mgmtRestartDone | .svbBeaconReturn | .mdioComplete .. => .aon
  | .tapRecord .. | .accountMarker .. | .metreTick | .periodClose | .readingSigned .. | .checkpoint .. | .tollPowerLoss ..
  | .tollStart .. | .tapDownDetect .. | .crystalFault .. | .tollVddGlitch .. | .powerOn | .tlRstNAssert .. | .vddAonLoss => .any
  | _ => .main

/-! Admin commands and the table-update engine. -/

/-- The command of PF `e.pf` is privileged (R549), or that PF owns the tenancy or the tenancy is FREE (R73). -/
def Priv (e : AdmEntry) (s : State) : Prop := s.dev.privNow e.pf = true
def Owns (e : AdmEntry) (t : Nat) (s : State) : Prop := (s.dev.tenGet t).st = 0 ∨ (s.dev.tenGet t).owner = e.pf

/-- An admin command runs to DONE, and the property holds then. -/
def Completes (c : Instr) (e : AdmEntry) (opc : Nat) (s : State) (P : Dev → Prop) : Prop :=
  Runs c s fun b => AdmDone s.dev b e opc ∧ P b

/-- Records were posted behind those that wait, numbered on from the last (R216, R563). -/
def TuePosts (a b : Dev) (l : List TueRec) : Prop :=
  b.glb.tueQ = a.glb.tueQ ++ l.zipIdx.map (fun x => { x.1 with seq := a.glb.recSeq + x.2 })

/-- An admin command is taken, its effect so far has the property, and its completion comes later. -/
def Waits (c : Instr) (e : AdmEntry) (s : State) (P : Dev → Prop) : Prop :=
  Runs c s fun b => AdmWaits b e ∧ P b

/-- A frame that enters forwarding starts with action list i: the one its classification names; the miss list of its tenancy when no
flow lookup applies; or the list of the flow line its key hits (R226, R233, R249). -/
def StartsList (d : Dev) (p : Packet) (i : Nat) : Prop :=
  (p.cls.av = true ∧ i = p.cls.action) ∨
  (p.cls.av = false ∧ p.tenV = true ∧ ∃ r, kvFind p.ten d.fwd.tens = some r ∧
    ((r.flowEn = false ∧ i = r.miss) ∨
     (r.flowEn = true ∧ (p.slot 3).isSome = true ∧ ∃ key a, p.flowKey r.inner = some key ∧ (d.desc 1).v = true ∧
       (∀ x ∈ (d.desc 1).places key, d.hbm.poisoned x 64 = false) ∧ d.findIn (d.desc 1) key = some a ∧ lnTs (d.line a) = d.fwd.now ∧
       lnD5 (d.line a) / 2 ^ 17 % 2 = 0 ∧ lnD5 (d.line a) / 2 ^ 42 % 2 = 0 ∧ i = lnD5 (d.line a) % 131072)))

/-- The 64 bytes of a line are those listed, and no other byte of HBM changed. -/
def LineIs (a b : Dev) (x : Nat) (l : List Byte) : Prop :=
  (∀ i, i < 64 → b.hbm.byte (x + i) = l.getD i 0#8) ∧ OnlyBytes x 64 a b

/-- An event went to a PF: written to its admin completion ring while that has room, counted as lost where no ring is enabled (R134,
R138, R564). -/
def PfTold (a b : Dev) (pf type p2 : Nat) : Prop :=
  ((a.admGet pf).en = false → b.reg (Reg.RING_EVT_LOST pf) = counterAdd (a.reg (Reg.RING_EVT_LOST pf)) 1) ∧
  ((a.admGet pf).en = true → a.admRoom pf = true → a.fnHeld (.pf pf) = false → (a.admGet pf).stash = [] →
    ∃ addr e, Out.cqe true pf (a.admGet pf).write addr e ∈ b.out ∧ e.d2 = packD [(type % 65536, 0), (p2 % 4294967296, 32)])

/-- An event went to a tenancy: to its event ring, else to the PF that owns it (R134). -/
def TenTold (a b : Dev) (t type p2 : Nat) : Prop :=
  (a.evtRing t = none → PfTold a b (a.tenGet t).owner type p2) ∧
  (∀ c x, a.evtRing t = some (c, x) → kvFind c a.ring.cqs = some x → x.stash = [] → a.cqOpen x = true →
    a.shutPass x.ten (a.tenGet t).gen = true →
    ∃ addr e, Out.cqe false c x.write addr e ∈ b.out ∧ e.d2 = packD [(type % 65536, 0), (p2 % 4294967296, 32)])

/-- The packet is one that a queue pair takes: of the present generation, its ICRC right, its bytes from the BTH on those given (R294). -/
def RoceTaken (s : State) (tok c : Nat) (p : Packet) (q : Qp) (bytes : List Byte) : Prop :=
  Alive s ∧ s.dev.pkt tok = some p ∧ p.stage = .context c ∧ s.dev.qp c = some q ∧ p.gen = s.dev.stoGen c ∧ roceBytes p.data = some bytes ∧
    (q.state = 2 ∨ q.state = 3)

/-- A job of a ring starts an operation of a queue pair (R296). -/
def RdmaStarts (s : State) (q pos op c : Nat) (j : Job) (x : Qp) : Prop :=
  Alive s ∧ s.dev.jobFind q pos = some j ∧ j.opc = op ∧ j.res = none ∧ j.reading = false ∧ s.dev.jobLive j = true ∧
    s.dev.notFirst j = false ∧ s.dev.jobQp j = some (c, x) ∧ (∀ e ∈ j.entries, e.len ≠ 0) ∧ j.total ≤ 0x40000000 ∧ x.state ≠ 4

/-- A command at the head of submission queue y that the emulated controller takes, its completion queue free (R307, R308). -/
def NvTakes (s : State) (pf vf y : Nat) (e : SqEntry) (op : Nat) (c : NvCtrl) : Prop :=
  Alive s ∧ s.dev.ctrl (ctrlKey pf vf) = some c ∧ s.dev.nvReady c y = true ∧ seOp e = op ∧
    ∃ q x, kvFind y c.sqs = some q ∧ kvFind q.cq c.cqs = some x ∧ x.room = true ∧ x.stash = []

/-- It completes: an entry with its CID, Dword 0 and status is written to the completion queue of its submission queue, whose head has
moved on (R308). -/
def NvEnds (a b : Dev) (pf vf y : Nat) (e : SqEntry) (dw0 st : Nat) : Prop :=
  ∃ c q x c' cqe, a.ctrl (ctrlKey pf vf) = some c ∧ kvFind y c.sqs = some q ∧ kvFind q.cq c.cqs = some x ∧
    b.ctrl (ctrlKey pf vf) = some c' ∧ (kvGet default c'.sqs y).head = (q.head + 1) % max 1 q.size ∧
    Out.hostWrite (a.tenFn c.ten) (a.tenGet c.ten).pasid (x.base + 16 * x.tail) cqe false ∈ b.out ∧ leAt cqe 0 4 = dw0 % 2 ^ 32 ∧
    leAt cqe 12 2 = seCid e ∧ leAt cqe 14 2 / 2 = st

/-! The archive engine. -/

/-- The engine takes the archive job at a position of a ring: live, not begun, its session idle, and staging configured (R329, R333,
R341). -/
def ArcBegins (s : State) (q pos op : Nat) (j : Job) : Prop :=
  Alive s ∧ s.dev.jobFind q pos = some j ∧ j.opc = op ∧ j.res = none ∧ s.dev.jobLive j = true ∧ s.dev.arc.stageSize ≠ 0 ∧
    (∀ w ∈ s.dev.arc.works, ¬(w.sq = q ∧ w.cur = some pos)) ∧
    (j.arcPhase < 2 ∨ ∀ w, s.dev.session j.ten j.arcSession = some w → w.cur = none)

/-- What R332, R333 and R338 ask of a job that reads an object holds: reserved fields zero, the manifest's form, its layout, its target
table, its key, its session, and the signatures where the job asks for them. -/
def ArcReads (d : Dev) (j : Job) (b targets man pub : List Byte) (useKey : Bool) : Prop :=
  j.arcReserved = none ∧ blockReserved b = none ∧ leAt b 46 1 ≤ 4 ∧ 256 ≤ leAt b 104 4 ∧ beAt man 0 4 = 0x574D414E ∧ beAt man 4 1 = 1 ∧
    (arcOfMan man).bad 6 9 = none ∧ leAt b 104 4 = (arcOfMan man).manLen ∧ (arcOfMan man).objId = slice b 0 32 ∧
    d.tableBad targets (arcOfMan man) (leAt b 104 4) = none ∧
    partOverlap (arcTable targets (arcOfMan man).n) (arcTable targets (arcOfMan man).n) = false ∧
    d.tableCtx j.ten (arcTable targets (arcOfMan man).n) = true ∧ tgtMismatch man (arcTable targets (arcOfMan man).n) = false ∧
    firstFail (d.arcSlots j.ten (arcOfMan man) (leAt b 48 4 % 2 ^ 20) 0 0 useKey false) = none ∧ firstFail (d.sessChecks j) = none ∧
    (j.arcCheckSig = true → (arcOfMan man).sigsGood man pub = true) ∧
    (useKey = true → (arcOfMan man).cipher ≠ 0 → d.slotBad (leAt b 48 4 % 2 ^ 20) = false ∧
      (arcOfMan man).check (d.slotBytes (leAt b 48 4 % 2 ^ 20)) = slice man 200 16)

/-- No work of the archive engine has lost its job. -/
def ArcSteady (d : Dev) : Prop := ∀ w ∈ d.arc.works, w.cur = none ∨ ∃ j, d.workJob w = some j ∧ j.res = none

/-- A work of the archive engine and the job it runs for. -/
def ArcRuns (d : Dev) (id pos : Nat) (w : ArcWork) (j : Job) : Prop :=
  d.work id = some w ∧ w.cur = some pos ∧ d.jobFind w.sq pos = some j ∧ j.res = none

/-- The stripe that the engine processes next is of this work (R344). -/
def ArcNext (s : State) (id pos : Nat) (w : ArcWork) (j : Job) : Prop :=
  Alive s ∧ ArcSteady s.dev ∧ ArcRuns s.dev id pos w j ∧
    ((s.dev.arc.works.filter s.dev.workReady).filter (fun x => decide (s.dev.arc.turn < x.id)) ++
      s.dev.arc.works.filter s.dev.workReady).head? = some w

/-! The packet cores. -/

/-- A thread that may issue its next instruction (R353, R357). -/
def Issues (s : State) (g : Nat) (t : Thread) : Prop := Alive s ∧ s.dev.canIssue g = true ∧ s.dev.thread g = t

/-- The thread after an instruction of a length retired. -/
def Thread.past (t : Thread) (len : Nat) : Thread := { t with pc := (t.pc + len) % 2 ^ 64, instret := t.instret + 1 }

/-- An Xwpk instruction retired with a result in rd. -/
def Retires (b : Dev) (g : Nat) (t : Thread) (rd v : Nat) : Prop := b.thread g = (t.setX rd (BitVec.ofNat 64 v)).past 4

/-- An instruction of a thread other than 0 raised an exception: the thread halts, its message is aborted (R358, R359). -/
def Traps (s : State) (b : Dev) (g : Nat) (t : Thread) (cause : Nat) (mtval : Dword) : Prop :=
  g % 8 ≠ 0 → (b.thread g).st = 5 ∧ (b.thread g).cause = cause ∧ (b.thread g).mtval = mtval ∧ (b.thread g).pc = t.pc ∧
    (b.thread g).msg = none ∧ b.glb.square = s.dev.glb.square

/-- The operand names a token the core holds. -/
def HasToken (s : State) (g : Nat) (v : Dword) (p : Packet) : Prop :=
  (kvFind v.toNat (s.dev.core (g / 8)).held).isSome = true ∧ s.dev.pkt v.toNat = some p

/-- A debug command that may act: from a PF that may write its registers, or from the debug port while it is open (R376, R468). -/
def Debugs (s : State) (id : Nat) : Prop :=
  Alive s ∧ ((id < 16 ∧ s.dev.allowed id Reg.CORE_DBG_CMD true = true ∧ s.dev.gatedAt Reg.CORE_DBG_CMD = false) ∨
    (id = 0x80 ∧ s.dev.mgt.debugOpen = true))

/-! The fabric and the twins. -/

/-- The Square has room for a frame of n bytes that the device sends of its own (R26). -/
def RoomFor (d : Dev) (n : Nat) : Prop :=
  (∃ q, d.sq.takeCells 19 (cellsOf n) = some q) ∧ (kvFirstFree d.sq.pkts 393216).isSome = true

/-- A fabric message enters forwarding at an action list as a datagram that ends with it (R415, R416). -/
def MsgOut (b : Dev) (action type op : Nat) (body : List Byte) : Prop :=
  ∃ tok p m, b.pkt tok = some p ∧ p.pool = 19 ∧ p.stage = .classified ∧ p.cls.av = true ∧ p.cls.action = action ∧
    p.data.drop (p.data.length - (44 + body.length)) = m ∧ beAt m 0 2 = 0x5746 ∧ msgType m = type ∧ msgOp m = op ∧ msgBody m = body

/-- A message is sent to a member, if its hop is reachable and the Square has room (R424). -/
def Sends (a b : Dev) (dst type op : Nat) (body : List Byte) : Prop :=
  ∀ h, a.hopFor a.fabA dst = some h → RoomFor a (106 + body.length) → MsgOut b h.2 type op body

/-- A message of a type arrives on the service bus or from a data port, and passes the checks of R417 and R418; no snapshot is in its
drain. -/
def Hears (s : State) (bus : Bool) (m : List Byte) (type : Nat) : Prop :=
  Alive s ∧ msgType m = type ∧ msgOk bus m = true ∧ (bus = true ∨ s.dev.msgStale m = false) ∧ ∀ o ∈ s.dev.fab.ops, o.cut = false

/-- It was counted, and no other register changed but those listed. -/
def Heard (a b : Dev) (l : List Nat) : Prop :=
  b.reg Reg.FAB_MSG_RX = counterAdd (a.reg Reg.FAB_MSG_RX) 1 ∧ OnlyRegs (Reg.FAB_MSG_RX :: l) a b

/-- A message of a type joined the queue of the service bus (R415). -/
def BusOut (a b : Dev) (type : Nat) (body : List Byte) : Prop :=
  a.port.svb.txq.length < 16 → ∃ f, b.port.svb.txq = a.port.svb.txq ++ [(f, none)] ∧ beAt f 0 6 = 0x035747460000 ∧ beAt f 12 2 = 0x88B5 ∧
    msgType (f.drop 14) = type ∧ msgUid (f.drop 14) = a.fabUid ∧ msgBody (f.drop 14) = body

/-- The PF that fabric events go to, and the one for twin events. -/
def fabPf (d : Dev) : Nat := d.regFld Reg.FAB_EVT_CFG 3 0
def twinPf (d : Dev) : Nat := d.regFld Reg.TWIN_EVT_CFG 3 0

/-- A FAB_OP that passes the checks of R434 (R425). -/
def OpTakes (s : State) (e : AdmEntry) (op id : Nat) : Prop :=
  AdmReady s ∧ Priv e s ∧ fld e.d2 2 0 = op ∧ fld e.d2 47 32 = id ∧ id ≠ 0 ∧ 1 ≤ fld e.d3 31 0 ∧ fld e.d3 31 0 ≤ 10000000 ∧
    (if op = 2 then 1 ≤ e.len ∧ e.len ≤ 1024 ∧ e.bufErr = none else e.len = 0)

/-- The table-update engine has applied the record at its front: it left the queue, and its journal record says APPLIED (R216, R563). -/
def TueDone (a b : Dev) (r : TueRec) (rest : List TueRec) : Prop :=
  b.glb.tueQ = rest ∧ ∃ x ∈ b.glb.tblJournal, x.seq = a.glb.tblSeq ∧ x.record = r ∧ x.outcome = 0

/-- An access to a Wicket reaches its registers (R460, R463). -/
def Reaches (s : State) (id w : Nat) : Prop := s.dev.pwr.off = false ∧ w < 256 ∧ (id < 16 → Alive s)

/-- The one message that left the device: an MCTP message of a type, on a binding or the DOE of a PF (R470, R480). -/
def Says (a b : Dev) (type port : Nat) (m : List Byte) : Prop := b.out = a.out ++ [.message (0x100 + type) port m]

/-- The management firmware runs, and the requester has come at least so far (R470, R480). -/
def SpdmReady (s : State) (port n : Nat) : Prop :=
  s.dev.pwr.off = false ∧ s.dev.mgt.fw = true ∧ s.dev.glb.planes.mgmtUp = true ∧ n ≤ s.dev.spdmAt port

/-- The secured session of a requester, finished or not. -/
def HasSession (s : State) (port id : Nat) (up : Bool) (x : SpdmSession) : Prop :=
  s.dev.mgt.sessions.find? (fun y => decide (y.id = id ∧ y.port = port) && (y.up == up)) = some x

/-- The journal of the Tollhouse took an entry, chained to the one before it (R496). -/
def Journals (a b : Dev) (type what gen : Nat) (body : List Byte) : Prop :=
  ∃ e, b.toll.journal.getLast? = some e ∧ e.seq = a.toll.jseq ∧ e.time = a.toll.metre ∧ e.type = type ∧ e.what = what ∧ e.gen = gen ∧ e.body = body ∧
    e.prev = (a.toll.journal.getLast?).elim (List.replicate 32 0#8) (fun x => tollSha x.bytes) ∧ b.toll.jseq = a.toll.jseq + 1

end Sys2Proof.Machine
end

