-- ==== Sys2Proof/Certificates/Slice0/Obligations.lean ====
section
/-! DEFINITION. The statements for the provers. Each clause of a family's statement is one command under the conditions in which the spec
gives it its effect; `a` is the device before, `b` after. -/

open Sys2Proof Sys2Proof.Machine

/-! The machine. -/

/-- The command at the front of the queue runs on the state whose queue is the rest (the block's form of a step). With no command waiting, a
step answers a next state whose queue is empty, and changes only what passes by itself with time (that an idle step lets time pass is
the model's choice, log 50). -/
def Obligations.StepRunsFront : Prop :=
  (∀ (c : Instr) (s : State) (rest : List Instr), s.pending = c :: rest → step s = exec c { s with pending := rest }) ∧
  (∀ s : State, s.pending = [] → ∃ t, step s = .next t ∧ t.pending = [] ∧ Agree idleParts s.dev t.dev)

/-- Right after reset: registers and HBM in canonical form, every register at its reset value, the Square's pools as R26 says, no tenancy,
no ring, no table entry, no command taken or waiting. -/
def Obligations.ResetState : Prop :=
  State.reset.dev.Canon ∧ State.reset.pending = [] ∧ (∀ o, State.reset.dev.reg o = regReset o) ∧
  (∀ t, (State.reset.dev.tenGet t).st = 0) ∧ (∀ n, n < 20 → State.reset.dev.sq.pool n = Pool.resetOf n) ∧
  State.reset.dev.sq.pkts = [] ∧ State.reset.dev.ring.sqs = [] ∧ State.reset.dev.ring.cqs = [] ∧ State.reset.dev.ring.taken = [] ∧
  (∀ i, (State.reset.dev.tcam i).v = false) ∧ (∀ x, State.reset.dev.hbm.byte x = 0#8)

/-- Every command answers a next state and leaves the queue alone. -/
def Obligations.EveryCommandRuns : Prop :=
  ∀ (c : Instr) (s : State), ∃ t, exec c s = .next t ∧ t.pending = s.pending

/-- Every step keeps the registers and HBM in canonical form. -/
def Obligations.StepKeepsCanon : Prop :=
  ∀ s t : State, s.dev.Canon → step s = .next t → t.dev.Canon

/-- The frame of every command: the parts of the device that `commandParts` does not list are as before. -/
def Obligations.CommandFrames : Prop :=
  ∀ (c : Instr) (s t : State), exec c s = .next t → Agree (commandParts c) s.dev t.dev

/-- Without rails or system clock, or after a thermal trip, no command outside the always-on domain changes anything; without VDD_AON the
always-on ones do not either. -/
def Obligations.DeadDeviceHolds : Prop :=
  (∀ (c : Instr) (s : State), s.dev.dead = true → commandSupply c = .main → exec c s = .next s) ∧
  (∀ (c : Instr) (s : State), s.dev.pwr.off = true → commandSupply c = .aon → exec c s = .next s)

/-! BAR0, planes, the table-update engine (R7 to R37, R216 to R219, R549 to R563). -/

/-- Writes and reads of BAR0: by their access code, of 32 bits and of 64; a refused or misformed access; the Square's pools; the lock of
the privilege mask. -/
def Obligations.Bar0Access : Prop :=
  (∀ (s : State) (n off : Nat) (v : Dword) (acc : ThreadAcc) (r : RegRow), Alive s → n < 16 → off % 4 = 0 → off < 0x4000000 →
    regRow off = some r → actionReg off = false → s.dev.allowed n off true = true → s.dev.gatedAt off = false →
    Runs (.registerWrite (.pf n) off 4 v acc) s fun b =>
      b.reg (regAt n off) = ((s.dev.reg (regAt n off) &&& ~~~r.rw) ||| (v.truncate 32 &&& r.rw)) &&& ~~~(v.truncate 32 &&& r.w1c) ∧
      OnlyRegs [regAt n off] s.dev b) ∧
  (∀ (s : State) (n off : Nat) (v : Dword) (acc : ThreadAcc) (r q : RegRow), Alive s → n < 16 → off % 8 = 0 → off + 4 < 0x4000000 →
    regRow off = some r → actionReg off = false → s.dev.allowed n off true = true → s.dev.gatedAt off = false →
    regRow (off + 4) = some q → actionReg (off + 4) = false → s.dev.allowed n (off + 4) true = true → s.dev.gatedAt (off + 4) = false →
    Runs (.registerWrite (.pf n) off 8 v acc) s fun b =>
      b.reg (regAt n off) = ((s.dev.reg (regAt n off) &&& ~~~r.rw) ||| (v.truncate 32 &&& r.rw)) &&& ~~~(v.truncate 32 &&& r.w1c) ∧
      b.reg (regAt n (off + 4)) = ((s.dev.reg (regAt n (off + 4)) &&& ~~~q.rw) ||| ((v >>> 32).truncate 32 &&& q.rw)) &&&
        ~~~((v >>> 32).truncate 32 &&& q.w1c) ∧
      OnlyRegs [regAt n off, regAt n (off + 4)] s.dev b) ∧
  (∀ (s : State) (n off : Nat) (v : Dword) (acc : ThreadAcc), Alive s → n < 16 → off % 4 = 0 → off < 0x4000000 → isReg off = true →
    actionReg off = false → s.dev.allowed n off true = false →
    Runs (.registerWrite (.pf n) off 4 v acc) s fun b =>
      b.reg Reg.GLB_PRIV_DENY_CNT = counterAdd (s.dev.reg Reg.GLB_PRIV_DENY_CNT) 1 ∧ b.regBit Reg.GLB_PRIV_STAT 1 = true ∧
      (s.dev.regBit Reg.GLB_PRIV_STAT 1 = false →
        b.reg Reg.GLB_PRIV_DENY_LOG = packW [(1, 26), (off % 2 ^ 26, 0)] ∧ b.reg Reg.GLB_PRIV_DENY_FN = packW [(n, 0)]) ∧
      OnlyRegs [Reg.GLB_PRIV_DENY_CNT, Reg.GLB_PRIV_DENY_LOG, Reg.GLB_PRIV_DENY_FN, Reg.GLB_PRIV_STAT] s.dev b) ∧
  (∀ (s : State) (p v : Nat) (w : Dword) (acc : ThreadAcc), Alive s → s.dev.vfExists p v = true → s.dev.vfNvme p = false →
    Runs (.registerWrite (.vf p v) 0x1000 4 w acc) s fun b =>
      (b.fnGet (.vf p v)).vfRingSel = w.truncate 32 &&& 0x1F01FF#32 ∧ OnlyRegs [] s.dev b) ∧
  (∀ (s : State) (n off : Nat) (r : RegRow), Alive s → n < 16 → off % 4 = 0 → off < 0x4000000 → regRow off = some r →
    actionReg off = false → s.dev.allowed n off false = true → s.dev.gatedAt off = false →
    Runs (.readClear (.pf n) off 4) s fun b =>
      b.lastRead = (s.dev.regWord n off).zeroExtend 64 ∧ b.reg (regAt n off) = s.dev.reg (regAt n off) &&& ~~~r.rc ∧
      OnlyRegs [regAt n off] s.dev b) ∧
  (∀ (s : State) (fn : Fn) (off size : Nat) (write : Bool), Alive s → s.dev.reaches fn off = true → badSize off size = true →
    Runs (.bar0BadAccess fn off size write) s fun b =>
      b.reg (Reg.HIF_BAR0_ERR_CNT fn.port) = counterAdd (s.dev.reg (Reg.HIF_BAR0_ERR_CNT fn.port)) 1 ∧
      b.regBit (Reg.HIF_STAT fn.port) 2 = true ∧
      (s.dev.regBit (Reg.HIF_STAT fn.port) 2 = false →
        b.reg (Reg.HIF_BAR0_ERR_LOG fn.port) = packW [(b2n write, 26), (off % 2 ^ 26, 0)] ∧
        b.reg (Reg.HIF_BAR0_ERR_FN fn.port) = packW [(s.dev.routingId fn, 0)]) ∧
      (write = false → b.lastRead = 0) ∧
      OnlyRegs [Reg.HIF_BAR0_ERR_CNT fn.port, Reg.HIF_BAR0_ERR_LOG fn.port, Reg.HIF_BAR0_ERR_FN fn.port, Reg.HIF_STAT fn.port] s.dev b) ∧
  (∀ (s : State) (pf : Nat) (v : Word), Alive s → s.dev.privNow pf = true → bitOf v 0 = true →
    ((∀ n, n < 20 → s.dev.regN (Reg.GLB_SQ_MIN n) ≤ s.dev.regN (Reg.GLB_SQ_MAX n)) ∧
        sumNat ((List.range 20).map fun n => s.dev.regN (Reg.GLB_SQ_MIN n)) ≤ 393216 →
      Runs (.glbSqApply pf v) s fun b =>
        (∀ n, n < 20 → (b.sq.pool n).min = s.dev.regN (Reg.GLB_SQ_MIN n) ∧ (b.sq.pool n).max = s.dev.regN (Reg.GLB_SQ_MAX n) ∧
          (b.sq.pool n).used = (s.dev.sq.pool n).used) ∧ b.sq.pkts = s.dev.sq.pkts ∧ OnlyRegs [] s.dev b) ∧
    (393216 < sumNat ((List.range 20).map fun n => s.dev.regN (Reg.GLB_SQ_MIN n)) →
      Runs (.glbSqApply pf v) s fun b => b.sq = s.dev.sq ∧ b.regBit Reg.GLB_STAT 4 = true ∧ OnlyRegs [Reg.GLB_STAT] s.dev b)) ∧
  (∀ (s : State) (pf : Nat) (v : Word), Alive s → s.dev.privNow pf = true → bitOf v 0 = true →
    Runs (.glbPrivLock pf v) s fun b => b.regBit Reg.GLB_PRIV_LOCK 0 = true ∧ OnlyRegs [Reg.GLB_PRIV_LOCK] s.dev b)

/-- Watchdogs and restarts of the planes, and the commands of the device's frame. -/
def Obligations.PlanesAndFrame : Prop :=
  (∀ s : State, Alive s → s.dev.glb.planes.ctlUp = true →
    Runs .controlWatchdogExpire s fun b =>
      b.glb.planes.ctlUp = false ∧ b.glb.planes.mgmtUp = s.dev.glb.planes.mgmtUp ∧ b.glb.tueQ = s.dev.glb.tueQ.drop 1 ∧
      b.ring = s.dev.ring ∧ OnlyRegs [] s.dev b) ∧
  (∀ s : State, Alive s → s.dev.glb.planes.ctlUp = false → s.dev.glb.planes.mgmtUp = true →
    Runs .controlRestartDone s fun b =>
      b.glb.planes.ctlUp = true ∧ b.regBit Reg.GLB_STAT 1 = true ∧ b.ring.taken = [] ∧ OnlyRegs [Reg.GLB_STAT] s.dev b ∧
      ∀ a : AdmTaken, s.dev.ring.taken = [a] → AdmEnded s.dev b a.e a.e.opc St.ABORTED 0) ∧
  (∀ s : State, s.dev.pwr.off = false → s.dev.glb.planes.mgmtUp = true →
    Runs .mgmtWatchdogExpire s fun b =>
      b.glb.planes.mgmtUp = false ∧ b.glb.planes.ctlUp = s.dev.glb.planes.ctlUp ∧ b.mgt.fw = false ∧ b.mgt.sessions = [] ∧
      b.mgt.banks = s.dev.mgt.banks ∧ b.mgt.fuses = s.dev.mgt.fuses ∧ OnlyRegs [] s.dev b) ∧
  (∀ (s : State) (e : AdmEntry), AdmReady s → e.len = 0 → Completes (.admNop e) e 0x01 s fun b => OnlyRegs [] s.dev b) ∧
  (∀ (s : State) (e : AdmEntry), AdmReady s → 128 ≤ e.len →
    Completes (.admIdentify e) e 0x02 s fun b => Out.hostWrite (.pf e.pf) none e.d1.toNat (s.dev.identify e.pf) false ∈ b.out) ∧
  (∀ (s : State) (e : AdmEntry) (r : AdmRec), AdmReady s → Priv e s → 128 ≤ e.len → bitOf e.d2 0 = false →
    s.dev.glb.admJournal.find? (fun x => decide (x.seq = e.d3.toNat)) = some r →
    Completes (.admJrnlRead e) e 0x03 s fun b => Out.hostWrite (.pf e.pf) none e.d1.toNat r.bytes false ∈ b.out) ∧
  (∀ (s : State) (e : AdmEntry) (r : TblRec), AdmReady s → Priv e s → 128 ≤ e.len → bitOf e.d2 0 = true →
    s.dev.glb.tblJournal.find? (fun x => decide (x.seq = e.d3.toNat)) = some r →
    Completes (.admJrnlRead e) e 0x03 s fun b => Out.hostWrite (.pf e.pf) none e.d1.toNat r.bytes false ∈ b.out) ∧
  (∀ (s : State) (e : AdmEntry), AdmReady s → ¬ Priv e s →
    Runs (.admJrnlRead e) s fun b => AdmEnded s.dev b e 0x03 St.DENIED 3 ∧ OnlyRegs [] s.dev b)

/-- The records of the table-update engine: what each writes, that nothing else of its table changes, and a BAD record. -/
def Obligations.TableUpdates : Prop :=
  (∀ (s : State) (r : TueRec) (rest : List TueRec), Alive s → s.dev.glb.tueQ = r :: rest →
    (r.op = 0x01 → r.table = 0 → r.index < 262144 → Runs .tcamInv s fun b =>
      TueDone s.dev b r rest ∧ (b.tcam r.index).v = false ∧ (∀ i, i ≠ r.index → b.tcam i = s.dev.tcam i) ∧ OnlyBytes 0 0 s.dev b) ∧
    (r.op = 0x02 → r.table = 0 → r.index < 262144 →
      (s.dev.tcam (s.dev.leadBank (r.index / 4096) * 4096 + r.index % 4096)).v = false → Runs .tcamWrite s fun b =>
      TueDone s.dev b r rest ∧ (b.tcam r.index).data = leAt r.payload 0 20 ∧ (b.tcam r.index).care = leAt r.payload 20 20 ∧
      (b.tcam r.index).v = (s.dev.tcam r.index).v ∧
      (s.dev.leadBank (r.index / 4096) * 4096 + r.index % 4096 = r.index →
        (b.tcam r.index).prio = leAt r.payload 40 1 ∧ (b.tcam r.index).result = BitVec.ofNat 64 (leAt r.payload 48 8)) ∧
      (∀ i, i ≠ r.index → b.tcam i = s.dev.tcam i) ∧ OnlyBytes 0 0 s.dev b) ∧
    (r.op = 0x03 → r.table = 0 → s.dev.isLead r.index = true → Runs .tcamVal s fun b =>
      TueDone s.dev b r rest ∧ (b.tcam r.index).v = true ∧ (∀ i, i ≠ r.index → b.tcam i = s.dev.tcam i) ∧ OnlyBytes 0 0 s.dev b) ∧
    (r.op = 0x10 → s.dev.lineIn r.table r.index = true → r.table ≠ 4 → Runs .lineWrite s fun b =>
      TueDone s.dev b r rest ∧ (∀ i, i < 64 → b.hbm.byte (r.index + i) = (fitTo 64 r.payload).getD i 0#8) ∧
      OnlyBytes r.index 64 s.dev b ∧ b.cls = s.dev.cls) ∧
    (r.op = 0x10 → s.dev.lineIn r.table r.index = true → r.table = 4 → Runs .lineWrite s fun b =>
      TueDone s.dev b r rest ∧
      (∀ i, i < 16 → b.hbm.byte (r.index + 16 + i) = (fitTo 64 r.payload).getD (16 + i) 0#8 ∧
        b.hbm.byte (r.index + 48 + i) = (fitTo 64 r.payload).getD (48 + i) 0#8) ∧
      (∀ y, (y < r.index + 16 ∨ r.index + 32 ≤ y) → (y < r.index + 48 ∨ r.index + 64 ≤ y) → b.hbm.byte y = s.dev.hbm.byte y)) ∧
    (r.op = 0x11 → s.dev.lineIn r.table r.index = true → r.table ≠ 4 → r.count < 8 →
      s.dev.lineDword r.index r.count &&& r.cmask = r.cmp → Runs .lineCas s fun b =>
      TueDone s.dev b r rest ∧ (∀ i, i < 64 → b.hbm.byte (r.index + i) = (fitTo 64 r.payload).getD i 0#8) ∧
      OnlyBytes r.index 64 s.dev b) ∧
    (r.op = 0x11 → s.dev.lineIn r.table r.index = true → r.count < 8 → r.poster = .firmware →
      s.dev.lineDword r.index r.count &&& r.cmask ≠ r.cmp → Runs .lineCas s fun b =>
      b.glb.tueQ = rest ∧ b.reg Reg.CLS_UPD_CASFAIL = counterAdd (s.dev.reg Reg.CLS_UPD_CASFAIL) 1 ∧
      OnlyRegs [Reg.CLS_UPD_CASFAIL] s.dev b ∧ OnlyBytes 0 0 s.dev b) ∧
    (r.op = 0x20 → r.table = 5 → 1 ≤ r.count → r.count ≤ 32 → r.index + r.count ≤ 1048576 → Runs .indWrite s fun b =>
      TueDone s.dev b r rest ∧ (∀ i, i < r.count → kvGet 0 b.cls.pool (r.index + i) = leAt r.payload (2 * i) 2) ∧
      (∀ i, i < r.index ∨ r.index + r.count ≤ i → kvGet 0 b.cls.pool i = kvGet 0 s.dev.cls.pool i) ∧ OnlyBytes 0 0 s.dev b) ∧
    (r.op = 0x30 → r.table = 1 ∨ r.table = 2 ∨ r.table = 3 ∨ r.table = 4 ∨ r.table = 6 → Runs .tblDesc s fun b =>
      TueDone s.dev b r rest ∧ b.desc r.table = TblDesc.ofBytes r.payload ∧ (∀ i, i ≠ r.table → b.desc i = s.dev.desc i) ∧
      OnlyBytes 0 0 s.dev b) ∧
    (r.op = 0x30 → r.table = 5 → r.index < 4096 → leAt r.payload 2 2 % 2 = 1 → Runs .tblDesc s fun b =>
      TueDone s.dev b r rest ∧ kvFind r.index b.cls.inds = some {
          log2 := leAt r.payload 0 1, hprof := leAt r.payload 1 1, defRing := leAt r.payload 4 2, base := leAt r.payload 6 2 }) ∧
    (r.op = 0x3F → Runs .fence s fun b =>
      TueDone s.dev b r rest ∧ b.cls = s.dev.cls ∧ b.fwd = s.dev.fwd ∧ OnlyBytes 0 0 s.dev b) ∧
    (r.op = 0x01 → 262144 ≤ r.index → r.poster = .firmware → Runs .tcamInv s fun b =>
      b.glb.tueQ = rest ∧ b.reg Reg.CLS_UPD_BAD = counterAdd (s.dev.reg Reg.CLS_UPD_BAD) 1 ∧ OnlyRegs [Reg.CLS_UPD_BAD] s.dev b ∧
      b.cls = s.dev.cls ∧ OnlyBytes 0 0 s.dev b))

/-! The PCIe ports (R38 to R71, R567, R568). -/

/-- Links, configuration requests and fatal TLP errors. -/
def Obligations.HostLinks : Prop :=
  (∀ (s : State) (p speed width : Nat) (flit : Bool), Alive s → (s.dev.hifPort p).linkUp = false → (s.dev.hifPort p).perst = false →
    Runs (.pcieLinkUp p speed width flit) s fun b =>
      b.hif.ports = s.dev.hif.ports.set p { s.dev.hifPort p with
          linkUp := true, speed := speed % 16, width := width % 32, flit := flit, l1 := false,
          ups := min ((s.dev.hifPort p).ups + 1) 0xFF } ∧ OnlyRegs [Reg.PWR_STAT] s.dev b) ∧
  (∀ (s : State) (p : Nat), Alive s → (s.dev.hifPort p).linkUp = true →
    Runs (.pcieLinkDown p) s fun b =>
      (b.hifPort p).linkUp = false ∧ (b.hifPort p).tags = [] ∧ (b.hifPort p).readQ = [] ∧ b.regBit (Reg.HIF_STAT p) 1 = true ∧
      (∀ x ∈ b.hif.pageReqs, x.xlat.port ≠ p) ∧ (∀ x ∈ b.hif.xlats, x.port ≠ p) ∧ (∀ x ∈ b.hif.atc, x.port ≠ p)) ∧
  (∀ (s : State) (p : Nat), Alive s → (s.dev.hifPort p).linkUp = true →
    Runs (.refclkPcieLost p) s fun b =>
      (b.hifPort p).linkUp = false ∧ (b.hifPort p).tags = [] ∧ (b.hifPort p).readQ = [] ∧ b.regBit (Reg.HIF_STAT p) 1 = true) ∧
  (∀ (s : State) (f : Fn) (bus : Nat) (op : CfgOp), Alive s → (s.dev.hifPort f.port).linkUp = true → s.dev.regBit Reg.GLB_STAT 0 = false →
    Runs (.configRequest f bus op) s fun b => b.out = s.dev.out ++ [.retryStatus f.port] ∧ Agree [.out] s.dev b) ∧
  (∀ (s : State) (f : Fn) (bus off : Nat) (w : Word), Alive s → (s.dev.hifPort f.port).linkUp = true → s.dev.regBit Reg.GLB_STAT 0 = true →
    s.dev.cfgDword f (off / 4 * 4) = some w →
    Runs (.configRequest f bus (.read off)) s fun b =>
      b.out = s.dev.out ++ [.readDone f.port (leBytes 4 w.toNat)] ∧ Agree [.out] s.dev b) ∧
  (∀ (s : State) (f : Fn) (bus off : Nat), Alive s → (s.dev.hifPort f.port).linkUp = true → s.dev.regBit Reg.GLB_STAT 0 = true →
    s.dev.cfgDword f (off / 4 * 4) = none →
    Runs (.configRequest f bus (.read off)) s fun b =>
      (∃ l, l.length = 4 ∧ b.out = s.dev.out ++ [.readDone f.port l]) ∧ Agree [.out, .serial] s.dev b) ∧
  (∀ (s : State) (f : Fn) (bus v : Nat) (x : CfgField), Alive s → (s.dev.hifPort f.port).linkUp = true → s.dev.regBit Reg.GLB_STAT 0 = true →
    Runs (.configRequest f bus (.write x v)) s fun b =>
      b.hif.ports = s.dev.hif.ports.set f.port { s.dev.hifPort f.port with bus := bus % 256 } ∧
      { b.fnGet f with pba := [] } = { (s.dev.fnGet f).write x v with pba := [] } ∧ OnlyRegs [] s.dev b) ∧
  (∀ (s : State) (p : Nat) (k : FatalErr), Alive s →
    Runs (.fatalTlpError p k) s fun b => b.hif.ports = s.dev.hif.ports.set p { s.dev.hifPort p with fatal := true } ∧
      (b.fnGet (.pf (8 * p))).aer.unc ≠ 0#32 ∧ OnlyRegs [] s.dev b) ∧
  (∀ (s : State) (f : Fn) (bar : Nat), Alive s → bar = 0 ∨ bar = 2 ∨ bar = 4 →
    Runs (.poisonedTlp f bar) s fun b =>
      (b.fnGet f).aer.unc = (s.dev.fnGet f).aer.unc ||| 0x1000#32 ∧ OnlyRegs [] s.dev b ∧ OnlyBytes 0 0 s.dev b)

/-- The Casement windows: writes store exactly the TLP's bytes at the window's target, reads return the bytes, misses are counted and
logged, and a window set is committed, applied and retired. -/
def Obligations.Casement : Prop :=
  (∀ (s : State) (p rid o x : Nat) (data : List Byte), Alive s → s.dev.bar4On p = true → s.dev.casement p rid o data.length true = some x →
    x + data.length ≤ hbmReserved →
    Runs (.casementWrite p rid o data) s fun b =>
      (∀ i, i < data.length → b.hbm.byte (x + i) = data.getD i 0#8) ∧ OnlyBytes x data.length s.dev b ∧ OnlyRegs [] s.dev b ∧
      b.out = s.dev.out) ∧
  (∀ (s : State) (p rid o : Nat) (data : List Byte), Alive s → s.dev.bar4On p = true → s.dev.casement p rid o data.length true = none →
    Runs (.casementWrite p rid o data) s fun b =>
      b.reg (Reg.HIF_WIN_MISS_WR p) = counterAdd (s.dev.reg (Reg.HIF_WIN_MISS_WR p)) 1 ∧ b.regBit (Reg.HIF_STAT p) 3 = true ∧
      (s.dev.regBit (Reg.HIF_STAT p) 3 = false →
        b.reg (Reg.HIF_WIN_MISS_LOG_LO p) = BitVec.ofNat 32 o ∧
        b.reg (Reg.HIF_WIN_MISS_LOG_HI p) = packW [(rid % 65536, 16), (1, 4), (o / 2 ^ 32 % 16, 0)]) ∧
      OnlyBytes 0 0 s.dev b ∧
      OnlyRegs [Reg.HIF_WIN_MISS_WR p, Reg.HIF_WIN_MISS_LOG_LO p, Reg.HIF_WIN_MISS_LOG_HI p, Reg.HIF_STAT p] s.dev b) ∧
  (∀ (s : State) (p rid o n x : Nat) (ecc : Ecc), Alive s → s.dev.bar4On p = true → s.dev.casement p rid o n false = some x →
    Runs (.casementRead p rid o n ecc) s fun b =>
      (∃ l, b.out = s.dev.out ++ [.readDone p l] ∧ l.length = n ∧
        ∀ i, i < n → b.hbm.poisoned (x + i) 1 = false → l.getD i 0#8 = s.dev.hbm.byte (x + i)) ∧ OnlyBytes 0 0 s.dev b) ∧
  (∀ (s : State) (p rid o n : Nat) (ecc : Ecc), Alive s → s.dev.bar4On p = true → s.dev.casement p rid o n false = none →
    Runs (.casementRead p rid o n ecc) s fun b =>
      b.out = s.dev.out ++ [.unsupportedReq p] ∧ b.reg (Reg.HIF_WIN_MISS_RD p) = counterAdd (s.dev.reg (Reg.HIF_WIN_MISS_RD p)) 1 ∧
      OnlyBytes 0 0 s.dev b) ∧
  (∀ (s : State) (p : Nat), Alive s →
    Runs (.casementAtomic p) s fun b =>
      b.out = s.dev.out ++ [.unsupportedReq p] ∧ OnlyBytes 0 0 s.dev b ∧ OnlyRegs [] s.dev b ∧
      (b.fnGet (.pf (8 * p))).aer.unc = (s.dev.fnGet (.pf (8 * p))).aer.unc ||| 0x100000#32) ∧
  (∀ (s : State) (pf p : Nat) (v : Word), Alive s → p < 2 → pf / 8 = p → s.dev.privNow pf = true → bitOf v 0 = true →
    (s.dev.regBit (Reg.HIF_WIN_STAT p) 0 = true →
      winSetOk ((List.range 64).map (s.dev.shadowWin p)) (s.dev.fnGet (.pf (8 * p))).bar4Log2 = true →
      Runs (.hifWinCommit pf p v) s fun b =>
        b.hif.ports = s.dev.hif.ports.set p { s.dev.hifPort p with winsNext := some ((List.range 64).map (s.dev.shadowWin p)) } ∧
        OnlyRegs [] s.dev b) ∧
    (s.dev.regBit (Reg.HIF_WIN_STAT p) 0 = true →
      winSetOk ((List.range 64).map (s.dev.shadowWin p)) (s.dev.fnGet (.pf (8 * p))).bar4Log2 = false →
      Runs (.hifWinCommit pf p v) s fun b =>
        b.hif = s.dev.hif ∧ b.regBit (Reg.HIF_WIN_STAT p) 1 = true ∧ OnlyRegs [Reg.HIF_WIN_STAT p] s.dev b) ∧
    (s.dev.regBit (Reg.HIF_WIN_STAT p) 0 = false →
      Runs (.hifWinCommit pf p v) s fun b =>
        b.hif = s.dev.hif ∧ b.regBit (Reg.HIF_WIN_STAT p) 2 = true ∧ OnlyRegs [Reg.HIF_WIN_STAT p] s.dev b)) ∧
  (∀ (s : State) (p : Nat) (ws : List CasWin), Alive s → (s.dev.hifPort p).winsNext = some ws →
    Runs (.winSetApply p) s fun b =>
      (b.hifPort p).wins = ws ∧ (b.hifPort p).winsNext = none ∧ b.regBit (Reg.HIF_WIN_STAT p) 0 = false ∧
      OnlyRegs [Reg.HIF_WIN_STAT p] s.dev b) ∧
  (∀ (s : State) (p : Nat), Alive s → (s.dev.hifPort p).winsNext = none →
    Runs (.winRetired p) s fun b =>
      b.regBit (Reg.HIF_WIN_STAT p) 0 = true ∧ b.hif = s.dev.hif ∧ OnlyRegs [Reg.HIF_WIN_STAT p] s.dev b)

/-- Address translation: completions fill the cache, responses and time-outs end a page request, invalidations. -/
def Obligations.Translation : Prop :=
  (∀ (s : State) (p id log2 addr : Nat) (r w : Bool) (e : ReadEnd) (x : XlatReq), Alive s →
    s.dev.hif.xlats.find? (fun x => decide (x.port = p ∧ x.id = id)) = some x → e.err = none → x.stale = false →
    (if x.write then w else r) = true →
    Runs (.translationCompletion p id log2 addr r w e) s fun b =>
      (∃ c ∈ b.hif.atc, c.port = p ∧ c.fn = x.fn ∧ c.pasid = x.pasid ∧ c.addr = addr ∧ c.log2 = max 12 (min log2 30) ∧ c.write = w) ∧
      b.hif.xlats = s.dev.hif.xlats.filter (fun y => !decide (y.port = p ∧ y.id = id)) ∧ OnlyRegs [] s.dev b) ∧
  (∀ (s : State) (p id log2 addr : Nat) (r w : Bool) (e : ReadEnd) (x : XlatReq), Alive s →
    s.dev.hif.xlats.find? (fun x => decide (x.port = p ∧ x.id = id)) = some x → e.err = none → x.stale = false →
    (if x.write then w else r) = false → (s.dev.fnGet x.fn).pri = true → (s.dev.fnGet x.fn).priStopped = false →
    s.dev.pageReqFits x.fn = true →
    Runs (.translationCompletion p id log2 addr r w e) s fun b =>
      b.hif.pageReqs = s.dev.hif.pageReqs ++ [{ group := s.dev.hif.nextGroup, xlat := x }] ∧
      b.out = s.dev.out ++ [.pageReq x.port s.dev.hif.nextGroup x.fn x.page] ∧ b.hif.atc = s.dev.hif.atc) ∧
  (∀ (s : State) (g : Nat) (x : PageReq), Alive s → s.dev.hif.pageReqs.find? (fun r => decide (r.group = g)) = some x →
    (Runs (.pageRequestResponse g 0) s fun b =>
      b.hif.pageReqs = s.dev.hif.pageReqs.filter (fun r => decide (r.group ≠ g)) ∧ Agree [.hifReq] s.dev b) ∧
    (x.rx = true → ∀ code, 2 ≤ code → Runs (.pageRequestResponse g code) s fun b =>
      b.hif.pageReqs = s.dev.hif.pageReqs.filter (fun r => decide (r.group ≠ g)) ∧ (b.fnGet x.xlat.fn).priStopped = true) ∧
    (x.rx = true → Runs (.priTimeout g) s fun b =>
      b.hif.pageReqs = s.dev.hif.pageReqs.filter (fun r => decide (r.group ≠ g)) ∧ Agree [.hifReq] s.dev b) ∧
    (∀ id, x.rx = false → x.xlat.ref = .eng id → Runs (.priTimeout g) s fun b =>
      b.hif.pageReqs = s.dev.hif.pageReqs.filter (fun r => decide (r.group ≠ g)) ∧
      (b.engGet id).err = some (St.TIMEOUT, 2) ∧ (b.engGet id).need = 0)) ∧
  (∀ (s : State) (p itag : Nat) (f : Fn) (pasid : Option Nat) (page log2 : Nat), Alive s → (s.dev.hifPort p).inv.length < 32 →
    Runs (.invalidationRequest p itag f pasid page log2) s fun b =>
      (∃ u, b.hif.ports = s.dev.hif.ports.set p { s.dev.hifPort p with
          inv := (s.dev.hifPort p).inv ++ [{ itag := itag, fn := f, pasid := pasid, page := page, log2 := log2, using_ := u }] }) ∧
      (∀ c ∈ b.hif.atc, c ∈ s.dev.hif.atc ∧ ¬ (c.port = p ∧ c.fn = f ∧ (pasid = none ∨ pasid = c.pasid) ∧
        page * 4096 < c.page * 4096 + 2 ^ c.log2 ∧ c.page * 4096 < page * 4096 + 2 ^ log2)) ∧ OnlyRegs [] s.dev b) ∧
  (∀ (s : State) (p : Nat) (i : InvReq) (r : List InvReq), Alive s → (s.dev.hifPort p).inv = i :: r → i.using_ = [] →
    Runs (.invalidationCompletion p) s fun b =>
      b.out = s.dev.out ++ [.invDone p i.itag] ∧ (b.hifPort p).inv = r ∧ OnlyRegs [] s.dev b)

/-- Reads of host memory and their tags. -/
def Obligations.ReadsAndTags : Prop :=
  (∀ (s : State) (p t v : Nat) (r : ReadReq), Alive s → (s.dev.hifPort p).readQ.find? (fun r => decide (r.ten = t)) = some r →
    r.gen = (s.dev.tenGet t).gen → (s.dev.fnGet r.fn).bme = true → s.dev.mayRequest p t = true → s.dev.freeTag p = some v →
    (s.dev.fnGet r.fn).ats = false →
    Runs (.readIssue p t) s fun b =>
      b.out = s.dev.out ++ [.readReq p v r.fn r.addr r.len] ∧ kvFind v (b.hifPort p).tags = some { req := r } ∧
      (b.hifPort p).readQ = dropFirst t (s.dev.hifPort p).readQ ∧ (b.hifPort p).l1 = false ∧ OnlyRegs [] s.dev b) ∧
  (∀ (s : State) (p v id : Nat) (e : ReadEnd) (x : Tag), Alive s → kvFind v (s.dev.hifPort p).tags = some x → x.quarantined = false →
    x.req.ref = .eng id → x.req.gen = (s.dev.tenGet x.req.ten).gen →
    (e.err = none → Runs (.readCompletion p v e) s fun b =>
      kvFind v (b.hifPort p).tags = none ∧ kvFind x.req.off (b.engGet id).got = some (fitTo x.req.len e.bytes) ∧
      (b.engGet id).need = (s.dev.engGet id).need - x.req.len) ∧
    (∀ st det, e.err = some (st, det) → Runs (.readCompletion p v e) s fun b =>
      kvFind v (b.hifPort p).tags = none ∧ (b.engGet id).err = some (st, det) ∧ (b.engGet id).need = 0)) ∧
  (∀ (s : State) (p v id : Nat) (x : Tag), Alive s → kvFind v (s.dev.hifPort p).tags = some x → x.quarantined = false →
    x.req.ref = .eng id →
    Runs (.completionTimeout p v) s fun b =>
      kvFind v (b.hifPort p).tags = some { x with quarantined := true } ∧ (b.engGet id).err = some (St.TIMEOUT, 1) ∧
      b.reg (Reg.HIF_CPL_TO_CNT p) = counterAdd (s.dev.reg (Reg.HIF_CPL_TO_CNT p)) 1 ∧ OnlyRegs [Reg.HIF_CPL_TO_CNT p] s.dev b) ∧
  (∀ (s : State) (p v : Nat) (x : Tag), Alive s → kvFind v (s.dev.hifPort p).tags = some x → x.quarantined = true →
    (Runs (.lateCompletion p v) s fun b =>
      kvFind v (b.hifPort p).tags = none ∧ b.reg (Reg.HIF_LATE_CPL p) = counterAdd (s.dev.reg (Reg.HIF_LATE_CPL p)) 1 ∧
      OnlyRegs [Reg.HIF_LATE_CPL p] s.dev b) ∧
    (Runs (.quarantineRelease p v) s fun b =>
      kvFind v (b.hifPort p).tags = none ∧ Agree [.hifPorts] s.dev b)) ∧
  (∀ (s : State) (p : Nat), Alive s → (s.dev.fnGet (.pf (8 * p))).ltr = true → (s.dev.hifPort p).linkUp = true →
    (s.dev.hifPort p).ltrRung = none →
    Runs (.ltrSend p) s fun b =>
      b.out = s.dev.out ++ [.ltr p (ltrEncode (ltrRungOf (s.dev.ltrTolerance p) * 1000))] ∧
      b.reg (Reg.HIF_LTR_LAST p) = BitVec.ofNat 32 (ltrEncode (ltrRungOf (s.dev.ltrTolerance p) * 1000)) ∧
      (b.hifPort p).ltrRung = some (ltrRungOf (s.dev.ltrTolerance p)) ∧ (b.hifPort p).ltrAt = s.dev.nowNs ∧
      OnlyRegs [Reg.HIF_LTR_LAST p] s.dev b)

/-- Link power, D-states, Bus Master Enable and MSI-X. -/
def Obligations.FunctionStates : Prop :=
  (∀ (s : State) (p : Nat), Alive s → (s.dev.hifPort p).linkUp = true → (s.dev.fnGet (.pf (8 * p))).aspm / 2 % 2 = 1 →
    Runs (.l1EntryRequest p) s fun b => (b.hifPort p).l1 = true ∧ Agree [.hifPorts] s.dev b) ∧
  (∀ (s : State) (n : Nat), Alive s → (s.dev.fnGet (.pf n)).d3 = false →
    Runs (.d3hotEntry n) s fun b => (b.fnGet (.pf n)).d3 = true ∧ OnlyRegs [] s.dev b) ∧
  (∀ (s : State) (n : Nat), Alive s → (s.dev.fnGet (.pf n)).d3 = true →
    Runs (.d0Return n) s fun b => (b.fnGet (.pf n)).d3 = false) ∧
  (∀ (s : State) (f : Fn), Alive s →
    Runs (.busMasterClear f) s fun b => b.fnGet f = { s.dev.fnGet f with bme := false } ∧ Agree [.fns] s.dev b) ∧
  (∀ (s : State) (f : Fn), Alive s → (s.dev.fnGet f).bme = false →
    Runs (.busMasterSet f) s fun b => (b.fnGet f).bme = true) ∧
  (∀ (s : State) (f : Fn) (v : Nat), Alive s →
    (Runs (.msixUnmask f .enable) s fun b => (b.fnGet f).msixEnable = true ∧ OnlyRegs [] s.dev b) ∧
    (Runs (.msixUnmask f .clearFunctionMask) s fun b => (b.fnGet f).functionMask = false ∧ OnlyRegs [] s.dev b) ∧
    (Runs (.msixUnmask f (.unmaskVector v)) s fun b => (kvGet {} (b.fnGet f).msix v).mask = false ∧ OnlyRegs [] s.dev b))

/-- Resets of functions and ports. -/
def Obligations.FunctionResets : Prop :=
  (∀ (s : State) (n : Nat), Alive s → n < 16 →
    Runs (.pfFlr n) s fun b => (b.fnGet (.pf n)).bme = false ∧ (b.fnGet (.pf n)).d3 = false ∧ (b.fnGet (.pf n)).msix = [] ∧
      (∀ c ∈ b.hif.atc, c.fn.pfOf ≠ n)) ∧
  (∀ (s : State) (n v : Nat), Alive s → s.dev.vfExists n v = true → v < 1024 →
    Runs (.vfFlr n v) s fun b => (b.fnGet (.vf n v)).bme = false ∧ (b.fnGet (.vf n v)).msix = [] ∧ (∀ c ∈ b.hif.atc, c.fn ≠ .vf n v)) ∧
  (∀ (s : State) (n : Nat), Alive s → (s.dev.fnGet (.pf n)).vfEnable = true →
    Runs (.vfEnableClear n) s fun b => (b.fnGet (.pf n)).vfEnable = false) ∧
  (∀ (s : State) (p : Nat), Alive s → (s.dev.hifPort p).linkUp = true →
    Runs (.hotReset p) s fun b => (b.hifPort p).linkUp = false ∧ (b.hifPort p).fatal = false ∧ (b.hifPort p).tags = [] ∧
      (∀ x ∈ b.hif.pageReqs, x.xlat.port ≠ p)) ∧
  (∀ (s : State) (p : Nat), Alive s → p < 2 → s.dev.pwr.perst.length = 2 →
    Runs (.portFundamentalReset p) s fun b => b.pwr.perst.getD p false = true ∧ b.reg (Reg.HIF_TAG_LIMIT p) = regReset (Reg.HIF_TAG_LIMIT p) ∧
      (∀ x ∈ b.hif.xlats, x.port ≠ p)) ∧
  (∀ (s : State) (lost : List Nat), Alive s →
    Runs (.deviceFundamentalReset lost) s fun b =>
      b.pwr.perst = [true, true] ∧ b.ten.tens = [] ∧ b.ring.sqs = [] ∧ b.ring.cqs = [] ∧ b.sq.pkts = [] ∧ b.toll.journal = s.dev.toll.journal ∧
      b.mgt.fuses = s.dev.mgt.fuses) ∧
  (∀ (s : State) (p : Nat), s.dev.pwr.off = false → p < 2 → s.dev.pwr.perst.length = 2 →
    Runs (.perstRelease p) s fun b => b.pwr.perst.getD p true = false ∧ OnlyRegs [] s.dev b)

/-- Supply and reference clocks. -/
def Obligations.SupplyAndClocks : Prop :=
  (∀ s : State, Runs .powerOn s fun b =>
    b.pwr.off = false ∧ b.pwr.rails = false ∧ b.pwr.perst = [true, true] ∧ b.ten.tens = [] ∧ b.hbm = {} ∧ b.mgt.fuses = s.dev.mgt.fuses ∧
    b.mgt.banks = s.dev.mgt.banks ∧ (∀ o, 0x24 ≤ o → b.reg o = regReset o)) ∧
  (∀ s : State, Runs .vddAonLoss s fun b =>
    b.pwr.off = true ∧ b.pwr.rails = false ∧ b.ten.tens = [] ∧ b.hbm = {} ∧ b.mgt.fuses = s.dev.mgt.fuses ∧
    b.mgt.banks = s.dev.mgt.banks ∧ (∀ o, 0x24 ≤ o → b.reg o = regReset o)) ∧
  (∀ (s : State) (lost : List Nat), s.dev.pwr.off = false → s.dev.pwr.rails = false → s.dev.pwr.trip = false → s.dev.pwr.clkLost = false →
    Runs (.railsOkRise lost) s fun b => b.dead = false ∧ b.pwr.badRails = [] ∧ b.ten.tens = [] ∧ b.ring.sqs = [] ∧ b.sq.pkts = []) ∧
  (∀ s : State, s.dev.pwr.off = false → s.dev.pwr.rails = true →
    Runs .railsOkFall s fun b => b.dead = true ∧ b.pwr.rails = false ∧ b.ten.tens = [] ∧ b.ring.sqs = [] ∧ b.toll.acc = []) ∧
  (∀ (s : State) (rail : Nat), s.dev.pwr.off = false → s.dev.pwr.rails = false →
    Runs (.railSequenceError rail) s fun b => rail ∈ b.pwr.badRails ∧ b.regBit Reg.PWR_GSTAT 1 = true ∧ OnlyRegs [Reg.PWR_GSTAT] s.dev b) ∧
  (∀ s : State, s.dev.pwr.off = false → s.dev.pwr.clkLost = false →
    Runs .refclkSysLost s fun b => b.dead = true ∧ b.pwr.clkLost = true ∧ b.ten.tens = [] ∧ b.toll.acc = []) ∧
  (∀ (s : State) (lost : List Nat), s.dev.pwr.off = false → s.dev.pwr.clkLost = true → s.dev.pwr.rails = true → s.dev.pwr.trip = false →
    Runs (.refclkSysReturn lost) s fun b => b.dead = false ∧ b.pwr.clkLost = false ∧ b.regBit Reg.PWR_GSTAT 3 = true ∧ b.ten.tens = []) ∧
  (∀ (s : State) (g j : Nat), Alive s → j < 8 → (s.dev.netPort (8 * g + j)).link = true →
    Runs (.refclkNetLost g) s fun b => (b.netPort (8 * g + j)).link = false)

/-! Tenancies, shares, page logs and the interrupt message table (R72 to R102). -/

/-- Creating, binding, opening, closing, resetting, unbinding and destroying a tenancy. -/
def Obligations.TenancyLifecycle : Prop :=
  (∀ (s : State) (e : AdmEntry), AdmReady s → e.len = 0 → fld e.d2 25 16 ≤ 512 → fld e.d2 52 32 ≤ 1048576 → fld e.d3 20 0 ≤ 1048576 →
    (s.dev.tenGet e.ten).st = 0 → sumNat (s.dev.liveTens.map fun x => x.2.rings) + fld e.d2 25 16 ≤ 65536 →
    sumNat (s.dev.liveTens.map fun x => x.2.ctxs) + fld e.d2 52 32 ≤ 1048576 →
    sumNat (s.dev.liveTens.map fun x => x.2.keys) + fld e.d3 20 0 ≤ 1048576 →
    Completes (.tenCreate e) e 0x10 s fun b =>
      b.tenGet e.ten = {
          gen := (s.dev.tenGet e.ten).gen, st := 1, owner := e.pf, rings := fld e.d2 25 16, ctxs := fld e.d2 52 32,
          keys := fld e.d3 20 0 } ∧
      (∀ t, t ≠ e.ten → b.tenGet t = s.dev.tenGet t) ∧ b.reg (Reg.TEN_READ_LIMIT e.ten) = 0x100#32 ∧
      b.reg (Reg.TEN_RX_SHUT e.ten) = 0#32 ∧ b.reg (Reg.TEN_DISCARD e.ten) = 0#32 ∧
      OnlyRegs [Reg.TEN_READ_LIMIT e.ten, Reg.TEN_RX_SHUT e.ten, Reg.TEN_DISCARD e.ten] s.dev b) ∧
  (∀ (s : State) (e : AdmEntry), AdmReady s → Owns e e.ten s → e.len = 0 → (s.dev.tenGet e.ten).st = 1 →
    Completes (.tenDestroy e) e 0x11 s fun b =>
      b.tenGet e.ten = { gen := (s.dev.tenGet e.ten).gen } ∧ (∀ t, t ≠ e.ten → b.tenGet t = s.dev.tenGet t) ∧
      (∀ x ∈ b.ring.sqs, x.2.ten ≠ e.ten) ∧ (∀ x ∈ b.ring.cqs, x.2.ten ≠ e.ten) ∧ kvFind e.ten b.cls.inds = none ∧
      kvFind e.ten b.time.pages = none ∧ b.toll.link.getLast? = some (.marker e.ten) ∧ OnlyRegs [] s.dev b) ∧
  (∀ (s : State) (e : AdmEntry) (x : Ten), AdmReady s → x = s.dev.tenGet e.ten → x.st = 1 → x.owner = e.pf → fld e.d2 19 16 = x.owner →
    e.len = 0 → bitOf e.d2 20 = false → bitOf e.d3 31 = false →
    (∀ y ∈ s.dev.ten.tens, y.2.fn = some (.pf x.owner) → y.2.pasid ≠ none) →
    s.dev.floorSum (x.owner / 8) e.ten + x.share.floor ≤ 16000 →
    Completes (.tenBind e) e 0x12 s fun b =>
      (b.tenGet e.ten).st = 2 ∧ (b.tenGet e.ten).binding = some { isVf := false, vf := fld e.d2 41 32, slot := 0, pasid := none } ∧
      (b.tenGet e.ten).share = x.share ∧ (∀ t, t ≠ e.ten → b.tenGet t = s.dev.tenGet t) ∧ OnlyRegs [] s.dev b) ∧
  (∀ (s : State) (e : AdmEntry) (x : Ten), AdmReady s → x = s.dev.tenGet e.ten → x.st = 1 → x.owner = e.pf → fld e.d2 19 16 = x.owner →
    e.len = 0 → bitOf e.d2 20 = true → s.dev.vfExists x.owner (fld e.d2 41 32) = true → bitOf e.d3 31 = true → fld e.d3 19 0 ≠ 0 →
    (∀ y ∈ s.dev.ten.tens, y.2.fn ≠ some (.vf x.owner (fld e.d2 41 32))) → s.dev.floorSum (x.owner / 8) e.ten + x.share.floor ≤ 16000 →
    Completes (.tenBind e) e 0x12 s fun b =>
      (b.tenGet e.ten).st = 2 ∧
      (b.tenGet e.ten).binding = some { isVf := true, vf := fld e.d2 41 32, slot := 0, pasid := some (fld e.d3 19 0) } ∧
      (∀ t, t ≠ e.ten → b.tenGet t = s.dev.tenGet t) ∧ OnlyRegs [] s.dev b) ∧
  (∀ (s : State) (e : AdmEntry), AdmReady s → Owns e e.ten s → e.len = 0 → (s.dev.tenGet e.ten).st = 2 →
    (Completes (.tenOpen e) e 0x14 s fun b => (b.tenGet e.ten).st = 3 ∧ (b.tenGet e.ten).resetEvent = false) ∧
    (Runs (.tenUnbind e) s fun b => AdmWaits b e ∧ (b.tenGet e.ten).st = 5 ∧ (b.tenGet e.ten).gen = (s.dev.tenGet e.ten).gen + 1 ∧
      (b.tenGet e.ten).unbindCmd = some e ∧ (∀ t, t ≠ e.ten → b.tenGet t = s.dev.tenGet t) ∧ OnlyRegs [] s.dev b)) ∧
  (∀ (s : State) (e : AdmEntry), AdmReady s → Owns e e.ten s → e.len = 0 → (s.dev.tenGet e.ten).st = 3 →
    Runs (.tenClose e) s fun b => AdmWaits b e ∧ (b.tenGet e.ten).st = 4 ∧ (b.tenGet e.ten).closing = some (e, bitOf e.d2 32) ∧
      (b.tenGet e.ten).gen = (s.dev.tenGet e.ten).gen ∧ (∀ t, t ≠ e.ten → b.tenGet t = s.dev.tenGet t) ∧ OnlyRegs [] s.dev b) ∧
  (∀ (s : State) (e : AdmEntry), AdmReady s → Owns e e.ten s → e.len = 0 → 2 ≤ (s.dev.tenGet e.ten).st → (s.dev.tenGet e.ten).st ≤ 4 →
    Runs (.tenReset e) s fun b => AdmWaits b e ∧ (b.tenGet e.ten).st = 5 ∧ (b.tenGet e.ten).gen = (s.dev.tenGet e.ten).gen + 1 ∧
      (b.tenGet e.ten).resetCmd = some e ∧ (∀ t, t ≠ e.ten → b.tenGet t = s.dev.tenGet t) ∧ OnlyRegs [] s.dev b) ∧
  (∀ (s : State) (t : Nat), Alive s → (s.dev.tenGet t).st = 4 → (∀ j ∈ s.dev.ring.jobs, j.ten ≠ t) →
    (∀ c ∈ s.dev.ring.cqs, c.2.ten = t → c.2.stash = []) →
    Runs (.drainComplete t) s fun b => b.tenGet t = { s.dev.tenGet t with st := 2, closing := none } ∧
      (∀ u, u ≠ t → b.tenGet u = s.dev.tenGet u) ∧ OnlyRegs [] s.dev b) ∧
  (∀ (s : State) (t : Nat), Alive s → (s.dev.tenGet t).st = 5 →
    (Runs (.tenancyResetDone t) s fun b => OnlyRegs [] s.dev b ∧
      ((s.dev.tenGet t).unbindCmd = none → (s.dev.tenGet t).resetUnbinds = false →
        (b.tenGet t).st = 2 ∧ (b.tenGet t).resetEvent = true ∧ (b.tenGet t).binding = (s.dev.tenGet t).binding ∧
        (b.tenGet t).closing = none ∧ (b.tenGet t).resetCmd = none) ∧
      ((s.dev.tenGet t).unbindCmd ≠ none ∨ (s.dev.tenGet t).resetUnbinds = true →
        (b.tenGet t).st = 1 ∧ (b.tenGet t).binding = none ∧ kvFind t b.cls.inds = none)))

/-- Shares, the page log, export and import, and the interrupt message table. -/
def Obligations.TenancyServices : Prop :=
  (∀ (s : State) (e : AdmEntry) (h : Share), AdmReady s → Owns e e.ten s → e.len = 0 →
    h = { weight := fld e.d2 23 16, floor := fld e.d2 47 32, ceiling := fld e.d3 15 0 } → (h.ceiling = 0 ∨ h.floor ≤ h.ceiling) →
    ((s.dev.tenGet e.ten).st = 1 → Completes (.tenSetShare e) e 0x17 s fun b =>
      b.tenGet e.ten = { s.dev.tenGet e.ten with share := h } ∧ (∀ t, t ≠ e.ten → b.tenGet t = s.dev.tenGet t)) ∧
    (2 ≤ (s.dev.tenGet e.ten).st → (s.dev.tenGet e.ten).st ≤ 5 → s.dev.floorSum (s.dev.tenPort e.ten) e.ten + h.floor ≤ 16000 →
      Runs (.tenSetShare e) s fun b => AdmWaits b e ∧
        b.tenGet e.ten = { s.dev.tenGet e.ten with waitShare := some h, waitCmds := (s.dev.tenGet e.ten).waitCmds ++ [e] })) ∧
  (∀ (s : State) (p t : Nat) (h : Share), Alive s → s.dev.prioTens p = [] → s.dev.nextTen p = none → s.dev.portTens p = [t] →
    (s.dev.tenGet t).waitShare = some h →
    Runs (.shareApply p) s fun b => (b.tenGet t).share = h ∧ (b.tenGet t).waitShare = none ∧ (b.tenGet t).waitCmds = []) ∧
  (∀ (s : State) (e : AdmEntry), AdmReady s → Owns e e.ten s → e.len = 0 → e.d3.toNat % 4096 = 0 → fld e.d4 34 0 ≠ 0 →
    fld e.d4 34 0 ≤ 2 ^ 34 → e.d5.toNat % 8 = 0 → e.d6.toNat % 8 = 0 → 2 ≤ (s.dev.tenGet e.ten).st → (s.dev.tenGet e.ten).st ≤ 5 →
    (s.dev.tenGet e.ten).log = none →
    Completes (.logStart e) e 0x18 s fun b =>
      b.tenGet e.ten = { s.dev.tenGet e.ten with
          epoch := 0, log := some { base := e.d3.toNat, pages := fld e.d4 34 0, bufA := e.d5.toNat, bufB := e.d6.toNat } } ∧ OnlyRegs [] s.dev b) ∧
  (∀ (s : State) (e : AdmEntry) (l : PageLog), AdmReady s → Owns e e.ten s → e.len = 0 → 2 ≤ (s.dev.tenGet e.ten).st →
    (s.dev.tenGet e.ten).st ≤ 5 → (s.dev.tenGet e.ten).log = some l → l.stopped = false →
    (Runs (.logFlush e) s fun b => AdmWaits b e ∧
      b.tenGet e.ten = { s.dev.tenGet e.ten with
          epoch := (s.dev.tenGet e.ten).epoch + 1, log := some { l with
              oor := false, marked := [], stopped := false, waiting := l.waiting ++ [(e, false, l.oor,
              (s.dev.tenGet e.ten).epoch % 2)] } }) ∧
    (Runs (.logStop e) s fun b => AdmWaits b e ∧
      b.tenGet e.ten = { s.dev.tenGet e.ten with
          epoch := (s.dev.tenGet e.ten).epoch + 1, log := some { l with
              oor := false, marked := [], stopped := true, waiting := l.waiting ++ [(e, true, l.oor, (s.dev.tenGet e.ten).epoch % 2)] } })) ∧
  (∀ (s : State) (t : Nat) (l : PageLog) (e : AdmEntry) (oor : Bool) (buf : Nat) (r : List (AdmEntry × Bool × Bool × Nat)), Alive s →
    (s.dev.tenGet t).log = some l → 
    (l.waiting = (e, false, oor, buf) :: r → Runs (.logFlushReadDone t) s fun b =>
      b.tenGet t = { s.dev.tenGet t with log := some { l with waiting := r } }) ∧
    (l.waiting = (e, true, oor, buf) :: r → Runs (.logFlushReadDone t) s fun b =>
      b.tenGet t = { s.dev.tenGet t with log := none })) ∧
  (∀ (s : State) (e : AdmEntry), AdmReady s → Owns e e.ten s → (s.dev.tenGet e.ten).st = 2 →
    (s.dev.transferBad e.ten (fld e.d3 19 0)).1 = false → s.dev.slotBad (fld e.d3 19 0) = false →
    s.dev.imageLen e.ten (fld e.d3 19 0) ≤ e.len →
    Completes (.tenExport e) e 0x1B s fun b =>
      (∃ l, l.length = s.dev.imageLen e.ten (fld e.d3 19 0) ∧ Out.hostWrite (.pf e.pf) none e.d1.toNat l false ∈ b.out) ∧
      b.ten = s.dev.ten ∧ OnlyRegs [] s.dev b) ∧
  (∀ (s : State) (e : AdmEntry) (i : TenImage), AdmReady s → Owns e e.ten s → (s.dev.tenGet e.ten).st = 2 → s.dev.ctxsOf e.ten = 0 →
    (∀ k ∈ s.dev.cry.slots, k.1 ≠ fld e.d3 19 0 → k.2.dev = true ∨ k.2.ten ≠ e.ten) →
    (s.dev.transferBad e.ten (fld e.d3 19 0)).1 = false → s.dev.slotBad (fld e.d3 19 0) = false → e.bufCheck.1 = false →
    s.dev.ringsOf e.ten + i.rings.length ≤ (s.dev.tenGet e.ten).rings → i.ctxs.length ≤ (s.dev.tenGet e.ten).ctxs →
    i.keys.length + 1 ≤ (s.dev.tenGet e.ten).keys → (∀ c ∈ i.ctxs, s.dev.ctxOwner c.1 = none) → (∀ k ∈ i.keys, s.dev.slot k.1 = none) →
    Completes (.tenImport e (some i)) e 0x1C s fun b => b.ten = s.dev.ten ∧
      ∀ k ∈ i.keys, ∃ x, b.slot k.1 = some x ∧ x.ten = e.ten ∧ x.dev = false) ∧
  (∀ (s : State) (e : AdmEntry) (old : Imt), AdmReady s → old = s.dev.imtGet (fld e.d2 15 0) → old.pend = false →
    (old.v = true → Owns e old.ten s) → Owns e (fld e.d4 43 32) s → e.len = 0 → e.d3.toNat % 4 = 0 →
    1 ≤ (s.dev.tenGet (fld e.d4 43 32)).st → (s.dev.tenGet (fld e.d4 43 32)).st ≤ 5 →
    (old.ten = fld e.d4 43 32 ∨ s.dev.imtAttached (fld e.d2 15 0) = false) →
    Completes (.imtWrite e) e 0x1D s fun b =>
      b.imtGet (fld e.d2 15 0) = {
          v := bitOf e.d4 48, mask := bitOf e.d4 49, pend := false, ten := fld e.d4 43 32, data := BitVec.ofNat 32 (fld e.d4 31 0),
          addr := e.d3.toNat } ∧
      (∀ i, i ≠ fld e.d2 15 0 → (b.imtGet i).addr = (s.dev.imtGet i).addr) ∧ OnlyRegs [] s.dev b) ∧
  (∀ (s : State) (e : AdmEntry), AdmReady s → ((s.dev.imtGet (fld e.d2 15 0)).v = true → Owns e (s.dev.imtGet (fld e.d2 15 0)).ten s) →
    e.len = 16 →
    Completes (.imtRead e) e 0x1E s fun b =>
      Out.hostWrite (.pf e.pf) none e.d1.toNat (s.dev.imtGet (fld e.d2 15 0)).bytes false ∈ b.out ∧ b.ten = s.dev.ten) ∧
  (∀ (s : State) (e : AdmEntry), AdmReady s → ¬ Owns e e.ten s →
    Runs (.tenOpen e) s fun b => AdmEnded s.dev b e 0x14 St.DENIED 2 ∧ b.ten = s.dev.ten) ∧
  (∀ (s : State) (e : AdmEntry), AdmReady s → Owns e e.ten s → e.len = 0 → (s.dev.tenGet e.ten).st ≠ 2 →
    Runs (.tenOpen e) s fun b => AdmEnded s.dev b e 0x14 St.STATE (s.dev.tenGet e.ten).st ∧ b.ten = s.dev.ten)

/-! Rings, jobs and their completions (R105 to R147, R558, R570). -/

/-- Doorbells: each form on a live page moves its ring's position, a bad or a stray one is counted and moves none. -/
def Obligations.Doorbells : Prop :=
  (∀ (s : State) (f : Fn) (page off size t q new : Nat) (v : Dword) (w : Word) (x : Sq), Alive s → s.dev.pageTen f page = some t →
    (s.dev.tenGet t).st ≠ 5 → off % 8 = 0 → size = 4 ∨ size = 8 → off < 4096 → s.dev.sqAt t (off / 8) = some (q, x) →
    new = fld w 16 16 * x.size + fld w 15 0 → x.retas = false → fld w 15 0 < x.size → distFwd x.log2 x.started new ≤ x.size →
    distFwd x.log2 x.started x.tail ≤ distFwd x.log2 x.started new →
    (w = BitVec.ofNat 32 v.toNat → bitOf w 31 = false → Runs (.sqDoorbell f page off size v) s fun b =>
      kvFind q b.ring.sqs = some { x with tail := new, state := if x.failed then x.state else 1 } ∧ Agree [.rings] s.dev b) ∧
    (w = BitVec.ofNat 32 (v ||| 0x80000000#64).toNat → bitOf w 31 = true → Runs (.doorbellInv f page off size v) s fun b =>
      kvFind q b.ring.sqs = some { x with tail := new, state := if x.failed then x.state else 1 }.dropCache ∧ Agree [.rings] s.dev b)) ∧
  (∀ (s : State) (f : Fn) (page off size t c new : Nat) (v : Dword) (w : Word) (x : Cq), Alive s → s.dev.pageTen f page = some t →
    (s.dev.tenGet t).st ≠ 5 → off % 8 = 0 → size = 4 ∨ size = 8 → off < 4096 → s.dev.sqAt t (off / 8) = none →
    s.dev.cqAt t (off / 8) = some (c, x) → w = BitVec.ofNat 32 v.toNat → x.stash = [] → x.evtLost = 0 → fld w 15 0 < x.size →
    (x.retas = false → new = fld w 16 16 * x.size + fld w 15 0 → distFwd x.log2 x.head new ≤ distFwd x.log2 x.head x.write →
      Runs (.cqDoorbell f page off size v) s fun b =>
        kvFind c b.ring.cqs = some { x with head := new, stallTimer := false } ∧ Agree [.rings] s.dev b) ∧
    (x.retas = true → new = posAdd x.log2 x.head ((fld w 15 0 + x.size - x.head % x.size) % x.size) →
      distFwd x.log2 x.head new ≤ distFwd x.log2 x.head x.write →
      Runs (.retasCiWrite f page off size v) s fun b =>
        kvFind c b.ring.cqs = some { x with head := new, stallTimer := false } ∧ Agree [.rings] s.dev b)) ∧
  (∀ (s : State) (f : Fn) (page off size t q new : Nat) (v : Dword) (w : Word) (x : Sq), Alive s → s.dev.pageTen f page = some t →
    (s.dev.tenGet t).st ≠ 5 → off % 8 = 0 → size = 4 ∨ size = 8 → off < 4096 → s.dev.sqAt t (off / 8) = some (q, x) →
    w = BitVec.ofNat 32 v.toNat → x.retas = true → fld w 15 0 < x.size →
    new = posAdd x.log2 x.tail ((fld w 15 0 + x.size - x.tail % x.size) % x.size) → distFwd x.log2 x.started new < x.size →
    Runs (.retasPiWrite f page off size v) s fun b =>
      kvFind q b.ring.sqs = some { x with tail := new, state := if x.failed then x.state else 1 } ∧ Agree [.rings] s.dev b) ∧
  (∀ (s : State) (f : Fn) (page off size : Nat) (v : Dword), Alive s → s.dev.pageTen f page = none →
    Runs (.strayDoorbell f page off size v) s fun b =>
      b.reg (Reg.HIF_DB_STRAY f.port) = counterAdd (s.dev.reg (Reg.HIF_DB_STRAY f.port)) 1 ∧ OnlyRegs [Reg.HIF_DB_STRAY f.port] s.dev b ∧
      Agree [.regs] s.dev b) ∧
  (∀ (s : State) (f : Fn) (page off size t : Nat) (v : Dword), Alive s → s.dev.pageTen f page = some t → (s.dev.tenGet t).st ≠ 5 →
    off % 8 ≠ 0 →
    Runs (.sqDoorbell f page off size v) s fun b =>
      b.reg (Reg.RING_DB_BAD (s.dev.tenGet t).owner) = counterAdd (s.dev.reg (Reg.RING_DB_BAD (s.dev.tenGet t).owner)) 1 ∧
      OnlyRegs [Reg.RING_DB_BAD (s.dev.tenGet t).owner] s.dev b ∧ Agree [.regs] s.dev b)

/-- Entries: fetched, taken into the cache as they are, and their jobs started. -/
def Obligations.EntriesAndJobs : Prop :=
  (∀ (s : State) (q : Nat) (x : Sq), Alive s → kvFind q s.dev.ring.sqs = some x →
    (s.dev.mayFetch x = true → x.fetchCount ≠ 0 → Runs (.entryFetch q) s fun b =>
      kvFind q b.ring.sqs = some { x with fetching := x.fetchCount } ∧ Agree [.rings, .hifPorts] s.dev b) ∧
    (∀ bytes, x.fetching ≠ 0 → Runs (.entryFetchDone q bytes none) s fun b =>
      kvFind q b.ring.sqs = some ({ x with fetching := 0 }.takeEntries
        ((List.range (min x.fetching (bytes.length / x.entrySize))).map fun i =>
          SqEntry.ofBytes x.retas (slice bytes (i * x.entrySize) x.entrySize))) ∧ Agree [.rings, .hifPorts, .hifReq] s.dev b) ∧
    (∀ bytes n, x.reread = some n → x.phaseOk x.cacheEnd (SqEntry.ofBytes x.retas bytes) = true → Runs (.phaseReread q bytes none) s fun b =>
      kvFind q b.ring.sqs = some { x with cache := x.cache ++ [SqEntry.ofBytes x.retas bytes], reread := none } ∧ Agree [.rings] s.dev b) ∧
    (∀ n, x.cls = 1 → x.state = 1 → x.front = .run n → Runs (.rxBuf q) s fun b => b = s.dev) ∧
    (∀ n st det, x.cls = 1 → x.state = 1 → x.front = .bad n st det → (x.consume n).cache = [] → (x.consume n).skipping = false →
      Runs (.rxBuf q) s fun b =>
        kvFind q b.ring.sqs = some (x.consume n) ∧
        b.ring.jobs = s.dev.ring.jobs ++ [{ s.dev.newJob q x n false with res := some { status := st, detail := det } }])) ∧
  (∀ (s : State) (p : Nat), Alive s → s.dev.prioTens p = [] → s.dev.nextTen p = none → p < s.dev.ten.sched.length →
    (∀ t, (s.dev.tenGet t).waitShare = none) →
    Runs (.schedulerTurn p) s fun b =>
      (b.schedGet p).turns = (s.dev.portTens p).filterMap (fun t =>
        if (s.dev.tenGet t).share.weight = 0 then none else some (t, (s.dev.tenGet t).share.weight)) ∧ Agree [.sched] s.dev b) ∧
  (∀ (s : State) (p t : Nat), Alive s → s.dev.prioTens p = [] → s.dev.nextTen p = some t → p < s.dev.ten.sched.length →
    Runs (.schedulerTurn p) s fun b =>
      (b.schedGet p).last = t ∧ kvGet 0 (b.schedGet p).turns t = kvGet 0 (s.dev.schedGet p).turns t - 1 ∧ OnlyRegs [] s.dev b) ∧
  (∀ (s : State) (q pos : Nat) (j : Job) (x : Sq), Alive s → s.dev.jobFind q pos = some j → kvFind q s.dev.ring.sqs = some x → j.opc = 1 →
    j.res = none → j.confirming = false → s.dev.ring.jobs.find? (fun k => decide (k.sq = q)) = some j → j.bar = false →
    Runs (.nop q pos) s fun b => b.jobFind q pos = some { j with res := some { status := 0 } } ∧ Agree [.jobs] s.dev b) ∧
  (∀ (s : State) (q pos : Nat) (j : Job), Alive s → s.dev.jobFind q pos = some j → j.opc = 2 → j.res = none → j.reading = false →
    s.dev.jobLive j = true → s.dev.txCtxBad j = false → j.total ≠ 0 →
    Runs (.tx q pos) s fun b => b.jobFind q pos = some { j with reading := true, need := j.total } ∧ Agree [.jobs, .hifPorts] s.dev b) ∧
  (∀ (s : State) (q pos : Nat) (j : Job), Alive s → s.dev.jobFind q pos = some j → j.opc = 2 → j.res = none → j.reading = false →
    s.dev.jobLive j = true → s.dev.txCtxBad j = true →
    Runs (.tx q pos) s fun b => b.jobFind q pos = some { j with res := some { status := St.DENIED, detail := 2 } } ∧ Agree [.jobs] s.dev b)

/-- Completions, barriers, stalls and moderation. -/
def Obligations.Completions : Prop :=
  (∀ (s : State) (q pos : Nat) (j : Job) (x : Sq) (y : Cq) (r : JobRes), Alive s → s.dev.jobFind q pos = some j →
    kvFind q s.dev.ring.sqs = some x → j.res = some r → s.dev.shutPass j.ten j.gen = true → s.dev.jobBlocked x j = false →
    (j.bar = false ∨ j.wrote = false ∨ j.confirmed = true ∨ j.noConfirm = true) → x.prog = false →
    kvFind x.cq s.dev.ring.cqs = some y → y.stash = [] → y.ten = j.ten →
    (s.dev.cqOpen y = true → Runs (.jobCompletion q pos) s fun b =>
      b.jobFind q pos = none ∧
      ∃ e, Out.cqe false x.cq y.write (y.base.toNat + 32 * (y.write % y.size)) e ∈ b.out ∧ e.d0 = (s.dev.jobCqe j r).d0 ∧
        e.d1 = (s.dev.jobCqe j r).d1 ∧ e.d2 = r.d2) ∧
    (s.dev.cqOpen y = false → Runs (.jobCompletion q pos) s fun b =>
      b.jobFind q pos = none ∧ b.out = s.dev.out ∧ ∃ z, kvFind x.cq b.ring.cqs = some z ∧ z.stash = [s.dev.jobCqe j r])) ∧
  (∀ (s : State) (q pos : Nat) (j : Job) (x : Sq) (r : JobRes), Alive s → s.dev.jobFind q pos = some j → kvFind q s.dev.ring.sqs = some x →
    j.res = some r → s.dev.shutPass j.ten j.gen = false →
    Runs (.jobCompletion q pos) s fun b =>
      b.jobFind q pos = none ∧ b.out = s.dev.out ∧ b.reg (Reg.TEN_DISCARD j.ten) = counterAdd (s.dev.reg (Reg.TEN_DISCARD j.ten)) 1 ∧
      OnlyRegs [Reg.TEN_DISCARD j.ten] s.dev b) ∧
  (∀ (s : State) (q pos : Nat) (j : Job) (err : Option (Nat × Nat)), Alive s → s.dev.jobFind q pos = some j → j.confirming = true →
    j.confirmed = false →
    Runs (.barrierReadDone q pos err) s fun b =>
      (∃ k, b.jobFind q pos = some k ∧ k.confirmed = true ∧
        (∀ st det, err = some (st, det) → ∃ r, k.res = some r ∧ r.status = st ∧ r.detail = det) ∧
        (err = none → k.res = some (j.res.getD { status := 0 }))) ∧ OnlyRegs [] s.dev b) ∧
  (∀ (s : State) (c : Nat) (x : Cq), Alive s → kvFind c s.dev.ring.cqs = some x → x.stallTimer = true →
    Runs (.cqStallTimeout c) s fun b => ∃ y, kvFind c b.ring.cqs = some y ∧ y.state = 3 ∧ y.stallTimer = false ∧ ∃ r, y.stash = x.stash ++ r) ∧
  (∀ (s : State) (n : Nat) (x : Cq), Alive s → kvFind n s.dev.ring.cqs = some x → x.mod.timer = true →
    s.dev.fnD3 (s.dev.tenFn x.ten) = false →
    Runs (.modTimerExpire true n) s fun b =>
      kvFind n b.ring.cqs = some { x with mod := { x.mod with n := 0, timer := false, due := false } } ∧ OnlyRegs [] s.dev b) ∧
  (∀ (s : State) (n : Nat) (x : Sq), Alive s → kvFind n s.dev.ring.sqs = some x → x.mod.timer = true →
    s.dev.fnD3 (s.dev.tenFn x.ten) = false →
    Runs (.modTimerExpire false n) s fun b =>
      kvFind n b.ring.sqs = some { x with mod := { x.mod with n := 0, timer := false, due := false } } ∧ OnlyRegs [] s.dev b)

/-- Creating, destroying and changing rings, and holding and resuming them. -/
def Obligations.RingCommands : Prop :=
  (∀ (s : State) (e : AdmEntry) (n : Nat), AdmReady s → Owns e e.ten s → bitOf e.d2 25 = true → 6 ≤ fld e.d2 44 40 → fld e.d2 44 40 ≤ 16 →
    fld e.d3 11 0 = 0 → (bitOf e.d2 26 = true → fld e.d4 2 0 = 0) → fld e.d5 39 32 ≠ 0 →
    (s.dev.tenGet e.ten).st = 2 ∨ (s.dev.tenGet e.ten).st = 3 → s.dev.sqAt e.ten e.loc = none → s.dev.cqAt e.ten e.loc = none →
    s.dev.nvLocal e.ten e.loc = false → s.dev.ringsOf e.ten < (s.dev.tenGet e.ten).rings → kvFirstFree s.dev.ring.cqs 65536 = some n →
    (bitOf e.d2 28 = true → ∀ c ∈ s.dev.ring.cqs, c.2.ten = e.ten → c.2.evt = false) → bitOf e.d6 16 = false →
    Completes (.ringCreate e) e 0x20 s fun b =>
      kvFind n b.ring.cqs = some {
          ten := e.ten, loc := e.loc, log2 := fld e.d2 44 40, retas := bitOf e.d2 26, evt := bitOf e.d2 28, base := e.d3, wb := e.d4,
          mod := modOf e } ∧ b.ring.sqs = s.dev.ring.sqs ∧
      (∀ c, c ≠ n → kvFind c b.ring.cqs = kvFind c s.dev.ring.cqs) ∧ OnlyRegs [] s.dev b) ∧
  (∀ (s : State) (e : AdmEntry) (n c : Nat) (y : Cq), AdmReady s → Owns e e.ten s → bitOf e.d2 25 = false → bitOf e.d2 29 = false →
    fld e.d2 34 32 ≤ 4 → (bitOf e.d2 26 = true → fld e.d2 34 32 ≠ 3 ∧ fld e.d2 34 32 ≠ 4 ∧ fld e.d4 2 0 = 0) → 6 ≤ fld e.d2 44 40 →
    fld e.d2 44 40 ≤ 16 → fld e.d3 11 0 = 0 → fld e.d5 7 0 ≠ 0 → fld e.d5 14 8 ≠ 0 → fld e.d5 14 8 ≤ 64 →
    (s.dev.tenGet e.ten).st = 2 ∨ (s.dev.tenGet e.ten).st = 3 → s.dev.sqAt e.ten e.loc = none → s.dev.cqAt e.ten e.loc = none →
    s.dev.nvLocal e.ten e.loc = false → s.dev.ringsOf e.ten < (s.dev.tenGet e.ten).rings → kvFirstFree s.dev.ring.sqs 65536 = some n →
    s.dev.cqAt e.ten (fld e.d2 56 48) = some (c, y) →
    Completes (.ringCreate e) e 0x20 s fun b =>
      kvFind n b.ring.sqs = some {
          ten := e.ten, loc := e.loc, cls := fld e.d2 34 32, retas := bitOf e.d2 26, scatter := bitOf e.d2 27, prog := false, cq := c,
          log2 := fld e.d2 44 40, base := e.d3, wb := e.d4, rweight := fld e.d5 7 0, burst := fld e.d5 14 8, mod := modOf e } ∧ b.ring.cqs = s.dev.ring.cqs ∧ (∀ q, q ≠ n → kvFind q b.ring.sqs = kvFind q s.dev.ring.sqs) ∧ OnlyRegs [] s.dev b) ∧
  (∀ (s : State) (e : AdmEntry) (q : Nat) (x : Sq), AdmReady s → Owns e e.ten s → (s.dev.tenGet e.ten).st ≠ 0 →
    (s.dev.tenGet e.ten).st ≠ 5 → s.dev.sqAt e.ten e.loc = some (q, x) →
    (x.state = 2 ∨ (s.dev.tenGet e.ten).st ≠ 3 → Completes (.ringDestroy e) e 0x21 s fun b =>
      kvFind q b.ring.sqs = none ∧ (∀ j ∈ b.ring.jobs, j.sq ≠ q) ∧ b.ring.cqs = s.dev.ring.cqs ∧ OnlyRegs [] s.dev b) ∧
    (Completes (.ringDcinv e) e 0x22 s fun b => kvFind q b.ring.sqs = some { x.dropCache with state := 2 } ∧
      AdmEnded s.dev b e 0x22 0 0 ∧ OnlyRegs [] s.dev b) ∧
    (x.state = 2 → x.failedJob = false → Completes (.ringResume e) e 0x23 s fun b =>
      kvFind q b.ring.sqs = some { x with state := 1, failed := false, failedJob := false } ∧ OnlyRegs [] s.dev b) ∧
    (x.prog = true → fld e.d5 39 32 ≠ 0 → bitOf e.d6 16 = false → Completes (.ringSetMod e) e 0x24 s fun b =>
      kvFind q b.ring.sqs = some { x with
          mod := { modOf e with n := x.mod.n, timer := x.mod.timer, start := x.mod.start, due := x.mod.due } } ∧ OnlyRegs [] s.dev b) ∧
    (fld e.d5 7 0 ≠ 0 → fld e.d5 14 8 ≠ 0 → fld e.d5 14 8 ≤ 64 → Completes (.ringSetSched e) e 0x25 s fun b =>
      kvFind q b.ring.sqs = some { x with nextSched := some (fld e.d5 7 0, fld e.d5 14 8) } ∧ OnlyRegs [] s.dev b)) ∧
  (∀ (s : State) (e : AdmEntry) (c : Nat) (x : Cq), AdmReady s → Owns e e.ten s → (s.dev.tenGet e.ten).st ≠ 0 →
    (s.dev.tenGet e.ten).st ≠ 5 → s.dev.sqAt e.ten e.loc = none → s.dev.cqAt e.ten e.loc = some (c, x) →
    ((∀ q ∈ s.dev.ring.sqs, q.2.prog = true ∨ q.2.cq ≠ c) → Completes (.ringDestroy e) e 0x21 s fun b =>
      kvFind c b.ring.cqs = none ∧ b.ring.sqs = s.dev.ring.sqs ∧ OnlyRegs [] s.dev b) ∧
    (x.state = 3 → x.room = true → x.stash = [] → x.evtLost = 0 → Completes (.ringResume e) e 0x23 s fun b =>
      kvFind c b.ring.cqs = some { x with state := 1, stallTimer := false } ∧ OnlyRegs [] s.dev b) ∧
    (fld e.d5 39 32 ≠ 0 → bitOf e.d6 16 = false → Completes (.ringSetMod e) e 0x24 s fun b =>
      kvFind c b.ring.cqs = some { x with
          mod := { modOf e with n := x.mod.n, timer := x.mod.timer, start := x.mod.start, due := x.mod.due } } ∧ OnlyRegs [] s.dev b))

/-- The admin rings: enabled, disabled, their doorbells, and control firmware taking an entry. -/
def Obligations.AdminRings : Prop :=
  (∀ (s : State) (pf : Nat) (v w : Word), Alive s → (s.dev.admGet pf).en = false → w = (v ||| 0x80000000#32) &&& 0x83ff1f1f#32 →
    6 ≤ fld w 4 0 → fld w 4 0 ≤ 12 → 6 ≤ fld w 12 8 → fld w 12 8 ≤ 12 →
    Runs (.adminRingEnable pf v) s fun b =>
      b.ring.adm = s.dev.ring.adm.set pf { en := true } ∧ b.reg (Reg.RING_ADM_CFG pf) = w ∧ OnlyRegs [Reg.RING_ADM_CFG pf] s.dev b) ∧
  (∀ (s : State) (pf : Nat) (v : Word), Alive s → (s.dev.admGet pf).en = true →
    Runs (.adminRingDisable pf v) s fun b =>
      b.ring.adm = s.dev.ring.adm.set pf { s.dev.admGet pf with
          en := false, closing := true, tail := (s.dev.admGet pf).started, fetchFailed := false } ∧ b.reg (Reg.RING_ADM_CFG pf) = v &&& 0x03ff1f1f#32 ∧ OnlyRegs [Reg.RING_ADM_CFG pf] s.dev b) ∧
  (∀ (s : State) (pf k new : Nat) (v : Word) (x : AdmRing), Alive s → x = s.dev.admGet pf → x.en = true → k = s.dev.admSqLog2 pf →
    new = fld v 16 16 * 2 ^ k + fld v 15 0 → fld v 15 0 < 2 ^ k → distFwd k x.started new ≤ 2 ^ k →
    distFwd k x.started x.tail ≤ distFwd k x.started new →
    Runs (.adminSqDoorbell pf v) s fun b =>
      b.ring.adm = s.dev.ring.adm.set pf { x with tail := new, fetchFailed := false } ∧ Agree [.adm] s.dev b) ∧
  (∀ (s : State) (pf k new : Nat) (v : Word) (x : AdmRing), Alive s → x = s.dev.admGet pf → x.en = true → k = s.dev.admCqLog2 pf →
    new = fld v 16 16 * 2 ^ k + fld v 15 0 → fld v 15 0 < 2 ^ k → distFwd k x.head new ≤ distFwd k x.head x.write → x.stash = [] →
    x.evtLost = 0 →
    Runs (.adminCqDoorbell pf v) s fun b => b.ring.adm = s.dev.ring.adm.set pf { x with head := new } ∧ Agree [.adm] s.dev b) ∧
  (∀ (s : State) (e : AdmEntry) (n : Nat), Alive s → s.dev.admNext = some e.pf → n ≤ 1 →
    (e.first = true → e.last = true → admAllocated e.opc = true → Runs (.adminCommandTake e n none) s fun b =>
      b.ring.taken = s.dev.ring.taken ++ [{ e := e, priv := s.dev.privNow e.pf }] ∧ b.ring.admTurn = (e.pf + 1) % 16 ∧
      b.ring.adm = s.dev.ring.adm.set e.pf { s.dev.admGet e.pf with
          started := posAdd (s.dev.admSqLog2 e.pf) (s.dev.admGet e.pf).started (max 1 (min n (distFwd (s.dev.admSqLog2 e.pf) (s.dev.admGet e.pf).started (s.dev.admGet e.pf).tail))) } ∧
      Agree [.adm, .taken] s.dev b) ∧
    (e.first = true → e.last = true → admAllocated e.opc = false → s.dev.ring.taken = [] → Runs (.adminCommandTake e n none) s fun b =>
      AdmEnded s.dev b e e.opc St.MALFORMED 1 ∧ b.ring.taken = [] ∧ OnlyRegs [] s.dev b))

/-- The copy engine: descriptors, chunks and their bytes, halts, grants, and the commands on a halted channel. -/
def Obligations.CopyEngine : Prop :=
  (∀ (s : State) (q pos n : Nat) (c : Chan) (j : Job), Alive s →
    s.dev.dma.chans.find? (fun c => decide (c.2.st = 1 ∧ c.2.sq = q ∧ c.2.pos = pos)) = some (n, c) → s.dev.jobFind q pos = some j →
    j.reading = false → c.addr % 32 = 0 →
    Runs (.copy q pos) s fun b => b.jobFind q pos = some { j with reading := true } ∧
      b.chan n = { c with desc := none, snap := none, off := 0 } ∧ Agree [.jobs, .dma, .hifPorts] s.dev b) ∧
  (∀ (s : State) (n : Nat) (c : Chan) (j : Job) (bytes : List Byte) (ecc : Ecc), Alive s → c = s.dev.chan n → s.dev.chanJob c = some j →
    c.st = 1 → c.desc = none → j.reading = true → c.addrHbm = false → (Desc.ofBytes (fitTo 32 bytes)).refused c.done j.firstE.len = none →
    Runs (.descriptorReadDone n bytes none ecc) s fun b =>
      (b.chan n).desc = some (Desc.ofBytes (fitTo 32 bytes)) ∧ (b.chan n).off = 0 ∧ Agree [.dma, .hifPorts, .hifReq] s.dev b) ∧
  (∀ (s : State) (n e : Nat) (c : Chan) (j : Job) (x : Desc) (inp : ChunkIn) (ecc : Ecc), Alive s → c = s.dev.chan n →
    s.dev.chanJob c = some j → c.st = 1 → c.desc = some x → x.srcHbm = true → x.dstHbm = true → x.swrap = 0 → x.dwrap = 0 → c.snap = none →
    ecc.ueLines = [] → e = min ((c.off / 4096 + 1) * 4096) x.len → c.off < e →
    (∀ i, c.off ≤ i → i < e → s.dev.granted c.ten (x.src + i) false = true ∧ s.dev.granted c.ten (x.dst + i) true = true ∧
      s.dev.hbm.poisoned (x.src + i) 1 = false) →
    (Runs (.copyChunk n inp ecc) s fun b =>
      (∀ i, c.off ≤ i → i < e → b.hbm.byte (x.dst + i) = s.dev.hbm.byte (x.src + i)) ∧ OnlyBytes (x.dst + c.off) (e - c.off) s.dev b ∧
      (e < x.len → b.chan n = { c with off := e, done := c.done + (e - c.off) }) ∧
      (e = x.len → x.last = true → j.bar = false → c.skipped = false → j.res = none →
        (b.chan n).st = 0 ∧ ∃ k, b.jobFind c.sq c.pos = some k ∧ ∃ r, k.res = some r ∧ r.status = St.DONE ∧ r.len = c.done + (e - c.off)))) ∧
  (∀ (s : State) (n e : Nat) (c : Chan) (j : Job) (x : Desc) (inp : ChunkIn) (ecc : Ecc), Alive s → c = s.dev.chan n →
    s.dev.chanJob c = some j → c.st = 1 → c.desc = some x → x.srcHbm = false → x.dstHbm = true → x.swrap = 0 → x.dwrap = 0 →
    inp.rdErr = none → e = min ((c.off / 4096 + 1) * 4096) x.len → inp.data.length = e - c.off → c.off < e → e < x.len →
    (∀ i, c.off ≤ i → i < e → s.dev.granted c.ten (x.dst + i) true = true) →
    Runs (.copyChunk n inp ecc) s fun b =>
      (∀ i, c.off ≤ i → i < e → b.hbm.byte (x.dst + i) = inp.data.getD (i - c.off) 0#8) ∧ OnlyBytes (x.dst + c.off) (e - c.off) s.dev b ∧
      b.chan n = { c with off := e, done := c.done + (e - c.off) }) ∧
  (∀ (s : State) (n : Nat), Alive s → (s.dev.chan n).st = 3 →
    Runs (.dmaHaltTimeout n) s fun b => (b.chan n).st = 0 ∧
      b.reg Reg.DMA_HALT_TO_CNT = counterAdd (s.dev.reg Reg.DMA_HALT_TO_CNT) 1 ∧ OnlyRegs [Reg.DMA_HALT_TO_CNT] s.dev b) ∧
  (∀ (s : State) (e : AdmEntry), AdmReady s → Owns e e.ten s → 2 ≤ (s.dev.tenGet e.ten).st → (s.dev.tenGet e.ten).st ≠ 5 →
    (bitOf e.d2 32 = true → e.d3.toNat % 4096 = 0 ∧ e.d4.toNat ≠ 0 ∧ e.d4.toNat % 4096 = 0 ∧ e.d3.toNat + e.d4.toNat ≤ hbmReserved) →
    Runs (.dmaGrant e) s fun b =>
      ((∃ c ∈ s.dev.dma.chans, c.2.st = 1 ∧ c.2.ten = e.ten) → AdmWaits b e ∧ b.dma.waiting = s.dev.dma.waiting ++ [e]) ∧
      ((∀ c ∈ s.dev.dma.chans, c.2.st = 1 → c.2.ten ≠ e.ten) → AdmDone s.dev b e 0x28) ∧
      kvFind (8 * e.ten + fld e.d2 18 16) b.dma.grants = (if bitOf e.d2 32 then
        some { base := e.d3.toNat, size := e.d4.toNat, r := bitOf e.d2 33, w := bitOf e.d2 34 } else none) ∧
      (∀ k, k ≠ 8 * e.ten + fld e.d2 18 16 → kvFind k b.dma.grants = kvFind k s.dev.dma.grants) ∧ OnlyRegs [] s.dev b) ∧
  (∀ (s : State) (t : Nat) (e : AdmEntry), Alive s → s.dev.dma.waiting.find? (fun e => decide (e.ten = t)) = some e →
    Runs (.grantDrained t) s fun b => b.dma.waiting = s.dev.dma.waiting.erase e ∧ OnlyRegs [] s.dev b) ∧
  (∀ (s : State) (e : AdmEntry) (n : Nat) (c : Chan), AdmReady s → Owns e e.ten s → n = fld e.d2 23 16 → c = s.dev.chan n → c.st = 3 →
    c.ten = e.ten →
    (c.faultDesc = false → Completes (.dmaResume e) e 0x29 s fun b => b.chan n = { c with st := 1 } ∧ OnlyRegs [] s.dev b) ∧
    (c.faultDesc = true → Completes (.dmaSkip e) e 0x2A s fun b => (b.chan n).st = 0 ∧ (b.chan n).skipped = true ∧ OnlyRegs [] s.dev b) ∧
    (Completes (.dmaAbort e) e 0x2B s fun b => (b.chan n).st = 0 ∧ OnlyRegs [] s.dev b))

/-! Network ports, Dimming and the service bus (R171 to R194). -/

/-- Port modes, links, counters, pauses and low-power idle. -/
def Obligations.PortControl : Prop :=
  (∀ (s : State) (pf : Nat) (v : Word), Alive s → s.dev.privNow pf = true → bitOf v 0 = true → bitOf v 1 = false →
    (s.dev.modeCheck 0 (s.dev.reg (Reg.PORT_GRP_MODE 0)) = true → Runs (.portApply pf v) s fun b =>
      b.port.modes = s.dev.port.modes.set 0 (s.dev.reg (Reg.PORT_GRP_MODE 0))) ∧
    (s.dev.modeCheck 0 (s.dev.reg (Reg.PORT_GRP_MODE 0)) = false → Runs (.portApply pf v) s fun b =>
      b.port = s.dev.port ∧ b.regBit Reg.PORT_GSTAT 0 = true ∧ OnlyRegs [Reg.PORT_GSTAT] s.dev b)) ∧
  (∀ (s : State) (p : Nat), Alive s → s.dev.portType p ≠ 0 → s.dev.regBit (Reg.PORT_CFG p) 0 = true → (s.dev.netPort p).link = false →
    Runs (.netLinkUp p) s fun b =>
      (b.netPort p).link = true ∧ (b.netPort p).localFault = false ∧ (b.netPort p).remoteFault = false ∧ (b.netPort p).held = [] ∧
      (b.dim p).txW = s.dev.portLanes p ∧ (b.dim p).rxW = s.dev.portLanes p ∧ (b.netPort p).txq = (s.dev.netPort p).txq ∧
      (∀ r, r ≠ p → b.netPort r = s.dev.netPort r) ∧ Agree [.port] s.dev b) ∧
  (∀ (s : State) (p : Nat) (l r : Bool), Alive s → (s.dev.netPort p).link = true →
    Runs (.netLinkDown p l r) s fun b =>
      (b.netPort p).link = false ∧ (b.netPort p).localFault = l ∧ (b.netPort p).remoteFault = r ∧
      kvGet 0 (b.netPort p).counters 42 = kvGet 0 (s.dev.netPort p).counters 42 + 1 ∧ (∀ r, r ≠ p → b.netPort r = s.dev.netPort r) ∧
      Agree [.port] s.dev b) ∧
  (∀ (s : State) (pf p : Nat), Alive s → p < 16 → s.dev.allowed pf (Reg.PORT_CNT_SNAP p) false = true →
    (s.dev.netPort p).reading = false →
    Runs (.portCntSnap pf p) s fun b =>
      (b.netPort p).bank = (s.dev.netPort p).counters ∧ (b.netPort p).counters = [] ∧ (b.netPort p).reading = true ∧
      (b.netPort p).snapSeq = ((s.dev.netPort p).snapSeq + 1) % 65536 ∧ b.lastRead = BitVec.ofNat 64 (((s.dev.netPort p).snapSeq + 1) % 65536) ∧
      (∀ r, r ≠ p → b.netPort r = s.dev.netPort r) ∧ OnlyRegs [] s.dev b) ∧
  (∀ (s : State) (pf p : Nat) (v : Word), Alive s → p < 16 → s.dev.privNow pf = true → bitOf v 0 = true →
    Runs (.portCntRel pf p v) s fun b => b.netPort p = { s.dev.netPort p with reading := false } ∧ Agree [.port] s.dev b) ∧
  (∀ (s : State) (p c : Nat), Alive s →
    Runs (.pauseExpire p c) s fun b =>
      b.netPort p = { s.dev.netPort p with held := (s.dev.netPort p).held.filter (fun k => decide (k ≠ c)) } ∧ Agree [.port] s.dev b) ∧
  (∀ (s : State) (p : Nat), Alive s → (s.dev.netPort p).xoff = true → (s.dev.netPort p).link = true →
    s.dev.regN (Reg.PORT_PFC_XON p) < (s.dev.sq.pool p).used →
    Runs (.pauseRefresh p) s fun b =>
      b.out = s.dev.out ++ [.frame p (s.dev.pauseFrame p 0xFFFF) false] ∧ (b.netPort p).xoff = true ∧ Agree [.port, .out] s.dev b) ∧
  (∀ (s : State) (p : Nat), Alive s → s.dev.lpiUse p = true →
    (Runs (.lpiEntry p true) s fun b => (b.netPort p).lpiTx = true ∧ ((s.dev.netPort p).lpiTx = false →
      kvGet 0 (b.netPort p).counters 81 = kvGet 0 (s.dev.netPort p).counters 81 + 1) ∧ Agree [.port] s.dev b) ∧
    (Runs (.lpiEntry p false) s fun b => b.netPort p = { s.dev.netPort p with lpiRx := true } ∧ Agree [.port] s.dev b)) ∧
  (∀ (s : State) (p : Nat), Alive s →
    (Runs (.lpiExit p true) s fun b => b.netPort p = { s.dev.netPort p with lpiTx := false } ∧ Agree [.port] s.dev b) ∧
    (Runs (.lpiExit p false) s fun b => b.netPort p = { s.dev.netPort p with lpiRx := false } ∧ Agree [.port] s.dev b)) ∧
  (∀ (s : State) (p w : Nat), Alive s → (s.dev.hifPort p).linkUp = true → (s.dev.hifPort p).flit = true →
    s.dev.regBit (Reg.HIF_PORT_CTL p) 0 = true → w ∈ [16, 8, 4, 2, 1] →
    Runs (.l0pWidthChange p w) s fun b => b.hif.ports = s.dev.hif.ports.set p { s.dev.hifPort p with width := w } ∧ Agree [.hifPorts] s.dev b)

/-- Frames: received into the Square or counted as bad, transmitted and freed, paused, placed in a receive buffer. -/
def Obligations.PortFrames : Prop :=
  (∀ (s : State) (p tok : Nat) (f frame : List Byte) (q : Square), Alive s → s.dev.portType p ≠ 0 → (s.dev.netPort p).link = true →
    frame = f ++ Net.fcs f → 64 ≤ frame.length → frame.length ≤ s.dev.regN (Reg.PORT_MTU p) → s.dev.pwr.state < 2 → etherType f ≠ 0x8808 →
    isDimming f = false → (s.dev.secY p).en = false →
    s.dev.sq.store { pool := p, cells := 0, data := f, port := p, ts := (s.dev.pcsTime (Reg.TIME_ASYM_RX p) / 4294967296).toNat } =
      some (tok, q) →
    Runs (.macRxFrame p frame {}) s fun b => ∃ k, b.pkt tok = some k ∧ k.data = f ∧ k.port = p ∧ k.pool = p ∧ k.stage = .arrived) ∧
  (∀ (s : State) (p : Nat) (frame : List Byte), Alive s → s.dev.portType p ≠ 0 → (s.dev.netPort p).link = true →
    64 ≤ frame.length → frame.length ≤ s.dev.regN (Reg.PORT_MTU p) →
    frame.drop (frame.length - 4) ≠ Net.fcs (frame.take (frame.length - 4)) →
    Runs (.macRxFrame p frame {}) s fun b =>
      kvGet 0 (b.netPort p).counters 5 = kvGet 0 (s.dev.netPort p).counters 5 + 1 ∧ Agree [.port] s.dev b) ∧
  (∀ (s : State) (p tok : Nat) (k : Packet), Alive s → (s.dev.netPort p).link = true → (s.dev.netPort p).txq = [tok] →
    s.dev.pkt tok = some k → k.tc ∉ (s.dev.netPort p).held → s.dev.ttEn p = false → k.poison = false → s.dev.ptpEvent p k.data = none →
    (s.dev.secY p).grows k.data = 0 → max 64 (k.data.length + 4) ≤ s.dev.regN (Reg.PORT_MTU p) →
    Runs (.macTxFrame p false) s fun b =>
      Out.frame p (if k.data.length < 60 then fitTo 60 k.data else k.data) false ∈ b.out ∧ b.pkt tok = none ∧ (b.netPort p).txq = []) ∧
  (∀ (s : State) (p : Nat) (quanta : List Nat), Alive s → s.dev.portType p ≠ 0 → (s.dev.netPort p).link = true →
    64 ≤ s.dev.regN (Reg.PORT_MTU p) → s.dev.pwr.state ≠ 2 → s.dev.regBit (Reg.PORT_CFG p) 5 = true → quanta.getD 0 0 < 65536 →
    Runs (.pauseFrameRx p false 0 quanta) s fun b =>
      (b.netPort p).held = (if quanta.getD 0 0 = 0 then [] else List.range 8) ∧ Agree [.port] s.dev b) ∧
  (∀ (s : State) (tok t l mark q n : Nat) (dec : Bool) (k : Packet) (x : Sq) (r : SqEntry) (y : List SqEntry), Alive s →
    s.dev.pkt tok = some k → k.stage = .toRing t l mark dec → s.dev.sqAt t l = some (q, x) → kvFind q s.dev.ring.sqs = some x → x.ten = t →
    x.cls = 1 → x.state = 1 → x.front = .run n → x.cache = r :: y → x.buffers ≠ [] → x.scatter = false → s.dev.stashFull x.cq = false →
    s.dev.fnHeld (s.dev.tenFn t) = false → (s.dev.tenGet t).gen = k.gen → (s.dev.tenGet t).st = 3 → k.data ≠ [] → k.data.length ≤ r.len →
    s.dev.jobFind q x.started = none →
    Runs (.rxFramePlace tok false) s fun b =>
      b.pkt tok = none ∧
      Out.hostWrite (s.dev.tenFn t) (s.dev.tenGet t).pasid r.addr k.data (r.ro && (s.dev.fnGet (s.dev.tenFn t)).relaxed) ∈ b.out ∧
      ∃ j ∈ b.ring.jobs, j.sq = q ∧ j.pos = x.started ∧ ∃ z, j.res = some z ∧ z.status = 0 ∧ z.len = k.data.length)

/-- R176: while a port's link is not up, the frame at the head of its transmit queue is dropped and counted in TX_DOWN_DROP (counter 55);
no frame is sent. -/
def Obligations.LinkDownDrop : Prop :=
  ∀ (s : State) (p tok : Nat) (rest : List Nat) (k : Packet) (ue : Bool), Alive s → (s.dev.netPort p).link = false →
    (s.dev.netPort p).txq = tok :: rest → tok ∉ rest → s.dev.pkt tok = some k →
    Runs (.macTxFrame p ue) s fun b =>
      b.pkt tok = none ∧ (b.netPort p).txq = rest ∧ kvGet 0 (b.netPort p).counters 55 = kvGet 0 (s.dev.netPort p).counters 55 + 1 ∧
      (∀ r, r ≠ p → b.netPort r = s.dev.netPort r) ∧
      ∀ o ∈ b.out, o ∈ s.dev.out ∨ (match o with
        | .frame .. => false
        | _ => true) = true

/-- Dimming: the frames sent and received, the widths agreed, and the time-outs. -/
def Obligations.Dimming : Prop :=
  (∀ (s : State) (p bits cap : Nat), Alive s → s.dev.dimOn p = true → cap = s.dev.capBits p (s.dev.dim p).txW 100000 →
    (bits * 100 < s.dev.regFld (Reg.PORT_DIM_CFG p) 6 0 * cap → bits * 100 ≤ s.dev.regFld (Reg.PORT_DIM_CFG p) 14 8 * cap →
      s.dev.ttEn p = false → 2 ≤ (s.dev.dim p).txW → s.dev.regFld (Reg.PORT_DIM_CFG p) 31 16 ≤ (s.dev.dim p).dwell + 1 →
      8 * s.dev.backlog p < s.dev.capBits p ((s.dev.dim p).txW / 2) 25000 → 8 * s.dev.backlog p ≤ s.dev.capBits p (s.dev.dim p).txW 25000 →
      (s.dev.dim p).prop = none → (s.dev.dim p).rest = none → (s.dev.dim p).target = none →
      Runs (.dimWindow p bits) s fun b =>
        (b.dim p).prop = some (((s.dev.dim p).seq + 1) % 65536, (s.dev.dim p).txW / 2) ∧ (b.dim p).txW = (s.dev.dim p).txW ∧
        b.out.length = s.dev.out.length + 1 ∧ Agree [.port, .out] s.dev b) ∧
    (s.dev.regFld (Reg.PORT_DIM_CFG p) 14 8 * cap < bits * 100 → (s.dev.dim p).rest = none → (s.dev.dim p).txW < s.dev.portLanes p →
      Runs (.dimWindow p bits) s fun b =>
        (b.dim p).rest = some (((s.dev.dim p).seq + 1) % 65536) ∧ (b.dim p).prop = none ∧ b.out.length = s.dev.out.length + 1 ∧
        Agree [.port, .out] s.dev b)) ∧
  (∀ (s : State) (p : Nat), Alive s → s.dev.regBit (Reg.PORT_CFG p) 7 = true → (s.dev.netPort p).link = true →
    Runs (.dimCapSend p) s fun b => b.out = s.dev.out ++ [.frame p (s.dev.dimFrame p 1 0 0 0) false] ∧ Agree [.port, .out] s.dev b) ∧
  (∀ (s : State) (p src : Nat), Alive s → (s.dev.netPort p).link = true →
    Runs (.dimCapRx p src (s.dev.portLanes p)) s fun b => (b.dim p).wiwald = true ∧ Agree [.port] s.dev b) ∧
  (∀ (s : State) (p : Nat), Alive s → (s.dev.netPort p).link = true →
    Runs (.dimPartnerLost p) s fun b =>
      b.dim p = { seq := (s.dev.dim p).seq, txW := s.dev.portLanes p, rxW := s.dev.portLanes p } ∧ Agree [.port] s.dev b) ∧
  (∀ (s : State) (p src seq target : Nat), Alive s → (s.dev.netPort p).link = true → s.dev.regBit (Reg.PORT_CFG p) 7 = true →
    (s.dev.dim p).prop = none → (s.dev.dim p).rest = none → (s.dev.dim p).target = none → 0 < target → target * 2 = (s.dev.dim p).txW →
    target < 256 → s.dev.dimOver p = false → s.dev.dimShed p = true →
    Runs (.dimProposeRx p src seq target (s.dev.portLanes p)) s fun b =>
      (b.dim p).txW = target ∧ (b.dim p).prop = none ∧ b.out.length = s.dev.out.length + 2 ∧ Agree [.port, .out] s.dev b) ∧
  (∀ (s : State) (p src seq t target full : Nat), Alive s → (s.dev.netPort p).link = true → seq < 65536 →
    (s.dev.dim p).prop = some (seq, t) →
    (Runs (.dimAcceptRx p src seq target full) s fun b =>
      (b.dim p).txW = t ∧ (b.dim p).prop = none ∧ b.out.length = s.dev.out.length + 1 ∧ Agree [.port, .out] s.dev b) ∧
    (∀ reason, Runs (.dimRefuseRx p src seq target full reason) s fun b =>
      (b.dim p).prop = none ∧ (b.dim p).dwell = 0 ∧ (b.dim p).txW = (s.dev.dim p).txW ∧ Agree [.port] s.dev b)) ∧
  (∀ (s : State) (p src seq t full : Nat), Alive s → (s.dev.netPort p).link = true → t < 256 → (s.dev.dim p).target = some t →
    Runs (.dimSwitchRx p src seq t full) s fun b =>
      (b.dim p).rxW = t ∧ ((s.dev.dim p).txW = t → (b.dim p).target = none) ∧ Agree [.port] s.dev b) ∧
  (∀ (s : State) (p src seq full : Nat), Alive s → (s.dev.netPort p).link = true →
    Runs (.dimRestoreRx p src seq full) s fun b =>
      (b.dim p).txW = s.dev.portLanes p ∧ (b.dim p).prop = none ∧ b.out.length = s.dev.out.length + 2 ∧ Agree [.port, .out] s.dev b) ∧
  (∀ (s : State) (p src seq full : Nat), Alive s → (s.dev.netPort p).link = true → seq < 65536 → (s.dev.dim p).rest = some seq →
    Runs (.dimRestoreAckRx p src seq full) s fun b =>
      (b.dim p).txW = s.dev.portLanes p ∧ (b.dim p).rest = none ∧ b.out.length = s.dev.out.length + 1 ∧ Agree [.port, .out] s.dev b) ∧
  (∀ (s : State) (p : Nat), Alive s → (s.dev.dim p).prop ≠ none →
    Runs (.dimProposeTimeout p) s fun b => (b.dim p).prop = none ∧ (b.dim p).dwell = 0 ∧ Agree [.port] s.dev b) ∧
  (∀ (s : State) (p : Nat), Alive s → (s.dev.dim p).target ≠ none →
    Runs (.dimAlignTimeout p) s fun b => (b.netPort p).link = false ∧ (b.netPort p).localFault = true ∧ Agree [.port] s.dev b)

/-- The service bus: frames, PLCA beacons and MDIO. -/
def Obligations.ServiceBus : Prop :=
  (∀ (s : State) (f : List Byte), s.dev.pwr.off = false → s.dev.regBit Reg.SVB_CFG 0 = true →
    (60 ≤ f.length → f.length ≤ 1514 → etherType f ≠ 0x88B5 → Runs (.svbRxFrame f true) s fun b =>
      b.reg Reg.SVB_RX_OK = counterAdd (s.dev.reg Reg.SVB_RX_OK) 1 ∧ b.port.svb = { s.dev.port.svb with link := true } ∧
      OnlyRegs [Reg.SVB_RX_OK] s.dev b) ∧
    (Runs (.svbRxFrame f false) s fun b =>
      b.reg Reg.SVB_FCS_ERR = counterAdd (s.dev.reg Reg.SVB_FCS_ERR) 1 ∧ OnlyRegs [Reg.SVB_FCS_ERR] s.dev b ∧ Agree [.regs] s.dev b)) ∧
  (∀ (s : State) (f : List Byte) (r : List (List Byte × Option AdmEntry)) (n : Nat), s.dev.pwr.off = false →
    s.dev.regBit Reg.SVB_CFG 0 = true → s.dev.port.svb.txq = (f, none) :: r →
    (n < 16 → Runs (.svbTxFrame n) s fun b =>
      b.out = s.dev.out ++ [.svbFrame f] ∧ b.port.svb.txq = r ∧ b.reg Reg.SVB_TX_OK = counterAdd (s.dev.reg Reg.SVB_TX_OK) 1 ∧
      (n ≠ 0 → b.reg Reg.SVB_COLL = counterAdd (s.dev.reg Reg.SVB_COLL) n) ∧ OnlyRegs [Reg.SVB_TX_OK, Reg.SVB_COLL] s.dev b) ∧
    (16 ≤ n → Runs (.svbTxFrame n) s fun b =>
      b.out = s.dev.out ∧ b.port.svb.txq = r ∧ b.reg Reg.SVB_TX_DROP = counterAdd (s.dev.reg Reg.SVB_TX_DROP) 1 ∧
      OnlyRegs [Reg.SVB_TX_DROP, Reg.SVB_COLL] s.dev b)) ∧
  (∀ s : State, s.dev.pwr.off = false → s.dev.port.svb.plcaActive = true →
    Runs .svbBeaconLoss s fun b => b.port.svb = { s.dev.port.svb with plcaActive := false } ∧
      b.reg Reg.SVB_PLCA_FALLBACK = counterAdd (s.dev.reg Reg.SVB_PLCA_FALLBACK) 1 ∧ OnlyRegs [Reg.SVB_PLCA_FALLBACK] s.dev b) ∧
  (∀ s : State, s.dev.pwr.off = false → s.dev.regBit Reg.SVB_CFG 0 = true → s.dev.regBit Reg.SVB_CFG 1 = true →
    s.dev.regFld Reg.SVB_PLCA 7 0 ≠ 0xFF →
    Runs .svbBeaconReturn s fun b => b.port.svb = { s.dev.port.svb with plcaActive := true, link := true } ∧ Agree [.port] s.dev b) ∧
  (∀ (s : State) (pf phy reg data : Nat), Alive s → s.dev.privNow pf = true → s.dev.port.svb.mdio = none →
    (Runs (.mdioRead pf phy reg) s fun b =>
      b.port.svb.mdio = some (true, phy % 32, reg % 32, 0) ∧
      b.reg Reg.SVB_MDIO_CMD = packW [(1, 31), (1, 30), (phy % 32, 21), (reg % 32, 16), (0, 0)] ∧ OnlyRegs [Reg.SVB_MDIO_CMD] s.dev b) ∧
    (Runs (.mdioWrite pf phy reg data) s fun b =>
      b.port.svb.mdio = some (false, phy % 32, reg % 32, data % 65536) ∧
      b.reg Reg.SVB_MDIO_CMD = packW [(1, 31), (0, 30), (phy % 32, 21), (reg % 32, 16), (data % 65536, 0)] ∧
      OnlyRegs [Reg.SVB_MDIO_CMD] s.dev b)) ∧
  (∀ (s : State) (rd : Bool) (phy reg old data : Nat), s.dev.pwr.off = false → s.dev.port.svb.mdio = some (rd, phy, reg, old) →
    Runs (.mdioComplete data) s fun b =>
      b.port.svb.mdio = none ∧
      b.reg Reg.SVB_MDIO_CMD = packW [(b2n rd, 30), (phy, 21), (reg, 16), ((if rd then data else old) % 65536, 0)] ∧
      OnlyRegs [Reg.SVB_MDIO_CMD] s.dev b)

/-! The Crossing (R195 to R225, R571). -/

/-- Classification: a frame without an image, one whose lookup decides, one that a rule drops, and re-entry. -/
def Obligations.Classification : Prop :=
  (∀ (s : State) (tok : Nat) (ue : List Nat) (p : Packet), Alive s → s.dev.pwr.stopP = false → s.dev.pkt tok = some p → p.stage = .arrived →
    s.dev.fabTaken p.data = none → s.dev.cls.banks.getD s.dev.cls.active none = none →
    (fld (s.dev.reg (Reg.CLS_SLOW 4)) 17 16 = 2 → Runs (.crossingClassify tok ue) s fun b =>
      b.pkt tok = none ∧ b.reg Reg.CLS_SLOW_DROP = counterAdd (s.dev.reg Reg.CLS_SLOW_DROP) 1 ∧ OnlyRegs [Reg.CLS_SLOW_DROP] s.dev b) ∧
    (∀ h, fld (s.dev.reg (Reg.CLS_SLOW 4)) 17 16 = 1 → h = fld (s.dev.reg (Reg.CLS_SLOW 4)) 15 0 → s.dev.glb.exc.slow.length < 4096 →
      Runs (.crossingClassify tok ue) s fun b =>
        (∃ q, b.pkt tok = some q ∧ q.stage = .handler h ∧ q.data = p.data ∧ q.cls.ptype = 0x8000 + p.source * 256 + 4) ∧
        b.glb.exc.slow = s.dev.glb.exc.slow ++ [{ reason := 4, token := tok, handler := h }] ∧ OnlyRegs [] s.dev b)) ∧
  (∀ (s : State) (tok prog : Nat) (ue : List Nat) (p : Packet) (img : List Byte) (w : Walk) (x : Half) (c0 c : Cls)
      (win : Option (Nat × TcamEntry)) (res : Dword), Alive s → s.dev.pwr.stopP = false → s.dev.pkt tok = some p → p.stage = .arrived →
    s.dev.fabTaken p.data = none → s.dev.cls.banks.getD s.dev.cls.active none = some img →
    walk img p.data 24 (leAt img (if p.source = 0x60 then 8 else if p.isHost then 7 else 6) 1) {} = .parsed prog w →
    c0 = p.clsStart.ofWalk w → x = imgSlot img prog 0 → bitOf x 15 = true →
    win = (tcamWinner (s.dev.tcamHits (fld x 5 0) (buildKey img (fld x 13 8) p.data c0 0))).1 →
    win.elim false (fun e => ue.contains e.1) = false → res = win.elim (s.dev.rset (fld x 5 0)).miss (fun e => e.2.result) →
    bitOf res 63 = true → c = c0.merge res p.isHost →
    (c.sv = false → Runs (.crossingClassify tok ue) s fun b =>
      (∃ q, b.pkt tok = some q ∧ q.stage = (if c.hv then .handler c.handler else .classified) ∧ q.data = p.data ∧
        q.cls.tv = c.tv ∧ q.cls.ten = c.ten ∧ q.cls.av = c.av ∧ q.cls.action = c.action ∧ q.cls.ring = none ∧
        q.cls.hash = (s.dev.cls.hprofs.getD (s.dev.hprofOf c) default).hash p.data c) ∧
      (b.rset (fld x 5 0)).counters = [(s.dev.rset (fld x 5 0)).counters.getD 0 0 + 1, (s.dev.rset (fld x 5 0)).counters.getD 1 0 + b2n win.isSome,
        (s.dev.rset (fld x 5 0)).counters.getD 2 0 + b2n (!win.isSome), (b.rset (fld x 5 0)).counters.getD 3 0] ∧
      OnlyRegs [] s.dev b) ∧
    (c.sv = true → c.steer = 2 → Runs (.crossingClassify tok ue) s fun b =>
      b.pkt tok = none ∧ b.reg Reg.CLS_RULE_DROP = counterAdd (s.dev.reg Reg.CLS_RULE_DROP) 1 ∧ OnlyRegs [Reg.CLS_RULE_DROP] s.dev b) ∧
    (c.sv = true → c.steer = 1 → (c.tv && s.dev.isRxRing c.ten c.ringF) = false → Runs (.crossingClassify tok ue) s fun b =>
      b.pkt tok = none ∧ b.reg Reg.CLS_NO_RING = counterAdd (s.dev.reg Reg.CLS_NO_RING) 1 ∧ OnlyRegs [Reg.CLS_NO_RING] s.dev b) ∧
    (c.sv = true → c.steer = 1 → (c.tv && s.dev.isRxRing c.ten c.ringF) = true → Runs (.crossingClassify tok ue) s fun b =>
      (∃ q, b.pkt tok = some q ∧ q.stage = (if c.hv then .handler c.handler else .classified) ∧ q.cls.ring = some c.ringF) ∧
      OnlyRegs [] s.dev b)) ∧
  (∀ (s : State) (tok : Nat) (rest : List Nat) (p : Packet), Alive s → s.dev.cls.reentryQ = tok :: rest → s.dev.pkt tok = some p →
    (∀ k ∈ s.dev.sq.pkts, k.2.stage = .arrived → k.2.port ≠ 17) →
    Runs .reentryAdmit s fun b =>
      b.pkt tok = some { p with stage := .arrived } ∧ b.cls = { s.dev.cls with reentryQ := rest } ∧ Agree [.square, .cls] s.dev b)

/-- Images, rule sets and rules, indirection tables, and the TCAM's upkeep. -/
def Obligations.CrossingCommands : Prop :=
  (∀ (s : State) (e : AdmEntry), AdmReady s → Priv e s → e.bufErr = none →
    (e.len ≤ 25104 → imgCheck s.dev.cls.chain (fitTo e.len e.buf) e.len = none → Completes (.clsLoad e) e 0x30 s fun b =>
      b.cls = { s.dev.cls with banks := s.dev.cls.banks.set (1 - s.dev.cls.active) (some (fitTo e.len e.buf)) } ∧ OnlyRegs [] s.dev b) ∧
    (∀ det, e.len ≤ 25104 → imgCheck s.dev.cls.chain (fitTo e.len e.buf) e.len = some det → Runs (.clsLoad e) s fun b =>
      AdmEnded s.dev b e 0x30 St.RANGE det ∧
      b.cls = { s.dev.cls with banks := s.dev.cls.banks.set (1 - s.dev.cls.active) none } ∧ OnlyRegs [] s.dev b) ∧
    (∀ img, s.dev.cls.banks.getD (1 - s.dev.cls.active) none = some img → Waits (.clsCommit e) e s fun b =>
      b.cls = { s.dev.cls with active := 1 - s.dev.cls.active, commit := s.dev.cls.commit ++ [e] } ∧ OnlyRegs [] s.dev b) ∧
    (s.dev.cls.banks.getD (1 - s.dev.cls.active) none = none → Runs (.clsCommit e) s fun b =>
      AdmEnded s.dev b e 0x31 St.STATE 0 ∧ b.cls = s.dev.cls ∧ OnlyRegs [] s.dev b) ∧
    (Completes (.clsRsetSet e) e 0x32 s fun b =>
      b.rset (fld e.d2 5 0) = { s.dev.rset (fld e.d2 5 0) with miss := e.d3, tie := bitOf e.d2 32 } ∧
      (∀ r, r ≠ fld e.d2 5 0 → b.rset r = s.dev.rset r) ∧ OnlyRegs [] s.dev b) ∧
    (s.dev.isLead (fld e.d2 17 0) = true → e.len = 2 * s.dev.keyBytes (fld e.d2 17 0) → Waits (.clsRuleWrite e) e s fun b =>
      TuePosts s.dev b (s.dev.ruleRecords e 0x33) ∧ b.cls = s.dev.cls ∧ OnlyRegs [] s.dev b) ∧
    (s.dev.isLead (fld e.d2 17 0) = true → Waits (.clsRuleClear e) e s fun b =>
      TuePosts s.dev b [{ op := 0x01, index := fld e.d2 17 0, poster := .adm e 0x34 0 0 true }] ∧ b.cls = s.dev.cls ∧ OnlyRegs [] s.dev b) ∧
    (s.dev.isLead (fld e.d2 17 0) = true → e.len = 2 * s.dev.keyBytes (fld e.d2 17 0) + 16 → s.dev.glb.tueQ = [] →
      chainWidth (s.dev.chain (fld e.d2 17 0 / 4096)) = 0 → Completes (.clsRuleRead e) e 0x35 s fun b =>
      Out.hostWrite (.pf e.pf) none e.d1.toNat (leBytes 20 (s.dev.tcam (fld e.d2 17 0)).data ++ leBytes 20 (s.dev.tcam (fld e.d2 17 0)).care ++
        leBytes 8 ((s.dev.tcam (fld e.d2 17 0)).prio + 256 * b2n (s.dev.tcam (fld e.d2 17 0)).v) ++
        leBytes 8 (s.dev.tcam (fld e.d2 17 0)).result.toNat) false ∈ b.out ∧ b.cls = s.dev.cls ∧ OnlyRegs [] s.dev b)) ∧
  (∀ (s : State) (e : AdmEntry) (rest : List AdmEntry), Alive s → s.dev.cls.commit = e :: rest → s.dev.glb.planes.ctlUp = true →
    s.dev.ring.taken = [{ e := e, priv := true }] →
    Runs .imageSwitchDone s fun b =>
      AdmEnded s.dev b e 0x31 0 0 ∧ b.ring.taken = [] ∧ b.cls = { s.dev.cls with commit := rest } ∧ OnlyRegs [] s.dev b) ∧
  (∀ (s : State) (e : AdmEntry), AdmReady s → ¬ Priv e s →
    (Runs (.clsCommit e) s fun b => AdmEnded s.dev b e 0x31 St.DENIED 3 ∧ b.cls = s.dev.cls ∧ OnlyRegs [] s.dev b) ∧
    (Runs (.clsRsetSet e) s fun b => AdmEnded s.dev b e 0x32 St.DENIED 3 ∧ b.cls = s.dev.cls ∧ OnlyRegs [] s.dev b)) ∧
  (∀ (s : State) (e : AdmEntry) (x : IndTab), AdmReady s → Owns e e.ten s → (s.dev.tenGet e.ten).st = 2 ∨ (s.dev.tenGet e.ten).st = 3 →
    (bitOf e.d2 28 = true → 9 ≤ x.log2 → x.log2 ≤ 12 → x.base % 2 ^ (x.log2 - 9) = 0 → x.base + 2 ^ (x.log2 - 9) ≤ 2048 →
      x = { log2 := fld e.d2 19 16, hprof := fld e.d2 26 24, base := fld e.d2 42 32, defRing := fld e.d3 8 0 } →
      (∀ o ∈ s.dev.tueAhead.cls.inds, o.1 ≠ e.ten → indOverlap o.2 x = false) →
      Waits (.clsIndCfg e) e s fun b =>
        TuePosts s.dev b [{ op := 0x30, table := 5, index := e.ten, payload := fitTo 64 (x.bytes true), poster := .adm e 0x36 0 0 true }] ∧
        b.cls = s.dev.cls ∧ OnlyRegs [] s.dev b) ∧
    (∀ n, n = fld e.d2 53 48 → 1 ≤ n → n ≤ 32 → e.len = 2 * n → kvFind e.ten s.dev.tueAhead.cls.inds = some x →
      fld e.d2 43 32 + n ≤ 2 ^ x.log2 → e.bufErr = none →
      Waits (.clsIndWrite e) e s fun b =>
        TuePosts s.dev b [{
            op := 0x20, table := 5, index := 512 * x.base + fld e.d2 43 32, count := n, payload := fitTo 64 e.buf,
            poster := .adm e 0x37 0 0 true }] ∧ b.cls = s.dev.cls ∧ OnlyRegs [] s.dev b)) ∧
  (∀ (s : State) (lead : Nat), Alive s → s.dev.cls.scrub < 262144 →
    lead = s.dev.leadBank (s.dev.cls.scrub / 4096) * 4096 + s.dev.cls.scrub % 4096 →
    (Runs (.tcamScrub false) s fun b => b.cls = { s.dev.cls with scrub := (s.dev.cls.scrub + 1) % 262144 } ∧ Agree [.cls] s.dev b) ∧
    (s.dev.regBit Reg.CLS_GSTAT 1 = false → Runs (.tcamScrub true) s fun b =>
      (b.tcam lead).v = false ∧ (∀ i, i ≠ lead → b.tcam i = s.dev.tcam i) ∧
      b.reg Reg.CLS_TCAM_PERR_CNT = counterAdd (s.dev.reg Reg.CLS_TCAM_PERR_CNT) 1 ∧ b.reg Reg.CLS_TCAM_PERR_IDX = packW [(lead, 0)] ∧
      b.regBit Reg.CLS_GSTAT 1 = true ∧
      OnlyRegs [Reg.CLS_TCAM_PERR_CNT, Reg.CLS_TCAM_PERR_IDX, Reg.CLS_GSTAT] s.dev b)) ∧
  (∀ (s : State) (pf : Nat) (v : Word) (new : List Word), Alive s → bitOf v 0 = true → s.dev.allowed pf Reg.TCAM_APPLY true = true →
    s.dev.gatedAt Reg.TCAM_APPLY = false → new = (List.range 64).map (fun b => chainMask (s.dev.reg (Reg.TCAM_CHAIN b))) →
    (s.dev.chainRefused new = false → Runs (.tcamApply pf v) s fun b => b.cls = { s.dev.cls with chain := new } ∧ OnlyRegs [] s.dev b) ∧
    (s.dev.chainRefused new = true → Runs (.tcamApply pf v) s fun b =>
      b.cls = s.dev.cls ∧ b.regBit Reg.CLS_GSTAT 0 = true ∧ OnlyRegs [Reg.CLS_GSTAT] s.dev b)) ∧
  (∀ (s : State) (pf : Nat) (v : Word), Alive s → s.dev.allowed pf Reg.CLS_HPROF_APPLY true = true → s.dev.gatedAt Reg.CLS_HPROF_APPLY = false →
    ((∀ h, h < 8 → bitOf v h = true → hprofRefused (s.dev.reg (Reg.CLS_HPROF_CFG h)) = false) → Runs (.clsHprofApply pf v) s fun b =>
      (∀ h, h < 8 → h < s.dev.cls.hprofs.length → b.cls.hprofs[h]? = (if bitOf v h then
        some {
            cfg := s.dev.reg (Reg.CLS_HPROF_CFG h),
            key := (List.range 13).flatMap (fun i => leBytes 4 (s.dev.regN (Reg.CLS_HPROF_KEY h i))) } else s.dev.cls.hprofs[h]?)) ∧
      OnlyRegs [] s.dev b) ∧
    (∀ h, h < 8 → bitOf v h = true → hprofRefused (s.dev.reg (Reg.CLS_HPROF_CFG h)) = true → Runs (.clsHprofApply pf v) s fun b =>
      b.cls = s.dev.cls ∧ b.regBit Reg.CLS_GSTAT 0 = true ∧ OnlyRegs [Reg.CLS_GSTAT] s.dev b)) ∧
  (∀ (s : State) (pf r : Nat) (v : Word), Alive s → r < 64 →
    (s.dev.allowed pf (Reg.CLS_RSET_SNAP r) false = true → s.dev.gatedAt (Reg.CLS_RSET_SNAP r) = false → (s.dev.rset r).reading = false →
      Runs (.clsRsetSnap pf r) s fun b =>
        b.rset r = { s.dev.rset r with
            bank := (s.dev.rset r).counters, counters := [0, 0, 0, 0], reading := true, snapSeq := ((s.dev.rset r).snapSeq + 1) % 65536 } ∧
        b.lastRead = BitVec.ofNat 64 (((s.dev.rset r).snapSeq + 1) % 65536) ∧ (∀ q, q ≠ r → b.rset q = s.dev.rset q) ∧ OnlyRegs [] s.dev b) ∧
    (s.dev.allowed pf (Reg.CLS_RSET_REL r) true = true → s.dev.gatedAt (Reg.CLS_RSET_REL r) = false → bitOf v 0 = true →
      Runs (.clsRsetRel pf r v) s fun b =>
        b.rset r = { s.dev.rset r with reading := false } ∧ (∀ q, q ≠ r → b.rset q = s.dev.rset q) ∧ OnlyRegs [] s.dev b))

/-! Forwarding (R226 to R261). -/

/-- Forwarding runs an action list: what the first word of an entry does with the frame. -/
def Obligations.Forwarding : Prop :=
  (∀ (s : State) (tok i x : Nat) (p : Packet) (h : Dword), Alive s → s.dev.pwr.stopP = false → s.dev.pkt tok = some p →
    p.stage = .classified → StartsList s.dev p i → h = (s.dev.action i).headD 0 → x = fld ((s.dev.action i).getD 1 0) 55 0 →
    (p.mayUse h = false → s.dev.hbm.poisoned ((s.dev.desc 3).base + 64 * i) 64 = false → Runs (.forwardFrame tok {}) s fun b =>
      b.pkt tok = none ∧ b.reg Reg.FWD_ACT_DENY = counterAdd (s.dev.reg Reg.FWD_ACT_DENY) 1 ∧ OnlyRegs [Reg.FWD_ACT_DENY] s.dev b) ∧
    (p.mayUse h = true → fld h 2 0 = 0 → bitOf h 48 = false → Runs (.forwardFrame tok {}) s fun b =>
      b.pkt tok = none ∧ b.reg Reg.FWD_NO_FATE = counterAdd (s.dev.reg Reg.FWD_NO_FATE) 1 ∧ OnlyRegs [Reg.FWD_NO_FATE] s.dev b ∧
      OnlyBytes 0 0 s.dev b) ∧
    (p.mayUse h = true → fld h 2 0 ≠ 0 →
      (fld ((s.dev.action i).getD 1 0) 63 56 = 0x01 → p.twin = none → p.ctx = none → Runs (.forwardFrame tok {}) s fun b =>
        (∃ q, b.pkt tok = some q ∧ q.stage = .port (x % 16) ∧ q.data = p.data ∧ q.tc = (if x / 2 ^ 11 % 2 = 1 then x / 256 % 8 else p.tc)) ∧
        b.netPort (x % 16) = { s.dev.netPort (x % 16) with txq := (s.dev.netPort (x % 16)).txq ++ [tok] } ∧
        (∀ r, r ≠ x % 16 → b.netPort r = s.dev.netPort r) ∧ Agree [.square, .port] s.dev b) ∧
      (∀ t, fld ((s.dev.action i).getD 1 0) 63 56 = 0x02 → x / 2 ^ 28 % 16 = 2 → t = x / 512 % 4096 →
        actDev h = true ∨ t = actOwner h → x / 2 ^ 21 % 2 = 0 → s.dev.ctxTake t 0 p.data = none → s.dev.isRxRing t (x % 512) = true →
        Runs (.forwardFrame tok {}) s fun b =>
          (∃ q, b.pkt tok = some q ∧ q.stage = .toRing t (x % 512) 0 false ∧ q.data = p.data ∧ q.ten = t ∧ q.tenV = true) ∧
          Agree [.square] s.dev b) ∧
      (fld ((s.dev.action i).getD 1 0) 63 56 = 0x02 → x / 2 ^ 28 % 16 = 2 → actDev h = false → x / 512 % 4096 ≠ actOwner h →
        Runs (.forwardFrame tok {}) s fun b =>
          b.pkt tok = none ∧ b.reg Reg.FWD_ACT_DENY = counterAdd (s.dev.reg Reg.FWD_ACT_DENY) 1 ∧ OnlyRegs [Reg.FWD_ACT_DENY] s.dev b) ∧
      (fld ((s.dev.action i).getD 1 0) 63 56 = 0x03 → Runs (.forwardFrame tok {}) s fun b =>
        (∃ q, b.pkt tok = some q ∧ q.stage = .handler (x % 65536) ∧ q.data = p.data) ∧ Agree [.square] s.dev b) ∧
      (fld ((s.dev.action i).getD 1 0) 63 56 = 0x04 → Runs (.forwardFrame tok {}) s fun b =>
        b.pkt tok = none ∧ b.reg Reg.FWD_ACT_DROP = counterAdd (s.dev.reg Reg.FWD_ACT_DROP) 1 ∧ OnlyRegs [Reg.FWD_ACT_DROP] s.dev b ∧
        OnlyBytes 0 0 s.dev b) ∧
      (fld ((s.dev.action i).getD 1 0) 63 56 = 0x0A → s.dev.cls.reentryQ.length < 4096 → Runs (.forwardFrame tok {}) s fun b =>
        (∃ q, b.pkt tok = some q ∧ q.stage = .reentry ∧ q.cls = { source := 0x60 } ∧ q.data = p.data) ∧
        b.cls = { s.dev.cls with reentryQ := s.dev.cls.reentryQ ++ [tok] } ∧ Agree [.square, .cls] s.dev b) ∧
      (∀ o, fld ((s.dev.action i).getD 1 0) 63 56 = 0x12 → p.slot 3 = some o → ipVer p.data o = 4 → beAt p.data (o + 8) 1 ≤ 1 →
        x / 2 ^ 17 % 2 = 0 → Runs (.forwardFrame tok {}) s fun b =>
        b.pkt tok = none ∧ b.reg Reg.FWD_TTL_DROP = counterAdd (s.dev.reg Reg.FWD_TTL_DROP) 1 ∧ OnlyRegs [Reg.FWD_TTL_DROP] s.dev b) ∧
      (∀ c k, fld ((s.dev.action i).getD 1 0) 63 56 = 0x1B → kvFind (x % 2 ^ 20) s.dev.cry.ctxs = some c → p.tenV = true → c.ten = p.ten →
        k = decide (x / 2 ^ 20 % 2 = 1) → (k = true → c.kind = 0x10) → (k = false → c.kind = 0x11 ∨ c.kind = 0x13 ∨ c.kind = 0x15) →
        Runs (.forwardFrame tok {}) s fun b =>
          (∃ q f, b.pkt tok = some q ∧ q.stage = .crypt (x % 2 ^ 20) k f ∧ q.data = p.data ∧ f.bytes = p.data.length) ∧ Agree [.square] s.dev b))) ∧
  (∀ (s : State) (tok i x y o : Nat) (p : Packet) (h : Dword), Alive s → s.dev.pwr.stopP = false → s.dev.pkt tok = some p →
    p.stage = .classified → StartsList s.dev p i → h = (s.dev.action i).headD 0 → p.mayUse h = true → 2 ≤ fld h 2 0 → p.twin = none →
    p.ctx = none → x = fld ((s.dev.action i).getD 1 0) 55 0 → y = fld ((s.dev.action i).getD 2 0) 55 0 →
    fld ((s.dev.action i).getD 2 0) 63 56 = 0x01 →
    (fld ((s.dev.action i).getD 1 0) 63 56 = 0x12 → p.slot 3 = some o → ipVer p.data o = 6 → 2 ≤ beAt p.data (o + 7) 1 →
      Runs (.forwardFrame tok {}) s fun b =>
        (∃ q, b.pkt tok = some q ∧ q.stage = .port (y % 16) ∧ q.data = patch p.data (o + 7) (leBytes 1 (beAt p.data (o + 7) 1 - 1))) ∧
        OnlyRegs [] s.dev b ∧ OnlyBytes 0 0 s.dev b) ∧
    (fld ((s.dev.action i).getD 1 0) 63 56 = 0x10 → p.slot 1 = some o → x / 2 ^ 48 % 2 = 0 → Runs (.forwardFrame tok {}) s fun b =>
      (∃ q, b.pkt tok = some q ∧ q.stage = .port (y % 16) ∧ q.data = patch p.data o (beBytes 6 (x % 2 ^ 48))) ∧
      OnlyRegs [] s.dev b ∧ OnlyBytes 0 0 s.dev b) ∧
    (fld ((s.dev.action i).getD 1 0) 63 56 = 0x16 → s.dev.ctrOwned (x % 2 ^ 24) (if p.tenV then some p.ten else none) = true →
      s.dev.ctrAddr (x % 2 ^ 24) + 16 ≤ (s.dev.desc 3).base →
      Runs (.forwardFrame tok {}) s fun b =>
        (∃ q, b.pkt tok = some q ∧ q.stage = .port (y % 16) ∧ q.data = p.data) ∧
        b.hbm.bytes (s.dev.ctrAddr (x % 2 ^ 24)) 16 = leBytes 8 (leAt (s.dev.hbm.bytes (s.dev.ctrAddr (x % 2 ^ 24)) 16) 0 8 + 1) ++
          leBytes 8 (leAt (s.dev.hbm.bytes (s.dev.ctrAddr (x % 2 ^ 24)) 16) 8 8 + p.data.length) ∧
        OnlyBytes (s.dev.ctrAddr (x % 2 ^ 24)) 16 s.dev b ∧ OnlyRegs [] s.dev b)) ∧
  (∀ (s : State) (tok : Nat) (p : Packet), Alive s → s.dev.pwr.stopP = false → s.dev.pkt tok = some p → p.stage = .classified →
    p.cls.av = false → p.tenV = false →
    Runs (.forwardFrame tok {}) s fun b =>
      b.pkt tok = none ∧ b.reg Reg.FWD_NO_TEN = counterAdd (s.dev.reg Reg.FWD_NO_TEN) 1 ∧ OnlyRegs [Reg.FWD_NO_TEN] s.dev b)

/-- The tables of forwarding change by themselves: learning, conntrack commits, ageing, the sweep, a rehash that ends. -/
def Obligations.TableEngines : Prop :=
  (∀ (s : State) (l : Learn) (rest : List Learn) (br : Bridge) (key : List Byte), Alive s → s.dev.fwd.learns = l :: rest →
    kvFind l.bridge s.dev.fwd.bridges = some br → key = macKey br.ten l.bridge l.mac →
    (∀ a, s.dev.find 2 key = none → (s.dev.desc 2).v = true → s.dev.learned l.bridge < br.limit → s.dev.freeSlot (s.dev.desc 2) key = some a →
      s.dev.lineIn 2 a = true → Runs (.learnInsert 0) s fun b =>
        LineIs s.dev b a (mkLine key l.dest 0 false 0 s.dev.fwd.now) ∧ b.fwd.learns = rest ∧ OnlyRegs [] s.dev b) ∧
    (∀ fails, s.dev.find 2 key = none → (s.dev.desc 2).v = true → br.limit ≤ s.dev.learned l.bridge → Runs (.learnInsert fails) s fun b =>
        b.fwd = { s.dev.fwd with learns := rest } ∧ b.reg Reg.FWD_LEARN_DROP = counterAdd (s.dev.reg Reg.FWD_LEARN_DROP) 1 ∧
        b.reg Reg.FWD_LEARN_LIMIT = counterAdd (s.dev.reg Reg.FWD_LEARN_LIMIT) 1 ∧
        OnlyRegs [Reg.FWD_LEARN_DROP, Reg.FWD_LEARN_LIMIT] s.dev b ∧ OnlyBytes 0 0 s.dev b) ∧
    (∀ a, s.dev.find 2 key = some a → lnD5 (s.dev.line a) % 2 ^ 32 ≠ l.dest → lnStatic (s.dev.line a) = false → s.dev.lineIn 2 a = true →
      Runs (.learnInsert 0) s fun b =>
        LineIs s.dev b a (mkLine key l.dest 0 false 0 s.dev.fwd.now) ∧ b.fwd.learns = rest ∧
        b.reg Reg.FWD_MOVES = counterAdd (s.dev.reg Reg.FWD_MOVES) 1 ∧ OnlyRegs [Reg.FWD_MOVES] s.dev b)) ∧
  (∀ (s : State) (c : Commit) (rest : List Commit) (p : Packet) (f : Fwd), Alive s → s.dev.fwd.commits = c :: rest →
    s.dev.pkt c.tok = some p → p.stage = .forward f → f.waits = true →
    (∀ r o, (s.dev.desc 6).v = true → s.dev.find 6 (lnKey c.orig) = none → s.dev.find 6 (lnKey c.reply) = none →
      s.dev.freeSlot (s.dev.desc 6) (lnKey c.reply) = some r →
      ((s.dev.desc 6).places (lnKey c.orig)).find? (fun a => !lnV (s.dev.line a) && decide (a ≠ r)) = some o →
      s.dev.lineIn 6 r = true → s.dev.lineIn 6 o = true →
      Runs .ctCommitInsert s fun b =>
        (∀ i, i < 64 → b.hbm.byte (r + i) = (fitTo 64 (patch c.reply 48 (leBytes 8 o))).getD i 0#8) ∧
        (∀ i, i < 64 → b.hbm.byte (o + i) = (fitTo 64 (patch c.orig 48 (leBytes 8 r))).getD i 0#8) ∧
        (∀ y, (y < r ∨ r + 64 ≤ y) → (y < o ∨ o + 64 ≤ y) → b.hbm.byte y = s.dev.hbm.byte y) ∧ b.fwd.commits = rest ∧
        b.pkt c.tok = some { p with stage := .forward { f with waits := false, nat := none } } ∧ OnlyRegs [] s.dev b) ∧
    ((s.dev.desc 6).v = false → f.nat.isSome = true → Runs .ctCommitInsert s fun b =>
      b.pkt c.tok = none ∧ b.fwd.commits = rest ∧ OnlyRegs [] s.dev b ∧ OnlyBytes 0 0 s.dev b)) ∧
  (∀ s : State, Alive s → Runs .ageTick s fun b => b.fwd = { s.dev.fwd with now := (s.dev.fwd.now + 1) % 65536 } ∧ Agree [.fwd] s.dev b) ∧
  (∀ (s : State) (bk : Nat), Alive s → (s.dev.desc 1).v = true → s.dev.regBit (Reg.FWD_AGE_CFG 0) 31 = true →
    bk = s.dev.fwd.sweep.getD 0 0 % 2 ^ (s.dev.desc 1).log2b →
    ((∀ a ∈ (s.dev.desc 1).slots bk, lnV (s.dev.line a) = false) → Runs (.sweepVisit 0) s fun b =>
      b.fwd.sweep = s.dev.fwd.sweep.set 0 (if bk + 1 = 2 ^ (s.dev.desc 1).log2b then 0 else bk + 1) ∧ OnlyRegs [] s.dev b ∧
      OnlyBytes 0 0 s.dev b) ∧
    (∀ a, a ∈ (s.dev.desc 1).slots bk → (∀ x ∈ (s.dev.desc 1).slots bk, x ≠ a → lnV (s.dev.line x) = false) → lnV (s.dev.line a) = true →
      s.dev.lineIn 1 a = true → s.dev.fwd.stamp.getD 0 false = false → lnStatic (s.dev.line a) = false →
      s.dev.ageLimit 0 (lnClass (s.dev.line a)) ≤ (s.dev.fwd.now + 65536 - lnTs (s.dev.line a)) % 65536 →
      Runs (.sweepVisit 0) s fun b =>
        LineIs s.dev b a zeroLine ∧ b.reg (Reg.FWD_AGED 0) = counterAdd (s.dev.reg (Reg.FWD_AGED 0)) 1 ∧
        OnlyRegs [Reg.FWD_AGED 0] s.dev b)) ∧
  (∀ (s : State) (t : Nat) (r : Rehash), Alive s → t = 1 ∨ t = 2 → s.dev.fwd.rehash.find? (fun r => decide (r.table = t)) = some r →
    s.dev.glb.tueQ = [] → r.log = [] →
    Runs (.rehashDone t) s fun b =>
      b.desc t = TblDesc.ofBytes r.shadow.bytes ∧ b.fwd.rehash = s.dev.fwd.rehash.filter (fun x => decide (x.table ≠ t)) ∧
      (∀ k, k ≠ t → b.desc k = s.dev.desc k) ∧ OnlyRegs [] s.dev b ∧
      (s.dev.glb.planes.ctlUp = true → s.dev.ring.taken = [{ e := r.e, priv := true }] → AdmEnded s.dev b r.e 0x39 0 0))

/-- Admin commands over flows, MACs, actions, counters, bridges, NAT pools and tenancies. -/
def Obligations.ForwardingCommands : Prop :=
  (∀ (s : State) (e : AdmEntry) (t : Nat), AdmReady s → Priv e s → t = fld e.d2 7 0 →
    (t = 1 ∨ t = 2 ∨ t = 3 ∨ t = 4 ∨ t = 6 → e.len = 64 → e.bufErr = none → descBad t (fitTo 64 e.buf) = none →
      (s.dev.tueAhead.desc t).v = false → Waits (.fwdTblCfg e) e s fun b =>
        TuePosts s.dev b [{ op := 0x30, table := t, payload := fitTo 64 e.buf, poster := .adm e 0x38 0 0 true }] ∧ b.fwd = s.dev.fwd ∧
        OnlyRegs [] s.dev b ∧ OnlyBytes 0 0 s.dev b) ∧
    (∀ lg base, t = 1 ∨ t = 2 ∨ t = 6 → lg = fld e.d4 7 0 → base = e.d3.toNat → base % 256 = 0 → base + 2 ^ lg * 256 ≤ hbmReserved →
      10 ≤ lg → lg ≤ (if t = 1 then 25 else if t = 2 then 18 else 23) → (s.dev.desc t).v = true → (∀ r ∈ s.dev.fwd.rehash, r.table ≠ t) →
      (s.dev.desc t).base + (s.dev.desc t).extent t ≤ base ∨ base + 2 ^ lg * 256 ≤ (s.dev.desc t).base → s.dev.tblLines (s.dev.desc t) = [] →
      Waits (.fwdRehash e) e s fun b =>
        (∃ x, b.fwd.rehash = s.dev.fwd.rehash ++ [{ table := t, e := e, shadow := x }] ∧ x.base = base ∧ x.log2b = lg ∧ x.v = true) ∧
        b.fwd.desc = s.dev.fwd.desc ∧ (∀ i, i < 2 ^ lg * 256 → b.hbm.byte (base + i) = 0#8) ∧ OnlyBytes base (2 ^ lg * 256) s.dev b ∧
        OnlyRegs [] s.dev b)) ∧
  (∀ (s : State) (e : AdmEntry) (line : List Byte) (a : Nat), AdmReady s → Owns e e.ten s → s.dev.fwd.rehash = [] →
    (e.len = 64 → (s.dev.desc 1).v = true → e.bufErr = none → lnType e.buf = 1 ∨ lnType e.buf = 2 → lnTen e.buf = e.ten → e.buf.length = 64 →
      lnD5 e.buf / 2 ^ 17 % 2 = 0 →
      line = mkLine (lnKey e.buf) (lnD5 e.buf) (lnD6 e.buf) (lnStatic e.buf) (lnClass e.buf) s.dev.fwd.now →
      (s.dev.tueAhead.findIn (s.dev.tueAhead.desc 1) (lnKey line) = none →
        s.dev.tueAhead.freeSlot (s.dev.tueAhead.desc 1) (lnKey line) = some a → Waits (.fwdFlowAdd e) e s fun b =>
        TuePosts s.dev b [{
            op := 0x11, table := 1, index := a, count := 7, cmp := lnD7 (s.dev.tueAhead.line a) &&& casMask, cmask := casMask, payload := line,
            poster := .adm e 0x3A 0 0 true }] ∧ OnlyRegs [] s.dev b ∧ OnlyBytes 0 0 s.dev b) ∧
      (s.dev.tueAhead.findIn (s.dev.tueAhead.desc 1) (lnKey line) = some a → bitOf e.d2 32 = false → Runs (.fwdFlowAdd e) s fun b =>
        AdmEnded s.dev b e 0x3A St.DENIED 1 ∧ b.glb.tueQ = s.dev.glb.tueQ ∧ OnlyRegs [] s.dev b)) ∧
    (∀ br, (s.dev.desc 2).v = true → kvFind (fld e.d2 45 32) s.dev.fwd.bridges = some br → br.ten = e.ten →
      fld e.d4 31 0 / 2 ^ 28 ≠ 2 ∨ fld e.d4 31 0 / 512 % 4096 = e.ten →
      line = mkLine (macKey e.ten (fld e.d2 45 32) (fld e.d3 47 0)) (fld e.d4 31 0) 0 (bitOf e.d4 32) 0 s.dev.fwd.now →
      s.dev.tueAhead.findIn (s.dev.tueAhead.desc 2) (lnKey line) = none →
      s.dev.tueAhead.freeSlot (s.dev.tueAhead.desc 2) (lnKey line) = some a → Waits (.fwdMacAdd e) e s fun b =>
        TuePosts s.dev b [{
            op := 0x11, table := 2, index := a, count := 7, cmp := lnD7 (s.dev.tueAhead.line a) &&& casMask, cmask := casMask, payload := line,
            poster := .adm e 0x3E 0 0 true }] ∧ OnlyRegs [] s.dev b ∧ OnlyBytes 0 0 s.dev b) ∧
    (∀ t, t = fld e.d2 39 32 → (t = 1 ∧ (lnType e.buf = 1 ∨ lnType e.buf = 2)) ∨ (t = 2 ∧ lnType e.buf = 4) ∨
        (t = 6 ∧ (lnType e.buf = 5 ∨ lnType e.buf = 6)) → (s.dev.desc t).v = true → e.bufErr = none → lnTen e.buf = e.ten → e.buf.length = 40 →
      (e.len = 40 → s.dev.tueAhead.findIn (s.dev.tueAhead.desc t) e.buf = none → Runs (.fwdFlowDel e) s fun b =>
        AdmEnded s.dev b e 0x3B 0 1 ∧ b.glb.tueQ = s.dev.glb.tueQ ∧ OnlyRegs [] s.dev b) ∧
      (e.len = 40 → s.dev.tueAhead.findIn (s.dev.tueAhead.desc t) e.buf = some a → Waits (.fwdFlowDel e) e s fun b =>
        TuePosts s.dev b [{ op := 0x10, table := t, index := a, payload := zeroLine, poster := .adm e 0x3B 0 0 true }] ∧ OnlyRegs [] s.dev b) ∧
      (e.len = 64 → s.dev.tueAhead.find t e.buf = none → Runs (.fwdFlowRead e) s fun b =>
        AdmEnded s.dev b e 0x3C 0 1 ∧ OnlyRegs [] s.dev b) ∧
      (e.len = 64 → s.dev.tueAhead.find t e.buf = some a → Completes (.fwdFlowRead e) e 0x3C s fun b =>
        Out.hostWrite (.pf e.pf) none e.d1.toNat (s.dev.tueAhead.line a) false ∈ b.out ∧ b.fwd = s.dev.fwd ∧ OnlyRegs [] s.dev b)) ∧
    (1 ≤ fld e.d4 20 0 → fld e.d4 20 0 ≤ 1048576 → (s.dev.desc 2).v = true → kvFind (fld e.d2 45 32) s.dev.fwd.bridges = none →
      Completes (.fwdBridgeCfg e) e 0x3D s fun b =>
        kvFind (fld e.d2 45 32) b.fwd.bridges = some {
            ten := e.ten, en := bitOf e.d3 32, learn := bitOf e.d3 33, limit := fld e.d4 20 0, flood := fld e.d3 16 0 } ∧
        (∀ k, k ≠ fld e.d2 45 32 → kvFind k b.fwd.bridges = kvFind k s.dev.fwd.bridges) ∧ OnlyRegs [] s.dev b) ∧
    (fld e.d3 31 0 ≤ fld e.d3 63 32 → fld e.d4 15 0 ≤ fld e.d4 31 16 → (s.dev.desc 6).v = true →
      kvFind (fld e.d2 43 32) s.dev.fwd.pools = none → Completes (.fwdNatPool e) e 0x40 s fun b =>
        kvFind (fld e.d2 43 32) b.fwd.pools = some {
            ten := e.ten, addrLo := fld e.d3 31 0, addrHi := fld e.d3 63 32, portLo := fld e.d4 15 0, portHi := fld e.d4 31 16,
            v := bitOf e.d4 32 } ∧ (∀ k, k ≠ fld e.d2 43 32 → kvFind k b.fwd.pools = kvFind k s.dev.fwd.pools) ∧ OnlyRegs [] s.dev b) ∧
    ((s.dev.desc 1).v = true → Completes (.fwdTenCfg e) e 0x41 s fun b =>
      kvFind e.ten b.fwd.tens = some { miss := fld e.d3 16 0, inner := bitOf e.d3 17, flowEn := bitOf e.d3 18, mtuExc := bitOf e.d3 19 } ∧
      (∀ k, k ≠ e.ten → kvFind k b.fwd.tens = kvFind k s.dev.fwd.tens) ∧ OnlyRegs [] s.dev b)) ∧
  (∀ (s : State) (e : AdmEntry) (i : Nat) (h : Dword), AdmReady s → Owns e e.ten s → bitOf e.d2 12 = false → i = fld e.d2 48 32 →
    i < 131072 → e.len = 64 → (s.dev.desc 3).v = true → e.bufErr = none → s.dev.tueAhead.actOwnerOf i = none ∨ s.dev.tueAhead.actOwnerOf i = some (some e.ten) →
    h = BitVec.ofNat 64 (leAt e.buf 0 8) → actTmpl h = true →
    Waits (.fwdActWrite e) e s fun b =>
      TuePosts s.dev b [{
          op := 0x10, table := 3, index := (s.dev.desc 3).base + 64 * i,
          payload := patch (slice e.buf 0 64) 0 (leBytes 8 (leAt (slice e.buf 0 64) 0 8 / 2 ^ 62 * 2 ^ 62 + e.ten * 2 ^ 49 + leAt (slice e.buf 0 64) 0 8 % 2 ^ 49)),
          poster := .adm e 0x3F 0 0 true }] ∧ OnlyRegs [] s.dev b ∧ OnlyBytes 0 0 s.dev b) ∧
  (∀ (s : State) (e : AdmEntry) (c : Nat), AdmReady s → Owns e e.ten s → bitOf e.d2 12 = false → c = fld e.d2 55 32 → (s.dev.desc 4).v = true →
    c < 2 ^ (s.dev.desc 4).log2b →
    (s.dev.tueAhead.cntMine e = true →
      (Completes (.fwdCntRead e) e 0x42 s fun b =>
        Out.hostWrite (.pf e.pf) none e.d1.toNat (s.dev.hbm.bytes (s.dev.ctrAddr c) 16) false ∈ b.out ∧ OnlyRegs [] s.dev b ∧
        OnlyBytes 0 0 s.dev b) ∧
      (Completes (.fwdCntReadClear e) e 0x42 s fun b =>
        Out.hostWrite (.pf e.pf) none e.d1.toNat (s.dev.hbm.bytes (s.dev.ctrAddr c) 16) false ∈ b.out ∧
        b.hbm.bytes (s.dev.ctrAddr c) 16 = List.replicate 16 0#8 ∧ OnlyBytes (s.dev.ctrAddr c) 16 s.dev b ∧ OnlyRegs [] s.dev b) ∧
      (Waits (.fwdCntRelease e) e s fun b =>
        TuePosts s.dev b [{ s.dev.tueAhead.cntRecord c 0 with poster := .adm e 0x42 0 0 true }] ∧ OnlyRegs [] s.dev b ∧
        OnlyBytes 0 0 s.dev b)) ∧
    (s.dev.tueAhead.cntMine e = false →
      (Runs (.fwdCntRead e) s fun b => AdmEnded s.dev b e 0x42 St.DENIED 2 ∧ OnlyRegs [] s.dev b ∧ OnlyBytes 0 0 s.dev b)) ∧
    (s.dev.tueAhead.ctrV c = false → Waits (.fwdCntClaim e) e s fun b =>
      TuePosts s.dev b [{ s.dev.tueAhead.cntRecord c (packNat [(1, 15), (0, 12), (e.ten, 0)]) with poster := .adm e 0x42 0 0 true }] ∧
      b.hbm.bytes (s.dev.ctrAddr c) 16 = List.replicate 16 0#8 ∧ OnlyBytes (s.dev.ctrAddr c) 16 s.dev b ∧ OnlyRegs [] s.dev b)) ∧
  (∀ (s : State) (e : AdmEntry) (rs : List TueRec), AdmReady s → Owns e e.ten s → fld e.d2 35 32 = 1 → (s.dev.desc 1).v = true →
    rs = (((s.dev.tueAhead.tblLines (s.dev.tueAhead.desc 1)).map s.dev.tueAhead.line).filter
      (fun l => decide (lnTen l = e.ten ∧ lnType l ≠ 3))).flatMap (fun l => s.dev.deleteRecords 1 (lnKey l)) →
    (rs = [] → Completes (.fwdFlush e) e 0x43 s fun b => b.glb.tueQ = s.dev.glb.tueQ ∧ OnlyRegs [] s.dev b) ∧
    (rs ≠ [] → Waits (.fwdFlush e) e s fun b =>
      TuePosts s.dev b (rs.zipIdx.map (fun x => { x.1 with poster := .adm e 0x43 0 0 (decide (x.2 + 1 = rs.length)) })) ∧
      OnlyRegs [] s.dev b ∧ OnlyBytes 0 0 s.dev b))

/-! Encryption and keys (R262 to R289). -/

/-- Key slots: put, generated, derived, exported, zeroised; MACsec; entropy. -/
def Obligations.KeysAndEntropy : Prop :=
  (∀ (s : State) (e : AdmEntry) (n ty us : Nat), AdmReady s → Owns e e.ten s → bitOf e.d2 12 = false → n = AdmEntry_slot e →
    ty = fld e.d3 7 0 → us = fld e.d3 15 8 → (s.dev.tenGet e.ten).st = 2 ∨ (s.dev.tenGet e.ten).st = 3 → s.dev.slot n = none →
    s.dev.keysOf e.ten < (s.dev.tenGet e.ten).keys → usageMask ty ≠ 0 → within us (usageMask ty) = true → us / 64 % 2 = 0 →
    (bitOf e.d3 52 = false → keyLenOk ty e.len = true → e.bufErr = none → Completes (.cryKeyPut e) e 0x48 s fun b =>
      b.slot n = some { dev := false, ten := e.ten, type := ty, usage := us, origin := 1, material := fitTo e.len e.buf } ∧
      (∀ k, k ≠ n → b.slot k = s.dev.slot k) ∧ b.cry.ctxs = s.dev.cry.ctxs ∧ OnlyRegs [] s.dev b) ∧
    (∀ w k, bitOf e.d3 52 = true → w = fld e.d3 51 32 → s.dev.slot w = some k → k.dev = false → k.ten = e.ten → k.may Key.WRAP = true →
      s.dev.slotBad w = false → 8 ≤ e.len → keyLenOk ty (e.len - 8) = true → e.bufErr = none →
      (∀ m, keyUnwrap k.material (fitTo e.len e.buf) = some m → Completes (.cryKeyPut e) e 0x48 s fun b =>
        b.slot n = some { dev := false, ten := e.ten, type := ty, usage := us, origin := 1, material := m } ∧
        (∀ k, k ≠ n → b.slot k = s.dev.slot k) ∧ OnlyRegs [] s.dev b) ∧
      (keyUnwrap k.material (fitTo e.len e.buf) = none → Runs (.cryKeyPut e) s fun b =>
        AdmEnded s.dev b e 0x48 St.INTEGRITY 0x12 ∧ b.cry = s.dev.cry ∧ OnlyRegs [] s.dev b)) ∧
    (1 ≤ ty ∧ ty ≤ 4 ∨ ty = 11 → keyLenOk ty (genLen e) = true →
      (s.dev.noEntropy = false → Completes (.cryKeyGen e) e 0x49 s fun b =>
        (∃ m, m.length = genLen e ∧
          b.slot n = some { dev := false, ten := e.ten, type := ty, usage := us, origin := 2, material := m }) ∧
        (∀ k, k ≠ n → b.slot k = s.dev.slot k) ∧ OnlyRegs [] s.dev b) ∧
      (s.dev.noEntropy = true → Runs (.cryKeyGen e) s fun b =>
        AdmEnded s.dev b e 0x49 St.INTEGRITY 0x20 ∧ b.cry = s.dev.cry ∧ OnlyRegs [] s.dev b) ∧
      (∀ w k sl, w = fld e.d3 51 32 → s.dev.slot w = some k → k.dev = false → k.ten = e.ten → k.may Key.DERIVE = true →
        s.dev.slotBad w = false → 2 ≤ e.len → e.len ≤ 1024 → e.bufErr = none → sl = leAt (fitTo e.len e.buf) 0 2 → 2 + sl ≤ e.len →
        Completes (.cryKeyDerive e) e 0x4A s fun b =>
          b.slot n = some {
              dev := false, ten := e.ten, type := ty, usage := us, origin := 3,
              material := hkdf (fld e.d4 1 0) k.material (slice (fitTo e.len e.buf) 2 sl) ((fitTo e.len e.buf).drop (2 + sl)) (genLen e) } ∧
          (∀ k, k ≠ n → b.slot k = s.dev.slot k) ∧ OnlyRegs [] s.dev b))) ∧
  (∀ (s : State) (e : AdmEntry) (n : Nat), AdmReady s → Owns e e.ten s → bitOf e.d2 12 = false → n = AdmEntry_slot e →
    (s.dev.tenGet e.ten).st = 2 ∨ (s.dev.tenGet e.ten).st = 3 →
    (∀ k w x, s.dev.slot n = some k → k.dev = false → k.ten = e.ten → k.may Key.EXPORT = true → w = fld e.d3 51 32 →
      s.dev.slot w = some x → x.dev = false → x.ten = e.ten → x.may Key.WRAP = true → s.dev.slotBad n = false → s.dev.slotBad w = false →
      k.material.length + 8 ≤ e.len → Completes (.cryKeyExport e) e 0x4B s fun b =>
        Out.hostWrite (.pf e.pf) none e.d1.toNat (keyWrap x.material k.material) false ∈ b.out ∧ b.cry = s.dev.cry ∧ OnlyRegs [] s.dev b) ∧
    (∀ k, s.dev.slot n = some k → k.dev = false → k.ten = e.ten → k.may Key.EXPORT = false → Runs (.cryKeyExport e) s fun b =>
        AdmEnded s.dev b e 0x4B St.DENIED 4 ∧ b.cry = s.dev.cry ∧ OnlyRegs [] s.dev b) ∧
    (s.dev.slot n = none → Runs (.cryKeyZero e) s fun b => AdmEnded s.dev b e 0x4C 0 1 ∧ b.cry = s.dev.cry ∧ OnlyRegs [] s.dev b) ∧
    (∀ k, s.dev.slot n = some k → k.dev = false → k.ten = e.ten → (∀ c ∈ s.dev.cry.ctxs, c.2.names n = false) →
      (∀ w ∈ s.dev.arc.works, w.names n = false) → Completes (.cryKeyZero e) e 0x4C s fun b =>
        b.slot n = none ∧ (∀ j, j ≠ n → b.slot j = s.dev.slot j) ∧ b.cry.ctxs = s.dev.cry.ctxs ∧
        b.hbm.bytes (slotAddr n) 128 = List.replicate 128 0#8 ∧ OnlyBytes (slotAddr n) 128 s.dev b ∧ OnlyRegs [] s.dev b) ∧
    (∀ k c x, s.dev.slot n = some k → k.dev = false → k.ten = e.ten → (c, x) ∈ s.dev.cry.ctxs → x.names n = true → bitOf e.d3 0 = false →
      Runs (.cryKeyZero e) s fun b => AdmEnded s.dev b e 0x4C St.STATE 2 ∧ b.cry = s.dev.cry ∧ OnlyRegs [] s.dev b)) ∧
  (∀ (s : State) (e : AdmEntry), AdmReady s → Priv e s →
    (fld e.d2 35 34 ≠ 3 → Completes (.cryMacsecCfg e) e 0x46 s fun b =>
      b.secY (fld e.d2 3 0) = { s.dev.secY (fld e.d2 3 0) with cfg := fld e.d2 41 32, window := fld e.d3 31 0 } ∧
      (∀ p, p ≠ fld e.d2 3 0 → b.secY p = s.dev.secY p) ∧ OnlyRegs [] s.dev b) ∧
    (∀ p sc an n k, e.len = 64 → e.buf.length = 64 → e.bufErr = none → p = leAt e.buf 0 1 → sc = leAt e.buf 1 1 → an = leAt e.buf 2 1 →
      n = leAt e.buf 4 4 % 2 ^ 20 → p ≤ 15 → sc ≤ 32 → an ≤ 3 → leAt e.buf 3 1 % 2 = 1 → s.dev.slot n = some k → k.dev = true →
      k.may Key.TRAFFIC = true → k.type = 2 → s.dev.slotBad n = false → Completes (.cryMacsecSa e) e 0x47 s fun b =>
        b.secY p = { s.dev.secY p with
            sas := kvSet {} (4 * sc + an) {
                en := true, keySlot := n, sci := beAt e.buf 8 8, ssci := leAt e.buf 16 4, salt := slice e.buf 20 12, pn := leAt e.buf 32 8 } (s.dev.secY p).sas } ∧
        (∀ q, q ≠ p → b.secY q = s.dev.secY q) ∧ OnlyRegs [] s.dev b)) ∧
  (∀ (s : State) (rct apt : Bool) (pf : Nat), Alive s → (rct || apt) = true → pf = s.dev.regFld Reg.CRY_EVT_CFG 3 0 →
    Runs (.rngHealthFail rct apt) s fun b =>
      b.cry = { s.dev.cry with failed := true, running := false, rct := s.dev.cry.rct || rct, apt := s.dev.cry.apt || apt, drbg := 0 } ∧
      b.reg Reg.CRY_RNG_FAIL_CNT = counterAdd (s.dev.reg Reg.CRY_RNG_FAIL_CNT) 1 ∧ b.regBit Reg.CRY_GSTAT 1 = true ∧
      PfTold s.dev b pf 0x120 0 ∧ OnlyRegs [Reg.CRY_RNG_FAIL_CNT, Reg.CRY_GSTAT, Reg.RING_EVT_LOST pf] s.dev b) ∧
  (∀ s : State, Alive s → s.dev.cry.running = true →
    Runs .drbgReseed s fun b => b.cry = { s.dev.cry with drbg := 0 } ∧ Agree [.cry] s.dev b) ∧
  (∀ (s : State) (pf : Nat) (v : Word) (pass : Bool), Alive s → bitOf v 0 = true → s.dev.allowed pf Reg.CRY_RNG_RESTART true = true →
    s.dev.gatedAt Reg.CRY_RNG_RESTART = false →
    Runs (.cryRngRestart pf v pass) s fun b =>
      b.cry = (if pass then { s.dev.cry with failed := false, rct := false, apt := false, running := true, drbg := 0 } else s.dev.cry) ∧
      OnlyRegs [] s.dev b)

/-- Crypto contexts: set, read, given new keys, resynchronised, destroyed; frames under them; handshake operations. -/
def Obligations.ContextsAndHandshakes : Prop :=
  (∀ (s : State) (e : AdmEntry) (c : Nat) (x : CryCtx) (k : KeySlot), AdmReady s → Owns e e.ten s → c = AdmEntry_slot e → e.len = 128 →
    e.buf.length = 128 → e.bufErr = none → ctxBlockBad e.buf = none → (s.dev.tenGet e.ten).st = 2 ∨ (s.dev.tenGet e.ten).st = 3 →
    s.dev.ctxOwner c = none → s.dev.ctxsOf e.ten < (s.dev.tenGet e.ten).ctxs → leAt e.buf 8 4 < 2 ^ 31 → x = ctxOfBlock e.ten e.buf →
    s.dev.slot x.keySlot = some k → k.dev = false → k.ten = e.ten → k.may Key.TRAFFIC = true → s.dev.slotBad x.keySlot = false →
    k.type = (if isEsp x.kind then x.alg else 4) →
    Completes (.cryCtxSet e) e 0x4E s fun b =>
      b.cryCtx c = some (if isEsp x.kind then x else { x with cur := trafficKey (isQuic x.kind) x.alg k.material }) ∧
      (∀ j, j ≠ c → b.cryCtx j = s.dev.cryCtx j) ∧ b.cry.slots = s.dev.cry.slots ∧ OnlyRegs [] s.dev b) ∧
  (∀ (s : State) (e : AdmEntry) (c : Nat) (x : CryCtx), AdmReady s → Owns e e.ten s → c = AdmEntry_slot e → fld e.d3 2 0 ≤ 5 →
    (s.dev.tenGet e.ten).st = 2 ∨ (s.dev.tenGet e.ten).st = 3 → s.dev.cryCtx c = some x → x.ten = e.ten →
    (Completes (.cryCtxRead e) e 0x4F s fun b =>
      Out.hostWrite (.pf e.pf) none e.d1.toNat (leBytes 8 x.units ++ leBytes 8 x.bytes ++ leBytes 8 x.tagFails ++ leBytes 8 x.replays ++
        leBytes 8 x.seq ++ List.replicate 24 0#8) false ∈ b.out ∧ b.cry = s.dev.cry ∧ OnlyRegs [] s.dev b) ∧
    (∀ n k, isQuic x.kind = true → n = fld e.d3 51 32 → s.dev.slot n = some k → k.dev = false → k.ten = e.ten → k.may Key.TRAFFIC = true →
      k.type = 4 → s.dev.slotBad n = false → Completes (.cryCtxNext e) e 0x4F s fun b =>
        b.cryCtx c = some { x with nextSlot := some n, next := some (trafficKey true x.alg k.material), prev := none } ∧
        (∀ j, j ≠ c → b.cryCtx j = s.dev.cryCtx j) ∧ OnlyRegs [] s.dev b) ∧
    (∀ k, isQuic x.kind = true → x.next = some k → Completes (.cryCtxRotate e) e 0x4F s fun b =>
        b.cryCtx c = some (x.rotate k (x.seq + 1)) ∧ (∀ j, j ≠ c → b.cryCtx j = s.dev.cryCtx j) ∧ OnlyRegs [] s.dev b) ∧
    (x.kind = 0x13 → Completes (.cryCtxResync e) e 0x4F s fun b =>
        b.cryCtx c = some { x with seq := e.d4.toNat, tcpNext := fld e.d5 31 0, part := [], st := if x.st = 3 then 0 else x.st } ∧
        (∀ j, j ≠ c → b.cryCtx j = s.dev.cryCtx j) ∧ OnlyRegs [] s.dev b) ∧
    (x.kind ≠ 0x13 → Runs (.cryCtxResync e) s fun b => AdmEnded s.dev b e 0x4F St.STATE x.kind ∧ b.cry = s.dev.cry) ∧
    (∀ n k, isTls x.kind = true ∨ isEsp x.kind = true → n = fld e.d3 51 32 → s.dev.slot n = some k → k.dev = false → k.ten = e.ten →
      k.may Key.TRAFFIC = true → k.type = (if isEsp x.kind then x.alg else 4) → s.dev.slotBad n = false →
      Completes (.cryCtxRekey e) e 0x4F s fun b =>
        b.cryCtx c = some (if isEsp x.kind then { x with keySlot := n }
          else { x with keySlot := n, rekey := some (e.d4.toNat, trafficKey false x.alg k.material) }) ∧
        (∀ j, j ≠ c → b.cryCtx j = s.dev.cryCtx j) ∧ OnlyRegs [] s.dev b) ∧
    (Completes (.cryCtxDestroy e) e 0x4F s fun b =>
        b.cryCtx c = none ∧ (∀ j, j ≠ c → b.cryCtx j = s.dev.cryCtx j) ∧ b.cry.slots = s.dev.cry.slots ∧ OnlyRegs [] s.dev b)) ∧
  (∀ (s : State) (tok c : Nat) (p : Packet) (f : Fwd) (en : Bool), Alive s → s.dev.pkt tok = some p → p.stage = .crypt c en f →
    (s.dev.cryCtx c = none → Runs (.aeadUnit tok {}) s fun b =>
      b.pkt tok = none ∧ b.reg Reg.CRY_NOKEY = counterAdd (s.dev.reg Reg.CRY_NOKEY) 1 ∧ OnlyRegs [Reg.CRY_NOKEY] s.dev b) ∧
    (∀ x k d1 data dec, s.dev.cryCtx c = some x → x.kind = 0x10 → x.st = 0 → s.dev.slot x.keySlot = some k → s.dev.slotBad x.keySlot = false →
      s.dev.espOut c x k.material p.data = .ok d1 data dec → cellsOf data.length = cellsOf p.data.length →
      Runs (.aeadUnit tok {}) s fun b =>
        (∃ q, b.pkt tok = some q ∧ q.data = data ∧ q.stage = .forward { f with decrypted := false }) ∧
        ∃ y, b.cryCtx c = some y ∧ y.seq = x.seq + 1 ∧ y.units = x.units + 1) ∧
    (∀ x k h e spi, s.dev.cryCtx c = some x → x.kind = 0x11 → x.st = 0 → x.flags % 8 = 0 → s.dev.slot x.keySlot = some k →
      s.dev.slotBad x.keySlot = false → h = Net.l3 p.data → e = h.off + h.hlen → spi = beAt p.data e 4 → h.ver ≠ 0 → h.proto = 50 →
      34 ≤ h.off + h.total - e → spi = x.spi →
      (x.replayWin ≠ 0 → beAt p.data (e + 4) 4 ∈ x.seen → Runs (.aeadUnit tok {}) s fun b =>
        b.pkt tok = none ∧ b.reg Reg.CRY_REPLAY = counterAdd (s.dev.reg Reg.CRY_REPLAY) 1 ∧
        b.cryCtx c = some { x with replays := x.replays + 1 } ∧ OnlyRegs [Reg.CRY_REPLAY] s.dev b) ∧
      (x.replayWin = 0 →
        aeadOpen x.alg k.material (x.salt ++ slice p.data (e + 8) 8) (espAad false spi (beAt p.data (e + 4) 4))
          (slice p.data (e + 16) (h.off + h.total - e - 16)) = none → Runs (.aeadUnit tok {}) s fun b =>
        b.pkt tok = none ∧ b.reg Reg.CRY_AUTH_FAIL = counterAdd (s.dev.reg Reg.CRY_AUTH_FAIL) 1 ∧
        b.cryCtx c = some { x with tagFails := x.tagFails + 1 } ∧ OnlyRegs [Reg.CRY_AUTH_FAIL] s.dev b))) ∧
  (∀ (s : State) (e : AdmEntry) (r : HsReq), AdmReady s → Owns e e.ten s → e.bufErr = none →
    r = {
        ten := e.ten, gen := (s.dev.tenGet e.ten).gen, op := fld e.d2 23 16, outSlot := AdmEntry_slot e, inSlot := fld e.d3 19 0,
        inSlot2 := fld e.d3 51 32, exp := bitOf e.d4 32, len := e.len, inLen := fld e.d4 31 0, buf := fitTo (fld e.d4 31 0) e.buf,
        adm := some e } →
    (firstFail (s.dev.hsChecks (s.dev.privNow e.pf) r) = none → Waits (.hsOp e) e s fun b =>
      b.cry = { s.dev.cry with hsQueue := s.dev.cry.hsQueue ++ [r] } ∧ OnlyRegs [] s.dev b) ∧
    (hsOp r.op = none → Runs (.hsOp e) s fun b =>
      AdmEnded s.dev b e 0x4D St.RANGE (rangeAt 2 16) ∧ b.cry = s.dev.cry ∧ OnlyRegs [] s.dev b)) ∧
  (∀ (s : State) (r : HsReq) (rest : List HsReq) (e : AdmEntry), Alive s → s.dev.cry.hsQueue = r :: rest → (∀ q ∈ rest, q.ten = r.ten) →
    r.ten < 4096 → s.dev.cry.hsRun.length < 4 → r.adm = some e →
    Runs .handshakeStart s fun b =>
      (∃ pr, b.cry.hsRun = s.dev.cry.hsRun ++ [{ r with priv := pr, bad := none }]) ∧ b.cry.hsQueue = rest ∧ b.cry.hsTurn = r.ten ∧
      Agree [.cry] s.dev b) ∧
  (∀ (s : State) (i : Nat) (r : HsReq) (o : HsOp) (e : AdmEntry), Alive s → s.dev.cry.hsRun[i]? = some r → hsOp r.op = some o → r.bad = none →
    r.adm = some e →
    ((s.dev.tenGet r.ten).gen = r.gen → o.kind = 0 → s.dev.slot r.outSlot = none → s.dev.keysOf r.ten < (s.dev.tenGet r.ten).keys →
      s.dev.glb.planes.ctlUp = true → s.dev.ring.taken = [{ e := e, priv := true }] → Runs (.handshakeDone i) s fun b =>
        (∃ k, b.slot r.outSlot = some k ∧ k.dev = false ∧ k.ten = r.ten ∧ k.type = o.out ∧ k.usage = (hsUsage o r.exp).1 ∧
          k.material.length = o.outLen) ∧
        (∃ out, out.length = o.wr ∧ Out.hostWrite (.pf e.pf) none e.d1.toNat out false ∈ b.out) ∧ AdmEnded s.dev b e 0x4D 0 0 ∧
        b.cry.hsRun = s.dev.cry.hsRun.eraseIdx i ∧ b.reg Reg.CRY_HS_DONE = counterAdd (s.dev.reg Reg.CRY_HS_DONE) 1 ∧
        OnlyRegs [Reg.CRY_HS_DONE] s.dev b) ∧
    ((s.dev.tenGet r.ten).gen ≠ r.gen → Runs (.handshakeDone i) s fun b =>
        b.cry = { s.dev.cry with hsRun := s.dev.cry.hsRun.eraseIdx i } ∧
        b.reg (Reg.TEN_DISCARD r.ten) = counterAdd (s.dev.reg (Reg.TEN_DISCARD r.ten)) 1 ∧ OnlyRegs [Reg.TEN_DISCARD r.ten] s.dev b))

/-! Block storage and RDMA (R290 to R318). -/

/-- Queue pairs and connections: packets, timers, rates, and the jobs that start work. -/
def Obligations.Transports : Prop :=
  (∀ (s : State) (tok c : Nat) (fault : Bool) (p : Packet) (q : Qp) (x : List Byte), RoceTaken s tok c p q x → q.ecn = false → q.sr = false →
    (∀ m n t, beAt x 0 1 = 0x0A → beAt x 9 3 = q.rcv → q.rcv < 2 ^ 24 → q.rx = [] → q.seen = [] → t = s.dev.stoTen c → s.dev.nvAt t (beAt x 20 4) (beAt x 12 8) = none →
      n = x.length - 28 - beAt x 1 1 / 16 % 4 → s.dev.mrCheck t (beAt x 20 4) (beAt x 12 8) n true = some m → m.hbm = true →
      s.dev.shutPass t p.gen = true → Runs (.roceRx tok fault) s fun b =>
        (∀ i, i < n → b.hbm.byte (beAt x 12 8 + i) = x.getD (28 + i) 0#8) ∧ OnlyBytes (beAt x 12 8) n s.dev b ∧
        (∃ y, b.qp c = some y ∧ y.rcv = psnAdd q.rcv 1 ∧ y.rx = [] ∧ y.msn = (q.msn + 1) % 2 ^ 24) ∧ OnlyRegs [] s.dev b) ∧
    (beAt x 0 1 = 0x0A → beAt x 9 3 = q.rcv → s.dev.nvAt (s.dev.stoTen c) (beAt x 20 4) (beAt x 12 8) = none → beAt x 24 4 ≠ 0 →
      s.dev.mrCheck (s.dev.stoTen c) (beAt x 20 4) (beAt x 12 8) (x.length - 28 - beAt x 1 1 / 16 % 4) true = none →
      Runs (.roceRx tok fault) s fun b =>
        b.qp c = some { q with naks := q.naks + 1 } ∧ OnlyBytes 0 0 s.dev b ∧
        b.reg Reg.STO_NAK_TX = counterAdd (s.dev.reg Reg.STO_NAK_TX) 1 ∧ OnlyRegs [Reg.STO_NAK_TX] s.dev b) ∧
    (beAt x 0 1 ≤ 0x0C → 0 < psnDist q.rcv (beAt x 9 3) → psnDist q.rcv (beAt x 9 3) < 2 ^ 23 → q.nakSent = false →
      Runs (.roceRx tok fault) s fun b =>
        b.qp c = some { q with nakSent := true, naks := q.naks + 1 } ∧ OnlyBytes 0 0 s.dev b ∧
        b.reg Reg.STO_NAK_TX = counterAdd (s.dev.reg Reg.STO_NAK_TX) 1 ∧ OnlyRegs [Reg.STO_NAK_TX] s.dev b) ∧
    (beAt x 0 1 = 0x11 → q.state = 3 → beAt x 12 1 / 32 = 0 → q.work = [] → psnBefore (beAt x 9 3) (psnAdd q.una (2 ^ 24 - 1)) = false →
      psnDist q.una (psnAdd (beAt x 9 3) 1) < 2 ^ 23 → psnAdd (beAt x 9 3) 1 ≠ q.una → Runs (.roceRx tok fault) s fun b =>
        (∃ y, b.qp c = some y ∧ y.una = psnAdd (beAt x 9 3) 1 ∧ y.tries = 0 ∧ y.rcv = q.rcv) ∧ b.pkt tok = none ∧ OnlyRegs [] s.dev b)) ∧
  (∀ (s : State) (tok c : Nat) (fault : Bool) (p : Packet) (q : Qp), Alive s → s.dev.pkt tok = some p → p.stage = .context c →
    s.dev.qp c = some q → p.gen ≠ s.dev.stoGen c → Runs (.roceRx tok fault) s fun b =>
      b.pkt tok = none ∧ b.sto = s.dev.sto ∧
      b.reg (Reg.TEN_DISCARD (s.dev.stoTen c)) = counterAdd (s.dev.reg (Reg.TEN_DISCARD (s.dev.stoTen c))) 1 ∧
      OnlyRegs [Reg.TEN_DISCARD (s.dev.stoTen c)] s.dev b) ∧
  (∀ (s : State) (tok c : Nat) (p : Packet) (q : Qp) (x : List Byte), RoceTaken s tok c p q x → q.ecn = true → beAt x 0 1 = 0x81 →
    Runs (.cnpRx tok) s fun b =>
      b.qp c = some { q with
          rate := s.dev.rateCut q.rate (if beAt x 12 1 = 0x57 then beAt x 13 1 else s.dev.regFld Reg.STO_CNP_CFG 15 8) } ∧ b.pkt tok = none ∧
      b.reg Reg.STO_CNP_RX = counterAdd (s.dev.reg Reg.STO_CNP_RX) 1 ∧ OnlyRegs [Reg.STO_CNP_RX] s.dev b) ∧
  (∀ (s : State) (tok c : Nat) (p : Packet) (x : Tcp), Alive s → s.dev.pkt tok = some p → p.stage = .context c → s.dev.tcp c = some x →
    p.gen = s.dev.stoGen c →
    (x.error = true → Runs (.tcpRx tok) s fun b =>
      b.pkt tok = none ∧ b.sto = s.dev.sto ∧ b.reg Reg.STO_CTX_EXC = counterAdd (s.dev.reg Reg.STO_CTX_EXC) 1 ∧
      OnlyRegs [Reg.STO_CTX_EXC] s.dev b) ∧
    (∀ h o hl ack, x.error = false → x.tsopt = false → h = Net.l3 p.data → o = h.off + h.hlen → hl = beAt p.data (o + 12) 1 / 16 * 4 →
      beAt p.data (o + 13) 1 = 16 → slice p.data (o + hl) (h.total - h.hlen - hl) = [] → seqDist x.rcvNxt (beAt p.data (o + 4) 4) < x.rwnd →
      ack = beAt p.data (o + 8) 4 → 0 < seqDist x.sndUna ack → seqDist x.sndUna ack ≤ seqDist x.sndUna x.sndNxt →
      Runs (.tcpRx tok) s fun b =>
        (∃ y, b.tcp c = some y ∧ y.sndUna = ack ∧ y.sndBuf = x.sndBuf.drop (seqDist x.sndUna ack) ∧
          y.wnd = beAt p.data (o + 14) 2 * 2 ^ x.sws ∧ y.rcvNxt = x.rcvNxt ∧ y.rtos = 0) ∧ b.pkt tok = none ∧ OnlyRegs [] s.dev b) ∧
    (∀ h o, x.error = false → h = Net.l3 p.data → o = h.off + h.hlen → beAt p.data (o + 13) 1 % 8 / 4 = 1 → Runs (.tcpRx tok) s fun b =>
        (∃ y, b.tcp c = some y ∧ y.error = true ∧ y.sndUna = x.sndUna ∧ y.rcvNxt = x.rcvNxt) ∧
        TenTold s.dev b (s.dev.stoTen c) 0x130 7)) ∧
  (∀ (s : State) (c : Nat) (q : Qp), Alive s → s.dev.qp c = some q →
    (q.state = 3 → q.timeout ≠ 0 → (∃ p ∈ q.sendQ, p.resp = false ∧ 0 < p.sends) → q.retry ≤ q.tries → Runs (.lackTimeout c) s fun b =>
      (∃ y, b.qp c = some y ∧ y.state = 4 ∧ y.work = [] ∧ y.sendQ = []) ∧ TenTold s.dev b (s.dev.stoTen c) 0x130 1) ∧
    (∀ w r, q.state = 3 → q.timeout ≠ 0 → q.sendQ = w :: r → w.resp = false → 0 < w.sends → q.tries < q.retry → q.sr = false →
      Runs (.lackTimeout c) s fun b =>
        b.qp c = some (({ q with tries := q.tries + 1 } : Qp).resendFrom w.psn) ∧
        Agree [.sto] s.dev b) ∧
    (q.sr = true → 0 < q.unacked → q.state = 2 ∨ q.state = 3 → Runs (.srAckTimer c) s fun b =>
      b.qp c = some { q with unacked := 0 } ∧ Agree [.square, .sto] s.dev b) ∧
    (q.rnrWait = true → q.state = 3 → q.rnrRetry = 7 ∨ q.rnrTries ≤ q.rnrRetry → Runs (.rnrTimerExpire c) s fun b =>
      b.qp c = some { q with rnrWait := false } ∧ Agree [.sto] s.dev b) ∧
    (q.rnrWait = true → q.state = 3 → q.rnrRetry < q.rnrTries → q.rnrRetry ≠ 7 → Runs (.rnrTimerExpire c) s fun b =>
      (∃ y, b.qp c = some y ∧ y.state = 4) ∧ TenTold s.dev b (s.dev.stoTen c) 0x130 2) ∧
    (q.ecn = true → Runs (.rcWindow c) s fun b =>
      b.qp c = some { q with rate := { q.rate with n := 0, m := 0 } } ∧
      b.reg Reg.STO_CNP_TX = (if q.rate.m = 0 then s.dev.reg Reg.STO_CNP_TX else counterAdd (s.dev.reg Reg.STO_CNP_TX) 1) ∧
      OnlyRegs [Reg.STO_CNP_TX] s.dev b) ∧
    (q.ecn = true → Runs (.rcIncrease c) s fun b => b.qp c = some { q with rate := s.dev.rateRaise q.rate } ∧ Agree [.sto] s.dev b)) ∧
  (∀ (s : State) (c : Nat) (x : Tcp), Alive s → s.dev.tcp c = some x →
    (x.error = false → x.sndUna ≠ x.sndNxt → 7 ≤ x.rtos → Runs (.tcpRto c) s fun b =>
      b.tcp c = some { x with error := true } ∧ TenTold s.dev b (s.dev.stoTen c) 0x130 7) ∧
    (x.error = false → x.sndUna ≠ x.sndNxt → x.rtos < 7 → Runs (.tcpRto c) s fun b =>
      (∃ y, b.tcp c = some y ∧ y.rtos = x.rtos + 1 ∧ y.dupAcks = 0 ∧ y.sndUna = x.sndUna ∧ y.sndNxt = x.sndNxt) ∧
      OnlyRegs [Reg.STO_RETX_PKTS] s.dev b) ∧
    (x.ecn = true → Runs (.rcIncrease c) s fun b => b.tcp c = some { x with rate := s.dev.rateRaise x.rate } ∧ Agree [.sto] s.dev b)) ∧
  (∀ (s : State) (q pos c : Nat) (j : Job) (x : Qp),
    (RdmaStarts s q pos 0x10 c j x → Runs (.rdmaSend q pos) s fun b =>
      b.qp c = some { x with work := x.work ++ [{ sq := q, pos := pos, op := 0x10 }] } ∧
      b.jobFind q pos = some { j with reading := true, need := j.total } ∧ Agree [.hifPorts, .jobs, .sto] s.dev b) ∧
    (RdmaStarts s q pos 0x11 c j x → Runs (.rdmaWrite q pos) s fun b =>
      b.qp c = some { x with work := x.work ++ [{ sq := q, pos := pos, op := 0x11 }] } ∧
      b.jobFind q pos = some { j with reading := true, need := j.total } ∧ Agree [.hifPorts, .jobs, .sto] s.dev b) ∧
    (RdmaStarts s q pos 0x12 c j x → Runs (.rdmaRead q pos) s fun b =>
      b.qp c = some { x with work := x.work ++ [{ sq := q, pos := pos, op := 0x12 }] } ∧
      b.jobFind q pos = some { j with reading := true } ∧ Agree [.jobs, .sto] s.dev b)) ∧
  (∀ (s : State) (q pos : Nat) (j : Job), Alive s → s.dev.jobFind q pos = some j → j.opc = 0x10 → j.res = none → j.reading = false →
    s.dev.jobLive j = true → s.dev.notFirst j = false → s.dev.jobQp j = none → Runs (.rdmaSend q pos) s fun b =>
      b.jobFind q pos = some { j with res := some { status := St.DENIED, detail := 2, d3 := fld j.firstE.d3 19 0 } } ∧ Agree [.jobs] s.dev b) ∧
  (∀ (s : State) (q pos n : Nat) (x : Sq), Alive s → kvFind q s.dev.ring.sqs = some x →
    (s.dev.isRq x = true → x.state = 1 → x.front = .run n → (x.cache.headD default).opc = 0x13 → (∀ e ∈ x.cache.take n, e.len ≠ 0) →
      Runs (.rdmaRecv q pos) s fun b => b = s.dev) ∧
    (∀ j, s.dev.isRq x = false → s.dev.jobFind q pos = some j → j.opc = 0x13 → j.res = none → Runs (.rdmaRecv q pos) s fun b =>
      b.jobFind q pos = some { j with res := some { status := St.MALFORMED, detail := 1 } } ∧ Agree [.jobs] s.dev b))

/-- Block jobs, contexts, emulated controllers' settings, and targets with their SSDs. -/
def Obligations.BlockStorage : Prop :=
  (∀ (s : State) (q pos op c : Nat) (j : Job) (n : Nvmf), Alive s → s.dev.jobFind q pos = some j → j.opc = op → j.res = none →
    j.reading = false → s.dev.jobLive j = true → c = fld j.firstE.d3 19 0 → s.dev.nvmf c = some n → s.dev.stoTen c = j.ten →
    n.target = false → n.error = false → s.dev.linkDown n = false →
    (op = 0x14 → j.total = (fld j.firstE.d5 47 32 + 1) * 2 ^ n.lbads → (∀ e ∈ j.entries, e.len ≠ 0) → Runs (.blkRead q pos) s fun b =>
      b.nvmf c = some { n with
          wait := n.wait ++ [{
              for_ := .job q pos, op := 2, nsid := fld j.firstE.d5 31 0, slba := j.firstE.d4.toNat, nlb := fld j.firstE.d5 47 32 + 1,
              len := j.total }] } ∧ b.jobFind q pos = some { j with reading := true, need := 0 } ∧ Agree [.jobs, .sto] s.dev b) ∧
    (op = 0x15 → j.total = (fld j.firstE.d5 47 32 + 1) * 2 ^ n.lbads → (∀ e ∈ j.entries, e.len ≠ 0) → Runs (.blkWrite q pos) s fun b =>
      b.jobFind q pos = some { j with reading := true, need := j.total } ∧ Agree [.jobs, .hifPorts] s.dev b) ∧
    (op = 0x16 → j.total = 0 → Runs (.blkFlush q pos) s fun b =>
      b.nvmf c = some { n with
          wait := n.wait ++ [{
              for_ := .job q pos, op := 0, nsid := fld j.firstE.d5 31 0, slba := j.firstE.d4.toNat, nlb := fld j.firstE.d5 47 32 + 1 }] } ∧
      b.jobFind q pos = some { j with reading := true, need := 0 } ∧ Agree [.jobs, .sto] s.dev b) ∧
    (op = 0x16 → j.total ≠ 0 → Runs (.blkFlush q pos) s fun b =>
      (∃ r, b.jobFind q pos = some { j with res := some r } ∧ r.status = St.RANGE ∧ r.detail = rangeAt 0 32) ∧ Agree [.jobs] s.dev b)) ∧
  (∀ (s : State) (e : AdmEntry) (c : Nat), AdmReady s → Owns e e.ten s → c = AdmEntry_slot e →
    (s.dev.tenGet e.ten).st = 2 ∨ (s.dev.tenGet e.ten).st = 3 →
    (e.len = 128 → e.buf.length = 128 → e.bufErr = none → stoBlockBad e.buf = none → s.dev.ctxOwner c = none →
      s.dev.ctxsOf e.ten < (s.dev.tenGet e.ten).ctxs →
      (∀ m, stoOfBlock e.buf (fld e.d3 39 32) = .mr m → m.hbm = true → s.dev.mrGranted e.ten m = true) →
      (∀ n, stoOfBlock e.buf (fld e.d3 39 32) = .nvmf n → n.target = false → fld e.d3 39 32 = 9 ∨ fld e.d3 39 32 = 12) →
      Completes (.stoConnSet e) e 0x50 s fun b =>
        b.sto? c = some { ten := e.ten, k := stoOfBlock e.buf (fld e.d3 39 32) } ∧ (∀ k, k ≠ c → b.sto? k = s.dev.sto? k) ∧ OnlyRegs [] s.dev b) ∧
    (∀ x, s.dev.sto? c = some x → s.dev.ctxOwner c = some e.ten →
      (bitOf e.d3 8 = true → s.dev.qp c = none → s.dev.nvmf c = none → Completes (.stoConnModify e) e 0x51 s fun b =>
        b.sto? c = none ∧ (∀ k, k ≠ c → b.sto? k = s.dev.sto? k) ∧ OnlyRegs [] s.dev b) ∧
      (∀ q, bitOf e.d3 8 = false → s.dev.qp c = some q → (q.state = 1 ∧ fld e.d3 2 0 = 2) ∨ (q.state = 2 ∧ fld e.d3 2 0 = 3) →
        Completes (.stoConnModify e) e 0x51 s fun b =>
          b.qp c = some { q with state := fld e.d3 2 0 } ∧ (∀ k, k ≠ c → b.sto? k = s.dev.sto? k) ∧ OnlyRegs [] s.dev b) ∧
      (∀ q, bitOf e.d3 8 = false → s.dev.qp c = some q → q.state = 1 → fld e.d3 2 0 = 3 → Runs (.stoConnModify e) s fun b =>
          AdmEnded s.dev b e 0x51 St.STATE 1 ∧ b.sto = s.dev.sto ∧ OnlyRegs [] s.dev b) ∧
      (∀ q, e.len = 64 → s.dev.qp c = some q → Completes (.stoConnQuery e) e 0x52 s fun b =>
          Out.hostWrite (.pf e.pf) none e.d1.toNat (fitTo 64 ([q.state, q.snd, q.rcv, q.rate.r.getD 0, q.rate.t, q.retx, q.naks].flatMap (leBytes 8)))
            false ∈ b.out ∧ b.sto = s.dev.sto ∧ OnlyRegs [] s.dev b)) ∧
    (∀ k, k = ctrlKey e.pf (fld e.d3 9 0) → e.d4.toNat % 2 ^ 20 = 0 → e.d5.toNat % 2 ^ 20 = 0 → e.d4.toNat + e.d5.toNat ≤ hbmReserved →
      s.dev.vfNvme e.pf = true → (∃ g, (s.dev.tenGet e.ten).binding = some g ∧ g.isVf = true ∧ g.vf = fld e.d3 9 0 ∧ g.pasid = none) →
      overlapsAny e.d4.toNat e.d5.toNat (s.dev.stoRanges (some k) none) = false →
      (bitOf e.d3 32 = true → s.dev.ctrl k = none → Completes (.stoNvmeCtrl e) e 0x53 s fun b =>
        b.ctrl k = some { ten := e.ten, en := true, cacheBase := e.d4.toNat, cacheSize := e.d5.toNat } ∧
        (∀ j, j ≠ k → b.ctrl j = s.dev.ctrl j) ∧ OnlyRegs [] s.dev b) ∧
      (bitOf e.d3 32 = false → Completes (.stoNvmeCtrl e) e 0x53 s fun b =>
        b.ctrl k = none ∧ (∀ j, j ≠ k → b.ctrl j = s.dev.ctrl j) ∧ OnlyRegs [] s.dev b)) ∧
    (∀ k x ns n, ns = fld e.d3 4 0 → 1 ≤ ns → ns ≤ 16 → fld e.d3 9 8 ≤ 2 → fld e.d3 19 16 = 9 ∨ fld e.d3 19 16 = 12 → n = e.len / 4 →
      e.len % 4 = 0 → 1 ≤ n → n ≤ 64 → s.dev.ctrlOf e.ten = some (k, x) → e.bufErr = none →
      (∀ i, i < n → s.dev.stoTen (leAt e.buf (4 * i) 4 % 2 ^ 20) = e.ten ∧
        ∃ y, s.dev.nvmf (leAt e.buf (4 * i) 4 % 2 ^ 20) = some y ∧ y.target = false) →
      Completes (.stoNvmeNs e) e 0x54 s fun b =>
        b.ctrl k = some { x with
            nss := kvPut ns {
                mode := fld e.d3 9 8, lbads := fld e.d3 19 16, nsze := e.d4.toNat, off := e.d5.toNat, rnsid := fld e.d6 31 0,
                conns := (List.range n).map (fun i => leAt e.buf (4 * i) 4 % 2 ^ 20) } x.nss, changed := insertNat ns x.changed } ∧
        (∀ j, j ≠ k → b.ctrl j = s.dev.ctrl j) ∧ OnlyRegs [] s.dev b) ∧
    (∀ n lg, lg = fld e.d3 37 32 → 6 ≤ lg → lg ≤ 16 → e.len = 64 → e.buf.length = 64 → e.bufErr = none → leAt e.buf 16 8 + leAt e.buf 40 8 ≤ hbmReserved →
      leAt e.buf 0 8 + 64 * 2 ^ lg ≤ hbmReserved → leAt e.buf 8 8 + 16 * 2 ^ lg ≤ hbmReserved → s.dev.ctxOwner c = some e.ten →
      s.dev.nvmf c = some n → n.target = true → overlapsAny (leAt e.buf 16 8) (leAt e.buf 40 8) (s.dev.stoRanges none (some c)) = false →
      Completes (.stoSsdAttach e) e 0x55 s fun b =>
        b.ssd c = some {
            ten := e.ten, win := fld e.d3 5 0, log2 := lg, sqBase := leAt e.buf 0 8, cqBase := leAt e.buf 8 8, stBase := leAt e.buf 16 8,
            stSize := leAt e.buf 40 8, bell := leAt e.buf 48 8, rnsid := leAt e.buf 56 8 % 2 ^ 32 } ∧
        (∀ k, k ≠ c → b.ssd k = s.dev.ssd k) ∧ b.sto.ctxs = s.dev.sto.ctxs ∧ OnlyRegs [] s.dev b)) ∧
  (∀ (s : State) (c : Nat) (n : Nvmf) (g : Ssd), Alive s → s.dev.nvmf c = some n → s.dev.ssd c = some g →
    (∀ cid rest x blk, n.order = cid :: rest → kvFind cid n.tgt = some x → leAt x.sqe 0 1 = 2 → g.stageRoom (x.blocks n.lbads) = some blk →
      Runs (.nvmfTargetCommand c) s fun b =>
        b.ssd c = some { g with used := g.used ++ (List.range (x.blocks n.lbads)).map (blk + ·) } ∧
        b.nvmf c = some { n with order := rest, tgt := kvPut cid { x with stage := some blk, need := 0 } n.tgt } ∧ Agree [.sto] s.dev b) ∧
    (∀ e, e = s.dev.hbm.bytes (g.cqBase + 16 * g.head) 16 → decide (leAt e 14 2 % 2 = 1) = g.phase → Runs (.ssdCqe c) s fun b =>
      (∃ y, b.ssd c = some y ∧ y.head = (g.head + 1) % 2 ^ g.log2 ∧ y.phase = (if (g.head + 1) % 2 ^ g.log2 = 0 then !g.phase else g.phase)) ∧
      Out.hostWrite (.pf (s.dev.tenGet g.ten).owner) none (g.bell + 4) (leBytes 4 ((g.head + 1) % 2 ^ g.log2)) false ∈ b.out ∧
      (∀ cid, kvFind (leAt e 12 2) g.out = some (some cid) → ∃ m, b.nvmf c = some m ∧ kvFind cid m.tgt = none)) ∧
    (∀ cid x k, n.rdma = true → kvFind cid n.tgt = some x → x.ssdCid = some k → Runs (.ssdTimeout c cid) s fun b =>
      (∃ m y, b.nvmf c = some m ∧ kvFind cid m.tgt = none ∧ b.ssd c = some y ∧ kvFind k y.out = some none) ∧
      b.reg Reg.STO_SSD_TO_CNT = counterAdd (s.dev.reg Reg.STO_SSD_TO_CNT) 1 ∧ TenTold s.dev b g.ten 0x131 0))

/-- The emulated NVMe controller: its registers and doorbells, its admin and I/O commands, its cache's write-back. -/
def Obligations.NvmeController : Prop :=
  (∀ (s : State) (pf vf : Nat) (v : Word) (c : NvCtrl), Alive s → s.dev.ctrl (ctrlKey pf vf) = some c →
    (c.en = true → bitOf c.cc 0 = false → bitOf v 0 = true → Runs (.nvmeCcEnable pf vf v) s fun b =>
      b.ctrl (ctrlKey pf vf) = some { c with
          cc := v, rdy := true, cfs := false, shst := 0, aers := [], cmds := [],
          sqs := [(0, { size := max 2 (fld c.aqa 11 0 + 1), base := c.asq.toNat })],
          cqs := [(0, { size := max 2 (fld c.aqa 27 16 + 1), base := c.acq.toNat, ien := true, mod := { vecV := true } })] } ∧
      (∀ k, k ≠ ctrlKey pf vf → b.ctrl k = s.dev.ctrl k) ∧ Agree [.sto] s.dev b) ∧
    (fld v 15 14 = 1 ∨ fld v 15 14 = 2 → c.shst = 0 → Runs (.nvmeShutdown pf vf v) s fun b =>
      (∃ x, b.ctrl (ctrlKey pf vf) = some x ∧ x.shst = 1 ∧ fld x.cc 15 14 = fld v 15 14 ∧ x.sqs = c.sqs) ∧ Agree [.sto] s.dev b) ∧
    (∀ y w q, c.rdy = true → kvFind y c.sqs = some q → w < q.size → Runs (.nvmeSqDoorbell pf vf y w) s fun b =>
      b.ctrl (ctrlKey pf vf) = some { c with sqs := kvPut y { q with tail := w } c.sqs } ∧ Agree [.sto] s.dev b) ∧
    (∀ y w q, c.rdy = true → kvFind y c.cqs = some q → w < q.size → q.stash = [] → Runs (.nvmeCqDoorbell pf vf y w) s fun b =>
      b.ctrl (ctrlKey pf vf) = some { c with cqs := kvPut y { q with head := w } c.cqs } ∧ Agree [.sto] s.dev b)) ∧
  (∀ (s : State) (pf vf : Nat) (e : SqEntry) (c : NvCtrl) (y : Nat) (d : Dev) (q : NvQueue), y = seCdw e 10 % 65536 → q = kvGet default c.sqs 0 →
    d = s.dev.setCtrl (ctrlKey pf vf) { c with sqs := kvPut 0 { q with head := (q.head + 1) % max 1 q.size } c.sqs } →
    (NvTakes s pf vf 0 e 0x01 c → fld c.cc 19 16 = 6 → 2 ≤ seCdw e 10 / 65536 + 1 → 1 ≤ y → y ≤ 64 → kvFind y c.sqs = none →
      d.ringsOf c.ten < (s.dev.tenGet c.ten).rings → 1 ≤ seCdw e 11 / 65536 → (kvFind (seCdw e 11 / 65536) c.cqs).isSome = true →
      Runs (.nvmeCreateIoSq pf vf e) s fun b => NvEnds s.dev b pf vf 0 e 0 0 ∧ ∃ x, b.ctrl (ctrlKey pf vf) = some x ∧
        kvFind y x.sqs = some { size := seCdw e 10 / 65536 + 1, base := e.d3.toNat, cq := seCdw e 11 / 65536 }) ∧
    (NvTakes s pf vf 0 e 0x05 c → fld c.cc 23 20 = 4 → 2 ≤ seCdw e 10 / 65536 + 1 → 1 ≤ y → y ≤ 64 → kvFind y c.cqs = none →
      d.ringsOf c.ten < (s.dev.tenGet c.ten).rings → seCdw e 11 / 65536 < 64 →
      Runs (.nvmeCreateIoCq pf vf e) s fun b => NvEnds s.dev b pf vf 0 e 0 0 ∧ ∃ x q, b.ctrl (ctrlKey pf vf) = some x ∧
        kvFind y x.cqs = some q ∧ q.size = seCdw e 10 / 65536 + 1 ∧ q.base = e.d3.toNat ∧ q.ien = decide (seCdw e 11 / 2 % 2 = 1)) ∧
    (NvTakes s pf vf 0 e 0x00 c → 1 ≤ y → (kvFind y c.sqs).isSome = true →
      Runs (.nvmeDeleteIoSq pf vf e) s fun b => NvEnds s.dev b pf vf 0 e 0 0 ∧ ∃ x, b.ctrl (ctrlKey pf vf) = some x ∧ kvFind y x.sqs = none) ∧
    (NvTakes s pf vf 0 e 0x00 c → kvFind y c.sqs = none → Runs (.nvmeDeleteIoSq pf vf e) s fun b => NvEnds s.dev b pf vf 0 e 0 (cmdStatus 1)) ∧
    (NvTakes s pf vf 0 e 0x04 c → 1 ≤ y → (kvFind y c.cqs).isSome = true → (∀ q ∈ c.sqs, q.2.cq ≠ y) →
      Runs (.nvmeDeleteIoCq pf vf e) s fun b => NvEnds s.dev b pf vf 0 e 0 0 ∧ ∃ x, b.ctrl (ctrlKey pf vf) = some x ∧ kvFind y x.cqs = none) ∧
    (∀ a, NvTakes s pf vf 0 e 0x06 c → seCdw e 10 % 256 = 1 → a % (4096 * 2 ^ fld c.cc 10 7) = 0 →
      Runs (.nvmeIdentify pf vf e [a]) s fun b => NvEnds s.dev b pf vf 0 e 0 0 ∧
        Out.hostWrite (s.dev.tenFn c.ten) (s.dev.tenGet c.ten).pasid a (s.dev.identCtrl vf c) false ∈ b.out) ∧
    (∀ a, NvTakes s pf vf 0 e 0x02 c → seCdw e 10 % 256 = 4 → a % (4096 * 2 ^ fld c.cc 10 7) = 0 →
      Runs (.nvmeGetLogPage pf vf e [a]) s fun b => NvEnds s.dev b pf vf 0 e 0 0 ∧
        (∃ x, b.ctrl (ctrlKey pf vf) = some x ∧ x.changed = []) ∧
        Out.hostWrite (s.dev.tenFn c.ten) (s.dev.tenGet c.ten).pasid a
          (fitTo (min (4 * (seCdw e 10 / 65536 + seCdw e 11 % 65536 * 65536 + 1)) 4096) (c.changed.flatMap (leBytes 4))) false ∈ b.out) ∧
    (NvTakes s pf vf 0 e 0x08 c → Runs (.nvmeAbort pf vf e) s fun b => NvEnds s.dev b pf vf 0 e 1 0) ∧
    (NvTakes s pf vf 0 e 0x09 c → seCdw e 10 % 256 = 1 ∨ seCdw e 10 % 256 = 6 ∨ seCdw e 10 % 256 = 0x0B →
      Runs (.nvmeSetFeatures pf vf e) s fun b => NvEnds s.dev b pf vf 0 e 0 0 ∧ ∃ x, b.ctrl (ctrlKey pf vf) = some x ∧
        x.feats = kvSet 0 (seCdw e 10 % 256) (seCdw e 11) c.feats) ∧
    (NvTakes s pf vf 0 e 0x0A c → seCdw e 10 % 256 = 1 ∨ seCdw e 10 % 256 = 6 ∨ seCdw e 10 % 256 = 8 ∨ seCdw e 10 % 256 = 0x0B →
      Runs (.nvmeGetFeatures pf vf e) s fun b => NvEnds s.dev b pf vf 0 e (kvGet 0 c.feats (seCdw e 10 % 256)) 0) ∧
    (NvTakes s pf vf 0 e 0x0C c → c.changed = [] → Runs (.nvmeAsyncEventRequest pf vf e) s fun b =>
      ∃ x, b.ctrl (ctrlKey pf vf) = some x ∧ x.aers = c.aers ++ [seCid e] ∧ b.out = s.dev.out)) ∧
  (∀ (s : State) (pf vf : Nat) (e : SqEntry) (op : Nat) (c : NvCtrl), NvTakes s pf vf 0 e op c → adminOps.contains op = false →
    Runs (.nvmeAbort pf vf e) s fun b => NvEnds s.dev b pf vf 0 e 0 1) ∧
  (∀ (s : State) (pf vf y t ns slba nlb : Nat) (e : SqEntry) (c : NvCtrl) (n : NvNs) (m : Nvmf), 1 ≤ y → ns = seNs e →
    kvFind ns c.nss = some n → slba = e.d5.toNat → nlb = seCdw e 12 % 65536 + 1 → s.dev.nvConn n y 0 = some t → s.dev.nvmf t = some m →
    (NvTakes s pf vf y e 0x00 c → c.unsafe_ ns = [] → Runs (.nvmeFlush pf vf y e) s fun b =>
      (∃ x, b.ctrl (ctrlKey pf vf) = some x ∧ x.cmds = c.cmds ++ [{ q := y, cid := seCid e, op := 0, ns := ns }]) ∧ Agree [.sto] s.dev b) ∧
    (∀ prps, NvTakes s pf vf y e 0x02 c → n.mode = 0 → slba + nlb ≤ n.nsze → Runs (.nvmeRead pf vf y e prps) s fun b =>
      b.nvmf t = some { m with
          wait := m.wait ++ [{
              for_ := .nvme (ctrlKey pf vf) y (seCid e), op := 2, nsid := n.rnsid, slba := slba + n.off, nlb := nlb, len := nlb * 2 ^ n.lbads }] } ∧
      (∃ x, b.ctrl (ctrlKey pf vf) = some x ∧
        x.cmds = c.cmds ++ [{ q := y, cid := seCid e, op := 2, ns := ns, slba := slba, nlb := nlb, prps := prps }]) ∧ OnlyRegs [] s.dev b) ∧
    (∀ prps, NvTakes s pf vf y e 0x02 c → n.nsze < slba + nlb → Runs (.nvmeRead pf vf y e prps) s fun b =>
      NvEnds s.dev b pf vf y e 0 0x80 ∧ OnlyRegs [] s.dev b) ∧
    (∀ data, NvTakes s pf vf y e 0x01 c → n.mode = 0 → slba + nlb ≤ n.nsze → Runs (.nvmeWrite pf vf y e data) s fun b =>
      b.nvmf t = some { m with
          wait := m.wait ++ [{
              for_ := .nvme (ctrlKey pf vf) y (seCid e), op := 1, nsid := n.rnsid, slba := slba + n.off, nlb := nlb,
              fua := decide (seCdw e 12 / 2 ^ 30 % 2 = 1), data := fitTo (nlb * 2 ^ n.lbads) data, len := nlb * 2 ^ n.lbads }] } ∧
      OnlyRegs [] s.dev b ∧ OnlyBytes 0 0 s.dev b) ∧
    (NvTakes s pf vf y e 0x08 c → c.cache = [] → slba + nlb ≤ n.nsze → Runs (.nvmeWriteZeroes pf vf y e) s fun b =>
      b.nvmf t = some { m with
          wait := m.wait ++ [{ for_ := .nvme (ctrlKey pf vf) y (seCid e), op := 8, nsid := n.rnsid, slba := slba + n.off, nlb := nlb }] } ∧
      OnlyRegs [] s.dev b ∧ OnlyBytes 0 0 s.dev b) ∧
    (∀ data, NvTakes s pf vf y e 0x09 c → seCdw e 11 / 4 % 2 = 0 →
      (∀ i, i ≤ seCdw e 10 % 256 → leAt data (16 * i + 8) 8 + leAt data (16 * i + 4) 4 ≤ n.nsze) →
      Runs (.nvmeDatasetManagement pf vf y e data) s fun b => NvEnds s.dev b pf vf y e 0 0 ∧ OnlyRegs [] s.dev b)) ∧
  (∀ (s : State) (pf vf ns blk t : Nat) (c : NvCtrl) (x : NvBlk) (n : NvNs) (m : Nvmf), Alive s → s.dev.ctrl (ctrlKey pf vf) = some c →
    c.blk ns blk = some x → kvFind ns c.nss = some n → x.dirty = true → x.out = false → s.dev.nvConn n 1 0 = some t → s.dev.nvmf t = some m →
    Runs (.wbAgeExpire pf vf ns blk) s fun b =>
      (∃ d, b.nvmf t = some { m with wait := m.wait ++ [d] } ∧ d.for_ = .writeBack (ctrlKey pf vf) ns blk ∧ d.op = 1 ∧ d.nsid = n.rnsid ∧
        d.slba = blk * n.perBlk + n.off) ∧
      (∃ c', b.ctrl (ctrlKey pf vf) = some c' ∧ c'.blk ns blk = some { x with out := true, dirty := false }) ∧ Agree [.sto] s.dev b)

/-! The archive path (R319 to R346). -/

/-- The archive opcodes: a job that passes its checks becomes a work of the engine. -/
def Obligations.ArchiveJobs : Prop :=
  (∀ (s : State) (q pos : Nat) (block targets : List Byte) (j : Job) (b : List Byte) (l : ArcLay), ArcBegins s q pos 0x20 j →
    b = fitTo 256 block → l = putLay b → l.bad 40 44 = none → j.arcReserved = none → blockReserved b = none →
    fld j.firstE.d5 55 48 ≤ l.m → l.manLen ≤ fld j.firstE.d5 47 32 → s.dev.tableBad targets l l.manLen = none →
    partOverlap (arcTable targets l.n) (arcTable targets l.n) = false → s.dev.tableCtx j.ten (arcTable targets l.n) = true →
    firstFail (s.dev.arcSlots j.ten l (leAt b 48 4 % 2 ^ 20) (leAt b 52 4 % 2 ^ 20) (leAt b 56 4 % 2 ^ 20) true true) = none →
    (∀ n ∈ arcUses l (leAt b 48 4 % 2 ^ 20) (leAt b 52 4 % 2 ^ 20) (leAt b 56 4 % 2 ^ 20) true true, s.dev.slotBad n = false) →
    firstFail (s.dev.sessChecks j) = none → 2 * l.n * l.u ≤ s.dev.arc.stageSize →
    (j.arcPhase < 2 → (j.arcPhase = 0 → j.total = l.size) → j.total ≤ l.size →
      (∀ w ∈ s.dev.arc.works, ∀ x, w.wr = some x → x.lay.objId = l.objId → x.lay.gen ≠ l.gen) →
      Runs (.objPut q pos block targets none) s fun d =>
        (∃ w x, d.work s.dev.arc.nextId = some w ∧ w.op = 0x20 ∧ w.ten = j.ten ∧ w.cur = some pos ∧ w.want = j.total ∧ w.off = 0 ∧
          w.granted = false ∧ w.set = 2 * l.n * l.u ∧ w.session = (if j.arcPhase = 1 then some j.arcSession else none) ∧ w.wr = some x ∧
          x.lay = l ∧ x.tgts = arcTable targets l.n ∧ x.t = 0 ∧ x.stage = 0 ∧ x.failed = [] ∧ x.tol = fld j.firstE.d5 55 48) ∧
        d.jobFind q pos = some { j with reading := true, need := j.total } ∧ Agree [.arc, .jobs, .hifPorts] s.dev d) ∧
    (∀ w, 2 ≤ j.arcPhase → s.dev.session j.ten j.arcSession = some w → (j.arcPhase = 3 → w.off + j.total = l.size) →
      w.off + j.total ≤ l.size → (∀ v ∈ s.dev.arc.works, v.id ≠ w.id → ∀ x, v.wr = some x → x.lay.objId = l.objId → x.lay.gen ≠ l.gen) →
      Runs (.objPut q pos block targets none) s fun d =>
        d.work w.id = some { w with
            cur := some pos, phase := j.arcPhase, granted := false, set := 2 * l.n * l.u, base := w.off, want := j.total,
            manOut := j.firstE.d4.toNat } ∧
        d.jobFind q pos = some { j with reading := true, need := j.total } ∧ Agree [.arc, .jobs, .hifPorts] s.dev d)) ∧
  (∀ (s : State) (q pos : Nat) (block targets man pub : List Byte) (j : Job) (b : List Byte) (l : ArcLay), ArcBegins s q pos 0x21 j →
    b = fitTo 256 block → l = arcOfMan man → ArcReads s.dev j b targets man pub true → j.arcOff + j.total ≤ l.size →
    2 * l.n * l.u ≤ s.dev.arc.stageSize →
    (j.arcPhase < 2 → Runs (.objGet q pos block targets man pub none) s fun d =>
      (∃ w x, d.work s.dev.arc.nextId = some w ∧ w.op = 0x21 ∧ w.ten = j.ten ∧ w.cur = some pos ∧ w.off = j.arcOff ∧ w.base = j.arcOff ∧
        w.want = j.total ∧ w.granted = false ∧ w.rd = some x ∧ x.lay = l ∧ x.missing = manMissing man l.n ∧
        x.use = firstShards l (manMissing man l.n) (leAt b 46 1) false ∧ x.t = j.arcOff / (l.k * l.u) ∧
        x.tEnd = ceilDiv (j.arcOff + j.total) (l.k * l.u)) ∧ Agree [.arc, .toll] s.dev d) ∧
    (∀ w x, 2 ≤ j.arcPhase → s.dev.session j.ten j.arcSession = some w → w.off = j.arcOff → w.rd = some x →
      Runs (.objGet q pos block targets man pub none) s fun d =>
        d.work w.id = some { w with
            cur := some pos, phase := j.arcPhase, granted := false, set := 2 * l.n * l.u, base := j.arcOff, off := j.arcOff, want := j.total,
            rd := some { x with tEnd := max x.t (ceilDiv (j.arcOff + j.total) (l.k * l.u)), decoded := 0, usedMap := [] } } ∧
        Agree [.arc, .toll] s.dev d)) ∧
  (∀ (s : State) (q pos : Nat) (block targets man pub : List Byte) (j : Job) (b : List Byte) (l : ArcLay), ArcBegins s q pos 0x22 j →
    b = fitTo 256 block → l = arcOfMan man → ArcReads s.dev j b targets man pub (decide (leAt b 47 1 ≠ 0)) → leAt b 47 1 ≤ 2 →
    16 + 8 * l.n ≤ j.total → 2 * l.n * l.u ≤ s.dev.arc.stageSize → Runs (.objVerify q pos block targets man pub none) s fun d =>
      (∃ w x, d.work s.dev.arc.nextId = some w ∧ w.op = 0x22 ∧ w.cur = some pos ∧ w.granted = false ∧ w.rd = some x ∧ x.lay = l ∧
        x.level = leAt b 47 1 ∧ x.use = (List.range l.n).filter (fun i => !(manMissing man l.n).contains i) ∧ x.t = 0 ∧
        x.tEnd = l.stripes) ∧ Agree [.arc, .toll] s.dev d) ∧
  (∀ (s : State) (q pos : Nat) (block targets newTargets man pub : List Byte) (j : Job) (b : List Byte) (l n : ArcLay), ArcBegins s q pos 0x23 j →
    b = fitTo 256 block → l = arcOfMan man → n = newLay b l → ArcReads s.dev j b targets man pub true → n.bad 128 44 = none →
    n.manLen ≤ j.total → s.dev.tableBad newTargets n n.manLen = none →
    partOverlap (arcTable newTargets n.n) (arcTable newTargets n.n) = false → partOverlap (arcTable targets l.n) (arcTable newTargets n.n) = false →
    firstFail (s.dev.arcSlots j.ten n (leAt b 132 4 % 2 ^ 20) (leAt b 52 4 % 2 ^ 20) (leAt b 56 4 % 2 ^ 20) true true) = none →
    (∀ i ∈ arcUses n (leAt b 132 4 % 2 ^ 20) (leAt b 52 4 % 2 ^ 20) (leAt b 56 4 % 2 ^ 20) true true, s.dev.slotBad i = false) →
    s.dev.tableCtx j.ten (arcTable newTargets n.n) = true →
    (arcTable targets l.n).any (fun x => (arcTable newTargets n.n).any x.same) = false →
    max (2 * l.n * l.u) (2 * n.n * n.u) ≤ s.dev.arc.stageSize → Runs (.objMigrate q pos block targets newTargets man pub none) s fun d =>
      (∃ w x y, d.work s.dev.arc.nextId = some w ∧ w.op = 0x23 ∧ w.cur = some pos ∧ w.granted = false ∧ w.inPlace = false ∧
        w.recAddr = leAt b 120 8 ∧ w.rd = some x ∧ x.lay = l ∧ x.t = 0 ∧ x.tEnd = l.stripes ∧ w.wr = some y ∧ y.lay = n ∧
        y.tgts = arcTable newTargets n.n ∧ y.prev = sha256 (fitTo (leAt b 104 4) man) ∧ y.tol = 0) ∧ Agree [.arc, .toll] s.dev d) ∧
  (∀ (s : State) (q pos op st det : Nat) (block targets newTargets man pub : List Byte) (j : Job) (c : Instr), ArcBegins s q pos op j →
    (op = 0x20 ∧ c = .objPut q pos block targets (some (st, det))) ∨ (op = 0x21 ∧ c = .objGet q pos block targets man pub (some (st, det))) ∨
      (op = 0x22 ∧ c = .objVerify q pos block targets man pub (some (st, det))) ∨
      (op = 0x23 ∧ c = .objMigrate q pos block targets newTargets man pub (some (st, det))) →
    Runs c s fun d => d.jobFind q pos = some { j with res := some { status := st, detail := det } } ∧ Agree [.jobs] s.dev d)

/-- The archive engine at work: staging, stripes, acknowledgements, and its commands. -/
def Obligations.ArchiveEngine : Prop :=
  (∀ (s : State) (id pos : Nat) (w : ArcWork) (j : Job), Alive s → ArcSteady s.dev → ArcRuns s.dev id pos w j →
    s.dev.arc.works.find? (fun x => x.cur.isSome && !x.granted) = some w → s.dev.stageUsed + w.set ≤ s.dev.arc.stageSize →
    (s.dev.arc.works.filter (fun x => x.granted)).length < 64 →
    (w.rd = none → w.moved ≠ w.want → (∀ x, w.wr = some x → x.whole = false ∧ x.stage = 0) → Runs .stagingGrant s fun b => b.work id = some { w with granted := true } ∧ Agree [.arc] s.dev b) ∧
    (∀ x, w.rd = some x → w.op ≠ 0x21 ∨ w.phase < 2 → x.use ≠ [] → Runs .stagingGrant s fun b =>
      (∃ y r, b.work id = some y ∧ y.granted = true ∧ y.rd = some r ∧ r.hdrs = x.hdrs ++ x.use ∧ r.t = x.t) ∧ OnlyRegs [] s.dev b)) ∧
  (∀ (s : State) (w : ArcWork), Alive s → ArcSteady s.dev → s.dev.arc.works.find? (fun x => x.cur.isSome && !x.granted) = some w →
    s.dev.arc.stageSize < s.dev.stageUsed + w.set → Runs .stagingGrant s fun b => b = s.dev) ∧
  (∀ (s : State) (id pos : Nat) (ecc : Ecc) (w : ArcWork) (j : Job), ArcNext s id pos w j →
    (∃ a ∈ ecc.ueLines, s.dev.arc.stageBase ≤ a ∧ a < s.dev.arc.stageBase + s.dev.arc.stageSize) → Runs (.archiveStripe ecc) s fun b =>
      ∃ r, b.jobFind w.sq pos = some { j with res := some r } ∧ r.status = St.INTEGRITY ∧ r.detail = 0x40) ∧
  (∀ (s : State) (id pos : Nat) (w : ArcWork) (j : Job), ArcNext s id pos w j →
    (∀ x l data take u, w.op = 0x20 → w.rd = none → w.wr = some x → l = x.lay → x.stage = 0 → x.t + 1 < l.stripes →
      take = min (s.dev.putAvail w).length (x.needs - x.inbuf.length) → x.needs ≤ x.inbuf.length + (s.dev.putAvail w).length →
      w.moved + take < w.want → data = (x.inbuf ++ (s.dev.putAvail w).take take).take x.needs → u = l.unit x.t →
      Runs (.archiveStripe {}) s fun b =>
        (∃ y z, b.work id = some y ∧ y.off = w.off + take ∧ y.wr = some z ∧ z.t = x.t + 1 ∧ z.obj = x.obj ++ data ∧
          ∀ i, i < x.files.length → z.files.getD i [] = (if x.t = 0 then l.header i else x.files.getD i []) ++
            l.seal_ (x.keys.getD i []) i x.t (gfUnit l.k i u ((List.range l.k).map (fun n => slice data (n * u) u)))) ∧ OnlyRegs [] s.dev b) ∧
    (∀ x l absent bytes, w.op = 0x21 → w.rd = some x → l = x.lay → x.t + 1 < x.tEnd → w.rdReady = true → x.hdrs = [] →
      (∃ i ∈ x.hdrOk, i ∉ x.bad) → absent = (List.range l.k).any (fun i => (kvFind i x.good).isNone) →
      bytes = ((if absent = true then gfDecode l.k x.good else x.good.map Prod.snd).flatten).take (l.bytesIn x.t) →
      w.off < w.base + w.want → x.t0 * (l.k * l.u) + x.obj.length + bytes.length < w.base + w.want → Runs (.archiveStripe {}) s fun b =>
        (∃ y r, b.work id = some y ∧ y.off = max w.off (x.t0 * (l.k * l.u) + x.obj.length + bytes.length) ∧ y.rd = some r ∧
          r.t = x.t + 1 ∧ r.obj = x.obj ++ bytes ∧ r.good = [] ∧ r.decoded = x.decoded + b2n absent) ∧
        b.reg Reg.ARC_DECODED = (if absent = true then counterAdd (s.dev.reg Reg.ARC_DECODED) 1 else s.dev.reg Reg.ARC_DECODED))) ∧
  (∀ (s : State) (id pos n what : Nat) (w : ArcWork) (j : Job) (x : ArcWr) (c : BlkCmd) (out : List Nat), Alive s →
    s.dev.arc.acks.find? (fun b => b.arcWrite == true) = some c → c.for_ = .arc id n what → ArcRuns s.dev id pos w j → w.wr = some x →
    out = x.out.set n (x.out.getD n 0 - 1) →
    (c.good = true → (∃ k ∈ out, k ≠ 0) → Runs .shardWriteAck s fun b =>
      b.work id = some { w with wr := some { x with out := out } } ∧ b.arc.acks = s.dev.arc.acks.erase c ∧ Agree [.arc, .toll] s.dev b) ∧
    (c.good = false → n ∉ x.failed → (∃ k ∈ out, k ≠ 0) → Runs .shardWriteAck s fun b =>
      b.work id = some { w with wr := some { x with out := out, failed := x.failed ++ [n] } } ∧ b.arc.acks = s.dev.arc.acks.erase c ∧
      b.reg Reg.ARC_TGT_FAIL = counterAdd (s.dev.reg Reg.ARC_TGT_FAIL) 1 ∧ OnlyRegs [Reg.ARC_TGT_FAIL] s.dev b) ∧
    (c.good = true → (∀ k ∈ out, k = 0) → x.stage = 1 → w.op = 0x20 → x.failed.length ≤ x.tol → w.phase ≠ 1 → w.phase ≠ 2 → Runs .shardWriteAck s fun b =>
      (∃ y r, b.jobFind w.sq pos = some y ∧ y.res = some r ∧ r.status = 0 ∧ r.detail = b2n (!x.failed.isEmpty) ∧
        r.len = w.moved % 2 ^ 32 ∧ r.d3 = x.man.length) ∧
      b.reg Reg.ARC_PUT_CNT = counterAdd (s.dev.reg Reg.ARC_PUT_CNT) 1) ∧
    (c.good = true → (∀ k ∈ out, k = 0) → x.whole = true → x.tol < x.failed.length → Runs .shardWriteAck s fun b =>
      (∃ y r, b.jobFind w.sq pos = some y ∧ y.res = some r ∧ r.status = St.REMOTE ∧ r.detail = 0x100 + x.lowFailed) ∧ OnlyRegs [] s.dev b)) ∧
  (∀ (s : State) (id pos n what : Nat) (w : ArcWork) (j : Job) (x : ArcRd) (c : BlkCmd), Alive s →
    s.dev.arc.acks.find? (fun b => b.arcWrite == false) = some c → c.for_ = .arc id n what → ArcRuns s.dev id pos w j → w.rd = some x →
    w.granted = true →
    (what % 8 = 2 → c.good = true → fitTo 128 c.got = x.lay.header n → (∃ m ∈ x.hdrs, m ≠ n) → w.op ≠ 0x22 → Runs .shardReadDone s fun b =>
      b.work id = some { w with rd := some { x with hdrs := x.hdrs.filter (· ≠ n), hdrOk := x.hdrOk ++ [n] } } ∧
      b.arc.acks = s.dev.arc.acks.erase c ∧ Agree [.arc, .toll] s.dev b) ∧
    (what % 8 = 2 → c.good = true → fitTo 128 c.got ≠ x.lay.header n → (∃ m ∈ x.hdrs, m ≠ n) → Runs .shardReadDone s fun b =>
      (∃ y r, b.work id = some y ∧ y.rd = some r ∧ r.bad = x.bad ++ [n] ∧ r.hdrOk = x.hdrOk) ∧
      b.reg Reg.ARC_HDR_FAIL = counterAdd (s.dev.reg Reg.ARC_HDR_FAIL) 1 ∧ OnlyRegs [Reg.ARC_HDR_FAIL] s.dev b) ∧
    (∀ u, what % 8 = 3 → what / 8 = x.t → c.good = true → w.op = 0x21 → (∀ m ∈ x.hdrOk, m ∈ x.bad ∨ m ∈ x.asked) → (∃ m ∈ x.outst, m ≠ n) → x.good.length < x.lay.k →
      x.lay.unseal (x.keys.getD n []) n x.t (slice c.got (x.lay.recAt x.t % (x.tgts.getD n default).lba) (x.lay.unit x.t + 16)) = some u →
      Runs .shardReadDone s fun b =>
        b.work id = some { w with rd := some { x with outst := x.outst.filter (· ≠ n), good := kvPut n u x.good } } ∧ Agree [.arc, .toll] s.dev b) ∧
    (what % 8 = 3 → what / 8 = x.t → c.good = true → w.op = 0x21 → (∀ m ∈ x.hdrOk, m ∈ x.bad ∨ m ∈ x.asked) → (∃ m ∈ x.outst, m ≠ n) →
      x.lay.unseal (x.keys.getD n []) n x.t (slice c.got (x.lay.recAt x.t % (x.tgts.getD n default).lba) (x.lay.unit x.t + 16)) = none →
      Runs .shardReadDone s fun b =>
        (∃ y r, b.work id = some y ∧ y.rd = some r ∧ r.good = x.good) ∧
        b.reg Reg.ARC_TAG_FAIL = counterAdd (s.dev.reg Reg.ARC_TAG_FAIL) 1 ∧ OnlyRegs [Reg.ARC_TAG_FAIL] s.dev b)) ∧
  (∀ (s : State) (e : AdmEntry), AdmReady s →
    (Priv e s → e.d3.toNat % 2 ^ 20 = 0 → e.d4.toNat % 2 ^ 20 = 0 → 2 ^ 29 ≤ e.d4.toNat → e.d3.toNat + e.d4.toNat ≤ hbmReserved →
      s.dev.arc.works = [] → Completes (.arcCfg e) e 0x58 s fun b =>
        b.arc = { s.dev.arc with stageBase := e.d3.toNat, stageSize := e.d4.toNat } ∧ OnlyRegs [] s.dev b) ∧
    (∀ w, Owns e e.ten s → s.dev.ctxOwner (AdmEntry_slot e) = some e.ten → s.dev.session e.ten (AdmEntry_slot e) = some w → w.cur = none →
      Completes (.arcSessionAbort e) e 0x59 s fun b =>
        b.work w.id = none ∧ (∀ k, k ≠ w.id → b.work k = s.dev.work k) ∧ OnlyRegs [] s.dev b) ∧
    (Owns e e.ten s → s.dev.ctxOwner (AdmEntry_slot e) = none → s.dev.session e.ten (AdmEntry_slot e) = none →
      Runs (.arcSessionAbort e) s fun b => AdmEnded s.dev b e 0x59 St.STATE 0 ∧ b.arc = s.dev.arc) ∧
    (∀ r, Priv e s → e.len = 256 → kvFind (e.d3.toNat % 1048576) s.dev.arc.journal = some (e.d3.toNat, r) → r ≠ [] →
      Completes (.arcJournalRead e) e 0x5A s fun b =>
        Out.hostWrite (.pf e.pf) none e.d1.toNat r false ∈ b.out ∧ b.arc = s.dev.arc ∧ OnlyRegs [] s.dev b))

/-! The packet cores (R347 to R384). -/

/-- A frame reaches a core, and what the token and packet instructions of a thread do with it. -/
def Obligations.CoreTokens : Prop :=
  (∀ (s : State) (tok h n : Nat) (p : Packet), Alive s → s.dev.pkt tok = some p → p.stage = .handler h →
    (bitOf (s.dev.hnd h) 63 = true → fld (s.dev.hnd h) 47 32 ≠ 0 → fld (s.dev.hnd h) 31 16 ≠ 0 → n = coreOf (s.dev.hnd h) p.cls.hash →
      (s.dev.core n).frozen = false → (s.dev.core n).hq.length < 256 → Runs (.handlerDispatch tok) s fun b =>
        (b.core n).hq = (s.dev.core n).hq ++ [(tok, h)] ∧ b.pkt tok = some { p with stage := .core n } ∧ OnlyRegs [] s.dev b) ∧
    (bitOf (s.dev.hnd h) 63 = false → Runs (.handlerDispatch tok) s fun b =>
      b.pkt tok = none ∧ b.cpu = s.dev.cpu ∧ b.reg Reg.CORE_NO_HND = counterAdd (s.dev.reg Reg.CORE_NO_HND) 1 ∧
      OnlyRegs [Reg.CORE_NO_HND] s.dev b) ∧
    (bitOf (s.dev.hnd h) 63 = true → fld (s.dev.hnd h) 47 32 ≠ 0 → fld (s.dev.hnd h) 31 16 ≠ 0 → bitOf (s.dev.hnd h) 61 = false →
      n = coreOf (s.dev.hnd h) p.cls.hash → (s.dev.core n).frozen = false → 256 ≤ (s.dev.core n).hq.length →
      Runs (.handlerDispatch tok) s fun b =>
        b.pkt tok = none ∧ b.cpu = s.dev.cpu ∧ b.reg Reg.CORE_HQ_DROP = counterAdd (s.dev.reg Reg.CORE_HQ_DROP) 1 ∧
        OnlyRegs [Reg.CORE_HQ_DROP] s.dev b)) ∧
  (∀ (s : State) (g rd rs1 : Nat) (t : Thread), Issues s g t →
    ((s.dev.core (g / 8)).hq = [] → Runs (.tknext g rd rs1) s fun b => Retires b g t rd (2 ^ 63) ∧ Agree [.cpu] s.dev b) ∧
    (∀ tok h rest p, (s.dev.core (g / 8)).hq = (tok, h) :: rest → (s.dev.core (g / 8)).held.length < 512 → s.dev.pkt tok = some p →
      (t.x rs1).toNat % 16 = 0 → (t.x rs1).toNat + 48 ≤ 0x30000 → Runs (.tknext g rd rs1) s fun b =>
        Retires b g t rd tok ∧ (b.core (g / 8)).hq = rest ∧ kvFind tok (b.core (g / 8)).held = some (some h) ∧
        b.locRead g (t.x rs1).toNat 48 = p.record tok ∧ Agree [.cpu, .hbm] s.dev b) ∧
    (0 < (t.x rs1).toNat → (t.x rs1).toNat ≤ 16000 → (s.dev.core (g / 8)).held.length < 512 → ∀ tok q,
      s.dev.sq.store { pool := 18, cells := 0, data := List.replicate (t.x rs1).toNat 0#8, stage := .core (g / 8), port := 18 } = some (tok, q) →
      Runs (.tknew g rd rs1) s fun b =>
        Retires b g t rd tok ∧ kvFind tok (b.core (g / 8)).held = some none ∧ b.glb.square = q ∧ Agree [.square, .cpu] s.dev b) ∧
    ((t.x rs1).toNat = 0 ∨ 16000 < (t.x rs1).toNat → Runs (.tknew g rd rs1) s fun b => Retires b g t rd (2 ^ 63) ∧ Agree [.cpu] s.dev b)) ∧
  (∀ (s : State) (g rd rs1 rs2 : Nat) (t : Thread) (p : Packet) (tok : Nat), Issues s g t → HasToken s g (t.x rs1) p → tok = (t.x rs1).toNat →
    Runs (.tkfree g rs1) s (fun b =>
      b.thread g = t.past 4 ∧ kvFind tok (b.core (g / 8)).held = none ∧ b.pkt tok = none ∧ OnlyRegs [] s.dev b) ∧
    Runs (.tkfwd g rs1 rs2) s (fun b =>
      b.thread g = t.past 4 ∧ kvFind tok (b.core (g / 8)).held = none ∧
      b.pkt tok = some { p with stage := .classified, cls := { p.cls with av := true, action := fld (t.x rs2) 16 0 } } ∧ OnlyRegs [] s.dev b) ∧
    Runs (.tkexc g rs1 rs2) s (fun b => b.thread g = t.past 4 ∧ kvFind tok (b.core (g / 8)).held = none) ∧
    (∀ d, (s.dev.giveUp g tok).toReentry tok = some d → Runs (.tkrecl g rs1) s fun b =>
      b.thread g = t.past 4 ∧ kvFind tok (b.core (g / 8)).held = none ∧ b.glb.square = d.glb.square ∧ b.cls = d.cls) ∧
    ((s.dev.giveUp g tok).toReentry tok = none → Runs (.tkrecl g rs1) s fun b => b = s.dev) ∧
    (∀ k d, k = (t.x rs2).toInt → 1 ≤ (p.data.length : Int) - k → (p.data.length : Int) - k ≤ 16128 →
      s.dev.resizePkt tok (if 0 ≤ k then p.data.drop k.toNat else List.replicate (-k).toNat 0#8 ++ p.data) = some d →
      Runs (.hadj g rd rs1 rs2) s fun b => Retires b g t rd 0 ∧ b.glb.square = d.glb.square ∧ Agree [.square, .cpu] s.dev b) ∧
    ((p.data.length : Int) - (t.x rs2).toInt < 1 ∨ 16128 < (p.data.length : Int) - (t.x rs2).toInt →
      Runs (.hadj g rd rs1 rs2) s fun b => Retires b g t rd 1 ∧ Agree [.cpu] s.dev b) ∧
    (∀ d, 1 ≤ (t.x rs2).toNat → (t.x rs2).toNat ≤ 16128 → s.dev.resizePkt tok (fitTo (t.x rs2).toNat p.data) = some d →
      Runs (.hlen g rd rs1 rs2) s fun b => Retires b g t rd 0 ∧ b.glb.square = d.glb.square ∧ Agree [.square, .cpu] s.dev b) ∧
    (1 ≤ (t.x rs2).toNat → (t.x rs2).toNat ≤ 16128 → s.dev.resizePkt tok (fitTo (t.x rs2).toNat p.data) = none →
      Runs (.hlen g rd rs1 rs2) s fun b => Retires b g t rd 2 ∧ Agree [.cpu] s.dev b) ∧
    (∀ imm size, imm + size ≤ p.data.length → Runs (.hld g rd rs1 imm size) s fun b =>
      Retires b g t rd (beAt p.data imm size) ∧ Agree [.cpu] s.dev b) ∧
    (∀ imm size, p.data.length < imm + size → Runs (.hld g rd rs1 imm size) s fun b => Traps s b g t 25 (BitVec.ofNat 64 imm)) ∧
    (∀ imm size, imm + size ≤ p.data.length → Runs (.hst g rs1 rs2 imm size) s fun b =>
      b.thread g = t.past 4 ∧ b.pkt tok = some { p with data := patch p.data imm (beBytes size (t.x rs2).toNat) } ∧
      Agree [.square, .cpu] s.dev b) ∧
    (∀ x off n a, (t.x rs2).toNat + 16 ≤ 0x30000 → x = s.dev.locRead g (t.x rs2).toNat 16 → off = leAt x 0 4 → n = leAt x 4 4 →
      a = leAt x 8 8 → 1 ≤ n → n ≤ 4096 → off + n ≤ p.data.length → a + n ≤ 0x30000 →
      Runs (.pkrd g rd rs1 rs2) s (fun b =>
        Retires b g t rd 0 ∧ b.locRead g a n = slice p.data off n ∧ b.pkt tok = some p ∧ Agree [.cpu] s.dev b) ∧
      Runs (.pkwr g rd rs1 rs2) s (fun b =>
        Retires b g t rd 0 ∧ b.pkt tok = some { p with data := patch p.data off (s.dev.locRead g a n) } ∧ Agree [.square, .cpu] s.dev b))) ∧
  (∀ (s : State) (g rs1 rs2 : Nat) (t : Thread), Issues s g t → kvFind (t.x rs1).toNat (s.dev.core (g / 8)).held = none →
    Runs (.tkfree g rs1) s (fun b => Traps s b g t 24 (t.x rs1)) ∧ Runs (.tkfwd g rs1 rs2) s (fun b => Traps s b g t 24 (t.x rs1)) ∧
    Runs (.tkrecl g rs1) s (fun b => Traps s b g t 24 (t.x rs1)) ∧ Runs (.tkexc g rs1 rs2) s (fun b => Traps s b g t 24 (t.x rs1))) ∧
  (∀ (s : State) (g rd rs1 rs2 op size ilen : Nat) (imm : Int) (signed : Bool) (t : Thread) (a : Nat), Issues s g t → a = t.ea rs1 imm →
    (a % max 1 size = 0 → a + size ≤ 0x30000 → Runs (.threadAccess g (.load rd rs1 imm size signed ilen)) s fun b =>
      b.thread g = (t.setX rd (loadValue size signed (leAt (s.dev.locRead g a size) 0 size))).past ilen ∧ Agree [.cpu] s.dev b) ∧
    (a % max 1 size ≠ 0 → Runs (.threadAccess g (.load rd rs1 imm size signed ilen)) s fun b => Traps s b g t 4 (BitVec.ofNat 64 a)) ∧
    (a % max 1 size = 0 → 0x30000 ≤ a → a + size ≤ 0x100000 → 1 ≤ size → Runs (.threadAccess g (.load rd rs1 imm size signed ilen)) s fun b =>
      Traps s b g t 5 (BitVec.ofNat 64 a)) ∧
    (a % max 1 size = 0 → a + size ≤ 0x30000 → Runs (.threadAccess g (.store rs1 rs2 imm size ilen)) s fun b =>
      b.thread g = t.past ilen ∧ b.locRead g a size = leBytes size (t.x rs2).toNat ∧ Agree [.cpu] s.dev b) ∧
    (a % max 1 size = 0 → 0x30000 ≤ a → a + size ≤ 0x100000 → 1 ≤ size → Runs (.threadAccess g (.store rs1 rs2 imm size ilen)) s fun b =>
      Traps s b g t 7 (BitVec.ofNat 64 a)) ∧
    (op ≤ 8 → imm = 0 → size = 4 ∨ size = 8 → a % size = 0 → a + size ≤ 0x30000 → Runs (.threadAccess g (.amo op rd rs1 rs2 size)) s fun b =>
      b.thread g = (t.setX rd (loadValue size true (leAt (s.dev.locRead g a size) 0 size))).past 4 ∧
      b.locRead g a size = leBytes size (amoValue op size (leAt (s.dev.locRead g a size) 0 size) ((t.x rs2).toNat % 2 ^ (8 * size))) ∧
      Agree [.cpu] s.dev b) ∧
    (imm = 0 → size = 4 ∨ size = 8 → a % size = 0 → a + size ≤ 0x30000 →
      Runs (.threadAccess g (.amo 9 rd rs1 rs2 size)) s (fun b => (b.thread g).resv = some (a / 64) ∧ Agree [.cpu] s.dev b) ∧
      (t.resv = some (a / 64) → Runs (.threadAccess g (.amo 10 rd rs1 rs2 size)) s fun b =>
        b.thread g = ({ t with resv := none }.setX rd 0#64).past 4 ∧ b.locRead g a size = leBytes size ((t.x rs2).toNat % 2 ^ (8 * size)) ∧
        Agree [.cpu] s.dev b) ∧
      (t.resv ≠ some (a / 64) → Runs (.threadAccess g (.amo 10 rd rs1 rs2 size)) s fun b =>
        b.thread g = ({ t with resv := none }.setX rd 1#64).past 4 ∧ b.locRead g a size = s.dev.locRead g a size ∧ Agree [.cpu] s.dev b)))

/-- Lookups, events, timers, counters, the other threads' registers, and channels. -/
def Obligations.CoreThreads : Prop :=
  (∀ (s : State) (g rd rs1 rs2 : Nat) (t : Thread), Issues s g t →
    (t.lookups.length < 16 → (t.x rs1).toNat % 64 = 0 → (t.x rs1).toNat + 64 ≤ 0x30000 → (t.x rs2).toNat % 64 = 0 →
      (t.x rs2).toNat + 64 ≤ 0x30000 → Runs (.lkup g rd rs1 rs2) s fun b =>
        Retires b g {
            t with
            lookups := t.lookups ++ [{ seq := t.seq, req := s.dev.locRead g (t.x rs1).toNat 64, result := (t.x rs2).toNat }],
            seq := (t.seq + 1) % 2 ^ 64 } rd t.seq ∧ Agree [.cpu] s.dev b) ∧
    (16 ≤ t.lookups.length → Runs (.lkup g rd rs1 rs2) s fun b => b = s.dev) ∧
    (fld (t.x rs1) 15 0 = 0 → Runs (.evwait g rd rs1) s fun b => Retires b g t rd 0 ∧ Agree [.cpu] s.dev b) ∧
    (fld (t.x rs1) 15 0 ≠ 0 → andNat (s.dev.pending g) (fld (t.x rs1) 15 0) = 0 → Runs (.evwait g rd rs1) s fun b =>
      b.thread g = { t with st := 2, wait := some (rd, fld (t.x rs1) 15 0) } ∧ Agree [.cpu] s.dev b) ∧
    (andNat (s.dev.pending g) (fld (t.x rs1) 15 0) ≠ 0 → Runs (.evwait g rd rs1) s fun b =>
      (b.thread g).st = 1 ∧ (b.thread g).wait = none ∧ (b.thread g).pc = (t.pc + 4) % 2 ^ 64 ∧
      (rd % 32 ≠ 0 → (b.thread g).x rd = BitVec.ofNat 64 (andNat (s.dev.pending g) (fld (t.x rs1) 15 0))) ∧ Agree [.cpu, .hbm] s.dev b) ∧
    ((∀ i, i < 8 → bitOf (t.x rs1) i = false) → Runs (.evsig g rs1) s fun b => b.thread g = t.past 4 ∧ Agree [.cpu] s.dev b) ∧
    (∀ i, i < 8 → bitOf (t.x rs1) i = true → (s.dev.core (g / 8)).threads.length = 8 → 8 * (g / 8) + i ≠ g →
      (s.dev.thread (8 * (g / 8) + i)).st ≠ 2 → (∀ k, k < 8 → k ≠ i → bitOf (t.x rs1) k = false) → Runs (.evsig g rs1) s fun b =>
        b.thread g = t.past 4 ∧ (b.thread (8 * (g / 8) + i)).events / 16 % 2 = 1 ∧ Agree [.cpu] s.dev b) ∧
    Runs (.tmset g rs1) s (fun b =>
      b.thread g = { t with timer := if fld (t.x rs1) 39 0 = 0 then none else some (fld (t.x rs1) 39 0) }.past 4 ∧ Agree [.cpu] s.dev b) ∧
    (∀ a r, (t.x rs1).toNat % 8 = 0 → s.dev.spot g (t.x rs1).toNat 8 = .win a r true → a % 8 = 0 → s.dev.hbm.poisoned a 8 = false →
      Runs (.ctadd g rs1 rs2) s fun b =>
        b.thread g = t.past 4 ∧ b.hbm.bytes a 8 = leBytes 8 (leAt (s.dev.hbm.bytes a 8) 0 8 + (t.x rs2).toNat) ∧ OnlyBytes a 8 s.dev b ∧
        Agree [.hbm, .cpu] s.dev b) ∧
    ((t.x rs1).toNat % 8 = 0 → (t.x rs1).toNat + 8 ≤ 0x30000 → Runs (.ctadd g rs1 rs2) s fun b => Traps s b g t 7 (t.x rs1)) ∧
    (s.dev.ctrV (fld (t.x rs1) 23 0) = false → Runs (.ctpb g rs1 rs2) s fun b =>
      b.thread g = t.past 4 ∧ b.reg Reg.CORE_CT_BAD = counterAdd (s.dev.reg Reg.CORE_CT_BAD) 1 ∧ OnlyRegs [Reg.CORE_CT_BAD] s.dev b ∧
      OnlyBytes 0 0 s.dev b) ∧
    (∀ n, n = fld (t.x rs1) 23 0 → s.dev.ctrV n = true → Runs (.ctpb g rs1 rs2) s fun b =>
      b.thread g = t.past 4 ∧ OnlyBytes (s.dev.ctrAddr n) 16 s.dev b ∧ Agree [.hbm, .cpu] s.dev b ∧
      b.hbm.bytes (s.dev.ctrAddr n) 16 = leBytes 8 (leAt (s.dev.hbm.bytes (s.dev.ctrAddr n) 16) 0 8 + 1) ++
        leBytes 8 (leAt (s.dev.hbm.bytes (s.dev.ctrAddr n) 16) 8 8 + (t.x rs2).toNat)) ∧
    (∀ o, g % 8 = 0 → (s.dev.core (g / 8)).threads.length = 8 → o = g + fld (t.x rs2) 2 0 → fld (t.x rs2) 2 0 ≠ 0 → fld (t.x rs2) 13 8 ≤ 34 →
      ((s.dev.thread o).parked = true → Runs (.twr g rd rs1 rs2) s fun b =>
        Retires b g t rd 0 ∧ b.thread o = (s.dev.thread o).regPut (fld (t.x rs2) 13 8) (t.x rs1) ∧ Agree [.cpu] s.dev b) ∧
      ((s.dev.thread o).parked = false → Runs (.twr g rd rs1 rs2) s fun b =>
        Retires b g t rd 1 ∧ b.thread o = s.dev.thread o ∧ Agree [.cpu] s.dev b)) ∧
    (g % 8 = 0 → fld (t.x rs1) 2 0 ≠ 0 → fld (t.x rs1) 13 8 ≤ 34 → Runs (.trd g rd rs1) s fun b =>
      Retires b g t rd ((s.dev.thread (g + fld (t.x rs1) 2 0)).regAt (fld (t.x rs1) 13 8)).toNat ∧ Agree [.cpu] s.dev b) ∧
    (g % 8 = 0 → (s.dev.core (g / 8)).threads.length = 8 →
      Runs (.coreThrGo g rd rs1) s (fun b =>
        Retires b g t rd (s.dev.core (g / 8)).released ∧
        (∀ i, 1 ≤ i → i < 8 → bitOf (t.x rs1) i = true → (s.dev.thread (g + i)).parked = true → (b.thread (g + i)).st = 1) ∧
        (∀ i, 1 ≤ i → i < 8 → bitOf (t.x rs1) i = false → b.thread (g + i) = s.dev.thread (g + i)) ∧ Agree [.cpu] s.dev b) ∧
      Runs (.coreThrStop g rd rs1) s (fun b =>
        Retires b g t rd 0 ∧
        (∀ i, 1 ≤ i → i < 8 → bitOf (t.x rs1) i = true → (s.dev.thread (g + i)).parked = false →
          (b.thread (g + i)).st = 4 ∧ (b.thread (g + i)).msg = none) ∧
        (∀ i, 1 ≤ i → i < 8 → bitOf (t.x rs1) i = false → b.thread (g + i) = s.dev.thread (g + i)) ∧
        OnlyRegs [Reg.CORE_CH_ABANDON] s.dev b)) ∧
    (∀ cause v, g % 8 ≠ 0 → Runs (.coreException g cause v false) s fun b =>
      (b.thread g).st = 5 ∧ (b.thread g).cause = cause ∧ (b.thread g).mtval = v ∧ (b.thread g).msg = none) ∧
    (∀ cause v c, g % 8 = 0 → c = s.dev.core (g / 8) → c.inTrap = false → Runs (.coreException g cause v false) s fun b =>
      (b.thread g).pc = c.mtvec.toNat / 4 * 4 ∧ (b.core (g / 8)).inTrap = true ∧ (b.core (g / 8)).mepc = BitVec.ofNat 64 t.pc ∧
      (b.core (g / 8)).mcause = BitVec.ofNat 64 cause ∧ (b.core (g / 8)).mtval = v ∧ Agree [.cpu, .hbm] s.dev b) ∧
    (∀ cause v c, g % 8 = 0 → c = s.dev.core (g / 8) → c.inTrap = true → Runs (.coreException g cause v false) s fun b =>
      (b.core (g / 8)).frozen = true ∧ (b.core (g / 8)).cause = 2 ∧ (b.core (g / 8)).hq = [] ∧ (b.core (g / 8)).held = [] ∧
      b.reg Reg.CORE_FAULT_CNT = counterAdd (s.dev.reg Reg.CORE_FAULT_CNT) 1) ∧
    (∀ cause v, g % 8 = 0 → Runs (.coreException g cause v true) s fun b =>
      (b.thread g).pc = (s.dev.core (g / 8)).mepc.toNat ∧ (b.core (g / 8)).inTrap = false ∧ Agree [.cpu] s.dev b)) ∧
  (∀ (s : State) (g : Nat) (t : Thread) (l : Lookup) (r : List Lookup), Alive s → s.dev.thread g = t → t.lookups = l :: r →
    (s.dev.core (g / 8)).frozen = false → (s.dev.core (g / 8)).starting = none → t.st ≠ 2 →
    (leAt l.req 0 1 ≠ 1 → leAt l.req 0 1 ≠ 2 → leAt l.req 0 1 ≠ 6 → Runs (.lkupDone g {}) s fun b =>
      (b.thread g).lookups = r ∧ (b.thread g).events / 4 % 2 = 1 ∧ b.locRead g (l.result + 63) 1 = [0x82#8] ∧ Agree [.cpu] s.dev b) ∧
    (∀ f d, leAt l.req 0 1 = 1 ∨ leAt l.req 0 1 = 2 ∨ leAt l.req 0 1 = 6 → s.dev.lookup (leAt l.req 0 1) (slice l.req 8 40) = (f, none, d) →
      Runs (.lkupDone g {}) s fun b =>
        (b.thread g).lookups = r ∧ (b.thread g).events / 4 % 2 = 1 ∧ b.locRead g (l.result + 63) 1 = [0x81#8]) ∧
    (∀ f a d, leAt l.req 0 1 = 1 ∨ leAt l.req 0 1 = 2 ∨ leAt l.req 0 1 = 6 → leAt l.req 1 1 % 2 = 0 →
      s.dev.lookup (leAt l.req 0 1) (slice l.req 8 40) = (f, some a, d) → Runs (.lkupDone g {}) s fun b =>
        (b.thread g).lookups = r ∧ (b.thread g).events / 4 % 2 = 1 ∧ b.locRead g l.result 24 = slice (s.dev.line a) 40 24 ∧
        b.locRead g (l.result + 63) 1 = [0x80#8])) ∧
  (∀ (s : State) (g n : Nat) (t : Thread), Alive s → s.dev.thread g = t →
    (t.timer ≠ none → s.dev.coreLive (g / 8) = true → t.st ≠ 2 → (s.dev.core (g / 8)).threads.length = 8 → Runs (.threadTimer g) s fun b =>
      (b.thread g).timer = none ∧ (b.thread g).events / 8 % 2 = 1 ∧ Agree [.cpu] s.dev b) ∧
    (∀ m, t.msg = some m → m.abandoned = false → m.discarded = false → t.st ≠ 6 → (s.dev.core (g / 8)).frozen = false →
      (s.dev.core (g / 8)).threads.length = 8 → Runs (.channelLeaseExpire g) s fun b =>
        b.thread g = { t with msg := some { m with abandoned := true } } ∧
        b.reg Reg.CORE_CH_ABANDON = counterAdd (s.dev.reg Reg.CORE_CH_ABANDON) 1 ∧ OnlyRegs [Reg.CORE_CH_ABANDON] s.dev b) ∧
    (s.dev.coreLive n = true → (∀ i, i < 8 → s.dev.stuck (8 * n + i) = true ∧ (s.dev.thread (8 * n + i)).lookups = [] ∧
        (s.dev.thread (8 * n + i)).timer = none) → Runs (.gridlock n) s fun b =>
      (b.core n).frozen = true ∧ (b.core n).cause = 1 ∧ (b.core n).hq = [] ∧ (b.core n).held = [] ∧
      b.reg Reg.CORE_GRID_CNT = counterAdd (s.dev.reg Reg.CORE_GRID_CNT) 1 ∧
      ((b.core n).starting = if s.dev.regBit Reg.CORE_EVT_CFG 8 then some ((s.dev.core n).slot, false) else none)) ∧
    (s.dev.stuck (8 * n) = false → Runs (.gridlock n) s fun b => b = s.dev)) ∧
  (∀ (s : State) (g rd rs1 rs2 c : Nat) (t : Thread), Issues s g t → c = fld (t.x rs1) 11 0 →
    (s.dev.maySend g c = true → s.dev.chOpen c = false → t.msg = none → c < 3840 → (s.dev.wktClaim c).isSome = false →
      (s.dev.ch c).msgs.length < (s.dev.ch c).depth → Runs (.chsend g rs1) s fun b =>
        b.thread g = { t with st := 1, waitChan := none, msg := some { chan := c }, ended := 0 }.past 4 ∧ Agree [.cpu] s.dev b) ∧
    (s.dev.maySend g c = true → t.msg = none → s.dev.chOpen c = true → Runs (.chsend g rs1) s fun b =>
      b.thread g = { t with st := 3, waitChan := some c } ∧ Agree [.cpu] s.dev b) ∧
    (s.dev.maySend g c = false → Runs (.chsend g rs1) s fun b => Traps s b g t 26 (BitVec.ofNat 64 c)) ∧
    (∀ m, t.msg = some m → m.abandoned = false → m.discarded = false → Runs (.chw g rs1 rs2) s fun b =>
      b.thread g = { t with msg := some { m with words := m.words.set (fld (t.x rs2) 3 0) (some ((t.x rs1).truncate 32)) } }.past 4 ∧
      Agree [.cpu] s.dev b) ∧
    (t.msg = none → Runs (.chw g rs1 rs2) s fun b => Traps s b g t 26 0xFFFFFFFF#64) ∧
    (∀ m, t.msg = some m → m.abandoned = true → Runs (.chcmt g rd) s fun b =>
      Retires b g { t with msg := none, ended := 0 } rd 1 ∧ Agree [.cpu] s.dev b) ∧
    (∀ m x r, t.msg = some m → m.abandoned = false → m.discarded = false → m.chan < 3840 → s.dev.wktClaim m.chan = none → x = s.dev.ch m.chan →
      r = s.dev.core (x.recv / 8) → r.running = true → r.frozen = false → r.starting = none → x.recv ≠ g → (s.dev.thread x.recv).st ≠ 2 →
      Runs (.chcmt g rd) s fun b =>
        Retires b g { t with msg := none, ended := 0 } rd 0 ∧
        (b.ch m.chan).msgs = x.msgs ++ [{ sender := g, engine := false, slot := x.next }] ∧
        memRead (b.cluster (x.recv / 128)).mem (x.buf + 64 * x.next) 64 = fitTo 64 m.bytes ∧ OnlyRegs [] s.dev b) ∧
    (t.msg = none → Runs (.chabt g) s fun b => b.thread g = t.past 4 ∧ Agree [.cpu] s.dev b) ∧
    (∀ m, t.msg = some m → m.abandoned = false → m.discarded = false → Runs (.chabt g) s fun b =>
      b.thread g = { t with msg := none, ended := 0 }.past 4 ∧ b.reg Reg.CORE_CH_ABANDON = counterAdd (s.dev.reg Reg.CORE_CH_ABANDON) 1 ∧
      OnlyRegs [Reg.CORE_CH_ABANDON] s.dev b) ∧
    (∀ x, fld (t.x rs2) 11 0 < 3840 → x = s.dev.ch (fld (t.x rs2) 11 0) → x.v = true → x.recv = g →
      (x.msgs = [] → Runs (.chrecv g rd rs1 rs2) s fun b => Retires b g t rd (2 ^ 63) ∧ Agree [.cpu] s.dev b) ∧
      (∀ m r, x.msgs = m :: r → (t.x rs1).toNat % 64 = 0 → (t.x rs1).toNat + 64 ≤ 0x30000 → Runs (.chrecv g rd rs1 rs2) s fun b =>
        Retires b g t rd (packNat [(b2n m.engine, 12), (m.sender % 2048, 0)]) ∧ (b.ch (fld (t.x rs2) 11 0)).msgs = r ∧
        b.locRead g (t.x rs1).toNat 64 = s.dev.shrRead g (x.buf + 64 * m.slot) 64 ∧ Agree [.cpu] s.dev b)))

/-- The debugger of the cores and their admin commands. -/
def Obligations.CoreCommands : Prop :=
  (∀ (s : State) (id n g : Nat) (t : Thread), Debugs s id → n = s.dev.dbgCore → g = s.dev.dbgThread → t = s.dev.thread g →
    (s.dev.coreLive n = true → t.st = 1 ∨ t.st = 2 ∨ t.st = 3 → Runs (.haltThread id) s fun b =>
      b.thread g = { t with st := 6, resume := t.st } ∧ b.cpu.dbgErr = false ∧ Agree [.cpu] s.dev b) ∧
    (s.dev.coreLive n = false → Runs (.haltThread id) s fun b => b.cpu = { s.dev.cpu with dbgErr := true } ∧ Agree [.cpu] s.dev b) ∧
    (s.dev.coreLive n = true → (s.dev.core n).threads.length = 8 → Runs (.haltCore id) s fun b =>
      (∀ i, i < 8 → (s.dev.thread (8 * n + i)).st = 1 ∨ (s.dev.thread (8 * n + i)).st = 2 ∨ (s.dev.thread (8 * n + i)).st = 3 →
        (b.thread (8 * n + i)).st = 6 ∧ (b.thread (8 * n + i)).resume = (s.dev.thread (8 * n + i)).st) ∧
      b.cpu.dbgErr = false ∧ Agree [.cpu] s.dev b) ∧
    (s.dev.coreLive n = true → t.st = 6 → t.resume = 1 → Runs (.resume id) s fun b =>
      b.thread g = { t with st := 1 } ∧ b.cpu.dbgErr = false ∧ Agree [.cpu, .hbm] s.dev b) ∧
    (s.dev.coreLive n = true → (∀ x ∈ (s.dev.core n).threads, x.st ≠ 6) → Runs (.resume id) s fun b =>
      b.cpu = { s.dev.cpu with dbgErr := true } ∧ Agree [.cpu] s.dev b) ∧
    (∀ acc, t.st ≠ 6 → Runs (.step id acc) s fun b => b.cpu = { s.dev.cpu with dbgErr := true } ∧ Agree [.cpu] s.dev b) ∧
    (∀ rd value next o, s.dev.coreLive n = true → t.st = 6 → s.dev.spot g t.pc 4 = .loc o → s.dev.spot g t.pc 2 = .loc o →
      leAt (s.dev.locRead g o 4) 0 4 % 128 = 0x13 → Runs (.step id (.fetch rd value next)) s fun b =>
        b.thread g = { t.setX rd value with
            st := 6, resume := 1, wait := none, waitChan := none, pc := next % 2 ^ 64, instret := t.instret + 1 } ∧
        b.cpu.dbgErr = false ∧ Agree [.cpu, .hbm] s.dev b) ∧
    (t.st = 6 → s.dev.dbgAddr % 64 ≤ 34 →
      Runs (.readReg id) s (fun b => b.dbgData = (t.regAt (s.dev.dbgAddr % 64)).toNat ∧ b.cpu.dbgErr = false ∧
        OnlyRegs [Reg.CORE_DBG_DATA_LO, Reg.CORE_DBG_DATA_HI] s.dev b) ∧
      Runs (.writeReg id) s (fun b => b.thread g = t.regPut (s.dev.dbgAddr % 64) (BitVec.ofNat 64 s.dev.dbgData) ∧ b.cpu.dbgErr = false ∧
        Agree [.cpu] s.dev b)) ∧
    (s.dev.dbgAddr % 8 = 0 → s.dev.dbgAddr + 8 ≤ 0x30000 →
      Runs (.readMem id) s (fun b => b.dbgData = leAt (s.dev.locRead g s.dev.dbgAddr 8) 0 8 ∧ b.cpu.dbgErr = false ∧
        OnlyRegs [Reg.CORE_DBG_DATA_LO, Reg.CORE_DBG_DATA_HI] s.dev b) ∧
      Runs (.writeMem id) s (fun b => b.locRead g s.dev.dbgAddr 8 = leBytes 8 s.dev.dbgData ∧ b.cpu.dbgErr = false ∧ Agree [.cpu] s.dev b)) ∧
    (s.dev.dbgAddr % 8 ≠ 0 → Runs (.readMem id) s fun b => b.cpu = { s.dev.cpu with dbgErr := true } ∧ Agree [.cpu] s.dev b) ∧
    (∀ m, t.msg = some m → m.abandoned = false → m.discarded = false → (s.dev.core n).threads.length = 8 → Runs (.abortMsg id) s fun b =>
      b.thread g = { t with msg := none, ended := 0 } ∧ b.reg Reg.CORE_CH_ABANDON = counterAdd (s.dev.reg Reg.CORE_CH_ABANDON) 1 ∧
      OnlyRegs [Reg.CORE_CH_ABANDON] s.dev b) ∧
    Runs (.setBp id) s (fun b =>
      (b.core n).bps = (s.dev.core n).bps.set (s.dev.dbgData % 4) (decide (s.dev.dbgData / 4 % 2 = 1), s.dev.dbgAddr) ∧ Agree [.cpu] s.dev b) ∧
    Runs (.capture id) s (fun b =>
      (b.core n).captures = (s.dev.captureRec n 3 (s.dev.core n).thrState :: (s.dev.core n).captures).take 4 ∧ Agree [.cpu] s.dev b)) ∧
  (∀ (s : State) (g : Nat) (t : Thread), Issues s g t →
    ((true, t.pc) ∈ (s.dev.core (g / 8)).bps → Runs (.breakpointHit g) s fun b =>
      b.thread g = { t with st := 6, resume := 1 } ∧ Agree [.cpu] s.dev b) ∧
    ((∀ x ∈ (s.dev.core (g / 8)).bps, x.2 ≠ t.pc) → Runs (.breakpointHit g) s fun b => b = s.dev)) ∧
  (∀ (s : State) (n slot : Nat) (shared : Bool) (c : Core) (img : List Byte), Alive s → s.dev.core n = c → c.starting = some (slot, shared) →
    img = kvGet [] s.dev.cpu.images slot → Runs (.coreStartDone n) s fun b =>
      (b.core n).running = true ∧ (b.core n).frozen = false ∧ (b.core n).starting = none ∧ (b.core n).slot = slot ∧
      (b.core n).threads = { st := 1, pc := leAt img 8 8 } :: List.replicate 7 {} ∧ (b.core n).mem = localSegs img ∧
      b.reg Reg.CORE_RESTART_CNT = counterAdd (s.dev.reg Reg.CORE_RESTART_CNT) 1 ∧ OnlyRegs [Reg.CORE_RESTART_CNT] s.dev b) ∧
  (∀ (s : State) (e : AdmEntry), AdmReady s → Priv e s →
    (e.len ≤ 0x1000000 → e.bufErr = none → imgOk (fitTo e.len e.buf) e.len = true →
      (∀ c ∈ s.dev.cpu.cores, (c.2.running = true → c.2.slot ≠ fld e.d2 5 0) ∧ c.2.starting.map Prod.fst ≠ some (fld e.d2 5 0)) →
      Completes (.coreLoad e) e 0x60 s fun b =>
        kvFind (fld e.d2 5 0) b.cpu.images = some (fitTo e.len e.buf) ∧ OnlyRegs [] s.dev b) ∧
    (e.len ≤ 0x1000000 → e.bufErr = none → imgOk (fitTo e.len e.buf) e.len = false → Runs (.coreLoad e) s fun b =>
      AdmEnded s.dev b e 0x60 St.RANGE 64 ∧ b.cpu = s.dev.cpu) ∧
    ((kvFind (fld e.d2 5 0) s.dev.cpu.images).isSome = true → coreMask e ≠ [] → Waits (.coreStart e) e s fun b =>
      ∀ n ∈ coreMask e, (b.core n).starting = some (fld e.d2 5 0, (List.range 16).all (fun i => (coreMask e).contains (n / 16 * 16 + i)))) ∧
    ((kvFind (fld e.d2 5 0) s.dev.cpu.images).isSome = true → coreMask e = [] → Completes (.coreStart e) e 0x61 s fun b => OnlyRegs [] s.dev b) ∧
    ((∀ n ∈ coreMask e, (s.dev.core n).frozen = false) → Completes (.coreStop e) e 0x62 s fun b =>
      (∀ n ∈ coreMask e, (b.core n).frozen = true ∧ (b.core n).cause = 3 ∧ (b.core n).hq = [] ∧ (b.core n).held = []) ∧
      (∀ n, n ∉ coreMask e → b.core n = s.dev.core n)) ∧
    Completes (.coreHndSet e) e 0x63 s (fun b =>
      b.hnd (fld e.d2 15 0) = (e.d3 &&& 0xE000FFFFFFFF0000#64) ∧ (∀ h, h ≠ fld e.d2 15 0 → b.hnd h = s.dev.hnd h) ∧ OnlyRegs [] s.dev b) ∧
    (∀ c x, c = fld e.d2 11 0 → x = ({ bind := e.d3 &&& 0xE003FFFF000FFFC0#64 } : Channel) → c ≤ 3839 → bitOf e.d3 63 = true →
      fld e.d3 62 61 ≠ 3 → 1 ≤ x.depth → x.depth ≤ 64 → x.buf + 64 * x.depth ≤ 0x100000 → s.dev.wktClaim c = none → (s.dev.ch c).msgs = [] →
      s.dev.chOpen c = false → Completes (.coreChSet e) e 0x64 s fun b =>
        b.ch c = x ∧ (∀ k, k ≠ c → b.ch k = s.dev.ch k) ∧ OnlyRegs [] s.dev b) ∧
    (∀ c, c = fld e.d2 11 0 → c ≤ 3839 → bitOf e.d3 63 = false → s.dev.wktClaim c = none → Completes (.coreChSet e) e 0x64 s fun b =>
        b.ch c = {} ∧ (∀ k, k ≠ c → b.ch k = s.dev.ch k) ∧ b.chOpen c = false ∧ OnlyRegs [] s.dev b) ∧
    (∀ k, k = fld e.d2 3 0 → e.d3.toNat % 4096 = 0 → e.d4.toNat % 4096 = 0 → e.d4.toNat ≤ 2 ^ 36 →
      e.d3.toNat + e.d4.toNat ≤ hbmReserved ∨ bitOf e.d5 2 = false → Completes (.coreHwinSet e) e 0x65 s fun b =>
        (b.cluster k).wins = (s.dev.cluster k).wins.set (fld e.d2 34 32) {
            v := bitOf e.d5 2, r := bitOf e.d5 0, w := bitOf e.d5 1, base := e.d3.toNat, size := e.d4.toNat } ∧
        (∀ n, b.core n = s.dev.core n) ∧ OnlyRegs [] s.dev b) ∧
    (∀ r, 262144 ≤ e.len → (s.dev.core (fld e.d2 7 0)).captures[fld e.d2 9 8]? = some r → r ≠ [] → Completes (.coreCaptureRead e) e 0x66 s fun b =>
      Out.hostWrite (.pf e.pf) none e.d1.toNat r false ∈ b.out ∧ b.cpu = s.dev.cpu ∧ OnlyRegs [] s.dev b))

/-! Time (R385 to R408). -/

/-- The time domains, local time, the reference, and time pages. -/
def Obligations.TimeDomains : Prop :=
  (∀ (s : State) (pf k : Nat), Alive s → k < 2 →
    (∀ v inc, s.dev.allowed pf (Reg.TIME_INC_LO k) true = true → s.dev.gatedAt (Reg.TIME_INC_LO k) = false →
      inc = s.dev.regFld (Reg.TIME_INC_HI k) 7 0 * 2 ^ 32 + v.toNat →
      (0x80000000 ≤ inc → inc ≤ 0x200000000 → Runs (.timeIncApply pf k v) s fun b =>
        b.dom k = { s.dev.dom k with inc := inc } ∧ b.dom (1 - k) = s.dev.dom (1 - k) ∧ b.reg (Reg.TIME_INC_LO k) = v ∧
        OnlyRegs [Reg.TIME_INC_LO k] s.dev b ∧ Agree [.regs, .time] s.dev b) ∧
      (inc < 0x80000000 ∨ 0x200000000 < inc → Runs (.timeIncApply pf k v) s fun b =>
        b.regBit Reg.TIME_GSTAT 0 = true ∧ OnlyRegs [Reg.TIME_GSTAT] s.dev b ∧ Agree [.regs] s.dev b)) ∧
    (∀ total, s.dev.allowed pf (Reg.TIME_GO k) true = true → s.dev.gatedAt (Reg.TIME_GO k) = false →
      total = ((s.dev.regN (Reg.TIME_SET_SEC_LO k) + 2 ^ 32 * s.dev.regFld (Reg.TIME_SET_SEC_HI k) 15 0 : Nat) : Int) * secUnit +
        ((s.dev.regFld (Reg.TIME_SET_NS k) 29 0 : Nat) : Int) * nsUnit → s.dev.regFld (Reg.TIME_SET_NS k) 29 0 < 1000000000 →
      (k ≠ s.dev.selected ∨ s.dev.time.locked = false → Runs (.timeGoSet pf k) s fun b =>
        b.dom k = (s.dev.dom k).at_ total ∧ b.dom (1 - k) = s.dev.dom (1 - k) ∧ b.time.carry = s.dev.time.carry ∧ Agree [.time] s.dev b) ∧
      (k = s.dev.selected → s.dev.time.locked = true → s.dev.localTotal - ((s.dev.dom k).at_ total).total < secUnit →
        -secUnit < s.dev.localTotal - ((s.dev.dom k).at_ total).total → Runs (.timeGoSet pf k) s fun b =>
          b.dom k = (s.dev.dom k).at_ total ∧ b.localTotal = s.dev.localTotal ∧ Agree [.time] s.dev b) ∧
      (k = s.dev.selected → s.dev.time.locked = true → secUnit ≤ s.dev.localTotal - ((s.dev.dom k).at_ total).total →
        Runs (.timeGoSet pf k) s fun b => b.regBit Reg.TIME_GSTAT 0 = true ∧ b.time = s.dev.time ∧ OnlyRegs [Reg.TIME_GSTAT] s.dev b)) ∧
    (∀ total, s.dev.allowed pf (Reg.TIME_GO k) true = true → s.dev.gatedAt (Reg.TIME_GO k) = false →
      total = (s.dev.dom k).total + (s.dev.reg (Reg.TIME_ADJ k)).toInt * nsUnit → k ≠ s.dev.selected ∨ s.dev.time.locked = false →
      Runs (.timeGoAdj pf k) s fun b =>
        b.dom k = (s.dev.dom k).at_ total ∧ b.dom (1 - k) = s.dev.dom (1 - k) ∧ b.time.carry = s.dev.time.carry ∧ Agree [.time] s.dev b) ∧
    (s.dev.allowed pf (Reg.TIME_GO k) true = true → s.dev.gatedAt (Reg.TIME_GO k) = false → 1000000000 ≤ s.dev.regFld (Reg.TIME_SET_NS k) 29 0 →
      Runs (.timeGoSet pf k) s fun b => b.regBit Reg.TIME_GSTAT 0 = true ∧ b.time = s.dev.time ∧ OnlyRegs [Reg.TIME_GSTAT] s.dev b)) ∧
  (∀ (s : State) (pf : Nat) (v : Word), Alive s →
    (s.dev.allowed pf Reg.TIME_SEL true = true → s.dev.gatedAt Reg.TIME_SEL = false → bitOf v 0 ≠ s.dev.time.selB →
      (s.dev.time.locked = false → Runs (.timeSwitch pf v) s fun b =>
        b.time = { s.dev.time with selB := bitOf v 0 } ∧ b.regN Reg.TIME_SEL = b2n (bitOf v 0) ∧ OnlyRegs [Reg.TIME_SEL] s.dev b) ∧
      (∀ c, s.dev.time.locked = true → c = s.dev.localTotal - (s.dev.dom (b2n (bitOf v 0))).total → c < secUnit → -secUnit < c →
        Runs (.timeSwitch pf v) s fun b =>
          b.time = { s.dev.time with selB := bitOf v 0, carry := c } ∧ b.localTotal = s.dev.localTotal ∧
          b.regN Reg.TIME_SEL = b2n (bitOf v 0) ∧ OnlyRegs [Reg.TIME_SEL] s.dev b) ∧
      (s.dev.time.locked = true → secUnit ≤ s.dev.localTotal - (s.dev.dom (b2n (bitOf v 0))).total → Runs (.timeSwitch pf v) s fun b =>
        b.time = s.dev.time ∧ b.regBit Reg.TIME_GSTAT 0 = true ∧ OnlyRegs [Reg.TIME_GSTAT] s.dev b)) ∧
    (s.dev.allowed pf Reg.TIME_LOCK true = true → s.dev.gatedAt Reg.TIME_LOCK = false →
      Runs (.timeLock pf v) s fun b => b.time = { s.dev.time with locked := s.dev.time.locked || bitOf v 0 } ∧ Agree [.time] s.dev b) ∧
    (s.dev.allowed pf Reg.TIME_SNAP false = true → s.dev.gatedAt Reg.TIME_SNAP = false → Runs (.timeSnap pf) s fun b =>
      b.time = { s.dev.time with snapSeq := (s.dev.time.snapSeq + 1) % 65536 } ∧ b.lastRead = BitVec.ofNat 64 ((s.dev.time.snapSeq + 1) % 65536) ∧
      (∀ k t, (k = 0 ∧ t = s.dev.time.a.total) ∨ (k = 1 ∧ t = s.dev.time.b.total) ∨ (k = 2 ∧ t = s.dev.localTotal) →
        b.regN (Reg.TIME_SNAP_SEC_LO k) = (splitTime t).1 % 2 ^ 32 ∧ b.regN (Reg.TIME_SNAP_NS k) = (splitTime t).2.1 ∧
        b.regN (Reg.TIME_SNAP_FRAC k) = (splitTime t).2.2) ∧
      OnlyRegs ((List.range 3).flatMap (fun k => [Reg.TIME_SNAP_SEC_LO k, Reg.TIME_SNAP_SEC_HI k, Reg.TIME_SNAP_NS k, Reg.TIME_SNAP_FRAC k]))
        s.dev b) ∧
    (s.dev.allowed pf Reg.TIME_CTL true = true → s.dev.gatedAt Reg.TIME_CTL = false → Runs (.timeRefSelect pf v) s fun b =>
      b.time = { s.dev.time with refLost := false } ∧ b.regN Reg.TIME_CTL = b2n (bitOf v 0) ∧ OnlyRegs [Reg.TIME_CTL] s.dev b)) ∧
  (∀ (s : State), Alive s →
    (s.dev.regBit Reg.TIME_CTL 0 = true → s.dev.time.refLost = false → Runs .clk10mLost s fun b =>
      b.time = { s.dev.time with refLost := true } ∧ b.regBit Reg.TIME_GSTAT 1 = true ∧
      PfTold s.dev b (s.dev.regFld Reg.TIME_EVT_CFG 3 0) 0x150 0 ∧
      OnlyRegs [Reg.TIME_GSTAT, Reg.RING_EVT_LOST (s.dev.regFld Reg.TIME_EVT_CFG 3 0)] s.dev b) ∧
    (s.dev.regBit Reg.TIME_CTL 0 = false → Runs .clk10mLost s fun b => b = s.dev) ∧
    Runs .clk10mReturn s (fun b => b.time = { s.dev.time with refLost := false } ∧ Agree [.time] s.dev b) ∧
    (carryTick s.dev.time.carry (s.dev.dom s.dev.selected).inc (s.dev.regN Reg.TIME_SLEW) = 0 → Runs .timeSlewDone s fun b =>
      b.time = { s.dev.time with carry := 0 } ∧ Agree [.time] s.dev b) ∧
    (carryTick s.dev.time.carry (s.dev.dom s.dev.selected).inc (s.dev.regN Reg.TIME_SLEW) ≠ 0 → Runs .timeSlewDone s fun b => b = s.dev) ∧
    Runs .timePageWrite s (fun b =>
      (∀ n, n < 16 → s.dev.regBit (Reg.TIME_PAGE_LO n) 0 = true → s.dev.fnHeld (.pf n) = false →
        Out.hostWrite (.pf n) none (s.dev.regN (Reg.TIME_PAGE_LO n) / 8 * 8 + 2 ^ 32 * s.dev.regN (Reg.TIME_PAGE_HI n))
          (leBytes 8 (s.dev.nowNs / 1000000 * 1000000)) false ∈ b.out) ∧
      (∀ x ∈ s.dev.time.pages, s.dev.shutOpen x.1 = true → s.dev.fnHeld (s.dev.tenFn x.1) = false →
        Out.hostWrite (s.dev.tenFn x.1) (s.dev.tenGet x.1).pasid x.2 (leBytes 8 (s.dev.nowNs / 1000000 * 1000000)) false ∈ b.out) ∧
      Agree [.out] s.dev b)) ∧
  (∀ (s : State) (e : AdmEntry), AdmReady s → Owns e e.ten s → e.d3.toNat % 8 = 0 → (s.dev.tenGet e.ten).st = 2 ∨ (s.dev.tenGet e.ten).st = 3 →
    Completes (.timePageSet e) e 0x68 s fun b =>
      kvFind e.ten b.time.pages = (if bitOf e.d4 0 then some e.d3.toNat else none) ∧
      (∀ t, t ≠ e.ten → kvFind t b.time.pages = kvFind t s.dev.time.pages) ∧ OnlyRegs [] s.dev b)

/-- Trigger pins, PPS, and gate lists. -/
def Obligations.PinsAndTimetable : Prop :=
  (∀ (s : State) (pf i : Nat) (x : Tio), Alive s → i < 8 → i < s.dev.time.tio.length → s.dev.tio i = x →
    (∀ cfg period width start, s.dev.allowed pf (Reg.TIME_TIO_ARM i) true = true → s.dev.gatedAt (Reg.TIME_TIO_ARM i) = false →
      cfg = s.dev.reg (Reg.TIME_TIO_CFG i) → period = s.dev.regN (Reg.TIME_TIO_PERIOD i) → width = s.dev.regN (Reg.TIME_TIO_WIDTH i) →
      start = (s.dev.regN (Reg.TIME_TIO_START_SEC_LO i) + 2 ^ 32 * s.dev.regFld (Reg.TIME_TIO_START_SEC_HI i) 15 0) * 1000000000 +
        s.dev.regFld (Reg.TIME_TIO_START_NS i) 29 0 →
      (fld cfg 1 0 = 1 → 20 ≤ period → period ≤ 4000000000 → 10 ≤ width → (bitOf cfg 4 = true → width + 10 ≤ period) →
        (bitOf cfg 4 = false → width ≤ 1000000000) → s.dev.regFld (Reg.TIME_TIO_START_NS i) 29 0 < 1000000000 →
        (s.dev.nowNs + 100 ≤ start → Runs (.tioArm pf i) s fun b =>
          b.tio i = { x with armed := true, periodic := bitOf cfg 4, next := start, period := period, width := width } ∧ Agree [.time] s.dev b) ∧
        (start < s.dev.nowNs + 100 → bitOf cfg 4 = false → Runs (.tioArm pf i) s fun b =>
          (b.tio i).armed = false ∧ b.regBit (Reg.TIME_TIO_STAT i) 2 = true ∧ OnlyRegs [Reg.TIME_TIO_STAT i] s.dev b) ∧
        (start < s.dev.nowNs + 100 → bitOf cfg 4 = true → Runs (.tioArm pf i) s fun b =>
          (b.tio i).armed = true ∧ s.dev.nowNs + 100 ≤ (b.tio i).next ∧ (b.tio i).next % period = start % period ∧
          b.regBit (Reg.TIME_TIO_STAT i) 2 = true ∧ OnlyRegs [Reg.TIME_TIO_STAT i] s.dev b)) ∧
      (period < 20 → Runs (.tioArm pf i) s fun b => b.regBit Reg.TIME_GSTAT 0 = true ∧ b.time = s.dev.time ∧ OnlyRegs [Reg.TIME_GSTAT] s.dev b) ∧
      Runs (.tioDisarm pf i) s (fun b => b.tio i = { x with armed := false } ∧ Agree [.time] s.dev b)) ∧
    (x.armed = true → Runs (.tioPulse i) s fun b =>
      b.tio i = (if x.periodic then { x with next := x.next + x.period } else { x with armed := false }) ∧
      Out.pin (tioName i) true ∈ b.out ∧ Out.pin (tioName i) false ∈ b.out ∧ Agree [.time, .out] s.dev b) ∧
    (x.armed = false → Runs (.tioPulse i) s fun b => b = s.dev) ∧
    (∀ rising, s.dev.regFld (Reg.TIME_TIO_CFG i) 1 0 = 2 →
      s.dev.regFld (Reg.TIME_TIO_CFG i) 6 5 = 2 ∨ (s.dev.regFld (Reg.TIME_TIO_CFG i) 6 5 = 0 ∧ rising = true) ∨
        (s.dev.regFld (Reg.TIME_TIO_CFG i) 6 5 = 1 ∧ rising = false) →
      (x.caps.length < 16 → Runs (.tioCapture i rising) s fun b => b.tio i = { x with caps := x.caps ++ [s.dev.nowNs] } ∧ Agree [.time] s.dev b) ∧
      (16 ≤ x.caps.length → Runs (.tioCapture i rising) s fun b =>
        b.time = s.dev.time ∧ b.regBit (Reg.TIME_TIO_STAT i) 1 = true ∧ OnlyRegs [Reg.TIME_TIO_STAT i] s.dev b)) ∧
    (s.dev.allowed pf (Reg.TIME_TIO_CAP_SEC_LO i) false = true → s.dev.gatedAt (Reg.TIME_TIO_CAP_SEC_LO i) = false →
      (∀ t r, x.caps = t :: r → Runs (.tioCapRead pf i) s fun b =>
        b.tio i = { x with caps := r } ∧ b.lastRead = BitVec.ofNat 64 (t / 1000000000 % 2 ^ 32) ∧
        b.regFld (Reg.TIME_TIO_CAP_SEC_HI i) 15 0 = t / 1000000000 / 2 ^ 32 % 65536 ∧
        b.regFld (Reg.TIME_TIO_CAP_NS i) 29 0 = t % 1000000000 ∧ b.regBit (Reg.TIME_TIO_CAP_NS i) 31 = true ∧
        OnlyRegs [Reg.TIME_TIO_CAP_SEC_LO i, Reg.TIME_TIO_CAP_SEC_HI i, Reg.TIME_TIO_CAP_NS i] s.dev b) ∧
      (x.caps = [] → Runs (.tioCapRead pf i) s fun b =>
        b.regBit (Reg.TIME_TIO_CAP_NS i) 31 = false ∧ b.time = s.dev.time ∧ OnlyRegs [Reg.TIME_TIO_CAP_NS i] s.dev b))) ∧
  (∀ (s : State), Alive s →
    (s.dev.regBit Reg.TIME_PPS_CFG 31 = true → Runs .ppsOutEdge s fun b =>
      Out.pin "PPS_OUT" true ∈ b.out ∧ Out.pin "PPS_OUT" false ∈ b.out ∧ Agree [.out] s.dev b) ∧
    (s.dev.regBit Reg.TIME_PPS_CFG 31 = false → Runs .ppsOutEdge s fun b => b = s.dev) ∧
    Runs .ppsInEdge s (fun b =>
      b.regN Reg.TIME_PPSIN_SEC_LO = s.dev.nowNs / 1000000000 % 2 ^ 32 ∧ b.regFld Reg.TIME_PPSIN_NS 29 0 = s.dev.nowNs % 1000000000 ∧
      b.reg Reg.TIME_PPSIN_CNT = counterAdd (s.dev.reg Reg.TIME_PPSIN_CNT) 1 ∧
      OnlyRegs [Reg.TIME_PPSIN_SEC_LO, Reg.TIME_PPSIN_SEC_HI, Reg.TIME_PPSIN_NS, Reg.TIME_PPSIN_CNT] s.dev b)) ∧
  (∀ (s : State) (e : AdmEntry) (p n : Nat) (l : GateList), AdmReady s → Priv e s → p = fld e.d2 3 0 → n = fld e.d2 42 32 →
    s.dev.portType p ≠ 0 → 1 ≤ n → n ≤ 1024 → e.d3.toNat < 2 ^ 48 → e.d4.toNat < 1000000000 → 1000 ≤ e.d5.toNat → e.d5.toNat ≤ 1000000000 →
    e.len = 8 * n → e.bufErr = none → (∀ i, i < n → gateBad e.buf i = false) →
    l = {
        base := fld e.d3 47 0 * 1000000000 + e.d4.toNat, cycle := e.d5.toNat,
        entries := (List.range n).map (fun i => (leAt e.buf (8 * i) 1, leAt e.buf (8 * i + 4) 4)) } →
    ((s.dev.tt p).pend = none → Waits (.ttLoad e) e s fun b =>
      b.tt p = { s.dev.tt p with pend := some (l, l.firstStart s.dev.nowNs, e) } ∧ (∀ k, k ≠ p → b.tt k = s.dev.tt k) ∧ OnlyRegs [] s.dev b) ∧
    ((s.dev.tt p).pend.isSome = true → Runs (.ttLoad e) s fun b => AdmEnded s.dev b e 0x69 St.STATE 1 ∧ b.time = s.dev.time)) ∧
  (∀ (s : State) (p : Nat) (x : TimeTable), Alive s → s.dev.tt p = x →
    (∀ l t e w, x.pend = some (l, t, e) → w = l.wins.headD (0, 0, l.cycle) → s.dev.glb.planes.ctlUp = true →
      s.dev.ring.taken = [{ e := e, priv := true }] → Runs (.gateListActivate p) s fun b =>
        b.tt p = {
            x with
            oper := some l, pend := none, cur := w.1, start := t, stop := t + w.2.2,
            lag := if s.dev.ttEn p then x.lag - s.dev.ttRepay p x.lag w.2.2 else 0 } ∧
        AdmDone s.dev b e 0x69 ∧ OnlyRegs [] s.dev b) ∧
    (∀ l w, x.oper = some l → w = l.window x.stop → Runs (.gateChange p) s fun b =>
      b.tt p = {
          x with
          cur := w.1, start := w.2.1, stop := w.2.2,
          lag := if s.dev.ttEn p then x.lag - s.dev.ttRepay p x.lag (w.2.2 - w.2.1) else 0 } ∧
      (∀ k, k ≠ p → b.tt k = s.dev.tt k) ∧ Agree [.time] s.dev b) ∧
    (x.oper = none → Runs (.gateChange p) s fun b => b = s.dev) ∧ (x.pend = none → Runs (.gateListActivate p) s fun b => b = s.dev))

/-! The fabric (R409 to R435). -/

/-- R418: while TIME_STAT.LOCKED is 1, a data-port message whose SENT lies more than FAB_MAX_LIFETIME before the member's own local time is
dropped and counted in FAB_STALE_DROP, whatever its type. -/
def Obligations.StaleMessages : Prop :=
  ∀ (s : State) (m : List Byte) (g : Option Nat), Alive s → msgOk false m = true → s.dev.time.locked = true →
    msgSent m + 1000 * s.dev.regFld Reg.FAB_MAX_LIFETIME 13 0 < s.dev.nowNs →
    ∀ c ∈ [(0x03, Instr.heartbeatRx m), (0x04, .helloRx m), (0x05, .routeRx m), (0x06, .joinRx m), (0x07, .epochRx m g), (0x08, .leaveRx m),
        (0x10, .upRx m), (0x11, .downRx m), (0x12, .bcastRx m), (0x13, .countRx m), (0x20, .pairRx m), (0x21, .digestRx m),
        (0x22, .revokeRx m), (0x23, .revokedRx m), (0x24, .checkRx m), (0x25, .swapRx m), (0x26, .releasedRx m), (0x27, .leaseReqRx m),
        (0x28, .leaseRx m)], msgType m = c.1 →
      Runs c.2 s fun b =>
        b.reg Reg.FAB_STALE_DROP = counterAdd (s.dev.reg Reg.FAB_STALE_DROP) 1 ∧ OnlyRegs [Reg.FAB_STALE_DROP] s.dev b ∧ Agree [.regs] s.dev b

/-- Within a Block, and between neighbours: the configuration, BEACON, ASSIGN, election, HELLO and ROUTE. -/
def Obligations.FabricBlock : Prop :=
  (∀ (s : State) (pf : Nat) (v : Word), Alive s → s.dev.allowed pf Reg.FAB_CFG true = true → s.dev.gatedAt Reg.FAB_CFG = false →
    (s.dev.fabOn = false → Runs (.fabCfgWrite pf v) s fun b =>
      b.reg Reg.FAB_CFG = (v &&& 0xFFFFFF00#32) ∧ (bitOf v 31 = false → b.fab = s.dev.fab) ∧
      (bitOf v 31 = true → b.fab.state = 0 ∧ b.fab.index = none ∧ b.fab.members = [] ∧ b.fab.nbrs = s.dev.fab.nbrs) ∧
      OnlyRegs [Reg.FAB_CFG] s.dev b) ∧
    (s.dev.fabOn = true → (v ^^^ s.dev.reg Reg.FAB_CFG) &&& 0x7FFFFF00#32 ≠ 0#32 → Runs (.fabCfgWrite pf v) s fun b =>
        b.fab = s.dev.fab ∧ b.regBit Reg.FAB_GSTAT 0 = true ∧ OnlyRegs [Reg.FAB_GSTAT] s.dev b) ∧
    (s.dev.fabOn = true → v &&& 0xFFFFFF00#32 = s.dev.reg Reg.FAB_CFG &&& 0x7FFFFFFF#32 → Runs (.fabCfgWrite pf v) s fun b =>
      b.fab.state = 0 ∧ b.fab.index = none ∧ b.fab.coord = none ∧ b.fab.gate = none ∧ b.fab.peers = [] ∧
      b.reg Reg.FAB_CFG = (v &&& 0xFFFFFF00#32))) ∧
  (∀ (s : State), s.dev.pwr.off = false →
    (s.dev.fabOn = true → Runs .beaconSend s fun b =>
      BusOut s.dev b 1 (beBytes 1 (s.dev.regFld Reg.SVB_PLCA 7 0) ++ beBytes 1 (b2n s.dev.anyNbrUp) ++ beBytes 1 (s.dev.fab.index.getD 0xFF)) ∧
      b.fab = { s.dev.fab with beacons := s.dev.fab.beacons + 1 } ∧ OnlyRegs [Reg.SVB_TX_DROP] s.dev b) ∧
    (s.dev.fabOn = false → Runs .beaconSend s fun b => b = s.dev)) ∧
  (∀ (s : State) (m : List Byte) (u : Nat), Hears s true m 1 → s.dev.fabOn = true → u = msgUid m → Runs (.beaconRx m) s fun b =>
    b.fab = {
        s.dev.fab with
        peers := s.dev.fab.peers.filter (fun x => decide (x.uid ≠ u)) ++ [{
            uid := u, node := leAt (msgBody m) 0 1, nbrUp := decide (leAt (msgBody m) 1 1 % 2 = 1),
            index := if leAt (msgBody m) 2 1 = 0xFF then none else some (leAt (msgBody m) 2 1), heard := s.dev.nowNs }],
        coord := s.dev.fab.coord.map (fun c => min c u), assignDue := b.fab.assignDue } ∧
    ((∀ p ∈ s.dev.fab.peers, p.uid ≠ u) → b.fab.assignDue = true) ∧ Heard s.dev b []) ∧
  (∀ (s : State), Alive s → s.dev.fabOn = true → s.dev.fab.coord ≠ some s.dev.fabUid → Runs .coordinatorElection s fun b =>
    b.fab.coord = some ((s.dev.fab.peers.filter (fun p => decide (s.dev.fab.coord ≠ some p.uid))).foldl (fun a p => min a p.uid) s.dev.fabUid) ∧
    b.fab.peers = s.dev.fab.peers.filter (fun p => decide (s.dev.fab.coord ≠ some p.uid)) ∧ b.fab.assignDue = true ∧
    b.reg Reg.FAB_ELECT_CNT = counterAdd (s.dev.reg Reg.FAB_ELECT_CNT) 1 ∧ OnlyRegs [Reg.FAB_ELECT_CNT] s.dev b) ∧
  (∀ (s : State), Alive s → s.dev.isCoord = true → s.dev.fab.state = 2 → (∀ p ∈ s.dev.fab.peers, p.uid ≠ s.dev.fabUid) →
    Runs .assignSend s fun b =>
      (∀ i, s.dev.fab.index = some i → b.fab.index = some i) ∧
      (∀ p ∈ s.dev.fab.peers, ∀ i, p.index = some i → (p.uid, i) ∈ b.fab.given) ∧ b.fab.assignDue = false ∧ b.fab.beacons = 0 ∧
      b.fab.peers = s.dev.fab.peers ∧ OnlyRegs [Reg.SVB_TX_DROP] s.dev b ∧
      (∀ i, s.dev.fab.peers = [] → s.dev.fab.index = some i → b.fab.given = [(s.dev.fabUid, i)] ∧
        b.fab.gate = (if s.dev.anyNbrUp then some s.dev.fabUid else none) ∧
        BusOut s.dev b 2 (beBytes 16 s.dev.fabUid ++ beBytes 1 i ++ beBytes 1 (b2n s.dev.anyNbrUp) ++ [0, 0]))) ∧
  (∀ (s : State) (m : List Byte) (es : List (Nat × Nat × Nat)), Hears s true m 2 → s.dev.fabOn = true →
    (∀ c, s.dev.fab.coord = some c → msgUid m ≤ c) →
    es = (List.range ((msgBody m).length / 20)).map (fun i =>
      (beAt (msgBody m) (20 * i) 16, leAt (msgBody m) (20 * i + 16) 1, leAt (msgBody m) (20 * i + 17) 1 % 2)) →
    (∀ x, es.find? (fun x => decide (x.1 = s.dev.fabUid)) = some x → s.dev.fab.state = 2 → Runs (.assignRx m) s fun b =>
      b.fab = {
          s.dev.fab with
          coord := some (msgUid m), given := es.map (fun x => (x.1, x.2.1)), index := some x.2.1,
          gate := (es.find? (fun x => decide (x.2.2 = 1))).map Prod.fst } ∧ Heard s.dev b []) ∧
    (es.find? (fun x => decide (x.1 = s.dev.fabUid)) = none → Runs (.assignRx m) s fun b =>
      b.fab.state = 0 ∧ b.fab.index = none ∧ b.fab.coord = some (msgUid m))) ∧
  (∀ (s : State) (uid : Nat), Alive s → (∃ p ∈ s.dev.fab.peers, p.uid = uid) → s.dev.twin.role < 2 → Runs (.peerBeaconLoss uid) s fun b =>
    b.fab = {
        s.dev.fab with
        peers := s.dev.fab.peers.filter (fun p => decide (p.uid ≠ uid)), given := s.dev.fab.given.filter (fun e => decide (e.1 ≠ uid)),
        assignDue := true } ∧ Agree [.fab] s.dev b) ∧
  (∀ (s : State) (n : Nat) (x : FabNbr), Alive s → s.dev.fab.nbrs = [(n, x)] → x.v = true →
    (s.dev.fabOn = true → s.dev.fabAddr.isSome = true → RoomFor s.dev 106 → Runs .helloSend s fun b =>
      MsgOut b x.action 4 0 [] ∧ Agree [.square] s.dev b) ∧
    (∀ lv i, s.dev.fab.state ≠ 0 → lv < 3 → i < routeCount lv → (∀ k j, k < 3 → j < routeCount k → (k, j) ≠ (lv, i) → lineAdv (s.dev.routeLine k j) = false) →
      lineAdv (s.dev.routeLine lv i) = true → s.dev.lineUp (s.dev.routeLine lv i) = true → RoomFor s.dev 112 →
      Runs .routeAdvertise s fun b =>
        MsgOut b x.action 5 0 (beBytes 2 1 ++ (beBytes 1 lv ++ beBytes 1 i ++ beBytes 2 (lineCost (s.dev.routeLine lv i)))) ∧ Agree [.square] s.dev b)) ∧
  (∀ (s : State) (m : List Byte) (a n : Nat) (x : FabNbr), Hears s false m 4 → msgSrc m = some a → (n, x) ∈ s.dev.fab.nbrs → x.v = true →
    x.addr = a → Runs (.helloRx m) s fun b =>
      (b.nbr n).up = true ∧ (b.nbr n).addr = a ∧ (b.nbr n).last = s.dev.nowNs ∧ Heard s.dev b []) ∧
  (∀ (s : State) (n : Nat), Alive s → (s.dev.nbr n).up = true → Runs (.neighbourDown n) s fun b =>
    b.nbr n = { s.dev.nbr n with up := false } ∧ (∀ k, k ≠ n → b.nbr k = s.dev.nbr k) ∧
    b.fab.adverts = s.dev.fab.adverts.filter (fun a => decide (a.slot ≠ n)) ∧ Agree [.fab] s.dev b) ∧
  (∀ (s : State) (m : List Byte) (a n : Nat) (x : FabNbr) (c : FabAdv), Hears s false m 5 → msgSrc m = some a →
    1 ≤ s.dev.fab.state → s.dev.fab.state ≤ 2 → s.dev.fab.nbrs = [(n, x)] → x.v = true → x.addr = a → x.up = true → n < 64 →
    (msgBody m).length = 6 → beAt (msgBody m) 0 2 = 1 →
    c = {
        slot := n, level := leAt (msgBody m) 2 1, index := leAt (msgBody m) 3 1, cost := beAt (msgBody m) 4 2 + Config.hopCost n } → c.level < 3 →
    c.index < routeCount c.level → s.dev.fab.adverts = [] →
    (lineV (s.dev.routeLine c.level c.index) = false → Runs (.routeRx m) s fun b =>
      b.fab.adverts = [c] ∧ TuePosts s.dev b [{
          op := 0x10, table := 7, index := s.dev.routeBase + 64 * routeIndex c.level c.index,
          payload := leBytes 1 16 ++ [0] ++ leBytes 2 (min c.cost 65535) ++ leBytes 4 0 ++
            fitTo 48 (leBytes 4 (packNat [(n, 17), (x.action, 0)])) ++ leBytes 8 (2 ^ 63) }] ∧ Heard s.dev b []) ∧
    (lineV (s.dev.routeLine c.level c.index) = true → lineLearned (s.dev.routeLine c.level c.index) = false → Runs (.routeRx m) s fun b =>
      b.fab.adverts = [c] ∧ b.glb.tueQ = s.dev.glb.tueQ ∧ Heard s.dev b [])) ∧
  (∀ (s : State) (blk : Nat), Alive s → Runs (.addrHoldExpire blk) s fun b =>
    b.fab = { s.dev.fab with heldAddrs := s.dev.fab.heldAddrs.filter (fun h => decide (h.1 / 16 ≠ blk)) } ∧ Agree [.fab] s.dev b)

/-- The tree and the agreed membership: heartbeats, JOIN, EPOCH, LEAVE, COUNT, and cuts. -/
def Obligations.FabricTree : Prop :=
  (∀ (s : State) (m : List Byte) (a : Nat), Hears s false m 3 → msgSrc m = some a →
    (s.dev.fab.state ≠ 0 → s.dev.fab.state ≠ 4 → Runs (.heartbeatRx m) s fun b =>
      b.fab = {
          s.dev.fab with
          hb := kvPut a s.dev.nowNs s.dev.fab.hb, below := kvPut a (beAt (msgBody m) 0 4) s.dev.fab.below,
          members := s.dev.fab.members.map (fun y => if y.addr = a then { y with st := msgState m } else y) } ∧ Heard s.dev b []) ∧
    (s.dev.fab.state = 0 → Runs (.heartbeatRx m) s fun b => b.fab = s.dev.fab ∧ Heard s.dev b []) ∧
    (s.dev.fab.state = 4 → msgState m = 2 → s.dev.fab.epoch < msgEpoch m → s.dev.fab.gate ≠ some s.dev.fabUid →
      Runs (.heartbeatRx m) s fun b =>
        b.fab.state = 1 ∧ b.fab.epoch = msgEpoch m ∧ b.fab.members = [] ∧ b.regBit Reg.FAB_GSTAT 1 = true)) ∧
  (∀ (s : State) (p : Nat), Alive s → s.dev.fabParent = some p → s.dev.fabChildren = [] →
    (s.dev.fab.state ≠ 0 → s.dev.fabAddr.isSome = true → Runs .heartbeatSend s fun b =>
      Sends s.dev b p 3 0 (beBytes 4 0) ∧ b.fab = s.dev.fab ∧ OnlyRegs [Reg.FAB_NO_ROUTE] s.dev b) ∧
    (s.dev.fab.state = 1 → s.dev.fab.joined = true → s.dev.isGate = false → Runs .joinRetry s fun b =>
      b.fab.state = 1 ∧ b.fab.joined = true ∧ PfTold s.dev b (fabPf s.dev) 0x161 0 ∧
      OnlyRegs [Reg.FAB_NO_ROUTE, Reg.RING_EVT_LOST (fabPf s.dev)] s.dev b) ∧
    (s.dev.fab.state ≠ 1 → Runs .joinRetry s fun b => b = s.dev)) ∧
  (∀ (s : State) (m : List Byte) (want : Nat), Hears s false m 6 → want = beAt (msgBody m) 0 4 → want < 2 ^ 31 →
    (∀ p, s.dev.fab.state = 1 ∨ s.dev.fab.state = 2 → s.dev.isQlead = false → s.dev.fabParent = some p → Runs (.joinRx m) s fun b =>
      Sends s.dev b p 6 (msgOp m) (msgBody m) ∧ b.fab.joins = addMember { addr := want % 2 ^ 20, uid := msgUid m } s.dev.fab.joins ∧
      b.fab.members = s.dev.fab.members ∧ Heard s.dev b [Reg.FAB_NO_ROUTE]) ∧
    (s.dev.fab.state = 2 → s.dev.isRoot = true → s.dev.joinRefused { addr := want % 2 ^ 20, uid := msgUid m } = false → s.dev.fab.ops = [] →
      s.dev.twin.role = 0 → Runs (.joinRx m) s fun b =>
        b.fab.members = addMember { addr := want % 2 ^ 20, uid := msgUid m } s.dev.fab.members ∧ b.fab.total = b.fab.members.length ∧
        b.fab.epoch = max s.dev.fab.epoch s.dev.fab.epochMax + 1 ∧ b.fab.state = 2 ∧ Heard s.dev b [Reg.FAB_NO_ROUTE]) ∧
    (3 ≤ s.dev.fab.state → Runs (.joinRx m) s fun b => b.fab = s.dev.fab ∧ Heard s.dev b [])) ∧
  (∀ (s : State) (m : List Byte) (p : Nat) (granted : Option Nat) (removed : List Nat), Hears s false m 7 → msgSrc m = some p →
    s.dev.fabParent = some p → s.dev.fab.epoch < msgEpoch m → s.dev.fab.ops = [] → s.dev.twin.role = 0 → s.dev.fab.block.isSome = true →
    removed = (List.range (((msgBody m).length - 8) / 4)).map (fun i => beAt (msgBody m) (8 + 4 * i) 4) →
    (∀ a, s.dev.fabAddr = some a → a ∉ removed) →
    (s.dev.fab.state = 2 → Runs (.epochRx m granted) s fun b =>
      b.fab.epoch = msgEpoch m ∧ b.fab.total = beAt (msgBody m) 0 4 ∧ b.fab.reach = beAt (msgBody m) 0 4 ∧ b.fab.state = 2 ∧ b.fab.joins = [] ∧
      b.fab.tie = (if beAt (msgBody m) 4 4 = 0xFFFFFFFF then none else some (beAt (msgBody m) 4 4)) ∧
      b.fab.members = (s.dev.fab.joins.foldl (fun l j => addMember j l) s.dev.fab.members).filter (fun y => !removed.contains y.addr) ∧
      Heard s.dev b [Reg.FAB_NO_ROUTE]) ∧
    (s.dev.fab.state = 1 → s.dev.fab.joined = true → Runs (.epochRx m granted) s fun b =>
      b.fab.epoch = msgEpoch m ∧ b.fab.state = 2 ∧ b.fab.joined = false ∧ PfTold s.dev b (fabPf s.dev) 0x160 (msgEpoch m))) ∧
  (∀ (s : State) (m : List Byte) (granted : Option Nat), Hears s false m 7 → msgEpoch m ≤ s.dev.fab.epoch → Runs (.epochRx m granted) s fun b =>
    b.fab = s.dev.fab ∧ Heard s.dev b []) ∧
  (∀ (s : State) (m : List Byte) (a : Nat), Hears s false m 8 → msgSrc m = some a → s.dev.fab.state = 2 →
    (s.dev.isRoot = true → s.dev.fab.ops = [] → s.dev.twin.role = 0 → (∃ x ∈ s.dev.fab.members, x.addr = a) → Runs (.leaveRx m) s fun b =>
      b.fab.members = s.dev.fab.members.filter (fun x => decide (x.addr ≠ a)) ∧ b.fab.total = b.fab.members.length ∧
      b.fab.epoch = max s.dev.fab.epoch s.dev.fab.epochMax + 1 ∧ Heard s.dev b [Reg.FAB_NO_ROUTE]) ∧
    (∀ p, s.dev.isRoot = false → s.dev.fabParent = some p → Runs (.leaveRx m) s fun b =>
      Sends s.dev b p 8 (msgOp m) (msgBody m) ∧ b.fab = s.dev.fab ∧ Heard s.dev b [Reg.FAB_NO_ROUTE])) ∧
  (∀ (s : State) (m : List Byte) (a n : Nat), Hears s false m 0x13 → msgSrc m = some a → n = beAt (msgBody m) 0 4 → s.dev.fab.state = 3 →
    (∀ p, s.dev.fabParent = some p → p ≠ a → s.dev.fabChildren = [a] → s.dev.fab.counts = [] → s.dev.fab.counted = false →
      Runs (.countRx m) s fun b =>
        Sends s.dev b p 0x13 0 (beBytes 4 (1 + n)) ∧ b.fab.reach = 1 + n ∧ b.fab.counted = true ∧ b.fab.state = 3 ∧
        Heard s.dev b [Reg.FAB_NO_ROUTE]) ∧
    (s.dev.isRoot = true → s.dev.fabChildren = [a] → s.dev.fab.counts = [] → s.dev.fab.ops = [] → s.dev.twin.role = 0 →
      max s.dev.fab.total s.dev.fab.members.length < 2 * (1 + n) → Runs (.countRx m) s fun b =>
        b.fab.state = 2 ∧ b.fab.epoch = max s.dev.fab.epoch s.dev.fab.epochMax + 1 ∧
        b.fab.members = s.dev.fab.members.filter (fun x => s.dev.fabReaches x.addr)) ∧
    (s.dev.isRoot = true → s.dev.fabChildren = [a] → s.dev.fab.counts = [] → 2 * (1 + n) < max s.dev.fab.total s.dev.fab.members.length →
      Runs (.countRx m) s fun b =>
        b.fab.state = 4 ∧ b.fab.epoch = s.dev.fab.epoch ∧ b.fab.members = s.dev.fab.members ∧
        PfTold s.dev b (fabPf s.dev) 0x160 s.dev.fab.epoch) ∧
    (s.dev.fabParent = some a → msgState m = 4 → Runs (.countRx m) s fun b =>
      b.fab.state = 4 ∧ b.fab.members = s.dev.fab.members ∧ PfTold s.dev b (fabPf s.dev) 0x160 s.dev.fab.epoch)) ∧
  (∀ (s : State) (a : Nat), Alive s →
    ((kvFind a s.dev.fab.hb).isSome = true → s.dev.fab.state = 2 → s.dev.fab.ops = [] →
      (∃ c ∈ s.dev.fabChildren, s.dev.fabReaches c = true) → Runs (.heartbeatLoss a) s fun b =>
        b.fab.state = 3 ∧ kvFind a b.fab.hb = none ∧ b.fab.counts = [] ∧ b.fab.counted = false ∧ b.regBit Reg.FAB_GSTAT 2 = true ∧
        b.reg Reg.FAB_CUT_CNT = counterAdd (s.dev.reg Reg.FAB_CUT_CNT) 1 ∧ PfTold s.dev b (fabPf s.dev) 0x160 s.dev.fab.epoch ∧
        OnlyRegs [Reg.FAB_GSTAT, Reg.FAB_CUT_CNT, Reg.FAB_NO_ROUTE, Reg.RING_EVT_LOST (fabPf s.dev)] s.dev b) ∧
    (kvFind a s.dev.fab.hb = none → Runs (.heartbeatLoss a) s fun b => b = s.dev) ∧
    (s.dev.fab.state = 3 → Runs .sequesterTimeout s fun b =>
      b.fab = { s.dev.fab with state := 4 } ∧ PfTold s.dev b (fabPf s.dev) 0x160 s.dev.fab.epoch ∧
      OnlyRegs [Reg.RING_EVT_LOST (fabPf s.dev)] s.dev b) ∧
    (s.dev.fab.state ≠ 3 → Runs .sequesterTimeout s fun b => b = s.dev) ∧
    (∀ m r, s.dev.fab.heldChanges = (true, m) :: r → s.dev.fab.ops = [] → s.dev.twin.role = 0 → Runs .membershipHoldExpire s fun b =>
      b.fab.heldChanges = r ∧ b.fab.members = addMember m s.dev.fab.members ∧ b.fab.state = 2 ∧
      b.fab.epoch = max s.dev.fab.epoch s.dev.fab.epochMax + 1)) ∧
  (∀ (s : State) (m : List Byte), s.dev.pwr.off = false → msgType m = 0x30 → msgOk true m = true → beAt (msgBody m) 0 16 = s.dev.fabUid →
    s.dev.pwr.state = 2 ∨ s.dev.pwr.state = 3 → Runs (.wakeRx m) s fun b =>
      b.pwr.state = 4 ∧ b.regN Reg.PWR_STAT / 256 % 16 = 2 ∧ b.reg Reg.FAB_MSG_RX = counterAdd (s.dev.reg Reg.FAB_MSG_RX) 1)

/-- Global operations, snapshots, and the fabric's admin commands. -/
def Obligations.FabricOperations : Prop :=
  (∀ (s : State) (m : List Byte) (a id : Nat) (x : FabRun), Hears s false m 0x10 → msgSrc m = some a → id = msgOp m → s.dev.fab.state = 2 →
    id ∉ s.dev.fab.dead → s.dev.fabRun? id = some x → a ∉ x.reports →
    (x.entered = false → Runs (.upRx m) s fun b => b.fabRun? id = some { x with reports := x.reports ++ [a] } ∧ Heard s.dev b []) ∧
    (∀ p, x.entered = true → x.sent = false → (∀ c ∈ s.dev.fabChildren, c ∈ x.reports ++ [a]) → s.dev.fabParent = some p →
      Runs (.upRx m) s fun b =>
        b.fabRun? id = some { x with reports := x.reports ++ [a], sent := true } ∧ Sends s.dev b p 0x10 id (beBytes 8 0) ∧
        Heard s.dev b [Reg.FAB_NO_ROUTE]) ∧
    (∀ e, x.entered = true → x.sent = false → (∀ c ∈ s.dev.fabChildren, c ∈ x.reports ++ [a]) → s.dev.isRoot = true → x.op = 1 →
      x.cmd = some e → s.dev.glb.planes.ctlUp = true → s.dev.ring.taken = [{ e := e, priv := true }] → Runs (.upRx m) s fun b =>
        b.fabRun? id = none ∧ AdmDone s.dev b e 0x70 ∧ Heard s.dev b [Reg.FAB_NO_ROUTE])) ∧
  (∀ (s : State) (m : List Byte) (p id : Nat) (x : FabRun), Hears s false m 0x11 → msgSrc m = some p → s.dev.fabParent = some p → id = msgOp m →
    id ∉ s.dev.fab.dead → s.dev.fabRun? id = some x →
    (∀ e, x.op = 1 → x.cmd = some e → s.dev.glb.planes.ctlUp = true → s.dev.ring.taken = [{ e := e, priv := true }] →
      Runs (.downRx m) s fun b => b.fabRun? id = none ∧ AdmDone s.dev b e 0x70 ∧ Heard s.dev b [Reg.FAB_NO_ROUTE]) ∧
    (x.op = 3 → s.dev.nowNs ≤ beAt (msgBody m) 0 8 → Runs (.downRx m) s fun b =>
      b.fabRun? id = some { x with t := some (beAt (msgBody m) 0 8), late := false } ∧ Heard s.dev b [Reg.FAB_NO_ROUTE])) ∧
  (∀ (s : State) (m : List Byte) (p id : Nat), Hears s false m 0x12 → msgSrc m = some p → s.dev.fabParent = some p → id = msgOp m →
    s.dev.fab.state = 2 → id ∉ s.dev.fab.dead → s.dev.fabRun? id = none →
    (leAt (msgBody m) 0 1 = 2 → Runs (.bcastRx m) s fun b =>
      (id, (msgBody m).drop 4) ∈ b.fab.bcasts ∧ b.fab.bcasts.length ≤ 16 ∧ PfTold s.dev b (fabPf s.dev) 0x162 2) ∧
    (∀ q, leAt (msgBody m) 0 1 = 3 → s.dev.fabChildren = [] → s.dev.isRoot = false → s.dev.fabParent = some q → Runs (.bcastRx m) s fun b =>
      (∃ y, b.fabRun? id = some y ∧ y.op = 3 ∧ y.entered = true ∧ y.sent = true ∧ y.sets = leAt (msgBody m) 4 1 % 8) ∧
      Sends s.dev b q 0x10 id (beBytes 8 0)) ∧
    (leAt (msgBody m) 0 1 = 4 → s.dev.ten.tens = [] → s.dev.cpu.cores = [] → s.dev.fab.ops = [] → s.dev.twin.role < 2 →
      Runs (.bcastRx m) s fun b => b.fab.state = 1 ∧ b.fab.members = [] ∧ b.fab.restart = some (id, none))) ∧
  (∀ (s : State) (e : AdmEntry) (id : Nat) (payload : List Byte), s.dev.fab.state = 2 → s.dev.fab.restart = none → s.dev.fab.ops = [] →
    payload = fitTo e.len e.buf →
    (∀ p, s.dev.isRoot = false → s.dev.fabParent = some p →
      (s.dev.fabChildren = [] → OpTakes s e 1 id → Runs (.fabOpBarrier e) s fun b =>
        AdmWaits b e ∧ Sends s.dev b p 0x10 id (beBytes 8 0) ∧
        b.fabRun? id = some { op := 1, id := id, cmd := some e, entered := true, sent := true } ∧ OnlyRegs [Reg.FAB_NO_ROUTE] s.dev b) ∧
      (OpTakes s e 2 id → Runs (.fabOpBroadcast e) s fun b =>
        AdmWaits b e ∧ Sends s.dev b p 0x12 id (beBytes 1 2 ++ [0, 0, 0] ++ payload) ∧
        b.fabRun? id = some { op := 2, id := id, cmd := some e } ∧ OnlyRegs [Reg.FAB_NO_ROUTE] s.dev b) ∧
      (OpTakes s e 3 id → Runs (.fabOpSnapshot e) s fun b =>
        AdmWaits b e ∧ Sends s.dev b p 0x12 id (beBytes 1 3 ++ [0, 0, 0] ++ leBytes 1 (fld e.d4 2 0)) ∧
        b.fabRun? id = some { op := 3, id := id, cmd := some e } ∧ OnlyRegs [Reg.FAB_NO_ROUTE] s.dev b) ∧
      (OpTakes s e 4 id → Runs (.fabOpReset e) s fun b =>
        AdmWaits b e ∧ Sends s.dev b p 0x12 id (beBytes 1 4 ++ [0, 0, 0]) ∧
        b.fabRun? id = some { op := 4, id := id, cmd := some e } ∧ OnlyRegs [Reg.FAB_NO_ROUTE] s.dev b)) ∧
    (s.dev.isRoot = true → s.dev.fabChildren = [] →
      (OpTakes s e 1 id → Completes (.fabOpBarrier e) e 0x70 s fun b => b.fab.ops = [] ∧ OnlyRegs [] s.dev b) ∧
      (OpTakes s e 2 id → Completes (.fabOpBroadcast e) e 0x70 s fun b =>
        (id, payload) ∈ b.fab.bcasts ∧ b.fab.ops = [] ∧ OnlyRegs [] s.dev b))) ∧
  (∀ (s : State) (e : AdmEntry) (id : Nat), OpTakes s e 1 id →
    (s.dev.fab.state = 3 ∨ s.dev.fab.state = 4 → Runs (.fabOpBarrier e) s fun b =>
      AdmEnded s.dev b e 0x70 St.STATE s.dev.fab.state ∧ b.fab = s.dev.fab ∧
      b.reg Reg.FAB_OP_REFUSED = counterAdd (s.dev.reg Reg.FAB_OP_REFUSED) 1 ∧ OnlyRegs [Reg.FAB_OP_REFUSED] s.dev b) ∧
    (s.dev.fab.state = 0 → Runs (.fabOpBarrier e) s fun b => AdmEnded s.dev b e 0x70 St.STATE 0 ∧ b.fab = s.dev.fab ∧ OnlyRegs [] s.dev b)) ∧
  (∀ (s : State) (id t : Nat) (x : FabRun), Alive s → s.dev.fabRun? id = some x →
    (x.t = some t → x.cut = false → x.sets = 1 → Runs (.snapshotCut id) s fun b =>
      (∃ y, b.fabRun? id = some y ∧ y.cut = true ∧ y.t = some t) ∧
      (∀ p, p < 16 → (s.dev.netPort p).reading = false → b.netPort p = {
          s.dev.netPort p with
          bank := (s.dev.netPort p).counters, counters := [], reading := true, snapSeq := ((s.dev.netPort p).snapSeq + 1) % 65536 }) ∧
      (∀ p, (s.dev.netPort p).reading = true → b.netPort p = s.dev.netPort p) ∧ OnlyRegs [] s.dev b) ∧
    (x.t = none → Runs (.snapshotCut id) s fun b => b = s.dev) ∧
    (x.cut = true → x.t = some t → (∀ e, x.cmd = some e → s.dev.ring.taken = [{ e := e, priv := true }]) → Runs (.snapshotEnd id) s fun b =>
      (∃ r, (id, r) ∈ b.fab.snaps ∧ r.length = 64 ∧ leAt r 0 8 = t % 2 ^ 64 ∧ leAt r 8 8 = s.dev.fab.epoch % 2 ^ 64 ∧
        leAt r 20 4 = x.inflight % 2 ^ 32 ∧ leAt r 24 4 = x.refused % 2 ^ 32 ∧ leAt r 32 1 = b2n x.late) ∧ b.fabRun? id = none ∧
      (∀ e, x.cmd = some e → AdmDone s.dev b e 0x70) ∧ (x.cmd = none → PfTold s.dev b (fabPf s.dev) 0x162 3)) ∧
    (x.cut = false → Runs (.snapshotEnd id) s fun b => b = s.dev) ∧
    (∀ e, x.cmd = some e → s.dev.glb.planes.ctlUp = true → s.dev.ring.taken = [{ e := e, priv := true }] → Runs (.fabOpTimeout id) s fun b =>
      AdmEnded s.dev b e 0x70 St.TIMEOUT 0x40 ∧ b.fabRun? id = none ∧ b.fab.dead = s.dev.fab.dead ++ [id] ∧ OnlyRegs [] s.dev b)) ∧
  (∀ (s : State) (e : AdmEntry) (lv i : Nat), AdmReady s → Priv e s → lv = fld e.d2 1 0 → i = fld e.d2 39 32 →
    (lv ≠ 3 → i < routeCount lv → e.len = 64 →
      (e.bufErr = none → lineLearned (fitTo 64 e.buf) = false → s.dev.fab.state = 1 ∨ s.dev.fab.state = 2 → Waits (.fabRouteSet e) e s fun b =>
        TuePosts s.dev b [{
            op := 0x10, table := 7, index := s.dev.routeBase + 64 * routeIndex lv i, payload := fitTo 64 e.buf,
            poster := .adm e 0x71 0 0 true }] ∧ OnlyRegs [] s.dev b) ∧
      Completes (.fabRouteRead e) e 0x72 s (fun b =>
        Out.hostWrite (.pf e.pf) none e.d1.toNat (patch (s.dev.routeLine lv i) 7
          (leBytes 1 (packNat ((lineHops (s.dev.routeLine lv i)).zipIdx.map (fun h => (b2n (s.dev.hopUp h.1), h.2)))))) false ∈ b.out ∧
        OnlyRegs [] s.dev b)) ∧
    (e.len = 0 → Completes (.fabNbrSet e) e 0x73 s fun b =>
      b.nbr (fld e.d2 5 0) = { v := bitOf e.d3 32, addr := fld e.d3 19 0, action := fld e.d4 16 0 } ∧
      (∀ n, n ≠ fld e.d2 5 0 → b.nbr n = s.dev.nbr n) ∧ OnlyRegs [] s.dev b) ∧
    (∀ ms, e.len % 24 = 0 → ms = (s.dev.fab.members.drop (fld e.d2 47 32)).take (e.len / 24) → ms ≠ [] → Completes (.fabMembersRead e) e 0x74 s fun b =>
      Out.hostWrite (.pf e.pf) none e.d1.toNat (ms.flatMap (fun m => leBytes 4 m.addr ++ leBytes 4 m.st ++ beBytes 16 m.uid)) false ∈ b.out ∧
      b.fab = s.dev.fab ∧ OnlyRegs [] s.dev b) ∧
    (∀ r, s.dev.fab.bcasts.find? (fun x => decide (x.1 = fld e.d2 47 32)) = some r → r.2.length ≤ e.len → r.2 ≠ [] → s.dev.fab.state ≠ 0 →
      Completes (.fabBcastRead e) e 0x75 s fun b =>
        Out.hostWrite (.pf e.pf) none e.d1.toNat r.2 false ∈ b.out ∧ b.fab = s.dev.fab ∧ OnlyRegs [] s.dev b) ∧
    (∀ r, s.dev.fab.snaps.find? (fun x => decide (x.1 = fld e.d2 47 32)) = some r → e.len = 64 → r.2 ≠ [] → s.dev.fab.state ≠ 0 →
      Completes (.fabSnapRead e) e 0x76 s fun b =>
        Out.hostWrite (.pf e.pf) none e.d1.toNat r.2 false ∈ b.out ∧ b.fab = s.dev.fab ∧ OnlyRegs [] s.dev b))

/-! Twins (R436 to R456). -/

/-- Pairs form and end; digests are exchanged and compared. -/
def Obligations.TwinPairs : Prop :=
  (∀ (s : State) (e : AdmEntry) (peer rank mode : Nat), AdmReady s → Priv e s → peer = fld e.d2 19 0 → rank = fld e.d2 32 32 →
    mode = fld e.d2 34 33 →
    (mode = 1 ∨ mode = 2 → 1 ≤ e.len → e.len % 32 = 0 → e.len ≤ 512 → e.d4.toNat % 4096 = 0 → e.d5.toNat % 1048576 = 0 → e.d5.toNat ≠ 0 →
      e.d4.toNat + e.d5.toNat ≤ hbmReserved → s.dev.fab.state = 2 → s.dev.twin.role = 0 → s.dev.topologyOk peer mode = true → e.bufErr = none →
      s.dev.twin.peerPair = none → Waits (.twinPair e) e s fun b =>
        b.twin = {
            s.dev.twin with
            role := 1, peer := peer, rank := rank, mode := mode, table := fitTo e.len e.buf, mirror := fld e.d3 16 0,
            annPorts := fld e.d3 47 32, ringBase := e.d4.toNat, ringSize := e.d5.toNat, pairCmd := some e } ∧
        Sends s.dev b peer 0x20 0 (pairBody peer rank mode (fitTo e.len e.buf)) ∧ PfTold s.dev b (twinPf s.dev) 0x170 0 ∧
        OnlyRegs [Reg.FAB_NO_ROUTE, Reg.RING_EVT_LOST (twinPf s.dev)] s.dev b) ∧
    (mode = 0 ∨ mode = 3 → Runs (.twinPair e) s fun b =>
      AdmEnded s.dev b e 0x78 St.RANGE (rangeAt 2 33) ∧ (s.dev.twin.peerPair = none → b.twin = s.dev.twin)) ∧
    (s.dev.twin.role ≠ 0 → s.dev.twin.role ≠ 2 → s.dev.twin.pairCmd = none → s.dev.twin.held = [] → Completes (.twinUnpair e) e 0x79 s fun b =>
      b.twin.role = 0 ∧ b.twin.streams = s.dev.twin.streams ∧ b.twin.leases = s.dev.twin.leases ∧ PfTold s.dev b (twinPf s.dev) 0x170 0 ∧
      OnlyRegs [Reg.RING_EVT_LOST (twinPf s.dev)] s.dev b) ∧
    (s.dev.twin.role = 2 → s.dev.twin.pairCmd = none → s.dev.twin.held = [] → Completes (.twinUnpair e) e 0x79 s fun b =>
      b.twin.role = 0 ∧ b.twin.streams = s.dev.twin.streams ∧ Sends s.dev b s.dev.twin.peer 0x26 0 []) ∧
    (s.dev.twin.role = 0 → Runs (.twinUnpair e) s fun b => AdmEnded s.dev b e 0x79 St.STATE 0 ∧ b.twin = s.dev.twin) ∧
    (2 ≤ fld e.d3 6 0 → fld e.d3 6 0 ≤ 64 → fld e.d3 31 16 ≠ 0 → Completes (.twinStreamSet e) e 0x7A s fun b =>
      b.stream (fld e.d2 11 0) = { v := bitOf e.d2 32, elimCmp := bitOf e.d2 33, hist := fld e.d3 6 0, resetMs := fld e.d3 31 16 } ∧
      (∀ k, k ≠ fld e.d2 11 0 → b.stream k = s.dev.stream k) ∧ OnlyRegs [] s.dev b)) ∧
  (∀ (s : State) (m : List Byte) (e : AdmEntry) (good : Bool), Hears s false m 0x20 → s.dev.twin.role = 1 →
    msgSrc m = some s.dev.twin.peer → s.dev.twin.pairCmd = some e → s.dev.glb.planes.ctlUp = true → s.dev.ring.taken = [{ e := e, priv := true }] →
    good = (decide (beAt (msgBody m) 0 4 = s.dev.fabA ∧ leAt (msgBody m) 4 1 + s.dev.twin.rank = 1 ∧ leAt (msgBody m) 5 1 = s.dev.twin.mode) &&
      decide (slice (msgBody m) 8 32 = tollSha s.dev.twin.table)) →
    (good = true → Runs (.pairRx m) s fun b =>
      b.twin.role = (if s.dev.twin.mode = 2 ∧ s.dev.twin.rank = 1 then 3 else 2) ∧ b.twin.peerUid = msgUid m ∧ b.twin.peerLost = false ∧
      b.twin.pairCmd = none ∧ b.twin.digestAt = some s.dev.nowNs ∧ AdmDone s.dev b e 0x78 ∧ PfTold s.dev b (twinPf s.dev) 0x170 0 ∧
      Heard s.dev b [Reg.RING_EVT_LOST (twinPf s.dev)]) ∧
    (good = false → s.dev.twin.held = [] → Runs (.pairRx m) s fun b =>
      b.twin.role = 0 ∧ AdmEnded s.dev b e 0x78 St.REMOTE 0x50 ∧ b.twin.streams = s.dev.twin.streams)) ∧
  (∀ (s : State) (e : AdmEntry), Alive s → s.dev.twin.pairCmd = some e → s.dev.twin.role = 1 → s.dev.glb.planes.ctlUp = true →
    s.dev.ring.taken = [{ e := e, priv := true }] → s.dev.twin.held = [] → Runs .pairTimeout s fun b =>
      b.twin.role = 0 ∧ AdmEnded s.dev b e 0x78 St.TIMEOUT 0x50 ∧ PfTold s.dev b (twinPf s.dev) 0x170 0 ∧
      OnlyRegs [Reg.RING_EVT_LOST (twinPf s.dev)] s.dev b) ∧
  (∀ (s : State) (t : TwinPart), Alive s → s.dev.twin = t →
    (∀ grant, 2 ≤ t.role → t.acc.length ≤ 79 → grant = (decide (t.mode = 2) && decide (t.role = 3) && t.granting) → Runs .digestSend s fun b =>
      Sends s.dev b t.peer 0x21 0 (beBytes 1 t.role ++ beBytes 1 (b2n grant) ++ beBytes 2 t.acc.length ++
        t.acc.flatMap (fun r => beBytes 2 r.stream ++ beBytes 2 r.first ++ beBytes 2 r.count ++ [0, 0] ++ beBytes 8 r.dig)) ∧
      b.twin = {
          t with
          acc := [], own := t.own ++ t.acc.map (fun r => { r with time := s.dev.nowNs }),
          grantTx := if grant then s.dev.nowNs else t.grantTx } ∧ OnlyRegs [Reg.FAB_NO_ROUTE] s.dev b) ∧
    (t.role < 2 → Runs .digestSend s fun b => b = s.dev) ∧
    (∀ stream first, (∃ r ∈ t.own ++ t.theirs, r.stream = stream ∧ r.first = first) → Runs (.digestRangeMissed stream first) s fun b =>
      b.twin = {
          t with
          own := t.own.filter (fun r => !decide (r.stream = stream ∧ r.first = first)),
          theirs := t.theirs.filter (fun r => !decide (r.stream = stream ∧ r.first = first)) } ∧
      b.reg Reg.TWIN_DIG_MISSED = counterAdd (s.dev.reg Reg.TWIN_DIG_MISSED) 1 ∧ OnlyRegs [Reg.TWIN_DIG_MISSED] s.dev b) ∧
    (2 ≤ t.role → t.peerLost = false → t.exercising = false → t.mode = 1 ∨ t.role ≠ 3 → Runs .peerDigestLoss s fun b =>
      b.twin = { t with peerLost := true, holdoffAt := s.dev.nowNs } ∧ b.regBit Reg.TWIN_GSTAT 4 = true ∧
      PfTold s.dev b (twinPf s.dev) 0x172 0 ∧ OnlyRegs [Reg.TWIN_GSTAT, Reg.RING_EVT_LOST (twinPf s.dev)] s.dev b) ∧
    (∀ p, t.mode = 2 → t.role = 3 → t.peerLost = false → t.exercising = false → s.dev.fab.state = 2 → s.dev.parentOf t.peer = some p →
      Runs .peerDigestLoss s fun b =>
        b.twin = { t with peerLost := true, holdoffAt := s.dev.nowNs, granting := false, revoking := true } ∧
        Sends s.dev b p 0x22 0 (beBytes 16 t.peerUid) ∧ PfTold s.dev b (twinPf s.dev) 0x172 0) ∧
    (∀ r differs, t.check = some r → t.checkPeer = none → Runs (.selfCheckDone differs) s fun b =>
      b.twin = { t with checkOwn := some differs } ∧
      Sends s.dev b t.peer 0x24 0 (beBytes 1 (b2n differs) ++ [0] ++ beBytes 2 r.stream ++ beBytes 2 r.first ++ beBytes 2 r.count) ∧
      OnlyRegs [Reg.FAB_NO_ROUTE] s.dev b) ∧
    (∀ stream, Runs (.twinRecoveryReset stream) s fun b =>
      b.stream stream = { s.dev.stream stream with last := none, seen := [], digs := [] } ∧
      (∀ k, k ≠ stream → b.stream k = s.dev.stream k) ∧ Agree [.twin] s.dev b)) ∧
  (∀ (s : State) (m : List Byte) (t : TwinPart), Hears s false m 0x21 → s.dev.twin = t → t.role = 2 ∨ t.role = 3 → msgUid m = t.peerUid →
    (beAt (msgBody m) 2 2 = 0 → t.theirs = [] → Runs (.digestRx m) s fun b =>
      b.twin = {
          t with
          digestAt := some s.dev.nowNs, peerRole := leAt (msgBody m) 0 1, peerLost := false, granting := true, own := b.twin.own,
          grantRx := if leAt (msgBody m) 1 1 % 2 = 1 ∧ t.role = 2 then some (max (t.grantRx.getD 0) (msgSent m)) else t.grantRx } ∧
      Heard s.dev b []) ∧
    (∀ r x, beAt (msgBody m) 2 2 = 1 → t.theirs = [] → t.check = none → t.swapCmd = none →
      r = {
          stream := beAt (msgBody m) 4 2 % 4096, first := beAt (msgBody m) 6 2, count := beAt (msgBody m) 8 2, dig := beAt (msgBody m) 12 8,
          time := s.dev.nowNs } → s.dev.ownDigest r = some x → x ≠ r.dig → Runs (.digestRx m) s fun b =>
        b.twin.check = some r ∧ b.twin.digestAt = some s.dev.nowNs ∧
        b.reg Reg.TWIN_DIG_MISMATCH = counterAdd (s.dev.reg Reg.TWIN_DIG_MISMATCH) 1 ∧ Heard s.dev b [Reg.TWIN_DIG_MISMATCH])) ∧
  (∀ (s : State) (m : List Byte) (r : DigRange) (own peer : Bool), Hears s false m 0x24 → 2 ≤ s.dev.twin.role → msgUid m = s.dev.twin.peerUid →
    s.dev.twin.check = some r → s.dev.twin.checkOwn = some own → peer = decide (leAt (msgBody m) 0 1 = 1) → Runs (.checkRx m) s fun b =>
      b.twin.check = none ∧ b.twin.checkOwn = none ∧ b.twin.checkPeer = none ∧
      (own = true → peer = true → b.regBit Reg.TWIN_GSTAT 2 = true ∧ PfTold s.dev b (twinPf s.dev) 0x171 0 ∧ b.twin.role = s.dev.twin.role) ∧
      (own = false → peer = false →
        b.regBit Reg.TWIN_GSTAT 2 = true ∧ PfTold s.dev b (twinPf s.dev) 0x171 r.first ∧ b.twin.role = s.dev.twin.role) ∧
      (own = true → peer = false → b.twin.role = 5) ∧
      (own = false → peer = true → b.twin.role = s.dev.twin.role ∧ OnlyRegs [Reg.FAB_MSG_RX] s.dev b))

/-- Leases, takeover, swap and exercise. -/
def Obligations.TwinTurns : Prop :=
  (∀ (s : State) (t : TwinPart), Alive s → s.dev.twin = t →
    (∀ p, t.mode = 2 → t.role = 2 ∨ t.role = 4 → s.dev.fabParent = some p → Runs .leaseReqSend s fun b =>
      Sends s.dev b p 0x27 0 [] ∧ Agree [.square, .regs] s.dev b ∧ OnlyRegs [Reg.FAB_NO_ROUTE] s.dev b) ∧
    (t.mode = 2 → t.role = 2 → Runs .leaseExpire s fun b =>
      b.twin = { t with role := 4, grantRx := none } ∧ b.reg Reg.TWIN_LEASE_STOP = counterAdd (s.dev.reg Reg.TWIN_LEASE_STOP) 1 ∧
      PfTold s.dev b (twinPf s.dev) 0x170 0 ∧ OnlyRegs [Reg.TWIN_LEASE_STOP, Reg.RING_EVT_LOST (twinPf s.dev)] s.dev b) ∧
    Runs .revokeTimeout s (fun b => b.twin = { t with revoking := false } ∧ Agree [.twin] s.dev b) ∧
    (t.role = 3 → t.takeoverAt.isSome = true → s.dev.fab.state = 2 → Runs .takeover s fun b =>
      b.twin.role = 2 ∧ b.twin.grantRx = some s.dev.nowNs ∧ b.twin.takeoverAt = none ∧ b.twin.revoking = false ∧ b.twin.held = [] ∧
      b.reg Reg.TWIN_TAKEOVER_CNT = counterAdd (s.dev.reg Reg.TWIN_TAKEOVER_CNT) 1 ∧
      b.regN Reg.TWIN_LAST_TAKEOVER = min ((s.dev.nowNs - t.digestAt.getD s.dev.nowNs) / 1000) 4095 ∧ b.regBit Reg.TWIN_GSTAT 1 = true) ∧
    (t.takeoverAt = none → Runs .takeover s fun b => b = s.dev) ∧
    (∀ tok, (∃ h ∈ t.held, h.tok = tok) → Runs (.shadowHoldExpire tok) s fun b =>
      b.twin = { t with held := t.held.filter (fun h => decide (h.tok ≠ tok)) } ∧ b.pkt tok = none ∧
      b.reg Reg.TWIN_HOLD_DROP = counterAdd (s.dev.reg Reg.TWIN_HOLD_DROP) 1) ∧
    (t.role = 5 → Runs .holdoffExpire s fun b =>
      b.twin = { t with role := if t.mode = 1 then 2 else 3 } ∧ PfTold s.dev b (twinPf s.dev) 0x170 0 ∧
      OnlyRegs [Reg.RING_EVT_LOST (twinPf s.dev)] s.dev b) ∧
    (t.rank = 0 → t.role = 3 → t.mode = 2 → t.peerLost = false → s.dev.swapRefused = none → Runs .holdoffExpire s fun b =>
      b.twin = { t with swapping := true } ∧ Sends s.dev b t.peer 0x25 0 [] ∧ OnlyRegs [Reg.FAB_NO_ROUTE] s.dev b) ∧
    (t.rank = 1 → t.role = 3 → t.mode = 2 → s.dev.regBit Reg.TWIN_SWAP_CFG 31 = true → s.dev.swapRefused = none → Runs .plannedSwap s fun b =>
      b.twin = { t with swapping := true, lastSwap := s.dev.nowNs } ∧ Sends s.dev b t.peer 0x25 0 [] ∧ OnlyRegs [Reg.FAB_NO_ROUTE] s.dev b) ∧
    (s.dev.regBit Reg.TWIN_SWAP_CFG 31 = false → Runs .plannedSwap s fun b => b = s.dev) ∧
    (t.role = 3 → t.exercising = false → Runs .exerciseStart s fun b =>
      b.twin = { t with exercising := true } ∧ b.reg Reg.TWIN_EXER_CNT = counterAdd (s.dev.reg Reg.TWIN_EXER_CNT) 1 ∧
      OnlyRegs [Reg.TWIN_EXER_CNT] s.dev b) ∧
    (t.exercising = true → Runs (.exerciseDone false) s fun b =>
      b.twin = { t with exercising := false } ∧ b.regN Reg.TWIN_EXER_LAST = 1 ∧ PfTold s.dev b (twinPf s.dev) 0x173 0 ∧
      OnlyRegs [Reg.TWIN_EXER_LAST, Reg.RING_EVT_LOST (twinPf s.dev)] s.dev b) ∧
    (t.exercising = true → t.role = 3 → Runs (.exerciseDone true) s fun b =>
      b.twin = { t with exercising := false, role := 5, holdoffAt := s.dev.nowNs } ∧ b.regN Reg.TWIN_EXER_LAST = 2 ∧
      b.regBit Reg.TWIN_GSTAT 3 = true) ∧
    (t.exercising = false → Runs (.exerciseDone true) s fun b => b = s.dev)) ∧
  (∀ (s : State) (m : List Byte) (a u : Nat), Hears s false m 0x27 → msgSrc m = some a → u = msgUid m →
    (s.dev.fab.state = 2 → (∀ x, kvFind u s.dev.twin.revokes = some x → x ≤ s.dev.nowNs) → Runs (.leaseReqRx m) s fun b =>
      b.twin = { s.dev.twin with leases := kvPut u s.dev.nowNs s.dev.twin.leases } ∧ Sends s.dev b a 0x28 0 [] ∧
      Heard s.dev b [Reg.FAB_NO_ROUTE]) ∧
    (∀ x, kvFind u s.dev.twin.revokes = some x → s.dev.nowNs < x → Runs (.leaseReqRx m) s fun b =>
      b.twin = s.dev.twin ∧ b.glb.square = s.dev.glb.square ∧ Heard s.dev b [])) ∧
  (∀ (s : State) (m : List Byte) (a u : Nat), Hears s false m 0x22 → msgSrc m = some a → u = beAt (msgBody m) 0 16 → Runs (.revokeRx m) s fun b =>
    b.twin = { s.dev.twin with revokes := kvPut u (s.dev.nowNs + 10000000) s.dev.twin.revokes } ∧
    Sends s.dev b a 0x23 0 (beBytes 8 (kvGet 0 s.dev.twin.leases u)) ∧ Heard s.dev b [Reg.FAB_NO_ROUTE]) ∧
  (∀ (s : State) (m : List Byte) (t : TwinPart), s.dev.twin = t →
    (Hears s false m 0x28 → t.mode = 2 → t.role = 2 → Runs (.leaseRx m) s fun b =>
      b.twin = { t with grantRx := some (max (t.grantRx.getD 0) (msgSent m)) } ∧ Heard s.dev b []) ∧
    (Hears s false m 0x28 → t.mode = 2 → t.role = 4 → t.peerLost = false → t.peerRole = 2 → Runs (.leaseRx m) s fun b =>
      b.twin.role = 3 ∧ PfTold s.dev b (twinPf s.dev) 0x170 0) ∧
    (Hears s false m 0x23 → t.role = 3 → t.revoking = true → Runs (.revokedRx m) s fun b =>
      b.twin = { t with revoking := false, takeoverAt := some (max (beAt (msgBody m) 0 8) t.grantTx + 601000) } ∧ Heard s.dev b []) ∧
    (Hears s false m 0x23 → t.revoking = false → Runs (.revokedRx m) s fun b => b.twin = t ∧ Heard s.dev b []) ∧
    (Hears s false m 0x25 → t.role = 2 → t.mode = 2 → msgUid m = t.peerUid → msgLen m = 0 → s.dev.swapRefused = none → Runs (.swapRx m) s fun b =>
      b.twin.role = 3 ∧ b.twin.grantRx = none ∧ b.twin.granting = true ∧ b.twin.acc = [] ∧ PfTold s.dev b (twinPf s.dev) 0x170 0) ∧
    (∀ r, Hears s false m 0x25 → 2 ≤ t.role → t.mode = 2 → msgUid m = t.peerUid → msgLen m = 0 → s.dev.swapRefused = some r →
      Runs (.swapRx m) s fun b => b.twin = t ∧ Sends s.dev b t.peer 0x25 0 (beBytes 1 r) ∧ Heard s.dev b [Reg.FAB_NO_ROUTE]) ∧
    (∀ e, Hears s false m 0x25 → 2 ≤ t.role → t.mode = 2 → msgUid m = t.peerUid → 0 < msgLen m → t.swapCmd = some e →
      s.dev.glb.planes.ctlUp = true → s.dev.ring.taken = [{ e := e, priv := true }] → Runs (.swapRx m) s fun b =>
        b.twin = { t with swapping := false, swapCmd := none, holdoffAt := s.dev.nowNs } ∧
        AdmEnded s.dev b e 0x7B St.STATE (leAt (msgBody m) 0 1) ∧ Heard s.dev b []) ∧
    (Hears s false m 0x26 → t.role = 3 → t.mode = 2 → msgUid m = t.peerUid → t.exercising = false →
      (∀ e, t.swapCmd = some e → s.dev.glb.planes.ctlUp = true ∧ s.dev.ring.taken = [{ e := e, priv := true }]) → Runs (.releasedRx m) s fun b =>
        b.twin.role = 2 ∧ b.twin.peerRole = 3 ∧ b.twin.grantRx = some s.dev.nowNs ∧ b.twin.swapCmd = none ∧
        (∀ e, t.swapCmd = some e → AdmDone s.dev b e 0x7B)) ∧
    (Hears s false m 0x26 → t.role ≠ 3 → Runs (.releasedRx m) s fun b => b.twin = t ∧ Heard s.dev b [])) ∧
  (∀ (s : State) (e : AdmEntry) (t : TwinPart), AdmReady s → Priv e s → s.dev.twin = t →
    (t.role = 2 → t.mode = 2 → s.dev.swapRefused = none → t.swapCmd = none → Completes (.twinSwap e) e 0x7B s fun b =>
      b.twin.role = 3 ∧ b.twin.grantRx = none ∧ PfTold s.dev b (twinPf s.dev) 0x170 0) ∧
    (t.role = 3 → t.mode = 2 → s.dev.swapRefused = none → t.swapCmd = none → Waits (.twinSwap e) e s fun b =>
      b.twin = { t with swapCmd := some e, swapping := true } ∧ Sends s.dev b t.peer 0x25 0 [] ∧ OnlyRegs [Reg.FAB_NO_ROUTE] s.dev b) ∧
    (t.role < 2 → Runs (.twinSwap e) s fun b => AdmEnded s.dev b e 0x7B St.STATE t.role ∧ b.twin = t) ∧
    (t.role = 3 → t.exercising = false → Completes (.twinExerciseNow e) e 0x7C s fun b =>
      b.twin = { t with exercising := true } ∧ b.reg Reg.TWIN_EXER_CNT = counterAdd (s.dev.reg Reg.TWIN_EXER_CNT) 1 ∧
      OnlyRegs [Reg.TWIN_EXER_CNT] s.dev b) ∧
    (t.role ≠ 3 → Runs (.twinExerciseNow e) s fun b => AdmEnded s.dev b e 0x7C St.STATE t.role ∧ b.twin = t))

/-! Wickets and management (R459 to R485). -/

/-- The Wickets: post, status, take, bind, lock, and delivery to a cluster. -/
def Obligations.Wickets : Prop :=
  (∀ (s : State) (id w : Nat) (v : Word) (buf msg : List Byte) (x : Wicket) (seq : Nat), Reaches s id w → x = s.dev.wkt w →
    msg = (if id < 16 then s.dev.wktBuf w else fitTo 64 buf) → seq = (if x.seq = 0xFFFF then 1 else x.seq + 1) →
    (s.dev.wktMay id w true = true → bitOf v 0 = true → x.full = false → Runs (.wktPost id w v buf) s fun b =>
      b.wkt w = { x with slot := msg, seq := seq, full := true } ∧ (∀ k, k ≠ w → b.wkt k = s.dev.wkt k) ∧
      (s.dev.wktRecv w < 16 → s.dev.msixOpen (.pf (s.dev.wktRecv w)) (s.dev.wktArg w) = true →
        Out.msix (.pf (s.dev.wktRecv w)) (s.dev.wktArg w) (kvGet {} (s.dev.fnGet (.pf (s.dev.wktRecv w))).msix (s.dev.wktArg w)).addr
          (kvGet {} (s.dev.fnGet (.pf (s.dev.wktRecv w))).msix (s.dev.wktArg w)).data ∈ b.out) ∧
      (0x40 ≤ s.dev.wktRecv w → s.dev.wktRecv w ≤ 0x4F → s.dev.pwr.stopC = true → s.dev.pwr.state = 2 →
        b.pwr = { s.dev.pwr with state := 4 } ∧ b.regN Reg.PWR_STAT = 4 + 3 * 256) ∧
      Agree [.fns, .hifPorts, .mgt, .out, .pwr, .regs] s.dev b) ∧
    (s.dev.wktMay id w true = true → bitOf v 0 = true → x.full = true → Runs (.wktPost id w v buf) s fun b =>
      b.wkt w = { x with slot := msg, seq := seq, collide := true } ∧ (∀ k, k ≠ w → b.wkt k = s.dev.wkt k) ∧
      b.reg Reg.WKT_COLLIDE_CNT = counterAdd (s.dev.reg Reg.WKT_COLLIDE_CNT) 1 ∧ Agree [.mgt, .regs] s.dev b) ∧
    (s.dev.wktMay id w true = false → Runs (.wktPost id w v buf) s fun b =>
      b.mgt = s.dev.mgt ∧ b.reg Reg.WKT_DENY_CNT = counterAdd (s.dev.reg Reg.WKT_DENY_CNT) 1 ∧
      (s.dev.regBit Reg.WKT_GSTAT 1 = false →
        b.regN Reg.WKT_DENY_LOG = 65536 + id % 256 * 256 + w ∧ b.regBit Reg.WKT_GSTAT 1 = true) ∧
      (s.dev.regBit Reg.WKT_GSTAT 1 = true → b.reg Reg.WKT_DENY_LOG = s.dev.reg Reg.WKT_DENY_LOG) ∧
      OnlyRegs [Reg.WKT_DENY_CNT, Reg.WKT_DENY_LOG, Reg.WKT_GSTAT] s.dev b ∧ Agree [.regs] s.dev b) ∧
    (s.dev.wktMay id w false = true → x.seq < 65536 → Runs (.wktStat id w) s fun b =>
      b.lastRead.toNat = b2n x.full * 2 ^ 31 + b2n x.collide * 2 ^ 30 + x.seq ∧
      b.wkt w = { x with snap := x.slot, snapSeq := x.seq, taken := x.full } ∧ (∀ k, k ≠ w → b.wkt k = s.dev.wkt k) ∧
      Agree [.mgt, .lastRead] s.dev b) ∧
    (s.dev.wktMay id w false = false → Runs (.wktStat id w) s fun b =>
      b.lastRead = 0 ∧ b.mgt = s.dev.mgt ∧ b.reg Reg.WKT_DENY_CNT = counterAdd (s.dev.reg Reg.WKT_DENY_CNT) 1) ∧
    (s.dev.wktMay id w false = true → x.taken = true → Runs (.wktTake id w v) s fun b =>
      b.wkt w = { x with
          ackSeq := x.snapSeq, ackCode := fld v 15 0, collide := false, taken := false, full := x.full && decide (x.seq ≠ x.snapSeq) } ∧
      (∀ k, k ≠ w → b.wkt k = s.dev.wkt k) ∧
      (id = 0x10 → s.dev.wktSend w = 0x11 → PfTold s.dev b (s.dev.regFld Reg.MGT_EVT_CFG 3 0) 0x190 (leAt x.snap 0 4)) ∧
      (id ≠ 0x10 ∨ s.dev.wktSend w ≠ 0x11 → Agree [.mgt] s.dev b)) ∧
    (s.dev.wktMay id w false = true → x.taken = false → Runs (.wktTake id w v) s fun b =>
      b.regBit Reg.WKT_GSTAT 0 = true ∧ OnlyRegs [Reg.WKT_GSTAT] s.dev b ∧ Agree [.regs] s.dev b)) ∧
  (∀ (s : State) (pf w : Nat) (v : Word), Alive s →
    (w < 256 → s.dev.allowed pf (Reg.WKT_BIND w) true = true →
      (s.dev.regBit Reg.WKT_LOCK 0 = false → isMaster (fld v 15 8) = true → isMaster (fld v 7 0) = true → fld v 15 8 ≠ fld v 7 0 →
        fld v 15 8 ≠ 0x11 → (fld v 15 8 < 16 ∧ fld v 27 16 ≤ 1023) ∨ (0x40 ≤ fld v 15 8 ∧ fld v 15 8 ≤ 0x4F ∧ fld v 27 16 ≤ 3839) ∨
          fld v 27 16 = 0 → Runs (.wktBindWrite pf w v) s fun b =>
        b.reg (Reg.WKT_BIND w) = v &&& 0x8FFFFFFF#32 ∧ (b.wkt w).full = false ∧ (b.wkt w).collide = false ∧ (b.wkt w).seq = 0 ∧
        (b.wkt w).ackSeq = 0 ∧ (b.wkt w).ackCode = 0 ∧ (∀ k, k ≠ w → b.wkt k = s.dev.wkt k) ∧ OnlyRegs [Reg.WKT_BIND w] s.dev b ∧
        Agree [.mgt, .regs] s.dev b) ∧
      (s.dev.regBit Reg.WKT_LOCK 0 = false →
        fld v 15 8 = fld v 7 0 ∨ isMaster (fld v 15 8) = false ∨ isMaster (fld v 7 0) = false ∨ fld v 15 8 = 0x11 →
        Runs (.wktBindWrite pf w v) s fun b =>
          b.regBit Reg.WKT_GSTAT 0 = true ∧ OnlyRegs [Reg.WKT_GSTAT] s.dev b ∧ Agree [.regs] s.dev b) ∧
      (s.dev.regBit Reg.WKT_LOCK 0 = true → Runs (.wktBindWrite pf w v) s fun b => b = s.dev)) ∧
    (s.dev.allowed pf Reg.WKT_LOCK true = true → bitOf v 0 = true → Runs (.wktLock pf v) s fun b =>
      b.regBit Reg.WKT_LOCK 0 = true ∧ OnlyRegs [Reg.WKT_LOCK] s.dev b ∧ Agree [.regs] s.dev b)) ∧
  (∀ (s : State) (w c : Nat) (x : Wicket), Alive s → s.dev.wktV w = true → 0x40 ≤ s.dev.wktRecv w → s.dev.wktRecv w ≤ 0x4F →
    c = s.dev.wktArg w → x = s.dev.wkt w → x.full = true →
    (s.dev.pwr.stopC = false → (s.dev.ch c).v = true → s.dev.chRoom c = true → (s.dev.core ((s.dev.ch c).recv / 8)).running = true →
      (s.dev.core ((s.dev.ch c).recv / 8)).frozen = false → (s.dev.core ((s.dev.ch c).recv / 8)).starting = none →
      Runs (.clusterWicketDeliver w) s fun b =>
        (b.ch c).msgs = (s.dev.ch c).msgs ++ [{ sender := w, engine := true, slot := (s.dev.ch c).next }] ∧
        (b.wkt w).ackSeq = x.seq ∧ (b.wkt w).ackCode = 0 ∧ (b.wkt w).full = false ∧ (b.wkt w).collide = false ∧
        (∀ k, k ≠ w → b.wkt k = s.dev.wkt k) ∧ (∀ k, k ≠ c → b.ch k = s.dev.ch k) ∧ Agree [.cpu, .hbm, .mgt, .regs] s.dev b) ∧
    (s.dev.chRoom c = false → Runs (.clusterWicketDeliver w) s fun b => b = s.dev))

/-- Sensors, boot, and the update of firmware. -/
def Obligations.SensorsAndBoot : Prop :=
  (∀ (s : State) (temps : List Int) (powers : List Nat), s.dev.pwr.off = false → s.dev.mgt.temps.length = 12 →
    (s.dev.glb.planes.mgmtUp = true → Runs (.sensorSample temps powers) s fun b =>
      b.mgt.temps = (List.range 12).map (fun i => temps.getD i 0) ∧
      (∀ i, i < 12 → b.reg (Reg.MGT_TEMP i) = tempWord (temps.getD i 0)) ∧
      (∀ i, i < 11 → b.regN (Reg.MGT_POWER i) = powers.getD i 0 % 2 ^ 32) ∧
      b.regN (Reg.MGT_POWER 11) = sumNat ((List.range 11).map (fun i => powers.getD i 0)) % 2 ^ 32 ∧
      (∀ i, i < 12 → s.dev.mgt.temps.getD i 0 < tempOf (s.dev.reg Reg.MGT_TEMP_WARN) → tempOf (s.dev.reg Reg.MGT_TEMP_WARN) ≤ temps.getD i 0 →
        b.regBit Reg.MGT_GSTAT 2 = true ∧
        ((∀ j, j < 12 → j ≠ i → temps.getD j 0 < tempOf (s.dev.reg Reg.MGT_TEMP_WARN)) →
          (∀ j, j < 12 → temps.getD j 0 < tempOf (s.dev.reg Reg.MGT_TEMP_CRIT)) →
          PfTold s.dev b (s.dev.regFld Reg.MGT_EVT_CFG 3 0) 0x180 1)) ∧
      ((∃ i, i < 12 ∧ 896 ≤ temps.getD i 0) → b.pwr.trip = true ∧ (s.dev.pwr.trip = false → Out.pin "THERMTRIP_N" false ∈ b.out)) ∧
      ((∀ i, i < 12 → temps.getD i 0 < 896) → b.pwr = s.dev.pwr) ∧ Agree [.adm, .fns, .hifPorts, .mgt, .out, .pwr, .regs] s.dev b) ∧
    (s.dev.glb.planes.mgmtUp = false → (∃ t ∈ temps, 896 ≤ t) → s.dev.pwr.trip = false → Runs (.sensorSample temps powers) s fun b =>
      b.pwr = { s.dev.pwr with trip := true } ∧ b.out = s.dev.out ++ [.pin "THERMTRIP_N" false] ∧ Agree [.pwr, .out] s.dev b)) ∧
  (∀ (s : State) (k : Nat), s.dev.pwr.off = false → s.dev.mgt.fw = false → k < 2 → (s.dev.bankAt k).valid = true →
    s.dev.imageOk k 1 = true → s.dev.imageOk k 2 = true → s.dev.imageOk k 3 = true →
    (s.dev.bankAt (1 - k)).valid = false ∨ (s.dev.bankAt (1 - k)).bseq < (s.dev.bankAt k).bseq ∨
      ((s.dev.bankAt (1 - k)).bseq = (s.dev.bankAt k).bseq ∧ k = 0) ∨ s.dev.imageOk (1 - k) 1 = false → Runs .bootRomStart s fun b =>
      b.mgt.fw = true ∧ b.mgt.bank = k ∧ b.regBit Reg.MGT_BOOT_STAT 0 = true ∧ b.regBit Reg.MGT_BOOT_STAT 1 = decide (k = 1) ∧
      (∀ x, kvFind 2 (s.dev.bankAt k).images = some x → b.reg Reg.MGT_FW_VER = BitVec.ofNat 32 x.svn) ∧
      OnlyRegs [Reg.MGT_FW_VER, Reg.MGT_BOOT_STAT] s.dev b ∧ Agree [.mgt, .regs] s.dev b) ∧
  (∀ (s : State), s.dev.pwr.off = false → (s.dev.bankAt 0).valid = false → (s.dev.bankAt 1).valid = false →
    (s.dev.mgt.fw = false → Runs .bootRomStart s fun b =>
      b.mgt.fw = false ∧ b.regBit Reg.MGT_BOOT_STAT 0 = false ∧ OnlyRegs [Reg.MGT_BOOT_STAT] s.dev b ∧ Agree [.mgt, .regs] s.dev b) ∧
    (s.dev.glb.planes.mgmtUp = false → Runs .mgmtRestartDone s fun b => b.glb.planes.mgmtUp = true ∧ b.mgt.fw = false)) ∧
  (∀ (s : State) (k : Nat), s.dev.pwr.off = false → s.dev.glb.planes.mgmtUp = false → s.dev.bootOrder.head? = some k → s.dev.bootBad k = none →
    Runs .mgmtRestartDone s fun b =>
      b.glb.planes = { s.dev.glb.planes with mgmtUp := true } ∧ b.mgt.fw = true ∧ b.mgt.bank = k ∧ b.mgt.ctlBank = s.dev.mgt.ctlBank ∧
      b.regBit Reg.MGT_BOOT_STAT 3 = decide (k ≠ s.dev.mgt.ctlBank) ∧ OnlyRegs [Reg.MGT_FW_VER, Reg.MGT_BOOT_STAT] s.dev b ∧
      Agree [.planes, .mgt, .regs] s.dev b) ∧
  (∀ (s : State) (cores : List (Nat × List Byte)) (crossing : Option (List Byte)) (regs : List (Nat × Word)) (lock entropy : Bool),
    Alive s → s.dev.mgt.fw = true → s.dev.regBit Reg.GLB_STAT 0 = false →
    (s.dev.imageOk s.dev.mgt.bank 4 = true → s.dev.imageOk s.dev.mgt.bank 5 = true → Runs (.firmwareReady cores crossing regs lock entropy) s fun b =>
      b.regBit Reg.GLB_STAT 0 = true ∧ b.glb.planes = { s.dev.glb.planes with ctlUp := true } ∧ b.mgt.ctlBank = s.dev.mgt.bank ∧
      b.mgt.mixed = false ∧ (lock = true → b.regBit Reg.WKT_LOCK 0 = true) ∧ (entropy = true → b.cry.running = true ∧ b.cry.failed = false) ∧
      (∀ i, crossing = some i → s.dev.cls.active < s.dev.cls.banks.length → b.cls.banks.getD s.dev.cls.active none = some i) ∧
      (∀ x l, cores = [(x, l)] → kvFind (x % 64) b.cpu.images = some l) ∧ Agree [.cls, .cpu, .cry, .mgt, .planes, .regs, .serial] s.dev b) ∧
    (s.dev.imageOk s.dev.mgt.bank 4 = false → s.dev.mgt.bank < 2 → Runs (.firmwareReady cores crossing regs lock entropy) s fun b =>
      b.mgt = { s.dev.mgt with failedKind := 4 } ∧ b.regFld Reg.MGT_BOOT_STAT 15 13 = 4 ∧ OnlyRegs [Reg.MGT_BOOT_STAT] s.dev b ∧
      Agree [.mgt, .regs] s.dev b)) ∧
  (∀ (s : State) (port : Nat) (comps : List (List Byte × List Byte)) (certs : Option (List (List Byte))) (o : Nat), s.dev.pwr.off = false →
    s.dev.glb.planes.mgmtUp = true → s.dev.mgt.banks.length = 2 → s.dev.mgt.bank < 2 → o = 1 - s.dev.mgt.bank →
    ((∀ c ∈ comps, s.dev.mgt.fuses.valid { header := fitTo 8192 c.1, body := c.2 } = true ∧ 1 ≤ leAt c.1 6 1 ∧ leAt c.1 6 1 ≤ 5) →
      Runs (.pldmFirmwareUpdate port comps certs) s fun b =>
        (b.bankAt o).valid = true ∧ (b.bankAt o).bseq = ((s.dev.bankAt s.dev.mgt.bank).bseq + 1) % 2 ^ 32 ∧
        b.bankAt s.dev.mgt.bank = s.dev.bankAt s.dev.mgt.bank ∧ b.mgt.bank = s.dev.mgt.bank ∧ b.mgt.fuses = s.dev.mgt.fuses ∧
        (∀ c, comps = [c] → kvFind (leAt c.1 6 1) (b.bankAt o).images = some { header := fitTo 8192 c.1, body := c.2 } ∧
          ∀ k x, k ≠ leAt c.1 6 1 → kvSorted (s.dev.bankAt s.dev.mgt.bank).images = true →
            kvFind k (s.dev.bankAt s.dev.mgt.bank).images = some x → kvFind k (b.bankAt o).images = some x) ∧
        b.regBit Reg.MGT_GSTAT 1 = true ∧ PfTold s.dev b (s.dev.regFld Reg.MGT_EVT_CFG 3 0) 0x181 0 ∧
        Out.message 0x101 port [0x00] ∈ b.out ∧ Agree [.adm, .fns, .hifPorts, .mgt, .out, .regs] s.dev b) ∧
    ((∃ c ∈ comps, s.dev.mgt.fuses.valid { header := fitTo 8192 c.1, body := c.2 } = false) → Runs (.pldmFirmwareUpdate port comps certs) s fun b =>
      (b.bankAt o).valid = false ∧ b.bankAt s.dev.mgt.bank = s.dev.bankAt s.dev.mgt.bank ∧ Says s.dev b 1 port [0x02] ∧
      Agree [.mgt, .out] s.dev b)) ∧
  (∀ (s : State) (port : Nat), s.dev.pwr.off = false → s.dev.glb.planes.mgmtUp = true → s.dev.mgt.fw = true →
    Runs (.pldmActivateFirmware port) s fun b =>
      b.glb.planes = { s.dev.glb.planes with mgmtUp := false } ∧ b.mgt.fw = false ∧ b.mgt.sessions = [] ∧ b.mgt.banks = s.dev.mgt.banks ∧
      b.mgt.wickets = s.dev.mgt.wickets ∧ Says s.dev b 1 port [0x00] ∧ Agree [.planes, .mgt, .out] s.dev b) ∧
  (∀ (s : State) (e : AdmEntry), AdmReady s → Priv e s →
    (∀ n, n = max s.dev.mgt.fuses.svn (min 64 s.dev.runSvn) → Runs (.mgtSvnCommit e) s fun b =>
      AdmEnded s.dev b e 0x80 0 n ∧ b.mgt = { s.dev.mgt with fuses := { s.dev.mgt.fuses with svn := n } } ∧
      b.reg Reg.ID_SVN = BitVec.ofNat 32 n ∧ OnlyRegs [Reg.ID_SVN] s.dev b) ∧
    (432 ≤ e.len → Completes (.mgtMeasureRead e) e 0x81 s fun b =>
      Out.hostWrite (.pf e.pf) none e.d1.toNat ((List.range 9).flatMap (fun i => s.dev.measure (i + 1))) false ∈ b.out ∧
      b.mgt = s.dev.mgt ∧ OnlyRegs [] s.dev b))

/-- MCTP control, PLDM sensors, the debug port, and JTAG. -/
def Obligations.Endpoint : Prop :=
  (∀ (s : State) (port : Nat), s.dev.pwr.off = false → s.dev.glb.planes.mgmtUp = true →
    (∀ op eid, op ≤ 1 → 1 ≤ eid → eid ≤ 254 → Runs (.setEndpointId port op eid) s fun b =>
      b.eid port = eid ∧ (∀ k, min k 2 ≠ min port 2 → b.eid k = s.dev.eid k) ∧ Says s.dev b 0 port ([0x80, 1, 0, 0] ++ leBytes 1 eid ++ [0]) ∧
      OnlyRegs [Reg.MGT_EID] s.dev b ∧ Agree [.regs, .out] s.dev b) ∧
    (∀ op eid, 1 < op ∨ eid = 0 ∨ 255 ≤ eid → Runs (.setEndpointId port op eid) s fun b =>
      Says s.dev b 0 port [0x80, 1, 0x02] ∧ Agree [.out] s.dev b) ∧
    Runs (.getEndpointId port) s (fun b => Says s.dev b 0 port ([0x80, 2, 0] ++ leBytes 1 (s.dev.eid port) ++ [0, 0]) ∧ Agree [.out] s.dev b) ∧
    Runs (.getEndpointUuid port) s (fun b =>
      (∃ u, u.length = 16 ∧ Says s.dev b 0 port ([0x80, 3, 0] ++ u)) ∧ Agree [.out] s.dev b) ∧
    (∀ t, (t ∈ [0, 1, 5, 6, 0x7E, 0xFF] → Runs (.getMctpVersionSupport port t) s fun b =>
        Says s.dev b 0 port [0x80, 4, 0, 1, 0xF1, 0xF3, 0xF0, 0x00] ∧ Agree [.out] s.dev b) ∧
      (t ∉ [0, 1, 5, 6, 0x7E, 0xFF] → Runs (.getMctpVersionSupport port t) s fun b => Says s.dev b 0 port [0x80, 4, 0x80] ∧ Agree [.out] s.dev b)) ∧
    Runs (.getMessageTypeSupport port) s (fun b => Says s.dev b 0 port [0x80, 5, 0, 4, 1, 5, 6, 0x7E] ∧ Agree [.out] s.dev b) ∧
    (∀ n, (n = 0 → Runs (.getVendorMessageSupport port n) s fun b =>
        (∃ v, v.length = 4 ∧ Says s.dev b 0 port ([0x80, 6, 0, 0xFF, 0] ++ v)) ∧ Agree [.out] s.dev b) ∧
      (n ≠ 0 → Runs (.getVendorMessageSupport port n) s fun b => Says s.dev b 0 port [0x80, 6, 0x02] ∧ Agree [.out] s.dev b)) ∧
    (∀ id, s.dev.mgt.fw = true →
      (1 ≤ id → id ≤ 12 → Runs (.pldmSensorRead port id) s fun b =>
        Says s.dev b 1 port ([0] ++ leBytes 4 (tempWord (s.dev.mgt.temps.getD (id - 1) 0)).toNat) ∧ Agree [.out] s.dev b) ∧
      (21 ≤ id → id ≤ 32 → Runs (.pldmSensorRead port id) s fun b =>
        Says s.dev b 1 port ([0] ++ leBytes 4 (s.dev.mgt.powers.getD (id - 21) 0)) ∧ Agree [.out] s.dev b) ∧
      (32 < id → Runs (.pldmSensorRead port id) s fun b => Says s.dev b 1 port [0x80] ∧ Agree [.out] s.dev b))) ∧
  (∀ (s : State) (port : Nat), s.dev.pwr.off = false → s.dev.glb.planes.mgmtUp = false →
    Runs (.getEndpointId port) s (fun b => b = s.dev) ∧ Runs (.getMessageTypeSupport port) s (fun b => b = s.dev)) ∧
  (∀ (s : State) (key sig challenge : List Byte), s.dev.pwr.off = false →
    (s.dev.mgt.fuses.dbgState = 1 → s.dev.mgt.debugOpen = false → s.dev.mgt.bank < 2 → sha384of key = s.dev.mgt.fuses.dbgKey →
      Config.primOk 10 [primNat 0x16, key, challenge, sig] = true → Runs (.debugAuthChallenge key sig challenge) s fun b =>
        b.mgt = { s.dev.mgt with debugOpen := true } ∧ b.regBit Reg.MGT_BOOT_STAT 2 = true ∧
        (∀ n x, s.dev.cry.slots = [(n, x)] → b.cry.slots = [] ∧ ∀ i, i < 128 → b.hbm.byte (slotAddr n + i) = 0) ∧
        OnlyRegs [Reg.MGT_BOOT_STAT] s.dev b ∧ Agree [.cry, .hbm, .mgt, .regs] s.dev b) ∧
    (2 ≤ s.dev.mgt.fuses.dbgState ∨ Config.primOk 10 [primNat 0x16, key, challenge, sig] = false →
      Runs (.debugAuthChallenge key sig challenge) s fun b => b = s.dev)) ∧
  (∀ (s : State), s.dev.pwr.off = false →
    Runs (.jtagInstruction .idcode) s (fun b =>
      b.mgt = { s.dev.mgt with jtag := .idcode } ∧ b.out = s.dev.out ++ [.message 0x180 0 (leBytes 4 0x13216BC7)]) ∧
    (∀ i, i = JtagInst.bypass ∨ i = JtagInst.extest ∨ i = JtagInst.samplePreload → Runs (.jtagInstruction i) s fun b =>
      b.mgt = { s.dev.mgt with jtag := i } ∧ Agree [.mgt] s.dev b) ∧
    (∀ c, s.dev.debugPort = false → Runs (.jtagInstruction (.other c)) s fun b => b.mgt = { s.dev.mgt with jtag := .bypass } ∧ Agree [.mgt] s.dev b) ∧
    (∀ c, s.dev.debugPort = true → Runs (.jtagInstruction (.other c)) s fun b => b.mgt = { s.dev.mgt with jtag := .other c } ∧ Agree [.mgt] s.dev b) ∧
    Runs .smbSclTimeout s (fun b => b.mgt = { s.dev.mgt with smb := [] } ∧ Agree [.mgt] s.dev b))

/-- The SPDM responder. -/
def Obligations.Spdm : Prop :=
  (∀ (s : State) (port : Nat), SpdmReady s port 0 → Runs (.spdmGetVersion port) s fun b =>
    b.spdmAt port = 1 ∧ Says s.dev b 5 port ([0x10, 0x04, 0, 0, 0, 2] ++ leBytes 2 0x1200 ++ leBytes 2 0x1300) ∧ Agree [.mgt, .out] s.dev b) ∧
  (∀ (s : State) (port v : Nat), SpdmReady s port 1 → v = 0x12 ∨ v = 0x13 → Runs (.spdmGetCapabilities port v) s fun b =>
    b.spdmAt port = max 2 (s.dev.spdmAt port) ∧
    Says s.dev b 5 port ([0x13, 0x61, 0, 0, 0, 0, 0, 0] ++ leBytes 4 0x000262F6 ++ leBytes 4 4096 ++ leBytes 4 4096)) ∧
  (∀ (s : State) (port x y z w : Nat), SpdmReady s port 2 →
    (x / 128 % 2 = 1 → y / 2 % 2 = 1 → z / 16 % 2 = 1 → w / 2 % 2 = 1 → Runs (.spdmNegotiateAlgorithms port x y z w) s fun b =>
      b.spdmAt port = 3 ∧ Says s.dev b 5 port ([0x13, 0x63, 0, 0] ++ leBytes 4 0x80 ++ leBytes 4 2 ++ leBytes 2 0x10 ++ leBytes 2 2)) ∧
    (x / 128 % 2 = 0 ∨ y / 2 % 2 = 0 ∨ z / 16 % 2 = 0 ∨ w / 2 % 2 = 0 → Runs (.spdmNegotiateAlgorithms port x y z w) s fun b =>
      b.mgt = s.dev.mgt ∧ Says s.dev b 5 port [0x13, 0x7F, 1, 0])) ∧
  (∀ (s : State) (port : Nat), SpdmReady s port 3 →
    Runs (.spdmGetDigests port) s (fun b =>
      Says s.dev b 5 port ([0x13, 0x01, 0, 3] ++ sha384of (s.dev.certs 0) ++ sha384of (s.dev.certs 1)) ∧ Agree [.out] s.dev b) ∧
    (∀ slot off len c n m, slot ≤ 1 → c = s.dev.certs slot → off < c.length → n = min len (c.length - off) →
      m = [0x13, 0x02] ++ leBytes 1 slot ++ [0] ++ leBytes 2 n ++ leBytes 2 (c.length - off - n) ++ slice c off n →
      (n ≤ 4088 → Runs (.spdmGetCertificate port slot off len) s fun b => Says s.dev b 5 port m ∧ Agree [.out] s.dev b) ∧
      (4088 < n → Runs (.spdmGetCertificate port slot off len) s fun b =>
        b.mgt = { s.dev.mgt with chunkOut := kvPut port m s.dev.mgt.chunkOut } ∧ Says s.dev b 5 port [0x13, 0x7F, 0x0F, 0])) ∧
    (∀ nonce, Runs (.spdmChallenge port 0 nonce) s fun b =>
      (∃ r, r.length = 32 ∧ Says s.dev b 5 port ([0x13, 0x03, 0, 1] ++ sha384of (s.dev.certs 0) ++ r ++
        s.dev.aliasSign (fitTo 32 nonce ++ (sha384of (s.dev.certs 0) ++ r)))) ∧ Agree [.out, .serial] s.dev b) ∧
    (∀ index nonce body, 1 ≤ index → index ≤ 9 →
      body = [1] ++ leBytes 3 55 ++ leBytes 1 index ++ [1] ++ leBytes 2 51 ++ [0] ++ leBytes 2 48 ++ s.dev.measure index →
      Runs (.spdmGetMeasurements port index false nonce) s (fun b => Says s.dev b 5 port ([0x13, 0x60, 0, 0] ++ body) ∧ Agree [.out] s.dev b) ∧
      Runs (.spdmGetMeasurements port index true nonce) s (fun b =>
        Says s.dev b 5 port ([0x13, 0x60, 0, 0] ++ body ++ s.dev.aliasSign (fitTo 32 nonce ++ body)) ∧ Agree [.out] s.dev b)) ∧
    (∀ nonce, Runs (.spdmGetMeasurements port 0 false nonce) s fun b => Says s.dev b 5 port [0x13, 0x60, 9, 0, 0, 0, 0, 0]) ∧
    (∀ nonce, Runs (.spdmGetMeasurements port 0xFF false nonce) s fun b => Says s.dev b 5 port ([0x13, 0x60, 0, 0, 9] ++ leBytes 3 495 ++
      (List.range 9).flatMap (fun i => leBytes 1 (i + 1) ++ [1] ++ leBytes 2 51 ++ [0] ++ leBytes 2 48 ++ s.dev.measure (i + 1)))) ∧
    (∀ index sign nonce, 9 < index → index ≠ 0xFF → Runs (.spdmGetMeasurements port index sign nonce) s fun b =>
      Says s.dev b 5 port [0x13, 0x7F, 1, 0] ∧ Agree [.out] s.dev b) ∧
    (∀ exchange, s.dev.mgt.sessions.length < 4 → Runs (.spdmKeyExchange port 0 exchange) s fun b =>
      b.mgt = { s.dev.mgt with
          sessions := s.dev.mgt.sessions ++ [{ id := s.dev.mgt.nextSession, port := port }], nextSession := s.dev.mgt.nextSession + 1 } ∧
      ∃ r, r.length = 96 ∧ Says s.dev b 5 port ([0x13, 0x64, 0, 0] ++ leBytes 2 s.dev.mgt.nextSession ++ r ++
        s.dev.aliasSign (fitTo 96 exchange ++ (leBytes 2 s.dev.mgt.nextSession ++ r)))) ∧
    (∀ exchange, 4 ≤ s.dev.mgt.sessions.length → Runs (.spdmKeyExchange port 0 exchange) s fun b =>
      b.mgt = s.dev.mgt ∧ Says s.dev b 5 port [0x13, 0x7F, 0x0E, 0]) ∧
    (∀ id x verify, HasSession s port id false x →
      (Config.primOk 16 [primNat id, verify] = true → Runs (.spdmFinish port id verify) s fun b =>
        b.mgt = { s.dev.mgt with sessions := s.dev.mgt.sessions.map (fun y => if y.id = id then { x with up := true } else y) } ∧
        Says s.dev b 5 port [0x13, 0x65, 0, 0]) ∧
      (Config.primOk 16 [primNat id, verify] = false → Runs (.spdmFinish port id verify) s fun b =>
        b.mgt = { s.dev.mgt with sessions := s.dev.mgt.sessions.filter (fun y => decide (y.id ≠ id)) } ∧
        Says s.dev b 5 port [0x13, 0x7F, 6, 0])) ∧
    (∀ id x, HasSession s port id true x →
      Runs (.spdmHeartbeat port id) s (fun b => b.mgt = s.dev.mgt ∧ Says s.dev b 5 port [0x13, 0x68, 0, 0]) ∧
      (∀ op tag, op = 1 ∨ op = 2 → Runs (.spdmKeyUpdate port id op tag) s fun b =>
        b.mgt = { s.dev.mgt with sessions := s.dev.mgt.sessions.map (fun y => if y.id = id then { x with keys := x.keys + 1 } else y) } ∧
        Says s.dev b 5 port ([0x13, 0x69] ++ leBytes 1 op ++ leBytes 1 tag)) ∧
      (∀ tag, Runs (.spdmKeyUpdate port id 3 tag) s fun b => b.mgt = s.dev.mgt ∧ Says s.dev b 5 port ([0x13, 0x69, 3] ++ leBytes 1 tag)) ∧
      Runs (.spdmEndSession port id) s (fun b =>
        b.mgt = { s.dev.mgt with sessions := s.dev.mgt.sessions.filter (fun y => decide (y.id ≠ id)) } ∧
        Says s.dev b 5 port [0x13, 0x6C, 0, 0])) ∧
    (∀ id, s.dev.mgt.sessions = [] → Runs (.spdmHeartbeat port id) s fun b => b.mgt = s.dev.mgt ∧ Says s.dev b 5 port [0x13, 0x7F, 4, 0])) ∧
  (∀ (s : State) (port seq : Nat) (data : List Byte), SpdmReady s port 2 →
    (∀ last b0, b0 = (if seq = 0 then [] else kvGet [] s.dev.mgt.chunkIn port) ++ data →
      (b0.length ≤ 4096 → Runs (.spdmChunkSend port seq last data) s fun b =>
        b.mgt = { s.dev.mgt with chunkIn := if last then kvDel port s.dev.mgt.chunkIn else kvPut port b0 s.dev.mgt.chunkIn } ∧
        Says s.dev b 5 port ([0x13, 0x05, 0, 0] ++ leBytes 2 seq)) ∧
      (4096 < b0.length → Runs (.spdmChunkSend port seq last data) s fun b =>
        b.mgt = { s.dev.mgt with chunkIn := kvDel port s.dev.mgt.chunkIn } ∧ Says s.dev b 5 port [0x13, 0x7F, 1, 0])) ∧
    (∀ m, kvFind port s.dev.mgt.chunkOut = some m → m ≠ [] →
      (1024 < m.length → Runs (.spdmChunkGet port seq) s fun b =>
        kvFind port b.mgt.chunkOut = some (m.drop 1024) ∧
        Says s.dev b 5 port ([0x13, 0x06, 0, 0] ++ leBytes 2 seq ++ leBytes 4 1024 ++ m.take 1024)) ∧
      (m.length ≤ 1024 → Runs (.spdmChunkGet port seq) s fun b =>
        b.mgt = { s.dev.mgt with chunkOut := kvDel port s.dev.mgt.chunkOut } ∧
        Says s.dev b 5 port ([0x13, 0x06, 1, 0] ++ leBytes 2 seq ++ leBytes 4 m.length ++ m)))) ∧
  (∀ (s : State) (port : Nat) (c : Instr) (n : Nat), SpdmReady s port 0 → s.dev.spdmAt port < n →
    (c, n) ∈ ([(.spdmGetCapabilities port 0x13, 1), (.spdmNegotiateAlgorithms port 0x80 2 0x10 2, 2), (.spdmGetDigests port, 3),
      (.spdmGetCertificate port 0 0 64, 3), (.spdmChallenge port 0 [], 3), (.spdmGetMeasurements port 0 false [], 3),
      (.spdmKeyExchange port 0 [], 3), (.spdmFinish port 0 [], 3), (.spdmHeartbeat port 0, 3), (.spdmKeyUpdate port 0 1 0, 3),
      (.spdmEndSession port 0, 3), (.spdmChunkSend port 0 true [], 2), (.spdmChunkGet port 0, 2)] : List (Instr × Nat)) →
    Runs c s fun b => Says s.dev b 5 port [0x13, 0x7F, 4, 0] ∧ Agree [.out] s.dev b)

/-! The Tollhouse (R487 to R503). -/

/-- What the Tollhouse counts: taps, deltas, state records, markers, and metre time. -/
def Obligations.TollCounts : Prop :=
  (∀ (s : State) (p : Nat), Alive s → p < 2 →
    (s.dev.toll.running = true → Runs (.tapFlush p) s fun b =>
      (∃ l, b.toll.link = s.dev.toll.link ++ l ∧
        ∀ y, y ∈ l ↔ ∃ x ∈ s.dev.toll.acc, x.1 / 32768 = p ∧ x.2 ≠ 0 ∧ y = .delta (x.1 / 8 % 4096) (x.1 % 8) x.2) ∧
      (∀ x, x ∈ b.toll.acc ↔ x ∈ s.dev.toll.acc ∧ x.1 / 32768 ≠ p) ∧ b.toll.counts = s.dev.toll.counts ∧ Agree [.toll] s.dev b) ∧
    (s.dev.toll.running = false → Runs (.tapFlush p) s fun b => b = s.dev)) ∧
  (∀ (s : State) (a q n : Nat) (r : List TapRec), s.dev.toll.running = true → s.dev.toll.link = .delta a q n :: r → a < 4096 → q < 8 →
    (∀ ok, Runs (.tapRecord false ok) s fun b =>
      b.toll.count a q = s.dev.toll.count a q + n ∧ b.toll.count 4096 q = s.dev.toll.count 4096 q + n ∧
      (∀ x y, y < 8 → x ≠ a ∧ x ≠ 4096 ∨ y ≠ q → b.toll.count x y = s.dev.toll.count x y) ∧ b.toll.link = r ∧
      b.toll.journal = s.dev.toll.journal ∧ Agree [.toll] s.dev b) ∧
    Runs (.tapRecord true true) s (fun b =>
      Journals s.dev b 3 1 0 [] ∧ b.toll.tamperCnt = s.dev.toll.tamperCnt + 1 ∧ b.toll.link = s.dev.toll.link ∧
      b.toll.counts = s.dev.toll.counts ∧ Agree [.fns, .hifPorts, .mgt, .out, .pwr, .regs, .toll] s.dev b) ∧
    Runs (.tapRecord true false) s (fun b =>
      b.toll = { s.dev.toll with
          tamperCnt := s.dev.toll.tamperCnt + 1, tamperIn := true, jlost := s.dev.toll.jlost + 1, flashFault := true } ∧
      Agree [.toll] s.dev b)) ∧
  (∀ (s : State) (a : Nat), Alive s → a < 4096 → s.dev.toll.running = true →
    (∀ ok, s.dev.toll.tapUp = true → Runs (.stateRecord a ok) s fun b =>
      kvGet 0 b.toll.weights a = (s.dev.tenGet a).share.weight ∧ (a ∈ b.toll.open_ ↔ s.dev.shutOpen a = true) ∧
      (∀ x, x ≠ a → kvGet 0 b.toll.weights x = kvGet 0 s.dev.toll.weights x ∧ (x ∈ b.toll.open_ ↔ x ∈ s.dev.toll.open_)) ∧
      b.toll.stateAt = s.dev.toll.metre ∧ b.toll.tapUp = true ∧ b.toll.counts = s.dev.toll.counts ∧ Agree [.toll] s.dev b) ∧
    (s.dev.toll.tapUp = false → Runs (.stateRecord a true) s fun b =>
      b.toll.tapUp = true ∧ Journals s.dev b 8 0 0 [] ∧ b.toll.counts = s.dev.toll.counts)) ∧
  (∀ (s : State) (a : Nat) (r : List TapRec), s.dev.toll.running = true → s.dev.toll.link = .marker a :: r → a < 4096 →
    Runs (.accountMarker true) s fun b =>
      Journals s.dev b 5 a (kvGet 0 s.dev.toll.gens a) ((List.range 6).flatMap (fun q => leBytes 8 (s.dev.toll.count a q))) ∧
      (∀ q, q < 6 → b.toll.count a q = 0) ∧ kvGet 0 b.toll.gens a = kvGet 0 s.dev.toll.gens a + 1 ∧
      (∀ x q, x ≠ a → q < 8 → b.toll.count x q = s.dev.toll.count x q) ∧ (∀ x, x ≠ a → kvGet 0 b.toll.gens x = kvGet 0 s.dev.toll.gens x) ∧
      b.toll.link = r) ∧
  (∀ (s : State), s.dev.toll.power = true → s.dev.toll.rstN = true →
    (s.dev.toll.running = true → s.dev.toll.tapUp = true → s.dev.toll.open_.Nodup → (∀ a ∈ s.dev.toll.open_, a < 4096) → Runs .metreTick s fun b =>
      b.toll.metre = s.dev.toll.metre + 1 ∧
      (∀ a, a < 4096 → b.toll.count a 5 = s.dev.toll.count a 5 + (if a ∈ s.dev.toll.open_ then kvGet 0 s.dev.toll.weights a else 0)) ∧
      b.toll.count 4096 5 = s.dev.toll.count 4096 5 + sumNat (s.dev.toll.open_.map (kvGet 0 s.dev.toll.weights)) ∧
      (∀ a q, q < 5 → b.toll.count a q = s.dev.toll.count a q) ∧ Agree [.toll] s.dev b) ∧
    (s.dev.toll.running = false ∨ s.dev.toll.tapUp = false → Runs .metreTick s fun b =>
      b.toll = { s.dev.toll with metre := s.dev.toll.metre + 1 } ∧ Agree [.toll] s.dev b)) ∧
  (∀ (s : State), s.dev.toll.power = false ∨ s.dev.toll.rstN = false → Runs .metreTick s fun b => b = s.dev) ∧
  (∀ (s : State),
    (s.dev.toll.running = true → s.dev.toll.tapUp = true → s.dev.toll.stateAt + 2 ≤ s.dev.toll.metre → Runs (.tapDownDetect true) s fun b =>
      b.toll.tapUp = false ∧ b.toll.downIn = true ∧ Journals s.dev b 7 0 0 [] ∧ b.toll.counts = s.dev.toll.counts) ∧
    (s.dev.toll.running = true → s.dev.toll.metre < s.dev.toll.stateAt + 2 → Runs (.tapDownDetect true) s fun b => b = s.dev))

/-- What the Tollhouse signs and journals, and what it keeps over a stop. -/
def Obligations.TollRecords : Prop :=
  (∀ (s : State), s.dev.toll.running = true →
    (s.dev.toll.signing = none → s.dev.toll.closeAt ≤ s.dev.toll.metre → Runs .periodClose s fun b =>
      ∃ r, b.toll = { s.dev.toll with signing := some r, start := s.dev.toll.metre, tamperIn := false, downIn := false } ∧
        r.length = 262464 ∧ leAt r 0 4 = 0x57545244 ∧ leAt r 4 1 = 1 ∧ leAt r 5 1 = 1 ∧ leAt r 8 8 = s.dev.toll.rdgSeq % 2 ^ 64 ∧
        leAt r 16 8 = s.dev.toll.start % 2 ^ 64 ∧ leAt r 24 8 = s.dev.toll.metre % 2 ^ 64 ∧
        (∀ a q, a ≤ 4096 → q < 6 → leAt r (256 + 64 * a + 8 * q) 8 = s.dev.toll.count a q % 2 ^ 64) ∧
        (∀ a, a ≤ 4096 → leAt r (256 + 64 * a + 48) 4 = kvGet 0 s.dev.toll.gens a % 2 ^ 32) ∧ Agree [.toll] s.dev b) ∧
    (s.dev.toll.metre < s.dev.toll.closeAt → Runs .periodClose s fun b => b = s.dev) ∧
    (∀ m ok, s.dev.toll.signing = some m → s.dev.toll.slots.length = 2 → s.dev.toll.last < 2 → Runs (.readingSigned ok) s fun b =>
      ∃ g, g.length = 3309 ∧ b.toll.slots.getD b.toll.last [] = m ++ g ∧ b.toll.signing = none ∧ b.toll.rdgSeq = s.dev.toll.rdgSeq + 1 ∧
        (s.dev.toll.slots.getD s.dev.toll.last [] ≠ [] → b.toll.last = 1 - s.dev.toll.last ∧
          b.toll.slots.getD s.dev.toll.last [] = s.dev.toll.slots.getD s.dev.toll.last []) ∧
        (leAt m 5 1 = 1 → ok = true → Journals s.dev b 4 0 0 (tollSha (m ++ g) ++ leBytes 8 s.dev.toll.rdgSeq)) ∧
        (leAt m 5 1 ≠ 1 → b.toll.journal = s.dev.toll.journal) ∧ b.toll.counts = s.dev.toll.counts) ∧
    Runs (.checkpoint true) s (fun b =>
      b.toll = { s.dev.toll with
          checks := some { time := s.dev.toll.metre, counts := s.dev.toll.counts, gens := s.dev.toll.gens, rdgSeq := s.dev.toll.rdgSeq, jseq := s.dev.toll.jseq } } ∧
      Agree [.toll] s.dev b) ∧
    Runs (.checkpoint false) s (fun b => b.toll = { s.dev.toll with flashFault := true } ∧ Agree [.toll] s.dev b) ∧
    (∀ c k, (c, k) ∈ ([(.crystalFault true, 2), (.tollVddGlitch true, 3)] : List (Instr × Nat)) → Runs c s fun b =>
      Journals s.dev b 3 k 0 [] ∧ b.toll.tamperCnt = s.dev.toll.tamperCnt + 1 ∧ b.toll.tamperIn = true ∧ b.toll.counts = s.dev.toll.counts ∧
      (s.dev.wktMay 0x11 40 true = true → s.dev.pwr.off = false → (s.dev.wkt 40).full = false →
        (b.wkt 40).full = true ∧ (b.wkt 40).slot = fitTo 64 (leBytes 8 s.dev.toll.jseq ++ [2, 3, 0, 0, 3, 0] ++ leBytes 2 k)) ∧
      Agree [.fns, .hifPorts, .mgt, .out, .pwr, .regs, .toll] s.dev b) ∧
    Runs (.crystalFault false) s (fun b =>
      b.toll.journal = s.dev.toll.journal ∧ b.toll.jlost = s.dev.toll.jlost + 1 ∧ b.toll.flashFault = true ∧
      b.toll.tamperCnt = s.dev.toll.tamperCnt + 1 ∧ Agree [.toll] s.dev b) ∧
    (s.dev.toll.power = true → Runs (.tollPowerLoss true) s fun b =>
      Journals s.dev b 2 0 0 [] ∧ b.toll.power = false ∧ b.toll.running = false ∧ b.toll.lossAt = some s.dev.toll.metre ∧
      b.toll.acc = s.dev.toll.acc ∧ b.toll.checks = s.dev.toll.checks ∧ b.toll.byReset = false) ∧
    (s.dev.toll.power = true → s.dev.toll.rstN = true → Runs (.tlRstNAssert true) s fun b =>
      Journals s.dev b 2 0 0 [] ∧ b.toll.rstN = false ∧ b.toll.running = false ∧ b.toll.lossAt = some s.dev.toll.metre ∧
      b.toll.acc = s.dev.toll.acc ∧ b.toll.checks = s.dev.toll.checks ∧ b.toll.byReset = true)) ∧
  (∀ (s : State) (config : Option (List Byte)) (cb : List Byte), cb = config.getD s.dev.toll.config →
    (∀ x y, s.dev.toll.sealed = false → configOk cb = true → leAt cb 5 1 % 2 = 1 → Runs (.tollStart config x y true) s fun b =>
      b.toll.sealed = true ∧ b.toll.running = true ∧ b.toll.periodMin = leAt cb 6 2 ∧ b.toll.checkS = leAt cb 8 2 ∧
      b.toll.label = slice cb 16 16 ∧ b.toll.metre = 0 ∧ b.toll.counts = [] ∧ b.toll.gens = [] ∧ b.toll.checks = none ∧ b.toll.rdgSeq = 0 ∧
      b.toll.journal = [{ seq := 0, time := 0, type := 6, prev := List.replicate 32 0 }] ∧ b.toll.jseq = 1 ∧
      ∃ r, b.toll.signing = some r ∧ leAt r 5 1 = 3 ∧ leAt r 8 8 = 0 ∧ ∀ a q, a ≤ 4096 → q < 6 → leAt r (256 + 64 * a + 8 * q) 8 = 0) ∧
    (∀ c lost, s.dev.toll.sealed = true ∨ configOk cb = false ∨ leAt cb 5 1 % 2 = 0 → s.dev.toll.checks = some c →
      lost = (s.dev.toll.lossAt.elim 0 (fun l => l - c.time)) → Runs (.tollStart config false false true) s fun b =>
        b.toll.running = true ∧ b.toll.sealed = s.dev.toll.sealed ∧ b.toll.counts = c.counts ∧ b.toll.gens = c.gens ∧
        b.toll.metre = s.dev.toll.lossAt.getD c.time ∧ b.toll.powerCnt = s.dev.toll.powerCnt + 1 ∧
        b.toll.tamperCnt = s.dev.toll.tamperCnt + b2n s.dev.toll.byReset ∧ b.toll.jseq = s.dev.toll.jseq + 1 + b2n s.dev.toll.byReset ∧
        (∃ e, b.toll.journal.getLast? = some e ∧ e.type = 1 ∧ e.body = leBytes 8 lost ∧ e.time = b.toll.metre) ∧
        (s.dev.toll.byReset = true → ∃ e ∈ b.toll.journal, e.seq = s.dev.toll.jseq ∧ e.type = 3 ∧ e.what = 6) ∧
        (s.dev.toll.sealed = true → b.toll.periodMin = s.dev.toll.periodMin ∧ b.toll.checkS = s.dev.toll.checkS ∧ b.toll.label = s.dev.toll.label) ∧
        (s.dev.toll.sealed = false → configOk cb = false →
          b.toll.periodMin = 60 ∧ b.toll.checkS = 60 ∧ b.toll.label = List.replicate 16 0) ∧
        ∃ r, b.toll.signing = some r ∧ leAt r 5 1 = 2 ∧ leAt r 176 8 = lost % 2 ^ 64))

/-! Power states and frequency (R513 to R524), and the end of an emulated controller (R312). -/

/-- Dim, the caps, and the CCLK of the clusters. -/
def Obligations.DimAndCaps : Prop :=
  (∀ (s : State) (m : Nat), Alive s →
    (m = max 800 (min (s.dev.regFld Reg.PWR_CFG 27 16) (min s.dev.pwr.thermal s.dev.pwr.powerCap)) →
      s.dev.pwr.state = 0 → s.dev.regBit Reg.PWR_CFG 0 = true → s.dev.arc.works = [] → (∀ c ∈ s.dev.cpu.cores, c.2.hq.length ≤ 64) →
      Runs .dimEnter s fun b =>
        b.pwr.state = 1 ∧ b.regFld Reg.PWR_STAT 2 0 = 1 ∧ (∀ k, k < 16 → k ≠ 15 ∨ s.dev.twin.role < 2 → b.pwr.cclk.getD k 0 = m) ∧
        (s.dev.pwr.cclk.getD 0 0 ≠ m → b.regN Reg.PWR_CCLK_CAP = m) ∧ (m < s.dev.pwr.cclk.getD 0 0 → b.regBit Reg.PWR_GSTAT 2 = true) ∧
        Agree [.pwr, .regs, .serial] s.dev b) ∧
    (s.dev.pwr.state ≠ 0 ∨ s.dev.regBit Reg.PWR_CFG 0 = false ∨ s.dev.arc.works ≠ [] ∨ (∃ c ∈ s.dev.cpu.cores, 64 < c.2.hq.length) →
      Runs .dimEnter s fun b => b = s.dev) ∧
    (m = max 800 (min 2000 (min s.dev.pwr.thermal s.dev.pwr.powerCap)) → s.dev.pwr.state = 1 → ∀ c,
      c = Instr.dimExit ∨ (∃ pf v, c = .pwrWake pf v ∧ bitOf v 0 = true ∧ s.dev.allowed pf Reg.PWR_WAKE true = true) → Runs c s fun b =>
        b.pwr.state = 0 ∧ b.regFld Reg.PWR_STAT 2 0 = 0 ∧ (∀ k, k < 16 → k ≠ 15 ∨ s.dev.twin.role < 2 → b.pwr.cclk.getD k 0 = m) ∧
        (s.dev.regBit Reg.PWR_CFG 2 = true → s.dev.pwr.cclk.getD 0 0 ≠ m →
          650 ≤ b.regN Reg.PWR_VCORE ∧ b.regN Reg.PWR_VCORE ≤ 850 ∧ b.regN Reg.PWR_VCORE % 5 = 0) ∧
        Agree [.pwr, .regs, .serial] s.dev b) ∧
    (s.dev.pwr.state ≠ 1 → Runs .dimExit s fun b => b = s.dev)) ∧
  (∀ (s : State) (crit : Int), Alive s → s.dev.pwr.stopC = false → crit = tempOf (s.dev.reg Reg.MGT_TEMP_CRIT) →
    ((∃ t ∈ s.dev.mgt.temps, crit ≤ t) → Runs .thermalCapStep s fun b =>
      (s.dev.twin.role < 2 ∨ 800 < s.dev.pwr.thermal → b.pwr.thermal = max 800 (s.dev.pwr.thermal - 100)) ∧
      (2 ≤ s.dev.twin.role → 800 < s.dev.pwr.thermal → b.pwr.cap15 = s.dev.pwr.cap15) ∧
      (2 ≤ s.dev.twin.role → s.dev.pwr.thermal ≤ 800 → b.pwr.cap15 = max 800 (s.dev.pwr.cap15 - 100)) ∧
      b.pwr.powerCap = s.dev.pwr.powerCap ∧ (∀ k, k < 16 → 800 ≤ b.pwr.cclk.getD k 0) ∧ Agree [.pwr, .regs, .serial] s.dev b) ∧
    ((∀ t ∈ s.dev.mgt.temps, t < crit - 40) → s.dev.mgt.temps ≠ [] → s.dev.twin.role < 2 → Runs .thermalCapStep s fun b =>
      b.pwr.thermal = min 2000 (s.dev.pwr.thermal + 100) ∧
      (s.dev.pwr.state = 0 → ∀ k, k < 16 → b.pwr.cclk.getD k 0 = max 800 (min (min 2000 (s.dev.pwr.thermal + 100)) s.dev.pwr.powerCap)) ∧
      Agree [.pwr, .regs, .serial] s.dev b) ∧
    ((∀ t ∈ s.dev.mgt.temps, t < crit) → (∃ t ∈ s.dev.mgt.temps, crit - 40 ≤ t) → Runs .thermalCapStep s fun b => b = s.dev) ∧
    (s.dev.twin.role < 2 → s.dev.regFld Reg.PWR_CAP 8 0 ≠ 0 → Runs .powerCapStep s fun b =>
      (1000 * s.dev.regFld Reg.PWR_CAP 8 0 ≤ s.dev.mgt.powers.getD 11 0 → b.pwr.powerCap = max 800 (s.dev.pwr.powerCap - 100)) ∧
      (s.dev.mgt.powers.getD 11 0 < 1000 * s.dev.regFld Reg.PWR_CAP 8 0 → b.pwr.powerCap = min 2000 (s.dev.pwr.powerCap + 100)) ∧
      b.pwr.thermal = s.dev.pwr.thermal ∧ Agree [.pwr, .regs, .serial] s.dev b) ∧
    (s.dev.regFld Reg.PWR_CAP 8 0 = 0 → Runs .powerCapStep s fun b => b.pwr.powerCap = 2000 ∧ Agree [.pwr, .regs, .serial] s.dev b)) ∧
  (∀ (s : State), Alive s → s.dev.pwr.stopC = true →
    Runs .thermalCapStep s (fun b => b = s.dev) ∧ Runs .powerCapStep s (fun b => b = s.dev))

/-- Quiet and its ends, the wake of a peer, and CC.EN cleared. -/
def Obligations.QuietAndWake : Prop :=
  (∀ (s : State), Alive s →
    (s.dev.pwr.state ≤ 1 → s.dev.regBit Reg.PWR_CFG 1 = true → (∀ n, n < 16 → s.dev.fnD3 (.pf n) = true ∨ (s.dev.hifPort (n / 8)).linkUp = false) →
      (∀ c ∈ s.dev.dma.chans, c.2.st = 0) → s.dev.arc.works = [] → s.dev.cry.hsQueue = [] → s.dev.cry.hsRun = [] →
      (∀ c ∈ s.dev.cpu.cores, c.2.hq = []) → s.dev.twin.role = 0 → s.dev.fab.ops = [] → s.dev.fab.restart = none → Runs .quietEnter s fun b =>
        b.pwr.state = 2 ∧ b.regFld Reg.PWR_STAT 2 0 = 2 ∧ b.pwr.stopC = true ∧ b.pwr.stopP = true ∧ b.pwr.stopE = true ∧ b.pwr.stopK = true ∧
        b.pwr.quietAt = s.dev.nowNs ∧ (∀ e ∈ b.sq.pkts, e.2.pool = 19) ∧ b.fab.state = 0 ∧ b.reg Reg.FAB_CFG = s.dev.reg Reg.FAB_CFG ∧
        b.ten.tens = s.dev.ten.tens ∧ b.ring.sqs = s.dev.ring.sqs ∧ b.mgt = s.dev.mgt ∧ b.toll = s.dev.toll ∧ b.time = s.dev.time) ∧
    (2 ≤ s.dev.pwr.state ∨ s.dev.regBit Reg.PWR_CFG 1 = false ∨ s.dev.twin.role ≠ 0 ∨ s.dev.arc.works ≠ [] ∨ s.dev.fab.ops ≠ [] →
      Runs .quietEnter s fun b => b = s.dev) ∧
    (∀ n, 1 ≤ n → n ≤ 5 →
      (s.dev.pwr.state = 2 ∨ s.dev.pwr.state = 3 → Runs (.quietExit n) s fun b =>
        b.pwr = { s.dev.pwr with state := 4 } ∧ b.regN Reg.PWR_STAT = 4 + 256 * n ∧ OnlyRegs [Reg.PWR_STAT] s.dev b ∧ Agree [.pwr, .regs] s.dev b) ∧
      (s.dev.pwr.state ≠ 2 → s.dev.pwr.state ≠ 3 → Runs (.quietExit n) s fun b => b = s.dev)) ∧
    (∀ pf v, s.dev.allowed pf Reg.PWR_WAKE true = true → s.dev.pwr.state = 2 →
      (bitOf v 0 = true → Runs (.pwrWake pf v) s fun b =>
        b.pwr = { s.dev.pwr with state := 4 } ∧ b.regN Reg.PWR_STAT = 4 + 256 * 4 ∧ OnlyRegs [Reg.PWR_STAT] s.dev b ∧ Agree [.pwr, .regs] s.dev b) ∧
      (bitOf v 0 = false → Runs (.pwrWake pf v) s fun b => b = s.dev)) ∧
    (s.dev.pwr.state = 4 → Runs .quietExitDone s fun b =>
      b.pwr.state = 0 ∧ b.regFld Reg.PWR_STAT 2 0 = 0 ∧ b.pwr.stopC = false ∧ b.pwr.stopP = false ∧ b.pwr.stopE = false ∧ b.pwr.stopK = false ∧
      b.reg Reg.PWR_QUIET_CNT = counterAdd (s.dev.reg Reg.PWR_QUIET_CNT) 1 ∧
      (s.dev.nowNs < s.dev.pwr.quietAt + 1000000 → b.reg Reg.PWR_QUIET_MS = s.dev.reg Reg.PWR_QUIET_MS) ∧
      (∀ n c, s.dev.cpu.cores = [(n, c)] → c.running = true → c.held = [] → c.hq = [] →
        (b.core n).running = true ∧ (b.core n).slot = c.slot ∧ (b.core n).starting = none ∧ (b.core n).frozen = false) ∧
      b.ten.tens = s.dev.ten.tens ∧ b.ring.sqs = s.dev.ring.sqs ∧ b.mgt = s.dev.mgt ∧ b.hbm = s.dev.hbm) ∧
    (s.dev.pwr.state ≠ 4 → Runs .quietExitDone s fun b => b = s.dev)) ∧
  (∀ (s : State) (e : AdmEntry), AdmReady s → Priv e s →
    (s.dev.regBit Reg.SVB_CFG 0 = true → s.dev.port.svb.txq.length < 16 → Waits (.pwrWakePeer e) e s fun b =>
      (∃ f, b.port.svb.txq = s.dev.port.svb.txq ++ [(f, some e)] ∧ beAt f 0 6 = 0x035747460000 ∧ beAt f 12 2 = 0x88B5 ∧
        msgType (f.drop 14) = 0x30 ∧ msgUid (f.drop 14) = s.dev.fabUid ∧ msgBody (f.drop 14) = beBytes 16 (e.d4.toNat * 2 ^ 64 + e.d3.toNat)) ∧
      OnlyRegs [] s.dev b) ∧
    (s.dev.regBit Reg.SVB_CFG 0 = false → Runs (.pwrWakePeer e) s fun b =>
      AdmEnded s.dev b e 0x88 St.STATE 0 ∧ b.port = s.dev.port ∧ OnlyRegs [] s.dev b)) ∧
  (∀ (s : State) (e : AdmEntry), AdmReady s → s.dev.privNow e.pf = false → Runs (.pwrWakePeer e) s fun b =>
    AdmEnded s.dev b e 0x88 St.DENIED 3 ∧ b.port = s.dev.port ∧ OnlyRegs [] s.dev b) ∧
  (∀ (s : State) (pf vf : Nat) (v : Word) (c : NvCtrl), Alive s → s.dev.ctrl (ctrlKey pf vf) = some c →
    (bitOf c.cc 0 = true → bitOf v 0 = false → Runs (.nvmeCcDisable pf vf v) s fun b =>
      b.ctrl (ctrlKey pf vf) = some { c with cc := v, rdy := false, cfs := false, shst := 0, sqs := [], cqs := [], aers := [], cmds := [] } ∧
      (∀ k, k ≠ ctrlKey pf vf → b.ctrl k = s.dev.ctrl k) ∧
      (2 ≤ (s.dev.tenGet c.ten).st → (s.dev.tenGet c.ten).st ≤ 4 →
        (b.tenGet c.ten).st = 5 ∧ (b.tenGet c.ten).gen = (s.dev.tenGet c.ten).gen + 1) ∧
      (∀ t, t ≠ c.ten → b.tenGet t = s.dev.tenGet t) ∧ OnlyRegs [] s.dev b) ∧
    (bitOf c.cc 0 = false → Runs (.nvmeCcDisable pf vf v) s fun b => b = s.dev))
end

