-- ==== Sys2Proof/Laws/Kv.lean ====
section
/-! SUPPORT. Laws of the sparse tables: reading after a write, and the canonical form that every write keeps. -/

namespace Sys2Proof

variable {α : Type}

/-- Sorted is pairwise rising. -/
theorem kvSorted_iff (m : Kv α) : kvSorted m = true ↔ m.Pairwise (fun a b => a.1 < b.1) := by
  induction m with
  | nil => simp [kvSorted]
  | cons a r ih =>
    obtain ⟨i, x⟩ := a
    cases r with
    | nil => simp [kvSorted]
    | cons b r =>
      obtain ⟨j, y⟩ := b
      simp only [kvSorted, Bool.and_eq_true, decide_eq_true_eq, ih, List.pairwise_cons]
      constructor
      · rintro ⟨h, k, p⟩
        refine ⟨fun e he => ?_, k, p⟩
        rcases List.mem_cons.1 he with rfl | he
        · exact h
        · exact lt_trans h (k e he)
      · rintro ⟨h, k, p⟩
        exact ⟨h (j, y) (by simp), k, p⟩

/-- What a write leaves in the table: the new entry and old ones. -/
theorem mem_kvPut {k : Nat} {v : α} {m : Kv α} {e : Nat × α} (h : e ∈ kvPut k v m) : e = (k, v) ∨ e ∈ m := by
  induction m with
  | nil => simpa [kvPut] using h
  | cons a r ih =>
    obtain ⟨i, x⟩ := a
    simp only [kvPut] at h
    split at h
    · rcases List.mem_cons.1 h with h | h
      · exact .inl h
      · exact .inr h
    · split at h
      · rcases List.mem_cons.1 h with h | h
        · exact .inl h
        · exact .inr (List.mem_cons_of_mem _ h)
      · rcases List.mem_cons.1 h with h | h
        · exact .inr (by simp [h])
        · rcases ih h with h | h
          · exact .inl h
          · exact .inr (List.mem_cons_of_mem _ h)

theorem kvSorted_kvPut {k : Nat} {v : α} {m : Kv α} (h : kvSorted m = true) : kvSorted (kvPut k v m) = true := by
  rw [kvSorted_iff] at *
  induction m with
  | nil => simp [kvPut]
  | cons a r ih =>
    obtain ⟨i, x⟩ := a
    have hr := List.pairwise_cons.1 h
    simp only [kvPut]
    split
    · rename_i hk
      refine List.pairwise_cons.2 ⟨fun e he => ?_, h⟩
      rcases List.mem_cons.1 he with rfl | he
      · exact hk
      · exact lt_trans hk (hr.1 e he)
    · split
      · rename_i hk
        exact List.pairwise_cons.2 ⟨fun e he => by have := hr.1 e he; simp_all, hr.2⟩
      · rename_i h1 h2
        refine List.pairwise_cons.2 ⟨fun e he => ?_, ih hr.2⟩
        rcases mem_kvPut he with rfl | he
        · simp only; omega
        · exact hr.1 e he

theorem kvSorted_filter {m : Kv α} (p : Nat × α → Bool) (h : kvSorted m = true) : kvSorted (m.filter p) = true := by
  rw [kvSorted_iff] at *
  exact h.filter p

theorem kvSorted_kvDel {k : Nat} {m : Kv α} (h : kvSorted m = true) : kvSorted (kvDel k m) = true := kvSorted_filter _ h

/-- Reading after a write of the same key, and of another. -/
theorem kvFind_kvPut_self (k : Nat) (v : α) (m : Kv α) : kvFind k (kvPut k v m) = some v := by
  induction m with
  | nil => simp [kvPut, kvFind]
  | cons a r ih =>
    obtain ⟨i, x⟩ := a
    simp only [kvPut]
    split
    · simp [kvFind]
    · split
      · simp [kvFind]
      · rename_i h1 h2
        have : i ≠ k := fun h => h2 h.symm
        simp [kvFind, this, ih]

theorem kvFind_kvPut_ne {k j : Nat} (h : j ≠ k) (v : α) (m : Kv α) : kvFind j (kvPut k v m) = kvFind j m := by
  induction m with
  | nil => simp [kvPut, kvFind, h.symm]
  | cons a r ih =>
    obtain ⟨i, x⟩ := a
    simp only [kvPut]
    split
    · simp [kvFind, h.symm]
    · split
      · rename_i h1 h2
        subst h2
        simp [kvFind, h.symm]
      · simp only [kvFind, ih]

theorem kvFind_filter_key {j : Nat} {p : Nat → Bool} (h : p j = true) (m : Kv α) :
    kvFind j (m.filter (fun e => p e.1)) = kvFind j m := by
  induction m with
  | nil => rfl
  | cons a r ih =>
    obtain ⟨i, x⟩ := a
    by_cases hi : p i = true
    · simp [hi, kvFind, ih]
    · have : i ≠ j := fun e => hi (e ▸ h)
      simp [hi, kvFind, this, ih]

theorem kvFind_kvDel_ne {k j : Nat} (h : j ≠ k) (m : Kv α) : kvFind j (kvDel k m) = kvFind j m :=
  kvFind_filter_key (p := fun i => i != k) (by simpa using h) m

theorem kvFind_kvDel_self (k : Nat) (m : Kv α) : kvFind k (kvDel k m) = none := by
  induction m with
  | nil => rfl
  | cons a r ih =>
    obtain ⟨i, x⟩ := a
    unfold kvDel at *
    by_cases hi : i = k
    · simp [hi, ih]
    · simp [hi, kvFind, ih]

/-- The same for a table with a default. -/
@[simp] theorem kvGet_kvSet_self [DecidableEq α] (d : α) (k : Nat) (v : α) (m : Kv α) : kvGet d (kvSet d k v m) k = v := by
  unfold kvGet kvSet
  split
  · rename_i h
    simp [kvFind_kvDel_self, h]
  · simp [kvFind_kvPut_self]

theorem kvFind_kvSet_ne [DecidableEq α] {k j : Nat} (h : j ≠ k) (d v : α) (m : Kv α) : kvFind j (kvSet d k v m) = kvFind j m := by
  unfold kvSet
  split
  · exact kvFind_kvDel_ne h m
  · exact kvFind_kvPut_ne h v m

theorem kvGet_kvSet_ne [DecidableEq α] {k j : Nat} (h : j ≠ k) (d v : α) (m : Kv α) : kvGet d (kvSet d k v m) j = kvGet d m j := by
  unfold kvGet
  rw [kvFind_kvSet_ne h]

@[simp] theorem kvFind_kvSet_self_getD [DecidableEq α] (d : α) (k : Nat) (v : α) (m : Kv α) : (kvFind k (kvSet d k v m)).getD d = v :=
  kvGet_kvSet_self d k v m

@[simp] theorem kvFind_nil (k : Nat) : kvFind k ([] : Kv α) = none := rfl
@[simp] theorem kvGet_nil (d : α) (k : Nat) : kvGet d ([] : Kv α) k = d := rfl

/-- Every write keeps the canonical form. -/
theorem kvSorted_kvSet [DecidableEq α] {d : α} {k : Nat} {v : α} {m : Kv α} (h : kvSorted m = true) : kvSorted (kvSet d k v m) = true := by
  unfold kvSet
  split
  · exact kvSorted_kvDel h
  · exact kvSorted_kvPut h

theorem mem_kvSet [DecidableEq α] {d : α} {k : Nat} {v : α} {m : Kv α} {e : Nat × α} (h : e ∈ kvSet d k v m) :
    (e = (k, v) ∧ v ≠ d) ∨ e ∈ m := by
  unfold kvSet at h
  split at h
  · exact .inr (List.mem_filter.1 h).1
  · rename_i hv
    rcases mem_kvPut h with h | h
    · exact .inl ⟨h, hv⟩
    · exact .inr h

theorem kvCanon_kvSet [DecidableEq α] {d : α} {k : Nat} {v : α} {m : Kv α} (h : kvCanon d m = true) : kvCanon d (kvSet d k v m) = true := by
  simp only [kvCanon, Bool.and_eq_true, List.all_eq_true, decide_eq_true_eq] at *
  refine ⟨kvSorted_kvSet h.1, fun e he => ?_⟩
  rcases mem_kvSet he with ⟨rfl, hv⟩ | he
  · exact hv
  · exact h.2 e he

theorem kvCanon_filter [DecidableEq α] {d : α} {m : Kv α} (p : Nat × α → Bool) (h : kvCanon d m = true) : kvCanon d (m.filter p) = true := by
  simp only [kvCanon, Bool.and_eq_true, List.all_eq_true, decide_eq_true_eq] at *
  exact ⟨kvSorted_filter p h.1, fun e he => h.2 e (List.mem_filter.1 he).1⟩

end Sys2Proof
end

