-- ==== Sys2Proof/Laws/Rel.lean ====
section
/-! SUPPORT. What a function of the device may change: the parts outside a mask stay, and the registers and HBM keep their canonical
form. Every function of the model has one such lemma; they compose. -/

namespace Sys2Proof.Laws

open Sys2Proof.Machine

/-- The bit of a part in a mask. -/
def bit : Part → Nat
  | .regs => 0 | .hbm => 1 | .square => 2 | .exc => 3 | .planes => 4 | .admJ => 5 | .tue => 6 | .hifPorts => 7 | .fns => 8
  | .applied => 9 | .hifReq => 10 | .tens => 11 | .imt => 12 | .sched => 13 | .rings => 14 | .jobs => 15 | .adm => 16 | .taken => 17
  | .dma => 18 | .port => 19 | .cls => 20 | .fwd => 21 | .cpu => 22 | .twin => 23 | .fab => 24 | .cry => 25 | .sto => 26 | .arc => 27
  | .toll => 28 | .mgt => 29 | .time => 30 | .pwr => 31 | .out => 32 | .lastRead => 33 | .serial => 34

/-- From a to b only parts of the mask change, and canonical form is kept. -/
structure Rel (m : Nat) (a b : Dev) : Prop where
  same : ∀ p, m.testBit (bit p) = false → p.same a b
  canon : a.Canon → b.Canon

theorem same_refl (p : Part) (a : Dev) : p.same a a := by cases p <;> simp [Part.same]

theorem same_trans {p : Part} {a b c : Dev} (h : p.same a b) (k : p.same b c) : p.same a c := by
  cases p <;> simp_all [Part.same]

@[refl] theorem Rel.refl (m : Nat) (a : Dev) : Rel m a a := ⟨fun p _ => same_refl p a, id⟩

theorem Rel.trans {m : Nat} {a b c : Dev} (h : Rel m a b) (k : Rel m b c) : Rel m a c :=
  ⟨fun p hp => same_trans (h.same p hp) (k.same p hp), fun x => k.canon (h.canon x)⟩

theorem Rel.mono {m n : Nat} {a b : Dev} (h : Rel m a b) (hm : m &&& n = m) : Rel n a b := by
  refine ⟨fun p hp => h.same p ?_, h.canon⟩
  have : (m &&& n).testBit (bit p) = m.testBit (bit p) := by rw [hm]
  rw [Nat.testBit_and, hp] at this
  simpa using this.symm

/-- Chaining: the last function has a lemma of its own. -/
theorem Rel.step {m n : Nat} {a e b : Dev} (h : Rel m e b) (hm : m &&& n = m) (k : Rel n a e) : Rel n a b := k.trans (h.mono hm)

/-- Chaining inside a function that takes a function: its own mask lies in m. -/
theorem Rel.step2 {k m n : Nat} {a e b : Dev} (hm : m &&& n = m) (h : Rel k e b) (hk : k &&& m = k) (g : Rel n a e) : Rel n a b :=
  g.trans ((h.mono hk).mono hm)

theorem Rel.ite {m : Nat} {c : Prop} [Decidable c] {a x y : Dev} (h : Rel m a x) (k : Rel m a y) : Rel m a (if c then x else y) := by
  split <;> assumption

theorem Rel.foldl {α : Type} {m : Nat} {a e : Dev} {g : Dev → α → Dev} {l : List α} (hg : ∀ d x, Rel m d (g d x)) (k : Rel m a e) :
    Rel m a (l.foldl g e) := by
  induction l generalizing e with
  | nil => exact k
  | cons x r ih => exact ih (k.trans (hg e x))

theorem Rel.elim {α : Type} {m : Nat} {a y : Dev} {o : Option α} {g : α → Dev} (h : Rel m a y) (k : ∀ v, Rel m a (g v)) :
    Rel m a (o.elim y g) := by
  cases o with
  | none => exact h
  | some v => exact k v

/-- Folds whose accumulator holds the device with something else. -/
theorem Rel.foldl1 {α β : Type} {m : Nat} {a : Dev} {s : Dev × β} {g : Dev × β → α → Dev × β} {l : List α}
    (hg : ∀ s x, Rel m s.1 (g s x).1) (k : Rel m a s.1) : Rel m a (l.foldl g s).1 := by
  induction l generalizing s with
  | nil => exact k
  | cons x r ih => exact ih (k.trans (hg s x))

theorem Rel.foldl2 {α β : Type} {m : Nat} {a : Dev} {s : β × Dev} {g : β × Dev → α → β × Dev} {l : List α}
    (hg : ∀ s x, Rel m s.2 (g s x).2) (k : Rel m a s.2) : Rel m a (l.foldl g s).2 := by
  induction l generalizing s with
  | nil => exact k
  | cons x r ih => exact ih (k.trans (hg s x))

/-- What an admin command's body may answer. -/
def AdmRel (m : Nat) (a : Dev) : AdmRes → Prop
  | .fail _ _ => True
  | .done d _ _ _ => Rel m a d
  | .wait d => Rel m a d

theorem AdmRel.of_eq {m : Nat} {a : Dev} {x y : AdmRes} (h : AdmRel m a x) (e : x = y) : AdmRel m a y := e ▸ h
theorem AdmRel.fail {m : Nat} {a : Dev} {x y : Nat} : AdmRel m a (.fail x y) := trivial
theorem AdmRel.done {m : Nat} {a d : Dev} {x y : Nat} {l : List Byte} (h : Rel m a d) : AdmRel m a (.done d x y l) := h
theorem AdmRel.wait {m : Nat} {a d : Dev} (h : Rel m a d) : AdmRel m a (.wait d) := h
theorem AdmRel.ite {m : Nat} {c : Prop} [Decidable c] {a : Dev} {x y : AdmRes} (h : AdmRel m a x) (k : AdmRel m a y) :
    AdmRel m a (if c then x else y) := by split <;> assumption
theorem AdmRel.mono {m n : Nat} {a : Dev} {x : AdmRes} (h : AdmRel m a x) (hm : m &&& n = m) : AdmRel n a x := by
  cases x <;> first | trivial | exact Rel.mono h hm
theorem AdmRel.step {m n : Nat} {a e : Dev} {x : AdmRes} (h : AdmRel m e x) (hm : m &&& n = m) (k : Rel n a e) : AdmRel n a x := by
  cases x <;> first | trivial | exact k.trans (Rel.mono h hm)
theorem AdmRel.elim {α : Type} {m : Nat} {a : Dev} {y : AdmRes} {o : Option α} {g : α → AdmRes} (h : AdmRel m a y)
    (k : ∀ v, AdmRel m a (g v)) : AdmRel m a (o.elim y g) := by
  cases o with
  | none => exact h
  | some v => exact k v
theorem AdmRel.checks {m : Nat} {a : Dev} {l : List (Bool × Nat × Nat)} {k : Unit → AdmRes} (h : AdmRel m a (k ())) :
    AdmRel m a (admChecks l k) := by
  unfold admChecks
  split
  · exact .fail
  · exact h

/-! Functions that may give no device. -/

def OptRel (m : Nat) (a : Dev) : Option Dev → Prop
  | none => True
  | some d => Rel m a d

theorem OptRel.none {m : Nat} {a : Dev} : OptRel m a Option.none := trivial
theorem OptRel.some {m : Nat} {a d : Dev} (h : Rel m a d) : OptRel m a (Option.some d) := h
theorem OptRel.use {m : Nat} {a d : Dev} {o : Option Dev} (e : o = Option.some d) (h : OptRel m a o) : Rel m a d := by
  rw [e] at h; exact h
theorem OptRel.step {m n : Nat} {a e : Dev} {o : Option Dev} (h : OptRel m e o) (hm : m &&& n = m) (k : Rel n a e) : OptRel n a o := by
  cases o <;> first | trivial | exact Rel.step h hm k
theorem OptRel.ite {m : Nat} {c : Prop} [Decidable c] {a : Dev} {x y : Option Dev} (h : OptRel m a x) (k : OptRel m a y) :
    OptRel m a (if c then x else y) := by split <;> assumption
theorem OptRel.map {α : Type} {m : Nat} {a : Dev} {o : Option α} {g : α → Dev} (h : ∀ x, Rel m a (g x)) : OptRel m a (o.map g) := by
  cases o <;> first | trivial | exact h _
theorem OptRel.mapD {m : Nat} {a : Dev} {o : Option Dev} {g : Dev → Dev} (h : ∀ x, Rel m x (g x)) (k : OptRel m a o) :
    OptRel m a (o.map g) := by
  cases o <;> first | trivial | exact Rel.trans k (h _)
theorem OptRel.bind {α : Type} {m : Nat} {a : Dev} {o : Option α} {g : α → Option Dev} (h : ∀ x, OptRel m a (g x)) :
    OptRel m a (o.bind g) := by
  cases o <;> first | trivial | exact h _
theorem OptRel.bindD {m : Nat} {a : Dev} {o : Option Dev} {g : Dev → Option Dev} (h : ∀ x, OptRel m x (g x)) (k : OptRel m a o) :
    OptRel m a (o.bind g) := by
  cases o with
  | none => trivial
  | some x =>
    have hx := h x
    simp only [Option.bind]
    revert hx
    cases g x <;> intro hx <;> first | trivial | exact Rel.trans k hx
theorem OptRel.orElse {m : Nat} {a : Dev} {o : Option Dev} {g : Unit → Option Dev} (h : OptRel m a o) (k : ∀ u, OptRel m a (g u)) :
    OptRel m a (o.orElse g) := by
  cases o with
  | none => exact k ()
  | some x => exact h
theorem Rel.getD {m : Nat} {a y : Dev} {o : Option Dev} (h : OptRel m a o) (k : Rel m a y) : Rel m a (o.getD y) := by
  cases o <;> assumption

/-- The results of the crypto unit, of a forwarding word, and of taking a part of an RDMA message. -/
def UnitRel (m : Nat) (a : Dev) : Unit_ → Prop
  | .ok d _ _ => Rel m a d
  | .drop d _ => Rel m a d
  | .refuse d _ => Rel m a d

theorem UnitRel.ok {m : Nat} {a d : Dev} {x : List Byte} {y : Bool} (h : Rel m a d) : UnitRel m a (.ok d x y) := h
theorem UnitRel.drop {m : Nat} {a d : Dev} {x : Option Nat} (h : Rel m a d) : UnitRel m a (.drop d x) := h
theorem UnitRel.refuse {m : Nat} {a d : Dev} {x : Nat} (h : Rel m a d) : UnitRel m a (.refuse d x) := h
theorem UnitRel.step {m n : Nat} {a e : Dev} {o : Unit_} (h : UnitRel m e o) (hm : m &&& n = m) (k : Rel n a e) : UnitRel n a o := by
  cases o <;> exact Rel.step h hm k
theorem UnitRel.ite {m : Nat} {c : Prop} [Decidable c] {a : Dev} {x y : Unit_} (h : UnitRel m a x) (k : UnitRel m a y) :
    UnitRel m a (if c then x else y) := by split <;> assumption
theorem UnitRel.use1 {m : Nat} {a d : Dev} {o : Unit_} {x : List Byte} {y : Bool} (e : o = .ok d x y) (h : UnitRel m a o) : Rel m a d := by
  rw [e] at h; exact h
theorem UnitRel.use2 {m : Nat} {a d : Dev} {o : Unit_} {x : Option Nat} (e : o = .drop d x) (h : UnitRel m a o) : Rel m a d := by
  rw [e] at h; exact h
theorem UnitRel.use3 {m : Nat} {a d : Dev} {o : Unit_} {x : Nat} (e : o = .refuse d x) (h : UnitRel m a o) : Rel m a d := by
  rw [e] at h; exact h

def StepRel (m : Nat) (a : Dev) : FStep → Prop
  | .next d _ _ => Rel m a d
  | .jump _ d _ _ => Rel m a d
  | .done d => Rel m a d

theorem StepRel.next {m : Nat} {a d : Dev} {x : Packet} {y : Fwd} (h : Rel m a d) : StepRel m a (.next d x y) := h
theorem StepRel.jump {m i : Nat} {a d : Dev} {x : Packet} {y : Fwd} (h : Rel m a d) : StepRel m a (.jump i d x y) := h
theorem StepRel.done {m : Nat} {a d : Dev} (h : Rel m a d) : StepRel m a (.done d) := h
theorem StepRel.step {m n : Nat} {a e : Dev} {o : FStep} (h : StepRel m e o) (hm : m &&& n = m) (k : Rel n a e) : StepRel n a o := by
  cases o <;> exact Rel.step h hm k
theorem StepRel.after {n : Nat} {a e : Dev} {o : FStep} (k : Rel n a e) (h : StepRel n e o) : StepRel n a o := by
  cases o <;> exact Rel.trans k h
theorem StepRel.ite {m : Nat} {c : Prop} [Decidable c] {a : Dev} {x y : FStep} (h : StepRel m a x) (k : StepRel m a y) :
    StepRel m a (if c then x else y) := by split <;> assumption
theorem StepRel.use1 {m : Nat} {a d : Dev} {o : FStep} {x : Packet} {y : Fwd} (e : o = .next d x y) (h : StepRel m a o) : Rel m a d := by
  rw [e] at h; exact h
theorem StepRel.use2 {m i : Nat} {a d : Dev} {o : FStep} {x : Packet} {y : Fwd} (e : o = .jump i d x y) (h : StepRel m a o) : Rel m a d := by
  rw [e] at h; exact h
theorem StepRel.use3 {m : Nat} {a d : Dev} {o : FStep} (e : o = .done d) (h : StepRel m a o) : Rel m a d := by
  rw [e] at h; exact h

def TookRel (m : Nat) (a : Dev) : Took → Prop
  | .ok d _ => Rel m a d
  | .nak d _ => Rel m a d
  | _ => True

theorem TookRel.ok {m : Nat} {a d : Dev} {x : Qp} (h : Rel m a d) : TookRel m a (.ok d x) := h
theorem TookRel.nak {m : Nat} {a d : Dev} {x : Nat} (h : Rel m a d) : TookRel m a (.nak d x) := h
theorem TookRel.skip {m : Nat} {a : Dev} : TookRel m a .skip := trivial
theorem TookRel.step {m n : Nat} {a e : Dev} {o : Took} (h : TookRel m e o) (hm : m &&& n = m) (k : Rel n a e) : TookRel n a o := by
  cases o <;> first | exact Rel.step h hm k | trivial
theorem TookRel.ite {m : Nat} {c : Prop} [Decidable c] {a : Dev} {x y : Took} (h : TookRel m a x) (k : TookRel m a y) :
    TookRel m a (if c then x else y) := by split <;> assumption
theorem TookRel.use1 {m : Nat} {a d : Dev} {o : Took} {x : Qp} (e : o = .ok d x) (h : TookRel m a o) : Rel m a d := by
  rw [e] at h; exact h
theorem TookRel.use2 {m : Nat} {a d : Dev} {o : Took} {x : Nat} (e : o = .nak d x) (h : TookRel m a o) : Rel m a d := by
  rw [e] at h; exact h

/-! One lemma for each set of parts that a record update of the model replaces. -/

theorem Rel.u_dma {m : Nat} {a e : Dev} {x0 : DmaPart} (h : m &&& 262144 = 262144) :
    Rel m a { e with dma := x0 } ↔ Rel m a e :=
  have h' : 262144 &&& m = 262144 := by rw [Nat.and_comm]; exact h
  ⟨fun k => k.trans (Rel.mono (m := 262144) ⟨fun p hp => by cases p <;> first | exact absurd hp (by decide) | simp [Part.same], id⟩ h'), fun k => k.trans (Rel.mono (m := 262144) ⟨fun p hp => by cases p <;> first | exact absurd hp (by decide) | simp [Part.same], id⟩ h')⟩

theorem Rel.u_port {m : Nat} {a e : Dev} {x0 : PortPart} (h : m &&& 524288 = 524288) :
    Rel m a { e with port := x0 } ↔ Rel m a e :=
  have h' : 524288 &&& m = 524288 := by rw [Nat.and_comm]; exact h
  ⟨fun k => k.trans (Rel.mono (m := 524288) ⟨fun p hp => by cases p <;> first | exact absurd hp (by decide) | simp [Part.same], id⟩ h'), fun k => k.trans (Rel.mono (m := 524288) ⟨fun p hp => by cases p <;> first | exact absurd hp (by decide) | simp [Part.same], id⟩ h')⟩

theorem Rel.u_cls {m : Nat} {a e : Dev} {x0 : ClsPart} (h : m &&& 1048576 = 1048576) :
    Rel m a { e with cls := x0 } ↔ Rel m a e :=
  have h' : 1048576 &&& m = 1048576 := by rw [Nat.and_comm]; exact h
  ⟨fun k => k.trans (Rel.mono (m := 1048576) ⟨fun p hp => by cases p <;> first | exact absurd hp (by decide) | simp [Part.same], id⟩ h'), fun k => k.trans (Rel.mono (m := 1048576) ⟨fun p hp => by cases p <;> first | exact absurd hp (by decide) | simp [Part.same], id⟩ h')⟩

theorem Rel.u_fwd {m : Nat} {a e : Dev} {x0 : FwdPart} (h : m &&& 2097152 = 2097152) :
    Rel m a { e with fwd := x0 } ↔ Rel m a e :=
  have h' : 2097152 &&& m = 2097152 := by rw [Nat.and_comm]; exact h
  ⟨fun k => k.trans (Rel.mono (m := 2097152) ⟨fun p hp => by cases p <;> first | exact absurd hp (by decide) | simp [Part.same], id⟩ h'), fun k => k.trans (Rel.mono (m := 2097152) ⟨fun p hp => by cases p <;> first | exact absurd hp (by decide) | simp [Part.same], id⟩ h')⟩

theorem Rel.u_cpu {m : Nat} {a e : Dev} {x0 : CorePart} (h : m &&& 4194304 = 4194304) :
    Rel m a { e with cpu := x0 } ↔ Rel m a e :=
  have h' : 4194304 &&& m = 4194304 := by rw [Nat.and_comm]; exact h
  ⟨fun k => k.trans (Rel.mono (m := 4194304) ⟨fun p hp => by cases p <;> first | exact absurd hp (by decide) | simp [Part.same], id⟩ h'), fun k => k.trans (Rel.mono (m := 4194304) ⟨fun p hp => by cases p <;> first | exact absurd hp (by decide) | simp [Part.same], id⟩ h')⟩

theorem Rel.u_twin {m : Nat} {a e : Dev} {x0 : TwinPart} (h : m &&& 8388608 = 8388608) :
    Rel m a { e with twin := x0 } ↔ Rel m a e :=
  have h' : 8388608 &&& m = 8388608 := by rw [Nat.and_comm]; exact h
  ⟨fun k => k.trans (Rel.mono (m := 8388608) ⟨fun p hp => by cases p <;> first | exact absurd hp (by decide) | simp [Part.same], id⟩ h'), fun k => k.trans (Rel.mono (m := 8388608) ⟨fun p hp => by cases p <;> first | exact absurd hp (by decide) | simp [Part.same], id⟩ h')⟩

theorem Rel.u_fab {m : Nat} {a e : Dev} {x0 : FabPart} (h : m &&& 16777216 = 16777216) :
    Rel m a { e with fab := x0 } ↔ Rel m a e :=
  have h' : 16777216 &&& m = 16777216 := by rw [Nat.and_comm]; exact h
  ⟨fun k => k.trans (Rel.mono (m := 16777216) ⟨fun p hp => by cases p <;> first | exact absurd hp (by decide) | simp [Part.same], id⟩ h'), fun k => k.trans (Rel.mono (m := 16777216) ⟨fun p hp => by cases p <;> first | exact absurd hp (by decide) | simp [Part.same], id⟩ h')⟩

theorem Rel.u_cry {m : Nat} {a e : Dev} {x0 : CryPart} (h : m &&& 33554432 = 33554432) :
    Rel m a { e with cry := x0 } ↔ Rel m a e :=
  have h' : 33554432 &&& m = 33554432 := by rw [Nat.and_comm]; exact h
  ⟨fun k => k.trans (Rel.mono (m := 33554432) ⟨fun p hp => by cases p <;> first | exact absurd hp (by decide) | simp [Part.same], id⟩ h'), fun k => k.trans (Rel.mono (m := 33554432) ⟨fun p hp => by cases p <;> first | exact absurd hp (by decide) | simp [Part.same], id⟩ h')⟩

theorem Rel.u_sto {m : Nat} {a e : Dev} {x0 : StoPart} (h : m &&& 67108864 = 67108864) :
    Rel m a { e with sto := x0 } ↔ Rel m a e :=
  have h' : 67108864 &&& m = 67108864 := by rw [Nat.and_comm]; exact h
  ⟨fun k => k.trans (Rel.mono (m := 67108864) ⟨fun p hp => by cases p <;> first | exact absurd hp (by decide) | simp [Part.same], id⟩ h'), fun k => k.trans (Rel.mono (m := 67108864) ⟨fun p hp => by cases p <;> first | exact absurd hp (by decide) | simp [Part.same], id⟩ h')⟩

theorem Rel.u_arc {m : Nat} {a e : Dev} {x0 : ArcPart} (h : m &&& 134217728 = 134217728) :
    Rel m a { e with arc := x0 } ↔ Rel m a e :=
  have h' : 134217728 &&& m = 134217728 := by rw [Nat.and_comm]; exact h
  ⟨fun k => k.trans (Rel.mono (m := 134217728) ⟨fun p hp => by cases p <;> first | exact absurd hp (by decide) | simp [Part.same], id⟩ h'), fun k => k.trans (Rel.mono (m := 134217728) ⟨fun p hp => by cases p <;> first | exact absurd hp (by decide) | simp [Part.same], id⟩ h')⟩

theorem Rel.u_toll {m : Nat} {a e : Dev} {x0 : TollPart} (h : m &&& 268435456 = 268435456) :
    Rel m a { e with toll := x0 } ↔ Rel m a e :=
  have h' : 268435456 &&& m = 268435456 := by rw [Nat.and_comm]; exact h
  ⟨fun k => k.trans (Rel.mono (m := 268435456) ⟨fun p hp => by cases p <;> first | exact absurd hp (by decide) | simp [Part.same], id⟩ h'), fun k => k.trans (Rel.mono (m := 268435456) ⟨fun p hp => by cases p <;> first | exact absurd hp (by decide) | simp [Part.same], id⟩ h')⟩

theorem Rel.u_mgt {m : Nat} {a e : Dev} {x0 : MgtPart} (h : m &&& 536870912 = 536870912) :
    Rel m a { e with mgt := x0 } ↔ Rel m a e :=
  have h' : 536870912 &&& m = 536870912 := by rw [Nat.and_comm]; exact h
  ⟨fun k => k.trans (Rel.mono (m := 536870912) ⟨fun p hp => by cases p <;> first | exact absurd hp (by decide) | simp [Part.same], id⟩ h'), fun k => k.trans (Rel.mono (m := 536870912) ⟨fun p hp => by cases p <;> first | exact absurd hp (by decide) | simp [Part.same], id⟩ h')⟩

theorem Rel.u_time {m : Nat} {a e : Dev} {x0 : TimePart} (h : m &&& 1073741824 = 1073741824) :
    Rel m a { e with time := x0 } ↔ Rel m a e :=
  have h' : 1073741824 &&& m = 1073741824 := by rw [Nat.and_comm]; exact h
  ⟨fun k => k.trans (Rel.mono (m := 1073741824) ⟨fun p hp => by cases p <;> first | exact absurd hp (by decide) | simp [Part.same], id⟩ h'), fun k => k.trans (Rel.mono (m := 1073741824) ⟨fun p hp => by cases p <;> first | exact absurd hp (by decide) | simp [Part.same], id⟩ h')⟩

theorem Rel.u_pwr {m : Nat} {a e : Dev} {x0 : PwrPart} (h : m &&& 2147483648 = 2147483648) :
    Rel m a { e with pwr := x0 } ↔ Rel m a e :=
  have h' : 2147483648 &&& m = 2147483648 := by rw [Nat.and_comm]; exact h
  ⟨fun k => k.trans (Rel.mono (m := 2147483648) ⟨fun p hp => by cases p <;> first | exact absurd hp (by decide) | simp [Part.same], id⟩ h'), fun k => k.trans (Rel.mono (m := 2147483648) ⟨fun p hp => by cases p <;> first | exact absurd hp (by decide) | simp [Part.same], id⟩ h')⟩

theorem Rel.u_out {m : Nat} {a e : Dev} {x0 : List Out} (h : m &&& 4294967296 = 4294967296) :
    Rel m a { e with out := x0 } ↔ Rel m a e :=
  have h' : 4294967296 &&& m = 4294967296 := by rw [Nat.and_comm]; exact h
  ⟨fun k => k.trans (Rel.mono (m := 4294967296) ⟨fun p hp => by cases p <;> first | exact absurd hp (by decide) | simp [Part.same], id⟩ h'), fun k => k.trans (Rel.mono (m := 4294967296) ⟨fun p hp => by cases p <;> first | exact absurd hp (by decide) | simp [Part.same], id⟩ h')⟩

theorem Rel.u_lastRead {m : Nat} {a e : Dev} {x0 : Dword} (h : m &&& 8589934592 = 8589934592) :
    Rel m a { e with lastRead := x0 } ↔ Rel m a e :=
  have h' : 8589934592 &&& m = 8589934592 := by rw [Nat.and_comm]; exact h
  ⟨fun k => k.trans (Rel.mono (m := 8589934592) ⟨fun p hp => by cases p <;> first | exact absurd hp (by decide) | simp [Part.same], id⟩ h'), fun k => k.trans (Rel.mono (m := 8589934592) ⟨fun p hp => by cases p <;> first | exact absurd hp (by decide) | simp [Part.same], id⟩ h')⟩

theorem Rel.u_serial {m : Nat} {a e : Dev} {x0 : Nat} (h : m &&& 17179869184 = 17179869184) :
    Rel m a { e with serial := x0 } ↔ Rel m a e :=
  have h' : 17179869184 &&& m = 17179869184 := by rw [Nat.and_comm]; exact h
  ⟨fun k => k.trans (Rel.mono (m := 17179869184) ⟨fun p hp => by cases p <;> first | exact absurd hp (by decide) | simp [Part.same], id⟩ h'), fun k => k.trans (Rel.mono (m := 17179869184) ⟨fun p hp => by cases p <;> first | exact absurd hp (by decide) | simp [Part.same], id⟩ h')⟩

theorem Rel.u_square {m : Nat} {a e : Dev} {x0 : Square} (h : m &&& 4 = 4) :
    Rel m a { e with glb := { e.glb with square := x0 } } ↔ Rel m a e :=
  have h' : 4 &&& m = 4 := by rw [Nat.and_comm]; exact h
  ⟨fun k => k.trans (Rel.mono (m := 4) ⟨fun p hp => by cases p <;> first | exact absurd hp (by decide) | simp [Part.same], id⟩ h'), fun k => k.trans (Rel.mono (m := 4) ⟨fun p hp => by cases p <;> first | exact absurd hp (by decide) | simp [Part.same], id⟩ h')⟩

theorem Rel.u_exc {m : Nat} {a e : Dev} {x0 : ExcQueues} (h : m &&& 8 = 8) :
    Rel m a { e with glb := { e.glb with exc := x0 } } ↔ Rel m a e :=
  have h' : 8 &&& m = 8 := by rw [Nat.and_comm]; exact h
  ⟨fun k => k.trans (Rel.mono (m := 8) ⟨fun p hp => by cases p <;> first | exact absurd hp (by decide) | simp [Part.same], id⟩ h'), fun k => k.trans (Rel.mono (m := 8) ⟨fun p hp => by cases p <;> first | exact absurd hp (by decide) | simp [Part.same], id⟩ h')⟩

theorem Rel.u_planes {m : Nat} {a e : Dev} {x0 : Planes} (h : m &&& 16 = 16) :
    Rel m a { e with glb := { e.glb with planes := x0 } } ↔ Rel m a e :=
  have h' : 16 &&& m = 16 := by rw [Nat.and_comm]; exact h
  ⟨fun k => k.trans (Rel.mono (m := 16) ⟨fun p hp => by cases p <;> first | exact absurd hp (by decide) | simp [Part.same], id⟩ h'), fun k => k.trans (Rel.mono (m := 16) ⟨fun p hp => by cases p <;> first | exact absurd hp (by decide) | simp [Part.same], id⟩ h')⟩

theorem Rel.u_admJ {m : Nat} {a e : Dev} {x0 : Nat} {x1 : List AdmRec} (h : m &&& 32 = 32) :
    Rel m a { e with glb := { e.glb with admSeq := x0, admJournal := x1 } } ↔ Rel m a e :=
  have h' : 32 &&& m = 32 := by rw [Nat.and_comm]; exact h
  ⟨fun k => k.trans (Rel.mono (m := 32) ⟨fun p hp => by cases p <;> first | exact absurd hp (by decide) | simp [Part.same], id⟩ h'), fun k => k.trans (Rel.mono (m := 32) ⟨fun p hp => by cases p <;> first | exact absurd hp (by decide) | simp [Part.same], id⟩ h')⟩

theorem Rel.u_tue {m : Nat} {a e : Dev} {x0 : List TueRec} {x1 : Nat} {x2 : List TblRec} {x3 : Nat} (h : m &&& 64 = 64) :
    Rel m a { e with glb := { e.glb with tueQ := x0, tblSeq := x1, tblJournal := x2, recSeq := x3 } } ↔ Rel m a e :=
  have h' : 64 &&& m = 64 := by rw [Nat.and_comm]; exact h
  ⟨fun k => k.trans (Rel.mono (m := 64) ⟨fun p hp => by cases p <;> first | exact absurd hp (by decide) | simp [Part.same], id⟩ h'), fun k => k.trans (Rel.mono (m := 64) ⟨fun p hp => by cases p <;> first | exact absurd hp (by decide) | simp [Part.same], id⟩ h')⟩

theorem Rel.u_hifPorts {m : Nat} {a e : Dev} {x0 : List HifPort} (h : m &&& 128 = 128) :
    Rel m a { e with hif := { e.hif with ports := x0 } } ↔ Rel m a e :=
  have h' : 128 &&& m = 128 := by rw [Nat.and_comm]; exact h
  ⟨fun k => k.trans (Rel.mono (m := 128) ⟨fun p hp => by cases p <;> first | exact absurd hp (by decide) | simp [Part.same], id⟩ h'), fun k => k.trans (Rel.mono (m := 128) ⟨fun p hp => by cases p <;> first | exact absurd hp (by decide) | simp [Part.same], id⟩ h')⟩

theorem Rel.u_fns {m : Nat} {a e : Dev} {x0 : Kv FnCfg} (h : m &&& 256 = 256) :
    Rel m a { e with hif := { e.hif with fns := x0 } } ↔ Rel m a e :=
  have h' : 256 &&& m = 256 := by rw [Nat.and_comm]; exact h
  ⟨fun k => k.trans (Rel.mono (m := 256) ⟨fun p hp => by cases p <;> first | exact absurd hp (by decide) | simp [Part.same], id⟩ h'), fun k => k.trans (Rel.mono (m := 256) ⟨fun p hp => by cases p <;> first | exact absurd hp (by decide) | simp [Part.same], id⟩ h')⟩

theorem Rel.u_applied {m : Nat} {a e : Dev} {x0 : List Nat} (h : m &&& 512 = 512) :
    Rel m a { e with hif := { e.hif with applied := x0 } } ↔ Rel m a e :=
  have h' : 512 &&& m = 512 := by rw [Nat.and_comm]; exact h
  ⟨fun k => k.trans (Rel.mono (m := 512) ⟨fun p hp => by cases p <;> first | exact absurd hp (by decide) | simp [Part.same], id⟩ h'), fun k => k.trans (Rel.mono (m := 512) ⟨fun p hp => by cases p <;> first | exact absurd hp (by decide) | simp [Part.same], id⟩ h')⟩

theorem Rel.u_hifReq {m : Nat} {a e : Dev} {x0 : List AtcEntry} {x1 : List XlatReq} {x2 : List PageReq} {x3 : Nat} {x4 : Kv EngRead} {x5 : Nat} (h : m &&& 1024 = 1024) :
    Rel m a { e with hif := { e.hif with atc := x0, xlats := x1, pageReqs := x2, nextGroup := x3, eng := x4, nextEng := x5 } } ↔ Rel m a e :=
  have h' : 1024 &&& m = 1024 := by rw [Nat.and_comm]; exact h
  ⟨fun k => k.trans (Rel.mono (m := 1024) ⟨fun p hp => by cases p <;> first | exact absurd hp (by decide) | simp [Part.same], id⟩ h'), fun k => k.trans (Rel.mono (m := 1024) ⟨fun p hp => by cases p <;> first | exact absurd hp (by decide) | simp [Part.same], id⟩ h')⟩

theorem Rel.u_tens {m : Nat} {a e : Dev} {x0 : Kv Ten} (h : m &&& 2048 = 2048) :
    Rel m a { e with ten := { e.ten with tens := x0 } } ↔ Rel m a e :=
  have h' : 2048 &&& m = 2048 := by rw [Nat.and_comm]; exact h
  ⟨fun k => k.trans (Rel.mono (m := 2048) ⟨fun p hp => by cases p <;> first | exact absurd hp (by decide) | simp [Part.same], id⟩ h'), fun k => k.trans (Rel.mono (m := 2048) ⟨fun p hp => by cases p <;> first | exact absurd hp (by decide) | simp [Part.same], id⟩ h')⟩

theorem Rel.u_imt {m : Nat} {a e : Dev} {x0 : Kv Imt} (h : m &&& 4096 = 4096) :
    Rel m a { e with ten := { e.ten with imt := x0 } } ↔ Rel m a e :=
  have h' : 4096 &&& m = 4096 := by rw [Nat.and_comm]; exact h
  ⟨fun k => k.trans (Rel.mono (m := 4096) ⟨fun p hp => by cases p <;> first | exact absurd hp (by decide) | simp [Part.same], id⟩ h'), fun k => k.trans (Rel.mono (m := 4096) ⟨fun p hp => by cases p <;> first | exact absurd hp (by decide) | simp [Part.same], id⟩ h')⟩

theorem Rel.u_sched {m : Nat} {a e : Dev} {x0 : List HostSched} (h : m &&& 8192 = 8192) :
    Rel m a { e with ten := { e.ten with sched := x0 } } ↔ Rel m a e :=
  have h' : 8192 &&& m = 8192 := by rw [Nat.and_comm]; exact h
  ⟨fun k => k.trans (Rel.mono (m := 8192) ⟨fun p hp => by cases p <;> first | exact absurd hp (by decide) | simp [Part.same], id⟩ h'), fun k => k.trans (Rel.mono (m := 8192) ⟨fun p hp => by cases p <;> first | exact absurd hp (by decide) | simp [Part.same], id⟩ h')⟩

theorem Rel.u_rings {m : Nat} {a e : Dev} {x0 : Kv Sq} {x1 : Kv Cq} (h : m &&& 16384 = 16384) :
    Rel m a { e with ring := { e.ring with sqs := x0, cqs := x1 } } ↔ Rel m a e :=
  have h' : 16384 &&& m = 16384 := by rw [Nat.and_comm]; exact h
  ⟨fun k => k.trans (Rel.mono (m := 16384) ⟨fun p hp => by cases p <;> first | exact absurd hp (by decide) | simp [Part.same], id⟩ h'), fun k => k.trans (Rel.mono (m := 16384) ⟨fun p hp => by cases p <;> first | exact absurd hp (by decide) | simp [Part.same], id⟩ h')⟩

theorem Rel.u_jobs {m : Nat} {a e : Dev} {x0 : List Job} (h : m &&& 32768 = 32768) :
    Rel m a { e with ring := { e.ring with jobs := x0 } } ↔ Rel m a e :=
  have h' : 32768 &&& m = 32768 := by rw [Nat.and_comm]; exact h
  ⟨fun k => k.trans (Rel.mono (m := 32768) ⟨fun p hp => by cases p <;> first | exact absurd hp (by decide) | simp [Part.same], id⟩ h'), fun k => k.trans (Rel.mono (m := 32768) ⟨fun p hp => by cases p <;> first | exact absurd hp (by decide) | simp [Part.same], id⟩ h')⟩

theorem Rel.u_adm {m : Nat} {a e : Dev} {x0 : List AdmRing} (h : m &&& 65536 = 65536) :
    Rel m a { e with ring := { e.ring with adm := x0 } } ↔ Rel m a e :=
  have h' : 65536 &&& m = 65536 := by rw [Nat.and_comm]; exact h
  ⟨fun k => k.trans (Rel.mono (m := 65536) ⟨fun p hp => by cases p <;> first | exact absurd hp (by decide) | simp [Part.same], id⟩ h'), fun k => k.trans (Rel.mono (m := 65536) ⟨fun p hp => by cases p <;> first | exact absurd hp (by decide) | simp [Part.same], id⟩ h')⟩

theorem Rel.u_taken {m : Nat} {a e : Dev} {x0 : List AdmTaken} {x1 : Nat} (h : m &&& 131072 = 131072) :
    Rel m a { e with ring := { e.ring with taken := x0, admTurn := x1 } } ↔ Rel m a e :=
  have h' : 131072 &&& m = 131072 := by rw [Nat.and_comm]; exact h
  ⟨fun k => k.trans (Rel.mono (m := 131072) ⟨fun p hp => by cases p <;> first | exact absurd hp (by decide) | simp [Part.same], id⟩ h'), fun k => k.trans (Rel.mono (m := 131072) ⟨fun p hp => by cases p <;> first | exact absurd hp (by decide) | simp [Part.same], id⟩ h')⟩

theorem Rel.u_hifPorts_hifReq {m : Nat} {a e : Dev} {x0 : List HifPort} {x1 : List AtcEntry} {x2 : List XlatReq} {x3 : List PageReq} {x4 : Nat} {x5 : Kv EngRead} {x6 : Nat} (h : m &&& 1152 = 1152) :
    Rel m a { e with hif := { e.hif with ports := x0, atc := x1, xlats := x2, pageReqs := x3, nextGroup := x4, eng := x5, nextEng := x6 } } ↔ Rel m a e :=
  have h' : 1152 &&& m = 1152 := by rw [Nat.and_comm]; exact h
  ⟨fun k => k.trans (Rel.mono (m := 1152) ⟨fun p hp => by cases p <;> first | exact absurd hp (by decide) | simp [Part.same], id⟩ h'), fun k => k.trans (Rel.mono (m := 1152) ⟨fun p hp => by cases p <;> first | exact absurd hp (by decide) | simp [Part.same], id⟩ h')⟩

theorem Rel.u_cls_port {m : Nat} {a e : Dev} {x0 : ClsPart} {x1 : PortPart} (h : m &&& 1572864 = 1572864) :
    Rel m a { e with cls := x0, port := x1 } ↔ Rel m a e :=
  have h' : 1572864 &&& m = 1572864 := by rw [Nat.and_comm]; exact h
  ⟨fun k => k.trans (Rel.mono (m := 1572864) ⟨fun p hp => by cases p <;> first | exact absurd hp (by decide) | simp [Part.same], id⟩ h'), fun k => k.trans (Rel.mono (m := 1572864) ⟨fun p hp => by cases p <;> first | exact absurd hp (by decide) | simp [Part.same], id⟩ h')⟩

theorem Rel.u_jobs_rings {m : Nat} {a e : Dev} {x0 : Kv Sq} {x1 : Kv Cq} {x2 : List Job} (h : m &&& 49152 = 49152) :
    Rel m a { e with ring := { e.ring with sqs := x0, cqs := x1, jobs := x2 } } ↔ Rel m a e :=
  have h' : 49152 &&& m = 49152 := by rw [Nat.and_comm]; exact h
  ⟨fun k => k.trans (Rel.mono (m := 49152) ⟨fun p hp => by cases p <;> first | exact absurd hp (by decide) | simp [Part.same], id⟩ h'), fun k => k.trans (Rel.mono (m := 49152) ⟨fun p hp => by cases p <;> first | exact absurd hp (by decide) | simp [Part.same], id⟩ h')⟩

theorem Rel.u_allring_cls_time {m : Nat} {a e : Dev} {x0 : RingPart} {x1 : ClsPart} {x2 : TimePart} (h : m &&& 1075036160 = 1075036160) :
    Rel m a { e with ring := x0, cls := x1, time := x2 } ↔ Rel m a e :=
  have h' : 1075036160 &&& m = 1075036160 := by rw [Nat.and_comm]; exact h
  ⟨fun k => k.trans (Rel.mono (m := 1075036160) ⟨fun p hp => by cases p <;> first | exact absurd hp (by decide) | simp [Part.same], id⟩ h'), fun k => k.trans (Rel.mono (m := 1075036160) ⟨fun p hp => by cases p <;> first | exact absurd hp (by decide) | simp [Part.same], id⟩ h')⟩

theorem Rel.u_allhif {m : Nat} {a e : Dev} {x0 : HifPart} (h : m &&& 1920 = 1920) :
    Rel m a { e with hif := x0 } ↔ Rel m a e :=
  have h' : 1920 &&& m = 1920 := by rw [Nat.and_comm]; exact h
  ⟨fun k => k.trans (Rel.mono (m := 1920) ⟨fun p hp => by cases p <;> first | exact absurd hp (by decide) | simp [Part.same], id⟩ h'), fun k => k.trans (Rel.mono (m := 1920) ⟨fun p hp => by cases p <;> first | exact absurd hp (by decide) | simp [Part.same], id⟩ h')⟩

theorem Rel.u_imt_jobs_rings {m : Nat} {a e : Dev} {x0 : Kv Imt} {x1 : Kv Sq} {x2 : Kv Cq} {x3 : List Job} (h : m &&& 53248 = 53248) :
    Rel m a { e with ten := { e.ten with imt := x0 }, ring := { e.ring with sqs := x1, cqs := x2, jobs := x3 } } ↔ Rel m a e :=
  have h' : 53248 &&& m = 53248 := by rw [Nat.and_comm]; exact h
  ⟨fun k => k.trans (Rel.mono (m := 53248) ⟨fun p hp => by cases p <;> first | exact absurd hp (by decide) | simp [Part.same], id⟩ h'), fun k => k.trans (Rel.mono (m := 53248) ⟨fun p hp => by cases p <;> first | exact absurd hp (by decide) | simp [Part.same], id⟩ h')⟩

theorem Rel.u_cls_dma {m : Nat} {a e : Dev} {x0 : ClsPart} {x1 : DmaPart} (h : m &&& 1310720 = 1310720) :
    Rel m a { e with cls := x0, dma := x1 } ↔ Rel m a e :=
  have h' : 1310720 &&& m = 1310720 := by rw [Nat.and_comm]; exact h
  ⟨fun k => k.trans (Rel.mono (m := 1310720) ⟨fun p hp => by cases p <;> first | exact absurd hp (by decide) | simp [Part.same], id⟩ h'), fun k => k.trans (Rel.mono (m := 1310720) ⟨fun p hp => by cases p <;> first | exact absurd hp (by decide) | simp [Part.same], id⟩ h')⟩

/-! Running a command. -/

theorem run_rel {m : Nat} {s t : State} {f : Dev → Dev} (hf : ∀ d, Rel m d (f d)) (h : s.run f = .next t) : Rel m s.dev t.dev := by
  unfold State.run at h
  cases h
  exact Rel.ite (Rel.refl _ _) (hf _)

theorem runAon_rel {m : Nat} {s t : State} {f : Dev → Dev} (hf : ∀ d, Rel m d (f d)) (h : s.runAon f = .next t) : Rel m s.dev t.dev := by
  unfold State.runAon at h
  cases h
  exact Rel.ite (Rel.refl _ _) (hf _)

theorem runAny_rel {m : Nat} {s t : State} {f : Dev → Dev} (hf : ∀ d, Rel m d (f d)) (h : s.runAny f = .next t) : Rel m s.dev t.dev := by
  unfold State.runAny at h
  cases h
  exact hf _

end Sys2Proof.Laws
end

