-- ==== Sys2Proof/Laws/Memory.lean ====
section
/-! SUPPORT. Registers and HBM: a read after a write, and the canonical form that every operation on them keeps. -/

namespace Sys2Proof.Laws

open Sys2Proof Sys2Proof.Machine

/-! Registers. -/

@[simp] theorem reg_setReg_self (d : Dev) (off : Nat) (v : Word) : (d.setReg off v).reg off = v := by
  simp [Dev.reg, Dev.setReg]

theorem reg_setReg_ne {off o : Nat} (h : o ≠ off) (d : Dev) (v : Word) : (d.setReg off v).reg o = d.reg o := by
  simp [Dev.reg, Dev.setReg, kvFind_kvSet_ne h]

theorem regsCanon_set {m : Kv Word} (off : Nat) (v : Word) (h : RegsCanon m) : RegsCanon (kvSet (regReset off) off v m) := by
  refine ⟨kvSorted_kvSet h.1, fun e he => ?_⟩
  rcases mem_kvSet he with ⟨rfl, hv⟩ | he
  · exact hv
  · exact h.2 e he

theorem regsCanon_filter {m : Kv Word} (p : Nat × Word → Bool) (h : RegsCanon m) : RegsCanon (m.filter p) :=
  ⟨kvSorted_filter p h.1, fun e he => h.2 e (List.mem_filter.1 he).1⟩

theorem regsCanon_nil : RegsCanon [] := ⟨rfl, fun _ h => by cases h⟩

/-! HBM. -/

theorem cells_foldl_canon (a : Nat) (l : List (Byte × Nat)) (m : List (Nat × Byte)) (h : kvCanon 0#8 m = true) :
    kvCanon 0#8 (l.foldl (fun m p => kvSet 0#8 (a + p.2) p.1 m) m) = true := by
  induction l generalizing m with
  | nil => exact h
  | cons x r ih => exact ih _ (kvCanon_kvSet h)

/-- A write of HBM keeps its canonical form. -/
theorem hbm_write_wf (h : Hbm) (a : Nat) (b : List Byte) (w : Memory.wf h = true) : Memory.wf (h.write a b) = true :=
  cells_foldl_canon a _ _ w

/-- Only the bytes written change. -/
theorem hbm_write_other (h : Hbm) (a : Nat) (b : List Byte) (x : Nat) (hx : x < a ∨ a + b.length ≤ x) :
    (h.write a b).byte x = h.byte x := by
  have key : ∀ (l : List (Byte × Nat)) (m : List (Nat × Byte)), (∀ p ∈ l, a + p.2 ≠ x) →
      kvFind x (l.foldl (fun m p => kvSet 0#8 (a + p.2) p.1 m) m) = kvFind x m := by
    intro l
    induction l with
    | nil => intro m _; rfl
    | cons p r ih =>
      intro m hp
      rw [List.foldl_cons, ih _ (fun q hq => hp q (List.mem_cons_of_mem _ hq))]
      exact kvFind_kvSet_ne (fun e => hp p (by simp) e.symm) _ _ _
  unfold Hbm.byte Hbm.write
  simp only
  rw [key]
  intro p hp
  have := List.mem_zipIdx hp
  omega

/-! The functions that write them. -/

theorem rel_Dev_setReg (d : Dev) (off : Nat) (v : Word) : Rel 1 d (d.setReg off v) :=
  ⟨fun p hp => by cases p <;> first | exact absurd hp (by decide) | simp [Part.same, Dev.setReg],
   fun h => ⟨regsCanon_set off v h.1, h.2⟩⟩

theorem rel_Dev_hbmWrite (d : Dev) (a : Nat) (b : List Byte) : Rel 2 d (d.hbmWrite a b) :=
  ⟨fun p hp => by cases p <;> first | exact absurd hp (by decide) | simp [Part.same, Dev.hbmWrite],
   fun h => ⟨h.1, hbm_write_wf d.hbm a b h.2⟩⟩

/-- A change of the poison marks alone. -/
theorem Rel.u_poison {m : Nat} {a e : Dev} {x : List Nat} (h : m &&& 2 = 2) :
    Rel m a { e with hbm := { e.hbm with poison := x } } ↔ Rel m a e :=
  have h' : 2 &&& m = 2 := by rw [Nat.and_comm]; exact h
  ⟨fun k => k.trans (Rel.mono (m := 2) ⟨fun p hp => by cases p <;> first | exact absurd hp (by decide) | simp [Part.same], id⟩ h'),
   fun k => k.trans (Rel.mono (m := 2) ⟨fun p hp => by cases p <;> first | exact absurd hp (by decide) | simp [Part.same], id⟩ h')⟩

end Sys2Proof.Laws
end

