-- ==== Sys2Proof/Laws/Frames/Ops.lean ====
section
/-! SUPPORT. What each function of Machine/Ops.lean may change. -/

set_option linter.unusedTactic false
set_option linter.unreachableTactic false

namespace Sys2Proof.Laws

open Sys2Proof Sys2Proof.Machine

theorem rel_Dev_setBits (d : Dev) (off : Nat) (mask : Word) : Rel 1 d (Dev.setBits d off mask) := by
  unfold Dev.setBits
  with_reducible repeat' first | assumption | decide | rfl | refine Rel.step (by apply rel_Dev_setReg) ?_ ?_ | split | intro _ | dsimp only

theorem rel_Dev_setBit (d : Dev) (off : Nat) (i : Nat) : Rel 1 d (Dev.setBit d off i) := by
  unfold Dev.setBit
  with_reducible repeat' first | assumption | decide | rfl | refine Rel.step (by apply rel_Dev_setBits) ?_ ?_ | split | intro _ | dsimp only

theorem rel_Dev_countN (d : Dev) (off : Nat) (k : Nat) : Rel 1 d (Dev.countN d off k) := by
  unfold Dev.countN
  with_reducible repeat' first | assumption | decide | rfl | refine Rel.step (by apply rel_Dev_setReg) ?_ ?_ | refine Rel.ite ?_ ?_ | split | intro _ | dsimp only

theorem rel_Dev_applyEcc (d : Dev) (e : Ecc) : Rel 3 d (Dev.applyEcc d e) := by
  unfold Dev.applyEcc
  with_reducible repeat' first | assumption | decide | rfl | refine Rel.foldl (fun _ _ => ?_) ?_ | refine Rel.foldl1 (fun _ _ => ?_) ?_ | refine Rel.foldl2 (fun _ _ => ?_) ?_ | refine Rel.step (by apply rel_Dev_setBit) ?_ ?_ | refine Rel.step (by apply rel_Dev_countN) ?_ ?_ | refine Rel.ite ?_ ?_ | simp only [Nat.reduceAnd, Rel.u_poison] | split | intro _ | dsimp only

theorem rel_Dev_clrBits (d : Dev) (off : Nat) (mask : Word) : Rel 1 d (Dev.clrBits d off mask) := by
  unfold Dev.clrBits
  with_reducible repeat' first | assumption | decide | rfl | refine Rel.step (by apply rel_Dev_setReg) ?_ ?_ | split | intro _ | dsimp only

theorem rel_Dev_clrBit (d : Dev) (off : Nat) (i : Nat) : Rel 1 d (Dev.clrBit d off i) := by
  unfold Dev.clrBit
  with_reducible repeat' first | assumption | decide | rfl | refine Rel.step (by apply rel_Dev_clrBits) ?_ ?_ | split | intro _ | dsimp only

theorem rel_Dev_count (d : Dev) (off : Nat) : Rel 1 d (Dev.count d off) := by
  unfold Dev.count
  with_reducible repeat' first | assumption | decide | rfl | refine Rel.step (by apply rel_Dev_countN) ?_ ?_ | split | intro _ | dsimp only

theorem rel_Dev_tenPut (d : Dev) (t : Nat) (x : Ten) : Rel 2048 d (Dev.tenPut d t x) := by
  unfold Dev.tenPut
  with_reducible repeat' first | assumption | decide | rfl | simp only [Nat.reduceAnd, Rel.u_tens] | split | intro _ | dsimp only

theorem rel_Dev_emit (d : Dev) (o : Out) : Rel 4294967296 d (Dev.emit d o) := by
  unfold Dev.emit
  with_reducible repeat' first | assumption | decide | rfl | simp only [Nat.reduceAnd, Rel.u_out] | split | intro _ | dsimp only

theorem rel_Dev_dirtyWrite (d : Dev) (t : Nat) (addr : Nat) (bits : Nat) : Rel 4294969344 d (Dev.dirtyWrite d t addr bits) := by
  unfold Dev.dirtyWrite
  with_reducible repeat' first | assumption | decide | rfl | refine Rel.step (by apply rel_Dev_tenPut) ?_ ?_ | refine Rel.step (by apply rel_Dev_emit) ?_ ?_ | refine Rel.ite ?_ ?_ | split | intro _ | dsimp only

theorem rel_Dev_discard (d : Dev) (t : Nat) : Rel 1 d (Dev.discard d t) := by
  unfold Dev.discard
  with_reducible repeat' first | assumption | decide | rfl | refine Rel.step (by apply rel_Dev_count) ?_ ?_ | split | intro _ | dsimp only

theorem rel_Dev_draw (d : Dev) : Rel 17179869184 d (Dev.draw d).2 := by
  unfold Dev.draw
  with_reducible repeat' first | assumption | decide | rfl | simp only [Nat.reduceAnd, Rel.u_serial] | split | intro _ | dsimp only
theorem rel_Dev_draw' {d : Dev} {p0 : Nat} {p1 : Dev} (h : Dev.draw d = (p0, p1)) : Rel 17179869184 d p1 := by
  have k := rel_Dev_draw d
  rw [h] at k
  exact k

theorem rel_Dev_fnPut (d : Dev) (f : Fn) (c : FnCfg) : Rel 256 d (Dev.fnPut d f c) := by
  unfold Dev.fnPut
  with_reducible repeat' first | assumption | decide | rfl | simp only [Nat.reduceAnd, Rel.u_fns] | split | intro _ | dsimp only

theorem rel_Dev_setNetPort (d : Dev) (p : Nat) (x : Port) : Rel 524288 d (Dev.setNetPort d p x) := by
  unfold Dev.setNetPort
  with_reducible repeat' first | assumption | decide | rfl | simp only [Nat.reduceAnd, Rel.u_port] | split | intro _ | dsimp only

theorem rel_Dev_pcount (d : Dev) (p : Nat) (i : Nat) (k : Nat) : Rel 524288 d (Dev.pcount d p i k) := by
  unfold Dev.pcount
  with_reducible repeat' first | assumption | decide | rfl | refine Rel.step (by apply rel_Dev_setNetPort) ?_ ?_ | refine Rel.ite ?_ ?_ | split | intro _ | dsimp only

theorem rel_Dev_txCountOk (d : Dev) (p : Nat) (f : List Byte) (n : Nat) : Rel 524288 d (Dev.txCountOk d p f n) := by
  unfold Dev.txCountOk
  with_reducible repeat' first | assumption | decide | rfl | refine Rel.step (by apply rel_Dev_pcount) ?_ ?_ | split | intro _ | dsimp only

theorem rel_Dev_pauseSend (d : Dev) (p : Nat) (quanta : Nat) : Rel 4295491584 d (Dev.pauseSend d p quanta) := by
  unfold Dev.pauseSend
  with_reducible repeat' first | assumption | decide | rfl | refine Rel.foldl (fun _ _ => ?_) ?_ | refine Rel.foldl1 (fun _ _ => ?_) ?_ | refine Rel.foldl2 (fun _ _ => ?_) ?_ | refine Rel.step (by apply rel_Dev_pcount) ?_ ?_ | refine Rel.step (by apply rel_Dev_txCountOk) ?_ ?_ | refine Rel.step (by apply rel_Dev_emit) ?_ ?_ | refine Rel.ite ?_ ?_ | split | intro _ | dsimp only

theorem rel_Dev_pauseCheck (d : Dev) (p : Nat) : Rel 4295491584 d (Dev.pauseCheck d p) := by
  unfold Dev.pauseCheck
  with_reducible repeat' first | assumption | decide | rfl | refine Rel.step (by apply rel_Dev_pauseSend) ?_ ?_ | refine Rel.step (by apply rel_Dev_setNetPort) ?_ ?_ | refine Rel.ite ?_ ?_ | split | intro _ | dsimp only

theorem rel_Dev_setSquare (d : Dev) (q : Square) : Rel 4 d (Dev.setSquare d q) := by
  unfold Dev.setSquare
  with_reducible repeat' first | assumption | decide | rfl | simp only [Nat.reduceAnd, Rel.u_square] | split | intro _ | dsimp only

theorem rel_Dev_freePkt (d : Dev) (tok : Nat) : Rel 4295491588 d (Dev.freePkt d tok) := by
  unfold Dev.freePkt
  with_reducible repeat' first | assumption | decide | rfl | refine Rel.step (by apply rel_Dev_pauseCheck) ?_ ?_ | refine Rel.step (by apply rel_Dev_setSquare) ?_ ?_ | refine Rel.ite ?_ ?_ | split | intro _ | dsimp only

theorem rel_Dev_fwRefuse (d : Dev) (a : Nat) (src : Nat) (write : Bool) : Rel 1 d (Dev.fwRefuse d a src write) := by
  unfold Dev.fwRefuse
  with_reducible repeat' first | assumption | decide | rfl | refine Rel.step (by apply rel_Dev_setReg) ?_ ?_ | refine Rel.step (by apply rel_Dev_setBit) ?_ ?_ | refine Rel.step (by apply rel_Dev_count) ?_ ?_ | refine Rel.ite ?_ ?_ | split | intro _ | dsimp only

theorem rel_Dev_setPkt (d : Dev) (tok : Nat) (p : Packet) : Rel 4 d (Dev.setPkt d tok p) := by
  unfold Dev.setPkt
  with_reducible repeat' first | assumption | decide | rfl | refine Rel.step (by apply rel_Dev_setSquare) ?_ ?_ | split | intro _ | dsimp only

theorem rel_Dev_resizePkt (d : Dev) (tok : Nat) (data : List Byte) : OptRel 4 d (Dev.resizePkt d tok data) := by
  unfold Dev.resizePkt
  with_reducible repeat' first | assumption | decide | rfl | refine Rel.getD ?_ ?_ | exact OptRel.none | refine OptRel.some ?_ | refine OptRel.ite ?_ ?_ | refine OptRel.mapD (fun _ => ?_) ?_ | refine OptRel.map (fun _ => ?_) | refine OptRel.bindD (fun _ => ?_) ?_ | refine OptRel.bind (fun _ => ?_) | refine Rel.step (by apply rel_Dev_setPkt) ?_ ?_ | refine Rel.step (by apply rel_Dev_setSquare) ?_ ?_ | refine Rel.ite ?_ ?_ | split | intro _ | dsimp only

theorem rel_Dev_growCrypto (d : Dev) (tok : Nat) (data : List Byte) : OptRel 4 d (Dev.growCrypto d tok data) := by
  unfold Dev.growCrypto
  with_reducible repeat' first | assumption | decide | rfl | refine Rel.getD ?_ ?_ | exact OptRel.none | refine OptRel.some ?_ | refine OptRel.ite ?_ ?_ | refine OptRel.mapD (fun _ => ?_) ?_ | refine OptRel.map (fun _ => ?_) | refine OptRel.bindD (fun _ => ?_) ?_ | refine OptRel.bind (fun _ => ?_) | refine OptRel.step (by apply rel_Dev_resizePkt) ?_ ?_ | refine Rel.step (by apply OptRel.use; assumption; apply rel_Dev_resizePkt) ?_ ?_ | refine Rel.step (by apply rel_Dev_setPkt) ?_ ?_ | refine Rel.step (by apply rel_Dev_setSquare) ?_ ?_ | refine Rel.ite ?_ ?_ | split | intro _ | dsimp only

theorem rel_Dev_logWrite (d : Dev) (t : Nat) (addr : Nat) (len : Nat) : Rel 4294969344 d (Dev.logWrite d t addr len) := by
  unfold Dev.logWrite
  with_reducible repeat' first | assumption | decide | rfl | refine Rel.foldl (fun _ _ => ?_) ?_ | refine Rel.foldl1 (fun _ _ => ?_) ?_ | refine Rel.foldl2 (fun _ _ => ?_) ?_ | refine Rel.step (by apply rel_Dev_dirtyWrite) ?_ ?_ | refine Rel.step (by apply rel_Dev_tenPut) ?_ ?_ | refine Rel.ite ?_ ?_ | split | intro _ | dsimp only

theorem rel_Dev_pfWrite (d : Dev) (pf : Nat) (addr : Nat) (data : List Byte) : Rel 4294967296 d (Dev.pfWrite d pf addr data) := by
  unfold Dev.pfWrite
  with_reducible repeat' first | assumption | decide | rfl | refine Rel.step (by apply rel_Dev_emit) ?_ ?_ | refine Rel.ite ?_ ?_ | split | intro _ | dsimp only

theorem rel_Dev_pwrState (d : Dev) (st : Nat) : Rel 2147483649 d (Dev.pwrState d st) := by
  unfold Dev.pwrState
  with_reducible repeat' first | assumption | decide | rfl | refine Rel.step (by apply rel_Dev_setReg) ?_ ?_ | simp only [Nat.reduceAnd, Rel.u_pwr] | split | intro _ | dsimp only

theorem rel_Dev_setHifPort (d : Dev) (p : Nat) (x : HifPort) : Rel 128 d (Dev.setHifPort d p x) := by
  unfold Dev.setHifPort
  with_reducible repeat' first | assumption | decide | rfl | simp only [Nat.reduceAnd, Rel.u_hifPorts] | split | intro _ | dsimp only

theorem rel_Dev_tenWrite (d : Dev) (t : Nat) (gen : Word) (addr : Nat) (data : List Byte) (relaxed : Bool) : Rel 4294969345 d (Dev.tenWrite d t gen addr data relaxed) := by
  unfold Dev.tenWrite
  with_reducible repeat' first | assumption | decide | rfl | refine Rel.step (by apply rel_Dev_logWrite) ?_ ?_ | refine Rel.step (by apply rel_Dev_discard) ?_ ?_ | refine Rel.step (by apply rel_Dev_emit) ?_ ?_ | refine Rel.ite ?_ ?_ | split | intro _ | dsimp only

theorem rel_Dev_tollAdd (d : Dev) (t : Nat) (gen : Word) (q : Nat) (n : Nat) : Rel 268435456 d (Dev.tollAdd d t gen q n) := by
  unfold Dev.tollAdd
  with_reducible repeat' first | assumption | decide | rfl | refine Rel.ite ?_ ?_ | simp only [Nat.reduceAnd, Rel.u_toll] | split | intro _ | dsimp only

theorem rel_Dev_wakeFrom (d : Dev) (src : Nat) : Rel 2147483649 d (Dev.wakeFrom d src) := by
  unfold Dev.wakeFrom
  with_reducible repeat' first | assumption | decide | rfl | refine Rel.step (by apply rel_Dev_setReg) ?_ ?_ | refine Rel.step (by apply rel_Dev_pwrState) ?_ ?_ | refine Rel.ite ?_ ?_ | split | intro _ | dsimp only

end Sys2Proof.Laws
end

