-- ==== Sys2Proof/Laws/Frames/Flags.lean ====
section
/-! SUPPORT. What each function of Machine/Flags.lean may change. -/

set_option linter.unusedTactic false
set_option linter.unreachableTactic false

namespace Sys2Proof.Laws

open Sys2Proof Sys2Proof.Machine

theorem rel_Dev_admJournal (d : Dev) (e : AdmEntry) (opc : Nat) (status : Nat) (detail : Nat) : Rel 32 d (Dev.admJournal d e opc status detail) := by
  unfold Dev.admJournal
  with_reducible repeat' first | assumption | decide | rfl | simp only [Nat.reduceAnd, Rel.u_admJ] | split | intro _ | dsimp only

theorem rel_Dev_admPut (d : Dev) (pf : Nat) (x : AdmRing) : Rel 65536 d (Dev.admPut d pf x) := by
  unfold Dev.admPut
  with_reducible repeat' first | assumption | decide | rfl | simp only [Nat.reduceAnd, Rel.u_adm] | split | intro _ | dsimp only

theorem rel_Dev_pbaAdd (d : Dev) (f : Fn) (vec : Nat) (src : IrqSrc) : Rel 256 d (Dev.pbaAdd d f vec src) := by
  unfold Dev.pbaAdd
  with_reducible repeat' first | assumption | decide | rfl | refine Rel.step (by apply rel_Dev_fnPut) ?_ ?_ | refine Rel.ite ?_ ?_ | split | intro _ | dsimp only

theorem rel_Dev_pme (d : Dev) (f : Fn) : Rel 4294967552 d (Dev.pme d f) := by
  unfold Dev.pme
  with_reducible repeat' first | assumption | decide | rfl | refine Rel.step (by apply rel_Dev_fnPut) ?_ ?_ | refine Rel.step (by apply rel_Dev_emit) ?_ ?_ | split | intro _ | dsimp only

theorem rel_Dev_wakeLink (d : Dev) (p : Nat) : Rel 128 d (Dev.wakeLink d p) := by
  unfold Dev.wakeLink
  with_reducible repeat' first | assumption | decide | rfl | refine Rel.step (by apply rel_Dev_setHifPort) ?_ ?_ | split | intro _ | dsimp only

theorem rel_Dev_msixSend (d : Dev) (f : Fn) (vec : Nat) (src : IrqSrc) : Rel 4294967680 d (Dev.msixSend d f vec src) := by
  unfold Dev.msixSend
  with_reducible repeat' first | assumption | decide | rfl | refine Rel.step (by apply rel_Dev_pbaAdd) ?_ ?_ | refine Rel.step (by apply rel_Dev_pme) ?_ ?_ | refine Rel.step (by apply rel_Dev_wakeLink) ?_ ?_ | refine Rel.step (by apply rel_Dev_emit) ?_ ?_ | refine Rel.ite ?_ ?_ | split | intro _ | dsimp only

theorem rel_Dev_admWrite (d : Dev) (pf : Nat) (e : Cqe) : Rel 4295033216 d (Dev.admWrite d pf e) := by
  unfold Dev.admWrite
  with_reducible repeat' first | assumption | decide | rfl | refine Rel.step (by apply rel_Dev_admPut) ?_ ?_ | refine Rel.step (by apply rel_Dev_msixSend) ?_ ?_ | refine Rel.step (by apply rel_Dev_emit) ?_ ?_ | split | intro _ | dsimp only

theorem rel_Dev_admPush (d : Dev) (pf : Nat) (e : Cqe) : Rel 4295033216 d (Dev.admPush d pf e) := by
  unfold Dev.admPush
  with_reducible repeat' first | assumption | decide | rfl | refine Rel.step (by apply rel_Dev_admWrite) ?_ ?_ | refine Rel.step (by apply rel_Dev_admPut) ?_ ?_ | refine Rel.ite ?_ ?_ | split | intro _ | dsimp only

theorem rel_Dev_admComplete1 (d : Dev) (e : AdmEntry) (opc : Nat) (status : Nat) (detail : Nat) (len : Nat) : Rel 4295164320 d (Dev.admComplete1 d e opc status detail len) := by
  unfold Dev.admComplete1
  with_reducible repeat' first | assumption | decide | rfl | refine Rel.step (by apply rel_Dev_admJournal) ?_ ?_ | refine Rel.step (by apply rel_Dev_admPush) ?_ ?_ | simp only [Nat.reduceAnd, Rel.u_taken] | split | intro _ | dsimp only

theorem rel_Dev_admFences (d : Dev) (pf : Nat) (x2 : Nat) : Rel 4295164320 d (Dev.admFences d pf x2) := by
  induction x2 generalizing d pf with
  | zero => unfold Dev.admFences; with_reducible repeat' first | assumption | decide | rfl | refine Rel.step (by apply rel_Dev_admComplete1) ?_ ?_ | refine Rel.ite ?_ ?_ | split | intro _ | dsimp only
  | succ n ih => unfold Dev.admFences; with_reducible repeat' first | assumption | decide | rfl | refine Rel.step (by apply ih) ?_ ?_ | refine Rel.step (by apply rel_Dev_admComplete1) ?_ ?_ | refine Rel.ite ?_ ?_ | split | intro _ | dsimp only

theorem rel_Dev_admComplete (d : Dev) (e : AdmEntry) (opc : Nat) (status : Nat) (detail : Nat) (len : Nat) : Rel 4295164320 d (Dev.admComplete d e opc status detail len) := by
  unfold Dev.admComplete
  with_reducible repeat' first | assumption | decide | rfl | refine Rel.step (by apply rel_Dev_admFences) ?_ ?_ | refine Rel.step (by apply rel_Dev_admComplete1) ?_ ?_ | split | intro _ | dsimp only

theorem rel_Dev_admDrainN (d : Dev) (pf : Nat) (x2 : Nat) : Rel 4295033216 d (Dev.admDrainN d pf x2) := by
  induction x2 generalizing d pf with
  | zero => unfold Dev.admDrainN; with_reducible repeat' first | assumption | decide | rfl | refine Rel.step (by apply rel_Dev_admWrite) ?_ ?_ | refine Rel.step (by apply rel_Dev_admPush) ?_ ?_ | refine Rel.step (by apply rel_Dev_admPut) ?_ ?_ | refine Rel.ite ?_ ?_ | split | intro _ | dsimp only
  | succ n ih => unfold Dev.admDrainN; with_reducible repeat' first | assumption | decide | rfl | refine Rel.step (by apply ih) ?_ ?_ | refine Rel.step (by apply rel_Dev_admWrite) ?_ ?_ | refine Rel.step (by apply rel_Dev_admPush) ?_ ?_ | refine Rel.step (by apply rel_Dev_admPut) ?_ ?_ | refine Rel.ite ?_ ?_ | split | intro _ | dsimp only

theorem rel_Dev_admDrain (d : Dev) (pf : Nat) : Rel 4295033216 d (Dev.admDrain d pf) := by
  unfold Dev.admDrain
  with_reducible repeat' first | assumption | decide | rfl | refine Rel.step (by apply rel_Dev_admDrainN) ?_ ?_ | split | intro _ | dsimp only

theorem rel_Dev_admLate (d : Dev) (e : AdmEntry) (opc : Nat) (status : Nat) (detail : Nat) (len : Nat) : Rel 4295164320 d (Dev.admLate d e opc status detail len) := by
  unfold Dev.admLate
  with_reducible repeat' first | assumption | decide | rfl | refine Rel.step (by apply rel_Dev_admComplete) ?_ ?_ | refine Rel.ite ?_ ?_ | split | intro _ | dsimp only

theorem rel_Dev_admRun {m : Nat} {d : Dev} {e : AdmEntry} {opc : Nat} {f : Dev → AdmRes} (hm : 4295164320 &&& m = 4295164320)
    (hf : AdmRel m d (f d)) : Rel m d (d.admRun e opc f) := by
  unfold Dev.admRun
  refine Rel.ite (Rel.refl _ _) ?_
  split <;> rename_i h <;> rw [h] at hf
  · exact (Rel.mono (rel_Dev_admComplete ..) (by decide)).mono hm
  · exact Rel.step2 hm (rel_Dev_admComplete ..) (by decide) (Rel.step2 hm (rel_Dev_pfWrite ..) (by decide) hf)
  · refine Rel.ite hf ?_
    exact hf.trans (Rel.mono (m := 4295164320) ((Rel.u_taken (by decide)).2 (Rel.refl _ _)) hm)

theorem rel_Dev_cqPut (d : Dev) (c : Nat) (x : Cq) : Rel 16384 d (Dev.cqPut d c x) := by
  unfold Dev.cqPut
  with_reducible repeat' first | assumption | decide | rfl | simp only [Nat.reduceAnd, Rel.u_rings] | split | intro _ | dsimp only

theorem rel_Dev_stallUpdate (d : Dev) (c : Nat) : Rel 16384 d (Dev.stallUpdate d c) := by
  unfold Dev.stallUpdate
  with_reducible repeat' first | assumption | decide | rfl | refine Rel.step (by apply rel_Dev_cqPut) ?_ ?_ | split | intro _ | dsimp only

theorem rel_Dev_modPut (d : Dev) (src : IrqSrc) (m : Mod) : Rel 67125248 d (Dev.modPut d src m) := by
  unfold Dev.modPut
  with_reducible repeat' first | assumption | decide | rfl | simp only [Nat.reduceAnd, Rel.u_rings, Rel.u_sto] | split | intro _ | dsimp only

theorem rel_Dev_imtSend (d : Dev) (t : Nat) (idx : Nat) : Rel 4294971392 d (Dev.imtSend d t idx) := by
  unfold Dev.imtSend
  with_reducible repeat' first | assumption | decide | rfl | refine Rel.step (by apply rel_Dev_emit) ?_ ?_ | refine Rel.ite ?_ ?_ | simp only [Nat.reduceAnd, Rel.u_imt] | split | intro _ | dsimp only

theorem rel_Dev_irqFire (d : Dev) (src : IrqSrc) : Rel 4362097024 d (Dev.irqFire d src) := by
  unfold Dev.irqFire
  with_reducible repeat' first | assumption | decide | rfl | refine Rel.step (by apply rel_Dev_imtSend) ?_ ?_ | refine Rel.step (by apply rel_Dev_modPut) ?_ ?_ | refine Rel.step (by apply rel_Dev_msixSend) ?_ ?_ | refine Rel.step (by apply rel_Dev_pme) ?_ ?_ | refine Rel.ite ?_ ?_ | split | intro _ | dsimp only

theorem rel_Dev_irqSignal (d : Dev) (src : IrqSrc) : Rel 4362097024 d (Dev.irqSignal d src) := by
  unfold Dev.irqSignal
  with_reducible repeat' first | assumption | decide | rfl | refine Rel.step (by apply rel_Dev_modPut) ?_ ?_ | refine Rel.step (by apply rel_Dev_irqFire) ?_ ?_ | refine Rel.ite ?_ ?_ | split | intro _ | dsimp only

theorem rel_Dev_cqWrite (d : Dev) (c : Nat) (x : Cq) (e : Cqe) : Rel 4362099072 d (Dev.cqWrite d c x e) := by
  unfold Dev.cqWrite
  with_reducible repeat' first | assumption | decide | rfl | refine Rel.step (by apply rel_Dev_irqSignal) ?_ ?_ | refine Rel.step (by apply rel_Dev_logWrite) ?_ ?_ | refine Rel.step (by apply rel_Dev_cqPut) ?_ ?_ | refine Rel.step (by apply rel_Dev_emit) ?_ ?_ | refine Rel.ite ?_ ?_ | split | intro _ | dsimp only

theorem rel_Dev_cqPush (d : Dev) (c : Nat) (gen : Word) (e : Cqe) : Rel 4362099073 d (Dev.cqPush d c gen e) := by
  unfold Dev.cqPush
  with_reducible repeat' first | assumption | decide | rfl | refine Rel.step (by apply rel_Dev_stallUpdate) ?_ ?_ | refine Rel.step (by apply rel_Dev_discard) ?_ ?_ | refine Rel.step (by apply rel_Dev_cqPut) ?_ ?_ | refine Rel.step (by apply rel_Dev_cqWrite) ?_ ?_ | refine Rel.ite ?_ ?_ | split | intro _ | dsimp only

theorem rel_Dev_drawBytes (d : Dev) (t : Nat) (n : Nat) (priority : Bool) : Rel 2048 d (Dev.drawBytes d t n priority) := by
  unfold Dev.drawBytes
  with_reducible repeat' first | assumption | decide | rfl | refine Rel.step (by apply rel_Dev_tenPut) ?_ ?_ | refine Rel.ite ?_ ?_ | split | intro _ | dsimp only

theorem rel_Dev_jobPut (d : Dev) (j : Job) : Rel 32768 d (Dev.jobPut d j) := by
  unfold Dev.jobPut
  with_reducible repeat' first | assumption | decide | rfl | refine Rel.ite ?_ ?_ | simp only [Nat.reduceAnd, Rel.u_jobs] | split | intro _ | dsimp only

theorem rel_Dev_jobEnd (d : Dev) (q : Nat) (pos : Nat) (r : JobRes) : Rel 32768 d (Dev.jobEnd d q pos r) := by
  unfold Dev.jobEnd
  with_reducible repeat' first | assumption | decide | rfl | refine Rel.step (by apply rel_Dev_jobPut) ?_ ?_ | refine Rel.ite ?_ ?_ | split | intro _ | dsimp only

theorem rel_Dev_msixFlush (d : Dev) (f : Fn) : Rel 4294967552 d (Dev.msixFlush d f) := by
  unfold Dev.msixFlush
  with_reducible repeat' first | assumption | decide | rfl | refine Rel.foldl (fun _ _ => ?_) ?_ | refine Rel.foldl1 (fun _ _ => ?_) ?_ | refine Rel.foldl2 (fun _ _ => ?_) ?_ | refine Rel.step (by apply rel_Dev_fnPut) ?_ ?_ | refine Rel.step (by apply rel_Dev_emit) ?_ ?_ | refine Rel.ite ?_ ?_ | split | intro _ | dsimp only

theorem rel_Dev_pfEvent (d : Dev) (pf : Nat) (v : Ev) : Rel 4295033217 d (Dev.pfEvent d pf v) := by
  unfold Dev.pfEvent
  with_reducible repeat' first | assumption | decide | rfl | refine Rel.step (by apply rel_Dev_admPut) ?_ ?_ | refine Rel.step (by apply rel_Dev_admPush) ?_ ?_ | refine Rel.step (by apply rel_Dev_count) ?_ ?_ | refine Rel.ite ?_ ?_ | split | intro _ | dsimp only

theorem rel_Dev_sqPut (d : Dev) (q : Nat) (x : Sq) : Rel 16384 d (Dev.sqPut d q x) := by
  unfold Dev.sqPut
  with_reducible repeat' first | assumption | decide | rfl | simp only [Nat.reduceAnd, Rel.u_rings] | split | intro _ | dsimp only

theorem rel_Dev_stashDrainN (d : Dev) (c : Nat) (x2 : Nat) : Rel 4362099073 d (Dev.stashDrainN d c x2) := by
  induction x2 generalizing d c with
  | zero => unfold Dev.stashDrainN; with_reducible repeat' first | assumption | decide | rfl | refine Rel.step (by apply rel_Dev_cqWrite) ?_ ?_ | refine Rel.step (by apply rel_Dev_cqPush) ?_ ?_ | refine Rel.step (by apply rel_Dev_cqPut) ?_ ?_ | refine Rel.ite ?_ ?_ | split | intro _ | dsimp only
  | succ n ih => unfold Dev.stashDrainN; with_reducible repeat' first | assumption | decide | rfl | refine Rel.step (by apply ih) ?_ ?_ | refine Rel.step (by apply rel_Dev_cqWrite) ?_ ?_ | refine Rel.step (by apply rel_Dev_cqPush) ?_ ?_ | refine Rel.step (by apply rel_Dev_cqPut) ?_ ?_ | refine Rel.ite ?_ ?_ | split | intro _ | dsimp only

theorem rel_Dev_stashDrain (d : Dev) (c : Nat) : Rel 4362099073 d (Dev.stashDrain d c) := by
  unfold Dev.stashDrain
  with_reducible repeat' first | assumption | decide | rfl | refine Rel.step (by apply rel_Dev_stallUpdate) ?_ ?_ | refine Rel.step (by apply rel_Dev_stashDrainN) ?_ ?_ | split | intro _ | dsimp only

theorem rel_Dev_tenEvent (d : Dev) (t : Nat) (v : Ev) : Rel 4362164609 d (Dev.tenEvent d t v) := by
  unfold Dev.tenEvent
  with_reducible repeat' first | assumption | decide | rfl | refine Rel.step (by apply rel_Dev_cqPush) ?_ ?_ | refine Rel.step (by apply rel_Dev_pfEvent) ?_ ?_ | refine Rel.step (by apply rel_Dev_cqPut) ?_ ?_ | refine Rel.step (by apply rel_Dev_count) ?_ ?_ | refine Rel.ite ?_ ?_ | split | intro _ | dsimp only

end Sys2Proof.Laws
end

