-- ==== Sys2Proof/Laws/Adm.lean ====
section
/-! SUPPORT. What running an admin command can do, said once: it fails, completes, or waits (R102, R138, R557, R558, R562). -/

namespace Sys2Proof.Laws

open Sys2Proof Sys2Proof.Machine

/-- The parts that a completion of an admin command touches. -/
def admParts : List Part := [.adm, .admJ, .taken, .out, .fns, .hifPorts]

theorem agree_of_rel {m : Nat} {l : List Part} {a b : Dev} (h : Rel m a b) (hl : ∀ p, p ∉ l → m.testBit (bit p) = false) :
    Agree l a b := fun p hp => h.same p (hl p hp)

theorem admComplete_agree (d : Dev) (e : AdmEntry) (opc st det len : Nat) : Agree admParts d (d.admComplete e opc st det len) :=
  agree_of_rel (rel_Dev_admComplete ..) (fun p hp => by cases p <;> first | rfl | exact absurd (by decide) hp)

theorem pfWrite_agree (d : Dev) (pf a : Nat) (b : List Byte) : Agree [.out] d (d.pfWrite pf a b) :=
  agree_of_rel (rel_Dev_pfWrite ..) (fun p hp => by cases p <;> first | rfl | exact absurd (by decide) hp)

/-- With no other command in progress nothing waits behind the completion. -/
theorem admComplete_eq {d : Dev} (h : d.ring.taken = []) (e : AdmEntry) (opc st det len : Nat) :
    d.admComplete e opc st det len = d.admComplete1 e opc st det len := by
  have ht : (d.admComplete1 e opc st det len).ring.taken = [] := by
    have k : (d.admComplete1 e opc st det len).ring.taken = takenErase e d.ring.taken := by
      unfold Dev.admComplete1
      have := (rel_Dev_admPush ({ d.admJournal e opc st det with ring :=
        { (d.admJournal e opc st det).ring with taken := takenErase e (d.admJournal e opc st det).ring.taken } }) e.pf
        (mkCqe 0xFFFF det e.tag st opc d.ts32 len 0 0)).same .taken (by decide)
      exact this.1
    rw [k, h]; rfl
  unfold Dev.admComplete
  rw [h]
  simp [Dev.admFences, ht]

/-- The journal record of the completion. -/
theorem admComplete_ended {d : Dev} (h : d.ring.taken = []) (e : AdmEntry) (opc st det len : Nat) :
    AdmEnded d (d.admComplete e opc st det len) e opc st det := by
  rw [admComplete_eq h]
  have k : (d.admComplete1 e opc st det len).glb.admJournal = (d.admJournal e opc st det).glb.admJournal := by
    unfold Dev.admComplete1
    have := (rel_Dev_admPush ({ d.admJournal e opc st det with ring :=
        { (d.admJournal e opc st det).ring with taken := takenErase e (d.admJournal e opc st det).ring.taken } }) e.pf
        (mkCqe 0xFFFF det e.tag st opc d.ts32 len 0 0)).same .admJ (by decide)
    exact this.2
  refine ⟨{ seq := d.glb.admSeq, time := d.nowNs, pf := e.pf, opc := opc, status := st, detail := det, tag := e.tag, dwords := e.dwords },
    ?_, rfl, rfl, rfl, rfl, rfl, rfl⟩
  · rw [k]
    unfold Dev.admJournal
    simp only [List.length_append, List.length_singleton]
    rw [List.drop_append_of_le_length (by omega)]
    exact List.mem_append_right _ (List.mem_singleton_self _)

/-- A command that fails its checks: the completion, and nothing else. -/
theorem admRun_fail {d : Dev} {e : AdmEntry} {opc st det : Nat} {f : Dev → AdmRes} (hc : d.ctlRuns = true) (ht : d.ring.taken = [])
    (hf : f d = .fail st det) : AdmEnded d (d.admRun e opc f) e opc st det ∧ Agree admParts d (d.admRun e opc f) := by
  have k : d.admRun e opc f = d.admComplete e opc st det 0 := by simp [Dev.admRun, hc, hf]
  rw [k]
  exact ⟨admComplete_ended ht e opc st det 0, admComplete_agree d e opc st det 0⟩

/-- A command that completes: what its body did to the other parts stays. -/
theorem admRun_done {d d' : Dev} {e : AdmEntry} {opc det len : Nat} {data : List Byte} {f : Dev → AdmRes} (hc : d.ctlRuns = true)
    (hf : f d = .done d' det len data) (ht : d'.ring.taken = []) (hs : d'.glb.admSeq = d.glb.admSeq) :
    AdmEnded d (d.admRun e opc f) e opc 0 det ∧ Agree admParts d' (d.admRun e opc f) := by
  have k : d.admRun e opc f = (d'.pfWrite e.pf e.d1.toNat data).admComplete e opc 0 det len := by simp [Dev.admRun, hc, hf]
  have hw := pfWrite_agree d' e.pf e.d1.toNat data
  have ht' : (d'.pfWrite e.pf e.d1.toNat data).ring.taken = [] := by
    have := (hw .taken (by decide)).1
    rw [this, ht]
  have hs' : (d'.pfWrite e.pf e.d1.toNat data).glb.admSeq = d.glb.admSeq := by
    have := (hw .admJ (by decide)).1
    rw [this, hs]
  rw [k]
  constructor
  · obtain ⟨r, hr, h1, h2, h3, h4, h5, h6⟩ := admComplete_ended ht' e opc 0 det len
    exact ⟨r, hr, by rw [h1, hs'], h2, h3, h4, h5, h6⟩
  · intro p hp
    have a := hw p (fun h => hp (by cases List.mem_singleton.1 h; decide))
    exact same_trans a (admComplete_agree _ e opc 0 det len p hp)

/-- A command that is taken and completes later. -/
theorem admRun_wait {d d' : Dev} {e : AdmEntry} {opc : Nat} {f : Dev → AdmRes} (hc : d.ctlRuns = true) (hf : f d = .wait d') :
    AdmWaits (d.admRun e opc f) e ∧ Agree [.taken] d' (d.admRun e opc f) := by
  unfold Dev.admRun
  simp only [hc, hf, Bool.not_true, Bool.false_eq_true, if_false]
  split
  · rename_i h
    refine ⟨?_, fun p _ => same_refl p d'⟩
    simpa [AdmWaits] using h
  · refine ⟨?_, fun p hp => ?_⟩
    · simp [AdmWaits]
    · cases p <;> simp_all [Part.same]

/-- A part that the completion does not touch. -/
theorem agree_tens {l : List Part} {a b : Dev} (h : Agree l a b) (hl : .tens ∉ l := by decide) : b.ten.tens = a.ten.tens := h .tens hl

end Sys2Proof.Laws
end

