-- ==== Sys2Proof/Laws/Frames/CoreBase.lean ====
section
/-! SUPPORT. What each function of Machine/CoreBase.lean may change. -/

set_option linter.unusedTactic false
set_option linter.unreachableTactic false

namespace Sys2Proof.Laws

open Sys2Proof Sys2Proof.Machine

theorem rel_Dev_setCore (d : Dev) (n : Nat) (c : Core) : Rel 4194304 d (Dev.setCore d n c) := by
  unfold Dev.setCore
  with_reducible repeat' first | assumption | decide | rfl | simp only [Nat.reduceAnd, Rel.u_cpu] | split | intro _ | dsimp only

theorem rel_Dev_setThread (d : Dev) (g : Nat) (t : Thread) : Rel 4194304 d (Dev.setThread d g t) := by
  unfold Dev.setThread
  with_reducible repeat' first | assumption | decide | rfl | refine Rel.step (by apply rel_Dev_setCore) ?_ ?_ | split | intro _ | dsimp only

theorem rel_Dev_traceRec (d : Dev) (g : Nat) (kind : Nat) : Rel 4194306 d (Dev.traceRec d g kind) := by
  unfold Dev.traceRec
  with_reducible repeat' first | assumption | decide | rfl | refine Rel.step (by apply rel_Dev_hbmWrite) ?_ ?_ | refine Rel.step (by apply rel_Dev_setCore) ?_ ?_ | refine Rel.ite ?_ ?_ | split | intro _ | dsimp only

theorem rel_Dev_wake (d : Dev) (g : Nat) : Rel 4194306 d (Dev.wake d g) := by
  unfold Dev.wake
  with_reducible repeat' first | assumption | decide | rfl | refine Rel.step (by apply rel_Dev_setThread) ?_ ?_ | refine Rel.step (by apply rel_Dev_traceRec) ?_ ?_ | refine Rel.ite ?_ ?_ | split | intro _ | dsimp only

theorem rel_Dev_setCluster (d : Dev) (k : Nat) (x : Cluster) : Rel 4194304 d (Dev.setCluster d k x) := by
  unfold Dev.setCluster
  with_reducible repeat' first | assumption | decide | rfl | simp only [Nat.reduceAnd, Rel.u_cpu] | split | intro _ | dsimp only

theorem rel_Dev_setCh (d : Dev) (c : Nat) (x : Channel) : Rel 4194304 d (Dev.setCh d c x) := by
  unfold Dev.setCh
  with_reducible repeat' first | assumption | decide | rfl | simp only [Nat.reduceAnd, Rel.u_cpu] | split | intro _ | dsimp only

theorem rel_Dev_deliver (d : Dev) (c : Nat) (sender : Nat) (engine : Bool) (data : List Byte) : Rel 4194307 d (Dev.deliver d c sender engine data).2 := by
  unfold Dev.deliver
  with_reducible repeat' first | assumption | decide | rfl | refine Rel.step (by apply rel_Dev_wake) ?_ ?_ | refine Rel.step (by apply rel_Dev_setCluster) ?_ ?_ | refine Rel.step (by apply rel_Dev_setCh) ?_ ?_ | refine Rel.step (by apply rel_Dev_count) ?_ ?_ | refine Rel.ite ?_ ?_ | split | intro _ | dsimp only
theorem rel_Dev_deliver' {d : Dev} {c : Nat} {sender : Nat} {engine : Bool} {data : List Byte} {p0 : Bool} {p1 : Dev} (h : Dev.deliver d c sender engine data = (p0, p1)) : Rel 4194307 d p1 := by
  have k := rel_Dev_deliver d c sender engine data
  rw [h] at k
  exact k

theorem rel_Dev_raise (d : Dev) (g : Nat) (bit : Nat) : Rel 4194306 d (Dev.raise d g bit) := by
  unfold Dev.raise
  with_reducible repeat' first | assumption | decide | rfl | refine Rel.step (by apply rel_Dev_wake) ?_ ?_ | refine Rel.step (by apply rel_Dev_setThread) ?_ ?_ | refine Rel.ite ?_ ?_ | split | intro _ | dsimp only

theorem rel_Dev_wakeCore (d : Dev) (n : Nat) : Rel 4194306 d (Dev.wakeCore d n) := by
  unfold Dev.wakeCore
  with_reducible repeat' first | assumption | decide | rfl | refine Rel.foldl (fun _ _ => ?_) ?_ | refine Rel.foldl1 (fun _ _ => ?_) ?_ | refine Rel.foldl2 (fun _ _ => ?_) ?_ | refine Rel.step (by apply rel_Dev_wake) ?_ ?_ | split | intro _ | dsimp only

end Sys2Proof.Laws
end

