-- ==== Sys2Proof/Laws/Frames/Access.lean ====
section
/-! SUPPORT. What each function of Machine/Access.lean may change. -/

set_option linter.unusedTactic false
set_option linter.unreachableTactic false

namespace Sys2Proof.Laws

open Sys2Proof Sys2Proof.Machine

theorem rel_Dev_badAccess (d : Dev) (f : Fn) (off : Nat) (write : Bool) : Rel 1 d (Dev.badAccess d f off write) := by
  unfold Dev.badAccess
  with_reducible repeat' first | assumption | decide | rfl | refine Rel.step (by apply rel_Dev_setReg) ?_ ?_ | refine Rel.step (by apply rel_Dev_setBit) ?_ ?_ | refine Rel.step (by apply rel_Dev_count) ?_ ?_ | refine Rel.ite ?_ ?_ | split | intro _ | dsimp only

theorem rel_Dev_denyAccess (d : Dev) (pf : Nat) (off : Nat) (write : Bool) : Rel 1 d (Dev.denyAccess d pf off write) := by
  unfold Dev.denyAccess
  with_reducible repeat' first | assumption | decide | rfl | refine Rel.step (by apply rel_Dev_setReg) ?_ ?_ | refine Rel.step (by apply rel_Dev_setBit) ?_ ?_ | refine Rel.step (by apply rel_Dev_count) ?_ ?_ | refine Rel.ite ?_ ?_ | split | intro _ | dsimp only

theorem rel_Dev_bar0Read {m : Nat} {d : Dev} {pf off : Nat} {act : Dev → Dev × Word} (hm : 8589934593 &&& m = 8589934593)
    (hf : ∀ d, Rel m d (act d).1) : Rel m d (d.bar0Read pf off act) := by
  have hl : m &&& 8589934592 = 8589934592 := by
    have h := congrArg (fun x => 8589934592 &&& x) hm
    rw [← Nat.and_assoc] at h
    rw [Nat.and_comm]
    exact h
  unfold Dev.bar0Read
  refine Rel.ite ((Rel.u_lastRead hl).2 (Rel.refl _ _)) (Rel.ite ((Rel.u_lastRead hl).2 ?_) (Rel.ite ((Rel.u_lastRead hl).2 ?_) ?_))
  · exact (Rel.mono (rel_Dev_denyAccess ..) (by decide)).mono hm
  · exact (Rel.mono (rel_Dev_setBit ..) (by decide)).mono hm
  · exact (Rel.u_lastRead hl).2 (hf d)

theorem rel_Dev_bar0Write {m : Nat} {d : Dev} {pf : Nat} {off : Nat} {act : Dev → Dev} (hm : 1 &&& m = 1) (hf : ∀ d, Rel m d (act d)) : Rel m d (Dev.bar0Write d pf off act) := by
  unfold Dev.bar0Write
  with_reducible repeat' first | assumption | decide | rfl | (apply Rel.trans; swap; apply hf) | refine Rel.step2 hm (by apply rel_Dev_setBit) ?_ ?_ | refine Rel.step2 hm (by apply rel_Dev_denyAccess) ?_ ?_ | refine Rel.ite ?_ ?_ | split | intro _ | dsimp only

end Sys2Proof.Laws
end

