-- ==== Sys2Proof/Laws/Frames/Rings.lean ====
section
/-! SUPPORT. What each function of Machine/Rings.lean may change. -/

set_option linter.unusedTactic false
set_option linter.unreachableTactic false

namespace Sys2Proof.Laws

open Sys2Proof Sys2Proof.Machine

theorem rel_Dev_admCfg (d : Dev) (pf : Nat) (v : Word) : Rel 65537 d (Dev.admCfg d pf v) := by
  unfold Dev.admCfg
  with_reducible repeat' first | assumption | decide | rfl | refine Rel.step (by apply rel_Dev_setReg) ?_ ?_ | refine Rel.step (by apply rel_Dev_setBit) ?_ ?_ | (apply Rel.trans; swap; apply rel_Dev_bar0Write) | refine Rel.step (by apply rel_Dev_admPut) ?_ ?_ | refine Rel.ite ?_ ?_ | split | intro _ | dsimp only

theorem rel_Dev_admCqDoorbell (d : Dev) (pf : Nat) (v : Word) : Rel 4295033217 d (Dev.admCqDoorbell d pf v) := by
  unfold Dev.admCqDoorbell
  with_reducible repeat' first | assumption | decide | rfl | refine Rel.step (by apply rel_Dev_admDrain) ?_ ?_ | refine Rel.step (by apply rel_Dev_pfEvent) ?_ ?_ | (apply Rel.trans; swap; apply rel_Dev_bar0Write) | refine Rel.step (by apply rel_Dev_admPut) ?_ ?_ | refine Rel.step (by apply rel_Dev_count) ?_ ?_ | refine Rel.ite ?_ ?_ | split | intro _ | dsimp only

theorem rel_Dev_admSqDoorbell (d : Dev) (pf : Nat) (v : Word) : Rel 4295033217 d (Dev.admSqDoorbell d pf v) := by
  unfold Dev.admSqDoorbell
  with_reducible repeat' first | assumption | decide | rfl | refine Rel.step (by apply rel_Dev_pfEvent) ?_ ?_ | (apply Rel.trans; swap; apply rel_Dev_bar0Write) | refine Rel.step (by apply rel_Dev_admPut) ?_ ?_ | refine Rel.step (by apply rel_Dev_count) ?_ ?_ | refine Rel.ite ?_ ?_ | split | intro _ | dsimp only

theorem rel_Dev_admTake (d : Dev) (e : AdmEntry) (n : Nat) (err : Option (Nat × Nat)) : Rel 4295164321 d (Dev.admTake d e n err) := by
  unfold Dev.admTake
  with_reducible repeat' first | assumption | decide | rfl | refine Rel.step (by apply rel_Dev_pfEvent) ?_ ?_ | refine Rel.step (by apply rel_Dev_admComplete) ?_ ?_ | refine Rel.step (by apply rel_Dev_admPut) ?_ ?_ | refine Rel.ite ?_ ?_ | simp only [Nat.reduceAnd, Rel.u_taken] | split | intro _ | dsimp only

theorem rel_Dev_dbBad (d : Dev) (t : Nat) (ring : Option Nat) (v : Nat) : Rel 4362164609 d (Dev.dbBad d t ring v) := by
  unfold Dev.dbBad
  with_reducible repeat' first | assumption | decide | rfl | refine Rel.step (by apply rel_Dev_tenEvent) ?_ ?_ | refine Rel.step (by apply rel_Dev_count) ?_ ?_ | split | intro _ | dsimp only

theorem rel_Dev_dbCq (d : Dev) (t : Nat) (c : Nat) (x : Cq) (v : Word) : Rel 4362164609 d (Dev.dbCq d t c x v) := by
  unfold Dev.dbCq
  with_reducible repeat' first | assumption | decide | rfl | refine Rel.step (by apply rel_Dev_dbBad) ?_ ?_ | refine Rel.step (by apply rel_Dev_cqPut) ?_ ?_ | refine Rel.step (by apply rel_Dev_stashDrain) ?_ ?_ | refine Rel.ite ?_ ?_ | split | intro _ | dsimp only

theorem rel_Dev_dbRetasCi (d : Dev) (t : Nat) (c : Nat) (x : Cq) (v : Word) : Rel 4362164609 d (Dev.dbRetasCi d t c x v) := by
  unfold Dev.dbRetasCi
  with_reducible repeat' first | assumption | decide | rfl | refine Rel.step (by apply rel_Dev_dbBad) ?_ ?_ | refine Rel.step (by apply rel_Dev_cqPut) ?_ ?_ | refine Rel.step (by apply rel_Dev_stashDrain) ?_ ?_ | refine Rel.step (by apply rel_Dev_count) ?_ ?_ | refine Rel.ite ?_ ?_ | split | intro _ | dsimp only

theorem rel_Dev_dbRetasPi (d : Dev) (t : Nat) (q : Nat) (x : Sq) (v : Word) : Rel 4362164609 d (Dev.dbRetasPi d t q x v) := by
  unfold Dev.dbRetasPi
  with_reducible repeat' first | assumption | decide | rfl | refine Rel.step (by apply rel_Dev_dbBad) ?_ ?_ | refine Rel.step (by apply rel_Dev_sqPut) ?_ ?_ | refine Rel.step (by apply rel_Dev_count) ?_ ?_ | refine Rel.ite ?_ ?_ | split | intro _ | dsimp only

theorem rel_Dev_dbSq (d : Dev) (t : Nat) (q : Nat) (x : Sq) (v : Word) : Rel 4362164609 d (Dev.dbSq d t q x v) := by
  unfold Dev.dbSq
  with_reducible repeat' first | assumption | decide | rfl | refine Rel.step (by apply rel_Dev_dbBad) ?_ ?_ | refine Rel.step (by apply rel_Dev_sqPut) ?_ ?_ | refine Rel.ite ?_ ?_ | split | intro _ | dsimp only

theorem rel_Dev_doorbell (d : Dev) (f : Fn) (page : Nat) (off : Nat) (size : Nat) (v : Dword) : Rel 4362164609 d (Dev.doorbell d f page off size v) := by
  unfold Dev.doorbell
  with_reducible repeat' first | assumption | decide | rfl | refine Rel.step (by apply rel_Dev_dbBad) ?_ ?_ | refine Rel.step (by apply rel_Dev_dbSq) ?_ ?_ | refine Rel.step (by apply rel_Dev_discard) ?_ ?_ | refine Rel.step (by apply rel_Dev_dbRetasPi) ?_ ?_ | refine Rel.step (by apply rel_Dev_dbCq) ?_ ?_ | refine Rel.step (by apply rel_Dev_count) ?_ ?_ | refine Rel.step (by apply rel_Dev_dbRetasCi) ?_ ?_ | refine Rel.ite ?_ ?_ | split | intro _ | dsimp only

theorem rel_Dev_dropReads (d : Dev) (ref : JobRef) : Rel 1152 d (Dev.dropReads d ref) := by
  unfold Dev.dropReads
  with_reducible repeat' first | assumption | decide | rfl | simp only [Nat.reduceAnd, Rel.u_hifPorts_hifReq] | split | intro _ | dsimp only

theorem rel_Dev_queueReadAs (d : Dev) (f : Fn) (t : Nat) (gen : Word) (ref : JobRef) (addr : Nat) (len : Nat) (off : Nat) : Rel 128 d (Dev.queueReadAs d f t gen ref addr len off) := by
  unfold Dev.queueReadAs
  with_reducible repeat' first | assumption | decide | rfl | refine Rel.step (by apply rel_Dev_setHifPort) ?_ ?_ | refine Rel.ite ?_ ?_ | split | intro _ | dsimp only

theorem rel_Dev_queueRead (d : Dev) (t : Nat) (gen : Word) (ref : JobRef) (addr : Nat) (len : Nat) (off : Nat) : Rel 128 d (Dev.queueRead d t gen ref addr len off) := by
  unfold Dev.queueRead
  with_reducible repeat' first | assumption | decide | rfl | refine Rel.step (by apply rel_Dev_queueReadAs) ?_ ?_ | split | intro _ | dsimp only

theorem rel_Dev_entryFetch (d : Dev) (q : Nat) : Rel 16512 d (Dev.entryFetch d q) := by
  unfold Dev.entryFetch
  with_reducible repeat' first | assumption | decide | rfl | refine Rel.step (by apply rel_Dev_queueRead) ?_ ?_ | refine Rel.step (by apply rel_Dev_sqPut) ?_ ?_ | refine Rel.ite ?_ ?_ | split | intro _ | dsimp only

theorem rel_Dev_fetchFail (d : Dev) (q : Nat) (status : Nat) (detail : Nat) : Rel 4362165633 d (Dev.fetchFail d q status detail) := by
  unfold Dev.fetchFail
  with_reducible repeat' first | assumption | decide | rfl | refine Rel.step (by apply rel_Dev_tenEvent) ?_ ?_ | refine Rel.step (by apply rel_Dev_sqPut) ?_ ?_ | refine Rel.step (by apply rel_Dev_dropReads) ?_ ?_ | refine Rel.ite ?_ ?_ | split | intro _ | dsimp only

theorem rel_Dev_entryFetchDone (d : Dev) (q : Nat) (bytes : List Byte) (err : Option (Nat × Nat)) : Rel 4362165633 d (Dev.entryFetchDone d q bytes err) := by
  unfold Dev.entryFetchDone
  with_reducible repeat' first | assumption | decide | rfl | refine Rel.step (by apply rel_Dev_fetchFail) ?_ ?_ | refine Rel.step (by apply rel_Dev_sqPut) ?_ ?_ | refine Rel.ite ?_ ?_ | split | intro _ | dsimp only

theorem rel_Dev_jobDrop (d : Dev) (q : Nat) (pos : Nat) : Rel 32768 d (Dev.jobDrop d q pos) := by
  unfold Dev.jobDrop
  with_reducible repeat' first | assumption | decide | rfl | simp only [Nat.reduceAnd, Rel.u_jobs] | split | intro _ | dsimp only

theorem rel_Dev_publish (d : Dev) (q : Nat) : Rel 4294985728 d (Dev.publish d q) := by
  unfold Dev.publish
  with_reducible repeat' first | assumption | decide | rfl | refine Rel.step (by apply rel_Dev_logWrite) ?_ ?_ | refine Rel.step (by apply rel_Dev_sqPut) ?_ ?_ | refine Rel.step (by apply rel_Dev_emit) ?_ ?_ | refine Rel.ite ?_ ?_ | split | intro _ | dsimp only

theorem rel_Dev_passFailed (d : Dev) (q : Nat) (x : Sq) : Rel 4295018496 d (Dev.passFailed d q x) := by
  unfold Dev.passFailed
  with_reducible repeat' first | assumption | decide | rfl | refine Rel.step (by apply rel_Dev_publish) ?_ ?_ | refine Rel.step (by apply rel_Dev_sqPut) ?_ ?_ | refine Rel.step (by apply rel_Dev_jobDrop) ?_ ?_ | split | intro _ | dsimp only

theorem rel_Dev_phaseReread (d : Dev) (q : Nat) (bytes : List Byte) (err : Option (Nat × Nat)) : Rel 4362165633 d (Dev.phaseReread d q bytes err) := by
  unfold Dev.phaseReread
  with_reducible repeat' first | assumption | decide | rfl | refine Rel.step (by apply rel_Dev_fetchFail) ?_ ?_ | refine Rel.step (by apply rel_Dev_sqPut) ?_ ?_ | refine Rel.ite ?_ ?_ | split | intro _ | dsimp only

theorem rel_Dev_sqResume (d : Dev) (q : Nat) : Rel 16384 d (Dev.sqResume d q) := by
  unfold Dev.sqResume
  with_reducible repeat' first | assumption | decide | rfl | refine Rel.step (by apply rel_Dev_sqPut) ?_ ?_ | split | intro _ | dsimp only

theorem rel_ringCreate (e : AdmEntry) (d : Dev) : AdmRel 16384 d (ringCreate e d) := by
  unfold ringCreate
  with_reducible repeat' first | assumption | decide | rfl | refine AdmRel.elim ?_ (fun _ => ?_) | refine AdmRel.checks ?_ | exact AdmRel.fail | refine AdmRel.done ?_ | refine AdmRel.wait ?_ | refine Rel.elim ?_ (fun _ => ?_) | refine Rel.step (by apply rel_Dev_sqPut) ?_ ?_ | refine Rel.step (by apply rel_Dev_cqPut) ?_ ?_ | refine Rel.ite ?_ ?_ | refine AdmRel.ite ?_ ?_ | split | intro _ | dsimp only

theorem rel_ringDcinv (e : AdmEntry) (d : Dev) : AdmRel 16384 d (ringDcinv e d) := by
  unfold ringDcinv
  with_reducible repeat' first | assumption | decide | rfl | refine AdmRel.checks ?_ | exact AdmRel.fail | refine AdmRel.done ?_ | refine AdmRel.wait ?_ | refine Rel.step (by apply rel_Dev_sqPut) ?_ ?_ | refine AdmRel.ite ?_ ?_ | split | intro _ | dsimp only

theorem rel_ringDestroy (e : AdmEntry) (d : Dev) : AdmRel 49152 d (ringDestroy e d) := by
  unfold ringDestroy
  with_reducible repeat' first | assumption | decide | rfl | refine AdmRel.checks ?_ | exact AdmRel.fail | refine AdmRel.done ?_ | refine AdmRel.wait ?_ | refine AdmRel.ite ?_ ?_ | simp only [Nat.reduceAnd, Rel.u_jobs_rings, Rel.u_rings] | split | intro _ | dsimp only

theorem rel_ringResume (e : AdmEntry) (d : Dev) : AdmRel 4362131841 d (ringResume e d) := by
  unfold ringResume
  with_reducible repeat' first | assumption | decide | rfl | refine AdmRel.checks ?_ | exact AdmRel.fail | refine AdmRel.done ?_ | refine AdmRel.wait ?_ | refine Rel.step (by apply rel_Dev_passFailed) ?_ ?_ | refine Rel.step (by apply rel_Dev_sqPut) ?_ ?_ | refine Rel.step (by apply rel_Dev_cqPut) ?_ ?_ | refine Rel.step (by apply rel_Dev_stashDrain) ?_ ?_ | refine Rel.step (by apply rel_Dev_sqResume) ?_ ?_ | refine Rel.ite ?_ ?_ | refine AdmRel.ite ?_ ?_ | split | intro _ | dsimp only

theorem rel_ringSetMod (e : AdmEntry) (d : Dev) : AdmRel 16384 d (ringSetMod e d) := by
  unfold ringSetMod
  with_reducible repeat' first | assumption | decide | rfl | refine AdmRel.checks ?_ | exact AdmRel.fail | refine AdmRel.done ?_ | refine AdmRel.wait ?_ | refine Rel.step (by apply rel_Dev_sqPut) ?_ ?_ | refine Rel.step (by apply rel_Dev_cqPut) ?_ ?_ | refine AdmRel.ite ?_ ?_ | split | intro _ | dsimp only

theorem rel_ringSetSched (e : AdmEntry) (d : Dev) : AdmRel 16384 d (ringSetSched e d) := by
  unfold ringSetSched
  with_reducible repeat' first | assumption | decide | rfl | refine AdmRel.checks ?_ | exact AdmRel.fail | refine AdmRel.done ?_ | refine AdmRel.wait ?_ | refine Rel.step (by apply rel_Dev_sqPut) ?_ ?_ | refine AdmRel.ite ?_ ?_ | split | intro _ | dsimp only

end Sys2Proof.Laws
end

