-- ==== Sys2Proof/Laws/Frames/Sched.lean ====
section
/-! SUPPORT. What each function of Machine/Sched.lean may change. -/

set_option linter.unusedTactic false
set_option linter.unreachableTactic false

namespace Sys2Proof.Laws

open Sys2Proof Sys2Proof.Machine

theorem rel_Dev_applyShare (d : Dev) (t : Nat) : Rel 4295166368 d (Dev.applyShare d t) := by
  unfold Dev.applyShare
  with_reducible repeat' first | assumption | decide | rfl | refine Rel.foldl (fun _ _ => ?_) ?_ | refine Rel.foldl1 (fun _ _ => ?_) ?_ | refine Rel.foldl2 (fun _ _ => ?_) ?_ | refine Rel.step (by apply rel_Dev_admLate) ?_ ?_ | refine Rel.step (by apply rel_Dev_tenPut) ?_ ?_ | split | intro _ | dsimp only

theorem rel_Dev_barrierDone (d : Dev) (q : Nat) (pos : Nat) (err : Option (Nat × Nat)) : Rel 312448 d (Dev.barrierDone d q pos err) := by
  unfold Dev.barrierDone
  with_reducible repeat' first | assumption | decide | rfl | refine Rel.step (by apply rel_Dev_jobPut) ?_ ?_ | refine Rel.step (by apply rel_Dev_sqPut) ?_ ?_ | refine Rel.step (by apply rel_Dev_dropReads) ?_ ?_ | refine Rel.ite ?_ ?_ | simp only [Nat.reduceAnd, Rel.u_dma] | split | intro _ | dsimp only

theorem rel_Dev_chanPut (d : Dev) (n : Nat) (c : Chan) : Rel 262144 d (Dev.chanPut d n c) := by
  unfold Dev.chanPut
  with_reducible repeat' first | assumption | decide | rfl | simp only [Nat.reduceAnd, Rel.u_dma] | split | intro _ | dsimp only

theorem rel_Dev_cqStall (d : Dev) (c : Nat) : Rel 4362164609 d (Dev.cqStall d c) := by
  unfold Dev.cqStall
  with_reducible repeat' first | assumption | decide | rfl | refine Rel.step (by apply rel_Dev_tenEvent) ?_ ?_ | refine Rel.step (by apply rel_Dev_cqPut) ?_ ?_ | refine Rel.step (by apply rel_Dev_count) ?_ ?_ | refine Rel.ite ?_ ?_ | split | intro _ | dsimp only

theorem rel_Dev_frameGone (d : Dev) (job : Option (Nat × Nat)) (d2 : Dword) (d3 : Nat) (bad : Option (Nat × Nat)) : Rel 32768 d (Dev.frameGone d job d2 d3 bad) := by
  unfold Dev.frameGone
  with_reducible repeat' first | assumption | decide | rfl | refine Rel.step (by apply rel_Dev_jobEnd) ?_ ?_ | refine Rel.step (by apply rel_Dev_jobPut) ?_ ?_ | refine Rel.ite ?_ ?_ | split | intro _ | dsimp only

theorem rel_Dev_progFail (d : Dev) (x : Sq) (j : Job) (r : JobRes) : Rel 4362164609 d (Dev.progFail d x j r) := by
  unfold Dev.progFail
  with_reducible repeat' first | assumption | decide | rfl | refine Rel.step (by apply rel_Dev_tenEvent) ?_ ?_ | refine Rel.step (by apply rel_Dev_sqPut) ?_ ?_ | refine Rel.ite ?_ ?_ | split | intro _ | dsimp only

theorem rel_Dev_jobComplete (d : Dev) (q : Nat) (pos : Nat) : Rel 4362197377 d (Dev.jobComplete d q pos) := by
  unfold Dev.jobComplete
  with_reducible repeat' first | assumption | decide | rfl | refine Rel.step (by apply rel_Dev_irqSignal) ?_ ?_ | refine Rel.step (by apply rel_Dev_cqPush) ?_ ?_ | refine Rel.step (by apply rel_Dev_publish) ?_ ?_ | refine Rel.step (by apply rel_Dev_queueRead) ?_ ?_ | refine Rel.step (by apply rel_Dev_jobPut) ?_ ?_ | refine Rel.step (by apply rel_Dev_discard) ?_ ?_ | refine Rel.step (by apply rel_Dev_sqPut) ?_ ?_ | refine Rel.step (by apply rel_Dev_jobDrop) ?_ ?_ | refine Rel.step (by apply rel_Dev_progFail) ?_ ?_ | refine Rel.ite ?_ ?_ | split | intro _ | dsimp only

theorem rel_Dev_txStore (d : Dev) (j : Job) (st : Stage) (x3 : List (List Byte)) : OptRel 4 d (Dev.txStore d j st x3) := by
  induction x3 generalizing d j st with
  | nil => unfold Dev.txStore; with_reducible repeat' first | assumption | decide | rfl | refine Rel.getD ?_ ?_ | exact OptRel.none | refine OptRel.some ?_ | refine OptRel.ite ?_ ?_ | refine OptRel.mapD (fun _ => ?_) ?_ | refine OptRel.map (fun _ => ?_) | refine OptRel.bindD (fun _ => ?_) ?_ | refine OptRel.bind (fun _ => ?_) | refine Rel.step (by apply rel_Dev_setSquare) ?_ ?_ | split | intro _ | dsimp only
  | cons y r ih => unfold Dev.txStore; with_reducible repeat' first | assumption | decide | rfl | refine Rel.getD ?_ ?_ | exact OptRel.none | refine OptRel.some ?_ | refine OptRel.ite ?_ ?_ | refine OptRel.mapD (fun _ => ?_) ?_ | refine OptRel.map (fun _ => ?_) | refine OptRel.bindD (fun _ => ?_) ?_ | refine OptRel.bind (fun _ => ?_) | refine OptRel.step (by apply ih) ?_ ?_ | refine Rel.step (by apply rel_Dev_setSquare) ?_ ?_ | split | intro _ | dsimp only

theorem rel_Dev_txBuild (d : Dev) (q : Nat) (pos : Nat) : Rel 34820 d (Dev.txBuild d q pos) := by
  unfold Dev.txBuild
  with_reducible repeat' first | assumption | decide | rfl | refine Rel.getD ?_ ?_ | exact OptRel.none | refine OptRel.some ?_ | refine OptRel.ite ?_ ?_ | refine OptRel.mapD (fun _ => ?_) ?_ | refine OptRel.map (fun _ => ?_) | refine OptRel.bindD (fun _ => ?_) ?_ | refine OptRel.bind (fun _ => ?_) | refine Rel.elim ?_ (fun _ => ?_) | refine Rel.step (by apply rel_Dev_drawBytes) ?_ ?_ | refine Rel.step (by apply rel_Dev_jobPut) ?_ ?_ | refine OptRel.step (by apply rel_Dev_txStore) ?_ ?_ | refine Rel.step (by apply OptRel.use; assumption; apply rel_Dev_txStore) ?_ ?_ | refine Rel.ite ?_ ?_ | split | intro _ | dsimp only

theorem rel_Dev_jobData (d : Dev) (q : Nat) (pos : Nat) (off : Nat) (b : List Byte) : Rel 34820 d (Dev.jobData d q pos off b) := by
  unfold Dev.jobData
  with_reducible repeat' first | assumption | decide | rfl | refine Rel.step (by apply rel_Dev_jobPut) ?_ ?_ | refine Rel.step (by apply rel_Dev_txBuild) ?_ ?_ | split | intro _ | dsimp only

theorem rel_Dev_noteWrite (d : Dev) (q : Nat) (pos : Nat) (addr : Nat) (len : Nat) : Rel 49152 d (Dev.noteWrite d q pos addr len) := by
  unfold Dev.noteWrite
  with_reducible repeat' first | assumption | decide | rfl | refine Rel.step (by apply rel_Dev_jobPut) ?_ ?_ | refine Rel.step (by apply rel_Dev_sqPut) ?_ ?_ | refine Rel.ite ?_ ?_ | split | intro _ | dsimp only

theorem rel_Dev_jobWrite (d : Dev) (j : Job) (addr : Nat) (data : List Byte) (ro : Bool) : Rel 4295018497 d (Dev.jobWrite d j addr data ro) := by
  unfold Dev.jobWrite
  with_reducible repeat' first | assumption | decide | rfl | refine Rel.step (by apply rel_Dev_drawBytes) ?_ ?_ | refine Rel.step (by apply rel_Dev_noteWrite) ?_ ?_ | refine Rel.step (by apply rel_Dev_tenWrite) ?_ ?_ | refine Rel.ite ?_ ?_ | split | intro _ | dsimp only

theorem rel_Dev_jobDeliver (d : Dev) (j : Job) (addr : Nat) (data : List Byte) (ro : Bool) : Rel 4563453953 d (Dev.jobDeliver d j addr data ro) := by
  unfold Dev.jobDeliver
  with_reducible repeat' first | assumption | decide | rfl | refine Rel.step (by apply rel_Dev_jobWrite) ?_ ?_ | refine Rel.step (by apply rel_Dev_tollAdd) ?_ ?_ | split | intro _ | dsimp only

theorem rel_Dev_modExpire (d : Dev) (src : IrqSrc) : Rel 4362097024 d (Dev.modExpire d src) := by
  unfold Dev.modExpire
  with_reducible repeat' first | assumption | decide | rfl | refine Rel.step (by apply rel_Dev_irqFire) ?_ ?_ | refine Rel.ite ?_ ?_ | split | intro _ | dsimp only

theorem rel_Dev_nop (d : Dev) (q : Nat) (pos : Nat) : Rel 32896 d (Dev.nop d q pos) := by
  unfold Dev.nop
  with_reducible repeat' first | assumption | decide | rfl | refine Rel.step (by apply rel_Dev_jobEnd) ?_ ?_ | refine Rel.step (by apply rel_Dev_queueRead) ?_ ?_ | refine Rel.step (by apply rel_Dev_jobPut) ?_ ?_ | refine Rel.ite ?_ ?_ | split | intro _ | dsimp only

theorem rel_Dev_ringRoundEnd (d : Dev) (t : Nat) : Rel 16384 d (Dev.ringRoundEnd d t) := by
  unfold Dev.ringRoundEnd
  with_reducible repeat' first | assumption | decide | rfl | refine Rel.ite ?_ ?_ | simp only [Nat.reduceAnd, Rel.u_rings] | split | intro _ | dsimp only

theorem rel_Dev_startFront (d : Dev) (q : Nat) (x : Sq) (prio : Bool) : Rel 311296 d (Dev.startFront d q x prio).2 := by
  unfold Dev.startFront
  with_reducible repeat' first | assumption | decide | rfl | refine Rel.step (by apply rel_Dev_chanPut) ?_ ?_ | refine Rel.step (by apply rel_Dev_sqPut) ?_ ?_ | refine Rel.ite ?_ ?_ | simp only [Nat.reduceAnd, Rel.u_jobs] | split | intro _ | dsimp only
theorem rel_Dev_startFront' {d : Dev} {q : Nat} {x : Sq} {prio : Bool} {p0 : Nat} {p1 : Dev} (h : Dev.startFront d q x prio = (p0, p1)) : Rel 311296 d p1 := by
  have k := rel_Dev_startFront d q x prio
  rw [h] at k
  exact k

theorem rel_Dev_ringTurn (d : Dev) (q : Nat) (burst : Nat) (prio : Bool) (x4 : Nat) : Rel 311296 d (Dev.ringTurn d q burst prio x4) := by
  induction x4 generalizing d q burst prio with
  | zero => unfold Dev.ringTurn; with_reducible repeat' first | assumption | decide | rfl | refine Rel.step (by apply rel_Dev_startFront) ?_ ?_ | refine Rel.step (by apply rel_Dev_startFront'; assumption) ?_ ?_ | refine Rel.ite ?_ ?_ | split | intro _ | dsimp only
  | succ n ih => unfold Dev.ringTurn; with_reducible repeat' first | assumption | decide | rfl | refine Rel.step (by apply ih) ?_ ?_ | refine Rel.step (by apply rel_Dev_startFront) ?_ ?_ | refine Rel.step (by apply rel_Dev_startFront'; assumption) ?_ ?_ | refine Rel.ite ?_ ?_ | split | intro _ | dsimp only

theorem rel_Dev_schedPut (d : Dev) (p : Nat) (s : HostSched) : Rel 8192 d (Dev.schedPut d p s) := by
  unfold Dev.schedPut
  with_reducible repeat' first | assumption | decide | rfl | simp only [Nat.reduceAnd, Rel.u_sched] | split | intro _ | dsimp only

theorem rel_Dev_roundEnd (d : Dev) (p : Nat) : Rel 4295174560 d (Dev.roundEnd d p) := by
  unfold Dev.roundEnd
  with_reducible repeat' first | assumption | decide | rfl | refine Rel.foldl (fun _ _ => ?_) ?_ | refine Rel.foldl1 (fun _ _ => ?_) ?_ | refine Rel.foldl2 (fun _ _ => ?_) ?_ | refine Rel.step (by apply rel_Dev_schedPut) ?_ ?_ | refine Rel.step (by apply rel_Dev_applyShare) ?_ ?_ | refine Rel.ite ?_ ?_ | split | intro _ | dsimp only

theorem rel_Dev_rxDrop (d : Dev) (q : Nat) : Rel 1 d (Dev.rxDrop d q) := by
  unfold Dev.rxDrop
  with_reducible repeat' first | assumption | decide | rfl | refine Rel.step (by apply rel_Dev_count) ?_ ?_ | split | intro _ | dsimp only

theorem rel_Dev_rxOne (d : Dev) (q : Nat) (x : Sq) (gen : Word) (data : List Byte) (full : Nat) (status : Nat) (more : Bool) (m : RxMeta) : Rel 4563453953 d (Dev.rxOne d q x gen data full status more m) := by
  unfold Dev.rxOne
  with_reducible repeat' first | assumption | decide | rfl | refine Rel.step (by apply rel_Dev_jobEnd) ?_ ?_ | refine Rel.step (by apply rel_Dev_jobDeliver) ?_ ?_ | refine Rel.step (by apply rel_Dev_sqPut) ?_ ?_ | refine Rel.ite ?_ ?_ | simp only [Nat.reduceAnd, Rel.u_jobs] | split | intro _ | dsimp only

theorem rel_Dev_rxScatter (d : Dev) (q : Nat) (gen : Word) (data : List Byte) (m : RxMeta) (x5 : Nat) : Rel 4563453953 d (Dev.rxScatter d q gen data m x5) := by
  induction x5 generalizing d q gen data m with
  | zero => unfold Dev.rxScatter; with_reducible repeat' first | assumption | decide | rfl | refine Rel.step (by apply rel_Dev_rxOne) ?_ ?_ | refine Rel.ite ?_ ?_ | split | intro _ | dsimp only
  | succ n ih => unfold Dev.rxScatter; with_reducible repeat' first | assumption | decide | rfl | refine Rel.step (by apply ih) ?_ ?_ | refine Rel.step (by apply rel_Dev_rxOne) ?_ ?_ | refine Rel.ite ?_ ?_ | split | intro _ | dsimp only

theorem rel_Dev_rxPost (d : Dev) (q : Nat) (x2 : Nat) : Rel 311296 d (Dev.rxPost d q x2) := by
  induction x2 generalizing d q with
  | zero => unfold Dev.rxPost; with_reducible repeat' first | assumption | decide | rfl | refine Rel.step (by apply rel_Dev_startFront) ?_ ?_ | refine Rel.step (by apply rel_Dev_startFront'; assumption) ?_ ?_ | refine Rel.ite ?_ ?_ | split | intro _ | dsimp only
  | succ n ih => unfold Dev.rxPost; with_reducible repeat' first | assumption | decide | rfl | refine Rel.step (by apply ih) ?_ ?_ | refine Rel.step (by apply rel_Dev_startFront) ?_ ?_ | refine Rel.step (by apply rel_Dev_startFront'; assumption) ?_ ?_ | refine Rel.ite ?_ ?_ | split | intro _ | dsimp only

theorem rel_Dev_rxPlace (d : Dev) (q : Nat) (gen : Word) (clsOpen : Bool) (data : List Byte) (m : RxMeta) (xlat : Bool) : Rel 4563718017 d (Dev.rxPlace d q gen clsOpen data m xlat).2 := by
  unfold Dev.rxPlace
  with_reducible repeat' first | assumption | decide | rfl | refine Rel.step (by apply rel_Dev_setHifPort) ?_ ?_ | refine Rel.step (by apply rel_Dev_discard) ?_ ?_ | refine Rel.step (by apply rel_Dev_rxScatter) ?_ ?_ | refine Rel.step (by apply rel_Dev_rxDrop) ?_ ?_ | refine Rel.step (by apply rel_Dev_rxPost) ?_ ?_ | refine Rel.step (by apply rel_Dev_rxOne) ?_ ?_ | refine Rel.step (by apply rel_Dev_count) ?_ ?_ | refine Rel.step (by apply rel_Dev_emit) ?_ ?_ | refine Rel.ite ?_ ?_ | simp only [Nat.reduceAnd, Rel.u_allhif] | split | intro _ | dsimp only
theorem rel_Dev_rxPlace' {d : Dev} {q : Nat} {gen : Word} {clsOpen : Bool} {data : List Byte} {m : RxMeta} {xlat : Bool} {p0 : Bool} {p1 : Dev} (h : Dev.rxPlace d q gen clsOpen data m xlat = (p0, p1)) : Rel 4563718017 d p1 := by
  have k := rel_Dev_rxPlace d q gen clsOpen data m xlat
  rw [h] at k
  exact k

theorem rel_Dev_tenTurn (d : Dev) (t : Nat) (prio : Bool) : Rel 313344 d (Dev.tenTurn d t prio) := by
  unfold Dev.tenTurn
  with_reducible repeat' first | assumption | decide | rfl | refine Rel.step (by apply rel_Dev_ringTurn) ?_ ?_ | refine Rel.step (by apply rel_Dev_ringRoundEnd) ?_ ?_ | refine Rel.step (by apply rel_Dev_tenPut) ?_ ?_ | refine Rel.ite ?_ ?_ | split | intro _ | dsimp only

theorem rel_Dev_schedulerTurn (d : Dev) (p : Nat) : Rel 4295485856 d (Dev.schedulerTurn d p) := by
  unfold Dev.schedulerTurn
  with_reducible repeat' first | assumption | decide | rfl | refine Rel.foldl (fun _ _ => ?_) ?_ | refine Rel.foldl1 (fun _ _ => ?_) ?_ | refine Rel.foldl2 (fun _ _ => ?_) ?_ | refine Rel.step (by apply rel_Dev_tenTurn) ?_ ?_ | refine Rel.step (by apply rel_Dev_schedPut) ?_ ?_ | refine Rel.step (by apply rel_Dev_roundEnd) ?_ ?_ | split | intro _ | dsimp only

theorem rel_Dev_shareApply (d : Dev) (p : Nat) : Rel 4295174560 d (Dev.shareApply d p) := by
  unfold Dev.shareApply
  with_reducible repeat' first | assumption | decide | rfl | refine Rel.step (by apply rel_Dev_roundEnd) ?_ ?_ | refine Rel.ite ?_ ?_ | split | intro _ | dsimp only

theorem rel_Dev_txStart (d : Dev) (q : Nat) (pos : Nat) : Rel 32896 d (Dev.txStart d q pos) := by
  unfold Dev.txStart
  with_reducible repeat' first | assumption | decide | rfl | refine Rel.foldl (fun _ _ => ?_) ?_ | refine Rel.foldl1 (fun _ _ => ?_) ?_ | refine Rel.foldl2 (fun _ _ => ?_) ?_ | refine Rel.step (by apply rel_Dev_jobEnd) ?_ ?_ | refine Rel.step (by apply rel_Dev_queueRead) ?_ ?_ | refine Rel.step (by apply rel_Dev_jobPut) ?_ ?_ | refine Rel.ite ?_ ?_ | split | intro _ | dsimp only

end Sys2Proof.Laws
end

