-- ==== Sys2Proof/Laws/Frames/Copy.lean ====
section
/-! SUPPORT. What each function of Machine/Copy.lean may change. -/

set_option linter.unusedTactic false
set_option linter.unreachableTactic false

namespace Sys2Proof.Laws

open Sys2Proof Sys2Proof.Machine

theorem rel_Dev_chanStop (d : Dev) (n : Nat) (c : Chan) (r : JobRes) : Rel 296064 d (Dev.chanStop d n c r) := by
  unfold Dev.chanStop
  with_reducible repeat' first | assumption | decide | rfl | refine Rel.step (by apply rel_Dev_chanPut) ?_ ?_ | refine Rel.step (by apply rel_Dev_jobPut) ?_ ?_ | refine Rel.step (by apply rel_Dev_dropReads) ?_ ?_ | refine Rel.ite ?_ ?_ | split | intro _ | dsimp only

theorem rel_Dev_chanAbort (d : Dev) (n : Nat) : Rel 296064 d (Dev.chanAbort d n) := by
  unfold Dev.chanAbort
  with_reducible repeat' first | assumption | decide | rfl | refine Rel.step (by apply rel_Dev_chanStop) ?_ ?_ | refine Rel.ite ?_ ?_ | split | intro _ | dsimp only

theorem rel_Dev_chanEnd (d : Dev) (n : Nat) (c : Chan) (r : JobRes) : Rel 295040 d (Dev.chanEnd d n c r) := by
  unfold Dev.chanEnd
  with_reducible repeat' first | assumption | decide | rfl | refine Rel.step (by apply rel_Dev_jobEnd) ?_ ?_ | refine Rel.step (by apply rel_Dev_queueRead) ?_ ?_ | refine Rel.step (by apply rel_Dev_chanPut) ?_ ?_ | refine Rel.step (by apply rel_Dev_jobPut) ?_ ?_ | refine Rel.ite ?_ ?_ | split | intro _ | dsimp only

theorem rel_Dev_chanDone (d : Dev) (n : Nat) (c : Chan) : Rel 295040 d (Dev.chanDone d n c) := by
  unfold Dev.chanDone
  with_reducible repeat' first | assumption | decide | rfl | refine Rel.step (by apply rel_Dev_chanEnd) ?_ ?_ | refine Rel.ite ?_ ?_ | split | intro _ | dsimp only

theorem rel_Dev_chanFetch (d : Dev) (n : Nat) (c : Chan) : Rel 262272 d (Dev.chanFetch d n c) := by
  unfold Dev.chanFetch
  with_reducible repeat' first | assumption | decide | rfl | refine Rel.step (by apply rel_Dev_queueRead) ?_ ?_ | refine Rel.step (by apply rel_Dev_chanPut) ?_ ?_ | refine Rel.ite ?_ ?_ | split | intro _ | dsimp only

theorem rel_Dev_chanLatch (d : Dev) (n : Nat) (c : Chan) (addr : Nat) (status : Nat) (detail : Nat) (isDesc : Bool) (hbm : Bool) (write : Bool) (off : Nat) : Rel 1 d (Dev.chanLatch d n c addr status detail isDesc hbm write off) := by
  unfold Dev.chanLatch
  with_reducible repeat' first | assumption | decide | rfl | refine Rel.step (by apply rel_Dev_setReg) ?_ ?_ | split | intro _ | dsimp only

theorem rel_Dev_chanHalt (d : Dev) (n : Nat) (addr : Nat) (status : Nat) (detail : Nat) (isDesc : Bool) (hbm : Bool) (write : Bool) : Rel 4362460545 d (Dev.chanHalt d n addr status detail isDesc hbm write) := by
  unfold Dev.chanHalt
  with_reducible repeat' first | assumption | decide | rfl | refine Rel.step (by apply rel_Dev_tenEvent) ?_ ?_ | refine Rel.step (by apply rel_Dev_chanLatch) ?_ ?_ | refine Rel.step (by apply rel_Dev_pfEvent) ?_ ?_ | refine Rel.step (by apply rel_Dev_chanPut) ?_ ?_ | refine Rel.step (by apply rel_Dev_dropReads) ?_ ?_ | refine Rel.step (by apply rel_Dev_count) ?_ ?_ | refine Rel.step (by apply rel_Dev_chanAbort) ?_ ?_ | refine Rel.ite ?_ ?_ | split | intro _ | dsimp only

theorem rel_Dev_chanPoison (d : Dev) (n : Nat) (addr : Nat) (off : Nat) (isDesc : Bool) : Rel 296065 d (Dev.chanPoison d n addr off isDesc) := by
  unfold Dev.chanPoison
  with_reducible repeat' first | assumption | decide | rfl | refine Rel.step (by apply rel_Dev_chanLatch) ?_ ?_ | refine Rel.step (by apply rel_Dev_chanStop) ?_ ?_ | split | intro _ | dsimp only

theorem rel_Dev_chanRefuse (d : Dev) (n : Nat) (c : Chan) (reason : Nat) : Rel 295040 d (Dev.chanRefuse d n c reason) := by
  unfold Dev.chanRefuse
  with_reducible repeat' first | assumption | decide | rfl | refine Rel.step (by apply rel_Dev_chanEnd) ?_ ?_ | split | intro _ | dsimp only

theorem rel_Dev_chunkNext (d : Dev) (n : Nat) (c : Chan) (x : Desc) (dmax : Nat) : Rel 295040 d (Dev.chunkNext d n c x dmax) := by
  unfold Dev.chunkNext
  with_reducible repeat' first | assumption | decide | rfl | refine Rel.step (by apply rel_Dev_chanPut) ?_ ?_ | refine Rel.step (by apply rel_Dev_chanFetch) ?_ ?_ | refine Rel.step (by apply rel_Dev_chanRefuse) ?_ ?_ | refine Rel.step (by apply rel_Dev_chanDone) ?_ ?_ | refine Rel.ite ?_ ?_ | split | intro _ | dsimp only

theorem rel_Dev_chunkWrite (d : Dev) (j : Job) (x : Desc) (o : Nat) (b : List Byte) : Rel 4295018499 d (Dev.chunkWrite d j x o b) := by
  unfold Dev.chunkWrite
  with_reducible repeat' first | assumption | decide | rfl | refine Rel.foldl (fun _ _ => ?_) ?_ | refine Rel.foldl1 (fun _ _ => ?_) ?_ | refine Rel.foldl2 (fun _ _ => ?_) ?_ | refine Rel.step (by apply rel_Dev_jobWrite) ?_ ?_ | refine Rel.step (by apply rel_Dev_hbmWrite) ?_ ?_ | refine Rel.ite ?_ ?_ | split | intro _ | dsimp only

theorem rel_Dev_chunkWriteHbm (d : Dev) (x : Desc) (o : Nat) (b : List Byte) : Rel 2 d (Dev.chunkWriteHbm d x o b) := by
  unfold Dev.chunkWriteHbm
  with_reducible repeat' first | assumption | decide | rfl | refine Rel.step (by apply rel_Dev_hbmWrite) ?_ ?_ | refine Rel.ite ?_ ?_ | split | intro _ | dsimp only

theorem rel_Dev_copyChunk (d : Dev) (n : Nat) (inp : ChunkIn) (ecc : Ecc) : Rel 4362460547 d (Dev.copyChunk d n inp ecc) := by
  unfold Dev.copyChunk
  with_reducible repeat' first | assumption | decide | rfl | refine Rel.step (by apply rel_Dev_chanHalt) ?_ ?_ | refine Rel.step (by apply rel_Dev_chanPoison) ?_ ?_ | refine Rel.step (by apply rel_Dev_applyEcc) ?_ ?_ | refine Rel.step (by apply rel_Dev_drawBytes) ?_ ?_ | refine Rel.step (by apply rel_Dev_chunkWriteHbm) ?_ ?_ | refine Rel.step (by apply rel_Dev_chanPut) ?_ ?_ | refine Rel.step (by apply rel_Dev_chunkWrite) ?_ ?_ | refine Rel.step (by apply rel_Dev_chunkNext) ?_ ?_ | refine Rel.ite ?_ ?_ | split | intro _ | dsimp only

theorem rel_Dev_copyStart (d : Dev) (q : Nat) (pos : Nat) : Rel 295040 d (Dev.copyStart d q pos) := by
  unfold Dev.copyStart
  with_reducible repeat' first | assumption | decide | rfl | refine Rel.step (by apply rel_Dev_jobPut) ?_ ?_ | refine Rel.step (by apply rel_Dev_chanFetch) ?_ ?_ | refine Rel.step (by apply rel_Dev_chanRefuse) ?_ ?_ | refine Rel.ite ?_ ?_ | split | intro _ | dsimp only

theorem rel_Dev_descDone (d : Dev) (n : Nat) (bytes : List Byte) (err : Option (Nat × Nat)) (ecc : Ecc) : Rel 4362460547 d (Dev.descDone d n bytes err ecc) := by
  unfold Dev.descDone
  with_reducible repeat' first | assumption | decide | rfl | refine Rel.step (by apply rel_Dev_chanHalt) ?_ ?_ | refine Rel.step (by apply rel_Dev_chanPoison) ?_ ?_ | refine Rel.step (by apply rel_Dev_applyEcc) ?_ ?_ | refine Rel.step (by apply rel_Dev_chanPut) ?_ ?_ | refine Rel.step (by apply rel_Dev_chanRefuse) ?_ ?_ | refine Rel.ite ?_ ?_ | split | intro _ | dsimp only

theorem rel_Dev_grantDrained (d : Dev) (t : Nat) : Rel 4295426464 d (Dev.grantDrained d t) := by
  unfold Dev.grantDrained
  with_reducible repeat' first | assumption | decide | rfl | refine Rel.step (by apply rel_Dev_admLate) ?_ ?_ | simp only [Nat.reduceAnd, Rel.u_dma] | split | intro _ | dsimp only

theorem rel_Dev_haltTimeout (d : Dev) (n : Nat) : Rel 296065 d (Dev.haltTimeout d n) := by
  unfold Dev.haltTimeout
  with_reducible repeat' first | assumption | decide | rfl | refine Rel.step (by apply rel_Dev_count) ?_ ?_ | refine Rel.step (by apply rel_Dev_chanAbort) ?_ ?_ | refine Rel.ite ?_ ?_ | split | intro _ | dsimp only

theorem rel_dmaAbort (e : AdmEntry) (d : Dev) : AdmRel 296064 d (dmaAbort e d) := by
  unfold dmaAbort
  with_reducible repeat' first | assumption | decide | rfl | refine AdmRel.checks ?_ | exact AdmRel.fail | refine AdmRel.done ?_ | refine AdmRel.wait ?_ | refine Rel.step (by apply rel_Dev_chanAbort) ?_ ?_ | refine AdmRel.ite ?_ ?_ | split | intro _ | dsimp only

theorem rel_dmaGrant (e : AdmEntry) (d : Dev) : AdmRel 262144 d (dmaGrant e d) := by
  unfold dmaGrant
  with_reducible repeat' first | assumption | decide | rfl | refine AdmRel.checks ?_ | exact AdmRel.fail | refine AdmRel.done ?_ | refine AdmRel.wait ?_ | refine Rel.ite ?_ ?_ | refine AdmRel.ite ?_ ?_ | simp only [Nat.reduceAnd, Rel.u_dma] | split | intro _ | dsimp only

theorem rel_dmaResume (e : AdmEntry) (d : Dev) : AdmRel 262272 d (dmaResume e d) := by
  unfold dmaResume
  with_reducible repeat' first | assumption | decide | rfl | refine AdmRel.checks ?_ | exact AdmRel.fail | refine AdmRel.done ?_ | refine AdmRel.wait ?_ | refine Rel.step (by apply rel_Dev_chanPut) ?_ ?_ | refine Rel.step (by apply rel_Dev_chanFetch) ?_ ?_ | refine Rel.ite ?_ ?_ | refine AdmRel.ite ?_ ?_ | split | intro _ | dsimp only

theorem rel_dmaSkip (e : AdmEntry) (d : Dev) : AdmRel 296064 d (dmaSkip e d) := by
  unfold dmaSkip
  with_reducible repeat' first | assumption | decide | rfl | refine AdmRel.checks ?_ | exact AdmRel.fail | refine AdmRel.done ?_ | refine AdmRel.wait ?_ | refine Rel.step (by apply rel_Dev_chanFetch) ?_ ?_ | refine Rel.step (by apply rel_Dev_chanStop) ?_ ?_ | refine Rel.step (by apply rel_Dev_chanRefuse) ?_ ?_ | refine Rel.step (by apply rel_Dev_chanDone) ?_ ?_ | refine Rel.ite ?_ ?_ | refine AdmRel.ite ?_ ?_ | split | intro _ | dsimp only

end Sys2Proof.Laws
end

