-- ==== Sys2Proof/Laws/Frames/Hif.lean ====
section
/-! SUPPORT. What each function of Machine/Hif.lean may change. -/

set_option linter.unusedTactic false
set_option linter.unreachableTactic false

namespace Sys2Proof.Laws

open Sys2Proof Sys2Proof.Machine

theorem rel_Dev_aerUnc (d : Dev) (f : Fn) (bit : Nat) (header : Bool) : Rel 256 d (Dev.aerUnc d f bit header) := by
  unfold Dev.aerUnc
  with_reducible repeat' first | assumption | decide | rfl | refine Rel.step (by apply rel_Dev_fnPut) ?_ ?_ | refine Rel.ite ?_ ?_ | split | intro _ | dsimp only

theorem rel_Dev_aerAdvisory (d : Dev) (f : Fn) (bit : Nat) : Rel 256 d (Dev.aerAdvisory d f bit) := by
  unfold Dev.aerAdvisory
  with_reducible repeat' first | assumption | decide | rfl | refine Rel.step (by apply rel_Dev_aerUnc) ?_ ?_ | refine Rel.step (by apply rel_Dev_fnPut) ?_ ?_ | split | intro _ | dsimp only

theorem rel_Dev_atcAdd (d : Dev) (e : AtcEntry) : Rel 1024 d (Dev.atcAdd d e) := by
  unfold Dev.atcAdd
  with_reducible repeat' first | assumption | decide | rfl | simp only [Nat.reduceAnd, Rel.u_hifReq] | split | intro _ | dsimp only

theorem rel_Dev_bmeClear (d : Dev) (f : Fn) : Rel 256 d (Dev.bmeClear d f) := by
  unfold Dev.bmeClear
  with_reducible repeat' first | assumption | decide | rfl | refine Rel.step (by apply rel_Dev_fnPut) ?_ ?_ | split | intro _ | dsimp only

theorem rel_Dev_imtFlush (d : Dev) (t : Nat) : Rel 4294971392 d (Dev.imtFlush d t) := by
  unfold Dev.imtFlush
  with_reducible repeat' first | assumption | decide | rfl | refine Rel.foldl (fun _ _ => ?_) ?_ | refine Rel.foldl1 (fun _ _ => ?_) ?_ | refine Rel.foldl2 (fun _ _ => ?_) ?_ | refine Rel.step (by apply rel_Dev_emit) ?_ ?_ | refine Rel.ite ?_ ?_ | simp only [Nat.reduceAnd, Rel.u_imt] | split | intro _ | dsimp only

theorem rel_Dev_dirtyFlush (d : Dev) (t : Nat) : Rel 4294969344 d (Dev.dirtyFlush d t) := by
  unfold Dev.dirtyFlush
  with_reducible repeat' first | assumption | decide | rfl | refine Rel.foldl (fun _ _ => ?_) ?_ | refine Rel.foldl1 (fun _ _ => ?_) ?_ | refine Rel.foldl2 (fun _ _ => ?_) ?_ | refine Rel.step (by apply rel_Dev_dirtyWrite) ?_ ?_ | refine Rel.step (by apply rel_Dev_tenPut) ?_ ?_ | split | intro _ | dsimp only

theorem rel_Dev_fnRelease (d : Dev) (p : Fn → Bool) (all : Bool) : Rel 4362164609 d (Dev.fnRelease d p all) := by
  unfold Dev.fnRelease
  with_reducible repeat' first | assumption | decide | rfl | refine Rel.foldl (fun _ _ => ?_) ?_ | refine Rel.foldl1 (fun _ _ => ?_) ?_ | refine Rel.foldl2 (fun _ _ => ?_) ?_ | refine Rel.step (by apply rel_Dev_admDrain) ?_ ?_ | refine Rel.step (by apply rel_Dev_imtFlush) ?_ ?_ | refine Rel.step (by apply rel_Dev_dirtyFlush) ?_ ?_ | refine Rel.step (by apply rel_Dev_irqFire) ?_ ?_ | refine Rel.step (by apply rel_Dev_stashDrain) ?_ ?_ | refine Rel.ite ?_ ?_ | split | intro _ | dsimp only

theorem rel_Dev_bmeSet (d : Dev) (f : Fn) : Rel 4362164609 d (Dev.bmeSet d f) := by
  unfold Dev.bmeSet
  with_reducible repeat' first | assumption | decide | rfl | refine Rel.step (by apply rel_Dev_msixFlush) ?_ ?_ | refine Rel.step (by apply rel_Dev_fnRelease) ?_ ?_ | refine Rel.step (by apply rel_Dev_fnPut) ?_ ?_ | refine Rel.ite ?_ ?_ | split | intro _ | dsimp only

theorem rel_Dev_casAtomic (d : Dev) (p : Nat) : Rel 4294967552 d (Dev.casAtomic d p) := by
  unfold Dev.casAtomic
  with_reducible repeat' first | assumption | decide | rfl | refine Rel.step (by apply rel_Dev_aerUnc) ?_ ?_ | refine Rel.step (by apply rel_Dev_emit) ?_ ?_ | split | intro _ | dsimp only

theorem rel_Dev_winMiss (d : Dev) (p : Nat) (rid : Nat) (o : Nat) (write : Bool) : Rel 1 d (Dev.winMiss d p rid o write) := by
  unfold Dev.winMiss
  with_reducible repeat' first | assumption | decide | rfl | refine Rel.step (by apply rel_Dev_setReg) ?_ ?_ | refine Rel.step (by apply rel_Dev_setBit) ?_ ?_ | refine Rel.ite ?_ ?_ | split | intro _ | dsimp only

theorem rel_Dev_casRead (d : Dev) (p : Nat) (rid : Nat) (o : Nat) (n : Nat) (ecc : Ecc) : Rel 21474836739 d (Dev.casRead d p rid o n ecc) := by
  unfold Dev.casRead
  with_reducible repeat' first | assumption | decide | rfl | refine Rel.step (by apply rel_Dev_aerUnc) ?_ ?_ | refine Rel.step (by apply rel_Dev_applyEcc) ?_ ?_ | refine Rel.step (by apply rel_Dev_count) ?_ ?_ | refine Rel.step (by apply rel_Dev_winMiss) ?_ ?_ | refine Rel.step (by apply rel_Dev_emit) ?_ ?_ | refine Rel.step (by apply rel_Dev_draw) ?_ ?_ | refine Rel.step (by apply rel_Dev_draw'; assumption) ?_ ?_ | refine Rel.ite ?_ ?_ | split | intro _ | dsimp only

theorem rel_Dev_casWrite (d : Dev) (p : Nat) (rid : Nat) (o : Nat) (data : List Byte) : Rel 259 d (Dev.casWrite d p rid o data) := by
  unfold Dev.casWrite
  with_reducible repeat' first | assumption | decide | rfl | refine Rel.step (by apply rel_Dev_aerAdvisory) ?_ ?_ | refine Rel.step (by apply rel_Dev_hbmWrite) ?_ ?_ | refine Rel.step (by apply rel_Dev_fwRefuse) ?_ ?_ | refine Rel.step (by apply rel_Dev_count) ?_ ?_ | refine Rel.step (by apply rel_Dev_winMiss) ?_ ?_ | refine Rel.ite ?_ ?_ | split | intro _ | dsimp only

theorem rel_Dev_configRequest (d : Dev) (f : Fn) (bus : Nat) (op : CfgOp) : Rel 21474836864 d (Dev.configRequest d f bus op) := by
  unfold Dev.configRequest
  with_reducible repeat' first | assumption | decide | rfl | refine Rel.step (by apply rel_Dev_msixFlush) ?_ ?_ | refine Rel.step (by apply rel_Dev_setHifPort) ?_ ?_ | refine Rel.step (by apply rel_Dev_fnPut) ?_ ?_ | refine Rel.step (by apply rel_Dev_emit) ?_ ?_ | refine Rel.step (by apply rel_Dev_draw) ?_ ?_ | refine Rel.step (by apply rel_Dev_draw'; assumption) ?_ ?_ | refine Rel.ite ?_ ?_ | split | intro _ | dsimp only

theorem rel_Dev_tagFree (d : Dev) (p : Nat) (v : Nat) : Rel 128 d (Dev.tagFree d p v) := by
  unfold Dev.tagFree
  with_reducible repeat' first | assumption | decide | rfl | refine Rel.step (by apply rel_Dev_setHifPort) ?_ ?_ | split | intro _ | dsimp only

theorem rel_Dev_engPut (d : Dev) (id : Nat) (x : EngRead) : Rel 1024 d (Dev.engPut d id x) := by
  unfold Dev.engPut
  with_reducible repeat' first | assumption | decide | rfl | simp only [Nat.reduceAnd, Rel.u_hifReq] | split | intro _ | dsimp only

theorem rel_Dev_logEnd (d : Dev) (t : Nat) (err : Option (Nat × Nat)) : Rel 4295167392 d (Dev.logEnd d t err) := by
  unfold Dev.logEnd
  with_reducible repeat' first | assumption | decide | rfl | refine Rel.step (by apply rel_Dev_admLate) ?_ ?_ | refine Rel.step (by apply rel_Dev_tenPut) ?_ ?_ | refine Rel.step (by apply rel_Dev_dropReads) ?_ ?_ | refine Rel.ite ?_ ?_ | split | intro _ | dsimp only

theorem rel_Dev_refFail (d : Dev) (r : JobRef) (st : Nat) (det : Nat) : Rel 4362591649 d (Dev.refFail d r st det) := by
  unfold Dev.refFail
  with_reducible repeat' first | assumption | decide | rfl | refine Rel.step (by apply rel_Dev_chanHalt) ?_ ?_ | refine Rel.step (by apply rel_Dev_jobEnd) ?_ ?_ | refine Rel.step (by apply rel_Dev_fetchFail) ?_ ?_ | refine Rel.step (by apply rel_Dev_dropReads) ?_ ?_ | refine Rel.step (by apply rel_Dev_barrierDone) ?_ ?_ | refine Rel.step (by apply rel_Dev_engPut) ?_ ?_ | refine Rel.step (by apply rel_Dev_logEnd) ?_ ?_ | split | intro _ | dsimp only

theorem rel_Dev_cplTimeout (d : Dev) (p : Nat) (v : Nat) : Rel 4362591649 d (Dev.cplTimeout d p v) := by
  unfold Dev.cplTimeout
  with_reducible repeat' first | assumption | decide | rfl | refine Rel.step (by apply rel_Dev_aerUnc) ?_ ?_ | refine Rel.step (by apply rel_Dev_setHifPort) ?_ ?_ | refine Rel.step (by apply rel_Dev_tagFree) ?_ ?_ | refine Rel.step (by apply rel_Dev_count) ?_ ?_ | refine Rel.step (by apply rel_Dev_refFail) ?_ ?_ | refine Rel.ite ?_ ?_ | split | intro _ | dsimp only

theorem rel_Dev_d0Return (d : Dev) (n : Nat) : Rel 6509648257 d (Dev.d0Return d n) := by
  unfold Dev.d0Return
  with_reducible repeat' first | assumption | decide | rfl | refine Rel.foldl (fun _ _ => ?_) ?_ | refine Rel.foldl1 (fun _ _ => ?_) ?_ | refine Rel.foldl2 (fun _ _ => ?_) ?_ | refine Rel.step (by apply rel_Dev_wakeFrom) ?_ ?_ | refine Rel.step (by apply rel_Dev_msixFlush) ?_ ?_ | refine Rel.step (by apply rel_Dev_fnRelease) ?_ ?_ | refine Rel.step (by apply rel_Dev_fnPut) ?_ ?_ | refine Rel.ite ?_ ?_ | split | intro _ | dsimp only

theorem rel_Dev_d3Entry (d : Dev) (n : Nat) : Rel 4294967552 d (Dev.d3Entry d n) := by
  unfold Dev.d3Entry
  with_reducible repeat' first | assumption | decide | rfl | refine Rel.step (by apply rel_Dev_fnPut) ?_ ?_ | refine Rel.step (by apply rel_Dev_pme) ?_ ?_ | refine Rel.ite ?_ ?_ | split | intro _ | dsimp only

theorem rel_Dev_engData (d : Dev) (id : Nat) (off : Nat) (b : List Byte) : Rel 1024 d (Dev.engData d id off b) := by
  unfold Dev.engData
  with_reducible repeat' first | assumption | decide | rfl | refine Rel.step (by apply rel_Dev_engPut) ?_ ?_ | split | intro _ | dsimp only

theorem rel_Dev_engRead (d : Dev) (t : Nat) (gen : Word) (addr : Nat) (len : Nat) : Rel 1152 d (Dev.engRead d t gen addr len).2 := by
  unfold Dev.engRead
  with_reducible repeat' first | assumption | decide | rfl | refine Rel.step (by apply rel_Dev_queueRead) ?_ ?_ | simp only [Nat.reduceAnd, Rel.u_hifReq] | split | intro _ | dsimp only
theorem rel_Dev_engRead' {d : Dev} {t : Nat} {gen : Word} {addr : Nat} {len : Nat} {p0 : Nat} {p1 : Dev} (h : Dev.engRead d t gen addr len = (p0, p1)) : Rel 1152 d p1 := by
  have k := rel_Dev_engRead d t gen addr len
  rw [h] at k
  exact k

theorem rel_Dev_fatalTlp (d : Dev) (p : Nat) (k : FatalErr) : Rel 384 d (Dev.fatalTlp d p k) := by
  unfold Dev.fatalTlp
  with_reducible repeat' first | assumption | decide | rfl | refine Rel.step (by apply rel_Dev_aerUnc) ?_ ?_ | refine Rel.step (by apply rel_Dev_setHifPort) ?_ ?_ | split | intro _ | dsimp only

theorem rel_Dev_invComplete (d : Dev) (p : Nat) : Rel 4294967424 d (Dev.invComplete d p) := by
  unfold Dev.invComplete
  with_reducible repeat' first | assumption | decide | rfl | refine Rel.step (by apply rel_Dev_setHifPort) ?_ ?_ | refine Rel.step (by apply rel_Dev_emit) ?_ ?_ | refine Rel.ite ?_ ?_ | split | intro _ | dsimp only

theorem rel_Dev_invRequest (d : Dev) (p : Nat) (itag : Nat) (f : Fn) (pasid : Option Nat) (page : Nat) (log2 : Nat) : Rel 1152 d (Dev.invRequest d p itag f pasid page log2) := by
  unfold Dev.invRequest
  with_reducible repeat' first | assumption | decide | rfl | refine Rel.step (by apply rel_Dev_setHifPort) ?_ ?_ | refine Rel.ite ?_ ?_ | simp only [Nat.reduceAnd, Rel.u_hifReq] | split | intro _ | dsimp only

theorem rel_Dev_l1Entry (d : Dev) (p : Nat) : Rel 128 d (Dev.l1Entry d p) := by
  unfold Dev.l1Entry
  with_reducible repeat' first | assumption | decide | rfl | refine Rel.step (by apply rel_Dev_setHifPort) ?_ ?_ | refine Rel.ite ?_ ?_ | split | intro _ | dsimp only

theorem rel_Dev_lateCpl (d : Dev) (p : Nat) (v : Nat) : Rel 385 d (Dev.lateCpl d p v) := by
  unfold Dev.lateCpl
  with_reducible repeat' first | assumption | decide | rfl | refine Rel.step (by apply rel_Dev_aerAdvisory) ?_ ?_ | refine Rel.step (by apply rel_Dev_tagFree) ?_ ?_ | refine Rel.step (by apply rel_Dev_count) ?_ ?_ | refine Rel.ite ?_ ?_ | split | intro _ | dsimp only

theorem rel_Dev_ltrSend (d : Dev) (p : Nat) : Rel 4294967425 d (Dev.ltrSend d p) := by
  unfold Dev.ltrSend
  with_reducible repeat' first | assumption | decide | rfl | refine Rel.step (by apply rel_Dev_setReg) ?_ ?_ | refine Rel.step (by apply rel_Dev_setHifPort) ?_ ?_ | refine Rel.step (by apply rel_Dev_emit) ?_ ?_ | refine Rel.ite ?_ ?_ | split | intro _ | dsimp only

theorem rel_Dev_msixUnmask (d : Dev) (f : Fn) (op : MsixOp) : Rel 4294967552 d (Dev.msixUnmask d f op) := by
  unfold Dev.msixUnmask
  with_reducible repeat' first | assumption | decide | rfl | refine Rel.step (by apply rel_Dev_msixFlush) ?_ ?_ | refine Rel.step (by apply rel_Dev_fnPut) ?_ ?_ | split | intro _ | dsimp only

theorem rel_Dev_pageAsk (d : Dev) (x : XlatReq) : Rel 4294968320 d (Dev.pageAsk d x) := by
  unfold Dev.pageAsk
  with_reducible repeat' first | assumption | decide | rfl | refine Rel.step (by apply rel_Dev_emit) ?_ ?_ | simp only [Nat.reduceAnd, Rel.u_hifReq] | split | intro _ | dsimp only

theorem rel_Dev_pageDrop (d : Dev) (g : Nat) : Rel 1024 d (Dev.pageDrop d g) := by
  unfold Dev.pageDrop
  with_reducible repeat' first | assumption | decide | rfl | simp only [Nat.reduceAnd, Rel.u_hifReq] | split | intro _ | dsimp only

theorem rel_Dev_pageResponse (d : Dev) (g : Nat) (code : Nat) : Rel 4362591649 d (Dev.pageResponse d g code) := by
  unfold Dev.pageResponse
  with_reducible repeat' first | assumption | decide | rfl | refine Rel.step (by apply rel_Dev_pageDrop) ?_ ?_ | refine Rel.step (by apply rel_Dev_fnPut) ?_ ?_ | refine Rel.step (by apply rel_Dev_refFail) ?_ ?_ | refine Rel.ite ?_ ?_ | split | intro _ | dsimp only

theorem rel_Dev_pcieLinkUp (d : Dev) (p : Nat) (speed : Nat) (width : Nat) (flit : Bool) : Rel 2147483777 d (Dev.pcieLinkUp d p speed width flit) := by
  unfold Dev.pcieLinkUp
  with_reducible repeat' first | assumption | decide | rfl | refine Rel.step (by apply rel_Dev_wakeFrom) ?_ ?_ | refine Rel.step (by apply rel_Dev_setHifPort) ?_ ?_ | refine Rel.ite ?_ ?_ | split | intro _ | dsimp only

theorem rel_Dev_poisonedTlp (d : Dev) (f : Fn) : Rel 256 d (Dev.poisonedTlp d f) := by
  unfold Dev.poisonedTlp
  with_reducible repeat' first | assumption | decide | rfl | refine Rel.step (by apply rel_Dev_aerUnc) ?_ ?_ | split | intro _ | dsimp only

theorem rel_Dev_priTimeout (d : Dev) (g : Nat) : Rel 4362591649 d (Dev.priTimeout d g) := by
  unfold Dev.priTimeout
  with_reducible repeat' first | assumption | decide | rfl | refine Rel.step (by apply rel_Dev_pageDrop) ?_ ?_ | refine Rel.step (by apply rel_Dev_refFail) ?_ ?_ | refine Rel.ite ?_ ?_ | split | intro _ | dsimp only

theorem rel_Dev_quarRelease (d : Dev) (p : Nat) (v : Nat) : Rel 128 d (Dev.quarRelease d p v) := by
  unfold Dev.quarRelease
  with_reducible repeat' first | assumption | decide | rfl | refine Rel.step (by apply rel_Dev_tagFree) ?_ ?_ | refine Rel.ite ?_ ?_ | split | intro _ | dsimp only

theorem rel_Dev_readCompletion (d : Dev) (p : Nat) (v : Nat) (e : ReadEnd) : Rel 4631027109 d (Dev.readCompletion d p v e) := by
  unfold Dev.readCompletion
  with_reducible repeat' first | assumption | decide | rfl | refine Rel.elim ?_ (fun _ => ?_) | refine Rel.step (by apply rel_Dev_aerUnc) ?_ ?_ | refine Rel.step (by apply rel_Dev_discard) ?_ ?_ | refine Rel.step (by apply rel_Dev_engData) ?_ ?_ | refine Rel.step (by apply rel_Dev_tollAdd) ?_ ?_ | refine Rel.step (by apply rel_Dev_jobData) ?_ ?_ | refine Rel.step (by apply rel_Dev_barrierDone) ?_ ?_ | refine Rel.step (by apply rel_Dev_tagFree) ?_ ?_ | refine Rel.step (by apply rel_Dev_logEnd) ?_ ?_ | refine Rel.step (by apply rel_Dev_refFail) ?_ ?_ | refine Rel.ite ?_ ?_ | split | intro _ | dsimp only

theorem rel_Dev_xlatAsk (d : Dev) (x : XlatReq) : Rel 4294968320 d (Dev.xlatAsk d x) := by
  unfold Dev.xlatAsk
  with_reducible repeat' first | assumption | decide | rfl | refine Rel.step (by apply rel_Dev_emit) ?_ ?_ | simp only [Nat.reduceAnd, Rel.u_hifReq] | split | intro _ | dsimp only

theorem rel_Dev_readIssue (d : Dev) (p : Nat) (t : Nat) : Rel 4294968448 d (Dev.readIssue d p t) := by
  unfold Dev.readIssue
  with_reducible repeat' first | assumption | decide | rfl | refine Rel.step (by apply rel_Dev_setHifPort) ?_ ?_ | refine Rel.step (by apply rel_Dev_xlatAsk) ?_ ?_ | refine Rel.step (by apply rel_Dev_wakeLink) ?_ ?_ | refine Rel.step (by apply rel_Dev_emit) ?_ ?_ | refine Rel.ite ?_ ?_ | split | intro _ | dsimp only

theorem rel_Dev_winApply (d : Dev) (p : Nat) : Rel 129 d (Dev.winApply d p) := by
  unfold Dev.winApply
  with_reducible repeat' first | assumption | decide | rfl | refine Rel.step (by apply rel_Dev_setHifPort) ?_ ?_ | refine Rel.step (by apply rel_Dev_clrBit) ?_ ?_ | split | intro _ | dsimp only

theorem rel_Dev_winCommit (d : Dev) (pf : Nat) (p : Nat) (v : Word) : Rel 129 d (Dev.winCommit d pf p v) := by
  unfold Dev.winCommit
  with_reducible repeat' first | assumption | decide | rfl | refine Rel.step (by apply rel_Dev_setBit) ?_ ?_ | refine Rel.step (by apply rel_Dev_setHifPort) ?_ ?_ | (apply Rel.trans; swap; apply rel_Dev_bar0Write) | refine Rel.ite ?_ ?_ | split | intro _ | dsimp only

theorem rel_Dev_winRetired (d : Dev) (p : Nat) : Rel 1 d (Dev.winRetired d p) := by
  unfold Dev.winRetired
  with_reducible repeat' first | assumption | decide | rfl | refine Rel.step (by apply rel_Dev_setBit) ?_ ?_ | refine Rel.ite ?_ ?_ | split | intro _ | dsimp only

theorem rel_Dev_xlatDone (d : Dev) (p : Nat) (id : Nat) (log2 : Nat) (addr : Nat) (rOk : Bool) (wOk : Bool) (e : ReadEnd) : Rel 4362591649 d (Dev.xlatDone d p id log2 addr rOk wOk e) := by
  unfold Dev.xlatDone
  with_reducible repeat' first | assumption | decide | rfl | refine Rel.step (by apply rel_Dev_atcAdd) ?_ ?_ | refine Rel.step (by apply rel_Dev_pageAsk) ?_ ?_ | refine Rel.step (by apply rel_Dev_xlatAsk) ?_ ?_ | refine Rel.step (by apply rel_Dev_refFail) ?_ ?_ | refine Rel.ite ?_ ?_ | simp only [Nat.reduceAnd, Rel.u_hifReq] | split | intro _ | dsimp only

theorem rel_execBusMasterClear (fn : Fn) (s : State) {u : State} (h : execBusMasterClear fn s = .next u) : Rel 256 s.dev u.dev := by
  refine run_rel (fun _ => ?_) h
  with_reducible repeat' first | assumption | decide | rfl | refine Rel.step (by apply rel_Dev_bmeClear) ?_ ?_ | intro _ | dsimp only

theorem rel_execBusMasterSet (fn : Fn) (s : State) {u : State} (h : execBusMasterSet fn s = .next u) : Rel 4362164609 s.dev u.dev := by
  refine run_rel (fun _ => ?_) h
  with_reducible repeat' first | assumption | decide | rfl | refine Rel.step (by apply rel_Dev_bmeSet) ?_ ?_ | intro _ | dsimp only

theorem rel_execCasementAtomic (p : Nat) (s : State) {u : State} (h : execCasementAtomic p s = .next u) : Rel 4294967552 s.dev u.dev := by
  refine run_rel (fun _ => ?_) h
  with_reducible repeat' first | assumption | decide | rfl | refine Rel.step (by apply rel_Dev_casAtomic) ?_ ?_ | intro _ | dsimp only

theorem rel_execCasementRead (p : Nat) (rid : Nat) (off : Nat) (n : Nat) (ecc : Ecc) (s : State) {u : State} (h : execCasementRead p rid off n ecc s = .next u) : Rel 21474836739 s.dev u.dev := by
  refine run_rel (fun _ => ?_) h
  with_reducible repeat' first | assumption | decide | rfl | refine Rel.step (by apply rel_Dev_casRead) ?_ ?_ | intro _ | dsimp only

theorem rel_execCasementWrite (p : Nat) (rid : Nat) (off : Nat) (data : List Byte) (s : State) {u : State} (h : execCasementWrite p rid off data s = .next u) : Rel 259 s.dev u.dev := by
  refine run_rel (fun _ => ?_) h
  with_reducible repeat' first | assumption | decide | rfl | refine Rel.step (by apply rel_Dev_casWrite) ?_ ?_ | intro _ | dsimp only

theorem rel_execCompletionTimeout (p : Nat) (tag : Nat) (s : State) {u : State} (h : execCompletionTimeout p tag s = .next u) : Rel 4362591649 s.dev u.dev := by
  refine run_rel (fun _ => ?_) h
  with_reducible repeat' first | assumption | decide | rfl | refine Rel.step (by apply rel_Dev_cplTimeout) ?_ ?_ | intro _ | dsimp only

theorem rel_execConfigRequest (fn : Fn) (bus : Nat) (op : CfgOp) (s : State) {u : State} (h : execConfigRequest fn bus op s = .next u) : Rel 21474836864 s.dev u.dev := by
  refine run_rel (fun _ => ?_) h
  with_reducible repeat' first | assumption | decide | rfl | refine Rel.step (by apply rel_Dev_configRequest) ?_ ?_ | intro _ | dsimp only

theorem rel_execD0Return (pf : Nat) (s : State) {u : State} (h : execD0Return pf s = .next u) : Rel 6509648257 s.dev u.dev := by
  refine run_rel (fun _ => ?_) h
  with_reducible repeat' first | assumption | decide | rfl | refine Rel.step (by apply rel_Dev_d0Return) ?_ ?_ | intro _ | dsimp only

theorem rel_execD3hotEntry (pf : Nat) (s : State) {u : State} (h : execD3hotEntry pf s = .next u) : Rel 4294967552 s.dev u.dev := by
  refine run_rel (fun _ => ?_) h
  with_reducible repeat' first | assumption | decide | rfl | refine Rel.step (by apply rel_Dev_d3Entry) ?_ ?_ | intro _ | dsimp only

theorem rel_execFatalTlpError (p : Nat) (kind : FatalErr) (s : State) {u : State} (h : execFatalTlpError p kind s = .next u) : Rel 384 s.dev u.dev := by
  refine run_rel (fun _ => ?_) h
  with_reducible repeat' first | assumption | decide | rfl | refine Rel.step (by apply rel_Dev_fatalTlp) ?_ ?_ | intro _ | dsimp only

theorem rel_execHifWinCommit (pf : Nat) (p : Nat) (value : Word) (s : State) {u : State} (h : execHifWinCommit pf p value s = .next u) : Rel 129 s.dev u.dev := by
  refine run_rel (fun _ => ?_) h
  with_reducible repeat' first | assumption | decide | rfl | refine Rel.step (by apply rel_Dev_winCommit) ?_ ?_ | intro _ | dsimp only

theorem rel_execInvalidationCompletion (p : Nat) (s : State) {u : State} (h : execInvalidationCompletion p s = .next u) : Rel 4294967424 s.dev u.dev := by
  refine run_rel (fun _ => ?_) h
  with_reducible repeat' first | assumption | decide | rfl | refine Rel.step (by apply rel_Dev_invComplete) ?_ ?_ | intro _ | dsimp only

theorem rel_execInvalidationRequest (p : Nat) (itag : Nat) (fn : Fn) (pasid : Option Nat) (page : Nat) (log2 : Nat) (s : State) {u : State} (h : execInvalidationRequest p itag fn pasid page log2 s = .next u) : Rel 1152 s.dev u.dev := by
  refine run_rel (fun _ => ?_) h
  with_reducible repeat' first | assumption | decide | rfl | refine Rel.step (by apply rel_Dev_invRequest) ?_ ?_ | intro _ | dsimp only

theorem rel_execL1EntryRequest (p : Nat) (s : State) {u : State} (h : execL1EntryRequest p s = .next u) : Rel 128 s.dev u.dev := by
  refine run_rel (fun _ => ?_) h
  with_reducible repeat' first | assumption | decide | rfl | refine Rel.step (by apply rel_Dev_l1Entry) ?_ ?_ | intro _ | dsimp only

theorem rel_execLateCompletion (p : Nat) (tag : Nat) (s : State) {u : State} (h : execLateCompletion p tag s = .next u) : Rel 385 s.dev u.dev := by
  refine run_rel (fun _ => ?_) h
  with_reducible repeat' first | assumption | decide | rfl | refine Rel.step (by apply rel_Dev_lateCpl) ?_ ?_ | intro _ | dsimp only

theorem rel_execLtrSend (p : Nat) (s : State) {u : State} (h : execLtrSend p s = .next u) : Rel 4294967425 s.dev u.dev := by
  refine run_rel (fun _ => ?_) h
  with_reducible repeat' first | assumption | decide | rfl | refine Rel.step (by apply rel_Dev_ltrSend) ?_ ?_ | intro _ | dsimp only

theorem rel_execMsixUnmask (fn : Fn) (op : MsixOp) (s : State) {u : State} (h : execMsixUnmask fn op s = .next u) : Rel 4294967552 s.dev u.dev := by
  refine run_rel (fun _ => ?_) h
  with_reducible repeat' first | assumption | decide | rfl | refine Rel.step (by apply rel_Dev_msixUnmask) ?_ ?_ | intro _ | dsimp only

theorem rel_execPageRequestResponse (group : Nat) (code : Nat) (s : State) {u : State} (h : execPageRequestResponse group code s = .next u) : Rel 4362591649 s.dev u.dev := by
  refine run_rel (fun _ => ?_) h
  with_reducible repeat' first | assumption | decide | rfl | refine Rel.step (by apply rel_Dev_pageResponse) ?_ ?_ | intro _ | dsimp only

theorem rel_execPcieLinkUp (p : Nat) (speed : Nat) (width : Nat) (flit : Bool) (s : State) {u : State} (h : execPcieLinkUp p speed width flit s = .next u) : Rel 2147483777 s.dev u.dev := by
  refine run_rel (fun _ => ?_) h
  with_reducible repeat' first | assumption | decide | rfl | refine Rel.step (by apply rel_Dev_pcieLinkUp) ?_ ?_ | intro _ | dsimp only

theorem rel_execPoisonedTlp (fn : Fn) (bar : Nat) (s : State) {u : State} (h : execPoisonedTlp fn bar s = .next u) : Rel 256 s.dev u.dev := by
  refine run_rel (fun _ => ?_) h
  with_reducible repeat' first | assumption | decide | rfl | refine Rel.step (by apply rel_Dev_poisonedTlp) ?_ ?_ | refine Rel.ite ?_ ?_ | intro _ | dsimp only

theorem rel_execPriTimeout (group : Nat) (s : State) {u : State} (h : execPriTimeout group s = .next u) : Rel 4362591649 s.dev u.dev := by
  refine run_rel (fun _ => ?_) h
  with_reducible repeat' first | assumption | decide | rfl | refine Rel.step (by apply rel_Dev_priTimeout) ?_ ?_ | intro _ | dsimp only

theorem rel_execQuarantineRelease (p : Nat) (tag : Nat) (s : State) {u : State} (h : execQuarantineRelease p tag s = .next u) : Rel 128 s.dev u.dev := by
  refine run_rel (fun _ => ?_) h
  with_reducible repeat' first | assumption | decide | rfl | refine Rel.step (by apply rel_Dev_quarRelease) ?_ ?_ | intro _ | dsimp only

theorem rel_execReadCompletion (p : Nat) (tag : Nat) (ending : ReadEnd) (s : State) {u : State} (h : execReadCompletion p tag ending s = .next u) : Rel 4631027109 s.dev u.dev := by
  refine run_rel (fun _ => ?_) h
  with_reducible repeat' first | assumption | decide | rfl | refine Rel.step (by apply rel_Dev_readCompletion) ?_ ?_ | intro _ | dsimp only

theorem rel_execReadIssue (p : Nat) (ten : Nat) (s : State) {u : State} (h : execReadIssue p ten s = .next u) : Rel 4294968448 s.dev u.dev := by
  refine run_rel (fun _ => ?_) h
  with_reducible repeat' first | assumption | decide | rfl | refine Rel.step (by apply rel_Dev_readIssue) ?_ ?_ | intro _ | dsimp only

theorem rel_execTranslationCompletion (p : Nat) (tag : Nat) (log2 : Nat) (addr : Nat) (read : Bool) (write : Bool) (ending : ReadEnd) (s : State) {u : State} (h : execTranslationCompletion p tag log2 addr read write ending s = .next u) : Rel 4362591649 s.dev u.dev := by
  refine run_rel (fun _ => ?_) h
  with_reducible repeat' first | assumption | decide | rfl | refine Rel.step (by apply rel_Dev_xlatDone) ?_ ?_ | intro _ | dsimp only

theorem rel_execWinRetired (p : Nat) (s : State) {u : State} (h : execWinRetired p s = .next u) : Rel 1 s.dev u.dev := by
  refine run_rel (fun _ => ?_) h
  with_reducible repeat' first | assumption | decide | rfl | refine Rel.step (by apply rel_Dev_winRetired) ?_ ?_ | intro _ | dsimp only

theorem rel_execWinSetApply (p : Nat) (s : State) {u : State} (h : execWinSetApply p s = .next u) : Rel 129 s.dev u.dev := by
  refine run_rel (fun _ => ?_) h
  with_reducible repeat' first | assumption | decide | rfl | refine Rel.step (by apply rel_Dev_winApply) ?_ ?_ | intro _ | dsimp only

end Sys2Proof.Laws
end

