-- ==== Sys2Proof/Laws/Frames/Tenancy.lean ====
section
/-! SUPPORT. What each function of Machine/Tenancy.lean may change. -/

set_option linter.unusedTactic false
set_option linter.unreachableTactic false

namespace Sys2Proof.Laws

open Sys2Proof Sys2Proof.Machine

theorem rel_Dev_imtPut (d : Dev) (i : Nat) (x : Imt) : Rel 4096 d (Dev.imtPut d i x) := by
  unfold Dev.imtPut
  with_reducible repeat' first | assumption | decide | rfl | simp only [Nat.reduceAnd, Rel.u_imt] | split | intro _ | dsimp only

theorem rel_imtRead (e : AdmEntry) (d : Dev) : AdmRel 0 d (imtRead e d) := by
  unfold imtRead
  with_reducible repeat' first | assumption | decide | rfl | refine AdmRel.checks ?_ | exact AdmRel.fail | refine AdmRel.done ?_ | refine AdmRel.wait ?_ | refine AdmRel.ite ?_ ?_ | split | intro _ | dsimp only

theorem rel_execImtRead (e : AdmEntry) (s : State) {u : State} (h : execImtRead e s = .next u) : Rel 4295164320 s.dev u.dev := by
  refine run_rel (fun _ => ?_) h
  with_reducible repeat' first | assumption | decide | rfl | refine AdmRel.step (by apply rel_imtRead) ?_ ?_ | (apply Rel.trans; swap; apply rel_Dev_admRun) | intro _ | dsimp only

theorem rel_imtWrite (e : AdmEntry) (d : Dev) : AdmRel 4294971392 d (imtWrite e d) := by
  unfold imtWrite
  with_reducible repeat' first | assumption | decide | rfl | refine AdmRel.checks ?_ | exact AdmRel.fail | refine AdmRel.done ?_ | refine AdmRel.wait ?_ | refine Rel.step (by apply rel_Dev_imtPut) ?_ ?_ | refine Rel.step (by apply rel_Dev_emit) ?_ ?_ | refine Rel.ite ?_ ?_ | refine AdmRel.ite ?_ ?_ | split | intro _ | dsimp only

theorem rel_execImtWrite (e : AdmEntry) (s : State) {u : State} (h : execImtWrite e s = .next u) : Rel 4295168416 s.dev u.dev := by
  refine run_rel (fun _ => ?_) h
  with_reducible repeat' first | assumption | decide | rfl | (apply Rel.trans; swap; apply rel_Dev_admRun) | refine AdmRel.step (by apply rel_imtWrite) ?_ ?_ | intro _ | dsimp only

theorem rel_logFlush (stop : Bool) (e : AdmEntry) (d : Dev) : AdmRel 2176 d (logFlush stop e d) := by
  unfold logFlush
  with_reducible repeat' first | assumption | decide | rfl | refine AdmRel.elim ?_ (fun _ => ?_) | refine AdmRel.checks ?_ | exact AdmRel.fail | refine AdmRel.done ?_ | refine AdmRel.wait ?_ | refine Rel.elim ?_ (fun _ => ?_) | refine Rel.step (by apply rel_Dev_queueReadAs) ?_ ?_ | refine Rel.step (by apply rel_Dev_tenPut) ?_ ?_ | refine Rel.ite ?_ ?_ | refine AdmRel.ite ?_ ?_ | split | intro _ | dsimp only

theorem rel_execLogFlush (e : AdmEntry) (s : State) {u : State} (h : execLogFlush e s = .next u) : Rel 4295166368 s.dev u.dev := by
  refine run_rel (fun _ => ?_) h
  with_reducible repeat' first | assumption | decide | rfl | (apply Rel.trans; swap; apply rel_Dev_admRun) | refine AdmRel.step (by apply rel_logFlush) ?_ ?_ | intro _ | dsimp only

theorem rel_execLogFlushReadDone (ten : Nat) (s : State) {u : State} (h : execLogFlushReadDone ten s = .next u) : Rel 4295167392 s.dev u.dev := by
  refine run_rel (fun _ => ?_) h
  with_reducible repeat' first | assumption | decide | rfl | refine Rel.step (by apply rel_Dev_logEnd) ?_ ?_ | intro _ | dsimp only

theorem rel_logStart (e : AdmEntry) (d : Dev) : AdmRel 2048 d (logStart e d) := by
  unfold logStart
  with_reducible repeat' first | assumption | decide | rfl | refine AdmRel.checks ?_ | exact AdmRel.fail | refine AdmRel.done ?_ | refine AdmRel.wait ?_ | refine Rel.step (by apply rel_Dev_tenPut) ?_ ?_ | refine AdmRel.ite ?_ ?_ | split | intro _ | dsimp only

theorem rel_execLogStart (e : AdmEntry) (s : State) {u : State} (h : execLogStart e s = .next u) : Rel 4295166368 s.dev u.dev := by
  refine run_rel (fun _ => ?_) h
  with_reducible repeat' first | assumption | decide | rfl | (apply Rel.trans; swap; apply rel_Dev_admRun) | refine AdmRel.step (by apply rel_logStart) ?_ ?_ | intro _ | dsimp only

theorem rel_execLogStop (e : AdmEntry) (s : State) {u : State} (h : execLogStop e s = .next u) : Rel 4295166368 s.dev u.dev := by
  refine run_rel (fun _ => ?_) h
  with_reducible repeat' first | assumption | decide | rfl | (apply Rel.trans; swap; apply rel_Dev_admRun) | refine AdmRel.step (by apply rel_logFlush) ?_ ?_ | intro _ | dsimp only

theorem rel_execShareApply (p : Nat) (s : State) {u : State} (h : execShareApply p s = .next u) : Rel 4295174560 s.dev u.dev := by
  refine run_rel (fun _ => ?_) h
  with_reducible repeat' first | assumption | decide | rfl | refine Rel.step (by apply rel_Dev_shareApply) ?_ ?_ | intro _ | dsimp only

theorem rel_tenBind (e : AdmEntry) (d : Dev) : AdmRel 2048 d (tenBind e d) := by
  unfold tenBind
  with_reducible repeat' first | assumption | decide | rfl | refine AdmRel.elim ?_ (fun _ => ?_) | refine AdmRel.checks ?_ | exact AdmRel.fail | refine AdmRel.done ?_ | refine AdmRel.wait ?_ | refine Rel.elim ?_ (fun _ => ?_) | refine Rel.step (by apply rel_Dev_tenPut) ?_ ?_ | refine Rel.ite ?_ ?_ | refine AdmRel.ite ?_ ?_ | split | intro _ | dsimp only

theorem rel_execTenBind (e : AdmEntry) (s : State) {u : State} (h : execTenBind e s = .next u) : Rel 4295166368 s.dev u.dev := by
  refine run_rel (fun _ => ?_) h
  with_reducible repeat' first | assumption | decide | rfl | refine AdmRel.step (by apply rel_tenBind) ?_ ?_ | (apply Rel.trans; swap; apply rel_Dev_admRun) | intro _ | dsimp only

theorem rel_tenCreate (e : AdmEntry) (d : Dev) : AdmRel 2049 d (tenCreate e d) := by
  unfold tenCreate
  with_reducible repeat' first | assumption | decide | rfl | refine AdmRel.checks ?_ | exact AdmRel.fail | refine AdmRel.done ?_ | refine AdmRel.wait ?_ | refine Rel.step (by apply rel_Dev_setReg) ?_ ?_ | refine Rel.step (by apply rel_Dev_tenPut) ?_ ?_ | refine AdmRel.ite ?_ ?_ | split | intro _ | dsimp only

theorem rel_execTenCreate (e : AdmEntry) (s : State) {u : State} (h : execTenCreate e s = .next u) : Rel 4295166369 s.dev u.dev := by
  refine run_rel (fun _ => ?_) h
  with_reducible repeat' first | assumption | decide | rfl | (apply Rel.trans; swap; apply rel_Dev_admRun) | refine AdmRel.step (by apply rel_tenCreate) ?_ ?_ | intro _ | dsimp only

theorem rel_tenOpen (e : AdmEntry) (d : Dev) : AdmRel 4362164609 d (tenOpen e d) := by
  unfold tenOpen
  with_reducible repeat' first | assumption | decide | rfl | refine AdmRel.checks ?_ | exact AdmRel.fail | refine AdmRel.done ?_ | refine AdmRel.wait ?_ | refine Rel.step (by apply rel_Dev_tenEvent) ?_ ?_ | refine Rel.step (by apply rel_Dev_imtFlush) ?_ ?_ | refine Rel.step (by apply rel_Dev_tenPut) ?_ ?_ | refine Rel.ite ?_ ?_ | refine AdmRel.ite ?_ ?_ | split | intro _ | dsimp only

theorem rel_execTenOpen (e : AdmEntry) (s : State) {u : State} (h : execTenOpen e s = .next u) : Rel 4362295713 s.dev u.dev := by
  refine run_rel (fun _ => ?_) h
  with_reducible repeat' first | assumption | decide | rfl | refine AdmRel.step (by apply rel_tenOpen) ?_ ?_ | (apply Rel.trans; swap; apply rel_Dev_admRun) | intro _ | dsimp only

theorem rel_tenSetShare (e : AdmEntry) (d : Dev) : AdmRel 2048 d (tenSetShare e d) := by
  unfold tenSetShare
  with_reducible repeat' first | assumption | decide | rfl | refine AdmRel.checks ?_ | exact AdmRel.fail | refine AdmRel.done ?_ | refine AdmRel.wait ?_ | refine Rel.step (by apply rel_Dev_tenPut) ?_ ?_ | refine Rel.ite ?_ ?_ | refine AdmRel.ite ?_ ?_ | split | intro _ | dsimp only

theorem rel_execTenSetShare (e : AdmEntry) (s : State) {u : State} (h : execTenSetShare e s = .next u) : Rel 4295166368 s.dev u.dev := by
  refine run_rel (fun _ => ?_) h
  with_reducible repeat' first | assumption | decide | rfl | (apply Rel.trans; swap; apply rel_Dev_admRun) | refine AdmRel.step (by apply rel_tenSetShare) ?_ ?_ | intro _ | dsimp only

end Sys2Proof.Laws
end

