-- ==== Sys2Proof/Laws/Frames/Tue.lean ====
section
/-! SUPPORT. What each function of Machine/Tue.lean may change. -/

set_option linter.unusedTactic false
set_option linter.unreachableTactic false

namespace Sys2Proof.Laws

open Sys2Proof Sys2Proof.Machine

theorem rel_Dev_fwdExc (d : Dev) (r : ExcRec) : Rel 9 d (Dev.fwdExc d r).2 := by
  unfold Dev.fwdExc
  with_reducible repeat' first | assumption | decide | rfl | refine Rel.step (by apply rel_Dev_count) ?_ ?_ | refine Rel.ite ?_ ?_ | simp only [Nat.reduceAnd, Rel.u_exc] | split | intro _ | dsimp only
theorem rel_Dev_fwdExc' {d : Dev} {r : ExcRec} {p0 : Nat} {p1 : Dev} (h : Dev.fwdExc d r = (p0, p1)) : Rel 9 d p1 := by
  have k := rel_Dev_fwdExc d r
  rw [h] at k
  exact k

theorem rel_Dev_lineWrite (d : Dev) (table : Nat) (a : Nat) (b : List Byte) : Rel 2 d (Dev.lineWrite d table a b) := by
  unfold Dev.lineWrite
  with_reducible repeat' first | assumption | decide | rfl | refine Rel.step (by apply rel_Dev_hbmWrite) ?_ ?_ | refine Rel.ite ?_ ?_ | split | intro _ | dsimp only

theorem rel_Dev_setDesc (d : Dev) (table : Nat) (x : TblDesc) : Rel 2097152 d (Dev.setDesc d table x) := by
  unfold Dev.setDesc
  with_reducible repeat' first | assumption | decide | rfl | simp only [Nat.reduceAnd, Rel.u_fwd] | split | intro _ | dsimp only

theorem rel_Dev_tblJournalAdd (d : Dev) (r : TueRec) (o : Nat) : Rel 64 d (Dev.tblJournalAdd d r o) := by
  unfold Dev.tblJournalAdd
  with_reducible repeat' first | assumption | decide | rfl | simp only [Nat.reduceAnd, Rel.u_tue] | split | intro _ | dsimp only

theorem rel_Dev_tcamPut (d : Dev) (i : Nat) (x : TcamEntry) : Rel 1048576 d (Dev.tcamPut d i x) := by
  unfold Dev.tcamPut
  with_reducible repeat' first | assumption | decide | rfl | simp only [Nat.reduceAnd, Rel.u_cls] | split | intro _ | dsimp only

theorem rel_Dev_tueApply (d : Dev) (r : TueRec) : Rel 3145730 d (Dev.tueApply d r).2 := by
  unfold Dev.tueApply
  with_reducible repeat' first | assumption | decide | rfl | refine Rel.foldl (fun _ _ => ?_) ?_ | refine Rel.foldl1 (fun _ _ => ?_) ?_ | refine Rel.foldl2 (fun _ _ => ?_) ?_ | refine Rel.step (by apply rel_Dev_lineWrite) ?_ ?_ | refine Rel.step (by apply rel_Dev_setDesc) ?_ ?_ | refine Rel.step (by apply rel_Dev_tcamPut) ?_ ?_ | refine Rel.ite ?_ ?_ | simp only [Nat.reduceAnd, Rel.u_cls] | split | intro _ | dsimp only
theorem rel_Dev_tueApply' {d : Dev} {r : TueRec} {p0 : Nat} {p1 : Dev} (h : Dev.tueApply d r = (p0, p1)) : Rel 3145730 d p1 := by
  have k := rel_Dev_tueApply d r
  rw [h] at k
  exact k

theorem rel_Dev_tueAhead (d : Dev) : Rel 3145730 d (Dev.tueAhead d) := by
  unfold Dev.tueAhead
  with_reducible repeat' first | assumption | decide | rfl | refine Rel.foldl (fun _ _ => ?_) ?_ | refine Rel.foldl1 (fun _ _ => ?_) ?_ | refine Rel.foldl2 (fun _ _ => ?_) ?_ | refine Rel.step (by apply rel_Dev_tueApply) ?_ ?_ | refine Rel.step (by apply rel_Dev_tueApply'; assumption) ?_ ?_ | split | intro _ | dsimp only

theorem rel_Dev_tueCount (d : Dev) (o : Nat) : Rel 1 d (Dev.tueCount d o) := by
  unfold Dev.tueCount
  with_reducible repeat' first | assumption | decide | rfl | refine Rel.step (by apply rel_Dev_count) ?_ ?_ | refine Rel.ite ?_ ?_ | split | intro _ | dsimp only

theorem rel_Dev_tueInternal (d : Dev) (r : TueRec) : Rel 3145731 d (Dev.tueInternal d r).2 := by
  unfold Dev.tueInternal
  with_reducible repeat' first | assumption | decide | rfl | refine Rel.step (by apply rel_Dev_tueApply) ?_ ?_ | refine Rel.step (by apply rel_Dev_tueApply'; assumption) ?_ ?_ | refine Rel.step (by apply rel_Dev_tueCount) ?_ ?_ | split | intro _ | dsimp only
theorem rel_Dev_tueInternal' {d : Dev} {r : TueRec} {p0 : Nat} {p1 : Dev} (h : Dev.tueInternal d r = (p0, p1)) : Rel 3145731 d p1 := by
  have k := rel_Dev_tueInternal d r
  rw [h] at k
  exact k

theorem rel_Dev_tuePost (d : Dev) (rs : List TueRec) : Rel 64 d (Dev.tuePost d rs) := by
  unfold Dev.tuePost
  with_reducible repeat' first | assumption | decide | rfl | refine Rel.foldl (fun _ _ => ?_) ?_ | refine Rel.foldl1 (fun _ _ => ?_) ?_ | refine Rel.foldl2 (fun _ _ => ?_) ?_ | simp only [Nat.reduceAnd, Rel.u_tue] | split | intro _ | dsimp only

theorem rel_Dev_tuePosted (d : Dev) (r : TueRec) : Rel 3145795 d (Dev.tuePosted d r).2 := by
  unfold Dev.tuePosted
  with_reducible repeat' first | assumption | decide | rfl | refine Rel.step (by apply rel_Dev_tueInternal) ?_ ?_ | refine Rel.step (by apply rel_Dev_tueInternal'; assumption) ?_ ?_ | refine Rel.step (by apply rel_Dev_tblJournalAdd) ?_ ?_ | split | intro _ | dsimp only
theorem rel_Dev_tuePosted' {d : Dev} {r : TueRec} {p0 : Nat} {p1 : Dev} (h : Dev.tuePosted d r = (p0, p1)) : Rel 3145795 d p1 := by
  have k := rel_Dev_tuePosted d r
  rw [h] at k
  exact k

theorem rel_Dev_tueReturn (d : Dev) (r : TueRec) (o : Nat) : Rel 4295164320 d (Dev.tueReturn d r o) := by
  unfold Dev.tueReturn
  with_reducible repeat' first | assumption | decide | rfl | refine Rel.step (by apply rel_Dev_admLate) ?_ ?_ | refine Rel.ite ?_ ?_ | split | intro _ | dsimp only

theorem rel_Dev_tueTake (d : Dev) (op : Nat) : Rel 3145795 d (Dev.tueTake d op).2 := by
  unfold Dev.tueTake
  with_reducible repeat' first | assumption | decide | rfl | refine Rel.step (by apply rel_Dev_tuePosted) ?_ ?_ | refine Rel.step (by apply rel_Dev_tuePosted'; assumption) ?_ ?_ | refine Rel.ite ?_ ?_ | simp only [Nat.reduceAnd, Rel.u_tue] | split | intro _ | dsimp only
theorem rel_Dev_tueTake' {d : Dev} {op : Nat} {p0 : Option (TueRec × Nat)} {p1 : Dev} (h : Dev.tueTake d op = (p0, p1)) : Rel 3145795 d p1 := by
  have k := rel_Dev_tueTake d op
  rw [h] at k
  exact k

theorem rel_Dev_tueStep (d : Dev) (op : Nat) : Rel 4298310115 d (Dev.tueStep d op) := by
  unfold Dev.tueStep
  with_reducible repeat' first | assumption | decide | rfl | refine Rel.step (by apply rel_Dev_tueTake) ?_ ?_ | refine Rel.step (by apply rel_Dev_tueTake'; assumption) ?_ ?_ | refine Rel.step (by apply rel_Dev_tueReturn) ?_ ?_ | split | intro _ | dsimp only

theorem rel_execFence (s : State) {u : State} (h : execFence s = .next u) : Rel 4298310115 s.dev u.dev := by
  refine run_rel (fun _ => ?_) h
  with_reducible repeat' first | assumption | decide | rfl | refine Rel.step (by apply rel_Dev_tueStep) ?_ ?_ | intro _ | dsimp only

theorem rel_execIndWrite (s : State) {u : State} (h : execIndWrite s = .next u) : Rel 4298310115 s.dev u.dev := by
  refine run_rel (fun _ => ?_) h
  with_reducible repeat' first | assumption | decide | rfl | refine Rel.step (by apply rel_Dev_tueStep) ?_ ?_ | intro _ | dsimp only

theorem rel_execLineWrite (s : State) {u : State} (h : execLineWrite s = .next u) : Rel 4298310115 s.dev u.dev := by
  refine run_rel (fun _ => ?_) h
  with_reducible repeat' first | assumption | decide | rfl | refine Rel.step (by apply rel_Dev_tueStep) ?_ ?_ | intro _ | dsimp only

theorem rel_execTblDesc (s : State) {u : State} (h : execTblDesc s = .next u) : Rel 4298310115 s.dev u.dev := by
  refine run_rel (fun _ => ?_) h
  with_reducible repeat' first | assumption | decide | rfl | refine Rel.step (by apply rel_Dev_tueStep) ?_ ?_ | intro _ | dsimp only

theorem rel_execTcamInv (s : State) {u : State} (h : execTcamInv s = .next u) : Rel 4298310115 s.dev u.dev := by
  refine run_rel (fun _ => ?_) h
  with_reducible repeat' first | assumption | decide | rfl | refine Rel.step (by apply rel_Dev_tueStep) ?_ ?_ | intro _ | dsimp only

theorem rel_execTcamVal (s : State) {u : State} (h : execTcamVal s = .next u) : Rel 4298310115 s.dev u.dev := by
  refine run_rel (fun _ => ?_) h
  with_reducible repeat' first | assumption | decide | rfl | refine Rel.step (by apply rel_Dev_tueStep) ?_ ?_ | intro _ | dsimp only

theorem rel_execTcamWrite (s : State) {u : State} (h : execTcamWrite s = .next u) : Rel 4298310115 s.dev u.dev := by
  refine run_rel (fun _ => ?_) h
  with_reducible repeat' first | assumption | decide | rfl | refine Rel.step (by apply rel_Dev_tueStep) ?_ ?_ | intro _ | dsimp only

end Sys2Proof.Laws
end

