-- ==== Sys2Proof/Laws/Frames/Parser.lean ====
section
/-! SUPPORT. What each function of Machine/Parser.lean may change. -/

set_option linter.unusedTactic false
set_option linter.unreachableTactic false

namespace Sys2Proof.Laws

open Sys2Proof Sys2Proof.Machine

theorem rel_Dev_setRset (d : Dev) (r : Nat) (x : Rset) : Rel 1048576 d (Dev.setRset d r x) := by
  unfold Dev.setRset
  with_reducible repeat' first | assumption | decide | rfl | simp only [Nat.reduceAnd, Rel.u_cls] | split | intro _ | dsimp only

theorem rel_Dev_rsetCount (d : Dev) (r : Nat) (hit : Bool) (tie : Bool) : Rel 1048576 d (Dev.rsetCount d r hit tie) := by
  unfold Dev.rsetCount
  with_reducible repeat' first | assumption | decide | rfl | refine Rel.step (by apply rel_Dev_setRset) ?_ ?_ | split | intro _ | dsimp only

theorem rel_Dev_lookups (d : Dev) (img f : List Byte) (prog : Nat) (host : Bool) (ue : List Nat) (n : Nat) (c : Cls) :
    Rel 1048587 d (Dev.lookups d img f prog host ue n c).2.2 := by
  induction n generalizing d c with
  | zero => unfold Dev.lookups; exact Rel.refl _ _
  | succ n ih =>
    unfold Dev.lookups
    dsimp only
    split
    · exact ih d c
    · split
      · split
        · exact Rel.step (rel_Dev_rsetCount ..) (by decide) (Rel.step (rel_Dev_fwdExc ..) (by decide) (Rel.mono (rel_Dev_applyEcc ..) (by decide)))
        · exact Rel.trans (Rel.step (rel_Dev_rsetCount ..) (by decide) (Rel.step (rel_Dev_fwdExc ..) (by decide)
            (Rel.mono (rel_Dev_applyEcc ..) (by decide)))) (ih _ _)
      · split
        · exact Rel.mono (rel_Dev_rsetCount ..) (by decide)
        · exact Rel.trans (Rel.mono (rel_Dev_rsetCount ..) (by decide)) (ih _ _)
theorem rel_Dev_lookups' {d : Dev} {img f : List Byte} {prog : Nat} {host : Bool} {ue : List Nat} {n : Nat} {c : Cls} {p0 : Nat}
    {p1 : Cls} {p2 : Dev} (h : Dev.lookups d img f prog host ue n c = (p0, p1, p2)) : Rel 1048587 d p2 := by
  have k := rel_Dev_lookups d img f prog host ue n c
  rw [h] at k
  exact k

end Sys2Proof.Laws
end

