-- ==== Sys2Proof/Laws/Frames/Deliver.lean ====
section
/-! SUPPORT. What each function of Machine/Deliver.lean may change. -/

set_option linter.unusedTactic false
set_option linter.unreachableTactic false

namespace Sys2Proof.Laws

open Sys2Proof Sys2Proof.Machine

theorem rel_Dev_dropPkt (d : Dev) (tok : Nat) : Rel 4295524356 d (Dev.dropPkt d tok) := by
  unfold Dev.dropPkt
  with_reducible repeat' first | assumption | decide | rfl | refine Rel.step (by apply rel_Dev_frameGone) ?_ ?_ | refine Rel.step (by apply rel_Dev_freePkt) ?_ ?_ | split | intro _ | dsimp only

theorem rel_Dev_toExcRing (d : Dev) (tok : Nat) (reason : Nat) : Rel 4295524365 d (Dev.toExcRing d tok reason) := by
  unfold Dev.toExcRing
  with_reducible repeat' first | assumption | decide | rfl | refine Rel.step (by apply rel_Dev_dropPkt) ?_ ?_ | refine Rel.step (by apply rel_Dev_setPkt) ?_ ?_ | refine Rel.step (by apply rel_Dev_count) ?_ ?_ | refine Rel.ite ?_ ?_ | simp only [Nat.reduceAnd, Rel.u_exc] | split | intro _ | dsimp only

theorem rel_Dev_coreFate (d : Dev) (tok : Nat) (h : Option Nat) : Rel 4295524365 d (Dev.coreFate d tok h) := by
  unfold Dev.coreFate
  with_reducible repeat' first | assumption | decide | rfl | refine Rel.step (by apply rel_Dev_dropPkt) ?_ ?_ | refine Rel.step (by apply rel_Dev_toExcRing) ?_ ?_ | refine Rel.step (by apply rel_Dev_count) ?_ ?_ | refine Rel.ite ?_ ?_ | split | intro _ | dsimp only

theorem rel_Dev_excTaken (d : Dev) (tok : Nat) : Rel 8 d (Dev.excTaken d tok) := by
  unfold Dev.excTaken
  with_reducible repeat' first | assumption | decide | rfl | simp only [Nat.reduceAnd, Rel.u_exc] | split | intro _ | dsimp only

theorem rel_Dev_dispatch (d : Dev) (tok : Nat) : Rel 4299718671 d (Dev.dispatch d tok) := by
  unfold Dev.dispatch
  with_reducible repeat' first | assumption | decide | rfl | refine Rel.step (by apply rel_Dev_coreFate) ?_ ?_ | refine Rel.step (by apply rel_Dev_dropPkt) ?_ ?_ | refine Rel.step (by apply rel_Dev_toExcRing) ?_ ?_ | refine Rel.step (by apply rel_Dev_excTaken) ?_ ?_ | refine Rel.step (by apply rel_Dev_wakeCore) ?_ ?_ | refine Rel.step (by apply rel_Dev_setCore) ?_ ?_ | refine Rel.step (by apply rel_Dev_setPkt) ?_ ?_ | refine Rel.step (by apply rel_Dev_count) ?_ ?_ | refine Rel.ite ?_ ?_ | split | intro _ | dsimp only

theorem rel_Dev_slowPath (d : Dev) (tok : Nat) (reason : Nat) : Rel 4295524365 d (Dev.slowPath d tok reason) := by
  unfold Dev.slowPath
  with_reducible repeat' first | assumption | decide | rfl | refine Rel.step (by apply rel_Dev_dropPkt) ?_ ?_ | refine Rel.step (by apply rel_Dev_toExcRing) ?_ ?_ | refine Rel.step (by apply rel_Dev_setPkt) ?_ ?_ | refine Rel.step (by apply rel_Dev_count) ?_ ?_ | refine Rel.ite ?_ ?_ | simp only [Nat.reduceAnd, Rel.u_exc] | split | intro _ | dsimp only

theorem rel_Dev_toReentry (d : Dev) (tok : Nat) : OptRel 1048580 d (Dev.toReentry d tok) := by
  unfold Dev.toReentry
  with_reducible repeat' first | assumption | decide | rfl | refine Rel.getD ?_ ?_ | exact OptRel.none | refine OptRel.some ?_ | refine OptRel.ite ?_ ?_ | refine OptRel.mapD (fun _ => ?_) ?_ | refine OptRel.map (fun _ => ?_) | refine OptRel.bindD (fun _ => ?_) ?_ | refine OptRel.bind (fun _ => ?_) | refine Rel.step (by apply rel_Dev_setPkt) ?_ ?_ | refine Rel.ite ?_ ?_ | simp only [Nat.reduceAnd, Rel.u_cls] | split | intro _ | dsimp only

end Sys2Proof.Laws
end

