-- ==== Sys2Proof/Laws/Frames/Keys.lean ====
section
/-! SUPPORT. What each function of Machine/Keys.lean may change. -/

set_option linter.unusedTactic false
set_option linter.unreachableTactic false

namespace Sys2Proof.Laws

open Sys2Proof Sys2Proof.Machine

theorem rel_Dev_cryEvent (d : Dev) (v : Ev) : Rel 4295033217 d (Dev.cryEvent d v) := by
  unfold Dev.cryEvent
  with_reducible repeat' first | assumption | decide | rfl | refine Rel.step (by apply rel_Dev_pfEvent) ?_ ?_ | split | intro _ | dsimp only

theorem rel_Dev_ctxOp {m : Nat} {d : Dev} {e : AdmEntry} {fits : Nat → Bool} {more : CryCtx → List (Bool × Nat × Nat)}
    {f : CryCtx → AdmRes} (hf : ∀ x, AdmRel m d (f x)) : AdmRel m d (d.ctxOp e fits more f) := by
  unfold Dev.ctxOp
  split
  · exact AdmRel.checks (Rel.refl _ _)
  · exact AdmRel.checks (hf _)

theorem rel_Dev_setCry (d : Dev) (x : CryPart) : Rel 33554432 d (Dev.setCry d x) := by
  unfold Dev.setCry
  with_reducible repeat' first | assumption | decide | rfl | simp only [Nat.reduceAnd, Rel.u_cry] | split | intro _ | dsimp only

theorem rel_Dev_drbg (d : Dev) (n : Nat) (reseed : Bool) : Rel 17213423616 d (Dev.drbg d n reseed).2 := by
  unfold Dev.drbg
  with_reducible repeat' first | assumption | decide | rfl | refine Rel.step (by apply rel_Dev_setCry) ?_ ?_ | refine Rel.step (by apply rel_Dev_draw) ?_ ?_ | refine Rel.step (by apply rel_Dev_draw'; assumption) ?_ ?_ | refine Rel.ite ?_ ?_ | split | intro _ | dsimp only
theorem rel_Dev_drbg' {d : Dev} {n : Nat} {reseed : Bool} {p0 : List Byte} {p1 : Dev} (h : Dev.drbg d n reseed = (p0, p1)) : Rel 17213423616 d p1 := by
  have k := rel_Dev_drbg d n reseed
  rw [h] at k
  exact k

theorem rel_Dev_zeroSlot (d : Dev) (n : Nat) : Rel 33554434 d (Dev.zeroSlot d n) := by
  unfold Dev.zeroSlot
  with_reducible repeat' first | assumption | decide | rfl | refine Rel.step (by apply rel_Dev_hbmWrite) ?_ ?_ | refine Rel.step (by apply rel_Dev_setCry) ?_ ?_ | split | intro _ | dsimp only

theorem rel_Dev_unwrapFail (d : Dev) (n : Nat) : Rel 4395719043 d (Dev.unwrapFail d n) := by
  unfold Dev.unwrapFail
  with_reducible repeat' first | assumption | decide | rfl | refine Rel.step (by apply rel_Dev_tenEvent) ?_ ?_ | refine Rel.step (by apply rel_Dev_cryEvent) ?_ ?_ | refine Rel.step (by apply rel_Dev_zeroSlot) ?_ ?_ | refine Rel.step (by apply rel_Dev_count) ?_ ?_ | refine Rel.ite ?_ ?_ | split | intro _ | dsimp only

theorem rel_Dev_keyRun {m : Nat} {d : Dev} {e : AdmEntry} {opc : Nat} {uses : List Nat} {f : Dev → AdmRes}
    (hm : 4395850147 &&& m = 4395850147) (hf : AdmRel m d (f d)) : Rel m d (d.keyRun e opc uses f) := by
  unfold Dev.keyRun
  have ha : 4295164320 &&& m = 4295164320 := by
    have h := congrArg (fun x => 4295164320 &&& x) hm
    rw [← Nat.and_assoc] at h
    exact h
  split
  · exact Rel.refl ..
  split
  · exact (Rel.mono (rel_Dev_admComplete ..) (by decide)).mono hm
  · split
    · exact Rel.step2 hm (rel_Dev_admComplete ..) (by decide) ((Rel.mono (rel_Dev_unwrapFail ..) (by decide)).mono hm)
    · exact rel_Dev_admRun ha hf

theorem rel_Dev_loseSession (d : Dev) (w : ArcWork) : Rel 4496382337 d (Dev.loseSession d w) := by
  unfold Dev.loseSession
  with_reducible repeat' first | assumption | decide | rfl | refine Rel.step (by apply rel_Dev_tenEvent) ?_ ?_ | refine Rel.ite ?_ ?_ | simp only [Nat.reduceAnd, Rel.u_arc] | split | intro _ | dsimp only

theorem rel_Dev_setCryCtx (d : Dev) (c : Nat) (x : CryCtx) : Rel 33554432 d (Dev.setCryCtx d c x) := by
  unfold Dev.setCryCtx
  with_reducible repeat' first | assumption | decide | rfl | refine Rel.step (by apply rel_Dev_setCry) ?_ ?_ | split | intro _ | dsimp only

theorem rel_Dev_loseContexts (d : Dev) (n : Nat) : Rel 4529936769 d (Dev.loseContexts d n) := by
  unfold Dev.loseContexts
  with_reducible repeat' first | assumption | decide | rfl | refine Rel.foldl (fun _ _ => ?_) ?_ | refine Rel.foldl1 (fun _ _ => ?_) ?_ | refine Rel.foldl2 (fun _ _ => ?_) ?_ | refine Rel.step (by apply rel_Dev_tenEvent) ?_ ?_ | refine Rel.step (by apply rel_Dev_loseSession) ?_ ?_ | refine Rel.step (by apply rel_Dev_setCryCtx) ?_ ?_ | split | intro _ | dsimp only

theorem rel_Dev_putSlot (d : Dev) (t : Option Nat) (n : Nat) (type : Nat) (usage : Nat) (origin : Nat) (m : List Byte) : Rel 33554432 d (Dev.putSlot d t n type usage origin m) := by
  unfold Dev.putSlot
  with_reducible repeat' first | assumption | decide | rfl | refine Rel.step (by apply rel_Dev_setCry) ?_ ?_ | split | intro _ | dsimp only

theorem rel_Dev_rngFail (d : Dev) (rct : Bool) (apt : Bool) : Rel 4328587649 d (Dev.rngFail d rct apt) := by
  unfold Dev.rngFail
  with_reducible repeat' first | assumption | decide | rfl | refine Rel.step (by apply rel_Dev_setBit) ?_ ?_ | refine Rel.step (by apply rel_Dev_cryEvent) ?_ ?_ | refine Rel.step (by apply rel_Dev_setCry) ?_ ?_ | refine Rel.step (by apply rel_Dev_count) ?_ ?_ | refine Rel.ite ?_ ?_ | split | intro _ | dsimp only

theorem rel_Dev_rngStart (d : Dev) (pass : Bool) : Rel 33554432 d (Dev.rngStart d pass) := by
  unfold Dev.rngStart
  with_reducible repeat' first | assumption | decide | rfl | refine Rel.step (by apply rel_Dev_setCry) ?_ ?_ | refine Rel.ite ?_ ?_ | split | intro _ | dsimp only

theorem rel_Dev_setSecY (d : Dev) (p : Nat) (x : SecY) : Rel 33554432 d (Dev.setSecY d p x) := by
  unfold Dev.setSecY
  with_reducible repeat' first | assumption | decide | rfl | refine Rel.step (by apply rel_Dev_setCry) ?_ ?_ | split | intro _ | dsimp only

theorem rel_cryCtxDestroy (e : AdmEntry) (d : Dev) : AdmRel 33554432 d (cryCtxDestroy e d) := by
  unfold cryCtxDestroy
  with_reducible repeat' first | assumption | decide | rfl | refine AdmRel.checks ?_ | exact AdmRel.fail | refine AdmRel.done ?_ | refine AdmRel.wait ?_ | apply rel_Dev_ctxOp | refine Rel.step (by apply rel_Dev_setCry) ?_ ?_ | refine AdmRel.ite ?_ ?_ | split | intro _ | dsimp only

theorem rel_cryCtxNext (e : AdmEntry) (d : Dev) : AdmRel 33554432 d (cryCtxNext e d) := by
  unfold cryCtxNext
  with_reducible repeat' first | assumption | decide | rfl | refine AdmRel.checks ?_ | exact AdmRel.fail | refine AdmRel.done ?_ | refine AdmRel.wait ?_ | apply rel_Dev_ctxOp | refine Rel.step (by apply rel_Dev_setCryCtx) ?_ ?_ | refine AdmRel.ite ?_ ?_ | split | intro _ | dsimp only

theorem rel_cryCtxRead (e : AdmEntry) (d : Dev) : AdmRel 0 d (cryCtxRead e d) := by
  unfold cryCtxRead
  with_reducible repeat' first | assumption | decide | rfl | refine AdmRel.checks ?_ | exact AdmRel.fail | refine AdmRel.done ?_ | refine AdmRel.wait ?_ | apply rel_Dev_ctxOp | refine AdmRel.ite ?_ ?_ | split | intro _ | dsimp only

theorem rel_cryCtxRekey (e : AdmEntry) (d : Dev) : AdmRel 33554432 d (cryCtxRekey e d) := by
  unfold cryCtxRekey
  with_reducible repeat' first | assumption | decide | rfl | refine AdmRel.checks ?_ | exact AdmRel.fail | refine AdmRel.done ?_ | refine AdmRel.wait ?_ | apply rel_Dev_ctxOp | refine Rel.step (by apply rel_Dev_setCryCtx) ?_ ?_ | refine Rel.ite ?_ ?_ | refine AdmRel.ite ?_ ?_ | split | intro _ | dsimp only

theorem rel_cryCtxResync (e : AdmEntry) (d : Dev) : AdmRel 33554432 d (cryCtxResync e d) := by
  unfold cryCtxResync
  with_reducible repeat' first | assumption | decide | rfl | refine AdmRel.checks ?_ | exact AdmRel.fail | refine AdmRel.done ?_ | refine AdmRel.wait ?_ | apply rel_Dev_ctxOp | refine Rel.step (by apply rel_Dev_setCryCtx) ?_ ?_ | refine Rel.ite ?_ ?_ | refine AdmRel.ite ?_ ?_ | split | intro _ | dsimp only

theorem rel_cryCtxRotate (e : AdmEntry) (d : Dev) : AdmRel 33554432 d (cryCtxRotate e d) := by
  unfold cryCtxRotate
  with_reducible repeat' first | assumption | decide | rfl | refine AdmRel.checks ?_ | exact AdmRel.fail | refine AdmRel.done ?_ | refine AdmRel.wait ?_ | apply rel_Dev_ctxOp | refine Rel.step (by apply rel_Dev_setCryCtx) ?_ ?_ | refine AdmRel.ite ?_ ?_ | split | intro _ | dsimp only

theorem rel_cryCtxSet (e : AdmEntry) (d : Dev) : AdmRel 33554432 d (cryCtxSet e d) := by
  unfold cryCtxSet
  with_reducible repeat' first | assumption | decide | rfl | refine AdmRel.elim ?_ (fun _ => ?_) | refine AdmRel.checks ?_ | exact AdmRel.fail | refine AdmRel.done ?_ | refine AdmRel.wait ?_ | refine Rel.elim ?_ (fun _ => ?_) | refine Rel.step (by apply rel_Dev_setCryCtx) ?_ ?_ | refine Rel.ite ?_ ?_ | refine AdmRel.ite ?_ ?_ | split | intro _ | dsimp only

theorem rel_cryKeyDerive (e : AdmEntry) (d : Dev) : AdmRel 33554432 d (cryKeyDerive e d) := by
  unfold cryKeyDerive
  with_reducible repeat' first | assumption | decide | rfl | refine AdmRel.checks ?_ | exact AdmRel.fail | refine AdmRel.done ?_ | refine AdmRel.wait ?_ | refine Rel.step (by apply rel_Dev_putSlot) ?_ ?_ | refine AdmRel.ite ?_ ?_ | split | intro _ | dsimp only

theorem rel_cryKeyExport (e : AdmEntry) (d : Dev) : AdmRel 0 d (cryKeyExport e d) := by
  unfold cryKeyExport
  with_reducible repeat' first | assumption | decide | rfl | refine AdmRel.checks ?_ | exact AdmRel.fail | refine AdmRel.done ?_ | refine AdmRel.wait ?_ | refine AdmRel.ite ?_ ?_ | split | intro _ | dsimp only

theorem rel_cryKeyGen (e : AdmEntry) (d : Dev) : AdmRel 17213423616 d (cryKeyGen e d) := by
  unfold cryKeyGen
  with_reducible repeat' first | assumption | decide | rfl | refine AdmRel.checks ?_ | exact AdmRel.fail | refine AdmRel.done ?_ | refine AdmRel.wait ?_ | refine Rel.step (by apply rel_Dev_putSlot) ?_ ?_ | refine Rel.step (by apply rel_Dev_drbg) ?_ ?_ | refine Rel.step (by apply rel_Dev_drbg'; assumption) ?_ ?_ | refine AdmRel.ite ?_ ?_ | split | intro _ | dsimp only

theorem rel_cryKeyPut (e : AdmEntry) (d : Dev) : AdmRel 33554432 d (cryKeyPut e d) := by
  unfold cryKeyPut
  with_reducible repeat' first | assumption | decide | rfl | refine AdmRel.checks ?_ | exact AdmRel.fail | refine AdmRel.done ?_ | refine AdmRel.wait ?_ | refine Rel.step (by apply rel_Dev_putSlot) ?_ ?_ | refine Rel.ite ?_ ?_ | refine AdmRel.ite ?_ ?_ | split | intro _ | dsimp only

theorem rel_cryKeyZero (e : AdmEntry) (d : Dev) : AdmRel 4529936771 d (cryKeyZero e d) := by
  unfold cryKeyZero
  with_reducible repeat' first | assumption | decide | rfl | refine AdmRel.checks ?_ | exact AdmRel.fail | refine AdmRel.done ?_ | refine AdmRel.wait ?_ | refine Rel.step (by apply rel_Dev_loseContexts) ?_ ?_ | refine Rel.step (by apply rel_Dev_zeroSlot) ?_ ?_ | refine Rel.ite ?_ ?_ | refine AdmRel.ite ?_ ?_ | split | intro _ | dsimp only

theorem rel_cryMacsecCfg (e : AdmEntry) (d : Dev) : AdmRel 33554432 d (cryMacsecCfg e d) := by
  unfold cryMacsecCfg
  with_reducible repeat' first | assumption | decide | rfl | refine AdmRel.checks ?_ | exact AdmRel.fail | refine AdmRel.done ?_ | refine AdmRel.wait ?_ | refine Rel.step (by apply rel_Dev_setSecY) ?_ ?_ | refine AdmRel.ite ?_ ?_ | split | intro _ | dsimp only

theorem rel_cryMacsecSa (e : AdmEntry) (d : Dev) : AdmRel 33554432 d (cryMacsecSa e d) := by
  unfold cryMacsecSa
  with_reducible repeat' first | assumption | decide | rfl | refine AdmRel.checks ?_ | exact AdmRel.fail | refine AdmRel.done ?_ | refine AdmRel.wait ?_ | refine Rel.step (by apply rel_Dev_setSecY) ?_ ?_ | refine Rel.ite ?_ ?_ | refine AdmRel.ite ?_ ?_ | split | intro _ | dsimp only

theorem rel_execCryCtxDestroy (e : AdmEntry) (s : State) {u : State} (h : execCryCtxDestroy e s = .next u) : Rel 4328718752 s.dev u.dev := by
  refine run_rel (fun _ => ?_) h
  with_reducible repeat' first | assumption | decide | rfl | refine AdmRel.step (by apply rel_cryCtxDestroy) ?_ ?_ | (apply Rel.trans; swap; apply rel_Dev_admRun) | intro _ | dsimp only

theorem rel_execCryCtxNext (e : AdmEntry) (s : State) {u : State} (h : execCryCtxNext e s = .next u) : Rel 4395850147 s.dev u.dev := by
  refine run_rel (fun _ => ?_) h
  with_reducible repeat' first | assumption | decide | rfl | (apply Rel.trans; swap; apply rel_Dev_keyRun) | refine AdmRel.step (by apply rel_cryCtxNext) ?_ ?_ | intro _ | dsimp only

theorem rel_execCryCtxRead (e : AdmEntry) (s : State) {u : State} (h : execCryCtxRead e s = .next u) : Rel 4295164320 s.dev u.dev := by
  refine run_rel (fun _ => ?_) h
  with_reducible repeat' first | assumption | decide | rfl | (apply Rel.trans; swap; apply rel_Dev_admRun) | refine AdmRel.step (by apply rel_cryCtxRead) ?_ ?_ | intro _ | dsimp only

theorem rel_execCryCtxRekey (e : AdmEntry) (s : State) {u : State} (h : execCryCtxRekey e s = .next u) : Rel 4395850147 s.dev u.dev := by
  refine run_rel (fun _ => ?_) h
  with_reducible repeat' first | assumption | decide | rfl | (apply Rel.trans; swap; apply rel_Dev_keyRun) | refine AdmRel.step (by apply rel_cryCtxRekey) ?_ ?_ | intro _ | dsimp only

theorem rel_execCryCtxResync (e : AdmEntry) (s : State) {u : State} (h : execCryCtxResync e s = .next u) : Rel 4328718752 s.dev u.dev := by
  refine run_rel (fun _ => ?_) h
  with_reducible repeat' first | assumption | decide | rfl | (apply Rel.trans; swap; apply rel_Dev_admRun) | refine AdmRel.step (by apply rel_cryCtxResync) ?_ ?_ | intro _ | dsimp only

theorem rel_execCryCtxRotate (e : AdmEntry) (s : State) {u : State} (h : execCryCtxRotate e s = .next u) : Rel 4328718752 s.dev u.dev := by
  refine run_rel (fun _ => ?_) h
  with_reducible repeat' first | assumption | decide | rfl | refine AdmRel.step (by apply rel_cryCtxRotate) ?_ ?_ | (apply Rel.trans; swap; apply rel_Dev_admRun) | intro _ | dsimp only

theorem rel_execCryCtxSet (e : AdmEntry) (s : State) {u : State} (h : execCryCtxSet e s = .next u) : Rel 4395850147 s.dev u.dev := by
  refine run_rel (fun _ => ?_) h
  with_reducible repeat' first | assumption | decide | rfl | (apply Rel.trans; swap; apply rel_Dev_keyRun) | refine AdmRel.step (by apply rel_cryCtxSet) ?_ ?_ | refine Rel.ite ?_ ?_ | intro _ | dsimp only

theorem rel_execCryKeyDerive (e : AdmEntry) (s : State) {u : State} (h : execCryKeyDerive e s = .next u) : Rel 4395850147 s.dev u.dev := by
  refine run_rel (fun _ => ?_) h
  with_reducible repeat' first | assumption | decide | rfl | (apply Rel.trans; swap; apply rel_Dev_keyRun) | refine AdmRel.step (by apply rel_cryKeyDerive) ?_ ?_ | intro _ | dsimp only

theorem rel_execCryKeyExport (e : AdmEntry) (s : State) {u : State} (h : execCryKeyExport e s = .next u) : Rel 4395850147 s.dev u.dev := by
  refine run_rel (fun _ => ?_) h
  with_reducible repeat' first | assumption | decide | rfl | (apply Rel.trans; swap; apply rel_Dev_keyRun) | refine AdmRel.step (by apply rel_cryKeyExport) ?_ ?_ | intro _ | dsimp only

theorem rel_execCryKeyGen (e : AdmEntry) (s : State) {u : State} (h : execCryKeyGen e s = .next u) : Rel 21508587936 s.dev u.dev := by
  refine run_rel (fun _ => ?_) h
  with_reducible repeat' first | assumption | decide | rfl | (apply Rel.trans; swap; apply rel_Dev_admRun) | refine AdmRel.step (by apply rel_cryKeyGen) ?_ ?_ | intro _ | dsimp only

theorem rel_execCryKeyPut (e : AdmEntry) (s : State) {u : State} (h : execCryKeyPut e s = .next u) : Rel 4395850147 s.dev u.dev := by
  refine run_rel (fun _ => ?_) h
  with_reducible repeat' first | assumption | decide | rfl | (apply Rel.trans; swap; apply rel_Dev_keyRun) | refine AdmRel.step (by apply rel_cryKeyPut) ?_ ?_ | refine Rel.ite ?_ ?_ | intro _ | dsimp only

theorem rel_execCryKeyZero (e : AdmEntry) (s : State) {u : State} (h : execCryKeyZero e s = .next u) : Rel 4530067875 s.dev u.dev := by
  refine run_rel (fun _ => ?_) h
  with_reducible repeat' first | assumption | decide | rfl | (apply Rel.trans; swap; apply rel_Dev_admRun) | refine AdmRel.step (by apply rel_cryKeyZero) ?_ ?_ | intro _ | dsimp only

theorem rel_execCryMacsecCfg (e : AdmEntry) (s : State) {u : State} (h : execCryMacsecCfg e s = .next u) : Rel 4328718752 s.dev u.dev := by
  refine run_rel (fun _ => ?_) h
  with_reducible repeat' first | assumption | decide | rfl | refine AdmRel.step (by apply rel_cryMacsecCfg) ?_ ?_ | (apply Rel.trans; swap; apply rel_Dev_admRun) | intro _ | dsimp only

theorem rel_execCryMacsecSa (e : AdmEntry) (s : State) {u : State} (h : execCryMacsecSa e s = .next u) : Rel 4395850147 s.dev u.dev := by
  refine run_rel (fun _ => ?_) h
  with_reducible repeat' first | assumption | decide | rfl | refine AdmRel.step (by apply rel_cryMacsecSa) ?_ ?_ | (apply Rel.trans; swap; apply rel_Dev_keyRun) | intro _ | dsimp only

theorem rel_execCryRngRestart (pf : Nat) (value : Word) (pass : Bool) (s : State) {u : State} (h : execCryRngRestart pf value pass s = .next u) : Rel 33554433 s.dev u.dev := by
  refine run_rel (fun _ => ?_) h
  with_reducible repeat' first | assumption | decide | rfl | (apply Rel.trans; swap; apply rel_Dev_bar0Write) | refine Rel.step (by apply rel_Dev_rngStart) ?_ ?_ | refine Rel.ite ?_ ?_ | intro _ | dsimp only

theorem rel_execDrbgReseed (s : State) {u : State} (h : execDrbgReseed s = .next u) : Rel 33554432 s.dev u.dev := by
  refine run_rel (fun _ => ?_) h
  with_reducible repeat' first | assumption | decide | rfl | refine Rel.step (by apply rel_Dev_setCry) ?_ ?_ | refine Rel.ite ?_ ?_ | intro _ | dsimp only

theorem rel_execRngHealthFail (rct : Bool) (apt : Bool) (s : State) {u : State} (h : execRngHealthFail rct apt s = .next u) : Rel 4328587649 s.dev u.dev := by
  refine run_rel (fun _ => ?_) h
  with_reducible repeat' first | assumption | decide | rfl | refine Rel.step (by apply rel_Dev_rngFail) ?_ ?_ | intro _ | dsimp only

end Sys2Proof.Laws
end

