-- ==== Sys2Proof/Laws/Frames/Aead.lean ====
section
/-! SUPPORT. What each function of Machine/Aead.lean may change. -/

set_option linter.unusedTactic false
set_option linter.unreachableTactic false

namespace Sys2Proof.Laws

open Sys2Proof Sys2Proof.Machine

theorem rel_Dev_cryUsed (d : Dev) (c : Nat) (x : CryCtx) (units : Nat) (bytes : Nat) : Rel 4395719041 d (Dev.cryUsed d c x units bytes) := by
  unfold Dev.cryUsed
  with_reducible repeat' first | assumption | decide | rfl | refine Rel.step (by apply rel_Dev_tenEvent) ?_ ?_ | refine Rel.step (by apply rel_Dev_setCryCtx) ?_ ?_ | refine Rel.ite ?_ ?_ | split | intro _ | dsimp only

theorem rel_Dev_tagFail (d : Dev) (c : Nat) (x : CryCtx) : Rel 33554432 d (Dev.tagFail d c x) := by
  unfold Dev.tagFail
  with_reducible repeat' first | assumption | decide | rfl | refine Rel.step (by apply rel_Dev_setCryCtx) ?_ ?_ | split | intro _ | dsimp only

theorem rel_Dev_tlsRx (d : Dev) (c : Nat) (x : CryCtx) (f : List Byte) : UnitRel 4395719041 d (Dev.tlsRx d c x f) := by
  unfold Dev.tlsRx
  with_reducible repeat' first | assumption | decide | rfl | refine UnitRel.ok ?_ | refine UnitRel.drop ?_ | refine UnitRel.refuse ?_ | refine UnitRel.ite ?_ ?_ | refine Rel.step (by apply rel_Dev_tenEvent) ?_ ?_ | refine Rel.step (by apply rel_Dev_cryUsed) ?_ ?_ | refine Rel.step (by apply rel_Dev_tagFail) ?_ ?_ | refine Rel.step (by apply rel_Dev_setCryCtx) ?_ ?_ | refine Rel.ite ?_ ?_ | split | intro _ | dsimp only

theorem rel_Dev_tlsTx (d : Dev) (c : Nat) (x : CryCtx) (f : List Byte) : UnitRel 4395719041 d (Dev.tlsTx d c x f) := by
  unfold Dev.tlsTx
  with_reducible repeat' first | assumption | decide | rfl | refine UnitRel.ok ?_ | refine UnitRel.drop ?_ | refine UnitRel.refuse ?_ | refine UnitRel.ite ?_ ?_ | refine Rel.step (by apply rel_Dev_cryUsed) ?_ ?_ | refine Rel.ite ?_ ?_ | split | intro _ | dsimp only

theorem rel_Dev_quicTx (d : Dev) (c : Nat) (x : CryCtx) (f : List Byte) : UnitRel 4395719041 d (Dev.quicTx d c x f) := by
  unfold Dev.quicTx
  with_reducible repeat' first | assumption | decide | rfl | refine UnitRel.ok ?_ | refine UnitRel.drop ?_ | refine UnitRel.refuse ?_ | refine UnitRel.ite ?_ ?_ | refine Rel.step (by apply rel_Dev_cryUsed) ?_ ?_ | refine Rel.ite ?_ ?_ | split | intro _ | dsimp only

theorem rel_Dev_quicRx (d : Dev) (c : Nat) (x : CryCtx) (f : List Byte) : UnitRel 4395719041 d (Dev.quicRx d c x f) := by
  unfold Dev.quicRx
  with_reducible repeat' first | assumption | decide | rfl | refine UnitRel.ok ?_ | refine UnitRel.drop ?_ | refine UnitRel.refuse ?_ | refine UnitRel.ite ?_ ?_ | refine Rel.step (by apply rel_Dev_tenEvent) ?_ ?_ | refine Rel.step (by apply rel_Dev_cryUsed) ?_ ?_ | refine Rel.step (by apply rel_Dev_tagFail) ?_ ?_ | refine Rel.ite ?_ ?_ | split | intro _ | dsimp only

theorem rel_Dev_espIn (d : Dev) (c : Nat) (x : CryCtx) (key : List Byte) (f : List Byte) : UnitRel 4395719041 d (Dev.espIn d c x key f) := by
  unfold Dev.espIn
  with_reducible repeat' first | assumption | decide | rfl | refine UnitRel.ok ?_ | refine UnitRel.drop ?_ | refine UnitRel.refuse ?_ | refine UnitRel.ite ?_ ?_ | refine Rel.step (by apply rel_Dev_cryUsed) ?_ ?_ | refine Rel.step (by apply rel_Dev_tagFail) ?_ ?_ | refine Rel.step (by apply rel_Dev_setCryCtx) ?_ ?_ | refine Rel.ite ?_ ?_ | split | intro _ | dsimp only

theorem rel_Dev_espOut (d : Dev) (c : Nat) (x : CryCtx) (key : List Byte) (f : List Byte) : UnitRel 4395719041 d (Dev.espOut d c x key f) := by
  unfold Dev.espOut
  with_reducible repeat' first | assumption | decide | rfl | refine UnitRel.ok ?_ | refine UnitRel.drop ?_ | refine UnitRel.refuse ?_ | refine UnitRel.ite ?_ ?_ | refine Rel.step (by apply rel_Dev_cryUsed) ?_ ?_ | refine Rel.ite ?_ ?_ | split | intro _ | dsimp only

theorem rel_Dev_aeadFrame (d : Dev) (c : Nat) (f : List Byte) : UnitRel 4395719043 d (Dev.aeadFrame d c f) := by
  unfold Dev.aeadFrame
  with_reducible repeat' first | assumption | decide | rfl | refine UnitRel.ok ?_ | refine UnitRel.drop ?_ | refine UnitRel.refuse ?_ | refine UnitRel.ite ?_ ?_ | refine UnitRel.step (by apply rel_Dev_tlsRx) ?_ ?_ | refine Rel.step (by apply UnitRel.use1; assumption; apply rel_Dev_tlsRx) ?_ ?_ | refine Rel.step (by apply UnitRel.use2; assumption; apply rel_Dev_tlsRx) ?_ ?_ | refine Rel.step (by apply UnitRel.use3; assumption; apply rel_Dev_tlsRx) ?_ ?_ | refine UnitRel.step (by apply rel_Dev_tlsTx) ?_ ?_ | refine Rel.step (by apply UnitRel.use1; assumption; apply rel_Dev_tlsTx) ?_ ?_ | refine Rel.step (by apply UnitRel.use2; assumption; apply rel_Dev_tlsTx) ?_ ?_ | refine Rel.step (by apply UnitRel.use3; assumption; apply rel_Dev_tlsTx) ?_ ?_ | refine UnitRel.step (by apply rel_Dev_quicTx) ?_ ?_ | refine Rel.step (by apply UnitRel.use1; assumption; apply rel_Dev_quicTx) ?_ ?_ | refine Rel.step (by apply UnitRel.use2; assumption; apply rel_Dev_quicTx) ?_ ?_ | refine Rel.step (by apply UnitRel.use3; assumption; apply rel_Dev_quicTx) ?_ ?_ | refine UnitRel.step (by apply rel_Dev_quicRx) ?_ ?_ | refine Rel.step (by apply UnitRel.use1; assumption; apply rel_Dev_quicRx) ?_ ?_ | refine Rel.step (by apply UnitRel.use2; assumption; apply rel_Dev_quicRx) ?_ ?_ | refine Rel.step (by apply UnitRel.use3; assumption; apply rel_Dev_quicRx) ?_ ?_ | refine Rel.step (by apply rel_Dev_unwrapFail) ?_ ?_ | refine UnitRel.step (by apply rel_Dev_espIn) ?_ ?_ | refine Rel.step (by apply UnitRel.use1; assumption; apply rel_Dev_espIn) ?_ ?_ | refine Rel.step (by apply UnitRel.use2; assumption; apply rel_Dev_espIn) ?_ ?_ | refine Rel.step (by apply UnitRel.use3; assumption; apply rel_Dev_espIn) ?_ ?_ | refine Rel.step (by apply rel_Dev_count) ?_ ?_ | refine UnitRel.step (by apply rel_Dev_espOut) ?_ ?_ | refine Rel.step (by apply UnitRel.use1; assumption; apply rel_Dev_espOut) ?_ ?_ | refine Rel.step (by apply UnitRel.use2; assumption; apply rel_Dev_espOut) ?_ ?_ | refine Rel.step (by apply UnitRel.use3; assumption; apply rel_Dev_espOut) ?_ ?_ | refine Rel.ite ?_ ?_ | split | intro _ | dsimp only

theorem rel_Dev_txSplit (d : Dev) (tok : Nat) (p : Packet) (data : List Byte) : OptRel 4295524356 d (Dev.txSplit d tok p data) := by
  unfold Dev.txSplit
  with_reducible repeat' first | assumption | decide | rfl | refine Rel.getD ?_ ?_ | exact OptRel.none | refine OptRel.some ?_ | refine OptRel.ite ?_ ?_ | refine OptRel.mapD (fun _ => ?_) ?_ | refine OptRel.map (fun _ => ?_) | refine OptRel.bindD (fun _ => ?_) ?_ | refine OptRel.bind (fun _ => ?_) | refine Rel.elim ?_ (fun _ => ?_) | refine Rel.step (by apply rel_Dev_freePkt) ?_ ?_ | refine Rel.step (by apply rel_Dev_jobPut) ?_ ?_ | refine OptRel.step (by apply rel_Dev_growCrypto) ?_ ?_ | refine Rel.step (by apply OptRel.use; assumption; apply rel_Dev_growCrypto) ?_ ?_ | refine OptRel.step (by apply rel_Dev_txStore) ?_ ?_ | refine Rel.step (by apply OptRel.use; assumption; apply rel_Dev_txStore) ?_ ?_ | refine Rel.step (by apply rel_Dev_setPkt) ?_ ?_ | split | intro _ | dsimp only

theorem rel_Dev_aeadUnit (d : Dev) (tok : Nat) (ecc : Ecc) : Rel 4396276103 d (Dev.aeadUnit d tok ecc) := by
  unfold Dev.aeadUnit
  with_reducible repeat' first | assumption | decide | rfl | refine Rel.getD ?_ ?_ | exact OptRel.none | refine OptRel.some ?_ | refine OptRel.ite ?_ ?_ | refine OptRel.mapD (fun _ => ?_) ?_ | refine OptRel.map (fun _ => ?_) | refine OptRel.bindD (fun _ => ?_) ?_ | refine OptRel.bind (fun _ => ?_) | refine Rel.elim ?_ (fun _ => ?_) | refine Rel.step (by apply rel_Dev_frameGone) ?_ ?_ | refine Rel.step (by apply rel_Dev_applyEcc) ?_ ?_ | refine OptRel.step (by apply rel_Dev_txSplit) ?_ ?_ | refine Rel.step (by apply OptRel.use; assumption; apply rel_Dev_txSplit) ?_ ?_ | refine Rel.step (by apply rel_Dev_freePkt) ?_ ?_ | refine OptRel.step (by apply rel_Dev_growCrypto) ?_ ?_ | refine Rel.step (by apply OptRel.use; assumption; apply rel_Dev_growCrypto) ?_ ?_ | refine Rel.step (by apply rel_Dev_setPkt) ?_ ?_ | refine Rel.step (by apply rel_Dev_count) ?_ ?_ | refine Rel.step (by apply UnitRel.use1; assumption; apply rel_Dev_aeadFrame) ?_ ?_ | refine Rel.step (by apply UnitRel.use2; assumption; apply rel_Dev_aeadFrame) ?_ ?_ | refine Rel.step (by apply UnitRel.use3; assumption; apply rel_Dev_aeadFrame) ?_ ?_ | refine Rel.ite ?_ ?_ | split | intro _ | dsimp only

theorem rel_execAeadUnit (tok : Nat) (ecc : Ecc) (s : State) {u : State} (h : execAeadUnit tok ecc s = .next u) : Rel 4396276103 s.dev u.dev := by
  refine run_rel (fun _ => ?_) h
  with_reducible repeat' first | assumption | decide | rfl | refine Rel.step (by apply rel_Dev_aeadUnit) ?_ ?_ | intro _ | dsimp only

end Sys2Proof.Laws
end

