-- ==== Sys2Proof/Laws/Frames/Egress.lean ====
section
/-! SUPPORT. What each function of Machine/Egress.lean may change. -/

set_option linter.unusedTactic false
set_option linter.unreachableTactic false

namespace Sys2Proof.Laws

open Sys2Proof Sys2Proof.Machine

theorem rel_Dev_copyPkt {d : Dev} {tok : Nat} {p : Packet} {st : Stage} {p0 : Nat} {p1 : Dev} (h : Dev.copyPkt d tok p st = some (p0, p1)) : Rel 4 d p1 := by
  unfold Dev.copyPkt at h
  repeat' first | split at h | dsimp only at h | (rw [Option.map_eq_some_iff] at h; obtain ⟨_, _, h⟩ := h)
  all_goals (try cases h)
  all_goals (with_reducible repeat' first | assumption | decide | rfl | refine Rel.step (by apply rel_Dev_setPkt) ?_ ?_ | split | intro _ | dsimp only)

theorem rel_Dev_setSto (d : Dev) (c : Nat) (x : StoCtx) : Rel 67108864 d (Dev.setSto d c x) := by
  unfold Dev.setSto
  with_reducible repeat' first | assumption | decide | rfl | simp only [Nat.reduceAnd, Rel.u_sto] | split | intro _ | dsimp only

theorem rel_Dev_noteEgress (d : Dev) (c : Nat) (port : Nat) : Rel 67108864 d (Dev.noteEgress d c port) := by
  unfold Dev.noteEgress
  with_reducible repeat' first | assumption | decide | rfl | refine Rel.step (by apply rel_Dev_setSto) ?_ ?_ | refine Rel.ite ?_ ?_ | split | intro _ | dsimp only

theorem rel_Dev_enqueuePort (d : Dev) (tok : Nat) (port : Nat) (p : Packet) : Rel 67633156 d (Dev.enqueuePort d tok port p) := by
  unfold Dev.enqueuePort
  with_reducible repeat' first | assumption | decide | rfl | refine Rel.elim ?_ (fun _ => ?_) | refine Rel.step (by apply rel_Dev_noteEgress) ?_ ?_ | refine Rel.step (by apply rel_Dev_setNetPort) ?_ ?_ | refine Rel.step (by apply rel_Dev_setPkt) ?_ ?_ | split | intro _ | dsimp only

theorem rel_Dev_setTwin (d : Dev) (x : TwinPart) : Rel 8388608 d (Dev.setTwin d x) := by
  unfold Dev.setTwin
  with_reducible repeat' first | assumption | decide | rfl | simp only [Nat.reduceAnd, Rel.u_twin] | split | intro _ | dsimp only

theorem rel_Dev_holdShadow (d : Dev) (tok : Nat) (port : Nat) (p : Packet) (s : Nat) (seq : Nat) : Rel 4303912965 d (Dev.holdShadow d tok port p s seq) := by
  unfold Dev.holdShadow
  with_reducible repeat' first | assumption | decide | rfl | refine Rel.step (by apply rel_Dev_setTwin) ?_ ?_ | refine Rel.step (by apply rel_Dev_dropPkt) ?_ ?_ | refine Rel.step (by apply rel_Dev_setPkt) ?_ ?_ | refine Rel.step (by apply rel_Dev_count) ?_ ?_ | refine Rel.step (by apply rel_Dev_setSquare) ?_ ?_ | split | intro _ | dsimp only

theorem rel_Dev_setStream (d : Dev) (s : Nat) (x : Stream) : Rel 8388608 d (Dev.setStream d s x) := by
  unfold Dev.setStream
  with_reducible repeat' first | assumption | decide | rfl | refine Rel.step (by apply rel_Dev_setTwin) ?_ ?_ | split | intro _ | dsimp only

theorem rel_Dev_toPort (d : Dev) (tok : Nat) (port : Nat) (p : Packet) : Rel 4371021829 d (Dev.toPort d tok port p) := by
  unfold Dev.toPort
  with_reducible repeat' first | assumption | decide | rfl | refine Rel.step (by apply rel_Dev_setTwin) ?_ ?_ | refine Rel.step (by apply rel_Dev_enqueuePort) ?_ ?_ | refine Rel.step (by apply rel_Dev_holdShadow) ?_ ?_ | refine Rel.ite ?_ ?_ | split | intro _ | dsimp only

theorem rel_Dev_toRing (d : Dev) (tok : Nat) (p : Packet) (dest : Nat) (mark : Nat) (decrypted : Bool) : Rel 4295524357 d (Dev.toRing d tok p dest mark decrypted) := by
  unfold Dev.toRing
  with_reducible repeat' first | assumption | decide | rfl | refine Rel.step (by apply rel_Dev_dropPkt) ?_ ?_ | refine Rel.step (by apply rel_Dev_setPkt) ?_ ?_ | refine Rel.step (by apply rel_Dev_count) ?_ ?_ | refine Rel.ite ?_ ?_ | split | intro _ | dsimp only

theorem rel_Dev_twinCapture (d : Dev) (s : Nat) (seq : Nat) (f : List Byte) : Rel 8388609 d (Dev.twinCapture d s seq f) := by
  unfold Dev.twinCapture
  with_reducible repeat' first | assumption | decide | rfl | refine Rel.step (by apply rel_Dev_setTwin) ?_ ?_ | refine Rel.step (by apply rel_Dev_count) ?_ ?_ | refine Rel.ite ?_ ?_ | split | intro _ | dsimp only

theorem rel_Dev_twinEvent (d : Dev) (v : Ev) : Rel 4295033217 d (Dev.twinEvent d v) := by
  unfold Dev.twinEvent
  with_reducible repeat' first | assumption | decide | rfl | refine Rel.step (by apply rel_Dev_pfEvent) ?_ ?_ | split | intro _ | dsimp only

theorem rel_Dev_twinDiverged (d : Dev) (p1 : Nat) (p2 : Nat) : Rel 4295033217 d (Dev.twinDiverged d p1 p2) := by
  unfold Dev.twinDiverged
  with_reducible repeat' first | assumption | decide | rfl | refine Rel.step (by apply rel_Dev_twinEvent) ?_ ?_ | refine Rel.step (by apply rel_Dev_setBit) ?_ ?_ | split | intro _ | dsimp only

theorem rel_Dev_twinWord (d : Dev) (tok : Nat) (p : Packet) (param : Nat) (bytes : Nat) : Rel 4303978885 d (Dev.twinWord d tok p param bytes).2 := by
  unfold Dev.twinWord
  with_reducible repeat' first | assumption | decide | rfl | refine Rel.elim ?_ (fun _ => ?_) | refine Rel.step (by apply rel_Dev_twinCapture) ?_ ?_ | refine Rel.step (by apply rel_Dev_dropPkt) ?_ ?_ | refine Rel.step (by apply rel_Dev_setStream) ?_ ?_ | refine Rel.step (by apply rel_Dev_twinDiverged) ?_ ?_ | refine Rel.step (by apply rel_Dev_copyPkt; assumption) ?_ ?_ | refine Rel.step (by apply rel_Dev_count) ?_ ?_ | refine Rel.ite ?_ ?_ | split | intro _ | dsimp only
theorem rel_Dev_twinWord' {d : Dev} {tok : Nat} {p : Packet} {param : Nat} {bytes : Nat} {p0 : Option Packet} {p1 : Dev} (h : Dev.twinWord d tok p param bytes = (p0, p1)) : Rel 4303978885 d p1 := by
  have k := rel_Dev_twinWord d tok p param bytes
  rw [h] at k
  exact k

end Sys2Proof.Laws
end

