-- ==== Sys2Proof/Laws/Frames/Ports.lean ====
section
/-! SUPPORT. What each function of Machine/Ports.lean may change. -/

set_option linter.unusedTactic false
set_option linter.unreachableTactic false

namespace Sys2Proof.Laws

open Sys2Proof Sys2Proof.Machine

theorem rel_Dev_setDim (d : Dev) (p : Nat) (x : Dim) : Rel 524288 d (Dev.setDim d p x) := by
  unfold Dev.setDim
  with_reducible repeat' first | assumption | decide | rfl | refine Rel.step (by apply rel_Dev_setNetPort) ?_ ?_ | split | intro _ | dsimp only

theorem rel_Dev_dimSend (d : Dev) (p : Nat) (ty : Nat) (seq : Nat) (target : Nat) (reason : Nat) : Rel 4295491584 d (Dev.dimSend d p ty seq target reason) := by
  unfold Dev.dimSend
  with_reducible repeat' first | assumption | decide | rfl | refine Rel.step (by apply rel_Dev_pcount) ?_ ?_ | refine Rel.step (by apply rel_Dev_txCountOk) ?_ ?_ | refine Rel.step (by apply rel_Dev_emit) ?_ ?_ | split | intro _ | dsimp only

theorem rel_Dev_dimSettle (d : Dev) (p : Nat) : Rel 524288 d (Dev.dimSettle d p) := by
  unfold Dev.dimSettle
  with_reducible repeat' first | assumption | decide | rfl | refine Rel.step (by apply rel_Dev_setDim) ?_ ?_ | refine Rel.step (by apply rel_Dev_pcount) ?_ ?_ | refine Rel.ite ?_ ?_ | split | intro _ | dsimp only

theorem rel_Dev_dimMoveTx (d : Dev) (p : Nat) (seq : Nat) (t : Nat) : Rel 4295491584 d (Dev.dimMoveTx d p seq t) := by
  unfold Dev.dimMoveTx
  with_reducible repeat' first | assumption | decide | rfl | refine Rel.step (by apply rel_Dev_setDim) ?_ ?_ | refine Rel.step (by apply rel_Dev_dimSend) ?_ ?_ | refine Rel.step (by apply rel_Dev_dimSettle) ?_ ?_ | split | intro _ | dsimp only

theorem rel_Dev_dimAcceptRx (d : Dev) (p : Nat) (seq : Nat) : Rel 4295491584 d (Dev.dimAcceptRx d p seq) := by
  unfold Dev.dimAcceptRx
  with_reducible repeat' first | assumption | decide | rfl | refine Rel.step (by apply rel_Dev_dimMoveTx) ?_ ?_ | refine Rel.ite ?_ ?_ | split | intro _ | dsimp only

theorem rel_Dev_dimAgain (d : Dev) (p : Nat) : Rel 524288 d (Dev.dimAgain d p) := by
  unfold Dev.dimAgain
  with_reducible repeat' first | assumption | decide | rfl | refine Rel.step (by apply rel_Dev_setDim) ?_ ?_ | refine Rel.step (by apply rel_Dev_pcount) ?_ ?_ | split | intro _ | dsimp only

theorem rel_Dev_netLinkDown (d : Dev) (p : Nat) (loc : Bool) (rem : Bool) : Rel 524288 d (Dev.netLinkDown d p loc rem) := by
  unfold Dev.netLinkDown
  with_reducible repeat' first | assumption | decide | rfl | refine Rel.step (by apply rel_Dev_pcount) ?_ ?_ | refine Rel.step (by apply rel_Dev_setNetPort) ?_ ?_ | split | intro _ | dsimp only

theorem rel_Dev_dimAlignTimeout (d : Dev) (p : Nat) : Rel 524288 d (Dev.dimAlignTimeout d p) := by
  unfold Dev.dimAlignTimeout
  with_reducible repeat' first | assumption | decide | rfl | refine Rel.step (by apply rel_Dev_netLinkDown) ?_ ?_ | refine Rel.ite ?_ ?_ | split | intro _ | dsimp only

theorem rel_Dev_dimRefuseRx (d : Dev) (p : Nat) (seq : Nat) : Rel 524288 d (Dev.dimRefuseRx d p seq) := by
  unfold Dev.dimRefuseRx
  with_reducible repeat' first | assumption | decide | rfl | refine Rel.step (by apply rel_Dev_dimAgain) ?_ ?_ | refine Rel.ite ?_ ?_ | split | intro _ | dsimp only

theorem rel_Dev_dimRestore (d : Dev) (p : Nat) : Rel 4295491584 d (Dev.dimRestore d p) := by
  unfold Dev.dimRestore
  with_reducible repeat' first | assumption | decide | rfl | refine Rel.step (by apply rel_Dev_setDim) ?_ ?_ | refine Rel.step (by apply rel_Dev_dimSend) ?_ ?_ | refine Rel.ite ?_ ?_ | split | intro _ | dsimp only

theorem rel_Dev_dimProposeRx (d : Dev) (p : Nat) (src : Nat) (seq : Nat) (target : Nat) (full : Nat) : Rel 4295491584 d (Dev.dimProposeRx d p src seq target full) := by
  unfold Dev.dimProposeRx
  with_reducible repeat' first | assumption | decide | rfl | refine Rel.step (by apply rel_Dev_setDim) ?_ ?_ | refine Rel.step (by apply rel_Dev_dimSend) ?_ ?_ | refine Rel.step (by apply rel_Dev_dimMoveTx) ?_ ?_ | refine Rel.step (by apply rel_Dev_dimRestore) ?_ ?_ | refine Rel.ite ?_ ?_ | split | intro _ | dsimp only

theorem rel_Dev_dimSwitchRx (d : Dev) (p : Nat) (t : Nat) : Rel 524288 d (Dev.dimSwitchRx d p t) := by
  unfold Dev.dimSwitchRx
  with_reducible repeat' first | assumption | decide | rfl | refine Rel.step (by apply rel_Dev_setDim) ?_ ?_ | refine Rel.step (by apply rel_Dev_dimSettle) ?_ ?_ | refine Rel.ite ?_ ?_ | split | intro _ | dsimp only

theorem rel_Dev_dimRestoreRx (d : Dev) (p : Nat) (seq : Nat) : Rel 4295491584 d (Dev.dimRestoreRx d p seq) := by
  unfold Dev.dimRestoreRx
  with_reducible repeat' first | assumption | decide | rfl | refine Rel.step (by apply rel_Dev_setDim) ?_ ?_ | refine Rel.step (by apply rel_Dev_dimSend) ?_ ?_ | refine Rel.step (by apply rel_Dev_dimMoveTx) ?_ ?_ | refine Rel.ite ?_ ?_ | split | intro _ | dsimp only

theorem rel_Dev_dimRestoreAckRx (d : Dev) (p : Nat) (seq : Nat) : Rel 4295491584 d (Dev.dimRestoreAckRx d p seq) := by
  unfold Dev.dimRestoreAckRx
  with_reducible repeat' first | assumption | decide | rfl | refine Rel.step (by apply rel_Dev_dimMoveTx) ?_ ?_ | refine Rel.ite ?_ ?_ | split | intro _ | dsimp only

theorem rel_Dev_dimCapRx (d : Dev) (p : Nat) (full : Nat) : Rel 524288 d (Dev.dimCapRx d p full) := by
  unfold Dev.dimCapRx
  with_reducible repeat' first | assumption | decide | rfl | refine Rel.step (by apply rel_Dev_setDim) ?_ ?_ | refine Rel.ite ?_ ?_ | split | intro _ | dsimp only

theorem rel_Dev_dimRx (d : Dev) (p : Nat) (f : List Byte) : Rel 4295491584 d (Dev.dimRx d p f) := by
  unfold Dev.dimRx
  with_reducible repeat' first | assumption | decide | rfl | refine Rel.step (by apply rel_Dev_dimRefuseRx) ?_ ?_ | refine Rel.step (by apply rel_Dev_dimProposeRx) ?_ ?_ | refine Rel.step (by apply rel_Dev_dimSwitchRx) ?_ ?_ | refine Rel.step (by apply rel_Dev_dimAcceptRx) ?_ ?_ | refine Rel.step (by apply rel_Dev_dimRestoreRx) ?_ ?_ | refine Rel.step (by apply rel_Dev_dimRestoreAckRx) ?_ ?_ | refine Rel.step (by apply rel_Dev_dimCapRx) ?_ ?_ | split | intro _ | dsimp only

theorem rel_Dev_rxCountOk (d : Dev) (p : Nat) (f : List Byte) (n : Nat) : Rel 524288 d (Dev.rxCountOk d p f n) := by
  unfold Dev.rxCountOk
  with_reducible repeat' first | assumption | decide | rfl | refine Rel.step (by apply rel_Dev_pcount) ?_ ?_ | split | intro _ | dsimp only

theorem rel_Dev_dimArrive (d : Dev) (p : Nat) (ty : Nat) (src : Nat) (seq : Nat) (target : Nat) (full : Nat) (reason : Nat) : Rel 4295491584 d (Dev.dimArrive d p ty src seq target full reason) := by
  unfold Dev.dimArrive
  with_reducible repeat' first | assumption | decide | rfl | refine Rel.step (by apply rel_Dev_dimRx) ?_ ?_ | refine Rel.step (by apply rel_Dev_pcount) ?_ ?_ | refine Rel.step (by apply rel_Dev_rxCountOk) ?_ ?_ | refine Rel.ite ?_ ?_ | split | intro _ | dsimp only

theorem rel_Dev_dimCapSend (d : Dev) (p : Nat) : Rel 4295491584 d (Dev.dimCapSend d p) := by
  unfold Dev.dimCapSend
  with_reducible repeat' first | assumption | decide | rfl | refine Rel.step (by apply rel_Dev_dimSend) ?_ ?_ | refine Rel.ite ?_ ?_ | split | intro _ | dsimp only

theorem rel_Dev_dimLost (d : Dev) (p : Nat) : Rel 524288 d (Dev.dimLost d p) := by
  unfold Dev.dimLost
  with_reducible repeat' first | assumption | decide | rfl | refine Rel.step (by apply rel_Dev_setDim) ?_ ?_ | refine Rel.ite ?_ ?_ | split | intro _ | dsimp only

theorem rel_Dev_dimProposeTimeout (d : Dev) (p : Nat) : Rel 524288 d (Dev.dimProposeTimeout d p) := by
  unfold Dev.dimProposeTimeout
  with_reducible repeat' first | assumption | decide | rfl | refine Rel.step (by apply rel_Dev_dimAgain) ?_ ?_ | refine Rel.ite ?_ ?_ | split | intro _ | dsimp only

theorem rel_Dev_dimWindow (d : Dev) (p : Nat) (bits : Nat) : Rel 4295491584 d (Dev.dimWindow d p bits) := by
  unfold Dev.dimWindow
  with_reducible repeat' first | assumption | decide | rfl | refine Rel.step (by apply rel_Dev_setDim) ?_ ?_ | refine Rel.step (by apply rel_Dev_dimSend) ?_ ?_ | refine Rel.step (by apply rel_Dev_dimRestore) ?_ ?_ | refine Rel.ite ?_ ?_ | split | intro _ | dsimp only

theorem rel_Dev_lpiEntry (d : Dev) (p : Nat) (tx : Bool) : Rel 524288 d (Dev.lpiEntry d p tx) := by
  unfold Dev.lpiEntry
  with_reducible repeat' first | assumption | decide | rfl | refine Rel.step (by apply rel_Dev_pcount) ?_ ?_ | refine Rel.step (by apply rel_Dev_setNetPort) ?_ ?_ | refine Rel.ite ?_ ?_ | split | intro _ | dsimp only

theorem rel_Dev_lpiExit (d : Dev) (p : Nat) (tx : Bool) : Rel 524288 d (Dev.lpiExit d p tx) := by
  unfold Dev.lpiExit
  with_reducible repeat' first | assumption | decide | rfl | refine Rel.step (by apply rel_Dev_setNetPort) ?_ ?_ | refine Rel.ite ?_ ?_ | split | intro _ | dsimp only

theorem rel_Dev_setSvb (d : Dev) (x : Svb) : Rel 524288 d (Dev.setSvb d x) := by
  unfold Dev.setSvb
  with_reducible repeat' first | assumption | decide | rfl | simp only [Nat.reduceAnd, Rel.u_port] | split | intro _ | dsimp only

theorem rel_Dev_mdioStart (d : Dev) (read : Bool) (phy : Nat) (reg : Nat) (data : Nat) : Rel 4295491585 d (Dev.mdioStart d read phy reg data) := by
  unfold Dev.mdioStart
  with_reducible repeat' first | assumption | decide | rfl | refine Rel.step (by apply rel_Dev_setReg) ?_ ?_ | refine Rel.step (by apply rel_Dev_setSvb) ?_ ?_ | refine Rel.step (by apply rel_Dev_emit) ?_ ?_ | refine Rel.ite ?_ ?_ | split | intro _ | dsimp only

theorem rel_Dev_mdio (d : Dev) (pf : Nat) (read : Bool) (phy : Nat) (reg : Nat) (data : Nat) : Rel 4295491585 d (Dev.mdio d pf read phy reg data) := by
  unfold Dev.mdio
  with_reducible repeat' first | assumption | decide | rfl | refine Rel.step (by apply rel_Dev_mdioStart) ?_ ?_ | (apply Rel.trans; swap; apply rel_Dev_bar0Write) | split | intro _ | dsimp only

theorem rel_Dev_mdioDone (d : Dev) (data : Nat) : Rel 524289 d (Dev.mdioDone d data) := by
  unfold Dev.mdioDone
  with_reducible repeat' first | assumption | decide | rfl | refine Rel.step (by apply rel_Dev_setReg) ?_ ?_ | refine Rel.step (by apply rel_Dev_setSvb) ?_ ?_ | refine Rel.ite ?_ ?_ | split | intro _ | dsimp only

theorem rel_Dev_setTime (d : Dev) (x : TimePart) : Rel 1073741824 d (Dev.setTime d x) := by
  unfold Dev.setTime
  with_reducible repeat' first | assumption | decide | rfl | simp only [Nat.reduceAnd, Rel.u_time] | split | intro _ | dsimp only

theorem rel_Dev_setTt (d : Dev) (p : Nat) (x : TimeTable) : Rel 1073741824 d (Dev.setTt d p x) := by
  unfold Dev.setTt
  with_reducible repeat' first | assumption | decide | rfl | refine Rel.step (by apply rel_Dev_setTime) ?_ ?_ | split | intro _ | dsimp only

theorem rel_Dev_ttDiscard (d : Dev) (p : Nat) : Rel 5368906145 d (Dev.ttDiscard d p) := by
  unfold Dev.ttDiscard
  with_reducible repeat' first | assumption | decide | rfl | refine Rel.step (by apply rel_Dev_admLate) ?_ ?_ | refine Rel.step (by apply rel_Dev_setTt) ?_ ?_ | refine Rel.step (by apply rel_Dev_clrBit) ?_ ?_ | split | intro _ | dsimp only

theorem rel_Dev_portClear (d : Dev) (p : Nat) : Rel 5369430433 d (Dev.portClear d p) := by
  unfold Dev.portClear
  with_reducible repeat' first | assumption | decide | rfl | refine Rel.step (by apply rel_Dev_ttDiscard) ?_ ?_ | refine Rel.step (by apply rel_Dev_setNetPort) ?_ ?_ | refine Rel.step (by apply rel_Dev_clrBit) ?_ ?_ | split | intro _ | dsimp only

theorem rel_Dev_modeApply (d : Dev) (g : Nat) : Rel 5369430433 d (Dev.modeApply d g) := by
  unfold Dev.modeApply
  with_reducible repeat' first | assumption | decide | rfl | refine Rel.foldl (fun _ _ => ?_) ?_ | refine Rel.foldl1 (fun _ _ => ?_) ?_ | refine Rel.foldl2 (fun _ _ => ?_) ?_ | refine Rel.step (by apply rel_Dev_portClear) ?_ ?_ | refine Rel.ite ?_ ?_ | simp only [Nat.reduceAnd, Rel.u_port] | split | intro _ | dsimp only

theorem rel_Dev_netLinkUp (d : Dev) (p : Nat) : Rel 524288 d (Dev.netLinkUp d p) := by
  unfold Dev.netLinkUp
  with_reducible repeat' first | assumption | decide | rfl | refine Rel.step (by apply rel_Dev_setNetPort) ?_ ?_ | refine Rel.ite ?_ ?_ | split | intro _ | dsimp only

theorem rel_Dev_pauseExpire (d : Dev) (p : Nat) (c : Nat) : Rel 524288 d (Dev.pauseExpire d p c) := by
  unfold Dev.pauseExpire
  with_reducible repeat' first | assumption | decide | rfl | refine Rel.step (by apply rel_Dev_setNetPort) ?_ ?_ | split | intro _ | dsimp only

theorem rel_Dev_pauseRefresh (d : Dev) (p : Nat) : Rel 4295491584 d (Dev.pauseRefresh d p) := by
  unfold Dev.pauseRefresh
  with_reducible repeat' first | assumption | decide | rfl | refine Rel.step (by apply rel_Dev_pauseCheck) ?_ ?_ | refine Rel.step (by apply rel_Dev_pauseSend) ?_ ?_ | refine Rel.ite ?_ ?_ | split | intro _ | dsimp only

theorem rel_Dev_pauseRx (d : Dev) (p : Nat) (pfc : Bool) (en : Nat) (quanta : List Nat) : Rel 524288 d (Dev.pauseRx d p pfc en quanta) := by
  unfold Dev.pauseRx
  with_reducible repeat' first | assumption | decide | rfl | refine Rel.step (by apply rel_Dev_setNetPort) ?_ ?_ | refine Rel.ite ?_ ?_ | split | intro _ | dsimp only

theorem rel_Dev_portApply (d : Dev) (pf : Nat) (v : Word) : Rel 5369430433 d (Dev.portApply d pf v) := by
  unfold Dev.portApply
  with_reducible repeat' first | assumption | decide | rfl | refine Rel.foldl (fun _ _ => ?_) ?_ | refine Rel.foldl1 (fun _ _ => ?_) ?_ | refine Rel.foldl2 (fun _ _ => ?_) ?_ | refine Rel.step (by apply rel_Dev_setBit) ?_ ?_ | (apply Rel.trans; swap; apply rel_Dev_bar0Write) | refine Rel.step (by apply rel_Dev_modeApply) ?_ ?_ | refine Rel.ite ?_ ?_ | split | intro _ | dsimp only

theorem rel_Dev_portRel (d : Dev) (pf : Nat) (p : Nat) (v : Word) : Rel 524289 d (Dev.portRel d pf p v) := by
  unfold Dev.portRel
  with_reducible repeat' first | assumption | decide | rfl | refine Rel.step (by apply rel_Dev_setNetPort) ?_ ?_ | (apply Rel.trans; swap; apply rel_Dev_bar0Write) | refine Rel.ite ?_ ?_ | split | intro _ | dsimp only

theorem rel_Dev_portSnap (d : Dev) (pf : Nat) (p : Nat) : Rel 8590458881 d (Dev.portSnap d pf p) := by
  unfold Dev.portSnap
  with_reducible repeat' first | assumption | decide | rfl | refine Rel.step (by apply rel_Dev_setNetPort) ?_ ?_ | (apply Rel.trans; swap; apply rel_Dev_bar0Read) | refine Rel.ite ?_ ?_ | split | intro _ | dsimp only

theorem rel_Dev_svbBeaconLoss (d : Dev) : Rel 524289 d (Dev.svbBeaconLoss d) := by
  unfold Dev.svbBeaconLoss
  with_reducible repeat' first | assumption | decide | rfl | refine Rel.step (by apply rel_Dev_setSvb) ?_ ?_ | refine Rel.step (by apply rel_Dev_count) ?_ ?_ | refine Rel.ite ?_ ?_ | split | intro _ | dsimp only

theorem rel_Dev_svbBeaconReturn (d : Dev) : Rel 524288 d (Dev.svbBeaconReturn d) := by
  unfold Dev.svbBeaconReturn
  with_reducible repeat' first | assumption | decide | rfl | refine Rel.step (by apply rel_Dev_setSvb) ?_ ?_ | refine Rel.ite ?_ ?_ | split | intro _ | dsimp only

theorem rel_Dev_svbQueue (d : Dev) (f : List Byte) : Rel 524289 d (Dev.svbQueue d f) := by
  unfold Dev.svbQueue
  with_reducible repeat' first | assumption | decide | rfl | refine Rel.step (by apply rel_Dev_setSvb) ?_ ?_ | refine Rel.step (by apply rel_Dev_count) ?_ ?_ | refine Rel.ite ?_ ?_ | split | intro _ | dsimp only

theorem rel_Dev_svbRx (d : Dev) (f : List Byte) (good : Bool) : Rel 524289 d (Dev.svbRx d f good).2 := by
  unfold Dev.svbRx
  with_reducible repeat' first | assumption | decide | rfl | refine Rel.step (by apply rel_Dev_setSvb) ?_ ?_ | refine Rel.step (by apply rel_Dev_count) ?_ ?_ | refine Rel.ite ?_ ?_ | split | intro _ | dsimp only
theorem rel_Dev_svbRx' {d : Dev} {f : List Byte} {good : Bool} {p0 : Bool} {p1 : Dev} (h : Dev.svbRx d f good = (p0, p1)) : Rel 524289 d p1 := by
  have k := rel_Dev_svbRx d f good
  rw [h] at k
  exact k

theorem rel_Dev_svbTx (d : Dev) (collisions : Nat) : Rel 4295688609 d (Dev.svbTx d collisions) := by
  unfold Dev.svbTx
  with_reducible repeat' first | assumption | decide | rfl | refine Rel.elim ?_ (fun _ => ?_) | refine Rel.step (by apply rel_Dev_setSvb) ?_ ?_ | refine Rel.step (by apply rel_Dev_admLate) ?_ ?_ | refine Rel.step (by apply rel_Dev_countN) ?_ ?_ | refine Rel.step (by apply rel_Dev_count) ?_ ?_ | refine Rel.step (by apply rel_Dev_emit) ?_ ?_ | refine Rel.ite ?_ ?_ | split | intro _ | dsimp only

theorem rel_execDimAcceptRx (p : Nat) (src : Nat) (seq : Nat) (target : Nat) (full : Nat) (s : State) {u : State} (h : execDimAcceptRx p src seq target full s = .next u) : Rel 4295491584 s.dev u.dev := by
  refine run_rel (fun _ => ?_) h
  with_reducible repeat' first | assumption | decide | rfl | refine Rel.step (by apply rel_Dev_dimArrive) ?_ ?_ | intro _ | dsimp only

theorem rel_execDimAlignTimeout (p : Nat) (s : State) {u : State} (h : execDimAlignTimeout p s = .next u) : Rel 524288 s.dev u.dev := by
  refine run_rel (fun _ => ?_) h
  with_reducible repeat' first | assumption | decide | rfl | refine Rel.step (by apply rel_Dev_dimAlignTimeout) ?_ ?_ | intro _ | dsimp only

theorem rel_execDimCapRx (p : Nat) (src : Nat) (full : Nat) (s : State) {u : State} (h : execDimCapRx p src full s = .next u) : Rel 4295491584 s.dev u.dev := by
  refine run_rel (fun _ => ?_) h
  with_reducible repeat' first | assumption | decide | rfl | refine Rel.step (by apply rel_Dev_dimArrive) ?_ ?_ | intro _ | dsimp only

theorem rel_execDimCapSend (p : Nat) (s : State) {u : State} (h : execDimCapSend p s = .next u) : Rel 4295491584 s.dev u.dev := by
  refine run_rel (fun _ => ?_) h
  with_reducible repeat' first | assumption | decide | rfl | refine Rel.step (by apply rel_Dev_dimCapSend) ?_ ?_ | intro _ | dsimp only

theorem rel_execDimPartnerLost (p : Nat) (s : State) {u : State} (h : execDimPartnerLost p s = .next u) : Rel 524288 s.dev u.dev := by
  refine run_rel (fun _ => ?_) h
  with_reducible repeat' first | assumption | decide | rfl | refine Rel.step (by apply rel_Dev_dimLost) ?_ ?_ | intro _ | dsimp only

theorem rel_execDimProposeRx (p : Nat) (src : Nat) (seq : Nat) (target : Nat) (full : Nat) (s : State) {u : State} (h : execDimProposeRx p src seq target full s = .next u) : Rel 4295491584 s.dev u.dev := by
  refine run_rel (fun _ => ?_) h
  with_reducible repeat' first | assumption | decide | rfl | refine Rel.step (by apply rel_Dev_dimArrive) ?_ ?_ | intro _ | dsimp only

theorem rel_execDimProposeTimeout (p : Nat) (s : State) {u : State} (h : execDimProposeTimeout p s = .next u) : Rel 524288 s.dev u.dev := by
  refine run_rel (fun _ => ?_) h
  with_reducible repeat' first | assumption | decide | rfl | refine Rel.step (by apply rel_Dev_dimProposeTimeout) ?_ ?_ | intro _ | dsimp only

theorem rel_execDimRefuseRx (p : Nat) (src : Nat) (seq : Nat) (target : Nat) (full : Nat) (reason : Nat) (s : State) {u : State} (h : execDimRefuseRx p src seq target full reason s = .next u) : Rel 4295491584 s.dev u.dev := by
  refine run_rel (fun _ => ?_) h
  with_reducible repeat' first | assumption | decide | rfl | refine Rel.step (by apply rel_Dev_dimArrive) ?_ ?_ | intro _ | dsimp only

theorem rel_execDimRestoreAckRx (p : Nat) (src : Nat) (seq : Nat) (full : Nat) (s : State) {u : State} (h : execDimRestoreAckRx p src seq full s = .next u) : Rel 4295491584 s.dev u.dev := by
  refine run_rel (fun _ => ?_) h
  with_reducible repeat' first | assumption | decide | rfl | refine Rel.step (by apply rel_Dev_dimArrive) ?_ ?_ | intro _ | dsimp only

theorem rel_execDimRestoreRx (p : Nat) (src : Nat) (seq : Nat) (full : Nat) (s : State) {u : State} (h : execDimRestoreRx p src seq full s = .next u) : Rel 4295491584 s.dev u.dev := by
  refine run_rel (fun _ => ?_) h
  with_reducible repeat' first | assumption | decide | rfl | refine Rel.step (by apply rel_Dev_dimArrive) ?_ ?_ | intro _ | dsimp only

theorem rel_execDimSwitchRx (p : Nat) (src : Nat) (seq : Nat) (target : Nat) (full : Nat) (s : State) {u : State} (h : execDimSwitchRx p src seq target full s = .next u) : Rel 4295491584 s.dev u.dev := by
  refine run_rel (fun _ => ?_) h
  with_reducible repeat' first | assumption | decide | rfl | refine Rel.step (by apply rel_Dev_dimArrive) ?_ ?_ | intro _ | dsimp only

theorem rel_execDimWindow (p : Nat) (bits : Nat) (s : State) {u : State} (h : execDimWindow p bits s = .next u) : Rel 4295491584 s.dev u.dev := by
  refine run_rel (fun _ => ?_) h
  with_reducible repeat' first | assumption | decide | rfl | refine Rel.step (by apply rel_Dev_dimWindow) ?_ ?_ | intro _ | dsimp only

theorem rel_execLpiEntry (p : Nat) (tx : Bool) (s : State) {u : State} (h : execLpiEntry p tx s = .next u) : Rel 524288 s.dev u.dev := by
  refine run_rel (fun _ => ?_) h
  with_reducible repeat' first | assumption | decide | rfl | refine Rel.step (by apply rel_Dev_lpiEntry) ?_ ?_ | intro _ | dsimp only

theorem rel_execLpiExit (p : Nat) (tx : Bool) (s : State) {u : State} (h : execLpiExit p tx s = .next u) : Rel 524288 s.dev u.dev := by
  refine run_rel (fun _ => ?_) h
  with_reducible repeat' first | assumption | decide | rfl | refine Rel.step (by apply rel_Dev_lpiExit) ?_ ?_ | intro _ | dsimp only

theorem rel_execMdioComplete (phyData : Nat) (s : State) {u : State} (h : execMdioComplete phyData s = .next u) : Rel 524289 s.dev u.dev := by
  refine runAon_rel (fun _ => ?_) h
  with_reducible repeat' first | assumption | decide | rfl | refine Rel.step (by apply rel_Dev_mdioDone) ?_ ?_ | intro _ | dsimp only

theorem rel_execMdioRead (pf : Nat) (phy : Nat) (reg : Nat) (s : State) {u : State} (h : execMdioRead pf phy reg s = .next u) : Rel 4295491585 s.dev u.dev := by
  refine run_rel (fun _ => ?_) h
  with_reducible repeat' first | assumption | decide | rfl | refine Rel.step (by apply rel_Dev_mdio) ?_ ?_ | intro _ | dsimp only

theorem rel_execMdioWrite (pf : Nat) (phy : Nat) (reg : Nat) (data : Nat) (s : State) {u : State} (h : execMdioWrite pf phy reg data s = .next u) : Rel 4295491585 s.dev u.dev := by
  refine run_rel (fun _ => ?_) h
  with_reducible repeat' first | assumption | decide | rfl | refine Rel.step (by apply rel_Dev_mdio) ?_ ?_ | intro _ | dsimp only

theorem rel_execNetLinkDown (p : Nat) (localFault : Bool) (remoteFault : Bool) (s : State) {u : State} (h : execNetLinkDown p localFault remoteFault s = .next u) : Rel 524288 s.dev u.dev := by
  refine run_rel (fun _ => ?_) h
  with_reducible repeat' first | assumption | decide | rfl | refine Rel.step (by apply rel_Dev_netLinkDown) ?_ ?_ | intro _ | dsimp only

theorem rel_execNetLinkUp (p : Nat) (s : State) {u : State} (h : execNetLinkUp p s = .next u) : Rel 524288 s.dev u.dev := by
  refine run_rel (fun _ => ?_) h
  with_reducible repeat' first | assumption | decide | rfl | refine Rel.step (by apply rel_Dev_netLinkUp) ?_ ?_ | intro _ | dsimp only

theorem rel_execPauseExpire (p : Nat) (cls : Nat) (s : State) {u : State} (h : execPauseExpire p cls s = .next u) : Rel 524288 s.dev u.dev := by
  refine run_rel (fun _ => ?_) h
  with_reducible repeat' first | assumption | decide | rfl | refine Rel.step (by apply rel_Dev_pauseExpire) ?_ ?_ | intro _ | dsimp only

theorem rel_execPauseRefresh (p : Nat) (s : State) {u : State} (h : execPauseRefresh p s = .next u) : Rel 4295491584 s.dev u.dev := by
  refine run_rel (fun _ => ?_) h
  with_reducible repeat' first | assumption | decide | rfl | refine Rel.step (by apply rel_Dev_pauseRefresh) ?_ ?_ | intro _ | dsimp only

theorem rel_execPortApply (pf : Nat) (value : Word) (s : State) {u : State} (h : execPortApply pf value s = .next u) : Rel 5369430433 s.dev u.dev := by
  refine run_rel (fun _ => ?_) h
  with_reducible repeat' first | assumption | decide | rfl | refine Rel.step (by apply rel_Dev_portApply) ?_ ?_ | intro _ | dsimp only

theorem rel_execPortCntRel (pf : Nat) (p : Nat) (value : Word) (s : State) {u : State} (h : execPortCntRel pf p value s = .next u) : Rel 524289 s.dev u.dev := by
  refine run_rel (fun _ => ?_) h
  with_reducible repeat' first | assumption | decide | rfl | refine Rel.step (by apply rel_Dev_portRel) ?_ ?_ | intro _ | dsimp only

theorem rel_execPortCntSnap (pf : Nat) (p : Nat) (s : State) {u : State} (h : execPortCntSnap pf p s = .next u) : Rel 8590458881 s.dev u.dev := by
  refine run_rel (fun _ => ?_) h
  with_reducible repeat' first | assumption | decide | rfl | refine Rel.step (by apply rel_Dev_portSnap) ?_ ?_ | intro _ | dsimp only

theorem rel_execSvbBeaconLoss (s : State) {u : State} (h : execSvbBeaconLoss s = .next u) : Rel 524289 s.dev u.dev := by
  refine runAon_rel (fun _ => ?_) h
  with_reducible repeat' first | assumption | decide | rfl | refine Rel.step (by apply rel_Dev_svbBeaconLoss) ?_ ?_ | intro _ | dsimp only

theorem rel_execSvbBeaconReturn (s : State) {u : State} (h : execSvbBeaconReturn s = .next u) : Rel 524288 s.dev u.dev := by
  refine runAon_rel (fun _ => ?_) h
  with_reducible repeat' first | assumption | decide | rfl | refine Rel.step (by apply rel_Dev_svbBeaconReturn) ?_ ?_ | intro _ | dsimp only

theorem rel_execSvbTxFrame (collisions : Nat) (s : State) {u : State} (h : execSvbTxFrame collisions s = .next u) : Rel 4295688609 s.dev u.dev := by
  refine runAon_rel (fun _ => ?_) h
  with_reducible repeat' first | assumption | decide | rfl | refine Rel.step (by apply rel_Dev_svbTx) ?_ ?_ | intro _ | dsimp only

end Sys2Proof.Laws
end

