-- ==== Sys2Proof/Laws/Frames/StoBase.lean ====
section
/-! SUPPORT. What each function of Machine/StoBase.lean may change. -/

set_option linter.unusedTactic false
set_option linter.unreachableTactic false

namespace Sys2Proof.Laws

open Sys2Proof Sys2Proof.Machine

theorem rel_Dev_ctxFrame (d : Dev) (c : Nat) (t : Nat) (action : Nat) (f : List Byte) : Rel 4 d (Dev.ctxFrame d c t action f) := by
  unfold Dev.ctxFrame
  with_reducible repeat' first | assumption | decide | rfl | refine Rel.step (by apply rel_Dev_setSquare) ?_ ?_ | split | intro _ | dsimp only

theorem rel_Dev_jobPlace (d : Dev) (q : Nat) (pos : Nat) (off : Nat) (b : List Byte) : Rel 4563453953 d (Dev.jobPlace d q pos off b) := by
  unfold Dev.jobPlace
  with_reducible repeat' first | assumption | decide | rfl | refine Rel.foldl (fun _ _ => ?_) ?_ | refine Rel.foldl1 (fun _ _ => ?_) ?_ | refine Rel.foldl2 (fun _ _ => ?_) ?_ | refine Rel.step (by apply rel_Dev_jobDeliver) ?_ ?_ | split | intro _ | dsimp only

theorem rel_Dev_mrWrite (d : Dev) (t : Nat) (gen : Word) (m : Mr) (addr : Nat) (b : List Byte) : Rel 4563404803 d (Dev.mrWrite d t gen m addr b) := by
  unfold Dev.mrWrite
  with_reducible repeat' first | assumption | decide | rfl | refine Rel.step (by apply rel_Dev_discard) ?_ ?_ | refine Rel.step (by apply rel_Dev_hbmWrite) ?_ ?_ | refine Rel.step (by apply rel_Dev_tollAdd) ?_ ?_ | refine Rel.step (by apply rel_Dev_tenWrite) ?_ ?_ | refine Rel.ite ?_ ?_ | split | intro _ | dsimp only

theorem rel_Dev_setNvmf (d : Dev) (c : Nat) (q : Nvmf) : Rel 67108864 d (Dev.setNvmf d c q) := by
  unfold Dev.setNvmf
  with_reducible repeat' first | assumption | decide | rfl | refine Rel.step (by apply rel_Dev_setSto) ?_ ?_ | split | intro _ | dsimp only

theorem rel_Dev_nvWrite (d : Dev) (t : Nat) (rkey : Nat) (addr : Nat) (b : List Byte) : OptRel 67108864 d (Dev.nvWrite d t rkey addr b) := by
  unfold Dev.nvWrite
  with_reducible repeat' first | assumption | decide | rfl | refine Rel.getD ?_ ?_ | exact OptRel.none | refine OptRel.some ?_ | refine OptRel.ite ?_ ?_ | refine OptRel.mapD (fun _ => ?_) ?_ | refine OptRel.map (fun _ => ?_) | refine OptRel.bindD (fun _ => ?_) ?_ | refine OptRel.bind (fun _ => ?_) | refine Rel.step (by apply rel_Dev_setNvmf) ?_ ?_ | refine Rel.ite ?_ ?_ | split | intro _ | dsimp only

theorem rel_Dev_setQp (d : Dev) (c : Nat) (q : Qp) : Rel 67108864 d (Dev.setQp d c q) := by
  unfold Dev.setQp
  with_reducible repeat' first | assumption | decide | rfl | refine Rel.step (by apply rel_Dev_setSto) ?_ ?_ | split | intro _ | dsimp only

theorem rel_Dev_setTcp (d : Dev) (c : Nat) (q : Tcp) : Rel 67108864 d (Dev.setTcp d c q) := by
  unfold Dev.setTcp
  with_reducible repeat' first | assumption | decide | rfl | refine Rel.step (by apply rel_Dev_setSto) ?_ ?_ | split | intro _ | dsimp only

theorem rel_Dev_stoEnd (d : Dev) (q : Nat) (pos : Nat) (ctx : Nat) (st : Nat) (det : Nat) (len : Nat) (d2 : Dword) : Rel 32768 d (Dev.stoEnd d q pos ctx st det len d2) := by
  unfold Dev.stoEnd
  with_reducible repeat' first | assumption | decide | rfl | refine Rel.step (by apply rel_Dev_jobEnd) ?_ ?_ | split | intro _ | dsimp only

end Sys2Proof.Laws
end

