-- ==== Sys2Proof/Laws/Frames/Roce.lean ====
section
/-! SUPPORT. What each function of Machine/Roce.lean may change. -/

set_option linter.unusedTactic false
set_option linter.unreachableTactic false

namespace Sys2Proof.Laws

open Sys2Proof Sys2Proof.Machine

theorem rel_Dev_ackedTo (d : Dev) (c : Nat) (psn : Nat) : Rel 67141632 d (Dev.ackedTo d c psn) := by
  unfold Dev.ackedTo
  with_reducible repeat' first | assumption | decide | rfl | refine Rel.foldl (fun _ _ => ?_) ?_ | refine Rel.foldl1 (fun _ _ => ?_) ?_ | refine Rel.foldl2 (fun _ _ => ?_) ?_ | refine Rel.elim ?_ (fun _ => ?_) | refine Rel.step (by apply rel_Dev_stoEnd) ?_ ?_ | refine Rel.step (by apply rel_Dev_setQp) ?_ ?_ | refine Rel.ite ?_ ?_ | split | intro _ | dsimp only

theorem rel_Dev_roceTake {m : Nat} {d : Dev} {tok : Nat} {k : Dev → Nat → Packet → List Byte → Dev} (hm : 4295524357 &&& m = 4295524357) (hf : ∀ d n p b, Rel m d (k d n p b)) : Rel m d (Dev.roceTake d tok k) := by
  unfold Dev.roceTake
  with_reducible repeat' first | assumption | decide | rfl | (apply Rel.trans; swap; apply hf) | refine Rel.step2 hm (by apply rel_Dev_dropPkt) ?_ ?_ | refine Rel.step2 hm (by apply rel_Dev_discard) ?_ ?_ | refine Rel.step2 hm (by apply rel_Dev_count) ?_ ?_ | refine Rel.ite ?_ ?_ | split | intro _ | dsimp only

theorem rel_Dev_cnpRx (d : Dev) (tok : Nat) : Rel 4362633221 d (Dev.cnpRx d tok) := by
  unfold Dev.cnpRx
  with_reducible repeat' first | assumption | decide | rfl | refine Rel.step (by apply rel_Dev_freePkt) ?_ ?_ | refine Rel.step (by apply rel_Dev_setQp) ?_ ?_ | refine Rel.step (by apply rel_Dev_count) ?_ ?_ | (apply Rel.trans; swap; apply rel_Dev_roceTake) | refine Rel.ite ?_ ?_ | split | intro _ | dsimp only

theorem rel_Dev_wqeFail (d : Dev) (c : Nat) (w : Wqe) (det : Nat) : Rel 32768 d (Dev.wqeFail d c w det) := by
  unfold Dev.wqeFail
  with_reducible repeat' first | assumption | decide | rfl | refine Rel.step (by apply rel_Dev_stoEnd) ?_ ?_ | refine Rel.ite ?_ ?_ | split | intro _ | dsimp only

theorem rel_Dev_qpFlush (d : Dev) (c : Nat) (q : Qp) : Rel 32768 d (Dev.qpFlush d c q) := by
  unfold Dev.qpFlush
  with_reducible repeat' first | assumption | decide | rfl | refine Rel.foldl (fun _ _ => ?_) ?_ | refine Rel.foldl1 (fun _ _ => ?_) ?_ | refine Rel.foldl2 (fun _ _ => ?_) ?_ | refine Rel.elim ?_ (fun _ => ?_) | refine Rel.step (by apply rel_Dev_stoEnd) ?_ ?_ | refine Rel.step (by apply rel_Dev_wqeFail) ?_ ?_ | split | intro _ | dsimp only

theorem rel_Dev_qpError (d : Dev) (c : Nat) (det : Nat) (first : Bool) : Rel 4362197377 d (Dev.qpError d c det first) := by
  unfold Dev.qpError
  with_reducible repeat' first | assumption | decide | rfl | refine Rel.step (by apply rel_Dev_tenEvent) ?_ ?_ | refine Rel.step (by apply rel_Dev_qpFlush) ?_ ?_ | refine Rel.step (by apply rel_Dev_wqeFail) ?_ ?_ | refine Rel.step (by apply rel_Dev_setQp) ?_ ?_ | refine Rel.ite ?_ ?_ | split | intro _ | dsimp only

theorem rel_Dev_lackTimeout (d : Dev) (c : Nat) : Rel 4362197377 d (Dev.lackTimeout d c) := by
  unfold Dev.lackTimeout
  with_reducible repeat' first | assumption | decide | rfl | refine Rel.step (by apply rel_Dev_qpError) ?_ ?_ | refine Rel.step (by apply rel_Dev_setQp) ?_ ?_ | refine Rel.ite ?_ ?_ | split | intro _ | dsimp only

theorem rel_Dev_roceSend (d : Dev) (c : Nat) (q : Qp) (dscp : Nat) (pkt : List Byte) : Rel 4 d (Dev.roceSend d c q dscp pkt) := by
  unfold Dev.roceSend
  with_reducible repeat' first | assumption | decide | rfl | refine Rel.step (by apply rel_Dev_ctxFrame) ?_ ?_ | refine Rel.ite ?_ ?_ | split | intro _ | dsimp only

theorem rel_Dev_qpNak (d : Dev) (c : Nat) (psn : Nat) (syn : Nat) : Rel 67108869 d (Dev.qpNak d c psn syn) := by
  unfold Dev.qpNak
  with_reducible repeat' first | assumption | decide | rfl | refine Rel.step (by apply rel_Dev_roceSend) ?_ ?_ | refine Rel.step (by apply rel_Dev_setQp) ?_ ?_ | refine Rel.step (by apply rel_Dev_count) ?_ ?_ | split | intro _ | dsimp only

theorem rel_Dev_msgDone (d : Dev) (c : Nat) (m : RxMsg) : Rel 4630562821 d (Dev.msgDone d c m) := by
  unfold Dev.msgDone
  with_reducible repeat' first | assumption | decide | rfl | refine Rel.step (by apply rel_Dev_jobPlace) ?_ ?_ | refine Rel.step (by apply rel_Dev_stoEnd) ?_ ?_ | refine Rel.step (by apply rel_Dev_qpNak) ?_ ?_ | refine Rel.ite ?_ ?_ | split | intro _ | dsimp only

theorem rel_Dev_msgsDone (d : Dev) (c : Nat) (x2 : Nat) : Rel 4630562821 d (Dev.msgsDone d c x2) := by
  induction x2 generalizing d c with
  | zero => unfold Dev.msgsDone; with_reducible repeat' first | assumption | decide | rfl | refine Rel.elim ?_ (fun _ => ?_) | refine Rel.step (by apply rel_Dev_setQp) ?_ ?_ | refine Rel.step (by apply rel_Dev_msgDone) ?_ ?_ | split | intro _ | dsimp only
  | succ n ih => unfold Dev.msgsDone; with_reducible repeat' first | assumption | decide | rfl | refine Rel.elim ?_ (fun _ => ?_) | refine Rel.step (by apply ih) ?_ ?_ | refine Rel.step (by apply rel_Dev_setQp) ?_ ?_ | refine Rel.step (by apply rel_Dev_msgDone) ?_ ?_ | split | intro _ | dsimp only

theorem rel_Dev_qpAck (d : Dev) (c : Nat) : Rel 67108868 d (Dev.qpAck d c) := by
  unfold Dev.qpAck
  with_reducible repeat' first | assumption | decide | rfl | refine Rel.step (by apply rel_Dev_roceSend) ?_ ?_ | refine Rel.step (by apply rel_Dev_setQp) ?_ ?_ | refine Rel.ite ?_ ?_ | split | intro _ | dsimp only

theorem rel_Dev_serveRead (d : Dev) (t : Nat) (r : RespRead) : Rel 1152 d (Dev.serveRead d t r).1 := by
  unfold Dev.serveRead
  with_reducible repeat' first | assumption | decide | rfl | refine Rel.step (by apply rel_Dev_engRead) ?_ ?_ | refine Rel.step (by apply rel_Dev_engRead'; assumption) ?_ ?_ | refine Rel.ite ?_ ?_ | split | intro _ | dsimp only
theorem rel_Dev_serveRead' {d : Dev} {t : Nat} {r : RespRead} {p0 : Dev} {p1 : RespRead} (h : Dev.serveRead d t r = (p0, p1)) : Rel 1152 d p0 := by
  have k := rel_Dev_serveRead d t r
  rw [h] at k
  exact k

theorem rel_Dev_serveReads (d : Dev) (t : Nat) (l : List RespRead) (n : Nat) : Rel 1152 d (Dev.serveReads d t l n).1 := by
  induction l generalizing d n with
  | nil => cases n <;> (unfold Dev.serveReads; exact Rel.refl _ _)
  | cons r rs ih =>
    cases n with
    | zero => unfold Dev.serveReads; exact Rel.refl _ _
    | succ n =>
      unfold Dev.serveReads
      exact Rel.trans (Rel.mono (rel_Dev_serveRead d t r) (by decide)) (ih (d.serveRead t r).1 n)
theorem rel_Dev_serveReads' {d : Dev} {t : Nat} {l : List RespRead} {n : Nat} {p0 : Dev} {p1 : List RespRead}
    (h : Dev.serveReads d t l n = (p0, p1)) : Rel 1152 d p0 := by
  have k := rel_Dev_serveReads d t l n
  rw [h] at k
  exact k

theorem rel_Dev_qpReads (d : Dev) (c : Nat) (q : Qp) : Rel 1157 d (Dev.qpReads d c q).1 := by
  unfold Dev.qpReads
  with_reducible repeat' first | assumption | decide | rfl | refine Rel.elim ?_ (fun _ => ?_) | refine Rel.step (by apply rel_Dev_roceSend) ?_ ?_ | refine Rel.step (by apply rel_Dev_serveReads) ?_ ?_ | refine Rel.step (by apply rel_Dev_serveReads'; assumption) ?_ ?_ | refine Rel.step (by apply rel_Dev_count) ?_ ?_ | refine Rel.ite ?_ ?_ | simp only [Nat.reduceAnd, Rel.u_hifReq] | split | intro _ | dsimp only
theorem rel_Dev_qpReads' {d : Dev} {c : Nat} {q : Qp} {p0 : Dev} {p1 : Qp} (h : Dev.qpReads d c q = (p0, p1)) : Rel 1157 d p0 := by
  have k := rel_Dev_qpReads d c q
  rw [h] at k
  exact k

theorem rel_Dev_qpSend (d : Dev) (c : Nat) (x2 : Nat) : Rel 67108869 d (Dev.qpSend d c x2) := by
  induction x2 generalizing d c with
  | zero => unfold Dev.qpSend; with_reducible repeat' first | assumption | decide | rfl | refine Rel.step (by apply rel_Dev_setQp) ?_ ?_ | refine Rel.step (by apply rel_Dev_roceSend) ?_ ?_ | refine Rel.step (by apply rel_Dev_countN) ?_ ?_ | refine Rel.ite ?_ ?_ | split | intro _ | dsimp only
  | succ n ih => unfold Dev.qpSend; with_reducible repeat' first | assumption | decide | rfl | refine Rel.step (by apply ih) ?_ ?_ | refine Rel.step (by apply rel_Dev_setQp) ?_ ?_ | refine Rel.step (by apply rel_Dev_roceSend) ?_ ?_ | refine Rel.step (by apply rel_Dev_countN) ?_ ?_ | refine Rel.ite ?_ ?_ | split | intro _ | dsimp only

theorem rel_Dev_qpRun (d : Dev) (c : Nat) : Rel 67110021 d (Dev.qpRun d c) := by
  unfold Dev.qpRun
  with_reducible repeat' first | assumption | decide | rfl | refine Rel.step (by apply rel_Dev_qpSend) ?_ ?_ | refine Rel.step (by apply rel_Dev_qpReads) ?_ ?_ | refine Rel.step (by apply rel_Dev_qpReads'; assumption) ?_ ?_ | refine Rel.step (by apply rel_Dev_setQp) ?_ ?_ | refine Rel.ite ?_ ?_ | split | intro _ | dsimp only

theorem rel_Dev_rqClean (d : Dev) (q : Nat) (x2 : Nat) : Rel 311296 d (Dev.rqClean d q x2) := by
  induction x2 generalizing d q with
  | zero => unfold Dev.rqClean; with_reducible repeat' first | assumption | decide | rfl | refine Rel.step (by apply rel_Dev_jobEnd) ?_ ?_ | refine Rel.step (by apply rel_Dev_startFront) ?_ ?_ | refine Rel.step (by apply rel_Dev_startFront'; assumption) ?_ ?_ | refine Rel.ite ?_ ?_ | split | intro _ | dsimp only
  | succ n ih => unfold Dev.rqClean; with_reducible repeat' first | assumption | decide | rfl | refine Rel.step (by apply ih) ?_ ?_ | refine Rel.step (by apply rel_Dev_jobEnd) ?_ ?_ | refine Rel.step (by apply rel_Dev_startFront) ?_ ?_ | refine Rel.step (by apply rel_Dev_startFront'; assumption) ?_ ?_ | refine Rel.ite ?_ ?_ | split | intro _ | dsimp only

theorem rel_Dev_rdmaRecv (d : Dev) (q : Nat) (pos : Nat) : Rel 311296 d (Dev.rdmaRecv d q pos) := by
  unfold Dev.rdmaRecv
  with_reducible repeat' first | assumption | decide | rfl | refine Rel.elim ?_ (fun _ => ?_) | refine Rel.step (by apply rel_Dev_jobEnd) ?_ ?_ | refine Rel.step (by apply rel_Dev_rqClean) ?_ ?_ | refine Rel.ite ?_ ?_ | split | intro _ | dsimp only

theorem rel_Dev_rdmaStart (d : Dev) (q : Nat) (pos : Nat) (op : Nat) : Rel 67141760 d (Dev.rdmaStart d q pos op) := by
  unfold Dev.rdmaStart
  with_reducible repeat' first | assumption | decide | rfl | refine Rel.foldl (fun _ _ => ?_) ?_ | refine Rel.foldl1 (fun _ _ => ?_) ?_ | refine Rel.foldl2 (fun _ _ => ?_) ?_ | refine Rel.step (by apply rel_Dev_jobEnd) ?_ ?_ | refine Rel.step (by apply rel_Dev_stoEnd) ?_ ?_ | refine Rel.step (by apply rel_Dev_queueRead) ?_ ?_ | refine Rel.step (by apply rel_Dev_jobPut) ?_ ?_ | refine Rel.step (by apply rel_Dev_setQp) ?_ ?_ | refine Rel.ite ?_ ?_ | split | intro _ | dsimp only

theorem rel_Dev_rnrExpire (d : Dev) (c : Nat) : Rel 4362197377 d (Dev.rnrExpire d c) := by
  unfold Dev.rnrExpire
  with_reducible repeat' first | assumption | decide | rfl | refine Rel.step (by apply rel_Dev_qpError) ?_ ?_ | refine Rel.step (by apply rel_Dev_setQp) ?_ ?_ | refine Rel.ite ?_ ?_ | split | intro _ | dsimp only

theorem rel_Dev_roceAck (d : Dev) (c : Nat) (p : List Byte) : Rel 4362197377 d (Dev.roceAck d c p) := by
  unfold Dev.roceAck
  with_reducible repeat' first | assumption | decide | rfl | refine Rel.foldl (fun _ _ => ?_) ?_ | refine Rel.foldl1 (fun _ _ => ?_) ?_ | refine Rel.foldl2 (fun _ _ => ?_) ?_ | refine Rel.elim ?_ (fun _ => ?_) | refine Rel.step (by apply rel_Dev_ackedTo) ?_ ?_ | refine Rel.step (by apply rel_Dev_qpError) ?_ ?_ | refine Rel.step (by apply rel_Dev_setQp) ?_ ?_ | refine Rel.ite ?_ ?_ | split | intro _ | dsimp only

theorem rel_Dev_roceReadData (d : Dev) (c : Nat) (p : List Byte) : Rel 4630562817 d (Dev.roceReadData d c p) := by
  unfold Dev.roceReadData
  with_reducible repeat' first | assumption | decide | rfl | refine Rel.step (by apply rel_Dev_ackedTo) ?_ ?_ | refine Rel.step (by apply rel_Dev_jobPlace) ?_ ?_ | refine Rel.step (by apply rel_Dev_stoEnd) ?_ ?_ | refine Rel.step (by apply rel_Dev_setQp) ?_ ?_ | refine Rel.ite ?_ ?_ | split | intro _ | dsimp only

theorem rel_Dev_takeRead (d : Dev) (t : Nat) (q : Qp) (psn : Nat) (p : List Byte) (fault : Bool) : TookRel 0 d (Dev.takeRead d t q psn p fault) := by
  unfold Dev.takeRead
  with_reducible repeat' first | assumption | decide | rfl | refine TookRel.ok ?_ | refine TookRel.nak ?_ | exact TookRel.skip | refine TookRel.ite ?_ ?_ | refine Rel.ite ?_ ?_ | split | intro _ | dsimp only

theorem rel_Dev_takeRecv (d : Dev) (t : Nat) (loc : Nat) : Rel 311296 d (Dev.takeRecv d t loc).1 := by
  unfold Dev.takeRecv
  with_reducible repeat' first | assumption | decide | rfl | refine Rel.step (by apply rel_Dev_rqClean) ?_ ?_ | refine Rel.step (by apply rel_Dev_startFront) ?_ ?_ | refine Rel.step (by apply rel_Dev_startFront'; assumption) ?_ ?_ | refine Rel.ite ?_ ?_ | split | intro _ | dsimp only
theorem rel_Dev_takeRecv' {d : Dev} {t : Nat} {loc : Nat} {p0 : Dev} {p1 : Option (Nat × Nat)} (h : Dev.takeRecv d t loc = (p0, p1)) : Rel 311296 d p0 := by
  have k := rel_Dev_takeRecv d t loc
  rw [h] at k
  exact k

theorem rel_Dev_takeStart {d : Dev} {c t : Nat} {q : Qp} {op psn : Nat} {p : List Byte} {p0 : Dev} {p1 : Option RxMsg} {p2 : Nat}
    (h : Dev.takeStart d c t q op psn p = some (p0, p1, p2)) : Rel 311296 d p0 := by
  unfold Dev.takeStart at h
  dsimp only at h
  split at h
  · split at h
    · cases h; exact Rel.refl _ _
    · split at h
      · cases h; exact Rel.refl _ _
      · split at h <;> rename_i h2 <;> cases h <;> exact rel_Dev_takeRecv' h2
  · rw [Option.map_eq_some_iff] at h
    obtain ⟨_, _, h⟩ := h
    cases h
    exact Rel.refl _ _

theorem rel_Dev_takePart (d : Dev) (c : Nat) (t : Nat) (gen : Word) (q : Qp) (op : Nat) (psn : Nat) (p : List Byte) (pad : Nat) (se : Bool) (fault : Bool) : TookRel 4630824963 d (Dev.takePart d c t gen q op psn p pad se fault) := by
  unfold Dev.takePart
  with_reducible repeat' first | assumption | decide | rfl | refine TookRel.ok ?_ | refine TookRel.nak ?_ | exact TookRel.skip | refine TookRel.ite ?_ ?_ | refine Rel.getD ?_ ?_ | exact OptRel.none | refine OptRel.some ?_ | refine OptRel.ite ?_ ?_ | refine OptRel.mapD (fun _ => ?_) ?_ | refine OptRel.map (fun _ => ?_) | refine OptRel.bindD (fun _ => ?_) ?_ | refine OptRel.bind (fun _ => ?_) | refine Rel.step (by apply rel_Dev_takeStart; assumption) ?_ ?_ | refine OptRel.step (by apply rel_Dev_nvWrite) ?_ ?_ | refine Rel.step (by apply OptRel.use; assumption; apply rel_Dev_nvWrite) ?_ ?_ | refine Rel.step (by apply rel_Dev_takeRecv) ?_ ?_ | refine Rel.step (by apply rel_Dev_takeRecv'; assumption) ?_ ?_ | refine Rel.step (by apply rel_Dev_mrWrite) ?_ ?_ | refine Rel.ite ?_ ?_ | split | intro _ | dsimp only

theorem rel_Dev_takeNext (d : Dev) (c : Nat) (t : Nat) (gen : Word) (q : Qp) (op : Nat) (psn : Nat) (p : List Byte) (fault : Bool) : TookRel 4630824963 d (Dev.takeNext d c t gen q op psn p fault) := by
  unfold Dev.takeNext
  with_reducible repeat' first | assumption | decide | rfl | refine TookRel.ok ?_ | refine TookRel.nak ?_ | exact TookRel.skip | refine TookRel.ite ?_ ?_ | refine TookRel.step (by apply rel_Dev_takeRead) ?_ ?_ | refine Rel.step (by apply TookRel.use1; assumption; apply rel_Dev_takeRead) ?_ ?_ | refine Rel.step (by apply TookRel.use2; assumption; apply rel_Dev_takeRead) ?_ ?_ | refine TookRel.step (by apply rel_Dev_takePart) ?_ ?_ | refine Rel.step (by apply TookRel.use1; assumption; apply rel_Dev_takePart) ?_ ?_ | refine Rel.step (by apply TookRel.use2; assumption; apply rel_Dev_takePart) ?_ ?_ | refine Rel.ite ?_ ?_ | split | intro _ | dsimp only

theorem rel_Dev_roceRequest (d : Dev) (c : Nat) (gen : Word) (p : List Byte) (fault : Bool) : Rel 4630824967 d (Dev.roceRequest d c gen p fault) := by
  unfold Dev.roceRequest
  with_reducible repeat' first | assumption | decide | rfl | refine Rel.elim ?_ (fun _ => ?_) | refine Rel.step (by apply TookRel.use1; assumption; apply rel_Dev_takeNext) ?_ ?_ | refine Rel.step (by apply TookRel.use2; assumption; apply rel_Dev_takeNext) ?_ ?_ | refine Rel.step (by apply rel_Dev_qpAck) ?_ ?_ | refine Rel.step (by apply rel_Dev_qpNak) ?_ ?_ | refine Rel.step (by apply TookRel.use1; assumption; apply rel_Dev_takeRead) ?_ ?_ | refine Rel.step (by apply TookRel.use2; assumption; apply rel_Dev_takeRead) ?_ ?_ | refine Rel.step (by apply rel_Dev_msgsDone) ?_ ?_ | refine Rel.step (by apply rel_Dev_setQp) ?_ ?_ | refine Rel.ite ?_ ?_ | split | intro _ | dsimp only

theorem rel_Dev_roceRx (d : Dev) (tok : Nat) (fault : Bool) : Rel 4631419271 d (Dev.roceRx d tok fault) := by
  unfold Dev.roceRx
  with_reducible repeat' first | assumption | decide | rfl | refine Rel.step (by apply rel_Dev_roceRequest) ?_ ?_ | refine Rel.step (by apply rel_Dev_freePkt) ?_ ?_ | refine Rel.step (by apply rel_Dev_qpNak) ?_ ?_ | refine Rel.step (by apply rel_Dev_roceReadData) ?_ ?_ | refine Rel.step (by apply rel_Dev_roceAck) ?_ ?_ | refine Rel.step (by apply rel_Dev_setQp) ?_ ?_ | (apply Rel.trans; swap; apply rel_Dev_roceTake) | refine Rel.ite ?_ ?_ | split | intro _ | dsimp only

theorem rel_Dev_srAckTimer (d : Dev) (c : Nat) : Rel 67108868 d (Dev.srAckTimer d c) := by
  unfold Dev.srAckTimer
  with_reducible repeat' first | assumption | decide | rfl | refine Rel.step (by apply rel_Dev_qpAck) ?_ ?_ | refine Rel.ite ?_ ?_ | split | intro _ | dsimp only

theorem rel_execCnpRx (tok : Nat) (s : State) {u : State} (h : execCnpRx tok s = .next u) : Rel 4362633221 s.dev u.dev := by
  refine run_rel (fun _ => ?_) h
  with_reducible repeat' first | assumption | decide | rfl | refine Rel.step (by apply rel_Dev_cnpRx) ?_ ?_ | intro _ | dsimp only

theorem rel_execLackTimeout (ctx : Nat) (s : State) {u : State} (h : execLackTimeout ctx s = .next u) : Rel 4362197377 s.dev u.dev := by
  refine run_rel (fun _ => ?_) h
  with_reducible repeat' first | assumption | decide | rfl | refine Rel.step (by apply rel_Dev_lackTimeout) ?_ ?_ | intro _ | dsimp only

theorem rel_execRdmaRead (q : Nat) (pos : Nat) (s : State) {u : State} (h : execRdmaRead q pos s = .next u) : Rel 67141760 s.dev u.dev := by
  refine run_rel (fun _ => ?_) h
  with_reducible repeat' first | assumption | decide | rfl | refine Rel.step (by apply rel_Dev_rdmaStart) ?_ ?_ | intro _ | dsimp only

theorem rel_execRdmaRecv (q : Nat) (pos : Nat) (s : State) {u : State} (h : execRdmaRecv q pos s = .next u) : Rel 311296 s.dev u.dev := by
  refine run_rel (fun _ => ?_) h
  with_reducible repeat' first | assumption | decide | rfl | refine Rel.step (by apply rel_Dev_rdmaRecv) ?_ ?_ | intro _ | dsimp only

theorem rel_execRdmaSend (q : Nat) (pos : Nat) (s : State) {u : State} (h : execRdmaSend q pos s = .next u) : Rel 67141760 s.dev u.dev := by
  refine run_rel (fun _ => ?_) h
  with_reducible repeat' first | assumption | decide | rfl | refine Rel.step (by apply rel_Dev_rdmaStart) ?_ ?_ | intro _ | dsimp only

theorem rel_execRdmaWrite (q : Nat) (pos : Nat) (s : State) {u : State} (h : execRdmaWrite q pos s = .next u) : Rel 67141760 s.dev u.dev := by
  refine run_rel (fun _ => ?_) h
  with_reducible repeat' first | assumption | decide | rfl | refine Rel.step (by apply rel_Dev_rdmaStart) ?_ ?_ | intro _ | dsimp only

theorem rel_execRnrTimerExpire (ctx : Nat) (s : State) {u : State} (h : execRnrTimerExpire ctx s = .next u) : Rel 4362197377 s.dev u.dev := by
  refine run_rel (fun _ => ?_) h
  with_reducible repeat' first | assumption | decide | rfl | refine Rel.step (by apply rel_Dev_rnrExpire) ?_ ?_ | intro _ | dsimp only

theorem rel_execRoceRx (tok : Nat) (pageFault : Bool) (s : State) {u : State} (h : execRoceRx tok pageFault s = .next u) : Rel 4631419271 s.dev u.dev := by
  refine run_rel (fun _ => ?_) h
  with_reducible repeat' first | assumption | decide | rfl | refine Rel.step (by apply rel_Dev_roceRx) ?_ ?_ | intro _ | dsimp only

theorem rel_execSrAckTimer (ctx : Nat) (s : State) {u : State} (h : execSrAckTimer ctx s = .next u) : Rel 67108868 s.dev u.dev := by
  refine run_rel (fun _ => ?_) h
  with_reducible repeat' first | assumption | decide | rfl | refine Rel.step (by apply rel_Dev_srAckTimer) ?_ ?_ | intro _ | dsimp only

end Sys2Proof.Laws
end

