-- ==== Sys2Proof/Laws/Frames/TcpEng.lean ====
section
/-! SUPPORT. What each function of Machine/TcpEng.lean may change. -/

set_option linter.unusedTactic false
set_option linter.unreachableTactic false

namespace Sys2Proof.Laws

open Sys2Proof Sys2Proof.Machine

theorem rel_Dev_rcIncrease (d : Dev) (c : Nat) : Rel 67108864 d (Dev.rcIncrease d c) := by
  unfold Dev.rcIncrease
  with_reducible repeat' first | assumption | decide | rfl | refine Rel.step (by apply rel_Dev_setTcp) ?_ ?_ | refine Rel.step (by apply rel_Dev_setQp) ?_ ?_ | refine Rel.ite ?_ ?_ | split | intro _ | dsimp only

theorem rel_Dev_tcpCut (d : Dev) (c : Nat) (f : Nat) : Rel 67108864 d (Dev.tcpCut d c f) := by
  unfold Dev.tcpCut
  with_reducible repeat' first | assumption | decide | rfl | refine Rel.step (by apply rel_Dev_setTcp) ?_ ?_ | split | intro _ | dsimp only

theorem rel_Dev_rcWindow {m : Nat} {d : Dev} {c : Nat} {send : Dev → Nat → Qp → Nat → Dev} (hm : 67108864 &&& m = 67108864) (hf : ∀ d n q x, Rel m d (send d n q x)) : Rel m d (Dev.rcWindow d c send) := by
  unfold Dev.rcWindow
  with_reducible repeat' first | assumption | decide | rfl | (apply Rel.trans; swap; apply hf) | refine Rel.step2 hm (by apply rel_Dev_tcpCut) ?_ ?_ | refine Rel.step2 hm (by apply rel_Dev_setTcp) ?_ ?_ | refine Rel.step2 hm (by apply rel_Dev_setQp) ?_ ?_ | refine Rel.ite ?_ ?_ | split | intro _ | dsimp only

theorem rel_Dev_tcpSegment (d : Dev) (c : Nat) (x : Tcp) (seq : Nat) (pay : List Byte) : Rel 4 d (Dev.tcpSegment d c x seq pay) := by
  unfold Dev.tcpSegment
  with_reducible repeat' first | assumption | decide | rfl | refine Rel.step (by apply rel_Dev_ctxFrame) ?_ ?_ | refine Rel.ite ?_ ?_ | split | intro _ | dsimp only

theorem rel_Dev_tcpResend (d : Dev) (c : Nat) : Rel 67108869 d (Dev.tcpResend d c) := by
  unfold Dev.tcpResend
  with_reducible repeat' first | assumption | decide | rfl | refine Rel.step (by apply rel_Dev_tcpSegment) ?_ ?_ | refine Rel.step (by apply rel_Dev_setTcp) ?_ ?_ | refine Rel.step (by apply rel_Dev_count) ?_ ?_ | refine Rel.ite ?_ ?_ | split | intro _ | dsimp only

theorem rel_Dev_tcpAck (d : Dev) (c : Nat) (x : Tcp) (ack : Nat) (wnd : Nat) (ece : Bool) (pure : Bool) : Rel 67108869 d (Dev.tcpAck d c x ack wnd ece pure) := by
  unfold Dev.tcpAck
  with_reducible repeat' first | assumption | decide | rfl | refine Rel.step (by apply rel_Dev_tcpCut) ?_ ?_ | refine Rel.step (by apply rel_Dev_tcpResend) ?_ ?_ | refine Rel.step (by apply rel_Dev_setTcp) ?_ ?_ | refine Rel.ite ?_ ?_ | split | intro _ | dsimp only

theorem rel_Dev_tcpError (d : Dev) (c : Nat) : Rel 4362164609 d (Dev.tcpError d c) := by
  unfold Dev.tcpError
  with_reducible repeat' first | assumption | decide | rfl | refine Rel.step (by apply rel_Dev_tenEvent) ?_ ?_ | refine Rel.step (by apply rel_Dev_setTcp) ?_ ?_ | refine Rel.ite ?_ ?_ | split | intro _ | dsimp only

theorem rel_Dev_tlsTake (d : Dev) (c : Nat) (x2 : Nat) : Rel 4395719041 d (Dev.tlsTake d c x2) := by
  induction x2 generalizing d c with
  | zero => unfold Dev.tlsTake; with_reducible repeat' first | assumption | decide | rfl | refine Rel.step (by apply rel_Dev_cryUsed) ?_ ?_ | refine Rel.step (by apply rel_Dev_setTcp) ?_ ?_ | refine Rel.step (by apply rel_Dev_tagFail) ?_ ?_ | refine Rel.step (by apply rel_Dev_count) ?_ ?_ | refine Rel.step (by apply rel_Dev_tcpError) ?_ ?_ | refine Rel.ite ?_ ?_ | split | intro _ | dsimp only
  | succ n ih => unfold Dev.tlsTake; with_reducible repeat' first | assumption | decide | rfl | refine Rel.step (by apply ih) ?_ ?_ | refine Rel.step (by apply rel_Dev_cryUsed) ?_ ?_ | refine Rel.step (by apply rel_Dev_setTcp) ?_ ?_ | refine Rel.step (by apply rel_Dev_tagFail) ?_ ?_ | refine Rel.step (by apply rel_Dev_count) ?_ ?_ | refine Rel.step (by apply rel_Dev_tcpError) ?_ ?_ | refine Rel.ite ?_ ?_ | split | intro _ | dsimp only

theorem rel_Dev_tcpPlain (d : Dev) (c : Nat) : Rel 4395719041 d (Dev.tcpPlain d c) := by
  unfold Dev.tcpPlain
  with_reducible repeat' first | assumption | decide | rfl | refine Rel.step (by apply rel_Dev_tlsTake) ?_ ?_ | refine Rel.step (by apply rel_Dev_setTcp) ?_ ?_ | refine Rel.ite ?_ ?_ | split | intro _ | dsimp only

theorem rel_Dev_tcpPut (d : Dev) (c : Nat) (b : List Byte) : Rel 67108864 d (Dev.tcpPut d c b) := by
  unfold Dev.tcpPut
  with_reducible repeat' first | assumption | decide | rfl | refine Rel.step (by apply rel_Dev_setTcp) ?_ ?_ | refine Rel.ite ?_ ?_ | split | intro _ | dsimp only

theorem rel_Dev_tcpRto (d : Dev) (c : Nat) : Rel 4362164613 d (Dev.tcpRto d c) := by
  unfold Dev.tcpRto
  with_reducible repeat' first | assumption | decide | rfl | refine Rel.step (by apply rel_Dev_tcpCut) ?_ ?_ | refine Rel.step (by apply rel_Dev_tcpResend) ?_ ?_ | refine Rel.step (by apply rel_Dev_tcpError) ?_ ?_ | refine Rel.step (by apply rel_Dev_setTcp) ?_ ?_ | refine Rel.ite ?_ ?_ | split | intro _ | dsimp only

theorem rel_Dev_tcpTake (d : Dev) (tok : Nat) (c : Nat) (x : Tcp) (p : Packet) : Rel 4396243333 d (Dev.tcpTake d tok c x p) := by
  unfold Dev.tcpTake
  with_reducible repeat' first | assumption | decide | rfl | refine Rel.step (by apply rel_Dev_tcpAck) ?_ ?_ | refine Rel.step (by apply rel_Dev_tcpSegment) ?_ ?_ | refine Rel.step (by apply rel_Dev_tcpPlain) ?_ ?_ | refine Rel.step (by apply rel_Dev_freePkt) ?_ ?_ | refine Rel.step (by apply rel_Dev_setTcp) ?_ ?_ | refine Rel.ite ?_ ?_ | split | intro _ | dsimp only

theorem rel_Dev_tcpRx (d : Dev) (tok : Nat) : Rel 4396276109 d (Dev.tcpRx d tok) := by
  unfold Dev.tcpRx
  with_reducible repeat' first | assumption | decide | rfl | refine Rel.step (by apply rel_Dev_dropPkt) ?_ ?_ | refine Rel.step (by apply rel_Dev_toExcRing) ?_ ?_ | refine Rel.step (by apply rel_Dev_tcpTake) ?_ ?_ | refine Rel.step (by apply rel_Dev_discard) ?_ ?_ | refine Rel.step (by apply rel_Dev_tcpError) ?_ ?_ | refine Rel.step (by apply rel_Dev_count) ?_ ?_ | refine Rel.ite ?_ ?_ | split | intro _ | dsimp only

theorem rel_Dev_tcpSend (d : Dev) (c : Nat) (x2 : Nat) : Rel 67108868 d (Dev.tcpSend d c x2) := by
  induction x2 generalizing d c with
  | zero => unfold Dev.tcpSend; with_reducible repeat' first | assumption | decide | rfl | refine Rel.step (by apply rel_Dev_tcpSegment) ?_ ?_ | refine Rel.step (by apply rel_Dev_setTcp) ?_ ?_ | refine Rel.ite ?_ ?_ | split | intro _ | dsimp only
  | succ n ih => unfold Dev.tcpSend; with_reducible repeat' first | assumption | decide | rfl | refine Rel.step (by apply ih) ?_ ?_ | refine Rel.step (by apply rel_Dev_tcpSegment) ?_ ?_ | refine Rel.step (by apply rel_Dev_setTcp) ?_ ?_ | refine Rel.ite ?_ ?_ | split | intro _ | dsimp only

theorem rel_Dev_tlsPut (d : Dev) (c : Nat) (k : Nat) (x3 : Nat) (x4 : List Byte) : Rel 4395719041 d (Dev.tlsPut d c k x3 x4) := by
  induction x3 generalizing d c k x4 with
  | zero => unfold Dev.tlsPut; with_reducible repeat' first | assumption | decide | rfl | refine Rel.step (by apply rel_Dev_cryUsed) ?_ ?_ | refine Rel.step (by apply rel_Dev_tcpPut) ?_ ?_ | refine Rel.step (by apply rel_Dev_tcpError) ?_ ?_ | refine Rel.ite ?_ ?_ | split | intro _ | dsimp only
  | succ n ih => unfold Dev.tlsPut; with_reducible repeat' first | assumption | decide | rfl | refine Rel.step (by apply ih) ?_ ?_ | refine Rel.step (by apply rel_Dev_cryUsed) ?_ ?_ | refine Rel.step (by apply rel_Dev_tcpPut) ?_ ?_ | refine Rel.step (by apply rel_Dev_tcpError) ?_ ?_ | refine Rel.ite ?_ ?_ | split | intro _ | dsimp only

theorem rel_Dev_tcpWrite (d : Dev) (c : Nat) (b : List Byte) : Rel 4395719041 d (Dev.tcpWrite d c b) := by
  unfold Dev.tcpWrite
  with_reducible repeat' first | assumption | decide | rfl | refine Rel.step (by apply rel_Dev_tlsPut) ?_ ?_ | refine Rel.step (by apply rel_Dev_tcpPut) ?_ ?_ | refine Rel.ite ?_ ?_ | split | intro _ | dsimp only

theorem rel_execRcIncrease (ctx : Nat) (s : State) {u : State} (h : execRcIncrease ctx s = .next u) : Rel 67108864 s.dev u.dev := by
  refine run_rel (fun _ => ?_) h
  with_reducible repeat' first | assumption | decide | rfl | refine Rel.step (by apply rel_Dev_rcIncrease) ?_ ?_ | intro _ | dsimp only

theorem rel_execTcpRto (ctx : Nat) (s : State) {u : State} (h : execTcpRto ctx s = .next u) : Rel 4362164613 s.dev u.dev := by
  refine run_rel (fun _ => ?_) h
  with_reducible repeat' first | assumption | decide | rfl | refine Rel.step (by apply rel_Dev_tcpRto) ?_ ?_ | intro _ | dsimp only

theorem rel_execTcpRx (tok : Nat) (s : State) {u : State} (h : execTcpRx tok s = .next u) : Rel 4396276109 s.dev u.dev := by
  refine run_rel (fun _ => ?_) h
  with_reducible repeat' first | assumption | decide | rfl | refine Rel.step (by apply rel_Dev_tcpRx) ?_ ?_ | intro _ | dsimp only

end Sys2Proof.Laws
end

