-- ==== Sys2Proof/Laws/Frames/NvmeOf.lean ====
section
/-! SUPPORT. What each function of Machine/NvmeOf.lean may change. -/

set_option linter.unusedTactic false
set_option linter.unreachableTactic false

namespace Sys2Proof.Laws

open Sys2Proof Sys2Proof.Machine

theorem rel_Dev_blkJobEnd (d : Dev) (c : Nat) (b : BlkCmd) (q : Nat) (pos : Nat) : Rel 4563453953 d (Dev.blkJobEnd d c b q pos) := by
  unfold Dev.blkJobEnd
  with_reducible repeat' first | assumption | decide | rfl | refine Rel.step (by apply rel_Dev_jobPlace) ?_ ?_ | refine Rel.step (by apply rel_Dev_stoEnd) ?_ ?_ | refine Rel.ite ?_ ?_ | split | intro _ | dsimp only

theorem rel_Dev_nvSubmit (d : Dev) (c : Nat) (b : BlkCmd) : Rel 67108864 d (Dev.nvSubmit d c b) := by
  unfold Dev.nvSubmit
  with_reducible repeat' first | assumption | decide | rfl | refine Rel.step (by apply rel_Dev_setNvmf) ?_ ?_ | split | intro _ | dsimp only

theorem rel_Dev_blkStart (d : Dev) (q : Nat) (pos : Nat) (op : Nat) : Rel 67141760 d (Dev.blkStart d q pos op) := by
  unfold Dev.blkStart
  with_reducible repeat' first | assumption | decide | rfl | refine Rel.foldl (fun _ _ => ?_) ?_ | refine Rel.foldl1 (fun _ _ => ?_) ?_ | refine Rel.foldl2 (fun _ _ => ?_) ?_ | refine Rel.step (by apply rel_Dev_jobEnd) ?_ ?_ | refine Rel.step (by apply rel_Dev_stoEnd) ?_ ?_ | refine Rel.step (by apply rel_Dev_queueRead) ?_ ?_ | refine Rel.step (by apply rel_Dev_jobPut) ?_ ?_ | refine Rel.step (by apply rel_Dev_nvSubmit) ?_ ?_ | refine Rel.ite ?_ ?_ | split | intro _ | dsimp only

theorem rel_Dev_blkWrites (d : Dev) : Rel 67141632 d (Dev.blkWrites d) := by
  unfold Dev.blkWrites
  with_reducible repeat' first | assumption | decide | rfl | refine Rel.foldl (fun _ _ => ?_) ?_ | refine Rel.foldl1 (fun _ _ => ?_) ?_ | refine Rel.foldl2 (fun _ _ => ?_) ?_ | refine Rel.step (by apply rel_Dev_stoEnd) ?_ ?_ | refine Rel.step (by apply rel_Dev_jobPut) ?_ ?_ | refine Rel.step (by apply rel_Dev_nvSubmit) ?_ ?_ | refine Rel.ite ?_ ?_ | split | intro _ | dsimp only

theorem rel_Dev_cnpSend (d : Dev) (c : Nat) (q : Qp) (f : Nat) : Rel 5 d (Dev.cnpSend d c q f) := by
  unfold Dev.cnpSend
  with_reducible repeat' first | assumption | decide | rfl | refine Rel.step (by apply rel_Dev_roceSend) ?_ ?_ | refine Rel.step (by apply rel_Dev_count) ?_ ?_ | split | intro _ | dsimp only

theorem rel_Dev_tgtArrive (d : Dev) (c : Nat) (body : List Byte) (data : List Byte) : Rel 67108864 d (Dev.tgtArrive d c body data) := by
  unfold Dev.tgtArrive
  with_reducible repeat' first | assumption | decide | rfl | refine Rel.step (by apply rel_Dev_setNvmf) ?_ ?_ | split | intro _ | dsimp only

theorem rel_Dev_nvResponse (d : Dev) (c : Nat) (cqe : List Byte) : Rel 67108864 d (Dev.nvResponse d c cqe) := by
  unfold Dev.nvResponse
  with_reducible repeat' first | assumption | decide | rfl | refine Rel.step (by apply rel_Dev_setNvmf) ?_ ?_ | split | intro _ | dsimp only

theorem rel_Dev_nvCapsules (d : Dev) (c : Nat) (x2 : Nat) : Rel 67108864 d (Dev.nvCapsules d c x2) := by
  induction x2 generalizing d c with
  | zero => unfold Dev.nvCapsules; with_reducible repeat' first | assumption | decide | rfl | refine Rel.elim ?_ (fun _ => ?_) | refine Rel.step (by apply rel_Dev_tgtArrive) ?_ ?_ | refine Rel.step (by apply rel_Dev_setQp) ?_ ?_ | refine Rel.step (by apply rel_Dev_nvResponse) ?_ ?_ | refine Rel.ite ?_ ?_ | split | intro _ | dsimp only
  | succ n ih => unfold Dev.nvCapsules; with_reducible repeat' first | assumption | decide | rfl | refine Rel.elim ?_ (fun _ => ?_) | refine Rel.step (by apply ih) ?_ ?_ | refine Rel.step (by apply rel_Dev_tgtArrive) ?_ ?_ | refine Rel.step (by apply rel_Dev_setQp) ?_ ?_ | refine Rel.step (by apply rel_Dev_nvResponse) ?_ ?_ | refine Rel.ite ?_ ?_ | split | intro _ | dsimp only

theorem rel_Dev_nvEnded (d : Dev) (c : Nat) : Rel 67108864 d (Dev.nvEnded d c).1 := by
  unfold Dev.nvEnded
  with_reducible repeat' first | assumption | decide | rfl | refine Rel.step (by apply rel_Dev_setNvmf) ?_ ?_ | refine Rel.ite ?_ ?_ | split | intro _ | dsimp only
theorem rel_Dev_nvEnded' {d : Dev} {c : Nat} {p0 : Dev} {p1 : List BlkCmd} (h : Dev.nvEnded d c = (p0, p1)) : Rel 67108864 d p0 := by
  have k := rel_Dev_nvEnded d c
  rw [h] at k
  exact k

theorem rel_Dev_nvSend (d : Dev) (c : Nat) (n : Nvmf) (type : Nat) (body : List Byte) (data : List Byte) : Rel 4395719041 d (Dev.nvSend d c n type body data) := by
  unfold Dev.nvSend
  with_reducible repeat' first | assumption | decide | rfl | refine Rel.step (by apply rel_Dev_tcpWrite) ?_ ?_ | refine Rel.step (by apply rel_Dev_setQp) ?_ ?_ | refine Rel.ite ?_ ?_ | split | intro _ | dsimp only

theorem rel_Dev_nvIssue (d : Dev) (c : Nat) (x2 : Nat) : Rel 4395719041 d (Dev.nvIssue d c x2) := by
  induction x2 generalizing d c with
  | zero => unfold Dev.nvIssue; with_reducible repeat' first | assumption | decide | rfl | refine Rel.step (by apply rel_Dev_setNvmf) ?_ ?_ | refine Rel.step (by apply rel_Dev_nvSend) ?_ ?_ | refine Rel.ite ?_ ?_ | split | intro _ | dsimp only
  | succ n ih => unfold Dev.nvIssue; with_reducible repeat' first | assumption | decide | rfl | refine Rel.step (by apply ih) ?_ ?_ | refine Rel.step (by apply rel_Dev_setNvmf) ?_ ?_ | refine Rel.step (by apply rel_Dev_nvSend) ?_ ?_ | refine Rel.ite ?_ ?_ | split | intro _ | dsimp only

theorem rel_Dev_nvR2t (d : Dev) (c : Nat) (n : Nvmf) (cid : Nat) (ttag : Nat) (off : Nat) (len : Nat) (b : BlkCmd) (x8 : Nat) : Rel 4395719041 d (Dev.nvR2t d c n cid ttag off len b x8) := by
  induction x8 generalizing d c n cid ttag off len b with
  | zero => unfold Dev.nvR2t; with_reducible repeat' first | assumption | decide | rfl | refine Rel.step (by apply rel_Dev_tcpWrite) ?_ ?_ | refine Rel.ite ?_ ?_ | split | intro _ | dsimp only
  | succ n ih => unfold Dev.nvR2t; with_reducible repeat' first | assumption | decide | rfl | refine Rel.step (by apply ih) ?_ ?_ | refine Rel.step (by apply rel_Dev_tcpWrite) ?_ ?_ | refine Rel.ite ?_ ?_ | split | intro _ | dsimp only

theorem rel_Dev_nvPduIn (d : Dev) (c : Nat) (n : Nvmf) (h : List Byte) (data : List Byte) : Rel 4395719041 d (Dev.nvPduIn d c n h data) := by
  unfold Dev.nvPduIn
  with_reducible repeat' first | assumption | decide | rfl | refine Rel.step (by apply rel_Dev_nvResponse) ?_ ?_ | refine Rel.step (by apply rel_Dev_tcpError) ?_ ?_ | refine Rel.step (by apply rel_Dev_tgtArrive) ?_ ?_ | refine Rel.step (by apply rel_Dev_setNvmf) ?_ ?_ | refine Rel.step (by apply rel_Dev_nvR2t) ?_ ?_ | refine Rel.ite ?_ ?_ | split | intro _ | dsimp only

theorem rel_Dev_nvPdus (d : Dev) (c : Nat) (x2 : Nat) : Rel 4395719041 d (Dev.nvPdus d c x2) := by
  induction x2 generalizing d c with
  | zero => unfold Dev.nvPdus; with_reducible repeat' first | assumption | decide | rfl | refine Rel.step (by apply rel_Dev_nvPduIn) ?_ ?_ | refine Rel.step (by apply rel_Dev_tcpError) ?_ ?_ | refine Rel.step (by apply rel_Dev_setTcp) ?_ ?_ | split | intro _ | dsimp only
  | succ n ih => unfold Dev.nvPdus; with_reducible repeat' first | assumption | decide | rfl | refine Rel.step (by apply ih) ?_ ?_ | refine Rel.step (by apply rel_Dev_nvPduIn) ?_ ?_ | refine Rel.step (by apply rel_Dev_tcpError) ?_ ?_ | refine Rel.step (by apply rel_Dev_setTcp) ?_ ?_ | split | intro _ | dsimp only

theorem rel_Dev_nvReads (d : Dev) (c : Nat) : Rel 67108864 d (Dev.nvReads d c) := by
  unfold Dev.nvReads
  with_reducible repeat' first | assumption | decide | rfl | refine Rel.foldl (fun _ _ => ?_) ?_ | refine Rel.foldl1 (fun _ _ => ?_) ?_ | refine Rel.foldl2 (fun _ _ => ?_) ?_ | refine Rel.step (by apply rel_Dev_setNvmf) ?_ ?_ | refine Rel.step (by apply rel_Dev_setQp) ?_ ?_ | split | intro _ | dsimp only

theorem rel_Dev_setSsd (d : Dev) (c : Nat) (x : Ssd) : Rel 67108864 d (Dev.setSsd d c x) := by
  unfold Dev.setSsd
  with_reducible repeat' first | assumption | decide | rfl | simp only [Nat.reduceAnd, Rel.u_sto] | split | intro _ | dsimp only

theorem rel_Dev_ssdIssue (d : Dev) (c : Nat) (cid : Nat) (n : Nvmf) (x : TgtCmd) (s : Ssd) : Rel 4362076162 d (Dev.ssdIssue d c cid n x s) := by
  unfold Dev.ssdIssue
  with_reducible repeat' first | assumption | decide | rfl | refine Rel.step (by apply rel_Dev_hbmWrite) ?_ ?_ | refine Rel.step (by apply rel_Dev_setNvmf) ?_ ?_ | refine Rel.step (by apply rel_Dev_setSsd) ?_ ?_ | refine Rel.step (by apply rel_Dev_pfWrite) ?_ ?_ | refine Rel.ite ?_ ?_ | split | intro _ | dsimp only

theorem rel_Dev_ssdIssueAll (d : Dev) (c : Nat) : Rel 4362076162 d (Dev.ssdIssueAll d c) := by
  unfold Dev.ssdIssueAll
  with_reducible repeat' first | assumption | decide | rfl | refine Rel.foldl (fun _ _ => ?_) ?_ | refine Rel.foldl1 (fun _ _ => ?_) ?_ | refine Rel.foldl2 (fun _ _ => ?_) ?_ | refine Rel.step (by apply rel_Dev_ssdIssue) ?_ ?_ | refine Rel.ite ?_ ?_ | split | intro _ | dsimp only

theorem rel_Dev_nvRun (d : Dev) (c : Nat) : Rel 4395719043 d (Dev.nvRun d c) := by
  unfold Dev.nvRun
  with_reducible repeat' first | assumption | decide | rfl | refine Rel.step (by apply rel_Dev_nvReads) ?_ ?_ | refine Rel.step (by apply rel_Dev_ssdIssueAll) ?_ ?_ | refine Rel.step (by apply rel_Dev_nvIssue) ?_ ?_ | refine Rel.step (by apply rel_Dev_nvCapsules) ?_ ?_ | refine Rel.step (by apply rel_Dev_setNvmf) ?_ ?_ | refine Rel.step (by apply rel_Dev_nvPdus) ?_ ?_ | refine Rel.ite ?_ ?_ | split | intro _ | dsimp only

theorem rel_Dev_tgtAnswer (d : Dev) (c : Nat) (cid : Nat) (dw0 : Nat) (st : Nat) (data : List Byte) : Rel 4395719041 d (Dev.tgtAnswer d c cid dw0 st data) := by
  unfold Dev.tgtAnswer
  with_reducible repeat' first | assumption | decide | rfl | refine Rel.step (by apply rel_Dev_tcpWrite) ?_ ?_ | refine Rel.step (by apply rel_Dev_nvSend) ?_ ?_ | refine Rel.step (by apply rel_Dev_setNvmf) ?_ ?_ | refine Rel.step (by apply rel_Dev_setQp) ?_ ?_ | refine Rel.ite ?_ ?_ | split | intro _ | dsimp only

theorem rel_Dev_ssdCqe (d : Dev) (c : Nat) : Rel 4395719041 d (Dev.ssdCqe d c) := by
  unfold Dev.ssdCqe
  with_reducible repeat' first | assumption | decide | rfl | refine Rel.step (by apply rel_Dev_tgtAnswer) ?_ ?_ | refine Rel.step (by apply rel_Dev_setSsd) ?_ ?_ | refine Rel.step (by apply rel_Dev_pfWrite) ?_ ?_ | refine Rel.ite ?_ ?_ | split | intro _ | dsimp only

theorem rel_Dev_ssdTimeout (d : Dev) (c : Nat) (cid : Nat) : Rel 4395719041 d (Dev.ssdTimeout d c cid) := by
  unfold Dev.ssdTimeout
  with_reducible repeat' first | assumption | decide | rfl | refine Rel.step (by apply rel_Dev_tgtAnswer) ?_ ?_ | refine Rel.step (by apply rel_Dev_tenEvent) ?_ ?_ | refine Rel.step (by apply rel_Dev_setSsd) ?_ ?_ | refine Rel.step (by apply rel_Dev_count) ?_ ?_ | split | intro _ | dsimp only

theorem rel_Dev_targetTake (d : Dev) (c : Nat) : Rel 4395719041 d (Dev.targetTake d c) := by
  unfold Dev.targetTake
  with_reducible repeat' first | assumption | decide | rfl | refine Rel.step (by apply rel_Dev_tcpWrite) ?_ ?_ | refine Rel.step (by apply rel_Dev_tgtAnswer) ?_ ?_ | refine Rel.step (by apply rel_Dev_setNvmf) ?_ ?_ | refine Rel.step (by apply rel_Dev_setSsd) ?_ ?_ | refine Rel.step (by apply rel_Dev_setQp) ?_ ?_ | refine Rel.ite ?_ ?_ | split | intro _ | dsimp only

theorem rel_execBlkFlush (q : Nat) (pos : Nat) (s : State) {u : State} (h : execBlkFlush q pos s = .next u) : Rel 67141760 s.dev u.dev := by
  refine run_rel (fun _ => ?_) h
  with_reducible repeat' first | assumption | decide | rfl | refine Rel.step (by apply rel_Dev_blkStart) ?_ ?_ | intro _ | dsimp only

theorem rel_execBlkRead (q : Nat) (pos : Nat) (s : State) {u : State} (h : execBlkRead q pos s = .next u) : Rel 67141760 s.dev u.dev := by
  refine run_rel (fun _ => ?_) h
  with_reducible repeat' first | assumption | decide | rfl | refine Rel.step (by apply rel_Dev_blkStart) ?_ ?_ | intro _ | dsimp only

theorem rel_execBlkWrite (q : Nat) (pos : Nat) (s : State) {u : State} (h : execBlkWrite q pos s = .next u) : Rel 67141760 s.dev u.dev := by
  refine run_rel (fun _ => ?_) h
  with_reducible repeat' first | assumption | decide | rfl | refine Rel.step (by apply rel_Dev_blkStart) ?_ ?_ | intro _ | dsimp only

theorem rel_execNvmfTargetCommand (ctx : Nat) (s : State) {u : State} (h : execNvmfTargetCommand ctx s = .next u) : Rel 4395719041 s.dev u.dev := by
  refine run_rel (fun _ => ?_) h
  with_reducible repeat' first | assumption | decide | rfl | refine Rel.step (by apply rel_Dev_targetTake) ?_ ?_ | intro _ | dsimp only

theorem rel_execRcWindow (ctx : Nat) (s : State) {u : State} (h : execRcWindow ctx s = .next u) : Rel 67108869 s.dev u.dev := by
  refine run_rel (fun _ => ?_) h
  with_reducible repeat' first | assumption | decide | rfl | refine Rel.step (by apply rel_Dev_cnpSend) ?_ ?_ | (apply Rel.trans; swap; apply rel_Dev_rcWindow) | intro _ | dsimp only

theorem rel_execSsdCqe (ctx : Nat) (s : State) {u : State} (h : execSsdCqe ctx s = .next u) : Rel 4395719041 s.dev u.dev := by
  refine run_rel (fun _ => ?_) h
  with_reducible repeat' first | assumption | decide | rfl | refine Rel.step (by apply rel_Dev_ssdCqe) ?_ ?_ | intro _ | dsimp only

theorem rel_execSsdTimeout (ctx : Nat) (cid : Nat) (s : State) {u : State} (h : execSsdTimeout ctx cid s = .next u) : Rel 4395719041 s.dev u.dev := by
  refine run_rel (fun _ => ?_) h
  with_reducible repeat' first | assumption | decide | rfl | refine Rel.step (by apply rel_Dev_ssdTimeout) ?_ ?_ | intro _ | dsimp only

end Sys2Proof.Laws
end

