-- ==== Sys2Proof/Laws/Frames/StoCmd.lean ====
section
/-! SUPPORT. What each function of Machine/StoCmd.lean may change. -/

set_option linter.unusedTactic false
set_option linter.unreachableTactic false

namespace Sys2Proof.Laws

open Sys2Proof Sys2Proof.Machine

theorem rel_Dev_setCtrl (d : Dev) (k : Nat) (x : NvCtrl) : Rel 67108864 d (Dev.setCtrl d k x) := by
  unfold Dev.setCtrl
  with_reducible repeat' first | assumption | decide | rfl | simp only [Nat.reduceAnd, Rel.u_sto] | split | intro _ | dsimp only

theorem rel_Dev_stoDestroy (d : Dev) (c : Nat) : Rel 67141632 d (Dev.stoDestroy d c) := by
  unfold Dev.stoDestroy
  with_reducible repeat' first | assumption | decide | rfl | refine Rel.foldl (fun _ _ => ?_) ?_ | refine Rel.foldl1 (fun _ _ => ?_) ?_ | refine Rel.foldl2 (fun _ _ => ?_) ?_ | refine Rel.step (by apply rel_Dev_stoEnd) ?_ ?_ | refine Rel.step (by apply rel_Dev_qpFlush) ?_ ?_ | simp only [Nat.reduceAnd, Rel.u_sto] | split | intro _ | dsimp only

theorem rel_stoConnModify (e : AdmEntry) (d : Dev) : AdmRel 4362197377 d (stoConnModify e d) := by
  unfold stoConnModify
  with_reducible repeat' first | assumption | decide | rfl | refine AdmRel.checks ?_ | exact AdmRel.fail | refine AdmRel.done ?_ | refine AdmRel.wait ?_ | refine Rel.step (by apply rel_Dev_stoDestroy) ?_ ?_ | refine Rel.step (by apply rel_Dev_qpError) ?_ ?_ | refine Rel.step (by apply rel_Dev_setQp) ?_ ?_ | refine Rel.ite ?_ ?_ | refine AdmRel.ite ?_ ?_ | split | intro _ | dsimp only

theorem rel_execStoConnModify (e : AdmEntry) (s : State) {u : State} (h : execStoConnModify e s = .next u) : Rel 4362328481 s.dev u.dev := by
  refine run_rel (fun _ => ?_) h
  with_reducible repeat' first | assumption | decide | rfl | (apply Rel.trans; swap; apply rel_Dev_admRun) | refine AdmRel.step (by apply rel_stoConnModify) ?_ ?_ | intro _ | dsimp only

theorem rel_stoConnQuery (e : AdmEntry) (d : Dev) : AdmRel 0 d (stoConnQuery e d) := by
  unfold stoConnQuery
  with_reducible repeat' first | assumption | decide | rfl | refine AdmRel.checks ?_ | exact AdmRel.fail | refine AdmRel.done ?_ | refine AdmRel.wait ?_ | refine AdmRel.ite ?_ ?_ | split | intro _ | dsimp only

theorem rel_execStoConnQuery (e : AdmEntry) (s : State) {u : State} (h : execStoConnQuery e s = .next u) : Rel 4295164320 s.dev u.dev := by
  refine run_rel (fun _ => ?_) h
  with_reducible repeat' first | assumption | decide | rfl | refine AdmRel.step (by apply rel_stoConnQuery) ?_ ?_ | (apply Rel.trans; swap; apply rel_Dev_admRun) | intro _ | dsimp only

theorem rel_stoConnSet (e : AdmEntry) (d : Dev) : AdmRel 67108864 d (stoConnSet e d) := by
  unfold stoConnSet
  with_reducible repeat' first | assumption | decide | rfl | refine AdmRel.checks ?_ | exact AdmRel.fail | refine AdmRel.done ?_ | refine AdmRel.wait ?_ | refine Rel.step (by apply rel_Dev_setSto) ?_ ?_ | refine AdmRel.ite ?_ ?_ | split | intro _ | dsimp only

theorem rel_execStoConnSet (e : AdmEntry) (s : State) {u : State} (h : execStoConnSet e s = .next u) : Rel 4362273184 s.dev u.dev := by
  refine run_rel (fun _ => ?_) h
  with_reducible repeat' first | assumption | decide | rfl | refine AdmRel.step (by apply rel_stoConnSet) ?_ ?_ | (apply Rel.trans; swap; apply rel_Dev_admRun) | intro _ | dsimp only

theorem rel_stoNvmeCtrl (e : AdmEntry) (d : Dev) : AdmRel 67108864 d (stoNvmeCtrl e d) := by
  unfold stoNvmeCtrl
  with_reducible repeat' first | assumption | decide | rfl | refine AdmRel.elim ?_ (fun _ => ?_) | refine AdmRel.checks ?_ | exact AdmRel.fail | refine AdmRel.done ?_ | refine AdmRel.wait ?_ | refine Rel.elim ?_ (fun _ => ?_) | refine Rel.step (by apply rel_Dev_setCtrl) ?_ ?_ | refine Rel.ite ?_ ?_ | refine AdmRel.ite ?_ ?_ | simp only [Nat.reduceAnd, Rel.u_sto] | split | intro _ | dsimp only

theorem rel_execStoNvmeCtrl (e : AdmEntry) (s : State) {u : State} (h : execStoNvmeCtrl e s = .next u) : Rel 4362273184 s.dev u.dev := by
  refine run_rel (fun _ => ?_) h
  with_reducible repeat' first | assumption | decide | rfl | (apply Rel.trans; swap; apply rel_Dev_admRun) | refine AdmRel.step (by apply rel_stoNvmeCtrl) ?_ ?_ | intro _ | dsimp only

theorem rel_stoNvmeNs (e : AdmEntry) (d : Dev) : AdmRel 67108864 d (stoNvmeNs e d) := by
  unfold stoNvmeNs
  with_reducible repeat' first | assumption | decide | rfl | refine AdmRel.elim ?_ (fun _ => ?_) | refine AdmRel.checks ?_ | exact AdmRel.fail | refine AdmRel.done ?_ | refine AdmRel.wait ?_ | refine Rel.elim ?_ (fun _ => ?_) | refine Rel.step (by apply rel_Dev_setCtrl) ?_ ?_ | refine AdmRel.ite ?_ ?_ | split | intro _ | dsimp only

theorem rel_execStoNvmeNs (e : AdmEntry) (s : State) {u : State} (h : execStoNvmeNs e s = .next u) : Rel 4362273184 s.dev u.dev := by
  refine run_rel (fun _ => ?_) h
  with_reducible repeat' first | assumption | decide | rfl | refine AdmRel.step (by apply rel_stoNvmeNs) ?_ ?_ | (apply Rel.trans; swap; apply rel_Dev_admRun) | intro _ | dsimp only

theorem rel_stoSsdAttach (e : AdmEntry) (d : Dev) : AdmRel 67108864 d (stoSsdAttach e d) := by
  unfold stoSsdAttach
  with_reducible repeat' first | assumption | decide | rfl | refine AdmRel.elim ?_ (fun _ => ?_) | refine AdmRel.checks ?_ | exact AdmRel.fail | refine AdmRel.done ?_ | refine AdmRel.wait ?_ | refine Rel.elim ?_ (fun _ => ?_) | refine Rel.step (by apply rel_Dev_setSsd) ?_ ?_ | refine AdmRel.ite ?_ ?_ | split | intro _ | dsimp only

theorem rel_execStoSsdAttach (e : AdmEntry) (s : State) {u : State} (h : execStoSsdAttach e s = .next u) : Rel 4362273184 s.dev u.dev := by
  refine run_rel (fun _ => ?_) h
  with_reducible repeat' first | assumption | decide | rfl | refine AdmRel.step (by apply rel_stoSsdAttach) ?_ ?_ | (apply Rel.trans; swap; apply rel_Dev_admRun) | intro _ | dsimp only

end Sys2Proof.Laws
end

