-- ==== Sys2Proof/Laws/Frames/NvmeCtl.lean ====
section
/-! SUPPORT. What each function of Machine/NvmeCtl.lean may change. -/

set_option linter.unusedTactic false
set_option linter.unreachableTactic false

namespace Sys2Proof.Laws

open Sys2Proof Sys2Proof.Machine

theorem rel_Dev_cachePut (d : Dev) (k : Nat) (ns : Nat) (n : NvNs) (slba : Nat) (data : List Byte) (fill : Bool) (dirty : Bool) : Rel 67108866 d (Dev.cachePut d k ns n slba data fill dirty) := by
  unfold Dev.cachePut
  with_reducible repeat' first | assumption | decide | rfl | refine Rel.foldl (fun _ _ => ?_) ?_ | refine Rel.foldl1 (fun _ _ => ?_) ?_ | refine Rel.foldl2 (fun _ _ => ?_) ?_ | refine Rel.step (by apply rel_Dev_hbmWrite) ?_ ?_ | refine Rel.step (by apply rel_Dev_setCtrl) ?_ ?_ | refine Rel.ite ?_ ?_ | split | intro _ | dsimp only

theorem rel_Dev_nvCqWrite (d : Dev) (k : Nat) (cq : Nat) (e : List Byte) : Rel 4362099073 d (Dev.nvCqWrite d k cq e) := by
  unfold Dev.nvCqWrite
  with_reducible repeat' first | assumption | decide | rfl | refine Rel.step (by apply rel_Dev_irqSignal) ?_ ?_ | refine Rel.step (by apply rel_Dev_setCtrl) ?_ ?_ | refine Rel.step (by apply rel_Dev_tenWrite) ?_ ?_ | refine Rel.ite ?_ ?_ | split | intro _ | dsimp only

theorem rel_Dev_nvDone (d : Dev) (k : Nat) (y : Nat) (cid : Nat) (dw0 : Nat) (st : Nat) : Rel 4362099073 d (Dev.nvDone d k y cid dw0 st) := by
  unfold Dev.nvDone
  with_reducible repeat' first | assumption | decide | rfl | refine Rel.step (by apply rel_Dev_setCtrl) ?_ ?_ | refine Rel.step (by apply rel_Dev_nvCqWrite) ?_ ?_ | refine Rel.ite ?_ ?_ | split | intro _ | dsimp only

theorem rel_Dev_nvTake {m : Nat} {d : Dev} {pf : Nat} {vf : Nat} {y : Nat} {op : Nat} {e : SqEntry} {f : Dev → Nat → NvCtrl → Dev} (hm : 4362099073 &&& m = 4362099073) (hf : ∀ d n c, Rel m d (f d n c)) : Rel m d (Dev.nvTake d pf vf y op e f) := by
  unfold Dev.nvTake
  with_reducible repeat' first | assumption | decide | rfl | (apply Rel.trans; swap; apply hf) | refine Rel.step2 hm (by apply rel_Dev_setCtrl) ?_ ?_ | refine Rel.step2 hm (by apply rel_Dev_nvDone) ?_ ?_ | refine Rel.ite ?_ ?_ | split | intro _ | dsimp only

theorem rel_Dev_nvAbort (d : Dev) (pf : Nat) (vf : Nat) (e : SqEntry) : Rel 4362099073 d (Dev.nvAbort d pf vf e) := by
  unfold Dev.nvAbort
  with_reducible repeat' first | assumption | decide | rfl | (apply Rel.trans; swap; apply rel_Dev_nvTake) | refine Rel.step (by apply rel_Dev_nvDone) ?_ ?_ | split | intro _ | dsimp only

theorem rel_Dev_nvAsync (d : Dev) (k : Nat) : Rel 4362099073 d (Dev.nvAsync d k) := by
  unfold Dev.nvAsync
  with_reducible repeat' first | assumption | decide | rfl | refine Rel.step (by apply rel_Dev_setCtrl) ?_ ?_ | refine Rel.step (by apply rel_Dev_nvDone) ?_ ?_ | refine Rel.ite ?_ ?_ | split | intro _ | dsimp only

theorem rel_Dev_nvAsyncReq (d : Dev) (pf : Nat) (vf : Nat) (e : SqEntry) : Rel 4362099073 d (Dev.nvAsyncReq d pf vf e) := by
  unfold Dev.nvAsyncReq
  with_reducible repeat' first | assumption | decide | rfl | (apply Rel.trans; swap; apply rel_Dev_nvTake) | refine Rel.step (by apply rel_Dev_nvAsync) ?_ ?_ | refine Rel.step (by apply rel_Dev_setCtrl) ?_ ?_ | split | intro _ | dsimp only

theorem rel_Dev_nvToTarget (d : Dev) (k : Nat) (y : Nat) (cid : Nat) (n : NvNs) (b : BlkCmd) (skip : Nat) : Rel 4362099073 d (Dev.nvToTarget d k y cid n b skip) := by
  unfold Dev.nvToTarget
  with_reducible repeat' first | assumption | decide | rfl | refine Rel.step (by apply rel_Dev_setCtrl) ?_ ?_ | refine Rel.step (by apply rel_Dev_nvSubmit) ?_ ?_ | refine Rel.step (by apply rel_Dev_nvDone) ?_ ?_ | split | intro _ | dsimp only

theorem rel_Dev_nvOut (d : Dev) (c : NvCtrl) (prps : List Nat) (b : List Byte) : Rel 4294969345 d (Dev.nvOut d c prps b) := by
  unfold Dev.nvOut
  with_reducible repeat' first | assumption | decide | rfl | refine Rel.foldl (fun _ _ => ?_) ?_ | refine Rel.foldl1 (fun _ _ => ?_) ?_ | refine Rel.foldl2 (fun _ _ => ?_) ?_ | refine Rel.step (by apply rel_Dev_tenWrite) ?_ ?_ | split | intro _ | dsimp only

theorem rel_Dev_nvPart (d : Dev) (b : BlkCmd) : Rel 4764752259 d (Dev.nvPart d b) := by
  unfold Dev.nvPart
  with_reducible repeat' first | assumption | decide | rfl | refine Rel.elim ?_ (fun _ => ?_) | refine Rel.step (by apply rel_Dev_cachePut) ?_ ?_ | refine Rel.step (by apply rel_Dev_nvToTarget) ?_ ?_ | refine Rel.step (by apply rel_Dev_tollAdd) ?_ ?_ | refine Rel.step (by apply rel_Dev_setCtrl) ?_ ?_ | refine Rel.step (by apply rel_Dev_nvOut) ?_ ?_ | refine Rel.step (by apply rel_Dev_nvDone) ?_ ?_ | refine Rel.step (by apply rel_Dev_count) ?_ ?_ | refine Rel.ite ?_ ?_ | simp only [Nat.reduceAnd, Rel.u_arc] | split | intro _ | dsimp only

theorem rel_Dev_nvCollect (d : Dev) (c : Nat) : Rel 4764785027 d (Dev.nvCollect d c) := by
  unfold Dev.nvCollect
  with_reducible repeat' first | assumption | decide | rfl | refine Rel.foldl (fun _ _ => ?_) ?_ | refine Rel.foldl1 (fun _ _ => ?_) ?_ | refine Rel.foldl2 (fun _ _ => ?_) ?_ | refine Rel.step (by apply rel_Dev_blkJobEnd) ?_ ?_ | refine Rel.step (by apply rel_Dev_nvPart) ?_ ?_ | refine Rel.step (by apply rel_Dev_nvEnded) ?_ ?_ | refine Rel.step (by apply rel_Dev_nvEnded'; assumption) ?_ ?_ | split | intro _ | dsimp only

theorem rel_Dev_nvCqDrain (d : Dev) (k : Nat) (cq : Nat) (x3 : Nat) : Rel 4362099073 d (Dev.nvCqDrain d k cq x3) := by
  induction x3 generalizing d k cq with
  | zero => unfold Dev.nvCqDrain; with_reducible repeat' first | assumption | decide | rfl | refine Rel.step (by apply rel_Dev_setCtrl) ?_ ?_ | refine Rel.step (by apply rel_Dev_nvCqWrite) ?_ ?_ | refine Rel.ite ?_ ?_ | split | intro _ | dsimp only
  | succ n ih => unfold Dev.nvCqDrain; with_reducible repeat' first | assumption | decide | rfl | refine Rel.step (by apply ih) ?_ ?_ | refine Rel.step (by apply rel_Dev_setCtrl) ?_ ?_ | refine Rel.step (by apply rel_Dev_nvCqWrite) ?_ ?_ | refine Rel.ite ?_ ?_ | split | intro _ | dsimp only

theorem rel_Dev_nvCqBell (d : Dev) (pf : Nat) (vf : Nat) (y : Nat) (v : Nat) : Rel 4362099073 d (Dev.nvCqBell d pf vf y v) := by
  unfold Dev.nvCqBell
  with_reducible repeat' first | assumption | decide | rfl | refine Rel.step (by apply rel_Dev_nvCqDrain) ?_ ?_ | refine Rel.step (by apply rel_Dev_setCtrl) ?_ ?_ | refine Rel.ite ?_ ?_ | split | intro _ | dsimp only

theorem rel_Dev_nvCreateCq (d : Dev) (pf : Nat) (vf : Nat) (e : SqEntry) : Rel 4362099073 d (Dev.nvCreateCq d pf vf e) := by
  unfold Dev.nvCreateCq
  with_reducible repeat' first | assumption | decide | rfl | (apply Rel.trans; swap; apply rel_Dev_nvTake) | refine Rel.step (by apply rel_Dev_setCtrl) ?_ ?_ | refine Rel.step (by apply rel_Dev_nvDone) ?_ ?_ | refine Rel.ite ?_ ?_ | split | intro _ | dsimp only

theorem rel_Dev_nvCreateSq (d : Dev) (pf : Nat) (vf : Nat) (e : SqEntry) : Rel 4362099073 d (Dev.nvCreateSq d pf vf e) := by
  unfold Dev.nvCreateSq
  with_reducible repeat' first | assumption | decide | rfl | (apply Rel.trans; swap; apply rel_Dev_nvTake) | refine Rel.step (by apply rel_Dev_setCtrl) ?_ ?_ | refine Rel.step (by apply rel_Dev_nvDone) ?_ ?_ | refine Rel.ite ?_ ?_ | split | intro _ | dsimp only

theorem rel_Dev_nvCtrlRun (d : Dev) (k : Nat) : Rel 4362099073 d (Dev.nvCtrlRun d k) := by
  unfold Dev.nvCtrlRun
  with_reducible repeat' first | assumption | decide | rfl | refine Rel.foldl (fun _ _ => ?_) ?_ | refine Rel.foldl1 (fun _ _ => ?_) ?_ | refine Rel.foldl2 (fun _ _ => ?_) ?_ | refine Rel.step (by apply rel_Dev_nvToTarget) ?_ ?_ | refine Rel.step (by apply rel_Dev_nvAsync) ?_ ?_ | refine Rel.step (by apply rel_Dev_setCtrl) ?_ ?_ | refine Rel.ite ?_ ?_ | split | intro _ | dsimp only

theorem rel_Dev_nvDataset (d : Dev) (pf : Nat) (vf : Nat) (y : Nat) (e : SqEntry) (data : List Byte) : Rel 4362099073 d (Dev.nvDataset d pf vf y e data) := by
  unfold Dev.nvDataset
  with_reducible repeat' first | assumption | decide | rfl | refine Rel.step (by apply rel_Dev_nvToTarget) ?_ ?_ | (apply Rel.trans; swap; apply rel_Dev_nvTake) | refine Rel.step (by apply rel_Dev_setCtrl) ?_ ?_ | refine Rel.step (by apply rel_Dev_nvDone) ?_ ?_ | refine Rel.ite ?_ ?_ | split | intro _ | dsimp only

theorem rel_Dev_nvDeleteCq (d : Dev) (pf : Nat) (vf : Nat) (e : SqEntry) : Rel 4362099073 d (Dev.nvDeleteCq d pf vf e) := by
  unfold Dev.nvDeleteCq
  with_reducible repeat' first | assumption | decide | rfl | (apply Rel.trans; swap; apply rel_Dev_nvTake) | refine Rel.step (by apply rel_Dev_setCtrl) ?_ ?_ | refine Rel.step (by apply rel_Dev_nvDone) ?_ ?_ | refine Rel.ite ?_ ?_ | split | intro _ | dsimp only

theorem rel_Dev_nvDeleteSq (d : Dev) (pf : Nat) (vf : Nat) (e : SqEntry) : Rel 4362099073 d (Dev.nvDeleteSq d pf vf e) := by
  unfold Dev.nvDeleteSq
  with_reducible repeat' first | assumption | decide | rfl | (apply Rel.trans; swap; apply rel_Dev_nvTake) | refine Rel.step (by apply rel_Dev_setCtrl) ?_ ?_ | refine Rel.step (by apply rel_Dev_nvDone) ?_ ?_ | refine Rel.ite ?_ ?_ | split | intro _ | dsimp only

theorem rel_Dev_nvEnable (d : Dev) (pf : Nat) (vf : Nat) (v : Word) : Rel 67108864 d (Dev.nvEnable d pf vf v) := by
  unfold Dev.nvEnable
  with_reducible repeat' first | assumption | decide | rfl | refine Rel.step (by apply rel_Dev_setCtrl) ?_ ?_ | refine Rel.ite ?_ ?_ | split | intro _ | dsimp only

theorem rel_Dev_writeBack (d : Dev) (k : Nat) (ns : Nat) (b : Nat) : Rel 67108864 d (Dev.writeBack d k ns b) := by
  unfold Dev.writeBack
  with_reducible repeat' first | assumption | decide | rfl | refine Rel.step (by apply rel_Dev_setCtrl) ?_ ?_ | refine Rel.step (by apply rel_Dev_nvSubmit) ?_ ?_ | refine Rel.ite ?_ ?_ | split | intro _ | dsimp only

theorem rel_Dev_nvFlush (d : Dev) (pf : Nat) (vf : Nat) (y : Nat) (e : SqEntry) : Rel 4362099073 d (Dev.nvFlush d pf vf y e) := by
  unfold Dev.nvFlush
  with_reducible repeat' first | assumption | decide | rfl | refine Rel.foldl (fun _ _ => ?_) ?_ | refine Rel.foldl1 (fun _ _ => ?_) ?_ | refine Rel.foldl2 (fun _ _ => ?_) ?_ | (apply Rel.trans; swap; apply rel_Dev_nvTake) | refine Rel.step (by apply rel_Dev_writeBack) ?_ ?_ | refine Rel.step (by apply rel_Dev_setCtrl) ?_ ?_ | refine Rel.step (by apply rel_Dev_nvDone) ?_ ?_ | split | intro _ | dsimp only

theorem rel_Dev_nvGetFeatures (d : Dev) (pf : Nat) (vf : Nat) (e : SqEntry) : Rel 4362099073 d (Dev.nvGetFeatures d pf vf e) := by
  unfold Dev.nvGetFeatures
  with_reducible repeat' first | assumption | decide | rfl | (apply Rel.trans; swap; apply rel_Dev_nvTake) | refine Rel.step (by apply rel_Dev_nvDone) ?_ ?_ | refine Rel.ite ?_ ?_ | split | intro _ | dsimp only

theorem rel_Dev_nvGetLog (d : Dev) (pf : Nat) (vf : Nat) (e : SqEntry) (prps : List Nat) : Rel 21541968257 d (Dev.nvGetLog d pf vf e prps) := by
  unfold Dev.nvGetLog
  with_reducible repeat' first | assumption | decide | rfl | (apply Rel.trans; swap; apply rel_Dev_nvTake) | refine Rel.step (by apply rel_Dev_setCtrl) ?_ ?_ | refine Rel.step (by apply rel_Dev_nvOut) ?_ ?_ | refine Rel.step (by apply rel_Dev_nvDone) ?_ ?_ | refine Rel.step (by apply rel_Dev_draw) ?_ ?_ | refine Rel.step (by apply rel_Dev_draw'; assumption) ?_ ?_ | refine Rel.ite ?_ ?_ | split | intro _ | dsimp only

theorem rel_Dev_nvIdentify (d : Dev) (pf : Nat) (vf : Nat) (e : SqEntry) (prps : List Nat) : Rel 4362099073 d (Dev.nvIdentify d pf vf e prps) := by
  unfold Dev.nvIdentify
  with_reducible repeat' first | assumption | decide | rfl | (apply Rel.trans; swap; apply rel_Dev_nvTake) | refine Rel.step (by apply rel_Dev_nvOut) ?_ ?_ | refine Rel.step (by apply rel_Dev_nvDone) ?_ ?_ | refine Rel.ite ?_ ?_ | split | intro _ | dsimp only

theorem rel_Dev_nvReadCmd (d : Dev) (pf : Nat) (vf : Nat) (y : Nat) (e : SqEntry) (prps : List Nat) : Rel 4630534529 d (Dev.nvReadCmd d pf vf y e prps) := by
  unfold Dev.nvReadCmd
  with_reducible repeat' first | assumption | decide | rfl | refine Rel.step (by apply rel_Dev_nvToTarget) ?_ ?_ | (apply Rel.trans; swap; apply rel_Dev_nvTake) | refine Rel.step (by apply rel_Dev_drawBytes) ?_ ?_ | refine Rel.step (by apply rel_Dev_tollAdd) ?_ ?_ | refine Rel.step (by apply rel_Dev_setCtrl) ?_ ?_ | refine Rel.step (by apply rel_Dev_nvOut) ?_ ?_ | refine Rel.step (by apply rel_Dev_nvDone) ?_ ?_ | refine Rel.ite ?_ ?_ | split | intro _ | dsimp only

theorem rel_Dev_nvSetFeatures (d : Dev) (pf : Nat) (vf : Nat) (e : SqEntry) : Rel 4362099073 d (Dev.nvSetFeatures d pf vf e) := by
  unfold Dev.nvSetFeatures
  with_reducible repeat' first | assumption | decide | rfl | (apply Rel.trans; swap; apply rel_Dev_nvTake) | refine Rel.step (by apply rel_Dev_setCtrl) ?_ ?_ | refine Rel.step (by apply rel_Dev_nvDone) ?_ ?_ | refine Rel.ite ?_ ?_ | split | intro _ | dsimp only

theorem rel_Dev_nvShutdown (d : Dev) (pf : Nat) (vf : Nat) (v : Word) : Rel 67108864 d (Dev.nvShutdown d pf vf v) := by
  unfold Dev.nvShutdown
  with_reducible repeat' first | assumption | decide | rfl | refine Rel.foldl (fun _ _ => ?_) ?_ | refine Rel.foldl1 (fun _ _ => ?_) ?_ | refine Rel.foldl2 (fun _ _ => ?_) ?_ | refine Rel.step (by apply rel_Dev_writeBack) ?_ ?_ | refine Rel.step (by apply rel_Dev_setCtrl) ?_ ?_ | refine Rel.ite ?_ ?_ | split | intro _ | dsimp only

theorem rel_Dev_nvSqBell (d : Dev) (pf : Nat) (vf : Nat) (y : Nat) (v : Nat) : Rel 67108864 d (Dev.nvSqBell d pf vf y v) := by
  unfold Dev.nvSqBell
  with_reducible repeat' first | assumption | decide | rfl | refine Rel.step (by apply rel_Dev_setCtrl) ?_ ?_ | refine Rel.ite ?_ ?_ | split | intro _ | dsimp only

theorem rel_Dev_nvWriteCmd (d : Dev) (pf : Nat) (vf : Nat) (y : Nat) (e : SqEntry) (data : List Byte) : Rel 4630534531 d (Dev.nvWriteCmd d pf vf y e data) := by
  unfold Dev.nvWriteCmd
  with_reducible repeat' first | assumption | decide | rfl | refine Rel.step (by apply rel_Dev_cachePut) ?_ ?_ | refine Rel.step (by apply rel_Dev_nvToTarget) ?_ ?_ | (apply Rel.trans; swap; apply rel_Dev_nvTake) | refine Rel.step (by apply rel_Dev_drawBytes) ?_ ?_ | refine Rel.step (by apply rel_Dev_tollAdd) ?_ ?_ | refine Rel.step (by apply rel_Dev_setCtrl) ?_ ?_ | refine Rel.step (by apply rel_Dev_nvDone) ?_ ?_ | refine Rel.ite ?_ ?_ | split | intro _ | dsimp only

theorem rel_Dev_nvZeroes (d : Dev) (pf : Nat) (vf : Nat) (y : Nat) (e : SqEntry) : Rel 4362099075 d (Dev.nvZeroes d pf vf y e) := by
  unfold Dev.nvZeroes
  with_reducible repeat' first | assumption | decide | rfl | refine Rel.step (by apply rel_Dev_cachePut) ?_ ?_ | refine Rel.step (by apply rel_Dev_nvToTarget) ?_ ?_ | (apply Rel.trans; swap; apply rel_Dev_nvTake) | refine Rel.step (by apply rel_Dev_setCtrl) ?_ ?_ | refine Rel.step (by apply rel_Dev_nvDone) ?_ ?_ | split | intro _ | dsimp only

theorem rel_Dev_stoTick (d : Dev) : Rel 4798406023 d (Dev.stoTick d) := by
  unfold Dev.stoTick
  with_reducible repeat' first | assumption | decide | rfl | refine Rel.foldl (fun _ _ => ?_) ?_ | refine Rel.foldl1 (fun _ _ => ?_) ?_ | refine Rel.foldl2 (fun _ _ => ?_) ?_ | refine Rel.step (by apply rel_Dev_nvPart) ?_ ?_ | refine Rel.step (by apply rel_Dev_nvCollect) ?_ ?_ | refine Rel.step (by apply rel_Dev_tcpSend) ?_ ?_ | refine Rel.step (by apply rel_Dev_nvRun) ?_ ?_ | refine Rel.step (by apply rel_Dev_blkWrites) ?_ ?_ | refine Rel.step (by apply rel_Dev_setTcp) ?_ ?_ | refine Rel.step (by apply rel_Dev_nvCtrlRun) ?_ ?_ | refine Rel.step (by apply rel_Dev_setQp) ?_ ?_ | refine Rel.step (by apply rel_Dev_qpRun) ?_ ?_ | simp only [Nat.reduceAnd, Rel.u_sto] | split | intro _ | dsimp only

theorem rel_execNvmeAbort (pf : Nat) (vf : Nat) (sqe : SqEntry) (s : State) {u : State} (h : execNvmeAbort pf vf sqe s = .next u) : Rel 4362099073 s.dev u.dev := by
  refine run_rel (fun _ => ?_) h
  with_reducible repeat' first | assumption | decide | rfl | refine Rel.step (by apply rel_Dev_nvAbort) ?_ ?_ | intro _ | dsimp only

theorem rel_execNvmeAsyncEventRequest (pf : Nat) (vf : Nat) (sqe : SqEntry) (s : State) {u : State} (h : execNvmeAsyncEventRequest pf vf sqe s = .next u) : Rel 4362099073 s.dev u.dev := by
  refine run_rel (fun _ => ?_) h
  with_reducible repeat' first | assumption | decide | rfl | refine Rel.step (by apply rel_Dev_nvAsyncReq) ?_ ?_ | intro _ | dsimp only

theorem rel_execNvmeCcEnable (pf : Nat) (vf : Nat) (value : Word) (s : State) {u : State} (h : execNvmeCcEnable pf vf value s = .next u) : Rel 67108864 s.dev u.dev := by
  refine run_rel (fun _ => ?_) h
  with_reducible repeat' first | assumption | decide | rfl | refine Rel.step (by apply rel_Dev_nvEnable) ?_ ?_ | intro _ | dsimp only

theorem rel_execNvmeCqDoorbell (pf : Nat) (vf : Nat) (y : Nat) (value : Nat) (s : State) {u : State} (h : execNvmeCqDoorbell pf vf y value s = .next u) : Rel 4362099073 s.dev u.dev := by
  refine run_rel (fun _ => ?_) h
  with_reducible repeat' first | assumption | decide | rfl | refine Rel.step (by apply rel_Dev_nvCqBell) ?_ ?_ | intro _ | dsimp only

theorem rel_execNvmeCreateIoCq (pf : Nat) (vf : Nat) (sqe : SqEntry) (s : State) {u : State} (h : execNvmeCreateIoCq pf vf sqe s = .next u) : Rel 4362099073 s.dev u.dev := by
  refine run_rel (fun _ => ?_) h
  with_reducible repeat' first | assumption | decide | rfl | refine Rel.step (by apply rel_Dev_nvCreateCq) ?_ ?_ | intro _ | dsimp only

theorem rel_execNvmeCreateIoSq (pf : Nat) (vf : Nat) (sqe : SqEntry) (s : State) {u : State} (h : execNvmeCreateIoSq pf vf sqe s = .next u) : Rel 4362099073 s.dev u.dev := by
  refine run_rel (fun _ => ?_) h
  with_reducible repeat' first | assumption | decide | rfl | refine Rel.step (by apply rel_Dev_nvCreateSq) ?_ ?_ | intro _ | dsimp only

theorem rel_execNvmeDatasetManagement (pf : Nat) (vf : Nat) (y : Nat) (sqe : SqEntry) (data : List Byte) (s : State) {u : State} (h : execNvmeDatasetManagement pf vf y sqe data s = .next u) : Rel 4362099073 s.dev u.dev := by
  refine run_rel (fun _ => ?_) h
  with_reducible repeat' first | assumption | decide | rfl | refine Rel.step (by apply rel_Dev_nvDataset) ?_ ?_ | intro _ | dsimp only

theorem rel_execNvmeDeleteIoCq (pf : Nat) (vf : Nat) (sqe : SqEntry) (s : State) {u : State} (h : execNvmeDeleteIoCq pf vf sqe s = .next u) : Rel 4362099073 s.dev u.dev := by
  refine run_rel (fun _ => ?_) h
  with_reducible repeat' first | assumption | decide | rfl | refine Rel.step (by apply rel_Dev_nvDeleteCq) ?_ ?_ | intro _ | dsimp only

theorem rel_execNvmeDeleteIoSq (pf : Nat) (vf : Nat) (sqe : SqEntry) (s : State) {u : State} (h : execNvmeDeleteIoSq pf vf sqe s = .next u) : Rel 4362099073 s.dev u.dev := by
  refine run_rel (fun _ => ?_) h
  with_reducible repeat' first | assumption | decide | rfl | refine Rel.step (by apply rel_Dev_nvDeleteSq) ?_ ?_ | intro _ | dsimp only

theorem rel_execNvmeFlush (pf : Nat) (vf : Nat) (y : Nat) (sqe : SqEntry) (s : State) {u : State} (h : execNvmeFlush pf vf y sqe s = .next u) : Rel 4362099073 s.dev u.dev := by
  refine run_rel (fun _ => ?_) h
  with_reducible repeat' first | assumption | decide | rfl | refine Rel.step (by apply rel_Dev_nvFlush) ?_ ?_ | intro _ | dsimp only

theorem rel_execNvmeGetFeatures (pf : Nat) (vf : Nat) (sqe : SqEntry) (s : State) {u : State} (h : execNvmeGetFeatures pf vf sqe s = .next u) : Rel 4362099073 s.dev u.dev := by
  refine run_rel (fun _ => ?_) h
  with_reducible repeat' first | assumption | decide | rfl | refine Rel.step (by apply rel_Dev_nvGetFeatures) ?_ ?_ | intro _ | dsimp only

theorem rel_execNvmeGetLogPage (pf : Nat) (vf : Nat) (sqe : SqEntry) (prps : List Nat) (s : State) {u : State} (h : execNvmeGetLogPage pf vf sqe prps s = .next u) : Rel 21541968257 s.dev u.dev := by
  refine run_rel (fun _ => ?_) h
  with_reducible repeat' first | assumption | decide | rfl | refine Rel.step (by apply rel_Dev_nvGetLog) ?_ ?_ | intro _ | dsimp only

theorem rel_execNvmeIdentify (pf : Nat) (vf : Nat) (sqe : SqEntry) (prps : List Nat) (s : State) {u : State} (h : execNvmeIdentify pf vf sqe prps s = .next u) : Rel 4362099073 s.dev u.dev := by
  refine run_rel (fun _ => ?_) h
  with_reducible repeat' first | assumption | decide | rfl | refine Rel.step (by apply rel_Dev_nvIdentify) ?_ ?_ | intro _ | dsimp only

theorem rel_execNvmeRead (pf : Nat) (vf : Nat) (y : Nat) (sqe : SqEntry) (prps : List Nat) (s : State) {u : State} (h : execNvmeRead pf vf y sqe prps s = .next u) : Rel 4630534529 s.dev u.dev := by
  refine run_rel (fun _ => ?_) h
  with_reducible repeat' first | assumption | decide | rfl | refine Rel.step (by apply rel_Dev_nvReadCmd) ?_ ?_ | intro _ | dsimp only

theorem rel_execNvmeSetFeatures (pf : Nat) (vf : Nat) (sqe : SqEntry) (s : State) {u : State} (h : execNvmeSetFeatures pf vf sqe s = .next u) : Rel 4362099073 s.dev u.dev := by
  refine run_rel (fun _ => ?_) h
  with_reducible repeat' first | assumption | decide | rfl | refine Rel.step (by apply rel_Dev_nvSetFeatures) ?_ ?_ | intro _ | dsimp only

theorem rel_execNvmeShutdown (pf : Nat) (vf : Nat) (value : Word) (s : State) {u : State} (h : execNvmeShutdown pf vf value s = .next u) : Rel 67108864 s.dev u.dev := by
  refine run_rel (fun _ => ?_) h
  with_reducible repeat' first | assumption | decide | rfl | refine Rel.step (by apply rel_Dev_nvShutdown) ?_ ?_ | intro _ | dsimp only

theorem rel_execNvmeSqDoorbell (pf : Nat) (vf : Nat) (y : Nat) (value : Nat) (s : State) {u : State} (h : execNvmeSqDoorbell pf vf y value s = .next u) : Rel 67108864 s.dev u.dev := by
  refine run_rel (fun _ => ?_) h
  with_reducible repeat' first | assumption | decide | rfl | refine Rel.step (by apply rel_Dev_nvSqBell) ?_ ?_ | intro _ | dsimp only

theorem rel_execNvmeWrite (pf : Nat) (vf : Nat) (y : Nat) (sqe : SqEntry) (data : List Byte) (s : State) {u : State} (h : execNvmeWrite pf vf y sqe data s = .next u) : Rel 4630534531 s.dev u.dev := by
  refine run_rel (fun _ => ?_) h
  with_reducible repeat' first | assumption | decide | rfl | refine Rel.step (by apply rel_Dev_nvWriteCmd) ?_ ?_ | intro _ | dsimp only

theorem rel_execNvmeWriteZeroes (pf : Nat) (vf : Nat) (y : Nat) (sqe : SqEntry) (s : State) {u : State} (h : execNvmeWriteZeroes pf vf y sqe s = .next u) : Rel 4362099075 s.dev u.dev := by
  refine run_rel (fun _ => ?_) h
  with_reducible repeat' first | assumption | decide | rfl | refine Rel.step (by apply rel_Dev_nvZeroes) ?_ ?_ | intro _ | dsimp only

theorem rel_execWbAgeExpire (pf : Nat) (vf : Nat) (ns : Nat) (blk : Nat) (s : State) {u : State} (h : execWbAgeExpire pf vf ns blk s = .next u) : Rel 67108864 s.dev u.dev := by
  refine run_rel (fun _ => ?_) h
  with_reducible repeat' first | assumption | decide | rfl | refine Rel.step (by apply rel_Dev_writeBack) ?_ ?_ | intro _ | dsimp only

end Sys2Proof.Laws
end

