-- ==== Sys2Proof/Laws/Frames/Archive.lean ====
section
/-! SUPPORT. What each function of Machine/Archive.lean may change. -/

set_option linter.unusedTactic false
set_option linter.unreachableTactic false

namespace Sys2Proof.Laws

open Sys2Proof Sys2Proof.Machine

theorem rel_Dev_setArc (d : Dev) (x : ArcPart) : Rel 134217728 d (Dev.setArc d x) := by
  unfold Dev.setArc
  with_reducible repeat' first | assumption | decide | rfl | simp only [Nat.reduceAnd, Rel.u_arc] | split | intro _ | dsimp only

theorem rel_Dev_arcSubmit (d : Dev) (w : ArcWork) (x : ArcTgt) (b : BlkCmd) : Rel 201326592 d (Dev.arcSubmit d w x b) := by
  unfold Dev.arcSubmit
  with_reducible repeat' first | assumption | decide | rfl | refine Rel.step (by apply rel_Dev_nvSubmit) ?_ ?_ | refine Rel.step (by apply rel_Dev_setArc) ?_ ?_ | split | intro _ | dsimp only

theorem rel_Dev_arcWrite (d : Dev) (w : ArcWork) (x : ArcTgt) (s : Nat) (what : Nat) (lba : Nat) (b : List Byte) : Rel 201326592 d (Dev.arcWrite d w x s what lba b) := by
  unfold Dev.arcWrite
  with_reducible repeat' first | assumption | decide | rfl | refine Rel.step (by apply rel_Dev_arcSubmit) ?_ ?_ | split | intro _ | dsimp only

theorem rel_Dev_setWork (d : Dev) (w : ArcWork) : Rel 134217728 d (Dev.setWork d w) := by
  unfold Dev.setWork
  with_reducible repeat' first | assumption | decide | rfl | refine Rel.step (by apply rel_Dev_setArc) ?_ ?_ | refine Rel.ite ?_ ?_ | split | intro _ | dsimp only

theorem rel_Dev_delWork (d : Dev) (id : Nat) : Rel 134217728 d (Dev.delWork d id) := by
  unfold Dev.delWork
  with_reducible repeat' first | assumption | decide | rfl | refine Rel.step (by apply rel_Dev_setArc) ?_ ?_ | split | intro _ | dsimp only

theorem rel_Dev_workEnd (d : Dev) (w : ArcWork) (st : Nat) (det : Nat) (bytes : Nat) (map : Nat) (d3 : Nat) : Rel 134250496 d (Dev.workEnd d w st det bytes map d3) := by
  unfold Dev.workEnd
  with_reducible repeat' first | assumption | decide | rfl | refine Rel.step (by apply rel_Dev_jobEnd) ?_ ?_ | refine Rel.step (by apply rel_Dev_setWork) ?_ ?_ | refine Rel.step (by apply rel_Dev_delWork) ?_ ?_ | refine Rel.ite ?_ ?_ | split | intro _ | dsimp only

theorem rel_Dev_manStart (d : Dev) (w : ArcWork) (x : ArcWr) : Rel 17683218432 d (Dev.manStart d w x) := by
  unfold Dev.manStart
  with_reducible repeat' first | assumption | decide | rfl | refine Rel.foldl (fun _ _ => ?_) ?_ | refine Rel.foldl1 (fun _ _ => ?_) ?_ | refine Rel.foldl2 (fun _ _ => ?_) ?_ | refine Rel.step (by apply rel_Dev_arcWrite) ?_ ?_ | refine Rel.step (by apply rel_Dev_setWork) ?_ ?_ | refine Rel.step (by apply rel_Dev_tollAdd) ?_ ?_ | refine Rel.step (by apply rel_Dev_workEnd) ?_ ?_ | refine Rel.step (by apply rel_Dev_drbg) ?_ ?_ | refine Rel.step (by apply rel_Dev_drbg'; assumption) ?_ ?_ | refine Rel.ite ?_ ?_ | split | intro _ | dsimp only

theorem rel_Dev_journalAdd (d : Dev) (w : ArcWork) (x : ArcWr) : Rel 134217729 d (Dev.journalAdd d w x).2 := by
  unfold Dev.journalAdd
  with_reducible repeat' first | assumption | decide | rfl | refine Rel.step (by apply rel_Dev_setBit) ?_ ?_ | refine Rel.step (by apply rel_Dev_setArc) ?_ ?_ | refine Rel.step (by apply rel_Dev_count) ?_ ?_ | refine Rel.ite ?_ ?_ | split | intro _ | dsimp only
theorem rel_Dev_journalAdd' {d : Dev} {w : ArcWork} {x : ArcWr} {p0 : List Byte} {p1 : Dev} (h : Dev.journalAdd d w x = (p0, p1)) : Rel 134217729 d p1 := by
  have k := rel_Dev_journalAdd d w x
  rw [h] at k
  exact k

theorem rel_Dev_putDone (d : Dev) (w : ArcWork) (x : ArcWr) : Rel 4429236225 d (Dev.putDone d w x) := by
  unfold Dev.putDone
  with_reducible repeat' first | assumption | decide | rfl | refine Rel.step (by apply rel_Dev_jobWrite) ?_ ?_ | refine Rel.step (by apply rel_Dev_workEnd) ?_ ?_ | refine Rel.step (by apply rel_Dev_delWork) ?_ ?_ | refine Rel.step (by apply rel_Dev_count) ?_ ?_ | refine Rel.step (by apply rel_Dev_journalAdd) ?_ ?_ | refine Rel.step (by apply rel_Dev_journalAdd'; assumption) ?_ ?_ | refine Rel.ite ?_ ?_ | split | intro _ | dsimp only

theorem rel_Dev_arcRead (d : Dev) (w : ArcWork) (x : ArcTgt) (s : Nat) (what : Nat) (lo : Nat) (n : Nat) : Rel 201326592 d (Dev.arcRead d w x s what lo n) := by
  unfold Dev.arcRead
  with_reducible repeat' first | assumption | decide | rfl | refine Rel.step (by apply rel_Dev_arcSubmit) ?_ ?_ | split | intro _ | dsimp only

theorem rel_Dev_backStart (d : Dev) (w : ArcWork) (x : ArcWr) : Rel 201326592 d (Dev.backStart d w x) := by
  unfold Dev.backStart
  with_reducible repeat' first | assumption | decide | rfl | refine Rel.foldl (fun _ _ => ?_) ?_ | refine Rel.foldl1 (fun _ _ => ?_) ?_ | refine Rel.foldl2 (fun _ _ => ?_) ?_ | refine Rel.step (by apply rel_Dev_setWork) ?_ ?_ | refine Rel.step (by apply rel_Dev_arcRead) ?_ ?_ | split | intro _ | dsimp only

theorem rel_Dev_wrGo (d : Dev) (id : Nat) : Rel 21978204161 d (Dev.wrGo d id) := by
  unfold Dev.wrGo
  with_reducible repeat' first | assumption | decide | rfl | refine Rel.step (by apply rel_Dev_manStart) ?_ ?_ | refine Rel.step (by apply rel_Dev_putDone) ?_ ?_ | refine Rel.step (by apply rel_Dev_backStart) ?_ ?_ | refine Rel.step (by apply rel_Dev_workEnd) ?_ ?_ | refine Rel.step (by apply rel_Dev_count) ?_ ?_ | refine Rel.ite ?_ ?_ | split | intro _ | dsimp only

theorem rel_Dev_shardAck (d : Dev) (b : BlkCmd) : Rel 21978204161 d (Dev.shardAck d b) := by
  unfold Dev.shardAck
  with_reducible repeat' first | assumption | decide | rfl | refine Rel.step (by apply rel_Dev_wrGo) ?_ ?_ | refine Rel.step (by apply rel_Dev_setWork) ?_ ?_ | refine Rel.step (by apply rel_Dev_tollAdd) ?_ ?_ | refine Rel.step (by apply rel_Dev_count) ?_ ?_ | refine Rel.ite ?_ ?_ | split | intro _ | dsimp only

theorem rel_Dev_headRead (d : Dev) (w : ArcWork) (x : ArcRd) (s : Nat) : Rel 201326592 d (Dev.headRead d w x s).1 := by
  unfold Dev.headRead
  with_reducible repeat' first | assumption | decide | rfl | refine Rel.step (by apply rel_Dev_arcRead) ?_ ?_ | split | intro _ | dsimp only
theorem rel_Dev_headRead' {d : Dev} {w : ArcWork} {x : ArcRd} {s : Nat} {p0 : Dev} {p1 : ArcRd} (h : Dev.headRead d w x s = (p0, p1)) : Rel 201326592 d p0 := by
  have k := rel_Dev_headRead d w x s
  rw [h] at k
  exact k

theorem rel_Dev_rdReplace (d : Dev) (w : ArcWork) (x : ArcRd) : Rel 201326592 d (Dev.rdReplace d w x).1 := by
  unfold Dev.rdReplace
  with_reducible repeat' first | assumption | decide | rfl | refine Rel.step (by apply rel_Dev_headRead) ?_ ?_ | refine Rel.step (by apply rel_Dev_headRead'; assumption) ?_ ?_ | refine Rel.ite ?_ ?_ | split | intro _ | dsimp only
theorem rel_Dev_rdReplace' {d : Dev} {w : ArcWork} {x : ArcRd} {p0 : Dev} {p1 : ArcRd} (h : Dev.rdReplace d w x = (p0, p1)) : Rel 201326592 d p0 := by
  have k := rel_Dev_rdReplace d w x
  rw [h] at k
  exact k

theorem rel_Dev_rdAsk (d : Dev) (w : ArcWork) (x : ArcRd) : Rel 201326592 d (Dev.rdAsk d w x).1 := by
  unfold Dev.rdAsk
  with_reducible repeat' first | assumption | decide | rfl | refine Rel.foldl (fun _ _ => ?_) ?_ | refine Rel.foldl1 (fun _ _ => ?_) ?_ | refine Rel.foldl2 (fun _ _ => ?_) ?_ | refine Rel.step (by apply rel_Dev_arcRead) ?_ ?_ | refine Rel.ite ?_ ?_ | split | intro _ | dsimp only
theorem rel_Dev_rdAsk' {d : Dev} {w : ArcWork} {x : ArcRd} {p0 : Dev} {p1 : ArcRd} (h : Dev.rdAsk d w x = (p0, p1)) : Rel 201326592 d p0 := by
  have k := rel_Dev_rdAsk d w x
  rw [h] at k
  exact k

theorem rel_Dev_rdGo (d : Dev) (id : Nat) : Rel 201359360 d (Dev.rdGo d id) := by
  unfold Dev.rdGo
  with_reducible repeat' first | assumption | decide | rfl | refine Rel.step (by apply rel_Dev_rdAsk) ?_ ?_ | refine Rel.step (by apply rel_Dev_rdAsk'; assumption) ?_ ?_ | refine Rel.step (by apply rel_Dev_setWork) ?_ ?_ | refine Rel.step (by apply rel_Dev_headRead) ?_ ?_ | refine Rel.step (by apply rel_Dev_headRead'; assumption) ?_ ?_ | refine Rel.step (by apply rel_Dev_workEnd) ?_ ?_ | refine Rel.ite ?_ ?_ | split | intro _ | dsimp only

theorem rel_Dev_recordDone (d : Dev) (w : ArcWork) (x : ArcRd) (s : Nat) (t : Nat) (b : BlkCmd) : Rel 469794817 d (Dev.recordDone d w x s t b) := by
  unfold Dev.recordDone
  with_reducible repeat' first | assumption | decide | rfl | refine Rel.step (by apply rel_Dev_rdReplace) ?_ ?_ | refine Rel.step (by apply rel_Dev_rdReplace'; assumption) ?_ ?_ | refine Rel.step (by apply rel_Dev_rdGo) ?_ ?_ | refine Rel.step (by apply rel_Dev_setWork) ?_ ?_ | refine Rel.step (by apply rel_Dev_tollAdd) ?_ ?_ | refine Rel.step (by apply rel_Dev_count) ?_ ?_ | refine Rel.ite ?_ ?_ | split | intro _ | dsimp only

theorem rel_Dev_backDone (d : Dev) (w : ArcWork) (x : ArcWr) (s : Nat) (i : Nat) (b : BlkCmd) : Rel 21978204161 d (Dev.backDone d w x s i b) := by
  unfold Dev.backDone
  with_reducible repeat' first | assumption | decide | rfl | refine Rel.step (by apply rel_Dev_wrGo) ?_ ?_ | refine Rel.step (by apply rel_Dev_setWork) ?_ ?_ | refine Rel.step (by apply rel_Dev_tollAdd) ?_ ?_ | refine Rel.ite ?_ ?_ | split | intro _ | dsimp only

theorem rel_Dev_headDone (d : Dev) (w : ArcWork) (x : ArcRd) (s : Nat) (b : BlkCmd) : Rel 469794817 d (Dev.headDone d w x s b) := by
  unfold Dev.headDone
  with_reducible repeat' first | assumption | decide | rfl | refine Rel.step (by apply rel_Dev_rdReplace) ?_ ?_ | refine Rel.step (by apply rel_Dev_rdReplace'; assumption) ?_ ?_ | refine Rel.step (by apply rel_Dev_rdGo) ?_ ?_ | refine Rel.step (by apply rel_Dev_setWork) ?_ ?_ | refine Rel.step (by apply rel_Dev_tollAdd) ?_ ?_ | refine Rel.step (by apply rel_Dev_count) ?_ ?_ | refine Rel.ite ?_ ?_ | split | intro _ | dsimp only

theorem rel_Dev_shardRead (d : Dev) (b : BlkCmd) : Rel 21978204161 d (Dev.shardRead d b) := by
  unfold Dev.shardRead
  with_reducible repeat' first | assumption | decide | rfl | refine Rel.step (by apply rel_Dev_recordDone) ?_ ?_ | refine Rel.step (by apply rel_Dev_backDone) ?_ ?_ | refine Rel.step (by apply rel_Dev_headDone) ?_ ?_ | split | intro _ | dsimp only

theorem rel_Dev_arcAck (d : Dev) (write : Bool) : Rel 21978204161 d (Dev.arcAck d write) := by
  unfold Dev.arcAck
  with_reducible repeat' first | assumption | decide | rfl | refine Rel.step (by apply rel_Dev_shardAck) ?_ ?_ | refine Rel.step (by apply rel_Dev_shardRead) ?_ ?_ | refine Rel.step (by apply rel_Dev_setArc) ?_ ?_ | refine Rel.ite ?_ ?_ | split | intro _ | dsimp only

theorem rel_Dev_arcChecks {w : Nat} {d : Dev} {j : Job} {l : List (Bool × Nat × Nat)} {uses : List Nat} {f : Dev} (hm : 4395751811 &&& w = 4395751811) (hf : Rel w d f) : Rel w d (Dev.arcChecks d j l uses f) := by
  unfold Dev.arcChecks
  with_reducible repeat' first | assumption | decide | rfl | refine Rel.step2 hm (by apply rel_Dev_jobEnd) ?_ ?_ | refine Rel.step2 hm (by apply rel_Dev_unwrapFail) ?_ ?_ | refine Rel.ite ?_ ?_ | split | intro _ | dsimp only

theorem rel_Dev_arcData (d : Dev) (j : Job) : Rel 32896 d (Dev.arcData d j) := by
  unfold Dev.arcData
  with_reducible repeat' first | assumption | decide | rfl | refine Rel.foldl (fun _ _ => ?_) ?_ | refine Rel.foldl1 (fun _ _ => ?_) ?_ | refine Rel.foldl2 (fun _ _ => ?_) ?_ | refine Rel.step (by apply rel_Dev_queueRead) ?_ ?_ | refine Rel.step (by apply rel_Dev_jobPut) ?_ ?_ | split | intro _ | dsimp only

theorem rel_Dev_arcJob {m : Nat} {d : Dev} {q : Nat} {pos : Nat} {op : Nat} {err : Option (Nat × Nat)} {f : Job → Dev} (hm : 32768 &&& m = 32768) (hf : ∀ j, Rel m d (f j)) : Rel m d (Dev.arcJob d q pos op err f) := by
  unfold Dev.arcJob
  with_reducible repeat' first | assumption | decide | rfl | apply hf | refine Rel.step2 hm (by apply rel_Dev_jobEnd) ?_ ?_ | refine Rel.ite ?_ ?_ | split | intro _ | dsimp only

theorem rel_Dev_arcReap (d : Dev) : Rel 134217728 d (Dev.arcReap d) := by
  unfold Dev.arcReap
  with_reducible repeat' first | assumption | decide | rfl | refine Rel.elim ?_ (fun _ => ?_) | refine Rel.step (by apply rel_Dev_setArc) ?_ ?_ | refine Rel.ite ?_ ?_ | split | intro _ | dsimp only

theorem rel_Dev_getEnd (d : Dev) (w : ArcWork) (x : ArcRd) : Rel 134250497 d (Dev.getEnd d w x) := by
  unfold Dev.getEnd
  with_reducible repeat' first | assumption | decide | rfl | refine Rel.step (by apply rel_Dev_setWork) ?_ ?_ | refine Rel.step (by apply rel_Dev_workEnd) ?_ ?_ | refine Rel.step (by apply rel_Dev_count) ?_ ?_ | refine Rel.ite ?_ ?_ | split | intro _ | dsimp only

theorem rel_Dev_shardSend (d : Dev) (w : ArcWork) (x : ArcWr) (s : Nat) (last : Bool) : Rel 201326592 d (Dev.shardSend d w x s last).1 := by
  unfold Dev.shardSend
  with_reducible repeat' first | assumption | decide | rfl | refine Rel.step (by apply rel_Dev_arcWrite) ?_ ?_ | refine Rel.ite ?_ ?_ | split | intro _ | dsimp only
theorem rel_Dev_shardSend' {d : Dev} {w : ArcWork} {x : ArcWr} {s : Nat} {last : Bool} {p0 : Dev} {p1 : ArcWr} (h : Dev.shardSend d w x s last = (p0, p1)) : Rel 201326592 d p0 := by
  have k := rel_Dev_shardSend d w x s last
  rw [h] at k
  exact k

theorem rel_Dev_stripeOut (d : Dev) (w : ArcWork) (x : ArcWr) (data : List Byte) : Rel 201326592 d (Dev.stripeOut d w x data).1 := by
  unfold Dev.stripeOut
  with_reducible repeat' first | assumption | decide | rfl | refine Rel.foldl (fun _ _ => ?_) ?_ | refine Rel.foldl1 (fun _ _ => ?_) ?_ | refine Rel.foldl2 (fun _ _ => ?_) ?_ | refine Rel.step (by apply rel_Dev_shardSend) ?_ ?_ | refine Rel.step (by apply rel_Dev_shardSend'; assumption) ?_ ?_ | refine Rel.ite ?_ ?_ | split | intro _ | dsimp only
theorem rel_Dev_stripeOut' {d : Dev} {w : ArcWork} {x : ArcWr} {data : List Byte} {p0 : Dev} {p1 : ArcWr} (h : Dev.stripeOut d w x data = (p0, p1)) : Rel 201326592 d p0 := by
  have k := rel_Dev_stripeOut d w x data
  rw [h] at k
  exact k

theorem rel_Dev_verifyEnd (d : Dev) (w : ArcWork) (x : ArcRd) : Rel 4429236225 d (Dev.verifyEnd d w x) := by
  unfold Dev.verifyEnd
  with_reducible repeat' first | assumption | decide | rfl | refine Rel.foldl (fun _ _ => ?_) ?_ | refine Rel.foldl1 (fun _ _ => ?_) ?_ | refine Rel.foldl2 (fun _ _ => ?_) ?_ | refine Rel.step (by apply rel_Dev_jobWrite) ?_ ?_ | refine Rel.step (by apply rel_Dev_workEnd) ?_ ?_ | refine Rel.step (by apply rel_Dev_count) ?_ ?_ | refine Rel.ite ?_ ?_ | split | intro _ | dsimp only

theorem rel_Dev_getPlace (d : Dev) (w : ArcWork) (x : ArcRd) : Rel 4295018497 d (Dev.getPlace d w x).1 := by
  unfold Dev.getPlace
  with_reducible repeat' first | assumption | decide | rfl | refine Rel.foldl (fun _ _ => ?_) ?_ | refine Rel.foldl1 (fun _ _ => ?_) ?_ | refine Rel.foldl2 (fun _ _ => ?_) ?_ | refine Rel.step (by apply rel_Dev_jobWrite) ?_ ?_ | refine Rel.ite ?_ ?_ | split | intro _ | dsimp only
theorem rel_Dev_getPlace' {d : Dev} {w : ArcWork} {x : ArcRd} {p0 : Dev} {p1 : ArcWork} (h : Dev.getPlace d w x = (p0, p1)) : Rel 4295018497 d p0 := by
  have k := rel_Dev_getPlace d w x
  rw [h] at k
  exact k

theorem rel_Dev_stripeIn (d : Dev) (x : ArcRd) : Rel 1 d (Dev.stripeIn d x).1 := by
  unfold Dev.stripeIn
  with_reducible repeat' first | assumption | decide | rfl | refine Rel.step (by apply rel_Dev_count) ?_ ?_ | refine Rel.ite ?_ ?_ | split | intro _ | dsimp only
theorem rel_Dev_stripeIn' {d : Dev} {x : ArcRd} {p0 : Dev} {p1 : ArcRd} {p2 : List Byte} (h : Dev.stripeIn d x = (p0, p1, p2)) : Rel 1 d p0 := by
  have k := rel_Dev_stripeIn d x
  rw [h] at k
  exact k

theorem rel_Dev_workStripe (d : Dev) (w : ArcWork) : Rel 21978204161 d (Dev.workStripe d w) := by
  unfold Dev.workStripe
  with_reducible repeat' first | assumption | decide | rfl | refine Rel.step (by apply rel_Dev_getEnd) ?_ ?_ | refine Rel.step (by apply rel_Dev_stripeOut) ?_ ?_ | refine Rel.step (by apply rel_Dev_stripeOut'; assumption) ?_ ?_ | refine Rel.step (by apply rel_Dev_rdGo) ?_ ?_ | refine Rel.step (by apply rel_Dev_wrGo) ?_ ?_ | refine Rel.step (by apply rel_Dev_setWork) ?_ ?_ | refine Rel.step (by apply rel_Dev_verifyEnd) ?_ ?_ | refine Rel.step (by apply rel_Dev_getPlace) ?_ ?_ | refine Rel.step (by apply rel_Dev_getPlace'; assumption) ?_ ?_ | refine Rel.step (by apply rel_Dev_stripeIn) ?_ ?_ | refine Rel.step (by apply rel_Dev_stripeIn'; assumption) ?_ ?_ | refine Rel.step (by apply rel_Dev_workEnd) ?_ ?_ | refine Rel.step (by apply rel_Dev_count) ?_ ?_ | refine Rel.ite ?_ ?_ | split | intro _ | dsimp only

theorem rel_Dev_archiveStripe (d : Dev) (ecc : Ecc) : Rel 21978204163 d (Dev.archiveStripe d ecc) := by
  unfold Dev.archiveStripe
  with_reducible repeat' first | assumption | decide | rfl | refine Rel.step (by apply rel_Dev_arcReap) ?_ ?_ | refine Rel.step (by apply rel_Dev_applyEcc) ?_ ?_ | refine Rel.step (by apply rel_Dev_workStripe) ?_ ?_ | refine Rel.step (by apply rel_Dev_setArc) ?_ ?_ | refine Rel.step (by apply rel_Dev_workEnd) ?_ ?_ | refine Rel.ite ?_ ?_ | split | intro _ | dsimp only

theorem rel_Dev_arrive (d : Dev) (w : ArcWork) : Rel 134217728 d (Dev.arrive d w) := by
  unfold Dev.arrive
  with_reducible repeat' first | assumption | decide | rfl | refine Rel.step (by apply rel_Dev_setArc) ?_ ?_ | split | intro _ | dsimp only

theorem rel_Dev_sigCount (d : Dev) (j : Job) (l : List (Bool × Nat × Nat)) (lay : ArcLay) : Rel 268435456 d (Dev.sigCount d j l lay) := by
  unfold Dev.sigCount
  with_reducible repeat' first | assumption | decide | rfl | refine Rel.step (by apply rel_Dev_tollAdd) ?_ ?_ | refine Rel.ite ?_ ?_ | split | intro _ | dsimp only

theorem rel_Dev_objGet (d : Dev) (q : Nat) (pos : Nat) (block : List Byte) (targets : List Byte) (man : List Byte) (pub : List Byte) (err : Option (Nat × Nat)) : Rel 4798404995 d (Dev.objGet d q pos block targets man pub err) := by
  unfold Dev.objGet
  with_reducible repeat' first | assumption | decide | rfl | refine Rel.elim ?_ (fun _ => ?_) | refine Rel.step (by apply rel_Dev_sigCount) ?_ ?_ | (apply Rel.trans; swap; apply rel_Dev_arcJob) | (apply Rel.trans; swap; apply rel_Dev_arcChecks) | refine Rel.step (by apply rel_Dev_arrive) ?_ ?_ | refine Rel.ite ?_ ?_ | split | intro _ | dsimp only

theorem rel_Dev_objMigrate (d : Dev) (q : Nat) (pos : Nat) (block : List Byte) (targets : List Byte) (newTargets : List Byte) (man : List Byte) (pub : List Byte) (err : Option (Nat × Nat)) : Rel 4798404995 d (Dev.objMigrate d q pos block targets newTargets man pub err) := by
  unfold Dev.objMigrate
  with_reducible repeat' first | assumption | decide | rfl | refine Rel.step (by apply rel_Dev_sigCount) ?_ ?_ | (apply Rel.trans; swap; apply rel_Dev_arcJob) | (apply Rel.trans; swap; apply rel_Dev_arcChecks) | refine Rel.step (by apply rel_Dev_arrive) ?_ ?_ | refine Rel.ite ?_ ?_ | split | intro _ | dsimp only

theorem rel_Dev_objPut (d : Dev) (q : Nat) (pos : Nat) (block : List Byte) (targets : List Byte) (err : Option (Nat × Nat)) : Rel 4529969539 d (Dev.objPut d q pos block targets err) := by
  unfold Dev.objPut
  with_reducible repeat' first | assumption | decide | rfl | refine Rel.elim ?_ (fun _ => ?_) | refine Rel.step (by apply rel_Dev_arcData) ?_ ?_ | (apply Rel.trans; swap; apply rel_Dev_arcJob) | (apply Rel.trans; swap; apply rel_Dev_arcChecks) | refine Rel.step (by apply rel_Dev_arrive) ?_ ?_ | refine Rel.ite ?_ ?_ | split | intro _ | dsimp only

theorem rel_Dev_objVerify (d : Dev) (q : Nat) (pos : Nat) (block : List Byte) (targets : List Byte) (man : List Byte) (pub : List Byte) (err : Option (Nat × Nat)) : Rel 4798404995 d (Dev.objVerify d q pos block targets man pub err) := by
  unfold Dev.objVerify
  with_reducible repeat' first | assumption | decide | rfl | refine Rel.step (by apply rel_Dev_sigCount) ?_ ?_ | (apply Rel.trans; swap; apply rel_Dev_arcJob) | (apply Rel.trans; swap; apply rel_Dev_arcChecks) | refine Rel.step (by apply rel_Dev_arrive) ?_ ?_ | split | intro _ | dsimp only

theorem rel_Dev_stagingGrant (d : Dev) : Rel 21978204161 d (Dev.stagingGrant d) := by
  unfold Dev.stagingGrant
  with_reducible repeat' first | assumption | decide | rfl | refine Rel.foldl (fun _ _ => ?_) ?_ | refine Rel.foldl1 (fun _ _ => ?_) ?_ | refine Rel.foldl2 (fun _ _ => ?_) ?_ | refine Rel.step (by apply rel_Dev_getEnd) ?_ ?_ | refine Rel.step (by apply rel_Dev_arcReap) ?_ ?_ | refine Rel.step (by apply rel_Dev_rdGo) ?_ ?_ | refine Rel.step (by apply rel_Dev_wrGo) ?_ ?_ | refine Rel.step (by apply rel_Dev_setWork) ?_ ?_ | refine Rel.step (by apply rel_Dev_getPlace) ?_ ?_ | refine Rel.step (by apply rel_Dev_getPlace'; assumption) ?_ ?_ | refine Rel.step (by apply rel_Dev_arcRead) ?_ ?_ | refine Rel.ite ?_ ?_ | split | intro _ | dsimp only

theorem rel_arcCfg (e : AdmEntry) (d : Dev) : AdmRel 134217728 d (arcCfg e d) := by
  unfold arcCfg
  with_reducible repeat' first | assumption | decide | rfl | refine AdmRel.elim ?_ (fun _ => ?_) | refine AdmRel.checks ?_ | exact AdmRel.fail | refine AdmRel.done ?_ | refine AdmRel.wait ?_ | refine Rel.elim ?_ (fun _ => ?_) | refine Rel.step (by apply rel_Dev_setArc) ?_ ?_ | refine AdmRel.ite ?_ ?_ | split | intro _ | dsimp only

theorem rel_arcJournalRead (e : AdmEntry) (d : Dev) : AdmRel 0 d (arcJournalRead e d) := by
  unfold arcJournalRead
  with_reducible repeat' first | assumption | decide | rfl | refine AdmRel.elim ?_ (fun _ => ?_) | refine AdmRel.checks ?_ | exact AdmRel.fail | refine AdmRel.done ?_ | refine AdmRel.wait ?_ | refine Rel.elim ?_ (fun _ => ?_) | refine AdmRel.ite ?_ ?_ | split | intro _ | dsimp only

theorem rel_arcSessionAbort (e : AdmEntry) (d : Dev) : AdmRel 134217728 d (arcSessionAbort e d) := by
  unfold arcSessionAbort
  with_reducible repeat' first | assumption | decide | rfl | refine AdmRel.elim ?_ (fun _ => ?_) | refine AdmRel.checks ?_ | exact AdmRel.fail | refine AdmRel.done ?_ | refine AdmRel.wait ?_ | refine Rel.elim ?_ (fun _ => ?_) | refine Rel.step (by apply rel_Dev_delWork) ?_ ?_ | refine AdmRel.ite ?_ ?_ | split | intro _ | dsimp only

theorem rel_execArcCfg (e : AdmEntry) (s : State) {u : State} (h : execArcCfg e s = .next u) : Rel 4429382048 s.dev u.dev := by
  refine run_rel (fun _ => ?_) h
  with_reducible repeat' first | assumption | decide | rfl | (apply Rel.trans; swap; apply rel_Dev_admRun) | refine AdmRel.step (by apply rel_arcCfg) ?_ ?_ | intro _ | dsimp only

theorem rel_execArcJournalRead (e : AdmEntry) (s : State) {u : State} (h : execArcJournalRead e s = .next u) : Rel 4295164320 s.dev u.dev := by
  refine run_rel (fun _ => ?_) h
  with_reducible repeat' first | assumption | decide | rfl | refine AdmRel.step (by apply rel_arcJournalRead) ?_ ?_ | (apply Rel.trans; swap; apply rel_Dev_admRun) | intro _ | dsimp only

theorem rel_execArcSessionAbort (e : AdmEntry) (s : State) {u : State} (h : execArcSessionAbort e s = .next u) : Rel 4429382048 s.dev u.dev := by
  refine run_rel (fun _ => ?_) h
  with_reducible repeat' first | assumption | decide | rfl | refine AdmRel.step (by apply rel_arcSessionAbort) ?_ ?_ | (apply Rel.trans; swap; apply rel_Dev_admRun) | intro _ | dsimp only

theorem rel_execArchiveStripe (ecc : Ecc) (s : State) {u : State} (h : execArchiveStripe ecc s = .next u) : Rel 21978204163 s.dev u.dev := by
  refine run_rel (fun _ => ?_) h
  with_reducible repeat' first | assumption | decide | rfl | refine Rel.step (by apply rel_Dev_archiveStripe) ?_ ?_ | intro _ | dsimp only

theorem rel_execObjGet (q : Nat) (pos : Nat) (block : List Byte) (targets : List Byte) (man : List Byte) (pub : List Byte) (err : Option (Nat × Nat)) (s : State) {u : State} (h : execObjGet q pos block targets man pub err s = .next u) : Rel 4798404995 s.dev u.dev := by
  refine run_rel (fun _ => ?_) h
  with_reducible repeat' first | assumption | decide | rfl | refine Rel.step (by apply rel_Dev_objGet) ?_ ?_ | intro _ | dsimp only

theorem rel_execObjMigrate (q : Nat) (pos : Nat) (block : List Byte) (targets : List Byte) (newTargets : List Byte) (man : List Byte) (pub : List Byte) (err : Option (Nat × Nat)) (s : State) {u : State} (h : execObjMigrate q pos block targets newTargets man pub err s = .next u) : Rel 4798404995 s.dev u.dev := by
  refine run_rel (fun _ => ?_) h
  with_reducible repeat' first | assumption | decide | rfl | refine Rel.step (by apply rel_Dev_objMigrate) ?_ ?_ | intro _ | dsimp only

theorem rel_execObjPut (q : Nat) (pos : Nat) (block : List Byte) (targets : List Byte) (err : Option (Nat × Nat)) (s : State) {u : State} (h : execObjPut q pos block targets err s = .next u) : Rel 4529969539 s.dev u.dev := by
  refine run_rel (fun _ => ?_) h
  with_reducible repeat' first | assumption | decide | rfl | refine Rel.step (by apply rel_Dev_objPut) ?_ ?_ | intro _ | dsimp only

theorem rel_execObjVerify (q : Nat) (pos : Nat) (block : List Byte) (targets : List Byte) (man : List Byte) (pub : List Byte) (err : Option (Nat × Nat)) (s : State) {u : State} (h : execObjVerify q pos block targets man pub err s = .next u) : Rel 4798404995 s.dev u.dev := by
  refine run_rel (fun _ => ?_) h
  with_reducible repeat' first | assumption | decide | rfl | refine Rel.step (by apply rel_Dev_objVerify) ?_ ?_ | intro _ | dsimp only

theorem rel_execShardReadDone (s : State) {u : State} (h : execShardReadDone s = .next u) : Rel 21978204161 s.dev u.dev := by
  refine run_rel (fun _ => ?_) h
  with_reducible repeat' first | assumption | decide | rfl | refine Rel.step (by apply rel_Dev_arcAck) ?_ ?_ | intro _ | dsimp only

theorem rel_execShardWriteAck (s : State) {u : State} (h : execShardWriteAck s = .next u) : Rel 21978204161 s.dev u.dev := by
  refine run_rel (fun _ => ?_) h
  with_reducible repeat' first | assumption | decide | rfl | refine Rel.step (by apply rel_Dev_arcAck) ?_ ?_ | intro _ | dsimp only

theorem rel_execStagingGrant (s : State) {u : State} (h : execStagingGrant s = .next u) : Rel 21978204161 s.dev u.dev := by
  refine run_rel (fun _ => ?_) h
  with_reducible repeat' first | assumption | decide | rfl | refine Rel.step (by apply rel_Dev_stagingGrant) ?_ ?_ | intro _ | dsimp only

end Sys2Proof.Laws
end

