-- ==== Sys2Proof/Laws/Frames/FwdTables.lean ====
section
/-! SUPPORT. What each function of Machine/FwdTables.lean may change. -/

set_option linter.unusedTactic false
set_option linter.unreachableTactic false

namespace Sys2Proof.Laws

open Sys2Proof Sys2Proof.Machine

theorem rel_Dev_fwdInternal (d : Dev) (table : Nat) (r : TueRec) : Rel 3145731 d (Dev.fwdInternal d table r).2 := by
  unfold Dev.fwdInternal
  with_reducible repeat' first | assumption | decide | rfl | refine Rel.step (by apply rel_Dev_tueInternal) ?_ ?_ | refine Rel.step (by apply rel_Dev_tueInternal'; assumption) ?_ ?_ | refine Rel.ite ?_ ?_ | simp only [Nat.reduceAnd, Rel.u_fwd] | split | intro _ | dsimp only
theorem rel_Dev_fwdInternal' {d : Dev} {table : Nat} {r : TueRec} {p0 : Nat} {p1 : Dev} (h : Dev.fwdInternal d table r = (p0, p1)) : Rel 3145731 d p1 := by
  have k := rel_Dev_fwdInternal d table r
  rw [h] at k
  exact k

theorem rel_Dev_casLine (d : Dev) (table : Nat) (a : Nat) (b : List Byte) : Rel 3145731 d (Dev.casLine d table a b) := by
  unfold Dev.casLine
  with_reducible repeat' first | assumption | decide | rfl | refine Rel.step (by apply rel_Dev_fwdInternal) ?_ ?_ | refine Rel.step (by apply rel_Dev_fwdInternal'; assumption) ?_ ?_ | split | intro _ | dsimp only

theorem rel_Dev_putLine (d : Dev) (table : Nat) (a : Nat) (b : List Byte) : Rel 3145731 d (Dev.putLine d table a b) := by
  unfold Dev.putLine
  with_reducible repeat' first | assumption | decide | rfl | refine Rel.step (by apply rel_Dev_fwdInternal) ?_ ?_ | refine Rel.step (by apply rel_Dev_fwdInternal'; assumption) ?_ ?_ | split | intro _ | dsimp only

theorem rel_Dev_ageOut (d : Dev) (table : Nat) (a : Nat) : Rel 3145731 d (Dev.ageOut d table a) := by
  unfold Dev.ageOut
  with_reducible repeat' first | assumption | decide | rfl | refine Rel.step (by apply rel_Dev_casLine) ?_ ?_ | refine Rel.step (by apply rel_Dev_putLine) ?_ ?_ | refine Rel.step (by apply rel_Dev_count) ?_ ?_ | refine Rel.ite ?_ ?_ | split | intro _ | dsimp only

theorem rel_Dev_ageTick (d : Dev) : Rel 2097152 d (Dev.ageTick d) := by
  unfold Dev.ageTick
  with_reducible repeat' first | assumption | decide | rfl | simp only [Nat.reduceAnd, Rel.u_fwd] | split | intro _ | dsimp only

theorem rel_Dev_ctrAdd (d : Dev) (n : Nat) (bytes : Nat) : Rel 2 d (Dev.ctrAdd d n bytes) := by
  unfold Dev.ctrAdd
  with_reducible repeat' first | assumption | decide | rfl | refine Rel.step (by apply rel_Dev_hbmWrite) ?_ ?_ | split | intro _ | dsimp only

theorem rel_Dev_writePlan (d : Dev) (p : Plan) : Rel 2 d (Dev.writePlan d p) := by
  unfold Dev.writePlan
  with_reducible repeat' first | assumption | decide | rfl | refine Rel.foldl (fun _ _ => ?_) ?_ | refine Rel.foldl1 (fun _ _ => ?_) ?_ | refine Rel.foldl2 (fun _ _ => ?_) ?_ | refine Rel.step (by apply rel_Dev_hbmWrite) ?_ ?_ | split | intro _ | dsimp only

theorem rel_Dev_fillShadow (d : Dev) (x : TblDesc) (x2 : List (List Byte)) : OptRel 2 d (Dev.fillShadow d x x2) := by
  induction x2 generalizing d x with
  | nil => unfold Dev.fillShadow; with_reducible repeat' first | assumption | decide | rfl | refine Rel.getD ?_ ?_ | exact OptRel.none | refine OptRel.some ?_ | refine OptRel.ite ?_ ?_ | refine OptRel.mapD (fun _ => ?_) ?_ | refine OptRel.map (fun _ => ?_) | refine OptRel.bindD (fun _ => ?_) ?_ | refine OptRel.bind (fun _ => ?_) | refine Rel.step (by apply rel_Dev_writePlan) ?_ ?_ | split | intro _ | dsimp only
  | cons y r ih => unfold Dev.fillShadow; with_reducible repeat' first | assumption | decide | rfl | refine Rel.getD ?_ ?_ | exact OptRel.none | refine OptRel.some ?_ | refine OptRel.ite ?_ ?_ | refine OptRel.mapD (fun _ => ?_) ?_ | refine OptRel.map (fun _ => ?_) | refine OptRel.bindD (fun _ => ?_) ?_ | refine OptRel.bind (fun _ => ?_) | refine OptRel.step (by apply ih) ?_ ?_ | refine Rel.step (by apply rel_Dev_writePlan) ?_ ?_ | split | intro _ | dsimp only

theorem rel_Dev_fixPeers (d : Dev) (old : TblDesc) (new : TblDesc) : Rel 2 d (Dev.fixPeers d old new) := by
  unfold Dev.fixPeers
  with_reducible repeat' first | assumption | decide | rfl | refine Rel.foldl (fun _ _ => ?_) ?_ | refine Rel.foldl1 (fun _ _ => ?_) ?_ | refine Rel.foldl2 (fun _ _ => ?_) ?_ | refine Rel.step (by apply rel_Dev_hbmWrite) ?_ ?_ | refine Rel.ite ?_ ?_ | split | intro _ | dsimp only

theorem rel_Dev_hbmClear (d : Dev) (a n : Nat) : Rel 2 d (Dev.hbmClear d a n) :=
  ⟨fun q hq => by cases q <;> first | exact absurd hq (by decide) | simp [Part.same, Dev.hbmClear],
   fun h => ⟨h.1, kvCanon_filter _ h.2⟩⟩

theorem rel_Dev_hitLine (d : Dev) (a : Nat) : Rel 2 d (Dev.hitLine d a) := by
  unfold Dev.hitLine
  with_reducible repeat' first | assumption | decide | rfl | refine Rel.step (by apply rel_Dev_hbmWrite) ?_ ?_ | refine Rel.ite ?_ ?_ | split | intro _ | dsimp only

theorem rel_Dev_rehashReq (d : Dev) (table : Nat) : Rel 4295033217 d (Dev.rehashReq d table) := by
  unfold Dev.rehashReq
  with_reducible repeat' first | assumption | decide | rfl | refine Rel.step (by apply rel_Dev_setBit) ?_ ?_ | refine Rel.step (by apply rel_Dev_pfEvent) ?_ ?_ | refine Rel.ite ?_ ?_ | split | intro _ | dsimp only

theorem rel_Dev_insFail (d : Dev) (table : Nat) : Rel 4295033217 d (Dev.insFail d table) := by
  unfold Dev.insFail
  with_reducible repeat' first | assumption | decide | rfl | refine Rel.step (by apply rel_Dev_rehashReq) ?_ ?_ | refine Rel.step (by apply rel_Dev_count) ?_ ?_ | split | intro _ | dsimp only

theorem rel_Dev_learn (d : Dev) (bridge : Nat) (mac : Nat) (dest : Nat) : Rel 2097153 d (Dev.learn d bridge mac dest) := by
  unfold Dev.learn
  with_reducible repeat' first | assumption | decide | rfl | refine Rel.step (by apply rel_Dev_count) ?_ ?_ | refine Rel.ite ?_ ?_ | simp only [Nat.reduceAnd, Rel.u_fwd] | split | intro _ | dsimp only

theorem rel_Dev_staticMove (d : Dev) (l : Learn) (b : Bridge) : Rel 4297130369 d (Dev.staticMove d l b) := by
  unfold Dev.staticMove
  with_reducible repeat' first | assumption | decide | rfl | refine Rel.step (by apply rel_Dev_pfEvent) ?_ ?_ | refine Rel.step (by apply rel_Dev_count) ?_ ?_ | refine Rel.ite ?_ ?_ | simp only [Nat.reduceAnd, Rel.u_fwd] | split | intro _ | dsimp only

theorem rel_Dev_learnDo (d : Dev) (l : Learn) (fails : Nat) : Rel 4298178947 d (Dev.learnDo d l fails) := by
  unfold Dev.learnDo
  with_reducible repeat' first | assumption | decide | rfl | refine Rel.step (by apply rel_Dev_insFail) ?_ ?_ | refine Rel.step (by apply rel_Dev_staticMove) ?_ ?_ | refine Rel.step (by apply rel_Dev_casLine) ?_ ?_ | refine Rel.step (by apply rel_Dev_hitLine) ?_ ?_ | refine Rel.step (by apply rel_Dev_countN) ?_ ?_ | refine Rel.step (by apply rel_Dev_count) ?_ ?_ | refine Rel.ite ?_ ?_ | split | intro _ | dsimp only

theorem rel_Dev_learnInsert (d : Dev) (fails : Nat) : Rel 4298178947 d (Dev.learnInsert d fails) := by
  unfold Dev.learnInsert
  with_reducible repeat' first | assumption | decide | rfl | refine Rel.step (by apply rel_Dev_learnDo) ?_ ?_ | simp only [Nat.reduceAnd, Rel.u_fwd] | split | intro _ | dsimp only

theorem rel_Dev_lookup (d : Dev) (table : Nat) (key : List Byte) : Rel 9 d (Dev.lookup d table key).2.2 := by
  unfold Dev.lookup
  with_reducible repeat' first | assumption | decide | rfl | refine Rel.step (by apply rel_Dev_fwdExc) ?_ ?_ | refine Rel.step (by apply rel_Dev_fwdExc'; assumption) ?_ ?_ | refine Rel.ite ?_ ?_ | split | intro _ | dsimp only
theorem rel_Dev_lookup' {d : Dev} {table : Nat} {key : List Byte} {p0 : Nat} {p1 : Option Nat} {p2 : Dev} (h : Dev.lookup d table key = (p0, p1, p2)) : Rel 9 d p2 := by
  have k := rel_Dev_lookup d table key
  rw [h] at k
  exact k

theorem rel_Dev_replayOne (d : Dev) (x : TblDesc) (x2 : Bool × List Byte) : OptRel 2 d (Dev.replayOne d x x2) := by
  unfold Dev.replayOne
  with_reducible repeat' first | assumption | decide | rfl | refine Rel.getD ?_ ?_ | exact OptRel.none | refine OptRel.some ?_ | refine OptRel.ite ?_ ?_ | refine OptRel.mapD (fun _ => ?_) ?_ | refine OptRel.map (fun _ => ?_) | refine OptRel.bindD (fun _ => ?_) ?_ | refine OptRel.bind (fun _ => ?_) | refine Rel.elim ?_ (fun _ => ?_) | refine OptRel.step (by apply rel_Dev_fillShadow) ?_ ?_ | refine Rel.step (by apply OptRel.use; assumption; apply rel_Dev_fillShadow) ?_ ?_ | refine Rel.step (by apply rel_Dev_hbmWrite) ?_ ?_ | split | intro _ | dsimp only

theorem rel_Dev_replay (d : Dev) (x : TblDesc) (x2 : List (Bool × List Byte)) : OptRel 2 d (Dev.replay d x x2) := by
  induction x2 generalizing d x with
  | nil => unfold Dev.replay; with_reducible repeat' first | assumption | decide | rfl | refine Rel.getD ?_ ?_ | exact OptRel.none | refine OptRel.some ?_ | refine OptRel.ite ?_ ?_ | refine OptRel.mapD (fun _ => ?_) ?_ | refine OptRel.map (fun _ => ?_) | refine OptRel.bindD (fun _ => ?_) ?_ | refine OptRel.bind (fun _ => ?_) | refine OptRel.step (by apply rel_Dev_replayOne) ?_ ?_ | refine Rel.step (by apply OptRel.use; assumption; apply rel_Dev_replayOne) ?_ ?_ | split | intro _ | dsimp only
  | cons y r ih => unfold Dev.replay; with_reducible repeat' first | assumption | decide | rfl | refine Rel.getD ?_ ?_ | exact OptRel.none | refine OptRel.some ?_ | refine OptRel.ite ?_ ?_ | refine OptRel.mapD (fun _ => ?_) ?_ | refine OptRel.map (fun _ => ?_) | refine OptRel.bindD (fun _ => ?_) ?_ | refine OptRel.bind (fun _ => ?_) | refine OptRel.step (by apply ih) ?_ ?_ | refine OptRel.step (by apply rel_Dev_replayOne) ?_ ?_ | refine Rel.step (by apply OptRel.use; assumption; apply rel_Dev_replayOne) ?_ ?_ | split | intro _ | dsimp only

theorem rel_Dev_stampAll (d : Dev) (x : TblDesc) : Rel 2 d (Dev.stampAll d x) := by
  unfold Dev.stampAll
  with_reducible repeat' first | assumption | decide | rfl | refine Rel.foldl (fun _ _ => ?_) ?_ | refine Rel.foldl1 (fun _ _ => ?_) ?_ | refine Rel.foldl2 (fun _ _ => ?_) ?_ | refine Rel.step (by apply rel_Dev_hbmWrite) ?_ ?_ | split | intro _ | dsimp only

theorem rel_Dev_sweepLine (d : Dev) (table : Nat) (a : Nat) : Rel 3145731 d (Dev.sweepLine d table a) := by
  unfold Dev.sweepLine
  with_reducible repeat' first | assumption | decide | rfl | refine Rel.step (by apply rel_Dev_casLine) ?_ ?_ | refine Rel.step (by apply rel_Dev_ageOut) ?_ ?_ | refine Rel.ite ?_ ?_ | split | intro _ | dsimp only

theorem rel_Dev_sweepVisit (d : Dev) (k : Nat) : Rel 3145731 d (Dev.sweepVisit d k) := by
  unfold Dev.sweepVisit
  with_reducible repeat' first | assumption | decide | rfl | refine Rel.foldl (fun _ _ => ?_) ?_ | refine Rel.foldl1 (fun _ _ => ?_) ?_ | refine Rel.foldl2 (fun _ _ => ?_) ?_ | refine Rel.step (by apply rel_Dev_sweepLine) ?_ ?_ | refine Rel.ite ?_ ?_ | simp only [Nat.reduceAnd, Rel.u_fwd] | split | intro _ | dsimp only

end Sys2Proof.Laws
end

