-- ==== Sys2Proof/Laws/Frames/Handshake.lean ====
section
/-! SUPPORT. What each function of Machine/Handshake.lean may change. -/

set_option linter.unusedTactic false
set_option linter.unreachableTactic false

namespace Sys2Proof.Laws

open Sys2Proof Sys2Proof.Machine

theorem rel_Dev_hsReply (d : Dev) (r : HsReq) (st : Nat) (det : Nat) (out : List Byte) : OptRel 4299358627 d (Dev.hsReply d r st det out) := by
  unfold Dev.hsReply
  with_reducible repeat' first | assumption | decide | rfl | refine Rel.getD ?_ ?_ | exact OptRel.none | refine OptRel.some ?_ | refine OptRel.ite ?_ ?_ | refine OptRel.mapD (fun _ => ?_) ?_ | refine OptRel.map (fun _ => ?_) | refine OptRel.bindD (fun _ => ?_) ?_ | refine OptRel.bind (fun _ => ?_) | refine Rel.step (by apply rel_Dev_deliver) ?_ ?_ | refine Rel.step (by apply rel_Dev_deliver'; assumption) ?_ ?_ | refine Rel.step (by apply rel_Dev_admLate) ?_ ?_ | refine Rel.step (by apply rel_Dev_hbmWrite) ?_ ?_ | refine Rel.step (by apply rel_Dev_pfWrite) ?_ ?_ | refine Rel.ite ?_ ?_ | split | intro _ | dsimp only

theorem rel_Dev_hsDone (d : Dev) (i : Nat) : Rel 21848349091 d (Dev.hsDone d i) := by
  unfold Dev.hsDone
  with_reducible repeat' first | assumption | decide | rfl | refine Rel.getD ?_ ?_ | exact OptRel.none | refine OptRel.some ?_ | refine OptRel.ite ?_ ?_ | refine OptRel.mapD (fun _ => ?_) ?_ | refine OptRel.map (fun _ => ?_) | refine OptRel.bindD (fun _ => ?_) ?_ | refine OptRel.bind (fun _ => ?_) | refine Rel.step (by apply rel_Dev_putSlot) ?_ ?_ | refine Rel.step (by apply rel_Dev_unwrapFail) ?_ ?_ | refine Rel.step (by apply rel_Dev_discard) ?_ ?_ | refine Rel.step (by apply rel_Dev_tollAdd) ?_ ?_ | refine OptRel.step (by apply rel_Dev_hsReply) ?_ ?_ | refine Rel.step (by apply OptRel.use; assumption; apply rel_Dev_hsReply) ?_ ?_ | refine Rel.step (by apply rel_Dev_setCry) ?_ ?_ | refine Rel.step (by apply rel_Dev_count) ?_ ?_ | refine Rel.step (by apply rel_Dev_drbg) ?_ ?_ | refine Rel.step (by apply rel_Dev_drbg'; assumption) ?_ ?_ | refine Rel.ite ?_ ?_ | simp only [Nat.reduceAnd, Rel.u_cry] | split | intro _ | dsimp only

theorem rel_Dev_hsPost (d : Dev) (r : HsReq) : Rel 33554432 d (Dev.hsPost d r) := by
  unfold Dev.hsPost
  with_reducible repeat' first | assumption | decide | rfl | refine Rel.step (by apply rel_Dev_setCry) ?_ ?_ | split | intro _ | dsimp only

theorem rel_Dev_hsStart (d : Dev) : Rel 33554432 d (Dev.hsStart d) := by
  unfold Dev.hsStart
  with_reducible repeat' first | assumption | decide | rfl | refine Rel.foldl (fun _ _ => ?_) ?_ | refine Rel.foldl1 (fun _ _ => ?_) ?_ | refine Rel.foldl2 (fun _ _ => ?_) ?_ | refine Rel.step (by apply rel_Dev_setCry) ?_ ?_ | refine Rel.ite ?_ ?_ | split | intro _ | dsimp only

theorem rel_execHandshakeDone (i : Nat) (s : State) {u : State} (h : execHandshakeDone i s = .next u) : Rel 21848349091 s.dev u.dev := by
  refine run_rel (fun _ => ?_) h
  with_reducible repeat' first | assumption | decide | rfl | refine Rel.step (by apply rel_Dev_hsDone) ?_ ?_ | intro _ | dsimp only

theorem rel_execHandshakeStart (s : State) {u : State} (h : execHandshakeStart s = .next u) : Rel 33554432 s.dev u.dev := by
  refine run_rel (fun _ => ?_) h
  with_reducible repeat' first | assumption | decide | rfl | refine Rel.step (by apply rel_Dev_hsStart) ?_ ?_ | intro _ | dsimp only

theorem rel_hsOpCmd (e : AdmEntry) (d : Dev) : AdmRel 33554432 d (hsOpCmd e d) := by
  unfold hsOpCmd
  with_reducible repeat' first | assumption | decide | rfl | refine AdmRel.checks ?_ | exact AdmRel.fail | refine AdmRel.done ?_ | refine AdmRel.wait ?_ | refine Rel.step (by apply rel_Dev_hsPost) ?_ ?_ | refine AdmRel.ite ?_ ?_ | split | intro _ | dsimp only

theorem rel_execHsOp (e : AdmEntry) (s : State) {u : State} (h : execHsOp e s = .next u) : Rel 4328718752 s.dev u.dev := by
  refine run_rel (fun _ => ?_) h
  with_reducible repeat' first | assumption | decide | rfl | (apply Rel.trans; swap; apply rel_Dev_admRun) | refine AdmRel.step (by apply rel_hsOpCmd) ?_ ?_ | intro _ | dsimp only

end Sys2Proof.Laws
end

