-- ==== Sys2Proof/Laws/Frames/Wicket.lean ====
section
/-! SUPPORT. What each function of Machine/Wicket.lean may change. -/

set_option linter.unusedTactic false
set_option linter.unreachableTactic false

namespace Sys2Proof.Laws

open Sys2Proof Sys2Proof.Machine

theorem rel_Dev_setMgt (d : Dev) (x : MgtPart) : Rel 536870912 d (Dev.setMgt d x) := by
  unfold Dev.setMgt
  with_reducible repeat' first | assumption | decide | rfl | simp only [Nat.reduceAnd, Rel.u_mgt] | split | intro _ | dsimp only

theorem rel_Dev_setWkt (d : Dev) (w : Nat) (x : Wicket) : Rel 536870912 d (Dev.setWkt d w x) := by
  unfold Dev.setWkt
  with_reducible repeat' first | assumption | decide | rfl | refine Rel.step (by apply rel_Dev_setMgt) ?_ ?_ | split | intro _ | dsimp only

theorem rel_Dev_wktTake (d : Dev) (w : Nat) (code : Nat) : Rel 536870913 d (Dev.wktTake d w code) := by
  unfold Dev.wktTake
  with_reducible repeat' first | assumption | decide | rfl | refine Rel.step (by apply rel_Dev_setBit) ?_ ?_ | refine Rel.step (by apply rel_Dev_setWkt) ?_ ?_ | refine Rel.ite ?_ ?_ | split | intro _ | dsimp only

theorem rel_Dev_wktSnap (d : Dev) (w : Nat) : Rel 536870912 d (Dev.wktSnap d w) := by
  unfold Dev.wktSnap
  with_reducible repeat' first | assumption | decide | rfl | refine Rel.step (by apply rel_Dev_setWkt) ?_ ?_ | split | intro _ | dsimp only

theorem rel_Dev_clusterDeliver (d : Dev) (w : Nat) : Rel 541065219 d (Dev.clusterDeliver d w) := by
  unfold Dev.clusterDeliver
  with_reducible repeat' first | assumption | decide | rfl | refine Rel.step (by apply rel_Dev_deliver) ?_ ?_ | refine Rel.step (by apply rel_Dev_deliver'; assumption) ?_ ?_ | refine Rel.step (by apply rel_Dev_wktTake) ?_ ?_ | refine Rel.step (by apply rel_Dev_wktSnap) ?_ ?_ | refine Rel.ite ?_ ?_ | split | intro _ | dsimp only

theorem rel_Dev_setWktBuf (d : Dev) (w : Nat) (b : List Byte) : Rel 1 d (Dev.setWktBuf d w b) := by
  unfold Dev.setWktBuf
  with_reducible repeat' first | assumption | decide | rfl | refine Rel.foldl (fun _ _ => ?_) ?_ | refine Rel.foldl1 (fun _ _ => ?_) ?_ | refine Rel.foldl2 (fun _ _ => ?_) ?_ | refine Rel.step (by apply rel_Dev_setReg) ?_ ?_ | split | intro _ | dsimp only

theorem rel_Dev_tollNotice (d : Dev) (m : List Byte) : Rel 4295033217 d (Dev.tollNotice d m) := by
  unfold Dev.tollNotice
  with_reducible repeat' first | assumption | decide | rfl | refine Rel.step (by apply rel_Dev_pfEvent) ?_ ?_ | split | intro _ | dsimp only

theorem rel_Dev_wktBindReg (d : Dev) (pf : Nat) (w : Nat) (value : Word) : Rel 536870913 d (Dev.wktBindReg d pf w value) := by
  unfold Dev.wktBindReg
  with_reducible repeat' first | assumption | decide | rfl | refine Rel.step (by apply rel_Dev_setReg) ?_ ?_ | refine Rel.step (by apply rel_Dev_setBit) ?_ ?_ | refine Rel.step (by apply rel_Dev_setWkt) ?_ ?_ | (apply Rel.trans; swap; apply rel_Dev_bar0Write) | refine Rel.ite ?_ ?_ | split | intro _ | dsimp only

theorem rel_Dev_wktDeny (d : Dev) (id : Nat) (w : Nat) (write : Bool) : Rel 1 d (Dev.wktDeny d id w write) := by
  unfold Dev.wktDeny
  with_reducible repeat' first | assumption | decide | rfl | refine Rel.step (by apply rel_Dev_setReg) ?_ ?_ | refine Rel.step (by apply rel_Dev_setBit) ?_ ?_ | refine Rel.step (by apply rel_Dev_count) ?_ ?_ | refine Rel.ite ?_ ?_ | split | intro _ | dsimp only

theorem rel_Dev_wktWake (d : Dev) (w : Nat) : Rel 6442451329 d (Dev.wktWake d w) := by
  unfold Dev.wktWake
  with_reducible repeat' first | assumption | decide | rfl | refine Rel.step (by apply rel_Dev_wakeFrom) ?_ ?_ | refine Rel.step (by apply rel_Dev_msixSend) ?_ ?_ | refine Rel.ite ?_ ?_ | split | intro _ | dsimp only

theorem rel_Dev_wktPost (d : Dev) (w : Nat) (msg : List Byte) : Rel 6979322241 d (Dev.wktPost d w msg) := by
  unfold Dev.wktPost
  with_reducible repeat' first | assumption | decide | rfl | refine Rel.step (by apply rel_Dev_setWkt) ?_ ?_ | refine Rel.step (by apply rel_Dev_wktWake) ?_ ?_ | refine Rel.step (by apply rel_Dev_count) ?_ ?_ | refine Rel.ite ?_ ?_ | split | intro _ | dsimp only

theorem rel_Dev_wktWrite {m : Nat} {d : Dev} {id : Nat} {off : Nat} {act : Dev → Dev} (hm : 1 &&& m = 1) (hf : ∀ d, Rel m d (act d)) : Rel m d (Dev.wktWrite d id off act) := by
  unfold Dev.wktWrite
  with_reducible repeat' first | assumption | decide | rfl | (apply Rel.trans; swap; apply hf) | (apply Rel.trans; swap; apply rel_Dev_bar0Write hm) | refine Rel.ite ?_ ?_ | split | intro _ | dsimp only

theorem rel_Dev_wktPostReg (d : Dev) (id : Nat) (w : Nat) (value : Word) (buf : List Byte) : Rel 6979322241 d (Dev.wktPostReg d id w value buf) := by
  unfold Dev.wktPostReg
  with_reducible repeat' first | assumption | decide | rfl | refine Rel.step (by apply rel_Dev_setWktBuf) ?_ ?_ | (apply Rel.trans; swap; apply rel_Dev_wktWrite) | refine Rel.step (by apply rel_Dev_wktPost) ?_ ?_ | refine Rel.step (by apply rel_Dev_wktDeny) ?_ ?_ | refine Rel.ite ?_ ?_ | split | intro _ | dsimp only

theorem rel_Dev_wktStat (d : Dev) (id : Nat) (w : Nat) : Rel 9126805505 d (Dev.wktStat d id w) := by
  unfold Dev.wktStat
  with_reducible repeat' first | assumption | decide | rfl | refine Rel.step (by apply rel_Dev_wktDeny) ?_ ?_ | refine Rel.step (by apply rel_Dev_wktSnap) ?_ ?_ | (apply Rel.trans; swap; apply rel_Dev_bar0Read) | refine Rel.ite ?_ ?_ | simp only [Nat.reduceAnd, Rel.u_lastRead] | split | intro _ | dsimp only

theorem rel_Dev_wktTakeReg (d : Dev) (id : Nat) (w : Nat) (value : Word) : Rel 4831904129 d (Dev.wktTakeReg d id w value) := by
  unfold Dev.wktTakeReg
  with_reducible repeat' first | assumption | decide | rfl | (apply Rel.trans; swap; apply rel_Dev_wktWrite) | refine Rel.step (by apply rel_Dev_wktDeny) ?_ ?_ | refine Rel.step (by apply rel_Dev_wktTake) ?_ ?_ | refine Rel.step (by apply rel_Dev_tollNotice) ?_ ?_ | refine Rel.ite ?_ ?_ | split | intro _ | dsimp only

theorem rel_execClusterWicketDeliver (w : Nat) (s : State) {u : State} (h : execClusterWicketDeliver w s = .next u) : Rel 541065219 s.dev u.dev := by
  refine run_rel (fun _ => ?_) h
  with_reducible repeat' first | assumption | decide | rfl | refine Rel.step (by apply rel_Dev_clusterDeliver) ?_ ?_ | intro _ | dsimp only

theorem rel_execWktBindWrite (pf : Nat) (w : Nat) (value : Word) (s : State) {u : State} (h : execWktBindWrite pf w value s = .next u) : Rel 536870913 s.dev u.dev := by
  refine run_rel (fun _ => ?_) h
  with_reducible repeat' first | assumption | decide | rfl | refine Rel.step (by apply rel_Dev_wktBindReg) ?_ ?_ | intro _ | dsimp only

theorem rel_execWktLock (pf : Nat) (value : Word) (s : State) {u : State} (h : execWktLock pf value s = .next u) : Rel 1 s.dev u.dev := by
  refine run_rel (fun _ => ?_) h
  with_reducible repeat' first | assumption | decide | rfl | refine Rel.step (by apply rel_Dev_setBit) ?_ ?_ | (apply Rel.trans; swap; apply rel_Dev_bar0Write) | refine Rel.ite ?_ ?_ | intro _ | dsimp only

theorem rel_execWktPost (id : Nat) (w : Nat) (value : Word) (buf : List Byte) (s : State) {u : State} (h : execWktPost id w value buf s = .next u) : Rel 6979322241 s.dev u.dev := by
  refine runAon_rel (fun _ => ?_) h
  with_reducible repeat' first | assumption | decide | rfl | refine Rel.step (by apply rel_Dev_wktPostReg) ?_ ?_ | intro _ | dsimp only

theorem rel_execWktStat (id : Nat) (w : Nat) (s : State) {u : State} (h : execWktStat id w s = .next u) : Rel 9126805505 s.dev u.dev := by
  refine runAon_rel (fun _ => ?_) h
  with_reducible repeat' first | assumption | decide | rfl | refine Rel.step (by apply rel_Dev_wktStat) ?_ ?_ | intro _ | dsimp only

theorem rel_execWktTake (id : Nat) (w : Nat) (value : Word) (s : State) {u : State} (h : execWktTake id w value s = .next u) : Rel 4831904129 s.dev u.dev := by
  refine runAon_rel (fun _ => ?_) h
  with_reducible repeat' first | assumption | decide | rfl | refine Rel.step (by apply rel_Dev_wktTakeReg) ?_ ?_ | intro _ | dsimp only

end Sys2Proof.Laws
end

