-- ==== Sys2Proof/Laws/Frames/Cores.lean ====
section
/-! SUPPORT. What each function of Machine/Cores.lean may change. -/

set_option linter.unusedTactic false
set_option linter.unreachableTactic false

namespace Sys2Proof.Laws

open Sys2Proof Sys2Proof.Machine

theorem rel_Dev_abortMsg (d : Dev) (g : Nat) (e : Nat) : Rel 4194305 d (Dev.abortMsg d g e) := by
  unfold Dev.abortMsg
  with_reducible repeat' first | assumption | decide | rfl | refine Rel.step (by apply rel_Dev_setThread) ?_ ?_ | refine Rel.step (by apply rel_Dev_count) ?_ ?_ | refine Rel.ite ?_ ?_ | split | intro _ | dsimp only

theorem rel_Dev_unreserve (d : Dev) (g : Nat) (lo : Nat) (hi : Nat) (line : Nat) : Rel 4194304 d (Dev.unreserve d g lo hi line) := by
  unfold Dev.unreserve
  with_reducible repeat' first | assumption | decide | rfl | refine Rel.foldl (fun _ _ => ?_) ?_ | refine Rel.foldl1 (fun _ _ => ?_) ?_ | refine Rel.foldl2 (fun _ _ => ?_) ?_ | refine Rel.step (by apply rel_Dev_setThread) ?_ ?_ | refine Rel.ite ?_ ?_ | split | intro _ | dsimp only

theorem rel_Dev_shrWrite (d : Dev) (g : Nat) (o : Nat) (b : List Byte) : Rel 4194304 d (Dev.shrWrite d g o b) := by
  unfold Dev.shrWrite
  with_reducible repeat' first | assumption | decide | rfl | refine Rel.step (by apply rel_Dev_setCluster) ?_ ?_ | refine Rel.step (by apply rel_Dev_unreserve) ?_ ?_ | split | intro _ | dsimp only

theorem rel_Dev_locWrite (d : Dev) (g : Nat) (o : Nat) (b : List Byte) : Rel 4194304 d (Dev.locWrite d g o b) := by
  unfold Dev.locWrite
  with_reducible repeat' first | assumption | decide | rfl | refine Rel.step (by apply rel_Dev_unreserve) ?_ ?_ | refine Rel.step (by apply rel_Dev_setCore) ?_ ?_ | split | intro _ | dsimp only

theorem rel_Dev_spotWrite (d : Dev) (g : Nat) (a : Nat) (b : List Byte) : OptRel 4194306 d (Dev.spotWrite d g a b) := by
  unfold Dev.spotWrite
  with_reducible repeat' first | assumption | decide | rfl | refine Rel.getD ?_ ?_ | exact OptRel.none | refine OptRel.some ?_ | refine OptRel.ite ?_ ?_ | refine OptRel.mapD (fun _ => ?_) ?_ | refine OptRel.map (fun _ => ?_) | refine OptRel.bindD (fun _ => ?_) ?_ | refine OptRel.bind (fun _ => ?_) | refine Rel.step (by apply rel_Dev_shrWrite) ?_ ?_ | refine Rel.step (by apply rel_Dev_hbmWrite) ?_ ?_ | refine Rel.step (by apply rel_Dev_locWrite) ?_ ?_ | refine Rel.ite ?_ ?_ | split | intro _ | dsimp only

theorem rel_Dev_coreFates (d : Dev) (n : Nat) : Rel 4299718669 d (Dev.coreFates d n) := by
  unfold Dev.coreFates
  with_reducible repeat' first | assumption | decide | rfl | refine Rel.foldl (fun _ _ => ?_) ?_ | refine Rel.foldl1 (fun _ _ => ?_) ?_ | refine Rel.foldl2 (fun _ _ => ?_) ?_ | refine Rel.step (by apply rel_Dev_coreFate) ?_ ?_ | refine Rel.step (by apply rel_Dev_setCore) ?_ ?_ | split | intro _ | dsimp only

theorem rel_Dev_freezeThreads (d : Dev) (n : Nat) (code : Nat) : Rel 4194305 d (Dev.freezeThreads d n code) := by
  unfold Dev.freezeThreads
  with_reducible repeat' first | assumption | decide | rfl | refine Rel.foldl (fun _ _ => ?_) ?_ | refine Rel.foldl1 (fun _ _ => ?_) ?_ | refine Rel.foldl2 (fun _ _ => ?_) ?_ | refine Rel.step (by apply rel_Dev_abortMsg) ?_ ?_ | refine Rel.step (by apply rel_Dev_setCore) ?_ ?_ | split | intro _ | dsimp only

theorem rel_Dev_beginStart (d : Dev) (n : Nat) (slot : Nat) (shared : Bool) : Rel 4299718669 d (Dev.beginStart d n slot shared) := by
  unfold Dev.beginStart
  with_reducible repeat' first | assumption | decide | rfl | refine Rel.step (by apply rel_Dev_coreFates) ?_ ?_ | refine Rel.step (by apply rel_Dev_freezeThreads) ?_ ?_ | refine Rel.step (by apply rel_Dev_setCore) ?_ ?_ | refine Rel.ite ?_ ?_ | split | intro _ | dsimp only

theorem rel_Dev_capture (d : Dev) (n : Nat) (cause : Nat) (states : Nat) : Rel 4194304 d (Dev.capture d n cause states) := by
  unfold Dev.capture
  with_reducible repeat' first | assumption | decide | rfl | refine Rel.step (by apply rel_Dev_setCore) ?_ ?_ | split | intro _ | dsimp only

theorem rel_Dev_freeze (d : Dev) (n : Nat) (code : Nat) (cause : Nat) : Rel 4299718669 d (Dev.freeze d n code cause) := by
  unfold Dev.freeze
  with_reducible repeat' first | assumption | decide | rfl | refine Rel.step (by apply rel_Dev_capture) ?_ ?_ | refine Rel.step (by apply rel_Dev_coreFates) ?_ ?_ | refine Rel.step (by apply rel_Dev_freezeThreads) ?_ ?_ | split | intro _ | dsimp only

theorem rel_Dev_coreDown (d : Dev) (n : Nat) (code : Nat) : Rel 4299784589 d (Dev.coreDown d n code) := by
  unfold Dev.coreDown
  with_reducible repeat' first | assumption | decide | rfl | refine Rel.step (by apply rel_Dev_beginStart) ?_ ?_ | refine Rel.step (by apply rel_Dev_setBit) ?_ ?_ | refine Rel.step (by apply rel_Dev_pfEvent) ?_ ?_ | refine Rel.step (by apply rel_Dev_freeze) ?_ ?_ | refine Rel.step (by apply rel_Dev_count) ?_ ?_ | refine Rel.ite ?_ ?_ | split | intro _ | dsimp only

theorem rel_Dev_except (d : Dev) (g : Nat) (cause : Nat) (mtval : Dword) : Rel 4299784591 d (Dev.except d g cause mtval) := by
  unfold Dev.except
  with_reducible repeat' first | assumption | decide | rfl | refine Rel.step (by apply rel_Dev_raise) ?_ ?_ | refine Rel.step (by apply rel_Dev_setThread) ?_ ?_ | refine Rel.step (by apply rel_Dev_traceRec) ?_ ?_ | refine Rel.step (by apply rel_Dev_coreDown) ?_ ?_ | refine Rel.step (by apply rel_Dev_abortMsg) ?_ ?_ | refine Rel.step (by apply rel_Dev_setCore) ?_ ?_ | refine Rel.ite ?_ ?_ | split | intro _ | dsimp only

theorem rel_Dev_retire (d : Dev) (g : Nat) (len : Nat) : Rel 4194304 d (Dev.retire d g len) := by
  unfold Dev.retire
  with_reducible repeat' first | assumption | decide | rfl | refine Rel.step (by apply rel_Dev_setThread) ?_ ?_ | split | intro _ | dsimp only

theorem rel_Dev_ret (d : Dev) (g : Nat) (rd : Nat) (v : Dword) : Rel 4194304 d (Dev.ret d g rd v) := by
  unfold Dev.ret
  with_reducible repeat' first | assumption | decide | rfl | refine Rel.step (by apply rel_Dev_retire) ?_ ?_ | refine Rel.step (by apply rel_Dev_setThread) ?_ ?_ | split | intro _ | dsimp only

theorem rel_Dev_retN (d : Dev) (g : Nat) (rd : Nat) (v : Nat) : Rel 4194304 d (Dev.retN d g rd v) := by
  unfold Dev.retN
  with_reducible repeat' first | assumption | decide | rfl | refine Rel.step (by apply rel_Dev_ret) ?_ ?_ | split | intro _ | dsimp only

theorem rel_Dev_winRead (d : Dev) (a : Nat) (n : Nat) : Rel 17179869184 d (Dev.winRead d a n).2 := by
  unfold Dev.winRead
  with_reducible repeat' first | assumption | decide | rfl | refine Rel.step (by apply rel_Dev_draw) ?_ ?_ | refine Rel.step (by apply rel_Dev_draw'; assumption) ?_ ?_ | refine Rel.ite ?_ ?_ | split | intro _ | dsimp only
theorem rel_Dev_winRead' {d : Dev} {a : Nat} {n : Nat} {p0 : List Byte} {p1 : Dev} (h : Dev.winRead d a n = (p0, p1)) : Rel 17179869184 d p1 := by
  have k := rel_Dev_winRead d a n
  rw [h] at k
  exact k

theorem rel_Dev_spotRead {d : Dev} {g a n : Nat} {p0 : List Byte} {p1 : Dev} (h : Dev.spotRead d g a n = some (p0, p1)) :
    Rel 17179869184 d p1 := by
  unfold Dev.spotRead at h
  split at h
  · cases h; exact Rel.refl _ _
  · cases h; exact Rel.refl _ _
  · split at h
    · rw [Option.some.injEq] at h
      exact rel_Dev_winRead' h
    · cases h
  · cases h

theorem rel_Dev_amo (d : Dev) (g : Nat) (op : Nat) (rd : Nat) (rs1 : Nat) (rs2 : Nat) (size : Nat) : Rel 21479653775 d (Dev.amo d g op rd rs1 rs2 size) := by
  unfold Dev.amo
  with_reducible repeat' first | assumption | decide | rfl | refine Rel.getD ?_ ?_ | exact OptRel.none | refine OptRel.some ?_ | refine OptRel.ite ?_ ?_ | refine OptRel.mapD (fun _ => ?_) ?_ | refine OptRel.map (fun _ => ?_) | refine OptRel.bindD (fun _ => ?_) ?_ | refine OptRel.bind (fun _ => ?_) | refine OptRel.step (by apply rel_Dev_spotWrite) ?_ ?_ | refine Rel.step (by apply OptRel.use; assumption; apply rel_Dev_spotWrite) ?_ ?_ | refine Rel.step (by apply rel_Dev_except) ?_ ?_ | refine Rel.step (by apply rel_Dev_retN) ?_ ?_ | refine Rel.step (by apply rel_Dev_setThread) ?_ ?_ | refine Rel.step (by apply rel_Dev_spotRead; assumption) ?_ ?_ | refine Rel.step (by apply rel_Dev_ret) ?_ ?_ | refine Rel.ite ?_ ?_ | split | intro _ | dsimp only

theorem rel_Dev_insn {m : Nat} {d : Dev} {g : Nat} {k : Dev → Thread → Dev} (hm : 0 &&& m = 0) (hf : ∀ d t, Rel m d (k d t)) : Rel m d (Dev.insn d g k) := by
  unfold Dev.insn
  with_reducible repeat' first | assumption | decide | rfl | (apply Rel.trans; swap; apply hf) | refine Rel.ite ?_ ?_ | split | intro _ | dsimp only

theorem rel_Dev_chabt (d : Dev) (g : Nat) : Rel 4194305 d (Dev.chabt d g) := by
  unfold Dev.chabt
  with_reducible repeat' first | assumption | decide | rfl | refine Rel.step (by apply rel_Dev_retire) ?_ ?_ | (apply Rel.trans; swap; apply rel_Dev_insn) | refine Rel.step (by apply rel_Dev_abortMsg) ?_ ?_ | split | intro _ | dsimp only

theorem rel_Dev_chcmt (d : Dev) (g : Nat) (rd : Nat) : Rel 24196940163 d (Dev.chcmt d g rd) := by
  unfold Dev.chcmt
  with_reducible repeat' first | assumption | decide | rfl | refine Rel.step (by apply rel_Dev_deliver) ?_ ?_ | refine Rel.step (by apply rel_Dev_deliver'; assumption) ?_ ?_ | refine Rel.step (by apply rel_Dev_wktPost) ?_ ?_ | refine Rel.step (by apply rel_Dev_retN) ?_ ?_ | (apply Rel.trans; swap; apply rel_Dev_insn) | refine Rel.step (by apply rel_Dev_setThread) ?_ ?_ | refine Rel.step (by apply rel_Dev_ret) ?_ ?_ | refine Rel.step (by apply rel_Dev_hsPost) ?_ ?_ | refine Rel.step (by apply rel_Dev_draw) ?_ ?_ | refine Rel.step (by apply rel_Dev_draw'; assumption) ?_ ?_ | refine Rel.ite ?_ ?_ | split | intro _ | dsimp only

theorem rel_Dev_withLocal {m : Nat} {d : Dev} {g : Nat} {v : Dword} {n : Nat} {align : Nat} {store : Bool} {k : Nat → Dev} (hm : 4299784591 &&& m = 4299784591) (hf : ∀ x, Rel m d (k x)) : Rel m d (Dev.withLocal d g v n align store k) := by
  unfold Dev.withLocal
  with_reducible repeat' first | assumption | decide | rfl | apply hf | refine Rel.step2 hm (by apply rel_Dev_except) ?_ ?_ | refine Rel.ite ?_ ?_ | split | intro _ | dsimp only

theorem rel_Dev_chrecv (d : Dev) (g : Nat) (rd : Nat) (rs1 : Nat) (rs2 : Nat) : Rel 4299784591 d (Dev.chrecv d g rd rs1 rs2) := by
  unfold Dev.chrecv
  with_reducible repeat' first | assumption | decide | rfl | refine Rel.step (by apply rel_Dev_except) ?_ ?_ | (apply Rel.trans; swap; apply rel_Dev_withLocal) | refine Rel.step (by apply rel_Dev_retN) ?_ ?_ | (apply Rel.trans; swap; apply rel_Dev_insn) | refine Rel.step (by apply rel_Dev_setCh) ?_ ?_ | refine Rel.step (by apply rel_Dev_locWrite) ?_ ?_ | refine Rel.ite ?_ ?_ | split | intro _ | dsimp only

theorem rel_Dev_chsend (d : Dev) (g : Nat) (rs1 : Nat) : Rel 4299784591 d (Dev.chsend d g rs1) := by
  unfold Dev.chsend
  with_reducible repeat' first | assumption | decide | rfl | refine Rel.step (by apply rel_Dev_except) ?_ ?_ | refine Rel.step (by apply rel_Dev_retire) ?_ ?_ | refine Rel.step (by apply rel_Dev_setThread) ?_ ?_ | refine Rel.step (by apply rel_Dev_abortMsg) ?_ ?_ | refine Rel.ite ?_ ?_ | split | intro _ | dsimp only

theorem rel_Dev_chw (d : Dev) (g : Nat) (rs1 : Nat) (rs2 : Nat) : Rel 4299784591 d (Dev.chw d g rs1 rs2) := by
  unfold Dev.chw
  with_reducible repeat' first | assumption | decide | rfl | refine Rel.step (by apply rel_Dev_except) ?_ ?_ | refine Rel.step (by apply rel_Dev_retire) ?_ ?_ | (apply Rel.trans; swap; apply rel_Dev_insn) | refine Rel.step (by apply rel_Dev_setThread) ?_ ?_ | refine Rel.ite ?_ ?_ | split | intro _ | dsimp only

theorem rel_Dev_mret (d : Dev) (g : Nat) : Rel 4194304 d (Dev.mret d g) := by
  unfold Dev.mret
  with_reducible repeat' first | assumption | decide | rfl | refine Rel.step (by apply rel_Dev_setThread) ?_ ?_ | refine Rel.step (by apply rel_Dev_setCore) ?_ ?_ | split | intro _ | dsimp only

theorem rel_Dev_illegal (d : Dev) (g : Nat) : Rel 21479653775 d (Dev.illegal d g) := by
  unfold Dev.illegal
  with_reducible repeat' first | assumption | decide | rfl | refine Rel.step (by apply rel_Dev_except) ?_ ?_ | refine Rel.step (by apply rel_Dev_draw) ?_ ?_ | refine Rel.step (by apply rel_Dev_draw'; assumption) ?_ ?_ | split | intro _ | dsimp only

theorem rel_Dev_coreException (d : Dev) (g : Nat) (cause : Nat) (mtval : Dword) (mret : Bool) : Rel 21479653775 d (Dev.coreException d g cause mtval mret) := by
  unfold Dev.coreException
  with_reducible repeat' first | assumption | decide | rfl | refine Rel.step (by apply rel_Dev_except) ?_ ?_ | (apply Rel.trans; swap; apply rel_Dev_insn) | refine Rel.step (by apply rel_Dev_mret) ?_ ?_ | refine Rel.step (by apply rel_Dev_illegal) ?_ ?_ | refine Rel.ite ?_ ?_ | split | intro _ | dsimp only

theorem rel_Dev_ctadd (d : Dev) (g : Nat) (rs1 : Nat) (rs2 : Nat) : Rel 4299784591 d (Dev.ctadd d g rs1 rs2) := by
  unfold Dev.ctadd
  with_reducible repeat' first | assumption | decide | rfl | refine Rel.step (by apply rel_Dev_except) ?_ ?_ | refine Rel.step (by apply rel_Dev_retire) ?_ ?_ | (apply Rel.trans; swap; apply rel_Dev_insn) | refine Rel.step (by apply rel_Dev_hbmWrite) ?_ ?_ | refine Rel.ite ?_ ?_ | split | intro _ | dsimp only

theorem rel_Dev_ctpb (d : Dev) (g : Nat) (rs1 : Nat) (rs2 : Nat) : Rel 4194307 d (Dev.ctpb d g rs1 rs2) := by
  unfold Dev.ctpb
  with_reducible repeat' first | assumption | decide | rfl | refine Rel.step (by apply rel_Dev_ctrAdd) ?_ ?_ | refine Rel.step (by apply rel_Dev_retire) ?_ ?_ | (apply Rel.trans; swap; apply rel_Dev_insn) | refine Rel.step (by apply rel_Dev_count) ?_ ?_ | refine Rel.ite ?_ ?_ | split | intro _ | dsimp only

theorem rel_Dev_evsig (d : Dev) (g : Nat) (rs1 : Nat) : Rel 4194306 d (Dev.evsig d g rs1) := by
  unfold Dev.evsig
  with_reducible repeat' first | assumption | decide | rfl | refine Rel.foldl (fun _ _ => ?_) ?_ | refine Rel.foldl1 (fun _ _ => ?_) ?_ | refine Rel.foldl2 (fun _ _ => ?_) ?_ | refine Rel.step (by apply rel_Dev_retire) ?_ ?_ | (apply Rel.trans; swap; apply rel_Dev_insn) | refine Rel.step (by apply rel_Dev_raise) ?_ ?_ | refine Rel.ite ?_ ?_ | split | intro _ | dsimp only

theorem rel_Dev_evwait (d : Dev) (g : Nat) (rd : Nat) (rs1 : Nat) : Rel 4194306 d (Dev.evwait d g rd rs1) := by
  unfold Dev.evwait
  with_reducible repeat' first | assumption | decide | rfl | refine Rel.step (by apply rel_Dev_wake) ?_ ?_ | refine Rel.step (by apply rel_Dev_retN) ?_ ?_ | (apply Rel.trans; swap; apply rel_Dev_insn) | refine Rel.step (by apply rel_Dev_setThread) ?_ ?_ | refine Rel.ite ?_ ?_ | split | intro _ | dsimp only

theorem rel_Dev_giveUp (d : Dev) (g : Nat) (tok : Nat) : Rel 4194304 d (Dev.giveUp d g tok) := by
  unfold Dev.giveUp
  with_reducible repeat' first | assumption | decide | rfl | refine Rel.step (by apply rel_Dev_setCore) ?_ ?_ | split | intro _ | dsimp only

theorem rel_Dev_gridlock (d : Dev) (n : Nat) : Rel 4299784589 d (Dev.gridlock d n) := by
  unfold Dev.gridlock
  with_reducible repeat' first | assumption | decide | rfl | refine Rel.step (by apply rel_Dev_coreDown) ?_ ?_ | refine Rel.ite ?_ ?_ | split | intro _ | dsimp only

theorem rel_Dev_resizeTok (d : Dev) (g : Nat) (rd : Nat) (tok : Nat) (len : Int) (data : List Byte) : Rel 4194308 d (Dev.resizeTok d g rd tok len data) := by
  unfold Dev.resizeTok
  with_reducible repeat' first | assumption | decide | rfl | refine Rel.getD ?_ ?_ | exact OptRel.none | refine OptRel.some ?_ | refine OptRel.ite ?_ ?_ | refine OptRel.mapD (fun _ => ?_) ?_ | refine OptRel.map (fun _ => ?_) | refine OptRel.bindD (fun _ => ?_) ?_ | refine OptRel.bind (fun _ => ?_) | refine Rel.step (by apply rel_Dev_retN) ?_ ?_ | refine OptRel.step (by apply rel_Dev_resizePkt) ?_ ?_ | refine Rel.step (by apply OptRel.use; assumption; apply rel_Dev_resizePkt) ?_ ?_ | refine Rel.ite ?_ ?_ | split | intro _ | dsimp only

theorem rel_Dev_withToken {m : Nat} {d : Dev} {g : Nat} {v : Dword} {k : Nat → Packet → Dev} (hm : 4299784591 &&& m = 4299784591) (hf : ∀ x p, Rel m d (k x p)) : Rel m d (Dev.withToken d g v k) := by
  unfold Dev.withToken
  with_reducible repeat' first | assumption | decide | rfl | apply hf | refine Rel.step2 hm (by apply rel_Dev_except) ?_ ?_ | refine Rel.ite ?_ ?_ | split | intro _ | dsimp only

theorem rel_Dev_hadj (d : Dev) (g : Nat) (rd : Nat) (rs1 : Nat) (rs2 : Nat) : Rel 4299784591 d (Dev.hadj d g rd rs1 rs2) := by
  unfold Dev.hadj
  with_reducible repeat' first | assumption | decide | rfl | refine Rel.step (by apply rel_Dev_resizeTok) ?_ ?_ | (apply Rel.trans; swap; apply rel_Dev_insn) | (apply Rel.trans; swap; apply rel_Dev_withToken) | refine Rel.ite ?_ ?_ | split | intro _ | dsimp only

theorem rel_Dev_hld (d : Dev) (g : Nat) (rd : Nat) (rs1 : Nat) (imm : Nat) (size : Nat) : Rel 4299784591 d (Dev.hld d g rd rs1 imm size) := by
  unfold Dev.hld
  with_reducible repeat' first | assumption | decide | rfl | refine Rel.step (by apply rel_Dev_except) ?_ ?_ | refine Rel.step (by apply rel_Dev_retN) ?_ ?_ | (apply Rel.trans; swap; apply rel_Dev_insn) | (apply Rel.trans; swap; apply rel_Dev_withToken) | refine Rel.ite ?_ ?_ | split | intro _ | dsimp only

theorem rel_Dev_hlen (d : Dev) (g : Nat) (rd : Nat) (rs1 : Nat) (rs2 : Nat) : Rel 4299784591 d (Dev.hlen d g rd rs1 rs2) := by
  unfold Dev.hlen
  with_reducible repeat' first | assumption | decide | rfl | refine Rel.step (by apply rel_Dev_resizeTok) ?_ ?_ | (apply Rel.trans; swap; apply rel_Dev_insn) | (apply Rel.trans; swap; apply rel_Dev_withToken) | refine Rel.ite ?_ ?_ | split | intro _ | dsimp only

theorem rel_Dev_hold (d : Dev) (g : Nat) (tok : Nat) (h : Option Nat) : Rel 4194304 d (Dev.hold d g tok h) := by
  unfold Dev.hold
  with_reducible repeat' first | assumption | decide | rfl | refine Rel.step (by apply rel_Dev_setCore) ?_ ?_ | split | intro _ | dsimp only

theorem rel_Dev_hst (d : Dev) (g : Nat) (rs1 : Nat) (rs2 : Nat) (imm : Nat) (size : Nat) : Rel 4299784591 d (Dev.hst d g rs1 rs2 imm size) := by
  unfold Dev.hst
  with_reducible repeat' first | assumption | decide | rfl | refine Rel.step (by apply rel_Dev_except) ?_ ?_ | refine Rel.step (by apply rel_Dev_retire) ?_ ?_ | (apply Rel.trans; swap; apply rel_Dev_insn) | refine Rel.step (by apply rel_Dev_setPkt) ?_ ?_ | (apply Rel.trans; swap; apply rel_Dev_withToken) | refine Rel.ite ?_ ?_ | split | intro _ | dsimp only

theorem rel_Dev_leaseExpire (d : Dev) (g : Nat) : Rel 4194305 d (Dev.leaseExpire d g) := by
  unfold Dev.leaseExpire
  with_reducible repeat' first | assumption | decide | rfl | refine Rel.step (by apply rel_Dev_setThread) ?_ ?_ | refine Rel.step (by apply rel_Dev_count) ?_ ?_ | refine Rel.ite ?_ ?_ | split | intro _ | dsimp only

theorem rel_Dev_lkup (d : Dev) (g : Nat) (rd : Nat) (rs1 : Nat) (rs2 : Nat) : Rel 4299784591 d (Dev.lkup d g rd rs1 rs2) := by
  unfold Dev.lkup
  with_reducible repeat' first | assumption | decide | rfl | (apply Rel.trans; swap; apply rel_Dev_withLocal) | refine Rel.step (by apply rel_Dev_retN) ?_ ?_ | (apply Rel.trans; swap; apply rel_Dev_insn) | refine Rel.step (by apply rel_Dev_setThread) ?_ ?_ | refine Rel.ite ?_ ?_ | split | intro _ | dsimp only

theorem rel_Dev_lkupDone (d : Dev) (g : Nat) (ecc : Ecc) : Rel 4194315 d (Dev.lkupDone d g ecc) := by
  unfold Dev.lkupDone
  with_reducible repeat' first | assumption | decide | rfl | refine Rel.step (by apply rel_Dev_lookup) ?_ ?_ | refine Rel.step (by apply rel_Dev_lookup'; assumption) ?_ ?_ | refine Rel.step (by apply rel_Dev_applyEcc) ?_ ?_ | refine Rel.step (by apply rel_Dev_raise) ?_ ?_ | refine Rel.step (by apply rel_Dev_setThread) ?_ ?_ | refine Rel.step (by apply rel_Dev_hitLine) ?_ ?_ | refine Rel.step (by apply rel_Dev_locWrite) ?_ ?_ | refine Rel.ite ?_ ?_ | split | intro _ | dsimp only

theorem rel_Dev_pkCopy (d : Dev) (g rd rs1 rs2 : Nat) (write : Bool) : Rel 21479653775 d (Dev.pkCopy d g rd rs1 rs2 write) := by
  unfold Dev.pkCopy
  with_reducible apply rel_Dev_insn
  · decide
  intro d t
  with_reducible apply rel_Dev_withToken
  · decide
  intro tok p
  with_reducible apply rel_Dev_withLocal
  · decide
  intro a
  dsimp only
  have kr : ∀ (x : Dev) (v : Nat), Rel 21479653775 d x → Rel 21479653775 d (x.retN g rd v) := fun x v h => Rel.step (rel_Dev_retN ..) (by decide) h
  have ke : ∀ (x : Dev) (c : Nat) (v : Dword), Rel 21479653775 d x → Rel 21479653775 d (x.except g c v) := fun x c v h => Rel.step (rel_Dev_except ..) (by decide) h
  generalize leAt (d.locRead g a 16) 0 4 = off
  generalize leAt (d.locRead g a 16) 4 4 = n
  generalize leAt (d.locRead g a 16) 8 8 = at_
  with_reducible refine Rel.ite (kr _ _ (Rel.refl _ _)) (Rel.ite (ke _ _ _ (Rel.refl _ _)) ?_)
  have hb : Rel 21479653775 d (if write = true then
        match d.spotRead g at_ n with
        | some (b, d) => (d.setPkt tok { p with data := patch p.data off b }).retN g rd 0
        | none => d.except g (if write = true then 5 else 7) (BitVec.ofNat 64 at_)
      else
        match d.spotWrite g at_ (slice p.data off n) with
        | some d => d.retN g rd 0
        | none => d.except g (if write = true then 5 else 7) (BitVec.ofNat 64 at_)) := by
    with_reducible refine Rel.ite ?_ ?_
    · cases h : d.spotRead g at_ n with
      | none => exact ke _ _ _ (Rel.refl _ _)
      | some x => exact kr _ _ (Rel.step (rel_Dev_setPkt ..) (by decide) (Rel.mono (rel_Dev_spotRead h) (by decide)))
    · cases h : d.spotWrite g at_ (slice p.data off n) with
      | none => exact ke _ _ _ (Rel.refl _ _)
      | some x => exact kr _ _ (Rel.mono (OptRel.use h (rel_Dev_spotWrite ..)) (by decide))
  cases d.spot g at_ n with
  | win _ _ _ => exact ke _ _ _ (Rel.refl _ _)
  | bad => exact ke _ _ _ (Rel.refl _ _)
  | loc _ => exact hb
  | shr _ => exact hb

theorem rel_Dev_thrGo (d : Dev) (g : Nat) (rd : Nat) (rs1 : Nat) : Rel 21479653775 d (Dev.thrGo d g rd rs1) := by
  unfold Dev.thrGo
  with_reducible repeat' first | assumption | decide | rfl | refine Rel.foldl (fun _ _ => ?_) ?_ | refine Rel.foldl1 (fun _ _ => ?_) ?_ | refine Rel.foldl2 (fun _ _ => ?_) ?_ | refine Rel.step (by apply rel_Dev_retN) ?_ ?_ | (apply Rel.trans; swap; apply rel_Dev_insn) | refine Rel.step (by apply rel_Dev_setThread) ?_ ?_ | refine Rel.step (by apply rel_Dev_illegal) ?_ ?_ | refine Rel.ite ?_ ?_ | split | intro _ | dsimp only

theorem rel_Dev_thrStop (d : Dev) (g : Nat) (rd : Nat) (rs1 : Nat) : Rel 21479653775 d (Dev.thrStop d g rd rs1) := by
  unfold Dev.thrStop
  with_reducible repeat' first | assumption | decide | rfl | refine Rel.foldl (fun _ _ => ?_) ?_ | refine Rel.foldl1 (fun _ _ => ?_) ?_ | refine Rel.foldl2 (fun _ _ => ?_) ?_ | refine Rel.step (by apply rel_Dev_retN) ?_ ?_ | (apply Rel.trans; swap; apply rel_Dev_insn) | refine Rel.step (by apply rel_Dev_setThread) ?_ ?_ | refine Rel.step (by apply rel_Dev_illegal) ?_ ?_ | refine Rel.step (by apply rel_Dev_abortMsg) ?_ ?_ | refine Rel.ite ?_ ?_ | split | intro _ | dsimp only

theorem rel_Dev_threadAccess (d : Dev) (g : Nat) (acc : ThreadAcc) : Rel 21479653775 d (Dev.threadAccess d g acc) := by
  unfold Dev.threadAccess
  with_reducible repeat' first | assumption | decide | rfl | refine Rel.getD ?_ ?_ | exact OptRel.none | refine OptRel.some ?_ | refine OptRel.ite ?_ ?_ | refine OptRel.mapD (fun _ => ?_) ?_ | refine OptRel.map (fun _ => ?_) | refine OptRel.bindD (fun _ => ?_) ?_ | refine OptRel.bind (fun _ => ?_) | refine OptRel.step (by apply rel_Dev_spotWrite) ?_ ?_ | refine Rel.step (by apply OptRel.use; assumption; apply rel_Dev_spotWrite) ?_ ?_ | refine Rel.step (by apply rel_Dev_except) ?_ ?_ | refine Rel.step (by apply rel_Dev_retire) ?_ ?_ | (apply Rel.trans; swap; apply rel_Dev_insn) | refine Rel.step (by apply rel_Dev_amo) ?_ ?_ | refine Rel.step (by apply rel_Dev_setThread) ?_ ?_ | refine Rel.step (by apply rel_Dev_traceRec) ?_ ?_ | refine Rel.step (by apply rel_Dev_spotRead; assumption) ?_ ?_ | refine Rel.ite ?_ ?_ | split | intro _ | dsimp only

theorem rel_Dev_threadTimer (d : Dev) (g : Nat) : Rel 4194306 d (Dev.threadTimer d g) := by
  unfold Dev.threadTimer
  with_reducible repeat' first | assumption | decide | rfl | refine Rel.step (by apply rel_Dev_raise) ?_ ?_ | refine Rel.step (by apply rel_Dev_setThread) ?_ ?_ | refine Rel.ite ?_ ?_ | split | intro _ | dsimp only

theorem rel_Dev_tkexc (d : Dev) (g : Nat) (rs1 : Nat) (rs2 : Nat) : Rel 4299784591 d (Dev.tkexc d g rs1 rs2) := by
  unfold Dev.tkexc
  with_reducible repeat' first | assumption | decide | rfl | refine Rel.step (by apply rel_Dev_retire) ?_ ?_ | (apply Rel.trans; swap; apply rel_Dev_insn) | refine Rel.step (by apply rel_Dev_toExcRing) ?_ ?_ | refine Rel.step (by apply rel_Dev_giveUp) ?_ ?_ | (apply Rel.trans; swap; apply rel_Dev_withToken) | split | intro _ | dsimp only

theorem rel_Dev_tkfree (d : Dev) (g : Nat) (rs1 : Nat) : Rel 4299784591 d (Dev.tkfree d g rs1) := by
  unfold Dev.tkfree
  with_reducible repeat' first | assumption | decide | rfl | refine Rel.step (by apply rel_Dev_retire) ?_ ?_ | (apply Rel.trans; swap; apply rel_Dev_insn) | refine Rel.step (by apply rel_Dev_dropPkt) ?_ ?_ | refine Rel.step (by apply rel_Dev_giveUp) ?_ ?_ | (apply Rel.trans; swap; apply rel_Dev_withToken) | split | intro _ | dsimp only

theorem rel_Dev_tkfwd (d : Dev) (g : Nat) (rs1 : Nat) (rs2 : Nat) : Rel 4299784591 d (Dev.tkfwd d g rs1 rs2) := by
  unfold Dev.tkfwd
  with_reducible repeat' first | assumption | decide | rfl | refine Rel.step (by apply rel_Dev_retire) ?_ ?_ | (apply Rel.trans; swap; apply rel_Dev_insn) | refine Rel.step (by apply rel_Dev_giveUp) ?_ ?_ | refine Rel.step (by apply rel_Dev_setPkt) ?_ ?_ | (apply Rel.trans; swap; apply rel_Dev_withToken) | split | intro _ | dsimp only

theorem rel_Dev_tknew (d : Dev) (g : Nat) (rd : Nat) (rs1 : Nat) : Rel 4194308 d (Dev.tknew d g rd rs1) := by
  unfold Dev.tknew
  with_reducible repeat' first | assumption | decide | rfl | refine Rel.step (by apply rel_Dev_retN) ?_ ?_ | (apply Rel.trans; swap; apply rel_Dev_insn) | refine Rel.step (by apply rel_Dev_hold) ?_ ?_ | refine Rel.step (by apply rel_Dev_setSquare) ?_ ?_ | refine Rel.ite ?_ ?_ | split | intro _ | dsimp only

theorem rel_Dev_tknext (d : Dev) (g : Nat) (rd : Nat) (rs1 : Nat) : Rel 4299784591 d (Dev.tknext d g rd rs1) := by
  unfold Dev.tknext
  with_reducible repeat' first | assumption | decide | rfl | (apply Rel.trans; swap; apply rel_Dev_withLocal) | refine Rel.step (by apply rel_Dev_retN) ?_ ?_ | (apply Rel.trans; swap; apply rel_Dev_insn) | refine Rel.step (by apply rel_Dev_hold) ?_ ?_ | refine Rel.step (by apply rel_Dev_traceRec) ?_ ?_ | refine Rel.step (by apply rel_Dev_locWrite) ?_ ?_ | refine Rel.step (by apply rel_Dev_setCore) ?_ ?_ | refine Rel.ite ?_ ?_ | split | intro _ | dsimp only

theorem rel_Dev_tkrecl (d : Dev) (g : Nat) (rs1 : Nat) : Rel 4300833167 d (Dev.tkrecl d g rs1) := by
  unfold Dev.tkrecl
  with_reducible repeat' first | assumption | decide | rfl | refine Rel.getD ?_ ?_ | exact OptRel.none | refine OptRel.some ?_ | refine OptRel.ite ?_ ?_ | refine OptRel.mapD (fun _ => ?_) ?_ | refine OptRel.map (fun _ => ?_) | refine OptRel.bindD (fun _ => ?_) ?_ | refine OptRel.bind (fun _ => ?_) | refine Rel.step (by apply rel_Dev_retire) ?_ ?_ | (apply Rel.trans; swap; apply rel_Dev_insn) | refine Rel.step (by apply rel_Dev_giveUp) ?_ ?_ | refine OptRel.step (by apply rel_Dev_toReentry) ?_ ?_ | refine Rel.step (by apply OptRel.use; assumption; apply rel_Dev_toReentry) ?_ ?_ | (apply Rel.trans; swap; apply rel_Dev_withToken) | split | intro _ | dsimp only

theorem rel_Dev_tmset (d : Dev) (g : Nat) (rs1 : Nat) : Rel 4194304 d (Dev.tmset d g rs1) := by
  unfold Dev.tmset
  with_reducible repeat' first | assumption | decide | rfl | refine Rel.step (by apply rel_Dev_retire) ?_ ?_ | (apply Rel.trans; swap; apply rel_Dev_insn) | refine Rel.step (by apply rel_Dev_setThread) ?_ ?_ | refine Rel.ite ?_ ?_ | split | intro _ | dsimp only

theorem rel_Dev_trd (d : Dev) (g : Nat) (rd : Nat) (rs1 : Nat) : Rel 21479653775 d (Dev.trd d g rd rs1) := by
  unfold Dev.trd
  with_reducible repeat' first | assumption | decide | rfl | (apply Rel.trans; swap; apply rel_Dev_insn) | refine Rel.step (by apply rel_Dev_ret) ?_ ?_ | refine Rel.step (by apply rel_Dev_illegal) ?_ ?_ | refine Rel.ite ?_ ?_ | split | intro _ | dsimp only

theorem rel_Dev_twr (d : Dev) (g : Nat) (rd : Nat) (rs1 : Nat) (rs2 : Nat) : Rel 21479653775 d (Dev.twr d g rd rs1 rs2) := by
  unfold Dev.twr
  with_reducible repeat' first | assumption | decide | rfl | refine Rel.step (by apply rel_Dev_retN) ?_ ?_ | (apply Rel.trans; swap; apply rel_Dev_insn) | refine Rel.step (by apply rel_Dev_setThread) ?_ ?_ | refine Rel.step (by apply rel_Dev_illegal) ?_ ?_ | refine Rel.ite ?_ ?_ | split | intro _ | dsimp only

theorem rel_execChabt (g : Nat) (s : State) {u : State} (h : execChabt g s = .next u) : Rel 4194305 s.dev u.dev := by
  refine run_rel (fun _ => ?_) h
  with_reducible repeat' first | assumption | decide | rfl | refine Rel.step (by apply rel_Dev_chabt) ?_ ?_ | intro _ | dsimp only

theorem rel_execChannelLeaseExpire (g : Nat) (s : State) {u : State} (h : execChannelLeaseExpire g s = .next u) : Rel 4194305 s.dev u.dev := by
  refine run_rel (fun _ => ?_) h
  with_reducible repeat' first | assumption | decide | rfl | refine Rel.step (by apply rel_Dev_leaseExpire) ?_ ?_ | intro _ | dsimp only

theorem rel_execChcmt (g : Nat) (rd : Nat) (s : State) {u : State} (h : execChcmt g rd s = .next u) : Rel 24196940163 s.dev u.dev := by
  refine run_rel (fun _ => ?_) h
  with_reducible repeat' first | assumption | decide | rfl | refine Rel.step (by apply rel_Dev_chcmt) ?_ ?_ | intro _ | dsimp only

theorem rel_execChrecv (g : Nat) (rd : Nat) (rs1 : Nat) (rs2 : Nat) (s : State) {u : State} (h : execChrecv g rd rs1 rs2 s = .next u) : Rel 4299784591 s.dev u.dev := by
  refine run_rel (fun _ => ?_) h
  with_reducible repeat' first | assumption | decide | rfl | refine Rel.step (by apply rel_Dev_chrecv) ?_ ?_ | intro _ | dsimp only

theorem rel_execChsend (g : Nat) (rs1 : Nat) (s : State) {u : State} (h : execChsend g rs1 s = .next u) : Rel 4299784591 s.dev u.dev := by
  refine run_rel (fun _ => ?_) h
  with_reducible repeat' first | assumption | decide | rfl | refine Rel.step (by apply rel_Dev_chsend) ?_ ?_ | intro _ | dsimp only

theorem rel_execChw (g : Nat) (rs1 : Nat) (rs2 : Nat) (s : State) {u : State} (h : execChw g rs1 rs2 s = .next u) : Rel 4299784591 s.dev u.dev := by
  refine run_rel (fun _ => ?_) h
  with_reducible repeat' first | assumption | decide | rfl | refine Rel.step (by apply rel_Dev_chw) ?_ ?_ | intro _ | dsimp only

theorem rel_execCoreException (g : Nat) (cause : Nat) (mtval : Dword) (mret : Bool) (s : State) {u : State} (h : execCoreException g cause mtval mret s = .next u) : Rel 21479653775 s.dev u.dev := by
  refine run_rel (fun _ => ?_) h
  with_reducible repeat' first | assumption | decide | rfl | refine Rel.step (by apply rel_Dev_coreException) ?_ ?_ | intro _ | dsimp only

theorem rel_execCoreThrGo (g : Nat) (rd : Nat) (rs1 : Nat) (s : State) {u : State} (h : execCoreThrGo g rd rs1 s = .next u) : Rel 21479653775 s.dev u.dev := by
  refine run_rel (fun _ => ?_) h
  with_reducible repeat' first | assumption | decide | rfl | refine Rel.step (by apply rel_Dev_thrGo) ?_ ?_ | intro _ | dsimp only

theorem rel_execCoreThrStop (g : Nat) (rd : Nat) (rs1 : Nat) (s : State) {u : State} (h : execCoreThrStop g rd rs1 s = .next u) : Rel 21479653775 s.dev u.dev := by
  refine run_rel (fun _ => ?_) h
  with_reducible repeat' first | assumption | decide | rfl | refine Rel.step (by apply rel_Dev_thrStop) ?_ ?_ | intro _ | dsimp only

theorem rel_execCtadd (g : Nat) (rs1 : Nat) (rs2 : Nat) (s : State) {u : State} (h : execCtadd g rs1 rs2 s = .next u) : Rel 4299784591 s.dev u.dev := by
  refine run_rel (fun _ => ?_) h
  with_reducible repeat' first | assumption | decide | rfl | refine Rel.step (by apply rel_Dev_ctadd) ?_ ?_ | intro _ | dsimp only

theorem rel_execCtpb (g : Nat) (rs1 : Nat) (rs2 : Nat) (s : State) {u : State} (h : execCtpb g rs1 rs2 s = .next u) : Rel 4194307 s.dev u.dev := by
  refine run_rel (fun _ => ?_) h
  with_reducible repeat' first | assumption | decide | rfl | refine Rel.step (by apply rel_Dev_ctpb) ?_ ?_ | intro _ | dsimp only

theorem rel_execEvsig (g : Nat) (rs1 : Nat) (s : State) {u : State} (h : execEvsig g rs1 s = .next u) : Rel 4194306 s.dev u.dev := by
  refine run_rel (fun _ => ?_) h
  with_reducible repeat' first | assumption | decide | rfl | refine Rel.step (by apply rel_Dev_evsig) ?_ ?_ | intro _ | dsimp only

theorem rel_execEvwait (g : Nat) (rd : Nat) (rs1 : Nat) (s : State) {u : State} (h : execEvwait g rd rs1 s = .next u) : Rel 4194306 s.dev u.dev := by
  refine run_rel (fun _ => ?_) h
  with_reducible repeat' first | assumption | decide | rfl | refine Rel.step (by apply rel_Dev_evwait) ?_ ?_ | intro _ | dsimp only

theorem rel_execGridlock (n : Nat) (s : State) {u : State} (h : execGridlock n s = .next u) : Rel 4299784589 s.dev u.dev := by
  refine run_rel (fun _ => ?_) h
  with_reducible repeat' first | assumption | decide | rfl | refine Rel.step (by apply rel_Dev_gridlock) ?_ ?_ | intro _ | dsimp only

theorem rel_execHadj (g : Nat) (rd : Nat) (rs1 : Nat) (rs2 : Nat) (s : State) {u : State} (h : execHadj g rd rs1 rs2 s = .next u) : Rel 4299784591 s.dev u.dev := by
  refine run_rel (fun _ => ?_) h
  with_reducible repeat' first | assumption | decide | rfl | refine Rel.step (by apply rel_Dev_hadj) ?_ ?_ | intro _ | dsimp only

theorem rel_execHld (g : Nat) (rd : Nat) (rs1 : Nat) (imm : Nat) (size : Nat) (s : State) {u : State} (h : execHld g rd rs1 imm size s = .next u) : Rel 4299784591 s.dev u.dev := by
  refine run_rel (fun _ => ?_) h
  with_reducible repeat' first | assumption | decide | rfl | refine Rel.step (by apply rel_Dev_hld) ?_ ?_ | intro _ | dsimp only

theorem rel_execHlen (g : Nat) (rd : Nat) (rs1 : Nat) (rs2 : Nat) (s : State) {u : State} (h : execHlen g rd rs1 rs2 s = .next u) : Rel 4299784591 s.dev u.dev := by
  refine run_rel (fun _ => ?_) h
  with_reducible repeat' first | assumption | decide | rfl | refine Rel.step (by apply rel_Dev_hlen) ?_ ?_ | intro _ | dsimp only

theorem rel_execHst (g : Nat) (rs1 : Nat) (rs2 : Nat) (imm : Nat) (size : Nat) (s : State) {u : State} (h : execHst g rs1 rs2 imm size s = .next u) : Rel 4299784591 s.dev u.dev := by
  refine run_rel (fun _ => ?_) h
  with_reducible repeat' first | assumption | decide | rfl | refine Rel.step (by apply rel_Dev_hst) ?_ ?_ | intro _ | dsimp only

theorem rel_execLkup (g : Nat) (rd : Nat) (rs1 : Nat) (rs2 : Nat) (s : State) {u : State} (h : execLkup g rd rs1 rs2 s = .next u) : Rel 4299784591 s.dev u.dev := by
  refine run_rel (fun _ => ?_) h
  with_reducible repeat' first | assumption | decide | rfl | refine Rel.step (by apply rel_Dev_lkup) ?_ ?_ | intro _ | dsimp only

theorem rel_execLkupDone (g : Nat) (ecc : Ecc) (s : State) {u : State} (h : execLkupDone g ecc s = .next u) : Rel 4194315 s.dev u.dev := by
  refine run_rel (fun _ => ?_) h
  with_reducible repeat' first | assumption | decide | rfl | refine Rel.step (by apply rel_Dev_lkupDone) ?_ ?_ | intro _ | dsimp only

theorem rel_execPkrd (g : Nat) (rd : Nat) (rs1 : Nat) (rs2 : Nat) (s : State) {u : State} (h : execPkrd g rd rs1 rs2 s = .next u) : Rel 21479653775 s.dev u.dev := by
  refine run_rel (fun _ => ?_) h
  with_reducible repeat' first | assumption | decide | rfl | refine Rel.step (by apply rel_Dev_pkCopy) ?_ ?_ | intro _ | dsimp only

theorem rel_execPkwr (g : Nat) (rd : Nat) (rs1 : Nat) (rs2 : Nat) (s : State) {u : State} (h : execPkwr g rd rs1 rs2 s = .next u) : Rel 21479653775 s.dev u.dev := by
  refine run_rel (fun _ => ?_) h
  with_reducible repeat' first | assumption | decide | rfl | refine Rel.step (by apply rel_Dev_pkCopy) ?_ ?_ | intro _ | dsimp only

theorem rel_execThreadAccess (g : Nat) (acc : ThreadAcc) (s : State) {u : State} (h : execThreadAccess g acc s = .next u) : Rel 21479653775 s.dev u.dev := by
  refine run_rel (fun _ => ?_) h
  with_reducible repeat' first | assumption | decide | rfl | refine Rel.step (by apply rel_Dev_threadAccess) ?_ ?_ | intro _ | dsimp only

theorem rel_execThreadTimer (g : Nat) (s : State) {u : State} (h : execThreadTimer g s = .next u) : Rel 4194306 s.dev u.dev := by
  refine run_rel (fun _ => ?_) h
  with_reducible repeat' first | assumption | decide | rfl | refine Rel.step (by apply rel_Dev_threadTimer) ?_ ?_ | intro _ | dsimp only

theorem rel_execTkexc (g : Nat) (rs1 : Nat) (rs2 : Nat) (s : State) {u : State} (h : execTkexc g rs1 rs2 s = .next u) : Rel 4299784591 s.dev u.dev := by
  refine run_rel (fun _ => ?_) h
  with_reducible repeat' first | assumption | decide | rfl | refine Rel.step (by apply rel_Dev_tkexc) ?_ ?_ | intro _ | dsimp only

theorem rel_execTkfree (g : Nat) (rs1 : Nat) (s : State) {u : State} (h : execTkfree g rs1 s = .next u) : Rel 4299784591 s.dev u.dev := by
  refine run_rel (fun _ => ?_) h
  with_reducible repeat' first | assumption | decide | rfl | refine Rel.step (by apply rel_Dev_tkfree) ?_ ?_ | intro _ | dsimp only

theorem rel_execTkfwd (g : Nat) (rs1 : Nat) (rs2 : Nat) (s : State) {u : State} (h : execTkfwd g rs1 rs2 s = .next u) : Rel 4299784591 s.dev u.dev := by
  refine run_rel (fun _ => ?_) h
  with_reducible repeat' first | assumption | decide | rfl | refine Rel.step (by apply rel_Dev_tkfwd) ?_ ?_ | intro _ | dsimp only

theorem rel_execTknew (g : Nat) (rd : Nat) (rs1 : Nat) (s : State) {u : State} (h : execTknew g rd rs1 s = .next u) : Rel 4194308 s.dev u.dev := by
  refine run_rel (fun _ => ?_) h
  with_reducible repeat' first | assumption | decide | rfl | refine Rel.step (by apply rel_Dev_tknew) ?_ ?_ | intro _ | dsimp only

theorem rel_execTknext (g : Nat) (rd : Nat) (rs1 : Nat) (s : State) {u : State} (h : execTknext g rd rs1 s = .next u) : Rel 4299784591 s.dev u.dev := by
  refine run_rel (fun _ => ?_) h
  with_reducible repeat' first | assumption | decide | rfl | refine Rel.step (by apply rel_Dev_tknext) ?_ ?_ | intro _ | dsimp only

theorem rel_execTkrecl (g : Nat) (rs1 : Nat) (s : State) {u : State} (h : execTkrecl g rs1 s = .next u) : Rel 4300833167 s.dev u.dev := by
  refine run_rel (fun _ => ?_) h
  with_reducible repeat' first | assumption | decide | rfl | refine Rel.step (by apply rel_Dev_tkrecl) ?_ ?_ | intro _ | dsimp only

theorem rel_execTmset (g : Nat) (rs1 : Nat) (s : State) {u : State} (h : execTmset g rs1 s = .next u) : Rel 4194304 s.dev u.dev := by
  refine run_rel (fun _ => ?_) h
  with_reducible repeat' first | assumption | decide | rfl | refine Rel.step (by apply rel_Dev_tmset) ?_ ?_ | intro _ | dsimp only

theorem rel_execTrd (g : Nat) (rd : Nat) (rs1 : Nat) (s : State) {u : State} (h : execTrd g rd rs1 s = .next u) : Rel 21479653775 s.dev u.dev := by
  refine run_rel (fun _ => ?_) h
  with_reducible repeat' first | assumption | decide | rfl | refine Rel.step (by apply rel_Dev_trd) ?_ ?_ | intro _ | dsimp only

theorem rel_execTwr (g : Nat) (rd : Nat) (rs1 : Nat) (rs2 : Nat) (s : State) {u : State} (h : execTwr g rd rs1 rs2 s = .next u) : Rel 21479653775 s.dev u.dev := by
  refine run_rel (fun _ => ?_) h
  with_reducible repeat' first | assumption | decide | rfl | refine Rel.step (by apply rel_Dev_twr) ?_ ?_ | intro _ | dsimp only

end Sys2Proof.Laws
end

