-- ==== Sys2Proof/Laws/Frames/CoreCmd.lean ====
section
/-! SUPPORT. What each function of Machine/CoreCmd.lean may change. -/

set_option linter.unusedTactic false
set_option linter.unreachableTactic false

namespace Sys2Proof.Laws

open Sys2Proof Sys2Proof.Machine

theorem rel_Dev_haltThread (d : Dev) (g : Nat) : Rel 4194304 d (Dev.haltThread d g) := by
  unfold Dev.haltThread
  with_reducible repeat' first | assumption | decide | rfl | refine Rel.step (by apply rel_Dev_setThread) ?_ ?_ | refine Rel.ite ?_ ?_ | split | intro _ | dsimp only

theorem rel_Dev_bpHit (d : Dev) (g : Nat) : Rel 4194304 d (Dev.bpHit d g) := by
  unfold Dev.bpHit
  with_reducible repeat' first | assumption | decide | rfl | refine Rel.step (by apply rel_Dev_haltThread) ?_ ?_ | refine Rel.ite ?_ ?_ | split | intro _ | dsimp only

theorem rel_Dev_startsDone (d : Dev) (n : Nat) : Rel 4299358624 d (Dev.startsDone d n) := by
  unfold Dev.startsDone
  with_reducible repeat' first | assumption | decide | rfl | refine Rel.foldl (fun _ _ => ?_) ?_ | refine Rel.foldl1 (fun _ _ => ?_) ?_ | refine Rel.foldl2 (fun _ _ => ?_) ?_ | refine Rel.step (by apply rel_Dev_admLate) ?_ ?_ | simp only [Nat.reduceAnd, Rel.u_cpu] | split | intro _ | dsimp only

theorem rel_Dev_coreStarted (d : Dev) (n : Nat) : Rel 4299358625 d (Dev.coreStarted d n) := by
  unfold Dev.coreStarted
  with_reducible repeat' first | assumption | decide | rfl | refine Rel.step (by apply rel_Dev_startsDone) ?_ ?_ | refine Rel.step (by apply rel_Dev_setCluster) ?_ ?_ | refine Rel.step (by apply rel_Dev_setCore) ?_ ?_ | refine Rel.step (by apply rel_Dev_count) ?_ ?_ | refine Rel.ite ?_ ?_ | split | intro _ | dsimp only

theorem rel_Dev_custom0 (d : Dev) (g : Nat) (w : Nat) : Rel 24198611343 d (Dev.custom0 d g w) := by
  unfold Dev.custom0
  with_reducible repeat' first | assumption | decide | rfl | refine Rel.step (by apply rel_Dev_tknew) ?_ ?_ | refine Rel.step (by apply rel_Dev_ctadd) ?_ ?_ | refine Rel.step (by apply rel_Dev_tkfwd) ?_ ?_ | (apply Rel.trans; swap; apply rel_Dev_insn) | refine Rel.step (by apply rel_Dev_chcmt) ?_ ?_ | refine Rel.step (by apply rel_Dev_tknext) ?_ ?_ | refine Rel.step (by apply rel_Dev_tkexc) ?_ ?_ | refine Rel.step (by apply rel_Dev_chrecv) ?_ ?_ | refine Rel.step (by apply rel_Dev_evwait) ?_ ?_ | refine Rel.step (by apply rel_Dev_hadj) ?_ ?_ | refine Rel.step (by apply rel_Dev_ctpb) ?_ ?_ | refine Rel.step (by apply rel_Dev_tmset) ?_ ?_ | refine Rel.step (by apply rel_Dev_twr) ?_ ?_ | refine Rel.step (by apply rel_Dev_pkCopy) ?_ ?_ | refine Rel.step (by apply rel_Dev_illegal) ?_ ?_ | refine Rel.step (by apply rel_Dev_hlen) ?_ ?_ | refine Rel.step (by apply rel_Dev_evsig) ?_ ?_ | refine Rel.step (by apply rel_Dev_tkfree) ?_ ?_ | refine Rel.step (by apply rel_Dev_lkup) ?_ ?_ | refine Rel.step (by apply rel_Dev_trd) ?_ ?_ | refine Rel.step (by apply rel_Dev_chsend) ?_ ?_ | refine Rel.step (by apply rel_Dev_chw) ?_ ?_ | refine Rel.step (by apply rel_Dev_chabt) ?_ ?_ | refine Rel.step (by apply rel_Dev_tkrecl) ?_ ?_ | split | intro _ | dsimp only

theorem rel_Dev_custom1 (d : Dev) (g : Nat) (w : Nat) : Rel 4299784591 d (Dev.custom1 d g w) := by
  unfold Dev.custom1
  with_reducible repeat' first | assumption | decide | rfl | refine Rel.step (by apply rel_Dev_hld) ?_ ?_ | refine Rel.step (by apply rel_Dev_hst) ?_ ?_ | refine Rel.ite ?_ ?_ | split | intro _ | dsimp only

theorem rel_Dev_dbgEnd (d : Dev) (err : Bool) : Rel 4194304 d (Dev.dbgEnd d err) := by
  unfold Dev.dbgEnd
  with_reducible repeat' first | assumption | decide | rfl | simp only [Nat.reduceAnd, Rel.u_cpu] | split | intro _ | dsimp only

theorem rel_Dev_dbgBp (d : Dev) : Rel 4194304 d (Dev.dbgBp d) := by
  unfold Dev.dbgBp
  with_reducible repeat' first | assumption | decide | rfl | refine Rel.step (by apply rel_Dev_dbgEnd) ?_ ?_ | refine Rel.step (by apply rel_Dev_setCore) ?_ ?_ | split | intro _ | dsimp only

theorem rel_Dev_dbgCapture (d : Dev) : Rel 4194304 d (Dev.dbgCapture d) := by
  unfold Dev.dbgCapture
  with_reducible repeat' first | assumption | decide | rfl | refine Rel.step (by apply rel_Dev_capture) ?_ ?_ | refine Rel.step (by apply rel_Dev_dbgEnd) ?_ ?_ | split | intro _ | dsimp only

theorem rel_Dev_stepThread (d : Dev) (g : Nat) (acc : ThreadAcc) : Rel 24198611343 d (Dev.stepThread d g acc) := by
  unfold Dev.stepThread
  with_reducible repeat' first | assumption | decide | rfl | (apply Rel.trans; swap; apply rel_Dev_insn) | refine Rel.step (by apply rel_Dev_custom0) ?_ ?_ | refine Rel.step (by apply rel_Dev_illegal) ?_ ?_ | refine Rel.step (by apply rel_Dev_custom1) ?_ ?_ | refine Rel.step (by apply rel_Dev_threadAccess) ?_ ?_ | split | intro _ | dsimp only

theorem rel_Dev_dbgStep (d : Dev) (acc : ThreadAcc) : Rel 24198611343 d (Dev.dbgStep d acc) := by
  unfold Dev.dbgStep
  with_reducible repeat' first | assumption | decide | rfl | refine Rel.step (by apply rel_Dev_setThread) ?_ ?_ | refine Rel.step (by apply rel_Dev_haltThread) ?_ ?_ | refine Rel.step (by apply rel_Dev_dbgEnd) ?_ ?_ | refine Rel.step (by apply rel_Dev_stepThread) ?_ ?_ | refine Rel.ite ?_ ?_ | split | intro _ | dsimp only

theorem rel_Dev_setDbgData (d : Dev) (v : Nat) : Rel 1 d (Dev.setDbgData d v) := by
  unfold Dev.setDbgData
  with_reducible repeat' first | assumption | decide | rfl | refine Rel.step (by apply rel_Dev_setReg) ?_ ?_ | split | intro _ | dsimp only

theorem rel_Dev_dbgMem (d : Dev) (write : Bool) : Rel 17184063491 d (Dev.dbgMem d write) := by
  unfold Dev.dbgMem
  with_reducible repeat' first | assumption | decide | rfl | refine Rel.getD ?_ ?_ | exact OptRel.none | refine OptRel.some ?_ | refine OptRel.ite ?_ ?_ | refine OptRel.mapD (fun _ => ?_) ?_ | refine OptRel.map (fun _ => ?_) | refine OptRel.bindD (fun _ => ?_) ?_ | refine OptRel.bind (fun _ => ?_) | refine OptRel.step (by apply rel_Dev_spotWrite) ?_ ?_ | refine Rel.step (by apply OptRel.use; assumption; apply rel_Dev_spotWrite) ?_ ?_ | refine Rel.step (by apply rel_Dev_setDbgData) ?_ ?_ | refine Rel.step (by apply rel_Dev_spotRead; assumption) ?_ ?_ | refine Rel.step (by apply rel_Dev_dbgEnd) ?_ ?_ | refine Rel.ite ?_ ?_ | split | intro _ | dsimp only

theorem rel_Dev_dbgHalt (d : Dev) : Rel 4194304 d (Dev.dbgHalt d) := by
  unfold Dev.dbgHalt
  with_reducible repeat' first | assumption | decide | rfl | refine Rel.step (by apply rel_Dev_haltThread) ?_ ?_ | refine Rel.step (by apply rel_Dev_dbgEnd) ?_ ?_ | refine Rel.ite ?_ ?_ | split | intro _ | dsimp only

theorem rel_Dev_dbgHaltCore (d : Dev) : Rel 4194304 d (Dev.dbgHaltCore d) := by
  unfold Dev.dbgHaltCore
  with_reducible repeat' first | assumption | decide | rfl | refine Rel.foldl (fun _ _ => ?_) ?_ | refine Rel.foldl1 (fun _ _ => ?_) ?_ | refine Rel.foldl2 (fun _ _ => ?_) ?_ | refine Rel.step (by apply rel_Dev_haltThread) ?_ ?_ | refine Rel.step (by apply rel_Dev_dbgEnd) ?_ ?_ | refine Rel.ite ?_ ?_ | split | intro _ | dsimp only

theorem rel_Dev_dbgReg (d : Dev) (write : Bool) : Rel 4194305 d (Dev.dbgReg d write) := by
  unfold Dev.dbgReg
  with_reducible repeat' first | assumption | decide | rfl | refine Rel.step (by apply rel_Dev_setDbgData) ?_ ?_ | refine Rel.step (by apply rel_Dev_setThread) ?_ ?_ | refine Rel.step (by apply rel_Dev_dbgEnd) ?_ ?_ | refine Rel.ite ?_ ?_ | split | intro _ | dsimp only

theorem rel_Dev_resumeThread (d : Dev) (g : Nat) : Rel 4194306 d (Dev.resumeThread d g) := by
  unfold Dev.resumeThread
  with_reducible repeat' first | assumption | decide | rfl | refine Rel.step (by apply rel_Dev_wake) ?_ ?_ | refine Rel.step (by apply rel_Dev_setThread) ?_ ?_ | refine Rel.ite ?_ ?_ | split | intro _ | dsimp only

theorem rel_Dev_dbgResume (d : Dev) : Rel 4194306 d (Dev.dbgResume d) := by
  unfold Dev.dbgResume
  with_reducible repeat' first | assumption | decide | rfl | refine Rel.foldl (fun _ _ => ?_) ?_ | refine Rel.foldl1 (fun _ _ => ?_) ?_ | refine Rel.foldl2 (fun _ _ => ?_) ?_ | refine Rel.step (by apply rel_Dev_resumeThread) ?_ ?_ | refine Rel.step (by apply rel_Dev_dbgEnd) ?_ ?_ | refine Rel.ite ?_ ?_ | split | intro _ | dsimp only

theorem rel_Dev_dbgRun (d : Dev) (code : Nat) (acc : ThreadAcc) : Rel 24198611343 d (Dev.dbgRun d code acc) := by
  unfold Dev.dbgRun
  with_reducible repeat' first | assumption | decide | rfl | refine Rel.step (by apply rel_Dev_dbgStep) ?_ ?_ | refine Rel.step (by apply rel_Dev_dbgMem) ?_ ?_ | refine Rel.step (by apply rel_Dev_dbgHalt) ?_ ?_ | refine Rel.step (by apply rel_Dev_dbgHaltCore) ?_ ?_ | refine Rel.step (by apply rel_Dev_dbgReg) ?_ ?_ | refine Rel.step (by apply rel_Dev_dbgResume) ?_ ?_ | refine Rel.step (by apply rel_Dev_dbgEnd) ?_ ?_ | refine Rel.step (by apply rel_Dev_abortMsg) ?_ ?_ | refine Rel.step (by apply rel_Dev_dbgCapture) ?_ ?_ | refine Rel.step (by apply rel_Dev_dbgBp) ?_ ?_ | split | intro _ | dsimp only

theorem rel_Dev_dbgCmd (d : Dev) (id : Nat) (code : Nat) (acc : ThreadAcc) : Rel 24198611343 d (Dev.dbgCmd d id code acc) := by
  unfold Dev.dbgCmd
  with_reducible repeat' first | assumption | decide | rfl | refine Rel.step (by apply rel_Dev_dbgRun) ?_ ?_ | (apply Rel.trans; swap; apply rel_Dev_bar0Write) | refine Rel.ite ?_ ?_ | split | intro _ | dsimp only

theorem rel_Dev_discardOpen (d : Dev) (c : Nat) : Rel 4194304 d (Dev.discardOpen d c) := by
  unfold Dev.discardOpen
  with_reducible repeat' first | assumption | decide | rfl | refine Rel.ite ?_ ?_ | simp only [Nat.reduceAnd, Rel.u_cpu] | split | intro _ | dsimp only

theorem rel_coreCaptureRead (e : AdmEntry) (d : Dev) : AdmRel 0 d (coreCaptureRead e d) := by
  unfold coreCaptureRead
  with_reducible repeat' first | assumption | decide | rfl | refine AdmRel.checks ?_ | exact AdmRel.fail | refine AdmRel.done ?_ | refine AdmRel.wait ?_ | refine AdmRel.ite ?_ ?_ | split | intro _ | dsimp only

theorem rel_coreChSet (e : AdmEntry) (d : Dev) : AdmRel 4194304 d (coreChSet e d) := by
  unfold coreChSet
  with_reducible repeat' first | assumption | decide | rfl | refine AdmRel.checks ?_ | exact AdmRel.fail | refine AdmRel.done ?_ | refine AdmRel.wait ?_ | refine Rel.step (by apply rel_Dev_discardOpen) ?_ ?_ | refine Rel.step (by apply rel_Dev_setCh) ?_ ?_ | refine Rel.ite ?_ ?_ | refine AdmRel.ite ?_ ?_ | split | intro _ | dsimp only

theorem rel_coreHndSet (e : AdmEntry) (d : Dev) : AdmRel 4194304 d (coreHndSet e d) := by
  unfold coreHndSet
  with_reducible repeat' first | assumption | decide | rfl | refine AdmRel.checks ?_ | exact AdmRel.fail | refine AdmRel.done ?_ | refine AdmRel.wait ?_ | refine AdmRel.ite ?_ ?_ | simp only [Nat.reduceAnd, Rel.u_cpu] | split | intro _ | dsimp only

theorem rel_coreHwinSet (e : AdmEntry) (d : Dev) : AdmRel 4194304 d (coreHwinSet e d) := by
  unfold coreHwinSet
  with_reducible repeat' first | assumption | decide | rfl | refine AdmRel.checks ?_ | exact AdmRel.fail | refine AdmRel.done ?_ | refine AdmRel.wait ?_ | refine Rel.step (by apply rel_Dev_setCluster) ?_ ?_ | refine AdmRel.ite ?_ ?_ | split | intro _ | dsimp only

theorem rel_coreLoad (e : AdmEntry) (d : Dev) : AdmRel 4194304 d (coreLoad e d) := by
  unfold coreLoad
  with_reducible repeat' first | assumption | decide | rfl | refine AdmRel.checks ?_ | exact AdmRel.fail | refine AdmRel.done ?_ | refine AdmRel.wait ?_ | refine AdmRel.ite ?_ ?_ | simp only [Nat.reduceAnd, Rel.u_cpu] | split | intro _ | dsimp only

theorem rel_coreStart (e : AdmEntry) (d : Dev) : AdmRel 4299718669 d (coreStart e d) := by
  unfold coreStart
  with_reducible repeat' first | assumption | decide | rfl | refine AdmRel.checks ?_ | exact AdmRel.fail | refine AdmRel.done ?_ | refine AdmRel.wait ?_ | refine Rel.foldl (fun _ _ => ?_) ?_ | refine Rel.foldl1 (fun _ _ => ?_) ?_ | refine Rel.foldl2 (fun _ _ => ?_) ?_ | refine Rel.step (by apply rel_Dev_beginStart) ?_ ?_ | refine Rel.ite ?_ ?_ | refine AdmRel.ite ?_ ?_ | simp only [Nat.reduceAnd, Rel.u_cpu] | split | intro _ | dsimp only

theorem rel_coreStop (e : AdmEntry) (d : Dev) : AdmRel 4299718669 d (coreStop e d) := by
  unfold coreStop
  with_reducible repeat' first | assumption | decide | rfl | refine AdmRel.checks ?_ | exact AdmRel.fail | refine AdmRel.done ?_ | refine AdmRel.wait ?_ | refine Rel.foldl (fun _ _ => ?_) ?_ | refine Rel.foldl1 (fun _ _ => ?_) ?_ | refine Rel.foldl2 (fun _ _ => ?_) ?_ | refine Rel.step (by apply rel_Dev_freeze) ?_ ?_ | refine AdmRel.ite ?_ ?_ | split | intro _ | dsimp only

theorem rel_execAbortMsg (id : Nat) (s : State) {u : State} (h : execAbortMsg id s = .next u) : Rel 24198611343 s.dev u.dev := by
  refine run_rel (fun _ => ?_) h
  with_reducible repeat' first | assumption | decide | rfl | refine Rel.step (by apply rel_Dev_dbgCmd) ?_ ?_ | intro _ | dsimp only

theorem rel_execBreakpointHit (g : Nat) (s : State) {u : State} (h : execBreakpointHit g s = .next u) : Rel 4194304 s.dev u.dev := by
  refine run_rel (fun _ => ?_) h
  with_reducible repeat' first | assumption | decide | rfl | refine Rel.step (by apply rel_Dev_bpHit) ?_ ?_ | intro _ | dsimp only

theorem rel_execCapture (id : Nat) (s : State) {u : State} (h : execCapture id s = .next u) : Rel 24198611343 s.dev u.dev := by
  refine run_rel (fun _ => ?_) h
  with_reducible repeat' first | assumption | decide | rfl | refine Rel.step (by apply rel_Dev_dbgCmd) ?_ ?_ | intro _ | dsimp only

theorem rel_execCoreCaptureRead (e : AdmEntry) (s : State) {u : State} (h : execCoreCaptureRead e s = .next u) : Rel 4295164320 s.dev u.dev := by
  refine run_rel (fun _ => ?_) h
  with_reducible repeat' first | assumption | decide | rfl | (apply Rel.trans; swap; apply rel_Dev_admRun) | refine AdmRel.step (by apply rel_coreCaptureRead) ?_ ?_ | intro _ | dsimp only

theorem rel_execCoreChSet (e : AdmEntry) (s : State) {u : State} (h : execCoreChSet e s = .next u) : Rel 4299358624 s.dev u.dev := by
  refine run_rel (fun _ => ?_) h
  with_reducible repeat' first | assumption | decide | rfl | refine AdmRel.step (by apply rel_coreChSet) ?_ ?_ | (apply Rel.trans; swap; apply rel_Dev_admRun) | intro _ | dsimp only

theorem rel_execCoreHndSet (e : AdmEntry) (s : State) {u : State} (h : execCoreHndSet e s = .next u) : Rel 4299358624 s.dev u.dev := by
  refine run_rel (fun _ => ?_) h
  with_reducible repeat' first | assumption | decide | rfl | refine AdmRel.step (by apply rel_coreHndSet) ?_ ?_ | (apply Rel.trans; swap; apply rel_Dev_admRun) | intro _ | dsimp only

theorem rel_execCoreHwinSet (e : AdmEntry) (s : State) {u : State} (h : execCoreHwinSet e s = .next u) : Rel 4299358624 s.dev u.dev := by
  refine run_rel (fun _ => ?_) h
  with_reducible repeat' first | assumption | decide | rfl | refine AdmRel.step (by apply rel_coreHwinSet) ?_ ?_ | (apply Rel.trans; swap; apply rel_Dev_admRun) | intro _ | dsimp only

theorem rel_execCoreLoad (e : AdmEntry) (s : State) {u : State} (h : execCoreLoad e s = .next u) : Rel 4299358624 s.dev u.dev := by
  refine run_rel (fun _ => ?_) h
  with_reducible repeat' first | assumption | decide | rfl | refine AdmRel.step (by apply rel_coreLoad) ?_ ?_ | (apply Rel.trans; swap; apply rel_Dev_admRun) | intro _ | dsimp only

theorem rel_execCoreStart (e : AdmEntry) (s : State) {u : State} (h : execCoreStart e s = .next u) : Rel 4299915693 s.dev u.dev := by
  refine run_rel (fun _ => ?_) h
  with_reducible repeat' first | assumption | decide | rfl | (apply Rel.trans; swap; apply rel_Dev_admRun) | refine AdmRel.step (by apply rel_coreStart) ?_ ?_ | intro _ | dsimp only

theorem rel_execCoreStartDone (n : Nat) (s : State) {u : State} (h : execCoreStartDone n s = .next u) : Rel 4299358625 s.dev u.dev := by
  refine run_rel (fun _ => ?_) h
  with_reducible repeat' first | assumption | decide | rfl | refine Rel.step (by apply rel_Dev_coreStarted) ?_ ?_ | intro _ | dsimp only

theorem rel_execCoreStop (e : AdmEntry) (s : State) {u : State} (h : execCoreStop e s = .next u) : Rel 4299915693 s.dev u.dev := by
  refine run_rel (fun _ => ?_) h
  with_reducible repeat' first | assumption | decide | rfl | (apply Rel.trans; swap; apply rel_Dev_admRun) | refine AdmRel.step (by apply rel_coreStop) ?_ ?_ | intro _ | dsimp only

theorem rel_execHaltCore (id : Nat) (s : State) {u : State} (h : execHaltCore id s = .next u) : Rel 24198611343 s.dev u.dev := by
  refine run_rel (fun _ => ?_) h
  with_reducible repeat' first | assumption | decide | rfl | refine Rel.step (by apply rel_Dev_dbgCmd) ?_ ?_ | intro _ | dsimp only

theorem rel_execHaltThread (id : Nat) (s : State) {u : State} (h : execHaltThread id s = .next u) : Rel 24198611343 s.dev u.dev := by
  refine run_rel (fun _ => ?_) h
  with_reducible repeat' first | assumption | decide | rfl | refine Rel.step (by apply rel_Dev_dbgCmd) ?_ ?_ | intro _ | dsimp only

theorem rel_execReadMem (id : Nat) (s : State) {u : State} (h : execReadMem id s = .next u) : Rel 24198611343 s.dev u.dev := by
  refine run_rel (fun _ => ?_) h
  with_reducible repeat' first | assumption | decide | rfl | refine Rel.step (by apply rel_Dev_dbgCmd) ?_ ?_ | intro _ | dsimp only

theorem rel_execReadReg (id : Nat) (s : State) {u : State} (h : execReadReg id s = .next u) : Rel 24198611343 s.dev u.dev := by
  refine run_rel (fun _ => ?_) h
  with_reducible repeat' first | assumption | decide | rfl | refine Rel.step (by apply rel_Dev_dbgCmd) ?_ ?_ | intro _ | dsimp only

theorem rel_execResume (id : Nat) (s : State) {u : State} (h : execResume id s = .next u) : Rel 24198611343 s.dev u.dev := by
  refine run_rel (fun _ => ?_) h
  with_reducible repeat' first | assumption | decide | rfl | refine Rel.step (by apply rel_Dev_dbgCmd) ?_ ?_ | intro _ | dsimp only

theorem rel_execSetBp (id : Nat) (s : State) {u : State} (h : execSetBp id s = .next u) : Rel 24198611343 s.dev u.dev := by
  refine run_rel (fun _ => ?_) h
  with_reducible repeat' first | assumption | decide | rfl | refine Rel.step (by apply rel_Dev_dbgCmd) ?_ ?_ | intro _ | dsimp only

theorem rel_execStep (id : Nat) (acc : ThreadAcc) (s : State) {u : State} (h : execStep id acc s = .next u) : Rel 24198611343 s.dev u.dev := by
  refine run_rel (fun _ => ?_) h
  with_reducible repeat' first | assumption | decide | rfl | refine Rel.step (by apply rel_Dev_dbgCmd) ?_ ?_ | intro _ | dsimp only

theorem rel_execWriteMem (id : Nat) (s : State) {u : State} (h : execWriteMem id s = .next u) : Rel 24198611343 s.dev u.dev := by
  refine run_rel (fun _ => ?_) h
  with_reducible repeat' first | assumption | decide | rfl | refine Rel.step (by apply rel_Dev_dbgCmd) ?_ ?_ | intro _ | dsimp only

theorem rel_execWriteReg (id : Nat) (s : State) {u : State} (h : execWriteReg id s = .next u) : Rel 24198611343 s.dev u.dev := by
  refine run_rel (fun _ => ?_) h
  with_reducible repeat' first | assumption | decide | rfl | refine Rel.step (by apply rel_Dev_dbgCmd) ?_ ?_ | intro _ | dsimp only

end Sys2Proof.Laws
end

