-- ==== Sys2Proof/Laws/Frames/Crossing.lean ====
section
/-! SUPPORT. What each function of Machine/Crossing.lean may change. -/

set_option linter.unusedTactic false
set_option linter.unreachableTactic false

namespace Sys2Proof.Laws

open Sys2Proof Sys2Proof.Machine

theorem rel_Dev_steer (d : Dev) (tok : Nat) (p : Packet) (c : Cls) : Rel 4295524357 d (Dev.steer d tok p c) := by
  unfold Dev.steer
  with_reducible repeat' first | assumption | decide | rfl | refine Rel.step (by apply rel_Dev_dropPkt) ?_ ?_ | refine Rel.step (by apply rel_Dev_setPkt) ?_ ?_ | refine Rel.step (by apply rel_Dev_count) ?_ ?_ | refine Rel.ite ?_ ?_ | split | intro _ | dsimp only

theorem rel_Dev_toSlow (d : Dev) (tok : Nat) (p : Packet) (c : Cls) (reason : Nat) : Rel 4295524365 d (Dev.toSlow d tok p c reason) := by
  unfold Dev.toSlow
  with_reducible repeat' first | assumption | decide | rfl | refine Rel.step (by apply rel_Dev_slowPath) ?_ ?_ | refine Rel.step (by apply rel_Dev_setPkt) ?_ ?_ | split | intro _ | dsimp only

theorem rel_Dev_classify (d : Dev) (tok : Nat) (ue : List Nat) : Rel 4296572943 d (Dev.classify d tok ue) := by
  unfold Dev.classify
  with_reducible repeat' first | assumption | decide | rfl | refine Rel.step (by apply rel_Dev_dropPkt) ?_ ?_ | refine Rel.step (by apply rel_Dev_toExcRing) ?_ ?_ | refine Rel.step (by apply rel_Dev_steer) ?_ ?_ | refine Rel.step (by apply rel_Dev_lookups) ?_ ?_ | refine Rel.step (by apply rel_Dev_lookups'; assumption) ?_ ?_ | refine Rel.step (by apply rel_Dev_toSlow) ?_ ?_ | refine Rel.step (by apply rel_Dev_setPkt) ?_ ?_ | refine Rel.ite ?_ ?_ | split | intro _ | dsimp only

theorem rel_Dev_setBank (d : Dev) (b : Nat) (img : Option (List Byte)) : Rel 1048576 d (Dev.setBank d b img) := by
  unfold Dev.setBank
  with_reducible repeat' first | assumption | decide | rfl | simp only [Nat.reduceAnd, Rel.u_cls] | split | intro _ | dsimp only

theorem rel_Dev_clsLoad (d : Dev) (e : AdmEntry) : Rel 4296212896 d (Dev.clsLoad d e) := by
  unfold Dev.clsLoad
  with_reducible repeat' first | assumption | decide | rfl | refine Rel.step (by apply rel_Dev_admComplete) ?_ ?_ | refine Rel.step (by apply rel_Dev_setBank) ?_ ?_ | refine Rel.ite ?_ ?_ | split | intro _ | dsimp only

theorem rel_Dev_hprofApply (d : Dev) (pf : Nat) (v : Word) : Rel 1048577 d (Dev.hprofApply d pf v) := by
  unfold Dev.hprofApply
  with_reducible repeat' first | assumption | decide | rfl | refine Rel.foldl (fun _ _ => ?_) ?_ | refine Rel.foldl1 (fun _ _ => ?_) ?_ | refine Rel.foldl2 (fun _ _ => ?_) ?_ | refine Rel.step (by apply rel_Dev_setBit) ?_ ?_ | (apply Rel.trans; swap; apply rel_Dev_bar0Write) | refine Rel.ite ?_ ?_ | simp only [Nat.reduceAnd, Rel.u_cls] | split | intro _ | dsimp only

theorem rel_Dev_imageSwitchDone (d : Dev) : Rel 4296212896 d (Dev.imageSwitchDone d) := by
  unfold Dev.imageSwitchDone
  with_reducible repeat' first | assumption | decide | rfl | refine Rel.step (by apply rel_Dev_admLate) ?_ ?_ | simp only [Nat.reduceAnd, Rel.u_cls] | split | intro _ | dsimp only

theorem rel_Dev_reentryAdmit (d : Dev) : Rel 1048580 d (Dev.reentryAdmit d) := by
  unfold Dev.reentryAdmit
  with_reducible repeat' first | assumption | decide | rfl | refine Rel.step (by apply rel_Dev_setPkt) ?_ ?_ | refine Rel.ite ?_ ?_ | simp only [Nat.reduceAnd, Rel.u_cls] | split | intro _ | dsimp only

theorem rel_Dev_rsetRel (d : Dev) (pf : Nat) (r : Nat) (v : Word) : Rel 1048577 d (Dev.rsetRel d pf r v) := by
  unfold Dev.rsetRel
  with_reducible repeat' first | assumption | decide | rfl | refine Rel.step (by apply rel_Dev_setRset) ?_ ?_ | (apply Rel.trans; swap; apply rel_Dev_bar0Write) | refine Rel.ite ?_ ?_ | split | intro _ | dsimp only

theorem rel_Dev_rsetSnap (d : Dev) (pf : Nat) (r : Nat) : Rel 8590983169 d (Dev.rsetSnap d pf r) := by
  unfold Dev.rsetSnap
  with_reducible repeat' first | assumption | decide | rfl | refine Rel.step (by apply rel_Dev_setRset) ?_ ?_ | (apply Rel.trans; swap; apply rel_Dev_bar0Read) | refine Rel.ite ?_ ?_ | split | intro _ | dsimp only

theorem rel_Dev_tcamApply (d : Dev) (pf : Nat) (v : Word) : Rel 1048577 d (Dev.tcamApply d pf v) := by
  unfold Dev.tcamApply
  with_reducible repeat' first | assumption | decide | rfl | refine Rel.step (by apply rel_Dev_setBit) ?_ ?_ | (apply Rel.trans; swap; apply rel_Dev_bar0Write) | refine Rel.ite ?_ ?_ | simp only [Nat.reduceAnd, Rel.u_cls] | split | intro _ | dsimp only

theorem rel_Dev_tcamScrub (d : Dev) (err : Bool) : Rel 3145731 d (Dev.tcamScrub d err) := by
  unfold Dev.tcamScrub
  with_reducible repeat' first | assumption | decide | rfl | refine Rel.step (by apply rel_Dev_setReg) ?_ ?_ | refine Rel.step (by apply rel_Dev_setBit) ?_ ?_ | refine Rel.step (by apply rel_Dev_tueInternal) ?_ ?_ | refine Rel.step (by apply rel_Dev_tueInternal'; assumption) ?_ ?_ | refine Rel.step (by apply rel_Dev_count) ?_ ?_ | refine Rel.ite ?_ ?_ | simp only [Nat.reduceAnd, Rel.u_cls] | split | intro _ | dsimp only

theorem rel_clsCommit (e : AdmEntry) (d : Dev) : AdmRel 1048576 d (clsCommit e d) := by
  unfold clsCommit
  with_reducible repeat' first | assumption | decide | rfl | refine AdmRel.checks ?_ | exact AdmRel.fail | refine AdmRel.done ?_ | refine AdmRel.wait ?_ | refine AdmRel.ite ?_ ?_ | simp only [Nat.reduceAnd, Rel.u_cls] | split | intro _ | dsimp only

theorem rel_clsIndCfg (e : AdmEntry) (d : Dev) : AdmRel 3145794 d (clsIndCfg e d) := by
  unfold clsIndCfg
  with_reducible repeat' first | assumption | decide | rfl | refine AdmRel.checks ?_ | exact AdmRel.fail | refine AdmRel.done ?_ | refine AdmRel.wait ?_ | refine Rel.step (by apply rel_Dev_tueAhead) ?_ ?_ | refine Rel.step (by apply rel_Dev_tuePost) ?_ ?_ | refine AdmRel.ite ?_ ?_ | split | intro _ | dsimp only

theorem rel_clsIndWrite (e : AdmEntry) (d : Dev) : AdmRel 3145794 d (clsIndWrite e d) := by
  unfold clsIndWrite
  with_reducible repeat' first | assumption | decide | rfl | refine AdmRel.elim ?_ (fun _ => ?_) | refine AdmRel.checks ?_ | exact AdmRel.fail | refine AdmRel.done ?_ | refine AdmRel.wait ?_ | refine Rel.elim ?_ (fun _ => ?_) | refine Rel.step (by apply rel_Dev_tueAhead) ?_ ?_ | refine Rel.step (by apply rel_Dev_tuePost) ?_ ?_ | refine AdmRel.ite ?_ ?_ | split | intro _ | dsimp only

theorem rel_clsRsetSet (e : AdmEntry) (d : Dev) : AdmRel 1048576 d (clsRsetSet e d) := by
  unfold clsRsetSet
  with_reducible repeat' first | assumption | decide | rfl | refine AdmRel.checks ?_ | exact AdmRel.fail | refine AdmRel.done ?_ | refine AdmRel.wait ?_ | refine Rel.step (by apply rel_Dev_setRset) ?_ ?_ | refine AdmRel.ite ?_ ?_ | split | intro _ | dsimp only

theorem rel_clsRuleClear (e : AdmEntry) (d : Dev) : AdmRel 64 d (clsRuleClear e d) := by
  unfold clsRuleClear
  with_reducible repeat' first | assumption | decide | rfl | refine AdmRel.checks ?_ | exact AdmRel.fail | refine AdmRel.done ?_ | refine AdmRel.wait ?_ | refine Rel.step (by apply rel_Dev_tuePost) ?_ ?_ | refine AdmRel.ite ?_ ?_ | split | intro _ | dsimp only

theorem rel_clsRuleRead (e : AdmEntry) (d : Dev) : AdmRel 3145730 d (clsRuleRead e d) := by
  unfold clsRuleRead
  with_reducible repeat' first | assumption | decide | rfl | refine AdmRel.checks ?_ | exact AdmRel.fail | refine AdmRel.done ?_ | refine AdmRel.wait ?_ | refine Rel.step (by apply rel_Dev_tueAhead) ?_ ?_ | refine AdmRel.ite ?_ ?_ | split | intro _ | dsimp only

theorem rel_clsRuleWrite (e : AdmEntry) (d : Dev) : AdmRel 3145794 d (clsRuleWrite e d) := by
  unfold clsRuleWrite
  with_reducible repeat' first | assumption | decide | rfl | refine AdmRel.checks ?_ | exact AdmRel.fail | refine AdmRel.done ?_ | refine AdmRel.wait ?_ | refine Rel.step (by apply rel_Dev_tuePost) ?_ ?_ | refine AdmRel.ite ?_ ?_ | split | intro _ | dsimp only

theorem rel_execClsCommit (e : AdmEntry) (s : State) {u : State} (h : execClsCommit e s = .next u) : Rel 4296212896 s.dev u.dev := by
  refine run_rel (fun _ => ?_) h
  with_reducible repeat' first | assumption | decide | rfl | (apply Rel.trans; swap; apply rel_Dev_admRun) | refine AdmRel.step (by apply rel_clsCommit) ?_ ?_ | intro _ | dsimp only

theorem rel_execClsHprofApply (pf : Nat) (value : Word) (s : State) {u : State} (h : execClsHprofApply pf value s = .next u) : Rel 1048577 s.dev u.dev := by
  refine run_rel (fun _ => ?_) h
  with_reducible repeat' first | assumption | decide | rfl | refine Rel.step (by apply rel_Dev_hprofApply) ?_ ?_ | intro _ | dsimp only

theorem rel_execClsIndCfg (e : AdmEntry) (s : State) {u : State} (h : execClsIndCfg e s = .next u) : Rel 4298310114 s.dev u.dev := by
  refine run_rel (fun _ => ?_) h
  with_reducible repeat' first | assumption | decide | rfl | refine AdmRel.step (by apply rel_clsIndCfg) ?_ ?_ | (apply Rel.trans; swap; apply rel_Dev_admRun) | intro _ | dsimp only

theorem rel_execClsIndWrite (e : AdmEntry) (s : State) {u : State} (h : execClsIndWrite e s = .next u) : Rel 4298310114 s.dev u.dev := by
  refine run_rel (fun _ => ?_) h
  with_reducible repeat' first | assumption | decide | rfl | refine AdmRel.step (by apply rel_clsIndWrite) ?_ ?_ | (apply Rel.trans; swap; apply rel_Dev_admRun) | intro _ | dsimp only

theorem rel_execClsLoad (e : AdmEntry) (s : State) {u : State} (h : execClsLoad e s = .next u) : Rel 4296212896 s.dev u.dev := by
  refine run_rel (fun _ => ?_) h
  with_reducible repeat' first | assumption | decide | rfl | refine Rel.step (by apply rel_Dev_clsLoad) ?_ ?_ | intro _ | dsimp only

theorem rel_execClsRsetRel (pf : Nat) (rset : Nat) (value : Word) (s : State) {u : State} (h : execClsRsetRel pf rset value s = .next u) : Rel 1048577 s.dev u.dev := by
  refine run_rel (fun _ => ?_) h
  with_reducible repeat' first | assumption | decide | rfl | refine Rel.step (by apply rel_Dev_rsetRel) ?_ ?_ | intro _ | dsimp only

theorem rel_execClsRsetSet (e : AdmEntry) (s : State) {u : State} (h : execClsRsetSet e s = .next u) : Rel 4296212896 s.dev u.dev := by
  refine run_rel (fun _ => ?_) h
  with_reducible repeat' first | assumption | decide | rfl | refine AdmRel.step (by apply rel_clsRsetSet) ?_ ?_ | (apply Rel.trans; swap; apply rel_Dev_admRun) | intro _ | dsimp only

theorem rel_execClsRsetSnap (pf : Nat) (rset : Nat) (s : State) {u : State} (h : execClsRsetSnap pf rset s = .next u) : Rel 8590983169 s.dev u.dev := by
  refine run_rel (fun _ => ?_) h
  with_reducible repeat' first | assumption | decide | rfl | refine Rel.step (by apply rel_Dev_rsetSnap) ?_ ?_ | intro _ | dsimp only

theorem rel_execClsRuleClear (e : AdmEntry) (s : State) {u : State} (h : execClsRuleClear e s = .next u) : Rel 4295164384 s.dev u.dev := by
  refine run_rel (fun _ => ?_) h
  with_reducible repeat' first | assumption | decide | rfl | (apply Rel.trans; swap; apply rel_Dev_admRun) | refine AdmRel.step (by apply rel_clsRuleClear) ?_ ?_ | intro _ | dsimp only

theorem rel_execClsRuleRead (e : AdmEntry) (s : State) {u : State} (h : execClsRuleRead e s = .next u) : Rel 4298310050 s.dev u.dev := by
  refine run_rel (fun _ => ?_) h
  with_reducible repeat' first | assumption | decide | rfl | (apply Rel.trans; swap; apply rel_Dev_admRun) | refine AdmRel.step (by apply rel_clsRuleRead) ?_ ?_ | intro _ | dsimp only

theorem rel_execClsRuleWrite (e : AdmEntry) (s : State) {u : State} (h : execClsRuleWrite e s = .next u) : Rel 4298310114 s.dev u.dev := by
  refine run_rel (fun _ => ?_) h
  with_reducible repeat' first | assumption | decide | rfl | (apply Rel.trans; swap; apply rel_Dev_admRun) | refine AdmRel.step (by apply rel_clsRuleWrite) ?_ ?_ | intro _ | dsimp only

theorem rel_execHandlerDispatch (tok : Nat) (s : State) {u : State} (h : execHandlerDispatch tok s = .next u) : Rel 4299718671 s.dev u.dev := by
  refine run_rel (fun _ => ?_) h
  with_reducible repeat' first | assumption | decide | rfl | refine Rel.step (by apply rel_Dev_dispatch) ?_ ?_ | intro _ | dsimp only

theorem rel_execImageSwitchDone (s : State) {u : State} (h : execImageSwitchDone s = .next u) : Rel 4296212896 s.dev u.dev := by
  refine run_rel (fun _ => ?_) h
  with_reducible repeat' first | assumption | decide | rfl | refine Rel.step (by apply rel_Dev_imageSwitchDone) ?_ ?_ | intro _ | dsimp only

theorem rel_execReentryAdmit (s : State) {u : State} (h : execReentryAdmit s = .next u) : Rel 1048580 s.dev u.dev := by
  refine run_rel (fun _ => ?_) h
  with_reducible repeat' first | assumption | decide | rfl | refine Rel.step (by apply rel_Dev_reentryAdmit) ?_ ?_ | intro _ | dsimp only

theorem rel_execTcamApply (pf : Nat) (value : Word) (s : State) {u : State} (h : execTcamApply pf value s = .next u) : Rel 1048577 s.dev u.dev := by
  refine run_rel (fun _ => ?_) h
  with_reducible repeat' first | assumption | decide | rfl | refine Rel.step (by apply rel_Dev_tcamApply) ?_ ?_ | intro _ | dsimp only

theorem rel_execTcamScrub (parityErr : Bool) (s : State) {u : State} (h : execTcamScrub parityErr s = .next u) : Rel 3145731 s.dev u.dev := by
  refine run_rel (fun _ => ?_) h
  with_reducible repeat' first | assumption | decide | rfl | refine Rel.step (by apply rel_Dev_tcamScrub) ?_ ?_ | intro _ | dsimp only

end Sys2Proof.Laws
end

