-- ==== Sys2Proof/Laws/Frames/FabNet.lean ====
section
/-! SUPPORT. What each function of Machine/FabNet.lean may change. -/

set_option linter.unusedTactic false
set_option linter.unreachableTactic false

namespace Sys2Proof.Laws

open Sys2Proof Sys2Proof.Machine

theorem rel_Dev_fabBus (d : Dev) (type : Nat) (body : List Byte) : Rel 524289 d (Dev.fabBus d type body) := by
  unfold Dev.fabBus
  with_reducible repeat' first | assumption | decide | rfl | refine Rel.step (by apply rel_Dev_svbQueue) ?_ ?_ | split | intro _ | dsimp only

theorem rel_Dev_fabDatagram (d : Dev) (dst : Nat) (action : Nat) (msg : List Byte) : Rel 4 d (Dev.fabDatagram d dst action msg) := by
  unfold Dev.fabDatagram
  with_reducible repeat' first | assumption | decide | rfl | refine Rel.step (by apply rel_Dev_setSquare) ?_ ?_ | split | intro _ | dsimp only

theorem rel_Dev_fabRaw (d : Dev) (dst : Nat) (msg : List Byte) : Rel 5 d (Dev.fabRaw d dst msg) := by
  unfold Dev.fabRaw
  with_reducible repeat' first | assumption | decide | rfl | refine Rel.step (by apply rel_Dev_fabDatagram) ?_ ?_ | refine Rel.step (by apply rel_Dev_count) ?_ ?_ | split | intro _ | dsimp only

theorem rel_Dev_fabSend (d : Dev) (dst : Nat) (type : Nat) (opId : Nat) (body : List Byte) : Rel 5 d (Dev.fabSend d dst type opId body) := by
  unfold Dev.fabSend
  with_reducible repeat' first | assumption | decide | rfl | refine Rel.step (by apply rel_Dev_fabRaw) ?_ ?_ | split | intro _ | dsimp only

theorem rel_Dev_fabDown (d : Dev) (type : Nat) (opId : Nat) (body : List Byte) : Rel 5 d (Dev.fabDown d type opId body) := by
  unfold Dev.fabDown
  with_reducible repeat' first | assumption | decide | rfl | refine Rel.foldl (fun _ _ => ?_) ?_ | refine Rel.foldl1 (fun _ _ => ?_) ?_ | refine Rel.foldl2 (fun _ _ => ?_) ?_ | refine Rel.step (by apply rel_Dev_fabSend) ?_ ?_ | split | intro _ | dsimp only

theorem rel_Dev_fabEvent (d : Dev) (v : Ev) : Rel 4295033217 d (Dev.fabEvent d v) := by
  unfold Dev.fabEvent
  with_reducible repeat' first | assumption | decide | rfl | refine Rel.step (by apply rel_Dev_pfEvent) ?_ ?_ | split | intro _ | dsimp only

theorem rel_Dev_setFab (d : Dev) (x : FabPart) : Rel 16777216 d (Dev.setFab d x) := by
  unfold Dev.setFab
  with_reducible repeat' first | assumption | decide | rfl | simp only [Nat.reduceAnd, Rel.u_fab] | split | intro _ | dsimp only

theorem rel_Dev_fabTake (d : Dev) (bus : Bool) (m : List Byte) : Rel 16777217 d (Dev.fabTake d bus m).2 := by
  unfold Dev.fabTake
  with_reducible repeat' first | assumption | decide | rfl | refine Rel.step (by apply rel_Dev_setFab) ?_ ?_ | refine Rel.step (by apply rel_Dev_count) ?_ ?_ | refine Rel.ite ?_ ?_ | split | intro _ | dsimp only
theorem rel_Dev_fabTake' {d : Dev} {bus : Bool} {m : List Byte} {p0 : Bool} {p1 : Dev} (h : Dev.fabTake d bus m = (p0, p1)) : Rel 16777217 d p1 := by
  have k := rel_Dev_fabTake d bus m
  rw [h] at k
  exact k

theorem rel_Dev_fabUp (d : Dev) (type : Nat) (opId : Nat) (body : List Byte) : Rel 5 d (Dev.fabUp d type opId body) := by
  unfold Dev.fabUp
  with_reducible repeat' first | assumption | decide | rfl | refine Rel.elim ?_ (fun _ => ?_) | refine Rel.step (by apply rel_Dev_fabSend) ?_ ?_ | split | intro _ | dsimp only

theorem rel_Dev_setFabState (d : Dev) (st : Nat) : Rel 4311810433 d (Dev.setFabState d st) := by
  unfold Dev.setFabState
  with_reducible repeat' first | assumption | decide | rfl | refine Rel.step (by apply rel_Dev_fabEvent) ?_ ?_ | refine Rel.step (by apply rel_Dev_setFab) ?_ ?_ | refine Rel.ite ?_ ?_ | split | intro _ | dsimp only

theorem rel_Dev_setNbr (d : Dev) (n : Nat) (x : FabNbr) : Rel 16777216 d (Dev.setNbr d n x) := by
  unfold Dev.setNbr
  with_reducible repeat' first | assumption | decide | rfl | refine Rel.step (by apply rel_Dev_setFab) ?_ ?_ | split | intro _ | dsimp only

end Sys2Proof.Laws
end

