-- ==== Sys2Proof/Laws/Frames/Toll.lean ====
section
/-! SUPPORT. What each function of Machine/Toll.lean may change. -/

set_option linter.unusedTactic false
set_option linter.unreachableTactic false

namespace Sys2Proof.Laws

open Sys2Proof Sys2Proof.Machine

theorem rel_Dev_setToll (d : Dev) (x : TollPart) : Rel 268435456 d (Dev.setToll d x) := by
  unfold Dev.setToll
  with_reducible repeat' first | assumption | decide | rfl | simp only [Nat.reduceAnd, Rel.u_toll] | split | intro _ | dsimp only

theorem rel_Dev_tollPost (d : Dev) (seq : Nat) (kind : Nat) (type : Nat) (tail : List Byte) : Rel 6979322241 d (Dev.tollPost d seq kind type tail) := by
  unfold Dev.tollPost
  with_reducible repeat' first | assumption | decide | rfl | refine Rel.step (by apply rel_Dev_setWktBuf) ?_ ?_ | refine Rel.step (by apply rel_Dev_wktPost) ?_ ?_ | refine Rel.ite ?_ ?_ | split | intro _ | dsimp only

theorem rel_Dev_tollLog (d : Dev) (ok : Bool) (type : Nat) (what : Nat) (gen : Nat) (body : List Byte) : Rel 7247757697 d (Dev.tollLog d ok type what gen body) := by
  unfold Dev.tollLog
  with_reducible repeat' first | assumption | decide | rfl | refine Rel.elim ?_ (fun _ => ?_) | refine Rel.step (by apply rel_Dev_setToll) ?_ ?_ | refine Rel.step (by apply rel_Dev_tollPost) ?_ ?_ | refine Rel.ite ?_ ?_ | split | intro _ | dsimp only

theorem rel_Dev_accountMarker (d : Dev) (flashOk : Bool) : Rel 7247757697 d (Dev.accountMarker d flashOk) := by
  unfold Dev.accountMarker
  with_reducible repeat' first | assumption | decide | rfl | refine Rel.foldl (fun _ _ => ?_) ?_ | refine Rel.foldl1 (fun _ _ => ?_) ?_ | refine Rel.foldl2 (fun _ _ => ?_) ?_ | refine Rel.step (by apply rel_Dev_setToll) ?_ ?_ | refine Rel.step (by apply rel_Dev_tollLog) ?_ ?_ | refine Rel.ite ?_ ?_ | split | intro _ | dsimp only

theorem rel_Dev_checkpoint (d : Dev) (flashOk : Bool) : Rel 268435456 d (Dev.checkpoint d flashOk) := by
  unfold Dev.checkpoint
  with_reducible repeat' first | assumption | decide | rfl | refine Rel.step (by apply rel_Dev_setToll) ?_ ?_ | refine Rel.ite ?_ ?_ | split | intro _ | dsimp only

theorem rel_Dev_metreTick (d : Dev) : Rel 268435456 d (Dev.metreTick d) := by
  unfold Dev.metreTick
  with_reducible repeat' first | assumption | decide | rfl | refine Rel.foldl (fun _ _ => ?_) ?_ | refine Rel.foldl1 (fun _ _ => ?_) ?_ | refine Rel.foldl2 (fun _ _ => ?_) ?_ | refine Rel.step (by apply rel_Dev_setToll) ?_ ?_ | refine Rel.ite ?_ ?_ | split | intro _ | dsimp only

theorem rel_Dev_readingStart (d : Dev) (kind : Nat) (lost : Nat) : Rel 268435456 d (Dev.readingStart d kind lost) := by
  unfold Dev.readingStart
  with_reducible repeat' first | assumption | decide | rfl | refine Rel.step (by apply rel_Dev_setToll) ?_ ?_ | split | intro _ | dsimp only

theorem rel_Dev_periodClose (d : Dev) : Rel 268435456 d (Dev.periodClose d) := by
  unfold Dev.periodClose
  with_reducible repeat' first | assumption | decide | rfl | refine Rel.step (by apply rel_Dev_readingStart) ?_ ?_ | refine Rel.ite ?_ ?_ | split | intro _ | dsimp only

theorem rel_Dev_readingSigned (d : Dev) (flashOk : Bool) : Rel 7247757697 d (Dev.readingSigned d flashOk) := by
  unfold Dev.readingSigned
  with_reducible repeat' first | assumption | decide | rfl | refine Rel.step (by apply rel_Dev_setToll) ?_ ?_ | refine Rel.step (by apply rel_Dev_tollLog) ?_ ?_ | refine Rel.step (by apply rel_Dev_tollPost) ?_ ?_ | refine Rel.ite ?_ ?_ | split | intro _ | dsimp only

theorem rel_Dev_stateRecord (d : Dev) (a : Nat) (flashOk : Bool) : Rel 7247757697 d (Dev.stateRecord d a flashOk) := by
  unfold Dev.stateRecord
  with_reducible repeat' first | assumption | decide | rfl | refine Rel.step (by apply rel_Dev_setToll) ?_ ?_ | refine Rel.step (by apply rel_Dev_tollLog) ?_ ?_ | refine Rel.ite ?_ ?_ | split | intro _ | dsimp only

theorem rel_Dev_tamper (d : Dev) (ok : Bool) (cause : Nat) : Rel 7247757697 d (Dev.tamper d ok cause) := by
  unfold Dev.tamper
  with_reducible repeat' first | assumption | decide | rfl | refine Rel.step (by apply rel_Dev_setToll) ?_ ?_ | refine Rel.step (by apply rel_Dev_tollLog) ?_ ?_ | split | intro _ | dsimp only

theorem rel_Dev_tapDown (d : Dev) (flashOk : Bool) : Rel 7247757697 d (Dev.tapDown d flashOk) := by
  unfold Dev.tapDown
  with_reducible repeat' first | assumption | decide | rfl | refine Rel.step (by apply rel_Dev_setToll) ?_ ?_ | refine Rel.step (by apply rel_Dev_tollLog) ?_ ?_ | refine Rel.ite ?_ ?_ | split | intro _ | dsimp only

theorem rel_Dev_tapFlush (d : Dev) (p : Nat) : Rel 268435456 d (Dev.tapFlush d p) := by
  unfold Dev.tapFlush
  with_reducible repeat' first | assumption | decide | rfl | refine Rel.step (by apply rel_Dev_setToll) ?_ ?_ | refine Rel.ite ?_ ?_ | split | intro _ | dsimp only

theorem rel_Dev_tapRecord (d : Dev) (bad : Bool) (flashOk : Bool) : Rel 7247757697 d (Dev.tapRecord d bad flashOk) := by
  unfold Dev.tapRecord
  with_reducible repeat' first | assumption | decide | rfl | refine Rel.step (by apply rel_Dev_tamper) ?_ ?_ | refine Rel.step (by apply rel_Dev_setToll) ?_ ?_ | refine Rel.ite ?_ ?_ | split | intro _ | dsimp only

theorem rel_Dev_tollMarker (d : Dev) (t : Nat) : Rel 268435456 d (Dev.tollMarker d t) := by
  unfold Dev.tollMarker
  with_reducible repeat' first | assumption | decide | rfl | refine Rel.step (by apply rel_Dev_setToll) ?_ ?_ | split | intro _ | dsimp only

theorem rel_Dev_tollStop (d : Dev) (byReset : Bool) : Rel 268435456 d (Dev.tollStop d byReset) := by
  unfold Dev.tollStop
  with_reducible repeat' first | assumption | decide | rfl | refine Rel.step (by apply rel_Dev_setToll) ?_ ?_ | split | intro _ | dsimp only

theorem rel_Dev_tollPowerLoss (d : Dev) (flashOk : Bool) : Rel 7247757697 d (Dev.tollPowerLoss d flashOk) := by
  unfold Dev.tollPowerLoss
  with_reducible repeat' first | assumption | decide | rfl | refine Rel.step (by apply rel_Dev_setToll) ?_ ?_ | refine Rel.step (by apply rel_Dev_tollStop) ?_ ?_ | refine Rel.step (by apply rel_Dev_tollLog) ?_ ?_ | refine Rel.ite ?_ ?_ | split | intro _ | dsimp only

theorem rel_Dev_tollReset (d : Dev) (flashOk : Bool) : Rel 7247757697 d (Dev.tollReset d flashOk) := by
  unfold Dev.tollReset
  with_reducible repeat' first | assumption | decide | rfl | refine Rel.step (by apply rel_Dev_setToll) ?_ ?_ | refine Rel.step (by apply rel_Dev_tollStop) ?_ ?_ | refine Rel.step (by apply rel_Dev_tollLog) ?_ ?_ | refine Rel.ite ?_ ?_ | split | intro _ | dsimp only

theorem rel_Dev_tollStart (d : Dev) (config : Option (List Byte)) (chainBad : Bool) (noCheck : Bool) (flashOk : Bool) : Rel 7247757697 d (Dev.tollStart d config chainBad noCheck flashOk) := by
  unfold Dev.tollStart
  with_reducible repeat' first | assumption | decide | rfl | refine Rel.step (by apply rel_Dev_tamper) ?_ ?_ | refine Rel.step (by apply rel_Dev_setToll) ?_ ?_ | refine Rel.step (by apply rel_Dev_readingStart) ?_ ?_ | refine Rel.step (by apply rel_Dev_tollLog) ?_ ?_ | refine Rel.ite ?_ ?_ | split | intro _ | dsimp only

theorem rel_execAccountMarker (flashOk : Bool) (s : State) {u : State} (h : execAccountMarker flashOk s = .next u) : Rel 7247757697 s.dev u.dev := by
  refine runAny_rel (fun _ => ?_) h
  with_reducible repeat' first | assumption | decide | rfl | refine Rel.step (by apply rel_Dev_accountMarker) ?_ ?_ | intro _ | dsimp only

theorem rel_execCheckpoint (flashOk : Bool) (s : State) {u : State} (h : execCheckpoint flashOk s = .next u) : Rel 268435456 s.dev u.dev := by
  refine runAny_rel (fun _ => ?_) h
  with_reducible repeat' first | assumption | decide | rfl | refine Rel.step (by apply rel_Dev_checkpoint) ?_ ?_ | intro _ | dsimp only

theorem rel_execCrystalFault (flashOk : Bool) (s : State) {u : State} (h : execCrystalFault flashOk s = .next u) : Rel 7247757697 s.dev u.dev := by
  refine runAny_rel (fun _ => ?_) h
  with_reducible repeat' first | assumption | decide | rfl | refine Rel.step (by apply rel_Dev_tamper) ?_ ?_ | refine Rel.ite ?_ ?_ | intro _ | dsimp only

theorem rel_execMetreTick (s : State) {u : State} (h : execMetreTick s = .next u) : Rel 268435456 s.dev u.dev := by
  refine runAny_rel (fun _ => ?_) h
  with_reducible repeat' first | assumption | decide | rfl | refine Rel.step (by apply rel_Dev_metreTick) ?_ ?_ | intro _ | dsimp only

theorem rel_execPeriodClose (s : State) {u : State} (h : execPeriodClose s = .next u) : Rel 268435456 s.dev u.dev := by
  refine runAny_rel (fun _ => ?_) h
  with_reducible repeat' first | assumption | decide | rfl | refine Rel.step (by apply rel_Dev_periodClose) ?_ ?_ | intro _ | dsimp only

theorem rel_execReadingSigned (flashOk : Bool) (s : State) {u : State} (h : execReadingSigned flashOk s = .next u) : Rel 7247757697 s.dev u.dev := by
  refine runAny_rel (fun _ => ?_) h
  with_reducible repeat' first | assumption | decide | rfl | refine Rel.step (by apply rel_Dev_readingSigned) ?_ ?_ | intro _ | dsimp only

theorem rel_execStateRecord (t : Nat) (flashOk : Bool) (s : State) {u : State} (h : execStateRecord t flashOk s = .next u) : Rel 7247757697 s.dev u.dev := by
  refine run_rel (fun _ => ?_) h
  with_reducible repeat' first | assumption | decide | rfl | refine Rel.step (by apply rel_Dev_stateRecord) ?_ ?_ | intro _ | dsimp only

theorem rel_execTapDownDetect (flashOk : Bool) (s : State) {u : State} (h : execTapDownDetect flashOk s = .next u) : Rel 7247757697 s.dev u.dev := by
  refine runAny_rel (fun _ => ?_) h
  with_reducible repeat' first | assumption | decide | rfl | refine Rel.step (by apply rel_Dev_tapDown) ?_ ?_ | intro _ | dsimp only

theorem rel_execTapFlush (p : Nat) (s : State) {u : State} (h : execTapFlush p s = .next u) : Rel 268435456 s.dev u.dev := by
  refine run_rel (fun _ => ?_) h
  with_reducible repeat' first | assumption | decide | rfl | refine Rel.step (by apply rel_Dev_tapFlush) ?_ ?_ | intro _ | dsimp only

theorem rel_execTapRecord (bad : Bool) (flashOk : Bool) (s : State) {u : State} (h : execTapRecord bad flashOk s = .next u) : Rel 7247757697 s.dev u.dev := by
  refine runAny_rel (fun _ => ?_) h
  with_reducible repeat' first | assumption | decide | rfl | refine Rel.step (by apply rel_Dev_tapRecord) ?_ ?_ | intro _ | dsimp only

theorem rel_execTlRstNAssert (flashOk : Bool) (s : State) {u : State} (h : execTlRstNAssert flashOk s = .next u) : Rel 7247757697 s.dev u.dev := by
  refine runAny_rel (fun _ => ?_) h
  with_reducible repeat' first | assumption | decide | rfl | refine Rel.step (by apply rel_Dev_tollReset) ?_ ?_ | intro _ | dsimp only

theorem rel_execTollPowerLoss (flashOk : Bool) (s : State) {u : State} (h : execTollPowerLoss flashOk s = .next u) : Rel 7247757697 s.dev u.dev := by
  refine runAny_rel (fun _ => ?_) h
  with_reducible repeat' first | assumption | decide | rfl | refine Rel.step (by apply rel_Dev_tollPowerLoss) ?_ ?_ | intro _ | dsimp only

theorem rel_execTollStart (config : Option (List Byte)) (chainBad : Bool) (noCheck : Bool) (flashOk : Bool) (s : State) {u : State} (h : execTollStart config chainBad noCheck flashOk s = .next u) : Rel 7247757697 s.dev u.dev := by
  refine runAny_rel (fun _ => ?_) h
  with_reducible repeat' first | assumption | decide | rfl | refine Rel.step (by apply rel_Dev_tollStart) ?_ ?_ | intro _ | dsimp only

theorem rel_execTollVddGlitch (flashOk : Bool) (s : State) {u : State} (h : execTollVddGlitch flashOk s = .next u) : Rel 7247757697 s.dev u.dev := by
  refine runAny_rel (fun _ => ?_) h
  with_reducible repeat' first | assumption | decide | rfl | refine Rel.step (by apply rel_Dev_tamper) ?_ ?_ | refine Rel.ite ?_ ?_ | intro _ | dsimp only

end Sys2Proof.Laws
end

