-- ==== Sys2Proof/Laws/Frames/TenReset.lean ====
section
/-! SUPPORT. What each function of Machine/TenReset.lean may change. -/

set_option linter.unusedTactic false
set_option linter.unreachableTactic false

namespace Sys2Proof.Laws

open Sys2Proof Sys2Proof.Machine

theorem rel_Dev_ctrlReset (d : Dev) (k : Nat) (cc : Word) : Rel 67108864 d (Dev.ctrlReset d k cc) := by
  unfold Dev.ctrlReset
  with_reducible repeat' first | assumption | decide | rfl | refine Rel.step (by apply rel_Dev_setCtrl) ?_ ?_ | split | intro _ | dsimp only

theorem rel_Dev_drainComplete (d : Dev) (t : Nat) : Rel 4295166368 d (Dev.drainComplete d t) := by
  unfold Dev.drainComplete
  with_reducible repeat' first | assumption | decide | rfl | refine Rel.step (by apply rel_Dev_admLate) ?_ ?_ | refine Rel.step (by apply rel_Dev_tenPut) ?_ ?_ | refine Rel.ite ?_ ?_ | split | intro _ | dsimp only

theorem rel_Dev_freeWhere (d : Dev) (p : Packet → Bool) : Rel 4295491588 d (Dev.freeWhere d p) := by
  unfold Dev.freeWhere
  with_reducible repeat' first | assumption | decide | rfl | refine Rel.foldl (fun _ _ => ?_) ?_ | refine Rel.foldl1 (fun _ _ => ?_) ?_ | refine Rel.foldl2 (fun _ _ => ?_) ?_ | refine Rel.step (by apply rel_Dev_freePkt) ?_ ?_ | split | intro _ | dsimp only

theorem rel_Dev_jobAbort (d : Dev) (j : Job) : Rel 134513792 d (Dev.jobAbort d j) := by
  unfold Dev.jobAbort
  with_reducible repeat' first | assumption | decide | rfl | refine Rel.step (by apply rel_Dev_jobEnd) ?_ ?_ | refine Rel.step (by apply rel_Dev_dropReads) ?_ ?_ | refine Rel.step (by apply rel_Dev_chanStop) ?_ ?_ | refine Rel.step (by apply rel_Dev_workEnd) ?_ ?_ | refine Rel.ite ?_ ?_ | split | intro _ | dsimp only

theorem rel_Dev_resetRings (d : Dev) (t : Nat) : Rel 53504 d (Dev.resetRings d t) := by
  unfold Dev.resetRings
  with_reducible repeat' first | assumption | decide | rfl | refine Rel.foldl (fun _ _ => ?_) ?_ | refine Rel.foldl1 (fun _ _ => ?_) ?_ | refine Rel.foldl2 (fun _ _ => ?_) ?_ | refine Rel.step (by apply rel_Dev_fnPut) ?_ ?_ | refine Rel.ite ?_ ?_ | simp only [Nat.reduceAnd, Rel.u_imt_jobs_rings] | split | intro _ | dsimp only

theorem rel_Dev_resetEngines (d : Dev) (t : Nat) : Rel 4539023366 d (Dev.resetEngines d t) := by
  unfold Dev.resetEngines
  with_reducible repeat' first | assumption | decide | rfl | refine Rel.foldl (fun _ _ => ?_) ?_ | refine Rel.foldl1 (fun _ _ => ?_) ?_ | refine Rel.foldl2 (fun _ _ => ?_) ?_ | refine Rel.elim ?_ (fun _ => ?_) | refine Rel.step (by apply rel_Dev_setTwin) ?_ ?_ | refine Rel.step (by apply rel_Dev_chanPut) ?_ ?_ | refine Rel.step (by apply rel_Dev_freeWhere) ?_ ?_ | refine Rel.step (by apply rel_Dev_zeroSlot) ?_ ?_ | refine Rel.step (by apply rel_Dev_setArc) ?_ ?_ | refine Rel.step (by apply rel_Dev_setCry) ?_ ?_ | simp only [Nat.reduceAnd, Rel.u_port, Rel.u_sto] | split | intro _ | dsimp only

theorem rel_Dev_resetTags (d : Dev) (t : Nat) : Rel 1152 d (Dev.resetTags d t) := by
  unfold Dev.resetTags
  with_reducible repeat' first | assumption | decide | rfl | refine Rel.foldl (fun _ _ => ?_) ?_ | refine Rel.foldl1 (fun _ _ => ?_) ?_ | refine Rel.foldl2 (fun _ _ => ?_) ?_ | refine Rel.ite ?_ ?_ | simp only [Nat.reduceAnd, Rel.u_hifPorts_hifReq] | split | intro _ | dsimp only

theorem rel_Dev_resetCommands (d : Dev) (t : Nat) : Rel 4328980960 d (Dev.resetCommands d t) := by
  unfold Dev.resetCommands
  with_reducible repeat' first | assumption | decide | rfl | refine Rel.foldl (fun _ _ => ?_) ?_ | refine Rel.foldl1 (fun _ _ => ?_) ?_ | refine Rel.foldl2 (fun _ _ => ?_) ?_ | refine Rel.elim ?_ (fun _ => ?_) | refine Rel.step (by apply rel_Dev_admLate) ?_ ?_ | refine Rel.step (by apply rel_Dev_setCry) ?_ ?_ | refine Rel.ite ?_ ?_ | simp only [Nat.reduceAnd, Rel.u_dma, Rel.u_tue] | split | intro _ | dsimp only

theorem rel_Dev_tenReset (d : Dev) (t : Nat) : Rel 4539276774 d (Dev.tenReset d t) := by
  unfold Dev.tenReset
  with_reducible repeat' first | assumption | decide | rfl | refine Rel.step (by apply rel_Dev_resetRings) ?_ ?_ | refine Rel.step (by apply rel_Dev_resetEngines) ?_ ?_ | refine Rel.step (by apply rel_Dev_resetTags) ?_ ?_ | refine Rel.step (by apply rel_Dev_tenPut) ?_ ?_ | refine Rel.step (by apply rel_Dev_resetCommands) ?_ ?_ | refine Rel.ite ?_ ?_ | split | intro _ | dsimp only

theorem rel_Dev_nvDisable (d : Dev) (pf : Nat) (vf : Nat) (v : Word) : Rel 4539276774 d (Dev.nvDisable d pf vf v) := by
  unfold Dev.nvDisable
  with_reducible repeat' first | assumption | decide | rfl | refine Rel.step (by apply rel_Dev_ctrlReset) ?_ ?_ | refine Rel.step (by apply rel_Dev_tenReset) ?_ ?_ | refine Rel.ite ?_ ?_ | split | intro _ | dsimp only

theorem rel_Dev_resetTens (d : Dev) (p : Fn → Bool) (unbinds : Bool) : Rel 4539276774 d (Dev.resetTens d p unbinds) := by
  unfold Dev.resetTens
  with_reducible repeat' first | assumption | decide | rfl | refine Rel.foldl (fun _ _ => ?_) ?_ | refine Rel.foldl1 (fun _ _ => ?_) ?_ | refine Rel.foldl2 (fun _ _ => ?_) ?_ | refine Rel.step (by apply rel_Dev_tenPut) ?_ ?_ | refine Rel.step (by apply rel_Dev_tenReset) ?_ ?_ | refine Rel.ite ?_ ?_ | split | intro _ | dsimp only

theorem rel_Dev_shareLeave (d : Dev) (t : Nat) : Rel 4295166368 d (Dev.shareLeave d t) := by
  unfold Dev.shareLeave
  with_reducible repeat' first | assumption | decide | rfl | refine Rel.step (by apply rel_Dev_applyShare) ?_ ?_ | split | intro _ | dsimp only

theorem rel_Dev_unbind (d : Dev) (t : Nat) : Rel 4296477088 d (Dev.unbind d t) := by
  unfold Dev.unbind
  with_reducible repeat' first | assumption | decide | rfl | refine Rel.step (by apply rel_Dev_shareLeave) ?_ ?_ | refine Rel.step (by apply rel_Dev_tenPut) ?_ ?_ | simp only [Nat.reduceAnd, Rel.u_cls_dma] | split | intro _ | dsimp only

theorem rel_Dev_tenResetDone (d : Dev) (t : Nat) : Rel 4296493472 d (Dev.tenResetDone d t) := by
  unfold Dev.tenResetDone
  with_reducible repeat' first | assumption | decide | rfl | refine Rel.step (by apply rel_Dev_admLate) ?_ ?_ | refine Rel.step (by apply rel_Dev_tenPut) ?_ ?_ | refine Rel.step (by apply rel_Dev_unbind) ?_ ?_ | refine Rel.ite ?_ ?_ | simp only [Nat.reduceAnd, Rel.u_rings] | split | intro _ | dsimp only

theorem rel_execDrainComplete (ten : Nat) (s : State) {u : State} (h : execDrainComplete ten s = .next u) : Rel 4295166368 s.dev u.dev := by
  refine run_rel (fun _ => ?_) h
  with_reducible repeat' first | assumption | decide | rfl | refine Rel.step (by apply rel_Dev_drainComplete) ?_ ?_ | intro _ | dsimp only

theorem rel_execNvmeCcDisable (pf : Nat) (vf : Nat) (value : Word) (s : State) {u : State} (h : execNvmeCcDisable pf vf value s = .next u) : Rel 4539276774 s.dev u.dev := by
  refine run_rel (fun _ => ?_) h
  with_reducible repeat' first | assumption | decide | rfl | refine Rel.step (by apply rel_Dev_nvDisable) ?_ ?_ | intro _ | dsimp only

theorem rel_tenClose (e : AdmEntry) (d : Dev) : AdmRel 4496612736 d (tenClose e d) := by
  unfold tenClose
  with_reducible repeat' first | assumption | decide | rfl | refine AdmRel.checks ?_ | exact AdmRel.fail | refine AdmRel.done ?_ | refine AdmRel.wait ?_ | refine Rel.foldl (fun _ _ => ?_) ?_ | refine Rel.foldl1 (fun _ _ => ?_) ?_ | refine Rel.foldl2 (fun _ _ => ?_) ?_ | refine Rel.step (by apply rel_Dev_jobAbort) ?_ ?_ | refine Rel.step (by apply rel_Dev_tenPut) ?_ ?_ | refine Rel.step (by apply rel_Dev_irqFire) ?_ ?_ | refine Rel.ite ?_ ?_ | refine AdmRel.ite ?_ ?_ | simp only [Nat.reduceAnd, Rel.u_rings] | split | intro _ | dsimp only

theorem rel_execTenClose (e : AdmEntry) (s : State) {u : State} (h : execTenClose e s = .next u) : Rel 4496809376 s.dev u.dev := by
  refine run_rel (fun _ => ?_) h
  with_reducible repeat' first | assumption | decide | rfl | refine AdmRel.step (by apply rel_tenClose) ?_ ?_ | (apply Rel.trans; swap; apply rel_Dev_admRun) | intro _ | dsimp only

theorem rel_tenDestroy (e : AdmEntry) (d : Dev) : AdmRel 1343735808 d (tenDestroy e d) := by
  unfold tenDestroy
  refine AdmRel.checks (AdmRel.done ?_)
  have k : Rel 1343735808 d ((d.tollMarker e.ten).tenPut e.ten { gen := (d.tenGet e.ten).gen }) :=
    Rel.step (rel_Dev_tenPut ..) (by decide) (Rel.mono (rel_Dev_tollMarker ..) (by decide))
  revert k
  generalize (d.tollMarker e.ten).tenPut e.ten { gen := (d.tenGet e.ten).gen } = d1
  intro k
  refine (Rel.u_dma (by decide)).2 ?_
  exact k.trans ⟨fun p hp => by cases p <;> first | exact absurd hp (by decide) | simp [Part.same], id⟩

theorem rel_execTenDestroy (e : AdmEntry) (s : State) {u : State} (h : execTenDestroy e s = .next u) : Rel 5638703520 s.dev u.dev := by
  refine run_rel (fun _ => ?_) h
  with_reducible repeat' first | assumption | decide | rfl | refine AdmRel.step (by apply rel_tenDestroy) ?_ ?_ | (apply Rel.trans; swap; apply rel_Dev_admRun) | intro _ | dsimp only

theorem rel_tenExport (e : AdmEntry) (d : Dev) : AdmRel 17179869184 d (tenExport e d) := by
  unfold tenExport
  with_reducible repeat' first | assumption | decide | rfl | refine AdmRel.checks ?_ | exact AdmRel.fail | refine AdmRel.done ?_ | refine AdmRel.wait ?_ | refine Rel.step (by apply rel_Dev_draw) ?_ ?_ | refine Rel.step (by apply rel_Dev_draw'; assumption) ?_ ?_ | refine AdmRel.ite ?_ ?_ | split | intro _ | dsimp only

theorem rel_execTenExport (e : AdmEntry) (s : State) {u : State} (h : execTenExport e s = .next u) : Rel 21575719331 s.dev u.dev := by
  refine run_rel (fun _ => ?_) h
  with_reducible repeat' first | assumption | decide | rfl | (apply Rel.trans; swap; apply rel_Dev_keyRun) | refine AdmRel.step (by apply rel_tenExport) ?_ ?_ | intro _ | dsimp only

theorem rel_imgRing (t : Nat) (d : Dev) (r : ImgRing) : Rel 16384 d (imgRing t d r) := by
  unfold imgRing
  with_reducible repeat' first | assumption | decide | rfl | refine Rel.elim ?_ (fun _ => ?_) | refine Rel.step (by apply rel_Dev_sqPut) ?_ ?_ | refine Rel.step (by apply rel_Dev_cqPut) ?_ ?_ | refine Rel.ite ?_ ?_ | split | intro _ | dsimp only

theorem rel_tenImport (e : AdmEntry) (img : Option TenImage) (d : Dev) : AdmRel 100679680 d (tenImport e img d) := by
  unfold tenImport
  with_reducible repeat' first | assumption | decide | rfl | refine AdmRel.checks ?_ | exact AdmRel.fail | refine AdmRel.done ?_ | refine AdmRel.wait ?_ | refine Rel.foldl (fun _ _ => ?_) ?_ | refine Rel.foldl1 (fun _ _ => ?_) ?_ | refine Rel.foldl2 (fun _ _ => ?_) ?_ | refine Rel.step (by apply rel_Dev_putSlot) ?_ ?_ | refine Rel.step (by apply rel_Dev_setSto) ?_ ?_ | refine Rel.step (by apply rel_Dev_setCryCtx) ?_ ?_ | refine Rel.step (by apply rel_imgRing) ?_ ?_ | refine Rel.ite ?_ ?_ | refine AdmRel.ite ?_ ?_ | split | intro _ | dsimp only

theorem rel_execTenImport (e : AdmEntry) (img : Option TenImage) (s : State) {u : State} (h : execTenImport e img s = .next u) : Rel 4395850147 s.dev u.dev := by
  refine run_rel (fun _ => ?_) h
  with_reducible repeat' first | assumption | decide | rfl | (apply Rel.trans; swap; apply rel_Dev_keyRun) | refine AdmRel.step (by apply rel_tenImport) ?_ ?_ | intro _ | dsimp only

theorem rel_tenResetCmd (e : AdmEntry) (d : Dev) : AdmRel 4539276774 d (tenResetCmd e d) := by
  unfold tenResetCmd
  with_reducible repeat' first | assumption | decide | rfl | refine AdmRel.checks ?_ | exact AdmRel.fail | refine AdmRel.done ?_ | refine AdmRel.wait ?_ | refine Rel.step (by apply rel_Dev_tenPut) ?_ ?_ | refine Rel.step (by apply rel_Dev_tenReset) ?_ ?_ | refine AdmRel.ite ?_ ?_ | split | intro _ | dsimp only

theorem rel_execTenReset (e : AdmEntry) (s : State) {u : State} (h : execTenReset e s = .next u) : Rel 4539276774 s.dev u.dev := by
  refine run_rel (fun _ => ?_) h
  with_reducible repeat' first | assumption | decide | rfl | refine AdmRel.step (by apply rel_tenResetCmd) ?_ ?_ | (apply Rel.trans; swap; apply rel_Dev_admRun) | intro _ | dsimp only

theorem rel_tenUnbind (e : AdmEntry) (d : Dev) : AdmRel 4539276774 d (tenUnbind e d) := by
  unfold tenUnbind
  with_reducible repeat' first | assumption | decide | rfl | refine AdmRel.checks ?_ | exact AdmRel.fail | refine AdmRel.done ?_ | refine AdmRel.wait ?_ | refine Rel.step (by apply rel_Dev_tenPut) ?_ ?_ | refine Rel.step (by apply rel_Dev_tenReset) ?_ ?_ | refine AdmRel.ite ?_ ?_ | split | intro _ | dsimp only

theorem rel_execTenUnbind (e : AdmEntry) (s : State) {u : State} (h : execTenUnbind e s = .next u) : Rel 4539276774 s.dev u.dev := by
  refine run_rel (fun _ => ?_) h
  with_reducible repeat' first | assumption | decide | rfl | refine AdmRel.step (by apply rel_tenUnbind) ?_ ?_ | (apply Rel.trans; swap; apply rel_Dev_admRun) | intro _ | dsimp only

theorem rel_execTenancyResetDone (ten : Nat) (s : State) {u : State} (h : execTenancyResetDone ten s = .next u) : Rel 4296493472 s.dev u.dev := by
  refine run_rel (fun _ => ?_) h
  with_reducible repeat' first | assumption | decide | rfl | refine Rel.step (by apply rel_Dev_tenResetDone) ?_ ?_ | intro _ | dsimp only

end Sys2Proof.Laws
end

