-- ==== Sys2Proof/Laws/Frames/Twin.lean ====
section
/-! SUPPORT. What each function of Machine/Twin.lean may change. -/

set_option linter.unusedTactic false
set_option linter.unreachableTactic false

namespace Sys2Proof.Laws

open Sys2Proof Sys2Proof.Machine

theorem rel_Dev_annFrame (d : Dev) (port : Nat) (f : List Byte) : Rel 67633156 d (Dev.annFrame d port f) := by
  unfold Dev.annFrame
  with_reducible repeat' first | assumption | decide | rfl | refine Rel.elim ?_ (fun _ => ?_) | refine Rel.step (by apply rel_Dev_enqueuePort) ?_ ?_ | refine Rel.step (by apply rel_Dev_setSquare) ?_ ?_ | split | intro _ | dsimp only

theorem rel_Dev_announce (d : Dev) : Rel 67633156 d (Dev.announce d) := by
  unfold Dev.announce
  with_reducible repeat' first | assumption | decide | rfl | refine Rel.foldl (fun _ _ => ?_) ?_ | refine Rel.foldl1 (fun _ _ => ?_) ?_ | refine Rel.foldl2 (fun _ _ => ?_) ?_ | refine Rel.step (by apply rel_Dev_annFrame) ?_ ?_ | refine Rel.ite ?_ ?_ | split | intro _ | dsimp only

theorem rel_Dev_setRole (d : Dev) (r : Nat) : Rel 4303421825 d (Dev.setRole d r) := by
  unfold Dev.setRole
  with_reducible repeat' first | assumption | decide | rfl | refine Rel.step (by apply rel_Dev_twinEvent) ?_ ?_ | refine Rel.step (by apply rel_Dev_setTwin) ?_ ?_ | refine Rel.ite ?_ ?_ | split | intro _ | dsimp only

theorem rel_Dev_sendHeld (d : Dev) : Rel 76021764 d (Dev.sendHeld d) := by
  unfold Dev.sendHeld
  with_reducible repeat' first | assumption | decide | rfl | refine Rel.foldl (fun _ _ => ?_) ?_ | refine Rel.foldl1 (fun _ _ => ?_) ?_ | refine Rel.foldl2 (fun _ _ => ?_) ?_ | refine Rel.elim ?_ (fun _ => ?_) | refine Rel.step (by apply rel_Dev_setTwin) ?_ ?_ | refine Rel.step (by apply rel_Dev_enqueuePort) ?_ ?_ | split | intro _ | dsimp only

theorem rel_Dev_becomeActive (d : Dev) : Rel 4371054981 d (Dev.becomeActive d) := by
  unfold Dev.becomeActive
  with_reducible repeat' first | assumption | decide | rfl | refine Rel.step (by apply rel_Dev_setTwin) ?_ ?_ | refine Rel.step (by apply rel_Dev_setRole) ?_ ?_ | refine Rel.step (by apply rel_Dev_announce) ?_ ?_ | refine Rel.step (by apply rel_Dev_sendHeld) ?_ ?_ | split | intro _ | dsimp only

theorem rel_Dev_twinSend (d : Dev) (type : Nat) (body : List Byte) : Rel 5 d (Dev.twinSend d type body) := by
  unfold Dev.twinSend
  with_reducible repeat' first | assumption | decide | rfl | refine Rel.step (by apply rel_Dev_fabSend) ?_ ?_ | split | intro _ | dsimp only

theorem rel_Dev_checkEnd (d : Dev) : Rel 4303421829 d (Dev.checkEnd d) := by
  unfold Dev.checkEnd
  with_reducible repeat' first | assumption | decide | rfl | refine Rel.step (by apply rel_Dev_twinSend) ?_ ?_ | refine Rel.step (by apply rel_Dev_setTwin) ?_ ?_ | refine Rel.step (by apply rel_Dev_twinDiverged) ?_ ?_ | refine Rel.step (by apply rel_Dev_setRole) ?_ ?_ | refine Rel.ite ?_ ?_ | split | intro _ | dsimp only

theorem rel_Dev_checkRx (d : Dev) (m : List Byte) : Rel 4303421829 d (Dev.checkRx d m) := by
  unfold Dev.checkRx
  with_reducible repeat' first | assumption | decide | rfl | refine Rel.step (by apply rel_Dev_setTwin) ?_ ?_ | refine Rel.step (by apply rel_Dev_checkEnd) ?_ ?_ | refine Rel.ite ?_ ?_ | split | intro _ | dsimp only

theorem rel_Dev_mismatch (d : Dev) (r : DigRange) : Rel 4303552929 d (Dev.mismatch d r) := by
  unfold Dev.mismatch
  with_reducible repeat' first | assumption | decide | rfl | refine Rel.elim ?_ (fun _ => ?_) | refine Rel.step (by apply rel_Dev_setTwin) ?_ ?_ | refine Rel.step (by apply rel_Dev_admLate) ?_ ?_ | refine Rel.step (by apply rel_Dev_count) ?_ ?_ | split | intro _ | dsimp only

theorem rel_Dev_compareRanges (d : Dev) (rs : List DigRange) : Rel 4303552929 d (Dev.compareRanges d rs) := by
  unfold Dev.compareRanges
  with_reducible repeat' first | assumption | decide | rfl | refine Rel.foldl (fun _ _ => ?_) ?_ | refine Rel.foldl1 (fun _ _ => ?_) ?_ | refine Rel.foldl2 (fun _ _ => ?_) ?_ | refine Rel.step (by apply rel_Dev_setTwin) ?_ ?_ | refine Rel.step (by apply rel_Dev_mismatch) ?_ ?_ | refine Rel.ite ?_ ?_ | split | intro _ | dsimp only

theorem rel_Dev_exerciseEnd (d : Dev) (r : Nat) : Rel 4303421825 d (Dev.exerciseEnd d r) := by
  unfold Dev.exerciseEnd
  with_reducible repeat' first | assumption | decide | rfl | refine Rel.step (by apply rel_Dev_twinEvent) ?_ ?_ | refine Rel.step (by apply rel_Dev_setReg) ?_ ?_ | refine Rel.step (by apply rel_Dev_setTwin) ?_ ?_ | refine Rel.step (by apply rel_Dev_setBit) ?_ ?_ | refine Rel.step (by apply rel_Dev_setRole) ?_ ?_ | refine Rel.ite ?_ ?_ | split | intro _ | dsimp only

theorem rel_Dev_digestLoss (d : Dev) : Rel 4303421829 d (Dev.digestLoss d) := by
  unfold Dev.digestLoss
  with_reducible repeat' first | assumption | decide | rfl | refine Rel.elim ?_ (fun _ => ?_) | refine Rel.step (by apply rel_Dev_twinEvent) ?_ ?_ | refine Rel.step (by apply rel_Dev_setTwin) ?_ ?_ | refine Rel.step (by apply rel_Dev_setBit) ?_ ?_ | refine Rel.step (by apply rel_Dev_exerciseEnd) ?_ ?_ | refine Rel.step (by apply rel_Dev_fabSend) ?_ ?_ | refine Rel.ite ?_ ?_ | split | intro _ | dsimp only

theorem rel_Dev_leaseBack (d : Dev) : Rel 4371054981 d (Dev.leaseBack d) := by
  unfold Dev.leaseBack
  with_reducible repeat' first | assumption | decide | rfl | refine Rel.step (by apply rel_Dev_setRole) ?_ ?_ | refine Rel.step (by apply rel_Dev_announce) ?_ ?_ | refine Rel.ite ?_ ?_ | split | intro _ | dsimp only

theorem rel_Dev_digestRx (d : Dev) (m : List Byte) : Rel 4371186085 d (Dev.digestRx d m) := by
  unfold Dev.digestRx
  with_reducible repeat' first | assumption | decide | rfl | refine Rel.foldl (fun _ _ => ?_) ?_ | refine Rel.foldl1 (fun _ _ => ?_) ?_ | refine Rel.foldl2 (fun _ _ => ?_) ?_ | refine Rel.step (by apply rel_Dev_setTwin) ?_ ?_ | refine Rel.step (by apply rel_Dev_freePkt) ?_ ?_ | refine Rel.step (by apply rel_Dev_leaseBack) ?_ ?_ | refine Rel.step (by apply rel_Dev_compareRanges) ?_ ?_ | refine Rel.ite ?_ ?_ | split | intro _ | dsimp only

theorem rel_Dev_digestSend (d : Dev) : Rel 8388613 d (Dev.digestSend d) := by
  unfold Dev.digestSend
  with_reducible repeat' first | assumption | decide | rfl | refine Rel.foldl (fun _ _ => ?_) ?_ | refine Rel.foldl1 (fun _ _ => ?_) ?_ | refine Rel.foldl2 (fun _ _ => ?_) ?_ | refine Rel.step (by apply rel_Dev_twinSend) ?_ ?_ | refine Rel.step (by apply rel_Dev_setTwin) ?_ ?_ | refine Rel.ite ?_ ?_ | split | intro _ | dsimp only

theorem rel_Dev_exerciseStart (d : Dev) : Rel 8388609 d (Dev.exerciseStart d) := by
  unfold Dev.exerciseStart
  with_reducible repeat' first | assumption | decide | rfl | refine Rel.step (by apply rel_Dev_setTwin) ?_ ?_ | refine Rel.step (by apply rel_Dev_count) ?_ ?_ | refine Rel.ite ?_ ?_ | split | intro _ | dsimp only

theorem rel_Dev_fabArrive {w : Nat} {d : Dev} {bus : Bool} {type : Nat} {m : List Byte} {f : Dev → Dev} (hm : 16777217 &&& w = 16777217) (hf : ∀ d, Rel w d (f d)) : Rel w d (Dev.fabArrive d bus type m f) := by
  unfold Dev.fabArrive
  with_reducible repeat' first | assumption | decide | rfl | (apply Rel.trans; swap; apply hf) | refine Rel.step2 hm (by apply rel_Dev_fabTake) ?_ ?_ | refine Rel.step2 hm (by apply rel_Dev_fabTake'; assumption) ?_ ?_ | refine Rel.ite ?_ ?_ | split | intro _ | dsimp only

theorem rel_Dev_freeHeld (d : Dev) : Rel 4303880196 d (Dev.freeHeld d) := by
  unfold Dev.freeHeld
  with_reducible repeat' first | assumption | decide | rfl | refine Rel.foldl (fun _ _ => ?_) ?_ | refine Rel.foldl1 (fun _ _ => ?_) ?_ | refine Rel.foldl2 (fun _ _ => ?_) ?_ | refine Rel.step (by apply rel_Dev_setTwin) ?_ ?_ | refine Rel.step (by apply rel_Dev_freePkt) ?_ ?_ | split | intro _ | dsimp only

theorem rel_Dev_swapStart (d : Dev) : Rel 8388613 d (Dev.swapStart d) := by
  unfold Dev.swapStart
  with_reducible repeat' first | assumption | decide | rfl | refine Rel.step (by apply rel_Dev_twinSend) ?_ ?_ | refine Rel.step (by apply rel_Dev_setTwin) ?_ ?_ | refine Rel.ite ?_ ?_ | split | intro _ | dsimp only

theorem rel_Dev_holdoff (d : Dev) : Rel 4303421829 d (Dev.holdoff d) := by
  unfold Dev.holdoff
  with_reducible repeat' first | assumption | decide | rfl | refine Rel.step (by apply rel_Dev_swapStart) ?_ ?_ | refine Rel.step (by apply rel_Dev_setRole) ?_ ?_ | refine Rel.ite ?_ ?_ | split | intro _ | dsimp only

theorem rel_Dev_leaseReqRx (d : Dev) (m : List Byte) : Rel 8388613 d (Dev.leaseReqRx d m) := by
  unfold Dev.leaseReqRx
  with_reducible repeat' first | assumption | decide | rfl | refine Rel.elim ?_ (fun _ => ?_) | refine Rel.step (by apply rel_Dev_setTwin) ?_ ?_ | refine Rel.step (by apply rel_Dev_fabSend) ?_ ?_ | refine Rel.ite ?_ ?_ | split | intro _ | dsimp only

theorem rel_Dev_leaseReqSend (d : Dev) : Rel 5 d (Dev.leaseReqSend d) := by
  unfold Dev.leaseReqSend
  with_reducible repeat' first | assumption | decide | rfl | refine Rel.step (by apply rel_Dev_fabUp) ?_ ?_ | refine Rel.ite ?_ ?_ | split | intro _ | dsimp only

theorem rel_Dev_leaseRx (d : Dev) (m : List Byte) : Rel 4371054981 d (Dev.leaseRx d m) := by
  unfold Dev.leaseRx
  with_reducible repeat' first | assumption | decide | rfl | refine Rel.step (by apply rel_Dev_setTwin) ?_ ?_ | refine Rel.step (by apply rel_Dev_leaseBack) ?_ ?_ | refine Rel.ite ?_ ?_ | split | intro _ | dsimp only

theorem rel_Dev_unpaired (d : Dev) : Rel 4303946117 d (Dev.unpaired d) := by
  unfold Dev.unpaired
  with_reducible repeat' first | assumption | decide | rfl | refine Rel.step (by apply rel_Dev_twinEvent) ?_ ?_ | refine Rel.step (by apply rel_Dev_setTwin) ?_ ?_ | refine Rel.step (by apply rel_Dev_freeHeld) ?_ ?_ | refine Rel.ite ?_ ?_ | split | intro _ | dsimp only

theorem rel_Dev_pairTry (d : Dev) : Rel 4304077221 d (Dev.pairTry d) := by
  unfold Dev.pairTry
  with_reducible repeat' first | assumption | decide | rfl | refine Rel.elim ?_ (fun _ => ?_) | refine Rel.step (by apply rel_Dev_unpaired) ?_ ?_ | refine Rel.step (by apply rel_Dev_setTwin) ?_ ?_ | refine Rel.step (by apply rel_Dev_admLate) ?_ ?_ | refine Rel.step (by apply rel_Dev_setRole) ?_ ?_ | refine Rel.ite ?_ ?_ | split | intro _ | dsimp only

theorem rel_Dev_pairRx (d : Dev) (m : List Byte) : Rel 4304077221 d (Dev.pairRx d m) := by
  unfold Dev.pairRx
  with_reducible repeat' first | assumption | decide | rfl | refine Rel.step (by apply rel_Dev_setTwin) ?_ ?_ | refine Rel.step (by apply rel_Dev_pairTry) ?_ ?_ | refine Rel.ite ?_ ?_ | split | intro _ | dsimp only

theorem rel_Dev_pairSend (d : Dev) : Rel 5 d (Dev.pairSend d) := by
  unfold Dev.pairSend
  with_reducible repeat' first | assumption | decide | rfl | refine Rel.step (by apply rel_Dev_twinSend) ?_ ?_ | split | intro _ | dsimp only

theorem rel_Dev_pairTimeout (d : Dev) : Rel 4304077221 d (Dev.pairTimeout d) := by
  unfold Dev.pairTimeout
  with_reducible repeat' first | assumption | decide | rfl | refine Rel.step (by apply rel_Dev_unpaired) ?_ ?_ | refine Rel.step (by apply rel_Dev_admLate) ?_ ?_ | refine Rel.ite ?_ ?_ | split | intro _ | dsimp only

theorem rel_Dev_plannedSwap (d : Dev) : Rel 8388613 d (Dev.plannedSwap d) := by
  unfold Dev.plannedSwap
  with_reducible repeat' first | assumption | decide | rfl | refine Rel.step (by apply rel_Dev_setTwin) ?_ ?_ | refine Rel.step (by apply rel_Dev_swapStart) ?_ ?_ | refine Rel.ite ?_ ?_ | split | intro _ | dsimp only

theorem rel_Dev_rangeMissed (d : Dev) (s : Nat) (first : Nat) : Rel 8388609 d (Dev.rangeMissed d s first) := by
  unfold Dev.rangeMissed
  with_reducible repeat' first | assumption | decide | rfl | refine Rel.step (by apply rel_Dev_setTwin) ?_ ?_ | refine Rel.step (by apply rel_Dev_count) ?_ ?_ | refine Rel.ite ?_ ?_ | split | intro _ | dsimp only

theorem rel_Dev_recoveryReset (d : Dev) (s : Nat) : Rel 8388608 d (Dev.recoveryReset d s) := by
  unfold Dev.recoveryReset
  with_reducible repeat' first | assumption | decide | rfl | refine Rel.step (by apply rel_Dev_setStream) ?_ ?_ | split | intro _ | dsimp only

theorem rel_Dev_release (d : Dev) : Rel 4303421829 d (Dev.release d) := by
  unfold Dev.release
  with_reducible repeat' first | assumption | decide | rfl | refine Rel.step (by apply rel_Dev_twinSend) ?_ ?_ | refine Rel.step (by apply rel_Dev_setTwin) ?_ ?_ | refine Rel.step (by apply rel_Dev_setRole) ?_ ?_ | refine Rel.step (by apply rel_Dev_digestSend) ?_ ?_ | split | intro _ | dsimp only

theorem rel_Dev_releasedRx (d : Dev) (m : List Byte) : Rel 4371186085 d (Dev.releasedRx d m) := by
  unfold Dev.releasedRx
  with_reducible repeat' first | assumption | decide | rfl | refine Rel.elim ?_ (fun _ => ?_) | refine Rel.step (by apply rel_Dev_setTwin) ?_ ?_ | refine Rel.step (by apply rel_Dev_admLate) ?_ ?_ | refine Rel.step (by apply rel_Dev_exerciseEnd) ?_ ?_ | refine Rel.step (by apply rel_Dev_becomeActive) ?_ ?_ | refine Rel.ite ?_ ?_ | split | intro _ | dsimp only

theorem rel_Dev_revokeRx (d : Dev) (m : List Byte) : Rel 8388613 d (Dev.revokeRx d m) := by
  unfold Dev.revokeRx
  with_reducible repeat' first | assumption | decide | rfl | refine Rel.step (by apply rel_Dev_setTwin) ?_ ?_ | refine Rel.step (by apply rel_Dev_fabSend) ?_ ?_ | split | intro _ | dsimp only

theorem rel_Dev_revokeTimeout (d : Dev) : Rel 8388608 d (Dev.revokeTimeout d) := by
  unfold Dev.revokeTimeout
  with_reducible repeat' first | assumption | decide | rfl | refine Rel.step (by apply rel_Dev_setTwin) ?_ ?_ | split | intro _ | dsimp only

theorem rel_Dev_revokedRx (d : Dev) (m : List Byte) : Rel 8388608 d (Dev.revokedRx d m) := by
  unfold Dev.revokedRx
  with_reducible repeat' first | assumption | decide | rfl | refine Rel.step (by apply rel_Dev_setTwin) ?_ ?_ | refine Rel.ite ?_ ?_ | split | intro _ | dsimp only

theorem rel_Dev_selfCheck (d : Dev) (differs : Bool) : Rel 4303421829 d (Dev.selfCheck d differs) := by
  unfold Dev.selfCheck
  with_reducible repeat' first | assumption | decide | rfl | refine Rel.step (by apply rel_Dev_twinSend) ?_ ?_ | refine Rel.step (by apply rel_Dev_setTwin) ?_ ?_ | refine Rel.step (by apply rel_Dev_checkEnd) ?_ ?_ | split | intro _ | dsimp only

theorem rel_Dev_shadowExpire (d : Dev) (tok : Nat) : Rel 4303880197 d (Dev.shadowExpire d tok) := by
  unfold Dev.shadowExpire
  with_reducible repeat' first | assumption | decide | rfl | refine Rel.step (by apply rel_Dev_setTwin) ?_ ?_ | refine Rel.step (by apply rel_Dev_freePkt) ?_ ?_ | refine Rel.step (by apply rel_Dev_count) ?_ ?_ | refine Rel.ite ?_ ?_ | split | intro _ | dsimp only

theorem rel_Dev_swapRx (d : Dev) (m : List Byte) : Rel 4303552933 d (Dev.swapRx d m) := by
  unfold Dev.swapRx
  with_reducible repeat' first | assumption | decide | rfl | refine Rel.elim ?_ (fun _ => ?_) | refine Rel.step (by apply rel_Dev_twinSend) ?_ ?_ | refine Rel.step (by apply rel_Dev_setTwin) ?_ ?_ | refine Rel.step (by apply rel_Dev_admLate) ?_ ?_ | refine Rel.step (by apply rel_Dev_release) ?_ ?_ | refine Rel.ite ?_ ?_ | split | intro _ | dsimp only

theorem rel_Dev_takeover (d : Dev) : Rel 4371054981 d (Dev.takeover d) := by
  unfold Dev.takeover
  with_reducible repeat' first | assumption | decide | rfl | refine Rel.step (by apply rel_Dev_setReg) ?_ ?_ | refine Rel.step (by apply rel_Dev_setBit) ?_ ?_ | refine Rel.step (by apply rel_Dev_becomeActive) ?_ ?_ | refine Rel.step (by apply rel_Dev_count) ?_ ?_ | refine Rel.ite ?_ ?_ | split | intro _ | dsimp only

theorem rel_Dev_twinEpoch (d : Dev) : Rel 4371186085 d (Dev.twinEpoch d) := by
  unfold Dev.twinEpoch
  with_reducible repeat' first | assumption | decide | rfl | refine Rel.step (by apply rel_Dev_twinEvent) ?_ ?_ | refine Rel.step (by apply rel_Dev_setTwin) ?_ ?_ | refine Rel.step (by apply rel_Dev_setBit) ?_ ?_ | refine Rel.step (by apply rel_Dev_pairSend) ?_ ?_ | refine Rel.step (by apply rel_Dev_leaseBack) ?_ ?_ | refine Rel.step (by apply rel_Dev_pairTry) ?_ ?_ | refine Rel.step (by apply rel_Dev_takeover) ?_ ?_ | refine Rel.ite ?_ ?_ | split | intro _ | dsimp only

theorem rel_Dev_twinLeaseExpire (d : Dev) : Rel 4303421825 d (Dev.twinLeaseExpire d) := by
  unfold Dev.twinLeaseExpire
  with_reducible repeat' first | assumption | decide | rfl | refine Rel.step (by apply rel_Dev_setTwin) ?_ ?_ | refine Rel.step (by apply rel_Dev_setRole) ?_ ?_ | refine Rel.step (by apply rel_Dev_count) ?_ ?_ | refine Rel.ite ?_ ?_ | split | intro _ | dsimp only

theorem rel_Dev_twinMessage (d : Dev) (m : List Byte) : Rel 4371186085 d (Dev.twinMessage d m) := by
  unfold Dev.twinMessage
  with_reducible repeat' first | assumption | decide | rfl | refine Rel.step (by apply rel_Dev_leaseRx) ?_ ?_ | refine Rel.step (by apply rel_Dev_releasedRx) ?_ ?_ | refine Rel.step (by apply rel_Dev_swapRx) ?_ ?_ | refine Rel.step (by apply rel_Dev_checkRx) ?_ ?_ | refine Rel.step (by apply rel_Dev_pairRx) ?_ ?_ | refine Rel.step (by apply rel_Dev_revokeRx) ?_ ?_ | refine Rel.step (by apply rel_Dev_revokedRx) ?_ ?_ | refine Rel.step (by apply rel_Dev_digestRx) ?_ ?_ | refine Rel.step (by apply rel_Dev_leaseReqRx) ?_ ?_ | split | intro _ | dsimp only

theorem rel_twinPair (e : AdmEntry) (d : Dev) : AdmRel 4303421829 d (twinPair e d) := by
  unfold twinPair
  with_reducible repeat' first | assumption | decide | rfl | refine AdmRel.checks ?_ | exact AdmRel.fail | refine AdmRel.done ?_ | refine AdmRel.wait ?_ | refine Rel.step (by apply rel_Dev_setTwin) ?_ ?_ | refine Rel.step (by apply rel_Dev_pairSend) ?_ ?_ | refine Rel.step (by apply rel_Dev_setRole) ?_ ?_ | refine AdmRel.ite ?_ ?_ | split | intro _ | dsimp only

theorem rel_Dev_twinPairRun (d : Dev) (e : AdmEntry) : Rel 4304077221 d (Dev.twinPairRun d e) := by
  unfold Dev.twinPairRun
  with_reducible repeat' first | assumption | decide | rfl | (apply Rel.trans; swap; apply rel_Dev_admRun) | refine AdmRel.step (by apply rel_twinPair) ?_ ?_ | refine Rel.step (by apply rel_Dev_pairTry) ?_ ?_ | split | intro _ | dsimp only

theorem rel_Dev_twinReset (d : Dev) : Rel 4303946117 d (Dev.twinReset d) := by
  unfold Dev.twinReset
  with_reducible repeat' first | assumption | decide | rfl | refine Rel.step (by apply rel_Dev_setTwin) ?_ ?_ | refine Rel.step (by apply rel_Dev_setRole) ?_ ?_ | refine Rel.step (by apply rel_Dev_freeHeld) ?_ ?_ | refine Rel.ite ?_ ?_ | split | intro _ | dsimp only

theorem rel_execCheckRx (msg : List Byte) (s : State) {u : State} (h : execCheckRx msg s = .next u) : Rel 4320199045 s.dev u.dev := by
  refine run_rel (fun _ => ?_) h
  with_reducible repeat' first | assumption | decide | rfl | refine Rel.step (by apply rel_Dev_checkRx) ?_ ?_ | (apply Rel.trans; swap; apply rel_Dev_fabArrive) | intro _ | dsimp only

theorem rel_execDigestRangeMissed (stream : Nat) (first : Nat) (s : State) {u : State} (h : execDigestRangeMissed stream first s = .next u) : Rel 8388609 s.dev u.dev := by
  refine run_rel (fun _ => ?_) h
  with_reducible repeat' first | assumption | decide | rfl | refine Rel.step (by apply rel_Dev_rangeMissed) ?_ ?_ | intro _ | dsimp only

theorem rel_execDigestRx (msg : List Byte) (s : State) {u : State} (h : execDigestRx msg s = .next u) : Rel 4387963301 s.dev u.dev := by
  refine run_rel (fun _ => ?_) h
  with_reducible repeat' first | assumption | decide | rfl | (apply Rel.trans; swap; apply rel_Dev_fabArrive) | refine Rel.step (by apply rel_Dev_digestRx) ?_ ?_ | intro _ | dsimp only

theorem rel_execDigestSend (s : State) {u : State} (h : execDigestSend s = .next u) : Rel 8388613 s.dev u.dev := by
  refine run_rel (fun _ => ?_) h
  with_reducible repeat' first | assumption | decide | rfl | refine Rel.step (by apply rel_Dev_digestSend) ?_ ?_ | intro _ | dsimp only

theorem rel_execExerciseDone (mismatch : Bool) (s : State) {u : State} (h : execExerciseDone mismatch s = .next u) : Rel 4303421825 s.dev u.dev := by
  refine run_rel (fun _ => ?_) h
  with_reducible repeat' first | assumption | decide | rfl | refine Rel.step (by apply rel_Dev_exerciseEnd) ?_ ?_ | refine Rel.ite ?_ ?_ | intro _ | dsimp only

theorem rel_execExerciseStart (s : State) {u : State} (h : execExerciseStart s = .next u) : Rel 8388609 s.dev u.dev := by
  refine run_rel (fun _ => ?_) h
  with_reducible repeat' first | assumption | decide | rfl | refine Rel.step (by apply rel_Dev_exerciseStart) ?_ ?_ | intro _ | dsimp only

theorem rel_execHoldoffExpire (s : State) {u : State} (h : execHoldoffExpire s = .next u) : Rel 4303421829 s.dev u.dev := by
  refine run_rel (fun _ => ?_) h
  with_reducible repeat' first | assumption | decide | rfl | refine Rel.step (by apply rel_Dev_holdoff) ?_ ?_ | intro _ | dsimp only

theorem rel_execLeaseExpire (s : State) {u : State} (h : execLeaseExpire s = .next u) : Rel 4303421825 s.dev u.dev := by
  refine run_rel (fun _ => ?_) h
  with_reducible repeat' first | assumption | decide | rfl | refine Rel.step (by apply rel_Dev_twinLeaseExpire) ?_ ?_ | intro _ | dsimp only

theorem rel_execLeaseReqRx (msg : List Byte) (s : State) {u : State} (h : execLeaseReqRx msg s = .next u) : Rel 25165829 s.dev u.dev := by
  refine run_rel (fun _ => ?_) h
  with_reducible repeat' first | assumption | decide | rfl | (apply Rel.trans; swap; apply rel_Dev_fabArrive) | refine Rel.step (by apply rel_Dev_leaseReqRx) ?_ ?_ | intro _ | dsimp only

theorem rel_execLeaseReqSend (s : State) {u : State} (h : execLeaseReqSend s = .next u) : Rel 5 s.dev u.dev := by
  refine run_rel (fun _ => ?_) h
  with_reducible repeat' first | assumption | decide | rfl | refine Rel.step (by apply rel_Dev_leaseReqSend) ?_ ?_ | intro _ | dsimp only

theorem rel_execLeaseRx (msg : List Byte) (s : State) {u : State} (h : execLeaseRx msg s = .next u) : Rel 4387832197 s.dev u.dev := by
  refine run_rel (fun _ => ?_) h
  with_reducible repeat' first | assumption | decide | rfl | refine Rel.step (by apply rel_Dev_leaseRx) ?_ ?_ | (apply Rel.trans; swap; apply rel_Dev_fabArrive) | intro _ | dsimp only

theorem rel_execPairRx (msg : List Byte) (s : State) {u : State} (h : execPairRx msg s = .next u) : Rel 4320854437 s.dev u.dev := by
  refine run_rel (fun _ => ?_) h
  with_reducible repeat' first | assumption | decide | rfl | refine Rel.step (by apply rel_Dev_pairRx) ?_ ?_ | (apply Rel.trans; swap; apply rel_Dev_fabArrive) | intro _ | dsimp only

theorem rel_execPairTimeout (s : State) {u : State} (h : execPairTimeout s = .next u) : Rel 4304077221 s.dev u.dev := by
  refine run_rel (fun _ => ?_) h
  with_reducible repeat' first | assumption | decide | rfl | refine Rel.step (by apply rel_Dev_pairTimeout) ?_ ?_ | intro _ | dsimp only

theorem rel_execPeerDigestLoss (s : State) {u : State} (h : execPeerDigestLoss s = .next u) : Rel 4303421829 s.dev u.dev := by
  refine run_rel (fun _ => ?_) h
  with_reducible repeat' first | assumption | decide | rfl | refine Rel.step (by apply rel_Dev_digestLoss) ?_ ?_ | intro _ | dsimp only

theorem rel_execPlannedSwap (s : State) {u : State} (h : execPlannedSwap s = .next u) : Rel 8388613 s.dev u.dev := by
  refine run_rel (fun _ => ?_) h
  with_reducible repeat' first | assumption | decide | rfl | refine Rel.step (by apply rel_Dev_plannedSwap) ?_ ?_ | intro _ | dsimp only

theorem rel_execReleasedRx (msg : List Byte) (s : State) {u : State} (h : execReleasedRx msg s = .next u) : Rel 4387963301 s.dev u.dev := by
  refine run_rel (fun _ => ?_) h
  with_reducible repeat' first | assumption | decide | rfl | refine Rel.step (by apply rel_Dev_releasedRx) ?_ ?_ | (apply Rel.trans; swap; apply rel_Dev_fabArrive) | intro _ | dsimp only

theorem rel_execRevokeRx (msg : List Byte) (s : State) {u : State} (h : execRevokeRx msg s = .next u) : Rel 25165829 s.dev u.dev := by
  refine run_rel (fun _ => ?_) h
  with_reducible repeat' first | assumption | decide | rfl | refine Rel.step (by apply rel_Dev_revokeRx) ?_ ?_ | (apply Rel.trans; swap; apply rel_Dev_fabArrive) | intro _ | dsimp only

theorem rel_execRevokeTimeout (s : State) {u : State} (h : execRevokeTimeout s = .next u) : Rel 8388608 s.dev u.dev := by
  refine run_rel (fun _ => ?_) h
  with_reducible repeat' first | assumption | decide | rfl | refine Rel.step (by apply rel_Dev_revokeTimeout) ?_ ?_ | intro _ | dsimp only

theorem rel_execRevokedRx (msg : List Byte) (s : State) {u : State} (h : execRevokedRx msg s = .next u) : Rel 25165825 s.dev u.dev := by
  refine run_rel (fun _ => ?_) h
  with_reducible repeat' first | assumption | decide | rfl | refine Rel.step (by apply rel_Dev_revokedRx) ?_ ?_ | (apply Rel.trans; swap; apply rel_Dev_fabArrive) | intro _ | dsimp only

theorem rel_execSelfCheckDone (differs : Bool) (s : State) {u : State} (h : execSelfCheckDone differs s = .next u) : Rel 4303421829 s.dev u.dev := by
  refine run_rel (fun _ => ?_) h
  with_reducible repeat' first | assumption | decide | rfl | refine Rel.step (by apply rel_Dev_selfCheck) ?_ ?_ | intro _ | dsimp only

theorem rel_execShadowHoldExpire (tok : Nat) (s : State) {u : State} (h : execShadowHoldExpire tok s = .next u) : Rel 4303880197 s.dev u.dev := by
  refine run_rel (fun _ => ?_) h
  with_reducible repeat' first | assumption | decide | rfl | refine Rel.step (by apply rel_Dev_shadowExpire) ?_ ?_ | intro _ | dsimp only

theorem rel_execSwapRx (msg : List Byte) (s : State) {u : State} (h : execSwapRx msg s = .next u) : Rel 4320330149 s.dev u.dev := by
  refine run_rel (fun _ => ?_) h
  with_reducible repeat' first | assumption | decide | rfl | refine Rel.step (by apply rel_Dev_swapRx) ?_ ?_ | (apply Rel.trans; swap; apply rel_Dev_fabArrive) | intro _ | dsimp only

theorem rel_execTakeover (s : State) {u : State} (h : execTakeover s = .next u) : Rel 4371054981 s.dev u.dev := by
  refine run_rel (fun _ => ?_) h
  with_reducible repeat' first | assumption | decide | rfl | refine Rel.step (by apply rel_Dev_takeover) ?_ ?_ | intro _ | dsimp only

theorem rel_twinExercise (e : AdmEntry) (d : Dev) : AdmRel 8388609 d (twinExercise e d) := by
  unfold twinExercise
  with_reducible repeat' first | assumption | decide | rfl | refine AdmRel.checks ?_ | exact AdmRel.fail | refine AdmRel.done ?_ | refine AdmRel.wait ?_ | refine Rel.step (by apply rel_Dev_exerciseStart) ?_ ?_ | refine AdmRel.ite ?_ ?_ | split | intro _ | dsimp only

theorem rel_execTwinExerciseNow (e : AdmEntry) (s : State) {u : State} (h : execTwinExerciseNow e s = .next u) : Rel 4303552929 s.dev u.dev := by
  refine run_rel (fun _ => ?_) h
  with_reducible repeat' first | assumption | decide | rfl | (apply Rel.trans; swap; apply rel_Dev_admRun) | refine AdmRel.step (by apply rel_twinExercise) ?_ ?_ | intro _ | dsimp only

theorem rel_execTwinPair (e : AdmEntry) (s : State) {u : State} (h : execTwinPair e s = .next u) : Rel 4304077221 s.dev u.dev := by
  refine run_rel (fun _ => ?_) h
  with_reducible repeat' first | assumption | decide | rfl | refine Rel.step (by apply rel_Dev_twinPairRun) ?_ ?_ | intro _ | dsimp only

theorem rel_execTwinRecoveryReset (stream : Nat) (s : State) {u : State} (h : execTwinRecoveryReset stream s = .next u) : Rel 8388608 s.dev u.dev := by
  refine run_rel (fun _ => ?_) h
  with_reducible repeat' first | assumption | decide | rfl | refine Rel.step (by apply rel_Dev_recoveryReset) ?_ ?_ | intro _ | dsimp only

theorem rel_twinStreamSet (e : AdmEntry) (d : Dev) : AdmRel 8388608 d (twinStreamSet e d) := by
  unfold twinStreamSet
  with_reducible repeat' first | assumption | decide | rfl | refine AdmRel.checks ?_ | exact AdmRel.fail | refine AdmRel.done ?_ | refine AdmRel.wait ?_ | refine Rel.step (by apply rel_Dev_setStream) ?_ ?_ | refine AdmRel.ite ?_ ?_ | split | intro _ | dsimp only

theorem rel_execTwinStreamSet (e : AdmEntry) (s : State) {u : State} (h : execTwinStreamSet e s = .next u) : Rel 4303552928 s.dev u.dev := by
  refine run_rel (fun _ => ?_) h
  with_reducible repeat' first | assumption | decide | rfl | refine AdmRel.step (by apply rel_twinStreamSet) ?_ ?_ | (apply Rel.trans; swap; apply rel_Dev_admRun) | intro _ | dsimp only

theorem rel_twinSwap (e : AdmEntry) (d : Dev) : AdmRel 4303421829 d (twinSwap e d) := by
  unfold twinSwap
  with_reducible repeat' first | assumption | decide | rfl | refine AdmRel.checks ?_ | exact AdmRel.fail | refine AdmRel.done ?_ | refine AdmRel.wait ?_ | refine Rel.step (by apply rel_Dev_setTwin) ?_ ?_ | refine Rel.step (by apply rel_Dev_swapStart) ?_ ?_ | refine Rel.step (by apply rel_Dev_release) ?_ ?_ | refine Rel.ite ?_ ?_ | refine AdmRel.ite ?_ ?_ | split | intro _ | dsimp only

theorem rel_execTwinSwap (e : AdmEntry) (s : State) {u : State} (h : execTwinSwap e s = .next u) : Rel 4303552933 s.dev u.dev := by
  refine run_rel (fun _ => ?_) h
  with_reducible repeat' first | assumption | decide | rfl | (apply Rel.trans; swap; apply rel_Dev_admRun) | refine AdmRel.step (by apply rel_twinSwap) ?_ ?_ | intro _ | dsimp only

theorem rel_twinUnpair (e : AdmEntry) (d : Dev) : AdmRel 4304077221 d (twinUnpair e d) := by
  unfold twinUnpair
  with_reducible repeat' first | assumption | decide | rfl | refine AdmRel.elim ?_ (fun _ => ?_) | refine AdmRel.checks ?_ | exact AdmRel.fail | refine AdmRel.done ?_ | refine AdmRel.wait ?_ | refine Rel.elim ?_ (fun _ => ?_) | refine Rel.step (by apply rel_Dev_twinSend) ?_ ?_ | refine Rel.step (by apply rel_Dev_unpaired) ?_ ?_ | refine Rel.step (by apply rel_Dev_admLate) ?_ ?_ | refine Rel.ite ?_ ?_ | refine AdmRel.ite ?_ ?_ | split | intro _ | dsimp only

theorem rel_execTwinUnpair (e : AdmEntry) (s : State) {u : State} (h : execTwinUnpair e s = .next u) : Rel 4304077221 s.dev u.dev := by
  refine run_rel (fun _ => ?_) h
  with_reducible repeat' first | assumption | decide | rfl | (apply Rel.trans; swap; apply rel_Dev_admRun) | refine AdmRel.step (by apply rel_twinUnpair) ?_ ?_ | intro _ | dsimp only

end Sys2Proof.Laws
end

