-- ==== Sys2Proof/Laws/Frames/Fabric.lean ====
section
/-! SUPPORT. What each function of Machine/Fabric.lean may change. -/

set_option linter.unusedTactic false
set_option linter.unreachableTactic false

namespace Sys2Proof.Laws

open Sys2Proof Sys2Proof.Machine

theorem rel_Dev_addrHoldExpire (d : Dev) (blk : Nat) : Rel 16777216 d (Dev.addrHoldExpire d blk) := by
  unfold Dev.addrHoldExpire
  with_reducible repeat' first | assumption | decide | rfl | refine Rel.step (by apply rel_Dev_setFab) ?_ ?_ | split | intro _ | dsimp only

theorem rel_Dev_admLateD2 (d : Dev) (e : AdmEntry) (opc : Nat) (d2 : Dword) : Rel 4295164320 d (Dev.admLateD2 d e opc d2) := by
  unfold Dev.admLateD2
  with_reducible repeat' first | assumption | decide | rfl | refine Rel.step (by apply rel_Dev_admJournal) ?_ ?_ | refine Rel.step (by apply rel_Dev_admFences) ?_ ?_ | refine Rel.step (by apply rel_Dev_admPush) ?_ ?_ | refine Rel.ite ?_ ?_ | simp only [Nat.reduceAnd, Rel.u_taken] | split | intro _ | dsimp only

theorem rel_Dev_endOps (d : Dev) (det : Nat) : Rel 4311941536 d (Dev.endOps d det) := by
  unfold Dev.endOps
  with_reducible repeat' first | assumption | decide | rfl | refine Rel.foldl (fun _ _ => ?_) ?_ | refine Rel.foldl1 (fun _ _ => ?_) ?_ | refine Rel.foldl2 (fun _ _ => ?_) ?_ | refine Rel.elim ?_ (fun _ => ?_) | refine Rel.step (by apply rel_Dev_admLate) ?_ ?_ | refine Rel.step (by apply rel_Dev_setFab) ?_ ?_ | split | intro _ | dsimp only

theorem rel_Dev_newEpoch (d : Dev) (ms : List FabMember) (removed : List FabMember) : Rel 4387963301 d (Dev.newEpoch d ms removed) := by
  unfold Dev.newEpoch
  with_reducible repeat' first | assumption | decide | rfl | refine Rel.step (by apply rel_Dev_setFabState) ?_ ?_ | refine Rel.step (by apply rel_Dev_setFab) ?_ ?_ | refine Rel.step (by apply rel_Dev_fabDown) ?_ ?_ | refine Rel.step (by apply rel_Dev_endOps) ?_ ?_ | refine Rel.step (by apply rel_Dev_twinEpoch) ?_ ?_ | split | intro _ | dsimp only

theorem rel_Dev_rootChange (d : Dev) (join : Bool) (m : FabMember) : Rel 4387963301 d (Dev.rootChange d join m) := by
  unfold Dev.rootChange
  with_reducible repeat' first | assumption | decide | rfl | refine Rel.step (by apply rel_Dev_newEpoch) ?_ ?_ | refine Rel.step (by apply rel_Dev_setFab) ?_ ?_ | refine Rel.ite ?_ ?_ | split | intro _ | dsimp only

theorem rel_Dev_joinAt (d : Dev) (m : FabMember) (msg : Option (List Byte)) : Rel 4387963301 d (Dev.joinAt d m msg) := by
  unfold Dev.joinAt
  with_reducible repeat' first | assumption | decide | rfl | refine Rel.step (by apply rel_Dev_fabRaw) ?_ ?_ | refine Rel.step (by apply rel_Dev_rootChange) ?_ ?_ | refine Rel.step (by apply rel_Dev_fabSend) ?_ ?_ | refine Rel.step (by apply rel_Dev_setFab) ?_ ?_ | refine Rel.ite ?_ ?_ | split | intro _ | dsimp only

theorem rel_Dev_joinSelf (d : Dev) : Rel 4387963301 d (Dev.joinSelf d) := by
  unfold Dev.joinSelf
  with_reducible repeat' first | assumption | decide | rfl | refine Rel.step (by apply rel_Dev_joinAt) ?_ ?_ | refine Rel.step (by apply rel_Dev_setFab) ?_ ?_ | refine Rel.step (by apply rel_Dev_fabUp) ?_ ?_ | refine Rel.ite ?_ ?_ | split | intro _ | dsimp only

theorem rel_Dev_fabLeave (d : Dev) : Rel 4311941541 d (Dev.fabLeave d) := by
  unfold Dev.fabLeave
  with_reducible repeat' first | assumption | decide | rfl | refine Rel.step (by apply rel_Dev_setFabState) ?_ ?_ | refine Rel.step (by apply rel_Dev_setFab) ?_ ?_ | refine Rel.step (by apply rel_Dev_endOps) ?_ ?_ | refine Rel.step (by apply rel_Dev_fabUp) ?_ ?_ | refine Rel.ite ?_ ?_ | split | intro _ | dsimp only

theorem rel_Dev_fabStart (d : Dev) : Rel 4387963301 d (Dev.fabStart d) := by
  unfold Dev.fabStart
  with_reducible repeat' first | assumption | decide | rfl | refine Rel.step (by apply rel_Dev_joinSelf) ?_ ?_ | refine Rel.step (by apply rel_Dev_setFabState) ?_ ?_ | refine Rel.step (by apply rel_Dev_setFab) ?_ ?_ | refine Rel.ite ?_ ?_ | split | intro _ | dsimp only

theorem rel_Dev_assignRx (d : Dev) (m : List Byte) : Rel 4387963301 d (Dev.assignRx d m) := by
  unfold Dev.assignRx
  with_reducible repeat' first | assumption | decide | rfl | refine Rel.elim ?_ (fun _ => ?_) | refine Rel.step (by apply rel_Dev_joinSelf) ?_ ?_ | refine Rel.step (by apply rel_Dev_setFab) ?_ ?_ | refine Rel.step (by apply rel_Dev_fabLeave) ?_ ?_ | refine Rel.step (by apply rel_Dev_fabStart) ?_ ?_ | refine Rel.ite ?_ ?_ | split | intro _ | dsimp only

theorem rel_Dev_assignSend (d : Dev) : Rel 4387963301 d (Dev.assignSend d) := by
  unfold Dev.assignSend
  with_reducible repeat' first | assumption | decide | rfl | refine Rel.foldl (fun _ _ => ?_) ?_ | refine Rel.foldl1 (fun _ _ => ?_) ?_ | refine Rel.foldl2 (fun _ _ => ?_) ?_ | refine Rel.step (by apply rel_Dev_joinSelf) ?_ ?_ | refine Rel.step (by apply rel_Dev_setFab) ?_ ?_ | refine Rel.step (by apply rel_Dev_fabBus) ?_ ?_ | refine Rel.step (by apply rel_Dev_fabStart) ?_ ?_ | refine Rel.ite ?_ ?_ | split | intro _ | dsimp only

theorem rel_Dev_delRun (d : Dev) (id : Nat) : Rel 16777216 d (Dev.delRun d id) := by
  unfold Dev.delRun
  with_reducible repeat' first | assumption | decide | rfl | refine Rel.step (by apply rel_Dev_setFab) ?_ ?_ | split | intro _ | dsimp only

theorem rel_Dev_setRun (d : Dev) (x : FabRun) : Rel 16777216 d (Dev.setRun d x) := by
  unfold Dev.setRun
  with_reducible repeat' first | assumption | decide | rfl | refine Rel.step (by apply rel_Dev_setFab) ?_ ?_ | refine Rel.ite ?_ ?_ | split | intro _ | dsimp only

theorem rel_Dev_opEvent (d : Dev) (id : Nat) (op : Nat) : Rel 4295033217 d (Dev.opEvent d id op) := by
  unfold Dev.opEvent
  with_reducible repeat' first | assumption | decide | rfl | refine Rel.step (by apply rel_Dev_fabEvent) ?_ ?_ | split | intro _ | dsimp only

theorem rel_Dev_restartCores (d : Dev) : Rel 4299718669 d (Dev.restartCores d) := by
  unfold Dev.restartCores
  with_reducible repeat' first | assumption | decide | rfl | refine Rel.foldl (fun _ _ => ?_) ?_ | refine Rel.foldl1 (fun _ _ => ?_) ?_ | refine Rel.foldl2 (fun _ _ => ?_) ?_ | refine Rel.step (by apply rel_Dev_beginStart) ?_ ?_ | split | intro _ | dsimp only

theorem rel_Dev_dropLearned (d : Dev) : Rel 64 d (Dev.dropLearned d) := by
  unfold Dev.dropLearned
  with_reducible repeat' first | assumption | decide | rfl | refine Rel.step (by apply rel_Dev_tuePost) ?_ ?_ | split | intro _ | dsimp only

theorem rel_Dev_fabReset (d : Dev) (id : Nat) (cmd : Option AdmEntry) : Rel 4560248303 d (Dev.fabReset d id cmd) := by
  unfold Dev.fabReset
  with_reducible repeat' first | assumption | decide | rfl | refine Rel.foldl (fun _ _ => ?_) ?_ | refine Rel.foldl1 (fun _ _ => ?_) ?_ | refine Rel.foldl2 (fun _ _ => ?_) ?_ | refine Rel.step (by apply rel_Dev_restartCores) ?_ ?_ | refine Rel.step (by apply rel_Dev_setFabState) ?_ ?_ | refine Rel.step (by apply rel_Dev_twinReset) ?_ ?_ | refine Rel.step (by apply rel_Dev_setFab) ?_ ?_ | refine Rel.step (by apply rel_Dev_tenReset) ?_ ?_ | refine Rel.step (by apply rel_Dev_delRun) ?_ ?_ | refine Rel.step (by apply rel_Dev_dropLearned) ?_ ?_ | refine Rel.step (by apply rel_Dev_endOps) ?_ ?_ | refine Rel.step (by apply rel_Dev_opEvent) ?_ ?_ | refine Rel.ite ?_ ?_ | split | intro _ | dsimp only

theorem rel_Dev_snapSets (d : Dev) (x : FabRun) : Rel 1572864 d (Dev.snapSets d x).1 := by
  unfold Dev.snapSets
  with_reducible repeat' first | assumption | decide | rfl | refine Rel.foldl (fun _ _ => ?_) ?_ | refine Rel.foldl1 (fun _ _ => ?_) ?_ | refine Rel.foldl2 (fun _ _ => ?_) ?_ | refine Rel.step (by apply rel_Dev_setRset) ?_ ?_ | refine Rel.step (by apply rel_Dev_setNetPort) ?_ ?_ | refine Rel.ite ?_ ?_ | split | intro _ | dsimp only
theorem rel_Dev_snapSets' {d : Dev} {x : FabRun} {p0 : Dev} {p1 : FabRun} (h : Dev.snapSets d x = (p0, p1)) : Rel 1572864 d p0 := by
  have k := rel_Dev_snapSets d x
  rw [h] at k
  exact k

theorem rel_Dev_released (d : Dev) (x : FabRun) (t : Nat) : Rel 4313514400 d (Dev.released d x t) := by
  unfold Dev.released
  with_reducible repeat' first | assumption | decide | rfl | refine Rel.elim ?_ (fun _ => ?_) | refine Rel.step (by apply rel_Dev_admLate) ?_ ?_ | refine Rel.step (by apply rel_Dev_snapSets) ?_ ?_ | refine Rel.step (by apply rel_Dev_snapSets'; assumption) ?_ ?_ | refine Rel.step (by apply rel_Dev_delRun) ?_ ?_ | refine Rel.step (by apply rel_Dev_setRun) ?_ ?_ | refine Rel.ite ?_ ?_ | split | intro _ | dsimp only

theorem rel_Dev_opCheck (d : Dev) (id : Nat) : Rel 4313514405 d (Dev.opCheck d id) := by
  unfold Dev.opCheck
  with_reducible repeat' first | assumption | decide | rfl | refine Rel.step (by apply rel_Dev_released) ?_ ?_ | refine Rel.step (by apply rel_Dev_fabDown) ?_ ?_ | refine Rel.step (by apply rel_Dev_setRun) ?_ ?_ | refine Rel.step (by apply rel_Dev_fabUp) ?_ ?_ | refine Rel.ite ?_ ?_ | split | intro _ | dsimp only

theorem rel_Dev_bcastHere (d : Dev) (op : Nat) (id : Nat) (payload : List Byte) : Rel 4561296879 d (Dev.bcastHere d op id payload) := by
  unfold Dev.bcastHere
  with_reducible repeat' first | assumption | decide | rfl | refine Rel.step (by apply rel_Dev_admLate) ?_ ?_ | refine Rel.step (by apply rel_Dev_setFab) ?_ ?_ | refine Rel.step (by apply rel_Dev_fabDown) ?_ ?_ | refine Rel.step (by apply rel_Dev_delRun) ?_ ?_ | refine Rel.step (by apply rel_Dev_setRun) ?_ ?_ | refine Rel.step (by apply rel_Dev_opEvent) ?_ ?_ | refine Rel.step (by apply rel_Dev_fabReset) ?_ ?_ | refine Rel.step (by apply rel_Dev_opCheck) ?_ ?_ | refine Rel.ite ?_ ?_ | split | intro _ | dsimp only

theorem rel_Dev_bcastRx (d : Dev) (m : List Byte) : Rel 4561296879 d (Dev.bcastRx d m) := by
  unfold Dev.bcastRx
  with_reducible repeat' first | assumption | decide | rfl | refine Rel.elim ?_ (fun _ => ?_) | refine Rel.step (by apply rel_Dev_fabRaw) ?_ ?_ | refine Rel.step (by apply rel_Dev_bcastHere) ?_ ?_ | refine Rel.ite ?_ ?_ | split | intro _ | dsimp only

theorem rel_Dev_peerLoss (d : Dev) (uid : Nat) : Rel 16777216 d (Dev.peerLoss d uid) := by
  unfold Dev.peerLoss
  with_reducible repeat' first | assumption | decide | rfl | refine Rel.step (by apply rel_Dev_setFab) ?_ ?_ | split | intro _ | dsimp only

theorem rel_Dev_beaconLoss (d : Dev) (uid : Nat) : Rel 4311810433 d (Dev.beaconLoss d uid) := by
  unfold Dev.beaconLoss
  with_reducible repeat' first | assumption | decide | rfl | refine Rel.step (by apply rel_Dev_twinEvent) ?_ ?_ | refine Rel.step (by apply rel_Dev_peerLoss) ?_ ?_ | refine Rel.ite ?_ ?_ | split | intro _ | dsimp only

theorem rel_Dev_beaconRx (d : Dev) (m : List Byte) : Rel 16777216 d (Dev.beaconRx d m) := by
  unfold Dev.beaconRx
  with_reducible repeat' first | assumption | decide | rfl | refine Rel.elim ?_ (fun _ => ?_) | refine Rel.step (by apply rel_Dev_setFab) ?_ ?_ | refine Rel.ite ?_ ?_ | split | intro _ | dsimp only

theorem rel_Dev_beaconSend (d : Dev) : Rel 17301505 d (Dev.beaconSend d) := by
  unfold Dev.beaconSend
  with_reducible repeat' first | assumption | decide | rfl | refine Rel.step (by apply rel_Dev_setFab) ?_ ?_ | refine Rel.step (by apply rel_Dev_fabBus) ?_ ?_ | refine Rel.ite ?_ ?_ | split | intro _ | dsimp only

theorem rel_Dev_decide_ (d : Dev) : Rel 4387963301 d (Dev.decide_ d) := by
  unfold Dev.decide_
  with_reducible repeat' first | assumption | decide | rfl | refine Rel.elim ?_ (fun _ => ?_) | refine Rel.step (by apply rel_Dev_setFabState) ?_ ?_ | refine Rel.step (by apply rel_Dev_newEpoch) ?_ ?_ | refine Rel.step (by apply rel_Dev_setFab) ?_ ?_ | refine Rel.step (by apply rel_Dev_fabDown) ?_ ?_ | refine Rel.step (by apply rel_Dev_fabUp) ?_ ?_ | refine Rel.ite ?_ ?_ | split | intro _ | dsimp only

theorem rel_Dev_fabCut (d : Dev) : Rel 4387963301 d (Dev.fabCut d) := by
  unfold Dev.fabCut
  with_reducible repeat' first | assumption | decide | rfl | refine Rel.foldl (fun _ _ => ?_) ?_ | refine Rel.foldl1 (fun _ _ => ?_) ?_ | refine Rel.foldl2 (fun _ _ => ?_) ?_ | refine Rel.step (by apply rel_Dev_setBit) ?_ ?_ | refine Rel.step (by apply rel_Dev_setFabState) ?_ ?_ | refine Rel.step (by apply rel_Dev_fabSend) ?_ ?_ | refine Rel.step (by apply rel_Dev_setFab) ?_ ?_ | refine Rel.step (by apply rel_Dev_decide_) ?_ ?_ | refine Rel.step (by apply rel_Dev_endOps) ?_ ?_ | refine Rel.step (by apply rel_Dev_count) ?_ ?_ | refine Rel.ite ?_ ?_ | split | intro _ | dsimp only

theorem rel_Dev_countRx (d : Dev) (m : List Byte) : Rel 4387963301 d (Dev.countRx d m) := by
  unfold Dev.countRx
  with_reducible repeat' first | assumption | decide | rfl | refine Rel.step (by apply rel_Dev_setFabState) ?_ ?_ | refine Rel.step (by apply rel_Dev_setFab) ?_ ?_ | refine Rel.step (by apply rel_Dev_fabDown) ?_ ?_ | refine Rel.step (by apply rel_Dev_decide_) ?_ ?_ | refine Rel.step (by apply rel_Dev_fabCut) ?_ ?_ | refine Rel.ite ?_ ?_ | split | intro _ | dsimp only

theorem rel_Dev_downRx (d : Dev) (m : List Byte) : Rel 4313514405 d (Dev.downRx d m) := by
  unfold Dev.downRx
  with_reducible repeat' first | assumption | decide | rfl | refine Rel.step (by apply rel_Dev_released) ?_ ?_ | refine Rel.step (by apply rel_Dev_fabDown) ?_ ?_ | refine Rel.ite ?_ ?_ | split | intro _ | dsimp only

theorem rel_Dev_election (d : Dev) : Rel 16777217 d (Dev.election d) := by
  unfold Dev.election
  with_reducible repeat' first | assumption | decide | rfl | refine Rel.foldl (fun _ _ => ?_) ?_ | refine Rel.foldl1 (fun _ _ => ?_) ?_ | refine Rel.foldl2 (fun _ _ => ?_) ?_ | refine Rel.step (by apply rel_Dev_setFab) ?_ ?_ | refine Rel.step (by apply rel_Dev_count) ?_ ?_ | refine Rel.ite ?_ ?_ | split | intro _ | dsimp only

theorem rel_Dev_epochRx (d : Dev) (m : List Byte) (granted : Option Nat) : Rel 4387963301 d (Dev.epochRx d m granted) := by
  unfold Dev.epochRx
  with_reducible repeat' first | assumption | decide | rfl | refine Rel.foldl (fun _ _ => ?_) ?_ | refine Rel.foldl1 (fun _ _ => ?_) ?_ | refine Rel.foldl2 (fun _ _ => ?_) ?_ | refine Rel.elim ?_ (fun _ => ?_) | refine Rel.step (by apply rel_Dev_joinSelf) ?_ ?_ | refine Rel.step (by apply rel_Dev_setFabState) ?_ ?_ | refine Rel.step (by apply rel_Dev_setFab) ?_ ?_ | refine Rel.step (by apply rel_Dev_fabDown) ?_ ?_ | refine Rel.step (by apply rel_Dev_endOps) ?_ ?_ | refine Rel.step (by apply rel_Dev_twinEpoch) ?_ ?_ | refine Rel.ite ?_ ?_ | split | intro _ | dsimp only

theorem rel_Dev_fabCfg (d : Dev) (pf : Nat) (v : Word) : Rel 4311941541 d (Dev.fabCfg d pf v) := by
  unfold Dev.fabCfg
  with_reducible repeat' first | assumption | decide | rfl | refine Rel.step (by apply rel_Dev_setReg) ?_ ?_ | refine Rel.step (by apply rel_Dev_setBit) ?_ ?_ | refine Rel.step (by apply rel_Dev_setFab) ?_ ?_ | (apply Rel.trans; swap; apply rel_Dev_bar0Write) | refine Rel.step (by apply rel_Dev_fabLeave) ?_ ?_ | refine Rel.ite ?_ ?_ | split | intro _ | dsimp only

theorem rel_Dev_upRx (d : Dev) (m : List Byte) : Rel 4313514405 d (Dev.upRx d m) := by
  unfold Dev.upRx
  with_reducible repeat' first | assumption | decide | rfl | refine Rel.step (by apply rel_Dev_setRun) ?_ ?_ | refine Rel.step (by apply rel_Dev_opCheck) ?_ ?_ | refine Rel.ite ?_ ?_ | split | intro _ | dsimp only

theorem rel_Dev_wakeRx (d : Dev) (m : List Byte) : Rel 2147483649 d (Dev.wakeRx d m) := by
  unfold Dev.wakeRx
  with_reducible repeat' first | assumption | decide | rfl | refine Rel.step (by apply rel_Dev_wakeFrom) ?_ ?_ | refine Rel.ite ?_ ?_ | split | intro _ | dsimp only

theorem rel_Dev_routeRx (d : Dev) (m : List Byte) : Rel 16777280 d (Dev.routeRx d m) := by
  unfold Dev.routeRx
  with_reducible repeat' first | assumption | decide | rfl | refine Rel.foldl (fun _ _ => ?_) ?_ | refine Rel.foldl1 (fun _ _ => ?_) ?_ | refine Rel.foldl2 (fun _ _ => ?_) ?_ | refine Rel.step (by apply rel_Dev_setFab) ?_ ?_ | refine Rel.step (by apply rel_Dev_tuePost) ?_ ?_ | refine Rel.ite ?_ ?_ | split | intro _ | dsimp only

theorem rel_Dev_helloRx (d : Dev) (m : List Byte) : Rel 16777216 d (Dev.helloRx d m) := by
  unfold Dev.helloRx
  with_reducible repeat' first | assumption | decide | rfl | refine Rel.foldl (fun _ _ => ?_) ?_ | refine Rel.foldl1 (fun _ _ => ?_) ?_ | refine Rel.foldl2 (fun _ _ => ?_) ?_ | refine Rel.step (by apply rel_Dev_setNbr) ?_ ?_ | split | intro _ | dsimp only

theorem rel_Dev_leaveRx (d : Dev) (m : List Byte) : Rel 4387963301 d (Dev.leaveRx d m) := by
  unfold Dev.leaveRx
  with_reducible repeat' first | assumption | decide | rfl | refine Rel.elim ?_ (fun _ => ?_) | refine Rel.step (by apply rel_Dev_fabRaw) ?_ ?_ | refine Rel.step (by apply rel_Dev_rootChange) ?_ ?_ | refine Rel.ite ?_ ?_ | split | intro _ | dsimp only

theorem rel_Dev_heartbeatRx (d : Dev) (m : List Byte) : Rel 4387963365 d (Dev.heartbeatRx d m) := by
  unfold Dev.heartbeatRx
  with_reducible repeat' first | assumption | decide | rfl | refine Rel.foldl (fun _ _ => ?_) ?_ | refine Rel.foldl1 (fun _ _ => ?_) ?_ | refine Rel.foldl2 (fun _ _ => ?_) ?_ | refine Rel.step (by apply rel_Dev_setBit) ?_ ?_ | refine Rel.step (by apply rel_Dev_joinSelf) ?_ ?_ | refine Rel.step (by apply rel_Dev_setFabState) ?_ ?_ | refine Rel.step (by apply rel_Dev_fabSend) ?_ ?_ | refine Rel.step (by apply rel_Dev_setFab) ?_ ?_ | refine Rel.step (by apply rel_Dev_decide_) ?_ ?_ | refine Rel.step (by apply rel_Dev_dropLearned) ?_ ?_ | refine Rel.ite ?_ ?_ | split | intro _ | dsimp only

theorem rel_Dev_joinRx (d : Dev) (m : List Byte) : Rel 4387963301 d (Dev.joinRx d m) := by
  unfold Dev.joinRx
  with_reducible repeat' first | assumption | decide | rfl | refine Rel.elim ?_ (fun _ => ?_) | refine Rel.step (by apply rel_Dev_fabRaw) ?_ ?_ | refine Rel.step (by apply rel_Dev_joinAt) ?_ ?_ | refine Rel.ite ?_ ?_ | split | intro _ | dsimp only

theorem rel_Dev_fabMessage (d : Dev) (m : List Byte) : Rel 6708780527 d (Dev.fabMessage d m) := by
  unfold Dev.fabMessage
  with_reducible repeat' first | assumption | decide | rfl | refine Rel.step (by apply rel_Dev_epochRx) ?_ ?_ | refine Rel.step (by apply rel_Dev_upRx) ?_ ?_ | refine Rel.step (by apply rel_Dev_wakeRx) ?_ ?_ | refine Rel.step (by apply rel_Dev_twinMessage) ?_ ?_ | refine Rel.step (by apply rel_Dev_assignRx) ?_ ?_ | refine Rel.step (by apply rel_Dev_routeRx) ?_ ?_ | refine Rel.step (by apply rel_Dev_downRx) ?_ ?_ | refine Rel.step (by apply rel_Dev_helloRx) ?_ ?_ | refine Rel.step (by apply rel_Dev_leaveRx) ?_ ?_ | refine Rel.step (by apply rel_Dev_bcastRx) ?_ ?_ | refine Rel.step (by apply rel_Dev_countRx) ?_ ?_ | refine Rel.step (by apply rel_Dev_beaconRx) ?_ ?_ | refine Rel.step (by apply rel_Dev_heartbeatRx) ?_ ?_ | refine Rel.step (by apply rel_Dev_joinRx) ?_ ?_ | split | intro _ | dsimp only

theorem rel_fabOp (e : AdmEntry) (d : Dev) : AdmRel 4561296879 d (fabOp e d) := by
  unfold fabOp
  with_reducible repeat' first | assumption | decide | rfl | refine AdmRel.elim ?_ (fun _ => ?_) | refine AdmRel.checks ?_ | exact AdmRel.fail | refine AdmRel.done ?_ | refine AdmRel.wait ?_ | refine Rel.elim ?_ (fun _ => ?_) | refine Rel.step (by apply rel_Dev_setFab) ?_ ?_ | refine Rel.step (by apply rel_Dev_setRun) ?_ ?_ | refine Rel.step (by apply rel_Dev_fabUp) ?_ ?_ | refine Rel.step (by apply rel_Dev_count) ?_ ?_ | refine Rel.step (by apply rel_Dev_opCheck) ?_ ?_ | refine Rel.step (by apply rel_Dev_bcastHere) ?_ ?_ | refine Rel.ite ?_ ?_ | refine AdmRel.ite ?_ ?_ | split | intro _ | dsimp only

theorem rel_Dev_fabOpRun (d : Dev) (e : AdmEntry) : Rel 4561296879 d (Dev.fabOpRun d e) := by
  unfold Dev.fabOpRun
  have k0 := rel_fabOp e d
  split
  · exact Rel.refl ..
  split <;> rename_i h <;> rw [h] at k0
  · exact Rel.step (rel_Dev_admComplete ..) (by decide) (Rel.mono k0 (by decide))
  · exact Rel.mono (rel_Dev_admComplete ..) (by decide)
  · dsimp only
    split
    · rename_i h2
      have k := rel_fabOp e (if (d.ring.taken.any fun a => decide (a.e = e)) = true then d
        else { d with ring := { d.ring with taken := d.ring.taken ++ [{ e := e, priv := d.privNow e.pf }] } })
      rw [h2] at k
      refine Rel.trans ?_ (Rel.mono k (by decide))
      exact Rel.ite (Rel.refl _ _) ((Rel.u_taken (by decide)).2 (Rel.refl _ _))
    · exact Rel.mono k0 (by decide)

theorem rel_Dev_fabRx (d : Dev) (bus : Bool) (m : List Byte) : Rel 6708780527 d (Dev.fabRx d bus m) := by
  unfold Dev.fabRx
  with_reducible repeat' first | assumption | decide | rfl | refine Rel.step (by apply rel_Dev_fabMessage) ?_ ?_ | refine Rel.step (by apply rel_Dev_fabTake) ?_ ?_ | refine Rel.step (by apply rel_Dev_fabTake'; assumption) ?_ ?_ | split | intro _ | dsimp only

theorem rel_Dev_holdExpire (d : Dev) : Rel 4387963301 d (Dev.holdExpire d) := by
  unfold Dev.holdExpire
  with_reducible repeat' first | assumption | decide | rfl | refine Rel.step (by apply rel_Dev_newEpoch) ?_ ?_ | refine Rel.step (by apply rel_Dev_setFab) ?_ ?_ | refine Rel.ite ?_ ?_ | split | intro _ | dsimp only

theorem rel_Dev_fabTick (d : Dev) : Rel 4387963301 d (Dev.fabTick d) := by
  unfold Dev.fabTick
  with_reducible repeat' first | assumption | decide | rfl | refine Rel.elim ?_ (fun _ => ?_) | refine Rel.step (by apply rel_Dev_joinSelf) ?_ ?_ | refine Rel.step (by apply rel_Dev_admLate) ?_ ?_ | refine Rel.step (by apply rel_Dev_setFab) ?_ ?_ | refine Rel.step (by apply rel_Dev_holdExpire) ?_ ?_ | refine Rel.ite ?_ ?_ | split | intro _ | dsimp only

theorem rel_Dev_heartbeatLoss (d : Dev) (a : Nat) : Rel 4387963301 d (Dev.heartbeatLoss d a) := by
  unfold Dev.heartbeatLoss
  with_reducible repeat' first | assumption | decide | rfl | refine Rel.step (by apply rel_Dev_setFab) ?_ ?_ | refine Rel.step (by apply rel_Dev_fabCut) ?_ ?_ | refine Rel.ite ?_ ?_ | split | intro _ | dsimp only

theorem rel_Dev_heartbeatSend (d : Dev) : Rel 16777221 d (Dev.heartbeatSend d) := by
  unfold Dev.heartbeatSend
  with_reducible repeat' first | assumption | decide | rfl | refine Rel.foldl (fun _ _ => ?_) ?_ | refine Rel.foldl1 (fun _ _ => ?_) ?_ | refine Rel.foldl2 (fun _ _ => ?_) ?_ | refine Rel.step (by apply rel_Dev_fabSend) ?_ ?_ | refine Rel.step (by apply rel_Dev_setFab) ?_ ?_ | refine Rel.ite ?_ ?_ | split | intro _ | dsimp only

theorem rel_Dev_helloSend (d : Dev) : Rel 4 d (Dev.helloSend d) := by
  unfold Dev.helloSend
  with_reducible repeat' first | assumption | decide | rfl | refine Rel.foldl (fun _ _ => ?_) ?_ | refine Rel.foldl1 (fun _ _ => ?_) ?_ | refine Rel.foldl2 (fun _ _ => ?_) ?_ | refine Rel.step (by apply rel_Dev_fabDatagram) ?_ ?_ | refine Rel.ite ?_ ?_ | split | intro _ | dsimp only

theorem rel_Dev_joinRetry (d : Dev) : Rel 4387963301 d (Dev.joinRetry d) := by
  unfold Dev.joinRetry
  with_reducible repeat' first | assumption | decide | rfl | refine Rel.step (by apply rel_Dev_joinSelf) ?_ ?_ | refine Rel.step (by apply rel_Dev_fabEvent) ?_ ?_ | refine Rel.ite ?_ ?_ | split | intro _ | dsimp only

theorem rel_Dev_nbrDown (d : Dev) (n : Nat) : Rel 16777216 d (Dev.nbrDown d n) := by
  unfold Dev.nbrDown
  with_reducible repeat' first | assumption | decide | rfl | refine Rel.step (by apply rel_Dev_setFab) ?_ ?_ | refine Rel.step (by apply rel_Dev_setNbr) ?_ ?_ | refine Rel.ite ?_ ?_ | split | intro _ | dsimp only

theorem rel_Dev_opTimeout (d : Dev) (id : Nat) : Rel 4311941536 d (Dev.opTimeout d id) := by
  unfold Dev.opTimeout
  with_reducible repeat' first | assumption | decide | rfl | refine Rel.step (by apply rel_Dev_admLate) ?_ ?_ | refine Rel.step (by apply rel_Dev_setFab) ?_ ?_ | refine Rel.step (by apply rel_Dev_delRun) ?_ ?_ | split | intro _ | dsimp only

theorem rel_Dev_routeAdvertise (d : Dev) : Rel 4 d (Dev.routeAdvertise d) := by
  unfold Dev.routeAdvertise
  with_reducible repeat' first | assumption | decide | rfl | refine Rel.foldl (fun _ _ => ?_) ?_ | refine Rel.foldl1 (fun _ _ => ?_) ?_ | refine Rel.foldl2 (fun _ _ => ?_) ?_ | refine Rel.step (by apply rel_Dev_fabDatagram) ?_ ?_ | refine Rel.ite ?_ ?_ | split | intro _ | dsimp only

theorem rel_Dev_sequester (d : Dev) : Rel 4311810433 d (Dev.sequester d) := by
  unfold Dev.sequester
  with_reducible repeat' first | assumption | decide | rfl | refine Rel.step (by apply rel_Dev_setFabState) ?_ ?_ | refine Rel.ite ?_ ?_ | split | intro _ | dsimp only

theorem rel_Dev_snapCut (d : Dev) (id : Nat) : Rel 18350080 d (Dev.snapCut d id) := by
  unfold Dev.snapCut
  with_reducible repeat' first | assumption | decide | rfl | refine Rel.step (by apply rel_Dev_snapSets) ?_ ?_ | refine Rel.step (by apply rel_Dev_snapSets'; assumption) ?_ ?_ | refine Rel.step (by apply rel_Dev_setRun) ?_ ?_ | refine Rel.ite ?_ ?_ | split | intro _ | dsimp only

theorem rel_Dev_snapEnd (d : Dev) (id : Nat) : Rel 4311941537 d (Dev.snapEnd d id) := by
  unfold Dev.snapEnd
  with_reducible repeat' first | assumption | decide | rfl | refine Rel.step (by apply rel_Dev_admLateD2) ?_ ?_ | refine Rel.step (by apply rel_Dev_setFab) ?_ ?_ | refine Rel.step (by apply rel_Dev_delRun) ?_ ?_ | refine Rel.step (by apply rel_Dev_opEvent) ?_ ?_ | refine Rel.ite ?_ ?_ | split | intro _ | dsimp only

theorem rel_execAddrHoldExpire (block : Nat) (s : State) {u : State} (h : execAddrHoldExpire block s = .next u) : Rel 16777216 s.dev u.dev := by
  refine run_rel (fun _ => ?_) h
  with_reducible repeat' first | assumption | decide | rfl | refine Rel.step (by apply rel_Dev_addrHoldExpire) ?_ ?_ | intro _ | dsimp only

theorem rel_execAssignRx (msg : List Byte) (s : State) {u : State} (h : execAssignRx msg s = .next u) : Rel 4387963301 s.dev u.dev := by
  refine run_rel (fun _ => ?_) h
  with_reducible repeat' first | assumption | decide | rfl | refine Rel.step (by apply rel_Dev_assignRx) ?_ ?_ | (apply Rel.trans; swap; apply rel_Dev_fabArrive) | intro _ | dsimp only

theorem rel_execAssignSend (s : State) {u : State} (h : execAssignSend s = .next u) : Rel 4387963301 s.dev u.dev := by
  refine run_rel (fun _ => ?_) h
  with_reducible repeat' first | assumption | decide | rfl | refine Rel.step (by apply rel_Dev_assignSend) ?_ ?_ | intro _ | dsimp only

theorem rel_execBcastRx (msg : List Byte) (s : State) {u : State} (h : execBcastRx msg s = .next u) : Rel 4561296879 s.dev u.dev := by
  refine run_rel (fun _ => ?_) h
  with_reducible repeat' first | assumption | decide | rfl | refine Rel.step (by apply rel_Dev_bcastRx) ?_ ?_ | (apply Rel.trans; swap; apply rel_Dev_fabArrive) | intro _ | dsimp only

theorem rel_execBeaconRx (msg : List Byte) (s : State) {u : State} (h : execBeaconRx msg s = .next u) : Rel 16777217 s.dev u.dev := by
  refine runAon_rel (fun _ => ?_) h
  with_reducible repeat' first | assumption | decide | rfl | refine Rel.step (by apply rel_Dev_beaconRx) ?_ ?_ | (apply Rel.trans; swap; apply rel_Dev_fabArrive) | intro _ | dsimp only

theorem rel_execBeaconSend (s : State) {u : State} (h : execBeaconSend s = .next u) : Rel 17301505 s.dev u.dev := by
  refine runAon_rel (fun _ => ?_) h
  with_reducible repeat' first | assumption | decide | rfl | refine Rel.step (by apply rel_Dev_beaconSend) ?_ ?_ | intro _ | dsimp only

theorem rel_execCoordinatorElection (s : State) {u : State} (h : execCoordinatorElection s = .next u) : Rel 16777217 s.dev u.dev := by
  refine run_rel (fun _ => ?_) h
  with_reducible repeat' first | assumption | decide | rfl | refine Rel.step (by apply rel_Dev_election) ?_ ?_ | intro _ | dsimp only

theorem rel_execCountRx (msg : List Byte) (s : State) {u : State} (h : execCountRx msg s = .next u) : Rel 4387963301 s.dev u.dev := by
  refine run_rel (fun _ => ?_) h
  with_reducible repeat' first | assumption | decide | rfl | refine Rel.step (by apply rel_Dev_countRx) ?_ ?_ | (apply Rel.trans; swap; apply rel_Dev_fabArrive) | intro _ | dsimp only

theorem rel_execDownRx (msg : List Byte) (s : State) {u : State} (h : execDownRx msg s = .next u) : Rel 4313514405 s.dev u.dev := by
  refine run_rel (fun _ => ?_) h
  with_reducible repeat' first | assumption | decide | rfl | refine Rel.step (by apply rel_Dev_downRx) ?_ ?_ | (apply Rel.trans; swap; apply rel_Dev_fabArrive) | intro _ | dsimp only

theorem rel_execEpochRx (msg : List Byte) (granted : Option Nat) (s : State) {u : State} (h : execEpochRx msg granted s = .next u) : Rel 4387963301 s.dev u.dev := by
  refine run_rel (fun _ => ?_) h
  with_reducible repeat' first | assumption | decide | rfl | refine Rel.step (by apply rel_Dev_epochRx) ?_ ?_ | (apply Rel.trans; swap; apply rel_Dev_fabArrive) | intro _ | dsimp only

theorem rel_fabBcastRead (e : AdmEntry) (d : Dev) : AdmRel 0 d (fabBcastRead e d) := by
  unfold fabBcastRead
  with_reducible repeat' first | assumption | decide | rfl | refine AdmRel.elim ?_ (fun _ => ?_) | refine AdmRel.checks ?_ | exact AdmRel.fail | refine AdmRel.done ?_ | refine AdmRel.wait ?_ | refine Rel.elim ?_ (fun _ => ?_) | refine AdmRel.ite ?_ ?_ | split | intro _ | dsimp only

theorem rel_execFabBcastRead (e : AdmEntry) (s : State) {u : State} (h : execFabBcastRead e s = .next u) : Rel 4295164320 s.dev u.dev := by
  refine run_rel (fun _ => ?_) h
  with_reducible repeat' first | assumption | decide | rfl | (apply Rel.trans; swap; apply rel_Dev_admRun) | refine AdmRel.step (by apply rel_fabBcastRead) ?_ ?_ | intro _ | dsimp only

theorem rel_execFabCfgWrite (pf : Nat) (value : Word) (s : State) {u : State} (h : execFabCfgWrite pf value s = .next u) : Rel 4311941541 s.dev u.dev := by
  refine run_rel (fun _ => ?_) h
  with_reducible repeat' first | assumption | decide | rfl | refine Rel.step (by apply rel_Dev_fabCfg) ?_ ?_ | intro _ | dsimp only

theorem rel_fabMembersRead (e : AdmEntry) (d : Dev) : AdmRel 0 d (fabMembersRead e d) := by
  unfold fabMembersRead
  with_reducible repeat' first | assumption | decide | rfl | refine AdmRel.checks ?_ | exact AdmRel.fail | refine AdmRel.done ?_ | refine AdmRel.wait ?_ | refine AdmRel.ite ?_ ?_ | split | intro _ | dsimp only

theorem rel_execFabMembersRead (e : AdmEntry) (s : State) {u : State} (h : execFabMembersRead e s = .next u) : Rel 4295164320 s.dev u.dev := by
  refine run_rel (fun _ => ?_) h
  with_reducible repeat' first | assumption | decide | rfl | refine AdmRel.step (by apply rel_fabMembersRead) ?_ ?_ | (apply Rel.trans; swap; apply rel_Dev_admRun) | intro _ | dsimp only

theorem rel_fabNbrSet (e : AdmEntry) (d : Dev) : AdmRel 16777216 d (fabNbrSet e d) := by
  unfold fabNbrSet
  with_reducible repeat' first | assumption | decide | rfl | refine AdmRel.checks ?_ | exact AdmRel.fail | refine AdmRel.done ?_ | refine AdmRel.wait ?_ | refine Rel.step (by apply rel_Dev_setNbr) ?_ ?_ | refine AdmRel.ite ?_ ?_ | split | intro _ | dsimp only

theorem rel_execFabNbrSet (e : AdmEntry) (s : State) {u : State} (h : execFabNbrSet e s = .next u) : Rel 4311941536 s.dev u.dev := by
  refine run_rel (fun _ => ?_) h
  with_reducible repeat' first | assumption | decide | rfl | refine AdmRel.step (by apply rel_fabNbrSet) ?_ ?_ | (apply Rel.trans; swap; apply rel_Dev_admRun) | intro _ | dsimp only

theorem rel_execFabOpBarrier (e : AdmEntry) (s : State) {u : State} (h : execFabOpBarrier e s = .next u) : Rel 4561296879 s.dev u.dev := by
  refine run_rel (fun _ => ?_) h
  with_reducible repeat' first | assumption | decide | rfl | refine Rel.step (by apply rel_Dev_fabOpRun) ?_ ?_ | intro _ | dsimp only

theorem rel_execFabOpBroadcast (e : AdmEntry) (s : State) {u : State} (h : execFabOpBroadcast e s = .next u) : Rel 4561296879 s.dev u.dev := by
  refine run_rel (fun _ => ?_) h
  with_reducible repeat' first | assumption | decide | rfl | refine Rel.step (by apply rel_Dev_fabOpRun) ?_ ?_ | intro _ | dsimp only

theorem rel_execFabOpReset (e : AdmEntry) (s : State) {u : State} (h : execFabOpReset e s = .next u) : Rel 4561296879 s.dev u.dev := by
  refine run_rel (fun _ => ?_) h
  with_reducible repeat' first | assumption | decide | rfl | refine Rel.step (by apply rel_Dev_fabOpRun) ?_ ?_ | intro _ | dsimp only

theorem rel_execFabOpSnapshot (e : AdmEntry) (s : State) {u : State} (h : execFabOpSnapshot e s = .next u) : Rel 4561296879 s.dev u.dev := by
  refine run_rel (fun _ => ?_) h
  with_reducible repeat' first | assumption | decide | rfl | refine Rel.step (by apply rel_Dev_fabOpRun) ?_ ?_ | intro _ | dsimp only

theorem rel_execFabOpTimeout (opId : Nat) (s : State) {u : State} (h : execFabOpTimeout opId s = .next u) : Rel 4311941536 s.dev u.dev := by
  refine run_rel (fun _ => ?_) h
  with_reducible repeat' first | assumption | decide | rfl | refine Rel.step (by apply rel_Dev_opTimeout) ?_ ?_ | intro _ | dsimp only

theorem rel_fabRouteRead (e : AdmEntry) (d : Dev) : AdmRel 0 d (fabRouteRead e d) := by
  unfold fabRouteRead
  with_reducible repeat' first | assumption | decide | rfl | refine AdmRel.checks ?_ | exact AdmRel.fail | refine AdmRel.done ?_ | refine AdmRel.wait ?_ | refine AdmRel.ite ?_ ?_ | split | intro _ | dsimp only

theorem rel_execFabRouteRead (e : AdmEntry) (s : State) {u : State} (h : execFabRouteRead e s = .next u) : Rel 4295164320 s.dev u.dev := by
  refine run_rel (fun _ => ?_) h
  with_reducible repeat' first | assumption | decide | rfl | (apply Rel.trans; swap; apply rel_Dev_admRun) | refine AdmRel.step (by apply rel_fabRouteRead) ?_ ?_ | intro _ | dsimp only

theorem rel_fabRouteSet (e : AdmEntry) (d : Dev) : AdmRel 64 d (fabRouteSet e d) := by
  unfold fabRouteSet
  with_reducible repeat' first | assumption | decide | rfl | refine AdmRel.checks ?_ | exact AdmRel.fail | refine AdmRel.done ?_ | refine AdmRel.wait ?_ | refine Rel.step (by apply rel_Dev_tuePost) ?_ ?_ | refine AdmRel.ite ?_ ?_ | split | intro _ | dsimp only

theorem rel_execFabRouteSet (e : AdmEntry) (s : State) {u : State} (h : execFabRouteSet e s = .next u) : Rel 4295164384 s.dev u.dev := by
  refine run_rel (fun _ => ?_) h
  with_reducible repeat' first | assumption | decide | rfl | (apply Rel.trans; swap; apply rel_Dev_admRun) | refine AdmRel.step (by apply rel_fabRouteSet) ?_ ?_ | intro _ | dsimp only

theorem rel_fabSnapRead (e : AdmEntry) (d : Dev) : AdmRel 0 d (fabSnapRead e d) := by
  unfold fabSnapRead
  with_reducible repeat' first | assumption | decide | rfl | refine AdmRel.elim ?_ (fun _ => ?_) | refine AdmRel.checks ?_ | exact AdmRel.fail | refine AdmRel.done ?_ | refine AdmRel.wait ?_ | refine Rel.elim ?_ (fun _ => ?_) | refine AdmRel.ite ?_ ?_ | split | intro _ | dsimp only

theorem rel_execFabSnapRead (e : AdmEntry) (s : State) {u : State} (h : execFabSnapRead e s = .next u) : Rel 4295164320 s.dev u.dev := by
  refine run_rel (fun _ => ?_) h
  with_reducible repeat' first | assumption | decide | rfl | (apply Rel.trans; swap; apply rel_Dev_admRun) | refine AdmRel.step (by apply rel_fabSnapRead) ?_ ?_ | intro _ | dsimp only

theorem rel_execHeartbeatLoss (addr : Nat) (s : State) {u : State} (h : execHeartbeatLoss addr s = .next u) : Rel 4387963301 s.dev u.dev := by
  refine run_rel (fun _ => ?_) h
  with_reducible repeat' first | assumption | decide | rfl | refine Rel.step (by apply rel_Dev_heartbeatLoss) ?_ ?_ | intro _ | dsimp only

theorem rel_execHeartbeatRx (msg : List Byte) (s : State) {u : State} (h : execHeartbeatRx msg s = .next u) : Rel 4387963365 s.dev u.dev := by
  refine run_rel (fun _ => ?_) h
  with_reducible repeat' first | assumption | decide | rfl | refine Rel.step (by apply rel_Dev_heartbeatRx) ?_ ?_ | (apply Rel.trans; swap; apply rel_Dev_fabArrive) | intro _ | dsimp only

theorem rel_execHeartbeatSend (s : State) {u : State} (h : execHeartbeatSend s = .next u) : Rel 16777221 s.dev u.dev := by
  refine run_rel (fun _ => ?_) h
  with_reducible repeat' first | assumption | decide | rfl | refine Rel.step (by apply rel_Dev_heartbeatSend) ?_ ?_ | intro _ | dsimp only

theorem rel_execHelloRx (msg : List Byte) (s : State) {u : State} (h : execHelloRx msg s = .next u) : Rel 16777217 s.dev u.dev := by
  refine run_rel (fun _ => ?_) h
  with_reducible repeat' first | assumption | decide | rfl | refine Rel.step (by apply rel_Dev_helloRx) ?_ ?_ | (apply Rel.trans; swap; apply rel_Dev_fabArrive) | intro _ | dsimp only

theorem rel_execHelloSend (s : State) {u : State} (h : execHelloSend s = .next u) : Rel 4 s.dev u.dev := by
  refine run_rel (fun _ => ?_) h
  with_reducible repeat' first | assumption | decide | rfl | refine Rel.step (by apply rel_Dev_helloSend) ?_ ?_ | intro _ | dsimp only

theorem rel_execJoinRetry (s : State) {u : State} (h : execJoinRetry s = .next u) : Rel 4387963301 s.dev u.dev := by
  refine run_rel (fun _ => ?_) h
  with_reducible repeat' first | assumption | decide | rfl | refine Rel.step (by apply rel_Dev_joinRetry) ?_ ?_ | intro _ | dsimp only

theorem rel_execJoinRx (msg : List Byte) (s : State) {u : State} (h : execJoinRx msg s = .next u) : Rel 4387963301 s.dev u.dev := by
  refine run_rel (fun _ => ?_) h
  with_reducible repeat' first | assumption | decide | rfl | refine Rel.step (by apply rel_Dev_joinRx) ?_ ?_ | (apply Rel.trans; swap; apply rel_Dev_fabArrive) | intro _ | dsimp only

theorem rel_execLeaveRx (msg : List Byte) (s : State) {u : State} (h : execLeaveRx msg s = .next u) : Rel 4387963301 s.dev u.dev := by
  refine run_rel (fun _ => ?_) h
  with_reducible repeat' first | assumption | decide | rfl | refine Rel.step (by apply rel_Dev_leaveRx) ?_ ?_ | (apply Rel.trans; swap; apply rel_Dev_fabArrive) | intro _ | dsimp only

theorem rel_execMembershipHoldExpire (s : State) {u : State} (h : execMembershipHoldExpire s = .next u) : Rel 4387963301 s.dev u.dev := by
  refine run_rel (fun _ => ?_) h
  with_reducible repeat' first | assumption | decide | rfl | refine Rel.step (by apply rel_Dev_holdExpire) ?_ ?_ | intro _ | dsimp only

theorem rel_execNeighbourDown (slot : Nat) (s : State) {u : State} (h : execNeighbourDown slot s = .next u) : Rel 16777216 s.dev u.dev := by
  refine run_rel (fun _ => ?_) h
  with_reducible repeat' first | assumption | decide | rfl | refine Rel.step (by apply rel_Dev_nbrDown) ?_ ?_ | intro _ | dsimp only

theorem rel_execPeerBeaconLoss (uid : Nat) (s : State) {u : State} (h : execPeerBeaconLoss uid s = .next u) : Rel 4311810433 s.dev u.dev := by
  refine run_rel (fun _ => ?_) h
  with_reducible repeat' first | assumption | decide | rfl | refine Rel.step (by apply rel_Dev_beaconLoss) ?_ ?_ | intro _ | dsimp only

theorem rel_execRouteAdvertise (s : State) {u : State} (h : execRouteAdvertise s = .next u) : Rel 4 s.dev u.dev := by
  refine run_rel (fun _ => ?_) h
  with_reducible repeat' first | assumption | decide | rfl | refine Rel.step (by apply rel_Dev_routeAdvertise) ?_ ?_ | intro _ | dsimp only

theorem rel_execRouteRx (msg : List Byte) (s : State) {u : State} (h : execRouteRx msg s = .next u) : Rel 16777281 s.dev u.dev := by
  refine run_rel (fun _ => ?_) h
  with_reducible repeat' first | assumption | decide | rfl | refine Rel.step (by apply rel_Dev_routeRx) ?_ ?_ | (apply Rel.trans; swap; apply rel_Dev_fabArrive) | intro _ | dsimp only

theorem rel_execSequesterTimeout (s : State) {u : State} (h : execSequesterTimeout s = .next u) : Rel 4311810433 s.dev u.dev := by
  refine run_rel (fun _ => ?_) h
  with_reducible repeat' first | assumption | decide | rfl | refine Rel.step (by apply rel_Dev_sequester) ?_ ?_ | intro _ | dsimp only

theorem rel_execSnapshotCut (opId : Nat) (s : State) {u : State} (h : execSnapshotCut opId s = .next u) : Rel 18350080 s.dev u.dev := by
  refine run_rel (fun _ => ?_) h
  with_reducible repeat' first | assumption | decide | rfl | refine Rel.step (by apply rel_Dev_snapCut) ?_ ?_ | intro _ | dsimp only

theorem rel_execSnapshotEnd (opId : Nat) (s : State) {u : State} (h : execSnapshotEnd opId s = .next u) : Rel 4311941537 s.dev u.dev := by
  refine run_rel (fun _ => ?_) h
  with_reducible repeat' first | assumption | decide | rfl | refine Rel.step (by apply rel_Dev_snapEnd) ?_ ?_ | intro _ | dsimp only

theorem rel_execUpRx (msg : List Byte) (s : State) {u : State} (h : execUpRx msg s = .next u) : Rel 4313514405 s.dev u.dev := by
  refine run_rel (fun _ => ?_) h
  with_reducible repeat' first | assumption | decide | rfl | refine Rel.step (by apply rel_Dev_upRx) ?_ ?_ | (apply Rel.trans; swap; apply rel_Dev_fabArrive) | intro _ | dsimp only

theorem rel_execWakeRx (msg : List Byte) (s : State) {u : State} (h : execWakeRx msg s = .next u) : Rel 2164260865 s.dev u.dev := by
  refine runAon_rel (fun _ => ?_) h
  with_reducible repeat' first | assumption | decide | rfl | refine Rel.step (by apply rel_Dev_wakeRx) ?_ ?_ | (apply Rel.trans; swap; apply rel_Dev_fabArrive) | intro _ | dsimp only

end Sys2Proof.Laws
end

