-- ==== Sys2Proof/Laws/Frames/Forward.lean ====
section
/-! SUPPORT. What each function of Machine/Forward.lean may change. -/

set_option linter.unusedTactic false
set_option linter.unreachableTactic false

namespace Sys2Proof.Laws

open Sys2Proof Sys2Proof.Machine

theorem rel_Dev_actionPoison (d : Dev) (i : Nat) : Rel 9 d (Dev.actionPoison d i).2 := by
  unfold Dev.actionPoison
  with_reducible repeat' first | assumption | decide | rfl | refine Rel.step (by apply rel_Dev_fwdExc) ?_ ?_ | refine Rel.step (by apply rel_Dev_fwdExc'; assumption) ?_ ?_ | refine Rel.ite ?_ ?_ | split | intro _ | dsimp only
theorem rel_Dev_actionPoison' {d : Dev} {i : Nat} {p0 : Nat} {p1 : Dev} (h : Dev.actionPoison d i = (p0, p1)) : Rel 9 d p1 := by
  have k := rel_Dev_actionPoison d i
  rw [h] at k
  exact k

theorem rel_Dev_commitDone (d : Dev) (tok : Nat) (ok : Bool) (rewrite : Option Nat) : Rel 4295524356 d (Dev.commitDone d tok ok rewrite) := by
  unfold Dev.commitDone
  with_reducible repeat' first | assumption | decide | rfl | refine Rel.step (by apply rel_Dev_dropPkt) ?_ ?_ | refine Rel.step (by apply rel_Dev_setPkt) ?_ ?_ | refine Rel.ite ?_ ?_ | split | intro _ | dsimp only

theorem rel_Dev_insertPair (d : Dev) (c : Commit) : Rel 4298178947 d (Dev.insertPair d c).2 := by
  unfold Dev.insertPair
  with_reducible repeat' first | assumption | decide | rfl | refine Rel.step (by apply rel_Dev_insFail) ?_ ?_ | refine Rel.step (by apply rel_Dev_casLine) ?_ ?_ | refine Rel.step (by apply rel_Dev_putLine) ?_ ?_ | refine Rel.ite ?_ ?_ | split | intro _ | dsimp only
theorem rel_Dev_insertPair' {d : Dev} {c : Commit} {p0 : Bool} {p1 : Dev} (h : Dev.insertPair d c = (p0, p1)) : Rel 4298178947 d p1 := by
  have k := rel_Dev_insertPair d c
  rw [h] at k
  exact k

theorem rel_Dev_replacePair (d : Dev) (c : Commit) (a : Nat) : Rel 4298178947 d (Dev.replacePair d c a).2 := by
  unfold Dev.replacePair
  with_reducible repeat' first | assumption | decide | rfl | refine Rel.step (by apply rel_Dev_insertPair) ?_ ?_ | refine Rel.step (by apply rel_Dev_insertPair'; assumption) ?_ ?_ | refine Rel.step (by apply rel_Dev_putLine) ?_ ?_ | refine Rel.ite ?_ ?_ | split | intro _ | dsimp only
theorem rel_Dev_replacePair' {d : Dev} {c : Commit} {a : Nat} {p0 : Bool} {p1 : Dev} (h : Dev.replacePair d c a = (p0, p1)) : Rel 4298178947 d p1 := by
  have k := rel_Dev_replacePair d c a
  rw [h] at k
  exact k

theorem rel_Dev_ctCommit (d : Dev) : Rel 4298736007 d (Dev.ctCommit d) := by
  unfold Dev.ctCommit
  with_reducible repeat' first | assumption | decide | rfl | refine Rel.step (by apply rel_Dev_replacePair) ?_ ?_ | refine Rel.step (by apply rel_Dev_replacePair'; assumption) ?_ ?_ | refine Rel.step (by apply rel_Dev_commitDone) ?_ ?_ | refine Rel.step (by apply rel_Dev_insertPair) ?_ ?_ | refine Rel.step (by apply rel_Dev_insertPair'; assumption) ?_ ?_ | refine Rel.ite ?_ ?_ | simp only [Nat.reduceAnd, Rel.u_fwd] | split | intro _ | dsimp only

theorem rel_Dev_ctTouch (d : Dev) (p : Packet) (a : Nat) : Rel 3145731 d (Dev.ctTouch d p a) := by
  unfold Dev.ctTouch
  with_reducible repeat' first | assumption | decide | rfl | refine Rel.step (by apply rel_Dev_hitLine) ?_ ?_ | refine Rel.step (by apply rel_Dev_putLine) ?_ ?_ | refine Rel.ite ?_ ?_ | simp only [Nat.reduceAnd, Rel.u_fwd] | split | intro _ | dsimp only

theorem rel_Dev_flowHit (d : Dev) (p : Packet) (f : Fwd) (a : Nat) : StepRel 2 d (Dev.flowHit d p f a) := by
  unfold Dev.flowHit
  with_reducible repeat' first | assumption | decide | rfl | refine StepRel.next ?_ | refine StepRel.jump ?_ | refine StepRel.done ?_ | refine StepRel.ite ?_ ?_ | refine Rel.step (by apply rel_Dev_ctrAdd) ?_ ?_ | refine Rel.step (by apply rel_Dev_hitLine) ?_ ?_ | refine Rel.ite ?_ ?_ | split | intro _ | dsimp only

theorem rel_Dev_fwdDrop (d : Dev) (tok : Nat) (reg : Nat) : StepRel 4295524357 d (Dev.fwdDrop d tok reg) := by
  unfold Dev.fwdDrop
  with_reducible repeat' first | assumption | decide | rfl | refine StepRel.next ?_ | refine StepRel.jump ?_ | refine StepRel.done ?_ | refine StepRel.ite ?_ ?_ | refine Rel.step (by apply rel_Dev_dropPkt) ?_ ?_ | refine Rel.step (by apply rel_Dev_count) ?_ ?_ | split | intro _ | dsimp only

theorem rel_Dev_fwdSetTen (d : Dev) (tok : Nat) (p : Packet) (f : Fwd) (h : Dword) (t : Nat) : StepRel 4295524357 d (Dev.fwdSetTen d tok p f h t) := by
  unfold Dev.fwdSetTen
  with_reducible repeat' first | assumption | decide | rfl | refine StepRel.next ?_ | refine StepRel.jump ?_ | refine StepRel.done ?_ | refine StepRel.ite ?_ ?_ | refine StepRel.step (by apply rel_Dev_fwdDrop) ?_ ?_ | refine Rel.step (by apply StepRel.use1; assumption; apply rel_Dev_fwdDrop) ?_ ?_ | refine Rel.step (by apply StepRel.use2; assumption; apply rel_Dev_fwdDrop) ?_ ?_ | refine Rel.step (by apply StepRel.use3; assumption; apply rel_Dev_fwdDrop) ?_ ?_ | refine Rel.ite ?_ ?_ | split | intro _ | dsimp only

theorem rel_Dev_fwdFate {w : Nat} {d : Dev} {tok : Nat} {p : Packet} {fate : Nat} {k : Unit → FStep} (hm : 4295524365 &&& w = 4295524365) (hf : ∀ u, StepRel w d (k u)) : StepRel w d (Dev.fwdFate d tok p fate k) := by
  unfold Dev.fwdFate
  with_reducible repeat' first | assumption | decide | rfl | refine StepRel.next ?_ | refine StepRel.jump ?_ | refine StepRel.done ?_ | refine StepRel.ite ?_ ?_ | apply hf | refine Rel.step2 hm (by apply rel_Dev_dropPkt) ?_ ?_ | refine Rel.step2 hm (by apply rel_Dev_toExcRing) ?_ ?_ | refine Rel.step2 hm (by apply rel_Dev_setPkt) ?_ ?_ | refine Rel.ite ?_ ?_ | split | intro _ | dsimp only

theorem rel_Dev_fwdTerm (d : Dev) (tok : Nat) (p : Packet) (f : Fwd) (miss : Nat) : StepRel 4295524367 d (Dev.fwdTerm d tok p f miss) := by
  unfold Dev.fwdTerm
  with_reducible repeat' first | assumption | decide | rfl | refine StepRel.next ?_ | refine StepRel.jump ?_ | refine StepRel.done ?_ | refine StepRel.ite ?_ ?_ | refine Rel.step (by apply rel_Dev_lookup) ?_ ?_ | refine Rel.step (by apply rel_Dev_lookup'; assumption) ?_ ?_ | refine StepRel.step (by apply rel_Dev_flowHit) ?_ ?_ | refine Rel.step (by apply StepRel.use1; assumption; apply rel_Dev_flowHit) ?_ ?_ | refine Rel.step (by apply StepRel.use2; assumption; apply rel_Dev_flowHit) ?_ ?_ | refine Rel.step (by apply StepRel.use3; assumption; apply rel_Dev_flowHit) ?_ ?_ | (apply StepRel.after; swap; apply rel_Dev_fwdFate) | split | intro _ | dsimp only

theorem rel_Dev_fwdCrypt (d : Dev) (tok : Nat) (p : Packet) (f : Fwd) (param : Nat) : StepRel 4295524357 d (Dev.fwdCrypt d tok p f param) := by
  unfold Dev.fwdCrypt
  with_reducible repeat' first | assumption | decide | rfl | refine StepRel.next ?_ | refine StepRel.jump ?_ | refine StepRel.done ?_ | refine StepRel.ite ?_ ?_ | refine Rel.elim ?_ (fun _ => ?_) | refine StepRel.step (by apply rel_Dev_fwdDrop) ?_ ?_ | refine Rel.step (by apply StepRel.use1; assumption; apply rel_Dev_fwdDrop) ?_ ?_ | refine Rel.step (by apply StepRel.use2; assumption; apply rel_Dev_fwdDrop) ?_ ?_ | refine Rel.step (by apply StepRel.use3; assumption; apply rel_Dev_fwdDrop) ?_ ?_ | refine Rel.step (by apply rel_Dev_setPkt) ?_ ?_ | refine Rel.ite ?_ ?_ | split | intro _ | dsimp only

theorem rel_Dev_fwdData {w : Nat} {d : Dev} {tok : Nat} {p : Packet} {data : List Byte} {k : Dev → Packet → FStep} (hm : 4295524356 &&& w = 4295524356) (hf : ∀ d p, StepRel w d (k d p)) : StepRel w d (Dev.fwdData d tok p data k) := by
  unfold Dev.fwdData
  with_reducible repeat' first | assumption | decide | rfl | refine StepRel.next ?_ | refine StepRel.jump ?_ | refine StepRel.done ?_ | refine StepRel.ite ?_ ?_ | (apply StepRel.after; swap; apply hf) | refine Rel.step2 hm (by apply rel_Dev_dropPkt) ?_ ?_ | refine OptRel.step (by apply rel_Dev_resizePkt) ?_ ?_ | refine Rel.step2 hm (by apply OptRel.use; assumption; apply rel_Dev_resizePkt) ?_ ?_ | refine Rel.step2 hm (by apply rel_Dev_setPkt) ?_ ?_ | refine Rel.ite ?_ ?_ | split | intro _ | dsimp only

theorem rel_Dev_pushVlan {w : Nat} {d : Dev} {tok : Nat} {p : Packet} {tpid tci : Nat} {k : Dev → Packet → FStep} (hm : 4295524356 &&& w = 4295524356)
    (hf : ∀ d p, StepRel w d (k d p)) : StepRel w d (d.pushVlan tok p tpid tci k) := by
  unfold Dev.pushVlan
  have ha : 4295524356 &&& w = 4295524356 := by
    have h := congrArg (fun x => 4295524356 &&& x) hm
    rw [← Nat.and_assoc] at h
    exact h
  exact rel_Dev_fwdData ha (fun _ _ => hf _ _)

theorem rel_Dev_fwdOut (d : Dev) (tok : Nat) (p : Packet) (f : Fwd) (port : Nat) : StepRel 4371021837 d (Dev.fwdOut d tok p f port) := by
  unfold Dev.fwdOut
  with_reducible repeat' first | assumption | decide | rfl | refine StepRel.next ?_ | refine StepRel.jump ?_ | refine StepRel.done ?_ | refine StepRel.ite ?_ ?_ | refine Rel.elim ?_ (fun _ => ?_) | refine Rel.step (by apply rel_Dev_toExcRing) ?_ ?_ | refine StepRel.step (by apply rel_Dev_fwdDrop) ?_ ?_ | refine Rel.step (by apply StepRel.use1; assumption; apply rel_Dev_fwdDrop) ?_ ?_ | refine Rel.step (by apply StepRel.use2; assumption; apply rel_Dev_fwdDrop) ?_ ?_ | refine Rel.step (by apply StepRel.use3; assumption; apply rel_Dev_fwdDrop) ?_ ?_ | refine Rel.step (by apply rel_Dev_copyPkt; assumption) ?_ ?_ | refine Rel.step (by apply rel_Dev_toPort) ?_ ?_ | refine Rel.ite ?_ ?_ | split | intro _ | dsimp only

theorem rel_Dev_fwdDest (d : Dev) (tok : Nat) (p : Packet) (f : Fwd) (h : Dword) (dest : Nat) : StepRel 4371021837 d (Dev.fwdDest d tok p f h dest) := by
  unfold Dev.fwdDest
  with_reducible repeat' first | assumption | decide | rfl | refine StepRel.next ?_ | refine StepRel.jump ?_ | refine StepRel.done ?_ | refine StepRel.ite ?_ ?_ | (apply StepRel.after; swap; apply rel_Dev_pushVlan) | refine Rel.step (by apply rel_Dev_toRing) ?_ ?_ | refine StepRel.step (by apply rel_Dev_fwdDrop) ?_ ?_ | refine Rel.step (by apply StepRel.use1; assumption; apply rel_Dev_fwdDrop) ?_ ?_ | refine Rel.step (by apply StepRel.use2; assumption; apply rel_Dev_fwdDrop) ?_ ?_ | refine Rel.step (by apply StepRel.use3; assumption; apply rel_Dev_fwdDrop) ?_ ?_ | refine StepRel.step (by apply rel_Dev_fwdOut) ?_ ?_ | refine Rel.step (by apply StepRel.use1; assumption; apply rel_Dev_fwdOut) ?_ ?_ | refine Rel.step (by apply StepRel.use2; assumption; apply rel_Dev_fwdOut) ?_ ?_ | refine Rel.step (by apply StepRel.use3; assumption; apply rel_Dev_fwdOut) ?_ ?_ | refine Rel.ite ?_ ?_ | split | intro _ | dsimp only

theorem rel_Dev_fwdBridge (d : Dev) (tok : Nat) (p : Packet) (f : Fwd) (h : Dword) (bridge : Nat) (inDest : Nat) : StepRel 4373118991 d (Dev.fwdBridge d tok p f h bridge inDest) := by
  unfold Dev.fwdBridge
  with_reducible repeat' first | assumption | decide | rfl | refine StepRel.next ?_ | refine StepRel.jump ?_ | refine StepRel.done ?_ | refine StepRel.ite ?_ ?_ | refine Rel.step (by apply rel_Dev_learn) ?_ ?_ | refine Rel.step (by apply rel_Dev_lookup) ?_ ?_ | refine Rel.step (by apply rel_Dev_lookup'; assumption) ?_ ?_ | refine StepRel.step (by apply rel_Dev_fwdDest) ?_ ?_ | refine Rel.step (by apply StepRel.use1; assumption; apply rel_Dev_fwdDest) ?_ ?_ | refine Rel.step (by apply StepRel.use2; assumption; apply rel_Dev_fwdDest) ?_ ?_ | refine Rel.step (by apply StepRel.use3; assumption; apply rel_Dev_fwdDest) ?_ ?_ | refine Rel.step (by apply rel_Dev_hitLine) ?_ ?_ | refine StepRel.step (by apply rel_Dev_fwdDrop) ?_ ?_ | refine Rel.step (by apply StepRel.use1; assumption; apply rel_Dev_fwdDrop) ?_ ?_ | refine Rel.step (by apply StepRel.use2; assumption; apply rel_Dev_fwdDrop) ?_ ?_ | refine Rel.step (by apply StepRel.use3; assumption; apply rel_Dev_fwdDrop) ?_ ?_ | (apply StepRel.after; swap; apply rel_Dev_fwdFate) | refine Rel.ite ?_ ?_ | split | intro _ | dsimp only

theorem rel_Dev_fwdMirror (d : Dev) (tok : Nat) (p : Packet) (f : Fwd) (h : Dword) (dest : Nat) : StepRel 4371021837 d (Dev.fwdMirror d tok p f h dest) := by
  unfold Dev.fwdMirror
  with_reducible repeat' first | assumption | decide | rfl | refine StepRel.next ?_ | refine StepRel.jump ?_ | refine StepRel.done ?_ | refine StepRel.ite ?_ ?_ | refine StepRel.step (by apply rel_Dev_fwdDest) ?_ ?_ | refine Rel.step (by apply StepRel.use1; assumption; apply rel_Dev_fwdDest) ?_ ?_ | refine Rel.step (by apply StepRel.use2; assumption; apply rel_Dev_fwdDest) ?_ ?_ | refine Rel.step (by apply StepRel.use3; assumption; apply rel_Dev_fwdDest) ?_ ?_ | refine StepRel.step (by apply rel_Dev_fwdDrop) ?_ ?_ | refine Rel.step (by apply StepRel.use1; assumption; apply rel_Dev_fwdDrop) ?_ ?_ | refine Rel.step (by apply StepRel.use2; assumption; apply rel_Dev_fwdDrop) ?_ ?_ | refine Rel.step (by apply StepRel.use3; assumption; apply rel_Dev_fwdDrop) ?_ ?_ | refine Rel.step (by apply rel_Dev_copyPkt; assumption) ?_ ?_ | refine Rel.step (by apply rel_Dev_setPkt) ?_ ?_ | refine Rel.ite ?_ ?_ | split | intro _ | dsimp only

theorem rel_Dev_fwdCount (d : Dev) (tok : Nat) (p : Packet) (f : Fwd) (n : Nat) : StepRel 4295524359 d (Dev.fwdCount d tok p f n) := by
  unfold Dev.fwdCount
  with_reducible repeat' first | assumption | decide | rfl | refine StepRel.next ?_ | refine StepRel.jump ?_ | refine StepRel.done ?_ | refine StepRel.ite ?_ ?_ | refine Rel.step (by apply rel_Dev_ctrAdd) ?_ ?_ | refine StepRel.step (by apply rel_Dev_fwdDrop) ?_ ?_ | refine Rel.step (by apply StepRel.use1; assumption; apply rel_Dev_fwdDrop) ?_ ?_ | refine Rel.step (by apply StepRel.use2; assumption; apply rel_Dev_fwdDrop) ?_ ?_ | refine Rel.step (by apply StepRel.use3; assumption; apply rel_Dev_fwdDrop) ?_ ?_ | refine Rel.ite ?_ ?_ | split | intro _ | dsimp only

theorem rel_Dev_fwdRecirc (d : Dev) (tok : Nat) (p : Packet) (f : Fwd) : StepRel 1048580 d (Dev.fwdRecirc d tok p f) := by
  unfold Dev.fwdRecirc
  with_reducible repeat' first | assumption | decide | rfl | refine StepRel.next ?_ | refine StepRel.jump ?_ | refine StepRel.done ?_ | refine StepRel.ite ?_ ?_ | refine Rel.getD ?_ ?_ | exact OptRel.none | refine OptRel.some ?_ | refine OptRel.ite ?_ ?_ | refine OptRel.mapD (fun _ => ?_) ?_ | refine OptRel.map (fun _ => ?_) | refine OptRel.bindD (fun _ => ?_) ?_ | refine OptRel.bind (fun _ => ?_) | refine OptRel.step (by apply rel_Dev_toReentry) ?_ ?_ | refine Rel.step (by apply OptRel.use; assumption; apply rel_Dev_toReentry) ?_ ?_ | refine Rel.step (by apply rel_Dev_setPkt) ?_ ?_ | split | intro _ | dsimp only

theorem rel_Dev_fwdTtl (d : Dev) (tok : Nat) (p : Packet) (f : Fwd) (param : Nat) : StepRel 4295524357 d (Dev.fwdTtl d tok p f param) := by
  unfold Dev.fwdTtl
  with_reducible repeat' first | assumption | decide | rfl | refine StepRel.next ?_ | refine StepRel.jump ?_ | refine StepRel.done ?_ | refine StepRel.ite ?_ ?_ | refine StepRel.step (by apply rel_Dev_fwdDrop) ?_ ?_ | refine Rel.step (by apply StepRel.use1; assumption; apply rel_Dev_fwdDrop) ?_ ?_ | refine Rel.step (by apply StepRel.use2; assumption; apply rel_Dev_fwdDrop) ?_ ?_ | refine Rel.step (by apply StepRel.use3; assumption; apply rel_Dev_fwdDrop) ?_ ?_ | refine Rel.ite ?_ ?_ | split | intro _ | dsimp only

theorem rel_Dev_fwdVlan (d : Dev) (tok : Nat) (p : Packet) (f : Fwd) (param : Nat) : StepRel 4295524356 d (Dev.fwdVlan d tok p f param) := by
  unfold Dev.fwdVlan
  with_reducible repeat' first | assumption | decide | rfl | refine StepRel.next ?_ | refine StepRel.jump ?_ | refine StepRel.done ?_ | refine StepRel.ite ?_ ?_ | (apply StepRel.after; swap; apply rel_Dev_pushVlan) | (apply StepRel.after; swap; apply rel_Dev_fwdData) | refine Rel.ite ?_ ?_ | split | intro _ | dsimp only

theorem rel_Dev_fwdNat (d : Dev) (tok : Nat) (p : Packet) (f : Fwd) (pool : Nat) (dst : Bool) : StepRel 4295524357 d (Dev.fwdNat d tok p f pool dst) := by
  unfold Dev.fwdNat
  with_reducible repeat' first | assumption | decide | rfl | refine StepRel.next ?_ | refine StepRel.jump ?_ | refine StepRel.done ?_ | refine StepRel.ite ?_ ?_ | refine Rel.elim ?_ (fun _ => ?_) | refine StepRel.step (by apply rel_Dev_fwdDrop) ?_ ?_ | refine Rel.step (by apply StepRel.use1; assumption; apply rel_Dev_fwdDrop) ?_ ?_ | refine Rel.step (by apply StepRel.use2; assumption; apply rel_Dev_fwdDrop) ?_ ?_ | refine Rel.step (by apply StepRel.use3; assumption; apply rel_Dev_fwdDrop) ?_ ?_ | refine Rel.ite ?_ ?_ | split | intro _ | dsimp only

theorem rel_Dev_fwdDecap (d : Dev) (tok : Nat) (p : Packet) (f : Fwd) : StepRel 4295524357 d (Dev.fwdDecap d tok p f) := by
  unfold Dev.fwdDecap
  with_reducible repeat' first | assumption | decide | rfl | refine StepRel.next ?_ | refine StepRel.jump ?_ | refine StepRel.done ?_ | refine StepRel.ite ?_ ?_ | (apply StepRel.after; swap; apply rel_Dev_fwdData) | refine StepRel.step (by apply rel_Dev_fwdDrop) ?_ ?_ | refine Rel.step (by apply StepRel.use1; assumption; apply rel_Dev_fwdDrop) ?_ ?_ | refine Rel.step (by apply StepRel.use2; assumption; apply rel_Dev_fwdDrop) ?_ ?_ | refine Rel.step (by apply StepRel.use3; assumption; apply rel_Dev_fwdDrop) ?_ ?_ | refine Rel.ite ?_ ?_ | split | intro _ | dsimp only

theorem rel_Dev_fwdEncap (d : Dev) (tok : Nat) (p : Packet) (f : Fwd) (i : Nat) : StepRel 4295524357 d (Dev.fwdEncap d tok p f i) := by
  unfold Dev.fwdEncap
  with_reducible repeat' first | assumption | decide | rfl | refine StepRel.next ?_ | refine StepRel.jump ?_ | refine StepRel.done ?_ | refine StepRel.ite ?_ ?_ | (apply StepRel.after; swap; apply rel_Dev_fwdData) | refine StepRel.step (by apply rel_Dev_fwdDrop) ?_ ?_ | refine Rel.step (by apply StepRel.use1; assumption; apply rel_Dev_fwdDrop) ?_ ?_ | refine Rel.step (by apply StepRel.use2; assumption; apply rel_Dev_fwdDrop) ?_ ?_ | refine Rel.step (by apply StepRel.use3; assumption; apply rel_Dev_fwdDrop) ?_ ?_ | refine Rel.ite ?_ ?_ | split | intro _ | dsimp only

theorem rel_Dev_fwdCt (d : Dev) (tok : Nat) (p : Packet) (f : Fwd) (param : Nat) : StepRel 4298670095 d (Dev.fwdCt d tok p f param) := by
  unfold Dev.fwdCt
  with_reducible repeat' first | assumption | decide | rfl | refine StepRel.next ?_ | refine StepRel.jump ?_ | refine StepRel.done ?_ | refine StepRel.ite ?_ ?_ | refine Rel.elim ?_ (fun _ => ?_) | refine Rel.step (by apply rel_Dev_lookup) ?_ ?_ | refine Rel.step (by apply rel_Dev_lookup'; assumption) ?_ ?_ | refine Rel.step (by apply rel_Dev_ctTouch) ?_ ?_ | refine StepRel.step (by apply rel_Dev_fwdDrop) ?_ ?_ | refine Rel.step (by apply StepRel.use1; assumption; apply rel_Dev_fwdDrop) ?_ ?_ | refine Rel.step (by apply StepRel.use2; assumption; apply rel_Dev_fwdDrop) ?_ ?_ | refine Rel.step (by apply StepRel.use3; assumption; apply rel_Dev_fwdDrop) ?_ ?_ | (apply StepRel.after; swap; apply rel_Dev_fwdFate) | refine Rel.step (by apply rel_Dev_setPkt) ?_ ?_ | refine Rel.ite ?_ ?_ | simp only [Nat.reduceAnd, Rel.u_fwd] | split | intro _ | dsimp only

theorem rel_Dev_fwdFlow (d : Dev) (tok : Nat) (p : Packet) (f : Fwd) : StepRel 4295524367 d (Dev.fwdFlow d tok p f) := by
  unfold Dev.fwdFlow
  with_reducible repeat' first | assumption | decide | rfl | refine StepRel.next ?_ | refine StepRel.jump ?_ | refine StepRel.done ?_ | refine StepRel.ite ?_ ?_ | refine Rel.step (by apply rel_Dev_lookup) ?_ ?_ | refine Rel.step (by apply rel_Dev_lookup'; assumption) ?_ ?_ | refine StepRel.step (by apply rel_Dev_flowHit) ?_ ?_ | refine Rel.step (by apply StepRel.use1; assumption; apply rel_Dev_flowHit) ?_ ?_ | refine Rel.step (by apply StepRel.use2; assumption; apply rel_Dev_flowHit) ?_ ?_ | refine Rel.step (by apply StepRel.use3; assumption; apply rel_Dev_flowHit) ?_ ?_ | refine StepRel.step (by apply rel_Dev_fwdDrop) ?_ ?_ | refine Rel.step (by apply StepRel.use1; assumption; apply rel_Dev_fwdDrop) ?_ ?_ | refine Rel.step (by apply StepRel.use2; assumption; apply rel_Dev_fwdDrop) ?_ ?_ | refine Rel.step (by apply StepRel.use3; assumption; apply rel_Dev_fwdDrop) ?_ ?_ | (apply StepRel.after; swap; apply rel_Dev_fwdFate) | refine Rel.ite ?_ ?_ | split | intro _ | dsimp only

theorem rel_Dev_fwdWord (d : Dev) (tok : Nat) (p : Packet) (f : Fwd) (h : Dword) (w : Dword) : StepRel 4374233487 d (Dev.fwdWord d tok p f h w) := by
  unfold Dev.fwdWord
  with_reducible repeat' first | assumption | decide | rfl | refine StepRel.next ?_ | refine StepRel.jump ?_ | refine StepRel.done ?_ | refine StepRel.ite ?_ ?_ | refine StepRel.step (by apply rel_Dev_fwdSetTen) ?_ ?_ | refine Rel.step (by apply StepRel.use1; assumption; apply rel_Dev_fwdSetTen) ?_ ?_ | refine Rel.step (by apply StepRel.use2; assumption; apply rel_Dev_fwdSetTen) ?_ ?_ | refine Rel.step (by apply StepRel.use3; assumption; apply rel_Dev_fwdSetTen) ?_ ?_ | refine StepRel.step (by apply rel_Dev_fwdTerm) ?_ ?_ | refine Rel.step (by apply StepRel.use1; assumption; apply rel_Dev_fwdTerm) ?_ ?_ | refine Rel.step (by apply StepRel.use2; assumption; apply rel_Dev_fwdTerm) ?_ ?_ | refine Rel.step (by apply StepRel.use3; assumption; apply rel_Dev_fwdTerm) ?_ ?_ | refine StepRel.step (by apply rel_Dev_fwdCrypt) ?_ ?_ | refine Rel.step (by apply StepRel.use1; assumption; apply rel_Dev_fwdCrypt) ?_ ?_ | refine Rel.step (by apply StepRel.use2; assumption; apply rel_Dev_fwdCrypt) ?_ ?_ | refine Rel.step (by apply StepRel.use3; assumption; apply rel_Dev_fwdCrypt) ?_ ?_ | refine StepRel.step (by apply rel_Dev_fwdBridge) ?_ ?_ | refine Rel.step (by apply StepRel.use1; assumption; apply rel_Dev_fwdBridge) ?_ ?_ | refine Rel.step (by apply StepRel.use2; assumption; apply rel_Dev_fwdBridge) ?_ ?_ | refine Rel.step (by apply StepRel.use3; assumption; apply rel_Dev_fwdBridge) ?_ ?_ | refine StepRel.step (by apply rel_Dev_fwdDest) ?_ ?_ | refine Rel.step (by apply StepRel.use1; assumption; apply rel_Dev_fwdDest) ?_ ?_ | refine Rel.step (by apply StepRel.use2; assumption; apply rel_Dev_fwdDest) ?_ ?_ | refine Rel.step (by apply StepRel.use3; assumption; apply rel_Dev_fwdDest) ?_ ?_ | refine StepRel.step (by apply rel_Dev_fwdMirror) ?_ ?_ | refine Rel.step (by apply StepRel.use1; assumption; apply rel_Dev_fwdMirror) ?_ ?_ | refine Rel.step (by apply StepRel.use2; assumption; apply rel_Dev_fwdMirror) ?_ ?_ | refine Rel.step (by apply StepRel.use3; assumption; apply rel_Dev_fwdMirror) ?_ ?_ | refine StepRel.step (by apply rel_Dev_fwdCount) ?_ ?_ | refine Rel.step (by apply StepRel.use1; assumption; apply rel_Dev_fwdCount) ?_ ?_ | refine Rel.step (by apply StepRel.use2; assumption; apply rel_Dev_fwdCount) ?_ ?_ | refine Rel.step (by apply StepRel.use3; assumption; apply rel_Dev_fwdCount) ?_ ?_ | refine StepRel.step (by apply rel_Dev_fwdRecirc) ?_ ?_ | refine Rel.step (by apply StepRel.use1; assumption; apply rel_Dev_fwdRecirc) ?_ ?_ | refine Rel.step (by apply StepRel.use2; assumption; apply rel_Dev_fwdRecirc) ?_ ?_ | refine Rel.step (by apply StepRel.use3; assumption; apply rel_Dev_fwdRecirc) ?_ ?_ | refine StepRel.step (by apply rel_Dev_fwdTtl) ?_ ?_ | refine Rel.step (by apply StepRel.use1; assumption; apply rel_Dev_fwdTtl) ?_ ?_ | refine Rel.step (by apply StepRel.use2; assumption; apply rel_Dev_fwdTtl) ?_ ?_ | refine Rel.step (by apply StepRel.use3; assumption; apply rel_Dev_fwdTtl) ?_ ?_ | refine StepRel.step (by apply rel_Dev_fwdVlan) ?_ ?_ | refine Rel.step (by apply StepRel.use1; assumption; apply rel_Dev_fwdVlan) ?_ ?_ | refine Rel.step (by apply StepRel.use2; assumption; apply rel_Dev_fwdVlan) ?_ ?_ | refine Rel.step (by apply StepRel.use3; assumption; apply rel_Dev_fwdVlan) ?_ ?_ | refine StepRel.step (by apply rel_Dev_fwdNat) ?_ ?_ | refine Rel.step (by apply StepRel.use1; assumption; apply rel_Dev_fwdNat) ?_ ?_ | refine Rel.step (by apply StepRel.use2; assumption; apply rel_Dev_fwdNat) ?_ ?_ | refine Rel.step (by apply StepRel.use3; assumption; apply rel_Dev_fwdNat) ?_ ?_ | refine StepRel.step (by apply rel_Dev_fwdDrop) ?_ ?_ | refine Rel.step (by apply StepRel.use1; assumption; apply rel_Dev_fwdDrop) ?_ ?_ | refine Rel.step (by apply StepRel.use2; assumption; apply rel_Dev_fwdDrop) ?_ ?_ | refine Rel.step (by apply StepRel.use3; assumption; apply rel_Dev_fwdDrop) ?_ ?_ | refine StepRel.step (by apply rel_Dev_fwdDecap) ?_ ?_ | refine Rel.step (by apply StepRel.use1; assumption; apply rel_Dev_fwdDecap) ?_ ?_ | refine Rel.step (by apply StepRel.use2; assumption; apply rel_Dev_fwdDecap) ?_ ?_ | refine Rel.step (by apply StepRel.use3; assumption; apply rel_Dev_fwdDecap) ?_ ?_ | refine Rel.step (by apply rel_Dev_twinWord) ?_ ?_ | refine Rel.step (by apply rel_Dev_twinWord'; assumption) ?_ ?_ | refine StepRel.step (by apply rel_Dev_fwdOut) ?_ ?_ | refine Rel.step (by apply StepRel.use1; assumption; apply rel_Dev_fwdOut) ?_ ?_ | refine Rel.step (by apply StepRel.use2; assumption; apply rel_Dev_fwdOut) ?_ ?_ | refine Rel.step (by apply StepRel.use3; assumption; apply rel_Dev_fwdOut) ?_ ?_ | refine StepRel.step (by apply rel_Dev_fwdEncap) ?_ ?_ | refine Rel.step (by apply StepRel.use1; assumption; apply rel_Dev_fwdEncap) ?_ ?_ | refine Rel.step (by apply StepRel.use2; assumption; apply rel_Dev_fwdEncap) ?_ ?_ | refine Rel.step (by apply StepRel.use3; assumption; apply rel_Dev_fwdEncap) ?_ ?_ | refine StepRel.step (by apply rel_Dev_fwdCt) ?_ ?_ | refine Rel.step (by apply StepRel.use1; assumption; apply rel_Dev_fwdCt) ?_ ?_ | refine Rel.step (by apply StepRel.use2; assumption; apply rel_Dev_fwdCt) ?_ ?_ | refine Rel.step (by apply StepRel.use3; assumption; apply rel_Dev_fwdCt) ?_ ?_ | refine Rel.step (by apply rel_Dev_setPkt) ?_ ?_ | refine StepRel.step (by apply rel_Dev_fwdFlow) ?_ ?_ | refine Rel.step (by apply StepRel.use1; assumption; apply rel_Dev_fwdFlow) ?_ ?_ | refine Rel.step (by apply StepRel.use2; assumption; apply rel_Dev_fwdFlow) ?_ ?_ | refine Rel.step (by apply StepRel.use3; assumption; apply rel_Dev_fwdFlow) ?_ ?_ | refine Rel.ite ?_ ?_ | split | intro _ | dsimp only

theorem rel_Dev_fwdRun (d : Dev) (tok : Nat) (p : Packet) (f : Fwd) (x4 : Nat) : Rel 4374233487 d (Dev.fwdRun d tok p f x4) := by
  induction x4 generalizing d tok p f with
  | zero => unfold Dev.fwdRun; with_reducible repeat' first | assumption | decide | rfl | refine Rel.step (by apply StepRel.use1; assumption; apply rel_Dev_fwdWord) ?_ ?_ | refine Rel.step (by apply StepRel.use2; assumption; apply rel_Dev_fwdWord) ?_ ?_ | refine Rel.step (by apply StepRel.use3; assumption; apply rel_Dev_fwdWord) ?_ ?_ | refine Rel.step (by apply rel_Dev_count) ?_ ?_ | refine Rel.step (by apply rel_Dev_toExcRing) ?_ ?_ | refine Rel.step (by apply rel_Dev_actionPoison) ?_ ?_ | refine Rel.step (by apply rel_Dev_actionPoison'; assumption) ?_ ?_ | refine Rel.step (by apply rel_Dev_setPkt) ?_ ?_ | refine Rel.step (by apply rel_Dev_dropPkt) ?_ ?_ | refine Rel.ite ?_ ?_ | split | intro _ | dsimp only
  | succ n ih => unfold Dev.fwdRun; with_reducible repeat' first | assumption | decide | rfl | refine Rel.step (by apply ih) ?_ ?_ | refine Rel.step (by apply StepRel.use1; assumption; apply rel_Dev_fwdWord) ?_ ?_ | refine Rel.step (by apply StepRel.use2; assumption; apply rel_Dev_fwdWord) ?_ ?_ | refine Rel.step (by apply StepRel.use3; assumption; apply rel_Dev_fwdWord) ?_ ?_ | refine Rel.step (by apply rel_Dev_count) ?_ ?_ | refine Rel.step (by apply rel_Dev_toExcRing) ?_ ?_ | refine Rel.step (by apply rel_Dev_actionPoison) ?_ ?_ | refine Rel.step (by apply rel_Dev_actionPoison'; assumption) ?_ ?_ | refine Rel.step (by apply rel_Dev_setPkt) ?_ ?_ | refine Rel.step (by apply rel_Dev_dropPkt) ?_ ?_ | refine Rel.ite ?_ ?_ | split | intro _ | dsimp only

theorem rel_Dev_forward (d : Dev) (tok : Nat) (ecc : Ecc) : Rel 4374233487 d (Dev.forward d tok ecc) := by
  unfold Dev.forward
  with_reducible repeat' first | assumption | decide | rfl | refine Rel.step (by apply rel_Dev_fwdRun) ?_ ?_ | refine Rel.step (by apply rel_Dev_applyEcc) ?_ ?_ | refine Rel.step (by apply rel_Dev_dropPkt) ?_ ?_ | refine Rel.step (by apply rel_Dev_count) ?_ ?_ | refine Rel.step (by apply StepRel.use1; assumption; apply rel_Dev_fwdFlow) ?_ ?_ | refine Rel.step (by apply StepRel.use2; assumption; apply rel_Dev_fwdFlow) ?_ ?_ | refine Rel.step (by apply StepRel.use3; assumption; apply rel_Dev_fwdFlow) ?_ ?_ | refine Rel.ite ?_ ?_ | split | intro _ | dsimp only

theorem rel_execAgeTick (s : State) {u : State} (h : execAgeTick s = .next u) : Rel 2097152 s.dev u.dev := by
  refine run_rel (fun _ => ?_) h
  with_reducible repeat' first | assumption | decide | rfl | refine Rel.step (by apply rel_Dev_ageTick) ?_ ?_ | intro _ | dsimp only

theorem rel_execCtCommitInsert (s : State) {u : State} (h : execCtCommitInsert s = .next u) : Rel 4298736007 s.dev u.dev := by
  refine run_rel (fun _ => ?_) h
  with_reducible repeat' first | assumption | decide | rfl | refine Rel.step (by apply rel_Dev_ctCommit) ?_ ?_ | intro _ | dsimp only

theorem rel_execForwardFrame (tok : Nat) (ecc : Ecc) (s : State) {u : State} (h : execForwardFrame tok ecc s = .next u) : Rel 4374233487 s.dev u.dev := by
  refine run_rel (fun _ => ?_) h
  with_reducible repeat' first | assumption | decide | rfl | refine Rel.step (by apply rel_Dev_forward) ?_ ?_ | intro _ | dsimp only

theorem rel_execLearnInsert (casFails : Nat) (s : State) {u : State} (h : execLearnInsert casFails s = .next u) : Rel 4298178947 s.dev u.dev := by
  refine run_rel (fun _ => ?_) h
  with_reducible repeat' first | assumption | decide | rfl | refine Rel.step (by apply rel_Dev_learnInsert) ?_ ?_ | intro _ | dsimp only

theorem rel_execSweepVisit (k : Nat) (s : State) {u : State} (h : execSweepVisit k s = .next u) : Rel 3145731 s.dev u.dev := by
  refine run_rel (fun _ => ?_) h
  with_reducible repeat' first | assumption | decide | rfl | refine Rel.step (by apply rel_Dev_sweepVisit) ?_ ?_ | intro _ | dsimp only

end Sys2Proof.Laws
end

