-- ==== Sys2Proof/Laws/Frames/FwdCmd.lean ====
section
/-! SUPPORT. What each function of Machine/FwdCmd.lean may change. -/

set_option linter.unusedTactic false
set_option linter.unreachableTactic false

namespace Sys2Proof.Laws

open Sys2Proof Sys2Proof.Machine

theorem rel_Dev_noPath (d : Dev) (table : Nat) (r : AdmRes) : Rel 4295033217 d (Dev.noPath d table r) := by
  unfold Dev.noPath
  with_reducible repeat' first | assumption | decide | rfl | refine Rel.step (by apply rel_Dev_insFail) ?_ ?_ | refine Rel.ite ?_ ?_ | split | intro _ | dsimp only

theorem rel_Dev_admInsert {m : Nat} {d : Dev} {e : AdmEntry} {opc table : Nat} {f : Dev → AdmRes}
    (hm : 4295164321 &&& m = 4295164321) (hf : AdmRel m d (f d)) : Rel m d (d.admInsert e opc table f) := by
  unfold Dev.admInsert
  have ha : 4295164320 &&& m = 4295164320 := by
    have h := congrArg (fun x => 4295164320 &&& x) hm
    rw [← Nat.and_assoc] at h
    exact h
  split
  · exact Rel.refl ..
  cases hr : f d with
  | fail st det => exact Rel.step2 hm (rel_Dev_admComplete ..) (by decide) ((Rel.mono (rel_Dev_noPath ..) (by decide)).mono hm)
  | done d' det len data => rw [hr] at hf; exact rel_Dev_admRun ha hf
  | wait d' => rw [hr] at hf; exact rel_Dev_admRun ha hf

theorem rel_Dev_postAll (d : Dev) (e : AdmEntry) (opc : Nat) (rs : List TueRec) : AdmRel 64 d (Dev.postAll d e opc rs) := by
  unfold Dev.postAll
  with_reducible repeat' first | assumption | decide | rfl | refine AdmRel.checks ?_ | exact AdmRel.fail | refine AdmRel.done ?_ | refine AdmRel.wait ?_ | refine Rel.step (by apply rel_Dev_tuePost) ?_ ?_ | refine AdmRel.ite ?_ ?_ | split | intro _ | dsimp only

theorem rel_Dev_postInsert (d : Dev) (e : AdmEntry) (opc : Nat) (table : Nat) (line : List Byte) (replace : Bool) : AdmRel 3145794 d (Dev.postInsert d e opc table line replace) := by
  unfold Dev.postInsert
  with_reducible repeat' first | assumption | decide | rfl | refine AdmRel.checks ?_ | exact AdmRel.fail | refine AdmRel.done ?_ | refine AdmRel.wait ?_ | refine Rel.step (by apply rel_Dev_tueAhead) ?_ ?_ | refine AdmRel.step (by apply rel_Dev_postAll) ?_ ?_ | refine AdmRel.ite ?_ ?_ | split | intro _ | dsimp only

theorem rel_fwdFlowAdd (e : AdmEntry) (d : Dev) : AdmRel 3145794 d (fwdFlowAdd e d) := by
  unfold fwdFlowAdd
  with_reducible repeat' first | assumption | decide | rfl | refine AdmRel.checks ?_ | exact AdmRel.fail | refine AdmRel.done ?_ | refine AdmRel.wait ?_ | refine AdmRel.step (by apply rel_Dev_postInsert) ?_ ?_ | refine AdmRel.ite ?_ ?_ | split | intro _ | dsimp only

theorem rel_fwdMacAdd (e : AdmEntry) (d : Dev) : AdmRel 3145794 d (fwdMacAdd e d) := by
  unfold fwdMacAdd
  with_reducible repeat' first | assumption | decide | rfl | refine AdmRel.elim ?_ (fun _ => ?_) | refine AdmRel.checks ?_ | exact AdmRel.fail | refine AdmRel.done ?_ | refine AdmRel.wait ?_ | refine Rel.elim ?_ (fun _ => ?_) | refine AdmRel.step (by apply rel_Dev_postInsert) ?_ ?_ | refine AdmRel.ite ?_ ?_ | split | intro _ | dsimp only

theorem rel_Dev_replan (d : Dev) (e : AdmEntry) (opc : Nat) : Rel 4298310115 d (Dev.replan d e opc) := by
  unfold Dev.replan
  dsimp only
  generalize hq : List.filter _ d.glb.tueQ = q
  have k0 : Rel 4298310115 d { d with glb := { d.glb with tueQ := q } } := (Rel.u_tue (by decide)).2 (Rel.refl _ _)
  revert k0
  generalize { d with glb := { d.glb with tueQ := q } } = d1
  intro k0
  have k1 : AdmRel 4298310115 d (if opc = 0x3A then fwdFlowAdd e d1 else fwdMacAdd e d1) :=
    AdmRel.ite (AdmRel.step (rel_fwdFlowAdd ..) (by decide) k0) (AdmRel.step (rel_fwdMacAdd ..) (by decide) k0)
  split <;> rename_i h <;> rw [h] at k1
  · exact Rel.step (rel_Dev_admLate ..) (by decide) (Rel.step (rel_Dev_noPath ..) (by decide) k0)
  · exact Rel.step (rel_Dev_admLate ..) (by decide) k1
  · exact k1

theorem rel_Dev_lineCas (d : Dev) : Rel 4298310115 d (Dev.lineCas d) := by
  unfold Dev.lineCas
  with_reducible repeat' first | assumption | decide | rfl | refine Rel.step (by apply rel_Dev_tueTake) ?_ ?_ | refine Rel.step (by apply rel_Dev_tueTake'; assumption) ?_ ?_ | refine Rel.step (by apply rel_Dev_tueReturn) ?_ ?_ | refine Rel.step (by apply rel_Dev_replan) ?_ ?_ | refine Rel.ite ?_ ?_ | split | intro _ | dsimp only

theorem rel_Dev_rehashDone (d : Dev) (t : Nat) : Rel 4298310115 d (Dev.rehashDone d t) := by
  unfold Dev.rehashDone
  with_reducible repeat' first | assumption | decide | rfl | refine Rel.getD ?_ ?_ | exact OptRel.none | refine OptRel.some ?_ | refine OptRel.ite ?_ ?_ | refine OptRel.mapD (fun _ => ?_) ?_ | refine OptRel.map (fun _ => ?_) | refine OptRel.bindD (fun _ => ?_) ?_ | refine OptRel.bind (fun _ => ?_) | refine Rel.step (by apply rel_Dev_admLate) ?_ ?_ | refine OptRel.step (by apply rel_Dev_replay) ?_ ?_ | refine Rel.step (by apply OptRel.use; assumption; apply rel_Dev_replay) ?_ ?_ | refine Rel.step (by apply rel_Dev_stampAll) ?_ ?_ | refine Rel.step (by apply rel_Dev_fixPeers) ?_ ?_ | refine Rel.step (by apply rel_Dev_tuePosted) ?_ ?_ | refine Rel.step (by apply rel_Dev_tuePosted'; assumption) ?_ ?_ | refine Rel.ite ?_ ?_ | simp only [Nat.reduceAnd, Rel.u_fwd] | split | intro _ | dsimp only

theorem rel_fwdActWrite (e : AdmEntry) (d : Dev) : AdmRel 3145794 d (fwdActWrite e d) := by
  unfold fwdActWrite
  with_reducible repeat' first | assumption | decide | rfl | refine AdmRel.elim ?_ (fun _ => ?_) | refine AdmRel.checks ?_ | exact AdmRel.fail | refine AdmRel.done ?_ | refine AdmRel.wait ?_ | refine Rel.elim ?_ (fun _ => ?_) | refine Rel.step (by apply rel_Dev_tueAhead) ?_ ?_ | refine AdmRel.step (by apply rel_Dev_postAll) ?_ ?_ | refine Rel.ite ?_ ?_ | refine AdmRel.ite ?_ ?_ | split | intro _ | dsimp only

theorem rel_execFwdActWrite (e : AdmEntry) (s : State) {u : State} (h : execFwdActWrite e s = .next u) : Rel 4298310114 s.dev u.dev := by
  refine run_rel (fun _ => ?_) h
  with_reducible repeat' first | assumption | decide | rfl | refine AdmRel.step (by apply rel_fwdActWrite) ?_ ?_ | (apply Rel.trans; swap; apply rel_Dev_admRun) | intro _ | dsimp only

theorem rel_fwdBridgeCfg (e : AdmEntry) (d : Dev) : AdmRel 2097152 d (fwdBridgeCfg e d) := by
  unfold fwdBridgeCfg
  with_reducible repeat' first | assumption | decide | rfl | refine AdmRel.elim ?_ (fun _ => ?_) | refine AdmRel.checks ?_ | exact AdmRel.fail | refine AdmRel.done ?_ | refine AdmRel.wait ?_ | refine Rel.elim ?_ (fun _ => ?_) | refine AdmRel.ite ?_ ?_ | simp only [Nat.reduceAnd, Rel.u_fwd] | split | intro _ | dsimp only

theorem rel_execFwdBridgeCfg (e : AdmEntry) (s : State) {u : State} (h : execFwdBridgeCfg e s = .next u) : Rel 4297261472 s.dev u.dev := by
  refine run_rel (fun _ => ?_) h
  with_reducible repeat' first | assumption | decide | rfl | refine AdmRel.step (by apply rel_fwdBridgeCfg) ?_ ?_ | (apply Rel.trans; swap; apply rel_Dev_admRun) | intro _ | dsimp only

theorem rel_fwdCntClaim (e : AdmEntry) (d : Dev) : AdmRel 3145794 d (fwdCntClaim e d) := by
  unfold fwdCntClaim
  with_reducible repeat' first | assumption | decide | rfl | refine AdmRel.checks ?_ | exact AdmRel.fail | refine AdmRel.done ?_ | refine AdmRel.wait ?_ | refine Rel.step (by apply rel_Dev_hbmWrite) ?_ ?_ | refine Rel.step (by apply rel_Dev_tueAhead) ?_ ?_ | refine AdmRel.step (by apply rel_Dev_postAll) ?_ ?_ | refine Rel.ite ?_ ?_ | refine AdmRel.ite ?_ ?_ | split | intro _ | dsimp only

theorem rel_execFwdCntClaim (e : AdmEntry) (s : State) {u : State} (h : execFwdCntClaim e s = .next u) : Rel 4298310114 s.dev u.dev := by
  refine run_rel (fun _ => ?_) h
  with_reducible repeat' first | assumption | decide | rfl | refine AdmRel.step (by apply rel_fwdCntClaim) ?_ ?_ | (apply Rel.trans; swap; apply rel_Dev_admRun) | intro _ | dsimp only

theorem rel_fwdCntRead (clear : Bool) (e : AdmEntry) (d : Dev) : AdmRel 3145730 d (fwdCntRead clear e d) := by
  unfold fwdCntRead
  with_reducible repeat' first | assumption | decide | rfl | refine AdmRel.checks ?_ | exact AdmRel.fail | refine AdmRel.done ?_ | refine AdmRel.wait ?_ | refine Rel.step (by apply rel_Dev_hbmWrite) ?_ ?_ | refine Rel.step (by apply rel_Dev_tueAhead) ?_ ?_ | refine Rel.ite ?_ ?_ | refine AdmRel.ite ?_ ?_ | split | intro _ | dsimp only

theorem rel_execFwdCntRead (e : AdmEntry) (s : State) {u : State} (h : execFwdCntRead e s = .next u) : Rel 4298310050 s.dev u.dev := by
  refine run_rel (fun _ => ?_) h
  with_reducible repeat' first | assumption | decide | rfl | refine AdmRel.step (by apply rel_fwdCntRead) ?_ ?_ | (apply Rel.trans; swap; apply rel_Dev_admRun) | intro _ | dsimp only

theorem rel_execFwdCntReadClear (e : AdmEntry) (s : State) {u : State} (h : execFwdCntReadClear e s = .next u) : Rel 4298310050 s.dev u.dev := by
  refine run_rel (fun _ => ?_) h
  with_reducible repeat' first | assumption | decide | rfl | refine AdmRel.step (by apply rel_fwdCntRead) ?_ ?_ | (apply Rel.trans; swap; apply rel_Dev_admRun) | intro _ | dsimp only

theorem rel_fwdCntRelease (e : AdmEntry) (d : Dev) : AdmRel 3145794 d (fwdCntRelease e d) := by
  unfold fwdCntRelease
  with_reducible repeat' first | assumption | decide | rfl | refine AdmRel.checks ?_ | exact AdmRel.fail | refine AdmRel.done ?_ | refine AdmRel.wait ?_ | refine Rel.step (by apply rel_Dev_tueAhead) ?_ ?_ | refine AdmRel.step (by apply rel_Dev_postAll) ?_ ?_ | refine AdmRel.ite ?_ ?_ | split | intro _ | dsimp only

theorem rel_execFwdCntRelease (e : AdmEntry) (s : State) {u : State} (h : execFwdCntRelease e s = .next u) : Rel 4298310114 s.dev u.dev := by
  refine run_rel (fun _ => ?_) h
  with_reducible repeat' first | assumption | decide | rfl | (apply Rel.trans; swap; apply rel_Dev_admRun) | refine AdmRel.step (by apply rel_fwdCntRelease) ?_ ?_ | intro _ | dsimp only

theorem rel_execFwdFlowAdd (e : AdmEntry) (s : State) {u : State} (h : execFwdFlowAdd e s = .next u) : Rel 4298310115 s.dev u.dev := by
  refine run_rel (fun _ => ?_) h
  with_reducible repeat' first | assumption | decide | rfl | refine AdmRel.step (by apply rel_fwdFlowAdd) ?_ ?_ | (apply Rel.trans; swap; apply rel_Dev_admInsert) | intro _ | dsimp only

theorem rel_fwdFlowDel (e : AdmEntry) (d : Dev) : AdmRel 3145794 d (fwdFlowDel e d) := by
  unfold fwdFlowDel
  with_reducible repeat' first | assumption | decide | rfl | refine AdmRel.checks ?_ | exact AdmRel.fail | refine AdmRel.done ?_ | refine AdmRel.wait ?_ | refine AdmRel.step (by apply rel_Dev_postAll) ?_ ?_ | refine AdmRel.ite ?_ ?_ | split | intro _ | dsimp only

theorem rel_execFwdFlowDel (e : AdmEntry) (s : State) {u : State} (h : execFwdFlowDel e s = .next u) : Rel 4298310114 s.dev u.dev := by
  refine run_rel (fun _ => ?_) h
  with_reducible repeat' first | assumption | decide | rfl | (apply Rel.trans; swap; apply rel_Dev_admRun) | refine AdmRel.step (by apply rel_fwdFlowDel) ?_ ?_ | intro _ | dsimp only

theorem rel_fwdFlowRead (e : AdmEntry) (d : Dev) : AdmRel 3145730 d (fwdFlowRead e d) := by
  unfold fwdFlowRead
  with_reducible repeat' first | assumption | decide | rfl | refine AdmRel.checks ?_ | exact AdmRel.fail | refine AdmRel.done ?_ | refine AdmRel.wait ?_ | refine Rel.step (by apply rel_Dev_tueAhead) ?_ ?_ | refine AdmRel.ite ?_ ?_ | split | intro _ | dsimp only

theorem rel_execFwdFlowRead (e : AdmEntry) (s : State) {u : State} (h : execFwdFlowRead e s = .next u) : Rel 4298310050 s.dev u.dev := by
  refine run_rel (fun _ => ?_) h
  with_reducible repeat' first | assumption | decide | rfl | refine AdmRel.step (by apply rel_fwdFlowRead) ?_ ?_ | (apply Rel.trans; swap; apply rel_Dev_admRun) | intro _ | dsimp only

theorem rel_fwdFlush (e : AdmEntry) (d : Dev) : AdmRel 3145794 d (fwdFlush e d) := by
  unfold fwdFlush
  with_reducible repeat' first | assumption | decide | rfl | refine AdmRel.checks ?_ | exact AdmRel.fail | refine AdmRel.done ?_ | refine AdmRel.wait ?_ | refine Rel.step (by apply rel_Dev_tueAhead) ?_ ?_ | refine AdmRel.step (by apply rel_Dev_postAll) ?_ ?_ | refine Rel.ite ?_ ?_ | refine AdmRel.ite ?_ ?_ | split | intro _ | dsimp only

theorem rel_execFwdFlush (e : AdmEntry) (s : State) {u : State} (h : execFwdFlush e s = .next u) : Rel 4298310114 s.dev u.dev := by
  refine run_rel (fun _ => ?_) h
  with_reducible repeat' first | assumption | decide | rfl | refine AdmRel.step (by apply rel_fwdFlush) ?_ ?_ | (apply Rel.trans; swap; apply rel_Dev_admRun) | intro _ | dsimp only

theorem rel_execFwdMacAdd (e : AdmEntry) (s : State) {u : State} (h : execFwdMacAdd e s = .next u) : Rel 4298310115 s.dev u.dev := by
  refine run_rel (fun _ => ?_) h
  with_reducible repeat' first | assumption | decide | rfl | refine AdmRel.step (by apply rel_fwdMacAdd) ?_ ?_ | (apply Rel.trans; swap; apply rel_Dev_admInsert) | intro _ | dsimp only

theorem rel_fwdNatPool (e : AdmEntry) (d : Dev) : AdmRel 2097152 d (fwdNatPool e d) := by
  unfold fwdNatPool
  with_reducible repeat' first | assumption | decide | rfl | refine AdmRel.elim ?_ (fun _ => ?_) | refine AdmRel.checks ?_ | exact AdmRel.fail | refine AdmRel.done ?_ | refine AdmRel.wait ?_ | refine Rel.elim ?_ (fun _ => ?_) | refine AdmRel.ite ?_ ?_ | simp only [Nat.reduceAnd, Rel.u_fwd] | split | intro _ | dsimp only

theorem rel_execFwdNatPool (e : AdmEntry) (s : State) {u : State} (h : execFwdNatPool e s = .next u) : Rel 4297261472 s.dev u.dev := by
  refine run_rel (fun _ => ?_) h
  with_reducible repeat' first | assumption | decide | rfl | refine AdmRel.step (by apply rel_fwdNatPool) ?_ ?_ | (apply Rel.trans; swap; apply rel_Dev_admRun) | intro _ | dsimp only

theorem rel_fwdRehash (e : AdmEntry) (d : Dev) : AdmRel 17181966338 d (fwdRehash e d) := by
  unfold fwdRehash
  with_reducible repeat' first | assumption | decide | rfl | refine Rel.getD ?_ ?_ | exact OptRel.none | refine OptRel.some ?_ | refine OptRel.ite ?_ ?_ | refine OptRel.mapD (fun _ => ?_) ?_ | refine OptRel.map (fun _ => ?_) | refine OptRel.bindD (fun _ => ?_) ?_ | refine OptRel.bind (fun _ => ?_) | refine AdmRel.checks ?_ | exact AdmRel.fail | refine AdmRel.done ?_ | refine AdmRel.wait ?_ | refine OptRel.step (by apply rel_Dev_fillShadow) ?_ ?_ | refine Rel.step (by apply OptRel.use; assumption; apply rel_Dev_fillShadow) ?_ ?_ | refine Rel.step (by apply rel_Dev_hbmClear) ?_ ?_ | refine Rel.step (by apply rel_Dev_draw) ?_ ?_ | refine Rel.step (by apply rel_Dev_draw'; assumption) ?_ ?_ | refine Rel.ite ?_ ?_ | refine AdmRel.ite ?_ ?_ | simp only [Nat.reduceAnd, Rel.u_fwd] | split | intro _ | dsimp only

theorem rel_execFwdRehash (e : AdmEntry) (s : State) {u : State} (h : execFwdRehash e s = .next u) : Rel 21477130658 s.dev u.dev := by
  refine run_rel (fun _ => ?_) h
  with_reducible repeat' first | assumption | decide | rfl | (apply Rel.trans; swap; apply rel_Dev_admRun) | refine AdmRel.step (by apply rel_fwdRehash) ?_ ?_ | intro _ | dsimp only

theorem rel_fwdTblCfg (e : AdmEntry) (d : Dev) : AdmRel 3145794 d (fwdTblCfg e d) := by
  unfold fwdTblCfg
  with_reducible repeat' first | assumption | decide | rfl | refine AdmRel.checks ?_ | exact AdmRel.fail | refine AdmRel.done ?_ | refine AdmRel.wait ?_ | refine Rel.step (by apply rel_Dev_tueAhead) ?_ ?_ | refine AdmRel.step (by apply rel_Dev_postAll) ?_ ?_ | refine AdmRel.ite ?_ ?_ | split | intro _ | dsimp only

theorem rel_execFwdTblCfg (e : AdmEntry) (s : State) {u : State} (h : execFwdTblCfg e s = .next u) : Rel 4298310114 s.dev u.dev := by
  refine run_rel (fun _ => ?_) h
  with_reducible repeat' first | assumption | decide | rfl | (apply Rel.trans; swap; apply rel_Dev_admRun) | refine AdmRel.step (by apply rel_fwdTblCfg) ?_ ?_ | intro _ | dsimp only

theorem rel_fwdTenCfg (e : AdmEntry) (d : Dev) : AdmRel 2097152 d (fwdTenCfg e d) := by
  unfold fwdTenCfg
  with_reducible repeat' first | assumption | decide | rfl | refine AdmRel.checks ?_ | exact AdmRel.fail | refine AdmRel.done ?_ | refine AdmRel.wait ?_ | refine AdmRel.ite ?_ ?_ | simp only [Nat.reduceAnd, Rel.u_fwd] | split | intro _ | dsimp only

theorem rel_execFwdTenCfg (e : AdmEntry) (s : State) {u : State} (h : execFwdTenCfg e s = .next u) : Rel 4297261472 s.dev u.dev := by
  refine run_rel (fun _ => ?_) h
  with_reducible repeat' first | assumption | decide | rfl | refine AdmRel.step (by apply rel_fwdTenCfg) ?_ ?_ | (apply Rel.trans; swap; apply rel_Dev_admRun) | intro _ | dsimp only

theorem rel_execLineCas (s : State) {u : State} (h : execLineCas s = .next u) : Rel 4298310115 s.dev u.dev := by
  refine run_rel (fun _ => ?_) h
  with_reducible repeat' first | assumption | decide | rfl | refine Rel.step (by apply rel_Dev_lineCas) ?_ ?_ | intro _ | dsimp only

theorem rel_execRehashDone (table : Nat) (s : State) {u : State} (h : execRehashDone table s = .next u) : Rel 4298310115 s.dev u.dev := by
  refine run_rel (fun _ => ?_) h
  with_reducible repeat' first | assumption | decide | rfl | refine Rel.step (by apply rel_Dev_rehashDone) ?_ ?_ | intro _ | dsimp only

end Sys2Proof.Laws
end

