-- ==== Sys2Proof/Laws/Frames/Time.lean ====
section
/-! SUPPORT. What each function of Machine/Time.lean may change. -/

set_option linter.unusedTactic false
set_option linter.unreachableTactic false

namespace Sys2Proof.Laws

open Sys2Proof Sys2Proof.Machine

theorem rel_Dev_carried {m : Nat} {d : Dev} {change : Dev → Dev} (hm : 1073741825 &&& m = 1073741825) (hf : ∀ d, Rel m d (change d)) :
    Rel m d (d.carried change) := by
  unfold Dev.carried
  refine Rel.ite (hf d) (Rel.ite ?_ ?_)
  · exact (Rel.mono (rel_Dev_setBit ..) (by decide)).mono hm
  · exact Rel.step2 hm (rel_Dev_setTime ..) (by decide) (hf d)

theorem rel_Dev_setDom (d : Dev) (k : Nat) (x : Domain) : Rel 1073741824 d (Dev.setDom d k x) := by
  unfold Dev.setDom
  with_reducible repeat' first | assumption | decide | rfl | refine Rel.step (by apply rel_Dev_setTime) ?_ ?_ | refine Rel.ite ?_ ?_ | split | intro _ | dsimp only

theorem rel_Dev_domTo (d : Dev) (k : Nat) (total : Int) : Rel 1073741825 d (Dev.domTo d k total) := by
  unfold Dev.domTo
  with_reducible repeat' first | assumption | decide | rfl | (apply Rel.trans; swap; apply rel_Dev_carried) | refine Rel.step (by apply rel_Dev_setDom) ?_ ?_ | refine Rel.ite ?_ ?_ | split | intro _ | dsimp only

theorem rel_Dev_ttOpen (d : Dev) (p : Nat) (x : TimeTable) (w : Nat × Nat × Nat) : Rel 1073741824 d (Dev.ttOpen d p x w) := by
  unfold Dev.ttOpen
  with_reducible repeat' first | assumption | decide | rfl | refine Rel.step (by apply rel_Dev_setTt) ?_ ?_ | refine Rel.ite ?_ ?_ | split | intro _ | dsimp only

theorem rel_Dev_gateActivate (d : Dev) (p : Nat) : Rel 5368906144 d (Dev.gateActivate d p) := by
  unfold Dev.gateActivate
  with_reducible repeat' first | assumption | decide | rfl | refine Rel.step (by apply rel_Dev_admLate) ?_ ?_ | refine Rel.step (by apply rel_Dev_ttOpen) ?_ ?_ | split | intro _ | dsimp only

theorem rel_Dev_gateChange (d : Dev) (p : Nat) : Rel 1073741824 d (Dev.gateChange d p) := by
  unfold Dev.gateChange
  with_reducible repeat' first | assumption | decide | rfl | refine Rel.step (by apply rel_Dev_ttOpen) ?_ ?_ | split | intro _ | dsimp only

theorem rel_Dev_incApply (d : Dev) (pf : Nat) (k : Nat) (v : Word) : Rel 1073741825 d (Dev.incApply d pf k v) := by
  unfold Dev.incApply
  with_reducible repeat' first | assumption | decide | rfl | refine Rel.step (by apply rel_Dev_setReg) ?_ ?_ | refine Rel.step (by apply rel_Dev_setBit) ?_ ?_ | (apply Rel.trans; swap; apply rel_Dev_bar0Write) | refine Rel.step (by apply rel_Dev_setDom) ?_ ?_ | refine Rel.ite ?_ ?_ | split | intro _ | dsimp only

theorem rel_Dev_pageWrite (d : Dev) : Rel 4294967296 d (Dev.pageWrite d) := by
  unfold Dev.pageWrite
  with_reducible repeat' first | assumption | decide | rfl | refine Rel.foldl (fun _ _ => ?_) ?_ | refine Rel.foldl1 (fun _ _ => ?_) ?_ | refine Rel.foldl2 (fun _ _ => ?_) ?_ | refine Rel.step (by apply rel_Dev_emit) ?_ ?_ | refine Rel.ite ?_ ?_ | split | intro _ | dsimp only

theorem rel_Dev_ppsIn (d : Dev) : Rel 1 d (Dev.ppsIn d) := by
  unfold Dev.ppsIn
  with_reducible repeat' first | assumption | decide | rfl | refine Rel.step (by apply rel_Dev_setReg) ?_ ?_ | refine Rel.step (by apply rel_Dev_count) ?_ ?_ | split | intro _ | dsimp only

theorem rel_Dev_ppsOut (d : Dev) : Rel 4294967296 d (Dev.ppsOut d) := by
  unfold Dev.ppsOut
  with_reducible repeat' first | assumption | decide | rfl | refine Rel.step (by apply rel_Dev_emit) ?_ ?_ | refine Rel.ite ?_ ?_ | split | intro _ | dsimp only

theorem rel_Dev_refBack (d : Dev) : Rel 1073741824 d (Dev.refBack d) := by
  unfold Dev.refBack
  with_reducible repeat' first | assumption | decide | rfl | refine Rel.step (by apply rel_Dev_setTime) ?_ ?_ | split | intro _ | dsimp only

theorem rel_Dev_refLost (d : Dev) : Rel 5368775041 d (Dev.refLost d) := by
  unfold Dev.refLost
  with_reducible repeat' first | assumption | decide | rfl | refine Rel.step (by apply rel_Dev_setBit) ?_ ?_ | refine Rel.step (by apply rel_Dev_setTime) ?_ ?_ | refine Rel.step (by apply rel_Dev_pfEvent) ?_ ?_ | refine Rel.ite ?_ ?_ | split | intro _ | dsimp only

theorem rel_Dev_refSelect (d : Dev) (pf : Nat) (v : Word) : Rel 1073741825 d (Dev.refSelect d pf v) := by
  unfold Dev.refSelect
  with_reducible repeat' first | assumption | decide | rfl | refine Rel.step (by apply rel_Dev_setReg) ?_ ?_ | refine Rel.step (by apply rel_Dev_setTime) ?_ ?_ | (apply Rel.trans; swap; apply rel_Dev_bar0Write) | split | intro _ | dsimp only

theorem rel_Dev_setTio (d : Dev) (i : Nat) (x : Tio) : Rel 1073741824 d (Dev.setTio d i x) := by
  unfold Dev.setTio
  with_reducible repeat' first | assumption | decide | rfl | refine Rel.step (by apply rel_Dev_setTime) ?_ ?_ | split | intro _ | dsimp only

theorem rel_Dev_slewDone (d : Dev) : Rel 1073741824 d (Dev.slewDone d) := by
  unfold Dev.slewDone
  with_reducible repeat' first | assumption | decide | rfl | refine Rel.step (by apply rel_Dev_setTime) ?_ ?_ | refine Rel.ite ?_ ?_ | split | intro _ | dsimp only

theorem rel_Dev_timeGo (d : Dev) (pf : Nat) (k : Nat) (v : Word) : Rel 1073741825 d (Dev.timeGo d pf k v) := by
  unfold Dev.timeGo
  with_reducible repeat' first | assumption | decide | rfl | refine Rel.step (by apply rel_Dev_setBit) ?_ ?_ | refine Rel.step (by apply rel_Dev_domTo) ?_ ?_ | (apply Rel.trans; swap; apply rel_Dev_bar0Write) | refine Rel.ite ?_ ?_ | split | intro _ | dsimp only

theorem rel_Dev_timeLock (d : Dev) (pf : Nat) (v : Word) : Rel 1073741825 d (Dev.timeLock d pf v) := by
  unfold Dev.timeLock
  with_reducible repeat' first | assumption | decide | rfl | refine Rel.step (by apply rel_Dev_setTime) ?_ ?_ | (apply Rel.trans; swap; apply rel_Dev_bar0Write) | refine Rel.ite ?_ ?_ | split | intro _ | dsimp only

theorem rel_Dev_timeSnap (d : Dev) (pf : Nat) : Rel 9663676417 d (Dev.timeSnap d pf) := by
  unfold Dev.timeSnap
  with_reducible repeat' first | assumption | decide | rfl | refine Rel.step (by apply rel_Dev_setReg) ?_ ?_ | refine Rel.step (by apply rel_Dev_setTime) ?_ ?_ | (apply Rel.trans; swap; apply rel_Dev_bar0Read) | split | intro _ | dsimp only

theorem rel_Dev_timeSwitch (d : Dev) (pf : Nat) (v : Word) : Rel 1073741825 d (Dev.timeSwitch d pf v) := by
  unfold Dev.timeSwitch
  with_reducible repeat' first | assumption | decide | rfl | refine Rel.step (by apply rel_Dev_setReg) ?_ ?_ | (apply Rel.trans; swap; apply rel_Dev_carried) | refine Rel.step (by apply rel_Dev_setTime) ?_ ?_ | (apply Rel.trans; swap; apply rel_Dev_bar0Write) | refine Rel.ite ?_ ?_ | split | intro _ | dsimp only

theorem rel_Dev_timeTick (d : Dev) : Rel 1073741824 d (Dev.timeTick d) := by
  unfold Dev.timeTick
  with_reducible repeat' first | assumption | decide | rfl | refine Rel.step (by apply rel_Dev_setTime) ?_ ?_ | refine Rel.ite ?_ ?_ | split | intro _ | dsimp only

theorem rel_Dev_tioArm (d : Dev) (i : Nat) : Rel 1073741825 d (Dev.tioArm d i) := by
  unfold Dev.tioArm
  with_reducible repeat' first | assumption | decide | rfl | refine Rel.step (by apply rel_Dev_setBit) ?_ ?_ | refine Rel.step (by apply rel_Dev_setTio) ?_ ?_ | refine Rel.ite ?_ ?_ | split | intro _ | dsimp only

theorem rel_Dev_tioCapture (d : Dev) (i : Nat) (rising : Bool) : Rel 1073741825 d (Dev.tioCapture d i rising) := by
  unfold Dev.tioCapture
  with_reducible repeat' first | assumption | decide | rfl | refine Rel.step (by apply rel_Dev_setBit) ?_ ?_ | refine Rel.step (by apply rel_Dev_setTio) ?_ ?_ | refine Rel.ite ?_ ?_ | split | intro _ | dsimp only

theorem rel_Dev_tioPulse (d : Dev) (i : Nat) : Rel 5368709120 d (Dev.tioPulse d i) := by
  unfold Dev.tioPulse
  with_reducible repeat' first | assumption | decide | rfl | refine Rel.step (by apply rel_Dev_setTio) ?_ ?_ | refine Rel.step (by apply rel_Dev_emit) ?_ ?_ | refine Rel.ite ?_ ?_ | split | intro _ | dsimp only

theorem rel_Dev_tioRead (d : Dev) (pf : Nat) (i : Nat) : Rel 9663676417 d (Dev.tioRead d pf i) := by
  unfold Dev.tioRead
  with_reducible repeat' first | assumption | decide | rfl | refine Rel.step (by apply rel_Dev_setReg) ?_ ?_ | refine Rel.step (by apply rel_Dev_setTio) ?_ ?_ | (apply Rel.trans; swap; apply rel_Dev_bar0Read) | refine Rel.step (by apply rel_Dev_clrBit) ?_ ?_ | split | intro _ | dsimp only

theorem rel_Dev_tioWrite (d : Dev) (pf : Nat) (i : Nat) (v : Word) : Rel 1073741825 d (Dev.tioWrite d pf i v) := by
  unfold Dev.tioWrite
  with_reducible repeat' first | assumption | decide | rfl | refine Rel.step (by apply rel_Dev_setTio) ?_ ?_ | refine Rel.step (by apply rel_Dev_tioArm) ?_ ?_ | (apply Rel.trans; swap; apply rel_Dev_bar0Write) | refine Rel.ite ?_ ?_ | split | intro _ | dsimp only

theorem rel_Dev_ttCtl (d : Dev) (p : Nat) (v : Word) : Rel 5369233409 d (Dev.ttCtl d p v) := by
  unfold Dev.ttCtl
  with_reducible repeat' first | assumption | decide | rfl | refine Rel.step (by apply rel_Dev_setReg) ?_ ?_ | refine Rel.step (by apply rel_Dev_setBit) ?_ ?_ | refine Rel.step (by apply rel_Dev_dimRestore) ?_ ?_ | refine Rel.step (by apply rel_Dev_ttOpen) ?_ ?_ | refine Rel.step (by apply rel_Dev_setTt) ?_ ?_ | refine Rel.ite ?_ ?_ | split | intro _ | dsimp only

theorem rel_execClk10mLost (s : State) {u : State} (h : execClk10mLost s = .next u) : Rel 5368775041 s.dev u.dev := by
  refine run_rel (fun _ => ?_) h
  with_reducible repeat' first | assumption | decide | rfl | refine Rel.step (by apply rel_Dev_refLost) ?_ ?_ | intro _ | dsimp only

theorem rel_execClk10mReturn (s : State) {u : State} (h : execClk10mReturn s = .next u) : Rel 1073741824 s.dev u.dev := by
  refine run_rel (fun _ => ?_) h
  with_reducible repeat' first | assumption | decide | rfl | refine Rel.step (by apply rel_Dev_refBack) ?_ ?_ | intro _ | dsimp only

theorem rel_execGateChange (p : Nat) (s : State) {u : State} (h : execGateChange p s = .next u) : Rel 1073741824 s.dev u.dev := by
  refine run_rel (fun _ => ?_) h
  with_reducible repeat' first | assumption | decide | rfl | refine Rel.step (by apply rel_Dev_gateChange) ?_ ?_ | intro _ | dsimp only

theorem rel_execGateListActivate (p : Nat) (s : State) {u : State} (h : execGateListActivate p s = .next u) : Rel 5368906144 s.dev u.dev := by
  refine run_rel (fun _ => ?_) h
  with_reducible repeat' first | assumption | decide | rfl | refine Rel.step (by apply rel_Dev_gateActivate) ?_ ?_ | intro _ | dsimp only

theorem rel_execPpsInEdge (s : State) {u : State} (h : execPpsInEdge s = .next u) : Rel 1 s.dev u.dev := by
  refine run_rel (fun _ => ?_) h
  with_reducible repeat' first | assumption | decide | rfl | refine Rel.step (by apply rel_Dev_ppsIn) ?_ ?_ | intro _ | dsimp only

theorem rel_execPpsOutEdge (s : State) {u : State} (h : execPpsOutEdge s = .next u) : Rel 4294967296 s.dev u.dev := by
  refine run_rel (fun _ => ?_) h
  with_reducible repeat' first | assumption | decide | rfl | refine Rel.step (by apply rel_Dev_ppsOut) ?_ ?_ | intro _ | dsimp only

theorem rel_execTimeGoAdj (pf : Nat) (dom : Nat) (s : State) {u : State} (h : execTimeGoAdj pf dom s = .next u) : Rel 1073741825 s.dev u.dev := by
  refine run_rel (fun _ => ?_) h
  with_reducible repeat' first | assumption | decide | rfl | refine Rel.step (by apply rel_Dev_timeGo) ?_ ?_ | intro _ | dsimp only

theorem rel_execTimeGoSet (pf : Nat) (dom : Nat) (s : State) {u : State} (h : execTimeGoSet pf dom s = .next u) : Rel 1073741825 s.dev u.dev := by
  refine run_rel (fun _ => ?_) h
  with_reducible repeat' first | assumption | decide | rfl | refine Rel.step (by apply rel_Dev_timeGo) ?_ ?_ | intro _ | dsimp only

theorem rel_execTimeIncApply (pf : Nat) (dom : Nat) (value : Word) (s : State) {u : State} (h : execTimeIncApply pf dom value s = .next u) : Rel 1073741825 s.dev u.dev := by
  refine run_rel (fun _ => ?_) h
  with_reducible repeat' first | assumption | decide | rfl | refine Rel.step (by apply rel_Dev_incApply) ?_ ?_ | intro _ | dsimp only

theorem rel_execTimeLock (pf : Nat) (value : Word) (s : State) {u : State} (h : execTimeLock pf value s = .next u) : Rel 1073741825 s.dev u.dev := by
  refine run_rel (fun _ => ?_) h
  with_reducible repeat' first | assumption | decide | rfl | refine Rel.step (by apply rel_Dev_timeLock) ?_ ?_ | intro _ | dsimp only

theorem rel_timePageSet (e : AdmEntry) (d : Dev) : AdmRel 1073741824 d (timePageSet e d) := by
  unfold timePageSet
  with_reducible repeat' first | assumption | decide | rfl | refine AdmRel.checks ?_ | exact AdmRel.fail | refine AdmRel.done ?_ | refine AdmRel.wait ?_ | refine Rel.step (by apply rel_Dev_setTime) ?_ ?_ | refine Rel.ite ?_ ?_ | refine AdmRel.ite ?_ ?_ | split | intro _ | dsimp only

theorem rel_execTimePageSet (e : AdmEntry) (s : State) {u : State} (h : execTimePageSet e s = .next u) : Rel 5368906144 s.dev u.dev := by
  refine run_rel (fun _ => ?_) h
  with_reducible repeat' first | assumption | decide | rfl | (apply Rel.trans; swap; apply rel_Dev_admRun) | refine AdmRel.step (by apply rel_timePageSet) ?_ ?_ | intro _ | dsimp only

theorem rel_execTimePageWrite (s : State) {u : State} (h : execTimePageWrite s = .next u) : Rel 4294967296 s.dev u.dev := by
  refine run_rel (fun _ => ?_) h
  with_reducible repeat' first | assumption | decide | rfl | refine Rel.step (by apply rel_Dev_pageWrite) ?_ ?_ | intro _ | dsimp only

theorem rel_execTimeRefSelect (pf : Nat) (value : Word) (s : State) {u : State} (h : execTimeRefSelect pf value s = .next u) : Rel 1073741825 s.dev u.dev := by
  refine run_rel (fun _ => ?_) h
  with_reducible repeat' first | assumption | decide | rfl | refine Rel.step (by apply rel_Dev_refSelect) ?_ ?_ | intro _ | dsimp only

theorem rel_execTimeSlewDone (s : State) {u : State} (h : execTimeSlewDone s = .next u) : Rel 1073741824 s.dev u.dev := by
  refine run_rel (fun _ => ?_) h
  with_reducible repeat' first | assumption | decide | rfl | refine Rel.step (by apply rel_Dev_slewDone) ?_ ?_ | intro _ | dsimp only

theorem rel_execTimeSnap (pf : Nat) (s : State) {u : State} (h : execTimeSnap pf s = .next u) : Rel 9663676417 s.dev u.dev := by
  refine run_rel (fun _ => ?_) h
  with_reducible repeat' first | assumption | decide | rfl | refine Rel.step (by apply rel_Dev_timeSnap) ?_ ?_ | intro _ | dsimp only

theorem rel_execTimeSwitch (pf : Nat) (value : Word) (s : State) {u : State} (h : execTimeSwitch pf value s = .next u) : Rel 1073741825 s.dev u.dev := by
  refine run_rel (fun _ => ?_) h
  with_reducible repeat' first | assumption | decide | rfl | refine Rel.step (by apply rel_Dev_timeSwitch) ?_ ?_ | intro _ | dsimp only

theorem rel_execTioArm (pf : Nat) (i : Nat) (s : State) {u : State} (h : execTioArm pf i s = .next u) : Rel 1073741825 s.dev u.dev := by
  refine run_rel (fun _ => ?_) h
  with_reducible repeat' first | assumption | decide | rfl | refine Rel.step (by apply rel_Dev_tioWrite) ?_ ?_ | intro _ | dsimp only

theorem rel_execTioCapRead (pf : Nat) (i : Nat) (s : State) {u : State} (h : execTioCapRead pf i s = .next u) : Rel 9663676417 s.dev u.dev := by
  refine run_rel (fun _ => ?_) h
  with_reducible repeat' first | assumption | decide | rfl | refine Rel.step (by apply rel_Dev_tioRead) ?_ ?_ | intro _ | dsimp only

theorem rel_execTioCapture (i : Nat) (rising : Bool) (s : State) {u : State} (h : execTioCapture i rising s = .next u) : Rel 1073741825 s.dev u.dev := by
  refine run_rel (fun _ => ?_) h
  with_reducible repeat' first | assumption | decide | rfl | refine Rel.step (by apply rel_Dev_tioCapture) ?_ ?_ | intro _ | dsimp only

theorem rel_execTioDisarm (pf : Nat) (i : Nat) (s : State) {u : State} (h : execTioDisarm pf i s = .next u) : Rel 1073741825 s.dev u.dev := by
  refine run_rel (fun _ => ?_) h
  with_reducible repeat' first | assumption | decide | rfl | refine Rel.step (by apply rel_Dev_tioWrite) ?_ ?_ | intro _ | dsimp only

theorem rel_execTioPulse (i : Nat) (s : State) {u : State} (h : execTioPulse i s = .next u) : Rel 5368709120 s.dev u.dev := by
  refine run_rel (fun _ => ?_) h
  with_reducible repeat' first | assumption | decide | rfl | refine Rel.step (by apply rel_Dev_tioPulse) ?_ ?_ | intro _ | dsimp only

theorem rel_ttLoad (e : AdmEntry) (d : Dev) : AdmRel 1073741824 d (ttLoad e d) := by
  unfold ttLoad
  with_reducible repeat' first | assumption | decide | rfl | refine AdmRel.checks ?_ | exact AdmRel.fail | refine AdmRel.done ?_ | refine AdmRel.wait ?_ | refine Rel.step (by apply rel_Dev_setTt) ?_ ?_ | refine AdmRel.ite ?_ ?_ | split | intro _ | dsimp only

theorem rel_execTtLoad (e : AdmEntry) (s : State) {u : State} (h : execTtLoad e s = .next u) : Rel 5368906144 s.dev u.dev := by
  refine run_rel (fun _ => ?_) h
  with_reducible repeat' first | assumption | decide | rfl | (apply Rel.trans; swap; apply rel_Dev_admRun) | refine AdmRel.step (by apply rel_ttLoad) ?_ ?_ | intro _ | dsimp only

end Sys2Proof.Laws
end

