-- ==== Sys2Proof/Laws/Frames/MacIo.lean ====
section
/-! SUPPORT. What each function of Machine/MacIo.lean may change. -/

set_option linter.unusedTactic false
set_option linter.unreachableTactic false

namespace Sys2Proof.Laws

open Sys2Proof Sys2Proof.Machine

theorem rel_Dev_classifyAll (d : Dev) (tok : Nat) (ue : List Nat) : Rel 6708780527 d (Dev.classifyAll d tok ue) := by
  unfold Dev.classifyAll
  with_reducible repeat' first | assumption | decide | rfl | refine Rel.step (by apply rel_Dev_freePkt) ?_ ?_ | refine Rel.step (by apply rel_Dev_classify) ?_ ?_ | refine Rel.step (by apply rel_Dev_fabRx) ?_ ?_ | refine Rel.ite ?_ ?_ | split | intro _ | dsimp only

theorem rel_Dev_ctlRx (d : Dev) (p : Nat) (f : List Byte) : Rel 524288 d (Dev.ctlRx d p f) := by
  unfold Dev.ctlRx
  with_reducible repeat' first | assumption | decide | rfl | refine Rel.foldl (fun _ _ => ?_) ?_ | refine Rel.foldl1 (fun _ _ => ?_) ?_ | refine Rel.foldl2 (fun _ _ => ?_) ?_ | refine Rel.step (by apply rel_Dev_pcount) ?_ ?_ | refine Rel.step (by apply rel_Dev_pauseRx) ?_ ?_ | split | intro _ | dsimp only

theorem rel_Dev_l0pWidth (d : Dev) (p : Nat) (w : Nat) : Rel 128 d (Dev.l0pWidth d p w) := by
  unfold Dev.l0pWidth
  with_reducible repeat' first | assumption | decide | rfl | refine Rel.step (by apply rel_Dev_setHifPort) ?_ ?_ | refine Rel.ite ?_ ?_ | split | intro _ | dsimp only

theorem rel_Dev_macsecRx (d : Dev) (p : Nat) (f : List Byte) : Rel 33554433 d (Dev.macsecRx d p f).2 := by
  unfold Dev.macsecRx
  with_reducible repeat' first | assumption | decide | rfl | refine Rel.step (by apply rel_Dev_setSecY) ?_ ?_ | refine Rel.step (by apply rel_Dev_count) ?_ ?_ | refine Rel.ite ?_ ?_ | split | intro _ | dsimp only
theorem rel_Dev_macsecRx' {d : Dev} {p : Nat} {f : List Byte} {p0 : Option (List Byte)} {p1 : Dev} (h : Dev.macsecRx d p f = (p0, p1)) : Rel 33554433 d p1 := by
  have k := rel_Dev_macsecRx d p f
  rw [h] at k
  exact k

theorem rel_Dev_macAdmit (d : Dev) (p : Nat) (f : List Byte) (n : Nat) : Rel 4329046021 d (Dev.macAdmit d p f n) := by
  unfold Dev.macAdmit
  with_reducible repeat' first | assumption | decide | rfl | refine Rel.getD ?_ ?_ | exact OptRel.none | refine OptRel.some ?_ | refine OptRel.ite ?_ ?_ | refine OptRel.mapD (fun _ => ?_) ?_ | refine OptRel.map (fun _ => ?_) | refine OptRel.bindD (fun _ => ?_) ?_ | refine OptRel.bind (fun _ => ?_) | refine Rel.step (by apply rel_Dev_pcount) ?_ ?_ | refine Rel.step (by apply rel_Dev_pauseCheck) ?_ ?_ | refine Rel.step (by apply rel_Dev_freePkt) ?_ ?_ | refine Rel.step (by apply rel_Dev_macsecRx) ?_ ?_ | refine Rel.step (by apply rel_Dev_macsecRx'; assumption) ?_ ?_ | refine OptRel.step (by apply rel_Dev_resizePkt) ?_ ?_ | refine Rel.step (by apply OptRel.use; assumption; apply rel_Dev_resizePkt) ?_ ?_ | refine Rel.step (by apply rel_Dev_rxCountOk) ?_ ?_ | refine Rel.step (by apply rel_Dev_setSquare) ?_ ?_ | split | intro _ | dsimp only

theorem rel_Dev_wakeCheck (d : Dev) (p : Nat) (f : List Byte) : Rel 6442975489 d (Dev.wakeCheck d p f) := by
  unfold Dev.wakeCheck
  with_reducible repeat' first | assumption | decide | rfl | refine Rel.foldl (fun _ _ => ?_) ?_ | refine Rel.foldl1 (fun _ _ => ?_) ?_ | refine Rel.foldl2 (fun _ _ => ?_) ?_ | refine Rel.step (by apply rel_Dev_wakeFrom) ?_ ?_ | refine Rel.step (by apply rel_Dev_pcount) ?_ ?_ | refine Rel.step (by apply rel_Dev_setBit) ?_ ?_ | refine Rel.step (by apply rel_Dev_pme) ?_ ?_ | refine Rel.ite ?_ ?_ | split | intro _ | dsimp only

theorem rel_Dev_macRx (d : Dev) (p : Nat) (frame : List Byte) (phy : RxPhy) : Rel 6476529925 d (Dev.macRx d p frame phy) := by
  unfold Dev.macRx
  with_reducible repeat' first | assumption | decide | rfl | refine Rel.foldl (fun _ _ => ?_) ?_ | refine Rel.foldl1 (fun _ _ => ?_) ?_ | refine Rel.foldl2 (fun _ _ => ?_) ?_ | refine Rel.step (by apply rel_Dev_dimRx) ?_ ?_ | refine Rel.step (by apply rel_Dev_pcount) ?_ ?_ | refine Rel.step (by apply rel_Dev_macAdmit) ?_ ?_ | refine Rel.step (by apply rel_Dev_wakeCheck) ?_ ?_ | refine Rel.step (by apply rel_Dev_ctlRx) ?_ ?_ | refine Rel.step (by apply rel_Dev_rxCountOk) ?_ ?_ | refine Rel.ite ?_ ?_ | split | intro _ | dsimp only

theorem rel_Dev_ttStart (d : Dev) (p : Nat) (c : Nat) (w : Nat) : Rel 1073741825 d (Dev.ttStart d p c w) := by
  unfold Dev.ttStart
  with_reducible repeat' first | assumption | decide | rfl | refine Rel.step (by apply rel_Dev_setReg) ?_ ?_ | refine Rel.step (by apply rel_Dev_setTt) ?_ ?_ | refine Rel.step (by apply rel_Dev_count) ?_ ?_ | refine Rel.ite ?_ ?_ | split | intro _ | dsimp only

theorem rel_Dev_txqDel (d : Dev) (p : Nat) (tok : Nat) : Rel 524288 d (Dev.txqDel d p tok) := by
  unfold Dev.txqDel
  with_reducible repeat' first | assumption | decide | rfl | refine Rel.step (by apply rel_Dev_setNetPort) ?_ ?_ | split | intro _ | dsimp only

theorem rel_Dev_txGone (d : Dev) (p : Nat) (tok : Nat) (k : Packet) (d2 : Dword) (d3 : Nat) (bad : Option (Nat × Nat)) : Rel 4295524356 d (Dev.txGone d p tok k d2 d3 bad) := by
  unfold Dev.txGone
  with_reducible repeat' first | assumption | decide | rfl | refine Rel.step (by apply rel_Dev_frameGone) ?_ ?_ | refine Rel.step (by apply rel_Dev_freePkt) ?_ ?_ | refine Rel.step (by apply rel_Dev_txqDel) ?_ ?_ | split | intro _ | dsimp only

theorem rel_Dev_txtsLatch (d : Dev) (p : Nat) (f : List Byte) (o : Nat) (sec : Nat) (ns : Nat) : Rel 1073741825 d (Dev.txtsLatch d p f o sec ns) := by
  unfold Dev.txtsLatch
  with_reducible repeat' first | assumption | decide | rfl | refine Rel.step (by apply rel_Dev_setReg) ?_ ?_ | refine Rel.step (by apply rel_Dev_setTime) ?_ ?_ | split | intro _ | dsimp only

theorem rel_Dev_macsecTx (d : Dev) (p : Nat) (f : List Byte) : Rel 4328587649 d (Dev.macsecTx d p f).2 := by
  unfold Dev.macsecTx
  with_reducible repeat' first | assumption | decide | rfl | refine Rel.step (by apply rel_Dev_setSecY) ?_ ?_ | refine Rel.step (by apply rel_Dev_cryEvent) ?_ ?_ | refine Rel.step (by apply rel_Dev_count) ?_ ?_ | refine Rel.ite ?_ ?_ | split | intro _ | dsimp only
theorem rel_Dev_macsecTx' {d : Dev} {p : Nat} {f : List Byte} {p0 : Option (List Byte)} {p1 : Dev} (h : Dev.macsecTx d p f = (p0, p1)) : Rel 4328587649 d p1 := by
  have k := rel_Dev_macsecTx d p f
  rw [h] at k
  exact k

theorem rel_Dev_macSend (d : Dev) (p : Nat) (tok : Nat) (k : Packet) (ue : Bool) : Rel 5402886533 d (Dev.macSend d p tok k ue) := by
  unfold Dev.macSend
  with_reducible repeat' first | assumption | decide | rfl | refine Rel.step (by apply rel_Dev_ttStart) ?_ ?_ | refine Rel.step (by apply rel_Dev_pcount) ?_ ?_ | refine Rel.step (by apply rel_Dev_txCountOk) ?_ ?_ | refine Rel.step (by apply rel_Dev_txGone) ?_ ?_ | refine Rel.step (by apply rel_Dev_txtsLatch) ?_ ?_ | refine Rel.step (by apply rel_Dev_macsecTx) ?_ ?_ | refine Rel.step (by apply rel_Dev_macsecTx'; assumption) ?_ ?_ | refine Rel.step (by apply rel_Dev_emit) ?_ ?_ | refine Rel.ite ?_ ?_ | split | intro _ | dsimp only

theorem rel_Dev_macTx (d : Dev) (p : Nat) (ue : Bool) : Rel 5402886533 d (Dev.macTx d p ue) := by
  unfold Dev.macTx
  with_reducible repeat' first | assumption | decide | rfl | refine Rel.step (by apply rel_Dev_macSend) ?_ ?_ | refine Rel.step (by apply rel_Dev_pcount) ?_ ?_ | refine Rel.step (by apply rel_Dev_txqDel) ?_ ?_ | refine Rel.step (by apply rel_Dev_txGone) ?_ ?_ | refine Rel.step (by apply rel_Dev_count) ?_ ?_ | refine Rel.ite ?_ ?_ | split | intro _ | dsimp only

theorem rel_Dev_pauseArrive (d : Dev) (p : Nat) (pfc : Bool) (en : Nat) (quanta : List Nat) : Rel 6476529925 d (Dev.pauseArrive d p pfc en quanta) := by
  unfold Dev.pauseArrive
  with_reducible repeat' first | assumption | decide | rfl | refine Rel.step (by apply rel_Dev_macRx) ?_ ?_ | refine Rel.ite ?_ ?_ | split | intro _ | dsimp only

theorem rel_Dev_rxFramePlace (d : Dev) (tok : Nat) (xlat : Bool) : Rel 4564242317 d (Dev.rxFramePlace d tok xlat) := by
  unfold Dev.rxFramePlace
  with_reducible repeat' first | assumption | decide | rfl | refine Rel.elim ?_ (fun _ => ?_) | refine Rel.step (by apply rel_Dev_dropPkt) ?_ ?_ | refine Rel.step (by apply rel_Dev_rxPlace) ?_ ?_ | refine Rel.step (by apply rel_Dev_rxPlace'; assumption) ?_ ?_ | refine Rel.step (by apply rel_Dev_excTaken) ?_ ?_ | refine Rel.step (by apply rel_Dev_count) ?_ ?_ | split | intro _ | dsimp only

theorem rel_Dev_svbArrive (d : Dev) (f : List Byte) (good : Bool) : Rel 6708780527 d (Dev.svbArrive d f good) := by
  unfold Dev.svbArrive
  with_reducible repeat' first | assumption | decide | rfl | refine Rel.step (by apply rel_Dev_svbRx) ?_ ?_ | refine Rel.step (by apply rel_Dev_svbRx'; assumption) ?_ ?_ | refine Rel.step (by apply rel_Dev_fabRx) ?_ ?_ | refine Rel.ite ?_ ?_ | split | intro _ | dsimp only

theorem rel_execCrossingClassify (tok : Nat) (resultUe : List Nat) (s : State) {u : State} (h : execCrossingClassify tok resultUe s = .next u) : Rel 6708780527 s.dev u.dev := by
  refine run_rel (fun _ => ?_) h
  with_reducible repeat' first | assumption | decide | rfl | refine Rel.step (by apply rel_Dev_classifyAll) ?_ ?_ | intro _ | dsimp only

theorem rel_execL0pWidthChange (p : Nat) (width : Nat) (s : State) {u : State} (h : execL0pWidthChange p width s = .next u) : Rel 128 s.dev u.dev := by
  refine run_rel (fun _ => ?_) h
  with_reducible repeat' first | assumption | decide | rfl | refine Rel.step (by apply rel_Dev_l0pWidth) ?_ ?_ | intro _ | dsimp only

theorem rel_execMacRxFrame (p : Nat) (frame : List Byte) (phy : RxPhy) (s : State) {u : State} (h : execMacRxFrame p frame phy s = .next u) : Rel 6476529925 s.dev u.dev := by
  refine run_rel (fun _ => ?_) h
  with_reducible repeat' first | assumption | decide | rfl | refine Rel.step (by apply rel_Dev_macRx) ?_ ?_ | intro _ | dsimp only

theorem rel_execMacTxFrame (p : Nat) (ue : Bool) (s : State) {u : State} (h : execMacTxFrame p ue s = .next u) : Rel 5402886533 s.dev u.dev := by
  refine run_rel (fun _ => ?_) h
  with_reducible repeat' first | assumption | decide | rfl | refine Rel.step (by apply rel_Dev_macTx) ?_ ?_ | intro _ | dsimp only

theorem rel_execPauseFrameRx (p : Nat) (pfc : Bool) (enable : Nat) (quanta : List Nat) (s : State) {u : State} (h : execPauseFrameRx p pfc enable quanta s = .next u) : Rel 6476529925 s.dev u.dev := by
  refine run_rel (fun _ => ?_) h
  with_reducible repeat' first | assumption | decide | rfl | refine Rel.step (by apply rel_Dev_pauseArrive) ?_ ?_ | intro _ | dsimp only

theorem rel_execRxFramePlace (tok : Nat) (xlatFault : Bool) (s : State) {u : State} (h : execRxFramePlace tok xlatFault s = .next u) : Rel 4564242317 s.dev u.dev := by
  refine run_rel (fun _ => ?_) h
  with_reducible repeat' first | assumption | decide | rfl | refine Rel.step (by apply rel_Dev_rxFramePlace) ?_ ?_ | intro _ | dsimp only

theorem rel_execSvbRxFrame (frame : List Byte) (good : Bool) (s : State) {u : State} (h : execSvbRxFrame frame good s = .next u) : Rel 6708780527 s.dev u.dev := by
  refine runAon_rel (fun _ => ?_) h
  with_reducible repeat' first | assumption | decide | rfl | refine Rel.step (by apply rel_Dev_svbArrive) ?_ ?_ | intro _ | dsimp only

end Sys2Proof.Laws
end

