-- ==== Sys2Proof/Laws/Frames/Mgmt.lean ====
section
/-! SUPPORT. What each function of Machine/Mgmt.lean may change. -/

set_option linter.unusedTactic false
set_option linter.unreachableTactic false

namespace Sys2Proof.Laws

open Sys2Proof Sys2Proof.Machine

theorem rel_Dev_bootStat (d : Dev) (ok : Bool) : Rel 1 d (Dev.bootStat d ok) := by
  unfold Dev.bootStat
  with_reducible repeat' first | assumption | decide | rfl | refine Rel.step (by apply rel_Dev_setReg) ?_ ?_ | split | intro _ | dsimp only

theorem rel_Dev_zeroKeys (d : Dev) : Rel 33554434 d (Dev.zeroKeys d) := by
  unfold Dev.zeroKeys
  with_reducible repeat' first | assumption | decide | rfl | refine Rel.foldl (fun _ _ => ?_) ?_ | refine Rel.foldl1 (fun _ _ => ?_) ?_ | refine Rel.foldl2 (fun _ _ => ?_) ?_ | refine Rel.step (by apply rel_Dev_zeroSlot) ?_ ?_ | refine Rel.step (by apply rel_Dev_setCry) ?_ ?_ | split | intro _ | dsimp only

theorem rel_Dev_debugAuth (d : Dev) (key : List Byte) (sig : List Byte) (challenge : List Byte) : Rel 570425347 d (Dev.debugAuth d key sig challenge) := by
  unfold Dev.debugAuth
  with_reducible repeat' first | assumption | decide | rfl | refine Rel.step (by apply rel_Dev_bootStat) ?_ ?_ | refine Rel.step (by apply rel_Dev_setMgt) ?_ ?_ | refine Rel.step (by apply rel_Dev_zeroKeys) ?_ ?_ | refine Rel.ite ?_ ?_ | split | intro _ | dsimp only

theorem rel_Dev_dropSession (d : Dev) (id : Nat) : Rel 536870912 d (Dev.dropSession d id) := by
  unfold Dev.dropSession
  with_reducible repeat' first | assumption | decide | rfl | refine Rel.step (by apply rel_Dev_setMgt) ?_ ?_ | split | intro _ | dsimp only

theorem rel_Dev_fillHashKeys (d : Dev) : Rel 17180917761 d (Dev.fillHashKeys d) := by
  unfold Dev.fillHashKeys
  with_reducible repeat' first | assumption | decide | rfl | refine Rel.foldl (fun _ _ => ?_) ?_ | refine Rel.foldl1 (fun _ _ => ?_) ?_ | refine Rel.foldl2 (fun _ _ => ?_) ?_ | refine Rel.step (by apply rel_Dev_setReg) ?_ ?_ | refine Rel.step (by apply rel_Dev_draw) ?_ ?_ | refine Rel.step (by apply rel_Dev_draw'; assumption) ?_ ?_ | simp only [Nat.reduceAnd, Rel.u_cls] | split | intro _ | dsimp only

theorem rel_Dev_firmwareReady (d : Dev) (cores : List (Nat × List Byte)) (crossing : Option (List Byte)) (regs : List (Nat × Word))
    (lock entropy : Bool) : Rel 17755537425 d (Dev.firmwareReady d cores crossing regs lock entropy) := by
  unfold Dev.firmwareReady
  refine Rel.ite (Rel.refl _ _) ?_
  split
  · exact Rel.step (rel_Dev_bootStat ..) (by decide) (Rel.mono (rel_Dev_setMgt ..) (by decide))
  · refine Rel.step (rel_Dev_bootStat ..) (by decide) (Rel.step (rel_Dev_setBit ..) (by decide) ?_)
    have key : ∀ x, Rel 17755537425 d x → Rel 17755537425 d (if lock = true then Dev.setBit (regs.foldl (fun d r => d.setReg r.1 r.2) ((x.rngStart entropy).fillHashKeys)) Reg.WKT_LOCK 0
        else regs.foldl (fun d r => d.setReg r.1 r.2) ((x.rngStart entropy).fillHashKeys)) := by
      intro x hx
      have k : Rel 17755537425 d (regs.foldl (fun d r => d.setReg r.1 r.2) ((x.rngStart entropy).fillHashKeys)) :=
        Rel.foldl (fun _ _ => Rel.mono (rel_Dev_setReg ..) (by decide))
          (Rel.step (rel_Dev_fillHashKeys ..) (by decide) (Rel.step (rel_Dev_rngStart ..) (by decide) hx))
      exact Rel.ite (Rel.step (rel_Dev_setBit ..) (by decide) k) k
    refine key _ ?_
    have k0 : Rel 17755537425 d ((d.setMgt { d.mgt with ctlBank := d.mgt.bank, mixed := false }).setReg Reg.MGT_CTL_VER
        (BitVec.ofNat 32 ((kvFind 4 (d.bankAt d.mgt.bank).images).elim 0 FwImage.svn))) :=
      Rel.step (rel_Dev_setReg ..) (by decide) (Rel.mono (rel_Dev_setMgt ..) (by decide))
    split
    · exact (Rel.u_cls (by decide)).2 ((Rel.u_cpu (by decide)).2 ((Rel.u_planes (by decide)).2 k0))
    · exact (Rel.u_cpu (by decide)).2 ((Rel.u_planes (by decide)).2 k0)

theorem rel_Dev_mctp (d : Dev) (port : Nat) (type : Nat) (data : List Byte) : Rel 4294967296 d (Dev.mctp d port type data) := by
  unfold Dev.mctp
  with_reducible repeat' first | assumption | decide | rfl | refine Rel.step (by apply rel_Dev_emit) ?_ ?_ | refine Rel.ite ?_ ?_ | split | intro _ | dsimp only

theorem rel_Dev_getEid (d : Dev) (port : Nat) : Rel 4294967296 d (Dev.getEid d port) := by
  unfold Dev.getEid
  with_reducible repeat' first | assumption | decide | rfl | refine Rel.step (by apply rel_Dev_mctp) ?_ ?_ | split | intro _ | dsimp only

theorem rel_Dev_getTypes (d : Dev) (port : Nat) : Rel 4294967296 d (Dev.getTypes d port) := by
  unfold Dev.getTypes
  with_reducible repeat' first | assumption | decide | rfl | refine Rel.step (by apply rel_Dev_mctp) ?_ ?_ | split | intro _ | dsimp only

theorem rel_Dev_getUuid (d : Dev) (port : Nat) : Rel 4294967296 d (Dev.getUuid d port) := by
  unfold Dev.getUuid
  with_reducible repeat' first | assumption | decide | rfl | refine Rel.step (by apply rel_Dev_mctp) ?_ ?_ | split | intro _ | dsimp only

theorem rel_Dev_getVendor (d : Dev) (port : Nat) (selector : Nat) : Rel 4294967296 d (Dev.getVendor d port selector) := by
  unfold Dev.getVendor
  with_reducible repeat' first | assumption | decide | rfl | refine Rel.step (by apply rel_Dev_mctp) ?_ ?_ | refine Rel.ite ?_ ?_ | split | intro _ | dsimp only

theorem rel_Dev_getVersions (d : Dev) (port : Nat) (type : Nat) : Rel 4294967296 d (Dev.getVersions d port type) := by
  unfold Dev.getVersions
  with_reducible repeat' first | assumption | decide | rfl | refine Rel.step (by apply rel_Dev_mctp) ?_ ?_ | refine Rel.ite ?_ ?_ | split | intro _ | dsimp only

theorem rel_Dev_jtagInst (d : Dev) (i : JtagInst) : Rel 4831838208 d (Dev.jtagInst d i) := by
  unfold Dev.jtagInst
  with_reducible repeat' first | assumption | decide | rfl | refine Rel.step (by apply rel_Dev_setMgt) ?_ ?_ | refine Rel.step (by apply rel_Dev_emit) ?_ ?_ | refine Rel.ite ?_ ?_ | split | intro _ | dsimp only

theorem rel_Dev_romBoot (d : Dev) : Rel 536870913 d (Dev.romBoot d) := by
  unfold Dev.romBoot
  with_reducible repeat' first | assumption | decide | rfl | refine Rel.elim ?_ (fun _ => ?_) | refine Rel.step (by apply rel_Dev_setReg) ?_ ?_ | refine Rel.step (by apply rel_Dev_bootStat) ?_ ?_ | refine Rel.step (by apply rel_Dev_setMgt) ?_ ?_ | split | intro _ | dsimp only

theorem rel_Dev_mgmtRestarted (d : Dev) : Rel 536870929 d (Dev.mgmtRestarted d) := by
  unfold Dev.mgmtRestarted
  with_reducible repeat' first | assumption | decide | rfl | refine Rel.step (by apply rel_Dev_romBoot) ?_ ?_ | refine Rel.step (by apply rel_Dev_bootStat) ?_ ?_ | refine Rel.step (by apply rel_Dev_setMgt) ?_ ?_ | refine Rel.ite ?_ ?_ | simp only [Nat.reduceAnd, Rel.u_planes] | split | intro _ | dsimp only

theorem rel_Dev_pldmActivate (d : Dev) (port : Nat) : Rel 4831838224 d (Dev.pldmActivate d port) := by
  unfold Dev.pldmActivate
  with_reducible repeat' first | assumption | decide | rfl | refine Rel.step (by apply rel_Dev_mctp) ?_ ?_ | refine Rel.step (by apply rel_Dev_setMgt) ?_ ?_ | refine Rel.ite ?_ ?_ | simp only [Nat.reduceAnd, Rel.u_planes] | split | intro _ | dsimp only

theorem rel_Dev_pldmSensor (d : Dev) (port : Nat) (id : Nat) : Rel 4294967296 d (Dev.pldmSensor d port id) := by
  unfold Dev.pldmSensor
  with_reducible repeat' first | assumption | decide | rfl | refine Rel.step (by apply rel_Dev_mctp) ?_ ?_ | refine Rel.ite ?_ ?_ | split | intro _ | dsimp only

theorem rel_Dev_setFwBank (d : Dev) (b : Nat) (x : FwBank) : Rel 536870912 d (Dev.setFwBank d b x) := by
  unfold Dev.setFwBank
  with_reducible repeat' first | assumption | decide | rfl | refine Rel.step (by apply rel_Dev_setMgt) ?_ ?_ | split | intro _ | dsimp only

theorem rel_Dev_stageImages (d : Dev) (b : Nat) (x2 : List FwImage) : OptRel 536870912 d (Dev.stageImages d b x2) := by
  induction x2 generalizing d b with
  | nil => unfold Dev.stageImages; with_reducible repeat' first | assumption | decide | rfl | refine Rel.getD ?_ ?_ | exact OptRel.none | refine OptRel.some ?_ | refine OptRel.ite ?_ ?_ | refine OptRel.mapD (fun _ => ?_) ?_ | refine OptRel.map (fun _ => ?_) | refine OptRel.bindD (fun _ => ?_) ?_ | refine OptRel.bind (fun _ => ?_) | refine Rel.step (by apply rel_Dev_setFwBank) ?_ ?_ | refine Rel.ite ?_ ?_ | split | intro _ | dsimp only
  | cons y r ih => unfold Dev.stageImages; with_reducible repeat' first | assumption | decide | rfl | refine Rel.getD ?_ ?_ | exact OptRel.none | refine OptRel.some ?_ | refine OptRel.ite ?_ ?_ | refine OptRel.mapD (fun _ => ?_) ?_ | refine OptRel.map (fun _ => ?_) | refine OptRel.bindD (fun _ => ?_) ?_ | refine OptRel.bind (fun _ => ?_) | refine OptRel.step (by apply ih) ?_ ?_ | refine Rel.step (by apply rel_Dev_setFwBank) ?_ ?_ | refine Rel.ite ?_ ?_ | split | intro _ | dsimp only

theorem rel_Dev_pldmUpdate (d : Dev) (port : Nat) (comps : List (List Byte × List Byte)) (certs : Option (List (List Byte))) : Rel 4831904129 d (Dev.pldmUpdate d port comps certs) := by
  unfold Dev.pldmUpdate
  with_reducible repeat' first | assumption | decide | rfl | refine Rel.getD ?_ ?_ | exact OptRel.none | refine OptRel.some ?_ | refine OptRel.ite ?_ ?_ | refine OptRel.mapD (fun _ => ?_) ?_ | refine OptRel.map (fun _ => ?_) | refine OptRel.bindD (fun _ => ?_) ?_ | refine OptRel.bind (fun _ => ?_) | refine Rel.foldl (fun _ _ => ?_) ?_ | refine Rel.foldl1 (fun _ _ => ?_) ?_ | refine Rel.foldl2 (fun _ _ => ?_) ?_ | refine OptRel.step (by apply rel_Dev_stageImages) ?_ ?_ | refine Rel.step (by apply OptRel.use; assumption; apply rel_Dev_stageImages) ?_ ?_ | refine Rel.step (by apply rel_Dev_setBit) ?_ ?_ | refine Rel.step (by apply rel_Dev_pfEvent) ?_ ?_ | refine Rel.step (by apply rel_Dev_setFwBank) ?_ ?_ | refine Rel.step (by apply rel_Dev_emit) ?_ ?_ | refine Rel.ite ?_ ?_ | split | intro _ | dsimp only

theorem rel_Dev_putSession (d : Dev) (s : SpdmSession) : Rel 536870912 d (Dev.putSession d s) := by
  unfold Dev.putSession
  with_reducible repeat' first | assumption | decide | rfl | refine Rel.step (by apply rel_Dev_setMgt) ?_ ?_ | refine Rel.ite ?_ ?_ | split | intro _ | dsimp only

theorem rel_Dev_thermTrip (d : Dev) : Rel 6442450944 d (Dev.thermTrip d) := by
  unfold Dev.thermTrip
  with_reducible repeat' first | assumption | decide | rfl | refine Rel.step (by apply rel_Dev_emit) ?_ ?_ | refine Rel.ite ?_ ?_ | simp only [Nat.reduceAnd, Rel.u_pwr] | split | intro _ | dsimp only

theorem rel_Dev_thermal (d : Dev) (s : Nat) (level : Nat) : Rel 4295033217 d (Dev.thermal d s level) := by
  unfold Dev.thermal
  with_reducible repeat' first | assumption | decide | rfl | refine Rel.step (by apply rel_Dev_pfEvent) ?_ ?_ | split | intro _ | dsimp only

theorem rel_Dev_tempSet (d : Dev) (i : Nat) (t : Int) : Rel 6979387777 d (Dev.tempSet d i t) := by
  unfold Dev.tempSet
  with_reducible repeat' first | assumption | decide | rfl | refine Rel.step (by apply rel_Dev_setReg) ?_ ?_ | refine Rel.step (by apply rel_Dev_setBit) ?_ ?_ | refine Rel.step (by apply rel_Dev_thermTrip) ?_ ?_ | refine Rel.step (by apply rel_Dev_thermal) ?_ ?_ | refine Rel.step (by apply rel_Dev_setMgt) ?_ ?_ | refine Rel.ite ?_ ?_ | split | intro _ | dsimp only

theorem rel_Dev_sensorSample (d : Dev) (temps : List Int) (powers : List Nat) : Rel 6979387777 d (Dev.sensorSample d temps powers) := by
  unfold Dev.sensorSample
  with_reducible repeat' first | assumption | decide | rfl | refine Rel.foldl (fun _ _ => ?_) ?_ | refine Rel.foldl1 (fun _ _ => ?_) ?_ | refine Rel.foldl2 (fun _ _ => ?_) ?_ | refine Rel.step (by apply rel_Dev_setReg) ?_ ?_ | refine Rel.step (by apply rel_Dev_thermTrip) ?_ ?_ | refine Rel.step (by apply rel_Dev_setMgt) ?_ ?_ | refine Rel.step (by apply rel_Dev_tempSet) ?_ ?_ | refine Rel.ite ?_ ?_ | split | intro _ | dsimp only

theorem rel_Dev_setEid (d : Dev) (port : Nat) (op : Nat) (eid : Nat) : Rel 4294967297 d (Dev.setEid d port op eid) := by
  unfold Dev.setEid
  with_reducible repeat' first | assumption | decide | rfl | refine Rel.step (by apply rel_Dev_setReg) ?_ ?_ | refine Rel.step (by apply rel_Dev_mctp) ?_ ?_ | refine Rel.ite ?_ ?_ | split | intro _ | dsimp only

theorem rel_Dev_setSpdm (d : Dev) (port : Nat) (n : Nat) : Rel 536870912 d (Dev.setSpdm d port n) := by
  unfold Dev.setSpdm
  with_reducible repeat' first | assumption | decide | rfl | refine Rel.step (by apply rel_Dev_setMgt) ?_ ?_ | split | intro _ | dsimp only

theorem rel_Dev_spdmSay (d : Dev) (port : Nat) (code : Nat) (p1 : Nat) (p2 : Nat) (data : List Byte) : Rel 4831838208 d (Dev.spdmSay d port code p1 p2 data) := by
  unfold Dev.spdmSay
  with_reducible repeat' first | assumption | decide | rfl | refine Rel.step (by apply rel_Dev_mctp) ?_ ?_ | refine Rel.step (by apply rel_Dev_setMgt) ?_ ?_ | refine Rel.ite ?_ ?_ | split | intro _ | dsimp only

theorem rel_Dev_spdmErr (d : Dev) (port : Nat) (err : Nat) : Rel 4831838208 d (Dev.spdmErr d port err) := by
  unfold Dev.spdmErr
  with_reducible repeat' first | assumption | decide | rfl | refine Rel.step (by apply rel_Dev_spdmSay) ?_ ?_ | split | intro _ | dsimp only

theorem rel_Dev_spdmNeed {m : Nat} {d : Dev} {port : Nat} {stage : Nat} {act : Dev → Dev} (hm : 4831838208 &&& m = 4831838208) (hf : ∀ d, Rel m d (act d)) : Rel m d (Dev.spdmNeed d port stage act) := by
  unfold Dev.spdmNeed
  with_reducible repeat' first | assumption | decide | rfl | (apply Rel.trans; swap; apply hf) | refine Rel.step2 hm (by apply rel_Dev_spdmErr) ?_ ?_ | refine Rel.ite ?_ ?_ | split | intro _ | dsimp only

theorem rel_Dev_spdmAlgs (d : Dev) (port : Nat) (base : Nat) (hash : Nat) (dhe : Nat) (aead : Nat) : Rel 4831838208 d (Dev.spdmAlgs d port base hash dhe aead) := by
  unfold Dev.spdmAlgs
  with_reducible repeat' first | assumption | decide | rfl | refine Rel.step (by apply rel_Dev_spdmSay) ?_ ?_ | refine Rel.step (by apply rel_Dev_spdmErr) ?_ ?_ | refine Rel.step (by apply rel_Dev_setSpdm) ?_ ?_ | (apply Rel.trans; swap; apply rel_Dev_spdmNeed) | refine Rel.ite ?_ ?_ | split | intro _ | dsimp only

theorem rel_Dev_spdmCaps (d : Dev) (port : Nat) (version : Nat) : Rel 4831838208 d (Dev.spdmCaps d port version) := by
  unfold Dev.spdmCaps
  with_reducible repeat' first | assumption | decide | rfl | refine Rel.step (by apply rel_Dev_spdmSay) ?_ ?_ | refine Rel.step (by apply rel_Dev_spdmErr) ?_ ?_ | refine Rel.step (by apply rel_Dev_setSpdm) ?_ ?_ | (apply Rel.trans; swap; apply rel_Dev_spdmNeed) | refine Rel.ite ?_ ?_ | split | intro _ | dsimp only

theorem rel_Dev_spdmCert (d : Dev) (port : Nat) (slot : Nat) (off : Nat) (len : Nat) : Rel 4831838208 d (Dev.spdmCert d port slot off len) := by
  unfold Dev.spdmCert
  with_reducible repeat' first | assumption | decide | rfl | refine Rel.step (by apply rel_Dev_spdmSay) ?_ ?_ | refine Rel.step (by apply rel_Dev_spdmErr) ?_ ?_ | (apply Rel.trans; swap; apply rel_Dev_spdmNeed) | refine Rel.ite ?_ ?_ | split | intro _ | dsimp only

theorem rel_Dev_spdmChallenge (d : Dev) (port : Nat) (slot : Nat) (nonce : List Byte) : Rel 22011707392 d (Dev.spdmChallenge d port slot nonce) := by
  unfold Dev.spdmChallenge
  with_reducible repeat' first | assumption | decide | rfl | refine Rel.step (by apply rel_Dev_spdmSay) ?_ ?_ | refine Rel.step (by apply rel_Dev_spdmErr) ?_ ?_ | (apply Rel.trans; swap; apply rel_Dev_spdmNeed) | refine Rel.step (by apply rel_Dev_draw) ?_ ?_ | refine Rel.step (by apply rel_Dev_draw'; assumption) ?_ ?_ | refine Rel.ite ?_ ?_ | split | intro _ | dsimp only

theorem rel_Dev_spdmChunkGet (d : Dev) (port : Nat) (seq : Nat) : Rel 4831838208 d (Dev.spdmChunkGet d port seq) := by
  unfold Dev.spdmChunkGet
  with_reducible repeat' first | assumption | decide | rfl | refine Rel.step (by apply rel_Dev_spdmSay) ?_ ?_ | refine Rel.step (by apply rel_Dev_spdmErr) ?_ ?_ | refine Rel.step (by apply rel_Dev_setMgt) ?_ ?_ | (apply Rel.trans; swap; apply rel_Dev_spdmNeed) | refine Rel.ite ?_ ?_ | split | intro _ | dsimp only

theorem rel_Dev_spdmChunkSend (d : Dev) (port : Nat) (seq : Nat) (last : Bool) (data : List Byte) : Rel 4831838208 d (Dev.spdmChunkSend d port seq last data) := by
  unfold Dev.spdmChunkSend
  with_reducible repeat' first | assumption | decide | rfl | refine Rel.step (by apply rel_Dev_spdmSay) ?_ ?_ | refine Rel.step (by apply rel_Dev_spdmErr) ?_ ?_ | refine Rel.step (by apply rel_Dev_setMgt) ?_ ?_ | (apply Rel.trans; swap; apply rel_Dev_spdmNeed) | refine Rel.ite ?_ ?_ | split | intro _ | dsimp only

theorem rel_Dev_spdmDigests (d : Dev) (port : Nat) : Rel 4831838208 d (Dev.spdmDigests d port) := by
  unfold Dev.spdmDigests
  with_reducible repeat' first | assumption | decide | rfl | refine Rel.step (by apply rel_Dev_spdmSay) ?_ ?_ | (apply Rel.trans; swap; apply rel_Dev_spdmNeed) | split | intro _ | dsimp only

theorem rel_Dev_spdmSession {m : Nat} {d : Dev} {port : Nat} {id : Nat} {up : Bool} {act : SpdmSession → Dev}
    (hm : 4831838208 &&& m = 4831838208) (hf : ∀ x, Rel m d (act x)) : Rel m d (Dev.spdmSession d port id up act) := by
  unfold Dev.spdmSession Dev.spdmNeed
  with_reducible repeat' first | assumption | decide | rfl | apply hf | refine Rel.step2 hm (by apply rel_Dev_spdmErr) ?_ ?_ | refine Rel.ite ?_ ?_ | split | dsimp only

theorem rel_Dev_spdmEnd (d : Dev) (port : Nat) (id : Nat) : Rel 4831838208 d (Dev.spdmEnd d port id) := by
  unfold Dev.spdmEnd
  with_reducible repeat' first | assumption | decide | rfl | refine Rel.step (by apply rel_Dev_spdmSay) ?_ ?_ | refine Rel.step (by apply rel_Dev_dropSession) ?_ ?_ | (apply Rel.trans; swap; apply rel_Dev_spdmSession) | split | intro _ | dsimp only

theorem rel_Dev_spdmFinish (d : Dev) (port : Nat) (id : Nat) (verify : List Byte) : Rel 4831838208 d (Dev.spdmFinish d port id verify) := by
  unfold Dev.spdmFinish
  with_reducible repeat' first | assumption | decide | rfl | refine Rel.step (by apply rel_Dev_spdmSay) ?_ ?_ | refine Rel.step (by apply rel_Dev_spdmErr) ?_ ?_ | refine Rel.step (by apply rel_Dev_dropSession) ?_ ?_ | (apply Rel.trans; swap; apply rel_Dev_spdmSession) | refine Rel.step (by apply rel_Dev_putSession) ?_ ?_ | refine Rel.ite ?_ ?_ | split | intro _ | dsimp only

theorem rel_Dev_spdmHeartbeat (d : Dev) (port : Nat) (id : Nat) : Rel 4831838208 d (Dev.spdmHeartbeat d port id) := by
  unfold Dev.spdmHeartbeat
  with_reducible repeat' first | assumption | decide | rfl | refine Rel.step (by apply rel_Dev_spdmSay) ?_ ?_ | (apply Rel.trans; swap; apply rel_Dev_spdmSession) | split | intro _ | dsimp only

theorem rel_Dev_spdmKeyEx (d : Dev) (port : Nat) (slot : Nat) (exchange : List Byte) : Rel 22011707392 d (Dev.spdmKeyEx d port slot exchange) := by
  unfold Dev.spdmKeyEx
  with_reducible repeat' first | assumption | decide | rfl | refine Rel.step (by apply rel_Dev_spdmSay) ?_ ?_ | refine Rel.step (by apply rel_Dev_spdmErr) ?_ ?_ | refine Rel.step (by apply rel_Dev_setMgt) ?_ ?_ | (apply Rel.trans; swap; apply rel_Dev_spdmNeed) | refine Rel.step (by apply rel_Dev_draw) ?_ ?_ | refine Rel.step (by apply rel_Dev_draw'; assumption) ?_ ?_ | refine Rel.ite ?_ ?_ | split | intro _ | dsimp only

theorem rel_Dev_spdmKeyUpdate (d : Dev) (port : Nat) (id : Nat) (op : Nat) (tag : Nat) : Rel 4831838208 d (Dev.spdmKeyUpdate d port id op tag) := by
  unfold Dev.spdmKeyUpdate
  with_reducible repeat' first | assumption | decide | rfl | refine Rel.step (by apply rel_Dev_spdmSay) ?_ ?_ | refine Rel.step (by apply rel_Dev_spdmErr) ?_ ?_ | (apply Rel.trans; swap; apply rel_Dev_spdmSession) | refine Rel.step (by apply rel_Dev_putSession) ?_ ?_ | refine Rel.ite ?_ ?_ | split | intro _ | dsimp only

theorem rel_Dev_spdmMeasure (d : Dev) (port : Nat) (index : Nat) (sign : Bool) (nonce : List Byte) : Rel 4831838208 d (Dev.spdmMeasure d port index sign nonce) := by
  unfold Dev.spdmMeasure
  with_reducible repeat' first | assumption | decide | rfl | refine Rel.step (by apply rel_Dev_spdmSay) ?_ ?_ | refine Rel.step (by apply rel_Dev_spdmErr) ?_ ?_ | (apply Rel.trans; swap; apply rel_Dev_spdmNeed) | refine Rel.ite ?_ ?_ | split | intro _ | dsimp only

theorem rel_Dev_spdmVersion (d : Dev) (port : Nat) : Rel 4831838208 d (Dev.spdmVersion d port) := by
  unfold Dev.spdmVersion
  with_reducible repeat' first | assumption | decide | rfl | refine Rel.step (by apply rel_Dev_setSpdm) ?_ ?_ | refine Rel.step (by apply rel_Dev_mctp) ?_ ?_ | (apply Rel.trans; swap; apply rel_Dev_spdmNeed) | split | intro _ | dsimp only

theorem rel_execBootRomStart (s : State) {u : State} (h : execBootRomStart s = .next u) : Rel 536870913 s.dev u.dev := by
  refine runAon_rel (fun _ => ?_) h
  with_reducible repeat' first | assumption | decide | rfl | refine Rel.step (by apply rel_Dev_romBoot) ?_ ?_ | refine Rel.ite ?_ ?_ | intro _ | dsimp only

theorem rel_execDebugAuthChallenge (key : List Byte) (sig : List Byte) (challenge : List Byte) (s : State) {u : State} (h : execDebugAuthChallenge key sig challenge s = .next u) : Rel 570425347 s.dev u.dev := by
  refine runAon_rel (fun _ => ?_) h
  with_reducible repeat' first | assumption | decide | rfl | refine Rel.step (by apply rel_Dev_debugAuth) ?_ ?_ | intro _ | dsimp only

theorem rel_execFirmwareReady (cores : List (Nat × List Byte)) (crossing : Option (List Byte)) (regs : List (Nat × Word)) (lock : Bool) (entropy : Bool) (s : State) {u : State} (h : execFirmwareReady cores crossing regs lock entropy s = .next u) : Rel 17755537425 s.dev u.dev := by
  refine run_rel (fun _ => ?_) h
  with_reducible repeat' first | assumption | decide | rfl | refine Rel.step (by apply rel_Dev_firmwareReady) ?_ ?_ | intro _ | dsimp only

theorem rel_execGetEndpointId (port : Nat) (s : State) {u : State} (h : execGetEndpointId port s = .next u) : Rel 4294967296 s.dev u.dev := by
  refine runAon_rel (fun _ => ?_) h
  with_reducible repeat' first | assumption | decide | rfl | refine Rel.step (by apply rel_Dev_getEid) ?_ ?_ | intro _ | dsimp only

theorem rel_execGetEndpointUuid (port : Nat) (s : State) {u : State} (h : execGetEndpointUuid port s = .next u) : Rel 4294967296 s.dev u.dev := by
  refine runAon_rel (fun _ => ?_) h
  with_reducible repeat' first | assumption | decide | rfl | refine Rel.step (by apply rel_Dev_getUuid) ?_ ?_ | intro _ | dsimp only

theorem rel_execGetMctpVersionSupport (port : Nat) (type : Nat) (s : State) {u : State} (h : execGetMctpVersionSupport port type s = .next u) : Rel 4294967296 s.dev u.dev := by
  refine runAon_rel (fun _ => ?_) h
  with_reducible repeat' first | assumption | decide | rfl | refine Rel.step (by apply rel_Dev_getVersions) ?_ ?_ | intro _ | dsimp only

theorem rel_execGetMessageTypeSupport (port : Nat) (s : State) {u : State} (h : execGetMessageTypeSupport port s = .next u) : Rel 4294967296 s.dev u.dev := by
  refine runAon_rel (fun _ => ?_) h
  with_reducible repeat' first | assumption | decide | rfl | refine Rel.step (by apply rel_Dev_getTypes) ?_ ?_ | intro _ | dsimp only

theorem rel_execGetVendorMessageSupport (port : Nat) (selector : Nat) (s : State) {u : State} (h : execGetVendorMessageSupport port selector s = .next u) : Rel 4294967296 s.dev u.dev := by
  refine runAon_rel (fun _ => ?_) h
  with_reducible repeat' first | assumption | decide | rfl | refine Rel.step (by apply rel_Dev_getVendor) ?_ ?_ | intro _ | dsimp only

theorem rel_execJtagInstruction (inst : JtagInst) (s : State) {u : State} (h : execJtagInstruction inst s = .next u) : Rel 4831838208 s.dev u.dev := by
  refine runAon_rel (fun _ => ?_) h
  with_reducible repeat' first | assumption | decide | rfl | refine Rel.step (by apply rel_Dev_jtagInst) ?_ ?_ | intro _ | dsimp only

theorem rel_execMgmtRestartDone (s : State) {u : State} (h : execMgmtRestartDone s = .next u) : Rel 536870929 s.dev u.dev := by
  refine runAon_rel (fun _ => ?_) h
  with_reducible repeat' first | assumption | decide | rfl | refine Rel.step (by apply rel_Dev_mgmtRestarted) ?_ ?_ | intro _ | dsimp only

theorem rel_mgtMeasureRead (e : AdmEntry) (d : Dev) : AdmRel 0 d (mgtMeasureRead e d) := by
  unfold mgtMeasureRead
  with_reducible repeat' first | assumption | decide | rfl | refine AdmRel.checks ?_ | exact AdmRel.fail | refine AdmRel.done ?_ | refine AdmRel.wait ?_ | refine AdmRel.ite ?_ ?_ | split | intro _ | dsimp only

theorem rel_execMgtMeasureRead (e : AdmEntry) (s : State) {u : State} (h : execMgtMeasureRead e s = .next u) : Rel 4295164320 s.dev u.dev := by
  refine run_rel (fun _ => ?_) h
  with_reducible repeat' first | assumption | decide | rfl | (apply Rel.trans; swap; apply rel_Dev_admRun) | refine AdmRel.step (by apply rel_mgtMeasureRead) ?_ ?_ | intro _ | dsimp only

theorem rel_mgtSvnCommit (e : AdmEntry) (d : Dev) : AdmRel 536870913 d (mgtSvnCommit e d) := by
  unfold mgtSvnCommit
  with_reducible repeat' first | assumption | decide | rfl | refine AdmRel.checks ?_ | exact AdmRel.fail | refine AdmRel.done ?_ | refine AdmRel.wait ?_ | refine Rel.step (by apply rel_Dev_setReg) ?_ ?_ | refine Rel.step (by apply rel_Dev_setMgt) ?_ ?_ | refine AdmRel.ite ?_ ?_ | split | intro _ | dsimp only

theorem rel_execMgtSvnCommit (e : AdmEntry) (s : State) {u : State} (h : execMgtSvnCommit e s = .next u) : Rel 4832035233 s.dev u.dev := by
  refine run_rel (fun _ => ?_) h
  with_reducible repeat' first | assumption | decide | rfl | refine AdmRel.step (by apply rel_mgtSvnCommit) ?_ ?_ | (apply Rel.trans; swap; apply rel_Dev_admRun) | intro _ | dsimp only

theorem rel_execPldmActivateFirmware (port : Nat) (s : State) {u : State} (h : execPldmActivateFirmware port s = .next u) : Rel 4831838224 s.dev u.dev := by
  refine runAon_rel (fun _ => ?_) h
  with_reducible repeat' first | assumption | decide | rfl | refine Rel.step (by apply rel_Dev_pldmActivate) ?_ ?_ | intro _ | dsimp only

theorem rel_execPldmFirmwareUpdate (port : Nat) (comps : List (List Byte × List Byte)) (certs : Option (List (List Byte))) (s : State) {u : State} (h : execPldmFirmwareUpdate port comps certs s = .next u) : Rel 4831904129 s.dev u.dev := by
  refine runAon_rel (fun _ => ?_) h
  with_reducible repeat' first | assumption | decide | rfl | refine Rel.step (by apply rel_Dev_pldmUpdate) ?_ ?_ | intro _ | dsimp only

theorem rel_execPldmSensorRead (port : Nat) (id : Nat) (s : State) {u : State} (h : execPldmSensorRead port id s = .next u) : Rel 4294967296 s.dev u.dev := by
  refine runAon_rel (fun _ => ?_) h
  with_reducible repeat' first | assumption | decide | rfl | refine Rel.step (by apply rel_Dev_pldmSensor) ?_ ?_ | intro _ | dsimp only

theorem rel_execSensorSample (temps : List Int) (powers : List Nat) (s : State) {u : State} (h : execSensorSample temps powers s = .next u) : Rel 6979387777 s.dev u.dev := by
  refine runAon_rel (fun _ => ?_) h
  with_reducible repeat' first | assumption | decide | rfl | refine Rel.step (by apply rel_Dev_sensorSample) ?_ ?_ | intro _ | dsimp only

theorem rel_execSetEndpointId (port : Nat) (op : Nat) (eid : Nat) (s : State) {u : State} (h : execSetEndpointId port op eid s = .next u) : Rel 4294967297 s.dev u.dev := by
  refine runAon_rel (fun _ => ?_) h
  with_reducible repeat' first | assumption | decide | rfl | refine Rel.step (by apply rel_Dev_setEid) ?_ ?_ | intro _ | dsimp only

theorem rel_execSmbSclTimeout (s : State) {u : State} (h : execSmbSclTimeout s = .next u) : Rel 536870912 s.dev u.dev := by
  refine runAon_rel (fun _ => ?_) h
  with_reducible repeat' first | assumption | decide | rfl | refine Rel.step (by apply rel_Dev_setMgt) ?_ ?_ | intro _ | dsimp only

theorem rel_execSpdmChallenge (port : Nat) (slot : Nat) (nonce : List Byte) (s : State) {u : State} (h : execSpdmChallenge port slot nonce s = .next u) : Rel 22011707392 s.dev u.dev := by
  refine runAon_rel (fun _ => ?_) h
  with_reducible repeat' first | assumption | decide | rfl | refine Rel.step (by apply rel_Dev_spdmChallenge) ?_ ?_ | intro _ | dsimp only

theorem rel_execSpdmChunkGet (port : Nat) (seq : Nat) (s : State) {u : State} (h : execSpdmChunkGet port seq s = .next u) : Rel 4831838208 s.dev u.dev := by
  refine runAon_rel (fun _ => ?_) h
  with_reducible repeat' first | assumption | decide | rfl | refine Rel.step (by apply rel_Dev_spdmChunkGet) ?_ ?_ | intro _ | dsimp only

theorem rel_execSpdmChunkSend (port : Nat) (seq : Nat) (last : Bool) (data : List Byte) (s : State) {u : State} (h : execSpdmChunkSend port seq last data s = .next u) : Rel 4831838208 s.dev u.dev := by
  refine runAon_rel (fun _ => ?_) h
  with_reducible repeat' first | assumption | decide | rfl | refine Rel.step (by apply rel_Dev_spdmChunkSend) ?_ ?_ | intro _ | dsimp only

theorem rel_execSpdmEndSession (port : Nat) (id : Nat) (s : State) {u : State} (h : execSpdmEndSession port id s = .next u) : Rel 4831838208 s.dev u.dev := by
  refine runAon_rel (fun _ => ?_) h
  with_reducible repeat' first | assumption | decide | rfl | refine Rel.step (by apply rel_Dev_spdmEnd) ?_ ?_ | intro _ | dsimp only

theorem rel_execSpdmFinish (port : Nat) (id : Nat) (verify : List Byte) (s : State) {u : State} (h : execSpdmFinish port id verify s = .next u) : Rel 4831838208 s.dev u.dev := by
  refine runAon_rel (fun _ => ?_) h
  with_reducible repeat' first | assumption | decide | rfl | refine Rel.step (by apply rel_Dev_spdmFinish) ?_ ?_ | intro _ | dsimp only

theorem rel_execSpdmGetCapabilities (port : Nat) (version : Nat) (s : State) {u : State} (h : execSpdmGetCapabilities port version s = .next u) : Rel 4831838208 s.dev u.dev := by
  refine runAon_rel (fun _ => ?_) h
  with_reducible repeat' first | assumption | decide | rfl | refine Rel.step (by apply rel_Dev_spdmCaps) ?_ ?_ | intro _ | dsimp only

theorem rel_execSpdmGetCertificate (port : Nat) (slot : Nat) (off : Nat) (len : Nat) (s : State) {u : State} (h : execSpdmGetCertificate port slot off len s = .next u) : Rel 4831838208 s.dev u.dev := by
  refine runAon_rel (fun _ => ?_) h
  with_reducible repeat' first | assumption | decide | rfl | refine Rel.step (by apply rel_Dev_spdmCert) ?_ ?_ | intro _ | dsimp only

theorem rel_execSpdmGetDigests (port : Nat) (s : State) {u : State} (h : execSpdmGetDigests port s = .next u) : Rel 4831838208 s.dev u.dev := by
  refine runAon_rel (fun _ => ?_) h
  with_reducible repeat' first | assumption | decide | rfl | refine Rel.step (by apply rel_Dev_spdmDigests) ?_ ?_ | intro _ | dsimp only

theorem rel_execSpdmGetMeasurements (port : Nat) (index : Nat) (sign : Bool) (nonce : List Byte) (s : State) {u : State} (h : execSpdmGetMeasurements port index sign nonce s = .next u) : Rel 4831838208 s.dev u.dev := by
  refine runAon_rel (fun _ => ?_) h
  with_reducible repeat' first | assumption | decide | rfl | refine Rel.step (by apply rel_Dev_spdmMeasure) ?_ ?_ | intro _ | dsimp only

theorem rel_execSpdmGetVersion (port : Nat) (s : State) {u : State} (h : execSpdmGetVersion port s = .next u) : Rel 4831838208 s.dev u.dev := by
  refine runAon_rel (fun _ => ?_) h
  with_reducible repeat' first | assumption | decide | rfl | refine Rel.step (by apply rel_Dev_spdmVersion) ?_ ?_ | intro _ | dsimp only

theorem rel_execSpdmHeartbeat (port : Nat) (id : Nat) (s : State) {u : State} (h : execSpdmHeartbeat port id s = .next u) : Rel 4831838208 s.dev u.dev := by
  refine runAon_rel (fun _ => ?_) h
  with_reducible repeat' first | assumption | decide | rfl | refine Rel.step (by apply rel_Dev_spdmHeartbeat) ?_ ?_ | intro _ | dsimp only

theorem rel_execSpdmKeyExchange (port : Nat) (slot : Nat) (exchange : List Byte) (s : State) {u : State} (h : execSpdmKeyExchange port slot exchange s = .next u) : Rel 22011707392 s.dev u.dev := by
  refine runAon_rel (fun _ => ?_) h
  with_reducible repeat' first | assumption | decide | rfl | refine Rel.step (by apply rel_Dev_spdmKeyEx) ?_ ?_ | intro _ | dsimp only

theorem rel_execSpdmKeyUpdate (port : Nat) (id : Nat) (op : Nat) (tag : Nat) (s : State) {u : State} (h : execSpdmKeyUpdate port id op tag s = .next u) : Rel 4831838208 s.dev u.dev := by
  refine runAon_rel (fun _ => ?_) h
  with_reducible repeat' first | assumption | decide | rfl | refine Rel.step (by apply rel_Dev_spdmKeyUpdate) ?_ ?_ | intro _ | dsimp only

theorem rel_execSpdmNegotiateAlgorithms (port : Nat) (base : Nat) (hash : Nat) (dhe : Nat) (aead : Nat) (s : State) {u : State} (h : execSpdmNegotiateAlgorithms port base hash dhe aead s = .next u) : Rel 4831838208 s.dev u.dev := by
  refine runAon_rel (fun _ => ?_) h
  with_reducible repeat' first | assumption | decide | rfl | refine Rel.step (by apply rel_Dev_spdmAlgs) ?_ ?_ | intro _ | dsimp only

end Sys2Proof.Laws
end

