-- ==== Sys2Proof/Laws/Frames/Power.lean ====
section
/-! SUPPORT. What each function of Machine/Power.lean may change. -/

set_option linter.unusedTactic false
set_option linter.unreachableTactic false

namespace Sys2Proof.Laws

open Sys2Proof Sys2Proof.Machine

theorem rel_Dev_setPwr (d : Dev) (x : PwrPart) : Rel 2147483648 d (Dev.setPwr d x) := by
  unfold Dev.setPwr
  with_reducible repeat' first | assumption | decide | rfl | simp only [Nat.reduceAnd, Rel.u_pwr] | split | intro _ | dsimp only

theorem rel_Dev_cclkApply (d : Dev) : Rel 19327352833 d (Dev.cclkApply d) := by
  unfold Dev.cclkApply
  with_reducible repeat' first | assumption | decide | rfl | refine Rel.foldl (fun _ _ => ?_) ?_ | refine Rel.foldl1 (fun _ _ => ?_) ?_ | refine Rel.foldl2 (fun _ _ => ?_) ?_ | refine Rel.step (by apply rel_Dev_setPwr) ?_ ?_ | refine Rel.step (by apply rel_Dev_setReg) ?_ ?_ | refine Rel.step (by apply rel_Dev_setBit) ?_ ?_ | refine Rel.step (by apply rel_Dev_draw) ?_ ?_ | refine Rel.step (by apply rel_Dev_draw'; assumption) ?_ ?_ | refine Rel.ite ?_ ?_ | split | intro _ | dsimp only

theorem rel_Dev_capStep (d : Dev) (down : Bool) (get : PwrPart → Nat) (put : PwrPart → Nat → PwrPart) : Rel 19327352833 d (Dev.capStep d down get put) := by
  unfold Dev.capStep
  with_reducible repeat' first | assumption | decide | rfl | refine Rel.step (by apply rel_Dev_cclkApply) ?_ ?_ | refine Rel.step (by apply rel_Dev_setPwr) ?_ ?_ | refine Rel.ite ?_ ?_ | split | intro _ | dsimp only

theorem rel_Dev_dimEnter (d : Dev) : Rel 19327352833 d (Dev.dimEnter d) := by
  unfold Dev.dimEnter
  with_reducible repeat' first | assumption | decide | rfl | refine Rel.step (by apply rel_Dev_cclkApply) ?_ ?_ | refine Rel.step (by apply rel_Dev_pwrState) ?_ ?_ | refine Rel.ite ?_ ?_ | split | intro _ | dsimp only

theorem rel_Dev_dimExit (d : Dev) : Rel 19327352833 d (Dev.dimExit d) := by
  unfold Dev.dimExit
  with_reducible repeat' first | assumption | decide | rfl | refine Rel.step (by apply rel_Dev_cclkApply) ?_ ?_ | refine Rel.step (by apply rel_Dev_pwrState) ?_ ?_ | refine Rel.ite ?_ ?_ | split | intro _ | dsimp only

theorem rel_Dev_powerStep (d : Dev) : Rel 19327352833 d (Dev.powerStep d) := by
  unfold Dev.powerStep
  with_reducible repeat' first | assumption | decide | rfl | refine Rel.step (by apply rel_Dev_cclkApply) ?_ ?_ | refine Rel.step (by apply rel_Dev_setPwr) ?_ ?_ | refine Rel.step (by apply rel_Dev_capStep) ?_ ?_ | refine Rel.ite ?_ ?_ | split | intro _ | dsimp only

theorem rel_Dev_pwrWake (d : Dev) (pf : Nat) (v : Word) : Rel 19327352833 d (Dev.pwrWake d pf v) := by
  unfold Dev.pwrWake
  with_reducible repeat' first | assumption | decide | rfl | refine Rel.step (by apply rel_Dev_wakeFrom) ?_ ?_ | refine Rel.step (by apply rel_Dev_dimExit) ?_ ?_ | (apply Rel.trans; swap; apply rel_Dev_bar0Write) | refine Rel.ite ?_ ?_ | split | intro _ | dsimp only

theorem rel_Dev_quietDone (d : Dev) : Rel 23719543213 d (Dev.quietDone d) := by
  unfold Dev.quietDone
  with_reducible repeat' first | assumption | decide | rfl | refine Rel.foldl (fun _ _ => ?_) ?_ | refine Rel.foldl1 (fun _ _ => ?_) ?_ | refine Rel.foldl2 (fun _ _ => ?_) ?_ | refine Rel.step (by apply rel_Dev_cclkApply) ?_ ?_ | refine Rel.step (by apply rel_Dev_restartCores) ?_ ?_ | refine Rel.step (by apply rel_Dev_setPwr) ?_ ?_ | refine Rel.step (by apply rel_Dev_coreStarted) ?_ ?_ | refine Rel.step (by apply rel_Dev_countN) ?_ ?_ | refine Rel.step (by apply rel_Dev_fabStart) ?_ ?_ | refine Rel.step (by apply rel_Dev_pwrState) ?_ ?_ | refine Rel.step (by apply rel_Dev_count) ?_ ?_ | refine Rel.ite ?_ ?_ | split | intro _ | dsimp only

theorem rel_Dev_quietEnter (d : Dev) : Rel 6542819759 d (Dev.quietEnter d) := by
  unfold Dev.quietEnter
  with_reducible repeat' first | assumption | decide | rfl | refine Rel.foldl (fun _ _ => ?_) ?_ | refine Rel.foldl1 (fun _ _ => ?_) ?_ | refine Rel.foldl2 (fun _ _ => ?_) ?_ | refine Rel.step (by apply rel_Dev_setPwr) ?_ ?_ | refine Rel.step (by apply rel_Dev_dropPkt) ?_ ?_ | refine Rel.step (by apply rel_Dev_coreFates) ?_ ?_ | refine Rel.step (by apply rel_Dev_excTaken) ?_ ?_ | refine Rel.step (by apply rel_Dev_fabLeave) ?_ ?_ | refine Rel.step (by apply rel_Dev_forward) ?_ ?_ | refine Rel.step (by apply rel_Dev_pwrState) ?_ ?_ | refine Rel.ite ?_ ?_ | simp only [Nat.reduceAnd, Rel.u_cls_port] | split | intro _ | dsimp only

theorem rel_Dev_thermalStep (d : Dev) : Rel 19327352833 d (Dev.thermalStep d) := by
  unfold Dev.thermalStep
  with_reducible repeat' first | assumption | decide | rfl | refine Rel.step (by apply rel_Dev_capStep) ?_ ?_ | refine Rel.ite ?_ ?_ | split | intro _ | dsimp only

theorem rel_execDimEnter (s : State) {u : State} (h : execDimEnter s = .next u) : Rel 19327352833 s.dev u.dev := by
  refine run_rel (fun _ => ?_) h
  with_reducible repeat' first | assumption | decide | rfl | refine Rel.step (by apply rel_Dev_dimEnter) ?_ ?_ | intro _ | dsimp only

theorem rel_execDimExit (s : State) {u : State} (h : execDimExit s = .next u) : Rel 19327352833 s.dev u.dev := by
  refine run_rel (fun _ => ?_) h
  with_reducible repeat' first | assumption | decide | rfl | refine Rel.step (by apply rel_Dev_dimExit) ?_ ?_ | intro _ | dsimp only

theorem rel_execPowerCapStep (s : State) {u : State} (h : execPowerCapStep s = .next u) : Rel 19327352833 s.dev u.dev := by
  refine run_rel (fun _ => ?_) h
  with_reducible repeat' first | assumption | decide | rfl | refine Rel.step (by apply rel_Dev_powerStep) ?_ ?_ | intro _ | dsimp only

theorem rel_execPwrWake (pf : Nat) (value : Word) (s : State) {u : State} (h : execPwrWake pf value s = .next u) : Rel 19327352833 s.dev u.dev := by
  refine run_rel (fun _ => ?_) h
  with_reducible repeat' first | assumption | decide | rfl | refine Rel.step (by apply rel_Dev_pwrWake) ?_ ?_ | intro _ | dsimp only

theorem rel_pwrWakePeer (e : AdmEntry) (d : Dev) : AdmRel 524289 d (pwrWakePeer e d) := by
  unfold pwrWakePeer
  with_reducible repeat' first | assumption | decide | rfl | refine AdmRel.checks ?_ | exact AdmRel.fail | refine AdmRel.done ?_ | refine AdmRel.wait ?_ | refine Rel.step (by apply rel_Dev_setSvb) ?_ ?_ | refine Rel.step (by apply rel_Dev_fabBus) ?_ ?_ | refine Rel.ite ?_ ?_ | refine AdmRel.ite ?_ ?_ | split | intro _ | dsimp only

theorem rel_execPwrWakePeer (e : AdmEntry) (s : State) {u : State} (h : execPwrWakePeer e s = .next u) : Rel 4295688609 s.dev u.dev := by
  refine run_rel (fun _ => ?_) h
  with_reducible repeat' first | assumption | decide | rfl | (apply Rel.trans; swap; apply rel_Dev_admRun) | refine AdmRel.step (by apply rel_pwrWakePeer) ?_ ?_ | intro _ | dsimp only

theorem rel_execQuietEnter (s : State) {u : State} (h : execQuietEnter s = .next u) : Rel 6542819759 s.dev u.dev := by
  refine run_rel (fun _ => ?_) h
  with_reducible repeat' first | assumption | decide | rfl | refine Rel.step (by apply rel_Dev_quietEnter) ?_ ?_ | intro _ | dsimp only

theorem rel_execQuietExit (src : Nat) (s : State) {u : State} (h : execQuietExit src s = .next u) : Rel 2147483649 s.dev u.dev := by
  refine run_rel (fun _ => ?_) h
  with_reducible repeat' first | assumption | decide | rfl | refine Rel.step (by apply rel_Dev_wakeFrom) ?_ ?_ | refine Rel.ite ?_ ?_ | intro _ | dsimp only

theorem rel_execQuietExitDone (s : State) {u : State} (h : execQuietExitDone s = .next u) : Rel 23719543213 s.dev u.dev := by
  refine run_rel (fun _ => ?_) h
  with_reducible repeat' first | assumption | decide | rfl | refine Rel.step (by apply rel_Dev_quietDone) ?_ ?_ | intro _ | dsimp only

theorem rel_execThermalCapStep (s : State) {u : State} (h : execThermalCapStep s = .next u) : Rel 19327352833 s.dev u.dev := by
  refine run_rel (fun _ => ?_) h
  with_reducible repeat' first | assumption | decide | rfl | refine Rel.step (by apply rel_Dev_thermalStep) ?_ ?_ | intro _ | dsimp only

end Sys2Proof.Laws
end

