-- ==== Sys2Proof/Laws/Frames/Regs.lean ====
section
/-! SUPPORT. What each function of Machine/Regs.lean may change. -/

set_option linter.unusedTactic false
set_option linter.unreachableTactic false

namespace Sys2Proof.Laws

open Sys2Proof Sys2Proof.Machine

theorem rel_Dev_wktRead (d : Dev) (id : Nat) (w : Nat) (k : Nat) : Rel 9126805505 d (Dev.wktRead d id w k) := by
  unfold Dev.wktRead
  with_reducible repeat' first | assumption | decide | rfl | refine Rel.step (by apply rel_Dev_wktDeny) ?_ ?_ | refine Rel.step (by apply rel_Dev_wktStat) ?_ ?_ | (apply Rel.trans; swap; apply rel_Dev_bar0Read) | refine Rel.ite ?_ ?_ | split | intro _ | dsimp only

theorem rel_Dev_takeWord (d : Dev) (pf : Nat) (off : Nat) : Rel 1073741825 d (Dev.takeWord d pf off).1 := by
  unfold Dev.takeWord
  with_reducible repeat' first | assumption | decide | rfl | refine Rel.step (by apply rel_Dev_setReg) ?_ ?_ | refine Rel.step (by apply rel_Dev_setTime) ?_ ?_ | refine Rel.ite ?_ ?_ | split | intro _ | dsimp only
theorem rel_Dev_takeWord' {d : Dev} {pf : Nat} {off : Nat} {p0 : Dev} {p1 : Word} (h : Dev.takeWord d pf off = (p0, p1)) : Rel 1073741825 d p0 := by
  have k := rel_Dev_takeWord d pf off
  rw [h] at k
  exact k

theorem rel_Dev_readAt (d : Dev) (pf : Nat) (off : Nat) : Rel 10202120193 d (Dev.readAt d pf off) := by
  unfold Dev.readAt
  with_reducible repeat' first | assumption | decide | rfl | refine Rel.step (by apply rel_Dev_portSnap) ?_ ?_ | refine Rel.step (by apply rel_Dev_wktRead) ?_ ?_ | refine Rel.step (by apply rel_Dev_timeSnap) ?_ ?_ | refine Rel.step (by apply rel_Dev_rsetSnap) ?_ ?_ | refine Rel.step (by apply rel_Dev_takeWord) ?_ ?_ | refine Rel.step (by apply rel_Dev_takeWord'; assumption) ?_ ?_ | refine Rel.step (by apply rel_Dev_tioRead) ?_ ?_ | (apply Rel.trans; swap; apply rel_Dev_bar0Read) | refine Rel.ite ?_ ?_ | split | intro _ | dsimp only

theorem rel_Dev_fnRead (d : Dev) (f : Fn) (off : Nat) (size : Nat) : Rel 10202120193 d (Dev.fnRead d f off size) := by
  unfold Dev.fnRead
  with_reducible repeat' first | assumption | decide | rfl | refine Rel.step (by apply rel_Dev_readAt) ?_ ?_ | refine Rel.step (by apply rel_Dev_badAccess) ?_ ?_ | refine Rel.ite ?_ ?_ | simp only [Nat.reduceAnd, Rel.u_lastRead] | split | intro _ | dsimp only

theorem rel_Dev_msixWrite (d : Dev) (f : Fn) (k : Nat) (v : Word) : Rel 4294967552 d (Dev.msixWrite d f k v) := by
  unfold Dev.msixWrite
  with_reducible repeat' first | assumption | decide | rfl | refine Rel.step (by apply rel_Dev_msixUnmask) ?_ ?_ | refine Rel.step (by apply rel_Dev_fnPut) ?_ ?_ | refine Rel.ite ?_ ?_ | split | intro _ | dsimp only

theorem rel_execReadClear (fn : Fn) (off : Nat) (size : Nat) (s : State) {u : State} (h : execReadClear fn off size s = .next u) : Rel 10202120193 s.dev u.dev := by
  refine run_rel (fun _ => ?_) h
  with_reducible repeat' first | assumption | decide | rfl | refine Rel.step (by apply rel_Dev_fnRead) ?_ ?_ | intro _ | dsimp only

end Sys2Proof.Laws
end

