-- ==== Sys2Proof/Laws/Frames/Glb.lean ====
section
/-! SUPPORT. What each function of Machine/Glb.lean may change. -/

set_option linter.unusedTactic false
set_option linter.unreachableTactic false

namespace Sys2Proof.Laws

open Sys2Proof Sys2Proof.Machine

theorem rel_Dev_ageCfgDone (d : Dev) (k : Nat) (old : Word) : Rel 2097152 d (Dev.ageCfgDone d k old) := by
  unfold Dev.ageCfgDone
  with_reducible repeat' first | assumption | decide | rfl | refine Rel.ite ?_ ?_ | simp only [Nat.reduceAnd, Rel.u_fwd] | split | intro _ | dsimp only

theorem rel_Dev_setPlanes (d : Dev) (x : Planes) : Rel 16 d (Dev.setPlanes d x) := by
  unfold Dev.setPlanes
  with_reducible repeat' first | assumption | decide | rfl | simp only [Nat.reduceAnd, Rel.u_planes] | split | intro _ | dsimp only

theorem rel_Dev_ctlExpire (d : Dev) : Rel 80 d (Dev.ctlExpire d) := by
  unfold Dev.ctlExpire
  with_reducible repeat' first | assumption | decide | rfl | refine Rel.step (by apply rel_Dev_setPlanes) ?_ ?_ | refine Rel.ite ?_ ?_ | simp only [Nat.reduceAnd, Rel.u_tue] | split | intro _ | dsimp only

theorem rel_Dev_ctlRestarted (d : Dev) : Rel 4295164337 d (Dev.ctlRestarted d) := by
  unfold Dev.ctlRestarted
  with_reducible repeat' first | assumption | decide | rfl | refine Rel.foldl (fun _ _ => ?_) ?_ | refine Rel.foldl1 (fun _ _ => ?_) ?_ | refine Rel.foldl2 (fun _ _ => ?_) ?_ | refine Rel.step (by apply rel_Dev_setPlanes) ?_ ?_ | refine Rel.step (by apply rel_Dev_setBit) ?_ ?_ | refine Rel.step (by apply rel_Dev_admComplete1) ?_ ?_ | refine Rel.ite ?_ ?_ | split | intro _ | dsimp only

theorem rel_Dev_dbgCtlDone (d : Dev) (v : Word) : Rel 4194304 d (Dev.dbgCtlDone d v) := by
  unfold Dev.dbgCtlDone
  with_reducible repeat' first | assumption | decide | rfl | refine Rel.step (by apply rel_Dev_setCore) ?_ ?_ | split | intro _ | dsimp only

theorem rel_Dev_nvWrite32 (d : Dev) (p : Nat) (v : Nat) (off : Nat) (w : Word) : Rel 4539276775 d (Dev.nvWrite32 d p v off w) := by
  unfold Dev.nvWrite32
  with_reducible repeat' first | assumption | decide | rfl | refine Rel.step (by apply rel_Dev_nvCqBell) ?_ ?_ | refine Rel.step (by apply rel_Dev_nvEnable) ?_ ?_ | refine Rel.step (by apply rel_Dev_nvSqBell) ?_ ?_ | refine Rel.step (by apply rel_Dev_nvShutdown) ?_ ?_ | refine Rel.step (by apply rel_Dev_setCtrl) ?_ ?_ | refine Rel.step (by apply rel_Dev_nvDisable) ?_ ?_ | refine Rel.ite ?_ ?_ | split | intro _ | dsimp only

theorem rel_Dev_vfWrite (d : Dev) (p : Nat) (v : Nat) (off : Nat) (w : Word) : Rel 4539276775 d (Dev.vfWrite d p v off w) := by
  unfold Dev.vfWrite
  with_reducible repeat' first | assumption | decide | rfl | refine Rel.step (by apply rel_Dev_msixWrite) ?_ ?_ | refine Rel.step (by apply rel_Dev_nvWrite32) ?_ ?_ | refine Rel.step (by apply rel_Dev_fnPut) ?_ ?_ | refine Rel.ite ?_ ?_ | split | intro _ | dsimp only

theorem rel_Dev_mdioHold (d : Dev) (v : Word) : Rel 1 d (Dev.mdioHold d v) := by
  unfold Dev.mdioHold
  with_reducible repeat' first | assumption | decide | rfl | refine Rel.step (by apply rel_Dev_setReg) ?_ ?_ | refine Rel.ite ?_ ?_ | split | intro _ | dsimp only

theorem rel_Dev_indexedWrite (d : Dev) (pf off : Nat) (v : Word) : OptRel 5907153025 d (Dev.indexedWrite d pf off v) := by
  unfold Dev.indexedWrite
  with_reducible repeat' first | assumption | decide | rfl | refine OptRel.orElse ?_ (fun _ => ?_) | refine OptRel.map (fun _ => ?_) | refine Rel.step (by apply rel_Dev_rsetRel) ?_ ?_ | refine Rel.step (by apply rel_Dev_timeGo) ?_ ?_ | refine Rel.step (by apply rel_Dev_winCommit) ?_ ?_ | refine Rel.step (by apply rel_Dev_wktBindReg) ?_ ?_ | refine Rel.step (by apply rel_Dev_tioWrite) ?_ ?_ | (apply Rel.trans; swap; apply rel_Dev_bar0Write) | refine Rel.step (by apply rel_Dev_portRel) ?_ ?_ | refine Rel.step (by apply rel_Dev_ttCtl) ?_ ?_ | refine Rel.step (by apply rel_Dev_incApply) ?_ ?_ | intro _

theorem rel_Dev_pwrCfgDone (d : Dev) : Rel 19327352833 d (Dev.pwrCfgDone d) := by
  unfold Dev.pwrCfgDone
  with_reducible repeat' first | assumption | decide | rfl | refine Rel.step (by apply rel_Dev_cclkApply) ?_ ?_ | refine Rel.step (by apply rel_Dev_dimExit) ?_ ?_ | refine Rel.ite ?_ ?_ | split | intro _ | dsimp only

theorem rel_Dev_portCfgDone (d : Dev) (p : Nat) (old : Word) : Rel 4295491584 d (Dev.portCfgDone d p old) := by
  unfold Dev.portCfgDone
  with_reducible repeat' first | assumption | decide | rfl | refine Rel.step (by apply rel_Dev_pauseCheck) ?_ ?_ | refine Rel.step (by apply rel_Dev_dimRestore) ?_ ?_ | refine Rel.step (by apply rel_Dev_netLinkDown) ?_ ?_ | refine Rel.ite ?_ ?_ | split | intro _ | dsimp only

theorem rel_Dev_svbCfgDone (d : Dev) : Rel 524288 d (Dev.svbCfgDone d) := by
  unfold Dev.svbCfgDone
  with_reducible repeat' first | assumption | decide | rfl | refine Rel.step (by apply rel_Dev_setSvb) ?_ ?_ | split | intro _ | dsimp only

theorem rel_Dev_written (d : Dev) (off : Nat) (old : Word) (v : Word) : Rel 23629135873 d (Dev.written d off old v) := by
  unfold Dev.written
  with_reducible repeat' first | assumption | decide | rfl | refine Rel.step (by apply rel_Dev_pwrCfgDone) ?_ ?_ | refine Rel.step (by apply rel_Dev_pauseCheck) ?_ ?_ | refine Rel.step (by apply rel_Dev_ageCfgDone) ?_ ?_ | refine Rel.step (by apply rel_Dev_dbgCtlDone) ?_ ?_ | refine Rel.step (by apply rel_Dev_portCfgDone) ?_ ?_ | refine Rel.step (by apply rel_Dev_svbCfgDone) ?_ ?_ | refine Rel.ite ?_ ?_ | split | intro _ | dsimp only

theorem rel_Dev_storeWord (d : Dev) (pf : Nat) (off : Nat) (v : Word) : Rel 23629135873 d (Dev.storeWord d pf off v) := by
  unfold Dev.storeWord
  with_reducible repeat' first | assumption | decide | rfl | refine Rel.step (by apply rel_Dev_setReg) ?_ ?_ | refine Rel.step (by apply rel_Dev_setBit) ?_ ?_ | refine Rel.step (by apply rel_Dev_written) ?_ ?_ | refine Rel.ite ?_ ?_ | split | intro _ | dsimp only

theorem rel_Dev_privPf (d : Dev) (pf : Nat) (v : Word) : Rel 1 d (Dev.privPf d pf v) := by
  unfold Dev.privPf
  with_reducible repeat' first | assumption | decide | rfl | refine Rel.step (by apply rel_Dev_setReg) ?_ ?_ | refine Rel.step (by apply rel_Dev_setBit) ?_ ?_ | (apply Rel.trans; swap; apply rel_Dev_bar0Write) | refine Rel.ite ?_ ?_ | split | intro _ | dsimp only

theorem rel_Dev_wktBlockWrite (d : Dev) (id : Nat) (w : Nat) (k : Nat) (v : Word) : Rel 6979387777 d (Dev.wktBlockWrite d id w k v) := by
  unfold Dev.wktBlockWrite
  with_reducible repeat' first | assumption | decide | rfl | refine Rel.step (by apply rel_Dev_setReg) ?_ ?_ | refine Rel.step (by apply rel_Dev_wktDeny) ?_ ?_ | refine Rel.step (by apply rel_Dev_wktTakeReg) ?_ ?_ | (apply Rel.trans; swap; apply rel_Dev_bar0Write) | refine Rel.step (by apply rel_Dev_wktPostReg) ?_ ?_ | refine Rel.ite ?_ ?_ | split | intro _ | dsimp only

theorem rel_Dev_privLock (d : Dev) (pf : Nat) (v : Word) : Rel 1 d (Dev.privLock d pf v) := by
  unfold Dev.privLock
  with_reducible repeat' first | assumption | decide | rfl | refine Rel.step (by apply rel_Dev_setBit) ?_ ?_ | (apply Rel.trans; swap; apply rel_Dev_bar0Write) | refine Rel.ite ?_ ?_ | split | intro _ | dsimp only

theorem rel_Dev_rngAgain (d : Dev) (v : Word) : Rel 17213423616 d (Dev.rngAgain d v) := by
  unfold Dev.rngAgain
  with_reducible repeat' first | assumption | decide | rfl | refine Rel.step (by apply rel_Dev_rngStart) ?_ ?_ | refine Rel.step (by apply rel_Dev_draw) ?_ ?_ | refine Rel.step (by apply rel_Dev_draw'; assumption) ?_ ?_ | refine Rel.ite ?_ ?_ | split | intro _ | dsimp only

theorem rel_Dev_sqApply (d : Dev) (pf : Nat) (v : Word) : Rel 5 d (Dev.sqApply d pf v) := by
  unfold Dev.sqApply
  with_reducible repeat' first | assumption | decide | rfl | refine Rel.step (by apply rel_Dev_setBit) ?_ ?_ | (apply Rel.trans; swap; apply rel_Dev_bar0Write) | refine Rel.step (by apply rel_Dev_setSquare) ?_ ?_ | refine Rel.ite ?_ ?_ | split | intro _ | dsimp only

theorem rel_Dev_writeAt (d : Dev) (pf : Nat) (off : Nat) (v : Word) (acc : ThreadAcc) : Rel 25291358639 d (Dev.writeAt d pf off v acc) := by
  unfold Dev.writeAt
  with_reducible repeat' first | assumption | decide | rfl | refine Rel.getD ?_ ?_ | exact OptRel.none | refine OptRel.some ?_ | refine OptRel.ite ?_ ?_ | refine OptRel.mapD (fun _ => ?_) ?_ | refine OptRel.map (fun _ => ?_) | refine OptRel.bindD (fun _ => ?_) ?_ | refine OptRel.bind (fun _ => ?_) | refine Rel.step (by apply rel_Dev_admCqDoorbell) ?_ ?_ | refine Rel.step (by apply rel_Dev_timeSwitch) ?_ ?_ | refine Rel.step (by apply rel_Dev_setBit) ?_ ?_ | refine Rel.step (by apply rel_Dev_msixWrite) ?_ ?_ | refine Rel.step (by apply rel_Dev_admCfg) ?_ ?_ | refine Rel.step (by apply rel_Dev_admSqDoorbell) ?_ ?_ | refine Rel.step (by apply rel_Dev_mdioHold) ?_ ?_ | refine Rel.step (by apply rel_Dev_pwrWake) ?_ ?_ | refine Rel.step (by apply rel_Dev_tcamApply) ?_ ?_ | refine Rel.step (by apply rel_Dev_dbgCmd) ?_ ?_ | refine Rel.step (by apply rel_Dev_refSelect) ?_ ?_ | refine OptRel.step (by apply rel_Dev_indexedWrite) ?_ ?_ | refine Rel.step (by apply OptRel.use; assumption; apply rel_Dev_indexedWrite) ?_ ?_ | refine Rel.step (by apply rel_Dev_storeWord) ?_ ?_ | refine Rel.step (by apply rel_Dev_privPf) ?_ ?_ | refine Rel.step (by apply rel_Dev_wktBlockWrite) ?_ ?_ | refine Rel.step (by apply rel_Dev_mdio) ?_ ?_ | (apply Rel.trans; swap; apply rel_Dev_bar0Write) | refine Rel.step (by apply rel_Dev_privLock) ?_ ?_ | refine Rel.step (by apply rel_Dev_fabCfg) ?_ ?_ | refine Rel.step (by apply rel_Dev_rngAgain) ?_ ?_ | refine Rel.step (by apply rel_Dev_portApply) ?_ ?_ | refine Rel.step (by apply rel_Dev_sqApply) ?_ ?_ | refine Rel.step (by apply rel_Dev_timeLock) ?_ ?_ | refine Rel.step (by apply rel_Dev_hprofApply) ?_ ?_ | refine Rel.ite ?_ ?_ | split | intro _ | dsimp only

theorem rel_Dev_fnWrite (d : Dev) (f : Fn) (off : Nat) (size : Nat) (v : Dword) (acc : ThreadAcc) : Rel 25501359599 d (Dev.fnWrite d f off size v acc) := by
  unfold Dev.fnWrite
  with_reducible repeat' first | assumption | decide | rfl | refine Rel.step (by apply rel_Dev_badAccess) ?_ ?_ | refine Rel.step (by apply rel_Dev_vfWrite) ?_ ?_ | refine Rel.step (by apply rel_Dev_writeAt) ?_ ?_ | refine Rel.ite ?_ ?_ | split | intro _ | dsimp only

theorem rel_Dev_mgmtExpire (d : Dev) : Rel 536870928 d (Dev.mgmtExpire d) := by
  unfold Dev.mgmtExpire
  with_reducible repeat' first | assumption | decide | rfl | refine Rel.step (by apply rel_Dev_setPlanes) ?_ ?_ | refine Rel.step (by apply rel_Dev_setMgt) ?_ ?_ | refine Rel.ite ?_ ?_ | split | intro _ | dsimp only

theorem rel_admIdentify (e : AdmEntry) (d : Dev) : AdmRel 0 d (admIdentify e d) := by
  unfold admIdentify
  with_reducible repeat' first | assumption | decide | rfl | refine AdmRel.checks ?_ | exact AdmRel.fail | refine AdmRel.done ?_ | refine AdmRel.wait ?_ | refine AdmRel.ite ?_ ?_ | split | intro _ | dsimp only

theorem rel_admJrnlRead (e : AdmEntry) (d : Dev) : AdmRel 0 d (admJrnlRead e d) := by
  unfold admJrnlRead
  with_reducible repeat' first | assumption | decide | rfl | refine AdmRel.checks ?_ | exact AdmRel.fail | refine AdmRel.done ?_ | refine AdmRel.wait ?_ | refine Rel.ite ?_ ?_ | refine AdmRel.ite ?_ ?_ | split | intro _ | dsimp only

theorem rel_admNop (e : AdmEntry) (d : Dev) : AdmRel 131072 d (admNop e d) := by
  unfold admNop
  with_reducible repeat' first | assumption | decide | rfl | refine AdmRel.checks ?_ | exact AdmRel.fail | refine AdmRel.done ?_ | refine AdmRel.wait ?_ | refine Rel.ite ?_ ?_ | refine AdmRel.ite ?_ ?_ | simp only [Nat.reduceAnd, Rel.u_taken] | split | intro _ | dsimp only

theorem rel_execAdmIdentify (e : AdmEntry) (s : State) {u : State} (h : execAdmIdentify e s = .next u) : Rel 4295164320 s.dev u.dev := by
  refine run_rel (fun _ => ?_) h
  with_reducible repeat' first | assumption | decide | rfl | refine AdmRel.step (by apply rel_admIdentify) ?_ ?_ | (apply Rel.trans; swap; apply rel_Dev_admRun) | intro _ | dsimp only

theorem rel_execAdmJrnlRead (e : AdmEntry) (s : State) {u : State} (h : execAdmJrnlRead e s = .next u) : Rel 4295164320 s.dev u.dev := by
  refine run_rel (fun _ => ?_) h
  with_reducible repeat' first | assumption | decide | rfl | (apply Rel.trans; swap; apply rel_Dev_admRun) | refine AdmRel.step (by apply rel_admJrnlRead) ?_ ?_ | intro _ | dsimp only

theorem rel_execAdmNop (e : AdmEntry) (s : State) {u : State} (h : execAdmNop e s = .next u) : Rel 4295164320 s.dev u.dev := by
  refine run_rel (fun _ => ?_) h
  with_reducible repeat' first | assumption | decide | rfl | refine AdmRel.step (by apply rel_admNop) ?_ ?_ | (apply Rel.trans; swap; apply rel_Dev_admRun) | intro _ | dsimp only

theorem rel_execBar0BadAccess (fn : Fn) (off : Nat) (size : Nat) (write : Bool) (s : State) {u : State} (h : execBar0BadAccess fn off size write s = .next u) : Rel 8589934593 s.dev u.dev := by
  refine run_rel (fun _ => ?_) h
  with_reducible repeat' first | assumption | decide | rfl | refine Rel.step (by apply rel_Dev_badAccess) ?_ ?_ | refine Rel.ite ?_ ?_ | simp only [Nat.reduceAnd, Rel.u_lastRead] | intro _ | dsimp only

theorem rel_execControlRestartDone (s : State) {u : State} (h : execControlRestartDone s = .next u) : Rel 4295164337 s.dev u.dev := by
  refine run_rel (fun _ => ?_) h
  with_reducible repeat' first | assumption | decide | rfl | refine Rel.step (by apply rel_Dev_ctlRestarted) ?_ ?_ | intro _ | dsimp only

theorem rel_execControlWatchdogExpire (s : State) {u : State} (h : execControlWatchdogExpire s = .next u) : Rel 80 s.dev u.dev := by
  refine run_rel (fun _ => ?_) h
  with_reducible repeat' first | assumption | decide | rfl | refine Rel.step (by apply rel_Dev_ctlExpire) ?_ ?_ | intro _ | dsimp only

theorem rel_execGlbPrivLock (pf : Nat) (value : Word) (s : State) {u : State} (h : execGlbPrivLock pf value s = .next u) : Rel 1 s.dev u.dev := by
  refine run_rel (fun _ => ?_) h
  with_reducible repeat' first | assumption | decide | rfl | refine Rel.step (by apply rel_Dev_privLock) ?_ ?_ | intro _ | dsimp only

theorem rel_execGlbSqApply (pf : Nat) (value : Word) (s : State) {u : State} (h : execGlbSqApply pf value s = .next u) : Rel 5 s.dev u.dev := by
  refine run_rel (fun _ => ?_) h
  with_reducible repeat' first | assumption | decide | rfl | refine Rel.step (by apply rel_Dev_sqApply) ?_ ?_ | intro _ | dsimp only

theorem rel_execMgmtWatchdogExpire (s : State) {u : State} (h : execMgmtWatchdogExpire s = .next u) : Rel 536870928 s.dev u.dev := by
  refine runAon_rel (fun _ => ?_) h
  with_reducible repeat' first | assumption | decide | rfl | refine Rel.step (by apply rel_Dev_mgmtExpire) ?_ ?_ | intro _ | dsimp only

theorem rel_execRegisterWrite (fn : Fn) (off : Nat) (size : Nat) (value : Dword) (acc : ThreadAcc) (s : State) {u : State} (h : execRegisterWrite fn off size value acc s = .next u) : Rel 25501359599 s.dev u.dev := by
  refine run_rel (fun _ => ?_) h
  with_reducible repeat' first | assumption | decide | rfl | refine Rel.step (by apply rel_Dev_fnWrite) ?_ ?_ | intro _ | dsimp only

end Sys2Proof.Laws
end

