-- ==== Sys2Proof/Laws/Frames/Reset.lean ====
section
/-! SUPPORT. What each function of Machine/Reset.lean may change. -/

set_option linter.unusedTactic false
set_option linter.unreachableTactic false

namespace Sys2Proof.Laws

open Sys2Proof Sys2Proof.Machine

theorem rel_Dev_blocksReset (d : Dev) : Rel 21206401021 d (Dev.blocksReset d) := by
  unfold Dev.blocksReset
  refine Rel.step (rel_Dev_cclkApply ..) (by decide) (Rel.step (rel_Dev_bootStat ..) (by decide) (Rel.step (rel_Dev_pwrState ..) (by decide) ?_))
  have key : ∀ x : Dev, x.regs = d.regs.filter (fun (e : Nat × Word) => keptReg e.1) → x.hbm = d.hbm → x.out = d.out →
      x.lastRead = d.lastRead → x.serial = d.serial → x.toll = d.toll → Rel 21206401021 d x := by
    intro x h1 h2 h3 h4 h5 h6
    refine ⟨fun p hp => ?_, fun h => ⟨by rw [h1]; exact regsCanon_filter _ h.1, by rw [h2]; exact h.2⟩⟩
    cases p <;> first | exact absurd hp (by decide) | simp [Part.same, *]
  refine Rel.ite ?_ ?_
  · exact key _ rfl rfl rfl rfl rfl rfl
  · exact Rel.step (rel_Dev_setBit ..) (by decide) (key _ rfl rfl rfl rfl rfl rfl)

theorem rel_Dev_blocksHeld (d : Dev) : Rel 21474836477 d (Dev.blocksHeld d) := by
  unfold Dev.blocksHeld
  with_reducible repeat' first | assumption | decide | rfl | refine Rel.step (by apply rel_Dev_blocksReset) ?_ ?_ | simp only [Nat.reduceAnd, Rel.u_toll] | split | intro _ | dsimp only

theorem rel_Dev_commitFirst (d : Dev) (n : Nat) : Rel 129 d (Dev.commitFirst d n) := by
  unfold Dev.commitFirst
  with_reducible repeat' first | assumption | decide | rfl | refine Rel.step (by apply rel_Dev_winApply) ?_ ?_ | refine Rel.ite ?_ ?_ | split | intro _ | dsimp only

theorem rel_Dev_ctrlsReset (d : Dev) (p : Fn → Bool) : Rel 67108864 d (Dev.ctrlsReset d p) := by
  unfold Dev.ctrlsReset
  with_reducible repeat' first | assumption | decide | rfl | refine Rel.foldl (fun _ _ => ?_) ?_ | refine Rel.foldl1 (fun _ _ => ?_) ?_ | refine Rel.foldl2 (fun _ _ => ?_) ?_ | refine Rel.step (by apply rel_Dev_ctrlReset) ?_ ?_ | refine Rel.step (by apply rel_Dev_setCtrl) ?_ ?_ | refine Rel.ite ?_ ?_ | split | intro _ | dsimp only

theorem hbm_lose_wf (h : Hbm) (n : Nat) (l : List Nat) (w : Memory.wf h = true) : Memory.wf (h.lose n l) = true := by
  unfold Hbm.lose
  have key : ∀ (l : List Nat) (h : Hbm), Memory.wf h = true → Memory.wf (l.foldl (fun (h : Hbm) (l : Nat) =>
      h.write (l * 64) ((List.range 64).map (fun i => Config.freeByte n (64 * l + i)))) h) = true := by
    intro l
    induction l with
    | nil => intro h w; exact w
    | cons x r ih => intro h w; exact ih _ (hbm_write_wf _ _ _ w)
  exact key _ h w

theorem rel_Dev_deviceFr (d : Dev) (lost : List Nat) : Rel 21474836479 d (Dev.deviceFr d lost) := by
  unfold Dev.deviceFr
  dsimp only
  have k1 : Rel 21474836479 d ((d.tapFlush 0).tapFlush 1) :=
    Rel.step (rel_Dev_tapFlush ..) (by decide) (Rel.mono (rel_Dev_tapFlush ..) (by decide))
  generalize (d.tapFlush 0).tapFlush 1 = d1 at *
  have k2 : Rel 21474836479 d ((d1.liveTens.map (·.1)).foldl (fun (d : Dev) (t : Nat) => d.tollMarker t) d1) :=
    Rel.foldl (fun _ _ => Rel.mono (rel_Dev_tollMarker ..) (by decide)) k1
  generalize List.foldl _ _ _ = d2 at *
  have k3 : Rel 21474836479 d d2.blocksReset := Rel.step (rel_Dev_blocksReset ..) (by decide) k2
  generalize d2.blocksReset = d3 at *
  have k4 : Rel 21474836479 d d3.draw.2 := Rel.step (rel_Dev_draw ..) (by decide) k3
  generalize d3.draw = d4 at *
  refine Rel.trans k4 ⟨fun p hp => by cases p <;> first | exact absurd hp (by decide) | simp [Part.same], fun h => ⟨h.1, ?_⟩⟩
  exact hbm_lose_wf _ _ _ h.2

theorem rel_Dev_perstIn (d : Dev) : Rel 128 d (Dev.perstIn d) := by
  unfold Dev.perstIn
  with_reducible repeat' first | assumption | decide | rfl | refine Rel.foldl (fun _ _ => ?_) ?_ | refine Rel.foldl1 (fun _ _ => ?_) ?_ | refine Rel.foldl2 (fun _ _ => ?_) ?_ | refine Rel.step (by apply rel_Dev_setHifPort) ?_ ?_ | split | intro _ | dsimp only

theorem rel_Dev_deviceFrPin (d : Dev) (lost : List Nat) : Rel 21474836479 d (Dev.deviceFrPin d lost) := by
  unfold Dev.deviceFrPin
  with_reducible repeat' first | assumption | decide | rfl | refine Rel.step (by apply rel_Dev_deviceFr) ?_ ?_ | refine Rel.step (by apply rel_Dev_setPwr) ?_ ?_ | refine Rel.step (by apply rel_Dev_perstIn) ?_ ?_ | refine Rel.ite ?_ ?_ | split | intro _ | dsimp only

theorem rel_Dev_flushEnd (d : Dev) (p : Fn → Bool) : Rel 4295167392 d (Dev.flushEnd d p) := by
  unfold Dev.flushEnd
  with_reducible repeat' first | assumption | decide | rfl | refine Rel.foldl (fun _ _ => ?_) ?_ | refine Rel.foldl1 (fun _ _ => ?_) ?_ | refine Rel.foldl2 (fun _ _ => ?_) ?_ | refine Rel.elim ?_ (fun _ => ?_) | refine Rel.step (by apply rel_Dev_logEnd) ?_ ?_ | split | intro _ | dsimp only

theorem rel_Dev_fnClear (d : Dev) (p : Fn → Bool) (all : Bool) : Rel 256 d (Dev.fnClear d p all) := by
  unfold Dev.fnClear
  with_reducible repeat' first | assumption | decide | rfl | refine Rel.foldl (fun _ _ => ?_) ?_ | refine Rel.foldl1 (fun _ _ => ?_) ?_ | refine Rel.foldl2 (fun _ _ => ?_) ?_ | refine Rel.ite ?_ ?_ | simp only [Nat.reduceAnd, Rel.u_fns] | split | intro _ | dsimp only

theorem rel_Dev_fnReset (d : Dev) (p : Fn → Bool) : Rel 4539276774 d (Dev.fnReset d p) := by
  unfold Dev.fnReset
  with_reducible repeat' first | assumption | decide | rfl | refine Rel.foldl (fun _ _ => ?_) ?_ | refine Rel.foldl1 (fun _ _ => ?_) ?_ | refine Rel.foldl2 (fun _ _ => ?_) ?_ | refine Rel.step (by apply rel_Dev_resetTens) ?_ ?_ | refine Rel.step (by apply rel_Dev_setHifPort) ?_ ?_ | refine Rel.step (by apply rel_Dev_fnClear) ?_ ?_ | refine Rel.step (by apply rel_Dev_ctrlsReset) ?_ ?_ | refine Rel.step (by apply rel_Dev_flushEnd) ?_ ?_ | refine Rel.step (by apply rel_Dev_emit) ?_ ?_ | simp only [Nat.reduceAnd, Rel.u_hifReq] | split | intro _ | dsimp only

theorem rel_Dev_portReset (d : Dev) (p : Nat) (all : Bool) : Rel 4539276774 d (Dev.portReset d p all) := by
  unfold Dev.portReset
  with_reducible repeat' first | assumption | decide | rfl | refine Rel.step (by apply rel_Dev_resetTens) ?_ ?_ | refine Rel.step (by apply rel_Dev_setHifPort) ?_ ?_ | refine Rel.step (by apply rel_Dev_fnClear) ?_ ?_ | refine Rel.step (by apply rel_Dev_ctrlsReset) ?_ ?_ | refine Rel.step (by apply rel_Dev_flushEnd) ?_ ?_ | simp only [Nat.reduceAnd, Rel.u_hifReq] | split | intro _ | dsimp only

theorem rel_Dev_hotReset (d : Dev) (p : Nat) : Rel 6686760423 d (Dev.hotReset d p) := by
  unfold Dev.hotReset
  with_reducible repeat' first | assumption | decide | rfl | refine Rel.step (by apply rel_Dev_wakeFrom) ?_ ?_ | refine Rel.step (by apply rel_Dev_portReset) ?_ ?_ | refine Rel.ite ?_ ?_ | split | intro _ | dsimp only

theorem rel_Dev_netClkLost (d : Dev) (g : Nat) : Rel 524288 d (Dev.netClkLost d g) := by
  unfold Dev.netClkLost
  with_reducible repeat' first | assumption | decide | rfl | refine Rel.foldl (fun _ _ => ?_) ?_ | refine Rel.foldl1 (fun _ _ => ?_) ?_ | refine Rel.foldl2 (fun _ _ => ?_) ?_ | refine Rel.step (by apply rel_Dev_netLinkDown) ?_ ?_ | refine Rel.ite ?_ ?_ | split | intro _ | dsimp only

theorem rel_Dev_pcieLinkDown (d : Dev) (p : Nat) : Rel 4539276775 d (Dev.pcieLinkDown d p) := by
  unfold Dev.pcieLinkDown
  with_reducible repeat' first | assumption | decide | rfl | refine Rel.step (by apply rel_Dev_setBit) ?_ ?_ | refine Rel.step (by apply rel_Dev_portReset) ?_ ?_ | refine Rel.ite ?_ ?_ | split | intro _ | dsimp only

theorem rel_Dev_perstRelease (d : Dev) (p : Nat) : Rel 2147483776 d (Dev.perstRelease d p) := by
  unfold Dev.perstRelease
  with_reducible repeat' first | assumption | decide | rfl | refine Rel.step (by apply rel_Dev_setPwr) ?_ ?_ | refine Rel.step (by apply rel_Dev_perstIn) ?_ ?_ | refine Rel.ite ?_ ?_ | split | intro _ | dsimp only

theorem rel_Dev_pfFlr (d : Dev) (n : Nat) : Rel 6686760423 d (Dev.pfFlr d n) := by
  unfold Dev.pfFlr
  with_reducible repeat' first | assumption | decide | rfl | refine Rel.step (by apply rel_Dev_wakeFrom) ?_ ?_ | refine Rel.step (by apply rel_Dev_commitFirst) ?_ ?_ | refine Rel.step (by apply rel_Dev_fnReset) ?_ ?_ | refine Rel.ite ?_ ?_ | split | intro _ | dsimp only

theorem rel_Dev_regsReset (d : Dev) (p : Nat → Bool) : Rel 1 d (Dev.regsReset d p) :=
  ⟨fun q hq => by cases q <;> first | exact absurd hq (by decide) | simp [Part.same, Dev.regsReset],
   fun h => ⟨regsCanon_filter _ h.1, h.2⟩⟩

theorem rel_Dev_portFr (d : Dev) (p : Nat) : Rel 4539277287 d (Dev.portFr d p) := by
  unfold Dev.portFr
  with_reducible repeat' first | assumption | decide | rfl | refine Rel.step (by apply rel_Dev_setBit) ?_ ?_ | refine Rel.step (by apply rel_Dev_portReset) ?_ ?_ | refine Rel.step (by apply rel_Dev_regsReset) ?_ ?_ | refine Rel.step (by apply rel_Dev_setHifPort) ?_ ?_ | refine Rel.ite ?_ ?_ | simp only [Nat.reduceAnd, Rel.u_applied] | split | intro _ | dsimp only

theorem rel_Dev_portFrPin (d : Dev) (p : Nat) : Rel 6686760935 d (Dev.portFrPin d p) := by
  unfold Dev.portFrPin
  with_reducible repeat' first | assumption | decide | rfl | refine Rel.step (by apply rel_Dev_wakeFrom) ?_ ?_ | refine Rel.step (by apply rel_Dev_setPwr) ?_ ?_ | refine Rel.step (by apply rel_Dev_portFr) ?_ ?_ | refine Rel.step (by apply rel_Dev_perstIn) ?_ ?_ | refine Rel.ite ?_ ?_ | split | intro _ | dsimp only

theorem rel_Dev_powerLost (d : Dev) : Rel 4294967295 d (Dev.powerLost d) := by
  refine ⟨fun p hp => ?_, fun h => ⟨?_, rfl⟩⟩
  · cases p <;> first | exact absurd hp (by decide) | simp [Part.same, Dev.powerLost]
  · exact regsCanon_filter _ h.1

theorem rel_Dev_powerOn (d : Dev) : Rel 4294967295 d (Dev.powerOn d) := by
  unfold Dev.powerOn
  with_reducible repeat' first | assumption | decide | rfl | refine Rel.step (by apply rel_Dev_setPwr) ?_ ?_ | refine Rel.step (by apply rel_Dev_powerLost) ?_ ?_ | split | intro _ | dsimp only

theorem rel_Dev_railOrder (d : Dev) (rail : Nat) : Rel 2147483649 d (Dev.railOrder d rail) := by
  unfold Dev.railOrder
  with_reducible repeat' first | assumption | decide | rfl | refine Rel.step (by apply rel_Dev_setPwr) ?_ ?_ | refine Rel.step (by apply rel_Dev_setBit) ?_ ?_ | refine Rel.ite ?_ ?_ | split | intro _ | dsimp only

theorem rel_Dev_railsFall (d : Dev) : Rel 21474836477 d (Dev.railsFall d) := by
  unfold Dev.railsFall
  with_reducible repeat' first | assumption | decide | rfl | refine Rel.step (by apply rel_Dev_blocksHeld) ?_ ?_ | refine Rel.step (by apply rel_Dev_setPwr) ?_ ?_ | refine Rel.ite ?_ ?_ | split | intro _ | dsimp only

theorem rel_Dev_railsRise (d : Dev) (lost : List Nat) : Rel 21474836479 d (Dev.railsRise d lost) := by
  unfold Dev.railsRise
  with_reducible repeat' first | assumption | decide | rfl | refine Rel.step (by apply rel_Dev_deviceFr) ?_ ?_ | refine Rel.step (by apply rel_Dev_setPwr) ?_ ?_ | refine Rel.step (by apply rel_Dev_perstIn) ?_ ?_ | refine Rel.ite ?_ ?_ | split | intro _ | dsimp only

theorem rel_Dev_sysClkBack (d : Dev) (lost : List Nat) : Rel 21474836479 d (Dev.sysClkBack d lost) := by
  unfold Dev.sysClkBack
  with_reducible repeat' first | assumption | decide | rfl | refine Rel.step (by apply rel_Dev_deviceFr) ?_ ?_ | refine Rel.step (by apply rel_Dev_setPwr) ?_ ?_ | refine Rel.step (by apply rel_Dev_setBit) ?_ ?_ | refine Rel.step (by apply rel_Dev_perstIn) ?_ ?_ | refine Rel.ite ?_ ?_ | split | intro _ | dsimp only

theorem rel_Dev_sysClkLost (d : Dev) : Rel 21474836477 d (Dev.sysClkLost d) := by
  unfold Dev.sysClkLost
  with_reducible repeat' first | assumption | decide | rfl | refine Rel.step (by apply rel_Dev_blocksHeld) ?_ ?_ | refine Rel.step (by apply rel_Dev_setPwr) ?_ ?_ | refine Rel.ite ?_ ?_ | split | intro _ | dsimp only

theorem rel_Dev_vfDisable (d : Dev) (n : Nat) : Rel 4539276774 d (Dev.vfDisable d n) := by
  unfold Dev.vfDisable
  with_reducible repeat' first | assumption | decide | rfl | refine Rel.step (by apply rel_Dev_resetTens) ?_ ?_ | refine Rel.step (by apply rel_Dev_fnPut) ?_ ?_ | refine Rel.step (by apply rel_Dev_fnReset) ?_ ?_ | refine Rel.ite ?_ ?_ | split | intro _ | dsimp only

theorem rel_Dev_vfFlr (d : Dev) (n : Nat) (v : Nat) : Rel 6686760423 d (Dev.vfFlr d n v) := by
  unfold Dev.vfFlr
  with_reducible repeat' first | assumption | decide | rfl | refine Rel.step (by apply rel_Dev_wakeFrom) ?_ ?_ | refine Rel.step (by apply rel_Dev_fnReset) ?_ ?_ | refine Rel.ite ?_ ?_ | split | intro _ | dsimp only

theorem rel_execDeviceFundamentalReset (lost : List Nat) (s : State) {u : State} (h : execDeviceFundamentalReset lost s = .next u) : Rel 21474836479 s.dev u.dev := by
  refine runAon_rel (fun _ => ?_) h
  with_reducible repeat' first | assumption | decide | rfl | refine Rel.step (by apply rel_Dev_deviceFrPin) ?_ ?_ | intro _ | dsimp only

theorem rel_execHotReset (p : Nat) (s : State) {u : State} (h : execHotReset p s = .next u) : Rel 6686760423 s.dev u.dev := by
  refine run_rel (fun _ => ?_) h
  with_reducible repeat' first | assumption | decide | rfl | refine Rel.step (by apply rel_Dev_hotReset) ?_ ?_ | intro _ | dsimp only

theorem rel_execPcieLinkDown (p : Nat) (s : State) {u : State} (h : execPcieLinkDown p s = .next u) : Rel 4539276775 s.dev u.dev := by
  refine run_rel (fun _ => ?_) h
  with_reducible repeat' first | assumption | decide | rfl | refine Rel.step (by apply rel_Dev_pcieLinkDown) ?_ ?_ | intro _ | dsimp only

theorem rel_execPerstRelease (p : Nat) (s : State) {u : State} (h : execPerstRelease p s = .next u) : Rel 2147483776 s.dev u.dev := by
  refine runAon_rel (fun _ => ?_) h
  with_reducible repeat' first | assumption | decide | rfl | refine Rel.step (by apply rel_Dev_perstRelease) ?_ ?_ | intro _ | dsimp only

theorem rel_execPfFlr (pf : Nat) (s : State) {u : State} (h : execPfFlr pf s = .next u) : Rel 6686760423 s.dev u.dev := by
  refine run_rel (fun _ => ?_) h
  with_reducible repeat' first | assumption | decide | rfl | refine Rel.step (by apply rel_Dev_pfFlr) ?_ ?_ | intro _ | dsimp only

theorem rel_execPortFundamentalReset (p : Nat) (s : State) {u : State} (h : execPortFundamentalReset p s = .next u) : Rel 6686760935 s.dev u.dev := by
  refine runAon_rel (fun _ => ?_) h
  with_reducible repeat' first | assumption | decide | rfl | refine Rel.step (by apply rel_Dev_portFrPin) ?_ ?_ | intro _ | dsimp only

theorem rel_execPowerOn (s : State) {u : State} (h : execPowerOn s = .next u) : Rel 4294967295 s.dev u.dev := by
  refine runAny_rel (fun _ => ?_) h
  with_reducible repeat' first | assumption | decide | rfl | refine Rel.step (by apply rel_Dev_powerOn) ?_ ?_ | intro _ | dsimp only

theorem rel_execRailSequenceError (rail : Nat) (s : State) {u : State} (h : execRailSequenceError rail s = .next u) : Rel 2147483649 s.dev u.dev := by
  refine runAon_rel (fun _ => ?_) h
  with_reducible repeat' first | assumption | decide | rfl | refine Rel.step (by apply rel_Dev_railOrder) ?_ ?_ | intro _ | dsimp only

theorem rel_execRailsOkFall (s : State) {u : State} (h : execRailsOkFall s = .next u) : Rel 21474836477 s.dev u.dev := by
  refine runAon_rel (fun _ => ?_) h
  with_reducible repeat' first | assumption | decide | rfl | refine Rel.step (by apply rel_Dev_railsFall) ?_ ?_ | intro _ | dsimp only

theorem rel_execRailsOkRise (lost : List Nat) (s : State) {u : State} (h : execRailsOkRise lost s = .next u) : Rel 21474836479 s.dev u.dev := by
  refine runAon_rel (fun _ => ?_) h
  with_reducible repeat' first | assumption | decide | rfl | refine Rel.step (by apply rel_Dev_railsRise) ?_ ?_ | intro _ | dsimp only

theorem rel_execRefclkNetLost (group : Nat) (s : State) {u : State} (h : execRefclkNetLost group s = .next u) : Rel 524288 s.dev u.dev := by
  refine run_rel (fun _ => ?_) h
  with_reducible repeat' first | assumption | decide | rfl | refine Rel.step (by apply rel_Dev_netClkLost) ?_ ?_ | intro _ | dsimp only

theorem rel_execRefclkPcieLost (p : Nat) (s : State) {u : State} (h : execRefclkPcieLost p s = .next u) : Rel 4539276775 s.dev u.dev := by
  refine run_rel (fun _ => ?_) h
  with_reducible repeat' first | assumption | decide | rfl | refine Rel.step (by apply rel_Dev_pcieLinkDown) ?_ ?_ | intro _ | dsimp only

theorem rel_execRefclkSysLost (s : State) {u : State} (h : execRefclkSysLost s = .next u) : Rel 21474836477 s.dev u.dev := by
  refine runAon_rel (fun _ => ?_) h
  with_reducible repeat' first | assumption | decide | rfl | refine Rel.step (by apply rel_Dev_sysClkLost) ?_ ?_ | intro _ | dsimp only

theorem rel_execRefclkSysReturn (lost : List Nat) (s : State) {u : State} (h : execRefclkSysReturn lost s = .next u) : Rel 21474836479 s.dev u.dev := by
  refine runAon_rel (fun _ => ?_) h
  with_reducible repeat' first | assumption | decide | rfl | refine Rel.step (by apply rel_Dev_sysClkBack) ?_ ?_ | intro _ | dsimp only

theorem rel_execVddAonLoss (s : State) {u : State} (h : execVddAonLoss s = .next u) : Rel 4294967295 s.dev u.dev := by
  refine runAny_rel (fun _ => ?_) h
  with_reducible repeat' first | assumption | decide | rfl | refine Rel.step (by apply rel_Dev_powerLost) ?_ ?_ | intro _ | dsimp only

theorem rel_execVfEnableClear (pf : Nat) (s : State) {u : State} (h : execVfEnableClear pf s = .next u) : Rel 4539276774 s.dev u.dev := by
  refine run_rel (fun _ => ?_) h
  with_reducible repeat' first | assumption | decide | rfl | refine Rel.step (by apply rel_Dev_vfDisable) ?_ ?_ | intro _ | dsimp only

theorem rel_execVfFlr (pf : Nat) (vf : Nat) (s : State) {u : State} (h : execVfFlr pf vf s = .next u) : Rel 6686760423 s.dev u.dev := by
  refine run_rel (fun _ => ?_) h
  with_reducible repeat' first | assumption | decide | rfl | refine Rel.step (by apply rel_Dev_vfFlr) ?_ ?_ | intro _ | dsimp only

end Sys2Proof.Laws
end

