-- ==== Sys2Proof/Laws/Frames/RingCmd.lean ====
section
/-! SUPPORT. What each function of Machine/RingCmd.lean may change. -/

set_option linter.unusedTactic false
set_option linter.unreachableTactic false

namespace Sys2Proof.Laws

open Sys2Proof Sys2Proof.Machine

theorem rel_execAdminCommandTake (e : AdmEntry) (count : Nat) (err : Option (Nat × Nat)) (s : State) {u : State} (h : execAdminCommandTake e count err s = .next u) : Rel 4295164321 s.dev u.dev := by
  refine run_rel (fun _ => ?_) h
  with_reducible repeat' first | assumption | decide | rfl | refine Rel.step (by apply rel_Dev_admTake) ?_ ?_ | intro _ | dsimp only

theorem rel_execAdminCqDoorbell (pf : Nat) (value : Word) (s : State) {u : State} (h : execAdminCqDoorbell pf value s = .next u) : Rel 4295033217 s.dev u.dev := by
  refine run_rel (fun _ => ?_) h
  with_reducible repeat' first | assumption | decide | rfl | refine Rel.step (by apply rel_Dev_admCqDoorbell) ?_ ?_ | intro _ | dsimp only

theorem rel_execAdminRingDisable (pf : Nat) (value : Word) (s : State) {u : State} (h : execAdminRingDisable pf value s = .next u) : Rel 65537 s.dev u.dev := by
  refine run_rel (fun _ => ?_) h
  with_reducible repeat' first | assumption | decide | rfl | refine Rel.step (by apply rel_Dev_admCfg) ?_ ?_ | intro _ | dsimp only

theorem rel_execAdminRingEnable (pf : Nat) (value : Word) (s : State) {u : State} (h : execAdminRingEnable pf value s = .next u) : Rel 65537 s.dev u.dev := by
  refine run_rel (fun _ => ?_) h
  with_reducible repeat' first | assumption | decide | rfl | refine Rel.step (by apply rel_Dev_admCfg) ?_ ?_ | intro _ | dsimp only

theorem rel_execAdminSqDoorbell (pf : Nat) (value : Word) (s : State) {u : State} (h : execAdminSqDoorbell pf value s = .next u) : Rel 4295033217 s.dev u.dev := by
  refine run_rel (fun _ => ?_) h
  with_reducible repeat' first | assumption | decide | rfl | refine Rel.step (by apply rel_Dev_admSqDoorbell) ?_ ?_ | intro _ | dsimp only

theorem rel_execBarrierReadDone (q : Nat) (pos : Nat) (err : Option (Nat × Nat)) (s : State) {u : State} (h : execBarrierReadDone q pos err s = .next u) : Rel 312448 s.dev u.dev := by
  refine run_rel (fun _ => ?_) h
  with_reducible repeat' first | assumption | decide | rfl | refine Rel.step (by apply rel_Dev_barrierDone) ?_ ?_ | intro _ | dsimp only

theorem rel_execCopy (q : Nat) (pos : Nat) (s : State) {u : State} (h : execCopy q pos s = .next u) : Rel 295040 s.dev u.dev := by
  refine run_rel (fun _ => ?_) h
  with_reducible repeat' first | assumption | decide | rfl | refine Rel.step (by apply rel_Dev_copyStart) ?_ ?_ | intro _ | dsimp only

theorem rel_execCopyChunk (chan : Nat) (input : ChunkIn) (ecc : Ecc) (s : State) {u : State} (h : execCopyChunk chan input ecc s = .next u) : Rel 4362460547 s.dev u.dev := by
  refine run_rel (fun _ => ?_) h
  with_reducible repeat' first | assumption | decide | rfl | refine Rel.step (by apply rel_Dev_copyChunk) ?_ ?_ | intro _ | dsimp only

theorem rel_execCqDoorbell (fn : Fn) (page : Nat) (off : Nat) (size : Nat) (value : Dword) (s : State) {u : State} (h : execCqDoorbell fn page off size value s = .next u) : Rel 4362164609 s.dev u.dev := by
  refine run_rel (fun _ => ?_) h
  with_reducible repeat' first | assumption | decide | rfl | refine Rel.step (by apply rel_Dev_doorbell) ?_ ?_ | intro _ | dsimp only

theorem rel_execCqStallTimeout (c : Nat) (s : State) {u : State} (h : execCqStallTimeout c s = .next u) : Rel 4362164609 s.dev u.dev := by
  refine run_rel (fun _ => ?_) h
  with_reducible repeat' first | assumption | decide | rfl | refine Rel.step (by apply rel_Dev_cqStall) ?_ ?_ | intro _ | dsimp only

theorem rel_execDescriptorReadDone (chan : Nat) (bytes : List Byte) (err : Option (Nat × Nat)) (ecc : Ecc) (s : State) {u : State} (h : execDescriptorReadDone chan bytes err ecc s = .next u) : Rel 4362460547 s.dev u.dev := by
  refine run_rel (fun _ => ?_) h
  with_reducible repeat' first | assumption | decide | rfl | refine Rel.step (by apply rel_Dev_dropReads) ?_ ?_ | refine Rel.step (by apply rel_Dev_descDone) ?_ ?_ | intro _ | dsimp only

theorem rel_execDmaAbort (e : AdmEntry) (s : State) {u : State} (h : execDmaAbort e s = .next u) : Rel 4295460256 s.dev u.dev := by
  refine run_rel (fun _ => ?_) h
  with_reducible repeat' first | assumption | decide | rfl | refine AdmRel.step (by apply rel_dmaAbort) ?_ ?_ | (apply Rel.trans; swap; apply rel_Dev_admRun) | intro _ | dsimp only

theorem rel_execDmaGrant (e : AdmEntry) (s : State) {u : State} (h : execDmaGrant e s = .next u) : Rel 4295426464 s.dev u.dev := by
  refine run_rel (fun _ => ?_) h
  with_reducible repeat' first | assumption | decide | rfl | refine AdmRel.step (by apply rel_dmaGrant) ?_ ?_ | (apply Rel.trans; swap; apply rel_Dev_admRun) | intro _ | dsimp only

theorem rel_execDmaHaltTimeout (chan : Nat) (s : State) {u : State} (h : execDmaHaltTimeout chan s = .next u) : Rel 296065 s.dev u.dev := by
  refine run_rel (fun _ => ?_) h
  with_reducible repeat' first | assumption | decide | rfl | refine Rel.step (by apply rel_Dev_haltTimeout) ?_ ?_ | intro _ | dsimp only

theorem rel_execDmaResume (e : AdmEntry) (s : State) {u : State} (h : execDmaResume e s = .next u) : Rel 4295426464 s.dev u.dev := by
  refine run_rel (fun _ => ?_) h
  with_reducible repeat' first | assumption | decide | rfl | refine AdmRel.step (by apply rel_dmaResume) ?_ ?_ | (apply Rel.trans; swap; apply rel_Dev_admRun) | intro _ | dsimp only

theorem rel_execDmaSkip (e : AdmEntry) (s : State) {u : State} (h : execDmaSkip e s = .next u) : Rel 4295460256 s.dev u.dev := by
  refine run_rel (fun _ => ?_) h
  with_reducible repeat' first | assumption | decide | rfl | (apply Rel.trans; swap; apply rel_Dev_admRun) | refine AdmRel.step (by apply rel_dmaSkip) ?_ ?_ | intro _ | dsimp only

theorem rel_execDoorbellInv (fn : Fn) (page : Nat) (off : Nat) (size : Nat) (value : Dword) (s : State) {u : State} (h : execDoorbellInv fn page off size value s = .next u) : Rel 4362164609 s.dev u.dev := by
  refine run_rel (fun _ => ?_) h
  with_reducible repeat' first | assumption | decide | rfl | refine Rel.step (by apply rel_Dev_doorbell) ?_ ?_ | intro _ | dsimp only

theorem rel_execEntryFetch (q : Nat) (s : State) {u : State} (h : execEntryFetch q s = .next u) : Rel 16512 s.dev u.dev := by
  refine run_rel (fun _ => ?_) h
  with_reducible repeat' first | assumption | decide | rfl | refine Rel.step (by apply rel_Dev_entryFetch) ?_ ?_ | intro _ | dsimp only

theorem rel_execEntryFetchDone (q : Nat) (bytes : List Byte) (err : Option (Nat × Nat)) (s : State) {u : State} (h : execEntryFetchDone q bytes err s = .next u) : Rel 4362165633 s.dev u.dev := by
  refine run_rel (fun _ => ?_) h
  with_reducible repeat' first | assumption | decide | rfl | refine Rel.step (by apply rel_Dev_entryFetchDone) ?_ ?_ | refine Rel.step (by apply rel_Dev_dropReads) ?_ ?_ | intro _ | dsimp only

theorem rel_execGrantDrained (ten : Nat) (s : State) {u : State} (h : execGrantDrained ten s = .next u) : Rel 4295426464 s.dev u.dev := by
  refine run_rel (fun _ => ?_) h
  with_reducible repeat' first | assumption | decide | rfl | refine Rel.step (by apply rel_Dev_grantDrained) ?_ ?_ | intro _ | dsimp only

theorem rel_execJobCompletion (q : Nat) (pos : Nat) (s : State) {u : State} (h : execJobCompletion q pos s = .next u) : Rel 4362197377 s.dev u.dev := by
  refine run_rel (fun _ => ?_) h
  with_reducible repeat' first | assumption | decide | rfl | refine Rel.step (by apply rel_Dev_jobComplete) ?_ ?_ | intro _ | dsimp only

theorem rel_execModTimerExpire (isCq : Bool) (ring : Nat) (s : State) {u : State} (h : execModTimerExpire isCq ring s = .next u) : Rel 4362097024 s.dev u.dev := by
  refine run_rel (fun _ => ?_) h
  with_reducible repeat' first | assumption | decide | rfl | refine Rel.step (by apply rel_Dev_modExpire) ?_ ?_ | refine Rel.ite ?_ ?_ | intro _ | dsimp only

theorem rel_execNop (q : Nat) (pos : Nat) (s : State) {u : State} (h : execNop q pos s = .next u) : Rel 32896 s.dev u.dev := by
  refine run_rel (fun _ => ?_) h
  with_reducible repeat' first | assumption | decide | rfl | refine Rel.step (by apply rel_Dev_nop) ?_ ?_ | intro _ | dsimp only

theorem rel_execPhaseReread (q : Nat) (bytes : List Byte) (err : Option (Nat × Nat)) (s : State) {u : State} (h : execPhaseReread q bytes err s = .next u) : Rel 4362165633 s.dev u.dev := by
  refine run_rel (fun _ => ?_) h
  with_reducible repeat' first | assumption | decide | rfl | refine Rel.step (by apply rel_Dev_phaseReread) ?_ ?_ | intro _ | dsimp only

theorem rel_execRetasCiWrite (fn : Fn) (page : Nat) (off : Nat) (size : Nat) (value : Dword) (s : State) {u : State} (h : execRetasCiWrite fn page off size value s = .next u) : Rel 4362164609 s.dev u.dev := by
  refine run_rel (fun _ => ?_) h
  with_reducible repeat' first | assumption | decide | rfl | refine Rel.step (by apply rel_Dev_doorbell) ?_ ?_ | intro _ | dsimp only

theorem rel_execRetasPiWrite (fn : Fn) (page : Nat) (off : Nat) (size : Nat) (value : Dword) (s : State) {u : State} (h : execRetasPiWrite fn page off size value s = .next u) : Rel 4362164609 s.dev u.dev := by
  refine run_rel (fun _ => ?_) h
  with_reducible repeat' first | assumption | decide | rfl | refine Rel.step (by apply rel_Dev_doorbell) ?_ ?_ | intro _ | dsimp only

theorem rel_execRingCreate (e : AdmEntry) (s : State) {u : State} (h : execRingCreate e s = .next u) : Rel 4295180704 s.dev u.dev := by
  refine run_rel (fun _ => ?_) h
  with_reducible repeat' first | assumption | decide | rfl | refine AdmRel.step (by apply rel_ringCreate) ?_ ?_ | (apply Rel.trans; swap; apply rel_Dev_admRun) | intro _ | dsimp only

theorem rel_execRingDcinv (e : AdmEntry) (s : State) {u : State} (h : execRingDcinv e s = .next u) : Rel 4295180704 s.dev u.dev := by
  refine run_rel (fun _ => ?_) h
  with_reducible repeat' first | assumption | decide | rfl | refine AdmRel.step (by apply rel_ringDcinv) ?_ ?_ | (apply Rel.trans; swap; apply rel_Dev_admRun) | intro _ | dsimp only

theorem rel_execRingDestroy (e : AdmEntry) (s : State) {u : State} (h : execRingDestroy e s = .next u) : Rel 4295213472 s.dev u.dev := by
  refine run_rel (fun _ => ?_) h
  with_reducible repeat' first | assumption | decide | rfl | (apply Rel.trans; swap; apply rel_Dev_admRun) | refine AdmRel.step (by apply rel_ringDestroy) ?_ ?_ | intro _ | dsimp only

theorem rel_execRingResume (e : AdmEntry) (s : State) {u : State} (h : execRingResume e s = .next u) : Rel 4362328481 s.dev u.dev := by
  refine run_rel (fun _ => ?_) h
  with_reducible repeat' first | assumption | decide | rfl | refine AdmRel.step (by apply rel_ringResume) ?_ ?_ | (apply Rel.trans; swap; apply rel_Dev_admRun) | intro _ | dsimp only

theorem rel_execRingSetMod (e : AdmEntry) (s : State) {u : State} (h : execRingSetMod e s = .next u) : Rel 4295180704 s.dev u.dev := by
  refine run_rel (fun _ => ?_) h
  with_reducible repeat' first | assumption | decide | rfl | (apply Rel.trans; swap; apply rel_Dev_admRun) | refine AdmRel.step (by apply rel_ringSetMod) ?_ ?_ | intro _ | dsimp only

theorem rel_execRingSetSched (e : AdmEntry) (s : State) {u : State} (h : execRingSetSched e s = .next u) : Rel 4295180704 s.dev u.dev := by
  refine run_rel (fun _ => ?_) h
  with_reducible repeat' first | assumption | decide | rfl | (apply Rel.trans; swap; apply rel_Dev_admRun) | refine AdmRel.step (by apply rel_ringSetSched) ?_ ?_ | intro _ | dsimp only

theorem rel_execRxBuf (q : Nat) (s : State) {u : State} (h : execRxBuf q s = .next u) : Rel 311296 s.dev u.dev := by
  refine run_rel (fun _ => ?_) h
  with_reducible repeat' first | assumption | decide | rfl | refine Rel.step (by apply rel_Dev_rxPost) ?_ ?_ | intro _ | dsimp only

theorem rel_execSchedulerTurn (p : Nat) (s : State) {u : State} (h : execSchedulerTurn p s = .next u) : Rel 4295485856 s.dev u.dev := by
  refine run_rel (fun _ => ?_) h
  with_reducible repeat' first | assumption | decide | rfl | refine Rel.step (by apply rel_Dev_schedulerTurn) ?_ ?_ | intro _ | dsimp only

theorem rel_execSqDoorbell (fn : Fn) (page : Nat) (off : Nat) (size : Nat) (value : Dword) (s : State) {u : State} (h : execSqDoorbell fn page off size value s = .next u) : Rel 4362164609 s.dev u.dev := by
  refine run_rel (fun _ => ?_) h
  with_reducible repeat' first | assumption | decide | rfl | refine Rel.step (by apply rel_Dev_doorbell) ?_ ?_ | intro _ | dsimp only

theorem rel_execStrayDoorbell (fn : Fn) (page : Nat) (off : Nat) (size : Nat) (value : Dword) (s : State) {u : State} (h : execStrayDoorbell fn page off size value s = .next u) : Rel 4362164609 s.dev u.dev := by
  refine run_rel (fun _ => ?_) h
  with_reducible repeat' first | assumption | decide | rfl | refine Rel.step (by apply rel_Dev_doorbell) ?_ ?_ | intro _ | dsimp only

theorem rel_execTx (q : Nat) (pos : Nat) (s : State) {u : State} (h : execTx q pos s = .next u) : Rel 34948 s.dev u.dev := by
  refine run_rel (fun _ => ?_) h
  with_reducible repeat' first | assumption | decide | rfl | refine Rel.step (by apply rel_Dev_txStart) ?_ ?_ | refine Rel.step (by apply rel_Dev_txBuild) ?_ ?_ | intro _ | dsimp only

end Sys2Proof.Laws
end

