-- ==== Sys2Proof/Laws/Frames/Tick.lean ====
section
/-! SUPPORT. What each function of Machine/Tick.lean may change. -/

set_option linter.unusedTactic false
set_option linter.unreachableTactic false

namespace Sys2Proof.Laws

open Sys2Proof Sys2Proof.Machine

theorem rel_Dev_agentTick (d : Dev) : Rel 4387963301 d (Dev.agentTick d) := by
  unfold Dev.agentTick
  with_reducible repeat' first | assumption | decide | rfl | refine Rel.step (by apply rel_Dev_fabTick) ?_ ?_ | refine Rel.ite ?_ ?_ | split | intro _ | dsimp only

theorem rel_Dev_cycleTick (d : Dev) : Rel 2147483648 d (Dev.cycleTick d) := by
  unfold Dev.cycleTick
  with_reducible repeat' first | assumption | decide | rfl | refine Rel.step (by apply rel_Dev_setPwr) ?_ ?_ | refine Rel.ite ?_ ?_ | split | intro _ | dsimp only

theorem rel_Dev_engineTick (d : Dev) : Rel 4798406023 d (Dev.engineTick d) := by
  unfold Dev.engineTick
  with_reducible repeat' first | assumption | decide | rfl | refine Rel.step (by apply rel_Dev_stoTick) ?_ ?_ | refine Rel.ite ?_ ?_ | split | intro _ | dsimp only

theorem rel_Dev_fwdExcTake (d : Dev) : Rel 8 d (Dev.fwdExcTake d) := by
  unfold Dev.fwdExcTake
  with_reducible repeat' first | assumption | decide | rfl | refine Rel.ite ?_ ?_ | simp only [Nat.reduceAnd, Rel.u_exc] | split | intro _ | dsimp only

theorem rel_Dev_portTick (d : Dev) : Rel 524288 d (Dev.portTick d) := by
  unfold Dev.portTick
  with_reducible repeat' first | assumption | decide | rfl | simp only [Nat.reduceAnd, Rel.u_port] | split | intro _ | dsimp only

theorem rel_Dev_tenTick (d : Dev) : Rel 2048 d (Dev.tenTick d) := by
  unfold Dev.tenTick
  with_reducible repeat' first | assumption | decide | rfl | simp only [Nat.reduceAnd, Rel.u_tens] | split | intro _ | dsimp only

theorem rel_Dev_tick (d : Dev) : Rel 8045452719 d (Dev.tick d) := by
  unfold Dev.tick
  with_reducible repeat' first | assumption | decide | rfl | refine Rel.step (by apply rel_Dev_agentTick) ?_ ?_ | refine Rel.step (by apply rel_Dev_engineTick) ?_ ?_ | refine Rel.step (by apply rel_Dev_cycleTick) ?_ ?_ | refine Rel.step (by apply rel_Dev_tenTick) ?_ ?_ | refine Rel.step (by apply rel_Dev_timeTick) ?_ ?_ | refine Rel.step (by apply rel_Dev_fwdExcTake) ?_ ?_ | refine Rel.step (by apply rel_Dev_portTick) ?_ ?_ | refine Rel.ite ?_ ?_ | split | intro _ | dsimp only

end Sys2Proof.Laws
end

