-- ==== Sys2Proof/Laws/State.lean ====
section
/-! SUPPORT. One lemma for each field of the device and each named update of it. -/

namespace Sys2Proof.Laws

open Sys2Proof Sys2Proof.Machine

/-! `Dev.admPut`. -/

@[simp] theorem admPut_regs (d : Dev) (pf : Nat) (x : AdmRing) : (d.admPut pf x).regs = d.regs := rfl
@[simp] theorem admPut_hbm (d : Dev) (pf : Nat) (x : AdmRing) : (d.admPut pf x).hbm = d.hbm := rfl
@[simp] theorem admPut_glb (d : Dev) (pf : Nat) (x : AdmRing) : (d.admPut pf x).glb = d.glb := rfl
@[simp] theorem admPut_hif (d : Dev) (pf : Nat) (x : AdmRing) : (d.admPut pf x).hif = d.hif := rfl
@[simp] theorem admPut_ten (d : Dev) (pf : Nat) (x : AdmRing) : (d.admPut pf x).ten = d.ten := rfl
@[simp] theorem admPut_dma (d : Dev) (pf : Nat) (x : AdmRing) : (d.admPut pf x).dma = d.dma := rfl
@[simp] theorem admPut_port (d : Dev) (pf : Nat) (x : AdmRing) : (d.admPut pf x).port = d.port := rfl
@[simp] theorem admPut_cls (d : Dev) (pf : Nat) (x : AdmRing) : (d.admPut pf x).cls = d.cls := rfl
@[simp] theorem admPut_fwd (d : Dev) (pf : Nat) (x : AdmRing) : (d.admPut pf x).fwd = d.fwd := rfl
@[simp] theorem admPut_cpu (d : Dev) (pf : Nat) (x : AdmRing) : (d.admPut pf x).cpu = d.cpu := rfl
@[simp] theorem admPut_twin (d : Dev) (pf : Nat) (x : AdmRing) : (d.admPut pf x).twin = d.twin := rfl
@[simp] theorem admPut_fab (d : Dev) (pf : Nat) (x : AdmRing) : (d.admPut pf x).fab = d.fab := rfl
@[simp] theorem admPut_cry (d : Dev) (pf : Nat) (x : AdmRing) : (d.admPut pf x).cry = d.cry := rfl
@[simp] theorem admPut_sto (d : Dev) (pf : Nat) (x : AdmRing) : (d.admPut pf x).sto = d.sto := rfl
@[simp] theorem admPut_arc (d : Dev) (pf : Nat) (x : AdmRing) : (d.admPut pf x).arc = d.arc := rfl
@[simp] theorem admPut_toll (d : Dev) (pf : Nat) (x : AdmRing) : (d.admPut pf x).toll = d.toll := rfl
@[simp] theorem admPut_mgt (d : Dev) (pf : Nat) (x : AdmRing) : (d.admPut pf x).mgt = d.mgt := rfl
@[simp] theorem admPut_time (d : Dev) (pf : Nat) (x : AdmRing) : (d.admPut pf x).time = d.time := rfl
@[simp] theorem admPut_pwr (d : Dev) (pf : Nat) (x : AdmRing) : (d.admPut pf x).pwr = d.pwr := rfl
@[simp] theorem admPut_out (d : Dev) (pf : Nat) (x : AdmRing) : (d.admPut pf x).out = d.out := rfl
@[simp] theorem admPut_lastRead (d : Dev) (pf : Nat) (x : AdmRing) : (d.admPut pf x).lastRead = d.lastRead := rfl
@[simp] theorem admPut_serial (d : Dev) (pf : Nat) (x : AdmRing) : (d.admPut pf x).serial = d.serial := rfl
@[simp] theorem admPut_ring_sqs (d : Dev) (pf : Nat) (x : AdmRing) : (d.admPut pf x).ring.sqs = d.ring.sqs := rfl
@[simp] theorem admPut_ring_cqs (d : Dev) (pf : Nat) (x : AdmRing) : (d.admPut pf x).ring.cqs = d.ring.cqs := rfl
@[simp] theorem admPut_ring_jobs (d : Dev) (pf : Nat) (x : AdmRing) : (d.admPut pf x).ring.jobs = d.ring.jobs := rfl
@[simp] theorem admPut_ring_taken (d : Dev) (pf : Nat) (x : AdmRing) : (d.admPut pf x).ring.taken = d.ring.taken := rfl
@[simp] theorem admPut_ring_admTurn (d : Dev) (pf : Nat) (x : AdmRing) : (d.admPut pf x).ring.admTurn = d.ring.admTurn := rfl

/-! `Dev.chanPut`. -/

@[simp] theorem chanPut_regs (d : Dev) (n : Nat) (c : Chan) : (d.chanPut n c).regs = d.regs := rfl
@[simp] theorem chanPut_hbm (d : Dev) (n : Nat) (c : Chan) : (d.chanPut n c).hbm = d.hbm := rfl
@[simp] theorem chanPut_glb (d : Dev) (n : Nat) (c : Chan) : (d.chanPut n c).glb = d.glb := rfl
@[simp] theorem chanPut_hif (d : Dev) (n : Nat) (c : Chan) : (d.chanPut n c).hif = d.hif := rfl
@[simp] theorem chanPut_ten (d : Dev) (n : Nat) (c : Chan) : (d.chanPut n c).ten = d.ten := rfl
@[simp] theorem chanPut_ring (d : Dev) (n : Nat) (c : Chan) : (d.chanPut n c).ring = d.ring := rfl
@[simp] theorem chanPut_port (d : Dev) (n : Nat) (c : Chan) : (d.chanPut n c).port = d.port := rfl
@[simp] theorem chanPut_cls (d : Dev) (n : Nat) (c : Chan) : (d.chanPut n c).cls = d.cls := rfl
@[simp] theorem chanPut_fwd (d : Dev) (n : Nat) (c : Chan) : (d.chanPut n c).fwd = d.fwd := rfl
@[simp] theorem chanPut_cpu (d : Dev) (n : Nat) (c : Chan) : (d.chanPut n c).cpu = d.cpu := rfl
@[simp] theorem chanPut_twin (d : Dev) (n : Nat) (c : Chan) : (d.chanPut n c).twin = d.twin := rfl
@[simp] theorem chanPut_fab (d : Dev) (n : Nat) (c : Chan) : (d.chanPut n c).fab = d.fab := rfl
@[simp] theorem chanPut_cry (d : Dev) (n : Nat) (c : Chan) : (d.chanPut n c).cry = d.cry := rfl
@[simp] theorem chanPut_sto (d : Dev) (n : Nat) (c : Chan) : (d.chanPut n c).sto = d.sto := rfl
@[simp] theorem chanPut_arc (d : Dev) (n : Nat) (c : Chan) : (d.chanPut n c).arc = d.arc := rfl
@[simp] theorem chanPut_toll (d : Dev) (n : Nat) (c : Chan) : (d.chanPut n c).toll = d.toll := rfl
@[simp] theorem chanPut_mgt (d : Dev) (n : Nat) (c : Chan) : (d.chanPut n c).mgt = d.mgt := rfl
@[simp] theorem chanPut_time (d : Dev) (n : Nat) (c : Chan) : (d.chanPut n c).time = d.time := rfl
@[simp] theorem chanPut_pwr (d : Dev) (n : Nat) (c : Chan) : (d.chanPut n c).pwr = d.pwr := rfl
@[simp] theorem chanPut_out (d : Dev) (n : Nat) (c : Chan) : (d.chanPut n c).out = d.out := rfl
@[simp] theorem chanPut_lastRead (d : Dev) (n : Nat) (c : Chan) : (d.chanPut n c).lastRead = d.lastRead := rfl
@[simp] theorem chanPut_serial (d : Dev) (n : Nat) (c : Chan) : (d.chanPut n c).serial = d.serial := rfl
@[simp] theorem chanPut_dma_grants (d : Dev) (n : Nat) (c : Chan) : (d.chanPut n c).dma.grants = d.dma.grants := rfl
@[simp] theorem chanPut_dma_waiting (d : Dev) (n : Nat) (c : Chan) : (d.chanPut n c).dma.waiting = d.dma.waiting := rfl

/-! `Dev.cqPut`. -/

@[simp] theorem cqPut_regs (d : Dev) (c : Nat) (x : Cq) : (d.cqPut c x).regs = d.regs := rfl
@[simp] theorem cqPut_hbm (d : Dev) (c : Nat) (x : Cq) : (d.cqPut c x).hbm = d.hbm := rfl
@[simp] theorem cqPut_glb (d : Dev) (c : Nat) (x : Cq) : (d.cqPut c x).glb = d.glb := rfl
@[simp] theorem cqPut_hif (d : Dev) (c : Nat) (x : Cq) : (d.cqPut c x).hif = d.hif := rfl
@[simp] theorem cqPut_ten (d : Dev) (c : Nat) (x : Cq) : (d.cqPut c x).ten = d.ten := rfl
@[simp] theorem cqPut_dma (d : Dev) (c : Nat) (x : Cq) : (d.cqPut c x).dma = d.dma := rfl
@[simp] theorem cqPut_port (d : Dev) (c : Nat) (x : Cq) : (d.cqPut c x).port = d.port := rfl
@[simp] theorem cqPut_cls (d : Dev) (c : Nat) (x : Cq) : (d.cqPut c x).cls = d.cls := rfl
@[simp] theorem cqPut_fwd (d : Dev) (c : Nat) (x : Cq) : (d.cqPut c x).fwd = d.fwd := rfl
@[simp] theorem cqPut_cpu (d : Dev) (c : Nat) (x : Cq) : (d.cqPut c x).cpu = d.cpu := rfl
@[simp] theorem cqPut_twin (d : Dev) (c : Nat) (x : Cq) : (d.cqPut c x).twin = d.twin := rfl
@[simp] theorem cqPut_fab (d : Dev) (c : Nat) (x : Cq) : (d.cqPut c x).fab = d.fab := rfl
@[simp] theorem cqPut_cry (d : Dev) (c : Nat) (x : Cq) : (d.cqPut c x).cry = d.cry := rfl
@[simp] theorem cqPut_sto (d : Dev) (c : Nat) (x : Cq) : (d.cqPut c x).sto = d.sto := rfl
@[simp] theorem cqPut_arc (d : Dev) (c : Nat) (x : Cq) : (d.cqPut c x).arc = d.arc := rfl
@[simp] theorem cqPut_toll (d : Dev) (c : Nat) (x : Cq) : (d.cqPut c x).toll = d.toll := rfl
@[simp] theorem cqPut_mgt (d : Dev) (c : Nat) (x : Cq) : (d.cqPut c x).mgt = d.mgt := rfl
@[simp] theorem cqPut_time (d : Dev) (c : Nat) (x : Cq) : (d.cqPut c x).time = d.time := rfl
@[simp] theorem cqPut_pwr (d : Dev) (c : Nat) (x : Cq) : (d.cqPut c x).pwr = d.pwr := rfl
@[simp] theorem cqPut_out (d : Dev) (c : Nat) (x : Cq) : (d.cqPut c x).out = d.out := rfl
@[simp] theorem cqPut_lastRead (d : Dev) (c : Nat) (x : Cq) : (d.cqPut c x).lastRead = d.lastRead := rfl
@[simp] theorem cqPut_serial (d : Dev) (c : Nat) (x : Cq) : (d.cqPut c x).serial = d.serial := rfl
@[simp] theorem cqPut_ring_sqs (d : Dev) (c : Nat) (x : Cq) : (d.cqPut c x).ring.sqs = d.ring.sqs := rfl
@[simp] theorem cqPut_ring_jobs (d : Dev) (c : Nat) (x : Cq) : (d.cqPut c x).ring.jobs = d.ring.jobs := rfl
@[simp] theorem cqPut_ring_adm (d : Dev) (c : Nat) (x : Cq) : (d.cqPut c x).ring.adm = d.ring.adm := rfl
@[simp] theorem cqPut_ring_taken (d : Dev) (c : Nat) (x : Cq) : (d.cqPut c x).ring.taken = d.ring.taken := rfl
@[simp] theorem cqPut_ring_admTurn (d : Dev) (c : Nat) (x : Cq) : (d.cqPut c x).ring.admTurn = d.ring.admTurn := rfl

/-! `Dev.emit`. -/

@[simp] theorem emit_regs (d : Dev) (o : Out) : (d.emit o).regs = d.regs := rfl
@[simp] theorem emit_hbm (d : Dev) (o : Out) : (d.emit o).hbm = d.hbm := rfl
@[simp] theorem emit_glb (d : Dev) (o : Out) : (d.emit o).glb = d.glb := rfl
@[simp] theorem emit_hif (d : Dev) (o : Out) : (d.emit o).hif = d.hif := rfl
@[simp] theorem emit_ten (d : Dev) (o : Out) : (d.emit o).ten = d.ten := rfl
@[simp] theorem emit_ring (d : Dev) (o : Out) : (d.emit o).ring = d.ring := rfl
@[simp] theorem emit_dma (d : Dev) (o : Out) : (d.emit o).dma = d.dma := rfl
@[simp] theorem emit_port (d : Dev) (o : Out) : (d.emit o).port = d.port := rfl
@[simp] theorem emit_cls (d : Dev) (o : Out) : (d.emit o).cls = d.cls := rfl
@[simp] theorem emit_fwd (d : Dev) (o : Out) : (d.emit o).fwd = d.fwd := rfl
@[simp] theorem emit_cpu (d : Dev) (o : Out) : (d.emit o).cpu = d.cpu := rfl
@[simp] theorem emit_twin (d : Dev) (o : Out) : (d.emit o).twin = d.twin := rfl
@[simp] theorem emit_fab (d : Dev) (o : Out) : (d.emit o).fab = d.fab := rfl
@[simp] theorem emit_cry (d : Dev) (o : Out) : (d.emit o).cry = d.cry := rfl
@[simp] theorem emit_sto (d : Dev) (o : Out) : (d.emit o).sto = d.sto := rfl
@[simp] theorem emit_arc (d : Dev) (o : Out) : (d.emit o).arc = d.arc := rfl
@[simp] theorem emit_toll (d : Dev) (o : Out) : (d.emit o).toll = d.toll := rfl
@[simp] theorem emit_mgt (d : Dev) (o : Out) : (d.emit o).mgt = d.mgt := rfl
@[simp] theorem emit_time (d : Dev) (o : Out) : (d.emit o).time = d.time := rfl
@[simp] theorem emit_pwr (d : Dev) (o : Out) : (d.emit o).pwr = d.pwr := rfl
@[simp] theorem emit_lastRead (d : Dev) (o : Out) : (d.emit o).lastRead = d.lastRead := rfl
@[simp] theorem emit_serial (d : Dev) (o : Out) : (d.emit o).serial = d.serial := rfl
@[simp] theorem emit_out (d : Dev) (o : Out) : (d.emit o).out = d.out ++ [o] := rfl

/-! `Dev.engPut`. -/

@[simp] theorem engPut_regs (d : Dev) (id : Nat) (x : EngRead) : (d.engPut id x).regs = d.regs := rfl
@[simp] theorem engPut_hbm (d : Dev) (id : Nat) (x : EngRead) : (d.engPut id x).hbm = d.hbm := rfl
@[simp] theorem engPut_glb (d : Dev) (id : Nat) (x : EngRead) : (d.engPut id x).glb = d.glb := rfl
@[simp] theorem engPut_ten (d : Dev) (id : Nat) (x : EngRead) : (d.engPut id x).ten = d.ten := rfl
@[simp] theorem engPut_ring (d : Dev) (id : Nat) (x : EngRead) : (d.engPut id x).ring = d.ring := rfl
@[simp] theorem engPut_dma (d : Dev) (id : Nat) (x : EngRead) : (d.engPut id x).dma = d.dma := rfl
@[simp] theorem engPut_port (d : Dev) (id : Nat) (x : EngRead) : (d.engPut id x).port = d.port := rfl
@[simp] theorem engPut_cls (d : Dev) (id : Nat) (x : EngRead) : (d.engPut id x).cls = d.cls := rfl
@[simp] theorem engPut_fwd (d : Dev) (id : Nat) (x : EngRead) : (d.engPut id x).fwd = d.fwd := rfl
@[simp] theorem engPut_cpu (d : Dev) (id : Nat) (x : EngRead) : (d.engPut id x).cpu = d.cpu := rfl
@[simp] theorem engPut_twin (d : Dev) (id : Nat) (x : EngRead) : (d.engPut id x).twin = d.twin := rfl
@[simp] theorem engPut_fab (d : Dev) (id : Nat) (x : EngRead) : (d.engPut id x).fab = d.fab := rfl
@[simp] theorem engPut_cry (d : Dev) (id : Nat) (x : EngRead) : (d.engPut id x).cry = d.cry := rfl
@[simp] theorem engPut_sto (d : Dev) (id : Nat) (x : EngRead) : (d.engPut id x).sto = d.sto := rfl
@[simp] theorem engPut_arc (d : Dev) (id : Nat) (x : EngRead) : (d.engPut id x).arc = d.arc := rfl
@[simp] theorem engPut_toll (d : Dev) (id : Nat) (x : EngRead) : (d.engPut id x).toll = d.toll := rfl
@[simp] theorem engPut_mgt (d : Dev) (id : Nat) (x : EngRead) : (d.engPut id x).mgt = d.mgt := rfl
@[simp] theorem engPut_time (d : Dev) (id : Nat) (x : EngRead) : (d.engPut id x).time = d.time := rfl
@[simp] theorem engPut_pwr (d : Dev) (id : Nat) (x : EngRead) : (d.engPut id x).pwr = d.pwr := rfl
@[simp] theorem engPut_out (d : Dev) (id : Nat) (x : EngRead) : (d.engPut id x).out = d.out := rfl
@[simp] theorem engPut_lastRead (d : Dev) (id : Nat) (x : EngRead) : (d.engPut id x).lastRead = d.lastRead := rfl
@[simp] theorem engPut_serial (d : Dev) (id : Nat) (x : EngRead) : (d.engPut id x).serial = d.serial := rfl
@[simp] theorem engPut_hif_ports (d : Dev) (id : Nat) (x : EngRead) : (d.engPut id x).hif.ports = d.hif.ports := rfl
@[simp] theorem engPut_hif_fns (d : Dev) (id : Nat) (x : EngRead) : (d.engPut id x).hif.fns = d.hif.fns := rfl
@[simp] theorem engPut_hif_applied (d : Dev) (id : Nat) (x : EngRead) : (d.engPut id x).hif.applied = d.hif.applied := rfl
@[simp] theorem engPut_hif_atc (d : Dev) (id : Nat) (x : EngRead) : (d.engPut id x).hif.atc = d.hif.atc := rfl
@[simp] theorem engPut_hif_xlats (d : Dev) (id : Nat) (x : EngRead) : (d.engPut id x).hif.xlats = d.hif.xlats := rfl
@[simp] theorem engPut_hif_pageReqs (d : Dev) (id : Nat) (x : EngRead) : (d.engPut id x).hif.pageReqs = d.hif.pageReqs := rfl
@[simp] theorem engPut_hif_nextGroup (d : Dev) (id : Nat) (x : EngRead) : (d.engPut id x).hif.nextGroup = d.hif.nextGroup := rfl
@[simp] theorem engPut_hif_nextEng (d : Dev) (id : Nat) (x : EngRead) : (d.engPut id x).hif.nextEng = d.hif.nextEng := rfl

/-! `Dev.fnPut`. -/

@[simp] theorem fnPut_regs (d : Dev) (f : Fn) (c : FnCfg) : (d.fnPut f c).regs = d.regs := rfl
@[simp] theorem fnPut_hbm (d : Dev) (f : Fn) (c : FnCfg) : (d.fnPut f c).hbm = d.hbm := rfl
@[simp] theorem fnPut_glb (d : Dev) (f : Fn) (c : FnCfg) : (d.fnPut f c).glb = d.glb := rfl
@[simp] theorem fnPut_ten (d : Dev) (f : Fn) (c : FnCfg) : (d.fnPut f c).ten = d.ten := rfl
@[simp] theorem fnPut_ring (d : Dev) (f : Fn) (c : FnCfg) : (d.fnPut f c).ring = d.ring := rfl
@[simp] theorem fnPut_dma (d : Dev) (f : Fn) (c : FnCfg) : (d.fnPut f c).dma = d.dma := rfl
@[simp] theorem fnPut_port (d : Dev) (f : Fn) (c : FnCfg) : (d.fnPut f c).port = d.port := rfl
@[simp] theorem fnPut_cls (d : Dev) (f : Fn) (c : FnCfg) : (d.fnPut f c).cls = d.cls := rfl
@[simp] theorem fnPut_fwd (d : Dev) (f : Fn) (c : FnCfg) : (d.fnPut f c).fwd = d.fwd := rfl
@[simp] theorem fnPut_cpu (d : Dev) (f : Fn) (c : FnCfg) : (d.fnPut f c).cpu = d.cpu := rfl
@[simp] theorem fnPut_twin (d : Dev) (f : Fn) (c : FnCfg) : (d.fnPut f c).twin = d.twin := rfl
@[simp] theorem fnPut_fab (d : Dev) (f : Fn) (c : FnCfg) : (d.fnPut f c).fab = d.fab := rfl
@[simp] theorem fnPut_cry (d : Dev) (f : Fn) (c : FnCfg) : (d.fnPut f c).cry = d.cry := rfl
@[simp] theorem fnPut_sto (d : Dev) (f : Fn) (c : FnCfg) : (d.fnPut f c).sto = d.sto := rfl
@[simp] theorem fnPut_arc (d : Dev) (f : Fn) (c : FnCfg) : (d.fnPut f c).arc = d.arc := rfl
@[simp] theorem fnPut_toll (d : Dev) (f : Fn) (c : FnCfg) : (d.fnPut f c).toll = d.toll := rfl
@[simp] theorem fnPut_mgt (d : Dev) (f : Fn) (c : FnCfg) : (d.fnPut f c).mgt = d.mgt := rfl
@[simp] theorem fnPut_time (d : Dev) (f : Fn) (c : FnCfg) : (d.fnPut f c).time = d.time := rfl
@[simp] theorem fnPut_pwr (d : Dev) (f : Fn) (c : FnCfg) : (d.fnPut f c).pwr = d.pwr := rfl
@[simp] theorem fnPut_out (d : Dev) (f : Fn) (c : FnCfg) : (d.fnPut f c).out = d.out := rfl
@[simp] theorem fnPut_lastRead (d : Dev) (f : Fn) (c : FnCfg) : (d.fnPut f c).lastRead = d.lastRead := rfl
@[simp] theorem fnPut_serial (d : Dev) (f : Fn) (c : FnCfg) : (d.fnPut f c).serial = d.serial := rfl
@[simp] theorem fnPut_hif_ports (d : Dev) (f : Fn) (c : FnCfg) : (d.fnPut f c).hif.ports = d.hif.ports := rfl
@[simp] theorem fnPut_hif_applied (d : Dev) (f : Fn) (c : FnCfg) : (d.fnPut f c).hif.applied = d.hif.applied := rfl
@[simp] theorem fnPut_hif_atc (d : Dev) (f : Fn) (c : FnCfg) : (d.fnPut f c).hif.atc = d.hif.atc := rfl
@[simp] theorem fnPut_hif_xlats (d : Dev) (f : Fn) (c : FnCfg) : (d.fnPut f c).hif.xlats = d.hif.xlats := rfl
@[simp] theorem fnPut_hif_pageReqs (d : Dev) (f : Fn) (c : FnCfg) : (d.fnPut f c).hif.pageReqs = d.hif.pageReqs := rfl
@[simp] theorem fnPut_hif_nextGroup (d : Dev) (f : Fn) (c : FnCfg) : (d.fnPut f c).hif.nextGroup = d.hif.nextGroup := rfl
@[simp] theorem fnPut_hif_eng (d : Dev) (f : Fn) (c : FnCfg) : (d.fnPut f c).hif.eng = d.hif.eng := rfl
@[simp] theorem fnPut_hif_nextEng (d : Dev) (f : Fn) (c : FnCfg) : (d.fnPut f c).hif.nextEng = d.hif.nextEng := rfl

/-! `Dev.imtPut`. -/

@[simp] theorem imtPut_regs (d : Dev) (i : Nat) (x : Imt) : (d.imtPut i x).regs = d.regs := rfl
@[simp] theorem imtPut_hbm (d : Dev) (i : Nat) (x : Imt) : (d.imtPut i x).hbm = d.hbm := rfl
@[simp] theorem imtPut_glb (d : Dev) (i : Nat) (x : Imt) : (d.imtPut i x).glb = d.glb := rfl
@[simp] theorem imtPut_hif (d : Dev) (i : Nat) (x : Imt) : (d.imtPut i x).hif = d.hif := rfl
@[simp] theorem imtPut_ring (d : Dev) (i : Nat) (x : Imt) : (d.imtPut i x).ring = d.ring := rfl
@[simp] theorem imtPut_dma (d : Dev) (i : Nat) (x : Imt) : (d.imtPut i x).dma = d.dma := rfl
@[simp] theorem imtPut_port (d : Dev) (i : Nat) (x : Imt) : (d.imtPut i x).port = d.port := rfl
@[simp] theorem imtPut_cls (d : Dev) (i : Nat) (x : Imt) : (d.imtPut i x).cls = d.cls := rfl
@[simp] theorem imtPut_fwd (d : Dev) (i : Nat) (x : Imt) : (d.imtPut i x).fwd = d.fwd := rfl
@[simp] theorem imtPut_cpu (d : Dev) (i : Nat) (x : Imt) : (d.imtPut i x).cpu = d.cpu := rfl
@[simp] theorem imtPut_twin (d : Dev) (i : Nat) (x : Imt) : (d.imtPut i x).twin = d.twin := rfl
@[simp] theorem imtPut_fab (d : Dev) (i : Nat) (x : Imt) : (d.imtPut i x).fab = d.fab := rfl
@[simp] theorem imtPut_cry (d : Dev) (i : Nat) (x : Imt) : (d.imtPut i x).cry = d.cry := rfl
@[simp] theorem imtPut_sto (d : Dev) (i : Nat) (x : Imt) : (d.imtPut i x).sto = d.sto := rfl
@[simp] theorem imtPut_arc (d : Dev) (i : Nat) (x : Imt) : (d.imtPut i x).arc = d.arc := rfl
@[simp] theorem imtPut_toll (d : Dev) (i : Nat) (x : Imt) : (d.imtPut i x).toll = d.toll := rfl
@[simp] theorem imtPut_mgt (d : Dev) (i : Nat) (x : Imt) : (d.imtPut i x).mgt = d.mgt := rfl
@[simp] theorem imtPut_time (d : Dev) (i : Nat) (x : Imt) : (d.imtPut i x).time = d.time := rfl
@[simp] theorem imtPut_pwr (d : Dev) (i : Nat) (x : Imt) : (d.imtPut i x).pwr = d.pwr := rfl
@[simp] theorem imtPut_out (d : Dev) (i : Nat) (x : Imt) : (d.imtPut i x).out = d.out := rfl
@[simp] theorem imtPut_lastRead (d : Dev) (i : Nat) (x : Imt) : (d.imtPut i x).lastRead = d.lastRead := rfl
@[simp] theorem imtPut_serial (d : Dev) (i : Nat) (x : Imt) : (d.imtPut i x).serial = d.serial := rfl
@[simp] theorem imtPut_ten_tens (d : Dev) (i : Nat) (x : Imt) : (d.imtPut i x).ten.tens = d.ten.tens := rfl
@[simp] theorem imtPut_ten_sched (d : Dev) (i : Nat) (x : Imt) : (d.imtPut i x).ten.sched = d.ten.sched := rfl

/-! `Dev.schedPut`. -/

@[simp] theorem schedPut_regs (d : Dev) (p : Nat) (s : HostSched) : (d.schedPut p s).regs = d.regs := rfl
@[simp] theorem schedPut_hbm (d : Dev) (p : Nat) (s : HostSched) : (d.schedPut p s).hbm = d.hbm := rfl
@[simp] theorem schedPut_glb (d : Dev) (p : Nat) (s : HostSched) : (d.schedPut p s).glb = d.glb := rfl
@[simp] theorem schedPut_hif (d : Dev) (p : Nat) (s : HostSched) : (d.schedPut p s).hif = d.hif := rfl
@[simp] theorem schedPut_ring (d : Dev) (p : Nat) (s : HostSched) : (d.schedPut p s).ring = d.ring := rfl
@[simp] theorem schedPut_dma (d : Dev) (p : Nat) (s : HostSched) : (d.schedPut p s).dma = d.dma := rfl
@[simp] theorem schedPut_port (d : Dev) (p : Nat) (s : HostSched) : (d.schedPut p s).port = d.port := rfl
@[simp] theorem schedPut_cls (d : Dev) (p : Nat) (s : HostSched) : (d.schedPut p s).cls = d.cls := rfl
@[simp] theorem schedPut_fwd (d : Dev) (p : Nat) (s : HostSched) : (d.schedPut p s).fwd = d.fwd := rfl
@[simp] theorem schedPut_cpu (d : Dev) (p : Nat) (s : HostSched) : (d.schedPut p s).cpu = d.cpu := rfl
@[simp] theorem schedPut_twin (d : Dev) (p : Nat) (s : HostSched) : (d.schedPut p s).twin = d.twin := rfl
@[simp] theorem schedPut_fab (d : Dev) (p : Nat) (s : HostSched) : (d.schedPut p s).fab = d.fab := rfl
@[simp] theorem schedPut_cry (d : Dev) (p : Nat) (s : HostSched) : (d.schedPut p s).cry = d.cry := rfl
@[simp] theorem schedPut_sto (d : Dev) (p : Nat) (s : HostSched) : (d.schedPut p s).sto = d.sto := rfl
@[simp] theorem schedPut_arc (d : Dev) (p : Nat) (s : HostSched) : (d.schedPut p s).arc = d.arc := rfl
@[simp] theorem schedPut_toll (d : Dev) (p : Nat) (s : HostSched) : (d.schedPut p s).toll = d.toll := rfl
@[simp] theorem schedPut_mgt (d : Dev) (p : Nat) (s : HostSched) : (d.schedPut p s).mgt = d.mgt := rfl
@[simp] theorem schedPut_time (d : Dev) (p : Nat) (s : HostSched) : (d.schedPut p s).time = d.time := rfl
@[simp] theorem schedPut_pwr (d : Dev) (p : Nat) (s : HostSched) : (d.schedPut p s).pwr = d.pwr := rfl
@[simp] theorem schedPut_out (d : Dev) (p : Nat) (s : HostSched) : (d.schedPut p s).out = d.out := rfl
@[simp] theorem schedPut_lastRead (d : Dev) (p : Nat) (s : HostSched) : (d.schedPut p s).lastRead = d.lastRead := rfl
@[simp] theorem schedPut_serial (d : Dev) (p : Nat) (s : HostSched) : (d.schedPut p s).serial = d.serial := rfl
@[simp] theorem schedPut_ten_tens (d : Dev) (p : Nat) (s : HostSched) : (d.schedPut p s).ten.tens = d.ten.tens := rfl
@[simp] theorem schedPut_ten_imt (d : Dev) (p : Nat) (s : HostSched) : (d.schedPut p s).ten.imt = d.ten.imt := rfl

/-! `Dev.setArc`. -/

@[simp] theorem setArc_regs (d : Dev) (x : ArcPart) : (d.setArc x).regs = d.regs := rfl
@[simp] theorem setArc_hbm (d : Dev) (x : ArcPart) : (d.setArc x).hbm = d.hbm := rfl
@[simp] theorem setArc_glb (d : Dev) (x : ArcPart) : (d.setArc x).glb = d.glb := rfl
@[simp] theorem setArc_hif (d : Dev) (x : ArcPart) : (d.setArc x).hif = d.hif := rfl
@[simp] theorem setArc_ten (d : Dev) (x : ArcPart) : (d.setArc x).ten = d.ten := rfl
@[simp] theorem setArc_ring (d : Dev) (x : ArcPart) : (d.setArc x).ring = d.ring := rfl
@[simp] theorem setArc_dma (d : Dev) (x : ArcPart) : (d.setArc x).dma = d.dma := rfl
@[simp] theorem setArc_port (d : Dev) (x : ArcPart) : (d.setArc x).port = d.port := rfl
@[simp] theorem setArc_cls (d : Dev) (x : ArcPart) : (d.setArc x).cls = d.cls := rfl
@[simp] theorem setArc_fwd (d : Dev) (x : ArcPart) : (d.setArc x).fwd = d.fwd := rfl
@[simp] theorem setArc_cpu (d : Dev) (x : ArcPart) : (d.setArc x).cpu = d.cpu := rfl
@[simp] theorem setArc_twin (d : Dev) (x : ArcPart) : (d.setArc x).twin = d.twin := rfl
@[simp] theorem setArc_fab (d : Dev) (x : ArcPart) : (d.setArc x).fab = d.fab := rfl
@[simp] theorem setArc_cry (d : Dev) (x : ArcPart) : (d.setArc x).cry = d.cry := rfl
@[simp] theorem setArc_sto (d : Dev) (x : ArcPart) : (d.setArc x).sto = d.sto := rfl
@[simp] theorem setArc_toll (d : Dev) (x : ArcPart) : (d.setArc x).toll = d.toll := rfl
@[simp] theorem setArc_mgt (d : Dev) (x : ArcPart) : (d.setArc x).mgt = d.mgt := rfl
@[simp] theorem setArc_time (d : Dev) (x : ArcPart) : (d.setArc x).time = d.time := rfl
@[simp] theorem setArc_pwr (d : Dev) (x : ArcPart) : (d.setArc x).pwr = d.pwr := rfl
@[simp] theorem setArc_out (d : Dev) (x : ArcPart) : (d.setArc x).out = d.out := rfl
@[simp] theorem setArc_lastRead (d : Dev) (x : ArcPart) : (d.setArc x).lastRead = d.lastRead := rfl
@[simp] theorem setArc_serial (d : Dev) (x : ArcPart) : (d.setArc x).serial = d.serial := rfl
@[simp] theorem setArc_arc (d : Dev) (x : ArcPart) : (d.setArc x).arc = x := rfl

/-! `Dev.setBank`. -/

@[simp] theorem setBank_regs (d : Dev) (b : Nat) (img : Option (List Byte)) : (d.setBank b img).regs = d.regs := rfl
@[simp] theorem setBank_hbm (d : Dev) (b : Nat) (img : Option (List Byte)) : (d.setBank b img).hbm = d.hbm := rfl
@[simp] theorem setBank_glb (d : Dev) (b : Nat) (img : Option (List Byte)) : (d.setBank b img).glb = d.glb := rfl
@[simp] theorem setBank_hif (d : Dev) (b : Nat) (img : Option (List Byte)) : (d.setBank b img).hif = d.hif := rfl
@[simp] theorem setBank_ten (d : Dev) (b : Nat) (img : Option (List Byte)) : (d.setBank b img).ten = d.ten := rfl
@[simp] theorem setBank_ring (d : Dev) (b : Nat) (img : Option (List Byte)) : (d.setBank b img).ring = d.ring := rfl
@[simp] theorem setBank_dma (d : Dev) (b : Nat) (img : Option (List Byte)) : (d.setBank b img).dma = d.dma := rfl
@[simp] theorem setBank_port (d : Dev) (b : Nat) (img : Option (List Byte)) : (d.setBank b img).port = d.port := rfl
@[simp] theorem setBank_fwd (d : Dev) (b : Nat) (img : Option (List Byte)) : (d.setBank b img).fwd = d.fwd := rfl
@[simp] theorem setBank_cpu (d : Dev) (b : Nat) (img : Option (List Byte)) : (d.setBank b img).cpu = d.cpu := rfl
@[simp] theorem setBank_twin (d : Dev) (b : Nat) (img : Option (List Byte)) : (d.setBank b img).twin = d.twin := rfl
@[simp] theorem setBank_fab (d : Dev) (b : Nat) (img : Option (List Byte)) : (d.setBank b img).fab = d.fab := rfl
@[simp] theorem setBank_cry (d : Dev) (b : Nat) (img : Option (List Byte)) : (d.setBank b img).cry = d.cry := rfl
@[simp] theorem setBank_sto (d : Dev) (b : Nat) (img : Option (List Byte)) : (d.setBank b img).sto = d.sto := rfl
@[simp] theorem setBank_arc (d : Dev) (b : Nat) (img : Option (List Byte)) : (d.setBank b img).arc = d.arc := rfl
@[simp] theorem setBank_toll (d : Dev) (b : Nat) (img : Option (List Byte)) : (d.setBank b img).toll = d.toll := rfl
@[simp] theorem setBank_mgt (d : Dev) (b : Nat) (img : Option (List Byte)) : (d.setBank b img).mgt = d.mgt := rfl
@[simp] theorem setBank_time (d : Dev) (b : Nat) (img : Option (List Byte)) : (d.setBank b img).time = d.time := rfl
@[simp] theorem setBank_pwr (d : Dev) (b : Nat) (img : Option (List Byte)) : (d.setBank b img).pwr = d.pwr := rfl
@[simp] theorem setBank_out (d : Dev) (b : Nat) (img : Option (List Byte)) : (d.setBank b img).out = d.out := rfl
@[simp] theorem setBank_lastRead (d : Dev) (b : Nat) (img : Option (List Byte)) : (d.setBank b img).lastRead = d.lastRead := rfl
@[simp] theorem setBank_serial (d : Dev) (b : Nat) (img : Option (List Byte)) : (d.setBank b img).serial = d.serial := rfl
@[simp] theorem setBank_cls_active (d : Dev) (b : Nat) (img : Option (List Byte)) : (d.setBank b img).cls.active = d.cls.active := rfl
@[simp] theorem setBank_cls_commit (d : Dev) (b : Nat) (img : Option (List Byte)) : (d.setBank b img).cls.commit = d.cls.commit := rfl
@[simp] theorem setBank_cls_tcam (d : Dev) (b : Nat) (img : Option (List Byte)) : (d.setBank b img).cls.tcam = d.cls.tcam := rfl
@[simp] theorem setBank_cls_chain (d : Dev) (b : Nat) (img : Option (List Byte)) : (d.setBank b img).cls.chain = d.cls.chain := rfl
@[simp] theorem setBank_cls_rsets (d : Dev) (b : Nat) (img : Option (List Byte)) : (d.setBank b img).cls.rsets = d.cls.rsets := rfl
@[simp] theorem setBank_cls_hprofs (d : Dev) (b : Nat) (img : Option (List Byte)) : (d.setBank b img).cls.hprofs = d.cls.hprofs := rfl
@[simp] theorem setBank_cls_pool (d : Dev) (b : Nat) (img : Option (List Byte)) : (d.setBank b img).cls.pool = d.cls.pool := rfl
@[simp] theorem setBank_cls_inds (d : Dev) (b : Nat) (img : Option (List Byte)) : (d.setBank b img).cls.inds = d.cls.inds := rfl
@[simp] theorem setBank_cls_reentryQ (d : Dev) (b : Nat) (img : Option (List Byte)) : (d.setBank b img).cls.reentryQ = d.cls.reentryQ := rfl
@[simp] theorem setBank_cls_scrub (d : Dev) (b : Nat) (img : Option (List Byte)) : (d.setBank b img).cls.scrub = d.cls.scrub := rfl

/-! `Dev.setCh`. -/

@[simp] theorem setCh_regs (d : Dev) (c : Nat) (x : Channel) : (d.setCh c x).regs = d.regs := rfl
@[simp] theorem setCh_hbm (d : Dev) (c : Nat) (x : Channel) : (d.setCh c x).hbm = d.hbm := rfl
@[simp] theorem setCh_glb (d : Dev) (c : Nat) (x : Channel) : (d.setCh c x).glb = d.glb := rfl
@[simp] theorem setCh_hif (d : Dev) (c : Nat) (x : Channel) : (d.setCh c x).hif = d.hif := rfl
@[simp] theorem setCh_ten (d : Dev) (c : Nat) (x : Channel) : (d.setCh c x).ten = d.ten := rfl
@[simp] theorem setCh_ring (d : Dev) (c : Nat) (x : Channel) : (d.setCh c x).ring = d.ring := rfl
@[simp] theorem setCh_dma (d : Dev) (c : Nat) (x : Channel) : (d.setCh c x).dma = d.dma := rfl
@[simp] theorem setCh_port (d : Dev) (c : Nat) (x : Channel) : (d.setCh c x).port = d.port := rfl
@[simp] theorem setCh_cls (d : Dev) (c : Nat) (x : Channel) : (d.setCh c x).cls = d.cls := rfl
@[simp] theorem setCh_fwd (d : Dev) (c : Nat) (x : Channel) : (d.setCh c x).fwd = d.fwd := rfl
@[simp] theorem setCh_twin (d : Dev) (c : Nat) (x : Channel) : (d.setCh c x).twin = d.twin := rfl
@[simp] theorem setCh_fab (d : Dev) (c : Nat) (x : Channel) : (d.setCh c x).fab = d.fab := rfl
@[simp] theorem setCh_cry (d : Dev) (c : Nat) (x : Channel) : (d.setCh c x).cry = d.cry := rfl
@[simp] theorem setCh_sto (d : Dev) (c : Nat) (x : Channel) : (d.setCh c x).sto = d.sto := rfl
@[simp] theorem setCh_arc (d : Dev) (c : Nat) (x : Channel) : (d.setCh c x).arc = d.arc := rfl
@[simp] theorem setCh_toll (d : Dev) (c : Nat) (x : Channel) : (d.setCh c x).toll = d.toll := rfl
@[simp] theorem setCh_mgt (d : Dev) (c : Nat) (x : Channel) : (d.setCh c x).mgt = d.mgt := rfl
@[simp] theorem setCh_time (d : Dev) (c : Nat) (x : Channel) : (d.setCh c x).time = d.time := rfl
@[simp] theorem setCh_pwr (d : Dev) (c : Nat) (x : Channel) : (d.setCh c x).pwr = d.pwr := rfl
@[simp] theorem setCh_out (d : Dev) (c : Nat) (x : Channel) : (d.setCh c x).out = d.out := rfl
@[simp] theorem setCh_lastRead (d : Dev) (c : Nat) (x : Channel) : (d.setCh c x).lastRead = d.lastRead := rfl
@[simp] theorem setCh_serial (d : Dev) (c : Nat) (x : Channel) : (d.setCh c x).serial = d.serial := rfl
@[simp] theorem setCh_cpu_cores (d : Dev) (c : Nat) (x : Channel) : (d.setCh c x).cpu.cores = d.cpu.cores := rfl
@[simp] theorem setCh_cpu_clusters (d : Dev) (c : Nat) (x : Channel) : (d.setCh c x).cpu.clusters = d.cpu.clusters := rfl
@[simp] theorem setCh_cpu_hnd (d : Dev) (c : Nat) (x : Channel) : (d.setCh c x).cpu.hnd = d.cpu.hnd := rfl
@[simp] theorem setCh_cpu_images (d : Dev) (c : Nat) (x : Channel) : (d.setCh c x).cpu.images = d.cpu.images := rfl
@[simp] theorem setCh_cpu_starts (d : Dev) (c : Nat) (x : Channel) : (d.setCh c x).cpu.starts = d.cpu.starts := rfl
@[simp] theorem setCh_cpu_dbgErr (d : Dev) (c : Nat) (x : Channel) : (d.setCh c x).cpu.dbgErr = d.cpu.dbgErr := rfl

/-! `Dev.setCluster`. -/

@[simp] theorem setCluster_regs (d : Dev) (k : Nat) (x : Cluster) : (d.setCluster k x).regs = d.regs := rfl
@[simp] theorem setCluster_hbm (d : Dev) (k : Nat) (x : Cluster) : (d.setCluster k x).hbm = d.hbm := rfl
@[simp] theorem setCluster_glb (d : Dev) (k : Nat) (x : Cluster) : (d.setCluster k x).glb = d.glb := rfl
@[simp] theorem setCluster_hif (d : Dev) (k : Nat) (x : Cluster) : (d.setCluster k x).hif = d.hif := rfl
@[simp] theorem setCluster_ten (d : Dev) (k : Nat) (x : Cluster) : (d.setCluster k x).ten = d.ten := rfl
@[simp] theorem setCluster_ring (d : Dev) (k : Nat) (x : Cluster) : (d.setCluster k x).ring = d.ring := rfl
@[simp] theorem setCluster_dma (d : Dev) (k : Nat) (x : Cluster) : (d.setCluster k x).dma = d.dma := rfl
@[simp] theorem setCluster_port (d : Dev) (k : Nat) (x : Cluster) : (d.setCluster k x).port = d.port := rfl
@[simp] theorem setCluster_cls (d : Dev) (k : Nat) (x : Cluster) : (d.setCluster k x).cls = d.cls := rfl
@[simp] theorem setCluster_fwd (d : Dev) (k : Nat) (x : Cluster) : (d.setCluster k x).fwd = d.fwd := rfl
@[simp] theorem setCluster_twin (d : Dev) (k : Nat) (x : Cluster) : (d.setCluster k x).twin = d.twin := rfl
@[simp] theorem setCluster_fab (d : Dev) (k : Nat) (x : Cluster) : (d.setCluster k x).fab = d.fab := rfl
@[simp] theorem setCluster_cry (d : Dev) (k : Nat) (x : Cluster) : (d.setCluster k x).cry = d.cry := rfl
@[simp] theorem setCluster_sto (d : Dev) (k : Nat) (x : Cluster) : (d.setCluster k x).sto = d.sto := rfl
@[simp] theorem setCluster_arc (d : Dev) (k : Nat) (x : Cluster) : (d.setCluster k x).arc = d.arc := rfl
@[simp] theorem setCluster_toll (d : Dev) (k : Nat) (x : Cluster) : (d.setCluster k x).toll = d.toll := rfl
@[simp] theorem setCluster_mgt (d : Dev) (k : Nat) (x : Cluster) : (d.setCluster k x).mgt = d.mgt := rfl
@[simp] theorem setCluster_time (d : Dev) (k : Nat) (x : Cluster) : (d.setCluster k x).time = d.time := rfl
@[simp] theorem setCluster_pwr (d : Dev) (k : Nat) (x : Cluster) : (d.setCluster k x).pwr = d.pwr := rfl
@[simp] theorem setCluster_out (d : Dev) (k : Nat) (x : Cluster) : (d.setCluster k x).out = d.out := rfl
@[simp] theorem setCluster_lastRead (d : Dev) (k : Nat) (x : Cluster) : (d.setCluster k x).lastRead = d.lastRead := rfl
@[simp] theorem setCluster_serial (d : Dev) (k : Nat) (x : Cluster) : (d.setCluster k x).serial = d.serial := rfl
@[simp] theorem setCluster_cpu_cores (d : Dev) (k : Nat) (x : Cluster) : (d.setCluster k x).cpu.cores = d.cpu.cores := rfl
@[simp] theorem setCluster_cpu_hnd (d : Dev) (k : Nat) (x : Cluster) : (d.setCluster k x).cpu.hnd = d.cpu.hnd := rfl
@[simp] theorem setCluster_cpu_chans (d : Dev) (k : Nat) (x : Cluster) : (d.setCluster k x).cpu.chans = d.cpu.chans := rfl
@[simp] theorem setCluster_cpu_images (d : Dev) (k : Nat) (x : Cluster) : (d.setCluster k x).cpu.images = d.cpu.images := rfl
@[simp] theorem setCluster_cpu_starts (d : Dev) (k : Nat) (x : Cluster) : (d.setCluster k x).cpu.starts = d.cpu.starts := rfl
@[simp] theorem setCluster_cpu_dbgErr (d : Dev) (k : Nat) (x : Cluster) : (d.setCluster k x).cpu.dbgErr = d.cpu.dbgErr := rfl

/-! `Dev.setCore`. -/

@[simp] theorem setCore_regs (d : Dev) (n : Nat) (c : Core) : (d.setCore n c).regs = d.regs := rfl
@[simp] theorem setCore_hbm (d : Dev) (n : Nat) (c : Core) : (d.setCore n c).hbm = d.hbm := rfl
@[simp] theorem setCore_glb (d : Dev) (n : Nat) (c : Core) : (d.setCore n c).glb = d.glb := rfl
@[simp] theorem setCore_hif (d : Dev) (n : Nat) (c : Core) : (d.setCore n c).hif = d.hif := rfl
@[simp] theorem setCore_ten (d : Dev) (n : Nat) (c : Core) : (d.setCore n c).ten = d.ten := rfl
@[simp] theorem setCore_ring (d : Dev) (n : Nat) (c : Core) : (d.setCore n c).ring = d.ring := rfl
@[simp] theorem setCore_dma (d : Dev) (n : Nat) (c : Core) : (d.setCore n c).dma = d.dma := rfl
@[simp] theorem setCore_port (d : Dev) (n : Nat) (c : Core) : (d.setCore n c).port = d.port := rfl
@[simp] theorem setCore_cls (d : Dev) (n : Nat) (c : Core) : (d.setCore n c).cls = d.cls := rfl
@[simp] theorem setCore_fwd (d : Dev) (n : Nat) (c : Core) : (d.setCore n c).fwd = d.fwd := rfl
@[simp] theorem setCore_twin (d : Dev) (n : Nat) (c : Core) : (d.setCore n c).twin = d.twin := rfl
@[simp] theorem setCore_fab (d : Dev) (n : Nat) (c : Core) : (d.setCore n c).fab = d.fab := rfl
@[simp] theorem setCore_cry (d : Dev) (n : Nat) (c : Core) : (d.setCore n c).cry = d.cry := rfl
@[simp] theorem setCore_sto (d : Dev) (n : Nat) (c : Core) : (d.setCore n c).sto = d.sto := rfl
@[simp] theorem setCore_arc (d : Dev) (n : Nat) (c : Core) : (d.setCore n c).arc = d.arc := rfl
@[simp] theorem setCore_toll (d : Dev) (n : Nat) (c : Core) : (d.setCore n c).toll = d.toll := rfl
@[simp] theorem setCore_mgt (d : Dev) (n : Nat) (c : Core) : (d.setCore n c).mgt = d.mgt := rfl
@[simp] theorem setCore_time (d : Dev) (n : Nat) (c : Core) : (d.setCore n c).time = d.time := rfl
@[simp] theorem setCore_pwr (d : Dev) (n : Nat) (c : Core) : (d.setCore n c).pwr = d.pwr := rfl
@[simp] theorem setCore_out (d : Dev) (n : Nat) (c : Core) : (d.setCore n c).out = d.out := rfl
@[simp] theorem setCore_lastRead (d : Dev) (n : Nat) (c : Core) : (d.setCore n c).lastRead = d.lastRead := rfl
@[simp] theorem setCore_serial (d : Dev) (n : Nat) (c : Core) : (d.setCore n c).serial = d.serial := rfl
@[simp] theorem setCore_cpu_clusters (d : Dev) (n : Nat) (c : Core) : (d.setCore n c).cpu.clusters = d.cpu.clusters := rfl
@[simp] theorem setCore_cpu_hnd (d : Dev) (n : Nat) (c : Core) : (d.setCore n c).cpu.hnd = d.cpu.hnd := rfl
@[simp] theorem setCore_cpu_chans (d : Dev) (n : Nat) (c : Core) : (d.setCore n c).cpu.chans = d.cpu.chans := rfl
@[simp] theorem setCore_cpu_images (d : Dev) (n : Nat) (c : Core) : (d.setCore n c).cpu.images = d.cpu.images := rfl
@[simp] theorem setCore_cpu_starts (d : Dev) (n : Nat) (c : Core) : (d.setCore n c).cpu.starts = d.cpu.starts := rfl
@[simp] theorem setCore_cpu_dbgErr (d : Dev) (n : Nat) (c : Core) : (d.setCore n c).cpu.dbgErr = d.cpu.dbgErr := rfl

/-! `Dev.setCry`. -/

@[simp] theorem setCry_regs (d : Dev) (x : CryPart) : (d.setCry x).regs = d.regs := rfl
@[simp] theorem setCry_hbm (d : Dev) (x : CryPart) : (d.setCry x).hbm = d.hbm := rfl
@[simp] theorem setCry_glb (d : Dev) (x : CryPart) : (d.setCry x).glb = d.glb := rfl
@[simp] theorem setCry_hif (d : Dev) (x : CryPart) : (d.setCry x).hif = d.hif := rfl
@[simp] theorem setCry_ten (d : Dev) (x : CryPart) : (d.setCry x).ten = d.ten := rfl
@[simp] theorem setCry_ring (d : Dev) (x : CryPart) : (d.setCry x).ring = d.ring := rfl
@[simp] theorem setCry_dma (d : Dev) (x : CryPart) : (d.setCry x).dma = d.dma := rfl
@[simp] theorem setCry_port (d : Dev) (x : CryPart) : (d.setCry x).port = d.port := rfl
@[simp] theorem setCry_cls (d : Dev) (x : CryPart) : (d.setCry x).cls = d.cls := rfl
@[simp] theorem setCry_fwd (d : Dev) (x : CryPart) : (d.setCry x).fwd = d.fwd := rfl
@[simp] theorem setCry_cpu (d : Dev) (x : CryPart) : (d.setCry x).cpu = d.cpu := rfl
@[simp] theorem setCry_twin (d : Dev) (x : CryPart) : (d.setCry x).twin = d.twin := rfl
@[simp] theorem setCry_fab (d : Dev) (x : CryPart) : (d.setCry x).fab = d.fab := rfl
@[simp] theorem setCry_sto (d : Dev) (x : CryPart) : (d.setCry x).sto = d.sto := rfl
@[simp] theorem setCry_arc (d : Dev) (x : CryPart) : (d.setCry x).arc = d.arc := rfl
@[simp] theorem setCry_toll (d : Dev) (x : CryPart) : (d.setCry x).toll = d.toll := rfl
@[simp] theorem setCry_mgt (d : Dev) (x : CryPart) : (d.setCry x).mgt = d.mgt := rfl
@[simp] theorem setCry_time (d : Dev) (x : CryPart) : (d.setCry x).time = d.time := rfl
@[simp] theorem setCry_pwr (d : Dev) (x : CryPart) : (d.setCry x).pwr = d.pwr := rfl
@[simp] theorem setCry_out (d : Dev) (x : CryPart) : (d.setCry x).out = d.out := rfl
@[simp] theorem setCry_lastRead (d : Dev) (x : CryPart) : (d.setCry x).lastRead = d.lastRead := rfl
@[simp] theorem setCry_serial (d : Dev) (x : CryPart) : (d.setCry x).serial = d.serial := rfl
@[simp] theorem setCry_cry (d : Dev) (x : CryPart) : (d.setCry x).cry = x := rfl

/-! `Dev.setCtrl`. -/

@[simp] theorem setCtrl_regs (d : Dev) (k : Nat) (x : NvCtrl) : (d.setCtrl k x).regs = d.regs := rfl
@[simp] theorem setCtrl_hbm (d : Dev) (k : Nat) (x : NvCtrl) : (d.setCtrl k x).hbm = d.hbm := rfl
@[simp] theorem setCtrl_glb (d : Dev) (k : Nat) (x : NvCtrl) : (d.setCtrl k x).glb = d.glb := rfl
@[simp] theorem setCtrl_hif (d : Dev) (k : Nat) (x : NvCtrl) : (d.setCtrl k x).hif = d.hif := rfl
@[simp] theorem setCtrl_ten (d : Dev) (k : Nat) (x : NvCtrl) : (d.setCtrl k x).ten = d.ten := rfl
@[simp] theorem setCtrl_ring (d : Dev) (k : Nat) (x : NvCtrl) : (d.setCtrl k x).ring = d.ring := rfl
@[simp] theorem setCtrl_dma (d : Dev) (k : Nat) (x : NvCtrl) : (d.setCtrl k x).dma = d.dma := rfl
@[simp] theorem setCtrl_port (d : Dev) (k : Nat) (x : NvCtrl) : (d.setCtrl k x).port = d.port := rfl
@[simp] theorem setCtrl_cls (d : Dev) (k : Nat) (x : NvCtrl) : (d.setCtrl k x).cls = d.cls := rfl
@[simp] theorem setCtrl_fwd (d : Dev) (k : Nat) (x : NvCtrl) : (d.setCtrl k x).fwd = d.fwd := rfl
@[simp] theorem setCtrl_cpu (d : Dev) (k : Nat) (x : NvCtrl) : (d.setCtrl k x).cpu = d.cpu := rfl
@[simp] theorem setCtrl_twin (d : Dev) (k : Nat) (x : NvCtrl) : (d.setCtrl k x).twin = d.twin := rfl
@[simp] theorem setCtrl_fab (d : Dev) (k : Nat) (x : NvCtrl) : (d.setCtrl k x).fab = d.fab := rfl
@[simp] theorem setCtrl_cry (d : Dev) (k : Nat) (x : NvCtrl) : (d.setCtrl k x).cry = d.cry := rfl
@[simp] theorem setCtrl_arc (d : Dev) (k : Nat) (x : NvCtrl) : (d.setCtrl k x).arc = d.arc := rfl
@[simp] theorem setCtrl_toll (d : Dev) (k : Nat) (x : NvCtrl) : (d.setCtrl k x).toll = d.toll := rfl
@[simp] theorem setCtrl_mgt (d : Dev) (k : Nat) (x : NvCtrl) : (d.setCtrl k x).mgt = d.mgt := rfl
@[simp] theorem setCtrl_time (d : Dev) (k : Nat) (x : NvCtrl) : (d.setCtrl k x).time = d.time := rfl
@[simp] theorem setCtrl_pwr (d : Dev) (k : Nat) (x : NvCtrl) : (d.setCtrl k x).pwr = d.pwr := rfl
@[simp] theorem setCtrl_out (d : Dev) (k : Nat) (x : NvCtrl) : (d.setCtrl k x).out = d.out := rfl
@[simp] theorem setCtrl_lastRead (d : Dev) (k : Nat) (x : NvCtrl) : (d.setCtrl k x).lastRead = d.lastRead := rfl
@[simp] theorem setCtrl_serial (d : Dev) (k : Nat) (x : NvCtrl) : (d.setCtrl k x).serial = d.serial := rfl
@[simp] theorem setCtrl_sto_ctxs (d : Dev) (k : Nat) (x : NvCtrl) : (d.setCtrl k x).sto.ctxs = d.sto.ctxs := rfl
@[simp] theorem setCtrl_sto_ssds (d : Dev) (k : Nat) (x : NvCtrl) : (d.setCtrl k x).sto.ssds = d.sto.ssds := rfl
@[simp] theorem setCtrl_sto_orphans (d : Dev) (k : Nat) (x : NvCtrl) : (d.setCtrl k x).sto.orphans = d.sto.orphans := rfl

/-! `Dev.setDesc`. -/

@[simp] theorem setDesc_regs (d : Dev) (table : Nat) (x : TblDesc) : (d.setDesc table x).regs = d.regs := rfl
@[simp] theorem setDesc_hbm (d : Dev) (table : Nat) (x : TblDesc) : (d.setDesc table x).hbm = d.hbm := rfl
@[simp] theorem setDesc_glb (d : Dev) (table : Nat) (x : TblDesc) : (d.setDesc table x).glb = d.glb := rfl
@[simp] theorem setDesc_hif (d : Dev) (table : Nat) (x : TblDesc) : (d.setDesc table x).hif = d.hif := rfl
@[simp] theorem setDesc_ten (d : Dev) (table : Nat) (x : TblDesc) : (d.setDesc table x).ten = d.ten := rfl
@[simp] theorem setDesc_ring (d : Dev) (table : Nat) (x : TblDesc) : (d.setDesc table x).ring = d.ring := rfl
@[simp] theorem setDesc_dma (d : Dev) (table : Nat) (x : TblDesc) : (d.setDesc table x).dma = d.dma := rfl
@[simp] theorem setDesc_port (d : Dev) (table : Nat) (x : TblDesc) : (d.setDesc table x).port = d.port := rfl
@[simp] theorem setDesc_cls (d : Dev) (table : Nat) (x : TblDesc) : (d.setDesc table x).cls = d.cls := rfl
@[simp] theorem setDesc_cpu (d : Dev) (table : Nat) (x : TblDesc) : (d.setDesc table x).cpu = d.cpu := rfl
@[simp] theorem setDesc_twin (d : Dev) (table : Nat) (x : TblDesc) : (d.setDesc table x).twin = d.twin := rfl
@[simp] theorem setDesc_fab (d : Dev) (table : Nat) (x : TblDesc) : (d.setDesc table x).fab = d.fab := rfl
@[simp] theorem setDesc_cry (d : Dev) (table : Nat) (x : TblDesc) : (d.setDesc table x).cry = d.cry := rfl
@[simp] theorem setDesc_sto (d : Dev) (table : Nat) (x : TblDesc) : (d.setDesc table x).sto = d.sto := rfl
@[simp] theorem setDesc_arc (d : Dev) (table : Nat) (x : TblDesc) : (d.setDesc table x).arc = d.arc := rfl
@[simp] theorem setDesc_toll (d : Dev) (table : Nat) (x : TblDesc) : (d.setDesc table x).toll = d.toll := rfl
@[simp] theorem setDesc_mgt (d : Dev) (table : Nat) (x : TblDesc) : (d.setDesc table x).mgt = d.mgt := rfl
@[simp] theorem setDesc_time (d : Dev) (table : Nat) (x : TblDesc) : (d.setDesc table x).time = d.time := rfl
@[simp] theorem setDesc_pwr (d : Dev) (table : Nat) (x : TblDesc) : (d.setDesc table x).pwr = d.pwr := rfl
@[simp] theorem setDesc_out (d : Dev) (table : Nat) (x : TblDesc) : (d.setDesc table x).out = d.out := rfl
@[simp] theorem setDesc_lastRead (d : Dev) (table : Nat) (x : TblDesc) : (d.setDesc table x).lastRead = d.lastRead := rfl
@[simp] theorem setDesc_serial (d : Dev) (table : Nat) (x : TblDesc) : (d.setDesc table x).serial = d.serial := rfl
@[simp] theorem setDesc_fwd_bridges (d : Dev) (table : Nat) (x : TblDesc) : (d.setDesc table x).fwd.bridges = d.fwd.bridges := rfl
@[simp] theorem setDesc_fwd_pools (d : Dev) (table : Nat) (x : TblDesc) : (d.setDesc table x).fwd.pools = d.fwd.pools := rfl
@[simp] theorem setDesc_fwd_tens (d : Dev) (table : Nat) (x : TblDesc) : (d.setDesc table x).fwd.tens = d.fwd.tens := rfl
@[simp] theorem setDesc_fwd_rehash (d : Dev) (table : Nat) (x : TblDesc) : (d.setDesc table x).fwd.rehash = d.fwd.rehash := rfl
@[simp] theorem setDesc_fwd_learns (d : Dev) (table : Nat) (x : TblDesc) : (d.setDesc table x).fwd.learns = d.fwd.learns := rfl
@[simp] theorem setDesc_fwd_commits (d : Dev) (table : Nat) (x : TblDesc) : (d.setDesc table x).fwd.commits = d.fwd.commits := rfl
@[simp] theorem setDesc_fwd_fins (d : Dev) (table : Nat) (x : TblDesc) : (d.setDesc table x).fwd.fins = d.fwd.fins := rfl
@[simp] theorem setDesc_fwd_now (d : Dev) (table : Nat) (x : TblDesc) : (d.setDesc table x).fwd.now = d.fwd.now := rfl
@[simp] theorem setDesc_fwd_sweep (d : Dev) (table : Nat) (x : TblDesc) : (d.setDesc table x).fwd.sweep = d.fwd.sweep := rfl
@[simp] theorem setDesc_fwd_stamp (d : Dev) (table : Nat) (x : TblDesc) : (d.setDesc table x).fwd.stamp = d.fwd.stamp := rfl

/-! `Dev.setFab`. -/

@[simp] theorem setFab_regs (d : Dev) (x : FabPart) : (d.setFab x).regs = d.regs := rfl
@[simp] theorem setFab_hbm (d : Dev) (x : FabPart) : (d.setFab x).hbm = d.hbm := rfl
@[simp] theorem setFab_glb (d : Dev) (x : FabPart) : (d.setFab x).glb = d.glb := rfl
@[simp] theorem setFab_hif (d : Dev) (x : FabPart) : (d.setFab x).hif = d.hif := rfl
@[simp] theorem setFab_ten (d : Dev) (x : FabPart) : (d.setFab x).ten = d.ten := rfl
@[simp] theorem setFab_ring (d : Dev) (x : FabPart) : (d.setFab x).ring = d.ring := rfl
@[simp] theorem setFab_dma (d : Dev) (x : FabPart) : (d.setFab x).dma = d.dma := rfl
@[simp] theorem setFab_port (d : Dev) (x : FabPart) : (d.setFab x).port = d.port := rfl
@[simp] theorem setFab_cls (d : Dev) (x : FabPart) : (d.setFab x).cls = d.cls := rfl
@[simp] theorem setFab_fwd (d : Dev) (x : FabPart) : (d.setFab x).fwd = d.fwd := rfl
@[simp] theorem setFab_cpu (d : Dev) (x : FabPart) : (d.setFab x).cpu = d.cpu := rfl
@[simp] theorem setFab_twin (d : Dev) (x : FabPart) : (d.setFab x).twin = d.twin := rfl
@[simp] theorem setFab_cry (d : Dev) (x : FabPart) : (d.setFab x).cry = d.cry := rfl
@[simp] theorem setFab_sto (d : Dev) (x : FabPart) : (d.setFab x).sto = d.sto := rfl
@[simp] theorem setFab_arc (d : Dev) (x : FabPart) : (d.setFab x).arc = d.arc := rfl
@[simp] theorem setFab_toll (d : Dev) (x : FabPart) : (d.setFab x).toll = d.toll := rfl
@[simp] theorem setFab_mgt (d : Dev) (x : FabPart) : (d.setFab x).mgt = d.mgt := rfl
@[simp] theorem setFab_time (d : Dev) (x : FabPart) : (d.setFab x).time = d.time := rfl
@[simp] theorem setFab_pwr (d : Dev) (x : FabPart) : (d.setFab x).pwr = d.pwr := rfl
@[simp] theorem setFab_out (d : Dev) (x : FabPart) : (d.setFab x).out = d.out := rfl
@[simp] theorem setFab_lastRead (d : Dev) (x : FabPart) : (d.setFab x).lastRead = d.lastRead := rfl
@[simp] theorem setFab_serial (d : Dev) (x : FabPart) : (d.setFab x).serial = d.serial := rfl
@[simp] theorem setFab_fab (d : Dev) (x : FabPart) : (d.setFab x).fab = x := rfl

/-! `Dev.setHifPort`. -/

@[simp] theorem setHifPort_regs (d : Dev) (p : Nat) (x : HifPort) : (d.setHifPort p x).regs = d.regs := rfl
@[simp] theorem setHifPort_hbm (d : Dev) (p : Nat) (x : HifPort) : (d.setHifPort p x).hbm = d.hbm := rfl
@[simp] theorem setHifPort_glb (d : Dev) (p : Nat) (x : HifPort) : (d.setHifPort p x).glb = d.glb := rfl
@[simp] theorem setHifPort_ten (d : Dev) (p : Nat) (x : HifPort) : (d.setHifPort p x).ten = d.ten := rfl
@[simp] theorem setHifPort_ring (d : Dev) (p : Nat) (x : HifPort) : (d.setHifPort p x).ring = d.ring := rfl
@[simp] theorem setHifPort_dma (d : Dev) (p : Nat) (x : HifPort) : (d.setHifPort p x).dma = d.dma := rfl
@[simp] theorem setHifPort_port (d : Dev) (p : Nat) (x : HifPort) : (d.setHifPort p x).port = d.port := rfl
@[simp] theorem setHifPort_cls (d : Dev) (p : Nat) (x : HifPort) : (d.setHifPort p x).cls = d.cls := rfl
@[simp] theorem setHifPort_fwd (d : Dev) (p : Nat) (x : HifPort) : (d.setHifPort p x).fwd = d.fwd := rfl
@[simp] theorem setHifPort_cpu (d : Dev) (p : Nat) (x : HifPort) : (d.setHifPort p x).cpu = d.cpu := rfl
@[simp] theorem setHifPort_twin (d : Dev) (p : Nat) (x : HifPort) : (d.setHifPort p x).twin = d.twin := rfl
@[simp] theorem setHifPort_fab (d : Dev) (p : Nat) (x : HifPort) : (d.setHifPort p x).fab = d.fab := rfl
@[simp] theorem setHifPort_cry (d : Dev) (p : Nat) (x : HifPort) : (d.setHifPort p x).cry = d.cry := rfl
@[simp] theorem setHifPort_sto (d : Dev) (p : Nat) (x : HifPort) : (d.setHifPort p x).sto = d.sto := rfl
@[simp] theorem setHifPort_arc (d : Dev) (p : Nat) (x : HifPort) : (d.setHifPort p x).arc = d.arc := rfl
@[simp] theorem setHifPort_toll (d : Dev) (p : Nat) (x : HifPort) : (d.setHifPort p x).toll = d.toll := rfl
@[simp] theorem setHifPort_mgt (d : Dev) (p : Nat) (x : HifPort) : (d.setHifPort p x).mgt = d.mgt := rfl
@[simp] theorem setHifPort_time (d : Dev) (p : Nat) (x : HifPort) : (d.setHifPort p x).time = d.time := rfl
@[simp] theorem setHifPort_pwr (d : Dev) (p : Nat) (x : HifPort) : (d.setHifPort p x).pwr = d.pwr := rfl
@[simp] theorem setHifPort_out (d : Dev) (p : Nat) (x : HifPort) : (d.setHifPort p x).out = d.out := rfl
@[simp] theorem setHifPort_lastRead (d : Dev) (p : Nat) (x : HifPort) : (d.setHifPort p x).lastRead = d.lastRead := rfl
@[simp] theorem setHifPort_serial (d : Dev) (p : Nat) (x : HifPort) : (d.setHifPort p x).serial = d.serial := rfl
@[simp] theorem setHifPort_hif_fns (d : Dev) (p : Nat) (x : HifPort) : (d.setHifPort p x).hif.fns = d.hif.fns := rfl
@[simp] theorem setHifPort_hif_applied (d : Dev) (p : Nat) (x : HifPort) : (d.setHifPort p x).hif.applied = d.hif.applied := rfl
@[simp] theorem setHifPort_hif_atc (d : Dev) (p : Nat) (x : HifPort) : (d.setHifPort p x).hif.atc = d.hif.atc := rfl
@[simp] theorem setHifPort_hif_xlats (d : Dev) (p : Nat) (x : HifPort) : (d.setHifPort p x).hif.xlats = d.hif.xlats := rfl
@[simp] theorem setHifPort_hif_pageReqs (d : Dev) (p : Nat) (x : HifPort) : (d.setHifPort p x).hif.pageReqs = d.hif.pageReqs := rfl
@[simp] theorem setHifPort_hif_nextGroup (d : Dev) (p : Nat) (x : HifPort) : (d.setHifPort p x).hif.nextGroup = d.hif.nextGroup := rfl
@[simp] theorem setHifPort_hif_eng (d : Dev) (p : Nat) (x : HifPort) : (d.setHifPort p x).hif.eng = d.hif.eng := rfl
@[simp] theorem setHifPort_hif_nextEng (d : Dev) (p : Nat) (x : HifPort) : (d.setHifPort p x).hif.nextEng = d.hif.nextEng := rfl

/-! `Dev.setMgt`. -/

@[simp] theorem setMgt_regs (d : Dev) (x : MgtPart) : (d.setMgt x).regs = d.regs := rfl
@[simp] theorem setMgt_hbm (d : Dev) (x : MgtPart) : (d.setMgt x).hbm = d.hbm := rfl
@[simp] theorem setMgt_glb (d : Dev) (x : MgtPart) : (d.setMgt x).glb = d.glb := rfl
@[simp] theorem setMgt_hif (d : Dev) (x : MgtPart) : (d.setMgt x).hif = d.hif := rfl
@[simp] theorem setMgt_ten (d : Dev) (x : MgtPart) : (d.setMgt x).ten = d.ten := rfl
@[simp] theorem setMgt_ring (d : Dev) (x : MgtPart) : (d.setMgt x).ring = d.ring := rfl
@[simp] theorem setMgt_dma (d : Dev) (x : MgtPart) : (d.setMgt x).dma = d.dma := rfl
@[simp] theorem setMgt_port (d : Dev) (x : MgtPart) : (d.setMgt x).port = d.port := rfl
@[simp] theorem setMgt_cls (d : Dev) (x : MgtPart) : (d.setMgt x).cls = d.cls := rfl
@[simp] theorem setMgt_fwd (d : Dev) (x : MgtPart) : (d.setMgt x).fwd = d.fwd := rfl
@[simp] theorem setMgt_cpu (d : Dev) (x : MgtPart) : (d.setMgt x).cpu = d.cpu := rfl
@[simp] theorem setMgt_twin (d : Dev) (x : MgtPart) : (d.setMgt x).twin = d.twin := rfl
@[simp] theorem setMgt_fab (d : Dev) (x : MgtPart) : (d.setMgt x).fab = d.fab := rfl
@[simp] theorem setMgt_cry (d : Dev) (x : MgtPart) : (d.setMgt x).cry = d.cry := rfl
@[simp] theorem setMgt_sto (d : Dev) (x : MgtPart) : (d.setMgt x).sto = d.sto := rfl
@[simp] theorem setMgt_arc (d : Dev) (x : MgtPart) : (d.setMgt x).arc = d.arc := rfl
@[simp] theorem setMgt_toll (d : Dev) (x : MgtPart) : (d.setMgt x).toll = d.toll := rfl
@[simp] theorem setMgt_time (d : Dev) (x : MgtPart) : (d.setMgt x).time = d.time := rfl
@[simp] theorem setMgt_pwr (d : Dev) (x : MgtPart) : (d.setMgt x).pwr = d.pwr := rfl
@[simp] theorem setMgt_out (d : Dev) (x : MgtPart) : (d.setMgt x).out = d.out := rfl
@[simp] theorem setMgt_lastRead (d : Dev) (x : MgtPart) : (d.setMgt x).lastRead = d.lastRead := rfl
@[simp] theorem setMgt_serial (d : Dev) (x : MgtPart) : (d.setMgt x).serial = d.serial := rfl
@[simp] theorem setMgt_mgt (d : Dev) (x : MgtPart) : (d.setMgt x).mgt = x := rfl

/-! `Dev.setNetPort`. -/

@[simp] theorem setNetPort_regs (d : Dev) (p : Nat) (x : Port) : (d.setNetPort p x).regs = d.regs := rfl
@[simp] theorem setNetPort_hbm (d : Dev) (p : Nat) (x : Port) : (d.setNetPort p x).hbm = d.hbm := rfl
@[simp] theorem setNetPort_glb (d : Dev) (p : Nat) (x : Port) : (d.setNetPort p x).glb = d.glb := rfl
@[simp] theorem setNetPort_hif (d : Dev) (p : Nat) (x : Port) : (d.setNetPort p x).hif = d.hif := rfl
@[simp] theorem setNetPort_ten (d : Dev) (p : Nat) (x : Port) : (d.setNetPort p x).ten = d.ten := rfl
@[simp] theorem setNetPort_ring (d : Dev) (p : Nat) (x : Port) : (d.setNetPort p x).ring = d.ring := rfl
@[simp] theorem setNetPort_dma (d : Dev) (p : Nat) (x : Port) : (d.setNetPort p x).dma = d.dma := rfl
@[simp] theorem setNetPort_cls (d : Dev) (p : Nat) (x : Port) : (d.setNetPort p x).cls = d.cls := rfl
@[simp] theorem setNetPort_fwd (d : Dev) (p : Nat) (x : Port) : (d.setNetPort p x).fwd = d.fwd := rfl
@[simp] theorem setNetPort_cpu (d : Dev) (p : Nat) (x : Port) : (d.setNetPort p x).cpu = d.cpu := rfl
@[simp] theorem setNetPort_twin (d : Dev) (p : Nat) (x : Port) : (d.setNetPort p x).twin = d.twin := rfl
@[simp] theorem setNetPort_fab (d : Dev) (p : Nat) (x : Port) : (d.setNetPort p x).fab = d.fab := rfl
@[simp] theorem setNetPort_cry (d : Dev) (p : Nat) (x : Port) : (d.setNetPort p x).cry = d.cry := rfl
@[simp] theorem setNetPort_sto (d : Dev) (p : Nat) (x : Port) : (d.setNetPort p x).sto = d.sto := rfl
@[simp] theorem setNetPort_arc (d : Dev) (p : Nat) (x : Port) : (d.setNetPort p x).arc = d.arc := rfl
@[simp] theorem setNetPort_toll (d : Dev) (p : Nat) (x : Port) : (d.setNetPort p x).toll = d.toll := rfl
@[simp] theorem setNetPort_mgt (d : Dev) (p : Nat) (x : Port) : (d.setNetPort p x).mgt = d.mgt := rfl
@[simp] theorem setNetPort_time (d : Dev) (p : Nat) (x : Port) : (d.setNetPort p x).time = d.time := rfl
@[simp] theorem setNetPort_pwr (d : Dev) (p : Nat) (x : Port) : (d.setNetPort p x).pwr = d.pwr := rfl
@[simp] theorem setNetPort_out (d : Dev) (p : Nat) (x : Port) : (d.setNetPort p x).out = d.out := rfl
@[simp] theorem setNetPort_lastRead (d : Dev) (p : Nat) (x : Port) : (d.setNetPort p x).lastRead = d.lastRead := rfl
@[simp] theorem setNetPort_serial (d : Dev) (p : Nat) (x : Port) : (d.setNetPort p x).serial = d.serial := rfl
@[simp] theorem setNetPort_port_modes (d : Dev) (p : Nat) (x : Port) : (d.setNetPort p x).port.modes = d.port.modes := rfl
@[simp] theorem setNetPort_port_svb (d : Dev) (p : Nat) (x : Port) : (d.setNetPort p x).port.svb = d.port.svb := rfl

/-! `Dev.setPlanes`. -/

@[simp] theorem setPlanes_regs (d : Dev) (x : Planes) : (d.setPlanes x).regs = d.regs := rfl
@[simp] theorem setPlanes_hbm (d : Dev) (x : Planes) : (d.setPlanes x).hbm = d.hbm := rfl
@[simp] theorem setPlanes_hif (d : Dev) (x : Planes) : (d.setPlanes x).hif = d.hif := rfl
@[simp] theorem setPlanes_ten (d : Dev) (x : Planes) : (d.setPlanes x).ten = d.ten := rfl
@[simp] theorem setPlanes_ring (d : Dev) (x : Planes) : (d.setPlanes x).ring = d.ring := rfl
@[simp] theorem setPlanes_dma (d : Dev) (x : Planes) : (d.setPlanes x).dma = d.dma := rfl
@[simp] theorem setPlanes_port (d : Dev) (x : Planes) : (d.setPlanes x).port = d.port := rfl
@[simp] theorem setPlanes_cls (d : Dev) (x : Planes) : (d.setPlanes x).cls = d.cls := rfl
@[simp] theorem setPlanes_fwd (d : Dev) (x : Planes) : (d.setPlanes x).fwd = d.fwd := rfl
@[simp] theorem setPlanes_cpu (d : Dev) (x : Planes) : (d.setPlanes x).cpu = d.cpu := rfl
@[simp] theorem setPlanes_twin (d : Dev) (x : Planes) : (d.setPlanes x).twin = d.twin := rfl
@[simp] theorem setPlanes_fab (d : Dev) (x : Planes) : (d.setPlanes x).fab = d.fab := rfl
@[simp] theorem setPlanes_cry (d : Dev) (x : Planes) : (d.setPlanes x).cry = d.cry := rfl
@[simp] theorem setPlanes_sto (d : Dev) (x : Planes) : (d.setPlanes x).sto = d.sto := rfl
@[simp] theorem setPlanes_arc (d : Dev) (x : Planes) : (d.setPlanes x).arc = d.arc := rfl
@[simp] theorem setPlanes_toll (d : Dev) (x : Planes) : (d.setPlanes x).toll = d.toll := rfl
@[simp] theorem setPlanes_mgt (d : Dev) (x : Planes) : (d.setPlanes x).mgt = d.mgt := rfl
@[simp] theorem setPlanes_time (d : Dev) (x : Planes) : (d.setPlanes x).time = d.time := rfl
@[simp] theorem setPlanes_pwr (d : Dev) (x : Planes) : (d.setPlanes x).pwr = d.pwr := rfl
@[simp] theorem setPlanes_out (d : Dev) (x : Planes) : (d.setPlanes x).out = d.out := rfl
@[simp] theorem setPlanes_lastRead (d : Dev) (x : Planes) : (d.setPlanes x).lastRead = d.lastRead := rfl
@[simp] theorem setPlanes_serial (d : Dev) (x : Planes) : (d.setPlanes x).serial = d.serial := rfl
@[simp] theorem setPlanes_glb_square (d : Dev) (x : Planes) : (d.setPlanes x).glb.square = d.glb.square := rfl
@[simp] theorem setPlanes_glb_exc (d : Dev) (x : Planes) : (d.setPlanes x).glb.exc = d.glb.exc := rfl
@[simp] theorem setPlanes_glb_admSeq (d : Dev) (x : Planes) : (d.setPlanes x).glb.admSeq = d.glb.admSeq := rfl
@[simp] theorem setPlanes_glb_admJournal (d : Dev) (x : Planes) : (d.setPlanes x).glb.admJournal = d.glb.admJournal := rfl
@[simp] theorem setPlanes_glb_tueQ (d : Dev) (x : Planes) : (d.setPlanes x).glb.tueQ = d.glb.tueQ := rfl
@[simp] theorem setPlanes_glb_tblSeq (d : Dev) (x : Planes) : (d.setPlanes x).glb.tblSeq = d.glb.tblSeq := rfl
@[simp] theorem setPlanes_glb_tblJournal (d : Dev) (x : Planes) : (d.setPlanes x).glb.tblJournal = d.glb.tblJournal := rfl
@[simp] theorem setPlanes_glb_recSeq (d : Dev) (x : Planes) : (d.setPlanes x).glb.recSeq = d.glb.recSeq := rfl

/-! `Dev.setPwr`. -/

@[simp] theorem setPwr_regs (d : Dev) (x : PwrPart) : (d.setPwr x).regs = d.regs := rfl
@[simp] theorem setPwr_hbm (d : Dev) (x : PwrPart) : (d.setPwr x).hbm = d.hbm := rfl
@[simp] theorem setPwr_glb (d : Dev) (x : PwrPart) : (d.setPwr x).glb = d.glb := rfl
@[simp] theorem setPwr_hif (d : Dev) (x : PwrPart) : (d.setPwr x).hif = d.hif := rfl
@[simp] theorem setPwr_ten (d : Dev) (x : PwrPart) : (d.setPwr x).ten = d.ten := rfl
@[simp] theorem setPwr_ring (d : Dev) (x : PwrPart) : (d.setPwr x).ring = d.ring := rfl
@[simp] theorem setPwr_dma (d : Dev) (x : PwrPart) : (d.setPwr x).dma = d.dma := rfl
@[simp] theorem setPwr_port (d : Dev) (x : PwrPart) : (d.setPwr x).port = d.port := rfl
@[simp] theorem setPwr_cls (d : Dev) (x : PwrPart) : (d.setPwr x).cls = d.cls := rfl
@[simp] theorem setPwr_fwd (d : Dev) (x : PwrPart) : (d.setPwr x).fwd = d.fwd := rfl
@[simp] theorem setPwr_cpu (d : Dev) (x : PwrPart) : (d.setPwr x).cpu = d.cpu := rfl
@[simp] theorem setPwr_twin (d : Dev) (x : PwrPart) : (d.setPwr x).twin = d.twin := rfl
@[simp] theorem setPwr_fab (d : Dev) (x : PwrPart) : (d.setPwr x).fab = d.fab := rfl
@[simp] theorem setPwr_cry (d : Dev) (x : PwrPart) : (d.setPwr x).cry = d.cry := rfl
@[simp] theorem setPwr_sto (d : Dev) (x : PwrPart) : (d.setPwr x).sto = d.sto := rfl
@[simp] theorem setPwr_arc (d : Dev) (x : PwrPart) : (d.setPwr x).arc = d.arc := rfl
@[simp] theorem setPwr_toll (d : Dev) (x : PwrPart) : (d.setPwr x).toll = d.toll := rfl
@[simp] theorem setPwr_mgt (d : Dev) (x : PwrPart) : (d.setPwr x).mgt = d.mgt := rfl
@[simp] theorem setPwr_time (d : Dev) (x : PwrPart) : (d.setPwr x).time = d.time := rfl
@[simp] theorem setPwr_out (d : Dev) (x : PwrPart) : (d.setPwr x).out = d.out := rfl
@[simp] theorem setPwr_lastRead (d : Dev) (x : PwrPart) : (d.setPwr x).lastRead = d.lastRead := rfl
@[simp] theorem setPwr_serial (d : Dev) (x : PwrPart) : (d.setPwr x).serial = d.serial := rfl
@[simp] theorem setPwr_pwr (d : Dev) (x : PwrPart) : (d.setPwr x).pwr = x := rfl

/-! `Dev.setReg`. -/

@[simp] theorem setReg_hbm (d : Dev) (off : Nat) (v : Word) : (d.setReg off v).hbm = d.hbm := rfl
@[simp] theorem setReg_glb (d : Dev) (off : Nat) (v : Word) : (d.setReg off v).glb = d.glb := rfl
@[simp] theorem setReg_hif (d : Dev) (off : Nat) (v : Word) : (d.setReg off v).hif = d.hif := rfl
@[simp] theorem setReg_ten (d : Dev) (off : Nat) (v : Word) : (d.setReg off v).ten = d.ten := rfl
@[simp] theorem setReg_ring (d : Dev) (off : Nat) (v : Word) : (d.setReg off v).ring = d.ring := rfl
@[simp] theorem setReg_dma (d : Dev) (off : Nat) (v : Word) : (d.setReg off v).dma = d.dma := rfl
@[simp] theorem setReg_port (d : Dev) (off : Nat) (v : Word) : (d.setReg off v).port = d.port := rfl
@[simp] theorem setReg_cls (d : Dev) (off : Nat) (v : Word) : (d.setReg off v).cls = d.cls := rfl
@[simp] theorem setReg_fwd (d : Dev) (off : Nat) (v : Word) : (d.setReg off v).fwd = d.fwd := rfl
@[simp] theorem setReg_cpu (d : Dev) (off : Nat) (v : Word) : (d.setReg off v).cpu = d.cpu := rfl
@[simp] theorem setReg_twin (d : Dev) (off : Nat) (v : Word) : (d.setReg off v).twin = d.twin := rfl
@[simp] theorem setReg_fab (d : Dev) (off : Nat) (v : Word) : (d.setReg off v).fab = d.fab := rfl
@[simp] theorem setReg_cry (d : Dev) (off : Nat) (v : Word) : (d.setReg off v).cry = d.cry := rfl
@[simp] theorem setReg_sto (d : Dev) (off : Nat) (v : Word) : (d.setReg off v).sto = d.sto := rfl
@[simp] theorem setReg_arc (d : Dev) (off : Nat) (v : Word) : (d.setReg off v).arc = d.arc := rfl
@[simp] theorem setReg_toll (d : Dev) (off : Nat) (v : Word) : (d.setReg off v).toll = d.toll := rfl
@[simp] theorem setReg_mgt (d : Dev) (off : Nat) (v : Word) : (d.setReg off v).mgt = d.mgt := rfl
@[simp] theorem setReg_time (d : Dev) (off : Nat) (v : Word) : (d.setReg off v).time = d.time := rfl
@[simp] theorem setReg_pwr (d : Dev) (off : Nat) (v : Word) : (d.setReg off v).pwr = d.pwr := rfl
@[simp] theorem setReg_out (d : Dev) (off : Nat) (v : Word) : (d.setReg off v).out = d.out := rfl
@[simp] theorem setReg_lastRead (d : Dev) (off : Nat) (v : Word) : (d.setReg off v).lastRead = d.lastRead := rfl
@[simp] theorem setReg_serial (d : Dev) (off : Nat) (v : Word) : (d.setReg off v).serial = d.serial := rfl

/-! `Dev.setRset`. -/

@[simp] theorem setRset_regs (d : Dev) (r : Nat) (x : Rset) : (d.setRset r x).regs = d.regs := rfl
@[simp] theorem setRset_hbm (d : Dev) (r : Nat) (x : Rset) : (d.setRset r x).hbm = d.hbm := rfl
@[simp] theorem setRset_glb (d : Dev) (r : Nat) (x : Rset) : (d.setRset r x).glb = d.glb := rfl
@[simp] theorem setRset_hif (d : Dev) (r : Nat) (x : Rset) : (d.setRset r x).hif = d.hif := rfl
@[simp] theorem setRset_ten (d : Dev) (r : Nat) (x : Rset) : (d.setRset r x).ten = d.ten := rfl
@[simp] theorem setRset_ring (d : Dev) (r : Nat) (x : Rset) : (d.setRset r x).ring = d.ring := rfl
@[simp] theorem setRset_dma (d : Dev) (r : Nat) (x : Rset) : (d.setRset r x).dma = d.dma := rfl
@[simp] theorem setRset_port (d : Dev) (r : Nat) (x : Rset) : (d.setRset r x).port = d.port := rfl
@[simp] theorem setRset_fwd (d : Dev) (r : Nat) (x : Rset) : (d.setRset r x).fwd = d.fwd := rfl
@[simp] theorem setRset_cpu (d : Dev) (r : Nat) (x : Rset) : (d.setRset r x).cpu = d.cpu := rfl
@[simp] theorem setRset_twin (d : Dev) (r : Nat) (x : Rset) : (d.setRset r x).twin = d.twin := rfl
@[simp] theorem setRset_fab (d : Dev) (r : Nat) (x : Rset) : (d.setRset r x).fab = d.fab := rfl
@[simp] theorem setRset_cry (d : Dev) (r : Nat) (x : Rset) : (d.setRset r x).cry = d.cry := rfl
@[simp] theorem setRset_sto (d : Dev) (r : Nat) (x : Rset) : (d.setRset r x).sto = d.sto := rfl
@[simp] theorem setRset_arc (d : Dev) (r : Nat) (x : Rset) : (d.setRset r x).arc = d.arc := rfl
@[simp] theorem setRset_toll (d : Dev) (r : Nat) (x : Rset) : (d.setRset r x).toll = d.toll := rfl
@[simp] theorem setRset_mgt (d : Dev) (r : Nat) (x : Rset) : (d.setRset r x).mgt = d.mgt := rfl
@[simp] theorem setRset_time (d : Dev) (r : Nat) (x : Rset) : (d.setRset r x).time = d.time := rfl
@[simp] theorem setRset_pwr (d : Dev) (r : Nat) (x : Rset) : (d.setRset r x).pwr = d.pwr := rfl
@[simp] theorem setRset_out (d : Dev) (r : Nat) (x : Rset) : (d.setRset r x).out = d.out := rfl
@[simp] theorem setRset_lastRead (d : Dev) (r : Nat) (x : Rset) : (d.setRset r x).lastRead = d.lastRead := rfl
@[simp] theorem setRset_serial (d : Dev) (r : Nat) (x : Rset) : (d.setRset r x).serial = d.serial := rfl
@[simp] theorem setRset_cls_banks (d : Dev) (r : Nat) (x : Rset) : (d.setRset r x).cls.banks = d.cls.banks := rfl
@[simp] theorem setRset_cls_active (d : Dev) (r : Nat) (x : Rset) : (d.setRset r x).cls.active = d.cls.active := rfl
@[simp] theorem setRset_cls_commit (d : Dev) (r : Nat) (x : Rset) : (d.setRset r x).cls.commit = d.cls.commit := rfl
@[simp] theorem setRset_cls_tcam (d : Dev) (r : Nat) (x : Rset) : (d.setRset r x).cls.tcam = d.cls.tcam := rfl
@[simp] theorem setRset_cls_chain (d : Dev) (r : Nat) (x : Rset) : (d.setRset r x).cls.chain = d.cls.chain := rfl
@[simp] theorem setRset_cls_hprofs (d : Dev) (r : Nat) (x : Rset) : (d.setRset r x).cls.hprofs = d.cls.hprofs := rfl
@[simp] theorem setRset_cls_pool (d : Dev) (r : Nat) (x : Rset) : (d.setRset r x).cls.pool = d.cls.pool := rfl
@[simp] theorem setRset_cls_inds (d : Dev) (r : Nat) (x : Rset) : (d.setRset r x).cls.inds = d.cls.inds := rfl
@[simp] theorem setRset_cls_reentryQ (d : Dev) (r : Nat) (x : Rset) : (d.setRset r x).cls.reentryQ = d.cls.reentryQ := rfl
@[simp] theorem setRset_cls_scrub (d : Dev) (r : Nat) (x : Rset) : (d.setRset r x).cls.scrub = d.cls.scrub := rfl

/-! `Dev.setSquare`. -/

@[simp] theorem setSquare_regs (d : Dev) (q : Square) : (d.setSquare q).regs = d.regs := rfl
@[simp] theorem setSquare_hbm (d : Dev) (q : Square) : (d.setSquare q).hbm = d.hbm := rfl
@[simp] theorem setSquare_hif (d : Dev) (q : Square) : (d.setSquare q).hif = d.hif := rfl
@[simp] theorem setSquare_ten (d : Dev) (q : Square) : (d.setSquare q).ten = d.ten := rfl
@[simp] theorem setSquare_ring (d : Dev) (q : Square) : (d.setSquare q).ring = d.ring := rfl
@[simp] theorem setSquare_dma (d : Dev) (q : Square) : (d.setSquare q).dma = d.dma := rfl
@[simp] theorem setSquare_port (d : Dev) (q : Square) : (d.setSquare q).port = d.port := rfl
@[simp] theorem setSquare_cls (d : Dev) (q : Square) : (d.setSquare q).cls = d.cls := rfl
@[simp] theorem setSquare_fwd (d : Dev) (q : Square) : (d.setSquare q).fwd = d.fwd := rfl
@[simp] theorem setSquare_cpu (d : Dev) (q : Square) : (d.setSquare q).cpu = d.cpu := rfl
@[simp] theorem setSquare_twin (d : Dev) (q : Square) : (d.setSquare q).twin = d.twin := rfl
@[simp] theorem setSquare_fab (d : Dev) (q : Square) : (d.setSquare q).fab = d.fab := rfl
@[simp] theorem setSquare_cry (d : Dev) (q : Square) : (d.setSquare q).cry = d.cry := rfl
@[simp] theorem setSquare_sto (d : Dev) (q : Square) : (d.setSquare q).sto = d.sto := rfl
@[simp] theorem setSquare_arc (d : Dev) (q : Square) : (d.setSquare q).arc = d.arc := rfl
@[simp] theorem setSquare_toll (d : Dev) (q : Square) : (d.setSquare q).toll = d.toll := rfl
@[simp] theorem setSquare_mgt (d : Dev) (q : Square) : (d.setSquare q).mgt = d.mgt := rfl
@[simp] theorem setSquare_time (d : Dev) (q : Square) : (d.setSquare q).time = d.time := rfl
@[simp] theorem setSquare_pwr (d : Dev) (q : Square) : (d.setSquare q).pwr = d.pwr := rfl
@[simp] theorem setSquare_out (d : Dev) (q : Square) : (d.setSquare q).out = d.out := rfl
@[simp] theorem setSquare_lastRead (d : Dev) (q : Square) : (d.setSquare q).lastRead = d.lastRead := rfl
@[simp] theorem setSquare_serial (d : Dev) (q : Square) : (d.setSquare q).serial = d.serial := rfl
@[simp] theorem setSquare_glb_exc (d : Dev) (q : Square) : (d.setSquare q).glb.exc = d.glb.exc := rfl
@[simp] theorem setSquare_glb_planes (d : Dev) (q : Square) : (d.setSquare q).glb.planes = d.glb.planes := rfl
@[simp] theorem setSquare_glb_admSeq (d : Dev) (q : Square) : (d.setSquare q).glb.admSeq = d.glb.admSeq := rfl
@[simp] theorem setSquare_glb_admJournal (d : Dev) (q : Square) : (d.setSquare q).glb.admJournal = d.glb.admJournal := rfl
@[simp] theorem setSquare_glb_tueQ (d : Dev) (q : Square) : (d.setSquare q).glb.tueQ = d.glb.tueQ := rfl
@[simp] theorem setSquare_glb_tblSeq (d : Dev) (q : Square) : (d.setSquare q).glb.tblSeq = d.glb.tblSeq := rfl
@[simp] theorem setSquare_glb_tblJournal (d : Dev) (q : Square) : (d.setSquare q).glb.tblJournal = d.glb.tblJournal := rfl
@[simp] theorem setSquare_glb_recSeq (d : Dev) (q : Square) : (d.setSquare q).glb.recSeq = d.glb.recSeq := rfl

/-! `Dev.setSsd`. -/

@[simp] theorem setSsd_regs (d : Dev) (c : Nat) (x : Ssd) : (d.setSsd c x).regs = d.regs := rfl
@[simp] theorem setSsd_hbm (d : Dev) (c : Nat) (x : Ssd) : (d.setSsd c x).hbm = d.hbm := rfl
@[simp] theorem setSsd_glb (d : Dev) (c : Nat) (x : Ssd) : (d.setSsd c x).glb = d.glb := rfl
@[simp] theorem setSsd_hif (d : Dev) (c : Nat) (x : Ssd) : (d.setSsd c x).hif = d.hif := rfl
@[simp] theorem setSsd_ten (d : Dev) (c : Nat) (x : Ssd) : (d.setSsd c x).ten = d.ten := rfl
@[simp] theorem setSsd_ring (d : Dev) (c : Nat) (x : Ssd) : (d.setSsd c x).ring = d.ring := rfl
@[simp] theorem setSsd_dma (d : Dev) (c : Nat) (x : Ssd) : (d.setSsd c x).dma = d.dma := rfl
@[simp] theorem setSsd_port (d : Dev) (c : Nat) (x : Ssd) : (d.setSsd c x).port = d.port := rfl
@[simp] theorem setSsd_cls (d : Dev) (c : Nat) (x : Ssd) : (d.setSsd c x).cls = d.cls := rfl
@[simp] theorem setSsd_fwd (d : Dev) (c : Nat) (x : Ssd) : (d.setSsd c x).fwd = d.fwd := rfl
@[simp] theorem setSsd_cpu (d : Dev) (c : Nat) (x : Ssd) : (d.setSsd c x).cpu = d.cpu := rfl
@[simp] theorem setSsd_twin (d : Dev) (c : Nat) (x : Ssd) : (d.setSsd c x).twin = d.twin := rfl
@[simp] theorem setSsd_fab (d : Dev) (c : Nat) (x : Ssd) : (d.setSsd c x).fab = d.fab := rfl
@[simp] theorem setSsd_cry (d : Dev) (c : Nat) (x : Ssd) : (d.setSsd c x).cry = d.cry := rfl
@[simp] theorem setSsd_arc (d : Dev) (c : Nat) (x : Ssd) : (d.setSsd c x).arc = d.arc := rfl
@[simp] theorem setSsd_toll (d : Dev) (c : Nat) (x : Ssd) : (d.setSsd c x).toll = d.toll := rfl
@[simp] theorem setSsd_mgt (d : Dev) (c : Nat) (x : Ssd) : (d.setSsd c x).mgt = d.mgt := rfl
@[simp] theorem setSsd_time (d : Dev) (c : Nat) (x : Ssd) : (d.setSsd c x).time = d.time := rfl
@[simp] theorem setSsd_pwr (d : Dev) (c : Nat) (x : Ssd) : (d.setSsd c x).pwr = d.pwr := rfl
@[simp] theorem setSsd_out (d : Dev) (c : Nat) (x : Ssd) : (d.setSsd c x).out = d.out := rfl
@[simp] theorem setSsd_lastRead (d : Dev) (c : Nat) (x : Ssd) : (d.setSsd c x).lastRead = d.lastRead := rfl
@[simp] theorem setSsd_serial (d : Dev) (c : Nat) (x : Ssd) : (d.setSsd c x).serial = d.serial := rfl
@[simp] theorem setSsd_sto_ctxs (d : Dev) (c : Nat) (x : Ssd) : (d.setSsd c x).sto.ctxs = d.sto.ctxs := rfl
@[simp] theorem setSsd_sto_ctrls (d : Dev) (c : Nat) (x : Ssd) : (d.setSsd c x).sto.ctrls = d.sto.ctrls := rfl
@[simp] theorem setSsd_sto_orphans (d : Dev) (c : Nat) (x : Ssd) : (d.setSsd c x).sto.orphans = d.sto.orphans := rfl

/-! `Dev.setSto`. -/

@[simp] theorem setSto_regs (d : Dev) (c : Nat) (x : StoCtx) : (d.setSto c x).regs = d.regs := rfl
@[simp] theorem setSto_hbm (d : Dev) (c : Nat) (x : StoCtx) : (d.setSto c x).hbm = d.hbm := rfl
@[simp] theorem setSto_glb (d : Dev) (c : Nat) (x : StoCtx) : (d.setSto c x).glb = d.glb := rfl
@[simp] theorem setSto_hif (d : Dev) (c : Nat) (x : StoCtx) : (d.setSto c x).hif = d.hif := rfl
@[simp] theorem setSto_ten (d : Dev) (c : Nat) (x : StoCtx) : (d.setSto c x).ten = d.ten := rfl
@[simp] theorem setSto_ring (d : Dev) (c : Nat) (x : StoCtx) : (d.setSto c x).ring = d.ring := rfl
@[simp] theorem setSto_dma (d : Dev) (c : Nat) (x : StoCtx) : (d.setSto c x).dma = d.dma := rfl
@[simp] theorem setSto_port (d : Dev) (c : Nat) (x : StoCtx) : (d.setSto c x).port = d.port := rfl
@[simp] theorem setSto_cls (d : Dev) (c : Nat) (x : StoCtx) : (d.setSto c x).cls = d.cls := rfl
@[simp] theorem setSto_fwd (d : Dev) (c : Nat) (x : StoCtx) : (d.setSto c x).fwd = d.fwd := rfl
@[simp] theorem setSto_cpu (d : Dev) (c : Nat) (x : StoCtx) : (d.setSto c x).cpu = d.cpu := rfl
@[simp] theorem setSto_twin (d : Dev) (c : Nat) (x : StoCtx) : (d.setSto c x).twin = d.twin := rfl
@[simp] theorem setSto_fab (d : Dev) (c : Nat) (x : StoCtx) : (d.setSto c x).fab = d.fab := rfl
@[simp] theorem setSto_cry (d : Dev) (c : Nat) (x : StoCtx) : (d.setSto c x).cry = d.cry := rfl
@[simp] theorem setSto_arc (d : Dev) (c : Nat) (x : StoCtx) : (d.setSto c x).arc = d.arc := rfl
@[simp] theorem setSto_toll (d : Dev) (c : Nat) (x : StoCtx) : (d.setSto c x).toll = d.toll := rfl
@[simp] theorem setSto_mgt (d : Dev) (c : Nat) (x : StoCtx) : (d.setSto c x).mgt = d.mgt := rfl
@[simp] theorem setSto_time (d : Dev) (c : Nat) (x : StoCtx) : (d.setSto c x).time = d.time := rfl
@[simp] theorem setSto_pwr (d : Dev) (c : Nat) (x : StoCtx) : (d.setSto c x).pwr = d.pwr := rfl
@[simp] theorem setSto_out (d : Dev) (c : Nat) (x : StoCtx) : (d.setSto c x).out = d.out := rfl
@[simp] theorem setSto_lastRead (d : Dev) (c : Nat) (x : StoCtx) : (d.setSto c x).lastRead = d.lastRead := rfl
@[simp] theorem setSto_serial (d : Dev) (c : Nat) (x : StoCtx) : (d.setSto c x).serial = d.serial := rfl
@[simp] theorem setSto_sto_ctrls (d : Dev) (c : Nat) (x : StoCtx) : (d.setSto c x).sto.ctrls = d.sto.ctrls := rfl
@[simp] theorem setSto_sto_ssds (d : Dev) (c : Nat) (x : StoCtx) : (d.setSto c x).sto.ssds = d.sto.ssds := rfl
@[simp] theorem setSto_sto_orphans (d : Dev) (c : Nat) (x : StoCtx) : (d.setSto c x).sto.orphans = d.sto.orphans := rfl

/-! `Dev.setSvb`. -/

@[simp] theorem setSvb_regs (d : Dev) (x : Svb) : (d.setSvb x).regs = d.regs := rfl
@[simp] theorem setSvb_hbm (d : Dev) (x : Svb) : (d.setSvb x).hbm = d.hbm := rfl
@[simp] theorem setSvb_glb (d : Dev) (x : Svb) : (d.setSvb x).glb = d.glb := rfl
@[simp] theorem setSvb_hif (d : Dev) (x : Svb) : (d.setSvb x).hif = d.hif := rfl
@[simp] theorem setSvb_ten (d : Dev) (x : Svb) : (d.setSvb x).ten = d.ten := rfl
@[simp] theorem setSvb_ring (d : Dev) (x : Svb) : (d.setSvb x).ring = d.ring := rfl
@[simp] theorem setSvb_dma (d : Dev) (x : Svb) : (d.setSvb x).dma = d.dma := rfl
@[simp] theorem setSvb_cls (d : Dev) (x : Svb) : (d.setSvb x).cls = d.cls := rfl
@[simp] theorem setSvb_fwd (d : Dev) (x : Svb) : (d.setSvb x).fwd = d.fwd := rfl
@[simp] theorem setSvb_cpu (d : Dev) (x : Svb) : (d.setSvb x).cpu = d.cpu := rfl
@[simp] theorem setSvb_twin (d : Dev) (x : Svb) : (d.setSvb x).twin = d.twin := rfl
@[simp] theorem setSvb_fab (d : Dev) (x : Svb) : (d.setSvb x).fab = d.fab := rfl
@[simp] theorem setSvb_cry (d : Dev) (x : Svb) : (d.setSvb x).cry = d.cry := rfl
@[simp] theorem setSvb_sto (d : Dev) (x : Svb) : (d.setSvb x).sto = d.sto := rfl
@[simp] theorem setSvb_arc (d : Dev) (x : Svb) : (d.setSvb x).arc = d.arc := rfl
@[simp] theorem setSvb_toll (d : Dev) (x : Svb) : (d.setSvb x).toll = d.toll := rfl
@[simp] theorem setSvb_mgt (d : Dev) (x : Svb) : (d.setSvb x).mgt = d.mgt := rfl
@[simp] theorem setSvb_time (d : Dev) (x : Svb) : (d.setSvb x).time = d.time := rfl
@[simp] theorem setSvb_pwr (d : Dev) (x : Svb) : (d.setSvb x).pwr = d.pwr := rfl
@[simp] theorem setSvb_out (d : Dev) (x : Svb) : (d.setSvb x).out = d.out := rfl
@[simp] theorem setSvb_lastRead (d : Dev) (x : Svb) : (d.setSvb x).lastRead = d.lastRead := rfl
@[simp] theorem setSvb_serial (d : Dev) (x : Svb) : (d.setSvb x).serial = d.serial := rfl
@[simp] theorem setSvb_port_ports (d : Dev) (x : Svb) : (d.setSvb x).port.ports = d.port.ports := rfl
@[simp] theorem setSvb_port_modes (d : Dev) (x : Svb) : (d.setSvb x).port.modes = d.port.modes := rfl

/-! `Dev.setTime`. -/

@[simp] theorem setTime_regs (d : Dev) (x : TimePart) : (d.setTime x).regs = d.regs := rfl
@[simp] theorem setTime_hbm (d : Dev) (x : TimePart) : (d.setTime x).hbm = d.hbm := rfl
@[simp] theorem setTime_glb (d : Dev) (x : TimePart) : (d.setTime x).glb = d.glb := rfl
@[simp] theorem setTime_hif (d : Dev) (x : TimePart) : (d.setTime x).hif = d.hif := rfl
@[simp] theorem setTime_ten (d : Dev) (x : TimePart) : (d.setTime x).ten = d.ten := rfl
@[simp] theorem setTime_ring (d : Dev) (x : TimePart) : (d.setTime x).ring = d.ring := rfl
@[simp] theorem setTime_dma (d : Dev) (x : TimePart) : (d.setTime x).dma = d.dma := rfl
@[simp] theorem setTime_port (d : Dev) (x : TimePart) : (d.setTime x).port = d.port := rfl
@[simp] theorem setTime_cls (d : Dev) (x : TimePart) : (d.setTime x).cls = d.cls := rfl
@[simp] theorem setTime_fwd (d : Dev) (x : TimePart) : (d.setTime x).fwd = d.fwd := rfl
@[simp] theorem setTime_cpu (d : Dev) (x : TimePart) : (d.setTime x).cpu = d.cpu := rfl
@[simp] theorem setTime_twin (d : Dev) (x : TimePart) : (d.setTime x).twin = d.twin := rfl
@[simp] theorem setTime_fab (d : Dev) (x : TimePart) : (d.setTime x).fab = d.fab := rfl
@[simp] theorem setTime_cry (d : Dev) (x : TimePart) : (d.setTime x).cry = d.cry := rfl
@[simp] theorem setTime_sto (d : Dev) (x : TimePart) : (d.setTime x).sto = d.sto := rfl
@[simp] theorem setTime_arc (d : Dev) (x : TimePart) : (d.setTime x).arc = d.arc := rfl
@[simp] theorem setTime_toll (d : Dev) (x : TimePart) : (d.setTime x).toll = d.toll := rfl
@[simp] theorem setTime_mgt (d : Dev) (x : TimePart) : (d.setTime x).mgt = d.mgt := rfl
@[simp] theorem setTime_pwr (d : Dev) (x : TimePart) : (d.setTime x).pwr = d.pwr := rfl
@[simp] theorem setTime_out (d : Dev) (x : TimePart) : (d.setTime x).out = d.out := rfl
@[simp] theorem setTime_lastRead (d : Dev) (x : TimePart) : (d.setTime x).lastRead = d.lastRead := rfl
@[simp] theorem setTime_serial (d : Dev) (x : TimePart) : (d.setTime x).serial = d.serial := rfl
@[simp] theorem setTime_time (d : Dev) (x : TimePart) : (d.setTime x).time = x := rfl

/-! `Dev.setToll`. -/

@[simp] theorem setToll_regs (d : Dev) (x : TollPart) : (d.setToll x).regs = d.regs := rfl
@[simp] theorem setToll_hbm (d : Dev) (x : TollPart) : (d.setToll x).hbm = d.hbm := rfl
@[simp] theorem setToll_glb (d : Dev) (x : TollPart) : (d.setToll x).glb = d.glb := rfl
@[simp] theorem setToll_hif (d : Dev) (x : TollPart) : (d.setToll x).hif = d.hif := rfl
@[simp] theorem setToll_ten (d : Dev) (x : TollPart) : (d.setToll x).ten = d.ten := rfl
@[simp] theorem setToll_ring (d : Dev) (x : TollPart) : (d.setToll x).ring = d.ring := rfl
@[simp] theorem setToll_dma (d : Dev) (x : TollPart) : (d.setToll x).dma = d.dma := rfl
@[simp] theorem setToll_port (d : Dev) (x : TollPart) : (d.setToll x).port = d.port := rfl
@[simp] theorem setToll_cls (d : Dev) (x : TollPart) : (d.setToll x).cls = d.cls := rfl
@[simp] theorem setToll_fwd (d : Dev) (x : TollPart) : (d.setToll x).fwd = d.fwd := rfl
@[simp] theorem setToll_cpu (d : Dev) (x : TollPart) : (d.setToll x).cpu = d.cpu := rfl
@[simp] theorem setToll_twin (d : Dev) (x : TollPart) : (d.setToll x).twin = d.twin := rfl
@[simp] theorem setToll_fab (d : Dev) (x : TollPart) : (d.setToll x).fab = d.fab := rfl
@[simp] theorem setToll_cry (d : Dev) (x : TollPart) : (d.setToll x).cry = d.cry := rfl
@[simp] theorem setToll_sto (d : Dev) (x : TollPart) : (d.setToll x).sto = d.sto := rfl
@[simp] theorem setToll_arc (d : Dev) (x : TollPart) : (d.setToll x).arc = d.arc := rfl
@[simp] theorem setToll_mgt (d : Dev) (x : TollPart) : (d.setToll x).mgt = d.mgt := rfl
@[simp] theorem setToll_time (d : Dev) (x : TollPart) : (d.setToll x).time = d.time := rfl
@[simp] theorem setToll_pwr (d : Dev) (x : TollPart) : (d.setToll x).pwr = d.pwr := rfl
@[simp] theorem setToll_out (d : Dev) (x : TollPart) : (d.setToll x).out = d.out := rfl
@[simp] theorem setToll_lastRead (d : Dev) (x : TollPart) : (d.setToll x).lastRead = d.lastRead := rfl
@[simp] theorem setToll_serial (d : Dev) (x : TollPart) : (d.setToll x).serial = d.serial := rfl
@[simp] theorem setToll_toll (d : Dev) (x : TollPart) : (d.setToll x).toll = x := rfl

/-! `Dev.setTwin`. -/

@[simp] theorem setTwin_regs (d : Dev) (x : TwinPart) : (d.setTwin x).regs = d.regs := rfl
@[simp] theorem setTwin_hbm (d : Dev) (x : TwinPart) : (d.setTwin x).hbm = d.hbm := rfl
@[simp] theorem setTwin_glb (d : Dev) (x : TwinPart) : (d.setTwin x).glb = d.glb := rfl
@[simp] theorem setTwin_hif (d : Dev) (x : TwinPart) : (d.setTwin x).hif = d.hif := rfl
@[simp] theorem setTwin_ten (d : Dev) (x : TwinPart) : (d.setTwin x).ten = d.ten := rfl
@[simp] theorem setTwin_ring (d : Dev) (x : TwinPart) : (d.setTwin x).ring = d.ring := rfl
@[simp] theorem setTwin_dma (d : Dev) (x : TwinPart) : (d.setTwin x).dma = d.dma := rfl
@[simp] theorem setTwin_port (d : Dev) (x : TwinPart) : (d.setTwin x).port = d.port := rfl
@[simp] theorem setTwin_cls (d : Dev) (x : TwinPart) : (d.setTwin x).cls = d.cls := rfl
@[simp] theorem setTwin_fwd (d : Dev) (x : TwinPart) : (d.setTwin x).fwd = d.fwd := rfl
@[simp] theorem setTwin_cpu (d : Dev) (x : TwinPart) : (d.setTwin x).cpu = d.cpu := rfl
@[simp] theorem setTwin_fab (d : Dev) (x : TwinPart) : (d.setTwin x).fab = d.fab := rfl
@[simp] theorem setTwin_cry (d : Dev) (x : TwinPart) : (d.setTwin x).cry = d.cry := rfl
@[simp] theorem setTwin_sto (d : Dev) (x : TwinPart) : (d.setTwin x).sto = d.sto := rfl
@[simp] theorem setTwin_arc (d : Dev) (x : TwinPart) : (d.setTwin x).arc = d.arc := rfl
@[simp] theorem setTwin_toll (d : Dev) (x : TwinPart) : (d.setTwin x).toll = d.toll := rfl
@[simp] theorem setTwin_mgt (d : Dev) (x : TwinPart) : (d.setTwin x).mgt = d.mgt := rfl
@[simp] theorem setTwin_time (d : Dev) (x : TwinPart) : (d.setTwin x).time = d.time := rfl
@[simp] theorem setTwin_pwr (d : Dev) (x : TwinPart) : (d.setTwin x).pwr = d.pwr := rfl
@[simp] theorem setTwin_out (d : Dev) (x : TwinPart) : (d.setTwin x).out = d.out := rfl
@[simp] theorem setTwin_lastRead (d : Dev) (x : TwinPart) : (d.setTwin x).lastRead = d.lastRead := rfl
@[simp] theorem setTwin_serial (d : Dev) (x : TwinPart) : (d.setTwin x).serial = d.serial := rfl
@[simp] theorem setTwin_twin (d : Dev) (x : TwinPart) : (d.setTwin x).twin = x := rfl

/-! `Dev.sqPut`. -/

@[simp] theorem sqPut_regs (d : Dev) (q : Nat) (x : Sq) : (d.sqPut q x).regs = d.regs := rfl
@[simp] theorem sqPut_hbm (d : Dev) (q : Nat) (x : Sq) : (d.sqPut q x).hbm = d.hbm := rfl
@[simp] theorem sqPut_glb (d : Dev) (q : Nat) (x : Sq) : (d.sqPut q x).glb = d.glb := rfl
@[simp] theorem sqPut_hif (d : Dev) (q : Nat) (x : Sq) : (d.sqPut q x).hif = d.hif := rfl
@[simp] theorem sqPut_ten (d : Dev) (q : Nat) (x : Sq) : (d.sqPut q x).ten = d.ten := rfl
@[simp] theorem sqPut_dma (d : Dev) (q : Nat) (x : Sq) : (d.sqPut q x).dma = d.dma := rfl
@[simp] theorem sqPut_port (d : Dev) (q : Nat) (x : Sq) : (d.sqPut q x).port = d.port := rfl
@[simp] theorem sqPut_cls (d : Dev) (q : Nat) (x : Sq) : (d.sqPut q x).cls = d.cls := rfl
@[simp] theorem sqPut_fwd (d : Dev) (q : Nat) (x : Sq) : (d.sqPut q x).fwd = d.fwd := rfl
@[simp] theorem sqPut_cpu (d : Dev) (q : Nat) (x : Sq) : (d.sqPut q x).cpu = d.cpu := rfl
@[simp] theorem sqPut_twin (d : Dev) (q : Nat) (x : Sq) : (d.sqPut q x).twin = d.twin := rfl
@[simp] theorem sqPut_fab (d : Dev) (q : Nat) (x : Sq) : (d.sqPut q x).fab = d.fab := rfl
@[simp] theorem sqPut_cry (d : Dev) (q : Nat) (x : Sq) : (d.sqPut q x).cry = d.cry := rfl
@[simp] theorem sqPut_sto (d : Dev) (q : Nat) (x : Sq) : (d.sqPut q x).sto = d.sto := rfl
@[simp] theorem sqPut_arc (d : Dev) (q : Nat) (x : Sq) : (d.sqPut q x).arc = d.arc := rfl
@[simp] theorem sqPut_toll (d : Dev) (q : Nat) (x : Sq) : (d.sqPut q x).toll = d.toll := rfl
@[simp] theorem sqPut_mgt (d : Dev) (q : Nat) (x : Sq) : (d.sqPut q x).mgt = d.mgt := rfl
@[simp] theorem sqPut_time (d : Dev) (q : Nat) (x : Sq) : (d.sqPut q x).time = d.time := rfl
@[simp] theorem sqPut_pwr (d : Dev) (q : Nat) (x : Sq) : (d.sqPut q x).pwr = d.pwr := rfl
@[simp] theorem sqPut_out (d : Dev) (q : Nat) (x : Sq) : (d.sqPut q x).out = d.out := rfl
@[simp] theorem sqPut_lastRead (d : Dev) (q : Nat) (x : Sq) : (d.sqPut q x).lastRead = d.lastRead := rfl
@[simp] theorem sqPut_serial (d : Dev) (q : Nat) (x : Sq) : (d.sqPut q x).serial = d.serial := rfl
@[simp] theorem sqPut_ring_cqs (d : Dev) (q : Nat) (x : Sq) : (d.sqPut q x).ring.cqs = d.ring.cqs := rfl
@[simp] theorem sqPut_ring_jobs (d : Dev) (q : Nat) (x : Sq) : (d.sqPut q x).ring.jobs = d.ring.jobs := rfl
@[simp] theorem sqPut_ring_adm (d : Dev) (q : Nat) (x : Sq) : (d.sqPut q x).ring.adm = d.ring.adm := rfl
@[simp] theorem sqPut_ring_taken (d : Dev) (q : Nat) (x : Sq) : (d.sqPut q x).ring.taken = d.ring.taken := rfl
@[simp] theorem sqPut_ring_admTurn (d : Dev) (q : Nat) (x : Sq) : (d.sqPut q x).ring.admTurn = d.ring.admTurn := rfl

/-! `Dev.tcamPut`. -/

@[simp] theorem tcamPut_regs (d : Dev) (i : Nat) (x : TcamEntry) : (d.tcamPut i x).regs = d.regs := rfl
@[simp] theorem tcamPut_hbm (d : Dev) (i : Nat) (x : TcamEntry) : (d.tcamPut i x).hbm = d.hbm := rfl
@[simp] theorem tcamPut_glb (d : Dev) (i : Nat) (x : TcamEntry) : (d.tcamPut i x).glb = d.glb := rfl
@[simp] theorem tcamPut_hif (d : Dev) (i : Nat) (x : TcamEntry) : (d.tcamPut i x).hif = d.hif := rfl
@[simp] theorem tcamPut_ten (d : Dev) (i : Nat) (x : TcamEntry) : (d.tcamPut i x).ten = d.ten := rfl
@[simp] theorem tcamPut_ring (d : Dev) (i : Nat) (x : TcamEntry) : (d.tcamPut i x).ring = d.ring := rfl
@[simp] theorem tcamPut_dma (d : Dev) (i : Nat) (x : TcamEntry) : (d.tcamPut i x).dma = d.dma := rfl
@[simp] theorem tcamPut_port (d : Dev) (i : Nat) (x : TcamEntry) : (d.tcamPut i x).port = d.port := rfl
@[simp] theorem tcamPut_fwd (d : Dev) (i : Nat) (x : TcamEntry) : (d.tcamPut i x).fwd = d.fwd := rfl
@[simp] theorem tcamPut_cpu (d : Dev) (i : Nat) (x : TcamEntry) : (d.tcamPut i x).cpu = d.cpu := rfl
@[simp] theorem tcamPut_twin (d : Dev) (i : Nat) (x : TcamEntry) : (d.tcamPut i x).twin = d.twin := rfl
@[simp] theorem tcamPut_fab (d : Dev) (i : Nat) (x : TcamEntry) : (d.tcamPut i x).fab = d.fab := rfl
@[simp] theorem tcamPut_cry (d : Dev) (i : Nat) (x : TcamEntry) : (d.tcamPut i x).cry = d.cry := rfl
@[simp] theorem tcamPut_sto (d : Dev) (i : Nat) (x : TcamEntry) : (d.tcamPut i x).sto = d.sto := rfl
@[simp] theorem tcamPut_arc (d : Dev) (i : Nat) (x : TcamEntry) : (d.tcamPut i x).arc = d.arc := rfl
@[simp] theorem tcamPut_toll (d : Dev) (i : Nat) (x : TcamEntry) : (d.tcamPut i x).toll = d.toll := rfl
@[simp] theorem tcamPut_mgt (d : Dev) (i : Nat) (x : TcamEntry) : (d.tcamPut i x).mgt = d.mgt := rfl
@[simp] theorem tcamPut_time (d : Dev) (i : Nat) (x : TcamEntry) : (d.tcamPut i x).time = d.time := rfl
@[simp] theorem tcamPut_pwr (d : Dev) (i : Nat) (x : TcamEntry) : (d.tcamPut i x).pwr = d.pwr := rfl
@[simp] theorem tcamPut_out (d : Dev) (i : Nat) (x : TcamEntry) : (d.tcamPut i x).out = d.out := rfl
@[simp] theorem tcamPut_lastRead (d : Dev) (i : Nat) (x : TcamEntry) : (d.tcamPut i x).lastRead = d.lastRead := rfl
@[simp] theorem tcamPut_serial (d : Dev) (i : Nat) (x : TcamEntry) : (d.tcamPut i x).serial = d.serial := rfl
@[simp] theorem tcamPut_cls_banks (d : Dev) (i : Nat) (x : TcamEntry) : (d.tcamPut i x).cls.banks = d.cls.banks := rfl
@[simp] theorem tcamPut_cls_active (d : Dev) (i : Nat) (x : TcamEntry) : (d.tcamPut i x).cls.active = d.cls.active := rfl
@[simp] theorem tcamPut_cls_commit (d : Dev) (i : Nat) (x : TcamEntry) : (d.tcamPut i x).cls.commit = d.cls.commit := rfl
@[simp] theorem tcamPut_cls_chain (d : Dev) (i : Nat) (x : TcamEntry) : (d.tcamPut i x).cls.chain = d.cls.chain := rfl
@[simp] theorem tcamPut_cls_rsets (d : Dev) (i : Nat) (x : TcamEntry) : (d.tcamPut i x).cls.rsets = d.cls.rsets := rfl
@[simp] theorem tcamPut_cls_hprofs (d : Dev) (i : Nat) (x : TcamEntry) : (d.tcamPut i x).cls.hprofs = d.cls.hprofs := rfl
@[simp] theorem tcamPut_cls_pool (d : Dev) (i : Nat) (x : TcamEntry) : (d.tcamPut i x).cls.pool = d.cls.pool := rfl
@[simp] theorem tcamPut_cls_inds (d : Dev) (i : Nat) (x : TcamEntry) : (d.tcamPut i x).cls.inds = d.cls.inds := rfl
@[simp] theorem tcamPut_cls_reentryQ (d : Dev) (i : Nat) (x : TcamEntry) : (d.tcamPut i x).cls.reentryQ = d.cls.reentryQ := rfl
@[simp] theorem tcamPut_cls_scrub (d : Dev) (i : Nat) (x : TcamEntry) : (d.tcamPut i x).cls.scrub = d.cls.scrub := rfl

/-! `Dev.tenPut`. -/

@[simp] theorem tenPut_regs (d : Dev) (t : Nat) (x : Ten) : (d.tenPut t x).regs = d.regs := rfl
@[simp] theorem tenPut_hbm (d : Dev) (t : Nat) (x : Ten) : (d.tenPut t x).hbm = d.hbm := rfl
@[simp] theorem tenPut_glb (d : Dev) (t : Nat) (x : Ten) : (d.tenPut t x).glb = d.glb := rfl
@[simp] theorem tenPut_hif (d : Dev) (t : Nat) (x : Ten) : (d.tenPut t x).hif = d.hif := rfl
@[simp] theorem tenPut_ring (d : Dev) (t : Nat) (x : Ten) : (d.tenPut t x).ring = d.ring := rfl
@[simp] theorem tenPut_dma (d : Dev) (t : Nat) (x : Ten) : (d.tenPut t x).dma = d.dma := rfl
@[simp] theorem tenPut_port (d : Dev) (t : Nat) (x : Ten) : (d.tenPut t x).port = d.port := rfl
@[simp] theorem tenPut_cls (d : Dev) (t : Nat) (x : Ten) : (d.tenPut t x).cls = d.cls := rfl
@[simp] theorem tenPut_fwd (d : Dev) (t : Nat) (x : Ten) : (d.tenPut t x).fwd = d.fwd := rfl
@[simp] theorem tenPut_cpu (d : Dev) (t : Nat) (x : Ten) : (d.tenPut t x).cpu = d.cpu := rfl
@[simp] theorem tenPut_twin (d : Dev) (t : Nat) (x : Ten) : (d.tenPut t x).twin = d.twin := rfl
@[simp] theorem tenPut_fab (d : Dev) (t : Nat) (x : Ten) : (d.tenPut t x).fab = d.fab := rfl
@[simp] theorem tenPut_cry (d : Dev) (t : Nat) (x : Ten) : (d.tenPut t x).cry = d.cry := rfl
@[simp] theorem tenPut_sto (d : Dev) (t : Nat) (x : Ten) : (d.tenPut t x).sto = d.sto := rfl
@[simp] theorem tenPut_arc (d : Dev) (t : Nat) (x : Ten) : (d.tenPut t x).arc = d.arc := rfl
@[simp] theorem tenPut_toll (d : Dev) (t : Nat) (x : Ten) : (d.tenPut t x).toll = d.toll := rfl
@[simp] theorem tenPut_mgt (d : Dev) (t : Nat) (x : Ten) : (d.tenPut t x).mgt = d.mgt := rfl
@[simp] theorem tenPut_time (d : Dev) (t : Nat) (x : Ten) : (d.tenPut t x).time = d.time := rfl
@[simp] theorem tenPut_pwr (d : Dev) (t : Nat) (x : Ten) : (d.tenPut t x).pwr = d.pwr := rfl
@[simp] theorem tenPut_out (d : Dev) (t : Nat) (x : Ten) : (d.tenPut t x).out = d.out := rfl
@[simp] theorem tenPut_lastRead (d : Dev) (t : Nat) (x : Ten) : (d.tenPut t x).lastRead = d.lastRead := rfl
@[simp] theorem tenPut_serial (d : Dev) (t : Nat) (x : Ten) : (d.tenPut t x).serial = d.serial := rfl
@[simp] theorem tenPut_ten_imt (d : Dev) (t : Nat) (x : Ten) : (d.tenPut t x).ten.imt = d.ten.imt := rfl
@[simp] theorem tenPut_ten_sched (d : Dev) (t : Nat) (x : Ten) : (d.tenPut t x).ten.sched = d.ten.sched := rfl

end Sys2Proof.Laws
end

