-- ==== Sys2Proof/Tests/Slice0.lean ====
section
/-! SUPPORT. Tests. -/

theorem Sys2Proof.Tests.test_reset_queue : Sys2Proof.Machine.State.reset.pending = [] := by decide
end

/-! Every command: what it runs on, what it may change, and the canonical form that every step keeps. -/

namespace Sys2Proof.Proofs

open Sys2Proof Sys2Proof.Machine Sys2Proof.Laws

/-! What a command runs on. -/

/-- A change of the device by a command that needs the supply p. -/
def runOn (p : Supply) (s : State) (f : Dev → Dev) : Host.Outcome State Fault Refusal :=
  match p with
  | .main => s.run f
  | .aon => s.runAon f
  | .any => s.runAny f

theorem runOn_next (p : Supply) (s : State) (f : Dev → Dev) : ∃ t, runOn p s f = .next t ∧ t.pending = s.pending := by
  cases p <;> exact ⟨_, rfl, rfl⟩

/-- Every command is a change of the device under the supply that `commandSupply` names. -/
theorem exec_eq_runOn (c : Instr) (s : State) : ∃ f, exec c s = runOn (commandSupply c) s f := by
  cases c <;> exact ⟨_, rfl⟩

/-! What a command may change. -/

/-- The mask of a list of parts. -/
def maskOf (l : List Part) : Nat := l.foldr (fun p m => 2 ^ bit p ||| m) 0

theorem allParts_bit (p : Part) : allParts[bit p]? = some p := by cases p <;> rfl

theorem bit_injective : Function.Injective bit := fun p q h =>
  Option.some.inj ((allParts_bit p).symm.trans (h ▸ allParts_bit q))

theorem testBit_maskOf {l : List Part} {p : Part} (h : p ∉ l) : (maskOf l).testBit (bit p) = false := by
  induction l with
  | nil => exact Nat.zero_testBit _
  | cons q r ih =>
    obtain ⟨hq, hr⟩ := not_or.1 (mt List.mem_cons.2 h)
    have hne : bit q ≠ bit p := fun e => hq (bit_injective e).symm
    rw [maskOf, List.foldr_cons, Nat.testBit_or, Nat.testBit_two_pow_of_ne hne, Bool.false_or]
    exact ih hr

/-- A change within a mask that the parts of a command cover. -/
theorem rel_command {m : Nat} {c : Instr} {a b : Dev} (h : Rel m a b)
    (hm : m &&& maskOf (commandParts c) = m := by simp only [commandParts]; decide) : Rel (maskOf (commandParts c)) a b := h.mono hm

/-- A command changes only the parts that `commandParts` lists, and keeps canonical form: the law of each command's meaning, by command. -/
theorem exec_rel {c : Instr} {s t : State} (h : exec c s = .next t) : Rel (maskOf (commandParts c)) s.dev t.dev := by
  cases c with
  | registerWrite => exact rel_command (rel_execRegisterWrite _ _ _ _ _ _ h)
  | readClear => exact rel_command (rel_execReadClear _ _ _ _ h)
  | bar0BadAccess => exact rel_command (rel_execBar0BadAccess _ _ _ _ _ h)
  | glbSqApply => exact rel_command (rel_execGlbSqApply _ _ _ h)
  | tcamInv => exact rel_command (rel_execTcamInv _ h)
  | tcamWrite => exact rel_command (rel_execTcamWrite _ h)
  | tcamVal => exact rel_command (rel_execTcamVal _ h)
  | lineWrite => exact rel_command (rel_execLineWrite _ h)
  | lineCas => exact rel_command (rel_execLineCas _ h)
  | indWrite => exact rel_command (rel_execIndWrite _ h)
  | tblDesc => exact rel_command (rel_execTblDesc _ h)
  | fence => exact rel_command (rel_execFence _ h)
  | controlWatchdogExpire => exact rel_command (rel_execControlWatchdogExpire _ h)
  | controlRestartDone => exact rel_command (rel_execControlRestartDone _ h)
  | mgmtWatchdogExpire => exact rel_command (rel_execMgmtWatchdogExpire _ h)
  | pcieLinkUp => exact rel_command (rel_execPcieLinkUp _ _ _ _ _ h)
  | pcieLinkDown => exact rel_command (rel_execPcieLinkDown _ _ h)
  | configRequest => exact rel_command (rel_execConfigRequest _ _ _ _ h)
  | vfEnableClear => exact rel_command (rel_execVfEnableClear _ _ h)
  | casementWrite => exact rel_command (rel_execCasementWrite _ _ _ _ _ h)
  | casementRead => exact rel_command (rel_execCasementRead _ _ _ _ _ _ h)
  | casementAtomic => exact rel_command (rel_execCasementAtomic _ _ h)
  | hifWinCommit => exact rel_command (rel_execHifWinCommit _ _ _ _ h)
  | winSetApply => exact rel_command (rel_execWinSetApply _ _ h)
  | winRetired => exact rel_command (rel_execWinRetired _ _ h)
  | translationCompletion => exact rel_command (rel_execTranslationCompletion _ _ _ _ _ _ _ _ h)
  | pageRequestResponse => exact rel_command (rel_execPageRequestResponse _ _ _ h)
  | priTimeout => exact rel_command (rel_execPriTimeout _ _ h)
  | invalidationRequest => exact rel_command (rel_execInvalidationRequest _ _ _ _ _ _ _ h)
  | invalidationCompletion => exact rel_command (rel_execInvalidationCompletion _ _ h)
  | readIssue => exact rel_command (rel_execReadIssue _ _ _ h)
  | readCompletion => exact rel_command (rel_execReadCompletion _ _ _ _ h)
  | completionTimeout => exact rel_command (rel_execCompletionTimeout _ _ _ h)
  | lateCompletion => exact rel_command (rel_execLateCompletion _ _ _ h)
  | quarantineRelease => exact rel_command (rel_execQuarantineRelease _ _ _ h)
  | ltrSend => exact rel_command (rel_execLtrSend _ _ h)
  | l1EntryRequest => exact rel_command (rel_execL1EntryRequest _ _ h)
  | d3hotEntry => exact rel_command (rel_execD3hotEntry _ _ h)
  | d0Return => exact rel_command (rel_execD0Return _ _ h)
  | busMasterClear => exact rel_command (rel_execBusMasterClear _ _ h)
  | busMasterSet => exact rel_command (rel_execBusMasterSet _ _ h)
  | msixUnmask => exact rel_command (rel_execMsixUnmask _ _ _ h)
  | pfFlr => exact rel_command (rel_execPfFlr _ _ h)
  | vfFlr => exact rel_command (rel_execVfFlr _ _ _ h)
  | hotReset => exact rel_command (rel_execHotReset _ _ h)
  | portFundamentalReset => exact rel_command (rel_execPortFundamentalReset _ _ h)
  | deviceFundamentalReset => exact rel_command (rel_execDeviceFundamentalReset _ _ h)
  | poisonedTlp => exact rel_command (rel_execPoisonedTlp _ _ _ h)
  | fatalTlpError => exact rel_command (rel_execFatalTlpError _ _ _ h)
  | tenCreate => exact rel_command (rel_execTenCreate _ _ h)
  | tenDestroy => exact rel_command (rel_execTenDestroy _ _ h)
  | tenBind => exact rel_command (rel_execTenBind _ _ h)
  | tenUnbind => exact rel_command (rel_execTenUnbind _ _ h)
  | tenOpen => exact rel_command (rel_execTenOpen _ _ h)
  | tenClose => exact rel_command (rel_execTenClose _ _ h)
  | tenReset => exact rel_command (rel_execTenReset _ _ h)
  | tenSetShare => exact rel_command (rel_execTenSetShare _ _ h)
  | logStart => exact rel_command (rel_execLogStart _ _ h)
  | logFlush => exact rel_command (rel_execLogFlush _ _ h)
  | logStop => exact rel_command (rel_execLogStop _ _ h)
  | tenExport => exact rel_command (rel_execTenExport _ _ h)
  | tenImport => exact rel_command (rel_execTenImport _ _ _ h)
  | imtWrite => exact rel_command (rel_execImtWrite _ _ h)
  | imtRead => exact rel_command (rel_execImtRead _ _ h)
  | drainComplete => exact rel_command (rel_execDrainComplete _ _ h)
  | tenancyResetDone => exact rel_command (rel_execTenancyResetDone _ _ h)
  | shareApply => exact rel_command (rel_execShareApply _ _ h)
  | logFlushReadDone => exact rel_command (rel_execLogFlushReadDone _ _ h)
  | sqDoorbell => exact rel_command (rel_execSqDoorbell _ _ _ _ _ _ h)
  | doorbellInv => exact rel_command (rel_execDoorbellInv _ _ _ _ _ _ h)
  | cqDoorbell => exact rel_command (rel_execCqDoorbell _ _ _ _ _ _ h)
  | retasPiWrite => exact rel_command (rel_execRetasPiWrite _ _ _ _ _ _ h)
  | retasCiWrite => exact rel_command (rel_execRetasCiWrite _ _ _ _ _ _ h)
  | strayDoorbell => exact rel_command (rel_execStrayDoorbell _ _ _ _ _ _ h)
  | entryFetch => exact rel_command (rel_execEntryFetch _ _ h)
  | entryFetchDone => exact rel_command (rel_execEntryFetchDone _ _ _ _ h)
  | phaseReread => exact rel_command (rel_execPhaseReread _ _ _ _ h)
  | schedulerTurn => exact rel_command (rel_execSchedulerTurn _ _ h)
  | nop => exact rel_command (rel_execNop _ _ _ h)
  | tx => exact rel_command (rel_execTx _ _ _ h)
  | rxBuf => exact rel_command (rel_execRxBuf _ _ h)
  | rxFramePlace => exact rel_command (rel_execRxFramePlace _ _ _ h)
  | jobCompletion => exact rel_command (rel_execJobCompletion _ _ _ h)
  | barrierReadDone => exact rel_command (rel_execBarrierReadDone _ _ _ _ h)
  | cqStallTimeout => exact rel_command (rel_execCqStallTimeout _ _ h)
  | modTimerExpire => exact rel_command (rel_execModTimerExpire _ _ _ h)
  | ringCreate => exact rel_command (rel_execRingCreate _ _ h)
  | ringDestroy => exact rel_command (rel_execRingDestroy _ _ h)
  | ringDcinv => exact rel_command (rel_execRingDcinv _ _ h)
  | ringResume => exact rel_command (rel_execRingResume _ _ h)
  | ringSetMod => exact rel_command (rel_execRingSetMod _ _ h)
  | ringSetSched => exact rel_command (rel_execRingSetSched _ _ h)
  | adminRingEnable => exact rel_command (rel_execAdminRingEnable _ _ _ h)
  | adminRingDisable => exact rel_command (rel_execAdminRingDisable _ _ _ h)
  | adminSqDoorbell => exact rel_command (rel_execAdminSqDoorbell _ _ _ h)
  | adminCqDoorbell => exact rel_command (rel_execAdminCqDoorbell _ _ _ h)
  | adminCommandTake => exact rel_command (rel_execAdminCommandTake _ _ _ _ h)
  | copy => exact rel_command (rel_execCopy _ _ _ h)
  | descriptorReadDone => exact rel_command (rel_execDescriptorReadDone _ _ _ _ _ h)
  | copyChunk => exact rel_command (rel_execCopyChunk _ _ _ _ h)
  | dmaHaltTimeout => exact rel_command (rel_execDmaHaltTimeout _ _ h)
  | dmaGrant => exact rel_command (rel_execDmaGrant _ _ h)
  | grantDrained => exact rel_command (rel_execGrantDrained _ _ h)
  | dmaResume => exact rel_command (rel_execDmaResume _ _ h)
  | dmaSkip => exact rel_command (rel_execDmaSkip _ _ h)
  | dmaAbort => exact rel_command (rel_execDmaAbort _ _ h)
  | portApply => exact rel_command (rel_execPortApply _ _ _ h)
  | netLinkUp => exact rel_command (rel_execNetLinkUp _ _ h)
  | netLinkDown => exact rel_command (rel_execNetLinkDown _ _ _ _ h)
  | macRxFrame => exact rel_command (rel_execMacRxFrame _ _ _ _ h)
  | macTxFrame => exact rel_command (rel_execMacTxFrame _ _ _ h)
  | pauseFrameRx => exact rel_command (rel_execPauseFrameRx _ _ _ _ _ h)
  | pauseExpire => exact rel_command (rel_execPauseExpire _ _ _ h)
  | pauseRefresh => exact rel_command (rel_execPauseRefresh _ _ h)
  | dimWindow => exact rel_command (rel_execDimWindow _ _ _ h)
  | dimCapSend => exact rel_command (rel_execDimCapSend _ _ h)
  | dimCapRx => exact rel_command (rel_execDimCapRx _ _ _ _ h)
  | dimPartnerLost => exact rel_command (rel_execDimPartnerLost _ _ h)
  | dimProposeRx => exact rel_command (rel_execDimProposeRx _ _ _ _ _ _ h)
  | dimAcceptRx => exact rel_command (rel_execDimAcceptRx _ _ _ _ _ _ h)
  | dimRefuseRx => exact rel_command (rel_execDimRefuseRx _ _ _ _ _ _ _ h)
  | dimSwitchRx => exact rel_command (rel_execDimSwitchRx _ _ _ _ _ _ h)
  | dimRestoreRx => exact rel_command (rel_execDimRestoreRx _ _ _ _ _ h)
  | dimRestoreAckRx => exact rel_command (rel_execDimRestoreAckRx _ _ _ _ _ h)
  | dimProposeTimeout => exact rel_command (rel_execDimProposeTimeout _ _ h)
  | dimAlignTimeout => exact rel_command (rel_execDimAlignTimeout _ _ h)
  | portCntSnap => exact rel_command (rel_execPortCntSnap _ _ _ h)
  | portCntRel => exact rel_command (rel_execPortCntRel _ _ _ _ h)
  | svbRxFrame => exact rel_command (rel_execSvbRxFrame _ _ _ h)
  | svbTxFrame => exact rel_command (rel_execSvbTxFrame _ _ h)
  | svbBeaconLoss => exact rel_command (rel_execSvbBeaconLoss _ h)
  | mdioRead => exact rel_command (rel_execMdioRead _ _ _ _ h)
  | mdioWrite => exact rel_command (rel_execMdioWrite _ _ _ _ _ h)
  | crossingClassify => exact rel_command (rel_execCrossingClassify _ _ _ h)
  | reentryAdmit => exact rel_command (rel_execReentryAdmit _ h)
  | clsLoad => exact rel_command (rel_execClsLoad _ _ h)
  | clsCommit => exact rel_command (rel_execClsCommit _ _ h)
  | imageSwitchDone => exact rel_command (rel_execImageSwitchDone _ h)
  | clsRsetSet => exact rel_command (rel_execClsRsetSet _ _ h)
  | clsRuleWrite => exact rel_command (rel_execClsRuleWrite _ _ h)
  | clsRuleClear => exact rel_command (rel_execClsRuleClear _ _ h)
  | clsRuleRead => exact rel_command (rel_execClsRuleRead _ _ h)
  | clsIndCfg => exact rel_command (rel_execClsIndCfg _ _ h)
  | clsIndWrite => exact rel_command (rel_execClsIndWrite _ _ h)
  | tcamScrub => exact rel_command (rel_execTcamScrub _ _ h)
  | tcamApply => exact rel_command (rel_execTcamApply _ _ _ h)
  | clsHprofApply => exact rel_command (rel_execClsHprofApply _ _ _ h)
  | clsRsetSnap => exact rel_command (rel_execClsRsetSnap _ _ _ h)
  | clsRsetRel => exact rel_command (rel_execClsRsetRel _ _ _ _ h)
  | forwardFrame => exact rel_command (rel_execForwardFrame _ _ _ h)
  | learnInsert => exact rel_command (rel_execLearnInsert _ _ h)
  | ctCommitInsert => exact rel_command (rel_execCtCommitInsert _ h)
  | ageTick => exact rel_command (rel_execAgeTick _ h)
  | sweepVisit => exact rel_command (rel_execSweepVisit _ _ h)
  | fwdTblCfg => exact rel_command (rel_execFwdTblCfg _ _ h)
  | fwdRehash => exact rel_command (rel_execFwdRehash _ _ h)
  | rehashDone => exact rel_command (rel_execRehashDone _ _ h)
  | fwdFlowAdd => exact rel_command (rel_execFwdFlowAdd _ _ h)
  | fwdFlowDel => exact rel_command (rel_execFwdFlowDel _ _ h)
  | fwdFlowRead => exact rel_command (rel_execFwdFlowRead _ _ h)
  | fwdBridgeCfg => exact rel_command (rel_execFwdBridgeCfg _ _ h)
  | fwdMacAdd => exact rel_command (rel_execFwdMacAdd _ _ h)
  | fwdActWrite => exact rel_command (rel_execFwdActWrite _ _ h)
  | fwdNatPool => exact rel_command (rel_execFwdNatPool _ _ h)
  | fwdTenCfg => exact rel_command (rel_execFwdTenCfg _ _ h)
  | fwdCntRead => exact rel_command (rel_execFwdCntRead _ _ h)
  | fwdCntReadClear => exact rel_command (rel_execFwdCntReadClear _ _ h)
  | fwdCntClaim => exact rel_command (rel_execFwdCntClaim _ _ h)
  | fwdCntRelease => exact rel_command (rel_execFwdCntRelease _ _ h)
  | fwdFlush => exact rel_command (rel_execFwdFlush _ _ h)
  | aeadUnit => exact rel_command (rel_execAeadUnit _ _ _ h)
  | hsOp => exact rel_command (rel_execHsOp _ _ h)
  | handshakeStart => exact rel_command (rel_execHandshakeStart _ h)
  | handshakeDone => exact rel_command (rel_execHandshakeDone _ _ h)
  | rngHealthFail => exact rel_command (rel_execRngHealthFail _ _ _ h)
  | drbgReseed => exact rel_command (rel_execDrbgReseed _ h)
  | cryRngRestart => exact rel_command (rel_execCryRngRestart _ _ _ _ h)
  | cryMacsecCfg => exact rel_command (rel_execCryMacsecCfg _ _ h)
  | cryMacsecSa => exact rel_command (rel_execCryMacsecSa _ _ h)
  | cryKeyPut => exact rel_command (rel_execCryKeyPut _ _ h)
  | cryKeyGen => exact rel_command (rel_execCryKeyGen _ _ h)
  | cryKeyDerive => exact rel_command (rel_execCryKeyDerive _ _ h)
  | cryKeyExport => exact rel_command (rel_execCryKeyExport _ _ h)
  | cryKeyZero => exact rel_command (rel_execCryKeyZero _ _ h)
  | cryCtxSet => exact rel_command (rel_execCryCtxSet _ _ h)
  | cryCtxRead => exact rel_command (rel_execCryCtxRead _ _ h)
  | cryCtxNext => exact rel_command (rel_execCryCtxNext _ _ h)
  | cryCtxRotate => exact rel_command (rel_execCryCtxRotate _ _ h)
  | cryCtxResync => exact rel_command (rel_execCryCtxResync _ _ h)
  | cryCtxRekey => exact rel_command (rel_execCryCtxRekey _ _ h)
  | cryCtxDestroy => exact rel_command (rel_execCryCtxDestroy _ _ h)
  | roceRx => exact rel_command (rel_execRoceRx _ _ _ h)
  | cnpRx => exact rel_command (rel_execCnpRx _ _ h)
  | tcpRx => exact rel_command (rel_execTcpRx _ _ h)
  | lackTimeout => exact rel_command (rel_execLackTimeout _ _ h)
  | srAckTimer => exact rel_command (rel_execSrAckTimer _ _ h)
  | rcWindow => exact rel_command (rel_execRcWindow _ _ h)
  | rcIncrease => exact rel_command (rel_execRcIncrease _ _ h)
  | tcpRto => exact rel_command (rel_execTcpRto _ _ h)
  | rdmaSend => exact rel_command (rel_execRdmaSend _ _ _ h)
  | rdmaWrite => exact rel_command (rel_execRdmaWrite _ _ _ h)
  | rdmaRead => exact rel_command (rel_execRdmaRead _ _ _ h)
  | rdmaRecv => exact rel_command (rel_execRdmaRecv _ _ _ h)
  | blkRead => exact rel_command (rel_execBlkRead _ _ _ h)
  | blkWrite => exact rel_command (rel_execBlkWrite _ _ _ h)
  | blkFlush => exact rel_command (rel_execBlkFlush _ _ _ h)
  | stoConnSet => exact rel_command (rel_execStoConnSet _ _ h)
  | stoConnModify => exact rel_command (rel_execStoConnModify _ _ h)
  | stoConnQuery => exact rel_command (rel_execStoConnQuery _ _ h)
  | stoNvmeCtrl => exact rel_command (rel_execStoNvmeCtrl _ _ h)
  | stoNvmeNs => exact rel_command (rel_execStoNvmeNs _ _ h)
  | stoSsdAttach => exact rel_command (rel_execStoSsdAttach _ _ h)
  | nvmeCcEnable => exact rel_command (rel_execNvmeCcEnable _ _ _ _ h)
  | nvmeCcDisable => exact rel_command (rel_execNvmeCcDisable _ _ _ _ h)
  | nvmeShutdown => exact rel_command (rel_execNvmeShutdown _ _ _ _ h)
  | nvmeSqDoorbell => exact rel_command (rel_execNvmeSqDoorbell _ _ _ _ _ h)
  | nvmeCqDoorbell => exact rel_command (rel_execNvmeCqDoorbell _ _ _ _ _ h)
  | nvmeDeleteIoSq => exact rel_command (rel_execNvmeDeleteIoSq _ _ _ _ h)
  | nvmeCreateIoSq => exact rel_command (rel_execNvmeCreateIoSq _ _ _ _ h)
  | nvmeGetLogPage => exact rel_command (rel_execNvmeGetLogPage _ _ _ _ _ h)
  | nvmeDeleteIoCq => exact rel_command (rel_execNvmeDeleteIoCq _ _ _ _ h)
  | nvmeCreateIoCq => exact rel_command (rel_execNvmeCreateIoCq _ _ _ _ h)
  | nvmeIdentify => exact rel_command (rel_execNvmeIdentify _ _ _ _ _ h)
  | nvmeAbort => exact rel_command (rel_execNvmeAbort _ _ _ _ h)
  | nvmeSetFeatures => exact rel_command (rel_execNvmeSetFeatures _ _ _ _ h)
  | nvmeGetFeatures => exact rel_command (rel_execNvmeGetFeatures _ _ _ _ h)
  | nvmeAsyncEventRequest => exact rel_command (rel_execNvmeAsyncEventRequest _ _ _ _ h)
  | nvmeFlush => exact rel_command (rel_execNvmeFlush _ _ _ _ _ h)
  | nvmeWrite => exact rel_command (rel_execNvmeWrite _ _ _ _ _ _ h)
  | nvmeRead => exact rel_command (rel_execNvmeRead _ _ _ _ _ _ h)
  | nvmeWriteZeroes => exact rel_command (rel_execNvmeWriteZeroes _ _ _ _ _ h)
  | nvmeDatasetManagement => exact rel_command (rel_execNvmeDatasetManagement _ _ _ _ _ _ h)
  | wbAgeExpire => exact rel_command (rel_execWbAgeExpire _ _ _ _ _ h)
  | nvmfTargetCommand => exact rel_command (rel_execNvmfTargetCommand _ _ h)
  | ssdCqe => exact rel_command (rel_execSsdCqe _ _ h)
  | ssdTimeout => exact rel_command (rel_execSsdTimeout _ _ _ h)
  | objPut => exact rel_command (rel_execObjPut _ _ _ _ _ _ h)
  | objGet => exact rel_command (rel_execObjGet _ _ _ _ _ _ _ _ h)
  | objVerify => exact rel_command (rel_execObjVerify _ _ _ _ _ _ _ _ h)
  | objMigrate => exact rel_command (rel_execObjMigrate _ _ _ _ _ _ _ _ _ h)
  | stagingGrant => exact rel_command (rel_execStagingGrant _ h)
  | archiveStripe => exact rel_command (rel_execArchiveStripe _ _ h)
  | shardWriteAck => exact rel_command (rel_execShardWriteAck _ h)
  | shardReadDone => exact rel_command (rel_execShardReadDone _ h)
  | arcCfg => exact rel_command (rel_execArcCfg _ _ h)
  | arcSessionAbort => exact rel_command (rel_execArcSessionAbort _ _ h)
  | arcJournalRead => exact rel_command (rel_execArcJournalRead _ _ h)
  | handlerDispatch => exact rel_command (rel_execHandlerDispatch _ _ h)
  | threadAccess => exact rel_command (rel_execThreadAccess _ _ _ h)
  | tknext => exact rel_command (rel_execTknext _ _ _ _ h)
  | tkfree => exact rel_command (rel_execTkfree _ _ _ h)
  | tkfwd => exact rel_command (rel_execTkfwd _ _ _ _ h)
  | tkrecl => exact rel_command (rel_execTkrecl _ _ _ h)
  | tkexc => exact rel_command (rel_execTkexc _ _ _ _ h)
  | tknew => exact rel_command (rel_execTknew _ _ _ _ h)
  | hadj => exact rel_command (rel_execHadj _ _ _ _ _ h)
  | hlen => exact rel_command (rel_execHlen _ _ _ _ _ h)
  | pkrd => exact rel_command (rel_execPkrd _ _ _ _ _ h)
  | pkwr => exact rel_command (rel_execPkwr _ _ _ _ _ h)
  | lkup => exact rel_command (rel_execLkup _ _ _ _ _ h)
  | lkupDone => exact rel_command (rel_execLkupDone _ _ _ h)
  | evwait => exact rel_command (rel_execEvwait _ _ _ _ h)
  | evsig => exact rel_command (rel_execEvsig _ _ _ h)
  | tmset => exact rel_command (rel_execTmset _ _ _ h)
  | threadTimer => exact rel_command (rel_execThreadTimer _ _ h)
  | ctadd => exact rel_command (rel_execCtadd _ _ _ _ h)
  | ctpb => exact rel_command (rel_execCtpb _ _ _ _ h)
  | twr => exact rel_command (rel_execTwr _ _ _ _ _ h)
  | trd => exact rel_command (rel_execTrd _ _ _ _ h)
  | chsend => exact rel_command (rel_execChsend _ _ _ h)
  | chw => exact rel_command (rel_execChw _ _ _ _ h)
  | chcmt => exact rel_command (rel_execChcmt _ _ _ h)
  | chabt => exact rel_command (rel_execChabt _ _ h)
  | chrecv => exact rel_command (rel_execChrecv _ _ _ _ _ h)
  | hld => exact rel_command (rel_execHld _ _ _ _ _ _ h)
  | hst => exact rel_command (rel_execHst _ _ _ _ _ _ h)
  | coreThrGo => exact rel_command (rel_execCoreThrGo _ _ _ _ h)
  | coreThrStop => exact rel_command (rel_execCoreThrStop _ _ _ _ h)
  | coreException => exact rel_command (rel_execCoreException _ _ _ _ _ h)
  | channelLeaseExpire => exact rel_command (rel_execChannelLeaseExpire _ _ h)
  | gridlock => exact rel_command (rel_execGridlock _ _ h)
  | breakpointHit => exact rel_command (rel_execBreakpointHit _ _ h)
  | coreLoad => exact rel_command (rel_execCoreLoad _ _ h)
  | coreStart => exact rel_command (rel_execCoreStart _ _ h)
  | coreStop => exact rel_command (rel_execCoreStop _ _ h)
  | coreHndSet => exact rel_command (rel_execCoreHndSet _ _ h)
  | coreChSet => exact rel_command (rel_execCoreChSet _ _ h)
  | coreHwinSet => exact rel_command (rel_execCoreHwinSet _ _ h)
  | coreCaptureRead => exact rel_command (rel_execCoreCaptureRead _ _ h)
  | haltThread => exact rel_command (rel_execHaltThread _ _ h)
  | haltCore => exact rel_command (rel_execHaltCore _ _ h)
  | resume => exact rel_command (rel_execResume _ _ h)
  | step => exact rel_command (rel_execStep _ _ _ h)
  | readReg => exact rel_command (rel_execReadReg _ _ h)
  | writeReg => exact rel_command (rel_execWriteReg _ _ h)
  | readMem => exact rel_command (rel_execReadMem _ _ h)
  | writeMem => exact rel_command (rel_execWriteMem _ _ h)
  | abortMsg => exact rel_command (rel_execAbortMsg _ _ h)
  | setBp => exact rel_command (rel_execSetBp _ _ h)
  | capture => exact rel_command (rel_execCapture _ _ h)
  | timeIncApply => exact rel_command (rel_execTimeIncApply _ _ _ _ h)
  | timeGoSet => exact rel_command (rel_execTimeGoSet _ _ _ h)
  | timeGoAdj => exact rel_command (rel_execTimeGoAdj _ _ _ h)
  | timeSwitch => exact rel_command (rel_execTimeSwitch _ _ _ h)
  | timeLock => exact rel_command (rel_execTimeLock _ _ _ h)
  | timeSnap => exact rel_command (rel_execTimeSnap _ _ h)
  | timeRefSelect => exact rel_command (rel_execTimeRefSelect _ _ _ h)
  | clk10mLost => exact rel_command (rel_execClk10mLost _ h)
  | clk10mReturn => exact rel_command (rel_execClk10mReturn _ h)
  | timePageWrite => exact rel_command (rel_execTimePageWrite _ h)
  | tioArm => exact rel_command (rel_execTioArm _ _ _ h)
  | tioDisarm => exact rel_command (rel_execTioDisarm _ _ _ h)
  | tioPulse => exact rel_command (rel_execTioPulse _ _ h)
  | tioCapture => exact rel_command (rel_execTioCapture _ _ _ h)
  | tioCapRead => exact rel_command (rel_execTioCapRead _ _ _ h)
  | ppsOutEdge => exact rel_command (rel_execPpsOutEdge _ h)
  | ppsInEdge => exact rel_command (rel_execPpsInEdge _ h)
  | timePageSet => exact rel_command (rel_execTimePageSet _ _ h)
  | ttLoad => exact rel_command (rel_execTtLoad _ _ h)
  | gateListActivate => exact rel_command (rel_execGateListActivate _ _ h)
  | gateChange => exact rel_command (rel_execGateChange _ _ h)
  | fabCfgWrite => exact rel_command (rel_execFabCfgWrite _ _ _ h)
  | beaconSend => exact rel_command (rel_execBeaconSend _ h)
  | beaconRx => exact rel_command (rel_execBeaconRx _ _ h)
  | coordinatorElection => exact rel_command (rel_execCoordinatorElection _ h)
  | assignSend => exact rel_command (rel_execAssignSend _ h)
  | assignRx => exact rel_command (rel_execAssignRx _ _ h)
  | heartbeatSend => exact rel_command (rel_execHeartbeatSend _ h)
  | heartbeatRx => exact rel_command (rel_execHeartbeatRx _ _ h)
  | heartbeatLoss => exact rel_command (rel_execHeartbeatLoss _ _ h)
  | helloSend => exact rel_command (rel_execHelloSend _ h)
  | helloRx => exact rel_command (rel_execHelloRx _ _ h)
  | neighbourDown => exact rel_command (rel_execNeighbourDown _ _ h)
  | routeAdvertise => exact rel_command (rel_execRouteAdvertise _ h)
  | routeRx => exact rel_command (rel_execRouteRx _ _ h)
  | joinRx => exact rel_command (rel_execJoinRx _ _ h)
  | joinRetry => exact rel_command (rel_execJoinRetry _ h)
  | epochRx => exact rel_command (rel_execEpochRx _ _ _ h)
  | leaveRx => exact rel_command (rel_execLeaveRx _ _ h)
  | upRx => exact rel_command (rel_execUpRx _ _ h)
  | downRx => exact rel_command (rel_execDownRx _ _ h)
  | bcastRx => exact rel_command (rel_execBcastRx _ _ h)
  | countRx => exact rel_command (rel_execCountRx _ _ h)
  | wakeRx => exact rel_command (rel_execWakeRx _ _ h)
  | sequesterTimeout => exact rel_command (rel_execSequesterTimeout _ h)
  | fabOpBarrier => exact rel_command (rel_execFabOpBarrier _ _ h)
  | fabOpBroadcast => exact rel_command (rel_execFabOpBroadcast _ _ h)
  | fabOpSnapshot => exact rel_command (rel_execFabOpSnapshot _ _ h)
  | fabOpReset => exact rel_command (rel_execFabOpReset _ _ h)
  | snapshotCut => exact rel_command (rel_execSnapshotCut _ _ h)
  | snapshotEnd => exact rel_command (rel_execSnapshotEnd _ _ h)
  | fabOpTimeout => exact rel_command (rel_execFabOpTimeout _ _ h)
  | addrHoldExpire => exact rel_command (rel_execAddrHoldExpire _ _ h)
  | fabRouteSet => exact rel_command (rel_execFabRouteSet _ _ h)
  | fabRouteRead => exact rel_command (rel_execFabRouteRead _ _ h)
  | fabNbrSet => exact rel_command (rel_execFabNbrSet _ _ h)
  | fabMembersRead => exact rel_command (rel_execFabMembersRead _ _ h)
  | fabBcastRead => exact rel_command (rel_execFabBcastRead _ _ h)
  | fabSnapRead => exact rel_command (rel_execFabSnapRead _ _ h)
  | twinPair => exact rel_command (rel_execTwinPair _ _ h)
  | twinUnpair => exact rel_command (rel_execTwinUnpair _ _ h)
  | twinStreamSet => exact rel_command (rel_execTwinStreamSet _ _ h)
  | twinSwap => exact rel_command (rel_execTwinSwap _ _ h)
  | twinExerciseNow => exact rel_command (rel_execTwinExerciseNow _ _ h)
  | pairRx => exact rel_command (rel_execPairRx _ _ h)
  | pairTimeout => exact rel_command (rel_execPairTimeout _ h)
  | digestSend => exact rel_command (rel_execDigestSend _ h)
  | digestRx => exact rel_command (rel_execDigestRx _ _ h)
  | digestRangeMissed => exact rel_command (rel_execDigestRangeMissed _ _ _ h)
  | peerDigestLoss => exact rel_command (rel_execPeerDigestLoss _ h)
  | selfCheckDone => exact rel_command (rel_execSelfCheckDone _ _ h)
  | checkRx => exact rel_command (rel_execCheckRx _ _ h)
  | leaseReqSend => exact rel_command (rel_execLeaseReqSend _ h)
  | leaseReqRx => exact rel_command (rel_execLeaseReqRx _ _ h)
  | leaseRx => exact rel_command (rel_execLeaseRx _ _ h)
  | leaseExpire => exact rel_command (rel_execLeaseExpire _ h)
  | revokeRx => exact rel_command (rel_execRevokeRx _ _ h)
  | revokedRx => exact rel_command (rel_execRevokedRx _ _ h)
  | revokeTimeout => exact rel_command (rel_execRevokeTimeout _ h)
  | takeover => exact rel_command (rel_execTakeover _ h)
  | shadowHoldExpire => exact rel_command (rel_execShadowHoldExpire _ _ h)
  | holdoffExpire => exact rel_command (rel_execHoldoffExpire _ h)
  | swapRx => exact rel_command (rel_execSwapRx _ _ h)
  | releasedRx => exact rel_command (rel_execReleasedRx _ _ h)
  | plannedSwap => exact rel_command (rel_execPlannedSwap _ h)
  | exerciseStart => exact rel_command (rel_execExerciseStart _ h)
  | exerciseDone => exact rel_command (rel_execExerciseDone _ _ h)
  | wktPost => exact rel_command (rel_execWktPost _ _ _ _ _ h)
  | wktStat => exact rel_command (rel_execWktStat _ _ _ h)
  | wktTake => exact rel_command (rel_execWktTake _ _ _ _ h)
  | wktBindWrite => exact rel_command (rel_execWktBindWrite _ _ _ _ h)
  | wktLock => exact rel_command (rel_execWktLock _ _ _ h)
  | clusterWicketDeliver => exact rel_command (rel_execClusterWicketDeliver _ _ h)
  | sensorSample => exact rel_command (rel_execSensorSample _ _ _ h)
  | bootRomStart => exact rel_command (rel_execBootRomStart _ h)
  | firmwareReady => exact rel_command (rel_execFirmwareReady _ _ _ _ _ _ h)
  | setEndpointId => exact rel_command (rel_execSetEndpointId _ _ _ _ h)
  | getEndpointId => exact rel_command (rel_execGetEndpointId _ _ h)
  | getEndpointUuid => exact rel_command (rel_execGetEndpointUuid _ _ h)
  | getMctpVersionSupport => exact rel_command (rel_execGetMctpVersionSupport _ _ _ h)
  | getMessageTypeSupport => exact rel_command (rel_execGetMessageTypeSupport _ _ h)
  | getVendorMessageSupport => exact rel_command (rel_execGetVendorMessageSupport _ _ _ h)
  | spdmGetVersion => exact rel_command (rel_execSpdmGetVersion _ _ h)
  | spdmGetCapabilities => exact rel_command (rel_execSpdmGetCapabilities _ _ _ h)
  | spdmNegotiateAlgorithms => exact rel_command (rel_execSpdmNegotiateAlgorithms _ _ _ _ _ _ h)
  | spdmGetDigests => exact rel_command (rel_execSpdmGetDigests _ _ h)
  | spdmGetCertificate => exact rel_command (rel_execSpdmGetCertificate _ _ _ _ _ h)
  | spdmChallenge => exact rel_command (rel_execSpdmChallenge _ _ _ _ h)
  | spdmGetMeasurements => exact rel_command (rel_execSpdmGetMeasurements _ _ _ _ _ h)
  | spdmKeyExchange => exact rel_command (rel_execSpdmKeyExchange _ _ _ _ h)
  | spdmFinish => exact rel_command (rel_execSpdmFinish _ _ _ _ h)
  | spdmHeartbeat => exact rel_command (rel_execSpdmHeartbeat _ _ _ h)
  | spdmKeyUpdate => exact rel_command (rel_execSpdmKeyUpdate _ _ _ _ _ h)
  | spdmEndSession => exact rel_command (rel_execSpdmEndSession _ _ _ h)
  | spdmChunkSend => exact rel_command (rel_execSpdmChunkSend _ _ _ _ _ h)
  | spdmChunkGet => exact rel_command (rel_execSpdmChunkGet _ _ _ h)
  | pldmSensorRead => exact rel_command (rel_execPldmSensorRead _ _ _ h)
  | pldmFirmwareUpdate => exact rel_command (rel_execPldmFirmwareUpdate _ _ _ _ h)
  | pldmActivateFirmware => exact rel_command (rel_execPldmActivateFirmware _ _ h)
  | debugAuthChallenge => exact rel_command (rel_execDebugAuthChallenge _ _ _ _ h)
  | jtagInstruction => exact rel_command (rel_execJtagInstruction _ _ h)
  | smbSclTimeout => exact rel_command (rel_execSmbSclTimeout _ h)
  | mgtSvnCommit => exact rel_command (rel_execMgtSvnCommit _ _ h)
  | mgtMeasureRead => exact rel_command (rel_execMgtMeasureRead _ _ h)
  | tapFlush => exact rel_command (rel_execTapFlush _ _ h)
  | tapRecord => exact rel_command (rel_execTapRecord _ _ _ h)
  | stateRecord => exact rel_command (rel_execStateRecord _ _ _ h)
  | accountMarker => exact rel_command (rel_execAccountMarker _ _ h)
  | metreTick => exact rel_command (rel_execMetreTick _ h)
  | periodClose => exact rel_command (rel_execPeriodClose _ h)
  | readingSigned => exact rel_command (rel_execReadingSigned _ _ h)
  | checkpoint => exact rel_command (rel_execCheckpoint _ _ h)
  | tollPowerLoss => exact rel_command (rel_execTollPowerLoss _ _ h)
  | tollStart => exact rel_command (rel_execTollStart _ _ _ _ _ h)
  | tapDownDetect => exact rel_command (rel_execTapDownDetect _ _ h)
  | crystalFault => exact rel_command (rel_execCrystalFault _ _ h)
  | tollVddGlitch => exact rel_command (rel_execTollVddGlitch _ _ h)
  | powerOn => exact rel_command (rel_execPowerOn _ h)
  | railsOkRise => exact rel_command (rel_execRailsOkRise _ _ h)
  | railsOkFall => exact rel_command (rel_execRailsOkFall _ h)
  | railSequenceError => exact rel_command (rel_execRailSequenceError _ _ h)
  | refclkSysLost => exact rel_command (rel_execRefclkSysLost _ h)
  | refclkSysReturn => exact rel_command (rel_execRefclkSysReturn _ _ h)
  | refclkPcieLost => exact rel_command (rel_execRefclkPcieLost _ _ h)
  | refclkNetLost => exact rel_command (rel_execRefclkNetLost _ _ h)
  | dimEnter => exact rel_command (rel_execDimEnter _ h)
  | dimExit => exact rel_command (rel_execDimExit _ h)
  | quietEnter => exact rel_command (rel_execQuietEnter _ h)
  | quietExit => exact rel_command (rel_execQuietExit _ _ h)
  | quietExitDone => exact rel_command (rel_execQuietExitDone _ h)
  | pwrWake => exact rel_command (rel_execPwrWake _ _ _ h)
  | thermalCapStep => exact rel_command (rel_execThermalCapStep _ h)
  | powerCapStep => exact rel_command (rel_execPowerCapStep _ h)
  | pwrWakePeer => exact rel_command (rel_execPwrWakePeer _ _ h)
  | admNop => exact rel_command (rel_execAdmNop _ _ h)
  | admIdentify => exact rel_command (rel_execAdmIdentify _ _ h)
  | admJrnlRead => exact rel_command (rel_execAdmJrnlRead _ _ h)
  | glbPrivLock => exact rel_command (rel_execGlbPrivLock _ _ _ h)
  | tlRstNAssert => exact rel_command (rel_execTlRstNAssert _ _ h)
  | vddAonLoss => exact rel_command (rel_execVddAonLoss _ h)
  | perstRelease => exact rel_command (rel_execPerstRelease _ _ h)
  | mgmtRestartDone => exact rel_command (rel_execMgmtRestartDone _ h)
  | coreStartDone => exact rel_command (rel_execCoreStartDone _ _ h)
  | timeSlewDone => exact rel_command (rel_execTimeSlewDone _ h)
  | rnrTimerExpire => exact rel_command (rel_execRnrTimerExpire _ _ h)
  | peerBeaconLoss => exact rel_command (rel_execPeerBeaconLoss _ _ h)
  | lpiEntry => exact rel_command (rel_execLpiEntry _ _ _ h)
  | lpiExit => exact rel_command (rel_execLpiExit _ _ _ h)
  | svbBeaconReturn => exact rel_command (rel_execSvbBeaconReturn _ h)
  | mdioComplete => exact rel_command (rel_execMdioComplete _ _ h)
  | l0pWidthChange => exact rel_command (rel_execL0pWidthChange _ _ _ h)
  | twinRecoveryReset => exact rel_command (rel_execTwinRecoveryReset _ _ h)
  | membershipHoldExpire => exact rel_command (rel_execMembershipHoldExpire _ h)

theorem exec_agree {c : Instr} {s t : State} (h : exec c s = .next t) : Agree (commandParts c) s.dev t.dev :=
  agree_of_rel (exec_rel h) fun _ hp => testBit_maskOf hp

/-- Settles O3: every command is a change of the device alone, under some supply. -/
theorem everyCommandRuns : Obligations.EveryCommandRuns := by
  unfold Obligations.EveryCommandRuns
  intro c s
  obtain ⟨f, hf⟩ := exec_eq_runOn c s
  rw [hf]
  exact runOn_next (commandSupply c) s f

/-- Settles O4: a nanosecond that passes keeps the canonical form, and so does every command. -/
theorem stepKeepsCanon : Obligations.StepKeepsCanon := by
  unfold Obligations.StepKeepsCanon
  intro s t hs h
  unfold step at h
  split at h
  · cases h
    exact (rel_Dev_tick s.dev).canon hs
  · exact (exec_rel h).canon hs

end Sys2Proof.Proofs

/-! Accesses to BAR0 (R7, R8, R10, R24, R25, R64, R549 to R552). -/

namespace Sys2Proof.Proofs

open Sys2Proof Sys2Proof.Machine Sys2Proof.Laws

/-! The value of the last read is no register. -/

/-- The value of the last read becomes x. -/
def setLastRead (d : Dev) (x : Dword) : Dev := { d with lastRead := x }

theorem reg_setLastRead (d : Dev) (x : Dword) (off : Nat) : (setLastRead d x).reg off = d.reg off := by
  simp only [Dev.reg, setLastRead]

theorem regBit_setLastRead (d : Dev) (x : Dword) (off i : Nat) : (setLastRead d x).regBit off i = d.regBit off i :=
  congrArg (bitOf · i) (reg_setLastRead d x off)

theorem lastRead_setLastRead (d : Dev) (x : Dword) : (setLastRead d x).lastRead = x := rfl

/-! The commands that access BAR0. -/

theorem runs_of_run {c : Instr} {s : State} {f : Dev → Dev} {P : Dev → Prop} (hs : Alive s) (he : exec c s = s.run f)
    (hp : P (f s.dev)) : Runs c s P := by
  have hd : s.dev.dead = false := hs
  exact ⟨{ s with dev := f s.dev }, by simp [he, State.run, hd], rfl, hp⟩

theorem exec_registerWrite (f : Fn) (off size : Nat) (v : Dword) (acc : ThreadAcc) (s : State) :
    exec (.registerWrite f off size v acc) s = s.run (·.fnWrite f off size v acc) := rfl

theorem exec_readClear (f : Fn) (off size : Nat) (s : State) : exec (.readClear f off size) s = s.run (·.fnRead f off size) := rfl

theorem exec_bar0BadAccess (f : Fn) (off size : Nat) (write : Bool) (s : State) :
    exec (.bar0BadAccess f off size write) s = s.run (fun d => if d.reaches f off && badSize off size then
      setLastRead (d.badAccess f off write) (if write then d.lastRead else 0) else d) := rfl

theorem exec_glbSqApply (pf : Nat) (v : Word) (s : State) : exec (.glbSqApply pf v) s = s.run (·.sqApply pf v) := rfl

theorem exec_glbPrivLock (pf : Nat) (v : Word) (s : State) : exec (.glbPrivLock pf v) s = s.run (·.privLock pf v) := rfl

/-! Registers. -/

theorem regBit_setBit_self {i : Nat} (hi : i < 32) (d : Dev) (off : Nat) : (d.setBit off i).regBit off i = true := by
  simp only [Dev.regBit, Dev.setBit, Dev.setBits, bitOf, reg_setReg_self, BitVec.getLsbD_or, BitVec.getLsbD_ofNat, hi, decide_true,
    Nat.testBit_two_pow_self, Bool.and_self, Bool.or_true]

theorem reg_count_self (d : Dev) (off : Nat) : (d.count off).reg off = counterAdd (d.reg off) 1 := by
  simp [Dev.count, Dev.countN]

theorem onlyRegs_of_regs_eq {l : List Nat} {a b : Dev} (h : b.regs = a.regs) : OnlyRegs l a b :=
  fun o _ => by simp only [Dev.reg, h]

theorem onlyRegs_trans {l : List Nat} {a b c : Dev} (h : OnlyRegs l a b) (k : OnlyRegs l b c) : OnlyRegs l a c :=
  fun o ho => (k o ho).trans (h o ho)

theorem onlyRegs_setReg {l : List Nat} {off : Nat} (h : off ∈ l) (d : Dev) (v : Word) : OnlyRegs l d (d.setReg off v) :=
  fun _ ho => reg_setReg_ne (fun e => ho (by rwa [e])) d v

theorem onlyRegs_setBit {l : List Nat} {off : Nat} (h : off ∈ l) (d : Dev) (i : Nat) : OnlyRegs l d (d.setBit off i) :=
  onlyRegs_setReg h d _

theorem onlyRegs_count {l : List Nat} {off : Nat} (h : off ∈ l) (d : Dev) : OnlyRegs l d (d.count off) :=
  onlyRegs_setReg h d _

/-! An access that is refused or misformed (R64, R552). -/

/-- Count an access in register `cnt`; while bit i of `stat` is clear, latch two words that describe it and set the bit. -/
def countLatch (d : Dev) (cnt log fn stat i : Nat) (x y : Word) : Dev :=
  let d := d.count cnt
  if d.regBit stat i then d else ((d.setReg log x).setReg fn y).setBit stat i

theorem denyAccess_eq_countLatch (d : Dev) (pf off : Nat) (write : Bool) :
    d.denyAccess pf off write = countLatch d Reg.GLB_PRIV_DENY_CNT Reg.GLB_PRIV_DENY_LOG Reg.GLB_PRIV_DENY_FN Reg.GLB_PRIV_STAT 1
      (packW [(b2n write, 26), (off % 2 ^ 26, 0)]) (packW [(pf, 0)]) := rfl

theorem routingId_count (d : Dev) (f : Fn) (off : Nat) : (d.count off).routingId f = d.routingId f := by
  simp [Dev.routingId, Dev.hifPort, Dev.count, Dev.countN]

theorem badAccess_eq_countLatch (d : Dev) (f : Fn) (off : Nat) (write : Bool) :
    d.badAccess f off write = countLatch d (Reg.HIF_BAR0_ERR_CNT f.port) (Reg.HIF_BAR0_ERR_LOG f.port) (Reg.HIF_BAR0_ERR_FN f.port)
      (Reg.HIF_STAT f.port) 2 (packW [(b2n write, 26), (off % 2 ^ 26, 0)]) (packW [(d.routingId f, 0)]) := by
  rw [Dev.badAccess, countLatch]
  simp only [routingId_count]

theorem countLatch_spec (d : Dev) {cnt log fn stat i : Nat} (x y : Word) (hi : i < 32) (hd : [cnt, log, fn, stat].Nodup) :
    (countLatch d cnt log fn stat i x y).reg cnt = counterAdd (d.reg cnt) 1 ∧
    (countLatch d cnt log fn stat i x y).regBit stat i = true ∧
    (d.regBit stat i = false → (countLatch d cnt log fn stat i x y).reg log = x ∧ (countLatch d cnt log fn stat i x y).reg fn = y) ∧
    OnlyRegs [cnt, log, fn, stat] d (countLatch d cnt log fn stat i x y) := by
  have hc : OnlyRegs [cnt, log, fn, stat] d (d.count cnt) := onlyRegs_count (by simp) d
  have hstat : (d.count cnt).regBit stat i = d.regBit stat i := by
    have : stat ≠ cnt := by rintro rfl; simp at hd
    exact congrArg (bitOf · i) (reg_setReg_ne this d _)
  simp only [List.nodup_cons, List.mem_cons, List.not_mem_nil, or_false, not_or] at hd
  obtain ⟨⟨hcl, hcf, hcs⟩, ⟨hlf, hls⟩, hfs, -⟩ := hd
  unfold countLatch
  cases hb : d.regBit stat i with
  | true =>
    simp only [hstat, hb, if_true]
    exact ⟨reg_count_self d cnt, trivial, fun h => Bool.noConfusion h, hc⟩
  | false =>
    simp only [hstat, hb, Bool.false_eq_true, if_false]
    refine ⟨?_, regBit_setBit_self hi _ _, fun _ => ⟨?_, ?_⟩, ?_⟩
    · rw [Dev.setBit, Dev.setBits, reg_setReg_ne hcs, reg_setReg_ne hcf, reg_setReg_ne hcl, reg_count_self]
    · rw [Dev.setBit, Dev.setBits, reg_setReg_ne hls, reg_setReg_ne hlf, reg_setReg_self]
    · rw [Dev.setBit, Dev.setBits, reg_setReg_ne hfs, reg_setReg_self]
    · exact onlyRegs_trans (onlyRegs_trans (onlyRegs_trans hc (onlyRegs_setReg (by simp) _ _)) (onlyRegs_setReg (by simp) _ _))
        (onlyRegs_setBit (by simp) _ _)

theorem denyAccess_spec (d : Dev) (pf off : Nat) (write : Bool) :
    (d.denyAccess pf off write).reg Reg.GLB_PRIV_DENY_CNT = counterAdd (d.reg Reg.GLB_PRIV_DENY_CNT) 1 ∧
    (d.denyAccess pf off write).regBit Reg.GLB_PRIV_STAT 1 = true ∧
    (d.regBit Reg.GLB_PRIV_STAT 1 = false →
      (d.denyAccess pf off write).reg Reg.GLB_PRIV_DENY_LOG = packW [(b2n write, 26), (off % 2 ^ 26, 0)] ∧
      (d.denyAccess pf off write).reg Reg.GLB_PRIV_DENY_FN = packW [(pf, 0)]) ∧
    OnlyRegs [Reg.GLB_PRIV_DENY_CNT, Reg.GLB_PRIV_DENY_LOG, Reg.GLB_PRIV_DENY_FN, Reg.GLB_PRIV_STAT] d (d.denyAccess pf off write) := by
  rw [denyAccess_eq_countLatch]
  exact countLatch_spec _ _ _ (by decide) (by decide)

theorem badAccess_spec (d : Dev) (f : Fn) (off : Nat) (write : Bool) :
    (d.badAccess f off write).reg (Reg.HIF_BAR0_ERR_CNT f.port) = counterAdd (d.reg (Reg.HIF_BAR0_ERR_CNT f.port)) 1 ∧
    (d.badAccess f off write).regBit (Reg.HIF_STAT f.port) 2 = true ∧
    (d.regBit (Reg.HIF_STAT f.port) 2 = false →
      (d.badAccess f off write).reg (Reg.HIF_BAR0_ERR_LOG f.port) = packW [(b2n write, 26), (off % 2 ^ 26, 0)] ∧
      (d.badAccess f off write).reg (Reg.HIF_BAR0_ERR_FN f.port) = packW [(d.routingId f, 0)]) ∧
    OnlyRegs [Reg.HIF_BAR0_ERR_CNT f.port, Reg.HIF_BAR0_ERR_LOG f.port, Reg.HIF_BAR0_ERR_FN f.port, Reg.HIF_STAT f.port] d
      (d.badAccess f off write) := by
  rw [badAccess_eq_countLatch]
  exact countLatch_spec _ _ _ (by decide)
    (by simp [Reg.HIF_BAR0_ERR_CNT, Reg.HIF_BAR0_ERR_LOG, Reg.HIF_BAR0_ERR_FN, Reg.HIF_STAT])

/-! The checks before a BAR0 access (R552). -/

theorem isReg_of_regRow {off : Nat} {r : RegRow} (h : regRow off = some r) : isReg off = true := by simp [isReg, h]

theorem bar0Write_act {d : Dev} {pf off : Nat} (hr : isReg off = true) (ha : d.allowed pf off true = true) (hg : d.gatedAt off = false)
    (act : Dev → Dev) : d.bar0Write pf off act = act d := by simp [Dev.bar0Write, hr, ha, hg]

theorem bar0Write_deny {d : Dev} {pf off : Nat} (hr : isReg off = true) (ha : d.allowed pf off true = false) (act : Dev → Dev) :
    d.bar0Write pf off act = d.denyAccess pf off true := by simp [Dev.bar0Write, hr, ha]

theorem bar0Read_act {d : Dev} {pf off : Nat} (hr : isReg off = true) (ha : d.allowed pf off false = true) (hg : d.gatedAt off = false)
    (act : Dev → Dev × Word) : d.bar0Read pf off act = setLastRead (act d).1 ((act d).2.zeroExtend 64) := by
  simp [Dev.bar0Read, setLastRead, hr, ha, hg]

/-- Below the ports no block's clock stops (R513). -/
theorem gatedAt_low {off : Nat} (h : off < 0xA00000) (d : Dev) : d.gatedAt off = false := by
  simp only [Dev.gatedAt, Bool.or_eq_false_iff, Bool.and_eq_false_iff, decide_eq_false_iff_not]
  omega

/-- A privileged PF reaches the action of a register of the device's frame that only such a PF may write (R550). -/
theorem bar0Write_priv {d : Dev} {pf off : Nat} {rd : Who} (hr : isReg off = true) (ho : accessRow off = some (rd, .priv))
    (hl : off < 0xA00000) (hp : d.privNow pf = true) (act : Dev → Dev) : d.bar0Write pf off act = act d :=
  bar0Write_act hr (by simp [Dev.allowed, ho, Dev.passes, hp]) (gatedAt_low hl d) act

/-- A register write changes who may reach what only if it is the privilege mask that is written. -/
theorem allowed_setReg {a : Nat} (h : a ≠ Reg.GLB_PRIV_PF) (d : Dev) (v : Word) (pf off : Nat) (write : Bool) :
    (d.setReg a v).allowed pf off write = d.allowed pf off write := by
  have hp : (d.setReg a v).privNow pf = d.privNow pf := congrArg (bitOf · pf) (reg_setReg_ne h.symm d v)
  have ho : (d.setReg a v).ownerOf off = d.ownerOf off := rfl
  have hw : ∀ w, (d.setReg a v).passes w pf off = d.passes w pf off := fun w => by simp only [Dev.passes, hp, ho]
  simp only [Dev.allowed, hw]

/-! Registers whose access code is all there is to them. -/

/-- What `actionReg` rules out, one fact for each place where an access is told apart. -/
structure PlainReg (off : Nat) : Prop where
  winCommit : regIdx 0x100100 0x10000 2 off = none
  cntRel : regIdx 0x810024 0x1000 16 off = none
  rsetRel : regIdx 0xA02004 0x40 64 off = none
  incApply : regIdx 0x1800100 0x40 2 off = none
  timeGo : regIdx 0x1800118 0x40 2 off = none
  tioArm : regIdx 0x1801018 0x40 8 off = none
  ttCtl : regIdx 0x1910000 0x40 16 off = none
  wktBind : regIdx 0x1C00100 4 256 off = none
  listed : off ∉ [Reg.GLB_SQ_APPLY, Reg.GLB_PRIV_LOCK, Reg.GLB_PRIV_PF, 0x400110, 0x400114, 0x400118, Reg.PORT_APPLY, Reg.SVB_MDIO_CMD,
    Reg.TCAM_APPLY, Reg.CLS_HPROF_APPLY, Reg.CRY_RNG_RESTART, Reg.CORE_DBG_CMD, Reg.CORE_DBG_CTL, Reg.TIME_CTL, Reg.TIME_SEL,
    Reg.TIME_LOCK, Reg.FAB_CFG, Reg.WKT_LOCK, Reg.PWR_WAKE, Reg.PWR_CFG, Reg.SVB_CFG, Reg.SVB_PLCA, Reg.TIME_SNAP]
  wicket : ¬(0x1C10000 ≤ off ∧ off < 0x1C20000)
  msix : ¬(0x180000 ≤ off ∧ off < 0x1C0000)
  cntSnap : regIdx 0x810020 0x1000 16 off = none
  rsetSnap : regIdx 0xA02000 0x40 64 off = none
  tioCap : regIdx 0x1801020 0x40 8 off = none
  noRule : ∀ r ∈ rangeRules, regIdx r.base r.stride r.count off = none

theorem plainReg_of_not_action {off : Nat} (h : actionReg off = false) : PlainReg off := by
  simp only [actionReg, Bool.or_eq_false_iff, Option.isSome_eq_false_iff, Option.isNone_iff_eq_none, decide_eq_false_iff_not,
    List.any_eq_false, Bool.not_eq_true, List.contains_eq_mem] at h
  obtain ⟨⟨⟨⟨⟨⟨⟨⟨⟨⟨⟨⟨⟨⟨h1, h2⟩, h3⟩, h4⟩, h5⟩, h6⟩, h7⟩, h8⟩, h9⟩, h10⟩, h11⟩, h12⟩, h13⟩, h14⟩, h15⟩ := h
  exact ⟨h1, h2, h3, h4, h5, h6, h7, h8, h9, h10, h11, h12, h13, h14, h15⟩

theorem writeAt_plain {off : Nat} (h : PlainReg off) (d : Dev) (n : Nat) (v : Word) (acc : ThreadAcc) :
    d.writeAt n off v acc = d.bar0Write n off (fun d => d.storeWord n off v) := by
  have hl := h.listed
  simp only [List.mem_cons, List.not_mem_nil, or_false, not_or] at hl
  have hi : d.indexedWrite n off v = none := by
    simp [Dev.indexedWrite, h.winCommit, h.cntRel, h.rsetRel, h.incApply, h.timeGo, h.tioArm, h.ttCtl, h.wktBind]
  simp only [Dev.writeAt, hi, hl, h.wicket, h.msix, if_false]

theorem readAt_plain {off : Nat} (h : PlainReg off) (d : Dev) (n : Nat) :
    d.readAt n off = d.bar0Read n off (fun d => d.takeWord n off) := by
  have hl := h.listed
  simp only [List.mem_cons, List.not_mem_nil, or_false, not_or] at hl
  simp only [Dev.readAt, h.cntSnap, h.rsetSnap, h.tioCap, hl, h.wicket, if_false]

theorem rangeRefusal_plain {off : Nat} (h : PlainReg off) (d : Dev) (n : Nat) (v : Word) : d.rangeRefusal n off v = none := by
  simp only [Dev.rangeRefusal, List.findSome?_eq_none_iff]
  intro r hr
  simp [h.noRule r hr]

theorem written_plain {off : Nat} (h : PlainReg off) (d : Dev) (old v : Word) : d.written off old v = d := by
  have hl := h.listed
  have hr := h.noRule
  simp only [List.mem_cons, List.not_mem_nil, or_false, not_or] at hl
  simp only [rangeRules, portRules, ageRules, List.mem_append, or_imp, forall_and, List.forall_mem_cons] at hr
  simp [Dev.written, hr, hl]

/-- The word that a write of v leaves where `old` stood (R7). -/
def storedWord (r : RegRow) (old v : Word) : Word :=
  ((old &&& ~~~r.rw) ||| (v &&& r.rw)) &&& ~~~(v &&& r.w1c)

theorem storeWord_plain {off : Nat} {r : RegRow} (h : PlainReg off) (hr : regRow off = some r) (d : Dev) (n : Nat) (v : Word) :
    d.storeWord n off v = d.setReg (regAt n off) (storedWord r (d.reg (regAt n off)) v) := by
  simp only [Dev.storeWord, hr, rangeRefusal_plain h, ite_self, written_plain h, storedWord]

theorem writeAt_stores {d : Dev} {n off : Nat} {r : RegRow} (h : actionReg off = false) (hr : regRow off = some r)
    (ha : d.allowed n off true = true) (hg : d.gatedAt off = false) (v : Word) (acc : ThreadAcc) :
    d.writeAt n off v acc = d.setReg (regAt n off) (storedWord r (d.reg (regAt n off)) v) := by
  rw [writeAt_plain (plainReg_of_not_action h), bar0Write_act (isReg_of_regRow hr) ha hg, storeWord_plain (plainReg_of_not_action h) hr]

/-! Accesses of a function, by size (R10). -/

theorem fnWrite_pf_word {n off : Nat} (hn : n < 16) (ho : off < 0x4000000) (ha : off % 4 = 0) (d : Dev) (v : Dword) (acc : ThreadAcc) :
    d.fnWrite (.pf n) off 4 v acc = d.writeAt n off (v.truncate 32) acc := by
  simp [Dev.fnWrite, Dev.reaches, badSize, hn, ho, ha]

theorem fnWrite_pf_dword {n off : Nat} (hn : n < 16) (ho : off < 0x4000000) (ha : off % 8 = 0) (d : Dev) (v : Dword) (acc : ThreadAcc) :
    d.fnWrite (.pf n) off 8 v acc = (d.writeAt n off (v.truncate 32) acc).writeAt n (off + 4) ((v >>> 32).truncate 32) acc := by
  simp [Dev.fnWrite, Dev.reaches, badSize, hn, ho, ha]

theorem fnRead_pf_word {n off : Nat} (hn : n < 16) (ho : off < 0x4000000) (ha : off % 4 = 0) (d : Dev) :
    d.fnRead (.pf n) off 4 = d.readAt n off := by
  simp [Dev.fnRead, Dev.reaches, badSize, hn, ho, ha]

theorem fnWrite_vfRingSel {d : Dev} {p v : Nat} (hv : d.vfExists p v = true) (hn : d.vfNvme p = false) (w : Dword) (acc : ThreadAcc) :
    d.fnWrite (.vf p v) 0x1000 4 w acc =
      d.fnPut (.vf p v) { d.fnGet (.vf p v) with vfRingSel := w.truncate 32 &&& 0x1F01FF#32 } := by
  simp [Dev.fnWrite, Dev.reaches, badSize, Dev.vfWrite, hv, hn]

@[simp] theorem fnGet_fnPut_self (d : Dev) (f : Fn) (c : FnCfg) : (d.fnPut f c).fnGet f = c := by simp [Dev.fnGet, Dev.fnPut]

theorem regAt_inj {n a b : Nat} (h : a ≠ b) (ha : a < 0x4000000) (hb : b < 0x4000000) : regAt n a ≠ regAt n b := by
  unfold regAt
  split <;> split <;> omega

theorem regAt_ne_privPf {n off : Nat} (h : PlainReg off) : regAt n off ≠ Reg.GLB_PRIV_PF := by
  have hl : off ≠ Reg.GLB_PRIV_PF := fun e => h.listed (by simp [e])
  unfold regAt Reg.GLB_PRIV_PF at *
  split <;> omega

/-- A read clears the RC bits of the register and answers the word that stood there (R7). -/
theorem takeWord_spec {off : Nat} {r : RegRow} (hr : regRow off = some r) (d : Dev) (n : Nat) :
    (d.takeWord n off).2 = d.regWord n off ∧ (d.takeWord n off).1.reg (regAt n off) = d.reg (regAt n off) &&& ~~~r.rc ∧
      OnlyRegs [regAt n off] d (d.takeWord n off).1 := by
  have hc : (if r.rc = 0 then d else d.setReg (regAt n off) (d.reg (regAt n off) &&& ~~~r.rc)).reg (regAt n off) =
      d.reg (regAt n off) &&& ~~~r.rc := by
    split
    case isTrue h => rw [h, show ~~~(0 : Word) = BitVec.allOnes 32 by decide, BitVec.and_allOnes]
    case isFalse => exact reg_setReg_self ..
  have ho : OnlyRegs [regAt n off] d (if r.rc = 0 then d else d.setReg (regAt n off) (d.reg (regAt n off) &&& ~~~r.rc)) := by
    split
    case isTrue => exact fun _ _ => rfl
    case isFalse => exact onlyRegs_setReg (by simp) _ _
  unfold Dev.takeWord
  rw [hr]
  dsimp only
  cases regIdx 0x1810014 0x40 16 off <;> exact ⟨rfl, hc, ho⟩

/-! The Square's pools (R25). -/

theorem getD_map_range {α : Type} {n k : Nat} (h : n < k) (f : Nat → α) (x : α) : ((List.range k).map f).getD n x = f n := by
  simp [h]

/-- The pools of the Square with the minimums and caps that the GLB_SQ registers hold. -/
def poolsApplied (d : Dev) : List Pool :=
  (List.range 20).map fun n => { d.sq.pool n with min := d.regN (Reg.GLB_SQ_MIN n), max := d.regN (Reg.GLB_SQ_MAX n) }

theorem pool_of_poolsApplied {n : Nat} (h : n < 20) (d : Dev) :
    (d.setSquare { d.sq with pools := poolsApplied d }).sq.pool n =
      { d.sq.pool n with min := d.regN (Reg.GLB_SQ_MIN n), max := d.regN (Reg.GLB_SQ_MAX n) } := by
  show (poolsApplied d).getD n _ = _
  exact getD_map_range h _ _

/-- A minimum above its cap, or minimums of more cells than the Square has. -/
def poolsRefused (d : Dev) : Prop :=
  (∃ n < 20, d.regN (Reg.GLB_SQ_MAX n) < d.regN (Reg.GLB_SQ_MIN n)) ∨
    393216 < sumNat ((List.range 20).map fun n => d.regN (Reg.GLB_SQ_MIN n))

theorem sqApply_eq {d : Dev} {pf : Nat} {v : Word} [Decidable (poolsRefused d)] (hp : d.privNow pf = true) (hv : bitOf v 0 = true) :
    d.sqApply pf v = if poolsRefused d then d.setBit Reg.GLB_STAT 4 else d.setSquare { d.sq with pools := poolsApplied d } := by
  unfold Dev.sqApply
  rw [bar0Write_priv (rd := .any) (by decide) (by decide) (by decide) hp]
  simp only [hv, Bool.not_true, Bool.false_eq_true, if_false, List.zip_map', List.any_map, List.any_eq_true, Function.comp_apply,
    decide_eq_true_eq, List.mem_range]
  refine if_congr Iff.rfl rfl (congrArg (fun l => d.setSquare { d.sq with pools := l }) (List.map_congr_left fun n hn => ?_))
  rw [getD_map_range (List.mem_range.1 hn), getD_map_range (List.mem_range.1 hn)]

theorem privLock_eq {d : Dev} {pf : Nat} {v : Word} (hp : d.privNow pf = true) (hv : bitOf v 0 = true) :
    d.privLock pf v = d.setBit Reg.GLB_PRIV_LOCK 0 := by
  unfold Dev.privLock
  rw [bar0Write_priv (rd := .any) (by decide) (by decide) (by decide) hp, if_pos hv]

/-- Settles O7, clause by clause: what each access comes down to, and the registers that this leaves alone. -/
theorem bar0Access : Obligations.Bar0Access := by
  unfold Obligations.Bar0Access
  refine ⟨?write32, ?write64, ?denied, ?vfRingSel, ?read32, ?misformed, ?pools, ?privLock⟩
  case write32 =>
    intro s n off v acc r hs hn ha ho hr hp hal hg
    refine runs_of_run hs (exec_registerWrite ..) ?_
    rw [fnWrite_pf_word hn ho ha, writeAt_stores hp hr hal hg]
    exact ⟨reg_setReg_self .., onlyRegs_setReg (by simp) _ _⟩
  case write64 =>
    intro s n off v acc r q hs hn ha ho hr hp hal hg hq hp' hal' hg'
    have hne : regAt n off ≠ regAt n (off + 4) := regAt_inj (by omega) (by omega) ho
    refine runs_of_run hs (exec_registerWrite ..) ?_
    rw [fnWrite_pf_dword hn (by omega) ha, writeAt_stores hp hr hal hg, writeAt_stores hp' hq
      ((allowed_setReg (regAt_ne_privPf (plainReg_of_not_action hp)) ..).trans hal') hg', reg_setReg_ne hne.symm]
    refine ⟨?_, reg_setReg_self .., onlyRegs_trans (onlyRegs_setReg (by simp) _ _) (onlyRegs_setReg (by simp) _ _)⟩
    rw [reg_setReg_ne hne, reg_setReg_self]
    rfl
  case denied =>
    intro s n off v acc hs hn ha ho hr hp hal
    refine runs_of_run hs (exec_registerWrite ..) ?_
    rw [fnWrite_pf_word hn ho ha, writeAt_plain (plainReg_of_not_action hp), bar0Write_deny hr hal]
    exact denyAccess_spec ..
  case vfRingSel =>
    intro s p v w acc hs hv hn
    refine runs_of_run hs (exec_registerWrite ..) ?_
    rw [fnWrite_vfRingSel hv hn, fnGet_fnPut_self]
    exact ⟨rfl, onlyRegs_of_regs_eq rfl⟩
  case read32 =>
    intro s n off r hs hn ha ho hr hp hal hg
    obtain ⟨hv, hc, hk⟩ := takeWord_spec hr s.dev n
    refine runs_of_run hs (exec_readClear ..) ?_
    rw [fnRead_pf_word hn ho ha, readAt_plain (plainReg_of_not_action hp), bar0Read_act (isReg_of_regRow hr) hal hg, hv]
    exact ⟨rfl, hc, hk⟩
  case misformed =>
    intro s fn off size write hs hf hz
    refine runs_of_run hs (exec_bar0BadAccess ..) ?_
    obtain ⟨hc, hb, hl, hk⟩ := badAccess_spec s.dev fn off write
    rw [hf, hz, Bool.and_self, if_pos rfl]
    simp only [reg_setLastRead, regBit_setLastRead, lastRead_setLastRead]
    exact ⟨hc, hb, hl, fun hw => by simp [hw], onlyRegs_trans hk (fun _ _ => reg_setLastRead ..)⟩
  case pools =>
    classical
    intro s pf v hs hp hv
    constructor
    · rintro ⟨hle, hsum⟩
      have hok : ¬ poolsRefused s.dev := by
        rintro (⟨n, hn, hlt⟩ | hlt)
        · exact absurd (hle n hn) (by omega)
        · omega
      refine runs_of_run hs (exec_glbSqApply ..) ?_
      rw [sqApply_eq hp hv, if_neg hok]
      refine ⟨fun n hn => ?_, rfl, onlyRegs_of_regs_eq rfl⟩
      rw [pool_of_poolsApplied hn]
      exact ⟨rfl, rfl, rfl⟩
    · intro hsum
      refine runs_of_run hs (exec_glbSqApply ..) ?_
      rw [sqApply_eq hp hv, if_pos (.inr hsum)]
      exact ⟨rfl, regBit_setBit_self (by decide) _ _, onlyRegs_setBit (by simp) _ _⟩
  case privLock =>
    intro s pf v hs hp hv
    refine runs_of_run hs (exec_glbPrivLock ..) ?_
    rw [privLock_eq hp hv]
    exact ⟨regBit_setBit_self (by decide) _ _, onlyRegs_setBit (by simp) _ _⟩

/-! After reset the device is alive, and O7's conditions hold of accesses by PF 0. -/

theorem write_ltrActive_after_reset :
    Runs (.registerWrite (.pf 0) (Reg.HIF_LTR_ACTIVE 0) 4 0x1234 default) State.reset fun b =>
      b.reg (Reg.HIF_LTR_ACTIVE 0) = 0x1234#32 := by
  obtain ⟨t, he, hq, hv, -⟩ := bar0Access.1 State.reset 0 (Reg.HIF_LTR_ACTIVE 0) 0x1234 default
    ⟨0x100020, 0x10000, 2, 0x10000, 1, .rw, 0x2710#32, 0x3ffffff#32, 0x0#32, 0x0#32⟩
    rfl (by decide) (by decide) (by decide) (by decide) (by decide) (by decide) (by decide)
  exact ⟨t, he, hq, hv.trans (by decide)⟩

theorem sqApply_after_reset :
    Runs (.glbSqApply 0 1#32) State.reset fun b => ∀ n, n < 20 → (b.sq.pool n).min = State.reset.dev.regN (Reg.GLB_SQ_MIN n) := by
  obtain ⟨-, -, -, -, -, -, hpools, -⟩ := bar0Access
  obtain ⟨t, he, hq, hp, -⟩ := (hpools State.reset 0 1#32 rfl (by decide) (by decide)).1 ⟨by decide, by decide⟩
  exact ⟨t, he, hq, fun n hn => (hp n hn).1⟩

end Sys2Proof.Proofs

/-! The state right after reset, and the frame of every command (R13, R14, R16, R18, R26, R33, R40, R106, R210). -/

namespace Sys2Proof.Proofs

open Sys2Proof Sys2Proof.Machine Sys2Proof.Laws

/-- Settles O5: the law of each command's meaning bounds the parts it changes. -/
theorem commandFrames : Obligations.CommandFrames := by
  unfold Obligations.CommandFrames
  exact fun _ _ _ h => exec_agree h

/-- Settles O2: nothing has been written yet, so every table reads its default. -/
theorem resetState : Obligations.ResetState := by
  unfold Obligations.ResetState
  refine ⟨⟨regsCanon_nil, rfl⟩, rfl, fun _ => rfl, fun _ => rfl, fun n hn => ?_, rfl, rfl, rfl, rfl, fun _ => rfl, fun _ => rfl⟩
  exact getD_map_range hn Pool.resetOf _

end Sys2Proof.Proofs

/-! What lies outside the parts that a command changes, and further rules of the state's operations. -/

namespace Sys2Proof.Proofs

open Sys2Proof Sys2Proof.Machine Sys2Proof.Laws

/-! Agreement of two devices. -/

theorem agree_of_rel_mask {l : List Part} {a b : Dev} (h : Rel (maskOf l) a b) : Agree l a b :=
  agree_of_rel h fun _ hp => testBit_maskOf hp

theorem onlyRegs_of_agree {l : List Part} {k : List Nat} {a b : Dev} (h : Agree l a b) (hl : .regs ∉ l := by decide) : OnlyRegs k a b :=
  onlyRegs_of_regs_eq (h .regs hl)

theorem onlyBytes_of_hbm_eq {x n : Nat} {a b : Dev} (h : b.hbm = a.hbm) : OnlyBytes x n a b := fun y _ => by rw [h]

/-! Running a command: of the always-on domain, and one whose effect has an equation. -/

theorem runs_of_runAon {c : Instr} {s : State} {f : Dev → Dev} {P : Dev → Prop} (hs : s.dev.pwr.off = false)
    (he : exec c s = s.runAon f) (hp : P (f s.dev)) : Runs c s P :=
  ⟨{ s with dev := f s.dev }, by simp [he, State.runAon, hs], rfl, hp⟩

/-- A command whose effect on the device has an equation. -/
theorem runs_of_run_eq {c : Instr} {s : State} {f : Dev → Dev} {e : Dev} {P : Dev → Prop} (hs : Alive s) (he : exec c s = s.run f)
    (hf : f s.dev = e) (hp : P e) : Runs c s P := runs_of_run hs he (hf ▸ hp)

/-! What left the device stays on record. -/

/-- The record of what left the device has grown. -/
def OutGrows (a b : Dev) : Prop := a.out <+: b.out

theorem mem_out_of_grows {a b : Dev} {o : Out} (h : OutGrows a b) (ho : o ∈ a.out) : o ∈ b.out := h.subset ho

theorem outGrows_of_eq {a b : Dev} (h : b.out = a.out) : OutGrows a b := by rw [OutGrows, h]

theorem outGrows_trans {a b c : Dev} (h : OutGrows a b) (k : OutGrows b c) : OutGrows a c := List.IsPrefix.trans h k

theorem outGrows_emit (d : Dev) (o : Out) : OutGrows d (d.emit o) := List.prefix_append _ _

end Sys2Proof.Proofs

/-! Watchdogs and restarts of the planes, and the commands of the device's frame (R18, R558 to R563). -/

namespace Sys2Proof.Proofs

open Sys2Proof Sys2Proof.Machine Sys2Proof.Laws

theorem exec_controlWatchdogExpire (s : State) : exec .controlWatchdogExpire s = s.run (·.ctlExpire) := rfl

theorem exec_controlRestartDone (s : State) : exec .controlRestartDone s = s.run (·.ctlRestarted) := rfl

theorem exec_mgmtWatchdogExpire (s : State) : exec .mgmtWatchdogExpire s = s.runAon (·.mgmtExpire) := rfl

theorem exec_admNop (e : AdmEntry) (s : State) : exec (.admNop e) s = s.run (·.admRun e 0x01 (admNop e)) := rfl

theorem exec_admIdentify (e : AdmEntry) (s : State) : exec (.admIdentify e) s = s.run (·.admRun e 0x02 (admIdentify e)) := rfl

theorem exec_admJrnlRead (e : AdmEntry) (s : State) : exec (.admJrnlRead e) s = s.run (·.admRun e 0x03 (admJrnlRead e)) := rfl

/-! The completion of an admin command (R138, R557, R562). -/

theorem outGrows_msixSend (d : Dev) (f : Fn) (vec : Nat) (src : IrqSrc) : OutGrows d (d.msixSend f vec src) := by
  have hw : OutGrows d (d.wakeLink f.port) := outGrows_of_eq ((rel_Dev_wakeLink ..).same .out (by decide))
  have hp : OutGrows d (d.pbaAdd f vec src) := outGrows_of_eq ((rel_Dev_pbaAdd ..).same .out (by decide))
  unfold Dev.msixSend
  split
  · exact outGrows_trans hw (outGrows_emit ..)
  · dsimp only
    split
    · exact outGrows_trans hp (outGrows_emit ..)
    · exact hp

theorem outGrows_admWrite (d : Dev) (pf : Nat) (e : Cqe) : OutGrows d (d.admWrite pf e) := by
  unfold Dev.admWrite
  dsimp only
  exact outGrows_trans (outGrows_trans (outGrows_emit ..) (outGrows_of_eq (admPut_out ..))) (outGrows_msixSend ..)

theorem outGrows_admPush (d : Dev) (pf : Nat) (e : Cqe) : OutGrows d (d.admPush pf e) := by
  unfold Dev.admPush
  dsimp only
  split
  · exact outGrows_of_eq rfl
  · split
    · exact outGrows_admWrite ..
    · exact outGrows_of_eq (admPut_out ..)

/-- The device with the journal record of a command's completion, the command no longer in progress. -/
def admNoted (d : Dev) (e : AdmEntry) (opc st det : Nat) : Dev :=
  { d.admJournal e opc st det with ring := { d.ring with taken := takenErase e d.ring.taken } }

theorem admComplete1_eq (d : Dev) (e : AdmEntry) (opc st det len : Nat) :
    d.admComplete1 e opc st det len = (admNoted d e opc st det).admPush e.pf (mkCqe 0xFFFF det e.tag st opc d.ts32 len 0 0) := rfl

theorem admNoted_ended (d : Dev) (e : AdmEntry) (opc st det : Nat) : AdmEnded d (admNoted d e opc st det) e opc st det := by
  refine ⟨⟨d.glb.admSeq, d.nowNs, e.pf, opc, st, det, e.tag, e.dwords⟩, ?_, rfl, rfl, rfl, rfl, rfl, rfl⟩
  simp only [admNoted, Dev.admJournal, List.length_append, List.length_singleton]
  rw [List.drop_append_of_le_length (by omega)]
  exact List.mem_append_right _ (List.mem_singleton_self _)

/-- What the completion of a command leaves behind: its journal record, the command no longer in progress, and all that had left the
device before. -/
theorem admComplete1_spec (d : Dev) (e : AdmEntry) (opc st det len : Nat) :
    AdmEnded d (d.admComplete1 e opc st det len) e opc st det ∧
    (d.admComplete1 e opc st det len).ring.taken = takenErase e d.ring.taken ∧ OutGrows d (d.admComplete1 e opc st det len) := by
  have hpush := rel_Dev_admPush (admNoted d e opc st det) e.pf (mkCqe 0xFFFF det e.tag st opc d.ts32 len 0 0)
  obtain ⟨-, hj⟩ := hpush.same .admJ (by decide)
  obtain ⟨ht, -⟩ := hpush.same .taken (by decide)
  obtain ⟨r, hr, hrest⟩ := admNoted_ended d e opc st det
  have hout : OutGrows d (admNoted d e opc st det) := outGrows_of_eq rfl
  rw [admComplete1_eq]
  exact ⟨⟨r, by rwa [hj], hrest⟩, ht, outGrows_trans hout (outGrows_admPush ..)⟩

theorem privOf_of_taken_nil {d : Dev} (h : d.ring.taken = []) (e : AdmEntry) : d.privOf e = d.privNow e.pf := by
  simp [Dev.privOf, h]

/-- A command that completes at once and returns bytes: they are written to the buffer that its dword 1 names. -/
theorem admRun_returns {d : Dev} {e : AdmEntry} {opc det len : Nat} {data : List Byte} {f : Dev → AdmRes} (hc : d.ctlRuns = true)
    (hf : f d = .done d det len data) (ht : d.ring.taken = []) (hd : data ≠ []) :
    Out.hostWrite (.pf e.pf) none e.d1.toNat data false ∈ (d.admRun e opc f).out := by
  have hw : d.pfWrite e.pf e.d1.toNat data = d.emit (.hostWrite (.pf e.pf) none e.d1.toNat data false) := by
    simp [Dev.pfWrite, List.isEmpty_iff, hd]
  have hr : d.admRun e opc f = (d.emit (.hostWrite (.pf e.pf) none e.d1.toNat data false)).admComplete1 e opc 0 det len := by
    rw [← hw, ← admComplete_eq (by rw [hw]; exact ht)]
    simp [Dev.admRun, hc, hf]
  obtain ⟨-, -, hg⟩ := admComplete1_spec (d.emit (.hostWrite (.pf e.pf) none e.d1.toNat data false)) e opc 0 det len
  rw [hr]
  exact mem_out_of_grows hg (List.mem_append_right _ (List.mem_singleton_self _))

/-- An admin command whose checks pass and which changes nothing but what its completion touches. -/
theorem completes_of_done {c : Instr} {e : AdmEntry} {opc det len : Nat} {s : State} {data : List Byte} {f : Dev → AdmRes}
    {P : Dev → Prop} (hs : AdmReady s) (he : exec c s = s.run (·.admRun e opc f)) (hf : f s.dev = .done s.dev det len data)
    (hp : Agree Machine.admParts s.dev (s.dev.admRun e opc f) → P (s.dev.admRun e opc f)) : Completes c e opc s P := by
  obtain ⟨ha, hc, ht⟩ := hs
  obtain ⟨hd, hk⟩ := admRun_done hc hf ht rfl
  exact runs_of_run ha he ⟨⟨det, hd⟩, hp hk⟩

/-- An admin command that returns bytes, likewise. -/
theorem completes_of_returns {c : Instr} {e : AdmEntry} {opc det len : Nat} {s : State} {data : List Byte} {f : Dev → AdmRes}
    (hs : AdmReady s) (he : exec c s = s.run (·.admRun e opc f)) (hf : f s.dev = .done s.dev det len data) (hd : data ≠ []) :
    Completes c e opc s fun b => Out.hostWrite (.pf e.pf) none e.d1.toNat data false ∈ b.out :=
  completes_of_done hs he hf fun _ => admRun_returns hs.2.1 hf hs.2.2 hd

/-! The bodies of the commands (R557, R559, R560). -/

theorem admNop_done {d : Dev} {e : AdmEntry} (hl : e.len = 0) (ht : d.ring.taken = []) : admNop e d = .done d := by
  simp [admNop, admChecks, firstFail, hl, Dev.admEarlier, ht]

theorem admIdentify_done {e : AdmEntry} (hl : 128 ≤ e.len) (d : Dev) : admIdentify e d = .done d 0 128 (d.identify e.pf) := by
  have h : ¬ e.len < 128 := by omega
  simp [admIdentify, admChecks, firstFail, h]

theorem admJrnlRead_adm {d : Dev} {e : AdmEntry} {r : AdmRec} (hp : d.privOf e = true) (hl : 128 ≤ e.len) (hb : bitOf e.d2 0 = false)
    (hr : d.glb.admJournal.find? (fun x => decide (x.seq = e.d3.toNat)) = some r) : admJrnlRead e d = .done d 0 128 r.bytes := by
  have h : ¬ e.len < 128 := by omega
  simp [admJrnlRead, admChecks, firstFail, Dev.notPriv, hp, h, hb, hr]

theorem admJrnlRead_tbl {d : Dev} {e : AdmEntry} {r : TblRec} (hp : d.privOf e = true) (hl : 128 ≤ e.len) (hb : bitOf e.d2 0 = true)
    (hr : d.glb.tblJournal.find? (fun x => decide (x.seq = e.d3.toNat)) = some r) : admJrnlRead e d = .done d 0 128 r.bytes := by
  have h : ¬ e.len < 128 := by omega
  simp [admJrnlRead, admChecks, firstFail, Dev.notPriv, hp, h, hb, hr]

theorem admJrnlRead_denied {d : Dev} {e : AdmEntry} (hp : d.privOf e = false) : admJrnlRead e d = .fail St.DENIED 3 := by
  simp [admJrnlRead, admChecks, firstFail, Dev.notPriv, hp]

theorem slice_length (l : List Byte) (off n : Nat) : (slice l off n).length = n := by
  simp only [slice, List.length_append, List.length_replicate, List.length_take, List.length_drop]
  omega

theorem fitTo_length (n : Nat) (l : List Byte) : (fitTo n l).length = n := slice_length l 0 n

theorem fitTo_ne_nil {n : Nat} (h : 0 < n) (l : List Byte) : fitTo n l ≠ [] :=
  List.length_pos_iff.1 (by rwa [fitTo_length])

theorem identify_ne_nil (d : Dev) (pf : Nat) : d.identify pf ≠ [] := by simp [Dev.identify]

/-! A restart of the control cluster (R18). -/

/-- A command that was in progress ends ABORTED. -/
def abortTaken (d : Dev) (a : AdmTaken) : Dev := d.admComplete1 a.e a.e.opc St.ABORTED 0 0

theorem taken_foldl_abortTaken {l : List AdmTaken} {d : Dev} (h : d.ring.taken = l) : (l.foldl abortTaken d).ring.taken = [] := by
  induction l generalizing d with
  | nil => exact h
  | cons a r ih =>
    obtain ⟨-, ht, -⟩ := admComplete1_spec d a.e a.e.opc St.ABORTED 0 0
    exact ih (by rw [abortTaken, ht, h]; simp [takenErase])

theorem agree_foldl_abortTaken (l : List AdmTaken) (d : Dev) : Agree Machine.admParts d (l.foldl abortTaken d) := by
  have h : Rel 4295164320 d (l.foldl abortTaken d) := Rel.foldl (fun d a => rel_Dev_admComplete1 ..) (Rel.refl _ _)
  exact agree_of_rel_mask (h.mono (by decide))

theorem ctlRestarted_eq {d : Dev} (hc : d.glb.planes.ctlUp = false) (hm : d.glb.planes.mgmtUp = true) :
    d.ctlRestarted = (d.ring.taken.foldl abortTaken (d.setPlanes { d.glb.planes with ctlUp := true })).setBit Reg.GLB_STAT 1 := by
  simp only [Dev.ctlRestarted, hc, hm]
  rfl

/-- Settles O8, clause by clause: a watchdog or restart changes its plane, and an admin command ends as its checks say. -/
theorem planesAndFrame : Obligations.PlanesAndFrame := by
  unfold Obligations.PlanesAndFrame
  refine ⟨?ctlExpire, ?ctlRestart, ?mgmtExpire, ?nop, ?identify, ?admJournal, ?tblJournal, ?denied⟩
  case ctlExpire =>
    intro s hs hc
    refine runs_of_run hs (exec_controlWatchdogExpire s) ?_
    simp only [Dev.ctlExpire, hc, Bool.not_true, Bool.false_eq_true, if_false]
    exact ⟨rfl, rfl, rfl, rfl, onlyRegs_of_regs_eq rfl⟩
  case ctlRestart =>
    intro s hs hc hm
    have hk := agree_foldl_abortTaken s.dev.ring.taken (s.dev.setPlanes { s.dev.glb.planes with ctlUp := true })
    have hplanes := hk .planes (by decide)
    refine runs_of_run hs (exec_controlRestartDone s) ?_
    rw [ctlRestarted_eq hc hm]
    refine ⟨congrArg Planes.ctlUp hplanes, regBit_setBit_self (by decide) _ _, taken_foldl_abortTaken rfl,
      onlyRegs_trans (onlyRegs_trans (onlyRegs_of_regs_eq (setPlanes_regs ..)) (onlyRegs_of_agree hk)) (onlyRegs_setBit (by simp) _ _),
      fun a ha => ?_⟩
    rw [ha]
    exact (admComplete1_spec (s.dev.setPlanes { s.dev.glb.planes with ctlUp := true }) a.e a.e.opc St.ABORTED 0 0).1
  case mgmtExpire =>
    intro s hs hm
    refine runs_of_runAon hs (exec_mgmtWatchdogExpire s) ?_
    simp only [Dev.mgmtExpire, hm, Bool.not_true, Bool.false_eq_true, if_false]
    exact ⟨rfl, rfl, rfl, rfl, rfl, rfl, onlyRegs_of_regs_eq rfl⟩
  case nop =>
    intro s e hs hl
    exact completes_of_done hs (exec_admNop e s) (admNop_done hl hs.2.2) fun hk => onlyRegs_of_agree hk
  case identify =>
    intro s e hs hl
    exact completes_of_returns hs (exec_admIdentify e s) (admIdentify_done hl s.dev) (identify_ne_nil _ _)
  case admJournal =>
    intro s e r hs hp hl hb hr
    exact completes_of_returns hs (exec_admJrnlRead e s)
      (admJrnlRead_adm ((privOf_of_taken_nil hs.2.2 e).trans hp) hl hb hr) (fitTo_ne_nil (by decide) _)
  case tblJournal =>
    intro s e r hs hp hl hb hr
    exact completes_of_returns hs (exec_admJrnlRead e s)
      (admJrnlRead_tbl ((privOf_of_taken_nil hs.2.2 e).trans hp) hl hb hr) (fitTo_ne_nil (by decide) _)
  case denied =>
    intro s e hs hp
    obtain ⟨ha, hc, ht⟩ := hs
    have hno : s.dev.privOf e = false := (privOf_of_taken_nil ht e).trans (Bool.eq_false_iff.2 hp)
    obtain ⟨hend, hk⟩ := admRun_fail (opc := 0x03) hc ht (admJrnlRead_denied hno)
    exact runs_of_run ha (exec_admJrnlRead e s) ⟨hend, onlyRegs_of_agree hk⟩

end Sys2Proof.Proofs

/-! The records of the table-update engine (R16, R216 to R219, R563). -/

namespace Sys2Proof.Proofs

open Sys2Proof Sys2Proof.Machine Sys2Proof.Laws

/-! HBM read after a write of bytes. -/

/-- A write of bytes is a write of the first and then of the rest. -/
theorem byte_write_cons (h : Hbm) (a y : Nat) (x : Byte) (r : List Byte) :
    (h.write a (x :: r)).byte y = ((h.write a [x]).write (a + 1) r).byte y := by
  simp only [Hbm.byte, Hbm.write, List.zipIdx_cons', List.zipIdx_nil, List.map_nil, List.foldl_cons, List.foldl_nil, List.foldl_map,
    Prod.map_fst, Prod.map_snd, id, Nat.add_zero, Nat.add_assoc, Nat.add_comm 1]

theorem byte_write_inside (h : Hbm) (a : Nat) {b : List Byte} {i : Nat} (hi : i < b.length) :
    (h.write a b).byte (a + i) = b.getD i 0#8 := by
  induction b generalizing h a i with
  | nil => simp at hi
  | cons x r ih =>
    rw [byte_write_cons]
    cases i with
    | zero =>
      rw [hbm_write_other _ _ _ _ (.inl (by omega))]
      simp [Hbm.byte, Hbm.write]
    | succ i =>
      have hr : i < r.length := by simpa using hi
      rw [show a + (i + 1) = a + 1 + i by omega, ih (h.write a [x]) (a + 1) hr]
      rfl

/-- Reading a table after writes at n places in a row. -/
theorem kvGet_foldl_range {α : Type} [DecidableEq α] (x : α) (a : Nat) (f : Nat → α) (m : Kv α) (n : Nat) :
    (∀ i, i < n → kvGet x ((List.range n).foldl (fun m i => kvSet x (a + i) (f i) m) m) (a + i) = f i) ∧
    (∀ j, j < a ∨ a + n ≤ j → kvGet x ((List.range n).foldl (fun m i => kvSet x (a + i) (f i) m) m) j = kvGet x m j) := by
  induction n with
  | zero => exact ⟨fun _ h => absurd h (Nat.not_lt_zero _), fun _ _ => rfl⟩
  | succ n ih =>
    obtain ⟨hin, hout⟩ := ih
    simp only [List.range_succ, List.foldl_append, List.foldl_cons, List.foldl_nil]
    refine ⟨fun i hi => ?_, fun j hj => ?_⟩
    · rcases Nat.lt_succ_iff_lt_or_eq.1 hi with h | rfl
      · rw [kvGet_kvSet_ne (by omega), hin i h]
      · exact kvGet_kvSet_self ..
    · rw [kvGet_kvSet_ne (by omega), hout j (by omega)]

/-! The engine takes a record. -/

/-- The device with these records waiting. -/
def setTueQ (d : Dev) (q : List TueRec) : Dev := { d with glb := { d.glb with tueQ := q } }

/-- The device once a record was applied with an outcome: counted and journalled. -/
def tueNoted (d : Dev) (r : TueRec) (o : Nat) : Dev := (d.tueCount o).tblJournalAdd r o

theorem tueTake_front {d e : Dev} {r : TueRec} {rest : List TueRec} {o : Nat} (hq : d.glb.tueQ = r :: rest)
    (ha : (setTueQ d rest).tueApply r = (o, e)) : d.tueTake r.op = (some (r, o), tueNoted e r o) := by
  have hp : (setTueQ d rest).tuePosted r = (o, tueNoted e r o) := by simp [Dev.tuePosted, Dev.tueInternal, ha, tueNoted]
  simp only [Dev.tueTake, hq]
  rw [if_neg (fun h => h rfl)]
  exact congrArg (fun x : Nat × Dev => (some (r, x.1), x.2)) hp

theorem tueStep_front {d e : Dev} {r : TueRec} {rest : List TueRec} {o : Nat} (hq : d.glb.tueQ = r :: rest)
    (ha : (setTueQ d rest).tueApply r = (o, e)) : d.tueStep r.op = (tueNoted e r o).tueReturn r o := by
  simp only [Dev.tueStep, tueTake_front hq ha]

/-- A compare-and-swap that found what it compares with, or that no command posted, ends as other records do. -/
theorem lineCas_front {d e : Dev} {r : TueRec} {rest : List TueRec} {o : Nat} (hq : d.glb.tueQ = r :: rest) (hop : r.op = 0x11)
    (ha : (setTueQ d rest).tueApply r = (o, e)) (ho : o = 0 ∨ r.poster = .firmware) :
    d.lineCas = (tueNoted e r o).tueReturn r o := by
  simp only [Dev.lineCas, ← hop, tueTake_front hq ha]
  cases hp : r.poster with
  | firmware => simp [Dev.tueReturn, hp]
  | adm =>
    have h0 : o = 0 := ho.resolve_right (by simp [hp])
    simp [h0]

/-- A record that was applied left the queue and is journalled as APPLIED; what it did to the tables stays. -/
theorem tueReturn_applied {d e : Dev} {r : TueRec} {rest : List TueRec} (ha : (setTueQ d rest).tueApply r = (0, e)) :
    TueDone d ((tueNoted e r 0).tueReturn r 0) r rest ∧ ((tueNoted e r 0).tueReturn r 0).cls = e.cls ∧
      ((tueNoted e r 0).tueReturn r 0).fwd = e.fwd ∧ ((tueNoted e r 0).tueReturn r 0).hbm = e.hbm := by
  have hret := rel_Dev_tueReturn (tueNoted e r 0) r 0
  obtain ⟨hq, hs, -, -⟩ := (rel_Dev_tueApply' ha).same .tue (by decide)
  obtain ⟨hq', -, hj, -⟩ := hret.same .tue (by decide)
  refine ⟨⟨hq'.trans hq, ⟨e.glb.tblSeq, r, e.nowNs, 0⟩, ?_, hs, rfl, rfl⟩, hret.same .cls (by decide), hret.same .fwd (by decide),
    hret.same .hbm (by decide)⟩
  rw [hj]
  simp only [tueNoted, Dev.tueCount, Dev.tblJournalAdd, OfNat.zero_ne_ofNat, zero_ne_one, if_false, List.length_append,
    List.length_singleton]
  rw [List.drop_append_of_le_length (by omega)]
  exact List.mem_append_right _ (List.mem_singleton_self _)

/-- A command that applies the record at the front of the queue. -/
theorem runs_of_applied {c : Instr} {s : State} {r : TueRec} {rest : List TueRec} {e : Dev} {g : Dev → Dev} {P : Dev → Prop}
    (hs : Alive s) (he : exec c s = s.run g) (hg : g s.dev = (tueNoted e r 0).tueReturn r 0)
    (ha : (setTueQ s.dev rest).tueApply r = (0, e)) (hp : ∀ b : Dev, b.cls = e.cls → b.fwd = e.fwd → b.hbm = e.hbm → P b) :
    Runs c s fun b => TueDone s.dev b r rest ∧ P b := by
  obtain ⟨hd, hc, hf, hh⟩ := tueReturn_applied ha
  refine runs_of_run hs he ?_
  rw [hg]
  exact ⟨hd, hp _ hc hf hh⟩

/-- A command that applies a record of firmware in vain: the record left the queue, and a register counts it. -/
theorem runs_of_refused {c : Instr} {s : State} {r : TueRec} {rest : List TueRec} {o off : Nat} {g : Dev → Dev}
    (hs : Alive s) (he : exec c s = s.run g) (hg : g s.dev = (tueNoted (setTueQ s.dev rest) r o).tueReturn r o)
    (hf : r.poster = .firmware) (ho : (setTueQ s.dev rest).tueCount o = (setTueQ s.dev rest).count off) :
    Runs c s fun b => b.glb.tueQ = rest ∧ b.reg off = counterAdd (s.dev.reg off) 1 ∧ OnlyRegs [off] s.dev b ∧ b.cls = s.dev.cls ∧
      OnlyBytes 0 0 s.dev b := by
  refine runs_of_run hs he ?_
  have hb : g s.dev = ((setTueQ s.dev rest).count off).tblJournalAdd r o := by rw [hg, tueNoted, ho]; simp [Dev.tueReturn, hf]
  have hcount := rel_Dev_count (setTueQ s.dev rest) off
  rw [hb]
  refine ⟨(hcount.same .tue (by decide)).1, reg_count_self (setTueQ s.dev rest) off, ?_, hcount.same .cls (by decide),
    onlyBytes_of_hbm_eq (hcount.same .hbm (by decide))⟩
  exact onlyRegs_count (List.mem_singleton_self _) (setTueQ s.dev rest)

/-! What each record does to the tables (R216, R217). -/

section
variable {d : Dev} {r : TueRec}

theorem tueApply_tcamInv (ho : r.op = 0x01) (ht : r.table = 0) (hi : r.index < 262144) :
    d.tueApply r = (0, d.tcamPut r.index { d.tcam r.index with v := false }) := by
  simp [Dev.tueApply, ho, ht, Nat.not_le.2 hi]

theorem tueApply_tcamInv_bad (ho : r.op = 0x01) (hi : 262144 ≤ r.index) : d.tueApply r = (2, d) := by
  simp [Dev.tueApply, ho, hi]

/-- The indirection table that a descriptor's payload gives. -/
def indOf (b : List Byte) : IndTab := ⟨leAt b 0 1, leAt b 1 1, leAt b 6 2, leAt b 4 2⟩

/-- The entry that TCAM_WRITE leaves where x stood; `lead`: it is the lead of its group. -/
def tcamWritten (x : TcamEntry) (r : TueRec) (lead : Bool) : TcamEntry :=
  let x := { x with data := leAt r.payload 0 20, care := leAt r.payload 20 20 }
  if lead then { x with prio := leAt r.payload 40 1, result := BitVec.ofNat 64 (leAt r.payload 48 8) } else x

theorem tcamWritten_fields (x : TcamEntry) (r : TueRec) (lead : Bool) :
    (tcamWritten x r lead).data = leAt r.payload 0 20 ∧ (tcamWritten x r lead).care = leAt r.payload 20 20 ∧
      (tcamWritten x r lead).v = x.v := by
  cases lead <;> exact ⟨rfl, rfl, rfl⟩

theorem tueApply_tcamWrite (ho : r.op = 0x02) (ht : r.table = 0) (hi : r.index < 262144)
    (hv : (d.tcam (d.leadBank (r.index / 4096) * 4096 + r.index % 4096)).v = false) :
    d.tueApply r = (0, d.tcamPut r.index (tcamWritten (d.tcam r.index) r
      (decide (d.leadBank (r.index / 4096) * 4096 + r.index % 4096 = r.index)))) := by
  simp [Dev.tueApply, ho, ht, Nat.not_le.2 hi, hv, tcamWritten]

theorem tueApply_tcamVal (ho : r.op = 0x03) (ht : r.table = 0) (hl : d.isLead r.index = true) :
    d.tueApply r = (0, d.tcamPut r.index { d.tcam r.index with v := true }) := by
  simp [Dev.tueApply, ho, ht, hl]

theorem tueApply_lineWrite (ho : r.op = 0x10) (hl : d.lineIn r.table r.index = true) :
    d.tueApply r = (0, d.lineWrite r.table r.index r.payload) := by
  simp [Dev.tueApply, ho, hl]

theorem tueApply_lineCas_hit (ho : r.op = 0x11) (hl : d.lineIn r.table r.index = true) (hc : r.count < 8)
    (hm : d.lineDword r.index r.count &&& r.cmask = r.cmp) : d.tueApply r = (0, d.lineWrite r.table r.index r.payload) := by
  simp [Dev.tueApply, ho, hl, Nat.not_le.2 hc, hm]

theorem tueApply_lineCas_miss (ho : r.op = 0x11) (hl : d.lineIn r.table r.index = true) (hc : r.count < 8)
    (hm : d.lineDword r.index r.count &&& r.cmask ≠ r.cmp) : d.tueApply r = (1, d) := by
  simp [Dev.tueApply, ho, hl, Nat.not_le.2 hc, hm]

theorem tueApply_indWrite (ho : r.op = 0x20) (ht : r.table = 5) (h1 : 1 ≤ r.count) (h32 : r.count ≤ 32)
    (hi : r.index + r.count ≤ 1048576) :
    d.tueApply r = (0, { d with cls := { d.cls with pool := (List.range r.count).foldl (fun m i =>
      kvSet 0 (r.index + i) (leAt r.payload (2 * i) 2) m) d.cls.pool } }) := by
  simp [Dev.tueApply, ho, ht, Nat.ne_of_gt h1, Nat.not_lt.2 h32, Nat.not_lt.2 hi]

theorem tueApply_tblDesc (ho : r.op = 0x30) (ht : r.table = 1 ∨ r.table = 2 ∨ r.table = 3 ∨ r.table = 4 ∨ r.table = 6) :
    d.tueApply r = (0, d.setDesc r.table (TblDesc.ofBytes r.payload)) := by
  have h5 : r.table ≠ 5 := by omega
  simp [Dev.tueApply, ho, h5, ht]

theorem tueApply_indDesc (ho : r.op = 0x30) (ht : r.table = 5) (hi : r.index < 4096) (hen : leAt r.payload 2 2 % 2 = 1) :
    d.tueApply r = (0, { d with cls := { d.cls with inds := kvPut r.index (indOf r.payload) d.cls.inds } }) := by
  simp [Dev.tueApply, indOf, ho, ht, Nat.not_le.2 hi, hen]

theorem tueApply_fence (ho : r.op = 0x3F) : d.tueApply r = (0, d) := by simp [Dev.tueApply, ho]

end

theorem tcam_of_tcamPut {a b : Dev} {q : List TueRec} {i : Nat} {x : TcamEntry} (h : b.cls = ((setTueQ a q).tcamPut i x).cls) :
    b.tcam i = x ∧ ∀ j, j ≠ i → b.tcam j = a.tcam j := by
  simp only [Dev.tcam, h, Dev.tcamPut, setTueQ]
  exact ⟨kvGet_kvSet_self .., fun j hj => kvGet_kvSet_ne hj ..⟩

theorem desc_of_setDesc {a b : Dev} {q : List TueRec} {t : Nat} {x : TblDesc} (h : b.fwd = ((setTueQ a q).setDesc t x).fwd) :
    b.desc t = x ∧ ∀ j, j ≠ t → b.desc j = a.desc j := by
  simp only [Dev.desc, h, Dev.setDesc, setTueQ]
  exact ⟨kvGet_kvSet_self .., fun j hj => kvGet_kvSet_ne hj ..⟩

/-- A line written as a whole (R218). -/
theorem bytes_of_lineWrite {a b : Dev} {t x : Nat} {l : List Byte} (ht : t ≠ 4) (h : b.hbm = (a.lineWrite t x l).hbm) :
    (∀ i, i < 64 → b.hbm.byte (x + i) = (fitTo 64 l).getD i 0#8) ∧ OnlyBytes x 64 a b := by
  have hb : b.hbm = a.hbm.write x (fitTo 64 l) := by rw [h, Dev.lineWrite, if_neg ht]; rfl
  constructor
  · intro i hi
    rw [hb, byte_write_inside _ _ (by rwa [fitTo_length])]
  · intro y hy
    rw [hb, hbm_write_other _ _ _ _ (by rwa [fitTo_length])]

theorem slice_getD {l : List Byte} {off n i : Nat} (hi : i < n) (hl : off + n ≤ l.length) :
    (slice l off n).getD i 0#8 = l.getD (off + i) 0#8 := by
  have h : n - ((l.drop off).take n).length = 0 := by simp only [List.length_take, List.length_drop]; omega
  have hs : slice l off n = (l.drop off).take n := by rw [slice, h, List.replicate_zero, List.append_nil]
  rw [hs, List.getD_eq_getElem?_getD, List.getElem?_take_of_lt hi, List.getElem?_drop, List.getD_eq_getElem?_getD]

/-- In table 4 a line's entries keep all but their bytes 16 to 31 (R216). -/
theorem bytes_of_lineWrite_counters {a b : Dev} {x : Nat} {l : List Byte} (h : b.hbm = (a.lineWrite 4 x l).hbm) :
    (∀ i, i < 16 → b.hbm.byte (x + 16 + i) = (fitTo 64 l).getD (16 + i) 0#8 ∧
      b.hbm.byte (x + 48 + i) = (fitTo 64 l).getD (48 + i) 0#8) ∧
    (∀ y, (y < x + 16 ∨ x + 32 ≤ y) → (y < x + 48 ∨ x + 64 ≤ y) → b.hbm.byte y = a.hbm.byte y) := by
  have hb : b.hbm = (a.hbm.write (x + 16) (slice (fitTo 64 l) 16 16)).write (x + 48) (slice (fitTo 64 l) 48 16) := h
  constructor
  · intro i hi
    constructor
    · rw [hb, hbm_write_other _ _ _ _ (.inl (by omega)), byte_write_inside _ _ (by rwa [slice_length]),
        slice_getD hi (by rw [fitTo_length]; decide)]
    · rw [hb, byte_write_inside _ _ (by rwa [slice_length]), slice_getD hi (by rw [fitTo_length])]
  · intro y h16 h48
    rw [hb, hbm_write_other _ _ _ _ (by rw [slice_length]; omega), hbm_write_other _ _ _ _ (by rw [slice_length]; omega)]

/-- Settles O9, record by record: what the engine applies is what its queue's front asks for. -/
theorem tableUpdates : Obligations.TableUpdates := by
  unfold Obligations.TableUpdates
  intro s r rest hs hq
  refine ⟨?tcamInv, ?tcamWrite, ?tcamVal, ?lineWrite, ?lineWriteCounters, ?casHit, ?casMiss, ?indWrite, ?tblDesc, ?indDesc, ?fence,
    ?bad⟩
  case tcamInv =>
    intro ho ht hi
    have ha := tueApply_tcamInv (d := setTueQ s.dev rest) ho ht hi
    refine runs_of_applied hs (g := (·.tueStep 0x01)) rfl (ho ▸ tueStep_front hq ha) ha fun b hc _ hh => ?_
    obtain ⟨hself, hother⟩ := tcam_of_tcamPut hc
    exact ⟨congrArg TcamEntry.v hself, hother, onlyBytes_of_hbm_eq hh⟩
  case tcamWrite =>
    intro ho ht hi hv
    have ha := tueApply_tcamWrite (d := setTueQ s.dev rest) ho ht hi hv
    refine runs_of_applied hs (g := (·.tueStep 0x02)) rfl (ho ▸ tueStep_front hq ha) ha fun b hc _ hh => ?_
    obtain ⟨hself, hother⟩ := tcam_of_tcamPut hc
    rw [hself]
    obtain ⟨hdata, hcare, hvalid⟩ := tcamWritten_fields (s.dev.tcam r.index) r
      (decide (s.dev.leadBank (r.index / 4096) * 4096 + r.index % 4096 = r.index))
    refine ⟨hdata, hcare, hvalid, fun hlead => ?_, hother, onlyBytes_of_hbm_eq hh⟩
    rw [decide_eq_true (show (setTueQ s.dev rest).leadBank (r.index / 4096) * 4096 + r.index % 4096 = r.index from hlead)]
    exact ⟨rfl, rfl⟩
  case tcamVal =>
    intro ho ht hl
    have ha := tueApply_tcamVal (d := setTueQ s.dev rest) ho ht hl
    refine runs_of_applied hs (g := (·.tueStep 0x03)) rfl (ho ▸ tueStep_front hq ha) ha fun b hc _ hh => ?_
    obtain ⟨hself, hother⟩ := tcam_of_tcamPut hc
    exact ⟨congrArg TcamEntry.v hself, hother, onlyBytes_of_hbm_eq hh⟩
  case lineWrite =>
    intro ho hl ht
    have ha := tueApply_lineWrite (d := setTueQ s.dev rest) ho hl
    refine runs_of_applied hs (g := (·.tueStep 0x10)) rfl (ho ▸ tueStep_front hq ha) ha fun b hc _ hh => ?_
    obtain ⟨hin, hout⟩ := bytes_of_lineWrite ht hh
    exact ⟨hin, hout, hc.trans ((rel_Dev_lineWrite ..).same .cls (by decide))⟩
  case lineWriteCounters =>
    intro ho hl ht
    have ha := tueApply_lineWrite (d := setTueQ s.dev rest) ho hl
    refine runs_of_applied hs (g := (·.tueStep 0x10)) rfl (ho ▸ tueStep_front hq ha) ha fun b _ _ hh => ?_
    rw [ht] at hh
    exact bytes_of_lineWrite_counters hh
  case casHit =>
    intro ho hl ht hc hm
    have ha := tueApply_lineCas_hit (d := setTueQ s.dev rest) ho hl hc hm
    refine runs_of_applied hs (g := (·.lineCas)) rfl (lineCas_front hq ho ha (.inl rfl)) ha fun b _ _ hh => ?_
    obtain ⟨hin, hout⟩ := bytes_of_lineWrite ht hh
    exact ⟨hin, hout⟩
  case casMiss =>
    intro ho hl hc hf hm
    have ha := tueApply_lineCas_miss (d := setTueQ s.dev rest) ho hl hc hm
    obtain ⟨t, he, hp, hQ, hr, hk, -, hb⟩ := runs_of_refused (c := .lineCas) hs (g := (·.lineCas)) rfl
      (lineCas_front hq ho ha (.inr hf)) hf rfl
    exact ⟨t, he, hp, hQ, hr, hk, hb⟩
  case indWrite =>
    intro ho ht h1 h32 hi
    have ha := tueApply_indWrite (d := setTueQ s.dev rest) ho ht h1 h32 hi
    refine runs_of_applied hs (g := (·.tueStep 0x20)) rfl (ho ▸ tueStep_front hq ha) ha fun b hc _ hh => ?_
    obtain ⟨hin, hout⟩ := kvGet_foldl_range 0 r.index (fun i => leAt r.payload (2 * i) 2) s.dev.cls.pool r.count
    rw [hc]
    exact ⟨hin, hout, onlyBytes_of_hbm_eq hh⟩
  case tblDesc =>
    intro ho ht
    have ha := tueApply_tblDesc (d := setTueQ s.dev rest) ho ht
    refine runs_of_applied hs (g := (·.tueStep 0x30)) rfl (ho ▸ tueStep_front hq ha) ha fun b _ hf hh => ?_
    obtain ⟨hself, hother⟩ := desc_of_setDesc hf
    exact ⟨hself, hother, onlyBytes_of_hbm_eq hh⟩
  case indDesc =>
    intro ho ht hi hen
    have ha := tueApply_indDesc (d := setTueQ s.dev rest) ho ht hi hen
    refine runs_of_applied hs (g := (·.tueStep 0x30)) rfl (ho ▸ tueStep_front hq ha) ha fun b hc _ _ => ?_
    rw [hc]
    exact kvFind_kvPut_self ..
  case fence =>
    intro ho
    have ha := tueApply_fence (d := setTueQ s.dev rest) ho
    exact runs_of_applied hs (g := (·.tueStep 0x3F)) rfl (ho ▸ tueStep_front hq ha) ha fun b hc hf hh =>
      ⟨hc, hf, onlyBytes_of_hbm_eq hh⟩
  case bad =>
    intro ho hi hf
    have ha := tueApply_tcamInv_bad (d := setTueQ s.dev rest) ho hi
    exact runs_of_refused hs (g := (·.tueStep 0x01)) rfl (ho ▸ tueStep_front hq ha) hf rfl

end Sys2Proof.Proofs

/-! The Casement windows (R28, R30, R31, R60 to R63). -/

namespace Sys2Proof.Proofs

open Sys2Proof Sys2Proof.Machine Sys2Proof.Laws

theorem exec_casementWrite (p rid o : Nat) (data : List Byte) (s : State) :
    exec (.casementWrite p rid o data) s = s.run (·.casWrite p rid o data) := rfl

theorem exec_casementRead (p rid o n : Nat) (ecc : Ecc) (s : State) :
    exec (.casementRead p rid o n ecc) s = s.run (·.casRead p rid o n ecc) := rfl

theorem exec_casementAtomic (p : Nat) (s : State) : exec (.casementAtomic p) s = s.run (·.casAtomic p) := rfl

theorem exec_hifWinCommit (pf p : Nat) (v : Word) (s : State) : exec (.hifWinCommit pf p v) s = s.run (·.winCommit pf p v) := rfl

theorem exec_winSetApply (p : Nat) (s : State) : exec (.winSetApply p) s = s.run (·.winApply p) := rfl

theorem exec_winRetired (p : Nat) (s : State) : exec (.winRetired p) s = s.run (·.winRetired p) := rfl

/-! Registers and HBM. -/

theorem reg_of_regs_eq {a b : Dev} (h : b.regs = a.regs) (o : Nat) : b.reg o = a.reg o := by simp only [Dev.reg, h]

theorem regBit_of_regs_eq {a b : Dev} (h : b.regs = a.regs) (o i : Nat) : b.regBit o i = a.regBit o i :=
  congrArg (bitOf · i) (reg_of_regs_eq h o)

theorem regBit_clrBit_self {i : Nat} (hi : i < 32) (d : Dev) (off : Nat) : (d.clrBit off i).regBit off i = false := by
  simp only [Dev.regBit, Dev.clrBit, Dev.clrBits, bitOf, reg_setReg_self, BitVec.getLsbD_and, BitVec.getLsbD_not, BitVec.getLsbD_ofNat,
    hi, decide_true, Nat.testBit_two_pow_self, Bool.and_self, Bool.not_true, Bool.and_false]

theorem onlyRegs_clrBit {l : List Nat} {off : Nat} (h : off ∈ l) (d : Dev) (i : Nat) : OnlyRegs l d (d.clrBit off i) :=
  onlyRegs_setReg h d _

/-- A write of registers alone leaves the host interface; the table stands for any, so that nothing compares it. -/
theorem hif_withRegs (d : Dev) (r : Kv Word) : { d with regs := r }.hif = d.hif := rfl

theorem hif_clrBit (d : Dev) (off i : Nat) : (d.clrBit off i).hif = d.hif := hif_withRegs d _

theorem hif_setBit (d : Dev) (off i : Nat) : (d.setBit off i).hif = d.hif := hif_withRegs d _

theorem cells_applyEcc (d : Dev) (e : Ecc) : (d.applyEcc e).hbm.cells = d.hbm.cells := by
  have hn : ∀ (d : Dev) (off k : Nat), (d.countN off k).hbm = d.hbm := fun d off k => (rel_Dev_countN d off k).same .hbm (by decide)
  have hb : ∀ (d : Dev) (off i : Nat), (d.setBit off i).hbm = d.hbm := fun d off i => (rel_Dev_setBit d off i).same .hbm (by decide)
  unfold Dev.applyEcc
  dsimp only
  split <;> simp only [hb, hn]

theorem byte_applyEcc (d : Dev) (e : Ecc) (y : Nat) : (d.applyEcc e).hbm.byte y = d.hbm.byte y := by
  simp only [Hbm.byte, cells_applyEcc]

/-! A TLP that matches no window (R63). -/

theorem countLatch_eq_winMiss (d : Dev) (p rid o cnt : Nat) (write : Bool) :
    countLatch d cnt (Reg.HIF_WIN_MISS_LOG_LO p) (Reg.HIF_WIN_MISS_LOG_HI p) (Reg.HIF_STAT p) 3 (BitVec.ofNat 32 o)
      (packW [(rid % 65536, 16), (b2n write, 4), (o / 2 ^ 32 % 16, 0)]) = (d.count cnt).winMiss p rid o write := rfl

theorem regs_winMiss_congr {a b : Dev} (h : b.regs = a.regs) (p rid o : Nat) (write : Bool) :
    (b.winMiss p rid o write).regs = (a.winMiss p rid o write).regs := by
  have hset : ∀ {a b : Dev}, b.regs = a.regs → ∀ off v, (b.setReg off v).regs = (a.setReg off v).regs := fun h off v => by
    simp only [Dev.setReg, h]
  have hbit : ∀ {a b : Dev}, b.regs = a.regs → ∀ off i, (b.setBit off i).regs = (a.setBit off i).regs := fun h off i => by
    simp only [Dev.setBit, Dev.setBits, Dev.setReg, reg_of_regs_eq h, h]
  unfold Dev.winMiss
  rw [regBit_of_regs_eq h]
  split
  · exact h
  · exact hbit (hset (hset h ..) ..) ..

/-- A miss is counted, and while the log is armed it is latched: whatever stands between the two and touches no register. -/
theorem winMiss_spec {d e : Dev} {p rid o cnt : Nat} {write : Bool} (he : e.regs = (d.count cnt).regs)
    (hd : [cnt, Reg.HIF_WIN_MISS_LOG_LO p, Reg.HIF_WIN_MISS_LOG_HI p, Reg.HIF_STAT p].Nodup) :
    (e.winMiss p rid o write).reg cnt = counterAdd (d.reg cnt) 1 ∧ (e.winMiss p rid o write).regBit (Reg.HIF_STAT p) 3 = true ∧
    (d.regBit (Reg.HIF_STAT p) 3 = false →
      (e.winMiss p rid o write).reg (Reg.HIF_WIN_MISS_LOG_LO p) = BitVec.ofNat 32 o ∧
      (e.winMiss p rid o write).reg (Reg.HIF_WIN_MISS_LOG_HI p) =
        packW [(rid % 65536, 16), (b2n write, 4), (o / 2 ^ 32 % 16, 0)]) ∧
    OnlyRegs [cnt, Reg.HIF_WIN_MISS_LOG_LO p, Reg.HIF_WIN_MISS_LOG_HI p, Reg.HIF_STAT p] d (e.winMiss p rid o write) := by
  have hr := regs_winMiss_congr he p rid o write
  simp only [OnlyRegs, reg_of_regs_eq hr, regBit_of_regs_eq hr, ← countLatch_eq_winMiss]
  exact countLatch_spec d _ _ (by decide) hd

/-! Errors of a function (R65). -/

theorem fnGet_aerUnc_unc (d : Dev) (f : Fn) (bit : Nat) (header : Bool) :
    ((d.aerUnc f bit header).fnGet f).aer.unc = (d.fnGet f).aer.unc ||| BitVec.ofNat 32 (2 ^ bit) := by
  unfold Dev.aerUnc
  dsimp only
  rw [fnGet_fnPut_self]
  split
  · rfl
  · split <;> rfl

/-! What a TLP to BAR4 does (R61, R63). -/

theorem casWrite_hit {d : Dev} {p rid o x : Nat} {data : List Byte} (hb : d.bar4On p = true)
    (hx : d.casement p rid o data.length true = some x) (hr : x + data.length ≤ hbmReserved) :
    d.casWrite p rid o data = d.hbmWrite x data := by
  simp [Dev.casWrite, hb, hx, Nat.not_lt.2 hr]

theorem casWrite_miss {d : Dev} {p rid o : Nat} {data : List Byte} (hb : d.bar4On p = true)
    (hx : d.casement p rid o data.length true = none) :
    d.casWrite p rid o data = ((d.count (Reg.HIF_WIN_MISS_WR p)).aerAdvisory (fn0 p) 20).winMiss p rid o true := by
  simp [Dev.casWrite, hb, hx]

/-- The bytes a read returns: those of a poisoned line are free. -/
def casBytes (d : Dev) (x n k : Nat) : List Byte :=
  (List.range n).map fun i => if d.hbm.poisoned (x + i) 1 then Config.freeByte k i else d.hbm.byte (x + i)

theorem casRead_hit {d : Dev} {p rid o n x : Nat} (hb : d.bar4On p = true) (hx : d.casement p rid o n false = some x) (ecc : Ecc) :
    d.casRead p rid o n ecc =
      (d.applyEcc ecc).draw.2.emit (.readDone p (casBytes (d.applyEcc ecc) x n (d.applyEcc ecc).serial)) := by
  simp only [Dev.casRead, hb, hx, Bool.not_true, Bool.false_eq_true, if_false]
  rfl

theorem casRead_miss {d : Dev} {p rid o n : Nat} (hb : d.bar4On p = true) (hx : d.casement p rid o n false = none) (ecc : Ecc) :
    d.casRead p rid o n ecc =
      (((d.count (Reg.HIF_WIN_MISS_RD p)).aerUnc (fn0 p) 20 true).winMiss p rid o false).emit (.unsupportedReq p) := by
  simp [Dev.casRead, hb, hx]

/-! Window sets (R62, R63). -/

theorem winCommit_row {p : Nat} (hp : p < 2) :
    isReg (0x100100 + p * 0x10000) = true ∧ accessRow (0x100100 + p * 0x10000) = some (.any, .port) := by
  have h0 : isReg 0x100100 = true ∧ accessRow 0x100100 = some (.any, .port) := by decide
  have h1 : isReg 0x110100 = true ∧ accessRow 0x110100 = some (.any, .port) := by decide
  obtain rfl | rfl : p = 0 ∨ p = 1 := by omega
  · exact h0
  · exact h1

/-- A privileged PF may write a register of its own host port (R550). -/
theorem allowed_port {d : Dev} {pf off : Nat} {rd : Who} (ho : accessRow off = some (rd, .port)) (hpriv : d.privNow pf = true)
    (hblock : (off - 0x100000) / 0x10000 = pf / 8) : d.allowed pf off true = true := by
  simp [Dev.allowed, Dev.passes, ho, hpriv, hblock]

theorem winCommit_eq {d : Dev} {pf p : Nat} {v : Word} (hp : p < 2) (hpf : pf / 8 = p) (hpriv : d.privNow pf = true)
    (hv : bitOf v 0 = true) :
    d.winCommit pf p v =
      if d.regBit (Reg.HIF_WIN_STAT p) 0 = false then d.setBit (Reg.HIF_WIN_STAT p) 2
      else if winSetOk ((List.range 64).map (d.shadowWin p)) (d.fnGet (fn0 p)).bar4Log2 = false then d.setBit (Reg.HIF_WIN_STAT p) 1
      else d.setHifPort p { d.hifPort p with winsNext := some ((List.range 64).map (d.shadowWin p)) } := by
  have hreg := winCommit_row hp
  have hblock : (0x100100 + p * 0x10000 - 0x100000) / 0x10000 = pf / 8 := by omega
  unfold Dev.winCommit
  rw [bar0Write_act hreg.1 (allowed_port hreg.2 hpriv hblock) (gatedAt_low (by omega) d)]
  simp [hv]

theorem hifPort_setHifPort_self {d : Dev} {p : Nat} (hp : p < d.hif.ports.length) (x : HifPort) : (d.setHifPort p x).hifPort p = x := by
  simp [Dev.hifPort, Dev.setHifPort, hp]

theorem lt_ports_of_winsNext {d : Dev} {p : Nat} {ws : List CasWin} (h : (d.hifPort p).winsNext = some ws) : p < d.hif.ports.length := by
  by_contra hp
  rw [Dev.hifPort, List.getD_eq_default _ _ (Nat.not_lt.1 hp)] at h
  cases h

theorem winApply_eq {d : Dev} {p : Nat} {ws : List CasWin} (h : (d.hifPort p).winsNext = some ws) :
    d.winApply p = (d.setHifPort p { d.hifPort p with wins := ws, winsNext := none }).clrBit (Reg.HIF_WIN_STAT p) 0 := by
  simp [Dev.winApply, h]

/-- Settles O11, clause by clause: what each TLP to BAR4 or each step of a window set comes down to. -/
theorem casement : Obligations.Casement := by
  unfold Obligations.Casement
  refine ⟨?writeHit, ?writeMiss, ?readHit, ?readMiss, ?atomic, ?commit, ?apply, ?retired⟩
  case writeHit =>
    intro s p rid o x data hs hb hx hr
    refine runs_of_run hs (exec_casementWrite ..) ?_
    rw [casWrite_hit hb hx hr]
    exact ⟨fun i hi => byte_write_inside _ _ hi, fun y hy => hbm_write_other _ _ _ _ hy, onlyRegs_of_regs_eq rfl, rfl⟩
  case writeMiss =>
    intro s p rid o data hs hb hx
    have haer := rel_Dev_aerAdvisory (s.dev.count (Reg.HIF_WIN_MISS_WR p)) (fn0 p) 20
    have hmiss := Rel.trans (Rel.mono (n := 257) (rel_Dev_count s.dev (Reg.HIF_WIN_MISS_WR p)) (by decide))
      (Rel.trans (Rel.mono haer (by decide)) (Rel.mono (rel_Dev_winMiss _ p rid o true) (by decide)))
    obtain ⟨hc, hbit, hlog, hk⟩ := winMiss_spec (p := p) (rid := rid) (o := o) (write := true) (haer.same .regs (by decide))
      (by simp [Reg.HIF_WIN_MISS_WR, Reg.HIF_WIN_MISS_LOG_LO, Reg.HIF_WIN_MISS_LOG_HI, Reg.HIF_STAT])
    refine runs_of_run hs (exec_casementWrite ..) ?_
    rw [casWrite_miss hb hx]
    exact ⟨hc, hbit, hlog, onlyBytes_of_hbm_eq (hmiss.same .hbm (by decide)), hk⟩
  case readHit =>
    intro s p rid o n x ecc hs hb hx
    have hout : (s.dev.applyEcc ecc).out = s.dev.out := (rel_Dev_applyEcc s.dev ecc).same .out (by decide)
    refine runs_of_run hs (exec_casementRead ..) ?_
    rw [casRead_hit hb hx]
    refine ⟨⟨casBytes (s.dev.applyEcc ecc) x n (s.dev.applyEcc ecc).serial, congrArg (· ++ _) hout, by simp [casBytes], ?_⟩,
      fun y _ => byte_applyEcc s.dev ecc y⟩
    intro i hi hpoison
    rw [casBytes, getD_map_range hi, ← byte_applyEcc s.dev ecc]
    exact if_neg (Bool.eq_false_iff.1 hpoison)
  case readMiss =>
    intro s p rid o n ecc hs hb hx
    have haer := rel_Dev_aerUnc (s.dev.count (Reg.HIF_WIN_MISS_RD p)) (fn0 p) 20 true
    have hmiss := Rel.trans (Rel.mono (n := 257) (rel_Dev_count s.dev (Reg.HIF_WIN_MISS_RD p)) (by decide))
      (Rel.trans (Rel.mono haer (by decide)) (Rel.mono (rel_Dev_winMiss _ p rid o false) (by decide)))
    have hemit := rel_Dev_emit (((s.dev.count (Reg.HIF_WIN_MISS_RD p)).aerUnc (fn0 p) 20 true).winMiss p rid o false) (.unsupportedReq p)
    obtain ⟨hc, -⟩ := winMiss_spec (p := p) (rid := rid) (o := o) (write := false) (haer.same .regs (by decide))
      (by simp [Reg.HIF_WIN_MISS_RD, Reg.HIF_WIN_MISS_LOG_LO, Reg.HIF_WIN_MISS_LOG_HI, Reg.HIF_STAT])
    refine runs_of_run hs (exec_casementRead ..) ?_
    rw [casRead_miss hb hx]
    exact ⟨congrArg (· ++ _) (hmiss.same .out (by decide)), (reg_of_regs_eq (hemit.same .regs (by decide)) _).trans hc,
      onlyBytes_of_hbm_eq (same_trans (p := .hbm) (hmiss.same .hbm (by decide)) (hemit.same .hbm (by decide)))⟩
  case atomic =>
    intro s p hs
    have haer := rel_Dev_aerUnc s.dev (fn0 p) 20 true
    refine runs_of_run hs (exec_casementAtomic ..) ?_
    exact ⟨congrArg (· ++ _) (haer.same .out (by decide)), onlyBytes_of_hbm_eq (haer.same .hbm (by decide)),
      onlyRegs_of_regs_eq (haer.same .regs (by decide)), fnGet_aerUnc_unc s.dev (fn0 p) 20 true⟩
  case commit =>
    intro s pf p v hs hp hpf hpriv hv
    have heq := winCommit_eq hp hpf hpriv hv
    refine ⟨fun hst hok => ?_, fun hst hok => ?_, fun hst => ?_⟩
    · rw [if_neg (by simp [hst]), if_neg (by simpa [fn0] using hok)] at heq
      exact runs_of_run_eq hs (exec_hifWinCommit ..) heq ⟨rfl, onlyRegs_of_regs_eq rfl⟩
    · rw [if_neg (by simp [hst]), if_pos (show winSetOk _ (s.dev.fnGet (fn0 p)).bar4Log2 = false from hok)] at heq
      exact runs_of_run_eq hs (exec_hifWinCommit ..) heq
        ⟨hif_setBit .., regBit_setBit_self (by decide) _ _, onlyRegs_setBit (by simp) _ _⟩
    · rw [if_pos hst] at heq
      exact runs_of_run_eq hs (exec_hifWinCommit ..) heq
        ⟨hif_setBit .., regBit_setBit_self (by decide) _ _, onlyRegs_setBit (by simp) _ _⟩
  case apply =>
    intro s p ws hs hw
    have hself := hifPort_setHifPort_self (lt_ports_of_winsNext hw) { s.dev.hifPort p with wins := ws, winsNext := none }
    have hport (e : Dev) : (e.clrBit (Reg.HIF_WIN_STAT p) 0).hifPort p = e.hifPort p := by simp only [Dev.hifPort, hif_clrBit]
    refine runs_of_run hs (exec_winSetApply ..) ?_
    rw [winApply_eq hw]
    rw [hport, hself]
    exact ⟨rfl, rfl, regBit_clrBit_self (by decide) _ _,
      onlyRegs_trans (onlyRegs_of_regs_eq rfl) (onlyRegs_clrBit (by simp) _ _)⟩
  case retired =>
    intro s p hs hw
    refine runs_of_run hs (exec_winRetired ..) ?_
    simp only [Dev.winRetired, hw, Option.isSome_none, Bool.false_eq_true, if_false]
    exact ⟨regBit_setBit_self (by decide) _ _, hif_setBit .., onlyRegs_setBit (by simp) _ _⟩

end Sys2Proof.Proofs

/-! Packets, port queues and receive jobs: what the operations on frames leave of them (R21, R110, R121, R177). -/

namespace Sys2Proof.Proofs

open Sys2Proof Sys2Proof.Machine Sys2Proof.Laws

/-! What left the device. -/

theorem outGrows_foldl {α : Type} {g : Dev → α → Dev} (hg : ∀ d x, OutGrows d (g d x)) (l : List α) (d : Dev) :
    OutGrows d (l.foldl g d) := by
  induction l generalizing d with
  | nil => exact outGrows_of_eq rfl
  | cons x r ih => exact outGrows_trans (hg d x) (ih (g d x))

theorem outGrows_of_rel {m : Nat} {a b : Dev} (h : Rel m a b) (hm : m.testBit (bit .out) = false := by decide) : OutGrows a b :=
  outGrows_of_eq (h.same .out hm)

theorem outGrows_dirtyWrite (d : Dev) (t addr bits : Nat) : OutGrows d (d.dirtyWrite t addr bits) := by
  unfold Dev.dirtyWrite
  dsimp only
  split
  · exact outGrows_of_eq rfl
  · exact outGrows_emit ..

theorem outGrows_logWrite (d : Dev) (t addr len : Nat) : OutGrows d (d.logWrite t addr len) := by
  unfold Dev.logWrite
  split
  · exact outGrows_of_eq rfl
  · exact outGrows_foldl (fun d _ => outGrows_dirtyWrite d ..) _ (d.tenPut ..)

theorem outGrows_pauseSend (d : Dev) (p quanta : Nat) : OutGrows d (d.pauseSend p quanta) := by
  have hsent : OutGrows d (((d.emit (.frame p (d.pauseFrame p quanta) false)).txCountOk p (d.pauseFrame p quanta) 64).pcount p 57 1) :=
    outGrows_trans (outGrows_trans (outGrows_emit ..) (outGrows_of_rel (rel_Dev_txCountOk ..))) (outGrows_of_rel (rel_Dev_pcount ..))
  unfold Dev.pauseSend
  dsimp only
  split
  · exact outGrows_trans hsent (outGrows_foldl (fun d _ => outGrows_of_rel (rel_Dev_pcount d ..)) _ _)
  · exact outGrows_trans hsent (outGrows_of_rel (rel_Dev_pcount ..))

/-- A check of the pool's use changes nothing, or notes XOFF and sends a frame (R177). -/
theorem pauseCheck_cases (d : Dev) (p : Nat) :
    d.pauseCheck p = d ∨ ∃ x quanta, x.txq = (d.netPort p).txq ∧ d.pauseCheck p = (d.setNetPort p x).pauseSend p quanta := by
  unfold Dev.pauseCheck
  dsimp only
  split
  · exact .inl rfl
  · split <;> split
    · exact .inr ⟨{ d.netPort p with xoff := true }, 0xFFFF, rfl, rfl⟩
    · exact .inl rfl
    · exact .inr ⟨{ d.netPort p with xoff := false }, 0, rfl, rfl⟩
    · exact .inl rfl

theorem outGrows_pauseCheck (d : Dev) (p : Nat) : OutGrows d (d.pauseCheck p) := by
  obtain h | ⟨x, quanta, -, h⟩ := pauseCheck_cases d p <;> rw [h]
  · exact outGrows_of_eq rfl
  · exact outGrows_trans (outGrows_of_rel (rel_Dev_setNetPort ..)) (outGrows_pauseSend ..)

theorem outGrows_freePkt (d : Dev) (tok : Nat) : OutGrows d (d.freePkt tok) := by
  unfold Dev.freePkt
  split
  · exact outGrows_of_eq rfl
  · dsimp only
    split
    · exact outGrows_of_eq rfl
    · exact outGrows_trans (outGrows_of_rel (rel_Dev_setSquare ..)) (outGrows_pauseCheck ..)

theorem outGrows_dropPkt (d : Dev) (tok : Nat) : OutGrows d (d.dropPkt tok) := by
  unfold Dev.dropPkt
  split
  · exact outGrows_of_eq rfl
  · exact outGrows_trans (outGrows_freePkt d tok) (outGrows_of_rel (rel_Dev_frameGone ..))

/-! Packets. -/

theorem pkt_of_rel {m : Nat} {a b : Dev} (h : Rel m a b) (tok : Nat) (hm : m.testBit (bit .square) = false := by decide) :
    b.pkt tok = a.pkt tok := by
  have hq : b.glb.square = a.glb.square := h.same .square hm
  simp only [Dev.pkt, hq]

@[simp] theorem pkt_setPkt_self (d : Dev) (tok : Nat) (k : Packet) : (d.setPkt tok k).pkt tok = some k := kvFind_kvPut_self ..

theorem kvFind_map_none {α : Type} {k : Nat} {m : Kv α} {g : Nat × α → Nat × α} (hg : ∀ e, (g e).1 = e.1) (h : kvFind k m = none) :
    kvFind k (m.map g) = none := by
  induction m with
  | nil => rfl
  | cons e r ih =>
    obtain ⟨i, v⟩ := e
    have hi : (g (i, v)).1 = i := hg (i, v)
    unfold kvFind at h
    split at h
    · exact absurd h (by simp)
    · rename_i hne
      rw [List.map_cons]
      unfold kvFind
      simp only [hi, if_neg hne]
      exact ih h

theorem pkt_freePkt_self (d : Dev) (tok : Nat) : (d.freePkt tok).pkt tok = none := by
  unfold Dev.freePkt
  split
  · assumption
  · dsimp only
    split
    · refine kvFind_map_none (fun e => ?_) (kvFind_kvDel_self tok _)
      split
      · rfl
      · split <;> rfl
    · rw [pkt_of_rel (rel_Dev_pauseCheck ..)]
      exact kvFind_kvDel_self tok _

theorem pkt_dropPkt_self (d : Dev) (tok : Nat) : (d.dropPkt tok).pkt tok = none := by
  unfold Dev.dropPkt
  split
  · assumption
  · rw [pkt_of_rel (rel_Dev_frameGone ..)]
    exact pkt_freePkt_self d tok

/-- A stored packet is found under its token (R21). -/
theorem kvFind_of_store {q q' : Square} {pk : Packet} {tok : Nat} (h : q.store pk = some (tok, q')) :
    kvFind tok q'.pkts = some { pk with cells := cellsOf pk.data.length } := by
  unfold Square.store at h
  dsimp only at h
  split at h
  · obtain ⟨rfl, rfl⟩ := Prod.mk.inj (Option.some.inj h)
    exact kvFind_kvPut_self ..
  · cases h

/-- A packet that keeps its length is replaced in place. -/
theorem resizePkt_same {d : Dev} {tok : Nat} {k : Packet} {f : List Byte} (hk : d.pkt tok = some k) (hl : f.length = k.data.length) :
    ∃ b, d.resizePkt tok f = some b ∧ b.pkt tok = some { k with data := f } := by
  unfold Dev.resizePkt
  rw [hk]
  simp only [hl, Nat.le_refl, if_true, Nat.sub_self, Nat.min_zero, Nat.sub_zero]
  exact ⟨_, rfl, pkt_setPkt_self ..⟩

/-! Ports. -/

@[simp] theorem netPort_setNetPort_self (d : Dev) (p : Nat) (x : Port) : (d.setNetPort p x).netPort p = x := kvGet_kvSet_self ..

theorem netPort_setNetPort_ne {p q : Nat} (h : q ≠ p) (d : Dev) (x : Port) : (d.setNetPort p x).netPort q = d.netPort q :=
  kvGet_kvSet_ne h ..

theorem counter_pcount_self (d : Dev) (p i : Nat) :
    kvGet 0 ((d.pcount p i 1).netPort p).counters i = kvGet 0 (d.netPort p).counters i + 1 := by
  simp [Dev.pcount]

/-- Every port's transmit queue is as before. -/
structure KeepsTxq (a b : Dev) : Prop where
  txq : ∀ p, (b.netPort p).txq = (a.netPort p).txq

theorem KeepsTxq.refl (a : Dev) : KeepsTxq a a := ⟨fun _ => rfl⟩

theorem KeepsTxq.trans {a b c : Dev} (h : KeepsTxq a b) (k : KeepsTxq b c) : KeepsTxq a c :=
  ⟨fun p => (k.txq p).trans (h.txq p)⟩

theorem keepsTxq_of_rel {m : Nat} {a b : Dev} (h : Rel m a b) (hm : m.testBit (bit .port) = false := by decide) : KeepsTxq a b := by
  have hp : b.port = a.port := h.same .port hm
  exact ⟨fun p => by simp only [Dev.netPort, hp]⟩

theorem keepsTxq_setNetPort {d : Dev} {p : Nat} {x : Port} (h : x.txq = (d.netPort p).txq) : KeepsTxq d (d.setNetPort p x) := by
  refine ⟨fun q => ?_⟩
  by_cases hq : q = p
  · subst hq
    rw [netPort_setNetPort_self, h]
  · rw [netPort_setNetPort_ne hq]

theorem keepsTxq_pcount (d : Dev) (p i k : Nat) : KeepsTxq d (d.pcount p i k) := by
  unfold Dev.pcount
  split
  · exact .refl d
  · exact keepsTxq_setNetPort rfl

theorem keepsTxq_foldl {α : Type} {g : Dev → α → Dev} (hg : ∀ d x, KeepsTxq d (g d x)) (l : List α) (d : Dev) :
    KeepsTxq d (l.foldl g d) := by
  induction l generalizing d with
  | nil => exact .refl d
  | cons x r ih => exact (hg d x).trans (ih (g d x))

theorem keepsTxq_txCountOk (d : Dev) (p : Nat) (f : List Byte) (n : Nat) : KeepsTxq d (d.txCountOk p f n) :=
  ((((keepsTxq_pcount ..).trans (keepsTxq_pcount ..)).trans (keepsTxq_pcount ..)).trans (keepsTxq_pcount ..)).trans (keepsTxq_pcount ..)

theorem keepsTxq_pauseSend (d : Dev) (p quanta : Nat) : KeepsTxq d (d.pauseSend p quanta) := by
  have hsent : KeepsTxq d (((d.emit (.frame p (d.pauseFrame p quanta) false)).txCountOk p (d.pauseFrame p quanta) 64).pcount p 57 1) :=
    ((keepsTxq_of_rel (rel_Dev_emit ..)).trans (keepsTxq_txCountOk ..)).trans (keepsTxq_pcount ..)
  unfold Dev.pauseSend
  dsimp only
  split
  · exact hsent.trans (keepsTxq_foldl (fun d _ => keepsTxq_pcount d ..) _ _)
  · exact hsent.trans (keepsTxq_pcount ..)

theorem keepsTxq_pauseCheck (d : Dev) (p : Nat) : KeepsTxq d (d.pauseCheck p) := by
  obtain h | ⟨x, quanta, hx, h⟩ := pauseCheck_cases d p <;> rw [h]
  · exact .refl d
  · exact (keepsTxq_setNetPort hx).trans (keepsTxq_pauseSend ..)

theorem keepsTxq_freePkt (d : Dev) (tok : Nat) : KeepsTxq d (d.freePkt tok) := by
  unfold Dev.freePkt
  split
  · exact .refl d
  · dsimp only
    split
    · exact keepsTxq_of_rel (rel_Dev_setSquare ..)
    · exact (keepsTxq_of_rel (rel_Dev_setSquare ..)).trans (keepsTxq_pauseCheck ..)

/-! Jobs. -/

/-- A job is the one at its place of its ring. -/
theorem jobFind_some {d : Dev} {q pos : Nat} {j : Job} (h : d.jobFind q pos = some j) : j ∈ d.ring.jobs ∧ j.sq = q ∧ j.pos = pos :=
  ⟨List.mem_of_find?_eq_some h, by simpa using List.find?_some h⟩

theorem jobFind_of_rel {m : Nat} {a b : Dev} (h : Rel m a b) (q pos : Nat) (hm : m.testBit (bit .jobs) = false := by decide) :
    b.jobFind q pos = a.jobFind q pos := by
  have hj : b.ring.jobs = a.ring.jobs := h.same .jobs hm
  simp only [Dev.jobFind, hj]

theorem jobFind_jobPut_self (d : Dev) (j : Job) :
    (d.jobPut j).jobFind j.sq j.pos = (d.jobFind j.sq j.pos).map (fun _ => j) := by
  simp only [Dev.jobFind, Dev.jobPut]
  induction d.ring.jobs with
  | nil => rfl
  | cons x r ih =>
    by_cases hx : x.sq = j.sq ∧ x.pos = j.pos
    · simp [hx]
    · rw [List.map_cons, if_neg hx, List.find?_cons_of_neg (by simpa using hx), List.find?_cons_of_neg (by simpa using hx), ih]

theorem jobFind_jobPut_ne {q pos : Nat} {j : Job} (h : ¬(j.sq = q ∧ j.pos = pos)) (d : Dev) :
    (d.jobPut j).jobFind q pos = d.jobFind q pos := by
  simp only [Dev.jobFind, Dev.jobPut]
  induction d.ring.jobs with
  | nil => rfl
  | cons x r ih =>
    by_cases hx : x.sq = j.sq ∧ x.pos = j.pos
    · have hne : ¬(x.sq = q ∧ x.pos = pos) := by rwa [hx.1, hx.2]
      rw [List.map_cons, if_pos hx, List.find?_cons_of_neg (by simpa using h), List.find?_cons_of_neg (by simpa using hne), ih]
    · rw [List.map_cons, if_neg hx, List.find?_cons, List.find?_cons, ih]

/-- The job at a place of a ring stands, with this result so far. -/
def HasRes (d : Dev) (q pos : Nat) (r : Option JobRes) : Prop := ∃ j, d.jobFind q pos = some j ∧ j.res = r

theorem hasRes_of_rel {m : Nat} {a b : Dev} {q pos : Nat} {r : Option JobRes} (h : Rel m a b) (hr : HasRes a q pos r)
    (hm : m.testBit (bit .jobs) = false := by decide) : HasRes b q pos r := by
  rwa [HasRes, jobFind_of_rel h q pos hm]

/-- A job replaced by one with the same result. -/
theorem hasRes_jobPut {d : Dev} {j k : Job} {q pos : Nat} {r : Option JobRes} (hk : d.jobFind j.sq j.pos = some k) (hj : j.res = k.res)
    (h : HasRes d q pos r) : HasRes (d.jobPut j) q pos r := by
  by_cases he : j.sq = q ∧ j.pos = pos
  · obtain ⟨rfl, rfl⟩ := he
    obtain ⟨i, hi, rfl⟩ := h
    obtain rfl : k = i := Option.some.inj (hk.symm.trans hi)
    exact ⟨j, by rw [jobFind_jobPut_self, hk, Option.map_some], hj⟩
  · rwa [HasRes, jobFind_jobPut_ne he]

/-- A result once set stands (R126). -/
theorem hasRes_jobEnd {d : Dev} {q pos : Nat} {r : JobRes} (h : HasRes d q pos (some r)) (a b : Nat) (z : JobRes) :
    HasRes (d.jobEnd a b z) q pos (some r) := by
  unfold Dev.jobEnd
  split
  · rename_i j hj
    split
    · exact h
    · rename_i hn
      obtain ⟨-, rfl, rfl⟩ := jobFind_some hj
      obtain ⟨i, hi, hr⟩ := h
      have hne : ¬(j.sq = q ∧ j.pos = pos) := by
        rintro ⟨rfl, rfl⟩
        obtain rfl : j = i := Option.some.inj (hj.symm.trans hi)
        simp [hr] at hn
      exact ⟨i, (jobFind_jobPut_ne (j := { j with res := some z }) hne d).trans hi, hr⟩
  · exact h

theorem hasRes_jobEnd_self {d : Dev} {q pos : Nat} (h : HasRes d q pos none) (z : JobRes) : HasRes (d.jobEnd q pos z) q pos (some z) := by
  obtain ⟨j, hj, hr⟩ := h
  obtain ⟨-, rfl, rfl⟩ := jobFind_some hj
  unfold Dev.jobEnd
  simp only [hj, hr, Option.isSome_none, Bool.false_eq_true, if_false]
  exact ⟨{ j with res := some z }, (jobFind_jobPut_self d { j with res := some z }).trans (by rw [hj, Option.map_some]), rfl⟩

theorem hasRes_frameGone {d : Dev} {q pos : Nat} {r : JobRes} (h : HasRes d q pos (some r)) (job : Option (Nat × Nat)) (d2 : Dword)
    (d3 : Nat) (bad : Option (Nat × Nat)) : HasRes (d.frameGone job d2 d3 bad) q pos (some r) := by
  unfold Dev.frameGone
  split
  · exact h
  · rename_i j hj
    obtain ⟨x, -, hx⟩ := Option.bind_eq_some_iff.1 hj
    obtain ⟨-, hq, hp⟩ := jobFind_some hx
    have hput : HasRes (d.jobPut { j with frames := j.frames - 1 }) q pos (some r) := hasRes_jobPut (k := j) (by rw [hq, hp, hx]) rfl h
    dsimp only
    split
    · exact hasRes_jobEnd hput ..
    · split
      · exact hasRes_jobEnd hput ..
      · exact hput

theorem hasRes_dropPkt {d : Dev} {q pos : Nat} {r : JobRes} (h : HasRes d q pos (some r)) (tok : Nat) :
    HasRes (d.dropPkt tok) q pos (some r) := by
  unfold Dev.dropPkt
  split
  · exact h
  · exact hasRes_frameGone (hasRes_of_rel (rel_Dev_freePkt ..) h) ..

theorem hasRes_noteWrite {d : Dev} {q pos : Nat} {r : Option JobRes} (h : HasRes d q pos r) (addr len : Nat) :
    HasRes (d.noteWrite q pos addr len) q pos r := by
  obtain ⟨j, hj, hr⟩ := h
  obtain ⟨-, rfl, rfl⟩ := jobFind_some hj
  unfold Dev.noteWrite
  simp only [hj]
  split
  · exact ⟨j, hj, hr⟩
  · have hput : HasRes (d.jobPut { j with wrote := true, lastWord := (addr + len - 1) / 4 * 4, moved := j.moved + len }) j.sq j.pos r :=
      hasRes_jobPut (k := j) hj rfl ⟨j, hj, hr⟩
    split
    · exact hasRes_of_rel (rel_Dev_sqPut ..) hput
    · exact hput

theorem hasRes_jobDeliver {d : Dev} {j : Job} {r : Option JobRes} (h : HasRes d j.sq j.pos r) (addr : Nat) (data : List Byte) (ro : Bool) :
    HasRes (d.jobDeliver j addr data ro) j.sq j.pos r := by
  have hw : HasRes (d.tenWrite j.ten j.gen addr data ro) j.sq j.pos r := hasRes_of_rel (rel_Dev_tenWrite ..) h
  unfold Dev.jobDeliver Dev.jobWrite
  refine hasRes_of_rel (rel_Dev_tollAdd ..) ?_
  dsimp only
  split
  · exact hasRes_of_rel (rel_Dev_drawBytes ..) (hasRes_noteWrite hw ..)
  · exact hw

/-- What a job delivers through an open Shutter reaches the host (R49, R81). -/
theorem mem_out_jobDeliver {d : Dev} {j : Job} (h : d.shutPass j.ten j.gen = true) (addr : Nat) (data : List Byte) (ro : Bool) :
    .hostWrite (d.tenFn j.ten) (d.tenGet j.ten).pasid addr data (ro && (d.fnGet (d.tenFn j.ten)).relaxed) ∈
      (d.jobDeliver j addr data ro).out := by
  have hten : Out.hostWrite (d.tenFn j.ten) (d.tenGet j.ten).pasid addr data (ro && (d.fnGet (d.tenFn j.ten)).relaxed) ∈
      (d.tenWrite j.ten j.gen addr data ro).out := by
    rw [Dev.tenWrite, if_pos h]
    exact mem_out_of_grows (outGrows_logWrite ..) (List.mem_append_right _ (List.mem_singleton_self _))
  unfold Dev.jobDeliver Dev.jobWrite
  refine mem_out_of_grows (outGrows_of_rel (rel_Dev_tollAdd ..)) ?_
  dsimp only
  split
  · exact mem_out_of_grows (outGrows_of_rel (rel_Dev_drawBytes ..)) (mem_out_of_grows (outGrows_of_rel (rel_Dev_noteWrite ..)) hten)
  · exact hten

end Sys2Proof.Proofs

/-! Frames received, transmitted, paused and placed (R22, R110, R125, R175 to R179). -/

namespace Sys2Proof.Proofs

open Sys2Proof Sys2Proof.Machine Sys2Proof.Laws

theorem exec_macRxFrame (p : Nat) (frame : List Byte) (phy : RxPhy) (s : State) :
    exec (.macRxFrame p frame phy) s = s.run (·.macRx p frame phy) := rfl

theorem exec_macTxFrame (p : Nat) (ue : Bool) (s : State) : exec (.macTxFrame p ue) s = s.run (·.macTx p ue) := rfl

theorem exec_pauseFrameRx (p : Nat) (pfc : Bool) (en : Nat) (quanta : List Nat) (s : State) :
    exec (.pauseFrameRx p pfc en quanta) s = s.run (·.pauseArrive p pfc en quanta) := rfl

theorem exec_rxFramePlace (tok : Nat) (xlat : Bool) (s : State) : exec (.rxFramePlace tok xlat) s = s.run (·.rxFramePlace tok xlat) := rfl

/-! Reception (R178, R179). -/

theorem fcs_length (f : List Byte) : (Net.fcs f).length = 4 := rfl

theorem wakeCheck_awake {d : Dev} (h : d.pwr.state ≠ 2) (p : Nat) (f : List Byte) : d.wakeCheck p f = d := by
  simp [Dev.wakeCheck, h]

theorem pcount_zero (d : Dev) (p i : Nat) : d.pcount p i 0 = d := rfl

section
variable {d : Dev} {p : Nat}

/-- A frame whose FCS is bad, over a link without symbol errors, is counted and goes nowhere. -/
theorem macRx_badFcs {frame : List Byte} (ht : d.portType p ≠ 0) (hlink : (d.netPort p).link = true) (h64 : 64 ≤ frame.length)
    (hmtu : frame.length ≤ d.regN (Reg.PORT_MTU p))
    (hbad : frame.drop (frame.length - 4) ≠ Net.fcs (frame.take (frame.length - 4))) : d.macRx p frame {} = d.pcount p 5 1 := by
  simp [Dev.macRx, Dev.pcount, b2n, ht, hlink, Nat.not_lt.2 h64, Nat.not_lt.2 hmtu, hbad]

/-- What becomes of a good frame f of a length that the port takes, by its kind. -/
theorem macRx_good {f : List Byte} (ht : d.portType p ≠ 0) (hlink : (d.netPort p).link = true) (h64 : 64 ≤ (f ++ Net.fcs f).length)
    (hmtu : (f ++ Net.fcs f).length ≤ d.regN (Reg.PORT_MTU p)) (hawake : d.pwr.state ≠ 2) :
    d.macRx p (f ++ Net.fcs f) {} =
      if etherType f = 0x8808 then (d.rxCountOk p f (f ++ Net.fcs f).length).ctlRx p f
      else if isDimming f then ((d.rxCountOk p f (f ++ Net.fcs f).length).pcount p 35 1).dimRx p f
      else if 2 ≤ d.pwr.state then (d.rxCountOk p f (f ++ Net.fcs f).length).pcount p 45 (b2n (d.ptpEvent p f).isSome)
      else d.macAdmit p f (f ++ Net.fcs f).length := by
  have hn : (f ++ Net.fcs f).length - 4 = f.length := by rw [List.length_append, fcs_length, Nat.add_sub_cancel]
  have htake : (f ++ Net.fcs f).take f.length = f := List.take_left
  have hdrop : (f ++ Net.fcs f).drop f.length = Net.fcs f := List.drop_left
  have h4 : 4 ≤ (f ++ Net.fcs f).length := by omega
  unfold Dev.macRx
  simp only [hn, htake, hdrop, h4, List.foldl_cons, List.foldl_nil, show b2n false = 0 from rfl, pcount_zero, wakeCheck_awake hawake, ht,
    hlink, Nat.not_lt.2 h64, Nat.not_lt.2 hmtu, Nat.lt_irrefl, Bool.false_eq_true, Bool.not_true, and_self, decide_true, or_self, if_false]

/-- The device once a frame was stored in the Square q and counted. -/
def admitted (d : Dev) (q : Square) (p : Nat) (f : List Byte) (n : Nat) : Dev :=
  (((d.setSquare q).pauseCheck p).rxCountOk p f n).pcount p 45 (b2n ((((d.setSquare q).pauseCheck p).rxCountOk p f n).ptpEvent p f).isSome)

theorem rel_admitted (d : Dev) (q : Square) (p : Nat) (f : List Byte) (n : Nat) :
    Rel (maskOf [.port, .out]) (d.setSquare q) (admitted d q p f n) :=
  (((rel_Dev_pauseCheck ..).mono (by decide)).trans ((rel_Dev_rxCountOk ..).mono (by decide))).trans ((rel_Dev_pcount ..).mono (by decide))

/-- A frame that the Square stored is the packet of its token (R22, R178). -/
theorem pkt_macAdmit {f : List Byte} {n tok : Nat} {q : Square} {pk : Packet}
    (hpk : pk = { pool := p, cells := 0, data := f, port := p, ts := (d.pcsTime (Reg.TIME_ASYM_RX p) / 4294967296).toNat })
    (hsec : (d.secY p).en = false) (hs : d.sq.store pk = some (tok, q)) :
    (d.macAdmit p f n).pkt tok = some { pk with cells := cellsOf pk.data.length } := by
  have hrel := rel_admitted d q p f n
  have hcry : (admitted d q p f n).cry = d.cry := hrel.same .cry (by decide)
  have hpkt : (admitted d q p f n).pkt tok = some { pk with cells := cellsOf pk.data.length } :=
    (pkt_of_rel hrel tok).trans (kvFind_of_store hs)
  have hrx : (admitted d q p f n).macsecRx p f = (some f, admitted d q p f n) := by
    have hen : ((admitted d q p f n).secY p).en = false := by rw [Dev.secY, hcry]; exact hsec
    simp [Dev.macsecRx, hen]
  obtain ⟨b, hb, hbp⟩ := resizePkt_same hpkt (show f.length = pk.data.length by rw [hpk])
  have hm : d.macAdmit p f n = b := by
    subst hpk
    unfold Dev.macAdmit
    simp only [hs]
    rw [show ((((d.setSquare q).pauseCheck p).rxCountOk p f n).pcount p 45
      (b2n ((((d.setSquare q).pauseCheck p).rxCountOk p f n).ptpEvent p f).isSome)) = admitted d q p f n from rfl, hrx]
    simp only [hb, Option.getD_some]
  rw [hm, hbp, hpk]

end

/-! Flow control (R177). -/

/-- The bytes of a PAUSE frame without its FCS. -/
def pauseBytes (q : Nat) : List Byte :=
  fitTo 60 (beBytes 6 0x0180C2000001 ++ List.replicate 6 0#8 ++ beBytes 2 0x8808 ++ (beBytes 2 1 ++ beBytes 2 q))

theorem pauseBytes_length (q : Nat) : (pauseBytes q ++ Net.fcs (pauseBytes q)).length = 64 := by
  rw [List.length_append, fcs_length, pauseBytes, fitTo_length]

theorem etherType_pauseBytes (q : Nat) : etherType (pauseBytes q) = 0x8808 := rfl

theorem opcode_pauseBytes (q : Nat) : beAt (pauseBytes q) 14 2 = 1 := rfl

theorem quanta_pauseBytes {q : Nat} (h : q < 65536) : beAt (pauseBytes q) 16 2 = q := by
  have hb : slice (pauseBytes q) 16 2 = [BitVec.ofNat 8 (q / 256), BitVec.ofNat 8 q] := rfl
  simp only [beAt, hb, ofBe, List.reverse_cons, List.reverse_nil, List.nil_append, List.cons_append, ofLe, BitVec.toNat_ofNat]
  omega

theorem pauseArrive_pause (d : Dev) (p en : Nat) (quanta : List Nat) :
    d.pauseArrive p false en quanta = d.macRx p (pauseBytes (quanta.getD 0 0) ++ Net.fcs (pauseBytes (quanta.getD 0 0))) {} := rfl

/-- A received PAUSE frame holds every class, or releases every class if its quanta are 0. -/
theorem held_ctlRx_pause {d : Dev} {p q : Nat} (hq : q < 65536) (hen : d.regBit (Reg.PORT_CFG p) 5 = true) :
    ((d.ctlRx p (pauseBytes q)).netPort p).held = if q = 0 then [] else List.range 8 := by
  have hregs : (((d.pcount p 13 1).pcount p 14 1).pcount p 15 (b2n (!bitOf (d.reg (Reg.PORT_CFG p)) 5))).regs = d.regs :=
    (((rel_Dev_pcount ..).trans (rel_Dev_pcount ..)).trans (rel_Dev_pcount ..)).same .regs (by decide)
  unfold Dev.ctlRx
  simp only [opcode_pauseBytes, quanta_pauseBytes hq]
  unfold Dev.pauseRx
  have hbit : bitOf ((((d.pcount p 13 1).pcount p 14 1).pcount p 15 (b2n (!bitOf (d.reg (Reg.PORT_CFG p)) 5))).reg (Reg.PORT_CFG p)) 5 =
      true := by rw [reg_of_regs_eq hregs]; exact hen
  simp [hbit]
  by_cases h0 : q = 0 <;> simp [h0]

/-! Transmission (R175). -/

theorem ttVerdict_off {d : Dev} {p : Nat} (h : d.ttEn p = false) (c w : Nat) : d.ttVerdict p c w = 0 := by
  unfold Dev.ttVerdict
  split
  · rfl
  · simp [h]

theorem ttStart_off {d : Dev} {p : Nat} (h : d.ttEn p = false) (c w : Nat) : d.ttStart p c w = d := by
  unfold Dev.ttStart
  split
  · rfl
  · simp [h]

/-- The device once a frame has left, before it is forgotten. -/
def frameSent (d : Dev) (p : Nat) (f : List Byte) : Dev :=
  let g := if f.length < 60 then fitTo 60 f else f
  ((d.emit (.frame p g false)).pcount p 56 (b2n (decide (f.length < 60)))).txCountOk p g (g.length + 4)

theorem macSend_plain {d : Dev} {p : Nat} {k : Packet} (tok : Nat) (ht : d.ttEn p = false) (hk : k.poison = false)
    (he : d.ptpEvent p k.data = none) (hs : (d.secY p).grows k.data = 0) :
    d.macSend p tok k false = (frameSent d p k.data).txGone p tok k 0 0 none := by
  have hm : d.macsecTx p k.data = (some k.data, d) := by simp [Dev.macsecTx, hs]
  simp [Dev.macSend, hk, he, hm, ttStart_off ht, frameSent]

theorem macTx_single {d : Dev} {p tok : Nat} {k : Packet} (hlink : (d.netPort p).link = true) (hq : (d.netPort p).txq = [tok])
    (hp : d.pkt tok = some k) (hc : k.tc ∉ (d.netPort p).held) (ht : d.ttEn p = false) (hs : (d.secY p).grows k.data = 0)
    (hmtu : max 64 (k.data.length + 4) ≤ d.regN (Reg.PORT_MTU p)) : d.macTx p false = d.macSend p tok k false := by
  simp [Dev.macTx, hlink, hq, hp, hc, hs, ttVerdict_off ht, Nat.not_lt.2 hmtu]

/-- A frame that goes leaves its queue and the Square; what left the device stays on record. -/
theorem txGone_spec {d : Dev} {p tok : Nat} (hq : (d.netPort p).txq = [tok]) (k : Packet) (d2 : Dword) (d3 : Nat)
    (bad : Option (Nat × Nat)) :
    OutGrows d (d.txGone p tok k d2 d3 bad) ∧ (d.txGone p tok k d2 d3 bad).pkt tok = none ∧
      ((d.txGone p tok k d2 d3 bad).netPort p).txq = [] := by
  have hjob := rel_Dev_frameGone ((d.txqDel p tok).freePkt tok) k.job d2 d3 bad
  refine ⟨outGrows_trans (outGrows_of_rel (rel_Dev_txqDel ..)) (outGrows_trans (outGrows_freePkt ..) (outGrows_of_rel hjob)), ?_, ?_⟩
  · exact (pkt_of_rel hjob tok).trans (pkt_freePkt_self ..)
  · have hkeeps := (keepsTxq_freePkt (d.txqDel p tok) tok).trans (keepsTxq_of_rel hjob)
    refine (hkeeps.txq p).trans ?_
    rw [Dev.txqDel, netPort_setNetPort_self, hq]
    simp

/-! Placement (R125, R204). -/

/-- The front of the ring is a buffer: no entry before it has to go (R122). -/
theorem rxPost_run {d : Dev} {q n : Nat} {x : Sq} (hx : kvFind q d.ring.sqs = some x) (hf : x.front = .run n) (fuel : Nat) :
    d.rxPost q fuel = d := by
  cases fuel with
  | zero => rfl
  | succ fuel => simp [Dev.rxPost, hx, hf]

/-- The receive job of a frame, as it starts. -/
def rxJob (q : Nat) (x : Sq) (gen : Word) (m : RxMeta) : Job :=
  { sq := q, pos := x.started, ten := x.ten, gen := gen, entries := [x.cache.headD default], ts := some (m.ts % 2 ^ 32) }

/-- The device once the job has started: the ring moved on by one entry. -/
def rxStarted (d : Dev) (q : Nat) (x : Sq) (gen : Word) (m : RxMeta) : Dev :=
  { d.sqPut q (x.consume 1) with ring := { (d.sqPut q (x.consume 1)).ring with jobs := d.ring.jobs ++ [rxJob q x gen m] } }

theorem rxOne_eq {data : List Byte} (hd : data ≠ []) (d : Dev) (q : Nat) (x : Sq) (gen : Word) (full status : Nat) (more : Bool)
    (m : RxMeta) :
    d.rxOne q x gen data full status more m =
      ((rxStarted d q x gen m).jobDeliver (rxJob q x gen m) (x.cache.headD default).addr data (x.cache.headD default).ro).jobEnd q x.started
        { status := status, len := full, d2 := m.d2 more, d3 := m.mark } := by
  unfold Dev.rxOne
  simp only [List.isEmpty_eq_false_iff.2 hd]
  rfl

theorem hasRes_rxStarted {d : Dev} {q : Nat} {x : Sq} (h : d.jobFind q x.started = none) (gen : Word) (m : RxMeta) :
    HasRes (rxStarted d q x gen m) q x.started none := by
  have hj : d.ring.jobs.find? (fun j => decide (j.sq = q ∧ j.pos = x.started)) = none := h
  refine ⟨rxJob q x gen m, ?_, rfl⟩
  show (d.ring.jobs ++ [rxJob q x gen m]).find? _ = _
  rw [List.find?_append, hj, Option.none_or]
  exact List.find?_cons_of_pos (by simp [rxJob])

/-- A frame placed whole in one buffer: its bytes go to the host, and its job ends with its length (R110, R125). -/
theorem rxOne_spec {d : Dev} {q : Nat} {x : Sq} {gen : Word} {data : List Byte} (hd : data ≠ []) (hn : d.jobFind q x.started = none)
    (hs : d.shutPass x.ten gen = true) (full status : Nat) (more : Bool) (m : RxMeta) :
    .hostWrite (d.tenFn x.ten) (d.tenGet x.ten).pasid (x.cache.headD default).addr data
        ((x.cache.headD default).ro && (d.fnGet (d.tenFn x.ten)).relaxed) ∈ (d.rxOne q x gen data full status more m).out ∧
      HasRes (d.rxOne q x gen data full status more m) q x.started
        (some { status := status, len := full, d2 := m.d2 more, d3 := m.mark }) := by
  rw [rxOne_eq hd]
  exact ⟨mem_out_of_grows (outGrows_of_rel (rel_Dev_jobEnd ..))
      (mem_out_jobDeliver (d := rxStarted d q x gen m) (j := rxJob q x gen m) hs ..),
    hasRes_jobEnd_self (hasRes_jobDeliver (j := rxJob q x gen m) (hasRes_rxStarted hn gen m) ..) _⟩

/-- The device once a host port has noted the time of a frame. -/
def frameNoted (d : Dev) (p : Nat) : Dev := d.setHifPort p { d.hifPort p with frameAt := some d.nowNs }

/-- A frame of an OPEN tenancy that fits the buffer at the front of its ring. -/
theorem rxPlace_one {d : Dev} {q n : Nat} {gen : Word} {data : List Byte} {x : Sq} (hx : kvFind q d.ring.sqs = some x)
    (hstate : x.state = 1) (hf : x.front = .run n) (hb : x.buffers ≠ []) (hsc : x.scatter = false) (hstash : d.stashFull x.cq = false)
    (hheld : d.fnHeld (d.tenFn x.ten) = false) (hg : (d.tenGet x.ten).gen = gen) (hst : (d.tenGet x.ten).st = 3)
    (hlen : data.length ≤ (x.cache.headD default).len) (o : Bool) (m : RxMeta) :
    (d.rxPlace q gen o data m false).2 = (frameNoted d (d.tenPort x.ten)).rxOne q x gen data data.length 0 false m := by
  have hpass : d.shutPass x.ten gen = true := by simp [Dev.shutPass, Dev.shutOpen, hst, hg]
  have hdrain : d.shutDraining x.ten = false := by simp [Dev.shutDraining, hst]
  have hheld' : (frameNoted d (d.tenPort x.ten)).fnHeld ((frameNoted d (d.tenPort x.ten)).tenFn x.ten) = false := hheld
  have hg' : ((frameNoted d (d.tenPort x.ten)).tenGet x.ten).gen = gen := hg
  have hpass' : (frameNoted d (d.tenPort x.ten)).shutPass x.ten gen = true := hpass
  have hdrain' : (frameNoted d (d.tenPort x.ten)).shutDraining x.ten = false := hdrain
  have hstash' : (frameNoted d (d.tenPort x.ten)).stashFull x.cq = false := hstash
  unfold Dev.rxPlace
  simp only [rxPost_run hx hf, hx]
  simp only [frameNoted] at *
  simp [-List.headD_eq_head?_getD, hheld', hg', hpass', hdrain', hstate, hb, hstash', hsc, Nat.not_lt.2 hlen]

theorem rxFramePlace_toRing {d : Dev} {tok t l mark q : Nat} {dec : Bool} {k : Packet} {x : Sq} (hk : d.pkt tok = some k)
    (hs : k.stage = .toRing t l mark dec) (hq : d.sqAt t l = some (q, x)) (xlat : Bool) :
    ∃ m, d.rxFramePlace tok xlat = (d.rxPlace q k.gen k.clsOpen k.data m xlat).2.dropPkt tok := by
  unfold Dev.rxFramePlace
  simp only [hk, hs, hq]
  exact ⟨_, rfl⟩

/-- Settles O26, clause by clause: what becomes of each frame, and what its end leaves. -/
theorem portFrames : Obligations.PortFrames := by
  unfold Obligations.PortFrames
  refine ⟨?rx, ?rxBad, ?tx, ?pause, ?place⟩
  case rx =>
    rintro s p tok f frame q hs ht hlink rfl h64 hmtu hst heth hdim hsec hstore
    refine runs_of_run hs (exec_macRxFrame ..) ?_
    rw [macRx_good ht hlink h64 hmtu (by omega), if_neg heth, hdim, if_neg (by simp), if_neg (by omega)]
    exact ⟨_, pkt_macAdmit rfl hsec hstore, rfl, rfl, rfl, rfl⟩
  case rxBad =>
    intro s p frame hs ht hlink h64 hmtu hbad
    refine runs_of_run hs (exec_macRxFrame ..) ?_
    rw [macRx_badFcs ht hlink h64 hmtu hbad]
    exact ⟨counter_pcount_self .., agree_of_rel_mask (rel_Dev_pcount ..)⟩
  case tx =>
    intro s p tok k hs hlink hq hk hc ht hpoison he hgrows hmtu
    have hsent : KeepsTxq s.dev (frameSent s.dev p k.data) :=
      ((keepsTxq_of_rel (rel_Dev_emit ..)).trans (keepsTxq_pcount ..)).trans (keepsTxq_txCountOk ..)
    obtain ⟨hout, hpkt, htxq⟩ := txGone_spec ((hsent.txq p).trans hq) k 0 0 none
    refine runs_of_run hs (exec_macTxFrame ..) ?_
    rw [macTx_single hlink hq hk hc ht hgrows hmtu, macSend_plain tok ht hpoison he hgrows]
    refine ⟨mem_out_of_grows hout ?_, hpkt, htxq⟩
    refine mem_out_of_grows (outGrows_trans (outGrows_of_rel (rel_Dev_pcount ..)) (outGrows_of_rel (rel_Dev_txCountOk ..))) ?_
    exact List.mem_append_right _ (List.mem_singleton_self _)
  case pause =>
    intro s p quanta hs ht hlink hmtu hst hcfg hq
    have hcount := rel_Dev_rxCountOk s.dev p (pauseBytes (quanta.getD 0 0)) 64
    have hlen := pauseBytes_length (quanta.getD 0 0)
    refine runs_of_run hs (exec_pauseFrameRx ..) ?_
    rw [pauseArrive_pause, macRx_good ht hlink (by rw [hlen]) (by rwa [hlen]) hst, if_pos (etherType_pauseBytes _), hlen]
    have hbit : (s.dev.rxCountOk p (pauseBytes (quanta.getD 0 0)) 64).regBit (Reg.PORT_CFG p) 5 = true :=
      (regBit_of_regs_eq (hcount.same .regs (by decide)) _ _).trans hcfg
    exact ⟨held_ctlRx_pause hq hbit, agree_of_rel_mask (hcount.trans (rel_Dev_ctlRx ..))⟩
  case place =>
    intro s tok t l mark q n dec k x r y hs hk hstage hq hx hten hcls hstate hf hcache hb hsc hstash hheld hgen hst hdata hlen hnone
    subst hten
    have hhead : x.cache.headD default = r := by rw [hcache]; rfl
    obtain ⟨m, hm⟩ := rxFramePlace_toRing hk hstage hq false
    have hpass : s.dev.shutPass x.ten k.gen = true := by simp [Dev.shutPass, Dev.shutOpen, hst, hgen]
    obtain ⟨hout, hres⟩ := rxOne_spec (d := frameNoted s.dev (s.dev.tenPort x.ten)) hdata hnone hpass k.data.length 0 false m
    rw [hhead] at hout
    refine runs_of_run hs (exec_rxFramePlace ..) ?_
    rw [hm, rxPlace_one hx hstate hf hb hsc hstash hheld hgen hst (by rwa [hhead])]
    obtain ⟨j, hj, hjr⟩ := hasRes_dropPkt hres tok
    obtain ⟨hmem, hjq, hjp⟩ := jobFind_some hj
    exact ⟨pkt_dropPkt_self .., mem_out_of_grows (outGrows_dropPkt ..) hout, j, hmem, hjq, hjp, _, hjr, rfl, rfl⟩

end Sys2Proof.Proofs

/-! Classification of a frame, and re-entry (R15, R195 to R222). -/

namespace Sys2Proof.Proofs

open Sys2Proof Sys2Proof.Machine Sys2Proof.Laws

theorem exec_crossingClassify (tok : Nat) (ue : List Nat) (s : State) :
    exec (.crossingClassify tok ue) s = s.run (·.classifyAll tok ue) := rfl

theorem exec_reentryAdmit (s : State) : exec .reentryAdmit s = s.run (·.reentryAdmit) := rfl

/-- A frame dropped and counted in a register (R125, R203, R222). -/
theorem dropPkt_count_spec (d : Dev) (tok off : Nat) :
    ((d.dropPkt tok).count off).pkt tok = none ∧ ((d.dropPkt tok).count off).reg off = counterAdd (d.reg off) 1 ∧
      OnlyRegs [off] d ((d.dropPkt tok).count off) := by
  have hdrop : (d.dropPkt tok).regs = d.regs := (rel_Dev_dropPkt d tok).same .regs (by decide)
  refine ⟨(pkt_of_rel (rel_Dev_count ..) tok).trans (pkt_dropPkt_self d tok), ?_, ?_⟩
  · rw [reg_count_self, reg_of_regs_eq hdrop]
  · exact onlyRegs_trans (onlyRegs_of_regs_eq hdrop) (onlyRegs_count (List.mem_singleton_self _) _)

/-! The slow path (R202 to R204). -/

section
variable {d : Dev} {tok : Nat} {p : Packet}

theorem toSlow_drop {reason : Nat} (h : fld (d.reg (Reg.CLS_SLOW reason)) 17 16 = 2) (c : Cls) :
    ∃ q, d.toSlow tok p c reason = ((d.setPkt tok q).dropPkt tok).count Reg.CLS_SLOW_DROP := by
  unfold Dev.toSlow Dev.slowPath
  simp only [show ∀ q, (d.setPkt tok q).reg (Reg.CLS_SLOW reason) = d.reg (Reg.CLS_SLOW reason) from fun _ => rfl, h]
  exact ⟨_, rfl⟩

theorem toSlow_handler {reason : Nat} (h : fld (d.reg (Reg.CLS_SLOW reason)) 17 16 = 1) (hroom : d.glb.exc.slow.length < 4096) (c : Cls) :
    ∃ q, (d.toSlow tok p c reason).pkt tok = some q ∧ q.stage = .handler (fld (d.reg (Reg.CLS_SLOW reason)) 15 0) ∧ q.data = p.data ∧
      q.cls.ptype = 0x8000 + c.source * 256 + reason ∧
      (d.toSlow tok p c reason).glb.exc.slow =
        d.glb.exc.slow ++ [{ reason := reason, token := tok, handler := fld (d.reg (Reg.CLS_SLOW reason)) 15 0 }] ∧
      (d.toSlow tok p c reason).regs = d.regs := by
  unfold Dev.toSlow Dev.slowPath
  simp only [show ∀ q, (d.setPkt tok q).reg (Reg.CLS_SLOW reason) = d.reg (Reg.CLS_SLOW reason) from fun _ => rfl, h,
    show ∀ q, (d.setPkt tok q).glb.exc.slow = d.glb.exc.slow from fun _ => rfl, Nat.not_le.2 hroom, if_false, pkt_setPkt_self]
  exact ⟨_, pkt_setPkt_self .., rfl, rfl, rfl, rfl, rfl⟩

/-! Lookups (R209, R211 to R213). -/

theorem rset_rsetCount_self (d : Dev) (r : Nat) (hit tie : Bool) :
    (d.rsetCount r hit tie).rset r = { d.rset r with counters :=
      [(d.rset r).counters.getD 0 0 + 1, (d.rset r).counters.getD 1 0 + b2n hit, (d.rset r).counters.getD 2 0 + b2n (!hit),
        (d.rset r).counters.getD 3 0 + b2n (tie && (d.rset r).tie)] } := kvGet_kvSet_self ..

/-- A lookup whose result ends the program, and whose winner's result word can be read. -/
theorem lookups_decided {img f : List Byte} {prog n : Nat} {host : Bool} {ue : List Nat} {c : Cls} {x : Half}
    {win : Option (Nat × TcamEntry)} {res : Dword} (hx : x = imgSlot img prog (3 - n)) (hen : bitOf x 15 = true)
    (hwin : win = (tcamWinner (d.tcamHits (fld x 5 0) (buildKey img (fld x 13 8) f c (3 - n)))).1)
    (hue : win.elim false (fun e => ue.contains e.1) = false) (hres : res = win.elim (d.rset (fld x 5 0)).miss (fun e => e.2.result))
    (hend : bitOf res 63 = true) :
    ∃ tie, d.lookups img f prog host ue (n + 1) c = (0, c.merge res host, d.rsetCount (fld x 5 0) win.isSome tie) := by
  refine ⟨(tcamWinner (d.tcamHits (fld x 5 0) (buildKey img (fld x 13 8) f c (3 - n)))).2, ?_⟩
  unfold Dev.lookups
  simp only [← hx, hen, ← hwin, hue, Bool.not_true, Bool.false_eq_true, if_false, rset_rsetCount_self, ← hres, hend, or_true, if_true]

/-! Steering (R209, R222). -/

theorem steer_drop {c : Cls} (hsv : c.sv = true) (h2 : c.steer = 2) : d.steer tok p c = (d.dropPkt tok).count Reg.CLS_RULE_DROP := by
  simp [Dev.steer, hsv, h2]

theorem steer_noRing {c : Cls} (h : d.steerRing c = some none) (h2 : c.steer ≠ 2) :
    d.steer tok p c = (d.dropPkt tok).count Reg.CLS_NO_RING := by simp [Dev.steer, h2, h]

theorem steer_on {c : Cls} {r : Option (Option Nat)} (hr : d.steerRing c = r) (hn : r ≠ some none)
    (h2 : ¬(c.sv = true ∧ c.steer = 2)) :
    ∃ q, d.steer tok p c = d.setPkt tok q ∧ q.stage = (if c.hv then .handler c.handler else .classified) ∧ q.data = p.data ∧
      q.cls = { c with ring := r.bind id } := by
  unfold Dev.steer
  rw [if_neg h2, hr]
  split
  · exact absurd rfl hn
  · refine ⟨_, rfl, rfl, ?_, ?_⟩ <;> split <;> rfl

theorem steerRing_none {c : Cls} (h : c.sv = false) : d.steerRing c = none := by simp [Dev.steerRing, h]

theorem steerRing_ring {c : Cls} (hsv : c.sv = true) (h1 : c.steer = 1) :
    d.steerRing c = some (if (c.tv && d.isRxRing c.ten c.ringF) = true then some c.ringF else none) := by
  simp [Dev.steerRing, hsv, h1, Option.filter]

/-! The whole of classification. -/

theorem classifyAll_eq (hk : d.pkt tok = some p) (hf : d.fabTaken p.data = none) (ue : List Nat) :
    d.classifyAll tok ue = d.classify tok ue := by simp only [Dev.classifyAll, hk, hf]

theorem classify_noImage (hk : d.pkt tok = some p) (hs : p.stage = .arrived) (hp : d.pwr.stopP = false)
    (hi : d.cls.banks.getD d.cls.active none = none) (ue : List Nat) : d.classify tok ue = d.toSlow tok p p.clsStart 4 := by
  simp [-List.getD_eq_getElem?_getD, Dev.classify, hk, hs, hp, hi]

/-- A frame whose lookups end without an exception is steered by what they found (R209, R220). -/
theorem classify_parsed {img : List Byte} {prog : Nat} {w : Walk} {c : Cls} {e : Dev} (hk : d.pkt tok = some p) (hs : p.stage = .arrived)
    (hp : d.pwr.stopP = false) (hi : d.cls.banks.getD d.cls.active none = some img)
    (hw : walk img p.data 24 (leAt img (if p.source = 0x60 then 8 else if p.isHost then 7 else 6) 1) {} = .parsed prog w) {ue : List Nat}
    (hl : d.lookups img p.data prog p.isHost ue 4 (p.clsStart.ofWalk w) = (0, c, e)) :
    d.classify tok ue = e.steer tok p { c with hash := (e.cls.hprofs.getD (e.hprofOf c) default).hash p.data c } := by
  have hsource : p.clsStart.source = p.source := rfl
  simp only [Dev.classify, hk, hs, hp, hi, hsource, hw, hl, ne_eq, not_true, Bool.false_eq_true, or_self, if_false, OfNat.zero_ne_ofNat,
    zero_ne_one]

end

theorem reentryAdmit_eq {d : Dev} {tok : Nat} {rest : List Nat} {p : Packet} (hq : d.cls.reentryQ = tok :: rest) (hk : d.pkt tok = some p)
    (hfree : ∀ k ∈ d.sq.pkts, k.2.stage = .arrived → k.2.port ≠ 17) :
    d.reentryAdmit =
      (Dev.setPkt { d with cls := { d.cls with reentryQ := rest } } tok { p with stage := .arrived }) := by
  have hfree17 : d.sq.pkts.any (fun e => decide (e.2.stage = .arrived ∧ e.2.port = 17) && e.2.isHost) = false := by
    rw [List.any_eq_false]
    intro e he
    have := hfree e he
    simp_all
  have hk' : Dev.pkt { d with cls := { d.cls with reentryQ := rest } } tok = some p := hk
  unfold Dev.reentryAdmit
  simp only [hq, hfree17, Bool.and_false, Bool.false_eq_true, if_false, hk']

/-- Settles O30, clause by clause: where each frame goes from what its walk and its first lookup found. -/
theorem classification : Obligations.Classification := by
  unfold Obligations.Classification
  refine ⟨?noImage, ?decided, ?reentry⟩
  case noImage =>
    intro s tok ue p hs hp hk hst hfab hi
    have heq : s.dev.classifyAll tok ue = s.dev.toSlow tok p p.clsStart 4 :=
      (classifyAll_eq hk hfab ue).trans (classify_noImage hk hst hp hi ue)
    refine ⟨fun h2 => ?_, fun h h1 hh hroom => ?_⟩ <;> refine runs_of_run hs (exec_crossingClassify ..) ?_ <;> rw [heq]
    · obtain ⟨q, hq⟩ := toSlow_drop (tok := tok) (p := p) h2 p.clsStart
      rw [hq]
      exact dropPkt_count_spec (s.dev.setPkt tok q) tok Reg.CLS_SLOW_DROP
    · obtain ⟨q, hq, hqs, hqd, hqp, hslow, hregs⟩ := toSlow_handler (tok := tok) (p := p) h1 hroom p.clsStart
      subst hh
      exact ⟨⟨q, hq, hqs, hqd, hqp⟩, hslow, onlyRegs_of_regs_eq hregs⟩
  case decided =>
    intro s tok prog ue p img w x c0 c win res hs hp hk hst hfab hi hw hc0 hx hen hwin hue hres hend hc
    subst hc0 hc
    obtain ⟨tie, hl⟩ := lookups_decided (d := s.dev) (host := p.isHost) (n := 3) hx hen hwin hue hres hend
    generalize (p.clsStart.ofWalk w).merge res p.isHost = c at *
    have heq : s.dev.classifyAll tok ue = (s.dev.rsetCount (fld x 5 0) win.isSome tie).steer tok p
        { c with hash := (s.dev.cls.hprofs.getD (s.dev.hprofOf c) default).hash p.data c } :=
      (classifyAll_eq hk hfab ue).trans (classify_parsed hk hst hp hi hw hl)
    generalize (s.dev.cls.hprofs.getD (s.dev.hprofOf c) default).hash p.data c = h at *
    refine ⟨fun hsv => ?goesOn, fun hsv h2 => ?ruleDrop, fun hsv h1 hno => ?noRing, fun hsv h1 hyes => ?ring⟩ <;>
      refine runs_of_run hs (exec_crossingClassify ..) ?_ <;> rw [heq]
    case goesOn =>
      obtain ⟨q, hq, hqs, hqd, hqc⟩ := steer_on (d := s.dev.rsetCount (fld x 5 0) win.isSome tie) (tok := tok) (p := p)
        (c := { c with hash := h }) (steerRing_none hsv) (by simp) (by simp [hsv])
      have hcount := congrArg Rset.counters (rset_rsetCount_self s.dev (fld x 5 0) win.isSome tie)
      rw [hq]
      refine ⟨⟨q, pkt_setPkt_self .., hqs, hqd, ?_⟩, ?_, onlyRegs_of_regs_eq rfl⟩
      · rw [hqc]
        exact ⟨rfl, rfl, rfl, rfl, rfl, rfl⟩
      · show ((s.dev.rsetCount (fld x 5 0) win.isSome tie).rset (fld x 5 0)).counters =
          [_, _, _, ((s.dev.rsetCount (fld x 5 0) win.isSome tie).rset (fld x 5 0)).counters.getD 3 0]
        rw [hcount]
        rfl
    case ruleDrop =>
      rw [steer_drop (c := { c with hash := h }) hsv h2]
      exact dropPkt_count_spec (s.dev.rsetCount (fld x 5 0) win.isSome tie) tok Reg.CLS_RULE_DROP
    case noRing =>
      have hring : (s.dev.rsetCount (fld x 5 0) win.isSome tie).steerRing { c with hash := h } = some none :=
        (steerRing_ring (c := { c with hash := h }) hsv h1).trans (congrArg some (if_neg (Bool.eq_false_iff.1 hno)))
      rw [steer_noRing hring (show c.steer ≠ 2 by omega)]
      exact dropPkt_count_spec (s.dev.rsetCount (fld x 5 0) win.isSome tie) tok Reg.CLS_NO_RING
    case ring =>
      have hring : (s.dev.rsetCount (fld x 5 0) win.isSome tie).steerRing { c with hash := h } = some (some c.ringF) :=
        (steerRing_ring (c := { c with hash := h }) hsv h1).trans (congrArg some (if_pos hyes))
      obtain ⟨q, hq, hqs, -, hqc⟩ := steer_on (tok := tok) (p := p) hring (by simp)
        (show ¬(c.sv = true ∧ c.steer = 2) by omega)
      rw [hq]
      exact ⟨⟨q, pkt_setPkt_self .., hqs, congrArg Cls.ring hqc⟩, onlyRegs_of_regs_eq rfl⟩
  case reentry =>
    intro s tok rest p hs hq hk hfree
    refine runs_of_run hs (exec_reentryAdmit ..) ?_
    rw [reentryAdmit_eq hq hk hfree]
    refine ⟨pkt_setPkt_self .., rfl, fun q hq => ?_⟩
    cases q <;> simp_all [Part.same, Dev.setPkt, Dev.setSquare]

end Sys2Proof.Proofs

/-! States that meet the conditions of these statements, with what the commands then do. -/

namespace Sys2Proof.Proofs

open Sys2Proof Sys2Proof.Machine Sys2Proof.Laws

theorem controlWatchdogExpire_after_reset :
    Runs .controlWatchdogExpire State.reset fun b => b.glb.planes.ctlUp = false ∧ b.glb.planes.mgmtUp = true := by
  obtain ⟨t, he, hq, hctl, hmgmt, -⟩ := planesAndFrame.1 State.reset rfl rfl
  exact ⟨t, he, hq, hctl, hmgmt⟩

/-- The state after reset with one valid entry in the TCAM, at its last index, and a record to invalidate it. -/
def tcamInvWaits : State :=
  { State.reset with dev := setTueQ (State.reset.dev.tcamPut 262143 { v := true }) [{ op := 0x01, index := 262143 }] }

theorem tcamInv_last_index :
    (tcamInvWaits.dev.tcam 262143).v = true ∧ Runs .tcamInv tcamInvWaits fun b => (b.tcam 262143).v = false ∧ b.glb.tueQ = [] := by
  obtain ⟨hinv, -⟩ := tableUpdates tcamInvWaits { op := 0x01, index := 262143 } [] rfl rfl
  obtain ⟨t, he, hq, hdone, hv, -⟩ := hinv rfl rfl (by decide)
  exact ⟨by decide, t, he, hq, hv, hdone.1⟩

/-- The state after reset with a committed set of windows of host port 0. -/
def winSetWaits : State :=
  { State.reset with dev := State.reset.dev.setHifPort 0 { State.reset.dev.hifPort 0 with winsNext := some [] } }

theorem winSetApply_committed : Runs (.winSetApply 0) winSetWaits fun b => (b.hifPort 0).wins = [] ∧ (b.hifPort 0).winsNext = none := by
  obtain ⟨-, -, -, -, -, -, happly, -⟩ := casement
  obtain ⟨t, he, hq, hw, hn, -⟩ := happly winSetWaits 0 [] rfl rfl
  exact ⟨t, he, hq, hw, hn⟩

/-- The state after reset with the link of port 0 up and its PAUSE mode on. -/
def pauseLink : State :=
  { State.reset with dev := (State.reset.dev.setNetPort 0 { link := true }).setReg (Reg.PORT_CFG 0) 0x20#32 }

theorem pauseFrameRx_holds : Runs (.pauseFrameRx 0 false 0 [65535]) pauseLink fun b => (b.netPort 0).held = List.range 8 := by
  obtain ⟨-, -, -, hpause, -⟩ := portFrames
  obtain ⟨t, he, hq, hh, -⟩ := hpause pauseLink 0 [65535] rfl (by decide) rfl (by decide) (by decide) (by decide) (by decide)
  exact ⟨t, he, hq, hh⟩

/-- The state after reset with a packet in the Square and in the re-entry queue. -/
def reentryWaits : State :=
  { State.reset with dev :=
    { State.reset.dev.setPkt 0 { pool := 0, cells := 1, data := [0#8], stage := .reentry } with
      cls := { State.reset.dev.cls with reentryQ := [0] } } }

theorem reentryAdmit_waiting : Runs .reentryAdmit reentryWaits fun b =>
    b.pkt 0 = some { pool := 0, cells := 1, data := [0#8], stage := .arrived } ∧ b.cls.reentryQ = [] := by
  obtain ⟨-, -, hreentry⟩ := classification
  obtain ⟨t, he, hq, hp, hc, -⟩ := hreentry reentryWaits 0 [] { pool := 0, cells := 1, data := [0#8], stage := .reentry } rfl rfl rfl
    (by decide)
  exact ⟨t, he, hq, hp, by rw [hc]⟩

end Sys2Proof.Proofs

/-! The host interface: what the operations on its ports, functions and requests do, and what they leave (R43, R46, R50, R568). -/

namespace Sys2Proof.Proofs

open Sys2Proof Sys2Proof.Machine Sys2Proof.Laws

/-! Ports. -/

/-- A port that differs from the default one stands in the list. -/
theorem lt_ports_of_ne {d : Dev} {p : Nat} (h : d.hifPort p ≠ {}) : p < d.hif.ports.length := by
  by_contra hp
  exact h (List.getD_eq_default _ _ (Nat.not_lt.1 hp))

theorem lt_ports_of_linkUp {d : Dev} {p : Nat} (h : (d.hifPort p).linkUp = true) : p < d.hif.ports.length :=
  lt_ports_of_ne fun e => by simp [e] at h

theorem lt_ports_of_tag {d : Dev} {p v : Nat} {x : Tag} (h : kvFind v (d.hifPort p).tags = some x) : p < d.hif.ports.length :=
  lt_ports_of_ne fun e => by simp [e] at h

/-- A port written reads as written; one that does not exist stays the default. -/
theorem hifPort_setHifPort_cases (d : Dev) (p : Nat) (x : HifPort) :
    (d.setHifPort p x).hifPort p = x ∨ (d.setHifPort p x).hifPort p = {} := by
  by_cases hp : p < d.hif.ports.length
  · exact .inl (hifPort_setHifPort_self hp x)
  · exact .inr (List.getD_eq_default _ _ (by simpa [Dev.setHifPort] using hp))

theorem length_ports_setHifPort (d : Dev) (p : Nat) (x : HifPort) : (d.setHifPort p x).hif.ports.length = d.hif.ports.length := by
  simp [Dev.setHifPort]

theorem hifPort_of_ports_eq {a b : Dev} (h : b.hif.ports = a.hif.ports) (p : Nat) : b.hifPort p = a.hifPort p := by
  simp only [Dev.hifPort, h]

theorem ports_of_rel {m : Nat} {a b : Dev} (h : Rel m a b) (hm : m.testBit (bit .hifPorts) = false := by decide) :
    b.hif.ports = a.hif.ports := h.same .hifPorts hm

theorem hifPort_of_rel {m : Nat} {a b : Dev} (h : Rel m a b) (p : Nat) (hm : m.testBit (bit .hifPorts) = false := by decide) :
    b.hifPort p = a.hifPort p := hifPort_of_ports_eq (ports_of_rel h hm) p

theorem onlyRegs_of_rel {m : Nat} {l : List Nat} {a b : Dev} (h : Rel m a b) (hm : m.testBit (bit .regs) = false := by decide) :
    OnlyRegs l a b := onlyRegs_of_regs_eq (h.same .regs hm)

theorem out_of_rel {m : Nat} {a b : Dev} (h : Rel m a b) (hm : m.testBit (bit .out) = false := by decide) : b.out = a.out :=
  h.same .out hm

/-! A wake from Quiet touches no register but PWR_STAT (R517). -/

theorem onlyRegs_wakeFrom (d : Dev) (src : Nat) : OnlyRegs [Reg.PWR_STAT] d (d.wakeFrom src) := by
  unfold Dev.wakeFrom
  split
  · exact onlyRegs_trans (onlyRegs_setReg (by simp) _ _)
      (onlyRegs_trans (onlyRegs_setReg (by simp) _ _) (onlyRegs_of_regs_eq rfl))
  · exact fun _ _ => rfl

/-! Functions. -/

/-- Only what the PBA held is taken out of it; the rest of the function's configuration stays (R568). -/
theorem fnGet_msixFlush (d : Dev) (f : Fn) :
    { (d.msixFlush f).fnGet f with pba := [] } = { d.fnGet f with pba := [] } := by
  unfold Dev.msixFlush
  dsimp only
  generalize ((d.fnGet f).pba.map (·.1)).eraseDups = vecs
  induction vecs generalizing d with
  | nil => rfl
  | cons v r ih =>
    rw [List.foldl_cons, ih]
    split
    · show { (Dev.fnPut d f _).fnGet f with pba := [] } = _
      rw [fnGet_fnPut_self]
    · rfl

/-- A word with a bit set is not 0. -/
theorem or_two_pow_ne_zero {i : Nat} (hi : i < 32) (w : Word) : w ||| BitVec.ofNat 32 (2 ^ i) ≠ 0#32 := by
  intro h
  have hb := congrArg (BitVec.getLsbD · i) h
  simp only [BitVec.getLsbD_or, BitVec.getLsbD_ofNat, hi, decide_true, Nat.testBit_two_pow_self, Bool.and_self, Bool.or_true,
    Nat.zero_testBit, Bool.and_false, Bool.true_eq_false] at hb

end Sys2Proof.Proofs

/-! Host links, configuration requests and fatal TLP errors (R39, R43, R44, R60, R65 to R68, R511). -/

namespace Sys2Proof.Proofs

open Sys2Proof Sys2Proof.Machine Sys2Proof.Laws

theorem exec_pcieLinkUp (p speed width : Nat) (flit : Bool) (s : State) :
    exec (.pcieLinkUp p speed width flit) s = s.run (·.pcieLinkUp p speed width flit) := rfl

theorem exec_pcieLinkDown (p : Nat) (s : State) : exec (.pcieLinkDown p) s = s.run (·.pcieLinkDown p) := rfl

theorem exec_refclkPcieLost (p : Nat) (s : State) : exec (.refclkPcieLost p) s = s.run (·.pcieLinkDown p) := rfl

theorem exec_configRequest (f : Fn) (bus : Nat) (op : CfgOp) (s : State) :
    exec (.configRequest f bus op) s = s.run (·.configRequest f bus op) := rfl

theorem exec_fatalTlpError (p : Nat) (k : FatalErr) (s : State) : exec (.fatalTlpError p k) s = s.run (·.fatalTlp p k) := rfl

theorem exec_poisonedTlp (f : Fn) (bar : Nat) (s : State) :
    exec (.poisonedTlp f bar) s = s.run (fun d => if bar = 0 ∨ bar = 2 ∨ bar = 4 then d.poisonedTlp f else d) := rfl

/-! Links (R60, R67). -/

theorem pcieLinkUp_eq {d : Dev} {p : Nat} (hl : (d.hifPort p).linkUp = false) (hp : (d.hifPort p).perst = false) (speed width : Nat)
    (flit : Bool) :
    d.pcieLinkUp p speed width flit = (d.setHifPort p { d.hifPort p with
      linkUp := true, speed := speed % 16, width := width % 32, flit := flit, l1 := false,
      ups := min ((d.hifPort p).ups + 1) 0xFF }).wakeFrom 5 := by
  simp [Dev.pcieLinkUp, hl, hp]

/-- The port's link is down, with no read queued or outstanding. -/
structure LinkGone (x : HifPort) : Prop where
  link : x.linkUp = false
  tags : x.tags = []
  reads : x.readQ = []

/-- Writing a port whose link is gone leaves it so; a port that does not exist has no link. -/
theorem linkGone_setHifPort (d : Dev) (p : Nat) {x : HifPort} (h : LinkGone x) : LinkGone ((d.setHifPort p x).hifPort p) := by
  obtain e | e := hifPort_setHifPort_cases d p x <;> rw [e]
  · exact h
  · exact ⟨rfl, rfl, rfl⟩

/-- What a reset of the port leaves of its link and of the requests that were on their way through it (R60, R67). -/
theorem portReset_spec (d : Dev) (p : Nat) (all : Bool) :
    LinkGone ((d.portReset p all).hifPort p) ∧ (∀ x ∈ (d.portReset p all).hif.pageReqs, x.xlat.port ≠ p) ∧
      (∀ x ∈ (d.portReset p all).hif.xlats, x.port ≠ p) ∧ ∀ x ∈ (d.portReset p all).hif.atc, x.port ≠ p := by
  unfold Dev.portReset
  dsimp only
  generalize Dev.fnClear _ _ _ = e
  refine ⟨?_, fun x hx => ?_, fun x hx => ?_, fun x hx => ?_⟩
  · exact linkGone_setHifPort e p ⟨rfl, rfl, rfl⟩
  · exact of_decide_eq_true (List.mem_filter.1 hx).2
  · exact of_decide_eq_true (List.mem_filter.1 hx).2
  · exact of_decide_eq_true (List.mem_filter.1 hx).2

theorem pcieLinkDown_eq {d : Dev} {p : Nat} (hl : (d.hifPort p).linkUp = true) :
    d.pcieLinkDown p = (d.portReset p false).setBit (Reg.HIF_STAT p) 1 := by simp [Dev.pcieLinkDown, hl]

/-- A link that goes down frees the reads, translations and page requests of its port, and LINK_DOWN is noted (R60). -/
theorem pcieLinkDown_spec {d : Dev} {p : Nat} (hl : (d.hifPort p).linkUp = true) :
    LinkGone ((d.pcieLinkDown p).hifPort p) ∧ (d.pcieLinkDown p).regBit (Reg.HIF_STAT p) 1 = true ∧
      (∀ x ∈ (d.pcieLinkDown p).hif.pageReqs, x.xlat.port ≠ p) ∧ (∀ x ∈ (d.pcieLinkDown p).hif.xlats, x.port ≠ p) ∧
      ∀ x ∈ (d.pcieLinkDown p).hif.atc, x.port ≠ p := by
  obtain ⟨hgone, hrest⟩ := portReset_spec d p false
  rw [pcieLinkDown_eq hl]
  refine ⟨?_, regBit_setBit_self (by decide) _ _, ?_⟩
  · rwa [Dev.hifPort, hif_setBit]
  · rwa [hif_setBit]

/-! Configuration requests (R39, R43, R44, R68). -/

theorem configRequest_retry {d : Dev} {f : Fn} (hl : (d.hifPort f.port).linkUp = true) (hr : d.regBit Reg.GLB_STAT 0 = false) (bus : Nat)
    (op : CfgOp) : d.configRequest f bus op = d.emit (.retryStatus f.port) := by
  simp [Dev.configRequest, hl, hr]

section
variable {d : Dev} {f : Fn} (hl : (d.hifPort f.port).linkUp = true) (hr : d.regBit Reg.GLB_STAT 0 = true) (bus : Nat)
include hl hr

theorem configRequest_read {off : Nat} {w : Word} (hw : d.cfgDword f (off / 4 * 4) = some w) :
    d.configRequest f bus (.read off) = d.emit (.readDone f.port (leBytes 4 w.toNat)) := by
  simp [Dev.configRequest, hl, hr, hw]

theorem configRequest_read_free {off : Nat} (hw : d.cfgDword f (off / 4 * 4) = none) :
    d.configRequest f bus (.read off) = d.draw.2.emit (.readDone f.port (freeBytes d.serial 4)) := by
  simp [Dev.configRequest, hl, hr, hw, Dev.draw]

theorem configRequest_write (x : CfgField) (v : Nat) :
    d.configRequest f bus (.write x v) =
      ((d.setHifPort f.port { d.hifPort f.port with bus := bus % 256 }).fnPut f ((d.fnGet f).write x v)).msixFlush f := by
  simp only [Dev.configRequest, hl, hr, Bool.not_true, Bool.false_eq_true, if_false]
  rfl

end

/-! Errors of TLPs (R65). -/

/-- A fatal error leaves the port's other state and notes some uncorrectable error of its function 0. -/
theorem fatalTlp_spec (d : Dev) (p : Nat) (k : FatalErr) :
    (d.fatalTlp p k).hif.ports = d.hif.ports.set p { d.hifPort p with fatal := true } ∧
      ((d.fatalTlp p k).fnGet (fn0 p)).aer.unc ≠ 0#32 := by
  have hbit : ∀ i, i < 32 → ∀ header, (((d.setHifPort p { d.hifPort p with fatal := true }).aerUnc (fn0 p) i header).fnGet
      (fn0 p)).aer.unc ≠ 0#32 := fun i hi header => by
    rw [fnGet_aerUnc_unc]
    exact or_two_pow_ne_zero hi _
  refine ⟨ports_of_rel (rel_Dev_aerUnc ..), ?_⟩
  cases k <;> exact hbit _ (by decide) _

/-- Settles O10, clause by clause: what each command comes down to on a port in the state that the clause names. -/
theorem hostLinks : Obligations.HostLinks := by
  unfold Obligations.HostLinks
  refine ⟨?linkUp, ?linkDown, ?clockLost, ?retry, ?read, ?readFree, ?write, ?fatal, ?poisoned⟩
  case linkUp =>
    intro s p speed width flit hs hl hp
    refine runs_of_run_eq hs (exec_pcieLinkUp ..) (pcieLinkUp_eq hl hp speed width flit) ?_
    exact ⟨ports_of_rel (rel_Dev_wakeFrom ..), onlyRegs_trans (onlyRegs_of_regs_eq (setHifPort_regs ..)) (onlyRegs_wakeFrom _ _)⟩
  case linkDown =>
    intro s p hs hl
    obtain ⟨⟨hlink, htags, hreads⟩, hrest⟩ := pcieLinkDown_spec hl
    exact runs_of_run hs (exec_pcieLinkDown ..) ⟨hlink, htags, hreads, hrest⟩
  case clockLost =>
    intro s p hs hl
    obtain ⟨⟨hlink, htags, hreads⟩, hstat, -⟩ := pcieLinkDown_spec hl
    exact runs_of_run hs (exec_refclkPcieLost ..) ⟨hlink, htags, hreads, hstat⟩
  case retry =>
    intro s f bus op hs hl hr
    exact runs_of_run_eq hs (exec_configRequest ..) (configRequest_retry hl hr bus op) ⟨rfl, agree_of_rel_mask (rel_Dev_emit ..)⟩
  case read =>
    intro s f bus off w hs hl hr hw
    exact runs_of_run_eq hs (exec_configRequest ..) (configRequest_read hl hr bus hw) ⟨rfl, agree_of_rel_mask (rel_Dev_emit ..)⟩
  case readFree =>
    intro s f bus off hs hl hr hw
    refine runs_of_run_eq hs (exec_configRequest ..) (configRequest_read_free hl hr bus hw) ⟨⟨_, by simp [freeBytes], rfl⟩, ?_⟩
    exact agree_of_rel_mask (((rel_Dev_draw s.dev).mono (by decide)).trans ((rel_Dev_emit ..).mono (by decide)))
  case write =>
    intro s f bus v x hs hl hr
    have hregs : OnlyRegs [] s.dev (s.dev.configRequest f bus (.write x v)) := onlyRegs_of_rel (rel_Dev_configRequest ..)
    rw [configRequest_write hl hr] at hregs
    refine runs_of_run_eq hs (exec_configRequest ..) (configRequest_write hl hr bus x v) ⟨?_, ?_, hregs⟩
    · exact ports_of_rel (rel_Dev_msixFlush ..)
    · rw [fnGet_msixFlush, fnGet_fnPut_self]
  case fatal =>
    intro s p k hs
    obtain ⟨hports, hunc⟩ := fatalTlp_spec s.dev p k
    exact runs_of_run hs (exec_fatalTlpError ..) ⟨hports, hunc, onlyRegs_of_rel (rel_Dev_fatalTlp ..)⟩
  case poisoned =>
    intro s f bar hs hbar
    have hrel := rel_Dev_aerUnc s.dev f 12 true
    exact runs_of_run_eq hs (exec_poisonedTlp ..) (if_pos hbar)
      ⟨fnGet_aerUnc_unc s.dev f 12 true, onlyRegs_of_rel hrel, onlyBytes_of_hbm_eq (hrel.same .hbm (by decide))⟩

end Sys2Proof.Proofs

/-! Requests in flight: what a failed one leaves, the translation cache and the tags (R46, R48, R50, R51, R53). -/

namespace Sys2Proof.Proofs

open Sys2Proof Sys2Proof.Machine Sys2Proof.Laws

/-! Registers written once, between steps that touch none. -/

theorem stored_spec {a e b : Dev} {off : Nat} {w : Word} (h : e.regs = a.regs) (k : b.regs = (e.setReg off w).regs) :
    b.reg off = w ∧ OnlyRegs [off] a b := by
  refine ⟨(reg_of_regs_eq k off).trans (reg_setReg_self ..), ?_⟩
  exact onlyRegs_trans (onlyRegs_of_regs_eq h) (onlyRegs_trans (onlyRegs_setReg (List.mem_singleton_self _) e w) (onlyRegs_of_regs_eq k))

theorem counted_spec {a e b : Dev} {off : Nat} (h : e.regs = a.regs) (k : b.regs = (e.count off).regs) :
    b.reg off = counterAdd (a.reg off) 1 ∧ OnlyRegs [off] a b := by
  rw [← reg_of_regs_eq h]
  exact stored_spec h k

/-! Reads of the device's engines (R53). -/

@[simp] theorem engGet_engPut_self (d : Dev) (id : Nat) (x : EngRead) : (d.engPut id x).engGet id = x := by
  simp [Dev.engGet, Dev.engPut, kvGet, kvFind_kvPut_self]

theorem engGet_of_rel {m : Nat} {a b : Dev} (h : Rel m a b) (id : Nat) (hm : m.testBit (bit .hifReq) = false := by decide) :
    b.engGet id = a.engGet id := by
  obtain ⟨-, -, -, -, heng, -⟩ := h.same .hifReq hm
  simp only [Dev.engGet, heng]

theorem refFail_eng (d : Dev) (id st det : Nat) :
    d.refFail (.eng id) st det =
      (d.dropReads (.eng id)).engPut id { (d.dropReads (.eng id)).engGet id with err := some (st, det), need := 0 } := rfl

/-- A failed read of an engine: the engine is told, and the reads it still has queued are forgotten. Nothing but requests changes. -/
theorem rel_refFail_eng (d : Dev) (id st det : Nat) : Rel (maskOf [.hifPorts, .hifReq]) d (d.refFail (.eng id) st det) :=
  ((rel_Dev_dropReads d (.eng id)).mono (by decide)).trans ((rel_Dev_engPut ..).mono (by decide))

theorem engGet_refFail_eng (d : Dev) (id st det : Nat) :
    ((d.refFail (.eng id) st det).engGet id).err = some (st, det) ∧ ((d.refFail (.eng id) st det).engGet id).need = 0 := by
  rw [refFail_eng, engGet_engPut_self]
  exact ⟨rfl, rfl⟩

/-- Reads queued are forgotten; those that hold a tag keep it. -/
theorem tags_dropReads (d : Dev) (ref : JobRef) (p : Nat) : ((d.dropReads ref).hifPort p).tags = (d.hifPort p).tags := by
  simp only [Dev.hifPort, Dev.dropReads, List.getD_eq_getElem?_getD, List.getElem?_map]
  cases d.hif.ports[p]? <;> rfl

theorem tags_refFail_eng (d : Dev) (id st det p : Nat) : ((d.refFail (.eng id) st det).hifPort p).tags = (d.hifPort p).tags := by
  rw [refFail_eng, hifPort_of_rel (rel_Dev_engPut ..)]
  exact tags_dropReads ..

theorem engGet_engData (d : Dev) (id off : Nat) (b : List Byte) :
    (d.engData id off b).engGet id =
      { d.engGet id with got := kvPut off b (d.engGet id).got, need := (d.engGet id).need - b.length } := engGet_engPut_self ..

/-! Tags (R51). -/

theorem tags_tagFree {d : Dev} {p : Nat} (hp : p < d.hif.ports.length) (v : Nat) :
    ((d.tagFree p v).hifPort p).tags = kvDel v (d.hifPort p).tags := by
  rw [Dev.tagFree, hifPort_setHifPort_self hp]

theorem kvFind_tags_tagFree {d : Dev} {p v : Nat} {x : Tag} (h : kvFind v (d.hifPort p).tags = some x) :
    kvFind v ((d.tagFree p v).hifPort p).tags = none := by
  rw [tags_tagFree (lt_ports_of_tag h)]
  exact kvFind_kvDel_self v _

end Sys2Proof.Proofs

/-! Address translation (R46 to R48). -/

namespace Sys2Proof.Proofs

open Sys2Proof Sys2Proof.Machine Sys2Proof.Laws

theorem exec_translationCompletion (p id log2 addr : Nat) (r w : Bool) (e : ReadEnd) (s : State) :
    exec (.translationCompletion p id log2 addr r w e) s = s.run (·.xlatDone p id log2 addr r w e) := rfl

theorem exec_pageRequestResponse (g code : Nat) (s : State) : exec (.pageRequestResponse g code) s = s.run (·.pageResponse g code) := rfl

theorem exec_priTimeout (g : Nat) (s : State) : exec (.priTimeout g) s = s.run (·.priTimeout g) := rfl

theorem exec_invalidationRequest (p itag : Nat) (f : Fn) (pasid : Option Nat) (page log2 : Nat) (s : State) :
    exec (.invalidationRequest p itag f pasid page log2) s = s.run (·.invRequest p itag f pasid page log2) := rfl

theorem exec_invalidationCompletion (p : Nat) (s : State) : exec (.invalidationCompletion p) s = s.run (·.invComplete p) := rfl

/-! Completions of translation requests (R46, R48). -/

/-- The device once the translation request of a tag has ended. -/
def xlatTaken (d : Dev) (p id : Nat) : Dev :=
  { d with hif := { d.hif with xlats := d.hif.xlats.filter (fun y => !decide (y.port = p ∧ y.id = id)) } }

/-- What a completed translation puts in the cache. -/
def atcOf (p : Nat) (x : XlatReq) (log2 addr : Nat) (w : Bool) : AtcEntry :=
  { port := p, fn := x.fn, pasid := x.pasid, page := x.page / 2 ^ (max 12 (min log2 30) - 12) * 2 ^ (max 12 (min log2 30) - 12),
    log2 := max 12 (min log2 30), addr := addr, write := w }

/-- A translation just added is in the cache, whatever it made room for. -/
theorem mem_atcAdd (d : Dev) (e : AtcEntry) : e ∈ (d.atcAdd e).hif.atc := by
  unfold Dev.atcAdd
  dsimp only
  rw [List.drop_append_of_le_length (by omega)]
  exact List.mem_append_right _ (List.mem_singleton_self _)

section
variable {d : Dev} {p id : Nat} {r w : Bool} {e : ReadEnd} {x : XlatReq}
  (hx : d.hif.xlats.find? (fun x => decide (x.port = p ∧ x.id = id)) = some x) (he : e.err = none) (hs : x.stale = false)
  (log2 addr : Nat)
include hx he hs

theorem xlatDone_granted (hok : (if x.write then w else r) = true) :
    d.xlatDone p id log2 addr r w e = (xlatTaken d p id).atcAdd (atcOf p x log2 addr w) := by
  simp only [Dev.xlatDone, hx, he, hs, hok, Bool.false_eq_true, if_false, Bool.not_true]
  rfl

theorem xlatDone_asksPage (hok : (if x.write then w else r) = false) (hp : (d.fnGet x.fn).pri = true)
    (hst : (d.fnGet x.fn).priStopped = false) (hfit : d.pageReqFits x.fn = true) :
    d.xlatDone p id log2 addr r w e = (xlatTaken d p id).pageAsk x := by
  have hp' : ((xlatTaken d p id).fnGet x.fn).pri = true := hp
  have hst' : ((xlatTaken d p id).fnGet x.fn).priStopped = false := hst
  have hfit' : (xlatTaken d p id).pageReqFits x.fn = true := hfit
  unfold Dev.xlatDone
  simp only [hx, he, hs, hok, Bool.false_eq_true, if_false, Bool.not_false, if_true]
  rw [xlatTaken] at hp' hst' hfit'
  simp only [hp', hst', hfit', Bool.not_false, and_self, if_true]
  rfl

end

/-! Page requests (R48). -/

section
variable {d : Dev} {g : Nat} {x : PageReq} (hx : d.hif.pageReqs.find? (fun r => decide (r.group = g)) = some x)
include hx

theorem pageResponse_success : d.pageResponse g 0 = d.pageDrop g := by
  simp [Dev.pageResponse, hx]

/-- A failure of a page request that no job waits for stops the function's page requests. -/
theorem pageResponse_failure (hr : x.rx = true) {code : Nat} (hc : 2 ≤ code) :
    d.pageResponse g code = (d.pageDrop g).fnPut x.xlat.fn { (d.pageDrop g).fnGet x.xlat.fn with priStopped := true } := by
  have h0 : ¬ code = 0 := by omega
  have h1 : ¬ code = 1 := by omega
  simp only [Dev.pageResponse, hx, hr, h0, h1, or_true, or_self, if_true, if_false]

theorem priTimeout_rx (hr : x.rx = true) : d.priTimeout g = d.pageDrop g := by
  simp [Dev.priTimeout, hx, hr]

theorem priTimeout_job (hr : x.rx = false) : d.priTimeout g = (d.pageDrop g).refFail x.xlat.ref St.TIMEOUT 2 := by
  simp [Dev.priTimeout, hx, hr]

end

/-- The reads of an engine that failed take no page request with them. -/
theorem pageReqs_refFail_eng (d : Dev) (id st det : Nat) : (d.refFail (.eng id) st det).hif.pageReqs = d.hif.pageReqs := rfl

/-! Invalidations (R47). -/

/-- The invalidation that a request queues, with the tags of the reads that it waits for. -/
def invQueued (d : Dev) (p itag : Nat) (f : Fn) (pasid : Option Nat) (page log2 : Nat) : InvReq :=
  let i : InvReq := { itag := itag, fn := f, pasid := pasid, page := page, log2 := log2, using_ := [] }
  { i with using_ := ((d.hifPort p).tags.filter (fun t => !t.2.quarantined &&
      i.covers t.2.req.fn (d.tenGet t.2.req.ten).pasid (t.2.req.addr / 4096) 12)).map (·.1) }

/-- A request that the queue takes joins it, and the cache keeps only what it does not cover. -/
theorem invRequest_spec {d : Dev} {p : Nat} (h : (d.hifPort p).inv.length < 32) (itag : Nat) (f : Fn) (pasid : Option Nat)
    (page log2 : Nat) :
    (d.invRequest p itag f pasid page log2).hif.ports = d.hif.ports.set p { d.hifPort p with
      inv := (d.hifPort p).inv ++ [invQueued d p itag f pasid page log2] } ∧
    (d.invRequest p itag f pasid page log2).hif.atc =
      d.hif.atc.filter (fun e => !(decide (e.port = p) &&
        InvReq.covers { itag := itag, fn := f, pasid := pasid, page := page, log2 := log2, using_ := [] } e.fn e.pasid e.page e.log2)) := by
  unfold Dev.invRequest
  dsimp only
  rw [if_neg (Nat.not_le.2 h)]
  exact ⟨rfl, rfl⟩

/-- What an invalidation covers: the function, its PASID or any, and a page that overlaps. -/
theorem covers_iff (i : InvReq) (f : Fn) (pasid : Option Nat) (page log2 : Nat) :
    i.covers f pasid page log2 = true ↔ i.fn = f ∧ (i.pasid = none ∨ i.pasid = pasid) ∧
      page * 4096 < i.page * 4096 + 2 ^ i.log2 ∧ i.page * 4096 < page * 4096 + 2 ^ log2 := by
  simp only [InvReq.covers, Bool.and_eq_true, Bool.or_eq_true, decide_eq_true_eq, Option.isNone_iff_eq_none, and_assoc]

theorem invComplete_eq {d : Dev} {p : Nat} {i : InvReq} {r : List InvReq} (h : (d.hifPort p).inv = i :: r) (hu : i.using_ = []) :
    d.invComplete p = (d.setHifPort p { d.hifPort p with inv := r }).emit (.invDone p i.itag) := by
  simp [Dev.invComplete, h, hu]

/-- Settles O12, clause by clause: what each answer or time-out does to the requests in flight and to the cache. -/
theorem translation : Obligations.Translation := by
  unfold Obligations.Translation
  refine ⟨?granted, ?asksPage, ?pageEnds, ?invalidate, ?invDone⟩
  case granted =>
    intro s p id log2 addr r w e x hs hx he hst hok
    have hrel := rel_Dev_atcAdd (xlatTaken s.dev p id) (atcOf p x log2 addr w)
    refine runs_of_run_eq hs (exec_translationCompletion ..) (xlatDone_granted hx he hst log2 addr hok) ⟨?_, rfl, ?_⟩
    · exact ⟨_, mem_atcAdd .., rfl, rfl, rfl, rfl, rfl, rfl⟩
    · exact onlyRegs_of_regs_eq (hrel.same .regs (by decide))
  case asksPage =>
    intro s p id log2 addr r w e x hs hx he hst hok hp hstop hfit
    exact runs_of_run_eq hs (exec_translationCompletion ..) (xlatDone_asksPage hx he hst log2 addr hok hp hstop hfit) ⟨rfl, rfl, rfl⟩
  case pageEnds =>
    intro s g x hs hx
    have hdrop : Agree [.hifReq] s.dev (s.dev.pageDrop g) := agree_of_rel_mask (rel_Dev_pageDrop ..)
    refine ⟨?success, fun hr code hc => ?failure, fun hr => ?rxTimeout, fun id hr href => ?engTimeout⟩
    case success => exact runs_of_run_eq hs (exec_pageRequestResponse ..) (pageResponse_success hx) ⟨rfl, hdrop⟩
    case failure =>
      refine runs_of_run_eq hs (exec_pageRequestResponse ..) (pageResponse_failure hx hr hc) ⟨rfl, ?_⟩
      rw [fnGet_fnPut_self]
    case rxTimeout => exact runs_of_run_eq hs (exec_priTimeout ..) (priTimeout_rx hx hr) ⟨rfl, hdrop⟩
    case engTimeout =>
      have heq := priTimeout_job hx hr
      rw [href] at heq
      exact runs_of_run_eq hs (exec_priTimeout ..) heq ⟨pageReqs_refFail_eng .., engGet_refFail_eng ..⟩
  case invalidate =>
    intro s p itag f pasid page log2 hs hlen
    obtain ⟨hports, hatc⟩ := invRequest_spec hlen itag f pasid page log2
    refine runs_of_run hs (exec_invalidationRequest ..) ⟨⟨_, hports⟩, fun c hc => ?_, onlyRegs_of_rel (rel_Dev_invRequest ..)⟩
    rw [hatc] at hc
    obtain ⟨hmem, hnot⟩ := List.mem_filter.1 hc
    refine ⟨hmem, fun ⟨hport, hfn, hpasid, hlo, hhi⟩ => ?_⟩
    have hcov := (covers_iff { itag := itag, fn := f, pasid := pasid, page := page, log2 := log2, using_ := [] } c.fn c.pasid c.page
      c.log2).2 ⟨hfn.symm, hpasid, hhi, hlo⟩
    simp [hport, hcov] at hnot
  case invDone =>
    intro s p i r hs hi hu
    have hp : p < s.dev.hif.ports.length := lt_ports_of_ne fun e => by simp [e] at hi
    refine runs_of_run_eq hs (exec_invalidationCompletion ..) (invComplete_eq hi hu) ⟨rfl, ?_, onlyRegs_of_regs_eq rfl⟩
    exact congrArg HifPort.inv (hifPort_setHifPort_self hp _)

end Sys2Proof.Proofs

/-! Reads of host memory and their tags, and LTR messages (R46, R50 to R53, R55, R56). -/

namespace Sys2Proof.Proofs

open Sys2Proof Sys2Proof.Machine Sys2Proof.Laws

theorem exec_readIssue (p t : Nat) (s : State) : exec (.readIssue p t) s = s.run (·.readIssue p t) := rfl

theorem exec_readCompletion (p v : Nat) (e : ReadEnd) (s : State) :
    exec (.readCompletion p v e) s = s.run (·.readCompletion p v e) := rfl

theorem exec_completionTimeout (p v : Nat) (s : State) : exec (.completionTimeout p v) s = s.run (·.cplTimeout p v) := rfl

theorem exec_lateCompletion (p v : Nat) (s : State) : exec (.lateCompletion p v) s = s.run (·.lateCpl p v) := rfl

theorem exec_quarantineRelease (p v : Nat) (s : State) : exec (.quarantineRelease p v) s = s.run (·.quarRelease p v) := rfl

theorem exec_ltrSend (p : Nat) (s : State) : exec (.ltrSend p) s = s.run (·.ltrSend p) := rfl

/-- A read of a function without ATS is sent at once, under the tag v (R50, R51). -/
theorem readIssue_eq {d : Dev} {p t v : Nat} {r : ReadReq} (hr : (d.hifPort p).readQ.find? (fun r => decide (r.ten = t)) = some r)
    (hg : r.gen = (d.tenGet t).gen) (hb : (d.fnGet r.fn).bme = true) (hm : d.mayRequest p t = true) (hv : d.freeTag p = some v)
    (ha : (d.fnGet r.fn).ats = false) :
    d.readIssue p t = ((d.wakeLink p).setHifPort p { (d.wakeLink p).hifPort p with
      readQ := dropFirst t ((d.wakeLink p).hifPort p).readQ, tags := kvPut v { req := r } ((d.wakeLink p).hifPort p).tags }).emit
        (.readReq p v r.fn r.addr r.len) := by
  simp [Dev.readIssue, hr, hg, hb, hm, hv, ha]

/-- A read that comes back poisoned is noted in its function's AER (R65). -/
def poisonNoted (d : Dev) (f : Fn) (e : ReadEnd) : Dev :=
  match e with
  | .poisoned => d.aerUnc f 12 true
  | _ => d

theorem rel_poisonNoted (d : Dev) (f : Fn) (e : ReadEnd) : Rel 256 d (poisonNoted d f e) := by
  cases e
  case poisoned => exact rel_Dev_aerUnc ..
  all_goals exact .refl ..

/-- The device with a tag in quarantine. -/
def tagQuarantined (d : Dev) (p v : Nat) (x : Tag) : Dev :=
  (d.tagFree p v).setHifPort p { (d.tagFree p v).hifPort p with
    tags := kvPut v { x with quarantined := true } ((d.tagFree p v).hifPort p).tags }

/-- The device once a tag has timed out: quarantined, counted, and noted in the function's AER (R51 step 4a). -/
def tagTimedOut (d : Dev) (p v : Nat) (x : Tag) : Dev :=
  ((tagQuarantined d p v x).count (Reg.HIF_CPL_TO_CNT p)).aerUnc x.req.fn 14 false

section
variable {d : Dev} {p v id : Nat} {e : ReadEnd} {x : Tag} (hx : kvFind v (d.hifPort p).tags = some x) (hq : x.quarantined = false)
  (href : x.req.ref = .eng id)
include hx hq href

theorem readCompletion_data (hg : x.req.gen = (d.tenGet x.req.ten).gen) (he : e.err = none) :
    d.readCompletion p v e =
      ((d.tagFree p v).tollAdd x.req.ten x.req.gen 1 x.req.len).engData id x.req.off (fitTo x.req.len e.bytes) := by
  have hg' : x.req.gen = ((d.tagFree p v).tenGet x.req.ten).gen := hg
  cases e
  case data b => simp [Dev.readCompletion, hx, hq, href, hg', ReadEnd.err]
  all_goals cases he

theorem readCompletion_error (hg : x.req.gen = (d.tenGet x.req.ten).gen) {st det : Nat} (he : e.err = some (st, det)) :
    d.readCompletion p v e = (poisonNoted (d.tagFree p v) x.req.fn e).refFail (.eng id) st det := by
  have hg' : x.req.gen = ((poisonNoted (d.tagFree p v) x.req.fn e).tenGet x.req.ten).gen := by
    cases e <;> exact hg
  unfold Dev.readCompletion
  simp only [hx, hq, Bool.false_eq_true, if_false]
  rw [if_neg (fun h => h.1 hg'), he, href]
  rfl

theorem cplTimeout_eq : d.cplTimeout p v = (tagTimedOut d p v x).refFail (.eng id) St.TIMEOUT 1 := by
  simp only [Dev.cplTimeout, hx, hq, href, Bool.false_eq_true, if_false]
  rfl

end

/-- A tag that timed out stays in use, quarantined. -/
theorem kvFind_tags_tagTimedOut {d : Dev} {p v : Nat} (hp : p < d.hif.ports.length) (x : Tag) :
    kvFind v ((tagTimedOut d p v x).hifPort p).tags = some { x with quarantined := true } := by
  have hp' : p < (d.tagFree p v).hif.ports.length := by rwa [Dev.tagFree, length_ports_setHifPort]
  rw [tagTimedOut, hifPort_of_rel (rel_Dev_aerUnc ..), hifPort_of_rel (rel_Dev_count ..), tagQuarantined, hifPort_setHifPort_self hp']
  exact kvFind_kvPut_self ..

theorem lateCpl_eq {d : Dev} {p v : Nat} {x : Tag} (hx : kvFind v (d.hifPort p).tags = some x) (hq : x.quarantined = true) :
    d.lateCpl p v = ((d.tagFree p v).count (Reg.HIF_LATE_CPL p)).aerAdvisory x.req.fn 16 := by
  simp [Dev.lateCpl, hx, hq]

theorem quarRelease_eq {d : Dev} {p v : Nat} {x : Tag} (hx : kvFind v (d.hifPort p).tags = some x) (hq : x.quarantined = true) :
    d.quarRelease p v = d.tagFree p v := by
  simp [Dev.quarRelease, hx, hq]

/-- The first LTR message of a link (R55, R56). -/
theorem ltrSend_first {d : Dev} {p : Nat} (hen : (d.fnGet (.pf (8 * p))).ltr = true) (hl : (d.hifPort p).linkUp = true)
    (hr : (d.hifPort p).ltrRung = none) :
    d.ltrSend p = ((d.setHifPort p { d.hifPort p with ltrRung := some (ltrRungOf (d.ltrTolerance p)), ltrAt := d.nowNs }).setReg
      (Reg.HIF_LTR_LAST p) (BitVec.ofNat 32 (ltrEncode (ltrRungOf (d.ltrTolerance p) * 1000)))).emit
        (.ltr p (ltrEncode (ltrRungOf (d.ltrTolerance p) * 1000))) := by
  simp [Dev.ltrSend, fn0, hen, hl, hr]

/-- Settles O13, clause by clause: a read takes a tag, and what each way for it to end does with the tag and the work that asked. -/
theorem readsAndTags : Obligations.ReadsAndTags := by
  unfold Obligations.ReadsAndTags
  refine ⟨?issue, ?completion, ?timeout, ?quarantined, ?ltr⟩
  case issue =>
    intro s p t v r hs hr hg hb hm hv ha
    have hp : p < s.dev.hif.ports.length := lt_ports_of_ne fun e => by simp [e] at hr
    have hwake : (s.dev.wakeLink p).hifPort p = { s.dev.hifPort p with l1 := false } := hifPort_setHifPort_self hp _
    have hself := hifPort_setHifPort_self (d := s.dev.wakeLink p) (by rwa [Dev.wakeLink, length_ports_setHifPort])
      { (s.dev.wakeLink p).hifPort p with
        readQ := dropFirst t ((s.dev.wakeLink p).hifPort p).readQ, tags := kvPut v { req := r } ((s.dev.wakeLink p).hifPort p).tags }
    refine runs_of_run_eq hs (exec_readIssue ..) (readIssue_eq hr hg hb hm hv ha) ⟨rfl, ?_, ?_, ?_, onlyRegs_of_regs_eq rfl⟩
    · rw [hifPort_of_rel (rel_Dev_emit ..), hself]
      exact kvFind_kvPut_self ..
    · rw [hifPort_of_rel (rel_Dev_emit ..), hself, hwake]
    · rw [hifPort_of_rel (rel_Dev_emit ..), hself, hwake]
  case completion =>
    intro s p v id e x hs hx hq href hg
    have hfree := kvFind_tags_tagFree hx
    refine ⟨fun he => ?data, fun st det he => ?error⟩
    case data =>
      have htoll := rel_Dev_tollAdd (s.dev.tagFree p v) x.req.ten x.req.gen 1 x.req.len
      have heng : ((s.dev.tagFree p v).tollAdd x.req.ten x.req.gen 1 x.req.len).engGet id = s.dev.engGet id :=
        (engGet_of_rel htoll id).trans (engGet_of_rel (rel_Dev_tagFree ..) id)
      refine runs_of_run_eq hs (exec_readCompletion ..) (readCompletion_data hx hq href hg he) ⟨?_, ?_, ?_⟩
      · rwa [hifPort_of_rel (rel_Dev_engData ..), hifPort_of_rel htoll]
      · rw [engGet_engData]
        exact kvFind_kvPut_self ..
      · rw [engGet_engData, heng, fitTo_length]
    case error =>
      refine runs_of_run_eq hs (exec_readCompletion ..) (readCompletion_error hx hq href hg he) ⟨?_, engGet_refFail_eng ..⟩
      rwa [tags_refFail_eng, hifPort_of_rel (rel_poisonNoted ..)]
  case timeout =>
    intro s p v id x hs hx hq href
    have hfail := rel_refFail_eng (tagTimedOut s.dev p v x) id St.TIMEOUT 1
    obtain ⟨herr, -⟩ := engGet_refFail_eng (tagTimedOut s.dev p v x) id St.TIMEOUT 1
    have hregs : ((tagTimedOut s.dev p v x).refFail (.eng id) St.TIMEOUT 1).regs =
        ((tagQuarantined s.dev p v x).count (Reg.HIF_CPL_TO_CNT p)).regs :=
      same_trans (p := .regs) ((rel_Dev_aerUnc ..).same .regs (by decide)) (hfail.same .regs (by decide))
    refine runs_of_run_eq hs (exec_completionTimeout ..) (cplTimeout_eq hx hq href) ⟨?_, herr, counted_spec rfl hregs⟩
    rw [tags_refFail_eng]
    exact kvFind_tags_tagTimedOut (lt_ports_of_tag hx) x
  case quarantined =>
    intro s p v x hs hx hq
    have hfree := kvFind_tags_tagFree hx
    refine ⟨?late, ?release⟩
    case late =>
      have haer := rel_Dev_aerAdvisory ((s.dev.tagFree p v).count (Reg.HIF_LATE_CPL p)) x.req.fn 16
      refine runs_of_run_eq hs (exec_lateCompletion ..) (lateCpl_eq hx hq) ⟨?_, counted_spec rfl (haer.same .regs (by decide))⟩
      rwa [hifPort_of_rel haer, hifPort_of_rel (rel_Dev_count ..)]
    case release =>
      exact runs_of_run_eq hs (exec_quarantineRelease ..) (quarRelease_eq hx hq) ⟨hfree, agree_of_rel_mask (rel_Dev_tagFree ..)⟩
  case ltr =>
    intro s p hs hen hl hr
    have hself := hifPort_setHifPort_self (lt_ports_of_linkUp hl)
      { s.dev.hifPort p with ltrRung := some (ltrRungOf (s.dev.ltrTolerance p)), ltrAt := s.dev.nowNs }
    have heq := ltrSend_first hen hl hr
    generalize ltrRungOf (s.dev.ltrTolerance p) = rung at *
    generalize ltrEncode (rung * 1000) = v at *
    obtain ⟨hlast, honly⟩ := stored_spec (off := Reg.HIF_LTR_LAST p) (w := BitVec.ofNat 32 v) (setHifPort_regs s.dev p
      { s.dev.hifPort p with ltrRung := some rung, ltrAt := s.dev.nowNs }) (emit_regs _ (.ltr p v))
    refine runs_of_run_eq hs (exec_ltrSend ..) heq ⟨rfl, hlast, ?_, ?_, honly⟩ <;>
      rw [hifPort_of_rel (rel_Dev_emit ..), hifPort_of_rel (rel_Dev_setReg ..), hself]

end Sys2Proof.Proofs

/-! Doorbells (R42, R75, R81, R113, R115 to R119, R135, R137). -/

namespace Sys2Proof.Proofs

open Sys2Proof Sys2Proof.Machine Sys2Proof.Laws

theorem exec_sqDoorbell (f : Fn) (page off size : Nat) (v : Dword) (s : State) :
    exec (.sqDoorbell f page off size v) s = s.run (·.doorbell f page off size v) := rfl

theorem exec_doorbellInv (f : Fn) (page off size : Nat) (v : Dword) (s : State) :
    exec (.doorbellInv f page off size v) s = s.run (·.doorbell f page off size (v ||| 0x80000000#64)) := rfl

theorem exec_cqDoorbell (f : Fn) (page off size : Nat) (v : Dword) (s : State) :
    exec (.cqDoorbell f page off size v) s = s.run (·.doorbell f page off size v) := rfl

theorem exec_retasCiWrite (f : Fn) (page off size : Nat) (v : Dword) (s : State) :
    exec (.retasCiWrite f page off size v) s = s.run (·.doorbell f page off size v) := rfl

theorem exec_retasPiWrite (f : Fn) (page off size : Nat) (v : Dword) (s : State) :
    exec (.retasPiWrite f page off size v) s = s.run (·.doorbell f page off size v) := rfl

theorem exec_strayDoorbell (f : Fn) (page off size : Nat) (v : Dword) (s : State) :
    exec (.strayDoorbell f page off size v) s = s.run (·.doorbell f page off size v) := rfl

/-! Rings. -/

theorem kvFind_sqPut_self (d : Dev) (q : Nat) (x : Sq) : kvFind q (d.sqPut q x).ring.sqs = some x := kvFind_kvPut_self ..

theorem kvFind_cqPut_self (d : Dev) (c : Nat) (x : Cq) : kvFind c (d.cqPut c x).ring.cqs = some x := kvFind_kvPut_self ..

/-! Where a write to a doorbell page goes (R42, R75, R115). -/

theorem doorbell_stray {d : Dev} {f : Fn} {page : Nat} (h : d.pageTen f page = none) (off size : Nat) (v : Dword) :
    d.doorbell f page off size v = d.count (Reg.HIF_DB_STRAY f.port) := by
  simp only [Dev.doorbell, h]

section
variable {d : Dev} {f : Fn} {page t : Nat} (hpage : d.pageTen f page = some t) (hlive : (d.tenGet t).st ≠ 5) {off size : Nat}
include hpage hlive

theorem doorbell_misaligned (hoff : off % 8 ≠ 0) (v : Dword) :
    d.doorbell f page off size v = d.count (Reg.RING_DB_BAD (d.tenGet t).owner) := by
  simp [Dev.doorbell, Dev.dbBad, hpage, hlive, hoff]

variable (hoff : off % 8 = 0) (hsize : size = 4 ∨ size = 8) (hpg : off < 4096)
include hoff hsize hpg

theorem doorbell_sq {q : Nat} {x : Sq} (hq : d.sqAt t (off / 8) = some (q, x)) (v : Dword) :
    d.doorbell f page off size v =
      if x.retas then d.dbRetasPi t q x (BitVec.ofNat 32 v.toNat) else d.dbSq t q x (BitVec.ofNat 32 v.toNat) := by
  simp only [Dev.doorbell, hpage, hlive, hoff, hsize, hpg, hq, and_self, not_true, if_false]

theorem doorbell_cq {c : Nat} {x : Cq} (hq : d.sqAt t (off / 8) = none) (hc : d.cqAt t (off / 8) = some (c, x)) (v : Dword) :
    d.doorbell f page off size v =
      if x.retas then d.dbRetasCi t c x (BitVec.ofNat 32 v.toNat) else d.dbCq t c x (BitVec.ofNat 32 v.toNat) := by
  simp only [Dev.doorbell, hpage, hlive, hoff, hsize, hpg, hq, hc, and_self, not_true, if_false]

end

/-! Submission rings (R116, R117, R119, R135). -/

/-- A submission ring whose tail has moved: a held ring runs again, unless a job of it failed (R117). -/
def sqMoved (x : Sq) (new : Nat) : Sq := { x with tail := new, state := if x.failed then x.state else 1 }

theorem dbSq_eq {x : Sq} {w : Word} {new : Nat} (hn : new = fld w 16 16 * x.size + fld w 15 0) (hidx : fld w 15 0 < x.size)
    (hroom : distFwd x.log2 x.started new ≤ x.size) (hfwd : distFwd x.log2 x.started x.tail ≤ distFwd x.log2 x.started new) (d : Dev)
    (t q : Nat) :
    d.dbSq t q x w = d.sqPut q (if bitOf w 31 then (sqMoved x new).dropCache else sqMoved x new) := by
  subst hn
  rw [Dev.dbSq, if_neg (by omega)]
  rfl

theorem dbRetasPi_eq {x : Sq} {w : Word} {new : Nat} (hn : new = posAdd x.log2 x.tail ((fld w 15 0 + x.size - x.tail % x.size) % x.size))
    (hidx : fld w 15 0 < x.size) (hroom : distFwd x.log2 x.started new < x.size) (d : Dev) (t q : Nat) :
    d.dbRetasPi t q x w = d.sqPut q (sqMoved x new) := by
  subst hn
  rw [Dev.dbRetasPi, if_neg (by omega), if_neg (by omega)]
  rfl

/-! Completion rings (R116, R130, R135). -/

/-- With nothing in the stash a drain writes no entry. -/
theorem stashDrainN_empty {d : Dev} {c : Nat} {x : Cq} (hx : kvFind c d.ring.cqs = some x) (hs : x.stash = []) (he : x.evtLost = 0)
    (n : Nat) : d.stashDrainN c n = d := by
  cases n with
  | zero => rfl
  | succ n =>
    unfold Dev.stashDrainN
    simp only [hx, hs, he, if_true, ite_self]

/-- So it leaves the ring as it is, its stall timer off. -/
theorem stashDrain_empty {d : Dev} {c : Nat} {x : Cq} (hx : kvFind c d.ring.cqs = some x) (hs : x.stash = []) (he : x.evtLost = 0) :
    d.stashDrain c = d.cqPut c { x with stallTimer := false } := by
  unfold Dev.stashDrain
  simp only [hx, stashDrainN_empty hx hs he]
  simp [Dev.stallUpdate, hx, hs]

/-- The head of a completion ring moves, and nothing waits in its stash (R116). -/
def headMoved (d : Dev) (c : Nat) (x : Cq) (new : Nat) : Dev := (d.cqPut c { x with head := new }).stashDrain c

theorem headMoved_spec {x : Cq} (hs : x.stash = []) (he : x.evtLost = 0) (d : Dev) (c new : Nat) :
    kvFind c (headMoved d c x new).ring.cqs = some { x with head := new, stallTimer := false } ∧
      Agree [.rings] d (headMoved d c x new) := by
  have hdrain : headMoved d c x new = (d.cqPut c { x with head := new }).cqPut c { x with head := new, stallTimer := false } :=
    stashDrain_empty (kvFind_cqPut_self ..) hs he
  rw [hdrain]
  exact ⟨kvFind_cqPut_self .., agree_of_rel_mask (((rel_Dev_cqPut ..).trans (rel_Dev_cqPut ..)).mono (by decide))⟩

theorem dbCq_eq {x : Cq} {w : Word} {new : Nat} (hn : new = fld w 16 16 * x.size + fld w 15 0) (hidx : fld w 15 0 < x.size)
    (hhead : distFwd x.log2 x.head new ≤ distFwd x.log2 x.head x.write) (d : Dev) (t c : Nat) :
    d.dbCq t c x w = headMoved d c x new := by
  subst hn
  rw [Dev.dbCq, if_neg (by omega)]
  rfl

theorem dbRetasCi_eq {x : Cq} {w : Word} {new : Nat} (hn : new = posAdd x.log2 x.head ((fld w 15 0 + x.size - x.head % x.size) % x.size))
    (hidx : fld w 15 0 < x.size) (hhead : distFwd x.log2 x.head new ≤ distFwd x.log2 x.head x.write) (d : Dev) (t c : Nat) :
    d.dbRetasCi t c x w = headMoved d c x new := by
  subst hn
  rw [Dev.dbRetasCi, if_neg (by omega), if_neg (by omega)]
  rfl

/-- Settles O19, clause by clause: which ring a write reaches, and the position that it moves; a bad or stray one only counts. -/
theorem doorbells : Obligations.Doorbells := by
  unfold Obligations.Doorbells
  refine ⟨?sq, ?cq, ?retasPi, ?stray, ?misaligned⟩
  case sq =>
    intro s f page off size t q new v w x hs hpage hlive hoff hsize hpg hq hn hnative hidx hroom hfwd
    have hput := dbSq_eq hn hidx hroom hfwd s.dev t q
    refine ⟨fun hw hinv => ?plain, fun hw hinv => ?inv⟩
    case plain =>
      rw [if_neg (by simp [hinv])] at hput
      refine runs_of_run hs (exec_sqDoorbell ..) ?_
      rw [doorbell_sq hpage hlive hoff hsize hpg hq, ← hw, if_neg (by simp [hnative]), hput]
      exact ⟨kvFind_sqPut_self .., agree_of_rel_mask (rel_Dev_sqPut ..)⟩
    case inv =>
      rw [if_pos hinv] at hput
      refine runs_of_run hs (exec_doorbellInv ..) ?_
      rw [doorbell_sq hpage hlive hoff hsize hpg hq, ← hw, if_neg (by simp [hnative]), hput]
      exact ⟨kvFind_sqPut_self .., agree_of_rel_mask (rel_Dev_sqPut ..)⟩
  case cq =>
    intro s f page off size t c new v w x hs hpage hlive hoff hsize hpg hq hc hw hstash hlost hidx
    have hmoved := headMoved_spec hstash hlost s.dev c new
    refine ⟨fun hnative hn hhead => ?native, fun hretas hn hhead => ?retasCi⟩
    case native =>
      refine runs_of_run hs (exec_cqDoorbell ..) ?_
      rwa [doorbell_cq hpage hlive hoff hsize hpg hq hc, ← hw, if_neg (by simp [hnative]), dbCq_eq hn hidx hhead]
    case retasCi =>
      refine runs_of_run hs (exec_retasCiWrite ..) ?_
      rwa [doorbell_cq hpage hlive hoff hsize hpg hq hc, ← hw, if_pos hretas, dbRetasCi_eq hn hidx hhead]
  case retasPi =>
    intro s f page off size t q new v w x hs hpage hlive hoff hsize hpg hq hw hretas hidx hn hroom
    refine runs_of_run hs (exec_retasPiWrite ..) ?_
    rw [doorbell_sq hpage hlive hoff hsize hpg hq, ← hw, if_pos hretas, dbRetasPi_eq hn hidx hroom]
    exact ⟨kvFind_sqPut_self .., agree_of_rel_mask (rel_Dev_sqPut ..)⟩
  case stray =>
    intro s f page off size v hs hpage
    obtain ⟨hcount, honly⟩ := counted_spec (a := s.dev) (off := Reg.HIF_DB_STRAY f.port) rfl rfl
    exact runs_of_run_eq hs (exec_strayDoorbell ..) (doorbell_stray hpage off size v)
      ⟨hcount, honly, agree_of_rel_mask (rel_Dev_count ..)⟩
  case misaligned =>
    intro s f page off size t v hs hpage hlive hoff
    obtain ⟨hcount, honly⟩ := counted_spec (a := s.dev) (off := Reg.RING_DB_BAD (s.dev.tenGet t).owner) rfl rfl
    exact runs_of_run_eq hs (exec_sqDoorbell ..) (doorbell_misaligned hpage hlive hoff v)
      ⟨hcount, honly, agree_of_rel_mask (rel_Dev_count ..)⟩

end Sys2Proof.Proofs

/-! Port modes, links, counters, pauses and low-power idle (R57, R172, R173, R177, R185, R188, R189). -/

namespace Sys2Proof.Proofs

open Sys2Proof Sys2Proof.Machine Sys2Proof.Laws

theorem exec_portApply (pf : Nat) (v : Word) (s : State) : exec (.portApply pf v) s = s.run (·.portApply pf v) := rfl

theorem exec_netLinkUp (p : Nat) (s : State) : exec (.netLinkUp p) s = s.run (·.netLinkUp p) := rfl

theorem exec_netLinkDown (p : Nat) (l r : Bool) (s : State) : exec (.netLinkDown p l r) s = s.run (·.netLinkDown p l r) := rfl

theorem exec_portCntSnap (pf p : Nat) (s : State) : exec (.portCntSnap pf p) s = s.run (·.portSnap pf p) := rfl

theorem exec_portCntRel (pf p : Nat) (v : Word) (s : State) : exec (.portCntRel pf p v) s = s.run (·.portRel pf p v) := rfl

theorem exec_pauseExpire (p c : Nat) (s : State) : exec (.pauseExpire p c) s = s.run (·.pauseExpire p c) := rfl

theorem exec_pauseRefresh (p : Nat) (s : State) : exec (.pauseRefresh p) s = s.run (·.pauseRefresh p) := rfl

theorem exec_lpiEntry (p : Nat) (tx : Bool) (s : State) : exec (.lpiEntry p tx) s = s.run (·.lpiEntry p tx) := rfl

theorem exec_lpiExit (p : Nat) (tx : Bool) (s : State) : exec (.lpiExit p tx) s = s.run (·.lpiExit p tx) := rfl

theorem exec_l0pWidthChange (p w : Nat) (s : State) : exec (.l0pWidthChange p w) s = s.run (·.l0pWidth p w) := rfl

/-! A port written. -/

theorem agree_setNetPort (d : Dev) (p : Nat) (x : Port) : Agree [.port] d (d.setNetPort p x) := agree_of_rel_mask (rel_Dev_setNetPort ..)

theorem netPort_setLastRead (d : Dev) (x : Dword) (p : Nat) : (setLastRead d x).netPort p = d.netPort p := rfl

/-! Counters (R188). -/

theorem netPort_pcount_ne {p r : Nat} (h : r ≠ p) (d : Dev) (i k : Nat) : (d.pcount p i k).netPort r = d.netPort r := by
  unfold Dev.pcount
  split
  · rfl
  · exact netPort_setNetPort_ne h ..

theorem counter_pcount_ne {i j : Nat} (h : j ≠ i) (d : Dev) (p k : Nat) :
    kvGet 0 ((d.pcount p i k).netPort p).counters j = kvGet 0 (d.netPort p).counters j := by
  unfold Dev.pcount
  split
  · rfl
  · rw [netPort_setNetPort_self]
    exact kvGet_kvSet_ne h ..

/-- Of the ports only counters changed. -/
structure OnlyCounts (a b : Dev) : Prop where
  port : ∀ p, { b.netPort p with counters := [] } = { a.netPort p with counters := [] }

theorem OnlyCounts.refl (a : Dev) : OnlyCounts a a := ⟨fun _ => rfl⟩

theorem OnlyCounts.trans {a b c : Dev} (h : OnlyCounts a b) (k : OnlyCounts b c) : OnlyCounts a c :=
  ⟨fun p => (k.port p).trans (h.port p)⟩

theorem OnlyCounts.xoff {a b : Dev} (h : OnlyCounts a b) (p : Nat) : (b.netPort p).xoff = (a.netPort p).xoff := by
  have e := congrArg Port.xoff (h.port p)
  exact e

theorem OnlyCounts.lpiTx {a b : Dev} (h : OnlyCounts a b) (p : Nat) : (b.netPort p).lpiTx = (a.netPort p).lpiTx := by
  have e := congrArg Port.lpiTx (h.port p)
  exact e

theorem onlyCounts_pcount (d : Dev) (p i k : Nat) : OnlyCounts d (d.pcount p i k) := by
  refine ⟨fun r => ?_⟩
  by_cases hr : r = p
  · subst hr
    unfold Dev.pcount
    split
    · rfl
    · rw [netPort_setNetPort_self]
  · rw [netPort_pcount_ne hr]

theorem onlyCounts_txCountOk (d : Dev) (p : Nat) (f : List Byte) (n : Nat) : OnlyCounts d (d.txCountOk p f n) :=
  ((((onlyCounts_pcount ..).trans (onlyCounts_pcount ..)).trans (onlyCounts_pcount ..)).trans (onlyCounts_pcount ..)).trans
    (onlyCounts_pcount ..)

theorem onlyCounts_foldl {α : Type} {g : Dev → α → Dev} (hg : ∀ d x, OnlyCounts d (g d x)) (l : List α) (d : Dev) :
    OnlyCounts d (l.foldl g d) := by
  induction l generalizing d with
  | nil => exact .refl d
  | cons x r ih => exact (hg d x).trans (ih (g d x))

/-! Pauses (R177). -/

/-- The device once a PAUSE or PFC frame has left and was counted as a control frame. -/
def pauseSent (d : Dev) (p quanta : Nat) : Dev :=
  ((d.emit (.frame p (d.pauseFrame p quanta) false)).txCountOk p (d.pauseFrame p quanta) 64).pcount p 57 1

/-- What follows counts the frame by its kind. -/
theorem pauseSend_counts (d : Dev) (p quanta : Nat) :
    OnlyCounts (pauseSent d p quanta) (d.pauseSend p quanta) ∧ Rel (maskOf [.port]) (pauseSent d p quanta) (d.pauseSend p quanta) := by
  have hone : ∀ (d : Dev) i k, Rel (maskOf [.port]) d (d.pcount p i k) := fun d i k => (rel_Dev_pcount d p i k).mono (by decide)
  unfold Dev.pauseSend
  dsimp only
  split
  · exact ⟨onlyCounts_foldl (fun d _ => onlyCounts_pcount d ..) _ _, Rel.foldl (fun d _ => hone d ..) (.refl ..)⟩
  · exact ⟨onlyCounts_pcount .., hone ..⟩

theorem pauseSend_spec (d : Dev) (p quanta : Nat) :
    (d.pauseSend p quanta).out = d.out ++ [.frame p (d.pauseFrame p quanta) false] ∧ OnlyCounts d (d.pauseSend p quanta) := by
  obtain ⟨hcounts, hrel⟩ := pauseSend_counts d p quanta
  have hemit : OnlyCounts d (d.emit (.frame p (d.pauseFrame p quanta) false)) := ⟨fun _ => rfl⟩
  have hsent : (pauseSent d p quanta).out = (d.emit (.frame p (d.pauseFrame p quanta) false)).out :=
    same_trans (p := .out) ((rel_Dev_txCountOk ..).same .out (by decide)) ((rel_Dev_pcount ..).same .out (by decide))
  exact ⟨(out_of_rel hrel).trans (hsent.trans (emit_out ..)),
    ((hemit.trans (onlyCounts_txCountOk ..)).trans (onlyCounts_pcount ..)).trans hcounts⟩

theorem pauseRefresh_eq {d : Dev} {p : Nat} (hx : (d.netPort p).xoff = true) (hl : (d.netPort p).link = true)
    (hu : d.regN (Reg.PORT_PFC_XON p) < (d.sq.pool p).used) : d.pauseRefresh p = d.pauseSend p 0xFFFF := by
  simp [Dev.pauseRefresh, hx, hl, hu]

/-! Port modes (R173). -/

theorem modes_portClear (d : Dev) (p : Nat) : (d.portClear p).port.modes = d.port.modes := by
  have htt : (d.portClear p).port = ((d.setNetPort p { txq := (d.netPort p).txq }).clrBit (Reg.PORT_CFG p) 0).port :=
    (rel_Dev_ttDiscard ..).same .port (by decide)
  have hclr : ((d.setNetPort p { txq := (d.netPort p).txq }).clrBit (Reg.PORT_CFG p) 0).port =
      (d.setNetPort p { txq := (d.netPort p).txq }).port := (rel_Dev_clrBit ..).same .port (by decide)
  rw [htt, hclr, setNetPort_port_modes]

theorem modes_foldl_portClear (f : Nat → Nat) (l : List Nat) (d : Dev) :
    (l.foldl (fun d j => d.portClear (f j)) d).port.modes = d.port.modes := by
  induction l generalizing d with
  | nil => rfl
  | cons j r ih => rw [List.foldl_cons, ih, modes_portClear]

/-- Ports that are removed or changed are cleared; then the group has the modes that its register holds. -/
theorem modes_modeApply (d : Dev) (g : Nat) : (d.modeApply g).port.modes = d.port.modes.set g (d.reg (Reg.PORT_GRP_MODE g)) := by
  unfold Dev.modeApply
  dsimp only
  rw [modes_foldl_portClear (fun j => 8 * g + j)]

theorem portApply_group0 {d : Dev} {pf : Nat} {v : Word} (hp : d.privNow pf = true) (h0 : bitOf v 0 = true) (h1 : bitOf v 1 = false) :
    d.portApply pf v =
      if d.modeCheck 0 (d.reg (Reg.PORT_GRP_MODE 0)) then d.modeApply 0 else d.setBit Reg.PORT_GSTAT 0 := by
  have hgs : [0, 1].filter (bitOf v) = [0] := by simp [h0, h1]
  unfold Dev.portApply
  rw [bar0Write_priv (rd := .any) (by decide) (by decide) (by decide) hp]
  simp only [hgs, List.all_cons, List.all_nil, Bool.and_true, List.foldl_cons, List.foldl_nil]

/-! Links of network ports (R172, R176). -/

theorem netLinkUp_eq {d : Dev} {p : Nat} (ht : d.portType p ≠ 0) (hen : d.regBit (Reg.PORT_CFG p) 0 = true)
    (hl : (d.netPort p).link = false) :
    d.netLinkUp p = d.setNetPort p { d.netPort p with
      link := true, localFault := false, remoteFault := false, lpiTx := false, lpiRx := false,
      dim := { txW := d.portLanes p, rxW := d.portLanes p }, held := [], xoff := false } := by
  simp [Dev.netLinkUp, ht, hen, hl]

/-- A link that was up goes down: the transition is counted, and no other port is touched. -/
theorem netLinkDown_spec {d : Dev} {p : Nat} (hl : (d.netPort p).link = true) (l r : Bool) :
    ((d.netLinkDown p l r).netPort p).link = false ∧ ((d.netLinkDown p l r).netPort p).localFault = l ∧
      ((d.netLinkDown p l r).netPort p).remoteFault = r ∧
      kvGet 0 ((d.netLinkDown p l r).netPort p).counters 42 = kvGet 0 (d.netPort p).counters 42 + 1 ∧
      ∀ q, q ≠ p → (d.netLinkDown p l r).netPort q = d.netPort q := by
  unfold Dev.netLinkDown
  dsimp only
  rw [netPort_setNetPort_self]
  refine ⟨rfl, rfl, rfl, ?_, fun q hq => ?_⟩
  · rw [counter_pcount_ne (by decide), counter_pcount_ne (by decide), hl]
    exact counter_pcount_self ..
  · rw [netPort_setNetPort_ne hq, netPort_pcount_ne hq, netPort_pcount_ne hq, netPort_pcount_ne hq]

/-! Snapshots of the counters (R17, R189). -/

theorem cntSnap_isReg : ∀ p < 16, isReg (Reg.PORT_CNT_SNAP p) = true := by decide

theorem cntRel_row : ∀ p < 16, isReg (Reg.PORT_CNT_REL p) = true ∧ accessRow (Reg.PORT_CNT_REL p) = some (.any, .priv) := by decide

/-- The device with the counters of a port in its bank, under a new sequence number. -/
def snapTaken (d : Dev) (p : Nat) : Dev :=
  d.setNetPort p { d.netPort p with
    bank := (d.netPort p).counters, counters := [], reading := true, snapSeq := ((d.netPort p).snapSeq + 1) % 65536 }

theorem portSnap_eq {d : Dev} {pf p : Nat} (hp : p < 16) (ha : d.allowed pf (Reg.PORT_CNT_SNAP p) false = true)
    (hr : (d.netPort p).reading = false) :
    d.portSnap pf p = setLastRead (snapTaken d p) (BitVec.ofNat 64 (((d.netPort p).snapSeq + 1) % 65536)) := by
  have hw (n : Nat) : (packW [(n % 65536, 0)]).zeroExtend 64 = BitVec.ofNat 64 (n % 65536) := by
    apply BitVec.eq_of_toNat_eq
    simp only [packW, packNat, BitVec.toNat_setWidth, BitVec.toNat_ofNat]
    omega
  unfold Dev.portSnap
  rw [bar0Read_act (cntSnap_isReg p hp) ha (gatedAt_low (by unfold Reg.PORT_CNT_SNAP; omega) d)]
  simp only [hr, Bool.false_eq_true, if_false, hw]
  rfl

theorem portRel_eq {d : Dev} {pf p : Nat} {v : Word} (hp : p < 16) (hpriv : d.privNow pf = true) (hv : bitOf v 0 = true) :
    d.portRel pf p v = d.setNetPort p { d.netPort p with reading := false } := by
  obtain ⟨hreg, hrow⟩ := cntRel_row p hp
  unfold Dev.portRel
  rw [bar0Write_priv hreg hrow (by unfold Reg.PORT_CNT_REL; omega) hpriv, if_pos hv]

/-! Low-power idle, and the width of a host link (R57, R185). -/

theorem lpiEntry_tx {d : Dev} {p : Nat} (h : d.lpiUse p = true) :
    d.lpiEntry p true = (d.setNetPort p { d.netPort p with lpiTx := true }).pcount p 81 (b2n (!(d.netPort p).lpiTx)) := by
  simp [Dev.lpiEntry, h]

theorem lpiEntry_rx {d : Dev} {p : Nat} (h : d.lpiUse p = true) :
    d.lpiEntry p false = d.setNetPort p { d.netPort p with lpiRx := true } := by
  simp [Dev.lpiEntry, h]

theorem l0pWidth_eq {d : Dev} {p w : Nat} (hl : (d.hifPort p).linkUp = true) (hf : (d.hifPort p).flit = true)
    (hc : d.regBit (Reg.HIF_PORT_CTL p) 0 = true) (hw : w ∈ [16, 8, 4, 2, 1]) :
    d.l0pWidth p w = d.setHifPort p { d.hifPort p with width := w } := by
  unfold Dev.l0pWidth
  simp only [hl, hf, hc, hw, Bool.not_true, Bool.false_eq_true, not_true, or_self, if_false]

/-- Settles O25, clause by clause: what each command comes down to on its port, and that no other port feels it. -/
theorem portControl : Obligations.PortControl := by
  unfold Obligations.PortControl
  refine ⟨?apply, ?linkUp, ?linkDown, ?snap, ?release, ?pauseExpire, ?pauseRefresh, ?lpiEntry, ?lpiExit, ?l0p⟩
  case apply =>
    intro s pf v hs hp h0 h1
    have heq := portApply_group0 hp h0 h1
    refine ⟨fun hok => ?_, fun hbad => ?_⟩
    · rw [if_pos hok] at heq
      exact runs_of_run_eq hs (exec_portApply ..) heq (modes_modeApply ..)
    · rw [if_neg (by simp [hbad])] at heq
      exact runs_of_run_eq hs (exec_portApply ..) heq
        ⟨(rel_Dev_setBit ..).same .port (by decide), regBit_setBit_self (by decide) _ _, onlyRegs_setBit (by simp) _ _⟩
  case linkUp =>
    intro s p hs ht hen hl
    refine runs_of_run_eq hs (exec_netLinkUp ..) (netLinkUp_eq ht hen hl) ?_
    simp only [Dev.dim, netPort_setNetPort_self, true_and]
    exact ⟨fun r hr => netPort_setNetPort_ne hr .., agree_setNetPort _ _ _⟩
  case linkDown =>
    intro s p l r hs hl
    obtain ⟨hlink, hlocal, hremote, hcount, hother⟩ := netLinkDown_spec hl l r
    exact runs_of_run hs (exec_netLinkDown ..) ⟨hlink, hlocal, hremote, hcount, hother, agree_of_rel_mask (rel_Dev_netLinkDown ..)⟩
  case snap =>
    intro s pf p hs hp ha hr
    refine runs_of_run_eq hs (exec_portCntSnap ..) (portSnap_eq hp ha hr) ?_
    simp only [netPort_setLastRead, snapTaken, netPort_setNetPort_self, true_and]
    exact ⟨rfl, fun r hr => netPort_setNetPort_ne hr .., onlyRegs_of_regs_eq rfl⟩
  case release =>
    intro s pf p v hs hp hpriv hv
    exact runs_of_run_eq hs (exec_portCntRel ..) (portRel_eq hp hpriv hv) ⟨netPort_setNetPort_self .., agree_setNetPort _ _ _⟩
  case pauseExpire =>
    intro s p c hs
    exact runs_of_run hs (exec_pauseExpire ..) ⟨netPort_setNetPort_self .., agree_setNetPort _ _ _⟩
  case pauseRefresh =>
    intro s p hs hx hl hu
    obtain ⟨hout, hcounts⟩ := pauseSend_spec s.dev p 0xFFFF
    exact runs_of_run_eq hs (exec_pauseRefresh ..) (pauseRefresh_eq hx hl hu)
      ⟨hout, (hcounts.xoff p).trans hx, agree_of_rel_mask ((rel_Dev_pauseSend ..).mono (by decide))⟩
  case lpiEntry =>
    intro s p hs huse
    refine ⟨runs_of_run_eq hs (exec_lpiEntry ..) (lpiEntry_tx huse) ⟨?_, fun hoff => ?_, ?_⟩,
      runs_of_run_eq hs (exec_lpiEntry ..) (lpiEntry_rx huse) ⟨netPort_setNetPort_self .., agree_setNetPort _ _ _⟩⟩
    · rw [(onlyCounts_pcount ..).lpiTx, netPort_setNetPort_self]
    · rw [hoff]
      exact (counter_pcount_self ..).trans (by rw [netPort_setNetPort_self])
    · exact agree_of_rel_mask ((rel_Dev_setNetPort ..).trans (rel_Dev_pcount ..))
  case lpiExit =>
    intro s p hs
    exact ⟨runs_of_run hs (exec_lpiExit ..) ⟨netPort_setNetPort_self .., agree_setNetPort _ _ _⟩,
      runs_of_run hs (exec_lpiExit ..) ⟨netPort_setNetPort_self .., agree_setNetPort _ _ _⟩⟩
  case l0p =>
    intro s p w hs hl hf hc hw
    exact runs_of_run_eq hs (exec_l0pWidthChange ..) (l0pWidth_eq hl hf hc hw) ⟨rfl, agree_of_rel_mask (rel_Dev_setHifPort ..)⟩

end Sys2Proof.Proofs

/-! States that meet the conditions of the statements about the host and the ports, with what the commands then do. -/

namespace Sys2Proof.Proofs

open Sys2Proof Sys2Proof.Machine Sys2Proof.Laws

theorem pcieLinkUp_after_reset :
    Runs (.pcieLinkUp 1 6 16 true) State.reset fun b => (b.hifPort 1).linkUp = true ∧ (b.hifPort 1).ups = 1 := by
  obtain ⟨hup, -⟩ := hostLinks
  obtain ⟨t, he, hq, hports, -⟩ := hup State.reset 1 6 16 true rfl rfl rfl
  refine ⟨t, he, hq, ?_⟩
  simp only [Dev.hifPort, hports]
  exact ⟨rfl, rfl⟩

/-- An invalidation of the first page of PF 0. -/
def invOfPage0 : InvReq := { itag := 0, fn := .pf 0, pasid := none, page := 0, log2 := 12, using_ := [] }

/-- The state after reset with 31 invalidations queued on host port 0. -/
def invQueueOneFree : State :=
  { State.reset with dev := State.reset.dev.setHifPort 0 { inv := List.replicate 31 invOfPage0 } }

/-- The queue takes its last request. -/
theorem invalidationRequest_last :
    Runs (.invalidationRequest 0 1 (.pf 0) none 0 12) invQueueOneFree fun b => (b.hifPort 0).inv.length = 32 := by
  obtain ⟨-, -, -, hinv, -⟩ := translation
  obtain ⟨t, he, hq, ⟨u, hports⟩, -⟩ := hinv invQueueOneFree 0 1 (.pf 0) none 0 12 rfl (by decide)
  refine ⟨t, he, hq, ?_⟩
  simp only [Dev.hifPort, hports]
  rfl

/-- A read of an engine that has timed out. -/
def timedOutRead : Tag :=
  { req := { port := 0, fn := .pf 0, ten := 0, gen := 0, ref := .eng 0, addr := 0, len := 4 }, quarantined := true }

/-- The state after reset with the highest tag of host port 0 in quarantine. -/
def tagInQuarantine : State := { State.reset with dev := State.reset.dev.setHifPort 0 { tags := [(16383, timedOutRead)] } }

theorem quarantineRelease_frees :
    Runs (.quarantineRelease 0 16383) tagInQuarantine fun b => kvFind 16383 (b.hifPort 0).tags = none := by
  obtain ⟨-, -, -, hquar, -⟩ := readsAndTags
  obtain ⟨t, he, hq, hfree, -⟩ := (hquar tagInQuarantine 0 16383 timedOutRead rfl rfl rfl).2
  exact ⟨t, he, hq, hfree⟩

/-- An empty submission ring of four entries, of tenancy 1, at its last local index. -/
def emptySq : Sq :=
  { ten := 1, loc := 511, cls := 0, retas := false, scatter := false, prog := false, cq := 0, log2 := 2, base := 0, wb := 0, rweight := 1,
    burst := 1, mod := {} }

/-- The state after reset with tenancy 1 OPEN, bound to PF 0, and a submission ring of it. -/
def ringLive : State :=
  { State.reset with dev := (State.reset.dev.tenPut 1 { st := 3, binding := some ⟨false, 0, 0, none⟩ }).sqPut 5 emptySq }

/-- A doorbell may post as many entries as the ring holds. -/
theorem sqDoorbell_fills : Runs (.sqDoorbell (.pf 0) 1 4088 4 0x10000) ringLive fun b =>
    kvFind 5 b.ring.sqs = some { emptySq with tail := 4 } := by
  obtain ⟨hsq, -⟩ := doorbells
  obtain ⟨hplain, -⟩ := hsq ringLive (.pf 0) 1 4088 4 1 5 4 0x10000 0x10000#32 emptySq rfl (by decide) (by decide) (by decide)
    (.inl rfl) (by decide) (by decide) (by decide) rfl (by decide) (by decide) (by decide)
  obtain ⟨t, he, hq, hring, -⟩ := hplain (by decide) (by decide)
  exact ⟨t, he, hq, hring⟩

theorem portCntSnap_after_reset : Runs (.portCntSnap 0 15) State.reset fun b =>
    (b.netPort 15).reading = true ∧ b.lastRead = 1 := by
  obtain ⟨-, -, -, hsnap, -⟩ := portControl
  obtain ⟨t, he, hq, -, -, hreading, -, hread, -⟩ := hsnap State.reset 0 15 rfl (by decide) (by decide) rfl
  exact ⟨t, he, hq, hreading, hread⟩

end Sys2Proof.Proofs

/-! Admin commands: checks that pass, and what a command that changes the device leaves behind (R73, R77, R102, R557). -/

namespace Sys2Proof.Proofs

open Sys2Proof Sys2Proof.Machine Sys2Proof.Laws

/-- No check of the list fails. -/
def Passes (l : List (Bool × Nat × Nat)) : Prop := firstFail l = none

@[simp] theorem passes_nil : Passes [] := rfl

@[simp] theorem passes_cons (c : Bool × Nat × Nat) (r : List (Bool × Nat × Nat)) : Passes (c :: r) ↔ c.1 = false ∧ Passes r := by
  obtain ⟨bad, st, det⟩ := c
  cases bad <;> simp [Passes, firstFail]

@[simp] theorem passes_append (l r : List (Bool × Nat × Nat)) : Passes (l ++ r) ↔ Passes l ∧ Passes r := by
  induction l with
  | nil => simp
  | cons c l ih => simp [ih, and_assoc]

theorem admChecks_pass {l : List (Bool × Nat × Nat)} (h : Passes l) (k : Unit → AdmRes) : admChecks l k = k () := by
  rw [admChecks, h]

theorem notOwner_owns {e : AdmEntry} {t : Nat} {s : State} (h : Owns e t s) : (s.dev.notOwner e t).1 = false := by
  simp only [Dev.notOwner, decide_eq_false_iff_not, not_and, not_not]
  exact h.resolve_left

@[simp] theorem lenNot_passes (e : AdmEntry) (n : Nat) : (lenNot e n).1 = false ↔ e.len = n := by simp [lenNot]

@[simp] theorem notIn_passes (d : Dev) (t : Nat) (ok : List Nat) : (d.notIn t ok).1 = false ↔ (d.tenGet t).st ∈ ok := by
  simp [Dev.notIn]

theorem tenGet_of_tens_eq {a b : Dev} (h : b.ten.tens = a.ten.tens) (t : Nat) : b.tenGet t = a.tenGet t := by
  simp only [Dev.tenGet, h]

@[simp] theorem tenGet_tenPut_self (d : Dev) (t : Nat) (x : Ten) : (d.tenPut t x).tenGet t = x := kvGet_kvSet_self ..

theorem tenGet_tenPut_ne {t u : Nat} (h : u ≠ t) (d : Dev) (x : Ten) : (d.tenPut t x).tenGet u = d.tenGet u := kvGet_kvSet_ne h ..

/-- One tenancy was written, and no other. -/
theorem tenGet_of_put {a b : Dev} {t : Nat} {x : Ten} (h : b.ten.tens = (a.tenPut t x).ten.tens) :
    b.tenGet t = x ∧ ∀ u, u ≠ t → b.tenGet u = a.tenGet u :=
  ⟨(tenGet_of_tens_eq h t).trans (tenGet_tenPut_self ..), fun u hu => (tenGet_of_tens_eq h u).trans (tenGet_tenPut_ne hu ..)⟩

/-- What a command does is what its effect does of the device it finds. -/
theorem run_congr {s : State} {f g : Dev → Dev} (h : f s.dev = g s.dev) : s.run f = s.run g := by simp only [State.run, h]

/-- An admin command whose effect leaves the admin journal and the commands in progress alone completes: the record of its end, and
its effect. -/
theorem completes_of_effect {c : Instr} {e : AdmEntry} {opc det len : Nat} {s : State} {data : List Byte} {f : Dev → AdmRes} {d : Dev}
    {P : Dev → Prop} (hs : AdmReady s) (he : exec c s = s.run (·.admRun e opc f)) (hf : f s.dev = .done d det len data)
    (hseq : d.glb.admSeq = s.dev.glb.admSeq) (htaken : d.ring.taken = s.dev.ring.taken)
    (hp : ∀ b, AdmEnded s.dev b e opc 0 det → Agree Machine.admParts d b → P b) : Completes c e opc s P := by
  obtain ⟨ha, hc, hnone⟩ := hs
  obtain ⟨hend, hk⟩ := admRun_done (e := e) (opc := opc) hc hf (htaken.trans hnone) hseq
  exact runs_of_run ha he ⟨⟨det, hend⟩, hp _ hend hk⟩

/-- The same for an effect whose law bounds what it changes. -/
theorem completes_of_change {c : Instr} {e : AdmEntry} {opc det len m : Nat} {s : State} {data : List Byte} {f : Dev → AdmRes} {d : Dev}
    {P : Dev → Prop} (hs : AdmReady s) (he : exec c s = s.run (·.admRun e opc f)) (hf : f s.dev = .done d det len data)
    (hr : AdmRel m s.dev (f s.dev)) (hp : ∀ b, AdmEnded s.dev b e opc 0 det → Agree Machine.admParts d b → P b)
    (hj : m.testBit (bit .admJ) = false := by decide) (ht : m.testBit (bit .taken) = false := by decide) :
    Completes c e opc s P := by
  have hrel : Rel m s.dev d := by rwa [hf] at hr
  exact completes_of_effect hs he hf (hrel.same .admJ hj).1 (hrel.same .taken ht).1 hp

/-- The same for one that returns bytes: they went to the buffer that its dword 1 names. -/
theorem completes_of_returned {c : Instr} {e : AdmEntry} {opc det len m : Nat} {s : State} {data : List Byte} {f : Dev → AdmRes} {d : Dev}
    {P : Dev → Prop} (hs : AdmReady s) (he : exec c s = s.run (·.admRun e opc f)) (hf : f s.dev = .done d det len data)
    (hr : AdmRel m s.dev (f s.dev)) (hd : data ≠ [])
    (hp : ∀ b, Out.hostWrite (.pf e.pf) none e.d1.toNat data false ∈ b.out → Agree Machine.admParts d b → P b)
    (hj : m.testBit (bit .admJ) = false := by decide) (ht : m.testBit (bit .taken) = false := by decide)
    (hplanes : m.testBit (bit .planes) = false := by decide) (hpwr : m.testBit (bit .pwr) = false := by decide) :
    Completes c e opc s P := by
  obtain ⟨ha, hc, hnone⟩ := hs
  have hrel : Rel m s.dev d := by rwa [hf] at hr
  obtain ⟨hseq, -⟩ := hrel.same .admJ hj
  obtain ⟨htaken, -⟩ := hrel.same .taken ht
  have hplane : d.glb.planes = s.dev.glb.planes := hrel.same .planes hplanes
  have hpower : d.pwr = s.dev.pwr := hrel.same .pwr hpwr
  have hc' : d.ctlRuns = true := by rwa [Dev.ctlRuns, hplane, hpower]
  have hrun : s.dev.admRun e opc f = d.admRun e opc fun _ => .done d det len data := by simp [Dev.admRun, hc, hc', hf]
  obtain ⟨hend, hk⟩ := admRun_done (e := e) (opc := opc) hc hf (htaken.trans hnone) hseq
  have hout := admRun_returns (e := e) (opc := opc) (f := fun _ => .done d det len data) hc' rfl (htaken.trans hnone) hd
  exact runs_of_run ha he ⟨⟨det, hend⟩, hp _ (hrun ▸ hout) hk⟩

/-- An admin command that is taken and completes later. -/
theorem runs_of_wait {c : Instr} {e : AdmEntry} {opc : Nat} {s : State} {f : Dev → AdmRes} {d : Dev} {P : Dev → Prop} (hs : AdmReady s)
    (he : exec c s = s.run (·.admRun e opc f)) (hf : f s.dev = .wait d) (hp : ∀ b, AdmWaits b e → Agree [.taken] d b → P b) :
    Runs c s P := by
  obtain ⟨ha, hc, -⟩ := hs
  obtain ⟨hw, hk⟩ := admRun_wait (e := e) (opc := opc) hc hf
  exact runs_of_run ha he (hp _ hw hk)

/-- An admin command that a check refuses. -/
theorem runs_of_fail {c : Instr} {e : AdmEntry} {opc st det : Nat} {s : State} {f : Dev → AdmRes} {P : Dev → Prop} (hs : AdmReady s)
    (he : exec c s = s.run (·.admRun e opc f)) (hf : f s.dev = .fail st det)
    (hp : ∀ b, AdmEnded s.dev b e opc st det → Agree Machine.admParts s.dev b → P b) : Runs c s P := by
  obtain ⟨ha, hc, hnone⟩ := hs
  obtain ⟨hend, hk⟩ := admRun_fail (e := e) (opc := opc) hc hnone hf
  exact runs_of_run ha he (hp _ hend hk)

end Sys2Proof.Proofs

/-! The ring commands (R105 to R107, R119, R124, R129, R131, R132, R140). -/

namespace Sys2Proof.Proofs

open Sys2Proof Sys2Proof.Machine Sys2Proof.Laws

theorem exec_ringCreate (e : AdmEntry) (s : State) : exec (.ringCreate e) s = s.run (·.admRun e 0x20 (ringCreate e)) := rfl

theorem exec_ringDestroy (e : AdmEntry) (s : State) : exec (.ringDestroy e) s = s.run (·.admRun e 0x21 (ringDestroy e)) := rfl

theorem exec_ringDcinv (e : AdmEntry) (s : State) : exec (.ringDcinv e) s = s.run (·.admRun e 0x22 (ringDcinv e)) := rfl

theorem exec_ringResume (e : AdmEntry) (s : State) : exec (.ringResume e) s = s.run (·.admRun e 0x23 (ringResume e)) := rfl

theorem exec_ringSetMod (e : AdmEntry) (s : State) : exec (.ringSetMod e) s = s.run (·.admRun e 0x24 (ringSetMod e)) := rfl

theorem exec_ringSetSched (e : AdmEntry) (s : State) : exec (.ringSetSched e) s = s.run (·.admRun e 0x25 (ringSetSched e)) := rfl

/-! What they check. -/

theorem modRange_passes {e : AdmEntry} (h : fld e.d5 39 32 ≠ 0) : (modRange e).1 = false := by simp [modRange, h]

/-- A target without a vector names none it may not use (R101). -/
theorem vectorChecks_pass {e : AdmEntry} (h : bitOf e.d6 16 = false) (d : Dev) (t : Nat) : Passes (d.vectorChecks e t) := by
  simp [Dev.vectorChecks, h]

/-- The tenancy of a ring command is the PF's own, and neither FREE nor in a reset (R73, R93). -/
theorem ringPre_pass {e : AdmEntry} {s : State} (ho : Owns e e.ten s) (h0 : (s.dev.tenGet e.ten).st ≠ 0)
    (h5 : (s.dev.tenGet e.ten).st ≠ 5) : Passes (s.dev.ringPre e) := by
  simp [Dev.ringPre, Dev.inReset, notOwner_owns ho, h0, h5]

/-- The tenancy may be given a ring at the local index of the entry (R79, R105, R140). -/
structure RingFits (e : AdmEntry) (s : State) : Prop where
  owns : Owns e e.ten s
  log2_ge : 6 ≤ fld e.d2 44 40
  log2_le : fld e.d2 44 40 ≤ 16
  aligned : fld e.d3 11 0 = 0
  state : (s.dev.tenGet e.ten).st = 2 ∨ (s.dev.tenGet e.ten).st = 3
  sqFree : s.dev.sqAt e.ten e.loc = none
  cqFree : s.dev.cqAt e.ten e.loc = none
  nvFree : s.dev.nvLocal e.ten e.loc = false
  quota : s.dev.ringsOf e.ten < (s.dev.tenGet e.ten).rings

/-- The completion ring that an entry of RING_CREATE describes. -/
def newCq (e : AdmEntry) : Cq :=
  { ten := e.ten, loc := e.loc, log2 := fld e.d2 44 40, retas := bitOf e.d2 26, evt := bitOf e.d2 28, base := e.d3, wb := e.d4,
    mod := modOf e }

theorem ringCreate_cq {e : AdmEntry} {s : State} {n : Nat} (h : RingFits e s) (hcq : bitOf e.d2 25 = true)
    (hwb : bitOf e.d2 26 = true → fld e.d4 2 0 = 0) (hmod : fld e.d5 39 32 ≠ 0) (hn : kvFirstFree s.dev.ring.cqs 65536 = some n)
    (hevt : bitOf e.d2 28 = true → ∀ c ∈ s.dev.ring.cqs, c.2.ten = e.ten → c.2.evt = false) (hvec : bitOf e.d6 16 = false) :
    ringCreate e s.dev = .done (s.dev.cqPut n (newCq e)) n := by
  have hlog : ¬(fld e.d2 44 40 < 6 ∨ 16 < fld e.d2 44 40) := by have := h.log2_ge; have := h.log2_le; omega
  have hst : ¬((s.dev.tenGet e.ten).st ≠ 2 ∧ (s.dev.tenGet e.ten).st ≠ 3) := by have := h.state; omega
  unfold ringCreate
  simp only [hcq, hn]
  rw [admChecks_pass]
  · rfl
  · simpa [notOwner_owns h.owns, hlog, hst, h.aligned, h.sqFree, h.cqFree, h.nvFree, h.quota, modRange_passes hmod,
      vectorChecks_pass hvec] using ⟨hwb, fun hb i c hc => hevt hb (i, c) hc⟩

/-- The submission ring, without a progress index, that an entry of RING_CREATE describes; completion ring c is its own. -/
def newSq (e : AdmEntry) (c : Nat) : Sq :=
  { ten := e.ten, loc := e.loc, cls := fld e.d2 34 32, retas := bitOf e.d2 26, scatter := bitOf e.d2 27, prog := false, cq := c,
    log2 := fld e.d2 44 40, base := e.d3, wb := e.d4, rweight := fld e.d5 7 0, burst := fld e.d5 14 8, mod := modOf e }

theorem ringCreate_sq {e : AdmEntry} {s : State} {n c : Nat} {y : Cq} (h : RingFits e s) (hcq : bitOf e.d2 25 = false)
    (hprog : bitOf e.d2 29 = false) (hcls : fld e.d2 34 32 ≤ 4)
    (hretas : bitOf e.d2 26 = true → fld e.d2 34 32 ≠ 3 ∧ fld e.d2 34 32 ≠ 4 ∧ fld e.d4 2 0 = 0) (hw : fld e.d5 7 0 ≠ 0)
    (hb0 : fld e.d5 14 8 ≠ 0) (hb : fld e.d5 14 8 ≤ 64) (hn : kvFirstFree s.dev.ring.sqs 65536 = some n)
    (hc : s.dev.cqAt e.ten (fld e.d2 56 48) = some (c, y)) :
    ringCreate e s.dev = .done (s.dev.sqPut n (newSq e c)) n := by
  have hlog : ¬(fld e.d2 44 40 < 6 ∨ 16 < fld e.d2 44 40) := by have := h.log2_ge; have := h.log2_le; omega
  have hst : ¬((s.dev.tenGet e.ten).st ≠ 2 ∧ (s.dev.tenGet e.ten).st ≠ 3) := by have := h.state; omega
  have hburst : ¬(fld e.d5 14 8 = 0 ∨ 64 < fld e.d5 14 8) := by omega
  unfold ringCreate
  simp only [hcq, hprog, hn, hc]
  rw [admChecks_pass]
  · rfl
  · simpa [notOwner_owns h.owns, hlog, hst, h.aligned, h.sqFree, h.cqFree, h.nvFree, h.quota, hcls, hw, hburst] using
      ⟨fun hr => ⟨(hretas hr).1, (hretas hr).2.1⟩, fun hr => (hretas hr).2.2⟩

/-- The device without submission ring q and its jobs. -/
def sqGone (d : Dev) (q : Nat) : Dev :=
  { d with ring := { d.ring with sqs := kvDel q d.ring.sqs, jobs := d.ring.jobs.filter (fun j => decide (j.sq ≠ q)) } }

/-- The device without completion ring c. -/
def cqGone (d : Dev) (c : Nat) : Dev := { d with ring := { d.ring with cqs := kvDel c d.ring.cqs } }

/-- The moderation that RING_SET_MOD gives a target: what it has counted, and its timer, stay (R132). -/
def modSet (e : AdmEntry) (m : Mod) : Mod := { modOf e with n := m.n, timer := m.timer, start := m.start, due := m.due }

section
variable {e : AdmEntry} {d : Dev} {q : Nat} {x : Sq} (hpre : Passes (d.ringPre e)) (hq : d.sqAt e.ten e.loc = some (q, x))
include hpre hq

theorem ringDestroy_sq (hst : x.state = 2 ∨ (d.tenGet e.ten).st ≠ 3) : ringDestroy e d = .done (sqGone d q) := by
  unfold ringDestroy
  simp only [hq]
  exact admChecks_pass (by simpa [hpre] using fun h => hst.resolve_left h) _

theorem ringDcinv_sq : ringDcinv e d = .done (d.sqPut q { x.dropCache with state := 2 }) 0 (lapIdx x.started x.log2) := by
  unfold ringDcinv
  simp only [hq]
  exact admChecks_pass hpre _

theorem ringResume_sq (hst : x.state = 2) (hf : x.failedJob = false) : ringResume e d = .done ((d.sqPut q x).sqResume q) := by
  unfold ringResume
  simp only [hq, hf, Bool.false_eq_true, if_false]
  exact admChecks_pass (by simp [hpre, hst]) _

theorem ringSetMod_sq (hp : x.prog = true) (hmod : fld e.d5 39 32 ≠ 0) (hvec : bitOf e.d6 16 = false) :
    ringSetMod e d = .done (d.sqPut q { x with mod := modSet e x.mod }) := by
  unfold ringSetMod
  simp only [hq]
  exact admChecks_pass (by simp [hpre, hp, modRange_passes hmod, vectorChecks_pass hvec]) _

theorem ringSetSched_sq (hw : fld e.d5 7 0 ≠ 0) (hb0 : fld e.d5 14 8 ≠ 0) (hb : fld e.d5 14 8 ≤ 64) :
    ringSetSched e d = .done (d.sqPut q { x with nextSched := some (fld e.d5 7 0, fld e.d5 14 8) }) := by
  have hburst : ¬(fld e.d5 14 8 = 0 ∨ 64 < fld e.d5 14 8) := by omega
  unfold ringSetSched
  simp only [hq]
  exact admChecks_pass (by simp [hpre, hw, hburst]) _

end

/-- A held ring that is resumed (R129). -/
theorem sqPut_sqResume (d : Dev) (q : Nat) (x : Sq) :
    (d.sqPut q x).sqResume q = (d.sqPut q x).sqPut q { x with state := 1, failed := false, failedJob := false } := by
  simp only [Dev.sqResume, kvFind_sqPut_self]

section
variable {e : AdmEntry} {d : Dev} {c : Nat} {x : Cq} (hpre : Passes (d.ringPre e)) (hq : d.sqAt e.ten e.loc = none)
  (hc : d.cqAt e.ten e.loc = some (c, x))
include hpre hq hc

theorem ringDestroy_cq (huse : ∀ q ∈ d.ring.sqs, q.2.prog = true ∨ q.2.cq ≠ c) : ringDestroy e d = .done (cqGone d c) := by
  have hfree : (d.ring.sqs.any fun s => !s.2.prog && decide (s.2.cq = c)) = false := by
    simp only [List.any_eq_false]
    intro q hq'
    rcases huse q hq' with h | h <;> simp [h]
  unfold ringDestroy
  simp only [hq, hc]
  exact admChecks_pass (by simp [hpre, hfree]) _

theorem ringResume_cq (hst : x.state = 3) (hroom : x.room = true) :
    ringResume e d = .done ((d.cqPut c { x with state := 1 }).stashDrain c) := by
  unfold ringResume
  simp only [hq, hc]
  exact admChecks_pass (by simp [hpre, hst, hroom]) _

theorem ringSetMod_cq (hmod : fld e.d5 39 32 ≠ 0) (hvec : bitOf e.d6 16 = false) :
    ringSetMod e d = .done (d.cqPut c { x with mod := modSet e x.mod }) := by
  unfold ringSetMod
  simp only [hq, hc]
  exact admChecks_pass (by simp [hpre, modRange_passes hmod, vectorChecks_pass hvec]) _

end

/-- Settles O22, clause by clause: the checks pass, and each command comes down to one change of the tables of rings. -/
theorem ringCommands : Obligations.RingCommands := by
  unfold Obligations.RingCommands
  refine ⟨?createCq, ?createSq, ?sq, ?cq⟩
  case createCq =>
    intro s e n hs ho hcq hge hle hal hwb hmod hst hsq hc hnv hquota hn hevt hvec
    refine completes_of_change hs (exec_ringCreate e s)
      (ringCreate_cq ⟨ho, hge, hle, hal, hst, hsq, hc, hnv, hquota⟩ hcq hwb hmod hn hevt hvec) (rel_ringCreate ..) fun b _ hk => ?_
    obtain ⟨hsqs, hcqs⟩ := hk .rings (by decide)
    refine ⟨?_, hsqs, fun c hne => ?_, onlyRegs_of_regs_eq (hk .regs (by decide))⟩
    · rw [hcqs]
      exact kvFind_cqPut_self ..
    · rw [hcqs]
      exact kvFind_kvPut_ne hne ..
  case createSq =>
    intro s e n c y hs ho hcq hprog hcls hretas hge hle hal hw hb0 hb hst hsq hc hnv hquota hn hcy
    refine completes_of_change hs (exec_ringCreate e s)
      (ringCreate_sq ⟨ho, hge, hle, hal, hst, hsq, hc, hnv, hquota⟩ hcq hprog hcls hretas hw hb0 hb hn hcy) (rel_ringCreate ..)
      fun b _ hk => ?_
    obtain ⟨hsqs, hcqs⟩ := hk .rings (by decide)
    refine ⟨?_, hcqs, fun q hne => ?_, onlyRegs_of_regs_eq (hk .regs (by decide))⟩
    · rw [hsqs]
      exact kvFind_sqPut_self ..
    · rw [hsqs]
      exact kvFind_kvPut_ne hne ..
  case sq =>
    intro s e q x hs ho h0 h5 hq
    have hpre := ringPre_pass ho h0 h5
    refine ⟨fun hst => ?destroy, ?dcinv, fun hst hf => ?resume, fun hp hmod hvec => ?setMod, fun hw hb0 hb => ?setSched⟩
    case destroy =>
      refine completes_of_change hs (exec_ringDestroy e s) (ringDestroy_sq hpre hq hst) (rel_ringDestroy ..) fun b _ hk => ?_
      obtain ⟨hsqs, hcqs⟩ := hk .rings (by decide)
      have hjobs : b.ring.jobs = s.dev.ring.jobs.filter (fun j => decide (j.sq ≠ q)) := hk .jobs (by decide)
      refine ⟨?_, fun j hj => ?_, hcqs, onlyRegs_of_regs_eq (hk .regs (by decide))⟩
      · rw [hsqs]
        exact kvFind_kvDel_self ..
      · rw [hjobs] at hj
        simpa using (List.mem_filter.1 hj).2
    case dcinv =>
      refine completes_of_change hs (exec_ringDcinv e s) (ringDcinv_sq hpre hq) (rel_ringDcinv ..) fun b hend hk => ?_
      obtain ⟨hsqs, -⟩ := hk .rings (by decide)
      exact ⟨hsqs ▸ kvFind_sqPut_self .., hend, onlyRegs_of_regs_eq (hk .regs (by decide))⟩
    case resume =>
      refine completes_of_change hs (exec_ringResume e s) ((ringResume_sq hpre hq hst hf).trans (by rw [sqPut_sqResume]))
        (rel_ringResume ..) fun b _ hk => ?_
      obtain ⟨hsqs, -⟩ := hk .rings (by decide)
      exact ⟨hsqs ▸ kvFind_sqPut_self .., onlyRegs_of_regs_eq (hk .regs (by decide))⟩
    case setMod =>
      refine completes_of_change hs (exec_ringSetMod e s) (ringSetMod_sq hpre hq hp hmod hvec) (rel_ringSetMod ..) fun b _ hk => ?_
      obtain ⟨hsqs, -⟩ := hk .rings (by decide)
      exact ⟨hsqs ▸ kvFind_sqPut_self .., onlyRegs_of_regs_eq (hk .regs (by decide))⟩
    case setSched =>
      refine completes_of_change hs (exec_ringSetSched e s) (ringSetSched_sq hpre hq hw hb0 hb) (rel_ringSetSched ..) fun b _ hk => ?_
      obtain ⟨hsqs, -⟩ := hk .rings (by decide)
      exact ⟨hsqs ▸ kvFind_sqPut_self .., onlyRegs_of_regs_eq (hk .regs (by decide))⟩
  case cq =>
    intro s e c x hs ho h0 h5 hq hc
    have hpre := ringPre_pass ho h0 h5
    refine ⟨fun huse => ?destroy, fun hst hroom hstash hlost => ?resume, fun hmod hvec => ?setMod⟩
    case destroy =>
      refine completes_of_change hs (exec_ringDestroy e s) (ringDestroy_cq hpre hq hc huse) (rel_ringDestroy ..) fun b _ hk => ?_
      obtain ⟨hsqs, hcqs⟩ := hk .rings (by decide)
      exact ⟨hcqs ▸ kvFind_kvDel_self .., hsqs, onlyRegs_of_regs_eq (hk .regs (by decide))⟩
    case resume =>
      have hdrain : (s.dev.cqPut c { x with state := 1 }).stashDrain c =
          (s.dev.cqPut c { x with state := 1 }).cqPut c { x with state := 1, stallTimer := false } :=
        stashDrain_empty (kvFind_cqPut_self ..) hstash hlost
      refine completes_of_change hs (exec_ringResume e s) ((ringResume_cq hpre hq hc hst hroom).trans (by rw [hdrain]))
        (rel_ringResume ..) fun b _ hk => ?_
      obtain ⟨-, hcqs⟩ := hk .rings (by decide)
      exact ⟨hcqs ▸ kvFind_cqPut_self .., onlyRegs_of_regs_eq (hk .regs (by decide))⟩
    case setMod =>
      refine completes_of_change hs (exec_ringSetMod e s) (ringSetMod_cq hpre hq hc hmod hvec) (rel_ringSetMod ..) fun b _ hk => ?_
      obtain ⟨-, hcqs⟩ := hk .rings (by decide)
      exact ⟨hcqs ▸ kvFind_cqPut_self .., onlyRegs_of_regs_eq (hk .regs (by decide))⟩

end Sys2Proof.Proofs

/-! What a write that a tenancy's log records leaves of the tenancies (R94). -/

namespace Sys2Proof.Proofs

open Sys2Proof Sys2Proof.Machine Sys2Proof.Laws

/-- Of the tenancies, only their page logs have changed. -/
structure OnlyLogs (a b : Dev) : Prop where
  ten : ∀ t, { b.tenGet t with log := none } = { a.tenGet t with log := none }

theorem OnlyLogs.refl (a : Dev) : OnlyLogs a a := ⟨fun _ => rfl⟩

theorem OnlyLogs.trans {a b c : Dev} (h : OnlyLogs a b) (k : OnlyLogs b c) : OnlyLogs a c := ⟨fun t => (k.ten t).trans (h.ten t)⟩

theorem OnlyLogs.st {a b : Dev} (h : OnlyLogs a b) (t : Nat) : (b.tenGet t).st = (a.tenGet t).st := by
  have e := congrArg Ten.st (h.ten t)
  exact e

theorem OnlyLogs.resetEvent {a b : Dev} (h : OnlyLogs a b) (t : Nat) : (b.tenGet t).resetEvent = (a.tenGet t).resetEvent := by
  have e := congrArg Ten.resetEvent (h.ten t)
  exact e

theorem onlyLogs_of_tens_eq {a b : Dev} (h : b.ten.tens = a.ten.tens) : OnlyLogs a b := ⟨fun t => by rw [tenGet_of_tens_eq h]⟩

theorem onlyLogs_of_rel {m : Nat} {a b : Dev} (h : Rel m a b) (hm : m.testBit (bit .tens) = false := by decide) : OnlyLogs a b :=
  onlyLogs_of_tens_eq (h.same .tens hm)

theorem onlyLogs_setLog (d : Dev) (t : Nat) (l : Option PageLog) : OnlyLogs d (d.tenPut t { d.tenGet t with log := l }) := by
  refine ⟨fun u => ?_⟩
  by_cases hu : u = t
  · rw [hu, tenGet_tenPut_self]
  · rw [tenGet_tenPut_ne hu]

theorem onlyLogs_dirtyWrite (d : Dev) (t addr bits : Nat) : OnlyLogs d (d.dirtyWrite t addr bits) := by
  unfold Dev.dirtyWrite
  dsimp only
  split
  · exact onlyLogs_setLog ..
  · exact onlyLogs_of_tens_eq rfl

theorem onlyLogs_foldl {α : Type} {g : Dev → α → Dev} (hg : ∀ d x, OnlyLogs d (g d x)) (l : List α) (d : Dev) :
    OnlyLogs d (l.foldl g d) := by
  induction l generalizing d with
  | nil => exact .refl d
  | cons x r ih => exact (hg d x).trans (ih (g d x))

theorem onlyLogs_logWrite (d : Dev) (t addr len : Nat) : OnlyLogs d (d.logWrite t addr len) := by
  unfold Dev.logWrite
  split
  · exact .refl d
  · exact (onlyLogs_setLog ..).trans (onlyLogs_foldl (fun d _ => onlyLogs_dirtyWrite d ..) ..)

/-- What holds of the device once an entry of a completion ring is logged, and survives the rest of its writing, holds once it is
written (R126, R135). -/
theorem cqWrite_keeps {M : Dev → Prop} {d : Dev} {c : Nat} {x : Cq} {e : Cqe}
    (hlog : ∀ (a : Dev) o t addr len, M a → M ((a.emit o).logWrite t addr len)) (hput : ∀ (a : Dev) y, M a → M (a.cqPut c y))
    (hirq : ∀ a : Dev, M a → M (a.irqSignal (.cq c)))
    (h : M ((d.emit (.cqe false c x.write (x.base.toNat + 32 * (x.write % x.size)) (e.place x.write x.log2 x.retas (d.sqhd e.sq)))).logWrite
      x.ten (x.base.toNat + 32 * (x.write % x.size)) 32)) : M (d.cqWrite c x e) := by
  have hmoved := hput _ { x with write := (x.write + 1) % (2 * x.size) } h
  unfold Dev.cqWrite
  dsimp only
  split <;> split
  · exact hirq _ (hlog _ _ _ _ _ hmoved)
  · exact hirq _ hmoved
  · exact hlog _ _ _ _ _ hmoved
  · exact hmoved

theorem onlyLogs_cqWrite (d : Dev) (c : Nat) (x : Cq) (e : Cqe) : OnlyLogs d (d.cqWrite c x e) := by
  have hlog : ∀ (a : Dev) o t addr len, OnlyLogs a ((a.emit o).logWrite t addr len) := fun a o t addr len =>
    (onlyLogs_of_tens_eq (a := a) (b := a.emit o) rfl).trans (onlyLogs_logWrite ..)
  exact cqWrite_keeps (fun a o t addr len h => h.trans (hlog a o t addr len)) (fun _ _ h => h.trans (onlyLogs_of_rel (rel_Dev_cqPut ..)))
    (fun _ h => h.trans (onlyLogs_of_rel (rel_Dev_irqSignal ..))) (hlog ..)

theorem onlyLogs_cqPush (d : Dev) (c : Nat) (gen : Word) (e : Cqe) : OnlyLogs d (d.cqPush c gen e) := by
  unfold Dev.cqPush
  split
  · exact .refl d
  · split
    · exact onlyLogs_of_rel (rel_Dev_discard ..)
    · split
      · exact onlyLogs_cqWrite ..
      · exact onlyLogs_of_rel ((rel_Dev_cqPut ..).trans (rel_Dev_stallUpdate ..))

theorem onlyLogs_tenEvent (d : Dev) (t : Nat) (v : Ev) : OnlyLogs d (d.tenEvent t v) := by
  unfold Dev.tenEvent
  split
  · split
    · exact (onlyLogs_of_rel (rel_Dev_cqPut ..)).trans (onlyLogs_of_rel (rel_Dev_count ..))
    · exact onlyLogs_cqPush ..
  · exact onlyLogs_of_rel (rel_Dev_pfEvent ..)

end Sys2Proof.Proofs

/-! The life of a tenancy: creating, binding, opening, closing, resetting, unbinding and destroying it (R72 to R85, R91 to R93). -/

namespace Sys2Proof.Proofs

open Sys2Proof Sys2Proof.Machine Sys2Proof.Laws

theorem exec_tenCreate (e : AdmEntry) (s : State) : exec (.tenCreate e) s = s.run (·.admRun e 0x10 (tenCreate e)) := rfl

theorem exec_tenDestroy (e : AdmEntry) (s : State) : exec (.tenDestroy e) s = s.run (·.admRun e 0x11 (tenDestroy e)) := rfl

theorem exec_tenBind (e : AdmEntry) (s : State) : exec (.tenBind e) s = s.run (·.admRun e 0x12 (tenBind e)) := rfl

theorem exec_tenUnbind (e : AdmEntry) (s : State) : exec (.tenUnbind e) s = s.run (·.admRun e 0x13 (tenUnbind e)) := rfl

theorem exec_tenOpen (e : AdmEntry) (s : State) : exec (.tenOpen e) s = s.run (·.admRun e 0x14 (tenOpen e)) := rfl

theorem exec_tenClose (e : AdmEntry) (s : State) : exec (.tenClose e) s = s.run (·.admRun e 0x15 (tenClose e)) := rfl

theorem exec_tenReset (e : AdmEntry) (s : State) : exec (.tenReset e) s = s.run (·.admRun e 0x16 (tenResetCmd e)) := rfl

theorem exec_drainComplete (t : Nat) (s : State) : exec (.drainComplete t) s = s.run (·.drainComplete t) := rfl

theorem exec_tenancyResetDone (t : Nat) (s : State) : exec (.tenancyResetDone t) s = s.run (·.tenResetDone t) := rfl

/-! Creating and destroying (R77, R79, R80). -/

/-- The registers of a tenancy that its creation resets. -/
def tenRegsReset (d : Dev) (t : Nat) : Dev :=
  ((d.setReg (Reg.TEN_READ_LIMIT t) 0x100#32).setReg (Reg.TEN_RX_SHUT t) 0#32).setReg (Reg.TEN_DISCARD t) 0#32

theorem tenRegsReset_spec (d : Dev) (t : Nat) :
    (tenRegsReset d t).reg (Reg.TEN_READ_LIMIT t) = 0x100#32 ∧ (tenRegsReset d t).reg (Reg.TEN_RX_SHUT t) = 0#32 ∧
      (tenRegsReset d t).reg (Reg.TEN_DISCARD t) = 0#32 ∧
      OnlyRegs [Reg.TEN_READ_LIMIT t, Reg.TEN_RX_SHUT t, Reg.TEN_DISCARD t] d (tenRegsReset d t) := by
  have hld : Reg.TEN_READ_LIMIT t ≠ Reg.TEN_DISCARD t := by unfold Reg.TEN_READ_LIMIT Reg.TEN_DISCARD; omega
  have hlr : Reg.TEN_READ_LIMIT t ≠ Reg.TEN_RX_SHUT t := by unfold Reg.TEN_READ_LIMIT Reg.TEN_RX_SHUT; omega
  have hrd : Reg.TEN_RX_SHUT t ≠ Reg.TEN_DISCARD t := by unfold Reg.TEN_RX_SHUT Reg.TEN_DISCARD; omega
  refine ⟨?_, ?_, reg_setReg_self .., ?_⟩
  · rw [tenRegsReset, reg_setReg_ne hld, reg_setReg_ne hlr, reg_setReg_self]
  · rw [tenRegsReset, reg_setReg_ne hrd, reg_setReg_self]
  · unfold tenRegsReset
    exact onlyRegs_trans (onlyRegs_trans (onlyRegs_setReg (by simp) _ _) (onlyRegs_setReg (by simp) _ _)) (onlyRegs_setReg (by simp) _ _)

/-- The tenancy that an entry of TEN_CREATE describes; its generation goes on (R80). -/
def newTen (d : Dev) (e : AdmEntry) : Ten :=
  { gen := (d.tenGet e.ten).gen, st := 1, owner := e.pf, rings := fld e.d2 25 16, ctxs := fld e.d2 52 32, keys := fld e.d3 20 0 }

theorem tenCreate_free {e : AdmEntry} {d : Dev} (hl : e.len = 0) (h512 : fld e.d2 25 16 ≤ 512) (hctx : fld e.d2 52 32 ≤ 1048576)
    (hkey : fld e.d3 20 0 ≤ 1048576) (hst : (d.tenGet e.ten).st = 0)
    (hrings : sumNat (d.liveTens.map fun x => x.2.rings) + fld e.d2 25 16 ≤ 65536)
    (hctxs : sumNat (d.liveTens.map fun x => x.2.ctxs) + fld e.d2 52 32 ≤ 1048576)
    (hkeys : sumNat (d.liveTens.map fun x => x.2.keys) + fld e.d3 20 0 ≤ 1048576) :
    tenCreate e d = .done (tenRegsReset (d.tenPut e.ten (newTen d e)) e.ten) := by
  unfold tenCreate
  exact admChecks_pass (by simp [Dev.notOwner, hl, h512, hctx, hkey, hst, hrings, hctxs, hkeys]) _

theorem getLast_tollMarker (d : Dev) (t : Nat) : (d.tollMarker t).toll.link.getLast? = some (.marker t) :=
  List.getLast?_concat ..

/-- A tenancy destroyed: all but its generation goes, with its rings, its indirection table and its time page. -/
theorem tenDestroy_created {e : AdmEntry} {s : State} (ho : Owns e e.ten s) (hl : e.len = 0) (hst : (s.dev.tenGet e.ten).st = 1) :
    ∃ d, tenDestroy e s.dev = .done d ∧ d.ten.tens = (s.dev.tenPut e.ten { gen := (s.dev.tenGet e.ten).gen }).ten.tens ∧
      d.ring.sqs = s.dev.ring.sqs.filter (fun q => decide (q.2.ten ≠ e.ten)) ∧
      d.ring.cqs = s.dev.ring.cqs.filter (fun q => decide (q.2.ten ≠ e.ten)) ∧ d.cls.inds = kvDel e.ten s.dev.cls.inds ∧
      d.time.pages = kvDel e.ten s.dev.time.pages ∧ d.toll = (s.dev.tollMarker e.ten).toll ∧ d.regs = s.dev.regs ∧
      d.glb = s.dev.glb ∧ d.ring.taken = s.dev.ring.taken := by
  unfold tenDestroy
  exact ⟨_, admChecks_pass (by simp [notOwner_owns ho, hl, hst]) _, rfl, rfl, rfl, rfl, rfl, rfl, rfl, rfl, rfl⟩

/-! Binding (R74, R86, R87). -/

/-- A tenancy bound. -/
def boundTen (x : Ten) (b : Binding) : Ten := Ten.takeShare { x with st := 2, binding := some b } x.share true

theorem port_of_lt {f : Fn} (h : f.pfOf < 16) : f.port = f.pfOf / 8 := by
  unfold Fn.port
  split <;> omega

section
variable {e : AdmEntry} {s : State} {x : Ten} (hx : x = s.dev.tenGet e.ten) (hst : x.st = 1) (ho : x.owner = e.pf)
  (hpf : fld e.d2 19 16 = x.owner) (hl : e.len = 0) (hfloor : s.dev.floorSum (x.owner / 8) e.ten + x.share.floor ≤ 16000)
include hx hst ho hpf hl hfloor

theorem tenBind_pf (hvf : bitOf e.d2 20 = false) (hpas : bitOf e.d3 31 = false)
    (hfree : ∀ y ∈ s.dev.ten.tens, y.2.fn = some (.pf x.owner) → y.2.pasid ≠ none) :
    tenBind e s.dev =
      .done (s.dev.tenPut e.ten (boundTen x { isVf := false, vf := fld e.d2 41 32, slot := 0, pasid := none })) := by
  have h16 : x.owner < 16 := hpf ▸ Nat.mod_lt _ (by decide)
  have hown : (s.dev.notOwner e e.ten).1 = false := notOwner_owns (.inr (hx ▸ ho))
  have hport : (Fn.pf x.owner).port = x.owner / 8 := port_of_lt h16
  subst hx
  unfold tenBind
  simp only [hvf, hpas, hpf, Bool.false_eq_true, if_false]
  refine admChecks_pass ?_ _
  simpa [hown, hst, hl, hport, hfloor] using fun i y hy hf => hfree (i, y) hy hf

theorem tenBind_vf (hvf : bitOf e.d2 20 = true) (hex : s.dev.vfExists x.owner (fld e.d2 41 32) = true) (hpas : bitOf e.d3 31 = true)
    (hpas0 : fld e.d3 19 0 ≠ 0) (hfree : ∀ y ∈ s.dev.ten.tens, y.2.fn ≠ some (.vf x.owner (fld e.d2 41 32))) :
    tenBind e s.dev =
      .done (s.dev.tenPut e.ten (boundTen x { isVf := true, vf := fld e.d2 41 32, slot := 0, pasid := some (fld e.d3 19 0) })) := by
  have h16 : x.owner < 16 := hpf ▸ Nat.mod_lt _ (by decide)
  have hown : (s.dev.notOwner e e.ten).1 = false := notOwner_owns (.inr (hx ▸ ho))
  have hport : (Fn.vf x.owner (fld e.d2 41 32)).port = x.owner / 8 := port_of_lt h16
  have hnone : s.dev.ten.tens.filter (fun y => decide (y.2.fn = some (Fn.vf x.owner (fld e.d2 41 32)))) = [] :=
    List.filter_eq_nil_iff.2 fun y hy => by simpa using hfree y hy
  have hslot : leastBelow (fun _ => true) 16 = some 0 := rfl
  subst hx
  unfold tenBind
  simp only [hvf, hpas, hpf, if_true, hnone, List.any_nil, Bool.not_false, hslot]
  refine admChecks_pass ?_ _
  simp [hown, hst, hl, hport, hfloor, hex, hpas0]

end

/-! Opening (R77, R92, R101). -/

/-- A tenancy opened is OPEN, its RESET event no longer due; what is then sent touches no tenancy but in its page log. -/
theorem tenOpen_bound {e : AdmEntry} {s : State} (ho : Owns e e.ten s) (hl : e.len = 0) (hst : (s.dev.tenGet e.ten).st = 2) :
    ∃ d, tenOpen e s.dev = .done d ∧
      OnlyLogs (s.dev.tenPut e.ten { s.dev.tenGet e.ten with st := 3, resetEvent := false }) d := by
  unfold tenOpen
  refine ⟨_, admChecks_pass (by simp [notOwner_owns ho, hl, hst]) _, .trans ?_ (onlyLogs_of_rel (rel_Dev_imtFlush ..))⟩
  split
  · exact onlyLogs_tenEvent ..
  · exact .refl _

/-! Resets (R77, R78, R91). -/

/-- What a tenancy reset changes beside the tenancy itself. -/
def resetParts : List Part :=
  [.hbm, .square, .admJ, .tue, .hifPorts, .fns, .hifReq, .imt, .rings, .jobs, .adm, .taken, .dma, .port, .twin, .cry, .sto, .arc, .out]

theorem tenReset_rel {d : Dev} {t : Nat} (h2 : 2 ≤ (d.tenGet t).st) (h4 : (d.tenGet t).st ≤ 4) :
    Rel (maskOf resetParts) (d.tenPut t { d.tenGet t with st := 5, gen := (d.tenGet t).gen + 1 }) (d.tenReset t) := by
  have hst : (!decide (2 ≤ (d.tenGet t).st ∧ (d.tenGet t).st ≤ 4)) = false := by simp [h2, h4]
  unfold Dev.tenReset
  simp only [hst, Bool.false_eq_true, if_false]
  exact ((((rel_Dev_resetRings ..).mono (by decide)).trans ((rel_Dev_resetCommands ..).mono (by decide))).trans
    ((rel_Dev_resetTags ..).mono (by decide))).trans ((rel_Dev_resetEngines ..).mono (by decide))

/-- A command that resets its tenancy and waits for the end of the reset, noted as `g` says. -/
theorem runs_of_reset {c : Instr} {e : AdmEntry} {opc : Nat} {s : State} {f : Dev → AdmRes} {g : Ten → Ten} {P : Dev → Prop}
    (hs : AdmReady s) (he : exec c s = s.run (·.admRun e opc f)) (h2 : 2 ≤ (s.dev.tenGet e.ten).st) (h4 : (s.dev.tenGet e.ten).st ≤ 4)
    (hf : f s.dev = .wait ((s.dev.tenReset e.ten).tenPut e.ten (g ((s.dev.tenReset e.ten).tenGet e.ten))))
    (hp : ∀ b, AdmWaits b e → b.tenGet e.ten = g { s.dev.tenGet e.ten with st := 5, gen := (s.dev.tenGet e.ten).gen + 1 } →
      (∀ t, t ≠ e.ten → b.tenGet t = s.dev.tenGet t) → OnlyRegs [] s.dev b → P b) : Runs c s P := by
  have hreset := tenReset_rel h2 h4
  obtain ⟨hself, hother⟩ := tenGet_of_put (hreset.same .tens (by decide))
  refine runs_of_wait hs he hf fun b hw hk => ?_
  obtain ⟨hb, hbo⟩ := tenGet_of_put (hk .tens (by decide))
  refine hp b hw (by rw [hb, hself]) (fun t ht => (hbo t ht).trans (hother t ht)) ?_
  exact onlyRegs_trans (onlyRegs_of_rel (rel_Dev_tenReset s.dev e.ten)) (onlyRegs_of_regs_eq (hk .regs (by decide)))

theorem tenResetCmd_live {e : AdmEntry} {s : State} (ho : Owns e e.ten s) (hl : e.len = 0) (h2 : 2 ≤ (s.dev.tenGet e.ten).st)
    (h4 : (s.dev.tenGet e.ten).st ≤ 4) :
    tenResetCmd e s.dev =
      .wait ((s.dev.tenReset e.ten).tenPut e.ten { (s.dev.tenReset e.ten).tenGet e.ten with resetCmd := some e }) := by
  have hst : (s.dev.tenGet e.ten).st = 2 ∨ (s.dev.tenGet e.ten).st = 3 ∨ (s.dev.tenGet e.ten).st = 4 := by omega
  unfold tenResetCmd
  exact admChecks_pass (by simp [notOwner_owns ho, hl, hst]) _

theorem tenUnbind_bound {e : AdmEntry} {s : State} (ho : Owns e e.ten s) (hl : e.len = 0) (hst : (s.dev.tenGet e.ten).st = 2) :
    tenUnbind e s.dev =
      .wait ((s.dev.tenReset e.ten).tenPut e.ten { (s.dev.tenReset e.ten).tenGet e.ten with unbindCmd := some e }) := by
  unfold tenUnbind
  exact admChecks_pass (by simp [notOwner_owns ho, hl, hst]) _

theorem tens_admLate (d : Dev) (e : AdmEntry) (opc st det len : Nat) : (d.admLate e opc st det len).ten.tens = d.ten.tens :=
  (rel_Dev_admLate ..).same .tens (by decide)

/-- A tenancy whose reset has ended (R91 step 8). -/
def resetTen (x : Ten) : Ten :=
  { x with
    st := 2, lastRing := 511, ringTurns := 0, resetEvent := true, closing := none, resetCmd := none, unbindCmd := none,
    resetUnbinds := false }

section
variable {d : Dev} {t : Nat} (h5 : (d.tenGet t).st = 5)
include h5

theorem tens_tenResetDone (hu : (d.tenGet t).unbindCmd = none) (hr : (d.tenGet t).resetUnbinds = false) :
    (d.tenResetDone t).ten.tens = (d.tenPut t (resetTen (d.tenGet t))).ten.tens := by
  unfold Dev.tenResetDone
  simp only [h5, hu, hr, ne_eq, not_true, Bool.false_eq_true, if_false]
  cases (d.tenGet t).closing <;> cases (d.tenGet t).resetCmd <;> simp only [tens_admLate] <;> rfl

/-- The tenancy is unbound last, but for the completion of TEN_UNBIND. -/
theorem tenResetDone_unbinds (hu : (d.tenGet t).unbindCmd ≠ none ∨ (d.tenGet t).resetUnbinds = true) :
    ∃ a : Dev, Rel (maskOf Machine.admParts) (a.unbind t) (d.tenResetDone t) := by
  unfold Dev.tenResetDone
  simp only [h5, ne_eq, not_true, if_false]
  cases hc : (d.tenGet t).unbindCmd with
  | some e => exact ⟨_, (rel_Dev_admLate ..).mono (by decide)⟩
  | none =>
    have hr : (d.tenGet t).resetUnbinds = true := hu.resolve_left (by simp [hc])
    simp only [hr, if_true]
    exact ⟨_, .refl ..⟩

end

theorem unbind_spec (d : Dev) (t : Nat) :
    ((d.unbind t).tenGet t).st = 1 ∧ ((d.unbind t).tenGet t).binding = none ∧ kvFind t (d.unbind t).cls.inds = none := by
  unfold Dev.unbind
  dsimp only
  rw [tenGet_tenPut_self]
  exact ⟨rfl, rfl, kvFind_kvDel_self ..⟩

/-! Closing (R84, R85). -/

/-- The Shutter closes: the tenancy drains, and what its commands and interrupts then do leaves the tenancies alone. -/
theorem tenClose_open {e : AdmEntry} {s : State} (ho : Owns e e.ten s) (hl : e.len = 0) (hst : (s.dev.tenGet e.ten).st = 3) :
    ∃ d, tenClose e s.dev = .wait d ∧
      Rel (maskOf [.hifPorts, .fns, .hifReq, .imt, .rings, .jobs, .dma, .sto, .arc, .out])
        (s.dev.tenPut e.ten { s.dev.tenGet e.ten with st := 4, closing := some (e, bitOf e.d2 32) }) d := by
  unfold tenClose
  refine ⟨_, admChecks_pass (by simp [notOwner_owns ho, hl, hst]) _, ?_⟩
  refine Rel.foldl (fun d i => (rel_Dev_irqFire ..).mono (by decide)) ?_
  refine Rel.ite (Rel.foldl (fun d j => (rel_Dev_jobAbort ..).mono (by decide)) ?_) ?_
  all_goals exact (Rel.u_rings (by decide)).2 (.refl ..)

theorem tens_drainComplete {d : Dev} {t : Nat} (hst : (d.tenGet t).st = 4) (hjobs : ∀ j ∈ d.ring.jobs, j.ten ≠ t)
    (hstash : ∀ c ∈ d.ring.cqs, c.2.ten = t → c.2.stash = []) :
    (d.drainComplete t).ten.tens = (d.tenPut t { d.tenGet t with st := 2, closing := none }).ten.tens := by
  have hnojob : (d.ring.jobs.any fun j => decide (j.ten = t)) = false := by simpa using hjobs
  have hempty : (d.ring.cqs.any fun c => decide (c.2.ten = t) && !c.2.stash.isEmpty) = false := by
    simpa using fun i c hc ht => hstash (i, c) hc ht
  unfold Dev.drainComplete
  simp only [hst, hnojob, hempty, ne_eq, not_true, Bool.false_eq_true, or_self, if_false]
  cases (d.tenGet t).closing with
  | none => rfl
  | some c => exact tens_admLate ..

/-- Settles O17, clause by clause: what each command writes of its tenancy, and that every other tenancy stays. -/
theorem tenancyLifecycle : Obligations.TenancyLifecycle := by
  unfold Obligations.TenancyLifecycle
  refine ⟨?create, ?destroy, ?bindPf, ?bindVf, ?openUnbind, ?close, ?reset, ?drained, ?resetDone⟩
  case create =>
    intro s e hs hl h512 hctx hkey hst hrings hctxs hkeys
    refine completes_of_change hs (exec_tenCreate e s) (tenCreate_free hl h512 hctx hkey hst hrings hctxs hkeys) (rel_tenCreate ..)
      fun b _ hk => ?_
    have hregs : b.regs = (tenRegsReset (s.dev.tenPut e.ten (newTen s.dev e)) e.ten).regs := hk .regs (by decide)
    obtain ⟨hself, hother⟩ := tenGet_of_put (a := s.dev) (hk .tens (by decide))
    obtain ⟨hlimit, hshut, hdiscard, honly⟩ := tenRegsReset_spec (s.dev.tenPut e.ten (newTen s.dev e)) e.ten
    refine ⟨hself, hother, ?_, ?_, ?_, onlyRegs_trans honly (onlyRegs_of_regs_eq hregs)⟩
    all_goals rw [reg_of_regs_eq hregs]
    · exact hlimit
    · exact hshut
    · exact hdiscard
  case destroy =>
    intro s e hs ho hl hst
    obtain ⟨d, hdone, htens, hsqs, hcqs, hinds, hpages, htoll, hregs, hglb, htaken⟩ := tenDestroy_created ho hl hst
    refine completes_of_effect hs (exec_tenDestroy e s) hdone (by rw [hglb]) htaken fun b _ hk => ?_
    obtain ⟨hsq, hcq⟩ := hk .rings (by decide)
    have hcls : b.cls = d.cls := hk .cls (by decide)
    have htime : b.time = d.time := hk .time (by decide)
    have hlink : b.toll = d.toll := hk .toll (by decide)
    obtain ⟨hself, hother⟩ := tenGet_of_put ((hk .tens (by decide)).trans htens)
    refine ⟨hself, hother, fun x hx => ?_, fun x hx => ?_, ?_, ?_, ?_, onlyRegs_of_regs_eq ((hk .regs (by decide)).trans hregs)⟩
    · rw [hsq, hsqs] at hx
      simpa using (List.mem_filter.1 hx).2
    · rw [hcq, hcqs] at hx
      simpa using (List.mem_filter.1 hx).2
    · rw [hcls, hinds]
      exact kvFind_kvDel_self ..
    · rw [htime, hpages]
      exact kvFind_kvDel_self ..
    · rw [hlink, htoll]
      exact getLast_tollMarker ..
  case bindPf =>
    intro s e x hs hx hst ho hpf hl hvf hpas hfree hfloor
    refine completes_of_change hs (exec_tenBind e s) (tenBind_pf hx hst ho hpf hl hfloor hvf hpas hfree) (rel_tenBind ..) fun b _ hk => ?_
    obtain ⟨hself, hother⟩ := tenGet_of_put (hk .tens (by decide))
    rw [hself]
    exact ⟨rfl, rfl, rfl, hother, onlyRegs_of_regs_eq (hk .regs (by decide))⟩
  case bindVf =>
    intro s e x hs hx hst ho hpf hl hvf hex hpas hpas0 hfree hfloor
    refine completes_of_change hs (exec_tenBind e s) (tenBind_vf hx hst ho hpf hl hfloor hvf hex hpas hpas0 hfree) (rel_tenBind ..)
      fun b _ hk => ?_
    obtain ⟨hself, hother⟩ := tenGet_of_put (hk .tens (by decide))
    rw [hself]
    exact ⟨rfl, rfl, hother, onlyRegs_of_regs_eq (hk .regs (by decide))⟩
  case openUnbind =>
    intro s e hs ho hl hst
    refine ⟨?opens, ?unbinds⟩
    case opens =>
      obtain ⟨d, hdone, hlogs⟩ := tenOpen_bound ho hl hst
      refine completes_of_change hs (exec_tenOpen e s) hdone (rel_tenOpen ..) fun b _ hk => ?_
      rw [tenGet_of_tens_eq (hk .tens (by decide)), hlogs.st, hlogs.resetEvent, tenGet_tenPut_self]
      exact ⟨rfl, rfl⟩
    case unbinds =>
      refine runs_of_reset (g := fun x => { x with unbindCmd := some e }) hs (exec_tenUnbind e s) (by omega) (by omega)
        (tenUnbind_bound ho hl hst) fun b hw hself hother honly => ?_
      rw [hself]
      exact ⟨hw, rfl, rfl, rfl, hother, honly⟩
  case close =>
    intro s e hs ho hl hst
    obtain ⟨d, hwait, hrel⟩ := tenClose_open ho hl hst
    refine runs_of_wait hs (exec_tenClose e s) hwait fun b hw hk => ?_
    obtain ⟨hself, hother⟩ := tenGet_of_put (same_trans (p := .tens) (hrel.same .tens (by decide)) (hk .tens (by decide)))
    rw [hself]
    exact ⟨hw, rfl, rfl, rfl, hother,
      onlyRegs_of_regs_eq (same_trans (p := .regs) (hrel.same .regs (by decide)) (hk .regs (by decide)))⟩
  case reset =>
    intro s e hs ho hl h2 h4
    refine runs_of_reset (g := fun x => { x with resetCmd := some e }) hs (exec_tenReset e s) h2 h4 (tenResetCmd_live ho hl h2 h4)
      fun b hw hself hother honly => ?_
    rw [hself]
    exact ⟨hw, rfl, rfl, rfl, hother, honly⟩
  case drained =>
    intro s t hs hst hjobs hstash
    obtain ⟨hself, hother⟩ := tenGet_of_put (tens_drainComplete hst hjobs hstash)
    exact runs_of_run hs (exec_drainComplete t s) ⟨hself, hother, onlyRegs_of_rel (rel_Dev_drainComplete s.dev t)⟩
  case resetDone =>
    intro s t hs h5
    refine runs_of_run hs (exec_tenancyResetDone t s) ⟨onlyRegs_of_rel (rel_Dev_tenResetDone s.dev t), fun hu hr => ?_, fun hu => ?_⟩
    · obtain ⟨hself, -⟩ := tenGet_of_put (tens_tenResetDone h5 hu hr)
      rw [hself]
      exact ⟨rfl, rfl, rfl, rfl, rfl⟩
    · obtain ⟨a, hrel⟩ := tenResetDone_unbinds h5 hu
      have hcls : (s.dev.tenResetDone t).cls = (a.unbind t).cls := hrel.same .cls (by decide)
      rw [tenGet_of_tens_eq (hrel.same .tens (by decide)), hcls]
      exact unbind_spec a t

end Sys2Proof.Proofs

/-! Shares, page logs, images, and the interrupt message table (R86, R87, R90, R94 to R102). -/

namespace Sys2Proof.Proofs

open Sys2Proof Sys2Proof.Machine Sys2Proof.Laws

theorem exec_tenSetShare (e : AdmEntry) (s : State) : exec (.tenSetShare e) s = s.run (·.admRun e 0x17 (tenSetShare e)) := rfl

theorem exec_shareApply (p : Nat) (s : State) : exec (.shareApply p) s = s.run (·.shareApply p) := rfl

theorem exec_logStart (e : AdmEntry) (s : State) : exec (.logStart e) s = s.run (·.admRun e 0x18 (logStart e)) := rfl

theorem exec_logFlush (e : AdmEntry) (s : State) : exec (.logFlush e) s = s.run (·.admRun e 0x19 (logFlush false e)) := rfl

theorem exec_logStop (e : AdmEntry) (s : State) : exec (.logStop e) s = s.run (·.admRun e 0x1A (logFlush true e)) := rfl

theorem exec_logFlushReadDone (t : Nat) (s : State) : exec (.logFlushReadDone t) s = s.run (·.logEnd t none) := rfl

theorem exec_tenExport (e : AdmEntry) (s : State) :
    exec (.tenExport e) s = s.run (·.keyRun e 0x1B [fld e.d3 19 0] (tenExport e)) := rfl

theorem exec_tenImport (e : AdmEntry) (i : Option TenImage) (s : State) :
    exec (.tenImport e i) s = s.run (·.keyRun e 0x1C [fld e.d3 19 0] (tenImport e i)) := rfl

theorem exec_imtWrite (e : AdmEntry) (s : State) : exec (.imtWrite e) s = s.run (·.admRun e 0x1D (imtWrite e)) := rfl

theorem exec_imtRead (e : AdmEntry) (s : State) : exec (.imtRead e) s = s.run (·.admRun e 0x1E (imtRead e)) := rfl

theorem mem_one_to_five {n : Nat} (h1 : 1 ≤ n) (h5 : n ≤ 5) : n ∈ [1, 2, 3, 4, 5] := by
  simp only [List.mem_cons, List.not_mem_nil, or_false]
  omega

theorem mem_two_to_five {n : Nat} (h2 : 2 ≤ n) (h5 : n ≤ 5) : n ∈ [2, 3, 4, 5] := by
  simp only [List.mem_cons, List.not_mem_nil, or_false]
  omega

/-! Shares (R86, R87, R90). -/

/-- The share that an entry of TEN_SET_SHARE names. -/
def entryShare (e : AdmEntry) : Share := { weight := fld e.d2 23 16, floor := fld e.d2 47 32, ceiling := fld e.d3 15 0 }

section
variable {e : AdmEntry} {s : State} (ho : Owns e e.ten s) (hl : e.len = 0)
  (hc : (entryShare e).ceiling = 0 ∨ (entryShare e).floor ≤ (entryShare e).ceiling)
include ho hl hc

theorem tenSetShare_created (hst : (s.dev.tenGet e.ten).st = 1) :
    tenSetShare e s.dev = .done (s.dev.tenPut e.ten { s.dev.tenGet e.ten with share := entryShare e }) := by
  have hrange : ¬((entryShare e).ceiling ≠ 0 ∧ (entryShare e).ceiling < (entryShare e).floor) := by omega
  unfold entryShare at hrange
  unfold tenSetShare
  rw [admChecks_pass]
  · simp only [hst, if_true]
    rfl
  · simpa [notOwner_owns ho, hl, hst] using hrange

theorem tenSetShare_bound (h2 : 2 ≤ (s.dev.tenGet e.ten).st) (h5 : (s.dev.tenGet e.ten).st ≤ 5)
    (hfloor : s.dev.floorSum (s.dev.tenPort e.ten) e.ten + (entryShare e).floor ≤ 16000) :
    tenSetShare e s.dev = .wait (s.dev.tenPut e.ten { s.dev.tenGet e.ten with
      waitShare := some (entryShare e), waitCmds := (s.dev.tenGet e.ten).waitCmds ++ [e] }) := by
  have hrange : ¬((entryShare e).ceiling ≠ 0 ∧ (entryShare e).ceiling < (entryShare e).floor) := by omega
  have hsum : ¬16000 < s.dev.floorSum (s.dev.tenPort e.ten) e.ten + (entryShare e).floor := by omega
  have h1 : ¬(s.dev.tenGet e.ten).st = 1 := by omega
  have hin := mem_one_to_five (by omega) h5
  unfold entryShare at hrange hsum
  unfold tenSetShare
  rw [admChecks_pass]
  · simp only [h1, if_false]
    rfl
  · simp only [passes_cons, passes_nil, notOwner_owns ho, lenNot_passes, notIn_passes, and_true, true_and]
    exact ⟨hl, by simpa using hrange, hin, by simpa using fun _ => hsum⟩

end

theorem tens_foldl_admLate (l : List AdmEntry) (opc st det len : Nat) (d : Dev) :
    (l.foldl (fun d e => d.admLate e opc st det len) d).ten.tens = d.ten.tens :=
  (Rel.foldl (a := d) (m := maskOf Machine.admParts) (fun _ _ => (rel_Dev_admLate ..).mono (by decide)) (.refl ..)).same .tens (by decide)

/-- A share that waited is in effect, and nothing waits any more. -/
theorem applyShare_waiting {d : Dev} {t : Nat} {h : Share} (hw : (d.tenGet t).waitShare = some h) :
    (d.applyShare t).ten.tens =
      (d.tenPut t { (d.tenGet t).takeShare h false with waitShare := none, waitCmds := [] }).ten.tens := by
  unfold Dev.applyShare
  simp only [hw]
  exact tens_foldl_admLate ..

/-- At the round boundary of a port with one tenancy its share applies. -/
theorem tens_shareApply {d : Dev} {p t : Nat} (hprio : d.prioTens p = []) (hnext : d.nextTen p = none) (hports : d.portTens p = [t]) :
    (d.shareApply p).ten.tens = (d.applyShare t).ten.tens := by
  simp [Dev.shareApply, hprio, hnext, Dev.roundEnd, hports]

/-! The page log (R94 to R97). -/

theorem logStart_off {e : AdmEntry} {s : State} (ho : Owns e e.ten s) (hl : e.len = 0) (h3 : e.d3.toNat % 4096 = 0)
    (hp0 : fld e.d4 34 0 ≠ 0) (hp : fld e.d4 34 0 ≤ 2 ^ 34) (h5 : e.d5.toNat % 8 = 0) (h6 : e.d6.toNat % 8 = 0)
    (hlo : 2 ≤ (s.dev.tenGet e.ten).st) (hhi : (s.dev.tenGet e.ten).st ≤ 5) (hlog : (s.dev.tenGet e.ten).log = none) :
    logStart e s.dev = .done (s.dev.tenPut e.ten { s.dev.tenGet e.ten with
      epoch := 0, log := some { base := e.d3.toNat, pages := fld e.d4 34 0, bufA := e.d5.toNat, bufB := e.d6.toNat } }) := by
  have hpages : ¬(fld e.d4 34 0 = 0 ∨ 2 ^ 34 < fld e.d4 34 0) := by omega
  unfold logStart
  refine admChecks_pass ?_ _
  simp only [passes_cons, passes_nil, notOwner_owns ho, lenNot_passes, notIn_passes, decide_eq_false hpages, hlog, h3, h5, h6, ne_eq,
    not_true, decide_false, Option.isSome_none, and_true, true_and]
  exact ⟨hl, mem_two_to_five hlo hhi⟩

/-- A page log whose epoch has ended: what it had marked is the flush's or the stop's to report. -/
def epochEnded (x : Ten) (l : PageLog) (stop : Bool) (e : AdmEntry) : Ten :=
  { x with
    epoch := x.epoch + 1
    log := some { l with oor := false, marked := [], stopped := stop, waiting := l.waiting ++ [(e, stop, l.oor, x.epoch % 2)] } }

theorem logFlush_on {e : AdmEntry} {s : State} {l : PageLog} (ho : Owns e e.ten s) (hl : e.len = 0) (hlo : 2 ≤ (s.dev.tenGet e.ten).st)
    (hhi : (s.dev.tenGet e.ten).st ≤ 5) (hlog : (s.dev.tenGet e.ten).log = some l) (hon : l.stopped = false) (stop : Bool) :
    ∃ d, logFlush stop e s.dev = .wait d ∧ d.ten.tens = (s.dev.tenPut e.ten (epochEnded (s.dev.tenGet e.ten) l stop e)).ten.tens := by
  unfold logFlush
  simp only [hlog]
  refine ⟨_, admChecks_pass ?_ _, (rel_Dev_queueReadAs ..).same .tens (by decide)⟩
  simp only [passes_cons, passes_nil, notOwner_owns ho, lenNot_passes, notIn_passes, Option.elim_some, hon, Bool.not_false, Bool.not_true,
    and_true, true_and]
  exact ⟨hl, mem_two_to_five hlo hhi⟩

theorem tens_logEnd {d : Dev} {t buf : Nat} {l : PageLog} {e : AdmEntry} {stop oor : Bool} {r : List (AdmEntry × Bool × Bool × Nat)}
    (hlog : (d.tenGet t).log = some l) (hw : l.waiting = (e, stop, oor, buf) :: r) :
    (d.logEnd t none).ten.tens =
      (d.tenPut t { d.tenGet t with log := if stop then none else some { l with waiting := r } }).ten.tens := by
  unfold Dev.logEnd
  simp only [hlog, hw, tens_admLate]
  rfl

/-! Commands that read key slots (R266). -/

/-- While no slot it reads is bad, such a command ends as any other. -/
theorem keyRun_done {d d' : Dev} {e : AdmEntry} {opc n det len : Nat} {data : List Byte} {f : Dev → AdmRes}
    (hf : f d = .done d' det len data) (hn : d.slotBad n = false) : d.keyRun e opc [n] f = d.admRun e opc f := by
  unfold Dev.keyRun
  split
  · rename_i hc
    simp [Dev.admRun, hc]
  · simp [hf, hn, Dev.admRun]

/-! Images of tenancies (R98, R271). -/

theorem freeBytes_length (k n : Nat) : (freeBytes k n).length = n := by simp [freeBytes]

theorem tenExport_bound {e : AdmEntry} {s : State} (ho : Owns e e.ten s) (hst : (s.dev.tenGet e.ten).st = 2)
    (hkey : (s.dev.transferBad e.ten (fld e.d3 19 0)).1 = false) (hlen : s.dev.imageLen e.ten (fld e.d3 19 0) ≤ e.len) :
    tenExport e s.dev = .done s.dev.draw.2 0 (s.dev.imageLen e.ten (fld e.d3 19 0))
      (freeBytes s.dev.serial (s.dev.imageLen e.ten (fld e.d3 19 0))) := by
  unfold tenExport
  exact admChecks_pass (by simp [notOwner_owns ho, hst, hkey, hlen]) _

/-- A key slot holds a key of the tenancy. -/
def HasKey (d : Dev) (t n : Nat) : Prop := ∃ x, d.slot n = some x ∧ x.ten = t ∧ x.dev = false

theorem hasKey_of_cry_eq {a b : Dev} {t n : Nat} (h : HasKey a t n) (hs : b.cry.slots = a.cry.slots) : HasKey b t n := by
  rwa [HasKey, Dev.slot, hs]

theorem hasKey_putSlot_self (d : Dev) (t n type usage origin : Nat) (m : List Byte) :
    HasKey (d.putSlot (some t) n type usage origin m) t n := ⟨_, kvFind_kvPut_self .., rfl, rfl⟩

theorem hasKey_putSlot {d : Dev} {t n : Nat} (h : HasKey d t n) (k type usage origin : Nat) (m : List Byte) :
    HasKey (d.putSlot (some t) k type usage origin m) t n := by
  by_cases hn : n = k
  · subst hn
    exact hasKey_putSlot_self ..
  · obtain ⟨x, hx, hown⟩ := h
    exact ⟨x, (kvFind_kvPut_ne hn ..).trans hx, hown⟩

/-- A key of an image goes to its slot. -/
def putKey (t : Nat) (d : Dev) (k : Nat × Nat × Nat × Nat × List Byte) : Dev :=
  d.putSlot (some t) k.1 k.2.1 k.2.2.1 k.2.2.2.1 k.2.2.2.2

theorem hasKey_foldl_putKey {t : Nat} (l : List (Nat × Nat × Nat × Nat × List Byte)) (d : Dev) :
    (∀ n, HasKey d t n → HasKey (l.foldl (putKey t) d) t n) ∧ ∀ k ∈ l, HasKey (l.foldl (putKey t) d) t k.1 := by
  induction l generalizing d with
  | nil => exact ⟨fun _ h => h, fun _ h => absurd h List.not_mem_nil⟩
  | cons x r ih =>
    obtain ⟨hkeep, hnew⟩ := ih (putKey t d x)
    refine ⟨fun n h => hkeep n (hasKey_putSlot h ..), fun k hk => ?_⟩
    rcases List.mem_cons.1 hk with rfl | hk
    · exact hkeep _ (hasKey_putSlot_self ..)
    · exact hnew k hk

theorem slots_foldl {α : Type} {g : Dev → α → Dev} (hg : ∀ d x, (g d x).cry.slots = d.cry.slots) (l : List α) (d : Dev) :
    (l.foldl g d).cry.slots = d.cry.slots := by
  induction l generalizing d with
  | nil => rfl
  | cons x r ih => exact (ih (g d x)).trans (hg d x)

/-- An image that fits is loaded: its keys stand in their slots. -/
theorem tenImport_fits {e : AdmEntry} {s : State} {i : TenImage} (ho : Owns e e.ten s) (hst : (s.dev.tenGet e.ten).st = 2)
    (hctxs : s.dev.ctxsOf e.ten = 0) (hslots : ∀ k ∈ s.dev.cry.slots, k.1 ≠ fld e.d3 19 0 → k.2.dev = true ∨ k.2.ten ≠ e.ten)
    (hkey : (s.dev.transferBad e.ten (fld e.d3 19 0)).1 = false) (hbuf : e.bufCheck.1 = false)
    (hr : s.dev.ringsOf e.ten + i.rings.length ≤ (s.dev.tenGet e.ten).rings) (hc : i.ctxs.length ≤ (s.dev.tenGet e.ten).ctxs)
    (hk : i.keys.length + 1 ≤ (s.dev.tenGet e.ten).keys) (hcfree : ∀ c ∈ i.ctxs, s.dev.ctxOwner c.1 = none)
    (hkfree : ∀ k ∈ i.keys, s.dev.slot k.1 = none) :
    ∃ d, tenImport e (some i) s.dev = .done d ∧ ∀ k ∈ i.keys, HasKey d e.ten k.1 := by
  have hnokey : s.dev.cry.slots.filter (fun k => !k.2.dev && decide (k.2.ten = e.ten ∧ k.1 ≠ fld e.d3 19 0)) = [] := by
    refine List.filter_eq_nil_iff.2 fun k hk => ?_
    by_cases hn : k.1 = fld e.d3 19 0
    · simp [hn]
    · rcases hslots k hk hn with h | h <;> simp [h]
  have hquota : ¬((s.dev.tenGet e.ten).rings < s.dev.ringsOf e.ten + i.rings.length ∨ (s.dev.tenGet e.ten).ctxs < i.ctxs.length ∨
      (s.dev.tenGet e.ten).keys < i.keys.length + 1) := by omega
  have hcused : (i.ctxs.any fun c => (s.dev.ctxOwner c.1).isSome) = false :=
    List.any_eq_false.2 fun c hc => by simp [hcfree c hc]
  have hkused : (i.keys.any fun k => (s.dev.slot k.1).isSome) = false :=
    List.any_eq_false.2 fun k hk => by simp [hkfree k hk]
  unfold tenImport
  refine ⟨_, admChecks_pass ?_ _, fun k hk => ?_⟩
  · simp only [passes_cons, passes_nil, Option.getD_some, hnokey, hcused, hkused, decide_eq_false hquota, notOwner_owns ho, notIn_passes,
      hst, hctxs, hkey, hbuf, List.length_nil, List.mem_singleton, lt_self_iff_false, or_self, decide_false, Option.isNone_some,
      Bool.or_self, and_self]
  · refine hasKey_of_cry_eq ((hasKey_foldl_putKey i.keys _).2 k hk) (slots_foldl (fun d c => ?_) _ _)
    dsimp only
    split <;> rfl

/-! The interrupt message table (R99 to R101). -/

@[simp] theorem imtGet_imtPut_self (d : Dev) (i : Nat) (x : Imt) : (d.imtPut i x).imtGet i = x := kvGet_kvSet_self ..

theorem imtGet_imtPut_ne {i j : Nat} (h : j ≠ i) (d : Dev) (x : Imt) : (d.imtPut i x).imtGet j = d.imtGet j := kvGet_kvSet_ne h ..

theorem imtGet_of_imt_eq {a b : Dev} (h : b.ten.imt = a.ten.imt) (i : Nat) : b.imtGet i = a.imtGet i := by simp only [Dev.imtGet, h]

/-- The table entry that an entry of IMT_WRITE describes, nothing pending. -/
def entryImt (e : AdmEntry) : Imt :=
  { v := bitOf e.d4 48, mask := bitOf e.d4 49, pend := false, ten := fld e.d4 43 32, data := BitVec.ofNat 32 (fld e.d4 31 0),
    addr := e.d3.toNat }

/-- A valid entry of the table is that of the PF's own tenancy (R77, R102). -/
theorem imtOwned {e : AdmEntry} {s : State} {x : Imt} (h : x.v = true → Owns e x.ten s) :
    (x.v && (s.dev.notOwner e x.ten).1) = false := by
  cases hv : x.v with
  | false => rfl
  | true => exact notOwner_owns (h hv)

theorem imtWrite_idle {e : AdmEntry} {s : State} {old : Imt} (hold : old = s.dev.imtGet (fld e.d2 15 0)) (hpend : old.pend = false)
    (hown : old.v = true → Owns e old.ten s) (ho : Owns e (fld e.d4 43 32) s) (hl : e.len = 0) (h3 : e.d3.toNat % 4 = 0)
    (h1 : 1 ≤ (s.dev.tenGet (fld e.d4 43 32)).st) (h5 : (s.dev.tenGet (fld e.d4 43 32)).st ≤ 5)
    (hatt : old.ten = fld e.d4 43 32 ∨ s.dev.imtAttached (fld e.d2 15 0) = false) :
    imtWrite e s.dev = .done (s.dev.imtPut (fld e.d2 15 0) (entryImt e)) := by
  subst hold
  have hfree : (decide ((s.dev.imtGet (fld e.d2 15 0)).ten ≠ fld e.d4 43 32) && s.dev.imtAttached (fld e.d2 15 0)) = false := by
    rcases hatt with h | h <;> simp [h]
  unfold imtWrite
  rw [admChecks_pass]
  · simp only [hpend, Bool.false_and, Bool.and_false, Bool.false_eq_true, if_false]
    rfl
  · simp only [passes_cons, passes_nil, imtOwned hown, notOwner_owns ho, lenNot_passes, notIn_passes, hfree, h3, ne_eq, not_true,
      decide_false, and_true, true_and]
    exact ⟨hl, mem_one_to_five h1 h5⟩

theorem imtRead_owned {e : AdmEntry} {s : State}
    (hown : (s.dev.imtGet (fld e.d2 15 0)).v = true → Owns e (s.dev.imtGet (fld e.d2 15 0)).ten s) (hl : e.len = 16) :
    imtRead e s.dev = .done s.dev 0 16 (s.dev.imtGet (fld e.d2 15 0)).bytes := by
  unfold imtRead
  exact admChecks_pass (by simp [imtOwned hown, hl]) _

theorem imtBytes_ne_nil (x : Imt) : x.bytes ≠ [] := by simp [Imt.bytes, leBytes]

/-! Refusals (R73, R77). -/

theorem tenOpen_denied {e : AdmEntry} {s : State} (h : ¬Owns e e.ten s) : tenOpen e s.dev = .fail St.DENIED 2 := by
  have hbad : (s.dev.tenGet e.ten).st ≠ 0 ∧ (s.dev.tenGet e.ten).owner ≠ e.pf := not_or.1 h
  simp [tenOpen, admChecks, firstFail, Dev.notOwner, hbad]

theorem tenOpen_state {e : AdmEntry} {s : State} (ho : Owns e e.ten s) (hl : e.len = 0) (hst : (s.dev.tenGet e.ten).st ≠ 2) :
    tenOpen e s.dev = .fail St.STATE (s.dev.tenGet e.ten).st := by
  have hok : ¬((s.dev.tenGet e.ten).st ≠ 0 ∧ (s.dev.tenGet e.ten).owner ≠ e.pf) := fun h => ho.elim h.1 h.2
  simp [tenOpen, admChecks, firstFail, Dev.notOwner, hok, lenNot, hl, Dev.notIn, hst]

theorem ten_of_agree {l : List Part} {a b : Dev} (h : Agree l a b) (h1 : .tens ∉ l := by decide) (h2 : .imt ∉ l := by decide)
    (h3 : .sched ∉ l := by decide) : b.ten = a.ten := by
  have ht : b.ten.tens = a.ten.tens := h .tens h1
  have hi : b.ten.imt = a.ten.imt := h .imt h2
  have hs : b.ten.sched = a.ten.sched := h .sched h3
  cases hb : b.ten
  cases ha : a.ten
  simp_all

/-- Settles O18, clause by clause: the checks pass or refuse, and each command comes down to one change of its tables. -/
theorem tenancyServices : Obligations.TenancyServices := by
  unfold Obligations.TenancyServices
  refine ⟨?setShare, ?apply, ?logStart, ?logEnds, ?logRead, ?exports, ?imports, ?imtWrite, ?imtRead, ?denied, ?refused⟩
  case setShare =>
    rintro s e h hs ho hl rfl hc
    refine ⟨fun hst => ?_, fun h2 h5 hfloor => ?_⟩
    · refine completes_of_change hs (exec_tenSetShare e s) (tenSetShare_created ho hl hc hst) (rel_tenSetShare ..) fun b _ hk => ?_
      exact tenGet_of_put (hk .tens (by decide))
    · refine runs_of_wait hs (exec_tenSetShare e s) (tenSetShare_bound ho hl hc h2 h5 hfloor) fun b hw hk => ?_
      exact ⟨hw, (tenGet_of_put (hk .tens (by decide))).1⟩
  case apply =>
    intro s p t h hs hprio hnext hports hw
    obtain ⟨hself, -⟩ := tenGet_of_put ((tens_shareApply hprio hnext hports).trans (applyShare_waiting hw))
    refine runs_of_run hs (exec_shareApply p s) ?_
    rw [hself]
    exact ⟨rfl, rfl, rfl⟩
  case logStart =>
    intro s e hs ho hl h3 hp0 hp h5 h6 hlo hhi hlog
    refine completes_of_change hs (exec_logStart e s) (logStart_off ho hl h3 hp0 hp h5 h6 hlo hhi hlog) (rel_logStart ..)
      fun b _ hk => ?_
    exact ⟨(tenGet_of_put (hk .tens (by decide))).1, onlyRegs_of_regs_eq (hk .regs (by decide))⟩
  case logEnds =>
    intro s e l hs ho hl hlo hhi hlog hon
    obtain ⟨d, hwait, htens⟩ := logFlush_on ho hl hlo hhi hlog hon false
    obtain ⟨d', hwait', htens'⟩ := logFlush_on ho hl hlo hhi hlog hon true
    exact ⟨runs_of_wait hs (exec_logFlush e s) hwait fun b hw hk => ⟨hw, (tenGet_of_put ((hk .tens (by decide)).trans htens)).1⟩,
      runs_of_wait hs (exec_logStop e s) hwait' fun b hw hk => ⟨hw, (tenGet_of_put ((hk .tens (by decide)).trans htens')).1⟩⟩
  case logRead =>
    intro s t l e oor buf r hs hlog
    exact ⟨fun hw => runs_of_run hs (exec_logFlushReadDone t s) (tenGet_of_put (tens_logEnd hlog hw)).1,
      fun hw => runs_of_run hs (exec_logFlushReadDone t s) (tenGet_of_put (tens_logEnd hlog hw)).1⟩
  case exports =>
    intro s e hs ho hst hkey hslot hlen
    have hdone := tenExport_bound ho hst hkey hlen
    have hpos : 0 < s.dev.imageLen e.ten (fld e.d3 19 0) := by unfold Dev.imageLen; dsimp only; omega
    refine completes_of_returned hs ((exec_tenExport e s).trans (run_congr (keyRun_done hdone hslot))) hdone (rel_tenExport ..)
      (List.length_pos_iff.1 (by rwa [freeBytes_length])) fun b hout hk => ?_
    exact ⟨⟨_, freeBytes_length .., hout⟩, ten_of_agree (a := s.dev.draw.2) hk, onlyRegs_of_regs_eq (hk .regs (by decide))⟩
  case imports =>
    intro s e i hs ho hst hctxs hslots hkey hslot hbuf hr hc hk hcfree hkfree
    obtain ⟨d, hdone, hkeys⟩ := tenImport_fits ho hst hctxs hslots hkey hbuf hr hc hk hcfree hkfree
    have hrel := rel_tenImport e (some i) s.dev
    rw [hdone] at hrel
    refine completes_of_change hs ((exec_tenImport e (some i) s).trans (run_congr (keyRun_done hdone hslot))) hdone (rel_tenImport ..)
      fun b _ hk => ?_
    have hcry : b.cry = d.cry := hk .cry (by decide)
    have hten := ten_of_agree (agree_of_rel_mask (l := [.rings, .cry, .sto]) (hrel.mono (by decide)))
    exact ⟨(ten_of_agree hk).trans hten, fun k hmem => hasKey_of_cry_eq (hkeys k hmem) (by rw [hcry])⟩
  case imtWrite =>
    intro s e old hs hold hpend hown ho hl h3 h1 h5 hatt
    refine completes_of_change hs (exec_imtWrite e s) (imtWrite_idle hold hpend hown ho hl h3 h1 h5 hatt) (rel_imtWrite ..)
      fun b _ hk => ?_
    have himt : ∀ i, b.imtGet i = (s.dev.imtPut (fld e.d2 15 0) (entryImt e)).imtGet i := imtGet_of_imt_eq (hk .imt (by decide))
    refine ⟨?_, fun i hi => ?_, onlyRegs_of_regs_eq (hk .regs (by decide))⟩
    · rw [himt, imtGet_imtPut_self]
      rfl
    · rw [himt, imtGet_imtPut_ne hi]
  case imtRead =>
    intro s e hs hown hl
    exact completes_of_returned hs (exec_imtRead e s) (imtRead_owned hown hl) (rel_imtRead ..) (imtBytes_ne_nil _)
      fun b hout hk => ⟨hout, ten_of_agree hk⟩
  case denied =>
    intro s e hs ho
    exact runs_of_fail hs (exec_tenOpen e s) (tenOpen_denied ho) fun b hend hk => ⟨hend, ten_of_agree hk⟩
  case refused =>
    intro s e hs ho hl hst
    exact runs_of_fail hs (exec_tenOpen e s) (tenOpen_state ho hl hst) fun b hend hk => ⟨hend, ten_of_agree hk⟩

end Sys2Proof.Proofs

/-! Completions, barriers, stalls and moderation (R81, R82, R111, R126 to R132): why O21 fails, and what holds. -/

namespace Sys2Proof.Proofs

open Sys2Proof Sys2Proof.Machine Sys2Proof.Laws

theorem exec_jobCompletion (q pos : Nat) (s : State) : exec (.jobCompletion q pos) s = s.run (·.jobComplete q pos) := rfl

theorem exec_barrierReadDone (q pos : Nat) (err : Option (Nat × Nat)) (s : State) :
    exec (.barrierReadDone q pos err) s = s.run (·.barrierDone q pos err) := rfl

theorem exec_cqStallTimeout (c : Nat) (s : State) : exec (.cqStallTimeout c) s = s.run (·.cqStall c) := rfl

theorem exec_modTimerExpire (isCq : Bool) (n : Nat) (s : State) :
    exec (.modTimerExpire isCq n) s = s.run (·.modExpire (if isCq then .cq n else .sq n)) := rfl

/-! A table of completion rings that lists a number twice: RING_STALLED finds the second entry as the event ring, and what it notes
there replaces the first, which had just been STALLED. -/

/-- A completion ring whose stall timer runs. -/
def stallingCq : Cq :=
  { ten := 0, loc := 0, log2 := 6, retas := false, evt := false, base := 0, wb := 0, mod := {}, stallTimer := true }

/-- An event ring whose stash is full. -/
def fullEventCq : Cq := { stallingCq with loc := 1, evt := true, stash := List.replicate 64 default }

/-- The state after reset with both rings under number 0. -/
def ringListedTwice : State := { State.reset with dev := { State.reset.dev with ring := { cqs := [(0, stallingCq), (0, fullEventCq)] } } }

theorem cqStall_ringListedTwice :
    kvFind 0 (ringListedTwice.dev.cqStall 0).ring.cqs = some { fullEventCq with evtLost := 1 } := by rfl

/-- Refutes O21: CQ_STALL_TIMEOUT leaves the ring ACTIVE where a second entry of the table has its number. No such state is reached,
but the statement ranges over all of them. -/
theorem not_completions : ¬ Obligations.Completions := by
  unfold Obligations.Completions
  rintro ⟨-, -, -, hstall, -⟩
  obtain ⟨t, he, -, y, hy, hstate, -⟩ := hstall ringListedTwice 0 stallingCq rfl rfl rfl
  obtain rfl : { ringListedTwice with dev := ringListedTwice.dev.cqStall 0 } = t := Host.Outcome.next.inj he
  obtain rfl : { fullEventCq with evtLost := 1 } = y := Option.some.inj (cqStall_ringListedTwice.symm.trans hy)
  exact absurd hstate (by decide)

end Sys2Proof.Proofs

/-! The other clauses of O21 hold, and so does that of CQ_STALL_TIMEOUT where the table lists its numbers in order. -/

namespace Sys2Proof.Proofs

open Sys2Proof Sys2Proof.Machine Sys2Proof.Laws

/-! Interrupts (R99 to R101, R132). -/

theorem outGrows_imtSend (d : Dev) (t i : Nat) : OutGrows d (d.imtSend t i) := by
  unfold Dev.imtSend
  dsimp only
  split
  · exact outGrows_of_eq rfl
  · split
    · exact outGrows_of_eq rfl
    · exact outGrows_emit ..

theorem outGrows_modPut (d : Dev) (src : IrqSrc) (m : Mod) : OutGrows d (d.modPut src m) := outGrows_of_rel (rel_Dev_modPut ..)

theorem outGrows_irqFire (d : Dev) (src : IrqSrc) : OutGrows d (d.irqFire src) := by
  have hput := fun m => outGrows_modPut d src m
  unfold Dev.irqFire
  dsimp only
  split
  · exact outGrows_trans (hput _) (outGrows_trans (outGrows_of_eq rfl) (outGrows_emit ..))
  · split
    · exact hput _
    · split
      · exact outGrows_trans (hput _) (outGrows_imtSend ..)
      · exact outGrows_trans (hput _) (outGrows_msixSend ..)

theorem outGrows_irqSignal (d : Dev) (src : IrqSrc) : OutGrows d (d.irqSignal src) := by
  unfold Dev.irqSignal
  dsimp only
  split
  · exact outGrows_trans (outGrows_modPut ..) (outGrows_irqFire ..)
  · exact outGrows_modPut ..

/-- An interrupt that may be sent clears the count and the timer of its target; the message itself touches no ring. -/
theorem irqFire_rel {d : Dev} {src : IrqSrc} (h : d.fnD3 (d.tenFn (d.srcTen src)) = false) :
    Rel (maskOf [.hifPorts, .fns, .imt, .out]) (d.modPut src { d.modGet src with n := 0, timer := false, due := false })
      (d.irqFire src) := by
  unfold Dev.irqFire
  simp only [h, Bool.false_eq_true, if_false]
  split
  · exact .refl ..
  · split
    · exact (rel_Dev_imtSend ..).mono (by decide)
    · exact (rel_Dev_msixSend ..).mono (by decide)

/-! Writing a completion (R82, R111, R130). -/

/-- The entry is among what left the device, at the ring's next position. -/
theorem mem_out_cqWrite (d : Dev) (c : Nat) (x : Cq) (e : Cqe) :
    Out.cqe false c x.write (x.base.toNat + 32 * (x.write % x.size)) (e.place x.write x.log2 x.retas (d.sqhd e.sq)) ∈
      (d.cqWrite c x e).out := by
  refine cqWrite_keeps (M := fun b => Out.cqe .. ∈ b.out)
    (fun a o _ _ _ h => mem_out_of_grows (outGrows_trans (outGrows_emit a o) (outGrows_logWrite ..)) h) (fun _ _ h => h)
    (fun _ h => mem_out_of_grows (outGrows_irqSignal ..) h) ?_
  exact mem_out_of_grows (outGrows_logWrite ..) (List.mem_append_right _ (List.mem_singleton_self _))

section
variable {d : Dev} {c : Nat} {gen : Word} {x : Cq} (hx : kvFind c d.ring.cqs = some x) (hp : d.shutPass x.ten gen = true) (e : Cqe)
include hx hp

theorem cqPush_writes (ho : d.cqOpen x = true) (hs : x.stash = []) : d.cqPush c gen e = d.cqWrite c x e := by
  simp [Dev.cqPush, hx, hp, ho, hs]

theorem cqPush_stashes (ho : d.cqOpen x = false) :
    d.cqPush c gen e = (d.cqPut c { x with stash := x.stash ++ [e] }).stallUpdate c := by
  simp [Dev.cqPush, hx, hp, ho]

end

theorem kvFind_stallUpdate {d : Dev} {c : Nat} {x : Cq} (hx : kvFind c d.ring.cqs = some x) :
    kvFind c (d.stallUpdate c).ring.cqs =
      some { x with stallTimer := !x.room && !x.stash.isEmpty && decide (x.state = 1) } := by
  simp only [Dev.stallUpdate, hx]
  exact kvFind_cqPut_self ..

/-! JOB_COMPLETION (R81, R82, R111, R126, R127, R130). -/

theorem jobFind_jobDrop_self (d : Dev) (q pos : Nat) : (d.jobDrop q pos).jobFind q pos = none := by
  refine List.find?_eq_none.2 fun k hk => ?_
  simpa only [Bool.not_eq_true', Bool.not_eq_true] using (List.mem_filter.1 hk).2

section
variable {d : Dev} {q pos : Nat} {j : Job} {x : Sq} {r : JobRes} (hj : d.jobFind q pos = some j) (hx : kvFind q d.ring.sqs = some x)
  (hr : j.res = some r)
include hj hx hr

theorem jobComplete_discards (hp : d.shutPass j.ten j.gen = false) : d.jobComplete q pos = (d.jobDrop q pos).discard j.ten := by
  simp [Dev.jobComplete, hj, hx, hr, hp]

theorem jobComplete_pushes (hp : d.shutPass j.ten j.gen = true) (hb : d.jobBlocked x j = false)
    (hbar : j.bar = false ∨ j.wrote = false ∨ j.confirmed = true ∨ j.noConfirm = true) (hprog : x.prog = false)
    (hfull : d.stashFull x.cq = false) : d.jobComplete q pos = (d.jobDrop q pos).cqPush x.cq j.gen (d.jobCqe j r) := by
  have hconf : (j.bar && j.wrote && !j.confirmed && !j.noConfirm) = false := by
    rcases hbar with h | h | h | h <;> simp [h]
  simp only [Dev.jobComplete, hj, hx, hr, hp, hb, hconf, hprog, hfull, Bool.not_true, Bool.false_eq_true, if_false]

end

section
variable {s : State} {q pos : Nat} {j : Job} {x : Sq} {r : JobRes} (hs : Alive s) (hj : s.dev.jobFind q pos = some j)
  (hx : kvFind q s.dev.ring.sqs = some x) (hr : j.res = some r)
include hs hj hx hr

theorem jobCompletion_discards (hp : s.dev.shutPass j.ten j.gen = false) :
    Runs (.jobCompletion q pos) s fun b =>
      b.jobFind q pos = none ∧ b.out = s.dev.out ∧ b.reg (Reg.TEN_DISCARD j.ten) = counterAdd (s.dev.reg (Reg.TEN_DISCARD j.ten)) 1 ∧
      OnlyRegs [Reg.TEN_DISCARD j.ten] s.dev b := by
  refine runs_of_run_eq hs (exec_jobCompletion ..) (jobComplete_discards hj hx hr hp) ⟨?_, ?_, reg_count_self .., ?_⟩
  · exact (jobFind_of_rel (rel_Dev_discard ..) q pos).trans (jobFind_jobDrop_self ..)
  · exact out_of_rel (a := s.dev.jobDrop q pos) (rel_Dev_discard ..)
  · exact onlyRegs_count (by simp) (s.dev.jobDrop q pos)

variable {y : Cq} (hp : s.dev.shutPass j.ten j.gen = true) (hb : s.dev.jobBlocked x j = false)
  (hbar : j.bar = false ∨ j.wrote = false ∨ j.confirmed = true ∨ j.noConfirm = true) (hprog : x.prog = false)
  (hy : kvFind x.cq s.dev.ring.cqs = some y) (hstash : y.stash = []) (hten : y.ten = j.ten)
include hp hb hbar hprog hy hstash hten

theorem jobCompletion_writes (ho : s.dev.cqOpen y = true) :
    Runs (.jobCompletion q pos) s fun b =>
      b.jobFind q pos = none ∧
      ∃ e, Out.cqe false x.cq y.write (y.base.toNat + 32 * (y.write % y.size)) e ∈ b.out ∧ e.d0 = (s.dev.jobCqe j r).d0 ∧
        e.d1 = (s.dev.jobCqe j r).d1 ∧ e.d2 = r.d2 := by
  have hpush := jobComplete_pushes hj hx hr hp hb hbar hprog (by simp [Dev.stashFull, hy, hstash])
  have hpass : (s.dev.jobDrop q pos).shutPass y.ten j.gen = true := hten ▸ hp
  refine runs_of_run_eq hs (exec_jobCompletion ..) (hpush.trans (cqPush_writes (d := s.dev.jobDrop q pos) hy hpass _ ho hstash))
    ⟨?_, _, mem_out_cqWrite .., rfl, rfl, rfl⟩
  exact (jobFind_of_rel (rel_Dev_cqWrite ..) q pos).trans (jobFind_jobDrop_self ..)

theorem jobCompletion_stashes (ho : s.dev.cqOpen y = false) :
    Runs (.jobCompletion q pos) s fun b =>
      b.jobFind q pos = none ∧ b.out = s.dev.out ∧ ∃ z, kvFind x.cq b.ring.cqs = some z ∧ z.stash = [s.dev.jobCqe j r] := by
  have hpush := jobComplete_pushes hj hx hr hp hb hbar hprog (by simp [Dev.stashFull, hy, hstash])
  have hpass : (s.dev.jobDrop q pos).shutPass y.ten j.gen = true := hten ▸ hp
  refine runs_of_run_eq hs (exec_jobCompletion ..) (hpush.trans (cqPush_stashes (d := s.dev.jobDrop q pos) hy hpass _ ho))
    ⟨?_, ?_, _, kvFind_stallUpdate (kvFind_cqPut_self ..), by rw [hstash]; rfl⟩
  · exact (jobFind_of_rel ((rel_Dev_cqPut ..).trans (rel_Dev_stallUpdate ..)) q pos).trans (jobFind_jobDrop_self ..)
  · exact out_of_rel (a := s.dev.jobDrop q pos) ((rel_Dev_cqPut ..).trans (rel_Dev_stallUpdate ..))

end

/-! BARRIER_READ_DONE (R109, R127, R162). -/

/-- The job whose confirming read has come back. -/
def confirmedJob (j : Job) (err : Option (Nat × Nat)) : Job :=
  { j with confirmed := true, res := some (match err with
    | some (st, det) => { j.res.getD { status := 0 } with status := st, detail := det }
    | none => j.res.getD { status := 0 }) }

theorem jobFind_barrierDone {d : Dev} {q pos : Nat} {j : Job} (hj : d.jobFind q pos = some j) (hc : j.confirming = true)
    (hn : j.confirmed = false) (err : Option (Nat × Nat)) : (d.barrierDone q pos err).jobFind q pos = some (confirmedJob j err) := by
  obtain ⟨-, rfl, rfl⟩ := jobFind_some hj
  have hput : ((d.dropReads (.barrier j.sq j.pos)).jobPut (confirmedJob j err)).jobFind j.sq j.pos = some (confirmedJob j err) := by
    refine (jobFind_jobPut_self _ (confirmedJob j err)).trans ?_
    rw [show (d.dropReads (.barrier j.sq j.pos)).jobFind (confirmedJob j err).sq (confirmedJob j err).pos = some j from hj]
    rfl
  refine Eq.trans ?_ hput
  unfold Dev.barrierDone
  simp only [hj]
  rw [if_neg (by simp [hc, hn])]
  cases err with
  | none => split <;> rfl
  | some e => split <;> rfl

theorem barrierReadDone_confirms {s : State} {q pos : Nat} {j : Job} (hs : Alive s) (hj : s.dev.jobFind q pos = some j)
    (hc : j.confirming = true) (hn : j.confirmed = false) (err : Option (Nat × Nat)) :
    Runs (.barrierReadDone q pos err) s fun b =>
      (∃ k, b.jobFind q pos = some k ∧ k.confirmed = true ∧
        (∀ st det, err = some (st, det) → ∃ r, k.res = some r ∧ r.status = st ∧ r.detail = det) ∧
        (err = none → k.res = some (j.res.getD { status := 0 }))) ∧ OnlyRegs [] s.dev b := by
  refine runs_of_run hs (exec_barrierReadDone ..)
    ⟨⟨_, jobFind_barrierDone hj hc hn err, rfl, ?_, ?_⟩, onlyRegs_of_rel (rel_Dev_barrierDone ..)⟩
  · rintro st det rfl
    exact ⟨_, rfl, rfl, rfl⟩
  · rintro rfl
    rfl

/-! MOD_TIMER_EXPIRE (R132, R133). -/

/-- A target whose interrupt has been sent. -/
def modSent (m : Mod) : Mod := { m with n := 0, timer := false, due := false }

theorem modTimerExpire_cq {s : State} {n : Nat} {x : Cq} (hs : Alive s) (hx : kvFind n s.dev.ring.cqs = some x) (ht : x.mod.timer = true)
    (hd : s.dev.fnD3 (s.dev.tenFn x.ten) = false) :
    Runs (.modTimerExpire true n) s fun b => kvFind n b.ring.cqs = some { x with mod := modSent x.mod } ∧ OnlyRegs [] s.dev b := by
  have hfire : s.dev.modExpire (.cq n) = s.dev.irqFire (.cq n) := by simp [Dev.modExpire, Dev.modGet, Dev.srcTen, hx, ht, hd]
  obtain ⟨-, hcqs⟩ := (irqFire_rel (d := s.dev) (src := .cq n) (by simpa [Dev.srcTen, hx] using hd)).same .rings (by decide)
  refine runs_of_run hs (exec_modTimerExpire true n s) ⟨?_, onlyRegs_of_rel (rel_Dev_modExpire ..)⟩
  rw [if_pos rfl, hfire, hcqs]
  simp only [Dev.modPut, Dev.modGet, hx]
  exact kvFind_kvPut_self ..

theorem modTimerExpire_sq {s : State} {n : Nat} {x : Sq} (hs : Alive s) (hx : kvFind n s.dev.ring.sqs = some x) (ht : x.mod.timer = true)
    (hd : s.dev.fnD3 (s.dev.tenFn x.ten) = false) :
    Runs (.modTimerExpire false n) s fun b => kvFind n b.ring.sqs = some { x with mod := modSent x.mod } ∧ OnlyRegs [] s.dev b := by
  have hfire : s.dev.modExpire (.sq n) = s.dev.irqFire (.sq n) := by simp [Dev.modExpire, Dev.modGet, Dev.srcTen, hx, ht, hd]
  obtain ⟨hsqs, -⟩ := (irqFire_rel (d := s.dev) (src := .sq n) (by simpa [Dev.srcTen, hx] using hd)).same .rings (by decide)
  refine runs_of_run hs (exec_modTimerExpire false n s) ⟨?_, onlyRegs_of_rel (rel_Dev_modExpire ..)⟩
  rw [if_neg Bool.false_ne_true, hfire, hsqs]
  simp only [Dev.modPut, Dev.modGet, hx]
  exact kvFind_kvPut_self ..

/-! CQ_STALL_TIMEOUT (R131, R134). -/

/-- In a table in order every entry is the one under its number. -/
theorem kvFind_of_mem_sorted {α : Type} {k : Nat} {v : α} {m : Kv α} (h : kvSorted m = true) (hm : (k, v) ∈ m) :
    kvFind k m = some v := by
  rw [kvSorted_iff] at h
  induction m with
  | nil => exact absurd hm List.not_mem_nil
  | cons a r ih =>
    obtain ⟨hlt, hr⟩ := List.pairwise_cons.1 h
    rcases List.mem_cons.1 hm with rfl | hm
    · simp [kvFind]
    · have hne : a.1 ≠ k := (hlt _ hm).ne
      simp [kvFind, hne, ih hr hm]

section
variable {c k : Nat} (hk : c ≠ k)
include hk

theorem kvFind_modPut_ne (d : Dev) (m : Mod) : kvFind c (d.modPut (.cq k) m).ring.cqs = kvFind c d.ring.cqs := by
  unfold Dev.modPut
  dsimp only
  split
  · exact kvFind_kvPut_ne hk ..
  · rfl

theorem kvFind_irqFire_ne (d : Dev) : kvFind c (d.irqFire (.cq k)).ring.cqs = kvFind c d.ring.cqs := by
  cases hd : d.fnD3 (d.tenFn (d.srcTen (.cq k))) with
  | false =>
    obtain ⟨-, hcqs⟩ := (irqFire_rel hd).same .rings (by decide)
    rw [hcqs, kvFind_modPut_ne hk]
  | true =>
    unfold Dev.irqFire
    simp only [hd, if_true]
    exact kvFind_modPut_ne hk ..

theorem kvFind_irqSignal_ne (d : Dev) : kvFind c (d.irqSignal (.cq k)).ring.cqs = kvFind c d.ring.cqs := by
  unfold Dev.irqSignal
  dsimp only
  split
  · rw [kvFind_irqFire_ne hk, kvFind_modPut_ne hk]
  · exact kvFind_modPut_ne hk ..

/-- A completion ring stays as it is while another is written to. -/
theorem kvFind_cqWrite_ne (d : Dev) (x : Cq) (e : Cqe) : kvFind c (d.cqWrite k x e).ring.cqs = kvFind c d.ring.cqs := by
  have hlog : ∀ (a : Dev) o t addr len, ((a.emit o).logWrite t addr len).ring.cqs = a.ring.cqs := fun a o t addr len =>
    ((rel_Dev_logWrite (a.emit o) t addr len).same .rings (by decide)).2
  exact cqWrite_keeps (M := fun b => kvFind c b.ring.cqs = kvFind c d.ring.cqs) (fun a o t addr len h => by rwa [hlog])
    (fun _ _ h => (kvFind_kvPut_ne hk ..).trans h) (fun _ h => (kvFind_irqSignal_ne hk _).trans h) (by rw [hlog])

theorem kvFind_cqPush_ne (d : Dev) (gen : Word) (e : Cqe) : kvFind c (d.cqPush k gen e).ring.cqs = kvFind c d.ring.cqs := by
  unfold Dev.cqPush
  split
  · rfl
  · rename_i x hx
    split
    · exact congrArg (kvFind c) ((rel_Dev_discard ..).same .rings (by decide)).2
    · split
      · exact kvFind_cqWrite_ne hk ..
      · simp only [Dev.stallUpdate, kvFind_cqPut_self]
        exact (kvFind_kvPut_ne hk ..).trans (kvFind_kvPut_ne hk ..)

end

/-- An event leaves every completion ring as it is but the event ring it goes to. -/
theorem kvFind_tenEvent_ne {d : Dev} {c t : Nat} (h : ∀ k x, d.evtRing t = some (k, x) → c ≠ k) (v : Ev) :
    kvFind c (d.tenEvent t v).ring.cqs = kvFind c d.ring.cqs := by
  unfold Dev.tenEvent
  split
  · rename_i k x hk
    split
    · exact kvFind_kvPut_ne (h k x hk) ..
    · exact kvFind_cqPush_ne (h k x hk) ..
  · exact congrArg (kvFind c) ((rel_Dev_pfEvent ..).same .rings (by decide)).2

/-- The device with completion ring c STALLED, and the stall counted. -/
def cqStalled (d : Dev) (c : Nat) (x : Cq) : Dev :=
  (d.cqPut c { x with state := 3, stallTimer := false }).count (Reg.RING_STALL_CNT (d.tenGet x.ten).owner)

/-- RING_STALLED goes to another ring, or to the PF. -/
theorem evtRing_cqStalled {d : Dev} {c : Nat} {x : Cq} (h : kvSorted d.ring.cqs = true) (t k : Nat) (y : Cq)
    (hy : (cqStalled d c x).evtRing t = some (k, y)) : c ≠ k := by
  rintro rfl
  have hmem : (c, y) ∈ kvPut c { x with state := 3, stallTimer := false } d.ring.cqs := List.mem_of_find?_eq_some hy
  have hfind := kvFind_of_mem_sorted (kvSorted_kvPut h) hmem
  obtain rfl : { x with state := 3, stallTimer := false } = y := Option.some.inj ((kvFind_kvPut_self ..).symm.trans hfind)
  simpa using List.find?_some hy

/-- The clause of O21 that fails, where the table of completion rings lists its numbers in order. -/
theorem cqStallTimeout_of_sorted {s : State} {c : Nat} {x : Cq} (hs : Alive s) (hsort : kvSorted s.dev.ring.cqs = true)
    (hx : kvFind c s.dev.ring.cqs = some x) (ht : x.stallTimer = true) :
    Runs (.cqStallTimeout c) s fun b => kvFind c b.ring.cqs = some { x with state := 3, stallTimer := false } := by
  have hstall : s.dev.cqStall c = (cqStalled s.dev c x).tenEvent x.ten { type := 2, sqid := c } := by
    simp only [Dev.cqStall, hx, ht, Bool.not_true, Bool.false_eq_true, if_false]
    rfl
  refine runs_of_run_eq hs (exec_cqStallTimeout ..) hstall ?_
  rw [kvFind_tenEvent_ne (evtRing_cqStalled hsort x.ten)]
  exact kvFind_cqPut_self ..

end Sys2Proof.Proofs

/-! States that meet the conditions of the statements about tenancies, rings and completions, with what the commands then do. -/

namespace Sys2Proof.Proofs

open Sys2Proof Sys2Proof.Machine Sys2Proof.Laws

/-- The state after reset with control firmware up. -/
def controlUp : State :=
  let d := State.reset.dev
  { State.reset with dev := { d with glb := { d.glb with planes := { d.glb.planes with ctlUp := true } } } }

/-- TEN_CREATE of the last tenancy with every ring, context and key of the device. -/
def createWithAll : AdmEntry := { pf := 15, tag := 1, d2 := 0x0010000002000FFF#64, d3 := 0x100000#64 }

theorem tenCreate_takes_all : Runs (.tenCreate createWithAll) controlUp fun b =>
    b.tenGet 4095 = { gen := 0, st := 1, owner := 15, rings := 512, ctxs := 1048576, keys := 1048576 } := by
  obtain ⟨hcreate, -⟩ := tenancyLifecycle
  obtain ⟨t, he, hq, -, hten, -⟩ := hcreate controlUp createWithAll ⟨rfl, rfl, rfl⟩ rfl (by decide) (by decide) (by decide) rfl
    (by decide) (by decide) (by decide)
  exact ⟨t, he, hq, hten⟩

/-- Tenancy 7 in RESETTING, its VF gone. -/
def resettingUnbinds : State := { State.reset with dev := State.reset.dev.tenPut 7 { st := 5, resetUnbinds := true } }

theorem tenancyResetDone_unbinds : Runs (.tenancyResetDone 7) resettingUnbinds fun b =>
    (b.tenGet 7).st = 1 ∧ (b.tenGet 7).binding = none := by
  obtain ⟨-, -, -, -, -, -, -, -, hdone⟩ := tenancyLifecycle
  obtain ⟨t, he, hq, -, -, hunbinds⟩ := hdone resettingUnbinds 7 rfl rfl
  obtain ⟨hst, hbinding, -⟩ := hunbinds (.inr rfl)
  exact ⟨t, he, hq, hst, hbinding⟩

/-- TEN_SET_SHARE with the floor at the ceiling. -/
def shareAtCeiling : AdmEntry := { pf := 15, tag := 2, d2 := 0x00003E8000010FFF#64, d3 := 0x3E80#64 }

/-- Tenancy 4095 CREATED by PF 15. -/
def tenancyCreated : State := { controlUp with dev := controlUp.dev.tenPut 4095 { st := 1, owner := 15 } }

theorem tenSetShare_at_ceiling : Runs (.tenSetShare shareAtCeiling) tenancyCreated fun b =>
    (b.tenGet 4095).share = { weight := 1, floor := 16000, ceiling := 16000 } := by
  obtain ⟨hset, -⟩ := tenancyServices
  obtain ⟨hcreated, -⟩ := hset tenancyCreated shareAtCeiling _ ⟨rfl, rfl, rfl⟩ (.inr rfl) rfl rfl (.inr (by decide))
  obtain ⟨t, he, hq, -, hten, -⟩ := hcreated rfl
  exact ⟨t, he, hq, congrArg Ten.share hten⟩

/-- RING_CREATE of a completion ring of 65,536 entries at the last local index. -/
def createLargestCq : AdmEntry := { pf := 15, tag := 3, d2 := 0x0000100003FF0FFF#64, d5 := 0x100000000#64 }

/-- Tenancy 4095 BOUND with room for one ring. -/
def tenancyBound : State := { controlUp with dev := controlUp.dev.tenPut 4095 { st := 2, owner := 15, rings := 1 } }

theorem ringCreate_largest : Runs (.ringCreate createLargestCq) tenancyBound fun b =>
    kvFind 0 b.ring.cqs =
      some { ten := 4095, loc := 511, log2 := 16, retas := false, evt := false, base := 0, wb := 0, mod := { count := 1 } } := by
  obtain ⟨hcq, -⟩ := ringCommands
  obtain ⟨t, he, hq, -, hring, -⟩ := hcq tenancyBound createLargestCq 0 ⟨rfl, rfl, rfl⟩ (.inr rfl) (by decide) (by decide)
    (by decide) (by decide) (fun h => absurd h (by decide)) (by decide) (.inl rfl) rfl rfl rfl (by decide) rfl
    (fun h => absurd h (by decide)) (by decide)
  exact ⟨t, he, hq, hring⟩

/-- The state after reset with one completion ring, whose stall timer runs. -/
def ringStalling : State := { State.reset with dev := State.reset.dev.cqPut 65535 stallingCq }

theorem cqStallTimeout_ringStalling : Runs (.cqStallTimeout 65535) ringStalling fun b =>
    kvFind 65535 b.ring.cqs = some { stallingCq with state := 3, stallTimer := false } :=
  cqStallTimeout_of_sorted rfl (by decide) rfl rfl

end Sys2Proof.Proofs

/-! Entries fetched and cached, and the jobs they start (R108 to R110, R113, R114, R118, R120 to R125, R284). -/

namespace Sys2Proof.Proofs

open Sys2Proof Sys2Proof.Machine Sys2Proof.Laws

theorem exec_entryFetch (q : Nat) (s : State) : exec (.entryFetch q) s = s.run (·.entryFetch q) := rfl

theorem exec_entryFetchDone (q : Nat) (bytes : List Byte) (err : Option (Nat × Nat)) (s : State) :
    exec (.entryFetchDone q bytes err) s = s.run (fun d => (d.dropReads (.fetch q)).entryFetchDone q bytes err) := rfl

theorem exec_phaseReread (q : Nat) (bytes : List Byte) (err : Option (Nat × Nat)) (s : State) :
    exec (.phaseReread q bytes err) s = s.run (·.phaseReread q bytes err) := rfl

theorem exec_rxBuf (q : Nat) (s : State) : exec (.rxBuf q) s = s.run (·.rxPost q 512) := rfl

theorem exec_schedulerTurn (p : Nat) (s : State) : exec (.schedulerTurn p) s = s.run (·.schedulerTurn p) := rfl

theorem exec_nop (q pos : Nat) (s : State) : exec (.nop q pos) s = s.run (·.nop q pos) := rfl

theorem exec_tx (q pos : Nat) (s : State) : exec (.tx q pos) s = s.run (fun d => (d.txStart q pos).txBuild q pos) := rfl

/-! Reads of entries (R113, R114, R118, R120). -/

section
variable {d : Dev} {q : Nat} {x : Sq} (hx : kvFind q d.ring.sqs = some x)
include hx

/-- A fetch only queues reads besides noting how many entries it brings. -/
theorem kvFind_entryFetch (hmay : d.mayFetch x = true) (hn : x.fetchCount ≠ 0) :
    kvFind q (d.entryFetch q).ring.sqs = some { x with fetching := x.fetchCount } := by
  have hgo : ¬((!d.mayFetch x || decide (x.fetchCount = 0)) = true) := by simp [hmay, hn]
  simp only [Dev.entryFetch, hx]
  rw [if_neg hgo]
  split <;> exact kvFind_sqPut_self ..

/-- The entries that a fetch brought, as the device read them. -/
theorem entryFetchDone_taken (hf : x.fetching ≠ 0) (bytes : List Byte) :
    d.entryFetchDone q bytes none = d.sqPut q ({ x with fetching := 0 }.takeEntries
      ((List.range (min x.fetching (bytes.length / x.entrySize))).map fun i =>
        SqEntry.ofBytes x.retas (slice bytes (i * x.entrySize) x.entrySize))) := by
  simp only [Dev.entryFetchDone, hx, hf, if_false]

theorem phaseReread_matches {bytes : List Byte} {n : Nat} (hn : x.reread = some n)
    (hp : x.phaseOk x.cacheEnd (SqEntry.ofBytes x.retas bytes) = true) :
    d.phaseReread q bytes none = d.sqPut q { x with cache := x.cache ++ [SqEntry.ofBytes x.retas bytes], reread := none } := by
  simp only [Dev.phaseReread, hx, hn, hp, if_true]

end

/-! Receive buffers (R110, R122, R125). -/

/-- The device with one more job in flight. -/
def jobAdded (d : Dev) (j : Job) : Dev := { d with ring := { d.ring with jobs := d.ring.jobs ++ [j] } }

theorem startFront_bad {x : Sq} {n st det : Nat} (h : x.front = .bad n st det) (d : Dev) (q : Nat) (prio : Bool) :
    d.startFront q x prio =
      (n, jobAdded (d.sqPut q (x.consume n)) { d.newJob q x n prio with res := some { status := st, detail := det } }) := by
  simp only [Dev.startFront, h]
  rfl

theorem front_of_cache_nil {x : Sq} (hc : x.cache = []) (hs : x.skipping = false) : x.front = .wait := by
  simp [Sq.front, hc, hs]

section
variable {d : Dev} {q : Nat} {x : Sq} (hx : kvFind q d.ring.sqs = some x)
include hx

/-- What may still become a buffer, or is one, stays in the cache. -/
theorem rxPost_stays (hf : x.front = .wait ∨ ∃ n, x.front = .run n) (fuel : Nat) : d.rxPost q fuel = d := by
  cases fuel with
  | zero => rfl
  | succ fuel =>
    unfold Dev.rxPost
    simp only [hx]
    obtain hf | ⟨n, hf⟩ := hf <;> simp only [hf, ite_self]

/-- Entries that can never be a buffer are consumed with their result; an emptied cache ends it. -/
theorem rxPost_consumes {n st det : Nat} (hcls : x.cls = 1) (hst : x.state = 1) (hf : x.front = .bad n st det)
    (hc : (x.consume n).cache = []) (hs : (x.consume n).skipping = false) (fuel : Nat) :
    d.rxPost q (fuel + 1) =
      jobAdded (d.sqPut q (x.consume n)) { d.newJob q x n false with res := some { status := st, detail := det } } := by
  have hlive : ¬(x.cls ≠ 1 ∨ x.state ≠ 1) := by simp [hcls, hst]
  rw [Dev.rxPost]
  simp only [hx, hlive, if_false, hf, startFront_bad hf]
  refine rxPost_stays (x := x.consume n) ?_ (.inl (front_of_cache_nil hc hs)) fuel
  exact kvFind_sqPut_self ..

end

/-! The service order (R90, R121, R123, R124). -/

theorem schedGet_schedPut_self {d : Dev} {p : Nat} (h : p < d.ten.sched.length) (x : HostSched) : (d.schedPut p x).schedGet p = x := by
  simp [Dev.schedGet, Dev.schedPut, h]

theorem applyShare_none {d : Dev} {t : Nat} (h : (d.tenGet t).waitShare = none) : d.applyShare t = d := by
  simp only [Dev.applyShare, h]

theorem foldl_applyShare_none {d : Dev} (h : ∀ t, (d.tenGet t).waitShare = none) (l : List Nat) :
    l.foldl (fun d t => d.applyShare t) d = d := by
  induction l with
  | nil => rfl
  | cons t r ih => rw [List.foldl_cons, applyShare_none (h t), ih]

/-- The turns of a new round of the port: each tenancy with a weight has as many (R124). -/
def roundTurns (d : Dev) (p : Nat) : List (Nat × Nat) :=
  (d.portTens p).filterMap fun t => if (d.tenGet t).share.weight = 0 then none else some (t, (d.tenGet t).share.weight)

section
variable {d : Dev} {p : Nat} (hprio : d.prioTens p = [])
include hprio

/-- With no turn left and no share that waits, a pass only begins a new round. -/
theorem schedulerTurn_round (hnext : d.nextTen p = none) (hwait : ∀ t, (d.tenGet t).waitShare = none) :
    d.schedulerTurn p = d.schedPut p { d.schedGet p with turns := roundTurns d p } := by
  simp only [Dev.schedulerTurn, hprio, List.foldl_nil, hnext, Dev.roundEnd, foldl_applyShare_none hwait]
  rfl

/-- Otherwise the next tenancy takes one of its turns. -/
theorem schedulerTurn_turn {t : Nat} (hnext : d.nextTen p = some t) :
    d.schedulerTurn p = (d.schedPut p { d.schedGet p with
      last := t, turns := kvSet 0 t (kvGet 0 (d.schedGet p).turns t - 1) (d.schedGet p).turns }).tenTurn t false := by
  simp only [Dev.schedulerTurn, hprio, List.foldl_nil, hnext]

end

/-- A turn of a tenancy starts jobs; the turns of the port are not its business. -/
theorem schedGet_tenTurn (d : Dev) (t p : Nat) (prio : Bool) : (d.tenTurn t prio).schedGet p = d.schedGet p := by
  have hsched : (d.tenTurn t prio).ten.sched = d.ten.sched := (rel_Dev_tenTurn ..).same .sched (by decide)
  simp only [Dev.schedGet, hsched]

/-! Jobs of transmit rings (R109, R110, R121, R284). -/

section
variable {d : Dev} {q pos : Nat} {j : Job} (hj : d.jobFind q pos = some j)
include hj

theorem jobFind_jobPut_of_found {k : Job} (hsq : k.sq = j.sq) (hpos : k.pos = j.pos) : (d.jobPut k).jobFind q pos = some k := by
  obtain ⟨-, rfl, rfl⟩ := jobFind_some hj
  rw [← hsq, ← hpos, jobFind_jobPut_self, hsq, hpos, hj, Option.map_some]

/-- The first result of a job is set. -/
theorem jobEnd_first (hres : j.res = none) (r : JobRes) : d.jobEnd q pos r = d.jobPut { j with res := some r } := by
  simp [Dev.jobEnd, hj, hres]

theorem nop_ends {x : Sq} (hx : kvFind q d.ring.sqs = some x) (hopc : j.opc = 1) (hres : j.res = none) (hconf : j.confirming = false)
    (hfirst : d.ring.jobs.find? (fun k => decide (k.sq = q)) = some j) (hbar : j.bar = false) :
    d.nop q pos = d.jobPut { j with res := some { status := 0 } } := by
  rw [← jobEnd_first hj hres]
  simp [Dev.nop, hj, hx, hopc, hres, hconf, hfirst, hbar]

/-- No frame is built of a job that has not read all its bytes. -/
theorem txBuild_waits (h : j.reading = false ∨ j.need ≠ 0) : d.txBuild q pos = d := by
  have hwait : j.opc ≠ 2 ∨ (!j.reading) = true ∨ j.need ≠ 0 ∨ j.frames ≠ 0 ∨ j.res.isSome = true := by
    rcases h with h | h <;> simp [h]
  simp only [Dev.txBuild, hj, hwait, if_true]

end

/-- The reads of a job's gather parts, in order, queued behind the earlier reads of its tenancy (R51, R110). -/
def partsQueued (d : Dev) (j : Job) (q pos : Nat) : Dev :=
  (j.entries.foldl (fun (a : Dev × Nat) e => (a.1.queueRead j.ten j.gen (.job q pos) e.addr e.len a.2, a.2 + e.len)) (d, 0)).1

theorem rel_partsQueued (d : Dev) (j : Job) (q pos : Nat) : Rel (maskOf [.hifPorts]) d (partsQueued d j q pos) :=
  Rel.foldl1 (s := (d, 0)) (fun _ _ => rel_Dev_queueRead ..) (.refl ..)

section
variable {d : Dev} {q pos : Nat} {j : Job} (hj : d.jobFind q pos = some j) (hopc : j.opc = 2) (hres : j.res = none)
  (hread : j.reading = false) (hlive : d.jobLive j = true)
include hj hopc hres hread hlive

theorem txStart_reads (hctx : d.txCtxBad j = false) :
    d.txStart q pos = partsQueued (d.jobPut { j with reading := true, need := j.total }) j q pos := by
  simp [Dev.txStart, hj, hopc, hres, hread, hlive, hctx, partsQueued]

theorem txStart_denied (hctx : d.txCtxBad j = true) :
    d.txStart q pos = d.jobPut { j with res := some { status := St.DENIED, detail := 2 } } := by
  rw [← jobEnd_first hj hres]
  simp [Dev.txStart, hj, hopc, hres, hread, hlive, hctx]

/-- The job of a TX that begins to read. -/
theorem jobFind_txStart_reads (hctx : d.txCtxBad j = false) :
    (d.txStart q pos).jobFind q pos = some { j with reading := true, need := j.total } := by
  rw [txStart_reads hj hopc hres hread hlive hctx, jobFind_of_rel (rel_partsQueued ..)]
  exact jobFind_jobPut_of_found hj rfl rfl

end

/-- Settles O20, clause by clause: what each command does to the ring, to the port's turns or to the job that it names, and that it
leaves the rest alone. -/
theorem entriesAndJobs : Obligations.EntriesAndJobs := by
  unfold Obligations.EntriesAndJobs
  refine ⟨?rings, ?round, ?turn, ?nop, ?txReads, ?txDenied⟩
  case rings =>
    intro s q x hs hx
    refine ⟨fun hmay hn => ?fetch, fun bytes hf => ?fetched, fun bytes n hn hp => ?reread, fun n _ _ hf => ?posted,
      fun n st det hcls hst hf hc hskip => ?consumed⟩
    case fetch =>
      exact runs_of_run hs (exec_entryFetch ..) ⟨kvFind_entryFetch hx hmay hn, agree_of_rel_mask (rel_Dev_entryFetch ..)⟩
    case fetched =>
      refine runs_of_run_eq hs (exec_entryFetchDone ..) (entryFetchDone_taken (d := s.dev.dropReads (.fetch q)) hx hf bytes)
        ⟨kvFind_sqPut_self .., agree_of_rel_mask ?_⟩
      exact ((rel_Dev_dropReads ..).mono (by decide)).trans ((rel_Dev_sqPut ..).mono (by decide))
    case reread =>
      exact runs_of_run_eq hs (exec_phaseReread ..) (phaseReread_matches hx hn hp)
        ⟨kvFind_sqPut_self .., agree_of_rel_mask (rel_Dev_sqPut ..)⟩
    case posted => exact runs_of_run_eq hs (exec_rxBuf ..) (rxPost_stays hx (.inr ⟨n, hf⟩) 512) rfl
    case consumed =>
      exact runs_of_run_eq hs (exec_rxBuf ..) (rxPost_consumes hx hcls hst hf hc hskip 511) ⟨kvFind_sqPut_self .., rfl⟩
  case round =>
    intro s p hs hprio hnext hp hwait
    refine runs_of_run_eq hs (exec_schedulerTurn ..) (schedulerTurn_round hprio hnext hwait)
      ⟨?_, agree_of_rel_mask (rel_Dev_schedPut ..)⟩
    rw [schedGet_schedPut_self hp]
    rfl
  case turn =>
    intro s p t hs hprio hnext hp
    refine runs_of_run_eq hs (exec_schedulerTurn ..) (schedulerTurn_turn hprio hnext) ?_
    rw [schedGet_tenTurn, schedGet_schedPut_self hp]
    exact ⟨rfl, kvGet_kvSet_self .., onlyRegs_of_rel (a := s.dev.schedPut p _) (rel_Dev_tenTurn ..)⟩
  case nop =>
    intro s q pos j x hs hj hx hopc hres hconf hfirst hbar
    exact runs_of_run_eq hs (exec_nop ..) (nop_ends hj hx hopc hres hconf hfirst hbar)
      ⟨jobFind_jobPut_of_found hj rfl rfl, agree_of_rel_mask (rel_Dev_jobPut ..)⟩
  case txReads =>
    intro s q pos j hs hj hopc hres hread hlive hctx htotal
    have hfound := jobFind_txStart_reads hj hopc hres hread hlive hctx
    exact runs_of_run_eq hs (exec_tx ..) (txBuild_waits hfound (.inr htotal)) ⟨hfound, agree_of_rel_mask (rel_Dev_txStart ..)⟩
  case txDenied =>
    intro s q pos j hs hj hopc hres hread hlive hctx
    have hended := jobFind_jobPut_of_found hj (k := { j with res := some { status := St.DENIED, detail := 2 } }) rfl rfl
    refine runs_of_run_eq hs (exec_tx ..) ?_ ⟨hended, agree_of_rel_mask (rel_Dev_jobPut ..)⟩
    rw [txStart_denied hj hopc hres hread hlive hctx]
    exact txBuild_waits hended (.inl hread)

end Sys2Proof.Proofs

/-! States that meet the conditions of the statement about entries and jobs, with what the commands then do. -/

namespace Sys2Proof.Proofs

open Sys2Proof Sys2Proof.Machine Sys2Proof.Laws

/-- The device after reset with PF 0 a bus master and its tenancy 7 OPEN, which holds submission ring 3. -/
def ringOpenDev (x : Sq) : Dev :=
  ((State.reset.dev.fnPut (.pf 0) { bme := true }).tenPut 7 { st := 3, share := { weight := 1 } }).sqPut 3 x

/-- A ring of 64 entries of tenancy 7, of class NIC_TX. -/
def smallSq : Sq :=
  { ten := 7, loc := 0, cls := 0, retas := false, scatter := false, prog := false, cq := 0, log2 := 6, base := 0, wb := 0,
    rweight := 1, burst := 1, mod := {} }

/-- A full ring whose posted entries wrap past its end. -/
def fullSq : Sq := { smallSq with started := 40, tail := 104 }

theorem entryFetch_full : Runs (.entryFetch 3) { State.reset with dev := ringOpenDev fullSq } fun b =>
    kvFind 3 b.ring.sqs = some { fullSq with fetching := 32 } := by
  obtain ⟨hrings, -⟩ := entriesAndJobs
  obtain ⟨hfetch, -⟩ := hrings { State.reset with dev := ringOpenDev fullSq } 3 fullSq rfl rfl
  obtain ⟨t, he, hq, hring, -⟩ := hfetch rfl (by decide)
  exact ⟨t, he, hq, hring⟩

/-- A NOP in one entry. -/
def nopEntry : SqEntry := { d0 := 0x301#64 }

/-- An RX ring with a NOP at its front, which that class refuses. -/
def rxNopSq : Sq := { smallSq with cls := 1, tail := 1, cache := [nopEntry] }

theorem rxBuf_refuses_nop : Runs (.rxBuf 3) { State.reset with dev := ringOpenDev rxNopSq } fun b =>
    b.ring.jobs = [{ sq := 3, pos := 0, ten := 7, gen := 0, entries := [nopEntry], res := some { status := St.MALFORMED, detail := 1 } }] := by
  obtain ⟨hrings, -⟩ := entriesAndJobs
  obtain ⟨-, -, -, -, hbad⟩ := hrings { State.reset with dev := ringOpenDev rxNopSq } 3 rxNopSq rfl rfl
  obtain ⟨t, he, hq, -, hjobs⟩ := hbad 1 St.MALFORMED 1 rfl rfl (by decide) rfl rfl
  exact ⟨t, he, hq, hjobs⟩

/-- A ring with a NOP at its front. -/
def nopSq : Sq := { smallSq with tail := 1, cache := [nopEntry] }

/-- A ready ring with a LOCAL in range makes its tenancy ready. -/
theorem hasReady_of_sqReady {d : Dev} {q : Nat} {x : Sq} (hmem : (q, x) ∈ d.ring.sqs) (hloc : x.loc < 512)
    (hready : d.sqReady q x = true) : d.hasReady x.ten = true := by
  have hin : (q, x) ∈ (d.ring.sqs.filter fun e => decide (e.2.ten = x.ten) && d.sqReady e.1 e.2).filter fun e => decide (e.2.loc ≤ 511) := by
    simp [hmem, hready, Nat.le_of_lt_succ hloc]
  obtain ⟨y, hy⟩ := Option.isSome_iff_exists.1 (List.find?_isSome (p := fun e => decide (e.2.loc = x.loc)) |>.2 ⟨(q, x), hin, by simp⟩)
  have hfound : y ∈ d.readyRings x.ten 511 :=
    List.mem_append_right _ (List.mem_filterMap.2 ⟨x.loc, List.mem_range.2 hloc, hy⟩)
  simpa [Dev.hasReady] using List.ne_nil_of_mem hfound

/-- Tenancy 7, served last at LOCAL 0, has its last turn of the round on port 0 and one turn for its ring, which is ready. -/
def lastTurn : State :=
  let served : Ten := { st := 3, share := { weight := 1 }, lastRing := 0, ringTurns := 1 }
  { State.reset with dev := ((ringOpenDev nopSq).tenPut 7 served).schedPut 0 { turns := [(7, 1)] } }

theorem nextTen_lastTurn : lastTurn.dev.nextTen 0 = some 7 := by
  have hready : lastTurn.dev.hasReady 7 = true := hasReady_of_sqReady (q := 3) (x := nopSq) (.head _) (by decide) rfl
  have hports : lastTurn.dev.portTens 0 = [7] := rfl
  have hsched : lastTurn.dev.schedGet 0 = { turns := [(7, 1)] } := rfl
  simp [Dev.nextTen, hports, hsched, hready, kvGet, kvFind]

theorem schedulerTurn_last : Runs (.schedulerTurn 0) lastTurn fun b => kvGet 0 (b.schedGet 0).turns 7 = 0 := by
  obtain ⟨-, -, hturn, -⟩ := entriesAndJobs
  obtain ⟨t, he, hq, -, hleft, -⟩ := hturn lastTurn 0 7 rfl rfl nextTen_lastTurn (by decide)
  exact ⟨t, he, hq, hleft⟩

/-- In that turn the job at the front of the ring starts (R123). -/
theorem schedulerTurn_starts : Runs (.schedulerTurn 0) lastTurn fun b =>
    b.ring.jobs = [{ sq := 3, pos := 0, ten := 7, gen := 0, entries := [nopEntry] }] :=
  runs_of_run_eq rfl (exec_schedulerTurn ..) (schedulerTurn_turn rfl nextTen_lastTurn) rfl

/-- No turn of the round is left, while the ring is still ready. -/
def roundOver : State := { State.reset with dev := ringOpenDev nopSq }

theorem schedulerTurn_new_round : Runs (.schedulerTurn 0) roundOver fun b => (b.schedGet 0).turns = [(7, 1)] := by
  obtain ⟨-, hround, -⟩ := entriesAndJobs
  have hwait : ∀ t, (roundOver.dev.tenGet t).waitShare = none := by
    intro t
    by_cases h : t = 7
    · subst h
      rfl
    · exact congrArg Ten.waitShare (tenGet_tenPut_ne h (State.reset.dev.fnPut (.pf 0) { bme := true }) _)
  obtain ⟨t, he, hq, hturns, -⟩ := hround roundOver 0 rfl rfl rfl (by decide) hwait
  exact ⟨t, he, hq, hturns⟩

/-- A TX job of one byte; its D3 is the operand. -/
def byteTx (d3 : Dword) : Job := { sq := 3, pos := 0, ten := 7, gen := 0, entries := [{ d0 := 0x100000302#64, d3 := d3 }] }

/-- Ring 3 has started the job. -/
def txStarted (d3 : Dword) : State := { State.reset with dev := jobAdded (ringOpenDev { smallSq with tail := 1, started := 1 }) (byteTx d3) }

theorem tx_reads_byte : Runs (.tx 3 0) (txStarted 0) fun b => b.jobFind 3 0 = some { byteTx 0 with reading := true, need := 1 } := by
  obtain ⟨-, -, -, -, hreads, -⟩ := entriesAndJobs
  obtain ⟨t, he, hq, hjob, -⟩ := hreads (txStarted 0) 3 0 (byteTx 0) rfl rfl rfl rfl rfl rfl rfl (by decide)
  exact ⟨t, he, hq, hjob⟩

/-- Context 0 is named and does not exist. -/
theorem tx_denied_without_context : Runs (.tx 3 0) (txStarted 0x100000#64) fun b =>
    b.jobFind 3 0 = some { byteTx 0x100000#64 with res := some { status := St.DENIED, detail := 2 } } := by
  obtain ⟨-, -, -, -, -, hdenied⟩ := entriesAndJobs
  obtain ⟨t, he, hq, hjob, -⟩ := hdenied (txStarted 0x100000#64) 3 0 (byteTx 0x100000#64) rfl rfl rfl rfl rfl rfl rfl
  exact ⟨t, he, hq, hjob⟩

end Sys2Proof.Proofs

/-! The copy engine (R148 to R168). -/

namespace Sys2Proof.Proofs

open Sys2Proof Sys2Proof.Machine Sys2Proof.Laws

theorem exec_copy (q pos : Nat) (s : State) : exec (.copy q pos) s = s.run (·.copyStart q pos) := rfl

theorem exec_descriptorReadDone (n : Nat) (bytes : List Byte) (err : Option (Nat × Nat)) (ecc : Ecc) (s : State) :
    exec (.descriptorReadDone n bytes err ecc) s = s.run (fun d => (d.dropReads (.chan n)).descDone n bytes err ecc) := rfl

theorem exec_copyChunk (n : Nat) (inp : ChunkIn) (ecc : Ecc) (s : State) :
    exec (.copyChunk n inp ecc) s = s.run (·.copyChunk n inp ecc) := rfl

theorem exec_dmaHaltTimeout (n : Nat) (s : State) : exec (.dmaHaltTimeout n) s = s.run (·.haltTimeout n) := rfl

theorem exec_dmaGrant (e : AdmEntry) (s : State) : exec (.dmaGrant e) s = s.run (·.admRun e 0x28 (dmaGrant e)) := rfl

theorem exec_grantDrained (t : Nat) (s : State) : exec (.grantDrained t) s = s.run (·.grantDrained t) := rfl

theorem exec_dmaResume (e : AdmEntry) (s : State) : exec (.dmaResume e) s = s.run (·.admRun e 0x29 (dmaResume e)) := rfl

theorem exec_dmaSkip (e : AdmEntry) (s : State) : exec (.dmaSkip e) s = s.run (·.admRun e 0x2A (dmaSkip e)) := rfl

theorem exec_dmaAbort (e : AdmEntry) (s : State) : exec (.dmaAbort e) s = s.run (·.admRun e 0x2B (dmaAbort e)) := rfl

/-! Channels. -/

@[simp] theorem chan_chanPut_self (d : Dev) (n : Nat) (c : Chan) : (d.chanPut n c).chan n = c := by
  simp [Dev.chan, Dev.chanPut, kvGet, kvFind_kvPut_self]

theorem chan_of_dma_eq {a b : Dev} (h : b.dma = a.dma) (n : Nat) : b.chan n = a.chan n := by simp only [Dev.chan, h]

theorem chan_of_rel {m : Nat} {a b : Dev} (h : Rel m a b) (n : Nat) (hm : m.testBit (bit .dma) = false := by decide) :
    b.chan n = a.chan n := chan_of_dma_eq (h.same .dma hm) n

/-- A channel that asks for its next descriptor holds none (R152). -/
theorem chan_chanFetch (d : Dev) (n : Nat) (c : Chan) : (d.chanFetch n c).chan n = { c with desc := none, snap := none, off := 0 } := by
  unfold Dev.chanFetch
  dsimp only
  split
  · split
    · exact chan_chanPut_self ..
    · exact (chan_of_rel (rel_Dev_queueRead ..) n).trans (chan_chanPut_self ..)
  · exact chan_chanPut_self ..

/-- A job that ends without a confirmation frees its channel, which is otherwise as it was (R164). -/
theorem chan_chanStop (d : Dev) (n : Nat) (c : Chan) (r : JobRes) : (d.chanStop n c r).chan n = { c with st := 0 } := by
  have hput : ((d.chanPut n { c with st := 0 }).dropReads (.chan n)).chan n = { c with st := 0 } :=
    (chan_of_rel (rel_Dev_dropReads ..) n).trans (chan_chanPut_self ..)
  unfold Dev.chanStop
  dsimp only
  split
  · exact hput
  · split
    · exact hput
    · exact (chan_of_rel (rel_Dev_jobPut ..) n).trans hput

theorem chan_chanAbort (d : Dev) (n : Nat) : (d.chanAbort n).chan n = { d.chan n with st := 0 } := chan_chanStop ..

/-! Descriptors (R148, R151, R152). -/

/-- The channel that took a job whose list is aligned asks for its first descriptor. -/
theorem copyStart_fetches {d : Dev} {q pos n : Nat} {c : Chan} {j : Job}
    (hc : d.dma.chans.find? (fun c => decide (c.2.st = 1 ∧ c.2.sq = q ∧ c.2.pos = pos)) = some (n, c)) (hj : d.jobFind q pos = some j)
    (hread : j.reading = false) (haddr : c.addr % 32 = 0) :
    d.copyStart q pos = (d.jobPut { j with reading := true }).chanFetch n c := by
  obtain ⟨-, hsq, hpos⟩ : c.st = 1 ∧ c.sq = q ∧ c.pos = pos := by simpa using List.find?_some hc
  have hjob : d.chanJob c = some j := by rw [Dev.chanJob, hsq, hpos, hj]
  simp only [Dev.copyStart, hc]
  simp [hjob, hread, haddr]

/-- The channel after its descriptor came from host memory; the source as it stands is kept for a memmove within HBM (R159). -/
def descRead (d : Dev) (c : Chan) (x : Desc) : Chan :=
  { c with
    desc := some x, off := 0
    snap := if x.srcHbm && x.dstHbm && decide (x.swrap = 0 ∧ x.dwrap = 0) && x.overlaps && decide (x.src < x.dst) then
        some (d.hbm.bytes x.src x.len) else none }

theorem descDone_reads {d : Dev} {n : Nat} {c : Chan} {j : Job} {bytes : List Byte} (hc : d.chan n = c) (hj : d.chanJob c = some j)
    (hst : c.st = 1) (hdesc : c.desc = none) (hread : j.reading = true) (hhost : c.addrHbm = false)
    (hok : (Desc.ofBytes (fitTo 32 bytes)).refused c.done j.firstE.len = none) (ecc : Ecc) :
    d.descDone n bytes none ecc = d.chanPut n (descRead d c (Desc.ofBytes (fitTo 32 bytes))) := by
  simp [Dev.descDone, hc, hj, hst, hdesc, hread, hhost, hok, descRead]

/-! Chunks (R150, R154, R157 to R160). -/

theorem firstOff_none {o e : Nat} {p : Nat → Bool} (h : ∀ i, o ≤ i → i < e → p i = false) : firstOff o e p = none := by
  refine List.find?_eq_none.2 fun i hi => ?_
  obtain ⟨k, hk, rfl⟩ := List.mem_map.1 hi
  have hlt : k < e - o := List.mem_range.1 hk
  simp [h (o + k) (by omega) (by omega)]

theorem srcAt_straight {x : Desc} (h : x.swrap = 0) (i : Nat) : x.srcAt i = x.src + i := by simp [Desc.srcAt, wrapAddr, h]

theorem dstAt_straight {x : Desc} (h : x.dwrap = 0) (i : Nat) : x.dstAt i = x.dst + i := by simp [Desc.dstAt, wrapAddr, h]

theorem chunkWriteHbm_straight {x : Desc} (h : x.dwrap = 0) (d : Dev) (o : Nat) (b : List Byte) :
    d.chunkWriteHbm x o b = d.hbmWrite (x.dst + o) b := by
  simp [Dev.chunkWriteHbm, h, dstAt_straight]

theorem granted_of_dma_eq {a b : Dev} (h : b.dma = a.dma) (t x : Nat) (w : Bool) : b.granted t x w = a.granted t x w := by
  simp only [Dev.granted, h]

/-- Errors that name no line mark none. -/
theorem hbm_applyEcc_of_no_lines {ecc : Ecc} (h : ecc.ueLines = []) (d : Dev) : (d.applyEcc ecc).hbm = d.hbm := by
  have hn : ∀ (d : Dev) (off k : Nat), (d.countN off k).hbm = d.hbm := fun d off k => (rel_Dev_countN d off k).same .hbm (by decide)
  have hb : ∀ (d : Dev) (off i : Nat), (d.setBit off i).hbm = d.hbm := fun d off i => (rel_Dev_setBit d off i).same .hbm (by decide)
  unfold Dev.applyEcc
  dsimp only
  split <;> simp [hb, hn, h]

/-- The channel k bytes further on in its descriptor. -/
def chanMoved (c : Chan) (k : Nat) : Chan := { c with off := c.off + k, done := c.done + k }

/-- The bytes of a chunk at their place in HBM and drawn on the tenancy's bucket (R86), the channel behind them. -/
def chunkPlaced (d : Dev) (n : Nat) (c : Chan) (j : Job) (x : Desc) (b : List Byte) (drawn : Nat) : Dev :=
  ((d.hbmWrite (x.dst + c.off) b).drawBytes j.ten drawn j.priority).chanPut n (chanMoved c b.length)

/-- A chunk for HBM that meets no failure, and what the channel then goes on with. -/
def chunkDone (d : Dev) (n : Nat) (c : Chan) (j : Job) (x : Desc) (b : List Byte) (drawn : Nat) : Dev :=
  (chunkPlaced d n c j x b drawn).chunkNext n (chanMoved c b.length) x (fld j.firstE.d2 47 32)

section
variable {d : Dev} {n e : Nat} {c : Chan} {j : Job} {x : Desc} (hc : d.chan n = c) (hj : d.chanJob c = some j) (hst : c.st = 1)
  (hdesc : c.desc = some x) (hdst : x.dstHbm = true) (hdw : x.dwrap = 0) (he : min ((c.off / 4096 + 1) * 4096) x.len = e)
  (hw : ∀ i, c.off ≤ i → i < e → d.granted c.ten (x.dst + i) true = true)
include hc hj hst hdesc hdst hdw he hw

/-- A chunk within HBM whose every byte is granted and free of poison moves whole. -/
theorem copyChunk_hbm (hsrc : x.srcHbm = true) (hsw : x.swrap = 0) (hsnap : c.snap = none) (inp : ChunkIn) {ecc : Ecc}
    (hecc : ecc.ueLines = [])
    (hr : ∀ i, c.off ≤ i → i < e → d.granted c.ten (x.src + i) false = true ∧ d.hbm.poisoned (x.src + i) 1 = false) :
    d.copyChunk n inp ecc = chunkDone (d.applyEcc ecc) n c j x (d.hbm.bytes (x.src + c.off) (e - c.off)) 0 := by
  have hdma : (d.applyEcc ecc).dma = d.dma := (rel_Dev_applyEcc ..).same .dma (by decide)
  have hhbm := hbm_applyEcc_of_no_lines hecc d
  have hrf : firstOff c.off e (fun i => !d.granted c.ten (x.src + i) false) = none :=
    firstOff_none fun i ho hi => by simp [(hr i ho hi).1]
  have hwf : firstOff c.off e (fun i => !d.granted c.ten (x.dst + i) true) = none := firstOff_none fun i ho hi => by simp [hw i ho hi]
  have hpf : firstOff c.off e (fun i => d.hbm.poisoned (x.src + i) 1) = none := firstOff_none fun i ho hi => (hr i ho hi).2
  simp [Dev.copyChunk, chunkDone, chunkPlaced, chanMoved, hc, hj, hst, hdesc, hsrc, hdst, hsnap, he, granted_of_dma_eq hdma, hhbm,
    srcAt_straight hsw, dstAt_straight hdw, hrf, hwf, hpf, chunkWriteHbm_straight hdw, Hbm.bytes, Nat.add_assoc]

/-- A chunk from host memory that arrived whole and may be written moves whole. -/
theorem copyChunk_host (hsrc : x.srcHbm = false) {inp : ChunkIn} (herr : inp.rdErr = none) (hlen : inp.data.length = e - c.off)
    (hlt : c.off < e) (ecc : Ecc) : d.copyChunk n inp ecc = chunkDone d n c j x inp.data (e - c.off) := by
  have hend : min e (c.off + (e - c.off)) = e := by omega
  have htake : inp.data.take (e - c.off) = inp.data := List.take_of_length_le (by omega)
  have hwf : firstOff c.off e (fun i => !d.granted c.ten (x.dst + i) true) = none := firstOff_none fun i ho hi => by simp [hw i ho hi]
  simp [Dev.copyChunk, chunkDone, chunkPlaced, chanMoved, hc, hj, hst, hdesc, hsrc, hdst, he, herr, hend, htake, dstAt_straight hdw,
    hwf, chunkWriteHbm_straight hdw, hlen]

end

/-- Without a barrier the channel is IDLE at the end of its list and the job has its result (R164). -/
def chanEnded (d : Dev) (n : Nat) (c : Chan) (r : JobRes) : Dev := (d.chanPut n { c with st := 0 }).jobEnd c.sq c.pos r

theorem chanEnd_without_barrier {d : Dev} {c : Chan} {j : Job} (hj : d.chanJob c = some j) (hbar : j.bar = false) (n : Nat) (r : JobRes) :
    d.chanEnd n c r = chanEnded d n c r := by
  simp [Dev.chanEnd, hj, hbar, chanEnded]

/-- The channel when the descriptor has moved its last k bytes. -/
def chanListed (c : Chan) (k : Nat) : Chan := { chanMoved c k with doneD := c.doneD + 1, acted := c.acted + 1 }

section
variable (d : Dev) (n : Nat) (c : Chan) (j : Job) (x : Desc) (b : List Byte) (drawn : Nat)

theorem hbm_chunkDone : (chunkDone d n c j x b drawn).hbm = d.hbm.write (x.dst + c.off) b :=
  (rel_Dev_chunkNext ..).same .hbm (by decide)

/-- HBM after a chunk: its bytes at the destination, and nothing else changed. -/
theorem bytes_chunkDone :
    (∀ i, c.off ≤ i → i < c.off + b.length → (chunkDone d n c j x b drawn).hbm.byte (x.dst + i) = b.getD (i - c.off) 0#8) ∧
    OnlyBytes (x.dst + c.off) b.length d (chunkDone d n c j x b drawn) := by
  simp only [OnlyBytes, hbm_chunkDone]
  refine ⟨fun i ho hi => ?_, fun y hy => hbm_write_other _ _ _ _ hy⟩
  have hk := byte_write_inside d.hbm (x.dst + c.off) (b := b) (i := i - c.off) (by omega)
  rwa [show x.dst + c.off + (i - c.off) = x.dst + i by omega] at hk

variable {d n c j x b}

/-- Within its descriptor the channel stands behind the chunk. -/
theorem chan_chunkDone_of_more (h : c.off + b.length < x.len) : (chunkDone d n c j x b drawn).chan n = chanMoved c b.length := by
  have hmore : (chanMoved c b.length).off < x.len := h
  rw [chunkDone, Dev.chunkNext, if_pos hmore, chan_chanPut_self]

/-- The last chunk of the last descriptor, no descriptor skipped and no barrier asked for: the channel is IDLE and the job has ended
with DONE (R163, R164). -/
theorem chunkDone_ends (h : c.off + b.length = x.len) (hlast : x.last = true) (hskip : c.skipped = false) (hj : d.chanJob c = some j)
    (hbar : j.bar = false) (hres : j.res = none) :
    ((chunkDone d n c j x b drawn).chan n).st = 0 ∧
    ∃ k, (chunkDone d n c j x b drawn).jobFind c.sq c.pos = some k ∧
      ∃ r, k.res = some r ∧ r.status = St.DONE ∧ r.len = c.done + b.length := by
  have hover : ¬(chanMoved c b.length).off < x.len := by simp [chanMoved, h]
  have hdone : chunkDone d n c j x b drawn = chanEnded (chunkPlaced d n c j x b drawn) n (chanListed c b.length)
      ((chanListed c b.length).result St.DONE 0 0) := by
    rw [chunkDone, Dev.chunkNext, if_neg hover]
    refine (if_pos hlast).trans ((if_neg (by simp [chanMoved, hskip])).trans ?_)
    exact chanEnd_without_barrier (d := chunkPlaced d n c j x b drawn) (c := chanListed c b.length) hj hbar ..
  have hres' : HasRes ((chunkPlaced d n c j x b drawn).chanPut n { chanListed c b.length with st := 0 }) c.sq c.pos none :=
    ⟨j, hj, hres⟩
  obtain ⟨k, hk, hkres⟩ := hasRes_jobEnd_self hres' ((chanListed c b.length).result St.DONE 0 0)
  rw [hdone]
  refine ⟨?_, k, hk, _, hkres, rfl, rfl⟩
  rw [chanEnded, chan_of_rel (rel_Dev_jobEnd ..), chan_chanPut_self]

end

/-! Grants (R154, R155). -/

/-- The table of grants once the command has taken effect. -/
def grantsAfter (d : Dev) (e : AdmEntry) : Kv Grant :=
  if bitOf e.d2 32 then
    kvPut (8 * e.ten + fld e.d2 18 16) { base := e.d3.toNat, size := e.d4.toNat, r := bitOf e.d2 33, w := bitOf e.d2 34 } d.dma.grants
  else kvDel (8 * e.ten + fld e.d2 18 16) d.dma.grants

theorem kvFind_grantsAfter (d : Dev) (e : AdmEntry) :
    kvFind (8 * e.ten + fld e.d2 18 16) (grantsAfter d e) = (if bitOf e.d2 32 then
      some { base := e.d3.toNat, size := e.d4.toNat, r := bitOf e.d2 33, w := bitOf e.d2 34 } else none) ∧
    ∀ k, k ≠ 8 * e.ten + fld e.d2 18 16 → kvFind k (grantsAfter d e) = kvFind k d.dma.grants := by
  unfold grantsAfter
  split
  · exact ⟨kvFind_kvPut_self .., fun k hk => kvFind_kvPut_ne hk ..⟩
  · exact ⟨kvFind_kvDel_self .., fun k hk => kvFind_kvDel_ne hk ..⟩

/-- The device with the grant in effect; the command waits, or not. -/
def granting (d : Dev) (e : AdmEntry) (waits : List AdmEntry) : Dev :=
  { d with dma := { d.dma with grants := grantsAfter d e, waiting := d.dma.waiting ++ waits } }

/-- A channel of the tenancy moves bytes: requests checked under the old grant may be in flight. -/
def tenMoving (d : Dev) (t : Nat) : Bool := d.dma.chans.any fun c => decide (c.2.st = 1 ∧ c.2.ten = t)

theorem tenMoving_iff (d : Dev) (t : Nat) : tenMoving d t = true ↔ ∃ c ∈ d.dma.chans, c.2.st = 1 ∧ c.2.ten = t := by
  simp [tenMoving]

theorem dmaGrant_accepted {s : State} {e : AdmEntry} (ho : Owns e e.ten s) (h2 : 2 ≤ (s.dev.tenGet e.ten).st)
    (h5 : (s.dev.tenGet e.ten).st ≠ 5)
    (hv : bitOf e.d2 32 = true →
      e.d3.toNat % 4096 = 0 ∧ e.d4.toNat ≠ 0 ∧ e.d4.toNat % 4096 = 0 ∧ e.d3.toNat + e.d4.toNat ≤ hbmReserved) :
    dmaGrant e s.dev = if tenMoving s.dev e.ten then .wait (granting s.dev e [e]) else .done (granting s.dev e []) := by
  have h1 : 1 < (s.dev.tenGet e.ten).st := h2
  unfold dmaGrant
  dsimp only
  rw [admChecks_pass]
  · simp only [granting, List.append_nil]
    rfl
  · cases hb : bitOf e.d2 32 with
    | false => simp [notOwner_owns ho, h1, h5]
    | true =>
      obtain ⟨hbase, hsize, hmult, hend⟩ := hv hb
      simp [notOwner_owns ho, h1, h5, hbase, hsize, hmult, hend]

/-! Commands on a halted channel (R166, R168). -/

theorem chanPre_pass {s : State} {e : AdmEntry} {c : Chan} (ho : Owns e e.ten s) (hc : s.dev.chan (fld e.d2 23 16) = c)
    (h3 : c.st = 3) (hten : c.ten = e.ten) : Passes (s.dev.chanPre e) := by
  simp [Dev.chanPre, notOwner_owns ho, hc, h3, hten]

/-- A channel whose descriptor is skipped. -/
def chanSkipped (c : Chan) : Chan := { c with st := 1, skipped := true, acted := c.acted + 1 }

section
variable {s : State} {e : AdmEntry} {n : Nat} {c : Chan} (ho : Owns e e.ten s) (hn : fld e.d2 23 16 = n) (hc : s.dev.chan n = c)
  (h3 : c.st = 3) (hten : c.ten = e.ten)
include ho hn hc h3 hten

theorem dmaResume_data (hf : c.faultDesc = false) : dmaResume e s.dev = .done (s.dev.chanPut n { c with st := 1 }) := by
  subst hn
  rw [dmaResume, admChecks_pass (chanPre_pass ho hc h3 hten)]
  simp [hc, hf]

theorem dmaSkip_desc (hf : c.faultDesc = true) : ∃ r, dmaSkip e s.dev = .done (s.dev.chanStop n (chanSkipped c) r) := by
  subst hn
  rw [dmaSkip, admChecks_pass (chanPre_pass ho hc h3 hten)]
  simp [hc, hf, chanSkipped]

theorem dmaAbort_stops : dmaAbort e s.dev = .done (s.dev.chanAbort n) := by
  subst hn
  rw [dmaAbort, admChecks_pass (chanPre_pass ho hc h3 hten)]

end

/-- The clause of a chunk within HBM: the destination reads as the source did, and the channel goes on or ends the list. -/
theorem copyChunk_within_hbm {s : State} {n e : Nat} {c : Chan} {j : Job} {x : Desc} (inp : ChunkIn) {ecc : Ecc} (hs : Alive s)
    (hc : s.dev.chan n = c) (hj : s.dev.chanJob c = some j) (hst : c.st = 1) (hdesc : c.desc = some x) (hsrc : x.srcHbm = true)
    (hdst : x.dstHbm = true) (hsw : x.swrap = 0) (hdw : x.dwrap = 0) (hsnap : c.snap = none) (hecc : ecc.ueLines = [])
    (he : min ((c.off / 4096 + 1) * 4096) x.len = e) (hlt : c.off < e)
    (hall : ∀ i, c.off ≤ i → i < e → s.dev.granted c.ten (x.src + i) false = true ∧ s.dev.granted c.ten (x.dst + i) true = true ∧
      s.dev.hbm.poisoned (x.src + i) 1 = false) :
    Runs (.copyChunk n inp ecc) s fun b =>
      (∀ i, c.off ≤ i → i < e → b.hbm.byte (x.dst + i) = s.dev.hbm.byte (x.src + i)) ∧ OnlyBytes (x.dst + c.off) (e - c.off) s.dev b ∧
      (e < x.len → b.chan n = { c with off := e, done := c.done + (e - c.off) }) ∧
      (e = x.len → x.last = true → j.bar = false → c.skipped = false → j.res = none →
        (b.chan n).st = 0 ∧ ∃ k, b.jobFind c.sq c.pos = some k ∧
          ∃ r, k.res = some r ∧ r.status = St.DONE ∧ r.len = c.done + (e - c.off)) := by
  have hread : ∀ i, c.off ≤ i → i < e → s.dev.granted c.ten (x.src + i) false = true ∧ s.dev.hbm.poisoned (x.src + i) 1 = false :=
    fun i ho hi => let ⟨hr, _, hp⟩ := hall i ho hi; ⟨hr, hp⟩
  have hwrite : ∀ i, c.off ≤ i → i < e → s.dev.granted c.ten (x.dst + i) true = true :=
    fun i ho hi => let ⟨_, hw, _⟩ := hall i ho hi; hw
  have hmoves := copyChunk_hbm hc hj hst hdesc hdst hdw he hwrite hsrc hsw hsnap inp hecc hread
  have hlen : (s.dev.hbm.bytes (x.src + c.off) (e - c.off)).length = e - c.off := by simp [Hbm.bytes]
  have hend : c.off + (e - c.off) = e := by omega
  obtain ⟨hbytes, honly⟩ := bytes_chunkDone (s.dev.applyEcc ecc) n c j x (s.dev.hbm.bytes (x.src + c.off) (e - c.off)) 0
  rw [hlen] at hbytes honly
  refine runs_of_run_eq hs (exec_copyChunk ..) hmoves ⟨fun i ho hi => ?copied, fun y hy => ?kept, fun hmore => ?goesOn, ?ends⟩
  case copied =>
    rw [hbytes i ho (by omega), Hbm.bytes, getD_map_range (by omega)]
    congr 1
    omega
  case kept => rw [honly y hy, byte_applyEcc]
  case goesOn =>
    rw [chan_chunkDone_of_more 0 (by omega), chanMoved, hlen, hend]
  case ends =>
    intro hfull hlast hbar hskip hres
    have hjob : (s.dev.applyEcc ecc).chanJob c = some j := (jobFind_of_rel (rel_Dev_applyEcc ..) c.sq c.pos).trans hj
    have hdone := chunkDone_ends (n := n) (b := s.dev.hbm.bytes (x.src + c.off) (e - c.off)) 0 (by omega) hlast hskip hjob hbar hres
    rwa [hlen] at hdone

/-- The clause of a chunk from host memory into HBM, with more of its descriptor to come. -/
theorem copyChunk_into_hbm {s : State} {n e : Nat} {c : Chan} {j : Job} {x : Desc} {inp : ChunkIn} (ecc : Ecc) (hs : Alive s)
    (hc : s.dev.chan n = c) (hj : s.dev.chanJob c = some j) (hst : c.st = 1) (hdesc : c.desc = some x) (hsrc : x.srcHbm = false)
    (hdst : x.dstHbm = true) (hdw : x.dwrap = 0) (herr : inp.rdErr = none) (he : min ((c.off / 4096 + 1) * 4096) x.len = e)
    (hlen : inp.data.length = e - c.off) (hlt : c.off < e) (hmore : e < x.len)
    (hw : ∀ i, c.off ≤ i → i < e → s.dev.granted c.ten (x.dst + i) true = true) :
    Runs (.copyChunk n inp ecc) s fun b =>
      (∀ i, c.off ≤ i → i < e → b.hbm.byte (x.dst + i) = inp.data.getD (i - c.off) 0#8) ∧
      OnlyBytes (x.dst + c.off) (e - c.off) s.dev b ∧ b.chan n = { c with off := e, done := c.done + (e - c.off) } := by
  have hmoves := copyChunk_host hc hj hst hdesc hdst hdw he hw hsrc herr hlen hlt ecc
  have hend : c.off + (e - c.off) = e := by omega
  obtain ⟨hbytes, honly⟩ := bytes_chunkDone s.dev n c j x inp.data (e - c.off)
  rw [hlen] at hbytes honly
  refine runs_of_run_eq hs (exec_copyChunk ..) hmoves ⟨fun i ho hi => hbytes i ho (by omega), honly, ?_⟩
  rw [chan_chunkDone_of_more _ (by omega), chanMoved, hlen, hend]

/-- The clause of DMA_GRANT: the grant is in effect at once, and the command waits while a channel of its tenancy moves bytes. -/
theorem dmaGrant_takes_effect {s : State} {e : AdmEntry} (hs : AdmReady s) (ho : Owns e e.ten s) (h2 : 2 ≤ (s.dev.tenGet e.ten).st)
    (h5 : (s.dev.tenGet e.ten).st ≠ 5)
    (hv : bitOf e.d2 32 = true →
      e.d3.toNat % 4096 = 0 ∧ e.d4.toNat ≠ 0 ∧ e.d4.toNat % 4096 = 0 ∧ e.d3.toNat + e.d4.toNat ≤ hbmReserved) :
    Runs (.dmaGrant e) s fun b =>
      ((∃ c ∈ s.dev.dma.chans, c.2.st = 1 ∧ c.2.ten = e.ten) → AdmWaits b e ∧ b.dma.waiting = s.dev.dma.waiting ++ [e]) ∧
      ((∀ c ∈ s.dev.dma.chans, c.2.st = 1 → c.2.ten ≠ e.ten) → AdmDone s.dev b e 0x28) ∧
      kvFind (8 * e.ten + fld e.d2 18 16) b.dma.grants = (if bitOf e.d2 32 then
        some { base := e.d3.toNat, size := e.d4.toNat, r := bitOf e.d2 33, w := bitOf e.d2 34 } else none) ∧
      (∀ k, k ≠ 8 * e.ten + fld e.d2 18 16 → kvFind k b.dma.grants = kvFind k s.dev.dma.grants) ∧ OnlyRegs [] s.dev b := by
  obtain ⟨hself, hother⟩ := kvFind_grantsAfter s.dev e
  have haccept := dmaGrant_accepted ho h2 h5 hv
  cases hm : tenMoving s.dev e.ten with
  | true =>
    rw [hm, if_pos rfl] at haccept
    obtain ⟨c, hcm, hc1, hct⟩ := (tenMoving_iff ..).1 hm
    refine runs_of_wait hs (exec_dmaGrant ..) haccept fun b hwait hk => ?_
    have hdma : b.dma = (granting s.dev e [e]).dma := hk .dma (by decide)
    rw [hdma]
    exact ⟨fun _ => ⟨hwait, rfl⟩, fun hnone => absurd hct (hnone c hcm hc1), hself, hother,
      onlyRegs_of_agree (a := granting s.dev e [e]) hk⟩
  | false =>
    rw [hm, if_neg Bool.false_ne_true] at haccept
    have hidle : ¬∃ c ∈ s.dev.dma.chans, c.2.st = 1 ∧ c.2.ten = e.ten := by
      rw [← tenMoving_iff, hm]
      exact Bool.false_ne_true
    obtain ⟨t, hrun, hq, hdone, hk⟩ := completes_of_change (P := fun b => Agree Machine.admParts (granting s.dev e []) b) hs
      (exec_dmaGrant ..) haccept (rel_dmaGrant ..) fun b _ hk => hk
    have hdma : t.dev.dma = (granting s.dev e []).dma := hk .dma (by decide)
    refine ⟨t, hrun, hq, fun hsome => absurd hsome hidle, fun _ => hdone, ?_⟩
    rw [hdma]
    exact ⟨hself, hother, onlyRegs_of_agree (a := granting s.dev e []) hk⟩

/-- Settles O24, clause by clause: what each command does to the channel, to the bytes and to the grants that it names. -/
theorem copyEngine : Obligations.CopyEngine := by
  unfold Obligations.CopyEngine
  refine ⟨?copy, ?descRead, ?withinHbm, ?intoHbm, ?timeout, ?grant, ?drained, ?halted⟩
  case copy =>
    intro s q pos n c j hs hc hj hread haddr
    refine runs_of_run_eq hs (exec_copy ..) (copyStart_fetches hc hj hread haddr) ⟨?_, chan_chanFetch .., agree_of_rel_mask ?_⟩
    · exact (jobFind_of_rel (rel_Dev_chanFetch ..) q pos).trans (jobFind_jobPut_of_found hj rfl rfl)
    · exact ((rel_Dev_jobPut ..).mono (by decide)).trans ((rel_Dev_chanFetch ..).mono (by decide))
  case descRead =>
    rintro s n _ j bytes ecc hs rfl hj hst hdesc hread hhost hok
    refine runs_of_run_eq hs (exec_descriptorReadDone ..)
      (descDone_reads (d := s.dev.dropReads (.chan n)) rfl hj hst hdesc hread hhost hok ecc) ?_
    rw [chan_chanPut_self]
    exact ⟨rfl, rfl, agree_of_rel_mask (((rel_Dev_dropReads ..).mono (by decide)).trans ((rel_Dev_chanPut ..).mono (by decide)))⟩
  case withinHbm =>
    rintro s n _ c j x inp ecc hs hc hj hst hdesc hsrc hdst hsw hdw hsnap hecc rfl hlt hall
    exact copyChunk_within_hbm inp hs hc.symm hj hst hdesc hsrc hdst hsw hdw hsnap hecc rfl hlt hall
  case intoHbm =>
    rintro s n _ c j x inp ecc hs hc hj hst hdesc hsrc hdst - hdw herr rfl hlen hlt hmore hw
    exact copyChunk_into_hbm ecc hs hc.symm hj hst hdesc hsrc hdst hdw herr rfl hlen hlt hmore hw
  case timeout =>
    intro s n hs h3
    have habort : s.dev.haltTimeout n = (s.dev.count Reg.DMA_HALT_TO_CNT).chanAbort n := if_pos h3
    obtain ⟨hcount, honly⟩ := counted_spec (a := s.dev) rfl
      ((rel_Dev_chanAbort (s.dev.count Reg.DMA_HALT_TO_CNT) n).same .regs (by decide))
    refine runs_of_run_eq hs (exec_dmaHaltTimeout ..) habort ⟨?_, hcount, honly⟩
    rw [chan_chanAbort]
  case grant =>
    intro s e hs ho h2 h5 hv
    exact dmaGrant_takes_effect hs ho h2 h5 hv
  case drained =>
    intro s t e hs hfound
    have hdma : (s.dev.grantDrained t).dma.waiting = s.dev.dma.waiting.erase e := by
      simp only [Dev.grantDrained, hfound]
      exact congrArg DmaPart.waiting ((rel_Dev_admLate ..).same .dma (by decide))
    exact runs_of_run hs (exec_grantDrained ..) ⟨hdma, onlyRegs_of_rel (rel_Dev_grantDrained ..)⟩
  case halted =>
    intro s e n c hs ho hn hc h3 hten
    refine ⟨fun hf => ?resume, fun hf => ?skip, ?abort⟩
    case resume =>
      refine completes_of_change hs (exec_dmaResume ..) (dmaResume_data ho hn.symm hc.symm h3 hten hf) (rel_dmaResume ..) fun b _ hk => ?_
      rw [chan_of_dma_eq (hk .dma (by decide)), chan_chanPut_self]
      exact ⟨rfl, onlyRegs_of_agree (a := s.dev.chanPut n _) hk⟩
    case skip =>
      obtain ⟨r, hskip⟩ := dmaSkip_desc ho hn.symm hc.symm h3 hten hf
      refine completes_of_change hs (exec_dmaSkip ..) hskip (rel_dmaSkip ..) fun b _ hk => ?_
      rw [chan_of_dma_eq (hk .dma (by decide)), chan_chanStop]
      exact ⟨rfl, rfl, onlyRegs_trans (onlyRegs_of_rel (rel_Dev_chanStop ..)) (onlyRegs_of_agree hk)⟩
    case abort =>
      refine completes_of_change hs (exec_dmaAbort ..) (dmaAbort_stops ho hn.symm hc.symm h3 hten) (rel_dmaAbort ..) fun b _ hk => ?_
      rw [chan_of_dma_eq (hk .dma (by decide)), chan_chanAbort]
      exact ⟨rfl, onlyRegs_trans (onlyRegs_of_rel (rel_Dev_chanAbort ..)) (onlyRegs_of_agree hk)⟩

end Sys2Proof.Proofs

/-! States that meet the conditions of the statement about the copy engine, with what the commands then do. -/

namespace Sys2Proof.Proofs

open Sys2Proof Sys2Proof.Machine Sys2Proof.Laws

/-- An address that lies in one of the eight grants of the tenancy is granted as that grant says (R154). -/
theorem granted_of_grant {d : Dev} {t k a : Nat} {g : Grant} {write : Bool} (hk : k < 8) (hg : kvFind (8 * t + k) d.dma.grants = some g)
    (hlo : g.base ≤ a) (hhi : a < g.base + g.size) (hperm : (if write then g.w else g.r) = true) : d.granted t a write = true := by
  refine List.any_eq_true.2 ⟨k, List.mem_range.2 hk, ?_⟩
  simp only [hg, hlo, hhi, and_self, decide_true, Bool.true_and, hperm]

/-- A COPY job of 8,192 bytes of tenancy 7. -/
def pageCopy : Job := { sq := 3, pos := 0, ten := 7, gen := 0, entries := [{ d0 := 0x200000000308#64 }], reading := true }

/-- Grants 0 and 7 of tenancy 7: the first page of HBM to read, the second to write. -/
def readFirst : Grant := { base := 0, size := 4096, r := true, w := false }
def writeSecond : Grant := { base := 4096, size := 4096, r := false, w := true }

/-- Control firmware is up; tenancy 7 is OPEN, may read the first page of HBM and write the second; its job j is on channel 255. -/
def copying (c : Chan) (j : Job) : State :=
  { controlUp with
    dev := jobAdded { controlUp.dev.tenPut 7 { st := 3 } with
      hbm := { cells := [(4095, 0xAB#8)] }
      dma := { chans := [(255, c)], grants := [(56, readFirst), (63, writeSecond)] } } j }

theorem granted_copying (c : Chan) (j : Job) {i : Nat} (h : i < 4096) :
    (copying c j).dev.granted 7 (0 + i) false = true ∧ (copying c j).dev.granted 7 (4096 + i) true = true :=
  ⟨granted_of_grant (k := 0) (g := readFirst) (by decide) rfl (Nat.zero_le _) (Nat.add_lt_add_left h 0) rfl,
   granted_of_grant (k := 7) (g := writeSecond) (by decide) rfl (Nat.le_add_right ..) (Nat.add_lt_add_left h 4096) rfl⟩

/-- A channel of the job, its list in host memory. -/
def movingChan : Chan := { st := 1, sq := 3, pos := 0, ten := 7 }

theorem copy_fetches : Runs (.copy 3 0) (copying movingChan { pageCopy with reading := false }) fun b =>
    b.jobFind 3 0 = some pageCopy := by
  obtain ⟨hcopy, -⟩ := copyEngine
  obtain ⟨t, he, hq, hjob, -⟩ := hcopy (copying movingChan { pageCopy with reading := false }) 3 0 255 movingChan _ rfl rfl rfl rfl rfl
  exact ⟨t, he, hq, hjob⟩

/-- A last descriptor from the first page of HBM to the second. -/
def pageDesc : Desc :=
  { src := 0, dst := 4096, len := 4096, swrap := 0, dwrap := 0, nextHbm := false, dstHbm := true, srcHbm := true, last := true, next := 0 }

/-- Its 32 bytes. -/
def pageDescBytes : List Byte :=
  List.replicate 9 0#8 ++ [0x10#8] ++ List.replicate 6 0#8 ++ [0x07#8, 0#8, 0#8, 0#8, 0#8, 0x10#8] ++ List.replicate 10 0#8

theorem ofBytes_pageDescBytes : Desc.ofBytes (fitTo 32 pageDescBytes) = pageDesc := by decide

theorem descriptorReadDone_page : Runs (.descriptorReadDone 255 pageDescBytes none {}) (copying movingChan pageCopy) fun b =>
    (b.chan 255).desc = some pageDesc := by
  obtain ⟨-, hread, -⟩ := copyEngine
  obtain ⟨t, he, hq, hdesc, -⟩ := hread (copying movingChan pageCopy) 255 movingChan pageCopy pageDescBytes {} rfl rfl rfl rfl rfl rfl rfl
    (by rw [ofBytes_pageDescBytes]; rfl)
  exact ⟨t, he, hq, ofBytes_pageDescBytes ▸ hdesc⟩

/-- The channel with that descriptor read. -/
def pageChan : Chan := { movingChan with desc := some pageDesc }

/-- The one chunk of the descriptor reaches the last byte of both grants; it ends the job. -/
theorem copyChunk_page : Runs (.copyChunk 255 {} {}) (copying pageChan pageCopy) fun b =>
    b.hbm.byte 8191 = 0xAB#8 ∧ (b.chan 255).st = 0 ∧
    ∃ k, b.jobFind 3 0 = some k ∧ ∃ r, k.res = some r ∧ r.status = St.DONE ∧ r.len = 4096 := by
  obtain ⟨-, -, hchunk, -⟩ := copyEngine
  obtain ⟨t, he, hq, hbytes, -, -, hends⟩ := hchunk (copying pageChan pageCopy) 255 4096 pageChan pageCopy pageDesc {} {} rfl rfl rfl rfl
    rfl rfl rfl rfl rfl rfl rfl (by decide) (by decide) fun i _ hi =>
      ⟨(granted_copying _ _ hi).1, (granted_copying _ _ hi).2, rfl⟩
  exact ⟨t, he, hq, hbytes 4095 (by decide) (by decide), hends rfl rfl rfl rfl rfl⟩

/-- A channel with one byte to go before its first chunk ends, the descriptor being one of 4,097 bytes from host memory. -/
def hostChan : Chan := { movingChan with desc := some { pageDesc with len := 4097, srcHbm := false }, off := 4095, done := 4095 }

theorem copyChunk_last_byte : Runs (.copyChunk 255 { data := [0xCD#8] } {}) (copying hostChan pageCopy) fun b =>
    b.hbm.byte 8191 = 0xCD#8 ∧ b.chan 255 = { hostChan with off := 4096, done := 4096 } := by
  obtain ⟨-, -, -, hchunk, -⟩ := copyEngine
  obtain ⟨t, he, hq, hbytes, -, hchan⟩ := hchunk (copying hostChan pageCopy) 255 4096 hostChan pageCopy _ { data := [0xCD#8] } {} rfl rfl
    rfl rfl rfl rfl rfl rfl rfl rfl (by decide) rfl (by decide) (by decide) fun i _ hi =>
      (granted_copying _ _ hi).2
  exact ⟨t, he, hq, hbytes 4095 (by decide) (by decide), hchan⟩

/-- A channel halted on a read of its descriptor, or of its data. -/
def haltedChan (onDesc : Bool) : Chan := { pageChan with st := 3, fault := (St.BUSERR, 6), faultDesc := onDesc }

theorem dmaHaltTimeout_frees : Runs (.dmaHaltTimeout 255) (copying (haltedChan false) pageCopy) fun b =>
    (b.chan 255).st = 0 ∧ b.reg Reg.DMA_HALT_TO_CNT = 1#32 := by
  obtain ⟨-, -, -, -, htimeout, -⟩ := copyEngine
  obtain ⟨t, he, hq, hst, hcount, -⟩ := htimeout (copying (haltedChan false) pageCopy) 255 rfl rfl
  exact ⟨t, he, hq, hst, hcount⟩

/-- DMA_GRANT of the last page below the reserved range, as grant 7. -/
def grantLastPage : AdmEntry := { pf := 0, tag := 4, d2 := 0x0000000700070007#64, d3 := 0x2BFFFFF000#64, d4 := 0x1000#64 }

theorem dmaGrant_waits : Runs (.dmaGrant grantLastPage) (copying pageChan pageCopy) fun b =>
    b.dma.waiting = [grantLastPage] ∧ kvFind 63 b.dma.grants = some { base := 0x2BFFFFF000, size := 4096, r := true, w := true } := by
  obtain ⟨-, -, -, -, -, hgrant, -⟩ := copyEngine
  obtain ⟨t, he, hq, hwaits, -, hself, -⟩ := hgrant (copying pageChan pageCopy) grantLastPage ⟨rfl, rfl, rfl⟩ (.inr rfl) (by decide)
    (by decide) (fun _ => by decide)
  obtain ⟨-, hwaiting⟩ := hwaits ⟨_, .head _, rfl, rfl⟩
  exact ⟨t, he, hq, hwaiting, hself⟩

/-- That command waits. -/
def grantWaiting : State :=
  let s := copying pageChan pageCopy
  { s with dev := { s.dev with dma := { s.dev.dma with waiting := [grantLastPage] } } }

theorem grantDrained_ends_wait : Runs (.grantDrained 7) grantWaiting fun b => b.dma.waiting = [] := by
  obtain ⟨-, -, -, -, -, -, hdrained, -⟩ := copyEngine
  obtain ⟨t, he, hq, hwaiting, -⟩ := hdrained grantWaiting 7 grantLastPage rfl rfl
  exact ⟨t, he, hq, hwaiting⟩

/-- A command of PF 0 on channel 255 for tenancy 7. -/
def onChan255 : AdmEntry := { pf := 0, tag := 5, d2 := 0x0000000000FF0007#64 }

theorem dmaResume_moves : Runs (.dmaResume onChan255) (copying (haltedChan false) pageCopy) fun b => (b.chan 255).st = 1 := by
  obtain ⟨-, -, -, -, -, -, -, hhalted⟩ := copyEngine
  obtain ⟨hresume, -⟩ := hhalted (copying (haltedChan false) pageCopy) onChan255 255 _ ⟨rfl, rfl, rfl⟩ (.inr rfl) rfl rfl rfl rfl
  obtain ⟨t, he, hq, -, hchan, -⟩ := hresume rfl
  exact ⟨t, he, hq, congrArg Chan.st hchan⟩

theorem dmaSkip_ends_walk : Runs (.dmaSkip onChan255) (copying (haltedChan true) pageCopy) fun b =>
    (b.chan 255).st = 0 ∧ (b.chan 255).skipped = true := by
  obtain ⟨-, -, -, -, -, -, -, hhalted⟩ := copyEngine
  obtain ⟨-, hskip, -⟩ := hhalted (copying (haltedChan true) pageCopy) onChan255 255 _ ⟨rfl, rfl, rfl⟩ (.inr rfl) rfl rfl rfl rfl
  obtain ⟨t, he, hq, -, hst, hskipped, -⟩ := hskip rfl
  exact ⟨t, he, hq, hst, hskipped⟩

theorem dmaAbort_frees : Runs (.dmaAbort onChan255) (copying (haltedChan true) pageCopy) fun b => (b.chan 255).st = 0 := by
  obtain ⟨-, -, -, -, -, -, -, hhalted⟩ := copyEngine
  obtain ⟨-, -, habort⟩ := hhalted (copying (haltedChan true) pageCopy) onChan255 255 _ ⟨rfl, rfl, rfl⟩ (.inr rfl) rfl rfl rfl rfl
  obtain ⟨t, he, hq, -, hst, -⟩ := habort
  exact ⟨t, he, hq, hst⟩

end Sys2Proof.Proofs

/-! What the words of an action list do with a frame (R15, R31, R226, R233, R242, R249, R256 to R258, R284). -/

namespace Sys2Proof.Proofs

open Sys2Proof Sys2Proof.Machine Sys2Proof.Laws

theorem exec_forwardFrame (tok : Nat) (ecc : Ecc) (s : State) : exec (.forwardFrame tok ecc) s = s.run (·.forward tok ecc) := rfl

/-- An access without memory errors is noted nowhere (R27). -/
theorem applyEcc_none (d : Dev) : d.applyEcc {} = d := rfl

/-! Where a frame starts (R226, R233, R249). -/

section
variable {d : Dev} {tok : Nat} {p : Packet}

/-- A lookup that meets no poisoned line answers what the table holds (R31). -/
theorem lookup_clean {t : Nat} {key : List Byte} (hv : (d.desc t).v = true)
    (hclean : ∀ x ∈ (d.desc t).places key, d.hbm.poisoned x 64 = false) : d.lookup t key = (0, d.findIn (d.desc t) key, d) := by
  have hnone : ((d.desc t).places key).find? (fun a => d.hbm.poisoned a 64) = none :=
    List.find?_eq_none.2 fun x hx => by simp [hclean x hx]
  simp [Dev.lookup, hv, hnone]

/-- A hit on a line stamped this tick that names no counter and no mark only leads to its list (R233). -/
theorem flowHit_plain {a : Nat} (hts : lnTs (d.line a) = d.fwd.now) (hcnt : lnD5 (d.line a) / 2 ^ 17 % 2 = 0)
    (hmark : lnD5 (d.line a) / 2 ^ 42 % 2 = 0) (f : Fwd) :
    d.flowHit p f a = .jump (lnD5 (d.line a) % 131072) d p f := by
  have hhit : d.hitLine a = d := if_pos hts
  simp only [Dev.flowHit, hhit, hcnt, hmark, zero_ne_one, false_and, if_false]

/-- A classified frame runs the list that it starts with. -/
theorem forward_starts {i : Nat} (hstop : d.pwr.stopP = false) (hk : d.pkt tok = some p) (hst : p.stage = .classified)
    (h : StartsList d p i) : d.forward tok {} = d.fwdRun tok p { bytes := p.data.length, idx := i } 512 := by
  unfold Dev.forward
  simp only [hstop, hk, hst, applyEcc_none, Bool.false_eq_true, if_false]
  generalize 512 = fuel
  rcases h with ⟨hav, hi⟩ |
    ⟨hav, hten, r, hr, ⟨hen, hi⟩ | ⟨hen, h3, key, a, hkey, hv, hclean, ha, hts, hcnt, hmark, hi⟩⟩ <;> rw [hi]
  · rw [if_pos hav]
  · have hf : d.fwdFlow tok p { bytes := p.data.length } = .jump r.miss d p { bytes := p.data.length } := by
      simp [Dev.fwdFlow, hten, hr, hen]
    simp only [hav, hten, hf, Bool.false_eq_true, if_false, if_true]
  · have hf : d.fwdFlow tok p { bytes := p.data.length } = .jump (lnD5 (d.line a) % 131072) d p { bytes := p.data.length } := by
      simp [Dev.fwdFlow, hten, hr, hen, h3, hkey, lookup_clean hv hclean, ha, Dev.fwdFate, flowHit_plain hts hcnt hmark]
    simp only [hav, hten, hf, Bool.false_eq_true, if_false, if_true]

theorem forward_noTenancy (hstop : d.pwr.stopP = false) (hk : d.pkt tok = some p) (hst : p.stage = .classified)
    (hav : p.cls.av = false) (hten : p.tenV = false) : d.forward tok {} = (d.dropPkt tok).count Reg.FWD_NO_TEN := by
  simp [Dev.forward, hstop, hk, hst, applyEcc_none, hav, hten]

end

/-! Entries of an action list (R256, R257). -/

section
variable {d e : Dev} {tok fuel : Nat} {p q : Packet} {f g : Fwd} {h : Dword}

theorem actionPoison_clean {i : Nat} (hp : d.hbm.poisoned ((d.desc 3).base + 64 * i) 64 = false) : d.actionPoison i = (0, d) :=
  if_neg fun hpois => by simp [hp] at hpois

/-- A frame can use no entry that reads as not valid; so one that it may use is not poisoned (R31). -/
theorem actionPoison_of_mayUse {i : Nat} (hu : p.mayUse ((d.action i).headD 0) = true) : d.actionPoison i = (0, d) := by
  by_cases hp : (d.desc 3).v = true ∧ d.hbm.poisoned ((d.desc 3).base + 64 * i) 64 = true
  · simp [Dev.action, hp.1, hp.2, Packet.mayUse, actV, bitOf] at hu
  · exact if_neg hp

/-- Where a run goes after a word: on with the list, to another list, or to its end (R257). -/
def afterWord (tok fuel : Nat) : FStep → Dev
  | .next d p f => d.fwdRun tok p f fuel
  | .jump i d p f => d.fwdRun tok p { f with idx := i, word := 0 } fuel
  | .done d => d

/-- One entry of a run, where it is not poisoned: the rights of the frame, the next word, and after the last word the list that
follows (R256, R257). -/
theorem fwdRun_entry (hp : d.actionPoison f.idx = (0, d)) (hh : h = (d.action f.idx).headD 0) :
    d.fwdRun tok p f (fuel + 1) =
      if !p.mayUse h then (d.dropPkt tok).count Reg.FWD_ACT_DENY
      else if f.word < fld h 2 0 then
        if f.run = 32 then (d.dropPkt tok).count Reg.FWD_ACT_LONG
        else afterWord tok fuel
          (d.fwdWord tok p { f with word := f.word + 1, run := f.run + 1 } h ((d.action f.idx).getD (f.word + 1) 0))
      else if bitOf h 48 then d.fwdRun tok p { f with idx := fld h 47 31, word := 0 } fuel
      else (d.dropPkt tok).count Reg.FWD_NO_FATE := by
  subst hh
  rw [Dev.fwdRun, hp]
  rfl

theorem fwdRun_denied (hp : d.hbm.poisoned ((d.desc 3).base + 64 * f.idx) 64 = false)
    (hu : p.mayUse ((d.action f.idx).headD 0) = false) :
    d.fwdRun tok p f (fuel + 1) = (d.dropPkt tok).count Reg.FWD_ACT_DENY :=
  (fwdRun_entry (actionPoison_clean hp) rfl).trans (if_pos (by rw [hu]; rfl))

theorem fwdRun_noFate (hh : h = (d.action f.idx).headD 0) (hu : p.mayUse h = true) (hn : fld h 2 0 ≤ f.word)
    (hc : bitOf h 48 = false) : d.fwdRun tok p f (fuel + 1) = (d.dropPkt tok).count Reg.FWD_NO_FATE := by
  rw [fwdRun_entry (actionPoison_of_mayUse (hh ▸ hu)) hh]
  simp only [hu, Nat.not_lt.2 hn, hc, Bool.not_true, Bool.false_eq_true, if_false]

theorem fwdRun_word (hh : h = (d.action f.idx).headD 0) (hu : p.mayUse h = true) (hn : f.word < fld h 2 0) (hr : f.run ≠ 32) :
    d.fwdRun tok p f (fuel + 1) = afterWord tok fuel
      (d.fwdWord tok p { f with word := f.word + 1, run := f.run + 1 } h ((d.action f.idx).getD (f.word + 1) 0)) := by
  rw [fwdRun_entry (actionPoison_of_mayUse (hh ▸ hu)) hh]
  simp only [hu, hn, hr, Bool.not_true, Bool.false_eq_true, if_true, if_false]

/-- The first word of a list ends the frame's way. -/
theorem fwdList_done {i : Nat} (hu : p.mayUse ((d.action i).headD 0) = true) (hn : fld ((d.action i).headD 0) 2 0 ≠ 0)
    (hw : d.fwdWord tok p { bytes := p.data.length, idx := i, word := 1, run := 1 } ((d.action i).headD 0) ((d.action i).getD 1 0) =
      .done e) :
    d.fwdRun tok p { bytes := p.data.length, idx := i } (fuel + 1) = e := by
  have hfirst := fwdRun_word (fuel := fuel) (tok := tok) (f := { bytes := p.data.length, idx := i }) rfl hu (Nat.pos_of_ne_zero hn)
    (show 0 ≠ 32 by decide)
  exact hfirst.trans (congrArg (afterWord tok fuel) hw)

/-- The first word of a list changes the frame or the device, so that the second finds its entry as it was; and that one ends the
frame's way. -/
theorem fwdList_next_done {e' : Dev} {i : Nat} (hu : p.mayUse ((d.action i).headD 0) = true) (hn : 2 ≤ fld ((d.action i).headD 0) 2 0)
    (hw : d.fwdWord tok p { bytes := p.data.length, idx := i, word := 1, run := 1 } ((d.action i).headD 0) ((d.action i).getD 1 0) =
      .next e q { bytes := p.data.length, idx := i, word := 1, run := 1 })
    (ha : e.action i = d.action i) (hq : q.mayUse ((d.action i).headD 0) = p.mayUse ((d.action i).headD 0))
    (hw' : e.fwdWord tok q { bytes := p.data.length, idx := i, word := 2, run := 2 } ((d.action i).headD 0) ((d.action i).getD 2 0) =
      .done e') :
    d.fwdRun tok p { bytes := p.data.length, idx := i } (fuel + 2) = e' := by
  have hlt : 0 < fld ((d.action i).headD 0) 2 0 := Nat.lt_of_lt_of_le Nat.two_pos hn
  have hfirst := fwdRun_word (fuel := fuel + 1) (tok := tok) (f := { bytes := p.data.length, idx := i }) rfl hu hlt
    (show 0 ≠ 32 by decide)
  have hsecond := fwdRun_word (d := e) (tok := tok) (fuel := fuel) (f := { bytes := p.data.length, idx := i, word := 1, run := 1 })
    (congrArg (List.headD · 0) ha.symm) (hq.trans hu) hn (show 1 ≠ 32 by decide)
  rw [ha] at hsecond
  exact ((hfirst.trans (congrArg (afterWord tok (fuel + 1)) hw)).trans hsecond).trans (congrArg (afterWord tok fuel) hw')

end

/-! The words (R242, R256, R257, R258, R284). -/

section
variable {d : Dev} {tok : Nat} {p : Packet} {f : Fwd} {h w : Dword}

/-- The frame p with the class that a word of the port action gives it (R256). -/
def portFrame (p : Packet) (x : Nat) : Packet := if x / 2 ^ 11 % 2 = 1 then { p with tc := x / 256 % 8 } else p

theorem portFrame_ctx (hctx : p.ctx = none) (x : Nat) : (portFrame p x).ctx = none := by unfold portFrame; split <;> exact hctx

theorem portFrame_twin (ht : p.twin = none) (x : Nat) : (portFrame p x).twin = none := by unfold portFrame; split <;> exact ht

theorem portFrame_data (p : Packet) (x : Nat) : (portFrame p x).data = p.data := by unfold portFrame; split <;> rfl

theorem portFrame_tc (p : Packet) (x : Nat) : (portFrame p x).tc = if x / 2 ^ 11 % 2 = 1 then x / 256 % 8 else p.tc := by
  unfold portFrame; split <;> rfl

theorem fwdWord_port (hc : fld w 63 56 = 0x01) (he : f.encap = false) (ht : p.twin = none) :
    d.fwdWord tok p f h w = .done (d.enqueuePort tok (fld w 55 0 % 16) (portFrame p (fld w 55 0))) := by
  have hout : d.fwdWord tok p f h w = d.fwdOut tok (portFrame p (fld w 55 0)) f (fld w 55 0 % 16) := by
    unfold Dev.fwdWord
    rw [hc]
    rfl
  rw [hout, Dev.fwdOut, if_neg (by simp [he]), Dev.toPort, portFrame_twin ht]

theorem fwdWord_dest (hc : fld w 63 56 = 0x02) (h2 : fld w 55 0 / 2 ^ 28 % 16 = 2) :
    d.fwdWord tok p f h w = d.fwdDest tok p f h (fld w 55 0 % 2 ^ 32) := by
  unfold Dev.fwdWord
  rw [hc]
  exact if_pos h2

/-- A ring of a tenancy that the entry's owner may name (R257). -/
theorem fwdWord_ring (hc : fld w 63 56 = 0x02) (h2 : fld w 55 0 / 2 ^ 28 % 16 = 2)
    (ho : actDev h = true ∨ fld w 55 0 / 512 % 4096 = actOwner h) :
    d.fwdWord tok p f h w = .done (d.toRing tok p (fld w 55 0 % 2 ^ 32) f.mark f.decrypted) := by
  have hdest : fld w 55 0 % 2 ^ 32 / 2 ^ 28 = 2 := by omega
  have howner : fld w 55 0 % 2 ^ 32 / 512 % 4096 = fld w 55 0 / 512 % 4096 := by omega
  have hmay : ¬((!actDev h) = true ∧ fld w 55 0 / 512 % 4096 ≠ actOwner h) := by
    rintro ⟨hdev, hne⟩
    exact ho.elim (fun hd => by simp [hd] at hdev) hne
  rw [fwdWord_dest hc h2]
  unfold Dev.fwdDest
  rw [hdest, howner]
  exact if_neg hmay

theorem fwdWord_ring_foreign (hc : fld w 63 56 = 0x02) (h2 : fld w 55 0 / 2 ^ 28 % 16 = 2) (hdev : actDev h = false)
    (hne : fld w 55 0 / 512 % 4096 ≠ actOwner h) : d.fwdWord tok p f h w = d.fwdDrop tok Reg.FWD_ACT_DENY := by
  have hdest : fld w 55 0 % 2 ^ 32 / 2 ^ 28 = 2 := by omega
  have howner : fld w 55 0 % 2 ^ 32 / 512 % 4096 = fld w 55 0 / 512 % 4096 := by omega
  have hnot : (!actDev h) = true ∧ fld w 55 0 / 512 % 4096 ≠ actOwner h := ⟨by simp [hdev], hne⟩
  rw [fwdWord_dest hc h2]
  unfold Dev.fwdDest
  rw [hdest, howner]
  exact if_pos hnot

theorem fwdWord_handler (hc : fld w 63 56 = 0x03) : d.fwdWord tok p f h w = .done (d.setPkt tok { p with
    stage := .handler (fld w 55 0 % 65536), cls := { p.cls with hv := true, handler := fld w 55 0 % 65536 } }) := by
  unfold Dev.fwdWord
  rw [hc]
  rfl

theorem fwdWord_drop (hc : fld w 63 56 = 0x04) : d.fwdWord tok p f h w = d.fwdDrop tok Reg.FWD_ACT_DROP := by
  unfold Dev.fwdWord
  rw [hc]
  rfl

theorem fwdWord_recirc (hc : fld w 63 56 = 0x0A) : d.fwdWord tok p f h w = d.fwdRecirc tok p f := by
  unfold Dev.fwdWord
  rw [hc]
  rfl

theorem fwdWord_mac (hc : fld w 63 56 = 0x10) {o : Nat} (ho : p.slot 1 = some o) (h48 : fld w 55 0 / 2 ^ 48 % 2 = 0) :
    d.fwdWord tok p f h w = .next d { p with data := patch p.data o (beBytes 6 (fld w 55 0 % 2 ^ 48)) } f := by
  unfold Dev.fwdWord
  rw [hc, ho]
  simp only [h48, Option.getD_some, zero_ne_one, if_false, Nat.add_zero]

theorem fwdWord_ttl (hc : fld w 63 56 = 0x12) : d.fwdWord tok p f h w = d.fwdTtl tok p f (fld w 55 0) := by
  unfold Dev.fwdWord
  rw [hc]
  rfl

theorem fwdWord_count (hc : fld w 63 56 = 0x16) : d.fwdWord tok p f h w = d.fwdCount tok p f (fld w 55 0 % 2 ^ 24) := by
  unfold Dev.fwdWord
  rw [hc]
  rfl

theorem fwdWord_crypt (hc : fld w 63 56 = 0x1B) : d.fwdWord tok p f h w = d.fwdCrypt tok p f (fld w 55 0) := by
  unfold Dev.fwdWord
  rw [hc]
  rfl

end

/-! HBM after a write (R31). -/

theorem bytes_write_self (h : Hbm) (a : Nat) (b : List Byte) : (h.write a b).bytes a b.length = b := by
  refine List.ext_getElem (by simp [Hbm.bytes]) fun i hi hb => ?_
  simp only [Hbm.bytes, List.getElem_map, List.getElem_range]
  rw [byte_write_inside h a hb, List.getD_eq_getElem?_getD, List.getElem?_eq_getElem hb, Option.getD_some]

/-- Bytes that a write does not reach. -/
theorem bytes_write_apart {h : Hbm} {a x n : Nat} {b : List Byte} (hx : x + n ≤ a ∨ a + b.length ≤ x) :
    (h.write a b).bytes x n = h.bytes x n := by
  refine List.map_congr_left fun i hi => ?_
  have hi' : i < n := List.mem_range.1 hi
  exact hbm_write_other _ _ _ _ (by omega)

/-- A write of less than a line clears no poison mark (R31). -/
theorem poison_write_short (h : Hbm) (a : Nat) {b : List Byte} (hb : b.length < 64) : (h.write a b).poison = h.poison :=
  List.filter_eq_self.2 fun l _ => by
    simp only [Bool.not_eq_true', decide_eq_false_iff_not]
    omega

theorem leBytes_length (n v : Nat) : (leBytes n v).length = n := by
  induction n generalizing v with
  | zero => rfl
  | succ n ih => simp [leBytes, ih]

theorem ctrAdd_bytes (d : Dev) (n k : Nat) :
    (d.ctrAdd n k).hbm.bytes (d.ctrAddr n) 16 = leBytes 8 (leAt (d.hbm.bytes (d.ctrAddr n) 16) 0 8 + 1) ++
      leBytes 8 (leAt (d.hbm.bytes (d.ctrAddr n) 16) 8 8 + k) := by
  have h := bytes_write_self d.hbm (d.ctrAddr n) (leBytes 8 (leAt (d.hbm.bytes (d.ctrAddr n) 16) 0 8 + 1) ++
    leBytes 8 (leAt (d.hbm.bytes (d.ctrAddr n) 16) 8 8 + k))
  rwa [List.length_append, leBytes_length, leBytes_length] at h

theorem onlyBytes_hbmWrite (d : Dev) (a : Nat) (b : List Byte) : OnlyBytes a b.length d (d.hbmWrite a b) :=
  fun _ hy => hbm_write_other _ _ _ _ hy

theorem onlyBytes_ctrAdd (d : Dev) (n k : Nat) : OnlyBytes (d.ctrAddr n) 16 d (d.ctrAdd n k) := by
  have h := onlyBytes_hbmWrite d (d.ctrAddr n) (leBytes 8 (leAt (d.hbm.bytes (d.ctrAddr n) 16) 0 8 + 1) ++
    leBytes 8 (leAt (d.hbm.bytes (d.ctrAddr n) 16) 8 8 + k))
  rwa [List.length_append, leBytes_length, leBytes_length] at h

/-- A counter that lies below the action entries is none of their bytes. -/
theorem action_ctrAdd {d : Dev} {n : Nat} (h : d.ctrAddr n + 16 ≤ (d.desc 3).base) (k i : Nat) :
    (d.ctrAdd n k).action i = d.action i := by
  have hdesc : (d.ctrAdd n k).desc 3 = d.desc 3 := rfl
  have hpoison : (d.ctrAdd n k).hbm.poison = d.hbm.poison := poison_write_short _ _ (by simp [leBytes_length])
  have hbytes : ∀ w, (d.ctrAdd n k).hbm.bytes ((d.desc 3).base + 64 * i + 8 * w) 8 = d.hbm.bytes ((d.desc 3).base + 64 * i + 8 * w) 8 :=
    fun w => bytes_write_apart (.inr (by simp only [List.length_append, leBytes_length]; omega))
  unfold Dev.action
  dsimp only
  rw [hdesc]
  exact if_congr (by simp only [Hbm.poisoned, hpoison]) rfl (by simp only [hbytes])

/-! Where frames go (R15, R81, R242, R257, R258, R284). -/

section
variable {d : Dev} {tok : Nat} {p : Packet}

/-- A frame that no context sends joins the queue of its port. -/
theorem enqueuePort_spec (hctx : p.ctx = none) (r : Nat) :
    (d.enqueuePort tok r p).pkt tok = some { p with stage := .port r } ∧
    (d.enqueuePort tok r p).netPort r = { d.netPort r with txq := (d.netPort r).txq ++ [tok] } ∧
    (∀ k, k ≠ r → (d.enqueuePort tok r p).netPort k = d.netPort k) ∧ Agree [.square, .port] d (d.enqueuePort tok r p) := by
  have he : d.enqueuePort tok r p =
      (d.setPkt tok { p with stage := .port r }).setNetPort r { d.netPort r with txq := (d.netPort r).txq ++ [tok] } := by
    simp only [Dev.enqueuePort, hctx, Option.elim_none]
  rw [he]
  refine ⟨pkt_setPkt_self .., netPort_setNetPort_self .., fun k hk => netPort_setNetPort_ne hk .., ?_⟩
  exact agree_of_rel_mask (((rel_Dev_setPkt ..).mono (by decide)).trans ((rel_Dev_setNetPort ..).mono (by decide)))

/-- So does one whose bytes the list has changed; no register and no byte of HBM changes. -/
theorem portOut_spec (hctx : p.ctx = none) (d : Dev) (data : List Byte) (x r : Nat) :
    (∃ q, (d.enqueuePort tok r (portFrame { p with data := data } x)).pkt tok = some q ∧ q.stage = .port r ∧ q.data = data) ∧
    OnlyRegs [] d (d.enqueuePort tok r (portFrame { p with data := data } x)) ∧
    OnlyBytes 0 0 d (d.enqueuePort tok r (portFrame { p with data := data } x)) := by
  have hctx' : (portFrame { p with data := data } x).ctx = none :=
    portFrame_ctx (p := { p with data := data }) hctx x
  obtain ⟨hq, -, -, hag⟩ := enqueuePort_spec (d := d) (tok := tok) hctx' r
  exact ⟨⟨_, hq, rfl, portFrame_data _ x⟩, onlyRegs_of_agree hag (by decide), onlyBytes_of_hbm_eq (hag .hbm (by decide))⟩

theorem agree_square_setPkt (d : Dev) (tok : Nat) (p : Packet) : Agree [.square] d (d.setPkt tok p) := agree_of_rel_mask (rel_Dev_setPkt ..)

/-- A frame that the context engine does not take goes to an RX ring of the tenancy. -/
theorem toRing_spec {dest t l mark : Nat} {dec : Bool} (ht : t = dest / 512 % 4096) (hl : l = dest % 512) (h21 : dest / 2 ^ 21 % 2 = 0)
    (hctx : d.ctxTake t mark p.data = none) (hring : d.isRxRing t l = true) :
    (∃ q, (d.toRing tok p dest mark dec).pkt tok = some q ∧ q.stage = .toRing t l mark dec ∧ q.data = p.data ∧ q.ten = t ∧
      q.tenV = true) ∧ Agree [.square] d (d.toRing tok p dest mark dec) := by
  subst ht hl
  simp only [Dev.toRing, h21, if_true, hctx, Option.filter_some, hring]
  exact ⟨⟨_, pkt_setPkt_self .., rfl, rfl, rfl, rfl⟩, agree_square_setPkt _ _ _⟩

/-- The device with packet k at the end of the re-entry queue. -/
def reentryQueued (d : Dev) (tok : Nat) (k : Packet) : Dev :=
  { d.setPkt tok k with cls := { d.cls with reentryQ := d.cls.reentryQ ++ [tok] } }

theorem toReentry_room (hk : d.pkt tok = some p) (hroom : d.cls.reentryQ.length < 4096) :
    d.toReentry tok = some (reentryQueued d tok { p with stage := .reentry, cls := { source := 0x60 } }) := by
  unfold Dev.toReentry
  rw [hk]
  exact if_neg (Nat.not_le.2 hroom)

/-- A frame that the re-entry queue has room for (R15). -/
theorem fwdRecirc_room (f : Fwd) (hroom : d.cls.reentryQ.length < 4096) :
    d.fwdRecirc tok p f = .done (reentryQueued (d.setPkt tok p) tok { p with stage := .reentry, cls := { source := 0x60 } }) := by
  rw [Dev.fwdRecirc, toReentry_room (pkt_setPkt_self ..) hroom]

theorem agree_reentryQueued (d : Dev) (tok : Nat) (p k : Packet) : Agree [.square, .cls] d (reentryQueued (d.setPkt tok p) tok k) :=
  agree_of_rel_mask ((Rel.u_cls (by decide)).2 (((rel_Dev_setPkt ..).mono (by decide)).trans ((rel_Dev_setPkt ..).mono (by decide))))

/-- The frame was dropped and counted; no byte of HBM changed. -/
theorem onlyBytes_dropPkt_count (d : Dev) (tok off : Nat) : OnlyBytes 0 0 d ((d.dropPkt tok).count off) :=
  onlyBytes_of_hbm_eq (((rel_Dev_count ..).same .hbm (by decide)).trans ((rel_Dev_dropPkt ..).same .hbm (by decide)))

/-- An IPv4 frame whose time to live is over, in a word without a list for it (R257). -/
theorem fwdTtl_over {o x : Nat} (f : Fwd) (ho : p.slot 3 = some o) (h4 : ipVer p.data o = 4) (httl : beAt p.data (o + 8) 1 ≤ 1)
    (h17 : x / 2 ^ 17 % 2 = 0) : d.fwdTtl tok p f x = d.fwdDrop tok Reg.FWD_TTL_DROP := by
  unfold Dev.fwdTtl
  simp only [ho, h4, decide_true, if_true, httl, h17, zero_ne_one, if_false]

/-- An IPv6 frame with hops left loses one (R257). -/
theorem fwdTtl_hop {o : Nat} (f : Fwd) (x : Nat) (ho : p.slot 3 = some o) (h6 : ipVer p.data o = 6) (httl : 2 ≤ beAt p.data (o + 7) 1) :
    d.fwdTtl tok p f x = .next d { p with data := patch p.data (o + 7) (leBytes 1 (beAt p.data (o + 7) 1 - 1)) } f := by
  have hno : ¬ beAt p.data (o + 7) 1 ≤ 1 := by omega
  unfold Dev.fwdTtl
  simp only [ho, h6, Nat.reduceEqDiff, decide_false, Bool.false_eq_true, if_false, hno]

/-- A counter that the frame's tenancy may use (R257, R258). -/
theorem fwdCount_owned {n : Nat} {f : Fwd} (h : d.ctrOwned n (if p.tenV then some p.ten else none) = true) :
    d.fwdCount tok p f n = .next (d.ctrAdd n f.bytes) p f := if_pos h

/-- A context of the frame's tenancy and of the right kind takes the frame (R284). -/
theorem fwdCrypt_takes {x : Nat} {k : Bool} {c : CryCtx} (f : Fwd) (hc : kvFind (x % 2 ^ 20) d.cry.ctxs = some c) (hten : p.tenV = true)
    (hsame : c.ten = p.ten) (hk : k = decide (x / 2 ^ 20 % 2 = 1)) (henc : k = true → c.kind = 0x10)
    (hdec : k = false → c.kind = 0x11 ∨ c.kind = 0x13 ∨ c.kind = 0x15) :
    d.fwdCrypt tok p f x = .done (d.setPkt tok { p with stage := .crypt (x % 2 ^ 20) k f }) := by
  have hkind : (if k then decide (c.kind = 0x10) else decide (c.kind = 0x11 ∨ c.kind = 0x13 ∨ c.kind = 0x15)) = true := by
    cases k
    · simpa using hdec rfl
    · simpa using henc rfl
  simp only [Dev.fwdCrypt, hc, Option.elim_some, hten, hsame, decide_true, Bool.true_and, ← hk, hkind, Bool.not_true, Bool.false_eq_true,
    if_false]

/-- A frame that its list drops: gone, counted, and HBM as it was (R257). -/
theorem runs_dropped {c : Instr} {s : State} {g : Dev → Dev} {off : Nat} (hs : Alive s) (he : exec c s = s.run g)
    (hg : g s.dev = (s.dev.dropPkt tok).count off) :
    Runs c s fun b => b.pkt tok = none ∧ b.reg off = counterAdd (s.dev.reg off) 1 ∧ OnlyRegs [off] s.dev b ∧
      OnlyBytes 0 0 s.dev b := by
  obtain ⟨hgone, hcount, hregs⟩ := dropPkt_count_spec s.dev tok off
  exact runs_of_run_eq hs he hg ⟨hgone, hcount, hregs, onlyBytes_dropPkt_count _ _ _⟩

theorem runs_dropped_regs {c : Instr} {s : State} {g : Dev → Dev} {off : Nat} (hs : Alive s) (he : exec c s = s.run g)
    (hg : g s.dev = (s.dev.dropPkt tok).count off) :
    Runs c s fun b => b.pkt tok = none ∧ b.reg off = counterAdd (s.dev.reg off) 1 ∧ OnlyRegs [off] s.dev b :=
  runs_of_run_eq hs he hg (dropPkt_count_spec s.dev tok off)

end

/-- Settles O32, clause by clause: the list that the frame starts, its first word, and the next one where the first lets it go on. -/
theorem forwarding : Obligations.Forwarding := by
  unfold Obligations.Forwarding
  refine ⟨?firstWord, ?secondWord, ?noTenancy⟩
  case firstWord =>
    intro s tok i x p h hs hstop hk hst hstart hh hx
    subst hh hx
    have hfwd : s.dev.forward tok {} = _ := forward_starts hstop hk hst hstart
    refine ⟨fun hu hclean => ?denied, fun hu hn hc => ?noFate, fun hu hn => ?words⟩
    case denied => exact runs_dropped_regs hs (exec_forwardFrame ..) (hfwd.trans (fwdRun_denied hclean hu))
    case noFate => exact runs_dropped hs (exec_forwardFrame ..) (hfwd.trans (fwdRun_noFate rfl hu (Nat.le_of_eq hn) hc))
    case words =>
      have hword : ∀ {e : Dev}, s.dev.fwdWord tok p { bytes := p.data.length, idx := i, word := 1, run := 1 } ((s.dev.action i).headD 0)
          ((s.dev.action i).getD 1 0) = .done e → s.dev.forward tok {} = e := fun hw => hfwd.trans (fwdList_done hu hn hw)
      refine ⟨?port, ?ring, ?foreignRing, ?handler, ?drop, ?recirc, ?ttl, ?crypt⟩
      case port =>
        intro hc ht hctx
        obtain ⟨hq, hself, hother, hag⟩ := enqueuePort_spec (d := s.dev) (tok := tok)
          (portFrame_ctx hctx (fld ((s.dev.action i).getD 1 0) 55 0)) (fld ((s.dev.action i).getD 1 0) 55 0 % 16)
        exact runs_of_run_eq hs (exec_forwardFrame ..) (hword (fwdWord_port hc rfl ht))
          ⟨⟨_, hq, rfl, portFrame_data _ _, portFrame_tc _ _⟩, hself, hother, hag⟩
      case ring =>
        intro t hc h2 ht howner h21 hctx hring
        subst ht
        exact runs_of_run_eq hs (exec_forwardFrame ..) (hword (fwdWord_ring hc h2 howner))
          (toRing_spec (by omega) (by omega) (by omega) hctx hring)
      case foreignRing =>
        exact fun hc h2 hdev hne => runs_dropped_regs hs (exec_forwardFrame ..) (hword (fwdWord_ring_foreign hc h2 hdev hne))
      case handler =>
        intro hc
        exact runs_of_run_eq hs (exec_forwardFrame ..) (hword (fwdWord_handler hc))
          ⟨⟨_, pkt_setPkt_self .., rfl, rfl⟩, agree_square_setPkt _ _ _⟩
      case drop => exact fun hc => runs_dropped hs (exec_forwardFrame ..) (hword (fwdWord_drop hc))
      case recirc =>
        intro hc hroom
        exact runs_of_run_eq hs (exec_forwardFrame ..) (hword ((fwdWord_recirc hc).trans (fwdRecirc_room _ hroom)))
          ⟨⟨_, pkt_setPkt_self .., rfl, rfl, rfl⟩, rfl, agree_reentryQueued _ _ _ _⟩
      case ttl =>
        intro o hc ho h4 httl h17
        exact runs_dropped_regs hs (exec_forwardFrame ..) (hword ((fwdWord_ttl hc).trans (fwdTtl_over _ ho h4 httl h17)))
      case crypt =>
        intro c k hc hfind hten hsame hk' henc hdec
        exact runs_of_run_eq hs (exec_forwardFrame ..) (hword ((fwdWord_crypt hc).trans (fwdCrypt_takes _ hfind hten hsame hk' henc hdec)))
          ⟨⟨_, _, pkt_setPkt_self .., rfl, rfl, rfl⟩, agree_square_setPkt _ _ _⟩
  case secondWord =>
    intro s tok i x y o p h hs hstop hk hst hstart hh hu hn ht hctx hx hy hc2
    subst hh hx hy
    have hfwd : s.dev.forward tok {} = _ := forward_starts hstop hk hst hstart
    have hout : ∀ {e : Dev} {data : List Byte}, s.dev.fwdWord tok p { bytes := p.data.length, idx := i, word := 1, run := 1 }
        ((s.dev.action i).headD 0) ((s.dev.action i).getD 1 0) =
          .next e { p with data := data } { bytes := p.data.length, idx := i, word := 1, run := 1 } → e.action i = s.dev.action i →
        s.dev.forward tok {} = _ := fun hw ha => hfwd.trans (fwdList_next_done hu hn hw ha rfl (fwdWord_port hc2 rfl ht))
    refine ⟨?hop, ?mac, ?count⟩
    case hop =>
      intro hc ho h6 httl
      exact runs_of_run_eq hs (exec_forwardFrame ..) (hout ((fwdWord_ttl hc).trans (fwdTtl_hop _ _ ho h6 httl)) rfl) (portOut_spec hctx ..)
    case mac =>
      intro hc ho h48
      exact runs_of_run_eq hs (exec_forwardFrame ..) (hout (fwdWord_mac hc ho h48) rfl) (portOut_spec hctx ..)
    case count =>
      intro hc hown hbelow
      refine runs_of_run_eq hs (exec_forwardFrame ..)
        (hout (data := p.data) ((fwdWord_count hc).trans (fwdCount_owned hown)) (action_ctrAdd hbelow _ _)) ?_
      obtain ⟨hq, hregs, hbytes⟩ := portOut_spec (tok := tok) hctx
        (s.dev.ctrAdd (fld ((s.dev.action i).getD 1 0) 55 0 % 2 ^ 24) p.data.length) p.data
        (fld ((s.dev.action i).getD 2 0) 55 0) (fld ((s.dev.action i).getD 2 0) 55 0 % 16)
      refine ⟨hq, ?_, fun y hy => ?_, hregs⟩
      · rw [← ctrAdd_bytes]
        exact List.map_congr_left fun j _ => hbytes _ (.inr (Nat.zero_le _))
      · exact (hbytes y (.inr (Nat.zero_le _))).trans (onlyBytes_ctrAdd _ _ _ y hy)
  case noTenancy =>
    intro s tok p hs hstop hk hst hav hten
    exact runs_dropped_regs hs (exec_forwardFrame ..) (forward_noTenancy hstop hk hst hav hten)

end Sys2Proof.Proofs

/-! Tables that change by themselves (R235 to R251): learning, commits, the sweep, the end of a rebuild. -/

namespace Sys2Proof.Proofs

open Sys2Proof Sys2Proof.Machine Sys2Proof.Laws

theorem exec_learnInsert (fails : Nat) (s : State) : exec (.learnInsert fails) s = s.run (·.learnInsert fails) := rfl

theorem exec_ctCommitInsert (s : State) : exec .ctCommitInsert s = s.run (·.ctCommit) := rfl

theorem exec_ageTick (s : State) : exec .ageTick s = s.run (·.ageTick) := rfl

theorem exec_sweepVisit (k : Nat) (s : State) : exec (.sweepVisit k) s = s.run (·.sweepVisit k) := rfl

theorem exec_rehashDone (t : Nat) (s : State) : exec (.rehashDone t) s = s.run (·.rehashDone t) := rfl

/-! Byte strings and lines (R231). -/

theorem fitTo_self {n : Nat} {l : List Byte} (h : l.length = n) : fitTo n l = l := by
  subst h
  simp [fitTo, slice]

theorem mkLine_length (key : List Byte) (d5 d6 : Nat) (static : Bool) (cls ts : Nat) : (mkLine key d5 d6 static cls ts).length = 64 := by
  simp only [mkLine, List.length_append, fitTo_length, leBytes_length]

theorem zeroLine_length : zeroLine.length = 64 := List.length_replicate

theorem bytes_length (h : Hbm) (a n : Nat) : (h.bytes a n).length = n := by simp [Hbm.bytes]

/-- A part of a range of bytes. -/
theorem slice_bytes {off k n : Nat} (hk : off + k ≤ n) (h : Hbm) (a : Nat) : slice (h.bytes a n) off k = h.bytes (a + off) k := by
  have hget : ∀ {m b i : Nat}, i < m → (h.bytes b m).getD i 0#8 = h.byte (b + i) := fun hi => getD_map_range hi _ _
  refine List.ext_getElem (by rw [slice_length, bytes_length]) fun i hi hb => ?_
  have hik : i < k := by rwa [slice_length] at hi
  have hs : (slice (h.bytes a n) off k).getD i 0#8 = (h.bytes (a + off) k).getD i 0#8 := by
    rw [slice_getD hik (by rwa [bytes_length]), hget (by omega), hget hik, Nat.add_assoc]
  rwa [List.getD_eq_getElem?_getD, List.getD_eq_getElem?_getD, List.getElem?_eq_getElem hi, List.getElem?_eq_getElem hb] at hs

/-- The last dword of a line holds its V and its TS (R231). -/
theorem lineDword_last (d : Dev) (a : Nat) : d.lineDword a 7 = lnD7 (d.line a) := by
  rw [Dev.lineDword, lnD7, Dev.line, leAt, leAt, slice_bytes (by decide), slice_bytes (by decide)]

/-! Lines written through the internal port (R16, R234, R238). -/

/-- The change of a line noted in the log of its table's rebuild (R238). -/
def rehashLogged (d : Dev) (t : Nat) (x : Bool × List Byte) : Dev :=
  { d with fwd := { d.fwd with rehash := d.fwd.rehash.map (fun h => if h.table = t then { h with log := h.log ++ [x] } else h) } }

/-- A line belongs to a table whatever its rebuild has logged. -/
theorem lineIn_rehashLogged (d : Dev) (t : Nat) (x : Bool × List Byte) (u a : Nat) : (rehashLogged d t x).lineIn u a = d.lineIn u a := by
  have hany : (rehashLogged d t x).fwd.rehash.any (fun r =>
      decide (r.table = u ∧ r.shadow.base ≤ a ∧ a + 64 ≤ r.shadow.base + r.shadow.extent u)) =
      d.fwd.rehash.any fun r => decide (r.table = u ∧ r.shadow.base ≤ a ∧ a + 64 ≤ r.shadow.base + r.shadow.extent u) := by
    simp only [rehashLogged, List.any_map]
    refine congrArg (d.fwd.rehash.any ·) (funext fun r => ?_)
    simp only [Function.comp]
    split <;> rfl
  unfold Dev.lineIn
  dsimp only
  rw [hany]
  rfl

theorem lineIn_aligned {d : Dev} {t a : Nat} (h : d.lineIn t a = true) : a % 64 = 0 := by
  unfold Dev.lineIn at h
  exact of_decide_eq_true (Bool.and_eq_true_iff.1 h).1

/-- The device once line a of table t was written as b, by a record that the engine applied. -/
def lineWritten (d : Dev) (t a : Nat) (b : List Byte) : Dev :=
  rehashLogged (d.hbmWrite a (fitTo 64 b)) t (if lnV b then (true, fitTo 64 b) else (false, lnKey (d.line a)))

/-- The record that writes b to a line whose V and TS are as last read (R234). -/
def casRecord (d : Dev) (t a : Nat) (b : List Byte) : TueRec :=
  { op := 0x11, table := t, index := a, count := 7, cmp := lnD7 (d.line a) &&& casMask, cmask := casMask, payload := b }

/-- A line of the table, compared with itself, is written. -/
theorem casLine_eq {d : Dev} {t a : Nat} (ht : t ≠ 4) (hl : d.lineIn t a = true) (b : List Byte) :
    d.casLine t a b = lineWritten d t a b := by
  have ha : d.tueApply (casRecord d t a b) = (0, d.lineWrite t a b) :=
    tueApply_lineCas_hit rfl hl (show 7 < 8 by decide) (congrArg (· &&& casMask) (lineDword_last d a))
  have hi : d.tueInternal (casRecord d t a b) = (0, d.hbmWrite a (fitTo 64 b)) := by
    rw [Dev.tueInternal, ha, Dev.lineWrite, if_neg ht]
    rfl
  have hint : (d.fwdInternal t (casRecord d t a b)).2 = lineWritten d t a b := by
    unfold Dev.fwdInternal
    rw [show ({ casRecord d t a b with table := t } : TueRec) = casRecord d t a b from rfl, hi]
    rfl
  exact hint

/-- What a line written leaves of HBM. -/
theorem lineIs_lineWritten (d : Dev) (t a : Nat) {b : List Byte} (hb : b.length = 64) : LineIs d (lineWritten d t a b) a b := by
  have hh : (lineWritten d t a b).hbm = d.hbm.write a b := by rw [lineWritten, fitTo_self hb]; rfl
  refine ⟨fun i hi => ?_, fun y hy => ?_⟩
  · rw [hh, byte_write_inside _ _ (by rwa [hb])]
  · rw [hh, hbm_write_other _ _ _ _ (by rwa [hb])]

theorem lineIs_of_hbm_eq {a b c : Dev} {x : Nat} {l : List Byte} (h : LineIs a b x l) (hh : c.hbm = b.hbm) : LineIs a c x l := by
  obtain ⟨hin, hout⟩ := h
  exact ⟨fun i hi => by rw [hh, hin i hi], fun y hy => by rw [hh, hout y hy]⟩

/-- A line apart from the one written is as before. -/
theorem line_lineWritten_apart {d : Dev} {t a x : Nat} (h : x + 64 ≤ a ∨ a + 64 ≤ x) (b : List Byte) :
    (lineWritten d t a b).line x = d.line x := bytes_write_apart (by rwa [fitTo_length])

/-! MAC learning (R241). -/

/-- The device with its oldest learn taken. -/
def learnTaken (d : Dev) (rest : List Learn) : Dev := { d with fwd := { d.fwd with learns := rest } }

theorem learnInsert_cons {d : Dev} {l : Learn} {rest : List Learn} (h : d.fwd.learns = l :: rest) (fails : Nat) :
    d.learnInsert fails = (learnTaken d rest).learnDo l fails := by
  unfold Dev.learnInsert
  rw [h]
  rfl

section
variable {d : Dev} {l : Learn} {br : Bridge} {a : Nat}

/-- A MAC that the table does not hold takes a free slot, while its bridge is below its limit. -/
theorem learnDo_new (hb : kvFind l.bridge d.fwd.bridges = some br) (hf : d.find 2 (macKey br.ten l.bridge l.mac) = none)
    (hv : (d.desc 2).v = true) (hlim : d.learned l.bridge < br.limit)
    (ha : d.freeSlot (d.desc 2) (macKey br.ten l.bridge l.mac) = some a) (hl : d.lineIn 2 a = true) :
    d.learnDo l 0 = lineWritten d 2 a (mkLine (macKey br.ten l.bridge l.mac) l.dest 0 false 0 d.fwd.now) := by
  rw [← casLine_eq (by decide) hl]
  unfold Dev.learnDo
  simp only [hb, hf, hv, Nat.not_le.2 hlim, ha, Bool.not_true, Bool.false_eq_true, if_false, show ¬ 4 ≤ 0 by decide]
  rfl

theorem learnDo_limit (hb : kvFind l.bridge d.fwd.bridges = some br) (hf : d.find 2 (macKey br.ten l.bridge l.mac) = none)
    (hv : (d.desc 2).v = true) (hlim : br.limit ≤ d.learned l.bridge) (fails : Nat) :
    d.learnDo l fails = (d.count Reg.FWD_LEARN_DROP).count Reg.FWD_LEARN_LIMIT := by
  unfold Dev.learnDo
  simp only [hb, hf, hv, hlim, Bool.not_true, Bool.false_eq_true, if_false, if_true]

/-- A MAC that was learned at another destination moves. -/
theorem learnDo_move (hb : kvFind l.bridge d.fwd.bridges = some br) (hf : d.find 2 (macKey br.ten l.bridge l.mac) = some a)
    (hd : lnD5 (d.line a) % 2 ^ 32 ≠ l.dest) (hst : lnStatic (d.line a) = false) (hl : d.lineIn 2 a = true) :
    d.learnDo l 0 = (lineWritten d 2 a (mkLine (macKey br.ten l.bridge l.mac) l.dest 0 false 0 d.fwd.now)).count Reg.FWD_MOVES := by
  rw [← casLine_eq (by decide) hl]
  unfold Dev.learnDo
  simp only [hb, hf, hd, hst, Bool.false_eq_true, if_false, show ¬ 4 ≤ 0 by decide]
  rfl

end

/-! Conntrack commits (R247, R248). -/

/-- The device with its oldest commit taken, its connection without a FIN. -/
def commitTaken (d : Dev) (c : Commit) (rest : List Commit) : Dev :=
  { d with fwd := { d.fwd with commits := rest, fins := kvDel (ofLe (lnKey c.orig)) d.fwd.fins } }

/-- A line of a pair with the address of the other one (R251). -/
def peerLine (l : List Byte) (a : Nat) : List Byte := patch l 48 (leBytes 8 a)

/-- The device with both lines of a pair written, the reply line first. -/
def pairWritten (d : Dev) (c : Commit) (r o : Nat) : Dev :=
  lineWritten (lineWritten d 6 r (peerLine c.reply o)) 6 o (peerLine c.orig r)

section
variable {d : Dev} {c : Commit} {r o : Nat}

theorem insertPair_free (hf : d.find 6 (lnKey c.reply) = none) (hr : d.freeSlot (d.desc 6) (lnKey c.reply) = some r)
    (ho : ((d.desc 6).places (lnKey c.orig)).find? (fun a => !lnV (d.line a) && decide (a ≠ r)) = some o)
    (hlr : d.lineIn 6 r = true) (hlo : d.lineIn 6 o = true) : d.insertPair c = (true, pairWritten d c r o) := by
  have hlo' : (lineWritten d 6 r (peerLine c.reply o)).lineIn 6 o = true := (lineIn_rehashLogged ..).trans hlo
  simp only [Dev.insertPair, hf, hr, ho, Option.isSome_none, Bool.false_eq_true, if_false]
  rw [casLine_eq (by decide) hlr]
  exact congrArg (true, ·) (casLine_eq (by decide) hlo' _)

/-- Both lines stand, and no byte outside them has changed. -/
theorem byte_pairWritten (hr : r % 64 = 0) (ho : o % 64 = 0) (hne : o ≠ r) :
    (∀ i, i < 64 → (pairWritten d c r o).hbm.byte (r + i) = (fitTo 64 (peerLine c.reply o)).getD i 0#8) ∧
    (∀ i, i < 64 → (pairWritten d c r o).hbm.byte (o + i) = (fitTo 64 (peerLine c.orig r)).getD i 0#8) ∧
    (∀ y, (y < r ∨ r + 64 ≤ y) → (y < o ∨ o + 64 ≤ y) → (pairWritten d c r o).hbm.byte y = d.hbm.byte y) := by
  have hh : (pairWritten d c r o).hbm = (d.hbm.write r (fitTo 64 (peerLine c.reply o))).write o (fitTo 64 (peerLine c.orig r)) := rfl
  rw [hh]
  refine ⟨fun i hi => ?_, fun i hi => ?_, fun y h1 h2 => ?_⟩
  · rw [hbm_write_other _ _ _ _ (by rw [fitTo_length]; omega), byte_write_inside _ _ (by rwa [fitTo_length])]
  · rw [byte_write_inside _ _ (by rwa [fitTo_length])]
  · rw [hbm_write_other _ _ _ _ (by rwa [fitTo_length]), hbm_write_other _ _ _ _ (by rwa [fitTo_length])]

end

section
variable {d : Dev} {c : Commit} {rest : List Commit}

theorem ctCommit_noTable (hc : d.fwd.commits = c :: rest) (hv : (d.desc 6).v = false) :
    d.ctCommit = { d with fwd := { d.fwd with commits := rest } }.commitDone c.tok false none := by
  have hv' : ({ d with fwd := { d.fwd with commits := rest } }.desc 6).v = false := hv
  unfold Dev.ctCommit
  simp only [hc, hv', Bool.not_false, if_true]

theorem ctCommit_new (hc : d.fwd.commits = c :: rest) (hv : (d.desc 6).v = true) (hf : d.find 6 (lnKey c.orig) = none) :
    d.ctCommit = ((commitTaken d c rest).insertPair c).2.commitDone c.tok ((commitTaken d c rest).insertPair c).1 none := by
  have hv' : ({ d with fwd := { d.fwd with commits := rest } }.desc 6).v = true := hv
  have hf' : { d with fwd := { d.fwd with commits := rest } }.find 6 (lnKey c.orig) = none := hf
  unfold Dev.ctCommit
  simp only [hc, hv', hf', Bool.not_true, Bool.false_eq_true, if_false]
  rfl

variable {tok : Nat} {p : Packet} {f : Fwd}

/-- The frame of a commit that was inserted goes on. -/
theorem commitDone_ok (hk : d.pkt tok = some p) (hst : p.stage = .forward f) (hw : f.waits = true) :
    d.commitDone tok true none = d.setPkt tok { p with stage := .forward { f with waits := false, nat := none } } := by
  unfold Dev.commitDone
  simp only [hk, hst, hw, Bool.not_true, Bool.false_eq_true, false_and, if_false, if_true]

/-- The frame of a commit that failed, with a NAT pending, is dropped. -/
theorem commitDone_failed (hk : d.pkt tok = some p) (hst : p.stage = .forward f) (hw : f.waits = true) (hn : f.nat.isSome = true) :
    d.commitDone tok false none = d.dropPkt tok := by
  unfold Dev.commitDone
  simp only [hk, hst, hw, hn, Bool.not_true, Bool.not_false, Bool.false_eq_true, and_self, if_false, if_true]

end

/-! The sweep (R244 to R246). -/

theorem sweepLine_invalid {d : Dev} {t a : Nat} (h : lnV (d.line a) = false) : d.sweepLine t a = d := by
  unfold Dev.sweepLine
  simp only [h, Bool.not_false, if_true]

/-- A line of the flow table that is past the limit of its class is deleted and counted. -/
theorem sweepLine_aged {d : Dev} {a : Nat} (hv : lnV (d.line a) = true) (hl : d.lineIn 1 a = true) (hp : d.fwd.stamp.getD 0 false = false)
    (hst : lnStatic (d.line a) = false)
    (hage : d.ageLimit 0 (lnClass (d.line a)) ≤ (d.fwd.now + 65536 - lnTs (d.line a)) % 65536) :
    d.sweepLine 1 a = (lineWritten d 1 a zeroLine).count (Reg.FWD_AGED 0) := by
  have hk : tblNo 1 = 0 := rfl
  have hold : ¬((d.fwd.now + 65536 - lnTs (d.line a)) % 65536 < d.ageLimit 0 (lnClass (d.line a))) := Nat.not_lt.2 hage
  unfold Dev.sweepLine
  simp only [hv, hk, hp, hst, hold, Bool.not_true, Bool.false_eq_true, or_self, if_false, Dev.ageOut,
    casLine_eq (show 1 ≠ 4 by decide) hl]
  rfl

/-- A sweep over lines none of which is valid. -/
theorem foldl_sweepLine_invalid {d : Dev} {t : Nat} {l : List Nat} (h : ∀ a ∈ l, lnV (d.line a) = false) :
    l.foldl (fun d a => d.sweepLine t a) d = d := by
  induction l with
  | nil => rfl
  | cons x r ih =>
    rw [List.foldl_cons, sweepLine_invalid (h x (List.mem_cons_self ..))]
    exact ih fun a ha => h a (List.mem_cons_of_mem _ ha)

/-- A sweep over lines of which one is valid, and whose visit leaves the others so. -/
theorem foldl_sweepLine_one {d : Dev} {t a : Nat} {l : List Nat} (hn : l.Nodup) (ha : a ∈ l)
    (h : ∀ x ∈ l, x ≠ a → lnV (d.line x) = false) (h' : ∀ x ∈ l, x ≠ a → lnV ((d.sweepLine t a).line x) = false) :
    l.foldl (fun d a => d.sweepLine t a) d = d.sweepLine t a := by
  induction l with
  | nil => cases ha
  | cons x r ih =>
    obtain ⟨hx, hr⟩ := List.nodup_cons.1 hn
    rw [List.foldl_cons]
    by_cases he : x = a
    · subst he
      exact foldl_sweepLine_invalid fun y hy => h' y (List.mem_cons_of_mem _ hy) fun e => hx (e ▸ hy)
    · rw [sweepLine_invalid (h x (List.mem_cons_self ..) he)]
      exact ih hr ((List.mem_cons.1 ha).resolve_left (Ne.symm he)) (fun y hy => h y (List.mem_cons_of_mem _ hy))
        fun y hy => h' y (List.mem_cons_of_mem _ hy)

theorem nodup_slots (x : TblDesc) (b : Nat) : (x.slots b).Nodup := by
  refine List.Nodup.map (fun i j h => ?_) List.nodup_range
  omega

/-- Two slots of a bucket lie apart. -/
theorem slots_apart {x : TblDesc} {b u v : Nat} (hu : u ∈ x.slots b) (hv : v ∈ x.slots b) (hne : u ≠ v) :
    u + 64 ≤ v ∨ v + 64 ≤ u := by
  obtain ⟨i, -, rfl⟩ := List.mem_map.1 hu
  obtain ⟨j, -, rfl⟩ := List.mem_map.1 hv
  omega

/-- The device with the sweep of the flow table moved on from bucket b, the last bucket ending the pass. -/
def sweepMoved (d : Dev) (b n : Nat) : Dev :=
  { d with fwd := { d.fwd with
      sweep := d.fwd.sweep.set 0 (if b + 1 = n then 0 else b + 1)
      stamp := if b + 1 = n then d.fwd.stamp.set 0 false else d.fwd.stamp } }

theorem sweepVisit_flows {d : Dev} {b : Nat} (hv : (d.desc 1).v = true) (hen : d.regBit (Reg.FWD_AGE_CFG 0) 31 = true)
    (hb : b = d.fwd.sweep.getD 0 0 % 2 ^ (d.desc 1).log2b) :
    d.sweepVisit 0 = sweepMoved (((d.desc 1).slots b).foldl (fun d a => d.sweepLine 1 a) d) b (2 ^ (d.desc 1).log2b) := by
  subst hb
  simp only [Dev.sweepVisit, if_true, hv, hen, Bool.not_true, Bool.false_eq_true, or_self, show ¬ 3 ≤ 0 by decide, if_false,
    decide_eq_true_eq]
  rfl

/-! The end of a rebuild (R238). -/

/-- The device with the rebuild of table t over, and its descriptor written. -/
def rehashSwapped (d : Dev) (t : Nat) (x : TblDesc) : Dev :=
  { d with fwd := { d.fwd with rehash := d.fwd.rehash.filter (fun r => decide (r.table ≠ t)) } }.setDesc t x

/-- A rebuild of the flow or the MAC table that logged no change ends once no record waits: its shadow becomes the table. -/
theorem rehashDone_swaps {d : Dev} {t : Nat} {r : Rehash} (ht : t = 1 ∨ t = 2)
    (hr : d.fwd.rehash.find? (fun r => decide (r.table = t)) = some r) (hq : d.glb.tueQ = []) (hlog : r.log = []) :
    d.rehashDone t = (((rehashSwapped d t (TblDesc.ofBytes r.shadow.bytes)).tblJournalAdd
      { op := 0x30, table := t, payload := r.shadow.bytes } 0).stampAll r.shadow).admLate r.e 0x39 0 0 0 := by
  have h6 : t ≠ 6 := by omega
  have hpost : ∀ x : Dev, x.tuePosted { op := 0x30, table := t, payload := r.shadow.bytes } =
      (0, (x.setDesc t (TblDesc.ofBytes r.shadow.bytes)).tblJournalAdd { op := 0x30, table := t, payload := r.shadow.bytes } 0) := by
    intro x
    have ha := tueApply_tblDesc (d := x) (r := { op := 0x30, table := t, payload := r.shadow.bytes }) rfl
      (show t = 1 ∨ t = 2 ∨ t = 3 ∨ t = 4 ∨ t = 6 by omega)
    rw [Dev.tuePosted, Dev.tueInternal, ha]
    rfl
  simp only [Dev.rehashDone, hr, hq, hlog, List.isEmpty_nil, Bool.not_true, Bool.false_eq_true, if_false, Dev.replay, h6, hpost]
  rfl

/-- The only command in progress ends. -/
theorem admLate_only {d : Dev} {e : AdmEntry} {priv : Bool} (hup : d.glb.planes.ctlUp = true)
    (ht : d.ring.taken = [{ e := e, priv := priv }]) (opc st det len : Nat) :
    AdmEnded d (d.admLate e opc st det len) e opc st det := by
  obtain ⟨hend, htaken, -⟩ := admComplete1_spec d e opc st det len
  have hnone : (d.admComplete1 e opc st det len).ring.taken = [] := by rw [htaken, ht]; simp [takenErase]
  have hlate : d.admLate e opc st det len = d.admComplete1 e opc st det len := by
    simp [Dev.admLate, hup, ht, Dev.admComplete, Dev.admFences, hnone]
  rwa [hlate]

theorem regs_lineWritten (d : Dev) (t a : Nat) (b : List Byte) : (lineWritten d t a b).regs = d.regs := rfl

theorem learns_lineWritten (d : Dev) (t a : Nat) (b : List Byte) : (lineWritten d t a b).fwd.learns = d.fwd.learns := rfl

theorem find_learnTaken (d : Dev) (rest : List Learn) (t : Nat) (key : List Byte) : (learnTaken d rest).find t key = d.find t key := rfl

theorem freeSlot_learnTaken (d : Dev) (rest : List Learn) (x : TblDesc) (key : List Byte) :
    (learnTaken d rest).freeSlot x key = d.freeSlot x key := rfl

theorem learned_learnTaken (d : Dev) (rest : List Learn) (b : Nat) : (learnTaken d rest).learned b = d.learned b := rfl

theorem lineIn_learnTaken (d : Dev) (rest : List Learn) (t a : Nat) : (learnTaken d rest).lineIn t a = d.lineIn t a := rfl

/-- The line of a learn that ends stands, and the learn is off the queue. -/
theorem lineWritten_learnTaken_spec (d : Dev) (rest : List Learn) (a : Nat) {b : List Byte} (hb : b.length = 64) :
    LineIs d (lineWritten (learnTaken d rest) 2 a b) a b ∧ (lineWritten (learnTaken d rest) 2 a b).fwd.learns = rest ∧
    OnlyRegs [] d (lineWritten (learnTaken d rest) 2 a b) :=
  ⟨lineIs_lineWritten (learnTaken d rest) 2 a hb, learns_lineWritten .., onlyRegs_of_regs_eq (regs_lineWritten ..)⟩

theorem reg_count_ne {off o : Nat} (h : o ≠ off) (d : Dev) : (d.count off).reg o = d.reg o :=
  reg_setReg_ne h d _

section
variable {s : State} {l : Learn} {rest : List Learn} {br : Bridge} {a : Nat} (hs : Alive s) (hl : s.dev.fwd.learns = l :: rest)
  (hb : kvFind l.bridge s.dev.fwd.bridges = some br)
include hs hl hb

theorem learnInsert_new_runs (hf : s.dev.find 2 (macKey br.ten l.bridge l.mac) = none) (hv : (s.dev.desc 2).v = true)
    (hlim : s.dev.learned l.bridge < br.limit) (ha : s.dev.freeSlot (s.dev.desc 2) (macKey br.ten l.bridge l.mac) = some a)
    (hin : s.dev.lineIn 2 a = true) : Runs (.learnInsert 0) s fun b =>
      LineIs s.dev b a (mkLine (macKey br.ten l.bridge l.mac) l.dest 0 false 0 s.dev.fwd.now) ∧ b.fwd.learns = rest ∧
      OnlyRegs [] s.dev b := by
  have hd : s.dev.learnInsert 0 = lineWritten (learnTaken s.dev rest) 2 a
      (mkLine (macKey br.ten l.bridge l.mac) l.dest 0 false 0 s.dev.fwd.now) :=
    (learnInsert_cons hl 0).trans (learnDo_new (d := learnTaken s.dev rest) hb ((find_learnTaken ..).trans hf) hv
      (by rwa [learned_learnTaken]) ((freeSlot_learnTaken ..).trans ha) ((lineIn_learnTaken ..).trans hin))
  exact runs_of_run_eq hs (exec_learnInsert ..) hd (lineWritten_learnTaken_spec _ _ _ (mkLine_length ..))

theorem learnInsert_limit_runs (hf : s.dev.find 2 (macKey br.ten l.bridge l.mac) = none) (hv : (s.dev.desc 2).v = true)
    (hlim : br.limit ≤ s.dev.learned l.bridge) (fails : Nat) : Runs (.learnInsert fails) s fun b =>
      b.fwd = { s.dev.fwd with learns := rest } ∧ b.reg Reg.FWD_LEARN_DROP = counterAdd (s.dev.reg Reg.FWD_LEARN_DROP) 1 ∧
      b.reg Reg.FWD_LEARN_LIMIT = counterAdd (s.dev.reg Reg.FWD_LEARN_LIMIT) 1 ∧
      OnlyRegs [Reg.FWD_LEARN_DROP, Reg.FWD_LEARN_LIMIT] s.dev b ∧ OnlyBytes 0 0 s.dev b := by
  have hd : s.dev.learnInsert fails = ((learnTaken s.dev rest).count Reg.FWD_LEARN_DROP).count Reg.FWD_LEARN_LIMIT :=
    (learnInsert_cons hl fails).trans (learnDo_limit (d := learnTaken s.dev rest) hb ((find_learnTaken ..).trans hf) hv
      (by rwa [learned_learnTaken]) fails)
  refine runs_of_run_eq hs (exec_learnInsert ..) hd ⟨rfl, ?_, ?_, ?_, onlyBytes_of_hbm_eq rfl⟩
  · rw [reg_count_ne (by decide), reg_count_self]
    rfl
  · rw [reg_count_self, reg_count_ne (by decide)]
    rfl
  · exact onlyRegs_trans (onlyRegs_of_regs_eq rfl) (onlyRegs_trans (onlyRegs_count (List.mem_cons_self ..) (learnTaken s.dev rest))
      (onlyRegs_count (List.mem_cons_of_mem _ (List.mem_cons_self ..)) _))

theorem learnInsert_move_runs (hf : s.dev.find 2 (macKey br.ten l.bridge l.mac) = some a) (hd : lnD5 (s.dev.line a) % 2 ^ 32 ≠ l.dest)
    (hst : lnStatic (s.dev.line a) = false) (hin : s.dev.lineIn 2 a = true) : Runs (.learnInsert 0) s fun b =>
      LineIs s.dev b a (mkLine (macKey br.ten l.bridge l.mac) l.dest 0 false 0 s.dev.fwd.now) ∧ b.fwd.learns = rest ∧
      b.reg Reg.FWD_MOVES = counterAdd (s.dev.reg Reg.FWD_MOVES) 1 ∧ OnlyRegs [Reg.FWD_MOVES] s.dev b := by
  have he : s.dev.learnInsert 0 = (lineWritten (learnTaken s.dev rest) 2 a
      (mkLine (macKey br.ten l.bridge l.mac) l.dest 0 false 0 s.dev.fwd.now)).count Reg.FWD_MOVES :=
    (learnInsert_cons hl 0).trans (learnDo_move (d := learnTaken s.dev rest) hb ((find_learnTaken ..).trans hf) hd hst
      ((lineIn_learnTaken ..).trans hin))
  obtain ⟨hline, hlearns, hregs⟩ := lineWritten_learnTaken_spec s.dev rest a
    (mkLine_length (macKey br.ten l.bridge l.mac) l.dest 0 false 0 s.dev.fwd.now)
  refine runs_of_run_eq hs (exec_learnInsert ..) he ⟨lineIs_of_hbm_eq hline rfl, hlearns, ?_,
    onlyRegs_trans (fun o _ => hregs o List.not_mem_nil) (onlyRegs_count (List.mem_cons_self ..) _)⟩
  rw [reg_count_self, hregs _ List.not_mem_nil]

end

theorem find_commitTaken (d : Dev) (c : Commit) (rest : List Commit) (t : Nat) (key : List Byte) :
    (commitTaken d c rest).find t key = d.find t key := rfl

theorem freeSlot_commitTaken (d : Dev) (c : Commit) (rest : List Commit) (x : TblDesc) (key : List Byte) :
    (commitTaken d c rest).freeSlot x key = d.freeSlot x key := rfl

theorem lineIn_commitTaken (d : Dev) (c : Commit) (rest : List Commit) (t a : Nat) : (commitTaken d c rest).lineIn t a = d.lineIn t a := rfl

theorem pkt_pairWritten (d : Dev) (c : Commit) (r o tok : Nat) : (pairWritten d c r o).pkt tok = d.pkt tok := rfl

theorem commits_pairWritten (d : Dev) (c : Commit) (r o : Nat) : (pairWritten d c r o).fwd.commits = d.fwd.commits := rfl

theorem regs_pairWritten (d : Dev) (c : Commit) (r o : Nat) : (pairWritten d c r o).regs = d.regs := rfl

section
variable {s : State} {c : Commit} {rest : List Commit} {p : Packet} {f : Fwd} (hs : Alive s) (hc : s.dev.fwd.commits = c :: rest)
  (hk : s.dev.pkt c.tok = some p) (hst : p.stage = .forward f) (hw : f.waits = true)
include hs hc hk hst hw

theorem ctCommit_inserted_runs {r o : Nat} (hv : (s.dev.desc 6).v = true) (hfo : s.dev.find 6 (lnKey c.orig) = none)
    (hfr : s.dev.find 6 (lnKey c.reply) = none) (hr : s.dev.freeSlot (s.dev.desc 6) (lnKey c.reply) = some r)
    (ho : ((s.dev.desc 6).places (lnKey c.orig)).find? (fun a => !lnV (s.dev.line a) && decide (a ≠ r)) = some o)
    (hlr : s.dev.lineIn 6 r = true) (hlo : s.dev.lineIn 6 o = true) :
    Runs .ctCommitInsert s fun b =>
      (∀ i, i < 64 → b.hbm.byte (r + i) = (fitTo 64 (patch c.reply 48 (leBytes 8 o))).getD i 0#8) ∧
      (∀ i, i < 64 → b.hbm.byte (o + i) = (fitTo 64 (patch c.orig 48 (leBytes 8 r))).getD i 0#8) ∧
      (∀ y, (y < r ∨ r + 64 ≤ y) → (y < o ∨ o + 64 ≤ y) → b.hbm.byte y = s.dev.hbm.byte y) ∧ b.fwd.commits = rest ∧
      b.pkt c.tok = some { p with stage := .forward { f with waits := false, nat := none } } ∧ OnlyRegs [] s.dev b := by
  have hpair : (commitTaken s.dev c rest).insertPair c = (true, pairWritten (commitTaken s.dev c rest) c r o) :=
    insertPair_free ((find_commitTaken ..).trans hfr) ((freeSlot_commitTaken ..).trans hr) ho
      ((lineIn_commitTaken ..).trans hlr) ((lineIn_commitTaken ..).trans hlo)
  have hd : s.dev.ctCommit = (pairWritten (commitTaken s.dev c rest) c r o).setPkt c.tok
      { p with stage := .forward { f with waits := false, nat := none } } := by
    rw [ctCommit_new hc hv hfo, hpair]
    exact commitDone_ok ((pkt_pairWritten ..).trans hk) hst hw
  have hne : o ≠ r := by
    have hfound := List.find?_some ho
    simp only [Bool.and_eq_true, decide_eq_true_eq] at hfound
    exact hfound.2
  obtain ⟨hreply, horig, hother⟩ :=
    byte_pairWritten (d := commitTaken s.dev c rest) (c := c) (lineIn_aligned hlr) (lineIn_aligned hlo) hne
  exact runs_of_run_eq hs (exec_ctCommitInsert s) hd ⟨hreply, horig, hother, commits_pairWritten (commitTaken s.dev c rest) c r o,
    pkt_setPkt_self .., onlyRegs_of_regs_eq (regs_pairWritten (commitTaken s.dev c rest) c r o)⟩

theorem ctCommit_failed_runs (hv : (s.dev.desc 6).v = false) (hn : f.nat.isSome = true) :
    Runs .ctCommitInsert s fun b => b.pkt c.tok = none ∧ b.fwd.commits = rest ∧ OnlyRegs [] s.dev b ∧ OnlyBytes 0 0 s.dev b := by
  have hd : s.dev.ctCommit = { s.dev with fwd := { s.dev.fwd with commits := rest } }.dropPkt c.tok := by
    rw [ctCommit_noTable hc hv]
    exact commitDone_failed hk hst hw hn
  have hrel := rel_Dev_dropPkt { s.dev with fwd := { s.dev.fwd with commits := rest } } c.tok
  refine runs_of_run_eq hs (exec_ctCommitInsert s) hd ⟨pkt_dropPkt_self .., ?_, ?_, ?_⟩
  · rw [hrel.same .fwd (by decide)]
  · exact onlyRegs_of_regs_eq (hrel.same .regs (by decide))
  · exact onlyBytes_of_hbm_eq (hrel.same .hbm (by decide))

end

/-! The sweep, clause by clause. -/

theorem hbm_sweepMoved (d : Dev) (b n : Nat) : (sweepMoved d b n).hbm = d.hbm := rfl

theorem regs_sweepMoved (d : Dev) (b n : Nat) : (sweepMoved d b n).regs = d.regs := rfl

theorem line_count (d : Dev) (off x : Nat) : (d.count off).line x = d.line x := rfl

section
variable {s : State} {b : Nat} (hs : Alive s) (hv : (s.dev.desc 1).v = true) (hen : s.dev.regBit (Reg.FWD_AGE_CFG 0) 31 = true)
  (hb : b = s.dev.fwd.sweep.getD 0 0 % 2 ^ (s.dev.desc 1).log2b)
include hs hv hen hb

theorem sweepVisit_idle_runs (hall : ∀ a ∈ (s.dev.desc 1).slots b, lnV (s.dev.line a) = false) : Runs (.sweepVisit 0) s fun x =>
    x.fwd.sweep = s.dev.fwd.sweep.set 0 (if b + 1 = 2 ^ (s.dev.desc 1).log2b then 0 else b + 1) ∧ OnlyRegs [] s.dev x ∧
    OnlyBytes 0 0 s.dev x := by
  have hd : s.dev.sweepVisit 0 = sweepMoved s.dev b (2 ^ (s.dev.desc 1).log2b) := by
    rw [sweepVisit_flows hv hen hb, foldl_sweepLine_invalid hall]
  exact runs_of_run_eq hs (exec_sweepVisit ..) hd ⟨rfl, onlyRegs_of_regs_eq rfl, onlyBytes_of_hbm_eq rfl⟩

theorem sweepVisit_aged_runs {a : Nat} (ha : a ∈ (s.dev.desc 1).slots b)
    (hothers : ∀ x ∈ (s.dev.desc 1).slots b, x ≠ a → lnV (s.dev.line x) = false) (hva : lnV (s.dev.line a) = true)
    (hin : s.dev.lineIn 1 a = true) (hstamp : s.dev.fwd.stamp.getD 0 false = false) (hstat : lnStatic (s.dev.line a) = false)
    (hage : s.dev.ageLimit 0 (lnClass (s.dev.line a)) ≤ (s.dev.fwd.now + 65536 - lnTs (s.dev.line a)) % 65536) :
    Runs (.sweepVisit 0) s fun x => LineIs s.dev x a zeroLine ∧
      x.reg (Reg.FWD_AGED 0) = counterAdd (s.dev.reg (Reg.FWD_AGED 0)) 1 ∧ OnlyRegs [Reg.FWD_AGED 0] s.dev x := by
  have haged := sweepLine_aged hva hin hstamp hstat hage
  have hothers' : ∀ x ∈ (s.dev.desc 1).slots b, x ≠ a → lnV ((s.dev.sweepLine 1 a).line x) = false := fun x hx hne => by
    rw [haged, line_count, line_lineWritten_apart (slots_apart hx ha hne)]
    exact hothers x hx hne
  have hd : s.dev.sweepVisit 0 =
      sweepMoved ((lineWritten s.dev 1 a zeroLine).count (Reg.FWD_AGED 0)) b (2 ^ (s.dev.desc 1).log2b) := by
    rw [sweepVisit_flows hv hen hb, foldl_sweepLine_one (nodup_slots ..) ha hothers hothers', haged]
  have hregs : OnlyRegs [] ((lineWritten s.dev 1 a zeroLine).count (Reg.FWD_AGED 0)) _ :=
    onlyRegs_of_regs_eq (regs_sweepMoved _ b (2 ^ (s.dev.desc 1).log2b))
  refine runs_of_run_eq hs (exec_sweepVisit ..) hd
    ⟨lineIs_of_hbm_eq (lineIs_lineWritten s.dev 1 a zeroLine_length) (hbm_sweepMoved ..), ?_, ?_⟩
  · rw [hregs _ List.not_mem_nil, reg_count_self, Dev.reg, regs_lineWritten, Dev.reg]
  · exact onlyRegs_trans (onlyRegs_trans (onlyRegs_of_regs_eq (regs_lineWritten ..)) (onlyRegs_count (List.mem_cons_self ..) _))
      (fun o _ => hregs o List.not_mem_nil)

end

/-! The end of a rebuild, as a command. -/

theorem desc_rehashSwapped_self (d : Dev) (t : Nat) (x : TblDesc) : (rehashSwapped d t x).desc t = x := kvGet_kvSet_self ..

theorem desc_rehashSwapped_ne {t k : Nat} (h : k ≠ t) (d : Dev) (x : TblDesc) : (rehashSwapped d t x).desc k = d.desc k :=
  kvGet_kvSet_ne h ..

/-- The swap of a table's descriptor touches the forwarding state alone. -/
theorem agree_rehashSwapped (d : Dev) (t : Nat) (x : TblDesc) : Agree [.fwd] d (rehashSwapped d t x) :=
  agree_of_rel_mask ((Rel.u_fwd (by decide)).2 ((Rel.u_fwd (by decide)).2 (Rel.refl _ d)))

theorem rehash_rehashSwapped (d : Dev) (t : Nat) (x : TblDesc) :
    (rehashSwapped d t x).fwd.rehash = d.fwd.rehash.filter (fun r => decide (r.table ≠ t)) := rfl

theorem rehashDone_runs {s : State} {t : Nat} {r : Rehash} (hs : Alive s) (ht : t = 1 ∨ t = 2)
    (hr : s.dev.fwd.rehash.find? (fun r => decide (r.table = t)) = some r) (hq : s.dev.glb.tueQ = []) (hlog : r.log = []) :
    Runs (.rehashDone t) s fun b =>
      b.desc t = TblDesc.ofBytes r.shadow.bytes ∧ b.fwd.rehash = s.dev.fwd.rehash.filter (fun x => decide (x.table ≠ t)) ∧
      (∀ k, k ≠ t → b.desc k = s.dev.desc k) ∧ OnlyRegs [] s.dev b ∧
      (s.dev.glb.planes.ctlUp = true → s.dev.ring.taken = [{ e := r.e, priv := true }] → AdmEnded s.dev b r.e 0x39 0 0) := by
  obtain ⟨a, ha⟩ : ∃ a, a = rehashSwapped s.dev t (TblDesc.ofBytes r.shadow.bytes) := ⟨_, rfl⟩
  have hagree : Agree [.fwd] s.dev a := ha ▸ agree_rehashSwapped _ _ _
  obtain ⟨b, hb⟩ : ∃ b, b = (a.tblJournalAdd { op := 0x30, table := t, payload := r.shadow.bytes } 0).stampAll r.shadow :=
    ⟨_, rfl⟩
  have hd : s.dev.rehashDone t = b.admLate r.e 0x39 0 0 0 := by rw [rehashDone_swaps ht hr hq hlog, ← ha, ← hb]
  have hab : Rel 66 a b := hb ▸ ((rel_Dev_tblJournalAdd ..).mono (by decide)).trans ((rel_Dev_stampAll ..).mono (by decide))
  have hlate := rel_Dev_admLate b r.e 0x39 0 0 0
  have hfwd : (b.admLate r.e 0x39 0 0 0).fwd = a.fwd := (hlate.same .fwd (by decide)).trans (hab.same .fwd (by decide))
  have hregs : (b.admLate r.e 0x39 0 0 0).regs = a.regs := (hlate.same .regs (by decide)).trans (hab.same .regs (by decide))
  have hdesc : ∀ k, (b.admLate r.e 0x39 0 0 0).desc k = a.desc k := fun k => by rw [Dev.desc, Dev.desc, hfwd]
  refine runs_of_run_eq hs (exec_rehashDone ..) hd ⟨?_, ?_, fun k hk => ?_, onlyRegs_of_regs_eq ?_, fun hup ht => ?_⟩
  · rw [hdesc, ha, desc_rehashSwapped_self]
  · rw [hfwd, ha, rehash_rehashSwapped]
  · rw [hdesc, ha, desc_rehashSwapped_ne hk]
  · exact hregs.trans (hagree .regs (by decide))
  · have hpl : b.glb.planes = s.dev.glb.planes := (hab.same .planes (by decide)).trans (hagree .planes (by decide))
    have htk : b.ring.taken = s.dev.ring.taken := (hab.same .taken (by decide)).1.trans (hagree .taken (by decide)).1
    have hseq : b.glb.admSeq = s.dev.glb.admSeq := (hab.same .admJ (by decide)).1.trans (hagree .admJ (by decide)).1
    obtain ⟨j, hj, hjseq, hrest⟩ := admLate_only (by rw [hpl, hup]) (htk.trans ht) 0x39 0 0 0
    exact ⟨j, hj, hjseq.trans hseq, hrest⟩

/-- Settles O33, clause by clause: what each engine finds, and the lines that it then writes. -/
theorem tableEngines : Obligations.TableEngines := by
  unfold Obligations.TableEngines
  refine ⟨?learn, ?commit, ?tick, ?sweep, ?rehash⟩
  case learn =>
    rintro s l rest br key hs hl hb rfl
    exact ⟨fun a hf hv hlim ha hin => learnInsert_new_runs hs hl hb hf hv hlim ha hin,
      fun fails hf hv hlim => learnInsert_limit_runs hs hl hb hf hv hlim fails,
      fun a hf hd hst hin => learnInsert_move_runs hs hl hb hf hd hst hin⟩
  case commit =>
    intro s c rest p f hs hc hk hst hw
    exact ⟨fun r o hv hfo hfr hr ho hlr hlo => ctCommit_inserted_runs hs hc hk hst hw hv hfo hfr hr ho hlr hlo,
      fun hv hn => ctCommit_failed_runs hs hc hk hst hw hv hn⟩
  case tick => exact fun s hs => runs_of_run hs (exec_ageTick s) ⟨rfl, agree_of_rel_mask (rel_Dev_ageTick _)⟩
  case sweep =>
    intro s b hs hv hen hb
    exact ⟨fun hall => sweepVisit_idle_runs hs hv hen hb hall,
      fun a ha ho hva hin hstamp hstat hage => sweepVisit_aged_runs hs hv hen hb ha ho hva hin hstamp hstat hage⟩
  case rehash => exact fun s t r hs ht hr hq hlog => rehashDone_runs hs ht hr hq hlog

end Sys2Proof.Proofs

/-! Admin commands over flows, MACs, actions, counters, bridges, pools and tenancies (R229 to R261). -/

namespace Sys2Proof.Proofs

open Sys2Proof Sys2Proof.Machine Sys2Proof.Laws

/-! Records that a command posts (R216, R563). -/

/-- The device with one more record posted. -/
def recPosted (d : Dev) (r : TueRec) : Dev :=
  { d with glb := { d.glb with recSeq := d.glb.recSeq + 1, tueQ := d.glb.tueQ ++ [{ r with seq := d.glb.recSeq }] } }

theorem tuePost_cons (d : Dev) (r : TueRec) (rs : List TueRec) : d.tuePost (r :: rs) = (recPosted d r).tuePost rs := rfl

theorem tueQ_tuePost (rs : List TueRec) (n : Nat) : ∀ (k : Nat) (d : Dev), d.glb.recSeq = n + k →
    (d.tuePost rs).glb.tueQ = d.glb.tueQ ++ (rs.zipIdx k).map fun x => { x.1 with seq := n + x.2 } := by
  induction rs with
  | nil => exact fun k d _ => (List.append_nil _).symm
  | cons r rs ih =>
    intro k d h
    have hseq : (recPosted d r).glb.recSeq = n + (k + 1) := congrArg (· + 1) h
    rw [tuePost_cons, ih (k + 1) (recPosted d r) hseq, List.zipIdx_cons, List.map_cons, ← h]
    exact List.append_assoc d.glb.tueQ [_] _

theorem tuePost_posts (d : Dev) (rs : List TueRec) : TuePosts d (d.tuePost rs) rs := tueQ_tuePost rs d.glb.recSeq 0 d rfl

/-- A record of an admin command; the last one brings its completion. -/
def recOf (e : AdmEntry) (opc : Nat) (last : Bool) (r : TueRec) : TueRec := { r with poster := .adm e opc 0 0 last }

/-- The records of an admin command. -/
def recsOf (e : AdmEntry) (opc : Nat) (rs : List TueRec) : List TueRec :=
  rs.zipIdx.map fun x => recOf e opc (decide (x.2 + 1 = rs.length)) x.1

theorem recsOf_concat (e : AdmEntry) (opc : Nat) (l : List TueRec) (r : TueRec) :
    recsOf e opc (l ++ [r]) = l.map (recOf e opc false) ++ [recOf e opc true r] := by
  have hinit : l.zipIdx.map (fun x => recOf e opc (decide (x.2 + 1 = (l ++ [r]).length)) x.1) = l.map (recOf e opc false) := by
    refine List.ext_getElem (by simp) fun i hi _ => ?_
    have hlt : i < l.length := by simpa using hi
    simp [Nat.ne_of_lt hlt]
  rw [recsOf, List.zipIdx_append, List.map_append, hinit]
  simp

theorem postAll_posts {rs : List TueRec} (h : rs ≠ []) (d : Dev) (e : AdmEntry) (opc : Nat) :
    d.postAll e opc rs = .wait (d.tuePost (recsOf e opc rs)) := by
  obtain ⟨l, r, rfl⟩ := (List.eq_nil_or_concat' rs).resolve_left h
  rw [recsOf_concat]
  simp only [Dev.postAll, List.reverse_append, List.reverse_cons, List.reverse_nil, List.nil_append, List.cons_append, List.reverse_reverse]
  rfl

theorem postAll_one (d : Dev) (e : AdmEntry) (opc : Nat) (r : TueRec) :
    d.postAll e opc [r] = .wait (d.tuePost [recOf e opc true r]) := rfl

/-- An admin command that posts records and is taken. -/
theorem waits_of_posts {c : Instr} {e : AdmEntry} {opc : Nat} {s : State} {f : Dev → AdmRes} {d : Dev} {rs : List TueRec}
    {P : Dev → Prop} (hs : AdmReady s) (he : exec c s = s.run (·.admRun e opc f)) (hf : f s.dev = .wait (d.tuePost rs))
    (hp : ∀ b, TuePosts d b rs → Agree [.tue, .taken] d b → P b) : Waits c e s P := by
  refine runs_of_wait hs he hf fun b hw hag => ⟨hw, hp b ?_ fun p hp' => ?_⟩
  · exact (hag .tue (by decide)).1.trans (tuePost_posts d rs)
  · have hpost : Agree [.tue] d (d.tuePost rs) := agree_of_rel_mask (rel_Dev_tuePost d rs)
    exact same_trans (hpost p (by simp_all)) (hag p (by simp_all))

/-! What the commands run. -/

theorem exec_fwdTblCfg (e : AdmEntry) (s : State) : exec (.fwdTblCfg e) s = s.run (·.admRun e 0x38 (fwdTblCfg e)) := rfl

theorem exec_fwdRehash (e : AdmEntry) (s : State) : exec (.fwdRehash e) s = s.run (·.admRun e 0x39 (fwdRehash e)) := rfl

theorem exec_fwdFlowAdd (e : AdmEntry) (s : State) : exec (.fwdFlowAdd e) s = s.run (·.admInsert e 0x3A 1 (fwdFlowAdd e)) := rfl

theorem exec_fwdFlowDel (e : AdmEntry) (s : State) : exec (.fwdFlowDel e) s = s.run (·.admRun e 0x3B (fwdFlowDel e)) := rfl

theorem exec_fwdFlowRead (e : AdmEntry) (s : State) : exec (.fwdFlowRead e) s = s.run (·.admRun e 0x3C (fwdFlowRead e)) := rfl

theorem exec_fwdBridgeCfg (e : AdmEntry) (s : State) : exec (.fwdBridgeCfg e) s = s.run (·.admRun e 0x3D (fwdBridgeCfg e)) := rfl

theorem exec_fwdMacAdd (e : AdmEntry) (s : State) : exec (.fwdMacAdd e) s = s.run (·.admInsert e 0x3E 2 (fwdMacAdd e)) := rfl

theorem exec_fwdActWrite (e : AdmEntry) (s : State) : exec (.fwdActWrite e) s = s.run (·.admRun e 0x3F (fwdActWrite e)) := rfl

theorem exec_fwdNatPool (e : AdmEntry) (s : State) : exec (.fwdNatPool e) s = s.run (·.admRun e 0x40 (fwdNatPool e)) := rfl

theorem exec_fwdTenCfg (e : AdmEntry) (s : State) : exec (.fwdTenCfg e) s = s.run (·.admRun e 0x41 (fwdTenCfg e)) := rfl

theorem exec_fwdCntRead (e : AdmEntry) (s : State) : exec (.fwdCntRead e) s = s.run (·.admRun e 0x42 (fwdCntRead false e)) := rfl

theorem exec_fwdCntReadClear (e : AdmEntry) (s : State) :
    exec (.fwdCntReadClear e) s = s.run (·.admRun e 0x42 (fwdCntRead true e)) := rfl

theorem exec_fwdCntClaim (e : AdmEntry) (s : State) : exec (.fwdCntClaim e) s = s.run (·.admRun e 0x42 (fwdCntClaim e)) := rfl

theorem exec_fwdCntRelease (e : AdmEntry) (s : State) : exec (.fwdCntRelease e) s = s.run (·.admRun e 0x42 (fwdCntRelease e)) := rfl

theorem exec_fwdFlush (e : AdmEntry) (s : State) : exec (.fwdFlush e) s = s.run (·.admRun e 0x43 (fwdFlush e)) := rfl

/-! The checks (R260). -/

@[simp] theorem bufCheck_passes (e : AdmEntry) : e.bufCheck.1 = false ↔ e.bufErr = none := by
  unfold AdmEntry.bufCheck
  split <;> simp [*]

@[simp] theorem noTable_passes (d : Dev) (t : Nat) : (d.noTable t).1 = false ↔ (d.desc t).v = true := by simp [Dev.noTable]

@[simp] theorem notPriv_passes (d : Dev) (e : AdmEntry) : (d.notPriv e).1 = false ↔ d.privOf e = true := by simp [Dev.notPriv]

/-! Inserts (R234). -/

/-- A line that takes a free slot. -/
theorem insertPlan_free {d : Dev} {x : TblDesc} {line : List Byte} {a : Nat} (hf : d.findIn x (lnKey line) = none)
    (ha : d.freeSlot x (lnKey line) = some a) (replace : Bool) : d.insertPlan x line replace = .writes [(a, line)] := by
  unfold Dev.insertPlan
  simp only [hf, ha]

theorem insertPlan_exists {d : Dev} {x : TblDesc} {line : List Byte} {a : Nat} (hf : d.findIn x (lnKey line) = some a) :
    d.insertPlan x line false = .exists_ := by
  unfold Dev.insertPlan
  simp only [hf, Bool.false_eq_true, if_false]

theorem postInsert_free {d : Dev} {e : AdmEntry} {opc t a : Nat} {line : List Byte} (hr : d.fwd.rehash = [])
    (hf : d.tueAhead.findIn (d.tueAhead.desc t) (lnKey line) = none)
    (ha : d.tueAhead.freeSlot (d.tueAhead.desc t) (lnKey line) = some a) (replace : Bool) :
    d.postInsert e opc t line replace = .wait (d.tuePost [recOf e opc true (casRecord d.tueAhead t a line)]) := by
  unfold Dev.postInsert
  simp only [insertPlan_free hf ha, hr, List.find?_nil, Option.map_none]
  rfl

theorem postInsert_exists {d : Dev} {e : AdmEntry} {opc t a : Nat} {line : List Byte}
    (hf : d.tueAhead.findIn (d.tueAhead.desc t) (lnKey line) = some a) : d.postInsert e opc t line false = .fail St.DENIED 1 := by
  unfold Dev.postInsert
  simp only [insertPlan_exists hf]

/-- An insert command whose records are posted runs as any other. -/
theorem admInsert_wait {d d' : Dev} {e : AdmEntry} {f : Dev → AdmRes} (hf : f d = .wait d') (opc t : Nat) :
    d.admInsert e opc t f = d.admRun e opc f := by
  unfold Dev.admInsert Dev.admRun
  split
  · rfl
  · rename_i hrun
    simp only [hf]
    exact if_neg hrun

/-- So does one that is refused, but for want of a path. -/
theorem admInsert_fail {d : Dev} {e : AdmEntry} {f : Dev → AdmRes} {st det : Nat} (hf : f d = .fail st det) (hst : st ≠ St.NOSPACE)
    (opc t : Nat) : d.admInsert e opc t f = d.admRun e opc f := by
  unfold Dev.admInsert Dev.admRun
  have hpath : d.noPath t (.fail st det) = d := if_neg hst
  simp only [hf, hpath]

theorem fwdFlowAdd_checked {d : Dev} {e : AdmEntry} (howns : (d.notOwner e e.ten).1 = false) (hl : e.len = 64) (hv : (d.desc 1).v = true)
    (hbuf : e.bufErr = none) (hty : lnType e.buf = 1 ∨ lnType e.buf = 2) (hten : lnTen e.buf = e.ten) (hlen : e.buf.length = 64)
    (hcnt : lnD5 e.buf / 2 ^ 17 % 2 = 0) :
    fwdFlowAdd e d = d.postInsert e 0x3A 1
      (mkLine (lnKey e.buf) (lnD5 e.buf) (lnD6 e.buf) (lnStatic e.buf) (lnClass e.buf) d.fwd.now) (bitOf e.d2 32) := by
  have h3 : lnType e.buf ≠ 3 := by omega
  have hfit : 1 ≤ lnType e.buf ∧ lnType e.buf ≤ 3 := by omega
  unfold fwdFlowAdd
  rw [fitTo_self hlen]
  exact admChecks_pass (by simpa [howns, hl, hv, hbuf, Dev.keyChecks, h3, hfit, hten] using fun h => absurd h (by omega)) _

theorem fwdMacAdd_checked {d : Dev} {e : AdmEntry} {br : Bridge} (howns : (d.notOwner e e.ten).1 = false) (hv : (d.desc 2).v = true)
    (hb : kvFind (fld e.d2 45 32) d.fwd.bridges = some br) (hten : br.ten = e.ten)
    (hdest : fld e.d4 31 0 / 2 ^ 28 ≠ 2 ∨ fld e.d4 31 0 / 512 % 4096 = e.ten) :
    fwdMacAdd e d = d.postInsert e 0x3E 2
      (mkLine (macKey e.ten (fld e.d2 45 32) (fld e.d3 47 0)) (fld e.d4 31 0) 0 (bitOf e.d4 32) 0 d.fwd.now) true := by
  have hdest' : ¬(fld e.d4 31 0 / 2 ^ 28 = 2 ∧ fld e.d4 31 0 / 512 % 4096 ≠ e.ten) := by omega
  unfold fwdMacAdd
  exact admChecks_pass (by simpa [howns, hv, hb, hten] using fun h hne => absurd ⟨h, hne⟩ hdest') _

theorem fwdTblCfg_posts {d : Dev} {e : AdmEntry} (hpriv : d.privOf e = true)
    (ht : fld e.d2 7 0 = 1 ∨ fld e.d2 7 0 = 2 ∨ fld e.d2 7 0 = 3 ∨ fld e.d2 7 0 = 4 ∨ fld e.d2 7 0 = 6) (hl : e.len = 64)
    (hbuf : e.bufErr = none) (hdesc : descBad (fld e.d2 7 0) (fitTo 64 e.buf) = none) (hv : (d.tueAhead.desc (fld e.d2 7 0)).v = false) :
    fwdTblCfg e d =
      .wait (d.tuePost [{ op := 0x30, table := fld e.d2 7 0, payload := fitTo 64 e.buf, poster := .adm e 0x38 0 0 true }]) := by
  unfold fwdTblCfg
  exact admChecks_pass (by simp [hpriv, ht, hl, hbuf, hdesc, hv]) _

/-! The clauses of inserts. -/

section
variable {s : State} {e : AdmEntry} {line : List Byte} {a : Nat} (hs : AdmReady s)
include hs

/-- An insert that found a free slot posts one record. -/
theorem insert_waits {c : Instr} {opc t : Nat} {f : Dev → AdmRes} {replace : Bool} (hr : s.dev.fwd.rehash = [])
    (he : exec c s = s.run (·.admInsert e opc t f)) (hf : f s.dev = s.dev.postInsert e opc t line replace)
    (hfree : s.dev.tueAhead.findIn (s.dev.tueAhead.desc t) (lnKey line) = none)
    (ha : s.dev.tueAhead.freeSlot (s.dev.tueAhead.desc t) (lnKey line) = some a) :
    Waits c e s fun b => TuePosts s.dev b [recOf e opc true (casRecord s.dev.tueAhead t a line)] ∧ OnlyRegs [] s.dev b ∧
      OnlyBytes 0 0 s.dev b := by
  have hpost := hf.trans (postInsert_free (opc := opc) hr hfree ha replace)
  refine waits_of_posts hs (he.trans (run_congr (admInsert_wait hpost opc t))) hpost fun b hb hag => ⟨hb, ?_, ?_⟩
  · exact onlyRegs_of_agree hag (by decide)
  · exact onlyBytes_of_hbm_eq (hag .hbm (by decide))

/-- An insert of a key that stands, without REPLACE, is refused. -/
theorem insert_refused {c : Instr} {opc t : Nat} {f : Dev → AdmRes}
    (he : exec c s = s.run (·.admInsert e opc t f)) (hf : f s.dev = s.dev.postInsert e opc t line false)
    (hfound : s.dev.tueAhead.findIn (s.dev.tueAhead.desc t) (lnKey line) = some a) :
    Runs c s fun b => AdmEnded s.dev b e opc St.DENIED 1 ∧ b.glb.tueQ = s.dev.glb.tueQ ∧ OnlyRegs [] s.dev b := by
  have hfail := hf.trans (postInsert_exists hfound)
  refine runs_of_fail hs (he.trans (run_congr (admInsert_fail hfail (by decide) opc t))) hfail fun b hb hag => ⟨hb, ?_, ?_⟩
  · exact (hag .tue (by decide)).1
  · exact onlyRegs_of_agree hag (by decide)

end

/-! Keys named in a command (R232, R237). -/

/-- The key in the buffer belongs to table t, to one that a tenancy may name (R232). -/
def KeyOf (e : AdmEntry) (t : Nat) : Prop :=
  (t = 1 ∧ (lnType e.buf = 1 ∨ lnType e.buf = 2)) ∨ (t = 2 ∧ lnType e.buf = 4) ∨
    (t = 6 ∧ (lnType e.buf = 5 ∨ lnType e.buf = 6))

theorem flowPre_passes {d : Dev} {e : AdmEntry} {t n : Nat} {write : Bool} (howns : (d.notOwner e e.ten).1 = false)
    (ht : t = fld e.d2 39 32) (hkey : KeyOf e t) (hl : e.len = n) (hv : (d.desc t).v = true) (hbuf : e.bufErr = none)
    (hten : lnTen e.buf = e.ten) (hlen : e.buf.length = 40) : Passes (d.flowPre e n write) := by
  have h3 : lnType e.buf ≠ 3 := by unfold KeyOf at hkey; omega
  unfold Dev.flowPre Dev.keyChecks
  rw [fitTo_self hlen, ← ht]
  rcases hkey with ⟨rfl, hk⟩ | ⟨rfl, hk⟩ | ⟨rfl, hk⟩
  · have hfit : 1 ≤ lnType e.buf ∧ lnType e.buf ≤ 3 := by omega
    simp [howns, hl, hv, hbuf, h3, hten, hfit]
  · simp [howns, hl, hv, hbuf, hten, hk]
  · simp [howns, hl, hv, hbuf, h3, hten, hk]

theorem deleteRecords_eq {d : Dev} (hr : d.fwd.rehash = []) (t : Nat) (key : List Byte) :
    d.deleteRecords t key = ((d.tueAhead.findIn (d.tueAhead.desc t) key).map
      fun i => ({ op := 0x10, table := t, index := i, payload := zeroLine } : TueRec)).toList := by
  simp only [Dev.deleteRecords, hr, List.filter_nil, List.flatMap_nil, List.append_nil]

/-- A command that ends at once and changes nothing but what its completion touches. -/
theorem runs_of_done {c : Instr} {e : AdmEntry} {opc det len : Nat} {s : State} {data : List Byte} {f : Dev → AdmRes} {P : Dev → Prop}
    (hs : AdmReady s) (he : exec c s = s.run (·.admRun e opc f)) (hf : f s.dev = .done s.dev det len data)
    (hp : ∀ b, AdmEnded s.dev b e opc 0 det → Agree Machine.admParts s.dev b → P b) : Runs c s P := by
  obtain ⟨ha, hc, ht⟩ := hs
  obtain ⟨hend, hk⟩ := admRun_done (e := e) (opc := opc) hc hf ht rfl
  exact runs_of_run ha he (hp _ hend hk)

theorem line_length (d : Dev) (a : Nat) : (d.line a).length = 64 := bytes_length ..

section
variable {s : State} {e : AdmEntry} {t a : Nat} (hs : AdmReady s) (howns : Owns e e.ten s) (ht : t = fld e.d2 39 32) (hkey : KeyOf e t)
  (hv : (s.dev.desc t).v = true) (hbuf : e.bufErr = none) (hten : lnTen e.buf = e.ten) (hlen : e.buf.length = 40)
include hs howns ht hkey hv hbuf hten hlen

theorem fwdFlowDel_none_runs (hr : s.dev.fwd.rehash = []) (hl : e.len = 40)
    (hf : s.dev.tueAhead.findIn (s.dev.tueAhead.desc t) e.buf = none) :
    Runs (.fwdFlowDel e) s fun b => AdmEnded s.dev b e 0x3B 0 1 ∧ b.glb.tueQ = s.dev.glb.tueQ ∧ OnlyRegs [] s.dev b := by
  have hpre : Passes (s.dev.flowPre e 40 true) := flowPre_passes (notOwner_owns howns) ht hkey hl hv hbuf hten hlen
  have hdone : fwdFlowDel e s.dev = .done s.dev 1 := by
    unfold fwdFlowDel
    rw [admChecks_pass hpre, fitTo_self hlen, ← ht, deleteRecords_eq hr, hf]
    rfl
  exact runs_of_done hs (exec_fwdFlowDel ..) hdone fun b hb hag => ⟨hb, (hag .tue (by decide)).1, onlyRegs_of_agree hag (by decide)⟩

theorem fwdFlowDel_found_waits (hr : s.dev.fwd.rehash = []) (hl : e.len = 40)
    (hf : s.dev.tueAhead.findIn (s.dev.tueAhead.desc t) e.buf = some a) : Waits (.fwdFlowDel e) e s fun b =>
      TuePosts s.dev b [{ op := 0x10, table := t, index := a, payload := zeroLine, poster := .adm e 0x3B 0 0 true }] ∧
      OnlyRegs [] s.dev b := by
  have hpre : Passes (s.dev.flowPre e 40 true) := flowPre_passes (notOwner_owns howns) ht hkey hl hv hbuf hten hlen
  have hwait : fwdFlowDel e s.dev =
      .wait (s.dev.tuePost [{ op := 0x10, table := t, index := a, payload := zeroLine, poster := .adm e 0x3B 0 0 true }]) := by
    unfold fwdFlowDel
    rw [admChecks_pass hpre, fitTo_self hlen, ← ht, deleteRecords_eq hr, hf]
    rfl
  exact waits_of_posts hs (exec_fwdFlowDel ..) hwait fun b hb hag => ⟨hb, onlyRegs_of_agree hag (by decide)⟩

theorem fwdFlowRead_none_runs (hl : e.len = 64) (hf : s.dev.tueAhead.find t e.buf = none) :
    Runs (.fwdFlowRead e) s fun b => AdmEnded s.dev b e 0x3C 0 1 ∧ OnlyRegs [] s.dev b := by
  have hpre : Passes (s.dev.flowPre e 64 false) := flowPre_passes (notOwner_owns howns) ht hkey hl hv hbuf hten hlen
  have hdone : fwdFlowRead e s.dev = .done s.dev 1 := by
    unfold fwdFlowRead
    rw [admChecks_pass hpre, fitTo_self hlen, ← ht, hf]
  exact runs_of_done hs (exec_fwdFlowRead ..) hdone fun b hb hag => ⟨hb, onlyRegs_of_agree hag (by decide)⟩

theorem fwdFlowRead_found_completes (hl : e.len = 64) (hf : s.dev.tueAhead.find t e.buf = some a) :
    Completes (.fwdFlowRead e) e 0x3C s fun b =>
      Out.hostWrite (.pf e.pf) none e.d1.toNat (s.dev.tueAhead.line a) false ∈ b.out ∧ b.fwd = s.dev.fwd ∧ OnlyRegs [] s.dev b := by
  have hpre : Passes (s.dev.flowPre e 64 false) := flowPre_passes (notOwner_owns howns) ht hkey hl hv hbuf hten hlen
  have hdone : fwdFlowRead e s.dev = .done s.dev 0 64 (s.dev.tueAhead.line a) := by
    unfold fwdFlowRead
    rw [admChecks_pass hpre, fitTo_self hlen, ← ht, hf]
  have hne : s.dev.tueAhead.line a ≠ [] := List.ne_nil_of_length_pos (by rw [line_length]; decide)
  have hrel : AdmRel 0 s.dev (fwdFlowRead e s.dev) := by rw [hdone]; exact Rel.refl ..
  exact completes_of_returned hs (exec_fwdFlowRead ..) hdone hrel hne (fun b hout hag =>
    ⟨hout, hag .fwd (by decide), onlyRegs_of_agree hag (by decide)⟩) (by decide) (by decide) (by decide) (by decide)

end

/-! Bridges, NAT pools and tenancies (R240, R249, R250). -/

/-- An admin command that completes with another forwarding state, and changes nothing else. -/
theorem completes_of_fwd {c : Instr} {e : AdmEntry} {opc : Nat} {s : State} {f : Dev → AdmRes} {x : FwdPart} {P : Dev → Prop}
    (hs : AdmReady s) (he : exec c s = s.run (·.admRun e opc f)) (hf : f s.dev = .done { s.dev with fwd := x })
    (hp : ∀ b, b.fwd = x → OnlyRegs [] s.dev b → P b) : Completes c e opc s P :=
  completes_of_effect hs he hf rfl rfl fun b _ hag => hp b (hag .fwd (by decide)) (onlyRegs_of_regs_eq (hag .regs (by decide)))

section
variable {s : State} {e : AdmEntry} (hs : AdmReady s) (howns : Owns e e.ten s)
include hs howns

theorem fwdBridgeCfg_completes (h1 : 1 ≤ fld e.d4 20 0) (h2 : fld e.d4 20 0 ≤ 1048576) (hv : (s.dev.desc 2).v = true)
    (hnew : kvFind (fld e.d2 45 32) s.dev.fwd.bridges = none) : Completes (.fwdBridgeCfg e) e 0x3D s fun b =>
      kvFind (fld e.d2 45 32) b.fwd.bridges = some {
          ten := e.ten, en := bitOf e.d3 32, learn := bitOf e.d3 33, limit := fld e.d4 20 0, flood := fld e.d3 16 0 } ∧
      (∀ k, k ≠ fld e.d2 45 32 → kvFind k b.fwd.bridges = kvFind k s.dev.fwd.bridges) ∧ OnlyRegs [] s.dev b := by
  have hlim : ¬(fld e.d4 20 0 = 0 ∨ 1048576 < fld e.d4 20 0) := by omega
  have hdone : fwdBridgeCfg e s.dev = .done { s.dev with
      fwd := { s.dev.fwd with
        bridges := kvPut (fld e.d2 45 32) {
          ten := e.ten, en := bitOf e.d3 32, learn := bitOf e.d3 33, limit := fld e.d4 20 0,
          flood := fld e.d3 16 0 } s.dev.fwd.bridges } } := by
    unfold fwdBridgeCfg
    dsimp only
    rw [hnew]
    exact admChecks_pass (by simp [notOwner_owns howns, hlim, hv]) _
  refine completes_of_fwd hs (exec_fwdBridgeCfg ..) hdone fun b hfwd hregs => ?_
  rw [hfwd]
  exact ⟨kvFind_kvPut_self .., fun k hk => kvFind_kvPut_ne hk .., hregs⟩

theorem fwdNatPool_completes (haddr : fld e.d3 31 0 ≤ fld e.d3 63 32) (hport : fld e.d4 15 0 ≤ fld e.d4 31 16)
    (hv : (s.dev.desc 6).v = true) (hnew : kvFind (fld e.d2 43 32) s.dev.fwd.pools = none) :
    Completes (.fwdNatPool e) e 0x40 s fun b =>
      kvFind (fld e.d2 43 32) b.fwd.pools = some {
          ten := e.ten, addrLo := fld e.d3 31 0, addrHi := fld e.d3 63 32, portLo := fld e.d4 15 0, portHi := fld e.d4 31 16,
          v := bitOf e.d4 32 } ∧
      (∀ k, k ≠ fld e.d2 43 32 → kvFind k b.fwd.pools = kvFind k s.dev.fwd.pools) ∧ OnlyRegs [] s.dev b := by
  have hdone : fwdNatPool e s.dev = .done { s.dev with
      fwd := { s.dev.fwd with
        pools := kvPut (fld e.d2 43 32) {
          ten := e.ten, addrLo := fld e.d3 31 0, addrHi := fld e.d3 63 32, portLo := fld e.d4 15 0, portHi := fld e.d4 31 16,
          v := bitOf e.d4 32 } s.dev.fwd.pools } } := by
    unfold fwdNatPool
    dsimp only
    rw [hnew]
    exact admChecks_pass (by simp [notOwner_owns howns, haddr, hport, hv]) _
  refine completes_of_fwd hs (exec_fwdNatPool ..) hdone fun b hfwd hregs => ?_
  rw [hfwd]
  exact ⟨kvFind_kvPut_self .., fun k hk => kvFind_kvPut_ne hk .., hregs⟩

theorem fwdTenCfg_completes (hv : (s.dev.desc 1).v = true) : Completes (.fwdTenCfg e) e 0x41 s fun b =>
    kvFind e.ten b.fwd.tens = some { miss := fld e.d3 16 0, inner := bitOf e.d3 17, flowEn := bitOf e.d3 18, mtuExc := bitOf e.d3 19 } ∧
    (∀ k, k ≠ e.ten → kvFind k b.fwd.tens = kvFind k s.dev.fwd.tens) ∧ OnlyRegs [] s.dev b := by
  have hdone : fwdTenCfg e s.dev = .done { s.dev with
      fwd := { s.dev.fwd with
        tens := kvPut e.ten {
          miss := fld e.d3 16 0, inner := bitOf e.d3 17, flowEn := bitOf e.d3 18, mtuExc := bitOf e.d3 19 } s.dev.fwd.tens } } := by
    unfold fwdTenCfg
    exact admChecks_pass (by simp [notOwner_owns howns, hv]) _
  refine completes_of_fwd hs (exec_fwdTenCfg ..) hdone fun b hfwd hregs => ?_
  rw [hfwd]
  exact ⟨kvFind_kvPut_self .., fun k hk => kvFind_kvPut_ne hk .., hregs⟩

end

/-! Action entries and counters (R256, R258). -/

/-- A command whose last check alone fails. -/
theorem admChecks_last {l : List (Bool × Nat × Nat)} (h : Passes l) (st det : Nat) (k : Unit → AdmRes) :
    admChecks (l ++ [(true, st, det)]) k = .fail st det := by
  have hfirst : firstFail (l ++ [(true, st, det)]) = some (st, det) := by
    induction l with
    | nil => rfl
    | cons c l ih =>
      obtain ⟨hc, hl⟩ := (passes_cons c l).1 h
      simp only [List.cons_append, firstFail, hc, Bool.false_eq_true, if_false]
      exact ih hl
  rw [admChecks, hfirst]

theorem regs_hbmWrite (d : Dev) (a : Nat) (l : List Byte) : (d.hbmWrite a l).regs = d.regs := rfl

theorem tuePosts_of_hbmWrite {d b : Dev} {a : Nat} {l : List Byte} {rs : List TueRec} (h : TuePosts (d.hbmWrite a l) b rs) :
    TuePosts d b rs := h

/-- The bytes of a counter, cleared. -/
theorem cleared_hbmWrite {d b : Dev} {a : Nat} (h : b.hbm = (d.hbmWrite a (List.replicate 16 0#8)).hbm) :
    b.hbm.bytes a 16 = List.replicate 16 0#8 := by
  rw [h]
  exact bytes_write_self d.hbm a (List.replicate 16 0#8)

theorem onlyBytes_of_cleared {d b : Dev} {a : Nat} (h : b.hbm = (d.hbmWrite a (List.replicate 16 0#8)).hbm) : OnlyBytes a 16 d b := by
  intro y hy
  rw [h]
  exact onlyBytes_hbmWrite d a (List.replicate 16 0#8) y hy

section
variable {s : State} {e : AdmEntry} (hs : AdmReady s) (howns : Owns e e.ten s) (hdev : bitOf e.d2 12 = false)
include hs howns hdev

/-- A template's entry is posted with the tenancy of the command as its owner (R256, log 22). -/
theorem fwdActWrite_waits {i : Nat} (hi : i = fld e.d2 48 32) (hin : i < 131072) (hl : e.len = 64) (hv : (s.dev.desc 3).v = true)
    (hbuf : e.bufErr = none) (hfree : s.dev.tueAhead.actOwnerOf i = none ∨ s.dev.tueAhead.actOwnerOf i = some (some e.ten))
    (htmpl : actTmpl (BitVec.ofNat 64 (leAt e.buf 0 8)) = true) : Waits (.fwdActWrite e) e s fun b =>
      TuePosts s.dev b [{
          op := 0x10, table := 3, index := (s.dev.desc 3).base + 64 * i,
          payload := patch (slice e.buf 0 64) 0
            (leBytes 8 (leAt (slice e.buf 0 64) 0 8 / 2 ^ 62 * 2 ^ 62 + e.ten * 2 ^ 49 + leAt (slice e.buf 0 64) 0 8 % 2 ^ 49)),
          poster := .adm e 0x3F 0 0 true }] ∧ OnlyRegs [] s.dev b ∧ OnlyBytes 0 0 s.dev b := by
  have hmine : (s.dev.tueAhead.actOwnerOf i).elim false (fun o => !decide (o = some e.ten)) = false := by
    rcases hfree with h | h <;> simp [h]
  have hwait : fwdActWrite e s.dev = .wait (s.dev.tuePost [recOf e 0x3F true {
      op := 0x10, table := 3, index := (s.dev.desc 3).base + 64 * i,
      payload := patch (slice e.buf 0 64) 0
        (leBytes 8 (leAt (slice e.buf 0 64) 0 8 / 2 ^ 62 * 2 ^ 62 + e.ten * 2 ^ 49 + leAt (slice e.buf 0 64) 0 8 % 2 ^ 49)) }]) := by
    rw [← postAll_one]
    unfold fwdActWrite
    dsimp only
    rw [hdev, hl, ← hi]
    rw [admChecks_pass]
    · simp [b2n]
    · simp [hv, hbuf, notOwner_owns howns, hin, hmine, htmpl]
  exact waits_of_posts hs (exec_fwdActWrite ..) hwait fun b hb hag =>
    ⟨hb, onlyRegs_of_agree hag (by decide), onlyBytes_of_hbm_eq (hag .hbm (by decide))⟩

variable {c : Nat} (hc : c = fld e.d2 55 32) (hv : (s.dev.desc 4).v = true) (hin : c < 2 ^ (s.dev.desc 4).log2b)
include hc hv hin

omit hs in
theorem cntPre_passes : Passes (s.dev.cntPre e) := by
  subst hc
  simp [Dev.cntPre, hdev, notOwner_owns howns, hv, hin]

theorem fwdCntRead_completes (hm : s.dev.tueAhead.cntMine e = true) : Completes (.fwdCntRead e) e 0x42 s fun b =>
    Out.hostWrite (.pf e.pf) none e.d1.toNat (s.dev.hbm.bytes (s.dev.ctrAddr c) 16) false ∈ b.out ∧ OnlyRegs [] s.dev b ∧
    OnlyBytes 0 0 s.dev b := by
  have hpre := cntPre_passes howns hdev hc hv hin
  have hdone : fwdCntRead false e s.dev = .done s.dev 0 16 (s.dev.hbm.bytes (s.dev.ctrAddr c) 16) := by
    unfold fwdCntRead
    rw [hc]
    exact admChecks_pass (by simp [hpre, hm]) _
  have hne : s.dev.hbm.bytes (s.dev.ctrAddr c) 16 ≠ [] := List.ne_nil_of_length_pos (by rw [bytes_length]; decide)
  exact completes_of_returned hs (exec_fwdCntRead ..) hdone (rel_fwdCntRead false e s.dev) hne (fun b hout hag =>
    ⟨hout, onlyRegs_of_agree hag (by decide), onlyBytes_of_hbm_eq (hag .hbm (by decide))⟩)
    (by decide) (by decide) (by decide) (by decide)

theorem fwdCntReadClear_completes (hm : s.dev.tueAhead.cntMine e = true) : Completes (.fwdCntReadClear e) e 0x42 s fun b =>
    Out.hostWrite (.pf e.pf) none e.d1.toNat (s.dev.hbm.bytes (s.dev.ctrAddr c) 16) false ∈ b.out ∧
    b.hbm.bytes (s.dev.ctrAddr c) 16 = List.replicate 16 0#8 ∧ OnlyBytes (s.dev.ctrAddr c) 16 s.dev b ∧ OnlyRegs [] s.dev b := by
  have hpre := cntPre_passes howns hdev hc hv hin
  have hdone : fwdCntRead true e s.dev =
      .done (s.dev.hbmWrite (s.dev.ctrAddr c) (List.replicate 16 0#8)) 0 16 (s.dev.hbm.bytes (s.dev.ctrAddr c) 16) := by
    unfold fwdCntRead
    rw [hc]
    exact admChecks_pass (by simp [hpre, hm]) _
  have hne : s.dev.hbm.bytes (s.dev.ctrAddr c) 16 ≠ [] := List.ne_nil_of_length_pos (by rw [bytes_length]; decide)
  refine completes_of_returned hs (exec_fwdCntReadClear ..) hdone (rel_fwdCntRead true e s.dev) hne (fun b hout hag => ?_)
    (by decide) (by decide) (by decide) (by decide)
  have hhbm : b.hbm = (s.dev.hbmWrite (s.dev.ctrAddr c) (List.replicate 16 0#8)).hbm := hag .hbm (by decide)
  have hregs : b.regs = s.dev.regs := (hag .regs (by decide)).trans (regs_hbmWrite ..)
  exact ⟨hout, cleared_hbmWrite hhbm, onlyBytes_of_cleared hhbm, onlyRegs_of_regs_eq hregs⟩

theorem fwdCntRelease_waits (hm : s.dev.tueAhead.cntMine e = true) : Waits (.fwdCntRelease e) e s fun b =>
    TuePosts s.dev b [{ s.dev.tueAhead.cntRecord c 0 with poster := .adm e 0x42 0 0 true }] ∧ OnlyRegs [] s.dev b ∧
    OnlyBytes 0 0 s.dev b := by
  have hpre := cntPre_passes howns hdev hc hv hin
  have hwait : fwdCntRelease e s.dev = .wait (s.dev.tuePost [recOf e 0x42 true (s.dev.tueAhead.cntRecord c 0)]) := by
    unfold fwdCntRelease
    rw [hc]
    exact admChecks_pass (by simp [hpre, hm]) _
  exact waits_of_posts hs (exec_fwdCntRelease ..) hwait fun b hb hag =>
    ⟨hb, onlyRegs_of_agree hag (by decide), onlyBytes_of_hbm_eq (hag .hbm (by decide))⟩

/-- A counter of another owner is not read. -/
theorem fwdCntRead_refused (hm : s.dev.tueAhead.cntMine e = false) : Runs (.fwdCntRead e) s fun b =>
    AdmEnded s.dev b e 0x42 St.DENIED 2 ∧ OnlyRegs [] s.dev b ∧ OnlyBytes 0 0 s.dev b := by
  have hpre := cntPre_passes howns hdev hc hv hin
  have hfail : fwdCntRead false e s.dev = .fail St.DENIED 2 := by
    unfold fwdCntRead
    dsimp only
    rw [hm]
    exact admChecks_last hpre ..
  exact runs_of_fail hs (exec_fwdCntRead ..) hfail fun b hb hag =>
    ⟨hb, onlyRegs_of_agree hag (by decide), onlyBytes_of_hbm_eq (hag .hbm (by decide))⟩

theorem fwdCntClaim_waits (hfree : s.dev.tueAhead.ctrV c = false) : Waits (.fwdCntClaim e) e s fun b =>
    TuePosts s.dev b [{ s.dev.tueAhead.cntRecord c (packNat [(1, 15), (0, 12), (e.ten, 0)]) with poster := .adm e 0x42 0 0 true }] ∧
    b.hbm.bytes (s.dev.ctrAddr c) 16 = List.replicate 16 0#8 ∧ OnlyBytes (s.dev.ctrAddr c) 16 s.dev b ∧ OnlyRegs [] s.dev b := by
  have hpre := cntPre_passes howns hdev hc hv hin
  have hwait : fwdCntClaim e s.dev = .wait ((s.dev.hbmWrite (s.dev.ctrAddr c) (List.replicate 16 0#8)).tuePost
      [recOf e 0x42 true (s.dev.tueAhead.cntRecord c (packNat [(1, 15), (0, 12), (e.ten, 0)]))]) := by
    unfold fwdCntClaim
    rw [hdev, ← hc]
    exact admChecks_pass (by simp [hpre, hfree]) _
  refine waits_of_posts hs (exec_fwdCntClaim ..) hwait fun b hb hag => ?_
  have hhbm : b.hbm = (s.dev.hbmWrite (s.dev.ctrAddr c) (List.replicate 16 0#8)).hbm := hag .hbm (by decide)
  have hregs : b.regs = s.dev.regs := (hag .regs (by decide)).trans (regs_hbmWrite ..)
  exact ⟨tuePosts_of_hbmWrite hb, cleared_hbmWrite hhbm, onlyBytes_of_cleared hhbm, onlyRegs_of_regs_eq hregs⟩

end

/-! Flushes and rebuilds (R238, R261). -/

/-- The records that delete the lines of the command's tenancy from the flow table. -/
def flushRecs (d : Dev) (e : AdmEntry) : List TueRec :=
  (((d.tueAhead.tblLines (d.tueAhead.desc 1)).map d.tueAhead.line).filter
    (fun l => decide (lnTen l = e.ten ∧ lnType l ≠ 3))).flatMap (fun l => d.deleteRecords 1 (lnKey l))

theorem fwdFlush_flows {d : Dev} {e : AdmEntry} (howns : (d.notOwner e e.ten).1 = false) (hm : fld e.d2 35 32 = 1)
    (hv : (d.desc 1).v = true) : fwdFlush e d = d.postAll e 0x43 (flushRecs d e) := by
  unfold fwdFlush
  rw [hm, admChecks_pass]
  · simp [flushRecs]
  · simp [howns, hv]

section
variable {s : State} {e : AdmEntry} (hs : AdmReady s)
include hs

theorem fwdFlush_nothing_completes (howns : Owns e e.ten s) (hm : fld e.d2 35 32 = 1) (hv : (s.dev.desc 1).v = true)
    (hrs : flushRecs s.dev e = []) : Completes (.fwdFlush e) e 0x43 s fun b => b.glb.tueQ = s.dev.glb.tueQ ∧ OnlyRegs [] s.dev b := by
  have hdone : fwdFlush e s.dev = .done s.dev := by
    rw [fwdFlush_flows (notOwner_owns howns) hm hv, hrs]
    rfl
  exact completes_of_done hs (exec_fwdFlush ..) hdone fun hag => ⟨(hag .tue (by decide)).1, onlyRegs_of_agree hag (by decide)⟩

theorem fwdFlush_lines_waits (howns : Owns e e.ten s) (hm : fld e.d2 35 32 = 1) (hv : (s.dev.desc 1).v = true)
    (hrs : flushRecs s.dev e ≠ []) : Waits (.fwdFlush e) e s fun b =>
      TuePosts s.dev b (recsOf e 0x43 (flushRecs s.dev e)) ∧ OnlyRegs [] s.dev b ∧ OnlyBytes 0 0 s.dev b := by
  have hwait : fwdFlush e s.dev = .wait (s.dev.tuePost (recsOf e 0x43 (flushRecs s.dev e))) :=
    (fwdFlush_flows (notOwner_owns howns) hm hv).trans (postAll_posts hrs ..)
  exact waits_of_posts hs (exec_fwdFlush ..) hwait fun b hb hag =>
    ⟨hb, onlyRegs_of_agree hag (by decide), onlyBytes_of_hbm_eq (hag .hbm (by decide))⟩

end

/-- The descriptor of a shadow: the table's own, but for its place, its size and its seeds. -/
def shadowOf (d : Dev) (t base lg : Nat) : TblDesc :=
  { d.desc t with base := base, log2b := lg, seed1 := Config.freeNat d.serial 0 % 2 ^ 32, seed2 := Config.freeNat d.serial 1 % 2 ^ 32 }

/-- The device with an empty shadow under construction. -/
def rehashBegun (d : Dev) (e : AdmEntry) (t base lg : Nat) : Dev :=
  let c := d.draw.2.hbmClear base (2 ^ lg * 256)
  { c with fwd := { c.fwd with rehash := c.fwd.rehash ++ [{ table := t, e := e, shadow := shadowOf d t base lg }] } }

theorem kvFind_filter_none {α : Type} {j : Nat} {p : Nat → Bool} (h : p j = false) (m : Kv α) :
    kvFind j (m.filter (fun e => p e.1)) = none := by
  induction m with
  | nil => rfl
  | cons a r ih =>
    obtain ⟨i, x⟩ := a
    by_cases hi : p i = true
    · have hne : i ≠ j := fun e => by simp [← e, hi] at h
      simp [hi, kvFind, hne, ih]
    · simp [hi, ih]

theorem byte_hbmClear_inside {d : Dev} {a n x : Nat} (h : a ≤ x ∧ x < a + n) : (d.hbmClear a n).hbm.byte x = 0#8 := by
  have hgone : (fun c => !decide (a ≤ c ∧ c < a + n)) x = false := by simpa using h
  exact congrArg (Option.getD · 0#8) (kvFind_filter_none (p := fun c => !decide (a ≤ c ∧ c < a + n)) hgone d.hbm.cells)

theorem byte_hbmClear_outside {d : Dev} {a n x : Nat} (h : x < a ∨ a + n ≤ x) : (d.hbmClear a n).hbm.byte x = d.hbm.byte x := by
  have hkeep : (fun c => !decide (a ≤ c ∧ c < a + n)) x = true := by simp; omega
  exact congrArg (Option.getD · 0#8) (kvFind_filter_key (p := fun c => !decide (a ≤ c ∧ c < a + n)) hkeep d.hbm.cells)

theorem fwdRehash_empty {d : Dev} {e : AdmEntry} {t lg base : Nat} (hpriv : d.privOf e = true) (ht : t = fld e.d2 7 0)
    (htab : t = 1 ∨ t = 2 ∨ t = 6) (hlg : lg = fld e.d4 7 0) (hbase : base = e.d3.toNat) (halign : base % 256 = 0)
    (htop : base + 2 ^ lg * 256 ≤ hbmReserved) (hlo : 10 ≤ lg) (hhi : lg ≤ (if t = 1 then 25 else if t = 2 then 18 else 23))
    (hv : (d.desc t).v = true) (hfree : ∀ r ∈ d.fwd.rehash, r.table ≠ t)
    (hapart : (d.desc t).base + (d.desc t).extent t ≤ base ∨ base + 2 ^ lg * 256 ≤ (d.desc t).base)
    (hempty : d.tblLines (d.desc t) = []) :
    fwdRehash e d = .wait (rehashBegun d e t base lg) := by
  have hext : (shadowOf d t base lg).extent t = 2 ^ lg * 256 := by
    have h3 : t ≠ 3 := by omega
    have h4 : t ≠ 4 := by omega
    simp [TblDesc.extent, h3, h4, shadowOf]
  have hrange : ¬(base % 256 ≠ 0 ∨ hbmReserved < base + 2 ^ lg * 256) := by omega
  have hsize : ¬(lg < 10 ∨ (if t = 1 then 25 else if t = 2 then 18 else 23) < lg) := by omega
  have hover : ¬(base < (d.desc t).base + (d.desc t).extent t ∧ (d.desc t).base < base + 2 ^ lg * 256) := by omega
  have hany : d.fwd.rehash.any (fun r => decide (r.table = t)) = false := by
    simpa using hfree
  unfold fwdRehash
  dsimp only
  rw [← ht, ← hlg, ← hbase, admChecks_pass]
  · have hnone : d.draw.2.tblLines (d.desc t) = [] := hempty
    have hext' : TblDesc.extent { d.desc t with
        base := base, log2b := lg, seed1 := Config.freeNat d.draw.1 0 % 2 ^ 32, seed2 := Config.freeNat d.draw.1 1 % 2 ^ 32 } t =
        2 ^ lg * 256 := hext
    rw [hnone, hext']
    rfl
  · simp [hpriv, htab, hrange, hsize, hv, hany, hover]

/-! What a rebuild begun has changed. -/

theorem regs_rehashBegun (d : Dev) (e : AdmEntry) (t base lg : Nat) : (rehashBegun d e t base lg).regs = d.regs := rfl

theorem fwd_rehashBegun (d : Dev) (e : AdmEntry) (t base lg : Nat) : (rehashBegun d e t base lg).fwd =
    { d.fwd with rehash := d.fwd.rehash ++ [{ table := t, e := e, shadow := shadowOf d t base lg }] } := rfl

theorem hbm_rehashBegun (d : Dev) (e : AdmEntry) (t base lg : Nat) :
    (rehashBegun d e t base lg).hbm = (d.hbmClear base (2 ^ lg * 256)).hbm := rfl

theorem fwdRehash_waits {s : State} {e : AdmEntry} {t lg base : Nat} (hs : AdmReady s) (hpriv : Priv e s) (ht : t = fld e.d2 7 0)
    (htab : t = 1 ∨ t = 2 ∨ t = 6) (hlg : lg = fld e.d4 7 0) (hbase : base = e.d3.toNat) (halign : base % 256 = 0)
    (htop : base + 2 ^ lg * 256 ≤ hbmReserved) (hlo : 10 ≤ lg) (hhi : lg ≤ (if t = 1 then 25 else if t = 2 then 18 else 23))
    (hv : (s.dev.desc t).v = true) (hfree : ∀ r ∈ s.dev.fwd.rehash, r.table ≠ t)
    (hapart : (s.dev.desc t).base + (s.dev.desc t).extent t ≤ base ∨ base + 2 ^ lg * 256 ≤ (s.dev.desc t).base)
    (hempty : s.dev.tblLines (s.dev.desc t) = []) : Waits (.fwdRehash e) e s fun b =>
      (∃ x : TblDesc, b.fwd.rehash = s.dev.fwd.rehash ++ [{ table := t, e := e, shadow := x }] ∧ x.base = base ∧ x.log2b = lg ∧
        x.v = true) ∧
      b.fwd.desc = s.dev.fwd.desc ∧ (∀ i, i < 2 ^ lg * 256 → b.hbm.byte (base + i) = 0#8) ∧
      OnlyBytes base (2 ^ lg * 256) s.dev b ∧ OnlyRegs [] s.dev b := by
  have ⟨_, _, hnone⟩ := hs
  have hwait := fwdRehash_empty ((privOf_of_taken_nil hnone e).trans hpriv) ht htab hlg hbase halign htop hlo hhi hv hfree hapart hempty
  refine runs_of_wait hs (exec_fwdRehash ..) hwait fun b hw hag => ⟨hw, ?_⟩
  have hfwd := (hag .fwd (by decide)).trans (fwd_rehashBegun ..)
  have hhbm := (hag .hbm (by decide)).trans (hbm_rehashBegun ..)
  have hregs := (hag .regs (by decide)).trans (regs_rehashBegun ..)
  refine ⟨⟨shadowOf s.dev t base lg, ?_, rfl, rfl, hv⟩, ?_, fun i hi => ?_, fun y hy => ?_, onlyRegs_of_regs_eq hregs⟩
  · rw [hfwd]
  · rw [hfwd]
  · rw [hhbm, byte_hbmClear_inside (by omega)]
  · rw [hhbm, byte_hbmClear_outside hy]

theorem fwdTblCfg_waits {s : State} {e : AdmEntry} (hs : AdmReady s) (hpriv : Priv e s)
    (ht : fld e.d2 7 0 = 1 ∨ fld e.d2 7 0 = 2 ∨ fld e.d2 7 0 = 3 ∨ fld e.d2 7 0 = 4 ∨ fld e.d2 7 0 = 6) (hl : e.len = 64)
    (hbuf : e.bufErr = none) (hdesc : descBad (fld e.d2 7 0) (fitTo 64 e.buf) = none)
    (hv : (s.dev.tueAhead.desc (fld e.d2 7 0)).v = false) : Waits (.fwdTblCfg e) e s fun b =>
      TuePosts s.dev b [{ op := 0x30, table := fld e.d2 7 0, payload := fitTo 64 e.buf, poster := .adm e 0x38 0 0 true }] ∧
      b.fwd = s.dev.fwd ∧ OnlyRegs [] s.dev b ∧ OnlyBytes 0 0 s.dev b := by
  have ⟨_, _, hnone⟩ := hs
  have hwait := fwdTblCfg_posts ((privOf_of_taken_nil hnone e).trans hpriv) ht hl hbuf hdesc hv
  exact waits_of_posts hs (exec_fwdTblCfg ..) hwait fun b hb hag =>
    ⟨hb, hag .fwd (by decide), onlyRegs_of_agree hag (by decide), onlyBytes_of_hbm_eq (hag .hbm (by decide))⟩

/-- Settles O34, command by command: the checks pass, and what the command posts or writes is the record that the clause names. -/
theorem forwardingCommands : Obligations.ForwardingCommands := by
  unfold Obligations.ForwardingCommands
  refine ⟨?tables, ?entries, ?actions, ?counters, ?flush⟩
  case tables =>
    rintro s e t hs hpriv rfl
    exact ⟨fun ht hl hbuf hdesc hv => fwdTblCfg_waits hs hpriv ht hl hbuf hdesc hv,
      fun lg base ht hlg hbase halign htop hlo hhi hv hfree hapart hempty =>
        fwdRehash_waits hs hpriv rfl ht hlg hbase halign htop hlo hhi hv hfree hapart hempty⟩
  case entries =>
    intro s e line a hs howns hr
    refine ⟨?flowAdd, ?macAdd, ?keys, ?bridge, ?pool, ?tenancy⟩
    case flowAdd =>
      rintro hl hv hbuf hty hten hlen hcnt rfl
      have hrun := fwdFlowAdd_checked (notOwner_owns howns) hl hv hbuf hty hten hlen hcnt
      exact ⟨fun hf ha => insert_waits hs hr (exec_fwdFlowAdd ..) hrun hf ha,
        fun hf hrep => insert_refused hs (exec_fwdFlowAdd ..) (hrep ▸ hrun) hf⟩
    case macAdd =>
      rintro br hv hb hten hdest rfl hf ha
      exact insert_waits hs hr (exec_fwdMacAdd ..) (fwdMacAdd_checked (notOwner_owns howns) hv hb hten hdest) hf ha
    case keys =>
      intro t ht hkey hv hbuf hten hlen
      exact ⟨fun hl hf => fwdFlowDel_none_runs hs howns ht hkey hv hbuf hten hlen hr hl hf,
        fun hl hf => fwdFlowDel_found_waits hs howns ht hkey hv hbuf hten hlen hr hl hf,
        fun hl hf => fwdFlowRead_none_runs hs howns ht hkey hv hbuf hten hlen hl hf,
        fun hl hf => fwdFlowRead_found_completes hs howns ht hkey hv hbuf hten hlen hl hf⟩
    case bridge => exact fun h1 h2 hv hnew => fwdBridgeCfg_completes hs howns h1 h2 hv hnew
    case pool => exact fun haddr hport hv hnew => fwdNatPool_completes hs howns haddr hport hv hnew
    case tenancy => exact fun hv => fwdTenCfg_completes hs howns hv
  case actions =>
    rintro s e i h hs howns hdev hi hin hl hv hbuf hfree rfl htmpl
    exact fwdActWrite_waits hs howns hdev hi hin hl hv hbuf hfree htmpl
  case counters =>
    intro s e c hs howns hdev hc hv hin
    exact ⟨fun hm => ⟨fwdCntRead_completes hs howns hdev hc hv hin hm, fwdCntReadClear_completes hs howns hdev hc hv hin hm,
        fwdCntRelease_waits hs howns hdev hc hv hin hm⟩,
      fun hm => fwdCntRead_refused hs howns hdev hc hv hin hm, fun hfree => fwdCntClaim_waits hs howns hdev hc hv hin hfree⟩
  case flush =>
    rintro s e rs hs howns hm hv rfl
    exact ⟨fun hrs => fwdFlush_nothing_completes hs howns hm hv hrs, fun hrs => fwdFlush_lines_waits hs howns hm hv hrs⟩

end Sys2Proof.Proofs

/-! States that meet the conditions of the statements about forwarding, with what the commands then do. -/

namespace Sys2Proof.Proofs

open Sys2Proof Sys2Proof.Machine Sys2Proof.Laws

/-- A classified frame of one byte that names the last action list. -/
def lastListFrame : Packet := { pool := 0, cells := 1, data := [0#8], stage := .classified, cls := { av := true, action := 131071 } }

/-- The header of a device's action entry with one word, and the word PORT 15. -/
def lastListBytes : List Byte := leBytes 8 (2 ^ 63 + 2 ^ 61 + 1) ++ leBytes 8 (2 ^ 56 + 15)

/-- The state after reset with that frame, and an action table at the bottom of HBM that has those bytes in its last entry. -/
def lastListWaits : State :=
  { State.reset with dev := ((State.reset.dev.hbmWrite (64 * 131071) lastListBytes).setDesc 3 { v := true }).setPkt 0 lastListFrame }

theorem forwardFrame_last_list : Runs (.forwardFrame 0 {}) lastListWaits fun b =>
    (∃ q, b.pkt 0 = some q ∧ q.stage = .port 15 ∧ q.data = [0#8]) ∧ (b.netPort 15).txq = [0] := by
  obtain ⟨hone, -⟩ := forwarding
  obtain ⟨-, -, hwords⟩ := hone lastListWaits 0 131071 15 lastListFrame ((lastListWaits.dev.action 131071).headD 0) rfl rfl rfl rfl
    (.inl ⟨rfl, rfl⟩) rfl (by decide)
  obtain ⟨hport, -⟩ := hwords (by decide) (by decide)
  obtain ⟨t, he, hq, ⟨q, hk, hst, hdata, -⟩, htxq, -⟩ := hport (by decide) rfl rfl
  exact ⟨t, he, hq, ⟨q, hk, hst, hdata⟩, by rw [htxq]; rfl⟩

/-- The state after reset with a flow table of 1,024 buckets, ageing enabled, and the sweep at the last bucket. -/
def sweepAtEnd : State :=
  { State.reset with dev :=
      { State.reset.dev with
        regs := (State.reset.dev.setReg (Reg.FWD_AGE_CFG 0) 0x80000000#32).regs
        fwd := { State.reset.dev.fwd with desc := [(1, { v := true, log2b := 10 })], sweep := [1023, 0, 0] } } }

theorem sweepVisit_wraps : Runs (.sweepVisit 0) sweepAtEnd fun b => b.fwd.sweep = [0, 0, 0] := by
  obtain ⟨-, -, -, hsweep, -⟩ := tableEngines
  obtain ⟨hidle, -⟩ := hsweep sweepAtEnd 1023 rfl rfl (by decide) (by decide)
  obtain ⟨t, he, hq, hnext, -⟩ := hidle (by decide)
  exact ⟨t, he, hq, hnext⟩

/-- FWD_BRIDGE_CFG of bridge 16,383 for tenancy 1, with the highest limit. -/
def bridgeEntry : AdmEntry := { pf := 0, tag := 1, d2 := 0x3fff00000001, d4 := 1048576 }

/-- The state after reset with a MAC table. -/
def macTable : State := { State.reset with dev := State.reset.dev.setDesc 2 { v := true, log2b := 10 } }

theorem fwdBridgeCfg_highest : Completes (.fwdBridgeCfg bridgeEntry) bridgeEntry 0x3D macTable fun b =>
    kvFind 16383 b.fwd.bridges = some { ten := 1, en := false, learn := false, limit := 1048576, flood := 0 } := by
  obtain ⟨-, hentries, -⟩ := forwardingCommands
  obtain ⟨-, -, -, hbridge, -⟩ := hentries macTable bridgeEntry [] 0 ⟨rfl, by decide, rfl⟩ (.inl (by decide)) rfl
  obtain ⟨t, he, hq, hdone, hnew, -⟩ := hbridge (by decide) (by decide) rfl (by decide)
  exact ⟨t, he, hq, hdone, hnew⟩

end Sys2Proof.Proofs

/-! Key slots: commands that read them, what they check, and the slot they write (R265 to R270, R286, R288). -/

namespace Sys2Proof.Proofs

open Sys2Proof Sys2Proof.Machine Sys2Proof.Laws

-- The check elaborates the text as one file, its proofs in parallel and each thread with memory of its own. Under this option a proof
-- is elaborated by the thread that reads the text: the proofs from here on need no threads beside those of the proofs above.
set_option deprecated.oldSectionVars true

theorem exec_cryKeyPut (e : AdmEntry) (s : State) : exec (.cryKeyPut e) s =
    s.run (·.keyRun e 0x48 (if bitOf e.d3 52 then [fld e.d3 51 32] else []) (cryKeyPut e)) := rfl

theorem exec_cryKeyGen (e : AdmEntry) (s : State) : exec (.cryKeyGen e) s = s.run (·.admRun e 0x49 (cryKeyGen e)) := rfl

theorem exec_cryKeyDerive (e : AdmEntry) (s : State) :
    exec (.cryKeyDerive e) s = s.run (·.keyRun e 0x4A [fld e.d3 51 32] (cryKeyDerive e)) := rfl

theorem exec_cryKeyExport (e : AdmEntry) (s : State) :
    exec (.cryKeyExport e) s = s.run (·.keyRun e 0x4B [AdmEntry_slot e, fld e.d3 51 32] (cryKeyExport e)) := rfl

theorem exec_cryKeyZero (e : AdmEntry) (s : State) : exec (.cryKeyZero e) s = s.run (·.admRun e 0x4C (cryKeyZero e)) := rfl

/-- While every slot that it reads unwraps, such a command runs as any other (R266). -/
theorem keyRun_of_good {d : Dev} {uses : List Nat} (h : ∀ n ∈ uses, d.slotBad n = false) (e : AdmEntry) (opc : Nat)
    (f : Dev → AdmRes) : d.keyRun e opc uses f = d.admRun e opc f := by
  have hnone : uses.find? d.slotBad = none := List.find?_eq_none.2 fun n hn => by simp [h n hn]
  unfold Dev.keyRun Dev.admRun
  split
  · rfl
  · rw [hnone]
    cases f d <;> simp [*]

/-- One that a check refuses reads no slot. -/
theorem keyRun_of_fail {d : Dev} {f : Dev → AdmRes} {st det : Nat} (h : f d = .fail st det) (e : AdmEntry) (opc : Nat)
    (uses : List Nat) : d.keyRun e opc uses f = d.admRun e opc f := by
  simp only [Dev.keyRun, Dev.admRun, h]

theorem run_keyRun_of_good {s : State} {e : AdmEntry} {opc : Nat} {uses : List Nat} {f : Dev → AdmRes}
    (h : ∀ n ∈ uses, s.dev.slotBad n = false) : s.run (·.keyRun e opc uses f) = s.run (·.admRun e opc f) :=
  run_congr (keyRun_of_good h e opc f)

theorem run_keyRun_of_fail {s : State} {e : AdmEntry} {opc st det : Nat} {f : Dev → AdmRes} (h : f s.dev = .fail st det)
    (uses : List Nat) : s.run (·.keyRun e opc uses f) = s.run (·.admRun e opc f) :=
  run_congr (keyRun_of_fail h e opc uses)

/-! Lists of checks. -/

theorem firstFail_append (l r : List (Bool × Nat × Nat)) : firstFail (l ++ r) = (firstFail l).or (firstFail r) := by
  induction l with
  | nil => rfl
  | cons c l ih =>
    obtain ⟨bad, st, det⟩ := c
    cases bad <;> simp [firstFail, ih]

theorem admChecks_fail {l : List (Bool × Nat × Nat)} {st det : Nat} (h : firstFail l = some (st, det)) (k : Unit → AdmRes) :
    admChecks l k = .fail st det := by rw [admChecks, h]

/-- The checks before a list of checks pass, and that list refuses. -/
theorem admChecks_fail_after {l r : List (Bool × Nat × Nat)} {st det : Nat} (hl : Passes l) (hr : firstFail r = some (st, det))
    (k : Unit → AdmRes) : admChecks (l ++ r) k = .fail st det :=
  admChecks_fail (by rw [firstFail_append, show firstFail l = none from hl, hr]; rfl) k

theorem keyOwner_ten {e : AdmEntry} (h : bitOf e.d2 12 = false) : keyOwner e = some e.ten := by simp [keyOwner, AdmEntry_dev, h]

theorem keyAccess_passes {s : State} {e : AdmEntry} (ho : Owns e e.ten s) (h : bitOf e.d2 12 = false) :
    Passes (s.dev.keyAccess e) := by
  simp [Dev.keyAccess, AdmEntry_dev, h, notOwner_owns ho]

@[simp] theorem keyState_passes (d : Dev) (t : Nat) : (d.keyState t).1 = false ↔ (d.tenGet t).st = 2 ∨ (d.tenGet t).st = 3 := by
  simp [Dev.keyState, or_iff_not_imp_left]

theorem keyTen_passes {d : Dev} {e : AdmEntry} (hst : (d.tenGet e.ten).st = 2 ∨ (d.tenGet e.ten).st = 3) : (d.keyTen e).1 = false := by
  unfold Dev.keyTen
  split
  · rfl
  · exact (keyState_passes d e.ten).2 hst

/-- A free slot takes a key of a tenancy within its quota. -/
theorem newSlot_passes {d : Dev} {t n : Nat} (hfree : d.slot n = none) (hquota : d.keysOf t < (d.tenGet t).keys) (priv : Bool) :
    Passes (d.newSlot priv (some t) n) := by
  simp [Dev.newSlot, hfree, hquota]

/-- A slot holds a key of a tenancy. -/
def SlotOf (d : Dev) (t n : Nat) (k : KeySlot) : Prop := d.slot n = some k ∧ k.dev = false ∧ k.ten = t

theorem useSlot_passes {d : Dev} {t n b : Nat} {k : KeySlot} (h : SlotOf d t n k) (hb : b < 7 → k.may b = true) (priv : Bool) :
    Passes (d.useSlot priv (some t) n b) := by
  obtain ⟨hn, hdev, hten⟩ := h
  by_cases hb7 : b < 7 <;> simp [Dev.useSlot, hn, hdev, hten, hb7, hb]

/-- A command that needs no usage takes any key of the tenancy. -/
theorem useSlot_owned {d : Dev} {t n : Nat} {k : KeySlot} (h : SlotOf d t n k) (priv : Bool) : Passes (d.useSlot priv (some t) n 7) :=
  useSlot_passes h (fun h7 => absurd h7 (Nat.lt_irrefl 7)) priv

theorem useSlot_unfit {d : Dev} {t n b : Nat} {k : KeySlot} (h : SlotOf d t n k) (hb7 : b < 7) (hb : k.may b = false) (priv : Bool) :
    firstFail (d.useSlot priv (some t) n b) = some (St.DENIED, 4) := by
  obtain ⟨hn, hdev, hten⟩ := h
  simp [Dev.useSlot, firstFail, hn, hdev, hten, hb7, hb]

/-- Its material. -/
theorem material_of_slot {d : Dev} {t n : Nat} {k : KeySlot} (h : SlotOf d t n k) :
    ((d.slot n).map (·.material)).getD [] = k.material := by rw [h.1]; rfl

/-- A generated or derived key of a type that takes one, with usages that the type may have (R267, R288). -/
theorem genRange_passes {e : AdmEntry} (hty : 1 ≤ fld e.d3 7 0 ∧ fld e.d3 7 0 ≤ 4 ∨ fld e.d3 7 0 = 11)
    (hus : within (fld e.d3 15 8) (usageMask (fld e.d3 7 0)) = true) (hlen : keyLenOk (fld e.d3 7 0) (genLen e) = true) :
    Passes (genRange e) := by
  simp [genRange, hty, hus, hlen]

/-! Slots. -/

theorem slot_of_cry {a b : Dev} (h : b.cry.slots = a.cry.slots) (n : Nat) : b.slot n = a.slot n := by rw [Dev.slot, h, Dev.slot]

/-- One slot was written, and no other. -/
theorem slot_of_put {a b : Dev} {t n ty us o : Nat} {m : List Byte} (h : b.cry.slots = (a.putSlot (some t) n ty us o m).cry.slots) :
    b.slot n = some { dev := false, ten := t, type := ty, usage := us, origin := o, material := m } ∧
    ∀ k, k ≠ n → b.slot k = a.slot k := by
  refine ⟨?_, fun k hk => ?_⟩
  · rw [slot_of_cry h]
    exact kvFind_kvPut_self ..
  · rw [slot_of_cry h]
    exact kvFind_kvPut_ne hk ..

/-- What completes with a property completes with a weaker one. -/
theorem completes_imp {c : Instr} {e : AdmEntry} {opc : Nat} {s : State} {P Q : Dev → Prop} (h : Completes c e opc s P)
    (hpq : ∀ b, P b → Q b) : Completes c e opc s Q := by
  obtain ⟨t, he, hq, hdone, hp⟩ := h
  exact ⟨t, he, hq, hdone, hpq _ hp⟩

/-- A key command that puts a key in a slot: that slot, no other, no context and no register. Before it the command may draw random
bytes. -/
theorem completes_of_putSlot {c : Instr} {e : AdmEntry} {opc t n ty us o : Nat} {m : List Byte} {s : State} {f : Dev → AdmRes} {d : Dev}
    (hs : AdmReady s) (he : exec c s = s.run (·.admRun e opc f)) (hf : f s.dev = .done (d.putSlot (some t) n ty us o m))
    (hd : Rel 17213423616 s.dev d) (hslots : d.cry.slots = s.dev.cry.slots) (hctxs : d.cry.ctxs = s.dev.cry.ctxs) :
    Completes c e opc s fun b =>
      b.slot n = some { dev := false, ten := t, type := ty, usage := us, origin := o, material := m } ∧
      (∀ k, k ≠ n → b.slot k = s.dev.slot k) ∧ b.cry.ctxs = s.dev.cry.ctxs ∧ OnlyRegs [] s.dev b := by
  have hrel : Rel 17213423616 s.dev (d.putSlot (some t) n ty us o m) := hd.trans ((rel_Dev_putSlot ..).mono (by decide))
  refine completes_of_change hs he hf (by rwa [hf]) (fun b _ hk => ?_) (by decide) (by decide)
  have hcry : b.cry = (d.putSlot (some t) n ty us o m).cry := hk .cry (by decide)
  have hregs : (d.putSlot (some t) n ty us o m).regs = s.dev.regs := hrel.same .regs (by decide)
  obtain ⟨hnew, hother⟩ := slot_of_put (congrArg CryPart.slots hcry)
  refine ⟨hnew, fun k hn => (hother k hn).trans (slot_of_cry hslots k), ?_, onlyRegs_of_regs_eq ((hk .regs (by decide)).trans hregs)⟩
  rw [hcry]
  exact hctxs

/-- Of these effects, those on the slots and the registers. -/
theorem completes_of_key {c : Instr} {e : AdmEntry} {opc t n ty us o : Nat} {m : List Byte} {s : State} {f : Dev → AdmRes} {d : Dev}
    (hs : AdmReady s) (he : exec c s = s.run (·.admRun e opc f)) (hf : f s.dev = .done (d.putSlot (some t) n ty us o m))
    (hd : Rel 17213423616 s.dev d) (hslots : d.cry.slots = s.dev.cry.slots) (hctxs : d.cry.ctxs = s.dev.cry.ctxs) :
    Completes c e opc s fun b =>
      b.slot n = some { dev := false, ten := t, type := ty, usage := us, origin := o, material := m } ∧
      (∀ k, k ≠ n → b.slot k = s.dev.slot k) ∧ OnlyRegs [] s.dev b :=
  completes_imp (completes_of_putSlot hs he hf hd hslots hctxs) fun _ ⟨hnew, hother, _, hregs⟩ => ⟨hnew, hother, hregs⟩

/-! CRY_KEY_PUT, CRY_KEY_GEN and CRY_KEY_DERIVE (R267, R269 to R273). -/

section
variable {s : State} {e : AdmEntry} (hs : AdmReady s) (ho : Owns e e.ten s) (hdev : bitOf e.d2 12 = false)
  (hst : (s.dev.tenGet e.ten).st = 2 ∨ (s.dev.tenGet e.ten).st = 3) (hfree : s.dev.slot (AdmEntry_slot e) = none)
  (hquota : s.dev.keysOf e.ten < (s.dev.tenGet e.ten).keys)
  (hus : within (fld e.d3 15 8) (usageMask (fld e.d3 7 0)) = true) (hmig : fld e.d3 15 8 / 64 % 2 = 0)
include ho hdev hst hfree hquota hus hmig

/-- A key in the clear. -/
theorem cryKeyPut_plain (hty : usageMask (fld e.d3 7 0) ≠ 0) (hw : bitOf e.d3 52 = false) (hlen : keyLenOk (fld e.d3 7 0) e.len = true)
    (hbuf : e.bufErr = none) : cryKeyPut e s.dev =
      .done (s.dev.putSlot (some e.ten) (AdmEntry_slot e) (fld e.d3 7 0) (fld e.d3 15 8) 1 (fitTo e.len e.buf)) := by
  unfold cryKeyPut
  dsimp only
  simp only [hw, keyOwner_ten hdev, Bool.false_eq_true, if_false, false_and, decide_false, Bool.or_false, Nat.sub_zero]
  exact admChecks_pass (by
    simp [keyAccess_passes ho hdev, hty, hus, hmig, hlen, keyTen_passes hst, newSlot_passes hfree hquota, hbuf]) _

/-- What CRY_KEY_PUT of a wrapped key comes down to: the unwrap. -/
theorem cryKeyPut_wrapped (hty : usageMask (fld e.d3 7 0) ≠ 0) {k : KeySlot} (hw : bitOf e.d3 52 = true)
    (hk : SlotOf s.dev e.ten (fld e.d3 51 32) k) (hwrap : k.may Key.WRAP = true) (h8 : 8 ≤ e.len)
    (hlen : keyLenOk (fld e.d3 7 0) (e.len - 8) = true) (hbuf : e.bufErr = none) : cryKeyPut e s.dev =
      (keyUnwrap k.material (fitTo e.len e.buf)).elim (.fail St.INTEGRITY 0x12) fun m =>
        .done (s.dev.putSlot (some e.ten) (AdmEntry_slot e) (fld e.d3 7 0) (fld e.d3 15 8) 1 m) := by
  have h8' : ¬e.len < 8 := by omega
  unfold cryKeyPut
  dsimp only
  simp only [hw, keyOwner_ten hdev, if_true, material_of_slot hk]
  cases hm : keyUnwrap k.material (fitTo e.len e.buf) with
  | none =>
    rw [List.append_cons]
    exact admChecks_last (by
      simp [keyAccess_passes ho hdev, hty, hus, hmig, hlen, h8', keyTen_passes hst, newSlot_passes hfree hquota,
        useSlot_passes hk (fun _ => hwrap), hbuf]) ..
  | some m =>
    exact admChecks_pass (by
      simp [keyAccess_passes ho hdev, hty, hus, hmig, hlen, h8', keyTen_passes hst, newSlot_passes hfree hquota, hbuf,
        useSlot_passes hk (fun _ => hwrap)]) _

theorem cryKeyGen_entropy (hty : 1 ≤ fld e.d3 7 0 ∧ fld e.d3 7 0 ≤ 4 ∨ fld e.d3 7 0 = 11)
    (hlen : keyLenOk (fld e.d3 7 0) (genLen e) = true) (hent : s.dev.noEntropy = false) : cryKeyGen e s.dev =
      .done ((s.dev.drbg (genLen e) true).2.putSlot (some e.ten) (AdmEntry_slot e) (fld e.d3 7 0) (fld e.d3 15 8) 2
        (freeBytes s.dev.serial (genLen e))) := by
  unfold cryKeyGen
  rw [keyOwner_ten hdev]
  exact admChecks_pass (by
    simp [keyAccess_passes ho hdev, genRange_passes hty hus hlen, hmig, keyTen_passes hst, newSlot_passes hfree hquota, hent]) _

theorem cryKeyGen_no_entropy (hty : 1 ≤ fld e.d3 7 0 ∧ fld e.d3 7 0 ≤ 4 ∨ fld e.d3 7 0 = 11)
    (hlen : keyLenOk (fld e.d3 7 0) (genLen e) = true) (hent : s.dev.noEntropy = true) :
    cryKeyGen e s.dev = .fail St.INTEGRITY 0x20 := by
  unfold cryKeyGen
  rw [keyOwner_ten hdev, hent]
  exact admChecks_last (by
    simp [keyAccess_passes ho hdev, genRange_passes hty hus hlen, hmig, keyTen_passes hst, newSlot_passes hfree hquota]) ..

theorem cryKeyDerive_done (hty : 1 ≤ fld e.d3 7 0 ∧ fld e.d3 7 0 ≤ 4 ∨ fld e.d3 7 0 = 11)
    (hlen : keyLenOk (fld e.d3 7 0) (genLen e) = true) {k : KeySlot} (hk : SlotOf s.dev e.ten (fld e.d3 51 32) k)
    (hmay : k.may Key.DERIVE = true) (hlo : 2 ≤ e.len) (hhi : e.len ≤ 1024) (hbuf : e.bufErr = none)
    (hsalt : 2 + leAt (fitTo e.len e.buf) 0 2 ≤ e.len) : cryKeyDerive e s.dev =
      .done (s.dev.putSlot (some e.ten) (AdmEntry_slot e) (fld e.d3 7 0) (fld e.d3 15 8) 3
        (hkdf (fld e.d4 1 0) k.material (slice (fitTo e.len e.buf) 2 (leAt (fitTo e.len e.buf) 0 2))
          ((fitTo e.len e.buf).drop (2 + leAt (fitTo e.len e.buf) 0 2)) (genLen e))) := by
  unfold cryKeyDerive
  dsimp only
  rw [keyOwner_ten hdev, hk.1]
  exact admChecks_pass (by
    simp [keyAccess_passes ho hdev, genRange_passes hty hus hlen, hmig, keyTen_passes hst, newSlot_passes hfree hquota,
      useSlot_passes hk (fun _ => hmay), hhi, Nat.lt_of_succ_le hlo, hbuf, hsalt]) _

end

/-! CRY_KEY_EXPORT and CRY_KEY_ZERO (R271, R286, R287). -/

/-- A slot that nothing names takes no context and no session with it. -/
theorem loseContexts_unused {d : Dev} {n : Nat} (hctxs : ∀ c ∈ d.cry.ctxs, c.2.names n = false)
    (hworks : ∀ w ∈ d.arc.works, w.names n = false) : d.loseContexts n = d := by
  have hw : d.arc.works.filter (fun w => w.names n) = [] := List.filter_eq_nil_iff.2 fun w h => by simp [hworks w h]
  have hc : d.cry.ctxs.filter (fun c => c.2.names n) = [] := List.filter_eq_nil_iff.2 fun c h => by simp [hctxs c h]
  unfold Dev.loseContexts
  dsimp only
  rw [hw, List.foldl_nil, hc, List.foldl_nil]

section
variable {s : State} {e : AdmEntry} (ho : Owns e e.ten s) (hdev : bitOf e.d2 12 = false)
  (hst : (s.dev.tenGet e.ten).st = 2 ∨ (s.dev.tenGet e.ten).st = 3)
include ho hdev hst

theorem cryKeyExport_wraps {k x : KeySlot} (hk : SlotOf s.dev e.ten (AdmEntry_slot e) k) (hmay : k.may Key.EXPORT = true)
    (hx : SlotOf s.dev e.ten (fld e.d3 51 32) x) (hwrap : x.may Key.WRAP = true) (hlen : k.material.length + 8 ≤ e.len) :
    cryKeyExport e s.dev = .done s.dev 0 (k.material.length + 8) (keyWrap x.material k.material) := by
  unfold cryKeyExport
  dsimp only
  rw [keyOwner_ten hdev, material_of_slot hk, material_of_slot hx]
  exact admChecks_pass (by
    simp [keyAccess_passes ho hdev, keyTen_passes hst, useSlot_passes hk (fun _ => hmay), useSlot_passes hx (fun _ => hwrap), hlen]) _

theorem cryKeyExport_denied {k : KeySlot} (hk : SlotOf s.dev e.ten (AdmEntry_slot e) k) (hmay : k.may Key.EXPORT = false) :
    cryKeyExport e s.dev = .fail St.DENIED 4 := by
  unfold cryKeyExport
  dsimp only
  rw [keyOwner_ten hdev, List.append_assoc, List.append_assoc]
  refine admChecks_fail_after (by simp [keyAccess_passes ho hdev, keyTen_passes hst]) ?_ _
  rw [firstFail_append, useSlot_unfit hk (by decide) hmay]
  rfl

/-- What CRY_KEY_ZERO comes down to once the tenancy may run it. -/
theorem cryKeyZero_free (hfree : s.dev.slot (AdmEntry_slot e) = none) : cryKeyZero e s.dev = .done s.dev 1 := by
  unfold cryKeyZero
  dsimp only
  rw [admChecks_pass (by simp [keyAccess_passes ho hdev, keyTen_passes hst]), hfree]
  rfl

theorem cryKeyZero_used {k : KeySlot} {c : Nat} {y : CryCtx} (hk : SlotOf s.dev e.ten (AdmEntry_slot e) k)
    (hy : (c, y) ∈ s.dev.cry.ctxs) (hnames : y.names (AdmEntry_slot e) = true) (hforce : bitOf e.d3 0 = false) :
    cryKeyZero e s.dev = .fail St.STATE 2 := by
  have hused : s.dev.cry.ctxs.any (fun c => c.2.names (AdmEntry_slot e)) = true := List.any_eq_true.2 ⟨_, hy, hnames⟩
  unfold cryKeyZero
  dsimp only
  rw [admChecks_pass (by simp [keyAccess_passes ho hdev, keyTen_passes hst]), hk.1, hused, hforce, keyOwner_ten hdev]
  exact (if_neg Bool.false_ne_true).trans (admChecks_last (useSlot_owned hk _) ..)

theorem cryKeyZero_unused {k : KeySlot} (hk : SlotOf s.dev e.ten (AdmEntry_slot e) k)
    (hctxs : ∀ c ∈ s.dev.cry.ctxs, c.2.names (AdmEntry_slot e) = false)
    (hworks : ∀ w ∈ s.dev.arc.works, w.names (AdmEntry_slot e) = false) :
    cryKeyZero e s.dev = .done (s.dev.zeroSlot (AdmEntry_slot e)) := by
  have hc : s.dev.cry.ctxs.any (fun c => c.2.names (AdmEntry_slot e)) = false := List.any_eq_false.2 fun c h => by simp [hctxs c h]
  have hw : s.dev.arc.works.any (fun w => w.names (AdmEntry_slot e)) = false := List.any_eq_false.2 fun w h => by simp [hworks w h]
  unfold cryKeyZero
  dsimp only
  rw [admChecks_pass (by simp [keyAccess_passes ho hdev, keyTen_passes hst]), hk.1, hc, hw, keyOwner_ten hdev]
  refine (if_neg Bool.false_ne_true).trans ((admChecks_pass (by simp [useSlot_owned hk]) _).trans ?_)
  rw [loseContexts_unused hctxs hworks]

end

/-! MACsec settings (R275, R288). -/

theorem exec_cryMacsecCfg (e : AdmEntry) (s : State) : exec (.cryMacsecCfg e) s = s.run (·.admRun e 0x46 (cryMacsecCfg e)) := rfl

theorem exec_cryMacsecSa (e : AdmEntry) (s : State) :
    exec (.cryMacsecSa e) s = s.run (·.keyRun e 0x47 [leAt e.buf 4 4 % 2 ^ 20] (cryMacsecSa e)) := rfl

/-- An admin command that completes with another crypto part, and changes nothing else. -/
theorem completes_of_cry {c : Instr} {e : AdmEntry} {opc : Nat} {s : State} {f : Dev → AdmRes} {x : CryPart} {P : Dev → Prop}
    (hs : AdmReady s) (he : exec c s = s.run (·.admRun e opc f)) (hf : f s.dev = .done (s.dev.setCry x))
    (hp : ∀ b, b.cry = x → OnlyRegs [] s.dev b → P b) : Completes c e opc s P :=
  completes_of_effect hs he hf rfl rfl fun b _ hag => hp b (hag .cry (by decide)) (onlyRegs_of_regs_eq (hag .regs (by decide)))

theorem secY_of_set {a b : Dev} {p : Nat} {x : SecY} (h : b.cry = (a.setSecY p x).cry) :
    b.secY p = x ∧ ∀ q, q ≠ p → b.secY q = a.secY q := by
  refine ⟨?_, fun q hq => ?_⟩
  · rw [Dev.secY, h]
    exact kvGet_kvSet_self ..
  · rw [Dev.secY, h]
    exact kvGet_kvSet_ne hq ..

/-- A slot of the device holds a traffic key of 256 bits, as an SA needs (R275). -/
theorem saSlot_passes {d : Dev} {n : Nat} {k : KeySlot} (hn : d.slot n = some k) (hdev : k.dev = true)
    (hmay : k.may Key.TRAFFIC = true) (hty : k.type = 2) :
    Passes (d.useSlot true none n Key.TRAFFIC ++ [(!decide (((d.slot n).map (·.type)).getD 0 = 2), St.RANGE, blkAt 4)]) := by
  simp [Dev.useSlot, hn, hdev, hmay, hty]

theorem cryMacsecCfg_done {d : Dev} {e : AdmEntry} (hpriv : d.privOf e = true) (hoff : fld e.d2 35 34 ≠ 3) :
    cryMacsecCfg e d =
      .done (d.setSecY (fld e.d2 3 0) { d.secY (fld e.d2 3 0) with cfg := fld e.d2 41 32, window := fld e.d3 31 0 }) := by
  unfold cryMacsecCfg
  exact admChecks_pass (by simp [hpriv, hoff]) _

theorem cryMacsecSa_enabled {d : Dev} {e : AdmEntry} {k : KeySlot} (hpriv : d.privOf e = true) (hlen : e.len = 64)
    (hl : e.buf.length = 64) (hbuf : e.bufErr = none) (hp : leAt e.buf 0 1 ≤ 15) (hsc : leAt e.buf 1 1 ≤ 32) (han : leAt e.buf 2 1 ≤ 3)
    (hen : leAt e.buf 3 1 % 2 = 1) (hn : d.slot (leAt e.buf 4 4 % 2 ^ 20) = some k) (hdev : k.dev = true)
    (hmay : k.may Key.TRAFFIC = true) (hty : k.type = 2) : cryMacsecSa e d =
      .done (d.setSecY (leAt e.buf 0 1) { d.secY (leAt e.buf 0 1) with
        sas := kvSet {} (4 * leAt e.buf 1 1 + leAt e.buf 2 1) {
            en := true, keySlot := leAt e.buf 4 4 % 2 ^ 20, sci := beAt e.buf 8 8, ssci := leAt e.buf 16 4, salt := slice e.buf 20 12,
            pn := leAt e.buf 32 8 } (d.secY (leAt e.buf 0 1)).sas }) := by
  unfold cryMacsecSa
  rw [fitTo_self hl]
  simp only [hen, if_true, decide_true]
  exact admChecks_pass ((passes_append _ _).2 ⟨by simp [hpriv, hlen, hbuf, hp, hsc, han], saSlot_passes hn hdev hmay hty⟩) _

/-! Entropy (R272 to R274). -/

theorem exec_rngHealthFail (rct apt : Bool) (s : State) : exec (.rngHealthFail rct apt) s = s.run (·.rngFail rct apt) := rfl

theorem exec_drbgReseed (s : State) :
    exec .drbgReseed s = s.run fun d => if d.cry.running then d.setCry { d.cry with drbg := 0 } else d := rfl

theorem exec_cryRngRestart (pf : Nat) (v : Word) (pass : Bool) (s : State) : exec (.cryRngRestart pf v pass) s =
    s.run fun d => d.bar0Write pf Reg.CRY_RNG_RESTART fun d => if bitOf v 0 then d.rngStart pass else d := rfl

/-- An event for a PF is told or counted (R134, R138, R564). -/
theorem pfEvent_told (d : Dev) (pf : Nat) (v : Ev) : PfTold d (d.pfEvent pf v) pf v.type v.p2 := by
  refine ⟨fun hen => ?_, fun hen hroom hheld hstash => ?_⟩
  · simp only [Dev.pfEvent, hen, Bool.not_false, if_true]
    exact reg_count_self ..
  · have hpush : d.pfEvent pf v = d.admWrite pf (d.evCqe v) := by
      simp [Dev.pfEvent, Dev.admPush, hen, hroom, hheld, hstash]
    rw [hpush]
    exact ⟨_, _, mem_out_of_grows (outGrows_msixSend ..) (List.mem_append_right _ (List.mem_singleton_self _)), rfl⟩

/-- An event for a PF touches no register but the count of those lost. -/
theorem onlyRegs_pfEvent (d : Dev) (pf : Nat) (v : Ev) : OnlyRegs [Reg.RING_EVT_LOST pf] d (d.pfEvent pf v) := by
  unfold Dev.pfEvent
  dsimp only
  split
  · exact onlyRegs_count (List.mem_singleton_self _) d
  · split
    · exact onlyRegs_trans (onlyRegs_of_regs_eq (admPut_regs ..)) (onlyRegs_count (List.mem_singleton_self _) _)
    · exact onlyRegs_of_regs_eq ((rel_Dev_admPush ..).same .regs (by decide))

/-- What the event tells depends on the PF's ring and function alone. -/
theorem pfTold_of_same {a d b : Dev} {pf type p2 : Nat} (h : PfTold d b pf type p2) (hring : d.ring = a.ring) (hhif : d.hif = a.hif)
    (hcfg : d.reg (Reg.RING_ADM_CFG pf) = a.reg (Reg.RING_ADM_CFG pf)) (hlost : d.reg (Reg.RING_EVT_LOST pf) = a.reg (Reg.RING_EVT_LOST pf)) :
    PfTold a b pf type p2 := by
  have hget : d.admGet pf = a.admGet pf := by rw [Dev.admGet, hring, Dev.admGet]
  have hlog : d.admCqLog2 pf = a.admCqLog2 pf := congrArg (fld · 12 8) hcfg
  have hroom : d.admRoom pf = a.admRoom pf := by rw [Dev.admRoom, hget, hlog, Dev.admRoom]
  have hheld : d.fnHeld (.pf pf) = a.fnHeld (.pf pf) := by simp only [Dev.fnHeld, Dev.fnD3, Dev.fnGet, hhif]
  rwa [PfTold, hget, hroom, hheld, hlost] at h

/-- The device once a health test has failed, its event not yet told. -/
def rngFailed (d : Dev) (rct apt : Bool) : Dev :=
  ((d.setCry { d.cry with failed := true, running := false, rct := d.cry.rct || rct, apt := d.cry.apt || apt, drbg := 0 }).count
    Reg.CRY_RNG_FAIL_CNT).setBit Reg.CRY_GSTAT 1

theorem reg_rngFailed_ne {o : Nat} (hc : o ≠ Reg.CRY_RNG_FAIL_CNT) (hg : o ≠ Reg.CRY_GSTAT) (d : Dev) (rct apt : Bool) :
    (rngFailed d rct apt).reg o = d.reg o := by
  unfold rngFailed
  rw [Dev.setBit, Dev.setBits, reg_setReg_ne hg, reg_count_ne hc]
  rfl

theorem ring_hif_rngFailed (d : Dev) (rct apt : Bool) : (rngFailed d rct apt).ring = d.ring ∧ (rngFailed d rct apt).hif = d.hif := by
  simp only [rngFailed, Dev.setBit, Dev.setBits, Dev.count, Dev.countN, one_ne_zero, if_false, setReg_ring, setReg_hif,
    setCry_ring, setCry_hif, and_self]

theorem rngFail_eq (d : Dev) {rct apt : Bool} (h : (rct || apt) = true) :
    d.rngFail rct apt = (rngFailed d rct apt).pfEvent (d.regFld Reg.CRY_EVT_CFG 3 0) { type := 0x120 } := by
  have hpf : (rngFailed d rct apt).regFld Reg.CRY_EVT_CFG 3 0 = d.regFld Reg.CRY_EVT_CFG 3 0 :=
    congrArg (fld · 3 0) (reg_rngFailed_ne (by decide) (by decide) d rct apt)
  simp only [Dev.rngFail, h, Bool.not_true, Bool.false_eq_true, if_false]
  rw [← hpf]
  rfl

/-- A failed health test: the source stops, the failure is counted and shown, and the PF of CRY_EVT_CFG told (R274). -/
theorem rngFail_spec (d : Dev) {rct apt : Bool} {pf : Nat} (h : (rct || apt) = true) (hpf : pf = d.regFld Reg.CRY_EVT_CFG 3 0) :
    (d.rngFail rct apt).cry =
      { d.cry with failed := true, running := false, rct := d.cry.rct || rct, apt := d.cry.apt || apt, drbg := 0 } ∧
    (d.rngFail rct apt).reg Reg.CRY_RNG_FAIL_CNT = counterAdd (d.reg Reg.CRY_RNG_FAIL_CNT) 1 ∧
    (d.rngFail rct apt).regBit Reg.CRY_GSTAT 1 = true ∧ PfTold d (d.rngFail rct apt) pf 0x120 0 ∧
    OnlyRegs [Reg.CRY_RNG_FAIL_CNT, Reg.CRY_GSTAT, Reg.RING_EVT_LOST pf] d (d.rngFail rct apt) := by
  have hlt : pf < 16 := hpf ▸ Nat.mod_lt _ (by decide)
  rw [rngFail_eq d h, ← hpf]
  have hcfg : Reg.RING_ADM_CFG pf ≠ Reg.CRY_RNG_FAIL_CNT ∧ Reg.RING_ADM_CFG pf ≠ Reg.CRY_GSTAT := by
    simp only [Reg.RING_ADM_CFG, Reg.CRY_RNG_FAIL_CNT, Reg.CRY_GSTAT]; omega
  have hlost : Reg.RING_EVT_LOST pf ≠ Reg.CRY_RNG_FAIL_CNT ∧ Reg.RING_EVT_LOST pf ≠ Reg.CRY_GSTAT := by
    simp only [Reg.RING_EVT_LOST, Reg.CRY_RNG_FAIL_CNT, Reg.CRY_GSTAT]; omega
  obtain ⟨hcfgc, hcfgg⟩ := hcfg
  obtain ⟨hlostc, hlostg⟩ := hlost
  have hevent := onlyRegs_pfEvent (rngFailed d rct apt) pf { type := 0x120 }
  refine ⟨?cry, ?count, ?bit, ?told, fun o ho => ?frame⟩
  case cry => exact (rel_Dev_pfEvent ..).same .cry (by decide)
  case count =>
    rw [hevent _ (by simpa using hlostc.symm), rngFailed, Dev.setBit, Dev.setBits, reg_setReg_ne (by decide), reg_count_self]
    rfl
  case bit =>
    rw [Dev.regBit, hevent _ (by simpa using hlostg.symm)]
    exact regBit_setBit_self (by decide) ..
  case told =>
    obtain ⟨hring, hhif⟩ := ring_hif_rngFailed d rct apt
    exact pfTold_of_same (pfEvent_told ..) hring hhif (reg_rngFailed_ne hcfgc hcfgg ..) (reg_rngFailed_ne hlostc hlostg ..)
  case frame =>
    simp only [List.mem_cons, List.not_mem_nil, or_false, not_or] at ho
    obtain ⟨hc, hg, hl⟩ := ho
    rw [hevent o (by simpa using hl), reg_rngFailed_ne hc hg]

/-! The clauses of O35. -/

section
variable {s : State} {e : AdmEntry} (hs : AdmReady s) (ho : Owns e e.ten s) (hdev : bitOf e.d2 12 = false)
  (hst : (s.dev.tenGet e.ten).st = 2 ∨ (s.dev.tenGet e.ten).st = 3)
include hs ho hdev hst

theorem cryKeyExport_completes {k x : KeySlot} (hk : SlotOf s.dev e.ten (AdmEntry_slot e) k) (hmay : k.may Key.EXPORT = true)
    (hx : SlotOf s.dev e.ten (fld e.d3 51 32) x) (hwrap : x.may Key.WRAP = true) (hgood : s.dev.slotBad (AdmEntry_slot e) = false)
    (hgoodw : s.dev.slotBad (fld e.d3 51 32) = false) (hlen : k.material.length + 8 ≤ e.len) :
    Completes (.cryKeyExport e) e 0x4B s fun b =>
      Out.hostWrite (.pf e.pf) none e.d1.toNat (keyWrap x.material k.material) false ∈ b.out ∧ b.cry = s.dev.cry ∧
      OnlyRegs [] s.dev b := by
  have hne : keyWrap x.material k.material ≠ [] := List.ne_nil_of_length_pos (by simp [keyWrap, primBytes])
  have hgoods : ∀ n ∈ [AdmEntry_slot e, fld e.d3 51 32], s.dev.slotBad n = false := by simp [hgood, hgoodw]
  exact completes_of_returned hs ((exec_cryKeyExport e s).trans (run_keyRun_of_good hgoods))
    (cryKeyExport_wraps ho hdev hst hk hmay hx hwrap hlen) (rel_cryKeyExport ..) hne
    (fun b hout hag => ⟨hout, hag .cry (by decide), onlyRegs_of_agree hag (by decide)⟩) (by decide) (by decide) (by decide) (by decide)

theorem cryKeyExport_denied_runs {k : KeySlot} (hk : SlotOf s.dev e.ten (AdmEntry_slot e) k) (hmay : k.may Key.EXPORT = false) :
    Runs (.cryKeyExport e) s fun b => AdmEnded s.dev b e 0x4B St.DENIED 4 ∧ b.cry = s.dev.cry ∧ OnlyRegs [] s.dev b := by
  have hf := cryKeyExport_denied ho hdev hst hk hmay
  exact runs_of_fail hs ((exec_cryKeyExport e s).trans (run_keyRun_of_fail hf _)) hf fun b hend hag =>
    ⟨hend, hag .cry (by decide), onlyRegs_of_agree hag (by decide)⟩

theorem cryKeyZero_free_runs (hfree : s.dev.slot (AdmEntry_slot e) = none) :
    Runs (.cryKeyZero e) s fun b => AdmEnded s.dev b e 0x4C 0 1 ∧ b.cry = s.dev.cry ∧ OnlyRegs [] s.dev b :=
  runs_of_done hs (exec_cryKeyZero ..) (cryKeyZero_free ho hdev hst hfree) fun b hend hag =>
    ⟨hend, hag .cry (by decide), onlyRegs_of_agree hag (by decide)⟩

theorem cryKeyZero_used_runs {k : KeySlot} {c : Nat} {y : CryCtx} (hk : SlotOf s.dev e.ten (AdmEntry_slot e) k)
    (hy : (c, y) ∈ s.dev.cry.ctxs) (hnames : y.names (AdmEntry_slot e) = true) (hforce : bitOf e.d3 0 = false) :
    Runs (.cryKeyZero e) s fun b => AdmEnded s.dev b e 0x4C St.STATE 2 ∧ b.cry = s.dev.cry ∧ OnlyRegs [] s.dev b :=
  runs_of_fail hs (exec_cryKeyZero ..) (cryKeyZero_used ho hdev hst hk hy hnames hforce) fun b hend hag =>
    ⟨hend, hag .cry (by decide), onlyRegs_of_agree hag (by decide)⟩

/-- A slot that nothing names is zeroised, and its line with it (R265, R286). -/
theorem cryKeyZero_completes {k : KeySlot} (hk : SlotOf s.dev e.ten (AdmEntry_slot e) k)
    (hctxs : ∀ c ∈ s.dev.cry.ctxs, c.2.names (AdmEntry_slot e) = false)
    (hworks : ∀ w ∈ s.dev.arc.works, w.names (AdmEntry_slot e) = false) :
    Completes (.cryKeyZero e) e 0x4C s fun b =>
      b.slot (AdmEntry_slot e) = none ∧ (∀ j, j ≠ AdmEntry_slot e → b.slot j = s.dev.slot j) ∧ b.cry.ctxs = s.dev.cry.ctxs ∧
      b.hbm.bytes (slotAddr (AdmEntry_slot e)) 128 = List.replicate 128 0#8 ∧ OnlyBytes (slotAddr (AdmEntry_slot e)) 128 s.dev b ∧
      OnlyRegs [] s.dev b := by
  refine completes_of_effect hs (exec_cryKeyZero e s) (cryKeyZero_unused ho hdev hst hk hctxs hworks) rfl rfl fun b _ hag => ?_
  have hcry : b.cry = (s.dev.zeroSlot (AdmEntry_slot e)).cry := hag .cry (by decide)
  have hhbm : b.hbm = s.dev.hbm.write (slotAddr (AdmEntry_slot e)) (List.replicate 128 0#8) := hag .hbm (by decide)
  refine ⟨?self, fun j hj => ?other, by rw [hcry]; rfl, ?line, fun y hy => ?bytes, onlyRegs_of_regs_eq ?regs⟩
  case regs => exact (hag .regs (by decide)).trans ((rel_Dev_zeroSlot ..).same .regs (by decide))
  case self =>
    rw [Dev.slot, hcry]
    exact kvFind_kvDel_self ..
  case other =>
    rw [Dev.slot, hcry]
    exact kvFind_kvDel_ne hj _
  case line =>
    have hline := bytes_write_self s.dev.hbm (slotAddr (AdmEntry_slot e)) (List.replicate 128 0#8)
    rwa [List.length_replicate, ← hhbm] at hline
  case bytes =>
    rw [hhbm]
    exact hbm_write_other _ _ _ _ (by simpa using hy)

end

/-- Settles O35, command by command: the checks pass or one refuses, and what the command writes is the slot, SecY or state that the
clause names. -/
theorem keysAndEntropy : Obligations.KeysAndEntropy := by
  unfold Obligations.KeysAndEntropy
  refine ⟨?puts, ?uses, ?macsec, ?fails, ?reseed, ?restart⟩
  case puts =>
    rintro s e n ty us hs ho hdev rfl rfl rfl hst hfree hquota hty hus hmig
    refine ⟨fun hw hlen hbuf => ?plain, fun w k hw hwe hk hkdev hkten hwrap hgood h8 hlen hbuf => ?wrapped, fun htype hlen => ?drawn⟩
    case plain =>
      have hgood : ∀ n ∈ (if bitOf e.d3 52 then [fld e.d3 51 32] else []), s.dev.slotBad n = false := by simp [hw]
      exact completes_of_putSlot hs ((exec_cryKeyPut e s).trans (run_keyRun_of_good hgood))
        (cryKeyPut_plain ho hdev hst hfree hquota hus hmig hty hw hlen hbuf) (.refl ..) rfl rfl
    case wrapped =>
      subst hwe
      have hput := cryKeyPut_wrapped ho hdev hst hfree hquota hus hmig hty hw ⟨hk, hkdev, hkten⟩ hwrap h8 hlen hbuf
      have hgoods : ∀ n ∈ (if bitOf e.d3 52 then [fld e.d3 51 32] else []), s.dev.slotBad n = false := by simp [hw, hgood]
      have hrun := (exec_cryKeyPut e s).trans (run_keyRun_of_good hgoods)
      refine ⟨fun m hm => ?_, fun hm => ?_⟩
      · exact completes_of_key hs hrun (by rw [hput, hm]; rfl) (.refl ..) rfl rfl
      · exact runs_of_fail hs hrun (by rw [hput, hm]; rfl) fun b hend hag =>
          ⟨hend, hag .cry (by decide), onlyRegs_of_agree hag (by decide)⟩
    case drawn =>
      refine ⟨fun hent => ?_, fun hent => ?_, fun w k sl hwe hk hkdev hkten hmay hgood hlo hhi hbuf hsl hsalt => ?_⟩
      · exact completes_imp (completes_of_key hs (exec_cryKeyGen e s)
          (cryKeyGen_entropy ho hdev hst hfree hquota hus hmig htype hlen hent) (rel_Dev_drbg ..) rfl rfl)
          fun _ ⟨hnew, hrest⟩ => ⟨⟨_, freeBytes_length .., hnew⟩, hrest⟩
      · exact runs_of_fail hs (exec_cryKeyGen e s) (cryKeyGen_no_entropy ho hdev hst hfree hquota hus hmig htype hlen hent)
          fun b hend hag => ⟨hend, hag .cry (by decide), onlyRegs_of_agree hag (by decide)⟩
      · subst hwe hsl
        have hgoods : ∀ n ∈ [fld e.d3 51 32], s.dev.slotBad n = false := by simp [hgood]
        exact completes_of_key hs ((exec_cryKeyDerive e s).trans (run_keyRun_of_good hgoods))
          (cryKeyDerive_done ho hdev hst hfree hquota hus hmig htype hlen ⟨hk, hkdev, hkten⟩ hmay hlo hhi hbuf hsalt) (.refl ..) rfl rfl
  case uses =>
    rintro s e n hs ho hdev rfl hst
    refine ⟨?_, fun k hk hkdev hkten hmay => cryKeyExport_denied_runs hs ho hdev hst ⟨hk, hkdev, hkten⟩ hmay,
      fun hfree => cryKeyZero_free_runs hs ho hdev hst hfree,
      fun k hk hkdev hkten hctxs hworks => cryKeyZero_completes hs ho hdev hst ⟨hk, hkdev, hkten⟩ hctxs hworks,
      fun k c x hk hkdev hkten hx hnames hforce => cryKeyZero_used_runs hs ho hdev hst ⟨hk, hkdev, hkten⟩ hx hnames hforce⟩
    rintro k w x hk hkdev hkten hmay rfl hx hxdev hxten hwrap hgood hgoodw hlen
    exact cryKeyExport_completes hs ho hdev hst ⟨hk, hkdev, hkten⟩ hmay ⟨hx, hxdev, hxten⟩ hwrap hgood hgoodw hlen
  case macsec =>
    intro s e hs hpriv
    have ⟨_, _, hnone⟩ := hs
    have hpriv' : s.dev.privOf e = true := (privOf_of_taken_nil hnone e).trans hpriv
    refine ⟨fun hoff => ?_, ?_⟩
    · refine completes_of_cry hs (exec_cryMacsecCfg e s) (cryMacsecCfg_done hpriv' hoff) fun b hcry hregs => ?_
      obtain ⟨hself, hother⟩ := secY_of_set hcry
      exact ⟨hself, hother, hregs⟩
    · rintro p sc an n k hlen hl hbuf rfl rfl rfl rfl hp hsc han hen hk hkdev hmay hty hgood
      have hgoods : ∀ n ∈ [leAt e.buf 4 4 % 2 ^ 20], s.dev.slotBad n = false := by simpa using hgood
      refine completes_of_cry hs ((exec_cryMacsecSa e s).trans (run_keyRun_of_good hgoods))
        (cryMacsecSa_enabled hpriv' hlen hl hbuf hp hsc han hen hk hkdev hmay hty) fun b hcry hregs => ?_
      obtain ⟨hself, hother⟩ := secY_of_set hcry
      exact ⟨hself, hother, hregs⟩
  case fails =>
    intro s rct apt pf hs h hpf
    exact runs_of_run hs (exec_rngHealthFail rct apt s) (rngFail_spec s.dev h hpf)
  case reseed =>
    intro s hs hrun
    refine runs_of_run_eq hs (exec_drbgReseed s) (if_pos hrun) ⟨rfl, ?_⟩
    exact agree_of_rel (rel_Dev_setCry ..) fun p hp => testBit_maskOf hp
  case restart =>
    intro s pf v pass hs hv ha hg
    refine runs_of_run_eq hs (exec_cryRngRestart pf v pass s) ((bar0Write_act (by decide) ha hg _).trans (if_pos hv)) ⟨?_, ?_⟩
    · cases pass <;> rfl
    · exact onlyRegs_of_regs_eq ((rel_Dev_rngStart ..).same .regs (by decide))

end Sys2Proof.Proofs

/-! Crypto contexts: what the commands check, and the context they write (R270, R279 to R283, R288). -/

namespace Sys2Proof.Proofs

open Sys2Proof Sys2Proof.Machine Sys2Proof.Laws

set_option deprecated.oldSectionVars true

theorem exec_cryCtxSet (e : AdmEntry) (s : State) : exec (.cryCtxSet e) s =
    s.run (·.keyRun e 0x4E ([leAt e.buf 4 4 % 2 ^ 20] ++ (if leAt e.buf 8 4 / 2 ^ 31 = 1 then [leAt e.buf 8 4 % 2 ^ 20] else []))
      (cryCtxSet e)) := rfl

theorem exec_cryCtxRead (e : AdmEntry) (s : State) : exec (.cryCtxRead e) s = s.run (·.admRun e 0x4F (cryCtxRead e)) := rfl

theorem exec_cryCtxNext (e : AdmEntry) (s : State) :
    exec (.cryCtxNext e) s = s.run (·.keyRun e 0x4F [AdmEntry_newSlot e] (cryCtxNext e)) := rfl

theorem exec_cryCtxRotate (e : AdmEntry) (s : State) : exec (.cryCtxRotate e) s = s.run (·.admRun e 0x4F (cryCtxRotate e)) := rfl

theorem exec_cryCtxResync (e : AdmEntry) (s : State) : exec (.cryCtxResync e) s = s.run (·.admRun e 0x4F (cryCtxResync e)) := rfl

theorem exec_cryCtxRekey (e : AdmEntry) (s : State) :
    exec (.cryCtxRekey e) s = s.run (·.keyRun e 0x4F [AdmEntry_newSlot e] (cryCtxRekey e)) := rfl

theorem exec_cryCtxDestroy (e : AdmEntry) (s : State) : exec (.cryCtxDestroy e) s = s.run (·.admRun e 0x4F (cryCtxDestroy e)) := rfl

theorem cryCtx_of_cry {a b : Dev} (h : b.cry = a.cry) (c : Nat) : b.cryCtx c = a.cryCtx c := by rw [Dev.cryCtx, h, Dev.cryCtx]

@[simp] theorem cryCtx_setCryCtx_self (d : Dev) (c : Nat) (x : CryCtx) : (d.setCryCtx c x).cryCtx c = some x := kvFind_kvPut_self ..

theorem cryCtx_setCryCtx_ne {c j : Nat} (h : j ≠ c) (d : Dev) (x : CryCtx) : (d.setCryCtx c x).cryCtx j = d.cryCtx j :=
  kvFind_kvPut_ne h ..

/-- A slot that a context of a kind and an algorithm may use (R282). -/
theorem ctxSlot_passes {d : Dev} {t n kind alg : Nat} {k : KeySlot} (h : SlotOf d t n k) (hmay : k.may Key.TRAFFIC = true)
    (hty : k.type = if isEsp kind then alg else 4) (priv : Bool) (det : Nat) : Passes (d.ctxSlot priv t kind alg n det) := by
  simp [Dev.ctxSlot, useSlot_passes h (fun _ => hmay), h.1, hty]

theorem newCtx_passes {d : Dev} {t c : Nat} (hfree : d.ctxOwner c = none) (hquota : d.ctxsOf t < (d.tenGet t).ctxs) :
    Passes (d.newCtx t c) := by
  simp [Dev.newCtx, hfree, hquota]

/-- A command that writes a context: that context, no other, no slot and no register. -/
theorem completes_of_setCryCtx {i : Instr} {e : AdmEntry} {opc c : Nat} {x : CryCtx} {s : State} {f : Dev → AdmRes} (hs : AdmReady s)
    (he : exec i s = s.run (·.admRun e opc f)) (hf : f s.dev = .done (s.dev.setCryCtx c x)) :
    Completes i e opc s fun b =>
      b.cryCtx c = some x ∧ (∀ j, j ≠ c → b.cryCtx j = s.dev.cryCtx j) ∧ b.cry.slots = s.dev.cry.slots ∧ OnlyRegs [] s.dev b := by
  refine completes_of_cry hs he hf fun b hcry hregs => ⟨?_, fun j hj => ?_, by rw [hcry], hregs⟩
  · exact (cryCtx_of_cry (a := s.dev.setCryCtx c x) hcry c).trans (cryCtx_setCryCtx_self ..)
  · exact (cryCtx_of_cry (a := s.dev.setCryCtx c x) hcry j).trans (cryCtx_setCryCtx_ne hj ..)

/-- Of these effects, those on the contexts and the registers. -/
theorem completes_of_context {i : Instr} {e : AdmEntry} {opc c : Nat} {x : CryCtx} {s : State} {f : Dev → AdmRes} (hs : AdmReady s)
    (he : exec i s = s.run (·.admRun e opc f)) (hf : f s.dev = .done (s.dev.setCryCtx c x)) :
    Completes i e opc s fun b => b.cryCtx c = some x ∧ (∀ j, j ≠ c → b.cryCtx j = s.dev.cryCtx j) ∧ OnlyRegs [] s.dev b :=
  completes_imp (completes_of_setCryCtx hs he hf) fun _ ⟨hself, hother, _, hregs⟩ => ⟨hself, hother, hregs⟩

/-- A parameter block that names no next slot. -/
theorem nextSlot_ctxOfBlock {b : List Byte} (h : leAt b 8 4 < 2 ^ 31) (t : Nat) : (ctxOfBlock t b).nextSlot = none :=
  if_neg fun hnamed => by omega

theorem cryCtxSet_done {s : State} {e : AdmEntry} {x : CryCtx} {k : KeySlot} (ho : Owns e e.ten s)
    (hst : (s.dev.tenGet e.ten).st = 2 ∨ (s.dev.tenGet e.ten).st = 3) (hlen : e.len = 128) (hl : e.buf.length = 128)
    (hbuf : e.bufErr = none) (hblk : ctxBlockBad e.buf = none) (hfree : s.dev.ctxOwner (AdmEntry_slot e) = none)
    (hquota : s.dev.ctxsOf e.ten < (s.dev.tenGet e.ten).ctxs) (hnext : leAt e.buf 8 4 < 2 ^ 31) (hx : x = ctxOfBlock e.ten e.buf)
    (hk : SlotOf s.dev e.ten x.keySlot k) (hmay : k.may Key.TRAFFIC = true) (hty : k.type = if isEsp x.kind then x.alg else 4) :
    cryCtxSet e s.dev = .done (s.dev.setCryCtx (AdmEntry_slot e)
      (if isEsp x.kind then x else { x with cur := trafficKey (isQuic x.kind) x.alg k.material })) := by
  have hn : x.nextSlot = none := hx ▸ nextSlot_ctxOfBlock hnext e.ten
  have hnone : x.next = none := hx ▸ rfl
  unfold cryCtxSet
  dsimp only
  rw [fitTo_self hl, ← hx, hn, material_of_slot hk]
  refine (admChecks_pass (by
    simp [notOwner_owns ho, hlen, hbuf, hblk, hst, newCtx_passes hfree hquota, ctxSlot_passes hk hmay hty]) _).trans ?_
  rw [Option.map_none, ← hnone]

/-! Operations on a context (R280, R281, R283, R288). -/

section
variable {s : State} {e : AdmEntry} {x : CryCtx} (ho : Owns e e.ten s) (hop : fld e.d3 2 0 ≤ 5)
  (hst : (s.dev.tenGet e.ten).st = 2 ∨ (s.dev.tenGet e.ten).st = 3) (hx : s.dev.cryCtx (AdmEntry_slot e) = some x)
  (hten : x.ten = e.ten)
include ho hop hst hx hten

/-- An operation that fits the context's kind, and whose own checks pass, is done on it. -/
theorem ctxOp_pass {fits : Nat → Bool} {more : CryCtx → List (Bool × Nat × Nat)} (hfit : fits x.kind = true) (hmore : Passes (more x))
    (f : CryCtx → AdmRes) : s.dev.ctxOp e fits more f = f x := by
  have hpre : Passes (s.dev.ctxPre e fits) := by simp [Dev.ctxPre, notOwner_owns ho, hop, hst, hx, hten, hfit]
  unfold Dev.ctxOp
  rw [hx]
  exact admChecks_pass ((passes_append _ _).2 ⟨hpre, hmore⟩) _

/-- One that does not fit its kind is refused. -/
theorem ctxOp_unfit {fits : Nat → Bool} (hfit : fits x.kind = false) (f : CryCtx → AdmRes) :
    s.dev.ctxOp e fits (fun _ => []) f = .fail St.STATE x.kind := by
  have hfirst : Passes [s.dev.notOwner e e.ten, (decide (5 < fld e.d3 2 0), St.RANGE, rangeAt 3 0), s.dev.keyState e.ten,
      (false, if (s.dev.ctxOwner (AdmEntry_slot e)).isSome ∧ s.dev.ctxOwner (AdmEntry_slot e) ≠ some e.ten then St.DENIED else St.STATE,
        if (s.dev.ctxOwner (AdmEntry_slot e)).isSome ∧ s.dev.ctxOwner (AdmEntry_slot e) ≠ some e.ten then 2 else 0),
      (false, St.DENIED, 2)] := by
    simp [notOwner_owns ho, hop, hst]
  unfold Dev.ctxOp Dev.ctxPre
  simp only [hx, Option.isNone_some, Option.elim_some, hten, ne_eq, not_true_eq_false, decide_false, hfit, Bool.not_false,
    Option.map_some, Option.getD_some, List.append_nil]
  exact admChecks_last hfirst St.STATE x.kind _

theorem cryCtxRotate_done {k : TrafficKey} (hq : isQuic x.kind = true) (hnext : x.next = some k) :
    cryCtxRotate e s.dev = .done (s.dev.setCryCtx (AdmEntry_slot e) (x.rotate k (x.seq + 1))) := by
  unfold cryCtxRotate
  rw [ctxOp_pass ho hop hst hx hten hq (by simp [hnext]), hnext]
  rfl

theorem cryCtxNext_done {k : KeySlot} (hq : isQuic x.kind = true) (hk : SlotOf s.dev e.ten (AdmEntry_newSlot e) k)
    (hmay : k.may Key.TRAFFIC = true) (hty : k.type = 4) : cryCtxNext e s.dev =
      .done (s.dev.setCryCtx (AdmEntry_slot e)
        { x with nextSlot := some (AdmEntry_newSlot e), next := some (trafficKey true x.alg k.material), prev := none }) := by
  have hesp : isEsp x.kind = false := by
    have : x.kind = 0x14 ∨ x.kind = 0x15 := by simpa [isQuic] using hq
    simp [isEsp]
    omega
  unfold cryCtxNext
  dsimp only
  rw [ctxOp_pass ho hop hst hx hten hq (ctxSlot_passes hk hmay (by simpa [hesp] using hty) _ _), material_of_slot hk]

theorem cryCtxRekey_done {k : KeySlot} (hkind : isTls x.kind = true ∨ isEsp x.kind = true)
    (hk : SlotOf s.dev e.ten (AdmEntry_newSlot e) k) (hmay : k.may Key.TRAFFIC = true)
    (hty : k.type = if isEsp x.kind then x.alg else 4) : cryCtxRekey e s.dev =
      .done (s.dev.setCryCtx (AdmEntry_slot e)
        (if isEsp x.kind then { x with keySlot := AdmEntry_newSlot e }
          else { x with keySlot := AdmEntry_newSlot e, rekey := some (e.d4.toNat, trafficKey false x.alg k.material) })) := by
  unfold cryCtxRekey
  dsimp only
  rw [ctxOp_pass ho hop hst hx hten (by simpa using hkind) (ctxSlot_passes hk hmay hty _ _), material_of_slot hk]

end

section
variable {s : State} {e : AdmEntry} {x : CryCtx} (hs : AdmReady s) (ho : Owns e e.ten s) (hop : fld e.d3 2 0 ≤ 5)
  (hst : (s.dev.tenGet e.ten).st = 2 ∨ (s.dev.tenGet e.ten).st = 3) (hx : s.dev.cryCtx (AdmEntry_slot e) = some x)
  (hten : x.ten = e.ten)
include hs ho hop hst hx hten

theorem cryCtxRead_completes : Completes (.cryCtxRead e) e 0x4F s fun b =>
    Out.hostWrite (.pf e.pf) none e.d1.toNat (leBytes 8 x.units ++ leBytes 8 x.bytes ++ leBytes 8 x.tagFails ++ leBytes 8 x.replays ++
      leBytes 8 x.seq ++ List.replicate 24 0#8) false ∈ b.out ∧ b.cry = s.dev.cry ∧ OnlyRegs [] s.dev b :=
  completes_of_returned hs (exec_cryCtxRead e s) (ctxOp_pass ho hop hst hx hten rfl passes_nil _) (rel_cryCtxRead ..)
    (List.append_ne_nil_of_right_ne_nil _ (by decide))
    (fun b hout hag => ⟨hout, hag .cry (by decide), onlyRegs_of_agree hag (by decide)⟩) (by decide) (by decide) (by decide) (by decide)

theorem cryCtxResync_completes (hkind : x.kind = 0x13) : Completes (.cryCtxResync e) e 0x4F s fun b =>
    b.cryCtx (AdmEntry_slot e) =
      some { x with seq := e.d4.toNat, tcpNext := fld e.d5 31 0, part := [], st := if x.st = 3 then 0 else x.st } ∧
    (∀ j, j ≠ AdmEntry_slot e → b.cryCtx j = s.dev.cryCtx j) ∧ OnlyRegs [] s.dev b :=
  completes_of_context hs (exec_cryCtxResync e s) (ctxOp_pass ho hop hst hx hten (decide_eq_true hkind) passes_nil _)

theorem cryCtxResync_refused (hkind : x.kind ≠ 0x13) :
    Runs (.cryCtxResync e) s fun b => AdmEnded s.dev b e 0x4F St.STATE x.kind ∧ b.cry = s.dev.cry :=
  runs_of_fail hs (exec_cryCtxResync e s) (ctxOp_unfit ho hop hst hx hten (decide_eq_false hkind) _) fun b hend hag =>
    ⟨hend, hag .cry (by decide)⟩

theorem cryCtxDestroy_completes : Completes (.cryCtxDestroy e) e 0x4F s fun b =>
    b.cryCtx (AdmEntry_slot e) = none ∧ (∀ j, j ≠ AdmEntry_slot e → b.cryCtx j = s.dev.cryCtx j) ∧ b.cry.slots = s.dev.cry.slots ∧
    OnlyRegs [] s.dev b := by
  refine completes_of_cry hs (exec_cryCtxDestroy e s) (ctxOp_pass ho hop hst hx hten rfl passes_nil _) fun b hcry hregs =>
    ⟨?_, fun j hj => ?_, by rw [hcry], hregs⟩
  · rw [Dev.cryCtx, hcry]
    exact kvFind_kvDel_self ..
  · rw [Dev.cryCtx, hcry]
    exact kvFind_kvDel_ne hj _

end

end Sys2Proof.Proofs

/-! Frames under a context (R262 to R264, R278, R279). -/

namespace Sys2Proof.Proofs

open Sys2Proof Sys2Proof.Machine Sys2Proof.Laws

set_option deprecated.oldSectionVars true

theorem exec_aeadUnit (tok : Nat) (ecc : Ecc) (s : State) : exec (.aeadUnit tok ecc) s = s.run (·.aeadUnit tok ecc) := rfl

/-! Which engine takes the frame. -/

theorem aeadFrame_no_context {d : Dev} {c : Nat} (h : d.cryCtx c = none) (f : List Byte) :
    d.aeadFrame c f = .drop d (some Reg.CRY_NOKEY) := by rw [Dev.aeadFrame, h]

section
variable {d : Dev} {c : Nat} {x : CryCtx} {k : KeySlot} (hx : d.cryCtx c = some x) (hst : x.st = 0) (hk : d.slot x.keySlot = some k)
  (hgood : d.slotBad x.keySlot = false)
include hx hst hk hgood

theorem aeadFrame_espOut (hkind : x.kind = 0x10) (f : List Byte) : d.aeadFrame c f = d.espOut c x k.material f := by
  simp [Dev.aeadFrame, hx, hst, hk, hgood, hkind]

theorem aeadFrame_espIn (hkind : x.kind = 0x11) (f : List Byte) : d.aeadFrame c f = d.espIn c x k.material f := by
  simp [Dev.aeadFrame, hx, hst, hk, hgood, hkind]

end

/-! A frame that is dropped. -/

/-- The device after a frame in an engine is dropped and counted. -/
def aeadDropped (d : Dev) (tok off : Nat) (p : Packet) : Dev := ((d.count off).freePkt tok).frameGone p.job 0 0 none

theorem aeadUnit_drop {d d' : Dev} {tok c off : Nat} {p : Packet} {en : Bool} {f : Fwd} (hp : d.pkt tok = some p)
    (hst : p.stage = .crypt c en f) (hd : d.aeadFrame c p.data = .drop d' (some off)) : d.aeadUnit tok {} = aeadDropped d' tok off p := by
  unfold Dev.aeadUnit
  simp only [hp, hst, applyEcc_none, hd]
  rfl

theorem aeadDropped_spec (d : Dev) (tok off : Nat) (p : Packet) :
    (aeadDropped d tok off p).pkt tok = none ∧ (aeadDropped d tok off p).reg off = counterAdd (d.reg off) 1 ∧
    (aeadDropped d tok off p).cry = d.cry ∧ OnlyRegs [off] d (aeadDropped d tok off p) := by
  have hrel : Rel 4295524356 (d.count off) (aeadDropped d tok off p) :=
    Rel.step (rel_Dev_frameGone ..) (by decide) ((rel_Dev_freePkt ..).mono (by decide))
  have hregs : OnlyRegs [] (d.count off) (aeadDropped d tok off p) := onlyRegs_of_regs_eq (hrel.same .regs (by decide))
  refine ⟨(pkt_of_rel (rel_Dev_frameGone ..) tok (by decide)).trans (pkt_freePkt_self ..),
    (hregs off List.not_mem_nil).trans (reg_count_self ..),
    (hrel.same .cry (by decide)).trans ((rel_Dev_count ..).same .cry (by decide)), fun o ho => ?_⟩
  exact (hregs o List.not_mem_nil).trans (onlyRegs_count (List.mem_singleton_self off) d o ho)

/-- A frame that its context drops is gone and counted; what the engine noted in the context stays (R263, R264). -/
theorem runs_of_aead_drop {s : State} {d' : Dev} {tok c off : Nat} {p : Packet} {en : Bool} {f : Fwd} (hs : Alive s)
    (hp : s.dev.pkt tok = some p) (hst : p.stage = .crypt c en f) (hd : s.dev.aeadFrame c p.data = .drop d' (some off))
    (hregs : d'.regs = s.dev.regs) : Runs (.aeadUnit tok {}) s fun b =>
      b.pkt tok = none ∧ b.reg off = counterAdd (s.dev.reg off) 1 ∧ b.cry = d'.cry ∧ OnlyRegs [off] s.dev b := by
  obtain ⟨hgone, hcount, hcry, honly⟩ := aeadDropped_spec d' tok off p
  have hreg : d'.reg off = s.dev.reg off := onlyRegs_of_regs_eq (l := []) hregs off List.not_mem_nil
  exact runs_of_run_eq hs (exec_aeadUnit ..) (aeadUnit_drop hp hst hd)
    ⟨hgone, by rw [hcount, hreg], hcry, onlyRegs_trans (onlyRegs_of_regs_eq hregs) honly⟩

/-! ESP received (R279). -/

theorem espSeq_short {x : CryCtx} (h : x.flags % 2 = 0) (lo : Nat) : espSeq x lo = lo := by rw [espSeq, if_pos h]

section
variable {d : Dev} {c : Nat} {x : CryCtx} {key f : List Byte} {h : Net.L3} {e spi : Nat} (hflags : x.flags % 8 = 0)
  (hh : h = Net.l3 f) (he : e = h.off + h.hlen) (hspi : spi = beAt f e 4) (hver : h.ver ≠ 0) (hproto : h.proto = 50)
  (hlen : 34 ≤ h.off + h.total - e) (hmine : spi = x.spi)
include hflags hh he hspi hver hproto hlen hmine

/-- A sequence number of the window that was seen before. -/
theorem espIn_replayed (hwin : x.replayWin ≠ 0) (hseen : beAt f (e + 4) 4 ∈ x.seen) : d.espIn c x key f =
    .drop (d.setCryCtx c { x with replays := x.replays + 1 }) (some Reg.CRY_REPLAY) := by
  have hudp : ¬x.flags / 4 % 2 = 1 := by omega
  have hesn : x.flags % 2 = 0 := by omega
  have hshort : ¬h.off + h.total - e < 34 := by omega
  unfold Dev.espIn
  simp only [if_neg hudp, ← hh, ← he, ← hspi, espSeq_short hesn]
  rw [if_neg (by simp [hver, hshort, hmine, hproto]), if_pos ⟨hwin, .inr hseen⟩]

/-- A packet outside any window whose tag fails. -/
theorem espIn_forged (hwin : x.replayWin = 0)
    (hopen : aeadOpen x.alg key (x.salt ++ slice f (e + 8) 8) (espAad false spi (beAt f (e + 4) 4))
      (slice f (e + 16) (h.off + h.total - e - 16)) = none) :
    d.espIn c x key f = .drop (d.tagFail c x) (some Reg.CRY_AUTH_FAIL) := by
  have hudp : ¬x.flags / 4 % 2 = 1 := by omega
  have hesn : x.flags % 2 = 0 := by omega
  have hnoesn : ¬x.flags % 2 = 1 := by omega
  have hshort : ¬h.off + h.total - e < 34 := by omega
  unfold Dev.espIn
  simp only [if_neg hudp, ← hh, ← he, ← hspi, espSeq_short hesn, decide_eq_false hnoesn, hopen]
  rw [if_neg (by simp [hver, hshort, hmine, hproto]), if_neg (fun hr => hr.1 hwin)]

end

/-! ESP sent (R278, R283). -/

/-- What the account of a unit leaves of the context. -/
theorem cryCtx_cryUsed (d : Dev) (c : Nat) (x : CryCtx) (units bytes : Nat) :
    ∃ y, (d.cryUsed c x units bytes).cryCtx c = some y ∧ y.seq = x.seq ∧ y.units = x.units + units ∧ y.kind = x.kind := by
  have htell : ∀ (p : Prop) [Decidable p] (b : Dev) (v : Ev), (if p then b.tenEvent x.ten v else b).cry = b.cry := by
    intro p _ b v
    split
    · exact (rel_Dev_tenEvent ..).same .cry (by decide)
    · rfl
  unfold Dev.cryUsed
  dsimp only
  rw [cryCtx_of_cry ((htell _ _ _).trans (htell _ _ _)), cryCtx_setCryCtx_self]
  exact ⟨_, rfl, rfl, rfl, rfl⟩

/-- A frame that ESP_OUT takes: one unit under the next sequence number, not decrypted. -/
theorem espOut_ok {d d1 : Dev} {c : Nat} {x : CryCtx} {key f data : List Byte} {dec : Bool}
    (h : d.espOut c x key f = .ok d1 data dec) : (∃ n, d1 = d.cryUsed c { x with seq := x.seq + 1 } 1 n) ∧ dec = false := by
  unfold Dev.espOut at h
  dsimp only at h
  split at h
  · cases h
  · cases h
    exact ⟨⟨_, rfl⟩, rfl⟩

/-- A frame that keeps its cells is replaced in place. -/
theorem growCrypto_of_cells {d : Dev} {tok : Nat} {p : Packet} {data : List Byte} (hp : d.pkt tok = some p)
    (hcells : cellsOf data.length = cellsOf p.data.length) :
    ∃ b, d.growCrypto tok data = some b ∧ b.pkt tok = some { p with data := data } := by
  unfold Dev.growCrypto Dev.resizePkt
  simp only [hp, hcells, Nat.le_refl, if_true, Nat.sub_self, Nat.min_zero, Nat.sub_zero]
  exact ⟨_, rfl, pkt_setPkt_self ..⟩

/-- A frame that an ESP engine returns goes on in its list with its new bytes. -/
theorem aeadUnit_forwarded {d d1 b : Dev} {tok c : Nat} {p q : Packet} {en dec : Bool} {f : Fwd} {y : CryCtx} {data : List Byte}
    (hp : d.pkt tok = some p) (hst : p.stage = .crypt c en f) (hok : d.aeadFrame c p.data = .ok d1 data dec)
    (hy : d1.cryCtx c = some y) (hesp : isEsp y.kind = true) (hgrow : d1.growCrypto tok data = some b) (hq : b.pkt tok = some q) :
    d.aeadUnit tok {} = b.setPkt tok { q with stage := .forward { f with decrypted := dec } } := by
  unfold Dev.aeadUnit
  simp only [hp, hst, applyEcc_none, hok, hy, Option.elim_some, hesp, if_true, hgrow, Option.map_some, hq, Option.getD_some]

section
variable {s : State} {tok c : Nat} {p : Packet} {f : Fwd} {en : Bool} (hs : Alive s) (hp : s.dev.pkt tok = some p)
  (hst : p.stage = .crypt c en f)
include hs hp hst

theorem aeadUnit_no_context (hnone : s.dev.cryCtx c = none) : Runs (.aeadUnit tok {}) s fun b =>
    b.pkt tok = none ∧ b.reg Reg.CRY_NOKEY = counterAdd (s.dev.reg Reg.CRY_NOKEY) 1 ∧ OnlyRegs [Reg.CRY_NOKEY] s.dev b := by
  obtain ⟨t, he, hq, hgone, hcount, -, hregs⟩ := runs_of_aead_drop hs hp hst (aeadFrame_no_context hnone _) rfl
  exact ⟨t, he, hq, hgone, hcount, hregs⟩

theorem aeadUnit_espOut {x : CryCtx} {k : KeySlot} {d1 : Dev} {data : List Byte} {dec : Bool} (hx : s.dev.cryCtx c = some x)
    (hkind : x.kind = 0x10) (hxst : x.st = 0) (hk : s.dev.slot x.keySlot = some k) (hgood : s.dev.slotBad x.keySlot = false)
    (hout : s.dev.espOut c x k.material p.data = .ok d1 data dec) (hcells : cellsOf data.length = cellsOf p.data.length) :
    Runs (.aeadUnit tok {}) s fun b =>
      (∃ q, b.pkt tok = some q ∧ q.data = data ∧ q.stage = .forward { f with decrypted := false }) ∧
      ∃ y, b.cryCtx c = some y ∧ y.seq = x.seq + 1 ∧ y.units = x.units + 1 := by
  obtain ⟨⟨n, hd1⟩, rfl⟩ := espOut_ok hout
  obtain ⟨y, hy, hseq, hunits, hykind⟩ := cryCtx_cryUsed s.dev c { x with seq := x.seq + 1 } 1 n
  rw [← hd1] at hy
  have hp1 : d1.pkt tok = some p := by rw [hd1, pkt_of_rel (rel_Dev_cryUsed ..) _ (by decide), hp]
  obtain ⟨b, hgrow, hq⟩ := growCrypto_of_cells hp1 hcells
  have hesp : isEsp y.kind = true := by simp [isEsp, hykind, hkind]
  have hrun := aeadUnit_forwarded hp hst ((aeadFrame_espOut hx hxst hk hgood hkind _).trans hout) hy hesp hgrow hq
  have hcry : b.cry = d1.cry := (OptRel.use hgrow (rel_Dev_growCrypto ..)).same .cry (by decide)
  refine runs_of_run_eq hs (exec_aeadUnit ..) hrun ⟨⟨_, pkt_setPkt_self .., rfl, rfl⟩, y, ?_, hseq, hunits⟩
  exact (cryCtx_of_cry (b := b.setPkt tok _) hcry c).trans hy

end

end Sys2Proof.Proofs

/-! Handshake operations (R285, R287). -/

namespace Sys2Proof.Proofs

open Sys2Proof Sys2Proof.Machine Sys2Proof.Laws

set_option deprecated.oldSectionVars true

theorem exec_hsOp (e : AdmEntry) (s : State) : exec (.hsOp e) s = s.run (·.admRun e 0x4D (hsOpCmd e)) := rfl

theorem exec_handshakeStart (s : State) : exec .handshakeStart s = s.run (·.hsStart) := rfl

theorem exec_handshakeDone (i : Nat) (s : State) : exec (.handshakeDone i) s = s.run (·.hsDone i) := rfl

/-! HS_OP. -/

/-- The request that an HS_OP makes. -/
def hsRequest (d : Dev) (e : AdmEntry) : HsReq := {
  ten := e.ten, gen := (d.tenGet e.ten).gen, op := fld e.d2 23 16, outSlot := AdmEntry_slot e, inSlot := fld e.d3 19 0,
  inSlot2 := fld e.d3 51 32, exp := bitOf e.d4 32, len := e.len, inLen := fld e.d4 31 0, buf := fitTo (fld e.d4 31 0) e.buf,
  adm := some e }

theorem hsOpCmd_eq (e : AdmEntry) (d : Dev) : hsOpCmd e d =
    admChecks ([d.notOwner e e.ten] ++ d.hsChecks (d.privOf e) (hsRequest d e) ++ [e.bufCheck]) fun _ => .wait (d.hsPost (hsRequest d e)) :=
  rfl

theorem hsOpCmd_waits {s : State} {e : AdmEntry} (ho : Owns e e.ten s) (hbuf : e.bufErr = none)
    (hpass : Passes (s.dev.hsChecks (s.dev.privOf e) (hsRequest s.dev e))) : hsOpCmd e s.dev = .wait (s.dev.hsPost (hsRequest s.dev e)) := by
  rw [hsOpCmd_eq]
  exact admChecks_pass (by simp [notOwner_owns ho, hpass, hbuf]) _

theorem hsOpCmd_unknown {s : State} {e : AdmEntry} (ho : Owns e e.ten s) (hop : hsOp (hsRequest s.dev e).op = none) :
    hsOpCmd e s.dev = .fail St.RANGE (rangeAt 2 16) := by
  have hbad : s.dev.hsChecks (s.dev.privOf e) (hsRequest s.dev e) = [(true, St.RANGE, rangeAt 2 16)] := by rw [Dev.hsChecks, hop]
  rw [hsOpCmd_eq, hbad, List.append_assoc]
  exact admChecks_fail_after (by simp [notOwner_owns ho]) rfl _

/-! HANDSHAKE_START: the round robin (R285). -/

/-- The least tenancy of a range with a request among these. -/
def leastTen (q : List HsReq) (lo hi : Nat) : Option Nat :=
  ((q.filter (fun r => decide (lo ≤ r.ten ∧ r.ten < hi))).map (·.ten)).foldl (fun (a : Option Nat) t => some ((a.getD t).min t)) none

theorem foldl_least_same {t : Nat} {l : List Nat} (h : ∀ x ∈ l, x = t) :
    l.foldl (fun (a : Option Nat) t => some ((a.getD t).min t)) (some t) = some t := by
  induction l with
  | nil => rfl
  | cons x r ih =>
    obtain ⟨rfl, hr⟩ := List.forall_mem_cons.1 h
    simpa using ih hr

/-- Where all requests are of one tenancy it is that one, if it lies in the range. -/
theorem leastTen_same {t : Nat} {r : HsReq} {q : List HsReq} (hr : r.ten = t) (hq : ∀ x ∈ q, x.ten = t) (lo hi : Nat) :
    leastTen (r :: q) lo hi = if lo ≤ t ∧ t < hi then some t else none := by
  unfold leastTen
  split
  · rename_i hin
    rw [List.filter_cons_of_pos (by simpa [hr] using hin), List.map_cons, List.foldl_cons, hr]
    simp only [Option.getD_none, Nat.min_def, le_refl, if_true]
    refine foldl_least_same fun y hy => ?_
    obtain ⟨x, hx, rfl⟩ := List.mem_map.1 hy
    exact hq x (List.mem_filter.1 hx).1
  · rename_i hout
    rw [List.filter_eq_nil_iff.2]
    · rfl
    · rintro x hx
      have hten : x.ten = t := by
        rcases List.mem_cons.1 hx with rfl | hx
        · exact hr
        · exact hq x hx
      simpa [hten] using hout

/-- What an engine reads of its request's secret inputs. -/
def hsPriv (d : Dev) (r : HsReq) : List (List Byte) :=
  (match hsOp r.op with
    | some o => (if o.in1 ≠ 0 ∨ o.kind = 4 then [r.inSlot] else []) ++ (if o.in2 ≠ 0 then [r.inSlot2] else [])
    | none => []).map fun n => ((d.slot n).map KeySlot.material).getD []

theorem hsStart_first {d : Dev} {r : HsReq} {rest : List HsReq} {e : AdmEntry} (hq : d.cry.hsQueue = r :: rest)
    (hsame : ∀ q ∈ rest, q.ten = r.ten) (hlt : r.ten < 4096) (hroom : d.cry.hsRun.length < 4) (hadm : r.adm = some e) :
    d.hsStart = d.setCry { d.cry with
      hsTurn := r.ten, hsQueue := rest, hsRun := d.cry.hsRun ++ [{ r with priv := hsPriv d r, bad := none }] } := by
  have htake : d.cry.hsQueue.take 1024 = r :: rest.take 1023 := by rw [hq]; rfl
  have hleast : ∀ lo hi, leastTen (r :: rest.take 1023) lo hi = if lo ≤ r.ten ∧ r.ten < hi then some r.ten else none :=
    leastTen_same rfl fun x hx => hsame x (List.mem_of_mem_take hx)
  have hturn : (leastTen (r :: rest.take 1023) (d.cry.hsTurn + 1) 4096).or (leastTen (r :: rest.take 1023) 0 4096) = some r.ten := by
    rw [hleast, hleast]
    split <;> simp [hlt]
  have hfind : (r :: rest.take 1023).find? (fun q => decide (q.ten = r.ten)) = some r := List.find?_cons_of_pos (by simp)
  have herase : d.cry.hsQueue.erase r = rest := by rw [hq, List.erase_cons_head]
  unfold Dev.hsStart
  dsimp only
  rw [htake]
  unfold leastTen at hturn
  simp only [hturn, if_neg (Nat.not_le.2 hroom), hfind, herase, hadm, Option.isSome_some, if_true]
  rfl

/-! HANDSHAKE_DONE (R287). -/

/-- An operation that generates a key reads no slot, draws its key from 64 random bytes and returns a public one. -/
theorem hsOp_keygen {op : Nat} {o : HsOp} (h : hsOp op = some o) (hkind : o.kind = 0) :
    o.in1 = 0 ∧ o.in2 = 0 ∧ o.random = true ∧ o.out ≠ 0 ∧ o.outLen ≤ 64 ∧ 0 < o.wr ∧ op < 0x40 := by
  unfold hsOp at h
  split at h <;> cases h <;> revert hkind <;> decide

/-- The device without the i-th running operation. -/
def hsEnded (d : Dev) (i : Nat) : Dev := d.setCry { d.cry with hsRun := d.cry.hsRun.eraseIdx i }

theorem hsDone_stale {d : Dev} {i : Nat} {r : HsReq} {o : HsOp} (hr : d.cry.hsRun[i]? = some r) (ho : hsOp r.op = some o)
    (hbad : r.bad = none) (hgen : (d.tenGet r.ten).gen ≠ r.gen) : d.hsDone i = (hsEnded d i).discard r.ten := by
  unfold Dev.hsDone
  simp only [hr, Option.bind_some, ho, hbad, Option.isSome_none, Bool.false_eq_true, if_false, if_pos hgen]
  rfl

theorem reg_emit (d : Dev) (o : Out) (q : Nat) : (d.emit o).reg q = d.reg q := rfl

/-- The random bytes that an operation draws. -/
def hsRandom (d : Dev) : List Byte := freeBytes d.serial 64

/-- The public key that an operation returns. -/
def hsPublic (d : Dev) (r : HsReq) (o : HsOp) : List Byte := primBytes 8 [primNat r.op, (hsRandom d).take o.outLen] o.wr

/-- The device once a generated key is in its slot, its completion not yet written. -/
def hsKept (d : Dev) (i : Nat) (r : HsReq) (o : HsOp) : Dev :=
  ((((hsEnded d i).drbg 64 true).2.putSlot (some r.ten) r.outSlot o.out (hsUsage o r.exp).1 (hsUsage o r.exp).2
    ((hsRandom d).take o.outLen)).tollAdd r.ten r.gen 4 1)

theorem hsDone_keygen {d : Dev} {i : Nat} {r : HsReq} {o : HsOp} {e : AdmEntry} (hr : d.cry.hsRun[i]? = some r)
    (ho : hsOp r.op = some o) (hbad : r.bad = none) (hadm : r.adm = some e) (hgen : (d.tenGet r.ten).gen = r.gen) (hkind : o.kind = 0)
    (hfree : d.slot r.outSlot = none) (hquota : d.keysOf r.ten < (d.tenGet r.ten).keys) :
    d.hsDone i = (((hsKept d i r o).pfWrite e.pf e.d1.toNat (hsPublic d r o)).admLate e 0x4D 0 0 (hsPublic d r o).length).count
      Reg.CRY_HS_DONE := by
  obtain ⟨h1, h2, hrandom, hout, -, -, hop⟩ := hsOp_keygen ho hkind
  have hnew : firstFail (((hsEnded d i).drbg 64 true).2.newSlot true (some r.ten) r.outSlot) = none :=
    newSlot_passes (d := ((hsEnded d i).drbg 64 true).2) hfree hquota true
  have hres : hsResult r o (hsRandom d) = (0, 0, (hsRandom d).take o.outLen, hsPublic d r o) := by
    simp only [hsResult, hkind]
    rfl
  have hended : d.setCry { d.cry with hsRun := d.cry.hsRun.eraseIdx i } = hsEnded d i := rfl
  have hdraw : ((hsEnded d i).drbg 64 true).1 = hsRandom d := rfl
  have hno : ¬(¬o.in1 = 0 ∨ 0 = 4) := by omega
  unfold Dev.hsDone
  simp only [hr, Option.bind_some, ho, hbad, Option.isSome_none, Bool.false_eq_true, if_false, if_neg (not_not.2 hgen), if_neg hno,
    if_neg (not_not.2 h2), List.append_nil, List.find?_nil, hrandom, if_true, hkind, decide_true, hended, hdraw, hres, ne_eq,
    not_true_eq_false, false_or, if_neg hout, hnew, if_pos hop, Dev.hsReply, hadm, Option.map_some, Option.getD_some]
  rfl

theorem rel_hsKept (d : Dev) (i : Nat) (r : HsReq) (o : HsOp) : Rel 17481859072 d (hsKept d i r o) :=
  Rel.step (rel_Dev_tollAdd ..) (by decide) (Rel.step (rel_Dev_putSlot ..) (by decide)
    (Rel.step (rel_Dev_drbg ..) (by decide) ((rel_Dev_setCry ..).mono (by decide))))

theorem cry_hsKept (d : Dev) (i : Nat) (r : HsReq) (o : HsOp) : (hsKept d i r o).cry =
    (((hsEnded d i).drbg 64 true).2.putSlot (some r.ten) r.outSlot o.out (hsUsage o r.exp).1 (hsUsage o r.exp).2
      ((hsRandom d).take o.outLen)).cry := (rel_Dev_tollAdd ..).same .cry (by decide)

/-- The key that an operation generates, in its slot. -/
theorem slot_hsKept {o : HsOp} (hlen : o.outLen ≤ 64) (d : Dev) (i : Nat) (r : HsReq) :
    ∃ k, (hsKept d i r o).slot r.outSlot = some k ∧ k.dev = false ∧ k.ten = r.ten ∧ k.type = o.out ∧
      k.usage = (hsUsage o r.exp).1 ∧ k.material.length = o.outLen := by
  obtain ⟨hnew, -⟩ := slot_of_put (congrArg CryPart.slots (cry_hsKept d i r o))
  exact ⟨_, hnew, rfl, rfl, rfl, rfl, by simpa [hsRandom, freeBytes_length] using hlen⟩

theorem outGrows_admFences (d : Dev) (pf n : Nat) : OutGrows d (d.admFences pf n) := by
  induction n generalizing d with
  | zero => exact outGrows_of_eq rfl
  | succ n ih =>
    unfold Dev.admFences
    split
    · split
      · exact outGrows_trans (admComplete1_spec ..).2.2 (ih _)
      · exact outGrows_of_eq rfl
    · exact outGrows_of_eq rfl

theorem outGrows_admLate (d : Dev) (e : AdmEntry) (opc st det len : Nat) : OutGrows d (d.admLate e opc st det len) := by
  unfold Dev.admLate Dev.admComplete
  split
  · exact outGrows_trans (admComplete1_spec ..).2.2 (outGrows_admFences ..)
  · exact outGrows_of_eq rfl

/-- The only command in progress ends, and is counted in a register. -/
theorem admLate_count_spec {d : Dev} {e : AdmEntry} {priv : Bool} (hup : d.glb.planes.ctlUp = true)
    (ht : d.ring.taken = [{ e := e, priv := priv }]) (opc st det len off : Nat) :
    AdmEnded d ((d.admLate e opc st det len).count off) e opc st det ∧ ((d.admLate e opc st det len).count off).cry = d.cry ∧
    OutGrows d ((d.admLate e opc st det len).count off) ∧
    ((d.admLate e opc st det len).count off).reg off = counterAdd (d.reg off) 1 ∧
    OnlyRegs [off] d ((d.admLate e opc st det len).count off) := by
  have hrel := rel_Dev_admLate d e opc st det len
  have hcount := rel_Dev_count (d.admLate e opc st det len) off
  have hregs : OnlyRegs [] d (d.admLate e opc st det len) := onlyRegs_of_regs_eq (hrel.same .regs (by decide))
  refine ⟨?_, (hcount.same .cry (by decide)).trans (hrel.same .cry (by decide)),
    outGrows_trans (outGrows_admLate ..) (outGrows_of_rel hcount (by decide)), ?_, fun o ho => ?_⟩
  · obtain ⟨r, hr, hrest⟩ := admLate_only hup ht opc st det len
    exact ⟨r, by rwa [(hcount.same .admJ (by decide)).2], hrest⟩
  · rw [reg_count_self, hregs off List.not_mem_nil]
  · exact (onlyRegs_count (List.mem_singleton_self off) _ o ho).trans (hregs o List.not_mem_nil)

/-- A generated key is in its slot, its public key returned, the request completed and counted (R285, R287). -/
theorem hsDone_keygen_spec {d : Dev} {i : Nat} {r : HsReq} {o : HsOp} {e : AdmEntry} (hr : d.cry.hsRun[i]? = some r)
    (ho : hsOp r.op = some o) (hbad : r.bad = none) (hadm : r.adm = some e) (hgen : (d.tenGet r.ten).gen = r.gen) (hkind : o.kind = 0)
    (hfree : d.slot r.outSlot = none) (hquota : d.keysOf r.ten < (d.tenGet r.ten).keys) (hup : d.glb.planes.ctlUp = true)
    (htaken : d.ring.taken = [{ e := e, priv := true }]) :
    (∃ k, (d.hsDone i).slot r.outSlot = some k ∧ k.dev = false ∧ k.ten = r.ten ∧ k.type = o.out ∧ k.usage = (hsUsage o r.exp).1 ∧
      k.material.length = o.outLen) ∧
    (∃ out, out.length = o.wr ∧ Out.hostWrite (.pf e.pf) none e.d1.toNat out false ∈ (d.hsDone i).out) ∧
    AdmEnded d (d.hsDone i) e 0x4D 0 0 ∧ (d.hsDone i).cry.hsRun = d.cry.hsRun.eraseIdx i ∧
    (d.hsDone i).reg Reg.CRY_HS_DONE = counterAdd (d.reg Reg.CRY_HS_DONE) 1 ∧ OnlyRegs [Reg.CRY_HS_DONE] d (d.hsDone i) := by
  obtain ⟨-, -, -, -, hlen, hwr, -⟩ := hsOp_keygen ho hkind
  have hpublic : (hsPublic d r o).length = o.wr := by simp [hsPublic, primBytes]
  have hne : hsPublic d r o ≠ [] := List.ne_nil_of_length_pos (by omega)
  have hwrite : (hsKept d i r o).pfWrite e.pf e.d1.toNat (hsPublic d r o) =
      (hsKept d i r o).emit (.hostWrite (.pf e.pf) none e.d1.toNat (hsPublic d r o) false) := by
    simp [Dev.pfWrite, List.isEmpty_iff, hne]
  have hrel := rel_hsKept d i r o
  have hplanes : (hsKept d i r o).glb.planes = d.glb.planes := hrel.same .planes (by decide)
  have ⟨hseq, _⟩ : (hsKept d i r o).glb.admSeq = d.glb.admSeq ∧ _ := hrel.same .admJ (by decide)
  have ⟨htk, _⟩ : (hsKept d i r o).ring.taken = d.ring.taken ∧ _ := hrel.same .taken (by decide)
  have hregs : OnlyRegs [] d (hsKept d i r o) := onlyRegs_of_regs_eq (hrel.same .regs (by decide))
  obtain ⟨⟨x, hx, hxseq, hxrest⟩, hcry, hout, hreg, honly⟩ :=
    admLate_count_spec (d := (hsKept d i r o).emit (.hostWrite (.pf e.pf) none e.d1.toNat (hsPublic d r o) false))
      (hplanes ▸ hup) (htk.trans htaken) 0x4D 0 0 (hsPublic d r o).length Reg.CRY_HS_DONE
  rw [← hwrite] at hx hcry hreg honly
  rw [hsDone_keygen hr ho hbad hadm hgen hkind hfree hquota]
  refine ⟨?key, ⟨hsPublic d r o, hpublic, ?out⟩, ⟨x, hx, hxseq.trans hseq, hxrest⟩, ?run, ?count, fun q hq => ?frame⟩
  case key =>
    obtain ⟨k, hk, hrest⟩ := slot_hsKept hlen d i r
    exact ⟨k, (slot_of_cry (congrArg CryPart.slots (hcry.trans (by rw [hwrite, emit_cry]))) _).trans hk, hrest⟩
  case out =>
    rw [hwrite]
    exact mem_out_of_grows hout (List.mem_append_right _ (List.mem_singleton_self _))
  case run =>
    rw [hcry, hwrite, emit_cry, cry_hsKept]
    rfl
  case count => rw [hreg, hwrite, reg_emit, hregs _ List.not_mem_nil]
  case frame =>
    rw [honly q hq, hwrite, reg_emit, hregs q List.not_mem_nil]

end Sys2Proof.Proofs

/-! The clauses of O36. -/

namespace Sys2Proof.Proofs

open Sys2Proof Sys2Proof.Machine Sys2Proof.Laws

set_option deprecated.oldSectionVars true

theorem cryCtxSet_completes {s : State} {e : AdmEntry} {x : CryCtx} {k : KeySlot} (hs : AdmReady s) (ho : Owns e e.ten s)
    (hst : (s.dev.tenGet e.ten).st = 2 ∨ (s.dev.tenGet e.ten).st = 3) (hlen : e.len = 128) (hl : e.buf.length = 128)
    (hbuf : e.bufErr = none) (hblk : ctxBlockBad e.buf = none) (hfree : s.dev.ctxOwner (AdmEntry_slot e) = none)
    (hquota : s.dev.ctxsOf e.ten < (s.dev.tenGet e.ten).ctxs) (hnext : leAt e.buf 8 4 < 2 ^ 31) (hx : x = ctxOfBlock e.ten e.buf)
    (hk : SlotOf s.dev e.ten x.keySlot k) (hmay : k.may Key.TRAFFIC = true) (hty : k.type = if isEsp x.kind then x.alg else 4)
    (hgood : s.dev.slotBad x.keySlot = false) : Completes (.cryCtxSet e) e 0x4E s fun b =>
      b.cryCtx (AdmEntry_slot e) = some (if isEsp x.kind then x else { x with cur := trafficKey (isQuic x.kind) x.alg k.material }) ∧
      (∀ j, j ≠ AdmEntry_slot e → b.cryCtx j = s.dev.cryCtx j) ∧ b.cry.slots = s.dev.cry.slots ∧ OnlyRegs [] s.dev b := by
  have hslot : x.keySlot = leAt e.buf 4 4 % 2 ^ 20 := hx ▸ rfl
  have hone : ¬leAt e.buf 8 4 / 2 ^ 31 = 1 := by omega
  have hgoods : ∀ n ∈ [leAt e.buf 4 4 % 2 ^ 20] ++ (if leAt e.buf 8 4 / 2 ^ 31 = 1 then [leAt e.buf 8 4 % 2 ^ 20] else []),
      s.dev.slotBad n = false := by
    rw [if_neg hone, ← hslot]
    simpa using hgood
  exact completes_of_setCryCtx hs ((exec_cryCtxSet e s).trans (run_keyRun_of_good hgoods))
    (cryCtxSet_done ho hst hlen hl hbuf hblk hfree hquota hnext hx hk hmay hty)

/-- Settles O36, command by command: a context or a request is written as the clause says, a frame goes to the engine of its context, and
an operation that ends puts its key in its slot. -/
theorem contextsAndHandshakes : Obligations.ContextsAndHandshakes := by
  unfold Obligations.ContextsAndHandshakes
  refine ⟨?set, ?update, ?frames, ?request, ?start, ?done⟩
  case set =>
    rintro s e c x k hs ho rfl hlen hl hbuf hblk hst hfree hquota hnext hx hk hkdev hkten hmay hgood hty
    exact cryCtxSet_completes hs ho hst hlen hl hbuf hblk hfree hquota hnext hx ⟨hk, hkdev, hkten⟩ hmay hty hgood
  case update =>
    rintro s e c x hs ho rfl hop hst hx hten
    refine ⟨cryCtxRead_completes hs ho hop hst hx hten, ?next, fun k hq hk => ?rotate,
      fun hkind => cryCtxResync_completes hs ho hop hst hx hten hkind,
      fun hkind => cryCtxResync_refused hs ho hop hst hx hten hkind, ?rekey, cryCtxDestroy_completes hs ho hop hst hx hten⟩
    case next =>
      rintro n k hq rfl hk hkdev hkten hmay hty hgood
      have hgoods : ∀ n ∈ [AdmEntry_newSlot e], s.dev.slotBad n = false := List.forall_mem_singleton.2 hgood
      exact completes_of_context hs ((exec_cryCtxNext e s).trans (run_keyRun_of_good hgoods))
        (cryCtxNext_done ho hop hst hx hten hq ⟨hk, hkdev, hkten⟩ hmay hty)
    case rotate =>
      exact completes_of_context hs (exec_cryCtxRotate e s) (cryCtxRotate_done ho hop hst hx hten hq hk)
    case rekey =>
      rintro n k hkind rfl hk hkdev hkten hmay hty hgood
      have hgoods : ∀ n ∈ [AdmEntry_newSlot e], s.dev.slotBad n = false := List.forall_mem_singleton.2 hgood
      exact completes_of_context hs ((exec_cryCtxRekey e s).trans (run_keyRun_of_good hgoods))
        (cryCtxRekey_done ho hop hst hx hten hkind ⟨hk, hkdev, hkten⟩ hmay hty)
  case frames =>
    intro s tok c p f en hs hp hst
    refine ⟨fun hnone => aeadUnit_no_context hs hp hst hnone, fun x k d1 data dec hx hkind hxst hk hgood hout hcells =>
      aeadUnit_espOut hs hp hst hx hkind hxst hk hgood hout hcells, ?received⟩
    intro x k h e spi hx hkind hxst hflags hk hgood hh he hspi hver hproto hlen hmine
    refine ⟨fun hwin hseen => ?replayed, fun hwin hopen => ?forged⟩
    case replayed =>
      have hdrop := (aeadFrame_espIn hx hxst hk hgood hkind p.data).trans
        (espIn_replayed hflags hh he hspi hver hproto hlen hmine hwin hseen)
      obtain ⟨t, hrun, hq, hgone, hcount, hcry, hregs⟩ := runs_of_aead_drop hs hp hst hdrop rfl
      exact ⟨t, hrun, hq, hgone, hcount, (cryCtx_of_cry hcry c).trans (cryCtx_setCryCtx_self ..), hregs⟩
    case forged =>
      have hdrop := (aeadFrame_espIn hx hxst hk hgood hkind p.data).trans
        (espIn_forged hflags hh he hspi hver hproto hlen hmine hwin hopen)
      obtain ⟨t, hrun, hq, hgone, hcount, hcry, hregs⟩ := runs_of_aead_drop hs hp hst hdrop rfl
      exact ⟨t, hrun, hq, hgone, hcount, (cryCtx_of_cry hcry c).trans (cryCtx_setCryCtx_self ..), hregs⟩
  case request =>
    rintro s e r hs ho hbuf rfl
    have ⟨_, _, hnone⟩ := hs
    refine ⟨fun hpass => ?_, fun hop => ?_⟩
    · refine runs_of_wait hs (exec_hsOp e s) (hsOpCmd_waits ho hbuf (by rwa [privOf_of_taken_nil hnone])) fun b hw hag =>
        ⟨hw, hag .cry (by decide), onlyRegs_of_regs_eq (hag .regs (by decide))⟩
    · exact runs_of_fail hs (exec_hsOp e s) (hsOpCmd_unknown ho hop) fun b hend hag =>
        ⟨hend, hag .cry (by decide), onlyRegs_of_agree hag (by decide)⟩
  case start =>
    intro s r rest e hs hq hsame hlt hroom hadm
    refine runs_of_run_eq hs (exec_handshakeStart s) (hsStart_first hq hsame hlt hroom hadm) ⟨⟨_, rfl⟩, rfl, rfl, ?_⟩
    exact agree_of_rel (rel_Dev_setCry ..) fun p hp => testBit_maskOf hp
  case done =>
    intro s i r o e hs hr ho hbad hadm
    refine ⟨fun hgen hkind hfree hquota hup htaken => ?_, fun hgen => ?_⟩
    · exact runs_of_run hs (exec_handshakeDone i s) (hsDone_keygen_spec hr ho hbad hadm hgen hkind hfree hquota hup htaken)
    · refine runs_of_run_eq hs (exec_handshakeDone i s) (hsDone_stale hr ho hbad hgen) ⟨?_, ?_, ?_⟩
      · exact (rel_Dev_discard ..).same .cry (by decide)
      · exact reg_count_self ..
      · exact onlyRegs_count (List.mem_singleton_self _) _

end Sys2Proof.Proofs

/-! States that meet the conditions of the statements about keys, contexts and handshakes, with what the commands then do. -/

namespace Sys2Proof.Proofs

open Sys2Proof Sys2Proof.Machine Sys2Proof.Laws

set_option deprecated.oldSectionVars true

/-- CRY_KEY_PUT of an AES-256 key in the clear, with every usage of its type, to the last slot. -/
def putLastSlot : AdmEntry :=
  { pf := 15, tag := 1, len := 32, d2 := 0x000FFFFF00000FFF#64, d3 := 0x2302#64, buf := List.replicate 32 0xA5#8 }

/-- Tenancy 4095 BOUND with room for one key. -/
def tenancyWithKey : State := { controlUp with dev := controlUp.dev.tenPut 4095 { st := 2, owner := 15, keys := 1 } }

theorem cryKeyPut_last_slot : Runs (.cryKeyPut putLastSlot) tenancyWithKey fun b =>
    b.slot 1048575 =
      some { dev := false, ten := 4095, type := 2, usage := 0x23, origin := 1, material := List.replicate 32 0xA5#8 } := by
  obtain ⟨hput, -⟩ := keysAndEntropy
  obtain ⟨hplain, -⟩ := hput tenancyWithKey putLastSlot _ _ _ ⟨rfl, rfl, rfl⟩ (.inr rfl) rfl rfl rfl rfl (.inl rfl) rfl (by decide)
    (by decide) (by decide) (by decide)
  obtain ⟨t, he, hq, -, hslot, -⟩ := hplain (by decide) (by decide) rfl
  exact ⟨t, he, hq, hslot⟩

/-- CRY_KEY_ZERO of slot 5 without FORCE. -/
def zeroNamed : AdmEntry := { pf := 15, tag := 2, d2 := 0x0000000500000FFF#64 }

/-- An ESP_IN context of tenancy 4095 under slot 5 that has seen sequence number 9. -/
def espContext : CryCtx := {
  ten := 4095, kind := 0x11, alg := 1, flags := 0, keySlot := 5, nextSlot := none, salt := List.replicate 4 0#8, seq := 9, spi := 0x100,
  replayWin := 64, ports := 0, dcidLen := 0, phase := 0, softBytes := 0, hardBytes := 0, softUnits := 0, hardUnits := 0, seen := [9] }

/-- Its key. -/
def espKey : KeySlot := { dev := false, ten := 4095, type := 1, usage := 0x21, origin := 1, material := List.replicate 16 0x5A#8 }

/-- An IPv4 packet of protocol 50 with its SPI and sequence number 9. -/
def espReplay : Packet := {
  pool := 0, cells := 1, stage := .crypt 3 false {},
  data := List.replicate 12 0#8 ++ beBytes 2 0x0800 ++ [0x45#8, 0#8] ++ beBytes 2 54 ++ List.replicate 5 0#8 ++ [50#8] ++
    List.replicate 10 0#8 ++ beBytes 4 0x100 ++ beBytes 4 9 ++ List.replicate 26 0#8 }

/-- Tenancy 4095 BOUND with that key and context, and the packet at its engine. -/
def espWaits : State := {
  controlUp with dev :=
    ((controlUp.dev.tenPut 4095 { st := 2, owner := 15 }).setCry { slots := [(5, espKey)], ctxs := [(3, espContext)] }).setPkt 0 espReplay }

theorem cryKeyZero_named : Runs (.cryKeyZero zeroNamed) espWaits fun b =>
    AdmEnded espWaits.dev b zeroNamed 0x4C St.STATE 2 ∧ b.cry = espWaits.dev.cry := by
  obtain ⟨-, huses, -⟩ := keysAndEntropy
  obtain ⟨-, -, -, -, hnamed⟩ := huses espWaits zeroNamed 5 ⟨rfl, rfl, rfl⟩ (.inr rfl) (by decide) rfl (.inl rfl)
  obtain ⟨t, he, hq, hend, hcry, -⟩ := hnamed espKey 3 espContext rfl rfl rfl (List.mem_singleton_self _) (by decide) (by decide)
  exact ⟨t, he, hq, hend, hcry⟩

theorem aeadUnit_replay : Runs (.aeadUnit 0 {}) espWaits fun b =>
    b.pkt 0 = none ∧ b.cryCtx 3 = some { espContext with replays := 1 } := by
  obtain ⟨-, -, hframes, -⟩ := contextsAndHandshakes
  obtain ⟨-, -, hin⟩ := hframes espWaits 0 3 espReplay {} false rfl rfl rfl
  obtain ⟨hreplay, -⟩ := hin espContext espKey (Net.l3 espReplay.data) 34 0x100 rfl rfl rfl rfl rfl rfl rfl (by decide) (by decide)
    (by decide) (by decide) (by decide) rfl
  obtain ⟨t, he, hq, hgone, -, hctx, -⟩ := hreplay (by decide) (by decide)
  exact ⟨t, he, hq, hgone, hctx⟩

theorem rngHealthFail_counts_lost : Runs (.rngHealthFail true false) controlUp fun b =>
    b.cry.failed = true ∧ b.reg (Reg.RING_EVT_LOST 0) = 1 := by
  obtain ⟨-, -, -, hfail, -⟩ := keysAndEntropy
  obtain ⟨t, he, hq, hcry, -, -, ⟨hlost, -⟩, -⟩ := hfail controlUp true false 0 rfl rfl (by decide)
  exact ⟨t, he, hq, by rw [hcry], (hlost rfl).trans (by decide)⟩

/-- HS_OP 0x01: an ML-KEM-768 key into slot 7. -/
def keygenEntry : AdmEntry := { pf := 15, tag := 3, len := 1184, d2 := 0x0000000700010FFF#64 }

/-- Its request, in an engine. -/
def keygenRuns : HsReq :=
  { ten := 4095, gen := 0, op := 1, outSlot := 7, inSlot := 0, inSlot2 := 0, exp := false, len := 1184, inLen := 0, buf := [],
    adm := some keygenEntry }

/-- Tenancy 4095 BOUND with room for one key, while that command is in progress. -/
def keygenInProgress : State :=
  let d := tenancyWithKey.dev.setCry { tenancyWithKey.dev.cry with hsRun := [keygenRuns] }
  { controlUp with dev := { d with ring := { d.ring with taken := [{ e := keygenEntry, priv := true }] } } }

theorem handshakeDone_keygen : Runs (.handshakeDone 0) keygenInProgress fun b =>
    (∃ k, b.slot 7 = some k ∧ k.type = 5 ∧ k.material.length = 64) ∧ b.cry.hsRun = [] := by
  obtain ⟨-, -, -, -, -, hdone⟩ := contextsAndHandshakes
  obtain ⟨hkey, -⟩ := hdone keygenInProgress 0 keygenRuns _ keygenEntry rfl rfl rfl rfl rfl
  obtain ⟨t, he, hq, ⟨k, hk, -, -, hty, -, hlen⟩, -, -, hrun, -⟩ := hkey rfl rfl rfl (by decide) rfl rfl
  exact ⟨t, he, hq, ⟨k, hk, hty, hlen⟩, hrun⟩

end Sys2Proof.Proofs
